-- ==== Sys2Proof/Word.lean ====
section
/-! DEFINITION. The word types of the model and their plainest arithmetic. -/
namespace Sys2Proof

/-- A byte of memory or of a message (R5: every multi-byte field is little-endian). -/
abbrev Byte := BitVec 8
/-- A 64-bit general register of a strand (R248). -/
abbrev Word := BitVec 64
/-- A 512-bit vector register of a strand (R277). -/
abbrev Vec := BitVec 512
/-- A 256-bit predicate register of a strand, or the first-fault register (R279, R281). -/
abbrev Pred := BitVec 256

/-- Bits [hi:lo] of a number (R3: bit ranges are written [msb:lsb]). -/
def fld (w hi lo : Nat) : Nat := w / 2 ^ lo % 2 ^ (hi - lo + 1)

/-- One bit of a number as a truth value. -/
def bitAt (w i : Nat) : Bool := w / 2 ^ i % 2 == 1

/-- A number below `2^k` read as two's complement. -/
def toSigned (k n : Nat) : Int :=
  if n % 2 ^ k < 2 ^ (k - 1) then (n % 2 ^ k : Nat) else (n % 2 ^ k : Nat) - (2 ^ k : Nat)

/-- The two's complement form of an integer in `k` bits. -/
def ofSigned (k : Nat) (z : Int) : Nat := (z % (2 ^ k : Nat)).toNat

/-- Quotient rounded up; zero for a zero divisor. -/
def ceilDiv (a b : Nat) : Nat := if b = 0 then 0 else (a + b - 1) / b

/-- The least multiple of `b` that is at least `a`. -/
def roundUp (a b : Nat) : Nat := ceilDiv a b * b

/-- Floor of the base-2 logarithm, 0 for 0. -/
def log2Floor (n : Nat) : Nat := Nat.log2 n

/-- The number of bits in the binary form (0 for 0). -/
def bitLen (n : Nat) : Nat := if n = 0 then 0 else Nat.log2 n + 1

/-- The number of set bits among the low `k` bits. -/
def popCount (k n : Nat) : Nat := ((List.range k).filter (bitAt n)).length

end Sys2Proof
end

