-- ==== Sys2Proof/Syntax.lean ====
section
/-! DEFINITION. The commands and events of the LVQ-880, one constructor per row of spec/opcode_table.json. -/
namespace Sys2Proof

/-- A logical strand: logical ridge 0 to 15 and logical strand 0 to 7 (R16, R17, R18). -/
structure StrandRef where
  ridge : Fin 16
  strand : Fin 8
  deriving DecidableEq, Repr

/-- The fixed units and the strands of a ridge (R387). -/
inductive UnitKind where
  | scn | jnu | agu | sru | strand
  deriving DecidableEq, Repr

/-- A route is named by tenant, route id and home device (R66, R88). -/
structure RouteKey where
  tenant : Nat
  id : Nat
  home : Nat
  deriving DecidableEq, Repr

/-- A cache array, by physical ridge and strand (R295, Table 10.6). -/
inductive CacheArray where
  | l1d (ridge strand : Nat)
  | l1i (ridge strand : Nat)
  | l2 (ridge : Nat)
  | slc
  deriving DecidableEq, Repr

/-- An error of Table 10.6 that a lookup of a line meets: one wrong bit of its data, two, a tag that is right when read
again, and one that is not. Any of them is a parity error in an L1I. -/
inductive ArrayError where
  | single | double | tagOnce | tagTwice
  deriving DecidableEq, Repr

/-- What fails in a RESOURCE_FAILURE: physical strands and ridges, or the path to a device (R73). The others are the faults
that the spec describes and no row of the table names (log 62): a corrected error of a strand's registers (R268), an error of
a cache array (R308), a flipped bit of a Cairn row of a logical ridge (R176), flipped bits of a line in memory, in its mirror copy or else in the
other, and its check symbols (R432, R444), and uncorrectable errors of the Depot map, of one tenant or of the device, and of Basecamp's memory
(R447). -/
inductive Resource where
  | strand (ridge strand : Nat)
  | ridge (ridge : Nat)
  | path (device : Nat)
  | registers (ridge strand : Nat)
  /-- A parity error in an entry of a strand's indirect-target table (R268). -/
  | itt (ridge strand entry : Nat)
  | array (a : CacheArray) (line : Nat) (e : ArrayError)
  | cairnRow (ridge bank row bit : Nat)
  | memory (line : Nat) (mirror : Bool) (data check : List Byte)
  | depotMap (tenant : Option Nat)
  | basecamp
  deriving DecidableEq, Repr

/-- A work-queue entry as read from the ring: the tenant and queue it came from and its 64-bit words,
eight per unit (R375). -/
structure Entry where
  tenant : Nat
  qid : Nat
  words : List Nat
  deriving DecidableEq, Repr

/-- What a device read of host memory returns (R390). -/
inductive HostReadResult where
  | data (bytes : List Byte)
  | unsupported (len : Nat)
  | aborted (len : Nat)
  | timeout (len : Nat)
  | poisoned (len : Nat)
  deriving DecidableEq, Repr

/-- A register or object write without a behaviour of its own (R455): a BAR0 write of a function, or
members of one object. -/
inductive RegWrite where
  | bar0 (tenant offset width value : Nat)
  | object (index member : Nat) (bytes : List Byte)
  deriving DecidableEq, Repr

/-- A failing access of a DMA channel (R401): its transfer offset, address, SPACE, direction, and
whether the read was poisoned. -/
structure AccessFault where
  offset : Nat
  addr : Nat
  space : Nat
  write : Bool
  poisoned : Bool
  deriving DecidableEq, Repr

/-- A cache that can be disabled: the L2 of a physical ridge, or an SLC quadrant (R306). -/
inductive CacheSel where
  | l2 (ridge : Nat)
  | slc (quadrant : Nat)
  deriving DecidableEq, Repr

/-- A coherence message: the header of Table 11.4 with its opcode, byte mask and line (R318). -/
structure CohMsg where
  op : Nat
  src : Nat
  dst : Nat
  txn : Nat
  aux : Nat := 0
  order : Bool := false
  evicting : Bool := false
  poison : Bool := false
  pd : Bool := false
  tokenValid : Bool := false
  token : Nat := 0
  reserved : Nat := 0
  line : Nat
  state : Nat := 0
  mask : Nat := 0
  data : List Byte := []
  deriving DecidableEq, Repr

/-- A service message of the Omuth Link: slot 0 of Table 12.7 and its further slots as 128-bit numbers. -/
structure SvcMsg where
  op : Nat
  source : Nat
  dest : Nat
  bcast : Bool := false
  tenant : Nat := 0
  reserved : Nat := 0
  route : Nat := 0
  arg : Nat := 0
  slot1 : Nat := 0
  slot2 : Nat := 0
  deriving DecidableEq, Repr

/-- A BELAY_ACK: slot 0's SOURCE and DEST (R357) and the payload of Table 02.4. -/
structure BelayAck where
  slotSource : Nat
  dest : Nat
  routeId : Nat
  spanPitch : Nat
  tick : Nat
  tenant : Nat
  kind : Nat
  source : Nat
  home : Nat
  halvings : Nat
  faultReplays : Nat
  reserved : Nat := 0
  deriving DecidableEq, Repr

/-- A flit header (Table 12.3). -/
structure FlitHdr where
  flitType : Nat
  seq : Nat := 0
  ackSeq : Nat := 0
  nak : Bool := false
  sender : Nat := 0
  firstMsg : Nat := 15
  credClassA : Nat := 0
  credTotalA : Nat := 0
  credClassB : Nat := 1
  credTotalB : Nat := 0
  code : Nat := 0
  arg : Nat := 0
  deriving DecidableEq, Repr

/-- Where a Brix request comes from (R461): a UDP source address and port, the SMBus, or a mailbox. -/
inductive BrixSrc where
  | udp (addr port : Nat)
  | smbus
  | mailbox (tenant : Nat)
  deriving DecidableEq, Repr

/-- A Brix request: its source and the fields of Table 16.3, then its payload. -/
structure BrixReq where
  src : BrixSrc
  version : Nat := 2
  op : Nat
  seq : Nat
  session : Nat := 0
  check : Nat := 0
  payload : List Byte := []
  deriving DecidableEq, Repr

/-- What a peer reports at its identity exchange in training (Table 12.2 step 5): its device ID, the
device count, P, W, M, the heartbeat settings, its TICK_SOURCE and whether it sees TICK_IN edges. -/
structure PeerIdentity where
  device : Nat
  count : Nat
  period : Nat
  window : Nat
  margin : Nat
  hbPeriod : Nat
  hbTimeout : Nat
  tickSource : Nat
  seesTickIn : Bool
  deriving DecidableEq, Repr

/-- What formation finds: the peers' identities and whether TICK_IN shows edges here (R41, R48). -/
structure FormationReport where
  seesTickIn : Bool
  peers : List PeerIdentity
  deriving DecidableEq, Repr

/-- An SCN context: a logical ridge and one of its eight contexts (R387). -/
structure ScnCtx where
  ridge : Nat
  ctx : Nat
  deriving DecidableEq, Repr

/-- The fields of a filter machine instruction other than its opcode (Table 04.5). -/
structure FArgs where
  d : Nat := 0
  a : Nat := 0
  b : Nat := 0
  g : Nat := 0
  k : Bool := false
  guarded : Bool := false
  n : Nat := 0
  imm : Nat := 0
  deriving DecidableEq, Repr

/-- The fields of a vector instruction other than its opcode and function (Table 09.2). -/
structure VArgs where
  vd : Fin 32
  vs1 : Fin 32
  vs2 : Fin 32
  pg : Fin 8 := 0
  long : Bool := false
  z : Bool := false
  es : Fin 4 := 0
  deriving DecidableEq, Repr

/-- The commands and events, one constructor per row of spec/opcode_table.json, in its order. -/
inductive Instr where
  /-- TICK (R38): A tick ends pitch n and starts pitch n+1. Verdicts take effect, spans belay, quotas are granted and the power step is applied. -/
  | tick (powerMw : Nat)
  /-- CUTOFF (R40): The cutoff instant C = T minus W is reached; compute for the pitch ends. -/
  | cutoff
  /-- DECISION (R69): At D, the home decides commit, extend or replay for each open span and sends the verdicts. -/
  | decision
  /-- TICK_IN_EDGE (R44): A rising edge on TICK_IN is taken as the next tick or ignored as early. -/
  | tickInEdge
  /-- TICK_IN_MISS (R44): No TICK_IN edge has arrived by P + 1 µs, so the master ticks on its own timer and counts a miss. -/
  | tickInMiss
  /-- TICK_MARKER (R356): A tick marker arrives; the follower checks its phase and forwards the marker. -/
  | tickMarker (port master source elapsed pitch : Nat)
  /-- BELAY_ACK (R66): A BELAY_ACK arrives: a participant's acknowledgement at the home, or a verdict at a participant. -/
  | belayAck (a : BelayAck)
  /-- RESOURCE_FAILURE (R73): A ridge, strand or fabric path fails; it is fenced and the affected spans replay at once. -/
  | resourceFailure (r : Resource)
  /-- SPAN_RESTART (R65): Once the journal has been applied, the span restarts at its first source rope. -/
  | spanRestart (k : RouteKey)
  /-- JOURNAL_STALL_RELEASE (R62): A store stalled on a full journal proceeds once space frees. -/
  | journalStallRelease
  /-- WQ_TAIL_DOORBELL (R371): A work-queue tail doorbell write is accepted or dropped. -/
  | wqTailDoorbell (tenant qid value : Nat)
  /-- CQ_HEAD_DOORBELL (R377): A completion-queue head doorbell write is accepted, freeing room for waiting records. -/
  | cqHeadDoorbell (tenant qid value : Nat)
  /-- FETCH_ENTRY (R372): The device reads one entry from a queue between head and doorbell and checks it. -/
  | fetchEntry
  /-- WQ_STALL_TIMEOUT (R372): An entry running past the doorbell is still not covered at the stall limit, so the queue halts with LEN_SHORT. -/
  | wqStallTimeout (tenant qid : Nat)
  /-- SUBMIT_ROUTE (R117): A route is checked at admission and either admitted or completed at once. -/
  | submitRoute (e : Entry)
  /-- CREATE_WQ (R382): Creates a work queue bound to a completion queue. -/
  | createWq (e : Entry)
  /-- DELETE_WQ (R383): Stops fetching from a work queue and deletes it. -/
  | deleteWq (e : Entry)
  /-- CREATE_CQ (R382): Creates a completion queue with its vector and coalescing values. -/
  | createCq (e : Entry)
  /-- DELETE_CQ (R382): Deletes an unused completion queue. -/
  | deleteCq (e : Entry)
  /-- SET_QUOTA (R224): Sets the tenant's Depot quota. -/
  | setQuota (e : Entry)
  /-- GRANT_SPILL (R224): Adds a host memory range to the tenant's spill ranges. -/
  | grantSpill (e : Entry)
  /-- REVOKE_SPILL (R224): Removes a granted spill range. -/
  | revokeSpill (e : Entry)
  /-- OPEN_OUTPUT (R224): Creates an empty OUTPUT object and returns its handle. -/
  | openOutput (e : Entry)
  /-- CLOSE_OUTPUT (R224): Frees an OUTPUT object and its pages. -/
  | closeOutput (e : Entry)
  /-- SET_WEIGHT (R382): Sets the tenant's scheduling weight from the next tick. -/
  | setWeight (e : Entry)
  /-- LOG_START (R389): Starts the tenant's route log into a host ring. -/
  | logStart (e : Entry)
  /-- LOG_STOP (R382): Stops the tenant's route log. -/
  | logStop (e : Entry)
  /-- GET_LOG_ERROR_RECORDS (R383): Returns the tenant's unread error records and removes them from its view. -/
  | getLogErrorRecords (e : Entry)
  /-- GET_LOG_COUNTERS (R382): Returns the tenant's counters page. -/
  | getLogCounters (e : Entry)
  /-- GET_LOG_OPEN_ROUTES (R382): Returns the tenant's open-routes page. -/
  | getLogOpenRoutes (e : Entry)
  /-- ABORT_ROUTE (R57): Aborts an open route at the tick that R57 selects. -/
  | abortRoute (e : Entry)
  /-- LOAD_CAIRN (R169): Runs a Cairn command list in order and stops at the first failing command. -/
  | loadCairn (e : Entry)
  /-- AQ_ENABLE (R370): A write of ENABLE = 1 creates both admin queues from the admin registers. -/
  | aqEnable (tenant : Nat)
  /-- AQ_DISABLE (R370): A write of ENABLE = 0 deletes both admin queues, unless other queues exist. -/
  | aqDisable (tenant : Nat)
  /-- MB_CONTROL_GO (R465): Submits the mailbox request; the response is written and vector 63 is signalled. -/
  | mbControlGo (tenant : Nat)
  /-- REGISTER_WRITE (R455): A write to a register or object that has no behaviour of its own; it takes effect when its response is sent. -/
  | registerWrite (w : RegWrite)
  /-- MSIX_COALESCE_TIMEOUT (R381): TIME µs after the first unsignalled completion, the completion queue's vector is signalled. -/
  | msixCoalesceTimeout (tenant qid : Nat)
  /-- FUNCTION_LEVEL_RESET (R385): A function-level reset of a tenant starts the steps of Table 13.9. -/
  | functionLevelReset (tenant : Nat)
  /-- MANAGEMENT_RESET (R385): A write of 1 to the tenant's RESET member starts a management reset that keeps the tenant's queues. -/
  | managementReset (tenant : Nat)
  /-- TENANT_RESET_COMPLETE (R385): The tenant reset ends: RESETTING clears and the function registers return to reset values. -/
  | tenantResetComplete (tenant : Nat)
  /-- HOST_PORT_RESET (R482): PERST_N of a port is asserted; its links retrain and all of its functions reset. -/
  | hostPortReset (port : Nat)
  /-- PERST_N_RELEASE (R480): PERST_N of a port is released and its links train. -/
  | perstNRelease (port : Nat)
  /-- MALFORMED_TLP (R390): A malformed TLP is dropped and reported. -/
  | malformedTlp (port link : Nat)
  /-- HOST_READ_COMPLETION (R390): A device read of host memory completes, possibly with UR, CA, timeout or poisoned data. -/
  | hostReadCompletion (tenant addr : Nat) (r : HostReadResult)
  /-- CXL_MEM_READ (R336): A MemRd or MemRdData becomes RD_NC at the line's home. -/
  | cxlMemRead (addr : Nat)
  /-- CXL_MEM_WRITE (R336): A MemWr becomes a full-mask WR_NC. -/
  | cxlMemWrite (addr : Nat) (data : List Byte)
  /-- CXL_MEM_PARTIAL_WRITE (R336): A MemWrPtl becomes a WR_NC with the request's byte mask. -/
  | cxlMemPartialWrite (addr mask : Nat) (data : List Byte)
  /-- MEMSPECRD (R336): A speculative read hint is dropped or used and never returns data. -/
  | memspecrd (addr : Nat)
  /-- CXL_OTHER_M2S (R390): An unsupported M2S request receives poisoned data or an empty completion. -/
  | cxlOtherM2s (expectsData : Bool)
  /-- DMA_COPY (R402): Checks a copy entry and admits it to its channel. -/
  | dmaCopy (e : Entry)
  /-- COMPRESS (R405): Checks a compression job entry and admits it to its channel. -/
  | compress (e : Entry)
  /-- DECOMPRESS (R408): Checks a decompression job entry and admits it to its channel. -/
  | decompress (e : Entry)
  /-- DIGEST_OPEN (R409): Takes a digest context for a message of declared length. -/
  | digestOpen (e : Entry)
  /-- DIGEST_FEED (R412): Feeds source bytes into an open message. -/
  | digestFeed (e : Entry)
  /-- DIGEST_READ (R412): Writes the message result and frees the context, or returns DIGEST_NOT_READY. -/
  | digestRead (e : Entry)
  /-- STOP (R397): DMA_CONTROL STOP stops a channel between entries. -/
  | dmaStop (e : Entry)
  /-- RESUME (R397): DMA_CONTROL RESUME restarts a stopped or halted channel. -/
  | dmaResume (e : Entry)
  /-- FLUSH (R397): DMA_CONTROL FLUSH completes waiting entries with ABORTED_BY_HOST. -/
  | dmaFlush (e : Entry)
  /-- CHANNEL_ENTRY_START (R397): A channel starts its next admitted entry when its turn comes. -/
  | channelEntryStart (ch : Nat)
  /-- ENGINE_ENTRY_COMPLETE (R395): An engine entry's work ends and its completion becomes due. -/
  | engineEntryComplete (ch : Nat)
  /-- CHANNEL_HALT (R401): A failing access halts the channel, latches the fault and posts the entry's completion. -/
  | channelHalt (ch : Nat) (f : AccessFault)
  /-- COMPRESSION_JOB_START (R404): A free compression engine takes the next waiting job. -/
  | compressionJobStart
  /-- DIGEST_BLOCK (R411): A free digest pipe takes one ready block and processes it. -/
  | digestBlock
  /-- ZERO_PAGE_CLEARED (R219): The zeroing engine finishes a page and returns it to its pool, releasing waiting allocations. -/
  | zeroPageCleared
  /-- SUSPEND_LIMIT_EXPIRY (R231): A route suspended for SUSPEND_LIMIT ticks completes with DEPOT_FULL. -/
  | suspendLimitExpiry (k : RouteKey)
  /-- MIGRATION_COPY_DONE (R234): The copy of a migrating page ends, so the switch can be tried. -/
  | migrationCopyDone (page : Nat)
  /-- MIGRATION_ABANDON (R234): After the fourth tick at which the switch is not due, the migration is abandoned. -/
  | migrationAbandon (page : Nat)
  /-- PUBLICATION_RESUME (R232): A publication paused for a page continues once the page is available. -/
  | publicationResume (k : RouteKey)
  /-- TASK_DISPATCH (R387): A unit with a free context takes the next task chosen by priority, weight, age and stage. -/
  | taskDispatch (ridge : Nat) (unit : UnitKind)
  /-- TASK_DONE (R387): A task ends and frees its unit context. -/
  | taskDone (ridge : Nat) (unit : UnitKind) (ctx : Nat)
  /-- JOIN_SEAL (R152): Once every build rope has arrived, each ridge seals its build. -/
  | joinSeal (k : RouteKey) (stage ridge : Nat)
  /-- SUMMIT_MERGE (R206): When all closed buffers tagged n are present, the route's entries are merged into staging. -/
  | summitMerge (k : RouteKey) (pitch : Nat)
  /-- PUBLICATION_DONE (R209): Publication ends; the region becomes visible at the next qualifying tick. -/
  | publicationDone (k : RouteKey)
  /-- PARITY_SWEEP (R176): The parity sweep passes over the owned banks and repairs failing rows from their shadows. -/
  | paritySweep
  /-- SHADOW_SCRUB (R177): The shadow scrub compares rows with their shadows and repairs any that differ. -/
  | shadowScrub
  /-- STORE_REFUSED (R266): A retired store is refused by memory and the route ends with BUS_ERROR. -/
  | storeRefused (st : StrandRef)
  /-- CLEAN (R303): A diagnostic CLEAN writes dirty data back and leaves copies clean. -/
  | clean
  /-- INVAL (R303): A diagnostic INVAL invalidates copies; a dirty line is handled as CLEANINVAL. -/
  | inval
  /-- CLEANINVAL (R303): A diagnostic CLEANINVAL writes dirty data back and invalidates copies. -/
  | cleaninval
  /-- CACHE_DISABLE (R307): A write of enable = 0 starts the disabling sweep of an L2 or SLC quadrant. -/
  | cacheDisable (c : CacheSel)
  /-- CACHE_ENABLE (R307): A write of enable = 1 stops a sweep or re-enables a disabled cache. -/
  | cacheEnable (c : CacheSel)
  /-- CACHE_SWEEP_DONE (R307): The sweep passes the last set and the cache reads DISABLED. -/
  | cacheSweepDone (c : CacheSel)
  /-- RD_SHARED (R326): A read for caching at the home. -/
  | rdShared (m : CohMsg)
  /-- RD_OWN (R326): A read for ownership at the home, with the journal step where it applies. -/
  | rdOwn (m : CohMsg)
  /-- UPGRADE (R326): A holder asks the home for M without data. -/
  | upgrade (m : CohMsg)
  /-- RD_NC (R326): A non-caching read at the home. -/
  | rdNc (m : CohMsg)
  /-- WR_NC (R326): A non-caching masked write at the home. -/
  | wrNc (m : CohMsg)
  /-- CMO_CLEAN (R326): A CLEAN by address at the home. -/
  | cmoClean (m : CohMsg)
  /-- CMO_CLEANINVAL (R326): A CLEANINVAL by address at the home. -/
  | cmoCleaninval (m : CohMsg)
  /-- CMO_INVAL (R326): An INVAL by address at the home, discarding dirty data. -/
  | cmoInval (m : CohMsg)
  /-- TOKEN_RETURN (R324): An unused retry token is returned and its reserved tracker entry frees. -/
  | tokenReturn (m : CohMsg)
  /-- SNP_SHARED (R319): A holder keeps S and sends a dirty line to the home. -/
  | snpShared (m : CohMsg)
  /-- SNP_INV (R319): A holder invalidates its copy and sends a dirty line to the home. -/
  | snpInv (m : CohMsg)
  /-- SNP_DATA (R319): A holder sends a copy to the home and keeps its state. -/
  | snpData (m : CohMsg)
  /-- SNP_CLEAN (R319): A holder sends a dirty line to the home and keeps it in S. -/
  | snpClean (m : CohMsg)
  /-- FWD_SHARED (R319): The owner sends DATA S to the requester. -/
  | fwdShared (m : CohMsg)
  /-- FWD_OWN (R319): The owner sends DATA M to the requester and invalidates its copy. -/
  | fwdOwn (m : CohMsg)
  /-- SNP_DISCARD (R319): A holder invalidates its copy and discards dirty data. -/
  | snpDiscard (m : CohMsg)
  /-- GANG_RD (R329): A Gang read is forwarded to the line's owner. -/
  | gangRd (m : CohMsg)
  /-- GANG_OWN (R329): A Gang ownership read is forwarded to the line's owner. -/
  | gangOwn (m : CohMsg)
  /-- ACK (R319): A snoop answer without data arrives at the home. -/
  | cohAck (m : CohMsg)
  /-- ACK_LOST (R308): A holder reports a lost line; the home marks P if the line was M or O. -/
  | ackLost (m : CohMsg)
  /-- RETRY (R324): A request is refused and a retry token is reserved for it. -/
  | cohRetry (m : CohMsg)
  /-- GRANT (R324): The token's tracker entry is free; the requester resends its request. -/
  | cohGrant (m : CohMsg)
  /-- CMP (R319): A request completes without data. -/
  | cohCmp (m : CohMsg)
  /-- WB_ACK (R331): A write-back or notice has been applied; the holder frees its buffer. -/
  | wbAck (m : CohMsg)
  /-- OWNER_MOVED (R329): A Gang owner has passed the line on; the home updates OWNER. -/
  | ownerMoved (m : CohMsg)
  /-- DATA (R319): A line arrives at a requester with its granted state; held snoops are then answered. -/
  | cohData (m : CohMsg)
  /-- SNP_DATA_RSP (R319): A line arrives at the home from a snooped holder. -/
  | snpDataRsp (m : CohMsg)
  /-- WB_DIRTY (R326): A dirty line is written back to the home. -/
  | wbDirty (m : CohMsg)
  /-- EVICT_CLEAN (R326): Notice that a clean line was dropped. -/
  | evictClean (m : CohMsg)
  /-- PD_SET (R330): A Gang owner sets the line's pitch-dirty bit at the home. -/
  | pdSet (m : CohMsg)
  /-- HEARTBEAT_SEND (R333): Every HEARTBEAT_PERIOD the device sends a heartbeat on every active port. -/
  | heartbeatSend
  /-- HEARTBEAT (R333): A peer's heartbeat arrives and is forwarded. -/
  | heartbeat (port origin source state beat : Nat)
  /-- HEARTBEAT_TIMEOUT (R333): No heartbeat from a peer within the timeout; the peer is declared dead and a notice is sent. -/
  | heartbeatTimeout (device : Nat)
  /-- SNOOP_TIMEOUT (R333): A snoop or forward has waited HEARTBEAT_TIMEOUT; its target device is declared dead. -/
  | snoopTimeout (device : Nat)
  /-- DEATH_NOTICE (R335): A death notice arrives; the named device is treated as dead, or retreats if it names the receiver. -/
  | deathNotice (m : SvcMsg)
  /-- PORT_ENABLE (R342): An Omuth port starts training at formation or when enabled. -/
  | portEnable (p : Nat)
  /-- TRAINING_TIMEOUT (R342): A port that is not ACTIVE within 20 ms stays DOWN. -/
  | trainingTimeout (p : Nat)
  /-- PAYLOAD_FLIT (R349): A PAYLOAD flit arrives; it is decoded, checked and accepted or discarded, and its messages are delivered.
  Its 256 bytes arrive with the 16 parity bytes that follow them. -/
  | payloadFlit (p : Nat) (flit parity : List Byte)
  /-- IDLE (R346): A CONTROL IDLE flit arrives, carrying acknowledgements and credits. -/
  | linkIdle (p : Nat) (coded : List Byte)
  /-- WIDTH_CHANGE (R344): A WIDTH_CHANGE flit narrows the port to a new lane mask. -/
  | widthChange (p : Nat) (coded : List Byte)
  /-- RETRAIN (R362): A RETRAIN control flit starts a retrain of the port. -/
  | retrain (p : Nat) (coded : List Byte)
  /-- LATENCY_PROBE (R343): A latency probe is answered with LATENCY_ECHO. -/
  | latencyProbe (p : Nat) (coded : List Byte)
  /-- LATENCY_ECHO (R343): A latency echo arrives and the path latency is computed. -/
  | latencyEcho (p : Nat) (coded : List Byte)
  /-- PORT_LOST (R345): A PORT_LOST flit names the last SEQ accepted; later messages are resent on the remaining port. -/
  | portLost (p : Nat) (coded : List Byte)
  /-- FLIT_REPLAY_TIMEOUT (R349): After 4 µs without ACK_SEQ advancing, the sender resends from the oldest unacknowledged flit. -/
  | flitReplayTimeout (p : Nat)
  /-- LANE_LOCK_LOST (R344): A lane loses lock and the port fails over to a narrower width. -/
  | laneLockLost (p lane : Nat)
  /-- LANE_ERROR_INTERVAL (R344): At the end of each 1 ms interval, lanes over LANE_ERROR_LIMIT are failed. -/
  | laneErrorInterval (p : Nat)
  /-- WIDTH_SWITCH_DONE (R344): Both ends resume at the new width and replay unacknowledged flits. -/
  | widthSwitchDone (p : Nat)
  /-- RETRAIN_CMD (R362): A write of 1 to RETRAIN_CMD forces a retrain of the port. -/
  | retrainCmd (p : Nat)
  /-- RETRAIN_DONE (R362): A retrain ends, credits are advertised again and replay resumes; the mask names the lanes
  that hold their lock then. -/
  | retrainDone (p lanes : Nat)
  /-- ROUTE_OPEN (R358): A participant learns of a route and reads the home's admitted copy. -/
  | routeOpen (m : SvcMsg)
  /-- ROUTE_END (R358): A participant frees a route's state. -/
  | routeEnd (m : SvcMsg)
  /-- PAGE_ALLOC (R359): A peer requests a Depot page at the home. -/
  | pageAlloc (m : SvcMsg)
  /-- PAGE_GRANT (R359): A page handle arrives, or 0 to fail the allocation. -/
  | pageGrant (m : SvcMsg)
  /-- QUOTA_DRAW (R223): A participant draws quota blocks from the home. -/
  | quotaDraw (m : SvcMsg)
  /-- QUOTA_GRANT (R223): The home grants or refuses quota blocks. -/
  | quotaGrant (m : SvcMsg)
  /-- QUOTA_RETURN (R223): A participant returns quota blocks. -/
  | quotaReturn (m : SvcMsg)
  /-- ROPE_NOTICE (R359): A delivered rope becomes known to its consumer. -/
  | ropeNotice (m : SvcMsg)
  /-- SUMMIT_ENTRY (R205): A peer's slot entry reaches the home's remote slot. -/
  | summitEntry (m : SvcMsg)
  /-- SUMMIT_CLOSE (R205): A close record tagged n closes a remote slot's buffer. -/
  | summitClose (m : SvcMsg)
  /-- LINK_NAK (R361): A violation report arrives, is sunk and counted. -/
  | linkNak (p : Nat) (slot : Nat)
  /-- REFRESH (R427): A channel issues all-bank refresh on its fixed grid. -/
  | refresh (ch : Nat)
  /-- DIMM_TEMP_SAMPLE (R428): DIMM sensors are read and the refresh interval is adjusted. -/
  | dimmTempSample (ch : Nat) (centi : Int)
  /-- SCRUB_STEP (R437): The scrubber reads its next line, correcting or poisoning it. -/
  | scrubStep (ch : Nat)
  /-- DDR_TRAINING_DONE (R425): DDR5 training ends and initialisation starts. -/
  | ddrTrainingDone (failed : List Nat)
  /-- DDR_INIT_DONE (R425): Initialisation ends and DDR_STATE reads READY. -/
  | ddrInitDone
  /-- CHANNEL_FAILURE (R424): A channel fails and is fenced; its partner serves, or FATAL_DEVICE is raised. -/
  | channelFailure (ch : Nat)
  /-- FAULT_WINDOW_EXPIRY (R439): A fault-tracking entry is cleared after FAULT_WINDOW. -/
  | faultWindowExpiry (ch : Nat)
  /-- TEST_WRITE (R443): Writes TEST_DATA with computed check bytes. -/
  | testWrite
  /-- TEST_WRITE_RAW (R443): Writes TEST_DATA with TEST_CHECK as given. -/
  | testWriteRaw
  /-- TEST_READ (R443): Reads a raw line into TEST_DATA and TEST_CHECK. -/
  | testRead
  /-- REMAP_READ (R441): A channel or stack number is written; its remap entries are returned. -/
  | remapRead (ch : Nat)
  /-- NEXT_RECORD_READ (R448): Reading NEXT_RECORD returns the head error record and removes it. -/
  | nextRecordRead
  /-- FATAL_LATCH_READ (R450): Reading FATAL_LATCH returns the latched record and empties the latch. -/
  | fatalLatchRead
  /-- PING (R457): Brix PING returns the device state. -/
  | brixPing (r : BrixReq)
  /-- READ (R454): Brix READ returns member values taken at one instant. -/
  | brixRead (r : BrixReq)
  /-- WRITE (R454): Brix WRITE applies all members of one object in one step, or none. -/
  | brixWrite (r : BrixReq)
  /-- LIST (R457): Brix LIST returns the objects above an index. -/
  | brixList (r : BrixReq)
  /-- SESSION_OPEN (R458): Starts session set-up with ephemeral points and a signed answer. -/
  | sessionOpen (r : BrixReq)
  /-- SESSION_FINISH (R458): Completes session set-up by checking the manager's key and signature. -/
  | sessionFinish (r : BrixReq)
  /-- SESSION_CLOSE (R459): Closes a session. -/
  | sessionClose (r : BrixReq)
  /-- MEASURE (R473): Returns signed measurements for a nonce. -/
  | measure (r : BrixReq)
  /-- EVENT_ACK (R467): Acknowledges an event so that it is not sent again. -/
  | eventAck (r : BrixReq)
  /-- EVENT_RESEND (R467): An unacknowledged event is sent again every 100 ms, up to 10 sends. -/
  | eventResend (seq : Nat)
  /-- SESSION_IDLE_TIMEOUT (R459): A session with no valid message for SESSION_IDLE seconds closes. -/
  | sessionIdleTimeout (session : Nat)
  /-- AUTH_LOCKOUT_EXPIRY (R459): The 60 s refusal of a source after failed set-ups ends. -/
  | authLockoutExpiry (src : BrixSrc)
  /-- GET_VERSION (R466): SPDM GET_VERSION is answered. -/
  | getVersion (port link : Nat) (payload : List Byte)
  /-- GET_CAPABILITIES (R466): SPDM GET_CAPABILITIES is answered. -/
  | getCapabilities (port link : Nat) (payload : List Byte)
  /-- NEGOTIATE_ALGORITHMS (R466): SPDM NEGOTIATE_ALGORITHMS selects P-384 and SHA-384. -/
  | negotiateAlgorithms (port link : Nat) (payload : List Byte)
  /-- GET_DIGESTS (R466): SPDM GET_DIGESTS is answered. -/
  | getDigests (port link : Nat) (payload : List Byte)
  /-- GET_CERTIFICATE (R466): Returns the certificate chain of slot 0. -/
  | getCertificate (port link : Nat) (payload : List Byte)
  /-- CHALLENGE (R466): SPDM CHALLENGE is answered, signed by the identity key. -/
  | challenge (port link : Nat) (payload : List Byte)
  /-- GET_MEASUREMENTS (R466): Returns MEAS0 to MEAS7 as measurement blocks. -/
  | getMeasurements (port link : Nat) (payload : List Byte)
  /-- SPDM_UNSUPPORTED_REQUEST (R466): Any other SPDM request is answered with UnsupportedRequest. -/
  | spdmUnsupportedRequest (port link : Nat) (payload : List Byte)
  /-- ARP (R463): The management port answers ARP. -/
  | arp (targetIp : Nat)
  /-- NEIGHBOUR_DISCOVERY (R463): The management port answers IPv6 neighbour discovery. -/
  | neighbourDiscovery (target : List Byte)
  /-- ICMP_ECHO (R463): The management port answers ICMP echo. -/
  | icmpEcho (target : List Byte) (payload : List Byte)
  /-- OTHER_TRAFFIC (R463): Any other frame on the management port is dropped. -/
  | otherTraffic
  /-- FORM (R456): STATE_REQUEST 2 runs the configuration checks and starts FORMING. -/
  | form (deviceCount deviceId : Nat)
  /-- RETURN_TO_CONFIGURATION (R478): STATE_REQUEST 1 drops remote lines, stops heartbeats and returns the device to CONFIGURATION. -/
  | returnToConfiguration
  /-- BIVOUAC_REQUEST (R490): STATE_REQUEST 3 arms bivouac entry. -/
  | bivouacRequest
  /-- RETREAT_REQUEST (R495): STATE_REQUEST 4 sends the device to retreat with cause MANAGEMENT. -/
  | retreatRequest
  /-- RETREAT_EXIT (R499): STATE_REQUEST 5 leaves retreat when every cause allows it. -/
  | retreatExit
  /-- OTP_WRITE (R469): A write to OTP members burns the next generation and reads it back. -/
  | otpWrite (r : BrixReq)
  /-- MEAS_EXTEND (R473): A written digest extends MEAS7. -/
  | measExtend (r : BrixReq)
  /-- DEVICE_RESET (R482): RST_N asserted, or a write of 1 to DEVICE_RESET, resets the device. -/
  | deviceReset
  /-- RIDGE_RETIRE (R482): A write of 1 marks a ridge failed; it is retired at the next belay. -/
  | ridgeRetire (ridge : Nat)
  /-- RIDGE_UNRETIRE (R483): A write of 0 clears a ridge's failure mark for the next formation. -/
  | ridgeUnretire (ridge : Nat)
  /-- PWRGOOD_ASSERT (R482): PWRGOOD is asserted and a power-on reset starts. -/
  | pwrgoodAssert
  /-- PWRGOOD_DEASSERT (R508): Outputs go to high impedance and memory contents are lost. -/
  | pwrgoodDeassert
  /-- RST_N_RELEASE (R471): RST_N is released and the boot ROM measures and loads the firmware. -/
  | rstNRelease
  /-- BASECAMP_READY (R480): Basecamp is ready: retry status ends and DDR training starts. -/
  | basecampReady
  /-- FORMATION_COMPLETE (R479): Formation completes, tick 0 falls and the device reads OPERATIONAL or RETREAT. -/
  | formationComplete (r : FormationReport)
  /-- THERMAL_SAMPLE (R484): Junction sensors are read; THERM_N, fan duty and the retreat at 105 °C follow. -/
  | thermalSample (centi : List Int)
  /-- THERMAL_TRIP (R488): At 115 °C every domain except always-on switches off. -/
  | thermalTrip
  /-- RAIL_CURRENT_LIMIT (R485): A rail reaches its maximum current; new dispatch pauses until the current falls 5 % below it. -/
  | railCurrentLimit (rail : Nat)
  /-- RAIL_UNDERVOLTAGE (R508): A rail more than 5 % low for 5 µs switches off every domain except always-on. -/
  | railUndervoltage (rail : Nat)
  /-- BIVOUAC_ENTRY (R490): At the agreed pitch, the device compacts and enters bivouac. -/
  | bivouacEntry
  /-- LDCOL (R136): Loads an input column into a column register. -/
  | filterLdCol (c : ScnCtx) (a : FArgs)
  /-- EQ (R137): Mask of equality. -/
  | filterEq (c : ScnCtx) (a : FArgs)
  /-- NE (R137): Mask of inequality. -/
  | filterNe (c : ScnCtx) (a : FArgs)
  /-- LT (R137): Mask of less than. -/
  | filterLt (c : ScnCtx) (a : FArgs)
  /-- LE (R137): Mask of less or equal. -/
  | filterLe (c : ScnCtx) (a : FArgs)
  /-- GT (R137): Mask of greater than. -/
  | filterGt (c : ScnCtx) (a : FArgs)
  /-- GE (R137): Mask of greater or equal. -/
  | filterGe (c : ScnCtx) (a : FArgs)
  /-- BETWEEN (R137): Mask of a value between two bounds. -/
  | filterBetween (c : ScnCtx) (a : FArgs)
  /-- ISNULL (R136): Mask of null slots. -/
  | filterIsNull (c : ScnCtx) (a : FArgs)
  /-- INLIST (R137): Mask of membership in a sorted list. -/
  | filterInList (c : ScnCtx) (a : FArgs)
  /-- INCAIRN (R139): Mask of membership in a Cairn table. -/
  | filterInCairn (c : ScnCtx) (a : FArgs)
  /-- PREFIX (R139): Mask of a prefix match against Cairn patterns. -/
  | prefixMatch (c : ScnCtx) (a : FArgs)
  /-- SUFFIX (R139): Mask of a suffix match against Cairn patterns. -/
  | suffixMatch (c : ScnCtx) (a : FArgs)
  /-- FILTER_AND (R137): Three-valued AND of two masks. -/
  | filterAnd (c : ScnCtx) (a : FArgs)
  /-- FILTER_OR (R137): Three-valued OR of two masks. -/
  | filterOr (c : ScnCtx) (a : FArgs)
  /-- NOT (R137): Three-valued NOT of a mask. -/
  | filterNot (c : ScnCtx) (a : FArgs)
  /-- ISTRUE (R136): Mask of slots where the operand is TRUE. -/
  | filterIsTrue (c : ScnCtx) (a : FArgs)
  /-- ISFALSE (R136): Mask of slots where the operand is FALSE. -/
  | filterIsFalse (c : ScnCtx) (a : FArgs)
  /-- ISUNKNOWN (R136): Mask of slots where the operand is UNKNOWN. -/
  | filterIsUnknown (c : ScnCtx) (a : FArgs)
  /-- FILTER_ADD (R141): Column addition. -/
  | filterAdd (c : ScnCtx) (a : FArgs)
  /-- FILTER_SUB (R141): Column subtraction. -/
  | filterSub (c : ScnCtx) (a : FArgs)
  /-- FILTER_MUL (R141): Column multiplication. -/
  | filterMul (c : ScnCtx) (a : FArgs)
  /-- FILTER_DIV (R141): Column division. -/
  | filterDiv (c : ScnCtx) (a : FArgs)
  /-- MOD (R141): Column remainder. -/
  | filterMod (c : ScnCtx) (a : FArgs)
  /-- NEG (R141): Column negation. -/
  | filterNeg (c : ScnCtx) (a : FArgs)
  /-- CAST (R141): Converts a column to the constant's type and scale. -/
  | filterCast (c : ScnCtx) (a : FArgs)
  /-- HASH64 (R136): hash64 of up to three key columns. -/
  | filterHash64 (c : ScnCtx) (a : FArgs)
  /-- FILTER_CRC32C (R136): CRC-32C of a column's hash words. -/
  | filterCrc32c (c : ScnCtx) (a : FArgs)
  /-- ADD (R254): Integer add modulo 2^64. -/
  | add (st : StrandRef) (rd rs1 rs2 : Fin 32)
  /-- SUB (R254): Integer subtract. -/
  | sub (st : StrandRef) (rd rs1 rs2 : Fin 32)
  /-- AND (R254): Bitwise AND. -/
  | andOp (st : StrandRef) (rd rs1 rs2 : Fin 32)
  /-- OR (R254): Bitwise OR. -/
  | orOp (st : StrandRef) (rd rs1 rs2 : Fin 32)
  /-- XOR (R254): Bitwise XOR. -/
  | xorOp (st : StrandRef) (rd rs1 rs2 : Fin 32)
  /-- SLL (R254): Shift left logical. -/
  | sll (st : StrandRef) (rd rs1 rs2 : Fin 32)
  /-- SRL (R254): Shift right logical. -/
  | srl (st : StrandRef) (rd rs1 rs2 : Fin 32)
  /-- SRA (R254): Shift right arithmetic. -/
  | sra (st : StrandRef) (rd rs1 rs2 : Fin 32)
  /-- SLT (R254): Set if less than, signed. -/
  | slt (st : StrandRef) (rd rs1 rs2 : Fin 32)
  /-- SLTU (R254): Set if less than, unsigned. -/
  | sltu (st : StrandRef) (rd rs1 rs2 : Fin 32)
  /-- MIN (R254): Signed minimum. -/
  | minOp (st : StrandRef) (rd rs1 rs2 : Fin 32)
  /-- MAX (R254): Signed maximum. -/
  | maxOp (st : StrandRef) (rd rs1 rs2 : Fin 32)
  /-- MINU (R254): Unsigned minimum. -/
  | minu (st : StrandRef) (rd rs1 rs2 : Fin 32)
  /-- MAXU (R254): Unsigned maximum. -/
  | maxu (st : StrandRef) (rd rs1 rs2 : Fin 32)
  /-- MUL (R254): Low 64 bits of the product. -/
  | mul (st : StrandRef) (rd rs1 rs2 : Fin 32)
  /-- MULH (R254): High 64 bits of the product, signed. -/
  | mulh (st : StrandRef) (rd rs1 rs2 : Fin 32)
  /-- MULHU (R254): High 64 bits of the product, unsigned. -/
  | mulhu (st : StrandRef) (rd rs1 rs2 : Fin 32)
  /-- DIV (R254): Signed division; division by zero traps DIVZERO. -/
  | div (st : StrandRef) (rd rs1 rs2 : Fin 32)
  /-- DIVU (R254): Unsigned division. -/
  | divu (st : StrandRef) (rd rs1 rs2 : Fin 32)
  /-- REM (R254): Signed remainder. -/
  | rem (st : StrandRef) (rd rs1 rs2 : Fin 32)
  /-- REMU (R254): Unsigned remainder. -/
  | remu (st : StrandRef) (rd rs1 rs2 : Fin 32)
  /-- CLZ (R254): Count leading zeros. -/
  | clz (st : StrandRef) (rd rs1 : Fin 32)
  /-- CTZ (R254): Count trailing zeros. -/
  | ctz (st : StrandRef) (rd rs1 : Fin 32)
  /-- POPC (R254): Population count. -/
  | popc (st : StrandRef) (rd rs1 : Fin 32)
  /-- BSWAP (R254): Byte swap. -/
  | bswap (st : StrandRef) (rd rs1 : Fin 32)
  /-- HSTEP (R254): One loop step of hash64. -/
  | hstep (st : StrandRef) (rd rs1 rs2 : Fin 32)
  /-- HFIN (R254): Final step of hash64. -/
  | hfin (st : StrandRef) (rd rs1 : Fin 32)
  /-- CRC32C (R254): CRC-32C update with 8 bytes. -/
  | crc32cStep (st : StrandRef) (rd rs1 rs2 : Fin 32)
  /-- ADDI (R253): Add immediate. -/
  | addi (st : StrandRef) (rd rs1 : Fin 32) (imm : BitVec 16)
  /-- ANDI (R253): AND with zero-extended immediate. -/
  | andi (st : StrandRef) (rd rs1 : Fin 32) (imm : BitVec 16)
  /-- ORI (R253): OR with zero-extended immediate. -/
  | ori (st : StrandRef) (rd rs1 : Fin 32) (imm : BitVec 16)
  /-- XORI (R253): XOR with zero-extended immediate. -/
  | xori (st : StrandRef) (rd rs1 : Fin 32) (imm : BitVec 16)
  /-- SLLI (R253): Shift left by immediate. -/
  | slli (st : StrandRef) (rd rs1 : Fin 32) (amount : BitVec 6)
  /-- SRLI (R253): Shift right logical by immediate. -/
  | srli (st : StrandRef) (rd rs1 : Fin 32) (amount : BitVec 6)
  /-- SRAI (R253): Shift right arithmetic by immediate. -/
  | srai (st : StrandRef) (rd rs1 : Fin 32) (amount : BitVec 6)
  /-- SLTI (R253): Set if less than immediate, signed. -/
  | slti (st : StrandRef) (rd rs1 : Fin 32) (imm : BitVec 16)
  /-- LUI (R253): Loads an immediate shifted left by 16. -/
  | lui (st : StrandRef) (rd : Fin 32) (imm : BitVec 21)
  /-- LDPC (R253): Loads 64 bits relative to pc. -/
  | ldpc (st : StrandRef) (rd : Fin 32) (imm : BitVec 16)
  /-- LB (R245): Load byte, signed. -/
  | lb (st : StrandRef) (rd rs1 : Fin 32) (imm : BitVec 16)
  /-- LBU (R245): Load byte, unsigned. -/
  | lbu (st : StrandRef) (rd rs1 : Fin 32) (imm : BitVec 16)
  /-- LH (R245): Load halfword, signed. -/
  | lh (st : StrandRef) (rd rs1 : Fin 32) (imm : BitVec 16)
  /-- LHU (R245): Load halfword, unsigned. -/
  | lhu (st : StrandRef) (rd rs1 : Fin 32) (imm : BitVec 16)
  /-- LW (R245): Load word, signed. -/
  | lw (st : StrandRef) (rd rs1 : Fin 32) (imm : BitVec 16)
  /-- LWU (R245): Load word, unsigned. -/
  | lwu (st : StrandRef) (rd rs1 : Fin 32) (imm : BitVec 16)
  /-- LD (R245): Load doubleword. -/
  | ld (st : StrandRef) (rd rs1 : Fin 32) (imm : BitVec 16)
  /-- SB (R245): Store byte. -/
  | sb (st : StrandRef) (rs1 rs2 : Fin 32) (imm : BitVec 16)
  /-- SH (R245): Store halfword. -/
  | sh (st : StrandRef) (rs1 rs2 : Fin 32) (imm : BitVec 16)
  /-- SW (R245): Store word. -/
  | sw (st : StrandRef) (rs1 rs2 : Fin 32) (imm : BitVec 16)
  /-- SD (R245): Store doubleword. -/
  | sd (st : StrandRef) (rs1 rs2 : Fin 32) (imm : BitVec 16)
  /-- FLW (R278): Load FP32 into an f register. -/
  | flw (st : StrandRef) (rd rs1 : Fin 32) (imm : BitVec 16)
  /-- FLD (R278): Load FP64 into an f register. -/
  | fld (st : StrandRef) (rd rs1 : Fin 32) (imm : BitVec 16)
  /-- FSW (R253): Store FP32 from an f register. -/
  | fsw (st : StrandRef) (rs1 rs2 : Fin 32) (imm : BitVec 16)
  /-- FSD (R253): Store FP64 from an f register. -/
  | fsd (st : StrandRef) (rs1 rs2 : Fin 32) (imm : BitVec 16)
  /-- BEQ (R256): Branch if equal. -/
  | beq (st : StrandRef) (rs1 rs2 : Fin 32) (imm : BitVec 16)
  /-- BNE (R256): Branch if not equal. -/
  | bne (st : StrandRef) (rs1 rs2 : Fin 32) (imm : BitVec 16)
  /-- BLT (R256): Branch if less than, signed. -/
  | blt (st : StrandRef) (rs1 rs2 : Fin 32) (imm : BitVec 16)
  /-- BGE (R256): Branch if greater or equal, signed. -/
  | bge (st : StrandRef) (rs1 rs2 : Fin 32) (imm : BitVec 16)
  /-- BLTU (R256): Branch if less than, unsigned. -/
  | bltu (st : StrandRef) (rs1 rs2 : Fin 32) (imm : BitVec 16)
  /-- BGEU (R256): Branch if greater or equal, unsigned. -/
  | bgeu (st : StrandRef) (rs1 rs2 : Fin 32) (imm : BitVec 16)
  /-- JAL (R256): Jump and link. -/
  | jal (st : StrandRef) (rd : Fin 32) (imm : BitVec 21)
  /-- JALR (R257): Indirect jump and link, predicted by the indirect-target table. -/
  | jalr (st : StrandRef) (rd rs1 : Fin 32) (imm : BitVec 16)
  /-- CSRR (R249): Reads a control register. -/
  | csrr (st : StrandRef) (rd : Fin 32) (csr : BitVec 12)
  /-- CSRW (R250): Writes a control register. -/
  | csrw (st : StrandRef) (rs1 : Fin 32) (csr : BitVec 12)
  /-- FADD (R255): FP add. -/
  | fadd (st : StrandRef) (single : Bool) (rd rs1 rs2 : Fin 32)
  /-- FSUB (R255): FP subtract. -/
  | fsub (st : StrandRef) (single : Bool) (rd rs1 rs2 : Fin 32)
  /-- FMUL (R255): FP multiply. -/
  | fmul (st : StrandRef) (single : Bool) (rd rs1 rs2 : Fin 32)
  /-- FDIV (R255): FP divide. -/
  | fdiv (st : StrandRef) (single : Bool) (rd rs1 rs2 : Fin 32)
  /-- FSQRT (R255): FP square root. -/
  | fsqrt (st : StrandRef) (single : Bool) (rd rs1 : Fin 32)
  /-- FMIN (R255): FP minimum in the order of R132. -/
  | fmin (st : StrandRef) (single : Bool) (rd rs1 rs2 : Fin 32)
  /-- FMAX (R255): FP maximum in the order of R132. -/
  | fmax (st : StrandRef) (single : Bool) (rd rs1 rs2 : Fin 32)
  /-- FMADD (R255): Fused multiply-add, rounded once. -/
  | fmadd (st : StrandRef) (single : Bool) (rd rs1 rs2 : Fin 32)
  /-- FEQ (R255): FP equal into a g register. -/
  | feq (st : StrandRef) (single : Bool) (rd rs1 rs2 : Fin 32)
  /-- FLT (R255): FP less than into a g register. -/
  | flt (st : StrandRef) (single : Bool) (rd rs1 rs2 : Fin 32)
  /-- FLE (R255): FP less or equal into a g register. -/
  | fle (st : StrandRef) (single : Bool) (rd rs1 rs2 : Fin 32)
  /-- FCVTL (R255): FP to INT64 under RM. -/
  | fcvtl (st : StrandRef) (single : Bool) (rd rs1 : Fin 32)
  /-- FCVTF (R255): INT64 to FP. -/
  | fcvtf (st : StrandRef) (single : Bool) (rd rs1 : Fin 32)
  /-- FMVGF (R255): Bit copy from an f register to a g register. -/
  | fmvgf (st : StrandRef) (single : Bool) (rd rs1 : Fin 32)
  /-- FMVFG (R255): Bit copy from a g register to an f register. -/
  | fmvfg (st : StrandRef) (single : Bool) (rd rs1 : Fin 32)
  /-- FENCE (R247): Waits for older loads and stores to complete. -/
  | fence (st : StrandRef)
  /-- BRK (R264): Raises the BRK trap. -/
  | brk (st : StrandRef)
  /-- ERET (R264): Returns from a trap handler to cs_epc. -/
  | eret (st : StrandRef)
  /-- TEMIT (R273): Closes the current output rope and opens a new one. -/
  | temit (st : StrandRef) (rd rs1 : Fin 32)
  /-- TEND (R273): Closes the current output rope and ends the task. -/
  | tend (st : StrandRef) (rs1 : Fin 32)
  /-- VADD (R283): Vector integer add. -/
  | vadd (st : StrandRef) (a : VArgs)
  /-- VSUB (R283): Vector integer subtract. -/
  | vsub (st : StrandRef) (a : VArgs)
  /-- VAND (R283): Vector AND. -/
  | vand (st : StrandRef) (a : VArgs)
  /-- VOR (R283): Vector OR. -/
  | vor (st : StrandRef) (a : VArgs)
  /-- VXOR (R283): Vector XOR. -/
  | vxor (st : StrandRef) (a : VArgs)
  /-- VSLL (R283): Vector shift left. -/
  | vsll (st : StrandRef) (a : VArgs)
  /-- VSRL (R283): Vector shift right logical. -/
  | vsrl (st : StrandRef) (a : VArgs)
  /-- VSRA (R283): Vector shift right arithmetic. -/
  | vsra (st : StrandRef) (a : VArgs)
  /-- VMUL (R283): Vector multiply, low half. -/
  | vmul (st : StrandRef) (a : VArgs)
  /-- VMIN (R283): Vector signed minimum. -/
  | vmin (st : StrandRef) (a : VArgs)
  /-- VMAX (R283): Vector signed maximum. -/
  | vmax (st : StrandRef) (a : VArgs)
  /-- VMINU (R283): Vector unsigned minimum. -/
  | vminu (st : StrandRef) (a : VArgs)
  /-- VMAXU (R283): Vector unsigned maximum. -/
  | vmaxu (st : StrandRef) (a : VArgs)
  /-- VHSTEP (R283): HSTEP per element. -/
  | vhstep (st : StrandRef) (a : VArgs)
  /-- VHFIN (R283): HFIN per element. -/
  | vhfin (st : StrandRef) (a : VArgs)
  /-- VBCAST (R283): Broadcasts a g register to every element. -/
  | vbcast (st : StrandRef) (a : VArgs)
  /-- VFADD (R283): Vector FP add. -/
  | vfadd (st : StrandRef) (a : VArgs)
  /-- VFSUB (R283): Vector FP subtract. -/
  | vfsub (st : StrandRef) (a : VArgs)
  /-- VFMUL (R283): Vector FP multiply. -/
  | vfmul (st : StrandRef) (a : VArgs)
  /-- VFDIV (R283): Vector FP divide. -/
  | vfdiv (st : StrandRef) (a : VArgs)
  /-- VFMADD (R283): Vector fused multiply-add. -/
  | vfmadd (st : StrandRef) (a : VArgs)
  /-- VFMIN (R283): Vector FP minimum. -/
  | vfmin (st : StrandRef) (a : VArgs)
  /-- VFMAX (R283): Vector FP maximum. -/
  | vfmax (st : StrandRef) (a : VArgs)
  /-- VFSQRT (R283): Vector FP square root. -/
  | vfsqrt (st : StrandRef) (a : VArgs)
  /-- VFCVTL (R283): Vector FP to INT64. -/
  | vfcvtl (st : StrandRef) (a : VArgs)
  /-- VFCVTF (R283): Vector INT64 to FP. -/
  | vfcvtf (st : StrandRef) (a : VArgs)
  /-- VCMP_EQ (R283): Predicate of equality. -/
  | vcmpEq (st : StrandRef) (a : VArgs)
  /-- VCMP_NE (R283): Predicate of inequality. -/
  | vcmpNe (st : StrandRef) (a : VArgs)
  /-- VCMP_LT (R283): Predicate of signed less than. -/
  | vcmpLt (st : StrandRef) (a : VArgs)
  /-- VCMP_LE (R283): Predicate of signed less or equal. -/
  | vcmpLe (st : StrandRef) (a : VArgs)
  /-- VCMP_LTU (R283): Predicate of unsigned less than. -/
  | vcmpLtu (st : StrandRef) (a : VArgs)
  /-- VCMP_LEU (R283): Predicate of unsigned less or equal. -/
  | vcmpLeu (st : StrandRef) (a : VArgs)
  /-- VCMP_FEQ (R283): Predicate of FP equality. -/
  | vcmpFeq (st : StrandRef) (a : VArgs)
  /-- VCMP_FLT (R283): Predicate of FP less than. -/
  | vcmpFlt (st : StrandRef) (a : VArgs)
  /-- VCMP_FLE (R283): Predicate of FP less or equal. -/
  | vcmpFle (st : StrandRef) (a : VArgs)
  /-- VLD (R285): Contiguous vector load. -/
  | vld (st : StrandRef) (a : VArgs)
  /-- VLDFF (R292): First-fault contiguous load that writes ffr. -/
  | vldff (st : StrandRef) (a : VArgs)
  /-- VST (R286): Contiguous vector store. -/
  | vst (st : StrandRef) (a : VArgs)
  /-- VLDS (R285): Strided vector load. -/
  | vlds (st : StrandRef) (a : VArgs)
  /-- VSTS (R286): Strided vector store. -/
  | vsts (st : StrandRef) (a : VArgs)
  /-- VGATHER (R285): Indexed vector gather. -/
  | vgather (st : StrandRef) (a : VArgs)
  /-- VGATHERFF (R292): First-fault gather that writes ffr. -/
  | vgatherff (st : StrandRef) (a : VArgs)
  /-- VSCATTER (R286): Indexed scatter in ascending element order. -/
  | vscatter (st : StrandRef) (a : VArgs)
  /-- VSETVL (R280): Sets vl and returns VL. -/
  | vsetvl (st : StrandRef) (a : VArgs)
  /-- PAND (R283): Predicate AND. -/
  | pand (st : StrandRef) (a : VArgs)
  /-- POR (R283): Predicate OR. -/
  | por (st : StrandRef) (a : VArgs)
  /-- PANDN (R283): Predicate AND NOT. -/
  | pandn (st : StrandRef) (a : VArgs)
  /-- PNOT (R283): Predicate NOT. -/
  | pnot (st : StrandRef) (a : VArgs)
  /-- FFMASK (R281): Copies ffr into a predicate below VL. -/
  | ffmask (st : StrandRef) (a : VArgs)
  /-- FFFILL (R281): Sets every bit of ffr. -/
  | fffill (st : StrandRef) (a : VArgs)
  /-- FFPUT (R281): Writes ffr from a predicate. -/
  | ffput (st : StrandRef) (a : VArgs)
  /-- PCNT (R283): Counts the set predicate bits below VL. -/
  | pcnt (st : StrandRef) (a : VArgs)
  /-- PTRUE (R283): Sets predicate bits 0 to VL - 1. -/
  | ptrue (st : StrandRef) (a : VArgs)
  /-- FFCNT (R281): Counts the leading set bits of ffr. -/
  | ffcnt (st : StrandRef) (a : VArgs)
  /-- VREDADD (R283): Integer sum reduction. -/
  | vredadd (st : StrandRef) (a : VArgs)
  /-- VREDMIN (R283): Signed minimum reduction. -/
  | vredmin (st : StrandRef) (a : VArgs)
  /-- VREDMAX (R283): Signed maximum reduction. -/
  | vredmax (st : StrandRef) (a : VArgs)
  /-- VEXT (R283): Extracts one element into a g register. -/
  | vext (st : StrandRef) (a : VArgs)
  /-- VCOMPRESS (R283): Packs the active elements to the front. -/
  | vcompress (st : StrandRef) (a : VArgs)
  /-- VMV (R283): Vector move. -/
  | vmv (st : StrandRef) (a : VArgs)
  /-- VFREDADD (R283): Ordered FP sum reduction. -/
  | vfredadd (st : StrandRef) (a : VArgs)
  /-- TICK_OUT_FALL (R45): 1 µs after each of its own ticks, the device drives TICK_OUT low again. -/
  | tickOutFall
  /-- LOCK_AND_EQUALISE (R342): At the end of the 2 ms lock-and-equalise window, the width is chosen from the lanes that locked, or training repeats at OL1. -/
  | lockAndEqualise (p lanes : Nat)
  /-- RAIL_CURRENT_FALL (R485): A rail's current falls 5 % below its maximum, and new task dispatch resumes. -/
  | railCurrentFall (rail : Nat)
  /-- LIFE_OBJECTS_SAVE (R512): Every hour, Basecamp updates the life objects and writes them to SPI flash. -/
  | lifeObjectsSave
  /-- RESERVED_ENCODING (R253): A strand executes a reserved opcode, or the all-zero word, and raises ILLEGAL. -/
  | reservedEncoding (st : StrandRef) (word : BitVec 32)
  /-- FETCH_FAULT (R264): A fetch outside the code window, or a code read error, raises the FETCH trap and ends the route with BUS_ERROR. -/
  | fetchFault (st : StrandRef) (readError : Bool)
  /-- BRIX_VIOLATION (R462): A malformed Brix message is dropped or answered with VERSION, LENGTH, MALFORMED or OUT_OF_SEQUENCE, and counted. -/
  | brixViolation (src : BrixSrc) (bytes : List Byte)
  /-- CONFIGURATION_REQUEST (R480): A PCI Express configuration request is answered with Configuration Request Retry Status until Basecamp is ready, and served normally after that. -/
  | configurationRequest (port : Nat)
  deriving DecidableEq, Repr

end Sys2Proof
end

