-- ==== Sys2Proof/Decode.lean ====
section
/-! DEFINITION. Words: no row of the opcode table has bits, so no table word spells a command; which strand code
words are assigned (R252, R253, R283), and the words of trap values. -/
namespace Sys2Proof

/-- The command a table word spells: none, since every row of spec/opcode_table.json has an empty field list. -/
def decodeTableWord (_nbits _w : Nat) : Option Instr := none

namespace Decode

/-- The rs1, rs2 and rd fields of a strand word (Table 08.6). -/
def fieldD (w : Nat) : Nat := w / 2 ^ 21 % 32
def fieldA (w : Nat) : Nat := w / 2 ^ 16 % 32
def fieldB (w : Nat) : Nat := w / 2 ^ 11 % 32

/-- Integer ALU words (Table 08.8): rs2 is unused by CLZ, CTZ, POPC, BSWAP and HFIN. -/
def aluAssigned (w : Nat) : Bool :=
  let f := w % 2 ^ 11
  let three := decide (f ≤ 0x0D) || f == 0x10 || f == 0x11 || f == 0x12 || (decide (0x14 ≤ f) && decide (f ≤ 0x17))
    || f == 0x20 || f == 0x22
  let two := (decide (0x18 ≤ f) && decide (f ≤ 0x1B)) || f == 0x21
  three || (two && fieldB w == 0)

/-- Scalar floating point words (Table 08.9): rs2 is unused by FSQRT, the conversions and the moves. -/
def fpAssigned (w : Nat) : Bool :=
  let f := w % 2 ^ 10
  let three := decide (f ≤ 3) || (decide (5 ≤ f) && decide (f ≤ 10))
  let two := f == 4 || (decide (0x0C ≤ f) && decide (f ≤ 0x0F))
  three || (two && fieldB w == 0)

/-- System words (Table 08.9). -/
def systemAssigned (w : Nat) : Bool :=
  let f := w % 2 ^ 11
  let d := fieldD w == 0
  let a := fieldA w == 0
  let b := fieldB w == 0
  (decide (f ≤ 2) && d && a && b) || (f == 0x10 && b) || (f == 0x11 && d && b)

/-- Vector functions (Tables 09.4 to 09.6); fields a function does not use are checked when it executes. -/
def vectorAssigned (op w : Nat) : Bool :=
  let f := w % 16
  match op with
  | 0x30 => true
  | 0x31 => decide (f ≤ 9)
  | 0x32 => decide (f ≤ 8)
  | 0x33 => decide (f ≤ 4)
  | 0x34 => decide (f ≤ 2)
  | 0x35 => decide (f ≤ 10)
  | 0x36 => decide (f ≤ 6)
  | _ => false

/-- Whether a strand word is an assigned encoding (R253, R284): the rest, and the all-zero word, are reserved. -/
def strandAssigned (w : Nat) : Bool :=
  let op := w / 2 ^ 26 % 64
  let imm := w % 2 ^ 16
  if op = 0x01 then aluAssigned w
  else if 0x02 ≤ op ∧ op ≤ 0x05 then true
  else if op = 0x06 then decide (imm / 64 < 3)
  else if op = 0x07 ∨ op = 0x08 then true
  else if op = 0x09 then fieldA w == 0
  else if op = 0x0C then fpAssigned w
  else if 0x10 ≤ op ∧ op ≤ 0x16 then true
  else if 0x18 ≤ op ∧ op ≤ 0x27 then true
  else if op = 0x28 then systemAssigned w
  else if op = 0x29 then fieldA w == 0 && decide (imm < 4096)
  else if op = 0x2A then fieldD w == 0 && decide (imm < 4096)
  else vectorAssigned op w

/-- Whether a word is a load (Tables 08.7 and 09.5). -/
def isLoad (w : Nat) : Bool :=
  let op := w / 2 ^ 26 % 64
  let f := w % 16
  op == 0x09 || (decide (0x10 ≤ op) && decide (op ≤ 0x16)) || op == 0x1C || op == 0x1D
    || (op == 0x33 && (f == 0 || f == 1 || f == 3)) || (op == 0x34 && (f == 0 || f == 1))

/-! ## Words of the instructions that can raise ILLEGAL or BRK (their cs_tval, Table 08.10) -/

/-- A word of format R (Table 08.6). -/
def wordR (op d a b f : Nat) : Nat := op * 2 ^ 26 + d * 2 ^ 21 + a * 2 ^ 16 + b * 2 ^ 11 + f

/-- A word of format I (Table 08.6). -/
def wordI (op d a imm : Nat) : Nat := op * 2 ^ 26 + d * 2 ^ 21 + a * 2 ^ 16 + imm % 2 ^ 16

/-- A vector word (Table 09.2). -/
def wordV (op f : Nat) (a : VArgs) : Nat :=
  op * 2 ^ 26 + a.vd.val * 2 ^ 21 + a.vs1.val * 2 ^ 16 + a.vs2.val * 2 ^ 11 + a.pg.val * 2 ^ 8
    + a.long.toNat * 2 ^ 7 + a.z.toNat * 2 ^ 6 + a.es.val * 2 ^ 4 + f

/-- A word of format U (Table 08.6). -/
def wordU (op d imm : Nat) : Nat := op * 2 ^ 26 + d * 2 ^ 21 + imm % 2 ^ 21

/-- The strand and the word of its code that spells a command (R252, R253, R283; Tables 08.6 to 08.9 and 09.2 to 09.6);
in format B the first two fields are rs1 and rs2. -/
def strandWord : Instr → Option (StrandRef × Nat)
  | .add st d a b => some (st, wordR 0x01 d.val a.val b.val 0x00)
  | .sub st d a b => some (st, wordR 0x01 d.val a.val b.val 0x01)
  | .andOp st d a b => some (st, wordR 0x01 d.val a.val b.val 0x02)
  | .orOp st d a b => some (st, wordR 0x01 d.val a.val b.val 0x03)
  | .xorOp st d a b => some (st, wordR 0x01 d.val a.val b.val 0x04)
  | .sll st d a b => some (st, wordR 0x01 d.val a.val b.val 0x05)
  | .srl st d a b => some (st, wordR 0x01 d.val a.val b.val 0x06)
  | .sra st d a b => some (st, wordR 0x01 d.val a.val b.val 0x07)
  | .slt st d a b => some (st, wordR 0x01 d.val a.val b.val 0x08)
  | .sltu st d a b => some (st, wordR 0x01 d.val a.val b.val 0x09)
  | .minOp st d a b => some (st, wordR 0x01 d.val a.val b.val 0x0A)
  | .maxOp st d a b => some (st, wordR 0x01 d.val a.val b.val 0x0B)
  | .minu st d a b => some (st, wordR 0x01 d.val a.val b.val 0x0C)
  | .maxu st d a b => some (st, wordR 0x01 d.val a.val b.val 0x0D)
  | .mul st d a b => some (st, wordR 0x01 d.val a.val b.val 0x10)
  | .mulh st d a b => some (st, wordR 0x01 d.val a.val b.val 0x11)
  | .mulhu st d a b => some (st, wordR 0x01 d.val a.val b.val 0x12)
  | .div st d a b => some (st, wordR 0x01 d.val a.val b.val 0x14)
  | .divu st d a b => some (st, wordR 0x01 d.val a.val b.val 0x15)
  | .rem st d a b => some (st, wordR 0x01 d.val a.val b.val 0x16)
  | .remu st d a b => some (st, wordR 0x01 d.val a.val b.val 0x17)
  | .clz st d a => some (st, wordR 0x01 d.val a.val 0 0x18)
  | .ctz st d a => some (st, wordR 0x01 d.val a.val 0 0x19)
  | .popc st d a => some (st, wordR 0x01 d.val a.val 0 0x1A)
  | .bswap st d a => some (st, wordR 0x01 d.val a.val 0 0x1B)
  | .hstep st d a b => some (st, wordR 0x01 d.val a.val b.val 0x20)
  | .hfin st d a => some (st, wordR 0x01 d.val a.val 0 0x21)
  | .crc32cStep st d a b => some (st, wordR 0x01 d.val a.val b.val 0x22)
  | .fadd st x d a b => some (st, wordR 0x0C d.val a.val b.val (x.toNat * 1024 + 0x0))
  | .fsub st x d a b => some (st, wordR 0x0C d.val a.val b.val (x.toNat * 1024 + 0x1))
  | .fmul st x d a b => some (st, wordR 0x0C d.val a.val b.val (x.toNat * 1024 + 0x2))
  | .fdiv st x d a b => some (st, wordR 0x0C d.val a.val b.val (x.toNat * 1024 + 0x3))
  | .fsqrt st x d a => some (st, wordR 0x0C d.val a.val 0 (x.toNat * 1024 + 0x4))
  | .fmin st x d a b => some (st, wordR 0x0C d.val a.val b.val (x.toNat * 1024 + 0x5))
  | .fmax st x d a b => some (st, wordR 0x0C d.val a.val b.val (x.toNat * 1024 + 0x6))
  | .fmadd st x d a b => some (st, wordR 0x0C d.val a.val b.val (x.toNat * 1024 + 0x7))
  | .feq st x d a b => some (st, wordR 0x0C d.val a.val b.val (x.toNat * 1024 + 0x8))
  | .flt st x d a b => some (st, wordR 0x0C d.val a.val b.val (x.toNat * 1024 + 0x9))
  | .fle st x d a b => some (st, wordR 0x0C d.val a.val b.val (x.toNat * 1024 + 0xA))
  | .fcvtl st x d a => some (st, wordR 0x0C d.val a.val 0 (x.toNat * 1024 + 0xC))
  | .fcvtf st x d a => some (st, wordR 0x0C d.val a.val 0 (x.toNat * 1024 + 0xD))
  | .fmvgf st x d a => some (st, wordR 0x0C d.val a.val 0 (x.toNat * 1024 + 0xE))
  | .fmvfg st x d a => some (st, wordR 0x0C d.val a.val 0 (x.toNat * 1024 + 0xF))
  | .fence st => some (st, wordR 0x28 0 0 0 0x000)
  | .brk st => some (st, wordR 0x28 0 0 0 0x001)
  | .eret st => some (st, wordR 0x28 0 0 0 0x002)
  | .temit st d a => some (st, wordR 0x28 d.val a.val 0 0x010)
  | .tend st a => some (st, wordR 0x28 0 a.val 0 0x011)
  | .addi st d a u => some (st, wordI 0x02 d.val a.val u.toNat)
  | .andi st d a u => some (st, wordI 0x03 d.val a.val u.toNat)
  | .ori st d a u => some (st, wordI 0x04 d.val a.val u.toNat)
  | .xori st d a u => some (st, wordI 0x05 d.val a.val u.toNat)
  | .slli st d a n => some (st, wordI 0x06 d.val a.val n.toNat)
  | .srli st d a n => some (st, wordI 0x06 d.val a.val (64 + n.toNat))
  | .srai st d a n => some (st, wordI 0x06 d.val a.val (128 + n.toNat))
  | .slti st d a u => some (st, wordI 0x07 d.val a.val u.toNat)
  | .lui st d u => some (st, wordU 0x08 d.val u.toNat)
  | .ldpc st d u => some (st, wordI 0x09 d.val 0 u.toNat)
  | .lb st d a u => some (st, wordI 0x10 d.val a.val u.toNat)
  | .lbu st d a u => some (st, wordI 0x11 d.val a.val u.toNat)
  | .lh st d a u => some (st, wordI 0x12 d.val a.val u.toNat)
  | .lhu st d a u => some (st, wordI 0x13 d.val a.val u.toNat)
  | .lw st d a u => some (st, wordI 0x14 d.val a.val u.toNat)
  | .lwu st d a u => some (st, wordI 0x15 d.val a.val u.toNat)
  | .ld st d a u => some (st, wordI 0x16 d.val a.val u.toNat)
  | .sb st a b u => some (st, wordI 0x18 a.val b.val u.toNat)
  | .sh st a b u => some (st, wordI 0x19 a.val b.val u.toNat)
  | .sw st a b u => some (st, wordI 0x1A a.val b.val u.toNat)
  | .sd st a b u => some (st, wordI 0x1B a.val b.val u.toNat)
  | .flw st d a u => some (st, wordI 0x1C d.val a.val u.toNat)
  | .fld st d a u => some (st, wordI 0x1D d.val a.val u.toNat)
  | .fsw st a b u => some (st, wordI 0x1E a.val b.val u.toNat)
  | .fsd st a b u => some (st, wordI 0x1F a.val b.val u.toNat)
  | .beq st a b u => some (st, wordI 0x20 a.val b.val u.toNat)
  | .bne st a b u => some (st, wordI 0x21 a.val b.val u.toNat)
  | .blt st a b u => some (st, wordI 0x22 a.val b.val u.toNat)
  | .bge st a b u => some (st, wordI 0x23 a.val b.val u.toNat)
  | .bltu st a b u => some (st, wordI 0x24 a.val b.val u.toNat)
  | .bgeu st a b u => some (st, wordI 0x25 a.val b.val u.toNat)
  | .jal st d u => some (st, wordU 0x26 d.val u.toNat)
  | .jalr st d a u => some (st, wordI 0x27 d.val a.val u.toNat)
  | .csrr st d n => some (st, wordI 0x29 d.val 0 n.toNat)
  | .csrw st a n => some (st, wordI 0x2A 0 a.val n.toNat)
  | .vadd st v => some (st, wordV 0x30 0x0 v)
  | .vsub st v => some (st, wordV 0x30 0x1 v)
  | .vand st v => some (st, wordV 0x30 0x2 v)
  | .vor st v => some (st, wordV 0x30 0x3 v)
  | .vxor st v => some (st, wordV 0x30 0x4 v)
  | .vsll st v => some (st, wordV 0x30 0x5 v)
  | .vsrl st v => some (st, wordV 0x30 0x6 v)
  | .vsra st v => some (st, wordV 0x30 0x7 v)
  | .vmul st v => some (st, wordV 0x30 0x8 v)
  | .vmin st v => some (st, wordV 0x30 0x9 v)
  | .vmax st v => some (st, wordV 0x30 0xA v)
  | .vminu st v => some (st, wordV 0x30 0xB v)
  | .vmaxu st v => some (st, wordV 0x30 0xC v)
  | .vhstep st v => some (st, wordV 0x30 0xD v)
  | .vhfin st v => some (st, wordV 0x30 0xE v)
  | .vbcast st v => some (st, wordV 0x30 0xF v)
  | .vfadd st v => some (st, wordV 0x31 0x0 v)
  | .vfsub st v => some (st, wordV 0x31 0x1 v)
  | .vfmul st v => some (st, wordV 0x31 0x2 v)
  | .vfdiv st v => some (st, wordV 0x31 0x3 v)
  | .vfmadd st v => some (st, wordV 0x31 0x4 v)
  | .vfmin st v => some (st, wordV 0x31 0x5 v)
  | .vfmax st v => some (st, wordV 0x31 0x6 v)
  | .vfsqrt st v => some (st, wordV 0x31 0x7 v)
  | .vfcvtl st v => some (st, wordV 0x31 0x8 v)
  | .vfcvtf st v => some (st, wordV 0x31 0x9 v)
  | .vcmpEq st v => some (st, wordV 0x32 0x0 v)
  | .vcmpNe st v => some (st, wordV 0x32 0x1 v)
  | .vcmpLt st v => some (st, wordV 0x32 0x2 v)
  | .vcmpLe st v => some (st, wordV 0x32 0x3 v)
  | .vcmpLtu st v => some (st, wordV 0x32 0x4 v)
  | .vcmpLeu st v => some (st, wordV 0x32 0x5 v)
  | .vcmpFeq st v => some (st, wordV 0x32 0x6 v)
  | .vcmpFlt st v => some (st, wordV 0x32 0x7 v)
  | .vcmpFle st v => some (st, wordV 0x32 0x8 v)
  | .vld st v => some (st, wordV 0x33 0x0 v)
  | .vldff st v => some (st, wordV 0x33 0x1 v)
  | .vst st v => some (st, wordV 0x33 0x2 v)
  | .vlds st v => some (st, wordV 0x33 0x3 v)
  | .vsts st v => some (st, wordV 0x33 0x4 v)
  | .vgather st v => some (st, wordV 0x34 0x0 v)
  | .vgatherff st v => some (st, wordV 0x34 0x1 v)
  | .vscatter st v => some (st, wordV 0x34 0x2 v)
  | .vsetvl st v => some (st, wordV 0x35 0x0 v)
  | .pand st v => some (st, wordV 0x35 0x1 v)
  | .por st v => some (st, wordV 0x35 0x2 v)
  | .pandn st v => some (st, wordV 0x35 0x3 v)
  | .pnot st v => some (st, wordV 0x35 0x4 v)
  | .ffmask st v => some (st, wordV 0x35 0x5 v)
  | .fffill st v => some (st, wordV 0x35 0x6 v)
  | .ffput st v => some (st, wordV 0x35 0x7 v)
  | .pcnt st v => some (st, wordV 0x35 0x8 v)
  | .ptrue st v => some (st, wordV 0x35 0x9 v)
  | .ffcnt st v => some (st, wordV 0x35 0xA v)
  | .vredadd st v => some (st, wordV 0x36 0x0 v)
  | .vredmin st v => some (st, wordV 0x36 0x1 v)
  | .vredmax st v => some (st, wordV 0x36 0x2 v)
  | .vext st v => some (st, wordV 0x36 0x3 v)
  | .vcompress st v => some (st, wordV 0x36 0x4 v)
  | .vmv st v => some (st, wordV 0x36 0x5 v)
  | .vfredadd st v => some (st, wordV 0x36 0x6 v)
  | .reservedEncoding st w => if strandAssigned w.toNat then none else some (st, w.toNat)
  | _ => none

end Decode

end Sys2Proof
end

