-- ==== Sys2Proof/Config.lean ====
section
/-! DEFINITION. What the spec leaves open: constants without a body, so that no proof can see their value. -/
namespace Sys2Proof.Config

/-- A free value of `w` bits, drawn with a counter of the state (log 8). -/
opaque freeValue (w n : Nat) : BitVec w

/-- R405: whether a leaf goes before a package of the same weight in package-merge, which the spec does
not state (log 10). -/
opaque leafFirst : Bool

/-- The public half of an ECC P-384 key pair drawn by the security processor, as X and Y of 48 bytes
each (R458; log 9). -/
opaque ecPublic (draw : Nat) : List Byte

/-- The shared secret of ECDH on P-384 between the device's drawn key and a point (R458; log 9). -/
opaque ecdhShared (draw : Nat) (point : List Byte) : List Byte

/-- An ECDSA P-384 signature by the device identity key over a digest (R458, R473; log 9). -/
opaque ecSign (draw : Nat) (digest : List Byte) : List Byte

/-- Whether a signature over a digest verifies under a public key (R458; log 9). -/
opaque ecVerify (key digest signature : List Byte) : Bool

/-- The device certificate chain (R466; log 9). -/
opaque certChain : List Byte

/-- The sign and payload of a NaN result, which IEEE 754 and the spec leave open (log 11): a function of the
operands, cut to the format. -/
opaque nanChoice (a b c : Nat) : Nat

/-- Whether tininess is detected after rounding, which IEEE 754 leaves open (log 11). -/
opaque tinyAfterRounding : Bool

/-- Whether a conversion to INT64 that rounds sets the inexact flag (log 11). -/
opaque convertInexact : Bool

/-- Whether 0 × ∞ with a quiet NaN addend sets the invalid flag (log 11). -/
opaque fmaNanInvalid : Bool

/-- Which of two operands that are equal in the order of R132 a minimum or maximum answers (log 11). -/
opaque equalPick (a b : Nat) : Bool

/-- A byte of a rope slot that is not selected, null or beyond ROW_COUNT, which R108 leaves undefined: a function
of the object and the offset (log 14). -/
opaque undefinedByte (obj offset : Nat) : BitVec 8

/-- The set of a cache that a line falls into, before the reduction to the cache's sets, which R295 leaves open: kind
0 L1D, 1 L1I, 2 L2, 3 SLC (log 31). -/
opaque cacheSet (kind line : Nat) : Nat

/-- The fixed hash that chooses an SLC slice (R295), before its reduction to the slices of the line's memory (log 31). -/
opaque slcHash (line : Nat) : Nat

/-- The directory set of a line at its home (R315), before its reduction to 8,192 sets (log 31). -/
opaque dirSet (line : Nat) : Nat

/-- Whether the DIMMs carry x8 devices (R418), a property of the board (log 47). -/
opaque dimmX8 : Bool

/-- The speed rating of the slowest DIMM in MT/s, and whether a channel has two DIMMs (R418, R419), properties of the board
(log 47). -/
opaque dimmSpeed : Nat
opaque twoDimms : Bool

/-- Bytes of a rank of a channel (R422), a property of the board (log 47). -/
opaque rankBytes : Nat

/-- Bank group and bank of a line of a channel, key channel and local address, which R422 leaves internal (log 47). -/
opaque dramBank (ch addr : Nat) : Nat

/-- Row of a line of a channel (R422; log 47). -/
opaque dramRow (ch addr : Nat) : Nat

/-- Channel of its stack that an HBM line lies in, 0 to 15 once reduced (R445; log 47). -/
opaque hbmChannel (offset : Nat) : Nat

/-- How many 64 KiB pages share the DRAM row of an HBM line, and which they are (R445; log 47). -/
opaque hbmRowPages (offset : Nat) : List Nat

/-- The bytes of the persistent records that MEAS6 measures (R471): ridge marks, strand marks, remap words and device
marks, in a layout the spec does not give (log 48). -/
opaque persistBytes (ridges : List Nat) (strands : List (Nat × Nat)) (remaps : List Nat) (marks : List (List Nat)) : List Byte

/-- Whether TJ_AVERAGE is rounded up to whole hundredths, which R512 leaves open (log 50). -/
opaque averageUp : Bool

/-- The owner field of a DMA channel that no tenant owns, which Table 14.13 does not state (log 52). -/
opaque noOwner : Nat

/-- The generation and width that a host link trains to within its limits, by port and link (R365; log 52). -/
opaque linkTrained (port link : Nat) : Nat × Nat

/-- An SPDM signature by the device identity key over a message transcript, with the version and the kind of message that
its prefix names (R466; log 53). -/
opaque spdmSign (draw version kind : Nat) (transcript : List Byte) : List Byte

/-- What a counter of waiting shows at a time: how long a search or a port waits follows from timing that the order of
commands does not show (R140, R430; log 59). -/
opaque timedCount (object member now : Nat) : Nat

/-- Whether the other participants of a route received any build rows of a stage (bit 0) and a null build key (bit 1): R152
combines them and no message of the spec carries them (log 27). -/
opaque peerFacts (tenant route stage : Nat) : BitVec 2

/-- Whether at a time the other participants of a route have passed or released everything of a stage, where no message of
the spec says so (R152, R183; log 23). -/
opaque peersPast (tenant route stage now : Nat) : Bool

/-- Bytes of free pages at a tick in the Depot region of the peer that is tier 2, where no message of the spec says so
(R230; log 57). -/
opaque peerRoom (now : Nat) : Nat

/-- What an SPDM responder states of itself that R466 does not give: CTExponent, the transfer sizes, and the type byte of
each measurement block (log 53). -/
opaque spdmExponent : Nat
opaque spdmSizes : List Byte
opaque spdmMeasType (index : Nat) : Nat

end Sys2Proof.Config
end

