-- ==== Sys2Proof/Machine/Store.lean ====
section
/-! DEFINITION. Sparse stores in one canonical form: association lists with strictly rising keys. -/
namespace Sys2Proof.Machine

/-- A store keyed by natural numbers: pairs with strictly rising keys. -/
abbrev SMap (α : Type) := List (Nat × α)

/-- The entry under a key, if there is one. -/
def SMap.find {α : Type} : SMap α → Nat → Option α
  | [], _ => none
  | (k, v) :: m, a => if k = a then some v else SMap.find m a

/-- Writes an entry, keeping the keys rising. -/
def SMap.put {α : Type} : SMap α → Nat → α → SMap α
  | [], a, x => [(a, x)]
  | (k, v) :: m, a, x =>
    if a < k then (a, x) :: (k, v) :: m
    else if a = k then (a, x) :: m
    else (k, v) :: SMap.put m a x

/-- Removes an entry. -/
def SMap.del {α : Type} : SMap α → Nat → SMap α
  | [], _ => []
  | (k, v) :: m, a => if k = a then SMap.del m a else (k, v) :: SMap.del m a

/-- Whether the keys rise strictly and all lie above `lo`. -/
def SMap.wfFrom {α : Type} (lo : Nat) : SMap α → Bool
  | [] => true
  | (k, _) :: m => decide (lo < k + 1) && SMap.wfFrom (k + 1) m

/-- The canonical form: keys rise strictly. -/
def SMap.wf {α : Type} (m : SMap α) : Bool := SMap.wfFrom 0 m

/-- Rewrites one entry by a function of what stands there. -/
def SMap.upd {α : Type} (m : SMap α) (k : Nat) (f : Option α → Option α) : SMap α :=
  match f (m.find k) with
  | some v => m.put k v
  | none => m.del k

/-- Inserts into a list sorted by `lt`, after its equals. -/
def insertBy {α : Type} (lt : α → α → Bool) (x : α) : List α → List α
  | [] => [x]
  | y :: l => if lt x y then x :: y :: l else y :: insertBy lt x l

/-- Stable sort by `lt`. -/
def sortBy {α : Type} (lt : α → α → Bool) (l : List α) : List α :=
  l.foldl (fun acc x => insertBy lt x acc) []

/-- Sum of a list of numbers. -/
def sumNat (l : List Nat) : Nat := l.foldl (· + ·) 0

/-- Memory: bytes by physical address; an unlisted address reads as zero (memory is zeroed at
start-up, R425, and every Depot page is zero-filled, R219). -/
abbrev Memory := List Host.Cell

/-- The byte at an address. -/
def Memory.read (m : Memory) (a : Nat) : Byte := (SMap.find m a).getD 0

/-- Writes a byte; a zero byte is unlisted, so equal memories are equal lists. -/
def Memory.write (m : Memory) (a : Nat) (b : Byte) : Memory :=
  if b = 0 then SMap.del m a else SMap.put m a b

/-- The canonical form of memory: addresses strictly rising and no byte listed that an unlisted
address reads as. -/
def Memory.wf (m : Memory) : Bool := SMap.wf m && m.all (fun c => c.2 != 0)

/-- The entries with keys from `a` on, of a store with rising keys. -/
def SMap.dropTo {α : Type} : SMap α → Nat → SMap α
  | [], _ => []
  | (k, v) :: m, a => if k < a then SMap.dropTo m a else (k, v) :: m

/-- The bytes at `a, a+1, …, a+n-1`. -/
def Memory.readN (m : Memory) (a : Nat) : Nat → List Byte
  | 0 => []
  | n + 1 =>
    let t := SMap.dropTo m a
    (match t with
     | [] => 0
     | (k, v) :: _ => if k = a then v else 0) :: Memory.readN t (a + 1) n

/-- The listed cells of bytes at `a` upward: the bytes that are not zero. -/
def cellsOf (a : Nat) : List Byte → Memory
  | [] => []
  | b :: bs => if b = 0 then cellsOf (a + 1) bs else (a, b) :: cellsOf (a + 1) bs

/-- Writes bytes at `a` upward. -/
def Memory.writeN (m : Memory) (a : Nat) (bs : List Byte) : Memory :=
  m.filter (fun c => decide (c.1 < a)) ++ cellsOf a bs ++ m.filter (fun c => decide (a + bs.length ≤ c.1))

/-- Clears the addresses from `lo` up to `hi - 1` to zero. -/
def Memory.clear (m : Memory) (lo hi : Nat) : Memory :=
  m.filter (fun c => decide (c.1 < lo) || decide (hi ≤ c.1))

/-- Writes the bytes of a masked line: byte `i` where the mask's bit `i` is set. -/
def Memory.writeMask (m : Memory) (a : Nat) (mask : Nat) (i : Nat) : List Byte → Memory
  | [] => m
  | b :: bs => Memory.writeMask (if bitAt mask i then m.write (a + i) b else m) a mask (i + 1) bs

end Sys2Proof.Machine
end

