-- ==== Sys2Proof/Machine/Bytes.lean ====
section
/-! DEFINITION. Byte strings, the two CRCs and the hash of R115 and R116. -/
namespace Sys2Proof.Machine

/-- A little-endian number from bytes (R5). -/
def leNat : List Byte → Nat
  | [] => 0
  | b :: bs => b.toNat + 256 * leNat bs

/-- The little-endian bytes of a number (R5). -/
def natLe : Nat → Nat → List Byte
  | 0, _ => []
  | k + 1, n => BitVec.ofNat 8 n :: natLe k (n / 256)

/-- A big-endian number from bytes. -/
def beNat (bs : List Byte) : Nat := leNat bs.reverse

/-- The big-endian bytes of a number. -/
def natBe (k n : Nat) : List Byte := (natLe k n).reverse

/-- The `n` bytes from offset `a` of a byte string, zero past its end. -/
def sliceB (bs : List Byte) (a n : Nat) : List Byte :=
  let t := (bs.drop a).take n
  t ++ List.replicate (n - t.length) 0

/-- A little-endian field of `n` bytes at offset `a`. -/
def getLe (bs : List Byte) (a n : Nat) : Nat := leNat (sliceB bs a n)

/-- Zero bytes. -/
def zeros (n : Nat) : List Byte := List.replicate n 0

/-- Pads with zeros to a multiple of `k`. -/
def padTo (k : Nat) (bs : List Byte) : List Byte := bs ++ zeros (roundUp bs.length k - bs.length)

/-- Pads with zeros, or cuts, to exactly `n` bytes. -/
def fitTo (n : Nat) (bs : List Byte) : List Byte := sliceB bs 0 n

/-- Cuts a list into pieces of `k` (fuel: one piece each). -/
def chunksAux {α : Type} (k : Nat) : Nat → List α → List (List α)
  | 0, _ => []
  | f + 1, l => if l.isEmpty then [] else l.take k :: chunksAux k f (l.drop k)

/-- Cuts a list into pieces of `k`; the last may be shorter. -/
def chunks {α : Type} (k : Nat) (l : List α) : List (List α) := chunksAux k l.length l

/-- Overwrites bytes of a string from offset `a`. -/
def overlay (bs : List Byte) (a : Nat) (new : List Byte) : List Byte :=
  sliceB bs 0 a ++ new ++ bs.drop (a + new.length)

/-- The 64-bit words of a byte string, the last zero-padded. -/
def wordsOf (bs : List Byte) : List Nat := (chunks 8 bs).map leNat

/-- The bytes of 64-bit words. -/
def bytesOfWords (ws : List Nat) : List Byte := ws.flatMap (natLe 8)

/-- The text of an ASCII string as bytes. -/
def ascii (s : String) : List Byte := s.toList.map (fun c => BitVec.ofNat 8 c.toNat)

/-- A string of fixed width, zero-padded (STR32, Table 16.1). -/
def str32 (s : String) : List Byte := fitTo 32 (ascii s)

/-- Lexicographic order of byte strings, unsigned (R132): true when the first is lower. -/
def bytesLt : List Byte → List Byte → Bool
  | [], [] => false
  | [], _ :: _ => true
  | _ :: _, [] => false
  | a :: as, b :: bs =>
    if a.toNat < b.toNat then true else if b.toNat < a.toNat then false else bytesLt as bs

/-- Bitwise exclusive or of two byte strings, as long as the shorter. -/
def xorB (a b : List Byte) : List Byte := List.zipWith (· ^^^ ·) a b

/-! ## Check functions -/

/-- `k` steps of a reflected 32-bit CRC. -/
def crcBits (poly : BitVec 32) : Nat → BitVec 32 → BitVec 32
  | 0, c => c
  | k + 1, c => crcBits poly k (if c.getLsbD 0 then (c >>> 1) ^^^ poly else c >>> 1)

/-- One byte through a reflected CRC. -/
def crcByte (poly c : BitVec 32) (b : Byte) : BitVec 32 := crcBits poly 8 (c ^^^ b.setWidth 32)

/-- The CRC register after a byte string. -/
def crcFold (poly c : BitVec 32) (bs : List Byte) : BitVec 32 := bs.foldl (crcByte poly) c

/-- The polynomial of CRC-32C, reflected (R116). -/
def polyC : BitVec 32 := 0x82F63B78
/-- The polynomial of IEEE CRC-32, reflected. -/
def polyE : BitVec 32 := 0xEDB88320

/-- CRC-32C (R116). -/
def crc32c (bs : List Byte) : Nat := (~~~ (crcFold polyC 0xFFFFFFFF bs)).toNat

/-- CRC-32C of a string that follows one whose check is `c`. -/
def crc32cMore (c : Nat) (bs : List Byte) : Nat :=
  (~~~ (crcFold polyC (~~~ (BitVec.ofNat 32 c)) bs)).toNat

/-- IEEE CRC-32 (R348). -/
def crc32 (bs : List Byte) : Nat := (~~~ (crcFold polyE 0xFFFFFFFF bs)).toNat

/-! ## hash64 (R115) -/

/-- One step of hash64's loop (HSTEP, R254). -/
def hashStep (h x : Word) : Word :=
  let m := (h ^^^ x) * 0xFF51AFD7ED558CCD
  m ^^^ (m >>> 32)

/-- The final step of hash64 (HFIN, R254). -/
def hashFin (h : Word) : Word :=
  let m := (h ^^^ (h >>> 29)) * 0xC4CEB9FE1A85EC53
  m ^^^ (m >>> 32)

/-- hash64 of words under a seed (R115). -/
def hash64 (ws : List Nat) (seed : Nat) : Nat :=
  (hashFin (ws.foldl (fun h x => hashStep h (BitVec.ofNat 64 x))
    (BitVec.ofNat 64 seed ^^^ 0x9E3779B97F4A7C15))).toNat

end Sys2Proof.Machine
end

