-- ==== Sys2Proof/Machine/State.lean ====
section
/-! DEFINITION. The state of one LVQ-880: every register, buffer, queue, mode and pin the spec gives it, as plain
data, with the state right after reset. Each field's comment names its rule and its reset value. -/
namespace Sys2Proof.Machine

/-- Why a command can stop the machine. No meaning of this model raises one: every condition the spec
describes is a status, a record or a violation answer, and the device goes on. -/
inductive Fault where
  /-- Raised by no meaning; it only keeps the type inhabited. Safe. -/
  | unreachable
  deriving DecidableEq, Repr

/-- Why a command has no meaning here. -/
inductive Refusal where
  /-- Raised by exec's arm of a row without a meaning, and by nothing else. Safe. -/
  | notModelled (mnemonic : String)
  deriving DecidableEq, Repr

/-! ## Values shared by several blocks -/

/-- The value of an object member: a number (BOOL, Uk, Ik) or a byte string (BLOB, STR32) (Table 16.1). -/
inductive ObjVal where
  | num (z : Int)
  | blob (b : List Byte)
  deriving DecidableEq, Repr

/-- A column value: an integer form, an IEEE 754 bit pattern, or a byte string (Table 03.10). -/
inductive Val where
  | int (z : Int)
  | fp (bits : Nat)
  | str (b : List Byte)
  deriving DecidableEq, Repr

/-- A column slot: `none` is null (R108). -/
abbrev Slot := Option Val

/-- What a rope's layout needs of one column: type, width and nullability. -/
structure ColForm where
  ty : Nat
  width : Nat
  nullable : Bool
  deriving DecidableEq, Repr

/-- A rope (Tables 03.11 and 03.12) with its selection, keys and columns per slot. A key is the pair
(probe, build); KEY_FORM 1 uses the first part only. -/
structure Rope where
  routeId : Nat
  stage : Nat
  keyForm : Nat
  rows : Nat
  seq : Nat
  srcDevice : Nat
  srcRidge : Nat
  base : Nat
  spanPitch : Nat
  sel : List Bool
  keys : List (Nat × Nat)
  cols : List (List Slot)
  deriving DecidableEq, Repr

/-- One row as the units pass it on: its tie-break key and its values. -/
structure Row where
  key : Nat × Nat
  vals : List Slot
  deriving DecidableEq, Repr

/-- A message the device sends on the Omuth Link or the on-die fabric. -/
inductive Msg where
  | coh (m : CohMsg)
  | belay (a : BelayAck)
  | svc (m : SvcMsg)
  /-- A tick marker whose ELAPSED was right at clock `since` (R356). -/
  | tickMarker (master source elapsed pitch since : Nat)
  | heartbeat (origin source state beat : Nat)
  | nak (detector cause opcode seq source : Nat)
  deriving DecidableEq, Repr

/-- A slot that a port sends: sixteen bytes as a number, or a tick marker, whose ELAPSED follows from the start of the flit that
carries it (R356). -/
inductive TxSlot where
  | word (w : Nat)
  | marker (master source elapsed pitch since : Nat)
  deriving DecidableEq, Repr

/-- A PAYLOAD flit of the replay buffer (R349): SEQ, FIRST_MSG, slots, and the messages that end in it. -/
structure TxFlit where
  seq : Nat
  firstMsg : Nat
  slots : List TxSlot
  ends : List Msg
  deriving DecidableEq, Repr

/-- What leaves the device, in order: messages, control flits, host-visible signals, management answers. -/
inductive OutEv where
  | fabric (m : Msg)
  /-- A flit of a port: header, slots, and the symbols of its coded bytes on each active lane (R341, R346 to R348). -/
  | flit (p : Nat) (h : FlitHdr) (slots : List Nat) (lanes : List (Nat × List Nat))
  | msix (tenant vector : Nat)
  | hostRead (tenant addr len : Nat)
  | cxlData (addr : Nat) (data : List Byte) (poisoned : Bool)
  | cxlDone (addr : Nat)
  /-- A Brix answer, header and payload. -/
  | brix (src : BrixSrc) (bytes : List Byte)
  | event (seq : Nat) (payload : List Byte)
  | spdm (port link : Nat) (payload : List Byte)
  | frame (kind : Nat) (payload : List Byte)
  | retryStatus (port : Nat)
  | configServed (port : Nat)
  | linkTrain (port : Nat)
  | aer (port link : Nat)
  | refresh (ch : Nat)
  /-- What a read of an object member that changes state returned. -/
  | objValue (index member : Nat) (bytes : List Byte)
  | tickOut (high : Bool)
  | highZ
  deriving DecidableEq, Repr

/-! ## Device states, start-up and persistent storage (chapters 16 and 17) -/

/-- Where start-up stands (Table 17.3, R471, R488). -/
inductive BootPhase where
  | off        -- PWRGOOD deasserted (R508)
  | inReset    -- RST_N low
  | booting    -- the firmware is measured and loaded
  | stopped    -- the boot ROM stopped (R471)
  | ready      -- Basecamp ready
  | tripped    -- every domain but 47 is off (R488, R508)
  deriving DecidableEq, Repr

/-- The device state of O:0x1010.1 (Table 16.2). -/
inductive DevState where
  | configuration | forming | operational | bivouac | retreat
  deriving DecidableEq, Repr

/-- A firmware slot in SPI flash: whether it can be read, its security version and its five images (R471). -/
structure FwSlot where
  readable : Bool
  version : Nat
  images : List (List Byte)
  deriving DecidableEq, Repr

/-- A DDR5 or HBM remap entry (Table 15.4), with the channel (0 to 15 DDR5, 16 and 17 HBM) it belongs to. -/
structure Remap where
  ch : Nat
  sub : Nat
  hbmChannel : Nat
  target : Nat
  line : Nat
  deriving DecidableEq, Repr

/-- A device mark: channel, rank, subchannel and DRAM device (R442). -/
structure Mark where
  ch : Nat
  rank : Nat
  sub : Nat
  device : Nat
  deriving DecidableEq, Repr

/-- OTP and SPI flash: they survive every reset (Table 17.4). -/
structure FlashSt where
  /-- Four OTP generations of 512 bytes (R468); unburned ones are all zero. -/
  otp : List (List Byte)
  /-- Firmware slots A and B (R471). -/
  slotA : FwSlot
  slotB : FwSlot
  /-- Physical ridges marked failed (R19, R482). -/
  ridgeMarks : List Nat
  /-- Physical strands marked failed, as (ridge, strand) (R19). -/
  strandMarks : List (Nat × Nat)
  /-- Remap entries and device marks (R441). -/
  remaps : List Remap
  marks : List Mark
  /-- Life objects (R512): hours, average Tj in hundredths, minutes above 95 degrees, PWRGOOD assertions. -/
  poweredHours : Nat
  tjAverage : Int
  minutesAbove95 : Nat
  powerCycles : Nat
  deriving DecidableEq, Repr

/-- Device-wide state. -/
structure SysSt where
  /-- Start-up phase; reset: in reset. -/
  phase : BootPhase
  /-- O:0x1010.1 (R456); reset: CONFIGURATION. -/
  state : DevState
  /-- Device ID and device count fixed at formation (R25); reset: 0 and 1. -/
  deviceId : Nat
  deviceCount : Nat
  /-- Clock at the last formation, and whether one has taken place (TIME_NS, Table 16.1). -/
  formed : Bool
  formedAt : Nat
  /-- Clock at the RST_N release (Table 16.1). -/
  releasedAt : Nat
  /-- Pins driven by the board: PWRGOOD, RST_N, PERST_N of HP0 and HP1 (true: high). -/
  pwrgood : Bool
  rstN : Bool
  perst0 : Bool
  perst1 : Bool
  /-- Pins driven by the device: TICK_OUT, THERM_N (true: driven low), FAN_PWM duty in 3,000ths of a percent, and
  whether the outputs are in high impedance (R45, R486, R508). -/
  tickOut : Bool
  thermLow : Bool
  fanDuty : Nat
  highZ : Bool
  /-- Logical to physical ridges, index = logical number (R16); the standing spare, if any. -/
  ridgeMap : List Nat
  spareRidge : Option Nat
  /-- The logical ridge whose number the spare took last, and the pitch it was in (R20). -/
  spareGiven : Option (Nat × Nat)
  /-- Peers to which the fabric path has failed: it is fenced until the next formation (R73). -/
  fencedPaths : List Nat
  /-- Logical to physical strands of each physical ridge (R17). -/
  strandMap : List (List Nat)
  /-- Ridges retired by RIDGE_RETIRE that wait for the next belay (R482). -/
  retireAsked : List Nat
  /-- Ridges retired within this formation (R475, R483). -/
  retired : List Nat
  /-- STATE_REQUEST 3 accepted (R490): the number of the pitch at whose start the device enters bivouac. -/
  bivouacArmed : Option Nat
  /-- Retreat causes held until formation ends (R494, Table 17.2). -/
  heldCauses : Nat
  /-- RETREAT exit in progress: OPERATIONAL at the next tick (R499). -/
  exiting : Bool
  /-- The boot asked for retreat (R471). -/
  bootRetreat : Bool
  /-- The banks of the CRN have been without power and wait for their shadows (R237, R494). -/
  crnOff : Bool
  deriving DecidableEq, Repr

/-! ## Pitch timing (chapter 02) -/

/-- How this device ticks (R41 to R46). -/
inductive TickMode where
  | internal | tickIn | follower
  deriving DecidableEq, Repr

structure PitchSt where
  /-- Ticks run since formation; reset: no. -/
  running : Bool
  /-- Pitch number of the pitch in progress (O:0x2001.3, R38); reset 0. -/
  number : Nat
  /-- Clock of the last tick and of the tick that is expected next (R40). -/
  lastTick : Nat
  expected : Nat
  /-- Cutoff and decision of this pitch have passed. -/
  cutoffDone : Bool
  decisionDone : Bool
  mode : TickMode
  /-- O:0x2001.2 TICK_MASTER. -/
  master : Nat
  /-- A first TICK_IN edge has been taken as tick 0 (R44). -/
  tickInStarted : Bool
  /-- Consecutive misses and, while on the internal timer after eight, consecutive good edges (R44). -/
  misses : Nat
  goodEdges : Nat
  /-- Running on the internal timer after eight misses (R44). -/
  fallback : Bool
  /-- Clock of the last TICK_IN edge (R44). -/
  lastEdge : Nat
  /-- Phase correction in eighths of a ns, applied at the next tick (R46). -/
  correction : Int
  /-- Consecutive cool ticks of the power controller (R484); reset 0. -/
  coolTicks : Nat
  deriving DecidableEq, Repr

/-! ## Routes (chapters 02, 03) -/

/-- A stage descriptor (Tables 03.2 and 03.4) with its eight words kept. -/
structure Stage where
  words : List Nat
  kind : Nat
  index : Nat
  inputA : Nat
  inputB : Nat
  options : Nat
  colFirst : Nat
  colCount : Nat
  progOffset : Nat
  progLen : Nat
  deriving DecidableEq, Repr

/-- A column descriptor (Table 03.7). -/
structure Column where
  ty : Nat
  precision : Nat
  scale : Nat
  width : Nat
  nullable : Bool
  dictSorted : Bool
  reserved : Nat
  blockList : Nat
  blockCount : Nat
  dictEntries : Nat
  dict : Nat
  deriving DecidableEq, Repr

/-- A range entry and a hash entry of a partition specification (Table 03.6). -/
structure RangeEntry where
  stage : Nat
  device : Nat
  mirror : Nat
  hasMirror : Bool
  firstRope : Nat
  ropeCount : Nat
  reserved : Nat
  deriving DecidableEq, Repr

structure HashEntry where
  seed : Nat
  scope : Nat
  reserved : Nat
  deriving DecidableEq, Repr

/-- The admitted copy of a route's structures (R86). -/
structure RouteDesc where
  version : Nat
  priority : Nat
  tenant : Nat
  mirrored : Bool
  predictable : Bool
  replay : Bool
  deterministic : Bool
  routeId : Nat
  quota : Nat
  outputHandle : Nat
  userTag : Nat
  stages : List Stage
  columns : List Column
  program : List Byte
  deviceCount : Nat
  ranges : List RangeEntry
  hashes : List HashEntry
  deriving DecidableEq, Repr

/-- A build record of a join (R150): lead key, key values, build columns. Records of one lead key stand in the order of the
other element of their rows' pairs (R82). -/
structure BuildRec where
  lead : Nat
  tie : Nat
  keys : List Slot
  cols : List Slot
  deriving DecidableEq, Repr

/-- The build side of a join on one logical ridge (R150 to R152, R158). -/
structure BuildSt where
  received : Nat
  nullSeen : Bool
  records : List BuildRec
  isSealed : Bool
  /-- Whole-build facts combined at the seal (R152). -/
  anyReceived : Bool
  anyNull : Bool
  /-- Banks taken for a CAM build: mask and width, when the build fits (R158). -/
  cam : Option (Nat × Nat)
  deriving DecidableEq, Repr

/-- The state of one aggregate of one group (Table 06.2). -/
inductive AggState where
  | count (n : Nat)
  | sum (z : Int) (n : Nat)
  | binned (s0 c0 s1 c1 s2 c2 anchor : Int) (flags : Nat) (n : Nat)
  | fsum (bits : Nat) (n : Nat)
  | extreme (v : Slot) (key : Nat × Nat)
  | distinct (regs : SMap Nat)
  deriving DecidableEq, Repr

/-- A group: its key values, the smallest tie-break key and its states (R188). -/
structure Group where
  /-- Its slot in the table (R186). -/
  slot : Nat
  keys : List Slot
  tie : Nat × Nat
  states : List AggState
  deriving DecidableEq, Repr

/-- A group table on one logical ridge (R186, R187). -/
structure AggSt where
  slots : Nat
  groups : List Group
  keyForm : Nat
  /-- Ropes released (R184): the next ROPE_SEQ. -/
  releasedSeq : Nat
  deriving DecidableEq, Repr

/-- A sorted run: the opening pitch of the span whose rows it holds, rows taken in, rows kept (R199). -/
structure SortRun where
  pitch : Nat
  taken : Nat
  rows : List Row
  deriving DecidableEq, Repr

/-- The runs of a SORT or the two streams of a MERGE on one logical ridge (R199, R200), an intermediate pass in
progress as its remaining sources and its output so far, and what has been released. -/
structure SortSt where
  runs : List SortRun
  merging : Option (List (List Row) × List Row)
  releasedSeq : Nat
  releasedRows : Nat
  keyForm : Nat
  deriving DecidableEq, Repr

/-- A rope in the route's state: where it came from and the object that holds it. -/
structure RopeRef where
  stage : Nat
  ridge : Nat
  device : Nat
  kind : Nat
  obj : Nat
  seq : Nat
  deriving DecidableEq, Repr

/-- What a belay commits and a replay restores (R54, R65). -/
structure RouteWork where
  /-- Per SCAN stage: the first source rope not yet committed (R52). -/
  next : SMap Nat
  /-- Per SCAN stage: source ropes granted to each device by the committed spans (R52). -/
  granted : SMap Nat
  /-- Per SCAN stage: inflated bytes charged (R130). -/
  charges : SMap Nat
  /-- Per stage × 16 + logical ridge. -/
  builds : SMap BuildSt
  /-- Depot objects of builds, group tables and runs, per stage × 16 + ridge; the further pages of a group table stand
  under stage + 16 (R187). -/
  tables : SMap Nat
  aggs : SMap AggSt
  sorts : SMap SortSt
  /-- Stages whose output is all released on a ridge (stage × 16 + ridge). -/
  released : List Nat
  /-- The Summit's staging chain, in merge order (R206, R207). -/
  staging : List RopeRef
  /-- The object of the route's STAGING pages, and the chain entries that have been appended (R207, R217). -/
  stagingObj : Option Nat
  staged : Nat
  /-- Probe ropes that wait for a seal (R152), as (stage, ridge, rope object). -/
  waiting : List (Nat × Nat × Nat)
  /-- Rows of blocks whose segments have been NONE, while some segment over the block is still to come (R147): per stage,
  column and first row of the block. -/
  skipped : SMap Nat := []
  deriving DecidableEq, Repr

/-- An open span (chapter 02). -/
structure Span where
  openPitch : Nat
  /-- Effective quota q of the span (R51). -/
  q : Nat
  ext : Nat
  replaying : Bool
  faultReplays : Nat
  /-- Source ropes of each SCAN stage: (stage, first, count). -/
  sources : List (Nat × Nat × Nat)
  /-- Source tasks that have become ready, per stage × 16 + ridge. -/
  handedOut : SMap Nat
  /-- Ropes released under R184, per stage × 16 + ridge. -/
  releasedRopes : SMap Nat
  /-- Participants' acknowledgements (R66), as (device, kind). -/
  acks : List (Nat × Nat)
  /-- This participant has sent DONE for the pitch (R66). -/
  acked : Bool
  /-- This participant began the last replay, and the home's REPLAY is still to come (R74). -/
  echo : Bool
  /-- Verdict that takes effect at the tick: 4 COMMIT, 5 EXTEND, 6 REPLAY (Table 02.4). -/
  verdict : Option Nat
  /-- Objects allocated and freed within the span (R59). -/
  allocated : List Nat
  freed : List Nat
  /-- Banks searched (R178): (bank key, clock of first search, clock of last search). -/
  searched : List (Nat × Nat × Nat)
  /-- Pitches whose Summit merge of this span is done (R206). -/
  merged : List Nat
  /-- All tasks of the span on this device were done at the cutoff of this pitch (R67). -/
  doneByC : Bool
  /-- A participant without a verdict at the tick: no work starts on the span (R68). -/
  held : Bool
  deriving DecidableEq, Repr

/-- A suspension (R229): cause 0 QUOTA, 1 REGION, 2 MAP; footprint bytes per class; tick number. -/
structure Suspend where
  cause : Nat
  footprint : List Nat
  tick : Nat
  deriving DecidableEq, Repr

/-- A publication in progress (R208 to R211). -/
structure Publish where
  startedAt : Nat
  bytes : List Byte
  check : Nat
  /-- Ended at this clock (PUBLICATION_DONE). -/
  doneAt : Option Nat
  /-- Paused for a page since this tick (R232). -/
  paused : Option Nat
  /-- The new object that becomes the region, and the combining table (R208), if they exist yet. -/
  object : Option Nat
  table : Option Nat
  tableBytes : Nat
  /-- It still lacks a page (R232). -/
  lacks : Bool
  deriving DecidableEq, Repr

/-- An open route (R201): admitted and not yet completed. -/
structure Route where
  key : RouteKey
  qid : Nat
  cid : Nat
  /-- The completion queue its records go to (R383). -/
  cqid : Nat
  /-- The final record is due and not yet posted: the route still counts as open (R378). -/
  finalDue : Bool
  desc : RouteDesc
  admitOrder : Nat
  /-- Bytes of the admitted copy (R86), as a participant reads them. -/
  copy : List Byte
  admitPitch : Nat
  admitTime : Nat
  /-- First quota at this tick (R53). -/
  firstTick : Nat
  /-- Halvings h (R71). -/
  h : Nat
  overruns : Nat
  replays : Nat
  span : Option Span
  work : RouteWork
  base : RouteWork
  /-- Conditions detected that end the route, and the tick at which it ends (R146). -/
  conditions : List Nat
  endTick : Option Nat
  /-- Aborts and tenant resets admitted, as (status, tick at which they take effect) (R57). -/
  aborts : List (Nat × Nat)
  suspended : Option Suspend
  publish : Option Publish
  /-- Dead devices whose ranges their mirrors took (R75). -/
  lostDevices : List Nat
  /-- Each of them with the source ropes of each SCAN stage that the committed spans had granted to a device. -/
  losses : List (Nat × SMap Nat)
  /-- The Cairn tables its programs name, with their widths when the route was opened here (R143). -/
  widths : List (Nat × Nat)
  /-- A cause of Table 08.10 has ended it (O:0x3070.3). -/
  strandEnded : Bool
  deriving DecidableEq, Repr

/-! ## The Rope scheduler (chapter 13) -/

/-- A task: one rope through one stage on one logical ridge (R386). -/
inductive TaskInput where
  | source (seq : Nat)
  | rope (obj : Nat)
  | sealBuild
  | release
  deriving DecidableEq, Repr

structure Task where
  key : RouteKey
  stage : Nat
  ridge : Nat
  input : TaskInput
  seq : Nat
  deriving DecidableEq, Repr

structure Running where
  ridge : Nat
  unit : UnitKind
  ctx : Nat
  task : Task
  /-- Tasks that become ready when this one ends, because its output ropes are then written. -/
  outputs : List Task
  /-- Since when the context stalls for want of slots, as far as that is not yet counted (R388). -/
  stalled : Option Nat := none
  deriving DecidableEq, Repr

/-- A dictionary in an SCN's buffer (R119), tagged with its route, stage and column. -/
structure DictEnt where
  key : RouteKey
  stage : Nat
  col : Nat
  bytes : List Byte
  deriving DecidableEq, Repr

structure SchedSt where
  ready : List Task
  running : List Running
  /-- Weighted round robin: pointer per ridge × 8 + level, credit per (ridge × 8 + level) × 32 + tenant. -/
  ptr : SMap Nat
  credit : SMap Nat
  /-- Rails that reached their maximum current (R485). -/
  railsHeld : List Nat
  /-- Next admission order number. -/
  nextOrder : Nat
  /-- Weights asked for by SET_WEIGHT, in force from the next tick (R383), and tenants' weights. -/
  weightAsked : SMap Nat
  weight : SMap Nat
  /-- Dictionaries in the buffers of the SCNs, oldest first, per logical ridge (R119). -/
  dicts : SMap (List DictEnt)
  /-- Blocks whose second read is under way (R124). -/
  rereads : List (RouteKey × Nat)
  /-- Tasks of no unit's context that wait for a slot of their ridge, oldest first (R386, R388). -/
  held : List Task
  deriving DecidableEq, Repr

/-! ## The filter machine (chapter 04) -/

/-- A mask slot: three-valued (R137). -/
inductive Tri where
  | t | f | u
  deriving DecidableEq, Repr

/-- The filter machine of one SCN context (R131): column registers as (type, scale, width, slots). -/
structure ColReg where
  ty : Nat
  scale : Nat
  width : Nat
  sorted : Bool
  slots : List Slot
  deriving DecidableEq, Repr

/-- A constant of a program (Table 04.4); `bytes` is the data area from its offset on. -/
structure FConst where
  kind : Nat
  ty : Nat
  scale : Nat
  hasNull : Bool
  length : Nat
  raw : Nat
  bytes : List Byte
  deriving DecidableEq, Repr

structure FilterMachine where
  key : RouteKey
  ridge : Nat
  rows : Nat
  sel : List Bool
  inputs : List ColReg
  consts : List FConst
  cregs : SMap ColReg
  mregs : SMap (List Tri)
  deriving DecidableEq, Repr

/-! ## Cairn (chapter 05) -/

inductive BankOwner where
  | free
  | host (tenant table : Nat)
  | cam (key : RouteKey) (stage : Nat)
  deriving DecidableEq, Repr

/-- A Cairn bank: owner, width in units and 4,096 rows of 94 bits (Table 05.4), sparse over the reset row. -/
structure Bank where
  owner : BankOwner
  width : Nat
  rows : SMap (BitVec 94)
  /-- Start and end of parity passes, as clocks, the oldest first: the last one, and the first after a search of an open span
  (R178). -/
  passes : List (Nat × Nat)
  /-- Clocks of the repairs by sweep and scrub that some open span's search may precede (R178). -/
  repairs : List Nat
  lastScrub : Nat
  /-- Clock of the last search by a span that has committed, 0 for none (R178). -/
  lastUse : Nat
  /-- The Depot object and page of the bank's shadow copy (R175). -/
  shadow : Nat × Nat
  deriving DecidableEq, Repr

/-- A host table (R162, R163). -/
structure CairnTable where
  tenant : Nat
  number : Nat
  split : Bool
  width : Nat
  banks : Nat
  ridges : Nat
  /-- The Depot object of its shadow copy (R175). -/
  shadow : Nat
  deriving DecidableEq, Repr

structure CairnSt where
  /-- Key: logical ridge × 4 + bank number. -/
  banks : SMap Bank
  tables : List CairnTable
  /-- Shadow rows (R175): key (logical ridge × 4 + bank) × 4,096 + row, ridge 0 for a replicated table. Only rows
  written since the bank was cleared are listed; an unlisted row stands for the reset row. -/
  shadows : SMap (BitVec 94)
  /-- Which side each CRN bank served last (R140): true SCN. -/
  lastScn : SMap Bool
  /-- Per tenant, the index at which its LOAD_CAIRN goes on once a page of a peer has come (R169, R218). -/
  listAt : SMap Nat
  deriving DecidableEq, Repr

/-! ## The Summit (chapter 06) -/

inductive BufState where
  | free | filling | closed | merging
  deriving DecidableEq, Repr

/-- A slot entry (Table 06.6): its chain is the list of rope objects in ascending ROPE_SEQ. -/
structure SlotEntry where
  key : RouteKey
  kind : Nat
  ridge : Nat
  device : Nat
  spanPitch : Nat
  chain : List (Nat × Nat)
  deriving DecidableEq, Repr

structure SlotBuf where
  state : BufState
  tag : Nat
  entries : List SlotEntry
  deriving DecidableEq, Repr

structure SummitSt where
  /-- Local slots, key logical ridge × 4 + kind; remote slots, key 64 + device ID. Two buffers each. -/
  slots : SMap (SlotBuf × SlotBuf)
  /-- Entries moved to holding at D (R206), with their pitch tags. -/
  holding : List (Nat × SlotEntry)
  /-- Remote close records received, as (device, tag) (R205). -/
  closes : List (Nat × Nat)
  /-- The kind 0 port of each logical ridge that took a deposit: whether it took the SCN last, and the strand it took
  last (R201). -/
  ports : SMap (Bool × Option Nat)
  deriving DecidableEq, Repr

/-! ## The Depot (chapter 07) -/

/-- What a Depot object holds: a rope in its layout, bytes by offset, or a rope in the bytes that a strand's code
wrote (R272). -/
inductive Content where
  | rope (r : Rope)
  | bytes (m : Memory)
  | code (m : Memory) (r : Rope)
  deriving DecidableEq, Repr

/-- A Depot page: object key, index in the object, tier, physical address (tier 3: host address), size
in bytes, the opening pitch of the span that allocated it, and its route. -/
structure Page where
  obj : Nat
  index : Nat
  tier : Nat
  addr : Nat
  size : Nat
  spanPitch : Nat
  key : Option RouteKey
  /-- Pitch-dirty bits and span mark (R317): line numbers within the page. -/
  pdMark : Nat
  pdLines : List Nat
  deriving DecidableEq, Repr

/-- A Depot object (R215): class, owning route, owning ridge, pages in order, content. -/
structure DObj where
  cls : Nat
  key : Option RouteKey
  ridge : Nat
  pages : List Nat
  content : Content
  /-- Column forms of a rope's layout; empty for bytes. -/
  forms : List ColForm
  /-- Released at the belay of its span (R59). -/
  dying : Bool
  /-- The new region of a publication, which no handle names yet (R209, R232). -/
  hidden : Bool := false
  deriving DecidableEq, Repr

/-- A spill range (R227): tenant, host address, length. -/
structure SpillRange where
  tenant : Nat
  addr : Nat
  len : Nat
  deriving DecidableEq, Repr

/-- A migration (R234): page, destination tier and address, changed lines, copied yet, failed ticks. -/
structure Migration where
  page : Nat
  toTier : Nat
  toAddr : Nat
  changed : List Nat
  /-- The open span of the page's route has set a changed bit since it began or began again. -/
  live : Bool
  copied : Bool
  /-- The copy had ended at the last decision instant. -/
  ended : Bool
  due : Bool
  tries : Nat
  deriving DecidableEq, Repr

/-- A journal record (R61). -/
structure JRec where
  key : RouteKey
  spanPitch : Nat
  page : Nat
  lineIndex : Nat
  seq : Nat
  /-- Which 128 bytes of the journal hold the record (log 72). -/
  slot : Nat
  old : List Byte
  deriving DecidableEq, Repr

/-- A page waiting for the zeroing engine (R219): tier, address, size. -/
structure ZeroEnt where
  tier : Nat
  addr : Nat
  size : Nat
  deriving DecidableEq, Repr

/-- A page a peer granted for tier 2, or its refusal when the address is 0 (R218, R359). -/
structure Granted where
  device : Nat
  tenant : Nat
  route : Nat
  cls : Nat
  line : Nat
  deriving DecidableEq, Repr

structure DepotSt where
  /-- Size of the Depot region in GiB in force since the last formation (R220); reset: the reset value of REGION_SIZE
  (log 15). -/
  region : Nat
  /-- Pages granted by peers and not yet taken. -/
  granted : List Granted
  /-- Key: tenant × 65,536 + object number. -/
  objects : SMap DObj
  pages : SMap Page
  nextPage : Nat
  zeroQueue : List ZeroEnt
  spills : List SpillRange
  migrations : List Migration
  /-- Per page: accesses that missed the SLC in this pitch, saturating at 65,535 (R233). -/
  access : SMap Nat
  /-- HBM pages retired (R445), by address of their 64 KiB page. -/
  retiredPages : List Nat
  journal : List JRec
  jseq : Nat
  /-- Requests stalled on a full journal (R62). -/
  stalled : List CohMsg
  /-- Quota drawn by this device as participant, per tenant and home (blocks of 64 MiB) (R223), and
  quota drawn from this device by others, per tenant. -/
  drawn : SMap Nat
  lent : SMap Nat
  /-- Pages freed while an engine entry still reads them (R400): they stay in the map until it completes. -/
  held : List Nat
  /-- Peers' requests for a page that wait for the zeroing engine (R219). -/
  pageAsks : List SvcMsg
  deriving DecidableEq, Repr

/-! ## Strands (chapters 08 and 09) -/

/-- One indirect-target table entry (R257). -/
structure IttEntry where
  tag : Nat
  target : Nat
  deriving DecidableEq, Repr

/-- A retired store that has not left the store queue: address, bytes (R241). -/
structure StoreEnt where
  addr : Word
  bytes : List Byte
  deriving DecidableEq, Repr

/-- The task a strand runs. -/
structure StrandTask where
  key : RouteKey
  stage : Nat
  input : Nat
  out : Nat
  scratch : Nat
  closed : List Nat
  deriving DecidableEq, Repr

/-- One strand (R248, R249, R257, R277). f0 to f31 are the low 64 bits of v0 to v31 (R278). -/
structure StrandSt where
  task : Option StrandTask
  pc : Word
  g : Vector Word 32
  v : Vector Vec 32
  p : Vector Pred 8
  vlGroup : Nat
  vlSew : Nat
  vlLen : Nat
  ffr : Pred
  trap : Bool
  pt : Bool
  tvec : Word
  epc : Word
  cause : Word
  tval : Word
  fpctl : Word
  bpctl : Word
  evtsel : Word
  cycle : Nat
  instret : Nat
  wpfetch : Nat
  wpload : Nat
  evt : Vector Nat 4
  queue : List StoreEnt
  itt : SMap IttEntry
  path : Nat
  lastRoute : Option RouteKey
  /-- Pages in the ITLB (32 entries) and in the DTLB (64 entries), by their first address (R241). -/
  itlb : List Nat
  dtlb : List Nat
  /-- Lines the strand waits for (a load whose line's home is a peer). -/
  waitLine : Option Nat
  deriving DecidableEq, Repr

/-! ## Caches (chapter 10) -/

/-- A line state at a caching agent (Table 11.2). -/
inductive LineState where
  | M | O | E | S | I
  deriving DecidableEq, Repr

/-- One way of a cache set: line address, state, dirty, re-reference value, streaming tag, PD bit, fenced, data. -/
structure Way where
  line : Nat
  state : LineState
  dirty : Bool
  rrv : Nat
  streaming : Bool
  pd : Bool
  fenced : Bool
  data : List Byte
  deriving DecidableEq, Repr

/-- A streaming-store detector window (R299): region, count, streaming, other, last touch. -/
structure Window where
  region : Nat
  count : Nat
  stream : Bool
  other : Nat
  touched : Nat
  deriving DecidableEq, Repr

/-- State of a cache that can be disabled (Table 10.5). -/
inductive CacheState where
  | enabled | disabling | disabled
  deriving DecidableEq, Repr

structure CacheSt where
  /-- L2: key physical ridge × 4,096 + set, sixteen ways. -/
  l2 : SMap (List Way)
  /-- L1D: key (physical ridge × 9 + strand) × 256 + set; L1I: × 128 + set; four ways. -/
  l1d : SMap (List Way)
  l1i : SMap (List Way)
  /-- Tree pseudo-LRU bits of each L1D set (R296). -/
  plru : SMap Nat
  /-- SLC: key slice × 3,072 + set, sixteen ways. -/
  slc : SMap (List Way)
  /-- State per L2 (key 0 to 16) and per quadrant (key 32 to 35); unlisted: ENABLED. -/
  states : SMap CacheState
  /-- Partition entries in force since the last belay: key physical ridge × 8 + entry (R298). -/
  parts : SMap Nat
  /-- Streaming windows: key 0 to 16 for the L2s, 32 + ridge × 9 + strand for the L1Ds. -/
  windows : SMap (List Window)
  touch : Nat
  /-- A maintenance operation of O:0xF010 is in progress. -/
  cmoBusy : Bool
  deriving DecidableEq, Repr

/-! ## Coherence (chapter 11) -/

/-- Directory states (Table 11.3). -/
inductive DirState where
  | I | S | E | O | M | G
  deriving DecidableEq, Repr

structure DirEnt where
  state : DirState
  pd : Bool
  changed : Bool
  owner : Nat
  ridges : List Nat
  devices : List Nat
  rrv : Nat
  /-- The way of its set that the entry takes (R315). -/
  way : Nat := 0
  deriving DecidableEq, Repr

/-- An open transaction at a home (R321, R322): the request, the agents whose answers are awaited, the
data and state gathered, and what it waits for. -/
structure Txn where
  /-- Tracker number: the TXN_ID of the home's snoops and the AUX_TXN of its forwards. -/
  tracker : Nat
  line : Nat
  req : CohMsg
  waiting : List Nat
  data : Option (List Byte)
  answered : List Nat
  /-- The owner a forward went to, and whether it has passed the line on. -/
  fwd : Option Nat
  moved : Bool
  since : Nat
  backInv : Bool
  /-- The request that waits for the entry which a back-invalidation frees (R315). -/
  resume : Option CohMsg
  /-- A replay restored the line after the transaction opened: what its answers carry is not written (R65, R303). -/
  stale : Bool := false
  deriving DecidableEq, Repr

/-- A request this device has open at a home, and why (R321). -/
inductive Purpose where
  /-- A line that the L2 of a physical ridge asks for, for a route's unit. -/
  | fill (ridge : Nat) (route : Option RouteKey)
  /-- A peer's line that a route's unit writes whole: its bytes merge into the fill (R327). -/
  | write (ridge : Nat) (route : RouteKey) (data : List Byte)
  | strand (st : StrandRef)
  | routeCopy (key : RouteKey) (offset : Nat)
  | cxl (addr : Nat)
  | engine (ch : Nat)
  | depot
  | unit
  /-- A maintenance operation of O:0xF010 (R303). -/
  | maint
  /-- A request whose answer nothing waits for any more (Table 17.4). -/
  | dropped
  deriving DecidableEq, Repr

structure OpenReq where
  msg : CohMsg
  purpose : Purpose
  /-- The token a RETRY gave it (R324), and whether it has been sent. -/
  token : Option Nat
  sent : Bool
  /-- Snoops held until its fill arrives (R327). -/
  held : List CohMsg
  deriving DecidableEq, Repr

/-- A write-back buffer entry (R331): agent, line, transaction, data, state kept; a notice of a pitch-dirty bit keeps M
and holds no data (R330). -/
structure WbEnt where
  agent : Nat
  line : Nat
  txn : Nat
  data : List Byte
  keeps : LineState
  /-- The line is written back poisoned (Table 10.6). -/
  poison : Bool := false
  /-- Written back by the last cutoff clean, or before it (R302). -/
  atCut : Bool := false
  deriving DecidableEq, Repr

structure CohSt where
  /-- Home directories, key line address / 64. -/
  dir : SMap DirEnt
  /-- The device proxy's remote-line directory (R316), key line address / 64: local ridges and state. -/
  remote : SMap (List Nat × LineState)
  open_ : List Txn
  /-- Pending queues (R322): requests in queue order. -/
  queued : List CohMsg
  /-- When queued requests arrived, as (source, transaction, clock) (R323). -/
  arrived : List (Nat × Nat × Nat)
  /-- Retry tokens held, oldest first: (home × 512 + token, source, granted) (R324). -/
  tokens : List (Nat × Nat × Bool)
  nextToken : Nat
  /-- Rotating port pointer of each home (R323), key home's local number. -/
  portPtr : SMap Nat
  requests : List OpenReq
  wbBuf : List WbEnt
  /-- Write-backs already applied from a snoop answer (R331), as (agent, txn). -/
  applied : List (Nat × Nat)
  nextTxn : Nat
  nextTracker : Nat
  /-- Remote lines read for the units' tasks: status and data, kept until the next tick (log 17). -/
  readBuf : SMap (Nat × List Byte)
  /-- Devices declared dead (R333). -/
  dead : List Nat
  /-- Clock of the last heartbeat of each peer, and the last beat number seen. -/
  lastBeat : SMap Nat
  seenBeat : SMap Nat
  /-- Local L2s that were fenced with their ridge, by physical ridge (R333, R334). -/
  fencedL2 : List Nat
  /-- Snoops held for a strand that has not yet used the line its fill brought, by strand (R327). -/
  heldSnoops : List (Nat × CohMsg)
  /-- Peers whose heartbeat carries STATE 1 (R498). -/
  retreated : List Nat
  /-- This device's heartbeats since formation (R356). -/
  beats : Nat
  /-- Stopped sending coherence messages and heartbeats (R335, R478). -/
  silent : Bool
  deriving DecidableEq, Repr

/-! ## The Omuth Link (chapter 12) -/

inductive PortMode where
  | down | training | active | failover | retraining | disabled
  deriving DecidableEq, Repr

/-- One Omuth port (Tables 12.3 and 12.10). -/
structure PortSt where
  mode : PortMode
  rate : Nat
  width : Nat
  lanes : Nat
  neighbour : Nat
  latency : Nat
  /-- Sender: next SEQ, oldest unacknowledged SEQ count, messages in flight by SEQ. -/
  nextSeq : Nat
  ackedTo : Nat
  unacked : List TxFlit
  resends : Nat
  /-- Receiver: last SEQ accepted plus one, NAK due, message slots of a message in progress. -/
  expectSeq : Nat
  nakDue : Bool
  partialSlots : List Nat
  /-- Credits: freed totals last seen and credits held per class code 0 to 8; credits given by us. -/
  credSeen : Vector Nat 9
  credits : Vector Nat 9
  credUsed : Vector Nat 9
  credFreed : Vector Nat 9
  /-- Corrected symbols per lane in this interval (R344). -/
  laneErrors : SMap Nat
  /-- Clocks of recent link violations and retrains (R362, R363). -/
  linkViolations : List Nat
  retrainTimes : List Nat
  /-- Latency probes answered and the smallest round trip less turnaround (R343). -/
  probes : Nat
  probeBest : Option Nat
  probeOut : Nat
  /-- Waiting messages not yet in a flit. -/
  waiting : List Msg
  /-- The message that has begun and not yet ended, with its slots not yet sent (R351). -/
  txMsg : Option Msg
  txRest : List TxSlot
  /-- The class code that the next flit reports first (R350). -/
  reportAt : Nat
  /-- An accepted flit has not been answered by any flit yet (R346, R349). -/
  owes : Bool
  /-- SEQ of a PORT_LOST whose port is not DOWN here yet (R345). -/
  lostSeq : Option Nat
  /-- Steps 3 and 4 of Table 12.2: the width is chosen; good CONTROL flits in a row since then. -/
  locked : Bool
  fecRun : Nat
  /-- Training step reached at OL1 after OL2 failed (Table 12.2). -/
  triedOl1 : Bool
  deriving DecidableEq, Repr

/-- A request open at a peer that it answers in order (R358): PAGE_ALLOC for tier 2 (`outId` none) or for an
outbound rope, or QUOTA_DRAW. -/
structure Asked where
  device : Nat
  op : Nat
  tenant : Nat
  route : Nat
  cls : Nat
  outId : Option Nat
  deriving DecidableEq, Repr

/-- A rope on its way to a peer (R359): pages asked for, then written line by line, then announced. -/
structure Outbound where
  id : Nat
  device : Nat
  key : RouteKey
  cls : Nat
  bytes : List Byte
  dstRidge : Nat
  seq : Nat
  srcRidge : Nat
  stage : Nat
  spanPitch : Nat
  /-- Unit kind of a Summit partial; none for a rope bound for EXCHANGE. -/
  summit : Option Nat
  /-- Ropes in the chain, each from a page of its own on. -/
  ropes : Nat
  tag : Nat
  /-- Handle of the object at the peer and the line addresses granted so far. -/
  handle : Nat
  pages : List Nat
  /-- Lines written so far; a batch is written when the one before it is complete. -/
  written : Nat
  /-- Transactions of the WR_NC messages whose CMP is awaited. -/
  awaiting : List Nat
  deriving DecidableEq, Repr

/-- A home's admitted copy that a participant reads with RD_NC (ROUTE_OPEN, Table 12.8). -/
structure RouteCopy where
  key : RouteKey
  line : Nat
  bytes : Nat
  got : SMap (List Byte)
  deriving DecidableEq, Repr

/-- Pages given to a peer's requests for one route and class: the object they make up (R359, log 43). -/
structure Inbound where
  device : Nat
  key : RouteKey
  cls : Nat
  obj : Nat
  deriving DecidableEq, Repr

structure LinkSt where
  p0 : PortSt
  p1 : PortSt
  p2 : PortSt
  p3 : PortSt
  /-- Broadcasts already received: (opcode, origin, count) (R355). -/
  seen : List (Nat × Nat × Nat)
  /-- PAGE_ALLOC and QUOTA_DRAW requests open at peers, oldest first. -/
  asked : List Asked
  /-- Ropes on their way to peers, and the next number of one. -/
  outbound : List Outbound
  nextOut : Nat
  /-- Close records not yet sent, as (home, tag): they go after every entry of their pitch (R205). -/
  owed : List (Nat × Nat)
  /-- Admitted copies being read from their homes. -/
  copies : List RouteCopy
  /-- Objects that peers fill. -/
  inbound : List Inbound
  deriving DecidableEq, Repr

/-! ## Host side (chapter 13) -/

/-- A work queue (R371 to R373). -/
structure WQ where
  ring : Nat
  logSize : Nat
  index : Nat
  cq : Nat
  head : Nat
  db : Nat
  halted : Bool
  /-- Waiting for units past the doorbell since this clock, and the units of the entry at the head (R372). -/
  stallSince : Option Nat
  need : Nat
  /-- Passed over under R374 since it was last served. -/
  paused : Bool
  /-- A DELETE_WQ has stopped its fetching (R383). -/
  closing : Bool
  order : Nat
  deriving DecidableEq, Repr

/-- A completion record (Table 13.7) without PHASE. -/
structure Completion where
  status : Nat
  cid : Nat
  qid : Nat
  opcode : Nat
  cause : Nat := 0
  final : Bool := true
  routeId : Nat := 0
  w2 : Nat := 0
  w3 : Nat := 0
  w4 : Nat := 0
  w5 : Nat := 0
  w6 : Nat := 0
  w7 : Nat := 0
  /-- Whether DONE_TIME is stamped when the record is posted; not for a DETERMINISTIC route (R81). -/
  stamp : Bool := true
  /-- The open route that stays open until this record is posted (R378). -/
  closes : Option RouteKey := none
  deriving DecidableEq, Repr

/-- A completion queue (R377, R378, R381). -/
structure CQ where
  ring : Nat
  logSize : Nat
  index : Nat
  vector : Nat
  count : Nat
  time : Nat
  tail : Nat
  head : Nat
  unsignalled : Nat
  firstAt : Nat
  due : List Completion
  order : Nat
  deriving DecidableEq, Repr

/-- A tenant's reset in progress (R385). -/
inductive ResetKind where
  | function | management
  deriving DecidableEq, Repr

/-- Function registers of one tenant (Table 13.4), its mailbox, MSI-X table and reset. -/
structure FnSt where
  awqBase : Nat
  acqBase : Nat
  aqSizes : Nat
  awqIndex : Nat
  acqIndex : Nat
  enable : Bool
  adminError : Bool
  resetting : Option ResetKind
  /-- Step 2 and 3 of Table 13.9 done. -/
  resetDone : Bool
  /-- The tick at which the reset takes effect (R57). -/
  resetTick : Nat
  mbRequest : Memory
  mbResponse : Memory
  mbDone : Bool
  mbBusy : Bool
  /-- MSI-X: table bytes and pending bits (Table 13.3); a vector is masked by bit 0 of its control word. -/
  msixTable : Memory
  msixPending : List Nat
  deriving DecidableEq, Repr

/-- A route log (R389). -/
structure LogSt where
  ring : Nat
  logRecords : Nat
  count : Nat
  active : Bool
  deriving DecidableEq, Repr

structure HostSt where
  fns : SMap FnSt
  /-- Key tenant × 256 + QID. -/
  wqs : SMap WQ
  cqs : SMap CQ
  /-- Host memory as the device sees it: what reads returned and what the device wrote; key tenant × 2^64 + address. -/
  mem : Memory
  /-- Host ranges whose last read failed: (tenant, address, length, status) (R390). -/
  errors : List (Nat × Nat × Nat × Nat)
  /-- Entries fetched and checked by Table 13.6 checks 1 to 4, waiting for their action. -/
  fetched : List Entry
  /-- Last I/O queue and admin turn (R374). -/
  lastIo : Nat
  nextQueueNo : Nat
  logs : SMap LogSt
  logAsked : SMap LogSt
  /-- PERST_N seen released before RST_N (R508), per port. -/
  perstEarly : List Nat
  /-- Links trained (host port × 4 + link). -/
  linksUp : List Nat
  /-- Generation and width ÷ 4 that each trained to (Table 13.13). -/
  trained : SMap (Nat × Nat)
  /-- The functions as the last formation from CONFIGURATION fixed them; none before the first (R366). -/
  fixed : List (Nat × Nat × Nat)
  /-- NumVFs of a link (port × 4 + link); no entry: all of its TotalVFs (R366, log 55). -/
  numVfs : SMap Nat
  /-- The base of HP0.0's HDM decoder, which the host sets (Table 13.2, log 55). -/
  hdmBase : Nat
  /-- Route-log records not yet written: tenant, address, bytes (R389). -/
  logHeld : List (Nat × Nat × List Byte)
  /-- The one record for CXL.mem in bivouac has been raised (R493). -/
  bivouacNoted : Bool
  deriving DecidableEq, Repr

/-! ## Engines (chapter 14) -/

inductive ChanState where
  | idle | running | stopped | halted
  deriving DecidableEq, Repr

/-- What an engine entry's work ended with: status, RESULT and AUX of Table 14.3. -/
structure EngResult where
  status : Nat
  value : Nat
  aux : Nat
  deriving DecidableEq, Repr

/-- An admitted engine entry (R394). -/
structure EngEntry where
  entry : Entry
  /-- The completion queue its record goes to (R383). -/
  cqid : Nat
  order : Nat
  admitTime : Nat
  priority : Nat
  /-- The elements of both lists once they are read: (SPACE, address, length). -/
  src : List (Nat × Nat × Nat)
  dst : List (Nat × Nat × Nat)
  /-- Source bytes taken and not yet passed on. -/
  data : List Byte
  /-- The output has been written; a FENCE may still be waited for (R403). -/
  written : Bool
  result : Option EngResult
  deriving DecidableEq, Repr

structure Chan where
  state : ChanState
  current : Option EngEntry
  waiting : List EngEntry
  fault : Option AccessFault
  /-- STOP entries that complete when the running entry does (R397). -/
  stops : List EngEntry
  deriving DecidableEq, Repr

/-- A digest context (R409 to R412). -/
structure DigestCtx where
  tenant : Nat
  msg : Nat
  alg : Nat
  length : Nat
  key : List Byte
  taken : List Byte
  lastSeen : Bool
  finished : Bool
  /-- Bytes beyond the declared length, discarded (R412). -/
  discarded : Nat
  deriving DecidableEq, Repr

structure EngSt where
  chans : SMap Chan
  contexts : SMap DigestCtx
  /-- Engines busy: engine number to channel. -/
  engines : SMap Nat
  lastContext : Nat
  nextOrder : Nat
  deriving DecidableEq, Repr

/-! ## DRAM and error records (chapter 15) -/

inductive ChState where
  | absent | training | active | failed
  deriving DecidableEq, Repr

/-- A tracked line or row (R439): channel, address, first count time, count, devices named. -/
structure Tracked where
  ch : Nat
  addr : Nat
  since : Nat
  count : Nat
  devices : List Nat
  deriving DecidableEq, Repr

structure DramSt where
  /-- Whether the DIMMs on the board obey R418, as Basecamp reads their SPDs; reset: they do (log 47). -/
  dimmsAlike : Bool
  /-- State of DC0 to DC15 (Table 15.9); reset: absent. -/
  chState : SMap ChState
  /-- Lines in memory marked poisoned (R332, R434). -/
  poisoned : SMap Unit
  /-- Lines whose stored codeword is not the clean one: raw data and check bytes (R443). -/
  raw : SMap (List Byte × List Byte)
  /-- Lines written in test mode (TEST). -/
  testLines : SMap Unit
  lines : List Tracked
  rows : List Tracked
  /-- First correction since the last write of a line already recorded (R433). -/
  noted : SMap Unit
  /-- Scrub positions (local address), key 0 to 17. -/
  scrubPos : SMap Nat
  /-- DIMM temperature per channel in hundredths, and channels at tREFI 1.95 us (R428). -/
  temps : SMap Int
  hot : List Nat
  hotAsked : List Nat
  /-- Refreshes issued per channel (R427). -/
  refreshes : SMap Nat
  /-- Mirroring in force since formation (R423). -/
  mirrored : Bool
  /-- Uncorrectable lines per channel within the window (R424): (channel, line, clock). -/
  uncorrectable : List (Nat × Nat × Nat)
  /-- Ranks that kept their contents in bivouac (R431). -/
  retained : List Nat
  /-- Channels without a partner that have lost four lines and have yet to fail (R424; log 71). -/
  failDue : List Nat
  /-- The speed of the channels in MT/s, 0 before they train (R419). -/
  speed : Nat
  deriving DecidableEq, Repr

/-- An error record (Table 15.5). -/
structure ErrRec where
  seq : Nat
  severity : Nat
  nested : Bool
  tenant : Option Nat
  source : Nat
  cause : Nat
  parent : Nat
  status : Nat
  routeId : Nat
  time : Nat
  address : Nat
  w4 : Nat
  syndrome : Nat
  flags : Nat
  count : Nat
  deriving DecidableEq, Repr

/-- When a record's handling closes (Table 15.6). -/
inductive Closing where
  | atReplay | atTenantReset (tenant : Nat) | atRetrain (p : Nat) | never
  deriving DecidableEq, Repr

structure ErrSt where
  nextSeq : Nat
  queue : List ErrRec
  latch : Option ErrRec
  views : SMap (List ErrRec)
  /-- Open handlings, oldest first. -/
  open_ : List (Nat × Closing)
  deriving DecidableEq, Repr

/-! ## Management and security (chapter 16) -/

/-- A session (R458, R459). Until it is established, `macKey` holds the ECDH shared secret. -/
structure Session where
  id : Nat
  src : BrixSrc
  established : Bool
  transcript : List Byte
  macKey : List Byte
  /-- SEQ of the next request, and the answer to the last one. -/
  expectSeq : Nat
  stored : Option (List Byte)
  deriving DecidableEq, Repr

/-- An out-of-session sequence context (R461): the last SEQ accepted and its answer. -/
structure SeqCtx where
  src : BrixSrc
  lastSeq : Nat
  stored : List Byte
  deriving DecidableEq, Repr

/-- An event not yet acknowledged (R467): SEQ, record, sends. -/
structure PendEvent where
  seq : Nat
  payload : List Byte
  sends : Nat
  deriving DecidableEq, Repr

/-- An SPDM responder (R466; log 53): the step its connection has reached (0 none, 1 versions, 2 capabilities, 3
algorithms), the version, and the messages that its signatures cover: of the set-up, of the certificate exchange, and of
the measurements. -/
structure SpdmSt where
  reached : Nat
  version : Nat
  setup : List Byte
  certs : List Byte
  measured : List Byte
  deriving DecidableEq, Repr

structure MgmtSt where
  sessions : List Session
  nextSession : Nat
  /-- Sequence contexts, the most recently used last. -/
  contexts : List SeqCtx
  /-- Failed set-ups per source: clocks; and sources refused. -/
  failures : List (BrixSrc × Nat)
  lockedOut : List BrixSrc
  events : List PendEvent
  eventSeq : Nat
  /-- Violation answers sent in the current second per transport (0 Ethernet, 1 SMBus, 2 mailbox): (second, count). -/
  violationBudget : SMap (Nat × Nat)
  /-- MEAS0 to MEAS7 (R471); reset: 48 zero bytes each. -/
  meas : List (List Byte)
  measExtend : List Byte
  /-- The running firmware's security version, boot slot, policy result. -/
  fwVersion : Nat
  bootSlot : Nat
  policyResult : Nat
  /-- The OTP generation active since the last device reset (R469). -/
  activeGen : Option Nat
  /-- SPDM responders (R466), per physical function (port × 4 + link). -/
  spdm : SMap SpdmSt
  deriving DecidableEq, Repr

/-- Power and thermal (chapter 17). -/
structure PowerSt where
  /-- Junction sensors in hundredths of a degree (R484). -/
  tj : List Int
  /-- Tj summed over samples since the last hourly save, and samples (R512). -/
  tjSum : Int
  tjSamples : Nat
  samplesAbove95 : Nat
  /-- Package power averaged over the last pitch in mW (O:0x7000.3). -/
  packageMw : Nat
  deriving DecidableEq, Repr

/-! ## The whole state -/

structure State where
  /-- Clocks of CCLK (0.5 ns) that have passed; the model's own time base. -/
  now : Nat
  /-- Free values used so far; the model's own field (no value of the spec rests on it). -/
  freeCount : Nat
  /-- Stored object members, key index × 256 + member; an unlisted member holds its reset value. -/
  objs : SMap ObjVal
  /-- Host-owned image memory of this device by slice offset. -/
  mem : Memory
  sys : SysSt
  flash : FlashSt
  pitch : PitchSt
  routes : List Route
  sched : SchedSt
  scn : SMap FilterMachine
  cairn : CairnSt
  summit : SummitSt
  depot : DepotSt
  strands : SMap StrandSt
  cache : CacheSt
  coh : CohSt
  link : LinkSt
  host : HostSt
  eng : EngSt
  dram : DramSt
  err : ErrSt
  mgmt : MgmtSt
  power : PowerSt
  /-- What has left the device, oldest first; the model's own field. -/
  out : List OutEv
  /-- The commands that wait, first in, first out. -/
  pending : List Instr
  deriving DecidableEq, Repr

/-! ## Reset -/

/-- An unburned OTP generation: every bit is 0 (R470). -/
def blankGeneration : List Byte := List.replicate 512 0

/-- Generation 0 as State.reset holds it: GEN_MARK, FORMAT 1, every setting zero, and the CRC-32C of bytes 0 to 507
(R468, Table 16.10). The settings burned at manufacture are a DESIGN CHOICE (log 6). -/
def baseGeneration : List Byte :=
  [0xA5, 0x01] ++ List.replicate 506 0 ++ [0xDA, 0xA6, 0x64, 0x25]

/-- A firmware slot as State.reset holds it: readable, version 0, five empty images (DESIGN CHOICE, log 6). -/
def FwSlot.reset : FwSlot := { readable := true, version := 0, images := List.replicate 5 [] }

/-- Flash and OTP contents of `State.reset`: a device as it leaves manufacture (R458, R468, R512); the values the spec
does not give are DESIGN CHOICES (log 6). -/
def FlashSt.reset : FlashSt :=
  { otp := baseGeneration :: List.replicate 3 blankGeneration
    slotA := FwSlot.reset
    slotB := FwSlot.reset
    ridgeMarks := [], strandMarks := [], remaps := [], marks := []
    poweredHours := 0, tjAverage := 0, minutesAbove95 := 0, powerCycles := 0 }

def SysSt.reset : SysSt :=
  { phase := .inReset, state := .configuration, deviceId := 0, deviceCount := 1
    formed := false, formedAt := 0, releasedAt := 0
    pwrgood := true, rstN := false, perst0 := false, perst1 := false
    tickOut := false, thermLow := false, fanDuty := 300000, highZ := false
    ridgeMap := List.range 16, spareRidge := some 16, spareGiven := none, fencedPaths := []
    strandMap := List.replicate 17 (List.range 8)
    retireAsked := [], retired := [], bivouacArmed := none, heldCauses := 0, exiting := false
    bootRetreat := false, crnOff := false }

def PitchSt.reset : PitchSt :=
  { running := false, number := 0, lastTick := 0, expected := 0, cutoffDone := false
    decisionDone := false, mode := .internal, master := 0, tickInStarted := false, misses := 0
    goodEdges := 0, fallback := false, lastEdge := 0, correction := 0, coolTicks := 0 }

def SchedSt.reset : SchedSt :=
  { ready := [], running := [], ptr := [], credit := [], railsHeld := [], nextOrder := 0
    weightAsked := [], weight := [], dicts := [], rereads := [], held := [] }

def CairnSt.reset : CairnSt := { banks := [], tables := [], shadows := [], lastScn := [], listAt := [] }

def SummitSt.reset : SummitSt := { slots := [], holding := [], closes := [], ports := [] }

def DepotSt.reset : DepotSt :=
  { region := 64, granted := [], objects := [], pages := [], nextPage := 0, zeroQueue := [], spills := [], migrations := []
    access := [], retiredPages := [], journal := [], jseq := 0, stalled := [], drawn := []
    lent := [], held := [], pageAsks := [] }

def CacheSt.reset : CacheSt :=
  { l2 := [], l1d := [], l1i := [], plru := [], slc := [], states := [], parts := []
    windows := [], touch := 0, cmoBusy := false }

def CohSt.reset : CohSt :=
  { dir := [], remote := [], open_ := [], queued := [], arrived := [], tokens := [], nextToken := 0, portPtr := []
    requests := [], wbBuf := [], applied := [], nextTxn := 0, nextTracker := 0, readBuf := [], fencedL2 := [], heldSnoops := [], dead := [], lastBeat := []
    seenBeat := [], retreated := [], beats := 0, silent := false }

def PortSt.reset : PortSt :=
  { mode := .down, rate := 0, width := 0, lanes := 0, neighbour := 0, latency := 0, nextSeq := 0
    ackedTo := 0, unacked := [], resends := 0, expectSeq := 0, nakDue := false, partialSlots := []
    credSeen := Vector.replicate 9 0, credits := Vector.replicate 9 0
    credUsed := Vector.replicate 9 0, credFreed := Vector.replicate 9 0, laneErrors := []
    linkViolations := [], retrainTimes := [], probes := 0, probeBest := none, probeOut := 0
    waiting := [], txMsg := none, txRest := [], reportAt := 0, owes := false, lostSeq := none, locked := false, fecRun := 0
    triedOl1 := false }

def LinkSt.reset : LinkSt :=
  { p0 := PortSt.reset, p1 := PortSt.reset, p2 := PortSt.reset, p3 := PortSt.reset, seen := []
    asked := [], outbound := [], nextOut := 0, owed := [], copies := [], inbound := [] }

def HostSt.reset : HostSt :=
  { fns := [], wqs := [], cqs := [], mem := [], errors := [], fetched := [], lastIo := 0
    nextQueueNo := 0, logs := [], logAsked := [], perstEarly := [], linksUp := []
    trained := [], fixed := [], numVfs := [], hdmBase := 0, logHeld := []
    bivouacNoted := false }

def EngSt.reset : EngSt :=
  { chans := [], contexts := [], engines := [], lastContext := 0, nextOrder := 0 }

def DramSt.reset : DramSt :=
  { dimmsAlike := true, chState := [], poisoned := [], raw := [], testLines := [], lines := [], rows := [], noted := []
    scrubPos := [], temps := [], hot := [], hotAsked := [], refreshes := [], mirrored := false
    uncorrectable := [], retained := [], failDue := [], speed := 0 }

def ErrSt.reset : ErrSt := { nextSeq := 0, queue := [], latch := none, views := [], open_ := [] }

def zeroDigest : List Byte := List.replicate 48 0

def MgmtSt.reset : MgmtSt :=
  { sessions := [], nextSession := 1, contexts := [], failures := [], lockedOut := [], events := []
    eventSeq := 0, violationBudget := [], meas := List.replicate 8 zeroDigest, measExtend := []
    fwVersion := 0, bootSlot := 0, policyResult := 0, activeGen := none, spdm := [] }

def PowerSt.reset : PowerSt :=
  { tj := List.replicate 22 2500, tjSum := 0, tjSamples := 0, samplesAbove95 := 0, packageMw := 0 }

/-- An idle strand and the state a task's registers start from (R249, R271, R277). -/
def StrandSt.idle : StrandSt :=
  { task := none, pc := 0x4000000000000000#64, g := Vector.replicate 32 0#64
    v := Vector.replicate 32 0#512, p := (Vector.replicate 8 0#256).set 0 (BitVec.allOnes 256)
    vlGroup := 0, vlSew := 3, vlLen := 0, ffr := BitVec.allOnes 256, trap := false, pt := false
    tvec := 0, epc := 0, cause := 0, tval := 0, fpctl := 0, bpctl := 3#64, evtsel := 0, cycle := 0
    instret := 0, wpfetch := 0, wpload := 0, evt := Vector.replicate 4 0, queue := [], itt := []
    path := 0, lastRoute := none, itlb := [], dtlb := [], waitLine := none }

/-- The MSI-X table at reset: every vector's mask bit is 1, as PCI Express has it (PRESUMED, log 12). -/
def msixTableReset : Memory := (List.range 64).map (fun v => (16 * v + 12, (1 : BitVec 8)))

/-- Function registers at their reset values (Table 13.4). -/
def FnSt.reset : FnSt :=
  { awqBase := 0, acqBase := 0, aqSizes := 0, awqIndex := 0, acqIndex := 0, enable := false
    adminError := false, resetting := none, resetDone := false, resetTick := 0, mbRequest := []
    mbResponse := [], mbDone := false, mbBusy := false, msixTable := msixTableReset, msixPending := [] }

/-- The machine right after reset: RST_N is low, every register is at its reset value, memory lists
nothing, no queue exists and no command waits. -/
def State.reset : State :=
  { now := 0, freeCount := 0, objs := [], mem := [], sys := SysSt.reset, flash := FlashSt.reset
    pitch := PitchSt.reset, routes := [], sched := SchedSt.reset, scn := [], cairn := CairnSt.reset
    summit := SummitSt.reset, depot := DepotSt.reset, strands := [], cache := CacheSt.reset
    coh := CohSt.reset, link := LinkSt.reset, host := HostSt.reset, eng := EngSt.reset
    dram := DramSt.reset, err := ErrSt.reset, mgmt := MgmtSt.reset, power := PowerSt.reset
    out := [], pending := [] }

end Sys2Proof.Machine
end

