-- ==== Sys2Proof/Machine/Objects.lean ====
section
/-! DEFINITION. The object dictionary: the members every chapter's object table gives, with type, access code,
range and reset value, and how a stored member is read and written (R8, R13, R453). -/
namespace Sys2Proof.Machine

/-- Member types (Table 16.1). -/
inductive OTy where
  | bool | u8 | u16 | u32 | u64 | i32 | str32 | blob
  deriving DecidableEq, Repr

/-- Access codes (Table 00.2). -/
inductive Acc where
  | ro | rw | rwc | wo | rws | otp
  deriving DecidableEq, Repr

/-- A member of the dictionary: index of copy 0, distance between copies, copies, first member number and
how many members alike, name, type, access, range where narrower than the type, and reset value by copy. -/
structure ObjRow where
  idx : Nat
  stride : Nat
  copies : Nat
  mem : Nat
  mcount : Nat
  name : String
  ty : OTy
  acc : Acc
  range : Option (Int × Int)
  reset : Nat → ObjVal

/-- Members of the object tables, part 0. -/
def objTable0 : List ObjRow :=
  [⟨0x1000, 0x0, 1, 1, 1, "VENDOR", .str32, .ro, none, fun _ => .blob (str32 "Lualvasen")⟩,
   ⟨0x1000, 0x0, 1, 2, 1, "PART", .str32, .ro, none, fun _ => .blob (str32 "LVQ-880")⟩,
   ⟨0x1000, 0x0, 1, 3, 1, "SERIAL", .str32, .ro, none, fun _ => .blob (zeros 32)⟩,
   ⟨0x1000, 0x0, 1, 4, 1, "SILICON_REV", .u8, .ro, none, fun _ => .num 0⟩,
   ⟨0x1000, 0x0, 1, 5, 1, "FW_VERSION", .u32, .ro, none, fun _ => .num 0⟩,
   ⟨0x1000, 0x0, 1, 6, 1, "OBJECT_COUNT", .u16, .ro, none, fun _ => .num 1236⟩,
   ⟨0x1000, 0x0, 1, 7, 1, "BRIX_VERSIONS", .u8, .ro, none, fun _ => .num 0x03⟩,
   ⟨0x1010, 0x0, 1, 1, 1, "STATE", .u8, .ro, none, fun _ => .num 0⟩,
   ⟨0x1010, 0x0, 1, 2, 1, "STATE_REQUEST", .u8, .rws, none, fun _ => .num 0⟩,
   ⟨0x2000, 0x0, 1, 1, 1, "PITCH_PERIOD", .u16, .rwc, some (16, 4096), fun _ => .num 128⟩,
   ⟨0x2000, 0x0, 1, 2, 1, "BELAY_WINDOW", .u8, .rwc, some (2, 64), fun _ => .num 8⟩,
   ⟨0x2000, 0x0, 1, 3, 1, "ACK_MARGIN", .u8, .rwc, some (1, 8), fun _ => .num 2⟩,
   ⟨0x2000, 0x0, 1, 4, 1, "EXTENSION_LIMIT", .u8, .rw, some (1, 255), fun _ => .num 16⟩,
   ⟨0x2001, 0x0, 1, 1, 1, "TICK_SOURCE", .u8, .rwc, some (0, 3), fun _ => .num 0⟩,
   ⟨0x2001, 0x0, 1, 2, 1, "TICK_MASTER", .u8, .ro, none, fun _ => .num 0⟩,
   ⟨0x2001, 0x0, 1, 3, 1, "PITCH_NUMBER", .u64, .ro, none, fun _ => .num 0⟩,
   ⟨0x2001, 0x0, 1, 4, 1, "TICK_OFFSET", .i32, .ro, none, fun _ => .num 0⟩,
   ⟨0x2001, 0x0, 1, 5, 1, "TICK_OUT_EN", .bool, .rw, none, fun _ => .num 0⟩,
   ⟨0x2001, 0x0, 1, 6, 1, "TICK_IN_EVENTS", .u32, .ro, none, fun _ => .num 0⟩,
   ⟨0x2002, 0x0, 1, 1, 1, "JOURNAL_SIZE", .u32, .rwc, some (256, 8192), fun _ => .num 2048⟩,
   ⟨0x2002, 0x0, 1, 2, 1, "JOURNAL_USED", .u64, .ro, none, fun _ => .num 0⟩,
   ⟨0x2002, 0x0, 1, 3, 1, "JOURNAL_STALLS", .u64, .ro, none, fun _ => .num 0⟩,
   ⟨0x2003, 0x0, 1, 1, 1, "OVERRUNS", .u64, .ro, none, fun _ => .num 0⟩,
   ⟨0x2003, 0x0, 1, 2, 1, "FAULT_REPLAYS", .u64, .ro, none, fun _ => .num 0⟩]

/-- Members of the object tables, part 1. -/
def objTable1 : List ObjRow :=
  [⟨0x2003, 0x0, 1, 3, 1, "OVERRUN_REPLAYS", .u64, .ro, none, fun _ => .num 0⟩,
   ⟨0x2003, 0x0, 1, 4, 1, "PITCH_TIMEOUTS", .u32, .ro, none, fun _ => .num 0⟩,
   ⟨0x2004, 0x0, 1, 1, 1, "WQ_STALL_LIMIT", .u32, .rw, some (10, 1000000), fun _ => .num 1000⟩,
   ⟨0x2004, 0x0, 1, 2, 1, "SLOTS_USED", .u16, .ro, none, fun _ => .num 0⟩,
   ⟨0x2004, 0x0, 1, 3, 1, "STALL_CLOCKS", .u64, .ro, none, fun _ => .num 0⟩,
   ⟨0x2004, 0x0, 1, 4, 1, "FETCH_PAUSES", .u64, .ro, none, fun _ => .num 0⟩,
   ⟨0x3010, 0x0, 1, 1, 1, "SKIP_VERIFY", .bool, .rw, none, fun _ => .num 0⟩,
   ⟨0x3010, 0x0, 1, 2, 1, "BLOCKS_READ", .u64, .ro, none, fun _ => .num 0⟩,
   ⟨0x3010, 0x0, 1, 3, 1, "BLOCKS_SKIPPED", .u64, .ro, none, fun _ => .num 0⟩,
   ⟨0x3010, 0x0, 1, 4, 1, "CRC_RETRIES", .u64, .ro, none, fun _ => .num 0⟩,
   ⟨0x3010, 0x0, 1, 5, 1, "BLOCK_FAULTS", .u64, .ro, none, fun _ => .num 0⟩,
   ⟨0x3010, 0x0, 1, 6, 1, "INFLATED_BYTES", .u64, .ro, none, fun _ => .num 0⟩,
   ⟨0x3010, 0x0, 1, 7, 1, "CAIRN_WAITS", .u64, .ro, none, fun _ => .num 0⟩,
   ⟨0x3020, 0x0, 1, 1, 1, "BUILD_RECORDS", .u64, .ro, none, fun _ => .num 0⟩,
   ⟨0x3020, 0x0, 1, 2, 1, "PROBE_ROWS", .u64, .ro, none, fun _ => .num 0⟩,
   ⟨0x3020, 0x0, 1, 3, 1, "CAM_BUILDS", .u64, .ro, none, fun _ => .num 0⟩,
   ⟨0x3020, 0x0, 1, 4, 1, "CAM_FALLBACKS", .u64, .ro, none, fun _ => .num 0⟩,
   ⟨0x3030, 0x0, 1, 1, 1, "SCRUB_PERIOD", .u16, .rw, some (1, 1000), fun _ => .num 10⟩,
   ⟨0x3030, 0x0, 1, 2, 1, "FALSE_HITS", .u64, .ro, none, fun _ => .num 0⟩,
   ⟨0x3030, 0x0, 1, 3, 1, "PARITY_REPAIRS", .u64, .ro, none, fun _ => .num 0⟩,
   ⟨0x3030, 0x0, 1, 4, 1, "SCRUB_REPAIRS", .u64, .ro, none, fun _ => .num 0⟩,
   ⟨0x3030, 0x0, 1, 5, 1, "REISSUES", .u64, .ro, none, fun _ => .num 0⟩,
   ⟨0x3040, 0x0, 1, 1, 1, "ROWS_FOLDED", .u64, .ro, none, fun _ => .num 0⟩,
   ⟨0x3040, 0x0, 1, 2, 1, "TABLE_GROWTHS", .u64, .ro, none, fun _ => .num 0⟩]

/-- Members of the object tables, part 2. -/
def objTable2 : List ObjRow :=
  [⟨0x3040, 0x0, 1, 3, 1, "GROUPS_RELEASED", .u64, .ro, none, fun _ => .num 0⟩,
   ⟨0x3050, 0x0, 1, 1, 1, "RUNS_WRITTEN", .u64, .ro, none, fun _ => .num 0⟩,
   ⟨0x3050, 0x0, 1, 2, 1, "MERGE_PASSES", .u64, .ro, none, fun _ => .num 0⟩,
   ⟨0x3050, 0x0, 1, 3, 1, "FULL_COMPARES", .u64, .ro, none, fun _ => .num 0⟩,
   ⟨0x3060, 0x0, 1, 1, 1, "OPEN_ROUTES", .u16, .ro, none, fun _ => .num 0⟩,
   ⟨0x3060, 0x0, 1, 2, 1, "PITCH_MERGES", .u64, .ro, none, fun _ => .num 0⟩,
   ⟨0x3060, 0x0, 1, 3, 1, "HELD_ENTRIES", .u64, .ro, none, fun _ => .num 0⟩,
   ⟨0x3060, 0x0, 1, 4, 1, "PUBLICATIONS", .u64, .ro, none, fun _ => .num 0⟩,
   ⟨0x3060, 0x0, 1, 5, 1, "PUBLISHED_BYTES", .u64, .ro, none, fun _ => .num 0⟩,
   ⟨0x3070, 0x0, 1, 1, 1, "STRAND_TASKS", .u64, .ro, none, fun _ => .num 0⟩,
   ⟨0x3070, 0x0, 1, 2, 1, "TRAPS_DELIVERED", .u64, .ro, none, fun _ => .num 0⟩,
   ⟨0x3070, 0x0, 1, 3, 1, "STRAND_ENDS", .u64, .ro, none, fun _ => .num 0⟩,
   ⟨0x3080, 0x0, 1, 1, 1, "SLC_ENABLE", .u8, .rw, none, fun _ => .num 0x0F⟩,
   ⟨0x3080, 0x0, 1, 2, 1, "SLC_STATE", .u8, .ro, none, fun _ => .num 0⟩,
   ⟨0x3080, 0x0, 1, 3, 1, "CLEAN_LIMIT", .u8, .rw, some (25, 100), fun _ => .num 75⟩,
   ⟨0x3080, 0x0, 1, 4, 1, "SLC_DECLINES", .u64, .ro, none, fun _ => .num 0⟩,
   ⟨0x3080, 0x0, 1, 5, 1, "SLC_CORRECTED", .u64, .ro, none, fun _ => .num 0⟩,
   ⟨0x3080, 0x0, 1, 6, 1, "SLC_FENCED", .u16, .ro, none, fun _ => .num 0⟩,
   ⟨0x3081, 0x0, 1, 1, 1, "STREAM_ON", .u8, .rw, some (2, 64), fun _ => .num 8⟩,
   ⟨0x3081, 0x0, 1, 2, 1, "STREAM_OFF", .u16, .rw, some (1, 1024), fun _ => .num 64⟩,
   ⟨0x3090, 0x0, 1, 1, 1, "DMA_BYTES", .u64, .ro, none, fun _ => .num 0⟩,
   ⟨0x3090, 0x0, 1, 2, 1, "CHANNEL_HALTS", .u64, .ro, none, fun _ => .num 0⟩,
   ⟨0x3090, 0x0, 1, 3, 1, "COMPRESS_IN", .u64, .ro, none, fun _ => .num 0⟩,
   ⟨0x3090, 0x0, 1, 4, 1, "COMPRESS_OUT", .u64, .ro, none, fun _ => .num 0⟩]

/-- Members of the object tables, part 3. -/
def objTable3 : List ObjRow :=
  [⟨0x3090, 0x0, 1, 5, 1, "RAW_STORED", .u64, .ro, none, fun _ => .num 0⟩,
   ⟨0x3090, 0x0, 1, 6, 1, "INFLATE_LIMITS", .u64, .ro, none, fun _ => .num 0⟩,
   ⟨0x3090, 0x0, 1, 7, 1, "DIGEST_BYTES", .u64, .ro, none, fun _ => .num 0⟩,
   ⟨0x3090, 0x0, 1, 8, 1, "CONTEXTS_USED", .u8, .ro, none, fun _ => .num 0⟩,
   ⟨0x3091, 0x0, 1, 1, 64, "CHANNEL_STATE", .u16, .ro, none, fun _ => .num 0⟩,
   ⟨0x3092, 0x0, 1, 1, 64, "CHANNEL_FAULT", .u64, .ro, none, fun _ => .num 0⟩,
   ⟨0x4000, 0x0, 1, 1, 1, "REGION_SIZE", .u32, .rwc, none, fun _ => .num 64⟩,
   ⟨0x4000, 0x0, 1, 2, 1, "TIER0_POOL", .u64, .ro, none, fun _ => .num 0⟩,
   ⟨0x4000, 0x0, 1, 3, 1, "TIER0_FREE", .u64, .ro, none, fun _ => .num 0⟩,
   ⟨0x4000, 0x0, 1, 4, 1, "REGION_FREE", .u64, .ro, none, fun _ => .num 0⟩,
   ⟨0x4000, 0x0, 1, 5, 1, "MAP_USED", .u32, .ro, none, fun _ => .num 0⟩,
   ⟨0x4000, 0x0, 1, 6, 1, "SUSPEND_LIMIT", .u32, .rw, some (1, 4294967295), fun _ => .num 65536⟩,
   ⟨0x4000, 0x0, 1, 7, 1, "RETAIN_RANKS", .u64, .rw, none, fun _ => .num 0x1111111111111111⟩,
   ⟨0x4001, 0x0, 1, 1, 1, "PROMOTE_THRESHOLD", .u16, .rw, some (1, 65535), fun _ => .num 256⟩,
   ⟨0x4001, 0x0, 1, 2, 1, "DEMOTE_THRESHOLD", .u16, .rw, some (0, 65535), fun _ => .num 16⟩,
   ⟨0x4001, 0x0, 1, 3, 1, "TIER0_LOW_WATER", .u8, .rw, some (0, 50), fun _ => .num 5⟩,
   ⟨0x4001, 0x0, 1, 4, 1, "MIGRATE_BUDGET", .u16, .rw, some (0, 512), fun _ => .num 64⟩,
   ⟨0x4001, 0x0, 1, 5, 1, "MIGRATE_EN", .bool, .rw, none, fun _ => .num 1⟩,
   ⟨0x4002, 0x0, 1, 1, 1, "PROMOTIONS", .u64, .ro, none, fun _ => .num 0⟩,
   ⟨0x4002, 0x0, 1, 2, 1, "DEMOTIONS", .u64, .ro, none, fun _ => .num 0⟩,
   ⟨0x4002, 0x0, 1, 3, 1, "MIGRATIONS_ABANDONED", .u64, .ro, none, fun _ => .num 0⟩,
   ⟨0x4002, 0x0, 1, 4, 1, "SPILL_PAGES", .u64, .ro, none, fun _ => .num 0⟩,
   ⟨0x4002, 0x0, 1, 5, 1, "SUSPENSIONS", .u64, .ro, none, fun _ => .num 0⟩,
   ⟨0x4002, 0x0, 1, 6, 1, "ZERO_WAITS", .u64, .ro, none, fun _ => .num 0⟩]

/-- Members of the object tables, part 4. -/
def objTable4 : List ObjRow :=
  [⟨0x5000, 0x0, 1, 1, 1, "INSTALLED_BYTES", .u64, .ro, none, fun _ => .num 0x8001000000⟩,
   ⟨0x5000, 0x0, 1, 2, 1, "POPULATED_BYTES", .u64, .ro, none, fun _ => .num 0x8000000000⟩,
   ⟨0x5000, 0x0, 1, 3, 1, "MIRROR_EN", .bool, .rwc, none, fun _ => .num 0⟩,
   ⟨0x5000, 0x0, 1, 4, 1, "SPEED_MAX", .u16, .rwc, some (4800, 6400), fun _ => .num 6400⟩,
   ⟨0x5000, 0x0, 1, 5, 1, "DDR_STATE", .u8, .ro, none, fun _ => .num 0⟩,
   ⟨0x5000, 0x0, 1, 6, 1, "SCRUB_PASS_HOURS", .u16, .rw, some (1, 720), fun _ => .num 24⟩,
   ⟨0x5000, 0x0, 1, 7, 1, "FAULT_WINDOW", .u32, .rw, some (60, 2592000), fun _ => .num 86400⟩,
   ⟨0x5000, 0x0, 1, 8, 1, "ADDR_THRESHOLD", .u8, .rw, some (2, 255), fun _ => .num 3⟩,
   ⟨0x5000, 0x0, 1, 9, 1, "ROW_THRESHOLD", .u8, .rw, some (2, 255), fun _ => .num 16⟩,
   ⟨0x5000, 0x0, 1, 10, 1, "PANIC_LEVEL_0", .u8, .rw, some (9, 64), fun _ => .num 48⟩,
   ⟨0x5000, 0x0, 1, 11, 1, "PANIC_LEVEL_1", .u8, .rw, some (9, 64), fun _ => .num 48⟩,
   ⟨0x5000, 0x0, 1, 12, 1, "PANIC_LEVEL_2", .u8, .rw, some (9, 64), fun _ => .num 48⟩,
   ⟨0x5000, 0x0, 1, 13, 1, "PANIC_LEVEL_3", .u8, .rw, some (9, 64), fun _ => .num 48⟩,
   ⟨0x5010, 0x10, 16, 1, 1, "CHANNEL_STATE", .u8, .ro, none, fun _ => .num 0⟩,
   ⟨0x5010, 0x10, 16, 2, 1, "CORRECTED", .u64, .ro, none, fun _ => .num 0⟩,
   ⟨0x5010, 0x10, 16, 3, 1, "UNCORRECTABLE", .u64, .ro, none, fun _ => .num 0⟩,
   ⟨0x5010, 0x10, 16, 4, 1, "REMAP_USED", .u8, .ro, none, fun _ => .num 0⟩,
   ⟨0x5010, 0x10, 16, 5, 1, "MARKS", .u64, .ro, none, fun _ => .num 0⟩,
   ⟨0x5010, 0x10, 16, 6, 1, "PANICS", .u64, .ro, none, fun _ => .num 0⟩,
   ⟨0x5010, 0x10, 16, 7, 1, "SCRUB_POSITION", .u64, .ro, none, fun _ => .num 0⟩,
   ⟨0x15100, 0x10, 2, 1, 1, "HBM_counters_0", .u64, .ro, none, fun _ => .num 0⟩,
   ⟨0x15100, 0x10, 2, 2, 1, "HBM_counters_1", .u64, .ro, none, fun _ => .num 0⟩,
   ⟨0x15100, 0x10, 2, 3, 1, "HBM_counters_2", .u64, .ro, none, fun _ => .num 0⟩,
   ⟨0x15100, 0x10, 2, 4, 1, "HBM_counters_3", .u64, .ro, none, fun _ => .num 0⟩]

/-- Members of the object tables, part 5. -/
def objTable5 : List ObjRow :=
  [⟨0x15100, 0x10, 2, 5, 1, "PAGES_RETIRED", .u32, .ro, none, fun _ => .num 0⟩,
   ⟨0x5200, 0x0, 1, 1, 1, "QUEUE_COUNT", .u8, .ro, none, fun _ => .num 0⟩,
   ⟨0x5200, 0x0, 1, 2, 1, "NEXT_RECORD", .blob, .ro, none, fun _ => .blob []⟩,
   ⟨0x5200, 0x0, 1, 3, 1, "OVERFLOWS", .u32, .ro, none, fun _ => .num 0⟩,
   ⟨0x5200, 0x0, 1, 4, 1, "FATAL_LATCH", .blob, .ro, none, fun _ => .blob []⟩,
   ⟨0x6000, 0x0, 1, 1, 1, "RATE_MAX", .u8, .rwc, some (0, 1), fun _ => .num 1⟩,
   ⟨0x6000, 0x0, 1, 2, 1, "VIOLATION_WINDOW", .u32, .rw, some (1, 1000000), fun _ => .num 1000⟩,
   ⟨0x6000, 0x0, 1, 3, 1, "LANE_ERROR_LIMIT", .u32, .rw, some (1, 1000000), fun _ => .num 1000⟩,
   ⟨0x6010, 0x10, 4, 1, 1, "STATE", .u8, .ro, none, fun _ => .num 0⟩,
   ⟨0x6010, 0x10, 4, 2, 1, "RATE", .u8, .ro, none, fun _ => .num 0⟩,
   ⟨0x6010, 0x10, 4, 3, 1, "WIDTH", .u8, .ro, none, fun _ => .num 0⟩,
   ⟨0x6010, 0x10, 4, 4, 1, "LANES", .u16, .ro, none, fun _ => .num 0⟩,
   ⟨0x6010, 0x10, 4, 5, 1, "NEIGHBOUR", .u8, .ro, none, fun _ => .num 0⟩,
   ⟨0x6010, 0x10, 4, 6, 1, "PATH_LATENCY", .u32, .ro, none, fun _ => .num 0⟩,
   ⟨0x6010, 0x10, 4, 7, 1, "FEC_CORRECTED", .u64, .ro, none, fun _ => .num 0⟩,
   ⟨0x6010, 0x10, 4, 8, 1, "REPLAYS", .u64, .ro, none, fun _ => .num 0⟩,
   ⟨0x6010, 0x10, 4, 9, 1, "VIOLATIONS", .u64, .ro, none, fun _ => .num 0⟩,
   ⟨0x6010, 0x10, 4, 10, 1, "RETRAINS", .u32, .ro, none, fun _ => .num 0⟩,
   ⟨0x6010, 0x10, 4, 11, 1, "FAILOVERS", .u32, .ro, none, fun _ => .num 0⟩,
   ⟨0x6010, 0x10, 4, 12, 1, "NAKS_RECEIVED", .u64, .ro, none, fun _ => .num 0⟩,
   ⟨0x6010, 0x10, 4, 13, 1, "RETRAIN_CMD", .bool, .wo, none, fun _ => .num 0⟩,
   ⟨0x6080, 0x10, 2, 1, 1, "BIFURCATION", .u8, .rwc, some (0, 2), fun _ => .num 0⟩,
   ⟨0x6080, 0x10, 2, 2, 1, "GEN_MAX", .u8, .rwc, some (3, 6), fun _ => .num 6⟩,
   ⟨0x6080, 0x10, 2, 3, 1, "CXL_ALLOW", .bool, .rwc, none, fun n => .num (if n = 0 then 1 else 0)⟩]

/-- Members of the object tables, part 6. -/
def objTable6 : List ObjRow :=
  [⟨0x6080, 0x10, 2, 4, 1, "LINK_STATE", .u32, .ro, none, fun _ => .num 0⟩,
   ⟨0x6080, 0x10, 2, 5, 1, "VIOLATIONS", .u64, .ro, none, fun _ => .num 0⟩,
   ⟨0x6080, 0x10, 2, 6, 1, "TOTAL_VFS_0", .u8, .rwc, none, fun _ => .num 15⟩,
   ⟨0x6080, 0x10, 2, 7, 1, "TOTAL_VFS_1", .u8, .rwc, none, fun _ => .num 0⟩,
   ⟨0x6080, 0x10, 2, 8, 1, "TOTAL_VFS_2", .u8, .rwc, none, fun _ => .num 0⟩,
   ⟨0x6080, 0x10, 2, 9, 1, "TOTAL_VFS_3", .u8, .rwc, none, fun _ => .num 0⟩,
   ⟨0x60A0, 0x0, 1, 1, 1, "MGMT_ENABLE", .bool, .rwc, none, fun _ => .num 1⟩,
   ⟨0x60A0, 0x0, 1, 2, 1, "IPV4_ADDR", .u32, .rws, none, fun _ => .num 0⟩,
   ⟨0x60A0, 0x0, 1, 3, 1, "IPV4_PREFIX", .u8, .rws, some (8, 30), fun _ => .num 24⟩,
   ⟨0x60A0, 0x0, 1, 4, 1, "IPV4_GATEWAY", .u32, .rws, none, fun _ => .num 0⟩,
   ⟨0x60A0, 0x0, 1, 5, 1, "UDP_PORT", .u16, .rws, some (1024, 65535), fun _ => .num 4417⟩,
   ⟨0x60A0, 0x0, 1, 6, 1, "EVENT_DEST", .blob, .rws, none, fun _ => .blob []⟩,
   ⟨0x60A0, 0x0, 1, 7, 1, "SMBUS_ADDR", .u8, .rwc, some (8, 119), fun _ => .num 0x5C⟩,
   ⟨0x60A0, 0x0, 1, 8, 1, "VIOLATIONS", .u64, .ro, none, fun _ => .num 0⟩,
   ⟨0x60A0, 0x0, 1, 9, 1, "AUTH_FAILURES", .u64, .ro, none, fun _ => .num 0⟩,
   ⟨0x60A0, 0x0, 1, 10, 1, "MAC_ADDR", .blob, .ro, none, fun _ => .blob (zeros 6)⟩,
   ⟨0x60A0, 0x0, 1, 11, 1, "IPV6_ADDR", .blob, .rws, none, fun _ => .blob []⟩,
   ⟨0x6100, 0x0, 1, 1, 1, "HEARTBEAT_PERIOD", .u16, .rwc, some (10, 1000), fun _ => .num 100⟩,
   ⟨0x6100, 0x0, 1, 2, 1, "HEARTBEAT_TIMEOUT", .u32, .rwc, some (100, 100000), fun _ => .num 1000⟩,
   ⟨0x6100, 0x0, 1, 3, 1, "DATA_SOURCE", .u8, .ro, none, fun _ => .num 0⟩,
   ⟨0x6100, 0x0, 1, 4, 1, "RETRIES", .u64, .ro, none, fun _ => .num 0⟩,
   ⟨0x6100, 0x0, 1, 5, 1, "PENDING_QUEUED", .u64, .ro, none, fun _ => .num 0⟩,
   ⟨0x6100, 0x0, 1, 6, 1, "BACK_INVALIDATIONS", .u64, .ro, none, fun _ => .num 0⟩,
   ⟨0x6100, 0x0, 1, 7, 1, "DUPLICATES_DROPPED", .u64, .ro, none, fun _ => .num 0⟩]

/-- Members of the object tables, part 7. -/
def objTable7 : List ObjRow :=
  [⟨0x6100, 0x0, 1, 8, 1, "DEAD_AGENTS", .u32, .ro, none, fun _ => .num 0⟩,
   ⟨0x6100, 0x0, 1, 9, 1, "LINES_POISONED", .u64, .ro, none, fun _ => .num 0⟩,
   ⟨0x6100, 0x0, 1, 10, 1, "MESSAGES_DROPPED", .u64, .ro, none, fun _ => .num 0⟩,
   ⟨0x6100, 0x0, 1, 11, 1, "DIR_ENTRIES_USED", .u32, .ro, none, fun _ => .num 0⟩,
   ⟨0x7000, 0x0, 1, 1, 1, "POWER_LIMIT", .u16, .rw, some (120, 240), fun _ => .num 240⟩,
   ⟨0x7000, 0x0, 1, 2, 1, "POWER_STEP", .u8, .ro, none, fun _ => .num 8⟩,
   ⟨0x7000, 0x0, 1, 3, 1, "PACKAGE_POWER", .u32, .ro, none, fun _ => .num 0⟩,
   ⟨0x7000, 0x0, 1, 4, 1, "TJ_NOW", .i32, .ro, none, fun _ => .num 2500⟩,
   ⟨0x7000, 0x0, 1, 5, 1, "THROTTLE_TEMP", .u8, .rw, some (85, 100), fun _ => .num 95⟩,
   ⟨0x7000, 0x0, 1, 6, 1, "FAN_MIN_DUTY", .u8, .rw, some (0, 100), fun _ => .num 30⟩,
   ⟨0x7000, 0x0, 1, 7, 1, "CURRENT_DELAYS", .u64, .ro, none, fun _ => .num 0⟩,
   ⟨0x7000, 0x0, 1, 8, 1, "DOMAIN_ON", .u64, .ro, none, fun _ => .num 0⟩,
   ⟨0x7000, 0x0, 1, 9, 1, "AUTO_FORM", .bool, .rwc, none, fun _ => .num 1⟩,
   ⟨0x7000, 0x0, 1, 10, 1, "DEVICE_RESET", .bool, .rws, none, fun _ => .num 0⟩,
   ⟨0x7000, 0x0, 1, 11, 1, "BIVOUAC_AT", .u64, .rws, none, fun _ => .num 0⟩,
   ⟨0x7000, 0x0, 1, 12, 1, "THROTTLE_TICKS", .u64, .ro, none, fun _ => .num 0⟩,
   ⟨0x7000, 0x0, 1, 13, 1, "ALERTS", .u32, .ro, none, fun _ => .num 0⟩,
   ⟨0x7010, 0x0, 1, 1, 1, "RETREAT_CAUSE", .u8, .ro, none, fun _ => .num 0⟩,
   ⟨0x7010, 0x0, 1, 2, 1, "RETREAT_ENTRIES", .u32, .ro, none, fun _ => .num 0⟩,
   ⟨0x7020, 0x0, 1, 1, 1, "POWERED_HOURS", .u32, .ro, none, fun _ => .num 0⟩,
   ⟨0x7020, 0x0, 1, 2, 1, "TJ_AVERAGE", .i32, .ro, none, fun _ => .num 0⟩,
   ⟨0x7020, 0x0, 1, 3, 1, "HOURS_ABOVE_95", .u32, .ro, none, fun _ => .num 0⟩,
   ⟨0x7020, 0x0, 1, 4, 1, "POWER_CYCLES", .u32, .ro, none, fun _ => .num 0⟩,
   ⟨0x8000, 0x0, 1, 1, 1, "SESSIONS_OPEN", .u8, .ro, none, fun _ => .num 0⟩]

/-- Members of the object tables, part 8. -/
def objTable8 : List ObjRow :=
  [⟨0x8000, 0x0, 1, 2, 1, "SESSION_IDLE", .u32, .rws, some (10, 86400), fun _ => .num 300⟩,
   ⟨0x8000, 0x0, 1, 3, 1, "MAILBOX_ADMIN", .u32, .rws, none, fun _ => .num 0x00000001⟩,
   ⟨0x8010, 0x0, 1, 1, 1, "ACTIVE_GEN", .u8, .ro, none, fun _ => .num 0⟩,
   ⟨0x8010, 0x0, 1, 2, 1, "GENS_FREE", .u8, .ro, none, fun _ => .num 0⟩,
   ⟨0x8010, 0x0, 1, 3, 1, "POLICY", .u16, .otp, none, fun _ => .num 0⟩,
   ⟨0x8010, 0x0, 1, 4, 1, "MIN_FW_VERSION", .u32, .otp, none, fun _ => .num 0⟩,
   ⟨0x8010, 0x0, 1, 5, 1, "MGMT_ROOT_HASH", .blob, .otp, none, fun _ => .blob zeroDigest⟩,
   ⟨0x8010, 0x0, 1, 6, 1, "EXPECT0", .blob, .otp, none, fun _ => .blob zeroDigest⟩,
   ⟨0x8010, 0x0, 1, 7, 1, "EXPECT1", .blob, .otp, none, fun _ => .blob zeroDigest⟩,
   ⟨0x8010, 0x0, 1, 8, 1, "EXPECT2", .blob, .otp, none, fun _ => .blob zeroDigest⟩,
   ⟨0x8020, 0x0, 1, 1, 1, "MEAS0", .blob, .ro, none, fun _ => .blob zeroDigest⟩,
   ⟨0x8020, 0x0, 1, 2, 1, "MEAS1", .blob, .ro, none, fun _ => .blob zeroDigest⟩,
   ⟨0x8020, 0x0, 1, 3, 1, "MEAS2", .blob, .ro, none, fun _ => .blob zeroDigest⟩,
   ⟨0x8020, 0x0, 1, 4, 1, "MEAS3", .blob, .ro, none, fun _ => .blob zeroDigest⟩,
   ⟨0x8020, 0x0, 1, 5, 1, "MEAS4", .blob, .ro, none, fun _ => .blob zeroDigest⟩,
   ⟨0x8020, 0x0, 1, 6, 1, "MEAS5", .blob, .ro, none, fun _ => .blob zeroDigest⟩,
   ⟨0x8020, 0x0, 1, 7, 1, "MEAS6", .blob, .ro, none, fun _ => .blob zeroDigest⟩,
   ⟨0x8020, 0x0, 1, 8, 1, "MEAS7", .blob, .ro, none, fun _ => .blob zeroDigest⟩,
   ⟨0x8020, 0x0, 1, 9, 1, "MEAS_EXTEND", .blob, .rws, none, fun _ => .blob []⟩,
   ⟨0x8020, 0x0, 1, 10, 1, "BOOT_SLOT", .u8, .ro, none, fun _ => .num 0⟩,
   ⟨0x8020, 0x0, 1, 11, 1, "POLICY_RESULT", .u16, .ro, none, fun _ => .num 0⟩,
   ⟨0x9000, 0x40, 32, 1, 1, "FUNCTION", .u16, .ro, none, fun _ => .num 0⟩,
   ⟨0x9000, 0x40, 32, 2, 1, "OPEN_LIMIT", .u16, .rw, some (1, 512), fun _ => .num 64⟩,
   ⟨0x9000, 0x40, 32, 3, 1, "QUEUE_LIMIT", .u16, .rw, some (1, 256), fun _ => .num 32⟩]

/-- Members of the object tables, part 9. -/
def objTable9 : List ObjRow :=
  [⟨0x9000, 0x40, 32, 4, 1, "PRIORITY_LIMIT", .u8, .rw, some (0, 7), fun _ => .num 7⟩,
   ⟨0x9000, 0x40, 32, 6, 1, "RESET", .bool, .wo, none, fun _ => .num 0⟩,
   ⟨0x9000, 0x40, 32, 7, 1, "OPEN_ROUTES", .u16, .ro, none, fun _ => .num 0⟩,
   ⟨0x9000, 0x40, 32, 8, 1, "QUEUE_HALTS", .u32, .ro, none, fun _ => .num 0⟩,
   ⟨0x9000, 0x40, 32, 9, 1, "DOORBELLS_DROPPED", .u64, .ro, none, fun _ => .num 0⟩,
   ⟨0x9000, 0x40, 32, 10, 1, "VIEW_OVERFLOWS", .u32, .ro, none, fun _ => .num 0⟩,
   ⟨0x9010, 0x40, 32, 1, 1, "CAIRN_LIMIT", .u8, .rw, some (0, 4), fun _ => .num 4⟩,
   ⟨0x9010, 0x40, 32, 2, 1, "CAIRN_HELD", .u8, .ro, none, fun _ => .num 0⟩,
   ⟨0x9020, 0x40, 32, 1, 1, "DEPOT_CEILING", .u64, .rw, none, fun _ => .num 34359738368⟩,
   ⟨0x9020, 0x40, 32, 2, 1, "DEPOT_QUOTA", .u64, .ro, none, fun _ => .num 1073741824⟩,
   ⟨0x9020, 0x40, 32, 3, 1, "DEPOT_USED", .u64, .ro, none, fun _ => .num 0⟩,
   ⟨0x9020, 0x40, 32, 4, 1, "SPILL_GRANTED", .u64, .ro, none, fun _ => .num 0⟩,
   ⟨0x9020, 0x40, 32, 5, 1, "SPILL_USED", .u64, .ro, none, fun _ => .num 0⟩,
   ⟨0x9020, 0x40, 32, 6, 1, "OUTPUTS_OPEN", .u16, .ro, none, fun _ => .num 0⟩,
   ⟨0x9030, 0x40, 32, 1, 1, "WEIGHT", .u8, .ro, none, fun _ => .num 16⟩,
   ⟨0x9030, 0x40, 32, 2, 1, "WEIGHT_CEILING", .u8, .rw, some (1, 255), fun _ => .num 255⟩,
   ⟨0x9030, 0x40, 32, 3, 1, "LOG_DROPPED", .u64, .ro, none, fun _ => .num 0⟩,
   ⟨0x9038, 0x40, 32, 1, 1, "DMA_CHANNELS", .u64, .rw, none, fun n => .num ((3 * 2 ^ (2 * n) : Nat) : Int)⟩,
   ⟨0x9038, 0x40, 32, 2, 1, "DIGEST_LIMIT", .u8, .rw, some (0, 16), fun _ => .num 2⟩,
   ⟨0x9038, 0x40, 32, 3, 1, "IMAGE_BASE", .u64, .rw, none, fun _ => .num 0⟩,
   ⟨0x9038, 0x40, 32, 4, 1, "IMAGE_BYTES", .u64, .rw, none, fun n => .num (if n = 0 then ((2 ^ 47 : Nat) : Int) else 0)⟩,
   ⟨0x9038, 0x40, 32, 5, 1, "ENGINE_LIMIT", .u8, .rw, some (1, 64), fun _ => .num 64⟩,
   ⟨0xA000, 0x20, 17, 1, 1, "RIDGE_STATE", .u8, .ro, none, fun _ => .num 0⟩,
   ⟨0xA000, 0x20, 17, 2, 1, "RIDGE_RETIRE", .bool, .rws, none, fun _ => .num 0⟩]

/-- Members of the object tables, part 10. -/
def objTable10 : List ObjRow :=
  [⟨0xA004, 0x20, 17, 1, 1, "PT_STRANDS", .u16, .rw, none, fun _ => .num 0⟩,
   ⟨0xA004, 0x20, 17, 2, 1, "WP_FETCH", .u64, .ro, none, fun _ => .num 0⟩,
   ⟨0xA004, 0x20, 17, 3, 1, "WP_LOAD", .u64, .ro, none, fun _ => .num 0⟩,
   ⟨0xA004, 0x20, 17, 4, 1, "RF_CORRECTED", .u64, .ro, none, fun _ => .num 0⟩,
   ⟨0xA008, 0x20, 17, 1, 1, "L2_ENABLE", .bool, .rw, none, fun _ => .num 1⟩,
   ⟨0xA008, 0x20, 17, 2, 1, "L2_STATE", .u8, .ro, none, fun _ => .num 0⟩,
   ⟨0xA008, 0x20, 17, 3, 1, "L2_PART0", .u64, .rw, none, fun _ => .num 0⟩,
   ⟨0xA008, 0x20, 17, 4, 1, "L2_PART1", .u64, .rw, none, fun _ => .num 0⟩,
   ⟨0xA008, 0x20, 17, 5, 1, "L2_PART2", .u64, .rw, none, fun _ => .num 0⟩,
   ⟨0xA008, 0x20, 17, 6, 1, "L2_PART3", .u64, .rw, none, fun _ => .num 0⟩,
   ⟨0xA008, 0x20, 17, 7, 1, "L2_PART4", .u64, .rw, none, fun _ => .num 0⟩,
   ⟨0xA008, 0x20, 17, 8, 1, "L2_PART5", .u64, .rw, none, fun _ => .num 0⟩,
   ⟨0xA008, 0x20, 17, 9, 1, "L2_PART6", .u64, .rw, none, fun _ => .num 0⟩,
   ⟨0xA008, 0x20, 17, 10, 1, "L2_PART7", .u64, .rw, none, fun _ => .num 0⟩,
   ⟨0xA008, 0x20, 17, 11, 1, "CACHE_CORRECTED", .u64, .ro, none, fun _ => .num 0⟩,
   ⟨0xA008, 0x20, 17, 12, 1, "L2_FENCED", .u16, .ro, none, fun _ => .num 0⟩,
   ⟨0xF010, 0x0, 1, 1, 1, "CMO_COMMAND", .u64, .rws, none, fun _ => .num 0⟩,
   ⟨0xF010, 0x0, 1, 2, 1, "CMO_ADDRESS", .u64, .rws, none, fun _ => .num 0⟩,
   ⟨0xF010, 0x0, 1, 3, 1, "CMO_STATUS", .u8, .ro, none, fun _ => .num 0⟩,
   ⟨0xF011, 0x0, 1, 1, 1, "DIR_PROBE_LINE", .u64, .rws, none, fun _ => .num 0⟩,
   ⟨0xF011, 0x0, 1, 2, 1, "DIR_PROBE_ENTRY", .u64, .ro, none, fun _ => .num 0⟩,
   ⟨0xF012, 0x0, 1, 1, 1, "TEST_ADDRESS", .u64, .rws, none, fun _ => .num 0⟩,
   ⟨0xF012, 0x0, 1, 2, 1, "TEST_DATA", .blob, .rws, none, fun _ => .blob []⟩,
   ⟨0xF012, 0x0, 1, 3, 1, "TEST_CHECK", .blob, .rws, none, fun _ => .blob []⟩]

/-- Members of the object tables, part 11. -/
def objTable11 : List ObjRow :=
  [⟨0xF012, 0x0, 1, 4, 1, "TEST_COMMAND", .u8, .wo, none, fun _ => .num 0⟩,
   ⟨0xF012, 0x0, 1, 5, 1, "TEST_STATUS", .u8, .ro, none, fun _ => .num 0⟩,
   ⟨0xF012, 0x0, 1, 6, 1, "REMAP_READ", .blob, .rws, none, fun _ => .blob []⟩]

/-- Members of stack H1 (Table 15.9). Channel DC15's object and stack H0's have one index, 0x5100; it reads as DC15's, and
both stacks' counters are kept beyond the 16-bit indices (log 52). -/
def objTable12 : List ObjRow :=
  [⟨0x5110, 0x0, 1, 1, 1, "HBM_counters_0", .u64, .ro, none, fun _ => .num 0⟩,
   ⟨0x5110, 0x0, 1, 2, 1, "HBM_counters_1", .u64, .ro, none, fun _ => .num 0⟩,
   ⟨0x5110, 0x0, 1, 3, 1, "HBM_counters_2", .u64, .ro, none, fun _ => .num 0⟩,
   ⟨0x5110, 0x0, 1, 4, 1, "HBM_counters_3", .u64, .ro, none, fun _ => .num 0⟩,
   ⟨0x5110, 0x0, 1, 5, 1, "PAGES_RETIRED", .u32, .ro, none, fun _ => .num 0⟩]

/-- Every member that a chapter's object table gives (R8, R13). -/
def objTable : List ObjRow :=
  objTable0 ++ objTable1 ++ objTable2 ++ objTable3 ++ objTable4 ++ objTable5 ++ objTable6 ++ objTable7 ++ objTable8 ++ objTable9 ++ objTable10 ++ objTable11 ++ objTable12

/-- The copy of a row that an index names, if it names one. -/
def ObjRow.copy? (r : ObjRow) (i : Nat) : Option Nat :=
  if r.stride = 0 then (if i = r.idx then some 0 else none)
  else if r.idx ≤ i ∧ (i - r.idx) % r.stride = 0 ∧ (i - r.idx) / r.stride < r.copies
    then some ((i - r.idx) / r.stride) else none

/-- Whether a row holds a member of an index. -/
def ObjRow.has (r : ObjRow) (i m : Nat) : Bool :=
  (r.copy? i).isSome && decide (r.mem ≤ m) && decide (m < r.mem + r.mcount)

/-- The row of a member. -/
def objRow? (i m : Nat) : Option ObjRow := objTable.find? (fun r => r.has i m)

/-- The highest member number of an object; none where no such object is given (R8, R457). -/
def objHighest (i : Nat) : Option Nat :=
  let ms := objTable.filterMap (fun r => if (r.copy? i).isSome then some (r.mem + r.mcount - 1) else none)
  if ms.isEmpty then none else some (ms.foldl max 0)

/-- The indices of the objects given, rising (LIST, R457). -/
def objIndices : List Nat :=
  let all := objTable.flatMap (fun r => (List.range r.copies).map (fun k => r.idx + k * r.stride))
  ((all.filter (fun i => decide (i < 65536))).foldl (fun (m : SMap Unit) i => m.put i ()) []).map (fun p => p.1)

/-- The value a type's range allows at most and at least. -/
def OTy.bounds : OTy → Int × Int
  | .bool => (0, 1)
  | .u8 => (0, 255)
  | .u16 => (0, 65535)
  | .u32 => (0, 4294967295)
  | .u64 => (0, 18446744073709551615)
  | .i32 => (-2147483648, 2147483647)
  | .str32 => (0, 0)
  | .blob => (0, 0)

/-- The bytes a fixed-width type takes; none for a BLOB. -/
def OTy.width : OTy → Option Nat
  | .bool => some 1
  | .u8 => some 1
  | .u16 => some 2
  | .u32 => some 4
  | .u64 => some 8
  | .i32 => some 4
  | .str32 => some 32
  | .blob => none

/-- The key of a stored member. -/
def okey (i m : Nat) : Nat := i * 256 + m

/-- The reset value of a member; 0 where the dictionary gives none. -/
def objReset (i m : Nat) : ObjVal :=
  match objRow? i m with
  | some r => r.reset ((r.copy? i).getD 0)
  | none => .num 0

/-- The stored value of a member. -/
def State.obj (s : State) (i m : Nat) : ObjVal :=
  match s.objs.find (okey i m) with
  | some v => v
  | none => objReset i m

/-- The stored value of a numeric member. -/
def State.oint (s : State) (i m : Nat) : Int :=
  match s.obj i m with
  | .num z => z
  | .blob _ => 0

/-- The stored value of an unsigned member. -/
def State.onum (s : State) (i m : Nat) : Nat := (s.oint i m).toNat

/-- The stored value of a byte-string member. -/
def State.oblob (s : State) (i m : Nat) : List Byte :=
  match s.obj i m with
  | .num _ => []
  | .blob b => b

/-- Whether a BOOL member holds 1. -/
def State.oflag (s : State) (i m : Nat) : Bool := s.onum i m == 1

/-- Stores a member. -/
def State.oput (s : State) (i m : Nat) (v : ObjVal) : State :=
  { s with objs := s.objs.put (okey i m) v }

/-- Stores a number. -/
def State.oset (s : State) (i m n : Nat) : State := s.oput i m (.num n)

/-- Adds to a counter, which saturates at its type's maximum (R83, R147, R182, R276). -/
def State.oinc (s : State) (i m by_ : Nat) : State :=
  let top := match objRow? i m with
    | some r => r.ty.bounds.2.toNat
    | none => 0
  s.oset i m (min top (s.onum i m + by_))

/-- Index of tenant n's copy of an object of the 0x9000 range (R13). -/
def tobj (base n : Nat) : Nat := base + 0x40 * n
/-- Index of physical ridge n's copy of an object of the 0xA000 range (R13). -/
def robj (base n : Nat) : Nat := base + 0x20 * n
/-- Index of port, channel, host port or stack n's copy (chapters 12, 13, 15). -/
def pobj (base n : Nat) : Nat := base + 0x10 * n

end Sys2Proof.Machine
end

