-- ==== Sys2Proof/Machine/Ops.lean ====
section
/-! DEFINITION. Operations shared by all families: statuses, time, free values, host memory, error records,
completions and interrupts. -/
namespace Sys2Proof.Machine

/-- What a meaning answers. -/
abbrev Res := Host.Outcome State Fault Refusal

/-! ## Completion status codes (Table 00.3 and the chapters' additions) -/

def stOk : Nat := 0x0000
def stDescMalformed : Nat := 0x0120
def stDescVersion : Nat := 0x0121
def stDescCheck : Nat := 0x0122
def stCairnRef : Nat := 0x0123
def stCairnState : Nat := 0x0124
def stQueueState : Nat := 0x0125
def stRouteUnknown : Nat := 0x0126
def stEngineState : Nat := 0x0127
def stDepotFull : Nat := 0x0201
def stCairnFull : Nat := 0x0202
def stPartitionFull : Nat := 0x0203
def stGroupFull : Nat := 0x0204
def stHandleBusy : Nat := 0x0205
def stQuotaCeiling : Nat := 0x0206
def stQueueLimit : Nat := 0x0207
def stEngineBusy : Nat := 0x0208
def stLenShort : Nat := 0x0301
def stLenLong : Nat := 0x0302
def stInflateLimit : Nat := 0x0310
def stBlockCrc : Nat := 0x0311
def stBlockEncoding : Nat := 0x0312
def stJoinMultiMatch : Nat := 0x0313
def stValueTooLong : Nat := 0x0314
def stDigestNotReady : Nat := 0x0315
def stPoisonRead : Nat := 0x0401
def stReplayExhausted : Nat := 0x0402
def stPitchTimeout : Nat := 0x0403
def stBusError : Nat := 0x0404
def stDeterminism : Nat := 0x0405
def stArithFault : Nat := 0x0406
def stStrandFault : Nat := 0x0407
def stAbortedByHost : Nat := 0x0501
def stTenantReset : Nat := 0x0502
def stRetreat : Nat := 0x0503

/-- R12: of two conditions, the one of the higher class; within a class, the lower code. -/
def worse (a b : Nat) : Nat :=
  if a / 256 < b / 256 then b else if b / 256 < a / 256 then a else min a b

/-- The status that R12 selects among conditions; OK when there is none. -/
def pickStatus (l : List Nat) : Nat := l.foldl worse 0

/-! ## Time and free values -/

/-- TIME_NS: nanoseconds since formation, or before the first formation since the RST_N release with bit 63
set (Table 16.1). The model's clock counts half nanoseconds. -/
def State.timeNs (s : State) : Nat :=
  if s.sys.formed then (s.now - s.sys.formedAt) / 2 else 2 ^ 63 + (s.now - s.sys.releasedAt) / 2 % 2 ^ 63

/-- A running strand's cycle counter advances by some clocks (R249). -/
def StrandSt.clocks (t : StrandSt) (n : Nat) : StrandSt :=
  if t.task.isSome then { t with cycle := (t.cycle + n) % 2 ^ 64 } else t

/-- Moves the clock forward to an instant, never back (log 5). -/
def State.advanceTo (s : State) (t : Nat) : State :=
  if s.now < t then { s with now := t, strands := s.strands.map (fun p => (p.1, p.2.clocks (t - s.now))) } else s

/-- Half nanoseconds in a microsecond. -/
def usClocks (us : Nat) : Nat := 2000 * us

/-- The next free value of `w` bits (log 8). -/
def State.free (s : State) (w : Nat) : BitVec w × State :=
  (Config.freeValue w s.freeCount, { s with freeCount := s.freeCount + 1 })

/-- Records something the device sends or shows outside. -/
def State.emit (s : State) (e : OutEv) : State := { s with out := s.out ++ [e] }

/-! ## Object shorthands -/

def State.periodUs (s : State) : Nat := s.onum 0x2000 1
def State.windowUs (s : State) : Nat := s.onum 0x2000 2
def State.marginUs (s : State) : Nat := s.onum 0x2000 3

/-- The physical ridge a logical ridge stands on (R16). -/
def State.physRidge (s : State) (r : Nat) : Nat := s.sys.ridgeMap.getD r 0

/-- The physical strand of a logical strand (R17). -/
def State.physStrand (s : State) (r k : Nat) : Nat := (s.sys.strandMap.getD (s.physRidge r) []).getD k 0

/-! ## Functions and host memory -/

/-- A function's registers (Table 13.4). -/
def State.fn (s : State) (t : Nat) : FnSt := (s.host.fns.find t).getD FnSt.reset

def State.setFn (s : State) (t : Nat) (f : FnSt) : State :=
  { s with host := { s.host with fns := s.host.fns.put t f } }

def State.mapFn (s : State) (t : Nat) (g : FnSt → FnSt) : State := s.setFn t (g (s.fn t))

/-- FN_STATUS.RESETTING (Table 13.9). -/
def State.resetting (s : State) (t : Nat) : Bool := (s.fn t).resetting.isSome

/-- The key of a host byte: each tenant has its function's address space (R384). -/
def hostKey (t a : Nat) : Nat := t * 2 ^ 64 + a % 2 ^ 64

/-- A posted write to host memory (R513): while the tenant's function-level reset runs the function issues no
request (Table 13.9 step 1). -/
def State.hostWrite (s : State) (t a : Nat) (bs : List Byte) : State :=
  if (s.fn t).resetting = some .function then s
  else { s with host := { s.host with mem := s.host.mem.writeN (hostKey t a) bs } }

/-- The failure statuses of the failed host ranges that a read overlaps (R390). -/
def State.hostErrors (s : State) (t a n : Nat) : List Nat :=
  (s.host.errors.filter (fun e => e.1 == t && decide (e.2.1 < a + n) && decide (a < e.2.1 + e.2.2.1))).map
    (fun e => e.2.2.2)

/-- The status that R12 selects of them. -/
def State.hostError (s : State) (t a n : Nat) : Option Nat :=
  if (s.hostErrors t a n).isEmpty then none else some (pickStatus (s.hostErrors t a n))

/-- A read of host memory: the bytes, or the status of its failure (R390). -/
def State.hostRead (s : State) (t a n : Nat) : Except Nat (List Byte) :=
  match s.hostError t a n with
  | some st => .error st
  | none => .ok (s.host.mem.readN (hostKey t a) n)

/-! ## Error records (chapter 15) -/

/-- What raises a record: Table 15.5's fields that the raiser gives, and when its handling closes (none: at
once). -/
structure RecArgs where
  severity : Nat
  source : Nat
  cause : Nat := 0
  tenant : Option Nat := none
  status : Nat := 0
  routeId : Nat := 0
  address : Nat := 0
  w4 : Nat := 0
  syndrome : Nat := 0
  flags : Nat := 0
  count : Nat := 1
  closing : Option Closing := none

/-- W4 of a record of a source other than memory: the counter that counted the event (Table 15.5). -/
def objW4 (i m : Nat) : Nat := i * 2 ^ 48 + m * 2 ^ 40

/-- The 64 bytes of a record (Table 15.5). -/
def ErrRec.bytes (r : ErrRec) : List Byte :=
  bytesOfWords
    [r.seq % 65536 * 2 ^ 48 + r.severity % 8 * 2 ^ 45 + r.nested.toNat * 2 ^ 44
       + r.tenant.isSome.toNat * 2 ^ 43 + (r.tenant.getD 0) % 32 * 2 ^ 38
       + r.source % 65536 * 2 ^ 16 + r.cause % 65536,
     r.parent % 65536 * 2 ^ 48 + r.status % 65536 * 2 ^ 32 + r.routeId % 2 ^ 32,
     r.time, r.address, r.w4, r.syndrome, r.flags * 2 ^ 32 + r.count % 2 ^ 32, 0]

/-- Whether a severity is fatal (Table 15.6). -/
def fatalSeverity (v : Nat) : Bool := v == 3 || v == 4

/-- Places a record in a queue of 16: fatal records stand ahead of the others (R448); none when full. -/
def queueRec (q : List ErrRec) (r : ErrRec) : Option (List ErrRec) :=
  if 16 ≤ q.length then none
  else if fatalSeverity r.severity then
    some (q.takeWhile (fun x => fatalSeverity x.severity) ++ [r]
      ++ q.dropWhile (fun x => fatalSeverity x.severity))
  else some (q ++ [r])

/-- Sends an event for a record, when a destination is set (R467). -/
def State.sendEvent (s : State) (r : ErrRec) : State :=
  if (s.oblob 0x60A0 6).isEmpty then s
  else
    let q := s.mgmt.eventSeq
    let p := r.bytes
    { s with
      mgmt := { s.mgmt with
        eventSeq := (q + 1) % 65536
        events := s.mgmt.events ++ [{ seq := q, payload := p, sends := 1 }] }
      out := s.out ++ [.event q p] }

/-- Places a record in the tenant's view (R451). -/
def State.viewRec (s : State) (t : Nat) (r : ErrRec) : State :=
  match queueRec ((s.err.views.find t).getD []) r with
  | some v => { s with err := { s.err with views := s.err.views.put t v } }
  | none => s.oinc (tobj 0x9000 t) 10 1

/-- Raises an error record (R446 to R451). -/
def State.raise (s : State) (a : RecArgs) : State :=
  let r : ErrRec :=
    { seq := s.err.nextSeq, severity := a.severity, nested := !s.err.open_.isEmpty, tenant := a.tenant
      source := a.source, cause := a.cause, parent := (s.err.open_.head?.map (fun p => p.1)).getD 0
      status := a.status, routeId := a.routeId, time := s.timeNs, address := a.address, w4 := a.w4
      syndrome := a.syndrome, flags := a.flags, count := a.count }
  let s := { s with err := { s.err with
    nextSeq := (s.err.nextSeq + 1) % 65536
    open_ := match a.closing with
      | none => s.err.open_
      | some c => s.err.open_ ++ [(r.seq, c)] } }
  let s := match queueRec s.err.queue r with
    | some q => { s with err := { s.err with queue := q } }
    | none =>
      if fatalSeverity r.severity && s.err.latch.isNone then
        { s with err := { s.err with latch := some r } }
      else s.oinc 0x5200 3 1
  let s := match a.tenant with
    | some t => s.viewRec t r
    | none => s
  s.sendEvent r

/-- Closes the handlings that an action ends (Table 15.6). -/
def State.closeHandling (s : State) (c : Closing) : State :=
  { s with err := { s.err with open_ := s.err.open_.filter (fun p => p.2 != c) } }

/-- A CORRECTED record. -/
def State.corrected (s : State) (source i m : Nat) : State :=
  s.raise { severity := 0, source := source, w4 := objW4 i m }

/-! ## Interrupts and completions (R377 to R381) -/

/-- Whether a function-level reset of a tenant runs, during which its function issues nothing (Table 13.9). -/
def State.fnSilent (s : State) (t : Nat) : Bool := (s.fn t).resetting == some .function

/-- Whether a vector is held back: it is masked (R381), or the device is in bivouac, where vector 63 alone is signalled
(R493; log 70). -/
def State.vectorHeld (s : State) (t v : Nat) : Bool :=
  ((s.fn t).msixTable.read (16 * v + 12)).getLsbD 0 || (s.sys.state == .bivouac && v != 63)

/-- Signals a vector; one held back sets its pending bit (R381). -/
def State.signal (s : State) (t v : Nat) : State :=
  if s.fnSilent t then s
  else if s.vectorHeld t v then
    s.mapFn t (fun f => if f.msixPending.contains v then f else { f with msixPending := f.msixPending ++ [v] })
  else s.emit (.msix t v)

/-- Vectors with their pending bit set that nothing holds back any more are signalled. -/
def State.freedVectors (s : State) (t : Nat) : State :=
  let ready := (s.fn t).msixPending.filter (fun v => !s.vectorHeld t v)
  let s := s.mapFn t (fun f => { f with msixPending := f.msixPending.filter (fun v => !ready.contains v) })
  ready.foldl (fun s v => s.signal t v) s

/-- The key of a queue of a tenant. -/
def qkey (t q : Nat) : Nat := t * 256 + q

def State.cq? (s : State) (t q : Nat) : Option CQ := s.host.cqs.find (qkey t q)
def State.wq? (s : State) (t q : Nat) : Option WQ := s.host.wqs.find (qkey t q)
def State.putCq (s : State) (t q : Nat) (c : CQ) : State :=
  { s with host := { s.host with cqs := s.host.cqs.put (qkey t q) c } }
def State.putWq (s : State) (t q : Nat) (w : WQ) : State :=
  { s with host := { s.host with wqs := s.host.wqs.put (qkey t q) w } }

/-- The 64 bytes of a completion record with its phase (Table 13.7). -/
def Completion.bytes (c : Completion) (phase done : Nat) : List Byte :=
  bytesOfWords
    [c.status % 65536 * 2 ^ 48 + c.cid % 65536 * 2 ^ 32 + c.qid % 256 * 2 ^ 24 + c.opcode % 256 * 2 ^ 16
       + c.cause % 16 * 2 ^ 12 + c.final.toNat * 2 + phase % 2,
     c.routeId % 2 ^ 32, c.w2, c.w3, c.w4, c.w5, c.w6, if c.stamp then done else c.w7]

/-- Whether the device posts completions now: not in bivouac (R493). -/
def State.mayPost (s : State) : Bool := s.sys.state != .bivouac

/-- Clears and frees the Cairn banks of a route's CAM builds, with their shadows (R159). An unlisted bank is free and
holds reset rows. -/
def State.freeCam (s : State) (k : RouteKey) : State :=
  let mine := (s.cairn.banks.filter (fun p => match p.2.owner with
    | .cam rk _ => rk == k
    | _ => false)).map (fun p => p.1)
  if mine.isEmpty then s
  else { s with cairn := { s.cairn with
    banks := s.cairn.banks.filter (fun p => !mine.contains p.1)
    shadows := s.cairn.shadows.filter (fun p => !mine.contains (p.1 / 4096)) } }

/-- Removes a route that has become closed (R201, R378); its CAM banks go with it (R159). -/
def State.closeRoute (s : State) (k : RouteKey) : State :=
  if s.routes.any (fun r => r.key == k && r.finalDue) then
    { (s.freeCam k) with routes := s.routes.filter (fun r => !(r.key == k && r.finalDue)) }
  else s

/-- Posts one record of a queue and counts it for its vector (R377, R381). -/
def State.postOne (s : State) (t q : Nat) (cq : CQ) (c : Completion) (rest : List Completion) : State :=
  let size := 2 ^ cq.logSize
  let phase := (cq.tail % 2 ^ 32 / size + 1) % 2
  let s := s.hostWrite t (cq.ring + 64 * (cq.tail % size)) (c.bytes phase s.timeNs)
  let tail := (cq.tail + 1) % 2 ^ 32
  let s := s.hostWrite t cq.index (natLe 8 tail)
  let n := cq.unsignalled + 1
  let fire := cq.count == 0 || decide (cq.count ≤ n)
  let s := s.putCq t q { cq with
    tail := tail, due := rest, unsignalled := if fire then 0 else n
    firstAt := if cq.unsignalled = 0 then s.now else cq.firstAt }
  let s := if fire then s.signal t cq.vector else s
  match c.closes with
  | some k => s.closeRoute k
  | none => s

/-- Posts the due records of a queue while it has room (R378). -/
def State.postDue (s : State) (t q : Nat) : Nat → State
  | 0 => s
  | n + 1 =>
    if !s.mayPost || s.fnSilent t then s
    else
      match s.cq? t q with
      | none => s
      | some cq =>
        match cq.due with
        | [] => s
        | c :: rest =>
          if (cq.tail + 2 ^ 32 - cq.head) % 2 ^ 32 = 2 ^ cq.logSize then s
          else (s.postOne t q cq c rest).postDue t q n

/-- A record becomes due: it is posted, or waits for room (R378). Where its queue is gone nothing is written
and the route closes (log 13). -/
def State.complete (s : State) (t q : Nat) (c : Completion) : State :=
  match s.cq? t q with
  | none =>
    match c.closes with
    | some k => s.closeRoute k
    | none => s
  | some cq =>
    (s.putCq t q { cq with due := cq.due ++ [c] }).postDue t q (cq.due.length + 1)

/-- The due records of every queue are posted, as far as it has room. -/
def State.postAll (s : State) : State :=
  s.host.cqs.foldl (fun s p => s.postDue (p.1 / 256) (p.1 % 256) p.2.due.length) s

/-! ## Route log (R389) -/

/-- Some of the records that are held are written, the oldest first; how many are so by now is free (log 59). -/
def State.writeLogs (s : State) : State :=
  if s.host.logHeld.isEmpty then s
  else
    let (v, s) := s.free 16
    let n := v.toNat % (s.host.logHeld.length + 1)
    let now := s.host.logHeld.take n
    now.foldl (fun s e => s.hostWrite e.1 e.2.1 e.2.2) { s with host := { s.host with logHeld := s.host.logHeld.drop n } }

/-- A route-log record of an event of a tenant's route, which is one homed here, when its log runs; the device holds at most
1,024 that are not yet written, and drops and counts one beyond that. -/
def State.logEvent (s : State) (k : RouteKey) (prio stage ridge unit event seq : Nat) : State :=
  match s.host.logs.find k.tenant with
  | none => s
  | some l =>
    if !l.active || k.home != s.sys.deviceId then s
    else if 1024 ≤ s.host.logHeld.length then
      ({ s with host := { s.host with logs := s.host.logs.put k.tenant { l with count := l.count + 1 } } } : State).oinc
        (tobj 0x9030 k.tenant) 3 1
    else
      let bytes := bytesOfWords
        [s.timeNs, s.pitch.number,
         k.id % 2 ^ 32 * 2 ^ 32 + k.tenant % 32 * 2 ^ 27 + prio % 8 * 2 ^ 24 + stage % 16 * 2 ^ 20
           + ridge % 16 * 2 ^ 16 + unit % 16 * 2 ^ 12 + event % 16 * 2 ^ 8,
         seq % 2 ^ 48 * 2 ^ 16 + l.count % 65536]
      let at_ := l.ring + 32 * (l.count % 2 ^ l.logRecords)
      ({ s with host := { s.host with
        logs := s.host.logs.put k.tenant { l with count := l.count + 1 }
        logHeld := s.host.logHeld ++ [(k.tenant, at_, bytes)] } } : State).writeLogs

/-! ## Routes -/

def State.route? (s : State) (k : RouteKey) : Option Route := s.routes.find? (fun r => r.key == k)

/-- Rewrites one route. -/
def State.updRoute (s : State) (k : RouteKey) (f : Route → Route) : State :=
  { s with routes := s.routes.map (fun r => if r.key == k then f r else r) }

/-- A condition that ends a route under R146: it is kept with the route and raises one RECOVERABLE record that
names the route and the status. -/
def State.routeFault (s : State) (k : RouteKey) (source status address : Nat) : State :=
  let s := s.raise { severity := 2, source := source, cause := status, tenant := some k.tenant, status := status
                     routeId := k.id, address := address, closing := none }
  s.updRoute k (fun r => { r with
    conditions := r.conditions ++ [status]
    endTick := match r.endTick with
      | some t => some t
      | none => some (if s.pitch.decisionDone then s.pitch.number + 1 else s.pitch.number) })

end Sys2Proof.Machine
end

