-- ==== Sys2Proof/Machine/Clock.lean ====
section
/-! DEFINITION. What one clock of CCLK changes when no command waits (log 5). -/
namespace Sys2Proof.Machine

/-- One clock passes: the time base and the running strands' cycle counters advance. -/
def State.clockPass (s : State) : State :=
  s.advanceTo (s.now + 1)

end Sys2Proof.Machine
end

