-- ==== Sys2Proof/Machine/Deflate.lean ====
section
/-! DEFINITION. DEFLATE (RFC 1951): the inflater of R113 and R130 and the encoder of R405. -/
namespace Sys2Proof.Machine

/-- The bits of a byte, least significant first. -/
def byteBits (b : Byte) : List Bool := (List.range 8).map (fun i => b.getLsbD i)

/-- The bits of a byte string in stream order (R111). -/
def bitsOfBytes (bs : List Byte) : List Bool := bs.flatMap byteBits

/-- A number from bits, least significant first. -/
def natOfBits : List Bool → Nat
  | [] => 0
  | b :: bs => b.toNat + 2 * natOfBits bs

/-- The low `k` bits of a number, least significant first. -/
def bitsOfNat (k n : Nat) : List Bool := (List.range k).map (fun i => bitAt n i)

/-- Bits packed into bytes, the last byte padded with zeros. -/
def bytesOfBits (l : List Bool) : List Byte := (chunks 8 l).map (fun c => BitVec.ofNat 8 (natOfBits c))

/-! ## Inflating -/

/-- How an inflation ends: the final block ended, or the first condition met in stream order (R113). -/
inductive InflEnd where
  | done | invalid | limit | short
  deriving DecidableEq, Repr

/-- What inflation yields: its end, the bytes written, the whole bytes left of the input, and the DEFLATE blocks
inflated whole. -/
structure InflRes where
  ending : InflEnd
  out : List Byte
  restBytes : Nat
  blocks : Nat
  deriving DecidableEq, Repr

/-- Takes `k` bits as a number; none where the stream ends first. -/
def takeBits (k : Nat) (l : List Bool) : Option (Nat × List Bool) :=
  let t := l.take k
  if t.length = k then some (natOfBits t, l.drop k) else none

/-- A canonical Huffman code: symbols in code order, and how many have each length 1 to 15. -/
structure Huff where
  counts : List Nat
  symbols : List Nat
  deriving DecidableEq, Repr

/-- The code of a list of code lengths. -/
def Huff.ofLengths (ls : List Nat) : Huff :=
  let at_ (k : Nat) : List Nat :=
    (ls.zipIdx.filter (fun p => p.1 == k)).map (fun p => p.2)
  { counts := (List.range 15).map (fun k => (at_ (k + 1)).length)
    symbols := (List.range 15).flatMap (fun k => at_ (k + 1)) }

/-- Whether the lengths ask for more codes than there are. -/
def Huff.over (h : Huff) : Bool :=
  let used := (h.counts.zipIdx.map (fun p => p.1 * 2 ^ (14 - p.2))).foldl (· + ·) 0
  decide (2 ^ 15 < used)

/-- The codes of some rising lengths, counted as codes of the longest. -/
def codeSpace : List Nat → Nat
  | [] => 0
  | c :: cs => c * 2 ^ cs.length + codeSpace cs

/-- Decodes one symbol by walking the lengths; `some none` for a code that no symbol has, as soon as no assigned code
begins with the bits read. -/
def Huff.walk : List Nat → Nat → Nat → Nat → List Nat → List Bool → Option (Option Nat × List Bool)
  | [], _, _, _, _, l => some (none, l)
  | _ :: _, _, _, _, _, [] => none
  | c :: cs, code, first, index, syms, b :: l =>
    let code := code + b.toNat
    if code < first + c then some (syms[index + (code - first)]?, l)
    else if (code - (first + c)) * 2 ^ cs.length < codeSpace cs then
      Huff.walk cs (2 * code) (2 * (first + c)) (index + c) syms l
    else some (none, l)

def Huff.decode (h : Huff) (l : List Bool) : Option (Option Nat × List Bool) :=
  Huff.walk h.counts 0 0 0 h.symbols l

/-- Base lengths and extra bits of length symbols 257 to 285 (RFC 1951). -/
def lenBase : List (Nat × Nat) :=
  [(3,0),(4,0),(5,0),(6,0),(7,0),(8,0),(9,0),(10,0),(11,1),(13,1),(15,1),(17,1),(19,2),(23,2),(27,2)]
  ++ [(31,2),(35,3),(43,3),(51,3),(59,3),(67,4),(83,4),(99,4),(115,4),(131,5),(163,5),(195,5),(227,5),(258,0)]

/-- Base distances and extra bits of distance symbols 0 to 29 (RFC 1951). -/
def distBase : List (Nat × Nat) :=
  [(1,0),(2,0),(3,0),(4,0),(5,1),(7,1),(9,2),(13,2),(17,3),(25,3),(33,4),(49,4),(65,5),(97,5),(129,6)]
  ++ [(193,6),(257,7),(385,7),(513,8),(769,8),(1025,9),(1537,9),(2049,10),(3073,10),(4097,11),(6145,11)]
  ++ [(8193,12),(12289,12),(16385,13),(24577,13)]

/-- The order in which code-length code lengths are sent (RFC 1951). -/
def clOrder : List Nat := [16,17,18,0,8,7,9,6,10,5,11,4,12,3,13,2,14,1,15]

/-- Copies `n` bytes from `dist` back, stopping at the limit. -/
def copyBack (lim dist : Nat) : Nat → Array Byte → Array Byte × Bool
  | 0, out => (out, true)
  | n + 1, out =>
    if lim ≤ out.size then (out, false)
    else copyBack lim dist n (out.push (out.getD (out.size - dist) 0))

/-- The compressed data of one block. -/
def inflCodes (lim : Nat) (lit dst : Huff) : Nat → Array Byte → List Bool → InflEnd × Array Byte × List Bool
  | 0, out, l => (.short, out, l)
  | f + 1, out, l =>
    match lit.decode l with
    | none => (.short, out, l)
    | some (none, l) => (.invalid, out, l)
    | some (some s, l) =>
      if s < 256 then
        if lim ≤ out.size then (.limit, out, l)
        else inflCodes lim lit dst f (out.push (BitVec.ofNat 8 s)) l
      else if s = 256 then (.done, out, l)
      else
        match lenBase[s - 257]? with
        | none => (.invalid, out, l)
        | some (base, ex) =>
          match takeBits ex l with
          | none => (.short, out, l)
          | some (x, l) =>
            match dst.decode l with
            | none => (.short, out, l)
            | some (none, l) => (.invalid, out, l)
            | some (some d, l) =>
              match distBase[d]? with
              | none => (.invalid, out, l)
              | some (db, dx) =>
                match takeBits dx l with
                | none => (.short, out, l)
                | some (y, l) =>
                  if out.size < db + y then (.invalid, out, l)
                  else
                    match copyBack lim (db + y) (base + x) out with
                    | (out, true) => inflCodes lim lit dst f out l
                    | (out, false) => (.limit, out, l)

/-- A stored block's bytes. -/
def inflStored (lim : Nat) : Nat → Array Byte → List Bool → InflEnd × Array Byte × List Bool
  | 0, out, l => (.done, out, l)
  | n + 1, out, l =>
    match takeBits 8 l with
    | none => (.short, out, l)
    | some (b, l) =>
      if lim ≤ out.size then (.limit, out, l) else inflStored lim n (out.push (BitVec.ofNat 8 b)) l

/-- Reads code lengths of a dynamic block until `n` are there; the list is kept reversed. -/
def readLengths (cl : Huff) (n : Nat) : Nat → List Nat → List Bool → Except InflEnd (List Nat × List Bool)
  | 0, _, _ => .error .short
  | f + 1, acc, l =>
    if acc.length = n then .ok (acc.reverse, l)
    else if n < acc.length then .error .invalid
    else
      match cl.decode l with
      | none => .error .short
      | some (none, _) => .error .invalid
      | some (some s, l) =>
        if s < 16 then readLengths cl n f (s :: acc) l
        else
          let (k, base) := if s = 16 then (2, 3) else if s = 17 then (3, 3) else (7, 11)
          match takeBits k l, acc with
          | none, _ => .error .short
          | some (_, _), [] => if s = 16 then .error .invalid else
              match takeBits k l with
              | none => .error .short
              | some (x, l) => readLengths cl n f (List.replicate (base + x) 0) l
          | some (x, l), a :: acc' =>
            readLengths cl n f (List.replicate (base + x) (if s = 16 then a else 0) ++ a :: acc') l

/-- The `n` three-bit lengths of the code-length code. -/
def readThrees : Nat → List Nat → List Bool → Option (List Nat × List Bool)
  | 0, acc, l => some (acc.reverse, l)
  | n + 1, acc, l =>
    match takeBits 3 l with
    | none => none
    | some (x, l) => readThrees n (x :: acc) l

/-- The two codes of a dynamic block's header. RFC 1951 does not say whether an incomplete set of codes, more than 30
distance codes or a set without an end-of-block code is invalid in itself: such a header is accepted, and the stream
becomes invalid where it meets a code that no symbol has (DESIGN CHOICE; log 65). -/
def readDynamic (l : List Bool) : Except InflEnd (Huff × Huff × List Bool) :=
  match takeBits 14 l with
  | none => .error .short
  | some (h, l) =>
    let hlit := fld h 4 0 + 257
    let hdist := fld h 9 5 + 1
    let hclen := fld h 13 10 + 4
    if 286 < hlit then .error .invalid
    else
      match readThrees hclen [] l with
      | none => .error .short
      | some (cls, l) =>
        let cl := Huff.ofLengths ((List.range 19).map (fun s =>
          match clOrder.findIdx? (· == s) with
          | some i => cls.getD i 0
          | none => 0))
        if cl.over then .error .invalid
        else
          match readLengths cl (hlit + hdist) (hlit + hdist + 1) [] l with
          | .error e => .error e
          | .ok (ls, l) =>
            let a := Huff.ofLengths (ls.take hlit)
            let b := Huff.ofLengths (ls.drop hlit)
            if a.over || b.over then .error .invalid else .ok (a, b, l)

/-- The fixed codes (RFC 1951). -/
def fixedLit : Huff := Huff.ofLengths
  (List.replicate 144 8 ++ List.replicate 112 9 ++ List.replicate 24 7 ++ List.replicate 8 8)
def fixedDist : Huff := Huff.ofLengths (List.replicate 30 5)

/-- Blocks of a stream of `total` bits, one after another. -/
def inflBlocks (lim total : Nat) : Nat → Nat → Array Byte → List Bool → InflEnd × Array Byte × List Bool × Nat
  | 0, n, out, l => (.short, out, l, n)
  | f + 1, n, out, l =>
    match takeBits 3 l with
    | none => (.short, out, l, n)
    | some (h, l) =>
      let r : InflEnd × Array Byte × List Bool :=
        if h / 2 = 0 then
          match takeBits 32 (l.drop ((8 - (total - l.length) % 8) % 8)) with
          | none => (.short, out, [])
          | some (x, l) =>
            if x % 65536 + x / 65536 = 65535 then inflStored lim (x % 65536) out l
            else (.invalid, out, l)
        else if h / 2 = 1 then inflCodes lim fixedLit fixedDist (l.length + 1) out l
        else if h / 2 = 2 then
          match readDynamic l with
          | .error e => (e, out, l)
          | .ok (a, b, l) => inflCodes lim a b (l.length + 1) out l
        else (.invalid, out, l)
      match r with
      | (.done, out, l) => if h % 2 = 1 then (.done, out, l, n + 1) else inflBlocks lim total f (n + 1) out l
      | (e, out, l) => (e, out, l, n)

/-- Inflates a stream, writing at most `lim` bytes. -/
def inflate (lim : Nat) (bs : List Byte) : InflRes :=
  let l := bitsOfBytes bs
  let (e, out, l, n) := inflBlocks lim l.length (l.length + 1) 0 #[] l
  { ending := e, out := out.toList, restBytes := l.length / 8, blocks := n }

/-! ## Encoding (R405) -/

/-- A literal, or a match of a length and a distance. -/
inductive LzSym where
  | lit (b : Byte)
  | mtch (len dist : Nat)
  deriving DecidableEq, Repr

/-- h3 of three bytes (R405). -/
def h3 (a b c : Nat) : Nat := ((a * 128) ^^^ (b * 16) ^^^ c) % 32768

/-- Length of the common start of two strings, at most `n`. -/
def commonLen : Nat → List Byte → List Byte → Nat
  | 0, _, _ => 0
  | n + 1, a :: as, b :: bs => if a = b then commonLen n as bs + 1 else 0
  | _ + 1, _, _ => 0

/-- The best match among the candidates, nearer first: (length, distance). -/
def bestMatch (inp : List Byte) (i maxLen : Nat) : List Nat → Nat × Nat → Nat × Nat
  | [], best => best
  | c :: cs, best =>
    if 32768 < i - c then best
    else
      let n := commonLen (min 258 maxLen) (inp.drop c) (inp.drop i)
      bestMatch inp i maxLen cs (if best.1 < n then (n, i - c) else best)

/-- h3 at a position. -/
def h3At (inp : List Byte) (p : Nat) : Nat :=
  match inp.drop p with
  | a :: b :: c :: _ => h3 a.toNat b.toNat c.toNat
  | _ => 0

/-- Inserts positions `p, p+1, …` into the chains, newest first, where three bytes of input are left. -/
def insertChain (inp : List Byte) : Nat → Nat → SMap (List Nat) → SMap (List Nat)
  | 0, _, m => m
  | n + 1, p, m =>
    let m := if p + 3 ≤ inp.length then m.put (h3At inp p) (p :: (m.find (h3At inp p)).getD []) else m
    insertChain inp n (p + 1) m

/-- Greedy matching of one chunk from `i` to `hi`. -/
def lzChunk (inp : List Byte) (hi : Nat) : Nat → Nat → SMap (List Nat) → List LzSym → List LzSym × SMap (List Nat)
  | 0, _, m, acc => (acc.reverse, m)
  | f + 1, i, m, acc =>
    if hi ≤ i then (acc.reverse, m)
    else
      let best := if 3 ≤ hi - i
        then bestMatch inp i (hi - i) (((m.find (h3At inp i)).getD []).take 8) (0, 0) else (0, 0)
      if 3 ≤ best.1 then
        lzChunk inp hi f (i + best.1) (insertChain inp best.1 i m) (.mtch best.1 best.2 :: acc)
      else
        lzChunk inp hi f (i + 1) (insertChain inp 1 i m) (.lit (inp.getD i 0) :: acc)

/-- The symbol, extra value and extra bits of a length or distance in its table. -/
def baseSymbol (tbl : List (Nat × Nat)) (v : Nat) : Nat × Nat × Nat :=
  let k := (tbl.filter (fun p => decide (p.1 ≤ v))).length - 1
  let e := tbl.getD k (0, 0)
  (k, v - e.1, e.2)

/-- A weighted list of leaves in package-merge. -/
abbrev Packet := Nat × List Nat

/-- Merges two ascending lists of packets (leaves first argument). -/
def mergePackets : Nat → List Packet → List Packet → List Packet
  | 0, a, b => a ++ b
  | _ + 1, [], b => b
  | _ + 1, a, [] => a
  | f + 1, a :: as, b :: bs =>
    if a.1 < b.1 || (a.1 == b.1 && Config.leafFirst) then a :: mergePackets f as (b :: bs)
    else b :: mergePackets f (a :: as) bs

/-- Pairs neighbours into packages. -/
def pairPackets : List Packet → List Packet
  | a :: b :: r => (a.1 + b.1, a.2 ++ b.2) :: pairPackets r
  | _ => []

/-- `k` rounds of package-merge over the leaves. -/
def packRounds (leaves : List Packet) : Nat → List Packet
  | 0 => []
  | k + 1 =>
    let p := pairPackets (packRounds leaves k)
    mergePackets (leaves.length + p.length) leaves p

/-- Inserts a leaf in order of weight, the lower symbol first among equals. -/
def insertLeaf (a : Packet) : List Packet → List Packet
  | [] => [a]
  | b :: r => if a.1 ≤ b.1 then a :: b :: r else b :: insertLeaf a r

/-- Length-limited code lengths of a frequency list (R405). -/
def codeLengths (limit : Nat) (freqs : List Nat) : List Nat :=
  let used := freqs.zipIdx.filter (fun p => decide (0 < p.1))
  let leaves : List Packet := used.foldr (fun p acc => insertLeaf (p.1, [p.2]) acc) []
  if leaves.length = 1 then freqs.map (fun f => if f = 0 then 0 else 1)
  else
    let chosen := ((packRounds leaves limit).take (2 * leaves.length - 2)).flatMap (fun p => p.2)
    (List.range freqs.length).map (fun s => (chosen.filter (fun x => x == s)).length)

/-- Canonical codes of lengths: for each symbol its code bits, most significant first (RFC 1951). -/
def canonCodes (ls : List Nat) : List (List Bool) :=
  let count (k : Nat) := (ls.filter (fun x => x == k)).length
  let first (k : Nat) : Nat := (List.range k).foldl (fun c j => 2 * (c + if j = 0 then 0 else count j)) 0
  ls.zipIdx.map (fun p =>
    if p.1 = 0 then []
    else
      let before := ((ls.take p.2).filter (fun x => x == p.1)).length
      (bitsOfNat p.1 (first p.1 + before)).reverse)

/-- A run of zeros in code-length symbols: (symbol, extra, extra bits). -/
def zeroRun : Nat → Nat → List (Nat × Nat × Nat)
  | 0, _ => []
  | f + 1, n =>
    if n = 0 then []
    else if 11 ≤ n then (18, min n 138 - 11, 7) :: zeroRun f (n - min n 138)
    else if 3 ≤ n then (17, n - 3, 3) :: zeroRun f 0
    else (0, 0, 0) :: zeroRun f (n - 1)

/-- Repeats of a non-zero length after its first occurrence. -/
def sameRun (v : Nat) : Nat → Nat → List (Nat × Nat × Nat)
  | 0, _ => []
  | f + 1, n =>
    if n = 0 then []
    else if 3 ≤ n then (16, min n 6 - 3, 2) :: sameRun v f (n - min n 6)
    else (v, 0, 0) :: sameRun v f (n - 1)

/-- Greedy run-length coding of code lengths (R405). -/
def runLengths : Nat → List Nat → List (Nat × Nat × Nat)
  | 0, _ => []
  | _ + 1, [] => []
  | f + 1, v :: r =>
    let n := (r.takeWhile (fun x => x == v)).length
    (if v = 0 then zeroRun (n + 1) (n + 1) else (v, 0, 0) :: sameRun v n n) ++ runLengths f (r.drop n)

/-- Drops trailing zeros down to at least `k` entries. -/
def trimZeros (k : Nat) (l : List Nat) : List Nat :=
  let t := (l.reverse.dropWhile (fun x => x == 0)).reverse
  if t.length < k then l.take k else t

/-- How often each of `n` symbols occurs. -/
def freqOf (n : Nat) (l : List Nat) : List Nat :=
  (List.range n).map (fun s => (l.filter (fun x => x == s)).length)

/-- One chunk as a dynamic block (R405). -/
def dynBlock (final : Bool) (syms : List LzSym) : List Bool :=
  let litOf : LzSym → Nat := fun s => match s with
    | .lit b => b.toNat
    | .mtch n _ => 257 + (baseSymbol lenBase n).1
  let dists := syms.filterMap (fun s => match s with
    | .lit _ => none
    | .mtch _ d => some (baseSymbol distBase d).1)
  let ll := codeLengths 15 (freqOf 286 (syms.map litOf ++ [256]))
  let dl := if dists.isEmpty then [1] else codeLengths 15 (freqOf 30 dists)
  let ll := trimZeros 257 ll
  let dl := trimZeros 1 dl
  let rl := runLengths (ll.length + dl.length) (ll ++ dl)
  let cl := codeLengths 7 (freqOf 19 (rl.map (fun p => p.1)))
  let sent := trimZeros 4 (clOrder.map (fun s => cl.getD s 0))
  let cc := canonCodes cl
  let lc := canonCodes ll
  let dc := canonCodes dl
  [final, false, true] ++ bitsOfNat 5 (ll.length - 257) ++ bitsOfNat 5 (dl.length - 1)
    ++ bitsOfNat 4 (sent.length - 4) ++ sent.flatMap (bitsOfNat 3)
    ++ rl.flatMap (fun p => cc.getD p.1 [] ++ bitsOfNat p.2.2 p.2.1)
    ++ syms.flatMap (fun s => match s with
      | .lit b => lc.getD b.toNat []
      | .mtch n d =>
        let a := baseSymbol lenBase n
        let b := baseSymbol distBase d
        lc.getD (257 + a.1) [] ++ bitsOfNat a.2.2 a.2.1 ++ dc.getD b.1 [] ++ bitsOfNat b.2.2 b.2.1)
    ++ lc.getD 256 []

/-- One chunk as a stored block at bit position `pos`. -/
def storedBlock (final : Bool) (pos : Nat) (bs : List Byte) : List Bool :=
  [final, false, false] ++ List.replicate ((8 - (pos + 3) % 8) % 8) false
    ++ bitsOfNat 16 bs.length ++ bitsOfNat 16 (65535 - bs.length) ++ bitsOfBytes bs

/-- The chunks from `lo` on: bits so far and stored chunks so far. -/
def deflChunks (inp : List Byte) : Nat → Nat → SMap (List Nat) → List Bool → Nat → List Bool × Nat
  | 0, _, _, acc, st => (acc, st)
  | f + 1, lo, m, acc, st =>
    let hi := min inp.length (lo + 32768)
    let final := decide (hi = inp.length)
    let (syms, m) := lzChunk inp hi (hi - lo + 1) lo m []
    let d := dynBlock final syms
    let s := storedBlock final acc.length (sliceB inp lo (hi - lo))
    let useDyn := decide (d.length < s.length)
    let acc := acc ++ (if useDyn then d else s)
    let st := if useDyn then st else st + 1
    if final then (acc, st) else deflChunks inp f hi m acc st

/-- COMPRESS of one input (R405): the stream and how many chunks were stored. -/
def deflate (inp : List Byte) : List Byte × Nat :=
  let (b, st) := deflChunks inp (inp.length / 32768 + 1) 0 [] [] 0
  (bytesOfBits b, st)

end Sys2Proof.Machine
end

