-- ==== Sys2Proof/Machine/Float.lean ====
section
/-! DEFINITION. IEEE 754 binary32 and binary64 arithmetic on bit patterns: exact values, one rounding at the end,
and the flags of cs_fpctl (R249, R255, R132). -/
namespace Sys2Proof.Machine

/-- A binary format: precision and exponent width. -/
structure Fmt where
  p : Nat
  eb : Nat
  deriving DecidableEq, Repr

def fp32 : Fmt := { p := 24, eb := 8 }
def fp64 : Fmt := { p := 53, eb := 11 }

namespace Fmt
/-- Exponent bias. -/
def bias (f : Fmt) : Nat := 2 ^ (f.eb - 1) - 1
/-- Exponent of the least quantum (that of the subnormals). -/
def qmin (f : Fmt) : Int := 2 - (f.bias : Int) - (f.p : Int)
/-- Exponent of the greatest quantum. -/
def qmax (f : Fmt) : Int := (f.bias : Int) - ((f.p : Int) - 1)
/-- Width in bits. -/
def bits (f : Fmt) : Nat := f.p + f.eb
/-- The exponent field of infinities and NaN. -/
def emaxField (f : Fmt) : Nat := 2 ^ f.eb - 1
end Fmt

/-- Flag bits in the order of cs_fpctl.FLAGS: invalid, divide by zero, overflow, underflow, inexact. -/
def flInvalid : Nat := 16
def flDivZero : Nat := 8
def flOverflow : Nat := 4
def flUnderflow : Nat := 2
def flInexact : Nat := 1

def fpSign (f : Fmt) (x : Nat) : Bool := bitAt x (f.bits - 1)
def fpExp (f : Fmt) (x : Nat) : Nat := x / 2 ^ (f.p - 1) % 2 ^ f.eb
def fpFrac (f : Fmt) (x : Nat) : Nat := x % 2 ^ (f.p - 1)
def fpIsNan (f : Fmt) (x : Nat) : Bool := fpExp f x == f.emaxField && fpFrac f x != 0
/-- A signalling NaN: the top fraction bit is clear. -/
def fpIsSnan (f : Fmt) (x : Nat) : Bool := fpIsNan f x && !bitAt x (f.p - 2)
def fpIsInf (f : Fmt) (x : Nat) : Bool := fpExp f x == f.emaxField && fpFrac f x == 0
def fpIsZero (f : Fmt) (x : Nat) : Bool := fpExp f x == 0 && fpFrac f x == 0

/-- Significand and exponent of a finite value: its magnitude is m · 2^e. -/
def fpMag (f : Fmt) (x : Nat) : Nat × Int :=
  if fpExp f x = 0 then (fpFrac f x, f.qmin)
  else (fpFrac f x + 2 ^ (f.p - 1), (fpExp f x : Int) - 1 + f.qmin)

/-- Sign bit in place. -/
def fpSgn (f : Fmt) (s : Bool) : Nat := if s then 2 ^ (f.bits - 1) else 0
def fpInf (f : Fmt) (s : Bool) : Nat := fpSgn f s + f.emaxField * 2 ^ (f.p - 1)
def fpZero (f : Fmt) (s : Bool) : Nat := fpSgn f s
/-- The greatest finite value. -/
def fpMax (f : Fmt) (s : Bool) : Nat := fpInf f s - 1

/-- A quiet NaN whose sign and payload nothing fixes (log 11). -/
def fpNan (f : Fmt) (a b c : Nat) : Nat :=
  let v := Config.nanChoice a b c
  fpSgn f (bitAt v 63) + f.emaxField * 2 ^ (f.p - 1) + 2 ^ (f.p - 2) + v % 2 ^ (f.p - 2)

/-- Invalid flag when an operand is a signalling NaN. -/
def snanFlag (f : Fmt) (xs : List Nat) : Nat := if xs.any (fpIsSnan f) then flInvalid else 0

/-- Whether a rounding of `q + r/2^k` (0 ≤ r < 2^k) goes up in magnitude. RM: 0 nearest even, 1 toward zero,
2 toward −∞, 3 toward +∞ (Table 08.5). -/
def roundUpMag (rm : Nat) (s : Bool) (q r k : Nat) : Bool :=
  if r = 0 then false
  else if rm = 0 then decide (2 ^ k < 2 * r) || (decide (2 * r = 2 ^ k) && q % 2 == 1)
  else if rm = 2 then s
  else if rm = 3 then !s
  else false

/-- The magnitude m · 2^e (with something strictly between below it when `sticky`) in units of 2^q, rounded;
with whether it was inexact. -/
def roundTo (rm : Nat) (s : Bool) (m : Nat) (e q : Int) : Nat × Bool :=
  if q ≤ e then (m * 2 ^ (e - q).toNat, false)
  else
    let k := (q - e).toNat
    let d := m / 2 ^ k
    let r := m % 2 ^ k
    ((if roundUpMag rm s d r k then d + 1 else d), decide (r ≠ 0))

/-- Rounds the exact magnitude m · 2^e into the format: pattern and flags. -/
def fpRound (f : Fmt) (rm : Nat) (s : Bool) (m : Nat) (e : Int) : Nat × Nat :=
  if m = 0 then (fpZero f s, 0)
  else
    let top : Int := e + (bitLen m : Int)
    let qFree : Int := top - (f.p : Int)
    let q := max qFree f.qmin
    let (d, nx) := roundTo rm s m e q
    let (d, q) := if d = 2 ^ f.p then (2 ^ (f.p - 1), q + 1) else (d, q)
    if f.qmax < q then
      let toInf := rm == 0 || (rm == 2 && s) || (rm == 3 && !s)
      ((if toInf then fpInf f s else fpMax f s), flOverflow + flInexact)
    else
      let (du, _) := roundTo rm s m e qFree
      let emin : Int := f.qmin + (f.p : Int) - 1
      let tinyBefore := decide (top ≤ emin)
      let tinyAfter := tinyBefore && !(decide (du = 2 ^ f.p) && decide (top = emin))
      let tiny := if Config.tinyAfterRounding then tinyAfter else tinyBefore
      let bits :=
        if d < 2 ^ (f.p - 1) then fpSgn f s + d
        else fpSgn f s + ((q - f.qmin).toNat + 1) * 2 ^ (f.p - 1) + (d - 2 ^ (f.p - 1))
      (bits, (if nx then flInexact else 0) + (if nx && tiny then flUnderflow else 0))

/-- Rounds an exact signed integer times 2^e; `zs` is the sign of an exact zero. -/
def fpRoundInt (f : Fmt) (rm : Nat) (zs : Bool) (z e : Int) : Nat × Nat :=
  if z = 0 then (fpZero f zs, 0) else fpRound f rm (decide (z < 0)) z.natAbs e

/-- The signed significand of a finite value at exponent `e0` (at most its own). -/
def fpAt (f : Fmt) (x : Nat) (e0 : Int) : Int :=
  let (m, e) := fpMag f x
  let v : Int := (m * 2 ^ (e - e0).toNat : Nat)
  if fpSign f x then -v else v

/-- Sign of an exact zero sum of operands with signs `a` and `b`. -/
def zeroSign (rm : Nat) (a b : Bool) : Bool := if a == b then a else rm == 2

def fpNeg (f : Fmt) (x : Nat) : Nat :=
  if fpSign f x then x - 2 ^ (f.bits - 1) else x + 2 ^ (f.bits - 1)

def fpAdd (f : Fmt) (rm a b : Nat) : Nat × Nat :=
  if fpIsNan f a || fpIsNan f b then (fpNan f a b 0, snanFlag f [a, b])
  else if fpIsInf f a then
    if fpIsInf f b && fpSign f a != fpSign f b then (fpNan f a b 0, flInvalid) else (a, 0)
  else if fpIsInf f b then (b, 0)
  else
    let e := min (fpMag f a).2 (fpMag f b).2
    fpRoundInt f rm (zeroSign rm (fpSign f a) (fpSign f b)) (fpAt f a e + fpAt f b e) e

def fpSub (f : Fmt) (rm a b : Nat) : Nat × Nat :=
  if fpIsNan f b then (fpNan f a b 1, snanFlag f [a, b]) else fpAdd f rm a (fpNeg f b)

def fpMul (f : Fmt) (rm a b : Nat) : Nat × Nat :=
  let s := fpSign f a != fpSign f b
  if fpIsNan f a || fpIsNan f b then (fpNan f a b 2, snanFlag f [a, b])
  else if (fpIsInf f a && fpIsZero f b) || (fpIsZero f a && fpIsInf f b) then (fpNan f a b 2, flInvalid)
  else if fpIsInf f a || fpIsInf f b then (fpInf f s, 0)
  else fpRound f rm s ((fpMag f a).1 * (fpMag f b).1) ((fpMag f a).2 + (fpMag f b).2)

def fpDiv (f : Fmt) (rm a b : Nat) : Nat × Nat :=
  let s := fpSign f a != fpSign f b
  if fpIsNan f a || fpIsNan f b then (fpNan f a b 3, snanFlag f [a, b])
  else if (fpIsInf f a && fpIsInf f b) || (fpIsZero f a && fpIsZero f b) then (fpNan f a b 3, flInvalid)
  else if fpIsInf f a then (fpInf f s, 0)
  else if fpIsInf f b then (fpZero f s, 0)
  else if fpIsZero f b then (fpInf f s, flDivZero)
  else if fpIsZero f a then (fpZero f s, 0)
  else
    let (ma, ea) := fpMag f a
    let (mb, eb) := fpMag f b
    let k := 2 * f.p + 4
    let n := ma * 2 ^ k
    let j := 2 * (n / mb) + (if n % mb = 0 then 0 else 1)
    fpRound f rm s j (ea - eb - (k : Int) - 1)

/-- Integer square root by bits from the top. -/
def isqrtAux (n : Nat) : Nat → Nat → Nat
  | 0, r => r
  | k + 1, r => isqrtAux n k (if (r + 2 ^ k) * (r + 2 ^ k) ≤ n then r + 2 ^ k else r)

def isqrt (n : Nat) : Nat := isqrtAux n (bitLen n / 2 + 1) 0

def fpSqrt (f : Fmt) (rm a : Nat) : Nat × Nat :=
  if fpIsNan f a then (fpNan f a 0 4, snanFlag f [a])
  else if fpIsZero f a then (a, 0)
  else if fpSign f a then (fpNan f a 0 4, flInvalid)
  else if fpIsInf f a then (a, 0)
  else
    let (m, e) := fpMag f a
    let k := 2 * f.p + 4 + (if (e - ((2 * f.p + 4 : Nat) : Int)) % 2 = 0 then 0 else 1)
    let n := m * 2 ^ k
    let r := isqrt n
    let j := 2 * r + (if r * r = n then 0 else 1)
    fpRound f rm false j ((e - (k : Int)) / 2 - 1)

/-- a × b + c, rounded once (FMADD). -/
def fpFma (f : Fmt) (rm a b c : Nat) : Nat × Nat :=
  let sp := fpSign f a != fpSign f b
  let badProd := (fpIsInf f a && fpIsZero f b) || (fpIsZero f a && fpIsInf f b)
  if badProd then
    (fpNan f a b c, if fpIsNan f c && !fpIsSnan f c && !Config.fmaNanInvalid then 0 else flInvalid)
  else if fpIsNan f a || fpIsNan f b || fpIsNan f c then (fpNan f a b c, snanFlag f [a, b, c])
  else if fpIsInf f a || fpIsInf f b then
    if fpIsInf f c && fpSign f c != sp then (fpNan f a b c, flInvalid) else (fpInf f sp, 0)
  else if fpIsInf f c then (c, 0)
  else
    let m := (fpMag f a).1 * (fpMag f b).1
    let ep := (fpMag f a).2 + (fpMag f b).2
    let e := min ep (fpMag f c).2
    let p : Int := (m * 2 ^ (ep - e).toNat : Nat)
    fpRoundInt f rm (zeroSign rm sp (fpSign f c)) ((if sp then -p else p) + fpAt f c e) e

/-- The rank of a value in the total order of R132: −0 equals +0, every NaN is equal and above +∞. -/
def fpRank (f : Fmt) (x : Nat) : Int :=
  if fpIsNan f x then (2 ^ f.bits : Nat)
  else
    let m : Nat := x % 2 ^ (f.bits - 1)
    if fpSign f x then -(m : Int) else (m : Int)

/-- FMIN in the order of R132. -/
def fpMin (f : Fmt) (a b : Nat) : Nat × Nat :=
  ((if fpRank f a < fpRank f b then a else if fpRank f b < fpRank f a then b
    else if Config.equalPick a b then a else b), snanFlag f [a, b])

/-- FMAX in the order of R132. -/
def fpMaxOf (f : Fmt) (a b : Nat) : Nat × Nat :=
  ((if fpRank f a < fpRank f b then b else if fpRank f b < fpRank f a then a
    else if Config.equalPick a b then a else b), snanFlag f [a, b])

/-- FEQ, FLT, FLE: a NaN operand gives false and the invalid flag (Table 08.9). -/
def fpCompare (f : Fmt) (op : Int → Int → Bool) (a b : Nat) : Bool × Nat :=
  if fpIsNan f a || fpIsNan f b then (false, flInvalid) else (op (fpRank f a) (fpRank f b), 0)

def fpEq (f : Fmt) (a b : Nat) : Bool × Nat := fpCompare f (fun x y => decide (x = y)) a b
def fpLt (f : Fmt) (a b : Nat) : Bool × Nat := fpCompare f (fun x y => decide (x < y)) a b
def fpLe (f : Fmt) (a b : Nat) : Bool × Nat := fpCompare f (fun x y => decide (x ≤ y)) a b

/-- A finite value rounded to an integer under RM, and whether that was inexact. -/
def fpToIntRaw (f : Fmt) (rm x : Nat) : Int × Bool :=
  let (m, e) := fpMag f x
  let (d, nx) := roundTo rm (fpSign f x) m e 0
  ((if fpSign f x then -(d : Int) else (d : Int)), nx)

/-- FCVTL: conversion to INT64 (Table 08.9). -/
def fpToI64 (f : Fmt) (rm x : Nat) : Nat × Nat :=
  if fpIsNan f x || fpIsInf f x then (2 ^ 63, flInvalid)
  else
    let (z, nx) := fpToIntRaw f rm x
    if z < -(2 ^ 63 : Nat) || ((2 ^ 63 : Nat) : Int) ≤ z then (2 ^ 63, flInvalid)
    else (ofSigned 64 z, if nx && Config.convertInexact then flInexact else 0)

/-- FCVTF: conversion from a signed integer. -/
def fpFromInt (f : Fmt) (rm : Nat) (z : Int) : Nat × Nat := fpRoundInt f rm false z 0

/-- Conversion between formats. -/
def fpConvert (f g : Fmt) (rm x : Nat) : Nat × Nat :=
  if fpIsNan f x then (fpNan g x 0 5, snanFlag f [x])
  else if fpIsInf f x then (fpInf g (fpSign f x), 0)
  else fpRound g rm (fpSign f x) (fpMag f x).1 (fpMag f x).2

/-- FP32 widened to FP64; a NaN stays a NaN. -/
def fpWiden (x : Nat) : Nat := (fpConvert fp32 fp64 0 x).1

/-- The truncated remainder of R141, with the dividend's sign. -/
def fpMod (f : Fmt) (a b : Nat) : Nat :=
  if fpIsNan f a || fpIsNan f b || fpIsInf f a || fpIsZero f b then fpNan f a b 6
  else if fpIsInf f b then a
  else
    let e := min (fpMag f a).2 (fpMag f b).2
    let r := (fpAt f a e).natAbs % (fpAt f b e).natAbs
    (fpRound f 0 (fpSign f a) r e).1

/-- The FP64 pattern hashed and searched for: −0 becomes +0 and every NaN one pattern (R115). -/
def fpNormal64 (x : Nat) : Nat :=
  if fpIsNan fp64 x then 0x7FF8000000000000 else if fpIsZero fp64 x then 0 else x

end Sys2Proof.Machine
end

