-- ==== Sys2Proof/Machine/Values.lean ====
section
/-! DEFINITION. Column values: widths, byte forms, order and hash words (Table 03.10, R115, R132). -/
namespace Sys2Proof.Machine

def tyBool : Nat := 0x01
def tyI8 : Nat := 0x02
def tyI16 : Nat := 0x03
def tyI32 : Nat := 0x04
def tyI64 : Nat := 0x05
def tyI128 : Nat := 0x06
def tyDec : Nat := 0x07
def tyF32 : Nat := 0x08
def tyF64 : Nat := 0x09
def tyDate : Nat := 0x0A
def tyTsUs : Nat := 0x0B
def tyTsNs : Nat := 0x0C
def tyVarchar : Nat := 0x0D
def tyVarDict : Nat := 0x0E
def tyFixed : Nat := 0x0F

/-- A type code of Table 03.10. -/
def tyOk (t : Nat) : Bool := decide (1 ≤ t) && decide (t ≤ 15)

/-- BOOL, integers, dates, timestamps and codes: one number. -/
def tyIsInt (t : Nat) : Bool := tyOk t && !(t == tyF32 || t == tyF64 || t == tyVarchar || t == tyFixed)
def tyIsFp (t : Nat) : Bool := t == tyF32 || t == tyF64
def tyIsStr (t : Nat) : Bool := t == tyVarchar || t == tyFixed
/-- INT8 to INT128. -/
def tyIsPlainInt (t : Nat) : Bool := decide (tyI8 ≤ t) && decide (t ≤ tyI128)
/-- Integer types of R138 and R141, dates and timestamps in their integer form. -/
def tyIsArithInt (t : Nat) : Bool := tyIsPlainInt t || t == tyDate || t == tyTsUs || t == tyTsNs

/-- Bytes of a value of a fixed-width type (Table 03.10); 0 for VARCHAR. -/
def tyBytes (t width : Nat) : Nat :=
  match t with
  | 0x01 => 1
  | 0x02 => 1
  | 0x03 => 2
  | 0x04 => 4
  | 0x05 => 8
  | 0x06 => 16
  | 0x07 => 16
  | 0x08 => 4
  | 0x09 => 8
  | 0x0A => 4
  | 0x0B => 8
  | 0x0C => 8
  | 0x0E => 4
  | 0x0F => width
  | _ => 0

/-- Whether the integer form is unsigned: BOOL and VARCHAR_DICT codes. -/
def tyUnsigned (t : Nat) : Bool := t == tyBool || t == tyVarDict

/-- A value from its bytes. -/
def valOfBytes (t : Nat) (b : List Byte) : Val :=
  if tyIsFp t then .fp (leNat b)
  else if tyIsStr t then .str b
  else if tyUnsigned t then .int (leNat b)
  else .int (toSigned (8 * b.length) (leNat b))

/-- The bytes of a value in its form of Table 03.10 (a VARCHAR's own bytes). -/
def valBytes (t width : Nat) (v : Val) : List Byte :=
  match v with
  | .int z => natLe (tyBytes t width) (ofSigned (8 * tyBytes t width) z)
  | .fp x => natLe (tyBytes t width) x
  | .str b => if t = tyFixed then fitTo width b else b

/-- A value's integer; 0 for the others. -/
def Val.asInt : Val → Int
  | .int z => z
  | _ => 0

/-- A value's FP64 pattern, FP32 widened. -/
def Val.asF64 (t : Nat) : Val → Nat
  | .fp x => if t = tyF32 then fpWiden x else x
  | _ => 0

def Val.asStr : Val → List Byte
  | .str b => b
  | _ => []

/-- The order of R132 between two values, each with its type: true when the first is lower. FP32 is
compared as FP64 and integers by value. -/
def valLt (ta tb : Nat) (a b : Val) : Bool :=
  match a, b with
  | .int x, .int y => decide (x < y)
  | .fp _, .fp _ => decide (fpRank fp64 (a.asF64 ta) < fpRank fp64 (b.asF64 tb))
  | .str x, .str y => bytesLt x y
  | _, _ => false

/-- Equality in the order of R132. -/
def valEq (ta tb : Nat) (a b : Val) : Bool := !valLt ta tb a b && !valLt tb ta b a

/-- The hash words of a key (R115). -/
def hashWords (t : Nat) (v : Slot) : List Nat :=
  match v with
  | none => [2 ^ 64 - 1]
  | some (.int z) =>
    if t = tyI128 ∨ t = tyDec then [ofSigned 128 z % 2 ^ 64, ofSigned 128 z / 2 ^ 64] else [ofSigned 64 z]
  | some (.fp x) => [fpNormal64 ((Val.fp x).asF64 t)]
  | some (.str b) => wordsOf b ++ [b.length]

/-- hash64 of a list of typed keys (R115). -/
def hashKeys (ks : List (Nat × Slot)) (seed : Nat) : Nat :=
  hash64 (ks.flatMap (fun p => hashWords p.1 p.2)) seed

/-- Equality of two key values of one type, on values (R115); nulls equal each other. -/
def slotEq (t : Nat) (a b : Slot) : Bool :=
  match a, b with
  | none, none => true
  | some x, some y => valEq t t x y
  | _, _ => false

end Sys2Proof.Machine
end

