-- ==== Sys2Proof/Machine/Ropes.lean ====
section
/-! DEFINITION. The rope layout of Tables 03.11 and 03.12, in both directions. -/
namespace Sys2Proof.Machine

/-- The layout form of a column. -/
def Column.form (c : Column) : ColForm := { ty := c.ty, width := c.width, nullable := c.nullable }

/-- Size of the key vector of a KEY_FORM (Table 03.12). -/
def keyBytes (kf : Nat) : Nat := if kf = 1 then 32768 else if kf = 2 then 65536 else 0

def ropeSelOff : Nat := 64
def ropeKeyOff : Nat := 576
def ropeDirOff (kf : Nat) : Nat := 576 + keyBytes kf
def ropeNullOff (kf : Nat) : Nat := ropeDirOff kf + 512

/-- Size of a column's value area; `strBytes` is the size of a VARCHAR's string bytes. -/
def valueAreaBytes (c : ColForm) (strBytes : Nat) : Nat :=
  if c.ty = tyVarchar then 4 * 4097 + strBytes else 4096 * tyBytes c.ty c.width

/-- Offsets (value area, null bitmap or 0) of the columns, given their forms and string sizes. -/
def ropeDirectory (kf : Nat) (cols : List (ColForm × Nat)) : List (Nat × Nat) × Nat :=
  let nulls := (cols.filter (fun c => c.1.nullable)).length
  let base := ropeNullOff kf + 512 * nulls
  let step := fun (acc : List (Nat × Nat) × Nat × Nat) (c : ColForm × Nat) =>
    let (l, n, v) := acc
    (l ++ [(v, if c.1.nullable then ropeNullOff kf + 512 * n else 0)],
     (if c.1.nullable then n + 1 else n), v + valueAreaBytes c.1 c.2)
  let r := cols.foldl step ([], 0, base)
  (r.1, r.2.2)

/-- Bits packed into 512 bytes. -/
def bitmap512 (f : Nat → Bool) : List Byte :=
  (List.range 512).map (fun i =>
    BitVec.ofNat 8 ((List.range 8).foldl (fun a j => a + (f (8 * i + j)).toNat * 2 ^ j) 0))

/-- Whether slot `i` holds a defined value in a column (R108). -/
def Rope.live (r : Rope) (i : Nat) : Bool := decide (i < r.rows) && r.sel.getD i false

/-- The slot of a column. -/
def Rope.slot (r : Rope) (k i : Nat) : Slot := ((r.cols.getD k []).getD i none)

/-- The tie-break key of a row slot (R107). -/
def Rope.key (r : Rope) (i : Nat) : Nat × Nat :=
  if r.keyForm = 0 then (r.base + i, 0) else r.keys.getD i (0, 0)

/-- The selected rows with their tie-break keys, in slot order. -/
def Rope.liveRows (r : Rope) : List Row :=
  ((List.range r.rows).filter (fun i => r.live i)).map (fun i =>
    { key := r.key i, vals := (List.range r.cols.length).map (fun k => r.slot k i) })

/-- The header of a rope (Table 03.11). -/
def Rope.header (r : Rope) : List Byte :=
  bytesOfWords
    [r.routeId % 2 ^ 32 * 2 ^ 32 + r.stage % 16 * 2 ^ 28 + r.keyForm % 4 * 2 ^ 26 + r.rows % 8192 * 2 ^ 13
       + r.cols.length % 128 * 2 ^ 6,
     r.seq % 2 ^ 48 * 2 ^ 16 + r.srcDevice % 16 * 2 ^ 12 + r.srcRidge % 16 * 2 ^ 8,
     r.base, r.spanPitch, 0, 0, 0, 0]

/-- Whether a slot of a column has a defined value: its row is selected and it is not null (R108). -/
def Rope.valued (r : Rope) (k i : Nat) : Bool := r.live i && (r.slot k i).isSome

/-- Bytes of one value area; undefined slots hold undefined bytes, and an offset that bounds no defined string is
undefined too (R108, log 14). -/
def valueArea (r : Rope) (obj off k : Nat) (c : ColForm) : List Byte :=
  if c.ty = tyVarchar then
    let strs := (List.range 4096).map (fun i =>
      if r.live i then (match r.slot k i with | some (.str b) => b | _ => []) else [])
    let offs := strs.foldl (fun (acc : List Nat × Nat) b => (acc.1 ++ [acc.2 + b.length], acc.2 + b.length))
      ([0], 0)
    offs.1.zipIdx.flatMap (fun o =>
        if r.valued k o.2 || (decide (0 < o.2) && r.valued k (o.2 - 1)) then natLe 4 o.1
        else (List.range 4).map (fun j => Config.undefinedByte obj (off + 4 * o.2 + j)))
      ++ strs.flatMap (fun b => b)
  else
    (List.range 4096).flatMap (fun i =>
      let w := tyBytes c.ty c.width
      match (if r.live i then r.slot k i else none) with
      | some v => valBytes c.ty c.width v
      | none => (List.range w).map (fun j => Config.undefinedByte obj (off + i * w + j)))

/-- String bytes of a VARCHAR column of a rope. -/
def Rope.strBytes (r : Rope) (k : Nat) : Nat :=
  ((List.range r.rows).map (fun i =>
    if r.live i then (match r.slot k i with | some (.str b) => b.length | _ => 0) else 0)).foldl (· + ·) 0

/-- Column forms with their string sizes. -/
def Rope.sized (r : Rope) (cols : List ColForm) : List (ColForm × Nat) :=
  cols.zipIdx.map (fun p => (p.1, if p.1.ty = tyVarchar then r.strBytes p.2 else 0))

/-- Size of a rope in bytes. -/
def Rope.size (r : Rope) (cols : List ColForm) : Nat := (ropeDirectory r.keyForm (r.sized cols)).2

/-- The null bitmap of a column; the bits of slots that are no part of the rope are undefined (R108, log 14). -/
def Rope.nullBits (r : Rope) (obj off k : Nat) : List Byte :=
  bitmap512 (fun i =>
    if r.live i then (r.slot k i).isNone
    else (Config.undefinedByte obj (off + i / 8)).getLsbD (i % 8))

/-- A rope in its byte layout. The areas stand without gaps, a column's directory entry past COLUMN_COUNT is zero
(DESIGN CHOICE, log 65: Table 03.12 gives the order of the areas and the size of each). -/
def Rope.bytes (r : Rope) (obj : Nat) (cols : List ColForm) : List Byte :=
  let dir := (ropeDirectory r.keyForm (r.sized cols)).1
  let keys := (List.range 4096).flatMap (fun i =>
    let b (n j : Nat) : List Byte :=
      if r.live i then natLe 8 n
      else (List.range 8).map (fun q => Config.undefinedByte obj (ropeKeyOff + 16 * i + 8 * j + q))
    if r.keyForm = 1 then b (r.key i).1 0
    else if r.keyForm = 2 then b (r.key i).1 0 ++ b (r.key i).2 1 else [])
  r.header ++ bitmap512 (fun i => r.live i) ++ keys
    ++ fitTo 512 (dir.flatMap (fun d => natLe 8 (d.1 * 2 ^ 32 + d.2)))
    ++ (cols.zipIdx.filter (fun p => p.1.nullable)).flatMap (fun p =>
         r.nullBits obj ((dir.getD p.2 (0, 0)).2) p.2)
    ++ (List.zip cols dir).zipIdx.flatMap (fun p => valueArea r obj p.1.2.1 p.2 p.1.1)

/-- One byte of a rope at an offset, with 0 past its end. -/
def Rope.byteAt (r : Rope) (obj : Nat) (cols : List ColForm) (off : Nat) : Byte :=
  (r.bytes obj cols).getD off 0

/-- Bit `i` of a bitmap at an address. -/
def Memory.bit (m : Memory) (a i : Nat) : Bool := (m.read (a + i / 8)).getLsbD (i % 8)

/-- A little-endian number at an address. -/
def Memory.le (m : Memory) (a n : Nat) : Nat := leNat (m.readN a n)

/-- A slot's value in a byte layout with the given directory entry. -/
def slotOfBytes (m : Memory) (c : ColForm) (dir : Nat × Nat) (i : Nat) : Slot :=
  if c.nullable && m.bit dir.2 i then none
  else if c.ty = tyVarchar then
    let a := m.le (dir.1 + 4 * i) 4
    let b := m.le (dir.1 + 4 * (i + 1)) 4
    some (.str (m.readN (dir.1 + 4 * 4097 + a) (b - a)))
  else some (valOfBytes c.ty (m.readN (dir.1 + i * tyBytes c.ty c.width) (tyBytes c.ty c.width)))

/-- A rope read from its bytes, with the header fields given by the device (R272, R273): the code wrote
selection, keys, null bitmaps and values. Slots at or above `rows` are unselected. -/
def ropeOfBytes (m : Memory) (hdr : Rope) (cols : List (ColForm × Nat)) : Rope :=
  let dir := (ropeDirectory hdr.keyForm cols).1
  let idx := List.range hdr.rows
  { hdr with
    sel := idx.map (fun i => m.bit ropeSelOff i)
    keys := if hdr.keyForm = 1 then idx.map (fun i => (m.le (ropeKeyOff + 8 * i) 8, 0))
      else if hdr.keyForm = 2 then idx.map (fun i => (m.le (ropeKeyOff + 16 * i) 8, m.le (ropeKeyOff + 16 * i + 8) 8))
      else []
    cols := (List.zip cols dir).map (fun p => idx.map (fun i => slotOfBytes m p.1.1 p.2 i)) }

/-- A rope read whole from its bytes, header and directory included (a rope delivered by a peer, R359). -/
def parseRope (m : Memory) (cols : List ColForm) : Rope :=
  let w0 := m.le 0 8
  let w1 := m.le 8 8
  let rows := fld w0 25 13
  let kf := fld w0 27 26
  let idx := List.range rows
  let dir := (List.range (fld w0 12 6)).map (fun k =>
    let w := m.le (ropeDirOff kf + 8 * k) 8
    (w / 2 ^ 32, w % 2 ^ 32))
  { routeId := fld w0 63 32, stage := fld w0 31 28, keyForm := kf, rows := rows, seq := fld w1 63 16
    srcDevice := fld w1 15 12, srcRidge := fld w1 11 8, base := m.le 16 8, spanPitch := m.le 24 8
    sel := idx.map (fun i => m.bit ropeSelOff i)
    keys := if kf = 1 then idx.map (fun i => (m.le (ropeKeyOff + 8 * i) 8, 0))
      else if kf = 2 then idx.map (fun i => (m.le (ropeKeyOff + 16 * i) 8, m.le (ropeKeyOff + 16 * i + 8) 8))
      else []
    cols := (List.zip cols dir).map (fun p => idx.map (fun i => slotOfBytes m p.1 p.2 i)) }

end Sys2Proof.Machine
end

