-- ==== Sys2Proof/Machine/Depot.lean ====
section
/-! DEFINITION. The Depot: handles, tiers, pages, allocation, quotas, spill, zeroing and objects (chapter 07). -/
namespace Sys2Proof.Machine

def kib64 : Nat := 65536
def mib : Nat := 1048576
def mib2 : Nat := 2097152
def gib : Nat := 1073741824
/-- A quota block (R223). -/
def quotaBlock : Nat := 67108864

/-! ## Handles (Table 07.1) -/

def clsRope : Nat := 0
def clsTable : Nat := 1
def clsRun : Nat := 2
def clsScratch : Nat := 3
def clsStaging : Nat := 4
def clsOutput : Nat := 5
def clsShadow : Nat := 6

def hTenant (h : Nat) : Nat := h / 2 ^ 59 % 32
def hCls (h : Nat) : Nat := fld h 58 56
def hObj (h : Nat) : Nat := fld h 55 40
def hOff (h : Nat) : Nat := h % 2 ^ 40

/-- The handle of an offset in a tenant's object. -/
def mkHandle (t c o off : Nat) : Nat := t % 32 * 2 ^ 59 + c % 8 * 2 ^ 56 + o % 65536 * 2 ^ 40 + off % 2 ^ 40

/-- The key of an object among the device's objects. -/
def objKey (t o : Nat) : Nat := t * 65536 + o

/-! ## Classes (Tables 07.2 and 07.3) -/

/-- Page size of a class. -/
def clsPage (c : Nat) : Nat := if c = 1 ∨ c = 2 ∨ c = 5 then mib2 else kib64

/-- Classes that may spill. -/
def clsSpills (c : Nat) : Bool := c == 0 || c == 2

/-- Classes that migrate. -/
def clsMigrates (c : Nat) : Bool := decide (c ≤ 4)

/-- Gang classes (R236). -/
def clsGang (c : Nat) : Bool := c == 1 || c == 2 || c == 3

/-- Tiers tried at allocation, tier 3 apart (Table 07.3). -/
def clsTiers (c : Nat) : List Nat :=
  if c = 1 ∨ c = 3 then [0, 1, 2] else if c = 5 ∨ c = 6 then [1, 2] else [1, 0, 2]

/-! ## Regions and pools (R220) -/

/-- Bytes of populated DDR5 (O:0x5000.2). -/
def State.populated (s : State) : Nat := s.onum 0x5000 2

/-- Bytes of the Depot region in force. -/
def State.regionBytes (s : State) : Nat := s.depot.region * gib

/-- First offset of the Depot region in the slice; image memory lies below it. -/
def State.regionBase (s : State) : Nat := s.populated - s.regionBytes

/-- Bytes of the HBM spare region: 16 MiB of each of the two stacks (R445). -/
def hbmSpare : Nat := 2 * 16 * mib

/-- Bytes of the tier 0 pool. -/
def State.tier0Pool (s : State) : Nat := 48 * gib - s.onum 0x2002 1 * mib - hbmSpare

/-- The spare area at the top of the first stack, which lies within the offsets of the pool. -/
def hbmSpare0 : Nat × Nat := (24 * gib - 16 * mib, 16 * mib)

/-- The end of the tier 0 pool; the journal follows it (log 15). -/
def State.tier0Top (s : State) : Nat := s.tier0Pool + 16 * mib

/-- The offsets of a tier's pool: tier 0 from HBM offset 0 (log 15), tier 1 the region. -/
def State.tierRange (s : State) (t : Nat) : Nat × Nat :=
  if t = 0 then (0, s.tier0Top) else (s.regionBase, s.populated)

/-- Address intervals of a tier that are taken: pages, migration destinations, retired pages. -/
def State.taken (s : State) (t : Nat) : List (Nat × Nat) :=
  ((s.depot.pages.filter (fun p => p.2.tier == t)).map (fun p => (p.2.addr, p.2.size)))
  ++ (s.depot.migrations.filter (fun m => m.toTier == t)).map (fun m =>
       (m.toAddr, ((s.depot.pages.find m.page).map (fun p => p.size)).getD 0))
  ++ (if t = 0 then hbmSpare0 :: (s.depot.retiredPages.filter (fun a => decide (a < s.tier0Top))).map (fun a => (a, kib64)) else [])

/-- Free bytes of a tier. -/
def State.tierFree (s : State) (t : Nat) : Nat :=
  let r := s.tierRange t
  r.2 - r.1 - sumNat ((s.taken t).map (fun p => p.2))

/-- The lowest aligned address of `size` bytes in `[lo, hi)` outside the intervals, sorted by address. -/
def firstFit (lo hi size : Nat) : List (Nat × Nat) → Option Nat
  | [] => if roundUp lo size + size ≤ hi then some (roundUp lo size) else none
  | (a, n) :: l =>
    if roundUp lo size + size ≤ a ∧ roundUp lo size + size ≤ hi then some (roundUp lo size)
    else firstFit (max lo (a + n)) hi size l

/-- Intervals that two address ranges share. -/
def overlaps (a n b m : Nat) : Bool := decide (a < b + m) && decide (b < a + n)

/-- A page of a tier outside what is taken and, when `zeroed`, outside what waits for the zeroing engine. -/
def State.fitPage (s : State) (t size : Nat) (zeroed : Bool) : Option Nat :=
  let busy := s.taken t ++ (if zeroed then
    (s.depot.zeroQueue.filter (fun z => z.tier == t)).map (fun z => (z.addr, z.size)) else [])
  let r := s.tierRange t
  firstFit r.1 r.2 size (sortBy (fun x y => decide (x.1 < y.1)) busy)

/-- TIER0_POOL without the pages that have been retired (R445). -/
def State.tier0Live (s : State) : Nat :=
  s.tier0Pool - kib64 * (s.depot.retiredPages.filter (fun a => decide (a < s.tier0Top))).length

/-- Whether tier 0 stays above its low-water level when a page is taken (R218). -/
def State.aboveLowWater (s : State) (size : Nat) : Bool :=
  decide (s.onum 0x4001 3 * s.tier0Live < 100 * (s.tierFree 0 - size))

/-- Whether the tier 0 pool is below its low-water level (R233). -/
def State.belowLowWater (s : State) : Bool :=
  decide (100 * s.tierFree 0 < s.onum 0x4001 3 * s.tier0Live)

/-! ## Use and quota (R222, R223) -/

/-- Pages of a tenant. -/
def State.tenantPages (s : State) (t : Nat) : List Page :=
  (s.depot.pages.map (fun p => p.2)).filter (fun p => p.obj / 65536 == t)

/-- Whether a page's bytes are charged on this device: its route's home is here, or it has no route. -/
def State.chargedHere (s : State) (k : Option RouteKey) : Bool :=
  match k with
  | some k => k.home == s.sys.deviceId
  | none => true

/-- Whether a page is one that a peer has been granted and charges itself (R218). -/
def State.forPeer (s : State) (p : Page) : Bool := s.link.inbound.any (fun x => x.obj == p.obj)

/-- DEPOT_USED: bytes of the tenant's pages in tiers 0 to 2 charged here, with what participants drew. -/
def State.depotUsed (s : State) (t : Nat) : Nat :=
  sumNat (((s.tenantPages t).filter (fun p => decide (p.tier ≤ 2) && s.chargedHere p.key && !s.forPeer p)).map
      (fun p => p.size))
    + quotaBlock * (s.depot.lent.find t).getD 0

/-- Bytes this device holds as participant for a tenant's routes homed on `home`. -/
def State.drawnUse (s : State) (t home : Nat) : Nat :=
  sumNat (((s.tenantPages t).filter (fun p => decide (p.tier ≤ 2)
    && (p.key.map (fun k => k.home)) == some home && !s.forPeer p)).map (fun p => p.size))

def drawKey (t home : Nat) : Nat := t * 16 + home

/-- DEPOT_QUOTA: the tenant's quota, at most its ceiling (R222, Table 07.6). -/
def State.depotQuota (s : State) (t : Nat) : Nat := min (s.onum (tobj 0x9020 t) 2) (s.onum (tobj 0x9020 t) 1)

/-- Bytes of quota that a page can be charged against. -/
def State.quotaLeft (s : State) (t : Nat) (k : Option RouteKey) : Nat :=
  if s.chargedHere k then s.depotQuota t - s.depotUsed t
  else
    let home := (k.map (fun k => k.home)).getD 0
    quotaBlock * (s.depot.drawn.find (drawKey t home)).getD 0 - s.drawnUse t home

/-- SPILL_USED and SPILL_GRANTED. -/
def State.spillUsed (s : State) (t : Nat) : Nat :=
  sumNat (((s.tenantPages t).filter (fun p => p.tier == 3)).map (fun p => p.size))
def State.spillGranted (s : State) (t : Nat) : Nat :=
  sumNat ((s.depot.spills.filter (fun r => r.tenant == t)).map (fun r => r.len))

/-- The lowest free address of the lowest granted range (R227). -/
def State.fitSpill (s : State) (t size : Nat) : Option Nat :=
  let ranges := sortBy (fun a b => decide (a.addr < b.addr)) (s.depot.spills.filter (fun r => r.tenant == t))
  let busy := sortBy (fun (x y : Nat × Nat) => decide (x.1 < y.1))
    (((s.tenantPages t).filter (fun p => p.tier == 3)).map (fun p => (p.addr, p.size)))
  ranges.findSome? (fun r =>
    firstFit r.addr (r.addr + r.len) size (busy.filter (fun b => overlaps b.1 b.2 r.addr r.len)))

/-! ## Taking a page -/

/-- Why an allocation fails (R229). -/
def causeQuota : Nat := 0
def causeRegion : Nat := 1
def causeMap : Nat := 2

inductive PageAns where
  | page (tier addr : Nat)
  | ask (m : Asked) (svc : SvcMsg)
  | waiting
  | fail (cause : Nat)
  deriving DecidableEq, Repr

/-- Hops between two devices of the hypercube. -/
def hops (a b : Nat) : Nat := popCount 4 (a ^^^ b)

/-- The peer whose Depot region is tier 2: fewest hops, then lowest device ID (R218). -/
def State.tier2Peer (s : State) : Option Nat :=
  let peers := (List.range s.sys.deviceCount).filter (fun d => d != s.sys.deviceId && !s.coh.dead.contains d)
  (sortBy (fun a b => decide (hops s.sys.deviceId a < hops s.sys.deviceId b)) peers).head?

/-- The first local tier of the order with a zeroed page; tier 2 stops the search with `none` as its address
until a peer's page is at hand. -/
def State.tryTiers (s : State) (cls size : Nat) : List Nat → Option (Nat × Option Nat)
  | [] => none
  | t :: l =>
    if t = 2 then (if s.tier2Peer.isSome then some (2, none) else s.tryTiers cls size l)
    else if t = 0 && !s.aboveLowWater size then s.tryTiers cls size l
    else
      match s.fitPage t size true with
      | some a => some (t, some a)
      | none => s.tryTiers cls size l

/-- Whether a local tier that an allocation may use has a free page, cleared or not (R219). -/
def State.tryWaiting (s : State) (cls size : Nat) : Bool :=
  (clsTiers cls).any (fun t => t != 2 && !(t == 0 && !s.aboveLowWater size) && (s.fitPage t size false).isSome)

/-- The answer of a peer for tier 2 that waits to be used. -/
def State.grantedFor (s : State) (t route cls : Nat) : Option Granted :=
  s.depot.granted.find? (fun g => g.tenant == t && g.route == route && g.cls == cls)

/-- Whether a request of this kind is open at a peer. -/
def State.askOpen (s : State) (op t route cls : Nat) : Bool :=
  s.link.asked.any (fun a => a.op == op && a.tenant == t && a.route == route && a.cls == cls && a.outId.isNone)

/-- Tier 3 for a class that may spill, when the route's home is here (R227). -/
def State.spillFor (s : State) (t cls : Nat) (k : Option RouteKey) : Option Nat :=
  if clsSpills cls && s.chargedHere k then s.fitSpill t (clsPage cls) else none

/-- The marker of an allocation that waits for the zeroing engine of this device (R219). -/
def opZeroWait : Nat := 0

/-- No tier has a cleared page: the allocation waits where free pages are still to be cleared, else it spills, else it
fails with cause REGION (R219, R227, R229). -/
def State.lateChoice (s : State) (t cls : Nat) (k : Option RouteKey) : PageAns :=
  let route := (k.map (fun k => k.id)).getD 0
  if s.tryWaiting cls (clsPage cls) then
    if s.askOpen opZeroWait t route cls then .waiting
    else .ask { device := s.sys.deviceId, op := opZeroWait, tenant := t, route := route, cls := cls, outId := none }
      { op := opZeroWait, source := s.sys.deviceId, dest := s.sys.deviceId, tenant := t, route := route }
  else
    match s.spillFor t cls k with
    | some a => .page 3 a
    | none => .fail causeRegion

/-- A page that the tenant's quota does not cover: a participant draws quota from the home, and what cannot be covered
spills or fails with cause QUOTA (R223, R227, R229). -/
def State.quotaChoice (s : State) (t cls : Nat) (k : Option RouteKey) : PageAns :=
  let size := clsPage cls
  let route := (k.map (fun k => k.id)).getD 0
  if s.chargedHere k then
    match s.spillFor t cls k with
    | some a => .page 3 a
    | none => .fail causeQuota
  else if s.askOpen 0xC4 t route 0 then .waiting
  else
    match s.depot.granted.find? (fun g => g.cls == 8 && g.tenant == t && g.route == route) with
    | some _ => .fail causeQuota
    | none =>
      let home := (k.map (fun k => k.home)).getD 0
      let blocks := ceilDiv (size - s.quotaLeft t k) quotaBlock
      .ask { device := home, op := 0xC4, tenant := t, route := route, cls := 0, outId := none }
        { op := 0xC4, source := s.sys.deviceId, dest := home, tenant := t, route := route, arg := blocks }

/-- Where the next page of a class comes from (R218, R227, R229). -/
def State.choosePage (s : State) (t cls : Nat) (k : Option RouteKey) : PageAns :=
  let size := clsPage cls
  let route := (k.map (fun k => k.id)).getD 0
  if 8388608 ≤ s.depot.pages.length then .fail causeMap
  else if s.quotaLeft t k < size then s.quotaChoice t cls k
  else
    match s.tryTiers cls size (clsTiers cls) with
    | some (tier, some a) => .page tier a
    | some (_, none) =>
      match s.grantedFor t route cls with
      | some g => if g.line = 0 then s.lateChoice t cls k else .page 2 g.line
      | none =>
        if s.askOpen 0xC2 t route cls then .waiting
        else
          let d := s.tier2Peer.getD 0
          .ask { device := d, op := 0xC2, tenant := t, route := route, cls := cls, outId := none }
            { op := 0xC2, source := s.sys.deviceId, dest := d, tenant := t, route := route
              arg := cls * 2 ^ 61 }
    | none => s.lateChoice t cls k

/-- What a route's task asked for is over, with its pages or without: the peers' refusals and the waits for the zeroing
engine that its allocations of some classes met are forgotten. Until then each keeps what it was answered, as the task starts
again from its beginning. -/
def State.settleAsk (s : State) (t route : Nat) (cls : Nat → Bool) : State :=
  { s with
    depot := { s.depot with granted := s.depot.granted.filter (fun g =>
      !(g.tenant == t && g.route == route && cls g.cls && g.cls != 8 && g.line == 0)) }
    link := { s.link with asked := s.link.asked.filter (fun a =>
      !(a.op == opZeroWait && a.tenant == t && a.route == route && cls a.cls)) } }

/-- Takes a page out of its pool; a peer's page is used up, and so is the refusal that a page of host memory follows. -/
def State.usePage (s : State) (t cls tier addr : Nat) (k : Option RouteKey) : State :=
  let route := (k.map (fun k => k.id)).getD 0
  let used : Option Nat := if tier = 2 then some addr else if tier = 3 ∧ clsPage cls ≤ s.quotaLeft t k then some 0 else none
  let s := match used with
    | some line =>
      let g : Granted := { device := s.tier2Peer.getD 0, tenant := t, route := route, cls := cls, line := line }
      { s with depot := { s.depot with granted := s.depot.granted.erase g } }
    | none => s
  if tier = 3 then s.oinc 0x4002 4 1 else s

/-! ## Objects -/

/-- Numbers of a tenant's objects. -/
def State.objNumbers (s : State) (t : Nat) : List Nat :=
  (s.depot.objects.filter (fun p => p.1 / 65536 == t)).map (fun p => p.1 % 65536)

/-- The lowest free number of a rising list (log 15). -/
def lowestFree (n : Nat) : List Nat → Nat
  | [] => n
  | x :: l => if n < x then n else lowestFree (max n (x + 1)) l

/-- OUTPUT objects of a tenant; the new region of a publication is none. -/
def State.outputsOpen (s : State) (t : Nat) : Nat :=
  (s.depot.objects.filter (fun p => p.1 / 65536 == t && p.2.cls == clsOutput && !p.2.hidden)).length

/-- Whether the map has room for one more object (R221). -/
def State.objRoom (s : State) (t cls : Nat) : Bool :=
  decide (s.depot.objects.length < 262144) && decide ((s.objNumbers t).length < 65536)
    && (cls != clsOutput || decide (s.outputsOpen t < 4096))

def State.dobj? (s : State) (o : Nat) : Option DObj := s.depot.objects.find o

def State.putObj (s : State) (o : Nat) (d : DObj) : State :=
  { s with depot := { s.depot with objects := s.depot.objects.put o d } }

/-- Notes a new object with its route's open span (R59). -/
def State.noteAllocated (s : State) (k : Option RouteKey) (o : Nat) : State :=
  match k with
  | none => s
  | some k => s.updRoute k (fun r => { r with span := r.span.map (fun sp => { sp with allocated := sp.allocated ++ [o] }) })

/-- The opening pitch of the span that allocates, 0 without one. -/
def State.openPitchOf (s : State) (k : Option RouteKey) : Nat :=
  match k with
  | none => 0
  | some k => ((s.route? k).bind (fun r => r.span.map (fun sp => sp.openPitch))).getD 0

/-- A new object without pages: its key, or none when the map is full. -/
def State.newObj (s : State) (t cls ridge : Nat) (k : Option RouteKey) (c : Content) (forms : List ColForm) :
    Option (Nat × State) :=
  if s.objRoom t cls then
    let o := objKey t (lowestFree 0 (s.objNumbers t))
    some (o, (s.putObj o { cls := cls, key := k, ridge := ridge, pages := [], content := c, forms := forms
                           dying := false }).noteAllocated k o)
  else none

/-- Adds a page to an object. -/
def State.addPage (s : State) (o index : Nat) (d : DObj) (tier addr : Nat) : State :=
  let s := s.usePage (o / 65536) d.cls tier addr d.key
  let id := s.depot.nextPage
  { s with depot := { s.depot with
    nextPage := id + 1
    pages := s.depot.pages.put id
      { obj := o, index := index, tier := tier, addr := addr, size := clsPage d.cls
        spanPitch := s.openPitchOf d.key, key := d.key, pdMark := 0, pdLines := [] }
    objects := s.depot.objects.put o { d with pages := d.pages ++ [id] } } }

/-- What an allocation answers: the state with it, a state that asked a peer, or a failure with its cause and
class (R229). -/
inductive Alloc where
  | ok (s : State)
  | wait (ask : Option (Asked × SvcMsg))
  | fail (cause cls : Nat) (s : State)

/-- The page of an object at an index. -/
def State.pageAt (s : State) (d : DObj) (index : Nat) : Option (Nat × Page) :=
  d.pages.findSome? (fun id => (s.depot.pages.find id).bind (fun p =>
    if p.index = index then some (id, p) else none))

/-- Makes sure that an object has its page of an index. -/
def State.ensurePage (s : State) (o index : Nat) : Alloc :=
  match s.dobj? o with
  | none => .ok s
  | some d =>
    if (s.pageAt d index).isSome then .ok s
    else
      match s.choosePage (o / 65536) d.cls d.key with
      | .page tier addr => .ok (s.addPage o index d tier addr)
      | .ask a m => .wait (some (a, m))
      | .waiting => .wait none
      | .fail cause => .fail cause d.cls s

/-- Pages `index` to `index + n - 1` of an object, in order. -/
def State.ensurePages (s : State) (o index : Nat) : Nat → Alloc
  | 0 => .ok s
  | n + 1 =>
    match s.ensurePage o index with
    | .ok s' => s'.ensurePages o (index + 1) n
    | a => a

/-- Makes sure that an object has pages for `n` bytes. -/
def State.ensureBytes (s : State) (o n : Nat) : Alloc :=
  match s.dobj? o with
  | none => .ok s
  | some d => s.ensurePages o 0 (ceilDiv n (clsPage d.cls))

/-- Whether a running engine entry reads an object through its handle (R400). -/
def State.engineReads (s : State) (o : Nat) : Bool :=
  s.eng.chans.any (fun p => match p.2.current with
    | some x => x.src.any (fun e => e.1 == 2 && objKey (hTenant e.2.1) (hObj e.2.1) == o)
    | none => false)

/-- An object index out of reach, given to a page that has left its object and is still read. -/
def heldIndex (i : Nat) : Nat := i % 2 ^ 40 + 2 ^ 40

/-- Frees a page: it goes to the zeroing engine, a page at a peer or in host memory just leaves the map; one that an
engine entry still reads waits for that entry (R400). -/
def State.freePage (s : State) (id : Nat) : State :=
  match s.depot.pages.find id with
  | none => s
  | some p =>
    if s.engineReads p.obj then
      { s with depot := { s.depot with
        pages := s.depot.pages.put id { p with index := heldIndex p.index, key := none }
        held := s.depot.held ++ [id] } }
    else
      let migs := s.depot.migrations.filter (fun m => m.page == id)
      let back := (if p.tier ≤ 1 then [{ tier := p.tier, addr := p.addr, size := p.size : ZeroEnt }] else [])
        ++ migs.map (fun m => { tier := m.toTier, addr := m.toAddr, size := p.size })
      let s := { s with depot := { s.depot with
        pages := s.depot.pages.del id
        access := s.depot.access.del id
        migrations := s.depot.migrations.filter (fun m => m.page != id)
        zeroQueue := s.depot.zeroQueue ++ back } }
      s.oinc 0x4002 3 migs.length

/-- Pages that no engine entry reads any more go (R400). -/
def State.releaseHeld (s : State) : State :=
  s.depot.held.foldl State.freePage { s with depot := { s.depot with held := [] } }

/-- Frees an object and its pages. -/
def State.freeObj (s : State) (o : Nat) : State :=
  match s.dobj? o with
  | none => s
  | some d =>
    let s := d.pages.foldl State.freePage s
    { s with
      depot := { s.depot with objects := s.depot.objects.del o }
      link := { s.link with inbound := s.link.inbound.filter (fun x => x.obj != o) } }

/-- Whether a route's span is open and the object was allocated within it (R59). -/
def Route.allocatedInSpan (r : Route) (o : Nat) : Bool :=
  match r.span with
  | some sp => sp.allocated.contains o
  | none => false

/-- Frees an object of a route: within a span it stays intact until the belay (R59, R222). -/
def State.releaseObj (s : State) (k : RouteKey) (o : Nat) : State :=
  match s.route? k with
  | none => s.freeObj o
  | some r =>
    match r.span with
    | none => s.freeObj o
    | some _ =>
      match s.dobj? o with
      | none => s
      | some d =>
        (s.putObj o { d with dying := true }).updRoute k (fun r =>
          { r with span := r.span.map (fun sp => { sp with freed := sp.freed ++ [o] }) })

/-- Objects of a route on this device. -/
def State.routeObjs (s : State) (k : RouteKey) : List Nat :=
  (s.depot.objects.filter (fun p => p.2.key == some k)).map (fun p => p.1)

/-- At a belay: what the span freed goes (R64), and what it allocated stays. -/
def State.depotBelay (s : State) (k : RouteKey) : State :=
  match (s.route? k).bind (fun r => r.span) with
  | none => s
  | some sp => sp.freed.foldl State.freeObj s

/-- At a replay: pages allocated within the span are freed and what it freed lives on (R65 step 3, R59). -/
def State.depotReplay (s : State) (k : RouteKey) : State :=
  match (s.route? k).bind (fun r => r.span) with
  | none => s
  | some sp =>
    let s := sp.allocated.foldl State.freeObj s
    let grown := (s.depot.pages.filter (fun p => p.2.key == some k && p.2.spanPitch == sp.openPitch)).map
      (fun p => p.1)
    let s := grown.foldl State.freePage s
    { s with depot := { s.depot with objects := s.depot.objects.map (fun p =>
        (p.1, if p.2.key == some k then
          { p.2 with dying := false, pages := p.2.pages.filter (fun id => !grown.contains id) } else p.2)) } }

/-- Bytes a span has allocated in each class, with a failed page in its own class (R229). -/
def State.footprint (s : State) (k : RouteKey) (failedCls : Nat) : List Nat :=
  let pitch := s.openPitchOf (some k)
  (List.range 7).map (fun c =>
    sumNat ((s.depot.pages.filter (fun p => p.2.key == some k && p.2.spanPitch == pitch
      && ((s.dobj? p.2.obj).map (fun d => d.cls)) == some c)).map (fun p => p.2.size))
    + if c = failedCls then clsPage c else 0)

/-! ## Reading and writing objects by offset -/

/-- The bytes of an object: a rope in its layout, or bytes by offset. -/
def DObj.readN (d : DObj) (o off n : Nat) : List Byte :=
  match d.content with
  | .rope r => sliceB (r.bytes o d.forms) off n
  | .bytes m => m.readN off n
  | .code m _ => m.readN off n

/-- Writes bytes of an object that holds bytes; a rope takes the write as the rope its new bytes spell. -/
def DObj.writeN (d : DObj) (o off : Nat) (bs : List Byte) : DObj :=
  match d.content with
  | .bytes m => { d with content := .bytes (m.writeN off bs) }
  | .rope r =>
    let m : Memory := Memory.writeN [] 0 (overlay (r.bytes o d.forms) off bs)
    { d with content := .rope (parseRope m d.forms) }
  | .code m _ => { d with content := .code (m.writeN off bs) (parseRope (m.writeN off bs) d.forms) }

/-- Bytes that an object's pages cover, up to its last page (R216). -/
def State.objSpan (s : State) (d : DObj) : Nat :=
  d.pages.foldl (fun a id => match s.depot.pages.find id with
    | some p => max a ((p.index + 1) * p.size)
    | none => a) 0

/-- The object and class a handle names, when the handle is valid for a tenant (R216). -/
def State.handleObj (s : State) (h tenant : Nat) : Option (Nat × DObj) :=
  if hTenant h != tenant then none
  else
    match s.dobj? (objKey (hTenant h) (hObj h)) with
    | some d => if d.cls = hCls h ∧ d.hidden = false then some (objKey (hTenant h) (hObj h), d) else none
    | none => none

/-- The handle of an object. -/
def DObj.handle (d : DObj) (o : Nat) : Nat := mkHandle (o / 65536) d.cls (o % 65536) 0

/-! ## GRANT_DEPOT (Table 07.4) -/

/-- SPILL range overlap (R225). -/
def State.spillOverlap (s : State) (t a n : Nat) : Bool :=
  s.depot.spills.any (fun r => r.tenant == t && overlaps r.addr r.len a n)

/-- An open route of this device that names an output handle (R226). -/
def State.handleOpen (s : State) (h : Nat) : Bool :=
  s.routes.any (fun r => r.desc.outputHandle == h && r.key.home == s.sys.deviceId)

/-- SET_QUOTA. -/
def State.setQuota (s : State) (t arg0 arg1 : Nat) : Except Nat State :=
  let faults := (if arg0 % mib2 ≠ 0 ∨ arg1 ≠ 0 then [stDescMalformed] else [])
    ++ (if s.onum (tobj 0x9020 t) 1 < arg0 then [stQuotaCeiling] else [])
  if !faults.isEmpty then .error (pickStatus faults) else .ok (s.oset (tobj 0x9020 t) 2 arg0)

/-- GRANT_SPILL. -/
def State.grantSpill (s : State) (t arg0 arg1 : Nat) : Except Nat State :=
  let faults := (if arg0 % mib2 ≠ 0 ∨ arg1 % mib2 ≠ 0 ∨ arg1 = 0 ∨ bitAt arg0 63 = false then [stDescMalformed] else [])
    ++ (if 16 ≤ (s.depot.spills.filter (fun r => r.tenant == t)).length ∨ s.spillOverlap t arg0 arg1 = true
        then [stDepotFull] else [])
  if !faults.isEmpty then .error (pickStatus faults)
  else .ok { s with depot := { s.depot with
    spills := s.depot.spills ++ [{ tenant := t, addr := arg0, len := arg1 }] } }

/-- REVOKE_SPILL. -/
def State.revokeSpill (s : State) (t arg0 arg1 : Nat) : Except Nat State :=
  match s.depot.spills.find? (fun r => r.tenant == t && r.addr == arg0) with
  | none => .error stDescMalformed
  | some r =>
    let faults := (if arg1 ≠ 0 then [stDescMalformed] else [])
      ++ (if (s.tenantPages t).any (fun p => p.tier == 3 && overlaps p.addr p.size r.addr r.len) then [stHandleBusy] else [])
    if !faults.isEmpty then .error (pickStatus faults)
    else .ok { s with depot := { s.depot with spills := s.depot.spills.erase r } }

/-- OPEN_OUTPUT: the handle of an empty OUTPUT object. -/
def State.openOutput (s : State) (t arg0 arg1 : Nat) : Except Nat (Nat × State) :=
  match s.newObj t clsOutput 0 none (.bytes []) [] with
  | none => .error (pickStatus (stDepotFull :: if arg0 ≠ 0 ∨ arg1 ≠ 0 then [stDescMalformed] else []))
  | some (o, s) =>
    if arg0 ≠ 0 ∨ arg1 ≠ 0 then .error stDescMalformed else .ok (mkHandle t clsOutput (o % 65536) 0, s)

/-- CLOSE_OUTPUT. -/
def State.closeOutput (s : State) (t arg0 arg1 : Nat) : Except Nat State :=
  match s.handleObj arg0 t with
  | none => .error stDescMalformed
  | some (o, d) =>
    let faults := (if arg1 ≠ 0 ∨ d.cls ≠ clsOutput ∨ hOff arg0 ≠ 0 then [stDescMalformed] else [])
      ++ (if s.handleOpen arg0 then [stHandleBusy] else [])
    if !faults.isEmpty then .error (pickStatus faults) else .ok (s.freeObj o)

/-! ## Zeroing, migration (R219, R233, R234) -/

/-- The zeroing engine writes every line of the oldest page in full, which clears their markers, and returns the page to its
pool (R219, R332). -/
def State.zeroDone (s : State) : State :=
  match s.depot.zeroQueue with
  | [] => s
  | z :: rest =>
    let base := s.sys.deviceId * 2 ^ 44 + (if z.tier = 0 then 2 ^ 43 else 0) + z.addr
    let outside (l : Nat) : Bool := decide (l < base) || decide (base + z.size ≤ l)
    { s with
      depot := { s.depot with zeroQueue := rest }
      dram := { s.dram with
        poisoned := s.dram.poisoned.filter (fun p => outside p.1)
        raw := s.dram.raw.filter (fun p => outside (p.1 % 2 ^ 48))
        noted := s.dram.noted.filter (fun p => outside (p.1 % 2 ^ 48)) } }

/-- Whether a page may be a migration candidate: a class that migrates in tier 0 or 1, no pitch-dirty line, not
allocated in an open span, not migrating yet. -/
def State.migCandidate (s : State) (id : Nat) (p : Page) : Bool :=
  let cls := ((s.dobj? p.obj).map (fun d => d.cls)).getD 7
  decide (p.tier ≤ 1) && clsMigrates cls && p.pdLines.isEmpty
    && !(s.depot.migrations.any (fun m => m.page == id))
    && (match p.key with
        | none => true
        | some k => match (s.route? k).bind (fun r => r.span) with
          | some sp => sp.openPitch != p.spanPitch
          | none => true)

/-- The handle of a page, for ties. -/
def State.pageHandle (s : State) (p : Page) : Nat :=
  mkHandle (p.obj / 65536) (((s.dobj? p.obj).map (fun d => d.cls)).getD 7) (p.obj % 65536) (p.index * p.size)

def State.accesses (s : State) (id : Nat) : Nat := (s.depot.access.find id).getD 0

/-- Starts a migration of a page when the destination tier has a zeroed page and the budget covers it. -/
def State.startMigration (s : State) (toTier : Nat) (budget : Nat) (id : Nat) : State × Nat :=
  match s.depot.pages.find id with
  | none => (s, budget)
  | some p =>
    if budget < p.size then (s, budget)
    else
      match s.fitPage toTier p.size true with
      | none => (s, budget)
      | some a =>
        ({ s with depot := { s.depot with migrations := s.depot.migrations ++
            [{ page := id, toTier := toTier, toAddr := a, changed := [], live := false, copied := false, ended := false, due := false
               tries := 0 }] } }, budget - p.size)

/-- Pages of retired HBM migrate to tier 1 whatever MIGRATE_EN and MIGRATE_BUDGET hold (R445). -/
def State.moveRetired (s : State) : State :=
  if s.depot.retiredPages.isEmpty then s
  else
    (s.depot.pages.filter (fun p => p.2.tier == 0 && !(s.depot.migrations.any (fun m => m.page == p.1))
      && s.depot.retiredPages.any (fun a => overlaps a kib64 p.2.addr p.2.size))).foldl
      (fun s p => (s.startMigration 1 p.2.size p.1).1) s

/-- The room of tier 0 once the pages on their way out have left it. -/
def State.freeAhead (s : State) : Nat :=
  s.tierFree 0 + sumNat ((s.depot.migrations.filter (fun m => m.toTier == 1)).map (fun m =>
    ((s.depot.pages.find m.page).map (fun p => p.size)).getD 0))

/-- A candidate of tier 0 goes down while the room left is below LOW_FREE. -/
def demoteStep (acc : State × Nat) (p : Nat × Page) : State × Nat :=
  if 100 * acc.1.freeAhead < acc.1.onum 0x4001 3 * acc.1.tier0Live then acc.1.startMigration 1 acc.2 p.1 else acc

/-- The candidates in order: out of tier 0, then into it, while the budget lasts. -/
def State.migrateEach (s : State) (low high : List (Nat × Page)) (budget : Nat) : State :=
  (high.foldl (fun acc p => acc.1.startMigration 0 acc.2 p.1)
    (low.foldl demoteStep (s, budget))).1

/-- The access counts start again. -/
def State.clearAccess (s : State) : State := { s with depot := { s.depot with access := [] } }

/-- The choice of migrations at a belay (R233); the counters are then cleared. -/
def State.chooseMigrations (s : State) : State :=
  let s := s.moveRetired
  if !s.oflag 0x4001 5 then s.clearAccess
  else
    let cands := s.depot.pages.filter (fun p => s.migCandidate p.1 p.2)
    let low := sortBy (fun a b => decide (s.accesses a.1 < s.accesses b.1
        ∨ (s.accesses a.1 = s.accesses b.1 ∧ s.pageHandle a.2 < s.pageHandle b.2)))
      (cands.filter (fun p => p.2.tier == 0 && decide (s.accesses p.1 < s.onum 0x4001 2)))
    let high := sortBy (fun a b => decide (s.accesses b.1 < s.accesses a.1
        ∨ (s.accesses a.1 = s.accesses b.1 ∧ s.pageHandle a.2 < s.pageHandle b.2)))
      (cands.filter (fun p => p.2.tier == 1 && decide (s.onum 0x4001 1 ≤ s.accesses p.1)))
    (s.migrateEach low high (s.onum 0x4001 4 * mib)).clearAccess

/-- The copy of a migrating page ends. -/
def State.migrationCopied (s : State) (page : Nat) : State :=
  { s with depot := { s.depot with migrations := s.depot.migrations.map (fun m =>
      if m.page = page then { m with copied := true } else m) } }

/-- The new page is given back and the map stays (R234). -/
def State.abandonMigration (s : State) (page : Nat) : State :=
  match s.depot.migrations.find? (fun m => m.page == page) with
  | none => s
  | some m =>
    let size := ((s.depot.pages.find page).map (fun p => p.size)).getD 0
    let s := { s with depot := { s.depot with
      migrations := s.depot.migrations.filter (fun m => m.page != page)
      zeroQueue := s.depot.zeroQueue ++ [({ tier := m.toTier, addr := m.toAddr, size := size } : ZeroEnt)] } }
    s.oinc 0x4002 3 1

/-- A migration notes that a span has written a line of its page, or that a replay has restored it (R234 step 3). -/
def Migration.mark (m : Migration) (page line : Nat) (live : Bool) : Migration :=
  if m.page = page then
    { m with live := live, changed := if m.changed.contains line then m.changed else m.changed ++ [line] }
  else m

/-- Counts accesses of a page that missed the SLC, with migration enabled and for a page of a class that migrates
(R233). -/
def State.countAccess (s : State) (id n : Nat) : State :=
  let cls := ((s.depot.pages.find id).bind (fun p => s.dobj? p.obj)).map (fun d => d.cls)
  if !s.oflag 0x4001 5 || !clsMigrates (cls.getD 7) then s
  else { s with depot := { s.depot with access := s.depot.access.put id (min 65535 (s.accesses id + n)) } }

end Sys2Proof.Machine
end

