-- ==== Sys2Proof/Machine/Rs.lean ====
section
/-! DEFINITION. The symbol codes of the memories: RS(80,64) and RS(72,64) over GF(2^8) (R432, R434, R442, R444). A line's
symbol 0 is the coefficient of the highest power and its check symbols follow its data (log 47). -/
namespace Sys2Proof.Machine

/-- `k` steps of a product in GF(2^8) under x^8 + x^4 + x^3 + x^2 + 1, on numbers below 256. -/
def gfMulAux : Nat → Nat → Nat → Nat
  | 0, _, _ => 0
  | k + 1, a, b => (b % 2 * a) ^^^ gfMulAux k ((2 * a) ^^^ (a / 128 * 0x11D)) (b / 2)

def gfMul (a b : Byte) : Byte := BitVec.ofNat 8 (gfMulAux 8 a.toNat b.toNat)

/-- A power of an element, by squaring (fuel: bits of the exponent that are left, at most the exponent). -/
def gfPowAux : Nat → Byte → Nat → Byte
  | 0, _, _ => 1
  | f + 1, a, k =>
    if k = 0 then 1
    else if k % 2 = 1 then gfMul a (gfPowAux f (gfMul a a) (k / 2))
    else gfPowAux f (gfMul a a) (k / 2)

def gfPow (a : Byte) (k : Nat) : Byte := gfPowAux k a k

/-- The inverse of an element, a^254; zero for zero. -/
def gfInv (a : Byte) : Byte := gfPow a 254

/-- The element α. -/
def gfAlpha : Byte := 2

/-- A polynomial's value at a point, coefficients from the highest power on. -/
def gfEval (p : List Byte) (x : Byte) : Byte := p.foldl (fun acc c => gfMul acc x ^^^ c) 0

/-- Coefficient-wise sum of polynomials, coefficients from the lowest power on. -/
def gfAdd : List Byte → List Byte → List Byte
  | [], b => b
  | a, [] => a
  | x :: a, y :: b => (x ^^^ y) :: gfAdd a b

def gfScale (c : Byte) (p : List Byte) : List Byte := p.map (gfMul c)

/-- Product of polynomials, coefficients from the lowest power on. -/
def gfProd : List Byte → List Byte → List Byte
  | [], _ => []
  | x :: a, b => gfAdd (gfScale x b) (0 :: gfProd a b)

/-- The generator with roots α^0 to α^(n-1), from the lowest power on. -/
def rsGen : Nat → List Byte
  | 0 => [1]
  | n + 1 => gfProd (rsGen n) [gfPow gfAlpha n, 1]

/-- One step of the division by a generator: `g` without its leading 1, from the highest power on. -/
def rsStep (g : List Byte) (rem : List Byte) (d : Byte) : List Byte :=
  let f := d ^^^ rem.headD 0
  List.zipWith (fun r c => r ^^^ gfMul f c) (rem.drop 1 ++ [0]) g

/-- The `n` check symbols of a line. -/
def rsCheck (n : Nat) (data : List Byte) : List Byte :=
  data.foldl (rsStep ((rsGen n).reverse.drop 1)) (List.replicate n 0)

/-- The syndromes of a received word. -/
def rsSyndromes (n : Nat) (w : List Byte) : List Byte := (List.range n).map (fun j => gfEval w (gfPow gfAlpha j))

/-- The locator of known positions, as powers of α. -/
def rsErasures (pows : List Nat) : List Byte := pows.foldl (fun g p => gfProd g [1, gfPow gfAlpha p]) [1]

/-- Coefficient `i`. -/
def coef (p : List Byte) (i : Nat) : Byte := p.getD i 0

/-- Berlekamp and Massey's steps after `e` erasures: locator, correction polynomial and degree (fuel: syndromes left). -/
def rsMassey (syn : List Byte) (e : Nat) : Nat → Nat → List Byte → List Byte → Nat → List Byte × Nat
  | 0, _, lam, _, deg => (lam, deg)
  | f + 1, r, lam, b, deg =>
    let delta := (List.range (deg + 1)).foldl (fun acc i => acc ^^^ gfMul (coef lam i) (if i ≤ r then coef syn (r - i) else 0)) 0
    let b := 0 :: b
    if delta = 0 then rsMassey syn e f (r + 1) lam b deg
    else
      let lam' := gfAdd lam (gfScale delta b)
      if 2 * deg ≤ r + e then rsMassey syn e f (r + 1) lam' (gfScale (gfInv delta) lam) (r + 1 + e - deg)
      else rsMassey syn e f (r + 1) lam' b deg

/-- Terms of odd power, for the formal derivative. -/
def gfDeriv (p : List Byte) : List Byte := (p.drop 1).zipIdx.map (fun q => if q.2 % 2 = 0 then q.1 else 0)

/-- A polynomial from the lowest power on at a point. -/
def gfEvalUp (p : List Byte) (x : Byte) : Byte := gfEval p.reverse x

/-- Decodes a word of `n` check symbols with erased positions: the corrected word and the positions corrected, or none
where it is uncorrectable. -/
def rsDecode (n : Nat) (erased : List Nat) (w : List Byte) : Option (List Byte × List Nat) :=
  let len := w.length
  let syn := rsSyndromes n w
  if syn.all (· == 0) then some (w, [])
  else
    let e := erased.length
    let gam := rsErasures (erased.map (fun i => len - 1 - i))
    let (lam, deg) := rsMassey syn e (n - e) e gam gam e
    let roots := (List.range len).filter (fun i => gfEvalUp lam (gfInv (gfPow gfAlpha (len - 1 - i))) == 0)
    if roots.length ≠ deg ∨ n + e < 2 * deg then none
    else
      let omega := (gfProd syn lam).take n
      let fixed := w.zipIdx.map (fun p =>
        if roots.contains p.2 then
          let x := gfPow gfAlpha (len - 1 - p.2)
          let xi := gfInv x
          p.1 ^^^ gfMul x (gfMul (gfEvalUp omega xi) (gfInv (gfEvalUp (gfDeriv lam) xi)))
        else p.1)
      if (rsSyndromes n fixed).all (· == 0) then
        some (fixed, roots.filter (fun i => fixed.getD i 0 != w.getD i 0))
      else none

/-- What a stored codeword reads as (R434): clean, corrected at some symbols, poisoned, or uncorrectable. -/
inductive CodeFate where
  | good (data : List Byte) (fixed : List Nat)
  | poisoned
  | bad
  deriving DecidableEq, Repr

/-- The pattern that marks a poisoned line. -/
def poisonCheck (c : List Byte) : List Byte := c.map (· ^^^ 0x5A)

/-- Reads a codeword of 64 data symbols and its check symbols: the poison pattern is tried first. -/
def codeFate (erased : List Nat) (data check : List Byte) : CodeFate :=
  let n := check.length
  let asPoison := match rsDecode n erased (data ++ poisonCheck check) with
    | some (_, fixed) => decide (fixed.length ≤ 4)
    | none => false
  if asPoison then .poisoned
  else
    match rsDecode n erased (data ++ check) with
    | some (w, fixed) => .good (w.take 64) fixed
    | none => .bad

end Sys2Proof.Machine
end

