-- ==== Sys2Proof/Machine/Flits.lean ====
section
/-! DEFINITION. Flits as they leave a port and as they arrive: the slots of every message, the header, the CRC, the
RS(272,256) code and the symbols on the lanes (R341, R346 to R348, R353, R356, R361). -/
namespace Sys2Proof.Machine

/-- A field of a slot: a value at bits `hi` to `lo`. -/
def putF (v hi lo : Nat) : Nat := v % 2 ^ (hi - lo + 1) * 2 ^ lo

/-- Four slots of a line (R353). -/
def lineSlots (data : List Byte) : List TxSlot := (List.range 4).map (fun i => .word (getLe data (16 * i) 16))

/-- The header of a coherence message (Table 11.4). -/
def cohSlot (m : CohMsg) : Nat :=
  putF m.op 127 120 + putF m.src 119 108 + putF m.dst 107 96 + putF m.txn 95 80 + putF m.aux 79 64 + m.order.toNat * 2 ^ 63
    + m.evicting.toNat * 2 ^ 62 + m.poison.toNat * 2 ^ 61 + m.pd.toNat * 2 ^ 60 + m.tokenValid.toNat * 2 ^ 59
    + putF m.token 58 50 + putF (m.line / 64) 47 6 + putF m.state 5 3

/-- Slot 0 of a service message (Table 12.7). -/
def svcSlot (m : SvcMsg) : Nat :=
  putF m.op 127 120 + putF m.source 119 116 + putF m.dest 115 112 + m.bcast.toNat * 2 ^ 111 + putF m.tenant 110 106
    + putF m.route 95 64 + putF m.arg 63 0

/-- The payload of a BELAY_ACK (Table 02.4). -/
def belaySlot (a : BelayAck) : Nat :=
  putF a.routeId 127 96 + putF a.spanPitch 95 64 + putF a.tick 63 32 + putF a.tenant 31 27 + putF a.kind 26 24
    + putF a.source 23 20 + putF a.home 19 16 + putF a.halvings 15 13 + putF a.faultReplays 12 10

/-- The slots of a message (Tables 12.4, 12.6 to 12.8; R353, R357, R361). -/
def Msg.slots : Msg → List TxSlot
  | .coh m =>
    if m.op = 0x05 then .word (cohSlot m) :: .word (m.mask % 2 ^ 64) :: lineSlots m.data
    else if m.op = 0x60 ∨ m.op = 0x61 ∨ m.op = 0x80 then .word (cohSlot m) :: lineSlots m.data
    else [.word (cohSlot m)]
  | .belay a => [.word (putF 0xA1 127 120 + putF a.slotSource 119 116 + putF a.dest 115 112), .word (belaySlot a)]
  | .svc m =>
    if m.op = 0xC8 then [.word (svcSlot m), .word m.slot1, .word m.slot2]
    else if m.op = 0xC0 ∨ m.op = 0xC3 ∨ m.op = 0xC7 then [.word (svcSlot m), .word m.slot1]
    else [.word (svcSlot m)]
  | .tickMarker master source elapsed pitch since => [.marker master source elapsed pitch since]
  | .heartbeat origin source state beat =>
    [.word (putF 0xA2 127 120 + putF origin 119 116 + putF source 115 112 + putF state 111 108 + putF beat 63 0)]
  | .nak detector cause opcode seq source =>
    [.word (putF 0xE0 127 120 + putF detector 119 116 + putF cause 115 108 + putF opcode 107 100 + putF seq 99 90
      + putF source 89 86)]

/-- The time since the master's tick, in eighths of a nanosecond, of a marker whose time was right at a clock (R356). -/
def markerAge (elapsed since now : Nat) : Nat := elapsed + 4 * (now - since)

/-- The 16 bytes of a slot in a flit that starts now, as a number: a marker carries its time up to the start of the flit, and
one that has become too old goes as NOP (R356). -/
def TxSlot.at_ (now : Nat) : TxSlot → Nat
  | .word w => w
  | .marker master source elapsed pitch since =>
    let e := markerAge elapsed since now
    if 65535 < e then 0
    else putF 0xA0 127 120 + putF master 119 116 + putF source 115 112 + putF e 111 96 + putF pitch 63 0

/-- Whether a message that waits may still be sent: a tick marker older than ELAPSED can say is discarded (R356). -/
def Msg.fresh (now : Nat) : Msg → Bool
  | .tickMarker _ _ elapsed _ since => decide (markerAge elapsed since now ≤ 65535)
  | _ => true

/-! ## Flits (R346 to R348) -/

/-- The header of Table 12.3 as a number. -/
def hdrWord (h : FlitHdr) : Nat :=
  putF h.flitType 95 94 + putF h.seq 93 84 + putF h.ackSeq 83 74 + h.nak.toNat * 2 ^ 73 + putF h.sender 72 69
    + putF h.firstMsg 68 65 + putF h.credClassA 64 61 + putF h.credTotalA 60 53 + putF h.credClassB 52 49
    + putF h.credTotalB 48 41 + putF h.code 40 33 + putF h.arg 32 0

/-- The header of Table 12.3 from the bytes of a flit. -/
def flitHdr (b : List Byte) : FlitHdr :=
  let w := getLe b 0 12
  { flitType := fld w 95 94, seq := fld w 93 84, ackSeq := fld w 83 74, nak := bitAt w 73, sender := fld w 72 69
    firstMsg := fld w 68 65, credClassA := fld w 64 61, credTotalA := fld w 60 53, credClassB := fld w 52 49
    credTotalB := fld w 48 41, code := fld w 40 33, arg := w % 2 ^ 33 }

/-- The 256 bytes of a flit: header, fifteen slots and CRC-32; slots that nothing fills are NOP. -/
def flitBytes (h : FlitHdr) (slots : List Nat) : List Byte :=
  let b := natLe 12 (hdrWord h) ++ (List.range 15).flatMap (fun k => natLe 16 (slots.getD k 0))
  b ++ natLe 4 (crc32 b)

/-- The coded flit: the 16 parity bytes of RS(272,256) follow it (R347; byte 0 is the coefficient of the highest power,
log 43). -/
def codedFlit (h : FlitHdr) (slots : List Nat) : List Byte :=
  let b := flitBytes h slots
  b ++ rsCheck 16 b

/-- What arrives as a coded flit: the byte positions that the decoder corrected, and the header and slots of a flit that
decodes and whose CRC is right (R347, R348). -/
def decodeFlit (coded : List Byte) : List Nat × Option (FlitHdr × List Nat) :=
  match rsDecode 16 [] (fitTo 272 coded) with
  | none => ([], none)
  | some (w, fixed) =>
    if crc32 (sliceB w 0 252) = getLe w 252 4 then
      (fixed, some (flitHdr w, (List.range 15).map (fun k => getLe w (12 + 16 * k) 16)))
    else (fixed, none)

/-! ## Lanes and symbols (R341) -/

/-- The lanes of a mask, in ascending order. -/
def lanesOf (mask : Nat) : List Nat := (List.range 16).filter (bitAt mask)

/-- The PAM4 level of a pair of bits: 00, 01, 11, 10 in ascending order of levels, the Gray order that PAM4 links take
(PRESUMED, log 69). -/
def grayLevel (pair : Nat) : Nat := if pair = 2 then 3 else if pair = 3 then 2 else pair

/-- The four symbols of a byte, most significant pair first. -/
def byteSymbols (b : Byte) : List Nat :=
  [grayLevel (fld b.toNat 7 6), grayLevel (fld b.toNat 5 4), grayLevel (fld b.toNat 3 2), grayLevel (fld b.toNat 1 0)]

/-- The symbols of a coded flit on each active lane: byte `i` goes on lane (i mod width). -/
def onLanes (mask : Nat) (coded : List Byte) : List (Nat × List Nat) :=
  let ls := lanesOf mask
  ls.zipIdx.map (fun l => (l.1, (coded.zipIdx.filter (fun b => b.2 % ls.length == l.2)).flatMap (fun b => byteSymbols b.1)))

end Sys2Proof.Machine
end

