-- ==== Sys2Proof/Machine/Fabric.lean ====
section
/-! DEFINITION. Messages on the fabric and the Omuth ports: classes, routing, credits and the send order (R310, R320,
R350, R351, R353 to R355). -/
namespace Sys2Proof.Machine

/-- Coherence opcodes (Table 11.5). -/
def opRdShared : Nat := 0x01
def opRdOwn : Nat := 0x02
def opUpgrade : Nat := 0x03
def opRdNc : Nat := 0x04
def opWrNc : Nat := 0x05
def opCmoClean : Nat := 0x06
def opCmoCleanInval : Nat := 0x07
def opCmoInval : Nat := 0x08
def opTokenReturn : Nat := 0x09
def opSnpShared : Nat := 0x20
def opSnpInv : Nat := 0x21
def opSnpData : Nat := 0x22
def opSnpClean : Nat := 0x23
def opFwdShared : Nat := 0x24
def opFwdOwn : Nat := 0x25
def opSnpDiscard : Nat := 0x26
def opGangRd : Nat := 0x27
def opGangOwn : Nat := 0x28
def opAck : Nat := 0x40
def opAckLost : Nat := 0x41
def opRetry : Nat := 0x42
def opGrant : Nat := 0x43
def opCmp : Nat := 0x44
def opWbAck : Nat := 0x45
def opOwnerMoved : Nat := 0x46
def opData : Nat := 0x60
def opSnpDataRsp : Nat := 0x61
def opWbDirty : Nat := 0x80
def opEvictClean : Nat := 0x81
def opPdSet : Nat := 0x82

/-- The class of a coherence opcode: 0 REQ, 1 SNP, 2 RSP, 3 DAT, 4 WB (Table 11.5); none for a reserved one. -/
def cohClass (op : Nat) : Option Nat :=
  if 0x01 ≤ op ∧ op ≤ 0x09 then some 0
  else if 0x20 ≤ op ∧ op ≤ 0x28 then some 1
  else if 0x40 ≤ op ∧ op ≤ 0x46 then some 2
  else if op = 0x60 ∨ op = 0x61 then some 3
  else if 0x80 ≤ op ∧ op ≤ 0x82 then some 4
  else none

/-- The class code of a message (Table 12.5); a LINK_NAK has none. -/
def Msg.cls : Msg → Option Nat
  | .coh m => cohClass m.op
  | .tickMarker _ _ _ _ _ => some 5
  | .belay _ => some 6
  | .heartbeat _ _ _ _ => some 7
  | .svc _ => some 8
  | .nak _ _ _ _ _ => none

/-- Credits per Omuth port and direction (Tables 11.6 and 12.5). -/
def classCredits : Nat → Nat
  | 0 => 64
  | 1 => 64
  | 2 => 128
  | 3 => 128
  | 4 => 64
  | 5 => 4
  | 6 => 32
  | 7 => 16
  | 8 => 64
  | _ => 0

/-- Place in the order of R351. -/
def Msg.rank : Msg → Nat
  | .nak _ _ _ _ _ => 0
  | .tickMarker _ _ _ _ _ => 1
  | .heartbeat _ _ _ _ => 2
  | .belay _ => 3
  | .svc _ => 9
  | .coh m => match cohClass m.op with
    | some 2 => 4
    | some 3 => 5
    | some 4 => 6
    | some 1 => 7
    | _ => 8

/-- The device a message is addressed to; broadcasts have none. -/
def Msg.dest : Msg → Option Nat
  | .coh m => some (m.dst / 256)
  | .belay a => some a.dest
  | .svc m => if m.bcast then none else some m.dest
  | _ => none

/-- The byte mask of a whole line. -/
def fullMask : Nat := 2 ^ 64 - 1

/-! ## Agents (Table 11.1) -/

def agentOf (dev loc : Nat) : Nat := dev * 256 + loc
def agentDev (a : Nat) : Nat := a / 256
def agentLoc (a : Nat) : Nat := a % 256
def locProxy : Nat := 0x40
def locDepot : Nat := 0x41
def locDma : Nat := 0x42
def locSummit : Nat := 0x45
def locHost0 : Nat := 0x48

/-- Whether a local number names an agent. -/
def locKnown (l : Nat) : Bool :=
  decide (l ≤ 0x10) || (decide (0x20 ≤ l) && decide (l ≤ 0x31)) || (decide (0x40 ≤ l) && decide (l ≤ 0x45))
    || l == 0x48 || l == 0x49

/-- An agent of a local L2. -/
def locL2 (l : Nat) : Bool := decide (l ≤ 0x10)
/-- An agent that is a home. -/
def locHome (l : Nat) : Bool := decide (0x20 ≤ l) && decide (l ≤ 0x31)

def State.agent (s : State) (loc : Nat) : Nat := agentOf s.sys.deviceId loc

/-! ## Ports -/

def State.port (s : State) (p : Nat) : PortSt :=
  match p with
  | 0 => s.link.p0
  | 1 => s.link.p1
  | 2 => s.link.p2
  | _ => s.link.p3

def State.setPort (s : State) (p : Nat) (x : PortSt) : State :=
  { s with link := match p with
    | 0 => { s.link with p0 := x }
    | 1 => { s.link with p1 := x }
    | 2 => { s.link with p2 := x }
    | _ => { s.link with p3 := x } }

def State.mapPort (s : State) (p : Nat) (f : PortSt → PortSt) : State := s.setPort p (f (s.port p))

/-- The object of a port. -/
def portObj (p : Nat) : Nat := pobj 0x6010 p

/-- Whether a port carries traffic: a failover or a retrain keeps its queues and goes on (R344, R362). -/
def PortSt.up (x : PortSt) : Bool :=
  match x.mode with
  | .active => true
  | .failover => true
  | .retraining => true
  | _ => false

/-- The dimension a port serves in a system of some devices (Table 01.6); none where it is powered down. -/
def portDim (count p : Nat) : Option Nat :=
  if count = 2 then some 0
  else if count = 4 then some (p % 2)
  else if count = 8 then (if p < 3 then some p else none)
  else if count = 16 then some p
  else none

/-- The ports of a dimension that carry traffic, in ascending order. -/
def State.dimPorts (s : State) (k : Nat) : List Nat :=
  (List.range 4).filter (fun p => portDim s.sys.deviceCount p == some k && (s.port p).up)

/-- The lowest set bit of a device difference. -/
def lowDim (d e : Nat) : Nat := ((List.range 4).find? (fun k => bitAt (d ^^^ e) k)).getD 0

/-- The port a message to a device leaves on (R354): among several ports of the dimension a coherence message picks by
the low line bits. -/
def State.routePort (s : State) (m : Msg) (e : Nat) : Option Nat :=
  let ps := s.dimPorts (lowDim s.sys.deviceId e)
  match m with
  | .coh c =>
    let i := if ps.length = 2 then fld c.line 6 6 else if 2 < ps.length then fld c.line 7 6 % ps.length else 0
    ps[i]?
  | _ => ps.head?

/-- Whether a class has a credit at the sender. -/
def PortSt.hasCredit (x : PortSt) (m : Msg) : Bool :=
  match m.cls with
  | none => true
  | some c => decide (0 < x.credits.getD c 0)

/-- The index of the message that begins next (R351). -/
def PortSt.pick (x : PortSt) : Option Nat :=
  let ready := x.waiting.zipIdx.filter (fun p => x.hasCredit p.1)
  (ready.foldl (fun best p => match best with
    | none => some p
    | some b => if p.1.rank < b.1.rank then some p else some b) none).map (fun p => p.2)

/-- The SEQ of the flit a port accepted last. -/
def State.lastSeq (s : State) (p : Nat) : Nat := ((s.port p).expectSeq + 1023) % 1024

/-- The next message begins: it takes a credit of its class (R351). -/
def PortSt.begin_ (x : PortSt) (i : Nat) (m : Msg) : PortSt :=
  { x with
    waiting := x.waiting.eraseIdx i
    credits := match m.cls with
      | some c => x.credits.setIfInBounds c (x.credits.getD c 0 - 1)
      | none => x.credits
    txMsg := some m, txRest := m.slots }

/-- Slots of the message in progress go into a flit as far as it has room. -/
def PortSt.putSlots (x : PortSt) (f : TxFlit) (m : Msg) : PortSt × TxFlit :=
  let left := 15 - f.slots.length
  let all := decide (x.txRest.length ≤ left)
  ({ x with txRest := x.txRest.drop left, txMsg := if all then none else some m },
   { f with slots := f.slots ++ x.txRest.take left, ends := if all then f.ends ++ [m] else f.ends })

/-- Fills a flit: the message in progress goes on, then others begin in the order of R351 while slots are free (fuel: two
steps a slot). -/
def PortSt.fill : Nat → PortSt → TxFlit → PortSt × TxFlit
  | 0, x, f => (x, f)
  | n + 1, x, f =>
    if 15 ≤ f.slots.length then (x, f)
    else
      match x.txMsg with
      | some m => let y := x.putSlots f m; PortSt.fill n y.1 y.2
      | none =>
        match x.pick with
        | none => (x, f)
        | some i =>
          match x.waiting[i]? with
          | none => (x, f)
          | some m =>
            PortSt.fill n (x.begin_ i m) { f with firstMsg := if f.firstMsg = 15 then f.slots.length else f.firstMsg }

/-- The header of the next flit of a port: acknowledgement, NAK and the two classes whose turn it is (R346, R349, R350). -/
def State.nextHdr (s : State) (p : Nat) : FlitHdr :=
  let x := s.port p
  let a := x.reportAt % 9
  let b := (x.reportAt + 1) % 9
  { flitType := 0, seq := 0, ackSeq := s.lastSeq p, nak := x.nakDue, sender := s.sys.deviceId, firstMsg := 15
    credClassA := a, credTotalA := x.credFreed.getD a 0 % 256, credClassB := b, credTotalB := x.credFreed.getD b 0 % 256
    code := 0, arg := 0 }

/-- A flit leaves a port on its active lanes; it takes a pending NAK along, and the next flit reports the next classes. -/
def State.putFlit (s : State) (p : Nat) (h : FlitHdr) (slots : List TxSlot) : State :=
  let x := s.port p
  let ws := slots.map (TxSlot.at_ s.now)
  (s.setPort p { x with reportAt := (x.reportAt + 2) % 9, nakDue := false, owes := false }).emit
    (.flit p h ws (onLanes x.lanes (codedFlit h ws)))

/-- A PAYLOAD flit leaves a port, for the first time or again. -/
def State.sendPayload (s : State) (p : Nat) (f : TxFlit) : State :=
  s.putFlit p { s.nextHdr p with seq := f.seq, firstMsg := f.firstMsg } f.slots

/-- A CONTROL flit leaves a port. -/
def State.sendControl (s : State) (p code arg : Nat) : State :=
  s.putFlit p { s.nextHdr p with flitType := 1, code := code, arg := arg % 2 ^ 33 } []

/-- Messages that wait at a port go out in PAYLOAD flits while the replay buffer has room (R349, R351). -/
def State.pumpPort (s : State) (p : Nat) : Nat → State
  | 0 => s
  | k + 1 =>
    let x := s.port p
    if x.mode != .active || decide (256 ≤ x.unacked.length) then s
    else
      let (y, f) := PortSt.fill 32 { x with waiting := x.waiting.filter (Msg.fresh s.now) }
        { seq := x.nextSeq, firstMsg := 15, slots := [], ends := [] }
      if f.slots.isEmpty then s.setPort p y
      else
        ((s.setPort p { y with unacked := y.unacked ++ [f], nextSeq := (y.nextSeq + 1) % 1024 }).sendPayload p f).pumpPort p k

/-- Queues a message on a port and sends what can be sent. -/
def State.sendPort (s : State) (p : Nat) (m : Msg) : State :=
  let s := s.mapPort p (fun x => { x with waiting := x.waiting ++ [m] })
  s.pumpPort p (s.port p).waiting.length

/-- Whether this device may send a message: a device that has stopped sends no coherence message (R335, R478), nothing goes to a
dead device, and nothing takes a path that has failed and is fenced (R73; log 49). -/
def State.maySend (s : State) (m : Msg) : Bool :=
  (match m with
   | .coh c => !s.coh.silent || agentDev c.dst == s.sys.deviceId
   | _ => true)
  && (match m.dest with
      | some d => !s.coh.dead.contains d && !s.sys.fencedPaths.contains d
      | none => true)

/-- Sends a message to its device: on the fabric here, or on the port that R354 picks. -/
def State.send (s : State) (m : Msg) : State :=
  if !s.maySend m then s
  else
    match m.dest with
    | none => s
    | some e =>
      if e = s.sys.deviceId then s.emit (.fabric m)
      else
        match s.routePort m e with
        | some p => s.sendPort p m
        | none => s

/-- Sends a coherence message. -/
def State.sendCoh (s : State) (m : CohMsg) : State := s.send (.coh m)

/-- The originator of a broadcast sends it on every active port (R355). -/
def State.broadcast (s : State) (m : Msg) : State :=
  if !s.maySend m then s
  else ((List.range 4).filter (fun p => (s.port p).up)).foldl (fun s p => s.sendPort p m) s

/-- A broadcast that came in on a port goes on, on the lowest port of each dimension above that port's (R355). -/
def State.forwardBcast (s : State) (port : Nat) (m : Msg) : State :=
  match portDim s.sys.deviceCount port with
  | none => s
  | some k =>
    (((List.range 4).filter (fun d => decide (k < d))).filterMap (fun d => (s.dimPorts d).head?)).foldl
      (fun s p => s.sendPort p m) s

/-! ## Violations (R360, R361) -/

/-- The port that messages from a device arrive on: dimension order ends in the highest dimension in which the two ids
differ (R354). -/
def State.arrivalPort (s : State) (src : Nat) : Option Nat :=
  (((List.range 4).reverse.find? (fun k => bitAt (s.sys.deviceId ^^^ src) k)).bind (fun k => (s.dimPorts k).head?))

/-- A violation on a port: it is counted, a CORRECTED record names the port, the cause and the source (log 40), and a
LINK_NAK goes back. -/
def State.violation (s : State) (p cause opcode seq src : Nat) : State :=
  let s := s.oinc (portObj p) 9 1
  let s := s.raise { severity := 0, source := 0x0006, cause := cause, address := src, w4 := objW4 (portObj p) 9 }
  s.sendPort p (.nak s.sys.deviceId cause opcode seq src)

/-- A violation of a message that a row gives without its port (log 40). -/
def State.violationFrom (s : State) (cause opcode src : Nat) : State :=
  match s.arrivalPort src with
  | some p => s.violation p cause opcode (s.lastSeq p) src
  | none => s

/-! ## Protocol faults (R338, R340) -/

/-- A coherence message that changes no state; it is counted (R338). -/
def State.dropCoh (s : State) : State := s.oinc 0x6100 10 1

/-- Whether an agent id names an agent of the system. -/
def State.agentOk (s : State) (a : Nat) : Bool :=
  locKnown (agentLoc a) && decide (agentDev a < s.sys.deviceCount)

/-- The well-formedness every coherence message needs (R338): a known opcode, zero reserved fields, agents of the
system and no sender declared dead. -/
def State.cohOk (s : State) (m : CohMsg) (op : Nat) : Bool :=
  m.op == op && m.reserved == 0 && s.agentOk m.src && s.agentOk m.dst && !s.coh.dead.contains (agentDev m.src)
    && agentDev m.dst == s.sys.deviceId

/-! ## Line addresses (R311, R421, R423) -/

def lineDev (l : Nat) : Nat := l / 2 ^ 44 % 16
def lineHbm (l : Nat) : Bool := bitAt l 43
def lineOff (l : Nat) : Nat := l % 2 ^ 43

/-- The line address of an HBM or DDR5 offset of this device. -/
def State.lineAt (s : State) (hbm : Bool) (off : Nat) : Nat :=
  s.sys.deviceId * 2 ^ 44 + (if hbm then 2 ^ 43 else 0) + off / 64 * 64

/-- The DDR5 channel of a slice offset, the primary of a pair under mirroring (R421, R423). -/
def ddrChannel (mirrored : Bool) (o : Nat) : Nat :=
  if mirrored then fld o 10 8 ^^^ fld o 13 11 else fld o 11 8 ^^^ fld o 15 12

/-- The address within the channel (R421, R423). -/
def ddrLocal (mirrored : Bool) (o : Nat) : Nat :=
  if mirrored then 2 ^ 20 + (o / 2 ^ 11 * 256 + o % 256) else 2 ^ 20 + (o / 2 ^ 12 * 256 + o % 256)

/-- The local number of a line's home agent (R311). -/
def State.homeLoc (s : State) (l : Nat) : Nat :=
  if lineHbm l then (if lineOff l < 24 * 2 ^ 30 then 0x30 else 0x31)
  else 0x20 + ddrChannel s.dram.mirrored (lineOff l)

/-- The home agent of a line, under the interleave of this device. -/
def State.homeAgent (s : State) (l : Nat) : Nat := agentOf (lineDev l) (s.homeLoc l)

/-! ## Directory entries and snoops -/

/-- Agents that a directory entry names as holders (Table 11.3). -/
def DirEnt.holders (e : DirEnt) (dev : Nat) : List Nat :=
  let l := e.ridges.map (agentOf dev) ++ e.devices.map (fun d => agentOf d locProxy)
  if e.state = .G ∧ !l.contains e.owner then e.owner :: l else l

/-- Removes an agent from an entry. -/
def DirEnt.remove (e : DirEnt) (a : Nat) : DirEnt :=
  { e with ridges := if locL2 (agentLoc a) then e.ridges.filter (fun r => r != agentLoc a) else e.ridges
           devices := if agentLoc a = locProxy then e.devices.filter (fun d => d != agentDev a) else e.devices }

/-- Adds an agent to an entry. -/
def DirEnt.add (e : DirEnt) (a : Nat) : DirEnt :=
  if agentLoc a = locProxy then
    (if e.devices.contains (agentDev a) then e else { e with devices := e.devices ++ [agentDev a] })
  else if locL2 (agentLoc a) then
    (if e.ridges.contains (agentLoc a) then e else { e with ridges := e.ridges ++ [agentLoc a] })
  else e

def DirEnt.empty : DirEnt :=
  { state := .I, pd := false, changed := false, owner := 0, ridges := [], devices := [], rrv := 2 }

def State.dirEnt (s : State) (l : Nat) : DirEnt := (s.coh.dir.find (l / 64)).getD DirEnt.empty

/-- The Depot page that holds a line of this device, with its number. -/
def State.linePage (s : State) (l : Nat) : Option (Nat × Page) :=
  s.depot.pages.find? (fun p => p.2.tier == (if lineHbm l then 0 else 1)
    && decide (p.2.addr ≤ lineOff l) && decide (lineOff l < p.2.addr + p.2.size))

/-- Whether a line is Gang class: a line of a TABLE, RUN or SCRATCH page (R236). -/
def State.lineGang (s : State) (l : Nat) : Bool :=
  match s.linePage l with
  | some (_, p) => ((s.dobj? p.obj).map (fun d => clsGang d.cls)).getD false
  | none => false

/-- The opening pitch of the open span of a page's route. -/
def State.pageSpan (s : State) (p : Page) : Option Nat :=
  p.key.bind (fun k => (s.route? k).bind (fun r => r.span.map (fun sp => sp.openPitch)))

/-- Whether the pitch-dirty bit of a line counts as set (R317). -/
def State.pdBit (s : State) (p : Page) (l : Nat) : Bool :=
  s.pageSpan p == some p.pdMark && p.pdLines.contains ((lineOff l - p.addr) / 64)

/-- Whether the pitch-dirty bit of a line is set (R317). -/
def State.linePd (s : State) (l : Nat) : Bool := ((s.linePage l).map (fun x => s.pdBit x.2 l)).getD false

/-- Whether the changed bit of a line is set (R234). -/
def State.lineChanged (s : State) (l : Nat) : Bool :=
  match s.linePage l with
  | some (id, p) => s.depot.migrations.any (fun m => m.page == id && m.changed.contains ((lineOff l - p.addr) / 64))
  | none => false

/-- The directory set of a line: its home and set (R315). -/
def State.dirSetOf (s : State) (l : Nat) : Nat := s.homeLoc l * 8192 + Config.dirSet l % 8192

/-- The way of an entry: the one it has, or the lowest free one of its set. -/
def State.dirWay (s : State) (l : Nat) : Nat :=
  match s.coh.dir.find (l / 64) with
  | some e => e.way
  | none =>
    let used := (s.coh.dir.filter (fun e => s.dirSetOf (e.1 * 64) == s.dirSetOf l)).map (fun e => e.2.way)
    ((List.range 16).find? (fun w => !used.contains w)).getD 0

/-- Stores a directory entry with the bits of its line (R317, R234); a line in state I has none. -/
def State.setDir (s : State) (l : Nat) (e : DirEnt) : State :=
  let d := if e.state = .I then s.coh.dir.del (l / 64)
    else s.coh.dir.put (l / 64) { e with pd := s.linePd l, changed := s.lineChanged l, way := s.dirWay l }
  { s with coh := { s.coh with dir := d } }

/-- Stores the entry of a line that an agent comes to hold: a new one with value 2, one that is there with value 0 (R296,
R315). -/
def State.dirTouch (s : State) (l : Nat) (e : DirEnt) : State :=
  s.setDir l { e with rrv := if (s.coh.dir.find (l / 64)).isNone then 2 else 0 }

/-- The directory's copies of the bits of Depot pages follow them. -/
def State.refreshDir (s : State) : State :=
  let d := s.coh.dir.map (fun (x : Nat × DirEnt) =>
    (x.1, { x.2 with pd := s.linePd (64 * x.1), changed := s.lineChanged (64 * x.1) }))
  { s with coh := { s.coh with dir := d } }

/-- Whether a line has no entry and its set is full (R315). -/
def State.dirFull (s : State) (l : Nat) : Bool :=
  decide (16 ≤ s.coh.dir.length) && (s.coh.dir.find (l / 64)).isNone
    && decide (16 ≤ (s.coh.dir.filter (fun e => s.dirSetOf (e.1 * 64) == s.dirSetOf l)).length)

/-- Whether a line has an open transaction at its home (R322). -/
def State.lineBusy (s : State) (l : Nat) : Bool := s.coh.open_.any (fun t => t.line == l)

/-- Entries of a home that are taken: open transactions and reserved ones. -/
def State.trackersUsed (s : State) (home : Nat) : Nat :=
  (s.coh.open_.filter (fun t => s.homeLoc t.line == home)).length
    + (s.coh.tokens.filter (fun t => t.1 / 512 == home && t.2.2)).length

/-- A new transaction number of this device's agents. -/
def State.newTxn (s : State) : Nat × State :=
  (s.coh.nextTxn, { s with coh := { s.coh with nextTxn := (s.coh.nextTxn + 1) % 65536 } })

/-- A snoop or forward of a home's transaction to an agent. -/
def State.sendSnoop (s : State) (op tracker line : Nat) (a : Nat) : State :=
  s.sendCoh { op := op, src := s.homeAgent line, dst := a, txn := tracker, line := line, order := s.lineGang line }

/-- Opens a transaction at the home of a line that waits for some agents. -/
def State.openTxn (s : State) (m : CohMsg) (waiting : List Nat) (back : Bool) : Nat × State :=
  let n := s.coh.nextTracker
  (n, { s with coh := { s.coh with
    nextTracker := (n + 1) % 65536
    open_ := s.coh.open_ ++ [{ tracker := n, line := m.line, req := m, waiting := waiting, data := none
                               answered := [], fwd := none, moved := false, since := s.now
                               backInv := back, resume := none }] } })

/-- The token an agent holds at a home agent. -/
def State.tokenAt (s : State) (home src : Nat) : Bool :=
  s.coh.requests.any (fun r => r.msg.src == src && r.msg.dst == home && r.token.isSome)

/-- Whether a request of an agent of this device could be taken up by its home at once: the line is not busy, its set has
room, a tracker entry is free, and the agent holds no token there (R315, R322, R324). -/
def State.homeFree (s : State) (a l : Nat) : Bool :=
  !s.lineBusy l && !s.dirFull l && decide (s.trackersUsed (s.homeLoc l) < 256) && !s.tokenAt (s.homeAgent l) a

/-- Whether a line that a peer keeps for this device belongs to a Gang page (R22, R236). -/
def State.farGang (s : State) (l : Nat) : Bool :=
  s.depot.pages.any (fun p => p.2.tier == 2 && decide (p.2.addr ≤ l) && decide (l < p.2.addr + p.2.size)
    && ((s.dobj? p.2.obj).map (fun d => clsGang d.cls)).getD false)

/-- The ORDER of a line: Gang or Global (R236, R318). -/
def State.lineOrder (s : State) (l : Nat) : Bool :=
  if lineDev l = s.sys.deviceId then s.lineGang l else s.farGang l

/-- An agent of this device issues a request to a line's home; while it holds a token there, the request waits
(R324). -/
def State.request (s : State) (m : CohMsg) (loc : Nat) (p : Purpose) : Nat × State :=
  let (t, s) := s.newTxn
  let m := { m with src := s.agent loc, dst := s.homeAgent m.line, txn := t, order := s.lineOrder m.line }
  let hold := s.tokenAt m.dst m.src
  let r : OpenReq := { msg := m, purpose := p, token := none, sent := !hold, held := [] }
  let s := { s with coh := { s.coh with requests := s.coh.requests ++ [r] } }
  (t, if hold then s else s.sendCoh m)

/-- Drops a line from every local cache. -/
def CacheSt.dropLine (c : CacheSt) (l : Nat) : CacheSt :=
  let cut (m : SMap (List Way)) : SMap (List Way) :=
    m.map (fun p => (p.1, p.2.map (fun w => if w.line = l ∧ w.state ≠ .I then { w with state := .I, dirty := false } else w)))
  { c with l2 := cut c.l2, l1d := cut c.l1d, l1i := cut c.l1i, slc := cut c.slc }

/-- Whether a line was restored by a replay while messages about it are on their way: what they carry is not written (R65,
R303). -/
def State.discards (s : State) (l : Nat) : Bool :=
  s.coh.open_.any (fun t => t.line == l && (t.stale || t.req.op == opCmoInval))
    || s.coh.queued.any (fun m => m.line == l && m.op == opCmoInval)

/-- The agents of other devices that hold a line of this one. -/
def State.farHolders (s : State) (l : Nat) : List Nat :=
  ((s.dirEnt l).holders s.sys.deviceId).filter (fun a => agentDev a != s.sys.deviceId)

/-- An operation that the Depot issues for a line of this device. -/
def State.depotReq (s : State) (op l : Nat) : CohMsg × State :=
  let (t, s) := s.newTxn
  let m : CohMsg := { op := op, src := s.agent locDepot, dst := s.homeAgent l, txn := t, line := l, order := s.lineOrder l }
  (m, { s with coh := { s.coh with requests := s.coh.requests ++
    [{ msg := m, purpose := .depot, token := none, sent := true, held := [] }] } })

/-- The home asks the agents of other devices for a line that is to be held nowhere. -/
def State.callBack (s : State) (op snoop l : Nat) (far : List Nat) (back : Bool) : State :=
  let (m, s) := if back then
      let (t, s) := s.newTxn
      (({ op := op, src := s.agent locDepot, dst := s.homeAgent l, txn := t, line := l } : CohMsg), s)
    else s.depotReq op l
  let (n, s) := s.openTxn m far back
  far.foldl (fun s a => s.sendSnoop snoop n l a) s

/-- The INVAL of a replay (R65 step 2, R303): local copies go at once without a write-back, and the home snoops the
devices that hold the line with SNP_DISCARD; where the line is busy the operation joins its queue. -/
def State.replayInval (s : State) (l : Nat) : State :=
  let s := { s with cache := s.cache.dropLine l }
  if s.lineBusy l then
    let s := { s with coh := { s.coh with
      open_ := s.coh.open_.map (fun (t : Txn) => if t.line = l then { t with stale := true, data := none } else t) } }
    let (m, s) := s.depotReq opCmoInval l
    ({ s with coh := { s.coh with
      queued := s.coh.queued ++ [m], arrived := s.coh.arrived ++ [(m.src, m.txn, s.now)] } }).oinc 0x6100 5 1
  else
    match s.farHolders l with
    | [] => s.setDir l DirEnt.empty
    | far => (s.setDir l { s.dirEnt l with ridges := [] }).callBack opCmoInval opSnpDiscard l far false

/-- A line becomes poisoned in memory: no cache keeps it (R313, R332). -/
def State.uncache (s : State) (l : Nat) : State :=
  let far := s.farHolders l
  let s := ({ s with cache := s.cache.dropLine l }).setDir l DirEnt.empty
  if far.isEmpty then s else s.callBack opCmoCleanInval opSnpInv l far true

end Sys2Proof.Machine
end

