-- ==== Sys2Proof/Machine/Ecc.lean ====
section
/-! DEFINITION. Where a line lies in the memories, and what a stored codeword that is not the clean one reads as (R420 to
R423, R432 to R434, R442 to R444). -/
namespace Sys2Proof.Machine

/-- Bytes of the spare areas of the sixteen channels (R420). -/
def spareBytes : Nat := 16 * mib

/-- Whether a DDR5 offset stands for a spare area: they follow populated memory, channel after channel (log 47). -/
def State.spareOff (s : State) (o : Nat) : Bool := decide (s.populated ≤ o) && decide (o < s.populated + spareBytes)

/-- The channel of a line of this device: 0 to 15 DDR5, 16 and 17 the HBM stacks. -/
def State.lineChan (s : State) (l : Nat) : Nat :=
  let o := lineOff l
  if lineHbm l then (if o < 24 * gib then 16 else 17)
  else if s.spareOff o then (o - s.populated) / mib
  else ddrChannel s.dram.mirrored o

/-- The local address of a line in its channel or stack. -/
def State.lineLocal (s : State) (l : Nat) : Nat :=
  let o := lineOff l
  if lineHbm l then o % (24 * gib)
  else if s.spareOff o then (o - s.populated) % mib
  else ddrLocal s.dram.mirrored o

/-- The line at a local address of a channel or stack: the interleave the other way round (R421, R423). -/
def State.lineOfLocal (s : State) (ch a : Nat) : Nat :=
  if 16 ≤ ch then s.lineAt true ((ch - 16) * (24 * gib) + a)
  else if a < mib then s.lineAt false (s.populated + ch * mib + a)
  else
    let x := (a - mib) / 256
    let low := a % 256
    if s.dram.mirrored then s.lineAt false (x * 2 ^ 11 + (fld (x * 2 ^ 11) 13 11 ^^^ (ch % 8)) % 8 * 256 + low)
    else s.lineAt false (x * 2 ^ 12 + (fld (x * 2 ^ 12) 15 12 ^^^ ch) % 16 * 256 + low)

/-- The rank of a local address (R421). -/
def rankOf (a : Nat) : Nat := if Config.rankBytes = 0 then 0 else a / Config.rankBytes % 4

/-- The subchannel of a line. -/
def lineSub (l : Nat) : Nat := fld l 6 6

/-- Check symbols of a line: 16 of DDR5, 8 of HBM. -/
def checkLen (l : Nat) : Nat := if lineHbm l then 8 else 16

/-! ## The two copies of a mirrored line (R423, R424) -/

def State.chanState (s : State) (ch : Nat) : ChState := (s.dram.chState.find ch).getD .absent

/-- The other channel of a mirrored pair (R423). -/
def mirrorOf (ch : Nat) : Nat := (ch + 8) % 16

/-- Whether a line has two copies: copy 0 in its primary channel, copy 1 in the mirror. -/
def State.twoCopies (s : State) (l : Nat) : Bool := s.dram.mirrored && !lineHbm l && !s.spareOff (lineOff l)

/-- The channel of a copy of a line. -/
def State.copyChan (s : State) (l m : Nat) : Nat := s.lineChan l + 8 * m

/-- What is kept of a copy stands under the line, the mirror copy's 2^48 above it. -/
def copyKey (l m : Nat) : Nat := if m = 0 then l else l + 2 ^ 48

/-- The line of a copy's key. -/
def keyLine (k : Nat) : Nat := k % 2 ^ 48

/-- The copy that serves the reads of a line: the one that its address names, unless its channel has failed. -/
def State.serves (s : State) (l : Nat) : Nat :=
  if !s.twoCopies l then 0
  else
    let m := (bitAt l 14).toNat
    if s.chanState (s.copyChan l m) = .failed then 1 - m else m

/-- The symbols of a device that is marked for a copy's channel, rank and subchannel (R442). -/
def State.erasedSyms (s : State) (l m : Nat) : List Nat :=
  if lineHbm l then []
  else
    match s.flash.marks.find? (fun x => x.ch == s.copyChan l m && x.rank == rankOf (s.lineLocal l) && x.sub == lineSub l) with
    | some x => (List.range 8).map (fun i => 8 * x.device + i)
    | none => []

/-- What a copy with a raw codeword reads as. -/
def State.copyFate (s : State) (l m : Nat) : Option CodeFate :=
  (s.dram.raw.find (copyKey l m)).map (fun w => codeFate (s.erasedSyms l m) w.1 w.2)

/-- What a line whose serving copy has a raw codeword reads as. -/
def State.rawFate (s : State) (l : Nat) : Option CodeFate := s.copyFate l (s.serves l)

/-- Whether a line has another copy than one of its two, in a channel that works, that gives its data. -/
def State.otherGood (s : State) (l m : Nat) : Bool :=
  s.twoCopies l && s.chanState (s.copyChan l (1 - m)) != .failed && (match s.copyFate l (1 - m) with
    | some .bad => false
    | some .poisoned => false
    | _ => true)

/-- Whether a line's stored codewords give no data. -/
def State.rawLost (s : State) (l : Nat) : Bool :=
  match s.rawFate l with
  | some .poisoned => true
  | some .bad => !s.otherGood l (s.serves l)
  | _ => false

/-- The lines of a range that read as poisoned: marked, or lost where they stand (R332, R434). -/
def State.lostWithin (s : State) (lo n : Nat) : List Nat :=
  let inside (l : Nat) : Bool := decide (lo ≤ l) && decide (l < lo + n)
  ((s.dram.poisoned.filter (fun q => inside q.1)).map (fun q => q.1)
    ++ (s.dram.raw.filter (fun q => inside (keyLine q.1) && s.rawLost (keyLine q.1))).map (fun q => keyLine q.1)).eraseDups

/-- Whether a copy of a line has a raw codeword. -/
def State.rawAny (s : State) (l : Nat) : Bool := (s.dram.raw.find l).isSome || (s.dram.raw.find (copyKey l 1)).isSome

end Sys2Proof.Machine
end

