-- ==== Sys2Proof/Machine/Image.lean ====
section
/-! DEFINITION. Image addresses, references and reads of image and host memory by the units (R26, R27, R84). -/
namespace Sys2Proof.Machine

/-- The device and the slice offset of an image address (Table 01.5). -/
def imgDev (a : Nat) : Nat := a / 2 ^ 43 % 16
def imgOff (a : Nat) : Nat := a % 2 ^ 43

/-- The line address of the fabric for an image address (R311). -/
def imgLine (a : Nat) : Nat := imgDev a * 2 ^ 44 + imgOff a / 64 * 64

/-- A reference in host memory (R84). -/
def refHost (r : Nat) : Bool := bitAt r 63
def refAddr (r : Nat) : Nat := r % 2 ^ 63
/-- A malformed image reference (R84). -/
def refBad (r : Nat) : Bool := !refHost r && decide (2 ^ 47 ≤ refAddr r)

/-- What a read answers: data, a failure with the address of the failing line, or the remote lines it waits for. -/
inductive Rd (α : Type) where
  | ok (a : α)
  | bad (status addr : Nat)
  | need (lines : List Nat)
  deriving DecidableEq, Repr

def Rd.map {α β : Type} (f : α → β) : Rd α → Rd β
  | .ok a => .ok (f a)
  | .bad st ad => .bad st ad
  | .need l => .need l

def Rd.bind {α β : Type} (r : Rd α) (f : α → Rd β) : Rd β :=
  match r with
  | .ok a => f a
  | .bad st ad => .bad st ad
  | .need l => .need l

/-- A failure reported at another address. -/
def Rd.atAddr {α : Type} (ad : Nat) (r : Rd α) : Rd α :=
  match r with
  | .bad st _ => .bad st ad
  | r => r

/-- A failure within an area that starts at an address. -/
def Rd.within {α : Type} (lo : Nat) (r : Rd α) : Rd α :=
  match r with
  | .bad st ad => .bad st (max lo ad)
  | r => r

/-- The first address of each line that a range touches. -/
def linesOf (a n : Nat) : List Nat :=
  if n = 0 then [] else (List.range ((a + n - 1) / 64 - a / 64 + 1)).map (fun i => (a / 64 + i) * 64)

/-- Whether a line of a peer lies in a page that the Depot holds there (tier 2, R22). -/
def State.peerPage (s : State) (l : Nat) : Bool :=
  s.depot.pages.any (fun p => p.2.tier == 2 && decide (p.2.addr ≤ l) && decide (l < p.2.addr + p.2.size))

/-- Whether an image address has backing memory as this device knows it (R27); a dead device's has none (R334), and a Depot
page that a peer holds for this device lies in that peer's Depot region. -/
def State.imgBacked (s : State) (a : Nat) : Bool :=
  if imgDev a = s.sys.deviceId then decide (imgOff a < s.regionBase)
  else decide (imgDev a < s.sys.deviceCount) && !s.coh.dead.contains (imgDev a) && !s.peerPage (imgLine a)

/-- Whether a local physical line reads as poisoned: it is marked, or its stored codeword gives no data (R332, R434). -/
def State.linePoisoned (s : State) (line : Nat) : Bool := (s.dram.poisoned.find line).isSome || s.rawLost line

/-- What stands against reading one line of image memory: a status, or `none`. -/
def State.imgLineFault (s : State) (a : Nat) : Option Nat :=
  if !s.imgBacked a then some stBusError
  else if imgDev a = s.sys.deviceId then (if s.linePoisoned (imgLine a) then some stPoisonRead else none)
  else
    match s.coh.readBuf.find (imgLine a) with
    | some (st, _) => if st = stOk then none else some st
    | none => none

/-- Remote lines of a range that have not been read. -/
def State.imgMissing (s : State) (a n : Nat) : List Nat :=
  ((linesOf a n).filter (fun l => s.imgBacked l && imgDev l != s.sys.deviceId
    && (s.coh.readBuf.find (imgLine l)).isNone)).map imgLine

/-- The bytes of a backed range, remote lines from what their reads returned. -/
def State.imgBytes (s : State) (a n : Nat) : List Byte :=
  if imgDev a = s.sys.deviceId then s.mem.readN (imgOff a) n
  else
    let ls := linesOf a n
    sliceB (ls.flatMap (fun l => fitTo 64 (((s.coh.readBuf.find (imgLine l)).map (fun p => p.2)).getD [])))
      (a % 64) n

/-- A read of image memory by a unit; of several failing lines' statuses R12 selects. -/
def State.imgRead (s : State) (a n : Nat) : Rd (List Byte) :=
  match s.imgMissing a n with
  | l :: ls => .need (l :: ls)
  | [] =>
    match (linesOf a n).filterMap (fun l => (s.imgLineFault l).map (fun st => (st, l))) with
    | [] => .ok (s.imgBytes a n)
    | f :: fs =>
      let st := pickStatus ((f :: fs).map (fun x => x.1))
      .bad st (((f :: fs).find? (fun x => x.1 == st)).getD f).2

/-- A read through a reference, in image or host memory. -/
def State.refRead (s : State) (t r n : Nat) : Rd (List Byte) :=
  if refHost r then
    match s.hostRead t (refAddr r) n with
    | .ok b => .ok b
    | .error st => .bad st (refAddr r)
  else s.imgRead (refAddr r) n

end Sys2Proof.Machine
end

