-- ==== Sys2Proof/Machine/Columns.lean ====
section
/-! DEFINITION. Column blocks: headers, the checks of Table 03.15, encodings, dictionaries and block lists
(R102 to R114). -/
namespace Sys2Proof.Machine

/-- A column block header (Table 03.13). -/
structure BlockHdr where
  magic : Nat
  ty : Nat
  enc : Nat
  param : Nat
  deflate : Bool
  raw : Bool
  rows : Nat
  nulls : Nat
  payload : Nat
  inner : Nat
  zmin : List Byte
  zmax : List Byte
  crc : Nat
  hasNan : Bool
  zoneValid : Bool
  reservedOk : Bool
  deriving DecidableEq, Repr

/-- The header's fields in its 64 bytes. -/
def blockHdr (b : List Byte) : BlockHdr :=
  let w (i : Nat) : Nat := getLe b (8 * i) 8
  { magic := fld (w 0) 63 48, ty := fld (w 0) 47 40, enc := fld (w 0) 39 32, param := fld (w 0) 31 24
    deflate := bitAt (w 0) 23, raw := bitAt (w 0) 22
    rows := fld (w 1) 63 32, nulls := fld (w 1) 31 0, payload := fld (w 2) 63 32, inner := fld (w 2) 31 0
    zmin := sliceB b 24 16, zmax := sliceB b 40 16, crc := fld (w 7) 63 32
    hasNan := bitAt (w 7) 1, zoneValid := bitAt (w 7) 0
    reservedOk := fld (w 0) 21 0 == 0 && fld (w 7) 31 3 == 0 }

/-- Bits of a type's integer form. -/
def tyBits (t : Nat) : Nat := 8 * tyBytes t 0

/-- Whether a type, an encoding and its parameter go together (Table 03.14). -/
def encodingOk (t enc param : Nat) : Bool :=
  let small := t == tyI8 || t == tyI16 || t == tyI32 || t == tyI64 || t == tyDate || t == tyTsUs || t == tyTsNs
  match enc with
  | 0 => tyOk t && param == 0
  | 1 => (t == tyBool && param == 1) || ((small || t == tyVarDict) && decide (1 ≤ param) && decide (param ≤ tyBits t))
  | 2 => (small || t == tyI128 || t == tyDec) && decide (1 ≤ param) && decide (param ≤ min 64 (tyBits t))
  | 3 => small && decide (1 ≤ param) && decide (param ≤ 64)
  | 4 => tyOk t && t != tyVarchar && param == 0
  | 5 => tyOk t && t != tyVarchar && decide (1 ≤ param) && decide (param ≤ 24)
  | _ => false

/-- Check 1. -/
def BlockHdr.check1 (h : BlockHdr) : Bool := h.magic == 0x7C31 && decide (8 ≤ h.payload) && decide (h.payload ≤ 65472)

/-- Check 2. -/
def BlockHdr.check2 (h : BlockHdr) (hdr payload : List Byte) : Bool :=
  crc32c (hdr.take 56 ++ payload) == h.crc

/-- Check 3. -/
def BlockHdr.check3 (h : BlockHdr) (c : Column) : Bool :=
  h.ty == c.ty && h.reservedOk && encodingOk h.ty h.enc h.param && !(h.raw && h.deflate)
    && h.inner % 8 == 0 && decide (h.inner ≤ 65536) && (h.deflate || h.inner == h.payload)

/-- The header checks 1, 3, 4 and 5 in order (R121): the first that fails. -/
def BlockHdr.headerFault (h : BlockHdr) (c : Column) (rows : Nat) : Option Nat :=
  if !h.check1 then some stBlockEncoding
  else if !h.check3 c then some stBlockEncoding
  else if h.rows < rows then some stLenShort
  else if rows < h.rows then some stLenLong
  else none

/-- Checks 1 to 5 with the CRC (Table 03.15). -/
def BlockHdr.fault (h : BlockHdr) (c : Column) (rows : Nat) (hdr payload : List Byte) : Option Nat :=
  if !h.check1 then some stBlockEncoding
  else if !h.check2 hdr payload then some stBlockCrc
  else h.headerFault c rows

/-- Checks 6 to 9: the inner stream, or the status of the first condition met. -/
def BlockHdr.innerStream (h : BlockHdr) (payload : List Byte) : Except Nat (List Byte) :=
  if !h.deflate then .ok payload
  else
    let r := inflate h.inner payload
    match r.ending with
    | .invalid => .error stBlockEncoding
    | .limit => .error stInflateLimit
    | .short => .error stLenShort
    | .done =>
      if r.out.length < h.inner then .error stLenShort
      else if 0 < r.restBytes then .error stLenLong
      else .ok r.out

/-- Bytes of the null bitmap of an inner stream (R110). -/
def BlockHdr.nullBytes (h : BlockHdr) : Nat := if h.nulls = 0 then 0 else roundUp (ceilDiv h.rows 8) 8

/-- Bytes that the values of `rows` rows need in the value part; none when the part is too short to tell. -/
def BlockHdr.needBytes (h : BlockHdr) (c : Column) (body : List Byte) : Option Nat :=
  let w := tyBytes c.ty c.width
  match h.enc with
  | 0 =>
    if c.ty = tyVarchar then
      if body.length < 4 * (h.rows + 1) then none
      else some (4 * (h.rows + 1) + getLe body (4 * h.rows) 4)
    else some (h.rows * w)
  | 1 => some (ceilDiv (h.rows * h.param) 8)
  | 2 => some ((if w = 16 then 16 else 8) + ceilDiv (h.rows * h.param) 8)
  | 3 => some (8 + ceilDiv ((h.rows - 1) * h.param) 8)
  | 4 =>
    if body.length < 4 then none
    else
      let n := getLe body 0 4
      some (roundUp (4 + 4 * n) 8 + n * w)
  | _ => some (ceilDiv (h.rows * h.param) 8)

/-- `n` values of `w` bits from a packed sequence (R111). -/
def unpack (n w : Nat) (b : List Byte) : List Nat :=
  ((chunks w ((bitsOfBytes b).take (n * w))).take n).map natOfBits

/-- A value from the low bits of a number, in the type's width. -/
def valOfNat (t n : Nat) : Val := if tyUnsigned t then .int (n % 2 ^ tyBits t : Nat) else .int (toSigned (tyBits t) n)

/-- The zigzag inverse modulo 2^64 (Table 03.14). -/
def unzigzag (z : Nat) : Nat := if z % 2 = 0 then z / 2 else 2 ^ 64 - 1 - z / 2

/-- Running sums modulo 2^64. -/
def deltaSums (v : Nat) : List Nat → List Nat
  | [] => [v]
  | z :: l => v :: deltaSums ((v + unzigzag z) % 2 ^ 64) l

/-- The strings of ascending offsets over bytes. -/
def cutStrings : List Nat → List Byte → List (List Byte)
  | a :: b :: l, bs => bs.take (b - a) :: cutStrings (b :: l) (bs.drop (b - a))
  | _, _ => []

/-- Whether numbers never fall. -/
def ascending : List Nat → Bool
  | a :: b :: l => decide (a ≤ b) && ascending (b :: l)
  | _ => true

/-- The rows of the value part: values, or dictionary codes (encoding DICT of a type other than VARCHAR_DICT);
none where run lengths or offsets break check 12. -/
def BlockHdr.values (h : BlockHdr) (c : Column) (body : List Byte) : Option (List Val) :=
  let w := tyBytes c.ty c.width
  match h.enc with
  | 0 =>
    if c.ty = tyVarchar then
      let offs := ((chunks 4 (body.take (4 * (h.rows + 1)))).map leNat)
      if offs.headD 1 = 0 ∧ ascending offs = true then
        some ((cutStrings offs (body.drop (4 * (h.rows + 1)))).map Val.str)
      else none
    else some (((chunks w body).take h.rows).map (valOfBytes c.ty))
  | 1 => some ((unpack h.rows h.param body).map (valOfNat c.ty))
  | 2 =>
    let rb := if w = 16 then 16 else 8
    let base := getLe body 0 rb
    some ((unpack h.rows h.param (body.drop rb)).map (fun d => valOfNat c.ty (base + d)))
  | 3 => some ((deltaSums (getLe body 0 8) (unpack (h.rows - 1) h.param (body.drop 8))).map (valOfNat c.ty))
  | 4 =>
    let n := getLe body 0 4
    let lens := (chunks 4 ((body.drop 4).take (4 * n))).map leNat
    let vals := ((chunks w (body.drop (roundUp (4 + 4 * n) 8))).take n).map (valOfBytes c.ty)
    if sumNat lens = h.rows ∧ lens.all (fun l => decide (1 ≤ l) && decide (l ≤ 65536)) = true then
      some ((List.zip lens vals).flatMap (fun p => List.replicate p.1 p.2))
    else none
  | _ => some ((unpack h.rows h.param body).map (fun n => Val.int (n : Nat)))

/-- Whether the values of a block are dictionary codes that stand for values of the column's type. -/
def BlockHdr.viaDict (h : BlockHdr) : Bool := h.enc == 5 && h.ty != tyVarDict

/-- Whether a null row. -/
def BlockHdr.isNull (h : BlockHdr) (inner : List Byte) (i : Nat) : Bool :=
  h.nulls != 0 && (inner.getD (i / 8) 0).getLsbD (i % 8)

/-- A zone bound as a value of a column's type (R114). -/
def zoneVal (t : Nat) (z : List Byte) : Val :=
  if tyIsFp t then .fp (getLe z 0 8)
  else if tyIsStr t then .str z
  else if t = tyVarDict then .int (getLe z 0 16)
  else .int (toSigned 128 (getLe z 0 16))

/-- The form in which a value is held against zone bounds: FP64, or the 16-byte prefix of a string. -/
def zoneForm (t : Nat) (v : Val) : Val :=
  match v with
  | .fp _ => .fp (v.asF64 t)
  | .str b => .str (fitTo 16 b)
  | .int z => .int z

/-- The type with which zone forms compare. -/
def zoneTy (t : Nat) : Nat := if tyIsFp t then tyF64 else t

/-- A value that a block of this header may not hold by its zone fields (check 12). -/
def BlockHdr.zoneBreak (h : BlockHdr) (v : Val) : Bool :=
  let z := zoneForm h.ty v
  let nan := tyIsFp h.ty && fpIsNan fp64 (z.asF64 tyF64)
  if nan then false
  else if h.zoneValid then
    valLt (zoneTy h.ty) (zoneTy h.ty) z (zoneVal h.ty h.zmin) || valLt (zoneTy h.ty) (zoneTy h.ty) (zoneVal h.ty h.zmax) z
  else tyIsFp h.ty && h.hasNan

/-- A value out of range for its column: a BOOL above 1, a DECIMAL128 beyond its precision. -/
def valueBreak (c : Column) (v : Val) : Bool :=
  match v with
  | .int z => (c.ty == tyBool && decide (1 < z)) || (c.ty == tyDec && decide ((10 ^ c.precision : Nat) ≤ z.natAbs))
  | _ => false

/-- Bytes of a dictionary of fixed-width values. -/
def Column.dictWidth (c : Column) : Nat := tyBytes c.ty c.width

/-- Dictionary values for codes (R119): a dictionary of at most 256 KiB comes from the SCN's buffer, or is read whole
and goes into it; a larger one is read entry by entry (log 18). -/
structure DictRead where
  vals : List (Option Val)
  /-- The dictionary that was loaded. -/
  loaded : Option (List Byte)
  /-- What was read: address and length. -/
  ranges : List (Nat × Nat)

def State.dictValues (s : State) (c : Column) (buf : Option (List Byte)) (codes : List (Option Nat)) : Rd DictRead :=
  let w := c.dictWidth
  let n := c.dictEntries * w
  let pick (b : List Byte) : List (Option Val) :=
    codes.map (fun x => x.map (fun i => valOfBytes c.ty (sliceB b (i * w) w)))
  if n ≤ 262144 then
    if codes.all (fun x => x.isNone) then .ok { vals := codes.map (fun _ => none), loaded := none, ranges := [] }
    else
      match buf with
      | some b => .ok { vals := pick b, loaded := none, ranges := [] }
      | none => (s.imgRead (refAddr c.dict) n).map (fun b =>
          { vals := pick b, loaded := some b, ranges := [(refAddr c.dict, n)] })
  else
    (codes.foldr (fun x (acc : Rd (List (Option Val))) => acc.bind (fun l =>
      match x with
      | none => .ok (none :: l)
      | some i => (s.imgRead (refAddr c.dict + i * w) w).map (fun b => some (valOfBytes c.ty b) :: l))) (.ok [])).map
      (fun l => { vals := l, loaded := none
                  ranges := codes.filterMap (fun x => x.map (fun i => (refAddr c.dict + i * w, w))) })

/-- What a decoded inner stream yields: its slots or a status, with what its dictionary gave. -/
structure Decoded where
  res : Except Nat (List Slot)
  loaded : Option (List Byte)
  ranges : List (Nat × Nat)

def Decoded.fail (st : Nat) : Decoded := { res := .error st, loaded := none, ranges := [] }

/-- A dictionary of more than 256 KiB is not kept in the SCN's buffer (R119). -/
def Column.bigDict (c : Column) : Bool := decide (262144 < c.dictEntries * c.dictWidth)

/-- Checks 10 to 12 and decoding: the slots of a block's rows, or a status. Check 12 looks at the codes, BOOL and
DECIMAL128 values of every row (Table 03.14: ROW_COUNT codes, each below DICT_ENTRIES). -/
def State.decodeInner (s : State) (h : BlockHdr) (c : Column) (buf : Option (List Byte)) (inner : List Byte) :
    Rd Decoded :=
  if inner.length < h.nullBytes then .ok (.fail stLenShort)
  else
    let body := inner.drop h.nullBytes
    match h.needBytes c body with
    | none => .ok (.fail stLenShort)
    | some need =>
      if body.length < need then .ok (.fail stLenShort)
      else if roundUp need 8 < body.length then .ok (.fail stLenLong)
      else
        let nulls := (List.range h.rows).map (h.isNull inner)
        if (nulls.filter id).length ≠ h.nulls ∨ (h.nulls ≠ 0 ∧ c.nullable = false) then .ok (.fail stBlockEncoding)
        else
          match h.values c body with
          | none => .ok (.fail stBlockEncoding)
          | some vals =>
            let slots : List Slot := (List.zip nulls vals).map (fun p => if p.1 then none else some p.2)
            let isCode := h.enc == 5 || c.ty == tyVarDict
            if isCode && vals.any (fun v => decide ((c.dictEntries : Int) ≤ v.asInt))
                || !h.viaDict && vals.any (valueBreak c) then .ok (.fail stBlockEncoding)
            else
              let whole : Rd DictRead :=
                if h.viaDict then s.dictValues c buf (slots.map (fun v => v.map (fun v => v.asInt.toNat)))
                else .ok { vals := slots, loaded := none, ranges := [] }
              whole.map (fun d =>
                { res := if d.vals.any (fun v => match v with
                      | some v => valueBreak c v || h.zoneBreak v
                      | none => false) then .error stBlockEncoding
                    else .ok d.vals
                  loaded := d.loaded, ranges := d.ranges })

/-! ## Block lists (R103) -/

/-- A block-list entry. -/
structure BlockEnt where
  ref : Nat
  rows : Nat
  first : Nat
  deriving DecidableEq, Repr

def blockEnt (b : List Byte) : BlockEnt :=
  let w1 := getLe b 8 8
  { ref := getLe b 0 8, rows := fld w1 63 48 + 1, first := fld w1 47 0 }

/-- Whether consecutive blocks meet. -/
def blocksMeet : List BlockEnt → Bool
  | a :: b :: l => (a.first + a.rows == b.first) && blocksMeet (b :: l)
  | _ => true

/-- Whether a block list is well formed and covers rows `lo` to `hi` (R103, R84, R85). A null block reference is refused
too, which the spec does not say (DESIGN CHOICE; log 65). -/
def blockListOk (l : List BlockEnt) (lo hi : Nat) : Bool :=
  blocksMeet l
    && l.all (fun e => !refHost e.ref && !refBad e.ref && e.ref % 64 == 0 && e.ref != 0)
    && (match l.head?, l.getLast? with
        | some a, some z => decide (a.first ≤ lo) && decide (hi < z.first + z.rows)
        | _, _ => false)

/-- The entries of a column's block list; a failed read names the first entry in the failing line (R146). -/
def State.readBlockList (s : State) (c : Column) : Rd (List BlockEnt) :=
  ((s.imgRead (refAddr c.blockList) (16 * c.blockCount)).within (refAddr c.blockList)).map (fun b => (chunks 16 b).map blockEnt)

/-- What reading one block whole yields: its slots or a check's status. -/
structure BlockRead where
  hdr : BlockHdr
  /-- The payload was read (R147). -/
  payload : Bool
  /-- INNER_BYTES charged for a DEFLATE block (R130). -/
  charge : Nat
  res : Decoded
  /-- The address at which its dictionary could not be read; the status stands in `res`. -/
  bad : Option Nat := none

/-- The header of a block. -/
def State.readHdr (s : State) (e : BlockEnt) : Rd (List Byte) := (s.imgRead (refAddr e.ref) 64).atAddr (refAddr e.ref)

/-- The stored payload of a block. -/
def State.readPayload (s : State) (e : BlockEnt) (h : BlockHdr) : Rd (List Byte) :=
  (s.imgRead (refAddr e.ref + 64) h.payload).atAddr (refAddr e.ref)

/-- Reads and checks a block whole; `left` is what the job may still inflate (R130), `buf` the column's dictionary in
the SCN's buffer. -/
def State.readBlock (s : State) (c : Column) (e : BlockEnt) (left : Nat) (buf : Option (List Byte)) : Rd BlockRead :=
  (s.readHdr e).bind (fun hb =>
    let h := blockHdr hb
    if !h.check1 then .ok { hdr := h, payload := false, charge := 0, res := .fail stBlockEncoding }
    else
      (s.readPayload e h).bind (fun pay =>
        match h.fault c e.rows hb pay with
        | some st => .ok { hdr := h, payload := true, charge := 0, res := .fail st }
        | none =>
          if h.deflate && decide (left < h.inner) then
            .ok { hdr := h, payload := true, charge := 0, res := .fail stInflateLimit }
          else
            let charge := if h.deflate then h.inner else 0
            match h.innerStream pay with
            | .error st => .ok { hdr := h, payload := true, charge := charge, res := .fail st }
            | .ok inner =>
              match s.decodeInner h c buf inner with
              | .ok r => .ok { hdr := h, payload := true, charge := charge, res := r }
              | .bad st ad => .ok { hdr := h, payload := true, charge := charge, res := .fail st, bad := some ad }
              | .need l => .need l))

/-- What a block read took from memory beside its dictionary. -/
def BlockRead.ranges (b : BlockRead) (e : BlockEnt) : List (Nat × Nat) :=
  [(refAddr e.ref, 64)] ++ (if b.payload then [(refAddr e.ref + 64, b.hdr.payload)] else [])

/-! ## Strings of VARCHAR_DICT (R104) -/

/-- The bytes of a dictionary entry of VARCHAR_DICT. -/
def State.dictString (s : State) (c : Column) (code : Nat) : Rd (List Byte) :=
  (s.imgRead (refAddr c.dict + 4 * code) 8).bind (fun b =>
    let a := getLe b 0 4
    let z := getLe b 4 4
    if z ≤ a then .ok []
    else s.imgRead (refAddr c.dict + 4 * (c.dictEntries + 1) + a) (z - a))

end Sys2Proof.Machine
end

