-- ==== Sys2Proof/Machine/Digest.lean ====
section
/-! DEFINITION. The digests of Table 14.7 (FIPS 180-4, FIPS 202, FIPS 198-1) and HKDF (RFC 5869), executable. -/
namespace Sys2Proof.Machine

/-- The round constants of SHA-512; the top halves of the first 64 are those of SHA-256 (FIPS 180-4). -/
def sha512K : List Nat :=
  [0x428A2F98D728AE22, 0x7137449123EF65CD, 0xB5C0FBCFEC4D3B2F,
   0xE9B5DBA58189DBBC, 0x3956C25BF348B538, 0x59F111F1B605D019,
   0x923F82A4AF194F9B, 0xAB1C5ED5DA6D8118, 0xD807AA98A3030242,
   0x12835B0145706FBE, 0x243185BE4EE4B28C, 0x550C7DC3D5FFB4E2,
   0x72BE5D74F27B896F, 0x80DEB1FE3B1696B1, 0x9BDC06A725C71235,
   0xC19BF174CF692694, 0xE49B69C19EF14AD2, 0xEFBE4786384F25E3,
   0x0FC19DC68B8CD5B5, 0x240CA1CC77AC9C65]
  ++ [0x2DE92C6F592B0275, 0x4A7484AA6EA6E483, 0x5CB0A9DCBD41FBD4,
   0x76F988DA831153B5, 0x983E5152EE66DFAB, 0xA831C66D2DB43210,
   0xB00327C898FB213F, 0xBF597FC7BEEF0EE4, 0xC6E00BF33DA88FC2,
   0xD5A79147930AA725, 0x06CA6351E003826F, 0x142929670A0E6E70,
   0x27B70A8546D22FFC, 0x2E1B21385C26C926, 0x4D2C6DFC5AC42AED,
   0x53380D139D95B3DF, 0x650A73548BAF63DE, 0x766A0ABB3C77B2A8,
   0x81C2C92E47EDAEE6, 0x92722C851482353B]
  ++ [0xA2BFE8A14CF10364, 0xA81A664BBC423001, 0xC24B8B70D0F89791,
   0xC76C51A30654BE30, 0xD192E819D6EF5218, 0xD69906245565A910,
   0xF40E35855771202A, 0x106AA07032BBD1B8, 0x19A4C116B8D2D0C8,
   0x1E376C085141AB53, 0x2748774CDF8EEB99, 0x34B0BCB5E19B48A8,
   0x391C0CB3C5C95A63, 0x4ED8AA4AE3418ACB, 0x5B9CCA4F7763E373,
   0x682E6FF3D6B2B8A3, 0x748F82EE5DEFB2FC, 0x78A5636F43172F60,
   0x84C87814A1F0AB72, 0x8CC702081A6439EC]
  ++ [0x90BEFFFA23631E28, 0xA4506CEBDE82BDE9, 0xBEF9A3F7B2C67915,
   0xC67178F2E372532B, 0xCA273ECEEA26619C, 0xD186B8C721C0C207,
   0xEADA7DD6CDE0EB1E, 0xF57D4F7FEE6ED178, 0x06F067AA72176FBA,
   0x0A637DC5A2C898A6, 0x113F9804BEF90DAE, 0x1B710B35131C471B,
   0x28DB77F523047D84, 0x32CAAB7B40C72493, 0x3C9EBE0A15C9BEBC,
   0x431D67C49C100D4C, 0x4CC5D4BECB3E42B6, 0x597F299CFC657E2A,
   0x5FCB6FAB3AD6FAEC, 0x6C44198C4A475817]

/-- Initial values of SHA-512; their top halves are those of SHA-256 (FIPS 180-4). -/
def sha512Iv : List Nat :=
  [0x6A09E667F3BCC908, 0xBB67AE8584CAA73B, 0x3C6EF372FE94F82B,
   0xA54FF53A5F1D36F1, 0x510E527FADE682D1, 0x9B05688C2B3E6C1F,
   0x1F83D9ABFB41BD6B, 0x5BE0CD19137E2179]

/-- Initial values of SHA-384 (FIPS 180-4). -/
def sha384Iv : List Nat :=
  [0xCBBB9D5DC1059ED8, 0x629A292A367CD507, 0x9159015A3070DD17,
   0x152FECD8F70E5939, 0x67332667FFC00B31, 0x8EB44A8768581511,
   0xDB0C2E0D64F98FA7, 0x47B5481DBEFA4FA4]

/-- What sets one SHA-2 function apart: word width, rounds, and the rotations of its four sigma functions
(the last of each small sigma is a shift). -/
structure Sha2 where
  w : Nat
  big0 : Nat × Nat × Nat
  big1 : Nat × Nat × Nat
  small0 : Nat × Nat × Nat
  small1 : Nat × Nat × Nat
  ks : List Nat

/-- The 32-bit form. -/
def sha2x32 : Sha2 :=
  { w := 32, big0 := (2, 13, 22), big1 := (6, 11, 25), small0 := (7, 18, 3), small1 := (17, 19, 10)
    ks := (sha512K.take 64).map (fun k => k / 2 ^ 32) }

/-- The 64-bit form. -/
def sha2x64 : Sha2 :=
  { w := 64, big0 := (28, 34, 39), big1 := (14, 18, 41), small0 := (1, 8, 7), small1 := (19, 61, 6)
    ks := sha512K }

/-- A capital sigma function: three rotations. -/
def bigSigma {w : Nat} (r : Nat × Nat × Nat) (x : BitVec w) : BitVec w :=
  x.rotateRight r.1 ^^^ x.rotateRight r.2.1 ^^^ x.rotateRight r.2.2

/-- A small sigma function: two rotations and a shift. -/
def smallSigma {w : Nat} (r : Nat × Nat × Nat) (x : BitVec w) : BitVec w :=
  x.rotateRight r.1 ^^^ x.rotateRight r.2.1 ^^^ (x >>> r.2.2)

/-- Extends the message schedule, kept newest first. -/
def shaSchedule (p : Sha2) : Nat → List (BitVec p.w) → List (BitVec p.w)
  | 0, ws => ws
  | n + 1, ws =>
    let g (k : Nat) : BitVec p.w := ws.getD k 0
    shaSchedule p n ((smallSigma p.small1 (g 1) + g 6 + smallSigma p.small0 (g 14) + g 15) :: ws)

/-- One round. -/
def shaRound (p : Sha2) (s : List (BitVec p.w)) (kw : BitVec p.w) : List (BitVec p.w) :=
  match s with
  | [a, b, c, d, e, f, g, h] =>
    let t1 := h + bigSigma p.big1 e + ((e &&& f) ^^^ (~~~ e &&& g)) + kw
    let t2 := bigSigma p.big0 a + ((a &&& b) ^^^ (a &&& c) ^^^ (b &&& c))
    [t1 + t2, a, b, c, d + t1, e, f, g]
  | s => s

/-- One block. -/
def shaBlock (p : Sha2) (s : List (BitVec p.w)) (block : List Byte) : List (BitVec p.w) :=
  let w16 := (chunks (p.w / 8) block).map (fun c => BitVec.ofNat p.w (beNat c))
  let ws := (shaSchedule p (p.ks.length - 16) w16.reverse).reverse
  let kws := List.zipWith (fun k w => BitVec.ofNat p.w k + w) p.ks ws
  List.zipWith (· + ·) s (kws.foldl (shaRound p) s)

/-- SHA-2 of a message: its padding is a 1 bit, zeros, and the bit length. -/
def sha2 (p : Sha2) (iv : List Nat) (outBytes : Nat) (msg : List Byte) : List Byte :=
  let bl := 2 * p.w
  let z := (bl - (msg.length + 1 + p.w / 4) % bl) % bl
  let padded := msg ++ [0x80] ++ zeros z ++ natBe (p.w / 4) (8 * msg.length)
  let s := (chunks bl padded).foldl (shaBlock p) (iv.map (BitVec.ofNat p.w))
  (s.flatMap (fun x => natBe (p.w / 8) x.toNat)).take outBytes

def sha256 (m : List Byte) : List Byte := sha2 sha2x32 (sha512Iv.map (fun k => k / 2 ^ 32)) 32 m
def sha384 (m : List Byte) : List Byte := sha2 sha2x64 sha384Iv 48 m
def sha512 (m : List Byte) : List Byte := sha2 sha2x64 sha512Iv 64 m

/-! ## SHA-3 -/

/-- The round constants of Keccak-f[1600] (FIPS 202). -/
def keccakRc : List Nat :=
  [0x0000000000000001, 0x0000000000008082, 0x800000000000808A,
   0x8000000080008000, 0x000000000000808B, 0x0000000080000001,
   0x8000000080008081, 0x8000000000008009, 0x000000000000008A,
   0x0000000000000088, 0x0000000080008009, 0x000000008000000A]
  ++ [0x000000008000808B, 0x800000000000008B, 0x8000000000008089,
   0x8000000000008003, 0x8000000000008002, 0x8000000000000080,
   0x000000000000800A, 0x800000008000000A, 0x8000000080008081,
   0x8000000000008080, 0x0000000080000001, 0x8000000080008008]

/-- The rotation offsets of lane x + 5 y. -/
def keccakRho : List Nat := [0, 1, 62, 28, 27, 36, 44, 6, 55, 20, 3, 10, 43, 25, 39, 41, 45, 15, 21, 8, 18, 2, 61, 56, 14]

/-- One round of Keccak-f[1600] on 25 lanes. -/
def keccakRound (a : List Word) (rc : Nat) : List Word :=
  let g (l : List Word) (x y : Nat) : Word := l.getD (x % 5 + 5 * (y % 5)) 0
  let c := (List.range 5).map (fun x => g a x 0 ^^^ g a x 1 ^^^ g a x 2 ^^^ g a x 3 ^^^ g a x 4)
  let d := (List.range 5).map (fun x => c.getD ((x + 4) % 5) 0 ^^^ (c.getD ((x + 1) % 5) 0).rotateLeft 1)
  let t := a.zipIdx.map (fun p => (p.1 ^^^ d.getD (p.2 % 5) 0).rotateLeft (keccakRho.getD p.2 0))
  let b := (List.range 25).map (fun i =>
    let x := i % 5
    let y := i / 5
    g t (x + 3 * y) x)
  (List.range 25).map (fun i =>
    let x := i % 5
    let y := i / 5
    let v := g b x y ^^^ (~~~ g b (x + 1) y &&& g b (x + 2) y)
    if i = 0 then v ^^^ BitVec.ofNat 64 rc else v)

def keccakF (a : List Word) : List Word := keccakRc.foldl keccakRound a

/-- SHA3-256 (FIPS 202), rate 136 bytes. -/
def sha3_256 (m : List Byte) : List Byte :=
  let z := 136 - (m.length + 1) % 136
  let padded :=
    if z = 136 then m ++ [0x86]
    else m ++ [0x06] ++ zeros (z - 1) ++ [0x80]
  let absorb (a : List Word) (blk : List Byte) : List Word :=
    let ws := (chunks 8 blk).map (fun c => BitVec.ofNat 64 (leNat c))
    keccakF (List.zipWith (· ^^^ ·) a (ws ++ List.replicate 8 0))
  let s := (chunks 136 padded).foldl absorb (List.replicate 25 0)
  (s.flatMap (fun x => natLe 8 x.toNat)).take 32

/-! ## HMAC and HKDF -/

/-- The hash, block size and digest size of an algorithm code's low bits (Table 14.7). -/
def digestHash (alg : Nat) (m : List Byte) : List Byte :=
  match alg % 128 with
  | 1 => sha256 m
  | 2 => sha384 m
  | 3 => sha512 m
  | 4 => sha3_256 m
  | _ => []

def digestBlock (alg : Nat) : Nat :=
  match alg % 128 with
  | 1 => 64
  | 2 => 128
  | 3 => 128
  | _ => 136

/-- HMAC (FIPS 198-1). -/
def hmac (alg : Nat) (key m : List Byte) : List Byte :=
  let bl := digestBlock alg
  let k := fitTo bl (if bl < key.length then digestHash alg key else key)
  let ik := k.map (· ^^^ 0x36)
  let ok := k.map (· ^^^ 0x5C)
  digestHash alg (ok ++ digestHash alg (ik ++ m))

/-- HKDF-SHA-384 of 48 bytes (RFC 5869): one block of output. -/
def hkdf384 (secret salt info : List Byte) : List Byte := hmac 2 (hmac 2 salt secret) (info ++ [0x01])

/-- The digest of a message under an algorithm of Table 14.7. -/
def digestOf (alg : Nat) (key m : List Byte) : List Byte :=
  if 128 ≤ alg then hmac alg key m else digestHash alg m

end Sys2Proof.Machine
end

