-- ==== Sys2Proof/Machine/Cairn.lean ====
section
/-! DEFINITION. Cairn banks, searches, host tables and the Cairn commands (R160 to R180). -/
namespace Sys2Proof.Machine

/-! ## Rows (Table 05.4) -/

/-- Exclusive or of the bits of `[91:0]` at positions of one parity. -/
def xorBits (w start : Nat) : Bool :=
  ((List.range 46).filter (fun i => bitAt w (2 * i + start))).length % 2 == 1

/-- A row from its fields, with both parity bits. -/
def mkRow (v t : Bool) (care key : Nat) : BitVec 94 :=
  let w := v.toNat * 2 ^ 91 + t.toNat * 2 ^ 90 + care % 1024 * 2 ^ 80 + key % 2 ^ 80
  BitVec.ofNat 94 ((xorBits w 0).toNat * 2 ^ 93 + (xorBits w 1).toNat * 2 ^ 92 + w)

/-- The reset row: CARE all set, everything else zero. -/
def rowReset : BitVec 94 := BitVec.ofNat 94 (0x3FF * 2 ^ 80)

def rowV (r : BitVec 94) : Bool := r.getLsbD 91
def rowT (r : BitVec 94) : Bool := r.getLsbD 90
def rowCare (r : BitVec 94) : Nat := fld r.toNat 89 80
def rowKey (r : BitVec 94) : Nat := r.toNat % 2 ^ 80

/-- Even parity over the even and the odd bits holds. -/
def parityOk (r : BitVec 94) : Bool :=
  xorBits r.toNat 0 == r.getLsbD 93 && xorBits r.toNat 1 == r.getLsbD 92

/-- A row with V set or cleared in one step: only V changes, and the parity bit over it with it, so an upset of another
bit stays as it is (log 63). The reset row carries no parity of its own (log 19). -/
def setV (r : BitVec 94) (v : Bool) : BitVec 94 :=
  if rowV r == v then r
  else if r = rowReset then mkRow v false 0x3FF 0
  else r ^^^ BitVec.ofNat 94 (2 ^ 91 + 2 ^ 92)

/-- The fields of a row without its parity, as its shadow holds them (R175). -/
def rowFields (r : BitVec 94) : Nat := r.toNat % 2 ^ 92

/-- A row as its shadow gives it back, with good parity. -/
def fromFields (r : BitVec 94) : BitVec 94 :=
  if rowFields r = rowFields rowReset then rowReset else mkRow (rowV r) (rowT r) (rowCare r) (rowKey r)

/-- The 16 bytes of a row in its shadow page (R175). -/
def rowBytes (r : BitVec 94) : List Byte :=
  natLe 10 (rowKey r) ++ natLe 2 (rowCare r + (rowT r).toNat * 2 ^ 10 + (rowV r).toNat * 2 ^ 11) ++ zeros 4

/-- A unit from its key bytes and care bits: T is 0 when every care bit is set (R161). -/
def unitRow (v : Bool) (care key : Nat) : BitVec 94 := mkRow v (care % 1024 != 0x3FF) care key

/-- Unit `j` of a key (R139). -/
def keyUnit (key : List Byte) (j : Nat) : Nat := getLe key (10 * j) 10

/-- Whether a unit matches its part of a key (R161). -/
def unitMatches (r : BitVec 94) (k : Nat) : Bool :=
  rowV r && (List.range 10).all (fun i =>
    (rowT r && !bitAt (rowCare r) i) || rowKey r / 256 ^ i % 256 == k / 256 ^ i % 256)

/-! ## Banks -/

def bankKey (ridge bank : Nat) : Nat := ridge * 4 + bank

/-- A bank that has never been taken. -/
def Bank.reset : Bank :=
  { owner := .free, width := 1, rows := [], passes := [], repairs := [], lastScrub := 0, lastUse := 0
    shadow := (0, 0) }

def State.bank (s : State) (k : Nat) : Bank := (s.cairn.banks.find k).getD Bank.reset

def State.setBank (s : State) (k : Nat) (b : Bank) : State :=
  { s with cairn := { s.cairn with banks := s.cairn.banks.put k b } }

/-- A row of a bank; an unlisted row holds its reset value (log 19). -/
def Bank.row (b : Bank) (i : Nat) : BitVec 94 := (b.rows.find i).getD rowReset

/-- The ridge under whose number a bank's shadow stands. -/
def State.shadowRidge (s : State) (k : Nat) : Nat :=
  match (s.bank k).owner with
  | .host t n => if (s.cairn.tables.find? (fun x => x.tenant == t && x.number == n)).any (fun x => x.split)
      then k / 4 else 0
  | _ => k / 4

/-- The key of a row's shadow. -/
def State.shadowKey (s : State) (k row : Nat) : Nat := (s.shadowRidge k * 4 + k % 4) * 4096 + row

/-- The shadow of a row; none stands for the reset row. -/
def State.shadowRow (s : State) (k row : Nat) : BitVec 94 :=
  (s.cairn.shadows.find (s.shadowKey k row)).getD rowReset

/-- Rows of a bank or of its shadow with one of them written; a row at its reset value is not listed. -/
def putRow (m : SMap (BitVec 94)) (i : Nat) (r : BitVec 94) : SMap (BitVec 94) :=
  if r = rowReset then m.del i else m.put i r

/-- Writes a row of one bank. -/
def State.writeRow (s : State) (k row : Nat) (r : BitVec 94) : State :=
  s.setBank k { s.bank k with rows := putRow (s.bank k).rows row r }

/-- Writes the shadow of a row, which holds no parity. -/
def State.writeShadow (s : State) (k row : Nat) (r : BitVec 94) : State :=
  { s with cairn := { s.cairn with shadows := putRow s.cairn.shadows (s.shadowKey k row) (fromFields r) } }

/-- Clears a bank and its shadow (R164), and gives it to an owner with the page its shadow stands in. -/
def State.clearBank (s : State) (k : Nat) (owner : BankOwner) (width : Nat) (shadow : Nat × Nat) : State :=
  let lo := s.shadowKey k 0
  let s := { s with cairn := { s.cairn with
    shadows := s.cairn.shadows.filter (fun p => decide (p.1 < lo) || decide (lo + 4096 ≤ p.1)) } }
  s.setBank k { Bank.reset with owner := owner, width := width, shadow := shadow }

/-- Repairs a row from its shadow. -/
def State.repairRow (s : State) (k row : Nat) : State :=
  s.setBank k { s.bank k with rows := putRow (s.bank k).rows row (s.shadowRow k row) }

/-- The clocks of an open span's first searches of a bank. -/
def State.firstSearches (s : State) (k : Nat) : List Nat :=
  s.routes.filterMap (fun r => r.span.bind (fun sp => (sp.searched.find? (fun x => x.1 == k)).map (fun x => x.2.1)))

/-- A repair by sweep or scrub takes effect: its clock is kept while an open span has searched the bank before
(R178). -/
def State.noteRepair (s : State) (k : Nat) : State :=
  let firsts := s.firstSearches k
  let b := s.bank k
  s.setBank k { b with repairs := (b.repairs ++ [s.now]).filter (fun t => firsts.any (fun f => decide (f ≤ t))) }

/-- A row that fails parity; a row at its reset value counts as good (log 19). -/
def Bank.rowBad (b : Bank) (row : Nat) : Bool :=
  match b.rows.find row with
  | some r => !parityOk r
  | none => false

/-! ## Search (R161, R166) -/

/-- Whether entry `e` of a bank matches a key. -/
def Bank.entryMatches (b : Bank) (e : Nat) (key : List Byte) : Bool :=
  (List.range b.width).all (fun j => unitMatches (b.row (b.width * e + j)) (keyUnit key j))

/-- Entries that a bank lists rows of; an entry of reset rows is invalid and never matches. -/
def Bank.entries (b : Bank) : List Nat :=
  (b.rows.map (fun p => p.1 / b.width)).eraseDups

/-- A bank's verified matches in ascending order (R166): candidates that fail parity are repaired and counted, and the
walk returns at the first verified one unless a CAM join walks on for `all`. -/
def State.walkBank (s : State) (k : Nat) (key : List Byte) (all : Bool) : List Nat × State :=
  let b := s.bank k
  let cands := sortBy (fun (x y : Nat) => decide (x < y)) (b.entries.filter (fun e => b.entryMatches e key))
  cands.foldl (fun acc e =>
    let rows := (List.range b.width).map (fun j => b.width * e + j)
    if !all && !acc.1.isEmpty then acc
    else if rows.any (fun r => b.rowBad r) then
      (acc.1, (rows.foldl (fun s r => if b.rowBad r then s.repairRow k r else s) acc.2).oinc 0x3030 2 1)
    else (acc.1 ++ [e], acc.2)) ([], s)

/-- Bank numbers of a mask. -/
def bankList (mask : Nat) : List Nat := (List.range 4).filter (bitAt mask)

/-- Ridges of a mask. -/
def ridgeList (mask : Nat) : List Nat := (List.range 16).filter (bitAt mask)

/-- The ridges a host table stands on. -/
def CairnTable.ridgeSet (t : CairnTable) : List Nat := if t.split then ridgeList t.ridges else List.range 16

/-- Entries of one bank at a width. -/
def perBank (u : Nat) : Nat := 4096 / u

/-- Entries of a table (R162). -/
def CairnTable.entryCount (t : CairnTable) : Nat :=
  (if t.split then (ridgeList t.ridges).length else 1) * (bankList t.banks).length * perBank t.width

/-- Entry index to ridge position (0 for a replicated table), bank number and first row (R161, R162). -/
def CairnTable.place (t : CairnTable) (e : Nat) : Nat × Nat × Nat :=
  let bl := bankList t.banks
  let per := bl.length * perBank t.width
  let ridge := if t.split then (ridgeList t.ridges).getD (e / per) 0 else 0
  (ridge, bl.getD (e % per / perBank t.width) 0, e % perBank t.width * t.width)

/-- Notes a search of a bank with the span of its route (R178). -/
def State.noteSearch (s : State) (key : Option RouteKey) (k : Nat) : State :=
  match key with
  | none => s
  | some rk => s.updRoute rk (fun r => { r with span := r.span.map (fun sp =>
      { sp with searched :=
          if sp.searched.any (fun x => x.1 == k) then
            sp.searched.map (fun x => if x.1 = k then (k, x.2.1, s.now) else x)
          else sp.searched ++ [(k, s.now, s.now)] }) })

/-- Searches a host table for a key from a ridge: every bank of the table on the ridges searched walks its candidates,
and the lowest verified entry index wins (R162, R166, R168). -/
def State.searchTable (s : State) (t : CairnTable) (ridge : Nat) (rk : Option RouteKey) (key : List Byte) :
    Option Nat × State :=
  let ridges := if t.split then ridgeList t.ridges else [ridge]
  let bl := bankList t.banks
  let steps := ridges.zipIdx.flatMap (fun r => bl.zipIdx.map (fun b => (r, b)))
  steps.foldl (fun acc p =>
    let k := bankKey p.1.1 p.2.1
    let w := (acc.2.noteSearch rk k).walkBank k key false
    (acc.1.or ((w.1.head?).map (fun e =>
      ((if t.split then p.1.2 else 0) * bl.length + p.2.2) * perBank t.width + e)), w.2)) (none, s)

/-- The host table a constant's handle names for a tenant (Table 05.5). -/
def State.tableOf (s : State) (tenant handle : Nat) : Option CairnTable :=
  if fld handle 63 16 ≠ 0 ∨ fld handle 10 6 ≠ 0 ∨ fld handle 15 11 ≠ tenant then none
  else s.cairn.tables.find? (fun t => t.tenant == tenant && t.number == handle % 64)

/-! ## Tables and limits -/

/-- Banks a tenant's host tables hold on one logical ridge. -/
def State.cairnHeldOn (s : State) (tenant ridge : Nat) : Nat :=
  sumNat ((s.cairn.tables.filter (fun t => t.tenant == tenant && t.ridgeSet.contains ridge)).map
    (fun t => (bankList t.banks).length))

/-- CAIRN_HELD. -/
def State.cairnHeld (s : State) (tenant : Nat) : Nat :=
  ((List.range 16).map (s.cairnHeldOn tenant)).foldl max 0

/-- Routes whose open span has searched one of the banks end with CAIRN_REF (R180). -/
def State.endSearchers (s : State) (banks : List Nat) : State :=
  (s.routes.filter (fun r => match r.span with
    | some sp => sp.searched.any (fun x => banks.contains x.1)
    | none => false)).foldl (fun s r => s.routeFault r.key 0x0004 stCairnRef 0) s

/-- A Cairn command's fields (Table 05.6). -/
structure CairnCmd where
  cmd : Nat
  table : Nat
  entry : Nat
  w1 : Nat
  key : List Byte
  care : Nat
  reservedOk : Bool

def cairnCmd (b : List Byte) : CairnCmd :=
  let w (i : Nat) : Nat := getLe b (8 * i) 8
  { cmd := fld (w 0) 63 56, table := fld (w 0) 55 48, entry := fld (w 0) 31 0, w1 := w 1
    key := sliceB b 16 40, care := fld (w 7) 39 0
    reservedOk := fld (w 0) 47 32 == 0 && fld (w 7) 63 40 == 0 && decide (fld (w 0) 55 48 < 64) }

/-- Whether a search may be walking a table's banks while an update step takes effect: some task runs whose route's programs name
the table (R143). -/
def State.searchesFly (s : State) (t : CairnTable) : Bool :=
  s.sched.running.any (fun x => ((s.route? x.task.key).map (fun r =>
    r.widths.any (fun w => s.tableOf r.key.tenant w.1 == some t))).getD false)

/-- The searches that update steps make the banks issue again (R167): how many walks are in progress when a step takes
effect depends on clocks, so the number is free (log 59). -/
def State.countReissues (s : State) (t : CairnTable) : State :=
  if s.searchesFly t then
    let f := s.free 8
    f.2.oinc 0x3030 5 f.1.toNat
  else s

/-- Writes an entry's rows from those of an entry, which may be the same one: each copy of the table from its own rows, in
ascending ridge order, and the shadow from its own (R172). -/
def State.stepFrom (s : State) (t : CairnTable) (src dest : Nat) (f : Nat → BitVec 94 → BitVec 94) : State :=
  let a := t.place src
  let p := t.place dest
  let copies := if t.split then [(a.1, p.1)] else (List.range 16).map (fun q => (q, q))
  ((List.range t.width).foldl (fun s j =>
    (copies.foldl (fun s c =>
      s.writeRow (bankKey c.2 p.2.1) (p.2.2 + j) (f j ((s.bank (bankKey c.1 a.2.1)).row (a.2.2 + j)))) s).writeShadow
      (bankKey p.1 p.2.1) (p.2.2 + j) (f j (s.shadowRow (bankKey a.1 a.2.1) (a.2.2 + j)))) s).countReissues t

/-- A row update of an entry. -/
def State.stepRows (s : State) (t : CairnTable) (e : Nat) (f : Nat → BitVec 94 → BitVec 94) : State := s.stepFrom t e e f

/-- The rows of an entry, as READ and MOVE_ENTRY read them. -/
def State.entryRows (s : State) (t : CairnTable) (e : Nat) : List (BitVec 94) :=
  let p := t.place e
  (List.range t.width).map (fun j => (s.bank (bankKey p.1 p.2.1)).row (p.2.2 + j))

/-- An entry is valid when every unit has V = 1. -/
def State.entryValid (s : State) (t : CairnTable) (e : Nat) : Bool := (s.entryRows t e).all rowV

/-- The shadow pages of a table: one 64 KiB page per bank of a replicated table, one per bank and ridge of a split
one (R175). -/
def CairnTable.shadowPages (t : CairnTable) : Nat :=
  (bankList t.banks).length * (if t.split then (ridgeList t.ridges).length else 1)

/-- What a Cairn command answers: the new state, the status with which it fails, or a page of a peer it waits for. -/
inductive CairnAns where
  | ok (s : State)
  | fail (status : Nat)
  | ask (m : Option (Asked × SvcMsg))

/-- The page of a table's shadow that holds a bank (R175): by bank, and by ridge first where the table is split. -/
def CairnTable.shadowPage (t : CairnTable) (ridge bank : Nat) : Nat :=
  (if t.split then (ridgeList t.ridges).findIdx (fun r => r == ridge) * (bankList t.banks).length else 0)
    + (bankList t.banks).findIdx (fun b => b == bank)

/-- The banks of a new table on every ridge are cleared and owned by it. -/
def State.takeBanks (s : State) (t : CairnTable) : State :=
  t.ridgeSet.foldl (fun s r => (bankList t.banks).foldl (fun s b =>
    s.clearBank (bankKey r b) (.host t.tenant t.number) t.width (t.shadow, t.shadowPage r b)) s) s

/-- The status conditions of a CREATE_TABLE that is well formed (R171). -/
def State.createFaults (s : State) (t : CairnTable) : List Nat :=
  (if s.cairn.tables.any (fun x => x.tenant == t.tenant && x.number == t.number) then [stCairnState] else [])
    ++ (if t.ridgeSet.any (fun r =>
          decide (s.onum (tobj 0x9010 t.tenant) 1 < s.cairnHeldOn t.tenant r + (bankList t.banks).length)
          || (bankList t.banks).any (fun b => decide ((s.bank (bankKey r b)).owner ≠ .free)))
        then [stCairnFull] else [])

/-- CREATE_TABLE. The status of a table whose shadow gets no object or page is DEPOT_FULL (DESIGN CHOICE, log 64). -/
def State.createTable (s : State) (tenant : Nat) (c : CairnCmd) : CairnAns :=
  let place := fld c.w1 63 62
  let wcode := fld c.w1 61 60
  let banks := fld c.w1 59 56
  let ridges := fld c.w1 55 40
  let n := (ridgeList ridges).length
  if c.entry ≠ 0 ∨ 2 ≤ place ∨ wcode = 3 ∨ banks = 0 ∨ fld c.w1 39 32 ≠ 0
      ∨ (place = 0 ∧ ridges ≠ 0) ∨ (place = 1 ∧ n < 2) then .fail stDescMalformed
  else
    let t : CairnTable := { tenant := tenant, number := c.table, split := place == 1, width := 2 ^ wcode
                            banks := banks, ridges := ridges, shadow := 0 }
    if !(s.createFaults t).isEmpty then .fail (pickStatus (s.createFaults t))
    else
      match s.newObj tenant clsShadow 0 none (.bytes []) [] with
      | none => .fail stDepotFull
      | some (o, s) =>
        match s.ensurePages o 0 t.shadowPages with
        | .ok s =>
          let t := { t with shadow := o }
          .ok (({ s with cairn := { s.cairn with tables := s.cairn.tables ++ [t] } } : State).takeBanks t)
        | .wait m => .ask m
        | .fail .. => .fail stDepotFull

/-- Clears and frees the banks and the shadow of a host table. -/
def State.dropTable (s : State) (t : CairnTable) : State :=
  let keys := t.ridgeSet.flatMap (fun r => (bankList t.banks).map (bankKey r))
  let s := s.endSearchers keys
  let s := keys.foldl (fun s k => s.clearBank k .free 1 (0, 0)) s
  ({ s with cairn := { s.cairn with
      tables := s.cairn.tables.filter (fun x => !(x.tenant == t.tenant && x.number == t.number)) } }).freeObj t.shadow

/-- A result for SEARCH and READ goes to a 64-byte-aligned host reference (Table 05.6); the status of another one is
DESC_MALFORMED (DESIGN CHOICE, log 64). -/
def resultRefOk (r : Nat) : Bool := refHost r && r % 64 == 0

/-- The status conditions of a command's fields: reserved values, and what does not look at the table (R171). -/
def CairnCmd.badFields (c : CairnCmd) : Bool :=
  (!(c.cmd == 0x08 || c.cmd == 0x09) && fld c.w1 39 32 != 0)
    || ((c.cmd == 0x02 || c.cmd == 0x08) && c.entry != 0)
    || ((c.cmd == 0x08 || c.cmd == 0x09) && !resultRefOk c.w1)

/-- SEARCH: the result of R170. -/
def State.cairnSearch (s : State) (tenant : Nat) (t : CairnTable) (c : CairnCmd) : State :=
  let r := s.searchTable t 0 none c.key
  let w0 := match r.1 with
    | some e => 2 ^ 63 + e
    | none => 0
  r.2.hostWrite tenant (refAddr c.w1) (natLe 8 w0 ++ zeros 56)

/-- READ: the result of R170. -/
def State.cairnRead (s : State) (tenant : Nat) (t : CairnTable) (c : CairnCmd) : State :=
  let rows := s.entryRows t c.entry
  let bit (f : BitVec 94 → Bool) (lo : Nat) : Nat :=
    sumNat (rows.zipIdx.map (fun p => (f p.1).toNat * 2 ^ (lo + p.2)))
  let key := fitTo 40 (rows.flatMap (fun r => natLe 10 (rowKey r)))
  let care := sumNat (rows.zipIdx.map (fun p => rowCare p.1 * 2 ^ (10 * p.2)))
  s.hostWrite tenant (refAddr c.w1) (natLe 8 (bit rowV 60 + bit rowT 56) ++ zeros 8 ++ key ++ natLe 8 care)

/-- MOVE_ENTRY: each copy moves its own rows, with their CARE and T bits, then the destination is valid and the source is not
(R172, R173). -/
def State.moveEntry (s : State) (t : CairnTable) (src dest : Nat) : State :=
  (s.stepFrom t src dest (fun _ r => setV r true)).stepRows t src (fun _ r => setV r false)

/-- One command on a table the tenant holds (Table 05.7): the new state, or the status with which it fails. KEY bytes from 10u on
are looked at where KEY is used, CARE bits from 10u on where CARE is; fields that a command does not use may hold anything
(DESIGN CHOICE; log 64). -/
def State.cairnOn (s : State) (tenant : Nat) (t : CairnTable) (c : CairnCmd) : Except Nat State :=
  let u := t.width
  let keyBad := (c.key.drop (10 * u)).any (fun b => b != 0)
  let careBad := decide (2 ^ (10 * u) ≤ c.care)
  let dest := fld c.w1 31 0
  let writes := c.cmd == 0x04 || c.cmd == 0x06
  if (c.cmd != 0x02 && c.cmd != 0x08 && decide (t.entryCount ≤ c.entry))
      || ((writes || c.cmd == 0x08) && keyBad) || (writes && careBad)
      || (c.cmd == 0x07 && decide (t.entryCount ≤ dest)) then .error stDescMalformed
  else if c.cmd = 0x02 then .ok (s.dropTable t)
  else if c.cmd = 0x03 then .ok (s.stepRows t c.entry (fun _ r => setV r false))
  else if c.cmd = 0x04 then
    if s.entryValid t c.entry then .error stCairnState
    else .ok (s.stepRows t c.entry (fun j _ => unitRow false (c.care / 2 ^ (10 * j)) (keyUnit c.key j)))
  else if c.cmd = 0x05 then .ok (s.stepRows t c.entry (fun _ r => setV r true))
  else if c.cmd = 0x06 then
    if u ≠ 2 then .error stCairnState
    else .ok (s.stepRows t c.entry (fun j _ => unitRow true (c.care / 2 ^ (10 * j)) (keyUnit c.key j)))
  else if c.cmd = 0x07 then
    if !s.entryValid t c.entry || s.entryValid t dest || c.entry = dest then .error stCairnState
    else .ok (s.moveEntry t c.entry dest)
  else if c.cmd = 0x08 then .ok (s.cairnSearch tenant t c)
  else .ok (s.cairnRead tenant t c)

/-- Runs one command of a tenant's list (R170, R171). Where several statuses hold R12 selects: CAIRN_REF has the
higher code of its class. -/
def State.cairnRun (s : State) (tenant : Nat) (c : CairnCmd) : CairnAns :=
  if !c.reservedOk || c.cmd = 0 || decide (0x09 < c.cmd) then .fail stDescMalformed
  else if c.cmd = 0x01 then s.createTable tenant c
  else if c.badFields then .fail stDescMalformed
  else
    match s.cairn.tables.find? (fun x => x.tenant == tenant && x.number == c.table) with
    | none => .fail stCairnRef
    | some t =>
      match s.cairnOn tenant t c with
      | .ok s => .ok s
      | .error st => .fail st

/-- What a command list answers: the state it leaves, with the status and index of the command that failed, or the page
it waits for and the index of the command that waits. -/
inductive ListAns where
  | done (s : State)
  | fail (s : State) (status index : Nat)
  | ask (s : State) (index : Nat) (m : Option (Asked × SvcMsg))

/-- Runs a command list in order (R169). -/
def State.cairnList (s : State) (tenant : Nat) : Nat → List (List Byte) → ListAns
  | _, [] => .done s
  | i, b :: l =>
    match s.cairnRun tenant (cairnCmd b) with
    | .fail st => .fail s st i
    | .ask m => .ask s i m
    | .ok s' => s'.cairnList tenant (i + 1) l

/-! ## Sweeps (R176 to R178) -/

/-- Banks that have an owner. -/
def State.ownedBanks (s : State) : List Nat :=
  (s.cairn.banks.filter (fun p => decide (p.2.owner ≠ .free))).map (fun p => p.1)

/-- The physical line of a row's shadow, when its page is in local memory (16 bytes per row, R175). -/
def State.shadowLine (s : State) (k row : Nat) : Option Nat :=
  let b := s.bank k
  if b.owner = .free then none
  else
    (s.dobj? b.shadow.1).bind (fun d => (s.pageAt d b.shadow.2).bind (fun p =>
      if p.2.tier ≤ 1 then
        some (s.sys.deviceId * 2 ^ 44 + (if p.2.tier = 0 then 2 ^ 43 else 0) + (p.2.addr + 16 * row) / 64 * 64)
      else none))

/-- The bytes of a shadow object from an offset: the rows of the bank whose shadow stands in that page (R175). -/
def State.shadowBytes (s : State) (o off n : Nat) : List Byte :=
  match s.cairn.banks.find? (fun p => decide (p.2.owner ≠ .free) && p.2.shadow == (o, off / kib64)) with
  | none => zeros n
  | some (k, _) =>
    sliceB ((List.range (ceilDiv (off % 16 + n) 16)).flatMap (fun i =>
      rowBytes (s.shadowRow k (off % kib64 / 16 + i)))) (off % 16) n

/-- Whether a row's shadow is uncorrectable (R447). -/
def State.shadowLost (s : State) (k row : Nat) : Bool :=
  match s.shadowLine k row with
  | some l => s.linePoisoned l
  | none => false

/-- The parity pass over one bank: every failing row whose shadow is good is repaired, counted and recorded. -/
def State.sweepBank (s : State) (k : Nat) : State :=
  let bad := ((s.bank k).rows.map (fun p => p.1)).filter (s.bank k).rowBad
  bad.foldl (fun s row =>
    if s.shadowLost k row then s
    else (((s.repairRow k row).noteRepair k).oinc 0x3030 3 1).raise
      { severity := 0, source := 0x0004, w4 := objW4 0x3030 3 }) s

/-- The clocks of an open span's last searches of a bank. -/
def State.lastSearches (s : State) (k : Nat) : List Nat :=
  s.routes.filterMap (fun r => r.span.bind (fun sp => (sp.searched.find? (fun x => x.1 == k)).map (fun x => x.2.2)))

/-- The first pass that began after a clock. -/
def Bank.passAfter (b : Bank) (t : Nat) : Option (Nat × Nat) := b.passes.find? (fun p => decide (t < p.1))

/-- A pass over a bank has ended; those that no open span's commit looks at are forgotten. -/
def State.notePass (s : State) (p : Nat × Nat) (k : Nat) : State :=
  let b := { s.bank k with passes := (s.bank k).passes ++ [p] }
  s.setBank k { b with passes := b.passes.filter (fun q =>
    q == p || (s.lastSearches k).any (fun t => b.passAfter t == some q)) }

/-- A parity pass over all owned banks (R176): it starts in the next clock and takes 512 clocks. -/
def State.paritySweep (s : State) : State :=
  let start := s.now + 1
  let banks := s.ownedBanks
  let s := (banks.foldl State.sweepBank s).advanceTo (start + 512)
  banks.foldl (State.notePass · (start, start + 512)) s

/-- Rows in which a bank and its shadow differ; the shadow holds no parity (R175). -/
def State.scrubRows (s : State) (k : Nat) : List Nat :=
  let sh := (s.cairn.shadows.filter (fun p => decide (p.1 / 4096 = s.shadowKey k 0 / 4096))).map (fun p => p.1 % 4096)
  (((s.bank k).rows.map (fun p => p.1)) ++ sh).eraseDups.filter (fun row =>
    rowFields ((s.bank k).row row) != rowFields (s.shadowRow k row))

/-- The repair of one row by the scrub: a CORRECTED record, and a RECOVERABLE one that names the bank and the time of its
last clean scrub where a committed span may have searched the row since then (R177, R178; log 20). -/
def State.scrubRow (s : State) (k row : Nat) : State :=
  if s.shadowLost k row then s
  else
    let last := (s.bank k).lastScrub
    let used := decide (0 < (s.bank k).lastUse) && decide (last ≤ (s.bank k).lastUse)
    let s := (((s.repairRow k row).noteRepair k).oinc 0x3030 4 1).raise
      { severity := 0, source := 0x0004, w4 := objW4 0x3030 4 }
    if used then
      s.raise { severity := 2, source := 0x0004, address := k * 2 ^ 56 + last / 2 % 2 ^ 56, w4 := objW4 0x3030 4 }
    else s

/-- The shadow scrub of one bank (R177). -/
def State.scrubBank (s : State) (k : Nat) : State :=
  let rows := s.scrubRows k
  let s := rows.foldl (fun s row => s.scrubRow k row) s
  if rows.isEmpty then s.setBank k { s.bank k with lastScrub := s.now } else s

/-- A span commits: the banks it searched note when (R178). -/
def State.noteUse (s : State) (sp : Span) : State :=
  sp.searched.foldl (fun s x => s.setBank x.1 { s.bank x.1 with lastUse := max x.2.2 (s.bank x.1).lastUse }) s

/-- Reloads a bank from its shadow (R179). -/
def State.reloadBank (s : State) (k : Nat) : State :=
  let base := s.shadowKey k 0
  s.setBank k { s.bank k with
    rows := (s.cairn.shadows.filter (fun p => decide (base ≤ p.1) && decide (p.1 < base + 4096))).map
      (fun p => (p.1 - base, p.2)) }

/-- At a replay, a CAM build that the span made loses its banks, and the banks of the others are loaded from their
shadows (R179): `kept` says which (stage, ridge) the committed state holds. -/
def State.camReplay (s : State) (k : RouteKey) (kept : Nat → Nat → Bool) : State :=
  s.cairn.banks.foldl (fun s p =>
    match p.2.owner with
    | .cam rk stage =>
      if rk = k then (if kept stage (p.1 / 4) then s.reloadBank p.1 else s.clearBank p.1 .free 1 (0, 0)) else s
    | _ => s) s

/-- Condition 1 of R178 for one searched bank: a pass that began after the last search has ended. -/
def State.passClean (s : State) (x : Nat × Nat × Nat) : Bool :=
  ((s.bank x.1).passAfter x.2.2).any (fun p => decide (p.2 ≤ s.now))

/-- Condition 2 of R178: no repair took effect between the first search and the end of that pass. -/
def State.repairFree (s : State) (x : Nat × Nat × Nat) : Bool :=
  match (s.bank x.1).passAfter x.2.2 with
  | none => true
  | some p => !((s.bank x.1).repairs.any (fun t => decide (x.2.1 ≤ t) && decide (t ≤ p.2)))

end Sys2Proof.Machine
end

