-- ==== Sys2Proof/Machine/Filter.lean ====
section
/-! DEFINITION. The filter machine: programs, their checks, the instructions and zone evaluation (R126 to R143). -/
namespace Sys2Proof.Machine

/-! ## Programs (R133, Tables 04.3 to 04.5) -/

/-- An instruction word taken apart. -/
structure FInsn where
  op : Nat
  args : FArgs
  reservedOk : Bool
  deriving DecidableEq, Repr

def fInsn (w : Nat) : FInsn :=
  { op := fld w 63 56
    args := { d := fld w 55 52, a := fld w 51 48, b := fld w 47 44, g := fld w 43 40, k := bitAt w 39
              guarded := bitAt w 38, n := fld w 37 36, imm := fld w 15 0 }
    reservedOk := fld w 35 16 == 0 }

/-- A program taken apart. -/
structure FProg where
  insns : List FInsn
  consts : List FConst
  outMap : List Nat
  resultMask : Nat
  select : Bool
  dataBytes : Nat
  /-- The header, the sizes and the reserved fields are as R133 has them. -/
  formOk : Bool
  /-- Reserved bits of the constants are zero. -/
  constsOk : Bool
  deriving DecidableEq, Repr

def fConst (data : List Byte) (w0 w1 : Nat) : FConst :=
  { kind := fld w0 63 56, ty := fld w0 55 48, scale := fld w0 47 40, hasNull := bitAt w0 39
    length := fld w0 31 0, raw := w1, bytes := data.drop (w1 % 2 ^ 32) }

/-- The program in its bytes. -/
def parseProg (b : List Byte) : FProg :=
  let w0 := getLe b 0 8
  let ni := fld w0 55 48
  let nc := fld w0 47 40
  let db := fld w0 31 0
  let io := 128
  let co := io + roundUp (8 * ni) 64
  let dof := co + roundUp (16 * nc) 64
  let data := (b.drop dof).take db
  { insns := (List.range ni).map (fun i => fInsn (getLe b (io + 8 * i) 8))
    consts := (List.range nc).map (fun i => fConst data (getLe b (co + 16 * i) 8) (getLe b (co + 16 * i + 8) 8))
    outMap := (sliceB b 64 64).map (fun x => x.toNat)
    resultMask := fld w0 39 37, select := bitAt w0 36, dataBytes := db
    formOk := fld w0 63 56 == 1 && decide (1 ≤ ni) && decide (ni ≤ 64) && decide (nc ≤ 64)
      && fld w0 35 32 == 0 && db % 64 == 0 && (sliceB b 8 56).all (fun x => x == 0)
      && b.length == dof + db
      && (sliceB b (io + 8 * ni) (co - io - 8 * ni)).all (fun x => x == 0)
      && (sliceB b (co + 16 * nc) (dof - co - 16 * nc)).all (fun x => x == 0)
    constsOk := (List.range nc).all (fun i => fld (getLe b (co + 16 * i) 8) 38 32 == 0) }

/-! ## Register types -/

/-- What is known of a column register before a program runs. -/
structure RegT where
  ty : Nat
  scale : Nat
  width : Nat
  sorted : Bool
  nullable : Bool
  deriving DecidableEq, Repr

def Column.regT (c : Column) : RegT :=
  { ty := c.ty, scale := c.scale, width := c.width, sorted := c.dictSorted, nullable := c.nullable }

/-- A scalar constant as an operand. -/
def FConst.regT (c : FConst) : RegT :=
  { ty := c.ty, scale := c.scale, width := if c.ty = tyFixed then c.length else 0, sorted := true, nullable := false }

/-- DATE and TIMESTAMP types. -/
def tyIsTime (t : Nat) : Bool := t == tyDate || t == tyTsUs || t == tyTsNs

/-- Comparison operands that R138 allows. -/
def cmpTypes (a b : RegT) : Bool :=
  (tyIsPlainInt a.ty && tyIsPlainInt b.ty) || (tyIsFp a.ty && tyIsFp b.ty)
    || (a.ty == tyDec && b.ty == tyDec && a.scale == b.scale)
    || (a.ty == b.ty && a.ty != tyDec)

/-- Operands of an ordering comparison: VARCHAR_DICT needs sorted dictionaries (R138). -/
def ordTypes (a b : RegT) : Bool := cmpTypes a b && (a.ty != tyVarDict || (a.sorted && b.sorted))

/-- The plain integer type of a type's integer form. -/
def intForm (t : Nat) : Nat := if t = tyDate then tyI32 else if t = tyTsUs ∨ t = tyTsNs then tyI64 else t

/-- The wider of two integer types. -/
def wider (a b : Nat) : Nat := if tyBytes a 0 < tyBytes b 0 then b else a

/-- The type of an arithmetic result (R141); none where the operands are not allowed. -/
def arithType (op : Nat) (a b : RegT) : Option (Nat × Nat) :=
  if tyIsArithInt a.ty && tyIsArithInt b.ty then
    some (if tyIsTime a.ty then a.ty else wider a.ty (intForm b.ty), 0)
  else if a.ty == tyDec && b.ty == tyDec then
    if (op = 0x30 ∨ op = 0x31) ∧ a.scale = b.scale then some (tyDec, a.scale)
    else if op = 0x32 ∧ a.scale + b.scale ≤ 38 then some (tyDec, a.scale + b.scale)
    else none
  else if tyIsFp a.ty && tyIsFp b.ty then
    some (if a.ty = tyF32 ∧ b.ty = tyF32 then tyF32 else tyF64, 0)
  else none

/-- Numeric types, which CAST converts among (log 21). -/
def tyIsNum (t : Nat) : Bool := tyIsArithInt t || t == tyDec || tyIsFp t

/-- Smallest entry width of a Cairn search (Table 04.7). -/
def cairnMinU (op t : Nat) : Nat := if op = 0x19 ∧ (t = tyI128 ∨ t = tyDec) then 2 else 1

/-! ## Constants -/

/-- A scalar constant's type and value as a comparison takes it: an FP32 constant as its FP64 pattern (R127). -/
def FConst.scalar (c : FConst) : Nat × Val :=
  if tyIsFp c.ty then (tyF64, .fp c.raw)
  else if tyIsStr c.ty then (c.ty, .str (fitTo c.length c.bytes))
  else if c.ty = tyI128 ∨ c.ty = tyDec then (c.ty, .int (toSigned 128 (getLe c.bytes 0 16)))
  else if tyUnsigned c.ty then (c.ty, .int (c.raw % 2 ^ tyBits c.ty : Nat))
  else (c.ty, .int (toSigned (tyBits c.ty) c.raw))

/-- A scalar constant as an arithmetic operand: an FP32 one rounded to FP32. -/
def FConst.arith (c : FConst) : Nat × Val :=
  if c.ty = tyF32 then (tyF32, .fp (fpConvert fp64 fp32 0 c.raw).1) else c.scalar

/-- The values of a list constant; `width` is the FIXEDBIN width of the register tested (R135). -/
def FConst.listVals (c : FConst) (width : Nat) : List Val :=
  if c.ty = tyVarchar then
    let offs := (List.range (c.length + 1)).map (fun i => getLe c.bytes (4 * i) 4)
    (cutStrings offs ((c.bytes.drop (4 * (c.length + 1))).drop (offs.headD 0))).map Val.str
  else
    let w := tyBytes c.ty width
    (List.range c.length).map (fun i => valOfBytes c.ty (sliceB c.bytes (i * w) w))

/-- Bytes of a list from its offset. -/
def FConst.listBytes (c : FConst) (width : Nat) : Nat :=
  if c.ty = tyVarchar then 4 * (c.length + 1) + getLe c.bytes (4 * c.length) 4
  else c.length * tyBytes c.ty width

/-- Whether values ascend strictly in the order of R132. -/
def strictlyUp (t : Nat) : List Val → Bool
  | a :: b :: l => valLt t t a b && strictlyUp t (b :: l)
  | _ => true

/-- Whether a list constant passes Table 04.8. -/
def FConst.listOk (c : FConst) (dataBytes width : Nat) : Bool :=
  decide (1 ≤ c.length) && decide (c.length ≤ 65536) && decide (c.raw % 2 ^ 32 + c.listBytes width ≤ dataBytes)
    && (c.ty != tyVarchar || ascending ((List.range (c.length + 1)).map (fun i => getLe c.bytes (4 * i) 4)))
    && strictlyUp c.ty (c.listVals width)

/-- Whether a constant's own fields are allowed (Tables 04.4 and 04.8); list contents are checked where used, and
here for the types whose width is fixed. -/
def FConst.formOk (c : FConst) (dataBytes : Nat) : Bool :=
  let offs := c.raw / 2 ^ 32 == 0 && c.raw % 8 == 0
  let scaleOk := if c.ty = tyDec then decide (c.scale ≤ 38) else c.scale == 0
  match c.kind with
  | 0 => tyOk c.ty && scaleOk && !c.hasNull &&
      (if tyIsStr c.ty then offs && decide (c.length ≤ 65535) && decide (c.raw % 2 ^ 32 + c.length ≤ dataBytes)
       else c.length == 0 && (if c.ty = tyI128 ∨ c.ty = tyDec then offs && decide (c.raw % 2 ^ 32 + 16 ≤ dataBytes)
         else true))
  | 1 => tyOk c.ty && scaleOk && offs && decide (1 ≤ c.length) && decide (c.length ≤ 65536)
      && (c.ty == tyFixed || c.listOk dataBytes 0)
  | 2 => c.ty == 0 && c.length == 0 && c.scale == 0 && !c.hasNull
  | _ => false

/-! ## Program checks (R142) -/

/-- What the checker knows while it reads a program. -/
structure FEnv where
  cols : SMap RegT
  masks : List Nat

/-- Whether an opcode's unused fields are zero (Table 04.5). -/
def FInsn.fieldsOk (i : FInsn) : Bool :=
  let x := i.args
  let z (n : Nat) : Bool := n == 0
  let gz := z x.g && !x.guarded
  let guard := x.guarded || z x.g
  i.reservedOk && (
    if i.op = 0x01 then z x.a && z x.b && gz && !x.k && z x.n
    else if 0x10 ≤ i.op ∧ i.op ≤ 0x15 then gz && z x.n && (if x.k then z x.b else z x.imm)
    else if i.op = 0x16 then !x.guarded && z x.n && (if x.k then z x.b && z x.g else z x.imm)
    else if i.op = 0x17 then z x.b && gz && !x.k && z x.n && z x.imm
    else if 0x18 ≤ i.op ∧ i.op ≤ 0x1B then z x.b && gz && !x.k && z x.n
    else if i.op = 0x20 ∨ i.op = 0x21 then gz && !x.k && z x.n && z x.imm
    else if 0x22 ≤ i.op ∧ i.op ≤ 0x25 then z x.b && gz && !x.k && z x.n && z x.imm
    else if 0x30 ≤ i.op ∧ i.op ≤ 0x34 then guard && z x.n && (if x.k then z x.b else z x.imm)
    else if i.op = 0x35 then z x.b && guard && !x.k && z x.n && z x.imm
    else if i.op = 0x36 then z x.b && guard && !x.k && z x.n
    else if i.op = 0x38 then !x.k && !x.guarded && decide (x.n ≤ 2)
      && (decide (1 ≤ x.n) || z x.b) && (decide (2 ≤ x.n) || z x.g)
    else if i.op = 0x39 then z x.b && gz && !x.k && z x.n && z x.imm
    else false)

/-- Checks one instruction and notes what it writes; none where Table 04.8 refuses it. -/
def FInsn.check (p : FProg) (inputs : List RegT) (i : FInsn) (e : FEnv) : Option FEnv :=
  let x := i.args
  let mask (m : Nat) : Bool := e.masks.contains m
  let setM : Option FEnv := if x.d < 8 then some { e with masks := x.d :: e.masks } else none
  let setC (t : RegT) : Option FEnv := some { e with cols := e.cols.put x.d t }
  let const (n kind : Nat) : Option FConst := (p.consts[n]?).bind (fun c => if c.kind = kind then some c else none)
  let guardOk := !x.guarded || mask x.g
  if !i.fieldsOk then none
  else if i.op = 0x01 then (inputs[x.imm]?).bind setC
  else if 0x20 ≤ i.op ∧ i.op ≤ 0x25 then
    if mask x.a && (decide (0x22 ≤ i.op) || mask x.b) then setM else none
  else
    match e.cols.find x.a with
    | none => none
    | some a =>
      let second : Option RegT := if x.k then (const x.imm 0).map FConst.regT else e.cols.find x.b
      if 0x10 ≤ i.op ∧ i.op ≤ 0x15 then
        match second with
        | some b => if (if i.op ≤ 0x11 then cmpTypes a b else ordTypes a b) then setM else none
        | none => none
      else if i.op = 0x16 then
        let hi : Option RegT := if x.k then (const (x.imm + 1) 0).map FConst.regT else e.cols.find x.g
        match second, hi with
        | some b, some c => if ordTypes a b && ordTypes a c then setM else none
        | _, _ => none
      else if i.op = 0x17 then setM
      else if i.op = 0x18 then
        match const x.imm 1 with
        | some c => if cmpTypes a { c.regT with width := a.width } && c.listOk p.dataBytes a.width then setM else none
        | none => none
      else if i.op = 0x19 then (const x.imm 2).bind (fun _ => setM)
      else if i.op = 0x1A ∨ i.op = 0x1B then
        if tyIsStr a.ty then (const x.imm 2).bind (fun _ => setM) else none
      else if !guardOk then none
      else if 0x30 ≤ i.op ∧ i.op ≤ 0x34 then
        match second with
        | none => none
        | some b => (arithType i.op a b).bind (fun t =>
            setC { ty := t.1, scale := t.2, width := 0, sorted := false
                   nullable := a.nullable || b.nullable || x.guarded })
      else if i.op = 0x35 then
        if tyIsNum a.ty then setC { a with nullable := a.nullable || x.guarded } else none
      else if i.op = 0x36 then
        match const x.imm 0 with
        | some c => if tyIsNum a.ty && tyIsNum c.ty then
            setC { ty := c.ty, scale := c.scale, width := 0, sorted := false, nullable := a.nullable || x.guarded }
          else none
        | none => none
      else if i.op = 0x38 then
        match const x.imm 0 with
        | some c =>
          if (x.n < 1 ∨ (e.cols.find x.b).isSome = true) ∧ (x.n < 2 ∨ (e.cols.find x.g).isSome = true)
              ∧ tyIsStr c.ty = false ∧ tyBytes c.ty 0 ≤ 8 then
            setC { ty := tyI64, scale := 0, width := 0, sorted := false, nullable := false }
          else none
        | none => none
      else setC { ty := tyI64, scale := 0, width := 0, sorted := false, nullable := false }

/-- Checks the instructions in order. -/
def checkInsns (p : FProg) (inputs : List RegT) : List FInsn → FEnv → Option FEnv
  | [], e => some e
  | i :: l, e => (i.check p inputs e).bind (checkInsns p inputs l)

/-- Whether the output map is allowed (R134), and each source fits its output column (Table 04.8). The table speaks of a
register that may be null; a nullable input position is held to the same rule (DESIGN CHOICE; log 65). -/
def FProg.mapOk (p : FProg) (identity : Bool) (inputs : List RegT) (outs : List Column) (e : FEnv) : Bool :=
  p.outMap.zipIdx.all (fun q =>
    match outs[q.2]? with
    | none => q.1 == 0xFF
    | some c =>
      (!identity || q.1 == q.2) &&
      (let src : Option RegT := if q.1 < 0x40 then inputs[q.1]? else if q.1 < 0x50 then e.cols.find (q.1 - 0x40) else none
       match src with
       | some r => r.ty == c.ty && (!r.nullable || c.nullable)
       | none => false))

/-- The static checks of a program of a SCAN or FILTER stage (`identity`) or of a PROJECT stage. -/
def FProg.check (p : FProg) (identity : Bool) (inputs : List RegT) (outs : List Column) : Bool :=
  p.formOk && p.constsOk && p.consts.all (fun c => c.formOk p.dataBytes) && (!identity || p.select)
    && (match checkInsns p inputs p.insns { cols := [], masks := [] } with
        | some e => e.masks.contains p.resultMask && p.mapOk identity inputs outs e
        | none => false)

/-- The Cairn tables that a program names, with the smallest width each search needs. The operand's type is the one
its last LDCOL or computation gave, which only INT128 and DECIMAL128 change. -/
def FProg.cairnUses (p : FProg) (inputs : List RegT) : List (Nat × Nat) :=
  (p.insns.foldl (fun (acc : FEnv × List (Nat × Nat)) i =>
    let e := (i.check p inputs acc.1).getD acc.1
    if 0x19 ≤ i.op ∧ i.op ≤ 0x1B then
      let t := ((acc.1.cols.find i.args.a).map (fun r => r.ty)).getD 0
      (e, acc.2 ++ [(((p.consts[i.args.imm]?).map (fun c => c.raw)).getD 0, cairnMinU i.op t)])
    else (e, acc.2)) ({ cols := [], masks := [] },
      (p.consts.filter (fun c => c.kind == 2)).map (fun c => (c.raw, 1)))).2

/-- The Cairn tables that some constants name, with their widths now (R143). -/
def State.cairnWidths (s : State) (tenant : Nat) (consts : List FConst) : List (Nat × Nat) :=
  (consts.filter (fun c => c.kind == 2)).filterMap (fun c => (s.tableOf tenant c.raw).map (fun t => (c.raw, t.width)))

/-- Whether every Cairn table a program names is the tenant's and wide enough (R142, R143). -/
def State.cairnOk (s : State) (tenant : Nat) (uses : List (Nat × Nat)) : Bool :=
  uses.all (fun u => match s.tableOf tenant u.1 with
    | some t => decide (u.2 ≤ t.width)
    | none => false)

/-! ## Three-valued masks (R137) -/

def Tri.not : Tri → Tri
  | .t => .f
  | .f => .t
  | .u => .u

def Tri.and (a b : Tri) : Tri :=
  if a = .f ∨ b = .f then .f else if a = .t ∧ b = .t then .t else .u

def Tri.or (a b : Tri) : Tri :=
  if a = .t ∨ b = .t then .t else if a = .f ∧ b = .f then .f else .u

def Tri.ofBool (b : Bool) : Tri := if b then .t else .f

/-- The comparison of opcodes 0x10 to 0x15 on two values. -/
def cmpVal (op ta tb : Nat) (a b : Val) : Bool :=
  if op = 0x10 then valEq ta tb a b
  else if op = 0x11 then !valEq ta tb a b
  else if op = 0x12 then valLt ta tb a b
  else if op = 0x13 then !valLt tb ta b a
  else if op = 0x14 then valLt tb ta b a
  else !valLt ta tb a b

/-- A comparison of two slots: UNKNOWN with a null operand. -/
def cmpSlot (op ta tb : Nat) (a b : Slot) : Tri :=
  match a, b with
  | some x, some y => Tri.ofBool (cmpVal op ta tb x y)
  | _, _ => .u

/-! ## Arithmetic (R141) -/

/-- Bounds of an integer type. -/
def intFits (t : Nat) (z : Int) : Bool :=
  decide (-((2 : Int) ^ (tyBits t - 1)) ≤ z) && decide (z < (2 : Int) ^ (tyBits t - 1))

/-- Integer arithmetic: none on a fault. -/
def intArith (op : Nat) (a b : Int) : Option Int :=
  if op = 0x30 then some (a + b)
  else if op = 0x31 then some (a - b)
  else if op = 0x32 then some (a * b)
  else if b = 0 then none
  else if op = 0x33 then some (Int.tdiv a b)
  else some (Int.tmod a b)

/-- Floating-point arithmetic, rounding to nearest even. -/
def fpArith (f : Fmt) (op a b : Nat) : Nat :=
  if op = 0x30 then (fpAdd f 0 a b).1
  else if op = 0x31 then (fpSub f 0 a b).1
  else if op = 0x32 then (fpMul f 0 a b).1
  else if op = 0x33 then (fpDiv f 0 a b).1
  else fpMod f a b

/-- One arithmetic result of type `rt`: none on a fault. -/
def arithVal (op rt ta tb : Nat) (a b : Val) : Option Val :=
  if tyIsFp rt then
    if rt = tyF32 then
      match a, b with
      | .fp x, .fp y => some (.fp (fpArith fp32 op x y))
      | _, _ => none
    else some (.fp (fpArith fp64 op (a.asF64 ta) (b.asF64 tb)))
  else
    match intArith op a.asInt b.asInt with
    | none => none
    | some z =>
      if rt = tyDec then (if z.natAbs < 10 ^ 38 then some (.int z) else none)
      else if intFits rt z then some (.int z) else none

/-- Rounds a quotient half away from zero. -/
def divHalfAway (a : Int) (b : Nat) : Int :=
  let q := (2 * a.natAbs + b) / (2 * b)
  if a < 0 then -(q : Int) else (q : Int)

/-- An exact power of two times an integer, scaled by 10^k and rounded half away from zero. -/
def scaledHalfAway (m : Int) (e : Int) (k : Nat) : Int :=
  if 0 ≤ e then m * (2 ^ e.toNat : Nat) * (10 ^ k : Nat) else divHalfAway (m * (10 ^ k : Nat)) (2 ^ (-e).toNat)

/-- A decimal as FP64, correctly rounded: its quotient to 256 further bits with a sticky bit. -/
def decToFp (f : Fmt) (u : Int) (scale : Nat) : Nat :=
  let n := u.natAbs * 2 ^ 256
  let q := n / 10 ^ scale
  let st := if n % 10 ^ scale = 0 then 0 else 1
  if u = 0 then fpZero f false else (fpRound f 0 (decide (u < 0)) (2 * q + st) (-257)).1

/-- CAST of one value (R141): none on a fault. -/
def castVal (ta sa tb sb : Nat) (v : Val) : Option Val :=
  let fromInt (z : Int) : Option Val :=
    if tb = tyDec then (if (z * (10 ^ sb : Nat)).natAbs < 10 ^ 38 then some (.int (z * (10 ^ sb : Nat))) else none)
    else if tyIsFp tb then some (.fp (fpFromInt (if tb = tyF32 then fp32 else fp64) 0 z).1)
    else if intFits tb z then some (.int z) else none
  if tyIsFp ta then
    match v with
    | .fp x =>
      let f := if ta = tyF32 then fp32 else fp64
      if tyIsFp tb then
        let g := if tb = tyF32 then fp32 else fp64
        let y := if ta = tb then x else (fpConvert f g 0 x).1
        if fpIsInf g y && !fpIsInf f x then none else some (.fp y)
      else if fpIsNan f x || fpIsInf f x then none
      else
        let m : Int := if fpSign f x then -((fpMag f x).1 : Int) else ((fpMag f x).1 : Int)
        if tb = tyDec then
          let z := scaledHalfAway m (fpMag f x).2 sb
          if z.natAbs < 10 ^ 38 then some (.int z) else none
        else
          let z := (fpToIntRaw f 1 x).1
          if intFits tb z then some (.int z) else none
    | _ => none
  else if ta = tyDec then
    let u := v.asInt
    if tyIsFp tb then some (.fp (decToFp (if tb = tyF32 then fp32 else fp64) u sa))
    else if tb = tyDec then
      let z := if sa ≤ sb then u * (10 ^ (sb - sa) : Nat) else divHalfAway u (10 ^ (sa - sb))
      if z.natAbs < 10 ^ 38 then some (.int z) else none
    else
      let z := divHalfAway u (10 ^ sa)
      if intFits tb z then some (.int z) else none
  else fromInt v.asInt

/-- NEG of one value. -/
def negVal (t : Nat) (v : Val) : Option Val :=
  match v with
  | .fp x => some (.fp (fpNeg (if t = tyF32 then fp32 else fp64) x))
  | _ =>
    let z := -v.asInt
    if t = tyDec then (if z.natAbs < 10 ^ 38 then some (.int z) else none)
    else if intFits t z then some (.int z) else none

/-! ## Cairn search keys (Table 04.7) -/

/-- The key of INCAIRN, PREFIX or SUFFIX for a value; none for a value that no entry can hold. -/
def cairnKey (op t u : Nat) (v : Val) : Option (List Byte) :=
  let n := 10 * u
  match v with
  | .str b =>
    if op = 0x19 then (if n - 2 < b.length then none else some (fitTo n (natLe 2 b.length ++ b)))
    else if op = 0x1A then some (fitTo n (b.take n))
    else
      let tail := b.drop (b.length - n)
      some (zeros (n - tail.length) ++ tail)
  | .fp _ => some (fitTo n (natLe 8 (fpNormal64 (v.asF64 t))))
  | .int z =>
    if t = tyI128 ∨ t = tyDec then some (fitTo n (natLe 16 (ofSigned 128 z)))
    else some (fitTo n (natLe 8 (ofSigned 64 z)))

/-! ## The machine -/

/-- A column register. -/
def FilterMachine.col? (m : FilterMachine) (i : Nat) : Option ColReg := m.cregs.find i

def FilterMachine.mask? (m : FilterMachine) (i : Nat) : Option (List Tri) := m.mregs.find i

def FilterMachine.setMask (m : FilterMachine) (d : Nat) (l : List Tri) : FilterMachine :=
  { m with mregs := m.mregs.put d l }

def FilterMachine.setCol (m : FilterMachine) (d : Nat) (c : ColReg) : FilterMachine :=
  { m with cregs := m.cregs.put d c }

/-- What an instruction answers: the machine and state after it, a fault that ends the route, or `none` of these
when an operand register has not been written (admission rules that out, R142). -/
inductive FRes where
  | ok (s : State) (m : FilterMachine)
  | fault (status : Nat)
  | noOperand

/-- A constant operand as a register of equal slots. -/
def FilterMachine.constReg (m : FilterMachine) (i : Nat) (arith : Bool) : Option ColReg :=
  (m.consts[i]?).map (fun c =>
    let v := if arith then c.arith else c.scalar
    { ty := v.1, scale := c.scale, width := c.length, sorted := true, slots := List.replicate m.rows (some v.2) })

/-- The second operand of EQ to GE, BETWEEN and ADD to MOD. -/
def FilterMachine.second (m : FilterMachine) (x : FArgs) (arith : Bool) : Option ColReg :=
  if x.k then m.constReg x.imm arith else m.col? x.b

/-- A mask of a function on the slots of one register; unselected slots hold UNKNOWN, which nothing reads. -/
def FilterMachine.maskOf (m : FilterMachine) (f : Slot → Tri) (a : ColReg) : List Tri :=
  (List.zip m.sel a.slots).map (fun p => if p.1 then f p.2 else .u)

/-- A mask of a function on two registers. -/
def FilterMachine.maskOf2 (m : FilterMachine) (f : Slot → Slot → Tri) (a b : ColReg) : List Tri :=
  (List.zip m.sel (List.zip a.slots b.slots)).map (fun p => if p.1 then f p.2.1 p.2.2 else .u)

/-- Whether the guard lets a slot be computed. -/
def FilterMachine.guardAt (m : FilterMachine) (x : FArgs) : List Bool :=
  if x.guarded then ((m.mask? x.g).getD []).map (fun t => t == .t) else List.replicate m.rows true

/-- A computed column: slots that are selected, not null and not excluded by the guard are evaluated; a fault in any
of them ends the route. -/
def FilterMachine.compute (m : FilterMachine) (x : FArgs) (args : List (Option Val)) (f : Val → Option Val) :
    Option (List Slot) :=
  (List.zip (List.zip m.sel (m.guardAt x)) args).foldr (fun p acc =>
    match acc with
    | none => none
    | some l =>
      match (if p.1.1 && p.1.2 then p.2 else none) with
      | none => some (none :: l)
      | some v => (f v).map (fun r => some r :: l)) (some [])

/-- A computed column of two operands. -/
def FilterMachine.compute2 (m : FilterMachine) (x : FArgs) (a b : List Slot) (f : Val → Val → Option Val) :
    Option (List Slot) :=
  (List.zip (List.zip m.sel (m.guardAt x)) (List.zip a b)).foldr (fun p acc =>
    match acc with
    | none => none
    | some l =>
      match (if p.1.1 && p.1.2 then p.2.1 else none), p.2.2 with
      | some v, some w => (f v w).map (fun r => some r :: l)
      | _, _ => some (none :: l)) (some [])

/-- A computed register, or the fault ARITH_FAULT. -/
def FilterMachine.arithRes (m : FilterMachine) (s : State) (d ty scale : Nat) (r : Option (List Slot)) : FRes :=
  match r with
  | none => .fault stArithFault
  | some l => .ok s (m.setCol d { ty := ty, scale := scale, width := 0, sorted := false, slots := l })

/-- LDCOL. -/
def FilterMachine.ldcol (m : FilterMachine) (s : State) (x : FArgs) : FRes :=
  match m.inputs[x.imm]? with
  | some c => .ok s (m.setCol x.d c)
  | none => .noOperand

/-- EQ, NE, LT, LE, GT, GE. -/
def FilterMachine.compare (m : FilterMachine) (s : State) (op : Nat) (x : FArgs) : FRes :=
  match m.col? x.a, m.second x false with
  | some a, some b => .ok s (m.setMask x.d (m.maskOf2 (cmpSlot op a.ty b.ty) a b))
  | _, _ => .noOperand

/-- BETWEEN. -/
def FilterMachine.between (m : FilterMachine) (s : State) (x : FArgs) : FRes :=
  match m.col? x.a, m.second x false, (if x.k then m.constReg (x.imm + 1) false else m.col? x.g) with
  | some a, some lo, some hi =>
    .ok s (m.setMask x.d (List.zipWith Tri.and (m.maskOf2 (cmpSlot 0x15 a.ty lo.ty) a lo)
      (m.maskOf2 (cmpSlot 0x13 a.ty hi.ty) a hi)))
  | _, _, _ => .noOperand

/-- ISNULL. -/
def FilterMachine.isNull (m : FilterMachine) (s : State) (x : FArgs) : FRes :=
  match m.col? x.a with
  | some a => .ok s (m.setMask x.d (m.maskOf (fun v => Tri.ofBool v.isNone) a))
  | none => .noOperand

/-- INLIST. -/
def FilterMachine.inList (m : FilterMachine) (s : State) (x : FArgs) : FRes :=
  match m.col? x.a, m.consts[x.imm]? with
  | some a, some c =>
    let vals := c.listVals a.width
    .ok s (m.setMask x.d (m.maskOf (fun v => match v with
      | none => .u
      | some v => if vals.any (fun w => valEq a.ty c.ty v w) then .t else if c.hasNull then .u else .f) a))
  | _, _ => .noOperand

/-- INCAIRN, PREFIX and SUFFIX: one search per selected slot that is not null (R139). -/
def FilterMachine.cairn (m : FilterMachine) (s : State) (op : Nat) (x : FArgs) : FRes :=
  match m.col? x.a, m.consts[x.imm]? with
  | some a, some c =>
    match s.tableOf m.key.tenant c.raw with
    | none => .fault stCairnRef
    | some t =>
      let r := (List.zip m.sel a.slots).foldl (fun (acc : State × List Tri) p =>
        match (if p.1 then p.2 else none) with
        | none => (acc.1, acc.2 ++ [.u])
        | some v =>
          match cairnKey op a.ty t.width v with
          | none => (acc.1, acc.2 ++ [.f])
          | some key =>
            let q := acc.1.searchTable t m.ridge (some m.key) key
            (q.2, acc.2 ++ [Tri.ofBool q.1.isSome])) (s, [])
      .ok r.1 (m.setMask x.d r.2)
  | _, _ => .noOperand

/-- AND, OR. -/
def FilterMachine.logic2 (m : FilterMachine) (s : State) (f : Tri → Tri → Tri) (x : FArgs) : FRes :=
  match m.mask? x.a, m.mask? x.b with
  | some a, some b => .ok s (m.setMask x.d (List.zipWith f a b))
  | _, _ => .noOperand

/-- NOT, ISTRUE, ISFALSE, ISUNKNOWN. -/
def FilterMachine.logic1 (m : FilterMachine) (s : State) (f : Tri → Tri) (x : FArgs) : FRes :=
  match m.mask? x.a with
  | some a => .ok s (m.setMask x.d (a.map f))
  | none => .noOperand

/-- The type and scale a computed register takes. -/
def arithOut (op : Nat) (a b : ColReg) : Nat × Nat :=
  (arithType op { ty := a.ty, scale := a.scale, width := 0, sorted := false, nullable := false }
    { ty := b.ty, scale := b.scale, width := 0, sorted := false, nullable := false }).getD (a.ty, a.scale)

/-- ADD, SUB, MUL, DIV, MOD. -/
def FilterMachine.arith (m : FilterMachine) (s : State) (op : Nat) (x : FArgs) : FRes :=
  match m.col? x.a, m.second x true with
  | some a, some b =>
    let t := arithOut op a b
    m.arithRes s x.d t.1 t.2 (m.compute2 x a.slots b.slots (arithVal op t.1 a.ty b.ty))
  | _, _ => .noOperand

/-- NEG. -/
def FilterMachine.neg (m : FilterMachine) (s : State) (x : FArgs) : FRes :=
  match m.col? x.a with
  | some a => m.arithRes s x.d a.ty a.scale (m.compute x a.slots (negVal a.ty))
  | none => .noOperand

/-- CAST. -/
def FilterMachine.cast (m : FilterMachine) (s : State) (x : FArgs) : FRes :=
  match m.col? x.a, m.consts[x.imm]? with
  | some a, some c => m.arithRes s x.d c.ty c.scale (m.compute x a.slots (castVal a.ty a.scale c.ty c.scale))
  | _, _ => .noOperand

/-- HASH64: N + 1 keys under the seed of a constant. -/
def FilterMachine.hash (m : FilterMachine) (s : State) (x : FArgs) : FRes :=
  match m.col? x.a, m.consts[x.imm]?, (if x.n < 1 then m.col? x.a else m.col? x.b),
    (if x.n < 2 then m.col? x.a else m.col? x.g) with
  | some a, some c, some b, some g =>
    let keys := [a, b, g].take (x.n + 1)
    .ok s (m.setCol x.d { ty := tyI64, scale := 0, width := 0, sorted := false
                          slots := (List.range m.rows).map (fun i =>
                            if m.sel.getD i false then
                              some (.int (toSigned 64 (hashKeys (keys.map (fun k => (k.ty, k.slots.getD i none))) c.raw)))
                            else none) })
  | _, _, _, _ => .noOperand

/-- CRC32C. -/
def FilterMachine.crc (m : FilterMachine) (s : State) (x : FArgs) : FRes :=
  match m.col? x.a with
  | some a =>
    .ok s (m.setCol x.d { ty := tyI64, scale := 0, width := 0, sorted := false
                          slots := (List.zip m.sel a.slots).map (fun p =>
                            if p.1 then some (.int (crc32c (bytesOfWords (hashWords a.ty p.2)) : Nat)) else none) })
  | none => .noOperand

/-- One instruction by its opcode (Table 04.6). -/
def FilterMachine.step (m : FilterMachine) (s : State) (i : FInsn) : FRes :=
  let x := i.args
  if i.op = 0x01 then m.ldcol s x
  else if 0x10 ≤ i.op ∧ i.op ≤ 0x15 then m.compare s i.op x
  else if i.op = 0x16 then m.between s x
  else if i.op = 0x17 then m.isNull s x
  else if i.op = 0x18 then m.inList s x
  else if 0x19 ≤ i.op ∧ i.op ≤ 0x1B then m.cairn s i.op x
  else if i.op = 0x20 then m.logic2 s Tri.and x
  else if i.op = 0x21 then m.logic2 s Tri.or x
  else if i.op = 0x22 then m.logic1 s Tri.not x
  else if i.op = 0x23 then m.logic1 s (fun t => Tri.ofBool (t == .t)) x
  else if i.op = 0x24 then m.logic1 s (fun t => Tri.ofBool (t == .f)) x
  else if i.op = 0x25 then m.logic1 s (fun t => Tri.ofBool (t == .u)) x
  else if 0x30 ≤ i.op ∧ i.op ≤ 0x34 then m.arith s i.op x
  else if i.op = 0x35 then m.neg s x
  else if i.op = 0x36 then m.cast s x
  else if i.op = 0x38 then m.hash s x
  else m.crc s x

/-- A program's instructions in order. -/
def FilterMachine.run (s : State) (m : FilterMachine) : List FInsn → FRes
  | [] => .ok s m
  | i :: l =>
    match m.step s i with
    | .ok s' m' => FilterMachine.run s' m' l
    | r => r

/-- The selection after a program (R137). -/
def FilterMachine.outSel (m : FilterMachine) (p : FProg) : List Bool :=
  if p.select then (List.zip m.sel ((m.mask? p.resultMask).getD [])).map (fun q => q.1 && q.2 == .t) else m.sel

/-! ## Zone evaluation (R126 to R129) -/

inductive Zone where
  | none | all | some
  deriving DecidableEq, Repr

/-- Bounds of the values of a type when a writer left the zone out (R127). -/
def typeRange (c : Column) : Val × Val :=
  if tyIsFp c.ty then (.fp (fpInf fp64 true), .fp (fpInf fp64 false))
  else if c.ty = tyBool then (.int 0, .int 1)
  else if c.ty = tyVarDict then (.int 0, .int (2 ^ 32 - 1 : Nat))
  else if c.ty = tyDec then (.int (-((10 ^ c.precision - 1 : Nat) : Int)), .int (10 ^ c.precision - 1 : Nat))
  else (.int (-(2 ^ (tyBits c.ty - 1) : Nat)), .int (2 ^ (tyBits c.ty - 1) - 1 : Nat))

/-- The least value of FP32 that is not below a value of FP64, as FP64. -/
def fp32Up (x : Nat) : Nat := fpWiden (fpConvert fp64 fp32 3 x).1

/-- Whether a type has a value from one constant up to another, asked of a block without bounds: FP32 leaves gaps among the
constants, which are FP64 (R127, R129). -/
def BlockHdr.typeMeets (h : BlockHdr) (c : Column) (lo hi : Val) : Bool :=
  match lo with
  | .fp x =>
    if c.ty = tyF32 ∧ h.zoneValid = false ∧ h.hasNan = false ∧ fpIsNan fp64 x = false then
      !valLt tyF64 tyF64 hi (.fp (fp32Up x))
    else true
  | _ => true

/-- The intervals of non-null values a block of a fixed-width type can hold (R127, R129). -/
def BlockHdr.intervals (h : BlockHdr) (c : Column) : List (Val × Val) :=
  (if h.zoneValid then
      (if valLt (zoneTy c.ty) (zoneTy c.ty) (zoneVal c.ty h.zmax) (zoneVal c.ty h.zmin) then []
       else [(zoneVal c.ty h.zmin, zoneVal c.ty h.zmax)])
   else if !h.hasNan && decide (h.nulls < h.rows) then [typeRange c] else [])
  ++ (if h.hasNan && (h.zoneValid || decide (h.nulls < h.rows)) then [(.fp 0x7FF8000000000000, .fp 0x7FF8000000000000)] else [])

/-- Whether some, and whether every, value of an interval satisfies a comparison with a constant. -/
def someIn (op t tc : Nat) (lo hi c : Val) : Bool :=
  if op = 0x10 then !valLt tc t c lo && !valLt t tc hi c
  else if op = 0x11 then !(valEq t tc lo c && valEq t tc hi c)
  else if op = 0x12 ∨ op = 0x13 then cmpVal op t tc lo c
  else cmpVal op t tc hi c

def allIn (op t tc : Nat) (lo hi c : Val) : Bool :=
  if op = 0x10 then valEq t tc lo c && valEq t tc hi c
  else if op = 0x11 then valLt tc t c lo || valLt t tc hi c
  else if op = 0x12 ∨ op = 0x13 then cmpVal op t tc hi c
  else cmpVal op t tc lo c

/-- NONE, ALL or SOME from the two tests over the intervals; a block whose bounds were left out is never ALL (R129). -/
def zoneOf (h : BlockHdr) (ivs : List (Val × Val)) (ex al : Val → Val → Bool) : Zone :=
  if !(ivs.any (fun p => ex p.1 p.2)) then .none
  else if h.nulls == 0 && (h.zoneValid || h.hasNan) && ivs.all (fun p => al p.1 p.2) then .all
  else .some

/-- A comparison with a constant over a block. -/
def zoneCmp (op : Nat) (h : BlockHdr) (c : Column) (k : FConst) : Zone :=
  let (tc, v) := k.scalar
  if tyIsStr c.ty then
    if !h.zoneValid then (if h.nulls = h.rows then .none else .some)
    else
      let p := fitTo 16 v.asStr
      if op = 0x10 ∧ (bytesLt p h.zmin || bytesLt h.zmax p) = true then .none
      else if (op = 0x12 ∨ op = 0x13) ∧ bytesLt p h.zmin = true then .none
      else if (op = 0x14 ∨ op = 0x15) ∧ bytesLt h.zmax p = true then .none
      else .some
  else zoneOf h (h.intervals c) (fun lo hi => someIn op (zoneTy c.ty) tc lo hi v && (op != 0x10 || h.typeMeets c v v))
    (fun lo hi => allIn op (zoneTy c.ty) tc lo hi v)

/-- BETWEEN with constants over a block. -/
def zoneBetween (h : BlockHdr) (c : Column) (kl kh : FConst) : Zone :=
  let (tl, l) := kl.scalar
  let (th, g) := kh.scalar
  if tyIsStr c.ty then
    if !h.zoneValid then (if h.nulls = h.rows then .none else .some)
    else if bytesLt (fitTo 16 g.asStr) h.zmin || bytesLt h.zmax (fitTo 16 l.asStr) then .none
    else .some
  else
    let t := zoneTy c.ty
    zoneOf h (h.intervals c)
      (fun lo hi => !valLt th t g lo && !valLt t tl hi l && !valLt th tl g l && h.typeMeets c l g)
      (fun lo hi => !valLt t tl lo l && !valLt th t g hi)

/-- INLIST over a block: the set against the interval from the list's first entry to its last; never ALL. -/
def zoneList (h : BlockHdr) (c : Column) (k : FConst) : Zone :=
  if tyIsStr c.ty then (if !h.zoneValid && h.nulls == h.rows then .none else .some)
  else
    let vals := k.listVals c.width
    let form (v : Val) : Val := zoneForm k.ty v
    match vals.head?, vals.getLast? with
    | some a, some z =>
      let t := zoneTy c.ty
      let tk := zoneTy k.ty
      if (h.intervals c).any (fun p => !valLt tk t (form z) p.1 && !valLt t tk p.2 (form a)
          && h.typeMeets c (form a) (form z)) then .some else .none
    | _, _ => .some

/-- Abstract registers: the zone column a register was loaded from, and mask outcomes. -/
structure ZEnv where
  cols : SMap Nat
  masks : SMap Zone

/-- One instruction abstractly (Table 04.2); `hdr` gives the block header and descriptor of a zone column. -/
def zoneStep (p : FProg) (zcols : List Nat) (hdr : Nat → Option (BlockHdr × Column)) (e : ZEnv) (i : FInsn) : ZEnv :=
  let x := i.args
  let setM (z : Zone) : ZEnv := { e with masks := e.masks.put x.d z }
  let mask (m : Nat) : Zone := (e.masks.find m).getD .some
  let blk : Option (BlockHdr × Column) := (e.cols.find x.a).bind hdr
  if i.op = 0x01 then
    { e with cols := if zcols.contains x.imm then e.cols.put x.d x.imm else e.cols.del x.d }
  else if 0x30 ≤ i.op then { e with cols := e.cols.del x.d }
  else if i.op = 0x20 then
    setM (if mask x.a = .none ∨ mask x.b = .none then .none else if mask x.a = .all ∧ mask x.b = .all then .all else .some)
  else if i.op = 0x21 then
    setM (if mask x.a = .all ∨ mask x.b = .all then .all else if mask x.a = .none ∧ mask x.b = .none then .none else .some)
  else if i.op = 0x22 then setM (if mask x.a = .all then .none else .some)
  else if i.op = 0x23 then setM (mask x.a)
  else if i.op = 0x24 ∨ i.op = 0x25 then setM (if mask x.a = .all then .none else .some)
  else
    match blk with
    | none => setM .some
    | some (h, c) =>
      if i.op = 0x17 then setM (if h.nulls = 0 then .none else if h.nulls = h.rows then .all else .some)
      else if 0x10 ≤ i.op ∧ i.op ≤ 0x15 then
        if x.k then setM (((p.consts[x.imm]?).map (zoneCmp i.op h c)).getD .some) else setM .some
      else if i.op = 0x16 then
        match (if x.k then p.consts[x.imm]? else none), p.consts[x.imm + 1]? with
        | some kl, some kh => setM (zoneBetween h c kl kh)
        | _, _ => setM .some
      else if i.op = 0x18 then setM (((p.consts[x.imm]?).map (zoneList h c)).getD .some)
      else setM .some

/-- The outcome of a program over a segment. -/
def zoneEval (p : FProg) (zcols : List Nat) (hdr : Nat → Option (BlockHdr × Column)) : Zone :=
  ((p.insns.foldl (zoneStep p zcols hdr) { cols := [], masks := [] }).masks.find p.resultMask).getD .some

/-- Input positions read by zone-evaluable instructions: comparisons, BETWEEN and INLIST against constants, and
ISNULL, of registers that LDCOL loaded. -/
def FProg.zcols (p : FProg) : List Nat :=
  ((p.insns.foldl (fun (acc : SMap Nat × List Nat) i =>
    let x := i.args
    if i.op = 0x01 then (acc.1.put x.d x.imm, acc.2)
    else if 0x30 ≤ i.op then (acc.1.del x.d, acc.2)
    else if i.op = 0x17 ∨ i.op = 0x18 ∨ (0x10 ≤ i.op ∧ i.op ≤ 0x16 ∧ x.k = true) then
      (acc.1, acc.2 ++ ((acc.1.find x.a).map (fun k => [k])).getD [])
    else acc) ([], [])).2).eraseDups

/-- Input positions a program loads. -/
def FProg.loads (p : FProg) : List Nat :=
  ((p.insns.filter (fun i => i.op == 0x01)).map (fun i => i.args.imm)).eraseDups

end Sys2Proof.Machine
end

