-- ==== Sys2Proof/Machine/Admission.lean ====
section
/-! DEFINITION. Route descriptors and the admission checks (R84 to R104, R117, R142, R155, R157, R213, R269). -/
namespace Sys2Proof.Machine

/-! ## Descriptor structures -/

/-- A stage descriptor in its 64 bytes (Table 03.2). -/
def stageOf (b : List Byte) : Stage :=
  let w (i : Nat) : Nat := getLe b (8 * i) 8
  { words := (List.range 8).map w, kind := fld (w 0) 63 56, index := fld (w 0) 55 52, inputA := fld (w 0) 51 48
    inputB := fld (w 0) 47 44, options := fld (w 0) 39 32, colFirst := fld (w 0) 31 24, colCount := fld (w 0) 23 16
    progOffset := fld (w 1) 63 32, progLen := fld (w 1) 31 16 }

def Stage.w (s : Stage) (i : Nat) : Nat := s.words.getD i 0

/-- A column descriptor in its 32 bytes (Table 03.7). -/
def columnOf (b : List Byte) : Column :=
  let w (i : Nat) : Nat := getLe b (8 * i) 8
  { ty := fld (w 0) 63 56, precision := fld (w 0) 55 48, scale := fld (w 0) 47 40, width := fld (w 0) 39 32
    nullable := bitAt (w 0) 31, dictSorted := bitAt (w 0) 30, reserved := fld (w 0) 29 0, blockList := w 1
    blockCount := fld (w 2) 63 32, dictEntries := fld (w 2) 31 0, dict := w 3 }

/-- A range entry and a hash entry in their 16 bytes (Table 03.6). -/
def rangeOf (b : List Byte) : RangeEntry :=
  let w0 := getLe b 0 8
  let w1 := getLe b 8 8
  { stage := fld w0 63 60, device := fld w0 59 56, mirror := fld w0 55 52, hasMirror := bitAt w0 51
    firstRope := fld w0 47 0, ropeCount := fld w1 47 0, reserved := fld w0 50 48 + fld w1 63 48 }

def hashOf (b : List Byte) : HashEntry :=
  let w1 := getLe b 8 8
  { seed := getLe b 0 8, scope := fld w1 63 56, reserved := fld w1 55 0 }

/-- The header's words and fields (Table 03.1). -/
structure Header where
  words : List Nat
  deriving DecidableEq, Repr

def Header.w (h : Header) (i : Nat) : Nat := h.words.getD i 0
def headerOf (b : List Byte) : Header := { words := (List.range 16).map (fun i => getLe b (8 * i) 8) }
def Header.version (h : Header) : Nat := fld (h.w 0) 63 56
def Header.stageCount (h : Header) : Nat := fld (h.w 0) 55 48
def Header.priority (h : Header) : Nat := fld (h.w 0) 47 45
def Header.tenant (h : Header) : Nat := fld (h.w 0) 44 40
def Header.mirrored (h : Header) : Bool := bitAt (h.w 0) 35
def Header.predictable (h : Header) : Bool := bitAt (h.w 0) 34
def Header.replay (h : Header) : Bool := bitAt (h.w 0) 33
def Header.deterministic (h : Header) : Bool := bitAt (h.w 0) 32
def Header.routeId (h : Header) : Nat := fld (h.w 0) 31 0
def Header.quota (h : Header) : Nat := fld (h.w 1) 63 48
def Header.columnCount (h : Header) : Nat := fld (h.w 1) 47 40
def Header.descBytes (h : Header) : Nat := fld (h.w 1) 31 0
def Header.outputHandle (h : Header) : Nat := h.w 2
def Header.programBytes (h : Header) : Nat := fld (h.w 6) 63 32
def Header.specBytes (h : Header) : Nat := fld (h.w 6) 31 16
def Header.userTag (h : Header) : Nat := h.w 7

/-! ## Stage kinds (Table 03.3) -/

def kScan : Nat := 0x01
def kFilter : Nat := 0x02
def kProject : Nat := 0x03
def kBuild : Nat := 0x04
def kProbe : Nat := 0x05
def kAgg : Nat := 0x06
def kSort : Nat := 0x07
def kMerge : Nat := 0x08
def kStrand : Nat := 0x09
def kExchange : Nat := 0x0A
def kEmit : Nat := 0x0B

/-- The bytes of a key list word, first key first. -/
def keyBytesOf (w : Nat) : List Nat := (natBe 8 w).map (fun b => b.toNat)

/-- The keys of a key list (R94). -/
def keyList (w : Nat) : List Nat := (keyBytesOf w).takeWhile (fun b => b != 0xFF)

/-- Whether a key list is allowed for an input of `cols` columns and a key count from `lo` to 8. -/
def keyListOk (w cols lo : Nat) : Bool :=
  let ks := keyList w
  decide (lo ≤ ks.length) && ks.all (fun k => decide (k < cols) && decide (k < 64))
    && ((keyBytesOf w).drop ks.length).all (fun b => b == 0xFF)

/-- Bits of each word from 2 on that a kind uses, by bit ranges (Table 03.4); all others are reserved. -/
def usedBits (version kind : Nat) : List (List (Nat × Nat)) :=
  if kind = kScan then [[(63, 0)], [(47, 0)], [(63, 32)], [], [], []]
  else if kind = kBuild then [[(63, 0)], [(63, 58), (47, 40)], [(47, 0)], [], [], []]
  else if kind = kProbe then [[(63, 0)], [], [], [], [], []]
  else if kind = kAgg then [[(63, 0)], [(31, 0)], [], [], [], []]
  else if kind = kSort then [[(63, 0)], [(15, 0)], [(47, 0)], [], [], []]
  else if kind = kMerge then [[(63, 0)], [(15, 0)], [], [], [], []]
  else if kind = kStrand then [[(63, 0)], [(63, 0)], [(63, 0)], [(63, 48)], [], []]
  else if kind = kExchange then
    (if version = 2 then [[(63, 0)], [(63, 0)], [], [], [], []] else [[(63, 0)], [], [(63, 56)], [], [], []])
  else if kind = kEmit then [[(47, 0)], [], [], [], [], []]
  else [[], [], [], [], [], []]

/-- OPTIONS bits a kind uses. -/
def usedOptions (kind : Nat) : Nat :=
  if kind = kScan then 1 else if kind = kBuild then 3 else if kind = kProbe then 7 else if kind = kEmit then 3 else 0

/-- A word's bits outside the given ranges. -/
def outside (w : Nat) (rs : List (Nat × Nat)) : Nat := w - sumNat (rs.map (fun r => fld w r.1 r.2 * 2 ^ r.2))

/-- Reserved fields of a stage descriptor are zero. -/
def Stage.reservedOk (s : Stage) (version : Nat) : Bool :=
  fld (s.w 0) 43 40 == 0 && fld (s.w 0) 15 0 == 0 && fld (s.w 1) 15 0 == 0
    && decide (s.options / (usedOptions s.kind + 1) = 0)
    && (usedBits version s.kind).zipIdx.all (fun p => outside (s.w (p.2 + 2)) p.1 == 0)

/-! ## Accessors of the admitted copy -/

def RouteDesc.stage (d : RouteDesc) (i : Nat) : Stage := d.stages.getD i (stageOf [])

/-- The output columns of a stage. -/
def RouteDesc.cols (d : RouteDesc) (i : Nat) : List Column :=
  let st := d.stage i
  (d.columns.drop st.colFirst).take st.colCount

/-- A stage's program. -/
def RouteDesc.prog (d : RouteDesc) (i : Nat) : List Byte :=
  let st := d.stage i
  sliceB d.program st.progOffset st.progLen

/-- Layout forms of a stage's output. -/
def RouteDesc.forms (d : RouteDesc) (i : Nat) : List ColForm := (d.cols i).map Column.form

/-- Stages that consume a stage's ropes. -/
def RouteDesc.consumers (d : RouteDesc) (i : Nat) : List Nat :=
  (d.stages.zipIdx.filter (fun p =>
    (p.1.kind != kScan && p.1.inputA == i) || ((p.1.kind == kProbe || p.1.kind == kMerge) && p.1.inputB == i))).map
    (fun p => p.2)

/-- Two EXCHANGE stages with the same key count and hash parameters (R149). -/
def RouteDesc.sameExchange (d : RouteDesc) (a b : Nat) : Bool :=
  let x := d.stage a
  let y := d.stage b
  x.kind == kExchange && y.kind == kExchange && (keyList (x.w 2)).length == (keyList (y.w 2)).length
    && (if d.version = 2 then x.w 3 == y.w 3 else fld (x.w 4) 63 56 == fld (y.w 4) 63 56)

/-- Whether the join of a JOIN_PROBE stage is partitioned (R149). -/
def RouteDesc.joinPartitioned (d : RouteDesc) (probe : Nat) : Bool :=
  d.sameExchange (d.stage (d.stage probe).inputB).inputA (d.stage probe).inputA

/-- Whether an AGG is partitioned (R208). -/
def RouteDesc.aggPartitioned (d : RouteDesc) (i : Nat) : Bool :=
  let st := d.stage i
  let ex := d.stage st.inputA
  ex.kind == kExchange && ex.w 2 == st.w 2

/-- Seed and scope of an EXCHANGE (R98, R101). -/
def RouteDesc.exchangeHash (d : RouteDesc) (i : Nat) : Nat × Nat :=
  if d.version = 2 then ((d.stage i).w 3, 0)
  else
    match d.hashes[fld ((d.stage i).w 4) 63 56]? with
    | some h => (h.seed, h.scope)
    | none => (0, 0)

/-- Ropes of a SCAN stage (R97). -/
def Stage.scanRopes (s : Stage) : Nat := ceilDiv (fld (s.w 3) 47 0) 4096

/-- The first `n` ropes of some ranges, and the rest. -/
def takeRopes : Nat → List RangeEntry → List RangeEntry
  | _, [] => []
  | n, r :: l =>
    if n = 0 then []
    else if n < r.ropeCount then [{ r with ropeCount := n }]
    else r :: takeRopes (n - r.ropeCount) l
def dropRopes : Nat → List RangeEntry → List RangeEntry
  | _, [] => []
  | n, r :: l =>
    if n < r.ropeCount then { r with firstRope := r.firstRope + n, ropeCount := r.ropeCount - n } :: l
    else dropRopes (n - r.ropeCount) l

def ropesIn (l : List RangeEntry) : Nat := sumNat (l.map (fun r => r.ropeCount))

/-- A device's ranges of a stage in the order of its source rope numbers, with how many of them the committed spans have
taken and up to which grant that was counted. -/
structure Ranges where
  list : List RangeEntry
  taken : Nat
  upTo : Nat

/-- A device is lost: what the committed spans had not taken of its ranges goes to the mirrors, which number it with what
is left of their own in ascending rope order, after the ropes they have committed (R50, R75; log 67). -/
def Ranges.lose (x : Ranges) (own : Nat → List RangeEntry) (dev : Nat) (loss : Nat × Nat) : Ranges :=
  let n := min (ropesIn x.list) (x.taken + (loss.2 - x.upTo))
  let more := (dropRopes loss.2 (own loss.1)).filter (fun r => r.hasMirror && r.mirror == dev)
  { list := takeRopes n x.list ++ sortBy (fun (a b : RangeEntry) => decide (a.firstRope < b.firstRope))
      (dropRopes n x.list ++ more)
    taken := n
    upTo := loss.2 }

/-- The ranges of a stage on a device; a loss is a device and the ropes of the stage granted up to it. -/
def RouteDesc.rangesAfter (d : RouteDesc) (stage dev : Nat) (losses : List (Nat × Nat)) : Ranges :=
  let own (x : Nat) : List RangeEntry := d.ranges.filter (fun r => r.stage == stage && r.device == x)
  losses.foldl (fun x l => x.lose own dev l) { list := own dev, taken := 0, upTo := 0 }

def RouteDesc.rangesOn (d : RouteDesc) (stage dev : Nat) (losses : List (Nat × Nat)) : List RangeEntry :=
  (d.rangesAfter stage dev losses).list

/-- Source ropes of a stage on a device. -/
def RouteDesc.sourceCount (d : RouteDesc) (stage dev : Nat) (losses : List (Nat × Nat)) : Nat :=
  ropesIn (d.rangesOn stage dev losses)

/-- Those of them that spans have taken when each device has been granted `granted`. -/
def RouteDesc.sourceTaken (d : RouteDesc) (stage dev : Nat) (losses : List (Nat × Nat)) (granted : Nat) : Nat :=
  let x := d.rangesAfter stage dev losses
  min (ropesIn x.list) (x.taken + (granted - x.upTo))

/-- The losses of a route as they concern one stage. -/
def Route.lossesOf (r : Route) (stage : Nat) : List (Nat × Nat) :=
  r.losses.map (fun x => (x.1, (x.2.find stage).getD 0))

/-- The stage's rope for a device's source rope number (R97). -/
def ropeAt : List RangeEntry → Nat → Nat
  | [], n => n
  | r :: l, n => if n < r.ropeCount then r.firstRope + n else ropeAt l (n - r.ropeCount)

/-- Devices that take part in a route (R66). -/
def RouteDesc.participants (d : RouteDesc) (home : Nat) : List Nat :=
  let wide := d.stages.zipIdx.any (fun p => p.1.kind == kExchange && (d.exchangeHash p.2).2 == 1)
  (List.range 16).filter (fun x => x == home || d.ranges.any (fun r => r.device == x)
    || (wide && decide (x < d.deviceCount)))

/-- The mirror that takes over a lost device's partitions (R75, R100); the home where none is named (log 37). -/
def Route.takeover (r : Route) (dev : Nat) : Nat :=
  if r.lostDevices.contains dev then
    match r.desc.ranges.find? (fun g => g.device == dev && g.hasMirror && !r.lostDevices.contains g.mirror) with
    | some g => g.mirror
    | none => r.key.home
  else dev

/-- The participants of a route once lost devices have left and their mirrors have joined (R66, R75). -/
def Route.parts (r : Route) : List Nat :=
  (List.range 16).filter (fun x => !r.lostDevices.contains x
    && (r.desc.participants r.key.home).any (fun y => r.takeover y == x))

/-- JOB_INFLATE_LIMIT in bytes (R130). -/
def Stage.inflateLimit (s : Stage) : Nat :=
  let m := fld (s.w 4) 63 32
  (if m = 0 then 4096 else m) * mib

/-- The unit that executes a kind of stage (Table 03.3); EMIT is the Summit's. -/
def kindUnit (k : Nat) : Option UnitKind :=
  if k = kScan ∨ k = kFilter ∨ k = kProject then some .scn
  else if k = kBuild ∨ k = kProbe ∨ k = kExchange then some .jnu
  else if k = kAgg then some .agu
  else if k = kSort ∨ k = kMerge then some .sru
  else if k = kStrand then some .strand
  else none

/-- Summit kind of a stage's ropes (Table 06.5). -/
def summitKind (k : Nat) : Nat :=
  if k = kScan ∨ k = kFilter ∨ k = kProject ∨ k = kStrand then 0
  else if k = kProbe ∨ k = kExchange then 1 else if k = kAgg then 2 else 3

/-! ## Checks -/

/-- DESC_MALFORMED when a condition that must hold does not. -/
def must (b : Bool) : List Nat := if b then [] else [stDescMalformed]

/-- An aligned reference that is not malformed; `image` asks for image memory. -/
def refOk (r align : Nat) (image : Bool) : Bool := !refBad r && r % align == 0 && !(image && refHost r)

/-- A column descriptor's own fields (R102, R105, Table 03.16). A null DICT beside DICT_ENTRIES above 0 is image
address 0 (DESIGN CHOICE, log 65: R102 says only that DICT is null if DICT_ENTRIES is 0). -/
def Column.ok (c : Column) : Bool :=
  tyOk c.ty && c.reserved == 0
    && (if c.ty = tyDec then decide (1 ≤ c.precision) && decide (c.precision ≤ 38) && decide (c.scale ≤ c.precision)
        else c.precision == 0 && c.scale == 0)
    && (if c.ty = tyFixed then decide (1 ≤ c.width) && decide (c.width ≤ 64) else c.width == 0)
    && decide (c.dictEntries ≤ 16777216) && (c.ty != tyVarchar || c.dictEntries == 0)
    && (if c.dictEntries = 0 then c.dict == 0 else true)
    && refOk c.dict 32 true && refOk c.blockList 64 true

/-- Two columns equal in TYPE, PRECISION, SCALE and WIDTH, the output nullable if the input is. -/
def sameColumn (inp out : Column) : Bool :=
  inp.ty == out.ty && inp.precision == out.precision && inp.scale == out.scale && inp.width == out.width
    && (!inp.nullable || out.nullable)

/-- Keys that may be joined or merged (Table 03.16). -/
def keyTypesOk (a b : Column) : Bool :=
  a.ty == b.ty && (a.ty != tyDec || a.scale == b.scale) && (a.ty != tyFixed || a.width == b.width)

/-- An aggregate list entry (R95). -/
structure AggEnt where
  func : Nat
  input : Nat
  output : Nat
  reserved : Nat
  deriving DecidableEq, Repr

def aggEnt (w : Nat) : AggEnt :=
  { func := fld w 63 56, input := fld w 55 48, output := fld w 47 40, reserved := fld w 39 0 }

/-- The aggregate list of a stage. -/
def RouteDesc.aggList (d : RouteDesc) (i : Nat) : List AggEnt := (wordsOf (d.prog i)).map aggEnt

/-- Whether an aggregate takes an input type (Table 03.5). -/
def aggInputOk (f t : Nat) : Bool :=
  if f = 0x02 ∨ f = 0x0C then tyOk t
  else if f = 0x03 then tyIsPlainInt t
  else if f = 0x04 then t == tyDec
  else if f = 0x05 ∨ f = 0x06 ∨ f = 0x0A ∨ f = 0x0B then tyIsFp t
  else if f = 0x07 ∨ f = 0x08 then tyOk t && t != tyBool
  else if f = 0x09 then tyIsPlainInt t || t == tyDec
  else false

/-- The result type of an aggregate (Table 06.2). -/
def aggResultTy (f t : Nat) : Nat :=
  if f = 0x01 ∨ f = 0x02 ∨ f = 0x0C then tyI64
  else if f = 0x03 then tyI128
  else if f = 0x04 then tyDec
  else if f = 0x07 ∨ f = 0x08 then t
  else if f = 0x09 then (if t = tyDec then tyDec else tyF64)
  else tyF64

/-- The rest of a result type as Table 06.2 states it: a decimal sum or average has the scale of
its input, a sum 38 digits, and MIN and MAX give the input's type (DEDUCED, log 21: its scale
and width too). -/
def aggFormOk (f : Nat) (inp out : Column) : Bool :=
  if f = 0x04 then out.scale == inp.scale && out.precision == 38
  else if f = 0x07 ∨ f = 0x08 then
    out.scale == inp.scale && out.width == inp.width
  else if f = 0x09 ∧ inp.ty = tyDec then out.scale == inp.scale
  else true

/-- One aggregate list entry (Tables 03.5 and 06.11). -/
def aggEntOk (det : Bool) (nk : Nat) (inp out : List Column) (e : AggEnt) : Bool :=
  let star := e.func == 0x01
  decide (1 ≤ e.func) && decide (e.func ≤ 0x0C) && e.reserved == 0
    && !(det && (e.func == 0x06 || e.func == 0x0B))
    && decide (nk ≤ e.output) && decide (e.output < out.length)
    && (if star then e.input == 0xFF
        else match inp[e.input]? with
          | some c => aggInputOk e.func c.ty
          | none => false)
    && (match out[e.output]? with
        | none => false
        | some o =>
          let ity := (inp[e.input]?.map (fun c => c.ty)).getD 0
          let mayNull := !(star || e.func == 0x02 || e.func == 0x0C)
            && ((inp[e.input]?.map (fun c => c.nullable)).getD false || nk == 0)
          o.ty == aggResultTy e.func ity && (!mayNull || o.nullable)
            && (match inp[e.input]? with
                | some c => aggFormOk e.func c o
                | none => true))

/-- The checks of an AGG stage (Table 06.11). -/
def RouteDesc.aggOk (d : RouteDesc) (i : Nat) : Bool :=
  let st := d.stage i
  let inp := d.cols st.inputA
  let out := d.cols i
  let keys := keyList (st.w 2)
  let l := d.aggList i
  keyListOk (st.w 2) inp.length 0
    && st.progLen % 8 == 0 && decide (1 ≤ l.length) && decide (l.length ≤ 32)
    && out.length == keys.length + l.length
    && (l.map (fun e => e.output)).eraseDups.length == l.length
    && l.all (aggEntOk d.deterministic keys.length inp out)
    && keys.zipIdx.all (fun p => match inp[p.1]?, out[p.2]? with
        | some a, some b => sameColumn a b
        | _, _ => false)
    && ((d.consumers i).all (fun c => (d.stage c).kind == kEmit) || d.aggPartitioned i)

/-- The output map of a JOIN_PROBE (R155). -/
def RouteDesc.probeMapOk (d : RouteDesc) (i : Nat) : Bool :=
  let st := d.stage i
  let jt := st.options % 8
  let inp := d.cols st.inputA
  let bld := d.cols st.inputB
  let out := d.cols i
  st.progLen == 64 && (d.prog i).zipIdx.all (fun p =>
    let b := p.1.toNat
    match out[p.2]? with
    | none => b == 0xFF
    | some o =>
      if b < 0x40 then (match inp[b]? with
        | some c => c.ty == o.ty
        | none => false)
      else if b < 0x80 then
        decide (jt ≤ 1) && (match bld[b - 0x40]? with
          | some c => c.ty == o.ty && (jt == 0 || o.nullable)
          | none => false)
      else b == 0x80 && jt == 4 && o.ty == tyBool && o.nullable)

/-- Columns of the keys of a key list. -/
def keyCols (w : Nat) (cols : List Column) : List Column := (keyList w).filterMap (fun k => cols[k]?)

/-- Keys of two sides agree in count and type. -/
def keysAgree (wa wb : Nat) (ca cb : List Column) : Bool :=
  (keyList wa).length == (keyList wb).length
    && (List.zip (keyCols wa ca) (keyCols wb cb)).all (fun p => keyTypesOk p.1 p.2)

/-- The kind-specific checks of one stage. Table 03.2 gives PROG_LEN 0 the meaning of no program; an EXCHANGE with
another value is refused, and PROG_OFFSET of a kind without a program is looked at only by `graphOk` (DESIGN CHOICE,
log 65: no rule names either). -/
def State.stageFaults (s : State) (d : RouteDesc) (i : Nat) : List Nat :=
  let st := d.stage i
  let inp := d.cols st.inputA
  let out := d.cols i
  let prog := parseProg (d.prog i)
  let sameTypes (a b : List Column) : Bool :=
    a.length == b.length && (List.zip a b).all (fun p => p.1.ty == p.2.ty)
  let cairn (inputs : List Column) : List Nat :=
    if s.cairnOk d.tenant (prog.cairnUses (inputs.map Column.regT)) then [] else [stCairnRef]
  if st.kind = kScan then
    must (decide (1 ≤ fld (st.w 3) 47 0) && decide (fld (st.w 2) 47 0 + fld (st.w 3) 47 0 ≤ 2 ^ 48)
        && out.all (fun c => c.blockList != 0)) ++
      (if st.progLen = 0 then []
       else must (prog.check true (out.map Column.regT) out) ++ cairn out)
  else if st.kind = kFilter then
    must (st.progLen != 0 && prog.check true (inp.map Column.regT) out) ++ cairn inp
  else if st.kind = kProject then
    must (st.progLen != 0 && prog.check false (inp.map Column.regT) out) ++ cairn inp
  else if st.kind = kBuild then
    must (st.options % 4 != 3 && fld (st.w 3) 59 58 != 3 && !(st.options % 4 == 1 && fld (st.w 3) 63 60 == 0)
      && decide (fld (st.w 3) 47 40 ≤ 12) && keyListOk (st.w 2) inp.length 1 && st.progLen == 0
      && decide (out.length ≤ inp.length) && (List.zip inp out).all (fun p => sameColumn p.1 p.2))
  else if st.kind = kProbe then
    let b := d.stage st.inputB
    must (decide (st.options % 8 ≤ 4) && keyListOk (st.w 2) inp.length 1 && d.probeMapOk i
      && keysAgree (st.w 2) (b.w 2) inp (d.cols b.inputA)
      && (d.joinPartitioned i || d.deviceCount == 1))
  else if st.kind = kAgg then must (d.aggOk i)
  else if st.kind = kSort then
    must (keyListOk (st.w 2) inp.length 1 && st.progLen == 0 && sameTypes inp out
      && (d.consumers i).all (fun c => (d.stage c).kind == kEmit || (d.stage c).kind == kMerge))
  else if st.kind = kMerge then
    let okIn (j : Nat) : Bool :=
      let x := d.stage j
      (x.kind == kSort || x.kind == kMerge) && x.w 2 == st.w 2 && fld (x.w 3) 15 0 == fld (st.w 3) 15 0
    must (keyListOk (st.w 2) inp.length 1 && st.progLen == 0 && sameTypes inp out && sameTypes (d.cols st.inputB) out
      && okIn st.inputA && okIn st.inputB
      && keysAgree (st.w 2) (st.w 2) inp (d.cols st.inputB)
      && (d.consumers i).all (fun c => (d.stage c).kind == kEmit || (d.stage c).kind == kMerge))
  else if st.kind = kStrand then
    let code := fld (st.w 3) 63 32
    must (st.w 2 != 0 && !refBad (st.w 2) && code % 4 == 0 && decide (4 ≤ code) && decide (code ≤ 16777216)
      && decide (fld (st.w 3) 31 0 < code) && fld (st.w 3) 31 0 % 4 == 0
      && (st.w 4 == 0) == (fld (st.w 5) 63 48 == 0) && !refBad (st.w 4)
      && st.progLen == 0)
  else if st.kind = kExchange then
    must (keyListOk (st.w 2) inp.length 1 && st.progLen == 0 && inp.length == out.length
      && (List.zip inp out).all (fun p => sameColumn p.1 p.2)
      && (d.version == 2 || decide (fld (st.w 4) 63 56 < d.hashes.length)))
  else if st.kind = kEmit then
    let src := d.stage st.inputA
    must (st.progLen == 0 && out.length != 0 && sameTypes inp out
      && !(bitAt st.options 0 && !(src.kind == kSort || src.kind == kMerge))
      && !(bitAt st.options 1 && out.any (fun c => c.ty == tyVarchar)))
  else [stDescMalformed]

/-- The graph rules of R93 and the common fields of one stage. -/
def RouteDesc.graphOk (d : RouteDesc) (columnCount programBytes i : Nat) : Bool :=
  let st := d.stage i
  let n := d.stages.length
  let usesA := st.kind != kScan
  let usesB := st.kind == kProbe || st.kind == kMerge
  decide (1 ≤ st.kind) && decide (st.kind ≤ kEmit) && st.index == i && st.reservedOk d.version
    && (if usesA then decide (st.inputA < i) else st.inputA == 0)
    && (if usesB then decide (st.inputB < i) else st.inputB == 0)
    && (i != 0 || st.kind == kScan)
    && ((st.kind == kEmit) == (i + 1 == n))
    && (st.kind == kEmit || !(d.consumers i).isEmpty)
    && (st.kind != kProbe || (d.stage st.inputB).kind == kBuild)
    && (st.kind != kBuild || ((d.consumers i).length == 1
          && (d.consumers i).all (fun c => (d.stage c).kind == kProbe && (d.stage c).inputB == i && (d.stage c).inputA != i)))
    && decide (st.colFirst + st.colCount ≤ columnCount) && decide (st.colCount ≤ 64)
    && decide (st.progOffset + st.progLen ≤ programBytes) && st.progOffset % 64 == 0

/-- Whether the range entries of a SCAN stage cover its ropes once, in order (R97). -/
def rangesCover (from_ total : Nat) : List RangeEntry → Bool
  | [] => from_ == total
  | r :: l => r.firstRope == from_ && decide (1 ≤ r.ropeCount) && rangesCover (from_ + r.ropeCount) total l

/-- The partition specification (R96 to R100); `systemCount` is the system's device count. -/
def RouteDesc.specOk (d : RouteDesc) (home systemCount : Nat) (stagesKnown : Bool) : Bool :=
  [1, 2, 4, 8, 16].contains d.deviceCount && decide (d.deviceCount ≤ systemCount)
    && decide (1 ≤ d.ranges.length)
    && d.ranges.all (fun r => r.reserved == 0 && decide (r.device < d.deviceCount)
        && (if r.hasMirror then r.mirror != r.device else r.mirror == 0)
        && (!d.mirrored || r.device == home || r.hasMirror))
    && d.hashes.all (fun h => h.reserved == 0 && decide (h.scope ≤ 1))
    && decide (d.hashes.length ≤ 15)
    && (!stagesKnown || (d.ranges.all (fun r => (d.stage r.stage).kind == kScan && decide (r.stage < d.stages.length))
        && d.stages.zipIdx.all (fun p => p.1.kind != kScan
            || rangesCover 0 p.1.scanRopes (d.ranges.filter (fun r => r.stage == p.2)))))

/-- What admission finds: the statuses of every condition that holds, and the admitted copy. -/
structure AdmitRes where
  statuses : List Nat
  desc : RouteDesc
  copy : List Byte

/-- The header's own conditions (R87 to R90, R226, R380). R87 says only that PROGRAM_AREA is null if no stage uses one: a null one
beside PROGRAM_BYTES not 0 is refused, and one that is not null, or PROGRAM_BYTES not 0, is taken where no stage uses a program
(DESIGN CHOICE; log 65). -/
def State.headerFaults (s : State) (tenant : Nat) (h : Header) : List Nat :=
  let v2 := h.version == 2
  must (fld (h.w 0) 39 36 == 0 && fld (h.w 1) 39 32 == 0 && fld (h.w 6) 15 0 == 0
      && (List.range 7).all (fun i => h.w (8 + i) == 0) && fld (h.w 15) 31 0 == 0)
    ++ must (!v2 || (h.w 5 == 0 && h.specBytes == 0 && fld (h.w 15) 63 32 == 0 && !h.mirrored))
    ++ must (decide (1 ≤ h.stageCount) && decide (h.stageCount ≤ 16) && h.quota != 0
      && h.descBytes == 128 + 64 * h.stageCount)
    ++ must (h.tenant == tenant)
    ++ must (!(h.replay && !h.deterministic))
    ++ must (decide (1 ≤ h.columnCount))
    ++ must (h.programBytes % 64 == 0 && decide (h.programBytes ≤ 65536))
    ++ must (refOk (h.w 3) 32 false && h.w 3 != 0 && refOk (h.w 4) 64 false
      && ((h.w 4 != 0) || h.programBytes == 0) && refOk (h.w 5) 32 false && (v2 || h.w 5 != 0))
    ++ must (!(s.routes.any (fun r => r.key == { tenant := tenant, id := h.routeId, home := s.sys.deviceId })))
    ++ must (match s.handleObj h.outputHandle tenant with
        | some (_, d) => d.cls == clsOutput && hOff h.outputHandle == 0 && !s.handleOpen h.outputHandle
        | none => false)
    ++ must (decide (h.priority ≤ s.onum (tobj 0x9000 tenant) 4))

/-- A structure's bytes, empty with the failure's status where its reference is malformed or its read fails. -/
def State.readStruct (s : State) (tenant r n : Nat) : Rd (List Byte × List Nat) :=
  if refBad r || n == 0 || r == 0 then .ok ([], [])
  else
    match s.refRead tenant r n with
    | .ok b => .ok (b, [])
    | .bad st _ => .ok ([], [st])
    | .need l => .need l

/-- A route's structures as its admitted copy holds them (R86): the descriptor, the column table, the program and the
partition specification; a route of version 2 runs on its home alone. -/
def descOf (self tenant : Nat) (h : Header) (desc ct pg sp : List Byte) : RouteDesc :=
  let known := h.descBytes == 128 + 64 * h.stageCount
  let stages := if known then (List.range h.stageCount).map (fun i => stageOf (sliceB desc (128 + 64 * i) 64)) else []
  let sw0 := getLe sp 0 8
  let nr := fld sw0 47 40
  let nh := fld sw0 39 32
  let ranges := if h.version = 2 then
      (stages.zipIdx.filter (fun p => p.1.kind == kScan)).map (fun p =>
        { stage := p.2, device := self, mirror := 0, hasMirror := false, firstRope := 0
          ropeCount := p.1.scanRopes, reserved := 0 : RangeEntry })
    else (List.range nr).map (fun i => rangeOf (sliceB sp (64 + 16 * i) 16))
  { version := h.version, priority := h.priority, tenant := tenant, mirrored := h.mirrored
    predictable := h.predictable, replay := h.replay, deterministic := h.deterministic, routeId := h.routeId
    quota := h.quota, outputHandle := h.outputHandle, userTag := h.userTag, stages := stages
    columns := (chunks 32 ct).map columnOf
    program := pg, deviceCount := if h.version = 2 then 1 else fld sw0 55 48, ranges := ranges
    hashes := if h.version = 2 then []
      else (List.range nh).map (fun i => hashOf (sliceB sp (64 + 16 * nr + 16 * i) 16)) }

/-- The checks of step 4 of R117 on a descriptor of which `db` bytes are at hand. -/
def State.admitBody (s : State) (tenant : Nat) (desc : List Byte) (h : Header) : Rd AdmitRes :=
  (s.readStruct tenant (h.w 3) (32 * h.columnCount)).bind (fun ct =>
  (s.readStruct tenant (h.w 4) h.programBytes).bind (fun pg =>
  (if h.version = 2 then .ok ([], []) else s.readStruct tenant (h.w 5) h.specBytes).bind (fun sp =>
    let known := h.descBytes == 128 + 64 * h.stageCount
    let d := descOf s.sys.deviceId tenant h desc ct.1 pg.1 sp.1
    let stages := d.stages
    let cols := d.columns
    let sw0 := getLe sp.1 0 8
    let nr := fld sw0 47 40
    let nh := fld sw0 39 32
    let self := s.sys.deviceId
    let colFaults := if ct.2.isEmpty && !cols.isEmpty then must (cols.all Column.ok) else []
    let specFaults := if h.version = 2 then []
      else if !sp.2.isEmpty then []
      else must (fld sw0 63 56 == 1 && fld sw0 31 0 == 0 && (sliceB sp.1 8 56).all (fun b => b == 0)
        && h.specBytes == 64 + 16 * (nr + nh) && d.specOk self s.sys.deviceCount known)
    let readable := ct.2.isEmpty && pg.2.isEmpty && sp.2.isEmpty
    let graph := (List.range stages.length).all (d.graphOk h.columnCount h.programBytes)
    let scanCol (k : Nat) : Bool := stages.any (fun st =>
      st.kind == kScan && decide (st.colFirst ≤ k) && decide (k < st.colFirst + st.colCount))
    let stageFaults := if !known then []
      else must graph ++ (if readable && graph then
        must (cols.zipIdx.all (fun p => scanCol p.2 || p.1.blockList == 0))
          ++ (List.range stages.length).flatMap (s.stageFaults d) else [])
    .ok { statuses := s.headerFaults tenant h ++ ct.2 ++ pg.2 ++ sp.2 ++ colFaults ++ specFaults ++ stageFaults
          desc := d, copy := desc ++ ct.1 ++ pg.1 ++ sp.1 })))

/-- An admitted copy with nothing in it, for a route refused before its structures are read. -/
def emptyDesc (h : Header) (tenant : Nat) : RouteDesc :=
  { version := h.version, priority := h.priority, tenant := tenant, mirrored := false, predictable := false
    replay := false, deterministic := h.deterministic, routeId := h.routeId, quota := h.quota
    outputHandle := h.outputHandle, userTag := h.userTag, stages := [], columns := [], program := [], deviceCount := 1
    ranges := [], hashes := [] }

/-- The admission of a route (R117): `src` gives the first `n` bytes of the descriptor. Its first line holds VERSION
and DESC_BYTES; DESC_BYTES bytes are read after they are found good. A read of those that fails ends admission with its
status alone (DESIGN CHOICE, log 65: neither the checksum nor the structures that the header names can be told). -/
def State.admitCheck (s : State) (tenant : Nat) (src : Nat → Rd (List Byte)) : Rd AdmitRes :=
  match src 64 with
  | .need l => .need l
  | .bad st _ => .ok { statuses := [st], desc := emptyDesc (headerOf []) tenant, copy := [] }
  | .ok hb =>
    let h := headerOf hb
    let only (st : Nat) : Rd AdmitRes := .ok { statuses := [st], desc := emptyDesc h tenant, copy := [] }
    if h.version ≠ 2 ∧ h.version ≠ 3 then only stDescVersion
    else if h.descBytes % 64 ≠ 0 ∨ h.descBytes < 192 ∨ 1152 < h.descBytes then only stDescMalformed
    else
      match src h.descBytes with
      | .need l => .need l
      | .bad st _ => only st
      | .ok desc =>
        let h := headerOf desc
        if h.version = 3 ∧ crc32c (overlay desc 124 (zeros 4)) ≠ fld (h.w 15) 63 32 then
          .ok { statuses := [stDescCheck], desc := emptyDesc h tenant, copy := [] }
        else s.admitBody tenant desc h

end Sys2Proof.Machine
end

