-- ==== Sys2Proof/Machine/Tasks.lean ====
section
/-! DEFINITION. What every task shares: its outcome, output ropes, deposits, ready slots and input completeness
(R66, R183, R203, R386 to R388). -/
namespace Sys2Proof.Machine

/-- Why a task stays ready and runs again: the journal is full (R62), or a block is read once more past what was read
of it before (R124). -/
inductive Again where
  | stall
  | own (ridge line : Nat)
  | reread (block : Nat) (lines : List Nat)
  deriving DecidableEq, Repr

/-- What a unit's task or a part of it answers. -/
inductive TRes (α : Type) where
  | ok (a : α) (s : State)
  | again (w : Again)
  /-- It waits for remote lines, or for a peer's page; the task stays ready. -/
  | need (lines : List Nat)
  | ask (m : Option (Asked × SvcMsg))
  /-- An allocation failed (R229). -/
  | full (cause cls : Nat) (s : State)
  /-- Conditions that end the route: (status, address) (R146, R181, R212). -/
  | bad (faults : List (Nat × Nat)) (s : State)

def TRes.andThen {α β : Type} (r : TRes α) (f : α → State → TRes β) : TRes β :=
  match r with
  | .ok a s => f a s
  | .again w => .again w
  | .need l => .need l
  | .ask m => .ask m
  | .full c k s => .full c k s
  | .bad l s => .bad l s

/-- A read inside a task. -/
def TRes.ofRd {α : Type} (s : State) (r : Rd α) : TRes α :=
  match r with
  | .ok a => .ok a s
  | .bad st ad => .bad [(st, ad)] s
  | .need l => .need l

/-- An allocation inside a task. -/
def TRes.ofAlloc (a : Alloc) : TRes Unit :=
  match a with
  | .ok s => .ok () s
  | .wait m => .ask m
  | .fail c k s => .full c k s

/-- Runs a list of steps in order. -/
def TRes.each {α : Type} (f : α → State → TRes Unit) : List α → State → TRes Unit
  | [], s => .ok () s
  | a :: l, s => (f a s).andThen (fun _ s => TRes.each f l s)

/-! ## Keys of per-stage state -/

/-- Stage and logical ridge as one key. -/
def srKey (stage ridge : Nat) : Nat := stage * 16 + ridge

/-- The home's own view of a key. -/
def State.isHome (s : State) (k : RouteKey) : Bool := k.home == s.sys.deviceId

def State.work (s : State) (k : RouteKey) (f : RouteWork → RouteWork) : State :=
  s.updRoute k (fun r => { r with work := f r.work })

def State.mapSpan (s : State) (k : RouteKey) (f : Span → Span) : State :=
  s.updRoute k (fun r => { r with span := r.span.map f })

def State.spanPitch (s : State) (k : RouteKey) : Nat := s.openPitchOf (some k)

/-- Asks a peer for a page or for quota (R218, R223), or notes and counts a wait for the zeroing engine (R219); a request
that is open already is not sent again. -/
def State.askPage (s : State) (m : Option (Asked × SvcMsg)) : State :=
  match m with
  | none => s
  | some (a, m) =>
    let s := { s with link := { s.link with asked := s.link.asked ++ [a] } }
    if a.op = opZeroWait then s.oinc 0x4002 6 1 else s.send (.svc m)

/-! ## The Cairn tables of a task (R143) -/

/-- Whether a stage runs a filter program. -/
def RouteDesc.runsProgram (d : RouteDesc) (i : Nat) : Bool :=
  let k := (d.stage i).kind
  (k == kScan || k == kFilter || k == kProject) && (d.stage i).progLen != 0

/-- The tables a stage's program searches, with the smallest width each search needs. -/
def RouteDesc.cairnNeeds (d : RouteDesc) (i : Nat) : List (Nat × Nat) :=
  if !d.runsProgram i then []
  else
    let p := parseProg (d.prog i)
    if p.insns.any (fun x => decide (0x19 ≤ x.op) && decide (x.op ≤ 0x1B)) then
      p.cairnUses ((d.cols (if (d.stage i).kind = kScan then i else (d.stage i).inputA)).map Column.regT)
    else []

/-- The check before a task: every table is still there, wide enough, and no narrower than when the route was opened. -/
def State.cairnReady (s : State) (r : Route) (stage : Nat) : Bool :=
  let uses := r.desc.cairnNeeds stage
  s.cairnOk r.key.tenant uses && uses.all (fun u =>
    match r.widths.find? (fun w => w.1 == u.1), s.tableOf r.key.tenant u.1 with
    | some w, some t => decide (w.2 ≤ t.width)
    | _, _ => true)

/-! ## Forms of released ropes -/

/-- Bytes of an aggregate's state (Table 06.2); a MIN or MAX holds its value, whether there is one, and the tie-break
key; VARCHAR values stand by a 16-byte reference. -/
def aggStateBytes (f : Nat) (c : ColForm) : Nat :=
  if f = 0x01 ∨ f = 0x02 ∨ f = 0x06 then 8
  else if f = 0x03 then 24
  else if f = 0x04 then 32
  else if f = 0x05 then 64
  else if f = 0x07 ∨ f = 0x08 then (if c.ty = tyVarchar then 16 else tyBytes c.ty c.width) + 16
  else if f = 0x09 then (if c.ty = tyDec then 40 else 32)
  else if f = 0x0A then 72
  else if f = 0x0B then 16
  else 16384

/-- Bytes of a state as a released rope carries it (log 26): a count and a presence byte beside what Table 06.2 lists. -/
def aggPartialForm (f : Nat) (c : ColForm) : ColForm :=
  if (f = 0x07 ∨ f = 0x08) ∧ c.ty = tyVarchar then { ty := tyVarchar, width := 0, nullable := false }
  else { ty := tyFixed, width := aggStateBytes f c + 16, nullable := false }

/-- Layout forms of the ropes of a stage: an AGG that is not partitioned releases group states (R208). -/
def RouteDesc.ropeForms (d : RouteDesc) (i : Nat) : List ColForm :=
  let st := d.stage i
  if st.kind = kAgg ∧ d.aggPartitioned i = false then
    let inp := d.forms st.inputA
    (d.forms i).zipIdx.map (fun p =>
      match (d.aggList i).find? (fun e => e.output == p.2) with
      | some e => aggPartialForm e.func (inp.getD e.input { ty := tyI64, width := 0, nullable := false })
      | none => p.1)
  else d.forms i

/-! ## Ready slots (R386) -/

/-- Ready tasks on a logical ridge. -/
def State.slotsUsed (s : State) (ridge : Nat) : Nat := (s.sched.ready.filter (fun t => t.ridge == ridge)).length

/-- Whether a SCAN task may take a slot: sixteen are kept for other stages. -/
def State.scanSlotFree (s : State) (ridge : Nat) : Bool := decide (s.slotsUsed ridge < 496)

/-- The rope an object holds. -/
def State.ropeIn (s : State) (o : Nat) : Option Rope :=
  match s.dobj? o with
  | some d => (match d.content with
    | .rope r => some r
    | .code _ r => some r
    | .bytes _ => none)
  | none => none

/-- Where a rope stands in the order of delivery of an EXCHANGE (Table 02.6). -/
def State.deliveryKey (s : State) (o : Nat) : List Nat :=
  match s.ropeIn o with
  | some r => [r.spanPitch, r.srcDevice, r.srcRidge, r.seq]
  | none => []

def natsLt : List Nat → List Nat → Bool
  | _, [] => false
  | [], _ => true
  | a :: l, b :: m => decide (a < b) || (a == b && natsLt l m)

/-- The place in that order of a task whose input an EXCHANGE delivered. -/
def State.deliveredAt (s : State) (d : RouteDesc) (t : Task) : Option (List Nat) :=
  match t.input with
  | .rope o =>
    if ((s.ropeIn o).map (fun r => (d.stage r.stage).kind == kExchange)).getD false then some (s.deliveryKey o) else none
  | _ => none

/-- A task takes a slot of its ridge, or waits for one (R386, R388). -/
def State.takeSlot (s : State) (t : Task) : State :=
  if s.slotsUsed t.ridge < 512 then { s with sched := { s.sched with ready := s.sched.ready ++ [t] } }
  else { s with sched := { s.sched with held := s.sched.held ++ [t] } }

/-- Tasks that wait for slots take those that are free, the oldest first. -/
def State.fillSlots (s : State) : State :=
  s.sched.held.foldl (fun s t =>
    if 512 ≤ s.slotsUsed t.ridge then s
    else
      ({ s with sched := { s.sched with held := s.sched.held.erase t } } : State).takeSlot t) s

/-- Adds ready tasks; a probe rope of a ridge whose build is not sealed waits instead (R152). -/
def State.pushTask (s : State) (t : Task) : State :=
  match s.route? t.key with
  | none => s
  | some r =>
    let st := r.desc.stage t.stage
    let isSealed := ((r.work.builds.find (srKey st.inputB t.ridge)).map (fun b => b.isSealed)).getD false
    match t.input with
    | .rope o =>
      if st.kind == kProbe && !isSealed then
        s.work t.key (fun w => { w with waiting := w.waiting ++ [(t.stage, t.ridge, o)] })
      else s.takeSlot t
    | _ => s.takeSlot t

/-- Probe ropes of a stage and ridge that waited for its seal become ready. -/
def State.wakeProbes (s : State) (k : RouteKey) (probe ridge : Nat) : State :=
  match s.route? k with
  | none => s
  | some r =>
    let mine := r.work.waiting.filter (fun w => w.1 == probe && w.2.1 == ridge)
    let s := s.work k (fun w => { w with waiting := w.waiting.filter (fun x => !(x.1 == probe && x.2.1 == ridge)) })
    mine.foldl (fun s w =>
      let seq := ((s.ropeIn w.2.2).map (fun rp => rp.seq)).getD 0
      s.pushTask { key := k, stage := probe, ridge := ridge, input := .rope w.2.2, seq := seq }) s

/-! ## Reading ropes -/

/-- What stands against reading an object: a line that is poisoned or whose stored word gives no data, a spill page whose host
range fails (R227, R390), or what the read of a tier 2 line answered. -/
def State.objFault (s : State) (o : Nat) : Option Nat :=
  match s.dobj? o with
  | none => some stBusError
  | some d => d.pages.findSome? (fun id => (s.depot.pages.find id).bind (fun p =>
      if p.tier = 3 then
        (let l := s.hostErrors (o / 65536) (refAddr p.addr) p.size
         if l.isEmpty then none else some (pickStatus l))
      else if p.tier = 2 then
        (s.coh.readBuf.find? (fun q => decide (p.addr ≤ q.1) && decide (q.1 < p.addr + p.size) && q.2.1 != stOk)).map
          (fun q => q.2.1)
      else if p.tier ≤ 1 then
        let base := s.sys.deviceId * 2 ^ 44 + (if p.tier = 0 then 2 ^ 43 else 0) + p.addr
        let inside (l : Nat) : Bool := decide (base ≤ l) && decide (l < base + p.size)
        if s.dram.poisoned.any (fun q => inside q.1) || s.dram.raw.any (fun q => inside (keyLine q.1) && s.rawLost (keyLine q.1)) then
          some stPoisonRead
        else none
      else none))

/-- A task's input rope. -/
def State.readRope (s : State) (o : Nat) : TRes Rope :=
  match s.objFault o with
  | some st => .bad [(st, ((s.dobj? o).map (fun d => d.handle o)).getD 0)] s
  | none =>
    match s.ropeIn o with
    | some r => .ok r s
    | none => .bad [(stBusError, 0)] s

/-! ## Writing ropes -/

/-- The bytes of an object's tier 3 pages go to host memory (R227). -/
def State.spillWrite (s : State) (o : Nat) : State :=
  match s.dobj? o with
  | none => s
  | some d => d.pages.foldl (fun s id => match s.depot.pages.find id with
      | some p => if p.tier = 3 then s.hostWrite (o / 65536) (refAddr p.addr) (d.readN o (p.index * p.size) p.size) else s
      | none => s) s

/-- A new object of a route with room for its content. -/
def State.storeContent (s : State) (k : RouteKey) (cls ridge bytes : Nat) (c : Content) (forms : List ColForm) :
    TRes Nat :=
  match s.newObj k.tenant cls ridge (some k) c forms with
  | none => .full causeMap cls s
  | some (o, s) => (TRes.ofAlloc (s.ensureBytes o bytes)).andThen (fun _ s => .ok o (s.spillWrite o))

/-- Stores a rope as a ROPE object. -/
def State.storeRope (s : State) (k : RouteKey) (ridge : Nat) (r : Rope) (forms : List ColForm) : TRes Nat :=
  s.storeContent k clsRope ridge (r.size forms) (.rope r) forms

/-- Inserts into a chain in ascending rope sequence, ropes of one sequence in written order (R203). -/
def chainInsert (e : Nat × Nat) (l : List (Nat × Nat)) : List (Nat × Nat) :=
  insertBy (fun a b => decide (a.1 < b.1)) e l

def emptyBuf (st : BufState) : SlotBuf := { state := st, tag := 0, entries := [] }

/-- The two buffers of a slot; at reset buffer 0 fills and buffer 1 is free (R202). -/
def State.slot (s : State) (k : Nat) : SlotBuf × SlotBuf :=
  (s.summit.slots.find k).getD (emptyBuf .filling, emptyBuf .free)

def State.setSlot (s : State) (k : Nat) (b : SlotBuf × SlotBuf) : State :=
  { s with summit := { s.summit with slots := s.summit.slots.put k b } }

/-- Adds a rope to a route's entry of a buffer. -/
def SlotBuf.add (b : SlotBuf) (e : SlotEntry) (seq obj : Nat) : SlotBuf :=
  if b.entries.any (fun x => x.key == e.key && x.ridge == e.ridge && x.kind == e.kind && x.device == e.device) then
    { b with entries := b.entries.map (fun x =>
        if x.key == e.key && x.ridge == e.ridge && x.kind == e.kind && x.device == e.device then
          { x with chain := chainInsert (seq, obj) x.chain } else x) }
  else { b with entries := b.entries ++ [{ e with chain := [(seq, obj)] }] }

/-- Deposits a rope into the filling buffer of a slot (R203). -/
def State.deposit (s : State) (slot : Nat) (e : SlotEntry) (seq obj : Nat) : State :=
  let b := s.slot slot
  if b.1.state = .filling then s.setSlot slot (b.1.add e seq obj, b.2) else s.setSlot slot (b.1, b.2.add e seq obj)

/-- The kind 0 port of a logical ridge takes a deposit of its SCN, or of one of its strands (R201). -/
def State.portTakes (s : State) (ridge : Nat) (strand : Option Nat) : State :=
  let last := ((s.summit.ports.find ridge).bind (fun p => p.2))
  { s with summit := { s.summit with
    ports := s.summit.ports.put ridge (strand.isNone, if strand.isSome then strand else last) } }

/-- The slot of a logical ridge and unit kind (Table 06.5). -/
def slotKey (ridge kind : Nat) : Nat := ridge * 4 + kind

/-- A rope leaves its stage for a logical ridge: the tasks that consume it there, and its deposit in its producer's
slot where the consumer is the EMIT (R203). -/
def State.emitTo (s : State) (k : RouteKey) (d : RouteDesc) (stage src dst : Nat) (r : Rope) : TRes (List Task) :=
  (s.storeRope k dst r (d.ropeForms stage)).andThen (fun o s =>
    let cons := d.consumers stage
    let emits := cons.filter (fun c => (d.stage c).kind == kEmit)
    let s := if emits.isEmpty then s
      else
        let kind := summitKind (d.stage stage).kind
        let s := if kind = 0 then s.portTakes src none else s
        s.deposit (slotKey src kind)
          { key := k, kind := kind, ridge := src, device := s.sys.deviceId, spanPitch := s.spanPitch k, chain := [] }
          r.seq o
    .ok ((cons.filter (fun c => (d.stage c).kind != kEmit)).map (fun c =>
      { key := k, stage := c, ridge := dst, input := .rope o, seq := r.seq : Task })) s)

/-- A rope leaves its stage on its own ridge. -/
def State.emitRope (s : State) (k : RouteKey) (d : RouteDesc) (stage ridge : Nat) (r : Rope) : TRes (List Task) :=
  s.emitTo k d stage ridge ridge r

/-- Emits ropes in order and gathers the tasks they make. -/
def State.emitRopes (s : State) (k : RouteKey) (d : RouteDesc) (stage ridge : Nat) : List Rope → TRes (List Task)
  | [] => .ok [] s
  | r :: l => (s.emitRope k d stage ridge r).andThen (fun ts s =>
      (s.emitRopes k d stage ridge l).andThen (fun us s => .ok (ts ++ us) s))

/-- The header fields every rope of a stage carries (Table 03.11). -/
def State.ropeHdr (s : State) (k : RouteKey) (stage ridge keyForm base seq : Nat) : Rope :=
  { routeId := k.id, stage := stage, keyForm := keyForm, rows := 0, seq := seq, srcDevice := s.sys.deviceId
    srcRidge := ridge, base := base, spanPitch := s.spanPitch k, sel := [], keys := [], cols := [] }

/-- Compacted ropes of up to 4,096 rows each, every slot selected (R156). Compacted rows of KEY_FORM 0 no longer stand
at BASE_ROW_ID + i, so such a rope lists its row ids as KEY_FORM 1 does (log 25). -/
def compactRopes (hdr : Rope) (ncols : Nat) (rows : List Row) : List Rope :=
  (chunks 4096 rows).map (fun l =>
    { hdr with
      keyForm := if hdr.keyForm = 0 then 1 else hdr.keyForm
      base := 0
      rows := l.length, sel := l.map (fun _ => true), keys := l.map (fun r => r.key)
      cols := (List.range ncols).map (fun c => l.map (fun r => r.vals.getD c none)) })

/-- Sets the size of the object that holds a stage's state on a ridge, allocating what it lacks; `grow` replaces the
object, as a doubled group table does (R187). -/
def State.sizeTable (s : State) (k : RouteKey) (stage ridge cls bytes : Nat) (fresh : Bool) : TRes Unit :=
  let old := (s.route? k).bind (fun r => r.work.tables.find (srKey stage ridge))
  match (if fresh then none else old) with
  | some o => TRes.ofAlloc (s.ensureBytes o bytes)
  | none =>
    (s.storeContent k cls ridge bytes (.bytes []) []).andThen (fun o s =>
      let s := s.work k (fun w => { w with tables := w.tables.put (srKey stage ridge) o })
      match old with
      | some x => .ok () (s.releaseObj k x)
      | none => .ok () s)

/-! ## Input completeness (R152, R183) -/

/-- Stages that feed a stage, at any distance (fuel: the stage's index). -/
def RouteDesc.feeders (d : RouteDesc) : Nat → Nat → List Nat
  | 0, _ => []
  | f + 1, i =>
    let st := d.stage i
    let a := if st.kind = kScan then [] else [st.inputA]
    let b := if st.kind = kProbe ∨ st.kind = kMerge then [st.inputB] else []
    ((a ++ b) ++ (a ++ b).flatMap (d.feeders f)).eraseDups

/-- Whether a task of this device belongs to a route and one of some stages. -/
def Task.inStages (t : Task) (k : RouteKey) (l : List Nat) : Bool := t.key == k && l.contains t.stage

/-- Ready and running tasks, with those that wait for slots and those that running ones will make ready. -/
def State.allTasks (s : State) : List Task :=
  s.sched.ready ++ s.sched.held ++ s.sched.running.flatMap (fun r => r.task :: r.outputs)

/-- Whether every source rope of a SCAN stage has been handed out on this device. -/
def State.sourcesOut (s : State) (r : Route) (stage : Nat) : Bool :=
  let total := r.desc.sourceCount stage s.sys.deviceId (r.lossesOf stage)
  let next := (r.work.next.find stage).getD 0
  decide (total ≤ next) ||
    (match r.span with
     | none => false
     | some sp =>
       match sp.sources.find? (fun x => x.1 == stage) with
       | none => false
       | some x => decide (total ≤ x.2.1 + x.2.2) &&
           decide (sumNat ((List.range 16).map (fun q => (sp.handedOut.find (srKey stage q)).getD 0)) = x.2.2))

/-- Whether the other participants have no more work on a stage: no message of the spec says so, so it is free (log 23). -/
def State.peersPast (s : State) (r : Route) (stage : Nat) : Bool :=
  Config.peersPast r.key.tenant r.key.id stage s.now

/-- Whether every source rope of a SCAN stage on the other participants has passed: all that the committed spans granted
have; those of the open span may have (log 23). -/
def State.peersOut (s : State) (r : Route) (stage : Nat) : Bool :=
  let done := (r.base.granted.find stage).getD 0
  let open_ := done + ((r.span.map (fun sp => 16 * sp.q)).getD 0)
  r.parts.all (fun dev => dev == s.sys.deviceId
    || (let l := r.lossesOf stage
        let n := r.desc.sourceCount stage dev l
        decide (n ≤ r.desc.sourceTaken stage dev l done)
          || (decide (n ≤ r.desc.sourceTaken stage dev l open_) && s.peersPast r stage)))

/-- Whether a releasing stage has released its last rope here and, as far as that can be known, on the other
participants (R183; log 23). -/
def State.allReleased (s : State) (r : Route) (stage : Nat) : Bool :=
  (List.range 16).all (fun q => r.work.released.contains (srKey stage q))
    && (decide (r.parts.length ≤ 1) || s.peersPast r stage)

/-- Whether the input of a stage is complete on this device: no rope that feeds it is still to come, is at work or is on its
way to a peer (R152, R183). -/
def State.inputComplete (s : State) (r : Route) (stage : Nat) : Bool :=
  let anc := r.desc.feeders stage stage
  anc.all (fun a =>
      let kind := (r.desc.stage a).kind
      (kind != kScan || (s.sourcesOut r a && s.peersOut r a))
        && (!(kind == kAgg || kind == kSort || kind == kMerge) || s.allReleased r a)
        && (kind != kBuild || (List.range 16).all (fun q =>
            ((r.work.builds.find (srKey a q)).map (fun b => b.isSealed)).getD false))
        && (kind != kProbe || !(r.work.waiting.any (fun w => w.1 == a))))
    && !(s.link.outbound.any (fun o => o.key == r.key && o.summit.isNone && anc.contains o.stage))
    && !(s.allTasks.any (fun t => t.inStages r.key anc
        || (t.key == r.key && t.stage == stage && t.input != .sealBuild && t.input != .release)))

/-- Seals whose build is complete become tasks (R152). -/
def State.readySeals (s : State) (k : RouteKey) : State :=
  match s.route? k with
  | none => s
  | some r =>
    r.desc.stages.zipIdx.foldl (fun s p =>
      if p.1.kind == kBuild && s.inputComplete r p.2 then
        (List.range 16).foldl (fun s q =>
          let isSealed := ((r.work.builds.find (srKey p.2 q)).map (fun b => b.isSealed)).getD false
          let t : Task := { key := k, stage := p.2, ridge := q, input := .sealBuild, seq := 0 }
          if isSealed || s.allTasks.contains t then s else s.pushTask t) s
      else s) s

/-- Whether a route's span has no task left on this device and has handed out all its sources. -/
def State.spanIdle (s : State) (r : Route) : Bool :=
  !(s.allTasks.any (fun t => t.key == r.key))
    && (match r.span with
        | none => true
        | some sp => sp.sources.all (fun x =>
            decide (sumNat ((List.range 16).map (fun q => (sp.handedOut.find (srKey x.1 q)).getD 0)) = x.2.2)))

/-! ## Source tasks (R52, R386) -/

/-- The sequences of a source list that fall to a logical ridge (R52): first and count. -/
def ridgeShare (first count q ridge : Nat) : Nat × Nat :=
  (first + ridge * q, min q (count - ridge * q))

/-- Hands out source tasks of one stage on one ridge while slots allow (fuel: its quota). -/
def State.fillRidge (s : State) (k : RouteKey) (stage ridge : Nat) (share : Nat × Nat) : Nat → State
  | 0 => s
  | f + 1 =>
    match (s.route? k).bind (fun r => r.span) with
    | none => s
    | some sp =>
      let n := (sp.handedOut.find (srKey stage ridge)).getD 0
      if n < share.2 ∧ s.scanSlotFree ridge = true then
        let t : Task := { key := k, stage := stage, ridge := ridge, input := .source (share.1 + n), seq := share.1 + n }
        ((s.pushTask t).mapSpan k (fun sp => { sp with handedOut := sp.handedOut.put (srKey stage ridge) (n + 1) })).fillRidge
          k stage ridge share f
      else s

/-- Tasks that wait for slots take them first; source tasks become ready before the cutoff, as long as slots allow. -/
def State.fillSources (s : State) : State :=
  let s := s.fillSlots
  if s.pitch.cutoffDone || s.sys.state != .operational then s
  else
    s.routes.foldl (fun s r =>
      match r.span with
      | none => s
      | some sp =>
        if sp.replaying || sp.held || !r.conditions.isEmpty then s
        else
          sp.sources.foldl (fun s x => (List.range 16).foldl (fun s q =>
            let share := ridgeShare x.2.1 x.2.2 sp.q q
            s.fillRidge r.key x.1 q share share.2) s) s) s

/-! ## Suspension (R229) -/

/-- The clocks that some stalled contexts have waited since they were last counted join O:0x2004.3 (R388). -/
def State.countStalls (s : State) (mine : Running → Bool) : State :=
  s.oinc 0x2004 3 (sumNat ((s.sched.running.filter mine).map (fun r => (r.stalled.map (fun t => s.now - t)).getD 0)))

/-- Drops every task of a route from the scheduler (R65 step 1). -/
def State.dropTasks (s : State) (k : RouteKey) : State :=
  let s := s.countStalls (fun r => r.task.key == k)
  { s with
    sched := { s.sched with
      ready := s.sched.ready.filter (fun t => t.key != k)
      held := s.sched.held.filter (fun t => t.key != k)
      running := s.sched.running.filter (fun r => r.task.key != k) }
    scn := s.scn.filter (fun p => p.2.key != k) }

/-- A strand stops its task; what it predicts by and its TLBs stay with it (R257, R267). -/
def StrandSt.stopped (t : StrandSt) : StrandSt :=
  { StrandSt.idle with itt := t.itt, path := t.path, lastRoute := t.lastRoute, itlb := t.itlb, dtlb := t.dtlb }

/-- The wrong-path work of a task that ends on a strand joins the sums of its ridge (Table 08.13). -/
def State.countWrong (s : State) (ridge : Nat) (t : StrandSt) : State :=
  let n := 0xA004 + 0x20 * s.physRidge ridge
  (s.oinc n 2 t.wpfetch).oinc n 3 t.wpload

/-- What the strands of a logical ridge did on wrong paths counts at the physical ridge that carries the number now (R276). -/
def State.settleWrong (s : State) (q : Nat) : State :=
  let s := (s.strands.filter (fun p => p.1 / 8 == q)).foldl (fun s p => s.countWrong q p.2) s
  { s with strands := s.strands.map (fun p => (p.1, if p.1 / 8 = q then { p.2 with wpfetch := 0, wpload := 0 } else p.2)) }

/-- The strands that run a route's tasks drop them (R267). -/
def State.dropStrands (s : State) (k : RouteKey) : State :=
  let mine (t : StrandSt) : Bool := (t.task.map (fun x => x.key)) == some k
  let s := (s.strands.filter (fun p => mine p.2)).foldl (fun s p => s.countWrong (p.1 / 8) p.2) s
  { s with strands := s.strands.map (fun p => (p.1, if mine p.2 then p.2.stopped else p.2)) }

/-- The Summit forgets a span's entries (R207). -/
def State.dropEntries (s : State) (k : RouteKey) (spanPitch : Nat) : State :=
  let keep (e : SlotEntry) : Bool := !(e.key == k && e.spanPitch == spanPitch)
  let cut (b : SlotBuf) : SlotBuf := { b with entries := b.entries.filter keep }
  { s with summit := { s.summit with
      slots := s.summit.slots.map (fun p => (p.1, (cut p.2.1, cut p.2.2)))
      holding := s.summit.holding.filter (fun h => keep h.2) } }

/-- A peer's line that this device journaled is restored: the copies here go, and its home is written past the caches (R22,
R65). -/
def State.restoreFar (s : State) (l : Nat) (old : List Byte) : State :=
  let s := { s with
    cache := s.cache.dropLine l
    coh := { s.coh with readBuf := s.coh.readBuf.del l, remote := s.coh.remote.del (l / 64) } }
  (s.request { op := opWrNc, src := 0, dst := 0, txn := 0, line := l, mask := fullMask, data := old } locDepot .depot).2

/-- Stores of a route that wait for a peer's line are given up. -/
def State.dropWrites (s : State) (k : RouteKey) : State :=
  { s with coh := { s.coh with requests := s.coh.requests.map (fun (r : OpenReq) => match r.purpose with
      | .write _ x _ => if x = k then { r with purpose := .dropped } else r
      | _ => r) } }

def RouteWork.empty : RouteWork :=
  { next := [], granted := [], charges := [], builds := [], tables := [], aggs := [], sorts := [], released := [], staging := []
    stagingObj := none, staged := 0, waiting := [] }

end Sys2Proof.Machine
end

