-- ==== Sys2Proof/Machine/Join.lean ====
section
/-! DEFINITION. Tasks of JOIN_BUILD, JOIN_PROBE and EXCHANGE stages (R98, R148 to R159, R181). -/
namespace Sys2Proof.Machine

/-! ## Keys -/

/-- Types and positions of a stage's key list. -/
def keyTypes (w : Nat) (cols : List Column) : List Nat := (keyCols w cols).map (fun c => c.ty)

/-- A row's key values. -/
def keysOf (w : Nat) (vals : List Slot) : List Slot := (keyList w).map (fun k => vals.getD k none)

/-- Whether two key lists are equal by value (R115). -/
def sameKeys (ts : List Nat) (a b : List Slot) : Bool :=
  (List.zip ts (List.zip a b)).all (fun p => slotEq p.1 p.2.1 p.2.2)

/-- Whether any key is null. -/
def anyNull (ks : List Slot) : Bool := ks.any (fun k => k.isNone)

/-- Order of tie-break keys: a pair is compared probe first (R82). -/
def tieLt (a b : Nat × Nat) : Bool := decide (a.1 < b.1) || (a.1 == b.1 && decide (a.2 < b.2))

/-! ## EXCHANGE (R98, R157) -/

/-- Destination of a row: device and logical ridge. -/
def RouteDesc.destOf (d : RouteDesc) (stage home : Nat) (ts : List Nat) (vals : List Slot) : Nat × Nat :=
  let st := d.stage stage
  let hs := d.exchangeHash stage
  let parts := if hs.2 = 0 then 16 else 16 * d.deviceCount
  let p := hashKeys (List.zip ts (keysOf (st.w 2) vals)) hs.1 / 2 ^ 32 * parts / 2 ^ 32
  (if hs.2 = 0 then home else p / 16, p % 16)

/-- Sends a destination rope: into the Depot here, or towards a peer. -/
def State.sendRope (s : State) (k : RouteKey) (d : RouteDesc) (stage src : Nat) (dest : Nat × Nat) (r : Rope) :
    TRes (List Task) :=
  if dest.1 = s.sys.deviceId then s.emitTo k d stage src dest.2 r
  else
    let o : Outbound :=
      { id := s.link.nextOut, device := dest.1, key := k, cls := clsRope, bytes := r.bytes 0 (d.forms stage)
        dstRidge := dest.2, seq := r.seq, srcRidge := src, stage := stage, spanPitch := r.spanPitch, summit := none, ropes := 1
        tag := 0, handle := 0, pages := [], written := 0, awaiting := [] }
    .ok [] { s with link := { s.link with outbound := s.link.outbound ++ [o], nextOut := s.link.nextOut + 1 } }

/-- Sends the ropes of several destinations, in ascending device and ridge. -/
def State.sendRopes (s : State) (k : RouteKey) (d : RouteDesc) (stage src : Nat) (hdr : Rope) (ncols : Nat)
    (rows : List ((Nat × Nat) × Row)) : List (Nat × Nat) → TRes (List Task)
  | [] => .ok [] s
  | dest :: l =>
    match compactRopes hdr ncols ((rows.filter (fun x => x.1 == dest)).map (fun x => x.2)) with
    | [] => s.sendRopes k d stage src hdr ncols rows l
    | r :: _ => (s.sendRope k d stage src dest r).andThen (fun ts s =>
        (s.sendRopes k d stage src hdr ncols rows l).andThen (fun us s => .ok (ts ++ us) s))

/-- A rope through an EXCHANGE stage: at most 4,096 rows go to a destination, so one rope each. -/
def State.exchangeTask (s : State) (r : Route) (stage ridge : Nat) (rp : Rope) : TRes (List Task) :=
  let d := r.desc
  let ts := keyTypes ((d.stage stage).w 2) (d.cols (d.stage stage).inputA)
  let rows := rp.liveRows.map (fun x =>
    let t := d.destOf stage r.key.home ts x.vals
    ((r.takeover t.1, t.2), x))
  let hdr := s.ropeHdr r.key stage ridge rp.keyForm 0 rp.seq
  let dests := (List.range 16).flatMap (fun dev => (List.range 16).map (fun q => (dev, q)))
  s.sendRopes r.key d stage ridge hdr (d.stage stage).colCount rows dests

/-! ## Build (R150 to R152, R158) -/

def emptyBuild : BuildSt :=
  { received := 0, nullSeen := false, records := [], isSealed := false, anyReceived := false, anyNull := false
    cam := none }

def Route.build (r : Route) (stage ridge : Nat) : BuildSt := (r.work.builds.find (srKey stage ridge)).getD emptyBuild

def State.setBuild (s : State) (k : RouteKey) (stage ridge : Nat) (b : BuildSt) : State :=
  s.work k (fun w => { w with builds := w.builds.put (srKey stage ridge) b })

/-- Bytes of a value in a build record. -/
def recBytes (c : ColForm) (v : Slot) : Nat :=
  if c.ty = tyVarchar then 4 + (match v with
    | some (.str b) => b.length
    | _ => 0) else tyBytes c.ty c.width

/-- Bytes of a build record (R150). -/
def BuildRec.size (x : BuildRec) (keys cols : List ColForm) : Nat :=
  roundUp (16 + sumNat ((List.zip keys x.keys).map (fun p => recBytes p.1 p.2))
    + sumNat ((List.zip cols x.cols).map (fun p => recBytes p.1 p.2))) 8

/-- Partition of a record: bits [31 : 32 − r] of its hash (R150). -/
def partOf (r h : Nat) : Nat := if r = 0 then 0 else h % 2 ^ 32 / 2 ^ (32 - r)

def RouteDesc.radix (d : RouteDesc) (build : Nat) : Nat := fld ((d.stage build).w 3) 47 40

/-- Key types of a build stage. -/
def RouteDesc.buildTypes (d : RouteDesc) (build : Nat) : List Nat :=
  keyTypes ((d.stage build).w 2) (d.cols (d.stage build).inputA)

def BuildRec.part (x : BuildRec) (ts : List Nat) (radix : Nat) : Nat :=
  partOf radix (hashKeys (List.zip ts x.keys) 0)

/-- Least power of two at or above a number (fuel: the exponent's bound). -/
def pow2From : Nat → Nat → Nat → Nat
  | 0, p, _ => p
  | f + 1, p, n => if n ≤ p then p else pow2From f (2 * p) n

/-- Bytes of the bucket area of one partition (R150, R151): home buckets, and one overflow bucket each time a chain
fills. -/
def bucketBytes (radix : Nat) (hashes : List Nat) : Nat :=
  let n := hashes.length
  let b := min (pow2From 40 1 (ceilDiv n 4)) (2 ^ (32 - radix))
  let chains : SMap Nat := hashes.foldl (fun m h => m.put (h % b) ((m.find (h % b)).getD 0 + 1)) []
  64 * (b + sumNat (chains.map (fun c => (c.2 - 1) / 8)))

/-- Bytes of all bucket areas of a build. -/
def allBuckets (radix : Nat) (ts : List Nat) (records : List BuildRec) : Nat :=
  let hs := records.map (fun x => hashKeys (List.zip ts x.keys) 0)
  sumNat ((List.range (2 ^ radix)).map (fun p => bucketBytes radix (hs.filter (fun h => partOf radix h == p))))

/-- Appends a rope's rows to the build of one ridge. -/
def State.appendBuild (s : State) (r : Route) (stage : Nat) (received : Nat) (nulls : Bool) (recs : List BuildRec)
    (ridge : Nat) : TRes Unit :=
  let d := r.desc
  let inp := d.cols (d.stage stage).inputA
  let kf := (keyCols ((d.stage stage).w 2) inp).map Column.form
  let ts := d.buildTypes stage
  let radix := d.radix stage
  let b := ((s.route? r.key).getD r).build stage ridge
  let all := b.records ++ recs
  let parts := (recs.map (fun x => x.part ts radix)).eraseDups
  if parts.any (fun p => decide (4294967295 < (all.filter (fun x => x.part ts radix == p)).length)) then
    .bad [(stPartitionFull, 0)] s
  else
    let s := s.setBuild r.key stage ridge { b with
      received := b.received + received, nullSeen := b.nullSeen || nulls, records := all }
    s.sizeTable r.key stage ridge clsTable (sumNat (all.map (fun x => x.size kf (d.forms stage)))) false

/-- The probe stage of a build. -/
def RouteDesc.probeOf (d : RouteDesc) (build : Nat) : Nat := (d.consumers build).headD 0

/-- A rope through a JOIN_BUILD stage: into its own ridge's build, or into every ridge's when the join is
replicated (R149, R150). -/
def State.buildTask (s : State) (r : Route) (stage ridge : Nat) (rp : Rope) : TRes (List Task) :=
  let d := r.desc
  let st := d.stage stage
  let rows := rp.liveRows
  let keyed := rows.map (fun x => (keysOf (st.w 2) x.vals, x))
  let recs := (keyed.filter (fun x => !anyNull x.1)).map (fun x =>
    { lead := x.2.key.1, tie := x.2.key.2, keys := x.1, cols := x.2.vals.take st.colCount : BuildRec })
  let ridges := if d.joinPartitioned (d.probeOf stage) then [ridge] else List.range 16
  (TRes.each (fun q s => s.appendBuild r stage rows.length (keyed.any (fun x => anyNull x.1)) recs q) ridges s).andThen
    (fun _ s => .ok [] s)

/-! ### The seal -/

/-- The CAM key of key values: their hash words as little-endian bytes (R158). -/
def camKey (ts : List Nat) (ks : List Slot) : List Byte :=
  bytesOfWords ((List.zip ts ks).flatMap (fun p => hashWords p.1 p.2))

/-- Entry width of a code. -/
def widthOf (c : Nat) : Nat := if c = 0 then 1 else if c = 1 then 2 else 4

/-- Whether a build fits the CAM on a ridge (R158). -/
def State.camFits (s : State) (ridge mask u : Nat) (keys : List (List Byte)) : Bool :=
  mask != 0 && keys.all (fun k => decide (k.length ≤ 10 * u))
    && decide (keys.length ≤ (bankList mask).length * perBank u)
    && (bankList mask).all (fun b => (s.bank (bankKey ridge b)).owner == .free)

/-- Writes the entries of a CAM build, with their shadows, from index 0 up. -/
def State.camWrite (s : State) (ridge mask u : Nat) (keys : List (List Byte)) : State :=
  keys.zipIdx.foldl (fun s e =>
    let k := bankKey ridge ((bankList mask).getD (e.2 / perBank u) 0)
    (List.range u).foldl (fun s j =>
      let row := e.2 % perBank u * u + j
      let v := unitRow true 0x3FF (keyUnit e.1 j)
      (s.writeRow k row v).writeShadow k row v) s) s

/-- Takes the banks of a CAM build: cleared, owned and with their shadows in Depot memory (R158, R175). -/
def State.takeCam (s : State) (k : RouteKey) (stage ridge mask u : Nat) (keys : List (List Byte)) : TRes Unit :=
  (s.storeContent k clsShadow ridge (65536 * (bankList mask).length) (.bytes []) []).andThen (fun o s =>
    let s := (bankList mask).zipIdx.foldl (fun s b => s.clearBank (bankKey ridge b.1) (.cam k stage) u (o, b.2)) s
    .ok () (s.camWrite ridge mask u keys))

/-- Two records of one partition with the same lead key (R152); records are in lead order. -/
def dupLead (ts : List Nat) (radix : Nat) (l : List BuildRec) : Bool :=
  let tags := l.map (fun x => (x.lead, x.part ts radix))
  tags.eraseDups.length != tags.length

/-- What the whole build received, and whether any key was null (R152): the facts of every ridge here or'd with those of
the other participants. No message of the spec carries the latter, so they are free, one value for a route's stage
whatever the span, the replay or the ridge (log 27, R78). -/
def State.buildFacts (_s : State) (r : Route) (stage : Nat) : Bool × Bool :=
  let bs := (List.range 16).map (r.build stage)
  match bs.find? (fun b => b.isSealed) with
  | some b => (b.anyReceived, b.anyNull)
  | none =>
    let recv := bs.any (fun b => b.received != 0)
    let nul := bs.any (fun b => b.nullSeen)
    if r.parts.length ≤ 1 then (recv, nul)
    else
      let f := Config.peerFacts r.key.tenant r.key.id stage
      (recv || f.getLsbD 0, nul || f.getLsbD 1)

/-- The seal of a build on a logical ridge (R150, R152, R158). -/
def State.sealTask (s : State) (r : Route) (stage ridge : Nat) : TRes (List Task) :=
  let d := r.desc
  let st := d.stage stage
  let b := r.build stage ridge
  let ts := d.buildTypes stage
  let radix := d.radix stage
  let recs := sortBy (fun (x y : BuildRec) => tieLt (x.lead, x.tie) (y.lead, y.tie)) b.records
  if d.deterministic && dupLead ts radix recs then .bad [(stJoinMultiMatch, 0)] s
  else
    let mask := fld (st.w 3) 63 60
    let u := widthOf (fld (st.w 3) 59 58)
    let keys := recs.map (fun x => camKey ts x.keys)
    let method := st.options % 4
    let fits := method != 0 && s.camFits ridge mask u keys
    if method = 1 ∧ fits = false then .bad [(stCairnFull, 0)] s
    else
      let facts := s.buildFacts r stage
      let inp := d.cols st.inputA
      let kf := (keyCols (st.w 2) inp).map Column.form
      let runBytes := sumNat (recs.map (fun x => x.size kf (d.forms stage)))
      let room : TRes Unit :=
        if fits then s.takeCam r.key stage ridge mask u keys
        else s.sizeTable r.key stage ridge clsTable (runBytes + allBuckets radix ts recs) false
      room.andThen (fun _ s =>
        let s := s.setBuild r.key stage ridge { b with
          records := recs, isSealed := true, anyReceived := facts.1, anyNull := facts.2
          cam := if fits then some (mask, u) else none }
        let s := s.oinc 0x3020 1 recs.length
        let s := if fits then s.oinc 0x3020 3 1 else if method = 2 then s.oinc 0x3020 4 1 else s
        .ok [] (s.wakeProbes r.key (d.probeOf stage) ridge))

/-! ## Probe (R153 to R156, R159) -/

/-- Matches of a probe key in a CAM build: the verified matches of every bank in order, compared by value. -/
def State.camProbe (s : State) (k : RouteKey) (ridge mask u : Nat) (ts : List Nat) (recs : List BuildRec)
    (ks : List Slot) : List BuildRec × State :=
  let key := camKey ts ks
  if 10 * u < key.length then ([], s)
  else
    (bankList mask).zipIdx.foldl (fun acc b =>
      let bk := bankKey ridge b.1
      let w := (acc.2.noteSearch (some k) bk).walkBank bk key true
      (acc.1 ++ (w.1.filterMap (fun e => recs[b.2 * perBank u + e]?)).filter (fun x => sameKeys ts x.keys ks), w.2))
      ([], s)

/-- Matches of a probe row, in ascending lead key order. -/
def State.probeRow (s : State) (k : RouteKey) (ridge : Nat) (ts : List Nat) (b : BuildSt) (ks : List Slot) :
    List BuildRec × State :=
  if anyNull ks then ([], s)
  else
    match b.cam with
    | some c => s.camProbe k ridge c.1 c.2 ts b.records ks
    | none => (b.records.filter (fun x => sameKeys ts x.keys ks), s)

/-- The output columns of a probe row with its build columns and its mark (R155). -/
def mapProbe (map : List Nat) (vals bld : List Slot) (mark : Slot) : List Slot :=
  map.map (fun m =>
    if m < 0x40 then vals.getD m none else if m < 0x80 then bld.getD (m - 0x40) none else mark)

/-- The mark of a row (Table 05.3). -/
def markOf (m : List BuildRec) (b : BuildSt) (keyNull : Bool) : Slot :=
  if !m.isEmpty then some (.int 1)
  else if !b.anyReceived then some (.int 0)
  else if keyNull || b.anyNull then none
  else some (.int 0)

/-- Rows emitted for one probe row (Table 05.3, R154). -/
def probeEmit (jt keyForm : Nat) (map : List Nat) (b : BuildSt) (x : Row) (keyNull : Bool) (m : List BuildRec) :
    List Row :=
  let pair (lead : Nat) : Nat × Nat := if keyForm = 2 then x.key else (x.key.1, lead)
  let self (mark : Slot) : Row := { key := x.key, vals := mapProbe map x.vals [] mark }
  let hits := m.map (fun y => { key := pair y.lead, vals := mapProbe map x.vals y.cols none : Row })
  if jt = 0 then hits
  else if jt = 1 then
    if m.isEmpty then [{ key := pair (2 ^ 64 - 1), vals := mapProbe map x.vals [] none }] else hits
  else if jt = 2 then (if m.isEmpty then [] else [self none])
  else if jt = 3 then (if m.isEmpty then [self none] else [])
  else [self (markOf m b keyNull)]

/-- Probes the rows of a rope in slot order; a second match under a pair ends a DETERMINISTIC route (R154). R154 does not say
whether it does so for a semi, anti or mark join, which emits a row once whatever it meets: here only an inner or left outer
join ends (DESIGN CHOICE; log 65). -/
def State.probeRows (s : State) (k : RouteKey) (ridge : Nat) (ts : List Nat) (b : BuildSt) (det : Bool)
    (jt keyForm keyWord : Nat) (map : List Nat) : List Row → List Row → TRes (List Row)
  | [], acc => .ok acc s
  | x :: l, acc =>
    let ks := keysOf keyWord x.vals
    let m := s.probeRow k ridge ts b ks
    if det && keyForm == 2 && decide (jt ≤ 1) && decide (1 < m.1.length) then .bad [(stJoinMultiMatch, 0)] m.2
    else m.2.probeRows k ridge ts b det jt keyForm keyWord map l
      (acc ++ probeEmit jt keyForm map b x (anyNull ks) m.1)

/-- A rope through a JOIN_PROBE stage. -/
def State.probeTask (s : State) (r : Route) (stage ridge : Nat) (rp : Rope) : TRes (List Task) :=
  let d := r.desc
  let st := d.stage stage
  let b := r.build st.inputB ridge
  let jt := st.options % 8
  let ts := keyTypes (st.w 2) (d.cols st.inputA)
  let map := ((d.prog stage).map (fun x => x.toNat)).take st.colCount
  let rows := rp.liveRows
  let s := s.oinc 0x3020 2 rows.length
  (s.probeRows r.key ridge ts b d.deterministic jt rp.keyForm (st.w 2) map rows []).andThen (fun out s =>
    let kf := if jt ≤ 1 then 2 else rp.keyForm
    s.emitRopes r.key d stage ridge (compactRopes (s.ropeHdr r.key stage ridge kf 0 rp.seq) st.colCount out))

end Sys2Proof.Machine
end

