-- ==== Sys2Proof/Machine/Agg.lean ====
section
/-! DEFINITION. Group tables, aggregate states, their release and their combination (R185 to R195, R208). -/
namespace Sys2Proof.Machine

/-! ## The binned accumulator (R192 to R194) -/

/-- Exponent of the top set bit of a finite, nonzero FP64 value. -/
def msbWeight (x : Nat) : Int := (fpMag fp64 x).2 + (bitLen (fpMag fp64 x).1 : Int) - 1

/-- Bits a to a + 39 of a magnitude. -/
def binPiece (x : Nat) (a : Int) : Nat :=
  let m := (fpMag fp64 x).1
  let e := (fpMag fp64 x).2 - a
  (if 0 ≤ e then m * 2 ^ e.toNat else m / 2 ^ (-e).toNat) % 2 ^ 40

/-- Keeps a bin sum inside its 64 bits (R193): sum and carry. -/
def binNorm (s c : Int) : Int × Int :=
  if s ≥ 2 ^ 62 ∨ s < -(2 ^ 62) then (s - s / 2 ^ 40 * 2 ^ 40, c + s / 2 ^ 40) else (s, c)

/-- Shifts three bins down by `d` places. -/
def binShift (d : Nat) (b : List (Int × Int)) : List (Int × Int) :=
  (List.replicate d (0, 0) ++ b).take 3

/-- Bin sums and carries, top bin first. -/
def AggState.bins : AggState → List (Int × Int)
  | .binned s0 c0 s1 c1 s2 c2 _ _ _ => [(s0, c0), (s1, c1), (s2, c2)]
  | _ => [(0, 0), (0, 0), (0, 0)]

def AggState.anchor : AggState → Int
  | .binned _ _ _ _ _ _ a _ _ => a
  | _ => -1080

def AggState.flags : AggState → Nat
  | .binned _ _ _ _ _ _ _ f _ => f
  | _ => 0

/-- Non-null values folded. -/
def AggState.seen : AggState → Nat
  | .count n => n
  | .sum _ n => n
  | .binned _ _ _ _ _ _ _ _ n => n
  | .fsum _ n => n
  | .extreme v _ => if v.isSome then 1 else 0
  | .distinct _ => 0

def mkBinned (b : List (Int × Int)) (anchor : Int) (flags n : Nat) : AggState :=
  let g (i : Nat) : Int × Int := b.getD i (0, 0)
  .binned (g 0).1 (g 0).2 (g 1).1 (g 1).2 (g 2).1 (g 2).2 anchor flags n

def flagNonempty : Nat := 1
def flagPosInf : Nat := 2
def flagNegInf : Nat := 4
def flagNan : Nat := 8

/-- The bits of a set of flags together. -/
def orFlags (a b : Nat) : Nat := a ||| b

/-- Folds one FP64 value (R193). -/
def binFold (st : AggState) (x : Nat) : AggState :=
  let n := st.seen + 1
  if fpIsNan fp64 x then mkBinned st.bins st.anchor (orFlags st.flags flagNan) n
  else if fpIsInf fp64 x then
    mkBinned st.bins st.anchor (orFlags st.flags (if fpSign fp64 x then flagNegInf else flagPosInf)) n
  else if fpIsZero fp64 x then mkBinned st.bins st.anchor (orFlags st.flags flagNonempty) n
  else
    let top := msbWeight x / 40 * 40
    let up := decide (st.anchor < top)
    let a := if up then top else st.anchor
    let b := if up then binShift ((top - st.anchor) / 40).toNat st.bins else st.bins
    let b := b.zipIdx.map (fun p =>
      let piece : Int := binPiece x (a - 40 * (p.2 : Int))
      binNorm (p.1.1 + (if fpSign fp64 x then -piece else piece)) p.1.2)
    mkBinned b a (orFlags st.flags flagNonempty) n

/-- Merges two accumulators (R193). -/
def binMerge (x y : AggState) : AggState :=
  let m := max x.anchor y.anchor
  let at_ (z : AggState) : List (Int × Int) := binShift ((m - z.anchor) / 40).toNat z.bins
  let b := (List.zip (at_ x) (at_ y)).map (fun p => binNorm (p.1.1 + p.2.1) (p.1.2 + p.2.2))
  mkBinned b m (orFlags x.flags y.flags) (x.seen + y.seen)

/-- The sum of a finished accumulator, or null (R194). -/
def binFinish (st : AggState) : Option Nat :=
  let f := st.flags
  if bitAt f 3 || (bitAt f 1 && bitAt f 2) then some 0x7FF8000000000000
  else if bitAt f 1 then some (fpInf fp64 false)
  else if bitAt f 2 then some (fpInf fp64 true)
  else if !bitAt f 0 then none
  else
    let z := st.bins.zipIdx.foldl (fun (acc : Int) p =>
      acc + (p.1.2 * 2 ^ 40 + p.1.1) * ((2 : Int) ^ (80 - 40 * p.2))) 0
    some (fpRoundInt fp64 0 false z (st.anchor - 80)).1

/-! ## Distinct estimates (R195) -/

/-- A quotient of naturals as FP64, correctly rounded: 256 further bits and a sticky bit. -/
def ratioF64 (neg : Bool) (num den : Nat) : Nat :=
  let q := num * 2 ^ 256 / den
  if num = 0 then fpZero fp64 false
  else (fpRound fp64 0 neg (2 * q + (if num * 2 ^ 256 % den = 0 then 0 else 1)) (-257)).1

/-- Sum of z^(2i+1)/(2i+1) over terms of a fixed-point number z with 256 fraction bits (fuel: terms). -/
def atanhSeries : Nat → Nat → Nat → Nat → Nat
  | 0, _, _, _ => 0
  | f + 1, k, t, z2 => t / k + atanhSeries f (k + 2) (t * z2 / 2 ^ 256) z2

/-- 2·atanh of a/b with 256 fraction bits. -/
def twoAtanh (a b : Nat) : Nat :=
  let z := a * 2 ^ 256 / b
  2 * atanhSeries 100 1 z (z * z / 2 ^ 256)

/-- ln of a finite FP64 value at or above 1, rounded to nearest even from about 240 fraction bits (log 28). -/
def lnF64 (x : Nat) : Nat :=
  let m := (fpMag fp64 x).1
  let b := bitLen m
  let e := (fpMag fp64 x).2 + (b : Int) - 1
  let p := 2 ^ (b - 1)
  let v := e.toNat * twoAtanh 1 3 + twoAtanh (m - p) (m + p)
  if v = 0 then fpZero fp64 false else (fpRound fp64 0 false (2 * v + 1) (-257)).1

/-- The estimate of a register set (R195), every operation in FP64 in the order written. -/
def distinctFinish (regs : SMap Nat) : Int :=
  let m := 16384
  let s := (16384 - regs.length) * 2 ^ 51 + sumNat (regs.map (fun p => 2 ^ (51 - p.2)))
  let v := 16384 - (regs.filter (fun p => p.2 != 0)).length
  let fm := (fpFromInt fp64 0 m).1
  let mul (a b : Nat) : Nat := (fpMul fp64 0 a b).1
  let div (a b : Nat) : Nat := (fpDiv fp64 0 a b).1
  let one := (fpFromInt fp64 0 1).1
  let alpha := div (ratioF64 false 7213 10000) (fpAdd fp64 0 one (div (ratioF64 false 1079 1000) fm)).1
  let e := div (mul (mul (mul alpha fm) fm) (fpFromInt fp64 0 (2 ^ 51 : Nat)).1) (fpFromInt fp64 0 (s : Nat)).1
  let lim := mul (ratioF64 false 5 2) fm
  let e := if (fpLe fp64 e lim).1 && decide (0 < v) then
      mul fm (lnF64 (div fm (fpFromInt fp64 0 (v : Nat)).1))
    else e
  (fpToIntRaw fp64 0 e).1

/-- Folds one value's words into the registers. -/
def distinctFold (regs : SMap Nat) (t : Nat) (v : Slot) : SMap Nat :=
  let h := hash64 (hashWords t v) 0
  let j := h / 2 ^ 50
  let w := h % 2 ^ 50
  let rho := if w = 0 then 51 else 51 - bitLen w
  regs.put j (max ((regs.find j).getD 0) rho)

def distinctMerge (a b : SMap Nat) : SMap Nat :=
  b.foldl (fun m p => m.put p.1 (max ((m.find p.1).getD 0) p.2)) a

/-! ## States (Table 06.2) -/

/-- The state before any row. -/
def aggEmpty (f : Nat) : AggState :=
  if f = 0x01 ∨ f = 0x02 then .count 0
  else if f = 0x03 ∨ f = 0x04 ∨ f = 0x09 then .sum 0 0
  else if f = 0x05 ∨ f = 0x0A then mkBinned [] (-1080) 0 0
  else if f = 0x06 ∨ f = 0x0B then .fsum 0 0
  else if f = 0x07 ∨ f = 0x08 then .extreme none (0, 0)
  else .distinct []

/-- The better of two extreme values (R190): by value, then by the smaller tie-break key. -/
def extremePick (f t : Nat) (a : Slot) (ka : Nat × Nat) (b : Slot) (kb : Nat × Nat) : AggState :=
  match a, b with
  | none, _ => .extreme b kb
  | _, none => .extreme a ka
  | some x, some y =>
    let lower := if f = 0x07 then valLt t t y x else valLt t t x y
    let higher := if f = 0x07 then valLt t t x y else valLt t t y x
    if lower then .extreme b kb
    else if higher then .extreme a ka
    else if tieLt kb ka then .extreme b kb else .extreme a ka

/-- Folds a row's input of one aggregate: `v` is the input, null inputs are skipped except by COUNT(*). -/
def aggFold (f t : Nat) (st : AggState) (v : Slot) (tie : Nat × Nat) : AggState :=
  match st with
  | .count n => if f = 0x01 ∨ v.isSome then .count (n + 1) else st
  | .sum z n =>
    match v with
    | some x => .sum (z + x.asInt) (n + 1)
    | none => st
  | .binned .. =>
    match v with
    | some x => binFold st (x.asF64 t)
    | none => st
  | .fsum b n =>
    match v with
    | some x => .fsum (fpAdd fp64 0 b (x.asF64 t)).1 (n + 1)
    | none => st
  | .extreme a k => if v.isSome then extremePick f t a k v tie else st
  | .distinct r => if v.isSome then .distinct (distinctFold r t v) else st

/-- Merges two states of one aggregate (R208). -/
def aggMerge (f t : Nat) (a b : AggState) : AggState :=
  match a, b with
  | .count x, .count y => .count (x + y)
  | .sum x m, .sum y n => .sum (x + y) (m + n)
  | .binned .., .binned .. => binMerge a b
  | .fsum x m, .fsum y n => if n = 0 then a else if m = 0 then b else .fsum (fpAdd fp64 0 x y).1 (m + n)
  | .extreme x j, .extreme y k => extremePick f t x j y k
  | .distinct x, .distinct y => .distinct (distinctMerge x y)
  | _, _ => a

/-- The result of a state, or none for a fault of Table 06.2. -/
def aggFinish (f : Nat) (c : ColForm) (st : AggState) : Option Slot :=
  match st with
  | .count n => some (some (.int n))
  | .distinct r => some (some (.int (distinctFinish r)))
  | .extreme v _ => some v
  | .binned .. =>
    match binFinish st with
    | none => some none
    | some x => some (some (.fp (if f = 0x0A then (fpDiv fp64 0 x (fpFromInt fp64 0 (st.seen : Nat)).1).1 else x)))
  | .fsum b n =>
    if n = 0 then some none
    else some (some (.fp (if f = 0x0B then (fpDiv fp64 0 b (fpFromInt fp64 0 (n : Nat)).1).1 else b)))
  | .sum z n =>
    if n = 0 then some none
    else if f = 0x03 then (if intFits tyI128 z then some (some (.int z)) else none)
    else if f = 0x04 then (if z.natAbs < 10 ^ 38 then some (some (.int z)) else none)
    else if c.ty = tyDec then
      let q := divHalfAway z n
      if q.natAbs < 10 ^ 38 then some (some (.int q)) else none
    else some (some (.fp (ratioF64 (decide (z < 0)) z.natAbs n)))

/-! ## States in the bytes of a released rope (log 26) -/

/-- Bytes of a state. -/
def aggEncode (c : ColForm) (st : AggState) : List Byte :=
  match st with
  | .count n => natLe 8 n
  | .sum z n => natLe 8 n ++ natLe 32 (ofSigned 256 z)
  | .binned s0 c0 s1 c1 s2 c2 a f n =>
    natLe 8 n ++ [s0, c0, s1, c1, s2, c2].flatMap (fun z => natLe 8 (ofSigned 64 z))
      ++ natLe 8 (ofSigned 16 a * 2 ^ 48 + f)
  | .fsum b n => natLe 8 n ++ natLe 8 b
  | .extreme v k => natLe 8 v.isSome.toNat ++ natLe 8 k.1 ++ natLe 8 k.2 ++ (match v with
    | some x => valBytes c.ty c.width x
    | none => [])
  | .distinct r => (List.range 16384).map (fun j => BitVec.ofNat 8 ((r.find j).getD 0))

/-- A state from its bytes. -/
def aggDecode (f : Nat) (c : ColForm) (b : List Byte) : AggState :=
  let w (i : Nat) : Nat := getLe b (8 * i) 8
  let z (i : Nat) : Int := toSigned 64 (w i)
  if f = 0x01 ∨ f = 0x02 then .count (w 0)
  else if f = 0x03 ∨ f = 0x04 ∨ f = 0x09 then .sum (toSigned 256 (getLe b 8 32)) (w 0)
  else if f = 0x05 ∨ f = 0x0A then
    .binned (z 1) (z 2) (z 3) (z 4) (z 5) (z 6) (toSigned 16 (fld (w 7) 63 48)) (w 7 % 16) (w 0)
  else if f = 0x06 ∨ f = 0x0B then .fsum (w 1) (w 0)
  else if f = 0x07 ∨ f = 0x08 then
    let vb := if c.ty = tyVarchar then b.drop 24 else sliceB b 24 (tyBytes c.ty c.width)
    .extreme (if w 0 = 0 then none else some (valOfBytes c.ty vb)) (w 1, w 2)
  else .distinct (((List.range 16384).map (fun j => (j, (b.getD j 0).toNat))).filter (fun p => p.2 != 0))

/-! ## Folding rows (R186 to R190) -/

/-- An AGG's fixed facts: key word, key types, input columns, aggregate list. -/
structure AggPlan where
  keyWord : Nat
  types : List Nat
  inp : List Column
  out : List Column
  list : List AggEnt

def RouteDesc.aggPlan (d : RouteDesc) (stage : Nat) : AggPlan :=
  let st := d.stage stage
  let inp := d.cols st.inputA
  { keyWord := st.w 2, types := keyTypes (st.w 2) inp, inp := inp, out := d.cols stage, list := d.aggList stage }

/-- Form of an aggregate's input; COUNT(*) has none. -/
def AggPlan.form (p : AggPlan) (e : AggEnt) : ColForm :=
  ((p.inp[e.input]?).map Column.form).getD { ty := tyI64, width := 0, nullable := false }

/-- A group with no rows yet. -/
def AggPlan.newGroup (p : AggPlan) (keys : List Slot) (tie : Nat × Nat) : Group :=
  { slot := 0, keys := keys, tie := tie, states := p.list.map (fun e => aggEmpty e.func) }

/-- The first free slot of a table of `n` slots from a slot on (fuel: the slots taken). -/
def probeSlot (n : Nat) (taken : List Nat) : Nat → Nat → Nat
  | 0, i => i
  | f + 1, i => if taken.contains i then probeSlot n taken f ((i + 1) % n) else i

/-- A group's slot among those of other groups: its hash modulo the table size, probed linearly (R186). -/
def AggPlan.place (p : AggPlan) (n : Nat) (others : List Group) (g : Group) : Group :=
  { g with slot := probeSlot n (others.map (fun x => x.slot)) others.length (hashKeys (List.zip p.types g.keys) 0 % n) }

/-- A table doubles: its groups take their slots in the new table in the order of their old slots (R187, log 68). -/
def AggPlan.rehash (p : AggPlan) (a : AggSt) : AggSt :=
  let n := 2 * a.slots
  let moved := (sortBy (fun (x y : Group) => decide (x.slot < y.slot)) a.groups).foldl
    (fun (acc : List (Nat × Group)) g => acc ++ [(g.slot, p.place n (acc.map (fun x => x.2)) g)]) []
  { a with
    slots := n
    groups := a.groups.map (fun g =>
      ((moved.find? (fun x => x.1 == g.slot)).map (fun x => { g with slot := x.2.slot })).getD g) }

/-- A row folded into its group; key values come from the row of the smallest tie-break key (R188). -/
def AggPlan.foldRow (p : AggPlan) (g : Group) (keys : List Slot) (x : Row) : Group :=
  { slot := g.slot
    keys := if tieLt x.key g.tie then keys else g.keys
    tie := if tieLt x.key g.tie then x.key else g.tie
    states := (List.zip p.list g.states).map (fun q =>
      aggFold q.1.func (p.form q.1).ty q.2 (x.vals.getD q.1.input none) x.key) }

/-- Whether one group more passes 7/8 of the table (R187). -/
def tableFull (groups slots : Nat) : Bool := decide (7 * slots < 8 * (groups + 1))

/-- Folds a row; none when the table cannot grow. -/
def AggPlan.addRow (p : AggPlan) (a : AggSt) (x : Row) : Option AggSt :=
  let keys := keysOf p.keyWord x.vals
  if a.groups.any (fun g => sameKeys p.types g.keys keys) then
    some { a with groups := a.groups.map (fun g => if sameKeys p.types g.keys keys then p.foldRow g keys x else g) }
  else
    let g := p.foldRow (p.newGroup keys x.key) keys x
    if p.types.isEmpty then some { a with groups := a.groups ++ [g] }
    else if !tableFull a.groups.length a.slots then some { a with groups := a.groups ++ [p.place a.slots a.groups g] }
    else if 2 ^ 32 ≤ a.slots then none
    else
      let b := p.rehash a
      some { b with groups := b.groups ++ [p.place b.slots b.groups g] }

def AggPlan.addRows (p : AggPlan) (a : AggSt) : List Row → Option AggSt
  | [] => some a
  | x :: l => (p.addRow a x).bind (fun a => p.addRows a l)

/-- Slots a table starts with (R187). -/
def firstSlots (hint : Nat) : Nat := min (2 ^ 32) (pow2From 40 1024 (ceilDiv (8 * hint) 7))

/-- Bytes of one slot (R187). -/
def AggPlan.slotBytes (p : AggPlan) : Nat :=
  let keys := (keyCols p.keyWord p.inp).map Column.form
  roundUp (16 + sumNat (keys.map (fun c => if c.ty = tyVarchar then 16 else tyBytes c.ty c.width))
    + sumNat (p.list.map (fun e => aggStateBytes e.func (p.form e)))) 8

/-- Bytes of VARCHAR keys and of VARCHAR extremes: they take further pages, under the key of stage + 16 (R187). -/
def AggPlan.varBytes (p : AggPlan) (a : AggSt) : Nat :=
  let one (v : Slot) : Nat := match v with
    | some (.str b) => roundUp (b.length + 4) 8
    | _ => 0
  sumNat (a.groups.map (fun g =>
    sumNat ((List.zip p.types g.keys).map (fun q => if q.1 = tyVarchar then one q.2 else 0))
      + sumNat ((List.zip p.list g.states).map (fun q => match q.2 with
        | .extreme v _ => if (p.form q.1).ty = tyVarchar then one v else 0
        | _ => 0))))

/-- Doublings from one size to another. -/
def doublings (a b : Nat) : List Nat :=
  ((List.range 33).map (fun i => a * 2 ^ (i + 1))).filter (fun n => decide (n ≤ b))

def Route.agg? (r : Route) (stage ridge : Nat) : Option AggSt := r.work.aggs.find (srKey stage ridge)

/-- A rope through an AGG stage. The one group of a stage without keys takes an object of one slot, since R187 gives a start size
to tables alone (DESIGN CHOICE; log 65). -/
def State.aggTask (s : State) (r : Route) (stage ridge : Nat) (rp : Rope) : TRes (List Task) :=
  let d := r.desc
  let p := d.aggPlan stage
  let rows := rp.liveRows
  let old := (r.agg? stage ridge).getD
    { slots := firstSlots (fld ((d.stage stage).w 3) 31 0), groups := []
      keyForm := if rp.keyForm = 2 then 2 else 1, releasedSeq := 0 }
  match p.addRows old rows with
  | none => .bad [(stGroupFull, 0)] s
  | some a =>
    let s := s.oinc 0x3040 1 rows.length
    let s := s.work r.key (fun w => { w with aggs := w.aggs.put (srKey stage ridge) a })
    let base := if p.types.isEmpty then 1 else old.slots
    (s.sizeTable r.key stage ridge clsTable (base * p.slotBytes) false).andThen (fun _ s =>
      (TRes.each (fun n s => (s.oinc 0x3040 2 1).sizeTable r.key stage ridge clsTable (n * p.slotBytes) true)
        (doublings old.slots a.slots) s).andThen (fun _ s =>
        if p.varBytes a = 0 then .ok [] s
        else (s.sizeTable r.key (stage + 16) ridge clsTable (p.varBytes a) false).andThen (fun _ s => .ok [] s)))

/-! ## Release (R184, R188, R189) -/

/-- A group's output row; none for a fault. -/
def AggPlan.finishRow (p : AggPlan) (g : Group) : Option Row :=
  let nk := p.types.length
  let cells := (List.range p.out.length).map (fun k =>
    if k < nk then some (g.keys.getD k none)
    else match (List.zip p.list g.states).find? (fun q => q.1.output == k) with
      | some q => aggFinish q.1.func (p.form q.1) q.2
      | none => some none)
  if cells.all (fun c => c.isSome) then some { key := g.tie, vals := cells.map (fun c => c.getD none) } else none

/-- A group's row of states. -/
def AggPlan.partialRow (p : AggPlan) (g : Group) : Row :=
  let nk := p.types.length
  { key := g.tie
    vals := (List.range p.out.length).map (fun k =>
      if k < nk then g.keys.getD k none
      else ((List.zip p.list g.states).find? (fun q => q.1.output == k)).map (fun q =>
        .str (aggEncode (p.form q.1) q.2))) }

/-- The group that a row of states stands for. -/
def AggPlan.groupOf (p : AggPlan) (x : Row) : Group :=
  { slot := 0
    keys := x.vals.take p.types.length
    tie := x.key
    states := p.list.map (fun e => match x.vals.getD e.output none with
      | some (.str b) => aggDecode e.func (p.form e) b
      | _ => aggEmpty e.func) }

/-- Rows of groups, finished or as states; none for a fault. -/
def AggPlan.rows (p : AggPlan) (finished : Bool) (gs : List Group) : Option (List Row) :=
  if finished then gs.foldr (fun g acc => (p.finishRow g).bind (fun x => acc.map (fun l => x :: l))) (some [])
  else some (gs.map p.partialRow)

/-- A stage's state on a ridge is released: its Depot pages go at the belay. -/
def State.endRelease (s : State) (k : RouteKey) (stage ridge : Nat) : State :=
  let keys := [srKey stage ridge, srKey (stage + 16) ridge]
  let objs := keys.filterMap (fun q => (s.route? k).bind (fun r => r.work.tables.find q))
  let s := s.work k (fun w => { w with
    released := w.released ++ [srKey stage ridge], tables := (w.tables.del (srKey stage ridge)).del (srKey (stage + 16) ridge)
    aggs := w.aggs.del (srKey stage ridge), sorts := w.sorts.del (srKey stage ridge) })
  objs.foldl (fun s o => s.releaseObj k o) s

/-- Notes ropes written by a releasing stage in this span (R184). -/
def State.noteReleased (s : State) (k : RouteKey) (stage ridge n : Nat) : State :=
  s.mapSpan k (fun sp => { sp with
    releasedRopes := sp.releasedRopes.put (srKey stage ridge) ((sp.releasedRopes.find (srKey stage ridge)).getD 0 + n) })

/-- Ropes a releasing stage may still write on a ridge in the open span. -/
def Route.releaseLeft (r : Route) (stage ridge : Nat) : Nat :=
  match r.span with
  | none => 0
  | some sp => sp.q - (sp.releasedRopes.find (srKey stage ridge)).getD 0

/-- Releases up to the span's quota of ropes of an AGG, groups in ascending tie-break key (log 26). -/
def State.aggRelease (s : State) (r : Route) (stage ridge : Nat) : TRes (List Task) :=
  let d := r.desc
  let p := d.aggPlan stage
  match r.agg? stage ridge with
  | none => .ok [] (s.endRelease r.key stage ridge)
  | some a =>
    let gs := sortBy (fun (x y : Group) => tieLt x.tie y.tie) a.groups
    let n := r.releaseLeft stage ridge
    let now := gs.take (4096 * n)
    let rest := gs.drop (4096 * n)
    match p.rows (d.aggPartitioned stage) now with
    | none => .bad [(stArithFault, 0)] s
    | some rows =>
      let hdr := s.ropeHdr r.key stage ridge a.keyForm 0 0
      let ropes := (compactRopes hdr p.out.length rows).zipIdx.map (fun q => { q.1 with seq := a.releasedSeq + q.2 })
      let s := s.oinc 0x3040 3 now.length
      let a := { a with groups := rest, releasedSeq := a.releasedSeq + ropes.length }
      let s := s.work r.key (fun w => { w with aggs := w.aggs.put (srKey stage ridge) a })
      (s.emitRopes r.key d stage ridge ropes).andThen (fun ts s =>
        let s := s.noteReleased r.key stage ridge ropes.length
        .ok ts (if rest.isEmpty then s.endRelease r.key stage ridge else s))

/-! ## Combining partials (R208) -/

/-- Adds a partial group to the combined ones, in staging order. -/
def AggPlan.combine (p : AggPlan) (gs : List Group) (g : Group) : List Group :=
  if gs.any (fun x => sameKeys p.types x.keys g.keys) then
    gs.map (fun x =>
      if sameKeys p.types x.keys g.keys then
        { slot := x.slot
          keys := if tieLt g.tie x.tie then g.keys else x.keys
          tie := if tieLt g.tie x.tie then g.tie else x.tie
          states := (List.zip p.list (List.zip x.states g.states)).map (fun q =>
            aggMerge q.1.func (p.form q.1).ty q.2.1 q.2.2) }
      else x)
  else gs ++ [g]

/-- The row of R191. -/
def AggPlan.emptyGroup (p : AggPlan) : Group := p.newGroup [] (2 ^ 64 - 1, 0)

end Sys2Proof.Machine
end

