-- ==== Sys2Proof/Machine/Sort.lean ====
section
/-! DEFINITION. Sorting and merging (R196 to R200, R208). -/
namespace Sys2Proof.Machine

/-- A value in the form of Table 06.4, without its null byte. -/
def normValue (c : ColForm) (v : Val) : List Byte :=
  if tyIsFp c.ty then
    let x := fpNormal64 (v.asF64 c.ty)
    natBe 8 (if x < 2 ^ 63 then x + 2 ^ 63 else 2 ^ 64 - 1 - x)
  else if tyIsStr c.ty then (v.asStr).flatMap (fun b => if b = 0 then [0, 0xFF] else [b]) ++ [0, 0]
  else if c.ty = tyVarDict then natBe 4 v.asInt.toNat
  else
    let n := tyBytes c.ty c.width
    let x := ofSigned (8 * n) v.asInt
    natBe n (if x < 2 ^ (8 * n - 1) then x + 2 ^ (8 * n - 1) else x - 2 ^ (8 * n - 1))

/-- A key in the form of Table 06.4. -/
def normKey (c : ColForm) (desc nullsFirst : Bool) (v : Slot) : List Byte :=
  match v with
  | none => [if nullsFirst then 0 else 1]
  | some x =>
    (if nullsFirst then 1 else 0) :: (normValue c x).map (fun b => if desc then ~~~ b else b)

/-- How a stage orders rows (R198): its keys as (position, form, descending, nulls first), and its output forms. -/
structure SortPlan where
  keys : List (Nat × ColForm × Bool × Bool)
  forms : List ColForm
  deriving DecidableEq, Repr

/-- The plan of a SORT or MERGE stage. -/
def RouteDesc.sortPlan (d : RouteDesc) (stage : Nat) : SortPlan :=
  let st := d.stage stage
  let inp := d.cols st.inputA
  { keys := (keyList (st.w 2)).zipIdx.map (fun p =>
      (p.1, ((inp[p.1]?).map Column.form).getD { ty := tyI8, width := 0, nullable := false },
        bitAt (st.w 3) (8 + p.2), bitAt (st.w 3) p.2))
    forms := d.forms stage }

/-- The normalised keys of a row, whole. Cut to 64 bytes and, on a tie of truncated keys, followed by the values
themselves they give the same order, because the form keeps the order of R132 (DEDUCED from R197 and R198). -/
def SortPlan.normal (p : SortPlan) (x : Row) : List Byte :=
  p.keys.flatMap (fun k => normKey k.2.1 k.2.2.1 k.2.2.2 (x.vals.getD k.1 none))

/-- A row's values as criterion 3 compares them. -/
def SortPlan.valuesForm (p : SortPlan) (x : Row) : List Byte :=
  p.forms.zipIdx.flatMap (fun c => normKey c.1 false true (x.vals.getD c.2 none))

/-- A row with what it is compared by. -/
structure SortRow where
  norm : List Byte
  full : List Byte
  row : Row
  deriving DecidableEq, Repr

def SortPlan.prep (p : SortPlan) (x : Row) : SortRow := { norm := p.normal x, full := p.valuesForm x, row := x }

/-- The order of R198. -/
def SortRow.lt (a b : SortRow) : Bool :=
  if bytesLt a.norm b.norm then true
  else if bytesLt b.norm a.norm then false
  else if tieLt a.row.key b.row.key then true
  else if tieLt b.row.key a.row.key then false
  else bytesLt a.full b.full

/-- Splits a list into its even and odd places. -/
def splitAlt {α : Type} : List α → List α × List α
  | [] => ([], [])
  | [a] => ([a], [])
  | a :: b :: l => let r := splitAlt l; (a :: r.1, b :: r.2)

/-- Merges two sorted lists; on a tie the first list goes first (fuel: the sum of the lengths). -/
def mergeBy {α : Type} (lt : α → α → Bool) : Nat → List α → List α → List α
  | 0, a, b => a ++ b
  | _, [], b => b
  | _, a, [] => a
  | f + 1, x :: a, y :: b => if lt y x then y :: mergeBy lt f (x :: a) b else x :: mergeBy lt f a (y :: b)

/-- Merges sorted lists pairwise (fuel: the number of rounds). -/
def mergeAll {α : Type} (lt : α → α → Bool) : Nat → List (List α) → List α
  | 0, ls => ls.flatMap (fun l => l)
  | _, [] => []
  | _, [l] => l
  | f + 1, ls =>
    mergeAll lt f ((chunks 2 ls).map (fun p => match p with
      | a :: b :: _ => mergeBy lt (a.length + b.length) a b
      | a :: [] => a
      | [] => []))

/-- Sorts rows under a plan. Rows equal under every criterion are alike, so their order shows nothing (R198). -/
def SortPlan.sort (p : SortPlan) (rows : List Row) : List Row :=
  let l := rows.map p.prep
  (mergeAll SortRow.lt 64 (l.map (fun x => [x]))).map (fun x => x.row)

/-- Merges sorted streams of rows. -/
def SortPlan.merge (p : SortPlan) (streams : List (List Row)) : List Row :=
  (mergeAll SortRow.lt 64 (streams.map (fun l => l.map p.prep))).map (fun x => x.row)

/-- Whether a comparison of full values can have taken place: two rows whose normalised keys pass 64 bytes and agree
in the first 64 (R198). -/
def SortPlan.longTie (p : SortPlan) (rows : List Row) : Bool :=
  let cut := ((rows.map p.normal).filter (fun k => decide (64 < k.length))).map (fun k => k.take 64)
  cut.eraseDups.length != cut.length

/-- Counts comparisons of full values: how many the hardware makes is free (log 29). -/
def State.countCompares (s : State) (p : SortPlan) (rows : List Row) : State :=
  if p.longTie rows then
    let f := s.free 16
    f.2.oinc 0x3050 3 (1 + f.1.toNat)
  else s

/-- Applies a LIMIT; 0 keeps all. -/
def limitRows {α : Type} (limit : Nat) (l : List α) : List α := if limit = 0 then l else l.take limit

def emptySort (kf : Nat) : SortSt :=
  { runs := [], merging := none, releasedSeq := 0, releasedRows := 0, keyForm := kf }

def Route.sort? (r : Route) (stage ridge : Nat) : Option SortSt := r.work.sorts.find (srKey stage ridge)

def State.setSort (s : State) (k : RouteKey) (stage ridge : Nat) (x : SortSt) : State :=
  s.work k (fun w => { w with sorts := w.sorts.put (srKey stage ridge) x })

/-- Bytes of the ropes that hold a list of rows. -/
def rowsBytes (hdr : Rope) (forms : List ColForm) (rows : List Row) : Nat :=
  sumNat ((compactRopes hdr forms.length rows).map (fun r => r.size forms))

/-- Bytes of all runs of a ridge, with an intermediate pass in progress. -/
def SortSt.bytes (x : SortSt) (hdr : Rope) (forms : List ColForm) : Nat :=
  sumNat (x.runs.map (fun r => rowsBytes hdr forms r.rows))
    + (match x.merging with
       | some m => sumNat (m.1.map (rowsBytes hdr forms)) + rowsBytes hdr forms m.2
       | none => 0)

/-- A rope through a SORT stage: its rows join the newest run of the span, or begin a run (R199). -/
def State.sortTask (s : State) (r : Route) (stage ridge : Nat) (rp : Rope) : TRes (List Task) :=
  let d := r.desc
  let p := d.sortPlan stage
  let limit := fld ((d.stage stage).w 4) 47 0
  let rows := rp.liveRows
  let x := (r.sort? stage ridge).getD (emptySort (if rp.keyForm = 2 then 2 else 1))
  let pitch := s.spanPitch r.key
  let add (old : List Row) : List Row := limitRows limit (p.sort (old ++ rows))
  let grown : List SortRun × Bool :=
    match x.runs.getLast? with
    | some l =>
      if l.pitch = pitch ∧ l.taken + rows.length ≤ 65536 then
        (x.runs.dropLast ++ [{ l with taken := l.taken + rows.length, rows := add l.rows }], false)
      else (x.runs ++ [{ pitch := pitch, taken := rows.length, rows := add [] }], true)
    | none => ([{ pitch := pitch, taken := rows.length, rows := add [] }], true)
  let x := { x with runs := grown.1 }
  let s := if grown.2 then s.oinc 0x3050 1 1 else s
  let s := s.countCompares p (((x.runs.getLast?).map (fun l => l.rows)).getD [])
  let s := s.setSort r.key stage ridge x
  let hdr := s.ropeHdr r.key stage ridge x.keyForm 0 0
  (s.sizeTable r.key stage ridge clsRun (x.bytes hdr p.forms) false).andThen (fun _ s => .ok [] s)

/-- A rope through a MERGE stage joins the stream of its input (R200); `second` says that it comes from INPUT_B. -/
def State.mergeTask (s : State) (r : Route) (stage ridge : Nat) (rp : Rope) : TRes (List Task) :=
  let d := r.desc
  let p := d.sortPlan stage
  let x := (r.sort? stage ridge).getD { emptySort 1 with
    runs := [{ pitch := 0, taken := 0, rows := [] }, { pitch := 0, taken := 0, rows := [] }] }
  let second := rp.stage == (d.stage stage).inputB && rp.stage != (d.stage stage).inputA
  let i := if second then 1 else 0
  let runs := x.runs.zipIdx.map (fun q =>
    if q.2 = i then { q.1 with taken := q.1.taken + rp.liveRows.length, rows := p.merge [q.1.rows, rp.liveRows] } else q.1)
  let x := { x with runs := runs, keyForm := max x.keyForm rp.keyForm }
  let s := s.setSort r.key stage ridge x
  let hdr := s.ropeHdr r.key stage ridge x.keyForm 0 0
  (s.sizeTable r.key stage ridge clsRun (x.bytes hdr p.forms) false).andThen (fun _ s => .ok [] s)

/-! ## Release (R184, R199, R200) -/

/-- Takes `n` rows of the merge of some streams: the rows and what is left of each stream. -/
def SortPlan.takeMerged (p : SortPlan) (n : Nat) (streams : List (List Row)) : List Row × List (List Row) :=
  let tagged := streams.zipIdx.map (fun q => q.1.map (fun x => (p.prep x, q.2)))
  let all := (mergeAll (fun (a b : SortRow × Nat) => SortRow.lt a.1 b.1) 64 tagged).take n
  (all.map (fun x => x.1.row),
   streams.zipIdx.map (fun q => q.1.drop ((all.filter (fun x => x.2 == q.2)).length)))

/-- One rope of release work: of an intermediate pass, or a rope to release. Answers the state after it, the rows to
release, and whether a pass ended. -/
def SortSt.stepRelease (x : SortSt) (p : SortPlan) (limit : Nat) : SortSt × Option (List Row) × Bool :=
  let pass (src : List (List Row)) (out : List Row) (rest : List SortRun) : SortSt × Option (List Row) × Bool :=
    let t := p.takeMerged 4096 src
    if t.2.all (fun l => l.isEmpty) then
      ({ x with runs := rest ++ [{ pitch := 0, taken := (out ++ t.1).length, rows := out ++ t.1 }], merging := none }, none, true)
    else ({ x with runs := rest, merging := some (t.2, out ++ t.1) }, none, false)
  match x.merging with
  | some m => pass m.1 m.2 x.runs
  | none =>
    if 16 < x.runs.length then pass ((x.runs.take 16).map (fun r => r.rows)) [] (x.runs.drop 16)
    else
      let room := if limit = 0 then 4096 else min 4096 (limit - x.releasedRows)
      let t := p.takeMerged room (x.runs.map (fun r => r.rows))
      let done := limit != 0 && decide (limit ≤ x.releasedRows + t.1.length)
      ({ x with
        runs := if done then [] else List.zipWith (fun r l => { r with rows := l }) x.runs t.2
        releasedRows := x.releasedRows + t.1.length }, some t.1, false)

/-- Whether nothing of a ridge's runs is left to release. -/
def SortSt.spent (x : SortSt) : Bool := x.merging.isNone && x.runs.all (fun r => r.rows.isEmpty)

/-- Release work of a SORT or MERGE on a ridge, at most `n` ropes. -/
def State.sortSteps (s : State) (r : Route) (stage ridge : Nat) (p : SortPlan) (limit : Nat) :
    Nat → SortSt → TRes (List Task × SortSt × Nat)
  | 0, x => .ok ([], x, 0) s
  | n + 1, x =>
    if x.spent then .ok ([], x, 0) s
    else
      let t := x.stepRelease p limit
      let s := if t.2.2 then s.oinc 0x3050 2 1 else s
      let hdr := { s.ropeHdr r.key stage ridge x.keyForm 0 0 with seq := x.releasedSeq }
      match t.2.1 with
      | none => (s.sortSteps r stage ridge p limit n t.1).andThen (fun a s => .ok (a.1, a.2.1, a.2.2 + 1) s)
      | some rows =>
        let ropes := compactRopes hdr p.forms.length rows
        (s.emitRopes r.key r.desc stage ridge ropes).andThen (fun ts s =>
          (s.sortSteps r stage ridge p limit n { t.1 with releasedSeq := t.1.releasedSeq + ropes.length }).andThen
            (fun a s => .ok (ts ++ a.1, a.2.1, a.2.2 + 1) s))

/-- Releases up to the span's quota of ropes of a SORT or MERGE. -/
def State.sortRelease (s : State) (r : Route) (stage ridge : Nat) : TRes (List Task) :=
  let d := r.desc
  let p := d.sortPlan stage
  let limit := if (d.stage stage).kind = kSort then fld ((d.stage stage).w 4) 47 0 else 0
  match r.sort? stage ridge with
  | none => .ok [] (s.endRelease r.key stage ridge)
  | some x =>
    let s := s.countCompares p (x.runs.flatMap (fun q => q.rows))
    (s.sortSteps r stage ridge p limit (r.releaseLeft stage ridge) x).andThen (fun a s =>
      let s := s.setSort r.key stage ridge a.2.1
      let s := s.noteReleased r.key stage ridge a.2.2
      if a.2.1.spent then .ok a.1 (s.endRelease r.key stage ridge)
      else
        let hdr := s.ropeHdr r.key stage ridge x.keyForm 0 0
        (s.sizeTable r.key stage ridge clsRun (a.2.1.bytes hdr p.forms) false).andThen (fun _ s => .ok a.1 s))

end Sys2Proof.Machine
end

