-- ==== Sys2Proof/Machine/Tables.lean ====
section
/-! DEFINITION. The bytes of build tables, group tables and runs in Depot memory (R150, R151, R186, R187, R199). What the
spec leaves internal to the device (the layout of a record, of a group's slot and of a reference) is a DESIGN CHOICE
(log 68). -/
namespace Sys2Proof.Machine

/-! ## Build tables (R150, R151) -/

/-- A value in a build record: a VARCHAR stands behind its length, a null as zeros. -/
def recValue (c : ColForm) (v : Slot) : List Byte :=
  if c.ty = tyVarchar then
    (match v with
     | some (.str b) => natLe 4 b.length ++ b
     | _ => zeros 4)
  else
    match v with
    | some x => fitTo (tyBytes c.ty c.width) (valBytes c.ty c.width x)
    | none => zeros (tyBytes c.ty c.width)

/-- A build record: its lead key, its hash, its key values and its columns. -/
def BuildRec.bytes (x : BuildRec) (hash : Nat) (keys cols : List ColForm) : List Byte :=
  padTo 8 (natLe 8 x.lead ++ natLe 8 hash ++ (List.zip keys x.keys).flatMap (fun p => recValue p.1 p.2)
    ++ (List.zip cols x.cols).flatMap (fun p => recValue p.1 p.2))

/-- A bucket area as it fills: the records of each chain as (index, fingerprint), and the overflow buckets of each chain
as offsets in the area, all in order. -/
structure BucketArea where
  chains : SMap (List (Nat × Nat))
  overflow : SMap (List Nat)
  next : Nat
  deriving DecidableEq, Repr

/-- Puts a record into the first free slot along its chain, with an overflow bucket when all are full (R150). -/
def BucketArea.put (a : BucketArea) (home : Nat) (rec_ : Nat × Nat) : BucketArea :=
  let c := (a.chains.find home).getD []
  let grows := !c.isEmpty && c.length % 8 == 0
  { chains := a.chains.put home (c ++ [rec_])
    overflow := if grows then a.overflow.put home (((a.overflow.find home).getD []) ++ [a.next]) else a.overflow
    next := if grows then a.next + 64 else a.next }

/-- A bucket (Table 05.2). -/
def bucketWords (recs : List (Nat × Nat)) (next : Nat) : List Byte :=
  let recs := recs.take 8
  bytesOfWords [(recs.zipIdx.map (fun p => p.1.2 * 2 ^ (8 * p.2))).foldl (· + ·) 0]
    ++ fitTo 32 (recs.flatMap (fun p => natLe 4 p.1)) ++ bytesOfWords [next, 2 ^ recs.length - 1, 0]

/-- The bytes of one partition's bucket area, which begins at `base` in the build's bucket area; `hashes` are those of the
partition's records in ascending lead key order. -/
def bucketArea (radix base : Nat) (hashes : List Nat) : List Byte :=
  let b := min (pow2From 40 1 (ceilDiv hashes.length 4)) (2 ^ (32 - radix))
  let a := hashes.zipIdx.foldl (fun (a : BucketArea) p => a.put (p.1 % b) (p.2, fld p.1 47 40))
    { chains := [], overflow := [], next := 64 * b }
  let link (home j : Nat) : Nat := (((a.overflow.find home).getD [])[j]?.map (fun o => base + o)).getD 0
  let bucket (home j : Nat) : List Byte := bucketWords ((((a.chains.find home).getD []).drop (8 * j))) (link home j)
  let extra := sortBy (fun (x y : Nat × List Byte) => decide (x.1 < y.1))
    (a.overflow.flatMap (fun p => p.2.zipIdx.map (fun o => (o.1, bucket p.1 (o.2 + 1)))))
  (List.range b).flatMap (fun home => bucket home 0) ++ extra.flatMap (fun x => x.2)

/-- The bytes of a build: its records as they came, and at the seal the runs of its partitions followed by their bucket
areas. -/
def RouteDesc.buildImage (d : RouteDesc) (stage : Nat) (b : BuildSt) : List Byte :=
  let inp := d.cols (d.stage stage).inputA
  let kf := (keyCols ((d.stage stage).w 2) inp).map Column.form
  let ts := d.buildTypes stage
  let radix := d.radix stage
  let hash (x : BuildRec) : Nat := hashKeys (List.zip ts x.keys) 0
  let bytes (l : List BuildRec) : List Byte := l.flatMap (fun x => x.bytes (hash x) kf (d.forms stage))
  if !b.isSealed then bytes b.records
  else
    let runs := (List.range (2 ^ radix)).map (fun q => b.records.filter (fun x => x.part ts radix == q))
    let areas := runs.foldl (fun (acc : List Byte) l => acc ++ bucketArea radix acc.length (l.map hash)) []
    runs.flatMap bytes ++ (if b.cam.isSome then [] else areas)

/-! ## Group tables (R186, R187) -/

/-- The state of an aggregate at the size of Table 06.2; a VARCHAR extreme stands by the given reference. -/
def aggSlotBytes (f : Nat) (c : ColForm) (st : AggState) (ref : List Byte) : List Byte :=
  let wide (z : Int) : List Byte :=
    if c.ty = tyDec then natLe 32 (ofSigned 256 z)
    else natLe 16 (ofSigned 128 z) ++ natLe 8 (ofSigned 64 ((z - toSigned 128 (ofSigned 128 z)) / 2 ^ 128))
  let counted (n : Nat) : List Byte := if f = 0x09 ∨ f = 0x0A ∨ f = 0x0B then natLe 8 n else []
  fitTo (aggStateBytes f c) (match st with
    | .count n => natLe 8 n
    | .sum z n => wide z ++ counted n
    | .binned s0 c0 s1 c1 s2 c2 a fl n =>
      [s0, c0, s1, c1, s2, c2].flatMap (fun z => natLe 8 (ofSigned 64 z)) ++ natLe 8 (ofSigned 16 a * 2 ^ 48 + fl)
        ++ zeros 8 ++ counted n
    | .fsum x n => natLe 8 x ++ counted n
    | .extreme v k => (if c.ty = tyVarchar then ref else recValue c v) ++ natLe 8 k.1 ++ natLe 8 k.2
    | .distinct r => (List.range 16384).map (fun j => BitVec.ofNat 8 ((r.find j).getD 0)))

/-- The VARCHAR values of a group, keys first, with an empty entry for what is no VARCHAR value. -/
def AggPlan.strings (p : AggPlan) (g : Group) : List (Option (List Byte)) :=
  let str (v : Slot) : Option (List Byte) := match v with
    | some (.str b) => some b
    | _ => none
  (List.zip p.types g.keys).map (fun q => if q.1 = tyVarchar then str q.2 else none)
    ++ (List.zip p.list g.states).map (fun q => match q.2 with
      | .extreme v _ => if (p.form q.1).ty = tyVarchar then str v else none
      | _ => none)

/-- Room that a VARCHAR value takes (R187). -/
def varRoom (v : Option (List Byte)) : Nat := (v.map (fun b => roundUp (b.length + 4) 8)).getD 0

/-- A reference to a VARCHAR value: where it stands and its length. -/
def varRef (at_ : Nat) (v : Option (List Byte)) : List Byte :=
  match v with
  | some b => natLe 8 at_ ++ natLe 8 b.length
  | none => zeros 16

/-- A group's slot; its VARCHAR values stand at `base` and after. -/
def AggPlan.slotImage (p : AggPlan) (base : Nat) (g : Group) : List Byte :=
  let strs := p.strings g
  let refs := (strs.foldl (fun (acc : List (List Byte) × Nat) v => (acc.1 ++ [varRef acc.2 v], acc.2 + varRoom v)) ([], base)).1
  let kf := (keyCols p.keyWord p.inp).map Column.form
  let keys := (List.zip kf g.keys).zipIdx.flatMap (fun q =>
    if q.1.1.ty = tyVarchar then refs.getD q.2 (zeros 16) else recValue q.1.1 q.1.2)
  let states := (List.zip p.list g.states).zipIdx.flatMap (fun q =>
    aggSlotBytes q.1.1.func (p.form q.1.1) q.1.2 (refs.getD (kf.length + q.2) (zeros 16)))
  fitTo p.slotBytes (natLe 8 g.tie.1 ++ natLe 8 g.tie.2 ++ keys ++ states)

/-- The groups of a table with the place of their first VARCHAR value. -/
def AggPlan.placed (p : AggPlan) (a : AggSt) : List (Nat × Group) :=
  (a.groups.foldl (fun (acc : List (Nat × Group) × Nat) g =>
    (acc.1 ++ [(acc.2, g)], acc.2 + sumNat ((p.strings g).map varRoom))) ([], 0)).1

/-- Bytes of a group table from an offset on; an empty slot holds zeros. -/
def AggPlan.tableImage (p : AggPlan) (a : AggSt) (at_ n : Nat) : List Byte :=
  let groups := p.placed a
  (List.range n).map (fun i =>
    match groups.find? (fun g => g.2.slot == (at_ + i) / p.slotBytes) with
    | some g => (p.slotImage g.1 g.2).getD ((at_ + i) % p.slotBytes) 0
    | none => 0)

/-- The further pages of a group table: each VARCHAR value behind its length. -/
def AggPlan.varImage (p : AggPlan) (a : AggSt) : List Byte :=
  a.groups.flatMap (fun g => (p.strings g).flatMap (fun v => match v with
    | some b => padTo 8 (natLe 4 b.length ++ b)
    | none => []))

/-! ## Runs (R199) -/

/-- The bytes of the runs of a SORT or MERGE: their ropes one after another, then an intermediate pass in progress. -/
def SortSt.image (x : SortSt) (hdr : Rope) (obj : Nat) (forms : List ColForm) : List Byte :=
  let rows (l : List Row) : List Byte := (compactRopes hdr forms.length l).flatMap (fun r => r.bytes obj forms)
  x.runs.flatMap (fun r => rows r.rows) ++ (match x.merging with
    | some m => m.1.flatMap rows ++ rows m.2
    | none => [])

/-! ## The bytes of an object -/

/-- The route and the key (stage × 16 + ridge) of a stage's table or runs. -/
def State.tableOwner (s : State) (o : Nat) : Option (Route × Nat) :=
  s.routes.findSome? (fun r => (r.work.tables.find? (fun x => x.2 == o)).map (fun x => (r, x.1)))

/-- Bytes of a TABLE or RUN object from an offset on; what is no stage's table holds zeros. -/
def State.tableBytes (s : State) (o at_ n : Nat) : List Byte :=
  match s.tableOwner o with
  | none => zeros n
  | some (r, key) =>
    let d := r.desc
    let stage := key / 16 % 16
    let kind := (d.stage stage).kind
    let k := srKey stage (key % 16)
    if kind = kAgg then
      match r.work.aggs.find k with
      | some a => if 256 ≤ key then sliceB ((d.aggPlan stage).varImage a) at_ n else (d.aggPlan stage).tableImage a at_ n
      | none => zeros n
    else if kind = kBuild then
      match r.work.builds.find k with
      | some b => sliceB (d.buildImage stage b) at_ n
      | none => zeros n
    else
      match r.work.sorts.find k with
      | some x => sliceB (x.image (s.ropeHdr r.key stage (key % 16) x.keyForm 0 0) o (d.forms stage)) at_ n
      | none => zeros n

end Sys2Proof.Machine
end

