-- ==== Sys2Proof/Machine/Lines.lean ====
section
/-! DEFINITION. Physical lines: where each one is, its bytes, its home, its pitch-dirty bit and the journal step (R58 to
R62, R311, R317, R328, R421, R423). -/
namespace Sys2Proof.Machine

/-- Whether a line of this device has memory behind it. -/
def State.lineBacked (s : State) (l : Nat) : Bool :=
  if lineHbm l then decide (lineOff l < 48 * gib) || decide (2 ^ 42 ≤ lineOff l)
  else decide (lineOff l < s.populated)

/-- Whether a line lies in the Depot region or in HBM. -/
def State.lineDepot (s : State) (l : Nat) : Bool := lineHbm l || decide (s.regionBase ≤ lineOff l)

/-- The address of the admitted copy of a route for its participants (log 32). -/
def Route.copyLine (r : Route) (dev : Nat) : Nat := dev * 2 ^ 44 + 2 ^ 43 + 2 ^ 42 + r.admitOrder * mib

/-- The 64 bytes of a line in the memory of this device. -/
def State.lineRead (s : State) (l : Nat) : List Byte :=
  let off := lineOff l
  match s.linePage l with
  | some (_, p) =>
    match s.dobj? p.obj with
    | some d =>
      let at_ := p.index * p.size + (off - p.addr) / 64 * 64
      if d.cls = clsShadow then fitTo 64 (s.shadowBytes p.obj at_ 64)
      else if d.cls = clsTable ∨ d.cls = clsRun then s.tableBytes p.obj at_ 64
      else fitTo 64 (d.readN p.obj at_ 64)
    | none => zeros 64
  | none =>
    if lineHbm l then
      match s.routes.find? (fun r => r.key.home == s.sys.deviceId
          && decide (r.copyLine s.sys.deviceId ≤ l) && decide (l < r.copyLine s.sys.deviceId + mib)) with
      | some r => fitTo 64 (sliceB r.copy (l - r.copyLine s.sys.deviceId) 64)
      | none => zeros 64
    else if off < s.regionBase then s.mem.readN (off / 64 * 64) 64
    else zeros 64

/-- What a written copy forgets: its corrections noted (R433), raw content (R443) and test mark. -/
def State.copyFresh (s : State) (l m : Nat) : State :=
  { s with dram := { s.dram with
      raw := s.dram.raw.del (copyKey l m)
      noted := s.dram.noted.del (copyKey l m)
      testLines := s.dram.testLines.del l } }

/-- A write of a line goes to both its copies (R423). -/
def State.lineFresh (s : State) (l : Nat) : State := (s.copyFresh l 0).copyFresh l 1

/-- Writes a line in the memory of this device: a Depot page through its object; a line that is neither host-owned nor in a page has nothing that reads it. -/
def State.lineWrite (s : State) (l : Nat) (bs : List Byte) : State :=
  let off := lineOff l
  match s.linePage l with
  | some (_, p) =>
    match s.dobj? p.obj with
    | some d => (s.putObj p.obj (d.writeN p.obj (p.index * p.size + 64 * ((off - p.addr) / 64)) (fitTo 64 bs))).lineFresh l
    | none => s
  | none =>
    if lineHbm l || decide (s.regionBase ≤ off) then s
    else ({ s with mem := s.mem.writeN (off / 64 * 64) (fitTo 64 bs) }).lineFresh l

/-- The bytes of a line with those of a mask replaced. -/
def maskMerge (mask : Nat) (old new : List Byte) : List Byte :=
  (List.range 64).map (fun i => if bitAt mask i then new.getD i 0 else old.getD i 0)

/-! ## Poison (R332) -/

/-- Marks a line P: the marker stands in memory, so it outlives the directory entry, and no cache holds the line (R313). -/
def State.poison (s : State) (l : Nat) : State :=
  (({ s with dram := { s.dram with poisoned := s.dram.poisoned.put l () } }).oinc 0x6100 9 1).uncache l

def State.unpoison (s : State) (l : Nat) : State :=
  { s with dram := { s.dram with poisoned := s.dram.poisoned.del l } }

/-! ## Pitch-dirty bits and the journal -/

/-- Whether a write of a line needs a journal record now (R58, R59, R328). -/
def State.needsRecord (s : State) (l : Nat) : Bool :=
  match s.linePage l with
  | none => false
  | some (_, p) =>
    match s.pageSpan p with
    | none => false
    | some q => p.spanPitch != q && !s.pdBit p l

/-- Sets a line's pitch-dirty bit under the span mark of its page (R317), and its changed bit where the page migrates
(R234 step 3). -/
def State.setPd (s : State) (l : Nat) : State :=
  match s.linePage l with
  | none => s
  | some (id, p) =>
    match s.pageSpan p with
    | none => s
    | some q =>
      let i := (lineOff l - p.addr) / 64
      let lines := if p.pdMark = q then p.pdLines else []
      let s := { s with depot := { s.depot with
        pages := s.depot.pages.put id { p with pdMark := q, pdLines := if lines.contains i then lines else lines ++ [i] }
        migrations := s.depot.migrations.map (fun (m : Migration) => m.mark id i true) } }
      if (s.coh.dir.find (l / 64)).isSome then s.setDir l (s.dirEnt l) else s

/-- Records the journal holds (R62); its retired pages have dropped out (R445). -/
def State.journalRoom (s : State) : Nat :=
  s.onum 0x2002 1 * 8192 - 512 * (s.depot.retiredPages.filter (fun a =>
    decide (s.tier0Top ≤ a) && decide (a < s.tier0Top + s.onum 0x2002 1 * mib))).length

/-- The first of the two HBM lines that hold a journal record; the journal follows the tier 0 pool and the spare region (R61, R220). -/
def State.journalLine (s : State) (slot : Nat) : Nat := s.lineAt true (s.tier0Top + 128 * slot)

/-- The lowest free 128 bytes of the journal outside its retired pages (R445; log 72). -/
def State.journalSlot (s : State) : Nat :=
  let taken (n : Nat) : Bool := s.depot.journal.any (fun j => j.slot == n)
    || s.depot.retiredPages.contains ((s.tier0Top + 128 * n) / kib64 * kib64)
  ((List.range (s.depot.journal.length + 512 * s.depot.retiredPages.length + 1)).find? (fun n => !taken n)).getD 0

/-- A record of a line's bytes goes to the journal, whose lines are written in full (R58, R61). -/
def State.putRecord (s : State) (k : RouteKey) (page i : Nat) (old : List Byte) : State :=
  let n := s.journalSlot
  let l := s.journalLine n
  let r : JRec := { key := k, spanPitch := s.spanPitch k, page := page, lineIndex := i, seq := s.depot.jseq, slot := n, old := old }
  let s := { s with depot := { s.depot with journal := s.depot.journal ++ [r], jseq := s.depot.jseq + 1 } }
  (((s.lineFresh l).unpoison l).lineFresh (l + 64)).unpoison (l + 64)

/-- The journal step before a write of a line that holds the bytes `old`: none when the journal is full (R58, R62). -/
def State.journalOld (s : State) (l : Nat) (old : List Byte) : Option State :=
  if !s.needsRecord l then some s
  else if s.journalRoom ≤ s.depot.journal.length then none
  else
    match s.linePage l with
    | none => some s
    | some (id, p) =>
      match p.key with
      | none => some s
      | some k =>
        let i := (lineOff l - p.addr) / 64
        some ((s.putRecord k id i old).setPd l)

/-- The journal step before a write of a line. -/
def State.journalStep (s : State) (l : Nat) : Option State := s.journalOld l (s.lineRead l)

/-- The journal records a write to each line, in order; none where it is full (R62). -/
def State.journalLines (s : State) : List Nat → Option State
  | [] => some s
  | l :: ls =>
    match s.journalStep l with
    | none => none
    | some s => s.journalLines ls

/-- Lines of an object's range that lie in this device's memory. -/
def State.objLines (s : State) (d : DObj) (off n : Nat) : List Nat :=
  (linesOf off n).filterMap (fun x =>
    (d.pages.findSome? (fun id => (s.depot.pages.find id).bind (fun p =>
      if p.index * p.size ≤ x ∧ x < (p.index + 1) * p.size ∧ p.tier ≤ 1 then
        some (s.lineAt (p.tier == 0) (p.addr + (x - p.index * p.size))) else none))))

/-- The line that holds the 64 bytes of an object from an offset on: in this device's memory, or in a peer's (tier 2, R22). -/
def State.lineOfObj (s : State) (d : DObj) (x : Nat) : Option Nat :=
  d.pages.findSome? (fun id => (s.depot.pages.find id).bind (fun p =>
    if p.index * p.size ≤ x ∧ x < (p.index + 1) * p.size ∧ p.tier ≤ 2 then
      some (if p.tier = 2 then p.addr + (x - p.index * p.size)
        else s.lineAt (p.tier == 0) (p.addr + (x - p.index * p.size)))
    else none))

/-- Lines of an object's range, in this device's memory and in a peer's. -/
def State.depotLines (s : State) (d : DObj) (off n : Nat) : List Nat := (linesOf off n).filterMap (s.lineOfObj d)

/-- A request or store meets a full journal (R62). -/
def State.countStall (s : State) : State := s.oinc 0x2002 3 1

end Sys2Proof.Machine
end

