-- ==== Sys2Proof/Machine/MemRead.lean ====
section
/-! DEFINITION. What a read of memory does besides answering: corrections and their counts, records, lasting faults,
remapping, marks and poisoned lines (R424, R433, R434, R437 to R445). -/
namespace Sys2Proof.Machine

/-- The counter object of a channel, or where a stack's counters are kept (log 52), and the member of its first counter. -/
def dramObj (ch : Nat) : Nat := if ch < 16 then 0x5010 + 0x10 * ch else 0x15100 + 0x10 * (ch - 16)
def dramMem (ch : Nat) : Nat := if ch < 16 then 2 else 1

/-- Source of a memory record (Table 15.7). -/
def dramSource (ch : Nat) : Nat := if ch < 16 then 0x0001 else 0x0002

/-- The flags of a record (W6 [63:58]). -/
def fgRemapped : Nat := 2 ^ 31
def fgRemapFull : Nat := 2 ^ 30
def fgMarked : Nat := 2 ^ 29
def fgMirror : Nat := 2 ^ 28
def fgScrub : Nat := 2 ^ 27
def fgTest : Nat := 2 ^ 26

/-- The device whose symbols were corrected, 31 for several or unknown. -/
def devOf (l : Nat) (fixed : List Nat) : Nat :=
  if lineHbm l then 31
  else
    let w := if Config.dimmX8 then 16 else 8
    match (fixed.map (fun i => i / w)).eraseDups with
    | [d] => d
    | _ => 31

/-- W4 of a memory record (Table 15.5). -/
def State.dramW4 (s : State) (l m dev syms : Nat) : Nat :=
  let ch := s.copyChan l m
  let a := s.lineLocal l
  (if ch < 16 then ch else Config.hbmChannel (lineOff l) % 16) * 2 ^ 60 + lineSub l * 2 ^ 59
    + (if ch < 16 then rankOf a else 0) * 2 ^ 57 + dev * 2 ^ 52 + Config.dramBank ch a % 32 * 2 ^ 47
    + Config.dramRow ch a % 2 ^ 18 * 2 ^ 29 + min syms 16 * 2 ^ 24

/-- The syndrome symbols 0 to 7 of a copy's stored word. -/
def State.lineSyndrome (s : State) (l m : Nat) : Nat :=
  match s.dram.raw.find (copyKey l m) with
  | some (d, c) => leNat ((rsSyndromes c.length (d ++ c)).take 8)
  | none => 0

/-- A record about a copy of a line. -/
def State.lineRecord (s : State) (l m severity cause dev syms flags : Nat) : State :=
  let test := if (s.dram.testLines.find l).isSome then fgTest else 0
  s.raise { severity := severity, source := dramSource (s.copyChan l m), cause := cause, address := l
            w4 := s.dramW4 l m dev syms, syndrome := s.lineSyndrome l m, flags := flags + test }

/-! ## Tracking (R439) -/

/-- Whether an entry's window has passed. -/
def State.windowOver (s : State) (since : Nat) : Bool := decide (s.onum 0x5000 7 * 2000000000 ≤ s.now - since)

/-- Counts a correction at an address of a channel, with room for some entries; the count it reaches. -/
def State.track (s : State) (m : List Tracked) (cap ch addr dev : Nat) : List Tracked × Tracked :=
  let m := m.filter (fun e => !s.windowOver e.since)
  match m.find? (fun e => e.ch == ch && e.addr == addr) with
  | some e =>
    let e' : Tracked := { e with count := e.count + 1, devices := if e.devices.contains dev then e.devices else e.devices ++ [dev] }
    (m.map (fun x => if x.ch = ch ∧ x.addr = addr then e' else x), e')
  | none =>
    let e : Tracked := { ch := ch, addr := addr, since := s.now, count := 1, devices := [dev] }
    let mine := m.filter (fun x => x.ch == ch)
    let m := if mine.length < cap then m
      else
        match mine.foldl (fun (o : Option Tracked) x => match o with
            | none => some x
            | some y => if x.since < y.since then some x else some y) none with
        | some old => m.erase old
        | none => m
    (m ++ [e], e)

/-- The row of a copy of a line, one of its rank, bank and subchannel, or of its HBM channel (R422). -/
def State.rowKey (s : State) (l m : Nat) : Nat :=
  let ch := s.copyChan l m
  let a := s.lineLocal l
  Config.dramRow ch a % 2 ^ 18 * 2 ^ 10 + Config.dramBank ch a % 32 * 2 ^ 5
    + (if ch < 16 then rankOf a else Config.hbmChannel (lineOff l) % 16) * 2 + lineSub l

/-! ## Lasting faults (R440, R442, R445) -/

/-- Remap entries of a copy's channel, or of its HBM channel. -/
def State.remapsOf (s : State) (l m : Nat) : List Remap :=
  s.flash.remaps.filter (fun r => r.ch == s.copyChan l m
    && (!lineHbm l || r.hbmChannel == Config.hbmChannel (lineOff l) % 16))

/-- The next free remap target: targets are taken in order and never given back. -/
def State.nextTarget (s : State) (l m : Nat) : Option Nat :=
  let n := (s.remapsOf l m).foldl (fun a r => max a (r.target + 1)) 0
  if n < (if lineHbm l then 8 else 32) then some n else none

/-- A lasting line fault is remapped, or stays where no target is free. The move writes the line: what was kept of the old
place is forgotten. -/
def State.remapLine (s : State) (l m dev syms scrub : Nat) : State :=
  match s.nextTarget l m with
  | none => s.lineRecord l m 2 0x0006 dev syms (fgRemapFull + scrub)
  | some n =>
    let r : Remap := { ch := s.copyChan l m, sub := lineSub l
                       hbmChannel := if lineHbm l then Config.hbmChannel (lineOff l) % 16 else 0
                       target := n, line := s.lineLocal l }
    let s := s.lineRecord l m 2 0x0006 dev syms (fgRemapped + scrub)
    let keep := s.flash.remaps.filter (fun x => !(x.ch == r.ch && x.line == r.line && x.hbmChannel == r.hbmChannel))
    { s with
      flash := { s.flash with remaps := keep ++ [r] }
      dram := { s.dram with
        raw := s.dram.raw.del (copyKey l m)
        noted := s.dram.noted.del (copyKey l m)
        lines := s.dram.lines.filter (fun e => !(e.ch == r.ch && e.addr == l)) } }

/-- A lasting row fault of DDR5: the device is marked where one x4 device accounts for it. -/
def State.markRow (s : State) (l m syms scrub : Nat) (e : Tracked) : State :=
  let ch := s.copyChan l m
  let rank := rankOf (s.lineLocal l)
  let sub := lineSub l
  let held := s.flash.marks.any (fun x => x.ch == ch && x.rank == rank && x.sub == sub)
  match e.devices with
  | [d] =>
    if Config.dimmX8 || held || d == 31 then s.lineRecord l m 2 0x0008 d syms scrub
    else
      let s := s.lineRecord l m 2 0x0007 d syms (fgMarked + scrub)
      { s with flash := { s.flash with marks := s.flash.marks ++ [{ ch := ch, rank := rank, sub := sub, device := d }] } }
  | _ => s.lineRecord l m 2 0x0008 31 syms scrub

/-- A lasting row fault of HBM: the pages of the row are retired. -/
def State.retireRow (s : State) (l syms scrub : Nat) : State :=
  let ps := ((Config.hbmRowPages (lineOff l)).map (fun a => a / kib64 * kib64)).eraseDups.filter (fun a =>
    !s.depot.retiredPages.contains a)
  let s := s.lineRecord l 0 2 0x000B 31 syms scrub
  ({ s with depot := { s.depot with retiredPages := s.depot.retiredPages ++ ps } }).oinc (dramObj (s.lineChan l)) 5 ps.length

/-- Counts a correction at a line and its row, and repairs what has become lasting. -/
def State.countFault (s : State) (l m dev syms scrub : Nat) : State :=
  let ch := s.copyChan l m
  let (rows, re) := s.track s.dram.rows 16 ch (s.rowKey l m) dev
  let (lines, le) := s.track s.dram.lines 64 ch l dev
  let s := { s with dram := { s.dram with lines := lines, rows := rows } }
  let s := if re.count = s.onum 0x5000 9 then
      (if ch < 16 then s.markRow l m syms scrub re else s.retireRow l syms scrub)
    else s
  if s.onum 0x5000 8 ≤ le.count then s.remapLine l m dev syms scrub else s

/-! ## Failing channels (R424) -/

/-- W4 of a record about a channel as a whole. -/
def chanW4 (ch : Nat) : Nat := ch * 2 ^ 60

/-- A channel of a mirrored pair fails: it is fenced, and its partner serves alone. -/
def State.fenceChannel (s : State) (ch : Nat) : State :=
  ({ s with dram := { s.dram with chState := s.dram.chState.put ch .failed } }).raise
    { severity := 2, source := 0x0001, cause := 0x0005, w4 := chanW4 ch }

/-- Whether a channel has a partner that can serve in its place. -/
def State.hasPartner (s : State) (ch : Nat) : Bool := s.dram.mirrored && s.chanState (mirrorOf ch) == .active

/-- A copy of a line is uncorrectable: the fourth line of a DDR5 channel within the window fails the channel, at once where a
partner serves, else when the device comes to it (log 71). -/
def State.noteLost (s : State) (l m : Nat) : State :=
  let ch := s.copyChan l m
  let lost := s.dram.uncorrectable.filter (fun (u : Nat × Nat × Nat) => !(u.1 == ch && u.2.1 == l) && !s.windowOver u.2.2)
    ++ [(ch, l, s.now)]
  let s := { s with dram := { s.dram with uncorrectable := lost } }
  if ch < 16 ∧ s.chanState ch = .active ∧ 4 ≤ (lost.filter (fun u => u.1 == ch)).length then
    if s.hasPartner ch then s.fenceChannel ch
    else { s with dram := { s.dram with failDue := if s.dram.failDue.contains ch then s.dram.failDue else s.dram.failDue ++ [ch] } }
  else s

/-! ## Reading a line -/

/-- An uncorrectable line: it is poisoned and counted (R434). -/
def State.lineLost (s : State) (l m scrub : Nat) : State :=
  let ch := s.copyChan l m
  let s := (s.lineRecord l m 1 0x0003 31 0 scrub).oinc (dramObj ch) (dramMem ch + 1) 1
  let s := { s with dram := { s.dram with raw := (s.dram.raw.del (copyKey l 0)).del (copyKey l 1) } }
  s.poison l

/-- A corrected read of a copy (R433, R437). -/
def State.lineCorrected (s : State) (l m : Nat) (fixed : List Nat) (scrub : Bool) : State :=
  let ch := s.copyChan l m
  let sf := if scrub then fgScrub else 0
  let s := s.oinc (dramObj ch) (dramMem ch) 1
  let marked := s.erasedSyms l m
  let s := if fixed.all (fun i => marked.contains i) || (s.dram.noted.find (copyKey l m)).isSome then s
    else
      let dev := devOf l fixed
      let s := s.lineRecord l m 0 (if scrub then 0x0002 else 0x0001) dev fixed.length sf
      let s := { s with dram := { s.dram with noted := s.dram.noted.put (copyKey l m) () } }
      s.countFault l m dev fixed.length sf
  if scrub then s.copyFresh l m else s

/-- A read of a copy that gives its data: corrected where symbols are wrong. -/
def State.copyServed (s : State) (l m : Nat) (scrub : Bool) : State :=
  match s.copyFate l m with
  | some (.good _ fixed) => if fixed.isEmpty then s else s.lineCorrected l m fixed scrub
  | _ => s

/-- An uncorrectable copy whose line the other copy serves is rewritten with the good data (R424). -/
def State.mirrorRepair (s : State) (l m scrub : Nat) : State :=
  let s := s.lineRecord l m 0 0x0004 31 0 (fgMirror + scrub)
  (s.copyFresh l m).copyServed l (1 - m) false

/-- A read of a copy of a line of this device at its memory. -/
def State.copyRead (s : State) (l m : Nat) (scrub : Bool) : State :=
  if (s.dram.poisoned.find l).isSome then s
  else
    match s.copyFate l m with
    | some .poisoned => s.poison l
    | some .bad =>
      let sf := if scrub then fgScrub else 0
      let good := s.otherGood l m
      let s := s.noteLost l m
      if good then s.mirrorRepair l m sf else s.lineLost l m sf
    | _ => s.copyServed l m scrub

/-- A read of a line of this device at its memory. -/
def State.memRead (s : State) (l : Nat) (scrub : Bool) : State := s.copyRead l (s.serves l) scrub

end Sys2Proof.Machine
end

