-- ==== Sys2Proof/Machine/Cache.lean ====
section
/-! DEFINITION. The caches: ways, victims, partitions, streaming windows, the SLC, the cutoff clean and disabling (R295 to
R307). Memory holds the value of every line of this device; a way keeps the bytes of a peer's line only (log 31). -/
namespace Sys2Proof.Machine

def invalidWay : Way :=
  { line := 0, state := .I, dirty := false, rrv := 0, streaming := false, pd := false, fenced := false, data := [] }

/-- The ways of a set. -/
def waysAt (m : SMap (List Way)) (key n : Nat) : List Way := (m.find key).getD (List.replicate n invalidWay)

def Way.holds (w : Way) (l : Nat) : Bool := w.line == l && w.state != .I

def wayOf (ws : List Way) (l : Nat) : Option Nat := ws.findIdx? (fun w => w.holds l)

def setWay (ws : List Way) (i : Nat) (w : Way) : List Way := ws.set i w

/-- What is left of a cache that loses its lines: the fences of its ways, which stand until a device reset (R308). -/
def onlyFences (m : SMap (List Way)) : SMap (List Way) :=
  (m.filter (fun p => p.2.any (fun w => w.fenced))).map (fun p => (p.1, p.2.map (fun w => if w.fenced then w else invalidWay)))

/-- The keys of the sets a line falls into. -/
def l2Key (ridge l : Nat) : Nat := ridge * 4096 + Config.cacheSet 2 l % 4096
def l1dKey (ridge strand l : Nat) : Nat := (ridge * 9 + strand) * 256 + Config.cacheSet 0 l % 256
def l1iKey (ridge strand l : Nat) : Nat := (ridge * 9 + strand) * 128 + Config.cacheSet 1 l % 128

/-- The slice of a line: lines of H0 in slices 0 to 15, of H1 in 16 to 31, DDR5 in all (R295). -/
def slcSlice (l : Nat) : Nat :=
  if lineHbm l then (if lineOff l < 24 * gib then Config.slcHash l % 16 else 16 + Config.slcHash l % 16)
  else Config.slcHash l % 32
def slcKey (l : Nat) : Nat := slcSlice l * 3072 + Config.cacheSet 3 l % 3072

/-- The state of a cache that can be disabled (Table 10.5): key physical ridge, or 32 + quadrant. -/
def State.cacheState (s : State) (k : Nat) : CacheState := (s.cache.states.find k).getD .enabled
def cacheKey : CacheSel → Nat
  | .l2 r => r
  | .slc q => 32 + q

def State.l2Allocates (s : State) (ridge : Nat) : Bool := s.cacheState ridge == .enabled
def State.sliceState (s : State) (slice : Nat) : CacheState := s.cacheState (32 + slice / 8)

/-! ## Victims (R296) -/

/-- The victim among some ways: the lowest invalid one, else the lowest of value 3 after ageing (fuel: 4 rounds). -/
def victimRrv (ws : List Way) (allowed : List Nat) : Nat → Option (Nat × List Way)
  | 0 => none
  | f + 1 =>
    match allowed.find? (fun i => ((ws[i]?).map (fun w => w.state == .I)).getD false) with
    | some i => some (i, ws)
    | none =>
      match allowed.find? (fun i => ((ws[i]?).map (fun w => decide (3 ≤ w.rrv))).getD false) with
      | some i => some (i, ws)
      | none => victimRrv (ws.zipIdx.map (fun p => if allowed.contains p.2 then { p.1 with rrv := p.1.rrv + 1 } else p.1))
          allowed f

/-- Ways of a list that are not fenced (R308). -/
def openWays (ws : List Way) (l : List Nat) : List Nat :=
  l.filter (fun i => ((ws[i]?).map (fun w => !w.fenced)).getD false)

/-- The way that the pseudo-LRU tree names: bit 0 the root, bits 1 and 2 its children, 0 the lower half (log 31). -/
def plruVictim (t : Nat) : Nat := if bitAt t 0 then (if bitAt t 2 then 3 else 2) else (if bitAt t 1 then 1 else 0)

/-- The tree after a use of a way points away from it. -/
def plruUse (t way : Nat) : Nat :=
  let b (i : Nat) (v : Bool) (t : Nat) : Nat := if v then t ||| 2 ^ i else t &&& (7 - 2 ^ i)
  if way < 2 then b 1 (way == 0) (b 0 true t) else b 2 (way == 2) (b 0 false t)

/-! ## Partitions (R297, R298) -/

/-- Partition entries in force on a ridge. -/
def State.partEntries (s : State) (ridge : Nat) : List Nat :=
  ((List.range 8).map (fun e => (s.cache.parts.find (ridge * 8 + e)).getD 0)).filter (fun w => bitAt w 63)

/-- The entry that serves a route's requests. -/
def State.partEntry (s : State) (ridge : Nat) (k : Option RouteKey) : Option Nat :=
  k.bind (fun k =>
    let es := s.partEntries ridge
    match es.find? (fun w => bitAt w 62 && fld w 61 57 == k.tenant && fld w 31 0 == k.id) with
    | some w => some w
    | none => es.find? (fun w => !bitAt w 62 && fld w 61 57 == k.tenant))

/-- The ways that a request may allocate in. -/
def State.allowedWays (s : State) (ridge : Nat) (k : Option RouteKey) : List Nat :=
  let pairWays (f : Nat → Bool) : List Nat := (List.range 16).filter (fun w => f (w / 2))
  match s.partEntry ridge k with
  | some w => pairWays (fun p => bitAt (fld w 47 40) p)
  | none => pairWays (fun p => !((s.partEntries ridge).any (fun w => bitAt (fld w 47 40) p)))

def State.partStreams (s : State) (ridge : Nat) (k : Option RouteKey) : Bool :=
  ((s.partEntry ridge k).map (fun w => bitAt w 56)).getD false

/-! ## Streaming windows (R299) -/

inductive AccKind where
  | read | partialStore | fullStore
  deriving DecidableEq, Repr

/-- What an access does to the window of its region. -/
def Window.use (w : Window) (a : AccKind) (on : Nat) : Window :=
  match a with
  | .read => { w with stream := false, count := 0 }
  | .partialStore => if w.stream then w else { w with count := 0 }
  | .fullStore =>
    if w.stream then w
    else if on ≤ w.count + 1 then { w with count := w.count + 1, stream := true, other := 0 }
    else { w with count := w.count + 1 }

/-- What an access elsewhere does to a window. -/
def Window.elsewhere (w : Window) (off : Nat) : Window :=
  if !w.stream then w
  else if off ≤ w.other + 1 then { w with other := w.other + 1, stream := false, count := 0 }
  else { w with other := w.other + 1 }

/-- The windows after an access of a region; an untracked region claims the least recently touched window. -/
def useWindows (ws : List Window) (cap touch region : Nat) (a : AccKind) (on off : Nat) : List Window :=
  let ws := if ws.any (fun w => w.region == region) then ws
    else
      let fresh : Window := { region := region, count := 0, stream := false, other := 0, touched := touch }
      if ws.length < cap then ws ++ [fresh]
      else
        let oldest := ws.foldl (fun m w => min m w.touched) touch
        match ws.findIdx? (fun w => w.touched == oldest) with
        | some i => ws.set i fresh
        | none => ws
  ws.map (fun w => if w.region = region then { (w.use a on) with touched := touch } else w.elsewhere off)

/-- Notes an access in a cache's windows and says whether its window streamed before: the store that makes it stream still
allocates (R299, Table 10.7's example). -/
def State.window (s : State) (key cap l : Nat) (a : AccKind) : Bool × State :=
  let old := (s.cache.windows.find key).getD []
  let ws := useWindows old cap s.cache.touch (l / 4096) a (s.onum 0x3081 1) (s.onum 0x3081 2)
  (old.any (fun w => w.region == l / 4096 && w.stream),
   { s with cache := { s.cache with windows := s.cache.windows.put key ws, touch := s.cache.touch + 1 } })

/-! ## The SLC (R300, R301) -/

/-- Clean lines of a slice. -/
def State.sliceClean (s : State) (slice : Nat) : Nat :=
  sumNat (s.cache.slc.map (fun p => if p.1 / 3072 = slice then
    (p.2.filter (fun w => w.state != .I && !w.dirty)).length else 0))

/-- Puts a line into its slice; a dirty victim goes to memory, which holds its value. -/
def State.slcPut (s : State) (l : Nat) (dirty streaming : Bool) : State :=
  let key := slcKey l
  let ws := waysAt s.cache.slc key 16
  let w : Way := { invalidWay with line := l, state := .S, dirty := dirty, rrv := if streaming then 3 else 2
                                   streaming := streaming }
  match wayOf ws l with
  | some i =>
    let old := ws.getD i invalidWay
    let new := { old with dirty := old.dirty || dirty, rrv := 0, streaming := old.streaming && streaming }
    { s with cache := { s.cache with slc := s.cache.slc.put key (setWay ws i new) } }
  | none =>
    match victimRrv ws (openWays ws (List.range 16)) 5 with
    | some (i, ws) => { s with cache := { s.cache with slc := s.cache.slc.put key (setWay ws i w) } }
    | none => s

/-- An access of memory itself, past a slice that does not take the line, counts for the line's page (R233). -/
def State.countLine (s : State) (l : Nat) : State :=
  match s.linePage l with
  | some (id, _) => s.countAccess id 1
  | none => s

/-- A read or write of a line at its home through the SLC: a hit sets its value to 0 and an ordinary access clears the
streaming tag; a miss counts for the page (R233) and fills unless the slice's quadrant is not enabled. -/
def State.slcAccess (s : State) (l : Nat) (streaming : Bool) : State :=
  let hit := (wayOf (waysAt s.cache.slc (slcKey l) 16) l).isSome
  let s := if hit then s else s.countLine l
  if s.sliceState (slcSlice l) != .enabled && !hit then s else s.slcPut l false streaming

/-- Whether a line stands in its slice with the streaming tag (R300). -/
def State.slcTagged (s : State) (l : Nat) : Bool :=
  let ws := waysAt s.cache.slc (slcKey l) 16
  ((wayOf ws l).bind (fun i => ws[i]?)).any (fun w => w.streaming)

/-- An L2 victim of this device's memory is offered to its slice (R301). -/
def State.slcOffer (s : State) (l : Nat) (dirty streaming : Bool) : State :=
  let slice := slcSlice l
  if s.sliceState slice != .enabled then (if dirty then s.countLine l else s)
  else if dirty then s.slcPut l true false
  else if streaming || s.slcTagged l || decide (s.onum 0x3080 3 * 49152 < 100 * s.sliceClean slice) then s.oinc 0x3080 4 1
  else s.slcPut l false false

/-- A line of the SLC becomes clean, as a write of the home leaves it. -/
def State.slcClean (s : State) (l : Nat) : State :=
  { s with cache := { s.cache with slc := s.cache.slc.map (fun p =>
      (p.1, p.2.map (fun w => if w.holds l then { w with dirty := false } else w))) } }

/-- A line leaves the SLC. -/
def State.slcDrop (s : State) (l : Nat) : State :=
  { s with cache := { s.cache with slc := s.cache.slc.map (fun p =>
      (p.1, p.2.map (fun w => if w.holds l then { w with state := .I, dirty := false } else w))) } }

/-! ## Lines in the L2s -/

def State.l2Way (s : State) (ridge l : Nat) : Option Way :=
  let ws := waysAt s.cache.l2 (l2Key ridge l) 16
  (wayOf ws l).bind (fun i => ws[i]?)

/-- Rewrites the way of an L2 that holds a line. -/
def State.mapL2 (s : State) (ridge l : Nat) (f : Way → Way) : State :=
  let key := l2Key ridge l
  let ws := waysAt s.cache.l2 key 16
  match wayOf ws l with
  | some i => { s with cache := { s.cache with l2 := s.cache.l2.put key (setWay ws i (f (ws.getD i invalidWay))) } }
  | none => s

/-- Whether a key of an L1 store belongs to a ridge. -/
def l1Of (ridge sets key : Nat) : Bool := key / sets / 9 == ridge

/-- Inclusion: a line that leaves an L2 leaves the L1s of its ridge first (R295). -/
def State.dropL1 (s : State) (ridge l : Nat) : State :=
  let cut (sets : Nat) (m : SMap (List Way)) : SMap (List Way) :=
    m.map (fun p => (p.1, if l1Of ridge sets p.1 then
      p.2.map (fun w => if w.holds l then { w with state := .I, dirty := false } else w) else p.2))
  { s with cache := { s.cache with l1d := cut 256 s.cache.l1d, l1i := cut 128 s.cache.l1i } }

/-- The L1Ds of a ridge clean a line. -/
def State.cleanL1 (s : State) (ridge l : Nat) : State :=
  { s with cache := { s.cache with l1d := s.cache.l1d.map (fun p => (p.1, if l1Of ridge 256 p.1 then
      p.2.map (fun w => if w.holds l then { w with dirty := false } else w) else p.2)) } }

/-- Removes a line from an L2 and the L1s under it. -/
def State.dropL2 (s : State) (ridge l : Nat) : State :=
  (s.dropL1 ridge l).mapL2 ridge l (fun w => { w with state := .I, dirty := false, data := [] })

/-- Local L2s that hold a peer's line, and in what state (R316). -/
def State.remoteEnt (s : State) (l : Nat) : List Nat × LineState := (s.coh.remote.find (l / 64)).getD ([], .I)

def State.setRemote (s : State) (l : Nat) (e : List Nat × LineState) : State :=
  { s with coh := { s.coh with remote := if e.1.isEmpty then s.coh.remote.del (l / 64) else s.coh.remote.put (l / 64) e } }

/-- A write-back or a notice of this device's proxy to a line's home, kept until its WB_ACK (R331). -/
def State.proxyNote (s : State) (op l : Nat) (data : List Byte) (keeps : LineState) (poison : Bool) : State :=
  let (t, s) := s.newTxn
  let a := s.agent locProxy
  let s := { s with coh := { s.coh with wbBuf := s.coh.wbBuf ++
    [({ agent := a, line := l, txn := t, data := data, keeps := keeps, poison := poison } : WbEnt)] } }
  s.sendCoh { op := op, src := a, dst := s.homeAgent l, txn := t, line := l, data := data, poison := poison
              order := s.lineOrder l, state := if keeps = .S then 1 else 0 }

def State.proxyWb (s : State) (op l : Nat) (data : List Byte) (keeps : LineState) : State := s.proxyNote op l data keeps false

/-- Removes a holder from a directory entry of this device (R326, rows WB_DIRTY and EVICT_CLEAN). -/
def DirEnt.release (e : DirEnt) (dev a : Nat) : DirEnt :=
  let e' := e.remove a
  if e.state = .G then (if e.owner = a then DirEnt.empty else e)
  else if (e'.holders dev).isEmpty then { e' with state := .I }
  else if e.owner = a ∧ (e.state = .M ∨ e.state = .O ∨ e.state = .E) then { e' with state := .S, owner := 0 }
  else e'

/-- An L2 gives up a line and tells its home (R301, R314). -/
def State.evictL2 (s : State) (ridge : Nat) (w : Way) (k : Option RouteKey) : State :=
  let l := w.line
  let s := s.dropL2 ridge l
  if lineDev l = s.sys.deviceId then
    let s := s.setDir l ((s.dirEnt l).release s.sys.deviceId (s.agent ridge))
    s.slcOffer l w.dirty (w.streaming || s.partStreams ridge k)
  else
    let e := s.remoteEnt l
    let left := e.1.filter (fun r => r != ridge)
    let s := s.setRemote l (left, e.2)
    if w.dirty then s.proxyWb opWbDirty l w.data .I
    else if left.isEmpty then s.proxyWb opEvictClean l [] .I
    else s

/-- A line fills an L2 for a route's request, unless the L2 does not allocate. -/
def State.fillL2 (s : State) (ridge l : Nat) (k : Option RouteKey) (st : LineState) (dirty streaming pd : Bool)
    (data : List Byte) : State :=
  if !s.l2Allocates ridge then s
  else
    let key := l2Key ridge l
    let ws := waysAt s.cache.l2 key 16
    match wayOf ws l with
    | some _ => s.mapL2 ridge l (fun w => { w with
        state := st, dirty := w.dirty || dirty, rrv := 0, streaming := w.streaming && streaming, pd := w.pd || pd, data := data })
    | none =>
      match victimRrv ws (openWays ws (s.allowedWays ridge k)) 5 with
      | none => s
      | some (i, aged) =>
        let s := { s with cache := { s.cache with l2 := s.cache.l2.put key aged } }
        let v := aged.getD i invalidWay
        let s := if v.state = .I then s else s.evictL2 ridge v k
        let ws := waysAt s.cache.l2 key 16
        let new := { invalidWay with
          line := l, state := st, dirty := dirty, rrv := if streaming then 3 else 2, streaming := streaming, pd := pd
          data := data }
        { s with cache := { s.cache with l2 := s.cache.l2.put key (setWay ws i new) } }

/-- The strand's L1D or L1I takes a line. Where the set has no invalid way that is open, the victim is the way that the
pseudo-LRU tree names; where that way is fenced, the line is not allocated (DESIGN CHOICE, log 31). -/
def State.fillL1 (s : State) (ridge strand l : Nat) (code dirty : Bool) : State :=
  let key := if code then l1iKey ridge strand l else l1dKey ridge strand l
  let m := if code then s.cache.l1i else s.cache.l1d
  let ws := waysAt m key 4
  let pk := if code then 2 ^ 20 + key else key
  let t := (s.cache.plru.find pk).getD 0
  let i := match wayOf ws l with
    | some i => i
    | none => ((openWays ws (List.range 4)).find? (fun i => ((ws[i]?).map (fun w => w.state == .I)).getD false)).getD
        (plruVictim t)
  let old := ws.getD i invalidWay
  if old.fenced then s
  else
    let w : Way := if old.holds l then { old with dirty := old.dirty || dirty }
      else { invalidWay with line := l, state := .S, dirty := dirty }
    let ws := setWay ws i w
    { s with cache := { s.cache with
      l1d := if code then s.cache.l1d else s.cache.l1d.put key ws
      l1i := if code then s.cache.l1i.put key ws else s.cache.l1i
      plru := s.cache.plru.put pk (plruUse t i) } }

/-! ## The cutoff clean (R302) and the belay -/

/-- A way after a clean: its line stays valid and clean. -/
def Way.clean (w : Way) : Way :=
  { w with dirty := false, state := match w.state with
    | .M => .S
    | .O => .S
    | x => x }

/-- Directory entries of lines whose dirty copies this device's L2s have cleaned. -/
def DirEnt.cleaned (e : DirEnt) (dev : Nat) : DirEnt :=
  match e.state with
  | .M => if agentDev e.owner = dev then { e with state := .S, owner := 0 } else e
  | .O => if agentDev e.owner = dev then { e with state := .S, owner := 0 } else e
  | _ => e

/-- The cutoff clean: every dirty line of every cache becomes clean; a peer's line goes back to its home. -/
def State.cutoffClean (s : State) : State :=
  let remote := s.cache.l2.flatMap (fun p => p.2.filter (fun w =>
    w.state != .I && w.dirty && lineDev w.line != s.sys.deviceId))
  let clean (m : SMap (List Way)) : SMap (List Way) := m.map (fun p => (p.1, p.2.map Way.clean))
  let s := { s with
    cache := { s.cache with l2 := clean s.cache.l2, l1d := clean s.cache.l1d, slc := clean s.cache.slc }
    coh := { s.coh with dir := s.coh.dir.map (fun (p : Nat × DirEnt) => (p.1, p.2.cleaned s.sys.deviceId)) } }
  let s := remote.foldl (fun s w => (s.setRemote w.line ((s.remoteEnt w.line).1, .S)).proxyWb opWbDirty w.line w.data .S) s
  { s with coh := { s.coh with wbBuf := s.coh.wbBuf.map (fun (w : WbEnt) => { w with atCut := true }) } }

/-- At each belay the pitch-dirty tag bits clear in every L2 (R330) and written partition entries come into force
(R298). -/
def State.cacheBelay (s : State) : State :=
  let parts : SMap Nat := (List.range 17).foldl (fun m r => (List.range 8).foldl (fun m e =>
    let v := s.onum (0xA008 + 0x20 * r) (3 + e)
    if v = 0 then m else m.put (r * 8 + e) v) m) []
  { s with cache := { s.cache with
    l2 := s.cache.l2.map (fun p => (p.1, p.2.map (fun w => { w with pd := false })))
    parts := parts } }

/-! ## A strand's or unit's use of a line -/

/-- The pitch-dirty tag bit of a line in an L2 (R330). -/
def State.tagPd (s : State) (ridge l : Nat) : Bool := ((s.l2Way ridge l).map (fun w => w.pd)).getD false

/-- The PD flag that an agent of this device gets with a line: that of the local owner of a Gang line, else the home's (R328,
R329). -/
def State.pdFlag (s : State) (a l : Nat) : Bool :=
  let e := s.dirEnt l
  if e.state = .G ∧ e.owner ≠ a then s.tagPd (agentLoc e.owner) l else !s.needsRecord l

/-- A line whose dirty owner here has lost it to a fenced way is marked P when it is wanted (Table 10.6, R308, R332). -/
def State.settleLost (s : State) (l : Nat) : State :=
  let e := s.dirEnt l
  let r := agentLoc e.owner
  if (e.state = .M ∨ e.state = .O) ∧ agentDev e.owner = s.sys.deviceId ∧ (s.l2Way r l).isNone = true
      ∧ (waysAt s.cache.l2 (l2Key r l) 16).any (fun w => w.fenced) = true then s.poison l
  else s

/-- An agent's read of a line of this device takes effect at the directory at once; `none` where a peer owns the line
and must be snooped first, or where its home cannot take the request (R315, R322, R324). -/
def State.dirRead (s : State) (a l : Nat) : Option (LineState × State) :=
  let e := s.dirEnt l
  if !s.homeFree a l then none
  else if s.lineGang l then
    if e.state = .G ∧ e.owner ≠ a then
      if agentDev e.owner ≠ s.sys.deviceId then none
      else some (.S, (s.dropL2 (agentLoc e.owner) l).dirTouch l { e with owner := a })
    else some (.S, s.dirTouch l { e with state := .G, owner := a })
  else
    match e.state with
    | .I => some (if s.lineDepot l then .S else .E,
        s.dirTouch l ({ e with state := if s.lineDepot l then .S else .E, owner := a }.add a))
    | .S => some (.S, s.dirTouch l (e.add a))
    | .E =>
      if agentDev e.owner ≠ s.sys.deviceId then none
      else some (.S, (s.mapL2 (agentLoc e.owner) l (fun w => { w with state := .S })).dirTouch l
        ({ e with state := .S, owner := 0 }.add a))
    | _ =>
      if agentDev e.owner ≠ s.sys.deviceId then none
      else if decide (8 ≤ s.sys.deviceCount) then
        some (.S, (s.mapL2 (agentLoc e.owner) l (fun w => { w with state := .O })).dirTouch l ({ e with state := .O }.add a))
      else some (.S, (s.mapL2 (agentLoc e.owner) l Way.clean).dirTouch l ({ e with state := .S, owner := 0 }.add a))

/-- An agent's ownership of a line of this device, taken at once; `none` where a peer holds a copy or where the home cannot
take the request. -/
def State.dirOwn (s : State) (a l : Nat) : Option State :=
  let e := s.dirEnt l
  let others := (e.holders s.sys.deviceId).filter (fun h => h != a)
  if others.any (fun h => agentDev h != s.sys.deviceId) || !s.homeFree a l then none
  else
    let s := others.foldl (fun s h => s.dropL2 (agentLoc h) l) s
    let st : DirState := if s.lineGang l then .G else .M
    some (s.dirTouch l ({ DirEnt.empty with state := st, owner := a }.add a))

/-- Whether a read of a line by an agent of a ridge needs no message first: the L2 holds it, its home here can give it at
once, or it has come already. -/
def State.lineNear (s : State) (ridge l : Nat) : Bool :=
  (s.l2Way ridge l).isSome || (lineDev l == s.sys.deviceId && (s.dirRead (s.agent ridge) l).isSome)
    || (s.coh.readBuf.find l).isSome

/-- Whether an L2 may write a line at once: it holds a peer's line in M, or this device's home can give it. A line marked P
is written past the caches (R313). -/
def State.ownNear (s : State) (ridge l : Nat) : Bool :=
  if lineDev l = s.sys.deviceId then s.linePoisoned l || (s.dirOwn (s.agent ridge) l).isSome
  else ((s.l2Way ridge l).map (fun w => w.state == .M)).getD false

/-- A line of this device is read at its home: from the SLC, or from memory with a fill; a line whose stored word is as it
was written reads without more (R433). -/
def State.lineFetch (s : State) (l : Nat) (streaming : Bool) : State :=
  let s := if !s.rawAny l || (wayOf (waysAt s.cache.slc (slcKey l) 16) l).isSome then s else s.memRead l false
  s.slcAccess l streaming

/-- The request that makes an L2 the owner of a line: UPGRADE where it holds the line, RD_OWN otherwise (Table 11.5). -/
def State.ownOp (s : State) (ridge l : Nat) : Nat := if (s.l2Way ridge l).isSome then opUpgrade else opRdOwn

/-- The agent by which a ridge's L2 asks for a line: itself at a home here, the proxy elsewhere (R310, R316). -/
def State.askLoc (s : State) (ridge l : Nat) : Nat := if lineDev l = s.sys.deviceId then ridge else locProxy

/-- An L2 asks a line's home for what it cannot have at once, for a route; one request of a kind is open at a time. -/
def State.askFill (s : State) (ridge l op : Nat) (k : Option RouteKey) : State :=
  if s.coh.requests.any (fun r => r.msg.line == l && (match r.purpose with
    | .fill x _ => x == ridge
    | .write x _ _ => x == ridge
    | _ => false)) then s
  else (s.request { op := op, src := 0, dst := 0, txn := 0, line := l } (s.askLoc ridge l) (.fill ridge k)).2

/-- A read of a line by an agent of a ridge through its L2 (R295, R299); a line of a peer comes by a message before, and a
line marked P is not cached (R313). -/
def State.l2Read (s : State) (ridge l : Nat) (k : Option RouteKey) : State :=
  let s := (s.window ridge 16 l .read).2
  if (s.l2Way ridge l).isSome then s.mapL2 ridge l (fun w => { w with rrv := 0, streaming := false })
  else if lineDev l ≠ s.sys.deviceId || s.linePoisoned l then s
  else
    match s.dirRead (s.agent ridge) l with
    | none => s.askFill ridge l opRdShared k
    | some (st, s') =>
      if !s.l2Allocates ridge then s.lineFetch l false
      else
        let pd := s.pdFlag (s.agent ridge) l
        (s'.lineFetch l false).fillL2 ridge l k st false false pd []

/-- A read access of a strand on a physical ridge moves the line through its caches; the L1 takes only what the L2 holds
(R295). -/
def State.strandRead (s : State) (ridge strand l : Nat) (k : Option RouteKey) (code : Bool) : State :=
  let s := if code then s else (s.window (32 + ridge * 9 + strand) 4 l .read).2
  let key := if code then l1iKey ridge strand l else l1dKey ridge strand l
  let m := if code then s.cache.l1i else s.cache.l1d
  if (wayOf (waysAt m key 4) l).isSome then s.fillL1 ridge strand l code false
  else
    let s := s.l2Read ridge l k
    if (s.l2Way ridge l).isSome then s.fillL1 ridge strand l code false else s

/-- An L2 takes ownership of a line that is written and marks it dirty, or passes the line on without a fill where it
misses and `past` says so or the L2 does not allocate; `late` is a line whose store went past the level above (R296, R299).
A line marked P stays uncached, and one that cannot be owned at once is asked for (R307, R313). -/
def State.l2Own (s : State) (ridge l : Nat) (k : Option RouteKey) (full past late : Bool) : State :=
  let hit := (s.l2Way ridge l).isSome
  if lineDev l ≠ s.sys.deviceId then
    s.mapL2 ridge l (fun w => { w with state := .M, dirty := true, rrv := 0, streaming := false })
  else if s.linePoisoned l then s
  else
    match s.dirOwn (s.agent ridge) l with
    | none => s.askFill ridge l (s.ownOp ridge l) k
    | some s' =>
      let pd := s.pdFlag (s.agent ridge) l
      let s' := if hit then s' else if full then s'.slcAccess l past else s'.lineFetch l false
      if !hit && (past || !s.l2Allocates ridge) then s'.setDir l DirEnt.empty
      else
        let s := s'.fillL2 ridge l k .M true late pd []
        if s.l2Allocates ridge then s
        else (s.mapL2 ridge l Way.clean).setDir l ((s.dirEnt l).cleaned s.sys.deviceId)

/-- A write of a line by an agent of a ridge: where `past` allows it, a full line that misses goes past an L2 whose window
streams (R299). -/
def State.l2Write (s : State) (ridge l : Nat) (k : Option RouteKey) (full past late : Bool) : State :=
  let (str, s) := s.window ridge 16 l (if full then .fullStore else .partialStore)
  s.l2Own ridge l k full (full && past && str) late

/-- A write access of a strand: in place where the L1D holds the line, else through the L2; where the L1D's window streams, a
full line that misses goes past it. -/
def State.strandWrite (s : State) (ridge strand l : Nat) (k : Option RouteKey) (full : Bool) : State :=
  let kind : AccKind := if full then .fullStore else .partialStore
  let (str, s) := s.window (32 + ridge * 9 + strand) 4 l kind
  let hit := (wayOf (waysAt s.cache.l1d (l1dKey ridge strand l) 4) l).isSome
  let past := full && str && !hit
  let s := if hit then s.l2Own ridge l k full false false else s.l2Write ridge l k full past past
  if past || !(s.l2Way ridge l).isSome then s
  else s.fillL1 ridge strand l false (s.l2Allocates ridge)

/-! ## Gang lines (R330) -/

/-- A pitch-dirty notice of the owner of a Gang line to the line's home, kept until its WB_ACK (R330). -/
def State.sendPdSet (s : State) (ridge l : Nat) : State :=
  let (t, s) := s.newTxn
  let a := s.agent (s.askLoc ridge l)
  let s := { s with coh := { s.coh with wbBuf := s.coh.wbBuf ++
    [({ agent := a, line := l, txn := t, data := [], keeps := .M } : WbEnt)] } }
  s.sendCoh { op := opPdSet, src := a, dst := s.homeAgent l, txn := t, line := l, order := true }

/-- The page of this device's routes that a line belongs to, and the line's index in it: a local page, or one that a peer
keeps. -/
def State.pageOf (s : State) (l : Nat) : Option (Nat × Nat) :=
  if lineDev l = s.sys.deviceId then (s.linePage l).map (fun p => (p.1, (lineOff l - p.2.addr) / 64))
  else (s.depot.pages.find? (fun p => p.2.tier == 2 && decide (p.2.addr ≤ l) && decide (l < p.2.addr + p.2.size))).map
    (fun p => (p.1, (l - p.2.addr) / 64))

/-- The tag bit of a Gang line that an L2 holds is set. -/
def State.setTag (s : State) (ridge l : Nat) : State :=
  if s.lineOrder l then s.mapL2 ridge l (fun w => { w with pd := true }) else s

/-- Before a store to a Gang line by its owner whose tag bit is clear: the line's value goes to this device's journal, the
home learns of it, the tag bit is set (R330 steps 1 to 3); none where the journal is full (R62). Where no L2 holds the line,
the home's bit decides. -/
def State.gangStep (s : State) (ridge l : Nat) (old : List Byte) : Option State :=
  let done := match s.l2Way ridge l with
    | some w => w.pd
    | none => lineDev l != s.sys.deviceId || !s.needsRecord l
  if done then some s
  else
    match (s.pageOf l).bind (fun p => (s.depot.pages.find p.1).bind (fun q => q.key.map (fun k => (p, k)))) with
    | none => some s
    | some ((id, i), k) =>
      if s.journalRoom ≤ s.depot.journal.length then none
      else
        some (((s.putRecord k id i old).sendPdSet ridge l).setTag ridge l)

/-- The journal step before an L2's store to a line: the owner's for a Gang line, the home's for a Global one (R60). -/
def State.storeStep (s : State) (ridge l : Nat) : Option State :=
  let old := if lineDev l = s.sys.deviceId then s.lineRead l
    else ((s.l2Way ridge l).map (fun w => fitTo 64 w.data)).getD (zeros 64)
  if s.lineOrder l then s.gangStep ridge l old else if lineDev l = s.sys.deviceId then s.journalStep l else some s

/-- The journal steps before an L2's stores to lines. -/
def State.storeSteps (s : State) (ridge : Nat) : List Nat → Option State
  | [] => some s
  | l :: ls =>
    match s.storeStep ridge l with
    | none => none
    | some s => s.storeSteps ridge ls

/-! ## Streaming reads of image memory (R120, R300) -/

/-- A read of the SCN that passes through its L2: a line that the L2 holds is read there, and another one comes from its home
as a stream, without a fill of the L2 (R119, R120, R300). -/
def State.l2Pass (s : State) (ridge l : Nat) : State :=
  let s := (s.window ridge 16 l .read).2
  if (s.l2Way ridge l).isSome then s.mapL2 ridge l (fun w => { w with rrv := 0, streaming := false })
  else if lineDev l = s.sys.deviceId then s.lineFetch l true
  else s

/-- The lines of a range of image memory that a unit reads as a stream; those of a peer pass its remote-line buffer. -/
def State.streamRange (s : State) (r : Nat × Nat) : State :=
  (linesOf r.1 r.2).foldl (fun s a => if imgDev a = s.sys.deviceId then s.lineFetch (imgLine a) true else s) s

def State.streamRanges (s : State) (rs : List (Nat × Nat)) : State := rs.foldl State.streamRange s

/-! ## Accesses that do not decide anything else -/

/-- A state with the caches, the directory and the traffic of another that follows it by accesses of lines alone; what a
line's stored errors bring reaches the whole state. -/
def State.accessed (s x : State) : State :=
  if !s.dram.raw.isEmpty then x
  else
    { s with
      cache := x.cache, coh := x.coh, dram := x.dram, out := x.out
      depot := { s.depot with access := x.depot.access }
      link := { x.link with outbound := s.link.outbound, asked := s.link.asked, owed := s.link.owed }
      objs := s.objs.put (okey 0x3080 4) (x.obj 0x3080 4) }

/-- Reads of lines of this device at their home that no L2 takes part in (R21). -/
def State.homeReads (s : State) (ls : List Nat) : State := s.accessed (ls.foldl (fun s l => s.lineFetch l false) s)

/-! ## Maintenance by set and way, and disabling (R303, R304, R307) -/

/-- INVAL or CLEANINVAL of a line of an L2: a dirty line goes to its home, a clean one leaves with its notice (R303). -/
def State.leaveL2 (s : State) (ridge : Nat) (w : Way) : State :=
  if w.dirty || lineDev w.line != s.sys.deviceId then s.evictL2 ridge w none
  else
    let s := s.dropL2 ridge w.line
    s.setDir w.line ((s.dirEnt w.line).release s.sys.deviceId (s.agent ridge))

/-- The L1s of a ridge hold nothing more; lines that a wrong path brought have no copy in the L2 (R261, R306). -/
def State.emptyL1 (s : State) (ridge : Nat) : State :=
  let cut (n : Nat) (m : SMap (List Way)) : SMap (List Way) := m.map (fun p =>
    if p.1 / n = ridge then (p.1, p.2.map (fun w => if w.fenced then w else invalidWay)) else p)
  { s with cache := { s.cache with l1d := cut (9 * 256) s.cache.l1d, l1i := cut (9 * 128) s.cache.l1i } }

/-- CLEANINVAL of a whole L2 and the L1s under it: dirty lines go back, every line leaves. -/
def State.sweepL2 (s : State) (ridge : Nat) : State :=
  let lines := (s.cache.l2.filter (fun p => p.1 / 4096 == ridge)).flatMap (fun p => p.2.filter (fun w => w.state != .I))
  (lines.foldl (fun s w => s.leaveL2 ridge w) s).emptyL1 ridge

/-- CLEANINVAL of the slices of an SLC quadrant. -/
def State.sweepSlc (s : State) (q : Nat) : State :=
  { s with cache := { s.cache with slc := s.cache.slc.map (fun (p : Nat × List Way) =>
      if p.1 / 3072 / 8 = q then (p.1, p.2.map (fun w => if w.fenced then w else invalidWay)) else p) } }

def State.setCacheState (s : State) (c : CacheSel) (x : CacheState) : State :=
  let m := if x = .enabled then s.cache.states.del (cacheKey c) else s.cache.states.put (cacheKey c) x
  { s with cache := { s.cache with states := m } }

end Sys2Proof.Machine
end

