-- ==== Sys2Proof/Machine/Ends.lean ====
section
/-! DEFINITION. What a discarded span gives back, and the ends of a route: the journal applied, verdicts sent, quota returned, the
final record, the suspension (R65, R146, R223, R229, R379, R436). -/
namespace Sys2Proof.Machine

/-- A route's end is fixed without a record of its own: it ends at the tick that R146 and R57 select. -/
def State.endAt (s : State) (k : RouteKey) (status : Nat) : State :=
  s.updRoute k (fun r => { r with
    conditions := r.conditions ++ [status]
    endTick := match r.endTick with
      | some t => some t
      | none => some (if s.pitch.decisionDone then s.pitch.number + 1 else s.pitch.number) })

/-- A line that a record cannot give back is marked P, at its home where a peer holds it (R436). -/
def State.spoilRecord (s : State) (line : Nat) (far : Bool) : State :=
  if far then
    ({ s with cache := s.cache.dropLine line, coh := { s.coh with readBuf := s.coh.readBuf.del line } } : State).proxyNote
      opWbDirty line (zeros 64) .I true
  else s.poison line

/-- A journal record is read and restores its line (R65 step 2); one that cannot be read marks the line P, and its route ends
with POISON_READ (R436). -/
def State.restoreRecord (s : State) (j : JRec) : State :=
  let jl := s.journalLine j.slot
  let s := (s.memRead jl false).memRead (jl + 64) false
  let bad := s.linePoisoned jl || s.linePoisoned (jl + 64)
  match s.depot.pages.find j.page with
  | none => s
  | some p =>
    let s := match s.dobj? p.obj with
      | some d => if bad then s else s.putObj p.obj (d.writeN p.obj (p.index * p.size + 64 * j.lineIndex) j.old)
      | none => s
    let base := if p.tier = 2 then 0 else s.sys.deviceId * 2 ^ 44 + (if p.tier = 0 then 2 ^ 43 else 0)
    let line := base + p.addr + 64 * j.lineIndex
    let s := if p.tier = 2 then (if bad then s else s.restoreFar line j.old) else s.replayInval line
    let s := { s with
      dram := { s.dram with poisoned := s.dram.poisoned.del line }
      depot := { s.depot with
        pages := s.depot.pages.put j.page { p with pdLines := p.pdLines.filter (fun l => l != j.lineIndex) }
        migrations := s.depot.migrations.map (fun m => m.mark j.page j.lineIndex false) } }
    if bad then (s.spoilRecord line (p.tier == 2)).endAt j.key stPoisonRead else s

/-- Journal records of a route's span, newest first, restore their lines (R65 step 2). -/
def State.applyJournal (s : State) (k : RouteKey) (spanPitch : Nat) : State :=
  let mine := s.depot.journal.filter (fun j => j.key == k && j.spanPitch == spanPitch)
  let s := mine.reverse.foldl State.restoreRecord s
  ({ s with depot := { s.depot with
      journal := s.depot.journal.filter (fun j => !(j.key == k && j.spanPitch == spanPitch)) } } : State).refreshDir

/-- The dictionaries that a route has in the buffers and its second reads are forgotten: a replay reads them again (R86), and a
later route of the same key has none of them (R119, R124). -/
def State.forgetReads (s : State) (k : RouteKey) : State :=
  { s with sched := { s.sched with
    dicts := s.sched.dicts.map (fun p => (p.1, p.2.filter (fun e => e.key != k)))
    rereads := s.sched.rereads.filter (fun x => x.1 != k) } }

/-- Steps 1 to 4 of R65: the span's work on this device is discarded and the committed state stands again. -/
def State.discardSpan (s : State) (k : RouteKey) : State :=
  match s.route? k with
  | none => s
  | some r =>
    let pitch := s.spanPitch k
    let s := s.camReplay k (fun stage ridge => ((r.base.builds.find (srKey stage ridge)).bind (fun b => b.cam)).isSome)
    let s := (((s.dropTasks k).dropStrands k).dropWrites k).forgetReads k
    let s := s.applyJournal k pitch
    let s := s.depotReplay k
    let s := s.dropEntries k pitch
    let s := { s with link := { s.link with outbound := s.link.outbound.filter (fun o => o.key != k) } }
    (s.updRoute k (fun r => { r with work := r.base }))

/-! ## Verdicts and ends -/

/-- Sends a BELAY_ACK about a route's open span (Table 02.4). -/
def State.sendBelay (s : State) (r : Route) (sp : Span) (dest kind tick : Nat) : State :=
  s.send (.belay { slotSource := s.sys.deviceId, dest := dest, routeId := r.key.id, spanPitch := sp.openPitch % 2 ^ 32
                   tick := tick % 2 ^ 32, tenant := r.key.tenant, kind := kind, source := s.sys.deviceId
                   home := r.key.home, halvings := r.h, faultReplays := min 4 sp.faultReplays })

/-- The home tells every other participant. -/
def State.sendVerdict (s : State) (k : RouteKey) (kind tick : Nat) : State :=
  match s.route? k with
  | none => s
  | some r =>
    match r.span with
    | none => s
    | some sp =>
      (r.parts.filter (fun d => d != s.sys.deviceId)).foldl (fun s d => s.sendBelay r sp d kind tick) s

/-- The final record of a route (R379): for a DETERMINISTIC route the fields that describe timing are zero (R81). -/
def Route.final (r : Route) (status tick check : Nat) : Completion :=
  let det := r.desc.deterministic
  let top := 2 ^ 32 - 1
  { status := status, cid := r.cid, qid := r.qid, opcode := 0x01, routeId := r.key.id
    w2 := if det then 0 else tick
    w3 := r.desc.userTag
    w4 := check * 2 ^ 32 + (if det then 0 else min top (tick + 1 - r.admitPitch))
    w5 := if det then 0 else min top r.overruns * 2 ^ 32 + min 4 r.h * 2 ^ 24 + min 255 r.replays * 2 ^ 16
    w6 := if det then 0 else r.admitTime
    stamp := !det
    closes := some r.key }

/-- Blocks of quota that a participant no longer needs go back to the home (R223). -/
def State.returnQuota (s : State) (t home : Nat) : State :=
  let have_ := (s.depot.drawn.find (drawKey t home)).getD 0
  let need := ceilDiv (s.drawnUse t home) quotaBlock
  if need < have_ then
    let s := { s with depot := { s.depot with
      drawn := if need = 0 then s.depot.drawn.del (drawKey t home) else s.depot.drawn.put (drawKey t home) need } }
    s.send (.svc { op := 0xC6, source := s.sys.deviceId, dest := home, tenant := t, arg := have_ - need })
  else s

/-- At a belay every block that is no longer needed goes back. -/
def State.returnQuotas (s : State) : State :=
  s.depot.drawn.foldl (fun s p => s.returnQuota (p.1 / 16) (p.1 % 16)) s

/-- What a route held goes: its Depot objects, Summit entries, and ropes on their way. The SHADOW object of a CAM build goes with
them, though its banks stay owned until the final record is posted: when that page goes the spec does not say (DESIGN CHOICE;
log 65). -/
def State.freeRoute (s : State) (k : RouteKey) : State :=
  let s := (s.routeObjs k).foldl State.freeObj (s.forgetReads k)
  let keep (e : SlotEntry) : Bool := e.key != k
  let cut (b : SlotBuf) : SlotBuf := { b with entries := b.entries.filter keep }
  { s with
    summit := { s.summit with
      slots := s.summit.slots.map (fun (p : Nat × SlotBuf × SlotBuf) => (p.1, (cut p.2.1, cut p.2.2)))
      holding := s.summit.holding.filter (fun h => keep h.2) }
    depot := { s.depot with
      granted := s.depot.granted.filter (fun g => !(g.tenant == k.tenant && g.route == k.id)) }
    link := { s.link with
      outbound := s.link.outbound.filter (fun o => o.key != k)
      asked := s.link.asked.filter (fun a => !(a.op == opZeroWait && a.tenant == k.tenant && a.route == k.id))
      copies := s.link.copies.filter (fun c => c.key != k) } }

/-- A route without an open span ends with a status: at its home the participants learn of it and the final record
becomes due, unless none is written (Table 13.9); elsewhere its state goes. -/
def State.closeOut (s : State) (k : RouteKey) (status tick check : Nat) (record : Bool) : State :=
  match s.route? k with
  | none => s
  | some r =>
    let s := s.freeRoute k
    if s.isHome k then
      let s := (r.parts.filter (fun d => d != s.sys.deviceId)).foldl (fun s d =>
        s.send (.svc { op := 0xC1, source := s.sys.deviceId, dest := d, tenant := k.tenant, route := k.id
                       arg := status })) s
      let s := s.logEvent k r.desc.priority 0 0 15 0xA 0
      let s := s.updRoute k (fun r => { r with
        finalDue := true, span := none, suspended := none, publish := none, work := RouteWork.empty
        base := RouteWork.empty, conditions := [], endTick := none, aborts := [] })
      if record then s.complete k.tenant r.cqid (r.final status tick check) else s.closeRoute k
    else
      let s := { (s.freeCam k) with routes := s.routes.filter (fun r => r.key != k) }
      s.returnQuota k.tenant k.home

/-- The notice record of a suspension (R229, R379; log 24). -/
def Route.notice (r : Route) (cause bytes : Nat) : Completion :=
  { status := stDepotFull, cid := r.cid, qid := r.qid, opcode := 0x01, cause := cause, final := false
    routeId := r.key.id, w2 := bytes, w3 := r.desc.userTag, w6 := r.admitTime }

/-- What a suspension does on one device: the open span is discarded and the route keeps what it committed, with its footprint
(R229 steps 1 to 3). -/
def State.suspendHere (s : State) (k : RouteKey) (cause : Nat) (fp : List Nat) : State :=
  match s.route? k with
  | none => s
  | some r =>
    let s := s.discardSpan k
    let s := { s with
      depot := { s.depot with
        granted := s.depot.granted.filter (fun g => !(g.tenant == k.tenant && g.route == k.id)) }
      link := { s.link with asked := s.link.asked.filter (fun a => !(a.op == opZeroWait && a.tenant == k.tenant && a.route == k.id)) } }
    let s := s.updRoute k (fun r => { r with
      span := none
      suspended := some { cause := cause, footprint := fp, tick := s.pitch.number } })
    let s := s.oinc 0x4002 5 1
    s.logEvent k r.desc.priority 0 0 15 0x8 0

/-- What the discarded span of a route had allocated on the other participants, in each class: no message tells the home, so it
is free, in whole pages (R229; log 38). -/
def State.farFootprint (s : State) (r : Route) : List Nat × State :=
  if r.parts.length ≤ 1 then ([0, 0, 0, 0, 0, 0, 0], s)
  else
    ((List.range 7).map (fun c => (Config.freeValue 20 (s.freeCount + c)).toNat * clsPage c), { s with freeCount := s.freeCount + 7 })

/-- A route is suspended at once (R229), on every participant: the home tells them, and a participant tells the home
(log 38); one whose footprint exceeds its tenant's ceiling ends at once after the notice (R231). -/
def State.suspendRoute (s : State) (k : RouteKey) (cause cls : Nat) : State :=
  match s.route? k with
  | none => s
  | some r =>
    let near := s.footprint k cls
    let (far, s) := if s.isHome k then s.farFootprint r else ([], s)
    let fp := near.zipIdx.map (fun p => p.1 + far.getD p.2 0)
    let s := if s.isHome k then s.sendVerdict k 6 (s.pitch.number - 1)
      else s.send (.svc { op := 0xC1, source := s.sys.deviceId, dest := k.home, tenant := k.tenant, route := k.id
                          arg := stDepotFull })
    let s := s.suspendHere k cause fp
    if s.isHome k then
      let s := s.complete k.tenant r.cqid (r.notice cause (sumNat fp))
      if cause = causeQuota ∧ s.onum (tobj 0x9020 k.tenant) 1 < sumNat fp then
        s.closeOut k stDepotFull (s.pitch.number - 1) 0 true
      else s
    else s

end Sys2Proof.Machine
end

