-- ==== Sys2Proof/Machine/Outbound.lean ====
section
/-! DEFINITION. Ropes bound for a peer: pages asked for, full-mask writes, then the notice (R205, R359). -/
namespace Sys2Proof.Machine

/-- Service opcodes (Table 12.8). -/
def svRouteOpen : Nat := 0xC0
def svRouteEnd : Nat := 0xC1
def svPageAlloc : Nat := 0xC2
def svPageGrant : Nat := 0xC3
def svQuotaDraw : Nat := 0xC4
def svQuotaGrant : Nat := 0xC5
def svQuotaReturn : Nat := 0xC6
def svRopeNotice : Nat := 0xC7
def svSummitEntry : Nat := 0xC8
def svSummitClose : Nat := 0xC9
def svDeathNotice : Nat := 0xCA

def State.sendSvc (s : State) (op dest tenant route arg slot1 slot2 : Nat) : State :=
  s.send (.svc { op := op, source := s.sys.deviceId, dest := dest, tenant := tenant, route := route, arg := arg
                 slot1 := slot1, slot2 := slot2 })

def State.outbound? (s : State) (id : Nat) : Option Outbound := s.link.outbound.find? (fun o => o.id == id)

def State.mapOutbound (s : State) (id : Nat) (f : Outbound → Outbound) : State :=
  { s with link := { s.link with outbound := s.link.outbound.map (fun o => if o.id = id then f o else o) } }

def State.dropOutbound (s : State) (id : Nat) : State :=
  { s with link := { s.link with outbound := s.link.outbound.filter (fun o => o.id != id) } }

/-- Close records of a home and tag whose entries have all gone (R205). -/
def State.payCloses (s : State) : State :=
  let ready := s.link.owed.filter (fun c => !s.link.outbound.any (fun o =>
    o.device == c.1 && o.summit.isSome && o.tag == c.2))
  let s := { s with link := { s.link with owed := s.link.owed.filter (fun c => !ready.contains c) } }
  ready.foldl (fun s c => s.sendSvc svSummitClose c.1 0 0 c.2 0 0) s

/-- The two slots of a Summit entry (Table 06.6). -/
def Outbound.entrySlots (o : Outbound) (dev : Nat) : Nat × Nat :=
  let w0 := o.key.id % 2 ^ 32 * 2 ^ 32 + o.key.tenant % 32 * 2 ^ 27 + (o.summit.getD 0) % 4 * 2 ^ 25
    + o.srcRidge % 16 * 2 ^ 21 + dev % 16 * 2 ^ 17
  (w0 + o.spanPitch % 2 ^ 64 * 2 ^ 64, o.handle % 2 ^ 64 + o.ropes % 2 ^ 32 * 2 ^ 96)

/-- Slot 1 of a ROPE_NOTICE (Table 12.8). -/
def Outbound.noticeSlot (o : Outbound) : Nat :=
  o.dstRidge % 16 * 2 ^ 124 + o.seq % 2 ^ 48 * 2 ^ 76 + o.srcRidge % 16 * 2 ^ 72 + o.stage % 16 * 2 ^ 68
    + o.spanPitch % 2 ^ 64

/-- The line address of byte `i` of a rope whose pages are known. -/
def Outbound.lineOf (o : Outbound) (i : Nat) : Nat := o.pages.getD (i / kib64) 0 + i % kib64

/-- Takes a rope bound for a peer one step on its way, when the step before has been answered. -/
def State.pumpOne (s : State) (id : Nat) : State :=
  match s.outbound? id with
  | none => s
  | some o =>
    let asking := s.link.asked.any (fun a => a.outId == some id)
      || s.link.outbound.any (fun x => decide (x.id < id) && x.device == o.device && x.key == o.key && x.cls == o.cls
          && decide (x.pages.length < ceilDiv x.bytes.length kib64))
    let need := ceilDiv o.bytes.length kib64
    if o.pages.length < need then
      if asking then s
      else
        let a : Asked := { device := o.device, op := svPageAlloc, tenant := o.key.tenant, route := o.key.id
                           cls := o.cls, outId := some id }
        { s with link := { s.link with asked := s.link.asked ++ [a] } }.sendSvc svPageAlloc o.device o.key.tenant
          o.key.id (o.cls * 2 ^ 61) 0 0
    else if !o.awaiting.isEmpty then s
    else if o.written < ceilDiv o.bytes.length 64 then
      let loc := if o.summit.isSome then locSummit else locDepot
      let n := min 256 (ceilDiv o.bytes.length 64 - o.written)
      let r := (List.range n).foldl (fun (acc : List Nat × State) j =>
        let i := o.written + j
        let (t, s) := acc.2.request { op := opWrNc, src := 0, dst := 0, txn := 0, line := o.lineOf (64 * i)
                                      mask := fullMask, data := fitTo 64 (sliceB o.bytes (64 * i) 64) } loc .depot
        (acc.1 ++ [t], s)) ([], s)
      r.2.mapOutbound id (fun o => { o with written := o.written + n, awaiting := r.1 })
    else
      let s := s.dropOutbound id
      let s := match o.summit with
        | none => (s.sendSvc svRopeNotice o.device o.key.tenant o.key.id o.handle o.noticeSlot 0).readySeals o.key
        | some _ =>
          let e := o.entrySlots s.sys.deviceId
          s.sendSvc svSummitEntry o.device o.key.tenant o.key.id o.tag e.1 e.2
      s.payCloses

/-! ## The acknowledgement of a participant (R66) -/

/-- Whether a store of a route to a peer's line still waits for the line. -/
def State.storePending (s : State) (k : RouteKey) : Bool :=
  s.coh.requests.any (fun r => match r.purpose with
    | .write _ x _ => x == k
    | _ => false)

/-- Whether a span may commit as far as this device goes: its tasks were done by the cutoff, every bank it searched has
since been swept, and the write-backs of the lines that were dirty at the cutoff are complete (R63, R66, R302). -/
def State.partDone (s : State) (r : Route) (sp : Span) : Bool :=
  sp.doneByC && r.conditions.isEmpty && sp.searched.all s.passClean && !s.storePending r.key
    && s.coh.wbBuf.all (fun w => w.data.isEmpty || !w.atCut)

/-- Whether a repair took effect on a bank the span searched (R178 condition 2). -/
def State.searchSpoiled (s : State) (sp : Span) : Bool :=
  sp.searched.any (fun x => s.passClean x && !s.repairFree x)

/-- The acknowledgement of a participant (R66): 0 DONE, 1 NOT_DONE, 2 REPLAYING. -/
def State.ackKind (s : State) (r : Route) (sp : Span) : Nat :=
  if sp.replaying then 2
  else if s.partDone r sp && !(s.link.outbound.any (fun o => o.key == r.key))
      && !(s.link.owed.any (fun c => c.1 == r.key.home)) then 0
  else 1

/-- DONE of a participant leaves as soon as its conditions hold in the belay window, so that it is with the home before D
(R66, log 55). -/
def State.ackDone (s : State) : State :=
  if !s.pitch.cutoffDone || s.pitch.decisionDone then s
  else
    s.routes.foldl (fun s r =>
      match r.span with
      | none => s
      | some sp =>
        if s.isHome r.key || sp.acked || s.searchSpoiled sp || s.ackKind r sp != 0 then s
        else (s.sendBelay r sp r.key.home 0 s.pitch.number).mapSpan r.key (fun sp => { sp with acked := true })) s

/-- Every rope on its way goes as far as it can; a participant's part may be done with it. -/
def State.pumpOutbound (s : State) : State :=
  ((s.link.outbound.foldl (fun s o => s.pumpOne o.id) s).payCloses).ackDone

/-- A write of a rope has completed at its home. -/
def State.outboundDone (s : State) (txn : Nat) : State :=
  { s with link := { s.link with outbound := s.link.outbound.map (fun o =>
      { o with awaiting := o.awaiting.filter (fun t => t != txn) }) } }

end Sys2Proof.Machine
end

