-- ==== Sys2Proof/Machine/Routes.lean ====
section
/-! DEFINITION. Opening a route: at its home on admission, at a participant from the home's admitted copy (R53, R86, R117,
R358). -/
namespace Sys2Proof.Machine

/-- A route that has just been opened during a pitch: it has no span yet and its first quota comes at the tick that ends
the pitch (R53). -/
def Route.fresh (k : RouteKey) (d : RouteDesc) (copy : List Byte) (order pitch time : Nat) : Route :=
  { key := k, qid := 0, cid := 0, cqid := 0, finalDue := false, desc := d, admitOrder := order, copy := copy
    admitPitch := pitch, admitTime := time, firstTick := pitch, h := 0, overruns := 0, replays := 0, span := none
    work := RouteWork.empty, base := RouteWork.empty, conditions := [], endTick := none, aborts := [], suspended := none
    publish := none, lostDevices := [], losses := [], widths := [], strandEnded := false }

/-- Adds a route in admission order, with the widths of the Cairn tables it names (R143); to a strand it is another route
than one that had its id before (R257). -/
def State.addRoute (s : State) (r : Route) : State :=
  let consts := (List.range r.desc.stages.length).flatMap (fun i =>
    if r.desc.runsProgram i then (parseProg (r.desc.prog i)).consts else [])
  { s with
    strands := s.strands.map (fun p => (p.1, if p.2.lastRoute = some r.key then { p.2 with lastRoute := none } else p.2))
    routes := s.routes ++ [{ r with widths := s.cairnWidths r.key.tenant consts }]
    sched := { s.sched with nextOrder := s.sched.nextOrder + 1 } }

/-- The bytes of an admitted copy once every line of it has arrived. -/
def RouteCopy.whole (c : RouteCopy) : Option (List Byte) :=
  let n := ceilDiv c.bytes 64
  if (List.range n).all (fun i => (c.got.find (64 * i)).isSome) then
    some (((List.range n).flatMap (fun i => (c.got.find (64 * i)).getD [])).take c.bytes)
  else none

/-- The structures in an admitted copy, where its lengths agree with its header. -/
def copyDesc (k : RouteKey) (b : List Byte) : Option RouteDesc :=
  let h := headerOf (b.take 128)
  let db := h.descBytes
  let cb := 32 * h.columnCount
  if h.version = 3 ∧ b.length = db + cb + h.programBytes + h.specBytes ∧ h.routeId = k.id then
    some (descOf k.home k.tenant h (b.take db) (sliceB b db cb) (sliceB b (db + cb) h.programBytes)
      (sliceB b (db + cb + h.programBytes) h.specBytes))
  else none

/-- Opens the routes whose admitted copies are complete; a copy that is no route's goes (log 43). -/
def State.finishCopies (s : State) : State :=
  s.link.copies.foldl (fun s c =>
    match c.whole with
    | none => s
    | some b =>
      let s := { s with link := { s.link with copies := s.link.copies.filter (fun x => x.key != c.key) } }
      match copyDesc c.key b with
      | none => s
      | some d => s.addRoute (Route.fresh c.key d b s.sched.nextOrder s.pitch.number s.timeNs)) s

/-- A line of an admitted copy arrives; one that cannot be read ends the route, which the home learns from ROUTE_END
(log 39). -/
def State.copyLineArrives (s : State) (k : RouteKey) (off status : Nat) (data : List Byte) : State :=
  if status ≠ stOk then
    let s := { s with link := { s.link with copies := s.link.copies.filter (fun c => c.key != k) } }
    s.send (.svc { op := 0xC1, source := s.sys.deviceId, dest := k.home, tenant := k.tenant, route := k.id
                   arg := status })
  else
    ({ s with link := { s.link with copies := s.link.copies.map (fun c =>
        if c.key = k then { c with got := c.got.put off data } else c) } } : State).finishCopies

end Sys2Proof.Machine
end

