-- ==== Sys2Proof/Machine/Coherence.lean ====
section
/-! DEFINITION. The coherence protocol: what a home does with each request and answer, and what a holder does with each
snoop and forward (R315, R318 to R332, R338). -/
namespace Sys2Proof.Machine

/-- Codes of the STATE field (Table 11.4). -/
def lineCode : LineState → Nat
  | .I => 0
  | .S => 1
  | .E => 2
  | .O => 3
  | .M => 4

def lineOfCode : Nat → LineState
  | 1 => .S
  | 2 => .E
  | 3 => .O
  | 4 => .M
  | _ => .I

def State.forwardMode (s : State) : Bool := decide (8 ≤ s.sys.deviceCount)

/-- The open transaction that an answer belongs to. -/
def State.txnFor (s : State) (m : CohMsg) : Option Txn :=
  s.coh.open_.find? (fun t => t.tracker == m.txn && t.line == m.line && t.waiting.contains m.src)

def State.isApplied (s : State) (a t : Nat) : Bool := s.coh.applied.contains (a, t)

def State.reqFor (s : State) (m : CohMsg) : Option OpenReq :=
  s.coh.requests.find? (fun r => r.msg.src == m.dst && r.msg.txn == m.txn)

/-- Whether a source holds a token of a home. -/
def State.tokenHeld (s : State) (home src token : Nat) : Bool :=
  s.coh.tokens.any (fun t => t.1 == agentLoc home * 512 + token && t.2.1 == src)

/-- What makes a coherence message a protocol fault, as a cause of Table 12.9 (R338). -/
def State.cohFault (s : State) (m : CohMsg) : Option Nat :=
  match cohClass m.op with
  | none => some 0x02
  | some c =>
    if m.reserved ≠ 0 ∨ s.agentOk m.src = false ∨ s.agentOk m.dst = false then some 0x04
    else if agentDev m.dst ≠ s.sys.deviceId then none
    else if c = 0 then
      if !locHome (agentLoc m.dst) then some 0x04
      else if (m.tokenValid || m.op == opTokenReturn) && !s.tokenHeld m.dst m.src m.token then some 0x06
      else none
    else if c = 1 then (if locL2 (agentLoc m.dst) || agentLoc m.dst == locProxy then none else some 0x04)
    else if c = 4 then (if locHome (agentLoc m.dst) then none else some 0x04)
    else if m.op = opAck ∨ m.op = opAckLost ∨ m.op = opOwnerMoved ∨ m.op = opSnpDataRsp then
      if (s.txnFor m).isSome || (m.evicting && s.isApplied m.src m.aux) then none else some 0x05
    else if m.op = opWbAck then
      if s.coh.wbBuf.any (fun w => w.agent == m.dst && w.txn == m.txn) then none else some 0x05
    else if m.op = opGrant then
      if s.coh.requests.any (fun r => r.msg.src == m.dst && r.msg.dst == m.src && r.token == some m.token) then none
      else some 0x05
    else if (s.reqFor m).isSome then none else some 0x05

/-! ## The home: trackers, queues and tokens (R322, R324) -/

def State.replyTo (s : State) (m : CohMsg) (op : Nat) (f : CohMsg → CohMsg) : State :=
  s.sendCoh (f { op := op, src := m.dst, dst := m.src, txn := m.txn, line := m.line, order := s.lineGang m.line })

/-- The home reserves free entries for the oldest tokens and says so (fuel: the tokens). -/
def State.grantTokens (s : State) (home : Nat) : Nat → State
  | 0 => s
  | f + 1 =>
    if 256 ≤ s.trackersUsed home then s
    else
      match s.coh.tokens.find? (fun t => t.1 / 512 == home && !t.2.2) with
      | none => s
      | some t =>
        let s := { s with coh := { s.coh with tokens := s.coh.tokens.map (fun x => if x = t then (t.1, t.2.1, true) else x) } }
        (s.sendCoh { op := opGrant, src := s.agent home, dst := t.2.1, txn := 0, line := 0, tokenValid := true
                     token := t.1 % 512 }).grantTokens home f

def State.dropToken (s : State) (home src token : Nat) : State :=
  { s with coh := { s.coh with tokens := s.coh.tokens.filter (fun t =>
      !(t.1 == agentLoc home * 512 + token && t.2.1 == src)) } }

/-- Refuses a request and reserves a token for it. -/
def State.retryReq (s : State) (m : CohMsg) : State :=
  let home := agentLoc m.dst
  let s := s.oinc 0x6100 4 1
  match s.coh.tokens.find? (fun t => t.1 / 512 == home && t.2.1 == m.src) with
  | some t => s.replyTo m opRetry (fun r => { r with tokenValid := true, token := t.1 % 512 })
  | none =>
    let used := s.coh.tokens.map (fun t => t.1)
    let tk := ((List.range 512).find? (fun i => !used.contains (home * 512 + i))).getD 0
    let s := { s with coh := { s.coh with tokens := s.coh.tokens ++ [(home * 512 + tk, m.src, false)] } }
    s.replyTo m opRetry (fun r => { r with tokenValid := true, token := tk })

/-! ## The home: directory room (R315) -/

/-- The victim among the entries of a full set in way order, after ageing, with the entries as they have aged: one in state I
first, else the lowest way of value 3 (fuel: 4 rounds). -/
def dirVictim (es : List (Nat × DirEnt)) : Nat → Option (Nat × DirEnt) × List (Nat × DirEnt)
  | 0 => (none, es)
  | f + 1 =>
    match es.find? (fun e => e.2.state == .I), es.find? (fun e => decide (3 ≤ e.2.rrv)) with
    | some e, _ => (some e, es)
    | none, some e => (some e, es)
    | none, none => dirVictim (es.map (fun e => (e.1, { e.2 with rrv := e.2.rrv + 1 }))) f

/-- Back-invalidates a victim: its holders are asked to give the line up, and the request that needs its entry, if any,
waits for that. -/
def State.backInvalidate (s : State) (k : Nat) (e : DirEnt) (resume : Option CohMsg) : State :=
  let v := k * 64
  let s := s.oinc 0x6100 6 1
  let hs := e.holders s.sys.deviceId
  if hs.isEmpty then s.setDir v DirEnt.empty
  else
    let (t, s) := s.newTxn
    let m : CohMsg := { op := opCmoCleanInval, src := s.agent locDepot, dst := s.homeAgent v, txn := t, line := v }
    let (n, s) := s.openTxn m hs true
    let s := { s with coh := { s.coh with open_ := s.coh.open_.map (fun (x : Txn) =>
        if x.tracker = n ∧ x.line = v then { x with resume := resume } else x) } }
    hs.foldl (fun s a => s.sendSnoop opSnpInv n v a) s

/-- Makes room for a new entry of a line: the entries of its set age and a victim is invalidated at its holders. -/
def State.dirRoom (s : State) (l : Nat) (resume : Option CohMsg) : State :=
  if !s.dirFull l then s
  else
    let es := sortBy (fun (a b : Nat × DirEnt) => decide (a.2.way < b.2.way))
      (s.coh.dir.filter (fun e => s.dirSetOf (e.1 * 64) == s.dirSetOf l && !s.lineBusy (e.1 * 64)))
    let v := dirVictim es 5
    let s := { s with coh := { s.coh with dir := v.2.foldl (fun (m : SMap DirEnt) e => m.put e.1 e.2) s.coh.dir } }
    match v.1 with
    | none => s
    | some (k, e) => s.backInvalidate k e resume

/-- Stores the entry of a line that an agent comes to hold; a full set gives up an entry first. -/
def State.dirPut (s : State) (l : Nat) (e : DirEnt) : State := (s.dirRoom l none).dirTouch l e

/-! ## The home: requests (R326, R328, R329) -/

/-- DATA to the requester. -/
def State.giveData (s : State) (m : CohMsg) (st : LineState) (data : List Byte) : State :=
  s.replyTo m opData (fun r => { r with state := lineCode st, data := data, pd := !s.needsRecord m.line })

/-- DATA of a line that is marked P, or that has no memory behind it (log 33). -/
def State.givePoison (s : State) (m : CohMsg) : State :=
  s.replyTo m opData (fun r => { r with poison := true, data := zeros 64 })

def isRead (op : Nat) : Bool := op == opRdShared || op == opRdOwn || op == opUpgrade || op == opRdNc

/-- The last part of a request, when every answer is in: memory is written, the journal step is taken, and the
requester gets its answer; for a Gang line the step is the new owner's (R330). False where the journal is full. DESIGN
CHOICE: R23 and R312 have peers send only RD_NC and WR_NC for an HBM line, and R338 names no fault; a caching request for
one is granted as for any line, and its sender is recorded as holder (log 31). -/
def State.grantLine (s : State) (m : CohMsg) (data : Option (List Byte)) : State × Bool :=
  let l := m.line
  let s := match data with
    | some d => if m.op = opRdNc ∨ m.op = opWrNc ∨ m.op = opCmoInval then s else (s.lineWrite l d).slcClean l
    | none => s
  let gang := s.lineGang l
  if s.linePoisoned l && isRead m.op then (s.givePoison m, true)
  else if m.op = opRdShared then
    let s := s.slcAccess l false
    let e := s.dirEnt l
    if gang then ((s.dirPut l { DirEnt.empty with state := .G, owner := m.src }).giveData m .S (s.lineRead l), true)
    else if e.state = .I ∧ s.lineDepot l = false ∧ data = none then
      ((s.dirPut l ({ DirEnt.empty with state := .E, owner := m.src }.add m.src)).giveData m .E (s.lineRead l), true)
    else ((s.dirPut l ({ e with state := .S, owner := 0 }.add m.src)).giveData m .S (s.lineRead l), true)
  else if m.op = opRdOwn ∨ m.op = opUpgrade then
    let e := s.dirEnt l
    let holder := (e.holders s.sys.deviceId).contains m.src
    match (if gang then some s else s.journalStep l) with
    | none => (s, false)
    | some s =>
      let s := s.dirPut l ({ DirEnt.empty with state := if gang then .G else .M, owner := m.src }.add m.src)
      if m.op = opUpgrade ∧ holder = true then
        (s.replyTo m opCmp (fun r => { r with state := 4, pd := true }), true)
      else ((s.slcAccess l false).giveData m .M (s.lineRead l), true)
  else if m.op = opRdNc then
    let s := s.slcAccess l false
    (s.giveData m .I (data.getD (s.lineRead l)), true)
  else if m.op = opWrNc then
    match s.journalStep l with
    | none => (s, false)
    | some s =>
      let s := if (wayOf (waysAt s.cache.slc (slcKey l) 16) l).isSome then s else s.countLine l
      let s := if m.mask ≠ fullMask ∧ s.linePoisoned l = true then s
        else (s.lineWrite l (maskMerge m.mask (data.getD (s.lineRead l)) m.data)).slcClean l
      let s := if m.mask = fullMask then s.unpoison l else s
      ((s.setDir l DirEnt.empty).replyTo m opCmp id, true)
  else
    let e := s.dirEnt l
    let s := if m.op = opCmoClean then
        (if e.state = .M ∨ e.state = .O then (s.slcClean l).setDir l { e with state := .S, owner := 0 } else s.slcClean l)
      else (s.slcDrop l).setDir l DirEnt.empty
    (s.replyTo m opCmp id, true)

/-- The snoops a request needs, as (agent, opcode), and the owner a forward goes to (Table 11.7, R329). -/
def State.snoopPlan (s : State) (m : CohMsg) : List (Nat × Nat) × Option Nat :=
  let e := s.dirEnt m.line
  let dev := s.sys.deviceId
  let hs := e.holders dev
  let others := hs.filter (fun h => h != m.src)
  let far := e.owner != m.src
  if s.lineGang m.line then
    if e.state ≠ .G ∨ far = false then ([], none)
    else if m.op = opRdShared then ([(e.owner, opGangRd)], some e.owner)
    else if m.op = opRdOwn ∨ m.op = opUpgrade then ([(e.owner, opGangOwn)], some e.owner)
    else if m.op = opRdNc then ([(e.owner, opSnpData)], none)
    else if m.op = opCmoClean then ([(e.owner, opSnpClean)], none)
    else if m.op = opCmoInval then ([(e.owner, opSnpDiscard)], none)
    else ([(e.owner, opSnpInv)], none)
  else
    let owned := e.state = .M ∨ e.state = .O
    if m.op = opRdShared then
      if far = false then ([], none)
      else if e.state = .E then ([(e.owner, opSnpShared)], none)
      else if e.state = .O ∨ (e.state = .M ∧ s.forwardMode = true) then ([(e.owner, opFwdShared)], some e.owner)
      else if e.state = .M then ([(e.owner, opSnpShared)], none)
      else ([], none)
    else if m.op = opRdOwn ∨ (m.op = opUpgrade ∧ hs.contains m.src = false) then
      if owned ∧ s.forwardMode = true ∧ far = true then
        ((e.owner, opFwdOwn) :: (others.filter (fun h => h != e.owner)).map (fun h => (h, opSnpInv)), some e.owner)
      else (others.map (fun h => (h, opSnpInv)), none)
    else if m.op = opUpgrade then (others.map (fun h => (h, opSnpInv)), none)
    else if m.op = opRdNc then (if owned then ([(e.owner, opSnpData)], none) else ([], none))
    else if m.op = opCmoClean then (if owned then ([(e.owner, opSnpClean)], none) else ([], none))
    else if m.op = opCmoInval then (hs.map (fun h => (h, opSnpDiscard)), none)
    else (hs.map (fun h => (h, opSnpInv)), none)

/-- A request that waits for room in the journal keeps its line busy (R62). -/
def State.stallReq (s : State) (m : CohMsg) : State :=
  let s := (s.openTxn m [] false).2
  ({ s with depot := { s.depot with stalled := s.depot.stalled ++ [m] } }).countStall

def isForward (op : Nat) : Bool := op == opFwdShared || op == opFwdOwn || op == opGangRd || op == opGangOwn

/-- Sends a transaction's snoops and forwards; a forward names the requester and the tracker (R318). -/
def State.sendPlan (s : State) (m : CohMsg) (n : Nat) (plan : List (Nat × Nat)) : State :=
  plan.foldl (fun s p =>
    if isForward p.2 then
      s.sendCoh { op := p.2, src := m.src, dst := p.1, txn := m.txn, aux := n, line := m.line, order := s.lineGang m.line
                  pd := !s.needsRecord m.line }
    else s.sendSnoop p.2 n m.line p.1) s

/-- A request of a host, a DMA channel or an engine, which reach host-owned image memory only (R27, R400). -/
def hostSide (a : Nat) : Bool := agentLoc a == locHost0 || agentLoc a == locHost0 + 1 || agentLoc a == locDma

/-- A request to a line without memory behind it: a host's read gets poison, another's completes without data, and a write
is discarded; one of a host raises a RECOVERABLE record (R27; log 33). -/
def State.unbackedReq (s : State) (m : CohMsg) : State :=
  let host := agentLoc m.src == locHost0 || agentLoc m.src == locHost0 + 1
  let s := if host then s.raise { severity := 2, source := 0x0007, address := m.line } else s
  if host && isRead m.op then s.givePoison m else s.replyTo m opCmp id

/-- Whether a request makes its sender a holder. -/
def caches (op : Nat) : Bool := op == opRdShared || op == opRdOwn || op == opUpgrade

/-- A request that needs an entry of a full directory set keeps its line busy until the victim's holders have answered, or
until a line of a set that is busy throughout is no longer so. -/
def State.awaitRoom (s : State) (m : CohMsg) : State := ((s.openTxn m [] false).2).dirRoom m.line (some m)

/-- Whether a full set has no entry that could go at once: every one is busy or has holders. -/
def State.roomTaken (s : State) (l : Nat) : Bool :=
  s.dirFull l && s.coh.dir.all (fun e => s.dirSetOf (e.1 * 64) != s.dirSetOf l || s.lineBusy (e.1 * 64)
    || !(e.2.holders s.sys.deviceId).isEmpty)

/-- Whether a line of another device's agent is one that the device may reach: image memory, a page of the Depot that was
granted to it, or the admitted copy of a route it takes part in (R22, R27, R86). -/
def State.peerMay (s : State) (dev l : Nat) : Bool :=
  !s.lineDepot l || (match s.linePage l with
    | some (_, p) => s.link.inbound.any (fun x => x.device == dev && x.obj == p.obj)
        || (s.routes.any (fun r => some r.key == p.key && r.key.home == dev))
    | none => s.routes.any (fun r => r.key.home == s.sys.deviceId && r.parts.contains dev
        && decide (r.copyLine s.sys.deviceId ≤ l) && decide (l < r.copyLine s.sys.deviceId + mib)))

/-- Whether a request may not reach a line: none backs it, or it lies in the Depot and is none of the requester's (R27). -/
def State.outOfReach (s : State) (m : CohMsg) : Bool :=
  !s.lineBacked m.line || (hostSide m.src && s.lineDepot m.line)
    || (agentDev m.src != s.sys.deviceId && !s.peerMay (agentDev m.src) m.line)

/-- A request whose line is not busy is taken up. -/
def State.startReq (s : State) (m : CohMsg) : State :=
  let l := m.line
  if caches m.op && !s.outOfReach m && !s.linePoisoned l && s.roomTaken l then s.awaitRoom m
  else
  let s := if isRead m.op || (m.op == opWrNc && m.mask != fullMask) then s.memRead l false else s
  if s.outOfReach m then s.unbackedReq m
  else if s.linePoisoned l && isRead m.op then s.givePoison m
  else
    let (plan, fwd) := s.snoopPlan m
    let first := m.op == opWrNc || (fwd.isSome && (m.op == opRdOwn || m.op == opUpgrade) && !s.lineGang l)
    match (if first then s.journalStep l else some s) with
    | none => s.stallReq m
    | some s =>
      if plan.isEmpty then
        let (s', ok) := s.grantLine m none
        if ok then s' else s'.stallReq m
      else
        let (n, s) := s.openTxn m (plan.map (fun p => p.1)) false
        let s := { s with coh := { s.coh with open_ := s.coh.open_.map (fun (t : Txn) =>
            if t.tracker = n ∧ t.line = l then { t with fwd := fwd } else t) } }
        s.sendPlan m n plan

/-- The port of a home that a requester's messages come in by (R323). -/
def State.homePort (s : State) (src : Nat) : Nat :=
  let loc := agentLoc src
  if agentDev src ≠ s.sys.deviceId then 3 + (s.arrivalPort (agentDev src)).getD 0
  else if locL2 loc then (if loc ≤ 8 then 0 else 1)
  else if loc = locHost0 ∨ loc = locHost0 + 1 then 7
  else 2

/-- The clock in which a queued request arrived. -/
def State.arrivedAt (s : State) (m : CohMsg) : Option Nat :=
  (s.coh.arrived.find? (fun x => x.1 == m.src && x.2.1 == m.txn)).map (fun x => x.2.2)

/-- The port that a line's home serves first is the one after a winner's (R323). -/
def State.turnPort (s : State) (l src : Nat) : State :=
  { s with coh := { s.coh with portPtr := s.coh.portPtr.put (s.homeLoc l) ((s.homePort src + 1) % 8) } }

/-- Takes the next request of a line off the queue: the oldest, and among those that came in its clock the first port at
or after the home's pointer, which then moves on (R322, R323). -/
def State.takeQueued (s : State) (l : Nat) : Option (CohMsg × State) :=
  match s.coh.queued.find? (fun m => m.line == l) with
  | none => none
  | some m =>
    let same := s.coh.queued.filter (fun x => x.line == l && s.arrivedAt x == s.arrivedAt m)
    let p := (s.coh.portPtr.find (s.homeLoc l)).getD 0
    let far (x : CohMsg) : Nat := (s.homePort x.src + 8 - p) % 8
    let w := same.foldl (fun b x => if far x < far b then x else b) m
    let s := { s with coh := { s.coh with
      queued := s.coh.queued.erase w
      arrived := s.coh.arrived.filter (fun x => !(x.1 == w.src && x.2.1 == w.txn)) } }
    some (w, if 1 < same.length then s.turnPort l w.src else s)

/-- Serves the queued requests of a line in queue order until one keeps it busy (fuel: the queue). -/
def State.serveQueue (s : State) (l : Nat) : Nat → State
  | 0 => s
  | f + 1 =>
    if s.lineBusy l then s
    else
      match s.takeQueued l with
      | none => s
      | some (m, s) => (s.startReq m).serveQueue l f

/-- A transaction ends: queued requests of its line are served and freed entries go to tokens. -/
def State.endTxn (s : State) (tracker line : Nat) : State :=
  let s := { s with coh := { s.coh with open_ := s.coh.open_.filter (fun x => !(x.tracker == tracker && x.line == line)) } }
  let s := s.serveQueue line (s.coh.queued.length + 1)
  s.grantTokens (s.homeLoc line) s.coh.tokens.length

/-- A request that kept its line busy while it waited starts again. -/
def State.restartReq (s : State) (m : CohMsg) (t : Txn) : State :=
  let s := { s with coh := { s.coh with open_ := s.coh.open_.filter (fun x => !(x.tracker == t.tracker && x.line == t.line)) } }
  let s := (s.startReq m).serveQueue m.line (s.coh.queued.length + 1)
  s.grantTokens (s.homeLoc m.line) s.coh.tokens.length

/-- Closes a transaction; the request that waited for the entry of a back-invalidated line goes on (R315). -/
def State.closeOne (s : State) (t : Txn) : State :=
  let s := s.endTxn t.tracker t.line
  match t.resume with
  | none => s
  | some m =>
    match s.coh.open_.find? (fun x => x.line == m.line && x.req == m && x.waiting.isEmpty) with
    | none => s
    | some x => s.restartReq m x

/-- A transaction closes; a request that found every entry of its set busy tries again (R315). -/
def State.closeTxn (s : State) (t : Txn) : State :=
  let s := s.closeOne t
  match s.coh.open_.find? (fun x => x.waiting.isEmpty && caches x.req.op && !s.depot.stalled.contains x.req
      && !(s.coh.open_.any (fun y => y.resume == some x.req))) with
  | none => s
  | some x => if s.dirSetOf x.line = s.dirSetOf t.line then s.restartReq x.req x else s

/-- A request joins the queue of a busy line; the transaction that was taken before it in one clock has won its port's turn
(R323; log 31). -/
def State.queueReq (s : State) (m : CohMsg) : State :=
  let s' := { s with coh := { s.coh with
    queued := s.coh.queued ++ [m], arrived := s.coh.arrived ++ [(m.src, m.txn, s.now)] } }
  let s' := match s.coh.open_.find? (fun t => t.line == m.line && t.since == s.now && !t.backInv) with
    | some t => s'.turnPort m.line t.req.src
    | none => s'
  s'.oinc 0x6100 5 1

/-- A request arrives at its home (R322); one with a token frees what its reserved entry does not need (R324). -/
def State.homeRequest (s : State) (m : CohMsg) : State :=
  let s' := if m.tokenValid then s.dropToken m.dst m.src m.token else s
  if s.lineBusy m.line then
    if m.tokenValid then (s'.queueReq m).grantTokens (agentLoc m.dst) s.coh.tokens.length
    else if (s.coh.queued.filter (fun q => q.line == m.line)).length < 4 then s.queueReq m
    else s.retryReq m
  else if m.tokenValid then
    let s := s'.startReq m
    s.grantTokens (agentLoc m.dst) s.coh.tokens.length
  else if 256 ≤ s.trackersUsed (agentLoc m.dst) then s.retryReq m
  else s.startReq m

/-- TOKEN_RETURN: the reserved entry frees. -/
def State.tokenReturned (s : State) (m : CohMsg) : State :=
  (s.dropToken m.dst m.src m.token).grantTokens (agentLoc m.dst) s.coh.tokens.length

/-! ## The home: answers (R326, R329, R331) -/

/-- Every answer of a transaction is in. -/
def State.finishTxn (s : State) (t : Txn) : State :=
  if t.backInv then
    let s := match t.data with
      | some d => s.lineWrite t.line d
      | none => s
    (s.setDir t.line DirEnt.empty).closeTxn t
  else if t.moved && t.data.isNone then
    let a := t.req.src
    let e := s.dirEnt t.line
    let e' : DirEnt :=
      if s.lineGang t.line then { DirEnt.empty with state := .G, owner := a }
      else if t.req.op = opRdShared then { e with state := .O, owner := t.fwd.getD 0 }.add a
      else { DirEnt.empty with state := .M, owner := a }.add a
    (s.dirTouch t.line e').closeTxn t
  else
    let (s, ok) := s.grantLine t.req t.data
    if ok then s.closeTxn t
    else
      let s := { s with coh := { s.coh with open_ := s.coh.open_.map (fun (x : Txn) =>
          if x.tracker = t.tracker ∧ x.line = t.line then { x with waiting := [] } else x) } }
      ({ s with depot := { s.depot with stalled := s.depot.stalled ++ [t.req] } }).countStall

/-- What an answer's STATE leaves of its sender in the directory. -/
def DirEnt.answered (e : DirEnt) (dev a : Nat) (st : LineState) : DirEnt :=
  match st with
  | .I => e.release dev a
  | .S => if e.owner = a ∧ (e.state = .M ∨ e.state = .O ∨ e.state = .E) then { e with state := .S, owner := 0 } else e
  | .O => if e.owner = a ∧ e.state = .M then { e with state := .O } else e
  | _ => e

/-- Takes an answer into its transaction. -/
def State.takeAnswer (s : State) (m : CohMsg) (t : Txn) (data : Option (List Byte)) (stays moved : Bool) : State :=
  let t' := { t with
    waiting := if stays then t.waiting else t.waiting.filter (fun a => a != m.src)
    data := if t.stale then none else data.or t.data
    answered := t.answered ++ [m.src]
    moved := t.moved || moved }
  let s := { s with coh := { s.coh with open_ := s.coh.open_.map (fun (x : Txn) =>
      if x.tracker = t.tracker ∧ x.line = t.line then t' else x) } }
  if t'.waiting.isEmpty then s.finishTxn t' else s

/-- A snoop answer, with or without the line, reaches the home. -/
def State.homeAnswer (s : State) (m : CohMsg) : State :=
  let dup := m.evicting && s.isApplied m.src m.aux
  let s := if dup then
      { s with coh := { s.coh with applied := s.coh.applied.filter (fun p => p != (m.src, m.aux)) } }.oinc 0x6100 7 1
    else if m.evicting then { s with coh := { s.coh with applied := s.coh.applied ++ [(m.src, m.aux)] } }
    else s
  match s.txnFor m with
  | none => s
  | some t =>
    let e := s.dirEnt m.line
    let lost := m.op == opAckLost && e.owner == m.src && (e.state == .M || e.state == .O)
    let data := if m.op = opSnpDataRsp ∧ dup = false then some m.data else none
    let st := if m.op == opAckLost then LineState.I else lineOfCode m.state
    let gang := s.lineGang m.line && t.fwd == some m.src && !m.evicting
    let passes := gang && m.op == opSnpDataRsp
    let s := if passes || m.op == opOwnerMoved then s else s.setDir m.line (e.answered s.sys.deviceId m.src st)
    let s := if lost || (m.op == opSnpDataRsp && m.poison && !dup) then s.poison m.line else s
    let moved := t.fwd == some m.src && (m.op == opOwnerMoved
      || (m.op == opAck && !m.evicting && !s.lineGang m.line))
    let more := !s.forwardMode && gang && ((m.op == opSnpDataRsp && !t.moved) || (m.op == opOwnerMoved && t.data.isNone))
    s.takeAnswer m t data more moved

/-! ## The home: write-backs (R326, R330, R331) -/

def State.ackWb (s : State) (m : CohMsg) : State := s.replyTo m opWbAck id

/-- WB_DIRTY at the home. -/
def State.homeWb (s : State) (m : CohMsg) : State :=
  let e := s.dirEnt m.line
  let owns := e.owner == m.src && (e.state == .M || e.state == .O || e.state == .G)
  if s.isApplied m.src m.txn then
    ({ s with coh := { s.coh with applied := s.coh.applied.filter (fun p => p != (m.src, m.txn)) } }.oinc 0x6100 7 1).ackWb m
  else if !owns then s.ackWb m
  else if m.poison then
    let s := s.setDir m.line (e.release s.sys.deviceId m.src)
    (if s.discards m.line then s else s.poison m.line).ackWb m
  else
    let s := if s.discards m.line then s else (s.lineWrite m.line m.data).slcAccess m.line false
    let awaited := s.coh.open_.any (fun t => t.line == m.line && t.waiting.contains m.src)
    let s := if awaited then { s with coh := { s.coh with applied := s.coh.applied ++ [(m.src, m.txn)] } } else s
    let keeps := lineOfCode m.state = .S
    let e' := if keeps then (if e.state = .G then e else { e with state := .S, owner := 0 })
      else e.release s.sys.deviceId m.src
    (s.setDir m.line e').ackWb m

/-- EVICT_CLEAN at the home; one that an answer has overtaken is already applied. -/
def State.homeEvict (s : State) (m : CohMsg) : State :=
  (s.setDir m.line ((s.dirEnt m.line).release s.sys.deviceId m.src)).ackWb m

/-- PD_SET: the bit of R317, and CHANGED of a migrating page. -/
def State.homePdSet (s : State) (m : CohMsg) : State := (s.setPd m.line).ackWb m

/-! ## Holders (R327, R331) -/

/-- What an agent of this device holds of a line: state, dirty, bytes, pitch-dirty tag bit. -/
def State.heldBy (s : State) (a l : Nat) : LineState × Bool × List Byte × Bool :=
  let ridges := if locL2 (agentLoc a) then [agentLoc a] else (s.remoteEnt l).1
  match ridges.findSome? (fun r => s.l2Way r l) with
  | none => (.I, false, zeros 64, false)
  | some w =>
    (w.state, w.dirty || w.state == .M || w.state == .O,
     if lineDev l = s.sys.deviceId then s.lineRead l else fitTo 64 w.data, w.pd)

/-- What an agent keeps of a line from now on. -/
def State.keepAs (s : State) (a l : Nat) (st : LineState) : State :=
  let ridges := if locL2 (agentLoc a) then [agentLoc a] else (s.remoteEnt l).1
  let s := if st = .I then { s with cache := { s.cache with l1i := s.cache.l1i.map (fun p =>
      (p.1, p.2.map (fun w => if w.holds l then { w with state := .I } else w))) } } else s
  let s := ridges.foldl (fun s r =>
    if st = .I then s.dropL2 r l
    else
      let dirty := st == .M || st == .O
      (if dirty then s else s.cleanL1 r l).mapL2 r l (fun w => { w with state := st, dirty := dirty })) s
  let s := if st = .I then { s with coh := { s.coh with readBuf := s.coh.readBuf.del l } } else s
  if locL2 (agentLoc a) then s
  else s.setRemote l (if st = .I then ([], .I) else ((s.remoteEnt l).1, st))

/-- Whether a fenced way may have held the line, in the L2s that the proxy's entry names (R308, R316). -/
def State.fencedSet (s : State) (a l : Nat) : Bool :=
  if locL2 (agentLoc a) then (waysAt s.cache.l2 (l2Key (agentLoc a) l) 16).any (fun w => w.fenced)
  else (s.remoteEnt l).1.any (fun r => (waysAt s.cache.l2 (l2Key r l) 16).any (fun w => w.fenced))

/-- The state a snoop leaves, from the state it finds. -/
def afterSnoop (op : Nat) (st : LineState) : LineState :=
  if op = opSnpShared ∨ op = opSnpClean then (if st = .I then .I else .S)
  else if op = opSnpData then st
  else if op = opFwdShared then (if st = .M ∨ st = .O then .O else st)
  else .I

/-- A holder answers a snoop or forward for a line without a fill outstanding. -/
def State.answerSnoop (s : State) (m : CohMsg) : State :=
  let a := m.dst
  let l := m.line
  let fwd := isForward m.op
  let home := if fwd then s.homeAgent l else m.src
  let tn := if fwd then m.aux else m.txn
  let (st, dirty, data, pd) := s.heldBy a l
  let reply (s : State) (op : Nat) (x : LineState) (d : List Byte) : State :=
    s.sendCoh { op := op, src := a, dst := home, txn := tn, line := l, state := lineCode x, data := d, pd := pd
                order := m.order }
  match s.coh.wbBuf.find? (fun w => w.agent == a && w.line == l && !(w.data.isEmpty && w.keeps == .M)) with
  | some w =>
    if w.data.isEmpty then
      (s.keepAs a l .I).sendCoh { op := opAck, src := a, dst := home, txn := tn, line := l, order := m.order }
    else
      let x := if afterSnoop m.op w.keeps = .I then LineState.I else w.keeps
      (s.keepAs a l x).sendCoh { op := opSnpDataRsp, src := a, dst := home, txn := tn, aux := w.txn, evicting := true
                                 poison := w.poison, order := m.order, line := l, state := lineCode x, data := w.data }
  | none =>
    if st = .I then
      if s.fencedSet a l then s.sendCoh { op := opAckLost, src := a, dst := home, txn := tn, line := l, order := m.order }
      else reply s opAck .I []
    else
      let x := afterSnoop m.op st
      let s := s.keepAs a l x
      if m.op = opSnpData then reply s opSnpDataRsp st data
      else if m.op = opFwdShared ∨ m.op = opFwdOwn then
        let s := s.sendCoh { op := opData, src := a, dst := m.src, txn := m.txn, line := l, data := data, pd := m.pd
                             state := if m.op = opFwdShared then 1 else 4 }
        reply s opAck x []
      else if m.op = opGangRd ∨ m.op = opGangOwn then
        let s := if s.forwardMode then
            s.sendCoh { op := opData, src := a, dst := m.src, txn := m.txn, line := l, data := data, pd := pd
                        order := true, state := if m.op = opGangOwn ∨ dirty = true then 4 else 1 }
          else reply s opSnpDataRsp .I data
        reply s opOwnerMoved .I []
      else if dirty && m.op != opSnpDiscard then reply s opSnpDataRsp x data
      else reply s opAck x []

/-- A snoop or forward arrives; one that meets an outstanding fill, or a fill that a strand has not yet used, is held
(R327). -/
def State.holderSnoop (s : State) (m : CohMsg) : State :=
  let fills (r : OpenReq) : Bool := r.msg.src == m.dst && r.msg.line == m.line
    && (r.msg.op == opRdShared || r.msg.op == opRdOwn)
  match s.coh.heldSnoops.find? (fun x => x.2.dst == m.dst && x.2.line == m.line) with
  | some x => { s with coh := { s.coh with heldSnoops := s.coh.heldSnoops ++ [(x.1, m)] } }
  | none =>
  if s.coh.requests.any (fun r => fills r) then
    { s with coh := { s.coh with requests := s.coh.requests.map (fun (r : OpenReq) =>
        if fills r then { r with held := r.held ++ [m] } else r) } }
  else s.answerSnoop m

/-! ## Requesters (R321, R324) -/

def State.dropReq (s : State) (r : OpenReq) : State :=
  { s with coh := { s.coh with requests := s.coh.requests.filter (fun x =>
      !(x.msg.src == r.msg.src && x.msg.txn == r.msg.txn)) } }

/-- The physical ridge a request fills, if any. -/
def State.fillRidge? (s : State) : Purpose → Option Nat
  | .fill r _ => some r
  | .write r _ _ => some r
  | .strand st => some (s.physRidge st.ridge.val)
  | _ => none

/-- What stands against a read that DATA answers, as a status (R332, R390). -/
def readStatus (poison : Bool) : Nat := if poison then stPoisonRead else stOk

/-- A line that a request brought leaves at once an L2 that does not take it, and its home learns so (R314). -/
def State.passLine (s : State) (ridge l : Nat) (st : LineState) (data : List Byte) : State :=
  if (s.l2Way ridge l).isSome then s
  else if lineDev l = s.sys.deviceId then s.setDir l ((s.dirEnt l).release s.sys.deviceId (s.agent ridge))
  else if !(s.remoteEnt l).1.isEmpty then s
  else if st = .M then s.proxyWb opWbDirty l data .I
  else s.proxyWb opEvictClean l [] .I

/-- Keeps what a read of a line answered until the next tick (log 17). -/
def State.bufferLine (s : State) (l st : Nat) (data : List Byte) : State :=
  { s with coh := { s.coh with readBuf := s.coh.readBuf.put l (st, data) } }

/-- A strand no longer waits for a line. -/
def State.wakeStrand (s : State) (st : StrandRef) (l : Nat) : State :=
  let k := st.ridge.val * 8 + st.strand.val
  match s.strands.find k with
  | some t => if t.waitLine = some l then { s with strands := s.strands.put k { t with waitLine := none } } else s
  | none => s

/-- The route that a fill is for, for its partition (R298). -/
def State.strandRoute (s : State) : Purpose → Option RouteKey
  | .fill _ k => k
  | .write _ k _ => some k
  | .strand st => (s.strands.find (st.ridge.val * 8 + st.strand.val)).bind (fun t => t.task.map (fun x => x.key))
  | _ => none

/-- A line or a completion reaches the requester that asked for it. -/
def State.deliver (s : State) (r : OpenReq) (st : LineState) (status : Nat) (pd : Bool) (data : List Byte) : State :=
  let l := r.msg.line
  let s := s.dropReq r
  let s := match s.fillRidge? r.purpose with
    | none => s
    | some ridge =>
      if status ≠ stOk ∨ st = .I then s
      else
        let far := lineDev l ≠ s.sys.deviceId
        let data := match r.purpose with
          | .write _ _ b => b
          | _ => data
        let s := s.fillL2 ridge l (s.strandRoute r.purpose) st (st == .M) false pd (if far then data else [])
        if far ∧ (s.l2Way ridge l).isSome = true then
          let e := s.remoteEnt l
          s.setRemote l (if e.1.contains ridge then e.1 else e.1 ++ [ridge], st)
        else s.passLine ridge l st data
  match r.purpose with
  | .fill ridge _ => if (s.l2Way ridge l).isSome then s else s.bufferLine l status data
  | .write _ _ b =>
    if status = stOk ∧ st = .M ∨ status = stBusError then s.ackDone
    else (s.request { op := opWrNc, src := 0, dst := 0, txn := 0, line := l, mask := fullMask, data := b } locDepot .depot).2
  | .strand x =>
    let s := if (s.l2Way (s.physRidge x.ridge.val) l).isSome then s else s.bufferLine l status data
    s.wakeStrand x l
  | .routeCopy k off => s.copyLineArrives k off status data
  | .cxl addr => if r.msg.op = opWrNc then s.emit (.cxlDone addr) else s.emit (.cxlData addr data (status != stOk))
  | .engine _ => if r.msg.op = opWrNc then s else s.bufferLine l status data
  | .depot => s.outboundDone r.msg.txn
  | .unit => s.bufferLine l status data
  | .maint => ({ s with cache := { s.cache with cmoBusy := false } }).oset 0xF010 3 2
  | .dropped => s

/-- The snoops that waited for a fill: a strand uses the line first, and a unit's read finds it in its buffer (R327). -/
def State.afterFill (s : State) (r : OpenReq) (status : Nat) (data : List Byte) : State :=
  match r.purpose with
  | .strand st =>
    let mine := r.held.map (fun m => (st.ridge.val * 8 + st.strand.val, m))
    { s with coh := { s.coh with heldSnoops := s.coh.heldSnoops ++ mine } }
  | .fill _ _ =>
    let s := r.held.foldl State.answerSnoop s
    if r.held.isEmpty then s else s.bufferLine r.msg.line status data
  | _ => r.held.foldl State.answerSnoop s

/-- A strand has used the lines that came for it, or needs them no longer: the snoops that it held are answered. -/
def State.answerHeld (s : State) (strand : Nat) : State :=
  let mine := s.coh.heldSnoops.filter (fun x => x.1 == strand)
  mine.foldl (fun s x => s.answerSnoop x.2)
    { s with coh := { s.coh with heldSnoops := s.coh.heldSnoops.filter (fun x => x.1 != strand) } }

/-- Snoops that a strand held are answered once its task is gone. -/
def State.flushHeld (s : State) : State :=
  ((s.coh.heldSnoops.map (fun x => x.1)).eraseDups.filter (fun k =>
    ((s.strands.find k).bind (fun t => t.task)).isNone)).foldl State.answerHeld s

/-- DATA arrives: the fill, then the snoops that waited for it. -/
def State.dataArrives (s : State) (m : CohMsg) : State :=
  match s.reqFor m with
  | none => s
  | some r =>
    let s := s.deliver r (lineOfCode m.state) (readStatus m.poison) m.pd (fitTo 64 m.data)
    s.afterFill r (readStatus m.poison) (fitTo 64 m.data)

/-- CMP arrives; a read that it answers found no memory (R27; log 33). -/
def State.cmpArrives (s : State) (m : CohMsg) : State :=
  match s.reqFor m with
  | none => s
  | some r =>
    let data := match s.fillRidge? r.purpose with
      | some ridge => ((s.l2Way ridge r.msg.line).map (fun w => w.data)).getD []
      | none => []
    let dead := isRead r.msg.op && m.state == 0
    let status := if dead then stBusError else stOk
    let data := if dead then zeros 64 else data
    ((s.deliver r (lineOfCode m.state) status m.pd data).afterFill r status data).pumpOutbound

/-- RETRY arrives: the request keeps its token until GRANT. -/
def State.retryArrives (s : State) (m : CohMsg) : State :=
  { s with coh := { s.coh with requests := s.coh.requests.map (fun (r : OpenReq) =>
      if r.msg.src = m.dst ∧ r.msg.txn = m.txn then { r with token := some m.token, sent := false } else r) } }

/-- Whether a request is still wanted: a strand's is not once the strand waits for it no longer (R267). -/
def State.wanted (s : State) (r : OpenReq) : Bool :=
  match r.purpose with
  | .strand st => ((s.strands.find (st.ridge.val * 8 + st.strand.val)).map (fun t =>
      t.waitLine == some r.msg.line)).getD false
  | _ => true

/-- Requests of an agent to a home that waited for its token go out. -/
def State.sendHeldReqs (s : State) (src home : Nat) : State :=
  let now := s.coh.requests.filter (fun r => r.msg.src == src && r.msg.dst == home && !r.sent && r.token.isNone)
  let s := { s with coh := { s.coh with requests := s.coh.requests.map (fun (r : OpenReq) =>
      if r.msg.src = src ∧ r.msg.dst = home ∧ r.token = none then { r with sent := true } else r) } }
  now.foldl (fun s r => s.sendCoh r.msg) s

/-- GRANT arrives: the request is sent again with its token, or the token goes back. -/
def State.grantArrives (s : State) (m : CohMsg) : State :=
  match s.coh.requests.find? (fun r => r.msg.src == m.dst && r.msg.dst == m.src && r.token == some m.token) with
  | none => s
  | some r =>
    let s := { s with coh := { s.coh with requests := s.coh.requests.map (fun (x : OpenReq) =>
        if x.msg.src = r.msg.src ∧ x.msg.dst = r.msg.dst ∧ x.token = r.token ∧ x.msg.txn ≠ r.msg.txn then
          { x with token := none, sent := false } else x) } }
    let s := if s.wanted r then
        let s := { s with coh := { s.coh with requests := s.coh.requests.map (fun (x : OpenReq) =>
            if x.msg.src = r.msg.src ∧ x.msg.txn = r.msg.txn then { x with token := none, sent := true } else x) } }
        s.sendCoh { r.msg with tokenValid := true, token := m.token }
      else
        (s.dropReq r).sendCoh { op := opTokenReturn, src := r.msg.src, dst := r.msg.dst, txn := r.msg.txn
                                line := r.msg.line, tokenValid := true, token := m.token }
    s.sendHeldReqs r.msg.src r.msg.dst

/-- WB_ACK arrives: the holder frees its buffer; a participant's part may be done with it (R66). -/
def State.wbAcked (s : State) (m : CohMsg) : State :=
  ({ s with coh := { s.coh with wbBuf := s.coh.wbBuf.filter (fun w => !(w.agent == m.dst && w.txn == m.txn)) } } :
    State).ackDone

/-! ## Every message by its opcode -/

/-- A message that is no fault and is addressed here takes its effect. -/
def State.cohEffect (s : State) (m : CohMsg) : State :=
  if s.coh.dead.contains (agentDev m.src) || (agentDev m.src == s.sys.deviceId && s.coh.fencedL2.contains (agentLoc m.src)) then s
  else if m.op = opTokenReturn then s.tokenReturned m
  else if m.op ≤ 0x08 then s.homeRequest m
  else if m.op ≤ 0x28 then s.holderSnoop m
  else if m.op = opRetry then s.retryArrives m
  else if m.op = opGrant then s.grantArrives m
  else if m.op = opCmp then s.cmpArrives m
  else if m.op = opWbAck then s.wbAcked m
  else if m.op = opData then s.dataArrives m
  else if m.op = opWbDirty then s.homeWb m
  else if m.op = opEvictClean then s.homeEvict m
  else if m.op = opPdSet then s.homePdSet m
  else s.homeAnswer m

/-- A faulting message changes nothing: it is counted, and on the Omuth Link it is a violation of the port that its source's
messages come in by (R338, R340, R361). -/
def State.badCoh (s : State) (cause : Nat) (m : CohMsg) : State := s.dropCoh.violationFrom cause m.op (agentDev m.src)

/-- A coherence message arrives: a fault changes nothing and is counted (R338), one for another device passes on
unchanged (R354). -/
def State.cohTake (s : State) (m : CohMsg) : State :=
  match s.cohFault m with
  | some c => s.badCoh c m
  | none => if agentDev m.dst = s.sys.deviceId then s.cohEffect m else s.send (.coh m)

/-- The message of a row: another opcode than the row's is a fault. -/
def State.cohRow (s : State) (m : CohMsg) (op : Nat) : Res :=
  .next (if m.op = op then s.cohTake m else s.badCoh (if (cohClass m.op).isSome then 0x04 else 0x02) m)

/-- Requests stalled on the journal go on once space frees (R62). -/
def State.releaseStalled (s : State) : State :=
  let waiting := s.depot.stalled
  let s := { s with depot := { s.depot with stalled := [] } }
  waiting.foldl (fun s m =>
    match s.coh.open_.find? (fun t => t.line == m.line && t.req == m && t.waiting.isEmpty) with
    | none => s
    | some t =>
      if s.needsRecord m.line && decide (s.journalRoom ≤ s.depot.journal.length) then
        { s with depot := { s.depot with stalled := s.depot.stalled ++ [m] } }
      else
        s.restartReq m t) s

/-! ## The rows -/

def execRdShared (m : CohMsg) (s : State) : Res := s.cohRow m opRdShared
def execRdOwn (m : CohMsg) (s : State) : Res := s.cohRow m opRdOwn
def execUpgrade (m : CohMsg) (s : State) : Res := s.cohRow m opUpgrade
def execRdNc (m : CohMsg) (s : State) : Res := s.cohRow m opRdNc
def execWrNc (m : CohMsg) (s : State) : Res := s.cohRow m opWrNc
def execCmoClean (m : CohMsg) (s : State) : Res := s.cohRow m opCmoClean
def execCmoCleaninval (m : CohMsg) (s : State) : Res := s.cohRow m opCmoCleanInval
def execCmoInval (m : CohMsg) (s : State) : Res := s.cohRow m opCmoInval
def execTokenReturn (m : CohMsg) (s : State) : Res := s.cohRow m opTokenReturn
def execSnpShared (m : CohMsg) (s : State) : Res := s.cohRow m opSnpShared
def execSnpInv (m : CohMsg) (s : State) : Res := s.cohRow m opSnpInv
def execSnpData (m : CohMsg) (s : State) : Res := s.cohRow m opSnpData
def execSnpClean (m : CohMsg) (s : State) : Res := s.cohRow m opSnpClean
def execFwdShared (m : CohMsg) (s : State) : Res := s.cohRow m opFwdShared
def execFwdOwn (m : CohMsg) (s : State) : Res := s.cohRow m opFwdOwn
def execSnpDiscard (m : CohMsg) (s : State) : Res := s.cohRow m opSnpDiscard
def execGangRd (m : CohMsg) (s : State) : Res := s.cohRow m opGangRd
def execGangOwn (m : CohMsg) (s : State) : Res := s.cohRow m opGangOwn
def execCohAck (m : CohMsg) (s : State) : Res := s.cohRow m opAck
def execAckLost (m : CohMsg) (s : State) : Res := s.cohRow m opAckLost
def execCohRetry (m : CohMsg) (s : State) : Res := s.cohRow m opRetry
def execCohGrant (m : CohMsg) (s : State) : Res := s.cohRow m opGrant
def execCohCmp (m : CohMsg) (s : State) : Res := s.cohRow m opCmp
def execWbAck (m : CohMsg) (s : State) : Res := s.cohRow m opWbAck
def execOwnerMoved (m : CohMsg) (s : State) : Res := s.cohRow m opOwnerMoved
def execCohData (m : CohMsg) (s : State) : Res := s.cohRow m opData
def execSnpDataRsp (m : CohMsg) (s : State) : Res := s.cohRow m opSnpDataRsp
def execWbDirty (m : CohMsg) (s : State) : Res := s.cohRow m opWbDirty
def execEvictClean (m : CohMsg) (s : State) : Res := s.cohRow m opEvictClean
def execPdSet (m : CohMsg) (s : State) : Res := s.cohRow m opPdSet

end Sys2Proof.Machine
end

