-- ==== Sys2Proof/Machine/Scan.lean ====
section
/-! DEFINITION. Tasks of SCAN, FILTER and PROJECT stages (R97, R121 to R146). -/
namespace Sys2Proof.Machine

/-- The rows `first` to `first + count - 1` that a block shares with rows `lo` to `lo + n - 1`: start and count. -/
def BlockEnt.share (e : BlockEnt) (lo n : Nat) : Nat × Nat :=
  let a := max lo e.first
  let z := min (lo + n) (e.first + e.rows)
  (a, z - a)

/-- The blocks of a list that hold rows of a range. -/
def blocksOver (bl : List BlockEnt) (lo n : Nat) : List BlockEnt :=
  bl.filter (fun e => decide (0 < (e.share lo n).2))

/-- Whether any row of a range is still selected. -/
def anySel (sel : List Bool) (lo a n : Nat) : Bool := ((sel.drop (a - lo)).take n).any id

/-- Adds a charge of a SCAN stage (R130). -/
def State.charge (s : State) (k : RouteKey) (stage bytes : Nat) : State :=
  let s := s.work k (fun w => { w with charges := w.charges.put stage ((w.charges.find stage).getD 0 + bytes) })
  s.oinc 0x3010 6 bytes

/-- Inflated bytes a stage may still be charged. -/
def State.chargeLeft (s : State) (k : RouteKey) (d : RouteDesc) (stage : Nat) : Nat :=
  (d.stage stage).inflateLimit
    - (((s.route? k).bind (fun r => r.work.charges.find stage)).getD 0)

/-! ### Reading blocks -/

/-- A read by an SCN; what it took from memory passes the SLC as a stream (R120). -/
def TRes.ofScan {α : Type} (s : State) (ranges : α → List (Nat × Nat)) (r : Rd α) : TRes α :=
  match r with
  | .ok a => .ok a (s.streamRanges (ranges a))
  | .bad st ad => .bad [(st, ad)] s
  | .need l => .need l

/-- The dictionary of a route's column in a ridge's buffer (R119). -/
def State.dictIn (s : State) (k : RouteKey) (ridge stage col : Nat) : Option (List Byte) :=
  (((s.sched.dicts.find ridge).getD []).find? (fun e => e.key == k && e.stage == stage && e.col == col)).map
    (fun e => e.bytes)

/-- Drops the oldest dictionaries until the rest fits a number of bytes (fuel: the list). -/
def fitDicts (n : Nat) : List DictEnt → List DictEnt
  | [] => []
  | e :: l => if sumNat ((e :: l).map (fun x => x.bytes.length)) ≤ n then e :: l else fitDicts n l

/-- A dictionary goes into a ridge's buffer of 256 KiB; the oldest ones give way (R119; log 18). -/
def State.dictLoad (s : State) (k : RouteKey) (ridge stage col : Nat) (b : Option (List Byte)) : State :=
  match b with
  | none => s
  | some b =>
    let l := fitDicts (262144 - b.length) ((s.sched.dicts.find ridge).getD [])
    { s with sched := { s.sched with
      dicts := s.sched.dicts.put ridge (l ++ [{ key := k, stage := stage, col := col, bytes := b }]) } }

/-- The lines of a block that a peer holds, past which a second read goes (R124). -/
def State.farLines (s : State) (e : BlockEnt) (h : BlockHdr) : List Nat :=
  ((linesOf (refAddr e.ref) (64 + h.payload)).filter (fun a => imgDev a != s.sys.deviceId)).map imgLine

/-- Whether a block is in its second read. -/
def State.isReread (s : State) (k : RouteKey) (e : BlockEnt) : Bool := s.sched.rereads.contains (k, e.ref)

/-- A second read is over; one whose CRC matched is counted, whatever the later checks find (R124). -/
def State.rereadDone (s : State) (k : RouteKey) (e : BlockEnt) (matched : Bool) : State :=
  if s.isReread k e then
    let s := { s with sched := { s.sched with rereads := s.sched.rereads.erase (k, e.ref) } }
    if matched then s.oinc 0x3010 4 1 else s
  else s

/-- What a block that fails a check ends in: a CRC mismatch of a peer's block is read once more past the remote-line
buffer. A second read of this device's memory yields the same bytes, since memory holds the value of every line
(R124; log 31). -/
def State.blockFails {α : Type} (s : State) (k : RouteKey) (e : BlockEnt) (h : BlockHdr) (st : Nat) : TRes α :=
  if st = stBlockCrc ∧ (s.farLines e h).isEmpty = false ∧ s.isReread k e = false then .again (.reread e.ref (s.farLines e h))
  else .bad [(st, refAddr e.ref)] (s.rereadDone k e (h.check1 && st != stBlockCrc))

/-- Where a column's blocks are read for: route, stage, logical ridge and input position. -/
structure ScanCol where
  key : RouteKey
  desc : RouteDesc
  stage : Nat
  ridge : Nat
  pos : Nat
  col : Column

/-- The lines of a dictionary that a block's codes name: those of a large one pass through the L2 of the ridge, those of
another go to the buffer as a stream (R119, R120). -/
def State.dictLines (s : State) (x : ScanCol) (rs : List (Nat × Nat)) : State :=
  if x.col.bigDict then
    (rs.flatMap (fun r => linesOf r.1 r.2)).foldl (fun s a => s.l2Pass (s.physRidge x.ridge) (imgLine a)) s
  else s.streamRanges rs

/-- One block of a column, read and decoded whole. -/
def State.scanBlock (s : State) (x : ScanCol) (e : BlockEnt) : TRes (List Slot) :=
  (TRes.ofScan s (fun b => b.ranges e) (s.readBlock x.col e (s.chargeLeft x.key x.desc x.stage)
      (s.dictIn x.key x.ridge x.stage x.pos))).andThen (fun rb s =>
    let s := if rb.payload then s.oinc 0x3010 2 1 else s
    let s := if rb.charge = 0 then s else s.charge x.key x.stage rb.charge
    let s := (s.dictLines x rb.res.ranges).dictLoad x.key x.ridge x.stage x.pos rb.res.loaded
    match rb.res.res, rb.bad with
    | .error st, some ad => .bad [(st, ad)] (s.rereadDone x.key e true)
    | .error st, none => s.blockFails x.key e rb.hdr st
    | .ok slots, _ => .ok slots (s.rereadDone x.key e true))

/-- The slots of a column over rows `lo` to `lo + n - 1`, read from the blocks that hold a selected row. -/
def State.scanBlocks (s : State) (x : ScanCol) (lo n : Nat) (sel : List Bool) : List BlockEnt → TRes (List Slot)
  | [] => .ok [] s
  | e :: l =>
    let sh := e.share lo n
    (if anySel sel lo sh.1 sh.2 then
        (s.scanBlock x e).andThen (fun slots s => .ok ((slots.drop (sh.1 - e.first)).take sh.2) s)
      else .ok (List.replicate sh.2 none) s).andThen
      (fun a s => (s.scanBlocks x lo n sel l).andThen (fun b s => .ok (a ++ b) s))

/-- A column's block list, checked against the stage's rows (R103). -/
def State.scanList (s : State) (st : Stage) (c : Column) : TRes (List BlockEnt) :=
  let lo := fld (st.w 2) 47 0
  (TRes.ofScan s (fun _ => [(refAddr c.blockList, 16 * c.blockCount)]) (s.readBlockList c)).andThen (fun bl s =>
    if blockListOk bl lo (lo + fld (st.w 3) 47 0 - 1) then .ok bl s
    else .bad [(stDescMalformed, refAddr c.blockList)] s)

/-- Reads some columns of a rope; the others come back empty. -/
def State.scanColumns (s : State) (k : RouteKey) (d : RouteDesc) (stage ridge lo n : Nat) (sel : List Bool) :
    List (Nat × Column) → TRes (List (Nat × List Slot))
  | [] => .ok [] s
  | (i, c) :: l =>
    (s.scanList (d.stage stage) c).andThen (fun bl s =>
      (s.scanBlocks { key := k, desc := d, stage := stage, ridge := ridge, pos := i, col := c } lo n sel
          (blocksOver bl lo n)).andThen (fun a s =>
        (s.scanColumns k d stage ridge lo n sel l).andThen (fun b s => .ok ((i, a) :: b) s)))

/-- First rows of the segments of a range: the range's own and every block start inside it (R121). -/
def segStarts (lo n : Nat) (lists : List (List BlockEnt)) : List Nat :=
  (sortBy (fun a b => decide (a < b)) (lo :: (lists.flatMap (fun bl =>
    (bl.map (fun e => e.first)).filter (fun x => decide (lo < x) && decide (x < lo + n)))))).eraseDups

/-- Segments as (first row, count). -/
def segmentsOf (lo n : Nat) (lists : List (List BlockEnt)) : List (Nat × Nat) :=
  let st := segStarts lo n lists
  (List.zip st (st.drop 1 ++ [lo + n])).map (fun p => (p.1, p.2 - p.1))

/-- The block of a list that holds a row. -/
def blockAt (bl : List BlockEnt) (row : Nat) : Option BlockEnt :=
  bl.find? (fun e => decide (e.first ≤ row) && decide (row < e.first + e.rows))

/-- The headers of a segment's blocks, checked (R121, R122). -/
def State.segHeaders (s : State) (row : Nat) : List (Nat × Column × List BlockEnt) →
    TRes (List (Nat × BlockHdr × Column))
  | [] => .ok [] s
  | (i, c, bl) :: l =>
    match blockAt bl row with
    | none => .bad [(stDescMalformed, refAddr c.blockList)] s
    | some e =>
      (TRes.ofScan s (fun _ => [(refAddr e.ref, 64)]) (s.readHdr e)).andThen (fun hb s =>
        let h := blockHdr hb
        match h.headerFault c e.rows with
        | some st => .bad [(st, refAddr e.ref)] s
        | none => (s.segHeaders row l).andThen (fun r s => .ok ((i, h, c) :: r) s))

/-- Rows cleared from a selection. -/
def clearSel (sel : List Bool) (lo a n : Nat) : List Bool :=
  sel.zipIdx.map (fun p => p.1 && !(decide (a ≤ lo + p.2) && decide (lo + p.2 < a + n)))

/-- Zone evaluation over the segments (R126): the selection left. -/
def State.zonePass (s : State) (p : FProg) (zl : List (Nat × Column × List BlockEnt)) (lo : Nat) :
    List (Nat × Nat) → List Bool → TRes (List Bool)
  | [], sel => .ok sel s
  | seg :: l, sel =>
    (s.segHeaders seg.1 zl).andThen (fun hs s =>
      let z := zoneEval p (zl.map (fun x => x.1)) (fun i => (hs.find? (fun h => h.1 == i)).map (fun h => h.2))
      s.zonePass p zl lo l (if z = .none then clearSel sel lo seg.1 seg.2 else sel))

/-- The payload of a skipped block is read for its CRC (R123). R122 runs every check on a block whose payload is read, and R123
names check 2 alone: only check 2 is run, and PAYLOAD_BYTES is used as it stands (DESIGN CHOICE; log 65). -/
def State.verifySkipped (s : State) (k : RouteKey) (e : BlockEnt) : TRes Unit :=
  (TRes.ofScan s (fun _ => [(refAddr e.ref, 64)]) (s.readHdr e)).andThen (fun hb s =>
    let h := blockHdr hb
    (TRes.ofScan s (fun _ => [(refAddr e.ref + 64, h.payload)]) (s.readPayload e h)).andThen (fun pay s =>
      let s := s.oinc 0x3010 2 1
      if h.check2 hb pay then .ok () (s.rereadDone k e true) else s.blockFails k e h stBlockCrc))

/-- Rows of a block that the source ropes of this device hold. -/
def State.blockRows (s : State) (r : Route) (stage : Nat) (e : BlockEnt) : Nat :=
  let st := r.desc.stage stage
  let first := fld (st.w 2) 47 0
  sumNat ((r.desc.rangesOn stage s.sys.deviceId (r.lossesOf stage)).map (fun g =>
    let lo := first + 4096 * g.firstRope
    (e.share lo (min (4096 * g.ropeCount) (first + fld (st.w 3) 47 0 - lo))).2))

/-- Where a stage's skipped rows of a block are kept: stage, position of the column and first row of the block. -/
def skipKey (stage pos first : Nat) : Nat := (stage * 64 + pos) * 2 ^ 48 + first

/-- Notes a column's blocks whose rows in this rope the zone map has all cleared. A block is skipped once every segment over it
in this device's ropes has been NONE: it is counted, and verified when SKIP_VERIFY is set (R123, R147; log 65). -/
def State.skipBlocks (s : State) (r : Route) (stage pos lo n : Nat) (sel : List Bool) : List BlockEnt → TRes Unit
  | [] => .ok () s
  | e :: l =>
    let sh := e.share lo n
    if anySel sel lo sh.1 sh.2 then s.skipBlocks r stage pos lo n sel l
    else
      let key := skipKey stage pos e.first
      let done := (((s.route? r.key).bind (fun r => r.work.skipped.find key)).getD 0) + sh.2
      if done < s.blockRows r stage e then
        (s.work r.key (fun w => { w with skipped := w.skipped.put key done })).skipBlocks r stage pos lo n sel l
      else
        let s := (s.work r.key (fun w => { w with skipped := w.skipped.del key })).oinc 0x3010 3 1
        (if s.oflag 0x3010 1 then s.verifySkipped r.key e else .ok () s).andThen
          (fun _ s => s.skipBlocks r stage pos lo n sel l)

/-- The skipped blocks of every column of the stage, once the zone map has cleared rows of a rope. -/
def State.skipColumns (s : State) (r : Route) (stage lo n : Nat) (sel : List Bool) : List (Nat × Column) → TRes Unit
  | [] => .ok () s
  | (i, c) :: l =>
    if sel.all id then .ok () s
    else
      (s.scanList (r.desc.stage stage) c).andThen (fun bl s =>
        (s.skipBlocks r stage i lo n sel (blocksOver bl lo n)).andThen (fun _ s => s.skipColumns r stage lo n sel l))

/-- The lists of the zone columns. -/
def State.zoneLists (s : State) (st : Stage) : List (Nat × Column) → TRes (List (Nat × Column × List BlockEnt))
  | [] => .ok [] s
  | (i, c) :: l => (s.scanList st c).andThen (fun bl s =>
      (s.zoneLists st l).andThen (fun r s => .ok ((i, c, bl) :: r) s))

/-- A column register over a rope's rows; columns not read hold no values. -/
def colRegOf (n : Nat) (c : Column) (slots : Option (List Slot)) : ColReg :=
  { ty := c.ty, scale := c.scale, width := c.width, sorted := c.dictSorted
    slots := slots.getD (List.replicate n none) }

/-- The machine a task starts with (R131). -/
def startMachine (k : RouteKey) (ridge n : Nat) (sel : List Bool) (inputs : List ColReg) (p : FProg) : FilterMachine :=
  { key := k, ridge := ridge, rows := n, sel := sel, inputs := inputs, consts := p.consts, cregs := [], mregs := [] }

/-- Runs a program; the machine as loaded is kept for the context (log 7). -/
def State.runProg (s : State) (ctx : Nat) (m : FilterMachine) (p : FProg) : TRes FilterMachine :=
  let s := { s with scn := s.scn.put ctx m }
  match FilterMachine.run s m p.insns with
  | .ok s m => .ok m s
  | .fault st => .bad [(st, 0)] s
  | .noOperand => .ok m s

/-- The source of an output column (R134). -/
def outSource (m : FilterMachine) (cols : List (List Slot)) (b : Nat) : List Slot :=
  if b < 0x40 then cols.getD b [] else ((m.col? (b - 0x40)).map (fun c => c.slots)).getD []

/-- A source rope through its SCAN stage (R121). -/
def State.scanTask (s : State) (r : Route) (stage ridge ctx seq : Nat) : TRes (List Task) :=
  let d := r.desc
  let st := d.stage stage
  let first := fld (st.w 2) 47 0
  let total := fld (st.w 3) 47 0
  let k := ropeAt (d.rangesOn stage s.sys.deviceId (r.lossesOf stage)) seq
  let lo := first + 4096 * k
  let n := min 4096 (first + total - lo)
  let cols := (d.cols stage).zipIdx.map (fun p => (p.2, p.1))
  let has := st.progLen != 0
  let p := parseProg (d.prog stage)
  let sel0 := List.replicate n true
  let zpos := if has && bitAt st.options 0 then p.zcols else []
  let loads := if has then p.loads else []
  (s.zoneLists st (cols.filter (fun c => zpos.contains c.1))).andThen (fun zl s =>
  (if zl.isEmpty then .ok sel0 s else s.zonePass p zl lo (segmentsOf lo n (zl.map (fun x => x.2.2))) sel0).andThen
    (fun sel s =>
  (s.skipColumns r stage lo n sel cols).andThen (fun _ s =>
  (s.scanColumns r.key d stage ridge lo n sel (cols.filter (fun c => loads.contains c.1))).andThen (fun got s =>
    let find (l : List (Nat × List Slot)) (i : Nat) : Option (List Slot) := (l.find? (fun x => x.1 == i)).map (fun x => x.2)
    let m := startMachine r.key ridge n sel (cols.map (fun c => colRegOf n c.2 (find got c.1))) p
    (if has then s.runProg (ridge * 8 + ctx) m p else .ok m s).andThen
      (fun m s =>
      let sel := if has then m.outSel p else sel
      if !(sel.any id) then .ok [] s
      else
        (s.scanColumns r.key d stage ridge lo n sel (cols.filter (fun c => !loads.contains c.1))).andThen (fun rest s =>
          let hdr := s.ropeHdr r.key stage ridge 0 (fld (st.w 2) 63 48 * 2 ^ 48 + lo) seq
          s.emitRope r.key d stage ridge
            { hdr with rows := n, sel := sel, keys := []
                       cols := cols.map (fun c => ((find (got ++ rest) c.1).getD [])) }))))))

/-- A rope through a FILTER or PROJECT stage (R134, R144). -/
def State.filterTask (s : State) (r : Route) (stage ridge ctx : Nat) (rp : Rope) : TRes (List Task) :=
  let d := r.desc
  let st := d.stage stage
  let inp := d.cols st.inputA
  let p := parseProg (d.prog stage)
  let sel := (List.range rp.rows).map rp.live
  let regs := inp.zipIdx.map (fun c => colRegOf rp.rows c.1 (rp.cols[c.2]?))
  (s.runProg (ridge * 8 + ctx) (startMachine r.key ridge rp.rows sel regs p) p).andThen
    (fun m s =>
      let sel := m.outSel p
      if !(sel.any id) then .ok [] s
      else
        let hdr := s.ropeHdr r.key stage ridge rp.keyForm rp.base rp.seq
        s.emitRope r.key d stage ridge
          { hdr with rows := rp.rows, sel := sel, keys := rp.keys
                     cols := (List.range st.colCount).map (fun c => outSource m rp.cols (p.outMap.getD c 0xFF)) })

end Sys2Proof.Machine
end

