-- ==== Sys2Proof/Machine/StrandTask.lean ====
section
/-! DEFINITION. Tasks of STRAND stages: their start, their output ropes and their end (R258, R270 to R274). -/
namespace Sys2Proof.Machine

/-- The key of a logical strand. -/
def strandKey (ridge strand : Nat) : Nat := ridge * 8 + strand

def State.strand (s : State) (ridge k : Nat) : StrandSt := (s.strands.find (strandKey ridge k)).getD StrandSt.idle

def State.setStrand (s : State) (ridge k : Nat) (t : StrandSt) : State :=
  { s with strands := s.strands.put (strandKey ridge k) t }

/-- The task of a strand ends: the strand is idle, its wrong-path work is counted. -/
def State.stopStrand (s : State) (ridge k : Nat) : State :=
  (s.countWrong ridge (s.strand ridge k)).setStrand ridge k (s.strand ridge k).stopped

/-- String bytes that every VARCHAR column of an output rope has room for (R272). -/
def strandStrings : Nat := 262144

/-- Sized forms of a strand's output rope. -/
def strandForms (forms : List ColForm) : List (ColForm × Nat) :=
  forms.map (fun c => (c, if c.ty = tyVarchar then strandStrings else 0))

/-- The address by which code names an object (R243). -/
def depotAddr (handle : Nat) : Nat := handle % 2 ^ 59 + 2 ^ 61

/-- Bytes of an output rope of a stage. -/
def outputSize (d : RouteDesc) (stage keyForm : Nat) : Nat := (ropeDirectory keyForm (strandForms (d.forms stage))).2

/-- Takes a new output rope: its layout's header and column directory are written, the rest is zero (R272). -/
def State.newOutput (s : State) (k : RouteKey) (d : RouteDesc) (stage ridge keyForm : Nat) : TRes Nat :=
  let forms := d.forms stage
  let dir := ropeDirectory keyForm (strandForms forms)
  let hdr := (s.ropeHdr k stage ridge keyForm 0 0).header
  let m : Memory := Memory.writeN (Memory.writeN [] 0 hdr) (ropeDirOff keyForm)
    (dir.1.flatMap (fun e => natLe 8 (e.1 * 2 ^ 32 + e.2)))
  s.storeContent k clsRope ridge (outputSize d stage keyForm) (.bytes m) forms

/-- The scratch object of a task: no page until one is touched (R274). -/
def State.newScratch (s : State) (k : RouteKey) (ridge : Nat) : TRes Nat :=
  match s.newObj k.tenant clsScratch ridge (some k) (.bytes []) [] with
  | none => .full causeMap clsScratch s
  | some (o, s) => .ok o s

/-- The lowest idle logical strand of a ridge (R270). -/
def State.idleStrand (s : State) (ridge : Nat) : Option Nat :=
  (List.range 8).find? (fun k => (s.strand ridge k).task.isNone
    && !s.sched.running.any (fun r => r.ridge == ridge && r.unit == .strand && r.ctx == k))

/-- Whether predictable timing is in effect (R258). -/
def State.predictable (s : State) (d : RouteDesc) (ridge k : Nat) : Bool :=
  d.predictable || bitAt (s.onum (0xA004 + 0x20 * s.physRidge ridge) 1) (s.physStrand ridge k)

/-- The address of an object as its code sees it. -/
def State.objAddr (s : State) (o : Nat) : Nat := ((s.dobj? o).map (fun d => depotAddr (d.handle o))).getD 0

/-- A task starts on a strand in the state of Table 08.12; what it predicts by is cleared when the route is another
than before (R257). Whether its timing is predictable is fixed here: a later write of PT_STRANDS acts on the tasks that start
after it (DESIGN CHOICE, log 36). -/
def State.startStrand (s : State) (r : Route) (stage ridge k o seq : Nat) : TRes (List Task) :=
  let d := r.desc
  let st := d.stage stage
  let kf := ((s.ropeIn o).map (fun rp => rp.keyForm)).getD 0
  (s.newOutput r.key d stage ridge kf).andThen (fun out s =>
    (s.newScratch r.key ridge).andThen (fun scratch s =>
      let old := s.strand ridge k
      let same := old.lastRoute == some r.key
      let params := fld (st.w 5) 63 48
      let g := ((((((StrandSt.idle.g.set 1 (BitVec.ofNat 64 (s.objAddr o))).set 2 (BitVec.ofNat 64 (s.objAddr out))).set 3
        (if st.w 4 = 0 then 0 else BitVec.ofNat 64 (3 * 2 ^ 61))).set 4 (BitVec.ofNat 64 (s.objAddr scratch))).set 5
        (BitVec.ofNat 64 seq)).set 6 (BitVec.ofNat 64 params))
      .ok [] (s.setStrand ridge k { StrandSt.idle with
        task := some { key := r.key, stage := stage, input := o, out := out, scratch := scratch, closed := [] }
        pc := BitVec.ofNat 64 (2 ^ 62 + fld (st.w 3) 31 0)
        g := g
        pt := s.predictable d ridge k
        itt := if same then old.itt else []
        path := if same then old.path else 0
        itlb := if same then old.itlb else []
        dtlb := if same then old.dtlb else []
        lastRoute := some r.key })))

/-- Closes an output rope with a row count: what consumes it becomes known, or it is freed (R273). ROPE_SEQ is the input's,
which g5 holds at the start; a change of g5 by the code has no effect on it (DESIGN CHOICE, log 36). -/
def State.closeOutputRope (s : State) (r : Route) (t : StrandTask) (ridge count : Nat) : List Task × State :=
  if count = 0 then ([], s.releaseObj t.key t.out)
  else
    match s.dobj? t.out, s.ropeIn t.input with
    | some dout, some inp =>
      let d := r.desc
      let hdr := { s.ropeHdr r.key t.stage ridge inp.keyForm (if inp.keyForm = 0 then inp.base else 0) inp.seq with
        rows := count }
      let m : Memory := match dout.content with
        | .bytes m => m
        | .code m _ => m
        | .rope _ => []
      let sel := bitmap512 (fun i => decide (i < count) && m.bit ropeSelOff i)
      let m := Memory.writeN (Memory.writeN m 0 { hdr with cols := List.replicate (d.forms t.stage).length [] }.header) ropeSelOff sel
      let rp := ropeOfBytes m hdr (strandForms (d.forms t.stage))
      let s := s.putObj t.out { dout with content := .code m rp }
      let s := s.spillWrite t.out
      let cons := d.consumers t.stage
      let s := if cons.any (fun c => (d.stage c).kind == kEmit) then
          s.deposit (slotKey ridge 0)
            { key := r.key, kind := 0, ridge := ridge, device := s.sys.deviceId, spanPitch := s.spanPitch r.key
              chain := [] } inp.seq t.out
        else s
      ((cons.filter (fun c => (d.stage c).kind != kEmit)).map (fun c =>
        { key := r.key, stage := c, ridge := ridge, input := .rope t.out, seq := inp.seq : Task }), s)
    | _, _ => ([], s)

end Sys2Proof.Machine
end

