-- ==== Sys2Proof/Machine/TaskEnd.lean ====
section
/-! DEFINITION. The end of a task: its outputs become ready, its input is released, its context frees (R59, R386 to
R389). -/
namespace Sys2Proof.Machine

/-- The UNIT code of the route log (Table 13.10). -/
def unitCode : UnitKind → Nat
  | .scn => 0
  | .jnu => 1
  | .agu => 2
  | .sru => 3
  | .strand => 4

/-- A route-log event of a task (Table 13.11). -/
def State.logTask (s : State) (t : Task) (unit : UnitKind) (event : Nat) : State :=
  let prio := ((s.route? t.key).map (fun r => r.desc.priority)).getD 0
  s.logEvent t.key prio t.stage t.ridge (unitCode unit) event t.seq

/-- Whether every ridge has slots for some new tasks (R386, R388). -/
def State.roomFor (s : State) (ts : List Task) : Bool :=
  (List.range 16).all (fun q => decide (s.slotsUsed q + (ts.filter (fun t => t.ridge == q)).length ≤ 512))

def State.running? (s : State) (ridge : Nat) (u : UnitKind) (ctx : Nat) : Option Running :=
  s.sched.running.find? (fun r => r.ridge == ridge && r.unit == u && r.ctx == ctx)

def State.mapRunning (s : State) (ridge : Nat) (u : UnitKind) (ctx : Nat) (f : Running → Running) : State :=
  { s with sched := { s.sched with running := s.sched.running.map (fun r =>
      if r.ridge = ridge ∧ r.unit = u ∧ r.ctx = ctx then f r else r) } }

def State.endRunning (s : State) (ridge : Nat) (u : UnitKind) (ctx : Nat) : State :=
  { s with sched := { s.sched with running := s.sched.running.filter (fun r =>
      !(r.ridge == ridge && r.unit == u && r.ctx == ctx)) } }

/-- Frees a task's input rope when nothing else reads it (R59). -/
def State.releaseInput (s : State) (t : Task) : State :=
  match t.input with
  | .rope o =>
    let used := s.allTasks.any (fun x => x.input == .rope o)
      || ((s.route? t.key).map (fun r => r.work.waiting.any (fun w => w.2.2 == o))).getD false
    if used then s else s.releaseObj t.key o
  | _ => s

/-- Ends a task whose outputs have slots; a task without slots holds its context, and the clocks of the stall are counted
(R388). -/
def State.finishTask (s : State) (ridge : Nat) (u : UnitKind) (ctx : Nat) : State :=
  match s.running? ridge u ctx with
  | none => s
  | some r =>
    let s := s.countStalls (fun x => x.ridge == ridge && x.unit == u && x.ctx == ctx)
    if !s.roomFor r.outputs then
      let s := s.mapRunning ridge u ctx (fun x => { x with stalled := some s.now })
      if r.stalled.isNone then s.logTask r.task u 0x4 else s
    else
      let s := s.endRunning ridge u ctx
      let s := r.outputs.foldl State.pushTask s
      let s := (s.releaseInput r.task).logTask r.task u 0x3
      s.readySeals r.task.key

/-- Makes the outputs that a running task has already written ready, as far as slots allow. -/
def State.flushOutputs (s : State) (ridge : Nat) (u : UnitKind) (ctx : Nat) : State :=
  match s.running? ridge u ctx with
  | none => s
  | some r =>
    if s.roomFor r.outputs then
      r.outputs.foldl State.pushTask (s.mapRunning ridge u ctx (fun r => { r with outputs := [] }))
    else s

end Sys2Proof.Machine
end

