-- ==== Sys2Proof/Machine/Units.lean ====
section
/-! DEFINITION. The lines that a unit's task reads and writes: through the L2 of its ridge and the SLC, with journal records
where a page of an earlier span changes (R21, R58, R60, R62, R118, R181, R212, R233, R299). Which lines of its tables a
task reads, and in what order, the spec leaves open: a task reads its input rope and its tables once, in ascending order,
and then writes the lines that it changes (DESIGN CHOICE, log 68). -/
namespace Sys2Proof.Machine

/-- The keys of the tables that a task works on. -/
def RouteDesc.taskTables (d : RouteDesc) (t : Task) : List Nat :=
  let k := (d.stage t.stage).kind
  if k = kBuild then
    (if t.input = .sealBuild ∨ d.joinPartitioned (d.probeOf t.stage) = true then [srKey t.stage t.ridge]
     else (List.range 16).map (srKey t.stage))
  else if k = kProbe then [srKey (d.stage t.stage).inputB t.ridge]
  else if k = kAgg then [srKey t.stage t.ridge, srKey (t.stage + 16) t.ridge]
  else if k = kSort ∨ k = kMerge then [srKey t.stage t.ridge]
  else []

/-- The objects of some of a route's tables. -/
def Route.tableObjs (r : Route) (keys : List Nat) : List Nat := keys.filterMap r.work.tables.find

/-- A table or run of a task that cannot be read ends its route (R181, R212). -/
def State.tableFault (s : State) (r : Route) (t : Task) : Option (Nat × Nat) :=
  (r.tableObjs (r.desc.taskTables t)).findSome? (fun o =>
    (s.objFault o).map (fun st => (st, ((s.dobj? o).map (fun d => d.handle o)).getD 0)))

/-- Lines of an object that stand in a peer's memory (tier 2, R22), as (line, offset in the object). -/
def State.peerPageLines (s : State) (o n : Nat) : List (Nat × Nat) :=
  (s.depot.pages.filter (fun x => x.2.obj == o && x.2.tier == 2)).flatMap (fun x =>
    ((List.range (x.2.size / 64)).map (fun i => (x.2.addr + 64 * i, x.2.index * x.2.size + 64 * i))).filter
      (fun y => decide (y.2 < n)))

/-- Whether a line that a ridge's unit writes whole is on its way to the L2: its bytes are known. -/
def State.beingWritten (s : State) (ridge l : Nat) : Bool :=
  s.coh.requests.any (fun r => r.msg.line == l && (match r.purpose with
    | .write x _ _ => x == ridge
    | _ => false))

/-- Lines of an object that this device holds, as (line, offset in the object), page after page. -/
def State.pageLines (s : State) (o : Nat) (p : Page → Bool) : List (Nat × Nat) :=
  ((s.depot.pages.filter (fun x => x.2.obj == o && decide (x.2.tier ≤ 1) && p x.2)).map (fun x => x.2)).flatMap (fun p =>
    (List.range (p.size / 64)).map (fun i => (s.lineAt (p.tier == 0) (p.addr + 64 * i), p.index * p.size + 64 * i)))

/-- The lines of this device that a task reads before anything else: its input rope's and its tables'. -/
def State.readLines (s : State) (r : Route) (t : Task) : List Nat :=
  let all (o : Nat) : List Nat := (s.pageLines o (fun _ => true)).map (fun x => x.1)
  let input := match t.input with
    | .rope o => ((s.dobj? o).map (fun d => match d.content with
        | .rope r => s.objLines d 0 (r.size d.forms)
        | _ => all o)).getD []
    | _ => []
  input ++ (r.tableObjs (r.desc.taskTables t)).flatMap all

/-- Lines of a task's input rope and tables that its L2 cannot have at once (R295, R322): a peer's that have not come, and
those whose home here must wait. -/
def State.linesMissing (s : State) (r : Route) (t : Task) : List Nat :=
  let objs := (match t.input with
    | .rope o => [o]
    | _ => []) ++ r.tableObjs (r.desc.taskTables t)
  let far := (objs.flatMap (fun o => s.peerPageLines o ((s.dobj? o).map s.objSpan |>.getD 0))).map (fun x => x.1)
  let ph := s.physRidge t.ridge
  (far ++ s.readLines r t).filter (fun l => !s.lineNear ph l && !s.beingWritten ph l && !s.linePoisoned l)

/-- A unit writes a peer's line whole: in an L2 that owns it, as a full line past one that streams or does not allocate, or
by asking for ownership first, whose fill the bytes merge into (R22, R299, R327). -/
def State.unitPut (s : State) (ph : Nat) (k : RouteKey) (l : Nat) (bytes : List Byte) : State :=
  let (str, s) := s.window ph 16 l .fullStore
  let s := { s with coh := { s.coh with readBuf := s.coh.readBuf.del l } }
  if ((s.l2Way ph l).map (fun w => w.state == .M)).getD false then
    s.mapL2 ph l (fun w => { w with data := bytes, dirty := true, rrv := 0, streaming := false })
  else if s.beingWritten ph l then
    { s with coh := { s.coh with requests := s.coh.requests.map (fun (r : OpenReq) => if r.msg.line = l then
        { r with purpose := match r.purpose with
          | .write x k' b => if x = ph then .write x k bytes else .write x k' b
          | x => x } else r) } }
  else if (str && (s.l2Way ph l).isNone) || !s.l2Allocates ph then
    (s.request { op := opWrNc, src := 0, dst := 0, txn := 0, line := l, mask := fullMask, data := bytes } locDepot .depot).2
  else (s.request { op := s.ownOp ph l, src := 0, dst := 0, txn := 0, line := l } locProxy (.write ph k bytes)).2

/-- Lines of a table that differ between two states, among the pages that satisfy a condition. -/
def State.changedLines (s0 s : State) (o : Nat) (p : Page → Bool) : List Nat :=
  ((s.pageLines o p).filter (fun x => s0.tableBytes o x.2 64 != s.tableBytes o x.2 64)).map (fun x => x.1)

/-- Lines of a table in a peer's memory that differ between two states, with their offsets. -/
def State.changedFar (s0 s : State) (o : Nat) : List (Nat × Nat) :=
  (s.peerPageLines o ((s.dobj? o).map s.objSpan |>.getD 0)).filter (fun x =>
    s0.tableBytes o x.2 64 != s.tableBytes o x.2 64)

/-- The owner's journal step for lines that a task has changed since a state, each with the line's value there (R58, R60,
R330); none where the journal cannot hold them (R62). -/
def State.journalEach (s : State) (ph : Nat) : List (Nat × List Byte) → Option State
  | [] => some s
  | x :: ls =>
    match s.gangStep ph x.1 x.2 with
    | none => none
    | some s => s.journalEach ph ls

/-- Bytes of an object that stand in tier 3 pages of an open span go to host memory (R227). -/
def State.spillTable (s : State) (o : Nat) : State :=
  (s.depot.pages.filter (fun p => p.2.obj == o && p.2.tier == 3 && s.pageSpan p.2 == some p.2.spanPitch)).foldl (fun s p =>
    s.hostWrite (o / 65536) (refAddr p.2.addr) (s.tableBytes o (p.2.index * p.2.size) p.2.size)) s

/-- Reads of lines by a unit of a physical ridge for a route. -/
def State.unitReads (s : State) (ph : Nat) (k : RouteKey) (reads : List Nat) : State :=
  s.accessed (reads.foldl (fun s l => s.l2Read ph l (some k)) s)

/-- Writes of lines by a unit of a physical ridge for a route. -/
def State.unitWrites (s : State) (ph : Nat) (k : RouteKey) (parts fulls : List Nat) : State :=
  let x := parts.foldl (fun s l => ((s.lineFresh l).l2Write ph l (some k) false true false).setTag ph l) s
  s.accessed (fulls.foldl (fun s l => (s.lineFresh l).l2Write ph l (some k) true true false) x)

/-- Why a task's lines cannot take what it did: the journal is full (R62), or a line must be owned first (R322). -/
inductive Held where
  | full
  | own (line : Nat)

/-- What a task that has run from `s0` to `s` did to lines. -/
def State.unitTraffic (s0 s : State) (r : Route) (t : Task) : Except Held State :=
  let ph := s.physRidge t.ridge
  let keys := r.desc.taskTables t
  let after := (((s.route? r.key).map (fun r => r.tableObjs keys)).getD []).eraseDups
  let writes := (r.desc.stage t.stage).kind != kProbe && t.input != .release
  let tables := if writes then after else []
  let parts := tables.flatMap (fun o => s0.changedLines s o (fun _ => true))
  let far := tables.flatMap (fun o => (s0.changedFar s o).map (fun x => (x.1, s.tableBytes o x.2 64)))
  let old := tables.flatMap (fun o => ((s.pageLines o (fun p => s.pageSpan p != some p.spanPitch && (s.pageSpan p).isSome)).filter
      (fun x => s0.tableBytes o x.2 64 != s.tableBytes o x.2 64)).map (fun x => (x.1, s0.tableBytes o x.2 64))
    ++ (s0.changedFar s o).map (fun x => (x.1, s0.tableBytes o x.2 64)))
  let made := s.depot.objects.filter (fun x => x.2.cls == clsRope && (s0.dobj? x.1).isNone)
  let fulls := made.flatMap (fun x => match x.2.content with
    | .rope r => s.objLines x.2 0 (r.size x.2.forms)
    | _ => [])
  let ropes := made.flatMap (fun x => match x.2.content with
    | .rope r => (s.peerPageLines x.1 (r.size x.2.forms)).map (fun y => (y.1, fitTo 64 (sliceB (r.bytes x.1 x.2.forms) y.2 64)))
    | _ => [])
  match (parts ++ fulls).find? (fun l => !s0.ownNear ph l) with
  | some l => .error (.own l)
  | none =>
    match (s.unitReads ph r.key (s0.readLines r t)).journalEach ph old with
    | none => .error .full
    | some s =>
      let s := tables.foldl State.spillTable s
      let s := (far ++ ropes).foldl (fun s x => (s.unitPut ph r.key x.1 x.2).setTag ph x.1) s
      .ok (s.unitWrites ph r.key parts fulls)

end Sys2Proof.Machine
end

