-- ==== Sys2Proof/Machine/Sched.lean ====
section
/-! DEFINITION. The Rope scheduler: choosing a task, running it, ending it (R386 to R388, R146, R229). -/
namespace Sys2Proof.Machine

/-- Contexts of a unit (R387). -/
def unitContexts : UnitKind → Nat
  | .scn => 8
  | .jnu => 8
  | .agu => 4
  | .sru => 2
  | .strand => 8

/-- The lowest free context of a unit. -/
def State.freeCtx (s : State) (ridge : Nat) (u : UnitKind) : Option Nat :=
  match u with
  | .strand => s.idleStrand ridge
  | _ => (List.range (unitContexts u)).find? (fun c => (s.running? ridge u c).isNone)

/-- Whether a ready task may be dispatched to a unit of its ridge now: its route has no condition, no suspension and no
replay, and its span is within its pitch or extended (R69, R146, R229). -/
def State.mayRun (s : State) (ridge : Nat) (u : UnitKind) (t : Task) : Bool :=
  t.ridge == ridge &&
  (match s.route? t.key with
   | none => false
   | some r =>
     kindUnit (r.desc.stage t.stage).kind == some u && r.conditions.isEmpty && r.suspended.isNone
     && (match r.span with
         | none => false
         | some sp => !sp.replaying && !sp.held && (!s.pitch.cutoffDone || decide (0 < sp.ext))))

def State.taskPrio (s : State) (t : Task) : Nat := ((s.route? t.key).map (fun r => r.desc.priority)).getD 0
def State.taskOrder (s : State) (t : Task) : Nat := ((s.route? t.key).map (fun r => r.admitOrder)).getD 0

/-- Weight of a tenant (R383): 16 until one is set (log 4). -/
def State.weightOf (s : State) (t : Nat) : Nat := (s.sched.weight.find t).getD 16

/-- Within a stage the lowest rope sequence; ropes that an EXCHANGE delivered keep the order of Table 02.6 (R82, R157, R387;
log 68). -/
def State.seqBefore (s : State) (a b : Task) : Bool :=
  match (s.route? a.key).bind (fun r => s.deliveredAt r.desc a), (s.route? b.key).bind (fun r => s.deliveredAt r.desc b) with
  | some x, some y => natsLt x y
  | _, _ => decide (a.seq < b.seq)

/-- Within a tenant: the earliest route, the highest stage, the lowest sequence (R387 steps 3 and 4). -/
def State.before (s : State) (a b : Task) : Bool :=
  let oa := s.taskOrder a
  let ob := s.taskOrder b
  decide (oa < ob) || (oa == ob && (decide (b.stage < a.stage) || (a.stage == b.stage && s.seqBefore a b)))

def State.bestOf (s : State) (l : List Task) : Option Task :=
  l.foldl (fun best t => match best with
    | none => some t
    | some b => if s.before t b then some t else some b) none

/-- The weighted round robin of a ridge and level among the tenants of some tasks (fuel: 32 tenants). -/
def State.pickTenant (s : State) (lvl : Nat) (cands : List Task) (ptr : Nat) : Nat → Nat → Option (Task × State)
  | _, 0 => none
  | i, f + 1 =>
    let t := (ptr + i) % 32
    let ck := lvl * 32 + t
    match s.bestOf (cands.filter (fun x => x.key.tenant == t)) with
    | none =>
      ({ s with sched := { s.sched with credit := s.sched.credit.del ck } } : State).pickTenant lvl cands ptr (i + 1) f
    | some task =>
      let c := (s.sched.credit.find ck).getD 0
      let c := (if c = 0 then s.weightOf t else c) - 1
      some (task, { s with sched := { s.sched with
        credit := if c = 0 then s.sched.credit.del ck else s.sched.credit.put ck c
        ptr := s.sched.ptr.put lvl (if c = 0 then (t + 1) % 32 else t) } })

/-- The next task of a unit (R387). -/
def State.pickTask (s : State) (ridge : Nat) (u : UnitKind) : Option (Task × State) :=
  let all := s.sched.ready.filter (s.mayRun ridge u)
  let top := all.foldl (fun m t => max m (s.taskPrio t)) 0
  let lvl := ridge * 8 + top
  s.pickTenant lvl (all.filter (fun t => s.taskPrio t == top)) ((s.sched.ptr.find lvl).getD 0) 0 32

/-- A rope through its stage, by the stage's kind. -/
def State.ropeTask (s : State) (r : Route) (t : Task) (rp : Rope) (ctx : Nat) : TRes (List Task) :=
  let kind := (r.desc.stage t.stage).kind
  if kind = kFilter ∨ kind = kProject then s.filterTask r t.stage t.ridge ctx rp
  else if kind = kBuild then s.buildTask r t.stage t.ridge rp
  else if kind = kProbe then s.probeTask r t.stage t.ridge rp
  else if kind = kAgg then s.aggTask r t.stage t.ridge rp
  else if kind = kSort then s.sortTask r t.stage t.ridge rp
  else if kind = kMerge then s.mergeTask r t.stage t.ridge rp
  else if kind = kExchange then s.exchangeTask r t.stage t.ridge rp
  else .ok [] s

/-- The whole work of a task in a context; the Cairn tables of its program are checked before it (R143). -/
def State.performTask (s : State) (r : Route) (t : Task) (ctx : Nat) : TRes (List Task) :=
  if !s.cairnReady r t.stage then .bad [(stCairnRef, 0)] s
  else
  match s.tableFault r t, s.linesMissing r t with
  | some f, _ => .bad [f] s
  | none, l :: ls => .need (l :: ls)
  | none, [] =>
  match t.input with
  | .source seq => s.scanTask r t.stage t.ridge ctx seq
  | .release =>
    if (r.desc.stage t.stage).kind = kAgg then s.aggRelease r t.stage t.ridge else s.sortRelease r t.stage t.ridge
  | .sealBuild => s.sealTask r t.stage t.ridge
  | .rope o =>
    if (r.desc.stage t.stage).kind = kStrand then s.startStrand r t.stage t.ridge ctx o t.seq
    else (s.readRope o).andThen (fun rp s => s.ropeTask r t rp ctx)

/-- A unit's task with its lines; a strand moves its own as its code runs. -/
def TRes.traffic (x : TRes (List Task)) (s0 : State) (r : Route) (t : Task) : TRes (List Task) :=
  match x with
  | .ok ts s =>
    if (r.desc.stage t.stage).kind = kStrand then .ok ts s
    else
      match s0.unitTraffic s r t with
      | .ok s => .ok ts s
      | .error .full => .again .stall
      | .error (.own l) => .again (.own t.ridge l)
  | x => x

/-- Reads of a peer's lines for a unit's task go out once each (log 17). -/
def State.askLines (s : State) (ls : List Nat) : State :=
  ls.foldl (fun s l =>
    if s.coh.requests.any (fun r => r.msg.line == l && r.purpose == .unit) then s
    else (s.request { op := opRdNc, src := 0, dst := 0, txn := 0, line := l } locProxy .unit).2) s

/-- The lines that a unit's task waits for go out: those of its route's pages to its L2, of image memory as a stream. -/
def State.askFor (s : State) (k : RouteKey) (ridge : Nat) (ls : List Nat) : State :=
  let mine (l : Nat) : Bool := lineDev l == s.sys.deviceId || (s.pageOf l).isSome
  ((ls.filter mine).foldl (fun s l => s.askFill (s.physRidge ridge) l opRdShared (some k)) s).askLines
    (ls.filter (fun l => !mine l))

/-- What a task that runs again leaves behind: a full journal is counted (R62), a line that it must own is asked for, a
block that failed its CRC loses its lines in the remote-line buffer and is asked for once more (R124). -/
def State.again (s : State) (k : RouteKey) (w : Again) : State :=
  match w with
  | .stall => s.countStall
  | .own ridge l => s.askFill (s.physRidge ridge) l (s.ownOp (s.physRidge ridge) l) (some k)
  | .reread b ls =>
    ({ s with
      coh := { s.coh with readBuf := ls.foldl (fun m l => m.del l) s.coh.readBuf }
      sched := { s.sched with rereads := s.sched.rereads ++ [(k, b)] } } : State).askLines ls

/-- A condition stops the route's tasks on its ridge (R146). -/
def State.stopOnRidge (s : State) (k : RouteKey) (ridge : Nat) : State :=
  let mine (r : Running) : Bool := r.task.key == k && r.ridge == ridge
  let gone := (s.sched.running.filter mine).filter (fun r => r.unit == .strand)
  let s := gone.foldl (fun s r => s.stopStrand ridge r.ctx) (s.countStalls mine)
  { s with
    sched := { s.sched with running := s.sched.running.filter (fun r => !mine r) }
    scn := s.scn.filter (fun p => !(p.2.key == k && p.2.ridge == ridge)) }

/-- The conditions a task meets end its route (R146, R181, R212). -/
def State.taskFaults (s : State) (t : Task) (u : UnitKind) (faults : List (Nat × Nat)) : State :=
  let s := faults.eraseDups.foldl (fun s f =>
    let s := if u = .scn then s.oinc 0x3010 5 1 else s
    s.routeFault t.key 0x0008 f.1 f.2) s
  s.stopOnRidge t.key t.ridge

/-- A chosen task runs: it takes its context and gives up its slot, or it stays ready for what it waits for. -/
def State.dispatchTask (s : State) (r : Route) (t : Task) (u : UnitKind) (ctx : Nat) (s0 : State) : State :=
  match (s.performTask r t ctx).traffic s r t with
  | .ok ts s =>
    let run : Running := { ridge := t.ridge, unit := u, ctx := ctx, task := t, outputs := ts }
    let s := { s with sched := { s.sched with
      ready := s.sched.ready.erase t, running := s.sched.running ++ [run] } }
    ((s.settleAsk t.key.tenant t.key.id (fun _ => true)).logTask t u 0x2).fillSources.pumpOutbound
  | .need ls => s0.askFor t.key t.ridge ls
  | .again w => s0.again t.key w
  | .ask m => s0.askPage m
  | .full c k s => (s.logTask t u 0x2).suspendRoute t.key c k
  | .bad l s =>
    ((({ s with sched := { s.sched with ready := s.sched.ready.erase t } } : State).logTask t u 0x2).taskFaults t u l).fillSources

/-- Task dispatch on a unit with a free context (R387); while a rail is at its maximum current none is dispatched, and
the delay is counted (R485). -/
def State.dispatch (s : State) (ridge : Nat) (u : UnitKind) : State :=
  if s.sys.state != .operational then s
  else
    match s.freeCtx ridge u, s.pickTask ridge u with
    | some ctx, some (t, s') =>
      if !s.sched.railsHeld.isEmpty then s.oinc 0x7000 7 1
      else
        match s.route? t.key with
        | none => s
        | some r => s'.dispatchTask r t u ctx s
    | _, _ => s

def execTaskDispatch (ridge : Nat) (unit : UnitKind) (s : State) : Res := .next (s.dispatch ridge unit)

/-- TASK_DONE ends a task; a strand's task ends with its TEND, so only one that already waits for slots is concerned. -/
def execTaskDone (ridge : Nat) (unit : UnitKind) (ctx : Nat) (s : State) : Res :=
  if unit = .strand ∧ (s.strand ridge ctx).task.isSome = true then .next s
  else
    let s' := s.finishTask ridge unit ctx
    let s' := if unit = .scn ∧ (s'.running? ridge unit ctx).isNone = true then { s' with scn := s'.scn.del (ridge * 8 + ctx) } else s'
    .next s'.fillSources

/-- The context in which a unit of a ridge runs a task now: one is free, and the task is the one that R387 chooses. -/
def State.nextIs (s : State) (ridge : Nat) (u : UnitKind) (t : Task) : Option Nat :=
  match s.freeCtx ridge u, s.pickTask ridge u with
  | some c, some (x, _) => if x = t then some c else none
  | _, _ => none

/-- JOIN_SEAL performs the seal of a ridge's build: a task of the JNU like any other, from its dispatch to its end (R152,
R387). -/
def execJoinSeal (k : RouteKey) (stage ridge : Nat) (s : State) : Res :=
  match s.nextIs ridge .jnu { key := k, stage := stage, ridge := ridge, input := .sealBuild, seq := 0 } with
  | none => .next s
  | some c => .next (((s.dispatch ridge .jnu).finishTask ridge .jnu c).fillSources)

end Sys2Proof.Machine
end

