-- ==== Sys2Proof/Machine/Summit.lean ====
section
/-! DEFINITION. The Summit: slot buffers, merges, partials of peers, and the forming of results (R201 to R211). -/
namespace Sys2Proof.Machine

/-! ## Slot buffers (R202, R204) -/

/-- Whether a buffer takes no deposits because a cutoff or a close record closed it (Table 06.7). -/
def SlotBuf.shut (b : SlotBuf) : Bool := b.state == .closed || b.state == .merging

/-- One buffer at the swap of pitch `n`. -/
def SlotBuf.swap (b : SlotBuf) (n : Nat) : SlotBuf :=
  match b.state with
  | .filling => { b with state := .closed, tag := n }
  | .free => { b with state := .filling }
  | _ => b

/-- Every local slot swaps its buffers at the cutoff (R204). -/
def State.swapSlots (s : State) (n : Nat) : State :=
  (List.range 64).foldl (fun s k => s.setSlot k ((s.slot k).1.swap n, (s.slot k).2.swap n)) s

/-- The entries of closed buffers tagged `n` that satisfy a condition, in slot order, with their slot. -/
def State.closedEntries (s : State) (n : Nat) (p : SlotEntry → Bool) : List SlotEntry :=
  let of (b : SlotBuf) : List SlotEntry := if b.shut && b.tag == n then b.entries.filter p else []
  s.summit.slots.flatMap (fun q => of q.2.1 ++ of q.2.2)
    ++ (s.summit.holding.filter (fun h => h.1 == n && p h.2)).map (fun h => h.2)

/-- A shut buffer tagged `n` after the entries that satisfy a condition have left it: MERGING while other entries wait,
FREE when the last has gone (Table 06.7); one that gives nothing is unchanged. -/
def SlotBuf.cut (b : SlotBuf) (n : Nat) (p : SlotEntry → Bool) : SlotBuf :=
  if b.shut && b.tag == n && b.entries.any p then
    let rest := b.entries.filter (fun e => !p e)
    if rest.isEmpty then { state := .free, tag := 0, entries := [] } else { b with state := .merging, entries := rest }
  else b

/-- Takes entries out of shut buffers tagged `n` and out of holding. -/
def State.takeEntries (s : State) (n : Nat) (p : SlotEntry → Bool) : State :=
  { s with summit := { s.summit with
      slots := s.summit.slots.map (fun (q : Nat × SlotBuf × SlotBuf) => (q.1, (q.2.1.cut n p, q.2.2.cut n p)))
      holding := s.summit.holding.filter (fun h => !(h.1 == n && p h.2)) } }

/-- A slot whose shut buffers become free at D. Where a second close record had come before and no buffer is left to
fill, the first one fills (DESIGN CHOICE, log 15: Table 06.7 has a free buffer fill at the next swap, which has passed). -/
def freeShut (q : SlotBuf × SlotBuf) : SlotBuf × SlotBuf :=
  let cut (b : SlotBuf) : SlotBuf := if b.shut then emptyBuf .free else b
  if q.1.shut && q.2.shut then (emptyBuf .filling, emptyBuf .free) else (cut q.1, cut q.2)

/-- At D the entries of closed buffers go to holding and their buffers become free (R206). -/
def State.holdEntries (s : State) : State :=
  let of (b : SlotBuf) : List (Nat × SlotEntry) := if b.shut then b.entries.map (fun e => (b.tag, e)) else []
  let held := s.summit.slots.flatMap (fun q => of q.2.1 ++ of q.2.2)
  let s := { s with summit := { s.summit with
    slots := s.summit.slots.map (fun (q : Nat × SlotBuf × SlotBuf) => (q.1, freeShut q.2))
    holding := s.summit.holding ++ held } }
  s.oinc 0x3060 3 held.length

/-! ## Partials of routes homed elsewhere (R205) -/

/-- The bytes of a chain: each rope from a page of its own on. -/
def State.chainBytes (s : State) (chain : List (Nat × Nat)) : List Byte :=
  chain.flatMap (fun c => match s.dobj? c.2 with
    | some d => (match d.content with
      | .rope r => padTo kib64 (r.bytes c.2 d.forms)
      | .code m _ => m.readN 0 (s.objSpan d)
      | .bytes _ => [])
    | none => [])

/-- At the swap, the entries of routes homed elsewhere leave for their homes, ascending in ridge and kind, and a close
record is owed to every home (log 30). -/
def State.sendPartials (s : State) (n : Nat) : State :=
  let far (e : SlotEntry) : Bool := e.key.home != s.sys.deviceId
  let es := s.closedEntries n far
  let s := es.foldl (fun (s : State) e =>
    let o : Outbound :=
      { id := s.link.nextOut, device := e.key.home, key := e.key, cls := clsRope, bytes := s.chainBytes e.chain
        dstRidge := 0, seq := (e.chain.headD (0, 0)).1, srcRidge := e.ridge
        stage := ((s.route? e.key).map (fun r => (r.desc.stage (r.desc.stages.length - 1)).inputA)).getD 0
        spanPitch := e.spanPitch, summit := some e.kind, ropes := e.chain.length, tag := n, handle := 0, pages := []
        written := 0, awaiting := [] }
    let s := { s with link := { s.link with outbound := s.link.outbound ++ [o], nextOut := s.link.nextOut + 1 } }
    e.chain.foldl (fun s c => s.releaseObj e.key c.2) s) s
  let s := s.takeEntries n far
  let homes := ((s.routes.map (fun r => r.key.home)).filter (fun h => h != s.sys.deviceId)).eraseDups
  { s with link := { s.link with owed := s.link.owed ++ homes.map (fun h => (h, n)) } }

/-! ## Merging (R206) -/

/-- Whether the buffers that a merge needs are closed: this device's cutoff of the pitch has passed and every other
participant's close record has come. -/
def State.mergeReady (s : State) (r : Route) (n : Nat) : Bool :=
  (decide (n < s.pitch.number) || (n == s.pitch.number && s.pitch.cutoffDone))
    && r.parts.all (fun dev => dev == s.sys.deviceId || s.summit.closes.contains (dev, n))

/-- Pitches of a span before `n` whose merge is outstanding. -/
def Span.mergedBefore (sp : Span) (n : Nat) : Bool :=
  (List.range (n - sp.openPitch)).all (fun i => sp.merged.contains (sp.openPitch + i))

/-- The order of entries within a merge: device, ridge, kind. -/
def entryLt (a b : SlotEntry) : Bool :=
  decide (a.device < b.device) || (a.device == b.device
    && (decide (a.ridge < b.ridge) || (a.ridge == b.ridge && decide (a.kind < b.kind))))

/-- A chain as the Summit keeps it in storage: the 32 bytes of Table 06.6. -/
def State.entryBytes (s : State) (e : SlotEntry) : List Byte :=
  let head := (e.chain.head?).map (fun c => ((s.dobj? c.2).map (fun d => d.handle c.2)).getD 0)
  bytesOfWords [e.key.id % 2 ^ 32 * 2 ^ 32 + e.key.tenant % 32 * 2 ^ 27 + e.kind % 4 * 2 ^ 25 + e.ridge % 16 * 2 ^ 21
      + e.device % 16 * 2 ^ 17,
    e.spanPitch % 2 ^ 64, head.getD 0, e.chain.length % 2 ^ 32 * 2 ^ 32]

/-- The route's STAGING object has room for a number of chains more than it has appended; it is made at the first one
(R207, R217; log 15). -/
def State.stagingRoom (s : State) (k : RouteKey) (more : Nat) : TRes Nat :=
  match s.route? k with
  | none => .ok 0 s
  | some r =>
    let made : Option (Nat × State) := match r.work.stagingObj with
      | some o => some (o, s)
      | none => (s.newObj k.tenant clsStaging 0 (some k) (.bytes []) []).map (fun (p : Nat × State) =>
          (p.1, p.2.work k (fun w => { w with stagingObj := some p.1 })))
    match made with
    | none => .full causeMap clsStaging s
    | some (o, s) => (TRes.ofAlloc (s.ensureBytes o (32 * (r.work.staged + more)))).andThen (fun _ s => .ok o s)

/-- Writes chains to the storage after those that are there, behind the journal records of lines of earlier spans'
pages; none where the journal is full (R58, R62). -/
def State.storeChains (s : State) (o n : Nat) (es : List SlotEntry) : Option State :=
  match s.dobj? o with
  | none => some s
  | some d =>
    (s.journalLines (s.objLines d (32 * n) (32 * es.length))).map (fun (s : State) =>
      s.putObj o (d.writeN o (32 * n) (es.flatMap s.entryBytes)))

/-- Appends a route's entries of a pitch to its staging (R206). -/
def State.appendEntries (s : State) (k : RouteKey) (n : Nat) (es : List SlotEntry) : State :=
  let refs := es.flatMap (fun e => e.chain.map (fun c =>
    { stage := 0, ridge := e.ridge, device := e.device, kind := e.kind, obj := c.2, seq := c.1 : RopeRef }))
  let s := s.takeEntries n (fun e => e.key == k)
  let s := s.work k (fun w => { w with staging := w.staging ++ refs, staged := w.staged + es.length })
  let s := s.mapSpan k (fun sp => { sp with merged := sp.merged ++ [n] })
  s.oinc 0x3060 2 1

/-- The merge of a route for a pitch: its entries, in order, once the STAGING pages for them are there; without a page
the merge waits, or the route is suspended. -/
def State.mergePitch (s : State) (k : RouteKey) (n : Nat) : State :=
  let es := sortBy entryLt (s.closedEntries n (fun e => e.key == k))
  if es.isEmpty then s.appendEntries k n es
  else
    let before := ((s.route? k).map (fun r => r.work.staged)).getD 0
    match s.stagingRoom k es.length with
    | .ok o s =>
      (match s.storeChains o before es with
       | some s => (s.settleAsk k.tenant k.id (fun c => c == clsStaging)).appendEntries k n es
       | none => s.countStall)
    | .ask m => s.askPage m
    | .full c x s => s.suspendRoute k c x
    | _ => s

/-- The STAGING pages that the entries in holding need, for each route homed here (R206, R217). -/
def State.holdPages (s : State) : State :=
  ((s.summit.holding.map (fun h => h.2.key)).eraseDups).foldl (fun s k =>
    let held := (s.summit.holding.filter (fun h => h.2.key == k)).map (fun h => h.2)
    let before := ((s.route? k).map (fun r => r.work.staged)).getD 0
    if !s.isHome k || (s.route? k).isNone then s
    else
      match s.stagingRoom k held.length with
      | .ok o s => ((s.storeChains o before held).map (fun s =>
          s.settleAsk k.tenant k.id (fun c => c == clsStaging))).getD s.countStall
      | .ask m => s.askPage m
      | .full c x s => s.suspendRoute k c x
      | _ => s) s

/-! ## Forming a result (R208) -/

/-- Reads the staging chain: the rows in staging order, or the fault of the first bad rope. -/
def State.stagingRows (s : State) : List RopeRef → Except (Nat × Nat) (List Row)
  | [] => .ok []
  | x :: l =>
    match s.objFault x.obj with
    | some st => .error (st, ((s.dobj? x.obj).map (fun d => d.handle x.obj)).getD 0)
    | none =>
      match s.ropeIn x.obj with
      | none => .error (stBusError, 0)
      | some r => (s.stagingRows l).map (fun rows => r.liveRows ++ rows)

/-- The EMIT stage. -/
def RouteDesc.emit (d : RouteDesc) : Nat := d.stages.length - 1

/-- Rows to be published: groups combined and finished where the input is an AGG that is not partitioned. -/
def RouteDesc.resultRows (d : RouteDesc) (rows : List Row) : Option (List Row) :=
  let src := (d.stage d.emit).inputA
  if (d.stage src).kind = kAgg ∧ d.aggPartitioned src = false then
    let p := d.aggPlan src
    let gs := (rows.map p.groupOf).foldl p.combine []
    p.rows true (if gs.isEmpty && p.types.isEmpty then [p.emptyGroup] else gs)
  else some rows

/-- Groups that the combining table holds. -/
def RouteDesc.combined (d : RouteDesc) (rows : List Row) : Nat :=
  let src := (d.stage d.emit).inputA
  if (d.stage src).kind = kAgg ∧ d.aggPartitioned src = false then
    ((rows.map (d.aggPlan src).groupOf).foldl (d.aggPlan src).combine []).length else 0

/-- The order of the output: by the keys of a SORT or MERGE when ORDERED, else by tie-break key and values. -/
def RouteDesc.outPlan (d : RouteDesc) : SortPlan :=
  let e := d.stage d.emit
  if bitAt e.options 0 then { (d.sortPlan e.inputA) with forms := d.forms d.emit }
  else { keys := [], forms := d.forms d.emit }

/-! ### The output region (R210) -/

/-- A value's bound form of R114, as 16 bytes. -/
def zoneBytes (c : ColForm) (v : Val) : List Byte :=
  if tyIsFp c.ty then natLe 16 (fpNormal64 (v.asF64 c.ty))
  else if tyIsStr c.ty then fitTo 16 v.asStr
  else natLe 16 (ofSigned 128 v.asInt)

/-- The least and the greatest of a column's values that are neither null nor NaN. -/
def extremes (c : ColForm) (vals : List Val) : Option (Val × Val) :=
  let ok := vals.filter (fun v => !(tyIsFp c.ty && fpIsNan fp64 (v.asF64 c.ty)))
  ok.foldl (fun acc v => match acc with
    | none => some (v, v)
    | some m => some (if valLt c.ty c.ty v m.1 then v else m.1, if valLt c.ty c.ty m.2 v then v else m.2)) none

/-- Bits packed into whole bytes, padded to 8. -/
def nullBitmap (l : List Slot) : List Byte :=
  padTo 8 ((chunks 8 l).map (fun g =>
    BitVec.ofNat 8 (g.zipIdx.foldl (fun a p => a + p.1.isNone.toNat * 2 ^ p.2) 0)))

/-- The inner stream of a PLAIN block (R110). -/
def plainInner (c : ColForm) (l : List Slot) : List Byte :=
  let nulls := if l.any (fun v => v.isNone) then nullBitmap l else []
  let vals :=
    if c.ty = tyVarchar then
      let strs := l.map (fun v => match v with
        | some (.str b) => b
        | _ => [])
      let offs := strs.foldl (fun (acc : List Nat × Nat) b => (acc.1 ++ [acc.2 + b.length], acc.2 + b.length)) ([0], 0)
      offs.1.flatMap (natLe 4) ++ strs.flatMap (fun b => b)
    else l.flatMap (fun v => match v with
      | some x => valBytes c.ty c.width x
      | none => zeros (tyBytes c.ty c.width))
  nulls ++ padTo 8 vals

/-- Bytes of the inner stream of `n` rows with these nulls and string bytes. -/
def plainSize (c : ColForm) (n nulls strBytes : Nat) : Nat :=
  (if nulls = 0 then 0 else roundUp (ceilDiv n 8) 8)
    + roundUp (if c.ty = tyVarchar then 4 * (n + 1) + strBytes else n * tyBytes c.ty c.width) 8

/-- How many leading rows fit a block. -/
def fitRows (c : ColForm) : List Slot → Nat → Nat → Nat → Nat
  | [], n, _, _ => n
  | v :: l, n, nulls, bytes =>
    let nulls' := nulls + v.isNone.toNat
    let bytes' := bytes + (match v with
      | some (.str b) => b.length
      | _ => 0)
    if n + 1 ≤ 65536 ∧ plainSize c (n + 1) nulls' bytes' ≤ 65472 then fitRows c l (n + 1) nulls' bytes' else n

/-- A PLAIN column block of some rows (R210, Table 03.13). -/
def plainBlock (c : ColForm) (l : List Slot) : List Byte :=
  let inner := plainInner c l
  let vals := l.filterMap (fun v => v)
  let nan := tyIsFp c.ty && vals.any (fun v => fpIsNan fp64 (v.asF64 c.ty))
  let z := extremes c vals
  let trunc := tyIsStr c.ty && (match z with
    | some m => decide (16 < m.2.asStr.length)
    | none => false)
  let bound (v : Option Val) : List Byte := match v with
    | some x => zoneBytes c x
    | none => zeros 16
  let head := natLe 8 (0x7C31 * 2 ^ 48 + c.ty * 2 ^ 40) ++ natLe 8 (l.length * 2 ^ 32 + (l.filter (fun v => v.isNone)).length)
    ++ natLe 8 (inner.length * 2 ^ 32 + inner.length) ++ bound (z.map (fun m => m.1)) ++ bound (z.map (fun m => m.2))
  let flags := trunc.toNat * 4 + nan.toNat * 2 + z.isSome.toNat
  head ++ natLe 8 (crc32c (head ++ inner) * 2 ^ 32 + flags) ++ inner

/-- The blocks of a column (fuel: its rows); none when a value fits no block. -/
def plainBlocks (c : ColForm) : Nat → List Slot → Option (List (List Byte))
  | 0, _ => some []
  | _, [] => some []
  | f + 1, l =>
    let n := fitRows c l 0 0 0
    if n = 0 then none else (plainBlocks c f (l.drop n)).map (fun r => plainBlock c (l.take n) :: r)

/-- Places blocks one after another from an offset, each at a multiple of 64: the bytes with their gaps, and the
offset of each column's first block. -/
def placeBlocks (off : Nat) : List (List (List Byte)) → List Byte × List Nat
  | [] => ([], [])
  | col :: l =>
    let bytes := col.flatMap (padTo 64)
    let r := placeBlocks (off + bytes.length) l
    (bytes ++ r.1, off :: r.2)

/-- Layout 0: the directory and the blocks. -/
def columnRegion (forms : List ColForm) (rows : List Row) : Option (List Byte) :=
  let cols := forms.zipIdx.map (fun c => plainBlocks c.1 rows.length (rows.map (fun x => x.vals.getD c.2 none)))
  if cols.all (fun c => c.isSome) then
    let blocks := cols.map (fun c => c.getD [])
    let dirBytes := roundUp (16 * forms.length) 64
    let p := placeBlocks (64 + dirBytes) blocks
    let dir := (List.zip p.2 blocks).flatMap (fun q => natLe 8 q.1 ++ natLe 8 (q.2.length * 2 ^ 32))
    some (fitTo dirBytes dir ++ p.1)
  else none

/-- Bytes of a layout 1 record. -/
def recordBytes (forms : List ColForm) : Nat :=
  roundUp (ceilDiv forms.length 8 + sumNat (forms.map (fun c => tyBytes c.ty c.width))) 8

/-- One layout 1 record. -/
def recordOf (forms : List ColForm) (x : Row) : List Byte :=
  let cells := forms.zipIdx.map (fun c => (c.1, x.vals.getD c.2 none))
  let bits := (chunks 8 cells).map (fun g =>
    BitVec.ofNat 8 (g.zipIdx.foldl (fun a p => a + p.1.2.isNone.toNat * 2 ^ p.2) 0))
  fitTo (recordBytes forms) (bits ++ cells.flatMap (fun c => match c.2 with
    | some v => valBytes c.1.ty c.1.width v
    | none => zeros (tyBytes c.1.ty c.1.width)))

/-- The whole output region; none when a VARCHAR value fits no block. -/
def RouteDesc.region (d : RouteDesc) (k : RouteKey) (rows : List Row) : Option (List Byte) :=
  let forms := d.forms d.emit
  let layout1 := bitAt (d.stage d.emit).options 1
  let body := if layout1 then some (rows.flatMap (recordOf forms)) else columnRegion forms rows
  body.map (fun b =>
    bytesOfWords
      [0x7C32 * 2 ^ 48 + layout1.toNat * 2 ^ 40 + forms.length * 2 ^ 32 + (if layout1 then recordBytes forms else 0),
       rows.length, b.length, k.id % 2 ^ 32 * 2 ^ 32 + k.tenant % 32 * 2 ^ 27, 0, 0, 0, 0] ++ b)

/-- What a publication forms: the region and the bytes of the combining table, or the condition that ends the route. The
spec gives neither size nor class of the table that the Summit combines groups in: it is a TABLE object of a power of two
of slots, at least 1,024 and 8/7 of the groups (DESIGN CHOICE, log 65). -/
def State.formResult (s : State) (r : Route) : Except (Nat × Nat) (List Byte × Nat) :=
  let d := r.desc
  let chain : Except (Nat × Nat) (List Row) := match r.work.stagingObj.bind (fun o => (s.objFault o).map (fun st => (o, st))) with
    | some (o, st) => .error (st, ((s.dobj? o).map (fun d => d.handle o)).getD 0)
    | none => s.stagingRows r.work.staging
  chain.bind (fun rows =>
    match d.resultRows rows with
    | none => .error (stArithFault, 0)
    | some out =>
      let sorted := limitRows (fld ((d.stage d.emit).w 2) 47 0) (d.outPlan.sort out)
      match d.region r.key sorted with
      | none => .error (stValueTooLong, 0)
      | some b =>
        let n := d.combined rows
        let src := (d.stage d.emit).inputA
        .ok (b, if n = 0 then 0 else pow2From 40 1024 (ceilDiv (8 * n) 7) * (d.aggPlan src).slotBytes))

/-! ## Publication (R208 to R211, R232) -/

/-- An object that nothing can name yet, for the new region. -/
def State.hiddenObj (s : State) (t cls : Nat) (k : RouteKey) : Option (Nat × State) :=
  if s.depot.objects.length < 262144 ∧ (s.objNumbers t).length < 65536 then
    let o := objKey t (lowestFree 0 (s.objNumbers t))
    some (o, s.putObj o { cls := cls, key := some k, ridge := 0, pages := [], content := .bytes [], forms := []
                          dying := false, hidden := true })
  else none

def State.setPublish (s : State) (k : RouteKey) (p : Option Publish) : State :=
  s.updRoute k (fun r => { r with publish := p })

/-- What stands between a publication and a page it lacks: an answer of a peer or the zeroing engine, or a failure with
its cause and class. -/
inductive Lack where
  | ask (m : Option (Asked × SvcMsg))
  | fail (cause cls : Nat)

/-- Takes pages of an object, one after another, as far as they are to be had; those taken stay (R232). -/
def State.growObj (s : State) (o index : Nat) : Nat → State × Option Lack
  | 0 => (s, none)
  | n + 1 =>
    match s.ensurePage o index with
    | .ok s => s.growObj o (index + 1) n
    | .wait m => (s, some (.ask m))
    | .fail c x s => (s, some (.fail c x))

/-- Takes the pages of one of a publication's objects, which it makes first where it does not exist. -/
def State.publishObj (s : State) (k : RouteKey) (have_ : Option Nat) (cls n : Nat) : State × Option Nat × Option Lack :=
  if n = 0 then (s, have_, none)
  else
    match (match have_ with
      | some o => some (o, s)
      | none => s.hiddenObj k.tenant cls k) with
    | none => (s, none, some (.fail causeMap cls))
    | some (o, s) =>
      match s.growObj o 0 (ceilDiv n (clsPage cls)) with
      | (s, some (.ask m)) => (s, some o, some (.ask m))
      | (s, l) => (s.settleAsk k.tenant k.id (fun c => c == cls), some o, l)

/-- Takes the pages a publication still lacks: first the combining table's, then the new region's. -/
def State.publishPages (s : State) (k : RouteKey) (p : Publish) : State × Publish × Option Lack :=
  let t := s.publishObj k p.table clsTable p.tableBytes
  match t.2.2 with
  | some f => (t.1, { p with table := t.2.1 }, some f)
  | none =>
    let o := t.1.publishObj k p.object clsOutput p.bytes.length
    (o.1, { p with table := t.2.1, object := o.2.1 }, o.2.2)

/-- A publication tries to go on: it runs, it waits for a page that a peer or the zeroing engine is to give, or it pauses
with a notice (R232). Each pause counts as a suspension in O:0x4002.5, which R229 counts and R232 does not name (DESIGN CHOICE;
log 65). -/
def State.publishStep (s : State) (k : RouteKey) (p : Publish) (pitch : Nat) : State :=
  let a := s.publishPages k p
  match a.2.2 with
  | none => a.1.setPublish k (some { a.2.1 with paused := none, lacks := false })
  | some (.ask m) => (a.1.setPublish k (some { a.2.1 with lacks := true })).askPage m
  | some (.fail cause cls) =>
    let s := a.1.setPublish k (some { a.2.1 with paused := some (p.paused.getD pitch), lacks := true })
    match s.route? k with
    | some r =>
      if p.paused.isNone then (s.oinc 0x4002 5 1).complete k.tenant r.cqid (r.notice cause (clsPage cls)) else s
    | none => s

/-- A route enters publication (R208). A condition of Table 06.10 ends it instead (R211). -/
def State.startPublication (s : State) (k : RouteKey) (pitch : Nat) : State :=
  match s.route? k with
  | none => s
  | some r =>
    match s.formResult r with
    | .error f => s.routeFault k 0x0008 f.1 f.2
    | .ok (b, tbl) =>
      s.publishStep k { startedAt := s.now, bytes := b, check := crc32c b, doneAt := none, paused := none
                        object := none, table := none, tableBytes := tbl, lacks := true } pitch

/-- The new region becomes the OUTPUT object's content, and its old pages go (R209). -/
def State.showRegion (s : State) (handle : Nat) (p : Publish) : State :=
  let o := objKey (hTenant handle) (hObj handle)
  match s.dobj? o, p.object with
  | some d, some n =>
    let fresh := ((s.dobj? n).map (fun x => x.pages)).getD []
    let s := d.pages.foldl State.freePage s
    let s := { s with depot := { s.depot with
      pages := s.depot.pages.map (fun (q : Nat × Page) =>
        if fresh.contains q.1 then (q.1, { q.2 with obj := o, key := none, spanPitch := 0 }) else q)
      objects := s.depot.objects.del n } }
    let s := s.putObj o { d with pages := fresh, content := .bytes (Memory.writeN [] 0 p.bytes) }
    (s.oinc 0x3060 4 1).oinc 0x3060 5 p.bytes.length
  | _, _ => s

/-- Drops a publication's pages. -/
def State.dropPublish (s : State) (p : Publish) : State :=
  let s := match p.object with
    | some o => s.freeObj o
    | none => s
  match p.table with
  | some o => s.freeObj o
  | none => s

end Sys2Proof.Machine
end

