-- ==== Sys2Proof/Machine/Spans.lean ====
section
/-! DEFINITION. The life of a span and of a route: opening, commit, replay, restart, suspension's end, publication and
final completion (R49 to R77, R208, R209, R229 to R232). -/
namespace Sys2Proof.Machine

/-- A route event of the route log, with the first source rope of its span (Tables 13.10 and 13.11). -/
def State.logRoute (s : State) (k : RouteKey) (event : Nat) : State :=
  match s.route? k with
  | none => s
  | some r =>
    let first := ((r.span.bind (fun sp => sp.sources.head?)).map (fun x => x.2.1)).getD 0
    s.logEvent k r.desc.priority 0 0 15 event first

/-- The effective quota of a route: halvings and the power step (R51). -/
def State.effQuota (s : State) (r : Route) : Nat :=
  let qh := max 1 (r.desc.quota / 2 ^ r.h)
  max 1 (qh * s.onum 0x7000 2 / 8)

/-- The source ropes a span takes: of each SCAN stage the next 16q that are not committed (R52). -/
def State.spanSources (s : State) (r : Route) (q : Nat) : List (Nat × Nat × Nat) :=
  (r.desc.stages.zipIdx.filter (fun p => p.1.kind == kScan)).filterMap (fun p =>
    let b := (r.base.next.find p.2).getD 0
    let total := r.desc.sourceCount p.2 s.sys.deviceId (r.lossesOf p.2)
    if b < total then some (p.2, b, min (16 * q) (total - b)) else none)

/-- Whether a kind of stage releases its state once its input is complete (R183, R199, R200). -/
def kindReleases (k : Nat) : Bool := k == kAgg || k == kSort || k == kMerge

/-- At the start of a span: releases whose input is complete, seals that are due, and source tasks. -/
def State.startTasks (s : State) (k : RouteKey) : State :=
  match s.route? k with
  | none => s
  | some r =>
    let rel := (r.desc.stages.zipIdx.filter (fun p => kindReleases p.1.kind && s.inputComplete r p.2)).map (fun p => p.2)
    let s := rel.foldl (fun s i => (List.range 16).foldl (fun s q =>
      if r.work.released.contains (srKey i q) then s
      else s.pushTask { key := k, stage := i, ridge := q, input := .release, seq := 0 }) s) s
    (s.readySeals k).fillSources

/-- A new span (R52) that opens at a tick; `pitch` is the pitch that starts there. -/
def State.openSpan (s : State) (k : RouteKey) (pitch : Nat) : State :=
  match s.route? k with
  | none => s
  | some r =>
    let q := s.effQuota r
    let sp : Span :=
      { openPitch := pitch, q := q, ext := 0, replaying := false, faultReplays := 0, sources := s.spanSources r q
        handedOut := [], releasedRopes := [], acks := [], acked := false, echo := false, verdict := none, allocated := [], freed := [], searched := []
        merged := [], doneByC := false, held := false }
    ((s.updRoute k (fun r => { r with span := some sp })).logRoute k 0x1).startTasks k

/-- A replayed span starts again at its first source rope (R65 step 5, R71); merges of pitches before the present one
are not repeated, as the span's entries of those pitches are gone (R207). -/
def State.restartSpan (s : State) (k : RouteKey) : State :=
  match s.route? k with
  | none => s
  | some r =>
    match r.span with
    | none => s
    | some sp =>
      if !sp.replaying || !r.conditions.isEmpty then s
      else
        let before := (List.range (s.pitch.number - sp.openPitch)).map (fun i => sp.openPitch + i)
        let sp' : Span :=
          { sp with
            replaying := false, sources := s.spanSources r sp.q, handedOut := [], releasedRopes := [], verdict := none
            allocated := [], freed := [], searched := [], merged := before, doneByC := false, held := false }
        (s.updRoute k (fun r => { r with span := some sp' })).startTasks k

/-- Steps 1 to 4 of a replay, after which the span waits for its restart. -/
def State.abandonSpan (s : State) (k : RouteKey) : State :=
  let s := s.discardSpan k
  s.mapSpan k (fun sp => { sp with
    replaying := true, allocated := [], freed := [], handedOut := [], releasedRopes := [], searched := []
    verdict := none, doneByC := false, held := false })

/-- Fault replays that a span may have (R76). -/
def faultReplayLimit : Nat := 5

/-- A fault replay of an open span on this device (R73, R74, R76). A fault that comes while the span waits for its restart
costs no replay of its own: the restart comes after both (R20; log 49). -/
def State.faultReplay (s : State) (k : RouteKey) : State :=
  match s.route? k with
  | none => s
  | some r =>
    match r.span with
    | none => s
    | some sp =>
      if sp.replaying then s
      else
      let s := s.logRoute k 0x7
      let s := s.abandonSpan k
      let s := s.oinc 0x2003 2 1
      let s := s.updRoute k (fun r => { r with
        replays := r.replays + 1
        span := r.span.map (fun (sp : Span) => { sp with
          faultReplays := sp.faultReplays + 1, ext := 0, echo := !s.isHome k }) })
      let s := if s.isHome k then s.sendVerdict k 6 (s.pitch.number - 1)
        else match (s.route? k).bind (fun r => r.span.map (fun sp => (r, sp))) with
          | some (r, sp) => s.sendBelay r sp k.home 2 s.pitch.number
          | none => s
      if faultReplayLimit ≤ sp.faultReplays + 1 then s.endAt k stReplayExhausted else s

/-- Every open span of this device is replayed (R73). -/
def State.replayAll (s : State) : State :=
  (s.routes.filter (fun r => r.span.isSome)).foldl (fun s r => s.faultReplay r.key) s

/-! ## Commit (R54, R64) -/

/-- Releases with nothing to release are done without a task. -/
def Route.nothingLeft (r : Route) (stage ridge : Nat) : Bool :=
  if (r.desc.stage stage).kind = kAgg then ((r.agg? stage ridge).map (fun a => a.groups.isEmpty)).getD true
  else ((r.sort? stage ridge).map SortSt.spent).getD true

/-- Marks the releases that have nothing to release, in stage order. -/
def State.settleReleases (s : State) (k : RouteKey) : State :=
  match s.route? k with
  | none => s
  | some r0 =>
    (List.range r0.desc.stages.length).foldl (fun s i =>
      match s.route? k with
      | none => s
      | some r =>
        if kindReleases (r.desc.stage i).kind && s.inputComplete r i then
          let fresh := (List.range 16).filter (fun q =>
            !r.work.released.contains (srKey i q) && r.nothingLeft i q)
          fresh.foldl (fun s q => s.endRelease k i q) s
        else s) s

/-- Whether a route has no source rope, no release and no task left (R208). -/
def State.routeDone (s : State) (r : Route) : Bool :=
  r.span.isNone && s.inputComplete r r.desc.emit && !(s.allTasks.any (fun t => t.key == r.key))

/-- What a committed span has taken of each SCAN stage: here, and at most on each other device (R52). -/
def RouteWork.grantedOn (w : RouteWork) (d : RouteDesc) (sp : Span) : RouteWork :=
  let scans := (d.stages.zipIdx.filter (fun p => p.1.kind == kScan)).map (fun p => p.2)
  { w with
    next := sp.sources.foldl (fun (m : SMap Nat) x => m.put x.1 (x.2.1 + x.2.2)) w.next
    granted := scans.foldl (fun (m : SMap Nat) i => m.put i ((m.find i).getD 0 + 16 * sp.q)) w.granted }

/-- The belay of a span: its state stands, its journal records go, its freed pages are released. -/
def State.commitSpan (s : State) (k : RouteKey) : State :=
  match s.route? k with
  | none => s
  | some r =>
    match r.span with
    | none => s
    | some sp =>
      let s := s.logRoute k 0x5
      let s := s.depotBelay k
      let clean (p : Page) : Page := if p.key = some k then { p with pdLines := [] } else p
      let s := { s with depot := { s.depot with
        journal := s.depot.journal.filter (fun j => !(j.key == k && j.spanPitch == sp.openPitch))
        pages := s.depot.pages.map (fun (p : Nat × Page) => (p.1, clean p.2))
        migrations := s.depot.migrations.map (fun (m : Migration) =>
          if ((s.depot.pages.find m.page).bind (fun p => p.key)) = some k then { m with live := false } else m) } }
      let s := s.noteUse sp
      let s := (s.updRoute k (fun r => { r with span := none, work := r.work.grantedOn r.desc sp })).refreshDir
      let s := s.settleReleases k
      s.updRoute k (fun r => { r with base := r.work })

/-! ## Ends -/

/-- A route ends: its open span is discarded without a belay (R57, R72, R146), a publication is dropped (R211). -/
def State.endRoute (s : State) (k : RouteKey) (status tick : Nat) (record : Bool) : State :=
  match s.route? k with
  | none => s
  | some r =>
    if r.finalDue then s
    else
      let s := if r.span.isSome then s.discardSpan k else s
      let s := match r.publish with
        | some p => s.dropPublish p
        | none => s
      s.closeOut k status tick 0 record

/-- The region becomes visible and the route completes OK (R209, R89). -/
def State.publishRoute (s : State) (k : RouteKey) (tick : Nat) : State :=
  match s.route? k with
  | none => s
  | some r =>
    match r.publish with
    | none => s
    | some p =>
      let s := s.showRegion r.desc.outputHandle p
      let s := match p.table with
        | some o => s.freeObj o
        | none => s
      s.closeOut k stOk tick (if r.desc.replay then p.check else 0) true

/-- Statuses that end a route at a tick: conditions detected, and aborts and resets admitted (R57, R146). -/
def Route.endStatuses (r : Route) (tick : Nat) : List Nat :=
  (match r.endTick with
   | some t => if t ≤ tick then r.conditions else []
   | none => [])
  ++ (r.aborts.filter (fun a => decide (a.2 ≤ tick))).map (fun a => a.1)

/-- Whether the final record of a route is written: not while its function is being reset (Table 13.9). -/
def State.writesFinal (s : State) (k : RouteKey) : Bool := (s.fn k.tenant).resetting != some .function

/-- What a tick does to end one route; `d` is the decision instant before it. A region whose publication ended by then
becomes visible whatever ends the route besides (R57). A participant without a message of its own reports the end of
its part to the home with ROUTE_END (log 39). -/
def State.endAtTick (s : State) (tick d : Nat) (k : RouteKey) : State :=
  match s.route? k with
  | none => s
  | some r =>
    if r.finalDue then s
    else if s.isHome k then
      match r.publish.bind (fun p => p.doneAt) with
      | some t =>
        if t ≤ d then
          if s.writesFinal k then s.publishRoute k tick else s.endRoute k stTenantReset tick false
        else if (r.endStatuses tick).isEmpty then s
        else s.endRoute k (pickStatus (r.endStatuses tick)) tick (s.writesFinal k)
      | none =>
        if (r.endStatuses tick).isEmpty then s
        else s.endRoute k (pickStatus (r.endStatuses tick)) tick (s.writesFinal k)
    else
      let st := r.endStatuses tick
      if st.isEmpty then s
      else
        let s := s.send (.svc { op := 0xC1, source := s.sys.deviceId, dest := k.home, tenant := k.tenant, route := k.id
                                arg := pickStatus st })
        let s := if r.span.isSome then s.discardSpan k else s
        s.updRoute k (fun r => { r with span := none, conditions := [], endTick := none })

/-! ## Suspended routes (R230) -/

/-- Where a page of a resumption could come from: a free page of a local tier, cleared or not, the peer's region, of
which some bytes are left, or the tenant's spill ranges (R230, Table 07.3). -/
def State.roomPage (s : State) (t cls peer : Nat) (k : RouteKey) : Option (Nat × Nat) :=
  let size := clsPage cls
  let near := (clsTiers cls).findSome? (fun x =>
    if x = 2 ∨ (x = 0 ∧ s.aboveLowWater size = false) then none else (s.fitPage x size false).map (fun a => (x, a)))
  match near with
  | some p => some p
  | none =>
    if size ≤ peer ∧ s.tier2Peer.isSome = true then some (2, 0)
    else (s.spillFor t cls (some k)).map (fun a => (3, a))

/-- Takes pages of a class for an object of a trial state (fuel: the pages); what is left of the peer's region goes
along. -/
def State.takeRoom (s : State) (t cls o peer : Nat) (k : RouteKey) : Nat → Bool × State × Nat
  | 0 => (true, s, peer)
  | n + 1 =>
    match s.dobj? o, s.roomPage t cls peer k with
    | some d, some (tier, a) =>
      if 8388608 ≤ s.depot.pages.length then (false, s, peer)
      else (s.addPage o d.pages.length d tier a).takeRoom t cls o (if tier = 2 then peer - clsPage cls else peer) k n
    | _, _ => (false, s, peer)

/-- Reserves a footprint on a trial state: it answers whether every class fits, and what was taken. -/
def State.reserve (s : State) (t peer : Nat) (k : RouteKey) : List (Nat × Nat) → Bool × State × Nat
  | [] => (true, s, peer)
  | (c, n) :: l =>
    if n = 0 then s.reserve t peer k l
    else
      match s.newObj t c 0 (some k) (.bytes []) [] with
      | none => (false, s, peer)
      | some (o, s) =>
        let a := s.takeRoom t c o peer k (ceilDiv n (clsPage c))
        if a.1 then a.2.1.reserve t a.2.2 k l else a

/-- What the choice of a tick has reserved so far: a trial state that holds its pages, the bytes left of the peer's region, and
bytes of tenants' quotas for which the trial holds no page. -/
structure Trial where
  s : State
  peer : Nat
  extra : SMap Nat

/-- A tenant's use with the reservations made so far. -/
def Trial.used (x : Trial) (t : Nat) : Nat := x.s.depotUsed t + (x.extra.find t).getD 0

/-- Whether a suspended route resumes, and the trial with its whole footprint reserved. -/
def Trial.resume (x : Trial) (r : Route) (sus : Suspend) : Bool × Trial :=
  let t := r.key.tenant
  let a := x.s.reserve t x.peer r.key ((sus.footprint.zipIdx).map (fun p => (p.2, p.1)))
  let all := sumNat sus.footprint
  let rest := all - (a.2.1.depotUsed t - x.s.depotUsed t)
  (if sus.cause = causeQuota then decide (all + x.used t ≤ x.s.depotQuota t) else a.1,
   { s := a.2.1, peer := a.2.2, extra := if rest = 0 then x.extra else x.extra.put t ((x.extra.find t).getD 0 + rest) })

/-- Suspended routes that resume at a tick: ascending suspension tick, then route id. -/
def State.resumable (s : State) : List RouteKey :=
  let sus := (s.routes.filter (fun r => s.isHome r.key)).filterMap (fun r => r.suspended.map (fun x => (r, x)))
  let order := sortBy (fun (a b : Route × Suspend) => decide (a.2.tick < b.2.tick)
    || (a.2.tick == b.2.tick && decide (a.1.key.id < b.1.key.id))) sus
  (order.foldl (fun (acc : List RouteKey × Trial) x =>
    if !x.1.conditions.isEmpty then acc
    else
      let a := acc.2.resume x.1 x.2
      if a.1 then (acc.1 ++ [x.1.key], a.2) else acc) ([], { s := s, peer := Config.peerRoom s.now, extra := [] })).1

/-- The home tells the other participants that a route is open (R358). -/
def State.openAtPeers (s : State) (r : Route) : State :=
  (r.parts.filter (fun x => x != s.sys.deviceId)).foldl (fun s x =>
    s.sendSvc 0xC0 x r.key.tenant r.key.id (r.copyLine s.sys.deviceId) (r.copy.length % 2 ^ 32 * 2 ^ 96) 0) s

/-- Suspended routes resume: their next span opens at this tick (R230), at the other participants too (log 38). -/
def State.resumeRoutes (s : State) : State :=
  s.resumable.foldl (fun s k =>
    let s := s.updRoute k (fun r => { r with suspended := none })
    let s := s.logRoute k 0x9
    match s.route? k with
    | some r => s.openAtPeers r
    | none => s) s

/-- Routes that open a span or enter publication at a tick; `n` is the tick. -/
def Route.idle (r : Route) (n : Nat) : Bool :=
  r.span.isNone && r.suspended.isNone && r.publish.isNone && !r.finalDue && r.conditions.isEmpty
    && decide (r.firstTick ≤ n)

/-- A peer has been lost to the routes homed here: a MIRRORED route goes on with its mirrors, another ends (R75, R498). -/
def State.losePeer (s : State) (dev : Nat) : State :=
  let lose (r : Route) : Route :=
    { r with lostDevices := r.lostDevices ++ [dev], losses := r.losses ++ [(dev, r.base.granted)] }
  s.routes.foldl (fun s r =>
    if r.finalDue || !r.parts.contains dev then s
    else if s.isHome r.key then
      if r.desc.mirrored && r.desc.ranges.all (fun g =>
          (g.device != dev || (g.hasMirror && !r.lostDevices.contains g.mirror))
            && !(r.lostDevices.contains g.device && g.mirror == dev)) then
        let s := s.updRoute r.key lose
        if r.span.isSome then s.faultReplay r.key else s
      else if r.conditions.contains stReplayExhausted then s
      else s.endAt r.key stReplayExhausted
    else if r.desc.mirrored then s.updRoute r.key lose
    else s) s

end Sys2Proof.Machine
end

