-- ==== Sys2Proof/Machine/Walk.lean ====
section
/-! DEFINITION. The walk for a dead agent (R332, R334): one fenced L2 or every agent of a device. -/
namespace Sys2Proof.Machine

/-- Open transactions that wait for dead agents take the answer as ACK with STATE I. -/
def State.ackForDead (s : State) (dead : Nat → Bool) : State :=
  let l := s.coh.open_.flatMap (fun t => (t.waiting.filter dead).map (fun a => (t.tracker, t.line, a)))
  l.foldl (fun s x =>
    match s.coh.open_.find? (fun t => t.tracker == x.1 && t.line == x.2.1 && t.waiting.contains x.2.2) with
    | none => s
    | some t =>
      let s := s.setDir t.line ((s.dirEnt t.line).release s.sys.deviceId x.2.2)
      s.takeAnswer { op := opAck, src := x.2.2, dst := s.homeAgent t.line, txn := t.tracker, line := t.line } t none
        false false) s

/-- A line whose only current copy died: poisoned, its other holders invalidated, its entry gone. -/
def State.poisonLine (s : State) (dead : Nat → Bool) (l : Nat) : State :=
  let e := s.dirEnt l
  let dev := s.sys.deviceId
  (s.setDir l { e with state := .S, owner := 0, ridges := e.ridges.filter (fun r => !dead (agentOf dev r))
                       devices := e.devices.filter (fun d => !dead (agentOf d locProxy)) }).poison l

/-- What the walk does to one entry that is not owned dirty by the dead. -/
def State.walkEntry (s : State) (dead : Nat → Bool) (l : Nat) : State :=
  let e := s.dirEnt l
  if e.state = .G then
    if dead e.owner then
      let pd := match s.linePage l with
        | some (_, p) => s.pdBit p l
        | none => false
      let s := s.setDir l DirEnt.empty
      if pd then s.poison l else s
    else s
  else
    let gone := (e.holders s.sys.deviceId).filter dead
    gone.foldl (fun s a => s.setDir l ((s.dirEnt l).release s.sys.deviceId a)) s

/-- Whether the walk marks a line P: its dirty owner is dead. -/
def DirEnt.lostOwner (e : DirEnt) (dead : Nat → Bool) : Bool :=
  (e.state == .M || e.state == .O) && dead e.owner

/-- The walk on this device's homes (R334), with its record, which names the agent and the lines marked P. -/
def State.walk (s : State) (dead : Nat → Bool) (name : Nat) : State :=
  let before := s.onum 0x6100 9
  let s := { s with coh := { s.coh with
    queued := s.coh.queued.filter (fun m => !dead m.src)
    tokens := s.coh.tokens.filter (fun t => !dead t.2.1) } }
  let lost := (s.coh.dir.filter (fun p => p.2.lostOwner dead)).map (fun p => 64 * p.1)
  let s := s.ackForDead dead
  let s := lost.foldl (fun s l => s.poisonLine dead l) s
  let rest := (s.coh.dir.filter (fun p => (p.2.holders s.sys.deviceId).any dead || dead p.2.owner)).map (fun p => 64 * p.1)
  let s := rest.foldl (fun s l => s.walkEntry dead l) s
  let s := ((List.range 0x32).filter locHome).foldl (fun s h => s.grantTokens h s.coh.tokens.length) s
  let s := s.oinc 0x6100 8 1
  s.raise { severity := 2, source := 0x0005, address := name, w4 := objW4 0x6100 8
            count := max 1 (s.onum 0x6100 9 - before) }

/-- A fenced L2 is dead at once (R73, R333): what it held is lost with the L1s under it, and its messages are refused from
then on (R334). -/
def State.fenceL2 (s : State) (p : Nat) : State :=
  let a := s.agent p
  let cut (n : Nat) (m : SMap (List Way)) : SMap (List Way) :=
    (m.filter (fun x => x.1 / n != p || x.2.any (fun w => w.fenced))).map (fun x =>
      (x.1, if x.1 / n = p then x.2.map (fun w => if w.fenced then w else invalidWay) else x.2))
  let s := { s with cache := { s.cache with
    l2 := cut 4096 s.cache.l2, l1d := cut (9 * 256) s.cache.l1d, l1i := cut (9 * 128) s.cache.l1i } }
  let left := s.coh.remote.map (fun (x : Nat × (List Nat × LineState)) => (x.1, (x.2.1.filter (fun r => r != p), x.2.2)))
  let s := { s with coh := { s.coh with
    remote := left.filter (fun x => !x.2.1.isEmpty)
    fencedL2 := if s.coh.fencedL2.contains p then s.coh.fencedL2 else s.coh.fencedL2 ++ [p] } }
  s.walk (fun b => b == a) a

/-- Every line of a device's memory leaves this device's caches, dirty or not (R334, R335). -/
def State.dropHomed (s : State) (gone : Nat → Bool) : State :=
  let cut (m : SMap (List Way)) : SMap (List Way) := m.map (fun p => (p.1, p.2.map (fun w =>
    if w.state ≠ .I ∧ gone (lineDev w.line) = true then { w with state := .I, dirty := false, data := [] } else w)))
  { s with
    cache := { s.cache with l2 := cut s.cache.l2, l1d := cut s.cache.l1d, l1i := cut s.cache.l1i }
    coh := { s.coh with
      remote := s.coh.remote.filter (fun x => !gone (lineDev (64 * x.1)))
      wbBuf := s.coh.wbBuf.filter (fun w => !gone (lineDev w.line)) } }

/-- Requests of this device to a dead device's memory fail with BUS_ERROR (R334). -/
def State.failRequests (s : State) (d : Nat) : State :=
  let l := s.coh.requests.filter (fun r => agentDev r.msg.dst == d)
  l.foldl (fun s r =>
    let s := s.dropReq r
    let line := r.msg.line
    match r.purpose with
    | .strand st => (s.bufferLine line stBusError (zeros 64)).wakeStrand st line
    | .engine _ => s.bufferLine line stBusError (zeros 64)
    | .unit => s.bufferLine line stBusError (zeros 64)
    | .write .. => s
    | .fill .. => s.bufferLine line stBusError (zeros 64)
    | .cxl a => if r.msg.op = opWrNc then s.emit (.cxlDone a) else s.emit (.cxlData a (zeros 64) true)
    | .maint => s.deliver r .I stOk false []
    | .routeCopy _ _ => s
    | .depot => s
    | .dropped => s) s

/-- A survivor applies the death of a device (R334, R75): its messages are refused from now on, homes walk, lines
homed there go, and the routes that need it replay or end. -/
def State.applyDeath (s : State) (d : Nat) : State :=
  if s.coh.dead.contains d || d == s.sys.deviceId then s
  else
    let s := { s with
      coh := { s.coh with dead := s.coh.dead ++ [d] }
      link := { s.link with
        asked := s.link.asked.filter (fun a => a.device != d)
        outbound := s.link.outbound.filter (fun o => o.device != d) }
      depot := { s.depot with pageAsks := s.depot.pageAsks.filter (fun m => m.source != d) } }
    let s := s.walk (fun a => agentDev a == d) (agentOf d locProxy)
    let s := (s.dropHomed (fun x => x == d)).failRequests d
    let orphans := (s.routes.filter (fun r => r.key.home == d)).map (fun r => r.key)
    let s := orphans.foldl (fun s k =>
      let s := if ((s.route? k).bind (fun r => r.span)).isSome then s.discardSpan k else s
      s.closeOut k stReplayExhausted s.pitch.number 0 false) s
    s.losePeer d

end Sys2Proof.Machine
end

