-- ==== Sys2Proof/Machine/Retreat.lean ====
section
/-! DEFINITION. Spares and retreat: failing strands and ridges (Table 01.2, R16 to R20), entry into RETREAT and its
causes (R76, R495, R496), FATAL records (Table 15.6). -/
namespace Sys2Proof.Machine

/-! ## Retreat (R495, R496) -/

def causeThermal : Nat := 0
def causeSpares : Nat := 1
def causeMeasurement : Nat := 2
def causeManagement : Nat := 3
def causeDeath : Nat := 4
def causeFatal : Nat := 5

/-- Sets a cause bit of RETREAT_CAUSE. -/
def setBit (n i : Nat) : Nat := if bitAt n i then n else n + 2 ^ i

/-- The ridges leave service: spans are discarded, routes complete with RETREAT, the L2s are swept (R496). A route homed
on a peer keeps only what it committed. -/
def State.retreatWork (s : State) : State :=
  let s := s.routes.foldl (fun s r =>
    if s.isHome r.key then s
    else (if r.span.isSome then s.discardSpan r.key else s).updRoute r.key (fun r => { r with span := none })) s
  let s := s.routes.foldl (fun s r =>
    if s.isHome r.key then s.endRoute r.key stRetreat (s.pitch.number - 1) true else s) s
  (List.range 17).foldl State.sweepL2 s

/-- A retreat cause arises: the device enters RETREAT, or adds the cause, or holds it until a formation ends (R477, R494,
R495); a cause during the exit cancels it (R499). -/
def State.enterRetreat (s : State) (bit : Nat) : State :=
  match s.sys.state with
  | .operational =>
    let s := (s.oset 0x7010 1 (setBit (s.onum 0x7010 1) bit)).oinc 0x7010 2 1
    ({ s with sys := { s.sys with state := .retreat, exiting := false, bivouacArmed := none } }).retreatWork
  | .forming =>
    let s := (s.oset 0x7010 1 (setBit (s.onum 0x7010 1) bit)).oinc 0x7010 2 1
    ({ s with sys := { s.sys with state := .retreat, exiting := false, bivouacArmed := none } }).retreatWork
  | .retreat =>
    let s := s.oset 0x7010 1 (setBit (s.onum 0x7010 1) bit)
    { s with sys := { s.sys with exiting := false } }
  | _ => { s with sys := { s.sys with heldCauses := setBit s.sys.heldCauses bit } }

/-- A FATAL_DEVICE record, which is a retreat cause (Table 15.6, Table 17.5). -/
def State.fatalDevice (s : State) (a : RecArgs) : State :=
  (s.raise { a with severity := 4, closing := some .never }).enterRetreat causeFatal

/-! ## Spares (R16 to R20, Table 01.2) -/

/-- The physical ridges and strands that may carry logical numbers, lowest first (R16, R17). -/
def FlashSt.healthyRidges (f : FlashSt) : List Nat := (List.range 17).filter (fun p => !f.ridgeMarks.contains p)
def FlashSt.healthyStrands (f : FlashSt) (p : Nat) : List Nat :=
  (List.range 9).filter (fun k => !f.strandMarks.contains (p, k))

/-- The logical number that a physical ridge carries. -/
def State.logicalRidge (s : State) (p : Nat) : Option Nat := s.sys.ridgeMap.findIdx? (fun x => x == p)

/-- The banks of a logical ridge are loaded from their shadows (R179). -/
def State.reloadRidge (s : State) (q : Nat) : State :=
  (s.ownedBanks.filter (fun k => k / 4 == q)).foldl State.reloadBank s

/-- Two active ridges fail in one pitch: the spare that the higher logical number took goes to the lower (Table 01.2). -/
def State.passSpare (s : State) (low high p : Nat) : State :=
  let s := (s.settleWrong low).settleWrong high
  ({ s with sys := { s.sys with
    ridgeMap := (s.sys.ridgeMap.set low (s.sys.ridgeMap.getD high p)).set high p
    spareGiven := some (low, s.pitch.number) } } : State).reloadRidge low

/-- A physical ridge fails or is retired: its mark persists (R19), its caches are swept, or lost where it failed (R73,
R333); the spare takes its logical
number, or the device goes into retreat (Table 01.2). The standing spare is only marked. -/
def State.loseRidge (s : State) (p : Nat) (failed : Bool) : State :=
  let leave (s : State) : State := if failed then s.fenceL2 p else s.sweepL2 p
  let s := { s with
    flash := { s.flash with ridgeMarks := if s.flash.ridgeMarks.contains p then s.flash.ridgeMarks else s.flash.ridgeMarks ++ [p] }
    sys := { s.sys with retired := if s.sys.retired.contains p then s.sys.retired else s.sys.retired ++ [p] } }
  if s.sys.spareRidge = some p then
    leave ({ s with sys := { s.sys with spareRidge := none } })
  else
    match s.logicalRidge p with
    | none => s
    | some q =>
      let s := leave (s.settleWrong q)
      match s.sys.spareRidge with
      | some x =>
        ({ s with sys := { s.sys with
          ridgeMap := s.sys.ridgeMap.set q x, spareRidge := none, spareGiven := some (q, s.pitch.number) } }).reloadRidge q
      | none =>
        (match s.sys.spareGiven with
          | some (h, n) =>
            if n = s.pitch.number ∧ q < h then s.passSpare q h p else s
          | none => s).enterRetreat causeSpares

/-- A physical strand fails: the ridge's spare strand takes its logical number, or the ridge is retired (R17, Table
01.2). A spare that fails is only marked. -/
def State.loseStrand (s : State) (p k : Nat) : State :=
  let map := s.sys.strandMap.getD p []
  let spare := (s.flash.healthyStrands p).find? (fun x => !map.contains x)
  let s := { s with flash := { s.flash with
    strandMarks := if s.flash.strandMarks.contains (p, k) then s.flash.strandMarks else s.flash.strandMarks ++ [(p, k)] } }
  match map.findIdx? (fun x => x == k) with
  | none => s
  | some j =>
    match spare with
    | some x => { s with sys := { s.sys with strandMap := s.sys.strandMap.set p (map.set j x) } }
    | none => s.loseRidge p false

/-- Whether a physical strand or ridge is at work, so that its failure ends in a replay. -/
def State.strandActive (s : State) (p k : Nat) : Bool :=
  (s.logicalRidge p).isSome && (s.sys.strandMap.getD p []).contains k

/-- Whether a physical ridge is active or the standing spare. -/
def State.inService (s : State) (p : Nat) : Bool :=
  !s.sys.retired.contains p && ((s.logicalRidge p).isSome || s.sys.spareRidge == some p)

/-- The fabric path to a participant fails (R73): it is fenced, one RECOVERABLE record is raised, and the open spans of the
routes that the participant takes part in replay. -/
def State.pathFails (s : State) (d : Nat) : State :=
  let mine := (s.routes.filter (fun r => r.span.isSome && r.parts.contains d)).map (fun r => r.key)
  let s := s.raise { severity := 2, source := 0x0005, w4 := objW4 0x2003 2
                     closing := if mine.isEmpty then none else some .atReplay }
  let s := { s with sys := { s.sys with
    fencedPaths := if s.sys.fencedPaths.contains d then s.sys.fencedPaths else s.sys.fencedPaths ++ [d] } }
  mine.foldl State.faultReplay s

/-- A resource fails (R73): it is fenced, one RECOVERABLE record is raised that stays open until the restart, and every
open span of the device replays unless the device goes into retreat or the resource held no work. -/
def State.resourceFails (s : State) (r : Resource) : State :=
  let note (s : State) (source : Nat) : State :=
    s.raise { severity := 2, source := source, w4 := objW4 0x2003 2
              closing := if s.routes.any (fun r => r.span.isSome) then some .atReplay else none }
  match r with
  | .strand p k =>
    if 16 < p ∨ 8 < k ∨ s.flash.strandMarks.contains (p, k) = true ∨ s.inService p = false then s
    else
      let active := s.strandActive p k
      if active then (((note s 0x0009).loseStrand p k)).replayAll
      else (s.raise { severity := 2, source := 0x0009 }).loseStrand p k
  | .ridge p =>
    if s.inService p = false then s
    else if (s.logicalRidge p).isSome then ((note s 0x0008).loseRidge p true).replayAll
    else (s.raise { severity := 2, source := 0x0008 }).loseRidge p true
  | .path d => if d = s.sys.deviceId ∨ s.sys.deviceCount ≤ d then s else s.pathFails d
  | .registers .. => s
  | .itt .. => s
  | .array .. => s
  | .cairnRow .. => s
  | .memory .. => s
  | .depotMap _ => s
  | .basecamp => s

/-- RIDGE_RETIRE takes effect at a belay (R482): open spans are replayed when there are any. -/
def State.retireAskedRidges (s : State) : State :=
  let asked := s.sys.retireAsked
  let s := { s with sys := { s.sys with retireAsked := [] } }
  asked.foldl (fun s p =>
    let active := (s.logicalRidge p).isSome
    let s := s.loseRidge p false
    if active then s.replayAll else s) s

end Sys2Proof.Machine
end

