-- ==== Sys2Proof/Machine/Resets.lean ====
section
/-! DEFINITION. Functions and tenants, and the reset of a tenant (R366, R385, R415, Table 13.9), with the FATAL_TENANT
records that start one (Table 15.6). -/
namespace Sys2Proof.Machine

/-! ## Functions (R366) -/

/-- Links of a host port under its bifurcation. -/
def State.linkCount (s : State) (h : Nat) : Nat :=
  if s.onum (pobj 0x6080 h) 1 = 0 then 1 else if s.onum (pobj 0x6080 h) 1 = 1 then 2 else 4

/-- The functions that the members give now, in tenant order: (port, link, 0 for the physical function or the number of a
virtual one). -/
def State.functionsNow (s : State) : List (Nat × Nat × Nat) :=
  (List.range 2).flatMap (fun h => (List.range (s.linkCount h)).flatMap (fun k =>
    (List.range (s.onum (pobj 0x6080 h) (6 + k) + 1)).map (fun v => (h, k, v))))

/-- The functions in tenant order: fixed at formation, and before the first one as the members give them (log 55). -/
def State.functions (s : State) : List (Nat × Nat × Nat) :=
  if s.host.fixed.isEmpty then s.functionsNow else s.host.fixed

/-- Whether the host has enabled a function: a physical one, or a virtual one up to the link's NumVFs. -/
def State.fnEnabled (s : State) (f : Nat × Nat × Nat) : Bool :=
  f.2.2 == 0 || (match s.host.numVfs.find (f.1 * 4 + f.2.1) with
    | some n => decide (f.2.2 ≤ n)
    | none => true)

/-- Whether a tenant number has a function that the host has enabled. -/
def State.tenantOk (s : State) (t : Nat) : Bool := decide (t < 32) && (s.functions[t]?).any s.fnEnabled

/-- The host port of a tenant's function. -/
def State.tenantPort (s : State) (t : Nat) : Nat := ((s.functions[t]?).map (fun f => f.1)).getD 0

/-- FN_ID (Table 13.4). -/
def State.fnId (s : State) (t : Nat) : Nat :=
  match s.functions[t]? with
  | some (h, k, v) => t + 256 * h + 512 * k + (if v = 0 then 0 else 2048)
  | none => 0

/-- A violation at a host port (R390). -/
def State.hostViolation (s : State) (port : Nat) : State := s.oinc (pobj 0x6080 port) 5 1

/-! ## Engine work of a tenant (R415) -/

/-- Whether a tenant owns a channel (R396). -/
def State.ownsChannel (s : State) (t c : Nat) : Bool := decide (c < 64) && bitAt (s.onum (tobj 0x9038 t) 1) c

def Chan.idle : Chan := { state := .idle, current := none, waiting := [], fault := none, stops := [] }

def State.chan (s : State) (c : Nat) : Chan := (s.eng.chans.find c).getD Chan.idle

def State.setChan (s : State) (c : Nat) (x : Chan) : State :=
  { s with eng := { s.eng with chans := if x = Chan.idle then s.eng.chans.del c else s.eng.chans.put c x } }

/-- Admitted engine entries of a channel that have not completed. -/
def Chan.entries (x : Chan) : List EngEntry := x.current.toList ++ x.waiting ++ x.stops

/-- Admitted engine entries of a tenant, in admission order. -/
def State.engineEntries (s : State) (t : Nat) : List EngEntry :=
  sortBy (fun (a b : EngEntry) => decide (a.order < b.order))
    ((s.eng.chans.flatMap (fun p => p.2.entries)).filter (fun e => e.entry.tenant == t))

/-- The fields of an entry's unit 0 (Tables 13.5 and 14.2). -/
def entW (e : Entry) (i : Nat) : Nat := e.words.getD i 0
def entOpcode (e : Entry) : Nat := fld (entW e 0) 63 56
def entLength (e : Entry) : Nat := fld (entW e 0) 55 48
def entCid (e : Entry) : Nat := fld (entW e 0) 47 32
def entInline (e : Entry) : Bool := bitAt (entW e 0) 0

/-- The completion of an engine entry (Table 14.3); `fault` is the latched fault of a halt. -/
def EngEntry.record (x : EngEntry) (status value aux : Nat) (fault : Option AccessFault) : Completion :=
  let e := x.entry
  { status := status, cid := entCid e, qid := e.qid, opcode := entOpcode e, w2 := value, w3 := entW e 6
    w4 := (fault.map (fun f => f.addr)).getD 0
    w5 := (match fault with
      | some f => 2 ^ 63 + f.write.toNat * 2 ^ 62 + f.space % 4 * 2 ^ 60
      | none => 0) + min aux (2 ^ 32 - 1)
    w6 := x.admitTime }

/-- Posts the completion of an engine entry (R395). -/
def State.postEngine (s : State) (x : EngEntry) (status value aux : Nat) (fault : Option AccessFault) : State :=
  s.complete x.entry.tenant x.cqid (x.record status value aux fault)

/-- A reset takes a tenant's engine work away: its channels idle, engines free, contexts wiped; a management reset posts
TENANT_RESET for what was admitted. -/
def State.resetEngines (s : State) (t : Nat) (post : Bool) : State :=
  let l := s.engineEntries t
  let mine := (s.eng.chans.filter (fun p => s.ownsChannel t p.1)).map (fun p => p.1)
  let s := { s with eng := { s.eng with
    chans := s.eng.chans.filter (fun p => !mine.contains p.1)
    engines := s.eng.engines.filter (fun p => !mine.contains p.2)
    contexts := s.eng.contexts.filter (fun p => p.2.tenant != t) } }
  let s := s.releaseHeld
  if post then l.foldl (fun s x => s.postEngine x stTenantReset 0 0 none) s else s

/-! ## The reset of a tenant (R385) -/

/-- A LOAD_CAIRN that waits within its list stops there; after a management reset its record says so (R385, log 13). -/
def State.stopCairn (s : State) (t : Nat) : State :=
  match s.cairn.listAt.find t, s.host.fetched.find? (fun e => e.tenant == t && e.qid == 0) with
  | some i, some e =>
    let s := { s with
      cairn := { s.cairn with listAt := s.cairn.listAt.del t }
      host := { s.host with fetched := s.host.fetched.erase e } }
    match s.wq? t 0 with
    | some w => s.complete t w.cq { status := stTenantReset, cid := entCid e, qid := 0, opcode := entOpcode e, w2 := i }
    | none => s
  | _, _ => { s with cairn := { s.cairn with listAt := s.cairn.listAt.del t } }

/-- What a reset tenant held goes: Depot objects, spill ranges, Cairn tables, weight, log, and its queues where its
function was reset, with the records that wait in them (Table 13.9 step 3, R238). -/
def State.tenantSweep (s : State) (t : Nat) : State :=
  let flr := s.fnSilent t
  let s := if flr then s else s.stopCairn t
  let s := (s.cairn.tables.filter (fun x => x.tenant == t)).foldl State.dropTable s
  let mine := (s.depot.objects.filter (fun p => p.1 / 65536 == t
    && !(s.routes.any (fun r => some r.key == p.2.key)))).map (fun p => p.1)
  let s := mine.foldl State.freeObj s
  let s := { s with
    depot := { s.depot with spills := s.depot.spills.filter (fun r => r.tenant != t) }
    sched := { s.sched with weight := s.sched.weight.del t, weightAsked := s.sched.weightAsked.del t }
    host := { s.host with
      logs := s.host.logs.del t, logAsked := s.host.logAsked.del t, logHeld := s.host.logHeld.filter (fun e => e.1 != t) } }
  let s := { s with objs := s.objs.del (okey (tobj 0x9020 t) 2) }
  let s := if flr then
      let s := ((s.routes.filter (fun r => r.key.tenant == t && s.isHome r.key && r.finalDue)).map (fun r => r.key)).foldl
        State.closeRoute s
      let s := { s with cairn := { s.cairn with listAt := s.cairn.listAt.del t } }
      { s with host := { s.host with
        wqs := s.host.wqs.filter (fun p => p.1 / 256 != t)
        cqs := s.host.cqs.filter (fun p => p.1 / 256 != t)
        fetched := s.host.fetched.filter (fun e => e.tenant != t) } }
    else s
  s.mapFn t (fun f => { f with resetDone := true })

/-- Resets whose tick has come. -/
def State.tenantResets (s : State) (tick : Nat) : State :=
  (s.host.fns.filter (fun p => p.2.resetting.isSome && !p.2.resetDone && decide (p.2.resetTick ≤ tick))).foldl
    (fun s p => s.tenantSweep p.1) s

/-- The tick at which an abort or a reset admitted now takes effect (R57). -/
def State.abortTick (s : State) : Nat := if s.pitch.decisionDone then s.pitch.number + 1 else s.pitch.number

/-- An abort or a reset of one route is admitted (R57). -/
def State.askAbort (s : State) (k : RouteKey) (status : Nat) : State :=
  let tick := s.abortTick
  s.updRoute k (fun r => { r with aborts := r.aborts ++ [(status, tick)] })

/-- A function-level reset clears the mailbox and closes the function's session (R465). -/
def State.clearMailbox (s : State) (t : Nat) : State :=
  let s := s.mapFn t (fun f => { f with mbRequest := [], mbResponse := [], mbDone := false, mbBusy := false })
  { s with mgmt := { s.mgmt with sessions := s.mgmt.sessions.filter (fun x => x.src != .mailbox t) } }

/-- A function's reset over a running management reset is the wider of the two: what it takes away besides goes too, at
once where the rest is done (R482, log 13). -/
def State.widenReset (s : State) (t : Nat) : State :=
  let s := (s.clearMailbox t).mapFn t (fun f => { f with resetting := some .function })
  if (s.fn t).resetDone then s.tenantSweep t else s

/-- Step 1 of Table 13.9; a second reset joins the first. Where no ticks run, steps 2 and 3 follow at once. -/
def State.startReset (s : State) (t : Nat) (kind : ResetKind) : State :=
  match (s.fn t).resetting, kind with
  | some .management, .function => s.widenReset t
  | some _, _ => s
  | none, _ =>
    let s := s.resetEngines t (kind == .management)
    let s := if kind = .function then s.clearMailbox t else s
    let tick := s.abortTick
    let s := s.mapFn t (fun f => { f with resetting := some kind, resetDone := false, resetTick := tick })
    let s := s.routes.foldl (fun s r =>
      if r.key.tenant = t ∧ s.isHome r.key = true ∧ r.finalDue = false then s.askAbort r.key stTenantReset else s) s
    if s.pitch.running then s else s.tenantSweep t

/-- Step 4 of Table 13.9: RESETTING clears, and the function registers hold their reset values; after a management reset, which
keeps the queues, ENABLE goes on saying that QID 0 is there (log 13). The tenant's fatal record closes. -/
def State.endReset (s : State) (t : Nat) : State :=
  match (s.fn t).resetting with
  | none => s
  | some kind =>
    if !(s.fn t).resetDone then s
    else
      let s := if kind = .function then s.setFn t FnSt.reset
        else s.mapFn t (fun f => { f with
          resetting := none, resetDone := false, adminError := false
          awqBase := 0, acqBase := 0, aqSizes := 0, awqIndex := 0, acqIndex := 0 })
      s.closeHandling (.atTenantReset t)

/-- A FATAL_TENANT record and the management reset it asks for (Table 15.6, R447). -/
def State.fatalTenant (s : State) (t : Nat) (a : RecArgs) : State :=
  (s.raise { a with severity := 3, tenant := some t, closing := some (.atTenantReset t) }).startReset t .management

/-! ## The rows -/

def execFunctionLevelReset (t : Nat) (s : State) : Res :=
  .next (if s.tenantOk t then s.startReset t .function else s)

/-- MANAGEMENT_RESET: a write of 1 to the tenant's RESET member. -/
def execManagementReset (t : Nat) (s : State) : Res := .next (if t < 32 then s.startReset t .management else s)

def execTenantResetComplete (t : Nat) (s : State) : Res := .next (s.endReset t)

end Sys2Proof.Machine
end

