-- ==== Sys2Proof/Machine/Queues.lean ====
section
/-! DEFINITION. Admin registers, doorbells, fetching and the checks of entries (R370 to R378, R393, R394, R479). -/
namespace Sys2Proof.Machine

/-! ## Doorbells (R371, R377, R390) -/

/-- A doorbell that is dropped and counted. -/
def State.dropDoorbell (s : State) (t : Nat) : State := (s.oinc (tobj 0x9000 t) 9 1).hostViolation (s.tenantPort t)

/-- A tail doorbell: an accepted value becomes the doorbell value. -/
def State.tailDoorbell (s : State) (t q v : Nat) : State :=
  if !s.tenantOk t || s.resetting t then s
  else
    match s.wq? t q with
    | none => s.dropDoorbell t
    | some w =>
      let v := v % 2 ^ 32
      if w.halted then s
      else if 2 ^ w.logSize < (v + 2 ^ 32 - w.head) % 2 ^ 32 ∨ 2 ^ w.logSize < (v + 2 ^ 32 - w.db) % 2 ^ 32 then
        s.dropDoorbell t
      else s.putWq t q { w with db := v }

/-- A head doorbell: an accepted value makes room for the records that wait. -/
def State.headDoorbell (s : State) (t q v : Nat) : State :=
  if !s.tenantOk t || s.resetting t then s
  else
    match s.cq? t q with
    | none => s.dropDoorbell t
    | some c =>
      let v := v % 2 ^ 32
      if (c.tail + 2 ^ 32 - c.head) % 2 ^ 32 < (v + 2 ^ 32 - c.head) % 2 ^ 32 then s.dropDoorbell t
      else (s.putCq t q { c with head := v }).postDue t q c.due.length

def execWqTailDoorbell (t q v : Nat) (s : State) : Res := .next (s.tailDoorbell t q v)
def execCqHeadDoorbell (t q v : Nat) (s : State) : Res := .next (s.headDoorbell t q v)

/-- MSIX_COALESCE_TIMEOUT: the vector is signalled for what was posted since (R381). -/
def execMsixCoalesceTimeout (t q : Nat) (s : State) : Res :=
  match s.cq? t q with
  | none => .next s
  | some c => .next (if c.unsignalled = 0 then s else (s.putCq t q { c with unsignalled := 0 }).signal t c.vector)

/-! ## Admin queues (R370) -/

/-- A host reference aligned to a number of bytes. -/
def hostRefOk (r align : Nat) : Bool := refHost r && r % align == 0

def logSizeOk (n : Nat) : Bool := decide (6 ≤ n) && decide (n ≤ 16)

/-- A new work queue. -/
def WQ.fresh (ring logSize index cq order : Nat) : WQ :=
  { ring := refAddr ring, logSize := logSize, index := refAddr index, cq := cq, head := 0, db := 0, halted := false
    stallSince := none, need := 0, paused := false, closing := false, order := order }

/-- A new completion queue. -/
def CQ.fresh (ring logSize index vector count time order : Nat) : CQ :=
  { ring := refAddr ring, logSize := logSize, index := refAddr index, vector := vector, count := count, time := time
    tail := 0, head := 0, unsignalled := 0, firstAt := 0, due := [], order := order }

/-- Whether the admin registers can make queues. -/
def FnSt.adminOk (f : FnSt) : Bool :=
  hostRefOk f.awqBase 4096 && hostRefOk f.acqBase 4096 && hostRefOk f.awqIndex 8 && hostRefOk f.acqIndex 8
    && logSizeOk (fld f.aqSizes 15 8) && logSizeOk (fld f.aqSizes 7 0) && decide (f.aqSizes < 65536)

/-- A write of ENABLE = 1. -/
def State.aqEnable (s : State) (t : Nat) : State :=
  let f := s.fn t
  if !s.tenantOk t || f.enable then s
  else if f.resetting.isSome || !f.adminOk then s.mapFn t (fun f => { f with adminError := true })
  else
    let n := s.host.nextQueueNo
    let s := s.mapFn t (fun f => { f with enable := true })
    let s := s.putCq t 0 (CQ.fresh f.acqBase (fld f.aqSizes 7 0) f.acqIndex 0 0 0 n)
    let s := s.putWq t 0 (WQ.fresh f.awqBase (fld f.aqSizes 15 8) f.awqIndex 0 n)
    { s with host := { s.host with nextQueueNo := n + 1 } }

/-- Queues of a tenant of one kind. -/
def queuesOf {α : Type} (m : SMap α) (t : Nat) : Nat := (m.filter (fun p => p.1 / 256 == t)).length

/-- A write of ENABLE = 0: refused while the tenant holds any other queue. -/
def State.aqDisable (s : State) (t : Nat) : State :=
  if !(s.fn t).enable || s.resetting t then s
  else if 1 < queuesOf s.host.wqs t ∨ 1 < queuesOf s.host.cqs t then s
  else
    let s := s.mapFn t (fun f => { f with enable := false })
    let s := ((s.routes.filter (fun r => r.key.tenant == t && r.cqid == 0 && r.finalDue)).map (fun r => r.key)).foldl
      State.closeRoute s
    let s := { s with cairn := { s.cairn with listAt := s.cairn.listAt.del t } }
    { s with host := { s.host with
        wqs := s.host.wqs.del (qkey t 0)
        cqs := s.host.cqs.del (qkey t 0)
        fetched := s.host.fetched.filter (fun e => !(e.tenant == t && e.qid == 0)) } }

def execAqEnable (t : Nat) (s : State) : Res := .next (s.aqEnable t)
def execAqDisable (t : Nat) (s : State) : Res := .next (s.aqDisable t)

/-! ## Entries (R375, R376, R392, Tables 13.5, 13.6, 13.8, 14.1 and 14.2) -/

def opSubmit : Nat := 0x01

/-- Whether an opcode is an engine opcode (Table 14.1). -/
def isEngineOp (op : Nat) : Bool := decide (2 ≤ op) && decide (op ≤ 8)

/-- Whether a queue takes an opcode. -/
def opAllowed (qid op : Nat) : Bool :=
  if qid = 0 then decide (0x10 ≤ op) && decide (op ≤ 0x18) else op == opSubmit || isEngineOp op

/-- The bits of words 1 to 7 that an opcode does not use, as (word, highest, lowest) (R375). -/
def unusedBits (e : Entry) : List (Nat × Nat × Nat) :=
  let all (l : List Nat) : List (Nat × Nat × Nat) := l.map (fun i => (i, 63, 0))
  let op := entOpcode e
  if op = opSubmit then (if entInline e then all [1] else []) ++ all [2, 3, 4, 5, 6, 7]
  else if isEngineOp op then
    [(5, 54, 48), (5, 15, 0)]
      ++ (if op = 2 then [(5, 47, 40), (5, 39, 33), (5, 31, 16), (7, 63, 0)]
          else if op = 3 ∨ op = 4 then [(5, 39, 33), (5, 31, 16)]
          else if op = 5 then [(2, 63, 0), (5, 39, 32), (7, 63, 0)]
          else if op = 6 then [(2, 63, 0), (4, 63, 0), (5, 47, 40), (5, 39, 34), (5, 32, 32), (7, 63, 0)]
          else if op = 7 then [(2, 63, 0), (3, 63, 0), (4, 63, 0), (5, 47, 40), (5, 39, 32), (7, 63, 0)]
          else [(1, 63, 0), (2, 63, 0), (3, 63, 0), (4, 63, 0), (5, 39, 32), (5, 31, 16), (7, 63, 0)])
  else if op = 0x10 then [(2, 47, 8), (3, 63, 8)] ++ all [5, 6, 7]
  else if op = 0x11 ∨ op = 0x13 then (2, 47, 0) :: all [1, 3, 4, 5, 6, 7]
  else if op = 0x12 then [(2, 47, 8), (3, 63, 48), (3, 15, 6)] ++ all [5, 6, 7]
  else if op = 0x14 then (4, 55, 0) :: all [1, 2, 3, 7]
  else if op = 0x15 then
    let sub := fld (entW e 1) 63 56
    (1, 55, 0) :: ((if sub = 2 then [(3, 63, 8)] else if sub = 1 then all [3] else all [2, 3]) ++ all [4, 5, 6, 7])
  else if op = 0x16 then [(1, 63, 8), (3, 63, 32)] ++ all [4, 5, 6, 7]
  else if op = 0x17 then (1, 63, 32) :: all [2, 3, 4, 5, 6, 7]
  else if op = 0x18 then (2, 63, 16) :: all [3, 4, 5, 6, 7]
  else []

/-- Check 2: the opcode belongs on the queue and every field that it does not use is zero. -/
def entryFieldsOk (e : Entry) : Bool :=
  opAllowed e.qid (entOpcode e) && fld (entW e 0) 31 1 == 0 && (entOpcode e == opSubmit || !entInline e)
    && (unusedBits e).all (fun u => fld (entW e u.1) u.2.1 u.2.2 == 0)

/-- The bytes of an entry's units from one on. -/
def entBytes (e : Entry) (unit : Nat) : List Byte := bytesOfWords (e.words.drop (8 * unit))

/-- The LENGTH an entry needs, by Table 13.6. -/
def entryNeeds (e : Entry) : Nat :=
  if entOpcode e = opSubmit ∧ entInline e = true then
    (if entLength e < 2 then 2 else 1 + ceilDiv (headerOf ((entBytes e 1).take 128)).descBytes 64)
  else 1

/-- Checks 2 to 4 of Table 13.6: the status of the first that fails. -/
def entryCheck (e : Entry) : Option Nat :=
  if !entryFieldsOk e then some stDescMalformed
  else if entLength e < entryNeeds e then some stLenShort
  else if entryNeeds e < entLength e then some stLenLong
  else none

/-- The completion of an entry; an engine entry's carries its USER_TAG (Table 14.3). -/
def entryRecord (e : Entry) (status value : Nat) : Completion :=
  { status := status, cid := entCid e, qid := e.qid, opcode := entOpcode e, w2 := value
    w3 := if isEngineOp (entOpcode e) then entW e 6 else 0 }

/-- The completion queue of an entry's work queue. -/
def State.entryCq (s : State) (e : Entry) : Option Nat := (s.wq? e.tenant e.qid).map (fun w => w.cq)

/-- An entry completes. -/
def State.finishEntry (s : State) (e : Entry) (c : Completion) : State :=
  match s.entryCq e with
  | some q => s.complete e.tenant q c
  | none => s

/-! ## Fetching (R372 to R374, R388, R394, R479) -/

/-- A queue halts with one record, of the entry at the head when its header was read. -/
def State.haltQueue (s : State) (t q : Nat) (w : WQ) (status : Nat) (hdr : Option Entry) : State :=
  let s := s.putWq t q { w with halted := true, stallSince := none }
  let s := s.oinc (tobj 0x9000 t) 8 1
  s.complete t w.cq
    { status := status, cid := (hdr.map entCid).getD 0, qid := q, opcode := (hdr.map entOpcode).getD 0, w2 := w.head }

/-- Units of a ring from a position on. -/
def State.readUnits (s : State) (t : Nat) (w : WQ) : Nat → Nat → Except Nat (List Byte)
  | _, 0 => .ok []
  | u, n + 1 =>
    match s.hostRead t (w.ring + 64 * (u % 2 ^ w.logSize)) 64 with
    | .error st => .error st
    | .ok b => (s.readUnits t w (u + 1) n).map (fun l => b ++ l)

/-- Units between head and doorbell value. -/
def WQ.avail (w : WQ) : Nat := (w.db + 2 ^ 32 - w.head) % 2 ^ 32

/-- The final completion of a route that is refused (R117, R379). -/
def State.refuseRoute (s : State) (e : Entry) (status : Nat) (d : RouteDesc) : State :=
  let det := d.deterministic
  s.finishEntry e { entryRecord e status (if det then 0 else s.pitch.number - 1) with
    routeId := d.routeId, w3 := d.userTag, stamp := !det }

/-- The route header that came with an entry; zeros where it was not read. -/
def entryHeader (e : Entry) : RouteDesc :=
  emptyDesc (headerOf (if entOpcode e = opSubmit ∧ entInline e = true ∧ 3 ≤ entLength e then (entBytes e 1).take 128 else [])) e.tenant

/-- An entry that fails a check completes with its status; a route's record carries what was read of its header. -/
def State.failEntry (s : State) (e : Entry) (st : Nat) : State :=
  if entOpcode e = opSubmit ∧ e.qid ≠ 0 then s.refuseRoute e st (entryHeader e) else s.finishEntry e (entryRecord e st 0)

/-- Whether an earlier admin command of a tenant has still to complete (R382). -/
def State.adminWaits (s : State) (e : Entry) : Bool := e.qid == 0 && s.host.fetched.any (fun x => x.tenant == e.tenant && x.qid == 0)

/-- Admin commands whose entries fail a check complete when their turn comes (R382; fuel: the entries). -/
def State.settleAdmin (s : State) (t : Nat) : Nat → State
  | 0 => s
  | n + 1 =>
    match s.host.fetched.find? (fun x => x.tenant == t && x.qid == 0) with
    | none => s
    | some e =>
      match entryCheck e with
      | none => s
      | some st =>
        (({ s with host := { s.host with fetched := s.host.fetched.erase e } } : State).failEntry e st).settleAdmin t n

/-- Takes an entry whose units are all covered: the head advances, its index is written, and checks 2 to 4 follow. -/
def State.takeEntry (s : State) (t q : Nat) (w : WQ) (n : Nat) (e : Entry) : State :=
  let head := (w.head + n) % 2 ^ 32
  let s := s.putWq t q { w with head := head, stallSince := none, need := 0, paused := false }
  let s := s.hostWrite t w.index (natLe 8 head)
  match (if s.adminWaits e then none else entryCheck e) with
  | some st => s.failEntry e st
  | none => { s with host := { s.host with fetched := s.host.fetched ++ [e] } }

/-- One turn of a queue. -/
def State.fetchFrom (s : State) (t q : Nat) (w : WQ) : State :=
  let entry (b : List Byte) : Entry := { tenant := t, qid := q, words := wordsOf b }
  match s.readUnits t w w.head 1 with
  | .error st => s.haltQueue t q w st none
  | .ok b =>
    let hdr := entry b
    let n := entLength hdr
    if n = 0 ∨ 64 < n then s.haltQueue t q w stDescMalformed (some hdr)
    else if w.avail < n then s.putWq t q { w with stallSince := some (w.stallSince.getD s.now), need := n }
    else
      match s.readUnits t w w.head n with
      | .error st => s.haltQueue t q w st (some hdr)
      | .ok b => s.takeEntry t q w n (entry b)

/-- Whether a queue has something to take. -/
def State.fetchable (s : State) (t : Nat) (w : WQ) : Bool :=
  !w.halted && !w.closing && !s.resetting t && w.avail != 0 && (w.stallSince.isNone || decide (w.need ≤ w.avail))

/-- Routes of a tenant that are open or being checked. -/
def State.openCount (s : State) (t : Nat) : Nat :=
  (s.routes.filter (fun r => r.key.tenant == t && s.isHome r.key)).length
    + (s.host.fetched.filter (fun e => e.tenant == t && entOpcode e == opSubmit)).length

/-- Routes of the device that are open or being checked. -/
def State.openTotal (s : State) : Nat :=
  (s.routes.filter (fun r => s.isHome r.key)).length
    + (s.host.fetched.filter (fun e => entOpcode e == opSubmit)).length

/-- Whether a tenant's I/O queues are passed over. -/
def State.ioPaused (s : State) (t : Nat) : Bool :=
  decide (s.onum (tobj 0x9000 t) 2 ≤ s.openCount t) || decide (512 ≤ s.openTotal)
    || !(List.range 16).all s.scanSlotFree || decide (s.onum (tobj 0x9038 t) 5 ≤ (s.engineEntries t).length)

/-- Goes through I/O queues in turn: those passed over are noted, and the first that is not is taken. -/
def State.ioTurn (s : State) : List (Nat × WQ) → State
  | [] => s
  | (k, w) :: l =>
    let t := k / 256
    if s.ioPaused t then
      (if w.paused then s else (s.putWq t (k % 256) { w with paused := true }).oinc 0x2004 4 1).ioTurn l
    else
      ({ s with host := { s.host with lastIo := w.order } } : State).fetchFrom t (k % 256) w

/-- Queues for which none of the conditions holds any more are paused no longer (R374). -/
def State.endPauses (s : State) : State :=
  { s with host := { s.host with wqs := s.host.wqs.map (fun (p : Nat × WQ) =>
      if p.2.paused && !s.ioPaused (p.1 / 256) then (p.1, { p.2 with paused := false }) else p) } }

/-- One turn (R374): admin queues in tenant order, then I/O queues round robin in queue number. -/
def State.fetchTurn (s : State) : State :=
  let s := s.endPauses
  let ready := s.host.wqs.filter (fun p => s.fetchable (p.1 / 256) p.2)
  let adminOpen := s.sys.phase == .ready && s.sys.state != .bivouac
  match (if adminOpen then ready.find? (fun p => p.1 % 256 == 0) else none) with
  | some (k, w) => s.fetchFrom (k / 256) 0 w
  | none =>
    if s.sys.state = .operational then
      let io := sortBy (fun (a b : Nat × WQ) => decide (a.2.order < b.2.order)) (ready.filter (fun p => p.1 % 256 != 0))
      s.ioTurn (io.filter (fun p => decide (s.host.lastIo < p.2.order)) ++ io.filter (fun p => decide (p.2.order ≤ s.host.lastIo)))
    else s

def execFetchEntry (s : State) : Res := .next s.fetchTurn

/-- WQ_STALL_TIMEOUT: the entry at the head is still not covered. -/
def execWqStallTimeout (t q : Nat) (s : State) : Res :=
  match s.wq? t q with
  | none => .next s
  | some w =>
    if w.stallSince.isNone || w.halted || w.closing || s.resetting t || decide (w.need ≤ w.avail) then .next s
    else
      match s.readUnits t w w.head 1 with
      | .ok b => .next (s.haltQueue t q w stLenShort (some { tenant := t, qid := q, words := wordsOf b }))
      | .error _ => .next (s.haltQueue t q w stLenShort none)

/-! ## Acting on entries -/

/-- Whether an entry is the next of its queue to be acted on. -/
def State.entryNext (s : State) (e : Entry) : Bool :=
  !s.resetting e.tenant && s.host.fetched.find? (fun x => x.tenant == e.tenant && x.qid == e.qid) == some e

/-- Takes an entry off the list of those that wait for their action. -/
def State.dropFetched (s : State) (e : Entry) : State :=
  { s with host := { s.host with fetched := s.host.fetched.erase e } }

/-- Acts on the next entry of its queue when it has the opcode. -/
def State.onEntry (s : State) (e : Entry) (op : Nat) (f : State → State) : Res :=
  .next (if s.entryNext e && entOpcode e == op then f s else s)

/-! ## SUBMIT_ROUTE (R117, R376, R497) -/

/-- The descriptor bytes of an entry: inline, or behind DESC, which is checked before any read. -/
def State.descSource (s : State) (e : Entry) (n : Nat) : Rd (List Byte) :=
  if entInline e then .ok (fitTo n (entBytes e 1)) else s.refRead e.tenant (entW e 1) n

/-- The home opens a route and tells its participants (R30, R358). -/
def State.admitRoute (s : State) (e : Entry) (d : RouteDesc) (copy : List Byte) : State :=
  let k : RouteKey := { tenant := e.tenant, id := d.routeId, home := s.sys.deviceId }
  let r : Route := { Route.fresh k d copy s.sched.nextOrder s.pitch.number s.timeNs with
    qid := e.qid, cid := entCid e, cqid := (s.entryCq e).getD 0 }
  let s := (s.addRoute r).logEvent k d.priority 0 0 15 0x0 0
  s.openAtPeers r

/-- Checks a route and admits it or completes it at once; structures in a peer's memory are read first. -/
def State.submitRoute (s : State) (e : Entry) : State :=
  if s.sys.state = .retreat then
    let h := match s.descSource e 128 with
      | .ok b => headerOf b
      | _ => headerOf []
    (s.dropFetched e).refuseRoute e stRetreat (emptyDesc h e.tenant)
  else if s.sys.state ≠ .operational then s
  else if !entInline e && (entW e 1 == 0 || !refOk (entW e 1) 64 false) then
    (s.dropFetched e).refuseRoute e stDescMalformed (emptyDesc (headerOf []) e.tenant)
  else
    match s.admitCheck e.tenant (s.descSource e) with
    | .need l => s.askLines l
    | .bad st _ => (s.dropFetched e).refuseRoute e st (emptyDesc (headerOf []) e.tenant)
    | .ok a =>
      let s := s.dropFetched e
      if a.statuses.isEmpty then s.admitRoute e a.desc a.copy else s.refuseRoute e (pickStatus a.statuses) a.desc

def execSubmitRoute (e : Entry) (s : State) : Res := s.onEntry e opSubmit (fun s => s.submitRoute e)

end Sys2Proof.Machine
end

