-- ==== Sys2Proof/Machine/Channels.lean ====
section
/-! DEFINITION. What the DMA channels do with lists, image and host memory: windows, list segments, failing accesses,
writes, halts and the end of an entry (R396 to R403, R414). -/
namespace Sys2Proof.Machine

/-- An element of a list: SPACE, address, length (Table 14.5). -/
abbrev ListEl := Nat × Nat × Nat

/-- Fields of unit 0 of an engine entry (Table 14.2). -/
def entChannel (e : Entry) : Nat := fld (entW e 5) 63 58
def entPriority (e : Entry) : Nat := fld (entW e 5) 57 55
def entMode (e : Entry) : Nat := fld (entW e 5) 47 40
def entFence (e : Entry) : Bool := bitAt (entW e 5) 32
def entLast (e : Entry) : Bool := bitAt (entW e 5) 33
def entMsg (e : Entry) : Nat := fld (entW e 5) 31 16

def opCopy : Nat := 2
def opCompress : Nat := 3
def opDecompress : Nat := 4
def opDigestOpen : Nat := 5
def opDigestFeed : Nat := 6
def opDigestRead : Nat := 7
def opDmaControl : Nat := 8

/-! ## Where an element may lie (R400) -/

/-- Whether a range lies in a tenant's image window. -/
def State.inWindow (s : State) (t a n : Nat) : Bool :=
  let base := s.onum (tobj 0x9038 t) 3
  decide (base ≤ a) && decide (a + n ≤ base + s.onum (tobj 0x9038 t) 4)

/-- The OUTPUT object that a SPACE 2 element of a tenant lies in. -/
def State.outputEl (s : State) (t h n : Nat) : Option (Nat × DObj) :=
  match s.handleObj h t with
  | some (o, d) => if d.cls = clsOutput ∧ hOff h + n ≤ s.objSpan d then some (o, d) else none
  | none => none

/-- Whether an element may be accessed at all. -/
def State.elOk (s : State) (t : Nat) (e : ListEl) : Bool :=
  match e.1 with
  | 0 => s.inWindow t e.2.1 e.2.2 && s.imgBacked e.2.1 && s.imgBacked (e.2.1 + e.2.2 - 1)
      && imgDev e.2.1 == imgDev (e.2.1 + e.2.2 - 1)
  | 1 => true
  | _ => (s.outputEl t e.2.1 e.2.2).isSome

/-- What a read of a line of this device, or one that a peer has answered, failed with. -/
def State.readFault (s : State) (l : Nat) : Option Nat :=
  if lineDev l = s.sys.deviceId then (if s.linePoisoned l then some stPoisonRead else none)
  else ((s.coh.readBuf.find l).map (fun x => x.1)).filter (fun st => st != stOk)

/-- The first line of a Depot object's range whose read fails: its offset in the object and the status. -/
def State.objLineFault (s : State) (d : DObj) (off n : Nat) : Option (Nat × Nat) :=
  (linesOf off n).findSome? (fun x => (s.lineOfObj d x).bind (fun l => (s.readFault l).map (fun st => (x, st))))

/-- The bytes of a Depot object's range, a peer's lines as they came (R22). -/
def State.outputBytes (s : State) (o : Nat) (d : DObj) (off n : Nat) : List Byte :=
  sliceB ((linesOf off n).flatMap (fun x =>
    let own := fitTo 64 (d.readN o x 64)
    match s.lineOfObj d x with
    | some l =>
      if lineDev l = s.sys.deviceId then own else fitTo 64 (((s.coh.readBuf.find l).map (fun p => p.2)).getD [])
    | none => own)) (off % 64) n

/-- The first failing byte of a read of an element: offset in it, address, status (R401). -/
def State.elFault (s : State) (t : Nat) (e : ListEl) : Option (Nat × Nat × Nat) :=
  let a := e.2.1
  if !s.elOk t e then some (0, a, stBusError)
  else if e.1 = 0 then
    (linesOf a e.2.2).findSome? (fun l => (s.imgLineFault l).map (fun st => (max l a - a, max l a, st)))
  else if e.1 = 1 then
    (s.host.errors.filter (fun x => x.1 == t && overlaps x.2.1 x.2.2.1 a e.2.2)).foldl
      (fun (best : Option (Nat × Nat × Nat)) x =>
        let c : Nat × Nat × Nat := (max x.2.1 a - a, max x.2.1 a, x.2.2.2)
        match best with
        | none => some c
        | some b => if c.1 < b.1 then some c else some b) none
  else
    (s.outputEl t a e.2.2).bind (fun p => (s.objLineFault p.2 (hOff a) e.2.2).map (fun x =>
      (max x.1 (hOff a) - hOff a, a + (max x.1 (hOff a) - hOff a), x.2)))

/-- Lines of peers that a read of an element waits for: of image memory, or of a Depot page that stands in tier 2. -/
def State.elNeed (s : State) (t : Nat) (e : ListEl) : List Nat :=
  if e.1 = 0 then (if s.elOk t e then s.imgMissing e.2.1 e.2.2 else [])
  else if e.1 = 1 then []
  else
    match s.outputEl t e.2.1 e.2.2 with
    | some (_, d) => (s.depotLines d (hOff e.2.1) e.2.2).filter (fun l =>
        lineDev l != s.sys.deviceId && (s.coh.readBuf.find l).isNone)
    | none => []

/-- The bytes of an element. -/
def State.elBytes (s : State) (t : Nat) (e : ListEl) : List Byte :=
  match e.1 with
  | 0 => s.imgBytes e.2.1 e.2.2
  | 1 => s.host.mem.readN (hostKey t e.2.1) e.2.2
  | _ => match s.outputEl t e.2.1 e.2.2 with
    | some (o, d) => s.outputBytes o d (hOff e.2.1) e.2.2
    | none => zeros e.2.2

/-- The first failing read of a list, by transfer offset (R401). -/
def State.listReadFault (s : State) (t : Nat) : Nat → List ListEl → Option AccessFault
  | _, [] => none
  | k, e :: l =>
    match s.elFault t e with
    | some (x, a, st) =>
      some { offset := k + x, addr := a, space := e.1, write := false, poisoned := st == stPoisonRead }
    | none => s.listReadFault t (k + e.2.2) l

/-- The first element of a list that may not be written, by transfer offset. -/
def State.listWriteFault (s : State) (t : Nat) : Nat → List ListEl → Option AccessFault
  | _, [] => none
  | k, e :: l =>
    if s.elOk t e then s.listWriteFault t (k + e.2.2) l
    else some { offset := k, addr := e.2.1, space := e.1, write := true, poisoned := false }

/-- Reads of lines of this device at their home, through the SLC, for what they fill, count and record (R21, R433,
R434). -/
def State.listTouch (s : State) (t : Nat) (l : List ListEl) : State :=
  s.homeReads (l.flatMap (fun e =>
    if e.1 = 0 then (if imgDev e.2.1 = s.sys.deviceId then (linesOf e.2.1 e.2.2).map imgLine else [])
    else if e.1 = 2 then
      (match s.outputEl t e.2.1 e.2.2 with
       | some (_, d) => s.objLines d (hOff e.2.1) e.2.2
       | none => [])
    else []))

def State.listBytes (s : State) (t : Nat) (l : List ListEl) : List Byte := l.flatMap (s.elBytes t)

/-- The status of a fault (R401). -/
def faultStatus (f : AccessFault) : Nat := if f.poisoned && !f.write then stPoisonRead else stBusError

/-! ## Reading a list (R399, R401) -/

/-- What reading a list yields: its elements, whether a field of it is malformed and whether the chain was read to its
end; a failing access; or the lines it waits for. -/
inductive ListRead where
  | done (els : List ListEl) (malformed whole : Bool)
  | fault (f : AccessFault) (malformed : Bool)
  | need (lines : List Nat)

/-- A read of a segment. -/
def State.segRead (s : State) (t sp a n : Nat) : Rd (List Byte) :=
  let e : ListEl := (sp, a, n)
  if !(s.elNeed t e).isEmpty then .need (s.elNeed t e)
  else
    match s.elFault t e with
    | some (_, ad, st) => .bad st ad
    | none => .ok (s.elBytes t e)

/-- An element of Table 14.5. -/
def listEl (b : List Byte) : ListEl := (fld (getLe b 8 8) 63 62, getLe b 0 8, fld (getLe b 8 8) 31 0)

/-- A malformed element. -/
def elMalformed (dst : Bool) (b : List Byte) : Bool :=
  let e := listEl b
  e.1 == 3 || (dst && e.1 == 2) || fld (getLe b 8 8) 61 32 != 0 || e.2.2 == 0 || (e.1 == 0 && decide (2 ^ 47 ≤ e.2.1))

/-- Reads a list from a segment on (fuel: segments left of 4,096). -/
def State.readList (s : State) (t : Nat) (dst : Bool) : Nat → Nat → List ListEl → Bool → ListRead
  | 0, r, els, bad => if r = 0 then .done els bad true else .done els true false
  | f + 1, r, els, bad =>
    if r = 0 then .done els bad true
    else if refBad r || refAddr r % 16 != 0 then .done els true false
    else
      let sp := (refHost r).toNat
      let a := refAddr r
      let fault (st ad : Nat) : ListRead := .fault
        { offset := 0, addr := ad, space := sp, write := false, poisoned := st == stPoisonRead } bad
      match s.segRead t sp a 16 with
      | .need l => .need l
      | .bad st ad => fault st ad
      | .ok h =>
        let count := getLe h 8 1
        if count = 0 then s.readList t dst f (getLe h 0 8) els true
        else
          match s.segRead t sp (a + 16) (16 * count) with
          | .need l => .need l
          | .bad st ad => fault st ad
          | .ok b =>
            let es := chunks 16 b
            s.readList t dst f (getLe h 0 8) (els ++ es.map listEl)
              (bad || getLe h 9 7 != 0 || es.any (elMalformed dst))

/-- Bytes of a list. -/
def listLen (l : List ListEl) : Nat := sumNat (l.map (fun e => e.2.2))

/-- The conditions of the first three rows of R401 on one list. -/
def ListRead.shape (r : ListRead) (total : Nat) : List Nat :=
  match r with
  | .done els bad whole =>
    (if bad then [stDescMalformed] else [])
      ++ (if whole then
          (if listLen els < total then [stLenShort] else if total < listLen els then [stLenLong] else [])
        else [])
  | .fault _ bad => if bad then [stDescMalformed] else []
  | .need _ => []

def ListRead.els : ListRead → List ListEl
  | .done els _ _ => els
  | _ => []

def ListRead.faults : ListRead → List AccessFault
  | .fault f _ => [f]
  | _ => []

def ListRead.lines : ListRead → List Nat
  | .need l => l
  | _ => []

/-- What reading both lists of an entry yields. -/
inductive EntryLists where
  | ok (src dst : List ListEl)
  | ends (status : Nat)
  | halts (f : AccessFault)
  | need (lines : List Nat)

/-- Reads and checks the lists of an entry; where a condition of the first three rows holds besides a failing access,
R12 decides, and no byte has moved. -/
def State.entryLists (s : State) (e : Entry) (needDst : Bool) : EntryLists :=
  let t := e.tenant
  let src := s.readList t false 4096 (entW e 1) [] false
  let dst := if needDst then s.readList t true 4096 (entW e 2) [] false else .done [] false true
  if !(src.lines ++ dst.lines).isEmpty then .need (src.lines ++ dst.lines)
  else
    let shape := src.shape (entW e 3) ++ (if needDst then dst.shape (entW e 4) else [])
    let seg := src.faults ++ dst.faults
    if shape.isEmpty && seg.isEmpty then .ok src.els dst.els
    else
      let outside (w : Bool) (l : List ListEl) : List AccessFault :=
        ((l.filter (fun x => decide (x.1 ≤ 2) && !s.elOk t x)).take 1).map (fun x =>
          { offset := 0, addr := x.2.1, space := x.1, write := w, poisoned := false })
      let fs := seg ++ outside false src.els ++ outside true dst.els
      let st := pickStatus (shape ++ fs.map faultStatus)
      match fs.find? (fun f => faultStatus f == st) with
      | some f => .halts f
      | none => .ends st

/-! ## Writing (R402) -/

/-- A write of part of one image line. A line of this device whose holders are all here is written at once; else WR_NC
goes to the line's home. -/
def State.imgPut (s : State) (why : Purpose) (l mask : Nat) (data : List Byte) : State :=
  let line := imgLine l
  let ask : CohMsg := { op := opWrNc, src := 0, dst := 0, txn := 0, line := line, mask := mask, data := data }
  if imgDev l = s.sys.deviceId && !s.lineBusy line then
    match s.dirOwn (s.agent locDma) line with
    | some s =>
      let s := if mask = fullMask then s else s.memRead line false
      let s := if mask ≠ fullMask ∧ s.linePoisoned line = true then s
        else (s.lineWrite line (maskMerge mask (s.lineRead line) data)).slcClean line
      (if mask = fullMask then s.unpoison line else s).setDir line DirEnt.empty
    | none => (s.request ask locDma why).2
  else (s.request ask locDma why).2

/-- A write of bytes at an address of a SPACE. -/
def State.elPut (s : State) (why : Purpose) (t sp a : Nat) (bs : List Byte) : State :=
  if sp = 1 then s.hostWrite t a bs
  else
    (linesOf a bs.length).foldl (fun s l =>
      let lo := max l a
      let hi := min (l + 64) (a + bs.length)
      s.imgPut why l ((2 ^ (hi - lo) - 1) * 2 ^ (lo - l)) (zeros (lo - l) ++ sliceB bs (lo - a) (hi - lo) ++ zeros (l + 64 - hi))) s

/-- Lays bytes end to end through the elements of a list. -/
def State.scatter (s : State) (ch t : Nat) : List ListEl → List Byte → State
  | [], _ => s
  | e :: l, bs =>
    if bs.isEmpty then s else (s.elPut (.engine ch) t e.1 e.2.1 (bs.take e.2.2)).scatter ch t l (bs.drop e.2.2)

/-- The elements of a list from a transfer offset on. -/
def dropEls : Nat → List ListEl → List ListEl
  | _, [] => []
  | k, e :: l => if k = 0 then e :: l else if e.2.2 ≤ k then dropEls (k - e.2.2) l else (e.1, e.2.1 + k, e.2.2 - k) :: l

/-- Bytes whose mark is set become free values (log 8). -/
def State.freeAt (s : State) (marks : List Bool) (bs : List Byte) : List Byte × State :=
  ((List.zip marks bs).zipIdx.map (fun p => if p.1.1 then Config.freeValue 8 (s.freeCount + p.2) else p.1.2),
   { s with freeCount := s.freeCount + bs.length })

/-- Destination bytes that a halt leaves undefined (R401): every one of a list that this device could write. -/
def State.blurDst (s : State) (ch t : Nat) (l : List ListEl) : State :=
  (l.filter (fun e => s.elOk t e && (e.1 == 1 || imgDev e.2.1 == s.sys.deviceId))).foldl (fun s e =>
    let r := s.freeAt (List.replicate e.2.2 true) (zeros e.2.2)
    r.2.elPut (.engine ch) t e.1 e.2.1 r.1) s

/-- Whether a byte of a SPACE lies in a list. -/
def inList (l : List ListEl) (sp a : Nat) : Bool :=
  l.any (fun e => e.1 == sp && decide (e.2.1 ≤ a) && decide (a < e.2.1 + e.2.2))

/-- The destination bytes of a copy that its source list holds too: they are undefined (R402). -/
def overlapMarks (src dst : List ListEl) : List Bool :=
  dst.flatMap (fun e => (List.range e.2.2).map (fun i => inList src e.1 (e.2.1 + i)))

/-- The bytes a copy writes. -/
def State.copyData (s : State) (x : EngEntry) : List Byte × State := s.freeAt (overlapMarks x.src x.dst) x.data

/-! ## Ends of an entry (R395, R397, R401) -/

/-- A channel goes on after its entry has ended: waiting STOPs complete, and the next state follows. -/
def State.channelEnds (s : State) (ch : Nat) : State :=
  let c := s.chan ch
  let s := { s with eng := { s.eng with engines := s.eng.engines.filter (fun p => p.2 != ch) } }
  let st : ChanState := if !c.stops.isEmpty then .stopped else if c.waiting.isEmpty then .idle else .running
  let s := (s.setChan ch { c with state := st, current := none, stops := [] }).releaseHeld
  c.stops.foldl (fun s x => s.postEngine x stOk 0 0 none) s

/-- The running entry of a channel completes. -/
def State.entryEnds (s : State) (ch : Nat) (x : EngEntry) (r : EngResult) : State :=
  (s.postEngine x r.status r.value r.aux none).channelEnds ch

/-- The digest context of a message of a tenant, with its number. -/
def State.digestCtx? (s : State) (t msg : Nat) : Option (Nat × DigestCtx) :=
  s.eng.contexts.find? (fun p => p.2.tenant == t && p.2.msg == msg)

/-- RESULT of an entry that ends without its work (Table 14.3): the message bytes its context has taken, else zero. -/
def State.idleValue (s : State) (e : Entry) : Nat :=
  if entOpcode e = opDigestFeed ∨ entOpcode e = opDigestRead then
    ((s.digestCtx? e.tenant (entMsg e)).map (fun p => p.2.taken.length)).getD 0
  else 0

def State.putCtx (s : State) (n : Nat) (c : DigestCtx) : State :=
  { s with eng := { s.eng with contexts := s.eng.contexts.put n c } }

def State.dropCtx (s : State) (n : Nat) : State :=
  { s with eng := { s.eng with contexts := s.eng.contexts.del n } }

/-- Message bytes enter a context. -/
def State.feedCtx (s : State) (n : Nat) (c : DigestCtx) (bs : List Byte) : State :=
  let taken := c.taken ++ bs
  (s.putCtx n { c with taken := taken, finished := c.finished || decide (c.length ≤ taken.length) }).oinc 0x3090 7 bs.length

/-- Message bytes that a halted feed has brought in: whole blocks before the failing access (R414). -/
def DigestCtx.keeps (c : DigestCtx) (offset : Nat) : Nat :=
  let b := digestBlock c.alg
  min (c.length - c.taken.length) ((c.taken.length + offset) / b * b - c.taken.length)

/-- What a halt leaves of an entry's work, and RESULT (R401, R410, R414). -/
def State.haltWork (s : State) (ch : Nat) (x : EngEntry) (f : AccessFault) : Nat × State :=
  let e := x.entry
  let op := entOpcode e
  if op = opCopy then
    if x.written then (f.offset, s)
    else
      let n := min f.offset (entW e 3)
      let (bs, s) := s.copyData x
      let s := s.scatter ch e.tenant x.dst (bs.take n)
      (n, (s.blurDst ch e.tenant (dropEls n x.dst)).oinc 0x3090 1 n)
  else if op = opCompress ∨ op = opDecompress then
    if x.written then ((x.result.map (fun r => r.value)).getD 0, s)
    else
      let (n, s) := s.free 41
      (n.toNat % (entW e 4 + 1), s.blurDst ch e.tenant x.dst)
  else
    match s.digestCtx? e.tenant (entMsg e) with
    | none => (0, s)
    | some (k, c) =>
      if op = opDigestOpen then (0, s.dropCtx k)
      else if op = opDigestFeed then
        if c.finished || c.lastSeen then (c.taken.length, s)
        else
          let bs := x.data.take (c.keeps (f.offset - (entW e 3 - x.data.length)))
          (c.taken.length + bs.length, s.feedCtx k c bs)
      else (c.taken.length, s)

/-- A failing access halts the channel (R401). -/
def State.haltChannel (s : State) (ch : Nat) (x : EngEntry) (f : AccessFault) : State :=
  let t := x.entry.tenant
  let (v, s) := s.haltWork ch x f
  let s := (s.postEngine x (faultStatus f) v 0 (some f)).channelEnds ch
  let s := s.setChan ch { s.chan ch with state := .halted, fault := some f }
  (s.raise { severity := 2, source := 0x000A, cause := faultStatus f, tenant := some t, status := faultStatus f
             address := f.addr, w4 := objW4 0x3092 (ch + 1) }).oinc 0x3090 2 1

end Sys2Proof.Machine
end

