-- ==== Sys2Proof/Machine/Admin.lean ====
section
/-! DEFINITION. The admin commands (R57, R169, R224, R382, R383, R389, R497, Table 13.8). -/
namespace Sys2Proof.Machine

/-- Whether an entry is its tenant's next admin command with an opcode. -/
def State.onAdmin (s : State) (e : Entry) (op : Nat) (f : State → State) : Res :=
  .next (if e.qid == 0 && s.entryNext e && entOpcode e == op then f s else s)

/-- An admin command finishes with a status and a result; the next ones follow where a check already refused them. -/
def State.adminDone (s : State) (e : Entry) (status value : Nat) : State :=
  ((s.dropFetched e).finishEntry e (entryRecord e status value)).settleAdmin e.tenant s.host.fetched.length

/-- An admin command finishes with what an operation answers: a state, or a status. -/
def State.adminTry (s : State) (e : Entry) (r : Except Nat State) : State :=
  match r with
  | .ok s' => s'.adminDone e stOk 0
  | .error st => s.adminDone e st 0

def mustQ (b : Bool) (st : Nat) : List Nat := if b then [] else [st]

/-! ## Queues (R382) -/

def newQid (e : Entry) : Nat := fld (entW e 2) 63 48

/-- The conditions of a new queue that both kinds share: alignment and range, and a free QID. -/
def newQueueFaults (e : Entry) (used : Bool) : List Nat :=
  mustQ (hostRefOk (entW e 1) 4096 && hostRefOk (entW e 4) 8 && logSizeOk (fld (entW e 2) 7 0)
      && decide (1 ≤ newQid e) && decide (newQid e ≤ 255)) stDescMalformed
    ++ mustQ (!used) stQueueState

/-- CREATE_WQ. -/
def State.createWq (s : State) (e : Entry) : State :=
  let t := e.tenant
  let cq := fld (entW e 3) 7 0
  let faults := newQueueFaults e (s.wq? t (newQid e)).isSome ++ mustQ (s.cq? t cq).isSome stQueueState
    ++ mustQ (decide (queuesOf s.host.wqs t < s.onum (tobj 0x9000 t) 3) && decide (s.host.wqs.length < 1024)) stQueueLimit
  if !faults.isEmpty then s.adminDone e (pickStatus faults) 0
  else
    let n := s.host.nextQueueNo
    let s := s.putWq t (newQid e) (WQ.fresh (entW e 1) (fld (entW e 2) 7 0) (entW e 4) cq n)
    ({ s with host := { s.host with nextQueueNo := n + 1 } } : State).adminDone e stOk 0

/-- CREATE_CQ. -/
def State.createCq (s : State) (e : Entry) : State :=
  let t := e.tenant
  let faults := newQueueFaults e (s.cq? t (newQid e)).isSome
    ++ mustQ (decide (queuesOf s.host.cqs t < s.onum (tobj 0x9000 t) 3) && decide (s.host.cqs.length < 1024)) stQueueLimit
  if !faults.isEmpty then s.adminDone e (pickStatus faults) 0
  else
    let n := s.host.nextQueueNo
    let s := s.putCq t (newQid e) (CQ.fresh (entW e 1) (fld (entW e 2) 7 0) (entW e 4) (fld (entW e 3) 5 0)
      (fld (entW e 3) 31 16) (fld (entW e 3) 47 32) n)
    ({ s with host := { s.host with nextQueueNo := n + 1 } } : State).adminDone e stOk 0

/-- DELETE_WQ: fetching stops at once; the command completes when every entry that was read has been acted on (log 44). -/
def State.deleteWq (s : State) (e : Entry) : State :=
  let t := e.tenant
  let q := newQid e
  match (if q = 0 ∨ 255 < q then none else s.wq? t q) with
  | none => s.adminDone e stQueueState 0
  | some w =>
    if s.host.fetched.any (fun x => x.tenant == t && x.qid == q) then s.putWq t q { w with closing := true }
    else ({ s with host := { s.host with wqs := s.host.wqs.del (qkey t q) } } : State).adminDone e stOk 0

/-- DELETE_CQ. -/
def State.deleteCq (s : State) (e : Entry) : State :=
  let t := e.tenant
  let q := newQid e
  match (if q = 0 ∨ 255 < q then none else s.cq? t q) with
  | none => s.adminDone e stQueueState 0
  | some c =>
    if !c.due.isEmpty || s.host.wqs.any (fun p => p.1 / 256 == t && p.2.cq == q) then s.adminDone e stQueueState 0
    else ({ s with host := { s.host with cqs := s.host.cqs.del (qkey t q) } } : State).adminDone e stOk 0

def execCreateWq (e : Entry) (s : State) : Res := s.onAdmin e 0x10 (fun s => s.createWq e)
def execDeleteWq (e : Entry) (s : State) : Res := s.onAdmin e 0x11 (fun s => s.deleteWq e)
def execCreateCq (e : Entry) (s : State) : Res := s.onAdmin e 0x12 (fun s => s.createCq e)
def execDeleteCq (e : Entry) (s : State) : Res := s.onAdmin e 0x13 (fun s => s.deleteCq e)

/-! ## GRANT_DEPOT (R224, R225, Table 07.4) -/

/-- An operation of GRANT_DEPOT: a reserved OP completes with DESC_MALFORMED. -/
def State.onGrant (s : State) (e : Entry) (op : Nat) (f : State → State) : Res :=
  s.onAdmin e 0x14 (fun s =>
    let o := fld (entW e 4) 63 56
    if o = 0 ∨ 5 < o then s.adminDone e stDescMalformed 0 else if o = op then f s else s)

def execSetQuota (e : Entry) (s : State) : Res :=
  s.onGrant e 1 (fun s => s.adminTry e (s.setQuota e.tenant (entW e 5) (entW e 6)))
def execGrantSpill (e : Entry) (s : State) : Res :=
  s.onGrant e 2 (fun s => s.adminTry e (s.grantSpill e.tenant (entW e 5) (entW e 6)))
def execRevokeSpill (e : Entry) (s : State) : Res :=
  s.onGrant e 3 (fun s => s.adminTry e (s.revokeSpill e.tenant (entW e 5) (entW e 6)))
def execOpenOutput (e : Entry) (s : State) : Res :=
  s.onGrant e 4 (fun s => match s.openOutput e.tenant (entW e 5) (entW e 6) with
    | .ok (h, s') => s'.adminDone e stOk h
    | .error st => s.adminDone e st 0)
def execCloseOutput (e : Entry) (s : State) : Res :=
  s.onGrant e 5 (fun s => s.adminTry e (s.closeOutput e.tenant (entW e 5) (entW e 6)))

/-! ## SET_QOS (R383, R389) -/

/-- An operation of SET_QOS: a reserved OP completes with DESC_MALFORMED. -/
def State.onQos (s : State) (e : Entry) (op : Nat) (f : State → State) : Res :=
  s.onAdmin e 0x15 (fun s =>
    let o := fld (entW e 1) 63 56
    if o = 0 ∨ 3 < o then s.adminDone e stDescMalformed 0 else if o = op then f s else s)

/-- SET_WEIGHT: in force from the next tick; at once where no ticks run. The ceiling is looked at first (R12: its class
is the higher one). -/
def State.setWeight (s : State) (e : Entry) : State :=
  let w := entW e 2
  if s.onum (tobj 0x9030 e.tenant) 2 < w then s.adminDone e stQuotaCeiling 0
  else if w = 0 ∨ 255 < w then s.adminDone e stDescMalformed 0
  else
    let s := if s.pitch.running then { s with sched := { s.sched with weightAsked := s.sched.weightAsked.put e.tenant w } }
      else { s with sched := { s.sched with weight := s.sched.weight.put e.tenant w } }
    s.adminDone e stOk 0

/-- LOG_START: in force from the next tick; at once where no ticks run. -/
def State.logStart (s : State) (e : Entry) : State :=
  let n := fld (entW e 3) 7 0
  if hostRefOk (entW e 2) 4096 = false ∨ n < 7 ∨ 20 < n then s.adminDone e stDescMalformed 0
  else
    let l : LogSt := { ring := refAddr (entW e 2), logRecords := n, count := 0, active := true }
    let s := if s.pitch.running then { s with host := { s.host with logAsked := s.host.logAsked.put e.tenant l } }
      else { s with host := { s.host with logs := s.host.logs.put e.tenant l } }
    s.adminDone e stOk 0

/-- LOG_STOP. -/
def State.logStop (s : State) (e : Entry) : State :=
  ({ s with host := { s.host with logs := s.host.logs.del e.tenant, logAsked := s.host.logAsked.del e.tenant } } : State).adminDone
    e stOk 0

def execSetWeight (e : Entry) (s : State) : Res := s.onQos e 1 (fun s => s.setWeight e)
def execLogStart (e : Entry) (s : State) : Res := s.onQos e 2 (fun s => s.logStart e)
def execLogStop (e : Entry) (s : State) : Res := s.onQos e 3 (fun s => s.logStop e)

/-! ## GET_LOG (R383, R451) -/

/-- Whether the buffer of GET_LOG is one: a reference (R84) and a multiple of 64 bytes up to 1 MiB. -/
def logBufferOk (e : Entry) : Bool :=
  entW e 2 != 0 && !refBad (entW e 2) && entW e 3 % 64 == 0 && decide (entW e 3 ≤ 1048576)

/-- Whether an image buffer lies in memory that is there; a host buffer is posted (R513). -/
def State.logRoom (s : State) (e : Entry) : Bool :=
  refHost (entW e 2) || (linesOf (refAddr (entW e 2)) (entW e 3)).all s.imgBacked

/-- A page of GET_LOG: a reserved page completes with DESC_MALFORMED. -/
def State.onLog (s : State) (e : Entry) (page : Nat) (f : State → State) : Res :=
  s.onAdmin e 0x16 (fun s =>
    let p := fld (entW e 1) 7 0
    if p = 0 ∨ 3 < p then s.adminDone e stDescMalformed 0
    else if p ≠ page then s
    else if !logBufferOk e then s.adminDone e stDescMalformed 0
    else if !s.logRoom e then s.adminDone e stBusError 0
    else f s)

/-- Writes a page into the buffer; a page longer than the buffer leaves its first bytes there. -/
def State.givePage (s : State) (e : Entry) (b : List Byte) : State :=
  let room := entW e 3
  let s := s.elPut .dropped e.tenant (if refHost (entW e 2) then 1 else 2) (refAddr (entW e 2)) (b.take room)
  s.adminDone e (if room < b.length then stLenShort else stOk) b.length

/-- Page 0x01: the tenant's view; the records that the buffer took are removed. -/
def State.errorPage (s : State) (e : Entry) : State :=
  let v := (s.err.views.find e.tenant).getD []
  let n := entW e 3 / 64
  let s := s.givePage e (v.flatMap ErrRec.bytes)
  { s with err := { s.err with views :=
      if (v.drop n).isEmpty then s.err.views.del e.tenant else s.err.views.put e.tenant (v.drop n) } }

/-- A page whose layout and length the spec does not give: free bytes in a free number (log 45). -/
def State.freePageOf (s : State) (e : Entry) : State :=
  let (n, s) := s.free 20
  let b := (List.range n.toNat).map (fun i => Config.freeValue 8 (s.freeCount + i))
  ({ s with freeCount := s.freeCount + n.toNat } : State).givePage e b

def execGetLogErrorRecords (e : Entry) (s : State) : Res := s.onLog e 1 (fun s => s.errorPage e)
def execGetLogCounters (e : Entry) (s : State) : Res := s.onLog e 2 (fun s => s.freePageOf e)
def execGetLogOpenRoutes (e : Entry) (s : State) : Res := s.onLog e 3 (fun s => s.freePageOf e)

/-! ## ABORT_ROUTE (R57, R383) -/

/-- The completion of ABORT_ROUTE names the route. -/
def State.abortRoute (s : State) (e : Entry) : State :=
  let id := fld (entW e 1) 31 0
  let k : RouteKey := { tenant := e.tenant, id := id, home := s.sys.deviceId }
  let done (s : State) (st : Nat) : State := ((s.dropFetched e).finishEntry e { entryRecord e st 0 with routeId := id }).settleAdmin e.tenant s.host.fetched.length
  match s.route? k with
  | none => done s stRouteUnknown
  | some r => if r.finalDue then done s stOk else done (s.askAbort k stAbortedByHost) stOk

def execAbortRoute (e : Entry) (s : State) : Res := s.onAdmin e 0x17 (fun s => s.abortRoute e)

/-! ## LOAD_CAIRN (R169, R497) -/

/-- The commands of a list that can be read, and the failure of the first that cannot. -/
def State.cairnCommands (s : State) (t a : Nat) : Nat → List (List Byte) × Option Nat
  | 0 => ([], none)
  | n + 1 =>
    match s.hostRead t a 64 with
    | .error st => ([], some st)
    | .ok b =>
      let r := s.cairnCommands t (a + 64) n
      (b :: r.1, r.2)

/-- The commands run in list order; the first that fails, or cannot be read, stops the list. One that waits for a page
of a peer leaves the entry in its place, and the list goes on there. -/
def State.loadCairn (s : State) (e : Entry) : State :=
  let n := fld (entW e 2) 15 0
  let at_ := (s.cairn.listAt.find e.tenant).getD 0
  let s := { s with cairn := { s.cairn with listAt := s.cairn.listAt.del e.tenant } }
  if s.sys.state = .retreat then s.adminDone e stRetreat at_
  else if hostRefOk (entW e 1) 64 = false ∨ n = 0 ∨ 4096 < n then s.adminDone e stDescMalformed 0
  else
    let c := s.cairnCommands e.tenant (refAddr (entW e 1)) n
    let done (s : State) (st i : Nat) : State := (s.settleAsk e.tenant 0 (fun x => x == clsShadow)).adminDone e st i
    match s.cairnList e.tenant at_ (c.1.drop at_) with
    | .fail s' st i => done s' st i
    | .ask s' i m => ({ s' with cairn := { s'.cairn with listAt := s'.cairn.listAt.put e.tenant i } } : State).askPage m
    | .done s' =>
      match c.2 with
      | some st => done s' st c.1.length
      | none => done s' stOk n

def execLoadCairn (e : Entry) (s : State) : Res := s.onAdmin e 0x18 (fun s => s.loadCairn e)

end Sys2Proof.Machine
end

