-- ==== Sys2Proof/Machine/Dram.lean ====
section
/-! DEFINITION. DRAM: refresh, temperature, scrubbing, training, channel failure, test mode, remap entries, and the reads of
the error queue (R424 to R428, R437 to R443, R448 to R450). -/
namespace Sys2Proof.Machine

def State.setChan16 (s : State) (f : Nat → ChState) : State :=
  { s with dram := { s.dram with chState := (List.range 16).foldl (fun m c => m.put c (f c)) s.dram.chState } }

/-! ## Refresh and temperature (R427, R428) -/

/-- REFRESH: one all-bank refresh of every rank of a channel that holds data. -/
def execRefresh (ch : Nat) (s : State) : Res :=
  .next (if s.chanState ch = .active ∧ s.sys.state ≠ .bivouac then
      ({ s with dram := { s.dram with refreshes := s.dram.refreshes.upd ch (fun n => some (n.getD 0 + 1)) } }).emit (.refresh ch)
    else s)

/-- DIMM_TEMP_SAMPLE: above 85 degrees the channel is asked to refresh twice as often from the next tick. -/
def execDimmTempSample (ch : Nat) (centi : Int) (s : State) : Res :=
  if 16 ≤ ch then .next s
  else
    let s := { s with dram := { s.dram with temps := s.dram.temps.put ch centi } }
    if centi ≤ 8500 ∨ s.dram.hot.contains ch ∨ s.dram.hotAsked.contains ch then .next s
    else
      let s := { s with dram := { s.dram with hotAsked := s.dram.hotAsked ++ [ch] } }
      .next (s.raise { severity := 2, source := 0x0001, cause := 0x000A, w4 := chanW4 ch })

/-! ## Scrubbing (R437, R438) -/

/-- Bytes that a scrubber walks. -/
def State.scrubSize (s : State) (ch : Nat) : Nat := if ch < 16 then s.onum 0x5000 1 / 16 else 24 * gib

/-- Whether a scrubber runs. -/
def State.scrubs (s : State) (ch : Nat) : Bool :=
  s.sys.phase == .ready && s.sys.state != .bivouac
    && (if ch < 16 then s.chanState ch == .active && s.onum 0x5000 5 == 3 else decide (ch < 18))

/-- The copy of a line that a channel's scrubber reads: mirrored channels are scrubbed independently. -/
def State.scrubCopy (s : State) (ch a : Nat) : Nat := (s.dram.mirrored && decide (8 ≤ ch) && decide (ch < 16) && decide (mib ≤ a)).toNat

/-- A channel fails: its partner serves alone, or the device has lost memory (R424). -/
def State.channelFails (s : State) (ch : Nat) : State :=
  if s.chanState ch ≠ .active then s
  else if s.hasPartner ch then s.fenceChannel ch
  else
    ({ s with dram := { s.dram with chState := s.dram.chState.put ch .failed } }).fatalDevice
      { severity := 4, source := 0x0001, cause := 0x0005, w4 := chanW4 ch }

/-- Channels that have lost four lines fail (R424; log 71). -/
def State.channelsFail (s : State) : State :=
  s.dram.failDue.foldl State.channelFails { s with dram := { s.dram with failDue := [] } }

/-- SCRUB_STEP: the next line is read, and rewritten or poisoned. -/
def execScrubStep (ch : Nat) (s : State) : Res :=
  if !s.scrubs ch then .next s
  else
    let a := (s.dram.scrubPos.find ch).getD 0
    let next := if a + 64 < s.scrubSize ch then a + 64 else 0
    let s := { s with dram := { s.dram with scrubPos := s.dram.scrubPos.put ch next } }
    .next (s.copyRead (s.lineOfLocal ch a) (s.scrubCopy ch a) true).channelsFail

/-- FAULT_WINDOW_EXPIRY: the entry of a channel with the oldest first count is cleared (R439). -/
def State.expireTracked (s : State) (ch : Nat) : State :=
  let oldest (m : List Tracked) : Option Tracked :=
    (sortBy (fun (a b : Tracked) => decide (a.since < b.since)) (m.filter (fun e => e.ch == ch))).head?
  let dropLost (t : Nat) (s : State) : State :=
    { s with dram := { s.dram with uncorrectable := s.dram.uncorrectable.filter (fun (u : Nat × Nat × Nat) =>
        !(u.1 == ch && decide (u.2.2 ≤ t))) } }
  match oldest s.dram.lines, oldest s.dram.rows with
  | none, none => { s with dram := { s.dram with uncorrectable := s.dram.uncorrectable.filter (fun (u : Nat × Nat × Nat) =>
      u.1 != ch) } }
  | some e, none => dropLost e.since { s with dram := { s.dram with lines := s.dram.lines.erase e } }
  | none, some r => dropLost r.since { s with dram := { s.dram with rows := s.dram.rows.erase r } }
  | some e, some r =>
    if r.since < e.since then dropLost r.since { s with dram := { s.dram with rows := s.dram.rows.erase r } }
    else dropLost e.since { s with dram := { s.dram with lines := s.dram.lines.erase e } }

def execFaultWindowExpiry (ch : Nat) (s : State) : Res := .next (s.expireTracked ch)

/-! ## Training, initialisation and failing channels (R424 to R426) -/

/-- The speed of the channels in MT/s: the lowest of SPEED_MAX, the slowest DIMM's rating and the limit for the DIMMs per channel
(R419, Table 15.1). -/
def State.ddrSpeed (s : State) : Nat :=
  min (s.onum 0x5000 4) (min Config.dimmSpeed (if Config.twoDimms then 5600 else 6400))

/-- DDR5 training starts: Basecamp has released the DIMMs from reset. -/
def State.startTraining (s : State) : State :=
  let s := { s with dram := { s.dram with speed := s.ddrSpeed } }
  (s.setChan16 (fun _ => .training)).oset 0x5000 5 1

/-- A FATAL_DEVICE record of a training failure: no retreat cause, but formation ends in CONFIGURATION (Table 15.6). -/
def State.trainingFatal (s : State) (ch : Nat) : State :=
  let s := s.raise { severity := 4, source := 0x0001, cause := 0x0009, w4 := chanW4 ch, closing := some .never }
  if s.sys.state = .forming then { s with sys := { s.sys with state := .configuration } } else s

/-- DDR_TRAINING_DONE: a failed channel leaves its partner to serve, or the memory as a whole has failed. -/
def State.trainingDone (s : State) (failed : List Nat) : State :=
  if s.onum 0x5000 5 ≠ 1 then s
  else
    let bad := (List.range 16).filter (fun c => failed.contains c)
    let s := s.setChan16 (fun c => if bad.contains c then .failed else .active)
    match bad.filter (fun c => !s.oflag 0x5000 3 || bad.contains (mirrorOf c)) with
    | c :: _ => (s.oset 0x5000 5 4).trainingFatal c
    | [] =>
      let s := bad.foldl (fun s c => s.raise { severity := 2, source := 0x0001, cause := 0x0009, w4 := chanW4 c }) s
      s.oset 0x5000 5 2

def execDdrTrainingDone (failed : List Nat) (s : State) : Res := .next (s.trainingDone failed)

/-- DDR_INIT_DONE: ranks that kept no data hold zeros (R425, R431). -/
def State.initDone (s : State) : State :=
  if s.onum 0x5000 5 ≠ 2 then s
  else
    let s := if s.dram.retained.isEmpty then
        { s with
          mem := []
          dram := { s.dram with
            raw := s.dram.raw.filter (fun p => lineHbm p.1)
            poisoned := s.dram.poisoned.filter (fun p => lineHbm p.1)
            testLines := s.dram.testLines.filter (fun p => lineHbm p.1)
            noted := s.dram.noted.filter (fun p => lineHbm p.1) } }
      else s
    ({ s with dram := { s.dram with retained := [] } }).oset 0x5000 5 3

def execDdrInitDone (s : State) : Res := .next s.initDone

def execChannelFailure (ch : Nat) (s : State) : Res := .next (s.channelFails ch)

/-! ## Test mode (R443) -/

/-- Whether a test command may act on a line: any line in CONFIGURATION, a test window at any time. -/
def State.testOk (s : State) (l : Nat) : Bool :=
  let o := lineOff l
  let window := !lineHbm l && s.spareOff o && decide (mib - kib64 ≤ (o - s.populated) % mib)
  lineDev l == s.sys.deviceId && l % 64 == 0 && decide (l < 2 ^ 48)
    && (window || (s.sys.state == .configuration
      && (if lineHbm l then decide (o < 48 * gib) else decide (o < s.populated + spareBytes))))

/-- Stores a codeword in a line, in both its copies (R423). -/
def State.testStore (s : State) (l : Nat) (data check : List Byte) : State :=
  let shown := match codeFate (s.erasedSyms l (s.serves l)) data check with
    | .good d _ => d
    | _ => data
  let s := ((s.lineFresh l).lineWrite l shown).unpoison l
  let plain := check == rsCheck (checkLen l) data && s.lineRead l == data
  let both := s.dram.raw.put l (data, check)
  { s with dram := { s.dram with
      raw := if plain then s.dram.raw
        else if s.twoCopies l then both.put (copyKey l 1) (data, check) else both
      testLines := s.dram.testLines.put l () } }

/-- A test command ends with TEST_STATUS done, or refused. -/
def State.testCommand (s : State) (f : Nat → State) : State :=
  let l := s.onum 0xF012 1
  if s.testOk l then (f l).oset 0xF012 5 2 else s.oset 0xF012 5 3

/-- TEST_WRITE: TEST_DATA with computed check bytes. -/
def State.testWriteClean (s : State) : State :=
  s.testCommand (fun l =>
    let d := fitTo 64 (s.oblob 0xF012 2)
    s.testStore l d (rsCheck (checkLen l) d))

/-- TEST_WRITE_RAW: TEST_DATA with TEST_CHECK as given. -/
def State.testWriteGiven (s : State) : State :=
  s.testCommand (fun l => s.testStore l (fitTo 64 (s.oblob 0xF012 2)) (fitTo (checkLen l) (s.oblob 0xF012 3)))

/-- The stored codeword of a copy of a line. -/
def State.copyWord (s : State) (l m : Nat) : List Byte × List Byte :=
  match s.dram.raw.find (copyKey l m) with
  | some w => w
  | none =>
    let d := s.lineRead l
    let c := rsCheck (checkLen l) d
    (d, if (s.dram.poisoned.find l).isSome then poisonCheck c else c)

/-- The stored codeword of a line, in the copy that serves its reads. -/
def State.codeword (s : State) (l : Nat) : List Byte × List Byte := s.copyWord l (s.serves l)

/-- TEST_READ: the raw line. -/
def State.testReadRaw (s : State) : State :=
  s.testCommand (fun l =>
    let w := s.codeword l
    (s.oput 0xF012 2 (.blob w.1)).oput 0xF012 3 (.blob w.2))

def execTestWrite (s : State) : Res := .next s.testWriteClean
def execTestWriteRaw (s : State) : Res := .next s.testWriteGiven
def execTestRead (s : State) : Res := .next s.testReadRaw

/-! ## Remap entries (R441, Table 15.4) -/

/-- A remap entry in the form of Table 15.4. -/
def Remap.word (r : Remap) : Nat :=
  2 ^ 63 + r.sub % 2 * 2 ^ 62 + r.hbmChannel % 16 * 2 ^ 52 + r.target % 32 * 2 ^ 47 + r.line / 64 * 64 % 2 ^ 47

/-- REMAP_READ: the entries of a channel, 0 to 15, or of a stack, 16 and 17 (log 47), by ascending target. -/
def State.remapRead (s : State) (ch : Nat) : State :=
  let rs := sortBy (fun (a b : Remap) => decide (a.hbmChannel * 32 + a.target < b.hbmChannel * 32 + b.target))
    (s.flash.remaps.filter (fun r => r.ch == ch))
  let b := bytesOfWords (rs.map Remap.word)
  (s.oput 0xF012 6 (.blob b)).emit (.objValue 0xF012 6 b)

def execRemapRead (ch : Nat) (s : State) : Res := .next (if ch < 18 then s.remapRead ch else s)

/-! ## Reads of the error queue (R448, R450) -/

/-- Reading NEXT_RECORD: the head record leaves the queue. -/
def State.popRecord (s : State) : List Byte × State :=
  match s.err.queue with
  | [] => (zeros 64, s)
  | r :: q => (r.bytes, { s with err := { s.err with queue := q } })

/-- Reading FATAL_LATCH empties the latch. -/
def State.popLatch (s : State) : List Byte × State :=
  match s.err.latch with
  | none => (zeros 64, s)
  | some r => (r.bytes, { s with err := { s.err with latch := none } })

def execNextRecordRead (s : State) : Res := .next (s.popRecord.2.emit (.objValue 0x5200 2 s.popRecord.1))
def execFatalLatchRead (s : State) : Res := .next (s.popLatch.2.emit (.objValue 0x5200 4 s.popLatch.1))

end Sys2Proof.Machine
end

