-- ==== Sys2Proof/Machine/HostPort.lean ====
section
/-! DEFINITION. The host ports: resets, TLP errors, completions of device reads, and CXL.mem (R27, R29, R336, R365 to R368,
R390, R480, R482, R493, R508). -/
namespace Sys2Proof.Machine

/-! ## Links and resets -/

/-- Links of a port, as numbers port × 4 + link. -/
def State.portLinks (s : State) (h : Nat) : List Nat := (List.range (s.linkCount h)).map (fun k => h * 4 + k)

def State.perst (s : State) (h : Nat) : Bool := if h = 0 then s.sys.perst0 else s.sys.perst1

def State.setPerst (s : State) (h : Nat) (high : Bool) : State :=
  { s with sys := if h = 0 then { s.sys with perst0 := high } else { s.sys with perst1 := high } }

/-- What a link trains to: a generation up to GEN_MAX, and its full width, ×8 or ×4, as far as it has the lanes (R365, log
52). -/
def State.linkTraining (s : State) (h k : Nat) : Nat × Nat :=
  let t := Config.linkTrained h k
  let w := min (max 1 t.2) (4 / s.linkCount h)
  (min (max 3 t.1) (s.onum (pobj 0x6080 h) 2), if w = 3 then 2 else w)

/-- The links of a port train; until Basecamp is ready its configuration requests get retry status (R480). -/
def State.trainHost (s : State) (h : Nat) : State :=
  let s := { s with host := { s.host with
    linksUp := s.host.linksUp.filter (fun l => l / 4 != h) ++ s.portLinks h
    trained := (s.portLinks h).foldl (fun (m : SMap (Nat × Nat)) l => m.put l (s.linkTraining h (l % 4)))
      (s.host.trained.filter (fun p => p.1 / 4 != h)) } }
  s.emit (if s.sys.phase = .ready then .configServed h else .retryStatus h)

/-- CXL.mem requests in flight are discarded. -/
def State.dropCxl (s : State) : State :=
  { s with coh := { s.coh with requests := s.coh.requests.map (fun (r : OpenReq) => match r.purpose with
      | .cxl _ => { r with purpose := .dropped }
      | _ => r) } }

/-- HOST_PORT_RESET: PERST_N of a port is asserted; every function of the port is reset (Table 17.4). -/
def State.hostPortReset (s : State) (h : Nat) : State :=
  let s := s.setPerst h false
  let s := { s with host := { s.host with
    linksUp := s.host.linksUp.filter (fun l => l / 4 != h)
    trained := s.host.trained.filter (fun p => p.1 / 4 != h)
    perstEarly := s.host.perstEarly.filter (fun x => x != h) } }
  let s := if h = 0 then s.dropCxl else s
  ((List.range 32).filter (fun t => s.tenantOk t && s.tenantPort t == h)).foldl (fun s t => s.startReset t .function) s

/-- PERST_N_RELEASE: the links train, once RST_N is released too. -/
def State.perstRelease (s : State) (h : Nat) : State :=
  if s.perst h || s.host.perstEarly.contains h then s
  else if !s.sys.rstN then { s with host := { s.host with perstEarly := s.host.perstEarly ++ [h] } }
  else if s.sys.phase = .booting ∨ s.sys.phase = .ready then (s.setPerst h true).trainHost h
  else s.setPerst h true

def execHostPortReset (h : Nat) (s : State) : Res := .next (s.hostPortReset (h % 2))
def execPerstNRelease (h : Nat) (s : State) : Res := .next (s.perstRelease (h % 2))

/-! ## Violations and read completions (Table 13.12) -/

/-- MALFORMED_TLP. -/
def execMalformedTlp (h k : Nat) (s : State) : Res :=
  let p := h % 2
  .next (((s.hostViolation p).emit (.aer p (k % 4))).corrected 0x0007 (pobj 0x6080 p) 5)

/-- A failed host range: what was known of the range is forgotten. -/
def State.hostFails (s : State) (t a n status : Nat) : State :=
  ({ s with host := { s.host with errors := s.host.errors ++ [(t, a, n, status)] } } : State).hostViolation (s.tenantPort t)

/-- HOST_READ_COMPLETION: the bytes of a device read, or why it fails; during a function-level reset it is discarded. -/
def State.hostCompletion (s : State) (t a : Nat) (r : HostReadResult) : State :=
  if !s.tenantOk t || s.fnSilent t then s
  else
    match r with
    | .data b =>
      { s with host := { s.host with
        mem := s.host.mem.writeN (hostKey t a) b
        errors := s.host.errors.filter (fun e => !(e.1 == t && overlaps e.2.1 e.2.2.1 a b.length)) } }
    | .unsupported n => s.hostFails t a n stBusError
    | .aborted n => s.hostFails t a n stBusError
    | .timeout n => s.hostFails t a n stBusError
    | .poisoned n => s.hostFails t a n stPoisonRead

def execHostReadCompletion (t a : Nat) (r : HostReadResult) (s : State) : Res := .next (s.hostCompletion t a r)

/-! ## CXL.mem (R29, R336, R368, R493) -/

/-- Whether HP0.0 offers CXL: O:0x6080.3 allows it, and the link is up at a generation that has it, 5.0 or 6.0 (R367). -/
def State.cxlOffered (s : State) : Bool :=
  s.onum (pobj 0x6080 0) 3 != 0 && s.sys.phase == .ready && s.host.linksUp.contains 0
    && (s.host.trained.find 0).any (fun t => decide (5 ≤ t.1))

/-- Whether the memory reads active to the host. -/
def State.memActive (s : State) : Bool := s.onum 0x5000 5 == 3 && s.sys.state != .bivouac

/-- The record of a request to memory that is not there; in bivouac only the first is recorded. -/
def State.cxlRecord (s : State) (a : Nat) : State :=
  if s.sys.state = .bivouac then
    if s.host.bivouacNoted then s
    else ({ s with host := { s.host with bivouacNoted := true } } : State).raise
      { severity := 2, source := 0x0007, address := a }
  else s.raise { severity := 2, source := 0x0007, address := a }

/-- The image address of a host address: its offset in the window of the HDM decoder (R29). -/
def State.hdmOffset (s : State) (a : Nat) : Nat := if s.host.hdmBase ≤ a then a - s.host.hdmBase else 2 ^ 47

/-- A CXL.mem request: to memory that is not active or not backed it is answered at once, otherwise it goes to the line's
home. -/
def State.cxlRequest (s : State) (a : Nat) (write : Option (Nat × List Byte)) : State :=
  let o := s.hdmOffset a
  if !s.cxlOffered then s
  else if !s.memActive || decide (2 ^ 47 ≤ o) || !s.imgBacked o then
    (s.cxlRecord a).emit (match write with
      | none => .cxlData a (zeros 64) true
      | some _ => .cxlDone a)
  else
    let m : CohMsg := match write with
      | none => { op := opRdNc, src := 0, dst := 0, txn := 0, line := imgLine o }
      | some (mask, d) => { op := opWrNc, src := 0, dst := 0, txn := 0, line := imgLine o, mask := mask, data := fitTo 64 d }
    (s.request m locHost0 (.cxl a)).2

def execCxlMemRead (a : Nat) (s : State) : Res := .next (s.cxlRequest a none)
def execCxlMemWrite (a : Nat) (d : List Byte) (s : State) : Res := .next (s.cxlRequest a (some (fullMask, d)))
def execCxlMemPartialWrite (a mask : Nat) (d : List Byte) (s : State) : Res :=
  .next (s.cxlRequest a (some (mask % 2 ^ 64, d)))

/-- MEMSPECRD is a hint that the device drops; it never returns data. -/
def execMemspecrd (_ : Nat) (s : State) : Res := .next s

/-- CXL_OTHER_M2S: poisoned data or a completion, with nothing written. -/
def execCxlOtherM2s (expectsData : Bool) (s : State) : Res :=
  .next (if !s.cxlOffered then s
    else ((s.hostViolation 0).emit (if expectsData then .cxlData 0 (zeros 64) true else .cxlDone 0)).corrected 0x0007
      (pobj 0x6080 0) 5)

end Sys2Proof.Machine
end

