-- ==== Sys2Proof/Machine/Strand.lean ====
section
/-! DEFINITION. The strand cores: registers, traps, loads, stores, branches and the scalar instructions (R239 to R274). -/
namespace Sys2Proof.Machine

/-! ## Registers (R248, R278) -/

/-- g0 reads zero. -/
def StrandSt.rg (t : StrandSt) (i : Fin 32) : Word := if i = 0 then 0#64 else t.g[i]

/-- A write to g0 is discarded. -/
def StrandSt.wg (t : StrandSt) (i : Fin 32) (x : Word) : StrandSt := if i = 0 then t else { t with g := t.g.set i x }

/-- An f register as FP32 or FP64 bits. -/
def StrandSt.rf (t : StrandSt) (single : Bool) (i : Fin 32) : Nat :=
  if single then (t.v[i]).toNat % 2 ^ 32 else (t.v[i]).toNat % 2 ^ 64

/-- A scalar result clears the rest of its vector register. -/
def StrandSt.wf (t : StrandSt) (single : Bool) (i : Fin 32) (x : Nat) : StrandSt :=
  { t with v := t.v.set i (BitVec.ofNat 512 (if single then x % 2 ^ 32 else x % 2 ^ 64)) }

/-- The next instruction. -/
def StrandSt.advance (t : StrandSt) : StrandSt := { t with pc := t.pc + 4#64 }

/-- An event counted by the counters that select it (Table 08.5). -/
def StrandSt.event (t : StrandSt) (e n : Nat) : StrandSt :=
  let sel (k : Nat) : Nat := t.evtsel.toNat / 2 ^ (8 * k) % 256
  { t with evt := t.evt.mapIdx (fun k c => if sel k = e then (c + n) % 2 ^ 64 else c) }

def StrandSt.rm (t : StrandSt) : Nat := t.fpctl.toNat % 4
def StrandSt.flags (t : StrandSt) : Nat := fld t.fpctl.toNat 6 2
def StrandSt.trapEn (t : StrandSt) : Nat := fld t.fpctl.toNat 11 7

/-- Adds sticky flags. -/
def StrandSt.addFlags (t : StrandSt) (fl : Nat) : StrandSt := { t with fpctl := t.fpctl ||| BitVec.ofNat 64 (fl % 32 * 4) }

/-! ## What an instruction answers -/

inductive SEff where
  /-- It retires with this strand and state. -/
  | ok (t : StrandSt) (s : State)
  | trap (cause : Nat) (tval : Word)
  /-- It waits for a line or a page; it is taken up again later. -/
  | wait (s : State)
  /-- A page cannot be had: its route is suspended (R267). -/
  | full (cause cls : Nat) (s : State)

/-- The status of a trap that is not delivered (Table 08.10). -/
def trapStatus : Nat → Nat
  | 1 => stBusError
  | 2 => stStrandFault
  | 3 => stStrandFault
  | 7 => stPoisonRead
  | 8 => stArithFault
  | 9 => stArithFault
  | 10 => stDeterminism
  | _ => stBusError

/-- Causes that allow a handler (Table 08.10). -/
def trapHandler (c : Nat) : Bool := c == 2 || c == 3 || c == 8 || c == 9

/-- A trap: delivered to the handler, or it ends the route (R264, R265). -/
def State.strandTrap (s : State) (st : StrandRef) (t : StrandSt) (k : RouteKey) (cause : Nat) (tval : Word) : State :=
  if trapHandler cause && t.tvec.getLsbD 0 && !t.trap then
    (s.setStrand st.ridge.val st.strand.val { t with
      epc := t.pc, cause := BitVec.ofNat 64 cause, tval := tval, trap := true
      pc := t.tvec &&& ~~~ 3#64 }).oinc 0x3070 2 1
  else
    let s := (s.stopStrand st.ridge.val st.strand.val).endRunning st.ridge.val .strand st.strand.val
    let ad := if 4 ≤ cause ∧ cause ≤ 7 ∨ cause = 1 then tval.toNat else 0
    let first := ((s.route? k).map (fun r => !r.strandEnded)).getD false
    let s := if first then (s.oinc 0x3070 3 1).updRoute k (fun r => { r with strandEnded := true }) else s
    (s.routeFault k 0x0009 (trapStatus cause) ad).stopOnRidge k st.ridge.val

/-- Whether an address lies in a task's code window. -/
def inCode (st : Stage) (pc : Word) : Bool :=
  decide (2 ^ 62 ≤ pc.toNat) && decide (pc.toNat < 2 ^ 62 + fld (st.w 3) 63 32)

/-! ## Addresses (R242 to R244) -/

def addrSpace (a : Nat) : Nat := a / 2 ^ 61 % 8

/-- The object that a Depot address of a task names: present, of its class and its tenant. -/
def State.strandObj (s : State) (k : StrandTask) (a : Nat) : Option (Nat × DObj) :=
  if fld a 60 59 ≠ 0 then none
  else
    let o := objKey k.key.tenant (fld a 55 40)
    match s.dobj? o with
    | some d => if d.cls = fld a 58 56 ∧ d.hidden = false then some (o, d) else none
    | none => none

/-- Bytes of an object that a task may address: its scratch object is 4 MiB, others end with their last page. -/
def State.strandLimit (s : State) (k : StrandTask) (o : Nat) (d : DObj) : Nat :=
  if o = k.scratch then 4 * mib else s.objSpan d

/-- Objects that a task may read and write (R244). -/
def mayLoad (k : StrandTask) (o : Nat) (d : DObj) : Bool :=
  o == k.input || o == k.out || k.closed.contains o || o == k.scratch || d.cls == clsOutput
def mayStore (k : StrandTask) (o : Nat) : Bool := o == k.out || o == k.scratch

/-- The cause that failures of host reads give an access: BUS before POISON (R288). -/
def busFirst (l : List Nat) : Option Nat :=
  if l.isEmpty then none else if l.any (fun x => x != stPoisonRead) then some 6 else some 7

/-- The cause that the host memory under the spilled pages of an access's lines gives it (R227, R288). -/
def State.spillFault (s : State) (o : Nat) (d : DObj) (off n : Nat) : Option Nat :=
  let lo := off / 64 * 64
  let hi := ceilDiv (off + n) 64 * 64
  busFirst (d.pages.flatMap (fun id => match s.depot.pages.find id with
    | some p =>
      let a := max lo (p.index * p.size)
      let b := min hi ((p.index + 1) * p.size)
      if p.tier = 3 ∧ a < b then s.hostErrors (o / 65536) (refAddr p.addr + (a - p.index * p.size)) (b - a) else []
    | none => []))

/-! ## Loads -/

inductive LRes where
  /-- Bytes, the state after, and L1D misses. -/
  | ok (b : List Byte) (s : State) (misses : Nat)
  | trap (cause : Nat) (tval : Word)
  | wait (s : State)
  | full (cause cls : Nat) (s : State)

def State.physOf (s : State) (st : StrandRef) : Nat × Nat :=
  (s.physRidge st.ridge.val, s.physStrand st.ridge.val st.strand.val)

/-- Whether a strand's L1D holds a line. -/
def State.l1dHit (s : State) (ridge strand l : Nat) : Bool :=
  (wayOf (waysAt s.cache.l1d (l1dKey ridge strand l) 4) l).isSome

/-- Moves lines through the strand's caches and counts its L1D misses. -/
def State.touchLines (s : State) (st : StrandRef) (k : RouteKey) (ls : List Nat) : State × Nat :=
  let (r, p) := s.physOf st
  ls.foldl (fun (acc : State × Nat) l =>
    (acc.1.strandRead r p l (some k) false, acc.2 + if acc.1.l1dHit r p l then 0 else 1)) (s, 0)

/-- A strand asks for a line that it cannot have at once, and waits for it; while the line's home here is busy with it, the
access is tried again (R241, R322, R326). -/
def State.strandAsk (s : State) (st : StrandRef) (l op : Nat) : State :=
  if lineDev l == s.sys.deviceId && s.lineBusy l then s
  else
    let (_, s) := s.request { op := op, src := 0, dst := 0, txn := 0, line := l } (s.askLoc (s.physRidge st.ridge.val) l)
      (.strand st)
    s.setStrand st.ridge.val st.strand.val { s.strand st.ridge.val st.strand.val with waitLine := some l }

/-- What stands against a line that a strand reads: a trap cause. -/
def State.imgTrap (s : State) (l : Nat) : Option Nat :=
  if lineDev l = s.sys.deviceId then (if s.linePoisoned l then some 7 else none)
  else
    match s.coh.readBuf.find l with
    | some (x, _) => if x = stOk then none else if x = stPoisonRead then some 7 else some 6
    | none => none

/-- The bytes of a line that is near. -/
def State.nearLine (s : State) (ridge l : Nat) : List Byte :=
  if lineDev l = s.sys.deviceId then s.lineRead l
  else
    match s.l2Way ridge l with
    | some w => fitTo 64 w.data
    | none => fitTo 64 (((s.coh.readBuf.find l).map (fun p => p.2)).getD [])

/-- The first of some lines that a strand must ask for before it can read them. -/
def State.notNear (s : State) (ridge : Nat) (ls : List Nat) : Option Nat :=
  ls.find? (fun l => (s.imgTrap l).isNone && !s.lineNear ridge l)

/-- The cause that the lines of an access give it, all of which have come: BUS before POISON (R288). -/
def State.lineCause (s : State) (ls : List Nat) : Option Nat :=
  let causes := ls.filterMap s.imgTrap
  if causes.contains 6 then some 6 else if causes.contains 7 then some 7 else none

/-- A read of image memory by a strand, through its L1D; `a0` is the address that a trap reports, `unbacked` the cause
of an address with no memory behind it. -/
def State.imgLoad (s : State) (st : StrandRef) (k : RouteKey) (a n : Nat) (a0 : Word) (unbacked : Nat) : LRes :=
  let ls := (linesOf a n).map imgLine
  if (linesOf a n).any (fun x => !s.imgBacked x) then .trap unbacked a0
  else
    let ridge := s.physRidge st.ridge.val
    match s.notNear ridge ls with
    | some l => .wait (s.strandAsk st l opRdShared)
    | none =>
      match s.lineCause ls with
      | some c => .trap c a0
      | none =>
        let bytes := sliceB (ls.flatMap (s.nearLine ridge)) (a % 64) n
        let (s, m) := s.touchLines st k ls
        .ok bytes s m

/-- A read through the code or the parameter window (R243). -/
def State.windowLoad (s : State) (st : StrandRef) (k : RouteKey) (ref limit off n : Nat) (a0 : Word) : LRes :=
  if limit < off + n then .trap 4 a0
  else if refHost ref then
    match busFirst (s.hostErrors k.tenant (refAddr ref + off) n) with
    | none =>
      let b := s.host.mem.readN (hostKey k.tenant (refAddr ref + off)) n
      .ok b s (linesOf (refAddr ref + off) n).length
    | some c => .trap c a0
  else s.imgLoad st k (refAddr ref + off) n a0 6

/-- Pages of a task's scratch object appear on the first access (R274). -/
def State.scratchPages (s : State) (k : StrandTask) (o off n : Nat) : Alloc :=
  if o = k.scratch then
    match s.ensurePages o (off / kib64) ((off + n - 1) / kib64 - off / kib64 + 1) with
    | .ok s => .ok (s.settleAsk k.key.tenant k.key.id (fun c => c == clsScratch))
    | a => a
  else .ok s

/-- The bytes of an object's range as a ridge reads them: a peer's lines as they came. -/
def State.depotBytes (s : State) (ridge o : Nat) (ob : DObj) (off n : Nat) : List Byte :=
  if (s.depotLines ob off n).all (fun l => lineDev l == s.sys.deviceId) then ob.readN o off n
  else
    sliceB ((linesOf off n).flatMap (fun x => match s.lineOfObj ob x with
      | some l => if lineDev l = s.sys.deviceId then fitTo 64 (ob.readN o x 64) else s.nearLine ridge l
      | none => fitTo 64 (ob.readN o x 64))) (off % 64) n

/-- A read of a Depot object by a strand, through its L1D (R21, R22, R264, R288). -/
def State.depotLoad (s : State) (st : StrandRef) (key : RouteKey) (a0 : Word) (o : Nat) (ob : DObj) (off n : Nat) : LRes :=
  let ls := s.depotLines ob off n
  let s := ls.foldl State.settleLost s
  let ridge := s.physRidge st.ridge.val
  match s.notNear ridge ls with
  | some l => .wait (s.strandAsk st l opRdShared)
  | none =>
    match busFirst ((s.lineCause ls).toList.map (fun c => if c = 7 then stPoisonRead else stBusError)
        ++ (s.spillFault o ob off n).toList.map (fun c => if c = 7 then stPoisonRead else stBusError)) with
    | some c => .trap c a0
    | none =>
      let bytes := s.depotBytes ridge o ob off n
      let (s, m) := s.touchLines st key ls
      .ok bytes s m

/-- A load of `n` bytes. -/
def State.strandLoad (s : State) (st : StrandRef) (k : StrandTask) (a0 : Word) (n : Nat) : LRes :=
  let a := a0.toNat
  match (s.route? k.key).map (fun r => r.desc.stage k.stage) with
  | none => .wait s
  | some d =>
    match addrSpace a with
    | 0 => if 2 ^ 47 < a + n then .trap 4 a0 else s.imgLoad st k.key a n a0 4
    | 1 =>
      match s.strandObj k a with
      | none => .trap 4 a0
      | some (o, ob) =>
        let off := a % 2 ^ 40
        if mayLoad k o ob = false ∨ s.strandLimit k o ob < off + n then .trap 4 a0
        else
          match s.scratchPages k o off n with
          | .wait m => .wait (s.askPage m)
          | .fail c cls s => .full c cls s
          | .ok s =>
            s.depotLoad st k.key a0 o ((s.dobj? o).getD ob) off n
    | 2 => s.windowLoad st k.key (d.w 2) (fld (d.w 3) 63 32) (a % 2 ^ 61) n a0
    | 3 => s.windowLoad st k.key (d.w 4) (fld (d.w 5) 63 48) (a % 2 ^ 61) n a0
    | _ => .trap 4 a0

/-! ## Stores (R244, R247, R266) -/

/-- The check of a store of `n` bytes; a scratch page appears. -/
def State.storeCheck (s : State) (k : StrandTask) (a0 : Word) (n : Nat) : LRes :=
  let a := a0.toNat
  if addrSpace a ≠ 1 then .trap 5 a0
  else
    match s.strandObj k a with
    | none => .trap 5 a0
    | some (o, ob) =>
      let off := a % 2 ^ 40
      if mayStore k o = false ∨ s.strandLimit k o ob < off + n then .trap 5 a0
      else
        match s.scratchPages k o off n with
        | .wait m => .wait (s.askPage m)
        | .fail c cls s => .full c cls s
        | .ok s => if s.spillFault o ob off n = some 6 then .trap 6 a0 else .ok [] s 0

/-- The bytes of a store that lie in a page of host memory go there. -/
def State.storeToHost (s : State) (o off : Nat) (bs : List Byte) (p : Page) : State :=
  let lo := max off (p.index * p.size)
  let hi := min (off + bs.length) ((p.index + 1) * p.size)
  s.hostWrite (o / 65536) (refAddr p.addr + (lo - p.index * p.size)) (sliceB bs (lo - off) (hi - lo))

/-- A peer's line that an L2 owns takes the bytes of a store; `x` is the offset in the object of its first byte. -/
def State.patchFar (s : State) (ridge l x off : Nat) (bs : List Byte) : State :=
  let s := { s with coh := { s.coh with readBuf := s.coh.readBuf.del l } }
  s.mapL2 ridge l (fun w => { w with
    data := (fitTo 64 w.data).mapIdx (fun i b => if off ≤ x + i ∧ x + i < off + bs.length then bs.getD (x + i - off) 0 else b)
    dirty := true })

/-- The object and its lines take a store's bytes. -/
def State.landStore (s : State) (st : StrandRef) (key : RouteKey) (o off : Nat) (ob : DObj) (ls : List Nat)
    (bs : List Byte) : State :=
  let ph := s.physOf st
  let miss := (ls.filter (fun l => !s.l1dHit ph.1 ph.2 l)).length
  let s := s.setStrand st.ridge.val st.strand.val ((s.strand st.ridge.val st.strand.val).event 1 miss)
  let full := bs.length == 64 && off % 64 == 0
  let s := s.putObj o (ob.writeN o off bs)
  let s := ls.foldl (fun s l => ((s.lineFresh l).strandWrite ph.1 ph.2 l (some key) full).setTag ph.1 l) s
  let s := (linesOf off bs.length).foldl (fun s x => match s.lineOfObj ob x with
    | some l => if lineDev l = s.sys.deviceId then s else s.patchFar ph.1 l x off bs
    | none => s) s
  (s.depot.pages.filter (fun p => p.2.obj == o && p.2.tier == 3
    && overlaps (p.2.index * p.2.size) p.2.size off bs.length)).foldl (fun s p => s.storeToHost o off bs p.2) s

/-- What a store that is to leave the queue meets. -/
inductive StoreRes where
  | done (s : State)
  /-- The journal is full (R62). -/
  | full
  /-- A line must be owned first (R326). -/
  | wait (s : State)

/-- A store leaves the queue: the L2 must own its lines, the journal steps come first (R328, R330), then the object and its
lines take the bytes. -/
def State.storeOut (s : State) (st : StrandRef) (k : StrandTask) (e : StoreEnt) : StoreRes :=
  match s.strandObj k e.addr.toNat with
  | none => .done s
  | some (o, _) =>
    let off := e.addr.toNat % 2 ^ 40
    match s.dobj? o with
    | none => .done s
    | some ob =>
      let ridge := s.physRidge st.ridge.val
      let ls := s.depotLines ob off e.bytes.length
      let s := ls.foldl State.settleLost s
      match ls.find? (fun l => !s.ownNear ridge l) with
      | some l => .wait (s.strandAsk st l (s.ownOp ridge l))
      | none =>
        match s.storeSteps ridge ls with
        | none => .full
        | some s => .done (s.landStore st k.key o off ob ls e.bytes)

/-- The stores of the queue leave it in program order, until one stalls or waits (fuel: the queue). -/
def State.drainStores (s : State) (st : StrandRef) (k : StrandTask) : Nat → State
  | 0 => s
  | f + 1 =>
    let t := s.strand st.ridge.val st.strand.val
    match t.queue with
    | [] => s
    | e :: rest =>
      match s.storeOut st k e with
      | .full => s.countStall
      | .wait s => s
      | .done s =>
        (s.setStrand st.ridge.val st.strand.val { s.strand st.ridge.val st.strand.val with queue := rest }).drainStores
          st k f

/-- The stores of an instruction beyond the 32 that the queue holds leave it first, in order (R241). -/
def State.storeAhead (s : State) (st : StrandRef) (k : StrandTask) : List StoreEnt → StoreRes
  | [] => .done s
  | e :: l =>
    match s.storeOut st k e with
    | .done s => s.storeAhead st k l
    | x => x

/-- How many of some stores must leave before the rest fits in the queue: 32 entries of 64 bits. -/
def overQueue : List StoreEnt → Nat
  | [] => 0
  | e :: l => if 32 < sumNat ((e :: l).map (fun x => ceilDiv x.bytes.length 8)) then overQueue l + 1 else 0

/-- An instruction's stores enter the queue, whose older stores have left it, in program order. -/
def State.enqueue (s : State) (st : StrandRef) (k : StrandTask) (t : StrandSt) (es : List StoreEnt) : SEff :=
  let n := overQueue es
  let old := s.strand st.ridge.val st.strand.val
  match (s.setStrand st.ridge.val st.strand.val { old with evt := t.evt }).storeAhead st k (es.take n) with
  | .full => .wait s.countStall
  | .wait s => .wait s
  | .done s => .ok { t with queue := es.drop n, evt := (s.strand st.ridge.val st.strand.val).evt }.advance s

/-! ## One instruction -/

/-- Whether some counter selects an event (Table 08.5). -/
def StrandSt.selects (t : StrandSt) (e : Nat) : Bool := (List.range 4).any (fun k => t.evtsel.toNat / 2 ^ (8 * k) % 256 == e)

/-- An event whose number the spec does not fix adds a free value of some bits to the counters that select it
(log 35). -/
def State.freeEvent (s : State) (t : StrandSt) (e bits : Nat) : StrandSt × State :=
  if t.selects e then
    let (v, s) := s.free bits
    (t.event e v.toNat, s)
  else (t, s)

/-- A page enters a TLB that misses it; the page that a full one gives up is free (R241, log 35). -/
def tlbFill (tlb : List Nat) (cap page victim : Nat) : List Nat :=
  if tlb.length < cap then tlb ++ [page] else tlb.set (victim % cap) page

/-- The page that an address of a strand lies in, by its first address: a Depot page, or 64 KiB of another space
(log 35). -/
def State.tlbPage (s : State) (k : StrandTask) (a : Nat) : Nat :=
  let size := match (if addrSpace a = 1 then s.strandObj k a else none) with
    | some (_, d) => ((d.pages.findSome? (fun id => (s.depot.pages.find id).map (fun p => p.size))).getD kib64)
    | none => kib64
  a / size * size

/-- A data access looks up its first and its last page in the DTLB; a miss is filled by the map walker (R241). -/
def State.dtlbUse (s : State) (k : StrandTask) (t : StrandSt) (a n : Nat) : StrandSt × State :=
  [s.tlbPage k a, s.tlbPage k (a + n - 1)].eraseDups.foldl (fun (x : StrandSt × State) p =>
    if x.1.dtlb.contains p then x
    else
      let (v, s) := x.2.free 6
      ({ x.1 with dtlb := tlbFill x.1.dtlb 64 p v.toNat }.event 5 1, s)) (t, s)

/-- A fetch looks up its page in the ITLB. -/
def State.itlbUse (s : State) (t : StrandSt) (pc : Nat) : StrandSt × State :=
  let p := pc / kib64 * kib64
  if t.itlb.contains p then (t, s)
  else
    let (v, s) := s.free 5
    ({ t with itlb := tlbFill t.itlb 32 p v.toNat }, s)

/-- The line of image memory that holds the code at a pc; none for code in host memory. -/
def State.codeLine (_s : State) (d : Stage) (pc : Word) : Option Nat :=
  if refHost (d.w 2) then none else some (imgLine (refAddr (d.w 2) + pc.toNat % 2 ^ 61))

/-- The fetch of the instruction at pc through the ITLB and the L1I; code in host memory misses freely (log 35). -/
def State.fetchTouch (s : State) (st : StrandRef) (k : StrandTask) (d : Stage) (t : StrandSt) : StrandSt × State :=
  let (r, p) := s.physOf st
  let (t, s) := s.itlbUse t t.pc.toNat
  match s.codeLine d t.pc with
  | none => s.freeEvent t 2 1
  | some l =>
    let hit := (wayOf (waysAt s.cache.l1i (l1iKey r p l) 4) l).isSome
    (if hit then t else t.event 2 1, s.strandRead r p l (some k.key) true)

/-- The line of code that a strand must ask for before it fetches at a pc. -/
def State.codeAway (s : State) (st : StrandRef) (d : Stage) (pc : Word) : Option Nat :=
  s.notNear (s.physRidge st.ridge.val) (s.codeLine d pc).toList

/-- Whether the code at a pc cannot be fetched: it lies outside the code window, or its line reads with an error. -/
def State.fetchBad (s : State) (d : Stage) (pc : Word) : Bool :=
  !inCode d pc || (s.lineCause (s.codeLine d pc).toList).isSome

/-- Fetches one instruction and runs it. Whatever it does, the snoops that waited for its lines are answered then (R327). -/
def State.strandStep (s : State) (st : StrandRef) (k : StrandTask) (d : Stage) (t : StrandSt)
    (f : StrandSt → StrandTask → State → SEff) : State :=
  let (tf, s) := s.fetchTouch st k d t
  let s := s.setStrand st.ridge.val st.strand.val tf
  let s := match f tf k s with
    | .ok t' s' =>
      let (t', s') := s'.freeEvent t' 4 8
      s'.setStrand st.ridge.val st.strand.val { t' with instret := (t'.instret + 1) % 2 ^ 64 }
    | .trap c v => s.strandTrap st tf k.key c v
    | .wait s' => s'
    | .full c cls s' => s'.suspendRoute k.key c cls
  s.answerHeld (strandKey st.ridge.val st.strand.val)

/-- Runs one instruction of a strand that has a task, waits for nothing and whose older stores have left the queue; a
pc outside the code window traps with FETCH (R242, R264). -/
def State.strandRun (s : State) (st : StrandRef) (f : StrandSt → StrandTask → State → SEff) : Res :=
  match s.strands.find (strandKey st.ridge.val st.strand.val) with
  | none => .next s
  | some t0 =>
    match t0.task with
    | none => .next s
    | some k =>
      match s.route? k.key with
      | none => .next s
      | some r =>
        if t0.waitLine.isSome then .next s
        else
          let s := s.drainStores st k (t0.queue.length + 1)
          let t := s.strand st.ridge.val st.strand.val
          if !t.queue.isEmpty then .next s
          else if s.fetchBad (r.desc.stage k.stage) t.pc then .next (s.strandTrap st t k.key 1 t.pc)
          else
            match s.codeAway st (r.desc.stage k.stage) t.pc with
            | some l => .next (s.strandAsk st l opRdShared)
            | none => .next (s.strandStep st k (r.desc.stage k.stage) t f)

/-- An instruction that only reads and writes registers. -/
def State.regOp (s : State) (st : StrandRef) (f : StrandSt → StrandSt) : Res :=
  s.strandRun st (fun t _ s => .ok (f t).advance s)

/-- rd = f rs1 rs2. -/
def State.alu (s : State) (st : StrandRef) (rd rs1 rs2 : Fin 32) (f : Word → Word → Word) : Res :=
  s.regOp st (fun t => t.wg rd (f (t.rg rs1) (t.rg rs2)))

/-- rd = f rs1. -/
def State.alu1 (s : State) (st : StrandRef) (rd rs1 : Fin 32) (f : Word → Word) : Res :=
  s.regOp st (fun t => t.wg rd (f (t.rg rs1)))

/-- A division: a zero divisor traps with DIVZERO. -/
def State.divOp (s : State) (st : StrandRef) (rd rs1 rs2 : Fin 32) (f : Word → Word → Word) : Res :=
  s.strandRun st (fun t _ s =>
    if t.rg rs2 = 0#64 then .trap 8 0#64 else .ok (t.wg rd (f (t.rg rs1) (t.rg rs2))).advance s)

def wbool (b : Bool) : Word := if b then 1#64 else 0#64
def shamt (x : Word) : Nat := x.toNat % 64
def sext16 (i : BitVec 16) : Word := i.signExtend 64
def zext16 (i : BitVec 16) : Word := i.setWidth 64

def wClz (a : Word) : Word := BitVec.ofNat 64 (64 - bitLen a.toNat)
def wCtz (a : Word) : Word := BitVec.ofNat 64 (((List.range 64).find? (fun i => a.getLsbD i)).getD 64)
def wPopc (a : Word) : Word := BitVec.ofNat 64 (popCount 64 a.toNat)
def wBswap (a : Word) : Word := BitVec.ofNat 64 (beNat (natLe 8 a.toNat))
def wMulh (a b : Word) : Word := BitVec.ofInt 64 (a.toInt * b.toInt / 2 ^ 64)
def wMulhu (a b : Word) : Word := BitVec.ofNat 64 (a.toNat * b.toNat / 2 ^ 64)
/-- One update of CRC-32C with the eight bytes of a word (Table 08.8). -/
def wCrc (a b : Word) : Word := ((crcFold polyC (a.setWidth 32) (natLe 8 b.toNat))).setWidth 64

def execAdd (st : StrandRef) (rd rs1 rs2 : Fin 32) (s : State) : Res := s.alu st rd rs1 rs2 (· + ·)
def execSub (st : StrandRef) (rd rs1 rs2 : Fin 32) (s : State) : Res := s.alu st rd rs1 rs2 (· - ·)
def execAndOp (st : StrandRef) (rd rs1 rs2 : Fin 32) (s : State) : Res := s.alu st rd rs1 rs2 (· &&& ·)
def execOrOp (st : StrandRef) (rd rs1 rs2 : Fin 32) (s : State) : Res := s.alu st rd rs1 rs2 (· ||| ·)
def execXorOp (st : StrandRef) (rd rs1 rs2 : Fin 32) (s : State) : Res := s.alu st rd rs1 rs2 (· ^^^ ·)
def execSll (st : StrandRef) (rd rs1 rs2 : Fin 32) (s : State) : Res := s.alu st rd rs1 rs2 (fun a b => a <<< shamt b)
def execSrl (st : StrandRef) (rd rs1 rs2 : Fin 32) (s : State) : Res := s.alu st rd rs1 rs2 (fun a b => a >>> shamt b)
def execSra (st : StrandRef) (rd rs1 rs2 : Fin 32) (s : State) : Res :=
  s.alu st rd rs1 rs2 (fun a b => a.sshiftRight (shamt b))
def execSlt (st : StrandRef) (rd rs1 rs2 : Fin 32) (s : State) : Res := s.alu st rd rs1 rs2 (fun a b => wbool (a.slt b))
def execSltu (st : StrandRef) (rd rs1 rs2 : Fin 32) (s : State) : Res := s.alu st rd rs1 rs2 (fun a b => wbool (a.ult b))
def execMinOp (st : StrandRef) (rd rs1 rs2 : Fin 32) (s : State) : Res :=
  s.alu st rd rs1 rs2 (fun a b => if a.slt b then a else b)
def execMaxOp (st : StrandRef) (rd rs1 rs2 : Fin 32) (s : State) : Res :=
  s.alu st rd rs1 rs2 (fun a b => if a.slt b then b else a)
def execMinu (st : StrandRef) (rd rs1 rs2 : Fin 32) (s : State) : Res :=
  s.alu st rd rs1 rs2 (fun a b => if a.ult b then a else b)
def execMaxu (st : StrandRef) (rd rs1 rs2 : Fin 32) (s : State) : Res :=
  s.alu st rd rs1 rs2 (fun a b => if a.ult b then b else a)
def execMul (st : StrandRef) (rd rs1 rs2 : Fin 32) (s : State) : Res := s.alu st rd rs1 rs2 (· * ·)
def execMulh (st : StrandRef) (rd rs1 rs2 : Fin 32) (s : State) : Res := s.alu st rd rs1 rs2 wMulh
def execMulhu (st : StrandRef) (rd rs1 rs2 : Fin 32) (s : State) : Res := s.alu st rd rs1 rs2 wMulhu
def execDiv (st : StrandRef) (rd rs1 rs2 : Fin 32) (s : State) : Res := s.divOp st rd rs1 rs2 BitVec.sdiv
def execDivu (st : StrandRef) (rd rs1 rs2 : Fin 32) (s : State) : Res := s.divOp st rd rs1 rs2 (· / ·)
def execRem (st : StrandRef) (rd rs1 rs2 : Fin 32) (s : State) : Res := s.divOp st rd rs1 rs2 BitVec.srem
def execRemu (st : StrandRef) (rd rs1 rs2 : Fin 32) (s : State) : Res := s.divOp st rd rs1 rs2 (· % ·)
def execClz (st : StrandRef) (rd rs1 : Fin 32) (s : State) : Res := s.alu1 st rd rs1 wClz
def execCtz (st : StrandRef) (rd rs1 : Fin 32) (s : State) : Res := s.alu1 st rd rs1 wCtz
def execPopc (st : StrandRef) (rd rs1 : Fin 32) (s : State) : Res := s.alu1 st rd rs1 wPopc
def execBswap (st : StrandRef) (rd rs1 : Fin 32) (s : State) : Res := s.alu1 st rd rs1 wBswap
def execHstep (st : StrandRef) (rd rs1 rs2 : Fin 32) (s : State) : Res := s.alu st rd rs1 rs2 hashStep
def execHfin (st : StrandRef) (rd rs1 : Fin 32) (s : State) : Res := s.alu1 st rd rs1 hashFin
def execCrc32cStep (st : StrandRef) (rd rs1 rs2 : Fin 32) (s : State) : Res := s.alu st rd rs1 rs2 wCrc

def execAddi (st : StrandRef) (rd rs1 : Fin 32) (imm : BitVec 16) (s : State) : Res :=
  s.alu1 st rd rs1 (fun a => a + sext16 imm)
def execAndi (st : StrandRef) (rd rs1 : Fin 32) (imm : BitVec 16) (s : State) : Res :=
  s.alu1 st rd rs1 (fun a => a &&& zext16 imm)
def execOri (st : StrandRef) (rd rs1 : Fin 32) (imm : BitVec 16) (s : State) : Res :=
  s.alu1 st rd rs1 (fun a => a ||| zext16 imm)
def execXori (st : StrandRef) (rd rs1 : Fin 32) (imm : BitVec 16) (s : State) : Res :=
  s.alu1 st rd rs1 (fun a => a ^^^ zext16 imm)
def execSlli (st : StrandRef) (rd rs1 : Fin 32) (amount : BitVec 6) (s : State) : Res :=
  s.alu1 st rd rs1 (fun a => a <<< amount.toNat)
def execSrli (st : StrandRef) (rd rs1 : Fin 32) (amount : BitVec 6) (s : State) : Res :=
  s.alu1 st rd rs1 (fun a => a >>> amount.toNat)
def execSrai (st : StrandRef) (rd rs1 : Fin 32) (amount : BitVec 6) (s : State) : Res :=
  s.alu1 st rd rs1 (fun a => a.sshiftRight amount.toNat)
def execSlti (st : StrandRef) (rd rs1 : Fin 32) (imm : BitVec 16) (s : State) : Res :=
  s.alu1 st rd rs1 (fun a => wbool (a.slt (sext16 imm)))
/-- The immediate is sign-extended before the shift (R252). -/
def execLui (st : StrandRef) (rd : Fin 32) (imm : BitVec 21) (s : State) : Res :=
  s.regOp st (fun t => t.wg rd (imm.signExtend 64 <<< (16 : Nat)))

/-! ## Memory instructions -/

/-- A load: the destination takes what `put` makes of the bytes. -/
def State.loadOp (s : State) (st : StrandRef) (n : Nat) (addr : StrandSt → Word) (put : StrandSt → Nat → StrandSt) : Res :=
  s.strandRun st (fun t k s =>
    match s.strandLoad st k (addr t) n with
    | .ok b s m =>
      let (t, s) := s.dtlbUse k t (addr t).toNat n
      .ok ((put t (leNat b)).event 1 m).advance s
    | .trap c v => .trap c v
    | .wait s => .wait s
    | .full c cls s => .full c cls s)

def sextN (bits n : Nat) : Word := BitVec.ofInt 64 (toSigned bits n)

def State.loadS (s : State) (st : StrandRef) (n : Nat) (rd rs1 : Fin 32) (imm : BitVec 16) : Res :=
  s.loadOp st n (fun t => t.rg rs1 + sext16 imm) (fun t x => t.wg rd (sextN (8 * n) x))
def State.loadU (s : State) (st : StrandRef) (n : Nat) (rd rs1 : Fin 32) (imm : BitVec 16) : Res :=
  s.loadOp st n (fun t => t.rg rs1 + sext16 imm) (fun t x => t.wg rd (BitVec.ofNat 64 x))

def execLb (st : StrandRef) (rd rs1 : Fin 32) (imm : BitVec 16) (s : State) : Res := s.loadS st 1 rd rs1 imm
def execLbu (st : StrandRef) (rd rs1 : Fin 32) (imm : BitVec 16) (s : State) : Res := s.loadU st 1 rd rs1 imm
def execLh (st : StrandRef) (rd rs1 : Fin 32) (imm : BitVec 16) (s : State) : Res := s.loadS st 2 rd rs1 imm
def execLhu (st : StrandRef) (rd rs1 : Fin 32) (imm : BitVec 16) (s : State) : Res := s.loadU st 2 rd rs1 imm
def execLw (st : StrandRef) (rd rs1 : Fin 32) (imm : BitVec 16) (s : State) : Res := s.loadS st 4 rd rs1 imm
def execLwu (st : StrandRef) (rd rs1 : Fin 32) (imm : BitVec 16) (s : State) : Res := s.loadU st 4 rd rs1 imm
def execLd (st : StrandRef) (rd rs1 : Fin 32) (imm : BitVec 16) (s : State) : Res := s.loadU st 8 rd rs1 imm
def execLdpc (st : StrandRef) (rd : Fin 32) (imm : BitVec 16) (s : State) : Res :=
  s.loadOp st 8 (fun t => t.pc + (sext16 imm <<< (3 : Nat))) (fun t x => t.wg rd (BitVec.ofNat 64 x))
def execFlw (st : StrandRef) (rd rs1 : Fin 32) (imm : BitVec 16) (s : State) : Res :=
  s.loadOp st 4 (fun t => t.rg rs1 + sext16 imm) (fun t x => t.wf true rd x)
def execFld (st : StrandRef) (rd rs1 : Fin 32) (imm : BitVec 16) (s : State) : Res :=
  s.loadOp st 8 (fun t => t.rg rs1 + sext16 imm) (fun t x => t.wf false rd x)

/-- A store of `n` bytes of a value. -/
def State.storeOp (s : State) (st : StrandRef) (n : Nat) (rs1 : Fin 32) (imm : BitVec 16) (val : StrandSt → Nat) : Res :=
  s.strandRun st (fun t k s =>
    let a := t.rg rs1 + sext16 imm
    match s.storeCheck k a n with
    | .ok _ s _ =>
      let (t, s) := s.dtlbUse k t a.toNat n
      s.enqueue st k t [{ addr := a, bytes := natLe n (val t) }]
    | .trap c v => .trap c v
    | .wait s => .wait s
    | .full c cls s => .full c cls s)

def execSb (st : StrandRef) (rs1 rs2 : Fin 32) (imm : BitVec 16) (s : State) : Res :=
  s.storeOp st 1 rs1 imm (fun t => (t.rg rs2).toNat)
def execSh (st : StrandRef) (rs1 rs2 : Fin 32) (imm : BitVec 16) (s : State) : Res :=
  s.storeOp st 2 rs1 imm (fun t => (t.rg rs2).toNat)
def execSw (st : StrandRef) (rs1 rs2 : Fin 32) (imm : BitVec 16) (s : State) : Res :=
  s.storeOp st 4 rs1 imm (fun t => (t.rg rs2).toNat)
def execSd (st : StrandRef) (rs1 rs2 : Fin 32) (imm : BitVec 16) (s : State) : Res :=
  s.storeOp st 8 rs1 imm (fun t => (t.rg rs2).toNat)
def execFsw (st : StrandRef) (rs1 rs2 : Fin 32) (imm : BitVec 16) (s : State) : Res :=
  s.storeOp st 4 rs1 imm (fun t => t.rf true rs2)
def execFsd (st : StrandRef) (rs1 rs2 : Fin 32) (imm : BitVec 16) (s : State) : Res :=
  s.storeOp st 8 rs1 imm (fun t => t.rf false rs2)

/-- FENCE: every older store leaves the queue first, and in order issue every older load has completed. -/
def execFence (st : StrandRef) (s : State) : Res := s.regOp st id

/-- A retired store is refused by memory: it leaves the queue unwritten and the route ends (R266, R146). -/
def execStoreRefused (st : StrandRef) (s : State) : Res :=
  match s.strands.find (strandKey st.ridge.val st.strand.val) with
  | none => .next s
  | some t =>
    match t.task, t.queue with
    | some k, e :: _ =>
      let s := (s.stopStrand st.ridge.val st.strand.val).endRunning st.ridge.val .strand st.strand.val
      .next ((s.routeFault k.key 0x0009 stBusError e.addr.toNat).stopOnRidge k.key st.ridge.val).flushHeld
    | _, _ => .next s

/-! ## Branches (R256 to R262) -/

/-- pc and path history after a taken branch or jump. -/
def StrandSt.goto (t : StrandSt) (target : Word) : StrandSt :=
  { t with pc := target, path := (t.path * 4 ^^^ fld target.toNat 3 2) % 65536 }

/-- The word at a code address, where the device has it at hand. -/
def State.codeWord (s : State) (k : StrandTask) (d : Stage) (ridge : Nat) (pc : Word) : Option Nat :=
  let a := refAddr (d.w 2) + pc.toNat % 2 ^ 61
  if !inCode d pc then some 0
  else if refHost (d.w 2) then
    match s.hostRead k.key.tenant a 4 with
    | .ok b => some (leNat b)
    | .error _ => some 0
  else if s.lineNear ridge (imgLine a) then some (leNat (sliceB (s.nearLine ridge (imgLine a)) (a % 64) 4))
  else none

/-- One group fetched on a wrong path: the ITLB and the L1I fill as for a retired fetch; the L2 and the SLC do not, and a
peer's line is read without caching (R261). -/
def State.wrongFetch (s : State) (st : StrandRef) (d : Stage) (t : StrandSt) (pc : Word) : StrandSt × State :=
  let (t, s) := s.itlbUse t pc.toNat
  let (r, p) := s.physOf st
  match (if inCode d pc then s.codeLine d pc else none) with
  | some l =>
    if (s.imgTrap l).isSome then (t, s)
    else
      let s := if s.lineNear r l || lineDev l == s.sys.deviceId then s
        else (s.request { op := opRdNc, src := 0, dst := 0, txn := 0, line := l } locProxy .dropped).2
      (t, s.fillL1 r p l true false)
  | none => (t, s)

/-- A wrong path was fetched from `start`. How many groups of 8 bytes it has depends on the clocks of the pipeline, so
their number is free; behind a fall-through one of the next two instructions may reach EX, and a load among them adds
one or nothing (R261, R262, R293, log 35). -/
def State.wrongPath (s : State) (st : StrandRef) (k : StrandTask) (t : StrandSt) (start : Word) (fallThrough : Bool) :
    StrandSt × State :=
  match (s.route? k.key).map (fun r => r.desc.stage k.stage) with
  | none => (t, s)
  | some d =>
    let ridge := s.physRidge st.ridge.val
    let (g, s) := s.free 8
    let (l, s) := s.free 1
    let isLoad (pc : Word) : Bool := ((s.codeWord k d ridge pc).map Decode.isLoad).getD true
    let load := fallThrough && (isLoad start || isLoad (start + 4#64))
    let t := ({ t with wpfetch := (t.wpfetch + g.toNat) % 2 ^ 64
                       wpload := (t.wpload + if load then l.toNat else 0) % 2 ^ 64 }).event 3 1
    (List.range g.toNat).foldl (fun (x : StrandSt × State) i =>
      x.2.wrongFetch st d x.1 ((start &&& ~~~ 7#64) + BitVec.ofNat 64 (8 * i))) (t, s)

/-- A conditional branch. -/
def State.branch (s : State) (st : StrandRef) (rs1 rs2 : Fin 32) (imm : BitVec 16) (c : Word → Word → Bool) : Res :=
  s.strandRun st (fun t k s =>
    let taken := c (t.rg rs1) (t.rg rs2)
    let predicted := t.bpctl.getLsbD 0 && imm.msb
    let target := t.pc + (sext16 imm <<< (2 : Nat))
    let t' := if taken then t.goto target else t.advance
    if t.pt || predicted == taken then .ok t' s
    else
      let x := s.wrongPath st k t' (if taken then t.pc + 4#64 else target) taken
      .ok x.1 x.2)

def execBeq (st : StrandRef) (rs1 rs2 : Fin 32) (imm : BitVec 16) (s : State) : Res :=
  s.branch st rs1 rs2 imm (fun a b => a == b)
def execBne (st : StrandRef) (rs1 rs2 : Fin 32) (imm : BitVec 16) (s : State) : Res :=
  s.branch st rs1 rs2 imm (fun a b => a != b)
def execBlt (st : StrandRef) (rs1 rs2 : Fin 32) (imm : BitVec 16) (s : State) : Res :=
  s.branch st rs1 rs2 imm (fun a b => a.slt b)
def execBge (st : StrandRef) (rs1 rs2 : Fin 32) (imm : BitVec 16) (s : State) : Res :=
  s.branch st rs1 rs2 imm (fun a b => !a.slt b)
def execBltu (st : StrandRef) (rs1 rs2 : Fin 32) (imm : BitVec 16) (s : State) : Res :=
  s.branch st rs1 rs2 imm (fun a b => a.ult b)
def execBgeu (st : StrandRef) (rs1 rs2 : Fin 32) (imm : BitVec 16) (s : State) : Res :=
  s.branch st rs1 rs2 imm (fun a b => !a.ult b)

def execJal (st : StrandRef) (rd : Fin 32) (imm : BitVec 21) (s : State) : Res :=
  s.regOp st (fun t =>
    let t' := (t.wg rd (t.pc + 4#64)).goto (t.pc + (imm.signExtend 64 <<< (2 : Nat)))
    { t' with pc := t'.pc - 4#64 })

/-- Index and tag of the indirect-target table for a jump at pc (R257). -/
def ittIndex (t : StrandSt) : Nat × Nat :=
  let x := t.path ^^^ fld t.pc.toNat 17 2
  (x % 512 ^^^ x / 512 % 128, fld t.pc.toNat 25 18)

/-- JALR: predicted by the table when it is enabled; unless timing is predictable it writes its entry (R257, R258). -/
def execJalr (st : StrandRef) (rd rs1 : Fin 32) (imm : BitVec 16) (s : State) : Res :=
  s.strandRun st (fun t k s =>
    let target := (t.rg rs1 + sext16 imm) &&& ~~~ 3#64
    let (i, tag) := ittIndex t
    let tgt := target.toNat / 4 % 2 ^ 30
    let t' := (t.wg rd (t.pc + 4#64)).goto target
    let t' := if t.pt then t' else { t' with itt := t'.itt.put i { tag := tag, target := tgt } }
    match (if t.bpctl.getLsbD 1 && !t.pt then t.itt.find i else none) with
    | some e =>
      if e.tag = tag ∧ ¬ (2 ^ 62 + e.target * 4 = target.toNat) then
        let x := s.wrongPath st k t' (BitVec.ofNat 64 (2 ^ 62 + e.target * 4)) false
        .ok x.1 x.2
      else .ok t' s
    | none => .ok t' s)

/-! ## Control registers (R249 to R251) -/

/-- The value of a control register, where the number is assigned. -/
def StrandSt.csr (t : StrandSt) (st : StrandRef) (time : Nat) (n : Nat) : Option Word :=
  match n with
  | 0x000 => some (BitVec.ofNat 64 (t.pt.toNat * 2 + t.trap.toNat))
  | 0x001 => some t.tvec
  | 0x002 => some t.epc
  | 0x003 => some t.cause
  | 0x004 => some t.tval
  | 0x008 => some t.fpctl
  | 0x010 => some t.bpctl
  | 0x011 => some t.evtsel
  | 0x020 => some (BitVec.ofNat 64 (st.ridge.val * 16 + st.strand.val))
  | 0x100 => some (BitVec.ofNat 64 t.cycle)
  | 0x101 => some (BitVec.ofNat 64 t.instret)
  | 0x102 => some (BitVec.ofNat 64 time)
  | 0x103 => some (BitVec.ofNat 64 t.wpfetch)
  | 0x104 => some (BitVec.ofNat 64 t.wpload)
  | 0x108 => some (BitVec.ofNat 64 t.evt[0])
  | 0x109 => some (BitVec.ofNat 64 t.evt[1])
  | 0x10A => some (BitVec.ofNat 64 t.evt[2])
  | 0x10B => some (BitVec.ofNat 64 t.evt[3])
  | _ => none

/-- A write of a control register: none where it raises ILLEGAL. -/
def StrandSt.setCsr (t : StrandSt) (n : Nat) (x : Word) : Option StrandSt :=
  match n with
  | 0x001 => if x.getLsbD 1 then none else some { t with tvec := x }
  | 0x002 => some { t with epc := x }
  | 0x008 => if x.toNat < 2 ^ 12 then some { t with fpctl := x } else none
  | 0x010 => if x.toNat < 4 then some { t with bpctl := x } else none
  | 0x011 => if x.toNat < 2 ^ 32 then some { t with evtsel := x } else none
  | _ => none

/-- Whether a task's route is DETERMINISTIC. -/
def State.isDet (s : State) (k : RouteKey) : Bool := ((s.route? k).map (fun r => r.desc.deterministic)).getD false

def execCsrr (st : StrandRef) (rd : Fin 32) (csr : BitVec 12) (s : State) : Res :=
  s.strandRun st (fun t k s =>
    let n := csr.toNat
    if 0x100 ≤ n ∧ n ≤ 0x10B ∧ s.isDet k.key = true then .trap 10 (BitVec.ofNat 64 n)
    else
      match t.csr st s.timeNs n with
      | none => .trap 2 (BitVec.ofNat 64 (Decode.wordI 0x29 rd.val 0 n))
      | some x => .ok (t.wg rd x).advance s)

def execCsrw (st : StrandRef) (rs1 : Fin 32) (csr : BitVec 12) (s : State) : Res :=
  s.strandRun st (fun t _ s =>
    match t.setCsr csr.toNat (t.rg rs1) with
    | none => .trap 2 (BitVec.ofNat 64 (Decode.wordI 0x2A 0 rs1.val csr.toNat))
    | some t => .ok t.advance s)

/-! ## Scalar floating point (R255, Table 08.9) -/

/-- Completes an instruction that raised FP flags, or traps (Table 08.10). -/
def fpEnd (t' : StrandSt) (fl : Nat) (s : State) : SEff :=
  if t'.trapEn &&& fl ≠ 0 then .trap 9 (BitVec.ofNat 64 (fl % 32 * 4)) else .ok (t'.addFlags fl).advance s

def fmtOf (single : Bool) : Fmt := if single then fp32 else fp64

/-- fd = f fs1 fs2. -/
def State.fp2 (s : State) (st : StrandRef) (single : Bool) (rd rs1 rs2 : Fin 32) (f : Fmt → Nat → Nat → Nat → Nat × Nat) :
    Res :=
  s.strandRun st (fun t _ s =>
    let r := f (fmtOf single) t.rm (t.rf single rs1) (t.rf single rs2)
    fpEnd (t.wf single rd r.1) r.2 s)

/-- g rd = f fs1 fs2. -/
def State.fpCmp (s : State) (st : StrandRef) (single : Bool) (rd rs1 rs2 : Fin 32) (f : Fmt → Nat → Nat → Bool × Nat) :
    Res :=
  s.strandRun st (fun t _ s =>
    let r := f (fmtOf single) (t.rf single rs1) (t.rf single rs2)
    fpEnd (t.wg rd (wbool r.1)) r.2 s)

def execFadd (st : StrandRef) (single : Bool) (rd rs1 rs2 : Fin 32) (s : State) : Res := s.fp2 st single rd rs1 rs2 fpAdd
def execFsub (st : StrandRef) (single : Bool) (rd rs1 rs2 : Fin 32) (s : State) : Res := s.fp2 st single rd rs1 rs2 fpSub
def execFmul (st : StrandRef) (single : Bool) (rd rs1 rs2 : Fin 32) (s : State) : Res := s.fp2 st single rd rs1 rs2 fpMul
def execFdiv (st : StrandRef) (single : Bool) (rd rs1 rs2 : Fin 32) (s : State) : Res := s.fp2 st single rd rs1 rs2 fpDiv
def execFsqrt (st : StrandRef) (single : Bool) (rd rs1 : Fin 32) (s : State) : Res :=
  s.fp2 st single rd rs1 rs1 (fun f rm a _ => fpSqrt f rm a)
def execFmin (st : StrandRef) (single : Bool) (rd rs1 rs2 : Fin 32) (s : State) : Res :=
  s.fp2 st single rd rs1 rs2 (fun f _ a b => fpMin f a b)
def execFmax (st : StrandRef) (single : Bool) (rd rs1 rs2 : Fin 32) (s : State) : Res :=
  s.fp2 st single rd rs1 rs2 (fun f _ a b => fpMaxOf f a b)
def execFmadd (st : StrandRef) (single : Bool) (rd rs1 rs2 : Fin 32) (s : State) : Res :=
  s.strandRun st (fun t _ s =>
    let r := fpFma (fmtOf single) t.rm (t.rf single rs1) (t.rf single rs2) (t.rf single rd)
    fpEnd (t.wf single rd r.1) r.2 s)
def execFeq (st : StrandRef) (single : Bool) (rd rs1 rs2 : Fin 32) (s : State) : Res := s.fpCmp st single rd rs1 rs2 fpEq
def execFlt (st : StrandRef) (single : Bool) (rd rs1 rs2 : Fin 32) (s : State) : Res := s.fpCmp st single rd rs1 rs2 fpLt
def execFle (st : StrandRef) (single : Bool) (rd rs1 rs2 : Fin 32) (s : State) : Res := s.fpCmp st single rd rs1 rs2 fpLe
def execFcvtl (st : StrandRef) (single : Bool) (rd rs1 : Fin 32) (s : State) : Res :=
  s.strandRun st (fun t _ s =>
    let r := fpToI64 (fmtOf single) t.rm (t.rf single rs1)
    fpEnd (t.wg rd (BitVec.ofNat 64 r.1)) r.2 s)
def execFcvtf (st : StrandRef) (single : Bool) (rd rs1 : Fin 32) (s : State) : Res :=
  s.strandRun st (fun t _ s =>
    let r := fpFromInt (fmtOf single) t.rm (t.rg rs1).toInt
    fpEnd (t.wf single rd r.1) r.2 s)
/-- A bit copy of an f register into a g register; FP32 bits are zero-extended (log 36). -/
def execFmvgf (st : StrandRef) (single : Bool) (rd rs1 : Fin 32) (s : State) : Res :=
  s.regOp st (fun t => t.wg rd (BitVec.ofNat 64 (t.rf single rs1)))
/-- A bit copy of a g register into an f register. -/
def execFmvfg (st : StrandRef) (single : Bool) (rd rs1 : Fin 32) (s : State) : Res :=
  s.regOp st (fun t => t.wf single rd (t.rg rs1).toNat)

/-! ## System instructions -/

def execBrk (st : StrandRef) (s : State) : Res :=
  s.strandRun st (fun _ _ _ => .trap 3 (BitVec.ofNat 64 (Decode.wordR 0x28 0 0 0 1)))

def execEret (st : StrandRef) (s : State) : Res :=
  s.strandRun st (fun t _ s =>
    if t.trap then .ok { t with pc := t.epc &&& ~~~ 3#64, trap := false } s
    else .trap 2 (BitVec.ofNat 64 (Decode.wordR 0x28 0 0 0 2)))

/-- A reserved word raises ILLEGAL (R253). -/
def execReservedEncoding (st : StrandRef) (word : BitVec 32) (s : State) : Res :=
  if Decode.strandAssigned word.toNat then .next s
  else s.strandRun st (fun _ _ _ => .trap 2 (word.setWidth 64))

/-- A fetch outside the code window, or a read error of code, raises FETCH (Table 08.10). -/
def execFetchFault (st : StrandRef) (readError : Bool) (s : State) : Res :=
  s.strandRun st (fun t _ s => if readError then .trap 1 t.pc else .wait s)

/-- The KEY_FORM of a task's input. -/
def State.inputForm (s : State) (k : StrandTask) : Nat := ((s.ropeIn k.input).map (fun r => r.keyForm)).getD 0

/-- A strand's output rope leaves: it passes the kind 0 port where the consumer is the EMIT (R201, R273). -/
def State.strandEmits (s : State) (r : Route) (k : StrandTask) (st : StrandRef) (count : Nat) : List Task × State :=
  let c := s.closeOutputRope r k st.ridge.val count
  if count = 0 then c
  else if (r.desc.consumers k.stage).any (fun i => (r.desc.stage i).kind == kEmit) then
    (c.1, c.2.portTakes st.ridge.val (some st.strand.val))
  else c

/-- TEMIT closes the output rope and takes a new one (R273). -/
def execTemit (st : StrandRef) (rd rs1 : Fin 32) (s : State) : Res :=
  s.strandRun st (fun t k s =>
    let count := (t.rg rs1).toNat
    if 4096 < count ∨ count = 0 ∨ s.inputForm k = 0 then
      .trap 2 (BitVec.ofNat 64 (Decode.wordR 0x28 rd.val rs1.val 0 0x10))
    else
      match s.route? k.key with
      | none => .wait s
      | some r =>
        match s.newOutput k.key r.desc k.stage st.ridge.val (s.inputForm k) with
        | .ok out s =>
          let s := s.settleAsk k.key.tenant k.key.id (fun c => c == clsRope)
          let (ts, s) := s.strandEmits r k st count
          let s := s.mapRunning st.ridge.val .strand st.strand.val (fun x => { x with outputs := x.outputs ++ ts })
          let s := s.flushOutputs st.ridge.val .strand st.strand.val
          .ok ({ t with task := some { k with out := out, closed := k.closed ++ [k.out] } }.wg rd
            (BitVec.ofNat 64 (s.objAddr out))).advance s
        | .need _ => .wait s
        | .again _ => .wait s
        | .ask m => .wait (s.askPage m)
        | .full c cls s => .full c cls s
        | .bad _ s => .wait s)

/-- The end of a task by TEND: counters, the scratch object and the context (R273, R276). -/
def State.strandEnd (s : State) (st : StrandRef) (t : StrandSt) (k : StrandTask) (ts : List Task) : State :=
  let s := s.oinc 0x3070 1 1
  let s := s.releaseObj k.key k.scratch
  let s := s.mapRunning st.ridge.val .strand st.strand.val (fun x => { x with outputs := x.outputs ++ ts })
  ((s.setStrand st.ridge.val st.strand.val t).stopStrand st.ridge.val st.strand.val).finishTask st.ridge.val .strand
    st.strand.val

/-- TEND closes the output rope and ends the task (R273). -/
def execTend (st : StrandRef) (rs1 : Fin 32) (s : State) : Res :=
  s.strandRun st (fun t k s =>
    let count := (t.rg rs1).toNat
    if 4096 < count then .trap 2 (BitVec.ofNat 64 (Decode.wordR 0x28 0 rs1.val 0 0x11))
    else
      match s.route? k.key with
      | none => .wait s
      | some r =>
        let (ts, s) := s.strandEmits r k st count
        .wait (s.strandEnd st t k ts))

end Sys2Proof.Machine
end

