-- ==== Sys2Proof/Machine/Upsets.lean ====
section
/-! DEFINITION. Faults of hardware that no row of the table names: register files, cache arrays, Cairn rows, lines of memory,
the Depot map and Basecamp's memory (R176, R268, R308, R432, R444, R447; log 62). -/
namespace Sys2Proof.Machine

/-! ## Cache arrays (Table 10.6) -/

/-- The counter of an array's corrected errors, and that of its fenced ways (Table 10.7). -/
def arrayCount : CacheArray → Nat × Nat
  | .l1d r _ => (robj 0xA008 r, 11)
  | .l1i r _ => (robj 0xA008 r, 11)
  | .l2 r => (robj 0xA008 r, 11)
  | .slc => (0x3080, 5)
def arrayFences : CacheArray → Nat × Nat
  | .l1d r _ => (robj 0xA008 r, 12)
  | .l1i r _ => (robj 0xA008 r, 12)
  | .l2 r => (robj 0xA008 r, 12)
  | .slc => (0x3080, 6)

/-- Whether an array is there: 17 ridges of 9 strands. -/
def arrayKnown : CacheArray → Bool
  | .l1d r k => decide (r < 17) && decide (k < 9)
  | .l1i r k => decide (r < 17) && decide (k < 9)
  | .l2 r => decide (r < 17)
  | .slc => true

/-- The ways of the set that a line falls into. -/
def State.arrayWays (s : State) (a : CacheArray) (l : Nat) : List Way :=
  match a with
  | .l1d r k => waysAt s.cache.l1d (l1dKey r k l) 4
  | .l1i r k => waysAt s.cache.l1i (l1iKey r k l) 4
  | .l2 r => waysAt s.cache.l2 (l2Key r l) 16
  | .slc => waysAt s.cache.slc (slcKey l) 16

def State.putArray (s : State) (a : CacheArray) (l : Nat) (ws : List Way) : State :=
  match a with
  | .l1d r k => { s with cache := { s.cache with l1d := s.cache.l1d.put (l1dKey r k l) ws } }
  | .l1i r k => { s with cache := { s.cache with l1i := s.cache.l1i.put (l1iKey r k l) ws } }
  | .l2 r => { s with cache := { s.cache with l2 := s.cache.l2.put (l2Key r l) ws } }
  | .slc => { s with cache := { s.cache with slc := s.cache.slc.put (slcKey l) ws } }

/-- A line leaves an L2; of a peer's line the proxy forgets the holder. -/
def State.loseL2 (s : State) (r l : Nat) : State :=
  let s := s.dropL2 r l
  if lineDev l = s.sys.deviceId then s.setDir l ((s.dirEnt l).release s.sys.deviceId (s.agent r))
  else s.setRemote l ((s.remoteEnt l).1.filter (fun x => x != r), (s.remoteEnt l).2)

/-- A clean line is invalidated, with the notice that its home is due (R314), and the next level serves the request. -/
def State.dropArray (s : State) (a : CacheArray) (l i : Nat) : State :=
  match a with
  | .l2 r =>
    let s := s.loseL2 r l
    if lineDev l ≠ s.sys.deviceId ∧ (s.remoteEnt l).1.isEmpty = true then s.proxyWb opEvictClean l [] .I else s
  | a => s.putArray a l ((s.arrayWays a l).set i invalidWay)

/-- A dirty line goes to memory with the poisoned marker; a peer's line goes to its home so marked. -/
def State.spoilLine (s : State) (a : CacheArray) (l i : Nat) : State :=
  let bytes (r : Nat) : List Byte := ((s.l2Way r l).map (fun w => w.data)).getD []
  let s' := match a with
    | .l1d r _ => s.loseL2 r l
    | .l1i r _ => s.loseL2 r l
    | .l2 r => s.loseL2 r l
    | .slc => s.putArray a l ((s.arrayWays a l).set i invalidWay)
  if lineDev l = s.sys.deviceId then s'.poison l
  else
    let data := match a with
      | .l1d r _ => bytes r
      | .l1i r _ => bytes r
      | .l2 r => bytes r
      | .slc => []
    s'.proxyNote opWbDirty l data .I true

/-- A way whose tag fails twice is fenced until a device reset, and every open span replays. -/
def State.fenceWay (s : State) (a : CacheArray) (l i : Nat) : State :=
  let s := match a with
    | .l2 r => s.dropL1 r l
    | _ => s
  let s := s.putArray a l ((s.arrayWays a l).set i { invalidWay with fenced := true })
  let c := arrayFences a
  ((s.oinc c.1 c.2 1).raise { severity := 2, source := 0x0003, w4 := objW4 c.1 c.2
                              closing := if s.routes.any (fun r => r.span.isSome) then some .atReplay else none }).replayAll

/-- An error that a lookup of a line meets in an array that holds it (R308). -/
def State.arrayError (s : State) (a : CacheArray) (l : Nat) (e : ArrayError) : State :=
  match wayOf (s.arrayWays a l) l with
  | none => s
  | some i =>
    let c := arrayCount a
    let noted (s : State) : State := (s.oinc c.1 c.2 1).corrected 0x0003 c.1 c.2
    match a, e with
    | .l1i _ _, _ => noted (s.dropArray a l i)
    | _, .single => noted s
    | _, .tagOnce => noted s
    | _, .double =>
      if ((s.arrayWays a l).getD i invalidWay).dirty then
        (s.spoilLine a l i).raise { severity := 1, source := 0x0003, address := l, w4 := objW4 c.1 c.2 }
      else noted (s.dropArray a l i)
    | _, .tagTwice => s.fenceWay a l i

/-! ## Registers, Cairn, memory, map -/

/-- A corrected error of a strand's register files, store queue or TLBs is counted and recorded (R268). -/
def State.registersCorrected (s : State) (p k : Nat) : State :=
  if 16 < p ∨ 8 < k ∨ s.inService p = false then s
  else (s.oinc (robj 0xA004 p) 4 1).corrected 0x0009 (robj 0xA004 p) 4

/-- A parity error in an indirect-target table: the entry counts as a miss, and nothing is recorded (R268). -/
def State.ittParity (s : State) (p k i : Nat) : State :=
  { s with strands := s.strands.map (fun x =>
      (x.1, if s.physRidge (x.1 / 8) = p ∧ s.physStrand (x.1 / 8) (x.1 % 8) = k then { x.2 with itt := x.2.itt.del i } else x.2)) }

/-- A bit of a row of a bank turns over; its parity fails from then on (R176). -/
def State.flipRow (s : State) (k row bit : Nat) : State :=
  match (s.bank k).rows.find row with
  | none => s
  | some r => if bit < 94 then s.setBank k { s.bank k with rows := (s.bank k).rows.put row (r ^^^ BitVec.ofNat 94 (2 ^ bit)) } else s

/-- The raw codewords of a line whose marker is taken away, the other copy's marked one among them. -/
def State.rawKept (s : State) (l m : Nat) : SMap (List Byte × List Byte) :=
  if s.twoCopies l && (s.dram.poisoned.find l).isSome then s.dram.raw.put (copyKey l (1 - m)) (s.copyWord l (1 - m))
  else s.dram.raw

/-- Symbols of a copy of a line of this device and of its check symbols turn over; later reads meet the codeword that results.
What the serving copy reads as is the line (log 71). -/
def State.flipLine (s : State) (l : Nat) (mirror : Bool) (data check : List Byte) : State :=
  let m := mirror.toNat
  if lineDev l ≠ s.sys.deviceId ∨ l % 64 ≠ 0 ∨ s.lineBacked l = false ∨ (mirror = true ∧ s.twoCopies l = false) then s
  else
    let w := s.copyWord l m
    let d := xorB w.1 (fitTo 64 data)
    let c := xorB w.2 (fitTo (checkLen l) check)
    let raw := s.rawKept l m
    let s := if m ≠ s.serves l then s
      else
        match codeFate (s.erasedSyms l m) d c with
        | .good x _ => if x = s.lineRead l then s else s.lineWrite l x
        | _ => s
    { s with dram := { s.dram with
        poisoned := s.dram.poisoned.del l
        raw := if d = s.lineRead l ∧ c = rsCheck (checkLen l) d then raw.del (copyKey l m) else raw.put (copyKey l m) (d, c) } }

/-- What the faults beyond ridges, strands and paths do. -/
def State.upset (s : State) (r : Resource) : State :=
  match r with
  | .strand _ _ => s
  | .ridge _ => s
  | .path _ => s
  | .registers p k => s.registersCorrected p k
  | .itt p k i => s.ittParity p k i
  | .array a l e => if arrayKnown a then s.arrayError a l e else s
  | .cairnRow q b row bit => if q < 16 ∧ b < 4 then s.flipRow (bankKey q b) row bit else s
  | .memory l m d c => s.flipLine l m d c
  | .depotMap (some t) => if t < 32 ∧ s.resetting t = false then s.fatalTenant t { severity := 3, source := 0x000C } else s
  | .depotMap none => s.fatalDevice { severity := 4, source := 0x000C }
  | .basecamp => s.fatalDevice { severity := 4, source := 0x000E }

end Sys2Proof.Machine
end

