-- ==== Sys2Proof/Machine/Pitch.lean ====
section
/-! DEFINITION. Pitch timing: ticks, cutoff, decision, belay acknowledgements, replays and what a tick makes visible
(chapter 02; R204 to R209, R229 to R234, R484). -/
namespace Sys2Proof.Machine

/-! ## Instants (R40) -/

def State.cutoffAt (s : State) : Nat := s.pitch.expected - usClocks s.windowUs
def State.decisionAt (s : State) : Nat := s.pitch.expected - usClocks s.marginUs

/-! ## Cutoff (R40, R66, R204, R302) -/

/-- The cutoff of the pitch in progress: the cutoff clean, what each span has done, the swap of the Summit's slots and
the partials that leave for their homes. -/
def State.cutoffStep (s : State) : State :=
  if !s.pitch.running || s.pitch.cutoffDone then s
  else
    let s := (s.advanceTo s.cutoffAt).cutoffClean
    let s := { s with
      pitch := { s.pitch with cutoffDone := true }
      routes := s.routes.map (fun (r : Route) => { r with span := r.span.map (fun (sp : Span) =>
        { sp with doneByC := !sp.replaying && s.spanIdle r }) }) }
    let n := s.pitch.number
    ((s.swapSlots n).sendPartials n).pumpOutbound

/-! ## Decision (R66, R67, R69, R178) -/


/-- Whether the merges of a span up to pitch `n` are all done (R206). -/
def Span.mergesDone (sp : Span) (n : Nat) : Bool :=
  (List.range (n + 1 - sp.openPitch)).all (fun i => sp.merged.contains (sp.openPitch + i))

/-- The commit conditions of R67 at the home. -/
def State.commitReady (s : State) (r : Route) (sp : Span) : Bool :=
  s.partDone r sp && sp.mergesDone s.pitch.number
    && r.parts.all (fun d => d == s.sys.deviceId || sp.acks.contains (d, 0))

/-- A verdict for a span, sent to every participant. -/
def State.verdict (s : State) (k : RouteKey) (kind : Nat) : State :=
  (s.mapSpan k (fun sp => { sp with verdict := some kind })).sendVerdict k kind s.pitch.number

/-- A span whose searches a repair may have spoiled is replayed as after a fault (R178, R73). -/
def State.spoiledReplay (s : State) (k : RouteKey) : State :=
  (s.raise { severity := 2, source := 0x0004, tenant := some k.tenant, routeId := k.id, w4 := objW4 0x2003 2
             closing := some .atReplay }).faultReplay k

/-- The decision of one open span at its home (R69). -/
def State.decideSpan (s : State) (k : RouteKey) : State :=
  match s.route? k with
  | none => s
  | some r =>
    match r.span with
    | none => s
    | some sp =>
      if sp.replaying then s
      else if s.searchSpoiled sp then s.spoiledReplay k
      else if s.commitReady r sp then s.verdict k 4
      else
        let s := (s.updRoute k (fun r => { r with overruns := r.overruns + 1 })).oinc 0x2003 1 1
        let s := s.mapSpan k (fun sp => { sp with ext := sp.ext + 1 })
        if sp.ext + 1 ≤ s.onum 0x2000 4 then (s.logRoute k 0x6).verdict k 5
        else if r.h = 4 then
          ((s.verdict k 6).endAt k stPitchTimeout).oinc 0x2003 4 1
        else
          ((s.updRoute k (fun r => { r with h := r.h + 1 })).oinc 0x2003 3 1).verdict k 6

/-- Whether a migration's switch is due at this tick: its copy ended before D, and an open span that has set a changed
bit on the page receives COMMIT at this tick or is being replayed (R234 step 4). -/
def State.switchDue (s : State) (m : Migration) : Bool :=
  m.ended && (!m.live ||
    (match (s.depot.pages.find m.page).bind (fun p => p.key) with
     | none => true
     | some k =>
       match (s.route? k).bind (fun r => r.span) with
       | none => true
       | some sp => sp.verdict == some 4 || sp.replaying))

/-- What a tick makes of the migrations before its verdicts take effect. -/
def State.markDue (s : State) : State :=
  { s with depot := { s.depot with migrations := s.depot.migrations.map (fun (m : Migration) =>
      { m with due := s.switchDue m }) } }

/-- The decision instant: participants whose DONE has not left acknowledge, the home decides, entries whose merge has not started go to holding,
and migrations are tried. -/
def State.decisionStep (s : State) : State :=
  if !s.pitch.running || s.pitch.decisionDone then s
  else
    let s := (s.cutoffStep.advanceTo s.decisionAt).ackDone
    let s := s.routes.foldl (fun s r =>
      if s.isHome r.key then s.decideSpan r.key
      else match r.span with
        | some sp => if s.searchSpoiled sp && !sp.replaying then s.spoiledReplay r.key
          else if ((s.route? r.key).bind (fun r => r.span.map (fun sp => sp.acked))).getD false then s
          else s.sendBelay r sp r.key.home (s.ackKind r sp) s.pitch.number
        | none => s) s
    let s := s.holdEntries.holdPages
    { s with
      pitch := { s.pitch with decisionDone := true }
      depot := { s.depot with migrations := s.depot.migrations.map (fun (m : Migration) => { m with ended := m.copied }) } }

/-! ## Power (R484, R489) -/

/-- The highest junction temperature in hundredths. -/
def State.tjNow (s : State) : Int := s.power.tj.foldl max (s.power.tj.headD 0)

/-- The power step at a tick; `mw` is the package power averaged over the last pitch. -/
def State.powerStep (s : State) (mw : Nat) : State :=
  let tj := s.tjNow
  let throttle : Int := s.onum 0x7000 5
  let limit := s.onum 0x7000 1 * 1000
  let k := s.onum 0x7000 2
  let hot := decide (100 * throttle ≤ tj) || decide (limit < mw) || s.dram.temps.any (fun p => decide (8300 ≤ p.2))
  let cool := decide (tj ≤ 100 * (throttle - 5)) && decide (mw ≤ limit)
  let n := s.pitch.coolTicks + 1
  let (k', ticks) :=
    if hot then (max 1 (k - 1), 0)
    else if cool then (if n = 16 then (min 8 (k + 1), 0) else (k, n))
    else (k, 0)
  let s := (s.oset 0x7000 2 k').oset 0x7000 3 mw
  let s := { s with
    pitch := { s.pitch with coolTicks := ticks }
    power := { s.power with packageMw := mw } }
  if k' < 8 then s.oinc 0x7000 12 1 else s

/-! ## The belay -/

/-- The verdict of a span takes effect (R67 to R71). A participant without one keeps the span and starts no work. -/
def State.applyVerdict (s : State) (k : RouteKey) : State :=
  match s.route? k with
  | none => s
  | some r =>
    match r.span with
    | none => s
    | some sp =>
      if sp.replaying then s
      else
        match sp.verdict with
        | some 4 => s.commitSpan k
        | some 5 => s.mapSpan k (fun sp => { sp with verdict := none })
        | some 6 =>
          let s := (s.logRoute k 0x7).abandonSpan k
          let q := s.effQuota r
          s.mapSpan k (fun sp => { sp with q := q, ext := 0 })
        | _ => if s.isHome k then s else s.mapSpan k (fun sp => { sp with held := true })

/-- The switch of a migration at its tick (R234 step 6): the map names the new page, cached copies of the old one go, at
peers too, the old page is cleared. -/
def State.switchPage (s : State) (m : Migration) : State :=
  match s.depot.pages.find m.page with
  | none => s
  | some p =>
    let base := s.sys.deviceId * 2 ^ 44 + (if p.tier = 0 then 2 ^ 43 else 0) + p.addr
    let fresh := s.sys.deviceId * 2 ^ 44 + (if m.toTier = 0 then 2 ^ 43 else 0) + m.toAddr
    let old (l : Nat) : Bool := decide (base ≤ l) && decide (l < base + p.size)
    let cut (c : SMap (List Way)) : SMap (List Way) := c.map (fun (q : Nat × List Way) => (q.1, q.2.map (fun (w : Way) =>
      if old w.line then { w with state := .I, dirty := false } else w)))
    let poisoned := (s.lostWithin base p.size).foldl (fun (acc : SMap Unit) l => acc.put (l - base + fresh) ())
      (s.dram.poisoned.filter (fun q => !old q.1))
    let s := (s.coh.dir.filter (fun q => old (64 * q.1))).foldl (fun s q => s.replayInval (64 * q.1)) s
    let s := { s with
      depot := { s.depot with
        pages := s.depot.pages.put m.page { p with tier := m.toTier, addr := m.toAddr }
        zeroQueue := s.depot.zeroQueue ++ [({ tier := p.tier, addr := p.addr, size := p.size } : ZeroEnt)]
        migrations := s.depot.migrations.filter (fun x => x.page != m.page) }
      cache := { s.cache with l2 := cut s.cache.l2, l1d := cut s.cache.l1d, l1i := cut s.cache.l1i, slc := cut s.cache.slc }
      dram := { s.dram with poisoned := poisoned } }
    if m.toTier = 0 then s.oinc 0x4002 1 1 else s.oinc 0x4002 2 1

/-- Migrations at a tick: due ones switch, the others that are copied have been tried once more. -/
def State.switchMigrations (s : State) : State :=
  let due := s.depot.migrations.filter (fun m => m.due)
  let s := due.foldl State.switchPage s
  { s with depot := { s.depot with migrations := s.depot.migrations.map (fun (m : Migration) =>
      if m.ended then { m with tries := m.tries + 1 } else m) } }

/-- Weights, logs and refresh rates asked for come into force (R383, R428). -/
def State.applyAsked (s : State) : State :=
  let hot := ((s.dram.hot ++ s.dram.hotAsked).eraseDups).filter (fun c => decide (8300 < (s.dram.temps.find c).getD 0))
  { s with
    sched := { s.sched with
      weight := s.sched.weightAsked.foldl (fun (m : SMap Nat) p => m.put p.1 p.2) s.sched.weight
      weightAsked := [] }
    host := { s.host with
      logs := s.host.logAsked.foldl (fun (m : SMap LogSt) p => m.put p.1 p.2) s.host.logs
      logAsked := [] }
    dram := { s.dram with hot := hot, hotAsked := [] } }

/-- Whether this device is tick master. -/
def State.isMaster (s : State) : Bool := s.pitch.mode != .follower

/-- The tick marker of a master (R46, R356; log 41). -/
def State.sendMarker (s : State) : State :=
  if s.isMaster && decide (1 < s.sys.deviceCount) then
    s.broadcast (.tickMarker s.sys.deviceId s.sys.deviceId 0 s.pitch.number s.pitch.lastTick)
  else s

/-- TICK_OUT rises for 1 us at a tick (R45). -/
def State.driveTickOut (s : State) : State :=
  if s.oflag 0x2001 5 then ({ s with sys := { s.sys with tickOut := true } }).emit (.tickOut true) else s

/-- A dead master's place goes to the surviving device of the lowest ID at its next tick (R47). -/
def State.handMaster (s : State) : State :=
  if !s.coh.dead.contains s.pitch.master then s
  else
    let m := ((List.range s.sys.deviceCount).find? (fun x => !s.coh.dead.contains x)).getD s.sys.deviceId
    ({ s with pitch := { s.pitch with
      master := m, mode := if m = s.sys.deviceId then .internal else s.pitch.mode } } : State).oset 0x2001 2 m

/-- The pitch number moves on: tick n ends pitch n and starts pitch n+1 (R38). -/
def State.nextPitch (s : State) (instant : Nat) : State :=
  let s := s.handMaster.flushHeld.writeLogs
  let n := s.pitch.number + 1
  ({ s with
    pitch := { s.pitch with
      number := n, lastTick := instant, expected := instant + usClocks s.periodUs, cutoffDone := false
      decisionDone := false, correction := 0 }
    routes := s.routes.map (fun (r : Route) => { r with span := r.span.map (fun (sp : Span) => { sp with acks := [], acked := false }) })
    coh := { s.coh with readBuf := [] }
    summit := { s.summit with closes := s.summit.closes.filter (fun c =>
      s.routes.any (fun r => match r.span with
        | some sp => decide (sp.openPitch ≤ c.2)
        | none => false)) } }).oset 0x2001 3 n

/-- A tick at an instant (R38, R51 to R54, R57, R64, R69, R209, R230). -/
def State.tickCore (s : State) (instant mw : Nat) : State :=
  let s := s.decisionStep
  let d := s.decisionAt
  let n := s.pitch.number
  let s := ((s.advanceTo instant).powerStep mw).applyAsked.markDue
  let s := s.routes.foldl (fun s r => s.applyVerdict r.key) s
  let s := s.routes.foldl (fun s r => s.endAtTick n d r.key) s
  let s := (s.tenantResets n).retireAskedRidges.returnQuotas
  let s := s.switchMigrations.cacheBelay.chooseMigrations
  let done := (s.routes.filter (fun r => r.idle n && s.isHome r.key && s.routeDone r)).map (fun r => r.key)
  let s := done.foldl (fun s k => s.startPublication k (n + 1)) s
  let s := s.nextPitch instant
  let s := if s.sys.exiting then
      ({ s with sys := { s.sys with state := .operational, exiting := false } } : State).oset 0x7010 1 0
    else s
  let s := if s.sys.state = .operational then
      let s := s.resumeRoutes
      let fresh := (s.routes.filter (fun r => r.idle n)).map (fun r => r.key)
      fresh.foldl (fun s k => s.openSpan k s.pitch.number) s
    else s
  s.sendMarker.driveTickOut.pumpOutbound

/-- The instant of the tick that is expected, with the phase correction a follower owes (R46), to the half nanosecond. -/
def State.tickInstant (s : State) : Nat := ((s.pitch.expected : Int) + s.pitch.correction.tdiv 4).toNat

/-! ## The rows -/

/-- TICK: on the internal timer or as follower; a device paced by TICK_IN ticks by its edges (R44, R47). -/
def execTick (mw : Nat) (s : State) : Res :=
  if !s.pitch.running || (s.pitch.mode == .tickIn && !s.pitch.fallback) then .next s
  else .next (s.tickCore s.tickInstant mw)

def execCutoff (s : State) : Res := .next s.cutoffStep

def execDecision (s : State) : Res := .next s.decisionStep

/-- Half nanoseconds in a microsecond, the tolerance of R44. -/
def edgeSlack : Nat := usClocks 1

/-- TICK_IN_EDGE (R44): an edge within a microsecond of the period is the tick; an earlier one is ignored and counted.
On the internal timer after eight misses, eight good edges in a row bring the pacing back, and the eighth is the tick
when the timer has not ticked yet (log 42). -/
def State.tickInEdge (s : State) : State :=
  let p := usClocks s.periodUs
  let mw := s.power.packageMw
  let t := s.now
  if !s.pitch.running || s.pitch.mode != .tickIn then s
  else if !s.pitch.tickInStarted then
    ({ s with pitch := { s.pitch with tickInStarted := true, lastEdge := t } }).tickCore t mw
  else if s.pitch.fallback then
    let good := decide (s.pitch.lastTick + p ≤ t + edgeSlack) || decide (t ≤ s.pitch.lastTick + edgeSlack)
    let g := if good then s.pitch.goodEdges + 1 else 0
    let s := if good then s else s.oinc 0x2001 6 1
    if g = 8 then
      let s := { s with pitch := { s.pitch with fallback := false, goodEdges := 0, misses := 0, lastEdge := t } }
      if s.pitch.lastTick + p ≤ t + edgeSlack then s.tickCore t mw else s
    else { s with pitch := { s.pitch with goodEdges := g, lastEdge := t } }
  else if s.pitch.lastTick + p ≤ t + edgeSlack then
    ({ s with pitch := { s.pitch with misses := 0, lastEdge := t } }).tickCore t mw
  else s.oinc 0x2001 6 1

def execTickInEdge (s : State) : Res := .next s.tickInEdge

/-- TICK_IN_MISS (R44): the master ticks on its own timer at P + 1 us and counts the miss; after the eighth in a row it
runs on its internal timer and raises a RECOVERABLE record. -/
def State.tickInMiss (s : State) : State :=
  if !s.pitch.running || s.pitch.mode != .tickIn || !s.pitch.tickInStarted || s.pitch.fallback then s
  else
    let m := s.pitch.misses + 1
    let s := s.oinc 0x2001 6 1
    let s := { s with pitch := { s.pitch with misses := m } }
    let s := if m = 8 then
        ({ s with pitch := { s.pitch with fallback := true, goodEdges := 0 } }).raise
          { severity := 2, source := 0x000B, w4 := objW4 0x2001 6 }
      else s
    s.tickCore (s.pitch.lastTick + usClocks s.periodUs + edgeSlack) s.power.packageMw

def execTickInMiss (s : State) : Res := .next s.tickInMiss

/-- Whether a broadcast has been received before; otherwise it is noted (R355). -/
def State.noteBcast (s : State) (op origin count : Nat) : Option State :=
  if s.link.seen.contains (op, origin, count) then none
  else some { s with link := { s.link with seen := s.link.seen ++ [(op, origin, count)] } }

/-- A marker's check against the follower's timer (R46): differences in eighths of a nanosecond. -/
def State.checkMarker (s : State) (latency elapsed pitch : Nat) : State :=
  let own : Int := if pitch ≤ s.pitch.number then s.pitch.lastTick else s.pitch.expected
  let diff : Int := 4 * (s.now : Int) - elapsed - latency - 4 * own
  let ns := diff.tdiv 8
  if 160 < diff.natAbs then
    let s := { s with pitch := { s.pitch with correction := diff } }
    let s := s.oput 0x2001 4 (.num ns)
    if 320 < diff.natAbs then
      s.raise { severity := 0, source := 0x000B, address := ofSigned 64 ns, w4 := objW4 0x2001 4 }
    else s
  else s

/-- TICK_MARKER (R46, R355, R356). -/
def State.takeMarker (s : State) (port master source elapsed pitch : Nat) : State :=
  if s.sys.deviceCount ≤ master ∨ s.sys.deviceCount ≤ source ∨ 65535 < elapsed then
    s.violation port 0x04 0xA0 (s.lastSeq port) (s.port port).neighbour
  else
    match s.noteBcast 0xA0 master pitch with
    | none => s
    | some s =>
      let latency := (s.port port).latency
      let s := if s.pitch.running && s.pitch.mode == .follower && master == s.pitch.master then
          s.checkMarker latency elapsed pitch else s
      if 65535 < elapsed + latency then s
      else s.forwardBcast port (.tickMarker master s.sys.deviceId (elapsed + latency) pitch s.now)

def execTickMarker (port master source elapsed pitch : Nat) (s : State) : Res :=
  .next (s.takeMarker (port % 4) master source elapsed pitch)

/-! ### BELAY_ACK (R66 to R68, R74) -/

/-- The open span that a BELAY_ACK names. -/
def State.ackSpan (s : State) (a : BelayAck) : Option (Route × Span) :=
  (s.route? { tenant := a.tenant, id := a.routeId, home := a.home }).bind (fun r => r.span.bind (fun sp =>
    if sp.openPitch % 2 ^ 32 = a.spanPitch then some (r, sp) else none))

/-- An acknowledgement at the home: it counts for its tick, and a replay at a participant is a replay of the whole route
(R74). -/
def State.takeAck (s : State) (r : Route) (sp : Span) (a : BelayAck) : State :=
  let s := if a.tick = s.pitch.number % 2 ^ 32 then
      s.mapSpan r.key (fun sp => { sp with acks := sp.acks.filter (fun x => x.1 != a.source) ++ [(a.source, a.kind)] })
    else s
  if a.kind = 2 ∧ sp.faultReplays < a.faultReplays then s.faultReplay r.key else s

/-- A REPLAY verdict at a participant: one for the coming tick waits for it (R67, R71), one that a held span waits for acts at
once (R68), a fault replay acts at once (R74),
the home's echo of a replay begun here does nothing more, and any other is the suspension of the route (R229; log 38). -/
def State.takeReplay (s : State) (r : Route) (sp : Span) (a : BelayAck) : State :=
  let k := r.key
  if r.h < a.halvings ∨ (a.tick = s.pitch.number % 2 ^ 32 ∧ a.faultReplays ≤ sp.faultReplays ∧ sp.replaying = false)
      ∨ (sp.held = true ∧ a.tick = (s.pitch.number - 1) % 2 ^ 32 ∧ a.faultReplays ≤ sp.faultReplays) then
    let s := s.updRoute k (fun r => { r with h := a.halvings })
    let s := s.mapSpan k (fun sp => { sp with verdict := some 6 })
    if sp.held then s.applyVerdict k else s
  else if sp.echo ∧ a.faultReplays = sp.faultReplays then s.mapSpan k (fun sp => { sp with echo := false })
  else if sp.replaying ∧ sp.faultReplays < a.faultReplays then
    s.mapSpan k (fun sp => { sp with faultReplays := a.faultReplays, echo := false })
  else if sp.faultReplays < a.faultReplays then
    let s := (s.logRoute k 0x7).abandonSpan k
    (s.oinc 0x2003 2 1).updRoute k (fun r => { r with
      replays := r.replays + 1
      span := r.span.map (fun (sp : Span) => { sp with faultReplays := a.faultReplays, ext := 0 }) })
  else s.suspendHere k causeRegion (s.footprint k 7)

/-- A verdict at a participant: it takes effect at its tick, or at once where the tick has passed (R68). -/
def State.takeVerdict (s : State) (r : Route) (sp : Span) (a : BelayAck) : State :=
  let k := r.key
  if a.kind = 6 then s.takeReplay r sp a
  else
    let s := if a.kind = 5 then s.mapSpan k (fun sp => { sp with ext := sp.ext + 1 }) else s
    let s := s.mapSpan k (fun sp => { sp with verdict := some a.kind })
    if sp.held then (s.mapSpan k (fun sp => { sp with held := false })).applyVerdict k else s

/-- A BELAY_ACK arrives (R66 to R68, R357, Table 02.4): one for another device passes on; one that is malformed or names
no open span is a violation, reported by `bad` with its cause. -/
def State.takeBelay (s : State) (a : BelayAck) (bad : State → Nat → State) : State :=
  if a.slotSource ≠ a.source ∨ a.reserved ≠ 0 ∨ s.sys.deviceCount ≤ a.source ∨ s.sys.deviceCount ≤ a.dest
      ∨ s.sys.deviceCount ≤ a.home then bad s 0x04
  else if a.dest ≠ s.sys.deviceId then s.send (.belay a)
  else if s.coh.dead.contains a.source then s
  else if a.kind = 3 ∨ 7 ≤ a.kind then bad s 0x07
  else
    match s.ackSpan a with
    | none => bad s 0x07
    | some (r, sp) =>
      if a.kind ≤ 2 then (if s.isHome r.key then s.takeAck r sp a else bad s 0x07)
      else if s.isHome r.key then bad s 0x07
      else s.takeVerdict r sp a

def execBelayAck (a : BelayAck) (s : State) : Res :=
  .next (s.takeBelay a (fun s cause => s.violationFrom cause 0xA1 a.source))

/-! ### Replays and journal space -/

/-- RESOURCE_FAILURE (R19, R20, R73; R268, R308 and R447 by log 62). -/
def execResourceFailure (r : Resource) (s : State) : Res := .next ((s.resourceFails r).upset r)

/-- SPAN_RESTART: the span starts again; the handling of the fault's record closes when no replay is left (Table 15.6). -/
def execSpanRestart (k : RouteKey) (s : State) : Res :=
  let s := s.restartSpan k
  .next (if s.routes.any (fun r => match r.span with
      | some sp => sp.replaying
      | none => false) then s
    else s.closeHandling .atReplay)

/-- Strands whose retired stores wait in their queue try again. -/
def State.drainStrands (s : State) : State :=
  (List.finRange 16).foldl (fun s r => (List.finRange 8).foldl (fun s k =>
    let t := s.strand r.val k.val
    match t.task with
    | some task => if t.queue.isEmpty then s else s.drainStores { ridge := r, strand := k } task (t.queue.length + 1)
    | none => s) s) s

/-- JOURNAL_STALL_RELEASE (R62): requests and stores stalled on a full journal go on as far as there is space. -/
def execJournalStallRelease (s : State) : Res := .next s.releaseStalled.drainStrands

/-! ### Suspension, publication, merges, migrations -/

/-- SUSPEND_LIMIT_EXPIRY (R231, R232): a route suspended, or a publication paused, for O:0x4000.6 ticks ends with
DEPOT_FULL. -/
def State.suspendExpiry (s : State) (k : RouteKey) : State :=
  match s.route? k with
  | none => s
  | some r =>
    let since := match r.suspended with
      | some x => some x.tick
      | none => r.publish.bind (fun p => p.paused)
    match since with
    | none => s
    | some t =>
      if s.isHome k && decide (t + s.onum 0x4000 6 ≤ s.pitch.number) then
        s.endRoute k stDepotFull (s.pitch.number - 1) (s.writesFinal k)
      else s

def execSuspendLimitExpiry (k : RouteKey) (s : State) : Res := .next (s.suspendExpiry k)

/-- PUBLICATION_RESUME (R232): a publication that paused or waits for a page asks for it again. -/
def execPublicationResume (k : RouteKey) (s : State) : Res :=
  match (s.route? k).bind (fun r => r.publish) with
  | some p => .next (if p.paused.isSome || p.lacks then s.publishStep k p s.pitch.number else s)
  | none => .next s

/-- PUBLICATION_DONE (R209): the publication ends now. -/
def execPublicationDone (k : RouteKey) (s : State) : Res :=
  match (s.route? k).bind (fun r => r.publish) with
  | some p => .next (if p.paused.isNone && !p.lacks && p.doneAt.isNone then s.setPublish k (some { p with doneAt := some s.now }) else s)
  | none => .next s

/-- SUMMIT_MERGE (R206): the merge of a route for a pitch, in order, once every buffer it needs is closed. -/
def execSummitMerge (k : RouteKey) (n : Nat) (s : State) : Res :=
  match s.route? k with
  | none => .next s
  | some r =>
    match r.span with
    | none => .next s
    | some sp =>
      .next (if s.isHome k && !sp.replaying && decide (sp.openPitch ≤ n) && !sp.merged.contains n && sp.mergedBefore n
          && s.mergeReady r n then s.mergePitch k n else s)

/-- MIGRATION_COPY_DONE (R234 step 2). -/
def execMigrationCopyDone (page : Nat) (s : State) : Res := .next (s.migrationCopied page)

/-- MIGRATION_ABANDON (R234): after the fourth tick at which the switch was not due. -/
def execMigrationAbandon (page : Nat) (s : State) : Res :=
  .next (if s.depot.migrations.any (fun m => m.page == page && decide (4 ≤ m.tries)) then s.abandonMigration page else s)

end Sys2Proof.Machine
end

