-- ==== Sys2Proof/Machine/Death.lean ====
section
/-! DEFINITION. Heartbeats and dead agents (R333 to R335, R355, R356, R498). -/
namespace Sys2Proof.Machine

/-- Whether the device takes part in a system of several: formed, and not back in configuration or bivouac. -/
def State.member (s : State) : Bool :=
  decide (1 < s.sys.deviceCount) && (s.sys.state == .operational || s.sys.state == .retreat)

/-- HEARTBEAT_SEND: one beat on every active port, with STATE 1 in retreat (log 43). -/
def execHeartbeatSend (s : State) : Res :=
  if s.member then
    let n := s.coh.beats + 1
    let s := { s with coh := { s.coh with beats := n } }
    .next (s.broadcast (.heartbeat s.sys.deviceId s.sys.deviceId (if s.sys.state = .retreat then 1 else 0) n))
  else .next s

/-- A heartbeat of a living peer: it is noted, a first STATE 1 makes the peer a lost participant (R498), and it goes on
with this device as its sender. -/
def State.takeHeartbeat (s : State) (port origin source state beat : Nat) : State :=
  if s.sys.deviceCount ≤ origin ∨ s.sys.deviceCount ≤ source ∨ 1 < state then
    s.violation port 0x04 0xA2 (s.lastSeq port) (s.port port).neighbour
  else if s.coh.dead.contains origin || origin == s.sys.deviceId then s
  else
    match s.noteBcast 0xA2 origin beat with
    | none => s
    | some s =>
      let s := { s with coh := { s.coh with
        lastBeat := s.coh.lastBeat.put origin s.now, seenBeat := s.coh.seenBeat.put origin beat } }
      let s := if state = 1 ∧ s.coh.retreated.contains origin = false then
          ({ s with coh := { s.coh with retreated := s.coh.retreated ++ [origin] } }).losePeer origin
        else if state = 0 then { s with coh := { s.coh with retreated := s.coh.retreated.filter (fun d => d != origin) } }
        else s
      s.forwardBcast port (.heartbeat origin s.sys.deviceId state beat)

def execHeartbeat (port origin source state beat : Nat) (s : State) : Res :=
  .next (s.takeHeartbeat (port % 4) origin source state beat)

/-- The notice that names a dead device (Table 12.8). -/
def deathMsg (self d : Nat) : SvcMsg := { op := 0xCA, source := self, dest := 0, bcast := true, arg := d }

/-- From the tick that starts pitch BIVOUAC_AT, a device whose request was accepted declares no peer dead (R490). -/
def State.bivouacDue (s : State) : Bool :=
  match s.sys.bivouacArmed with
  | some n => decide (n ≤ s.pitch.number)
  | none => false

/-- This device declares a peer dead: it tells the survivors and walks its own homes. -/
def State.declareDead (s : State) (d : Nat) : State :=
  if d == s.sys.deviceId || s.coh.dead.contains d || decide (s.sys.deviceCount ≤ d)
      || !(s.member || s.sys.state == .forming && decide (1 < s.sys.deviceCount)) || s.bivouacDue then s
  else (s.broadcast (.svc (deathMsg s.sys.deviceId d))).applyDeath d

/-- HEARTBEAT_TIMEOUT: no heartbeat of a living peer for HEARTBEAT_TIMEOUT. -/
def execHeartbeatTimeout (d : Nat) (s : State) : Res := .next (s.declareDead d)

/-- SNOOP_TIMEOUT: a snoop or forward to an agent of a peer has waited that long for its answer. -/
def execSnoopTimeout (d : Nat) (s : State) : Res :=
  .next (if s.coh.open_.any (fun t => t.waiting.any (fun a => agentDev a == d)) then s.declareDead d else s)

/-- A notice that names this device (R335): it sends no coherence message any more, drops what it holds of other homes and enters retreat,
unless it is in configuration after R478. -/
def State.selfDeath (s : State) : State :=
  if s.sys.state = .configuration ∧ s.coh.silent = true then s
  else
    let s := { s with coh := { s.coh with silent := true } }
    (s.dropHomed (fun d => d != s.sys.deviceId)).enterRetreat causeDeath

/-- A death notice arrives: each survivor applies it once and passes it on (R333, R355). -/
def State.takeNotice (s : State) (port : Option Nat) (m : SvcMsg) (bad : State → Nat → State) : State :=
  if m.op ≠ 0xCA then bad s 0x02
  else if m.bcast = false ∨ m.dest ≠ 0 ∨ m.reserved ≠ 0 ∨ m.tenant ≠ 0 ∨ m.route ≠ 0 ∨ s.sys.deviceCount ≤ m.source
      ∨ s.sys.deviceCount ≤ m.arg then bad s 0x04
  else if s.coh.dead.contains m.source then s
  else
    match s.noteBcast 0xCA m.source m.arg with
    | none => s
    | some s =>
      let s := match port with
        | some p => s.forwardBcast p (.svc m)
        | none => s
      if m.arg = s.sys.deviceId then s.selfDeath else s.applyDeath m.arg

def execDeathNotice (m : SvcMsg) (s : State) : Res :=
  .next (s.takeNotice (s.arrivalPort m.source) m (fun s cause => s.violationFrom cause m.op m.source))

end Sys2Proof.Machine
end

