-- ==== Sys2Proof/Machine/Services.lean ====
section
/-! DEFINITION. The service messages of the Omuth Link: routes, pages, quota, ropes and Summit entries (R205, R223, R358,
R359, Tables 12.7 and 12.8). -/
namespace Sys2Proof.Machine

/-! ## Layout -/

/-- Whether the fields that a service message leaves unused are zero (Tables 12.7, 12.8, 06.6 and 07.2). -/
def svcUnused (m : SvcMsg) : Bool :=
  let s1 := m.slot1 == 0
  let s2 := m.slot2 == 0
  if m.op = svRouteOpen then m.slot1 % 2 ^ 96 == 0 && s2
  else if m.op = svRouteEnd then decide (m.arg < 65536) && s1 && s2
  else if m.op = svPageAlloc then m.arg % 2 ^ 61 == 0 && decide (m.arg / 2 ^ 61 ≠ 7) && s1 && s2
  else if m.op = svPageGrant then decide (m.slot1 < 2 ^ 48) && s2
  else if m.op = svRopeNotice then fld m.slot1 67 64 == 0 && s2
  else if m.op = svSummitEntry then m.slot1 % 2 ^ 17 == 0 && fld m.slot2 95 64 == 0
  else s1 && s2

/-- Whether a service message is well formed (R358, R360 cause 0x04). -/
def State.svcOk (s : State) (m : SvcMsg) : Bool :=
  !m.bcast && m.reserved == 0 && decide (m.tenant < 32) && decide (m.source < s.sys.deviceCount)
    && decide (m.dest < s.sys.deviceCount) && svcUnused m

/-- The route a message from a device names: homed here, or homed there, or else elsewhere (log 43). -/
def State.svcRoute (s : State) (m : SvcMsg) : Option Route :=
  match s.route? { tenant := m.tenant, id := m.route, home := s.sys.deviceId } with
  | some r => some r
  | none =>
    match s.route? { tenant := m.tenant, id := m.route, home := m.source } with
    | some r => some r
    | none => s.routes.find? (fun r => r.key.tenant == m.tenant && r.key.id == m.route)

/-! ## Routes (R86, R358) -/

/-- ROUTE_OPEN: the participant reads the home's admitted copy; one for a suspended route says that its next span opens
(log 38). -/
def State.svcRouteOpen (s : State) (m : SvcMsg) : State :=
  let k : RouteKey := { tenant := m.tenant, id := m.route, home := m.source }
  if ((s.route? k).map (fun r => r.suspended.isSome)).getD false then
    (s.updRoute k (fun r => { r with suspended := none })).openSpan k s.pitch.number
  else if (s.route? k).isSome || s.link.copies.any (fun c => c.key == k) then s
  else
    let n := m.slot1 / 2 ^ 96
    let c : RouteCopy := { key := k, line := m.arg, bytes := n, got := [] }
    let s := { s with link := { s.link with copies := s.link.copies ++ [c] } }
    let s := (List.range (ceilDiv n 64)).foldl (fun s i =>
      (s.request { op := opRdNc, src := 0, dst := 0, txn := 0, line := m.arg / 64 * 64 + 64 * i } locProxy
        (.routeCopy k (64 * i))).2) s
    s.finishCopies

/-- ROUTE_END: the home's frees the route here; a participant's reports an end to the home (log 39), or with DEPOT_FULL
that a page could not be had there, which suspends the route with a cause and a footprint that no message brings (log 38). -/
def State.svcRouteEnd (s : State) (m : SvcMsg) : State :=
  let far : RouteKey := { tenant := m.tenant, id := m.route, home := m.source }
  let near : RouteKey := { tenant := m.tenant, id := m.route, home := s.sys.deviceId }
  let s := { s with link := { s.link with copies := s.link.copies.filter (fun c => c.key != far) } }
  match s.route? far with
  | some _ => (s.discardSpan far).closeOut far m.arg s.pitch.number 0 false
  | none =>
    match s.route? near with
    | some r =>
      if r.finalDue || r.conditions.contains m.arg || r.suspended.isSome then s
      else if m.arg = stDepotFull then
        (let (v, s) := s.free 2
         s.suspendRoute near (v.toNat % 3) 7)
      else s.endAt near m.arg
    | none => s

/-! ## Pages (R218, R359) -/

/-- The object that gathers the pages of a peer for one route and class. -/
def State.inboundObj (s : State) (dev : Nat) (k : RouteKey) (cls : Nat) : Option (Nat × State) :=
  match s.link.inbound.find? (fun x => x.device == dev && x.key == k && x.cls == cls) with
  | some x => some (x.obj, s)
  | none =>
    (s.newObj k.tenant cls 0 (some k) (.bytes []) []).map (fun p =>
      (p.1, { p.2 with link := { p.2.link with
        inbound := p.2.link.inbound ++ [{ device := dev, key := k, cls := cls, obj := p.1 }] } }))

def State.answerGrant (s : State) (m : SvcMsg) (handle line : Nat) : State :=
  s.sendSvc svPageGrant m.source m.tenant m.route handle line 0

/-- A cleared page of the Depot region goes to a peer, gathered with what the peer has for the route and class. -/
def State.grantTo (s : State) (m : SvcMsg) (k : RouteKey) (cls a : Nat) : State :=
  if 8388608 ≤ s.depot.pages.length then s.answerGrant m 0 0
  else
    match s.inboundObj m.source k cls with
    | none => s.answerGrant m 0 0
    | some (o, s) =>
      match s.dobj? o with
      | none => s.answerGrant m 0 0
      | some d =>
        let i := d.pages.foldl (fun n id => max n (((s.depot.pages.find id).map (fun p => p.index + 1)).getD 0)) 0
        (s.addPage o i d 1 a).answerGrant m (mkHandle (o / 65536) cls (o % 65536) (i * clsPage cls)) (s.lineAt false a)

/-- What a page for a peer is gathered under: the route it is for, or no route of this device where a host table's shadow asks
for it, which names none (R172, R218; log 39). -/
def State.askKey (s : State) (m : SvcMsg) : Option RouteKey :=
  match s.svcRoute m with
  | some r => some r.key
  | none =>
    if m.arg / 2 ^ 61 = clsShadow ∧ m.route = 0 then some { tenant := m.tenant, id := 0, home := m.source } else none

/-- A peer's request for a page waits for the zeroing engine while only pages that are not cleared are free (R219). -/
def State.mustClear (s : State) (m : SvcMsg) : Bool :=
  let size := clsPage (m.arg / 2 ^ 61)
  m.op == svPageAlloc && (s.askKey m).isSome && (s.fitPage 1 size true).isNone && (s.fitPage 1 size false).isSome

/-- A peer's request for a page is answered: with a cleared page, or with 0. -/
def State.answerAlloc (s : State) (m : SvcMsg) : State :=
  let cls := m.arg / 2 ^ 61
  match s.askKey m, s.fitPage 1 (clsPage cls) true with
  | some k, some a => s.grantTo m k cls a
  | _, _ => s.answerGrant m 0 0

/-- QUOTA_DRAW at the home: blocks are lent when the tenant's quota covers them (R223). -/
def State.answerDraw (s : State) (m : SvcMsg) : State :=
  let ok := m.arg * quotaBlock ≤ s.depotQuota m.tenant - s.depotUsed m.tenant
  let lent := (s.depot.lent.find m.tenant).getD 0
  let s := if ok ∧ m.arg ≠ 0 then { s with depot := { s.depot with lent := s.depot.lent.put m.tenant (lent + m.arg) } } else s
  s.sendSvc svQuotaGrant m.source m.tenant m.route (if ok then m.arg else 0) 0 0

/-- Whether an earlier request of the same source waits: answers come back in the order of the requests (R358). -/
def State.behindAsk (s : State) (m : SvcMsg) : Bool := s.depot.pageAsks.any (fun a => a.source == m.source)

/-- A request of a peer that answers follow in order: it waits behind its source's earlier ones, and for the zeroing engine
(R219, R358). -/
def State.serveAsk (s : State) (m : SvcMsg) : State :=
  if s.behindAsk m || s.mustClear m then { s with depot := { s.depot with pageAsks := s.depot.pageAsks ++ [m] } }
  else if m.op = svPageAlloc then s.answerAlloc m
  else s.answerDraw m

/-- PAGE_ALLOC: a page of the Depot region for a peer, or 0; a wait for the zeroing engine is counted (R219). -/
def State.svcPageAlloc (s : State) (m : SvcMsg) : State :=
  (if s.mustClear m then s.oinc 0x4002 6 1 else s).serveAsk m

/-- Peers' requests that waited for the zeroing engine are answered in order, as far as pages are clear. -/
def State.serveAsks (s : State) : State :=
  s.depot.pageAsks.foldl State.serveAsk { s with depot := { s.depot with pageAsks := [] } }

/-- ZERO_PAGE_CLEARED (R219): the page is back in its pool, and requests of peers that waited go on. -/
def execZeroPageCleared (s : State) : Res := .next s.zeroDone.serveAsks

/-- Takes the oldest request of an opcode open at a device off the list. -/
def State.takeAsked (s : State) (dev op : Nat) : Option (Asked × State) :=
  (s.link.asked.find? (fun a => a.device == dev && a.op == op)).map (fun a =>
    (a, { s with link := { s.link with asked := s.link.asked.erase a } }))

/-- PAGE_GRANT: a page of a peer, for a rope on its way there or as tier 2; a grant of 0 fails the allocation with
cause REGION. -/
def State.svcPageGrant (s : State) (m : SvcMsg) (bad : State → Nat → State) : State :=
  match s.takeAsked m.source svPageAlloc with
  | none => bad s 0x05
  | some (a, s) =>
    match a.outId with
    | none =>
      { s with depot := { s.depot with granted := s.depot.granted ++
        [{ device := m.source, tenant := a.tenant, route := a.route, cls := a.cls
           line := if m.arg = 0 then 0 else m.slot1 }] } }
    | some id =>
      match s.outbound? id with
      | none => s
      | some o =>
        if m.arg = 0 then s.suspendRoute o.key causeRegion o.cls
        else
          (s.mapOutbound id (fun o => { o with
            pages := o.pages ++ [m.slot1], handle := if o.pages.isEmpty then m.arg else o.handle })).pumpOutbound

/-! ## Quota (R223) -/

/-- QUOTA_GRANT at the participant; 0 refuses the draw. -/
def State.svcQuotaGrant (s : State) (m : SvcMsg) (bad : State → Nat → State) : State :=
  match s.takeAsked m.source svQuotaDraw with
  | none => bad s 0x05
  | some (a, s) =>
    if m.arg = 0 then
      { s with depot := { s.depot with granted := s.depot.granted ++
        [{ device := m.source, tenant := a.tenant, route := a.route, cls := 8, line := 0 }] } }
    else
      let k := drawKey a.tenant m.source
      { s with depot := { s.depot with drawn := s.depot.drawn.put k ((s.depot.drawn.find k).getD 0 + m.arg) } }

/-- QUOTA_RETURN at the home. -/
def State.svcQuotaReturn (s : State) (m : SvcMsg) : State :=
  let n := (s.depot.lent.find m.tenant).getD 0 - m.arg
  { s with depot := { s.depot with lent := if n = 0 then s.depot.lent.del m.tenant else s.depot.lent.put m.tenant n } }

/-! ## Ropes and Summit entries (R157, R205, R359) -/

/-- A rope that a peer has written at an offset of an object becomes an object of its own with its pages; the next
rope of a chain begins at the page after them. -/
def State.splitRope (s : State) (k : RouteKey) (o off ridge : Nat) (forms : List ColForm) :
    Option ((Nat × Rope) × Nat × State) :=
  match s.dobj? o with
  | none => none
  | some d =>
    let size := clsPage d.cls
    let rope := parseRope (cellsOf 0 (d.readN o off (s.objSpan d - off))) forms
    let first := off / size
    let n := max 1 (ceilDiv (rope.size forms) size)
    let mine (id : Nat) : Bool := match s.depot.pages.find id with
      | some p => decide (first ≤ p.index) && decide (p.index < first + n)
      | none => false
    (s.newObj k.tenant d.cls ridge (some k) (.rope rope) forms).map (fun q =>
      let ids := d.pages.filter mine
      let pages := ids.foldl (fun (ps : SMap Page) id => match ps.find id with
        | some p => ps.put id { p with obj := q.1, index := p.index - first }
        | none => ps) q.2.depot.pages
      let objs := (q.2.depot.objects.put o { d with pages := d.pages.filter (fun id => !mine id) }).put q.1
        { cls := d.cls, key := some k, ridge := ridge, pages := ids, content := .rope rope, forms := forms, dying := false }
      ((q.1, rope), (first + n) * size, { q.2 with depot := { q.2.depot with pages := pages, objects := objs } }))

/-- A chain of ropes, one after another (R205). -/
def State.splitChain (s : State) (k : RouteKey) (o off ridge : Nat) (forms : List ColForm) :
    Nat → List (Nat × Nat) × State
  | 0 => ([], s)
  | n + 1 =>
    match s.splitRope k o off ridge forms with
    | none => ([], s)
    | some (r, next, s) =>
      let rest := s.splitChain k o next ridge forms n
      ((r.2.seq, r.1) :: rest.1, rest.2)

/-- The object of a delivered handle when it is one that the sender's pages make up. -/
def State.delivered (s : State) (m : SvcMsg) (k : RouteKey) (handle : Nat) : Option Nat :=
  match s.handleObj handle k.tenant with
  | some (o, _) => if s.link.inbound.any (fun x => x.device == m.source && x.key == k && x.obj == o) then some o else none
  | none => none

/-- ROPE_NOTICE: the rope's consumers on the destination ridge learn of it; a rope of a span that is no longer open is
none of theirs. -/
def State.svcRopeNotice (s : State) (m : SvcMsg) : State :=
  match s.svcRoute m with
  | none => s
  | some r =>
    let k := r.key
    let ridge := fld m.slot1 127 124
    let stage := fld m.slot1 71 68
    if (r.span.map (fun sp => sp.openPitch)) ≠ some (m.slot1 % 2 ^ 64) then s
    else
      match s.delivered m k m.arg with
      | none => s
      | some o =>
        match s.splitRope k o (hOff m.arg) ridge (r.desc.ropeForms stage) with
        | none => s.suspendRoute k causeMap clsRope
        | some (q, _, s) =>
          let seq := fld m.slot1 123 76
          let cons := r.desc.consumers stage
          let s := if cons.any (fun c => (r.desc.stage c).kind == kEmit) then
              let kind := summitKind (r.desc.stage stage).kind
              s.deposit (slotKey ridge kind)
                { key := k, kind := kind, ridge := ridge, device := s.sys.deviceId, spanPitch := s.spanPitch k, chain := [] }
                seq q.1
            else s
          (cons.filter (fun c => (r.desc.stage c).kind != kEmit)).foldl (fun s c =>
            s.pushTask { key := k, stage := c, ridge := ridge, input := .rope q.1, seq := seq }) s

/-- SUMMIT_ENTRY: an entry of the remote slot of its sender (Table 06.6). -/
def State.svcSummitEntry (s : State) (m : SvcMsg) : State :=
  let k : RouteKey := { tenant := fld m.slot1 31 27, id := fld m.slot1 63 32, home := s.sys.deviceId }
  match s.route? k with
  | none => s
  | some r =>
    let head := m.slot2 % 2 ^ 64
    match s.delivered m k head with
    | none => s
    | some o =>
      let src := (r.desc.stage r.desc.emit).inputA
      let ridge := fld m.slot1 24 21
      let c := s.splitChain k o (hOff head) ridge (r.desc.ropeForms src) (fld m.slot2 127 96)
      let e : SlotEntry := { key := k, kind := fld m.slot1 26 25, ridge := ridge, device := fld m.slot1 20 17
                             spanPitch := m.slot1 / 2 ^ 64, chain := [] }
      c.1.foldl (fun s x => s.deposit (64 + m.source) e x.1 x.2) c.2

/-- SUMMIT_CLOSE: the sender's remote slot closes its filling buffer with the tag. -/
def State.svcSummitClose (s : State) (m : SvcMsg) : State :=
  let b := s.slot (64 + m.source)
  let s := s.setSlot (64 + m.source) (b.1.swap m.arg, b.2.swap m.arg)
  { s with summit := { s.summit with closes := s.summit.closes ++ [(m.source, m.arg)] } }

/-! ## Every service message by its opcode -/

/-- A service message arrives: malformed ones are violations, one for another device passes on unchanged, and one of a
dead device has no effect. -/
def State.takeSvc (s : State) (m : SvcMsg) (port : Option Nat) (bad : State → Nat → State) : State :=
  if m.op = svDeathNotice then s.takeNotice port m bad
  else if m.op < 0xC0 ∨ 0xCA < m.op then bad s 0x02
  else if !s.svcOk m then bad s 0x04
  else if m.dest ≠ s.sys.deviceId then s.send (.svc m)
  else if s.coh.dead.contains m.source then s
  else if m.op = svRouteOpen then s.svcRouteOpen m
  else if m.op = svRouteEnd then s.svcRouteEnd m
  else if m.op = svPageAlloc then s.svcPageAlloc m
  else if m.op = svPageGrant then s.svcPageGrant m bad
  else if m.op = svQuotaDraw then s.serveAsk m
  else if m.op = svQuotaGrant then s.svcQuotaGrant m bad
  else if m.op = svQuotaReturn then s.svcQuotaReturn m
  else if m.op = svRopeNotice then s.svcRopeNotice m
  else if m.op = svSummitEntry then s.svcSummitEntry m
  else s.svcSummitClose m

/-- The message of a row: another opcode than the row's is none that the row's port could deliver. -/
def State.svcRow (s : State) (m : SvcMsg) (op : Nat) : Res :=
  let bad (s : State) (cause : Nat) : State := s.violationFrom cause m.op m.source
  .next (if m.op = op then s.takeSvc m (s.arrivalPort m.source) bad else bad s 0x02)

def execRouteOpen (m : SvcMsg) (s : State) : Res := s.svcRow m svRouteOpen
def execRouteEnd (m : SvcMsg) (s : State) : Res := s.svcRow m svRouteEnd
def execPageAlloc (m : SvcMsg) (s : State) : Res := s.svcRow m svPageAlloc
def execPageGrant (m : SvcMsg) (s : State) : Res := s.svcRow m svPageGrant
def execQuotaDraw (m : SvcMsg) (s : State) : Res := s.svcRow m svQuotaDraw
def execQuotaGrant (m : SvcMsg) (s : State) : Res := s.svcRow m svQuotaGrant
def execQuotaReturn (m : SvcMsg) (s : State) : Res := s.svcRow m svQuotaReturn
def execRopeNotice (m : SvcMsg) (s : State) : Res := s.svcRow m svRopeNotice
def execSummitEntry (m : SvcMsg) (s : State) : Res := s.svcRow m svSummitEntry
def execSummitClose (m : SvcMsg) (s : State) : Res := s.svcRow m svSummitClose

end Sys2Proof.Machine
end

