-- ==== Sys2Proof/Machine/Link.lean ====
section
/-! DEFINITION. The Omuth ports: training, flits, replay, credits, failover, retrains and violations (R340 to R364). -/
namespace Sys2Proof.Machine

/-! ## Widths (R341, R344) -/

/-- Aligned lane groups, widest first. -/
def laneGroups : List Nat := [0xFFFF, 0x00FF, 0xFF00, 0x000F, 0x00F0, 0x0F00, 0xF000]

def laneWidth (mask : Nat) : Nat := popCount 16 mask

/-- The group that R344 picks among good lanes at a width of at most `w`. -/
def chooseLanes (w good : Nat) : Option Nat :=
  laneGroups.find? (fun g => decide (laneWidth g ≤ w) && g &&& good == g)

/-- The lanes a running port narrows to (R344): a half of sixteen lanes, or the lowest aligned group of four of eight lanes,
that holds no failed lane. -/
def narrowTo (w good : Nat) : Option Nat :=
  if w = 16 then [0x00FF, 0xFF00].find? (fun g => g &&& good == g)
  else if w = 8 then [0x000F, 0x00F0, 0x0F00, 0xF000].find? (fun g => g &&& good == g)
  else none

/-- The lane that byte `i` of a coded flit travels on: the active lanes in ascending order (R341). -/
def PortSt.laneOf (x : PortSt) (i : Nat) : Nat :=
  let ls := lanesOf x.lanes
  ls.getD (if x.width = 0 then 0 else i % x.width) 0

/-! ## Resending (R349) -/

/-- Every unacknowledged flit goes again, oldest first; each resend is counted. -/
def State.resendAll (s : State) (p : Nat) : State :=
  if (s.port p).unacked.isEmpty then s
  else (s.port p).unacked.foldl (fun s f => s.sendPayload p f) (s.oinc (portObj p) 8 1)

/-- Sends what waits at a port. -/
def State.pumpAll (s : State) (p : Nat) : State := s.pumpPort p ((s.port p).waiting.length + 1)

/-- A flit that was accepted or discarded is answered by the next flit; where nothing else is to be sent that is an IDLE
(R346, R349). IDLE flits that would say nothing new are left out (log 43). -/
def State.answerFlit (s : State) (p : Nat) : State :=
  let x := s.port p
  if x.mode = .active ∧ (x.owes = true ∨ x.nakDue = true) then s.sendControl p 0 0 else s

/-! ## Ports going down (R345) -/

/-- Ports of the same dimension that are still ACTIVE, in a system where one takes over for another. -/
def State.otherPorts (s : State) (p : Nat) : List Nat :=
  if s.sys.deviceCount = 2 ∨ s.sys.deviceCount = 4 then
    (List.range 4).filter (fun q => q != p && portDim s.sys.deviceCount q == portDim s.sys.deviceCount p
      && (s.port q).mode == .active)
  else []

/-- Messages of a port that is DOWN which the other end has not accepted, where it accepted the flits up to a SEQ: those that
end in later flits, the one that has begun, and those that wait. -/
def PortSt.unsent (x : PortSt) (seq : Nat) : List Msg :=
  (x.unacked.drop (min x.unacked.length ((seq + 1 + 1024 - x.ackedTo) % 1024))).flatMap (fun f => f.ends)
    ++ x.txMsg.toList ++ x.waiting

/-- The messages of a DOWN port from a SEQ on go first on a remaining port (R345 step 2). -/
def State.moveTraffic (s : State) (q p seq : Nat) : State :=
  let again := (s.port q).unsent seq
  let s := s.mapPort q (fun x => { x with unacked := [], waiting := [], txMsg := none, txRest := [] })
  (s.mapPort p (fun y => { y with waiting := again ++ y.waiting, lostSeq := none })).pumpAll p

/-- A port goes DOWN: in a system of two or four devices the lowest other port of its dimension that is ACTIVE takes its
traffic over (log 43), at once where the other end has reported already; otherwise the device with the lower ID declares
its neighbour dead. -/
def State.portDown (s : State) (p : Nat) : State :=
  let x := s.port p
  let last := s.lastSeq p
  let s := s.setPort p { x with mode := .down, width := 0, lanes := 0, partialSlots := [], locked := false }
  match s.otherPorts p with
  | q :: qs =>
    let s := s.sendControl q 5 last
    match (q :: qs).find? (fun i => (s.port i).lostSeq.isSome) with
    | some i => s.moveTraffic p i ((s.port i).lostSeq.getD 0)
    | none => s
  | [] => if s.sys.deviceId < x.neighbour then s.declareDead x.neighbour else s

/-! ## Retrains (R362, R363) -/

/-- Clocks within which five retrains take a port down. -/
def retrainWindow : Nat := usClocks 100000

/-- A retrain of a port that carries traffic starts; the fifth within 100 ms takes the port DOWN. -/
def State.startRetrain (s : State) (p : Nat) : State :=
  let x := s.port p
  if x.mode != .active && x.mode != .failover then s
  else
    let recent := x.retrainTimes.filter (fun t => decide (s.now < t + retrainWindow)) ++ [s.now]
    let s := s.oinc (portObj p) 10 1
    if 5 ≤ recent.length then (s.mapPort p (fun x => { x with retrainTimes := [] })).portDown p
    else
      let s := s.setPort p { x with
        mode := .retraining, retrainTimes := recent, linkViolations := [], laneErrors := [], resends := 0, probes := 0
        probeBest := none, probeOut := 0, locked := false, fecRun := 0 }
      (s.sendControl p 2 0).emit (.linkTrain p)

/-- Credits as both ends advertise them (R350, Table 12.5). -/
def fullCredits : Vector Nat 9 := (Vector.range 9).map classCredits

/-- The class code of an opcode (Tables 12.4 and 12.5). -/
def opClass (op : Nat) : Option Nat :=
  if op = 0xA0 then some 5 else if op = 0xA1 then some 6 else if op = 0xA2 then some 7
  else if 0xC0 ≤ op ∧ op ≤ 0xCA then some 8 else cohClass op

/-- Credits start again from the advertisement; the one of a message in progress stays taken. -/
def PortSt.advertise (x : PortSt) : PortSt :=
  let taken : Vector Nat 9 := Vector.replicate 9 0
  { x with
    credits := fullCredits, credSeen := Vector.replicate 9 0, credFreed := Vector.replicate 9 0
    credUsed := match x.partialSlots.head?.bind (fun h => opClass (h / 2 ^ 120)) with
      | some c => taken.setIfInBounds c 1
      | none => taken }

/-- RETRAIN_DONE: once the lanes have locked, FEC has locked and the path latency has been measured, credits are advertised
again and replay resumes from the last ACK_SEQ. -/
def State.retrainDone (s : State) (p : Nat) : State :=
  let x := s.port p
  if x.mode != .retraining || !x.locked || decide (x.probes < 64) then s
  else
    let s := s.setPort p { x.advertise with mode := .active }
    (((s.closeHandling (.atRetrain p)).resendAll p).pumpAll p).answerFlit p

/-! ## Violations (R360 to R362) -/

/-- Causes 0x01 to 0x03 and 0x08 are link violations (Table 12.9). -/
def linkCause (c : Nat) : Bool := c == 1 || c == 2 || c == 3 || c == 8

/-- A link violation is remembered; the third within VIOLATION_WINDOW forces a retrain. -/
def State.noteLinkViolation (s : State) (p cause : Nat) : State :=
  if !linkCause cause then s
  else
    let recent := (s.port p).linkViolations.filter (fun t => decide (s.now < t + usClocks (s.onum 0x6000 2))) ++ [s.now]
    let s := s.mapPort p (fun x => { x with linkViolations := recent })
    if 3 ≤ recent.length then s.startRetrain p else s

/-- A violation of a flit or message on a port. -/
def State.violationAt (s : State) (p cause opcode seq src : Nat) : State :=
  (s.violation p cause opcode seq src).noteLinkViolation p cause

/-! ## Training (Table 12.2, R342, R343) -/

/-- The device at the other end of a port (Table 01.6, R354). -/
def State.neighbourOf (s : State) (p : Nat) : Nat :=
  match portDim s.sys.deviceCount p with
  | some k => s.sys.deviceId ^^^ 2 ^ k
  | none => s.sys.deviceId

/-- A port starts to train (Table 12.2); one that the configuration powers down reads DISABLED. -/
def State.trainPort (s : State) (p : Nat) : State :=
  if (portDim s.sys.deviceCount p).isNone then s.setPort p { PortSt.reset with mode := .disabled }
  else
    (s.setPort p { PortSt.reset with
      mode := .training, rate := if s.onum 0x6000 1 = 0 then 1 else 2, neighbour := s.neighbourOf p
      triedOl1 := s.onum 0x6000 1 == 0 }).emit (.linkTrain p)

/-- PORT_ENABLE: a port that is down starts to train. -/
def State.portEnable (s : State) (p : Nat) : State :=
  if (s.port p).mode = .down ∨ (s.port p).mode = .disabled then s.trainPort p else s

/-- The time a probe carries, in eighths of a nanosecond (R343). -/
def State.probeTime (s : State) : Nat := 4 * s.now % 2 ^ 33

def State.sendProbe (s : State) (p : Nat) : State :=
  (s.mapPort p (fun x => { x with probeOut := x.probeOut + 1 })).sendControl p 3 s.probeTime

/-- LOCK_AND_EQUALISE (steps 2 and 3): the width comes from the lanes that locked. In a training that finds none, training
repeats at OL1; in a retrain, whose width grows only where all lanes are good, that is a failed training (R344, R362). -/
def State.lockDone (s : State) (p lanes : Nat) : State :=
  let x := s.port p
  let good := lanes % 65536
  if x.locked then s
  else if x.mode = .training then
    match chooseLanes 16 good with
    | some g => s.setPort p { x with lanes := g, width := laneWidth g, locked := true, fecRun := 0 }
    | none => if x.triedOl1 then s else (s.setPort p { x with rate := 1, triedOl1 := true }).emit (.linkTrain p)
  else if x.mode = .retraining then
    match chooseLanes (if good = 0xFFFF then 16 else x.width) good with
    | some g => s.setPort p { x with lanes := g, width := laneWidth g, locked := true, fecRun := 0 }
    | none => s.portDown p
  else s

/-- FEC lock (step 4): CONTROL flits in a row that decoded; after 1,024 the latency exchanges begin. -/
def State.fecGood (s : State) (p : Nat) : State :=
  let x := s.port p
  if (x.mode = .training ∨ x.mode = .retraining) ∧ x.locked = true ∧ x.fecRun < 1024 then
    let s := s.setPort p { x with fecRun := x.fecRun + 1 }
    if x.fecRun + 1 = 1024 then s.sendProbe p else s
  else s

/-- A flit that does not decode ends the row of good ones. -/
def PortSt.fecBad (x : PortSt) : PortSt := if x.fecRun < 1024 then { x with fecRun := 0 } else x

/-- TRAINING_TIMEOUT: the port stays DOWN and a RECOVERABLE record is raised. -/
def State.trainingTimeout (s : State) (p : Nat) : State :=
  if (s.port p).mode != .training then s
  else (s.raise { severity := 2, source := 0x0006, w4 := objW4 (portObj p) 1, address := (s.port p).neighbour }).portDown p

/-- LATENCY_ECHO: half of the smallest round trip less turnaround; after 64 exchanges a training port is ACTIVE. -/
def State.takeEcho (s : State) (p arg seq : Nat) : State :=
  let x := s.port p
  if x.probeOut = 0 then s.violationAt p 0x05 0 seq x.neighbour
  else
    let trip := (s.probeTime + 2 ^ 33 - arg % 2 ^ 33) % 2 ^ 33
    let best := min trip (x.probeBest.getD trip)
    let x := { x with probeOut := x.probeOut - 1, probes := x.probes + 1, probeBest := some best }
    if x.probes < 64 then (s.setPort p x).sendProbe p
    else
      let x := { x with latency := best / 2, probeOut := 0 }
      if x.mode = .training then
        ((s.setPort p { x.advertise with mode := .active }).pumpAll p).answerFlit p
      else s.setPort p x

/-! ## Failover (R344) -/

/-- The port goes on at the lanes of a mask: both ends pause and switch. -/
def State.narrow (s : State) (p mask : Nat) : State :=
  let s := s.mapPort p (fun x => { x with mode := .failover, lanes := mask, width := laneWidth mask, laneErrors := [] })
  (s.oinc (portObj p) 11 1).corrected 0x0006 (portObj p) 11

/-- Lanes of a mask fail: the port narrows and says so, or retrains. -/
def State.failLanes (s : State) (p bad : Nat) : State :=
  let x := s.port p
  if !x.up || x.mode == .retraining || x.lanes &&& bad == 0 then s
  else
    let good := ((List.range 16).filter (fun l => bitAt x.lanes l && !bitAt bad l)).foldl (fun a l => a + 2 ^ l) 0
    match narrowTo x.width good with
    | none => s.startRetrain p
    | some g => (s.narrow p g).sendControl p 1 g

/-- The end of a retrain: a lane that has lost its lock since the width was chosen fails as at any other time (R344, log 43). -/
def State.endRetrain (s : State) (p lanes : Nat) : State :=
  if (s.port p).mode = .retraining then (s.retrainDone p).failLanes p (65535 - lanes % 65536) else s

/-- LANE_ERROR_INTERVAL: lanes over the limit fail, and a new interval starts. -/
def State.laneInterval (s : State) (p : Nat) : State :=
  let over_ := ((s.port p).laneErrors.filter (fun e => decide (s.onum 0x6000 3 < e.2))).foldl (fun a e => a + 2 ^ e.1) 0
  (s.mapPort p (fun x => { x with laneErrors := [] })).failLanes p over_

/-- WIDTH_CHANGE from the other end: a mask that is a group of the port's lanes takes effect. -/
def State.takeWidth (s : State) (p arg : Nat) : State :=
  let x := s.port p
  let g := arg % 65536
  if x.up && x.mode != .retraining && laneGroups.contains g && g &&& x.lanes == g && g != x.lanes then s.narrow p g else s

/-- WIDTH_SWITCH_DONE: traffic resumes from the first unacknowledged flit. -/
def State.widthDone (s : State) (p : Nat) : State :=
  if (s.port p).mode != .failover then s
  else (((s.mapPort p (fun x => { x with mode := .active })).resendAll p).pumpAll p).answerFlit p

/-! ## Flit headers (R349, R350) -/

/-- A resend that an acknowledgement or a timeout asks for; the eighth in a row from one SEQ forces a retrain. A port that is
narrowing or retraining resends when it resumes. -/
def State.resendFrom (s : State) (p : Nat) : State :=
  if (s.port p).mode != .active || (s.port p).unacked.isEmpty then s
  else
    let n := (s.port p).resends + 1
    let s := (s.mapPort p (fun x => { x with resends := n })).resendAll p
    if 8 ≤ n then s.startRetrain p else s

/-- One class report: what was freed since the last total seen. -/
def PortSt.takeReport (x : PortSt) (cls total : Nat) : PortSt :=
  if 9 ≤ cls then x
  else
    let freed := (total + 256 - x.credSeen.getD cls 0 % 256) % 256
    { x with
      credits := x.credits.setIfInBounds cls (x.credits.getD cls 0 + freed)
      credSeen := x.credSeen.setIfInBounds cls (total % 256) }

/-- ACK_SEQ and NAK: what is acknowledged leaves the replay buffer; an ACK_SEQ of a flit not yet sent is a violation and
takes ACK_SEQ and NAK with it; one that was acknowledged before says nothing new. -/
def State.takeAck_ (s : State) (p : Nat) (h : FlitHdr) : State :=
  let x := s.port p
  let n := (h.ackSeq + 1 + 1024 - x.ackedTo) % 1024
  if x.unacked.length < n then
    if n ≤ 512 then s.violationAt p 0x08 0 h.seq x.neighbour else if h.nak then s.resendFrom p else s
  else
    let x := { x with unacked := x.unacked.drop n, ackedTo := (x.ackedTo + n) % 1024, resends := if n = 0 then x.resends else 0 }
    let s := s.setPort p x
    if h.nak then s.resendFrom p else s

/-- What every accepted header brings: acknowledgement and credits. -/
def State.takeHeader (s : State) (p : Nat) (h : FlitHdr) : State :=
  let s := s.mapPort p (fun x => (x.takeReport h.credClassA h.credTotalA).takeReport h.credClassB h.credTotalB)
  (s.takeAck_ p h).pumpAll p

/-! ## Control flits (R343 to R346) -/

/-- PORT_LOST: later messages of the port that went down go first on this one; where no port of the dimension is DOWN here
yet, the report waits for it. -/
def State.takeLost (s : State) (p seq : Nat) : State :=
  match (List.range 4).find? (fun q => q != p && portDim s.sys.deviceCount q == portDim s.sys.deviceCount p
      && (s.port q).mode == .down && !((s.port q).unsent seq).isEmpty) with
  | some q => s.moveTraffic q p seq
  | none => s.mapPort p (fun x => { x with lostSeq := some seq })

/-- A CONTROL flit arrives. -/
def State.takeControl (s : State) (p : Nat) (h : FlitHdr) : State :=
  let x := s.port p
  if x.mode = .down ∨ x.mode = .disabled then s
  else if h.flitType ≠ 1 ∨ 5 < h.code ∨ h.sender ≠ x.neighbour then s.violationAt p 0x01 0 h.seq x.neighbour
  else
    let s := if h.code = 1 then s.takeWidth p h.arg else s
    let s := if x.up then s.takeHeader p h else s
    let s := s.fecGood p
    if h.code = 2 then s.startRetrain p
    else if h.code = 3 then
      let (t, s) := s.free 16
      s.sendControl p 4 (h.arg + t.toNat)
    else if h.code = 4 then s.takeEcho p h.arg h.seq
    else if h.code = 5 then s.takeLost p (h.arg % 1024)
    else s

/-! ## Messages in slots (R353, Tables 11.4, 12.4, 12.6, 12.7, 02.4) -/

/-- Slots of a message by its opcode; none for a reserved one. -/
def msgSlots (op : Nat) : Option Nat :=
  if op = 0x05 then some 6
  else if op = 0x60 ∨ op = 0x61 ∨ op = 0x80 then some 5
  else if (cohClass op).isSome then some 1
  else if op = 0xA1 ∨ op = 0xC0 ∨ op = 0xC3 ∨ op = 0xC7 then some 2
  else if op = 0xC8 then some 3
  else if op = 0xA0 ∨ op = 0xA2 ∨ op = 0xE0 then some 1
  else if 0xC0 ≤ op ∧ op ≤ 0xCA then some 1
  else none

/-- A coherence message from its slots. -/
def cohOf (ws : List Nat) : CohMsg :=
  let w := ws.getD 0 0
  let op := w / 2 ^ 120
  let line := (if op = 0x05 then ws.drop 2 else ws.drop 1).flatMap (natLe 16)
  { op := op, src := fld w 119 108, dst := fld w 107 96, txn := fld w 95 80, aux := fld w 79 64, order := bitAt w 63
    evicting := bitAt w 62, poison := bitAt w 61, pd := bitAt w 60, tokenValid := bitAt w 59, token := fld w 58 50
    reserved := fld w 49 48 * 8 + fld w 2 0 + (if op = 0x05 then ws.getD 1 0 / 2 ^ 64 * 32 else 0)
    line := fld w 47 6 * 64, state := fld w 5 3, mask := if op = 0x05 then ws.getD 1 0 % 2 ^ 64 else 0, data := line }

/-- A BELAY_ACK from its two slots; what stands in slot 0's unused bits makes it malformed. -/
def belayOf (ws : List Nat) : BelayAck :=
  let a := ws.getD 0 0
  let w := ws.getD 1 0
  { slotSource := fld a 119 116, dest := fld a 115 112, routeId := fld w 127 96, spanPitch := fld w 95 64
    tick := fld w 63 32, tenant := fld w 31 27, kind := fld w 26 24, source := fld w 23 20, home := fld w 19 16
    halvings := fld w 15 13, faultReplays := fld w 12 10, reserved := fld w 9 0 + a % 2 ^ 112 * 1024 }

/-- A service message from its slots. -/
def svcOf (ws : List Nat) : SvcMsg :=
  let w := ws.getD 0 0
  { op := w / 2 ^ 120, source := fld w 119 116, dest := fld w 115 112, bcast := bitAt w 111, tenant := fld w 110 106
    reserved := fld w 105 96, route := fld w 95 64, arg := w % 2 ^ 64, slot1 := ws.getD 1 0, slot2 := ws.getD 2 0 }

/-- Whether a LINK_NAK is well formed (R361). -/
def State.nakOk (s : State) (w : Nat) : Bool :=
  w / 2 ^ 120 == 0xE0 && decide (fld w 119 116 < s.sys.deviceCount) && decide (1 ≤ fld w 115 108)
    && decide (fld w 115 108 ≤ 8) && decide (fld w 89 86 < s.sys.deviceCount) && w % 2 ^ 86 == 0

/-- A LINK_NAK arrives: it is sunk and counted, a malformed one is dropped without an answer. -/
def State.takeNak (s : State) (p w : Nat) : State := if s.nakOk w then s.oinc (portObj p) 12 1 else s

/-- A whole message is delivered; `seq` is its flit. -/
def State.takeMsg (s : State) (p seq : Nat) (ws : List Nat) : State :=
  let w := ws.getD 0 0
  let op := w / 2 ^ 120
  let near := (s.port p).neighbour
  if (cohClass op).isSome then
    let m := cohOf ws
    match s.cohFault m with
    | some c =>
      let src := if agentDev m.src < s.sys.deviceCount then agentDev m.src else near
      s.dropCoh.violationAt p c op seq src
    | none => s.cohTake m
  else if op = 0xA0 then
    if fld w 95 64 ≠ 0 then s.violationAt p 0x04 op seq near
    else s.takeMarker p (fld w 119 116) (fld w 115 112) (fld w 111 96) (w % 2 ^ 64)
  else if op = 0xA1 then
    let a := belayOf ws
    s.takeBelay a (fun s c => s.violationAt p c op seq a.slotSource)
  else if op = 0xA2 then
    if fld w 107 64 ≠ 0 then s.violationAt p 0x04 op seq near
    else s.takeHeartbeat p (fld w 119 116) (fld w 115 112) (fld w 111 108) (w % 2 ^ 64)
  else if op = 0xE0 then s.takeNak p w
  else
    let m := svcOf ws
    s.takeSvc m (some p) (fun s c => s.violationAt p c op seq m.source)

/-- A message's credit: taken when it begins, freed when it is consumed or dropped. -/
def State.useCredit (s : State) (p : Nat) (cls : Option Nat) : State :=
  match cls with
  | some c => s.mapPort p (fun x => { x with credUsed := x.credUsed.setIfInBounds c (x.credUsed.getD c 0 + 1) })
  | none => s

def State.freeCredit (s : State) (p : Nat) (cls : Option Nat) : State :=
  match cls with
  | some c => s.mapPort p (fun x => { x with credFreed := x.credFreed.setIfInBounds c (x.credFreed.getD c 0 + 1) })
  | none => s

/-- Whether the sender had a credit left for a class. -/
def PortSt.creditLeft (x : PortSt) (cls : Option Nat) : Bool :=
  match cls with
  | some c => decide (x.credUsed.getD c 0 < x.credFreed.getD c 0 + classCredits c)
  | none => true

/-- A whole message: its credit frees once it is consumed. -/
def State.consume (s : State) (p seq : Nat) (ws : List Nat) : State :=
  (s.takeMsg p seq ws).freeCredit p (opClass (ws.getD 0 0 / 2 ^ 120))

/-- The device a message comes from, by its first slot; the neighbour where it names none of the system (R361). -/
def State.slotSource (s : State) (p w : Nat) : Nat :=
  let op := w / 2 ^ 120
  let d := if (cohClass op).isSome then agentDev (fld w 119 108)
    else if op = 0xA0 ∨ op = 0xA2 then fld w 115 112
    else fld w 119 116
  if d < s.sys.deviceCount then d else (s.port p).neighbour

/-- A reserved opcode: it is a protocol fault of the coherence protocol too (R319, R338). -/
def State.unknownOp (s : State) (p seq op : Nat) : State := s.dropCoh.violationAt p 0x02 op seq (s.port p).neighbour

/-- Slots of a flit in order: the first `skip` belong to a dropped message. -/
def State.takeSlots (s : State) (p seq : Nat) : Nat → List Nat → State
  | _, [] => s
  | skip + 1, _ :: ws => s.takeSlots p seq skip ws
  | 0, w :: ws =>
    match (s.port p).partialSlots with
    | [] =>
      let op := w / 2 ^ 120
      if op = 0 then s.takeSlots p seq 0 ws
      else
        match msgSlots op with
        | none => s.unknownOp p seq op
        | some n =>
          if !(s.port p).creditLeft (opClass op) then
            (s.violationAt p 0x03 op seq (s.slotSource p w)).takeSlots p seq (n - 1) ws
          else
            let s := s.useCredit p (opClass op)
            if n = 1 then (s.consume p seq [w]).takeSlots p seq 0 ws
            else (s.mapPort p (fun x => { x with partialSlots := [w] })).takeSlots p seq 0 ws
    | h :: l =>
      let all := h :: l ++ [w]
      if all.length < (msgSlots (h / 2 ^ 120)).getD 0 then
        (s.mapPort p (fun x => { x with partialSlots := all })).takeSlots p seq 0 ws
      else ((s.mapPort p (fun x => { x with partialSlots := [] })).consume p seq all).takeSlots p seq 0 ws

/-- Slots that the message in progress still lacks. -/
def PortSt.lacking (x : PortSt) : Nat :=
  match x.partialSlots with
  | [] => 0
  | h :: l => (msgSlots (h / 2 ^ 120)).getD 0 - (l.length + 1)

/-! ## PAYLOAD flits (R346 to R350) -/

/-- The receiver asks for a resend in its next flit (R349). -/
def State.askResend (s : State) (p : Nat) : State :=
  (s.mapPort p (fun x => { x with nakDue := true })).answerFlit p

/-- Corrected bytes are counted, for the port and for their lanes (R344, R347). -/
def State.countCorrected (s : State) (p : Nat) (fec : List Nat) : State :=
  let s := s.oinc (portObj p) 7 fec.length
  s.mapPort p (fun x => { x with laneErrors := fec.foldl (fun (m : SMap Nat) i =>
    m.put (x.laneOf i) ((m.find (x.laneOf i)).getD 0 + 1)) x.laneErrors })

/-- Drops the message in progress. -/
def State.dropPartial (s : State) (p : Nat) : State :=
  match (s.port p).partialSlots with
  | [] => s
  | h :: _ => (s.mapPort p (fun x => { x with partialSlots := [] })).freeCredit p (opClass (h / 2 ^ 120))

/-- The classes of the messages that begin in some slots. -/
def slotClasses : Nat → List Nat → List Nat
  | _, [] => []
  | skip + 1, _ :: ws => slotClasses skip ws
  | 0, w :: ws =>
    let op := w / 2 ^ 120
    if op = 0 then slotClasses 0 ws
    else
      match msgSlots op with
      | none => []
      | some n => (opClass op).toList ++ slotClasses (n - 1) ws

/-- A malformed flit drops every message that begins in it or goes on through it; their credits free (R360, R361). -/
def State.dropFlit (s : State) (p : Nat) (h : FlitHdr) (slots : List Nat) : State :=
  let r := (s.port p).lacking
  let begun := if h.firstMsg = 15 ∨ h.flitType ≠ 0 then [] else slotClasses 0 (slots.drop (max r h.firstMsg))
  let s := begun.foldl (fun s c => (s.useCredit p (some c)).freeCredit p (some c)) (s.dropPartial p)
  s.violationAt p 0x01 0 h.seq (s.port p).neighbour

/-- The messages of an accepted flit: first the rest of the one in progress, then from FIRST_MSG on. -/
def State.takeFlit (s : State) (p : Nat) (h : FlitHdr) (slots : List Nat) : State :=
  let r := (s.port p).lacking
  let bad := h.code ≠ 0 ∨ h.arg ≠ 0 ∨ h.sender ≠ (s.port p).neighbour ∨ (h.firstMsg < r ∧ h.firstMsg ≠ 15)
  if bad then s.dropFlit p h slots
  else
    let s := s.takeSlots p h.seq 0 (slots.take r)
    if h.firstMsg = 15 then s else s.takeSlots p h.seq 0 (slots.drop (max r h.firstMsg))

/-- A flit that decoded arrives in PAYLOAD_FLIT. -/
def State.goodFlit (s : State) (p : Nat) (h : FlitHdr) (slots : List Nat) : State :=
  let x := s.port p
  if h.flitType = 1 then s.takeControl p h
  else if !x.up || x.mode == .retraining then s
  else if 2 ≤ h.flitType then s.dropFlit p h slots
  else if h.seq ≠ x.expectSeq then s.askResend p
  else
    let s := s.mapPort p (fun x => { x with expectSeq := (h.seq + 1) % 1024, nakDue := false, owes := true })
    ((s.takeHeader p h).takeFlit p h slots).answerFlit p

/-- A flit that did not decode, or whose CRC is wrong, is discarded whole: a running port asks for a resend. -/
def State.badFlit (s : State) (p : Nat) : State :=
  let x := s.port p
  if x.up && x.mode != .retraining then s.askResend p else s.mapPort p PortSt.fecBad

/-- The coded bytes of a flit arrive in PAYLOAD_FLIT. -/
def State.takePayload (s : State) (p : Nat) (coded : List Byte) : State :=
  if (s.port p).mode = .down ∨ (s.port p).mode = .disabled then s
  else
    let d := decodeFlit coded
    let s := s.countCorrected p d.1
    match d.2 with
    | none => s.badFlit p
    | some (h, slots) => s.goodFlit p h slots

/-- The coded bytes of a CONTROL flit arrive; another flit than a CONTROL flit is that of PAYLOAD_FLIT. -/
def State.arriveControl (s : State) (p : Nat) (coded : List Byte) : State :=
  if (s.port p).mode = .down ∨ (s.port p).mode = .disabled then s
  else
    let d := decodeFlit coded
    match d.2 with
    | none => (s.countCorrected p d.1).badFlit p
    | some (h, _) => if h.flitType = 1 then (s.countCorrected p d.1).takeControl p h else s

/-! ## The rows -/

def execPortEnable (p : Nat) (s : State) : Res := .next (s.portEnable (p % 4))
def execLockAndEqualise (p lanes : Nat) (s : State) : Res := .next (s.lockDone (p % 4) lanes)
def execTrainingTimeout (p : Nat) (s : State) : Res := .next (s.trainingTimeout (p % 4))
def execPayloadFlit (p : Nat) (flit parity : List Byte) (s : State) : Res := .next (s.takePayload (p % 4) (flit ++ parity))
def execLinkIdle (p : Nat) (coded : List Byte) (s : State) : Res := .next (s.arriveControl (p % 4) coded)
def execWidthChange (p : Nat) (coded : List Byte) (s : State) : Res := .next (s.arriveControl (p % 4) coded)
def execRetrain (p : Nat) (coded : List Byte) (s : State) : Res := .next (s.arriveControl (p % 4) coded)
def execLatencyProbe (p : Nat) (coded : List Byte) (s : State) : Res := .next (s.arriveControl (p % 4) coded)
def execLatencyEcho (p : Nat) (coded : List Byte) (s : State) : Res := .next (s.arriveControl (p % 4) coded)
def execPortLost (p : Nat) (coded : List Byte) (s : State) : Res := .next (s.arriveControl (p % 4) coded)

/-- FLIT_REPLAY_TIMEOUT: resends from the oldest unacknowledged flit. -/
def execFlitReplayTimeout (p : Nat) (s : State) : Res :=
  .next (s.resendFrom (p % 4))

def execLaneLockLost (p lane : Nat) (s : State) : Res := .next (s.failLanes (p % 4) (2 ^ (lane % 16)))
def execLaneErrorInterval (p : Nat) (s : State) : Res := .next (s.laneInterval (p % 4))
def execWidthSwitchDone (p : Nat) (s : State) : Res := .next (s.widthDone (p % 4))

/-- RETRAIN_CMD: a write of 1 to member 13 of the port object. -/
def execRetrainCmd (p : Nat) (s : State) : Res := .next (s.startRetrain (p % 4))
def execRetrainDone (p lanes : Nat) (s : State) : Res := .next (s.endRetrain (p % 4) lanes)
def execLinkNak (p slot : Nat) (s : State) : Res := .next (s.takeNak (p % 4) slot)

end Sys2Proof.Machine
end

