-- ==== Sys2Proof/Machine/Forming.lean ====
section
/-! DEFINITION. Device states: the checks of a formation, forming and its end, the return to configuration, bivouac, and
retreat on request (R16, R25, R39, R41 to R48, R220, R237, R325, R366, R423, R431, R456, R475 to R479, R490 to R499). -/
namespace Sys2Proof.Machine

/-! ## Requests -/

/-- Open routes of the device's own (O:0x3060.1, R201). -/
def State.openRoutes (s : State) : Nat := (s.routes.filter (fun r => s.isHome r.key)).length

/-- No engine entry is admitted and not complete. -/
def State.enginesQuiet (s : State) : Bool := s.eng.chans.all (fun p => p.2.entries.isEmpty)

/-- Whether a transition runs, so that every request is refused (R477). -/
def State.inTransition (s : State) : Bool := s.sys.bivouacArmed.isSome || s.sys.exiting

/-! ## The checks on leaving CONFIGURATION (R456) -/

/-- Populated DDR5 under the MIRROR_EN that a formation would put in force (R420, R423). -/
def State.formPopulated (s : State) : Nat :=
  let whole := s.onum 0x5000 1 - spareBytes
  if s.oflag 0x5000 3 then whole / 2 else whole

/-- The TotalVFs member of the first link that takes the tenants beyond 32 (R366). -/
def State.tenantExcess (s : State) : Option (Nat × Nat) :=
  let links := (List.range 2).flatMap (fun h => (List.range (s.linkCount h)).map (fun k => (pobj 0x6080 h, 6 + k)))
  (links.foldl (fun (acc : Nat × Option (Nat × Nat)) m =>
    let n := acc.1 + s.onum m.1 m.2 + 1
    (n, match acc.2 with
      | some x => some x
      | none => if 32 < n then some m else none)) (0, none)).2

/-- The first object that keeps the device in CONFIGURATION, as index and member; the order is by index. -/
def State.formFault (s : State) : Option (Nat × Nat) :=
  if s.periodUs < 2 * s.windowUs then some (0x2000, 2)
  else if s.windowUs ≤ s.marginUs then some (0x2000, 3)
  else if s.onum 0x4000 1 < 16 ∨ s.formPopulated < s.onum 0x4000 1 * gib + 16 * gib then some (0x4000, 1)
  else if s.dram.dimmsAlike = false then some (0x5000, 1)
  else if s.onum 0x5000 5 = 4 then some (0x5000, 5)
  else s.tenantExcess

/-- Device counts that form (R25). -/
def countOk (n : Nat) : Bool := n == 1 || n == 2 || n == 4 || n == 8 || n == 16

/-! ## FORMING -/

/-- Everything that HBM held is zero (R425, R494). -/
def State.zeroHbm (s : State) : State :=
  { s with dram := { s.dram with
      raw := s.dram.raw.filter (fun p => !lineHbm p.1)
      poisoned := s.dram.poisoned.filter (fun p => !lineHbm p.1)
      testLines := s.dram.testLines.filter (fun p => !lineHbm p.1)
      noted := s.dram.noted.filter (fun p => !lineHbm p.1) } }

/-- This device takes a device ID: what is kept by line address moves to its new slice, and its caches start empty. -/
def State.renumber (s : State) (id : Nat) : State :=
  let was := s.sys.deviceId
  let own {α : Type} (m : SMap α) : SMap α :=
    (m.filter (fun p => lineDev p.1 == was)).map (fun p => (p.1 - was * 2 ^ 44 + id * 2 ^ 44, p.2))
  if was = id then s
  else
    let s := (List.range 4).foldl State.sweepSlc ((List.range 17).foldl State.sweepL2 s)
    { s with
      sys := { s.sys with deviceId := id }
      cache := { s.cache with
        l2 := onlyFences s.cache.l2, l1d := onlyFences s.cache.l1d, l1i := onlyFences s.cache.l1i, plru := []
        slc := onlyFences s.cache.slc }
      coh := { s.coh with dir := [], remote := [] }
      dram := { s.dram with
        raw := own s.dram.raw, poisoned := own s.dram.poisoned, testLines := own s.dram.testLines, noted := own s.dram.noted } }

/-- At each formation every port of the configuration trains, the others read DISABLED (Table 01.6, R342). -/
def State.enablePorts (s : State) : State := (List.range 4).foldl State.trainPort s

/-- FORMING begins from CONFIGURATION: count and ID are fixed, and a fenced channel returns (R25, R424). -/
def State.startForming (s : State) (count id : Nat) : State :=
  let back (c : Nat) : ChState := if s.sys.formed && s.chanState c == .failed then .active else s.chanState c
  let s := s.renumber id
  let s := { s with host := { s.host with fixed := s.functionsNow } }
  (({ s with sys := { s.sys with state := .forming, deviceCount := count } }).setChan16 back).enablePorts

/-- FORMING begins from BIVOUAC: records that became due meanwhile are posted and vectors held back signalled (R378, R493), HBM is zeroed, DDR5 leaves self-refresh and what was not retained is initialised (R431,
R494). -/
def State.leaveBivouac (s : State) : State :=
  let s := ({ s with sys := { s.sys with state := .forming } }).postAll
  let s := (List.range 32).foldl State.freedVectors s
  (s.zeroHbm.oset 0x5000 5 2).enablePorts

/-- STATE_REQUEST 2: the new state, or the object that failed, if one did (R456, R477). -/
def State.formRequest (s : State) (count id : Nat) : Except (Option (Nat × Nat)) State :=
  match s.sys.state with
  | .configuration =>
    if s.sys.phase ≠ .ready ∨ countOk count = false ∨ count ≤ id then .error none
    else
      match s.formFault with
      | some m => .error (some m)
      | none => .ok (s.startForming count id)
  | .bivouac => if s.sys.phase = .ready then .ok s.leaveBivouac else .error none
  | _ => .error none

/-! ## Moving Depot pages (R237) -/

/-- The ranks that keep their contents, as bits 4c + k (R237, R431). -/
def State.retainedRanks (s : State) : List Nat :=
  let base := (List.range 64).filter (fun b => bitAt (s.onum 0x4000 7) b)
  let held := base ++ (s.flash.remaps.filter (fun r => decide (r.ch < 16) && base.contains (4 * r.ch + rankOf r.line))).map
    (fun r => 4 * r.ch)
  let all := if s.dram.mirrored then held ++ held.map (fun b => (b / 4 + 8) % 16 * 4 + b % 4) else held
  all.eraseDups

/-- Whether a DDR5 line of this device lies in a rank that keeps its contents. -/
def State.lineRetained (s : State) (ranks : List Nat) (l : Nat) : Bool :=
  ranks.contains (4 * s.lineChan l + rankOf (s.lineLocal l))

/-- Offsets of the ranks of which not every channel keeps its contents, as (offset, length); rank k of all channels is one
range (R422). -/
def State.lostOffsets (s : State) (ranks : List Nat) : List (Nat × Nat) :=
  let chans := if s.dram.mirrored then 8 else 16
  let size := if Config.rankBytes = 0 then s.populated + mib else Config.rankBytes
  ((List.range 4).filter (fun k => !((List.range chans).all (fun c => ranks.contains (4 * c + k))))).map
    (fun k => ((k * size - mib) * chans, (size - if k = 0 then mib else 0) * chans))

/-- A page moves to another address of the region with its contents and its poison; no cache holds a line of it. -/
def State.movePage (s : State) (id addr : Nat) : State :=
  match s.depot.pages.find id with
  | none => s
  | some p =>
    let base := s.sys.deviceId * 2 ^ 44 + p.addr
    let fresh := s.sys.deviceId * 2 ^ 44 + addr
    let old (l : Nat) : Bool := decide (base ≤ l) && decide (l < base + p.size)
    let poisoned := (s.lostWithin base p.size).foldl (fun (acc : SMap Unit) l => acc.put (l - base + fresh) ())
      (s.dram.poisoned.filter (fun q => !old q.1))
    { s with
      depot := { s.depot with
        pages := s.depot.pages.put id { p with addr := addr }
        zeroQueue := s.depot.zeroQueue ++ [({ tier := 1, addr := p.addr, size := p.size } : ZeroEnt)] }
      dram := { s.dram with poisoned := poisoned } }

/-- Pages move, in order, to the lowest places of a range that are free and outside the holes; none where one does not
fit. -/
def State.placePages (s : State) (lo hi : Nat) (busy : List (Nat × Nat)) : List (Nat × Nat) → Option State
  | [] => some s
  | (id, size) :: l =>
    match firstFit lo hi size (sortBy (fun (x y : Nat × Nat) => decide (x.1 < y.1)) busy) with
    | none => none
    | some a => (s.movePage id a).placePages lo hi ((a, size) :: busy) l

/-- The Depot's pages of the region all come to lie in a range outside the holes (R237 step 1; R220). -/
def State.compact (s : State) (lo hi : Nat) (holes : List (Nat × Nat)) : Option State :=
  let mine := s.depot.pages.filter (fun p => p.2.tier == 1)
  let fits (p : Page) : Bool := decide (lo ≤ p.addr) && decide (p.addr + p.size ≤ hi)
    && !(holes.any (fun h => overlaps p.addr p.size h.1 h.2))
  let stay := mine.filter (fun p => fits p.2)
  let move := mine.filter (fun p => !fits p.2)
  s.placePages lo hi (holes ++ stay.map (fun p => (p.2.addr, p.2.size))) (move.map (fun p => (p.1, p.2.size)))

/-! ## The end of formation (R479) -/

/-- The identity that this device sends. -/
def State.identity (s : State) (seesTickIn : Bool) : PeerIdentity :=
  { device := s.sys.deviceId, count := s.sys.deviceCount, period := s.periodUs, window := s.windowUs, margin := s.marginUs
    hbPeriod := s.onum 0x6100 1, hbTimeout := s.onum 0x6100 2, tickSource := s.onum 0x2001 1, seesTickIn := seesTickIn }

/-- Whether a peer's identity agrees (R48, R333, Table 12.2 step 5). -/
def identityAgrees (a b : PeerIdentity) : Bool :=
  a.count == b.count && a.period == b.period && a.window == b.window && a.margin == b.margin
    && a.hbPeriod == b.hbPeriod && a.hbTimeout == b.hbTimeout

/-- Who is tick master, whether it is paced by TICK_IN, and whether this device raises a CORRECTED record (R41, R42, Table
02.2); `all` lists every device by rising ID. -/
def pickMaster (self : Nat) (all : List PeerIdentity) : Nat × Bool × Bool :=
  let asked := all.filter (fun p => p.tickSource == 1 || p.tickSource == 2)
  let auto := all.filter (fun p => p.tickSource == 0)
  match asked with
  | m :: rest => (m.device, m.tickSource == 2, rest.any (fun p => p.device == self))
  | [] =>
    match auto with
    | [] => (((all.head?).map (fun p => p.device)).getD self, false, decide (1 < all.length))
    | a :: _ =>
      match auto.find? (fun p => p.seesTickIn) with
      | some m => (m.device, true, false)
      | none => (a.device, false, false)

/-- Logical ridges and strands are assigned afresh (R16, R17, R483). -/
def State.assignRidges (s : State) : State :=
  let ok := s.flash.healthyRidges
  { s with sys := { s.sys with
      ridgeMap := ok.take 16
      spareRidge := ok[16]?
      spareGiven := none
      fencedPaths := []
      strandMap := (List.range 17).map (fun p => (s.flash.healthyStrands p).take 8)
      retireAsked := [], retired := [] } }

/-- The region, the mirroring and what depends on them come into force: image memory is what lies below the region (R24,
R220, R423). None where the Depot's pages do not fit the new region. -/
def State.layMemory (s : State) : Option State :=
  let top := s.formPopulated
  let size := s.onum 0x4000 1
  match s.compact (top - size * gib) top [] with
  | none => none
  | some s =>
    some ({ s with
      mem := s.mem.filter (fun c => decide (c.1 < top - size * gib))
      depot := { s.depot with region := size }
      dram := { s.dram with mirrored := s.oflag 0x5000 3 } } |>.oset 0x5000 2 top)

/-- Formation fails: the device is back in CONFIGURATION and a record names the cause (Table 17.2). -/
def State.formationFails (s : State) (index member : Nat) : State :=
  ({ s with sys := { s.sys with state := .configuration } }).raise
    { severity := 2, source := 0x000E, w4 := objW4 index member }

/-- Tick 0 is due on the master, and the protocols start again (R38, R41, R325, R356, R484). -/
def State.startPitches (s : State) (all : List PeerIdentity) : State :=
  let m := pickMaster s.sys.deviceId all
  let mode : TickMode := if m.1 ≠ s.sys.deviceId then .follower else if m.2.1 then .tickIn else .internal
  let peers := (List.range s.sys.deviceCount).filter (fun d => d != s.sys.deviceId)
  let s := { s with
    pitch := { PitchSt.reset with
      running := true, lastTick := s.now, expected := s.now, mode := mode, master := m.1, lastEdge := s.now }
    coh := { s.coh with
      dead := [], retreated := [], beats := 0, silent := false, seenBeat := []
      lastBeat := peers.foldl (fun (acc : SMap Nat) d => acc.put d s.now) [] }
    link := { s.link with seen := [] }
    sys := { s.sys with formed := true, formedAt := s.now } }
  let s := (((s.oset 0x2001 2 m.1).oset 0x2001 3 0).oset 0x7000 2 8).oset 0x6100 3 (if 8 ≤ s.sys.deviceCount then 1 else 0)
  if m.2.2 then s.corrected 0x000B 0x2001 1 else s

/-- Host tables are loaded from their shadows (R237, R494, R499). -/
def State.reloadCairn (s : State) : State :=
  let s := s.ownedBanks.foldl State.reloadBank s
  { s with sys := { s.sys with crnOff := false } }

/-- The device reads OPERATIONAL, or RETREAT where a cause is pending: one that was held, too few healthy ridges, or a Tj
that has reached its maximum (R16, R487, R494). -/
def State.endForming (s : State) : State :=
  let few := decide (s.sys.ridgeMap.length < 16)
  let causes := (List.range 6).filter (fun b => bitAt s.sys.heldCauses b || (few && b == causeSpares)
    || (b == causeThermal && decide (10500 ≤ s.tjNow)))
  let s := { s with sys := { s.sys with state := .operational, heldCauses := 0 } }
  causes.foldl State.enterRetreat s

/-- FORMATION_COMPLETE: where the conditions of R479 hold everywhere. `r` is what the identity checks of the training
showed of the peers. -/
def State.formationDone (s : State) (r : FormationReport) : State :=
  let me := s.identity r.seesTickIn
  let ids := sortBy (fun (a b : PeerIdentity) => decide (a.device < b.device)) (me :: r.peers)
  if s.sys.state ≠ .forming then s
  else if r.peers.any (fun p => !identityAgrees me p || decide (s.sys.deviceCount ≤ p.device)) = true
      ∨ s.sys.deviceCount < ids.length then s.formationFails 0x2000 1
  else if ids.map (fun p => p.device) ≠ List.range s.sys.deviceCount then s
  else if s.onum 0x5000 5 ≠ 3 then s
  else if (List.range 4).any (fun p => (portDim s.sys.deviceCount p).isSome && (s.port p).mode != .active) then s
  else
    match s.layMemory with
    | none => s.formationFails 0x4000 1
    | some s =>
      let s := s.assignRidges.startPitches ids
      (if s.sys.crnOff then s.reloadCairn else s).endForming

def execForm (count id : Nat) (s : State) : Res :=
  .next (match s.formRequest count id with
    | .ok t => t
    | .error _ => s)

def execFormationComplete (r : FormationReport) (s : State) : Res := .next (s.formationDone r)

/-! ## Return to CONFIGURATION (R478) -/

/-- Dirty lines of other homes go back to them, and the caches drop every line of other homes. -/
def State.returnRemote (s : State) : State :=
  let far (l : Nat) : Bool := lineDev l != s.sys.deviceId
  let lines := s.cache.l2.flatMap (fun p => (p.2.filter (fun (w : Way) => w.state != .I && far w.line)).map (fun w => (p.1 / 4096, w)))
  let s := lines.foldl (fun s x => s.evictL2 x.1 x.2 none) s
  s.dropHomed far

/-- Routes of peers without an open span leave this device. -/
def State.endPeers (s : State) : State :=
  s.routes.foldl (fun s r => if s.isHome r.key then s else s.endRoute r.key stOk s.pitch.number false) s

/-- STATE_REQUEST 1. -/
def State.returnRequest (s : State) : Except (Option (Nat × Nat)) State :=
  if s.sys.state ≠ .operational ∨ s.inTransition = true ∨ s.openRoutes ≠ 0 ∨ s.enginesQuiet = false
      ∨ s.routes.any (fun r => !s.isHome r.key && r.span.isSome) = true then .error none
  else
    let s := s.endPeers.returnRemote
    .ok { s with
      pitch := { s.pitch with running := false }
      coh := { s.coh with silent := true }
      sys := { s.sys with state := .configuration } }

def execReturnToConfiguration (s : State) : Res :=
  .next (match s.returnRequest with
    | .ok t => t
    | .error _ => s)

/-! ## Bivouac (R490 to R492) -/

/-- Whether the device is quiet: no route is open, no engine entry admitted, and no LOAD_CAIRN runs (R490). -/
def State.quietNow (s : State) : Bool := decide (s.openRoutes = 0) && s.enginesQuiet && s.cairn.listAt.isEmpty

/-- STATE_REQUEST 3: the device enters bivouac at the tick that starts pitch BIVOUAC_AT, a single device at the next
tick. -/
def State.bivouacRequest (s : State) : Except (Option (Nat × Nat)) State :=
  let at_ := s.onum 0x7000 11
  if s.sys.state ≠ .operational ∨ s.inTransition = true ∨ s.quietNow = false
      ∨ (1 < s.sys.deviceCount ∧ at_ = 0) then .error none
  else .ok { s with sys := { s.sys with
      bivouacArmed := some (if s.sys.deviceCount = 1 then s.pitch.number + 1 else max at_ (s.pitch.number + 1)) } }

def execBivouacRequest (s : State) : Res :=
  .next (match s.bivouacRequest with
    | .ok t => t
    | .error _ => s)

/-- What loses its power goes: caches, strands, ports, the CRN's banks, HBM and the ranks that are not retained; the clock
stops (R431, R476, R492). -/
def State.goDark (s : State) (ranks : List Nat) : State :=
  let keep (l : Nat) : Bool := !lineHbm l && s.lineRetained ranks l
  let down (x : PortSt) : PortSt := { PortSt.reset with mode := if x.mode = .disabled then .disabled else .down }
  { s with
    mem := s.mem.filter (fun c => keep (s.lineAt false (c.1 / 64 * 64)))
    routes := []
    strands := []
    sched := { s.sched with ready := [], running := [] }
    scn := []
    pitch := { s.pitch with running := false }
    cache := { s.cache with
      l2 := onlyFences s.cache.l2, l1d := onlyFences s.cache.l1d, l1i := onlyFences s.cache.l1i, plru := []
      slc := onlyFences s.cache.slc, windows := [] }
    coh := { s.coh with
      dir := [], remote := [], open_ := [], queued := [], arrived := [], tokens := [], requests := [], wbBuf := [], applied := [], readBuf := []
      heldSnoops := [] }
    link := { s.link with
      p0 := down s.link.p0, p1 := down s.link.p1, p2 := down s.link.p2, p3 := down s.link.p3
      asked := [], outbound := [], owed := [], copies := [], inbound := [] }
    depot := { s.depot with zeroQueue := s.depot.zeroQueue.filter (fun z => z.tier == 1), journal := [], migrations := [], pageAsks := [] }
    dram := { s.dram with
      retained := ranks
      poisoned := s.dram.poisoned.filter (fun p => keep p.1)
      raw := s.dram.raw.filter (fun p => keep p.1)
      testLines := s.dram.testLines.filter (fun p => keep p.1)
      noted := s.dram.noted.filter (fun p => keep p.1) }
    host := { s.host with bivouacNoted := false }
    sys := { s.sys with state := .bivouac, bivouacArmed := none, crnOff := true } }

/-- The caches lose their lines before the rails go down. -/
def State.sweepAll (s : State) : State :=
  (List.range 4).foldl State.sweepSlc ((List.range 17).foldl State.sweepL2 s)

/-- The Depot compacts into the retained ranks, where it may. -/
def State.bivouacPack (s : State) (ranks : List Nat) : Option State :=
  if s.quietNow then s.compact s.regionBase s.populated (s.lostOffsets ranks) else none

/-- The request lapses and is recorded. -/
def State.bivouacRefused (s : State) : State :=
  ({ s with sys := { s.sys with bivouacArmed := none } } : State).raise
    { severity := 2, source := 0x000C, w4 := objW4 0x4000 7 }

/-- BIVOUAC_ENTRY: at its tick the Depot compacts and the device goes dark; where compaction is refused, or work has come
since, it stays OPERATIONAL (R237, R491; log 48). -/
def State.bivouacEnter (s : State) : State :=
  if !s.bivouacDue then s
  else
    let ranks := s.retainedRanks
    let s := s.sweepAll
    let s := if s.quietNow then s.endPeers else s
    match s.bivouacPack ranks with
    | some s => s.goDark ranks
    | none => s.bivouacRefused

def execBivouacEntry (s : State) : Res := .next s.bivouacEnter

/-! ## Retreat on request (R495, R499) -/

/-- STATE_REQUEST 4. -/
def State.retreatRequest (s : State) : Except (Option (Nat × Nat)) State :=
  if (s.sys.state = .operational ∨ s.sys.state = .forming) ∧ s.inTransition = false then .ok (s.enterRetreat causeManagement)
  else .error none

def execRetreatRequest (s : State) : Res :=
  .next (match s.retreatRequest with
    | .ok t => t
    | .error _ => s)

/-- Whether a cause allows STATE_REQUEST 5 (Table 17.5). -/
def State.causeAllows (s : State) (b : Nat) : Bool :=
  b == causeManagement || (b == causeThermal && decide (s.tjNow ≤ 100 * ((s.onum 0x7000 5 : Int) - 5)))

/-- STATE_REQUEST 5: the ridges come back, and the next tick reads OPERATIONAL. -/
def State.exitRequest (s : State) : Except (Option (Nat × Nat)) State :=
  if s.sys.state ≠ .retreat ∨ s.inTransition = true
      ∨ (List.range 8).all (fun b => !bitAt (s.onum 0x7010 1) b || s.causeAllows b) = false then .error none
  else
    let s := s.reloadCairn
    .ok { s with sys := { s.sys with exiting := true } }

def execRetreatExit (s : State) : Res :=
  .next (match s.exitRequest with
    | .ok t => t
    | .error _ => s)

/-! ## Ridges (R475, R482, R483) -/

/-- RIDGE_RETIRE: the mark is set, and a ridge in service is retired at the next belay. -/
def State.ridgeRetire (s : State) (p : Nat) : State :=
  if 17 ≤ p then s
  else
    { s with
      flash := { s.flash with ridgeMarks := if s.flash.ridgeMarks.contains p then s.flash.ridgeMarks else s.flash.ridgeMarks ++ [p] }
      sys := { s.sys with retireAsked :=
        if s.pitch.running && s.inService p && !s.sys.retireAsked.contains p then s.sys.retireAsked ++ [p] else s.sys.retireAsked } }

/-- RIDGE_UNRETIRE: the mark is cleared, and with it the records of the ridge's failed strands and a retirement that has
not yet taken effect; a retired ridge returns at the next formation. No other command clears a strand's record (R19;
DEDUCED, log 66). -/
def State.ridgeUnretire (s : State) (p : Nat) : State :=
  { s with
    flash := { s.flash with
      ridgeMarks := s.flash.ridgeMarks.filter (fun x => x != p)
      strandMarks := s.flash.strandMarks.filter (fun x => x.1 != p) }
    sys := { s.sys with retireAsked := s.sys.retireAsked.filter (fun x => x != p) } }

def execRidgeRetire (p : Nat) (s : State) : Res := .next (s.ridgeRetire p)
def execRidgeUnretire (p : Nat) (s : State) : Res := .next (s.ridgeUnretire p)

end Sys2Proof.Machine
end

