-- ==== Sys2Proof/Machine/Package.lean ====
section
/-! DEFINITION. The package: its outline, the use of every ball, the rails and their limits, the order of power-up, ratings,
cooling and rated life (R501 to R511). -/
namespace Sys2Proof.Machine

/-! ## Outline (R501, Table 18.1) -/

/-- Whether a ball stands at a row and column from 1 to 78: the 3 × 3 positions of each corner are empty. -/
def ballAt (r c : Nat) : Bool :=
  let edge (x : Nat) : Bool := decide (x ≤ 3) || decide (76 ≤ x)
  decide (1 ≤ r) && decide (r ≤ 78) && decide (1 ≤ c) && decide (c ≤ 78) && !(edge r && edge c)

/-! ## Rails (R506, Table 18.5) -/

inductive Rail where
  | serdes | sram | core | ddr | hbm | io | aon
  deriving DecidableEq, Repr

/-- The rails in the order of Table 18.5. -/
def rails : List Rail := [.serdes, .sram, .core, .ddr, .hbm, .io, .aon]

/-- A row of Table 18.5: rows of balls, nominal millivolts, tolerance in percent, maximum amperes and load step in amperes a
microsecond; with the absolute maximum of Table 18.7 in millivolts. -/
structure RailRow where
  firstRow : Nat
  lastRow : Nat
  nominal : Nat
  tolerance : Nat
  maxAmps : Nat
  stepAmps : Nat
  absMax : Nat
  deriving DecidableEq, Repr

def Rail.row : Rail → RailRow
  | .serdes => ⟨27, 28, 900, 3, 28, 10, 1050⟩
  | .sram => ⟨29, 30, 850, 3, 25, 10, 1000⟩
  | .core => ⟨31, 48, 750, 3, 220, 100, 900⟩
  | .ddr => ⟨49, 50, 1100, 3, 12, 10, 1350⟩
  | .hbm => ⟨51, 52, 1100, 3, 10, 10, 1350⟩
  | .io => ⟨53, 53, 1800, 5, 2, 1, 2200⟩
  | .aon => ⟨54, 54, 800, 3, 1, 1, 950⟩

/-- Whether a rail's voltage, in microvolts at the ball sense points, is within its tolerance. -/
def Rail.inTolerance (x : Rail) (uv : Nat) : Bool :=
  let n := x.row.nominal
  decide (10 * n * (100 - x.row.tolerance) ≤ uv) && decide (uv ≤ 10 * n * (100 + x.row.tolerance))

/-- Whether a rail's voltage in microvolts is more than 5 percent below nominal, the depth of R508. -/
def Rail.undervolted (x : Rail) (uv : Nat) : Bool := decide (uv < 950 * x.row.nominal)

/-- Whether a rail's voltage in microvolts exceeds its absolute maximum (R509). -/
def Rail.overstressed (x : Rail) (uv : Nat) : Bool := decide (1000 * x.row.absMax < uv)

/-- The rail whose balls stand in a row of the power region. -/
def railOfRow (r : Nat) : Option Rail := rails.find? (fun x => decide (x.row.firstRow ≤ r) && decide (r ≤ x.row.lastRow))

/-- The balls of a rail: half of its rows' 54 columns, as a checkerboard. -/
def Rail.balls (x : Rail) : Nat := 27 * (x.row.lastRow + 1 - x.row.firstRow)

/-- Milliamperes that one ball carries when its rail is at its maximum; none may carry more than 600. -/
def Rail.ballMilliamps (x : Rail) : Nat := x.row.maxAmps * 1000 / x.balls

/-! ## Signals (R502 to R505) -/

/-- The signals of one half of a DDR5 channel's block (R503). -/
inductive DdrSignal where
  | dq (n : Nat) | dqsT (d : Nat) | dqsC (d : Nat) | ca (n : Nat) | csN (rank : Nat) | ckT (dimm : Nat) | ckC (dimm : Nat)
  | resetN | alertN
  deriving DecidableEq, Repr

/-- The signals of the control region (Table 18.3). -/
inductive ControlSignal where
  | mgTxc | mgTxCtl | mgTxd (n : Nat) | mgRxc | mgRxCtl | mgRxd (n : Nat) | mgMdc | mgMdio
  | smbScl | smbSda | spiClk | spiCsN | spiIo (n : Nat) | tck | tms | tdi | tdo | trstN
  | tickIn | tickOut | pwrgood | rstN | thermN | fanPwm | refclkP | refclkN
  | sbScl (bus : Nat) | sbSda (bus : Nat) | sense (rail : Nat) | senseRtn (rail : Nat)
  deriving DecidableEq, Repr

/-- A signal: half false is subchannel A; in a differential pair neg is the N side. -/
inductive Signal where
  | ddr (ch : Nat) (half : Bool) (x : DdrSignal)
  | omuth (port lane : Nat) (tx neg : Bool)
  | host (port lane : Nat) (tx neg : Bool)
  | hostRefclk (port : Nat) (neg : Bool)
  | perstN (port : Nat)
  | control (x : ControlSignal)
  deriving DecidableEq, Repr

/-- What a position holds. -/
inductive Ball where
  | empty | vss | reserved | rail (x : Rail) | signal (x : Signal)
  deriving DecidableEq, Repr

/-- Signal i of a half of a channel's block (R503). -/
def ddrSignal (half : Bool) (i : Nat) : Option DdrSignal :=
  let d := i / 6
  if i < 60 then
    some (match i % 6 with
      | 0 => .dq (4 * d)
      | 1 => .dq (4 * d + 1)
      | 2 => .dqsT d
      | 3 => .dqsC d
      | 4 => .dq (4 * d + 2)
      | _ => .dq (4 * d + 3))
  else if i < 74 then some (.ca (i - 60))
  else if i < 78 then some (.csN (i - 74))
  else if i < 82 then some (if i % 2 = 0 then .ckT ((i - 78) / 2) else .ckC ((i - 78) / 2))
  else if i = 82 then some (if half then .alertN else .resetN)
  else none

/-- Whether the device uses a strobe pair: with x8 DIMMs only those of even d; the others are driven low. -/
def strobeUsed (x8 : Bool) (d : Nat) : Bool := !x8 || d % 2 == 0

/-- A ball of the block of a memory channel, at its block row and column. -/
def ddrBall (ch row col : Nat) : Ball :=
  let half := decide (10 < row)
  let hr := if half then 21 - row else row
  match ddrSignal half ((hr - 1) * 9 + col) with
  | some x => .signal (.ddr ch half x)
  | none => .vss

/-- A ball of the memory regions. -/
def memoryBall (south : Bool) (r c : Nat) : Ball :=
  if c < 4 ∨ 75 < c then .vss
  else
    let k := (c - 4) / 9
    ddrBall (if south then 8 + k else k) (if south then 79 - r else r) ((c - 4) % 9)

/-- A ball of an Omuth region (R504): lanes in rows from r0 on, TX and RX in their columns. -/
def omuthBall (r c : Nat) : Ball :=
  let lower := decide (40 ≤ r)
  let l := r - if lower then 40 else 21
  let port := (if 67 ≤ c then 2 else 0) + lower.toNat
  let side : Option (Bool × Bool) := match c with
    | 2 => some (true, false)
    | 3 => some (true, true)
    | 6 => some (false, false)
    | 7 => some (false, true)
    | 77 => some (true, false)
    | 76 => some (true, true)
    | 73 => some (false, false)
    | 72 => some (false, true)
    | _ => none
  match side with
  | some (tx, neg) => if l < 16 then .signal (.omuth port l tx neg) else .vss
  | none => .vss

/-- A ball of a host port's region (R504): HP1 mirrors HP0. -/
def hostBall (port r c : Nat) : Ball :=
  let txRow := if port = 0 then 22 else 57
  let rxRow := if port = 0 then 24 else 55
  if r = txRow ∧ (c = 63 ∨ c = 64) then .signal (.hostRefclk port (c == 64))
  else if r = rxRow ∧ c = 63 then .signal (.perstN port)
  else if (r = txRow ∨ r = rxRow) ∧ 14 ≤ c ∧ c < 62 ∧ (c - 14) % 3 < 2 then
    .signal (.host port ((c - 14) / 3) (r == txRow) ((c - 14) % 3 == 1))
  else .vss

/-- The signals of row 25 from column 13 on, column 46 left out (Table 18.3). -/
def controlRow : List ControlSignal :=
  [.mgTxc, .mgTxCtl, .mgTxd 0, .mgTxd 1, .mgTxd 2, .mgTxd 3, .mgRxc, .mgRxCtl, .mgRxd 0, .mgRxd 1, .mgRxd 2, .mgRxd 3
   , .mgMdc, .mgMdio, .smbScl, .smbSda, .spiClk, .spiCsN, .spiIo 0, .spiIo 1, .spiIo 2, .spiIo 3]
  ++ [.tck, .tms, .tdi, .tdo, .trstN, .tickIn, .tickOut, .pwrgood, .rstN, .thermN, .fanPwm]

/-- A ball of the control region. DEDUCED: SENSE and SENSE_RTN of a rail stand side by side (log 73). -/
def controlBall (r c : Nat) : Ball :=
  if r = 25 then
    if c = 47 then .signal (.control .refclkP)
    else if c = 48 then .signal (.control .refclkN)
    else
      match controlRow[c - 13]? with
      | some x => .signal (.control x)
      | none => .vss
  else if c < 17 then .signal (.control (.sbScl (c - 13)))
  else if c < 21 then .signal (.control (.sbSda (c - 17)))
  else if 22 ≤ c ∧ c < 36 then
    .signal (.control (if c % 2 = 0 then .sense ((c - 22) / 2) else .senseRtn ((c - 22) / 2)))
  else if 37 ≤ c ∧ c < 62 then .reserved
  else .vss

/-- A ball of the power region. -/
def powerBall (r c : Nat) : Ball :=
  if (r + c) % 2 = 1 then .vss
  else
    match railOfRow r with
    | some x => .rail x
    | none => .vss

/-- The regions of Table 18.2. -/
inductive Region where
  | north | south | west | east | hp0 | hp1 | control | power
  deriving DecidableEq, Repr

def regionOf (r c : Nat) : Region :=
  if r ≤ 20 then .north
  else if 59 ≤ r then .south
  else if c ≤ 12 then .west
  else if 67 ≤ c then .east
  else if r ≤ 24 then .hp0
  else if r ≤ 26 then .control
  else if r ≤ 54 then .power
  else .hp1

/-- What the position at a row and column holds (R502). -/
def ballOf (r c : Nat) : Ball :=
  if !ballAt r c then .empty
  else
    match regionOf r c with
    | .north => memoryBall false r c
    | .south => memoryBall true r c
    | .west => omuthBall r c
    | .east => omuthBall r c
    | .hp0 => hostBall 0 r c
    | .hp1 => hostBall 1 r c
    | .control => controlBall r c
    | .power => powerBall r c

/-! ## Power-up and power-down (R507, Table 18.6) -/

/-- When a rail starts to rise and when it is in tolerance, in microseconds from the start. -/
structure RailRise where
  starts : Nat
  settled : Nat
  deriving DecidableEq, Repr

/-- Whether an event follows another within 50 ms. -/
def follows (after t : Nat) : Bool := decide (after ≤ t) && decide (t ≤ after + 50000)

/-- Whether rails rise in the order of Table 18.6, with PWRGOOD asserted last. -/
def powerUpOk (f : Rail → RailRise) (pwrgood : Nat) : Bool :=
  let both := max (f .sram).settled (f .core).settled
  decide ((f .aon).starts = 0) && follows (f .aon).settled (f .io).starts && follows (f .io).settled (f .sram).starts
    && decide ((f .sram).starts ≤ (f .core).starts) && follows both (f .serdes).starts
    && follows (f .serdes).settled (f .ddr).starts && follows (f .serdes).settled (f .hbm).starts
    && rails.all (fun x => decide ((f x).settled ≤ pwrgood))

/-- Whether the two rails that R507 ties together may stand at these microvolts. -/
def sramHolds (sram core : Nat) : Bool := decide (core ≤ sram + 50000)

/-- Whether PWRGOOD falls early enough before the first rail leaves tolerance, in microseconds. -/
def powerDownOk (pwrgoodFalls firstRail : Nat) : Bool := decide (pwrgoodFalls + 10 ≤ firstRail)

/-! ## Ratings, cooling and life (R509 to R511) -/

/-- Whether a junction temperature in hundredths of a degree is one of operation. -/
def tjOperates (tj : Int) : Bool := decide (0 ≤ tj) && decide (tj ≤ 10500)

/-- Junction-to-lid resistance, at most, in thousandths of a degree a watt. -/
def lidResistance : Nat := 60

/-- The temperature that a load settles at, in hundredths of a degree: inlet air, the resistances of the lid, the interface and the
sink in thousandths of a degree a watt, and milliwatts. -/
def settledTj (inlet : Int) (interface sink mw : Nat) : Int :=
  inlet + (((lidResistance + interface + sink) * mw / 10000 : Nat) : Int)

/-- Rated life as 40 years times 2 to a power, given in thousandths (R511); none above an average of 95 degrees. Average Tj in
hundredths of a degree. -/
def lifePower (average : Int) : Option Int :=
  if average ≤ 8500 then some 0 else if average ≤ 9500 then some (8500 - average) else none

/-- Whether the conditions of 40 years of operation hold: average Tj, powered minutes above 95 degrees and in all, power
cycles, and rails. -/
def lifeRated (average : Int) (hot powered cycles : Nat) (railsOk : Bool) : Bool :=
  lifePower average == some 0 && decide (20 * hot ≤ powered) && decide (cycles ≤ 20000) && railsOk

end Sys2Proof.Machine
end

