-- ==== Sys2Proof/Machine/Startup.lean ====
section
/-! DEFINITION. Start-up, measured boot, resets, pins, temperature, rails and life objects (R45, R418, R425, R468, R471, R480
to R488, R508, R512). -/
namespace Sys2Proof.Machine

/-! ## OTP generations (R468, Table 16.10) -/

/-- Whether a generation is valid: GEN_MARK, FORMAT and CRC-32C. -/
def genValid (g : List Byte) : Bool :=
  getLe g 0 1 == 0xA5 && getLe g 1 1 == 1 && getLe g 508 4 == crc32c (fitTo 508 g)

/-- Whether a generation has been burned. -/
def genBurned (g : List Byte) : Bool := g.any (fun b => b != 0)

def genPolicy (g : List Byte) : Nat := getLe g 2 2
def genMinVersion (g : List Byte) : Nat := getLe g 4 4
def genRootHash (g : List Byte) : List Byte := sliceB g 16 48
def genExpect (g : List Byte) (k : Nat) : List Byte := sliceB g (64 + 48 * k) 48

/-- CHECK bit k of a generation. -/
def genCheck (g : List Byte) (k : Nat) : Bool := bitAt (genPolicy g) k
/-- SMBUS_OFF and V1_NET_OFF. -/
def genSmbusOff (g : List Byte) : Bool := bitAt (genPolicy g) 14
def genV1NetOff (g : List Byte) : Bool := bitAt (genPolicy g) 13

/-- The highest valid generation. -/
def FlashSt.validGen (f : FlashSt) : Option Nat := (List.range 4).reverse.find? (fun k => genValid (f.otp.getD k blankGeneration))

def FlashSt.gen (f : FlashSt) (k : Nat) : List Byte := f.otp.getD k blankGeneration

/-! ## Measured boot (R471) -/

/-- MEASk after an extension by a digest. -/
def extendMeas (m : List (List Byte)) (k : Nat) (d : List Byte) : List (List Byte) :=
  m.set k (sha384 (m.getD k zeroDigest ++ d))

/-- Image k of a slot: 0 the loader with the directory. -/
def FwSlot.image (w : FwSlot) (k : Nat) : List Byte := w.images.getD k []

/-- Whether an image passes the digest check of a generation. -/
def digestPasses (g : List Byte) (k : Nat) (d : List Byte) : Bool := decide (2 < k) || !genCheck g k || d == genExpect g k

/-- Whether a slot's version is not a rollback. -/
def versionPasses (g : List Byte) (w : FwSlot) : Bool := decide (genMinVersion g ≤ w.version)

/-- Whether a slot's loader may run. -/
def slotPasses (g : List Byte) (w : FwSlot) : Bool :=
  w.readable && digestPasses g 0 (sha384 (w.image 0)) && versionPasses g w

/-- POLICY_RESULT bits that trying a slot sets: 0 its loader failed its digest, 8 its version was refused. -/
def slotFaults (g : List Byte) (w : FwSlot) : Nat :=
  if !w.readable then 0
  else (!digestPasses g 0 (sha384 (w.image 0))).toNat + 256 * (!versionPasses g w).toNat

/-- What the boot ROM and the loader found: slot, MEAS0 to MEAS7, POLICY_RESULT, and whether retreat is asked for. -/
structure BootResult where
  slot : Nat
  meas : List (List Byte)
  policy : Nat
  retreat : Bool

/-- The bytes that MEAS6 covers. -/
def FlashSt.persistent (f : FlashSt) : List Byte :=
  Config.persistBytes f.ridgeMarks f.strandMarks (f.remaps.map Remap.word) (f.marks.map (fun m => [m.ch, m.rank, m.sub, m.device]))

/-- The boot algorithm from an active generation; none where neither slot can be read. -/
def FlashSt.boot (f : FlashSt) (g : List Byte) : Option BootResult :=
  if !f.slotA.readable && !f.slotB.readable then none
  else
    let a := slotPasses g f.slotA
    let b := slotPasses g f.slotB
    let slot := if a then 0 else if b then 1 else if f.slotA.readable then 0 else 1
    let w := if slot = 0 then f.slotA else f.slotB
    let tried := if a then 0 else slotFaults g f.slotA ||| slotFaults g f.slotB
    let meas := extendMeas (List.replicate 8 zeroDigest) 5 (sha384 (fitTo 508 g))
    let meas := [0, 1, 2, 3, 4].foldl (fun m k => extendMeas m k (sha384 (w.image k))) meas
    let failed := [1, 2, 3, 4].filter (fun k => !digestPasses g k (sha384 (w.image k)))
    some {
      slot := slot
      meas := extendMeas meas 6 (sha384 f.persistent)
      policy := (tried ||| sumNat (failed.map (fun k => 2 ^ k))) ||| (if a then 0 else 512)
      retreat := (!a && !b) || !failed.isEmpty }

/-! ## THERM_N and FAN_PWM (R486) -/

/-- THERM_N goes low at 100 degrees and is released at 97; it is held low after a trip (R488). -/
def State.driveTherm (s : State) (tj : Int) : State :=
  if s.sys.phase = .tripped then s
  else if 10000 ≤ tj ∧ s.sys.thermLow = false then
    ({ s with sys := { s.sys with thermLow := true } }).oinc 0x7000 13 1
  else if tj ≤ 9700 then { s with sys := { s.sys with thermLow := false } }
  else s

/-- FAN_PWM's duty in 3,000ths of a percent: linear in hundredths of a degree between 60 and 90 degrees. -/
def State.fanOf (s : State) : Nat :=
  let least := s.onum 0x7000 6
  let tj := s.tjNow
  if s.sys.phase ≠ .ready ∨ 9000 < tj ∨ (s.sys.state = .retreat ∧ bitAt (s.onum 0x7010 1) causeThermal = true) then 300000
  else if tj < 6000 then 3000 * least
  else 3000 * least + (100 - least) * (tj - 6000).toNat

def State.driveFan (s : State) : State := { s with sys := { s.sys with fanDuty := s.fanOf } }

/-! ## Release of RST_N and Basecamp ready (Table 17.3) -/

/-- Ports whose PERST_N has been released train, one released too early at this moment (R480, R508). -/
def State.trainReleased (s : State) : State :=
  let early := s.host.perstEarly
  let s := early.foldl (fun s h => s.setPerst h true) { s with host := { s.host with perstEarly := [] } }
  ((List.range 2).filter s.perst).foldl State.trainHost s

/-- RST_N_RELEASE: the boot ROM measures and loads the firmware, or stops with the host links untrained. -/
def State.rstRelease (s : State) : State :=
  if s.sys.phase ≠ .inReset ∨ s.sys.pwrgood = false then s
  else
    let s := { s with sys := { s.sys with rstN := true, releasedAt := s.now } }
    let k := s.flash.validGen
    let s := { s with mgmt := { s.mgmt with activeGen := k } }
    match k.bind (fun k => (s.flash.boot (s.flash.gen k)).map (fun b => (b, s.flash.gen k))) with
    | none => { s with sys := { s.sys with phase := .stopped } }
    | some (b, _) =>
      let w := if b.slot = 0 then s.flash.slotA else s.flash.slotB
      { s with
        sys := { s.sys with phase := .booting, bootRetreat := b.retreat }
        mgmt := { s.mgmt with
          meas := b.meas, fwVersion := w.version, bootSlot := b.slot, policyResult := b.policy } } |>.trainReleased

/-- BASECAMP_READY: the logical ridges and strands are assigned (R16, R17), retry status ends, what the boot found is recorded, HBM is zero, DDR5 training starts, and a device
with AUTO_FORM begins to form as it last was (R418, R425, R471, R480; log 48). -/
def State.basecampReady (s : State) : State :=
  if s.sys.phase ≠ .booting then s
  else
    let s := ({ s with sys := { s.sys with phase := .ready, state := .configuration } }).assignRidges.driveFan
    let s := ((List.range 2).filter (fun h => s.host.linksUp.any (fun l => l / 4 == h))).foldl (fun s h => s.emit (.configServed h)) s
    let s := if bitAt s.mgmt.policyResult 9 && s.mgmt.bootSlot == 1 then
        s.raise { severity := 2, source := 0x000E, w4 := objW4 0x8020 10 } else s
    let s := if s.sys.bootRetreat then
        (s.fatalDevice { severity := 4, source := 0x000E, w4 := objW4 0x8020 11 }).enterRetreat causeMeasurement else s
    let s := s.zeroHbm
    let s := if s.dram.dimmsAlike then s.startTraining
      else s.raise { severity := 4, source := 0x0001, cause := 0x000C, closing := some .never }
    if s.oflag 0x7000 9 then
      match s.formRequest s.sys.deviceCount s.sys.deviceId with
      | .ok t => t
      | .error _ => s
    else s

def execRstNRelease (s : State) : Res := .next s.rstRelease
def execBasecampReady (s : State) : Res := .next s.basecampReady

/-! ## Resets (Table 17.4) -/

/-- Everything at its reset value but what every reset keeps (OTP and flash), the clock, the host's memory, the pins that
the board drives, the sensors, and the count and ID of the last formation (log 48). -/
def State.cleared (s : State) : State :=
  { State.reset with
    now := s.now, freeCount := s.freeCount, flash := s.flash, out := s.out, pending := s.pending
    host := { HostSt.reset with mem := s.host.mem, perstEarly := s.host.perstEarly }
    power := { s.power with packageMw := 0 }
    dram := { DramSt.reset with dimmsAlike := s.dram.dimmsAlike }
    sys := { SysSt.reset with
      deviceCount := s.sys.deviceCount, deviceId := s.sys.deviceId
      pwrgood := s.sys.pwrgood, perst0 := s.sys.perst0, perst1 := s.sys.perst1
      thermLow := s.sys.thermLow && decide (9700 < s.tjNow) } }

/-- A device reset, as RST_N asserts it: start-up follows the release of RST_N (log 48). -/
def State.deviceReset (s : State) : State :=
  if s.sys.pwrgood = false then s
  else
    let s := if s.sys.tickOut then s.emit (.tickOut false) else s
    { s.cleared with sys := { s.cleared.sys with phase := .inReset, rstN := false } }

def execDeviceReset (s : State) : Res := .next s.deviceReset

/-- PWRGOOD_ASSERT: a power-on reset; FAN_PWM runs at 100 percent. -/
def State.pwrgoodAssert (s : State) : State :=
  if s.sys.pwrgood then s
  else
    { s with
      sys := { s.sys with pwrgood := true, phase := .inReset, rstN := false, highZ := false, fanDuty := 300000 }
      flash := { s.flash with powerCycles := min (2 ^ 32 - 1) (s.flash.powerCycles + 1) } }

/-- PWRGOOD_DEASSERT: every output floats and every memory is lost; the board drives its reset pins low again (log 48). -/
def State.pwrgoodDeassert (s : State) : State :=
  if s.sys.pwrgood = false then s
  else
    let t := s.cleared
    { (t.emit .highZ) with
      host := { t.host with perstEarly := [] }
      power := { PowerSt.reset with tj := s.power.tj }
      sys := { t.sys with
        phase := .off, pwrgood := false, rstN := false, perst0 := false, perst1 := false, highZ := true, thermLow := false
        fanDuty := 0 } }

def execPwrgoodAssert (s : State) : Res := .next s.pwrgoodAssert
def execPwrgoodDeassert (s : State) : Res := .next s.pwrgoodDeassert

/-! ## Temperature (R484 to R488) -/

/-- THERMAL_SAMPLE: the 22 sensors in hundredths of a degree; a list that is short leaves the others as they read. -/
def State.thermalSample (s : State) (centi : List Int) : State :=
  if s.sys.phase = .off then s
  else
    let tj := s.power.tj.zipIdx.map (fun p => centi.getD p.2 p.1)
    let s := { s with power := { s.power with tj := tj } }
    let now := s.tjNow
    let s := { s with power := { s.power with
      tjSum := s.power.tjSum + now, tjSamples := s.power.tjSamples + 1
      samplesAbove95 := s.power.samplesAbove95 + (if 9500 < now then 1 else 0) } }
    let s := s.driveTherm now
    let s := if 10500 ≤ now ∧ s.sys.phase = .ready ∧ s.sys.state ≠ .configuration then s.enterRetreat causeThermal else s
    s.driveFan

def execThermalSample (centi : List Int) (s : State) : Res := .next (s.thermalSample centi)

/-- The rails are off: what they held is lost, and the machine's own units stand as after reset (log 48). -/
def State.dropPower (s : State) : State :=
  { s with
    mem := [], routes := [], sched := SchedSt.reset, scn := [], cairn := CairnSt.reset, summit := SummitSt.reset
    depot := { DepotSt.reset with region := s.depot.region }
    strands := [], cache := CacheSt.reset, coh := CohSt.reset, link := LinkSt.reset
    host := { HostSt.reset with mem := s.host.mem }
    eng := EngSt.reset, dram := { DramSt.reset with dimmsAlike := s.dram.dimmsAlike }
    pitch := { s.pitch with running := false }
    sys := { s.sys with
      phase := .tripped, state := .retreat, thermLow := true, tickOut := false, fanDuty := 300000, exiting := false
      bivouacArmed := none } }

/-- The domains but 47 lose their power: what they held is lost (R488, R508). Basecamp, its objects, records and sessions
stay. -/
def State.cutPower (s : State) (address : Nat) : State :=
  if s.sys.phase = .off ∨ s.sys.phase = .tripped then s
  else
    let s := if s.sys.thermLow then s else s.oinc 0x7000 13 1
    let s := s.raise { severity := 4, source := 0x000D, address := address, closing := some .never }
    let s := (s.oset 0x7010 1 (setBit (s.onum 0x7010 1) causeFatal)).oset 0x5000 5 0
    let s := if s.sys.state = .retreat then s else s.oinc 0x7010 2 1
    let s := if s.sys.tickOut then s.emit (.tickOut false) else s
    s.dropPower

def execThermalTrip (s : State) : Res := .next (s.cutPower 0)

/-! ## Rails (R485, R508, Table 18.5) -/

/-- The rails in the order of Table 18.5: VDD_SERDES 0, VDD_SRAM 1, VDD_CORE 2, VDDQ_DDR 3, VDD_HBM 4, VDD_IO 5, VDD_AON 6. -/
def railAon : Nat := rails.length - 1

/-- RAIL_CURRENT_LIMIT: no new task is dispatched. -/
def State.railLimit (s : State) (rail : Nat) : State :=
  if railAon < rail ∨ s.sched.railsHeld.contains rail = true then s
  else { s with sched := { s.sched with railsHeld := s.sched.railsHeld ++ [rail] } }

/-- RAIL_CURRENT_FALL: the rail no longer holds tasks back. -/
def State.railFall (s : State) (rail : Nat) : State :=
  { s with sched := { s.sched with railsHeld := s.sched.railsHeld.filter (fun x => x != rail) } }

def execRailCurrentLimit (rail : Nat) (s : State) : Res := .next (s.railLimit rail)
def execRailCurrentFall (rail : Nat) (s : State) : Res := .next (s.railFall rail)

/-- RAIL_UNDERVOLTAGE: as the thermal trip; the record's ADDRESS names the rail (log 50). VDD_AON is left out. -/
def execRailUndervoltage (rail : Nat) (s : State) : Res := .next (if rail < railAon then s.cutPower rail else s)

/-! ## Pins, configuration requests, life objects -/

/-- TICK_OUT_FALL (R45). -/
def State.tickOutFall (s : State) : State :=
  if s.sys.tickOut then ({ s with sys := { s.sys with tickOut := false } }).emit (.tickOut false) else s

def execTickOutFall (s : State) : Res := .next s.tickOutFall

/-- CONFIGURATION_REQUEST: retry status until Basecamp is ready; a port whose links are not trained answers nothing. -/
def State.configRequest (s : State) (h : Nat) : State :=
  if !s.host.linksUp.any (fun l => l / 4 == h) then s
  else if s.sys.phase = .ready then s.emit (.configServed h)
  else if s.sys.phase = .booting then s.emit (.retryStatus h)
  else s

def execConfigurationRequest (port : Nat) (s : State) : Res := .next (s.configRequest (port % 2))

/-- Samples in a minute: one every 50 us (R484). -/
def samplesPerMinute : Nat := 1200000

/-- LIFE_OBJECTS_SAVE: one more hour of the averages goes to flash. -/
def State.saveLife (s : State) : State :=
  if s.sys.phase = .off then s
  else
    let hours := s.flash.poweredHours
    let mean : Int := if s.power.tjSamples = 0 then s.tjNow else s.power.tjSum / s.power.tjSamples
    let total := s.flash.tjAverage * hours + mean
    let average := total / (hours + 1) + (if total % (hours + 1) ≠ 0 ∧ Config.averageUp = true then 1 else 0)
    { s with
      flash := { s.flash with
        poweredHours := min (2 ^ 32 - 1) (hours + 1)
        tjAverage := average
        minutesAbove95 := s.flash.minutesAbove95 + s.power.samplesAbove95 / samplesPerMinute }
      power := { s.power with
        tjSum := 0, tjSamples := 0, samplesAbove95 := s.power.samplesAbove95 % samplesPerMinute } }

def execLifeObjectsSave (s : State) : Res := .next s.saveLife

end Sys2Proof.Machine
end

