-- ==== Sys2Proof/Machine/Dictionary.lean ====
section
/-! DEFINITION. What a read of the object dictionary returns: the members that show state held elsewhere, and the bytes of a
value (R8, R452, R453, R469, R475; the object tables of the chapters). -/
namespace Sys2Proof.Machine

/-! ## State shown by members -/

/-- O:0x1010.1 (Table 16.2). -/
def DevState.code : DevState → Nat
  | .configuration => 0
  | .forming => 1
  | .operational => 2
  | .bivouac => 3
  | .retreat => 4

def ChState.code : ChState → Nat
  | .absent => 0
  | .training => 1
  | .active => 2
  | .failed => 3

def PortMode.code : PortMode → Nat
  | .down => 0
  | .training => 1
  | .active => 2
  | .failover => 3
  | .retraining => 4
  | .disabled => 5

def CacheState.code : CacheState → Nat
  | .enabled => 0
  | .disabling => 1
  | .disabled => 2

def ChanState.code : ChanState → Nat
  | .idle => 0
  | .running => 1
  | .stopped => 2
  | .halted => 3

def DirState.code : DirState → Nat
  | .I => 0
  | .S => 1
  | .E => 2
  | .O => 3
  | .M => 4
  | .G => 5

/-- The bits of a list of numbers. -/
def bitsOf (l : List Nat) : Nat := sumNat (l.eraseDups.map (fun i => 2 ^ i))

/-! ### Power domains (Table 17.1, R475, R476) -/

/-- Whether a ridge pair is on as far as its ridges go: pair 15 serves physical ridges 15 and 16. -/
def State.pairServes (s : State) (p : Nat) : Bool := s.inService p || (p == 15 && s.inService 16)

/-- Whether a domain is on. -/
def State.domainOn (s : State) (d : Nat) : Bool :=
  let live := s.sys.phase == .ready
  let awake := live && s.sys.state != .bivouac
  let ridges := awake && (s.sys.state != .retreat || s.sys.exiting)
  if d = 47 then s.sys.phase != .off
  else if d = 46 then s.sys.phase != .off && s.sys.phase != .tripped
  else if d < 32 then ridges && s.pairServes (d % 16)
  else if d < 36 then awake && s.cacheState d != .disabled
  else if d < 38 then awake
  else if d < 42 then live
  else awake && (s.port (d - 42)).mode != .disabled && (s.port (d - 42)).mode != .down

/-- O:0x7000.8. -/
def State.domainBits (s : State) : Nat := bitsOf ((List.range 48).filter s.domainOn)

/-- RIDGE_STATE (Table 17.6); a ridge that failed with no spare left keeps its number but is not active. -/
def State.ridgeState (s : State) (p : Nat) : Nat :=
  if (s.logicalRidge p).isSome && !s.sys.retired.contains p then 0
  else if s.sys.spareRidge = some p then 1
  else if s.domainOn (min p 15) then 3
  else 2

/-! ### Links, channels, directory -/

/-- LINK_STATE of a host port (Table 13.13). -/
def State.linkState (s : State) (h : Nat) : Nat :=
  sumNat ((List.range (s.linkCount h)).map (fun k =>
    if s.host.linksUp.contains (h * 4 + k) then
      let t := (s.host.trained.find (h * 4 + k)).getD (0, 0)
      (t.1 % 16 * 16 + t.2 % 16) * 256 ^ k
    else 0))

/-- CHANNEL_STATE of a DMA channel (Table 14.13). -/
def State.channelWord (s : State) (c : Nat) : Nat :=
  let owner := ((List.range 32).find? (fun t => s.ownsChannel t c)).getD (Config.noOwner % 256)
  owner * 256 + (s.chan c).state.code

/-- A directory entry in the layout of Table 11.3; zero for a line without one. -/
def State.dirWord (s : State) (l : Nat) : Nat :=
  match s.coh.dir.find (l / 64) with
  | none => 0
  | some e =>
    e.state.code * 2 ^ 61 + e.pd.toNat * 2 ^ 60 + (s.dram.poisoned.find l).isSome.toNat * 2 ^ 59 + e.changed.toNat * 2 ^ 58
      + e.owner % 4096 * 2 ^ 46 + bitsOf e.ridges * 2 ^ 29 + bitsOf e.devices * 2 ^ 13 + e.rrv % 4 * 2 ^ 11

/-- MARKS of a channel (Table 15.9). -/
def State.marksWord (s : State) (ch : Nat) : Nat :=
  sumNat (((List.range 8).map (fun i =>
    match s.flash.marks.find? (fun m => m.ch == ch && 2 * m.rank + m.sub == i) with
    | some m => (128 + m.device % 16) * 256 ^ i
    | none => 0)))

def State.remapsIn (s : State) (ch : Nat) : Nat :=
  sumNat ((List.range 16).map (fun h =>
    (s.flash.remaps.filter (fun r => r.ch == ch && r.hbmChannel == h)).foldl (fun a r => max a (r.target + 1)) 0))

/-- The generation that is or will be active (R469). -/
def State.shownGen (s : State) : List Byte := s.flash.gen (s.flash.validGen.getD 0)

/-- A counter of waiting (CAIRN_WAITS, PANICS): zero at reset, open afterwards (log 59). -/
def State.timedView (s : State) (i m : Nat) : Int := if s.now = 0 then 0 else Config.timedCount i m s.now

/-! ## Views (log 54) -/

/-- Members of single objects that show state held elsewhere. -/
def State.viewOne (s : State) (i m : Nat) : Option Int :=
  match i, m with
  | 0x1000, 5 => some s.mgmt.fwVersion
  | 0x1010, 1 => some s.sys.state.code
  | 0x2002, 2 => some (128 * s.depot.journal.length)
  | 0x2004, 2 => some s.sched.ready.length
  | 0x3010, 7 => some (s.timedView 0x3010 7)
  | 0x3060, 1 => some s.openRoutes
  | 0x3080, 2 => some (sumNat ((List.range 4).map (fun q => (s.cacheState (32 + q)).code * 4 ^ q)))
  | 0x3090, 8 => some s.eng.contexts.length
  | 0x4000, 2 => some s.tier0Live
  | 0x4000, 3 => some (s.tierFree 0)
  | 0x4000, 4 => some (s.tierFree 1)
  | 0x4000, 5 => some s.depot.pages.length
  | 0x5200, 1 => some s.err.queue.length
  | 0x6100, 11 => some s.coh.dir.length
  | 0x7000, 4 => some s.tjNow
  | 0x7000, 8 => some s.domainBits
  | 0x7000, 10 => some 0
  | 0x7020, 1 => some s.flash.poweredHours
  | 0x7020, 2 => some s.flash.tjAverage
  | 0x7020, 3 => some (s.flash.minutesAbove95 / 60 : Nat)
  | 0x7020, 4 => some s.flash.powerCycles
  | 0x8000, 1 => some (s.mgmt.sessions.filter (fun x => x.established)).length
  | 0x8010, 1 => some (s.flash.validGen.getD 0)
  | 0x8010, 2 => some (s.flash.otp.filter (fun g => !genBurned g)).length
  | 0x8010, 3 => some (genPolicy s.shownGen)
  | 0x8010, 4 => some (genMinVersion s.shownGen)
  | 0x8020, 10 => some s.mgmt.bootSlot
  | 0x8020, 11 => some s.mgmt.policyResult
  | 0xF011, 2 => some (s.dirWord (s.onum 0xF011 1 / 64 * 64))
  | _, _ => none

/-- Members of repeated objects: the channels, stacks, ports, tenants and ridges. -/
def State.viewCopy (s : State) (i m : Nat) : Option Int :=
  if i = 0x3091 then some (s.channelWord (m - 1))
  else if i = 0x3092 then some (((s.chan (m - 1)).fault.map (fun f => f.addr)).getD 0)
  else if 0x5010 ≤ i ∧ i < 0x5110 ∧ i % 16 = 0 then
    let ch := (i - 0x5010) / 16
    if m = 1 then some (s.chanState ch).code
    else if m = 4 then some (s.remapsIn ch)
    else if m = 5 then some (s.marksWord ch)
    else if m = 6 then some (s.timedView i 6)
    else if m = 7 then some ((s.dram.scrubPos.find ch).getD 0)
    else none
  else if 0x6010 ≤ i ∧ i < 0x6050 ∧ i % 16 = 0 then
    let x := s.port ((i - 0x6010) / 16)
    if m = 1 then some x.mode.code
    else if m = 2 then some x.rate
    else if m = 3 then some x.width
    else if m = 4 then some x.lanes
    else if m = 5 then some x.neighbour
    else if m = 6 then some x.latency
    else none
  else if (i = 0x6080 ∨ i = 0x6090) ∧ m = 4 then some (s.linkState ((i - 0x6080) / 16))
  else if 0x9000 ≤ i ∧ i < 0x9800 then
    let t := (i - 0x9000) / 64
    let part := (i - 0x9000) % 64
    if part = 0 ∧ m = 1 then some (s.fnId t)
    else if part = 0 ∧ m = 7 then some (s.routes.filter (fun r => s.isHome r.key && r.key.tenant == t)).length
    else if part = 0x10 ∧ m = 2 then some (s.cairnHeld t)
    else if part = 0x20 ∧ m = 2 then some (s.depotQuota t)
    else if part = 0x20 ∧ m = 3 then some (s.depotUsed t)
    else if part = 0x20 ∧ m = 4 then some (s.spillGranted t)
    else if part = 0x20 ∧ m = 5 then some (s.spillUsed t)
    else if part = 0x20 ∧ m = 6 then some (s.outputsOpen t)
    else if part = 0x30 ∧ m = 1 then some (s.weightOf t)
    else none
  else if 0xA000 ≤ i ∧ i < 0xA220 then
    let p := (i - 0xA000) / 32
    let part := (i - 0xA000) % 32
    if part = 0 ∧ m = 1 then some (s.ridgeState p)
    else if part = 0 ∧ m = 2 then some (s.flash.ridgeMarks.contains p).toNat
    else if part = 8 ∧ m = 2 then some (s.cacheState p).code
    else none
  else none

/-- Members of stack H1; its counters are kept beyond the 16-bit indices (log 52). -/
def State.viewHbm (s : State) (i m : Nat) : Option Int :=
  if i ≠ 0x5110 then none
  else if m = 3 then some (s.remapsIn 17)
  else if m = 4 then some ((s.dram.scrubPos.find 17).getD 0)
  else some (s.oint 0x15110 m)

/-- Byte-string members that show state held elsewhere. -/
def State.viewBlob (s : State) (i m : Nat) : Option (List Byte) :=
  if i = 0x8010 ∧ m = 5 then some (genRootHash s.shownGen)
  else if i = 0x8010 ∧ 6 ≤ m ∧ m ≤ 8 then some (genExpect s.shownGen (m - 6))
  else if i = 0x8020 ∧ 1 ≤ m ∧ m ≤ 8 then some (s.mgmt.meas.getD (m - 1) zeroDigest)
  else if i = 0x8020 ∧ m = 9 then some s.mgmt.measExtend
  else none

/-- The value that a read of a member returns, but for the two members whose read takes a record away. -/
def State.objView (s : State) (i m : Nat) : ObjVal :=
  match s.viewBlob i m with
  | some b => .blob b
  | none =>
    match s.viewHbm i m with
    | some z => .num z
    | none =>
      match s.viewOne i m with
      | some z => .num z
      | none =>
        match s.viewCopy i m with
        | some z => .num z
        | none => s.obj i m

/-! ## Reading (R453, R448, R450) -/

/-- The bytes of a value at its type (Table 16.1). -/
def OTy.encode (ty : OTy) (v : ObjVal) : List Byte :=
  match v with
  | .num z =>
    match ty.width with
    | some w => natLe w (ofSigned (8 * w) z)
    | none => []
  | .blob b =>
    match ty with
    | .str32 => fitTo 32 b
    | .blob => natLe 2 b.length ++ b
    | _ => []

/-- A read of one member: its bytes, and the state after it. -/
def State.readMember (s : State) (i m : Nat) : List Byte × State :=
  if m = 0 then ([BitVec.ofNat 8 ((objHighest i).getD 0)], s)
  else if i = 0x5200 ∧ m = 2 then (OTy.blob.encode (.blob s.popRecord.1), s.popRecord.2)
  else if i = 0x5200 ∧ m = 4 then (OTy.blob.encode (.blob s.popLatch.1), s.popLatch.2)
  else
    match objRow? i m with
    | none => ([], s)
    | some r => (r.ty.encode (s.objView i m), s)

end Sys2Proof.Machine
end

