-- ==== Sys2Proof/Machine/Sweeps.lean ====
section
/-! DEFINITION. Cairn sweeps (R176 to R178, R447), cache maintenance (R303 to R305, Table 10.3) and the enabling and
disabling of caches (R306, R307). -/
namespace Sys2Proof.Machine

/-! ## Cairn sweeps -/

/-- Tenants whose host tables hold a row that fails parity while its shadow is uncorrectable (R447). -/
def State.lostRows (s : State) : List Nat :=
  (s.ownedBanks.filterMap (fun k =>
    match (s.bank k).owner with
    | .host t _ =>
      if (s.bank k).rows.any (fun p => !parityOk p.2 && s.shadowLost k p.1) then some t else none
    | _ => none)).eraseDups

/-- PARITY_SWEEP: one pass over all owned banks; a host table's row that cannot be repaired is fatal to its tenant. -/
def execParitySweep (s : State) : Res :=
  let lost := s.lostRows.filter (fun t => !s.resetting t)
  let s := s.paritySweep.ackDone
  .next (lost.foldl (fun s t => s.fatalTenant t { severity := 3, source := 0x0004, w4 := objW4 0x3030 3 }) s)

/-- SHADOW_SCRUB: one full pass of the scrub (R177). -/
def execShadowScrub (s : State) : Res := .next (s.ownedBanks.foldl State.scrubBank s)

/-! ## Maintenance operations (Table 10.3) -/

def cmoOp (c : Nat) : Nat := fld c 63 60
def cmoSetWay (c : Nat) : Bool := bitAt c 59
def cmoLevel (c : Nat) : Nat := fld c 58 57
def cmoRidge (c : Nat) : Nat := fld c 56 52
def cmoStrand (c : Nat) : Nat := fld c 51 48
def cmoSlice (c : Nat) : Nat := fld c 47 43
def cmoWay (c : Nat) : Nat := fld c 42 39
def cmoSet (c : Nat) : Nat := fld c 38 27

/-- A command with a reserved value, or beyond the named cache (R304); its reserved bits are ignored (R6). -/
def cmoBad (c : Nat) : Bool :=
  !(decide (1 ≤ cmoOp c) && decide (cmoOp c ≤ 3)) || (cmoSetWay c &&
    (if cmoLevel c = 0 then decide (16 < cmoRidge c) || decide (8 < cmoStrand c) || decide (4 ≤ cmoWay c) || decide (256 ≤ cmoSet c)
     else if cmoLevel c = 1 then
       decide (16 < cmoRidge c) || decide (8 < cmoStrand c) || decide (4 ≤ cmoWay c) || decide (128 ≤ cmoSet c)
     else if cmoLevel c = 2 then decide (16 < cmoRidge c) || decide (4096 ≤ cmoSet c)
     else decide (3072 ≤ cmoSet c)))

/-- Whether a command names a cache that is disabled (R304). -/
def State.cmoDisabled (s : State) (c : Nat) : Bool :=
  cmoSetWay c && (if cmoLevel c = 2 then s.cacheState (cmoRidge c) == .disabled
    else if cmoLevel c = 3 then s.sliceState (cmoSlice c) == .disabled else false)

/-- A write of CMO_COMMAND, whose reserved bits stay zero (R6): the operation becomes pending, or completes at once as refused or with nothing to act on. -/
def State.cmoWrite (s : State) (c : Nat) : State :=
  let s := s.oset 0xF010 1 (c / 2 ^ 27 * 2 ^ 27)
  if cmoBad c then s.oset 0xF010 3 3
  else if s.cmoDisabled c then s.oset 0xF010 3 2
  else ({ s with cache := { s.cache with cmoBusy := true } }).oset 0xF010 3 1

/-- The operation is done. -/
def State.cmoDone (s : State) : State := ({ s with cache := { s.cache with cmoBusy := false } }).oset 0xF010 3 2

/-- A fill or a write-back of a line is outstanding here, so an operation on it waits (Table 10.4). -/
def State.lineMoving (s : State) (l : Nat) : Bool :=
  s.coh.wbBuf.any (fun w => w.line == l)
    || s.coh.requests.any (fun r => r.msg.line == l && (s.fillRidge? r.purpose).isSome)

/-- The L2's way after CLEAN, or its eviction. -/
def State.cmoL2 (s : State) (ridge : Nat) (w : Way) (clean : Bool) : State :=
  if !clean then s.leaveL2 ridge w
  else if !w.dirty then s
  else
    let s := s.mapL2 ridge w.line Way.clean
    if lineDev w.line = s.sys.deviceId then s.setDir w.line ((s.dirEnt w.line).cleaned s.sys.deviceId)
    else (s.setRemote w.line ((s.remoteEnt w.line).1, .S)).proxyWb opWbDirty w.line w.data .S

/-- The way that a command by set and way names, if it holds a line. -/
def State.cmoTarget (s : State) (c : Nat) : Option Way :=
  let ws := if cmoLevel c = 0 then waysAt s.cache.l1d ((cmoRidge c * 9 + cmoStrand c) * 256 + cmoSet c) 4
    else if cmoLevel c = 1 then waysAt s.cache.l1i ((cmoRidge c * 9 + cmoStrand c) * 128 + cmoSet c) 4
    else if cmoLevel c = 2 then waysAt s.cache.l2 (cmoRidge c * 4096 + cmoSet c) 16
    else waysAt s.cache.slc (cmoSlice c * 3072 + cmoSet c) 16
  (ws[cmoWay c]?).bind (fun w => if w.state = .I ∨ w.fenced = true then none else some w)

/-- An operation by set and way acts on one line of one cache; a dirty line goes to the next level (R303). -/
def State.cmoBySet (s : State) (c : Nat) (w : Way) : State :=
  let clean := cmoOp c == 1
  let edit (m : SMap (List Way)) (key n : Nat) : SMap (List Way) :=
    m.put key (setWay (waysAt m key n) (cmoWay c) (if clean then w.clean else invalidWay))
  let d := (cmoRidge c * 9 + cmoStrand c) * 256 + cmoSet c
  let i := (cmoRidge c * 9 + cmoStrand c) * 128 + cmoSet c
  let k := cmoSlice c * 3072 + cmoSet c
  if cmoLevel c = 0 then
    let s := { s with cache := { s.cache with l1d := edit s.cache.l1d d 4 } }
    if w.dirty then s.mapL2 (cmoRidge c) w.line (fun x => { x with dirty := true }) else s
  else if cmoLevel c = 1 then
    if clean then s else { s with cache := { s.cache with l1i := edit s.cache.l1i i 4 } }
  else if cmoLevel c = 2 then s.cmoL2 (cmoRidge c) w clean
  else { s with cache := { s.cache with slc := edit s.cache.slc k 16 } }

/-- What an operation by address does to this device's copies of one of its own lines. -/
def State.cmoLocal (s : State) (l : Nat) (clean : Bool) : State :=
  let touch (m : SMap (List Way)) : SMap (List Way) := m.map (fun p => (p.1, p.2.map (fun w =>
    if w.holds l ∧ w.fenced = false then (if clean then w.clean else invalidWay) else w)))
  let s := { s with cache := { s.cache with
    l2 := touch s.cache.l2, l1d := touch s.cache.l1d, slc := touch s.cache.slc
    l1i := if clean then s.cache.l1i else touch s.cache.l1i } }
  if clean then s.setDir l ((s.dirEnt l).cleaned s.sys.deviceId)
  else
    let e := s.dirEnt l
    let e := { e with ridges := [] }
    s.setDir l (if e.devices.isEmpty ∧ (e.state ≠ .G ∨ agentDev e.owner = s.sys.deviceId) then DirEnt.empty else e)

/-- An operation by address (R303): a line homed here is done at once unless a peer holds it or its home is busy with it,
where the operation joins the line's queue (R305). -/
def State.cmoByAddress (s : State) (c : Nat) : State :=
  let a := s.onum 0xF010 2
  let l := imgLine a
  let clean := cmoOp c == 1
  let op := if clean then opCmoClean else opCmoCleanInval
  if !s.imgBacked a then s.cmoDone
  else if lineDev l = s.sys.deviceId then
    let s := if s.lineBusy l then s else s.cmoLocal l clean
    if (s.snoopPlan { op := op, src := s.agent locProxy, dst := s.homeAgent l, txn := 0, line := l }).1.isEmpty
        && !s.lineBusy l then s.cmoDone
    else
      let (t, s) := s.newTxn
      let m : CohMsg := { op := op, src := s.agent locProxy, dst := s.homeAgent l, txn := t, line := l }
      let r : OpenReq := { msg := m, purpose := .maint, token := none, sent := true, held := [] }
      ({ s with coh := { s.coh with requests := s.coh.requests ++ [r] } }).homeRequest m
  else (s.request { op := op, src := 0, dst := 0, txn := 0, line := l } locProxy .maint).2

/-- The pending operation of O:0xF010 runs, when it has the row's OP and nothing it must wait for. -/
def State.cmoRun (s : State) (op : Nat) : State :=
  let c := s.onum 0xF010 1
  if !s.cache.cmoBusy || cmoOp c != op then s
  else if s.coh.requests.any (fun r => r.purpose == .maint) then s
  else if cmoSetWay c then
    match s.cmoTarget c with
    | none => s.cmoDone
    | some w => if s.lineMoving w.line then s else (s.cmoBySet c w).cmoDone
  else if s.lineMoving (imgLine (s.onum 0xF010 2)) then s
  else s.cmoByAddress c

def execClean (s : State) : Res := .next (s.cmoRun 1)

/-- INVAL: of a dirty line it is carried out as CLEANINVAL (R303). -/
def execInval (s : State) : Res := .next (s.cmoRun 2)

def execCleaninval (s : State) : Res := .next (s.cmoRun 3)

/-! ## Enabling and disabling (R307) -/

def cacheKnown : CacheSel → Bool
  | .l2 r => decide (r ≤ 16)
  | .slc q => decide (q ≤ 3)

/-- The enable bit of a cache's object. -/
def State.setEnable (s : State) (c : CacheSel) (on : Bool) : State :=
  match c with
  | .l2 r => s.oset (robj 0xA008 r) 1 on.toNat
  | .slc q =>
    let v := s.onum 0x3080 1
    s.oset 0x3080 1 (if on then setBit v q else if bitAt v q then v - 2 ^ q else v)

/-- A write of enable = 0: an enabled cache starts its sweep. -/
def State.disableCache (s : State) (c : CacheSel) : State :=
  if cacheKnown c && s.cacheState (cacheKey c) == .enabled then (s.setEnable c false).setCacheState c .disabling else s

/-- A write of enable = 1: a sweep stops with the remaining lines kept; a disabled cache starts empty. -/
def State.enableCache (s : State) (c : CacheSel) : State :=
  if cacheKnown c && s.cacheState (cacheKey c) != .enabled then (s.setEnable c true).setCacheState c .enabled else s

/-- The sweep has passed the last set. -/
def State.sweepDone (s : State) (c : CacheSel) : State :=
  if cacheKnown c && s.cacheState (cacheKey c) == .disabling then
    let s := match c with
      | .l2 r => s.sweepL2 r
      | .slc q => s.sweepSlc q
    s.setCacheState c .disabled
  else s

def execCacheDisable (c : CacheSel) (s : State) : Res := .next (s.disableCache c)

def execCacheEnable (c : CacheSel) (s : State) : Res := .next (s.enableCache c)

def execCacheSweepDone (c : CacheSel) (s : State) : Res := .next (s.sweepDone c)

end Sys2Proof.Machine
end

