-- ==== Sys2Proof/Machine/Writes.lean ====
section
/-! DEFINITION. Writes of the object dictionary: values at their types, the checks of a member, what each write does, and OTP
generations (R298, R367, R396, R443, R453 to R456, R469, R470, R473, R477, R482, R483). -/
namespace Sys2Proof.Machine

/-! ## Results (Table 16.5) -/

def rsOk : Nat := 0x00
def rsBadObject : Nat := 0x01
def rsBadMember : Nat := 0x02
def rsAccess : Nat := 0x03
def rsState : Nat := 0x04
def rsSession : Nat := 0x05
def rsLength : Nat := 0x06
def rsRange : Nat := 0x07
def rsRefused : Nat := 0x08
def rsSequence : Nat := 0x09
def rsMalformed : Nat := 0x0A
def rsVersion : Nat := 0x0B
def rsBusy : Nat := 0x0C
def rsAuth : Nat := 0x0D
def rsOtpExhausted : Nat := 0x0E
def rsTransport : Nat := 0x0F

/-! ## Values (R453, Table 16.1) -/

/-- The value of a type at the front of some bytes, and what follows it. -/
def OTy.take (ty : OTy) (bs : List Byte) : Option (ObjVal × List Byte) :=
  match ty with
  | .blob =>
    let n := getLe bs 0 2
    if bs.length < 2 ∨ bs.length < 2 + n then none else some (.blob (sliceB bs 2 n), bs.drop (2 + n))
  | .str32 => if bs.length < 32 then none else some (.blob (bs.take 32), bs.drop 32)
  | .i32 => if bs.length < 4 then none else some (.num (BitVec.ofNat 32 (getLe bs 0 4)).toInt, bs.drop 4)
  | _ =>
    let w := ty.width.getD 0
    if bs.length < w then none else some (.num (getLe bs 0 w), bs.drop w)

/-- The lengths that a BLOB member takes; none: any. -/
def blobLengths (i m : Nat) : Option (List Nat) :=
  if i = 0x60A0 ∧ m = 6 then some [0, 18]
  else if i = 0x60A0 ∧ m = 11 then some [0, 16]
  else if i = 0x8010 then some [48]
  else if i = 0x8020 then some [48]
  else if i = 0xF012 ∧ m = 2 then some [64]
  else if i = 0xF012 ∧ m = 3 then some [16, 8]
  else if i = 0xF012 ∧ m = 6 then some [1]
  else none

/-- Whether a number is one of the steps that its member allows. -/
def stepOk (i m : Nat) (z : Int) : Bool :=
  if i = 0x2002 ∧ m = 1 then z % 256 == 0
  else if i = 0x5000 ∧ m = 4 then z == 4800 || z == 5600 || z == 6400
  else if 0x9000 ≤ i ∧ i < 0x9800 ∧ (i - 0x9000) % 64 = 0x38 ∧ (m = 3 ∨ m = 4) then z % mib2 == 0
  else true

/-- What is wrong with a value by itself. -/
def ObjRow.valueFault (r : ObjRow) (i m : Nat) (v : ObjVal) : Option Nat :=
  match v with
  | .num z =>
    let (lo, hi) := r.range.getD r.ty.bounds
    if z < lo ∨ hi < z ∨ stepOk i m z = false then some rsRange else none
  | .blob b =>
    match blobLengths i m with
    | some l => if l.contains b.length then none else some rsLength
    | none => if 1000 < b.length then some rsLength else none

/-- What the access code forbids a write, in a session or outside one (Table 00.2, R460). -/
def State.writeFault (s : State) (a : Acc) (inSession : Bool) : Option Nat :=
  let conf := s.sys.state == .configuration
  match a with
  | .ro => some rsAccess
  | .rw => none
  | .wo => none
  | .rwc => if conf then none else some rsState
  | .rws => if inSession then none else some rsSession
  | .otp => if !inSession then some rsSession else if conf then none else some rsState

/-! ## L2 partitions (R297, R298) -/

/-- The fields of a partition entry that a write sets (Table 10.2). -/
def partFields (z : Nat) : Nat := fld z 63 56 * 2 ^ 56 + fld z 47 40 * 2 ^ 40 + fld z 31 0

/-- Whether an entry stands with the others of its ridge: it has a pair, shares none, is the only one of its key, and leaves
a pair to the default partition. -/
def State.partStands (s : State) (i m : Nat) : Bool :=
  let all := (List.range 8).map (fun e => (e + 3, s.onum i (e + 3)))
  let valid := all.filter (fun p => bitAt p.2 63)
  let w := s.onum i m
  let others := valid.filter (fun p => p.1 != m)
  let pairs := fld w 47 40
  let used := valid.foldl (fun acc p => acc ||| fld p.2 47 40) 0
  !bitAt w 63
    || (pairs != 0 && others.all (fun p => fld p.2 47 40 &&& pairs == 0 && fld p.2 62 57 * 2 ^ 32 + fld p.2 31 0 != fld w 62 57 * 2 ^ 32 + fld w 31 0)
      && used != 255)

/-! ## What a write does -/

/-- A refusal: its result and, where it is not the member's number, its payload. -/
abbrev WFail := Nat × Option (List Byte)

/-- A request of STATE_REQUEST (R456, R477), outside whose range lie the values that name no change (DEDUCED, log 54); the count and ID of a formation stay as they were last fixed (log 48). -/
def State.stateRequest (s : State) (v : Nat) : Except WFail State :=
  let r := if v = 1 then s.returnRequest
    else if v = 2 then s.formRequest s.sys.deviceCount s.sys.deviceId
    else if v = 3 then s.bivouacRequest
    else if v = 4 then s.retreatRequest
    else if v = 5 then s.exitRequest
    else .error none
  if v = 0 ∨ 5 < v then .error (rsRange, none)
  else match r with
  | .ok t => .ok (t.oset 0x1010 2 v)
  | .error none => .error (rsRefused, none)
  | .error (some (i, m)) => .error (rsRefused, some (natLe 2 i ++ natLe 1 m))

/-- MEAS7 is extended by a digest (R473). -/
def State.extendSeven (s : State) (d : List Byte) : State :=
  { s with mgmt := { s.mgmt with meas := extendMeas s.mgmt.meas 7 d, measExtend := d } }

/-- A write of DMA_CHANNELS (R396). -/
def State.setChannels (s : State) (t v : Nat) : Except WFail State :=
  let old := s.onum (tobj 0x9038 t) 1
  if (List.range 32).any (fun u => u != t && s.onum (tobj 0x9038 u) 1 &&& v != 0)
      || (List.range 64).any (fun c => bitAt old c && !bitAt v c && (s.chan c).state != .idle) then .error (rsRefused, none)
  else .ok (s.oset (tobj 0x9038 t) 1 v)

/-- A write of SLC_ENABLE: bits 7 to 4 are ignored. -/
def State.setSlc (s : State) (v : Nat) : State :=
  (List.range 4).foldl (fun s q => if bitAt v q then s.enableCache (.slc q) else s.disableCache (.slc q)) s

/-- A write of TEST_COMMAND (R443). -/
def State.testWrite (s : State) (v : Nat) : State :=
  if v = 1 then s.testWriteClean
  else if v = 2 then s.testWriteGiven
  else if v = 3 then s.testReadRaw
  else s.oset 0xF012 5 3

/-- Members of single objects whose write does more than store the value, or stores only part of it. -/
def State.writeOne (s : State) (i m : Nat) (v : Nat) : Option (Except WFail State) :=
  match i, m with
  | 0x1010, 2 => some (s.stateRequest v)
  | 0x2001, 5 => some (.ok (let t := s.oset 0x2001 5 v
                            if v = 0 then t.tickOutFall else t))
  | 0x3080, 1 => some (.ok (s.setSlc v))
  | 0x6090, 3 => some (if v = 1 then .error (rsRefused, none) else .ok (s.oset 0x6090 3 v))
  | 0x7000, 6 => some (.ok (s.oset 0x7000 6 v).driveFan)
  | 0xF010, 1 => some (if s.onum 0xF010 3 = 1 then .error (rsAccess, none) else .ok (s.cmoWrite v))
  | 0xF010, 2 => some (if s.onum 0xF010 3 = 1 then .error (rsAccess, none) else .ok (s.oset 0xF010 2 (v / 64 * 64)))
  | 0xF012, 4 => some (.ok (s.testWrite v))
  | _, _ => none

/-- Whether every channel that a tenant owns is IDLE (R417). -/
def State.channelsIdle (s : State) (t : Nat) : Bool :=
  (List.range 64).all (fun c => !s.ownsChannel t c || (s.chan c).state == .idle)

/-- A member of tenant t's objects, at a place in its 64 numbers. -/
def State.writeTenant (s : State) (t part m v : Nat) : Option (Except WFail State) :=
  if part = 0 ∧ m = 6 then some (.ok (if v = 1 then s.startReset t .management else s))
  else if part = 0x38 ∧ m = 1 then some (s.setChannels t v)
  else if part = 0x38 ∧ s.channelsIdle t = false then some (.error (rsRefused, none))
  else none

/-- A member of ridge p's objects, at a place in its 32 numbers. -/
def State.writeRidge (s : State) (i p part m v : Nat) : Option (Except WFail State) :=
  if part = 0 ∧ m = 2 then some (.ok (if v = 1 then s.ridgeRetire p else s.ridgeUnretire p))
  else if part = 4 ∧ m = 1 then some (.ok (s.oset i 1 (v % 512)))
  else if part = 8 ∧ m = 1 then some (.ok (if v = 1 then s.enableCache (.l2 p) else s.disableCache (.l2 p)))
  else if part = 8 ∧ 3 ≤ m ∧ m ≤ 10 then some (.ok (s.oset i m (partFields v)))
  else none

/-- The same for repeated objects. -/
def State.writeCopy (s : State) (i m v : Nat) : Option (Except WFail State) :=
  if 0x6010 ≤ i ∧ i < 0x6050 ∧ i % 16 = 0 ∧ m = 13 then
    some (.ok (if v = 1 then s.startRetrain ((i - 0x6010) / 16) else s))
  else if 0x9000 ≤ i ∧ i < 0x9800 then s.writeTenant (i / 64 % 64) (i % 64) m v
  else if 0xA000 ≤ i ∧ i < 0xA220 then s.writeRidge i (i / 32 % 32) (i % 32) m v
  else none

/-- A write of a BLOB member. -/
def State.writeBlob (s : State) (i m : Nat) (b : List Byte) : Except WFail State :=
  if i = 0x8020 ∧ m = 9 then .ok (s.extendSeven b)
  else if i = 0xF012 ∧ m = 6 then
    if getLe b 0 1 < 18 then .ok (s.remapRead (getLe b 0 1)) else .error (rsRefused, none)
  else .ok (s.oput i m (.blob b))

/-- What a write of one member does, once its value and access are in order. -/
def State.writeMember (s : State) (i m : Nat) (v : ObjVal) : Except WFail State :=
  match v with
  | .blob b => s.writeBlob i m b
  | .num z =>
    match s.writeOne i m z.toNat with
    | some r => r
    | none =>
      match s.writeCopy i m z.toNat with
      | some r => r
      | none => .ok (s.oput i m v)

/-- The first of some members that a rule refuses, or the state after all of them. -/
def State.writeMembers (s : State) (i : Nat) : List (Nat × ObjVal) → Except (Nat × WFail) State
  | [] => .ok s
  | (m, v) :: l =>
    match s.writeMember i m v with
    | .ok t => t.writeMembers i l
    | .error e => .error (m, e)

/-- The written partition entry that does not stand, if one does not. -/
def State.partFault (s : State) (i : Nat) (ms : List Nat) : Option Nat :=
  if 0xA000 ≤ i ∧ i < 0xA220 ∧ (i - 0xA000) % 32 = 8 then
    ms.find? (fun m => decide (3 ≤ m) && decide (m ≤ 10) && !s.partStands i m)
  else none

/-! ## OTP (R469, R470) -/

/-- The bits of POLICY that are not reserved (Table 16.10). -/
def policyMask : Nat := 0x7007

/-- A generation with one member changed. -/
def genWith (g : List Byte) (m : Nat) (v : ObjVal) : List Byte :=
  match v with
  | .num z =>
    if m = 3 then overlay g 2 (natLe 2 (z.toNat &&& policyMask))
    else if m = 4 then overlay g 4 (natLe 4 z.toNat)
    else g
  | .blob b => if m = 5 then overlay g 16 b else if 6 ≤ m ∧ m ≤ 8 then overlay g (64 + 48 * (m - 6)) b else g

/-- A generation with its CRC. -/
def genSealed (g : List Byte) : List Byte := overlay g 508 (natLe 4 (crc32c (fitTo 508 g)))

/-- One WRITE of OTP members burns the next unburned generation (log 54). -/
def State.burnOtp (s : State) (l : List (Nat × ObjVal)) : Except (Nat × WFail) State :=
  match (List.range 4).find? (fun k => !genBurned (s.flash.gen k)) with
  | none => .error ((l.head?.map (fun p => p.1)).getD 0, (rsOtpExhausted, none))
  | some k =>
    let g := genSealed (l.foldl (fun g p => genWith g p.1 p.2) s.shownGen)
    .ok { s with flash := { s.flash with otp := s.flash.otp.set k g } }

/-! ## One WRITE (R454, R456, R514) -/

/-- The first member that its own checks refuse. -/
def State.checkMembers (s : State) (i : Nat) (inSession : Bool) (l : List (Nat × ObjVal)) : Option (Nat × WFail) :=
  l.findSome? (fun p =>
    match objRow? i p.1 with
    | none => some (p.1, (if p.1 = 0 then rsAccess else rsBadMember, none))
    | some r =>
      match s.writeFault r.acc inSession with
      | some e => some (p.1, (e, none))
      | none => (r.valueFault i p.1 p.2).map (fun e => (p.1, (e, none))))

/-- HEARTBEAT_TIMEOUT is at least three times HEARTBEAT_PERIOD (Table 11.9). -/
def State.beatsOk (s : State) : Bool := decide (3 * s.onum 0x6100 1 ≤ s.onum 0x6100 2)

/-- A WRITE of members of one object: all of them, or none. -/
def State.writeObject (s : State) (i : Nat) (inSession : Bool) (l : List (Nat × ObjVal)) : Except (Nat × WFail) State :=
  match s.checkMembers i inSession l with
  | some e => .error e
  | none =>
    if i = 0x8010 then s.burnOtp l
    else
      match s.writeMembers i l with
      | .error e => .error e
      | .ok t =>
        match t.partFault i (l.map (fun p => p.1)) with
        | some m => .error (m, (rsRefused, none))
        | none =>
          if i = 0x6100 ∧ t.beatsOk = false then .error ((l.head?.map (fun p => p.1)).getD 0, (rsRange, none)) else .ok t

/-- The device reset that a write of 1 to DEVICE_RESET starts, once its answer has been sent; RST_N stays high, so start-up
follows at once (log 48). -/
def State.settleReset (s : State) : State := if s.oflag 0x7000 10 then s.deviceReset.rstRelease else s

end Sys2Proof.Machine
end

