-- ==== Sys2Proof/Machine/Brix.lean ====
section
/-! DEFINITION. Brix: headers, checks, violations, sequence contexts, the operations, sessions and events (R454, R457 to R464,
R467, R473, R514). -/
namespace Sys2Proof.Machine

/-! ## Operations and headers (Tables 16.3 and 16.4) -/

def opPing : Nat := 0x01
def opRead : Nat := 0x02
def opWrite : Nat := 0x03
def opList : Nat := 0x04
def opSessionOpen : Nat := 0x10
def opSessionFinish : Nat := 0x11
def opSessionClose : Nat := 0x12
def opMeasure : Nat := 0x20
def opEvent : Nat := 0x30
def opEventAck : Nat := 0x31

/-- Whether an operation belongs to a version. -/
def opInVersion (version op : Nat) : Bool :=
  decide (1 ≤ op) && (decide (op ≤ 3) || (version == 2
    && (op == opList || op == opSessionOpen || op == opSessionFinish || op == opSessionClose || op == opMeasure || op == opEventAck)))

/-- A header with CHECK zero; `flags` are bits 31 to 16 of W0. -/
def brixHeader (version op flags seq session length : Nat) : List Byte :=
  bytesOfWords
    [0x7C40 * 2 ^ 48 + version % 256 * 2 ^ 40 + op % 256 * 2 ^ 32 + flags % 65536 * 2 ^ 16 + seq % 65536,
     session % 2 ^ 32 * 2 ^ 32 + length % 65536 * 2 ^ 16, 0, 0]

/-- The sixteen bytes of CHECK over a message whose CHECK is zero: CRC-32C outside a session, the MAC within one, zero on a
mailbox (Table 16.3; log 51). -/
def brixCheck (src : BrixSrc) (key : Option (List Byte)) (plain : List Byte) : List Byte :=
  match src, key with
  | .mailbox _, _ => zeros 16
  | _, some k => fitTo 16 (hmac 2 k plain)
  | _, none => natLe 4 0 ++ natLe 4 (crc32c plain) ++ zeros 8

/-- A message with its CHECK in place. -/
def brixSeal (src : BrixSrc) (key : Option (List Byte)) (plain : List Byte) : List Byte :=
  overlay plain 16 (brixCheck src key plain)

/-- The bytes of a request as its row gives it. -/
def reqBytes (r : BrixReq) : List Byte :=
  overlay (brixHeader r.version r.op 0 r.seq r.session r.payload.length ++ r.payload) 16 (natLe 16 r.check)

/-- The largest payload of a transport (R464, R514). -/
def brixLimit : BrixSrc → Nat
  | .smbus => 223
  | _ => 1024

/-- Transports, as violation answers are counted: 0 Ethernet, 1 SMBus, 2 mailbox (R462). -/
def srcTransport : BrixSrc → Nat
  | .udp _ _ => 0
  | .smbus => 1
  | .mailbox _ => 2

/-! ## Answers -/

/-- The bytes of an answer. -/
def brixAnswer (src : BrixSrc) (key : Option (List Byte)) (version op seq session result : Nat) (payload : List Byte) : List Byte :=
  let flags := 32768 + (if result = rsOk then 0 else 16384) + result % 256
  brixSeal src key (brixHeader version op flags seq session payload.length ++ payload)

/-- Puts an answer into a function's mailbox: it is complete, and vector 63 is signalled (R465). -/
def State.mailboxAnswer (s : State) (t : Nat) (b : List Byte) : State :=
  (s.mapFn t (fun f => { f with mbResponse := (f.mbResponse.clear 0 0x420).writeN 0 b, mbDone := true })).signal t 63

/-- An answer leaves on the transport of its request. -/
def State.sendAnswer (s : State) (src : BrixSrc) (b : List Byte) : State :=
  match src with
  | .mailbox t => s.mailboxAnswer t b
  | _ => s.emit (.brix src b)

/-- Half nanoseconds in a second. -/
def secondClocks : Nat := 2000000000

/-- Counts a violation; whether it may be answered: at most 1,000 in a second of a transport (R462). -/
def State.noteViolation (s : State) (src : BrixSrc) : Bool × State :=
  let s := s.oinc 0x60A0 8 1
  let now := s.now / secondClocks
  let k := srcTransport src
  let (sec, n) := (s.mgmt.violationBudget.find k).getD (now, 0)
  let n := if sec = now then n else 0
  (decide (n < 1000),
    { s with mgmt := { s.mgmt with violationBudget := s.mgmt.violationBudget.put k (now, min 1000 (n + 1)) } })

/-! ## Sessions and sequence contexts (R459, R461) -/

def State.session? (s : State) (id : Nat) (src : BrixSrc) : Option Session :=
  s.mgmt.sessions.find? (fun x => x.id == id && x.src == src)

def State.dropSession (s : State) (id : Nat) : State :=
  { s with mgmt := { s.mgmt with sessions := s.mgmt.sessions.filter (fun x => x.id != id) } }

def State.updSession (s : State) (id : Nat) (f : Session → Session) : State :=
  { s with mgmt := { s.mgmt with sessions := s.mgmt.sessions.map (fun x => if x.id == id then f x else x) } }

/-- Keeps the answer of a request in its source's context; the seventeenth context takes the place of the one that was used
longest ago. -/
def State.keepAnswer (s : State) (src : BrixSrc) (seq : Nat) (b : List Byte) : State :=
  let rest := s.mgmt.contexts.filter (fun c => c.src != src)
  let rest := if 16 ≤ rest.length then rest.drop 1 else rest
  { s with mgmt := { s.mgmt with contexts := rest ++ [({ src := src, lastSeq := seq, stored := b } : SeqCtx)] } }

/-- A context becomes the most recently used. -/
def State.touchContext (s : State) (c : SeqCtx) : State :=
  { s with mgmt := { s.mgmt with contexts := s.mgmt.contexts.filter (fun x => x.src != c.src) ++ [c] } }

/-! ## READ and WRITE (R457, R464, R465, R514) -/

/-- Whether a mailbox without the full dictionary reaches an object (R465). -/
def mailboxReach (t i : Nat) : Bool :=
  decide (0x1000 ≤ i) && decide (i < 0x2000) || i == 0x8020 || decide (0x9000 + 0x40 * t ≤ i) && decide (i ≤ 0x9000 + 0x40 * t + 0x3F)

/-- Whether a source reaches an object at all: a mailbox outside MAILBOX_ADMIN only reads the objects of R465. -/
def State.reaches (s : State) (src : BrixSrc) (i : Nat) (write : Bool) : Bool :=
  match src with
  | .mailbox t => bitAt (s.onum 0x8000 3) t || (!write && mailboxReach t i)
  | _ => true

/-- What forbids a source the access to a member: transport, session, access code. -/
def State.accessFault (s : State) (src : BrixSrc) (inSession : Bool) (i : Nat) (acc : Acc) (write : Bool) : Option Nat :=
  if !s.reaches src i write then some rsTransport
  else if src == .smbus && (acc == .rws || acc == .otp) then some rsTransport
  else if write then s.writeFault acc inSession
  else if acc == .wo then some rsAccess
  else if acc == .rws && !inSession then some rsSession
  else none

/-- The access code of a member; member 0 is read-only. -/
def memberAcc (i m : Nat) : Option Acc := if m = 0 then some .ro else (objRow? i m).map (fun r => r.acc)

/-- The first of some members that may not be accessed. -/
def State.accessFaults (s : State) (src : BrixSrc) (inSession : Bool) (i : Nat) (write : Bool) (ms : List Nat) : Option (Nat × Nat) :=
  ms.findSome? (fun m =>
    match memberAcc i m with
    | none => some (m, rsBadMember)
    | some a => (s.accessFault src inSession i a write).map (fun e => (m, e)))

/-- The bytes of members in order, up to a limit; the first member that does not fit otherwise. -/
def State.readMembers (s : State) (i room : Nat) : List Nat → Except Nat (List Byte × State)
  | [] => .ok ([], s)
  | m :: l =>
    let (b, t) := s.readMember i m
    if room < b.length then .error m
    else
      match t.readMembers i (room - b.length) l with
      | .ok (r, u) => .ok (b ++ r, u)
      | .error e => .error e

/-- What an operation answers: its result, its payload, and the state it leaves. -/
abbrev BrixRes := Nat × List Byte × State

/-- A failure that leaves the state as it is. -/
def State.failed (s : State) (result : Nat) (payload : List Byte) : BrixRes := (result, payload, s)

def oneByte (n : Nat) : List Byte := [BitVec.ofNat 8 n]

/-- READ. -/
def State.doRead (s : State) (src : BrixSrc) (inSession : Bool) (p : List Byte) : BrixRes :=
  let i := getLe p 0 2
  let first := getLe p 2 1
  let count := getLe p 3 1
  if p.length ≠ 4 then s.failed rsLength []
  else if count = 0 ∨ 64 < count then s.failed rsMalformed []
  else
    match objHighest i with
    | none => s.failed (if s.reaches src i false then rsBadObject else rsTransport) (oneByte first)
    | some top =>
      let ms := (List.range count).map (fun k => first + k)
      match s.accessFaults src inSession i false ms with
      | some (m, e) => s.failed (if top < m then rsBadMember else e) (oneByte m)
      | none =>
        match s.readMembers i (brixLimit src) ms with
        | .ok (b, t) => (rsOk, b, t)
        | .error m => s.failed rsLength (oneByte m)

/-- The values of a WRITE, taken in member order at their types; none where they end early or leave bytes. -/
def takeValues (i : Nat) (bs : List Byte) : List Nat → Option (List (Nat × ObjVal))
  | [] => if bs.isEmpty then some [] else none
  | m :: l =>
    let ty := if m = 0 then some OTy.u8 else (objRow? i m).map (fun r => r.ty)
    match ty.bind (fun ty => ty.take bs) with
    | none => none
    | some (v, rest) => (takeValues i rest l).map (fun r => (m, v) :: r)

/-- WRITE. -/
def State.doWrite (s : State) (src : BrixSrc) (inSession : Bool) (p : List Byte) : BrixRes :=
  let i := getLe p 0 2
  let first := getLe p 2 1
  let count := getLe p 3 1
  if p.length < 4 then s.failed rsLength []
  else if count = 0 ∨ 64 < count then s.failed rsMalformed []
  else
    match objHighest i with
    | none => s.failed (if s.reaches src i true then rsBadObject else rsTransport) (oneByte first)
    | some _ =>
      let ms := (List.range count).map (fun k => first + k)
      match ms.find? (fun m => (memberAcc i m).isNone) with
      | some m => s.failed (if s.reaches src i true then rsBadMember else rsTransport) (oneByte m)
      | none =>
        match takeValues i (p.drop 4) ms with
        | none => s.failed rsLength []
        | some l =>
          match s.accessFaults src inSession i true ms with
          | some (m, e) => s.failed e (oneByte m)
          | none =>
            match s.writeObject i inSession l with
            | .ok t => (rsOk, [], t)
            | .error (m, e, pay) => s.failed e (pay.getD (oneByte m))

/-- LIST: the objects above an index. -/
def doList (p : List Byte) : Nat × List Byte :=
  if p.length ≠ 2 then (rsLength, [])
  else
    let above := (objIndices.filter (fun i => decide (getLe p 0 2 < i))).take 120
    (rsOk, above.flatMap (fun i =>
      let rows := objTable.filter (fun r => (r.copy? i).isSome)
      natLe 2 i ++ oneByte ((objHighest i).getD 0)
        ++ oneByte ((rows.any (fun r => r.acc == .rws)).toNat + 2 * (rows.any (fun r => r.acc == .otp)).toNat)))

/-! ## Sessions (R458, R459) -/

/-- SESSION_OPEN: the device answers with a point, a nonce, a SESSION_ID and a signature. -/
def State.doOpen (s : State) (src : BrixSrc) (p : List Byte) : BrixRes :=
  if p.length ≠ 128 then s.failed rsLength []
  else if s.mgmt.lockedOut.contains src then s.failed rsAuth []
  else if 4 ≤ s.mgmt.sessions.length then s.failed rsBusy []
  else
    let draw := s.freeCount
    let (nonce, s) := s.free 256
    let id := s.mgmt.nextSession
    let said := fitTo 96 (Config.ecPublic draw) ++ natLe 32 nonce.toNat ++ natLe 4 id
    let transcript := p ++ said
    let x : Session := {
      id := id, src := src, established := false, transcript := transcript
      macKey := Config.ecdhShared draw (p.take 96), expectSeq := 0, stored := none }
    (rsOk, said ++ fitTo 96 (Config.ecSign draw (sha384 transcript)),
      { s with mgmt := { s.mgmt with sessions := s.mgmt.sessions ++ [x], nextSession := id % (2 ^ 32 - 1) + 1 } })

/-- A failed set-up; the third within 60 s makes the device refuse its source (R459). -/
def State.setupFailed (s : State) (src : BrixSrc) (id : Nat) : State :=
  let recent := s.mgmt.failures.filter (fun f => decide (s.now < f.2 + 60 * secondClocks)) ++ [(src, s.now)]
  let s := s.dropSession id
  { s with mgmt := { s.mgmt with
      failures := recent
      lockedOut := if 3 ≤ (recent.filter (fun f => f.1 == src)).length ∧ s.mgmt.lockedOut.contains src = false then
        s.mgmt.lockedOut ++ [src] else s.mgmt.lockedOut } }

/-- SESSION_FINISH: the manager's key must be the one whose digest the active generation holds, and its signature must
verify. -/
def State.doFinish (s : State) (src : BrixSrc) (id : Nat) (p : List Byte) : BrixRes :=
  if p.length ≠ 192 then s.failed rsLength []
  else
    match s.session? id src with
    | none => s.failed rsSession []
    | some x =>
      let key := p.take 96
      let transcript := x.transcript ++ key
      let root := genRootHash (s.flash.gen (s.mgmt.activeGen.getD 0))
      if x.established then s.failed rsAuth []
      else if sha384 key = root ∧ Config.ecVerify key (sha384 transcript) (p.drop 96) = true then
        (rsOk, [], s.updSession id (fun x => { x with
          established := true, transcript := transcript
          macKey := hkdf384 x.macKey (sha384 transcript) (ascii "brix mac") }))
      else (rsAuth, [], s.setupFailed src id)

/-! ## MEASURE and EVENT_ACK (Table 16.9, R467) -/

/-- MEASURE: the registers, signed with the answer's header. -/
def State.doMeasure (s : State) (version seq session : Nat) (p : List Byte) : BrixRes :=
  if p.length ≠ 32 then s.failed rsLength []
  else
    let body := p ++ s.mgmt.meas.flatMap (fitTo 48) ++ natLe 4 s.mgmt.fwVersion ++ oneByte (s.mgmt.activeGen.getD 0)
      ++ oneByte s.mgmt.bootSlot ++ natLe 2 s.mgmt.policyResult
    let draw := s.freeCount
    let s := { s with freeCount := s.freeCount + 1 }
    let header := brixHeader version opMeasure 32768 seq session 520
    (rsOk, body ++ fitTo 96 (Config.ecSign draw (sha384 (header ++ body))), s)

/-- EVENT_ACK: the event named is not sent again. -/
def State.doAck (s : State) (p : List Byte) : BrixRes :=
  if p.length ≠ 2 then s.failed rsLength []
  else (rsOk, [], { s with mgmt := { s.mgmt with events := s.mgmt.events.filter (fun e => e.seq != getLe p 0 2) } })

/-- One operation. -/
def State.brixAct (s : State) (src : BrixSrc) (version op seq session : Nat) (inSession : Bool) (p : List Byte) : BrixRes :=
  if src = .smbus ∧ (version ≠ 1 ∨ 3 < op) then s.failed rsTransport []
  else if op = opPing then (if p.isEmpty then (rsOk, oneByte s.sys.state.code, s) else s.failed rsLength [])
  else if op = opRead then s.doRead src inSession p
  else if op = opWrite then s.doWrite src inSession p
  else if op = opList then ((doList p).1, (doList p).2, s)
  else if op = opSessionOpen then s.doOpen src p
  else if op = opSessionFinish then s.doFinish src session p
  else if op = opSessionClose then
    (if !p.isEmpty then s.failed rsLength [] else if inSession then (rsOk, [], s.dropSession session) else s.failed rsSession [])
  else if op = opMeasure then s.doMeasure version seq session p
  else s.doAck p

/-! ## A message (R461, R462, Table 16.6) -/

/-- What becomes of a message before it is acted on. -/
inductive BrixFate where
  /-- Dropped without an answer; `mac` where a session's MAC failed. -/
  | dropped (mac : Bool)
  | violation (result : Nat) (payload : List Byte)
  | request
  deriving DecidableEq, Repr

/-- The fields of a message. -/
structure BrixMsg where
  src : BrixSrc
  version : Nat
  op : Nat
  flags : Nat
  seq : Nat
  session : Nat
  length : Nat
  reserved : Nat
  payload : List Byte
  deriving DecidableEq, Repr

def parseBrix (src : BrixSrc) (b : List Byte) : BrixMsg :=
  let w0 := getLe b 0 8
  let w1 := getLe b 8 8
  { src := src, version := fld w0 47 40, op := fld w0 39 32, flags := fld w0 31 16, seq := fld w0 15 0
    session := fld w1 63 32, length := fld w1 31 16, reserved := fld w1 15 0, payload := b.drop 32 }

/-- The established session that a message belongs to: not one that finishes a set-up (log 51). -/
def State.msgSession (s : State) (m : BrixMsg) : Option Session :=
  if m.version = 2 ∧ m.session ≠ 0 ∧ m.op ≠ opSessionFinish then
    (s.session? m.session m.src).bind (fun x => if x.established then some x else none)
  else none

/-- The checks of Table 16.6, in its order. -/
def State.brixFate (s : State) (src : BrixSrc) (b : List Byte) : BrixFate :=
  let m := parseBrix src b
  let x := s.msgSession m
  if b.length < 32 ∨ getLe b 6 2 ≠ 0x7C40 then .dropped false
  else if sliceB b 16 16 ≠ brixCheck src (x.map (fun x => x.macKey)) (overlay b 16 (zeros 16)) then .dropped x.isSome
  else if m.version ≠ 1 ∧ m.version ≠ 2 then .violation rsVersion (oneByte 0x03)
  else if m.length ≠ m.payload.length ∨ brixLimit src < m.length then .violation rsLength []
  else if opInVersion m.version m.op = false ∨ m.flags ≠ 0 ∨ m.reserved ≠ 0 ∨ (m.version = 1 ∧ m.session ≠ 0) then
    .violation rsMalformed []
  else if m.op = opEventAck ∧ m.payload.length = 2 ∧ s.mgmt.events.any (fun e => e.seq == getLe m.payload 0 2) = false then
    .violation rsMalformed []
  else .request

/-- The answer to a message, outside a session or in one. -/
def BrixMsg.answer (m : BrixMsg) (key : Option (List Byte)) (result : Nat) (payload : List Byte) : List Byte :=
  brixAnswer m.src key m.version m.op m.seq m.session result payload

/-- A violation: it is counted, and answered as far as the budget goes. -/
def State.violate (s : State) (m : BrixMsg) (key : Option (List Byte)) (result : Nat) (payload : List Byte) : State :=
  let (may, s) := s.noteViolation m.src
  if may then s.sendAnswer m.src (m.answer key result payload) else s

/-- A request of an established session: the session is its sequence context. -/
def State.inSession (s : State) (m : BrixMsg) (x : Session) : State :=
  let key := some x.macKey
  if m.seq = x.expectSeq then
    let (result, payload, s) := s.brixAct m.src m.version m.op m.seq m.session true m.payload
    let b := m.answer key result payload
    let s := s.updSession x.id (fun x => { x with expectSeq := (m.seq + 1) % 65536, stored := some b })
    (s.sendAnswer m.src b).settleReset
  else
    match x.stored with
    | some b =>
      if (m.seq + 1) % 65536 = x.expectSeq then s.sendAnswer m.src b
      else s.violate m key rsSequence (natLe 2 x.expectSeq)
    | none => s.violate m key rsSequence (natLe 2 x.expectSeq)

/-- A request outside a session. -/
def State.outside (s : State) (m : BrixMsg) : State :=
  let act (s : State) : State :=
    let (result, payload, s) := s.brixAct m.src m.version m.op m.seq m.session false m.payload
    let b := m.answer none result payload
    ((s.keepAnswer m.src m.seq b).sendAnswer m.src b).settleReset
  match s.mgmt.contexts.find? (fun c => c.src == m.src) with
  | none => act s
  | some c =>
    if m.seq = (c.lastSeq + 1) % 65536 then act s
    else if m.seq = c.lastSeq then (s.touchContext c).sendAnswer m.src c.stored
    else s.violate m none rsSequence (natLe 2 ((c.lastSeq + 1) % 65536))

/-- Whether a transport is served at all: Basecamp runs, the port is enabled, and no policy of the active generation takes it
away (R463, R464; log 51). -/
def State.served (s : State) (src : BrixSrc) (version : Nat) : Bool :=
  let g := s.flash.gen (s.mgmt.activeGen.getD 0)
  let runs := s.sys.phase == .ready || s.sys.phase == .tripped
  match src with
  | .udp _ _ => runs && s.oflag 0x60A0 1 && !(version == 1 && genV1NetOff g)
  | .smbus => runs && !genSmbusOff g
  | .mailbox t => s.sys.phase == .ready && s.tenantOk t

/-- After a failed boot the ROM answers PING on the SMBus with state 4, unless a valid generation says otherwise (R464,
R471). -/
def State.romPing (s : State) (m : BrixMsg) : State :=
  if m.op = opPing ∧ m.version = 1 ∧ m.payload.isEmpty = true
      ∧ (s.mgmt.activeGen.isNone = true ∨ genSmbusOff (s.flash.gen (s.mgmt.activeGen.getD 0)) = false) then
    s.sendAnswer m.src (m.answer none rsOk (oneByte 4))
  else s

/-- A Brix message arrives. -/
def State.brixIn (s : State) (src : BrixSrc) (b : List Byte) : State :=
  let m := parseBrix src b
  if s.sys.phase = .stopped ∧ src = .smbus then (if s.brixFate src b = .request then s.romPing m else s)
  else if !s.served src m.version then s
  else
    match s.brixFate src b with
    | .dropped mac =>
      let s := (s.noteViolation src).2
      if mac then s.oinc 0x60A0 9 1 else s
    | .violation result payload => s.violate m ((s.msgSession m).map (fun x => x.macKey)) result payload
    | .request =>
      if m.version = 2 ∧ m.session ≠ 0 ∧ m.op ≠ opSessionFinish then
        match s.msgSession m with
        | some x => s.inSession m x
        | none => s.sendAnswer src (m.answer none rsSession [])
      else s.outside m

/-! ## The rows -/

/-- A request as the operation of its row. -/
def reqAs (r : BrixReq) (op : Nat) : List Byte := reqBytes { r with op := op }

def execBrixPing (r : BrixReq) (s : State) : Res := .next (s.brixIn r.src (reqAs r opPing))
def execBrixRead (r : BrixReq) (s : State) : Res := .next (s.brixIn r.src (reqAs r opRead))
def execBrixWrite (r : BrixReq) (s : State) : Res := .next (s.brixIn r.src (reqAs r opWrite))
def execBrixList (r : BrixReq) (s : State) : Res := .next (s.brixIn r.src (reqAs r opList))
def execSessionOpen (r : BrixReq) (s : State) : Res := .next (s.brixIn r.src (reqAs r opSessionOpen))
def execSessionFinish (r : BrixReq) (s : State) : Res := .next (s.brixIn r.src (reqAs r opSessionFinish))
def execSessionClose (r : BrixReq) (s : State) : Res := .next (s.brixIn r.src (reqAs r opSessionClose))
def execMeasure (r : BrixReq) (s : State) : Res := .next (s.brixIn r.src (reqAs r opMeasure))
def execEventAck (r : BrixReq) (s : State) : Res := .next (s.brixIn r.src (reqAs r opEventAck))

/-- OTP_WRITE: a WRITE of O:0x8010. -/
def execOtpWrite (r : BrixReq) (s : State) : Res :=
  .next (if getLe r.payload 0 2 = 0x8010 then s.brixIn r.src (reqAs r opWrite) else s)

/-- MEAS_EXTEND: a WRITE of O:0x8020.9. -/
def execMeasExtend (r : BrixReq) (s : State) : Res :=
  .next (if getLe r.payload 0 3 = 0x8020 + 9 * 65536 then s.brixIn r.src (reqAs r opWrite) else s)

/-- BRIX_VIOLATION: a message that Table 16.6 or its SEQ condemns. On the SMBus one that is well formed is one whose PEC
failed. -/
def State.brixBad (s : State) (src : BrixSrc) (b : List Byte) : State :=
  let m := parseBrix src b
  let inOrder : Bool := match s.msgSession m with
    | some x => m.seq == x.expectSeq || ((m.seq + 1) % 65536 == x.expectSeq && x.stored.isSome)
    | none =>
      match s.mgmt.contexts.find? (fun c => c.src == src) with
      | some c => m.seq == c.lastSeq || m.seq == (c.lastSeq + 1) % 65536
      | none => true
  if decide (s.brixFate src b = .request) && inOrder then
    if src = .smbus ∧ s.served src m.version = true then (s.noteViolation src).2 else s
  else s.brixIn src b

def execBrixViolation (src : BrixSrc) (b : List Byte) (s : State) : Res := .next (s.brixBad src b)

/-- EVENT_RESEND: an event not acknowledged is sent again, ten times in all. -/
def State.resendEvent (s : State) (q : Nat) : State :=
  match s.mgmt.events.find? (fun e => e.seq == q) with
  | none => s
  | some e =>
    if 10 ≤ e.sends then s
    else
      let events := s.mgmt.events.map (fun (x : PendEvent) => if x.seq == q then { x with sends := x.sends + 1 } else x)
      ({ s with mgmt := { s.mgmt with events := events } }).emit (.event q e.payload)

def execEventResend (q : Nat) (s : State) : Res := .next (s.resendEvent q)

/-- SESSION_IDLE_TIMEOUT: no valid message came for O:0x8000.2 seconds. -/
def execSessionIdleTimeout (id : Nat) (s : State) : Res := .next (s.dropSession id)

/-- AUTH_LOCKOUT_EXPIRY. -/
def execAuthLockoutExpiry (src : BrixSrc) (s : State) : Res :=
  .next { s with mgmt := { s.mgmt with
      lockedOut := s.mgmt.lockedOut.filter (fun x => x != src)
      failures := s.mgmt.failures.filter (fun f => f.1 != src) } }

end Sys2Proof.Machine
end

