-- ==== Sys2Proof/Machine/Engines.lean ====
section
/-! DEFINITION. The engine opcodes and the work of channels, compression engines and the digest block (R392 to R417). -/
namespace Sys2Proof.Machine

/-! ## Check 5 and admission (R394, R396, R407, R409, R410) -/

/-- Whether a declared length is in its range. -/
def bytesOk (n : Nat) : Bool := decide (1 ≤ n) && decide (n ≤ 2 ^ 40)

/-- Whether a MODE names a digest algorithm (Table 14.7). -/
def algOk (m : Nat) : Bool := decide (1 ≤ m % 128) && decide (m % 128 ≤ 4)

/-- The least DST_BYTES of a COMPRESS entry (R407). -/
def compressRoom (mode n : Nat) : Nat := if mode = 0 then n + 5 * ceilDiv n 32768 + 1 else n

/-- The conditions of check 5 that make an entry malformed. -/
def State.engineMalformed (s : State) (e : Entry) : Bool :=
  let op := entOpcode e
  let m := entMode e
  !s.ownsChannel e.tenant (entChannel e) || decide (s.onum (tobj 0x9000 e.tenant) 4 < entPriority e)
    || (if op = opCopy then !bytesOk (entW e 3) || entW e 4 != entW e 3
        else if op = opCompress ∨ op = opDecompress then
          !bytesOk (entW e 3) || !bytesOk (entW e 4) || decide (1 < m) || (m == 0 && entW e 7 != 0) || refBad (entW e 7)
            || (op == opCompress && decide (entW e 4 < compressRoom m (entW e 3)))
        else if op = opDigestOpen then
          !algOk m || decide (2 ^ 48 < entW e 3) || refBad (entW e 1)
            || (if 128 ≤ m then entW e 1 == 0 || entW e 4 == 0 || decide (1024 < entW e 4)
                else entW e 1 != 0 || entW e 4 != 0)
        else if op = opDigestFeed then !bytesOk (entW e 3)
        else if op = opDigestRead then entW e 1 == 0 || refBad (entW e 1)
        else decide (m < 1) || decide (3 < m))

/-- The number of a free digest context: the lowest (log 46). -/
def State.lowestCtx (s : State) : Option Nat :=
  ((List.range 16).map (· + 1)).find? (fun n => (s.eng.contexts.find n).isNone)

/-- The statuses of check 5. -/
def State.engineCheck (s : State) (e : Entry) : List Nat :=
  let op := entOpcode e
  let isOpen := (s.digestCtx? e.tenant (entMsg e)).isSome
  let mine := (s.eng.contexts.filter (fun p => p.2.tenant == e.tenant)).length
  (if s.engineMalformed e then [stDescMalformed] else [])
    ++ (if op = opDigestOpen ∧ isOpen = true then [stEngineState] else [])
    ++ (if op = opDigestOpen ∧ (s.lowestCtx = none ∨ s.onum (tobj 0x9038 e.tenant) 2 ≤ mine) then [stEngineBusy] else [])
    ++ (if (op = opDigestFeed ∨ op = opDigestRead) ∧ isOpen = false then [stEngineState] else [])

/-- An admitted engine entry. -/
def State.engEntry (s : State) (e : Entry) : EngEntry :=
  { entry := e, cqid := (s.entryCq e).getD 0, order := s.eng.nextOrder, admitTime := s.timeNs, priority := entPriority e
    src := [], dst := [], data := [], written := false, result := none }

/-- Takes the entry's place in admission order. -/
def State.nextEngine (s : State) : State := { s with eng := { s.eng with nextOrder := s.eng.nextOrder + 1 } }

/-- Admits a checked entry to its channel (R397). -/
def State.admitEngine (s : State) (e : Entry) : State :=
  let ch := entChannel e
  let c := s.chan ch
  let x := s.engEntry e
  (s.setChan ch { c with waiting := c.waiting ++ [x], state := if c.state = .idle then .running else c.state }).nextEngine

/-- DIGEST_OPEN takes a context when it is checked (Table 14.9). -/
def State.takeCtx (s : State) (e : Entry) : State :=
  match s.lowestCtx with
  | none => s
  | some n =>
    s.putCtx n { tenant := e.tenant, msg := entMsg e, alg := entMode e, length := entW e 3, key := [], taken := []
                 lastSeen := false, finished := decide (entW e 3 = 0), discarded := 0 }

/-- An entry whose check 5 fails completes at once. -/
def State.onEngine (s : State) (e : Entry) (op : Nat) (f : State → State) : Res :=
  s.onEntry e op (fun s =>
    match s.engineCheck e with
    | [] => f (s.dropFetched e)
    | l => (s.dropFetched e).finishEntry e (entryRecord e (pickStatus l) (s.idleValue e)))

def execDmaCopy (e : Entry) (s : State) : Res := s.onEngine e opCopy (fun s => s.admitEngine e)
def execCompress (e : Entry) (s : State) : Res := s.onEngine e opCompress (fun s => s.admitEngine e)
def execDecompress (e : Entry) (s : State) : Res := s.onEngine e opDecompress (fun s => s.admitEngine e)
def execDigestOpen (e : Entry) (s : State) : Res := s.onEngine e opDigestOpen (fun s => (s.takeCtx e).admitEngine e)
def execDigestFeed (e : Entry) (s : State) : Res := s.onEngine e opDigestFeed (fun s => s.admitEngine e)
def execDigestRead (e : Entry) (s : State) : Res := s.onEngine e opDigestRead (fun s => s.admitEngine e)

/-! ## DMA_CONTROL (R397, Table 14.4) -/

/-- A DMA_CONTROL entry completes at once. -/
def State.controlEnds (s : State) (e : Entry) (status value : Nat) : State :=
  (s.postEngine (s.engEntry e) status value 0 none).nextEngine

/-- STOP. -/
def State.stopChannel (s : State) (e : Entry) : State :=
  let ch := entChannel e
  let c := s.chan ch
  match c.state with
  | .running =>
    if c.current.isSome then (s.setChan ch { c with stops := c.stops ++ [s.engEntry e] }).nextEngine
    else (s.setChan ch { c with state := .stopped }).controlEnds e stOk 0
  | .idle => (s.setChan ch { c with state := .stopped }).controlEnds e stOk 0
  | _ => s.controlEnds e stOk 0

/-- RESUME. -/
def State.resumeChannel (s : State) (e : Entry) : State :=
  let ch := entChannel e
  let c := s.chan ch
  match c.state with
  | .stopped => (s.setChan ch { c with state := if c.waiting.isEmpty then .idle else .running }).controlEnds e stOk 0
  | .halted =>
    (s.setChan ch { c with state := if c.waiting.isEmpty then .idle else .running, fault := none }).controlEnds e stOk 0
  | _ => s.controlEnds e stEngineState 0

/-- A flushed entry completes; a DIGEST_OPEN gives its context back. -/
def State.flushEntry (s : State) (x : EngEntry) : State :=
  let s := if entOpcode x.entry = opDigestOpen then
      (match s.digestCtx? x.entry.tenant (entMsg x.entry) with
       | some (n, _) => s.dropCtx n
       | none => s)
    else s
  s.postEngine x stAbortedByHost (s.idleValue x.entry) 0 none

/-- FLUSH. -/
def State.flushChannel (s : State) (e : Entry) : State :=
  let ch := entChannel e
  let c := s.chan ch
  match c.state with
  | .running => s.controlEnds e stEngineState 0
  | .idle => s.controlEnds e stOk 0
  | _ =>
    let s := c.waiting.foldl State.flushEntry (s.setChan ch Chan.idle)
    s.controlEnds e stOk c.waiting.length

/-- A DMA_CONTROL entry of a mode; the row of STOP takes entries whose MODE names nothing as well. -/
def State.onControl (s : State) (e : Entry) (mine : Bool) (f : State → State) : Res :=
  if mine then s.onEngine e opDmaControl f else .next s

def execDmaStop (e : Entry) (s : State) : Res :=
  s.onControl e (entMode e != 2 && entMode e != 3) (fun s => s.stopChannel e)
def execDmaResume (e : Entry) (s : State) : Res := s.onControl e (entMode e == 2) (fun s => s.resumeChannel e)
def execDmaFlush (e : Entry) (s : State) : Res := s.onControl e (entMode e == 3) (fun s => s.flushChannel e)

/-! ## Compression jobs (R404 to R408) -/

/-- A column block header with another payload: DEFLATE and RAW as given, CRC32C computed anew (R406, R408). -/
def rebuildBlock (hdr : List Byte) (defl raw : Bool) (payload : List Byte) : List Byte :=
  let w0 := getLe hdr 0 8
  let w0 := w0 - (bitAt w0 23).toNat * 2 ^ 23 - (bitAt w0 22).toNat * 2 ^ 22 + defl.toNat * 2 ^ 23 + raw.toNat * 2 ^ 22
  let w2 := payload.length % 2 ^ 32 * 2 ^ 32 + getLe hdr 16 4
  let h := natLe 8 w0 ++ sliceB hdr 8 8 ++ natLe 8 w2 ++ sliceB hdr 24 32
  h ++ sliceB hdr 56 4 ++ natLe 4 (crc32c (h ++ payload)) ++ payload

/-- A column of a type, for check 3 of a block that no descriptor describes. -/
def bareColumn (ty : Nat) : Column :=
  { ty := ty, precision := 0, scale := 0, width := 0, nullable := true, dictSorted := false, reserved := 0
    blockList := 0, blockCount := 0, dictEntries := 0, dict := 0 }

/-- Checks 1 to 3 of Table 03.15 without a descriptor (R406). -/
def BlockHdr.bareFault (h : BlockHdr) (hdr payload : List Byte) : Option Nat :=
  if !h.check1 then some stBlockEncoding
  else if !h.check2 hdr payload then some stBlockCrc
  else if !h.check3 (bareColumn h.ty) then some stBlockEncoding
  else none

/-- What a job has made so far: output, offsets of its blocks, AUX, and the status that ended it. -/
structure JobOut where
  out : List Byte
  index : List Nat
  aux : Nat
  status : Nat

/-- COMPRESS of one block: its output, and whether it is stored raw (R406). -/
def compressBlock (h : BlockHdr) (hdr payload : List Byte) : List Byte × Bool :=
  if h.deflate then (hdr ++ payload, false)
  else
    let z := (deflate payload).1
    if 8 ≤ z.length ∧ z.length < h.inner then (rebuildBlock hdr true false z, false)
    else (rebuildBlock hdr false true payload, true)

/-- DECOMPRESS of one block with `room` destination bytes left: its output, or the status that ends the job (R408). -/
def decompressBlock (h : BlockHdr) (hdr payload : List Byte) (room : Nat) : Except Nat (List Byte) :=
  if room < 64 then .error stInflateLimit
  else if !h.deflate then (if room < 64 + payload.length then .error stInflateLimit else .ok (hdr ++ payload))
  else
    let r := inflate (min h.inner (room - 64)) payload
    match r.ending with
    | .invalid => .error stBlockEncoding
    | .limit => .error stInflateLimit
    | .short => .error stLenShort
    | .done =>
      if r.out.length < h.inner then .error stLenShort
      else if 0 < r.restBytes then .error stLenLong
      else .ok (rebuildBlock hdr false false r.out)

/-- The blocks of a source, each from a multiple of 64 bytes on (fuel: its blocks). A source that ends inside a block
ends the job with LEN_SHORT (log 46). -/
def jobBlocks (comp : Bool) (room : Nat) (src : List Byte) : Nat → Nat → JobOut → JobOut
  | 0, _, j => j
  | f + 1, o, j =>
    if src.length ≤ o then j
    else
      let hdr := sliceB src o 64
      let h := blockHdr hdr
      if src.length < o + 64 then { j with status := stLenShort }
      else if !h.check1 then { j with status := stBlockEncoding }
      else if src.length < o + 64 + h.payload then { j with status := stLenShort }
      else
        let payload := sliceB src (o + 64) h.payload
        match h.bareFault hdr payload with
        | some st => { j with status := st }
        | none =>
          let next := roundUp (o + 64 + h.payload) 64
          if comp then
            let (b, raw) := compressBlock h hdr payload
            jobBlocks comp room src f next
              { j with out := j.out ++ padTo 64 b, index := j.index ++ [j.out.length], aux := j.aux + raw.toNat }
          else
            match decompressBlock h hdr payload (room - j.out.length) with
            | .error st => { j with status := st }
            | .ok b =>
              jobBlocks comp room src f next
                { j with out := (j.out ++ padTo 64 b).take room, index := j.index ++ [j.out.length]
                         aux := j.aux + h.deflate.toNat }

/-- DECOMPRESS of a stream (Table 14.6). -/
def inflateStream (room : Nat) (src : List Byte) : JobOut :=
  let r := inflate room src
  let st := match r.ending with
    | .invalid => stBlockEncoding
    | .limit => stInflateLimit
    | .short => stLenShort
    | .done => if 0 < r.restBytes then stLenLong else stOk
  { out := r.out, index := [], aux := r.blocks, status := st }

/-- The work of a compression engine. -/
def runJob (comp : Bool) (mode room : Nat) (src : List Byte) : JobOut :=
  if mode = 1 then jobBlocks comp room src (src.length / 64 + 1) 0 { out := [], index := [], aux := 0, status := stOk }
  else if comp then
    let (b, raw) := deflate src
    { out := b, index := [], aux := raw, status := stOk }
  else inflateStream room src

/-- The output index as an element (R404); none without one. -/
def indexEl (e : Entry) : Option ListEl :=
  if entMode e = 1 ∧ entW e 7 ≠ 0 then some ((refHost (entW e 7)).toNat, refAddr (entW e 7), entW e 3 / 128 * 8) else none

/-! ## CHANNEL_ENTRY_START (R397, R399 to R401, R409, R413) -/

/-- The entry that a channel starts becomes its current one. -/
def State.startEntry (s : State) (ch : Nat) (x : EngEntry) : State :=
  let c := s.chan ch
  s.setChan ch { c with current := some x, waiting := c.waiting.drop 1 }

/-- An entry starts and halts its channel at once. -/
def State.startHalt (s : State) (ch : Nat) (x : EngEntry) (f : AccessFault) : State :=
  (s.startEntry ch x).haltChannel ch x f

/-- The channel reads lines of peers for its entry, each once: image lines itself, Depot pages through the Depot. -/
def State.askEngine (s : State) (ch loc : Nat) (ls : List Nat) : State :=
  ls.foldl (fun s l =>
    if s.coh.requests.any (fun r => r.msg.line == l && r.purpose == .engine ch && r.msg.op == opRdNc) then s
    else (s.request { op := opRdNc, src := 0, dst := 0, txn := 0, line := l } loc (.engine ch)).2) s

/-- The earlier of a failing read and a failing write; the read where they tie. -/
def firstFault : Option AccessFault → Option AccessFault → Option AccessFault
  | some a, some b => if b.offset < a.offset then some b else some a
  | some a, none => some a
  | none, b => b

/-- An entry with lists starts: the source bytes are taken, unless an access fails (R401). -/
def State.startLists (s : State) (ch : Nat) (x : EngEntry) : State :=
  let e := x.entry
  let t := e.tenant
  let op := entOpcode e
  match s.entryLists e (op != opDigestFeed) with
  | .need l => s.askEngine ch locDma l
  | .ends st => s.startEntry ch { x with result := some { status := st, value := s.idleValue e, aux := 0 } }
  | .halts f => s.startHalt ch x f
  | .ok src dst =>
    let ls := src.flatMap (s.elNeed t)
    if !ls.isEmpty then
      (s.askEngine ch locDma ((src.filter (fun el => el.1 == 0)).flatMap (s.elNeed t))).askEngine ch locDepot
        ((src.filter (fun el => el.1 != 0)).flatMap (s.elNeed t))
    else
      let s := s.listTouch e.tenant src
      let x := { x with src := src, dst := dst, data := s.listBytes t src }
      let wf := if op = opCopy then s.listWriteFault t 0 dst
        else (indexEl e).bind (fun i => s.listWriteFault t 0 [i])
      match firstFault (s.listReadFault t 0 src) wf with
      | some f => s.startHalt ch x f
      | none =>
        if op = opDigestFeed then
          match s.digestCtx? t (entMsg e) with
          | none => s.startEntry ch { x with result := some { status := stEngineState, value := 0, aux := 0 } }
          | some (_, c) =>
            if c.finished || c.lastSeen then
              s.startEntry ch { x with result := some { status := stLenLong, value := c.taken.length, aux := x.data.length } }
            else s.startEntry ch x
        else s.startEntry ch x

/-- Whether another channel runs a feed of the same message (R413). -/
def State.feedBusy (s : State) (e : Entry) : Bool :=
  s.eng.chans.any (fun p => match p.2.current with
    | some y => entOpcode y.entry == opDigestFeed && y.entry.tenant == e.tenant && entMsg y.entry == entMsg e
    | none => false)

/-- DIGEST_OPEN reads its key (R409). -/
def State.startOpen (s : State) (ch : Nat) (x : EngEntry) : State :=
  let e := x.entry
  let ok : EngEntry := { x with result := some { status := stOk, value := 0, aux := 0 } }
  if entW e 1 = 0 then s.startEntry ch ok
  else
    let sp := (refHost (entW e 1)).toNat
    match s.segRead e.tenant sp (refAddr (entW e 1)) (entW e 4) with
    | .need l => s.askEngine ch locDma l
    | .bad st ad =>
      s.startHalt ch x { offset := ad - refAddr (entW e 1), addr := ad, space := sp, write := false
                         poisoned := st == stPoisonRead }
    | .ok key =>
      match s.digestCtx? e.tenant (entMsg e) with
      | none => s.startEntry ch ok
      | some (n, c) => (s.putCtx n { c with key := key }).startEntry ch ok

/-- Whether a digest can be given: every byte has come, and the key. -/
def DigestCtx.ready (c : DigestCtx) : Bool := c.finished && (decide (c.alg < 128) || !c.key.isEmpty)

/-- DIGEST_READ takes the result of a message as it is now (Table 14.8); a feed of it that has not completed meets the row
"before finished" (R413). -/
def State.startRead (s : State) (ch : Nat) (x : EngEntry) : State :=
  let e := x.entry
  let busy := s.feedBusy e
  let buf : ListEl := ((refHost (entW e 1)).toNat, refAddr (entW e 1), 64)
  match s.digestCtx? e.tenant (entMsg e) with
  | none => s.startEntry ch { x with result := some { status := stEngineState, value := 0, aux := 0 } }
  | some (n, c) =>
    match s.listWriteFault e.tenant 0 [buf] with
    | some f => s.startHalt ch x f
    | none =>
      let gives (st aux : Nat) (b : List Byte) : EngEntry :=
        { x with dst := [buf], data := fitTo 64 b, result := some { status := st, value := c.taken.length, aux := aux } }
      if busy then s.startEntry ch (gives stDigestNotReady 0 [])
      else if c.ready then
        (s.dropCtx n).startEntry ch
          (gives (if c.discarded = 0 then stOk else stLenLong) c.discarded (digestOf c.alg c.key c.taken))
      else if c.lastSeen then (s.dropCtx n).startEntry ch (gives stLenShort 0 [])
      else s.startEntry ch (gives stDigestNotReady 0 [])

/-- A channel starts its next entry. -/
def State.channelStart (s : State) (ch : Nat) : State :=
  let c := s.chan ch
  if c.state ≠ .running ∨ c.current.isSome = true then s
  else
    match c.waiting with
    | [] => s
    | x :: _ =>
      let op := entOpcode x.entry
      if op = opDigestOpen then s.startOpen ch x
      else if op = opDigestRead then s.startRead ch x
      else if op = opDigestFeed then (if s.feedBusy x.entry then s else s.startLists ch x)
      else s.startLists ch x

def execChannelEntryStart (ch : Nat) (s : State) : Res := .next (s.channelStart ch)

/-! ## Engines and pipes (R404, R411) -/

/-- Whether a channel's job has an engine. -/
def State.hasEngine (s : State) (ch : Nat) : Bool := s.eng.engines.any (fun p => p.2 == ch)

/-- Jobs that wait for an engine, the first to be served first. -/
def State.waitingJobs (s : State) : List (Nat × EngEntry) :=
  sortBy (fun (a b : Nat × EngEntry) => decide (b.2.priority < a.2.priority
      ∨ (a.2.priority = b.2.priority ∧ a.2.order < b.2.order)))
    (s.eng.chans.filterMap (fun p => match p.2.current with
      | some x =>
        if (entOpcode x.entry == opCompress || entOpcode x.entry == opDecompress) && x.result.isNone
          && !s.hasEngine p.1 then some (p.1, x) else none
      | none => none))

/-- COMPRESSION_JOB_START: the lowest free engine takes the first waiting job. -/
def State.startJob (s : State) : State :=
  match (List.range 4).find? (fun n => (s.eng.engines.find n).isNone), s.waitingJobs with
  | some n, (ch, _) :: _ => { s with eng := { s.eng with engines := s.eng.engines.put n ch } }
  | _, _ => s

def execCompressionJobStart (s : State) : Res := .next s.startJob

/-- Message bytes that a running feed can still bring into its context. -/
def feedRoom (c : DigestCtx) (x : EngEntry) : Nat := min x.data.length (c.length - c.taken.length)

/-- Bytes that complete the block a context holds part of. -/
def DigestCtx.blockRest (c : DigestCtx) : Nat := digestBlock c.alg - c.taken.length % digestBlock c.alg

/-- Contexts that hold a whole block with the channel and entry that feed them. -/
def State.readyContexts (s : State) : List (Nat × Nat × EngEntry) :=
  s.eng.contexts.filterMap (fun p =>
    (s.eng.chans.findSome? (fun q => match q.2.current with
      | some x =>
        if entOpcode x.entry == opDigestFeed && x.entry.tenant == p.2.tenant && entMsg x.entry == p.2.msg && x.result.isNone
          && decide (p.2.blockRest ≤ feedRoom p.2 x) then some (q.1, x) else none
      | none => none)).map (fun q => (p.1, q.1, q.2)))

/-- DIGEST_BLOCK: the highest priority, then the lowest number after the one served last. -/
def State.digestStep (s : State) : State :=
  let l := s.readyContexts
  let far (n : Nat) : Nat := (n + 17 - s.eng.lastContext - 1) % 17
  match (sortBy (fun (a b : Nat × Nat × EngEntry) => decide (b.2.2.priority < a.2.2.priority
      ∨ (a.2.2.priority = b.2.2.priority ∧ far a.1 < far b.1))) l).head? with
  | none => s
  | some (n, ch, x) =>
    match s.eng.contexts.find n with
    | none => s
    | some c =>
      let m := c.blockRest
      let s := s.feedCtx n c (x.data.take m)
      let s := s.setChan ch { s.chan ch with current := some { x with data := x.data.drop m } }
      { s with eng := { s.eng with lastContext := n } }

def execDigestBlock (s : State) : Res := .next s.digestStep

/-! ## ENGINE_ENTRY_COMPLETE (R395, R402 to R408, R412) -/

/-- What a piece of work answers: nothing yet, a halt, or its result with what it wrote. -/
inductive WorkAns where
  | wait
  | halt (f : AccessFault)
  | done (r : EngResult) (s : State)

/-- A compression job at its end. -/
def State.jobWork (s : State) (ch : Nat) (x : EngEntry) : WorkAns :=
  let e := x.entry
  let t := e.tenant
  let comp := entOpcode e == opCompress
  if !s.hasEngine ch then .wait
  else
    let j := runJob comp (entMode e) (entW e 4) x.data
    let n := j.out.length
    match (s.listWriteFault t 0 x.dst).filter (fun f => decide (f.offset < n)) with
    | some f => .halt f
    | none =>
      let s := s.scatter ch t x.dst j.out
      let s := match indexEl e with
        | some i => s.elPut (.engine ch) t i.1 i.2.1 ((j.index.take (entW e 3 / 128)).flatMap (natLe 8))
        | none => s
      let s := if comp then ((s.oinc 0x3090 3 x.data.length).oinc 0x3090 4 n).oinc 0x3090 5 j.aux
        else if j.status = stInflateLimit then s.oinc 0x3090 6 1 else s
      .done { status := j.status, value := n, aux := j.aux } s

/-- A feed at its end (Table 14.8). -/
def State.feedWork (s : State) (x : EngEntry) : WorkAns :=
  let e := x.entry
  match s.digestCtx? e.tenant (entMsg e) with
  | none => .done { status := stEngineState, value := 0, aux := 0 } s
  | some (n, c) =>
    let room := feedRoom c x
    if c.blockRest ≤ room then .wait
    else
      let taken := c.taken.length + room
      let excess := x.data.length - room
      let s := s.feedCtx n c (x.data.take room)
      let mark (s : State) (f : DigestCtx → DigestCtx) : State :=
        match s.eng.contexts.find n with
        | some c => s.putCtx n (f c)
        | none => s
      if 0 < excess then
        .done { status := stLenLong, value := taken, aux := excess } (mark s (fun c => { c with discarded := excess }))
      else if taken = c.length then .done { status := stOk, value := taken, aux := 0 } s
      else if entLast e then
        .done { status := stLenShort, value := taken, aux := 0 } (mark s (fun c => { c with lastSeen := true }))
      else .done { status := stOk, value := taken, aux := 0 } s

/-- The work of an entry comes to its end: its output is written. -/
def State.entryWork (s : State) (ch : Nat) (x : EngEntry) : WorkAns :=
  let e := x.entry
  match x.result with
  | some r => .done r (s.scatter ch e.tenant x.dst x.data)
  | none =>
    let op := entOpcode e
    if op = opCopy then
      let (bs, s) := s.copyData x
      .done { status := stOk, value := bs.length, aux := 0 } ((s.scatter ch e.tenant x.dst bs).oinc 0x3090 1 bs.length)
    else if op = opDigestFeed then s.feedWork x
    else s.jobWork ch x

/-- The last four host bytes an entry wrote, as (transfer offset, address) (R403). -/
def lastHostBytes : Nat → Nat → List ListEl → Option (Nat × Nat) → Option (Nat × Nat)
  | _, _, [], acc => acc
  | k, n, e :: l, acc =>
    if n ≤ k then acc
    else
      let m := min e.2.2 (n - k)
      lastHostBytes (k + e.2.2) n l (if e.1 = 1 then some (k + m - 4, e.2.1 + m - 4) else acc)

/-- Image writes of a channel whose CMP is outstanding. -/
def State.writesOpen (s : State) (ch : Nat) : Bool :=
  s.coh.requests.any (fun r => r.purpose == .engine ch && r.msg.op == opWrNc)

/-- Whether an entry waits under FENCE, and its host bytes to be read back. -/
def EngEntry.fenceRead (x : EngEntry) (r : EngResult) : Option (Nat × Nat) :=
  if entFence x.entry && decide (entOpcode x.entry ≤ opDecompress) then lastHostBytes 0 r.value x.dst none else none

/-- ENGINE_ENTRY_COMPLETE: the entry's output is written; without FENCE, or once its CMPs and its read-back are in, the
completion is posted. -/
def State.channelComplete (s : State) (ch : Nat) : State :=
  match (s.chan ch).current with
  | none => s
  | some x =>
    let e := x.entry
    if !x.written then
      match s.entryWork ch x with
      | .wait => s
      | .halt f => s.haltChannel ch x f
      | .done r s =>
        match x.fenceRead r with
        | some (_, a) =>
          (s.setChan ch { s.chan ch with current := some { x with written := true, result := some r } }).emit
            (.hostRead e.tenant a 4)
        | none =>
          if entFence e && decide (entOpcode e ≤ opDecompress) && s.writesOpen ch then
            s.setChan ch { s.chan ch with current := some { x with written := true, result := some r } }
          else s.entryEnds ch x r
    else if s.writesOpen ch then s
    else
      match x.result with
      | none => s
      | some r =>
        match x.fenceRead r with
        | none => s.entryEnds ch x r
        | some (k, a) =>
          match s.hostError e.tenant a 4 with
          | none => s.entryEnds ch x r
          | some st => s.haltChannel ch x { offset := k, addr := a, space := 1, write := false, poisoned := st == stPoisonRead }

def execEngineEntryComplete (ch : Nat) (s : State) : Res := .next (s.channelComplete ch)

/-! ## CHANNEL_HALT (R401) -/

/-- An access of the running entry, or of the lists of the entry about to run, fails. -/
def State.channelFault (s : State) (ch : Nat) (f : AccessFault) : State :=
  let c := s.chan ch
  match c.current, c.waiting with
  | some x, _ => s.haltChannel ch x f
  | none, x :: _ => if c.state = .running then s.startHalt ch x f else s
  | none, [] => s

def execChannelHalt (ch : Nat) (f : AccessFault) (s : State) : Res := .next (s.channelFault ch f)

end Sys2Proof.Machine
end

