-- ==== Sys2Proof/Machine/FilterRows.lean ====
section
/-! DEFINITION. The filter machine's instructions, one at a time on the machine of an SCN context (R131 to R143). -/
namespace Sys2Proof.Machine

/-- Runs one instruction on the machine of an SCN context; an arithmetic fault or a failed table check ends the route
(R141, R143, R146). A context without a machine, or an operand without a value, leaves the state unchanged (log 4). -/
def State.filterRow (s : State) (c : ScnCtx) (f : FilterMachine → State → FRes) : Res :=
  let key := c.ridge * 8 + c.ctx
  match s.scn.find key with
  | none => .next s
  | some m =>
    match f m s with
    | .ok s' m' => .next { s' with scn := s'.scn.put key m' }
    | .fault st => .next (((s.oinc 0x3010 5 1).routeFault m.key 0x0008 st 0).stopOnRidge m.key c.ridge)
    | .noOperand => .next s

def execFilterLdCol (c : ScnCtx) (x : FArgs) (s : State) : Res := s.filterRow c (fun m s => m.ldcol s x)
def execFilterEq (c : ScnCtx) (x : FArgs) (s : State) : Res := s.filterRow c (fun m s => m.compare s 0x10 x)
def execFilterNe (c : ScnCtx) (x : FArgs) (s : State) : Res := s.filterRow c (fun m s => m.compare s 0x11 x)
def execFilterLt (c : ScnCtx) (x : FArgs) (s : State) : Res := s.filterRow c (fun m s => m.compare s 0x12 x)
def execFilterLe (c : ScnCtx) (x : FArgs) (s : State) : Res := s.filterRow c (fun m s => m.compare s 0x13 x)
def execFilterGt (c : ScnCtx) (x : FArgs) (s : State) : Res := s.filterRow c (fun m s => m.compare s 0x14 x)
def execFilterGe (c : ScnCtx) (x : FArgs) (s : State) : Res := s.filterRow c (fun m s => m.compare s 0x15 x)
def execFilterBetween (c : ScnCtx) (x : FArgs) (s : State) : Res := s.filterRow c (fun m s => m.between s x)
def execFilterIsNull (c : ScnCtx) (x : FArgs) (s : State) : Res := s.filterRow c (fun m s => m.isNull s x)
def execFilterInList (c : ScnCtx) (x : FArgs) (s : State) : Res := s.filterRow c (fun m s => m.inList s x)
def execFilterInCairn (c : ScnCtx) (x : FArgs) (s : State) : Res := s.filterRow c (fun m s => m.cairn s 0x19 x)
def execPrefixMatch (c : ScnCtx) (x : FArgs) (s : State) : Res := s.filterRow c (fun m s => m.cairn s 0x1A x)
def execSuffixMatch (c : ScnCtx) (x : FArgs) (s : State) : Res := s.filterRow c (fun m s => m.cairn s 0x1B x)
def execFilterAnd (c : ScnCtx) (x : FArgs) (s : State) : Res := s.filterRow c (fun m s => m.logic2 s Tri.and x)
def execFilterOr (c : ScnCtx) (x : FArgs) (s : State) : Res := s.filterRow c (fun m s => m.logic2 s Tri.or x)
def execFilterNot (c : ScnCtx) (x : FArgs) (s : State) : Res := s.filterRow c (fun m s => m.logic1 s Tri.not x)
def execFilterIsTrue (c : ScnCtx) (x : FArgs) (s : State) : Res := s.filterRow c (fun m s => m.logic1 s (fun t => Tri.ofBool (t == .t)) x)
def execFilterIsFalse (c : ScnCtx) (x : FArgs) (s : State) : Res := s.filterRow c (fun m s => m.logic1 s (fun t => Tri.ofBool (t == .f)) x)
def execFilterIsUnknown (c : ScnCtx) (x : FArgs) (s : State) : Res := s.filterRow c (fun m s => m.logic1 s (fun t => Tri.ofBool (t == .u)) x)
def execFilterAdd (c : ScnCtx) (x : FArgs) (s : State) : Res := s.filterRow c (fun m s => m.arith s 0x30 x)
def execFilterSub (c : ScnCtx) (x : FArgs) (s : State) : Res := s.filterRow c (fun m s => m.arith s 0x31 x)
def execFilterMul (c : ScnCtx) (x : FArgs) (s : State) : Res := s.filterRow c (fun m s => m.arith s 0x32 x)
def execFilterDiv (c : ScnCtx) (x : FArgs) (s : State) : Res := s.filterRow c (fun m s => m.arith s 0x33 x)
def execFilterMod (c : ScnCtx) (x : FArgs) (s : State) : Res := s.filterRow c (fun m s => m.arith s 0x34 x)
def execFilterNeg (c : ScnCtx) (x : FArgs) (s : State) : Res := s.filterRow c (fun m s => m.neg s x)
def execFilterCast (c : ScnCtx) (x : FArgs) (s : State) : Res := s.filterRow c (fun m s => m.cast s x)
def execFilterHash64 (c : ScnCtx) (x : FArgs) (s : State) : Res := s.filterRow c (fun m s => m.hash s x)
def execFilterCrc32c (c : ScnCtx) (x : FArgs) (s : State) : Res := s.filterRow c (fun m s => m.crc s x)

end Sys2Proof.Machine
end

