-- ==== Sys2Proof/Machine/Registers.lean ====
section
/-! DEFINITION. Writes to BAR0: function registers, doorbells, the mailbox and the MSI-X table, and object writes outside a
Brix message (R369, R370, R381, R390, R455, R465, Tables 13.3, 13.4 and 16.7). -/
namespace Sys2Proof.Machine

/-! ## The mailbox (R465, Table 16.7) -/

/-- A write of 1 to MB_CONTROL: the request runs, and its answer, if it has one, is in the mailbox. -/
def State.mailboxGo (s : State) (t : Nat) : State :=
  if !s.tenantOk t || s.sys.phase != .ready || (s.fn t).resetting == some .function || (s.fn t).mbBusy then s
  else
    let s := s.mapFn t (fun f => { f with mbDone := false })
    let r := (s.fn t).mbRequest
    let n := min 1024 (leNat (r.readN 10 2))
    s.brixIn (.mailbox t) (r.readN 0 (32 + n))

def execMbControlGo (t : Nat) (s : State) : Res := .next (s.mailboxGo t)

/-! ## BAR0 (Tables 13.3 and 13.4) -/

/-- A write of 4 or 8 bytes to a 64-bit register. -/
def regMerge (old offset width value : Nat) : Nat :=
  if width = 8 then value % 2 ^ 64
  else if offset % 8 = 4 then value % 2 ^ 32 * 2 ^ 32 + old % 2 ^ 32
  else old / 2 ^ 32 * 2 ^ 32 + value % 2 ^ 32

/-- The writable function registers. -/
def FnSt.regWrite (f : FnSt) (o w v : Nat) : FnSt :=
  let r := o / 8 * 8
  if r = 0x10 then { f with awqBase := regMerge f.awqBase o w v }
  else if r = 0x18 then { f with acqBase := regMerge f.acqBase o w v }
  else if r = 0x20 then { f with aqSizes := regMerge f.aqSizes o w v % 65536 }
  else if r = 0x28 then { f with awqIndex := regMerge f.awqIndex o w v }
  else if r = 0x30 then { f with acqIndex := regMerge f.acqIndex o w v }
  else f

/-- A doorbell's value is in the low half of its eight bytes. -/
def doorbellValue (o v : Nat) : Option Nat := if o % 8 = 0 then some (v % 2 ^ 32) else none

/-- A write of a function's BAR0. One that is misaligned, of another width, or to a reserved offset is dropped and counted; a
read-only register ignores it. -/
def State.barWrite (s : State) (t o w v : Nat) : State :=
  if !s.tenantOk t || s.sys.phase != .ready || s.resetting t then s
  else if (w ≠ 4 ∧ w ≠ 8) ∨ o % w ≠ 0 then s.hostViolation (s.tenantPort t)
  else if o < 0x48 then
    if o = 0x38 then (if bitAt v 0 then s.aqEnable t else s.aqDisable t)
    else s.mapFn t (fun f => f.regWrite o w v)
  else if 0x1000 ≤ o ∧ o < 0x1800 then
    match doorbellValue o v with
    | some x => s.tailDoorbell t ((o - 0x1000) / 8) x
    | none => s
  else if 0x1800 ≤ o ∧ o < 0x2000 then
    match doorbellValue o v with
    | some x => s.headDoorbell t ((o - 0x1800) / 8) x
    | none => s
  else if 0x4000 ≤ o ∧ o < 0x4420 then
    s.mapFn t (fun f => { f with mbRequest := f.mbRequest.writeN (o - 0x4000) (natLe w v) })
  else if 0x4800 ≤ o ∧ o < 0x4C20 then s
  else if o = 0x4F00 then (if bitAt v 0 then s.mailboxGo t else s)
  else if 0x4F00 < o ∧ o < 0x4F10 then s
  else if 0x8000 ≤ o ∧ o < 0x8400 then
    (s.mapFn t (fun f => { f with msixTable := f.msixTable.writeN (o - 0x8000) (natLe w v) })).freedVectors t
  else if 0x9000 ≤ o ∧ o < 0x9008 then s
  else s.hostViolation (s.tenantPort t)

/-! ## Reads of BAR0 (Tables 13.3, 13.4 and 16.7); no row of the table is a read, so only statements use them -/

/-- FN_STATUS: READY while the tenant can accept an ENABLE write, RESETTING, RETREAT, ADMIN_ERROR. -/
def State.fnStatus (s : State) (t : Nat) : Nat :=
  (s.sys.phase == .ready && !s.resetting t).toNat + 2 * (s.resetting t).toNat + 4 * (s.sys.state == .retreat).toNat
    + 8 * (s.fn t).adminError.toNat

/-- A 64-bit function register, by its offset. -/
def State.fnReg (s : State) (t r : Nat) : Nat :=
  let f := s.fn t
  if r = 0x00 then s.fnId t
  else if r = 0x08 then s.fnStatus t
  else if r = 0x10 then f.awqBase
  else if r = 0x18 then f.acqBase
  else if r = 0x20 then f.aqSizes
  else if r = 0x28 then f.awqIndex
  else if r = 0x30 then f.acqIndex
  else if r = 0x38 then f.enable.toNat
  else if r = 0x40 then 3
  else 0

/-- What a host's read of a function's BAR0 returns; a violation returns zero and is counted (R390). -/
def State.barRead (s : State) (t o w : Nat) : Nat × State :=
  let f := s.fn t
  let word (v : Nat) : Nat := v / 2 ^ (8 * (o % 8)) % 2 ^ (8 * w)
  if !s.tenantOk t || s.sys.phase != .ready then (0, s)
  else if (w ≠ 4 ∧ w ≠ 8) ∨ o % w ≠ 0 then (0, s.hostViolation (s.tenantPort t))
  else if o < 0x48 then (word (s.fnReg t (o / 8 * 8)), s)
  else if 0x1000 ≤ o ∧ o < 0x2000 then (0, s)
  else if 0x4000 ≤ o ∧ o < 0x4420 then (leNat (f.mbRequest.readN (o - 0x4000) w), s)
  else if 0x4800 ≤ o ∧ o < 0x4C20 then (leNat (f.mbResponse.readN (o - 0x4800) w), s)
  else if 0x4F00 ≤ o ∧ o < 0x4F08 then (0, s)
  else if 0x4F08 ≤ o ∧ o < 0x4F10 then (word (f.mbBusy.toNat + 2 * f.mbDone.toNat), s)
  else if 0x8000 ≤ o ∧ o < 0x8400 then (leNat (f.msixTable.readN (o - 0x8000) w), s)
  else if 0x9000 ≤ o ∧ o < 0x9008 then (word (sumNat (f.msixPending.map (fun v => 2 ^ v))), s)
  else (0, s.hostViolation (s.tenantPort t))

/-! ## Objects (R455) -/

/-- A write of one member as its owner's response is sent; one that a rule refuses changes nothing, as one of a RWS or
OTP member outside a session (R8). -/
def State.memberWrite (s : State) (i m : Nat) (b : List Byte) : State :=
  if s.sys.phase ≠ .ready ∧ s.sys.phase ≠ .tripped then s
  else
    match (objRow? i m).bind (fun r => r.ty.take b) with
    | some (v, []) =>
      match s.writeObject i false [(m, v)] with
      | .ok t => t.settleReset
      | .error _ => s
    | _ => s

def State.registerWrite (s : State) (w : RegWrite) : State :=
  match w with
  | .bar0 t o n v => s.barWrite t o n v
  | .object i m b => s.memberWrite i m b

def execRegisterWrite (w : RegWrite) (s : State) : Res := .next (s.registerWrite w)

end Sys2Proof.Machine
end

