-- ==== Sys2Proof/Machine/Spdm.lean ====
section
/-! DEFINITION. The SPDM responder and the management port's other traffic (R463, R466; log 53). -/
namespace Sys2Proof.Machine

/-! ## SPDM (R466) -/

/-- Request codes of SPDM. -/
def spdmGetDigests : Nat := 0x81
def spdmGetCertificate : Nat := 0x82
def spdmChallenge : Nat := 0x83
def spdmGetVersion : Nat := 0x84
def spdmGetMeasurements : Nat := 0xE0
def spdmGetCapabilities : Nat := 0xE1
def spdmNegotiate : Nat := 0xE3

/-- An unset responder. -/
def SpdmSt.fresh : SpdmSt := { reached := 0, version := 0x10, setup := [], certs := [], measured := [] }

def State.spdmAt (s : State) (f : Nat) : SpdmSt := (s.mgmt.spdm.find f).getD SpdmSt.fresh

def State.setSpdm (s : State) (f : Nat) (x : SpdmSt) : State :=
  { s with mgmt := { s.mgmt with spdm := s.mgmt.spdm.put f x } }

/-- A message: version, code and two parameters, then its body. -/
def spdmMsg (version code p1 p2 : Nat) (body : List Byte) : List Byte :=
  natLe 1 version ++ natLe 1 code ++ natLe 1 p1 ++ natLe 1 p2 ++ body

/-- An ERROR answer. -/
def spdmError (version error data : Nat) : List Byte := spdmMsg version 0x7F error data []
def spdmInvalid : Nat := 0x01
def spdmUnexpected : Nat := 0x04
def spdmUnsupported : Nat := 0x07
def spdmMismatch : Nat := 0x41

/-- Whether a physical function's DOE is served: its link is up and Basecamp is ready. -/
def State.spdmServed (s : State) (port link : Nat) : Bool :=
  s.sys.phase == .ready && s.host.linksUp.contains (port % 2 * 4 + link % 4)

/-- What a request answers: the answer, the responder, and the state. -/
abbrev SpdmRes := List Byte × SpdmSt × State

/-- What stops a request before it is looked at: a length, an order, or a version that is not the connection's. -/
def SpdmSt.early (x : SpdmSt) (needs : Nat) (p : List Byte) : Option (List Byte) :=
  if p.length < 4 then some (spdmError x.version spdmInvalid 0)
  else if x.reached < needs then some (spdmError x.version spdmUnexpected 0)
  else if 2 ≤ needs ∧ getLe p 0 1 ≠ x.version then some (spdmError x.version spdmMismatch 0)
  else none

/-- GET_VERSION: versions 1.2 and 1.3; the connection starts afresh. -/
def State.spdmVersionAnswer (s : State) (x : SpdmSt) (p : List Byte) : SpdmRes :=
  if p.length < 4 then (spdmError 0x10 spdmInvalid 0, x, s)
  else if getLe p 0 1 ≠ 0x10 then (spdmError 0x10 spdmMismatch 0, x, s)
  else
    let a := spdmMsg 0x10 0x04 0 0 (natLe 1 0 ++ natLe 1 2 ++ natLe 2 0x1200 ++ natLe 2 0x1300)
    (a, { SpdmSt.fresh with reached := 1, setup := p ++ a }, s)

/-- GET_CAPABILITIES: certificates, challenges and signed measurements; its version is the connection's. -/
def State.spdmCapabilities (s : State) (x : SpdmSt) (p : List Byte) : SpdmRes :=
  match x.early 1 p with
  | some e => (e, x, s)
  | none =>
    let v := getLe p 0 1
    if v ≠ 0x12 ∧ v ≠ 0x13 then (spdmError x.version spdmMismatch 0, x, s)
    else
      let a := spdmMsg v 0x61 0 0
        (natLe 1 0 ++ natLe 1 Config.spdmExponent ++ natLe 2 0 ++ natLe 4 0x16 ++ fitTo 8 Config.spdmSizes)
      (a, { x with reached := 2, version := v, setup := x.setup ++ p ++ a }, s)

/-- NEGOTIATE_ALGORITHMS: ECDSA with P-384 and SHA-384, the only ones. -/
def State.spdmAlgorithms (s : State) (x : SpdmSt) (p : List Byte) : SpdmRes :=
  match x.early 2 p with
  | some e => (e, x, s)
  | none =>
    let a := spdmMsg x.version 0x63 0 0
      (natLe 2 36 ++ natLe 1 1 ++ natLe 1 0 ++ natLe 4 4 ++ natLe 4 0x80 ++ natLe 4 2 ++ zeros 12 ++ zeros 4)
    (a, { x with reached := 3, setup := x.setup ++ p ++ a }, s)

/-- GET_DIGESTS: slot 0 alone holds a chain. -/
def State.spdmDigests (s : State) (x : SpdmSt) (p : List Byte) : SpdmRes :=
  match x.early 3 p with
  | some e => (e, x, s)
  | none =>
    let a := spdmMsg x.version 0x01 0 1 (sha384 Config.certChain)
    (a, { x with certs := x.certs ++ p ++ a }, s)

/-- GET_CERTIFICATE: a portion of the chain of slot 0. -/
def State.spdmCertificate (s : State) (x : SpdmSt) (p : List Byte) : SpdmRes :=
  match x.early 3 p with
  | some e => (e, x, s)
  | none =>
    let chain := Config.certChain
    let off := getLe p 4 2
    let n := min (getLe p 6 2) (chain.length - off)
    if p.length < 8 ∨ getLe p 2 1 % 16 ≠ 0 ∨ chain.length ≤ off then (spdmError x.version spdmInvalid 0, x, s)
    else
      let a := spdmMsg x.version 0x02 0 0 (natLe 2 n ++ natLe 2 (chain.length - off - n) ++ sliceB chain off n)
      (a, { x with certs := x.certs ++ p ++ a }, s)

/-- Bytes of a requester context, which version 1.3 adds. -/
def spdmContext (version : Nat) : Nat := if version = 0x13 then 8 else 0

/-- CHALLENGE: the measurements and a nonce, signed by the identity key over the connection's messages. -/
def State.spdmChallengeAnswer (s : State) (x : SpdmSt) (p : List Byte) : SpdmRes :=
  match x.early 3 p with
  | some e => (e, x, s)
  | none =>
    if p.length < 36 + spdmContext x.version ∨ getLe p 2 1 % 16 ≠ 0 then (spdmError x.version spdmInvalid 0, x, s)
    else
      let draw := s.freeCount
      let (nonce, s) := s.free 256
      let sum := if getLe p 3 1 = 0 then [] else sha384 (s.mgmt.meas.flatMap (fitTo 48))
      let a := spdmMsg x.version 0x03 0 1
        (sha384 Config.certChain ++ natLe 32 nonce.toNat ++ sum ++ natLe 2 0 ++ sliceB p 36 (spdmContext x.version))
      let sign := fitTo 96 (Config.spdmSign draw x.version 0 (x.setup ++ x.certs ++ p ++ a))
      (a ++ sign, { x with certs := [] }, s)

/-- The measurement block of an index, 1 to 8. -/
def State.spdmBlock (s : State) (k : Nat) : List Byte :=
  natLe 1 k ++ natLe 1 1 ++ natLe 2 51 ++ natLe 1 (Config.spdmMeasType k % 128) ++ natLe 2 48
    ++ fitTo 48 (s.mgmt.meas.getD (k - 1) zeroDigest)

/-- GET_MEASUREMENTS: index 0 asks for their number, 1 to 8 for one, 0xFF for all eight. -/
def State.spdmMeasurements (s : State) (x : SpdmSt) (p : List Byte) : SpdmRes :=
  match x.early 3 p with
  | some e => (e, x, s)
  | none =>
    let signed := bitAt (getLe p 2 1) 0
    let index := getLe p 3 1
    let ks := if index = 0xFF then [1, 2, 3, 4, 5, 6, 7, 8] else if 1 ≤ index ∧ index ≤ 8 then [index] else []
    let tail := if signed then 37 else 4
    if p.length < tail + spdmContext x.version ∨ (ks.isEmpty = true ∧ index ≠ 0) then (spdmError x.version spdmInvalid 0, x, s)
    else
      let blocks := ks.flatMap s.spdmBlock
      let draw := s.freeCount
      let (nonce, s) := s.free 256
      let a := spdmMsg x.version 0x60 (if index = 0 then 8 else 0) 0
        (natLe 1 ks.length ++ natLe 3 blocks.length ++ blocks ++ natLe 32 nonce.toNat ++ natLe 2 0
          ++ sliceB p tail (spdmContext x.version))
      let l := x.measured ++ p ++ a
      if signed then
        (a ++ fitTo 96 (Config.spdmSign draw x.version 1 (x.setup ++ l)), { x with measured := [] }, s)
      else (a, { x with measured := l }, s)

/-- Any other request. -/
def State.spdmOther (s : State) (x : SpdmSt) (p : List Byte) : SpdmRes :=
  (spdmError x.version spdmUnsupported (getLe p 1 1), x, s)

/-- A request over the DOE of a physical function. -/
def State.spdm (s : State) (port link : Nat) (act : State → SpdmSt → SpdmRes) : State :=
  if !s.spdmServed port link then s
  else
    let f := port % 2 * 4 + link % 4
    let (a, x, s) := act s (s.spdmAt f)
    (s.setSpdm f x).emit (.spdm (port % 2) (link % 4) a)

def execGetVersion (port link : Nat) (p : List Byte) (s : State) : Res :=
  .next (s.spdm port link (fun s x => s.spdmVersionAnswer x p))
def execGetCapabilities (port link : Nat) (p : List Byte) (s : State) : Res :=
  .next (s.spdm port link (fun s x => s.spdmCapabilities x p))
def execNegotiateAlgorithms (port link : Nat) (p : List Byte) (s : State) : Res :=
  .next (s.spdm port link (fun s x => s.spdmAlgorithms x p))
def execGetDigests (port link : Nat) (p : List Byte) (s : State) : Res :=
  .next (s.spdm port link (fun s x => s.spdmDigests x p))
def execGetCertificate (port link : Nat) (p : List Byte) (s : State) : Res :=
  .next (s.spdm port link (fun s x => s.spdmCertificate x p))
def execChallenge (port link : Nat) (p : List Byte) (s : State) : Res :=
  .next (s.spdm port link (fun s x => s.spdmChallengeAnswer x p))
def execGetMeasurements (port link : Nat) (p : List Byte) (s : State) : Res :=
  .next (s.spdm port link (fun s x => s.spdmMeasurements x p))
def execSpdmUnsupportedRequest (port link : Nat) (p : List Byte) (s : State) : Res :=
  .next (s.spdm port link (fun s x => s.spdmOther x p))

/-! ## Other traffic of the management port (R463) -/

/-- Kinds of frames that the port sends of its own: ARP, neighbour advertisement, echo reply. -/
def frameArp : Nat := 0
def frameNeighbour : Nat := 1
def frameEcho : Nat := 2

/-- Whether the port answers at all. -/
def State.portServed (s : State) : Bool :=
  (s.sys.phase == .ready || s.sys.phase == .tripped) && s.oflag 0x60A0 1

/-- The link-local address formed from MAC_ADDR (log 53). -/
def State.linkLocal (s : State) : List Byte :=
  let mac := fitTo 6 (s.oblob 0x60A0 10)
  [0xFE, 0x80, 0, 0, 0, 0, 0, 0] ++ [mac.getD 0 0 ^^^ 2] ++ sliceB mac 1 2 ++ [0xFF, 0xFE] ++ sliceB mac 3 3

/-- Whether an IPv6 address is one of the port's. -/
def State.ownV6 (s : State) (a : List Byte) : Bool := a == s.linkLocal || (!a.isEmpty && a == s.oblob 0x60A0 11)

/-- Whether an IPv4 address is the port's; IPv4 is off while it is zero. -/
def State.ownV4 (s : State) (a : Nat) : Bool := a != 0 && a == s.onum 0x60A0 2

/-- ARP: the port answers for its own IPv4 address with its MAC address. -/
def State.arpAsk (s : State) (ip : Nat) : State :=
  if s.portServed && s.ownV4 ip then s.emit (.frame frameArp (fitTo 6 (s.oblob 0x60A0 10) ++ natBe 4 ip)) else s

/-- NEIGHBOUR_DISCOVERY. -/
def State.neighbourAsk (s : State) (target : List Byte) : State :=
  if s.portServed && s.ownV6 target then s.emit (.frame frameNeighbour (target ++ fitTo 6 (s.oblob 0x60A0 10))) else s

/-- ICMP_ECHO: the payload goes back from the address asked. -/
def State.echoAsk (s : State) (target payload : List Byte) : State :=
  let own := if target.length = 4 then s.ownV4 (beNat target) else s.ownV6 target
  if s.portServed && own then s.emit (.frame frameEcho (target ++ payload)) else s

def execArp (ip : Nat) (s : State) : Res := .next (s.arpAsk ip)
def execNeighbourDiscovery (target : List Byte) (s : State) : Res := .next (s.neighbourAsk target)
def execIcmpEcho (target payload : List Byte) (s : State) : Res := .next (s.echoAsk target payload)

/-- OTHER_TRAFFIC is dropped. -/
def execOtherTraffic (s : State) : Res := .next s

end Sys2Proof.Machine
end

