-- ==== Sys2Proof/Machine/Vector.lean ====
section
/-! DEFINITION. The vector instructions of a strand (R277 to R294). -/
namespace Sys2Proof.Machine

/-! ## Elements, groups and activity (R280, R282) -/

def esBytes (es : Fin 4) : Nat := 2 ^ es.val
def esBits (es : Fin 4) : Nat := 8 * 2 ^ es.val

/-- Registers of an operand: one in the short form, 2^GROUP in the long form. -/
def StrandSt.vregs (t : StrandSt) (a : VArgs) : Nat := if a.long then 2 ^ t.vlGroup else 1

/-- Element positions of an operand, and those below the element count or VL. A long form whose ES is above the SEW of the last
VSETVL may have a VL above the positions of its group: R282 places such elements in registers beyond it, and the operand is cut
to its positions here (DESIGN CHOICE; log 36). -/
def StrandSt.vmax (t : StrandSt) (a : VArgs) : Nat := 64 * t.vregs a / esBytes a.es
def StrandSt.vcount (t : StrandSt) (a : VArgs) : Nat := if a.long then min t.vlLen (t.vmax a) else t.vmax a

/-- A register number as an index. -/
def vIdx (n : Nat) : Fin 32 := ⟨n % 32, Nat.mod_lt n (by decide)⟩

/-- Element `i` of the operand that starts at a register. -/
def StrandSt.elem (t : StrandSt) (a : VArgs) (base : Fin 32) (i : Nat) : Nat :=
  let pos := i * esBytes a.es
  (t.v[vIdx (base.val + pos / 64)]).toNat / 2 ^ (8 * (pos % 64)) % 2 ^ esBits a.es

/-- A predicate register; p0 reads as all ones (R279). -/
def StrandSt.rp (t : StrandSt) (i : Fin 8) : Pred := if i = 0 then BitVec.allOnes 256 else t.p[i]

/-- A write to p0 is discarded. -/
def StrandSt.wp (t : StrandSt) (i : Fin 8) (x : Pred) : StrandSt := if i = 0 then t else { t with p := t.p.set i x }

def pIdx (i : Fin 32) : Fin 8 := ⟨i.val % 8, Nat.mod_lt i.val (by decide)⟩

/-- Active elements, in ascending order. -/
def StrandSt.actives (t : StrandSt) (a : VArgs) : List Nat :=
  (List.range (t.vcount a)).filter (fun i => (t.rp a.pg).getLsbD i)

/-- The bits of one register from the elements that lie in it. -/
def packReg (bits : Nat) (l : List Nat) : Vec :=
  BitVec.ofNat 512 (l.zipIdx.foldl (fun acc p => acc + p.1 % 2 ^ bits * 2 ^ (bits * p.2)) 0)

/-- Writes an operand's registers from its elements. -/
def StrandSt.putElems (t : StrandSt) (a : VArgs) (base : Fin 32) (l : List Nat) : StrandSt :=
  let per := 64 / esBytes a.es
  (List.range (t.vregs a)).foldl (fun t r =>
    { t with v := t.v.set (vIdx (base.val + r)) (packReg (esBits a.es) ((l.drop (r * per)).take per)) }) t

/-- A vector result under R282: `f i` at the active elements. -/
def StrandSt.putActive (t : StrandSt) (a : VArgs) (act : List Nat) (f : Nat → Nat) : StrandSt :=
  let n := t.vcount a
  t.putElems a a.vd ((List.range (t.vmax a)).map (fun i =>
    if act.contains i then f i else if n ≤ i then 0 else if a.z then 0 else t.elem a a.vd i))

/-- A predicate of some bits. -/
def predOf (n : Nat) (f : Nat → Bool) : Pred :=
  BitVec.ofNat 256 ((List.range n).foldl (fun acc i => if f i then acc + 2 ^ i else acc) 0)

/-! ## Illegal words (R284) -/

/-- A vector register number of the form: a multiple of the group size in the long form. -/
def StrandSt.regOk (t : StrandSt) (a : VArgs) (r : Fin 32) : Bool := r.val % t.vregs a == 0

def StrandSt.regs3 (t : StrandSt) (a : VArgs) : Bool := t.regOk a a.vd && t.regOk a a.vs1 && t.regOk a a.vs2
def StrandSt.regs2 (t : StrandSt) (a : VArgs) : Bool := t.regOk a a.vd && t.regOk a a.vs1 && a.vs2 == 0
def fpSize (a : VArgs) : Bool := a.es == 2 || a.es == 3

/-- Runs a vector instruction whose fields are legal; others raise ILLEGAL with their word. -/
def State.vrun (s : State) (st : StrandRef) (op f : Nat) (a : VArgs) (ok : StrandSt → Bool)
    (body : StrandSt → StrandTask → State → SEff) : Res :=
  s.strandRun st (fun t k s =>
    if ok t then body t k s else .trap 2 (BitVec.ofNat 64 (Decode.wordV op f a)))

/-! ## VINT (Table 09.4) -/

/-- vd = f vs1 vs2 per element. -/
def State.vint (s : State) (st : StrandRef) (f : Nat) (a : VArgs) (g : Nat → Nat → Nat → Nat) : Res :=
  s.vrun st 0x30 f a (fun t => t.regs3 a) (fun t _ s =>
    .ok (t.putActive a (t.actives a) (fun i => g (esBits a.es) (t.elem a a.vs1 i) (t.elem a a.vs2 i))).advance s)

def sElem (b x : Nat) : Int := toSigned b x

def execVadd (st : StrandRef) (a : VArgs) (s : State) : Res := s.vint st 0x0 a (fun _ x y => x + y)
def execVsub (st : StrandRef) (a : VArgs) (s : State) : Res := s.vint st 0x1 a (fun b x y => x + (2 ^ b - y))
def execVand (st : StrandRef) (a : VArgs) (s : State) : Res := s.vint st 0x2 a (fun _ x y => x &&& y)
def execVor (st : StrandRef) (a : VArgs) (s : State) : Res := s.vint st 0x3 a (fun _ x y => x ||| y)
def execVxor (st : StrandRef) (a : VArgs) (s : State) : Res := s.vint st 0x4 a (fun _ x y => x ^^^ y)
def execVsll (st : StrandRef) (a : VArgs) (s : State) : Res := s.vint st 0x5 a (fun b x y => x * 2 ^ (y % b))
def execVsrl (st : StrandRef) (a : VArgs) (s : State) : Res := s.vint st 0x6 a (fun b x y => x / 2 ^ (y % b))
def execVsra (st : StrandRef) (a : VArgs) (s : State) : Res :=
  s.vint st 0x7 a (fun b x y => ofSigned b (sElem b x / 2 ^ (y % b)))
def execVmul (st : StrandRef) (a : VArgs) (s : State) : Res := s.vint st 0x8 a (fun _ x y => x * y)
def execVmin (st : StrandRef) (a : VArgs) (s : State) : Res :=
  s.vint st 0x9 a (fun b x y => if sElem b x < sElem b y then x else y)
def execVmax (st : StrandRef) (a : VArgs) (s : State) : Res :=
  s.vint st 0xA a (fun b x y => if sElem b x < sElem b y then y else x)
def execVminu (st : StrandRef) (a : VArgs) (s : State) : Res := s.vint st 0xB a (fun _ x y => min x y)
def execVmaxu (st : StrandRef) (a : VArgs) (s : State) : Res := s.vint st 0xC a (fun _ x y => max x y)

def execVhstep (st : StrandRef) (a : VArgs) (s : State) : Res :=
  s.vrun st 0x30 0xD a (fun t => t.regs3 a && a.es == 3) (fun t _ s =>
    .ok (t.putActive a (t.actives a) (fun i =>
      (hashStep (BitVec.ofNat 64 (t.elem a a.vs1 i)) (BitVec.ofNat 64 (t.elem a a.vs2 i))).toNat)).advance s)
def execVhfin (st : StrandRef) (a : VArgs) (s : State) : Res :=
  s.vrun st 0x30 0xE a (fun t => t.regs2 a && a.es == 3) (fun t _ s =>
    .ok (t.putActive a (t.actives a) (fun i => (hashFin (BitVec.ofNat 64 (t.elem a a.vs1 i))).toNat)).advance s)
def execVbcast (st : StrandRef) (a : VArgs) (s : State) : Res :=
  s.vrun st 0x30 0xF a (fun t => t.regOk a a.vd && a.vs2 == 0) (fun t _ s =>
    .ok (t.putActive a (t.actives a) (fun _ => (t.rg a.vs1).toNat)).advance s)

/-! ## VFP (Table 09.4, R289) -/

def vfmt (a : VArgs) : Fmt := fmtOf (a.es == 2)

/-- The flags that the active elements together set. -/
def actFlags (act : List Nat) (f : Nat → Nat × Nat) : Nat := act.foldl (fun acc i => acc ||| (f i).2) 0

/-- vd = f per element, with the flags of all active elements. -/
def State.vfp (s : State) (st : StrandRef) (f : Nat) (a : VArgs) (ok : StrandSt → Bool)
    (g : StrandSt → Nat → Nat × Nat) : Res :=
  s.vrun st 0x31 f a ok (fun t _ s =>
    let act := t.actives a
    fpEnd (t.putActive a act (fun i => (g t i).1)) (actFlags act (g t)) s)

/-- A two-operand vector operation of FP32 or FP64. -/
def State.vfp2 (s : State) (st : StrandRef) (f : Nat) (a : VArgs) (g : Fmt → Nat → Nat → Nat → Nat × Nat) : Res :=
  s.vfp st f a (fun t => t.regs3 a && fpSize a) (fun t i => g (vfmt a) t.rm (t.elem a a.vs1 i) (t.elem a a.vs2 i))

def execVfadd (st : StrandRef) (a : VArgs) (s : State) : Res := s.vfp2 st 0x0 a fpAdd
def execVfsub (st : StrandRef) (a : VArgs) (s : State) : Res := s.vfp2 st 0x1 a fpSub
def execVfmul (st : StrandRef) (a : VArgs) (s : State) : Res := s.vfp2 st 0x2 a fpMul
def execVfdiv (st : StrandRef) (a : VArgs) (s : State) : Res := s.vfp2 st 0x3 a fpDiv
def execVfmadd (st : StrandRef) (a : VArgs) (s : State) : Res :=
  s.vfp st 0x4 a (fun t => t.regs3 a && fpSize a) (fun t i =>
    fpFma (vfmt a) t.rm (t.elem a a.vs1 i) (t.elem a a.vs2 i) (t.elem a a.vd i))
def execVfmin (st : StrandRef) (a : VArgs) (s : State) : Res := s.vfp2 st 0x5 a (fun f _ x y => fpMin f x y)
def execVfmax (st : StrandRef) (a : VArgs) (s : State) : Res := s.vfp2 st 0x6 a (fun f _ x y => fpMaxOf f x y)
def execVfsqrt (st : StrandRef) (a : VArgs) (s : State) : Res :=
  s.vfp st 0x7 a (fun t => t.regs2 a && fpSize a) (fun t i => fpSqrt (vfmt a) t.rm (t.elem a a.vs1 i))
def execVfcvtl (st : StrandRef) (a : VArgs) (s : State) : Res :=
  s.vfp st 0x8 a (fun t => t.regs2 a && a.es == 3) (fun t i => fpToI64 fp64 t.rm (t.elem a a.vs1 i))
def execVfcvtf (st : StrandRef) (a : VArgs) (s : State) : Res :=
  s.vfp st 0x9 a (fun t => t.regs2 a && a.es == 3) (fun t i => fpFromInt fp64 t.rm (toSigned 64 (t.elem a a.vs1 i)))

/-! ## VCMP (Table 09.4) -/

/-- A predicate of a comparison: 0 at every inactive and tail element (R282). -/
def State.vcmp (s : State) (st : StrandRef) (f : Nat) (a : VArgs) (fp : Bool) (g : Nat → Nat → Nat → Bool × Nat) : Res :=
  s.vrun st 0x32 f a (fun t => decide (a.vd.val < 8) && t.regOk a a.vs1 && t.regOk a a.vs2 && (!fp || fpSize a))
    (fun t _ s =>
      let act := t.actives a
      let r (i : Nat) : Bool × Nat := g (esBits a.es) (t.elem a a.vs1 i) (t.elem a a.vs2 i)
      fpEnd (t.wp (pIdx a.vd) (predOf 256 (fun i => act.contains i && (r i).1)))
        (act.foldl (fun acc i => acc ||| (r i).2) 0) s)

def execVcmpEq (st : StrandRef) (a : VArgs) (s : State) : Res := s.vcmp st 0x0 a false (fun _ x y => (x == y, 0))
def execVcmpNe (st : StrandRef) (a : VArgs) (s : State) : Res := s.vcmp st 0x1 a false (fun _ x y => (x != y, 0))
def execVcmpLt (st : StrandRef) (a : VArgs) (s : State) : Res :=
  s.vcmp st 0x2 a false (fun b x y => (decide (sElem b x < sElem b y), 0))
def execVcmpLe (st : StrandRef) (a : VArgs) (s : State) : Res :=
  s.vcmp st 0x3 a false (fun b x y => (decide (sElem b x ≤ sElem b y), 0))
def execVcmpLtu (st : StrandRef) (a : VArgs) (s : State) : Res := s.vcmp st 0x4 a false (fun _ x y => (decide (x < y), 0))
def execVcmpLeu (st : StrandRef) (a : VArgs) (s : State) : Res := s.vcmp st 0x5 a false (fun _ x y => (decide (x ≤ y), 0))
def execVcmpFeq (st : StrandRef) (a : VArgs) (s : State) : Res := s.vcmp st 0x6 a true (fun _ x y => fpEq (vfmt a) x y)
def execVcmpFlt (st : StrandRef) (a : VArgs) (s : State) : Res := s.vcmp st 0x7 a true (fun _ x y => fpLt (vfmt a) x y)
def execVcmpFle (st : StrandRef) (a : VArgs) (s : State) : Res := s.vcmp st 0x8 a true (fun _ x y => fpLe (vfmt a) x y)

/-! ## Vector memory (Table 09.5, R285 to R292) -/

/-- What the loads of some elements answer: values by element, L1D misses, or the element that stands against it. -/
inductive VRes where
  | ok (vals : List (Nat × Nat)) (s : State) (misses : Nat)
  /-- The element, its trap, and what was loaded before it. -/
  | trap (i cause : Nat) (tval : Word) (vals : List (Nat × Nat)) (s : State) (misses : Nat)
  | wait (s : State)
  | full (cause cls : Nat) (s : State)

/-- Loads elements in ascending order. -/
def State.loadElems (s : State) (st : StrandRef) (k : StrandTask) (n : Nat) (addr : Nat → Word) : List Nat →
    List (Nat × Nat) → Nat → VRes
  | [], acc, m => .ok acc s m
  | i :: l, acc, m =>
    match s.strandLoad st k (addr i) n with
    | .ok b s x => s.loadElems st k n addr l (acc ++ [(i, leNat b)]) (m + x)
    | .trap c v => .trap i c v acc s m
    | .wait s => .wait s
    | .full c cls s => .full c cls s

/-- The DTLB lookups of some elements. -/
def State.dtlbElems (s : State) (k : StrandTask) (t : StrandSt) (n : Nat) (addr : Nat → Word) (l : List Nat) :
    StrandSt × State :=
  l.foldl (fun x i => x.2.dtlbUse k x.1 (addr i).toNat n) (t, s)

def lookupVal (l : List (Nat × Nat)) (i : Nat) : Nat := ((l.find? (fun p => p.1 == i)).map (fun p => p.2)).getD 0

/-- A vector load; a first-fault form cuts itself off at a fault beyond its first active element (R291, R292). -/
def State.vload (s : State) (st : StrandRef) (op f : Nat) (a : VArgs) (ok : StrandSt → Bool) (ff : Bool)
    (addr : StrandSt → Nat → Word) : Res :=
  s.vrun st op f a ok (fun t k s =>
    let act := t.actives a
    match s.loadElems st k (esBytes a.es) (addr t) act [] 0 with
    | .ok vals s m =>
      let (t, s) := s.dtlbElems k t (esBytes a.es) (addr t) act
      let t := (t.putActive a act (lookupVal vals)).event 1 m
      .ok (if ff then { t with ffr := BitVec.allOnes 256 } else t).advance s
    | .trap i c v vals s' m =>
      if ff && act.head? != some i then
        let (t, s') := s'.dtlbElems k t (esBytes a.es) (addr t) (act.filter (fun j => decide (j < i)))
        let t := (t.putActive a (act.filter (fun j => decide (j < i))) (lookupVal vals)).event 1 m
        .ok { t with ffr := predOf i (fun _ => true) }.advance s'
      else .trap c v
    | .wait s => .wait s
    | .full c cls s => .full c cls s)

/-- Checks every active element of a store before any byte enters the queue (R286). -/
def State.checkElems (s : State) (k : StrandTask) (n : Nat) (addr : Nat → Word) : List Nat → LRes
  | [] => .ok [] s 0
  | i :: l =>
    match s.storeCheck k (addr i) n with
    | .ok _ s _ => s.checkElems k n addr l
    | x => x

/-- The stores of a vector store: active elements in ascending order; a whole line of a register is one (R299). -/
def StrandSt.vecStores (t : StrandSt) (a : VArgs) (act : List Nat) (lines : Bool) (addr : Nat → Word) : List StoreEnt :=
  let n := esBytes a.es
  let per := 64 / n
  let whole (r : Nat) : Bool := lines && (addr (r * per)).toNat % 64 == 0
    && (List.range per).all (fun j => act.contains (r * per + j))
  (List.range (t.vregs a)).flatMap (fun r =>
    if whole r then
      [{ addr := addr (r * per), bytes := (List.range per).flatMap (fun j => natLe n (t.elem a a.vd (r * per + j))) }]
    else (act.filter (fun i => i / per == r)).map (fun i => { addr := addr i, bytes := natLe n (t.elem a a.vd i) }))

/-- A vector store: its active elements enter the queue in ascending order. -/
def State.vstore (s : State) (st : StrandRef) (op f : Nat) (a : VArgs) (ok : StrandSt → Bool) (lines : Bool)
    (addr : StrandSt → Nat → Word) : Res :=
  s.vrun st op f a ok (fun t k s =>
    let n := esBytes a.es
    let act := t.actives a
    match s.checkElems k n (addr t) act with
    | .ok _ s _ =>
      let (t, s) := s.dtlbElems k t n (addr t) act
      s.enqueue st k t (t.vecStores a act lines (addr t))
    | .trap c v => .trap c v
    | .wait s => .wait s
    | .full c cls s => .full c cls s)

def contAddr (a : VArgs) (t : StrandSt) (i : Nat) : Word := t.rg a.vs1 + BitVec.ofNat 64 (i * esBytes a.es)
def strideAddr (a : VArgs) (t : StrandSt) (i : Nat) : Word := t.rg a.vs1 + BitVec.ofNat 64 i * t.rg a.vs2
def indexAddr (a : VArgs) (t : StrandSt) (i : Nat) : Word :=
  t.rg a.vs1 + BitVec.ofNat 64 (t.elem a a.vs2 i * esBytes a.es)

/-- The VD group does not overlap the VS2 group (R284). -/
def StrandSt.apart (t : StrandSt) (a : VArgs) : Bool := !overlaps a.vd.val (t.vregs a) a.vs2.val (t.vregs a)

def execVld (st : StrandRef) (a : VArgs) (s : State) : Res :=
  s.vload st 0x33 0x0 a (fun t => t.regOk a a.vd && a.vs2 == 0) false (contAddr a)
def execVldff (st : StrandRef) (a : VArgs) (s : State) : Res :=
  s.vload st 0x33 0x1 a (fun t => t.regOk a a.vd && a.vs2 == 0) true (contAddr a)
def execVst (st : StrandRef) (a : VArgs) (s : State) : Res :=
  s.vstore st 0x33 0x2 a (fun t => t.regOk a a.vd && a.vs2 == 0 && !a.z) true (contAddr a)
def execVlds (st : StrandRef) (a : VArgs) (s : State) : Res :=
  s.vload st 0x33 0x3 a (fun t => t.regOk a a.vd) false (strideAddr a)
def execVsts (st : StrandRef) (a : VArgs) (s : State) : Res :=
  s.vstore st 0x33 0x4 a (fun t => t.regOk a a.vd && !a.z) false (strideAddr a)
def execVgather (st : StrandRef) (a : VArgs) (s : State) : Res :=
  s.vload st 0x34 0x0 a (fun t => t.regOk a a.vd && t.regOk a a.vs2 && t.apart a) false (indexAddr a)
def execVgatherff (st : StrandRef) (a : VArgs) (s : State) : Res :=
  s.vload st 0x34 0x1 a (fun t => t.regOk a a.vd && t.regOk a a.vs2 && t.apart a) true (indexAddr a)
def execVscatter (st : StrandRef) (a : VArgs) (s : State) : Res :=
  s.vstore st 0x34 0x2 a (fun t => t.regOk a a.vd && t.regOk a a.vs2 && t.apart a && !a.z) false (indexAddr a)

/-! ## VCTL (Table 09.6) -/

/-- A function of the control group: short only. -/
def State.vctl (s : State) (st : StrandRef) (f : Nat) (a : VArgs) (ok : Bool) (body : StrandSt → StrandSt) : Res :=
  s.vrun st 0x35 f a (fun _ => ok && !a.long) (fun t _ s => .ok (body t).advance s)

def isPred (i : Fin 32) : Bool := decide (i.val < 8)

/-- VSETVL (R280). -/
def execVsetvl (st : StrandRef) (a : VArgs) (s : State) : Res :=
  s.vctl st 0x0 a (a.vs2.val % 4 == 0 && decide (a.vs2.val / 4 < 3) && a.pg == 0 && !a.z) (fun t =>
    let g := a.vs2.val / 4
    let vl := min (t.rg a.vs1).toNat (64 * 2 ^ g / esBytes a.es)
    { t with vlGroup := g, vlSew := a.es.val, vlLen := vl }.wg a.vd (BitVec.ofNat 64 vl))
def execPand (st : StrandRef) (a : VArgs) (s : State) : Res :=
  s.vctl st 0x1 a (isPred a.vd && isPred a.vs1 && isPred a.vs2 && a.es == 0) (fun t =>
    t.wp (pIdx a.vd) (t.rp (pIdx a.vs1) &&& t.rp (pIdx a.vs2)))
def execPor (st : StrandRef) (a : VArgs) (s : State) : Res :=
  s.vctl st 0x2 a (isPred a.vd && isPred a.vs1 && isPred a.vs2 && a.es == 0) (fun t =>
    t.wp (pIdx a.vd) (t.rp (pIdx a.vs1) ||| t.rp (pIdx a.vs2)))
def execPandn (st : StrandRef) (a : VArgs) (s : State) : Res :=
  s.vctl st 0x3 a (isPred a.vd && isPred a.vs1 && isPred a.vs2 && a.es == 0) (fun t =>
    t.wp (pIdx a.vd) (t.rp (pIdx a.vs1) &&& ~~~ t.rp (pIdx a.vs2)))
def execPnot (st : StrandRef) (a : VArgs) (s : State) : Res :=
  s.vctl st 0x4 a (isPred a.vd && isPred a.vs1 && a.vs2 == 0 && a.es == 0) (fun t =>
    t.wp (pIdx a.vd) (~~~ t.rp (pIdx a.vs1)))
def execFfmask (st : StrandRef) (a : VArgs) (s : State) : Res :=
  s.vctl st 0x5 a (isPred a.vd && a.vs1 == 0 && a.vs2 == 0 && a.es == 0) (fun t =>
    t.wp (pIdx a.vd) (predOf t.vlLen (fun i => t.ffr.getLsbD i)))
def execFffill (st : StrandRef) (a : VArgs) (s : State) : Res :=
  s.vctl st 0x6 a (a.vd == 0 && a.vs1 == 0 && a.vs2 == 0 && a.es == 0) (fun t => { t with ffr := BitVec.allOnes 256 })
def execFfput (st : StrandRef) (a : VArgs) (s : State) : Res :=
  s.vctl st 0x7 a (a.vd == 0 && isPred a.vs1 && a.vs2 == 0 && a.es == 0) (fun t => { t with ffr := t.rp (pIdx a.vs1) })
def execPcnt (st : StrandRef) (a : VArgs) (s : State) : Res :=
  s.vctl st 0x8 a (isPred a.vs1 && a.vs2 == 0 && a.es == 0) (fun t =>
    t.wg a.vd (BitVec.ofNat 64 (popCount t.vlLen (t.rp (pIdx a.vs1)).toNat)))
def execPtrue (st : StrandRef) (a : VArgs) (s : State) : Res :=
  s.vctl st 0x9 a (isPred a.vd && a.vs1 == 0 && a.vs2 == 0 && a.es == 0) (fun t =>
    t.wp (pIdx a.vd) (predOf t.vlLen (fun _ => true)))
def execFfcnt (st : StrandRef) (a : VArgs) (s : State) : Res :=
  s.vctl st 0xA a (a.vs1 == 0 && a.vs2 == 0 && a.es == 0) (fun t =>
    t.wg a.vd (BitVec.ofNat 64 (((List.range 256).find? (fun i => !t.ffr.getLsbD i)).getD 256)))

/-! ## VRED (Table 09.6) -/

/-- A reduction of the active elements into a g register. -/
def State.vred (s : State) (st : StrandRef) (f : Nat) (a : VArgs) (g : List Int → Word) : Res :=
  s.vrun st 0x36 f a (fun t => t.regOk a a.vs1 && a.vs2 == 0 && !a.z) (fun t _ s =>
    .ok (t.wg a.vd (g ((t.actives a).map (fun i => toSigned (esBits a.es) (t.elem a a.vs1 i))))).advance s)

def execVredadd (st : StrandRef) (a : VArgs) (s : State) : Res :=
  s.vred st 0x0 a (fun l => BitVec.ofInt 64 (l.foldl (· + ·) 0))
def execVredmin (st : StrandRef) (a : VArgs) (s : State) : Res :=
  s.vred st 0x1 a (fun l => BitVec.ofInt 64 (l.foldl min (2 ^ 63 - 1)))
def execVredmax (st : StrandRef) (a : VArgs) (s : State) : Res :=
  s.vred st 0x2 a (fun l => BitVec.ofInt 64 (l.foldl max (-(2 ^ 63))))
def execVext (st : StrandRef) (a : VArgs) (s : State) : Res :=
  s.vrun st 0x36 0x3 a (fun t => t.regOk a a.vs1 && a.pg == 0 && !a.z) (fun t _ s =>
    let i := (t.rg a.vs2).toNat
    .ok (t.wg a.vd (if i < t.vcount a then sextN (esBits a.es) (t.elem a a.vs1 i) else 0#64)).advance s)
def execVcompress (st : StrandRef) (a : VArgs) (s : State) : Res :=
  s.vrun st 0x36 0x4 a (fun t => t.regs2 a && !a.z) (fun t _ s =>
    let l := (t.actives a).map (fun i => t.elem a a.vs1 i)
    .ok (t.putElems a a.vd ((List.range (t.vmax a)).map (fun i => l.getD i 0))).advance s)
def execVmv (st : StrandRef) (a : VArgs) (s : State) : Res :=
  s.vrun st 0x36 0x5 a (fun t => t.regs2 a) (fun t _ s =>
    .ok (t.putActive a (t.actives a) (fun i => t.elem a a.vs1 i)).advance s)
/-- The ordered sum, each step rounded (Table 09.6). -/
def execVfredadd (st : StrandRef) (a : VArgs) (s : State) : Res :=
  s.vrun st 0x36 0x6 a (fun t => t.regOk a a.vs1 && a.vs2 == 0 && !a.z && fpSize a) (fun t _ s =>
    let single := a.es == 2
    let r := (t.actives a).foldl (fun (acc : Nat × Nat) i =>
      let x := fpAdd (vfmt a) t.rm acc.1 (t.elem a a.vs1 i)
      (x.1, acc.2 ||| x.2)) (t.rf single a.vd, 0)
    fpEnd (t.wf single a.vd r.1) r.2 s)

end Sys2Proof.Machine
end

