-- ==== Sys2Proof/Machine/Dispatch.lean ====
section
/-! DEFINITION. The meaning of every command: one arm per constructor, each one direct call. -/
namespace Sys2Proof.Machine

/-- The effect of a command on everything but the queue. -/
def exec (i : Instr) (s : State) : Host.Outcome State Fault Refusal :=
  match i with
  | .tick powerMw => Sys2Proof.Machine.execTick powerMw s
  | .cutoff => Sys2Proof.Machine.execCutoff s
  | .decision => Sys2Proof.Machine.execDecision s
  | .tickInEdge => Sys2Proof.Machine.execTickInEdge s
  | .tickInMiss => Sys2Proof.Machine.execTickInMiss s
  | .tickMarker port master source elapsed pitch => Sys2Proof.Machine.execTickMarker port master source elapsed pitch s
  | .belayAck a => Sys2Proof.Machine.execBelayAck a s
  | .resourceFailure r => Sys2Proof.Machine.execResourceFailure r s
  | .spanRestart k => Sys2Proof.Machine.execSpanRestart k s
  | .journalStallRelease => Sys2Proof.Machine.execJournalStallRelease s
  | .wqTailDoorbell tenant qid value => Sys2Proof.Machine.execWqTailDoorbell tenant qid value s
  | .cqHeadDoorbell tenant qid value => Sys2Proof.Machine.execCqHeadDoorbell tenant qid value s
  | .fetchEntry => Sys2Proof.Machine.execFetchEntry s
  | .wqStallTimeout tenant qid => Sys2Proof.Machine.execWqStallTimeout tenant qid s
  | .submitRoute e => Sys2Proof.Machine.execSubmitRoute e s
  | .createWq e => Sys2Proof.Machine.execCreateWq e s
  | .deleteWq e => Sys2Proof.Machine.execDeleteWq e s
  | .createCq e => Sys2Proof.Machine.execCreateCq e s
  | .deleteCq e => Sys2Proof.Machine.execDeleteCq e s
  | .setQuota e => Sys2Proof.Machine.execSetQuota e s
  | .grantSpill e => Sys2Proof.Machine.execGrantSpill e s
  | .revokeSpill e => Sys2Proof.Machine.execRevokeSpill e s
  | .openOutput e => Sys2Proof.Machine.execOpenOutput e s
  | .closeOutput e => Sys2Proof.Machine.execCloseOutput e s
  | .setWeight e => Sys2Proof.Machine.execSetWeight e s
  | .logStart e => Sys2Proof.Machine.execLogStart e s
  | .logStop e => Sys2Proof.Machine.execLogStop e s
  | .getLogErrorRecords e => Sys2Proof.Machine.execGetLogErrorRecords e s
  | .getLogCounters e => Sys2Proof.Machine.execGetLogCounters e s
  | .getLogOpenRoutes e => Sys2Proof.Machine.execGetLogOpenRoutes e s
  | .abortRoute e => Sys2Proof.Machine.execAbortRoute e s
  | .loadCairn e => Sys2Proof.Machine.execLoadCairn e s
  | .aqEnable tenant => Sys2Proof.Machine.execAqEnable tenant s
  | .aqDisable tenant => Sys2Proof.Machine.execAqDisable tenant s
  | .mbControlGo tenant => Sys2Proof.Machine.execMbControlGo tenant s
  | .registerWrite w => Sys2Proof.Machine.execRegisterWrite w s
  | .msixCoalesceTimeout tenant qid => Sys2Proof.Machine.execMsixCoalesceTimeout tenant qid s
  | .functionLevelReset tenant => Sys2Proof.Machine.execFunctionLevelReset tenant s
  | .managementReset tenant => Sys2Proof.Machine.execManagementReset tenant s
  | .tenantResetComplete tenant => Sys2Proof.Machine.execTenantResetComplete tenant s
  | .hostPortReset port => Sys2Proof.Machine.execHostPortReset port s
  | .perstNRelease port => Sys2Proof.Machine.execPerstNRelease port s
  | .malformedTlp port link => Sys2Proof.Machine.execMalformedTlp port link s
  | .hostReadCompletion tenant addr r => Sys2Proof.Machine.execHostReadCompletion tenant addr r s
  | .cxlMemRead addr => Sys2Proof.Machine.execCxlMemRead addr s
  | .cxlMemWrite addr data => Sys2Proof.Machine.execCxlMemWrite addr data s
  | .cxlMemPartialWrite addr mask data => Sys2Proof.Machine.execCxlMemPartialWrite addr mask data s
  | .memspecrd addr => Sys2Proof.Machine.execMemspecrd addr s
  | .cxlOtherM2s expectsData => Sys2Proof.Machine.execCxlOtherM2s expectsData s
  | .dmaCopy e => Sys2Proof.Machine.execDmaCopy e s
  | .compress e => Sys2Proof.Machine.execCompress e s
  | .decompress e => Sys2Proof.Machine.execDecompress e s
  | .digestOpen e => Sys2Proof.Machine.execDigestOpen e s
  | .digestFeed e => Sys2Proof.Machine.execDigestFeed e s
  | .digestRead e => Sys2Proof.Machine.execDigestRead e s
  | .dmaStop e => Sys2Proof.Machine.execDmaStop e s
  | .dmaResume e => Sys2Proof.Machine.execDmaResume e s
  | .dmaFlush e => Sys2Proof.Machine.execDmaFlush e s
  | .channelEntryStart ch => Sys2Proof.Machine.execChannelEntryStart ch s
  | .engineEntryComplete ch => Sys2Proof.Machine.execEngineEntryComplete ch s
  | .channelHalt ch f => Sys2Proof.Machine.execChannelHalt ch f s
  | .compressionJobStart => Sys2Proof.Machine.execCompressionJobStart s
  | .digestBlock => Sys2Proof.Machine.execDigestBlock s
  | .zeroPageCleared => Sys2Proof.Machine.execZeroPageCleared s
  | .suspendLimitExpiry k => Sys2Proof.Machine.execSuspendLimitExpiry k s
  | .migrationCopyDone page => Sys2Proof.Machine.execMigrationCopyDone page s
  | .migrationAbandon page => Sys2Proof.Machine.execMigrationAbandon page s
  | .publicationResume k => Sys2Proof.Machine.execPublicationResume k s
  | .taskDispatch ridge unit => Sys2Proof.Machine.execTaskDispatch ridge unit s
  | .taskDone ridge unit ctx => Sys2Proof.Machine.execTaskDone ridge unit ctx s
  | .joinSeal k stage ridge => Sys2Proof.Machine.execJoinSeal k stage ridge s
  | .summitMerge k pitch => Sys2Proof.Machine.execSummitMerge k pitch s
  | .publicationDone k => Sys2Proof.Machine.execPublicationDone k s
  | .paritySweep => Sys2Proof.Machine.execParitySweep s
  | .shadowScrub => Sys2Proof.Machine.execShadowScrub s
  | .storeRefused st => Sys2Proof.Machine.execStoreRefused st s
  | .clean => Sys2Proof.Machine.execClean s
  | .inval => Sys2Proof.Machine.execInval s
  | .cleaninval => Sys2Proof.Machine.execCleaninval s
  | .cacheDisable c => Sys2Proof.Machine.execCacheDisable c s
  | .cacheEnable c => Sys2Proof.Machine.execCacheEnable c s
  | .cacheSweepDone c => Sys2Proof.Machine.execCacheSweepDone c s
  | .rdShared m => Sys2Proof.Machine.execRdShared m s
  | .rdOwn m => Sys2Proof.Machine.execRdOwn m s
  | .upgrade m => Sys2Proof.Machine.execUpgrade m s
  | .rdNc m => Sys2Proof.Machine.execRdNc m s
  | .wrNc m => Sys2Proof.Machine.execWrNc m s
  | .cmoClean m => Sys2Proof.Machine.execCmoClean m s
  | .cmoCleaninval m => Sys2Proof.Machine.execCmoCleaninval m s
  | .cmoInval m => Sys2Proof.Machine.execCmoInval m s
  | .tokenReturn m => Sys2Proof.Machine.execTokenReturn m s
  | .snpShared m => Sys2Proof.Machine.execSnpShared m s
  | .snpInv m => Sys2Proof.Machine.execSnpInv m s
  | .snpData m => Sys2Proof.Machine.execSnpData m s
  | .snpClean m => Sys2Proof.Machine.execSnpClean m s
  | .fwdShared m => Sys2Proof.Machine.execFwdShared m s
  | .fwdOwn m => Sys2Proof.Machine.execFwdOwn m s
  | .snpDiscard m => Sys2Proof.Machine.execSnpDiscard m s
  | .gangRd m => Sys2Proof.Machine.execGangRd m s
  | .gangOwn m => Sys2Proof.Machine.execGangOwn m s
  | .cohAck m => Sys2Proof.Machine.execCohAck m s
  | .ackLost m => Sys2Proof.Machine.execAckLost m s
  | .cohRetry m => Sys2Proof.Machine.execCohRetry m s
  | .cohGrant m => Sys2Proof.Machine.execCohGrant m s
  | .cohCmp m => Sys2Proof.Machine.execCohCmp m s
  | .wbAck m => Sys2Proof.Machine.execWbAck m s
  | .ownerMoved m => Sys2Proof.Machine.execOwnerMoved m s
  | .cohData m => Sys2Proof.Machine.execCohData m s
  | .snpDataRsp m => Sys2Proof.Machine.execSnpDataRsp m s
  | .wbDirty m => Sys2Proof.Machine.execWbDirty m s
  | .evictClean m => Sys2Proof.Machine.execEvictClean m s
  | .pdSet m => Sys2Proof.Machine.execPdSet m s
  | .heartbeatSend => Sys2Proof.Machine.execHeartbeatSend s
  | .heartbeat port origin source state beat => Sys2Proof.Machine.execHeartbeat port origin source state beat s
  | .heartbeatTimeout device => Sys2Proof.Machine.execHeartbeatTimeout device s
  | .snoopTimeout device => Sys2Proof.Machine.execSnoopTimeout device s
  | .deathNotice m => Sys2Proof.Machine.execDeathNotice m s
  | .portEnable p => Sys2Proof.Machine.execPortEnable p s
  | .trainingTimeout p => Sys2Proof.Machine.execTrainingTimeout p s
  | .payloadFlit p flit parity => Sys2Proof.Machine.execPayloadFlit p flit parity s
  | .linkIdle p coded => Sys2Proof.Machine.execLinkIdle p coded s
  | .widthChange p coded => Sys2Proof.Machine.execWidthChange p coded s
  | .retrain p coded => Sys2Proof.Machine.execRetrain p coded s
  | .latencyProbe p coded => Sys2Proof.Machine.execLatencyProbe p coded s
  | .latencyEcho p coded => Sys2Proof.Machine.execLatencyEcho p coded s
  | .portLost p coded => Sys2Proof.Machine.execPortLost p coded s
  | .flitReplayTimeout p => Sys2Proof.Machine.execFlitReplayTimeout p s
  | .laneLockLost p lane => Sys2Proof.Machine.execLaneLockLost p lane s
  | .laneErrorInterval p => Sys2Proof.Machine.execLaneErrorInterval p s
  | .widthSwitchDone p => Sys2Proof.Machine.execWidthSwitchDone p s
  | .retrainCmd p => Sys2Proof.Machine.execRetrainCmd p s
  | .retrainDone p lanes => Sys2Proof.Machine.execRetrainDone p lanes s
  | .routeOpen m => Sys2Proof.Machine.execRouteOpen m s
  | .routeEnd m => Sys2Proof.Machine.execRouteEnd m s
  | .pageAlloc m => Sys2Proof.Machine.execPageAlloc m s
  | .pageGrant m => Sys2Proof.Machine.execPageGrant m s
  | .quotaDraw m => Sys2Proof.Machine.execQuotaDraw m s
  | .quotaGrant m => Sys2Proof.Machine.execQuotaGrant m s
  | .quotaReturn m => Sys2Proof.Machine.execQuotaReturn m s
  | .ropeNotice m => Sys2Proof.Machine.execRopeNotice m s
  | .summitEntry m => Sys2Proof.Machine.execSummitEntry m s
  | .summitClose m => Sys2Proof.Machine.execSummitClose m s
  | .linkNak p slot => Sys2Proof.Machine.execLinkNak p slot s
  | .refresh ch => Sys2Proof.Machine.execRefresh ch s
  | .dimmTempSample ch centi => Sys2Proof.Machine.execDimmTempSample ch centi s
  | .scrubStep ch => Sys2Proof.Machine.execScrubStep ch s
  | .ddrTrainingDone failed => Sys2Proof.Machine.execDdrTrainingDone failed s
  | .ddrInitDone => Sys2Proof.Machine.execDdrInitDone s
  | .channelFailure ch => Sys2Proof.Machine.execChannelFailure ch s
  | .faultWindowExpiry ch => Sys2Proof.Machine.execFaultWindowExpiry ch s
  | .testWrite => Sys2Proof.Machine.execTestWrite s
  | .testWriteRaw => Sys2Proof.Machine.execTestWriteRaw s
  | .testRead => Sys2Proof.Machine.execTestRead s
  | .remapRead ch => Sys2Proof.Machine.execRemapRead ch s
  | .nextRecordRead => Sys2Proof.Machine.execNextRecordRead s
  | .fatalLatchRead => Sys2Proof.Machine.execFatalLatchRead s
  | .brixPing r => Sys2Proof.Machine.execBrixPing r s
  | .brixRead r => Sys2Proof.Machine.execBrixRead r s
  | .brixWrite r => Sys2Proof.Machine.execBrixWrite r s
  | .brixList r => Sys2Proof.Machine.execBrixList r s
  | .sessionOpen r => Sys2Proof.Machine.execSessionOpen r s
  | .sessionFinish r => Sys2Proof.Machine.execSessionFinish r s
  | .sessionClose r => Sys2Proof.Machine.execSessionClose r s
  | .measure r => Sys2Proof.Machine.execMeasure r s
  | .eventAck r => Sys2Proof.Machine.execEventAck r s
  | .eventResend seq => Sys2Proof.Machine.execEventResend seq s
  | .sessionIdleTimeout session => Sys2Proof.Machine.execSessionIdleTimeout session s
  | .authLockoutExpiry src => Sys2Proof.Machine.execAuthLockoutExpiry src s
  | .getVersion port link payload => Sys2Proof.Machine.execGetVersion port link payload s
  | .getCapabilities port link payload => Sys2Proof.Machine.execGetCapabilities port link payload s
  | .negotiateAlgorithms port link payload => Sys2Proof.Machine.execNegotiateAlgorithms port link payload s
  | .getDigests port link payload => Sys2Proof.Machine.execGetDigests port link payload s
  | .getCertificate port link payload => Sys2Proof.Machine.execGetCertificate port link payload s
  | .challenge port link payload => Sys2Proof.Machine.execChallenge port link payload s
  | .getMeasurements port link payload => Sys2Proof.Machine.execGetMeasurements port link payload s
  | .spdmUnsupportedRequest port link payload => Sys2Proof.Machine.execSpdmUnsupportedRequest port link payload s
  | .arp targetIp => Sys2Proof.Machine.execArp targetIp s
  | .neighbourDiscovery target => Sys2Proof.Machine.execNeighbourDiscovery target s
  | .icmpEcho target payload => Sys2Proof.Machine.execIcmpEcho target payload s
  | .otherTraffic => Sys2Proof.Machine.execOtherTraffic s
  | .form deviceCount deviceId => Sys2Proof.Machine.execForm deviceCount deviceId s
  | .returnToConfiguration => Sys2Proof.Machine.execReturnToConfiguration s
  | .bivouacRequest => Sys2Proof.Machine.execBivouacRequest s
  | .retreatRequest => Sys2Proof.Machine.execRetreatRequest s
  | .retreatExit => Sys2Proof.Machine.execRetreatExit s
  | .otpWrite r => Sys2Proof.Machine.execOtpWrite r s
  | .measExtend r => Sys2Proof.Machine.execMeasExtend r s
  | .deviceReset => Sys2Proof.Machine.execDeviceReset s
  | .ridgeRetire ridge => Sys2Proof.Machine.execRidgeRetire ridge s
  | .ridgeUnretire ridge => Sys2Proof.Machine.execRidgeUnretire ridge s
  | .pwrgoodAssert => Sys2Proof.Machine.execPwrgoodAssert s
  | .pwrgoodDeassert => Sys2Proof.Machine.execPwrgoodDeassert s
  | .rstNRelease => Sys2Proof.Machine.execRstNRelease s
  | .basecampReady => Sys2Proof.Machine.execBasecampReady s
  | .formationComplete r => Sys2Proof.Machine.execFormationComplete r s
  | .thermalSample centi => Sys2Proof.Machine.execThermalSample centi s
  | .thermalTrip => Sys2Proof.Machine.execThermalTrip s
  | .railCurrentLimit rail => Sys2Proof.Machine.execRailCurrentLimit rail s
  | .railUndervoltage rail => Sys2Proof.Machine.execRailUndervoltage rail s
  | .bivouacEntry => Sys2Proof.Machine.execBivouacEntry s
  | .filterLdCol c a => Sys2Proof.Machine.execFilterLdCol c a s
  | .filterEq c a => Sys2Proof.Machine.execFilterEq c a s
  | .filterNe c a => Sys2Proof.Machine.execFilterNe c a s
  | .filterLt c a => Sys2Proof.Machine.execFilterLt c a s
  | .filterLe c a => Sys2Proof.Machine.execFilterLe c a s
  | .filterGt c a => Sys2Proof.Machine.execFilterGt c a s
  | .filterGe c a => Sys2Proof.Machine.execFilterGe c a s
  | .filterBetween c a => Sys2Proof.Machine.execFilterBetween c a s
  | .filterIsNull c a => Sys2Proof.Machine.execFilterIsNull c a s
  | .filterInList c a => Sys2Proof.Machine.execFilterInList c a s
  | .filterInCairn c a => Sys2Proof.Machine.execFilterInCairn c a s
  | .prefixMatch c a => Sys2Proof.Machine.execPrefixMatch c a s
  | .suffixMatch c a => Sys2Proof.Machine.execSuffixMatch c a s
  | .filterAnd c a => Sys2Proof.Machine.execFilterAnd c a s
  | .filterOr c a => Sys2Proof.Machine.execFilterOr c a s
  | .filterNot c a => Sys2Proof.Machine.execFilterNot c a s
  | .filterIsTrue c a => Sys2Proof.Machine.execFilterIsTrue c a s
  | .filterIsFalse c a => Sys2Proof.Machine.execFilterIsFalse c a s
  | .filterIsUnknown c a => Sys2Proof.Machine.execFilterIsUnknown c a s
  | .filterAdd c a => Sys2Proof.Machine.execFilterAdd c a s
  | .filterSub c a => Sys2Proof.Machine.execFilterSub c a s
  | .filterMul c a => Sys2Proof.Machine.execFilterMul c a s
  | .filterDiv c a => Sys2Proof.Machine.execFilterDiv c a s
  | .filterMod c a => Sys2Proof.Machine.execFilterMod c a s
  | .filterNeg c a => Sys2Proof.Machine.execFilterNeg c a s
  | .filterCast c a => Sys2Proof.Machine.execFilterCast c a s
  | .filterHash64 c a => Sys2Proof.Machine.execFilterHash64 c a s
  | .filterCrc32c c a => Sys2Proof.Machine.execFilterCrc32c c a s
  | .add st rd rs1 rs2 => Sys2Proof.Machine.execAdd st rd rs1 rs2 s
  | .sub st rd rs1 rs2 => Sys2Proof.Machine.execSub st rd rs1 rs2 s
  | .andOp st rd rs1 rs2 => Sys2Proof.Machine.execAndOp st rd rs1 rs2 s
  | .orOp st rd rs1 rs2 => Sys2Proof.Machine.execOrOp st rd rs1 rs2 s
  | .xorOp st rd rs1 rs2 => Sys2Proof.Machine.execXorOp st rd rs1 rs2 s
  | .sll st rd rs1 rs2 => Sys2Proof.Machine.execSll st rd rs1 rs2 s
  | .srl st rd rs1 rs2 => Sys2Proof.Machine.execSrl st rd rs1 rs2 s
  | .sra st rd rs1 rs2 => Sys2Proof.Machine.execSra st rd rs1 rs2 s
  | .slt st rd rs1 rs2 => Sys2Proof.Machine.execSlt st rd rs1 rs2 s
  | .sltu st rd rs1 rs2 => Sys2Proof.Machine.execSltu st rd rs1 rs2 s
  | .minOp st rd rs1 rs2 => Sys2Proof.Machine.execMinOp st rd rs1 rs2 s
  | .maxOp st rd rs1 rs2 => Sys2Proof.Machine.execMaxOp st rd rs1 rs2 s
  | .minu st rd rs1 rs2 => Sys2Proof.Machine.execMinu st rd rs1 rs2 s
  | .maxu st rd rs1 rs2 => Sys2Proof.Machine.execMaxu st rd rs1 rs2 s
  | .mul st rd rs1 rs2 => Sys2Proof.Machine.execMul st rd rs1 rs2 s
  | .mulh st rd rs1 rs2 => Sys2Proof.Machine.execMulh st rd rs1 rs2 s
  | .mulhu st rd rs1 rs2 => Sys2Proof.Machine.execMulhu st rd rs1 rs2 s
  | .div st rd rs1 rs2 => Sys2Proof.Machine.execDiv st rd rs1 rs2 s
  | .divu st rd rs1 rs2 => Sys2Proof.Machine.execDivu st rd rs1 rs2 s
  | .rem st rd rs1 rs2 => Sys2Proof.Machine.execRem st rd rs1 rs2 s
  | .remu st rd rs1 rs2 => Sys2Proof.Machine.execRemu st rd rs1 rs2 s
  | .clz st rd rs1 => Sys2Proof.Machine.execClz st rd rs1 s
  | .ctz st rd rs1 => Sys2Proof.Machine.execCtz st rd rs1 s
  | .popc st rd rs1 => Sys2Proof.Machine.execPopc st rd rs1 s
  | .bswap st rd rs1 => Sys2Proof.Machine.execBswap st rd rs1 s
  | .hstep st rd rs1 rs2 => Sys2Proof.Machine.execHstep st rd rs1 rs2 s
  | .hfin st rd rs1 => Sys2Proof.Machine.execHfin st rd rs1 s
  | .crc32cStep st rd rs1 rs2 => Sys2Proof.Machine.execCrc32cStep st rd rs1 rs2 s
  | .addi st rd rs1 imm => Sys2Proof.Machine.execAddi st rd rs1 imm s
  | .andi st rd rs1 imm => Sys2Proof.Machine.execAndi st rd rs1 imm s
  | .ori st rd rs1 imm => Sys2Proof.Machine.execOri st rd rs1 imm s
  | .xori st rd rs1 imm => Sys2Proof.Machine.execXori st rd rs1 imm s
  | .slli st rd rs1 amount => Sys2Proof.Machine.execSlli st rd rs1 amount s
  | .srli st rd rs1 amount => Sys2Proof.Machine.execSrli st rd rs1 amount s
  | .srai st rd rs1 amount => Sys2Proof.Machine.execSrai st rd rs1 amount s
  | .slti st rd rs1 imm => Sys2Proof.Machine.execSlti st rd rs1 imm s
  | .lui st rd imm => Sys2Proof.Machine.execLui st rd imm s
  | .ldpc st rd imm => Sys2Proof.Machine.execLdpc st rd imm s
  | .lb st rd rs1 imm => Sys2Proof.Machine.execLb st rd rs1 imm s
  | .lbu st rd rs1 imm => Sys2Proof.Machine.execLbu st rd rs1 imm s
  | .lh st rd rs1 imm => Sys2Proof.Machine.execLh st rd rs1 imm s
  | .lhu st rd rs1 imm => Sys2Proof.Machine.execLhu st rd rs1 imm s
  | .lw st rd rs1 imm => Sys2Proof.Machine.execLw st rd rs1 imm s
  | .lwu st rd rs1 imm => Sys2Proof.Machine.execLwu st rd rs1 imm s
  | .ld st rd rs1 imm => Sys2Proof.Machine.execLd st rd rs1 imm s
  | .sb st rs1 rs2 imm => Sys2Proof.Machine.execSb st rs1 rs2 imm s
  | .sh st rs1 rs2 imm => Sys2Proof.Machine.execSh st rs1 rs2 imm s
  | .sw st rs1 rs2 imm => Sys2Proof.Machine.execSw st rs1 rs2 imm s
  | .sd st rs1 rs2 imm => Sys2Proof.Machine.execSd st rs1 rs2 imm s
  | .flw st rd rs1 imm => Sys2Proof.Machine.execFlw st rd rs1 imm s
  | .fld st rd rs1 imm => Sys2Proof.Machine.execFld st rd rs1 imm s
  | .fsw st rs1 rs2 imm => Sys2Proof.Machine.execFsw st rs1 rs2 imm s
  | .fsd st rs1 rs2 imm => Sys2Proof.Machine.execFsd st rs1 rs2 imm s
  | .beq st rs1 rs2 imm => Sys2Proof.Machine.execBeq st rs1 rs2 imm s
  | .bne st rs1 rs2 imm => Sys2Proof.Machine.execBne st rs1 rs2 imm s
  | .blt st rs1 rs2 imm => Sys2Proof.Machine.execBlt st rs1 rs2 imm s
  | .bge st rs1 rs2 imm => Sys2Proof.Machine.execBge st rs1 rs2 imm s
  | .bltu st rs1 rs2 imm => Sys2Proof.Machine.execBltu st rs1 rs2 imm s
  | .bgeu st rs1 rs2 imm => Sys2Proof.Machine.execBgeu st rs1 rs2 imm s
  | .jal st rd imm => Sys2Proof.Machine.execJal st rd imm s
  | .jalr st rd rs1 imm => Sys2Proof.Machine.execJalr st rd rs1 imm s
  | .csrr st rd csr => Sys2Proof.Machine.execCsrr st rd csr s
  | .csrw st rs1 csr => Sys2Proof.Machine.execCsrw st rs1 csr s
  | .fadd st single rd rs1 rs2 => Sys2Proof.Machine.execFadd st single rd rs1 rs2 s
  | .fsub st single rd rs1 rs2 => Sys2Proof.Machine.execFsub st single rd rs1 rs2 s
  | .fmul st single rd rs1 rs2 => Sys2Proof.Machine.execFmul st single rd rs1 rs2 s
  | .fdiv st single rd rs1 rs2 => Sys2Proof.Machine.execFdiv st single rd rs1 rs2 s
  | .fsqrt st single rd rs1 => Sys2Proof.Machine.execFsqrt st single rd rs1 s
  | .fmin st single rd rs1 rs2 => Sys2Proof.Machine.execFmin st single rd rs1 rs2 s
  | .fmax st single rd rs1 rs2 => Sys2Proof.Machine.execFmax st single rd rs1 rs2 s
  | .fmadd st single rd rs1 rs2 => Sys2Proof.Machine.execFmadd st single rd rs1 rs2 s
  | .feq st single rd rs1 rs2 => Sys2Proof.Machine.execFeq st single rd rs1 rs2 s
  | .flt st single rd rs1 rs2 => Sys2Proof.Machine.execFlt st single rd rs1 rs2 s
  | .fle st single rd rs1 rs2 => Sys2Proof.Machine.execFle st single rd rs1 rs2 s
  | .fcvtl st single rd rs1 => Sys2Proof.Machine.execFcvtl st single rd rs1 s
  | .fcvtf st single rd rs1 => Sys2Proof.Machine.execFcvtf st single rd rs1 s
  | .fmvgf st single rd rs1 => Sys2Proof.Machine.execFmvgf st single rd rs1 s
  | .fmvfg st single rd rs1 => Sys2Proof.Machine.execFmvfg st single rd rs1 s
  | .fence st => Sys2Proof.Machine.execFence st s
  | .brk st => Sys2Proof.Machine.execBrk st s
  | .eret st => Sys2Proof.Machine.execEret st s
  | .temit st rd rs1 => Sys2Proof.Machine.execTemit st rd rs1 s
  | .tend st rs1 => Sys2Proof.Machine.execTend st rs1 s
  | .vadd st a => Sys2Proof.Machine.execVadd st a s
  | .vsub st a => Sys2Proof.Machine.execVsub st a s
  | .vand st a => Sys2Proof.Machine.execVand st a s
  | .vor st a => Sys2Proof.Machine.execVor st a s
  | .vxor st a => Sys2Proof.Machine.execVxor st a s
  | .vsll st a => Sys2Proof.Machine.execVsll st a s
  | .vsrl st a => Sys2Proof.Machine.execVsrl st a s
  | .vsra st a => Sys2Proof.Machine.execVsra st a s
  | .vmul st a => Sys2Proof.Machine.execVmul st a s
  | .vmin st a => Sys2Proof.Machine.execVmin st a s
  | .vmax st a => Sys2Proof.Machine.execVmax st a s
  | .vminu st a => Sys2Proof.Machine.execVminu st a s
  | .vmaxu st a => Sys2Proof.Machine.execVmaxu st a s
  | .vhstep st a => Sys2Proof.Machine.execVhstep st a s
  | .vhfin st a => Sys2Proof.Machine.execVhfin st a s
  | .vbcast st a => Sys2Proof.Machine.execVbcast st a s
  | .vfadd st a => Sys2Proof.Machine.execVfadd st a s
  | .vfsub st a => Sys2Proof.Machine.execVfsub st a s
  | .vfmul st a => Sys2Proof.Machine.execVfmul st a s
  | .vfdiv st a => Sys2Proof.Machine.execVfdiv st a s
  | .vfmadd st a => Sys2Proof.Machine.execVfmadd st a s
  | .vfmin st a => Sys2Proof.Machine.execVfmin st a s
  | .vfmax st a => Sys2Proof.Machine.execVfmax st a s
  | .vfsqrt st a => Sys2Proof.Machine.execVfsqrt st a s
  | .vfcvtl st a => Sys2Proof.Machine.execVfcvtl st a s
  | .vfcvtf st a => Sys2Proof.Machine.execVfcvtf st a s
  | .vcmpEq st a => Sys2Proof.Machine.execVcmpEq st a s
  | .vcmpNe st a => Sys2Proof.Machine.execVcmpNe st a s
  | .vcmpLt st a => Sys2Proof.Machine.execVcmpLt st a s
  | .vcmpLe st a => Sys2Proof.Machine.execVcmpLe st a s
  | .vcmpLtu st a => Sys2Proof.Machine.execVcmpLtu st a s
  | .vcmpLeu st a => Sys2Proof.Machine.execVcmpLeu st a s
  | .vcmpFeq st a => Sys2Proof.Machine.execVcmpFeq st a s
  | .vcmpFlt st a => Sys2Proof.Machine.execVcmpFlt st a s
  | .vcmpFle st a => Sys2Proof.Machine.execVcmpFle st a s
  | .vld st a => Sys2Proof.Machine.execVld st a s
  | .vldff st a => Sys2Proof.Machine.execVldff st a s
  | .vst st a => Sys2Proof.Machine.execVst st a s
  | .vlds st a => Sys2Proof.Machine.execVlds st a s
  | .vsts st a => Sys2Proof.Machine.execVsts st a s
  | .vgather st a => Sys2Proof.Machine.execVgather st a s
  | .vgatherff st a => Sys2Proof.Machine.execVgatherff st a s
  | .vscatter st a => Sys2Proof.Machine.execVscatter st a s
  | .vsetvl st a => Sys2Proof.Machine.execVsetvl st a s
  | .pand st a => Sys2Proof.Machine.execPand st a s
  | .por st a => Sys2Proof.Machine.execPor st a s
  | .pandn st a => Sys2Proof.Machine.execPandn st a s
  | .pnot st a => Sys2Proof.Machine.execPnot st a s
  | .ffmask st a => Sys2Proof.Machine.execFfmask st a s
  | .fffill st a => Sys2Proof.Machine.execFffill st a s
  | .ffput st a => Sys2Proof.Machine.execFfput st a s
  | .pcnt st a => Sys2Proof.Machine.execPcnt st a s
  | .ptrue st a => Sys2Proof.Machine.execPtrue st a s
  | .ffcnt st a => Sys2Proof.Machine.execFfcnt st a s
  | .vredadd st a => Sys2Proof.Machine.execVredadd st a s
  | .vredmin st a => Sys2Proof.Machine.execVredmin st a s
  | .vredmax st a => Sys2Proof.Machine.execVredmax st a s
  | .vext st a => Sys2Proof.Machine.execVext st a s
  | .vcompress st a => Sys2Proof.Machine.execVcompress st a s
  | .vmv st a => Sys2Proof.Machine.execVmv st a s
  | .vfredadd st a => Sys2Proof.Machine.execVfredadd st a s
  | .tickOutFall => Sys2Proof.Machine.execTickOutFall s
  | .lockAndEqualise p lanes => Sys2Proof.Machine.execLockAndEqualise p lanes s
  | .railCurrentFall rail => Sys2Proof.Machine.execRailCurrentFall rail s
  | .lifeObjectsSave => Sys2Proof.Machine.execLifeObjectsSave s
  | .reservedEncoding st word => Sys2Proof.Machine.execReservedEncoding st word s
  | .fetchFault st readError => Sys2Proof.Machine.execFetchFault st readError s
  | .brixViolation src bytes => Sys2Proof.Machine.execBrixViolation src bytes s
  | .configurationRequest port => Sys2Proof.Machine.execConfigurationRequest port s

end Sys2Proof.Machine
end

