-- ==== Sys2Proof/Safety.lean ====
section
/-! DEFINITION. What counts as a safe run, and the terms that statements use: the parts of the state, and what a command
may write. -/
namespace Sys2Proof.Machine

/-- The parts of the state. Host memory is told apart from the rest of the host side, the Depot's objects (their contents
with them) from the rest of the Depot, and what the device knows of its peers' lives from the rest of coherence. -/
inductive Field where
  | now | freeCount | objs | mem | sys | flash | pitch | routes | sched | scn | cairn | summit | content | depot | strands | cache
  | coh | peers | link | hostMem | host | eng | dram | err | mgmt | power | out | pending
  deriving DecidableEq, Repr

/-- Coherence state with what another knows of the peers: who is dead or in retreat, the heartbeats, and whether this device
has fallen silent. -/
def CohSt.withPeers (c p : CohSt) : CohSt :=
  { c with
    dead := p.dead, lastBeat := p.lastBeat, seenBeat := p.seenBeat, retreated := p.retreated, beats := p.beats
    silent := p.silent }

/-- A part is the same in two states. -/
def Field.same : Field → State → State → Prop
  | .now, s, t => t.now = s.now
  | .freeCount, s, t => t.freeCount = s.freeCount
  | .objs, s, t => t.objs = s.objs
  | .mem, s, t => t.mem = s.mem
  | .sys, s, t => t.sys = s.sys
  | .flash, s, t => t.flash = s.flash
  | .pitch, s, t => t.pitch = s.pitch
  | .routes, s, t => t.routes = s.routes
  | .sched, s, t => t.sched = s.sched
  | .scn, s, t => t.scn = s.scn
  | .cairn, s, t => t.cairn = s.cairn
  | .summit, s, t => t.summit = s.summit
  | .content, s, t => t.depot.objects = s.depot.objects
  | .depot, s, t => { t.depot with objects := [] } = { s.depot with objects := [] }
  | .strands, s, t => t.strands = s.strands
  | .cache, s, t => t.cache = s.cache
  | .coh, s, t => t.coh.withPeers CohSt.reset = s.coh.withPeers CohSt.reset
  | .peers, s, t => CohSt.reset.withPeers t.coh = CohSt.reset.withPeers s.coh
  | .link, s, t => t.link = s.link
  | .hostMem, s, t => t.host.mem = s.host.mem
  | .host, s, t => { t.host with mem := [] } = { s.host with mem := [] }
  | .eng, s, t => t.eng = s.eng
  | .dram, s, t => t.dram = s.dram
  | .err, s, t => t.err = s.err
  | .mgmt, s, t => t.mgmt = s.mgmt
  | .power, s, t => t.power = s.power
  | .out, s, t => t.out = s.out
  | .pending, s, t => t.pending = s.pending

/-- Going from one state to the other writes the listed parts at most. -/
@[irreducible] def Writes (l : List Field) (s t : State) : Prop := ∀ f : Field, f ∉ l → f.same s t

/-- The parts of the state that a command may write; every other part is as before. The queue of waiting commands is among
none of them. -/
def mayWrite (c : Instr) : List Field :=
  match c with
  | .tick .. | .tickInEdge | .tickInMiss =>
    [.now, .freeCount, .objs, .mem, .sys, .flash, .pitch, .routes, .sched, .scn, .cairn, .summit, .content, .depot,
     .strands, .cache, .coh, .link, .hostMem, .host, .dram, .err, .mgmt, .power, .out]
  | .cutoff =>
    [.now, .objs, .pitch, .routes, .sched, .summit, .content, .depot, .strands, .cache, .coh, .link, .out]
  | .decision =>
    [.now, .freeCount, .objs, .flash, .pitch, .routes, .sched, .scn, .cairn, .summit, .content, .depot, .strands,
     .cache, .coh, .link, .hostMem, .host, .dram, .err, .mgmt, .out]
  | .tickMarker .. =>
    [.objs, .pitch, .link, .err, .mgmt, .out]
  | .belayAck .. | .suspendLimitExpiry .. | .summitMerge .. | .taskDispatch .. | .joinSeal .. | .add .. | .sub ..
  | .andOp .. | .orOp .. | .xorOp .. | .sll .. | .srl .. | .sra .. | .slt .. | .sltu .. | .minOp .. | .maxOp ..
  | .minu .. | .maxu .. | .mul .. | .mulh .. | .mulhu .. | .div .. | .divu .. | .rem .. | .remu .. | .clz ..
  | .ctz .. | .popc .. | .bswap .. | .hstep .. | .hfin .. | .crc32cStep .. | .addi .. | .andi .. | .ori ..
  | .xori .. | .slli .. | .srli .. | .srai .. | .slti .. | .lui .. | .ldpc .. | .lb .. | .lbu .. | .lh ..
  | .lhu .. | .lw .. | .lwu .. | .ld .. | .sb .. | .sh .. | .sw .. | .sd .. | .flw .. | .fld .. | .fsw ..
  | .fsd .. | .beq .. | .bne .. | .blt .. | .bge .. | .bltu .. | .bgeu .. | .jal .. | .jalr .. | .csrr ..
  | .csrw .. | .fadd .. | .fsub .. | .fmul .. | .fdiv .. | .fsqrt .. | .fmin .. | .fmax .. | .fmadd .. | .feq ..
  | .flt .. | .fle .. | .fcvtl .. | .fcvtf .. | .fmvgf .. | .fmvfg .. | .fence .. | .brk .. | .eret .. | .temit ..
  | .tend .. | .vadd .. | .vsub .. | .vand .. | .vor .. | .vxor .. | .vsll .. | .vsrl .. | .vsra .. | .vmul ..
  | .vmin .. | .vmax .. | .vminu .. | .vmaxu .. | .vhstep .. | .vhfin .. | .vbcast .. | .vfadd .. | .vfsub ..
  | .vfmul .. | .vfdiv .. | .vfmadd .. | .vfmin .. | .vfmax .. | .vfsqrt .. | .vfcvtl .. | .vfcvtf .. | .vcmpEq ..
  | .vcmpNe .. | .vcmpLt .. | .vcmpLe .. | .vcmpLtu .. | .vcmpLeu .. | .vcmpFeq .. | .vcmpFlt .. | .vcmpFle ..
  | .vld .. | .vldff .. | .vst .. | .vlds .. | .vsts .. | .vgather .. | .vgatherff .. | .vscatter .. | .vsetvl ..
  | .pand .. | .por .. | .pandn .. | .pnot .. | .ffmask .. | .fffill .. | .ffput .. | .pcnt .. | .ptrue ..
  | .ffcnt .. | .vredadd .. | .vredmin .. | .vredmax .. | .vext .. | .vcompress .. | .vmv .. | .vfredadd ..
  | .reservedEncoding .. | .fetchFault .. =>
    [.freeCount, .objs, .flash, .routes, .sched, .scn, .cairn, .summit, .content, .depot, .strands, .cache, .coh,
     .link, .hostMem, .host, .dram, .err, .mgmt, .out]
  | .resourceFailure .. =>
    [.freeCount, .objs, .mem, .sys, .flash, .routes, .sched, .scn, .cairn, .summit, .content, .depot, .strands,
     .cache, .coh, .link, .hostMem, .host, .eng, .dram, .err, .mgmt, .out]
  | .spanRestart .. =>
    [.routes, .sched, .err]
  | .journalStallRelease =>
    [.objs, .mem, .flash, .content, .depot, .strands, .cache, .coh, .link, .hostMem, .dram, .err, .mgmt, .out]
  | .wqTailDoorbell .. =>
    [.objs, .host]
  | .cqHeadDoorbell .. | .fetchEntry | .wqStallTimeout .. | .setQuota .. =>
    [.objs, .routes, .cairn, .hostMem, .host, .out]
  | .submitRoute .. =>
    [.freeCount, .objs, .routes, .sched, .cairn, .strands, .coh, .link, .hostMem, .host, .out]
  | .createWq .. | .deleteWq .. | .createCq .. | .deleteCq .. | .logStart .. | .logStop .. | .abortRoute .. =>
    [.routes, .cairn, .hostMem, .host, .out]
  | .grantSpill .. | .revokeSpill .. =>
    [.routes, .cairn, .depot, .hostMem, .host, .out]
  | .openOutput .. =>
    [.routes, .cairn, .content, .hostMem, .host, .out]
  | .closeOutput .. | .publicationResume .. =>
    [.objs, .routes, .cairn, .content, .depot, .link, .hostMem, .host, .out]
  | .setWeight .. =>
    [.routes, .sched, .cairn, .hostMem, .host, .out]
  | .getLogErrorRecords .. =>
    [.objs, .mem, .flash, .routes, .cairn, .content, .depot, .cache, .coh, .link, .hostMem, .host, .dram, .err, .mgmt,
     .out]
  | .getLogCounters .. | .getLogOpenRoutes .. =>
    [.freeCount, .objs, .mem, .flash, .routes, .cairn, .content, .depot, .cache, .coh, .link, .hostMem, .host, .dram,
     .err, .mgmt, .out]
  | .loadCairn .. =>
    [.freeCount, .objs, .routes, .cairn, .content, .depot, .link, .hostMem, .host, .err, .mgmt, .out]
  | .aqEnable .. =>
    [.host]
  | .aqDisable .. =>
    [.routes, .cairn, .host]
  | .mbControlGo .. | .registerWrite .. | .brixPing .. | .brixRead .. | .brixWrite .. | .brixList ..
  | .sessionOpen .. | .sessionFinish .. | .sessionClose .. | .measure .. | .eventAck .. | .otpWrite ..
  | .measExtend .. | .brixViolation .. =>
    [.freeCount, .objs, .mem, .sys, .flash, .pitch, .routes, .sched, .scn, .cairn, .summit, .content, .depot,
     .strands, .cache, .coh, .peers, .link, .hostMem, .host, .eng, .dram, .err, .mgmt, .power, .out]
  | .msixCoalesceTimeout .. =>
    [.host, .out]
  | .functionLevelReset .. | .managementReset .. =>
    [.objs, .routes, .sched, .cairn, .content, .depot, .link, .hostMem, .host, .eng, .err, .mgmt, .out]
  | .tenantResetComplete .. =>
    [.host, .err]
  | .hostPortReset .. =>
    [.objs, .sys, .routes, .sched, .cairn, .content, .depot, .coh, .link, .hostMem, .host, .eng, .err, .mgmt, .out]
  | .perstNRelease .. =>
    [.sys, .host, .out]
  | .malformedTlp .. | .cxlOtherM2s .. =>
    [.objs, .err, .mgmt, .out]
  | .hostReadCompletion .. =>
    [.objs, .hostMem, .host]
  | .cxlMemRead .. | .cxlMemWrite .. | .cxlMemPartialWrite .. =>
    [.objs, .coh, .link, .host, .err, .mgmt, .out]
  | .memspecrd .. | .otherTraffic =>
    []
  | .dmaCopy .. | .compress .. | .decompress .. | .digestOpen .. | .digestFeed .. | .digestRead .. | .dmaStop ..
  | .dmaResume .. | .dmaFlush .. =>
    [.routes, .cairn, .hostMem, .host, .eng, .out]
  | .channelEntryStart .. | .engineEntryComplete .. | .channelHalt .. =>
    [.freeCount, .objs, .mem, .flash, .routes, .cairn, .content, .depot, .cache, .coh, .link, .hostMem, .host, .eng,
     .dram, .err, .mgmt, .out]
  | .compressionJobStart =>
    [.eng]
  | .digestBlock =>
    [.objs, .eng]
  | .migrationCopyDone .. =>
    [.depot]
  | .zeroPageCleared =>
    [.objs, .routes, .content, .depot, .link, .dram, .out]
  | .migrationAbandon .. =>
    [.objs, .depot]
  | .taskDone .. =>
    [.freeCount, .objs, .routes, .sched, .scn, .content, .depot, .link, .hostMem, .host]
  | .publicationDone .. =>
    [.routes]
  | .paritySweep =>
    [.now, .objs, .routes, .sched, .cairn, .content, .depot, .strands, .link, .hostMem, .host, .eng, .err, .mgmt,
     .out]
  | .shadowScrub =>
    [.objs, .cairn, .err, .mgmt, .out]
  | .storeRefused .. =>
    [.objs, .routes, .sched, .scn, .strands, .cache, .coh, .link, .err, .mgmt, .out]
  | .clean | .inval | .cleaninval =>
    [.objs, .mem, .flash, .content, .depot, .cache, .coh, .link, .dram, .err, .mgmt, .out]
  | .cacheDisable .. | .cacheEnable .. =>
    [.objs, .cache]
  | .cacheSweepDone .. =>
    [.objs, .depot, .cache, .coh, .link, .out]
  | .rdShared .. | .rdOwn .. | .upgrade .. | .rdNc .. | .wrNc .. | .cmoClean .. | .cmoCleaninval .. | .cmoInval ..
  | .tokenReturn .. | .snpShared .. | .snpInv .. | .snpData .. | .snpClean .. | .fwdShared .. | .fwdOwn ..
  | .snpDiscard .. | .gangRd .. | .gangOwn .. | .cohAck .. | .ackLost .. | .cohRetry .. | .cohGrant ..
  | .cohCmp .. | .wbAck .. | .ownerMoved .. | .cohData .. | .snpDataRsp .. | .wbDirty .. | .evictClean ..
  | .pdSet .. =>
    [.objs, .mem, .flash, .routes, .sched, .content, .depot, .strands, .cache, .coh, .link, .dram, .err, .mgmt, .out]
  | .heartbeatSend =>
    [.peers, .link, .out]
  | .heartbeat .. =>
    [.freeCount, .objs, .flash, .routes, .sched, .scn, .cairn, .summit, .content, .depot, .strands, .cache, .coh,
     .peers, .link, .hostMem, .host, .dram, .err, .mgmt, .out]
  | .heartbeatTimeout .. | .snoopTimeout .. | .trainingTimeout .. | .flitReplayTimeout .. | .laneLockLost ..
  | .laneErrorInterval .. | .retrainCmd .. | .lockAndEqualise .. | .linkIdle .. | .widthChange .. | .retrain ..
  | .latencyProbe .. | .latencyEcho .. | .portLost .. | .retrainDone .. =>
    [.freeCount, .objs, .mem, .flash, .routes, .sched, .scn, .cairn, .summit, .content, .depot, .strands, .cache,
     .coh, .peers, .link, .hostMem, .host, .dram, .err, .mgmt, .out]
  | .deathNotice .. | .routeOpen .. | .routeEnd .. | .pageAlloc .. | .pageGrant .. | .quotaDraw ..
  | .quotaGrant .. | .quotaReturn .. | .ropeNotice .. | .summitEntry .. | .summitClose .. =>
    [.freeCount, .objs, .mem, .sys, .flash, .routes, .sched, .scn, .cairn, .summit, .content, .depot, .strands,
     .cache, .coh, .peers, .link, .hostMem, .host, .dram, .err, .mgmt, .out]
  | .portEnable .. =>
    [.link, .out]
  | .payloadFlit .. | .formationComplete .. =>
    [.freeCount, .objs, .mem, .sys, .flash, .pitch, .routes, .sched, .scn, .cairn, .summit, .content, .depot,
     .strands, .cache, .coh, .peers, .link, .hostMem, .host, .dram, .err, .mgmt, .out]
  | .widthSwitchDone .. =>
    [.objs, .link, .out]
  | .linkNak .. | .testRead =>
    [.objs]
  | .refresh .. =>
    [.dram, .out]
  | .dimmTempSample .. =>
    [.objs, .dram, .err, .mgmt, .out]
  | .scrubStep .. | .channelFailure .. | .basecampReady | .retreatRequest =>
    [.freeCount, .objs, .sys, .flash, .routes, .sched, .scn, .cairn, .summit, .content, .depot, .strands, .cache,
     .coh, .link, .hostMem, .host, .dram, .err, .mgmt, .out]
  | .ddrTrainingDone .. =>
    [.objs, .sys, .dram, .err, .mgmt, .out]
  | .ddrInitDone =>
    [.objs, .mem, .dram]
  | .faultWindowExpiry .. =>
    [.dram]
  | .testWrite | .testWriteRaw =>
    [.objs, .mem, .content, .depot, .dram]
  | .remapRead .. =>
    [.objs, .out]
  | .nextRecordRead | .fatalLatchRead =>
    [.err, .out]
  | .eventResend .. | .getVersion .. | .getCapabilities .. | .negotiateAlgorithms .. | .getDigests ..
  | .getCertificate .. | .spdmUnsupportedRequest .. =>
    [.mgmt, .out]
  | .sessionIdleTimeout .. | .authLockoutExpiry .. =>
    [.mgmt]
  | .challenge .. | .getMeasurements .. =>
    [.freeCount, .mgmt, .out]
  | .arp .. | .neighbourDiscovery .. | .icmpEcho .. | .configurationRequest .. =>
    [.out]
  | .form .. =>
    [.objs, .sys, .routes, .cairn, .depot, .cache, .coh, .link, .hostMem, .host, .dram, .out]
  | .returnToConfiguration =>
    [.freeCount, .objs, .sys, .flash, .pitch, .routes, .sched, .scn, .cairn, .summit, .content, .depot, .strands,
     .cache, .coh, .peers, .link, .hostMem, .host, .dram, .err, .mgmt, .out]
  | .bivouacRequest =>
    [.sys]
  | .retreatExit =>
    [.sys, .cairn]
  | .deviceReset | .pwrgoodDeassert =>
    [.objs, .mem, .sys, .pitch, .routes, .sched, .scn, .cairn, .summit, .content, .depot, .strands, .cache, .coh,
     .peers, .link, .host, .eng, .dram, .err, .mgmt, .power, .out]
  | .ridgeRetire .. | .ridgeUnretire .. | .pwrgoodAssert =>
    [.sys, .flash]
  | .rstNRelease =>
    [.sys, .host, .mgmt, .out]
  | .thermalSample .. =>
    [.freeCount, .objs, .sys, .flash, .routes, .sched, .scn, .cairn, .summit, .content, .depot, .strands, .cache,
     .coh, .link, .hostMem, .host, .dram, .err, .mgmt, .power, .out]
  | .thermalTrip | .railUndervoltage .. =>
    [.objs, .mem, .sys, .pitch, .routes, .sched, .scn, .cairn, .summit, .content, .depot, .strands, .cache, .coh,
     .peers, .link, .host, .eng, .dram, .err, .mgmt, .out]
  | .railCurrentLimit .. | .railCurrentFall .. =>
    [.sched]
  | .bivouacEntry =>
    [.freeCount, .objs, .mem, .sys, .flash, .pitch, .routes, .sched, .scn, .cairn, .summit, .content, .depot,
     .strands, .cache, .coh, .link, .hostMem, .host, .dram, .err, .mgmt, .out]
  | .filterLdCol .. | .filterEq .. | .filterNe .. | .filterLt .. | .filterLe .. | .filterGt .. | .filterGe ..
  | .filterBetween .. | .filterIsNull .. | .filterInList .. | .filterAnd .. | .filterOr .. | .filterNot ..
  | .filterIsTrue .. | .filterIsFalse .. | .filterIsUnknown .. | .filterAdd .. | .filterSub .. | .filterMul ..
  | .filterDiv .. | .filterMod .. | .filterNeg .. | .filterCast .. | .filterHash64 .. | .filterCrc32c .. =>
    [.objs, .routes, .sched, .scn, .strands, .err, .mgmt, .out]
  | .filterInCairn .. | .prefixMatch .. | .suffixMatch .. =>
    [.objs, .routes, .sched, .scn, .cairn, .strands, .err, .mgmt, .out]
  | .tickOutFall =>
    [.sys, .out]
  | .lifeObjectsSave =>
    [.flash, .power]

/-! ## Strands -/

/-- What code sees of a strand: all but the counters of retired instructions, events and wrong paths, and the TLBs. -/
def StrandSt.plain (t : StrandSt) : StrandSt :=
  { t with instret := 0, evt := Vector.replicate 4 0, wpfetch := 0, wpload := 0, itlb := [], dtlb := [] }

/-- A strand that runs its next instruction: it has a task of an open route, its pc lies in the code window, the line there
reads without an error and need not be asked for, it waits for no line, and its older stores have left the queue. -/
def StrandReady (s : State) (st : StrandRef) (t : StrandSt) (k : StrandTask) : Prop :=
  s.strands.find (strandKey st.ridge.val st.strand.val) = some t ∧ t.task = some k ∧
  (∃ r, s.route? k.key = some r ∧ s.fetchBad (r.desc.stage k.stage) t.pc = false ∧
    s.codeAway st (r.desc.stage k.stage) t.pc = none) ∧ t.waitLine = none ∧ t.queue = []

/-- The state as the fetch of the strand's next word leaves it, the strand's own TLB and event counters with it. -/
def State.fetched (s : State) (st : StrandRef) (t : StrandSt) (k : StrandTask) : State :=
  match s.route? k.key with
  | some r => (s.fetchTouch st k (r.desc.stage k.stage) t).2.setStrand st.ridge.val st.strand.val
      (s.fetchTouch st k (r.desc.stage k.stage) t).1
  | none => s

/-- The other strands are as before. -/
def OtherStrands (st : StrandRef) (s u : State) : Prop :=
  ∀ key, key ≠ strandKey st.ridge.val st.strand.val → u.strands.find key = s.strands.find key

/-- What an instruction that reads and writes registers only may change beside its strand: the caches and what follows
from the fetch of its word. Image memory, host memory, the Depot's objects, routes and tasks are not among it. -/
def strandParts : List Field :=
  [.freeCount, .objs, .flash, .depot, .strands, .cache, .coh, .link, .dram, .err, .mgmt, .out]

/-- The strand retires one instruction and stands as `t'` but for its counters. -/
def Stands (s u : State) (st : StrandRef) (t' : StrandSt) : Prop :=
  (∃ t, u.strands.find (strandKey st.ridge.val st.strand.val) = some t ∧ t.plain = t'.plain ∧
    t.instret = (t'.instret + 1) % 2 ^ 64) ∧ OtherStrands st s u

/-- The strand retires an instruction that only reads and writes registers: nothing else changes that `strandParts`
does not name. -/
def Retired (s u : State) (st : StrandRef) (t' : StrandSt) : Prop := Stands s u st t' ∧ Writes strandParts s u

/-- Every Depot object holds the bytes it held. -/
def SameBytes (s u : State) : Prop :=
  ∀ o, (u.dobj? o).map (fun d => d.content) = (s.dobj? o).map (fun d => d.content)

/-- The strand retires a memory instruction: a page of its scratch object may have appeared, and no byte of an object
has changed. -/
def RetiredMem (s u : State) (st : StrandRef) (t' : StrandSt) : Prop :=
  Stands s u st t' ∧ SameBytes s u ∧ Writes (.content :: strandParts) s u

/-- A trap is delivered to the strand's handler (R264): the strand as it was before the instruction, with the pc and the
cause saved and the pc at the handler. -/
def StrandSt.trapped (t : StrandSt) (cause : Nat) (tval : Word) : StrandSt :=
  { t with epc := t.pc, cause := BitVec.ofNat 64 cause, tval := tval, trap := true, pc := t.tvec &&& ~~~ 3#64 }

/-- Whether a handler takes a trap: cs_tvec is enabled and no trap is being handled (R264). -/
def StrandSt.handles (t : StrandSt) : Bool := t.tvec.getLsbD 0 && !t.trap

/-- What follows the fetch of a word whose instruction traps: the trap, then the answers to the snoops that waited for the
strand (R264, R327). -/
def State.trapAfter (s : State) (st : StrandRef) (k : RouteKey) (cause : Nat) (tval : Word) : State :=
  (s.strandTrap st (s.strand st.ridge.val st.strand.val) k cause tval).answerHeld (strandKey st.ridge.val st.strand.val)

/-- The strand takes a trap to its handler; the fetch may have filled its TLB and counted its events. -/
def TrapTaken (s u : State) (st : StrandRef) (t : StrandSt) (cause : Nat) (tval : Word) : Prop :=
  (∃ w, u.strands.find (strandKey st.ridge.val st.strand.val) = some w ∧ w.plain = (t.trapped cause tval).plain ∧
    w.instret = t.instret) ∧ OtherStrands st s u ∧ Writes strandParts s u

/-- Lines that a ridge's strand reads at once and without an error: none is lost to a fenced way, none must be asked for, and
none reads with an error. -/
def State.linesRead (s : State) (ridge : Nat) (ls : List Nat) : Prop :=
  (∀ l ∈ ls, s.settleLost l = s) ∧ s.notNear ridge ls = none ∧ s.lineCause ls = none

/-- Lines that a ridge's strand may write at once: none is lost to a fenced way, and its L2 owns each or can take it. -/
def State.linesOwned (s : State) (ridge : Nat) (ls : List Nat) : Prop :=
  ∀ l ∈ ls, s.settleLost l = s ∧ s.ownNear ridge l = true

/-- The Depot has an object number and the pages for a new output rope of a stage (R218, R221). -/
def State.outputFits (s : State) (k : RouteKey) (d : RouteDesc) (stage ridge keyForm : Nat) : Prop :=
  ∃ o w, s.newOutput k d stage ridge keyForm = .ok o w

/-- The bytes of store-queue entries, with their addresses, in the order in which they leave the queue. -/
def queueBytes (q : List StoreEnt) : List (Word × Byte) :=
  q.flatMap (fun e => e.bytes.zipIdx.map (fun p => (e.addr + BitVec.ofNat 64 p.2, p.1)))

/-- A route takes a condition that ends it (R146); every other route is as before. -/
def RouteGets (s u : State) (k : RouteKey) (status : Nat) : Prop :=
  (∀ r, s.route? k = some r → ∃ r', u.route? k = some r' ∧ r'.conditions = r.conditions ++ [status] ∧
    r'.endTick.isSome = true) ∧
  ∀ key, key ≠ k → u.route? key = s.route? key

/-- The strands of a ridge, by their keys, that run tasks of a route. -/
def State.runsOn (s : State) (k : RouteKey) (ridge : Nat) : List Nat :=
  (s.sched.running.filter (fun r => r.task.key == k && r.ridge == ridge && r.unit == .strand)).map
    (fun r => strandKey ridge r.ctx)

/-- The strand drops its task and the task's route takes a condition that ends it (R146, R264): the strand keeps only
what it predicts by and its TLBs, the route's other tasks on the ridge stop with it, and every other route and strand is
as before. -/
def RouteEnded (s u : State) (st : StrandRef) (t : StrandSt) (k : RouteKey) (status : Nat) : Prop :=
  (∃ w, u.strands.find (strandKey st.ridge.val st.strand.val) = some w ∧ w.plain = t.stopped.plain) ∧
  (∀ key, key ≠ strandKey st.ridge.val st.strand.val → u.strands.find key =
    if (s.runsOn k st.ridge.val).contains key then some ((s.strands.find key).getD StrandSt.idle).stopped
    else s.strands.find key) ∧
  (∀ x ∈ u.sched.running, ¬ (x.task.key = k ∧ x.ridge = st.ridge.val)) ∧
  RouteGets s u k status ∧ Writes (.routes :: .sched :: .scn :: strandParts) s u

/-! ## Filter machines -/

/-- The filter machine of an SCN context. -/
def State.filterAt (s : State) (c : ScnCtx) : Option FilterMachine := s.scn.find (c.ridge * 8 + c.ctx)

/-- A filter instruction has run: the context holds this machine, and nothing else has changed. -/
def FilterRan (s u : State) (c : ScnCtx) (m : FilterMachine) : Prop :=
  u.filterAt c = some m ∧ (∀ c', c'.ridge * 8 + c'.ctx ≠ c.ridge * 8 + c.ctx → u.filterAt c' = s.filterAt c') ∧
  Writes [.scn] s u

/-! ## Brix requests -/

/-- A message is taken as a new request: of a session when one is given, and outside every session otherwise. -/
def State.brixTakes (s : State) (src : BrixSrc) (b : List Byte) (x : Option Session) : Prop :=
  let m := parseBrix src b
  s.served src m.version = true ∧ s.brixFate src b = .request ∧
  match x with
  | some y => s.msgSession m = some y ∧ m.seq = y.expectSeq
  | none => ¬ (m.version = 2 ∧ m.session ≠ 0 ∧ m.op ≠ opSessionFinish) ∧
    ∀ c, s.mgmt.contexts.find? (fun c => c.src == src) = some c → m.seq = (c.lastSeq + 1) % 65536

/-- What follows the action on a new request: its answer is kept for a repetition, in the session or in the source's context, and
goes out; then the reset that a write may have asked for. -/
def State.brixEnds (u : State) (m : BrixMsg) (x : Option Session) (result : Nat) (payload : List Byte) : State :=
  let b := m.answer (x.map (fun y => y.macKey)) result payload
  match x with
  | some y => ((u.updSession y.id (fun z => { z with expectSeq := (m.seq + 1) % 65536, stored := some b })).sendAnswer
      m.src b).settleReset
  | none => ((u.keepAnswer m.src m.seq b).sendAnswer m.src b).settleReset

end Sys2Proof.Machine

namespace Sys2Proof

/-- A state from which the next step goes on. -/
def Safety.goesOn (s : Machine.State) : Prop := ∃ s', Machine.step s = .next s'

/-- The canonical forms that every step keeps: image memory and host memory list rising addresses and no byte
that an unlisted address reads as. -/
def Safety.Inv (s : Machine.State) : Prop := s.mem.wf = true ∧ s.host.mem.wf = true

end Sys2Proof
end

