-- ==== Sys2Proof/Certificates/Slice0/Obligations.lean ====
section
/-! DEFINITION. The statements for the provers. -/
section
open Sys2Proof Sys2Proof.Machine

/-- A step runs the command at the front of the queue on the state with the queue's rest. -/
def Obligations.StepRunsFrontCommand : Prop :=
  ∀ (s : State) (c : Instr) (q : List Instr), step { s with pending := c :: q } = exec c { s with pending := q }

/-- With no command waiting, one clock of CCLK passes: the time base moves on by one and nothing but the cycle counters of
the strands that hold a task follows it. The empty queue standing for one clock is the model's choice (log 5). -/
def Obligations.IdleStepPassesOneClock : Prop :=
  ∀ s : State, s.pending = [] → ∃ t, step s = .next t ∧ t.now = s.now + 1 ∧ Writes [.now, .strands] s t ∧
    ∀ (i : Nat) (x : StrandSt), s.strands.find i = some x → ∃ y, t.strands.find i = some y ∧ y.plain = { x.plain with
      cycle := if x.task.isSome then (x.cycle + 1) % 2 ^ 64 else x.cycle }

/-- Every command ends in a next state: no command stops the device. It writes the parts of the state that the frame table
names for it at most; every other part, and always the queue of waiting commands, is as before. That an event without an
occasion leaves the state as it was is the model's choice (log 4). -/
def Obligations.EveryCommandCompletes : Prop :=
  ∀ (c : Instr) (s : State), ∃ t, exec c s = .next t ∧ Writes (mayWrite c) s t ∧ t.pending = s.pending

/-- Every step keeps the canonical forms of image memory and of host memory: rising addresses, and no entry that an unlisted
address reads as. -/
def Obligations.StepKeepsMemoryCanonical : Prop :=
  ∀ s t : State, Safety.Inv s → step s = .next t → Safety.Inv t

/-- The state after reset has the canonical forms. -/
def Obligations.ResetMemoryCanonical : Prop :=
Safety.Inv State.reset

/-- After reset the device is in CONFIGURATION with ticks not running; no route is open, no queue exists, no event waits and
no record has been made; host tenants' registers read 0; and the object members hold the reset values of their tables: P 128,
W 8, M 2, extension limit 16, journal 2,048 MiB, power limit 240 W, step 8, throttle at 95 degrees, and the others named. -/
def Obligations.ResetValues : Prop :=
  let s := State.reset
  s.sys.state = .configuration ∧ s.pitch.running = false ∧ s.onum 0x1010 1 = 0 ∧ s.onum 0x2001 3 = 0 ∧
  s.onum 0x2000 1 = 128 ∧ s.onum 0x2000 2 = 8 ∧ s.onum 0x2000 3 = 2 ∧ s.onum 0x2000 4 = 16 ∧ s.onum 0x2002 1 = 2048 ∧
  s.onum 0x2001 5 = 0 ∧ s.sys.tickOut = false ∧ s.onum 0x4000 6 = 65536 ∧ s.onum 0x4000 7 = 0x1111111111111111 ∧
  s.onum 0x7000 1 = 240 ∧ s.onum 0x7000 2 = 8 ∧ s.onum 0x7000 5 = 95 ∧ s.onum 0x7000 6 = 30 ∧ s.onum 0x7000 9 = 1 ∧
  s.onum 0x7000 11 = 0 ∧ s.routes = [] ∧ s.host.wqs = [] ∧ s.host.cqs = [] ∧ s.err.queue = [] ∧ s.err.latch = none ∧
  s.mgmt.events = [] ∧ (∀ t < 32, (s.fn t).enable = false ∧ (s.fn t).adminError = false ∧ (s.fn t).awqBase = 0 ∧
    (s.fn t).acqBase = 0 ∧ (s.fn t).aqSizes = 0) ∧
  (∀ i < 17, ∀ j < 8, (s.strand i j).bpctl = 3#64 ∧ (s.strand i j).tvec = 0#64 ∧ (s.strand i j).task = none)

/-- g0 reads zero and a write to it is discarded; every other general register reads what was written last (R248). -/
def Obligations.GeneralRegisters : Prop :=
  ∀ (t : StrandSt) (i j : Fin 32) (x : Word), t.rg 0 = 0#64 ∧ t.wg 0 x = t ∧
    (i ≠ 0 → (t.wg i x).rg i = x) ∧ (j ≠ i → (t.wg i x).rg j = t.rg j)

/-- Every ALU instruction of two registers retires with the result of Table 08.8 in rd; shift amounts are rs2 [5:0]. A
division by a zero divisor raises DIVZERO, which a handler takes with cs_tval 0 and which ends the route otherwise; the least
number divided by -1 does not trap (R254, R264). -/
def Obligations.IntegerAluResults : Prop :=
  (∀ (s : State) (st : StrandRef) (t : StrandSt) (k : StrandTask) (rd rs1 rs2 : Fin 32), StrandReady s st t k →
    let a := t.rg rs1
    let b := t.rg rs2
    ∀ p ∈ ([(.add st rd rs1 rs2, a + b), (.sub st rd rs1 rs2, a - b), (.andOp st rd rs1 rs2, a &&& b),
        (.orOp st rd rs1 rs2, a ||| b), (.xorOp st rd rs1 rs2, a ^^^ b),
        (.sll st rd rs1 rs2, a <<< (b.toNat % 64)), (.srl st rd rs1 rs2, a >>> (b.toNat % 64)),
        (.sra st rd rs1 rs2, a.sshiftRight (b.toNat % 64)),
        (.slt st rd rs1 rs2, if a.toInt < b.toInt then 1#64 else 0#64),
        (.sltu st rd rs1 rs2, if a.toNat < b.toNat then 1#64 else 0#64),
        (.minOp st rd rs1 rs2, if a.toInt < b.toInt then a else b),
        (.maxOp st rd rs1 rs2, if a.toInt < b.toInt then b else a),
        (.minu st rd rs1 rs2, if a.toNat < b.toNat then a else b),
        (.maxu st rd rs1 rs2, if a.toNat < b.toNat then b else a),
        (.mul st rd rs1 rs2, a * b), (.mulh st rd rs1 rs2, BitVec.ofInt 64 (a.toInt * b.toInt / 2 ^ 64)),
        (.mulhu st rd rs1 rs2, BitVec.ofNat 64 (a.toNat * b.toNat / 2 ^ 64))] : List (Instr × Word)),
      ∃ u, exec p.1 s = .next u ∧ Retired s u st (t.wg rd p.2).advance) ∧
  (∀ (s : State) (st : StrandRef) (t : StrandSt) (k : StrandTask) (rd rs1 rs2 : Fin 32), StrandReady s st t k →
    let a := t.rg rs1
    let b := t.rg rs2
    let h := (a ^^^ b) * 0xFF51AFD7ED558CCD#64
    let g := (a ^^^ (a >>> (29 : Nat))) * 0xC4CEB9FE1A85EC53#64
    (∀ p ∈ ([(.hstep st rd rs1 rs2, h ^^^ (h >>> (32 : Nat))), (.hfin st rd rs1, g ^^^ (g >>> (32 : Nat))),
        (.clz st rd rs1, wClz a), (.ctz st rd rs1, wCtz a), (.popc st rd rs1, wPopc a), (.bswap st rd rs1, wBswap a),
        (.crc32cStep st rd rs1 rs2, wCrc a b)] : List (Instr × Word)),
      ∃ u, exec p.1 s = .next u ∧ Retired s u st (t.wg rd p.2).advance) ∧
    wClz 0#64 = 64#64 ∧ wCtz 0#64 = 64#64) ∧
  (∀ (s : State) (st : StrandRef) (t : StrandSt) (k : StrandTask) (rd rs1 rs2 : Fin 32), StrandReady s st t k →
    let a := t.rg rs1
    let b := t.rg rs2
    ∀ p ∈ ([(.div st rd rs1 rs2, BitVec.ofInt 64 (a.toInt.tdiv b.toInt)),
        (.divu st rd rs1 rs2, BitVec.ofNat 64 (a.toNat / b.toNat)),
        (.rem st rd rs1 rs2, BitVec.ofInt 64 (a.toInt.tmod b.toInt)),
        (.remu st rd rs1 rs2, BitVec.ofNat 64 (a.toNat % b.toNat))] : List (Instr × Word)),
      (b ≠ 0#64 → ∃ u, exec p.1 s = .next u ∧ Retired s u st (t.wg rd p.2).advance) ∧
      (b = 0#64 →
        (t.handles = true → ∃ u, exec p.1 s = .next u ∧ TrapTaken s u st t 8 0#64) ∧
        (t.handles = false → ∃ u, exec p.1 s = .next u ∧ RouteEnded s u st t k.key 0x0406)))

/-- Every immediate ALU instruction retires with the result of Table 08.7 in rd: immediates are sign-extended but for the
three logical ones (R252, R253). -/
def Obligations.IntegerImmediateResults : Prop :=
  ∀ (s : State) (st : StrandRef) (t : StrandSt) (k : StrandTask) (rd rs1 : Fin 32) (imm : BitVec 16) (amt : BitVec 6)
    (u21 : BitVec 21), StrandReady s st t k →
    let a := t.rg rs1
    ∀ p ∈ ([(.addi st rd rs1 imm, a + imm.signExtend 64), (.andi st rd rs1 imm, a &&& imm.setWidth 64),
        (.ori st rd rs1 imm, a ||| imm.setWidth 64), (.xori st rd rs1 imm, a ^^^ imm.setWidth 64),
        (.slli st rd rs1 amt, a <<< amt.toNat), (.srli st rd rs1 amt, a >>> amt.toNat),
        (.srai st rd rs1 amt, a.sshiftRight amt.toNat),
        (.slti st rd rs1 imm, if a.toInt < imm.toInt then 1#64 else 0#64),
        (.lui st rd u21, u21.signExtend 64 <<< (16 : Nat))] : List (Instr × Word)),
      ∃ u, exec p.1 s = .next u ∧ Retired s u st (t.wg rd p.2).advance

/-- A conditional branch goes to pc + IMM16 × 4 when its condition holds and to the next instruction when it does not; it
writes no other register. JAL and JALR leave pc + 4 in rd and go to their target, JALR's with bits [1:0] cleared; where timing
is not predictable, JALR writes its entry of the indirect-target table, whether the table is enabled or not (R253, R256 to
R258). -/
def Obligations.BranchesAndJumps : Prop :=
  (∀ (s : State) (st : StrandRef) (t : StrandSt) (k : StrandTask) (rs1 rs2 : Fin 32) (imm : BitVec 16),
    StrandReady s st t k →
    let a := t.rg rs1
    let b := t.rg rs2
    let target := t.pc + imm.signExtend 64 * 4#64
    ∀ p ∈ ([(.beq st rs1 rs2 imm, decide (a = b)), (.bne st rs1 rs2 imm, decide (a ≠ b)),
        (.blt st rs1 rs2 imm, decide (a.toInt < b.toInt)), (.bge st rs1 rs2 imm, decide (b.toInt ≤ a.toInt)),
        (.bltu st rs1 rs2 imm, decide (a.toNat < b.toNat)), (.bgeu st rs1 rs2 imm, decide (b.toNat ≤ a.toNat))] :
        List (Instr × Bool)),
      ∃ u, exec p.1 s = .next u ∧ Retired s u st
        (if p.2 then { t with pc := target, path := (t.path * 4 ^^^ fld target.toNat 3 2) % 65536 }
         else { t with pc := t.pc + 4#64 })) ∧
  (∀ (s : State) (st : StrandRef) (t : StrandSt) (k : StrandTask) (rd rs1 : Fin 32) (imm : BitVec 16) (u21 : BitVec 21),
    StrandReady s st t k →
    (∃ u, exec (.jal st rd u21) s = .next u ∧
      Retired s u st ((t.wg rd (t.pc + 4#64)).goto (t.pc + u21.signExtend 64 * 4#64))) ∧
    (let target := (t.rg rs1 + imm.signExtend 64) &&& ~~~ 3#64
     let t' := (t.wg rd (t.pc + 4#64)).goto target
     ∃ u, exec (.jalr st rd rs1 imm) s = .next u ∧
       Retired s u st (if t.pt then t'
         else { t' with itt := t'.itt.put (ittIndex t).1 { tag := (ittIndex t).2, target := target.toNat / 4 % 2 ^ 30 } })))

/-- A scalar floating-point instruction that sets no enabled flag retires: its result is that of IEEE 754 arithmetic rounded
under cs_fpctl.RM, it clears the rest of the vector register, and its flags become sticky; one that sets an enabled flag
raises FP with those flags at [6:2] of cs_tval (R255, R264). What IEEE 754 leaves open is free (log 11). -/
def Obligations.FloatResults : Prop :=
  ∀ (s : State) (st : StrandRef) (t : StrandSt) (k : StrandTask) (single : Bool) (rd rs1 rs2 : Fin 32),
    StrandReady s st t k →
    let f := fmtOf single
    let a := t.rf single rs1
    let b := t.rf single rs2
    ∀ p ∈ ([(.fadd st single rd rs1 rs2, fpAdd f t.rm a b), (.fsub st single rd rs1 rs2, fpSub f t.rm a b),
        (.fmul st single rd rs1 rs2, fpMul f t.rm a b), (.fdiv st single rd rs1 rs2, fpDiv f t.rm a b),
        (.fsqrt st single rd rs1, fpSqrt f t.rm a), (.fmin st single rd rs1 rs2, fpMin f a b),
        (.fmax st single rd rs1 rs2, fpMaxOf f a b),
        (.fmadd st single rd rs1 rs2, fpFma f t.rm a b (t.rf single rd)),
        (.fcvtf st single rd rs1, fpRoundInt f t.rm false (t.rg rs1).toInt 0)] : List (Instr × (Nat × Nat))),
      (t.trapEn &&& p.2.2 = 0 → ∃ u, exec p.1 s = .next u ∧
        Retired s u st ((t.wf single rd p.2.1).addFlags p.2.2).advance) ∧
      (t.trapEn &&& p.2.2 ≠ 0 → t.handles = true → ∃ u, exec p.1 s = .next u ∧
        TrapTaken s u st t 9 (BitVec.ofNat 64 (p.2.2 % 32 * 4)))

/-- FEQ, FLT, FLE and FCVTL write a general register: a NaN operand compares false and sets the invalid flag, and a value
outside INT64 converts to its least number with the invalid flag (R255). FMVGF and FMVFG copy bits and set no flag. -/
def Obligations.FloatToGeneral : Prop :=
  ∀ (s : State) (st : StrandRef) (t : StrandSt) (k : StrandTask) (single : Bool) (rd rs1 rs2 : Fin 32),
    StrandReady s st t k →
    let f := fmtOf single
    let a := t.rf single rs1
    let b := t.rf single rs2
    let nan := fpIsNan f a || fpIsNan f b
    let cmp (c : Bool) : Word × Nat := if nan then (0#64, 16) else (if c then 1#64 else 0#64, 0)
    (∀ p ∈ ([(.feq st single rd rs1 rs2, cmp (decide (fpRank f a = fpRank f b))),
        (.flt st single rd rs1 rs2, cmp (decide (fpRank f a < fpRank f b))),
        (.fle st single rd rs1 rs2, cmp (decide (fpRank f a ≤ fpRank f b))),
        (.fcvtl st single rd rs1, (BitVec.ofNat 64 (fpToI64 f t.rm a).1, (fpToI64 f t.rm a).2))] :
        List (Instr × (Word × Nat))),
      (t.trapEn &&& p.2.2 = 0 → ∃ u, exec p.1 s = .next u ∧ Retired s u st ((t.wg rd p.2.1).addFlags p.2.2).advance) ∧
      (t.trapEn &&& p.2.2 ≠ 0 → t.handles = true → ∃ u, exec p.1 s = .next u ∧
        TrapTaken s u st t 9 (BitVec.ofNat 64 (p.2.2 % 32 * 4)))) ∧
    (fpIsNan f a = true → fpToI64 f t.rm a = (2 ^ 63, 16)) ∧
    (∃ u, exec (.fmvgf st single rd rs1) s = .next u ∧ Retired s u st (t.wg rd (BitVec.ofNat 64 a)).advance) ∧
    (∃ u, exec (.fmvfg st single rd rs1) s = .next u ∧ Retired s u st (t.wf single rd (t.rg rs1).toNat).advance)

/-- CSRR gives rd the register's value; the counters are read only by a route that is not DETERMINISTIC. CSRW writes the five
RW registers where it sets no reserved field. A number that Table 08.4 does not list, an RO register written and a reserved
field set raise ILLEGAL (R249 to R251). What the counters of events hold is left open here. -/
def Obligations.ControlRegisters : Prop :=
  (∀ (s : State) (st : StrandRef) (t : StrandSt) (k : StrandTask) (rd : Fin 32), StrandReady s st t k →
    (∀ p ∈ ([(0x000, BitVec.ofNat 64 (t.pt.toNat * 2 + t.trap.toNat)), (0x001, t.tvec), (0x002, t.epc), (0x003, t.cause),
        (0x004, t.tval), (0x008, t.fpctl), (0x010, t.bpctl), (0x011, t.evtsel),
        (0x020, BitVec.ofNat 64 (st.ridge.val * 16 + st.strand.val))] : List (BitVec 12 × Word)),
      ∃ u, exec (.csrr st rd p.1) s = .next u ∧ Retired s u st (t.wg rd p.2).advance) ∧
    (s.isDet k.key = false →
      (∀ p ∈ ([(0x100, BitVec.ofNat 64 t.cycle), (0x101, BitVec.ofNat 64 t.instret), (0x102, BitVec.ofNat 64 s.timeNs)] :
          List (BitVec 12 × Word)),
        ∃ u, exec (.csrr st rd p.1) s = .next u ∧ Retired s u st (t.wg rd p.2).advance) ∧
      (∀ n ∈ ([0x103, 0x104, 0x108, 0x109, 0x10A, 0x10B] : List (BitVec 12)),
        ∃ x u, exec (.csrr st rd n) s = .next u ∧ Retired s u st (t.wg rd x).advance)) ∧
    (∀ n : BitVec 12, n ∉ ([0x000, 0x001, 0x002, 0x003, 0x004, 0x008, 0x010, 0x011, 0x020, 0x100, 0x101, 0x102, 0x103,
        0x104, 0x108, 0x109, 0x10A, 0x10B] : List (BitVec 12)) → (s.isDet k.key = true → n.toNat < 0x100 ∨ 0x10B < n.toNat) →
      (t.handles = true → ∃ u, exec (.csrr st rd n) s = .next u ∧
        TrapTaken s u st t 2 (BitVec.ofNat 64 (0x29 * 2 ^ 26 + rd.val * 2 ^ 21 + n.toNat))) ∧
      (t.handles = false → ∃ u, exec (.csrr st rd n) s = .next u ∧ RouteEnded s u st t k.key 0x0407))) ∧
  (∀ (s : State) (st : StrandRef) (t : StrandSt) (k : StrandTask) (rs1 : Fin 32), StrandReady s st t k →
    let x := t.rg rs1
    let rows : List (BitVec 12 × Bool × StrandSt) :=
      [(0x001, !x.getLsbD 1, { t with tvec := x }), (0x002, true, { t with epc := x }),
       (0x008, decide (x.toNat < 2 ^ 12), { t with fpctl := x }), (0x010, decide (x.toNat < 2 ^ 2), { t with bpctl := x }),
       (0x011, decide (x.toNat < 2 ^ 32), { t with evtsel := x })]
    (∀ p ∈ rows, p.2.1 = true → ∃ u, exec (.csrw st rs1 p.1) s = .next u ∧ Retired s u st p.2.2.advance) ∧
    (∀ n : BitVec 12, (∀ p ∈ rows, p.1 = n → p.2.1 = false) →
      (t.handles = true → ∃ u, exec (.csrw st rs1 n) s = .next u ∧
        TrapTaken s u st t 2 (BitVec.ofNat 64 (0x2A * 2 ^ 26 + rs1.val * 2 ^ 16 + n.toNat))) ∧
      (t.handles = false → ∃ u, exec (.csrw st rs1 n) s = .next u ∧ RouteEnded s u st t k.key 0x0407)))

/-- A load whose bytes can be had retires: rd takes the little-endian value, sign- or zero-extended as its mnemonic says, and
no byte of an object changes; a load that breaks a rule of the address spaces traps with its address and writes no register
(R242, R244, R253). -/
def Obligations.Loads : Prop :=
  ∀ (s : State) (st : StrandRef) (t : StrandSt) (k : StrandTask) (rd rs1 : Fin 32) (imm : BitVec 16),
    StrandReady s st t k →
    let at1 := t.rg rs1 + imm.signExtend 64
    let sx (n x : Nat) : Word := BitVec.ofInt 64 (if x < 2 ^ (n - 1) then (x : Int) else (x : Int) - 2 ^ n)
    let zx (x : Nat) : Word := BitVec.ofNat 64 x
    ∀ p ∈ ([(.lb st rd rs1 imm, at1, 1, fun x => t.wg rd (sx 8 x)), (.lbu st rd rs1 imm, at1, 1, fun x => t.wg rd (zx x)),
        (.lh st rd rs1 imm, at1, 2, fun x => t.wg rd (sx 16 x)), (.lhu st rd rs1 imm, at1, 2, fun x => t.wg rd (zx x)),
        (.lw st rd rs1 imm, at1, 4, fun x => t.wg rd (sx 32 x)), (.lwu st rd rs1 imm, at1, 4, fun x => t.wg rd (zx x)),
        (.ld st rd rs1 imm, at1, 8, fun x => t.wg rd (zx x)),
        (.ldpc st rd imm, t.pc + imm.signExtend 64 * 8#64, 8, fun x => t.wg rd (zx x)),
        (.flw st rd rs1 imm, at1, 4, fun x => t.wf true rd x), (.fld st rd rs1 imm, at1, 8, fun x => t.wf false rd x)] :
        List (Instr × Word × Nat × (Nat → StrandSt))),
      (∀ bs v m, (s.fetched st t k).strandLoad st k p.2.1 p.2.2.1 = .ok bs v m →
        ∃ u, exec p.1 s = .next u ∧ RetiredMem s u st (p.2.2.2 (leNat bs)).advance) ∧
      (∀ c v, (s.fetched st t k).strandLoad st k p.2.1 p.2.2.1 = .trap c v → c ∈ [4, 6, 7] ∧ v = p.2.1 ∧
        exec p.1 s = .next ((s.fetched st t k).trapAfter st k.key c v))

/-- What a task may load and store (R242 to R244): its bytes are those of the object, a peer's lines as they came, the window
or the host memory that the address names; every other access is refused with LOAD_ACCESS or STORE_ACCESS and reports its address. -/
def Obligations.AccessRules : Prop :=
  ∀ (s : State) (st : StrandRef) (k : StrandTask) (r : Route) (addr : Word) (n : Nat), s.route? k.key = some r →
    let a := addr.toNat
    let space := a / 2 ^ 61
    let d := r.desc.stage k.stage
    (4 ≤ space → s.strandLoad st k addr n = .trap 4 addr) ∧
    (space = 0 → 2 ^ 47 < a + n → s.strandLoad st k addr n = .trap 4 addr) ∧
    (space = 2 → fld (d.w 3) 63 32 < a % 2 ^ 61 + n → s.strandLoad st k addr n = .trap 4 addr) ∧
    (space = 3 → fld (d.w 5) 63 48 < a % 2 ^ 61 + n → s.strandLoad st k addr n = .trap 4 addr) ∧
    (space = 3 → a % 2 ^ 61 + n ≤ fld (d.w 5) 63 48 → refHost (d.w 4) = true → ∀ bs,
      s.hostRead k.key.tenant (refAddr (d.w 4) + a % 2 ^ 61) n = .ok bs → ∃ m, s.strandLoad st k addr n = .ok bs s m) ∧
    (space ≠ 1 → s.storeCheck k addr n = .trap 5 addr) ∧
    (space = 1 → s.strandObj k a = none →
      s.strandLoad st k addr n = .trap 4 addr ∧ s.storeCheck k addr n = .trap 5 addr) ∧
    (∀ o ob, space = 1 → s.strandObj k a = some (o, ob) →
      (o ≠ k.input → o ≠ k.out → o ∉ k.closed → o ≠ k.scratch → ob.cls ≠ clsOutput →
        s.strandLoad st k addr n = .trap 4 addr) ∧
      (o ≠ k.out → o ≠ k.scratch → s.storeCheck k addr n = .trap 5 addr) ∧
      (o ≠ k.scratch → s.objSpan ob < a % 2 ^ 40 + n →
        s.strandLoad st k addr n = .trap 4 addr ∧ s.storeCheck k addr n = .trap 5 addr) ∧
      (o ≠ k.scratch → a % 2 ^ 40 + n ≤ s.objSpan ob →
        (o = k.out → s.spillFault o ob (a % 2 ^ 40) n ≠ some 6 → s.storeCheck k addr n = .ok [] s 0) ∧
        (o = k.input ∨ o = k.out ∨ o ∈ k.closed ∨ ob.cls = clsOutput → s.spillFault o ob (a % 2 ^ 40) n = none →
          s.linesRead (s.physRidge st.ridge.val) (s.depotLines ob (a % 2 ^ 40) n) →
          (∃ v m, s.strandLoad st k addr n =
            .ok (s.depotBytes (s.physRidge st.ridge.val) o ob (a % 2 ^ 40) n) v m) ∧
          ((∀ l ∈ s.depotLines ob (a % 2 ^ 40) n, lineDev l = s.sys.deviceId) →
            s.depotBytes (s.physRidge st.ridge.val) o ob (a % 2 ^ 40) n = ob.readN o (a % 2 ^ 40) n))))

/-- A store whose address may be written retires and enters the store queue with the bytes of its value, low byte first; no
byte of an object changes yet. One that may not be written traps with its address (R242, R244, R247). -/
def Obligations.Stores : Prop :=
  ∀ (s : State) (st : StrandRef) (t : StrandSt) (k : StrandTask) (rs1 rs2 : Fin 32) (imm : BitVec 16),
    StrandReady s st t k →
    let addr := t.rg rs1 + imm.signExtend 64
    ∀ p ∈ ([(.sb st rs1 rs2 imm, 1, (t.rg rs2).toNat), (.sh st rs1 rs2 imm, 2, (t.rg rs2).toNat),
        (.sw st rs1 rs2 imm, 4, (t.rg rs2).toNat), (.sd st rs1 rs2 imm, 8, (t.rg rs2).toNat),
        (.fsw st rs1 rs2 imm, 4, t.rf true rs2), (.fsd st rs1 rs2 imm, 8, t.rf false rs2)] : List (Instr × Nat × Nat)),
      (∀ bs v m, (s.fetched st t k).storeCheck k addr p.2.1 = .ok bs v m →
        ∃ u, exec p.1 s = .next u ∧
          RetiredMem s u st { t with queue := [{ addr := addr, bytes := natLe p.2.1 p.2.2 }], pc := t.pc + 4#64 }) ∧
      (∀ c v, (s.fetched st t k).storeCheck k addr p.2.1 = .trap c v → c ∈ [5, 6] ∧ v = addr ∧
        exec p.1 s = .next ((s.fetched st t k).trapAfter st k.key c v))

/-- FENCE retires once every older store has left the store queue: a store that the object takes is then in the object, byte
for byte, and every other object is as before (R247). With no older store it changes nothing. Its word must be one that can
be fetched, and the lines of the store ones that the strand's L2 may own at once. -/
def Obligations.FenceAndTheStoreQueue : Prop :=
  ∀ (s : State) (st : StrandRef) (t : StrandSt) (k : StrandTask),
    (StrandReady s st t k → ∃ u, exec (.fence st) s = .next u ∧ Retired s u st t.advance) ∧
    (∀ e o ob x r, s.strands.find (strandKey st.ridge.val st.strand.val) = some t → t.task = some k →
      s.route? k.key = some r → t.waitLine = none → t.queue = [e] →
      s.strandObj k e.addr.toNat = some (o, x) → s.dobj? o = some ob →
      let ls := s.depotLines ob (e.addr.toNat % 2 ^ 40) e.bytes.length
      s.linesOwned (s.physRidge st.ridge.val) ls → (s.storeSteps (s.physRidge st.ridge.val) ls).isSome = true →
      let d := s.drainStores st k 2
      d.fetchBad (r.desc.stage k.stage) t.pc = false → d.codeAway st (r.desc.stage k.stage) t.pc = none →
      ∃ u, exec (.fence st) s = .next u ∧
        (∃ w, u.strands.find (strandKey st.ridge.val st.strand.val) = some w ∧
          w.plain = ({ t with queue := [] }).advance.plain) ∧
        (∃ ob', u.dobj? o = some ob' ∧ ob'.content = (ob.writeN o (e.addr.toNat % 2 ^ 40) e.bytes).content) ∧
        ∀ o', o' ≠ o → (u.dobj? o').map (fun d => d.content) = (s.dobj? o').map (fun d => d.content))

/-- BRK, a reserved word, ERET outside a handler, TEMIT or TEND with a row count above 4,096, and TEMIT with a row count of 0
or a task whose input has KEY_FORM 0 trap with their instruction word: to the handler where it is enabled and none runs, and otherwise the route ends with STRAND_FAULT
(R253, R264, R265, R273). ERET in a handler goes back to cs_epc. A cause that Table 08.10 gives no handler is never
delivered: a read error of code (FETCH) and a counter read by a DETERMINISTIC route end the route with BUS_ERROR and
DETERMINISM_VIOLATION, whatever the handler's state; so does a store that memory refuses after it retired (R251, R264, R266).
-/
def Obligations.SystemInstructions : Prop :=
  (∀ (s : State) (st : StrandRef) (t : StrandSt) (k : StrandTask) (rd rs1 : Fin 32) (w : BitVec 32),
    StrandReady s st t k →
    (∀ p ∈ ([(.brk st, true, 3, 0x28 * 2 ^ 26 + 1), (.eret st, !t.trap, 2, 0x28 * 2 ^ 26 + 2),
        (.reservedEncoding st w, !Decode.strandAssigned w.toNat, 2, w.toNat),
        (.temit st rd rs1, decide (4096 < (t.rg rs1).toNat ∨ (t.rg rs1).toNat = 0 ∨ s.inputForm k = 0), 2,
          0x28 * 2 ^ 26 + rd.val * 2 ^ 21 + rs1.val * 2 ^ 16 + 0x10),
        (.tend st rs1, decide (4096 < (t.rg rs1).toNat), 2, 0x28 * 2 ^ 26 + rs1.val * 2 ^ 16 + 0x11)] :
        List (Instr × Bool × Nat × Nat)), p.2.1 = true →
      (t.handles = true → ∃ u, exec p.1 s = .next u ∧ TrapTaken s u st t p.2.2.1 (BitVec.ofNat 64 p.2.2.2)) ∧
      (t.handles = false → ∃ u, exec p.1 s = .next u ∧ RouteEnded s u st t k.key 0x0407)) ∧
    (t.trap = true → ∃ u, exec (.eret st) s = .next u ∧
      Retired s u st { t with pc := t.epc &&& ~~~ 3#64, trap := false })) ∧
  (∀ (s : State) (st : StrandRef) (t : StrandSt) (k : StrandTask),
    (StrandReady s st t k → ∃ u, exec (.fetchFault st true) s = .next u ∧ RouteEnded s u st t k.key 0x0404) ∧
    (∀ rd (n : BitVec 12), StrandReady s st t k → s.isDet k.key = true → 0x100 ≤ n.toNat → n.toNat ≤ 0x10B →
      ∃ u, exec (.csrr st rd n) s = .next u ∧ RouteEnded s u st t k.key 0x0405) ∧
    (∀ e rest, s.strands.find (strandKey st.ridge.val st.strand.val) = some t → t.task = some k → t.queue = e :: rest →
      ∃ u, exec (.storeRefused st) s = .next u ∧ RouteEnded s u st t k.key 0x0404 ∧ SameBytes s u))

/-- TEMIT with a row count from 1 to 4,096, in a task whose input has no KEY_FORM 0, executes where the Depot has room for a new
output rope: it closes the old one and takes the new one, whose address is in rd (R273). TEND with a row count up to 4,096
always executes: it closes the rope, and the task ends with its strand idle (R273, R274). A rope closed with count 0 is not
passed on; with another it becomes a rope of that many rows with the input's ROPE_SEQ and KEY_FORM, whose selection has no bit
at or above the count, and keeps the bytes that the code wrote. -/
def Obligations.TaskOutputs : Prop :=
  (∀ (s : State) (st : StrandRef) (t : StrandSt) (k : StrandTask) (rd rs1 : Fin 32) (r : Route),
    StrandReady s st t k → s.route? k.key = some r → 1 ≤ (t.rg rs1).toNat → (t.rg rs1).toNat ≤ 4096 → s.inputForm k ≠ 0 →
    (s.fetched st t k).outputFits k.key r.desc k.stage st.ridge.val (s.inputForm k) →
    ∃ u out, exec (.temit st rd rs1) s = .next u ∧ OtherStrands st s u ∧ (u.dobj? out).isSome = true ∧
      ∃ w, u.strands.find (strandKey st.ridge.val st.strand.val) = some w ∧
        w.task = some { k with out := out, closed := k.closed ++ [k.out] } ∧ w.pc = t.pc + 4#64 ∧
        (∀ i, w.rg i = if i = rd ∧ i ≠ 0 then BitVec.ofNat 64 (u.objAddr out) else t.rg i)) ∧
  (∀ (s : State) (st : StrandRef) (t : StrandSt) (k : StrandTask) (rs1 : Fin 32) (r : Route), StrandReady s st t k →
    s.route? k.key = some r → (t.rg rs1).toNat ≤ 4096 →
    let f := s.fetched st t k
    let closed := f.strandEmits r k st (t.rg rs1).toNat
    ∃ u, exec (.tend st rs1) s = .next u ∧
      u = (closed.2.strandEnd st (f.strand st.ridge.val st.strand.val) k closed.1).answerHeld
        (strandKey st.ridge.val st.strand.val) ∧
      OtherStrands st s u ∧
      ∃ w, u.strands.find (strandKey st.ridge.val st.strand.val) = some w ∧ w.plain = t.stopped.plain ∧ w.task = none) ∧
  (∀ (s : State) (r : Route) (k : StrandTask) (ridge : Nat), (s.closeOutputRope r k ridge 0).1 = []) ∧
  (∀ (s : State) (r : Route) (k : StrandTask) (ridge count : Nat) (ob : DObj) (inp : Rope), 0 < count →
    s.dobj? k.out = some ob → s.ropeIn k.input = some inp →
    ∃ ob' m rp, (s.closeOutputRope r k ridge count).2.dobj? k.out = some ob' ∧ ob'.content = .code m rp ∧
      rp.rows = count ∧ rp.seq = inp.seq ∧ rp.keyForm = inp.keyForm ∧ rp.sel.length = count)

/-- A VINT instruction of legal fields retires: every active element of its destination takes the operation of Table 09.4 on
the elements of its sources (R282, R284). -/
def Obligations.VectorIntegers : Prop :=
  ∀ (s : State) (st : StrandRef) (t : StrandSt) (k : StrandTask) (a : VArgs), StrandReady s st t k →
    let b := 8 * 2 ^ a.es.val
    let x (i : Nat) : Nat := t.elem a a.vs1 i
    let y (i : Nat) : Nat := t.elem a a.vs2 i
    let sx (n : Nat) : Int := if n < 2 ^ (b - 1) then (n : Int) else (n : Int) - (2 ^ b : Nat)
    let three := t.regs3 a
    ∀ p ∈ ([(.vadd st a, three, fun i => x i + y i), (.vsub st a, three, fun i => x i + (2 ^ b - y i)),
        (.vand st a, three, fun i => x i &&& y i), (.vor st a, three, fun i => x i ||| y i),
        (.vxor st a, three, fun i => x i ^^^ y i), (.vsll st a, three, fun i => x i * 2 ^ (y i % b)),
        (.vsrl st a, three, fun i => x i / 2 ^ (y i % b)),
        (.vsra st a, three, fun i => ((sx (x i) / (2 ^ (y i % b) : Nat)) % (2 ^ b : Nat)).toNat),
        (.vmul st a, three, fun i => x i * y i), (.vmin st a, three, fun i => if sx (x i) < sx (y i) then x i else y i),
        (.vmax st a, three, fun i => if sx (x i) < sx (y i) then y i else x i), (.vminu st a, three, fun i => min (x i) (y i)),
        (.vmaxu st a, three, fun i => max (x i) (y i)),
        (.vhstep st a, three && a.es == 3,
          fun i => (hashStep (BitVec.ofNat 64 (x i)) (BitVec.ofNat 64 (y i))).toNat),
        (.vhfin st a, t.regs2 a && a.es == 3, fun i => (hashFin (BitVec.ofNat 64 (x i))).toNat),
        (.vbcast st a, t.regOk a a.vd && a.vs2 == 0, fun _ => (t.rg a.vs1).toNat),
        (.vmv st a, t.regs2 a, x)] : List (Instr × Bool × (Nat → Nat))),
      p.2.1 = true → ∃ u, exec p.1 s = .next u ∧ Retired s u st (t.putActive a (t.actives a) p.2.2).advance

/-- The elements of a vector destination (R282): an active element takes its value modulo its width; an inactive one below
the element count is zero under Z and unchanged without; the tail is zero. Registers outside the operand are unchanged. -/
def Obligations.VectorElements : Prop :=
  ∀ (t : StrandSt) (a : VArgs) (f : Nat → Nat), t.vlGroup < 3 → t.regOk a a.vd = true →
    let u := t.putActive a (t.actives a) f
    (∀ i, i < t.vmax a → u.elem a a.vd i =
      if i < t.vcount a then
        if (t.rp a.pg).getLsbD i = true then f i % 2 ^ (8 * 2 ^ a.es.val) else if a.z then 0 else t.elem a a.vd i
      else 0) ∧
    (∀ r : Fin 32, r.val < a.vd.val ∨ a.vd.val + t.vregs a ≤ r.val → u.v[r] = t.v[r]) ∧
    ({ u with v := t.v } = t)

/-- A vector floating-point instruction of legal fields: its flags are those of all active elements together. Where none of
them is enabled to trap it retires with the rounded results and the flags become sticky; otherwise it raises FP and no
element changes (R284, R287, R289). VFREDADD adds in ascending order and rounds each sum. A VCMP instruction of legal fields
retires: bit i of its predicate is set for the active elements where the comparison holds, and is 0 at every inactive and
tail element; a NaN operand compares false and sets the invalid flag (R282, R284). -/
def Obligations.VectorFloatsAndCompares : Prop :=
  (∀ (s : State) (st : StrandRef) (t : StrandSt) (k : StrandTask) (a : VArgs), StrandReady s st t k →
    let f := fmtOf (a.es == 2)
    let x (i : Nat) : Nat := t.elem a a.vs1 i
    let y (i : Nat) : Nat := t.elem a a.vs2 i
    let three := t.regs3 a && (a.es == 2 || a.es == 3)
    let put (g : Nat → Nat × Nat) : StrandSt × Nat :=
      (t.putActive a (t.actives a) (fun i => (g i).1), (t.actives a).foldl (fun acc i => acc ||| (g i).2) 0)
    let sum := (t.actives a).foldl (fun (acc : Nat × Nat) i =>
      ((fpAdd f t.rm acc.1 (x i)).1, acc.2 ||| (fpAdd f t.rm acc.1 (x i)).2)) (t.rf (a.es == 2) a.vd, 0)
    ∀ p ∈ ([(.vfadd st a, three, put (fun i => fpAdd f t.rm (x i) (y i))),
        (.vfsub st a, three, put (fun i => fpSub f t.rm (x i) (y i))),
        (.vfmul st a, three, put (fun i => fpMul f t.rm (x i) (y i))),
        (.vfdiv st a, three, put (fun i => fpDiv f t.rm (x i) (y i))),
        (.vfmadd st a, three, put (fun i => fpFma f t.rm (x i) (y i) (t.elem a a.vd i))),
        (.vfmin st a, three, put (fun i => fpMin f (x i) (y i))), (.vfmax st a, three, put (fun i => fpMaxOf f (x i) (y i))),
        (.vfsqrt st a, t.regs2 a && (a.es == 2 || a.es == 3), put (fun i => fpSqrt f t.rm (x i))),
        (.vfcvtl st a, t.regs2 a && a.es == 3, put (fun i => fpToI64 fp64 t.rm (x i))),
        (.vfcvtf st a, t.regs2 a && a.es == 3, put (fun i => fpFromInt fp64 t.rm (toSigned 64 (x i)))),
        (.vfredadd st a, t.regOk a a.vs1 && a.vs2 == 0 && !a.z && (a.es == 2 || a.es == 3),
          (t.wf (a.es == 2) a.vd sum.1, sum.2))] : List (Instr × Bool × (StrandSt × Nat))),
      p.2.1 = true →
      (t.trapEn &&& p.2.2.2 = 0 → ∃ u, exec p.1 s = .next u ∧ Retired s u st (p.2.2.1.addFlags p.2.2.2).advance) ∧
      (t.trapEn &&& p.2.2.2 ≠ 0 → t.handles = true → ∃ u, exec p.1 s = .next u ∧
        TrapTaken s u st t 9 (BitVec.ofNat 64 (p.2.2.2 % 32 * 4)))) ∧
  (∀ (s : State) (st : StrandRef) (t : StrandSt) (k : StrandTask) (a : VArgs), StrandReady s st t k →
    a.vd.val < 8 → t.regOk a a.vs1 = true → t.regOk a a.vs2 = true →
    let b := 8 * 2 ^ a.es.val
    let f := fmtOf (a.es == 2)
    let x (i : Nat) : Nat := t.elem a a.vs1 i
    let y (i : Nat) : Nat := t.elem a a.vs2 i
    let fpEs := a.es == 2 || a.es == 3
    let nan (i : Nat) : Bool := fpIsNan f (x i) || fpIsNan f (y i)
    ∀ p ∈ ([(.vcmpEq st a, true, false, fun i => x i == y i), (.vcmpNe st a, true, false, fun i => x i != y i),
        (.vcmpLt st a, true, false, fun i => decide (toSigned b (x i) < toSigned b (y i))),
        (.vcmpLe st a, true, false, fun i => decide (toSigned b (x i) ≤ toSigned b (y i))),
        (.vcmpLtu st a, true, false, fun i => decide (x i < y i)), (.vcmpLeu st a, true, false, fun i => decide (x i ≤ y i)),
        (.vcmpFeq st a, fpEs, true, fun i => !nan i && decide (fpRank f (x i) = fpRank f (y i))),
        (.vcmpFlt st a, fpEs, true, fun i => !nan i && decide (fpRank f (x i) < fpRank f (y i))),
        (.vcmpFle st a, fpEs, true, fun i => !nan i && decide (fpRank f (x i) ≤ fpRank f (y i)))] :
        List (Instr × Bool × Bool × (Nat → Bool))), p.2.1 = true →
      let flags := if p.2.2.1 && (t.actives a).any nan then 16 else 0
      t.trapEn &&& flags = 0 → ∃ u w, exec p.1 s = .next u ∧
        Retired s u st ((t.wp ⟨a.vd.val % 8, Nat.mod_lt _ (by decide)⟩ w).addFlags flags).advance ∧
        ∀ i, i < 256 → w.getLsbD i = ((t.actives a).contains i && p.2.2.2 i))

/-- Vector control and reductions: VSETVL returns and sets VL and keeps GROUP and SEW; the predicate and first-fault
functions; the reductions of the active elements into a general register, VEXT and VCOMPRESS (Table 09.6, R280, R281). -/
def Obligations.VectorControl : Prop :=
  ∀ (s : State) (st : StrandRef) (t : StrandSt) (k : StrandTask) (a : VArgs), StrandReady s st t k →
    let g := a.vs2.val / 4
    let vl := min (t.rg a.vs1).toNat (64 * 2 ^ g / 2 ^ a.es.val)
    let pd (x : Pred) : StrandSt := t.wp ⟨a.vd.val % 8, Nat.mod_lt _ (by decide)⟩ x
    let p1 := t.rp ⟨a.vs1.val % 8, Nat.mod_lt _ (by decide)⟩
    let p2 := t.rp ⟨a.vs2.val % 8, Nat.mod_lt _ (by decide)⟩
    let one := !a.long && decide (a.es = 0)
    let pp := one && decide (a.vd.val < 8) && decide (a.vs1.val < 8)
    let xs := (t.actives a).map (fun i => toSigned (8 * 2 ^ a.es.val) (t.elem a a.vs1 i))
    let red := t.regOk a a.vs1 && a.vs2 == 0 && !a.z
    ∀ p ∈ ([(.vsetvl st a, !a.long && a.vs2.val % 4 == 0 && decide (g < 3) && a.pg == 0 && !a.z,
          ({ t with vlGroup := g, vlSew := a.es.val, vlLen := vl }).wg a.vd (BitVec.ofNat 64 vl)),
        (.pand st a, pp && decide (a.vs2.val < 8), pd (p1 &&& p2)), (.por st a, pp && decide (a.vs2.val < 8), pd (p1 ||| p2)),
        (.pandn st a, pp && decide (a.vs2.val < 8), pd (p1 &&& ~~~ p2)), (.pnot st a, pp && a.vs2 == 0, pd (~~~ p1)),
        (.ffmask st a, pp && a.vs1 == 0 && a.vs2 == 0, pd (predOf t.vlLen (fun i => t.ffr.getLsbD i))),
        (.ptrue st a, pp && a.vs1 == 0 && a.vs2 == 0, pd (predOf t.vlLen (fun _ => true))),
        (.fffill st a, one && a.vd == 0 && a.vs1 == 0 && a.vs2 == 0, { t with ffr := BitVec.allOnes 256 }),
        (.ffput st a, one && a.vd == 0 && decide (a.vs1.val < 8) && a.vs2 == 0, { t with ffr := p1 }),
        (.pcnt st a, one && decide (a.vs1.val < 8) && a.vs2 == 0, t.wg a.vd (BitVec.ofNat 64 (popCount t.vlLen p1.toNat))),
        (.ffcnt st a, one && a.vs1 == 0 && a.vs2 == 0,
          t.wg a.vd (BitVec.ofNat 64 (((List.range 256).find? (fun i => !t.ffr.getLsbD i)).getD 256))),
        (.vredadd st a, red, t.wg a.vd (BitVec.ofInt 64 xs.sum)),
        (.vredmin st a, red, t.wg a.vd (BitVec.ofInt 64 (xs.foldl min (2 ^ 63 - 1)))),
        (.vredmax st a, red, t.wg a.vd (BitVec.ofInt 64 (xs.foldl max (-(2 ^ 63))))),
        (.vext st a, t.regOk a a.vs1 && a.pg == 0 && !a.z, t.wg a.vd (if (t.rg a.vs2).toNat < t.vcount a then
          BitVec.ofInt 64 (toSigned (8 * 2 ^ a.es.val) (t.elem a a.vs1 (t.rg a.vs2).toNat)) else 0#64)),
        (.vcompress st a, t.regs2 a && !a.z, t.putElems a a.vd
          ((List.range (t.vmax a)).map (fun i => ((t.actives a).map (fun j => t.elem a a.vs1 j)).getD i 0)))] :
        List (Instr × Bool × StrandSt)), p.2.1 = true →
      ∃ u, exec p.1 s = .next u ∧ Retired s u st p.2.2.advance

/-- Vector loads and gathers. Where every active element can be loaded, the destination takes their values under R282, and a
first-fault form sets every bit of ffr. Where element i is the lowest that cannot be, a plain form traps with that element's
address, as does a first-fault form whose first active element it is; otherwise the first-fault form completes: elements from
i upward are written as inactive ones and ffr names the elements below i (R287, R288, R291, R292). -/
def Obligations.VectorLoads : Prop :=
  ∀ (s : State) (st : StrandRef) (t : StrandSt) (k : StrandTask) (a : VArgs), StrandReady s st t k →
    let n := 2 ^ a.es.val
    let cont (i : Nat) : Word := t.rg a.vs1 + BitVec.ofNat 64 (i * n)
    let stride (i : Nat) : Word := t.rg a.vs1 + BitVec.ofNat 64 i * t.rg a.vs2
    let index (i : Nat) : Word := t.rg a.vs1 + BitVec.ofNat 64 (t.elem a a.vs2 i * n)
    let whole := t.regOk a a.vd && a.vs2 == 0
    let apart := t.regOk a a.vd && t.regOk a a.vs2 && t.apart a
    let act := t.actives a
    ∀ p ∈ ([(.vld st a, whole, false, cont), (.vldff st a, whole, true, cont), (.vlds st a, t.regOk a a.vd, false, stride),
        (.vgather st a, apart, false, index), (.vgatherff st a, apart, true, index)] :
        List (Instr × Bool × Bool × (Nat → Word))), p.2.1 = true →
      let ff := p.2.2.1
      let load := (s.fetched st t k).loadElems st k n p.2.2.2 act [] 0
      let put (l : List Nat) (vals : List (Nat × Nat)) : StrandSt := t.putActive a l (lookupVal vals)
      (∀ vals v m, load = .ok vals v m → ∃ u, exec p.1 s = .next u ∧ RetiredMem s u st
        (if ff then { put act vals with ffr := BitVec.allOnes 256 } else put act vals).advance) ∧
      (∀ i c w vals v m, load = .trap i c w vals v m → w = p.2.2.2 i ∧ i ∈ act ∧
        ((ff = false ∨ act.head? = some i) → exec p.1 s = .next ((s.fetched st t k).trapAfter st k.key c w)) ∧
        (ff = true → act.head? ≠ some i → ∃ u, exec p.1 s = .next u ∧ RetiredMem s u st
          ({ put (act.filter (fun j => decide (j < i))) vals with ffr := predOf i (fun _ => true) }).advance))

/-- Vector stores and scatters check every active element first; where each may be stored, the bytes of the active elements
enter the store queue in ascending element order, and while the queue's 32 entries of 64 bits hold them, no byte of an object
changes yet. Stores that the queue cannot hold leave it first, the oldest first, and the instruction retires with the rest in
it; where the journal is full, or a line must be owned first, it has not run. Where an element may not be stored, nothing enters the queue and the
instruction traps with that element's address (R241, R285 to R288). -/
def Obligations.VectorStores : Prop :=
  ∀ (s : State) (st : StrandRef) (t : StrandSt) (k : StrandTask) (a : VArgs), StrandReady s st t k → t.vlGroup < 3 →
    a.z = false →
    let n := 2 ^ a.es.val
    let cont (i : Nat) : Word := t.rg a.vs1 + BitVec.ofNat 64 (i * n)
    let stride (i : Nat) : Word := t.rg a.vs1 + BitVec.ofNat 64 i * t.rg a.vs2
    let index (i : Nat) : Word := t.rg a.vs1 + BitVec.ofNat 64 (t.elem a a.vs2 i * n)
    let act := t.actives a
    ∀ p ∈ ([(.vst st a, t.regOk a a.vd && a.vs2 == 0, true, cont), (.vsts st a, t.regOk a a.vd, false, stride),
        (.vscatter st a, t.regOk a a.vd && t.regOk a a.vs2 && t.apart a, false, index)] :
        List (Instr × Bool × Bool × (Nat → Word))),
      p.2.1 = true →
      let q := t.vecStores a act p.2.2.1 p.2.2.2
      (queueBytes q = act.flatMap (fun i => (natLe n (t.elem a a.vd i)).zipIdx.map (fun b =>
        (p.2.2.2 i + BitVec.ofNat 64 b.2, b.1)))) ∧
      (∀ bs v m, (s.fetched st t k).checkElems k n p.2.2.2 act = .ok bs v m →
        (overQueue q = 0 → ∃ u, exec p.1 s = .next u ∧ RetiredMem s u st { t with queue := q, pc := t.pc + 4#64 }) ∧
        (overQueue q ≠ 0 → ∃ u w, exec p.1 s = .next u ∧
          u.strands.find (strandKey st.ridge.val st.strand.val) = some w ∧
          (w.plain = { t.plain with waitLine := w.waitLine } ∨
            w.plain = { t.plain with queue := q.drop (overQueue q), pc := t.pc + 4#64 }))) ∧
      (∀ c w, (s.fetched st t k).checkElems k n p.2.2.2 act = .trap c w →
        exec p.1 s = .next ((s.fetched st t k).trapAfter st k.key c w))

/-- A vector word whose fields break R284 traps with ILLEGAL and its word: for every vector instruction, a field that its row
of Tables 09.4 to 09.6 does not use or allow (R284). -/
def Obligations.IllegalVectorWords : Prop :=
  ∀ (s : State) (st : StrandRef) (t : StrandSt) (k : StrandTask) (a : VArgs), StrandReady s st t k → t.handles = true →
    let three := t.regs3 a
    let two := t.regs2 a
    let fp := a.es == 2 || a.es == 3
    let d := t.regOk a a.vd
    let cmp := decide (a.vd.val < 8) && t.regOk a a.vs1 && t.regOk a a.vs2
    let gs := d && t.regOk a a.vs2 && t.apart a
    let one := !a.long && decide (a.es = 0)
    let pp := one && decide (a.vd.val < 8) && decide (a.vs1.val < 8)
    let p3 := pp && decide (a.vs2.val < 8)
    let red := t.regOk a a.vs1 && a.vs2 == 0 && !a.z
    let word (op f : Nat) : Nat := op * 2 ^ 26 + a.vd.val * 2 ^ 21 + a.vs1.val * 2 ^ 16 + a.vs2.val * 2 ^ 11
      + a.pg.val * 2 ^ 8 + a.long.toNat * 2 ^ 7 + a.z.toNat * 2 ^ 6 + a.es.val * 2 ^ 4 + f
    ∀ p ∈ ([(.vadd st a, three, 0x30, 0x0), (.vsub st a, three, 0x30, 0x1), (.vand st a, three, 0x30, 0x2),
        (.vor st a, three, 0x30, 0x3), (.vxor st a, three, 0x30, 0x4), (.vsll st a, three, 0x30, 0x5),
        (.vsrl st a, three, 0x30, 0x6), (.vsra st a, three, 0x30, 0x7), (.vmul st a, three, 0x30, 0x8),
        (.vmin st a, three, 0x30, 0x9), (.vmax st a, three, 0x30, 0xA), (.vminu st a, three, 0x30, 0xB),
        (.vmaxu st a, three, 0x30, 0xC), (.vhstep st a, three && a.es == 3, 0x30, 0xD),
        (.vhfin st a, two && a.es == 3, 0x30, 0xE), (.vbcast st a, d && a.vs2 == 0, 0x30, 0xF)] ++
       [(.vfadd st a, three && fp, 0x31, 0x0), (.vfsub st a, three && fp, 0x31, 0x1), (.vfmul st a, three && fp, 0x31, 0x2),
        (.vfdiv st a, three && fp, 0x31, 0x3), (.vfmadd st a, three && fp, 0x31, 0x4), (.vfmin st a, three && fp, 0x31, 0x5),
        (.vfmax st a, three && fp, 0x31, 0x6), (.vfsqrt st a, two && fp, 0x31, 0x7), (.vfcvtl st a, two && a.es == 3, 0x31, 0x8),
        (.vfcvtf st a, two && a.es == 3, 0x31, 0x9), (.vcmpEq st a, cmp, 0x32, 0x0), (.vcmpNe st a, cmp, 0x32, 0x1),
        (.vcmpLt st a, cmp, 0x32, 0x2), (.vcmpLe st a, cmp, 0x32, 0x3), (.vcmpLtu st a, cmp, 0x32, 0x4),
        (.vcmpLeu st a, cmp, 0x32, 0x5), (.vcmpFeq st a, cmp && fp, 0x32, 0x6), (.vcmpFlt st a, cmp && fp, 0x32, 0x7),
        (.vcmpFle st a, cmp && fp, 0x32, 0x8)] ++
       [(.vld st a, d && a.vs2 == 0, 0x33, 0x0), (.vldff st a, d && a.vs2 == 0, 0x33, 0x1),
        (.vst st a, d && a.vs2 == 0 && !a.z, 0x33, 0x2), (.vlds st a, d, 0x33, 0x3), (.vsts st a, d && !a.z, 0x33, 0x4),
        (.vgather st a, gs, 0x34, 0x0), (.vgatherff st a, gs, 0x34, 0x1), (.vscatter st a, gs && !a.z, 0x34, 0x2)] ++
       [(.vsetvl st a, !a.long && a.vs2.val % 4 == 0 && decide (a.vs2.val / 4 < 3) && a.pg == 0 && !a.z, 0x35, 0x0),
        (.pand st a, p3, 0x35, 0x1), (.por st a, p3, 0x35, 0x2), (.pandn st a, p3, 0x35, 0x3),
        (.pnot st a, pp && a.vs2 == 0, 0x35, 0x4), (.ffmask st a, pp && a.vs1 == 0 && a.vs2 == 0, 0x35, 0x5),
        (.fffill st a, one && a.vd == 0 && a.vs1 == 0 && a.vs2 == 0, 0x35, 0x6),
        (.ffput st a, one && a.vd == 0 && decide (a.vs1.val < 8) && a.vs2 == 0, 0x35, 0x7),
        (.pcnt st a, one && decide (a.vs1.val < 8) && a.vs2 == 0, 0x35, 0x8),
        (.ptrue st a, pp && a.vs1 == 0 && a.vs2 == 0, 0x35, 0x9), (.ffcnt st a, one && a.vs1 == 0 && a.vs2 == 0, 0x35, 0xA),
        (.vredadd st a, red, 0x36, 0x0), (.vredmin st a, red, 0x36, 0x1), (.vredmax st a, red, 0x36, 0x2),
        (.vext st a, t.regOk a a.vs1 && a.pg == 0 && !a.z, 0x36, 0x3), (.vcompress st a, two && !a.z, 0x36, 0x4),
        (.vmv st a, two, 0x36, 0x5), (.vfredadd st a, red && fp, 0x36, 0x6)] : List (Instr × Bool × Nat × Nat)),
      p.2.1 = false → ∃ u, exec p.1 s = .next u ∧
        TrapTaken s u st t 2 (BitVec.ofNat 64 (word p.2.2.1 p.2.2.2))

/-- A filter comparison writes its mask register and nothing else: slot by slot, UNKNOWN where the slot is unselected or an
operand is null, and else TRUE or FALSE by the comparison of the values (R132, R137, R138). ISNULL is never UNKNOWN on a
selected slot; INLIST is UNKNOWN for a value outside a list with a null. LDCOL copies an input column. -/
def Obligations.FilterComparisons : Prop :=
  ∀ (s : State) (c : ScnCtx) (x : FArgs) (m : FilterMachine), s.filterAt c = some m →
    (∀ a b : ColReg, m.col? x.a = some a → m.second x false = some b →
      let sel := List.zip m.sel (List.zip a.slots b.slots)
      let both (f : Val → Val → Bool) (p : Bool × Slot × Slot) : Tri :=
        match p with
        | (true, some v, some w) => if f v w then .t else .f
        | _ => .u
      (∀ p ∈ ([(.filterEq c x, fun v w => valEq a.ty b.ty v w), (.filterNe c x, fun v w => !valEq a.ty b.ty v w),
          (.filterLt c x, fun v w => valLt a.ty b.ty v w), (.filterLe c x, fun v w => !valLt b.ty a.ty w v),
          (.filterGt c x, fun v w => valLt b.ty a.ty w v), (.filterGe c x, fun v w => !valLt a.ty b.ty v w)] :
          List (Instr × (Val → Val → Bool))),
        ∃ u, exec p.1 s = .next u ∧ FilterRan s u c (m.setMask x.d (sel.map (both p.2)))) ∧
      ∀ hi : ColReg, (if x.k then m.constReg (x.imm + 1) false else m.col? x.g) = some hi →
        ∃ u, exec (.filterBetween c x) s = .next u ∧ FilterRan s u c (m.setMask x.d (List.zipWith Tri.and
          (sel.map (both (fun v w => !valLt a.ty b.ty v w)))
          ((List.zip m.sel (List.zip a.slots hi.slots)).map (both (fun v w => !valLt hi.ty a.ty w v)))))) ∧
    (∀ a : ColReg, m.col? x.a = some a →
      (∃ u, exec (.filterIsNull c x) s = .next u ∧ FilterRan s u c (m.setMask x.d ((List.zip m.sel a.slots).map (fun p =>
        if p.1 then (if p.2 = none then .t else .f) else .u)))) ∧
      ∀ k : FConst, m.consts[x.imm]? = some k →
        ∃ u, exec (.filterInList c x) s = .next u ∧ FilterRan s u c (m.setMask x.d ((List.zip m.sel a.slots).map (fun p =>
          match p with
          | (true, some v) => if (k.listVals a.width).any (fun w => valEq a.ty k.ty v w) then .t
            else if k.hasNull then .u else .f
          | _ => .u)))) ∧
    ∀ a : ColReg, m.inputs[x.imm]? = some a → ∃ u, exec (.filterLdCol c x) s = .next u ∧ FilterRan s u c (m.setCol x.d a)

/-- The logic of masks is three-valued: FALSE decides AND and TRUE decides OR, UNKNOWN stays open otherwise, NOT swaps TRUE
and FALSE, and the three tests answer TRUE or FALSE only (R137). Filter arithmetic computes the slots that are selected, not
null and not excluded by the guard, and gives null for the others; a fault in any computed slot ends the route with
ARITH_FAULT, writes no register, and stops the route's tasks on the ridge (R141, R146). HASH64 and CRC32C never fault and hash a null as R115 and R116 say. Nothing
but the destination is written. -/
def Obligations.FilterLogicAndArithmetic : Prop :=
  (∀ (s : State) (c : ScnCtx) (x : FArgs) (m : FilterMachine) (a : List Tri), s.filterAt c = some m →
    m.mask? x.a = some a →
    let and3 (p q : Tri) : Tri :=
      match p, q with
      | .f, _ => .f
      | _, .f => .f
      | .t, .t => .t
      | _, _ => .u
    let or3 (p q : Tri) : Tri :=
      match p, q with
      | .t, _ => .t
      | _, .t => .t
      | .f, .f => .f
      | _, _ => .u
    let test (v p : Tri) : Tri := if p = v then .t else .f
    (∀ b, m.mask? x.b = some b → ∀ p ∈ ([(.filterAnd c x, and3), (.filterOr c x, or3)] : List (Instr × (Tri → Tri → Tri))),
      ∃ u, exec p.1 s = .next u ∧ FilterRan s u c (m.setMask x.d (List.zipWith p.2 a b))) ∧
    ∀ p ∈ ([(.filterNot c x, fun v => match v with
          | .t => .f
          | .f => .t
          | .u => .u),
        (.filterIsTrue c x, test .t), (.filterIsFalse c x, test .f), (.filterIsUnknown c x, test .u)] :
        List (Instr × (Tri → Tri))),
      ∃ u, exec p.1 s = .next u ∧ FilterRan s u c (m.setMask x.d (a.map p.2))) ∧
  (∀ (s : State) (c : ScnCtx) (x : FArgs) (m : FilterMachine) (a : ColReg), s.filterAt c = some m → m.col? x.a = some a →
    let ends (i : Instr) : Prop := ∃ u, exec i s = .next u ∧
      u.scn = s.scn.filter (fun p => !(p.2.key == m.key && p.2.ridge == c.ridge)) ∧ RouteGets s u m.key 0x0406 ∧
      Writes [.objs, .routes, .sched, .scn, .strands, .err, .mgmt, .out] s u
    (∀ b, m.second x true = some b →
      ∀ p ∈ ([(.filterAdd c x, 0x30), (.filterSub c x, 0x31), (.filterMul c x, 0x32), (.filterDiv c x, 0x33),
          (.filterMod c x, 0x34)] : List (Instr × Nat)),
        let ty := arithOut p.2 a b
        (∀ l, m.compute2 x a.slots b.slots (arithVal p.2 ty.1 a.ty b.ty) = some l → ∃ u, exec p.1 s = .next u ∧
          FilterRan s u c (m.setCol x.d { ty := ty.1, scale := ty.2, width := 0, sorted := false, slots := l })) ∧
        (m.compute2 x a.slots b.slots (arithVal p.2 ty.1 a.ty b.ty) = none → ends p.1)) ∧
    ((∀ l, m.compute x a.slots (negVal a.ty) = some l → ∃ u, exec (.filterNeg c x) s = .next u ∧
        FilterRan s u c (m.setCol x.d { ty := a.ty, scale := a.scale, width := 0, sorted := false, slots := l })) ∧
      (m.compute x a.slots (negVal a.ty) = none → ends (.filterNeg c x))) ∧
    (∀ k, m.consts[x.imm]? = some k →
      (∀ l, m.compute x a.slots (castVal a.ty a.scale k.ty k.scale) = some l → ∃ u, exec (.filterCast c x) s = .next u ∧
        FilterRan s u c (m.setCol x.d { ty := k.ty, scale := k.scale, width := 0, sorted := false, slots := l })) ∧
      (m.compute x a.slots (castVal a.ty a.scale k.ty k.scale) = none → ends (.filterCast c x)) ∧
      (∀ b g : ColReg, (if x.n < 1 then b = a else m.col? x.b = some b) → (if x.n < 2 then g = a else m.col? x.g = some g) →
        ∃ u, exec (.filterHash64 c x) s = .next u ∧ FilterRan s u c (m.setCol x.d
          { ty := tyI64, scale := 0, width := 0, sorted := false, slots := (List.range m.rows).map (fun i =>
            if m.sel.getD i false then some (.int (toSigned 64
              (hashKeys ((([a, b, g] : List ColReg).take (x.n + 1)).map (fun r => (r.ty, r.slots.getD i none))) k.raw)))
            else none) }))) ∧
    ∃ u, exec (.filterCrc32c c x) s = .next u ∧ FilterRan s u c (m.setCol x.d
      { ty := tyI64, scale := 0, width := 0, sorted := false, slots := (List.zip m.sel a.slots).map (fun p =>
        if p.1 then some (.int (crc32c (bytesOfWords (hashWords a.ty p.2)) : Nat)) else none) }))

/-- Which slots filter arithmetic computes, and that one faulting slot makes the whole instruction fault (R141). -/
def Obligations.FilterComputedSlots : Prop :=
  ∀ (m : FilterMachine) (x : FArgs) (a b : List Slot) (f : Val → Val → Option Val), a.length = m.rows → b.length = m.rows →
    m.sel.length = m.rows → (x.guarded = true → ((m.mask? x.g).getD []).length = m.rows) →
    let computes (i : Nat) (v w : Val) : Prop := m.sel[i]? = some true ∧
      (x.guarded = true → ((m.mask? x.g).getD [])[i]? = some Tri.t) ∧ a[i]? = some (some v) ∧ b[i]? = some (some w)
    (m.compute2 x a b f = none ↔ ∃ i v w, computes i v w ∧ f v w = none) ∧
    ∀ l, m.compute2 x a b f = some l → l.length = m.rows ∧
      (∀ i v w, computes i v w → ∃ r, f v w = some r ∧ l[i]? = some (some r)) ∧
      (∀ i, i < m.rows → (∀ v w, ¬ computes i v w) → l[i]? = some none)

/-- INCAIRN, PREFIX and SUFFIX answer TRUE or FALSE for each selected slot that is not null and UNKNOWN for the others; TRUE
is a verified hit of the table for the value's key, and a value that no entry can hold is FALSE without a search. A handle
that names no table of the tenant ends the route with CAIRN_REF (R139, R140, R143). -/
def Obligations.FilterMembership : Prop :=
  ∀ (s : State) (c : ScnCtx) (x : FArgs) (m : FilterMachine) (a : ColReg) (k : FConst), s.filterAt c = some m →
    m.col? x.a = some a → m.consts[x.imm]? = some k →
    ∀ p ∈ ([(.filterInCairn c x, 0x19), (.prefixMatch c x, 0x1A), (.suffixMatch c x, 0x1B)] : List (Instr × Nat)),
      (s.tableOf m.key.tenant k.raw = none → ∃ u, exec p.1 s = .next u ∧ RouteGets s u m.key 0x0123 ∧
        u.scn = s.scn.filter (fun p => !(p.2.key == m.key && p.2.ridge == c.ridge))) ∧
      ∀ t, s.tableOf m.key.tenant k.raw = some t → ∃ (u : State) (l : List Tri), exec p.1 s = .next u ∧
        u.filterAt c = some (m.setMask x.d l) ∧
        Writes [.objs, .routes, .scn, .cairn, .err, .mgmt, .out] s u ∧ l.length = min m.sel.length a.slots.length ∧
        (∀ (i : Nat) (v : Val), (List.zip m.sel a.slots)[i]? = some (true, some v) → l[i]? = some Tri.t ∨ l[i]? = some Tri.f) ∧
        (∀ (i : Nat) (q : Bool × Slot), (List.zip m.sel a.slots)[i]? = some q → q.1 = false ∨ q.2 = none → l[i]? = some Tri.u) ∧
        (∀ (i : Nat) (v : Val), (List.zip m.sel a.slots)[i]? = some (true, some v) → cairnKey p.2 a.ty t.width v = none → l[i]? = some Tri.f) ∧
        (∀ (v : Val) key, List.zip m.sel a.slots = [(true, some v)] → cairnKey p.2 a.ty t.width v = some key →
          l = [if (s.searchTable t m.ridge (some m.key) key).1.isSome then Tri.t else Tri.f])

/-- The instants of a running pitch, each once. At the cutoff every local Summit slot swaps its buffers: the filling one is
closed with this pitch's tag, a free one fills; then the entries of routes homed elsewhere leave. The decision follows the
cutoff and leaves no buffer closed. A tick on the device's own timer ends the pitch, reports the power of the pitch, and
starts the next pitch with cutoff and decision to come; where the tick master is dead, the living device of the lowest ID is
the master from this tick on, and ticks on its internal timer. A device paced by TICK_IN ticks by edges: its first edge is a
tick, an edge no more than a microsecond early is one, an earlier one is ignored and counted; a miss is counted and ticks a
microsecond after the period; the eighth in a row sends the device to its internal timer; there eight good edges in a row
bring the pacing back, and the eighth is the tick where the timer has not ticked yet (log 42). -/
def Obligations.PitchInstants : Prop :=
  ∀ s : State, s.pitch.running = true →
    (s.pitch.cutoffDone = false → ∃ t, exec .cutoff s = .next t ∧ t.pitch = { s.pitch with cutoffDone := true } ∧
      t.now = max s.now s.cutoffAt ∧
      let far (e : SlotEntry) : Bool := e.key.home != s.sys.deviceId
      let after (b : SlotBuf) : SlotBuf := (b.swap s.pitch.number).cut s.pitch.number far
      ∀ k < 64, (t.slot k).1.state = (after (s.slot k).1).state ∧ (t.slot k).1.tag = (after (s.slot k).1).tag ∧
        (t.slot k).2.state = (after (s.slot k).2).state ∧ (t.slot k).2.tag = (after (s.slot k).2).tag) ∧
    (s.pitch.cutoffDone = true → exec .cutoff s = .next s) ∧
    (s.pitch.decisionDone = false → ∃ t, exec .decision s = .next t ∧
      t.pitch = { s.pitch with cutoffDone := true, decisionDone := true } ∧
      ∀ k < 64, (t.slot k).1.shut = false ∧ (t.slot k).2.shut = false) ∧
    (s.pitch.decisionDone = true → exec .decision s = .next s) ∧
    (∀ mw, s.pitch.mode ≠ .tickIn ∨ s.pitch.fallback = true → ∃ t, exec (.tick mw) s = .next t ∧
      t.pitch.number = s.pitch.number + 1 ∧ t.pitch.lastTick = s.tickInstant ∧ t.pitch.cutoffDone = false ∧
      t.pitch.decisionDone = false ∧ t.pitch.correction = 0 ∧ t.pitch.running = true ∧ t.power.packageMw = mw ∧
      (s.coh.dead.contains s.pitch.master = false → t.pitch.mode = s.pitch.mode ∧ t.pitch.master = s.pitch.master) ∧
      (∀ m, s.coh.dead.contains s.pitch.master = true → m < s.sys.deviceCount → s.coh.dead.contains m = false →
        (∀ x < m, s.coh.dead.contains x = true) → t.pitch.master = m ∧
          t.pitch.mode = if m = s.sys.deviceId then .internal else s.pitch.mode)) ∧
    (s.pitch.mode = .tickIn → s.pitch.tickInStarted = false → ∃ t, exec .tickInEdge s = .next t ∧
      t.pitch.number = s.pitch.number + 1 ∧ t.pitch.lastTick = s.now ∧ t.pitch.tickInStarted = true) ∧
    (s.pitch.mode = .tickIn → s.pitch.tickInStarted = true → s.pitch.fallback = false →
      (s.pitch.lastTick + usClocks s.periodUs ≤ s.now + usClocks 1 → ∃ t, exec .tickInEdge s = .next t ∧
        t.pitch.number = s.pitch.number + 1 ∧ t.pitch.lastTick = s.now ∧ t.pitch.misses = 0) ∧
      (s.now + usClocks 1 < s.pitch.lastTick + usClocks s.periodUs → ∃ t, exec .tickInEdge s = .next t ∧
        t.onum 0x2001 6 = min (2 ^ 32 - 1) (s.onum 0x2001 6 + 1) ∧ Writes [.objs] s t) ∧
      ∃ t, exec .tickInMiss s = .next t ∧ t.pitch.number = s.pitch.number + 1 ∧
        t.pitch.lastTick = s.pitch.lastTick + usClocks s.periodUs + usClocks 1 ∧ t.pitch.misses = s.pitch.misses + 1 ∧
        t.pitch.fallback = decide (s.pitch.misses + 1 = 8)) ∧
    (s.pitch.mode = .tickIn → s.pitch.tickInStarted = true → s.pitch.fallback = true → s.pitch.goodEdges = 7 →
      (s.pitch.lastTick + usClocks s.periodUs ≤ s.now + usClocks 1 → ∃ t, exec .tickInEdge s = .next t ∧
        t.pitch.fallback = false ∧ t.pitch.misses = 0 ∧ t.pitch.number = s.pitch.number + 1 ∧ t.pitch.lastTick = s.now) ∧
      (s.now + usClocks 1 < s.pitch.lastTick + usClocks s.periodUs → s.now ≤ s.pitch.lastTick + usClocks 1 →
        exec .tickInEdge s = .next { s with pitch := { s.pitch with
          fallback := false, goodEdges := 0, misses := 0, lastEdge := s.now } }))

/-- A tick marker of the master is checked against a follower's timer: more than 20 ns off, the correction is owed and
reported in TICK_OFFSET; else the timer stands. A marker seen before changes nothing. BELAY_ACK between the home of an open
span and its participants. The home keeps each participant's last DONE or NOT_DONE for the tick in progress and none for
another tick; a participant keeps COMMIT and EXTEND until the tick, and an EXTEND counts one more pitch; an overrun's REPLAY
gives the halvings and is kept until the tick as well. A message for another device goes on unchanged. The reading of TICK_OFFSET is the model's (log 42). -/
def Obligations.TickMessages : Prop :=
  (∀ (s : State) (p m src elapsed n : Nat), m < s.sys.deviceCount → src < s.sys.deviceCount → elapsed ≤ 65535 →
    (s.link.seen.contains (0xA0, m, n) = true → exec (.tickMarker p m src elapsed n) s = .next s) ∧
    (s.link.seen.contains (0xA0, m, n) = false → s.pitch.running = true → s.pitch.mode = .follower → s.pitch.master = m →
      let own : Int := if n ≤ s.pitch.number then s.pitch.lastTick else s.pitch.expected
      let diff : Int := 4 * (s.now : Int) - elapsed - (s.port (p % 4)).latency - 4 * own
      ∃ t, exec (.tickMarker p m src elapsed n) s = .next t ∧
        t.pitch = (if 160 < diff.natAbs then { s.pitch with correction := diff } else s.pitch) ∧
        (160 < diff.natAbs → diff.natAbs ≤ 320 → t.oint 0x2001 4 = diff.tdiv 8) ∧
        (diff.natAbs ≤ 160 → Writes [.link, .out] s t))) ∧
  (∀ (s : State) (a : BelayAck), a.slotSource = a.source → a.reserved = 0 → a.source < s.sys.deviceCount →
    a.dest < s.sys.deviceCount → a.home < s.sys.deviceCount →
    (a.dest ≠ s.sys.deviceId → exec (.belayAck a) s = .next (s.send (.belay a))) ∧
    (a.dest = s.sys.deviceId → s.coh.dead.contains a.source = false → ∀ r sp, s.ackSpan a = some (r, sp) →
      (s.isHome r.key = true → a.kind ≤ 1 → exec (.belayAck a) s = .next (if a.tick = s.pitch.number % 2 ^ 32 then
        s.updRoute r.key (fun r => { r with span := r.span.map (fun (sp : Span) => { sp with
          acks := sp.acks.filter (fun x => x.1 != a.source) ++ [(a.source, a.kind)] }) }) else s)) ∧
      (s.isHome r.key = false → sp.held = false →
        (a.kind = 4 → exec (.belayAck a) s = .next (s.updRoute r.key (fun r => { r with
          span := r.span.map (fun (sp : Span) => { sp with verdict := some 4 }) }))) ∧
        (a.kind = 5 → exec (.belayAck a) s = .next (s.updRoute r.key (fun r => { r with
          span := r.span.map (fun (sp : Span) => { sp with ext := sp.ext + 1, verdict := some 5 }) }))) ∧
        (a.kind = 6 → r.h < a.halvings ∨
            (a.tick = s.pitch.number % 2 ^ 32 ∧ a.faultReplays ≤ sp.faultReplays ∧ sp.replaying = false) → exec (.belayAck a) s = .next (s.updRoute r.key (fun r => { r with
          h := a.halvings, span := r.span.map (fun (sp : Span) => { sp with verdict := some 6 }) }))))))

/-- Heartbeats and deaths. A member of the system beats with a rising number, whatever a death notice has stopped; a living peer's heartbeat is noted with its
time and number, and STATE 0 takes the peer out of retreat. A peer whose heartbeats, or whose answers to snoops, stay out is
declared dead by every member; a death notice declares it dead as well, and one that names this device silences it. The
timer runs on as it was: a dead master's place is given away at the next tick. A device due for bivouac declares none dead. -/
def Obligations.HeartbeatsAndDeaths : Prop :=
  ∀ s : State,
    (s.member = true → ∃ t, exec .heartbeatSend s = .next t ∧ t.coh.beats = s.coh.beats + 1 ∧
      Writes [.peers, .link, .out] s t) ∧
    (∀ p o src b, o < s.sys.deviceCount → src < s.sys.deviceCount → o ≠ s.sys.deviceId → s.coh.dead.contains o = false →
      s.link.seen.contains (0xA2, o, b) = false → ∀ st ≤ 1, ∃ t, exec (.heartbeat p o src st b) s = .next t ∧
        t.coh.lastBeat.find o = some s.now ∧ t.coh.seenBeat.find o = some b ∧ t.coh.retreated.contains o = decide (st = 1) ∧
        t.coh.dead = s.coh.dead) ∧
    (∀ d < s.sys.deviceCount, d ≠ s.sys.deviceId → s.coh.dead.contains d = false → s.member = true →
      (s.bivouacDue = false → (∃ t, exec (.heartbeatTimeout d) s = .next t ∧ t.coh.dead = s.coh.dead ++ [d] ∧
          t.pitch = s.pitch) ∧
        (s.coh.open_.any (fun x => x.waiting.any (fun a => agentDev a == d)) = true →
          ∃ t, exec (.snoopTimeout d) s = .next t ∧ t.coh.dead = s.coh.dead ++ [d])) ∧
      (s.bivouacDue = true → exec (.heartbeatTimeout d) s = .next s)) ∧
    ∀ src d, src < s.sys.deviceCount → d < s.sys.deviceCount → s.coh.dead.contains src = false →
      s.coh.dead.contains d = false → s.link.seen.contains (0xCA, src, d) = false →
      (d ≠ s.sys.deviceId → ∃ t, exec (.deathNotice (deathMsg src d)) s = .next t ∧ t.coh.dead = s.coh.dead ++ [d]) ∧
      (d = s.sys.deviceId → s.sys.state ≠ .configuration →
        ∃ t, exec (.deathNotice (deathMsg src d)) s = .next t ∧ t.coh.silent = true)

/-- What happens to open spans and to routes between ticks. A ridge at work that fails is retired, the standing spare takes
its logical number, and every open span replays; a strand at work likewise with its ridge's spare strand. A replayed span
starts again at its first source rope. The merge of a pitch moves the route's closed entries to its staging, once, when
their STAGING pages and journal records can be had. A publication that has its pages is done when it says so; a paused one,
or one that lacks pages, tries again. A route suspended for the limit ends with
its final record due. That a span waiting for its restart takes no further replay is the model's reading (log 49). -/
def Obligations.SpansAndReplays : Prop :=
  ∀ s : State,
    (∀ p x q, s.sys.retired.contains p = false → s.logicalRidge p = some q → s.sys.spareRidge = some x → x ≠ p →
      ∃ t, exec (.resourceFailure (.ridge p)) s = .next t ∧ t.sys.ridgeMap = s.sys.ridgeMap.set q x ∧
        t.sys.spareRidge = none ∧ t.sys.retired.contains p = true ∧
        ∀ k r sp, t.route? k = some r → r.span = some sp → sp.replaying = true) ∧
    (∀ p k x j, p ≤ 16 → k ≤ 8 → s.sys.retired.contains p = false → (s.logicalRidge p).isSome = true →
      s.flash.strandMarks.contains (p, k) = false → (s.sys.strandMap.getD p []).findIdx? (fun y => y == k) = some j →
      (s.flash.healthyStrands p).find? (fun y => !(s.sys.strandMap.getD p []).contains y) = some x →
      ∃ t, exec (.resourceFailure (.strand p k)) s = .next t ∧ t.flash.strandMarks = s.flash.strandMarks ++ [(p, k)] ∧
        t.sys.strandMap = s.sys.strandMap.set p ((s.sys.strandMap.getD p []).set j x) ∧
        ∀ k r sp, t.route? k = some r → r.span = some sp → sp.replaying = true) ∧
    (∀ k r sp, s.route? k = some r → r.span = some sp →
      (sp.replaying = true → r.conditions = [] → ∃ t r' sp', exec (.spanRestart k) s = .next t ∧ t.route? k = some r' ∧
        r'.span = some sp' ∧ sp'.replaying = false ∧ sp'.openPitch = sp.openPitch ∧ sp'.q = sp.q ∧
        sp'.sources = s.spanSources r sp.q ∧ sp'.verdict = none ∧ sp'.ext = sp.ext) ∧
      ∀ n, s.isHome k = true → sp.replaying = false → sp.openPitch ≤ n → sp.merged.contains n = false →
        sp.mergedBefore n = true → s.mergeReady r n = true →
        let es := sortBy entryLt (s.closedEntries n (fun e => e.key == k))
        es = [] ∨ (∃ o s1 s2, s.stagingRoom k es.length = .ok o s1 ∧ s1.storeChains o r.work.staged es = some s2) →
        ∃ t r' sp', exec (.summitMerge k n) s = .next t ∧ t.route? k = some r' ∧ r'.span = some sp' ∧
          sp'.merged = sp.merged ++ [n] ∧ t.closedEntries n (fun e => e.key == k) = [] ∧
          r'.work.staging.map (fun x => (x.seq, x.obj)) = r.work.staging.map (fun x => (x.seq, x.obj)) ++
            es.flatMap (fun e => e.chain) ∧ r'.work.staged = r.work.staged + es.length) ∧
    (∀ k r p, s.route? k = some r → r.publish = some p →
      (p.paused = none → p.lacks = false → p.doneAt = none → exec (.publicationDone k) s = .next (s.updRoute k (fun r => { r with
        publish := some { p with doneAt := some s.now } }))) ∧
      (p.paused.isSome = true ∨ p.lacks = true → r.finalDue = false → ∃ t r' p', exec (.publicationResume k) s = .next t ∧ t.route? k = some r' ∧
        r'.publish = some p' ∧ p'.bytes = p.bytes ∧ p'.check = p.check ∧ p'.doneAt = p.doneAt ∧
        (p'.paused = none ∨ p'.paused = p.paused ∨ p.paused = none ∧ p'.paused = some s.pitch.number))) ∧
    ∀ k r x, s.route? k = some r → r.suspended = some x → s.isHome k = true → r.finalDue = false →
      (x.tick + s.onum 0x4000 6 ≤ s.pitch.number → ∃ t, exec (.suspendLimitExpiry k) s = .next t ∧
        ∀ r', t.route? k = some r' → r'.finalDue = true) ∧
      (s.pitch.number < x.tick + s.onum 0x4000 6 → exec (.suspendLimitExpiry k) s = .next s)

/-- Tasks. The task dispatched to a unit with a free context is one of the highest priority among those that may run there;
once its work, with the lines it touches, is done it holds the context, with its slot given up. While a rail is at its maximum nothing is dispatched and
the delay is counted. A task that is done leaves its context when its outputs have room. The seal of a build is such a task too: its command runs
it where it is the next of its ridge, from its dispatch to its end, and does nothing before. -/
def Obligations.Tasks : Prop :=
  ∀ s : State, s.sys.state = .operational →
    (∀ ridge u ctx x s', s.freeCtx ridge u = some ctx → s.pickTask ridge u = some (x, s') →
      (∀ y ∈ s.sched.ready, s.mayRun ridge u y = true → s.taskPrio y ≤ s.taskPrio x) ∧ x ∈ s.sched.ready ∧
      s.mayRun ridge u x = true ∧
      (s.sched.railsHeld ≠ [] → exec (.taskDispatch ridge u) s = .next (s.oinc 0x7000 7 1)) ∧
      (s.sched.railsHeld = [] → ∀ r ts s2, s.route? x.key = some r →
        (s'.performTask r x ctx).traffic s' r x = .ok ts s2 →
        ∃ t, exec (.taskDispatch ridge u) s = .next t ∧ t.sched.running = s2.sched.running ++
          [{ ridge := x.ridge, unit := u, ctx := ctx, task := x, outputs := ts }])) ∧
    (∀ ridge u ctx r, s.running? ridge u ctx = some r → s.roomFor r.outputs = true →
      (u = .strand → (s.strand ridge ctx).task = none) →
      ∃ t, exec (.taskDone ridge u ctx) s = .next t ∧ t.running? ridge u ctx = none ∧
        ∀ ridge' u' ctx', (ridge', u', ctx') ≠ (ridge, u, ctx) → t.running? ridge' u' ctx' = s.running? ridge' u' ctx') ∧
    ∀ k stage ridge,
      let x : Task := { key := k, stage := stage, ridge := ridge, input := .sealBuild, seq := 0 }
      (s.nextIs ridge .jnu x = none → exec (.joinSeal k stage ridge) s = .next s) ∧
      ∀ c r s' ts s2, s.nextIs ridge .jnu x = some c → s.sched.railsHeld = [] → s.route? k = some r →
        s.pickTask ridge .jnu = some (x, s') → (s'.performTask r x c).traffic s' r x = .ok ts s2 →
        ∃ t, exec (.joinSeal k stage ridge) s = .next t ∧
          ((s.dispatch ridge .jnu).roomFor ts = true → t.running? ridge .jnu c = none) ∧
          ∀ ridge' u' ctx', (ridge', u', ctx') ≠ (ridge, .jnu, c) → t.running? ridge' u' ctx' = s2.running? ridge' u' ctx'

/-- The Depot's engines. The zeroing engine gives the oldest page back with no line of it marked, and a peer's request that waited for it is answered
unless it must wait on; a migration's copy is noted; one that four ticks
could not switch is abandoned, counted, and its destination goes to the zeroing engine. A request stalled on a full journal
goes on when space frees, and stays stalled until then. -/
def Obligations.DepotEngines : Prop :=
  ∀ s : State,
    (∃ t, exec .zeroPageCleared s = .next t ∧ t.depot.zeroQueue = s.depot.zeroQueue.drop 1 ∧
      (∀ z ∈ s.depot.zeroQueue.head?, ∀ q ∈ t.dram.poisoned, q ∈ s.dram.poisoned ∧
        let base := s.sys.deviceId * 2 ^ 44 + (if z.tier = 0 then 2 ^ 43 else 0) + z.addr
        (q.1 < base ∨ base + z.size ≤ q.1)) ∧
      (s.depot.pageAsks = [] → Writes [.depot, .dram] s t) ∧ ∀ m, s.depot.pageAsks = [m] →
        let z : State := { s.zeroDone with depot := { s.zeroDone.depot with pageAsks := [] } }
        (z.mustClear m = true → t.depot.pageAsks = [m] ∧ Writes [.depot, .dram] s t) ∧
        (z.mustClear m = false → t = if m.op = svPageAlloc then z.answerAlloc m else z.answerDraw m)) ∧
    (∀ page, ∃ t, exec (.migrationCopyDone page) s = .next t ∧ Writes [.depot] s t ∧
      ∀ m ∈ t.depot.migrations, ∃ m' ∈ s.depot.migrations, m.page = m'.page ∧ m.copied = (m'.copied || m'.page == page)) ∧
    (∀ page m, s.depot.migrations.find? (fun m => m.page == page) = some m → 4 ≤ m.tries →
      ∃ t, exec (.migrationAbandon page) s = .next t ∧ (∀ x ∈ t.depot.migrations, x.page ≠ page) ∧
        t.depot.zeroQueue.map (fun z => (z.tier, z.addr)) = s.depot.zeroQueue.map (fun z => (z.tier, z.addr)) ++
          [(m.toTier, m.toAddr)] ∧
        t.onum 0x4002 3 = min (2 ^ 64 - 1) (s.onum 0x4002 3 + 1) ∧ Writes [.objs, .depot] s t) ∧
    ∀ m x, s.depot.stalled = [m] → s.strands = [] →
      s.coh.open_.find? (fun t => t.line == m.line && t.req == m && t.waiting.isEmpty) = some x →
      (s.needsRecord m.line = true → s.journalRoom ≤ s.depot.journal.length → ∃ t, exec .journalStallRelease s = .next t ∧
        t.depot.stalled = [m]) ∧
      (s.coh.queued = [] → s.dram.raw = [] → s.depot.journal.length < s.journalRoom → ∃ t, exec .journalStallRelease s = .next t ∧
        t.depot.stalled = [])

/-- Doorbells and admin registers of a tenant's function. A tail doorbell that the ring can hold is the new doorbell value,
any other is dropped and counted; a head doorbell makes room, and a record that waited is posted at the tail slot with the
ring's phase. A vector is signalled when its time is up, or pending while it is masked. ENABLE makes the admin queues or sets
ADMIN_ERROR; clearing it removes them. Fetching. The entry at the head of a work queue, its units all behind the doorbell, is
taken when its turn comes: the head moves past it, and it waits for its action. An entry whose units stay away halts its
queue, which is counted. -/
def Obligations.QueueWork : Prop :=
  (∀ (s : State) (t q v : Nat), s.tenantOk t = true → s.resetting t = false →
    (∀ w, s.wq? t q = some w → w.halted = false →
      let ok := (v % 2 ^ 32 + 2 ^ 32 - w.head) % 2 ^ 32 ≤ 2 ^ w.logSize ∧ (v % 2 ^ 32 + 2 ^ 32 - w.db) % 2 ^ 32 ≤ 2 ^ w.logSize
      (ok → exec (.wqTailDoorbell t q v) s = .next (s.putWq t q { w with db := v % 2 ^ 32 })) ∧
      (¬ ok → ∃ u, exec (.wqTailDoorbell t q v) s = .next u ∧
        u.onum (tobj 0x9000 t) 9 = min (2 ^ 64 - 1) (s.onum (tobj 0x9000 t) 9 + 1) ∧ Writes [.objs] s u)) ∧
    (∀ c, s.cq? t q = some c → (v % 2 ^ 32 + 2 ^ 32 - c.head) % 2 ^ 32 ≤ (c.tail + 2 ^ 32 - c.head) % 2 ^ 32 →
      (c.due = [] → exec (.cqHeadDoorbell t q v) s = .next (s.putCq t q { c with head := v % 2 ^ 32 })) ∧
      ∀ r, c.due = [r] → r.closes = none → s.mayPost = true → (c.tail + 2 ^ 32 - v % 2 ^ 32) % 2 ^ 32 ≠ 2 ^ c.logSize →
        let slot := c.ring + 64 * (c.tail % 2 ^ c.logSize)
        slot + 64 ≤ 2 ^ 64 → c.index + 8 ≤ 2 ^ 64 → c.index + 8 ≤ slot ∨ slot + 64 ≤ c.index →
        ∃ u c', exec (.cqHeadDoorbell t q v) s = .next u ∧ u.cq? t q = some c' ∧ c'.due = [] ∧
          c'.tail = (c.tail + 1) % 2 ^ 32 ∧ c'.head = v % 2 ^ 32 ∧
          ∀ i < 64, some (u.host.mem.read (hostKey t slot + i)) =
            (r.bytes ((c.tail % 2 ^ 32 / 2 ^ c.logSize + 1) % 2) s.timeNs)[i]?) ∧
    (∀ c, s.cq? t q = some c → c.unsignalled ≠ 0 → ∃ u c', exec (.msixCoalesceTimeout t q) s = .next u ∧
      u.cq? t q = some c' ∧ c'.unsignalled = 0 ∧
      (if ((s.fn t).msixTable.read (16 * c.vector + 12)).getLsbD 0 then u.out = s.out ∧ c.vector ∈ (u.fn t).msixPending
       else u.out = s.out ++ [.msix t c.vector])) ∧
    (∀ f, s.fn t = f → f.enable = false → (f.adminOk = false → ∃ u, exec (.aqEnable t) s = .next u ∧
        (u.fn t).adminError = true ∧ (u.fn t).enable = false) ∧
      (f.adminOk = true → ∃ u, exec (.aqEnable t) s = .next u ∧ (u.fn t).enable = true ∧
        u.wq? t 0 = some (WQ.fresh f.awqBase (fld f.aqSizes 15 8) f.awqIndex 0 s.host.nextQueueNo) ∧
        u.cq? t 0 = some (CQ.fresh f.acqBase (fld f.aqSizes 7 0) f.acqIndex 0 0 0 s.host.nextQueueNo))) ∧
    ((s.fn t).enable = true → queuesOf s.host.wqs t ≤ 1 → queuesOf s.host.cqs t ≤ 1 → ∃ u, exec (.aqDisable t) s = .next u ∧ (u.fn t).enable = false ∧
        u.wq? t 0 = none ∧ u.cq? t 0 = none)) ∧
  (∀ (s : State) (t q : Nat) (w : WQ), t < 32 → q < 256 → s.resetting t = false → w.halted = false → w.closing = false →
    (s.host.wqs = [(qkey t q, w)] → w.stallSince = none → w.avail ≠ 0 → s.sys.phase = .ready →
      s.sys.state = .operational → (q ≠ 0 → s.ioPaused t = false) → ∀ b1 b,
      s.readUnits t w w.head 1 = .ok b1 →
      let n := entLength { tenant := t, qid := q, words := wordsOf b1 }
      let e : Entry := { tenant := t, qid := q, words := wordsOf b }
      1 ≤ n → n ≤ 64 → n ≤ w.avail → s.readUnits t w w.head n = .ok b → entryCheck e = none →
      ∃ u w', exec .fetchEntry s = .next u ∧ u.host.fetched = s.host.fetched ++ [e] ∧ u.wq? t q = some w' ∧
        w'.head = (w.head + n) % 2 ^ 32 ∧ w'.db = w.db) ∧
    (s.wq? t q = some w → w.stallSince.isSome = true → w.avail < w.need →
      ∃ u w', exec (.wqStallTimeout t q) s = .next u ∧ u.wq? t q = some w' ∧ w'.halted = true ∧ w'.head = w.head ∧
        u.onum (tobj 0x9000 t) 8 = min (2 ^ 32 - 1) (s.onum (tobj 0x9000 t) 8 + 1)))

/-- The admin commands on an entry that is the next of queue 0: what each changes, and its completion OK with its result.
When DELETE_WQ completes and the bytes of log pages are the model's choice (logs 44 and 45). -/
def Obligations.AdminCommands : Prop :=
  ∀ (s : State) (e : Entry), e.qid = 0 → s.entryNext e = true →
    let t := e.tenant
    let q := newQid e
    (entOpcode e = 0x10 → newQueueFaults e (s.wq? t q).isSome = [] → (s.cq? t (fld (entW e 3) 7 0)).isSome = true →
      queuesOf s.host.wqs t < s.onum (tobj 0x9000 t) 3 → s.host.wqs.length < 1024 →
      exec (.createWq e) s = .next (({ s with host := { s.host with
        wqs := s.host.wqs.put (qkey t q)
          (WQ.fresh (entW e 1) (fld (entW e 2) 7 0) (entW e 4) (fld (entW e 3) 7 0) s.host.nextQueueNo)
        nextQueueNo := s.host.nextQueueNo + 1 } } : State).adminDone e stOk 0)) ∧
    (entOpcode e = 0x12 → newQueueFaults e (s.cq? t q).isSome = [] → queuesOf s.host.cqs t < s.onum (tobj 0x9000 t) 3 →
      s.host.cqs.length < 1024 →
      exec (.createCq e) s = .next (({ s with host := { s.host with
        cqs := s.host.cqs.put (qkey t q) (CQ.fresh (entW e 1) (fld (entW e 2) 7 0) (entW e 4) (fld (entW e 3) 5 0)
          (fld (entW e 3) 31 16) (fld (entW e 3) 47 32) s.host.nextQueueNo)
        nextQueueNo := s.host.nextQueueNo + 1 } } : State).adminDone e stOk 0)) ∧
    (entOpcode e = 0x11 → 1 ≤ q → q ≤ 255 → ∀ w, s.wq? t q = some w →
      exec (.deleteWq e) s = .next (if s.host.fetched.any (fun x => x.tenant == t && x.qid == q)
        then s.putWq t q { w with closing := true }
        else ({ s with host := { s.host with wqs := s.host.wqs.del (qkey t q) } } : State).adminDone e stOk 0)) ∧
    (entOpcode e = 0x13 → 1 ≤ q → q ≤ 255 → ∀ c, s.cq? t q = some c → c.due = [] →
      (∀ p ∈ s.host.wqs, p.1 / 256 = t → p.2.cq ≠ q) →
      exec (.deleteCq e) s = .next (({ s with host := { s.host with
        cqs := s.host.cqs.del (qkey t q) } } : State).adminDone e stOk 0)) ∧
    (entOpcode e = 0x14 →
      (fld (entW e 4) 63 56 = 1 → entW e 5 % 2 ^ 21 = 0 → entW e 6 = 0 → entW e 5 ≤ s.onum (tobj 0x9020 t) 1 → exec (.setQuota e) s =
        .next ((s.oset (tobj 0x9020 t) 2 (entW e 5)).adminDone e stOk 0)) ∧
      (fld (entW e 4) 63 56 = 2 → ∀ u, s.grantSpill t (entW e 5) (entW e 6) = .ok u →
        u.depot.spills = s.depot.spills ++ [{ tenant := t, addr := entW e 5, len := entW e 6 }] ∧
        exec (.grantSpill e) s = .next (u.adminDone e stOk 0)) ∧
      (fld (entW e 4) 63 56 = 3 → ∀ u, s.revokeSpill t (entW e 5) (entW e 6) = .ok u →
        (∀ r ∈ u.depot.spills, r ∈ s.depot.spills) ∧ u.depot.spills.length < s.depot.spills.length ∧
        exec (.revokeSpill e) s = .next (u.adminDone e stOk 0)) ∧
      (fld (entW e 4) 63 56 = 4 → ∀ h u, s.openOutput t (entW e 5) (entW e 6) = .ok (h, u) →
        (∃ o d, u.dobj? o = some d ∧ d.cls = clsOutput ∧ d.pages = [] ∧ h = mkHandle t clsOutput (o % 65536) 0) ∧
        exec (.openOutput e) s = .next (u.adminDone e stOk h)) ∧
      (fld (entW e 4) 63 56 = 5 → entW e 6 = 0 → ∀ o d, s.handleObj (entW e 5) t = some (o, d) → d.cls = clsOutput →
        hOff (entW e 5) = 0 → s.handleOpen (entW e 5) = false →
        exec (.closeOutput e) s = .next ((s.freeObj o).adminDone e stOk 0))) ∧
    (entOpcode e = 0x15 →
      (fld (entW e 1) 63 56 = 1 → 1 ≤ entW e 2 → entW e 2 ≤ 255 → entW e 2 ≤ s.onum (tobj 0x9030 t) 2 →
        s.pitch.running = true → exec (.setWeight e) s = .next (({ s with sched := { s.sched with
          weightAsked := s.sched.weightAsked.put t (entW e 2) } } : State).adminDone e stOk 0)) ∧
      (fld (entW e 1) 63 56 = 2 → hostRefOk (entW e 2) 4096 = true → 7 ≤ fld (entW e 3) 7 0 → fld (entW e 3) 7 0 ≤ 20 →
        s.pitch.running = true → exec (.logStart e) s = .next (({ s with host := { s.host with
          logAsked := s.host.logAsked.put t { ring := refAddr (entW e 2), logRecords := fld (entW e 3) 7 0, count := 0
                                              active := true } } } : State).adminDone e stOk 0)) ∧
      (fld (entW e 1) 63 56 = 3 → exec (.logStop e) s = .next (({ s with host := { s.host with
          logs := s.host.logs.del t, logAsked := s.host.logAsked.del t } } : State).adminDone e stOk 0))) ∧
    (entOpcode e = 0x16 → logBufferOk e = true → s.logRoom e = true →
      (fld (entW e 1) 7 0 = 1 → 64 * ((s.err.views.find t).getD []).length ≤ entW e 3 →
        let u := s.givePage e (((s.err.views.find t).getD []).flatMap ErrRec.bytes)
        exec (.getLogErrorRecords e) s = .next { u with err := { u.err with views := u.err.views.del t } }) ∧
      (fld (entW e 1) 7 0 = 2 → ∃ n b, exec (.getLogCounters e) s =
        .next (({ s with freeCount := n } : State).givePage e b)) ∧
      (fld (entW e 1) 7 0 = 3 → ∃ n b, exec (.getLogOpenRoutes e) s =
        .next (({ s with freeCount := n } : State).givePage e b))) ∧
    (entOpcode e = 0x17 →
      let k : RouteKey := { tenant := t, id := fld (entW e 1) 31 0, home := s.sys.deviceId }
      let done (u : State) (st : Nat) : State :=
        ((u.dropFetched e).finishEntry e { entryRecord e st 0 with routeId := fld (entW e 1) 31 0 }).settleAdmin t
          u.host.fetched.length
      (s.route? k = none → exec (.abortRoute e) s = .next (done s stRouteUnknown)) ∧
      ∀ r, s.route? k = some r → r.finalDue = false → exec (.abortRoute e) s = .next (done (s.updRoute k (fun r => { r with
        aborts := r.aborts ++ [(stAbortedByHost, if s.pitch.decisionDone then s.pitch.number + 1 else s.pitch.number)] })) stOk)) ∧
    (entOpcode e = 0x18 → s.sys.state ≠ .retreat → hostRefOk (entW e 1) 64 = true → 1 ≤ fld (entW e 2) 15 0 →
      fld (entW e 2) 15 0 ≤ 4096 → ∀ l, s.cairnCommands t (refAddr (entW e 1)) (fld (entW e 2) 15 0) = (l, none) →
      let i := (s.cairn.listAt.find t).getD 0
      let v : State := { s with cairn := { s.cairn with listAt := s.cairn.listAt.del t } }
      (∀ u, v.cairnList t i (l.drop i) = .done u →
        exec (.loadCairn e) s = .next ((u.settleAsk t 0 (fun x => x == clsShadow)).adminDone e stOk (fld (entW e 2) 15 0))) ∧
      ∀ u st j, v.cairnList t i (l.drop i) = .fail u st j →
        exec (.loadCairn e) s = .next ((u.settleAsk t 0 (fun x => x == clsShadow)).adminDone e st j))

/-- A route entry that passes its checks opens its route, with the admitted copy of its structures; one that does not
completes with the status that goes first. In RETREAT every route completes with RETREAT. -/
def Obligations.RouteSubmission : Prop :=
  ∀ (s : State) (e : Entry), s.entryNext e = true → entOpcode e = opSubmit →
    (s.sys.state = .operational → (entInline e = true ∨ (entW e 1 ≠ 0 ∧ refOk (entW e 1) 64 false = true)) → ∀ a,
      s.admitCheck e.tenant (s.descSource e) = .ok a →
      (a.statuses = [] → ∃ u w, exec (.submitRoute e) s = .next u ∧ u.host.fetched = s.host.fetched.erase e ∧
        (∀ x ∈ w, (s.tableOf e.tenant x.1).map (fun t => t.width) = some x.2) ∧ u.routes = s.routes ++ [{ Route.fresh { tenant := e.tenant, id := a.desc.routeId, home := s.sys.deviceId } a.desc
          a.copy s.sched.nextOrder s.pitch.number s.timeNs with
            qid := e.qid, cid := entCid e, cqid := (s.entryCq e).getD 0, widths := w }]) ∧
      (a.statuses ≠ [] → exec (.submitRoute e) s =
        .next ((s.dropFetched e).refuseRoute e (pickStatus a.statuses) a.desc))) ∧
    (s.sys.state = .retreat → ∀ b, s.descSource e 128 = .ok b → exec (.submitRoute e) s =
      .next ((s.dropFetched e).refuseRoute e stRetreat (emptyDesc (headerOf b) e.tenant)))

/-- Engine entries that pass check 5 join their channel in admission order, and an idle channel runs; DIGEST_OPEN takes a
context as well. STOP stops a channel that runs nothing and waits for the entry of one that does; RESUME clears a halt and
goes on; FLUSH empties a stopped channel. An entry that fails check 5 completes at once. The number of a context and what a
bad MODE does are the model's choice (log 46). -/
def Obligations.EngineEntries : Prop :=
  ∀ (s : State) (e : Entry), s.entryNext e = true →
    (∀ p ∈ ([(.dmaCopy e, opCopy), (.compress e, opCompress), (.decompress e, opDecompress), (.digestOpen e, opDigestOpen),
        (.digestFeed e, opDigestFeed), (.digestRead e, opDigestRead)] : List (Instr × Nat)), entOpcode e = p.2 →
      (s.engineCheck e = [] → ∃ u x, exec p.1 s = .next u ∧ x.entry = e ∧ x.order = s.eng.nextOrder ∧
        (u.chan (entChannel e)).waiting = (s.chan (entChannel e)).waiting ++ [x] ∧
        (u.chan (entChannel e)).state = (if (s.chan (entChannel e)).state = .idle then .running
          else (s.chan (entChannel e)).state) ∧ u.host.fetched = s.host.fetched.erase e ∧
        (p.2 = opDigestOpen → ∃ n c, s.lowestCtx = some n ∧ u.eng.contexts.find n = some c ∧ c.tenant = e.tenant ∧
          c.msg = entMsg e ∧ c.length = entW e 3 ∧ c.taken = [])) ∧
      (s.engineCheck e ≠ [] → exec p.1 s =
        .next ((s.dropFetched e).finishEntry e (entryRecord e (pickStatus (s.engineCheck e)) (s.idleValue e))))) ∧
    (entOpcode e = opDmaControl → s.engineCheck e = [] →
      let c := s.chan (entChannel e)
      (entMode e = 1 →
        (c.state = .running → c.current.isSome = true → ∃ u x, exec (.dmaStop e) s = .next u ∧ x.entry = e ∧
          u.chan (entChannel e) = { c with stops := c.stops ++ [x] }) ∧
        ((c.state = .running ∧ c.current = none) ∨ c.state = .idle → ∃ u, exec (.dmaStop e) s = .next u ∧
          u.chan (entChannel e) = { c with state := .stopped })) ∧
      (entMode e = 2 → c.state = .halted → ∃ u, exec (.dmaResume e) s = .next u ∧ (u.chan (entChannel e)).fault = none ∧
        (u.chan (entChannel e)).waiting = c.waiting ∧
        (u.chan (entChannel e)).state = if c.waiting.isEmpty then .idle else .running) ∧
      (entMode e = 3 → c.state = .stopped → ∃ u, exec (.dmaFlush e) s = .next u ∧ u.chan (entChannel e) = Chan.idle))

/-- The work of channels. A running channel's next entry becomes its current one: a copy takes its source bytes, a read of a
digest that is ready, with no feed of its message running, takes the digest. A finished entry writes its bytes and completes; an access that fails halts the
channel, which keeps the fault. Waiting compression jobs are served by priority on the lowest free engine, and a ready digest
context takes what completes its block. The record of a halt is the model's choice (log 46). -/
def Obligations.ChannelWork : Prop :=
  ∀ (s : State) (ch : Nat),
    (∀ x l, (s.chan ch).state = .running → (s.chan ch).current = none → (s.chan ch).waiting = x :: l →
      (entOpcode x.entry = opCopy → s.dram.raw = [] → ∀ src dst, s.entryLists x.entry true = .ok src dst →
        src.flatMap (s.elNeed x.entry.tenant) = [] → s.listReadFault x.entry.tenant 0 src = none →
        s.listWriteFault x.entry.tenant 0 dst = none → ∃ u, exec (.channelEntryStart ch) s = .next u ∧
          u.chan ch = { s.chan ch with
            current := some { x with src := src, dst := dst, data := s.listBytes x.entry.tenant src }, waiting := l }) ∧
      (entOpcode x.entry = opDigestRead → ∀ n c, s.digestCtx? x.entry.tenant (entMsg x.entry) = some (n, c) →
        s.listWriteFault x.entry.tenant 0 [((refHost (entW x.entry 1)).toNat, refAddr (entW x.entry 1), 64)] = none →
        s.feedBusy x.entry = false → c.ready = true → c.discarded = 0 → ∃ u y, exec (.channelEntryStart ch) s = .next u ∧
          (u.chan ch).current = some y ∧ y.data = fitTo 64 (digestOf c.alg c.key c.taken) ∧
          y.result = some { status := stOk, value := c.taken.length, aux := 0 } ∧ (u.chan ch).waiting = l)) ∧
    (∀ x, (s.chan ch).current = some x → x.written = false → entFence x.entry = false →
      (∀ r, x.result = some r → exec (.engineEntryComplete ch) s =
        .next ((s.scatter ch x.entry.tenant x.dst x.data).entryEnds ch x r)) ∧
      (x.result = none → entOpcode x.entry = opCopy → ∀ b u, s.copyData x = (b, u) → exec (.engineEntryComplete ch) s =
        .next (((u.scatter ch x.entry.tenant x.dst b).oinc 0x3090 1 b.length).entryEnds ch x
          { status := stOk, value := b.length, aux := 0 }))) ∧
    (∀ x f, (s.chan ch).current = some x → ∃ u, exec (.channelHalt ch f) s = .next u ∧ (u.chan ch).state = .halted ∧
      (u.chan ch).fault = some f ∧ (u.chan ch).current = none ∧ (u.chan ch).waiting = (s.chan ch).waiting) ∧
    (∀ n x l, (List.range 4).find? (fun n => (s.eng.engines.find n).isNone) = some n → s.waitingJobs = (ch, x) :: l →
      (∀ y ∈ l, y.2.priority ≤ x.priority) ∧ ∃ u, exec .compressionJobStart s = .next u ∧
        u.eng.engines.find n = some ch ∧ Writes [.eng] s u) ∧
    (∀ n x c, s.readyContexts = [(n, ch, x)] → s.eng.contexts.find n = some c → ∃ u c', exec .digestBlock s = .next u ∧
      u.eng.lastContext = n ∧ u.eng.contexts.find n = some c' ∧ c'.taken = c.taken ++ x.data.take c.blockRest ∧
      (u.chan ch).current = some { x with data := x.data.drop c.blockRest })

/-- Resets of tenants. A reset asks every route of the tenant that is still open to end with TENANT_RESET, at the coming tick
or, once its decision has passed, at the one after; a function-level reset clears the function's mailbox and digest contexts
as well. It is complete once its work is done: the function registers hold their reset values, all of them after a function-level reset,
and after a management reset those of the admin queues, which stay. -/
def Obligations.TenantResets : Prop :=
  ∀ (s : State) (t : Nat),
    (s.tenantOk t = true → s.resetting t = false → s.pitch.running = true →
      ∀ p ∈ ([(.functionLevelReset t, .function), (.managementReset t, .management)] : List (Instr × ResetKind)),
      ∃ u, exec p.1 s = .next u ∧ (u.fn t).resetting = some p.2 ∧ (u.fn t).resetDone = false ∧
        (∀ c ∈ u.eng.contexts, c.2.tenant ≠ t) ∧
        (p.2 = .function → (u.fn t).mbRequest = [] ∧ (u.fn t).mbResponse = [] ∧ (u.fn t).mbBusy = false) ∧
        ∀ r ∈ s.routes, r.key.tenant = t → s.isHome r.key = true → r.finalDue = false → ∃ r' ∈ u.routes, r'.key = r.key ∧
          (stTenantReset, if s.pitch.decisionDone then s.pitch.number + 1 else s.pitch.number) ∈ r'.aborts) ∧
    (∀ k, (s.fn t).resetting = some k → ((s.fn t).resetDone = false → exec (.tenantResetComplete t) s = .next s) ∧
      ((s.fn t).resetDone = true → ∃ u, exec (.tenantResetComplete t) s = .next u ∧ (u.fn t).resetting = none ∧
        (k = .function → u.fn t = FnSt.reset) ∧
        (k = .management → u.fn t = { s.fn t with
          resetting := none, resetDone := false, adminError := false
          awqBase := 0, acqBase := 0, aqSizes := 0, awqIndex := 0, acqIndex := 0 }) ∧ Writes [.host, .err] s u))

/-- The host ports. PERST_N takes a port's links down and resets every function of the port; its release trains them again. A
malformed TLP is reported and counted. Bytes that a device read returned are what the device reads there; a read that failed
is counted. -/
def Obligations.HostPorts : Prop :=
  ∀ (s : State) (h : Nat), h < 2 →
    (∃ u, exec (.hostPortReset h) s = .next u ∧ u.perst h = false ∧ (∀ l ∈ u.host.linksUp, l / 4 ≠ h) ∧
      ∀ t, s.tenantOk t = true → s.tenantPort t = h → u.resetting t = true) ∧
    (s.perst h = false → s.host.perstEarly.contains h = false → s.sys.rstN = true → s.sys.phase = .ready →
      ∃ u, exec (.perstNRelease h) s = .next u ∧ u.perst h = true ∧ (∀ l ∈ s.portLinks h, l ∈ u.host.linksUp) ∧
        u.out = s.out ++ [.configServed h]) ∧
    (∀ k < 4, ∃ u, exec (.malformedTlp h k) s = .next u ∧ .aer h k ∈ u.out ∧
      u.onum (pobj 0x6080 h) 5 = min (2 ^ 64 - 1) (s.onum (pobj 0x6080 h) 5 + 1) ∧ u.err.nextSeq = (s.err.nextSeq + 1) % 65536) ∧
    ∀ t a, s.tenantOk t = true → s.fnSilent t = false →
      (∀ b, a % 2 ^ 64 + b.length ≤ 2 ^ 64 → ∃ u, exec (.hostReadCompletion t a (.data b)) s = .next u ∧
        (∀ i < b.length, some (u.host.mem.read (hostKey t a + i)) = b[i]?) ∧
        (∀ x, x < hostKey t a ∨ hostKey t a + b.length ≤ x → u.host.mem.read x = s.host.mem.read x) ∧
        Writes [.hostMem, .host] s u) ∧
      ∀ n, ∀ p ∈ ([(.unsupported n, stBusError), (.aborted n, stBusError), (.timeout n, stBusError),
          (.poisoned n, stPoisonRead)] : List (HostReadResult × Nat)),
        ∃ u, exec (.hostReadCompletion t a p.1) s = .next u ∧ u.host.errors = s.host.errors ++ [(t, a, n, p.2)] ∧
          u.host.mem = s.host.mem

/-- CXL.mem at HP0, at an offset in the window of the HDM decoder. To memory that is active and backed, a read is a request to the line's home, a write one with its bytes;
to other memory a read answers 64 zero bytes marked poisoned and a write completes with nothing written. MemSpecRd is
dropped; any other request answers poisoned data or a completion. -/
def Obligations.CxlMemory : Prop :=
  ∀ (s : State) (a mask : Nat) (d : List Byte),
    let o := s.hdmOffset a
    exec (.memspecrd a) s = .next s ∧
    (s.cxlOffered = true →
      (s.memActive = true → o < 2 ^ 47 → s.imgBacked o = true →
        (∃ u r, exec (.cxlMemRead a) s = .next u ∧ r ∈ u.coh.requests ∧ r.purpose = .cxl a ∧ r.msg.op = opRdNc ∧
          r.msg.line = imgLine o) ∧
        (∃ u r, exec (.cxlMemWrite a d) s = .next u ∧ r ∈ u.coh.requests ∧ r.purpose = .cxl a ∧ r.msg.op = opWrNc ∧
          r.msg.line = imgLine o ∧ r.msg.mask = fullMask ∧ r.msg.data = fitTo 64 d) ∧
        ∃ u r, exec (.cxlMemPartialWrite a mask d) s = .next u ∧ r ∈ u.coh.requests ∧ r.purpose = .cxl a ∧
          r.msg.op = opWrNc ∧ r.msg.line = imgLine o ∧ r.msg.mask = mask % 2 ^ 64 ∧ r.msg.data = fitTo 64 d) ∧
      (s.memActive = false ∨ 2 ^ 47 ≤ o ∨ s.imgBacked o = false →
        (∃ u, exec (.cxlMemRead a) s = .next u ∧ u.out.getLast? = some (.cxlData a (zeros 64) true) ∧ u.mem = s.mem) ∧
        (∃ u, exec (.cxlMemWrite a d) s = .next u ∧ u.out.getLast? = some (.cxlDone a) ∧ u.mem = s.mem) ∧
        ∃ u, exec (.cxlMemPartialWrite a mask d) s = .next u ∧ u.out.getLast? = some (.cxlDone a) ∧ u.mem = s.mem) ∧
      (∃ u, exec (.cxlOtherM2s true) s = .next u ∧ .cxlData 0 (zeros 64) true ∈ u.out ∧ u.mem = s.mem) ∧
      ∃ u, exec (.cxlOtherM2s false) s = .next u ∧ .cxlDone 0 ∈ u.out ∧ u.mem = s.mem)

/-- A parity pass over Cairn repairs every failing row of an owned bank from its shadow and is timed from the next clock on;
a shadow scrub makes the fields of every row of an owned bank equal its shadow's. (Shadows that are uncorrectable stand aside.) Cache
maintenance and the enabling of caches. The pending operation runs on the command of its row: by set and way it takes the
named line out of its cache or cleans it there; by address every copy of the line at home here goes, or is clean. Either ends
with the status done. A write of an enable bit starts or stops a sweep, and the sweep's end disables the cache. Rare cases
are read as log 58 says. -/
def Obligations.CacheAndCairnMaintenance : Prop :=
  (∀ s : State, (∀ k row, s.shadowLost k row = false) →
    (∃ t, exec .paritySweep s = .next t ∧ t.now = s.now + 513 ∧ ∀ k ∈ s.ownedBanks,
      (s.now + 1, s.now + 513) ∈ (t.bank k).passes ∧ (t.bank k).owner = (s.bank k).owner ∧
      ∀ row, (t.bank k).row row = if (s.bank k).rowBad row then s.shadowRow k row else (s.bank k).row row) ∧
    ∃ t, exec .shadowScrub s = .next t ∧ ∀ k ∈ s.ownedBanks, ∀ row < 4096,
      rowFields ((t.bank k).row row) = rowFields (s.shadowRow k row)) ∧
  (∀ s : State,
    (∀ p ∈ ([(.clean, 1), (.inval, 2), (.cleaninval, 3)] : List (Instr × Nat)),
      let c := s.onum 0xF010 1
      s.cache.cmoBusy = true → cmoOp c = p.2 → s.coh.requests.any (fun r => r.purpose == .maint) = false →
      (cmoSetWay c = true → s.cmoTarget c = none → exec p.1 s = .next s.cmoDone) ∧
      (cmoSetWay c = true → ∀ w, s.cmoTarget c = some w → s.lineMoving w.line = false →
        (cmoLevel c = 0 ∨ cmoLevel c = 3 → ∃ t, exec p.1 s = .next t ∧ t.onum 0xF010 3 = 2 ∧ t.cache.cmoBusy = false ∧
          t.cmoTarget c = if p.2 = 1 then some w.clean else none) ∧
        (cmoLevel c = 1 → ∃ t, exec p.1 s = .next t ∧ t.onum 0xF010 3 = 2 ∧ t.cache.cmoBusy = false ∧
          t.cmoTarget c = if p.2 = 1 then some w else none)) ∧
      (cmoSetWay c = false → s.lineMoving (imgLine (s.onum 0xF010 2)) = false → s.imgBacked (s.onum 0xF010 2) = true →
        lineDev (imgLine (s.onum 0xF010 2)) = s.sys.deviceId → s.lineBusy (imgLine (s.onum 0xF010 2)) = false →
        let l := imgLine (s.onum 0xF010 2)
        let u := s.cmoLocal l (p.2 == 1)
        (u.snoopPlan { op := if p.2 = 1 then opCmoClean else opCmoCleanInval, src := u.agent locProxy, dst := u.homeAgent l
                       txn := 0, line := l }).1 = [] →
        ∃ t, exec p.1 s = .next t ∧ t.onum 0xF010 3 = 2 ∧ t.cache.cmoBusy = false ∧
          ∀ m ∈ [t.cache.l2, t.cache.l1d, t.cache.slc], ∀ q ∈ m, ∀ w ∈ q.2, w.holds l = true → w.fenced = false →
            p.2 = 1 ∧ w.dirty = false)) ∧
    ∀ c : CacheSel, cacheKnown c = true →
      (s.cacheState (cacheKey c) = .enabled → ∃ t, exec (.cacheDisable c) s = .next t ∧
        t.cacheState (cacheKey c) = .disabling ∧ Writes [.objs, .cache] s t) ∧
      (s.cacheState (cacheKey c) ≠ .enabled → ∃ t, exec (.cacheEnable c) s = .next t ∧
        t.cacheState (cacheKey c) = .enabled ∧ Writes [.objs, .cache] s t) ∧
      (s.cacheState (cacheKey c) = .disabling → ∃ t, exec (.cacheSweepDone c) s = .next t ∧
        t.cacheState (cacheKey c) = .disabled ∧ t.mem = s.mem))

/-- Coherence messages. One that is a fault is counted and changes no state of the coherence protocol; on the Omuth Link it is a
violation of the port that it came in by. One for another device goes on unchanged, and one of an agent that is dead or fenced
is refused. -/
def Obligations.CoherenceFaultsAndRouting : Prop :=
  ∀ (s : State) (m : CohMsg), ∀ p ∈ ([(.rdShared m, opRdShared), (.rdOwn m, opRdOwn), (.upgrade m, opUpgrade), (.rdNc m, opRdNc),
      (.wrNc m, opWrNc), (.cmoClean m, opCmoClean), (.cmoCleaninval m, opCmoCleanInval), (.cmoInval m, opCmoInval),
      (.tokenReturn m, opTokenReturn), (.snpShared m, opSnpShared), (.snpInv m, opSnpInv), (.snpData m, opSnpData),
      (.snpClean m, opSnpClean), (.fwdShared m, opFwdShared), (.fwdOwn m, opFwdOwn), (.snpDiscard m, opSnpDiscard),
      (.gangRd m, opGangRd), (.gangOwn m, opGangOwn), (.cohAck m, opAck), (.ackLost m, opAckLost), (.cohRetry m, opRetry),
      (.cohGrant m, opGrant), (.cohCmp m, opCmp), (.wbAck m, opWbAck), (.ownerMoved m, opOwnerMoved), (.cohData m, opData),
      (.snpDataRsp m, opSnpDataRsp), (.wbDirty m, opWbDirty), (.evictClean m, opEvictClean), (.pdSet m, opPdSet)] :
      List (Instr × Nat)),
    ((m.op ≠ p.2 ∨ (s.cohFault m).isSome = true) → ∃ t, exec p.1 s = .next t ∧
      t.onum 0x6100 10 = min (2 ^ 64 - 1) (s.onum 0x6100 10 + 1) ∧ Writes [.objs, .link, .err, .mgmt, .out] s t ∧
      (s.arrivalPort (agentDev m.src) = none → Writes [.objs] s t) ∧
      ∀ q, s.arrivalPort (agentDev m.src) = some q →
        t.onum (portObj q) 9 = min (2 ^ 64 - 1) (s.onum (portObj q) 9 + 1) ∧ t.err.nextSeq = (s.err.nextSeq + 1) % 65536) ∧
    (m.op = p.2 → s.cohFault m = none →
      (agentDev m.dst ≠ s.sys.deviceId → exec p.1 s = .next (s.send (.coh m))) ∧
      (agentDev m.dst = s.sys.deviceId → s.coh.dead.contains (agentDev m.src) = true ∨
        (agentDev m.src = s.sys.deviceId ∧ s.coh.fencedL2.contains (agentLoc m.src) = true) → exec p.1 s = .next s))

/-- Requests at their home. Where agents must be snooped first, the home opens a transaction that waits for all of them.
Where none must, a read gives the line and enters its reader as holder: RD_SHARED of a line nobody holds gives it exclusive
(host-owned) or shared, RD_OWN and UPGRADE give it modified, RD_NC leaves the entry alone; a write and the maintenance
requests leave no holder, and complete. A line busy with another request keeps up to four waiting. A request that needs an
entry of a full directory set, each of whose entries is busy or held, waits until one is given up. -/
def Obligations.HomeRequests : Prop :=
  ∀ (s : State) (m : CohMsg), ∀ p ∈ ([(.rdShared m, opRdShared), (.rdOwn m, opRdOwn), (.upgrade m, opUpgrade), (.rdNc m, opRdNc),
      (.wrNc m, opWrNc), (.cmoClean m, opCmoClean), (.cmoCleaninval m, opCmoCleanInval), (.cmoInval m, opCmoInval)] :
      List (Instr × Nat)), m.op = p.2 → s.cohFault m = none → agentDev m.dst = s.sys.deviceId → m.tokenValid = false →
    s.coh.dead = [] → agentDev m.src = s.sys.deviceId → s.coh.fencedL2.contains (agentLoc m.src) = false →
    (s.lineBusy m.line = true → (s.coh.queued.filter (fun q => q.line == m.line)).length < 4 →
      ∃ t, exec p.1 s = .next t ∧ t.coh.queued = s.coh.queued ++ [m]) ∧
    (s.lineBusy m.line = false → s.trackersUsed (agentLoc m.dst) < 256 → s.lineBacked m.line = true → s.dram.raw = [] →
      s.linePoisoned m.line = false → hostSide m.src = false → s.needsRecord m.line = false →
      (caches m.op = true → s.roomTaken m.line = true →
        ∃ t x, exec p.1 s = .next t ∧ x ∈ t.coh.open_ ∧ x.line = m.line ∧ x.req = m ∧ x.waiting = []) ∧
      (s.dirFull m.line = false → (s.snoopPlan m).1 ≠ [] → ∃ t x, exec p.1 s = .next t ∧ x ∈ t.coh.open_ ∧ x.line = m.line ∧ x.req = m ∧
        x.waiting = (s.snoopPlan m).1.map (fun y => y.1) ∧ x.fwd = (s.snoopPlan m).2) ∧
      (s.dirFull m.line = false → (s.snoopPlan m).1 = [] → s.lineGang m.line = false → (agentLoc m.src = locProxy ∨ locL2 (agentLoc m.src) = true) →
        ∃ t n, exec p.1 s = .next t ∧ t.out.getLast? = some (.fabric (.coh n)) ∧ n.src = m.dst ∧ n.dst = m.src ∧
          n.txn = m.txn ∧ n.line = m.line ∧ n.poison = false ∧
          (m.op = opRdShared → n.op = opData ∧ n.data = s.lineRead m.line ∧
            if (s.dirEnt m.line).state = .I ∧ s.lineDepot m.line = false then
              n.state = 2 ∧ (t.dirEnt m.line).state = .E ∧ (t.dirEnt m.line).owner = m.src
            else n.state = 1 ∧ (t.dirEnt m.line).state = .S) ∧
          (m.op = opRdOwn → n.op = opData ∧ n.data = s.lineRead m.line ∧ n.state = 4 ∧ (t.dirEnt m.line).state = .M ∧
            (t.dirEnt m.line).owner = m.src) ∧
          (m.op = opUpgrade → n.state = 4 ∧ (t.dirEnt m.line).state = .M ∧ (t.dirEnt m.line).owner = m.src ∧
            n.op = if ((s.dirEnt m.line).holders s.sys.deviceId).contains m.src then opCmp else opData) ∧
          (m.op = opRdNc → n.op = opData ∧ n.data = s.lineRead m.line ∧ t.coh.dir = s.coh.dir) ∧
          (m.op = opWrNc → n.op = opCmp ∧ t.dirEnt m.line = DirEnt.empty) ∧
          (m.op = opCmoClean → n.op = opCmp ∧ t.coh.dir = s.coh.dir) ∧
          (m.op = opCmoCleanInval ∨ m.op = opCmoInval → n.op = opCmp ∧
            t.dirEnt m.line = DirEnt.empty)))

/-- Snoops and forwards at an L2 of this device. An L2 without the line answers so; one that holds it keeps what the opcode
lets it keep, and answers with the line's bytes where they are dirty or asked for, else without. -/
def Obligations.Snoops : Prop :=
  ∀ (s : State) (m : CohMsg), ∀ p ∈ ([(.snpShared m, opSnpShared), (.snpInv m, opSnpInv), (.snpData m, opSnpData),
      (.snpClean m, opSnpClean), (.fwdShared m, opFwdShared), (.fwdOwn m, opFwdOwn), (.snpDiscard m, opSnpDiscard),
      (.gangRd m, opGangRd), (.gangOwn m, opGangOwn)] : List (Instr × Nat)), m.op = p.2 → s.cohFault m = none →
    agentDev m.dst = s.sys.deviceId → s.coh.dead = [] → agentDev m.src = s.sys.deviceId → lineDev m.line = s.sys.deviceId →
    locL2 (agentLoc m.dst) = true → s.coh.requests.any (fun r => r.msg.src == m.dst && r.msg.line == m.line) = false →
    s.coh.fencedL2.contains (agentLoc m.src) = false →
    s.coh.heldSnoops.any (fun x => x.2.dst == m.dst && x.2.line == m.line) = false →
    s.coh.wbBuf.any (fun w => w.agent == m.dst && w.line == m.line) = false →
    let key := l2Key (agentLoc m.dst) m.line
    let fwd := isForward m.op
    (s.l2Way (agentLoc m.dst) m.line = none → s.fencedSet m.dst m.line = false → ∃ t n, exec p.1 s = .next t ∧
      t.out = s.out ++ [.fabric (.coh n)] ∧ n.op = opAck ∧ n.src = m.dst ∧ n.state = 0 ∧
      n.txn = if fwd then m.aux else m.txn) ∧
    ∀ i w, wayOf (waysAt s.cache.l2 key 16) m.line = some i → (waysAt s.cache.l2 key 16)[i]? = some w →
      let dirty := w.dirty || w.state == .M || w.state == .O
      ∃ t n w', exec p.1 s = .next t ∧ (waysAt t.cache.l2 key 16)[i]? = some w' ∧ w'.state = afterSnoop m.op w.state ∧
        t.out.getLast? = some (.fabric (.coh n)) ∧ n.src = m.dst ∧ (n.txn = if fwd then m.aux else m.txn) ∧
        n.state = lineCode (afterSnoop m.op w.state) ∧
        (n.op = if m.op = opGangRd ∨ m.op = opGangOwn then opOwnerMoved else if fwd then opAck
          else if m.op = opSnpData ∨ (dirty = true ∧ m.op ≠ opSnpDiscard) then opSnpDataRsp else opAck) ∧
        (n.op = opSnpDataRsp → n.data = s.lineRead m.line)

/-- Answers and write-backs. An answer at the home leaves the wait of its transaction, and with the line's bytes it leaves
them there; a write-back of the owner writes memory, an eviction leaves the directory, a pitch-dirty notice counts as the
line's record; each is acknowledged. A reserved entry comes back with its token. At a requester DATA and CMP end the request,
RETRY leaves its token with it, GRANT sends it again, WB_ACK frees the write-back buffer. -/
def Obligations.CoherenceAnswers : Prop :=
  ∀ (s : State) (m : CohMsg), s.cohFault m = none → agentDev m.dst = s.sys.deviceId → s.coh.dead = [] →
    agentDev m.src = s.sys.deviceId → s.coh.fencedL2.contains (agentLoc m.src) = false →
    (∀ p ∈ ([(.cohAck m, opAck), (.ackLost m, opAckLost), (.snpDataRsp m, opSnpDataRsp), (.ownerMoved m, opOwnerMoved)] :
        List (Instr × Nat)), m.op = p.2 → m.evicting = false → ∀ x, s.txnFor m = some x →
      (x.waiting.filter (fun a => a != m.src)).isEmpty = false → x.fwd ≠ some m.src →
      ∃ t y, exec p.1 s = .next t ∧ y ∈ t.coh.open_ ∧ y.tracker = x.tracker ∧ y.line = x.line ∧ y.req = x.req ∧
        y.waiting = x.waiting.filter (fun a => a != m.src) ∧ y.answered = x.answered ++ [m.src] ∧
        (m.op = opSnpDataRsp → y.data = if x.stale then none else some m.data) ∧
        (m.op = opAckLost → (s.dirEnt m.line).owner = m.src → (s.dirEnt m.line).state = .M →
          (t.dram.poisoned.find m.line).isSome = true)) ∧
    (m.op = opWbDirty → (s.dirEnt m.line).owner = m.src → (s.dirEnt m.line).state = .M → s.isApplied m.src m.txn = false →
      s.linePage m.line = none → lineHbm m.line = false → lineOff m.line < s.regionBase → lineOff m.line % 64 = 0 →
      m.poison = false → s.discards m.line = false → ∃ t n, exec (.wbDirty m) s = .next t ∧ (∀ i < 64, some (t.mem.read (lineOff m.line + i)) =
        (fitTo 64 m.data)[i]?) ∧ t.out = s.out ++ [.fabric (.coh n)] ∧ n.op = opWbAck ∧ n.txn = m.txn ∧ n.dst = m.src) ∧
    (m.op = opEvictClean → ∃ t n, exec (.evictClean m) s = .next t ∧
      t.coh.dir = (s.setDir m.line ((s.dirEnt m.line).release s.sys.deviceId m.src)).coh.dir ∧
      t.out = s.out ++ [.fabric (.coh n)] ∧ n.op = opWbAck ∧ n.txn = m.txn ∧ n.dst = m.src) ∧
    (m.op = opPdSet → ∃ t n, exec (.pdSet m) s = .next t ∧ t.needsRecord m.line = false ∧
      t.out = s.out ++ [.fabric (.coh n)] ∧ n.op = opWbAck ∧ n.txn = m.txn ∧ n.dst = m.src) ∧
    (m.op = opTokenReturn → ∃ t, exec (.tokenReturn m) s = .next t ∧
      ∀ x ∈ t.coh.tokens, ¬ (x.1 = agentLoc m.dst * 512 + m.token ∧ x.2.1 = m.src)) ∧
    (m.op = opWbAck →
      let u : State := { s with coh := { s.coh with
        wbBuf := s.coh.wbBuf.filter (fun w => !(w.agent == m.dst && w.txn == m.txn)) } }
      (∃ t, exec (.wbAck m) s = .next t ∧ t.coh.wbBuf = u.coh.wbBuf) ∧
      (s.pitch.cutoffDone = false ∨ s.pitch.decisionDone = true → exec (.wbAck m) s = .next u)) ∧
    (m.op = opRetry → exec (.cohRetry m) s = .next { s with coh := { s.coh with
      requests := s.coh.requests.map (fun (r : OpenReq) =>
        if r.msg.src = m.dst ∧ r.msg.txn = m.txn then { r with token := some m.token, sent := false } else r) } }) ∧
    (m.op = opGrant → ∀ r, s.coh.requests.find? (fun r => r.msg.src == m.dst && r.msg.dst == m.src && r.token == some m.token)
        = some r → s.wanted r = true → ∃ t, exec (.cohGrant m) s = .next t ∧
        .fabric (.coh { r.msg with tokenValid := true, token := m.token }) ∈ t.out ∧
        ∀ x ∈ t.coh.requests, x.msg.src = r.msg.src → x.msg.txn = r.msg.txn → x.token = none) ∧
    (∀ r, s.reqFor m = some r → r.held = [] → r.msg.op = opRdNc →
      (m.op = opData → r.purpose = .unit → ∃ t, exec (.cohData m) s = .next t ∧
        t.coh.readBuf.find r.msg.line = some (if m.poison then stPoisonRead else stOk, fitTo 64 m.data) ∧
        ∀ x ∈ t.coh.requests, ¬ (x.msg.src = r.msg.src ∧ x.msg.txn = r.msg.txn)) ∧
      (m.op = opData → ∀ a, r.purpose = .cxl a → ∃ t, exec (.cohData m) s = .next t ∧
        t.out = s.out ++ [.cxlData a (fitTo 64 m.data) m.poison])) ∧
    (∀ r a, s.reqFor m = some r → r.held = [] → r.msg.op = opWrNc → r.purpose = .cxl a → m.op = opCmp →
      ∃ t, exec (.cohCmp m) s = .next t ∧ .cxlDone a ∈ t.out ∧
        ∀ x ∈ t.coh.requests, x.purpose = .cxl a → ¬ (x.msg.src = r.msg.src ∧ x.msg.txn = r.msg.txn))

/-- Service messages that are well formed. One for another device goes on unchanged; one for this device opens or ends a
route, asks for or grants a page, draws, grants or returns quota, hands over a rope or Summit entries, or closes a remote
slot. A request whose source has an earlier one waiting waits behind it. What chapter 12 leaves open is the model's choice (log 43). -/
def Obligations.LinkServices : Prop :=
  ∀ (s : State) (m : SvcMsg), s.svcOk m = true → s.coh.dead.contains m.source = false →
    (m.dest ≠ s.sys.deviceId → ∀ p ∈ ([(.routeOpen m, svRouteOpen), (.routeEnd m, svRouteEnd), (.pageAlloc m, svPageAlloc),
        (.pageGrant m, svPageGrant), (.quotaDraw m, svQuotaDraw), (.quotaGrant m, svQuotaGrant), (.quotaReturn m, svQuotaReturn),
        (.ropeNotice m, svRopeNotice), (.summitEntry m, svSummitEntry), (.summitClose m, svSummitClose)] : List (Instr × Nat)),
      m.op = p.2 → exec p.1 s = .next (s.send (.svc m))) ∧
    (m.dest = s.sys.deviceId → m.source ≠ s.sys.deviceId →
      let far : RouteKey := { tenant := m.tenant, id := m.route, home := m.source }
      let near : RouteKey := { tenant := m.tenant, id := m.route, home := s.sys.deviceId }
      let cls := m.arg / 2 ^ 61
      let lent := (s.depot.lent.find m.tenant).getD 0
      (m.op = svRouteOpen →
        ((∀ r, s.route? far = some r → r.suspended = none) →
          (s.route? far).isSome = true ∨ s.link.copies.any (fun c => c.key == far) = true → exec (.routeOpen m) s = .next s) ∧
        (∀ r, s.route? far = some r → r.suspended.isSome = true → ∃ t r' sp, exec (.routeOpen m) s = .next t ∧
          t.route? far = some r' ∧ r'.suspended = none ∧ r'.span = some sp ∧ sp.openPitch = s.pitch.number) ∧
        (s.route? far = none → s.link.copies.any (fun c => c.key == far) = false → 0 < m.slot1 / 2 ^ 96 →
          ∃ t, exec (.routeOpen m) s = .next t ∧
            { key := far, line := m.arg, bytes := m.slot1 / 2 ^ 96, got := [] } ∈ t.link.copies ∧
            ∀ i < ceilDiv (m.slot1 / 2 ^ 96) 64, ∃ q ∈ t.coh.requests, q.msg.op = opRdNc ∧
              q.msg.line = m.arg / 64 * 64 + 64 * i ∧ q.purpose = .routeCopy far (64 * i))) ∧
      (m.op = svRouteEnd →
        (∀ r, s.route? far = some r → ∃ t, exec (.routeEnd m) s = .next t ∧ t.route? far = none) ∧
        (∀ r, s.route? far = none → s.route? near = some r → r.finalDue = false → r.conditions.contains m.arg = false →
          r.suspended = none → m.arg ≠ stDepotFull → ∃ t r', exec (.routeEnd m) s = .next t ∧ t.route? near = some r' ∧ r'.conditions = r.conditions ++ [m.arg] ∧
            r'.endTick.isSome = true)) ∧
      (m.op = svPageAlloc →
        (s.mustClear m = true → ∃ t, exec (.pageAlloc m) s = .next t ∧ t.depot.pageAsks = s.depot.pageAsks ++ [m] ∧
          t.onum 0x4002 6 = min (2 ^ 64 - 1) (s.onum 0x4002 6 + 1) ∧ Writes [.objs, .depot] s t) ∧
        (s.behindAsk m = true → s.mustClear m = false → exec (.pageAlloc m) s = .next { s with depot := { s.depot with
          pageAsks := s.depot.pageAsks ++ [m] } }) ∧
        (s.behindAsk m = false → s.askKey m = none →
          exec (.pageAlloc m) s = .next (s.sendSvc svPageGrant m.source m.tenant m.route 0 0 0)) ∧
        (∀ r a o s' d, s.behindAsk m = false → s.svcRoute m = some r → s.fitPage 1 (clsPage cls) true = some a → s.depot.pages.length < 8388608 →
          s.inboundObj m.source r.key cls = some (o, s') → s'.dobj? o = some d →
          ∃ (x : State) (h : Nat) (p : Page), exec (.pageAlloc m) s = .next (x.sendSvc svPageGrant m.source m.tenant m.route h (s.lineAt false a) 0) ∧
            x.depot.pages.find s'.depot.nextPage = some p ∧ p.obj = o ∧ p.tier = 1 ∧ p.addr = a ∧ p.size = clsPage d.cls)) ∧
      (m.op = svPageGrant → ∀ a s', s.takeAsked m.source svPageAlloc = some (a, s') →
        (a.outId = none → ∃ t, exec (.pageGrant m) s = .next t ∧ t.depot.granted = s.depot.granted ++
          [{ device := m.source, tenant := a.tenant, route := a.route, cls := a.cls
             line := if m.arg = 0 then 0 else m.slot1 }]) ∧
        (∀ id o, a.outId = some id → s'.outbound? id = some o → m.arg ≠ 0 →
          o.pages.length + 1 < ceilDiv o.bytes.length kib64 → ∃ t o', exec (.pageGrant m) s = .next t ∧
            t.outbound? id = some o' ∧ o'.pages = o.pages ++ [m.slot1])) ∧
      (m.op = svQuotaDraw →
        let ok := m.arg * quotaBlock ≤ s.depotQuota m.tenant - s.depotUsed m.tenant
        (s.behindAsk m = true → exec (.quotaDraw m) s = .next { s with depot := { s.depot with
          pageAsks := s.depot.pageAsks ++ [m] } }) ∧
        (s.behindAsk m = false → ∃ x, exec (.quotaDraw m) s = .next (x.sendSvc svQuotaGrant m.source m.tenant m.route (if ok then m.arg else 0) 0 0) ∧
          (x.depot.lent.find m.tenant).getD 0 = (if ok then lent + m.arg else lent) ∧ Writes [.depot] s x)) ∧
      (m.op = svQuotaGrant → ∀ a s', s.takeAsked m.source svQuotaDraw = some (a, s') →
        ∃ t, exec (.quotaGrant m) s = .next t ∧
          (m.arg = 0 → t.depot.granted = s.depot.granted ++
            [{ device := m.source, tenant := a.tenant, route := a.route, cls := 8, line := 0 }]) ∧
          (m.arg ≠ 0 → (t.depot.drawn.find (drawKey a.tenant m.source)).getD 0 =
            (s.depot.drawn.find (drawKey a.tenant m.source)).getD 0 + m.arg)) ∧
      (m.op = svQuotaReturn → ∃ t, exec (.quotaReturn m) s = .next t ∧
        (t.depot.lent.find m.tenant).getD 0 = lent - m.arg ∧ Writes [.depot] s t) ∧
      (m.op = svRopeNotice → ∀ r o q n s', s.svcRoute m = some r →
        r.span.map (fun sp => sp.openPitch) = some (m.slot1 % 2 ^ 64) → s.delivered m r.key m.arg = some o →
        s.splitRope r.key o (hOff m.arg) (fld m.slot1 127 124) (r.desc.ropeForms (fld m.slot1 71 68)) = some (q, n, s') →
        ∃ t, exec (.ropeNotice m) s = .next t ∧ ∀ c ∈ r.desc.consumers (fld m.slot1 71 68), (r.desc.stage c).kind ≠ kEmit →
          (∃ x ∈ t.sched.ready ++ t.sched.held, x.key = r.key ∧ x.stage = c ∧ x.ridge = fld m.slot1 127 124 ∧ x.input = .rope q.1 ∧
            x.seq = fld m.slot1 123 76) ∨
          ((r.desc.stage c).kind = kProbe ∧ ∃ r', t.route? r.key = some r' ∧ (c, fld m.slot1 127 124, q.1) ∈ r'.work.waiting)) ∧
      (m.op = svSummitEntry →
        let k : RouteKey := { tenant := fld m.slot1 31 27, id := fld m.slot1 63 32, home := s.sys.deviceId }
        ∀ r o x s', s.route? k = some r → s.delivered m k (m.slot2 % 2 ^ 64) = some o →
          s.splitChain k o (hOff (m.slot2 % 2 ^ 64)) (fld m.slot1 24 21)
            (r.desc.ropeForms (r.desc.stage r.desc.emit).inputA) (fld m.slot2 127 96) = ([x], s') →
          let e : SlotEntry := { key := k, kind := fld m.slot1 26 25, ridge := fld m.slot1 24 21, device := fld m.slot1 20 17
                                 spanPitch := m.slot1 / 2 ^ 64, chain := [] }
          let b := s'.slot (64 + m.source)
          ∃ t, exec (.summitEntry m) s = .next t ∧ t.slot (64 + m.source) =
            if b.1.state = .filling then (b.1.add e x.1 x.2, b.2) else (b.1, b.2.add e x.1 x.2)) ∧
      (m.op = svSummitClose →
        let b := s.slot (64 + m.source)
        ∃ t, exec (.summitClose m) s = .next t ∧ t.slot (64 + m.source) = (b.1.swap m.arg, b.2.swap m.arg) ∧
          t.summit.closes = s.summit.closes ++ [(m.source, m.arg)] ∧ Writes [.summit] s t))

/-- The Omuth ports. A port that is enabled trains: the lanes that lock give its width, and once FEC has locked and 64 latency
exchanges are done it carries traffic. A flit that decodes brings what its header says: an accepted PAYLOAD flit moves the
expected SEQ on, and either kind drops what it acknowledges from the replay buffer; one that does not decode asks for a resend.
Lanes that fail narrow the port, and the other end follows; a retrain stops it until its steps are done. Each port stays
apart: what happens to one is stated for its number. What chapter 12 leaves open is the model's choice (log 43). -/
def Obligations.LinkPorts : Prop :=
  ∀ (s : State), ∀ p < 4,
    let x := s.port p
    let sends (t : State) (code arg : Nat) : Prop := ∃ h w l, t.out.getLast? = some (.flit p h w l) ∧ h.flitType = 1 ∧
      h.code = code ∧ h.arg = arg % 2 ^ 33 ∧ h.sender = s.sys.deviceId ∧ h.ackSeq = s.lastSeq p
    let calm : Prop := (x.retrainTimes.filter (fun t => decide (s.now < t + retrainWindow))).length < 4
    ((x.mode = .down ∨ x.mode = .disabled) →
      (portDim s.sys.deviceCount p = none → ∃ t, exec (.portEnable p) s = .next t ∧ (t.port p).mode = .disabled) ∧
      ((portDim s.sys.deviceCount p).isSome = true →
        ∃ t, exec (.portEnable p) s = .next t ∧ (t.port p).mode = .training ∧ (t.port p).width = 0 ∧
          (t.port p).neighbour = s.neighbourOf p ∧ (t.port p).rate = (if s.onum 0x6000 1 = 0 then 1 else 2) ∧
          t.out = s.out ++ [.linkTrain p])) ∧
    (x.locked = false → ∀ lanes < 65536,
      (∀ g, x.mode = .training ∧ chooseLanes 16 lanes = some g ∨
          x.mode = .retraining ∧ chooseLanes (if lanes = 0xFFFF then 16 else x.width) lanes = some g →
        ∃ t, exec (.lockAndEqualise p lanes) s = .next t ∧ t.port p = { x with
          lanes := g, width := laneWidth g, locked := true, fecRun := 0 } ∧ Writes [.link] s t) ∧
      (x.mode = .training → chooseLanes 16 lanes = none → x.triedOl1 = false →
        ∃ t, exec (.lockAndEqualise p lanes) s = .next t ∧
          (t.port p).rate = 1 ∧ (t.port p).triedOl1 = true ∧ t.out = s.out ++ [.linkTrain p])) ∧
    (x.mode = .training → ∃ t, exec (.trainingTimeout p) s = .next t ∧ (t.port p).mode = .down) ∧
    (x.mode = .active → x.unacked ≠ [] →
      (x.resends + 1 < 8 → ∃ t, exec (.flitReplayTimeout p) s = .next t ∧ (t.port p).resends = x.resends + 1 ∧
        (t.port p).unacked = x.unacked ∧ t.out.length = s.out.length + x.unacked.length ∧
        ∀ i f, x.unacked[i]? = some f → ∃ h w l, t.out[s.out.length + i]? = some (.flit p h w l) ∧ h.flitType = 0 ∧
          h.seq = f.seq ∧ h.firstMsg = f.firstMsg) ∧
      (8 ≤ x.resends + 1 → calm → ∃ t, exec (.flitReplayTimeout p) s = .next t ∧ (t.port p).mode = .retraining ∧
        (t.port p).unacked = x.unacked)) ∧
    ((x.mode = .active ∨ x.mode = .failover) → calm →
      ∃ t, exec (.retrainCmd p) s = .next t ∧ (t.port p).mode = .retraining ∧ t.out.getLast? = some (.linkTrain p)) ∧
    (x.mode = .retraining → x.locked = true → 64 ≤ x.probes → ∀ lanes, (65535 - lanes % 65536) &&& x.lanes = 0 →
      ∃ t, exec (.retrainDone p lanes) s = .next t ∧
      (t.port p).mode = .active ∧ (t.port p).lanes = x.lanes ∧ (t.port p).width = x.width) ∧
    (x.mode = .failover → ∃ t, exec (.widthSwitchDone p) s = .next t ∧ (t.port p).mode = .active) ∧
    (let over_ := (x.laneErrors.filter (fun e => decide (s.onum 0x6000 3 < e.2))).foldl (fun a e => a + 2 ^ e.1) 0
     (over_ = 0 → ∃ t, exec (.laneErrorInterval p) s = .next t ∧ t.port p = { x with laneErrors := [] } ∧ Writes [.link] s t) ∧
     ∀ lane < 16, ∀ c ∈ ([(.laneLockLost p lane, 2 ^ lane), (.laneErrorInterval p, over_)] : List (Instr × Nat)),
      x.up = true → x.mode ≠ .retraining → x.lanes &&& c.2 ≠ 0 → ∀ g,
      narrowTo x.width (((List.range 16).filter (fun l => bitAt x.lanes l && !bitAt c.2 l)).foldl (fun a l => a + 2 ^ l) 0) =
        some g →
      ∃ t, exec c.1 s = .next t ∧ (t.port p).mode = .failover ∧ (t.port p).lanes = g ∧ (t.port p).width = laneWidth g ∧
        sends t 1 g) ∧
    (∀ (b : List Byte) (fixed ws : List Nat) (h : FlitHdr), decodeFlit b = (fixed, some (h, ws)) → h.flitType = 1 →
      h.sender = x.neighbour → h.nak = false → x.mode ≠ .down → x.mode ≠ .disabled →
      let n := (h.ackSeq + 1 + 1024 - x.ackedTo) % 1024
      n ≤ x.unacked.length →
      (h.code = 0 → x.up = true → ∃ t, exec (.linkIdle p b) s = .next t ∧ (t.port p).ackedTo = (x.ackedTo + n) % 1024 ∧
        (t.port p).expectSeq = x.expectSeq) ∧
      (h.code = 1 → x.up = true → x.mode ≠ .retraining → laneGroups.contains (h.arg % 65536) = true →
        h.arg % 65536 &&& x.lanes = h.arg % 65536 → h.arg % 65536 ≠ x.lanes → ∃ t, exec (.widthChange p b) s = .next t ∧
          (t.port p).mode = .failover ∧ (t.port p).lanes = h.arg % 65536 ∧ (t.port p).width = laneWidth (h.arg % 65536)) ∧
      (h.code = 2 → (x.mode = .active ∨ x.mode = .failover) → calm →
        ∃ t, exec (.retrain p b) s = .next t ∧ (t.port p).mode = .retraining) ∧
      (h.code = 3 → ∃ t d, exec (.latencyProbe p b) s = .next t ∧ d < 65536 ∧ sends t 4 (h.arg + d)) ∧
      (h.code = 4 → x.mode = .training → x.probeOut ≠ 0 → 1024 ≤ x.fecRun →
        let trip := (s.probeTime + 2 ^ 33 - h.arg % 2 ^ 33) % 2 ^ 33
        let best := min trip (x.probeBest.getD trip)
        ∃ t, exec (.latencyEcho p b) s = .next t ∧ (t.port p).probes = x.probes + 1 ∧ (t.port p).probeBest = some best ∧
          (x.probes + 1 < 64 → (t.port p).mode = .training ∧ sends t 3 s.probeTime) ∧
          (64 ≤ x.probes + 1 → (t.port p).mode = .active ∧ (t.port p).latency = best / 2)) ∧
      (h.code = 5 → x.up = true → ∀ q < 4, let seq := h.arg % 1024
        let lost (i : Nat) : Bool := i != p && portDim s.sys.deviceCount i == portDim s.sys.deviceCount p
          && (s.port i).mode == .down && !((s.port i).unsent seq).isEmpty
        lost q = true → (∀ i < q, lost i = false) →
        ∃ t, exec (.portLost p b) s = .next t ∧ (t.port q).unacked = [] ∧ (t.port q).waiting = [])) ∧
    (∀ (b c : List Byte) (fixed : List Nat), x.up = true → x.mode ≠ .retraining →
      (decodeFlit (b ++ c) = (fixed, none) → exec (.payloadFlit p b c) s = .next ((s.countCorrected p fixed).askResend p)) ∧
      ∀ (h : FlitHdr) (ws : List Nat), decodeFlit (b ++ c) = (fixed, some (h, ws)) → h.flitType = 0 →
        (h.seq ≠ x.expectSeq → exec (.payloadFlit p b c) s = .next ((s.countCorrected p fixed).askResend p)) ∧
        (let n := (h.ackSeq + 1 + 1024 - x.ackedTo) % 1024
         h.seq = x.expectSeq → h.sender = x.neighbour → h.code = 0 → h.arg = 0 → h.nak = false → n ≤ x.unacked.length →
         x.partialSlots = [] → h.firstMsg = 15 →
         ∃ t, exec (.payloadFlit p b c) s = .next t ∧ (t.port p).expectSeq = (h.seq + 1) % 1024 ∧
          (t.port p).ackedTo = (x.ackedTo + n) % 1024)) ∧
    ∀ w, exec (.linkNak p w) s = .next (if s.nakOk w then s.oinc (portObj p) 12 1 else s)

/-- The memories' own commands: refresh, temperature, scrubbing, the tracking window, training and initialisation of DDR5, a
channel that fails, the test commands, remap entries, and the reads of the error queue. The order of window entries and the
place of the spare areas are the model's choice (log 47). -/
def Obligations.MemoryCommands : Prop :=
  ∀ s : State,
    (∀ ch < 16, s.chanState ch = .active → s.sys.state ≠ .bivouac → ∃ t, exec (.refresh ch) s = .next t ∧
      t.dram.refreshes.find ch = some ((s.dram.refreshes.find ch).getD 0 + 1) ∧ t.out = s.out ++ [.refresh ch]) ∧
    (∀ ch < 16, ∀ c : Int, ∃ t, exec (.dimmTempSample ch c) s = .next t ∧ t.dram.temps.find ch = some c ∧
      (8500 < c → s.dram.hot.contains ch = false → s.dram.hotAsked.contains ch = false →
        t.dram.hotAsked = s.dram.hotAsked ++ [ch]) ∧ (c ≤ 8500 → Writes [.dram] s t)) ∧
    (∀ ch, s.scrubs ch = true →
      let a := (s.dram.scrubPos.find ch).getD 0
      let l := s.lineOfLocal ch a
      let m := s.scrubCopy ch a
      ∃ t, exec (.scrubStep ch) s = .next t ∧
        t.dram.scrubPos.find ch = some (if a + 64 < s.scrubSize ch then a + 64 else 0) ∧
        (s.dram.failDue = [] → (∀ c, (s.dram.uncorrectable.filter (fun u => u.1 == c)).length < 3) →
          (s.copyFate l m = some .poisoned ∨ s.copyFate l m = some .bad ∧ s.otherGood l m = false →
            (t.dram.poisoned.find l).isSome = true) ∧
          (s.copyFate l m = some .bad → s.otherGood l m = true → s.dram.poisoned.find l = none →
            t.dram.raw.find (copyKey l m) = none ∧ t.dram.poisoned.find l = none))) ∧
    (∀ ch, ∃ t, exec (.faultWindowExpiry ch) s = .next t ∧ Writes [.dram] s t ∧
      (s.dram.lines.filter (fun e => e.ch == ch) = [] → s.dram.rows.filter (fun e => e.ch == ch) = [] →
        t.dram.lines = s.dram.lines ∧ t.dram.rows = s.dram.rows ∧ ∀ u ∈ t.dram.uncorrectable, u.1 ≠ ch) ∧
      (∀ e, s.dram.lines.filter (fun e => e.ch == ch) = [e] →
        (∀ r ∈ s.dram.rows, r.ch = ch → e.since ≤ r.since) → t.dram.lines = s.dram.lines.erase e ∧ t.dram.rows = s.dram.rows)) ∧
    (s.onum 0x5000 5 = 1 → ∀ failed : List Nat, ∃ t, exec (.ddrTrainingDone failed) s = .next t ∧
      (∀ ch < 16, t.chanState ch = if failed.contains ch then .failed else .active) ∧
      ((∀ ch < 16, failed.contains ch = true → s.oflag 0x5000 3 = true ∧ failed.contains (mirrorOf ch) = false) →
        t.onum 0x5000 5 = 2) ∧
      (∀ ch < 16, failed.contains ch = true → s.oflag 0x5000 3 = false ∨ failed.contains (mirrorOf ch) = true →
        t.onum 0x5000 5 = 4 ∧ t.sys.state ≠ .forming)) ∧
    (s.onum 0x5000 5 = 2 → ∃ t, exec .ddrInitDone s = .next t ∧ t.onum 0x5000 5 = 3 ∧ t.dram.retained = [] ∧
      t.mem = if s.dram.retained = [] then [] else s.mem) ∧
    (∀ ch < 16, s.chanState ch = .active → ∃ t, exec (.channelFailure ch) s = .next t ∧ t.chanState ch = .failed ∧
      (s.dram.mirrored = true → s.chanState (mirrorOf ch) = .active → Writes [.objs, .dram, .err, .mgmt, .out] s t) ∧
      (s.dram.mirrored = false → s.sys.state = .operational → t.sys.state = .retreat)) ∧
    (let l := s.onum 0xF012 1
     let d := fitTo 64 (s.oblob 0xF012 2)
     (s.testOk l = true →
      (∀ p ∈ ([(.testWrite, rsCheck (checkLen l) d), (.testWriteRaw, fitTo (checkLen l) (s.oblob 0xF012 3))] :
          List (Instr × List Byte)), ∃ t, exec p.1 s = .next t ∧ t.onum 0xF012 5 = 2 ∧ t.codeword l = (d, p.2) ∧
        (t.dram.testLines.find l).isSome = true) ∧
      ∃ t, exec .testRead s = .next t ∧ t.onum 0xF012 5 = 2 ∧ t.oblob 0xF012 2 = (s.codeword l).1 ∧
        t.oblob 0xF012 3 = (s.codeword l).2 ∧ Writes [.objs] s t) ∧
     (s.testOk l = false → ∀ c ∈ ([.testWrite, .testWriteRaw, .testRead] : List Instr), exec c s = .next (s.oset 0xF012 5 3))) ∧
    (∀ ch < 18, ∃ t b, exec (.remapRead ch) s = .next t ∧ t.oblob 0xF012 6 = b ∧ t.out = s.out ++ [.objValue 0xF012 6 b] ∧
      b.length = 8 * (s.flash.remaps.filter (fun r => r.ch == ch)).length ∧ Writes [.objs, .out] s t) ∧
    (∀ r q, s.err.queue = r :: q → ∃ t, exec .nextRecordRead s = .next t ∧ t.err.queue = q ∧
      t.out = s.out ++ [.objValue 0x5200 2 r.bytes]) ∧
    (s.err.queue = [] → exec .nextRecordRead s = .next (s.emit (.objValue 0x5200 2 (zeros 64)))) ∧
    (∀ r, s.err.latch = some r → ∃ t, exec .fatalLatchRead s = .next t ∧ t.err.latch = none ∧
      t.out = s.out ++ [.objValue 0x5200 4 r.bytes]) ∧
    (s.err.latch = none → exec .fatalLatchRead s = .next (s.emit (.objValue 0x5200 4 (zeros 64))))

/-- Brix requests that are taken as new: each operation has the result, the payload and the effect stated, and what follows
is the same for all of them (`State.brixEnds`). What a check condemns is counted as a violation. Events, sessions and
lockouts follow. What chapter 16 leaves open of messages and sessions is the model's choice (log 51). -/
def Obligations.Management : Prop :=
  ∀ (s : State) (r : BrixReq) (x : Option Session),
    (∀ c ∈ ([(.brixPing r, opPing), (.brixRead r, opRead), (.brixWrite r, opWrite), (.brixList r, opList),
        (.sessionOpen r, opSessionOpen), (.sessionFinish r, opSessionFinish), (.sessionClose r, opSessionClose),
        (.measure r, opMeasure), (.eventAck r, opEventAck)] : List (Instr × Nat)),
      let b := reqAs r c.2
      let m := parseBrix r.src b
      s.brixTakes r.src b x → m.op = c.2 → ¬ (r.src = .smbus ∧ (m.version ≠ 1 ∨ 3 < m.op)) →
      (c.2 = opPing → m.payload = [] → exec c.1 s = .next (s.brixEnds m x rsOk (oneByte s.sys.state.code))) ∧
      (c.2 = opRead → m.payload.length = 4 → getLe m.payload 3 1 = 1 → ∀ top a v u,
        objHighest (getLe m.payload 0 2) = some top → memberAcc (getLe m.payload 0 2) (getLe m.payload 2 1) = some a →
        s.accessFault r.src x.isSome (getLe m.payload 0 2) a false = none →
        s.readMember (getLe m.payload 0 2) (getLe m.payload 2 1) = (v, u) → v.length ≤ brixLimit r.src →
        exec c.1 s = .next (u.brixEnds m x rsOk v)) ∧
      (c.2 = opList → m.payload.length = 2 → exec c.1 s = .next (s.brixEnds m x rsOk (doList m.payload).2)) ∧
      (c.2 = opSessionOpen → m.payload.length = 128 → s.mgmt.lockedOut.contains r.src = false →
        s.mgmt.sessions.length < 4 → ∃ (u : State) (y : Session) (p : List Byte), exec c.1 s = .next (u.brixEnds m x rsOk p) ∧ p.length = 228 ∧
          u.mgmt.sessions = s.mgmt.sessions ++ [y] ∧ y.id = s.mgmt.nextSession ∧ y.src = r.src ∧ y.established = false) ∧
      (c.2 = opSessionFinish → m.payload.length = 192 → ∀ y, s.session? m.session r.src = some y → y.established = false →
        let good := decide (sha384 (m.payload.take 96) = genRootHash (s.flash.gen (s.mgmt.activeGen.getD 0))) &&
          Config.ecVerify (m.payload.take 96) (sha384 (y.transcript ++ m.payload.take 96)) (m.payload.drop 96)
        ∃ u : State, exec c.1 s = .next (u.brixEnds m x (if good then rsOk else rsAuth) []) ∧
          (good = true → ∃ z : Session, u.session? m.session r.src = some z ∧ z.established = true) ∧
          (good = false → u.session? m.session r.src = none)) ∧
      (c.2 = opSessionClose → x.isSome = true → m.payload = [] →
        exec c.1 s = .next ((s.dropSession m.session).brixEnds m x rsOk [])) ∧
      (c.2 = opMeasure → m.payload.length = 32 → ∃ sign : List Byte, sign.length = 96 ∧ exec c.1 s =
        .next (State.brixEnds { s with freeCount := s.freeCount + 1 } m x rsOk (m.payload ++ s.mgmt.meas.flatMap (fitTo 48)
          ++ natLe 4 s.mgmt.fwVersion ++ oneByte (s.mgmt.activeGen.getD 0) ++ oneByte s.mgmt.bootSlot
          ++ natLe 2 s.mgmt.policyResult ++ sign))) ∧
      (c.2 = opEventAck → m.payload.length = 2 → ∃ u : State, exec c.1 s = .next (u.brixEnds m x rsOk []) ∧
        u.mgmt.events = s.mgmt.events.filter (fun e => e.seq != getLe m.payload 0 2))) ∧
    (let b := reqAs r opWrite
     let m := parseBrix r.src b
     let i := getLe m.payload 0 2
     s.brixTakes r.src b x → m.op = opWrite → ¬ (r.src = .smbus ∧ m.version ≠ 1) → 4 ≤ m.payload.length →
      getLe m.payload 3 1 = 1 → ∀ top row v a u, objHighest i = some top → objRow? i (getLe m.payload 2 1) = some row →
      getLe m.payload 2 1 ≠ 0 → row.ty.take (m.payload.drop 4) = some (v, []) → row.acc = a →
      s.accessFault r.src x.isSome i a true = none →
      s.writeObject i x.isSome [(getLe m.payload 2 1, v)] = .ok u →
      exec (.brixWrite r) s = .next (u.brixEnds m x rsOk []) ∧
      (getLe r.payload 0 2 = 0x8010 → i = 0x8010 → exec (.otpWrite r) s = .next (u.brixEnds m x rsOk []) ∧
        ∃ k g, (∀ j < k, genBurned (s.flash.gen j) = true) ∧ genBurned (s.flash.gen k) = false ∧
          u.flash.otp = s.flash.otp.set k g) ∧
      (getLe r.payload 0 3 = 0x8020 + 9 * 65536 → i = 0x8020 → getLe m.payload 2 1 = 9 → ∀ d, v = .blob d →
        exec (.measExtend r) s = .next (u.brixEnds m x rsOk []) ∧ u.mgmt.meas = extendMeas s.mgmt.meas 7 d)) ∧
    (∀ src b, s.served src (parseBrix src b).version = true → s.brixFate src b ≠ .request →
      ∃ t, exec (.brixViolation src b) s = .next t ∧ t.onum 0x60A0 8 = min (2 ^ 64 - 1) (s.onum 0x60A0 8 + 1)) ∧
    (∀ q e, s.mgmt.events.find? (fun e => e.seq == q) = some e → e.sends < 10 → ∃ t, exec (.eventResend q) s = .next t ∧
      t.out = s.out ++ [.event q e.payload] ∧ ∃ f, t.mgmt.events.find? (fun e => e.seq == q) = some f ∧ f.sends = e.sends + 1) ∧
    (∀ id, ∃ t, exec (.sessionIdleTimeout id) s = .next t ∧ Writes [.mgmt] s t ∧
      t.mgmt.sessions = s.mgmt.sessions.filter (fun y => y.id != id)) ∧
    ∀ src, ∃ t, exec (.authLockoutExpiry src) s = .next t ∧ Writes [.mgmt] s t ∧ t.mgmt.lockedOut.contains src = false ∧
      ∀ f ∈ t.mgmt.failures, f.1 ≠ src

/-- Writes to a function's BAR0 and to object members outside a Brix message. A function register takes the value; a
doorbell, ENABLE and MB_CONTROL act as their rows do; a misaligned write is a violation. A member takes its value, or keeps
what it holds where a rule refuses the write. A request in the mailbox is taken as a Brix message. -/
def Obligations.RegisterWrites : Prop :=
  ∀ s : State,
    (∀ t o w v, s.tenantOk t = true → s.sys.phase = .ready → s.resetting t = false → (w = 4 ∨ w = 8) →
      let c : Instr := .registerWrite (.bar0 t o w v)
      (o % w ≠ 0 → ∃ u, exec c s = .next u ∧ Writes [.objs] s u ∧
        u.onum (pobj 0x6080 (s.tenantPort t)) 5 = min (2 ^ 64 - 1) (s.onum (pobj 0x6080 (s.tenantPort t)) 5 + 1)) ∧
      (o % w = 0 → o < 0x48 → o ≠ 0x38 → ∃ u, exec c s = .next u ∧ Writes [.host] s u ∧
        (o = 0x10 → (u.fn t).awqBase = regMerge (s.fn t).awqBase o w v) ∧
        (o = 0x18 → (u.fn t).acqBase = regMerge (s.fn t).acqBase o w v) ∧
        (o = 0x20 → (u.fn t).aqSizes = regMerge (s.fn t).aqSizes o w v % 65536) ∧
        (o = 0x28 → (u.fn t).awqIndex = regMerge (s.fn t).awqIndex o w v) ∧
        (o = 0x30 → (u.fn t).acqIndex = regMerge (s.fn t).acqIndex o w v) ∧ (o < 0x10 ∨ o = 0x40 → u.fn t = s.fn t)) ∧
      (o = 0x38 → exec c s = if bitAt v 0 then exec (.aqEnable t) s else exec (.aqDisable t) s) ∧
      (∀ q < 256, o = 0x1000 + 8 * q → exec c s = exec (.wqTailDoorbell t q (v % 2 ^ 32)) s) ∧
      (∀ q < 256, o = 0x1800 + 8 * q → exec c s = exec (.cqHeadDoorbell t q (v % 2 ^ 32)) s) ∧
      (o = 0x4F00 → exec c s = if bitAt v 0 then exec (.mbControlGo t) s else .next s)) ∧
    (∀ i m (b : List Byte) row v, (s.sys.phase = .ready ∨ s.sys.phase = .tripped) → objRow? i m = some row →
      row.ty.take b = some (v, []) →
      (∀ u, s.writeObject i false [(m, v)] = .ok u →
        exec (.registerWrite (.object i m b)) s = .next u.settleReset) ∧
      (∀ e, s.writeObject i false [(m, v)] = .error e → exec (.registerWrite (.object i m b)) s = .next s)) ∧
    (∀ t, s.tenantOk t = true → s.sys.phase = .ready → (s.fn t).resetting = none → (s.fn t).mbBusy = false →
      let u := s.mapFn t (fun (f : FnSt) => { f with mbDone := false })
      let b := (s.fn t).mbRequest.readN 0 (32 + min 1024 (leNat ((s.fn t).mbRequest.readN 10 2)))
      let m := parseBrix (.mailbox t) b
      u.brixTakes (.mailbox t) b none → m.op = opPing → m.payload = [] →
        exec (.mbControlGo t) s = .next (u.brixEnds m none rsOk (oneByte s.sys.state.code)))

/-- The SPDM responder of a physical function whose link is up, and the management port's other traffic. Requests in their
order get the answer of their code, and the responder goes on; one it does not support gets an error and leaves it as it was.
The port answers for its own addresses only. A host's configuration request gets retry status until Basecamp is ready.
Layouts and codes of SPDM are presumed from its standard (log 53). -/
def Obligations.SpdmAndNetwork : Prop :=
  ∀ s : State,
    (∀ port link (p : List Byte), s.spdmServed port link = true → 4 ≤ p.length →
      let f := port % 2 * 4 + link % 4
      let x := s.spdmAt f
      (getLe p 0 1 = 0x10 → ∃ t a, exec (.getVersion port link p) s = .next t ∧ t.out = s.out ++ [.spdm (port % 2) (link % 4) a] ∧
        getLe a 1 1 = 0x04 ∧ (t.spdmAt f).reached = 1 ∧ (t.spdmAt f).setup = p ++ a ∧ Writes [.mgmt, .out] s t) ∧
      (1 ≤ x.reached → getLe p 0 1 = 0x12 ∨ getLe p 0 1 = 0x13 → ∃ t a, exec (.getCapabilities port link p) s = .next t ∧
        t.out = s.out ++ [.spdm (port % 2) (link % 4) a] ∧ getLe a 1 1 = 0x61 ∧
        t.spdmAt f = { x with reached := 2, version := getLe p 0 1, setup := x.setup ++ p ++ a }) ∧
      (2 ≤ x.reached → getLe p 0 1 = x.version → ∃ t a, exec (.negotiateAlgorithms port link p) s = .next t ∧
        t.out = s.out ++ [.spdm (port % 2) (link % 4) a] ∧ getLe a 1 1 = 0x63 ∧
        t.spdmAt f = { x with reached := 3, setup := x.setup ++ p ++ a }) ∧
      (3 ≤ x.reached → getLe p 0 1 = x.version →
        (∃ t a, exec (.getDigests port link p) s = .next t ∧ t.out = s.out ++ [.spdm (port % 2) (link % 4) a] ∧
          getLe a 1 1 = 0x01 ∧ a.drop 4 = sha384 Config.certChain ∧ t.spdmAt f = { x with certs := x.certs ++ p ++ a }) ∧
        (8 ≤ p.length → getLe p 2 1 % 16 = 0 →
          ∃ t a, exec (.getCertificate port link p) s = .next t ∧ t.out = s.out ++ [.spdm (port % 2) (link % 4) a] ∧
            (getLe p 4 2 < Config.certChain.length → getLe a 1 1 = 0x02 ∧ a.drop 8 = sliceB Config.certChain (getLe p 4 2)
              (min (getLe p 6 2) (Config.certChain.length - getLe p 4 2)) ∧
              t.spdmAt f = { x with certs := x.certs ++ p ++ a }) ∧
            (Config.certChain.length ≤ getLe p 4 2 → getLe a 1 1 = 0x7F ∧ t.spdmAt f = x)) ∧
        (36 + spdmContext x.version ≤ p.length → getLe p 2 1 % 16 = 0 → ∃ t a, exec (.challenge port link p) s = .next t ∧
          t.out = s.out ++ [.spdm (port % 2) (link % 4) a] ∧ getLe a 1 1 = 0x03 ∧ t.spdmAt f = { x with certs := [] }) ∧
        (37 + spdmContext x.version ≤ p.length → 1 ≤ getLe p 3 1 → getLe p 3 1 ≤ 8 →
          ∃ t a, exec (.getMeasurements port link p) s = .next t ∧ t.out = s.out ++ [.spdm (port % 2) (link % 4) a] ∧
            getLe a 1 1 = 0x60 ∧ sliceB a 8 (s.spdmBlock (getLe p 3 1)).length = s.spdmBlock (getLe p 3 1) ∧
            (bitAt (getLe p 2 1) 0 = true → t.spdmAt f = { x with measured := [] }))) ∧
      (∃ t a, exec (.spdmUnsupportedRequest port link p) s = .next t ∧ t.out = s.out ++ [.spdm (port % 2) (link % 4) a] ∧
        getLe a 1 1 = 0x7F ∧ getLe a 2 1 = 0x07 ∧ t.spdmAt f = x)) ∧
    (∀ ip, exec (.arp ip) s = .next (if s.portServed = true ∧ ip ≠ 0 ∧ ip = s.onum 0x60A0 2 then
      s.emit (.frame frameArp (fitTo 6 (s.oblob 0x60A0 10) ++ natBe 4 ip)) else s)) ∧
    (∀ a, exec (.neighbourDiscovery a) s = .next (if s.portServed = true ∧ s.ownV6 a = true then
      s.emit (.frame frameNeighbour (a ++ fitTo 6 (s.oblob 0x60A0 10))) else s)) ∧
    (∀ a b, exec (.icmpEcho a b) s = .next (if s.portServed = true ∧
      (if a.length = 4 then beNat a ≠ 0 ∧ beNat a = s.onum 0x60A0 2 else s.ownV6 a = true) then
      s.emit (.frame frameEcho (a ++ b)) else s)) ∧
    exec .otherTraffic s = .next s ∧
    ∀ h < 2, s.host.linksUp.any (fun l => l / 4 == h) = true →
      (s.sys.phase = .ready → exec (.configurationRequest h) s = .next (s.emit (.configServed h))) ∧
      (s.sys.phase = .booting → exec (.configurationRequest h) s = .next (s.emit (.retryStatus h)))

/-- Pins, resets and start-up. PWRGOOD and RST_N lead through reset and the measured boot to Basecamp ready; what flash and
OTP hold survives every reset. What the rows carry and what flash holds at the first start are the model's choice (logs 6 and
48). -/
def Obligations.ResetsAndStartUp : Prop :=
  ∀ s : State,
    (s.sys.pwrgood = false → ∃ t, exec .pwrgoodAssert s = .next t ∧ t.sys.pwrgood = true ∧ t.sys.phase = .inReset ∧
      t.sys.rstN = false ∧ t.sys.highZ = false ∧ t.sys.fanDuty = 300000 ∧
      t.flash = { s.flash with powerCycles := min (2 ^ 32 - 1) (s.flash.powerCycles + 1) } ∧ Writes [.sys, .flash] s t) ∧
    (s.sys.pwrgood = true →
      (∃ t, exec .pwrgoodDeassert s = .next t ∧ t.sys.pwrgood = false ∧ t.sys.phase = .off ∧ t.sys.highZ = true ∧
        t.out = s.out ++ [.highZ] ∧ t.flash = s.flash ∧ t.mem = [] ∧ t.routes = [] ∧ t.objs = []) ∧
      (∃ t, exec .deviceReset s = .next t ∧ t.sys.phase = .inReset ∧ t.sys.rstN = false ∧ t.flash = s.flash ∧ t.mem = [] ∧
        t.routes = [] ∧ t.objs = [] ∧ t.err = ErrSt.reset ∧
        t.out = if s.sys.tickOut then s.out ++ [.tickOut false] else s.out)) ∧
    (s.sys.phase = .inReset → s.sys.pwrgood = true →
      (∀ k b, s.flash.validGen = some k → s.flash.boot (s.flash.gen k) = some b → ∃ t, exec .rstNRelease s = .next t ∧
        t.sys.phase = .booting ∧ t.sys.rstN = true ∧ t.sys.bootRetreat = b.retreat ∧ t.mgmt.activeGen = some k ∧
        t.mgmt.bootSlot = b.slot ∧ t.mgmt.meas = b.meas ∧ t.mgmt.policyResult = b.policy) ∧
      (s.flash.slotA.readable = false → s.flash.slotB.readable = false → ∃ t, exec .rstNRelease s = .next t ∧
        t.sys.phase = .stopped ∧ t.host = s.host)) ∧
    (s.sys.phase = .booting → s.oflag 0x7000 9 = false → ∃ t, exec .basecampReady s = .next t ∧ t.sys.phase = .ready ∧
      t.sys.state = .configuration ∧
      (s.dram.dimmsAlike = true → t.onum 0x5000 5 = 1 ∧ ∀ ch < 16, t.chanState ch = .training) ∧
      (s.sys.bootRetreat = true → bitAt t.sys.heldCauses causeMeasurement = true))

/-- Device states on request, and the ridges' marks. That FORM carries the count and ID, and the cases where bivouac is
refused, are the model's choice (log 48). -/
def Obligations.DeviceStates : Prop :=
  ∀ s : State,
    (∀ count id, s.sys.state = .configuration → s.sys.phase = .ready → countOk count = true → id < count →
      (s.formFault = none → ∃ t, exec (.form count id) s = .next t ∧ t.sys.state = .forming ∧ t.sys.deviceCount = count ∧
        t.sys.deviceId = id) ∧
      (s.formFault ≠ none → exec (.form count id) s = .next s)) ∧
    (∀ count id, s.sys.state = .bivouac → s.sys.phase = .ready → ∃ t, exec (.form count id) s = .next t ∧
      t.sys.state = .forming ∧ t.onum 0x5000 5 = 2) ∧
    (∀ (r : FormationReport) (u : State),
      let me := s.identity r.seesTickIn
      let ids := sortBy (fun (a b : PeerIdentity) => decide (a.device < b.device)) (me :: r.peers)
      s.sys.state = .forming → (∀ p ∈ r.peers, identityAgrees me p = true) →
      ids.map (fun p => p.device) = List.range s.sys.deviceCount → s.onum 0x5000 5 = 3 →
      (∀ p < 4, (portDim s.sys.deviceCount p).isSome = true → (s.port p).mode = .active) → s.layMemory = some u →
      ∃ t, exec (.formationComplete r) s = .next t ∧ t.sys.formed = true ∧
        (16 ≤ s.flash.healthyRidges.length → s.sys.heldCauses = 0 → s.tjNow < 10500 → t.sys.state = .operational ∧
          t.pitch.running = true ∧ t.pitch.master = (pickMaster s.sys.deviceId ids).1 ∧
          t.sys.ridgeMap = s.flash.healthyRidges.take 16) ∧
        (s.flash.healthyRidges.length < 16 → t.sys.state = .retreat)) ∧
    (s.sys.state = .operational → s.inTransition = false → s.openRoutes = 0 → s.enginesQuiet = true →
      (s.routes.all (fun r => s.isHome r.key || !r.span.isSome) = true → ∃ t, exec .returnToConfiguration s = .next t ∧
        t.sys.state = .configuration ∧ t.pitch.running = false ∧ t.coh.silent = true) ∧
      (s.cairn.listAt = [] → s.sys.deviceCount = 1 ∨ s.onum 0x7000 11 ≠ 0 → exec .bivouacRequest s = .next { s with sys := { s.sys with
        bivouacArmed := some (if s.sys.deviceCount = 1 then s.pitch.number + 1
          else max (s.onum 0x7000 11) (s.pitch.number + 1)) } })) ∧
    (s.bivouacDue = true →
      let w := if s.sweepAll.quietNow then s.sweepAll.endPeers else s.sweepAll
      (∀ u, w.bivouacPack s.retainedRanks = some u → ∃ t, exec .bivouacEntry s = .next t ∧ t.sys.state = .bivouac ∧
        t.pitch.running = false ∧ t.strands = [] ∧ t.routes = [] ∧ t.dram.retained = s.retainedRanks) ∧
      (w.bivouacPack s.retainedRanks = none → ∃ t, exec .bivouacEntry s = .next t ∧ t.sys.bivouacArmed = none ∧
        t.sys.state = w.sys.state)) ∧
    (s.sys.state = .operational ∨ s.sys.state = .forming → s.inTransition = false → ∃ t, exec .retreatRequest s = .next t ∧
      t.sys.state = .retreat) ∧
    (s.sys.state = .retreat → s.inTransition = false →
      (∀ b < 8, bitAt (s.onum 0x7010 1) b = true → s.causeAllows b = true) → ∃ t, exec .retreatExit s = .next t ∧
        t.sys.exiting = true ∧ t.sys.crnOff = false) ∧
    (∀ p < 17, (∃ t, exec (.ridgeRetire p) s = .next t ∧ t.flash.ridgeMarks.contains p = true ∧
        (s.pitch.running = true → s.inService p = true → t.sys.retireAsked.contains p = true) ∧ Writes [.sys, .flash] s t) ∧
      ∃ t, exec (.ridgeUnretire p) s = .next t ∧ t.flash.ridgeMarks.contains p = false ∧
        t.sys.retireAsked.contains p = false ∧ Writes [.sys, .flash] s t)

/-- Temperature, rails and life counts. THERM_N follows the hottest sensor with its hysteresis, and at 105 degrees an
operational device is in retreat; a trip or an undervoltage cuts the power of every domain but one, and flash keeps what it
holds. A rail at its current limit holds tasks back until it falls. TICK_OUT falls. How samples count into minutes is the
model's choice (log 50). -/
def Obligations.PowerAndThermal : Prop :=
  ∀ s : State,
    (∀ c : List Int, s.sys.phase ≠ .off → ∃ t, exec (.thermalSample c) s = .next t ∧
      t.power.tj = s.power.tj.zipIdx.map (fun p => c.getD p.2 p.1) ∧ t.power.tjSamples = s.power.tjSamples + 1 ∧
      t.power.tjSum = s.power.tjSum + t.tjNow ∧
      (10500 ≤ t.tjNow → s.sys.phase = .ready → s.sys.state = .operational → t.sys.state = .retreat) ∧
      (s.sys.phase ≠ .tripped → (10000 ≤ t.tjNow → t.sys.thermLow = true) ∧ (t.tjNow ≤ 9700 → t.sys.thermLow = false) ∧
        (9700 < t.tjNow → t.tjNow < 10000 → t.sys.thermLow = s.sys.thermLow))) ∧
    (s.sys.phase ≠ .off → s.sys.phase ≠ .tripped → ∀ c ∈ (.thermalTrip :: (List.range 6).map Instr.railUndervoltage : List Instr),
      ∃ t, exec c s = .next t ∧ t.sys.phase = .tripped ∧ t.sys.state = .retreat ∧ t.sys.thermLow = true ∧
        t.sys.fanDuty = 300000 ∧ t.mem = [] ∧ t.routes = [] ∧ t.strands = [] ∧ t.flash = s.flash ∧
        bitAt (t.onum 0x7010 1) causeFatal = true ∧ t.onum 0x5000 5 = 0) ∧
    (∀ rail ≤ 6, (∃ t, exec (.railCurrentLimit rail) s = .next t ∧ rail ∈ t.sched.railsHeld ∧ Writes [.sched] s t) ∧
      ∃ t, exec (.railCurrentFall rail) s = .next t ∧ rail ∉ t.sched.railsHeld ∧ Writes [.sched] s t) ∧
    (s.sys.phase ≠ .off → ∃ t, exec .lifeObjectsSave s = .next t ∧
      t.flash.poweredHours = min (2 ^ 32 - 1) (s.flash.poweredHours + 1) ∧ t.power.tjSamples = 0 ∧
      t.flash.minutesAbove95 = s.flash.minutesAbove95 + s.power.samplesAbove95 / samplesPerMinute ∧
      Writes [.flash, .power] s t) ∧
    (s.sys.tickOut = true → ∃ t, exec .tickOutFall s = .next t ∧ t.sys.tickOut = false ∧ t.out = s.out ++ [.tickOut false])

/-- Faults of hardware that no row of the table names come with RESOURCE_FAILURE, which is the model's choice (log 62). A
corrected error of a strand's registers is counted and recorded. An error that a lookup meets in a cache array: one of a bit,
or of a tag that is right when read again, is recorded; one in a clean line, or in an L1I, takes the line out of the array,
with the notice that a peer's line owes its home;
one of two bits in a dirty line of this device poisons it in memory; a tag that fails twice fences its way where no span is
open, and leaves every open span replaying. A flipped bit of a Cairn row makes its parity fail. Flipped symbols of a line,
or of one of its two copies under mirroring, change its codeword, and nothing else where the codeword still decodes to the line's bytes or to none. An uncorrectable error
of a tenant's Depot map entries resets the tenant; one of the device's map or of Basecamp's memory sends an operational device
to retreat (R176, R268, R308, R432, R447). -/
def Obligations.HardwareFaults : Prop :=
  (∀ (s : State) (p k : Nat), p ≤ 16 → k ≤ 8 → s.inService p = true →
    ∃ t, exec (.resourceFailure (.registers p k)) s = .next t ∧ t.err.nextSeq = (s.err.nextSeq + 1) % 65536 ∧
      t.onum (robj 0xA004 p) 4 = min (2 ^ 64 - 1) (s.onum (robj 0xA004 p) 4 + 1) ∧ Writes [.objs, .err, .mgmt, .out] s t) ∧
  (∀ (s : State) (a : CacheArray) (l i : Nat), arrayKnown a = true → wayOf (s.arrayWays a l) l = some i →
    let code : Bool := match a with
      | .l1i _ _ => true
      | _ => false
    let dirty := ((s.arrayWays a l).getD i invalidWay).dirty
    (∀ e ∈ [ArrayError.single, ArrayError.tagOnce], code = false → ∃ t, exec (.resourceFailure (.array a l e)) s = .next t ∧
      t.err.nextSeq = (s.err.nextSeq + 1) % 65536 ∧ Writes [.objs, .err, .mgmt, .out] s t) ∧
    (∀ e, code = true ∨ e = .double ∧ dirty = false → ∃ t, exec (.resourceFailure (.array a l e)) s = .next t ∧
      t.err.nextSeq = (s.err.nextSeq + 1) % 65536 ∧ ((t.arrayWays a l).getD i invalidWay).state = .I ∧
      Writes [.objs, .cache, .coh, .link, .err, .mgmt, .out] s t) ∧
    (code = false → dirty = true → lineDev l = s.sys.deviceId →
      ∃ t, exec (.resourceFailure (.array a l .double)) s = .next t ∧ t.err.nextSeq = (s.err.nextSeq + 1) % 65536 ∧
        (t.dram.poisoned.find l).isSome = true ∧ ((t.arrayWays a l).getD i invalidWay).state = .I ∧ t.mem = s.mem) ∧
    (code = false → ∃ t, exec (.resourceFailure (.array a l .tagTwice)) s = .next t ∧ t.mem = s.mem ∧
      ((∀ r ∈ s.routes, r.span = none) → ((t.arrayWays a l).getD i invalidWay).fenced = true) ∧
      ∀ k r sp, t.route? k = some r → r.span = some sp → sp.replaying = true)) ∧
  (∀ (s : State) (q b row bit : Nat) (r : BitVec 94), q < 16 → b < 4 → bit < 94 →
    (s.bank (bankKey q b)).rows.find row = some r → parityOk r = true →
    ∃ t, exec (.resourceFailure (.cairnRow q b row bit)) s = .next t ∧ (t.bank (bankKey q b)).rowBad row = true ∧
      Writes [.cairn] s t) ∧
  (∀ (s : State) (l : Nat) (mirror : Bool) (d c : List Byte), lineDev l = s.sys.deviceId → l % 64 = 0 →
    s.lineBacked l = true → (mirror = true → s.twoCopies l = true) →
    let m := mirror.toNat
    let w := (xorB (s.copyWord l m).1 (fitTo 64 d), xorB (s.copyWord l m).2 (fitTo (checkLen l) c))
    (∀ x f, codeFate (s.erasedSyms l m) w.1 w.2 = .good x f → x = s.lineRead l) →
    ∃ t, exec (.resourceFailure (.memory l mirror d c)) s = .next t ∧ t.copyWord l m = w ∧ Writes [.dram] s t) ∧
  ∀ s : State,
    (∀ n < 32, s.resetting n = false → ∃ t, exec (.resourceFailure (.depotMap (some n))) s = .next t ∧
      t.resetting n = true) ∧
    (s.sys.state = .operational → ∀ r ∈ [Resource.depotMap none, Resource.basecamp],
      ∃ t, exec (.resourceFailure r) s = .next t ∧ t.sys.state = .retreat)

/-- Rows whose own effect runs under conditions of the state and the operands alone, row by row: a replayed span starts again
and a stalled request goes on; a cleared page leaves the zeroing queue; a suspension past its limit ends its route; a
migration's copy is noted, or its new page is given back; a merge takes its entries, and a publication takes its pages or
ends; tasks start, end and seal; Cairn passes and cache operations act on what they name; coherence messages reach the
operation of their opcode at the home, the holder or the requester; service messages reach theirs. -/
def Obligations.BlockRowsComplete : Prop :=
  ∀ s : State,
    (∀ k r sp, s.route? k = some r → r.span = some sp →
      (sp.replaying = true → r.conditions = [] →
        let before := (List.range (s.pitch.number - sp.openPitch)).map (fun i => sp.openPitch + i)
        let sp' : Span := { sp with
          replaying := false, sources := s.spanSources r sp.q, handedOut := [], releasedRopes := [], verdict := none
          allocated := [], freed := [], searched := [], merged := before, doneByC := false, held := false }
        let u := (s.updRoute k (fun r => { r with span := some sp' })).startTasks k
        exec (.spanRestart k) s = .next (if u.routes.any (fun r => (r.span.map (fun x => x.replaying)).getD false) then u
          else u.closeHandling .atReplay)) ∧
      ∀ n, s.isHome k = true → sp.replaying = false → sp.openPitch ≤ n → sp.merged.contains n = false →
        sp.mergedBefore n = true → s.mergeReady r n = true →
        let es := sortBy entryLt (s.closedEntries n (fun e => e.key == k))
        (es = [] → exec (.summitMerge k n) s = .next (s.appendEntries k n [])) ∧
        ∀ o u v, es ≠ [] → s.stagingRoom k es.length = .ok o u → u.storeChains o r.work.staged es = some v →
          exec (.summitMerge k n) s =
            .next ((v.settleAsk k.tenant k.id (fun c => c == clsStaging)).appendEntries k n es)) ∧
    (∀ m x, s.depot.stalled = [m] → s.coh.open_.find? (fun t => t.line == m.line && t.req == m && t.waiting.isEmpty) = some x →
      s.needsRecord m.line = false → exec .journalStallRelease s =
        .next (({ s with depot := { s.depot with stalled := [] } } : State).restartReq m x).drainStrands) ∧
    (s.depot.pageAsks = [] → ∀ z rest, s.depot.zeroQueue = z :: rest →
      let base := s.sys.deviceId * 2 ^ 44 + (if z.tier = 0 then 2 ^ 43 else 0) + z.addr
      exec .zeroPageCleared s = .next { s with
        depot := { s.depot with zeroQueue := rest }
        dram := { s.dram with
          poisoned := s.dram.poisoned.filter (fun q => decide (q.1 < base) || decide (base + z.size ≤ q.1))
          raw := s.dram.raw.filter (fun q => decide (q.1 < base) || decide (base + z.size ≤ q.1)) } }) ∧
    (∀ page, exec (.migrationCopyDone page) s = .next { s with depot := { s.depot with
        migrations := s.depot.migrations.map (fun m => if m.page = page then { m with copied := true } else m) } }) ∧
    (∀ page m, s.depot.migrations.find? (fun m => m.page == page) = some m → 4 ≤ m.tries → exec (.migrationAbandon page) s =
      .next (({ s with depot := { s.depot with
        migrations := s.depot.migrations.filter (fun m => m.page != page)
        zeroQueue := s.depot.zeroQueue ++ [{ tier := m.toTier, addr := m.toAddr
                                             size := ((s.depot.pages.find page).map (fun p => p.size)).getD 0 }] } } :
        State).oinc 0x4002 3 1)) ∧
    (∀ k r, s.route? k = some r →
      (∀ x, r.suspended = some x → s.isHome k = true → x.tick + s.onum 0x4000 6 ≤ s.pitch.number →
        exec (.suspendLimitExpiry k) s = .next (s.endRoute k stDepotFull (s.pitch.number - 1) (s.writesFinal k))) ∧
      ∀ p, r.publish = some p →
        (p.paused = none → p.lacks = false → p.doneAt = none → exec (.publicationDone k) s =
          .next (s.updRoute k (fun r => { r with publish := some { p with doneAt := some s.now } }))) ∧
        ∀ u p', p.paused.isSome = true ∨ p.lacks = true → s.publishPages k p = (u, p', none) →
          exec (.publicationResume k) s =
            .next (u.updRoute k (fun r => { r with publish := some { p' with paused := none, lacks := false } }))) ∧
    (∀ ridge u ctx x s' r ts s2, s.sys.state = .operational → s.freeCtx ridge u = some ctx → s.pickTask ridge u = some (x, s') →
      s.sched.railsHeld = [] → s.route? x.key = some r → (s'.performTask r x ctx).traffic s' r x = .ok ts s2 →
      exec (.taskDispatch ridge u) s = .next (((({ s2 with sched := { s2.sched with
        ready := s2.sched.ready.erase x
        running := s2.sched.running ++ [{ ridge := x.ridge, unit := u, ctx := ctx, task := x, outputs := ts }] } } :
        State).settleAsk x.key.tenant x.key.id (fun _ => true)).logTask x u 0x2).fillSources.pumpOutbound)) ∧
    (∀ ridge u ctx r, s.running? ridge u ctx = some r → s.roomFor r.outputs = true → u ≠ .scn →
      (u = .strand → (s.strand ridge ctx).task = none) → exec (.taskDone ridge u ctx) s =
        .next ((((r.outputs.foldl State.pushTask ((s.countStalls (fun y => y.ridge == ridge && y.unit == u &&
          y.ctx == ctx)).endRunning ridge u ctx)).releaseInput r.task).logTask r.task u 0x3).readySeals
          r.task.key).fillSources) ∧
    (∀ k stage ridge c,
      s.nextIs ridge .jnu { key := k, stage := stage, ridge := ridge, input := .sealBuild, seq := 0 } = some c →
      exec (.joinSeal k stage ridge) s = .next (((s.dispatch ridge .jnu).finishTask ridge .jnu c).fillSources)) ∧
    (s.lostRows = [] → exec .paritySweep s = .next s.paritySweep.ackDone) ∧
    (exec .shadowScrub s = .next (s.ownedBanks.foldl State.scrubBank s)) ∧
    (∀ k, s.ownedBanks = [k] →
      (s.scrubRows k = [] → exec .shadowScrub s = .next (s.setBank k { s.bank k with lastScrub := s.now })) ∧
      ∀ row, s.scrubRows k = [row] → exec .shadowScrub s = .next (s.scrubRow k row)) ∧
    (∀ p ∈ ([(.clean, 1), (.inval, 2), (.cleaninval, 3)] : List (Instr × Nat)), ∀ w,
      let c := s.onum 0xF010 1
      s.cache.cmoBusy = true → cmoOp c = p.2 → s.coh.requests.any (fun r => r.purpose == .maint) = false →
      cmoSetWay c = true → s.cmoTarget c = some w → s.lineMoving w.line = false →
      exec p.1 s = .next (s.cmoBySet c w).cmoDone) ∧
    (∀ c : CacheSel, cacheKnown c = true →
      (s.cacheState (cacheKey c) = .enabled →
        exec (.cacheDisable c) s = .next ((s.setEnable c false).setCacheState c .disabling)) ∧
      (s.cacheState (cacheKey c) ≠ .enabled →
        exec (.cacheEnable c) s = .next ((s.setEnable c true).setCacheState c .enabled))) ∧
    (∀ r ≤ 16, s.cacheState (cacheKey (.l2 r)) = .disabling →
      exec (.cacheSweepDone (.l2 r)) s = .next ((s.sweepL2 r).setCacheState (.l2 r) .disabled)) ∧
    (∀ q ≤ 3, s.cacheState (cacheKey (.slc q)) = .disabling →
      exec (.cacheSweepDone (.slc q)) s = .next ((s.sweepSlc q).setCacheState (.slc q) .disabled)) ∧
    (∀ m : CohMsg, s.cohFault m = none → agentDev m.dst = s.sys.deviceId → s.coh.dead.contains (agentDev m.src) = false →
      (agentDev m.src = s.sys.deviceId → s.coh.fencedL2.contains (agentLoc m.src) = false) →
      (∀ p ∈ ([(.rdShared m, opRdShared), (.rdOwn m, opRdOwn), (.upgrade m, opUpgrade), (.rdNc m, opRdNc), (.wrNc m, opWrNc),
          (.cmoClean m, opCmoClean), (.cmoCleaninval m, opCmoCleanInval), (.cmoInval m, opCmoInval)] : List (Instr × Nat)),
        m.op = p.2 → m.tokenValid = false → s.lineBusy m.line = false → s.trackersUsed (agentLoc m.dst) < 256 →
        exec p.1 s = .next (s.startReq m)) ∧
      (∀ p ∈ ([(.snpShared m, opSnpShared), (.snpInv m, opSnpInv), (.snpData m, opSnpData), (.snpClean m, opSnpClean),
          (.fwdShared m, opFwdShared), (.fwdOwn m, opFwdOwn), (.snpDiscard m, opSnpDiscard), (.gangRd m, opGangRd),
          (.gangOwn m, opGangOwn)] : List (Instr × Nat)),
        m.op = p.2 → s.coh.requests.any (fun r => r.msg.src == m.dst && r.msg.line == m.line) = false →
        s.coh.heldSnoops.any (fun x => x.2.dst == m.dst && x.2.line == m.line) = false →
        exec p.1 s = .next (s.answerSnoop m)) ∧
      (∀ p ∈ ([(.cohAck m, opAck), (.ackLost m, opAckLost), (.snpDataRsp m, opSnpDataRsp), (.ownerMoved m, opOwnerMoved)] :
          List (Instr × Nat)), m.op = p.2 → (s.txnFor m).isSome = true → exec p.1 s = .next (s.homeAnswer m)) ∧
      (m.op = opWbDirty → (s.dirEnt m.line).owner = m.src → (s.dirEnt m.line).state = .M → exec (.wbDirty m) s =
        .next (s.homeWb m)) ∧
      (m.op = opEvictClean → exec (.evictClean m) s =
        .next ((s.setDir m.line ((s.dirEnt m.line).release s.sys.deviceId m.src)).ackWb m)) ∧
      (m.op = opPdSet → exec (.pdSet m) s = .next ((s.setPd m.line).ackWb m)) ∧
      (m.op = opTokenReturn → exec (.tokenReturn m) s =
        .next ((s.dropToken m.dst m.src m.token).grantTokens (agentLoc m.dst) s.coh.tokens.length)) ∧
      (m.op = opWbAck → s.pitch.cutoffDone = false → exec (.wbAck m) s = .next { s with coh := { s.coh with
        wbBuf := s.coh.wbBuf.filter (fun w => !(w.agent == m.dst && w.txn == m.txn)) } }) ∧
      (m.op = opRetry → exec (.cohRetry m) s = .next { s with coh := { s.coh with
        requests := s.coh.requests.map (fun (r : OpenReq) =>
          if r.msg.src = m.dst ∧ r.msg.txn = m.txn then { r with token := some m.token, sent := false } else r) } }) ∧
      (m.op = opGrant → ∀ r, s.coh.requests.find? (fun r => r.msg.src == m.dst && r.msg.dst == m.src && r.token == some m.token)
          = some r → s.wanted r = true → exec (.cohGrant m) s =
        .next ((({ s with coh := { s.coh with requests := (s.coh.requests.map (fun (x : OpenReq) =>
          if x.msg.src = r.msg.src ∧ x.msg.dst = r.msg.dst ∧ x.token = r.token ∧ x.msg.txn ≠ r.msg.txn then
            { x with token := none, sent := false } else x)).map (fun (x : OpenReq) =>
          if x.msg.src = r.msg.src ∧ x.msg.txn = r.msg.txn then { x with token := none, sent := true } else x) } } :
          State).sendCoh { r.msg with tokenValid := true, token := m.token }).sendHeldReqs r.msg.src r.msg.dst)) ∧
      ∀ r, s.reqFor m = some r → r.held = [] →
        (m.op = opData → r.purpose = .unit → exec (.cohData m) s =
          .next ((s.dropReq r).bufferLine r.msg.line (if m.poison then stPoisonRead else stOk) (fitTo 64 m.data))) ∧
        ∀ a, m.op = opCmp → r.purpose = .cxl a → r.msg.op = opWrNc → exec (.cohCmp m) s =
          .next ((s.dropReq r).emit (.cxlDone a)).pumpOutbound) ∧
    ∀ m : SvcMsg, s.svcOk m = true → m.dest = s.sys.deviceId → s.coh.dead.contains m.source = false →
      (m.op = svRouteOpen → s.route? { tenant := m.tenant, id := m.route, home := m.source } = none →
        exec (.routeOpen m) s = .next (s.svcRouteOpen m)) ∧
      (m.op = svRouteEnd → exec (.routeEnd m) s = .next (s.svcRouteEnd m)) ∧
      (m.op = svPageAlloc → s.behindAsk m = false → s.mustClear m = false → exec (.pageAlloc m) s = .next (s.answerAlloc m)) ∧
      (∀ a u, m.op = svPageGrant → s.takeAsked m.source svPageAlloc = some (a, u) → a.outId = none →
        exec (.pageGrant m) s = .next { u with depot := { u.depot with granted := u.depot.granted ++
          [{ device := m.source, tenant := a.tenant, route := a.route, cls := a.cls
             line := if m.arg = 0 then 0 else m.slot1 }] } }) ∧
      (m.op = svQuotaDraw → s.behindAsk m = false → m.arg * quotaBlock ≤ s.depotQuota m.tenant - s.depotUsed m.tenant → m.arg ≠ 0 →
        exec (.quotaDraw m) s = .next (({ s with depot := { s.depot with
          lent := s.depot.lent.put m.tenant ((s.depot.lent.find m.tenant).getD 0 + m.arg) } } : State).sendSvc svQuotaGrant m.source
          m.tenant m.route m.arg 0 0)) ∧
      (∀ a u, m.op = svQuotaGrant → s.takeAsked m.source svQuotaDraw = some (a, u) → m.arg ≠ 0 →
        let k := drawKey a.tenant m.source
        exec (.quotaGrant m) s = .next { u with depot := { u.depot with
          drawn := u.depot.drawn.put k ((u.depot.drawn.find k).getD 0 + m.arg) } }) ∧
      (m.op = svQuotaReturn → m.arg < (s.depot.lent.find m.tenant).getD 0 → exec (.quotaReturn m) s =
        .next { s with depot := { s.depot with
          lent := s.depot.lent.put m.tenant ((s.depot.lent.find m.tenant).getD 0 - m.arg) } }) ∧
      (∀ r, m.op = svRopeNotice → s.svcRoute m = some r → r.span.map (fun sp => sp.openPitch) = some (m.slot1 % 2 ^ 64) →
        (s.delivered m r.key m.arg).isSome = true → exec (.ropeNotice m) s = .next (s.svcRopeNotice m)) ∧
      (m.op = svSummitEntry →
        (s.route? { tenant := fld m.slot1 31 27, id := fld m.slot1 63 32, home := s.sys.deviceId }).isSome = true →
        exec (.summitEntry m) s = .next (s.svcSummitEntry m)) ∧
      (m.op = svSummitClose →
        let b := s.slot (64 + m.source)
        let u := s.setSlot (64 + m.source) (b.1.swap m.arg, b.2.swap m.arg)
        exec (.summitClose m) s = .next { u with summit := { u.summit with closes := u.summit.closes ++ [(m.source, m.arg)] } })

end
end

