-- ==== Sys2Proof/Laws/Exec.lean ====
section
/-! SUPPORT. Each command runs its own meaning: one equation per constructor, so that no proof unfolds exec. -/
namespace Sys2Proof.Machine
open Sys2Proof

@[simp] theorem exec_tick (powerMw : Nat) (s : State) :
    exec (.tick powerMw) s = execTick powerMw s := rfl
@[simp] theorem exec_cutoff (s : State) :
    exec (.cutoff) s = execCutoff s := rfl
@[simp] theorem exec_decision (s : State) :
    exec (.decision) s = execDecision s := rfl
@[simp] theorem exec_tickInEdge (s : State) :
    exec (.tickInEdge) s = execTickInEdge s := rfl
@[simp] theorem exec_tickInMiss (s : State) :
    exec (.tickInMiss) s = execTickInMiss s := rfl
@[simp] theorem exec_tickMarker (port : Nat) (master : Nat) (source : Nat) (elapsed : Nat) (pitch : Nat) (s : State) :
    exec (.tickMarker port master source elapsed pitch) s = execTickMarker port master source elapsed pitch s := rfl
@[simp] theorem exec_belayAck (a : BelayAck) (s : State) :
    exec (.belayAck a) s = execBelayAck a s := rfl
@[simp] theorem exec_resourceFailure (r : Resource) (s : State) :
    exec (.resourceFailure r) s = execResourceFailure r s := rfl
@[simp] theorem exec_spanRestart (k : RouteKey) (s : State) :
    exec (.spanRestart k) s = execSpanRestart k s := rfl
@[simp] theorem exec_journalStallRelease (s : State) :
    exec (.journalStallRelease) s = execJournalStallRelease s := rfl
@[simp] theorem exec_wqTailDoorbell (tenant : Nat) (qid : Nat) (value : Nat) (s : State) :
    exec (.wqTailDoorbell tenant qid value) s = execWqTailDoorbell tenant qid value s := rfl
@[simp] theorem exec_cqHeadDoorbell (tenant : Nat) (qid : Nat) (value : Nat) (s : State) :
    exec (.cqHeadDoorbell tenant qid value) s = execCqHeadDoorbell tenant qid value s := rfl
@[simp] theorem exec_fetchEntry (s : State) :
    exec (.fetchEntry) s = execFetchEntry s := rfl
@[simp] theorem exec_wqStallTimeout (tenant : Nat) (qid : Nat) (s : State) :
    exec (.wqStallTimeout tenant qid) s = execWqStallTimeout tenant qid s := rfl
@[simp] theorem exec_submitRoute (e : Entry) (s : State) :
    exec (.submitRoute e) s = execSubmitRoute e s := rfl
@[simp] theorem exec_createWq (e : Entry) (s : State) :
    exec (.createWq e) s = execCreateWq e s := rfl
@[simp] theorem exec_deleteWq (e : Entry) (s : State) :
    exec (.deleteWq e) s = execDeleteWq e s := rfl
@[simp] theorem exec_createCq (e : Entry) (s : State) :
    exec (.createCq e) s = execCreateCq e s := rfl
@[simp] theorem exec_deleteCq (e : Entry) (s : State) :
    exec (.deleteCq e) s = execDeleteCq e s := rfl
@[simp] theorem exec_setQuota (e : Entry) (s : State) :
    exec (.setQuota e) s = execSetQuota e s := rfl
@[simp] theorem exec_grantSpill (e : Entry) (s : State) :
    exec (.grantSpill e) s = execGrantSpill e s := rfl
@[simp] theorem exec_revokeSpill (e : Entry) (s : State) :
    exec (.revokeSpill e) s = execRevokeSpill e s := rfl
@[simp] theorem exec_openOutput (e : Entry) (s : State) :
    exec (.openOutput e) s = execOpenOutput e s := rfl
@[simp] theorem exec_closeOutput (e : Entry) (s : State) :
    exec (.closeOutput e) s = execCloseOutput e s := rfl
@[simp] theorem exec_setWeight (e : Entry) (s : State) :
    exec (.setWeight e) s = execSetWeight e s := rfl
@[simp] theorem exec_logStart (e : Entry) (s : State) :
    exec (.logStart e) s = execLogStart e s := rfl
@[simp] theorem exec_logStop (e : Entry) (s : State) :
    exec (.logStop e) s = execLogStop e s := rfl
@[simp] theorem exec_getLogErrorRecords (e : Entry) (s : State) :
    exec (.getLogErrorRecords e) s = execGetLogErrorRecords e s := rfl
@[simp] theorem exec_getLogCounters (e : Entry) (s : State) :
    exec (.getLogCounters e) s = execGetLogCounters e s := rfl
@[simp] theorem exec_getLogOpenRoutes (e : Entry) (s : State) :
    exec (.getLogOpenRoutes e) s = execGetLogOpenRoutes e s := rfl
@[simp] theorem exec_abortRoute (e : Entry) (s : State) :
    exec (.abortRoute e) s = execAbortRoute e s := rfl
@[simp] theorem exec_loadCairn (e : Entry) (s : State) :
    exec (.loadCairn e) s = execLoadCairn e s := rfl
@[simp] theorem exec_aqEnable (tenant : Nat) (s : State) :
    exec (.aqEnable tenant) s = execAqEnable tenant s := rfl
@[simp] theorem exec_aqDisable (tenant : Nat) (s : State) :
    exec (.aqDisable tenant) s = execAqDisable tenant s := rfl
@[simp] theorem exec_mbControlGo (tenant : Nat) (s : State) :
    exec (.mbControlGo tenant) s = execMbControlGo tenant s := rfl
@[simp] theorem exec_registerWrite (w : RegWrite) (s : State) :
    exec (.registerWrite w) s = execRegisterWrite w s := rfl
@[simp] theorem exec_msixCoalesceTimeout (tenant : Nat) (qid : Nat) (s : State) :
    exec (.msixCoalesceTimeout tenant qid) s = execMsixCoalesceTimeout tenant qid s := rfl
@[simp] theorem exec_functionLevelReset (tenant : Nat) (s : State) :
    exec (.functionLevelReset tenant) s = execFunctionLevelReset tenant s := rfl
@[simp] theorem exec_managementReset (tenant : Nat) (s : State) :
    exec (.managementReset tenant) s = execManagementReset tenant s := rfl
@[simp] theorem exec_tenantResetComplete (tenant : Nat) (s : State) :
    exec (.tenantResetComplete tenant) s = execTenantResetComplete tenant s := rfl
@[simp] theorem exec_hostPortReset (port : Nat) (s : State) :
    exec (.hostPortReset port) s = execHostPortReset port s := rfl
@[simp] theorem exec_perstNRelease (port : Nat) (s : State) :
    exec (.perstNRelease port) s = execPerstNRelease port s := rfl
@[simp] theorem exec_malformedTlp (port : Nat) (link : Nat) (s : State) :
    exec (.malformedTlp port link) s = execMalformedTlp port link s := rfl
@[simp] theorem exec_hostReadCompletion (tenant : Nat) (addr : Nat) (r : HostReadResult) (s : State) :
    exec (.hostReadCompletion tenant addr r) s = execHostReadCompletion tenant addr r s := rfl
@[simp] theorem exec_cxlMemRead (addr : Nat) (s : State) :
    exec (.cxlMemRead addr) s = execCxlMemRead addr s := rfl
@[simp] theorem exec_cxlMemWrite (addr : Nat) (data : List Byte) (s : State) :
    exec (.cxlMemWrite addr data) s = execCxlMemWrite addr data s := rfl
@[simp] theorem exec_cxlMemPartialWrite (addr : Nat) (mask : Nat) (data : List Byte) (s : State) :
    exec (.cxlMemPartialWrite addr mask data) s = execCxlMemPartialWrite addr mask data s := rfl
@[simp] theorem exec_memspecrd (addr : Nat) (s : State) :
    exec (.memspecrd addr) s = execMemspecrd addr s := rfl
@[simp] theorem exec_cxlOtherM2s (expectsData : Bool) (s : State) :
    exec (.cxlOtherM2s expectsData) s = execCxlOtherM2s expectsData s := rfl
@[simp] theorem exec_dmaCopy (e : Entry) (s : State) :
    exec (.dmaCopy e) s = execDmaCopy e s := rfl
@[simp] theorem exec_compress (e : Entry) (s : State) :
    exec (.compress e) s = execCompress e s := rfl
@[simp] theorem exec_decompress (e : Entry) (s : State) :
    exec (.decompress e) s = execDecompress e s := rfl
@[simp] theorem exec_digestOpen (e : Entry) (s : State) :
    exec (.digestOpen e) s = execDigestOpen e s := rfl
@[simp] theorem exec_digestFeed (e : Entry) (s : State) :
    exec (.digestFeed e) s = execDigestFeed e s := rfl
@[simp] theorem exec_digestRead (e : Entry) (s : State) :
    exec (.digestRead e) s = execDigestRead e s := rfl
@[simp] theorem exec_dmaStop (e : Entry) (s : State) :
    exec (.dmaStop e) s = execDmaStop e s := rfl
@[simp] theorem exec_dmaResume (e : Entry) (s : State) :
    exec (.dmaResume e) s = execDmaResume e s := rfl
@[simp] theorem exec_dmaFlush (e : Entry) (s : State) :
    exec (.dmaFlush e) s = execDmaFlush e s := rfl
@[simp] theorem exec_channelEntryStart (ch : Nat) (s : State) :
    exec (.channelEntryStart ch) s = execChannelEntryStart ch s := rfl
@[simp] theorem exec_engineEntryComplete (ch : Nat) (s : State) :
    exec (.engineEntryComplete ch) s = execEngineEntryComplete ch s := rfl
@[simp] theorem exec_channelHalt (ch : Nat) (f : AccessFault) (s : State) :
    exec (.channelHalt ch f) s = execChannelHalt ch f s := rfl
@[simp] theorem exec_compressionJobStart (s : State) :
    exec (.compressionJobStart) s = execCompressionJobStart s := rfl
@[simp] theorem exec_digestBlock (s : State) :
    exec (.digestBlock) s = execDigestBlock s := rfl
@[simp] theorem exec_zeroPageCleared (s : State) :
    exec (.zeroPageCleared) s = execZeroPageCleared s := rfl
@[simp] theorem exec_suspendLimitExpiry (k : RouteKey) (s : State) :
    exec (.suspendLimitExpiry k) s = execSuspendLimitExpiry k s := rfl
@[simp] theorem exec_migrationCopyDone (page : Nat) (s : State) :
    exec (.migrationCopyDone page) s = execMigrationCopyDone page s := rfl
@[simp] theorem exec_migrationAbandon (page : Nat) (s : State) :
    exec (.migrationAbandon page) s = execMigrationAbandon page s := rfl
@[simp] theorem exec_publicationResume (k : RouteKey) (s : State) :
    exec (.publicationResume k) s = execPublicationResume k s := rfl
@[simp] theorem exec_taskDispatch (ridge : Nat) (unit : UnitKind) (s : State) :
    exec (.taskDispatch ridge unit) s = execTaskDispatch ridge unit s := rfl
@[simp] theorem exec_taskDone (ridge : Nat) (unit : UnitKind) (ctx : Nat) (s : State) :
    exec (.taskDone ridge unit ctx) s = execTaskDone ridge unit ctx s := rfl
@[simp] theorem exec_joinSeal (k : RouteKey) (stage : Nat) (ridge : Nat) (s : State) :
    exec (.joinSeal k stage ridge) s = execJoinSeal k stage ridge s := rfl
@[simp] theorem exec_summitMerge (k : RouteKey) (pitch : Nat) (s : State) :
    exec (.summitMerge k pitch) s = execSummitMerge k pitch s := rfl
@[simp] theorem exec_publicationDone (k : RouteKey) (s : State) :
    exec (.publicationDone k) s = execPublicationDone k s := rfl
@[simp] theorem exec_paritySweep (s : State) :
    exec (.paritySweep) s = execParitySweep s := rfl
@[simp] theorem exec_shadowScrub (s : State) :
    exec (.shadowScrub) s = execShadowScrub s := rfl
@[simp] theorem exec_storeRefused (st : StrandRef) (s : State) :
    exec (.storeRefused st) s = execStoreRefused st s := rfl
@[simp] theorem exec_clean (s : State) :
    exec (.clean) s = execClean s := rfl
@[simp] theorem exec_inval (s : State) :
    exec (.inval) s = execInval s := rfl
@[simp] theorem exec_cleaninval (s : State) :
    exec (.cleaninval) s = execCleaninval s := rfl
@[simp] theorem exec_cacheDisable (c : CacheSel) (s : State) :
    exec (.cacheDisable c) s = execCacheDisable c s := rfl
@[simp] theorem exec_cacheEnable (c : CacheSel) (s : State) :
    exec (.cacheEnable c) s = execCacheEnable c s := rfl
@[simp] theorem exec_cacheSweepDone (c : CacheSel) (s : State) :
    exec (.cacheSweepDone c) s = execCacheSweepDone c s := rfl
@[simp] theorem exec_rdShared (m : CohMsg) (s : State) :
    exec (.rdShared m) s = execRdShared m s := rfl
@[simp] theorem exec_rdOwn (m : CohMsg) (s : State) :
    exec (.rdOwn m) s = execRdOwn m s := rfl
@[simp] theorem exec_upgrade (m : CohMsg) (s : State) :
    exec (.upgrade m) s = execUpgrade m s := rfl
@[simp] theorem exec_rdNc (m : CohMsg) (s : State) :
    exec (.rdNc m) s = execRdNc m s := rfl
@[simp] theorem exec_wrNc (m : CohMsg) (s : State) :
    exec (.wrNc m) s = execWrNc m s := rfl
@[simp] theorem exec_cmoClean (m : CohMsg) (s : State) :
    exec (.cmoClean m) s = execCmoClean m s := rfl
@[simp] theorem exec_cmoCleaninval (m : CohMsg) (s : State) :
    exec (.cmoCleaninval m) s = execCmoCleaninval m s := rfl
@[simp] theorem exec_cmoInval (m : CohMsg) (s : State) :
    exec (.cmoInval m) s = execCmoInval m s := rfl
@[simp] theorem exec_tokenReturn (m : CohMsg) (s : State) :
    exec (.tokenReturn m) s = execTokenReturn m s := rfl
@[simp] theorem exec_snpShared (m : CohMsg) (s : State) :
    exec (.snpShared m) s = execSnpShared m s := rfl
@[simp] theorem exec_snpInv (m : CohMsg) (s : State) :
    exec (.snpInv m) s = execSnpInv m s := rfl
@[simp] theorem exec_snpData (m : CohMsg) (s : State) :
    exec (.snpData m) s = execSnpData m s := rfl
@[simp] theorem exec_snpClean (m : CohMsg) (s : State) :
    exec (.snpClean m) s = execSnpClean m s := rfl
@[simp] theorem exec_fwdShared (m : CohMsg) (s : State) :
    exec (.fwdShared m) s = execFwdShared m s := rfl
@[simp] theorem exec_fwdOwn (m : CohMsg) (s : State) :
    exec (.fwdOwn m) s = execFwdOwn m s := rfl
@[simp] theorem exec_snpDiscard (m : CohMsg) (s : State) :
    exec (.snpDiscard m) s = execSnpDiscard m s := rfl
@[simp] theorem exec_gangRd (m : CohMsg) (s : State) :
    exec (.gangRd m) s = execGangRd m s := rfl
@[simp] theorem exec_gangOwn (m : CohMsg) (s : State) :
    exec (.gangOwn m) s = execGangOwn m s := rfl
@[simp] theorem exec_cohAck (m : CohMsg) (s : State) :
    exec (.cohAck m) s = execCohAck m s := rfl
@[simp] theorem exec_ackLost (m : CohMsg) (s : State) :
    exec (.ackLost m) s = execAckLost m s := rfl
@[simp] theorem exec_cohRetry (m : CohMsg) (s : State) :
    exec (.cohRetry m) s = execCohRetry m s := rfl
@[simp] theorem exec_cohGrant (m : CohMsg) (s : State) :
    exec (.cohGrant m) s = execCohGrant m s := rfl
@[simp] theorem exec_cohCmp (m : CohMsg) (s : State) :
    exec (.cohCmp m) s = execCohCmp m s := rfl
@[simp] theorem exec_wbAck (m : CohMsg) (s : State) :
    exec (.wbAck m) s = execWbAck m s := rfl
@[simp] theorem exec_ownerMoved (m : CohMsg) (s : State) :
    exec (.ownerMoved m) s = execOwnerMoved m s := rfl
@[simp] theorem exec_cohData (m : CohMsg) (s : State) :
    exec (.cohData m) s = execCohData m s := rfl
@[simp] theorem exec_snpDataRsp (m : CohMsg) (s : State) :
    exec (.snpDataRsp m) s = execSnpDataRsp m s := rfl
@[simp] theorem exec_wbDirty (m : CohMsg) (s : State) :
    exec (.wbDirty m) s = execWbDirty m s := rfl
@[simp] theorem exec_evictClean (m : CohMsg) (s : State) :
    exec (.evictClean m) s = execEvictClean m s := rfl
@[simp] theorem exec_pdSet (m : CohMsg) (s : State) :
    exec (.pdSet m) s = execPdSet m s := rfl
@[simp] theorem exec_heartbeatSend (s : State) :
    exec (.heartbeatSend) s = execHeartbeatSend s := rfl
@[simp] theorem exec_heartbeat (port : Nat) (origin : Nat) (source : Nat) (state : Nat) (beat : Nat) (s : State) :
    exec (.heartbeat port origin source state beat) s = execHeartbeat port origin source state beat s := rfl
@[simp] theorem exec_heartbeatTimeout (device : Nat) (s : State) :
    exec (.heartbeatTimeout device) s = execHeartbeatTimeout device s := rfl
@[simp] theorem exec_snoopTimeout (device : Nat) (s : State) :
    exec (.snoopTimeout device) s = execSnoopTimeout device s := rfl
@[simp] theorem exec_deathNotice (m : SvcMsg) (s : State) :
    exec (.deathNotice m) s = execDeathNotice m s := rfl
@[simp] theorem exec_portEnable (p : Nat) (s : State) :
    exec (.portEnable p) s = execPortEnable p s := rfl
@[simp] theorem exec_trainingTimeout (p : Nat) (s : State) :
    exec (.trainingTimeout p) s = execTrainingTimeout p s := rfl
@[simp] theorem exec_payloadFlit (p : Nat) (flit parity : List Byte) (s : State) :
    exec (.payloadFlit p flit parity) s = execPayloadFlit p flit parity s := rfl
@[simp] theorem exec_linkIdle (p : Nat) (coded : List Byte) (s : State) :
    exec (.linkIdle p coded) s = execLinkIdle p coded s := rfl
@[simp] theorem exec_widthChange (p : Nat) (coded : List Byte) (s : State) :
    exec (.widthChange p coded) s = execWidthChange p coded s := rfl
@[simp] theorem exec_retrain (p : Nat) (coded : List Byte) (s : State) :
    exec (.retrain p coded) s = execRetrain p coded s := rfl
@[simp] theorem exec_latencyProbe (p : Nat) (coded : List Byte) (s : State) :
    exec (.latencyProbe p coded) s = execLatencyProbe p coded s := rfl
@[simp] theorem exec_latencyEcho (p : Nat) (coded : List Byte) (s : State) :
    exec (.latencyEcho p coded) s = execLatencyEcho p coded s := rfl
@[simp] theorem exec_portLost (p : Nat) (coded : List Byte) (s : State) :
    exec (.portLost p coded) s = execPortLost p coded s := rfl
@[simp] theorem exec_flitReplayTimeout (p : Nat) (s : State) :
    exec (.flitReplayTimeout p) s = execFlitReplayTimeout p s := rfl
@[simp] theorem exec_laneLockLost (p : Nat) (lane : Nat) (s : State) :
    exec (.laneLockLost p lane) s = execLaneLockLost p lane s := rfl
@[simp] theorem exec_laneErrorInterval (p : Nat) (s : State) :
    exec (.laneErrorInterval p) s = execLaneErrorInterval p s := rfl
@[simp] theorem exec_widthSwitchDone (p : Nat) (s : State) :
    exec (.widthSwitchDone p) s = execWidthSwitchDone p s := rfl
@[simp] theorem exec_retrainCmd (p : Nat) (s : State) :
    exec (.retrainCmd p) s = execRetrainCmd p s := rfl
@[simp] theorem exec_retrainDone (p lanes : Nat) (s : State) :
    exec (.retrainDone p lanes) s = execRetrainDone p lanes s := rfl
@[simp] theorem exec_routeOpen (m : SvcMsg) (s : State) :
    exec (.routeOpen m) s = execRouteOpen m s := rfl
@[simp] theorem exec_routeEnd (m : SvcMsg) (s : State) :
    exec (.routeEnd m) s = execRouteEnd m s := rfl
@[simp] theorem exec_pageAlloc (m : SvcMsg) (s : State) :
    exec (.pageAlloc m) s = execPageAlloc m s := rfl
@[simp] theorem exec_pageGrant (m : SvcMsg) (s : State) :
    exec (.pageGrant m) s = execPageGrant m s := rfl
@[simp] theorem exec_quotaDraw (m : SvcMsg) (s : State) :
    exec (.quotaDraw m) s = execQuotaDraw m s := rfl
@[simp] theorem exec_quotaGrant (m : SvcMsg) (s : State) :
    exec (.quotaGrant m) s = execQuotaGrant m s := rfl
@[simp] theorem exec_quotaReturn (m : SvcMsg) (s : State) :
    exec (.quotaReturn m) s = execQuotaReturn m s := rfl
@[simp] theorem exec_ropeNotice (m : SvcMsg) (s : State) :
    exec (.ropeNotice m) s = execRopeNotice m s := rfl
@[simp] theorem exec_summitEntry (m : SvcMsg) (s : State) :
    exec (.summitEntry m) s = execSummitEntry m s := rfl
@[simp] theorem exec_summitClose (m : SvcMsg) (s : State) :
    exec (.summitClose m) s = execSummitClose m s := rfl
@[simp] theorem exec_linkNak (p : Nat) (slot : Nat) (s : State) :
    exec (.linkNak p slot) s = execLinkNak p slot s := rfl
@[simp] theorem exec_refresh (ch : Nat) (s : State) :
    exec (.refresh ch) s = execRefresh ch s := rfl
@[simp] theorem exec_dimmTempSample (ch : Nat) (centi : Int) (s : State) :
    exec (.dimmTempSample ch centi) s = execDimmTempSample ch centi s := rfl
@[simp] theorem exec_scrubStep (ch : Nat) (s : State) :
    exec (.scrubStep ch) s = execScrubStep ch s := rfl
@[simp] theorem exec_ddrTrainingDone (failed : List Nat) (s : State) :
    exec (.ddrTrainingDone failed) s = execDdrTrainingDone failed s := rfl
@[simp] theorem exec_ddrInitDone (s : State) :
    exec (.ddrInitDone) s = execDdrInitDone s := rfl
@[simp] theorem exec_channelFailure (ch : Nat) (s : State) :
    exec (.channelFailure ch) s = execChannelFailure ch s := rfl
@[simp] theorem exec_faultWindowExpiry (ch : Nat) (s : State) :
    exec (.faultWindowExpiry ch) s = execFaultWindowExpiry ch s := rfl
@[simp] theorem exec_testWrite (s : State) :
    exec (.testWrite) s = execTestWrite s := rfl
@[simp] theorem exec_testWriteRaw (s : State) :
    exec (.testWriteRaw) s = execTestWriteRaw s := rfl
@[simp] theorem exec_testRead (s : State) :
    exec (.testRead) s = execTestRead s := rfl
@[simp] theorem exec_remapRead (ch : Nat) (s : State) :
    exec (.remapRead ch) s = execRemapRead ch s := rfl
@[simp] theorem exec_nextRecordRead (s : State) :
    exec (.nextRecordRead) s = execNextRecordRead s := rfl
@[simp] theorem exec_fatalLatchRead (s : State) :
    exec (.fatalLatchRead) s = execFatalLatchRead s := rfl
@[simp] theorem exec_brixPing (r : BrixReq) (s : State) :
    exec (.brixPing r) s = execBrixPing r s := rfl
@[simp] theorem exec_brixRead (r : BrixReq) (s : State) :
    exec (.brixRead r) s = execBrixRead r s := rfl
@[simp] theorem exec_brixWrite (r : BrixReq) (s : State) :
    exec (.brixWrite r) s = execBrixWrite r s := rfl
@[simp] theorem exec_brixList (r : BrixReq) (s : State) :
    exec (.brixList r) s = execBrixList r s := rfl
@[simp] theorem exec_sessionOpen (r : BrixReq) (s : State) :
    exec (.sessionOpen r) s = execSessionOpen r s := rfl
@[simp] theorem exec_sessionFinish (r : BrixReq) (s : State) :
    exec (.sessionFinish r) s = execSessionFinish r s := rfl
@[simp] theorem exec_sessionClose (r : BrixReq) (s : State) :
    exec (.sessionClose r) s = execSessionClose r s := rfl
@[simp] theorem exec_measure (r : BrixReq) (s : State) :
    exec (.measure r) s = execMeasure r s := rfl
@[simp] theorem exec_eventAck (r : BrixReq) (s : State) :
    exec (.eventAck r) s = execEventAck r s := rfl
@[simp] theorem exec_eventResend (seq : Nat) (s : State) :
    exec (.eventResend seq) s = execEventResend seq s := rfl
@[simp] theorem exec_sessionIdleTimeout (session : Nat) (s : State) :
    exec (.sessionIdleTimeout session) s = execSessionIdleTimeout session s := rfl
@[simp] theorem exec_authLockoutExpiry (src : BrixSrc) (s : State) :
    exec (.authLockoutExpiry src) s = execAuthLockoutExpiry src s := rfl
@[simp] theorem exec_getVersion (port : Nat) (link : Nat) (payload : List Byte) (s : State) :
    exec (.getVersion port link payload) s = execGetVersion port link payload s := rfl
@[simp] theorem exec_getCapabilities (port : Nat) (link : Nat) (payload : List Byte) (s : State) :
    exec (.getCapabilities port link payload) s = execGetCapabilities port link payload s := rfl
@[simp] theorem exec_negotiateAlgorithms (port : Nat) (link : Nat) (payload : List Byte) (s : State) :
    exec (.negotiateAlgorithms port link payload) s = execNegotiateAlgorithms port link payload s := rfl
@[simp] theorem exec_getDigests (port : Nat) (link : Nat) (payload : List Byte) (s : State) :
    exec (.getDigests port link payload) s = execGetDigests port link payload s := rfl
@[simp] theorem exec_getCertificate (port : Nat) (link : Nat) (payload : List Byte) (s : State) :
    exec (.getCertificate port link payload) s = execGetCertificate port link payload s := rfl
@[simp] theorem exec_challenge (port : Nat) (link : Nat) (payload : List Byte) (s : State) :
    exec (.challenge port link payload) s = execChallenge port link payload s := rfl
@[simp] theorem exec_getMeasurements (port : Nat) (link : Nat) (payload : List Byte) (s : State) :
    exec (.getMeasurements port link payload) s = execGetMeasurements port link payload s := rfl
@[simp] theorem exec_spdmUnsupportedRequest (port : Nat) (link : Nat) (payload : List Byte) (s : State) :
    exec (.spdmUnsupportedRequest port link payload) s = execSpdmUnsupportedRequest port link payload s := rfl
@[simp] theorem exec_arp (targetIp : Nat) (s : State) :
    exec (.arp targetIp) s = execArp targetIp s := rfl
@[simp] theorem exec_neighbourDiscovery (target : List Byte) (s : State) :
    exec (.neighbourDiscovery target) s = execNeighbourDiscovery target s := rfl
@[simp] theorem exec_icmpEcho (target : List Byte) (payload : List Byte) (s : State) :
    exec (.icmpEcho target payload) s = execIcmpEcho target payload s := rfl
@[simp] theorem exec_otherTraffic (s : State) :
    exec (.otherTraffic) s = execOtherTraffic s := rfl
@[simp] theorem exec_form (deviceCount : Nat) (deviceId : Nat) (s : State) :
    exec (.form deviceCount deviceId) s = execForm deviceCount deviceId s := rfl
@[simp] theorem exec_returnToConfiguration (s : State) :
    exec (.returnToConfiguration) s = execReturnToConfiguration s := rfl
@[simp] theorem exec_bivouacRequest (s : State) :
    exec (.bivouacRequest) s = execBivouacRequest s := rfl
@[simp] theorem exec_retreatRequest (s : State) :
    exec (.retreatRequest) s = execRetreatRequest s := rfl
@[simp] theorem exec_retreatExit (s : State) :
    exec (.retreatExit) s = execRetreatExit s := rfl
@[simp] theorem exec_otpWrite (r : BrixReq) (s : State) :
    exec (.otpWrite r) s = execOtpWrite r s := rfl
@[simp] theorem exec_measExtend (r : BrixReq) (s : State) :
    exec (.measExtend r) s = execMeasExtend r s := rfl
@[simp] theorem exec_deviceReset (s : State) :
    exec (.deviceReset) s = execDeviceReset s := rfl
@[simp] theorem exec_ridgeRetire (ridge : Nat) (s : State) :
    exec (.ridgeRetire ridge) s = execRidgeRetire ridge s := rfl
@[simp] theorem exec_ridgeUnretire (ridge : Nat) (s : State) :
    exec (.ridgeUnretire ridge) s = execRidgeUnretire ridge s := rfl
@[simp] theorem exec_pwrgoodAssert (s : State) :
    exec (.pwrgoodAssert) s = execPwrgoodAssert s := rfl
@[simp] theorem exec_pwrgoodDeassert (s : State) :
    exec (.pwrgoodDeassert) s = execPwrgoodDeassert s := rfl
@[simp] theorem exec_rstNRelease (s : State) :
    exec (.rstNRelease) s = execRstNRelease s := rfl
@[simp] theorem exec_basecampReady (s : State) :
    exec (.basecampReady) s = execBasecampReady s := rfl
@[simp] theorem exec_formationComplete (r : FormationReport) (s : State) :
    exec (.formationComplete r) s = execFormationComplete r s := rfl
@[simp] theorem exec_thermalSample (centi : List Int) (s : State) :
    exec (.thermalSample centi) s = execThermalSample centi s := rfl
@[simp] theorem exec_thermalTrip (s : State) :
    exec (.thermalTrip) s = execThermalTrip s := rfl
@[simp] theorem exec_railCurrentLimit (rail : Nat) (s : State) :
    exec (.railCurrentLimit rail) s = execRailCurrentLimit rail s := rfl
@[simp] theorem exec_railUndervoltage (rail : Nat) (s : State) :
    exec (.railUndervoltage rail) s = execRailUndervoltage rail s := rfl
@[simp] theorem exec_bivouacEntry (s : State) :
    exec (.bivouacEntry) s = execBivouacEntry s := rfl
@[simp] theorem exec_filterLdCol (c : ScnCtx) (a : FArgs) (s : State) :
    exec (.filterLdCol c a) s = execFilterLdCol c a s := rfl
@[simp] theorem exec_filterEq (c : ScnCtx) (a : FArgs) (s : State) :
    exec (.filterEq c a) s = execFilterEq c a s := rfl
@[simp] theorem exec_filterNe (c : ScnCtx) (a : FArgs) (s : State) :
    exec (.filterNe c a) s = execFilterNe c a s := rfl
@[simp] theorem exec_filterLt (c : ScnCtx) (a : FArgs) (s : State) :
    exec (.filterLt c a) s = execFilterLt c a s := rfl
@[simp] theorem exec_filterLe (c : ScnCtx) (a : FArgs) (s : State) :
    exec (.filterLe c a) s = execFilterLe c a s := rfl
@[simp] theorem exec_filterGt (c : ScnCtx) (a : FArgs) (s : State) :
    exec (.filterGt c a) s = execFilterGt c a s := rfl
@[simp] theorem exec_filterGe (c : ScnCtx) (a : FArgs) (s : State) :
    exec (.filterGe c a) s = execFilterGe c a s := rfl
@[simp] theorem exec_filterBetween (c : ScnCtx) (a : FArgs) (s : State) :
    exec (.filterBetween c a) s = execFilterBetween c a s := rfl
@[simp] theorem exec_filterIsNull (c : ScnCtx) (a : FArgs) (s : State) :
    exec (.filterIsNull c a) s = execFilterIsNull c a s := rfl
@[simp] theorem exec_filterInList (c : ScnCtx) (a : FArgs) (s : State) :
    exec (.filterInList c a) s = execFilterInList c a s := rfl
@[simp] theorem exec_filterInCairn (c : ScnCtx) (a : FArgs) (s : State) :
    exec (.filterInCairn c a) s = execFilterInCairn c a s := rfl
@[simp] theorem exec_prefixMatch (c : ScnCtx) (a : FArgs) (s : State) :
    exec (.prefixMatch c a) s = execPrefixMatch c a s := rfl
@[simp] theorem exec_suffixMatch (c : ScnCtx) (a : FArgs) (s : State) :
    exec (.suffixMatch c a) s = execSuffixMatch c a s := rfl
@[simp] theorem exec_filterAnd (c : ScnCtx) (a : FArgs) (s : State) :
    exec (.filterAnd c a) s = execFilterAnd c a s := rfl
@[simp] theorem exec_filterOr (c : ScnCtx) (a : FArgs) (s : State) :
    exec (.filterOr c a) s = execFilterOr c a s := rfl
@[simp] theorem exec_filterNot (c : ScnCtx) (a : FArgs) (s : State) :
    exec (.filterNot c a) s = execFilterNot c a s := rfl
@[simp] theorem exec_filterIsTrue (c : ScnCtx) (a : FArgs) (s : State) :
    exec (.filterIsTrue c a) s = execFilterIsTrue c a s := rfl
@[simp] theorem exec_filterIsFalse (c : ScnCtx) (a : FArgs) (s : State) :
    exec (.filterIsFalse c a) s = execFilterIsFalse c a s := rfl
@[simp] theorem exec_filterIsUnknown (c : ScnCtx) (a : FArgs) (s : State) :
    exec (.filterIsUnknown c a) s = execFilterIsUnknown c a s := rfl
@[simp] theorem exec_filterAdd (c : ScnCtx) (a : FArgs) (s : State) :
    exec (.filterAdd c a) s = execFilterAdd c a s := rfl
@[simp] theorem exec_filterSub (c : ScnCtx) (a : FArgs) (s : State) :
    exec (.filterSub c a) s = execFilterSub c a s := rfl
@[simp] theorem exec_filterMul (c : ScnCtx) (a : FArgs) (s : State) :
    exec (.filterMul c a) s = execFilterMul c a s := rfl
@[simp] theorem exec_filterDiv (c : ScnCtx) (a : FArgs) (s : State) :
    exec (.filterDiv c a) s = execFilterDiv c a s := rfl
@[simp] theorem exec_filterMod (c : ScnCtx) (a : FArgs) (s : State) :
    exec (.filterMod c a) s = execFilterMod c a s := rfl
@[simp] theorem exec_filterNeg (c : ScnCtx) (a : FArgs) (s : State) :
    exec (.filterNeg c a) s = execFilterNeg c a s := rfl
@[simp] theorem exec_filterCast (c : ScnCtx) (a : FArgs) (s : State) :
    exec (.filterCast c a) s = execFilterCast c a s := rfl
@[simp] theorem exec_filterHash64 (c : ScnCtx) (a : FArgs) (s : State) :
    exec (.filterHash64 c a) s = execFilterHash64 c a s := rfl
@[simp] theorem exec_filterCrc32c (c : ScnCtx) (a : FArgs) (s : State) :
    exec (.filterCrc32c c a) s = execFilterCrc32c c a s := rfl
@[simp] theorem exec_add (st : StrandRef) (rd : Fin 32) (rs1 : Fin 32) (rs2 : Fin 32) (s : State) :
    exec (.add st rd rs1 rs2) s = execAdd st rd rs1 rs2 s := rfl
@[simp] theorem exec_sub (st : StrandRef) (rd : Fin 32) (rs1 : Fin 32) (rs2 : Fin 32) (s : State) :
    exec (.sub st rd rs1 rs2) s = execSub st rd rs1 rs2 s := rfl
@[simp] theorem exec_andOp (st : StrandRef) (rd : Fin 32) (rs1 : Fin 32) (rs2 : Fin 32) (s : State) :
    exec (.andOp st rd rs1 rs2) s = execAndOp st rd rs1 rs2 s := rfl
@[simp] theorem exec_orOp (st : StrandRef) (rd : Fin 32) (rs1 : Fin 32) (rs2 : Fin 32) (s : State) :
    exec (.orOp st rd rs1 rs2) s = execOrOp st rd rs1 rs2 s := rfl
@[simp] theorem exec_xorOp (st : StrandRef) (rd : Fin 32) (rs1 : Fin 32) (rs2 : Fin 32) (s : State) :
    exec (.xorOp st rd rs1 rs2) s = execXorOp st rd rs1 rs2 s := rfl
@[simp] theorem exec_sll (st : StrandRef) (rd : Fin 32) (rs1 : Fin 32) (rs2 : Fin 32) (s : State) :
    exec (.sll st rd rs1 rs2) s = execSll st rd rs1 rs2 s := rfl
@[simp] theorem exec_srl (st : StrandRef) (rd : Fin 32) (rs1 : Fin 32) (rs2 : Fin 32) (s : State) :
    exec (.srl st rd rs1 rs2) s = execSrl st rd rs1 rs2 s := rfl
@[simp] theorem exec_sra (st : StrandRef) (rd : Fin 32) (rs1 : Fin 32) (rs2 : Fin 32) (s : State) :
    exec (.sra st rd rs1 rs2) s = execSra st rd rs1 rs2 s := rfl
@[simp] theorem exec_slt (st : StrandRef) (rd : Fin 32) (rs1 : Fin 32) (rs2 : Fin 32) (s : State) :
    exec (.slt st rd rs1 rs2) s = execSlt st rd rs1 rs2 s := rfl
@[simp] theorem exec_sltu (st : StrandRef) (rd : Fin 32) (rs1 : Fin 32) (rs2 : Fin 32) (s : State) :
    exec (.sltu st rd rs1 rs2) s = execSltu st rd rs1 rs2 s := rfl
@[simp] theorem exec_minOp (st : StrandRef) (rd : Fin 32) (rs1 : Fin 32) (rs2 : Fin 32) (s : State) :
    exec (.minOp st rd rs1 rs2) s = execMinOp st rd rs1 rs2 s := rfl
@[simp] theorem exec_maxOp (st : StrandRef) (rd : Fin 32) (rs1 : Fin 32) (rs2 : Fin 32) (s : State) :
    exec (.maxOp st rd rs1 rs2) s = execMaxOp st rd rs1 rs2 s := rfl
@[simp] theorem exec_minu (st : StrandRef) (rd : Fin 32) (rs1 : Fin 32) (rs2 : Fin 32) (s : State) :
    exec (.minu st rd rs1 rs2) s = execMinu st rd rs1 rs2 s := rfl
@[simp] theorem exec_maxu (st : StrandRef) (rd : Fin 32) (rs1 : Fin 32) (rs2 : Fin 32) (s : State) :
    exec (.maxu st rd rs1 rs2) s = execMaxu st rd rs1 rs2 s := rfl
@[simp] theorem exec_mul (st : StrandRef) (rd : Fin 32) (rs1 : Fin 32) (rs2 : Fin 32) (s : State) :
    exec (.mul st rd rs1 rs2) s = execMul st rd rs1 rs2 s := rfl
@[simp] theorem exec_mulh (st : StrandRef) (rd : Fin 32) (rs1 : Fin 32) (rs2 : Fin 32) (s : State) :
    exec (.mulh st rd rs1 rs2) s = execMulh st rd rs1 rs2 s := rfl
@[simp] theorem exec_mulhu (st : StrandRef) (rd : Fin 32) (rs1 : Fin 32) (rs2 : Fin 32) (s : State) :
    exec (.mulhu st rd rs1 rs2) s = execMulhu st rd rs1 rs2 s := rfl
@[simp] theorem exec_div (st : StrandRef) (rd : Fin 32) (rs1 : Fin 32) (rs2 : Fin 32) (s : State) :
    exec (.div st rd rs1 rs2) s = execDiv st rd rs1 rs2 s := rfl
@[simp] theorem exec_divu (st : StrandRef) (rd : Fin 32) (rs1 : Fin 32) (rs2 : Fin 32) (s : State) :
    exec (.divu st rd rs1 rs2) s = execDivu st rd rs1 rs2 s := rfl
@[simp] theorem exec_rem (st : StrandRef) (rd : Fin 32) (rs1 : Fin 32) (rs2 : Fin 32) (s : State) :
    exec (.rem st rd rs1 rs2) s = execRem st rd rs1 rs2 s := rfl
@[simp] theorem exec_remu (st : StrandRef) (rd : Fin 32) (rs1 : Fin 32) (rs2 : Fin 32) (s : State) :
    exec (.remu st rd rs1 rs2) s = execRemu st rd rs1 rs2 s := rfl
@[simp] theorem exec_clz (st : StrandRef) (rd : Fin 32) (rs1 : Fin 32) (s : State) :
    exec (.clz st rd rs1) s = execClz st rd rs1 s := rfl
@[simp] theorem exec_ctz (st : StrandRef) (rd : Fin 32) (rs1 : Fin 32) (s : State) :
    exec (.ctz st rd rs1) s = execCtz st rd rs1 s := rfl
@[simp] theorem exec_popc (st : StrandRef) (rd : Fin 32) (rs1 : Fin 32) (s : State) :
    exec (.popc st rd rs1) s = execPopc st rd rs1 s := rfl
@[simp] theorem exec_bswap (st : StrandRef) (rd : Fin 32) (rs1 : Fin 32) (s : State) :
    exec (.bswap st rd rs1) s = execBswap st rd rs1 s := rfl
@[simp] theorem exec_hstep (st : StrandRef) (rd : Fin 32) (rs1 : Fin 32) (rs2 : Fin 32) (s : State) :
    exec (.hstep st rd rs1 rs2) s = execHstep st rd rs1 rs2 s := rfl
@[simp] theorem exec_hfin (st : StrandRef) (rd : Fin 32) (rs1 : Fin 32) (s : State) :
    exec (.hfin st rd rs1) s = execHfin st rd rs1 s := rfl
@[simp] theorem exec_crc32cStep (st : StrandRef) (rd : Fin 32) (rs1 : Fin 32) (rs2 : Fin 32) (s : State) :
    exec (.crc32cStep st rd rs1 rs2) s = execCrc32cStep st rd rs1 rs2 s := rfl
@[simp] theorem exec_addi (st : StrandRef) (rd : Fin 32) (rs1 : Fin 32) (imm : BitVec 16) (s : State) :
    exec (.addi st rd rs1 imm) s = execAddi st rd rs1 imm s := rfl
@[simp] theorem exec_andi (st : StrandRef) (rd : Fin 32) (rs1 : Fin 32) (imm : BitVec 16) (s : State) :
    exec (.andi st rd rs1 imm) s = execAndi st rd rs1 imm s := rfl
@[simp] theorem exec_ori (st : StrandRef) (rd : Fin 32) (rs1 : Fin 32) (imm : BitVec 16) (s : State) :
    exec (.ori st rd rs1 imm) s = execOri st rd rs1 imm s := rfl
@[simp] theorem exec_xori (st : StrandRef) (rd : Fin 32) (rs1 : Fin 32) (imm : BitVec 16) (s : State) :
    exec (.xori st rd rs1 imm) s = execXori st rd rs1 imm s := rfl
@[simp] theorem exec_slli (st : StrandRef) (rd : Fin 32) (rs1 : Fin 32) (amount : BitVec 6) (s : State) :
    exec (.slli st rd rs1 amount) s = execSlli st rd rs1 amount s := rfl
@[simp] theorem exec_srli (st : StrandRef) (rd : Fin 32) (rs1 : Fin 32) (amount : BitVec 6) (s : State) :
    exec (.srli st rd rs1 amount) s = execSrli st rd rs1 amount s := rfl
@[simp] theorem exec_srai (st : StrandRef) (rd : Fin 32) (rs1 : Fin 32) (amount : BitVec 6) (s : State) :
    exec (.srai st rd rs1 amount) s = execSrai st rd rs1 amount s := rfl
@[simp] theorem exec_slti (st : StrandRef) (rd : Fin 32) (rs1 : Fin 32) (imm : BitVec 16) (s : State) :
    exec (.slti st rd rs1 imm) s = execSlti st rd rs1 imm s := rfl
@[simp] theorem exec_lui (st : StrandRef) (rd : Fin 32) (imm : BitVec 21) (s : State) :
    exec (.lui st rd imm) s = execLui st rd imm s := rfl
@[simp] theorem exec_ldpc (st : StrandRef) (rd : Fin 32) (imm : BitVec 16) (s : State) :
    exec (.ldpc st rd imm) s = execLdpc st rd imm s := rfl
@[simp] theorem exec_lb (st : StrandRef) (rd : Fin 32) (rs1 : Fin 32) (imm : BitVec 16) (s : State) :
    exec (.lb st rd rs1 imm) s = execLb st rd rs1 imm s := rfl
@[simp] theorem exec_lbu (st : StrandRef) (rd : Fin 32) (rs1 : Fin 32) (imm : BitVec 16) (s : State) :
    exec (.lbu st rd rs1 imm) s = execLbu st rd rs1 imm s := rfl
@[simp] theorem exec_lh (st : StrandRef) (rd : Fin 32) (rs1 : Fin 32) (imm : BitVec 16) (s : State) :
    exec (.lh st rd rs1 imm) s = execLh st rd rs1 imm s := rfl
@[simp] theorem exec_lhu (st : StrandRef) (rd : Fin 32) (rs1 : Fin 32) (imm : BitVec 16) (s : State) :
    exec (.lhu st rd rs1 imm) s = execLhu st rd rs1 imm s := rfl
@[simp] theorem exec_lw (st : StrandRef) (rd : Fin 32) (rs1 : Fin 32) (imm : BitVec 16) (s : State) :
    exec (.lw st rd rs1 imm) s = execLw st rd rs1 imm s := rfl
@[simp] theorem exec_lwu (st : StrandRef) (rd : Fin 32) (rs1 : Fin 32) (imm : BitVec 16) (s : State) :
    exec (.lwu st rd rs1 imm) s = execLwu st rd rs1 imm s := rfl
@[simp] theorem exec_ld (st : StrandRef) (rd : Fin 32) (rs1 : Fin 32) (imm : BitVec 16) (s : State) :
    exec (.ld st rd rs1 imm) s = execLd st rd rs1 imm s := rfl
@[simp] theorem exec_sb (st : StrandRef) (rs1 : Fin 32) (rs2 : Fin 32) (imm : BitVec 16) (s : State) :
    exec (.sb st rs1 rs2 imm) s = execSb st rs1 rs2 imm s := rfl
@[simp] theorem exec_sh (st : StrandRef) (rs1 : Fin 32) (rs2 : Fin 32) (imm : BitVec 16) (s : State) :
    exec (.sh st rs1 rs2 imm) s = execSh st rs1 rs2 imm s := rfl
@[simp] theorem exec_sw (st : StrandRef) (rs1 : Fin 32) (rs2 : Fin 32) (imm : BitVec 16) (s : State) :
    exec (.sw st rs1 rs2 imm) s = execSw st rs1 rs2 imm s := rfl
@[simp] theorem exec_sd (st : StrandRef) (rs1 : Fin 32) (rs2 : Fin 32) (imm : BitVec 16) (s : State) :
    exec (.sd st rs1 rs2 imm) s = execSd st rs1 rs2 imm s := rfl
@[simp] theorem exec_flw (st : StrandRef) (rd : Fin 32) (rs1 : Fin 32) (imm : BitVec 16) (s : State) :
    exec (.flw st rd rs1 imm) s = execFlw st rd rs1 imm s := rfl
@[simp] theorem exec_fld (st : StrandRef) (rd : Fin 32) (rs1 : Fin 32) (imm : BitVec 16) (s : State) :
    exec (.fld st rd rs1 imm) s = execFld st rd rs1 imm s := rfl
@[simp] theorem exec_fsw (st : StrandRef) (rs1 : Fin 32) (rs2 : Fin 32) (imm : BitVec 16) (s : State) :
    exec (.fsw st rs1 rs2 imm) s = execFsw st rs1 rs2 imm s := rfl
@[simp] theorem exec_fsd (st : StrandRef) (rs1 : Fin 32) (rs2 : Fin 32) (imm : BitVec 16) (s : State) :
    exec (.fsd st rs1 rs2 imm) s = execFsd st rs1 rs2 imm s := rfl
@[simp] theorem exec_beq (st : StrandRef) (rs1 : Fin 32) (rs2 : Fin 32) (imm : BitVec 16) (s : State) :
    exec (.beq st rs1 rs2 imm) s = execBeq st rs1 rs2 imm s := rfl
@[simp] theorem exec_bne (st : StrandRef) (rs1 : Fin 32) (rs2 : Fin 32) (imm : BitVec 16) (s : State) :
    exec (.bne st rs1 rs2 imm) s = execBne st rs1 rs2 imm s := rfl
@[simp] theorem exec_blt (st : StrandRef) (rs1 : Fin 32) (rs2 : Fin 32) (imm : BitVec 16) (s : State) :
    exec (.blt st rs1 rs2 imm) s = execBlt st rs1 rs2 imm s := rfl
@[simp] theorem exec_bge (st : StrandRef) (rs1 : Fin 32) (rs2 : Fin 32) (imm : BitVec 16) (s : State) :
    exec (.bge st rs1 rs2 imm) s = execBge st rs1 rs2 imm s := rfl
@[simp] theorem exec_bltu (st : StrandRef) (rs1 : Fin 32) (rs2 : Fin 32) (imm : BitVec 16) (s : State) :
    exec (.bltu st rs1 rs2 imm) s = execBltu st rs1 rs2 imm s := rfl
@[simp] theorem exec_bgeu (st : StrandRef) (rs1 : Fin 32) (rs2 : Fin 32) (imm : BitVec 16) (s : State) :
    exec (.bgeu st rs1 rs2 imm) s = execBgeu st rs1 rs2 imm s := rfl
@[simp] theorem exec_jal (st : StrandRef) (rd : Fin 32) (imm : BitVec 21) (s : State) :
    exec (.jal st rd imm) s = execJal st rd imm s := rfl
@[simp] theorem exec_jalr (st : StrandRef) (rd : Fin 32) (rs1 : Fin 32) (imm : BitVec 16) (s : State) :
    exec (.jalr st rd rs1 imm) s = execJalr st rd rs1 imm s := rfl
@[simp] theorem exec_csrr (st : StrandRef) (rd : Fin 32) (csr : BitVec 12) (s : State) :
    exec (.csrr st rd csr) s = execCsrr st rd csr s := rfl
@[simp] theorem exec_csrw (st : StrandRef) (rs1 : Fin 32) (csr : BitVec 12) (s : State) :
    exec (.csrw st rs1 csr) s = execCsrw st rs1 csr s := rfl
@[simp] theorem exec_fadd (st : StrandRef) (single : Bool) (rd : Fin 32) (rs1 : Fin 32) (rs2 : Fin 32) (s : State) :
    exec (.fadd st single rd rs1 rs2) s = execFadd st single rd rs1 rs2 s := rfl
@[simp] theorem exec_fsub (st : StrandRef) (single : Bool) (rd : Fin 32) (rs1 : Fin 32) (rs2 : Fin 32) (s : State) :
    exec (.fsub st single rd rs1 rs2) s = execFsub st single rd rs1 rs2 s := rfl
@[simp] theorem exec_fmul (st : StrandRef) (single : Bool) (rd : Fin 32) (rs1 : Fin 32) (rs2 : Fin 32) (s : State) :
    exec (.fmul st single rd rs1 rs2) s = execFmul st single rd rs1 rs2 s := rfl
@[simp] theorem exec_fdiv (st : StrandRef) (single : Bool) (rd : Fin 32) (rs1 : Fin 32) (rs2 : Fin 32) (s : State) :
    exec (.fdiv st single rd rs1 rs2) s = execFdiv st single rd rs1 rs2 s := rfl
@[simp] theorem exec_fsqrt (st : StrandRef) (single : Bool) (rd : Fin 32) (rs1 : Fin 32) (s : State) :
    exec (.fsqrt st single rd rs1) s = execFsqrt st single rd rs1 s := rfl
@[simp] theorem exec_fmin (st : StrandRef) (single : Bool) (rd : Fin 32) (rs1 : Fin 32) (rs2 : Fin 32) (s : State) :
    exec (.fmin st single rd rs1 rs2) s = execFmin st single rd rs1 rs2 s := rfl
@[simp] theorem exec_fmax (st : StrandRef) (single : Bool) (rd : Fin 32) (rs1 : Fin 32) (rs2 : Fin 32) (s : State) :
    exec (.fmax st single rd rs1 rs2) s = execFmax st single rd rs1 rs2 s := rfl
@[simp] theorem exec_fmadd (st : StrandRef) (single : Bool) (rd : Fin 32) (rs1 : Fin 32) (rs2 : Fin 32) (s : State) :
    exec (.fmadd st single rd rs1 rs2) s = execFmadd st single rd rs1 rs2 s := rfl
@[simp] theorem exec_feq (st : StrandRef) (single : Bool) (rd : Fin 32) (rs1 : Fin 32) (rs2 : Fin 32) (s : State) :
    exec (.feq st single rd rs1 rs2) s = execFeq st single rd rs1 rs2 s := rfl
@[simp] theorem exec_flt (st : StrandRef) (single : Bool) (rd : Fin 32) (rs1 : Fin 32) (rs2 : Fin 32) (s : State) :
    exec (.flt st single rd rs1 rs2) s = execFlt st single rd rs1 rs2 s := rfl
@[simp] theorem exec_fle (st : StrandRef) (single : Bool) (rd : Fin 32) (rs1 : Fin 32) (rs2 : Fin 32) (s : State) :
    exec (.fle st single rd rs1 rs2) s = execFle st single rd rs1 rs2 s := rfl
@[simp] theorem exec_fcvtl (st : StrandRef) (single : Bool) (rd : Fin 32) (rs1 : Fin 32) (s : State) :
    exec (.fcvtl st single rd rs1) s = execFcvtl st single rd rs1 s := rfl
@[simp] theorem exec_fcvtf (st : StrandRef) (single : Bool) (rd : Fin 32) (rs1 : Fin 32) (s : State) :
    exec (.fcvtf st single rd rs1) s = execFcvtf st single rd rs1 s := rfl
@[simp] theorem exec_fmvgf (st : StrandRef) (single : Bool) (rd : Fin 32) (rs1 : Fin 32) (s : State) :
    exec (.fmvgf st single rd rs1) s = execFmvgf st single rd rs1 s := rfl
@[simp] theorem exec_fmvfg (st : StrandRef) (single : Bool) (rd : Fin 32) (rs1 : Fin 32) (s : State) :
    exec (.fmvfg st single rd rs1) s = execFmvfg st single rd rs1 s := rfl
@[simp] theorem exec_fence (st : StrandRef) (s : State) :
    exec (.fence st) s = execFence st s := rfl
@[simp] theorem exec_brk (st : StrandRef) (s : State) :
    exec (.brk st) s = execBrk st s := rfl
@[simp] theorem exec_eret (st : StrandRef) (s : State) :
    exec (.eret st) s = execEret st s := rfl
@[simp] theorem exec_temit (st : StrandRef) (rd : Fin 32) (rs1 : Fin 32) (s : State) :
    exec (.temit st rd rs1) s = execTemit st rd rs1 s := rfl
@[simp] theorem exec_tend (st : StrandRef) (rs1 : Fin 32) (s : State) :
    exec (.tend st rs1) s = execTend st rs1 s := rfl
@[simp] theorem exec_vadd (st : StrandRef) (a : VArgs) (s : State) :
    exec (.vadd st a) s = execVadd st a s := rfl
@[simp] theorem exec_vsub (st : StrandRef) (a : VArgs) (s : State) :
    exec (.vsub st a) s = execVsub st a s := rfl
@[simp] theorem exec_vand (st : StrandRef) (a : VArgs) (s : State) :
    exec (.vand st a) s = execVand st a s := rfl
@[simp] theorem exec_vor (st : StrandRef) (a : VArgs) (s : State) :
    exec (.vor st a) s = execVor st a s := rfl
@[simp] theorem exec_vxor (st : StrandRef) (a : VArgs) (s : State) :
    exec (.vxor st a) s = execVxor st a s := rfl
@[simp] theorem exec_vsll (st : StrandRef) (a : VArgs) (s : State) :
    exec (.vsll st a) s = execVsll st a s := rfl
@[simp] theorem exec_vsrl (st : StrandRef) (a : VArgs) (s : State) :
    exec (.vsrl st a) s = execVsrl st a s := rfl
@[simp] theorem exec_vsra (st : StrandRef) (a : VArgs) (s : State) :
    exec (.vsra st a) s = execVsra st a s := rfl
@[simp] theorem exec_vmul (st : StrandRef) (a : VArgs) (s : State) :
    exec (.vmul st a) s = execVmul st a s := rfl
@[simp] theorem exec_vmin (st : StrandRef) (a : VArgs) (s : State) :
    exec (.vmin st a) s = execVmin st a s := rfl
@[simp] theorem exec_vmax (st : StrandRef) (a : VArgs) (s : State) :
    exec (.vmax st a) s = execVmax st a s := rfl
@[simp] theorem exec_vminu (st : StrandRef) (a : VArgs) (s : State) :
    exec (.vminu st a) s = execVminu st a s := rfl
@[simp] theorem exec_vmaxu (st : StrandRef) (a : VArgs) (s : State) :
    exec (.vmaxu st a) s = execVmaxu st a s := rfl
@[simp] theorem exec_vhstep (st : StrandRef) (a : VArgs) (s : State) :
    exec (.vhstep st a) s = execVhstep st a s := rfl
@[simp] theorem exec_vhfin (st : StrandRef) (a : VArgs) (s : State) :
    exec (.vhfin st a) s = execVhfin st a s := rfl
@[simp] theorem exec_vbcast (st : StrandRef) (a : VArgs) (s : State) :
    exec (.vbcast st a) s = execVbcast st a s := rfl
@[simp] theorem exec_vfadd (st : StrandRef) (a : VArgs) (s : State) :
    exec (.vfadd st a) s = execVfadd st a s := rfl
@[simp] theorem exec_vfsub (st : StrandRef) (a : VArgs) (s : State) :
    exec (.vfsub st a) s = execVfsub st a s := rfl
@[simp] theorem exec_vfmul (st : StrandRef) (a : VArgs) (s : State) :
    exec (.vfmul st a) s = execVfmul st a s := rfl
@[simp] theorem exec_vfdiv (st : StrandRef) (a : VArgs) (s : State) :
    exec (.vfdiv st a) s = execVfdiv st a s := rfl
@[simp] theorem exec_vfmadd (st : StrandRef) (a : VArgs) (s : State) :
    exec (.vfmadd st a) s = execVfmadd st a s := rfl
@[simp] theorem exec_vfmin (st : StrandRef) (a : VArgs) (s : State) :
    exec (.vfmin st a) s = execVfmin st a s := rfl
@[simp] theorem exec_vfmax (st : StrandRef) (a : VArgs) (s : State) :
    exec (.vfmax st a) s = execVfmax st a s := rfl
@[simp] theorem exec_vfsqrt (st : StrandRef) (a : VArgs) (s : State) :
    exec (.vfsqrt st a) s = execVfsqrt st a s := rfl
@[simp] theorem exec_vfcvtl (st : StrandRef) (a : VArgs) (s : State) :
    exec (.vfcvtl st a) s = execVfcvtl st a s := rfl
@[simp] theorem exec_vfcvtf (st : StrandRef) (a : VArgs) (s : State) :
    exec (.vfcvtf st a) s = execVfcvtf st a s := rfl
@[simp] theorem exec_vcmpEq (st : StrandRef) (a : VArgs) (s : State) :
    exec (.vcmpEq st a) s = execVcmpEq st a s := rfl
@[simp] theorem exec_vcmpNe (st : StrandRef) (a : VArgs) (s : State) :
    exec (.vcmpNe st a) s = execVcmpNe st a s := rfl
@[simp] theorem exec_vcmpLt (st : StrandRef) (a : VArgs) (s : State) :
    exec (.vcmpLt st a) s = execVcmpLt st a s := rfl
@[simp] theorem exec_vcmpLe (st : StrandRef) (a : VArgs) (s : State) :
    exec (.vcmpLe st a) s = execVcmpLe st a s := rfl
@[simp] theorem exec_vcmpLtu (st : StrandRef) (a : VArgs) (s : State) :
    exec (.vcmpLtu st a) s = execVcmpLtu st a s := rfl
@[simp] theorem exec_vcmpLeu (st : StrandRef) (a : VArgs) (s : State) :
    exec (.vcmpLeu st a) s = execVcmpLeu st a s := rfl
@[simp] theorem exec_vcmpFeq (st : StrandRef) (a : VArgs) (s : State) :
    exec (.vcmpFeq st a) s = execVcmpFeq st a s := rfl
@[simp] theorem exec_vcmpFlt (st : StrandRef) (a : VArgs) (s : State) :
    exec (.vcmpFlt st a) s = execVcmpFlt st a s := rfl
@[simp] theorem exec_vcmpFle (st : StrandRef) (a : VArgs) (s : State) :
    exec (.vcmpFle st a) s = execVcmpFle st a s := rfl
@[simp] theorem exec_vld (st : StrandRef) (a : VArgs) (s : State) :
    exec (.vld st a) s = execVld st a s := rfl
@[simp] theorem exec_vldff (st : StrandRef) (a : VArgs) (s : State) :
    exec (.vldff st a) s = execVldff st a s := rfl
@[simp] theorem exec_vst (st : StrandRef) (a : VArgs) (s : State) :
    exec (.vst st a) s = execVst st a s := rfl
@[simp] theorem exec_vlds (st : StrandRef) (a : VArgs) (s : State) :
    exec (.vlds st a) s = execVlds st a s := rfl
@[simp] theorem exec_vsts (st : StrandRef) (a : VArgs) (s : State) :
    exec (.vsts st a) s = execVsts st a s := rfl
@[simp] theorem exec_vgather (st : StrandRef) (a : VArgs) (s : State) :
    exec (.vgather st a) s = execVgather st a s := rfl
@[simp] theorem exec_vgatherff (st : StrandRef) (a : VArgs) (s : State) :
    exec (.vgatherff st a) s = execVgatherff st a s := rfl
@[simp] theorem exec_vscatter (st : StrandRef) (a : VArgs) (s : State) :
    exec (.vscatter st a) s = execVscatter st a s := rfl
@[simp] theorem exec_vsetvl (st : StrandRef) (a : VArgs) (s : State) :
    exec (.vsetvl st a) s = execVsetvl st a s := rfl
@[simp] theorem exec_pand (st : StrandRef) (a : VArgs) (s : State) :
    exec (.pand st a) s = execPand st a s := rfl
@[simp] theorem exec_por (st : StrandRef) (a : VArgs) (s : State) :
    exec (.por st a) s = execPor st a s := rfl
@[simp] theorem exec_pandn (st : StrandRef) (a : VArgs) (s : State) :
    exec (.pandn st a) s = execPandn st a s := rfl
@[simp] theorem exec_pnot (st : StrandRef) (a : VArgs) (s : State) :
    exec (.pnot st a) s = execPnot st a s := rfl
@[simp] theorem exec_ffmask (st : StrandRef) (a : VArgs) (s : State) :
    exec (.ffmask st a) s = execFfmask st a s := rfl
@[simp] theorem exec_fffill (st : StrandRef) (a : VArgs) (s : State) :
    exec (.fffill st a) s = execFffill st a s := rfl
@[simp] theorem exec_ffput (st : StrandRef) (a : VArgs) (s : State) :
    exec (.ffput st a) s = execFfput st a s := rfl
@[simp] theorem exec_pcnt (st : StrandRef) (a : VArgs) (s : State) :
    exec (.pcnt st a) s = execPcnt st a s := rfl
@[simp] theorem exec_ptrue (st : StrandRef) (a : VArgs) (s : State) :
    exec (.ptrue st a) s = execPtrue st a s := rfl
@[simp] theorem exec_ffcnt (st : StrandRef) (a : VArgs) (s : State) :
    exec (.ffcnt st a) s = execFfcnt st a s := rfl
@[simp] theorem exec_vredadd (st : StrandRef) (a : VArgs) (s : State) :
    exec (.vredadd st a) s = execVredadd st a s := rfl
@[simp] theorem exec_vredmin (st : StrandRef) (a : VArgs) (s : State) :
    exec (.vredmin st a) s = execVredmin st a s := rfl
@[simp] theorem exec_vredmax (st : StrandRef) (a : VArgs) (s : State) :
    exec (.vredmax st a) s = execVredmax st a s := rfl
@[simp] theorem exec_vext (st : StrandRef) (a : VArgs) (s : State) :
    exec (.vext st a) s = execVext st a s := rfl
@[simp] theorem exec_vcompress (st : StrandRef) (a : VArgs) (s : State) :
    exec (.vcompress st a) s = execVcompress st a s := rfl
@[simp] theorem exec_vmv (st : StrandRef) (a : VArgs) (s : State) :
    exec (.vmv st a) s = execVmv st a s := rfl
@[simp] theorem exec_vfredadd (st : StrandRef) (a : VArgs) (s : State) :
    exec (.vfredadd st a) s = execVfredadd st a s := rfl
@[simp] theorem exec_tickOutFall (s : State) :
    exec (.tickOutFall) s = execTickOutFall s := rfl
@[simp] theorem exec_lockAndEqualise (p : Nat) (lanes : Nat) (s : State) :
    exec (.lockAndEqualise p lanes) s = execLockAndEqualise p lanes s := rfl
@[simp] theorem exec_railCurrentFall (rail : Nat) (s : State) :
    exec (.railCurrentFall rail) s = execRailCurrentFall rail s := rfl
@[simp] theorem exec_lifeObjectsSave (s : State) :
    exec (.lifeObjectsSave) s = execLifeObjectsSave s := rfl
@[simp] theorem exec_reservedEncoding (st : StrandRef) (word : BitVec 32) (s : State) :
    exec (.reservedEncoding st word) s = execReservedEncoding st word s := rfl
@[simp] theorem exec_fetchFault (st : StrandRef) (readError : Bool) (s : State) :
    exec (.fetchFault st readError) s = execFetchFault st readError s := rfl
@[simp] theorem exec_brixViolation (src : BrixSrc) (bytes : List Byte) (s : State) :
    exec (.brixViolation src bytes) s = execBrixViolation src bytes s := rfl
@[simp] theorem exec_configurationRequest (port : Nat) (s : State) :
    exec (.configurationRequest port) s = execConfigurationRequest port s := rfl

end Sys2Proof.Machine
end

