-- ==== Sys2Proof/Laws/Store.lean ====
section
/-! SUPPORT. The laws of sparse stores and of memory: what a read gives after a write, and that every operation keeps
the canonical form. -/
namespace Sys2Proof.Machine

/-! ## Stores -/

theorem SMap.wfFrom_iff {α : Type} (lo : Nat) (m : SMap α) :
    SMap.wfFrom lo m = true ↔ (∀ c ∈ m, lo ≤ c.1) ∧ m.Pairwise (fun a b => a.1 < b.1) := by
  induction m generalizing lo with
  | nil => simp [SMap.wfFrom]
  | cons c m ih =>
    obtain ⟨k, v⟩ := c
    simp only [SMap.wfFrom, Bool.and_eq_true, decide_eq_true_eq, ih, List.mem_cons, forall_eq_or_imp,
      List.pairwise_cons]
    constructor
    · rintro ⟨h, h1, h2⟩
      exact ⟨⟨by omega, fun c hc => by have := h1 c hc; omega⟩, fun c hc => by have := h1 c hc; omega, h2⟩
    · rintro ⟨⟨h, -⟩, h1, h2⟩
      exact ⟨by omega, fun c hc => by have := h1 c hc; omega, h2⟩

theorem SMap.wf_iff {α : Type} (m : SMap α) : m.wf = true ↔ m.Pairwise (fun a b => a.1 < b.1) := by
  simp [SMap.wf, SMap.wfFrom_iff]

theorem SMap.find_put_same {α : Type} (m : SMap α) (a : Nat) (x : α) : (m.put a x).find a = some x := by
  induction m with
  | nil => simp [SMap.put, SMap.find]
  | cons c m ih =>
    obtain ⟨k, v⟩ := c
    simp only [SMap.put]
    split
    · simp [SMap.find]
    · split
      · simp [SMap.find]
      · rename_i h1 h2
        simp only [SMap.find, if_neg (Ne.symm h2)]
        exact ih

theorem SMap.find_put_other {α : Type} (m : SMap α) {a b : Nat} (x : α) (h : b ≠ a) :
    (m.put a x).find b = m.find b := by
  induction m with
  | nil => simp [SMap.put, SMap.find, Ne.symm h]
  | cons c m ih =>
    obtain ⟨k, v⟩ := c
    simp only [SMap.put]
    split
    · simp [SMap.find, Ne.symm h]
    · split
      · rename_i _ h2
        subst h2
        simp [SMap.find, Ne.symm h]
      · simp only [SMap.find, ih]

theorem SMap.find_del_other {α : Type} (m : SMap α) {a b : Nat} (h : b ≠ a) : (m.del a).find b = m.find b := by
  induction m with
  | nil => rfl
  | cons c m ih =>
    obtain ⟨k, v⟩ := c
    simp only [SMap.del]
    split
    · rename_i h2
      subst h2
      simp [SMap.find, Ne.symm h, ih]
    · simp only [SMap.find, ih]

theorem SMap.find_none_of_lt {α : Type} (m : SMap α) {a : Nat} (h : ∀ c ∈ m, a < c.1) : m.find a = none := by
  induction m with
  | nil => rfl
  | cons c m ih =>
    obtain ⟨k, v⟩ := c
    have h1 : a < k := h (k, v) (by simp)
    simp only [SMap.find]
    rw [if_neg (by omega)]
    exact ih fun c hc => h c (by simp [hc])

theorem SMap.find_del_same {α : Type} (m : SMap α) (a : Nat) : (m.del a).find a = none := by
  induction m with
  | nil => rfl
  | cons c m ih =>
    obtain ⟨k, v⟩ := c
    simp only [SMap.del]
    split
    · exact ih
    · rename_i h2
      simp only [SMap.find, if_neg h2]
      exact ih

theorem SMap.mem_put {α : Type} {m : SMap α} {a : Nat} {x : α} {c : Nat × α} (h : c ∈ m.put a x) :
    c = (a, x) ∨ c ∈ m := by
  induction m with
  | nil => simpa [SMap.put] using h
  | cons d m ih =>
    obtain ⟨k, v⟩ := d
    simp only [SMap.put] at h
    split at h
    · simpa using h
    · split at h
      · rcases List.mem_cons.mp h with h | h
        · exact .inl h
        · exact .inr (by simp [h])
      · rcases List.mem_cons.mp h with h | h
        · exact .inr (by simp [h])
        · rcases ih h with h | h
          · exact .inl h
          · exact .inr (by simp [h])

theorem SMap.mem_del {α : Type} {m : SMap α} {a : Nat} {c : Nat × α} (h : c ∈ m.del a) : c ∈ m := by
  induction m with
  | nil => exact h
  | cons d m ih =>
    obtain ⟨k, v⟩ := d
    simp only [SMap.del] at h
    split at h
    · simp [ih h]
    · rcases List.mem_cons.mp h with h | h
      · simp [h]
      · simp [ih h]

theorem SMap.wf_put {α : Type} {m : SMap α} (a : Nat) (x : α) (h : m.wf = true) : (m.put a x).wf = true := by
  rw [SMap.wf_iff] at h ⊢
  induction m with
  | nil => simp [SMap.put]
  | cons c m ih =>
    obtain ⟨k, v⟩ := c
    have hc := List.pairwise_cons.mp h
    simp only [SMap.put]
    split
    · rename_i h1
      refine List.pairwise_cons.mpr ⟨fun d hd => ?_, h⟩
      rcases List.mem_cons.mp hd with rfl | hd
      · exact h1
      · exact Nat.lt_trans h1 (hc.1 d hd)
    · split
      · rename_i _ h2
        subst h2
        exact List.pairwise_cons.mpr hc
      · refine List.pairwise_cons.mpr ⟨fun d hd => ?_, ih hc.2⟩
        rcases SMap.mem_put hd with rfl | hd
        · show k < a
          omega
        · exact hc.1 d hd

theorem SMap.wf_del {α : Type} {m : SMap α} (a : Nat) (h : m.wf = true) : (m.del a).wf = true := by
  rw [SMap.wf_iff] at h ⊢
  induction m with
  | nil => simp [SMap.del]
  | cons c m ih =>
    obtain ⟨k, v⟩ := c
    have hc := List.pairwise_cons.mp h
    simp only [SMap.del]
    split
    · exact ih hc.2
    · exact List.pairwise_cons.mpr ⟨fun d hd => hc.1 d (SMap.mem_del hd), ih hc.2⟩

/-! ## Memory -/

theorem Memory.wf_iff (m : Memory) :
    m.wf = true ↔ m.Pairwise (fun a b => a.1 < b.1) ∧ ∀ c ∈ m, c.2 ≠ 0 := by
  simp [Memory.wf, SMap.wf_iff]

theorem Memory.wf_nil : Memory.wf [] = true := rfl

theorem Memory.wf_filter {m : Memory} (p : Host.Cell → Bool) (h : m.wf = true) : Memory.wf (m.filter p) = true := by
  rw [Memory.wf_iff] at h ⊢
  exact ⟨h.1.filter p, fun c hc => h.2 c ((List.mem_filter.mp hc).1)⟩

theorem Memory.wf_clear {m : Memory} (lo hi : Nat) (h : m.wf = true) : (m.clear lo hi).wf = true :=
  Memory.wf_filter _ h

theorem Memory.wf_write {m : Memory} (a : Nat) (b : Byte) (h : m.wf = true) : (m.write a b).wf = true := by
  unfold Memory.wf at h ⊢
  rw [Bool.and_eq_true, List.all_eq_true] at h ⊢
  unfold Memory.write
  split
  · exact ⟨SMap.wf_del a h.1, fun c hc => h.2 c (SMap.mem_del hc)⟩
  · rename_i hb
    refine ⟨SMap.wf_put a b h.1, fun c hc => ?_⟩
    rcases SMap.mem_put hc with rfl | hc
    · simpa using hb
    · exact h.2 c hc

theorem mem_cellsOf {a : Nat} {bs : List Byte} {c : Host.Cell} (h : c ∈ cellsOf a bs) :
    a ≤ c.1 ∧ c.1 < a + bs.length ∧ c.2 ≠ 0 := by
  induction bs generalizing a with
  | nil => simp [cellsOf] at h
  | cons b bs ih =>
    simp only [cellsOf] at h
    split at h
    · have := ih h
      simp only [List.length_cons]
      exact ⟨by omega, by omega, this.2.2⟩
    · rename_i hb
      simp only [List.length_cons]
      rcases List.mem_cons.mp h with rfl | h
      · exact ⟨Nat.le_refl _, by simp, hb⟩
      · have := ih h
        exact ⟨by omega, by omega, this.2.2⟩

theorem pairwise_cellsOf (a : Nat) (bs : List Byte) : (cellsOf a bs).Pairwise (fun x y => x.1 < y.1) := by
  induction bs generalizing a with
  | nil => simp [cellsOf]
  | cons b bs ih =>
    simp only [cellsOf]
    split
    · exact ih _
    · exact List.pairwise_cons.mpr ⟨fun c hc => (mem_cellsOf hc).1, ih _⟩

theorem Memory.wf_writeN {m : Memory} (a : Nat) (bs : List Byte) (h : m.wf = true) : (m.writeN a bs).wf = true := by
  rw [Memory.wf_iff] at h ⊢
  unfold Memory.writeN
  constructor
  · refine List.pairwise_append.mpr ⟨List.pairwise_append.mpr ⟨h.1.filter _, pairwise_cellsOf a bs, ?_⟩, h.1.filter _, ?_⟩
    · intro x hx y hy
      have h1 := (List.mem_filter.mp hx).2
      have h2 := mem_cellsOf hy
      simp only [decide_eq_true_eq] at h1
      omega
    · intro x hx y hy
      have h2 := (List.mem_filter.mp hy).2
      simp only [decide_eq_true_eq] at h2
      rcases List.mem_append.mp hx with hx | hx
      · have h1 := (List.mem_filter.mp hx).2
        simp only [decide_eq_true_eq] at h1
        omega
      · have h1 := mem_cellsOf hx
        omega
  · intro c hc
    rcases List.mem_append.mp hc with hc | hc
    · rcases List.mem_append.mp hc with hc | hc
      · exact h.2 c ((List.mem_filter.mp hc).1)
      · exact (mem_cellsOf hc).2.2
    · exact h.2 c ((List.mem_filter.mp hc).1)

theorem Memory.wf_writeMask {m : Memory} (a mask i : Nat) (bs : List Byte) (h : m.wf = true) :
    (m.writeMask a mask i bs).wf = true := by
  induction bs generalizing m i with
  | nil => exact h
  | cons b bs ih =>
    unfold Memory.writeMask
    split
    · exact ih _ (Memory.wf_write _ _ h)
    · exact ih _ h

theorem Memory.read_write_same (m : Memory) (a : Nat) (b : Byte) : (m.write a b).read a = b := by
  unfold Memory.write Memory.read
  split
  · rename_i hb
    rw [SMap.find_del_same m a, hb]
    rfl
  · rw [SMap.find_put_same]
    rfl

theorem Memory.read_write_other (m : Memory) {a c : Nat} (b : Byte) (h : c ≠ a) : (m.write a b).read c = m.read c := by
  unfold Memory.write Memory.read
  split
  · rw [SMap.find_del_other m h]
  · rw [SMap.find_put_other m b h]

theorem SMap.find_append {α : Type} (m n : SMap α) (a : Nat) :
    (m ++ n : SMap α).find a = (m.find a).or (n.find a) := by
  induction m with
  | nil => simp [SMap.find]
  | cons c m ih =>
    obtain ⟨k, v⟩ := c
    simp only [List.cons_append, SMap.find]
    split
    · rfl
    · exact ih

theorem SMap.find_filter {α : Type} (m : SMap α) (p : Nat → Bool) (a : Nat) :
    SMap.find (m.filter (fun c => p c.1)) a = if p a then m.find a else none := by
  induction m with
  | nil => simp [SMap.find]
  | cons c m ih =>
    obtain ⟨k, v⟩ := c
    simp only [List.filter_cons, SMap.find]
    by_cases hk : k = a
    · subst hk
      by_cases hp : p k
      · simp [hp, SMap.find]
      · simp [hp, ih]
    · by_cases hp : p k
      · simp [hp, SMap.find, hk, ih]
      · simp [hp, hk, ih]

theorem SMap.find_eq_none_of_ne {α : Type} (m : SMap α) {a : Nat} (h : ∀ c ∈ m, c.1 ≠ a) : m.find a = none := by
  induction m with
  | nil => rfl
  | cons c m ih =>
    obtain ⟨k, v⟩ := c
    simp only [SMap.find]
    rw [if_neg (h (k, v) (by simp))]
    exact ih fun c hc => h c (by simp [hc])

theorem find_cellsOf (a : Nat) (bs : List Byte) (i : Nat) (h : i < bs.length) :
    (SMap.find (cellsOf a bs) (a + i)).getD 0 = bs[i] := by
  induction bs generalizing a i with
  | nil => simp at h
  | cons b bs ih =>
    cases i with
    | zero =>
      simp only [cellsOf, List.getElem_cons_zero, Nat.add_zero]
      split
      · rename_i hb
        rw [SMap.find_none_of_lt (cellsOf (a + 1) bs) fun c hc => (mem_cellsOf hc).1, hb]
        rfl
      · simp [SMap.find]
    | succ i =>
      have h1 : i < bs.length := by simpa using h
      have h2 : a + (i + 1) = a + 1 + i := by omega
      simp only [cellsOf, List.getElem_cons_succ, h2]
      split
      · exact ih (a + 1) i h1
      · rw [SMap.find, if_neg (by omega)]
        exact ih (a + 1) i h1

/-- A byte written reads back. -/
theorem Memory.read_writeN_in (m : Memory) (a i : Nat) (bs : List Byte) (h : i < bs.length) :
    (m.writeN a bs).read (a + i) = bs[i] := by
  unfold Memory.writeN Memory.read
  rw [SMap.find_append, SMap.find_append, SMap.find_filter m (fun k => decide (k < a)),
    SMap.find_filter m (fun k => decide (a + bs.length ≤ k))]
  rw [if_neg (by simp), if_neg (by simp only [decide_eq_true_eq]; omega)]
  simp only [Option.none_or, Option.or_none]
  exact find_cellsOf a bs i h

/-- A byte outside what is written reads as before. -/
theorem Memory.read_writeN_out (m : Memory) (a c : Nat) (bs : List Byte) (h : c < a ∨ a + bs.length ≤ c) :
    (m.writeN a bs).read c = m.read c := by
  unfold Memory.writeN Memory.read
  have hn : SMap.find (cellsOf a bs) c = none :=
    SMap.find_eq_none_of_ne _ fun d hd => by have := mem_cellsOf hd; omega
  rw [SMap.find_append, SMap.find_append, SMap.find_filter m (fun k => decide (k < a)),
    SMap.find_filter m (fun k => decide (a + bs.length ≤ k)), hn]
  rcases h with h | h
  · rw [if_pos (by simpa using h), if_neg (by simp only [decide_eq_true_eq]; omega)]
    simp
  · rw [if_neg (by simp only [decide_eq_true_eq]; omega), if_pos (by simpa using h)]
    simp

end Sys2Proof.Machine
end

