-- ==== Sys2Proof/Laws/Frame.lean ====
section
/-! SUPPORT. The frame relation: how what an operation may write composes. -/

set_option Elab.async false
set_option linter.all false
namespace Sys2Proof.Machine

theorem Field.same_refl (f : Field) (s : State) : f.same s s := by cases f <;> rfl

theorem Field.same_trans {f : Field} {s t u : State} (h : f.same s t) (h' : f.same t u) : f.same s u := by
  cases f <;> exact h'.trans h

theorem Writes.mk {l : List Field} {s t : State} (h : ∀ f : Field, f ∉ l → f.same s t) : Writes l s t := by
  unfold Writes; exact h

theorem Writes.get {l : List Field} {s t : State} (h : Writes l s t) : ∀ f : Field, f ∉ l → f.same s t := by
  unfold Writes at h; exact h

/-- What an operation does to the whole state: it writes the listed parts at most, and keeps the canonical forms of
memory. -/
@[irreducible] def Moves (l : List Field) (s t : State) : Prop := Writes l s t ∧ (Safety.Inv s → Safety.Inv t)

theorem Moves.mk {l : List Field} {s t : State} (h : Writes l s t) (hi : Safety.Inv s → Safety.Inv t) : Moves l s t := by
  unfold Moves; exact ⟨h, hi⟩

theorem Moves.frame {l : List Field} {s t : State} (h : Moves l s t) : Writes l s t := by
  unfold Moves at h; exact h.1

theorem Moves.inv {l : List Field} {s t : State} (h : Moves l s t) : Safety.Inv s → Safety.Inv t := by
  unfold Moves at h; exact h.2

theorem Moves.get {l : List Field} {s t : State} (h : Moves l s t) : ∀ f : Field, f ∉ l → f.same s t := h.frame.get

theorem Moves.refl (l : List Field) (s : State) : Moves l s s := .mk (.mk fun f _ => f.same_refl s) id

theorem Moves.trans {l : List Field} {s t u : State} (h : Moves l s t) (h' : Moves l t u) : Moves l s u :=
  .mk (.mk fun f hf => Field.same_trans (h.get f hf) (h'.get f hf)) fun hi => h'.inv (h.inv hi)

/-- One list of parts within another. -/
def within (l l' : List Field) : Bool := l.all (fun f => l'.contains f)

theorem within.mem {l l' : List Field} (h : within l l' = true) {f : Field} (hf : f ∈ l) : f ∈ l' := by
  have := List.all_eq_true.mp h f hf
  exact List.contains_iff_mem.mp this

/-- The same as a proposition of its own. -/
@[irreducible] def Within (l l' : List Field) : Prop := within l l' = true

theorem Within.mk {l l' : List Field} (h : within l l' = true) : Within l l' := by unfold Within; exact h
theorem Within.out {l l' : List Field} (h : Within l l') : within l l' = true := by unfold Within at h; exact h

theorem Within.trans {a b c : List Field} (h : Within a b) (h' : Within b c) : Within a c :=
  .mk (List.all_eq_true.mpr fun _ hf => List.contains_iff_mem.mpr (within.mem h'.out (within.mem h.out hf)))

theorem Moves.mono {l l' : List Field} {s t : State} (h : Moves l s t) (hl : Within l l') : Moves l' s t :=
  .mk (.mk fun f hf => h.get f (fun hm => hf (within.mem hl.out hm))) h.inv

/-- An operation after another, whose own frame is narrower. -/
theorem Moves.thenOp {l l' : List Field} {s t u : State} (h' : Moves l t u) (hl : Within l l')
    (h : Moves l' s t) : Moves l' s u := h.trans (h'.mono hl)

/-- A state written out part by part. -/
@[irreducible] def MovesMk (l : List Field) (s : State)
    (now : Nat) (freeCount : Nat) (objs : SMap ObjVal) (mem : Memory) (sys : SysSt) (flash : FlashSt) (pitch : PitchSt)
    (routes : List Route) (sched : SchedSt) (scn : SMap FilterMachine) (cairn : CairnSt) (summit : SummitSt)
    (depot : DepotSt) (strands : SMap StrandSt) (cache : CacheSt) (coh : CohSt) (link : LinkSt) (host : HostSt)
    (eng : EngSt) (dram : DramSt) (err : ErrSt) (mgmt : MgmtSt) (power : PowerSt) (out : List OutEv)
    (pending : List Instr) : Prop :=
  Moves l s ⟨now, freeCount, objs, mem, sys, flash, pitch, routes, sched, scn, cairn, summit, depot,
      strands, cache, coh, link, host, eng, dram, err, mgmt, power, out, pending⟩

theorem Moves.mk_eq (l : List Field) (s : State)
    (now : Nat) (freeCount : Nat) (objs : SMap ObjVal) (mem : Memory) (sys : SysSt) (flash : FlashSt) (pitch : PitchSt)
    (routes : List Route) (sched : SchedSt) (scn : SMap FilterMachine) (cairn : CairnSt) (summit : SummitSt)
    (depot : DepotSt) (strands : SMap StrandSt) (cache : CacheSt) (coh : CohSt) (link : LinkSt) (host : HostSt)
    (eng : EngSt) (dram : DramSt) (err : ErrSt) (mgmt : MgmtSt) (power : PowerSt) (out : List OutEv)
    (pending : List Instr) :
    Moves l s ⟨now, freeCount, objs, mem, sys, flash, pitch, routes, sched, scn, cairn, summit, depot,
      strands, cache, coh, link, host, eng, dram, err, mgmt, power, out, pending⟩ =
    MovesMk l s now freeCount objs mem sys flash pitch routes sched scn cairn summit depot
      strands cache coh link host eng dram err mgmt power out pending := by unfold MovesMk; rfl

/-- A record update of a state already reached: every part is in the list or as it was. -/
theorem MovesMk.upd {l : List Field} {s x : State}
    {now : Nat} {freeCount : Nat} {objs : SMap ObjVal} {mem : Memory} {sys : SysSt} {flash : FlashSt} {pitch : PitchSt}
    {routes : List Route} {sched : SchedSt} {scn : SMap FilterMachine} {cairn : CairnSt} {summit : SummitSt}
    {depot : DepotSt} {strands : SMap StrandSt} {cache : CacheSt} {coh : CohSt} {link : LinkSt} {host : HostSt}
    {eng : EngSt} {dram : DramSt} {err : ErrSt} {mgmt : MgmtSt} {power : PowerSt} {out : List OutEv}
    {pending : List Instr}
    (hp : pending = x.pending)
    (hm : mem = x.mem ∨ (x.mem.wf = true → mem.wf = true))
    (hh : host.mem = x.host.mem ∨ (x.host.mem.wf = true → host.mem.wf = true))
    (hx : (l.contains .now = true ∨ now = x.now) ∧
      (l.contains .freeCount = true ∨ freeCount = x.freeCount) ∧
      (l.contains .objs = true ∨ objs = x.objs) ∧
      (l.contains .mem = true ∨ mem = x.mem) ∧
      (l.contains .sys = true ∨ sys = x.sys) ∧
      (l.contains .flash = true ∨ flash = x.flash) ∧
      (l.contains .pitch = true ∨ pitch = x.pitch) ∧
      (l.contains .routes = true ∨ routes = x.routes) ∧
      (l.contains .sched = true ∨ sched = x.sched) ∧
      (l.contains .scn = true ∨ scn = x.scn) ∧
      (l.contains .cairn = true ∨ cairn = x.cairn) ∧
      (l.contains .summit = true ∨ summit = x.summit) ∧
      (l.contains .content = true ∨ depot.objects = x.depot.objects) ∧
      (l.contains .depot = true ∨ (({ depot with objects := [] } : DepotSt) = { x.depot with objects := [] })) ∧
      (l.contains .strands = true ∨ strands = x.strands) ∧
      (l.contains .cache = true ∨ cache = x.cache) ∧
      (l.contains .coh = true ∨ coh.withPeers CohSt.reset = x.coh.withPeers CohSt.reset) ∧
      (l.contains .peers = true ∨ CohSt.reset.withPeers coh = CohSt.reset.withPeers x.coh) ∧
      (l.contains .link = true ∨ link = x.link) ∧
      (l.contains .hostMem = true ∨ host.mem = x.host.mem) ∧
      (l.contains .host = true ∨ (({ host with mem := [] } : HostSt) = { x.host with mem := [] })) ∧
      (l.contains .eng = true ∨ eng = x.eng) ∧
      (l.contains .dram = true ∨ dram = x.dram) ∧
      (l.contains .err = true ∨ err = x.err) ∧
      (l.contains .mgmt = true ∨ mgmt = x.mgmt) ∧
      (l.contains .power = true ∨ power = x.power) ∧
      (l.contains .out = true ∨ out = x.out))
    (h : Moves l s x) :
    MovesMk l s now freeCount objs mem sys flash pitch routes sched scn cairn summit depot
      strands cache coh link host eng dram err mgmt power out pending := by
  unfold MovesMk
  refine h.trans (.mk (.mk ?_) ?inv)
  case inv =>
    rintro ⟨hi, hj⟩
    refine ⟨?_, ?_⟩
    · rcases hm with hm | hm
      · exact hm ▸ hi
      · exact hm hi
    · rcases hh with hh | hh
      · exact hh ▸ hj
      · exact hh hj
  obtain ⟨h0, h1, h2, h3, h4, h5, h6, h7, h8, h9, h10, h11, h12, h13, h14, h15, h16, h17, h18, h19, h20, h21, h22, h23, h24, h25, h26⟩ := hx
  intro f hf
  have get : ∀ {p : Prop} {g : Field}, g ∉ l → (l.contains g = true ∨ p) → p := fun hg ho =>
    ho.resolve_left (fun hc => hg (List.contains_iff_mem.mp hc))
  cases f
  case now => exact get hf h0
  case freeCount => exact get hf h1
  case objs => exact get hf h2
  case mem => exact get hf h3
  case sys => exact get hf h4
  case flash => exact get hf h5
  case pitch => exact get hf h6
  case routes => exact get hf h7
  case sched => exact get hf h8
  case scn => exact get hf h9
  case cairn => exact get hf h10
  case summit => exact get hf h11
  case content => exact get hf h12
  case depot => exact get hf h13
  case strands => exact get hf h14
  case cache => exact get hf h15
  case coh => exact get hf h16
  case peers => exact get hf h17
  case link => exact get hf h18
  case hostMem => exact get hf h19
  case host => exact get hf h20
  case eng => exact get hf h21
  case dram => exact get hf h22
  case err => exact get hf h23
  case mgmt => exact get hf h24
  case power => exact get hf h25
  case out => exact get hf h26
  case pending => exact hp

/-- The parts of an update, one by one. -/
theorem upd_parts {p0 p1 p2 p3 p4 p5 p6 p7 p8 p9 p10 p11 p12 p13 p14 p15 p16 p17 p18 p19 p20 p21 p22 p23 p24 p25
    p26 : Prop} (h0 : p0) (h1 : p1) (h2 : p2) (h3 : p3) (h4 : p4) (h5 : p5) (h6 : p6) (h7 : p7) (h8 : p8) (h9 : p9)
    (h10 : p10) (h11 : p11) (h12 : p12) (h13 : p13) (h14 : p14) (h15 : p15) (h16 : p16) (h17 : p17) (h18 : p18)
    (h19 : p19) (h20 : p20) (h21 : p21) (h22 : p22) (h23 : p23) (h24 : p24) (h25 : p25) (h26 : p26) : p0 ∧ p1 ∧ p2
    ∧ p3 ∧ p4 ∧ p5 ∧ p6 ∧ p7 ∧ p8 ∧ p9 ∧ p10 ∧ p11 ∧ p12 ∧ p13 ∧ p14 ∧ p15 ∧ p16 ∧ p17 ∧ p18 ∧ p19 ∧ p20 ∧ p21 ∧
    p22 ∧ p23 ∧ p24 ∧ p25 ∧ p26 := ⟨h0, h1, h2, h3, h4, h5, h6, h7, h8, h9, h10, h11, h12, h13, h14, h15, h16, h17,
    h18, h19, h20, h21, h22, h23, h24, h25, h26⟩

theorem Moves.foldl {α : Type} {l : List Field} {s x : State} {f : State → α → State} (xs : List α)
    (hf : ∀ t a, Moves l t (f t a)) (h : Moves l s x) : Moves l s (xs.foldl f x) := by
  induction xs generalizing x with
  | nil => exact h
  | cons a xs ih => exact ih (h.trans (hf x a))

theorem Moves.foldl_fst {α β : Type} {l : List Field} {s : State} {x : State × β} {f : State × β → α → State × β}
    (xs : List α) (hf : ∀ t a, Moves l t.1 (f t a).1) (h : Moves l s x.1) : Moves l s (xs.foldl f x).1 := by
  induction xs generalizing x with
  | nil => exact h
  | cons a xs ih => exact ih (h.trans (hf x a))

theorem Moves.foldl_snd {α β : Type} {l : List Field} {s : State} {x : β × State} {f : β × State → α → β × State}
    (xs : List α) (hf : ∀ t a, Moves l t.2 (f t a).2) (h : Moves l s x.2) : Moves l s (xs.foldl f x).2 := by
  induction xs generalizing x with
  | nil => exact h
  | cons a xs ih => exact ih (h.trans (hf x a))

theorem Moves.of_fst {β : Type} {l : List Field} {s t : State} {r : State × β} {b : β} (h : Moves l s r.1)
    (e : r = (t, b)) : Moves l s t := by subst e; exact h

theorem Moves.of_snd {β : Type} {l : List Field} {s t : State} {r : β × State} {b : β} (h : Moves l s r.2)
    (e : r = (b, t)) : Moves l s t := by subst e; exact h

/-! ## What holds of the state in an answer -/

/-! ### A choice of two answers -/

theorem Moves.ite {l : List Field} {s a b : State} {c : Prop} [Decidable c] (h : Moves l s a) (h' : Moves l s b) :
    Moves l s (if c then a else b) := by split <;> assumption

theorem Moves.ite_fst {β : Type} {l : List Field} {s : State} {a b : State × β} {c : Prop} [Decidable c]
    (h : Moves l s a.1) (h' : Moves l s b.1) : Moves l s (if c then a else b).1 := by split <;> assumption

theorem Moves.ite_snd {β : Type} {l : List Field} {s : State} {a b : β × State} {c : Prop} [Decidable c]
    (h : Moves l s a.2) (h' : Moves l s b.2) : Moves l s (if c then a else b).2 := by split <;> assumption

def OptAll {α : Type} (P : α → Prop) : Option α → Prop
  | none => True
  | some a => P a

theorem OptAll.get {α : Type} {P : α → Prop} {o : Option α} {a : α} (h : OptAll P o) (e : o = some a) : P a := by
  subst e; exact h

theorem OptAll.some' {α : Type} {P : α → Prop} {a : α} (h : P a) : OptAll P (some a) := h
theorem OptAll.none' {α : Type} {P : α → Prop} : OptAll P none := trivial

theorem OptAll.imp {α : Type} {P Q : α → Prop} {o : Option α} (hi : ∀ a, P a → Q a) (h : OptAll P o) : OptAll Q o := by
  cases o with
  | none => trivial
  | some a => exact hi a h

def ExcAll {ε α : Type} (P : α → Prop) : Except ε α → Prop
  | .error _ => True
  | .ok a => P a

theorem ExcAll.get {ε α : Type} {P : α → Prop} {o : Except ε α} {a : α} (h : ExcAll P o) (e : o = .ok a) : P a := by
  subst e; exact h

theorem ExcAll.ok' {ε α : Type} {P : α → Prop} {a : α} (h : P a) : ExcAll (ε := ε) P (.ok a) := h
theorem ExcAll.error' {ε α : Type} {P : α → Prop} {e : ε} : ExcAll P (.error e) := trivial

theorem ExcAll.imp {ε α : Type} {P Q : α → Prop} {o : Except ε α} (hi : ∀ a, P a → Q a) (h : ExcAll P o) :
    ExcAll Q o := by
  cases o with
  | error _ => trivial
  | ok a => exact hi a h

def ResAll (P : State → Prop) : Res → Prop
  | .next t => P t
  | _ => True

theorem ResAll.get {P : State → Prop} {r : Res} {t : State} (h : ResAll P r) (e : r = .next t) : P t := by
  subst e; exact h

theorem ResAll.next' {P : State → Prop} {t : State} (h : P t) : ResAll P (.next t) := h

theorem ResAll.imp {P Q : State → Prop} {r : Res} (hi : ∀ t, P t → Q t) (h : ResAll P r) : ResAll Q r := by
  cases r with
  | next t => exact hi t h
  | fault _ => trivial
  | refused _ => trivial

def LRes.All (P : State → Prop) : LRes → Prop
  | .ok _ s _ => P s
  | .trap _ _ => True
  | .wait s => P s
  | .full _ _ s => P s

theorem LRes.All.imp {P Q : State → Prop} {r : LRes} (hi : ∀ t, P t → Q t) (h : LRes.All P r) : LRes.All Q r := by
  cases r <;> first | exact trivial | exact hi _ h

theorem LRes.All.okGet {P : State → Prop} {r : LRes} {b n} {s : State} (h : LRes.All P r) (e : r = .ok b s n) : P s := by
  subst e; exact h

theorem LRes.All.okIn {P : State → Prop} {b n} {s : State} (h : P s) : LRes.All P (.ok b s n : LRes) := h

theorem LRes.All.waitGet {P : State → Prop} {r : LRes} {s : State} (h : LRes.All P r) (e : r = .wait s) : P s := by
  subst e; exact h

theorem LRes.All.waitIn {P : State → Prop} {s : State} (h : P s) : LRes.All P (.wait s : LRes) := h

theorem LRes.All.fullGet {P : State → Prop} {r : LRes} {c k} {s : State} (h : LRes.All P r) (e : r = .full c k s) : P s := by
  subst e; exact h

theorem LRes.All.fullIn {P : State → Prop} {c k} {s : State} (h : P s) : LRes.All P (.full c k s : LRes) := h

def SEff.All (P : State → Prop) : SEff → Prop
  | .ok _ s => P s
  | .trap _ _ => True
  | .wait s => P s
  | .full _ _ s => P s

theorem SEff.All.imp {P Q : State → Prop} {r : SEff} (hi : ∀ t, P t → Q t) (h : SEff.All P r) : SEff.All Q r := by
  cases r <;> first | exact trivial | exact hi _ h

theorem SEff.All.okGet {P : State → Prop} {r : SEff} {t} {s : State} (h : SEff.All P r) (e : r = .ok t s) : P s := by
  subst e; exact h

theorem SEff.All.okIn {P : State → Prop} {t} {s : State} (h : P s) : SEff.All P (.ok t s : SEff) := h

theorem SEff.All.waitGet {P : State → Prop} {r : SEff} {s : State} (h : SEff.All P r) (e : r = .wait s) : P s := by
  subst e; exact h

theorem SEff.All.waitIn {P : State → Prop} {s : State} (h : P s) : SEff.All P (.wait s : SEff) := h

theorem SEff.All.fullGet {P : State → Prop} {r : SEff} {c k} {s : State} (h : SEff.All P r) (e : r = .full c k s) : P s := by
  subst e; exact h

theorem SEff.All.fullIn {P : State → Prop} {c k} {s : State} (h : P s) : SEff.All P (.full c k s : SEff) := h

def StoreRes.All (P : State → Prop) : StoreRes → Prop
  | .done s => P s
  | .full => True
  | .wait s => P s

theorem StoreRes.All.imp {P Q : State → Prop} {r : StoreRes} (hi : ∀ t, P t → Q t) (h : StoreRes.All P r) :
    StoreRes.All Q r := by
  cases r <;> first | exact trivial | exact hi _ h

theorem StoreRes.All.doneGet {P : State → Prop} {r : StoreRes} {s : State} (h : StoreRes.All P r) (e : r = .done s) : P s := by
  subst e; exact h

theorem StoreRes.All.waitGet {P : State → Prop} {r : StoreRes} {s : State} (h : StoreRes.All P r) (e : r = .wait s) : P s := by
  subst e; exact h

theorem StoreRes.All.doneIn {P : State → Prop} {s : State} (h : P s) : StoreRes.All P (.done s : StoreRes) := h

theorem StoreRes.All.waitIn {P : State → Prop} {s : State} (h : P s) : StoreRes.All P (.wait s : StoreRes) := h

theorem StoreRes.All.fullIn {P : State → Prop} : StoreRes.All P .full := trivial

def Alloc.All (P : State → Prop) : Alloc → Prop
  | .ok s => P s
  | .wait _ => True
  | .fail _ _ s => P s

theorem Alloc.All.imp {P Q : State → Prop} {r : Alloc} (hi : ∀ t, P t → Q t) (h : Alloc.All P r) : Alloc.All Q r := by
  cases r <;> first | exact trivial | exact hi _ h

theorem Alloc.All.okGet {P : State → Prop} {r : Alloc} {s : State} (h : Alloc.All P r) (e : r = .ok s) : P s := by
  subst e; exact h

theorem Alloc.All.okIn {P : State → Prop} {s : State} (h : P s) : Alloc.All P (.ok s : Alloc) := h

theorem Alloc.All.failGet {P : State → Prop} {r : Alloc} {c k} {s : State} (h : Alloc.All P r) (e : r = .fail c k s) : P s := by
  subst e; exact h

theorem Alloc.All.failIn {P : State → Prop} {c k} {s : State} (h : P s) : Alloc.All P (.fail c k s : Alloc) := h

def VRes.All (P : State → Prop) : VRes → Prop
  | .ok _ s _ => P s
  | .trap _ _ _ _ s _ => P s
  | .wait s => P s
  | .full _ _ s => P s

theorem VRes.All.imp {P Q : State → Prop} {r : VRes} (hi : ∀ t, P t → Q t) (h : VRes.All P r) : VRes.All Q r := by
  cases r <;> first | exact trivial | exact hi _ h

theorem VRes.All.okGet {P : State → Prop} {r : VRes} {v n} {s : State} (h : VRes.All P r) (e : r = .ok v s n) : P s := by
  subst e; exact h

theorem VRes.All.okIn {P : State → Prop} {v n} {s : State} (h : P s) : VRes.All P (.ok v s n : VRes) := h

theorem VRes.All.trapGet {P : State → Prop} {r : VRes} {i c v w n} {s : State} (h : VRes.All P r) (e : r = .trap i c v w s n) : P s := by
  subst e; exact h

theorem VRes.All.trapIn {P : State → Prop} {i c v w n} {s : State} (h : P s) : VRes.All P (.trap i c v w s n : VRes) := h

theorem VRes.All.waitGet {P : State → Prop} {r : VRes} {s : State} (h : VRes.All P r) (e : r = .wait s) : P s := by
  subst e; exact h

theorem VRes.All.waitIn {P : State → Prop} {s : State} (h : P s) : VRes.All P (.wait s : VRes) := h

theorem VRes.All.fullGet {P : State → Prop} {r : VRes} {c k} {s : State} (h : VRes.All P r) (e : r = .full c k s) : P s := by
  subst e; exact h

theorem VRes.All.fullIn {P : State → Prop} {c k} {s : State} (h : P s) : VRes.All P (.full c k s : VRes) := h

def WorkAns.All (P : State → Prop) : WorkAns → Prop
  | .wait => True
  | .halt _ => True
  | .done _ s => P s

theorem WorkAns.All.imp {P Q : State → Prop} {r : WorkAns} (hi : ∀ t, P t → Q t) (h : WorkAns.All P r) : WorkAns.All Q r := by
  cases r <;> first | exact trivial | exact hi _ h

theorem WorkAns.All.doneGet {P : State → Prop} {w : WorkAns} {r} {s : State} (h : WorkAns.All P w) (e : w = .done r s) : P s := by
  subst e; exact h

theorem WorkAns.All.doneIn {P : State → Prop} {r} {s : State} (h : P s) : WorkAns.All P (.done r s : WorkAns) := h

def FRes.All (P : State → Prop) : FRes → Prop
  | .ok s _ => P s
  | .fault _ => True
  | .noOperand => True

theorem FRes.All.imp {P Q : State → Prop} {r : FRes} (hi : ∀ t, P t → Q t) (h : FRes.All P r) : FRes.All Q r := by
  cases r <;> first | exact trivial | exact hi _ h

theorem FRes.All.okGet {P : State → Prop} {r : FRes} {m} {s : State} (h : FRes.All P r) (e : r = .ok s m) : P s := by
  subst e; exact h

theorem FRes.All.okIn {P : State → Prop} {m} {s : State} (h : P s) : FRes.All P (.ok s m : FRes) := h

def TRes.All {α : Type} (P : State → Prop) : TRes α → Prop
  | .ok _ s => P s
  | .again _ => True
  | .need _ => True
  | .ask _ => True
  | .full _ _ s => P s
  | .bad _ s => P s

theorem TRes.All.imp {α : Type} {P Q : State → Prop} {r : TRes α} (hi : ∀ t, P t → Q t) (h : TRes.All P r) : TRes.All Q r := by
  cases r <;> first | exact trivial | exact hi _ h

theorem TRes.All.okGet {α : Type} {P : State → Prop} {r : TRes α} {a} {s : State} (h : TRes.All P r) (e : r = .ok a s) : P s := by
  subst e; exact h

theorem TRes.All.okIn {α : Type} {P : State → Prop} {a} {s : State} (h : P s) : TRes.All P (.ok a s : TRes α) := h

theorem TRes.All.fullGet {α : Type} {P : State → Prop} {r : TRes α} {c k} {s : State} (h : TRes.All P r) (e : r = .full c k s) : P s := by
  subst e; exact h

theorem TRes.All.fullIn {α : Type} {P : State → Prop} {c k} {s : State} (h : P s) : TRes.All P (.full c k s : TRes α) := h

theorem TRes.All.badGet {α : Type} {P : State → Prop} {r : TRes α} {f} {s : State} (h : TRes.All P r) (e : r = .bad f s) : P s := by
  subst e; exact h

theorem TRes.All.badIn {α : Type} {P : State → Prop} {f} {s : State} (h : P s) : TRes.All P (.bad f s : TRes α) := h

theorem TRes.All.andThen {α β : Type} {P : State → Prop} {r : TRes α} {f : α → State → TRes β}
    (h : TRes.All P r) (hf : ∀ a t, P t → TRes.All P (f a t)) : TRes.All P (r.andThen f) := by
  cases r <;> first | exact trivial | exact hf _ _ h | exact h

def CairnAns.All (P : State → Prop) : CairnAns → Prop
  | .ok s => P s
  | .fail _ => True
  | .ask _ => True

theorem CairnAns.All.imp {P Q : State → Prop} {r : CairnAns} (hi : ∀ t, P t → Q t) (h : CairnAns.All P r) :
    CairnAns.All Q r := by
  cases r <;> first | exact trivial | exact hi _ h

theorem CairnAns.All.okGet {P : State → Prop} {r : CairnAns} {s : State} (h : CairnAns.All P r) (e : r = .ok s) : P s := by
  subst e; exact h

theorem CairnAns.All.okIn {P : State → Prop} {s : State} (h : P s) : CairnAns.All P (.ok s) := h
theorem CairnAns.All.failIn {P : State → Prop} {c} : CairnAns.All P (.fail c) := trivial
theorem CairnAns.All.askIn {P : State → Prop} {c} : CairnAns.All P (.ask c) := trivial
theorem CairnAns.All.ite {P : State → Prop} {a b : CairnAns} {c : Prop} [Decidable c] (h : CairnAns.All P a)
    (h' : CairnAns.All P b) : CairnAns.All P (if c then a else b) := by split <;> assumption

def ListAns.All (P : State → Prop) : ListAns → Prop
  | .done s => P s
  | .fail s _ _ => P s
  | .ask s _ _ => P s

theorem ListAns.All.imp {P Q : State → Prop} {r : ListAns} (hi : ∀ t, P t → Q t) (h : ListAns.All P r) :
    ListAns.All Q r := by
  cases r <;> exact hi _ h

theorem ListAns.All.doneGet {P : State → Prop} {r : ListAns} {s : State} (h : ListAns.All P r) (e : r = .done s) :
    P s := by subst e; exact h
theorem ListAns.All.failGet {P : State → Prop} {r : ListAns} {s : State} {c i} (h : ListAns.All P r)
    (e : r = .fail s c i) : P s := by subst e; exact h
theorem ListAns.All.askGet {P : State → Prop} {r : ListAns} {s : State} {i m} (h : ListAns.All P r)
    (e : r = .ask s i m) : P s := by subst e; exact h

theorem OptAll.ite {α : Type} {P : α → Prop} {a b : Option α} {c : Prop} [Decidable c] (h : OptAll P a) (h' : OptAll P b) :
    OptAll P (if c then a else b) := by split <;> assumption

theorem ExcAll.ite {ε α : Type} {P : α → Prop} {a b : Except ε α} {c : Prop} [Decidable c] (h : ExcAll P a) (h' : ExcAll P b) :
    ExcAll P (if c then a else b) := by split <;> assumption

theorem ResAll.ite {P : State → Prop} {a b : Res} {c : Prop} [Decidable c] (h : ResAll P a) (h' : ResAll P b) :
    ResAll P (if c then a else b) := by split <;> assumption

theorem LRes.All.ite {P : State → Prop} {a b : LRes} {c : Prop} [Decidable c] (h : LRes.All P a) (h' : LRes.All P b) :
    LRes.All P (if c then a else b) := by split <;> assumption

theorem SEff.All.ite {P : State → Prop} {a b : SEff} {c : Prop} [Decidable c] (h : SEff.All P a) (h' : SEff.All P b) :
    SEff.All P (if c then a else b) := by split <;> assumption

theorem Alloc.All.ite {P : State → Prop} {a b : Alloc} {c : Prop} [Decidable c] (h : Alloc.All P a) (h' : Alloc.All P b) :
    Alloc.All P (if c then a else b) := by split <;> assumption

theorem VRes.All.ite {P : State → Prop} {a b : VRes} {c : Prop} [Decidable c] (h : VRes.All P a) (h' : VRes.All P b) :
    VRes.All P (if c then a else b) := by split <;> assumption

theorem WorkAns.All.ite {P : State → Prop} {a b : WorkAns} {c : Prop} [Decidable c] (h : WorkAns.All P a) (h' : WorkAns.All P b) :
    WorkAns.All P (if c then a else b) := by split <;> assumption

theorem FRes.All.ite {P : State → Prop} {a b : FRes} {c : Prop} [Decidable c] (h : FRes.All P a) (h' : FRes.All P b) :
    FRes.All P (if c then a else b) := by split <;> assumption

theorem TRes.All.ite {α : Type} {P : State → Prop} {a b : TRes α} {c : Prop} [Decidable c] (h : TRes.All P a) (h' : TRes.All P b) :
    TRes.All P (if c then a else b) := by split <;> assumption

theorem LRes.All.trapIn {P : State → Prop} {c v} : LRes.All P (.trap c v : LRes) := trivial
theorem SEff.All.trapIn {P : State → Prop} {c v} : SEff.All P (.trap c v : SEff) := trivial
theorem Alloc.All.waitIn {P : State → Prop} {m} : Alloc.All P (.wait m : Alloc) := trivial
theorem WorkAns.All.waitIn {P : State → Prop} : WorkAns.All P (.wait : WorkAns) := trivial
theorem WorkAns.All.haltIn {P : State → Prop} {c} : WorkAns.All P (.halt c : WorkAns) := trivial
theorem FRes.All.faultIn {P : State → Prop} {c} : FRes.All P (.fault c : FRes) := trivial
theorem FRes.All.noOperandIn {P : State → Prop} : FRes.All P (.noOperand : FRes) := trivial
theorem TRes.All.againIn {α : Type} {P : State → Prop} {c} : TRes.All P (.again c : TRes α) := trivial
theorem TRes.All.needIn {α : Type} {P : State → Prop} {c} : TRes.All P (.need c : TRes α) := trivial
theorem TRes.All.askIn {α : Type} {P : State → Prop} {c} : TRes.All P (.ask c : TRes α) := trivial
theorem Res.fault_all {P : State → Prop} {c} : ResAll P (.fault c : Res) := trivial
theorem Res.refused_all {P : State → Prop} {c} : ResAll P (.refused c : Res) := trivial

/-! ### Taking the state out of an answer -/

theorem OptAll.st {l : List Field} {s t : State} {o : Option State} (h : OptAll (fun a => Moves l s a) o)
    (e : o = some t) : Moves l s t := h.get e
theorem Moves.getD {l : List Field} {s t : State} {o : Option State} (h : OptAll (fun a => Moves l s a) o)
    (h' : Moves l s t) : Moves l s (o.getD t) := by
  cases o
  · exact h'
  · exact h
theorem OptAll.stSnd {β : Type} {l : List Field} {s t : State} {o : Option (β × State)} {b : β}
    (h : OptAll (fun a => Moves l s a.2) o) (e : o = some (b, t)) : Moves l s t := h.get e
theorem OptAll.stSnd' {β : Type} {l : List Field} {s : State} {o : Option (β × State)} {b : β × State}
    (h : OptAll (fun a => Moves l s a.2) o) (e : o = some b) : Moves l s b.2 := h.get e
theorem OptAll.stFst {β : Type} {l : List Field} {s t : State} {o : Option (State × β)} {b : β}
    (h : OptAll (fun a => Moves l s a.1) o) (e : o = some (t, b)) : Moves l s t := h.get e
theorem OptAll.stFst' {β : Type} {l : List Field} {s : State} {o : Option (State × β)} {b : State × β}
    (h : OptAll (fun a => Moves l s a.1) o) (e : o = some b) : Moves l s b.1 := h.get e
theorem OptAll.stThird {β γ : Type} {l : List Field} {s t : State} {o : Option (β × γ × State)} {b : β} {c : γ}
    (h : OptAll (fun a => Moves l s a.2.2) o) (e : o = some (b, c, t)) : Moves l s t := h.get e
theorem OptAll.stMid {β γ : Type} {l : List Field} {s t : State} {o : Option (β × State × γ)} {b : β} {c : γ}
    (h : OptAll (fun a => Moves l s a.2.1) o) (e : o = some (b, t, c)) : Moves l s t := h.get e
theorem ExcAll.st {ε : Type} {l : List Field} {s t : State} {o : Except ε State} (h : ExcAll (fun a => Moves l s a) o)
    (e : o = .ok t) : Moves l s t := h.get e
theorem ExcAll.stSnd {ε β : Type} {l : List Field} {s t : State} {o : Except ε (β × State)} {b : β}
    (h : ExcAll (fun a => Moves l s a.2) o) (e : o = .ok (b, t)) : Moves l s t := h.get e
theorem ExcAll.stSnd' {ε β : Type} {l : List Field} {s : State} {o : Except ε (β × State)} {b : β × State}
    (h : ExcAll (fun a => Moves l s a.2) o) (e : o = .ok b) : Moves l s b.2 := h.get e
theorem ExcAll.stFst {ε β : Type} {l : List Field} {s t : State} {o : Except ε (State × β)} {b : β}
    (h : ExcAll (fun a => Moves l s a.1) o) (e : o = .ok (t, b)) : Moves l s t := h.get e
theorem ExcAll.stFst' {ε β : Type} {l : List Field} {s : State} {o : Except ε (State × β)} {b : State × β}
    (h : ExcAll (fun a => Moves l s a.1) o) (e : o = .ok b) : Moves l s b.1 := h.get e
theorem ExcAll.stThird {ε β γ : Type} {l : List Field} {s t : State} {o : Except ε (β × γ × State)} {b : β} {c : γ}
    (h : ExcAll (fun a => Moves l s a.2.2) o) (e : o = .ok (b, c, t)) : Moves l s t := h.get e
theorem ExcAll.stMid {ε β γ : Type} {l : List Field} {s t : State} {o : Except ε (β × State × γ)} {b : β} {c : γ}
    (h : ExcAll (fun a => Moves l s a.2.1) o) (e : o = .ok (b, t, c)) : Moves l s t := h.get e

theorem OptAll.stOk {ε : Type} {l : List Field} {s t : State} {o : Option (Except ε State)}
    (h : OptAll (fun a => ExcAll (fun u => Moves l s u) a) o) (e : o = some (.ok t)) : Moves l s t := by
  subst e; exact h
theorem Moves.of_mid {β γ : Type} {l : List Field} {s t : State} {r : β × State × γ} {b : β} {c : γ}
    (h : Moves l s r.2.1) (e : r = (b, t, c)) : Moves l s t := by subst e; exact h
theorem Moves.of_third {β γ : Type} {l : List Field} {s t : State} {r : β × γ × State} {b : β} {c : γ}
    (h : Moves l s r.2.2) (e : r = (b, c, t)) : Moves l s t := by subst e; exact h
theorem Moves.of_head {β γ : Type} {l : List Field} {s t : State} {r : State × β × γ} {b : β} {c : γ}
    (h : Moves l s r.1) (e : r = (t, b, c)) : Moves l s t := by subst e; exact h

theorem TRes.ofAlloc_all {P : State → Prop} {a : Alloc} (h : Alloc.All P a) : TRes.All P (TRes.ofAlloc a) := by
  cases a <;> first | exact h | exact trivial

theorem TRes.each_all {α : Type} {l : List Field} {s t : State} {f : α → State → TRes Unit} (xs : List α)
    (hf : ∀ a u, TRes.All (fun v => Moves l u v) (f a u)) (h : Moves l s t) :
    TRes.All (fun v => Moves l s v) (TRes.each f xs t) := by
  induction xs generalizing t with
  | nil => exact h
  | cons a xs ih =>
    unfold TRes.each
    exact TRes.All.andThen (TRes.All.imp (fun _ hw => h.trans hw) (hf a t)) (fun _ _ hw => ih hw)

theorem OptAll.map {α β : Type} {P : β → Prop} {f : α → β} {o : Option α} (h : OptAll (fun a => P (f a)) o) :
    OptAll P (o.map f) := by cases o <;> first | exact trivial | exact h
theorem OptAll.all {α : Type} {P : α → Prop} {o : Option α} (h : ∀ a, P a) : OptAll P o := by
  cases o <;> first | exact trivial | exact h _
theorem OptAll.exc {ε : Type} {l : List Field} {s : State} {o : Option (Except ε State)} {r : Except ε State}
    (h : OptAll (fun a => ExcAll (fun u => Moves l s u) a) o) (e : o = some r) : ExcAll (fun u => Moves l s u) r := by
  subst e; exact h

/-! ## What an operation keeps -/

theorem Moves.keeps {l : List Field} {s t : State} (h : Moves l s t) (f : Field) (hf : l.contains f = false) : f.same s t :=
  h.get f fun hm => by rw [List.contains_iff_mem.mpr hm] at hf; cases hf

theorem Moves.now_eq {l : List Field} {s t : State} (h : Moves l s t) (hf : l.contains .now = false) : t.now = s.now :=
  h.keeps .now hf
theorem Moves.freeCount_eq {l : List Field} {s t : State} (h : Moves l s t) (hf : l.contains .freeCount = false) : t.freeCount = s.freeCount :=
  h.keeps .freeCount hf
theorem Moves.objs_eq {l : List Field} {s t : State} (h : Moves l s t) (hf : l.contains .objs = false) : t.objs = s.objs :=
  h.keeps .objs hf
theorem Moves.mem_eq {l : List Field} {s t : State} (h : Moves l s t) (hf : l.contains .mem = false) : t.mem = s.mem :=
  h.keeps .mem hf
theorem Moves.sys_eq {l : List Field} {s t : State} (h : Moves l s t) (hf : l.contains .sys = false) : t.sys = s.sys :=
  h.keeps .sys hf
theorem Moves.flash_eq {l : List Field} {s t : State} (h : Moves l s t) (hf : l.contains .flash = false) : t.flash = s.flash :=
  h.keeps .flash hf
theorem Moves.pitch_eq {l : List Field} {s t : State} (h : Moves l s t) (hf : l.contains .pitch = false) : t.pitch = s.pitch :=
  h.keeps .pitch hf
theorem Moves.routes_eq {l : List Field} {s t : State} (h : Moves l s t) (hf : l.contains .routes = false) : t.routes = s.routes :=
  h.keeps .routes hf
theorem Moves.sched_eq {l : List Field} {s t : State} (h : Moves l s t) (hf : l.contains .sched = false) : t.sched = s.sched :=
  h.keeps .sched hf
theorem Moves.scn_eq {l : List Field} {s t : State} (h : Moves l s t) (hf : l.contains .scn = false) : t.scn = s.scn :=
  h.keeps .scn hf
theorem Moves.cairn_eq {l : List Field} {s t : State} (h : Moves l s t) (hf : l.contains .cairn = false) : t.cairn = s.cairn :=
  h.keeps .cairn hf
theorem Moves.summit_eq {l : List Field} {s t : State} (h : Moves l s t) (hf : l.contains .summit = false) : t.summit = s.summit :=
  h.keeps .summit hf
theorem Moves.strands_eq {l : List Field} {s t : State} (h : Moves l s t) (hf : l.contains .strands = false) : t.strands = s.strands :=
  h.keeps .strands hf
theorem Moves.cache_eq {l : List Field} {s t : State} (h : Moves l s t) (hf : l.contains .cache = false) : t.cache = s.cache :=
  h.keeps .cache hf
theorem Moves.link_eq {l : List Field} {s t : State} (h : Moves l s t) (hf : l.contains .link = false) : t.link = s.link :=
  h.keeps .link hf
theorem Moves.eng_eq {l : List Field} {s t : State} (h : Moves l s t) (hf : l.contains .eng = false) : t.eng = s.eng :=
  h.keeps .eng hf
theorem Moves.dram_eq {l : List Field} {s t : State} (h : Moves l s t) (hf : l.contains .dram = false) : t.dram = s.dram :=
  h.keeps .dram hf
theorem Moves.err_eq {l : List Field} {s t : State} (h : Moves l s t) (hf : l.contains .err = false) : t.err = s.err :=
  h.keeps .err hf
theorem Moves.mgmt_eq {l : List Field} {s t : State} (h : Moves l s t) (hf : l.contains .mgmt = false) : t.mgmt = s.mgmt :=
  h.keeps .mgmt hf
theorem Moves.power_eq {l : List Field} {s t : State} (h : Moves l s t) (hf : l.contains .power = false) : t.power = s.power :=
  h.keeps .power hf
theorem Moves.out_eq {l : List Field} {s t : State} (h : Moves l s t) (hf : l.contains .out = false) : t.out = s.out :=
  h.keeps .out hf
theorem Moves.pending_eq {l : List Field} {s t : State} (h : Moves l s t) (hf : l.contains .pending = false) : t.pending = s.pending :=
  h.keeps .pending hf

theorem Moves.objects_eq {l : List Field} {s t : State} (h : Moves l s t) (hf : l.contains .content = false) :
    t.depot.objects = s.depot.objects := h.keeps .content hf
theorem Moves.hostMem_eq {l : List Field} {s t : State} (h : Moves l s t) (hf : l.contains .hostMem = false) :
    t.host.mem = s.host.mem := h.keeps .hostMem hf

theorem Moves.depot_eq {l : List Field} {s t : State} (h : Moves l s t) (hf : l.contains .content = false)
    (hg : l.contains .depot = false) : t.depot = s.depot := by
  have a : t.depot.objects = s.depot.objects := h.keeps .content hf
  have b : ({ t.depot with objects := [] } : DepotSt) = { s.depot with objects := [] } := h.keeps .depot hg
  have e (d : DepotSt) : ({ ({ d with objects := [] } : DepotSt) with objects := d.objects } : DepotSt) = d := rfl
  rw [← e t.depot, ← e s.depot, a, b]

theorem Moves.host_eq {l : List Field} {s t : State} (h : Moves l s t) (hf : l.contains .hostMem = false)
    (hg : l.contains .host = false) : t.host = s.host := by
  have a : t.host.mem = s.host.mem := h.keeps .hostMem hf
  have b : ({ t.host with mem := [] } : HostSt) = { s.host with mem := [] } := h.keeps .host hg
  have e (d : HostSt) : ({ ({ d with mem := [] } : HostSt) with mem := d.mem } : HostSt) = d := rfl
  rw [← e t.host, ← e s.host, a, b]

theorem Moves.peers_eq {l : List Field} {s t : State} (h : Moves l s t) (hf : l.contains .peers = false) :
    t.coh.dead = s.coh.dead ∧ t.coh.lastBeat = s.coh.lastBeat ∧ t.coh.seenBeat = s.coh.seenBeat ∧
    t.coh.retreated = s.coh.retreated ∧ t.coh.beats = s.coh.beats ∧ t.coh.silent = s.coh.silent := by
  have e : CohSt.reset.withPeers t.coh = CohSt.reset.withPeers s.coh := h.keeps .peers hf
  have g (f : CohSt → Prop) (hs : f (CohSt.reset.withPeers s.coh)) : f (CohSt.reset.withPeers t.coh) := e ▸ hs
  exact ⟨g (fun c => c.dead = s.coh.dead) rfl, g (fun c => c.lastBeat = s.coh.lastBeat) rfl,
    g (fun c => c.seenBeat = s.coh.seenBeat) rfl, g (fun c => c.retreated = s.coh.retreated) rfl,
    g (fun c => c.beats = s.coh.beats) rfl, g (fun c => c.silent = s.coh.silent) rfl⟩

theorem Moves.coh_eq {l : List Field} {s t : State} (h : Moves l s t) (hf : l.contains .coh = false)
    (hg : l.contains .peers = false) : t.coh = s.coh := by
  have a : t.coh.withPeers CohSt.reset = s.coh.withPeers CohSt.reset := h.keeps .coh hf
  have b : CohSt.reset.withPeers t.coh = CohSt.reset.withPeers s.coh := h.keeps .peers hg
  have e (c : CohSt) : (c.withPeers CohSt.reset).withPeers (CohSt.reset.withPeers c) = c := rfl
  rw [← e t.coh, ← e s.coh, a, b]

end Sys2Proof.Machine
end

