-- ==== Sys2Proof/Laws/FrameOps.lean ====
section
/-! SUPPORT. What each function may write: the shared operations, the Depot and the fabric. -/

set_option Elab.async false
set_option linter.all false
namespace Sys2Proof.Machine
open Sys2Proof

/-! ## Objects -/

theorem State.oput_writes (s : State) (i : Nat) (m : Nat) (v : ObjVal) :
    Moves [.objs] s (State.oput s i m v) := by
  unfold State.oput
  repeat' first
    | with_reducible apply Moves.refl
    | (with_reducible apply upd_parts <;> first | exact .inl rfl | exact .inr rfl)
    | simp only [Moves.mk_eq]
    | with_reducible refine MovesMk.upd rfl (.inl rfl) (.inl rfl) ?_ ?_

theorem State.oset_writes (s : State) (i : Nat) (m : Nat) (n : Nat) :
    Moves [.objs] s (State.oset s i m n) := by
  unfold State.oset
  repeat' first
    | with_reducible apply Moves.refl
    | ((with_reducible apply Within.mk); exact rfl)
    | with_reducible apply Moves.thenOp (State.oput_writes ..)

theorem State.oinc_writes (s : State) (i : Nat) (m : Nat) (by_ : Nat) :
    Moves [.objs] s (State.oinc s i m by_) := by
  unfold State.oinc
  repeat' first
    | with_reducible apply Moves.refl
    | ((with_reducible apply Within.mk); exact rfl)
    | with_reducible apply Moves.thenOp (State.oset_writes ..)

/-! ## Ops -/

theorem State.advanceTo_writes (s : State) (t : Nat) :
    Moves [.now, .strands] s (State.advanceTo s t) := by
  unfold State.advanceTo
  repeat' first
    | with_reducible apply Moves.refl
    | with_reducible apply Moves.ite
    | (with_reducible apply upd_parts <;> first | exact .inl rfl | exact .inr rfl)
    | simp only [Moves.mk_eq]
    | with_reducible refine MovesMk.upd rfl (.inl rfl) (.inl rfl) ?_ ?_

theorem State.free_writes (s : State) (w : Nat) :
    Moves [.freeCount] s ((State.free s w).2) := by
  unfold State.free
  repeat' first
    | with_reducible apply Moves.refl
    | (with_reducible apply upd_parts <;> first | exact .inl rfl | exact .inr rfl)
    | simp only [Moves.mk_eq]
    | with_reducible refine MovesMk.upd rfl (.inl rfl) (.inl rfl) ?_ ?_

theorem State.emit_writes (s : State) (e : OutEv) :
    Moves [.out] s (State.emit s e) := by
  unfold State.emit
  repeat' first
    | with_reducible apply Moves.refl
    | (with_reducible apply upd_parts <;> first | exact .inl rfl | exact .inr rfl)
    | simp only [Moves.mk_eq]
    | with_reducible refine MovesMk.upd rfl (.inl rfl) (.inl rfl) ?_ ?_

theorem State.setFn_writes (s : State) (t : Nat) (f : FnSt) :
    Moves [.host] s (State.setFn s t f) := by
  unfold State.setFn
  repeat' first
    | with_reducible apply Moves.refl
    | assumption
    | ((with_reducible apply Within.mk); exact rfl)
    | with_reducible apply Moves.ite
    | (with_reducible apply upd_parts <;> first | exact .inl rfl | exact .inr rfl)
    | simp only [Moves.mk_eq]
    | with_reducible refine MovesMk.upd rfl (.inl rfl) (.inl rfl) ?_ ?_
    | (with_reducible apply Moves.foldl; intro _ _)
    | dsimp only
    | split

theorem State.mapFn_writes (s : State) (t : Nat) (g : FnSt → FnSt) :
    Moves [.host] s (State.mapFn s t g) := by
  unfold State.mapFn
  repeat' first
    | with_reducible apply Moves.refl
    | ((with_reducible apply Within.mk); exact rfl)
    | with_reducible apply Moves.thenOp (State.setFn_writes ..)

theorem State.hostWrite_writes (s : State) (t : Nat) (a : Nat) (bs : List Byte) :
    Moves [.hostMem] s (State.hostWrite s t a bs) := by
  unfold State.hostWrite
  repeat' first
    | with_reducible apply Moves.refl
    | assumption
    | ((with_reducible apply Within.mk); exact rfl)
    | exact .inl rfl
    | with_reducible refine MovesMk.upd rfl ?_ ?_ ?_ ?_
    | exact .inr (fun h => Memory.wf_writeN _ _ h)
    | with_reducible apply Moves.ite
    | (with_reducible apply upd_parts <;> first | exact .inl rfl | exact .inr rfl)
    | simp only [Moves.mk_eq]
    | with_reducible refine MovesMk.upd rfl (.inl rfl) (.inl rfl) ?_ ?_
    | (with_reducible apply Moves.foldl; intro _ _)
    | dsimp only
    | split

theorem State.sendEvent_writes (s : State) (r : ErrRec) :
    Moves [.mgmt, .out] s (State.sendEvent s r) := by
  unfold State.sendEvent
  repeat' first
    | with_reducible apply Moves.refl
    | with_reducible apply Moves.ite
    | (with_reducible apply upd_parts <;> first | exact .inl rfl | exact .inr rfl)
    | simp only [Moves.mk_eq]
    | with_reducible refine MovesMk.upd rfl (.inl rfl) (.inl rfl) ?_ ?_

theorem State.viewRec_writes (s : State) (t : Nat) (r : ErrRec) :
    Moves [.objs, .err] s (State.viewRec s t r) := by
  unfold State.viewRec
  repeat' first
    | with_reducible apply Moves.refl
    | ((with_reducible apply Within.mk); exact rfl)
    | with_reducible apply Moves.thenOp (State.oinc_writes ..)
    | (with_reducible apply upd_parts <;> first | exact .inl rfl | exact .inr rfl)
    | simp only [Moves.mk_eq]
    | with_reducible refine MovesMk.upd rfl (.inl rfl) (.inl rfl) ?_ ?_
    | split

theorem State.raise_writes (s : State) (a : RecArgs) :
    Moves [.objs, .err, .mgmt, .out] s (State.raise s a) := by
  unfold State.raise
  repeat' first
    | with_reducible apply Moves.refl
    | ((with_reducible apply Within.mk); exact rfl)
    | with_reducible apply Moves.thenOp (State.oinc_writes ..)
    | with_reducible apply Moves.thenOp (State.sendEvent_writes ..)
    | with_reducible apply Moves.thenOp (State.viewRec_writes ..)
    | with_reducible apply Moves.ite
    | (with_reducible apply upd_parts <;> first | exact .inl rfl | exact .inr rfl)
    | simp only [Moves.mk_eq]
    | with_reducible refine MovesMk.upd rfl (.inl rfl) (.inl rfl) ?_ ?_
    | split

theorem State.closeHandling_writes (s : State) (c : Closing) :
    Moves [.err] s (State.closeHandling s c) := by
  unfold State.closeHandling
  repeat' first
    | with_reducible apply Moves.refl
    | (with_reducible apply upd_parts <;> first | exact .inl rfl | exact .inr rfl)
    | simp only [Moves.mk_eq]
    | with_reducible refine MovesMk.upd rfl (.inl rfl) (.inl rfl) ?_ ?_

theorem State.corrected_writes (s : State) (source : Nat) (i : Nat) (m : Nat) :
    Moves [.objs, .err, .mgmt, .out] s (State.corrected s source i m) := by
  unfold State.corrected
  repeat' first
    | with_reducible apply Moves.refl
    | ((with_reducible apply Within.mk); exact rfl)
    | with_reducible apply Moves.thenOp (State.raise_writes ..)

theorem State.signal_writes (s : State) (t : Nat) (v : Nat) :
    Moves [.host, .out] s (State.signal s t v) := by
  unfold State.signal
  repeat' first
    | with_reducible apply Moves.refl
    | assumption
    | ((with_reducible apply Within.mk); exact rfl)
    | with_reducible apply Moves.thenOp (State.emit_writes ..)
    | with_reducible apply Moves.thenOp (State.mapFn_writes ..)
    | with_reducible apply Moves.ite
    | (with_reducible apply upd_parts <;> first | exact .inl rfl | exact .inr rfl)
    | simp only [Moves.mk_eq]
    | with_reducible refine MovesMk.upd rfl (.inl rfl) (.inl rfl) ?_ ?_
    | (with_reducible apply Moves.foldl; intro _ _)
    | dsimp only
    | split

theorem State.freedVectors_writes (s : State) (t : Nat) :
    Moves [.host, .out] s (State.freedVectors s t) := by
  unfold State.freedVectors
  repeat' first
    | with_reducible apply Moves.refl
    | assumption
    | ((with_reducible apply Within.mk); exact rfl)
    | with_reducible apply Moves.thenOp (State.mapFn_writes ..)
    | with_reducible apply Moves.thenOp (State.signal_writes ..)
    | with_reducible apply Moves.ite
    | (with_reducible apply upd_parts <;> first | exact .inl rfl | exact .inr rfl)
    | simp only [Moves.mk_eq]
    | with_reducible refine MovesMk.upd rfl (.inl rfl) (.inl rfl) ?_ ?_
    | (with_reducible apply Moves.foldl; intro _ _)
    | dsimp only
    | split

theorem State.putCq_writes (s : State) (t : Nat) (q : Nat) (c : CQ) :
    Moves [.host] s (State.putCq s t q c) := by
  unfold State.putCq
  repeat' first
    | with_reducible apply Moves.refl
    | assumption
    | ((with_reducible apply Within.mk); exact rfl)
    | with_reducible apply Moves.ite
    | (with_reducible apply upd_parts <;> first | exact .inl rfl | exact .inr rfl)
    | simp only [Moves.mk_eq]
    | with_reducible refine MovesMk.upd rfl (.inl rfl) (.inl rfl) ?_ ?_
    | (with_reducible apply Moves.foldl; intro _ _)
    | dsimp only
    | split

theorem State.putWq_writes (s : State) (t : Nat) (q : Nat) (w : WQ) :
    Moves [.host] s (State.putWq s t q w) := by
  unfold State.putWq
  repeat' first
    | with_reducible apply Moves.refl
    | assumption
    | ((with_reducible apply Within.mk); exact rfl)
    | with_reducible apply Moves.ite
    | (with_reducible apply upd_parts <;> first | exact .inl rfl | exact .inr rfl)
    | simp only [Moves.mk_eq]
    | with_reducible refine MovesMk.upd rfl (.inl rfl) (.inl rfl) ?_ ?_
    | (with_reducible apply Moves.foldl; intro _ _)
    | dsimp only
    | split

theorem State.freeCam_writes (s : State) (k : RouteKey) :
    Moves [.cairn] s (State.freeCam s k) := by
  unfold State.freeCam
  repeat' first
    | with_reducible apply Moves.refl
    | assumption
    | ((with_reducible apply Within.mk); exact rfl)
    | with_reducible apply Moves.ite
    | (with_reducible apply upd_parts <;> first | exact .inl rfl | exact .inr rfl)
    | simp only [Moves.mk_eq]
    | with_reducible refine MovesMk.upd rfl (.inl rfl) (.inl rfl) ?_ ?_
    | (with_reducible apply Moves.foldl; intro _ _)
    | dsimp only
    | split

theorem State.closeRoute_writes (s : State) (k : RouteKey) :
    Moves [.routes, .cairn] s (State.closeRoute s k) := by
  unfold State.closeRoute
  repeat' first
    | with_reducible apply Moves.refl
    | ((with_reducible apply Within.mk); exact rfl)
    | with_reducible apply Moves.thenOp (State.freeCam_writes ..)
    | with_reducible apply Moves.ite
    | (with_reducible apply upd_parts <;> first | exact .inl rfl | exact .inr rfl)
    | simp only [Moves.mk_eq]
    | with_reducible refine MovesMk.upd rfl (.inl rfl) (.inl rfl) ?_ ?_

theorem State.postOne_writes (s : State) (t : Nat) (q : Nat) (cq : CQ) (c : Completion) (rest : List Completion) :
    Moves [.routes, .cairn, .hostMem, .host, .out] s (State.postOne s t q cq c rest) := by
  unfold State.postOne
  repeat' first
    | with_reducible apply Moves.refl
    | ((with_reducible apply Within.mk); exact rfl)
    | with_reducible apply Moves.thenOp (State.closeRoute_writes ..)
    | with_reducible apply Moves.thenOp (State.hostWrite_writes ..)
    | with_reducible apply Moves.thenOp (State.putCq_writes ..)
    | with_reducible apply Moves.thenOp (State.signal_writes ..)
    | with_reducible apply Moves.ite
    | split

theorem State.postDue_writes (s : State) (t : Nat) (q : Nat) (x3 : Nat) :
    Moves [.routes, .cairn, .hostMem, .host, .out] s (State.postDue s t q x3) := by
  induction x3 generalizing s t q with
  | zero =>
    unfold State.postDue
    repeat' (with_reducible apply Moves.refl)
  | succ n ih =>
    unfold State.postDue
    repeat' first
      | with_reducible apply Moves.refl
      | ((with_reducible apply Within.mk); exact rfl)
      | with_reducible apply Moves.thenOp (State.postOne_writes ..)
      | with_reducible refine Moves.thenOp (ih ..) (Within.mk rfl) ?_
      | with_reducible apply Moves.ite
      | split

theorem State.complete_writes (s : State) (t : Nat) (q : Nat) (c : Completion) :
    Moves [.routes, .cairn, .hostMem, .host, .out] s (State.complete s t q c) := by
  unfold State.complete
  repeat' first
    | with_reducible apply Moves.refl
    | ((with_reducible apply Within.mk); exact rfl)
    | with_reducible apply Moves.thenOp (State.closeRoute_writes ..)
    | with_reducible apply Moves.thenOp (State.postDue_writes ..)
    | with_reducible apply Moves.thenOp (State.putCq_writes ..)
    | split

theorem State.postAll_writes (s : State) :
    Moves [.routes, .cairn, .hostMem, .host, .out] s (State.postAll s) := by
  unfold State.postAll
  repeat' first
    | with_reducible apply Moves.refl
    | assumption
    | ((with_reducible apply Within.mk); exact rfl)
    | with_reducible apply Moves.thenOp (State.postDue_writes ..)
    | with_reducible apply Moves.ite
    | (with_reducible apply upd_parts <;> first | exact .inl rfl | exact .inr rfl)
    | simp only [Moves.mk_eq]
    | with_reducible refine MovesMk.upd rfl (.inl rfl) (.inl rfl) ?_ ?_
    | (with_reducible apply Moves.foldl; intro _ _)
    | dsimp only
    | split

theorem State.writeLogs_writes (s : State) :
    Moves [.freeCount, .hostMem, .host] s (State.writeLogs s) := by
  unfold State.writeLogs
  repeat' first
    | with_reducible apply Moves.refl
    | assumption
    | ((with_reducible apply Within.mk); exact rfl)
    | with_reducible apply Moves.thenOp (State.free_writes ..)
    | with_reducible apply Moves.thenOp (State.hostWrite_writes ..)
    | with_reducible apply Moves.ite
    | (with_reducible apply upd_parts <;> first | exact .inl rfl | exact .inr rfl)
    | simp only [Moves.mk_eq]
    | with_reducible refine MovesMk.upd rfl (.inl rfl) (.inl rfl) ?_ ?_
    | (with_reducible apply Moves.foldl; intro _ _)
    | dsimp only
    | split
    | with_reducible refine Moves.thenOp (Moves.of_snd (State.free_writes ..) (by assumption)) (Within.mk rfl) ?_

theorem State.logEvent_writes (s : State) (k : RouteKey) (prio : Nat) (stage : Nat) (ridge : Nat) (unit : Nat) (event : Nat) (seq : Nat) :
    Moves [.freeCount, .objs, .hostMem, .host] s (State.logEvent s k prio stage ridge unit event seq) := by
  unfold State.logEvent
  repeat' first
    | with_reducible apply Moves.refl
    | assumption
    | ((with_reducible apply Within.mk); exact rfl)
    | with_reducible apply Moves.thenOp (State.hostWrite_writes ..)
    | with_reducible apply Moves.thenOp (State.oinc_writes ..)
    | with_reducible apply Moves.thenOp (State.writeLogs_writes ..)
    | with_reducible apply Moves.ite
    | (with_reducible apply upd_parts <;> first | exact .inl rfl | exact .inr rfl)
    | simp only [Moves.mk_eq]
    | with_reducible refine MovesMk.upd rfl (.inl rfl) (.inl rfl) ?_ ?_
    | (with_reducible apply Moves.foldl; intro _ _)
    | dsimp only
    | split

theorem State.updRoute_writes (s : State) (k : RouteKey) (f : Route → Route) :
    Moves [.routes] s (State.updRoute s k f) := by
  unfold State.updRoute
  repeat' first
    | with_reducible apply Moves.refl
    | (with_reducible apply upd_parts <;> first | exact .inl rfl | exact .inr rfl)
    | simp only [Moves.mk_eq]
    | with_reducible refine MovesMk.upd rfl (.inl rfl) (.inl rfl) ?_ ?_

theorem State.routeFault_writes (s : State) (k : RouteKey) (source : Nat) (status : Nat) (address : Nat) :
    Moves [.objs, .routes, .err, .mgmt, .out] s (State.routeFault s k source status address) := by
  unfold State.routeFault
  repeat' first
    | with_reducible apply Moves.refl
    | assumption
    | ((with_reducible apply Within.mk); exact rfl)
    | with_reducible apply Moves.thenOp (State.raise_writes ..)
    | with_reducible apply Moves.thenOp (State.updRoute_writes ..)
    | with_reducible apply Moves.ite
    | (with_reducible apply upd_parts <;> first | exact .inl rfl | exact .inr rfl)
    | simp only [Moves.mk_eq]
    | with_reducible refine MovesMk.upd rfl (.inl rfl) (.inl rfl) ?_ ?_
    | (with_reducible apply Moves.foldl; intro _ _)
    | dsimp only
    | split

/-! ## Depot -/

theorem State.settleAsk_writes (s : State) (t route : Nat) (cls : Nat → Bool) :
    Moves [.depot, .link] s (State.settleAsk s t route cls) := by
  unfold State.settleAsk
  repeat' first
    | with_reducible apply Moves.refl
    | assumption
    | ((with_reducible apply Within.mk); exact rfl)
    | with_reducible apply Moves.ite
    | (with_reducible apply upd_parts <;> first | exact .inl rfl | exact .inr rfl)
    | simp only [Moves.mk_eq]
    | with_reducible refine MovesMk.upd rfl (.inl rfl) (.inl rfl) ?_ ?_
    | (with_reducible apply Moves.foldl; intro _ _)
    | dsimp only
    | split

theorem State.usePage_writes (s : State) (t : Nat) (cls : Nat) (tier : Nat) (addr : Nat) (k : Option RouteKey) :
    Moves [.objs, .depot] s (State.usePage s t cls tier addr k) := by
  unfold State.usePage
  repeat' first
    | with_reducible apply Moves.refl
    | assumption
    | ((with_reducible apply Within.mk); exact rfl)
    | with_reducible apply Moves.thenOp (State.oinc_writes ..)
    | with_reducible apply Moves.thenOp (State.settleAsk_writes ..)
    | with_reducible apply Moves.ite
    | (with_reducible apply upd_parts <;> first | exact .inl rfl | exact .inr rfl)
    | simp only [Moves.mk_eq]
    | with_reducible refine MovesMk.upd rfl (.inl rfl) (.inl rfl) ?_ ?_
    | (with_reducible apply Moves.foldl; intro _ _)
    | dsimp only
    | split

theorem State.putObj_writes (s : State) (o : Nat) (d : DObj) :
    Moves [.content] s (State.putObj s o d) := by
  unfold State.putObj
  repeat' first
    | with_reducible apply Moves.refl
    | assumption
    | ((with_reducible apply Within.mk); exact rfl)
    | with_reducible apply Moves.ite
    | (with_reducible apply upd_parts <;> first | exact .inl rfl | exact .inr rfl)
    | simp only [Moves.mk_eq]
    | with_reducible refine MovesMk.upd rfl (.inl rfl) (.inl rfl) ?_ ?_
    | (with_reducible apply Moves.foldl; intro _ _)
    | dsimp only
    | split

theorem State.noteAllocated_writes (s : State) (k : Option RouteKey) (o : Nat) :
    Moves [.routes] s (State.noteAllocated s k o) := by
  unfold State.noteAllocated
  repeat' first
    | with_reducible apply Moves.refl
    | assumption
    | ((with_reducible apply Within.mk); exact rfl)
    | with_reducible apply Moves.thenOp (State.updRoute_writes ..)
    | with_reducible apply Moves.ite
    | (with_reducible apply upd_parts <;> first | exact .inl rfl | exact .inr rfl)
    | simp only [Moves.mk_eq]
    | with_reducible refine MovesMk.upd rfl (.inl rfl) (.inl rfl) ?_ ?_
    | (with_reducible apply Moves.foldl; intro _ _)
    | dsimp only
    | split

theorem State.newObj_writes (s : State) (t : Nat) (cls : Nat) (ridge : Nat) (k : Option RouteKey) (c : Content) (forms : List ColForm) :
    OptAll (fun (a : Nat × State) => Moves [.routes, .content] s (a).2) (State.newObj s t cls ridge k c forms) := by
  unfold State.newObj
  repeat' first
    | with_reducible apply Moves.refl
    | assumption
    | ((with_reducible apply Within.mk); exact rfl)
    | with_reducible apply Moves.thenOp (State.noteAllocated_writes ..)
    | with_reducible apply Moves.thenOp (State.putObj_writes ..)
    | with_reducible apply OptAll.some'
    | with_reducible apply OptAll.none'
    | with_reducible apply OptAll.ite
    | with_reducible apply Moves.ite
    | (with_reducible apply upd_parts <;> first | exact .inl rfl | exact .inr rfl)
    | simp only [Moves.mk_eq]
    | with_reducible refine MovesMk.upd rfl (.inl rfl) (.inl rfl) ?_ ?_
    | (with_reducible apply Moves.foldl; intro _ _)
    | dsimp only
    | split

theorem State.addPage_writes (s : State) (o : Nat) (index : Nat) (d : DObj) (tier : Nat) (addr : Nat) :
    Moves [.objs, .content, .depot] s (State.addPage s o index d tier addr) := by
  unfold State.addPage
  repeat' first
    | with_reducible apply Moves.refl
    | assumption
    | ((with_reducible apply Within.mk); exact rfl)
    | with_reducible apply Moves.thenOp (State.usePage_writes ..)
    | with_reducible apply Moves.ite
    | (with_reducible apply upd_parts <;> first | exact .inl rfl | exact .inr rfl)
    | simp only [Moves.mk_eq]
    | with_reducible refine MovesMk.upd rfl (.inl rfl) (.inl rfl) ?_ ?_
    | (with_reducible apply Moves.foldl; intro _ _)
    | dsimp only
    | split

theorem State.ensurePage_writes (s : State) (o : Nat) (index : Nat) :
    Alloc.All (fun t => Moves [.objs, .content, .depot] s t) (State.ensurePage s o index) := by
  unfold State.ensurePage
  repeat' first
    | with_reducible apply Moves.refl
    | ((with_reducible apply Within.mk); exact rfl)
    | with_reducible apply Moves.thenOp (State.addPage_writes ..)
    | with_reducible apply Alloc.All.okIn
    | with_reducible apply Alloc.All.failIn
    | with_reducible apply Alloc.All.ite
    | with_reducible apply Alloc.All.waitIn
    | split

theorem State.ensurePages_writes (s : State) (o : Nat) (index : Nat) (x3 : Nat) :
    Alloc.All (fun t => Moves [.objs, .content, .depot] s t) (State.ensurePages s o index x3) := by
  induction x3 generalizing s o index with
  | zero =>
    unfold State.ensurePages
    repeat' first
      | with_reducible apply Moves.refl
      | with_reducible apply Alloc.All.okIn
  | succ n ih =>
    unfold State.ensurePages
    repeat' first
      | with_reducible apply Moves.refl
      | with_reducible refine Alloc.All.imp (fun _ h => Moves.thenOp h (Within.mk rfl) ?_) (State.ensurePage_writes ..)
      | with_reducible refine Alloc.All.imp (fun _ h => Moves.thenOp h (Within.mk rfl) ?_) (ih ..)
      | split
      | with_reducible refine Moves.thenOp (Alloc.All.okGet (State.ensurePage_writes ..) (by assumption)) (Within.mk rfl) ?_

theorem State.ensureBytes_writes (s : State) (o : Nat) (n : Nat) :
    Alloc.All (fun t => Moves [.objs, .content, .depot] s t) (State.ensureBytes s o n) := by
  unfold State.ensureBytes
  repeat' first
    | with_reducible apply Moves.refl
    | with_reducible refine Alloc.All.imp (fun _ h => Moves.thenOp h (Within.mk rfl) ?_) (State.ensurePages_writes ..)
    | with_reducible apply Alloc.All.okIn
    | split

theorem State.freePage_writes (s : State) (id : Nat) :
    Moves [.objs, .depot] s (State.freePage s id) := by
  unfold State.freePage
  repeat' first
    | with_reducible apply Moves.refl
    | assumption
    | ((with_reducible apply Within.mk); exact rfl)
    | with_reducible apply Moves.thenOp (State.oinc_writes ..)
    | with_reducible apply Moves.ite
    | (with_reducible apply upd_parts <;> first | exact .inl rfl | exact .inr rfl)
    | simp only [Moves.mk_eq]
    | with_reducible refine MovesMk.upd rfl (.inl rfl) (.inl rfl) ?_ ?_
    | (with_reducible apply Moves.foldl; intro _ _)
    | dsimp only
    | split

theorem State.releaseHeld_writes (s : State) :
    Moves [.objs, .depot] s (State.releaseHeld s) := by
  unfold State.releaseHeld
  repeat' first
    | with_reducible apply Moves.refl
    | assumption
    | ((with_reducible apply Within.mk); exact rfl)
    | with_reducible apply Moves.thenOp (State.freePage_writes ..)
    | with_reducible apply Moves.ite
    | (with_reducible apply upd_parts <;> first | exact .inl rfl | exact .inr rfl)
    | simp only [Moves.mk_eq]
    | with_reducible refine MovesMk.upd rfl (.inl rfl) (.inl rfl) ?_ ?_
    | (with_reducible apply Moves.foldl; intro _ _)
    | dsimp only
    | split

theorem State.freeObj_writes (s : State) (o : Nat) :
    Moves [.objs, .content, .depot, .link] s (State.freeObj s o) := by
  unfold State.freeObj
  repeat' first
    | with_reducible apply Moves.refl
    | assumption
    | ((with_reducible apply Within.mk); exact rfl)
    | with_reducible apply Moves.thenOp (State.freePage_writes ..)
    | with_reducible apply Moves.ite
    | (with_reducible apply upd_parts <;> first | exact .inl rfl | exact .inr rfl)
    | simp only [Moves.mk_eq]
    | with_reducible refine MovesMk.upd rfl (.inl rfl) (.inl rfl) ?_ ?_
    | (with_reducible apply Moves.foldl; intro _ _)
    | dsimp only
    | split

theorem State.releaseObj_writes (s : State) (k : RouteKey) (o : Nat) :
    Moves [.objs, .routes, .content, .depot, .link] s (State.releaseObj s k o) := by
  unfold State.releaseObj
  repeat' first
    | with_reducible apply Moves.refl
    | assumption
    | ((with_reducible apply Within.mk); exact rfl)
    | with_reducible apply Moves.thenOp (State.freeObj_writes ..)
    | with_reducible apply Moves.thenOp (State.putObj_writes ..)
    | with_reducible apply Moves.thenOp (State.updRoute_writes ..)
    | with_reducible apply Moves.ite
    | (with_reducible apply upd_parts <;> first | exact .inl rfl | exact .inr rfl)
    | simp only [Moves.mk_eq]
    | with_reducible refine MovesMk.upd rfl (.inl rfl) (.inl rfl) ?_ ?_
    | (with_reducible apply Moves.foldl; intro _ _)
    | dsimp only
    | split

theorem State.depotBelay_writes (s : State) (k : RouteKey) :
    Moves [.objs, .content, .depot, .link] s (State.depotBelay s k) := by
  unfold State.depotBelay
  repeat' first
    | with_reducible apply Moves.refl
    | ((with_reducible apply Within.mk); exact rfl)
    | with_reducible apply Moves.thenOp (State.freeObj_writes ..)
    | (with_reducible apply Moves.foldl; intro _ _)
    | split

theorem State.depotReplay_writes (s : State) (k : RouteKey) :
    Moves [.objs, .content, .depot, .link] s (State.depotReplay s k) := by
  unfold State.depotReplay
  repeat' first
    | with_reducible apply Moves.refl
    | assumption
    | ((with_reducible apply Within.mk); exact rfl)
    | with_reducible apply Moves.thenOp (State.freeObj_writes ..)
    | with_reducible apply Moves.thenOp (State.freePage_writes ..)
    | with_reducible apply Moves.ite
    | (with_reducible apply upd_parts <;> first | exact .inl rfl | exact .inr rfl)
    | simp only [Moves.mk_eq]
    | with_reducible refine MovesMk.upd rfl (.inl rfl) (.inl rfl) ?_ ?_
    | (with_reducible apply Moves.foldl; intro _ _)
    | dsimp only
    | split

theorem State.setQuota_writes (s : State) (t : Nat) (arg0 : Nat) (arg1 : Nat) :
    ExcAll (fun (a : State) => Moves [.objs] s a) (State.setQuota s t arg0 arg1) := by
  unfold State.setQuota
  repeat' first
    | with_reducible apply Moves.refl
    | assumption
    | ((with_reducible apply Within.mk); exact rfl)
    | with_reducible apply Moves.thenOp (State.oset_writes ..)
    | with_reducible apply ExcAll.ok'
    | with_reducible apply ExcAll.error'
    | with_reducible apply ExcAll.ite
    | with_reducible apply Moves.ite
    | (with_reducible apply upd_parts <;> first | exact .inl rfl | exact .inr rfl)
    | simp only [Moves.mk_eq]
    | with_reducible refine MovesMk.upd rfl (.inl rfl) (.inl rfl) ?_ ?_
    | (with_reducible apply Moves.foldl; intro _ _)
    | dsimp only
    | split

theorem State.grantSpill_writes (s : State) (t : Nat) (arg0 : Nat) (arg1 : Nat) :
    ExcAll (fun (a : State) => Moves [.depot] s a) (State.grantSpill s t arg0 arg1) := by
  unfold State.grantSpill
  repeat' first
    | with_reducible apply Moves.refl
    | assumption
    | ((with_reducible apply Within.mk); exact rfl)
    | with_reducible apply ExcAll.ok'
    | with_reducible apply ExcAll.error'
    | with_reducible apply ExcAll.ite
    | with_reducible apply Moves.ite
    | (with_reducible apply upd_parts <;> first | exact .inl rfl | exact .inr rfl)
    | simp only [Moves.mk_eq]
    | with_reducible refine MovesMk.upd rfl (.inl rfl) (.inl rfl) ?_ ?_
    | (with_reducible apply Moves.foldl; intro _ _)
    | dsimp only
    | split

theorem State.revokeSpill_writes (s : State) (t : Nat) (arg0 : Nat) (arg1 : Nat) :
    ExcAll (fun (a : State) => Moves [.depot] s a) (State.revokeSpill s t arg0 arg1) := by
  unfold State.revokeSpill
  repeat' first
    | with_reducible apply Moves.refl
    | assumption
    | ((with_reducible apply Within.mk); exact rfl)
    | with_reducible apply ExcAll.ok'
    | with_reducible apply ExcAll.error'
    | with_reducible apply ExcAll.ite
    | with_reducible apply Moves.ite
    | (with_reducible apply upd_parts <;> first | exact .inl rfl | exact .inr rfl)
    | simp only [Moves.mk_eq]
    | with_reducible refine MovesMk.upd rfl (.inl rfl) (.inl rfl) ?_ ?_
    | (with_reducible apply Moves.foldl; intro _ _)
    | dsimp only
    | split

theorem State.openOutput_writes (s : State) (t : Nat) (arg0 : Nat) (arg1 : Nat) :
    ExcAll (fun (a : Nat × State) => Moves [.routes, .content] s (a).2) (State.openOutput s t arg0 arg1) := by
  unfold State.openOutput
  repeat' first
    | with_reducible apply Moves.refl
    | assumption
    | ((with_reducible apply Within.mk); exact rfl)
    | with_reducible apply ExcAll.ok'
    | with_reducible apply ExcAll.error'
    | with_reducible apply ExcAll.ite
    | with_reducible apply Moves.ite
    | (with_reducible apply upd_parts <;> first | exact .inl rfl | exact .inr rfl)
    | simp only [Moves.mk_eq]
    | with_reducible refine MovesMk.upd rfl (.inl rfl) (.inl rfl) ?_ ?_
    | (with_reducible apply Moves.foldl; intro _ _)
    | dsimp only
    | split
    | with_reducible refine Moves.thenOp (OptAll.stSnd (State.newObj_writes ..) (by assumption)) (Within.mk rfl) ?_

theorem State.closeOutput_writes (s : State) (t : Nat) (arg0 : Nat) (arg1 : Nat) :
    ExcAll (fun (a : State) => Moves [.objs, .content, .depot, .link] s a) (State.closeOutput s t arg0 arg1) := by
  unfold State.closeOutput
  repeat' first
    | with_reducible apply Moves.refl
    | assumption
    | ((with_reducible apply Within.mk); exact rfl)
    | with_reducible apply Moves.thenOp (State.freeObj_writes ..)
    | with_reducible apply ExcAll.ok'
    | with_reducible apply ExcAll.error'
    | with_reducible apply ExcAll.ite
    | with_reducible apply Moves.ite
    | (with_reducible apply upd_parts <;> first | exact .inl rfl | exact .inr rfl)
    | simp only [Moves.mk_eq]
    | with_reducible refine MovesMk.upd rfl (.inl rfl) (.inl rfl) ?_ ?_
    | (with_reducible apply Moves.foldl; intro _ _)
    | dsimp only
    | split

theorem State.zeroDone_writes (s : State) :
    Moves [.depot, .dram] s (State.zeroDone s) := by
  unfold State.zeroDone
  repeat' first
    | with_reducible apply Moves.refl
    | assumption
    | ((with_reducible apply Within.mk); exact rfl)
    | with_reducible apply Moves.ite
    | (with_reducible apply upd_parts <;> first | exact .inl rfl | exact .inr rfl)
    | simp only [Moves.mk_eq]
    | with_reducible refine MovesMk.upd rfl (.inl rfl) (.inl rfl) ?_ ?_
    | (with_reducible apply Moves.foldl; intro _ _)
    | dsimp only
    | split

theorem State.startMigration_writes (s : State) (toTier : Nat) (budget : Nat) (id : Nat) :
    Moves [.depot] s ((State.startMigration s toTier budget id).1) := by
  unfold State.startMigration
  repeat' first
    | with_reducible apply Moves.refl
    | assumption
    | ((with_reducible apply Within.mk); exact rfl)
    | with_reducible apply Moves.ite_fst
    | (with_reducible apply Moves.foldl_fst; intro _ _)
    | with_reducible apply Moves.ite
    | (with_reducible apply upd_parts <;> first | exact .inl rfl | exact .inr rfl)
    | simp only [Moves.mk_eq]
    | with_reducible refine MovesMk.upd rfl (.inl rfl) (.inl rfl) ?_ ?_
    | (with_reducible apply Moves.foldl; intro _ _)
    | dsimp only
    | split

theorem State.moveRetired_writes (s : State) :
    Moves [.depot] s (State.moveRetired s) := by
  unfold State.moveRetired
  repeat' first
    | with_reducible apply Moves.refl
    | ((with_reducible apply Within.mk); exact rfl)
    | with_reducible apply Moves.thenOp (State.startMigration_writes ..)
    | with_reducible apply Moves.ite
    | (with_reducible apply Moves.foldl; intro _ _)

theorem demoteStep_writes (acc : State × Nat) (p : Nat × Page) :
    Moves [.depot] acc.1 (demoteStep acc p).1 := by
  unfold demoteStep
  apply Moves.ite_fst
  · exact State.startMigration_writes ..
  · exact Moves.refl _ _

theorem State.migrateEach_writes (s : State) (low : List (Nat × Page)) (high : List (Nat × Page)) (budget : Nat) :
    Moves [.depot] s (State.migrateEach s low high budget) := by
  unfold State.migrateEach
  apply Moves.foldl_fst
  · intro t a
    exact State.startMigration_writes ..
  · apply Moves.foldl_fst
    · intro t a
      exact demoteStep_writes t a
    · exact Moves.refl ..

theorem State.clearAccess_writes (s : State) :
    Moves [.depot] s (State.clearAccess s) := by
  unfold State.clearAccess
  repeat' first
    | with_reducible apply Moves.refl
    | assumption
    | ((with_reducible apply Within.mk); exact rfl)
    | with_reducible apply Moves.ite
    | (with_reducible apply upd_parts <;> first | exact .inl rfl | exact .inr rfl)
    | simp only [Moves.mk_eq]
    | with_reducible refine MovesMk.upd rfl (.inl rfl) (.inl rfl) ?_ ?_
    | (with_reducible apply Moves.foldl; intro _ _)
    | dsimp only
    | split

theorem State.chooseMigrations_writes (s : State) :
    Moves [.depot] s (State.chooseMigrations s) := by
  unfold State.chooseMigrations
  repeat' first
    | with_reducible apply Moves.refl
    | ((with_reducible apply Within.mk); exact rfl)
    | with_reducible apply Moves.thenOp (State.clearAccess_writes ..)
    | with_reducible apply Moves.thenOp (State.migrateEach_writes ..)
    | with_reducible apply Moves.thenOp (State.moveRetired_writes ..)
    | with_reducible apply Moves.ite

theorem State.migrationCopied_writes (s : State) (page : Nat) :
    Moves [.depot] s (State.migrationCopied s page) := by
  unfold State.migrationCopied
  repeat' first
    | with_reducible apply Moves.refl
    | assumption
    | ((with_reducible apply Within.mk); exact rfl)
    | with_reducible apply Moves.ite
    | (with_reducible apply upd_parts <;> first | exact .inl rfl | exact .inr rfl)
    | simp only [Moves.mk_eq]
    | with_reducible refine MovesMk.upd rfl (.inl rfl) (.inl rfl) ?_ ?_
    | (with_reducible apply Moves.foldl; intro _ _)
    | dsimp only
    | split

theorem State.abandonMigration_writes (s : State) (page : Nat) :
    Moves [.objs, .depot] s (State.abandonMigration s page) := by
  unfold State.abandonMigration
  repeat' first
    | with_reducible apply Moves.refl
    | assumption
    | ((with_reducible apply Within.mk); exact rfl)
    | with_reducible apply Moves.thenOp (State.oinc_writes ..)
    | with_reducible apply Moves.ite
    | (with_reducible apply upd_parts <;> first | exact .inl rfl | exact .inr rfl)
    | simp only [Moves.mk_eq]
    | with_reducible refine MovesMk.upd rfl (.inl rfl) (.inl rfl) ?_ ?_
    | (with_reducible apply Moves.foldl; intro _ _)
    | dsimp only
    | split

theorem State.countAccess_writes (s : State) (id n : Nat) :
    Moves [.depot] s (State.countAccess s id n) := by
  unfold State.countAccess
  repeat' first
    | with_reducible apply Moves.refl
    | assumption
    | ((with_reducible apply Within.mk); exact rfl)
    | with_reducible apply Moves.ite
    | (with_reducible apply upd_parts <;> first | exact .inl rfl | exact .inr rfl)
    | simp only [Moves.mk_eq]
    | with_reducible refine MovesMk.upd rfl (.inl rfl) (.inl rfl) ?_ ?_
    | (with_reducible apply Moves.foldl; intro _ _)
    | dsimp only
    | split

/-! ## Fabric -/

theorem State.setPort_writes (s : State) (p : Nat) (x : PortSt) :
    Moves [.link] s (State.setPort s p x) := by
  unfold State.setPort
  repeat' first
    | with_reducible apply Moves.refl
    | (with_reducible apply upd_parts <;> first | exact .inl rfl | exact .inr rfl)
    | simp only [Moves.mk_eq]
    | with_reducible refine MovesMk.upd rfl (.inl rfl) (.inl rfl) ?_ ?_

theorem State.mapPort_writes (s : State) (p : Nat) (f : PortSt → PortSt) :
    Moves [.link] s (State.mapPort s p f) := by
  unfold State.mapPort
  repeat' first
    | with_reducible apply Moves.refl
    | ((with_reducible apply Within.mk); exact rfl)
    | with_reducible apply Moves.thenOp (State.setPort_writes ..)

theorem State.putFlit_writes (s : State) (p : Nat) (h : FlitHdr) (slots : List TxSlot) :
    Moves [.link, .out] s (State.putFlit s p h slots) := by
  unfold State.putFlit
  repeat' first
    | with_reducible apply Moves.refl
    | assumption
    | ((with_reducible apply Within.mk); exact rfl)
    | with_reducible apply Moves.thenOp (State.emit_writes ..)
    | with_reducible apply Moves.thenOp (State.setPort_writes ..)
    | with_reducible apply Moves.ite
    | (with_reducible apply upd_parts <;> first | exact .inl rfl | exact .inr rfl)
    | simp only [Moves.mk_eq]
    | with_reducible refine MovesMk.upd rfl (.inl rfl) (.inl rfl) ?_ ?_
    | (with_reducible apply Moves.foldl; intro _ _)
    | dsimp only
    | split

theorem State.sendPayload_writes (s : State) (p : Nat) (f : TxFlit) :
    Moves [.link, .out] s (State.sendPayload s p f) := by
  unfold State.sendPayload
  repeat' first
    | with_reducible apply Moves.refl
    | assumption
    | ((with_reducible apply Within.mk); exact rfl)
    | with_reducible apply Moves.thenOp (State.putFlit_writes ..)
    | with_reducible apply Moves.ite
    | (with_reducible apply upd_parts <;> first | exact .inl rfl | exact .inr rfl)
    | simp only [Moves.mk_eq]
    | with_reducible refine MovesMk.upd rfl (.inl rfl) (.inl rfl) ?_ ?_
    | (with_reducible apply Moves.foldl; intro _ _)
    | dsimp only
    | split

theorem State.sendControl_writes (s : State) (p code arg : Nat) :
    Moves [.link, .out] s (State.sendControl s p code arg) := by
  unfold State.sendControl
  repeat' first
    | with_reducible apply Moves.refl
    | assumption
    | ((with_reducible apply Within.mk); exact rfl)
    | with_reducible apply Moves.thenOp (State.putFlit_writes ..)
    | with_reducible apply Moves.ite
    | (with_reducible apply upd_parts <;> first | exact .inl rfl | exact .inr rfl)
    | simp only [Moves.mk_eq]
    | with_reducible refine MovesMk.upd rfl (.inl rfl) (.inl rfl) ?_ ?_
    | (with_reducible apply Moves.foldl; intro _ _)
    | dsimp only
    | split

theorem State.pumpPort_writes (s : State) (p : Nat) (x2 : Nat) :
    Moves [.link, .out] s (State.pumpPort s p x2) := by
  induction x2 generalizing s p with
  | zero =>
    unfold State.pumpPort
    repeat' (with_reducible apply Moves.refl)
  | succ n ih =>
    unfold State.pumpPort
    repeat' first
      | with_reducible apply Moves.refl
      | ((with_reducible apply Within.mk); exact rfl)
      | with_reducible apply Moves.thenOp (State.sendPayload_writes ..)
      | with_reducible apply Moves.thenOp (State.emit_writes ..)
      | with_reducible apply Moves.thenOp (State.setPort_writes ..)
      | with_reducible refine Moves.thenOp (ih ..) (Within.mk rfl) ?_
      | with_reducible apply Moves.ite
      | simp only [Moves.mk_eq]
      | split

theorem State.sendPort_writes (s : State) (p : Nat) (m : Msg) :
    Moves [.link, .out] s (State.sendPort s p m) := by
  unfold State.sendPort
  repeat' first
    | with_reducible apply Moves.refl
    | assumption
    | ((with_reducible apply Within.mk); exact rfl)
    | with_reducible apply Moves.thenOp (State.mapPort_writes ..)
    | with_reducible apply Moves.thenOp (State.pumpPort_writes ..)
    | with_reducible apply Moves.ite
    | (with_reducible apply upd_parts <;> first | exact .inl rfl | exact .inr rfl)
    | simp only [Moves.mk_eq]
    | with_reducible refine MovesMk.upd rfl (.inl rfl) (.inl rfl) ?_ ?_
    | (with_reducible apply Moves.foldl; intro _ _)
    | dsimp only
    | split

theorem State.send_writes (s : State) (m : Msg) :
    Moves [.link, .out] s (State.send s m) := by
  unfold State.send
  repeat' first
    | with_reducible apply Moves.refl
    | assumption
    | ((with_reducible apply Within.mk); exact rfl)
    | with_reducible apply Moves.thenOp (State.emit_writes ..)
    | with_reducible apply Moves.thenOp (State.sendPort_writes ..)
    | with_reducible apply Moves.ite
    | (with_reducible apply upd_parts <;> first | exact .inl rfl | exact .inr rfl)
    | simp only [Moves.mk_eq]
    | with_reducible refine MovesMk.upd rfl (.inl rfl) (.inl rfl) ?_ ?_
    | (with_reducible apply Moves.foldl; intro _ _)
    | dsimp only
    | split

theorem State.sendCoh_writes (s : State) (m : CohMsg) :
    Moves [.link, .out] s (State.sendCoh s m) := by
  unfold State.sendCoh
  repeat' first
    | with_reducible apply Moves.refl
    | ((with_reducible apply Within.mk); exact rfl)
    | with_reducible apply Moves.thenOp (State.send_writes ..)

theorem State.broadcast_writes (s : State) (m : Msg) :
    Moves [.link, .out] s (State.broadcast s m) := by
  unfold State.broadcast
  repeat' first
    | with_reducible apply Moves.refl
    | ((with_reducible apply Within.mk); exact rfl)
    | with_reducible apply Moves.thenOp (State.sendPort_writes ..)
    | with_reducible apply Moves.ite
    | (with_reducible apply Moves.foldl; intro _ _)

theorem State.forwardBcast_writes (s : State) (port : Nat) (m : Msg) :
    Moves [.link, .out] s (State.forwardBcast s port m) := by
  unfold State.forwardBcast
  repeat' first
    | with_reducible apply Moves.refl
    | ((with_reducible apply Within.mk); exact rfl)
    | with_reducible apply Moves.thenOp (State.sendPort_writes ..)
    | (with_reducible apply Moves.foldl; intro _ _)
    | split

theorem State.violation_writes (s : State) (p : Nat) (cause : Nat) (opcode : Nat) (seq : Nat) (src : Nat) :
    Moves [.objs, .link, .err, .mgmt, .out] s (State.violation s p cause opcode seq src) := by
  unfold State.violation
  repeat' first
    | with_reducible apply Moves.refl
    | ((with_reducible apply Within.mk); exact rfl)
    | with_reducible apply Moves.thenOp (State.oinc_writes ..)
    | with_reducible apply Moves.thenOp (State.raise_writes ..)
    | with_reducible apply Moves.thenOp (State.sendPort_writes ..)

theorem State.violationFrom_writes (s : State) (cause : Nat) (opcode : Nat) (src : Nat) :
    Moves [.objs, .link, .err, .mgmt, .out] s (State.violationFrom s cause opcode src) := by
  unfold State.violationFrom
  repeat' first
    | with_reducible apply Moves.refl
    | assumption
    | ((with_reducible apply Within.mk); exact rfl)
    | with_reducible apply Moves.thenOp (State.violation_writes ..)
    | with_reducible apply Moves.ite
    | (with_reducible apply upd_parts <;> first | exact .inl rfl | exact .inr rfl)
    | simp only [Moves.mk_eq]
    | with_reducible refine MovesMk.upd rfl (.inl rfl) (.inl rfl) ?_ ?_
    | (with_reducible apply Moves.foldl; intro _ _)
    | dsimp only
    | split

theorem State.dropCoh_writes (s : State) :
    Moves [.objs] s (State.dropCoh s) := by
  unfold State.dropCoh
  repeat' first
    | with_reducible apply Moves.refl
    | ((with_reducible apply Within.mk); exact rfl)
    | with_reducible apply Moves.thenOp (State.oinc_writes ..)

theorem State.setDir_writes (s : State) (l : Nat) (e : DirEnt) :
    Moves [.coh] s (State.setDir s l e) := by
  unfold State.setDir
  repeat' first
    | with_reducible apply Moves.refl
    | assumption
    | ((with_reducible apply Within.mk); exact rfl)
    | with_reducible apply Moves.ite
    | (with_reducible apply upd_parts <;> first | exact .inl rfl | exact .inr rfl)
    | simp only [Moves.mk_eq]
    | with_reducible refine MovesMk.upd rfl (.inl rfl) (.inl rfl) ?_ ?_
    | (with_reducible apply Moves.foldl; intro _ _)
    | dsimp only
    | split

theorem State.dirTouch_writes (s : State) (l : Nat) (e : DirEnt) :
    Moves [.coh] s (State.dirTouch s l e) := by
  unfold State.dirTouch
  repeat' first
    | with_reducible apply Moves.refl
    | assumption
    | ((with_reducible apply Within.mk); exact rfl)
    | with_reducible apply Moves.thenOp (State.setDir_writes ..)
    | with_reducible apply Moves.ite
    | (with_reducible apply upd_parts <;> first | exact .inl rfl | exact .inr rfl)
    | simp only [Moves.mk_eq]
    | with_reducible refine MovesMk.upd rfl (.inl rfl) (.inl rfl) ?_ ?_
    | (with_reducible apply Moves.foldl; intro _ _)
    | dsimp only
    | split

theorem State.refreshDir_writes (s : State) :
    Moves [.coh] s (State.refreshDir s) := by
  unfold State.refreshDir
  repeat' first
    | with_reducible apply Moves.refl
    | assumption
    | ((with_reducible apply Within.mk); exact rfl)
    | with_reducible apply Moves.ite
    | (with_reducible apply upd_parts <;> first | exact .inl rfl | exact .inr rfl)
    | simp only [Moves.mk_eq]
    | with_reducible refine MovesMk.upd rfl (.inl rfl) (.inl rfl) ?_ ?_
    | (with_reducible apply Moves.foldl; intro _ _)
    | dsimp only
    | split

theorem State.newTxn_writes (s : State) :
    Moves [.coh] s ((State.newTxn s).2) := by
  unfold State.newTxn
  repeat' first
    | with_reducible apply Moves.refl
    | assumption
    | ((with_reducible apply Within.mk); exact rfl)
    | with_reducible apply Moves.ite_snd
    | (with_reducible apply Moves.foldl_snd; intro _ _)
    | with_reducible apply Moves.ite
    | (with_reducible apply upd_parts <;> first | exact .inl rfl | exact .inr rfl)
    | simp only [Moves.mk_eq]
    | with_reducible refine MovesMk.upd rfl (.inl rfl) (.inl rfl) ?_ ?_
    | (with_reducible apply Moves.foldl; intro _ _)
    | dsimp only
    | split

theorem State.sendSnoop_writes (s : State) (op : Nat) (tracker : Nat) (line : Nat) (a : Nat) :
    Moves [.link, .out] s (State.sendSnoop s op tracker line a) := by
  unfold State.sendSnoop
  repeat' first
    | with_reducible apply Moves.refl
    | assumption
    | ((with_reducible apply Within.mk); exact rfl)
    | with_reducible apply Moves.thenOp (State.sendCoh_writes ..)
    | with_reducible apply Moves.ite
    | (with_reducible apply upd_parts <;> first | exact .inl rfl | exact .inr rfl)
    | simp only [Moves.mk_eq]
    | with_reducible refine MovesMk.upd rfl (.inl rfl) (.inl rfl) ?_ ?_
    | (with_reducible apply Moves.foldl; intro _ _)
    | dsimp only
    | split

theorem State.openTxn_writes (s : State) (m : CohMsg) (waiting : List Nat) (back : Bool) :
    Moves [.coh] s ((State.openTxn s m waiting back).2) := by
  unfold State.openTxn
  repeat' first
    | with_reducible apply Moves.refl
    | assumption
    | ((with_reducible apply Within.mk); exact rfl)
    | with_reducible apply Moves.ite_snd
    | (with_reducible apply Moves.foldl_snd; intro _ _)
    | with_reducible apply Moves.ite
    | (with_reducible apply upd_parts <;> first | exact .inl rfl | exact .inr rfl)
    | simp only [Moves.mk_eq]
    | with_reducible refine MovesMk.upd rfl (.inl rfl) (.inl rfl) ?_ ?_
    | (with_reducible apply Moves.foldl; intro _ _)
    | dsimp only
    | split

theorem State.request_writes (s : State) (m : CohMsg) (loc : Nat) (p : Purpose) :
    Moves [.coh, .link, .out] s ((State.request s m loc p).2) := by
  unfold State.request
  repeat' first
    | with_reducible apply Moves.refl
    | assumption
    | ((with_reducible apply Within.mk); exact rfl)
    | with_reducible apply Moves.thenOp (State.newTxn_writes ..)
    | with_reducible apply Moves.thenOp (State.sendCoh_writes ..)
    | with_reducible apply Moves.ite_snd
    | (with_reducible apply Moves.foldl_snd; intro _ _)
    | with_reducible apply Moves.ite
    | (with_reducible apply upd_parts <;> first | exact .inl rfl | exact .inr rfl)
    | simp only [Moves.mk_eq]
    | with_reducible refine MovesMk.upd rfl (.inl rfl) (.inl rfl) ?_ ?_
    | (with_reducible apply Moves.foldl; intro _ _)
    | dsimp only
    | split

theorem State.depotReq_writes (s : State) (op l : Nat) :
    Moves [.coh] s ((State.depotReq s op l).2) := by
  unfold State.depotReq
  repeat' first
    | with_reducible apply Moves.refl
    | assumption
    | ((with_reducible apply Within.mk); exact rfl)
    | with_reducible apply Moves.thenOp (State.newTxn_writes ..)
    | with_reducible apply Moves.ite_snd
    | (with_reducible apply Moves.foldl_snd; intro _ _)
    | with_reducible apply Moves.ite
    | (with_reducible apply upd_parts <;> first | exact .inl rfl | exact .inr rfl)
    | simp only [Moves.mk_eq]
    | with_reducible refine MovesMk.upd rfl (.inl rfl) (.inl rfl) ?_ ?_
    | (with_reducible apply Moves.foldl; intro _ _)
    | dsimp only
    | split
    | with_reducible refine Moves.thenOp (Moves.of_snd (State.newTxn_writes ..) (by assumption)) (Within.mk rfl) ?_

theorem State.callBack_writes (s : State) (op snoop l : Nat) (far : List Nat) (back : Bool) :
    Moves [.coh, .link, .out] s (State.callBack s op snoop l far back) := by
  unfold State.callBack
  repeat' first
    | with_reducible apply Moves.refl
    | assumption
    | ((with_reducible apply Within.mk); exact rfl)
    | with_reducible apply Moves.thenOp (State.depotReq_writes ..)
    | with_reducible apply Moves.thenOp (State.newTxn_writes ..)
    | with_reducible apply Moves.thenOp (State.openTxn_writes ..)
    | with_reducible apply Moves.thenOp (State.sendSnoop_writes ..)
    | with_reducible apply Moves.ite
    | (with_reducible apply upd_parts <;> first | exact .inl rfl | exact .inr rfl)
    | simp only [Moves.mk_eq]
    | with_reducible refine MovesMk.upd rfl (.inl rfl) (.inl rfl) ?_ ?_
    | (with_reducible apply Moves.foldl; intro _ _)
    | dsimp only
    | split
    | with_reducible refine Moves.thenOp (Moves.of_snd (State.depotReq_writes ..) (by assumption)) (Within.mk rfl) ?_
    | with_reducible refine Moves.thenOp (Moves.of_snd (State.newTxn_writes ..) (by assumption)) (Within.mk rfl) ?_
    | with_reducible refine Moves.thenOp (Moves.of_snd (State.openTxn_writes ..) (by assumption)) (Within.mk rfl) ?_

theorem State.replayInval_writes (s : State) (l : Nat) :
    Moves [.objs, .cache, .coh, .link, .out] s (State.replayInval s l) := by
  unfold State.replayInval
  repeat' first
    | with_reducible apply Moves.refl
    | assumption
    | ((with_reducible apply Within.mk); exact rfl)
    | with_reducible apply Moves.thenOp (State.newTxn_writes ..)
    | with_reducible apply Moves.thenOp (State.openTxn_writes ..)
    | with_reducible apply Moves.thenOp (State.sendSnoop_writes ..)
    | with_reducible apply Moves.thenOp (State.setDir_writes ..)
    | with_reducible apply Moves.thenOp (State.callBack_writes ..)
    | with_reducible apply Moves.thenOp (State.depotReq_writes ..)
    | with_reducible apply Moves.thenOp (State.oinc_writes ..)
    | with_reducible apply Moves.ite
    | (with_reducible apply upd_parts <;> first | exact .inl rfl | exact .inr rfl)
    | simp only [Moves.mk_eq]
    | with_reducible refine MovesMk.upd rfl (.inl rfl) (.inl rfl) ?_ ?_
    | (with_reducible apply Moves.foldl; intro _ _)
    | dsimp only
    | split
    | with_reducible refine Moves.thenOp (Moves.of_snd (State.depotReq_writes ..) (by assumption)) (Within.mk rfl) ?_

theorem State.uncache_writes (s : State) (l : Nat) :
    Moves [.cache, .coh, .link, .out] s (State.uncache s l) := by
  unfold State.uncache
  repeat' first
    | with_reducible apply Moves.refl
    | assumption
    | ((with_reducible apply Within.mk); exact rfl)
    | with_reducible apply Moves.thenOp (State.callBack_writes ..)
    | with_reducible apply Moves.thenOp (State.setDir_writes ..)
    | with_reducible apply Moves.ite
    | (with_reducible apply upd_parts <;> first | exact .inl rfl | exact .inr rfl)
    | simp only [Moves.mk_eq]
    | with_reducible refine MovesMk.upd rfl (.inl rfl) (.inl rfl) ?_ ?_
    | (with_reducible apply Moves.foldl; intro _ _)
    | dsimp only
    | split

end Sys2Proof.Machine
end

