-- ==== Sys2Proof/Laws/FrameTasks.lean ====
section
/-! SUPPORT. What each function may write: Cairn, the filters and the tasks of the units. -/

set_option Elab.async false
set_option linter.all false
namespace Sys2Proof.Machine
open Sys2Proof

/-! ## Cairn -/

theorem State.setBank_writes (s : State) (k : Nat) (b : Bank) :
    Moves [.cairn] s (State.setBank s k b) := by
  unfold State.setBank
  repeat' first
    | with_reducible apply Moves.refl
    | assumption
    | ((with_reducible apply Within.mk); exact rfl)
    | with_reducible apply Moves.ite
    | (with_reducible apply upd_parts <;> first | exact .inl rfl | exact .inr rfl)
    | simp only [Moves.mk_eq]
    | with_reducible refine MovesMk.upd rfl (.inl rfl) (.inl rfl) ?_ ?_
    | (with_reducible apply Moves.foldl; intro _ _)
    | dsimp only
    | split

theorem State.writeRow_writes (s : State) (k : Nat) (row : Nat) (r : BitVec 94) :
    Moves [.cairn] s (State.writeRow s k row r) := by
  unfold State.writeRow
  repeat' first
    | with_reducible apply Moves.refl
    | assumption
    | ((with_reducible apply Within.mk); exact rfl)
    | with_reducible apply Moves.thenOp (State.setBank_writes ..)
    | with_reducible apply Moves.ite
    | (with_reducible apply upd_parts <;> first | exact .inl rfl | exact .inr rfl)
    | simp only [Moves.mk_eq]
    | with_reducible refine MovesMk.upd rfl (.inl rfl) (.inl rfl) ?_ ?_
    | (with_reducible apply Moves.foldl; intro _ _)
    | dsimp only
    | split

theorem State.writeShadow_writes (s : State) (k : Nat) (row : Nat) (r : BitVec 94) :
    Moves [.cairn] s (State.writeShadow s k row r) := by
  unfold State.writeShadow
  repeat' first
    | with_reducible apply Moves.refl
    | assumption
    | ((with_reducible apply Within.mk); exact rfl)
    | with_reducible apply Moves.ite
    | (with_reducible apply upd_parts <;> first | exact .inl rfl | exact .inr rfl)
    | simp only [Moves.mk_eq]
    | with_reducible refine MovesMk.upd rfl (.inl rfl) (.inl rfl) ?_ ?_
    | (with_reducible apply Moves.foldl; intro _ _)
    | dsimp only
    | split

theorem State.clearBank_writes (s : State) (k : Nat) (owner : BankOwner) (width : Nat) (shadow : Nat × Nat) :
    Moves [.cairn] s (State.clearBank s k owner width shadow) := by
  unfold State.clearBank
  repeat' first
    | with_reducible apply Moves.refl
    | assumption
    | ((with_reducible apply Within.mk); exact rfl)
    | with_reducible apply Moves.thenOp (State.setBank_writes ..)
    | with_reducible apply Moves.ite
    | (with_reducible apply upd_parts <;> first | exact .inl rfl | exact .inr rfl)
    | simp only [Moves.mk_eq]
    | with_reducible refine MovesMk.upd rfl (.inl rfl) (.inl rfl) ?_ ?_
    | (with_reducible apply Moves.foldl; intro _ _)
    | dsimp only
    | split

theorem State.repairRow_writes (s : State) (k : Nat) (row : Nat) :
    Moves [.cairn] s (State.repairRow s k row) := by
  unfold State.repairRow
  repeat' first
    | with_reducible apply Moves.refl
    | assumption
    | ((with_reducible apply Within.mk); exact rfl)
    | with_reducible apply Moves.thenOp (State.setBank_writes ..)
    | with_reducible apply Moves.ite
    | (with_reducible apply upd_parts <;> first | exact .inl rfl | exact .inr rfl)
    | simp only [Moves.mk_eq]
    | with_reducible refine MovesMk.upd rfl (.inl rfl) (.inl rfl) ?_ ?_
    | (with_reducible apply Moves.foldl; intro _ _)
    | dsimp only
    | split

theorem State.noteRepair_writes (s : State) (k : Nat) :
    Moves [.cairn] s (State.noteRepair s k) := by
  unfold State.noteRepair
  repeat' first
    | with_reducible apply Moves.refl
    | assumption
    | ((with_reducible apply Within.mk); exact rfl)
    | with_reducible apply Moves.thenOp (State.setBank_writes ..)
    | with_reducible apply Moves.ite
    | (with_reducible apply upd_parts <;> first | exact .inl rfl | exact .inr rfl)
    | simp only [Moves.mk_eq]
    | with_reducible refine MovesMk.upd rfl (.inl rfl) (.inl rfl) ?_ ?_
    | (with_reducible apply Moves.foldl; intro _ _)
    | dsimp only
    | split

theorem State.walkBank_writes (s : State) (k : Nat) (key : List Byte) (all : Bool) :
    Moves [.objs, .cairn] s ((State.walkBank s k key all).2) := by
  unfold State.walkBank
  repeat' first
    | with_reducible apply Moves.refl
    | assumption
    | ((with_reducible apply Within.mk); exact rfl)
    | with_reducible apply Moves.thenOp (State.oinc_writes ..)
    | with_reducible apply Moves.thenOp (State.repairRow_writes ..)
    | with_reducible apply Moves.ite_snd
    | (with_reducible apply Moves.foldl_snd; intro _ _)
    | with_reducible apply Moves.ite
    | (with_reducible apply upd_parts <;> first | exact .inl rfl | exact .inr rfl)
    | simp only [Moves.mk_eq]
    | with_reducible refine MovesMk.upd rfl (.inl rfl) (.inl rfl) ?_ ?_
    | (with_reducible apply Moves.foldl; intro _ _)
    | dsimp only
    | split

theorem State.noteSearch_writes (s : State) (key : Option RouteKey) (k : Nat) :
    Moves [.routes] s (State.noteSearch s key k) := by
  unfold State.noteSearch
  repeat' first
    | with_reducible apply Moves.refl
    | assumption
    | ((with_reducible apply Within.mk); exact rfl)
    | with_reducible apply Moves.thenOp (State.updRoute_writes ..)
    | with_reducible apply Moves.ite
    | (with_reducible apply upd_parts <;> first | exact .inl rfl | exact .inr rfl)
    | simp only [Moves.mk_eq]
    | with_reducible refine MovesMk.upd rfl (.inl rfl) (.inl rfl) ?_ ?_
    | (with_reducible apply Moves.foldl; intro _ _)
    | dsimp only
    | split

theorem State.searchTable_writes (s : State) (t : CairnTable) (ridge : Nat) (rk : Option RouteKey) (key : List Byte) :
    Moves [.objs, .routes, .cairn] s ((State.searchTable s t ridge rk key).2) := by
  unfold State.searchTable
  repeat' first
    | with_reducible apply Moves.refl
    | assumption
    | ((with_reducible apply Within.mk); exact rfl)
    | with_reducible apply Moves.thenOp (State.noteSearch_writes ..)
    | with_reducible apply Moves.thenOp (State.walkBank_writes ..)
    | with_reducible apply Moves.ite_snd
    | (with_reducible apply Moves.foldl_snd; intro _ _)
    | with_reducible apply Moves.ite
    | (with_reducible apply upd_parts <;> first | exact .inl rfl | exact .inr rfl)
    | simp only [Moves.mk_eq]
    | with_reducible refine MovesMk.upd rfl (.inl rfl) (.inl rfl) ?_ ?_
    | (with_reducible apply Moves.foldl; intro _ _)
    | dsimp only
    | split

theorem State.endSearchers_writes (s : State) (banks : List Nat) :
    Moves [.objs, .routes, .err, .mgmt, .out] s (State.endSearchers s banks) := by
  unfold State.endSearchers
  repeat' first
    | with_reducible apply Moves.refl
    | ((with_reducible apply Within.mk); exact rfl)
    | with_reducible apply Moves.thenOp (State.routeFault_writes ..)
    | (with_reducible apply Moves.foldl; intro _ _)

theorem State.countReissues_writes (s : State) (t : CairnTable) :
    Moves [.freeCount, .objs] s (State.countReissues s t) := by
  unfold State.countReissues
  repeat' first
    | with_reducible apply Moves.refl
    | assumption
    | ((with_reducible apply Within.mk); exact rfl)
    | with_reducible apply Moves.thenOp (State.free_writes ..)
    | with_reducible apply Moves.thenOp (State.oinc_writes ..)
    | with_reducible apply Moves.ite
    | (with_reducible apply upd_parts <;> first | exact .inl rfl | exact .inr rfl)
    | simp only [Moves.mk_eq]
    | with_reducible refine MovesMk.upd rfl (.inl rfl) (.inl rfl) ?_ ?_
    | (with_reducible apply Moves.foldl; intro _ _)
    | dsimp only
    | split
    | with_reducible refine Moves.thenOp (Moves.of_snd (State.free_writes ..) (by assumption)) (Within.mk rfl) ?_

theorem State.stepFrom_writes (s : State) (t : CairnTable) (src dest : Nat) (f : Nat → BitVec 94 → BitVec 94) :
    Moves [.freeCount, .objs, .cairn] s (State.stepFrom s t src dest f) := by
  unfold State.stepFrom
  repeat' first
    | with_reducible apply Moves.refl
    | assumption
    | ((with_reducible apply Within.mk); exact rfl)
    | with_reducible apply Moves.thenOp (State.countReissues_writes ..)
    | with_reducible apply Moves.thenOp (State.writeRow_writes ..)
    | with_reducible apply Moves.thenOp (State.writeShadow_writes ..)
    | with_reducible apply Moves.ite
    | (with_reducible apply upd_parts <;> first | exact .inl rfl | exact .inr rfl)
    | simp only [Moves.mk_eq]
    | with_reducible refine MovesMk.upd rfl (.inl rfl) (.inl rfl) ?_ ?_
    | (with_reducible apply Moves.foldl; intro _ _)
    | dsimp only
    | split

theorem State.stepRows_writes (s : State) (t : CairnTable) (e : Nat) (f : Nat → BitVec 94 → BitVec 94) :
    Moves [.freeCount, .objs, .cairn] s (State.stepRows s t e f) := by
  unfold State.stepRows
  repeat' first
    | with_reducible apply Moves.refl
    | assumption
    | ((with_reducible apply Within.mk); exact rfl)
    | with_reducible apply Moves.thenOp (State.writeRow_writes ..)
    | with_reducible apply Moves.thenOp (State.writeShadow_writes ..)
    | with_reducible apply Moves.thenOp (State.countReissues_writes ..)
    | with_reducible apply Moves.thenOp (State.stepFrom_writes ..)
    | with_reducible apply Moves.ite
    | (with_reducible apply upd_parts <;> first | exact .inl rfl | exact .inr rfl)
    | simp only [Moves.mk_eq]
    | with_reducible refine MovesMk.upd rfl (.inl rfl) (.inl rfl) ?_ ?_
    | (with_reducible apply Moves.foldl; intro _ _)
    | dsimp only
    | split

theorem State.takeBanks_writes (s : State) (t : CairnTable) :
    Moves [.cairn] s (State.takeBanks s t) := by
  unfold State.takeBanks
  repeat' first
    | with_reducible apply Moves.refl
    | assumption
    | ((with_reducible apply Within.mk); exact rfl)
    | with_reducible apply Moves.thenOp (State.clearBank_writes ..)
    | with_reducible apply Moves.ite
    | (with_reducible apply upd_parts <;> first | exact .inl rfl | exact .inr rfl)
    | simp only [Moves.mk_eq]
    | with_reducible refine MovesMk.upd rfl (.inl rfl) (.inl rfl) ?_ ?_
    | (with_reducible apply Moves.foldl; intro _ _)
    | dsimp only
    | split

theorem State.createTable_writes (s : State) (tenant : Nat) (c : CairnCmd) :
    CairnAns.All (fun u => Moves [.objs, .routes, .cairn, .content, .depot, .link] s u) (State.createTable s tenant c) := by
  unfold State.createTable
  repeat' first
    | with_reducible apply Moves.refl
    | assumption
    | ((with_reducible apply Within.mk); exact rfl)
    | with_reducible apply Moves.thenOp (State.takeBanks_writes ..)
    | with_reducible apply CairnAns.All.okIn
    | with_reducible apply CairnAns.All.failIn
    | with_reducible apply CairnAns.All.askIn
    | with_reducible apply CairnAns.All.ite
    | with_reducible apply Moves.ite
    | (with_reducible apply upd_parts <;> first | exact .inl rfl | exact .inr rfl)
    | simp only [Moves.mk_eq]
    | with_reducible refine MovesMk.upd rfl (.inl rfl) (.inl rfl) ?_ ?_
    | (with_reducible apply Moves.foldl; intro _ _)
    | dsimp only
    | split
    | with_reducible refine Moves.thenOp (Alloc.All.okGet (State.ensurePages_writes ..) (by assumption)) (Within.mk rfl) ?_
    | with_reducible refine Moves.thenOp (Alloc.All.failGet (State.ensurePages_writes ..) (by assumption)) (Within.mk rfl) ?_
    | with_reducible refine Moves.thenOp (OptAll.stSnd (State.newObj_writes ..) (by assumption)) (Within.mk rfl) ?_
    | with_reducible refine Moves.thenOp (OptAll.stSnd' (State.newObj_writes ..) (by assumption)) (Within.mk rfl) ?_

theorem State.dropTable_writes (s : State) (t : CairnTable) :
    Moves [.objs, .routes, .cairn, .content, .depot, .link, .err, .mgmt, .out] s (State.dropTable s t) := by
  unfold State.dropTable
  repeat' first
    | with_reducible apply Moves.refl
    | assumption
    | ((with_reducible apply Within.mk); exact rfl)
    | with_reducible apply Moves.thenOp (State.clearBank_writes ..)
    | with_reducible apply Moves.thenOp (State.endSearchers_writes ..)
    | with_reducible apply Moves.thenOp (State.freeObj_writes ..)
    | with_reducible apply Moves.ite
    | (with_reducible apply upd_parts <;> first | exact .inl rfl | exact .inr rfl)
    | simp only [Moves.mk_eq]
    | with_reducible refine MovesMk.upd rfl (.inl rfl) (.inl rfl) ?_ ?_
    | (with_reducible apply Moves.foldl; intro _ _)
    | dsimp only
    | split

theorem State.cairnSearch_writes (s : State) (tenant : Nat) (t : CairnTable) (c : CairnCmd) :
    Moves [.objs, .routes, .cairn, .hostMem] s (State.cairnSearch s tenant t c) := by
  unfold State.cairnSearch
  repeat' first
    | with_reducible apply Moves.refl
    | assumption
    | ((with_reducible apply Within.mk); exact rfl)
    | with_reducible apply Moves.thenOp (State.hostWrite_writes ..)
    | with_reducible apply Moves.thenOp (State.searchTable_writes ..)
    | with_reducible apply Moves.ite
    | (with_reducible apply upd_parts <;> first | exact .inl rfl | exact .inr rfl)
    | simp only [Moves.mk_eq]
    | with_reducible refine MovesMk.upd rfl (.inl rfl) (.inl rfl) ?_ ?_
    | (with_reducible apply Moves.foldl; intro _ _)
    | dsimp only
    | split
    | with_reducible refine Moves.thenOp (Moves.of_snd (State.searchTable_writes ..) (by assumption)) (Within.mk rfl) ?_

theorem State.cairnRead_writes (s : State) (tenant : Nat) (t : CairnTable) (c : CairnCmd) :
    Moves [.hostMem] s (State.cairnRead s tenant t c) := by
  unfold State.cairnRead
  repeat' first
    | with_reducible apply Moves.refl
    | assumption
    | ((with_reducible apply Within.mk); exact rfl)
    | with_reducible apply Moves.thenOp (State.hostWrite_writes ..)
    | with_reducible apply Moves.ite
    | (with_reducible apply upd_parts <;> first | exact .inl rfl | exact .inr rfl)
    | simp only [Moves.mk_eq]
    | with_reducible refine MovesMk.upd rfl (.inl rfl) (.inl rfl) ?_ ?_
    | (with_reducible apply Moves.foldl; intro _ _)
    | dsimp only
    | split

theorem State.moveEntry_writes (s : State) (t : CairnTable) (src dest : Nat) :
    Moves [.freeCount, .objs, .cairn] s (State.moveEntry s t src dest) := by
  unfold State.moveEntry
  repeat' first
    | with_reducible apply Moves.refl
    | assumption
    | ((with_reducible apply Within.mk); exact rfl)
    | with_reducible apply Moves.thenOp (State.stepRows_writes ..)
    | with_reducible apply Moves.thenOp (State.stepFrom_writes ..)
    | with_reducible apply Moves.ite
    | (with_reducible apply upd_parts <;> first | exact .inl rfl | exact .inr rfl)
    | simp only [Moves.mk_eq]
    | with_reducible refine MovesMk.upd rfl (.inl rfl) (.inl rfl) ?_ ?_
    | (with_reducible apply Moves.foldl; intro _ _)
    | dsimp only
    | split

theorem State.cairnOn_writes (s : State) (tenant : Nat) (t : CairnTable) (c : CairnCmd) :
    ExcAll (fun a => Moves [.freeCount, .objs, .routes, .cairn, .content, .depot, .link, .hostMem, .err, .mgmt, .out] s a) (State.cairnOn s tenant t c) := by
  unfold State.cairnOn
  repeat' first
    | with_reducible apply Moves.refl
    | assumption
    | ((with_reducible apply Within.mk); exact rfl)
    | with_reducible apply Moves.thenOp (State.cairnRead_writes ..)
    | with_reducible apply Moves.thenOp (State.cairnSearch_writes ..)
    | with_reducible apply Moves.thenOp (State.dropTable_writes ..)
    | with_reducible apply Moves.thenOp (State.moveEntry_writes ..)
    | with_reducible apply Moves.thenOp (State.stepRows_writes ..)
    | with_reducible apply ExcAll.ok'
    | with_reducible apply ExcAll.error'
    | with_reducible apply ExcAll.ite
    | with_reducible apply Moves.ite
    | (with_reducible apply upd_parts <;> first | exact .inl rfl | exact .inr rfl)
    | simp only [Moves.mk_eq]
    | with_reducible refine MovesMk.upd rfl (.inl rfl) (.inl rfl) ?_ ?_
    | (with_reducible apply Moves.foldl; intro _ _)
    | dsimp only
    | split

theorem State.cairnRun_writes (s : State) (tenant : Nat) (c : CairnCmd) :
    CairnAns.All (fun u => Moves [.freeCount, .objs, .routes, .cairn, .content, .depot, .link, .hostMem, .err, .mgmt, .out] s u) (State.cairnRun s tenant c) := by
  unfold State.cairnRun
  repeat' first
    | with_reducible apply Moves.refl
    | assumption
    | ((with_reducible apply Within.mk); exact rfl)
    | with_reducible refine CairnAns.All.imp (fun _ h => Moves.thenOp h (Within.mk rfl) ?_) (State.createTable_writes ..)
    | with_reducible apply CairnAns.All.okIn
    | with_reducible apply CairnAns.All.failIn
    | with_reducible apply CairnAns.All.askIn
    | with_reducible apply CairnAns.All.ite
    | with_reducible apply Moves.ite
    | (with_reducible apply upd_parts <;> first | exact .inl rfl | exact .inr rfl)
    | simp only [Moves.mk_eq]
    | with_reducible refine MovesMk.upd rfl (.inl rfl) (.inl rfl) ?_ ?_
    | (with_reducible apply Moves.foldl; intro _ _)
    | dsimp only
    | split
    | with_reducible refine Moves.thenOp (ExcAll.st (State.cairnOn_writes ..) (by assumption)) (Within.mk rfl) ?_
    | with_reducible refine Moves.thenOp (CairnAns.All.okGet (State.createTable_writes ..) (by assumption)) (Within.mk rfl) ?_

theorem State.cairnList_writes (s : State) (tenant : Nat) (x2 : Nat) (x3 : List (List Byte)) :
    ListAns.All (fun u => Moves [.freeCount, .objs, .routes, .cairn, .content, .depot, .link, .hostMem, .err, .mgmt, .out] s u) (State.cairnList s tenant x2 x3) := by
  induction x3 generalizing s tenant x2 with
  | nil =>
    unfold State.cairnList
    exact Moves.refl _ _
  | cons a l ih =>
    unfold State.cairnList
    split
    · exact Moves.refl _ _
    · exact Moves.refl _ _
    · exact ListAns.All.imp (fun _ h => (CairnAns.All.okGet (State.cairnRun_writes ..) (by assumption)).trans h) (ih ..)

theorem State.sweepBank_writes (s : State) (k : Nat) :
    Moves [.objs, .cairn, .err, .mgmt, .out] s (State.sweepBank s k) := by
  unfold State.sweepBank
  repeat' first
    | with_reducible apply Moves.refl
    | assumption
    | ((with_reducible apply Within.mk); exact rfl)
    | with_reducible apply Moves.thenOp (State.oinc_writes ..)
    | with_reducible apply Moves.thenOp (State.raise_writes ..)
    | with_reducible apply Moves.thenOp (State.repairRow_writes ..)
    | with_reducible apply Moves.thenOp (State.noteRepair_writes ..)
    | with_reducible apply Moves.ite
    | (with_reducible apply upd_parts <;> first | exact .inl rfl | exact .inr rfl)
    | simp only [Moves.mk_eq]
    | with_reducible refine MovesMk.upd rfl (.inl rfl) (.inl rfl) ?_ ?_
    | (with_reducible apply Moves.foldl; intro _ _)
    | dsimp only
    | split

theorem State.notePass_writes (s : State) (p : Nat × Nat) (k : Nat) :
    Moves [.cairn] s (State.notePass s p k) := by
  unfold State.notePass
  repeat' first
    | with_reducible apply Moves.refl
    | assumption
    | ((with_reducible apply Within.mk); exact rfl)
    | with_reducible apply Moves.thenOp (State.setBank_writes ..)
    | with_reducible apply Moves.ite
    | (with_reducible apply upd_parts <;> first | exact .inl rfl | exact .inr rfl)
    | simp only [Moves.mk_eq]
    | with_reducible refine MovesMk.upd rfl (.inl rfl) (.inl rfl) ?_ ?_
    | (with_reducible apply Moves.foldl; intro _ _)
    | dsimp only
    | split

theorem State.paritySweep_writes (s : State) :
    Moves [.now, .objs, .cairn, .strands, .err, .mgmt, .out] s (State.paritySweep s) := by
  unfold State.paritySweep
  repeat' first
    | with_reducible apply Moves.refl
    | assumption
    | ((with_reducible apply Within.mk); exact rfl)
    | with_reducible apply Moves.thenOp (State.advanceTo_writes ..)
    | with_reducible apply Moves.thenOp (State.setBank_writes ..)
    | with_reducible apply Moves.thenOp (State.sweepBank_writes ..)
    | with_reducible apply Moves.thenOp (State.notePass_writes ..)
    | with_reducible apply Moves.ite
    | (with_reducible apply upd_parts <;> first | exact .inl rfl | exact .inr rfl)
    | simp only [Moves.mk_eq]
    | with_reducible refine MovesMk.upd rfl (.inl rfl) (.inl rfl) ?_ ?_
    | (with_reducible apply Moves.foldl; intro _ _)
    | dsimp only
    | split

theorem State.scrubRow_writes (s : State) (k row : Nat) :
    Moves [.objs, .cairn, .err, .mgmt, .out] s (State.scrubRow s k row) := by
  unfold State.scrubRow
  repeat' first
    | with_reducible apply Moves.refl
    | assumption
    | ((with_reducible apply Within.mk); exact rfl)
    | with_reducible apply Moves.thenOp (State.noteRepair_writes ..)
    | with_reducible apply Moves.thenOp (State.oinc_writes ..)
    | with_reducible apply Moves.thenOp (State.raise_writes ..)
    | with_reducible apply Moves.thenOp (State.repairRow_writes ..)
    | with_reducible apply Moves.ite
    | (with_reducible apply upd_parts <;> first | exact .inl rfl | exact .inr rfl)
    | simp only [Moves.mk_eq]
    | with_reducible refine MovesMk.upd rfl (.inl rfl) (.inl rfl) ?_ ?_
    | (with_reducible apply Moves.foldl; intro _ _)
    | dsimp only
    | split

theorem State.scrubBank_writes (s : State) (k : Nat) :
    Moves [.objs, .cairn, .err, .mgmt, .out] s (State.scrubBank s k) := by
  unfold State.scrubBank
  repeat' first
    | with_reducible apply Moves.refl
    | assumption
    | ((with_reducible apply Within.mk); exact rfl)
    | with_reducible apply Moves.thenOp (State.oinc_writes ..)
    | with_reducible apply Moves.thenOp (State.raise_writes ..)
    | with_reducible apply Moves.thenOp (State.repairRow_writes ..)
    | with_reducible apply Moves.thenOp (State.setBank_writes ..)
    | with_reducible apply Moves.thenOp (State.scrubRow_writes ..)
    | with_reducible apply Moves.ite
    | (with_reducible apply upd_parts <;> first | exact .inl rfl | exact .inr rfl)
    | simp only [Moves.mk_eq]
    | with_reducible refine MovesMk.upd rfl (.inl rfl) (.inl rfl) ?_ ?_
    | (with_reducible apply Moves.foldl; intro _ _)
    | dsimp only
    | split

theorem State.noteUse_writes (s : State) (sp : Span) :
    Moves [.cairn] s (State.noteUse s sp) := by
  unfold State.noteUse
  repeat' first
    | with_reducible apply Moves.refl
    | assumption
    | ((with_reducible apply Within.mk); exact rfl)
    | with_reducible apply Moves.thenOp (State.setBank_writes ..)
    | with_reducible apply Moves.ite
    | (with_reducible apply upd_parts <;> first | exact .inl rfl | exact .inr rfl)
    | simp only [Moves.mk_eq]
    | with_reducible refine MovesMk.upd rfl (.inl rfl) (.inl rfl) ?_ ?_
    | (with_reducible apply Moves.foldl; intro _ _)
    | dsimp only
    | split

theorem State.reloadBank_writes (s : State) (k : Nat) :
    Moves [.cairn] s (State.reloadBank s k) := by
  unfold State.reloadBank
  repeat' first
    | with_reducible apply Moves.refl
    | assumption
    | ((with_reducible apply Within.mk); exact rfl)
    | with_reducible apply Moves.thenOp (State.setBank_writes ..)
    | with_reducible apply Moves.ite
    | (with_reducible apply upd_parts <;> first | exact .inl rfl | exact .inr rfl)
    | simp only [Moves.mk_eq]
    | with_reducible refine MovesMk.upd rfl (.inl rfl) (.inl rfl) ?_ ?_
    | (with_reducible apply Moves.foldl; intro _ _)
    | dsimp only
    | split

theorem State.camReplay_writes (s : State) (k : RouteKey) (kept : Nat → Nat → Bool) :
    Moves [.cairn] s (State.camReplay s k kept) := by
  unfold State.camReplay
  repeat' first
    | with_reducible apply Moves.refl
    | assumption
    | ((with_reducible apply Within.mk); exact rfl)
    | with_reducible apply Moves.thenOp (State.clearBank_writes ..)
    | with_reducible apply Moves.thenOp (State.reloadBank_writes ..)
    | with_reducible apply Moves.ite
    | (with_reducible apply upd_parts <;> first | exact .inl rfl | exact .inr rfl)
    | simp only [Moves.mk_eq]
    | with_reducible refine MovesMk.upd rfl (.inl rfl) (.inl rfl) ?_ ?_
    | (with_reducible apply Moves.foldl; intro _ _)
    | dsimp only
    | split

/-! ## Filter -/

theorem FilterMachine.arithRes_writes (m : FilterMachine) (s : State) (d : Nat) (ty : Nat) (scale : Nat) (r : Option (List Slot)) :
    FRes.All (fun t => Moves [] s t) (FilterMachine.arithRes m s d ty scale r) := by
  unfold FilterMachine.arithRes
  repeat' first
    | with_reducible apply Moves.refl
    | with_reducible apply FRes.All.okIn
    | with_reducible apply FRes.All.faultIn
    | split

theorem FilterMachine.ldcol_writes (m : FilterMachine) (s : State) (x : FArgs) :
    FRes.All (fun t => Moves [] s t) (FilterMachine.ldcol m s x) := by
  unfold FilterMachine.ldcol
  repeat' first
    | with_reducible apply Moves.refl
    | with_reducible apply FRes.All.okIn
    | with_reducible apply FRes.All.noOperandIn
    | split

theorem FilterMachine.compare_writes (m : FilterMachine) (s : State) (op : Nat) (x : FArgs) :
    FRes.All (fun t => Moves [] s t) (FilterMachine.compare m s op x) := by
  unfold FilterMachine.compare
  repeat' first
    | with_reducible apply Moves.refl
    | with_reducible apply FRes.All.okIn
    | with_reducible apply FRes.All.noOperandIn
    | split

theorem FilterMachine.between_writes (m : FilterMachine) (s : State) (x : FArgs) :
    FRes.All (fun t => Moves [] s t) (FilterMachine.between m s x) := by
  unfold FilterMachine.between
  repeat' first
    | with_reducible apply Moves.refl
    | with_reducible apply FRes.All.okIn
    | with_reducible apply FRes.All.noOperandIn
    | split

theorem FilterMachine.isNull_writes (m : FilterMachine) (s : State) (x : FArgs) :
    FRes.All (fun t => Moves [] s t) (FilterMachine.isNull m s x) := by
  unfold FilterMachine.isNull
  repeat' first
    | with_reducible apply Moves.refl
    | with_reducible apply FRes.All.okIn
    | with_reducible apply FRes.All.noOperandIn
    | split

theorem FilterMachine.inList_writes (m : FilterMachine) (s : State) (x : FArgs) :
    FRes.All (fun t => Moves [] s t) (FilterMachine.inList m s x) := by
  unfold FilterMachine.inList
  repeat' first
    | with_reducible apply Moves.refl
    | with_reducible apply FRes.All.okIn
    | with_reducible apply FRes.All.noOperandIn
    | split

theorem FilterMachine.cairn_writes (m : FilterMachine) (s : State) (op : Nat) (x : FArgs) :
    FRes.All (fun t => Moves [.objs, .routes, .cairn] s t) (FilterMachine.cairn m s op x) := by
  unfold FilterMachine.cairn
  repeat' first
    | with_reducible apply Moves.refl
    | ((with_reducible apply Within.mk); exact rfl)
    | with_reducible apply Moves.thenOp (State.searchTable_writes ..)
    | with_reducible apply FRes.All.okIn
    | with_reducible apply FRes.All.faultIn
    | with_reducible apply FRes.All.noOperandIn
    | (with_reducible apply Moves.foldl_fst; intro _ _)
    | split

theorem FilterMachine.logic2_writes (m : FilterMachine) (s : State) (f : Tri → Tri → Tri) (x : FArgs) :
    FRes.All (fun t => Moves [] s t) (FilterMachine.logic2 m s f x) := by
  unfold FilterMachine.logic2
  repeat' first
    | with_reducible apply Moves.refl
    | with_reducible apply FRes.All.okIn
    | with_reducible apply FRes.All.noOperandIn
    | split

theorem FilterMachine.logic1_writes (m : FilterMachine) (s : State) (f : Tri → Tri) (x : FArgs) :
    FRes.All (fun t => Moves [] s t) (FilterMachine.logic1 m s f x) := by
  unfold FilterMachine.logic1
  repeat' first
    | with_reducible apply Moves.refl
    | with_reducible apply FRes.All.okIn
    | with_reducible apply FRes.All.noOperandIn
    | split

theorem FilterMachine.arith_writes (m : FilterMachine) (s : State) (op : Nat) (x : FArgs) :
    FRes.All (fun t => Moves [] s t) (FilterMachine.arith m s op x) := by
  unfold FilterMachine.arith
  repeat' first
    | with_reducible apply Moves.refl
    | with_reducible refine FRes.All.imp (fun _ h => Moves.thenOp h (Within.mk rfl) ?_) (FilterMachine.arithRes_writes ..)
    | with_reducible apply FRes.All.noOperandIn
    | split

theorem FilterMachine.neg_writes (m : FilterMachine) (s : State) (x : FArgs) :
    FRes.All (fun t => Moves [] s t) (FilterMachine.neg m s x) := by
  unfold FilterMachine.neg
  repeat' first
    | with_reducible apply Moves.refl
    | with_reducible refine FRes.All.imp (fun _ h => Moves.thenOp h (Within.mk rfl) ?_) (FilterMachine.arithRes_writes ..)
    | with_reducible apply FRes.All.noOperandIn
    | split

theorem FilterMachine.cast_writes (m : FilterMachine) (s : State) (x : FArgs) :
    FRes.All (fun t => Moves [] s t) (FilterMachine.cast m s x) := by
  unfold FilterMachine.cast
  repeat' first
    | with_reducible apply Moves.refl
    | with_reducible refine FRes.All.imp (fun _ h => Moves.thenOp h (Within.mk rfl) ?_) (FilterMachine.arithRes_writes ..)
    | with_reducible apply FRes.All.noOperandIn
    | split

theorem FilterMachine.hash_writes (m : FilterMachine) (s : State) (x : FArgs) :
    FRes.All (fun t => Moves [] s t) (FilterMachine.hash m s x) := by
  unfold FilterMachine.hash
  repeat' first
    | with_reducible apply Moves.refl
    | with_reducible apply FRes.All.okIn
    | with_reducible apply FRes.All.noOperandIn
    | split

theorem FilterMachine.crc_writes (m : FilterMachine) (s : State) (x : FArgs) :
    FRes.All (fun t => Moves [] s t) (FilterMachine.crc m s x) := by
  unfold FilterMachine.crc
  repeat' first
    | with_reducible apply Moves.refl
    | with_reducible apply FRes.All.okIn
    | with_reducible apply FRes.All.noOperandIn
    | split

theorem FilterMachine.step_writes (m : FilterMachine) (s : State) (i : FInsn) :
    FRes.All (fun t => Moves [.objs, .routes, .cairn] s t) (FilterMachine.step m s i) := by
  unfold FilterMachine.step
  repeat' first
    | with_reducible apply Moves.refl
    | with_reducible refine FRes.All.imp (fun _ h => Moves.thenOp h (Within.mk rfl) ?_) (FilterMachine.arith_writes ..)
    | with_reducible refine FRes.All.imp (fun _ h => Moves.thenOp h (Within.mk rfl) ?_) (FilterMachine.between_writes ..)
    | with_reducible refine FRes.All.imp (fun _ h => Moves.thenOp h (Within.mk rfl) ?_) (FilterMachine.cairn_writes ..)
    | with_reducible refine FRes.All.imp (fun _ h => Moves.thenOp h (Within.mk rfl) ?_) (FilterMachine.cast_writes ..)
    | with_reducible refine FRes.All.imp (fun _ h => Moves.thenOp h (Within.mk rfl) ?_) (FilterMachine.compare_writes ..)
    | with_reducible refine FRes.All.imp (fun _ h => Moves.thenOp h (Within.mk rfl) ?_) (FilterMachine.crc_writes ..)
    | with_reducible refine FRes.All.imp (fun _ h => Moves.thenOp h (Within.mk rfl) ?_) (FilterMachine.hash_writes ..)
    | with_reducible refine FRes.All.imp (fun _ h => Moves.thenOp h (Within.mk rfl) ?_) (FilterMachine.inList_writes ..)
    | with_reducible refine FRes.All.imp (fun _ h => Moves.thenOp h (Within.mk rfl) ?_) (FilterMachine.isNull_writes ..)
    | with_reducible refine FRes.All.imp (fun _ h => Moves.thenOp h (Within.mk rfl) ?_) (FilterMachine.ldcol_writes ..)
    | with_reducible refine FRes.All.imp (fun _ h => Moves.thenOp h (Within.mk rfl) ?_) (FilterMachine.logic1_writes ..)
    | with_reducible refine FRes.All.imp (fun _ h => Moves.thenOp h (Within.mk rfl) ?_) (FilterMachine.logic2_writes ..)
    | with_reducible refine FRes.All.imp (fun _ h => Moves.thenOp h (Within.mk rfl) ?_) (FilterMachine.neg_writes ..)
    | with_reducible apply FRes.All.ite

theorem FilterMachine.run_writes (s : State) (m : FilterMachine) (x2 : List FInsn) :
    FRes.All (fun t => Moves [.objs, .routes, .cairn] s t) (FilterMachine.run s m x2) := by
  induction x2 generalizing s m with
  | nil =>
    unfold FilterMachine.run
    repeat' first
      | with_reducible apply Moves.refl
      | with_reducible apply FRes.All.okIn
  | cons a l ih =>
    unfold FilterMachine.run
    repeat' first
      | with_reducible apply Moves.refl
      | with_reducible refine FRes.All.imp (fun _ h => Moves.thenOp h (Within.mk rfl) ?_) (FilterMachine.step_writes ..)
      | with_reducible refine FRes.All.imp (fun _ h => Moves.thenOp h (Within.mk rfl) ?_) (ih ..)
      | split
      | with_reducible refine Moves.thenOp (FRes.All.okGet (FilterMachine.step_writes ..) (by assumption)) (Within.mk rfl) ?_

/-! ## Tasks -/

theorem TRes.ofRd_writes {α : Type} (s : State) (r : Rd α) :
    TRes.All (fun t => Moves [] s t) (TRes.ofRd s r) := by
  unfold TRes.ofRd
  repeat' first
    | with_reducible apply Moves.refl
    | with_reducible apply TRes.All.okIn
    | with_reducible apply TRes.All.badIn
    | with_reducible apply TRes.All.needIn
    | split

theorem State.work_writes (s : State) (k : RouteKey) (f : RouteWork → RouteWork) :
    Moves [.routes] s (State.work s k f) := by
  unfold State.work
  repeat' first
    | with_reducible apply Moves.refl
    | assumption
    | ((with_reducible apply Within.mk); exact rfl)
    | with_reducible apply Moves.thenOp (State.updRoute_writes ..)
    | with_reducible apply Moves.ite
    | (with_reducible apply upd_parts <;> first | exact .inl rfl | exact .inr rfl)
    | simp only [Moves.mk_eq]
    | with_reducible refine MovesMk.upd rfl (.inl rfl) (.inl rfl) ?_ ?_
    | (with_reducible apply Moves.foldl; intro _ _)
    | dsimp only
    | split

theorem State.mapSpan_writes (s : State) (k : RouteKey) (f : Span → Span) :
    Moves [.routes] s (State.mapSpan s k f) := by
  unfold State.mapSpan
  repeat' first
    | with_reducible apply Moves.refl
    | assumption
    | ((with_reducible apply Within.mk); exact rfl)
    | with_reducible apply Moves.thenOp (State.updRoute_writes ..)
    | with_reducible apply Moves.ite
    | (with_reducible apply upd_parts <;> first | exact .inl rfl | exact .inr rfl)
    | simp only [Moves.mk_eq]
    | with_reducible refine MovesMk.upd rfl (.inl rfl) (.inl rfl) ?_ ?_
    | (with_reducible apply Moves.foldl; intro _ _)
    | dsimp only
    | split

theorem State.askPage_writes (s : State) (m : Option (Asked × SvcMsg)) :
    Moves [.objs, .link, .out] s (State.askPage s m) := by
  unfold State.askPage
  repeat' first
    | with_reducible apply Moves.refl
    | assumption
    | ((with_reducible apply Within.mk); exact rfl)
    | with_reducible apply Moves.thenOp (State.oinc_writes ..)
    | with_reducible apply Moves.thenOp (State.send_writes ..)
    | with_reducible apply Moves.ite
    | (with_reducible apply upd_parts <;> first | exact .inl rfl | exact .inr rfl)
    | simp only [Moves.mk_eq]
    | with_reducible refine MovesMk.upd rfl (.inl rfl) (.inl rfl) ?_ ?_
    | (with_reducible apply Moves.foldl; intro _ _)
    | dsimp only
    | split

theorem State.takeSlot_writes (s : State) (t : Task) :
    Moves [.sched] s (State.takeSlot s t) := by
  unfold State.takeSlot
  repeat' first
    | with_reducible apply Moves.refl
    | assumption
    | ((with_reducible apply Within.mk); exact rfl)
    | with_reducible apply Moves.ite
    | (with_reducible apply upd_parts <;> first | exact .inl rfl | exact .inr rfl)
    | simp only [Moves.mk_eq]
    | with_reducible refine MovesMk.upd rfl (.inl rfl) (.inl rfl) ?_ ?_
    | (with_reducible apply Moves.foldl; intro _ _)
    | dsimp only
    | split

theorem State.fillSlots_writes (s : State) :
    Moves [.sched] s (State.fillSlots s) := by
  unfold State.fillSlots
  repeat' first
    | with_reducible apply Moves.refl
    | assumption
    | ((with_reducible apply Within.mk); exact rfl)
    | with_reducible apply Moves.thenOp (State.takeSlot_writes ..)
    | with_reducible apply Moves.ite
    | (with_reducible apply upd_parts <;> first | exact .inl rfl | exact .inr rfl)
    | simp only [Moves.mk_eq]
    | with_reducible refine MovesMk.upd rfl (.inl rfl) (.inl rfl) ?_ ?_
    | (with_reducible apply Moves.foldl; intro _ _)
    | dsimp only
    | split

theorem State.pushTask_writes (s : State) (t : Task) :
    Moves [.routes, .sched] s (State.pushTask s t) := by
  unfold State.pushTask
  repeat' first
    | with_reducible apply Moves.refl
    | assumption
    | ((with_reducible apply Within.mk); exact rfl)
    | with_reducible apply Moves.thenOp (State.work_writes ..)
    | with_reducible apply Moves.thenOp (State.takeSlot_writes ..)
    | with_reducible apply Moves.ite
    | (with_reducible apply upd_parts <;> first | exact .inl rfl | exact .inr rfl)
    | simp only [Moves.mk_eq]
    | with_reducible refine MovesMk.upd rfl (.inl rfl) (.inl rfl) ?_ ?_
    | (with_reducible apply Moves.foldl; intro _ _)
    | dsimp only
    | split

theorem State.wakeProbes_writes (s : State) (k : RouteKey) (probe : Nat) (ridge : Nat) :
    Moves [.routes, .sched] s (State.wakeProbes s k probe ridge) := by
  unfold State.wakeProbes
  repeat' first
    | with_reducible apply Moves.refl
    | assumption
    | ((with_reducible apply Within.mk); exact rfl)
    | with_reducible apply Moves.thenOp (State.pushTask_writes ..)
    | with_reducible apply Moves.thenOp (State.work_writes ..)
    | with_reducible apply Moves.ite
    | (with_reducible apply upd_parts <;> first | exact .inl rfl | exact .inr rfl)
    | simp only [Moves.mk_eq]
    | with_reducible refine MovesMk.upd rfl (.inl rfl) (.inl rfl) ?_ ?_
    | (with_reducible apply Moves.foldl; intro _ _)
    | dsimp only
    | split

theorem State.readRope_writes (s : State) (o : Nat) :
    TRes.All (fun t => Moves [] s t) (State.readRope s o) := by
  unfold State.readRope
  repeat' first
    | with_reducible apply Moves.refl
    | with_reducible apply TRes.All.okIn
    | with_reducible apply TRes.All.badIn
    | split

theorem State.spillWrite_writes (s : State) (o : Nat) :
    Moves [.hostMem] s (State.spillWrite s o) := by
  unfold State.spillWrite
  repeat' first
    | with_reducible apply Moves.refl
    | ((with_reducible apply Within.mk); exact rfl)
    | with_reducible apply Moves.thenOp (State.hostWrite_writes ..)
    | with_reducible apply Moves.ite
    | (with_reducible apply Moves.foldl; intro _ _)
    | split

theorem State.storeContent_writes (s : State) (k : RouteKey) (cls : Nat) (ridge : Nat) (bytes : Nat) (c : Content) (forms : List ColForm) :
    TRes.All (fun t => Moves [.objs, .routes, .content, .depot, .link, .hostMem] s t) (State.storeContent s k cls ridge bytes c forms) := by
  unfold State.storeContent
  repeat' first
    | with_reducible apply Moves.refl
    | assumption
    | ((with_reducible apply Within.mk); exact rfl)
    | with_reducible refine Alloc.All.imp (fun _ h => Moves.thenOp h (Within.mk rfl) ?_) (State.ensureBytes_writes ..)
    | with_reducible apply Moves.thenOp (State.spillWrite_writes ..)
    | with_reducible apply TRes.All.okIn
    | with_reducible apply TRes.All.fullIn
    | with_reducible apply TRes.ofAlloc_all
    | with_reducible refine TRes.All.andThen ?_ (fun _ _ _ => ?_)
    | split
    | with_reducible refine Moves.thenOp (OptAll.stSnd (State.newObj_writes ..) (by assumption)) (Within.mk rfl) ?_

theorem State.storeRope_writes (s : State) (k : RouteKey) (ridge : Nat) (r : Rope) (forms : List ColForm) :
    TRes.All (fun t => Moves [.objs, .routes, .content, .depot, .link, .hostMem] s t) (State.storeRope s k ridge r forms) := by
  unfold State.storeRope
  repeat' first
    | with_reducible apply Moves.refl
    | with_reducible refine TRes.All.imp (fun _ h => Moves.thenOp h (Within.mk rfl) ?_) (State.storeContent_writes ..)

theorem State.setSlot_writes (s : State) (k : Nat) (b : SlotBuf × SlotBuf) :
    Moves [.summit] s (State.setSlot s k b) := by
  unfold State.setSlot
  repeat' first
    | with_reducible apply Moves.refl
    | assumption
    | ((with_reducible apply Within.mk); exact rfl)
    | with_reducible apply Moves.ite
    | (with_reducible apply upd_parts <;> first | exact .inl rfl | exact .inr rfl)
    | simp only [Moves.mk_eq]
    | with_reducible refine MovesMk.upd rfl (.inl rfl) (.inl rfl) ?_ ?_
    | (with_reducible apply Moves.foldl; intro _ _)
    | dsimp only
    | split

theorem State.deposit_writes (s : State) (slot : Nat) (e : SlotEntry) (seq : Nat) (obj : Nat) :
    Moves [.summit] s (State.deposit s slot e seq obj) := by
  unfold State.deposit
  repeat' first
    | with_reducible apply Moves.refl
    | ((with_reducible apply Within.mk); exact rfl)
    | with_reducible apply Moves.thenOp (State.setSlot_writes ..)
    | with_reducible apply Moves.ite

theorem State.portTakes_writes (s : State) (ridge : Nat) (strand : Option Nat) :
    Moves [.summit] s (State.portTakes s ridge strand) := by
  unfold State.portTakes
  repeat' first
    | with_reducible apply Moves.refl
    | assumption
    | ((with_reducible apply Within.mk); exact rfl)
    | with_reducible apply Moves.ite
    | (with_reducible apply upd_parts <;> first | exact .inl rfl | exact .inr rfl)
    | simp only [Moves.mk_eq]
    | with_reducible refine MovesMk.upd rfl (.inl rfl) (.inl rfl) ?_ ?_
    | (with_reducible apply Moves.foldl; intro _ _)
    | dsimp only
    | split

theorem State.emitTo_writes (s : State) (k : RouteKey) (d : RouteDesc) (stage : Nat) (src : Nat) (dst : Nat) (r : Rope) :
    TRes.All (fun t => Moves [.objs, .routes, .summit, .content, .depot, .link, .hostMem] s t) (State.emitTo s k d stage src dst r) := by
  unfold State.emitTo
  repeat' first
    | with_reducible apply Moves.refl
    | assumption
    | ((with_reducible apply Within.mk); exact rfl)
    | with_reducible apply Moves.thenOp (State.deposit_writes ..)
    | with_reducible refine TRes.All.imp (fun _ h => Moves.thenOp h (Within.mk rfl) ?_) (State.storeRope_writes ..)
    | with_reducible apply Moves.thenOp (State.portTakes_writes ..)
    | with_reducible apply TRes.All.okIn
    | with_reducible apply TRes.All.fullIn
    | with_reducible apply TRes.All.badIn
    | with_reducible apply TRes.All.needIn
    | with_reducible apply TRes.All.askIn
    | with_reducible apply TRes.All.againIn
    | with_reducible apply TRes.All.ite
    | with_reducible refine TRes.All.andThen ?_ (fun _ _ _ => ?_)
    | with_reducible apply Moves.ite
    | (with_reducible apply upd_parts <;> first | exact .inl rfl | exact .inr rfl)
    | simp only [Moves.mk_eq]
    | with_reducible refine MovesMk.upd rfl (.inl rfl) (.inl rfl) ?_ ?_
    | (with_reducible apply Moves.foldl; intro _ _)
    | dsimp only
    | split

theorem State.emitRope_writes (s : State) (k : RouteKey) (d : RouteDesc) (stage : Nat) (ridge : Nat) (r : Rope) :
    TRes.All (fun t => Moves [.objs, .routes, .summit, .content, .depot, .link, .hostMem] s t) (State.emitRope s k d stage ridge r) := by
  unfold State.emitRope
  repeat' first
    | with_reducible apply Moves.refl
    | with_reducible refine TRes.All.imp (fun _ h => Moves.thenOp h (Within.mk rfl) ?_) (State.emitTo_writes ..)

theorem State.emitRopes_writes (s : State) (k : RouteKey) (d : RouteDesc) (stage : Nat) (ridge : Nat) (x5 : List Rope) :
    TRes.All (fun t => Moves [.objs, .routes, .summit, .content, .depot, .link, .hostMem] s t) (State.emitRopes s k d stage ridge x5) := by
  induction x5 generalizing s k d stage ridge with
  | nil =>
    unfold State.emitRopes
    repeat' first
      | with_reducible apply Moves.refl
      | with_reducible apply TRes.All.okIn
  | cons a l ih =>
    unfold State.emitRopes
    repeat' first
      | with_reducible apply Moves.refl
      | assumption
      | with_reducible refine TRes.All.imp (fun _ h => Moves.thenOp h (Within.mk rfl) ?_) (State.emitRope_writes ..)
      | with_reducible refine TRes.All.imp (fun _ h => Moves.thenOp h (Within.mk rfl) ?_) (ih ..)
      | with_reducible refine TRes.All.andThen ?_ (fun _ _ _ => ?_)

theorem State.sizeTable_writes (s : State) (k : RouteKey) (stage : Nat) (ridge : Nat) (cls : Nat) (bytes : Nat) (fresh : Bool) :
    TRes.All (fun t => Moves [.objs, .routes, .content, .depot, .link, .hostMem] s t) (State.sizeTable s k stage ridge cls bytes fresh) := by
  unfold State.sizeTable
  repeat' first
    | with_reducible apply Moves.refl
    | assumption
    | ((with_reducible apply Within.mk); exact rfl)
    | with_reducible apply TRes.ofAlloc_all
    | with_reducible refine Alloc.All.imp (fun _ h => Moves.thenOp h (Within.mk rfl) ?_) (State.ensureBytes_writes ..)
    | with_reducible apply Moves.thenOp (State.releaseObj_writes ..)
    | with_reducible refine TRes.All.imp (fun _ h => Moves.thenOp h (Within.mk rfl) ?_) (State.storeContent_writes ..)
    | with_reducible apply Moves.thenOp (State.work_writes ..)
    | with_reducible apply TRes.All.okIn
    | with_reducible apply TRes.All.fullIn
    | with_reducible apply TRes.All.badIn
    | with_reducible apply TRes.All.needIn
    | with_reducible apply TRes.All.askIn
    | with_reducible apply TRes.All.againIn
    | with_reducible apply TRes.All.ite
    | with_reducible refine TRes.All.andThen ?_ (fun _ _ _ => ?_)
    | with_reducible apply Moves.ite
    | (with_reducible apply upd_parts <;> first | exact .inl rfl | exact .inr rfl)
    | simp only [Moves.mk_eq]
    | with_reducible refine MovesMk.upd rfl (.inl rfl) (.inl rfl) ?_ ?_
    | (with_reducible apply Moves.foldl; intro _ _)
    | dsimp only
    | split

theorem State.readySeals_writes (s : State) (k : RouteKey) :
    Moves [.routes, .sched] s (State.readySeals s k) := by
  unfold State.readySeals
  repeat' first
    | with_reducible apply Moves.refl
    | ((with_reducible apply Within.mk); exact rfl)
    | with_reducible apply Moves.thenOp (State.pushTask_writes ..)
    | with_reducible apply Moves.ite
    | (with_reducible apply Moves.foldl; intro _ _)
    | split

theorem State.fillRidge_writes (s : State) (k : RouteKey) (stage : Nat) (ridge : Nat) (share : Nat × Nat) (x5 : Nat) :
    Moves [.routes, .sched] s (State.fillRidge s k stage ridge share x5) := by
  induction x5 generalizing s k stage ridge share with
  | zero =>
    unfold State.fillRidge
    repeat' (with_reducible apply Moves.refl)
  | succ n ih =>
    unfold State.fillRidge
    repeat' first
      | with_reducible apply Moves.refl
      | ((with_reducible apply Within.mk); exact rfl)
      | with_reducible apply Moves.thenOp (State.mapSpan_writes ..)
      | with_reducible apply Moves.thenOp (State.pushTask_writes ..)
      | with_reducible refine Moves.thenOp (ih ..) (Within.mk rfl) ?_
      | with_reducible apply Moves.ite
      | simp only [Moves.mk_eq]
      | split

theorem State.fillSources_writes (s : State) :
    Moves [.routes, .sched] s (State.fillSources s) := by
  unfold State.fillSources
  repeat' first
    | with_reducible apply Moves.refl
    | assumption
    | ((with_reducible apply Within.mk); exact rfl)
    | with_reducible apply Moves.thenOp (State.fillRidge_writes ..)
    | with_reducible apply Moves.thenOp (State.fillSlots_writes ..)
    | with_reducible apply Moves.ite
    | (with_reducible apply upd_parts <;> first | exact .inl rfl | exact .inr rfl)
    | simp only [Moves.mk_eq]
    | with_reducible refine MovesMk.upd rfl (.inl rfl) (.inl rfl) ?_ ?_
    | (with_reducible apply Moves.foldl; intro _ _)
    | dsimp only
    | split

theorem State.countStalls_writes (s : State) (mine : Running → Bool) :
    Moves [.objs] s (State.countStalls s mine) := by
  unfold State.countStalls
  repeat' first
    | with_reducible apply Moves.refl
    | assumption
    | ((with_reducible apply Within.mk); exact rfl)
    | with_reducible apply Moves.thenOp (State.oinc_writes ..)
    | with_reducible apply Moves.ite
    | (with_reducible apply upd_parts <;> first | exact .inl rfl | exact .inr rfl)
    | simp only [Moves.mk_eq]
    | with_reducible refine MovesMk.upd rfl (.inl rfl) (.inl rfl) ?_ ?_
    | (with_reducible apply Moves.foldl; intro _ _)
    | dsimp only
    | split

theorem State.dropTasks_writes (s : State) (k : RouteKey) :
    Moves [.objs, .sched, .scn] s (State.dropTasks s k) := by
  unfold State.dropTasks
  repeat' first
    | with_reducible apply Moves.refl
    | assumption
    | ((with_reducible apply Within.mk); exact rfl)
    | with_reducible apply Moves.thenOp (State.countStalls_writes ..)
    | with_reducible apply Moves.ite
    | (with_reducible apply upd_parts <;> first | exact .inl rfl | exact .inr rfl)
    | simp only [Moves.mk_eq]
    | with_reducible refine MovesMk.upd rfl (.inl rfl) (.inl rfl) ?_ ?_
    | (with_reducible apply Moves.foldl; intro _ _)
    | dsimp only
    | split

theorem State.countWrong_writes (s : State) (ridge : Nat) (t : StrandSt) :
    Moves [.objs] s (State.countWrong s ridge t) := by
  unfold State.countWrong
  repeat' first
    | with_reducible apply Moves.refl
    | assumption
    | ((with_reducible apply Within.mk); exact rfl)
    | with_reducible apply Moves.thenOp (State.oinc_writes ..)
    | with_reducible apply Moves.ite
    | (with_reducible apply upd_parts <;> first | exact .inl rfl | exact .inr rfl)
    | simp only [Moves.mk_eq]
    | with_reducible refine MovesMk.upd rfl (.inl rfl) (.inl rfl) ?_ ?_
    | (with_reducible apply Moves.foldl; intro _ _)
    | dsimp only
    | split

theorem State.settleWrong_writes (s : State) (q : Nat) :
    Moves [.objs, .strands] s (State.settleWrong s q) := by
  unfold State.settleWrong
  repeat' first
    | with_reducible apply Moves.refl
    | assumption
    | ((with_reducible apply Within.mk); exact rfl)
    | with_reducible apply Moves.thenOp (State.countWrong_writes ..)
    | with_reducible apply Moves.ite
    | (with_reducible apply upd_parts <;> first | exact .inl rfl | exact .inr rfl)
    | simp only [Moves.mk_eq]
    | with_reducible refine MovesMk.upd rfl (.inl rfl) (.inl rfl) ?_ ?_
    | (with_reducible apply Moves.foldl; intro _ _)
    | dsimp only
    | split

theorem State.dropStrands_writes (s : State) (k : RouteKey) :
    Moves [.objs, .strands] s (State.dropStrands s k) := by
  unfold State.dropStrands
  repeat' first
    | with_reducible apply Moves.refl
    | assumption
    | ((with_reducible apply Within.mk); exact rfl)
    | with_reducible apply Moves.thenOp (State.countWrong_writes ..)
    | with_reducible apply Moves.ite
    | (with_reducible apply upd_parts <;> first | exact .inl rfl | exact .inr rfl)
    | simp only [Moves.mk_eq]
    | with_reducible refine MovesMk.upd rfl (.inl rfl) (.inl rfl) ?_ ?_
    | (with_reducible apply Moves.foldl; intro _ _)
    | dsimp only
    | split

theorem State.dropEntries_writes (s : State) (k : RouteKey) (spanPitch : Nat) :
    Moves [.summit] s (State.dropEntries s k spanPitch) := by
  unfold State.dropEntries
  repeat' first
    | with_reducible apply Moves.refl
    | assumption
    | ((with_reducible apply Within.mk); exact rfl)
    | with_reducible apply Moves.ite
    | (with_reducible apply upd_parts <;> first | exact .inl rfl | exact .inr rfl)
    | simp only [Moves.mk_eq]
    | with_reducible refine MovesMk.upd rfl (.inl rfl) (.inl rfl) ?_ ?_
    | (with_reducible apply Moves.foldl; intro _ _)
    | dsimp only
    | split

theorem State.restoreFar_writes (s : State) (l : Nat) (old : List Byte) :
    Moves [.cache, .coh, .link, .out] s (State.restoreFar s l old) := by
  unfold State.restoreFar
  repeat' first
    | with_reducible apply Moves.refl
    | assumption
    | ((with_reducible apply Within.mk); exact rfl)
    | with_reducible apply Moves.thenOp (State.request_writes ..)
    | with_reducible apply Moves.ite
    | (with_reducible apply upd_parts <;> first | exact .inl rfl | exact .inr rfl)
    | simp only [Moves.mk_eq]
    | with_reducible refine MovesMk.upd rfl (.inl rfl) (.inl rfl) ?_ ?_
    | (with_reducible apply Moves.foldl; intro _ _)
    | dsimp only
    | split
    | with_reducible refine Moves.thenOp (Moves.of_snd (State.request_writes ..) (by assumption)) (Within.mk rfl) ?_

theorem State.dropWrites_writes (s : State) (k : RouteKey) :
    Moves [.coh] s (State.dropWrites s k) := by
  unfold State.dropWrites
  repeat' first
    | with_reducible apply Moves.refl
    | assumption
    | ((with_reducible apply Within.mk); exact rfl)
    | with_reducible apply Moves.ite
    | (with_reducible apply upd_parts <;> first | exact .inl rfl | exact .inr rfl)
    | simp only [Moves.mk_eq]
    | with_reducible refine MovesMk.upd rfl (.inl rfl) (.inl rfl) ?_ ?_
    | (with_reducible apply Moves.foldl; intro _ _)
    | dsimp only
    | split

/-! ## Join -/

theorem State.sendRope_writes (s : State) (k : RouteKey) (d : RouteDesc) (stage : Nat) (src : Nat) (dest : Nat × Nat) (r : Rope) :
    TRes.All (fun t => Moves [.objs, .routes, .summit, .content, .depot, .link, .hostMem] s t) (State.sendRope s k d stage src dest r) := by
  unfold State.sendRope
  repeat' first
    | with_reducible apply Moves.refl
    | with_reducible refine TRes.All.imp (fun _ h => Moves.thenOp h (Within.mk rfl) ?_) (State.emitTo_writes ..)
    | with_reducible apply TRes.All.okIn
    | with_reducible apply TRes.All.ite
    | (with_reducible apply upd_parts <;> first | exact .inl rfl | exact .inr rfl)
    | simp only [Moves.mk_eq]
    | with_reducible refine MovesMk.upd rfl (.inl rfl) (.inl rfl) ?_ ?_

theorem State.sendRopes_writes (s : State) (k : RouteKey) (d : RouteDesc) (stage : Nat) (src : Nat) (hdr : Rope) (ncols : Nat) (rows : List ((Nat × Nat) × Row)) (x8 : List (Nat × Nat)) :
    TRes.All (fun t => Moves [.objs, .routes, .summit, .content, .depot, .link, .hostMem] s t) (State.sendRopes s k d stage src hdr ncols rows x8) := by
  induction x8 generalizing s k d stage src hdr ncols rows with
  | nil =>
    unfold State.sendRopes
    repeat' first
      | with_reducible apply Moves.refl
      | with_reducible apply TRes.All.okIn
  | cons a l ih =>
    unfold State.sendRopes
    repeat' first
      | with_reducible apply Moves.refl
      | assumption
      | with_reducible refine TRes.All.imp (fun _ h => Moves.thenOp h (Within.mk rfl) ?_) (State.sendRope_writes ..)
      | with_reducible refine TRes.All.imp (fun _ h => Moves.thenOp h (Within.mk rfl) ?_) (ih ..)
      | with_reducible refine TRes.All.andThen ?_ (fun _ _ _ => ?_)
      | split

theorem State.exchangeTask_writes (s : State) (r : Route) (stage : Nat) (ridge : Nat) (rp : Rope) :
    TRes.All (fun t => Moves [.objs, .routes, .summit, .content, .depot, .link, .hostMem] s t) (State.exchangeTask s r stage ridge rp) := by
  unfold State.exchangeTask
  repeat' first
    | with_reducible apply Moves.refl
    | with_reducible refine TRes.All.imp (fun _ h => Moves.thenOp h (Within.mk rfl) ?_) (State.sendRopes_writes ..)

theorem State.setBuild_writes (s : State) (k : RouteKey) (stage : Nat) (ridge : Nat) (b : BuildSt) :
    Moves [.routes] s (State.setBuild s k stage ridge b) := by
  unfold State.setBuild
  repeat' first
    | with_reducible apply Moves.refl
    | assumption
    | ((with_reducible apply Within.mk); exact rfl)
    | with_reducible apply Moves.thenOp (State.work_writes ..)
    | with_reducible apply Moves.ite
    | (with_reducible apply upd_parts <;> first | exact .inl rfl | exact .inr rfl)
    | simp only [Moves.mk_eq]
    | with_reducible refine MovesMk.upd rfl (.inl rfl) (.inl rfl) ?_ ?_
    | (with_reducible apply Moves.foldl; intro _ _)
    | dsimp only
    | split

theorem State.appendBuild_writes (s : State) (r : Route) (stage : Nat) (received : Nat) (nulls : Bool) (recs : List BuildRec) (ridge : Nat) :
    TRes.All (fun t => Moves [.objs, .routes, .content, .depot, .link, .hostMem] s t) (State.appendBuild s r stage received nulls recs ridge) := by
  unfold State.appendBuild
  repeat' first
    | with_reducible apply Moves.refl
    | ((with_reducible apply Within.mk); exact rfl)
    | with_reducible apply Moves.thenOp (State.setBuild_writes ..)
    | with_reducible refine TRes.All.imp (fun _ h => Moves.thenOp h (Within.mk rfl) ?_) (State.sizeTable_writes ..)
    | with_reducible apply TRes.All.badIn
    | with_reducible apply TRes.All.ite

theorem State.buildTask_writes (s : State) (r : Route) (stage : Nat) (ridge : Nat) (rp : Rope) :
    TRes.All (fun t => Moves [.objs, .routes, .content, .depot, .link, .hostMem] s t) (State.buildTask s r stage ridge rp) := by
  unfold State.buildTask
  repeat' first
    | with_reducible apply Moves.refl
    | assumption
    | ((with_reducible apply Within.mk); exact rfl)
    | (with_reducible apply TRes.each_all; intro _ _)
    | with_reducible refine TRes.All.imp (fun _ h => Moves.thenOp h (Within.mk rfl) ?_) (State.appendBuild_writes ..)
    | with_reducible apply TRes.All.okIn
    | with_reducible apply TRes.All.fullIn
    | with_reducible apply TRes.All.badIn
    | with_reducible apply TRes.All.needIn
    | with_reducible apply TRes.All.askIn
    | with_reducible apply TRes.All.againIn
    | with_reducible apply TRes.All.ite
    | with_reducible refine TRes.All.andThen ?_ (fun _ _ _ => ?_)
    | with_reducible apply Moves.ite
    | (with_reducible apply upd_parts <;> first | exact .inl rfl | exact .inr rfl)
    | simp only [Moves.mk_eq]
    | with_reducible refine MovesMk.upd rfl (.inl rfl) (.inl rfl) ?_ ?_
    | (with_reducible apply Moves.foldl; intro _ _)
    | dsimp only
    | split

theorem State.camWrite_writes (s : State) (ridge : Nat) (mask : Nat) (u : Nat) (keys : List (List Byte)) :
    Moves [.cairn] s (State.camWrite s ridge mask u keys) := by
  unfold State.camWrite
  repeat' first
    | with_reducible apply Moves.refl
    | ((with_reducible apply Within.mk); exact rfl)
    | with_reducible apply Moves.thenOp (State.writeRow_writes ..)
    | with_reducible apply Moves.thenOp (State.writeShadow_writes ..)
    | (with_reducible apply Moves.foldl; intro _ _)

theorem State.takeCam_writes (s : State) (k : RouteKey) (stage : Nat) (ridge : Nat) (mask : Nat) (u : Nat) (keys : List (List Byte)) :
    TRes.All (fun t => Moves [.objs, .routes, .cairn, .content, .depot, .link, .hostMem] s t) (State.takeCam s k stage ridge mask u keys) := by
  unfold State.takeCam
  repeat' first
    | with_reducible apply Moves.refl
    | assumption
    | ((with_reducible apply Within.mk); exact rfl)
    | with_reducible apply Moves.thenOp (State.camWrite_writes ..)
    | with_reducible apply Moves.thenOp (State.clearBank_writes ..)
    | with_reducible refine TRes.All.imp (fun _ h => Moves.thenOp h (Within.mk rfl) ?_) (State.storeContent_writes ..)
    | with_reducible apply TRes.All.okIn
    | with_reducible apply TRes.All.fullIn
    | with_reducible apply TRes.All.badIn
    | with_reducible apply TRes.All.needIn
    | with_reducible apply TRes.All.askIn
    | with_reducible apply TRes.All.againIn
    | with_reducible apply TRes.All.ite
    | with_reducible refine TRes.All.andThen ?_ (fun _ _ _ => ?_)
    | with_reducible apply Moves.ite
    | (with_reducible apply upd_parts <;> first | exact .inl rfl | exact .inr rfl)
    | simp only [Moves.mk_eq]
    | with_reducible refine MovesMk.upd rfl (.inl rfl) (.inl rfl) ?_ ?_
    | (with_reducible apply Moves.foldl; intro _ _)
    | dsimp only
    | split

theorem State.sealTask_writes (s : State) (r : Route) (stage : Nat) (ridge : Nat) :
    TRes.All (fun t => Moves [.objs, .routes, .sched, .cairn, .content, .depot, .link, .hostMem] s t) (State.sealTask s r stage ridge) := by
  unfold State.sealTask
  repeat' first
    | with_reducible apply Moves.refl
    | assumption
    | ((with_reducible apply Within.mk); exact rfl)
    | with_reducible apply Moves.thenOp (State.oinc_writes ..)
    | with_reducible apply Moves.thenOp (State.setBuild_writes ..)
    | with_reducible refine TRes.All.imp (fun _ h => Moves.thenOp h (Within.mk rfl) ?_) (State.sizeTable_writes ..)
    | with_reducible refine TRes.All.imp (fun _ h => Moves.thenOp h (Within.mk rfl) ?_) (State.takeCam_writes ..)
    | with_reducible apply Moves.thenOp (State.wakeProbes_writes ..)
    | with_reducible apply TRes.All.okIn
    | with_reducible apply TRes.All.fullIn
    | with_reducible apply TRes.All.badIn
    | with_reducible apply TRes.All.needIn
    | with_reducible apply TRes.All.askIn
    | with_reducible apply TRes.All.againIn
    | with_reducible apply TRes.All.ite
    | with_reducible refine TRes.All.andThen ?_ (fun _ _ _ => ?_)
    | with_reducible apply Moves.ite
    | (with_reducible apply upd_parts <;> first | exact .inl rfl | exact .inr rfl)
    | simp only [Moves.mk_eq]
    | with_reducible refine MovesMk.upd rfl (.inl rfl) (.inl rfl) ?_ ?_
    | (with_reducible apply Moves.foldl; intro _ _)
    | dsimp only
    | split

theorem State.camProbe_writes (s : State) (k : RouteKey) (ridge : Nat) (mask : Nat) (u : Nat) (ts : List Nat) (recs : List BuildRec) (ks : List Slot) :
    Moves [.objs, .routes, .cairn] s ((State.camProbe s k ridge mask u ts recs ks).2) := by
  unfold State.camProbe
  repeat' first
    | with_reducible apply Moves.refl
    | assumption
    | ((with_reducible apply Within.mk); exact rfl)
    | with_reducible apply Moves.thenOp (State.noteSearch_writes ..)
    | with_reducible apply Moves.thenOp (State.walkBank_writes ..)
    | with_reducible apply Moves.ite_snd
    | (with_reducible apply Moves.foldl_snd; intro _ _)
    | with_reducible apply Moves.ite
    | (with_reducible apply upd_parts <;> first | exact .inl rfl | exact .inr rfl)
    | simp only [Moves.mk_eq]
    | with_reducible refine MovesMk.upd rfl (.inl rfl) (.inl rfl) ?_ ?_
    | (with_reducible apply Moves.foldl; intro _ _)
    | dsimp only
    | split

theorem State.probeRow_writes (s : State) (k : RouteKey) (ridge : Nat) (ts : List Nat) (b : BuildSt) (ks : List Slot) :
    Moves [.objs, .routes, .cairn] s ((State.probeRow s k ridge ts b ks).2) := by
  unfold State.probeRow
  repeat' first
    | with_reducible apply Moves.refl
    | ((with_reducible apply Within.mk); exact rfl)
    | with_reducible apply Moves.thenOp (State.camProbe_writes ..)
    | with_reducible apply Moves.ite_snd
    | split

theorem State.probeRows_writes (s : State) (k : RouteKey) (ridge : Nat) (ts : List Nat) (b : BuildSt) (det : Bool) (jt : Nat) (keyForm : Nat) (keyWord : Nat) (map : List Nat) (x10 : List Row) (x11 : List Row) :
    TRes.All (fun t => Moves [.objs, .routes, .cairn] s t) (State.probeRows s k ridge ts b det jt keyForm keyWord map x10 x11) := by
  induction x10 generalizing s k ridge ts b det jt keyForm keyWord map x11 with
  | nil =>
    unfold State.probeRows
    repeat' first
      | with_reducible apply Moves.refl
      | with_reducible apply TRes.All.okIn
  | cons a l ih =>
    unfold State.probeRows
    repeat' first
      | with_reducible apply Moves.refl
      | ((with_reducible apply Within.mk); exact rfl)
      | with_reducible apply Moves.thenOp (State.probeRow_writes ..)
      | with_reducible refine TRes.All.imp (fun _ h => Moves.thenOp h (Within.mk rfl) ?_) (ih ..)
      | with_reducible apply TRes.All.badIn
      | with_reducible apply TRes.All.ite

theorem State.probeTask_writes (s : State) (r : Route) (stage : Nat) (ridge : Nat) (rp : Rope) :
    TRes.All (fun t => Moves [.objs, .routes, .cairn, .summit, .content, .depot, .link, .hostMem] s t) (State.probeTask s r stage ridge rp) := by
  unfold State.probeTask
  repeat' first
    | with_reducible apply Moves.refl
    | assumption
    | ((with_reducible apply Within.mk); exact rfl)
    | with_reducible refine TRes.All.imp (fun _ h => Moves.thenOp h (Within.mk rfl) ?_) (State.emitRopes_writes ..)
    | with_reducible apply Moves.thenOp (State.oinc_writes ..)
    | with_reducible refine TRes.All.imp (fun _ h => Moves.thenOp h (Within.mk rfl) ?_) (State.probeRows_writes ..)
    | with_reducible refine TRes.All.andThen ?_ (fun _ _ _ => ?_)

/-! ## Agg -/

theorem State.aggTask_writes (s : State) (r : Route) (stage : Nat) (ridge : Nat) (rp : Rope) :
    TRes.All (fun t => Moves [.objs, .routes, .content, .depot, .link, .hostMem] s t) (State.aggTask s r stage ridge rp) := by
  unfold State.aggTask
  repeat' first
    | with_reducible apply Moves.refl
    | assumption
    | ((with_reducible apply Within.mk); exact rfl)
    | (with_reducible apply TRes.each_all; intro _ _)
    | with_reducible apply Moves.thenOp (State.oinc_writes ..)
    | with_reducible refine TRes.All.imp (fun _ h => Moves.thenOp h (Within.mk rfl) ?_) (State.sizeTable_writes ..)
    | with_reducible apply Moves.thenOp (State.work_writes ..)
    | with_reducible apply TRes.All.okIn
    | with_reducible apply TRes.All.fullIn
    | with_reducible apply TRes.All.badIn
    | with_reducible apply TRes.All.needIn
    | with_reducible apply TRes.All.askIn
    | with_reducible apply TRes.All.againIn
    | with_reducible apply TRes.All.ite
    | with_reducible refine TRes.All.andThen ?_ (fun _ _ _ => ?_)
    | with_reducible apply Moves.ite
    | (with_reducible apply upd_parts <;> first | exact .inl rfl | exact .inr rfl)
    | simp only [Moves.mk_eq]
    | with_reducible refine MovesMk.upd rfl (.inl rfl) (.inl rfl) ?_ ?_
    | (with_reducible apply Moves.foldl; intro _ _)
    | dsimp only
    | split

theorem State.endRelease_writes (s : State) (k : RouteKey) (stage : Nat) (ridge : Nat) :
    Moves [.objs, .routes, .content, .depot, .link] s (State.endRelease s k stage ridge) := by
  unfold State.endRelease
  repeat' first
    | with_reducible apply Moves.refl
    | assumption
    | ((with_reducible apply Within.mk); exact rfl)
    | with_reducible apply Moves.thenOp (State.releaseObj_writes ..)
    | with_reducible apply Moves.thenOp (State.work_writes ..)
    | with_reducible apply Moves.ite
    | (with_reducible apply upd_parts <;> first | exact .inl rfl | exact .inr rfl)
    | simp only [Moves.mk_eq]
    | with_reducible refine MovesMk.upd rfl (.inl rfl) (.inl rfl) ?_ ?_
    | (with_reducible apply Moves.foldl; intro _ _)
    | dsimp only
    | split

theorem State.noteReleased_writes (s : State) (k : RouteKey) (stage : Nat) (ridge : Nat) (n : Nat) :
    Moves [.routes] s (State.noteReleased s k stage ridge n) := by
  unfold State.noteReleased
  repeat' first
    | with_reducible apply Moves.refl
    | assumption
    | ((with_reducible apply Within.mk); exact rfl)
    | with_reducible apply Moves.thenOp (State.mapSpan_writes ..)
    | with_reducible apply Moves.ite
    | (with_reducible apply upd_parts <;> first | exact .inl rfl | exact .inr rfl)
    | simp only [Moves.mk_eq]
    | with_reducible refine MovesMk.upd rfl (.inl rfl) (.inl rfl) ?_ ?_
    | (with_reducible apply Moves.foldl; intro _ _)
    | dsimp only
    | split

theorem State.aggRelease_writes (s : State) (r : Route) (stage : Nat) (ridge : Nat) :
    TRes.All (fun t => Moves [.objs, .routes, .summit, .content, .depot, .link, .hostMem] s t) (State.aggRelease s r stage ridge) := by
  unfold State.aggRelease
  repeat' first
    | with_reducible apply Moves.refl
    | assumption
    | ((with_reducible apply Within.mk); exact rfl)
    | with_reducible refine TRes.All.imp (fun _ h => Moves.thenOp h (Within.mk rfl) ?_) (State.emitRopes_writes ..)
    | with_reducible apply Moves.thenOp (State.endRelease_writes ..)
    | with_reducible apply Moves.thenOp (State.noteReleased_writes ..)
    | with_reducible apply Moves.thenOp (State.oinc_writes ..)
    | with_reducible apply Moves.thenOp (State.work_writes ..)
    | with_reducible apply TRes.All.okIn
    | with_reducible apply TRes.All.fullIn
    | with_reducible apply TRes.All.badIn
    | with_reducible apply TRes.All.needIn
    | with_reducible apply TRes.All.askIn
    | with_reducible apply TRes.All.againIn
    | with_reducible apply TRes.All.ite
    | with_reducible refine TRes.All.andThen ?_ (fun _ _ _ => ?_)
    | with_reducible apply Moves.ite
    | (with_reducible apply upd_parts <;> first | exact .inl rfl | exact .inr rfl)
    | simp only [Moves.mk_eq]
    | with_reducible refine MovesMk.upd rfl (.inl rfl) (.inl rfl) ?_ ?_
    | (with_reducible apply Moves.foldl; intro _ _)
    | dsimp only
    | split

/-! ## Sort -/

theorem State.countCompares_writes (s : State) (p : SortPlan) (rows : List Row) :
    Moves [.freeCount, .objs] s (State.countCompares s p rows) := by
  unfold State.countCompares
  repeat' first
    | with_reducible apply Moves.refl
    | ((with_reducible apply Within.mk); exact rfl)
    | with_reducible apply Moves.thenOp (State.free_writes ..)
    | with_reducible apply Moves.thenOp (State.oinc_writes ..)
    | with_reducible apply Moves.ite

theorem State.setSort_writes (s : State) (k : RouteKey) (stage : Nat) (ridge : Nat) (x : SortSt) :
    Moves [.routes] s (State.setSort s k stage ridge x) := by
  unfold State.setSort
  repeat' first
    | with_reducible apply Moves.refl
    | assumption
    | ((with_reducible apply Within.mk); exact rfl)
    | with_reducible apply Moves.thenOp (State.work_writes ..)
    | with_reducible apply Moves.ite
    | (with_reducible apply upd_parts <;> first | exact .inl rfl | exact .inr rfl)
    | simp only [Moves.mk_eq]
    | with_reducible refine MovesMk.upd rfl (.inl rfl) (.inl rfl) ?_ ?_
    | (with_reducible apply Moves.foldl; intro _ _)
    | dsimp only
    | split

theorem State.sortTask_writes (s : State) (r : Route) (stage : Nat) (ridge : Nat) (rp : Rope) :
    TRes.All (fun t => Moves [.freeCount, .objs, .routes, .content, .depot, .link, .hostMem] s t) (State.sortTask s r stage ridge rp) := by
  unfold State.sortTask
  repeat' first
    | with_reducible apply Moves.refl
    | assumption
    | ((with_reducible apply Within.mk); exact rfl)
    | with_reducible apply Moves.thenOp (State.countCompares_writes ..)
    | with_reducible apply Moves.thenOp (State.oinc_writes ..)
    | with_reducible apply Moves.thenOp (State.setSort_writes ..)
    | with_reducible refine TRes.All.imp (fun _ h => Moves.thenOp h (Within.mk rfl) ?_) (State.sizeTable_writes ..)
    | with_reducible apply Moves.ite
    | with_reducible refine TRes.All.andThen ?_ (fun _ _ _ => ?_)

theorem State.mergeTask_writes (s : State) (r : Route) (stage : Nat) (ridge : Nat) (rp : Rope) :
    TRes.All (fun t => Moves [.objs, .routes, .content, .depot, .link, .hostMem] s t) (State.mergeTask s r stage ridge rp) := by
  unfold State.mergeTask
  repeat' first
    | with_reducible apply Moves.refl
    | assumption
    | ((with_reducible apply Within.mk); exact rfl)
    | with_reducible apply Moves.thenOp (State.setSort_writes ..)
    | with_reducible refine TRes.All.imp (fun _ h => Moves.thenOp h (Within.mk rfl) ?_) (State.sizeTable_writes ..)
    | with_reducible refine TRes.All.andThen ?_ (fun _ _ _ => ?_)

theorem State.sortSteps_writes (s : State) (r : Route) (stage : Nat) (ridge : Nat) (p : SortPlan) (limit : Nat) (x6 : Nat) (x7 : SortSt) :
    TRes.All (fun t => Moves [.objs, .routes, .summit, .content, .depot, .link, .hostMem] s t) (State.sortSteps s r stage ridge p limit x6 x7) := by
  induction x6 generalizing s r stage ridge p limit x7 with
  | zero =>
    unfold State.sortSteps
    repeat' first
      | with_reducible apply Moves.refl
      | with_reducible apply TRes.All.okIn
  | succ n ih =>
    unfold State.sortSteps
    repeat' first
      | with_reducible apply Moves.refl
      | assumption
      | ((with_reducible apply Within.mk); exact rfl)
      | with_reducible refine TRes.All.imp (fun _ h => Moves.thenOp h (Within.mk rfl) ?_) (State.emitRopes_writes ..)
      | with_reducible apply Moves.thenOp (State.oinc_writes ..)
      | with_reducible refine TRes.All.imp (fun _ h => Moves.thenOp h (Within.mk rfl) ?_) (ih ..)
      | with_reducible apply TRes.All.okIn
      | with_reducible apply TRes.All.ite
      | with_reducible apply Moves.ite
      | with_reducible refine TRes.All.andThen ?_ (fun _ _ _ => ?_)
      | simp only [Moves.mk_eq]
      | split

theorem State.sortRelease_writes (s : State) (r : Route) (stage : Nat) (ridge : Nat) :
    TRes.All (fun t => Moves [.freeCount, .objs, .routes, .summit, .content, .depot, .link, .hostMem] s t) (State.sortRelease s r stage ridge) := by
  unfold State.sortRelease
  repeat' first
    | with_reducible apply Moves.refl
    | assumption
    | ((with_reducible apply Within.mk); exact rfl)
    | with_reducible apply Moves.thenOp (State.countCompares_writes ..)
    | with_reducible apply Moves.thenOp (State.endRelease_writes ..)
    | with_reducible apply Moves.thenOp (State.noteReleased_writes ..)
    | with_reducible apply Moves.thenOp (State.setSort_writes ..)
    | with_reducible refine TRes.All.imp (fun _ h => Moves.thenOp h (Within.mk rfl) ?_) (State.sizeTable_writes ..)
    | with_reducible refine TRes.All.imp (fun _ h => Moves.thenOp h (Within.mk rfl) ?_) (State.sortSteps_writes ..)
    | with_reducible apply TRes.All.okIn
    | with_reducible apply TRes.All.ite
    | with_reducible refine TRes.All.andThen ?_ (fun _ _ _ => ?_)
    | split

/-! ## Lines -/

theorem State.copyFresh_writes (s : State) (l m : Nat) :
    Moves [.dram] s (State.copyFresh s l m) := by
  unfold State.copyFresh
  repeat' first
    | with_reducible apply Moves.refl
    | assumption
    | ((with_reducible apply Within.mk); exact rfl)
    | with_reducible apply Moves.ite
    | (with_reducible apply upd_parts <;> first | exact .inl rfl | exact .inr rfl)
    | simp only [Moves.mk_eq]
    | with_reducible refine MovesMk.upd rfl (.inl rfl) (.inl rfl) ?_ ?_
    | (with_reducible apply Moves.foldl; intro _ _)
    | dsimp only
    | split

theorem State.lineFresh_writes (s : State) (l : Nat) :
    Moves [.dram] s (State.lineFresh s l) := by
  unfold State.lineFresh
  repeat' first
    | with_reducible apply Moves.refl
    | assumption
    | ((with_reducible apply Within.mk); exact rfl)
    | with_reducible apply Moves.thenOp (State.copyFresh_writes ..)
    | with_reducible apply Moves.ite
    | (with_reducible apply upd_parts <;> first | exact .inl rfl | exact .inr rfl)
    | simp only [Moves.mk_eq]
    | with_reducible refine MovesMk.upd rfl (.inl rfl) (.inl rfl) ?_ ?_
    | (with_reducible apply Moves.foldl; intro _ _)
    | dsimp only
    | split

theorem State.lineWrite_writes (s : State) (l : Nat) (bs : List Byte) :
    Moves [.mem, .content, .depot, .dram] s (State.lineWrite s l bs) := by
  unfold State.lineWrite
  repeat' first
    | with_reducible apply Moves.refl
    | assumption
    | ((with_reducible apply Within.mk); exact rfl)
    | exact .inl rfl
    | with_reducible refine MovesMk.upd rfl ?_ ?_ ?_ ?_
    | exact .inr (fun h => Memory.wf_writeN _ _ h)
    | with_reducible apply Moves.thenOp (State.lineFresh_writes ..)
    | with_reducible apply Moves.thenOp (State.putObj_writes ..)
    | with_reducible apply Moves.ite
    | (with_reducible apply upd_parts <;> first | exact .inl rfl | exact .inr rfl)
    | simp only [Moves.mk_eq]
    | with_reducible refine MovesMk.upd rfl (.inl rfl) (.inl rfl) ?_ ?_
    | (with_reducible apply Moves.foldl; intro _ _)
    | dsimp only
    | split

theorem State.poison_writes (s : State) (l : Nat) :
    Moves [.objs, .cache, .coh, .link, .dram, .out] s (State.poison s l) := by
  unfold State.poison
  repeat' first
    | with_reducible apply Moves.refl
    | assumption
    | ((with_reducible apply Within.mk); exact rfl)
    | with_reducible apply Moves.thenOp (State.oinc_writes ..)
    | with_reducible apply Moves.thenOp (State.uncache_writes ..)
    | with_reducible apply Moves.ite
    | (with_reducible apply upd_parts <;> first | exact .inl rfl | exact .inr rfl)
    | simp only [Moves.mk_eq]
    | with_reducible refine MovesMk.upd rfl (.inl rfl) (.inl rfl) ?_ ?_
    | (with_reducible apply Moves.foldl; intro _ _)
    | dsimp only
    | split

theorem State.unpoison_writes (s : State) (l : Nat) :
    Moves [.dram] s (State.unpoison s l) := by
  unfold State.unpoison
  repeat' first
    | with_reducible apply Moves.refl
    | assumption
    | ((with_reducible apply Within.mk); exact rfl)
    | with_reducible apply Moves.ite
    | (with_reducible apply upd_parts <;> first | exact .inl rfl | exact .inr rfl)
    | simp only [Moves.mk_eq]
    | with_reducible refine MovesMk.upd rfl (.inl rfl) (.inl rfl) ?_ ?_
    | (with_reducible apply Moves.foldl; intro _ _)
    | dsimp only
    | split

theorem State.setPd_writes (s : State) (l : Nat) :
    Moves [.depot, .coh] s (State.setPd s l) := by
  unfold State.setPd
  repeat' first
    | with_reducible apply Moves.refl
    | assumption
    | ((with_reducible apply Within.mk); exact rfl)
    | with_reducible apply Moves.thenOp (State.setDir_writes ..)
    | with_reducible apply Moves.ite
    | (with_reducible apply upd_parts <;> first | exact .inl rfl | exact .inr rfl)
    | simp only [Moves.mk_eq]
    | with_reducible refine MovesMk.upd rfl (.inl rfl) (.inl rfl) ?_ ?_
    | (with_reducible apply Moves.foldl; intro _ _)
    | dsimp only
    | split

theorem State.putRecord_writes (s : State) (k : RouteKey) (page i : Nat) (old : List Byte) :
    Moves [.depot, .dram] s (State.putRecord s k page i old) := by
  unfold State.putRecord
  repeat' first
    | with_reducible apply Moves.refl
    | assumption
    | ((with_reducible apply Within.mk); exact rfl)
    | with_reducible apply Moves.thenOp (State.lineFresh_writes ..)
    | with_reducible apply Moves.thenOp (State.unpoison_writes ..)
    | with_reducible apply Moves.ite
    | (with_reducible apply upd_parts <;> first | exact .inl rfl | exact .inr rfl)
    | simp only [Moves.mk_eq]
    | with_reducible refine MovesMk.upd rfl (.inl rfl) (.inl rfl) ?_ ?_
    | (with_reducible apply Moves.foldl; intro _ _)
    | dsimp only
    | split

theorem State.journalOld_writes (s : State) (l : Nat) (old : List Byte) :
    OptAll (fun a => Moves [.depot, .coh, .dram] s a) (State.journalOld s l old) := by
  unfold State.journalOld
  repeat' first
    | with_reducible apply Moves.refl
    | assumption
    | ((with_reducible apply Within.mk); exact rfl)
    | with_reducible apply Moves.thenOp (State.setPd_writes ..)
    | with_reducible apply Moves.thenOp (State.putRecord_writes ..)
    | with_reducible apply OptAll.some'
    | with_reducible apply OptAll.none'
    | with_reducible apply OptAll.ite
    | with_reducible apply Moves.ite
    | (with_reducible apply upd_parts <;> first | exact .inl rfl | exact .inr rfl)
    | simp only [Moves.mk_eq]
    | with_reducible refine MovesMk.upd rfl (.inl rfl) (.inl rfl) ?_ ?_
    | (with_reducible apply Moves.foldl; intro _ _)
    | dsimp only
    | split

theorem State.journalStep_writes (s : State) (l : Nat) :
    OptAll (fun (a : State) => Moves [.depot, .coh, .dram] s a) (State.journalStep s l) := by
  unfold State.journalStep
  repeat' first
    | with_reducible apply Moves.refl
    | assumption
    | ((with_reducible apply Within.mk); exact rfl)
    | with_reducible apply Moves.thenOp (State.setPd_writes ..)
    | with_reducible refine OptAll.imp (fun _ h => Moves.thenOp h (Within.mk rfl) ?_) (State.journalOld_writes ..)
    | with_reducible apply OptAll.some'
    | with_reducible apply OptAll.none'
    | with_reducible apply OptAll.ite
    | with_reducible apply Moves.ite
    | (with_reducible apply upd_parts <;> first | exact .inl rfl | exact .inr rfl)
    | simp only [Moves.mk_eq]
    | with_reducible refine MovesMk.upd rfl (.inl rfl) (.inl rfl) ?_ ?_
    | (with_reducible apply Moves.foldl; intro _ _)
    | dsimp only
    | split
    | with_reducible refine Moves.thenOp (OptAll.st (State.journalOld_writes ..) (by assumption)) (Within.mk rfl) ?_

theorem State.journalLines_writes (s : State) (x1 : List Nat) :
    OptAll (fun (a : State) => Moves [.depot, .coh, .dram] s a) (State.journalLines s x1) := by
  induction x1 generalizing s with
  | nil =>
    unfold State.journalLines
    repeat' first
      | with_reducible apply Moves.refl
      | with_reducible apply OptAll.some'
  | cons a l ih =>
    unfold State.journalLines
    repeat' first
      | with_reducible apply Moves.refl
      | with_reducible refine OptAll.imp (fun _ h => Moves.thenOp h (Within.mk rfl) ?_) (ih ..)
      | with_reducible apply OptAll.none'
      | split
      | with_reducible refine Moves.thenOp (OptAll.st (State.journalStep_writes ..) (by assumption)) (Within.mk rfl) ?_

theorem State.countStall_writes (s : State) :
    Moves [.objs] s (State.countStall s) := by
  unfold State.countStall
  repeat' first
    | with_reducible apply Moves.refl
    | ((with_reducible apply Within.mk); exact rfl)
    | with_reducible apply Moves.thenOp (State.oinc_writes ..)

/-! ## MemRead -/

theorem State.lineRecord_writes (s : State) (l m severity cause dev syms flags : Nat) :
    Moves [.objs, .err, .mgmt, .out] s (State.lineRecord s l m severity cause dev syms flags) := by
  unfold State.lineRecord
  repeat' first
    | with_reducible apply Moves.refl
    | assumption
    | ((with_reducible apply Within.mk); exact rfl)
    | with_reducible apply Moves.thenOp (State.raise_writes ..)
    | with_reducible apply Moves.ite
    | (with_reducible apply upd_parts <;> first | exact .inl rfl | exact .inr rfl)
    | simp only [Moves.mk_eq]
    | with_reducible refine MovesMk.upd rfl (.inl rfl) (.inl rfl) ?_ ?_
    | (with_reducible apply Moves.foldl; intro _ _)
    | dsimp only
    | split

theorem State.remapLine_writes (s : State) (l m dev syms scrub : Nat) :
    Moves [.objs, .flash, .dram, .err, .mgmt, .out] s (State.remapLine s l m dev syms scrub) := by
  unfold State.remapLine
  repeat' first
    | with_reducible apply Moves.refl
    | assumption
    | ((with_reducible apply Within.mk); exact rfl)
    | with_reducible apply Moves.thenOp (State.lineRecord_writes ..)
    | with_reducible apply Moves.ite
    | (with_reducible apply upd_parts <;> first | exact .inl rfl | exact .inr rfl)
    | simp only [Moves.mk_eq]
    | with_reducible refine MovesMk.upd rfl (.inl rfl) (.inl rfl) ?_ ?_
    | (with_reducible apply Moves.foldl; intro _ _)
    | dsimp only
    | split

theorem State.markRow_writes (s : State) (l m syms scrub : Nat) (e : Tracked) :
    Moves [.objs, .flash, .err, .mgmt, .out] s (State.markRow s l m syms scrub e) := by
  unfold State.markRow
  repeat' first
    | with_reducible apply Moves.refl
    | assumption
    | ((with_reducible apply Within.mk); exact rfl)
    | with_reducible apply Moves.thenOp (State.lineRecord_writes ..)
    | with_reducible apply Moves.ite
    | (with_reducible apply upd_parts <;> first | exact .inl rfl | exact .inr rfl)
    | simp only [Moves.mk_eq]
    | with_reducible refine MovesMk.upd rfl (.inl rfl) (.inl rfl) ?_ ?_
    | (with_reducible apply Moves.foldl; intro _ _)
    | dsimp only
    | split

theorem State.retireRow_writes (s : State) (l : Nat) (syms : Nat) (scrub : Nat) :
    Moves [.objs, .depot, .err, .mgmt, .out] s (State.retireRow s l syms scrub) := by
  unfold State.retireRow
  repeat' first
    | with_reducible apply Moves.refl
    | assumption
    | ((with_reducible apply Within.mk); exact rfl)
    | with_reducible apply Moves.thenOp (State.lineRecord_writes ..)
    | with_reducible apply Moves.thenOp (State.oinc_writes ..)
    | with_reducible apply Moves.ite
    | (with_reducible apply upd_parts <;> first | exact .inl rfl | exact .inr rfl)
    | simp only [Moves.mk_eq]
    | with_reducible refine MovesMk.upd rfl (.inl rfl) (.inl rfl) ?_ ?_
    | (with_reducible apply Moves.foldl; intro _ _)
    | dsimp only
    | split

theorem State.countFault_writes (s : State) (l m dev syms scrub : Nat) :
    Moves [.objs, .flash, .depot, .dram, .err, .mgmt, .out] s (State.countFault s l m dev syms scrub) := by
  unfold State.countFault
  repeat' first
    | with_reducible apply Moves.refl
    | assumption
    | ((with_reducible apply Within.mk); exact rfl)
    | with_reducible apply Moves.thenOp (State.markRow_writes ..)
    | with_reducible apply Moves.thenOp (State.remapLine_writes ..)
    | with_reducible apply Moves.thenOp (State.retireRow_writes ..)
    | with_reducible apply Moves.ite
    | (with_reducible apply upd_parts <;> first | exact .inl rfl | exact .inr rfl)
    | simp only [Moves.mk_eq]
    | with_reducible refine MovesMk.upd rfl (.inl rfl) (.inl rfl) ?_ ?_
    | (with_reducible apply Moves.foldl; intro _ _)
    | dsimp only
    | split

theorem State.fenceChannel_writes (s : State) (ch : Nat) :
    Moves [.objs, .dram, .err, .mgmt, .out] s (State.fenceChannel s ch) := by
  unfold State.fenceChannel
  repeat' first
    | with_reducible apply Moves.refl
    | assumption
    | ((with_reducible apply Within.mk); exact rfl)
    | with_reducible apply Moves.thenOp (State.raise_writes ..)
    | with_reducible apply Moves.ite
    | (with_reducible apply upd_parts <;> first | exact .inl rfl | exact .inr rfl)
    | simp only [Moves.mk_eq]
    | with_reducible refine MovesMk.upd rfl (.inl rfl) (.inl rfl) ?_ ?_
    | (with_reducible apply Moves.foldl; intro _ _)
    | dsimp only
    | split

theorem State.noteLost_writes (s : State) (l m : Nat) :
    Moves [.objs, .dram, .err, .mgmt, .out] s (State.noteLost s l m) := by
  unfold State.noteLost
  repeat' first
    | with_reducible apply Moves.refl
    | assumption
    | ((with_reducible apply Within.mk); exact rfl)
    | with_reducible apply Moves.thenOp (State.fenceChannel_writes ..)
    | with_reducible apply Moves.ite
    | (with_reducible apply upd_parts <;> first | exact .inl rfl | exact .inr rfl)
    | simp only [Moves.mk_eq]
    | with_reducible refine MovesMk.upd rfl (.inl rfl) (.inl rfl) ?_ ?_
    | (with_reducible apply Moves.foldl; intro _ _)
    | dsimp only
    | split

theorem State.lineLost_writes (s : State) (l m scrub : Nat) :
    Moves [.objs, .cache, .coh, .link, .dram, .err, .mgmt, .out] s (State.lineLost s l m scrub) := by
  unfold State.lineLost
  repeat' first
    | with_reducible apply Moves.refl
    | assumption
    | ((with_reducible apply Within.mk); exact rfl)
    | with_reducible apply Moves.thenOp (State.lineRecord_writes ..)
    | with_reducible apply Moves.thenOp (State.oinc_writes ..)
    | with_reducible apply Moves.thenOp (State.poison_writes ..)
    | with_reducible apply Moves.ite
    | (with_reducible apply upd_parts <;> first | exact .inl rfl | exact .inr rfl)
    | simp only [Moves.mk_eq]
    | with_reducible refine MovesMk.upd rfl (.inl rfl) (.inl rfl) ?_ ?_
    | (with_reducible apply Moves.foldl; intro _ _)
    | dsimp only
    | split

theorem State.lineCorrected_writes (s : State) (l m : Nat) (fixed : List Nat) (scrub : Bool) :
    Moves [.objs, .flash, .depot, .dram, .err, .mgmt, .out] s (State.lineCorrected s l m fixed scrub) := by
  unfold State.lineCorrected
  repeat' first
    | with_reducible apply Moves.refl
    | assumption
    | ((with_reducible apply Within.mk); exact rfl)
    | with_reducible apply Moves.thenOp (State.copyFresh_writes ..)
    | with_reducible apply Moves.thenOp (State.countFault_writes ..)
    | with_reducible apply Moves.thenOp (State.lineRecord_writes ..)
    | with_reducible apply Moves.thenOp (State.oinc_writes ..)
    | with_reducible apply Moves.ite
    | (with_reducible apply upd_parts <;> first | exact .inl rfl | exact .inr rfl)
    | simp only [Moves.mk_eq]
    | with_reducible refine MovesMk.upd rfl (.inl rfl) (.inl rfl) ?_ ?_
    | (with_reducible apply Moves.foldl; intro _ _)
    | dsimp only
    | split

theorem State.copyServed_writes (s : State) (l m : Nat) (scrub : Bool) :
    Moves [.objs, .flash, .depot, .dram, .err, .mgmt, .out] s (State.copyServed s l m scrub) := by
  unfold State.copyServed
  repeat' first
    | with_reducible apply Moves.refl
    | assumption
    | ((with_reducible apply Within.mk); exact rfl)
    | with_reducible apply Moves.thenOp (State.lineCorrected_writes ..)
    | with_reducible apply Moves.ite
    | (with_reducible apply upd_parts <;> first | exact .inl rfl | exact .inr rfl)
    | simp only [Moves.mk_eq]
    | with_reducible refine MovesMk.upd rfl (.inl rfl) (.inl rfl) ?_ ?_
    | (with_reducible apply Moves.foldl; intro _ _)
    | dsimp only
    | split

theorem State.mirrorRepair_writes (s : State) (l m scrub : Nat) :
    Moves [.objs, .flash, .depot, .dram, .err, .mgmt, .out] s (State.mirrorRepair s l m scrub) := by
  unfold State.mirrorRepair
  repeat' first
    | with_reducible apply Moves.refl
    | assumption
    | ((with_reducible apply Within.mk); exact rfl)
    | with_reducible apply Moves.thenOp (State.copyFresh_writes ..)
    | with_reducible apply Moves.thenOp (State.copyServed_writes ..)
    | with_reducible apply Moves.thenOp (State.lineRecord_writes ..)
    | with_reducible apply Moves.ite
    | (with_reducible apply upd_parts <;> first | exact .inl rfl | exact .inr rfl)
    | simp only [Moves.mk_eq]
    | with_reducible refine MovesMk.upd rfl (.inl rfl) (.inl rfl) ?_ ?_
    | (with_reducible apply Moves.foldl; intro _ _)
    | dsimp only
    | split

theorem State.copyRead_writes (s : State) (l m : Nat) (scrub : Bool) :
    Moves [.objs, .flash, .depot, .cache, .coh, .link, .dram, .err, .mgmt, .out] s (State.copyRead s l m scrub) := by
  unfold State.copyRead
  repeat' first
    | with_reducible apply Moves.refl
    | assumption
    | ((with_reducible apply Within.mk); exact rfl)
    | with_reducible apply Moves.thenOp (State.copyServed_writes ..)
    | with_reducible apply Moves.thenOp (State.lineLost_writes ..)
    | with_reducible apply Moves.thenOp (State.mirrorRepair_writes ..)
    | with_reducible apply Moves.thenOp (State.noteLost_writes ..)
    | with_reducible apply Moves.thenOp (State.poison_writes ..)
    | with_reducible apply Moves.ite
    | (with_reducible apply upd_parts <;> first | exact .inl rfl | exact .inr rfl)
    | simp only [Moves.mk_eq]
    | with_reducible refine MovesMk.upd rfl (.inl rfl) (.inl rfl) ?_ ?_
    | (with_reducible apply Moves.foldl; intro _ _)
    | dsimp only
    | split

theorem State.memRead_writes (s : State) (l : Nat) (scrub : Bool) :
    Moves [.objs, .flash, .depot, .cache, .coh, .link, .dram, .err, .mgmt, .out] s (State.memRead s l scrub) := by
  unfold State.memRead
  repeat' first
    | with_reducible apply Moves.refl
    | assumption
    | ((with_reducible apply Within.mk); exact rfl)
    | with_reducible apply Moves.thenOp (State.lineCorrected_writes ..)
    | with_reducible apply Moves.thenOp (State.lineLost_writes ..)
    | with_reducible apply Moves.thenOp (State.poison_writes ..)
    | with_reducible apply Moves.thenOp (State.copyRead_writes ..)
    | with_reducible apply Moves.ite
    | (with_reducible apply upd_parts <;> first | exact .inl rfl | exact .inr rfl)
    | simp only [Moves.mk_eq]
    | with_reducible refine MovesMk.upd rfl (.inl rfl) (.inl rfl) ?_ ?_
    | (with_reducible apply Moves.foldl; intro _ _)
    | dsimp only
    | split

/-! ## Cache -/

theorem State.window_writes (s : State) (key : Nat) (cap : Nat) (l : Nat) (a : AccKind) :
    Moves [.cache] s ((State.window s key cap l a).2) := by
  unfold State.window
  repeat' first
    | with_reducible apply Moves.refl
    | assumption
    | ((with_reducible apply Within.mk); exact rfl)
    | with_reducible apply Moves.ite_snd
    | (with_reducible apply Moves.foldl_snd; intro _ _)
    | with_reducible apply Moves.ite
    | (with_reducible apply upd_parts <;> first | exact .inl rfl | exact .inr rfl)
    | simp only [Moves.mk_eq]
    | with_reducible refine MovesMk.upd rfl (.inl rfl) (.inl rfl) ?_ ?_
    | (with_reducible apply Moves.foldl; intro _ _)
    | dsimp only
    | split

theorem State.slcPut_writes (s : State) (l : Nat) (dirty : Bool) (streaming : Bool) :
    Moves [.cache] s (State.slcPut s l dirty streaming) := by
  unfold State.slcPut
  repeat' first
    | with_reducible apply Moves.refl
    | (with_reducible apply upd_parts <;> first | exact .inl rfl | exact .inr rfl)
    | simp only [Moves.mk_eq]
    | with_reducible refine MovesMk.upd rfl (.inl rfl) (.inl rfl) ?_ ?_
    | split

theorem State.countLine_writes (s : State) (l : Nat) :
    Moves [.depot] s (State.countLine s l) := by
  unfold State.countLine
  repeat' first
    | with_reducible apply Moves.refl
    | assumption
    | ((with_reducible apply Within.mk); exact rfl)
    | with_reducible apply Moves.thenOp (State.countAccess_writes ..)
    | with_reducible apply Moves.ite
    | (with_reducible apply upd_parts <;> first | exact .inl rfl | exact .inr rfl)
    | simp only [Moves.mk_eq]
    | with_reducible refine MovesMk.upd rfl (.inl rfl) (.inl rfl) ?_ ?_
    | (with_reducible apply Moves.foldl; intro _ _)
    | dsimp only
    | split

theorem State.slcAccess_writes (s : State) (l : Nat) (streaming : Bool) :
    Moves [.depot, .cache] s (State.slcAccess s l streaming) := by
  unfold State.slcAccess
  repeat' first
    | with_reducible apply Moves.refl
    | assumption
    | ((with_reducible apply Within.mk); exact rfl)
    | with_reducible apply Moves.thenOp (State.countAccess_writes ..)
    | with_reducible apply Moves.thenOp (State.slcPut_writes ..)
    | with_reducible apply Moves.thenOp (State.countLine_writes ..)
    | with_reducible apply Moves.ite
    | (with_reducible apply upd_parts <;> first | exact .inl rfl | exact .inr rfl)
    | simp only [Moves.mk_eq]
    | with_reducible refine MovesMk.upd rfl (.inl rfl) (.inl rfl) ?_ ?_
    | (with_reducible apply Moves.foldl; intro _ _)
    | dsimp only
    | split

theorem State.slcOffer_writes (s : State) (l : Nat) (dirty : Bool) (streaming : Bool) :
    Moves [.objs, .depot, .cache] s (State.slcOffer s l dirty streaming) := by
  unfold State.slcOffer
  repeat' first
    | with_reducible apply Moves.refl
    | assumption
    | ((with_reducible apply Within.mk); exact rfl)
    | with_reducible apply Moves.thenOp (State.oinc_writes ..)
    | with_reducible apply Moves.thenOp (State.slcPut_writes ..)
    | with_reducible apply Moves.thenOp (State.countLine_writes ..)
    | with_reducible apply Moves.ite
    | (with_reducible apply upd_parts <;> first | exact .inl rfl | exact .inr rfl)
    | simp only [Moves.mk_eq]
    | with_reducible refine MovesMk.upd rfl (.inl rfl) (.inl rfl) ?_ ?_
    | (with_reducible apply Moves.foldl; intro _ _)
    | dsimp only
    | split

theorem State.slcClean_writes (s : State) (l : Nat) :
    Moves [.cache] s (State.slcClean s l) := by
  unfold State.slcClean
  repeat' first
    | with_reducible apply Moves.refl
    | (with_reducible apply upd_parts <;> first | exact .inl rfl | exact .inr rfl)
    | simp only [Moves.mk_eq]
    | with_reducible refine MovesMk.upd rfl (.inl rfl) (.inl rfl) ?_ ?_

theorem State.slcDrop_writes (s : State) (l : Nat) :
    Moves [.cache] s (State.slcDrop s l) := by
  unfold State.slcDrop
  repeat' first
    | with_reducible apply Moves.refl
    | assumption
    | ((with_reducible apply Within.mk); exact rfl)
    | with_reducible apply Moves.ite
    | (with_reducible apply upd_parts <;> first | exact .inl rfl | exact .inr rfl)
    | simp only [Moves.mk_eq]
    | with_reducible refine MovesMk.upd rfl (.inl rfl) (.inl rfl) ?_ ?_
    | (with_reducible apply Moves.foldl; intro _ _)
    | dsimp only
    | split

theorem State.mapL2_writes (s : State) (ridge : Nat) (l : Nat) (f : Way → Way) :
    Moves [.cache] s (State.mapL2 s ridge l f) := by
  unfold State.mapL2
  repeat' first
    | with_reducible apply Moves.refl
    | (with_reducible apply upd_parts <;> first | exact .inl rfl | exact .inr rfl)
    | simp only [Moves.mk_eq]
    | with_reducible refine MovesMk.upd rfl (.inl rfl) (.inl rfl) ?_ ?_
    | split

theorem State.dropL1_writes (s : State) (ridge : Nat) (l : Nat) :
    Moves [.cache] s (State.dropL1 s ridge l) := by
  unfold State.dropL1
  repeat' first
    | with_reducible apply Moves.refl
    | (with_reducible apply upd_parts <;> first | exact .inl rfl | exact .inr rfl)
    | simp only [Moves.mk_eq]
    | with_reducible refine MovesMk.upd rfl (.inl rfl) (.inl rfl) ?_ ?_

theorem State.cleanL1_writes (s : State) (ridge l : Nat) :
    Moves [.cache] s (State.cleanL1 s ridge l) := by
  unfold State.cleanL1
  repeat' first
    | with_reducible apply Moves.refl
    | assumption
    | ((with_reducible apply Within.mk); exact rfl)
    | with_reducible apply Moves.ite
    | (with_reducible apply upd_parts <;> first | exact .inl rfl | exact .inr rfl)
    | simp only [Moves.mk_eq]
    | with_reducible refine MovesMk.upd rfl (.inl rfl) (.inl rfl) ?_ ?_
    | (with_reducible apply Moves.foldl; intro _ _)
    | dsimp only
    | split

theorem State.dropL2_writes (s : State) (ridge : Nat) (l : Nat) :
    Moves [.cache] s (State.dropL2 s ridge l) := by
  unfold State.dropL2
  repeat' first
    | with_reducible apply Moves.refl
    | ((with_reducible apply Within.mk); exact rfl)
    | with_reducible apply Moves.thenOp (State.dropL1_writes ..)
    | with_reducible apply Moves.thenOp (State.mapL2_writes ..)

theorem State.setRemote_writes (s : State) (l : Nat) (e : List Nat × LineState) :
    Moves [.coh] s (State.setRemote s l e) := by
  unfold State.setRemote
  repeat' first
    | with_reducible apply Moves.refl
    | assumption
    | ((with_reducible apply Within.mk); exact rfl)
    | with_reducible apply Moves.ite
    | (with_reducible apply upd_parts <;> first | exact .inl rfl | exact .inr rfl)
    | simp only [Moves.mk_eq]
    | with_reducible refine MovesMk.upd rfl (.inl rfl) (.inl rfl) ?_ ?_
    | (with_reducible apply Moves.foldl; intro _ _)
    | dsimp only
    | split

theorem State.proxyNote_writes (s : State) (op l : Nat) (data : List Byte) (keeps : LineState) (poison : Bool) :
    Moves [.coh, .link, .out] s (State.proxyNote s op l data keeps poison) := by
  unfold State.proxyNote
  repeat' first
    | with_reducible apply Moves.refl
    | assumption
    | ((with_reducible apply Within.mk); exact rfl)
    | with_reducible apply Moves.thenOp (State.newTxn_writes ..)
    | with_reducible apply Moves.thenOp (State.sendCoh_writes ..)
    | with_reducible apply Moves.ite
    | (with_reducible apply upd_parts <;> first | exact .inl rfl | exact .inr rfl)
    | simp only [Moves.mk_eq]
    | with_reducible refine MovesMk.upd rfl (.inl rfl) (.inl rfl) ?_ ?_
    | (with_reducible apply Moves.foldl; intro _ _)
    | dsimp only
    | split
    | with_reducible refine Moves.thenOp (Moves.of_snd (State.newTxn_writes ..) (by assumption)) (Within.mk rfl) ?_

theorem State.proxyWb_writes (s : State) (op : Nat) (l : Nat) (data : List Byte) (keeps : LineState) :
    Moves [.coh, .link, .out] s (State.proxyWb s op l data keeps) := by
  unfold State.proxyWb
  repeat' first
    | with_reducible apply Moves.refl
    | assumption
    | ((with_reducible apply Within.mk); exact rfl)
    | with_reducible apply Moves.thenOp (State.newTxn_writes ..)
    | with_reducible apply Moves.thenOp (State.sendCoh_writes ..)
    | with_reducible apply Moves.thenOp (State.proxyNote_writes ..)
    | with_reducible apply Moves.ite
    | (with_reducible apply upd_parts <;> first | exact .inl rfl | exact .inr rfl)
    | simp only [Moves.mk_eq]
    | with_reducible refine MovesMk.upd rfl (.inl rfl) (.inl rfl) ?_ ?_
    | (with_reducible apply Moves.foldl; intro _ _)
    | dsimp only
    | split

theorem State.evictL2_writes (s : State) (ridge : Nat) (w : Way) (k : Option RouteKey) :
    Moves [.objs, .depot, .cache, .coh, .link, .out] s (State.evictL2 s ridge w k) := by
  unfold State.evictL2
  repeat' first
    | with_reducible apply Moves.refl
    | ((with_reducible apply Within.mk); exact rfl)
    | with_reducible apply Moves.thenOp (State.dropL2_writes ..)
    | with_reducible apply Moves.thenOp (State.proxyWb_writes ..)
    | with_reducible apply Moves.thenOp (State.setDir_writes ..)
    | with_reducible apply Moves.thenOp (State.setRemote_writes ..)
    | with_reducible apply Moves.thenOp (State.slcOffer_writes ..)
    | with_reducible apply Moves.ite

theorem State.fillL2_writes (s : State) (ridge : Nat) (l : Nat) (k : Option RouteKey) (st : LineState) (dirty : Bool) (streaming : Bool) (pd : Bool) (data : List Byte) :
    Moves [.objs, .depot, .cache, .coh, .link, .out] s (State.fillL2 s ridge l k st dirty streaming pd data) := by
  unfold State.fillL2
  repeat' first
    | with_reducible apply Moves.refl
    | assumption
    | ((with_reducible apply Within.mk); exact rfl)
    | with_reducible apply Moves.thenOp (State.evictL2_writes ..)
    | with_reducible apply Moves.thenOp (State.mapL2_writes ..)
    | with_reducible apply Moves.ite
    | (with_reducible apply upd_parts <;> first | exact .inl rfl | exact .inr rfl)
    | simp only [Moves.mk_eq]
    | with_reducible refine MovesMk.upd rfl (.inl rfl) (.inl rfl) ?_ ?_
    | (with_reducible apply Moves.foldl; intro _ _)
    | dsimp only
    | split

theorem State.fillL1_writes (s : State) (ridge : Nat) (strand : Nat) (l : Nat) (code : Bool) (dirty : Bool) :
    Moves [.cache] s (State.fillL1 s ridge strand l code dirty) := by
  unfold State.fillL1
  repeat' first
    | with_reducible apply Moves.refl
    | with_reducible apply Moves.ite
    | (with_reducible apply upd_parts <;> first | exact .inl rfl | exact .inr rfl)
    | simp only [Moves.mk_eq]
    | with_reducible refine MovesMk.upd rfl (.inl rfl) (.inl rfl) ?_ ?_

theorem State.cutoffClean_writes (s : State) :
    Moves [.cache, .coh, .link, .out] s (State.cutoffClean s) := by
  unfold State.cutoffClean
  repeat' first
    | with_reducible apply Moves.refl
    | assumption
    | ((with_reducible apply Within.mk); exact rfl)
    | with_reducible apply Moves.thenOp (State.proxyWb_writes ..)
    | with_reducible apply Moves.thenOp (State.setRemote_writes ..)
    | with_reducible apply Moves.ite
    | (with_reducible apply upd_parts <;> first | exact .inl rfl | exact .inr rfl)
    | simp only [Moves.mk_eq]
    | with_reducible refine MovesMk.upd rfl (.inl rfl) (.inl rfl) ?_ ?_
    | (with_reducible apply Moves.foldl; intro _ _)
    | dsimp only
    | split

theorem State.cacheBelay_writes (s : State) :
    Moves [.cache] s (State.cacheBelay s) := by
  unfold State.cacheBelay
  repeat' first
    | with_reducible apply Moves.refl
    | (with_reducible apply upd_parts <;> first | exact .inl rfl | exact .inr rfl)
    | simp only [Moves.mk_eq]
    | with_reducible refine MovesMk.upd rfl (.inl rfl) (.inl rfl) ?_ ?_

theorem State.settleLost_writes (s : State) (l : Nat) :
    Moves [.objs, .cache, .coh, .link, .dram, .out] s (State.settleLost s l) := by
  unfold State.settleLost
  repeat' first
    | with_reducible apply Moves.refl
    | assumption
    | ((with_reducible apply Within.mk); exact rfl)
    | with_reducible apply Moves.thenOp (State.poison_writes ..)
    | with_reducible apply Moves.ite
    | (with_reducible apply upd_parts <;> first | exact .inl rfl | exact .inr rfl)
    | simp only [Moves.mk_eq]
    | with_reducible refine MovesMk.upd rfl (.inl rfl) (.inl rfl) ?_ ?_
    | (with_reducible apply Moves.foldl; intro _ _)
    | dsimp only
    | split

theorem State.dirRead_writes (s : State) (a : Nat) (l : Nat) :
    OptAll (fun (a : LineState × State) => Moves [.cache, .coh] s (a).2) (State.dirRead s a l) := by
  unfold State.dirRead
  repeat' first
    | with_reducible apply Moves.refl
    | assumption
    | ((with_reducible apply Within.mk); exact rfl)
    | with_reducible apply Moves.thenOp (State.dropL2_writes ..)
    | with_reducible apply Moves.thenOp (State.mapL2_writes ..)
    | with_reducible apply Moves.thenOp (State.setDir_writes ..)
    | with_reducible apply Moves.thenOp (State.dirTouch_writes ..)
    | with_reducible apply OptAll.some'
    | with_reducible apply OptAll.none'
    | with_reducible apply OptAll.ite
    | with_reducible apply Moves.ite
    | (with_reducible apply upd_parts <;> first | exact .inl rfl | exact .inr rfl)
    | simp only [Moves.mk_eq]
    | with_reducible refine MovesMk.upd rfl (.inl rfl) (.inl rfl) ?_ ?_
    | (with_reducible apply Moves.foldl; intro _ _)
    | dsimp only
    | split

theorem State.dirOwn_writes (s : State) (a : Nat) (l : Nat) :
    OptAll (fun (a : State) => Moves [.cache, .coh] s a) (State.dirOwn s a l) := by
  unfold State.dirOwn
  repeat' first
    | with_reducible apply Moves.refl
    | assumption
    | ((with_reducible apply Within.mk); exact rfl)
    | with_reducible apply Moves.thenOp (State.dropL2_writes ..)
    | with_reducible apply Moves.thenOp (State.setDir_writes ..)
    | with_reducible apply Moves.thenOp (State.dirTouch_writes ..)
    | with_reducible apply OptAll.some'
    | with_reducible apply OptAll.none'
    | with_reducible apply OptAll.ite
    | with_reducible apply Moves.ite
    | (with_reducible apply upd_parts <;> first | exact .inl rfl | exact .inr rfl)
    | simp only [Moves.mk_eq]
    | with_reducible refine MovesMk.upd rfl (.inl rfl) (.inl rfl) ?_ ?_
    | (with_reducible apply Moves.foldl; intro _ _)
    | dsimp only
    | split

theorem State.lineFetch_writes (s : State) (l : Nat) (streaming : Bool) :
    Moves [.objs, .flash, .depot, .cache, .coh, .link, .dram, .err, .mgmt, .out] s (State.lineFetch s l streaming) := by
  unfold State.lineFetch
  repeat' first
    | with_reducible apply Moves.refl
    | assumption
    | ((with_reducible apply Within.mk); exact rfl)
    | with_reducible apply Moves.thenOp (State.memRead_writes ..)
    | with_reducible apply Moves.thenOp (State.slcAccess_writes ..)
    | with_reducible apply Moves.ite
    | (with_reducible apply upd_parts <;> first | exact .inl rfl | exact .inr rfl)
    | simp only [Moves.mk_eq]
    | with_reducible refine MovesMk.upd rfl (.inl rfl) (.inl rfl) ?_ ?_
    | (with_reducible apply Moves.foldl; intro _ _)
    | dsimp only
    | split

theorem State.askFill_writes (s : State) (ridge l op : Nat) (k : Option RouteKey) :
    Moves [.coh, .link, .out] s (State.askFill s ridge l op k) := by
  unfold State.askFill
  repeat' first
    | with_reducible apply Moves.refl
    | assumption
    | ((with_reducible apply Within.mk); exact rfl)
    | with_reducible apply Moves.thenOp (State.request_writes ..)
    | with_reducible apply Moves.ite
    | (with_reducible apply upd_parts <;> first | exact .inl rfl | exact .inr rfl)
    | simp only [Moves.mk_eq]
    | with_reducible refine MovesMk.upd rfl (.inl rfl) (.inl rfl) ?_ ?_
    | (with_reducible apply Moves.foldl; intro _ _)
    | dsimp only
    | split
    | with_reducible refine Moves.thenOp (Moves.of_snd (State.request_writes ..) (by assumption)) (Within.mk rfl) ?_

theorem State.l2Read_writes (s : State) (ridge l : Nat) (k : Option RouteKey) :
    Moves [.objs, .flash, .depot, .cache, .coh, .link, .dram, .err, .mgmt, .out] s (State.l2Read s ridge l k) := by
  unfold State.l2Read
  repeat' first
    | with_reducible apply Moves.refl
    | assumption
    | ((with_reducible apply Within.mk); exact rfl)
    | with_reducible apply Moves.thenOp (State.askFill_writes ..)
    | with_reducible apply Moves.thenOp (State.fillL2_writes ..)
    | with_reducible apply Moves.thenOp (State.lineFetch_writes ..)
    | with_reducible apply Moves.thenOp (State.mapL2_writes ..)
    | with_reducible apply Moves.thenOp (State.window_writes ..)
    | with_reducible apply Moves.ite
    | (with_reducible apply upd_parts <;> first | exact .inl rfl | exact .inr rfl)
    | simp only [Moves.mk_eq]
    | with_reducible refine MovesMk.upd rfl (.inl rfl) (.inl rfl) ?_ ?_
    | (with_reducible apply Moves.foldl; intro _ _)
    | dsimp only
    | split
    | with_reducible refine Moves.thenOp (OptAll.stSnd (State.dirRead_writes ..) (by assumption)) (Within.mk rfl) ?_
    | with_reducible refine Moves.thenOp (OptAll.stSnd' (State.dirRead_writes ..) (by assumption)) (Within.mk rfl) ?_
    | with_reducible refine Moves.thenOp (Moves.of_snd (State.window_writes ..) (by assumption)) (Within.mk rfl) ?_

theorem State.strandRead_writes (s : State) (ridge : Nat) (strand : Nat) (l : Nat) (k : Option RouteKey) (code : Bool) :
    Moves [.objs, .flash, .depot, .cache, .coh, .link, .dram, .err, .mgmt, .out] s (State.strandRead s ridge strand l k code) := by
  unfold State.strandRead
  repeat' first
    | with_reducible apply Moves.refl
    | assumption
    | ((with_reducible apply Within.mk); exact rfl)
    | with_reducible apply Moves.thenOp (State.fillL1_writes ..)
    | with_reducible apply Moves.thenOp (State.fillL2_writes ..)
    | with_reducible apply Moves.thenOp (State.mapL2_writes ..)
    | with_reducible apply Moves.thenOp (State.memRead_writes ..)
    | with_reducible apply Moves.thenOp (State.slcAccess_writes ..)
    | with_reducible apply Moves.thenOp (State.window_writes ..)
    | with_reducible apply Moves.thenOp (State.l2Read_writes ..)
    | with_reducible apply Moves.ite
    | (with_reducible apply upd_parts <;> first | exact .inl rfl | exact .inr rfl)
    | simp only [Moves.mk_eq]
    | with_reducible refine MovesMk.upd rfl (.inl rfl) (.inl rfl) ?_ ?_
    | (with_reducible apply Moves.foldl; intro _ _)
    | dsimp only
    | split
    | with_reducible refine Moves.thenOp (OptAll.stSnd (State.dirRead_writes ..) (by assumption)) (Within.mk rfl) ?_

theorem State.l2Own_writes (s : State) (ridge l : Nat) (k : Option RouteKey) (full past late : Bool) :
    Moves [.objs, .flash, .depot, .cache, .coh, .link, .dram, .err, .mgmt, .out] s (State.l2Own s ridge l k full past late) := by
  unfold State.l2Own
  repeat' first
    | with_reducible apply Moves.refl
    | assumption
    | ((with_reducible apply Within.mk); exact rfl)
    | with_reducible apply Moves.thenOp (State.askFill_writes ..)
    | with_reducible apply Moves.thenOp (State.fillL2_writes ..)
    | with_reducible apply Moves.thenOp (State.lineFetch_writes ..)
    | with_reducible apply Moves.thenOp (State.mapL2_writes ..)
    | with_reducible apply Moves.thenOp (State.setDir_writes ..)
    | with_reducible apply Moves.thenOp (State.slcAccess_writes ..)
    | with_reducible apply Moves.ite
    | (with_reducible apply upd_parts <;> first | exact .inl rfl | exact .inr rfl)
    | simp only [Moves.mk_eq]
    | with_reducible refine MovesMk.upd rfl (.inl rfl) (.inl rfl) ?_ ?_
    | (with_reducible apply Moves.foldl; intro _ _)
    | dsimp only
    | split
    | with_reducible refine Moves.thenOp (OptAll.st (State.dirOwn_writes ..) (by assumption)) (Within.mk rfl) ?_

theorem State.l2Write_writes (s : State) (ridge l : Nat) (k : Option RouteKey) (full past late : Bool) :
    Moves [.objs, .flash, .depot, .cache, .coh, .link, .dram, .err, .mgmt, .out] s (State.l2Write s ridge l k full past late) := by
  unfold State.l2Write
  repeat' first
    | with_reducible apply Moves.refl
    | assumption
    | ((with_reducible apply Within.mk); exact rfl)
    | with_reducible apply Moves.thenOp (State.l2Own_writes ..)
    | with_reducible apply Moves.thenOp (State.window_writes ..)
    | with_reducible apply Moves.ite
    | (with_reducible apply upd_parts <;> first | exact .inl rfl | exact .inr rfl)
    | simp only [Moves.mk_eq]
    | with_reducible refine MovesMk.upd rfl (.inl rfl) (.inl rfl) ?_ ?_
    | (with_reducible apply Moves.foldl; intro _ _)
    | dsimp only
    | split
    | with_reducible refine Moves.thenOp (Moves.of_snd (State.window_writes ..) (by assumption)) (Within.mk rfl) ?_

theorem State.strandWrite_writes (s : State) (ridge strand l : Nat) (k : Option RouteKey) (full : Bool) :
    Moves [.objs, .flash, .depot, .cache, .coh, .link, .dram, .err, .mgmt, .out] s (State.strandWrite s ridge strand l k full) := by
  unfold State.strandWrite
  repeat' first
    | with_reducible apply Moves.refl
    | assumption
    | ((with_reducible apply Within.mk); exact rfl)
    | with_reducible apply Moves.thenOp (State.fillL1_writes ..)
    | with_reducible apply Moves.thenOp (State.l2Own_writes ..)
    | with_reducible apply Moves.thenOp (State.l2Write_writes ..)
    | with_reducible apply Moves.thenOp (State.window_writes ..)
    | with_reducible apply Moves.ite
    | (with_reducible apply upd_parts <;> first | exact .inl rfl | exact .inr rfl)
    | simp only [Moves.mk_eq]
    | with_reducible refine MovesMk.upd rfl (.inl rfl) (.inl rfl) ?_ ?_
    | (with_reducible apply Moves.foldl; intro _ _)
    | dsimp only
    | split
    | with_reducible refine Moves.thenOp (Moves.of_snd (State.window_writes ..) (by assumption)) (Within.mk rfl) ?_

theorem State.sendPdSet_writes (s : State) (ridge l : Nat) :
    Moves [.coh, .link, .out] s (State.sendPdSet s ridge l) := by
  unfold State.sendPdSet
  repeat' first
    | with_reducible apply Moves.refl
    | assumption
    | ((with_reducible apply Within.mk); exact rfl)
    | with_reducible apply Moves.thenOp (State.newTxn_writes ..)
    | with_reducible apply Moves.thenOp (State.sendCoh_writes ..)
    | with_reducible apply Moves.ite
    | (with_reducible apply upd_parts <;> first | exact .inl rfl | exact .inr rfl)
    | simp only [Moves.mk_eq]
    | with_reducible refine MovesMk.upd rfl (.inl rfl) (.inl rfl) ?_ ?_
    | (with_reducible apply Moves.foldl; intro _ _)
    | dsimp only
    | split
    | with_reducible refine Moves.thenOp (Moves.of_snd (State.newTxn_writes ..) (by assumption)) (Within.mk rfl) ?_

theorem State.setTag_writes (s : State) (ridge l : Nat) :
    Moves [.cache] s (State.setTag s ridge l) := by
  unfold State.setTag
  repeat' first
    | with_reducible apply Moves.refl
    | assumption
    | ((with_reducible apply Within.mk); exact rfl)
    | with_reducible apply Moves.thenOp (State.mapL2_writes ..)
    | with_reducible apply Moves.ite
    | (with_reducible apply upd_parts <;> first | exact .inl rfl | exact .inr rfl)
    | simp only [Moves.mk_eq]
    | with_reducible refine MovesMk.upd rfl (.inl rfl) (.inl rfl) ?_ ?_
    | (with_reducible apply Moves.foldl; intro _ _)
    | dsimp only
    | split

theorem State.gangStep_writes (s : State) (ridge l : Nat) (old : List Byte) :
    OptAll (fun a => Moves [.depot, .cache, .coh, .link, .dram, .out] s a) (State.gangStep s ridge l old) := by
  unfold State.gangStep
  repeat' first
    | with_reducible apply Moves.refl
    | assumption
    | ((with_reducible apply Within.mk); exact rfl)
    | with_reducible apply Moves.thenOp (State.sendPdSet_writes ..)
    | with_reducible apply Moves.thenOp (State.setTag_writes ..)
    | with_reducible apply Moves.thenOp (State.putRecord_writes ..)
    | with_reducible apply OptAll.some'
    | with_reducible apply OptAll.none'
    | with_reducible apply OptAll.ite
    | with_reducible apply Moves.ite
    | (with_reducible apply upd_parts <;> first | exact .inl rfl | exact .inr rfl)
    | simp only [Moves.mk_eq]
    | with_reducible refine MovesMk.upd rfl (.inl rfl) (.inl rfl) ?_ ?_
    | (with_reducible apply Moves.foldl; intro _ _)
    | dsimp only
    | split

theorem State.storeStep_writes (s : State) (ridge l : Nat) :
    OptAll (fun a => Moves [.depot, .cache, .coh, .link, .dram, .out] s a) (State.storeStep s ridge l) := by
  unfold State.storeStep
  repeat' first
    | with_reducible refine OptAll.imp (fun _ h => Moves.thenOp h (Within.mk rfl) ?_) (State.gangStep_writes ..)
    | with_reducible refine OptAll.imp (fun _ h => Moves.thenOp h (Within.mk rfl) ?_) (State.journalStep_writes ..)
    | with_reducible apply Moves.refl
    | with_reducible apply OptAll.some'
    | with_reducible apply OptAll.ite

theorem State.storeSteps_writes (s : State) (ridge : Nat) (x0 : List Nat) :
    OptAll (fun a => Moves [.depot, .cache, .coh, .link, .dram, .out] s a) (State.storeSteps s ridge x0) := by
  induction x0 generalizing s with
  | nil =>
    unfold State.storeSteps
    repeat' first
      | with_reducible apply Moves.refl
      | with_reducible apply OptAll.some'
  | cons a l ih =>
    unfold State.storeSteps
    repeat' first
      | with_reducible apply Moves.refl
      | with_reducible refine OptAll.imp (fun _ h => Moves.thenOp h (Within.mk rfl) ?_) (ih ..)
      | with_reducible apply OptAll.none'
      | split
      | with_reducible refine Moves.thenOp (OptAll.st (State.storeStep_writes ..) (by assumption)) (Within.mk rfl) ?_

theorem State.l2Pass_writes (s : State) (ridge l : Nat) :
    Moves [.objs, .flash, .depot, .cache, .coh, .link, .dram, .err, .mgmt, .out] s (State.l2Pass s ridge l) := by
  unfold State.l2Pass
  repeat' first
    | with_reducible apply Moves.refl
    | assumption
    | ((with_reducible apply Within.mk); exact rfl)
    | with_reducible apply Moves.thenOp (State.lineFetch_writes ..)
    | with_reducible apply Moves.thenOp (State.mapL2_writes ..)
    | with_reducible apply Moves.thenOp (State.window_writes ..)
    | with_reducible apply Moves.ite
    | (with_reducible apply upd_parts <;> first | exact .inl rfl | exact .inr rfl)
    | simp only [Moves.mk_eq]
    | with_reducible refine MovesMk.upd rfl (.inl rfl) (.inl rfl) ?_ ?_
    | (with_reducible apply Moves.foldl; intro _ _)
    | dsimp only
    | split
    | with_reducible refine Moves.thenOp (Moves.of_snd (State.window_writes ..) (by assumption)) (Within.mk rfl) ?_

theorem State.streamRange_writes (s : State) (r : Nat × Nat) :
    Moves [.objs, .flash, .depot, .cache, .coh, .link, .dram, .err, .mgmt, .out] s (State.streamRange s r) := by
  unfold State.streamRange
  repeat' first
    | with_reducible apply Moves.refl
    | assumption
    | ((with_reducible apply Within.mk); exact rfl)
    | with_reducible apply Moves.thenOp (State.lineFetch_writes ..)
    | with_reducible apply Moves.ite
    | (with_reducible apply upd_parts <;> first | exact .inl rfl | exact .inr rfl)
    | simp only [Moves.mk_eq]
    | with_reducible refine MovesMk.upd rfl (.inl rfl) (.inl rfl) ?_ ?_
    | (with_reducible apply Moves.foldl; intro _ _)
    | dsimp only
    | split

theorem State.streamRanges_writes (s : State) (rs : List (Nat × Nat)) :
    Moves [.objs, .flash, .depot, .cache, .coh, .link, .dram, .err, .mgmt, .out] s (State.streamRanges s rs) := by
  unfold State.streamRanges
  repeat' first
    | with_reducible apply Moves.refl
    | assumption
    | ((with_reducible apply Within.mk); exact rfl)
    | with_reducible apply Moves.thenOp (State.streamRange_writes ..)
    | with_reducible apply Moves.ite
    | (with_reducible apply upd_parts <;> first | exact .inl rfl | exact .inr rfl)
    | simp only [Moves.mk_eq]
    | with_reducible refine MovesMk.upd rfl (.inl rfl) (.inl rfl) ?_ ?_
    | (with_reducible apply Moves.foldl; intro _ _)
    | dsimp only
    | split

theorem State.accessed_writes {l : List Field} {s x : State} (hl : Within [.objs, .depot, .cache, .coh, .link, .dram, .out] l)
    (h : Moves l s x) : Moves l s (State.accessed s x) := by
  have m : ∀ {f : Field}, [Field.objs, .depot, .cache, .coh, .link, .dram, .out].contains f = true → l.contains f = true := fun hf =>
    List.contains_iff_mem.mpr (within.mem hl.out (List.contains_iff_mem.mp hf))
  unfold State.accessed
  split
  · exact h
  · simp only [Moves.mk_eq]
    refine MovesMk.upd rfl (.inl rfl) (.inl rfl) ?_ (Moves.refl l s)
    refine upd_parts (.inr rfl) (.inr rfl) (.inl (m rfl)) (.inr rfl) (.inr rfl) (.inr rfl) (.inr rfl) (.inr rfl) (.inr rfl)
      (.inr rfl) (.inr rfl) (.inr rfl) (.inr rfl) (.inl (m rfl)) (.inr rfl) (.inl (m rfl)) (.inl (m rfl)) ?_ (.inl (m rfl))
      (.inr rfl) (.inr rfl) (.inr rfl) (.inl (m rfl)) (.inr rfl) (.inr rfl) (.inr rfl) (.inl (m rfl))
    by_cases hp : Field.peers ∈ l
    · exact .inl (List.contains_iff_mem.mpr hp)
    · exact .inr (h.get .peers hp)

theorem State.homeReads_writes (s : State) (ls : List Nat) :
    Moves [.objs, .flash, .depot, .cache, .coh, .link, .dram, .err, .mgmt, .out] s (State.homeReads s ls) := by
  unfold State.homeReads
  repeat' first
    | with_reducible apply Moves.refl
    | assumption
    | ((with_reducible apply Within.mk); exact rfl)
    | with_reducible refine State.accessed_writes (Within.mk rfl) ?_
    | with_reducible apply Moves.thenOp (State.lineFetch_writes ..)
    | with_reducible apply Moves.ite
    | (with_reducible apply upd_parts <;> first | exact .inl rfl | exact .inr rfl)
    | simp only [Moves.mk_eq]
    | with_reducible refine MovesMk.upd rfl (.inl rfl) (.inl rfl) ?_ ?_
    | (with_reducible apply Moves.foldl; intro _ _)
    | dsimp only
    | split

theorem State.leaveL2_writes (s : State) (ridge : Nat) (w : Way) :
    Moves [.objs, .depot, .cache, .coh, .link, .out] s (State.leaveL2 s ridge w) := by
  unfold State.leaveL2
  repeat' first
    | with_reducible apply Moves.refl
    | assumption
    | ((with_reducible apply Within.mk); exact rfl)
    | with_reducible apply Moves.thenOp (State.dropL2_writes ..)
    | with_reducible apply Moves.thenOp (State.evictL2_writes ..)
    | with_reducible apply Moves.thenOp (State.setDir_writes ..)
    | with_reducible apply Moves.ite
    | (with_reducible apply upd_parts <;> first | exact .inl rfl | exact .inr rfl)
    | simp only [Moves.mk_eq]
    | with_reducible refine MovesMk.upd rfl (.inl rfl) (.inl rfl) ?_ ?_
    | (with_reducible apply Moves.foldl; intro _ _)
    | dsimp only
    | split

theorem State.emptyL1_writes (s : State) (ridge : Nat) :
    Moves [.cache] s (State.emptyL1 s ridge) := by
  unfold State.emptyL1
  repeat' first
    | with_reducible apply Moves.refl
    | assumption
    | ((with_reducible apply Within.mk); exact rfl)
    | with_reducible apply Moves.ite
    | (with_reducible apply upd_parts <;> first | exact .inl rfl | exact .inr rfl)
    | simp only [Moves.mk_eq]
    | with_reducible refine MovesMk.upd rfl (.inl rfl) (.inl rfl) ?_ ?_
    | (with_reducible apply Moves.foldl; intro _ _)
    | dsimp only
    | split

theorem State.sweepL2_writes (s : State) (ridge : Nat) :
    Moves [.objs, .depot, .cache, .coh, .link, .out] s (State.sweepL2 s ridge) := by
  unfold State.sweepL2
  repeat' first
    | with_reducible apply Moves.refl
    | assumption
    | ((with_reducible apply Within.mk); exact rfl)
    | with_reducible apply Moves.thenOp (State.evictL2_writes ..)
    | with_reducible apply Moves.thenOp (State.leaveL2_writes ..)
    | with_reducible apply Moves.thenOp (State.emptyL1_writes ..)
    | with_reducible apply Moves.ite
    | (with_reducible apply upd_parts <;> first | exact .inl rfl | exact .inr rfl)
    | simp only [Moves.mk_eq]
    | with_reducible refine MovesMk.upd rfl (.inl rfl) (.inl rfl) ?_ ?_
    | (with_reducible apply Moves.foldl; intro _ _)
    | dsimp only
    | split

theorem State.sweepSlc_writes (s : State) (q : Nat) :
    Moves [.cache] s (State.sweepSlc s q) := by
  unfold State.sweepSlc
  repeat' first
    | with_reducible apply Moves.refl
    | (with_reducible apply upd_parts <;> first | exact .inl rfl | exact .inr rfl)
    | simp only [Moves.mk_eq]
    | with_reducible refine MovesMk.upd rfl (.inl rfl) (.inl rfl) ?_ ?_

theorem State.setCacheState_writes (s : State) (c : CacheSel) (x : CacheState) :
    Moves [.cache] s (State.setCacheState s c x) := by
  unfold State.setCacheState
  repeat' first
    | with_reducible apply Moves.refl
    | (with_reducible apply upd_parts <;> first | exact .inl rfl | exact .inr rfl)
    | simp only [Moves.mk_eq]
    | with_reducible refine MovesMk.upd rfl (.inl rfl) (.inl rfl) ?_ ?_

/-! ## Ends -/

theorem State.endAt_writes (s : State) (k : RouteKey) (status : Nat) :
    Moves [.routes] s (State.endAt s k status) := by
  unfold State.endAt
  repeat' first
    | with_reducible apply Moves.refl
    | assumption
    | ((with_reducible apply Within.mk); exact rfl)
    | with_reducible apply Moves.thenOp (State.updRoute_writes ..)
    | with_reducible apply Moves.ite
    | (with_reducible apply upd_parts <;> first | exact .inl rfl | exact .inr rfl)
    | simp only [Moves.mk_eq]
    | with_reducible refine MovesMk.upd rfl (.inl rfl) (.inl rfl) ?_ ?_
    | (with_reducible apply Moves.foldl; intro _ _)
    | dsimp only
    | split

theorem State.spoilRecord_writes (s : State) (line : Nat) (far : Bool) :
    Moves [.objs, .cache, .coh, .link, .dram, .out] s (State.spoilRecord s line far) := by
  unfold State.spoilRecord
  repeat' first
    | with_reducible apply Moves.refl
    | assumption
    | ((with_reducible apply Within.mk); exact rfl)
    | with_reducible apply Moves.thenOp (State.poison_writes ..)
    | with_reducible apply Moves.thenOp (State.proxyNote_writes ..)
    | with_reducible apply Moves.ite
    | (with_reducible apply upd_parts <;> first | exact .inl rfl | exact .inr rfl)
    | simp only [Moves.mk_eq]
    | with_reducible refine MovesMk.upd rfl (.inl rfl) (.inl rfl) ?_ ?_
    | (with_reducible apply Moves.foldl; intro _ _)
    | dsimp only
    | split

theorem State.restoreRecord_writes (s : State) (j : JRec) :
    Moves [.objs, .flash, .routes, .content, .depot, .cache, .coh, .link, .dram, .err, .mgmt, .out] s (State.restoreRecord s j) := by
  unfold State.restoreRecord
  repeat' first
    | with_reducible apply Moves.refl
    | assumption
    | ((with_reducible apply Within.mk); exact rfl)
    | with_reducible apply Moves.thenOp (State.endAt_writes ..)
    | with_reducible apply Moves.thenOp (State.memRead_writes ..)
    | with_reducible apply Moves.thenOp (State.putObj_writes ..)
    | with_reducible apply Moves.thenOp (State.replayInval_writes ..)
    | with_reducible apply Moves.thenOp (State.restoreFar_writes ..)
    | with_reducible apply Moves.thenOp (State.spoilRecord_writes ..)
    | with_reducible apply Moves.ite
    | (with_reducible apply upd_parts <;> first | exact .inl rfl | exact .inr rfl)
    | simp only [Moves.mk_eq]
    | with_reducible refine MovesMk.upd rfl (.inl rfl) (.inl rfl) ?_ ?_
    | (with_reducible apply Moves.foldl; intro _ _)
    | dsimp only
    | split

theorem State.applyJournal_writes (s : State) (k : RouteKey) (spanPitch : Nat) :
    Moves [.objs, .flash, .routes, .content, .depot, .cache, .coh, .link, .dram, .err, .mgmt, .out] s (State.applyJournal s k spanPitch) := by
  unfold State.applyJournal
  repeat' first
    | with_reducible apply Moves.refl
    | assumption
    | ((with_reducible apply Within.mk); exact rfl)
    | with_reducible apply Moves.thenOp (State.putObj_writes ..)
    | with_reducible apply Moves.thenOp (State.replayInval_writes ..)
    | with_reducible apply Moves.thenOp (State.refreshDir_writes ..)
    | with_reducible apply Moves.thenOp (State.restoreFar_writes ..)
    | with_reducible apply Moves.thenOp (State.restoreRecord_writes ..)
    | with_reducible apply Moves.ite
    | (with_reducible apply upd_parts <;> first | exact .inl rfl | exact .inr rfl)
    | simp only [Moves.mk_eq]
    | with_reducible refine MovesMk.upd rfl (.inl rfl) (.inl rfl) ?_ ?_
    | (with_reducible apply Moves.foldl; intro _ _)
    | dsimp only
    | split

theorem State.forgetReads_writes (s : State) (k : RouteKey) :
    Moves [.sched] s (State.forgetReads s k) := by
  unfold State.forgetReads
  repeat' first
    | with_reducible apply Moves.refl
    | assumption
    | ((with_reducible apply Within.mk); exact rfl)
    | with_reducible apply Moves.ite
    | (with_reducible apply upd_parts <;> first | exact .inl rfl | exact .inr rfl)
    | simp only [Moves.mk_eq]
    | with_reducible refine MovesMk.upd rfl (.inl rfl) (.inl rfl) ?_ ?_
    | (with_reducible apply Moves.foldl; intro _ _)
    | dsimp only
    | split

theorem State.discardSpan_writes (s : State) (k : RouteKey) :
    Moves [.objs, .flash, .routes, .sched, .scn, .cairn, .summit, .content, .depot, .strands, .cache, .coh, .link, .dram, .err, .mgmt, .out] s (State.discardSpan s k) := by
  unfold State.discardSpan
  repeat' first
    | with_reducible apply Moves.refl
    | assumption
    | ((with_reducible apply Within.mk); exact rfl)
    | with_reducible apply Moves.thenOp (State.applyJournal_writes ..)
    | with_reducible apply Moves.thenOp (State.camReplay_writes ..)
    | with_reducible apply Moves.thenOp (State.depotReplay_writes ..)
    | with_reducible apply Moves.thenOp (State.dropEntries_writes ..)
    | with_reducible apply Moves.thenOp (State.dropStrands_writes ..)
    | with_reducible apply Moves.thenOp (State.dropTasks_writes ..)
    | with_reducible apply Moves.thenOp (State.updRoute_writes ..)
    | with_reducible apply Moves.thenOp (State.dropWrites_writes ..)
    | with_reducible apply Moves.thenOp (State.forgetReads_writes ..)
    | with_reducible apply Moves.ite
    | (with_reducible apply upd_parts <;> first | exact .inl rfl | exact .inr rfl)
    | simp only [Moves.mk_eq]
    | with_reducible refine MovesMk.upd rfl (.inl rfl) (.inl rfl) ?_ ?_
    | (with_reducible apply Moves.foldl; intro _ _)
    | dsimp only
    | split

theorem State.sendBelay_writes (s : State) (r : Route) (sp : Span) (dest : Nat) (kind : Nat) (tick : Nat) :
    Moves [.link, .out] s (State.sendBelay s r sp dest kind tick) := by
  unfold State.sendBelay
  repeat' first
    | with_reducible apply Moves.refl
    | ((with_reducible apply Within.mk); exact rfl)
    | with_reducible apply Moves.thenOp (State.send_writes ..)

theorem State.sendVerdict_writes (s : State) (k : RouteKey) (kind : Nat) (tick : Nat) :
    Moves [.link, .out] s (State.sendVerdict s k kind tick) := by
  unfold State.sendVerdict
  repeat' first
    | with_reducible apply Moves.refl
    | assumption
    | ((with_reducible apply Within.mk); exact rfl)
    | with_reducible apply Moves.thenOp (State.sendBelay_writes ..)
    | with_reducible apply Moves.ite
    | (with_reducible apply upd_parts <;> first | exact .inl rfl | exact .inr rfl)
    | simp only [Moves.mk_eq]
    | with_reducible refine MovesMk.upd rfl (.inl rfl) (.inl rfl) ?_ ?_
    | (with_reducible apply Moves.foldl; intro _ _)
    | dsimp only
    | split

theorem State.returnQuota_writes (s : State) (t : Nat) (home : Nat) :
    Moves [.depot, .link, .out] s (State.returnQuota s t home) := by
  unfold State.returnQuota
  repeat' first
    | with_reducible apply Moves.refl
    | assumption
    | ((with_reducible apply Within.mk); exact rfl)
    | with_reducible apply Moves.thenOp (State.send_writes ..)
    | with_reducible apply Moves.ite
    | (with_reducible apply upd_parts <;> first | exact .inl rfl | exact .inr rfl)
    | simp only [Moves.mk_eq]
    | with_reducible refine MovesMk.upd rfl (.inl rfl) (.inl rfl) ?_ ?_
    | (with_reducible apply Moves.foldl; intro _ _)
    | dsimp only
    | split

theorem State.returnQuotas_writes (s : State) :
    Moves [.depot, .link, .out] s (State.returnQuotas s) := by
  unfold State.returnQuotas
  repeat' first
    | with_reducible apply Moves.refl
    | assumption
    | ((with_reducible apply Within.mk); exact rfl)
    | with_reducible apply Moves.thenOp (State.returnQuota_writes ..)
    | with_reducible apply Moves.ite
    | (with_reducible apply upd_parts <;> first | exact .inl rfl | exact .inr rfl)
    | simp only [Moves.mk_eq]
    | with_reducible refine MovesMk.upd rfl (.inl rfl) (.inl rfl) ?_ ?_
    | (with_reducible apply Moves.foldl; intro _ _)
    | dsimp only
    | split

theorem State.freeRoute_writes (s : State) (k : RouteKey) :
    Moves [.objs, .sched, .summit, .content, .depot, .link] s (State.freeRoute s k) := by
  unfold State.freeRoute
  repeat' first
    | with_reducible apply Moves.refl
    | assumption
    | ((with_reducible apply Within.mk); exact rfl)
    | with_reducible apply Moves.thenOp (State.freeObj_writes ..)
    | with_reducible apply Moves.thenOp (State.forgetReads_writes ..)
    | with_reducible apply Moves.ite
    | (with_reducible apply upd_parts <;> first | exact .inl rfl | exact .inr rfl)
    | simp only [Moves.mk_eq]
    | with_reducible refine MovesMk.upd rfl (.inl rfl) (.inl rfl) ?_ ?_
    | (with_reducible apply Moves.foldl; intro _ _)
    | dsimp only
    | split

theorem State.closeOut_writes (s : State) (k : RouteKey) (status : Nat) (tick : Nat) (check : Nat) (record : Bool) :
    Moves [.freeCount, .objs, .routes, .sched, .cairn, .summit, .content, .depot, .link, .hostMem, .host, .out] s (State.closeOut s k status tick check record) := by
  unfold State.closeOut
  repeat' first
    | with_reducible apply Moves.refl
    | assumption
    | ((with_reducible apply Within.mk); exact rfl)
    | with_reducible apply Moves.thenOp (State.closeRoute_writes ..)
    | with_reducible apply Moves.thenOp (State.complete_writes ..)
    | with_reducible apply Moves.thenOp (State.freeCam_writes ..)
    | with_reducible apply Moves.thenOp (State.freeRoute_writes ..)
    | with_reducible apply Moves.thenOp (State.logEvent_writes ..)
    | with_reducible apply Moves.thenOp (State.returnQuota_writes ..)
    | with_reducible apply Moves.thenOp (State.send_writes ..)
    | with_reducible apply Moves.thenOp (State.updRoute_writes ..)
    | with_reducible apply Moves.ite
    | (with_reducible apply upd_parts <;> first | exact .inl rfl | exact .inr rfl)
    | simp only [Moves.mk_eq]
    | with_reducible refine MovesMk.upd rfl (.inl rfl) (.inl rfl) ?_ ?_
    | (with_reducible apply Moves.foldl; intro _ _)
    | dsimp only
    | split

theorem State.suspendHere_writes (s : State) (k : RouteKey) (cause : Nat) (fp : List Nat) :
    Moves [.freeCount, .objs, .flash, .routes, .sched, .scn, .cairn, .summit, .content, .depot, .strands, .cache, .coh, .link, .hostMem, .host, .dram, .err, .mgmt, .out] s (State.suspendHere s k cause fp) := by
  unfold State.suspendHere
  repeat' first
    | with_reducible apply Moves.refl
    | assumption
    | ((with_reducible apply Within.mk); exact rfl)
    | with_reducible apply Moves.thenOp (State.discardSpan_writes ..)
    | with_reducible apply Moves.thenOp (State.logEvent_writes ..)
    | with_reducible apply Moves.thenOp (State.oinc_writes ..)
    | with_reducible apply Moves.thenOp (State.updRoute_writes ..)
    | with_reducible apply Moves.ite
    | (with_reducible apply upd_parts <;> first | exact .inl rfl | exact .inr rfl)
    | simp only [Moves.mk_eq]
    | with_reducible refine MovesMk.upd rfl (.inl rfl) (.inl rfl) ?_ ?_
    | (with_reducible apply Moves.foldl; intro _ _)
    | dsimp only
    | split

theorem State.farFootprint_writes (s : State) (r : Route) :
    Moves [.freeCount] s ((State.farFootprint s r).2) := by
  unfold State.farFootprint
  repeat' first
    | with_reducible apply Moves.refl
    | assumption
    | ((with_reducible apply Within.mk); exact rfl)
    | with_reducible apply Moves.ite_snd
    | (with_reducible apply Moves.foldl_snd; intro _ _)
    | with_reducible apply Moves.ite
    | (with_reducible apply upd_parts <;> first | exact .inl rfl | exact .inr rfl)
    | simp only [Moves.mk_eq]
    | with_reducible refine MovesMk.upd rfl (.inl rfl) (.inl rfl) ?_ ?_
    | (with_reducible apply Moves.foldl; intro _ _)
    | dsimp only
    | split

theorem State.suspendRoute_writes (s : State) (k : RouteKey) (cause cls : Nat) :
    Moves [.freeCount, .objs, .flash, .routes, .sched, .scn, .cairn, .summit, .content, .depot, .strands, .cache, .coh, .link, .hostMem, .host, .dram, .err, .mgmt, .out] s (State.suspendRoute s k cause cls) := by
  unfold State.suspendRoute
  repeat' first
    | with_reducible apply Moves.refl
    | assumption
    | ((with_reducible apply Within.mk); exact rfl)
    | with_reducible apply Moves.thenOp (State.closeOut_writes ..)
    | with_reducible apply Moves.thenOp (State.complete_writes ..)
    | with_reducible apply Moves.thenOp (State.farFootprint_writes ..)
    | with_reducible apply Moves.thenOp (State.send_writes ..)
    | with_reducible apply Moves.thenOp (State.sendVerdict_writes ..)
    | with_reducible apply Moves.thenOp (State.suspendHere_writes ..)
    | with_reducible apply Moves.ite
    | (with_reducible apply upd_parts <;> first | exact .inl rfl | exact .inr rfl)
    | simp only [Moves.mk_eq]
    | with_reducible refine MovesMk.upd rfl (.inl rfl) (.inl rfl) ?_ ?_
    | (with_reducible apply Moves.foldl; intro _ _)
    | dsimp only
    | split
    | with_reducible refine Moves.thenOp (Moves.of_snd (State.farFootprint_writes ..) (by assumption)) (Within.mk rfl) ?_

/-! ## Outbound -/

theorem State.sendSvc_writes (s : State) (op : Nat) (dest : Nat) (tenant : Nat) (route : Nat) (arg : Nat) (slot1 : Nat) (slot2 : Nat) :
    Moves [.link, .out] s (State.sendSvc s op dest tenant route arg slot1 slot2) := by
  unfold State.sendSvc
  repeat' first
    | with_reducible apply Moves.refl
    | ((with_reducible apply Within.mk); exact rfl)
    | with_reducible apply Moves.thenOp (State.send_writes ..)

theorem State.mapOutbound_writes (s : State) (id : Nat) (f : Outbound → Outbound) :
    Moves [.link] s (State.mapOutbound s id f) := by
  unfold State.mapOutbound
  repeat' first
    | with_reducible apply Moves.refl
    | (with_reducible apply upd_parts <;> first | exact .inl rfl | exact .inr rfl)
    | simp only [Moves.mk_eq]
    | with_reducible refine MovesMk.upd rfl (.inl rfl) (.inl rfl) ?_ ?_

theorem State.dropOutbound_writes (s : State) (id : Nat) :
    Moves [.link] s (State.dropOutbound s id) := by
  unfold State.dropOutbound
  repeat' first
    | with_reducible apply Moves.refl
    | (with_reducible apply upd_parts <;> first | exact .inl rfl | exact .inr rfl)
    | simp only [Moves.mk_eq]
    | with_reducible refine MovesMk.upd rfl (.inl rfl) (.inl rfl) ?_ ?_

theorem State.payCloses_writes (s : State) :
    Moves [.link, .out] s (State.payCloses s) := by
  unfold State.payCloses
  repeat' first
    | with_reducible apply Moves.refl
    | ((with_reducible apply Within.mk); exact rfl)
    | with_reducible apply Moves.thenOp (State.sendSvc_writes ..)
    | (with_reducible apply upd_parts <;> first | exact .inl rfl | exact .inr rfl)
    | simp only [Moves.mk_eq]
    | with_reducible refine MovesMk.upd rfl (.inl rfl) (.inl rfl) ?_ ?_
    | (with_reducible apply Moves.foldl; intro _ _)

theorem State.pumpOne_writes (s : State) (id : Nat) :
    Moves [.routes, .sched, .coh, .link, .out] s (State.pumpOne s id) := by
  unfold State.pumpOne
  repeat' first
    | with_reducible apply Moves.refl
    | assumption
    | ((with_reducible apply Within.mk); exact rfl)
    | (with_reducible apply Moves.foldl_snd; intro _ _)
    | with_reducible apply Moves.thenOp (State.dropOutbound_writes ..)
    | with_reducible apply Moves.thenOp (State.mapOutbound_writes ..)
    | with_reducible apply Moves.thenOp (State.payCloses_writes ..)
    | with_reducible apply Moves.thenOp (State.request_writes ..)
    | with_reducible apply Moves.thenOp (State.sendSvc_writes ..)
    | with_reducible apply Moves.thenOp (State.readySeals_writes ..)
    | with_reducible apply Moves.ite
    | (with_reducible apply upd_parts <;> first | exact .inl rfl | exact .inr rfl)
    | simp only [Moves.mk_eq]
    | with_reducible refine MovesMk.upd rfl (.inl rfl) (.inl rfl) ?_ ?_
    | (with_reducible apply Moves.foldl; intro _ _)
    | dsimp only
    | split

theorem State.ackDone_writes (s : State) :
    Moves [.routes, .link, .out] s (State.ackDone s) := by
  unfold State.ackDone
  repeat' first
    | with_reducible apply Moves.refl
    | assumption
    | ((with_reducible apply Within.mk); exact rfl)
    | with_reducible apply Moves.thenOp (State.mapSpan_writes ..)
    | with_reducible apply Moves.thenOp (State.sendBelay_writes ..)
    | with_reducible apply Moves.ite
    | (with_reducible apply upd_parts <;> first | exact .inl rfl | exact .inr rfl)
    | simp only [Moves.mk_eq]
    | with_reducible refine MovesMk.upd rfl (.inl rfl) (.inl rfl) ?_ ?_
    | (with_reducible apply Moves.foldl; intro _ _)
    | dsimp only
    | split

theorem State.pumpOutbound_writes (s : State) :
    Moves [.routes, .sched, .coh, .link, .out] s (State.pumpOutbound s) := by
  unfold State.pumpOutbound
  repeat' first
    | with_reducible apply Moves.refl
    | assumption
    | ((with_reducible apply Within.mk); exact rfl)
    | with_reducible apply Moves.thenOp (State.payCloses_writes ..)
    | with_reducible apply Moves.thenOp (State.pumpOne_writes ..)
    | with_reducible apply Moves.thenOp (State.ackDone_writes ..)
    | with_reducible apply Moves.ite
    | (with_reducible apply upd_parts <;> first | exact .inl rfl | exact .inr rfl)
    | simp only [Moves.mk_eq]
    | with_reducible refine MovesMk.upd rfl (.inl rfl) (.inl rfl) ?_ ?_
    | (with_reducible apply Moves.foldl; intro _ _)
    | dsimp only
    | split

theorem State.outboundDone_writes (s : State) (txn : Nat) :
    Moves [.link] s (State.outboundDone s txn) := by
  unfold State.outboundDone
  repeat' first
    | with_reducible apply Moves.refl
    | (with_reducible apply upd_parts <;> first | exact .inl rfl | exact .inr rfl)
    | simp only [Moves.mk_eq]
    | with_reducible refine MovesMk.upd rfl (.inl rfl) (.inl rfl) ?_ ?_

end Sys2Proof.Machine
end

