-- ==== Sys2Proof/Laws/FrameSched.lean ====
section
/-! SUPPORT. What each function may write: scheduling, Summit, the caches and spans. -/

set_option Elab.async false
set_option linter.all false
namespace Sys2Proof.Machine
open Sys2Proof

/-! ## Scan -/

theorem State.charge_writes (s : State) (k : RouteKey) (stage : Nat) (bytes : Nat) :
    Moves [.objs, .routes] s (State.charge s k stage bytes) := by
  unfold State.charge
  repeat' first
    | with_reducible apply Moves.refl
    | assumption
    | ((with_reducible apply Within.mk); exact rfl)
    | with_reducible apply Moves.thenOp (State.oinc_writes ..)
    | with_reducible apply Moves.thenOp (State.work_writes ..)
    | with_reducible apply Moves.ite
    | (with_reducible apply upd_parts <;> first | exact .inl rfl | exact .inr rfl)
    | simp only [Moves.mk_eq]
    | with_reducible refine MovesMk.upd rfl (.inl rfl) (.inl rfl) ?_ ?_
    | (with_reducible apply Moves.foldl; intro _ _)
    | dsimp only
    | split

theorem TRes.ofScan_writes {α : Type} (s : State) (ranges : α → List (Nat × Nat)) (r : Rd α) :
    TRes.All (fun u => Moves [.objs, .flash, .depot, .cache, .coh, .link, .dram, .err, .mgmt, .out] s u) (TRes.ofScan s ranges r) := by
  unfold TRes.ofScan
  repeat' first
    | with_reducible apply Moves.refl
    | assumption
    | ((with_reducible apply Within.mk); exact rfl)
    | with_reducible apply Moves.thenOp (State.streamRanges_writes ..)
    | with_reducible apply TRes.All.okIn
    | with_reducible apply TRes.All.fullIn
    | with_reducible apply TRes.All.badIn
    | with_reducible apply TRes.All.needIn
    | with_reducible apply TRes.All.askIn
    | with_reducible apply TRes.All.againIn
    | with_reducible apply TRes.All.ite
    | with_reducible refine TRes.All.andThen ?_ (fun _ _ _ => ?_)
    | with_reducible apply Moves.ite
    | (with_reducible apply upd_parts <;> first | exact .inl rfl | exact .inr rfl)
    | simp only [Moves.mk_eq]
    | with_reducible refine MovesMk.upd rfl (.inl rfl) (.inl rfl) ?_ ?_
    | (with_reducible apply Moves.foldl; intro _ _)
    | dsimp only
    | split

theorem State.dictLoad_writes (s : State) (k : RouteKey) (ridge stage col : Nat) (b : Option (List Byte)) :
    Moves [.sched] s (State.dictLoad s k ridge stage col b) := by
  unfold State.dictLoad
  repeat' first
    | with_reducible apply Moves.refl
    | assumption
    | ((with_reducible apply Within.mk); exact rfl)
    | with_reducible apply Moves.ite
    | (with_reducible apply upd_parts <;> first | exact .inl rfl | exact .inr rfl)
    | simp only [Moves.mk_eq]
    | with_reducible refine MovesMk.upd rfl (.inl rfl) (.inl rfl) ?_ ?_
    | (with_reducible apply Moves.foldl; intro _ _)
    | dsimp only
    | split

theorem State.rereadDone_writes (s : State) (k : RouteKey) (e : BlockEnt) (matched : Bool) :
    Moves [.objs, .sched] s (State.rereadDone s k e matched) := by
  unfold State.rereadDone
  repeat' first
    | with_reducible apply Moves.refl
    | assumption
    | ((with_reducible apply Within.mk); exact rfl)
    | with_reducible apply Moves.thenOp (State.oinc_writes ..)
    | with_reducible apply Moves.ite
    | (with_reducible apply upd_parts <;> first | exact .inl rfl | exact .inr rfl)
    | simp only [Moves.mk_eq]
    | with_reducible refine MovesMk.upd rfl (.inl rfl) (.inl rfl) ?_ ?_
    | (with_reducible apply Moves.foldl; intro _ _)
    | dsimp only
    | split

theorem State.blockFails_writes {α : Type} (s : State) (k : RouteKey) (e : BlockEnt) (h : BlockHdr) (st : Nat) :
    TRes.All (α := α) (fun u => Moves [.objs, .sched] s u) (State.blockFails s k e h st) := by
  unfold State.blockFails
  repeat' first
    | with_reducible apply Moves.refl
    | assumption
    | ((with_reducible apply Within.mk); exact rfl)
    | with_reducible apply Moves.thenOp (State.rereadDone_writes ..)
    | with_reducible apply TRes.All.okIn
    | with_reducible apply TRes.All.fullIn
    | with_reducible apply TRes.All.badIn
    | with_reducible apply TRes.All.needIn
    | with_reducible apply TRes.All.askIn
    | with_reducible apply TRes.All.againIn
    | with_reducible apply TRes.All.ite
    | with_reducible refine TRes.All.andThen ?_ (fun _ _ _ => ?_)
    | with_reducible apply Moves.ite
    | (with_reducible apply upd_parts <;> first | exact .inl rfl | exact .inr rfl)
    | simp only [Moves.mk_eq]
    | with_reducible refine MovesMk.upd rfl (.inl rfl) (.inl rfl) ?_ ?_
    | (with_reducible apply Moves.foldl; intro _ _)
    | dsimp only
    | split

theorem State.dictLines_writes (s : State) (x : ScanCol) (rs : List (Nat × Nat)) :
    Moves [.objs, .flash, .depot, .cache, .coh, .link, .dram, .err, .mgmt, .out] s (State.dictLines s x rs) := by
  unfold State.dictLines
  repeat' first
    | with_reducible apply Moves.refl
    | assumption
    | ((with_reducible apply Within.mk); exact rfl)
    | with_reducible apply Moves.thenOp (State.l2Pass_writes ..)
    | with_reducible apply Moves.thenOp (State.streamRanges_writes ..)
    | with_reducible apply Moves.ite
    | (with_reducible apply upd_parts <;> first | exact .inl rfl | exact .inr rfl)
    | simp only [Moves.mk_eq]
    | with_reducible refine MovesMk.upd rfl (.inl rfl) (.inl rfl) ?_ ?_
    | (with_reducible apply Moves.foldl; intro _ _)
    | dsimp only
    | split

theorem State.scanBlock_writes (s : State) (x : ScanCol) (e : BlockEnt) :
    TRes.All (fun u => Moves [.objs, .flash, .routes, .sched, .depot, .cache, .coh, .link, .dram, .err, .mgmt, .out] s u) (State.scanBlock s x e) := by
  unfold State.scanBlock
  repeat' first
    | with_reducible apply Moves.refl
    | assumption
    | ((with_reducible apply Within.mk); exact rfl)
    | with_reducible refine TRes.All.imp (fun _ h => Moves.thenOp h (Within.mk rfl) ?_) (State.blockFails_writes ..)
    | with_reducible apply Moves.thenOp (State.charge_writes ..)
    | with_reducible apply Moves.thenOp (State.dictLoad_writes ..)
    | with_reducible apply Moves.thenOp (State.oinc_writes ..)
    | with_reducible apply Moves.thenOp (State.rereadDone_writes ..)
    | with_reducible refine TRes.All.imp (fun _ h => Moves.thenOp h (Within.mk rfl) ?_) (TRes.ofScan_writes ..)
    | with_reducible apply Moves.thenOp (State.dictLines_writes ..)
    | with_reducible apply TRes.All.okIn
    | with_reducible apply TRes.All.fullIn
    | with_reducible apply TRes.All.badIn
    | with_reducible apply TRes.All.needIn
    | with_reducible apply TRes.All.askIn
    | with_reducible apply TRes.All.againIn
    | with_reducible apply TRes.All.ite
    | with_reducible refine TRes.All.andThen ?_ (fun _ _ _ => ?_)
    | with_reducible apply Moves.ite
    | (with_reducible apply upd_parts <;> first | exact .inl rfl | exact .inr rfl)
    | simp only [Moves.mk_eq]
    | with_reducible refine MovesMk.upd rfl (.inl rfl) (.inl rfl) ?_ ?_
    | (with_reducible apply Moves.foldl; intro _ _)
    | dsimp only
    | split
    | with_reducible refine Moves.thenOp (TRes.All.okGet (State.blockFails_writes ..) (by assumption)) (Within.mk rfl) ?_
    | with_reducible refine Moves.thenOp (TRes.All.fullGet (State.blockFails_writes ..) (by assumption)) (Within.mk rfl) ?_
    | with_reducible refine Moves.thenOp (TRes.All.badGet (State.blockFails_writes ..) (by assumption)) (Within.mk rfl) ?_
    | with_reducible refine Moves.thenOp (TRes.All.okGet (TRes.ofScan_writes ..) (by assumption)) (Within.mk rfl) ?_
    | with_reducible refine Moves.thenOp (TRes.All.fullGet (TRes.ofScan_writes ..) (by assumption)) (Within.mk rfl) ?_
    | with_reducible refine Moves.thenOp (TRes.All.badGet (TRes.ofScan_writes ..) (by assumption)) (Within.mk rfl) ?_

theorem State.scanBlocks_writes (s : State) (x : ScanCol) (lo n : Nat) (sel : List Bool) (x0 : List BlockEnt) :
    TRes.All (fun u => Moves [.objs, .flash, .routes, .sched, .depot, .cache, .coh, .link, .dram, .err, .mgmt, .out] s u) (State.scanBlocks s x lo n sel x0) := by
  induction x0 generalizing s x lo n sel with
  | nil =>
    unfold State.scanBlocks
    repeat' first
      | with_reducible apply Moves.refl
      | assumption
      | ((with_reducible apply Within.mk); exact rfl)
      | with_reducible refine TRes.All.imp (fun _ h => Moves.thenOp h (Within.mk rfl) ?_) (State.scanBlock_writes ..)
      | with_reducible apply TRes.All.okIn
      | with_reducible apply TRes.All.fullIn
      | with_reducible apply TRes.All.badIn
      | with_reducible apply TRes.All.needIn
      | with_reducible apply TRes.All.askIn
      | with_reducible apply TRes.All.againIn
      | with_reducible apply TRes.All.ite
      | with_reducible refine TRes.All.andThen ?_ (fun _ _ _ => ?_)
      | with_reducible apply Moves.ite
      | (with_reducible apply upd_parts <;> first | exact .inl rfl | exact .inr rfl)
      | simp only [Moves.mk_eq]
      | with_reducible refine MovesMk.upd rfl (.inl rfl) (.inl rfl) ?_ ?_
      | (with_reducible apply Moves.foldl; intro _ _)
      | dsimp only
      | split
      | with_reducible refine Moves.thenOp (TRes.All.okGet (State.scanBlock_writes ..) (by assumption)) (Within.mk rfl) ?_
      | with_reducible refine Moves.thenOp (TRes.All.fullGet (State.scanBlock_writes ..) (by assumption)) (Within.mk rfl) ?_
      | with_reducible refine Moves.thenOp (TRes.All.badGet (State.scanBlock_writes ..) (by assumption)) (Within.mk rfl) ?_
  | cons a l ih =>
    unfold State.scanBlocks
    repeat' first
      | with_reducible apply Moves.refl
      | assumption
      | ((with_reducible apply Within.mk); exact rfl)
      | with_reducible refine TRes.All.imp (fun _ h => Moves.thenOp h (Within.mk rfl) ?_) (State.scanBlock_writes ..)
      | with_reducible refine TRes.All.imp (fun _ h => Moves.thenOp h (Within.mk rfl) ?_) (ih ..)
      | with_reducible apply TRes.All.okIn
      | with_reducible apply TRes.All.fullIn
      | with_reducible apply TRes.All.badIn
      | with_reducible apply TRes.All.needIn
      | with_reducible apply TRes.All.askIn
      | with_reducible apply TRes.All.againIn
      | with_reducible apply TRes.All.ite
      | with_reducible refine TRes.All.andThen ?_ (fun _ _ _ => ?_)
      | with_reducible apply Moves.ite
      | (with_reducible apply upd_parts <;> first | exact .inl rfl | exact .inr rfl)
      | simp only [Moves.mk_eq]
      | with_reducible refine MovesMk.upd rfl (.inl rfl) (.inl rfl) ?_ ?_
      | (with_reducible apply Moves.foldl; intro _ _)
      | dsimp only
      | split
      | with_reducible refine Moves.thenOp (TRes.All.okGet (State.scanBlock_writes ..) (by assumption)) (Within.mk rfl) ?_
      | with_reducible refine Moves.thenOp (TRes.All.fullGet (State.scanBlock_writes ..) (by assumption)) (Within.mk rfl) ?_
      | with_reducible refine Moves.thenOp (TRes.All.badGet (State.scanBlock_writes ..) (by assumption)) (Within.mk rfl) ?_

theorem State.scanList_writes (s : State) (st : Stage) (c : Column) :
    TRes.All (fun t => Moves [.objs, .flash, .depot, .cache, .coh, .link, .dram, .err, .mgmt, .out] s t) (State.scanList s st c) := by
  unfold State.scanList
  repeat' first
    | with_reducible apply Moves.refl
    | assumption
    | ((with_reducible apply Within.mk); exact rfl)
    | with_reducible refine TRes.All.imp (fun _ h => Moves.thenOp h (Within.mk rfl) ?_) (TRes.ofRd_writes ..)
    | with_reducible refine TRes.All.imp (fun _ h => Moves.thenOp h (Within.mk rfl) ?_) (TRes.ofScan_writes ..)
    | with_reducible apply TRes.All.okIn
    | with_reducible apply TRes.All.fullIn
    | with_reducible apply TRes.All.badIn
    | with_reducible apply TRes.All.needIn
    | with_reducible apply TRes.All.askIn
    | with_reducible apply TRes.All.againIn
    | with_reducible apply TRes.All.ite
    | with_reducible refine TRes.All.andThen ?_ (fun _ _ _ => ?_)
    | with_reducible apply Moves.ite
    | (with_reducible apply upd_parts <;> first | exact .inl rfl | exact .inr rfl)
    | simp only [Moves.mk_eq]
    | with_reducible refine MovesMk.upd rfl (.inl rfl) (.inl rfl) ?_ ?_
    | (with_reducible apply Moves.foldl; intro _ _)
    | dsimp only
    | split
    | with_reducible refine Moves.thenOp (TRes.All.okGet (TRes.ofScan_writes ..) (by assumption)) (Within.mk rfl) ?_
    | with_reducible refine Moves.thenOp (TRes.All.fullGet (TRes.ofScan_writes ..) (by assumption)) (Within.mk rfl) ?_
    | with_reducible refine Moves.thenOp (TRes.All.badGet (TRes.ofScan_writes ..) (by assumption)) (Within.mk rfl) ?_

theorem State.scanColumns_writes (s : State) (k : RouteKey) (d : RouteDesc) (stage ridge lo n : Nat) (sel : List Bool) (x0 : List (Nat × Column)) :
    TRes.All (fun u => Moves [.objs, .flash, .routes, .sched, .depot, .cache, .coh, .link, .dram, .err, .mgmt, .out] s u) (State.scanColumns s k d stage ridge lo n sel x0) := by
  induction x0 generalizing s k d stage ridge lo n sel with
  | nil =>
    unfold State.scanColumns
    repeat' first
      | with_reducible apply Moves.refl
      | assumption
      | ((with_reducible apply Within.mk); exact rfl)
      | with_reducible refine TRes.All.imp (fun _ h => Moves.thenOp h (Within.mk rfl) ?_) (State.scanBlocks_writes ..)
      | with_reducible refine TRes.All.imp (fun _ h => Moves.thenOp h (Within.mk rfl) ?_) (State.scanList_writes ..)
      | with_reducible apply TRes.All.okIn
      | with_reducible apply TRes.All.fullIn
      | with_reducible apply TRes.All.badIn
      | with_reducible apply TRes.All.needIn
      | with_reducible apply TRes.All.askIn
      | with_reducible apply TRes.All.againIn
      | with_reducible apply TRes.All.ite
      | with_reducible refine TRes.All.andThen ?_ (fun _ _ _ => ?_)
      | with_reducible apply Moves.ite
      | (with_reducible apply upd_parts <;> first | exact .inl rfl | exact .inr rfl)
      | simp only [Moves.mk_eq]
      | with_reducible refine MovesMk.upd rfl (.inl rfl) (.inl rfl) ?_ ?_
      | (with_reducible apply Moves.foldl; intro _ _)
      | dsimp only
      | split
      | with_reducible refine Moves.thenOp (TRes.All.okGet (State.scanBlocks_writes ..) (by assumption)) (Within.mk rfl) ?_
      | with_reducible refine Moves.thenOp (TRes.All.fullGet (State.scanBlocks_writes ..) (by assumption)) (Within.mk rfl) ?_
      | with_reducible refine Moves.thenOp (TRes.All.badGet (State.scanBlocks_writes ..) (by assumption)) (Within.mk rfl) ?_
      | with_reducible refine Moves.thenOp (TRes.All.okGet (State.scanList_writes ..) (by assumption)) (Within.mk rfl) ?_
      | with_reducible refine Moves.thenOp (TRes.All.fullGet (State.scanList_writes ..) (by assumption)) (Within.mk rfl) ?_
      | with_reducible refine Moves.thenOp (TRes.All.badGet (State.scanList_writes ..) (by assumption)) (Within.mk rfl) ?_
  | cons a l ih =>
    unfold State.scanColumns
    repeat' first
      | with_reducible apply Moves.refl
      | assumption
      | ((with_reducible apply Within.mk); exact rfl)
      | with_reducible refine TRes.All.imp (fun _ h => Moves.thenOp h (Within.mk rfl) ?_) (State.scanBlocks_writes ..)
      | with_reducible refine TRes.All.imp (fun _ h => Moves.thenOp h (Within.mk rfl) ?_) (State.scanList_writes ..)
      | with_reducible refine TRes.All.imp (fun _ h => Moves.thenOp h (Within.mk rfl) ?_) (ih ..)
      | with_reducible apply TRes.All.okIn
      | with_reducible apply TRes.All.fullIn
      | with_reducible apply TRes.All.badIn
      | with_reducible apply TRes.All.needIn
      | with_reducible apply TRes.All.askIn
      | with_reducible apply TRes.All.againIn
      | with_reducible apply TRes.All.ite
      | with_reducible refine TRes.All.andThen ?_ (fun _ _ _ => ?_)
      | with_reducible apply Moves.ite
      | (with_reducible apply upd_parts <;> first | exact .inl rfl | exact .inr rfl)
      | simp only [Moves.mk_eq]
      | with_reducible refine MovesMk.upd rfl (.inl rfl) (.inl rfl) ?_ ?_
      | (with_reducible apply Moves.foldl; intro _ _)
      | dsimp only
      | split
      | with_reducible refine Moves.thenOp (TRes.All.okGet (State.scanBlocks_writes ..) (by assumption)) (Within.mk rfl) ?_
      | with_reducible refine Moves.thenOp (TRes.All.fullGet (State.scanBlocks_writes ..) (by assumption)) (Within.mk rfl) ?_
      | with_reducible refine Moves.thenOp (TRes.All.badGet (State.scanBlocks_writes ..) (by assumption)) (Within.mk rfl) ?_
      | with_reducible refine Moves.thenOp (TRes.All.okGet (State.scanList_writes ..) (by assumption)) (Within.mk rfl) ?_
      | with_reducible refine Moves.thenOp (TRes.All.fullGet (State.scanList_writes ..) (by assumption)) (Within.mk rfl) ?_
      | with_reducible refine Moves.thenOp (TRes.All.badGet (State.scanList_writes ..) (by assumption)) (Within.mk rfl) ?_

theorem State.segHeaders_writes (s : State) (row : Nat) (x2 : List (Nat × Column × List BlockEnt)) :
    TRes.All (fun t => Moves [.objs, .flash, .depot, .cache, .coh, .link, .dram, .err, .mgmt, .out] s t) (State.segHeaders s row x2) := by
  induction x2 generalizing s row with
  | nil =>
    unfold State.segHeaders
    repeat' first
      | with_reducible apply Moves.refl
      | with_reducible apply TRes.All.okIn
  | cons a l ih =>
    unfold State.segHeaders
    repeat' first
      | with_reducible apply Moves.refl
      | assumption
      | with_reducible refine TRes.All.imp (fun _ h => Moves.thenOp h (Within.mk rfl) ?_) (TRes.ofScan_writes ..)
      | with_reducible refine TRes.All.imp (fun _ h => Moves.thenOp h (Within.mk rfl) ?_) (ih ..)
      | with_reducible apply TRes.All.badIn
      | with_reducible refine TRes.All.andThen ?_ (fun _ _ _ => ?_)
      | simp only [Moves.mk_eq]
      | split

theorem State.zonePass_writes (s : State) (p : FProg) (zl : List (Nat × Column × List BlockEnt)) (lo : Nat) (x4 : List (Nat × Nat)) (x5 : List Bool) :
    TRes.All (fun t => Moves [.objs, .flash, .depot, .cache, .coh, .link, .dram, .err, .mgmt, .out] s t) (State.zonePass s p zl lo x4 x5) := by
  induction x4 generalizing s p zl lo x5 with
  | nil =>
    unfold State.zonePass
    repeat' first
      | with_reducible apply Moves.refl
      | with_reducible apply TRes.All.okIn
  | cons a l ih =>
    unfold State.zonePass
    repeat' first
      | with_reducible apply Moves.refl
      | assumption
      | with_reducible refine TRes.All.imp (fun _ h => Moves.thenOp h (Within.mk rfl) ?_) (State.segHeaders_writes ..)
      | with_reducible refine TRes.All.imp (fun _ h => Moves.thenOp h (Within.mk rfl) ?_) (ih ..)
      | with_reducible refine TRes.All.andThen ?_ (fun _ _ _ => ?_)

theorem State.verifySkipped_writes (s : State) (k : RouteKey) (e : BlockEnt) :
    TRes.All (fun u => Moves [.objs, .flash, .sched, .depot, .cache, .coh, .link, .dram, .err, .mgmt, .out] s u) (State.verifySkipped s k e) := by
  unfold State.verifySkipped
  repeat' first
    | with_reducible apply Moves.refl
    | assumption
    | ((with_reducible apply Within.mk); exact rfl)
    | with_reducible refine TRes.All.imp (fun _ h => Moves.thenOp h (Within.mk rfl) ?_) (State.blockFails_writes ..)
    | with_reducible apply Moves.thenOp (State.oinc_writes ..)
    | with_reducible apply Moves.thenOp (State.rereadDone_writes ..)
    | with_reducible refine TRes.All.imp (fun _ h => Moves.thenOp h (Within.mk rfl) ?_) (TRes.ofScan_writes ..)
    | with_reducible apply TRes.All.okIn
    | with_reducible apply TRes.All.fullIn
    | with_reducible apply TRes.All.badIn
    | with_reducible apply TRes.All.needIn
    | with_reducible apply TRes.All.askIn
    | with_reducible apply TRes.All.againIn
    | with_reducible apply TRes.All.ite
    | with_reducible refine TRes.All.andThen ?_ (fun _ _ _ => ?_)
    | with_reducible apply Moves.ite
    | (with_reducible apply upd_parts <;> first | exact .inl rfl | exact .inr rfl)
    | simp only [Moves.mk_eq]
    | with_reducible refine MovesMk.upd rfl (.inl rfl) (.inl rfl) ?_ ?_
    | (with_reducible apply Moves.foldl; intro _ _)
    | dsimp only
    | split
    | with_reducible refine Moves.thenOp (TRes.All.okGet (State.blockFails_writes ..) (by assumption)) (Within.mk rfl) ?_
    | with_reducible refine Moves.thenOp (TRes.All.fullGet (State.blockFails_writes ..) (by assumption)) (Within.mk rfl) ?_
    | with_reducible refine Moves.thenOp (TRes.All.badGet (State.blockFails_writes ..) (by assumption)) (Within.mk rfl) ?_
    | with_reducible refine Moves.thenOp (TRes.All.okGet (TRes.ofScan_writes ..) (by assumption)) (Within.mk rfl) ?_
    | with_reducible refine Moves.thenOp (TRes.All.fullGet (TRes.ofScan_writes ..) (by assumption)) (Within.mk rfl) ?_
    | with_reducible refine Moves.thenOp (TRes.All.badGet (TRes.ofScan_writes ..) (by assumption)) (Within.mk rfl) ?_

theorem State.skipBlocks_writes (s : State) (r : Route) (stage pos lo n : Nat) (sel : List Bool) (x0 : List BlockEnt) :
    TRes.All (fun u => Moves [.objs, .flash, .routes, .sched, .depot, .cache, .coh, .link, .dram, .err, .mgmt, .out] s u) (State.skipBlocks s r stage pos lo n sel x0) := by
  induction x0 generalizing s r stage pos lo n sel with
  | nil =>
    unfold State.skipBlocks
    repeat' first
      | with_reducible apply Moves.refl
      | assumption
      | ((with_reducible apply Within.mk); exact rfl)
      | with_reducible apply Moves.thenOp (State.oinc_writes ..)
      | with_reducible refine TRes.All.imp (fun _ h => Moves.thenOp h (Within.mk rfl) ?_) (State.verifySkipped_writes ..)
      | with_reducible apply Moves.thenOp (State.work_writes ..)
      | with_reducible apply TRes.All.okIn
      | with_reducible apply TRes.All.fullIn
      | with_reducible apply TRes.All.badIn
      | with_reducible apply TRes.All.needIn
      | with_reducible apply TRes.All.askIn
      | with_reducible apply TRes.All.againIn
      | with_reducible apply TRes.All.ite
      | with_reducible refine TRes.All.andThen ?_ (fun _ _ _ => ?_)
      | with_reducible apply Moves.ite
      | (with_reducible apply upd_parts <;> first | exact .inl rfl | exact .inr rfl)
      | simp only [Moves.mk_eq]
      | with_reducible refine MovesMk.upd rfl (.inl rfl) (.inl rfl) ?_ ?_
      | (with_reducible apply Moves.foldl; intro _ _)
      | dsimp only
      | split
      | with_reducible refine Moves.thenOp (TRes.All.okGet (State.verifySkipped_writes ..) (by assumption)) (Within.mk rfl) ?_
      | with_reducible refine Moves.thenOp (TRes.All.fullGet (State.verifySkipped_writes ..) (by assumption)) (Within.mk rfl) ?_
      | with_reducible refine Moves.thenOp (TRes.All.badGet (State.verifySkipped_writes ..) (by assumption)) (Within.mk rfl) ?_
  | cons a l ih =>
    unfold State.skipBlocks
    repeat' first
      | with_reducible apply Moves.refl
      | assumption
      | ((with_reducible apply Within.mk); exact rfl)
      | with_reducible apply Moves.thenOp (State.oinc_writes ..)
      | with_reducible refine TRes.All.imp (fun _ h => Moves.thenOp h (Within.mk rfl) ?_) (State.verifySkipped_writes ..)
      | with_reducible apply Moves.thenOp (State.work_writes ..)
      | with_reducible refine TRes.All.imp (fun _ h => Moves.thenOp h (Within.mk rfl) ?_) (ih ..)
      | with_reducible apply TRes.All.okIn
      | with_reducible apply TRes.All.fullIn
      | with_reducible apply TRes.All.badIn
      | with_reducible apply TRes.All.needIn
      | with_reducible apply TRes.All.askIn
      | with_reducible apply TRes.All.againIn
      | with_reducible apply TRes.All.ite
      | with_reducible refine TRes.All.andThen ?_ (fun _ _ _ => ?_)
      | with_reducible apply Moves.ite
      | (with_reducible apply upd_parts <;> first | exact .inl rfl | exact .inr rfl)
      | simp only [Moves.mk_eq]
      | with_reducible refine MovesMk.upd rfl (.inl rfl) (.inl rfl) ?_ ?_
      | (with_reducible apply Moves.foldl; intro _ _)
      | dsimp only
      | split
      | with_reducible refine Moves.thenOp (TRes.All.okGet (State.verifySkipped_writes ..) (by assumption)) (Within.mk rfl) ?_
      | with_reducible refine Moves.thenOp (TRes.All.fullGet (State.verifySkipped_writes ..) (by assumption)) (Within.mk rfl) ?_
      | with_reducible refine Moves.thenOp (TRes.All.badGet (State.verifySkipped_writes ..) (by assumption)) (Within.mk rfl) ?_

theorem State.skipColumns_writes (s : State) (r : Route) (stage lo n : Nat) (sel : List Bool) (x0 : List (Nat × Column)) :
    TRes.All (fun u => Moves [.objs, .flash, .routes, .sched, .depot, .cache, .coh, .link, .dram, .err, .mgmt, .out] s u) (State.skipColumns s r stage lo n sel x0) := by
  induction x0 generalizing s r stage lo n sel with
  | nil =>
    unfold State.skipColumns
    repeat' first
      | with_reducible apply Moves.refl
      | assumption
      | ((with_reducible apply Within.mk); exact rfl)
      | with_reducible refine TRes.All.imp (fun _ h => Moves.thenOp h (Within.mk rfl) ?_) (State.scanList_writes ..)
      | with_reducible refine TRes.All.imp (fun _ h => Moves.thenOp h (Within.mk rfl) ?_) (State.skipBlocks_writes ..)
      | with_reducible apply TRes.All.okIn
      | with_reducible apply TRes.All.fullIn
      | with_reducible apply TRes.All.badIn
      | with_reducible apply TRes.All.needIn
      | with_reducible apply TRes.All.askIn
      | with_reducible apply TRes.All.againIn
      | with_reducible apply TRes.All.ite
      | with_reducible refine TRes.All.andThen ?_ (fun _ _ _ => ?_)
      | with_reducible apply Moves.ite
      | (with_reducible apply upd_parts <;> first | exact .inl rfl | exact .inr rfl)
      | simp only [Moves.mk_eq]
      | with_reducible refine MovesMk.upd rfl (.inl rfl) (.inl rfl) ?_ ?_
      | (with_reducible apply Moves.foldl; intro _ _)
      | dsimp only
      | split
      | with_reducible refine Moves.thenOp (TRes.All.okGet (State.scanList_writes ..) (by assumption)) (Within.mk rfl) ?_
      | with_reducible refine Moves.thenOp (TRes.All.fullGet (State.scanList_writes ..) (by assumption)) (Within.mk rfl) ?_
      | with_reducible refine Moves.thenOp (TRes.All.badGet (State.scanList_writes ..) (by assumption)) (Within.mk rfl) ?_
      | with_reducible refine Moves.thenOp (TRes.All.okGet (State.skipBlocks_writes ..) (by assumption)) (Within.mk rfl) ?_
      | with_reducible refine Moves.thenOp (TRes.All.fullGet (State.skipBlocks_writes ..) (by assumption)) (Within.mk rfl) ?_
      | with_reducible refine Moves.thenOp (TRes.All.badGet (State.skipBlocks_writes ..) (by assumption)) (Within.mk rfl) ?_
  | cons a l ih =>
    unfold State.skipColumns
    repeat' first
      | with_reducible apply Moves.refl
      | assumption
      | ((with_reducible apply Within.mk); exact rfl)
      | with_reducible refine TRes.All.imp (fun _ h => Moves.thenOp h (Within.mk rfl) ?_) (State.scanList_writes ..)
      | with_reducible refine TRes.All.imp (fun _ h => Moves.thenOp h (Within.mk rfl) ?_) (State.skipBlocks_writes ..)
      | with_reducible refine TRes.All.imp (fun _ h => Moves.thenOp h (Within.mk rfl) ?_) (ih ..)
      | with_reducible apply TRes.All.okIn
      | with_reducible apply TRes.All.fullIn
      | with_reducible apply TRes.All.badIn
      | with_reducible apply TRes.All.needIn
      | with_reducible apply TRes.All.askIn
      | with_reducible apply TRes.All.againIn
      | with_reducible apply TRes.All.ite
      | with_reducible refine TRes.All.andThen ?_ (fun _ _ _ => ?_)
      | with_reducible apply Moves.ite
      | (with_reducible apply upd_parts <;> first | exact .inl rfl | exact .inr rfl)
      | simp only [Moves.mk_eq]
      | with_reducible refine MovesMk.upd rfl (.inl rfl) (.inl rfl) ?_ ?_
      | (with_reducible apply Moves.foldl; intro _ _)
      | dsimp only
      | split
      | with_reducible refine Moves.thenOp (TRes.All.okGet (State.scanList_writes ..) (by assumption)) (Within.mk rfl) ?_
      | with_reducible refine Moves.thenOp (TRes.All.fullGet (State.scanList_writes ..) (by assumption)) (Within.mk rfl) ?_
      | with_reducible refine Moves.thenOp (TRes.All.badGet (State.scanList_writes ..) (by assumption)) (Within.mk rfl) ?_
      | with_reducible refine Moves.thenOp (TRes.All.okGet (State.skipBlocks_writes ..) (by assumption)) (Within.mk rfl) ?_
      | with_reducible refine Moves.thenOp (TRes.All.fullGet (State.skipBlocks_writes ..) (by assumption)) (Within.mk rfl) ?_
      | with_reducible refine Moves.thenOp (TRes.All.badGet (State.skipBlocks_writes ..) (by assumption)) (Within.mk rfl) ?_

theorem State.zoneLists_writes (s : State) (st : Stage) (x2 : List (Nat × Column)) :
    TRes.All (fun t => Moves [.objs, .flash, .depot, .cache, .coh, .link, .dram, .err, .mgmt, .out] s t) (State.zoneLists s st x2) := by
  induction x2 generalizing s st with
  | nil =>
    unfold State.zoneLists
    repeat' first
      | with_reducible apply Moves.refl
      | with_reducible apply TRes.All.okIn
  | cons a l ih =>
    unfold State.zoneLists
    repeat' first
      | with_reducible apply Moves.refl
      | assumption
      | with_reducible refine TRes.All.imp (fun _ h => Moves.thenOp h (Within.mk rfl) ?_) (State.scanList_writes ..)
      | with_reducible refine TRes.All.imp (fun _ h => Moves.thenOp h (Within.mk rfl) ?_) (ih ..)
      | with_reducible refine TRes.All.andThen ?_ (fun _ _ _ => ?_)

theorem State.runProg_writes (s : State) (ctx : Nat) (m : FilterMachine) (p : FProg) :
    TRes.All (fun u => Moves [.objs, .routes, .scn, .cairn] s u) (State.runProg s ctx m p) := by
  unfold State.runProg
  repeat' first
    | with_reducible apply Moves.refl
    | assumption
    | ((with_reducible apply Within.mk); exact rfl)
    | with_reducible apply TRes.All.okIn
    | with_reducible apply TRes.All.fullIn
    | with_reducible apply TRes.All.badIn
    | with_reducible apply TRes.All.needIn
    | with_reducible apply TRes.All.askIn
    | with_reducible apply TRes.All.againIn
    | with_reducible apply TRes.All.ite
    | with_reducible refine TRes.All.andThen ?_ (fun _ _ _ => ?_)
    | with_reducible apply Moves.ite
    | (with_reducible apply upd_parts <;> first | exact .inl rfl | exact .inr rfl)
    | simp only [Moves.mk_eq]
    | with_reducible refine MovesMk.upd rfl (.inl rfl) (.inl rfl) ?_ ?_
    | (with_reducible apply Moves.foldl; intro _ _)
    | dsimp only
    | split
    | with_reducible refine Moves.thenOp (FRes.All.okGet (FilterMachine.run_writes ..) (by assumption)) (Within.mk rfl) ?_

theorem State.scanTask_writes (s : State) (r : Route) (stage : Nat) (ridge : Nat) (ctx : Nat) (seq : Nat) :
    TRes.All (fun t => Moves [.objs, .flash, .routes, .sched, .scn, .cairn, .summit, .content, .depot, .cache, .coh, .link, .hostMem, .dram, .err, .mgmt, .out] s t) (State.scanTask s r stage ridge ctx seq) := by
  unfold State.scanTask
  repeat' first
    | with_reducible apply Moves.refl
    | assumption
    | ((with_reducible apply Within.mk); exact rfl)
    | with_reducible refine TRes.All.imp (fun _ h => Moves.thenOp h (Within.mk rfl) ?_) (State.emitRope_writes ..)
    | with_reducible refine TRes.All.imp (fun _ h => Moves.thenOp h (Within.mk rfl) ?_) (State.runProg_writes ..)
    | with_reducible refine TRes.All.imp (fun _ h => Moves.thenOp h (Within.mk rfl) ?_) (State.scanColumns_writes ..)
    | with_reducible refine TRes.All.imp (fun _ h => Moves.thenOp h (Within.mk rfl) ?_) (State.skipBlocks_writes ..)
    | with_reducible refine TRes.All.imp (fun _ h => Moves.thenOp h (Within.mk rfl) ?_) (State.zoneLists_writes ..)
    | with_reducible refine TRes.All.imp (fun _ h => Moves.thenOp h (Within.mk rfl) ?_) (State.zonePass_writes ..)
    | with_reducible refine TRes.All.imp (fun _ h => Moves.thenOp h (Within.mk rfl) ?_) (State.skipColumns_writes ..)
    | with_reducible apply TRes.All.okIn
    | with_reducible apply TRes.All.fullIn
    | with_reducible apply TRes.All.badIn
    | with_reducible apply TRes.All.needIn
    | with_reducible apply TRes.All.askIn
    | with_reducible apply TRes.All.againIn
    | with_reducible apply TRes.All.ite
    | with_reducible refine TRes.All.andThen ?_ (fun _ _ _ => ?_)
    | with_reducible apply Moves.ite
    | (with_reducible apply upd_parts <;> first | exact .inl rfl | exact .inr rfl)
    | simp only [Moves.mk_eq]
    | with_reducible refine MovesMk.upd rfl (.inl rfl) (.inl rfl) ?_ ?_
    | (with_reducible apply Moves.foldl; intro _ _)
    | dsimp only
    | split
    | with_reducible refine Moves.thenOp (TRes.All.okGet (State.skipColumns_writes ..) (by assumption)) (Within.mk rfl) ?_
    | with_reducible refine Moves.thenOp (TRes.All.fullGet (State.skipColumns_writes ..) (by assumption)) (Within.mk rfl) ?_
    | with_reducible refine Moves.thenOp (TRes.All.badGet (State.skipColumns_writes ..) (by assumption)) (Within.mk rfl) ?_

theorem State.filterTask_writes (s : State) (r : Route) (stage : Nat) (ridge : Nat) (ctx : Nat) (rp : Rope) :
    TRes.All (fun t => Moves [.objs, .routes, .scn, .cairn, .summit, .content, .depot, .link, .hostMem] s t) (State.filterTask s r stage ridge ctx rp) := by
  unfold State.filterTask
  repeat' first
    | with_reducible apply Moves.refl
    | assumption
    | ((with_reducible apply Within.mk); exact rfl)
    | with_reducible refine TRes.All.imp (fun _ h => Moves.thenOp h (Within.mk rfl) ?_) (State.emitRope_writes ..)
    | with_reducible refine TRes.All.imp (fun _ h => Moves.thenOp h (Within.mk rfl) ?_) (State.runProg_writes ..)
    | with_reducible apply TRes.All.okIn
    | with_reducible apply TRes.All.fullIn
    | with_reducible apply TRes.All.badIn
    | with_reducible apply TRes.All.needIn
    | with_reducible apply TRes.All.askIn
    | with_reducible apply TRes.All.againIn
    | with_reducible apply TRes.All.ite
    | with_reducible refine TRes.All.andThen ?_ (fun _ _ _ => ?_)
    | with_reducible apply Moves.ite
    | (with_reducible apply upd_parts <;> first | exact .inl rfl | exact .inr rfl)
    | simp only [Moves.mk_eq]
    | with_reducible refine MovesMk.upd rfl (.inl rfl) (.inl rfl) ?_ ?_
    | (with_reducible apply Moves.foldl; intro _ _)
    | dsimp only
    | split

/-! ## StrandTask -/

theorem State.setStrand_writes (s : State) (ridge : Nat) (k : Nat) (t : StrandSt) :
    Moves [.strands] s (State.setStrand s ridge k t) := by
  unfold State.setStrand
  repeat' first
    | with_reducible apply Moves.refl
    | (with_reducible apply upd_parts <;> first | exact .inl rfl | exact .inr rfl)
    | simp only [Moves.mk_eq]
    | with_reducible refine MovesMk.upd rfl (.inl rfl) (.inl rfl) ?_ ?_

theorem State.stopStrand_writes (s : State) (ridge k : Nat) :
    Moves [.objs, .strands] s (State.stopStrand s ridge k) := by
  unfold State.stopStrand
  repeat' first
    | with_reducible apply Moves.refl
    | assumption
    | ((with_reducible apply Within.mk); exact rfl)
    | with_reducible apply Moves.thenOp (State.countWrong_writes ..)
    | with_reducible apply Moves.thenOp (State.setStrand_writes ..)
    | with_reducible apply Moves.ite
    | (with_reducible apply upd_parts <;> first | exact .inl rfl | exact .inr rfl)
    | simp only [Moves.mk_eq]
    | with_reducible refine MovesMk.upd rfl (.inl rfl) (.inl rfl) ?_ ?_
    | (with_reducible apply Moves.foldl; intro _ _)
    | dsimp only
    | split

theorem State.newOutput_writes (s : State) (k : RouteKey) (d : RouteDesc) (stage : Nat) (ridge : Nat) (keyForm : Nat) :
    TRes.All (fun t => Moves [.objs, .routes, .content, .depot, .link, .hostMem] s t) (State.newOutput s k d stage ridge keyForm) := by
  unfold State.newOutput
  repeat' first
    | with_reducible apply Moves.refl
    | assumption
    | ((with_reducible apply Within.mk); exact rfl)
    | with_reducible refine TRes.All.imp (fun _ h => Moves.thenOp h (Within.mk rfl) ?_) (State.storeContent_writes ..)
    | with_reducible apply TRes.All.okIn
    | with_reducible apply TRes.All.fullIn
    | with_reducible apply TRes.All.badIn
    | with_reducible apply TRes.All.needIn
    | with_reducible apply TRes.All.askIn
    | with_reducible apply TRes.All.againIn
    | with_reducible apply TRes.All.ite
    | with_reducible refine TRes.All.andThen ?_ (fun _ _ _ => ?_)
    | with_reducible apply Moves.ite
    | (with_reducible apply upd_parts <;> first | exact .inl rfl | exact .inr rfl)
    | simp only [Moves.mk_eq]
    | with_reducible refine MovesMk.upd rfl (.inl rfl) (.inl rfl) ?_ ?_
    | (with_reducible apply Moves.foldl; intro _ _)
    | dsimp only
    | split

theorem State.newScratch_writes (s : State) (k : RouteKey) (ridge : Nat) :
    TRes.All (fun t => Moves [.routes, .content] s t) (State.newScratch s k ridge) := by
  unfold State.newScratch
  repeat' first
    | with_reducible apply Moves.refl
    | with_reducible apply TRes.All.okIn
    | with_reducible apply TRes.All.fullIn
    | split
    | with_reducible refine Moves.thenOp (OptAll.stSnd (State.newObj_writes ..) (by assumption)) (Within.mk rfl) ?_

theorem State.startStrand_writes (s : State) (r : Route) (stage : Nat) (ridge : Nat) (k : Nat) (o : Nat) (seq : Nat) :
    TRes.All (fun t => Moves [.objs, .routes, .content, .depot, .strands, .link, .hostMem] s t) (State.startStrand s r stage ridge k o seq) := by
  unfold State.startStrand
  repeat' first
    | with_reducible apply Moves.refl
    | assumption
    | ((with_reducible apply Within.mk); exact rfl)
    | with_reducible refine TRes.All.imp (fun _ h => Moves.thenOp h (Within.mk rfl) ?_) (State.newOutput_writes ..)
    | with_reducible refine TRes.All.imp (fun _ h => Moves.thenOp h (Within.mk rfl) ?_) (State.newScratch_writes ..)
    | with_reducible apply Moves.thenOp (State.setStrand_writes ..)
    | with_reducible apply TRes.All.okIn
    | with_reducible apply TRes.All.fullIn
    | with_reducible apply TRes.All.badIn
    | with_reducible apply TRes.All.needIn
    | with_reducible apply TRes.All.askIn
    | with_reducible apply TRes.All.againIn
    | with_reducible apply TRes.All.ite
    | with_reducible refine TRes.All.andThen ?_ (fun _ _ _ => ?_)
    | with_reducible apply Moves.ite
    | (with_reducible apply upd_parts <;> first | exact .inl rfl | exact .inr rfl)
    | simp only [Moves.mk_eq]
    | with_reducible refine MovesMk.upd rfl (.inl rfl) (.inl rfl) ?_ ?_
    | (with_reducible apply Moves.foldl; intro _ _)
    | dsimp only
    | split

theorem State.closeOutputRope_writes (s : State) (r : Route) (t : StrandTask) (ridge : Nat) (count : Nat) :
    Moves [.objs, .routes, .summit, .content, .depot, .link, .hostMem] s ((State.closeOutputRope s r t ridge count).2) := by
  unfold State.closeOutputRope
  repeat' first
    | with_reducible apply Moves.refl
    | assumption
    | ((with_reducible apply Within.mk); exact rfl)
    | with_reducible apply Moves.thenOp (State.deposit_writes ..)
    | with_reducible apply Moves.thenOp (State.freeObj_writes ..)
    | with_reducible apply Moves.thenOp (State.putObj_writes ..)
    | with_reducible apply Moves.thenOp (State.spillWrite_writes ..)
    | with_reducible apply Moves.thenOp (State.releaseObj_writes ..)
    | with_reducible apply Moves.ite_snd
    | (with_reducible apply Moves.foldl_snd; intro _ _)
    | with_reducible apply Moves.ite
    | (with_reducible apply upd_parts <;> first | exact .inl rfl | exact .inr rfl)
    | simp only [Moves.mk_eq]
    | with_reducible refine MovesMk.upd rfl (.inl rfl) (.inl rfl) ?_ ?_
    | (with_reducible apply Moves.foldl; intro _ _)
    | dsimp only
    | split

/-! ## TaskEnd -/

theorem State.logTask_writes (s : State) (t : Task) (unit : UnitKind) (event : Nat) :
    Moves [.freeCount, .objs, .hostMem, .host] s (State.logTask s t unit event) := by
  unfold State.logTask
  repeat' first
    | with_reducible apply Moves.refl
    | ((with_reducible apply Within.mk); exact rfl)
    | with_reducible apply Moves.thenOp (State.logEvent_writes ..)

theorem State.mapRunning_writes (s : State) (ridge : Nat) (u : UnitKind) (ctx : Nat) (f : Running → Running) :
    Moves [.sched] s (State.mapRunning s ridge u ctx f) := by
  unfold State.mapRunning
  repeat' first
    | with_reducible apply Moves.refl
    | assumption
    | ((with_reducible apply Within.mk); exact rfl)
    | with_reducible apply Moves.ite
    | (with_reducible apply upd_parts <;> first | exact .inl rfl | exact .inr rfl)
    | simp only [Moves.mk_eq]
    | with_reducible refine MovesMk.upd rfl (.inl rfl) (.inl rfl) ?_ ?_
    | (with_reducible apply Moves.foldl; intro _ _)
    | dsimp only
    | split

theorem State.endRunning_writes (s : State) (ridge : Nat) (u : UnitKind) (ctx : Nat) :
    Moves [.sched] s (State.endRunning s ridge u ctx) := by
  unfold State.endRunning
  repeat' first
    | with_reducible apply Moves.refl
    | assumption
    | ((with_reducible apply Within.mk); exact rfl)
    | with_reducible apply Moves.ite
    | (with_reducible apply upd_parts <;> first | exact .inl rfl | exact .inr rfl)
    | simp only [Moves.mk_eq]
    | with_reducible refine MovesMk.upd rfl (.inl rfl) (.inl rfl) ?_ ?_
    | (with_reducible apply Moves.foldl; intro _ _)
    | dsimp only
    | split

theorem State.releaseInput_writes (s : State) (t : Task) :
    Moves [.objs, .routes, .content, .depot, .link] s (State.releaseInput s t) := by
  unfold State.releaseInput
  repeat' first
    | with_reducible apply Moves.refl
    | ((with_reducible apply Within.mk); exact rfl)
    | with_reducible apply Moves.thenOp (State.releaseObj_writes ..)
    | with_reducible apply Moves.ite
    | split

theorem State.finishTask_writes (s : State) (ridge : Nat) (u : UnitKind) (ctx : Nat) :
    Moves [.freeCount, .objs, .routes, .sched, .content, .depot, .link, .hostMem, .host] s (State.finishTask s ridge u ctx) := by
  unfold State.finishTask
  repeat' first
    | with_reducible apply Moves.refl
    | assumption
    | ((with_reducible apply Within.mk); exact rfl)
    | with_reducible apply Moves.thenOp (State.endRunning_writes ..)
    | with_reducible apply Moves.thenOp (State.free_writes ..)
    | with_reducible apply Moves.thenOp (State.logTask_writes ..)
    | with_reducible apply Moves.thenOp (State.oinc_writes ..)
    | with_reducible apply Moves.thenOp (State.pushTask_writes ..)
    | with_reducible apply Moves.thenOp (State.readySeals_writes ..)
    | with_reducible apply Moves.thenOp (State.releaseInput_writes ..)
    | with_reducible apply Moves.thenOp (State.countStalls_writes ..)
    | with_reducible apply Moves.thenOp (State.mapRunning_writes ..)
    | with_reducible apply Moves.ite
    | (with_reducible apply upd_parts <;> first | exact .inl rfl | exact .inr rfl)
    | simp only [Moves.mk_eq]
    | with_reducible refine MovesMk.upd rfl (.inl rfl) (.inl rfl) ?_ ?_
    | (with_reducible apply Moves.foldl; intro _ _)
    | dsimp only
    | split

theorem State.flushOutputs_writes (s : State) (ridge : Nat) (u : UnitKind) (ctx : Nat) :
    Moves [.routes, .sched] s (State.flushOutputs s ridge u ctx) := by
  unfold State.flushOutputs
  repeat' first
    | with_reducible apply Moves.refl
    | assumption
    | ((with_reducible apply Within.mk); exact rfl)
    | with_reducible apply Moves.thenOp (State.mapRunning_writes ..)
    | with_reducible apply Moves.thenOp (State.pushTask_writes ..)
    | with_reducible apply Moves.ite
    | (with_reducible apply upd_parts <;> first | exact .inl rfl | exact .inr rfl)
    | simp only [Moves.mk_eq]
    | with_reducible refine MovesMk.upd rfl (.inl rfl) (.inl rfl) ?_ ?_
    | (with_reducible apply Moves.foldl; intro _ _)
    | dsimp only
    | split

/-! ## Units -/

theorem State.unitPut_writes (s : State) (ph : Nat) (k : RouteKey) (l : Nat) (bytes : List Byte) :
    Moves [.cache, .coh, .link, .out] s (State.unitPut s ph k l bytes) := by
  unfold State.unitPut
  repeat' first
    | with_reducible apply Moves.refl
    | assumption
    | ((with_reducible apply Within.mk); exact rfl)
    | with_reducible apply Moves.thenOp (State.mapL2_writes ..)
    | with_reducible apply Moves.thenOp (State.request_writes ..)
    | with_reducible apply Moves.thenOp (State.window_writes ..)
    | with_reducible apply Moves.ite
    | (with_reducible apply upd_parts <;> first | exact .inl rfl | exact .inr rfl)
    | simp only [Moves.mk_eq]
    | with_reducible refine MovesMk.upd rfl (.inl rfl) (.inl rfl) ?_ ?_
    | (with_reducible apply Moves.foldl; intro _ _)
    | dsimp only
    | split
    | with_reducible refine Moves.thenOp (Moves.of_snd (State.request_writes ..) (by assumption)) (Within.mk rfl) ?_
    | with_reducible refine Moves.thenOp (Moves.of_snd (State.window_writes ..) (by assumption)) (Within.mk rfl) ?_

theorem State.journalEach_writes (s : State) (ph : Nat) (x0 : List (Nat × List Byte)) :
    OptAll (fun a => Moves [.depot, .cache, .coh, .link, .dram, .out] s a) (State.journalEach s ph x0) := by
  induction x0 generalizing s ph with
  | nil =>
    unfold State.journalEach
    repeat' first
      | with_reducible apply Moves.refl
      | assumption
      | ((with_reducible apply Within.mk); exact rfl)
      | with_reducible refine OptAll.imp (fun _ h => Moves.thenOp h (Within.mk rfl) ?_) (State.gangStep_writes ..)
      | with_reducible apply OptAll.some'
      | with_reducible apply OptAll.none'
      | with_reducible apply OptAll.ite
      | with_reducible apply Moves.ite
      | (with_reducible apply upd_parts <;> first | exact .inl rfl | exact .inr rfl)
      | simp only [Moves.mk_eq]
      | with_reducible refine MovesMk.upd rfl (.inl rfl) (.inl rfl) ?_ ?_
      | (with_reducible apply Moves.foldl; intro _ _)
      | dsimp only
      | split
      | with_reducible refine Moves.thenOp (OptAll.st (State.gangStep_writes ..) (by assumption)) (Within.mk rfl) ?_
  | cons a l ih =>
    unfold State.journalEach
    repeat' first
      | with_reducible apply Moves.refl
      | assumption
      | ((with_reducible apply Within.mk); exact rfl)
      | with_reducible refine OptAll.imp (fun _ h => Moves.thenOp h (Within.mk rfl) ?_) (State.gangStep_writes ..)
      | with_reducible refine OptAll.imp (fun _ h => Moves.thenOp h (Within.mk rfl) ?_) (ih ..)
      | with_reducible apply OptAll.some'
      | with_reducible apply OptAll.none'
      | with_reducible apply OptAll.ite
      | with_reducible apply Moves.ite
      | (with_reducible apply upd_parts <;> first | exact .inl rfl | exact .inr rfl)
      | simp only [Moves.mk_eq]
      | with_reducible refine MovesMk.upd rfl (.inl rfl) (.inl rfl) ?_ ?_
      | (with_reducible apply Moves.foldl; intro _ _)
      | dsimp only
      | split
      | with_reducible refine Moves.thenOp (OptAll.st (State.gangStep_writes ..) (by assumption)) (Within.mk rfl) ?_

theorem State.spillTable_writes (s : State) (o : Nat) :
    Moves [.hostMem] s (State.spillTable s o) := by
  unfold State.spillTable
  repeat' first
    | with_reducible apply Moves.refl
    | assumption
    | ((with_reducible apply Within.mk); exact rfl)
    | with_reducible apply Moves.thenOp (State.hostWrite_writes ..)
    | with_reducible apply Moves.ite
    | (with_reducible apply upd_parts <;> first | exact .inl rfl | exact .inr rfl)
    | simp only [Moves.mk_eq]
    | with_reducible refine MovesMk.upd rfl (.inl rfl) (.inl rfl) ?_ ?_
    | (with_reducible apply Moves.foldl; intro _ _)
    | dsimp only
    | split

theorem State.unitReads_writes (s : State) (ph : Nat) (k : RouteKey) (reads : List Nat) :
    Moves [.objs, .flash, .depot, .cache, .coh, .link, .dram, .err, .mgmt, .out] s (State.unitReads s ph k reads) := by
  unfold State.unitReads
  repeat' first
    | with_reducible apply Moves.refl
    | assumption
    | ((with_reducible apply Within.mk); exact rfl)
    | with_reducible refine State.accessed_writes (Within.mk rfl) ?_
    | with_reducible apply Moves.thenOp (State.l2Read_writes ..)
    | with_reducible apply Moves.ite
    | (with_reducible apply upd_parts <;> first | exact .inl rfl | exact .inr rfl)
    | simp only [Moves.mk_eq]
    | with_reducible refine MovesMk.upd rfl (.inl rfl) (.inl rfl) ?_ ?_
    | (with_reducible apply Moves.foldl; intro _ _)
    | dsimp only
    | split

theorem State.unitWrites_writes (s : State) (ph : Nat) (k : RouteKey) (parts fulls : List Nat) :
    Moves [.objs, .flash, .depot, .cache, .coh, .link, .dram, .err, .mgmt, .out] s (State.unitWrites s ph k parts fulls) := by
  unfold State.unitWrites
  repeat' first
    | with_reducible apply Moves.refl
    | assumption
    | ((with_reducible apply Within.mk); exact rfl)
    | with_reducible refine State.accessed_writes (Within.mk rfl) ?_
    | with_reducible apply Moves.thenOp (State.l2Write_writes ..)
    | with_reducible apply Moves.thenOp (State.lineFresh_writes ..)
    | with_reducible apply Moves.thenOp (State.setTag_writes ..)
    | with_reducible apply Moves.ite
    | (with_reducible apply upd_parts <;> first | exact .inl rfl | exact .inr rfl)
    | simp only [Moves.mk_eq]
    | with_reducible refine MovesMk.upd rfl (.inl rfl) (.inl rfl) ?_ ?_
    | (with_reducible apply Moves.foldl; intro _ _)
    | dsimp only
    | split

theorem State.unitTraffic_writes (s0 s : State) (r : Route) (t : Task) :
    ExcAll (fun a => Moves [.objs, .flash, .depot, .cache, .coh, .link, .hostMem, .dram, .err, .mgmt, .out] s a) (State.unitTraffic s0 s r t) := by
  unfold State.unitTraffic
  repeat' first
    | with_reducible apply Moves.refl
    | assumption
    | ((with_reducible apply Within.mk); exact rfl)
    | with_reducible apply Moves.thenOp (State.setTag_writes ..)
    | with_reducible apply Moves.thenOp (State.spillTable_writes ..)
    | with_reducible apply Moves.thenOp (State.unitPut_writes ..)
    | with_reducible apply Moves.thenOp (State.unitReads_writes ..)
    | with_reducible apply Moves.thenOp (State.unitWrites_writes ..)
    | with_reducible apply ExcAll.ok'
    | with_reducible apply ExcAll.error'
    | with_reducible apply ExcAll.ite
    | with_reducible apply Moves.ite
    | (with_reducible apply upd_parts <;> first | exact .inl rfl | exact .inr rfl)
    | simp only [Moves.mk_eq]
    | with_reducible refine MovesMk.upd rfl (.inl rfl) (.inl rfl) ?_ ?_
    | (with_reducible apply Moves.foldl; intro _ _)
    | dsimp only
    | split
    | with_reducible refine Moves.thenOp (OptAll.st (State.journalEach_writes ..) (by assumption)) (Within.mk rfl) ?_

/-! ## Sched -/

theorem State.pickTenant_writes (s : State) (lvl : Nat) (cands : List Task) (ptr : Nat) (x4 : Nat) (x5 : Nat) :
    OptAll (fun (a : Task × State) => Moves [.sched] s (a).2) (State.pickTenant s lvl cands ptr x4 x5) := by
  induction x5 generalizing s lvl cands ptr x4 with
  | zero =>
    unfold State.pickTenant
    repeat' (with_reducible apply OptAll.none')
  | succ n ih =>
    unfold State.pickTenant
    repeat' first
      | with_reducible apply Moves.refl
      | with_reducible refine OptAll.imp (fun _ h => Moves.thenOp h (Within.mk rfl) ?_) (ih ..)
      | with_reducible apply OptAll.some'
      | (with_reducible apply upd_parts <;> first | exact .inl rfl | exact .inr rfl)
      | simp only [Moves.mk_eq]
      | with_reducible refine MovesMk.upd rfl (.inl rfl) (.inl rfl) ?_ ?_
      | split

theorem State.pickTask_writes (s : State) (ridge : Nat) (u : UnitKind) :
    OptAll (fun (a : Task × State) => Moves [.sched] s (a).2) (State.pickTask s ridge u) := by
  unfold State.pickTask
  repeat' first
    | with_reducible apply Moves.refl
    | with_reducible refine OptAll.imp (fun _ h => Moves.thenOp h (Within.mk rfl) ?_) (State.pickTenant_writes ..)

theorem State.ropeTask_writes (s : State) (r : Route) (t : Task) (rp : Rope) (ctx : Nat) :
    TRes.All (fun u => Moves [.freeCount, .objs, .routes, .scn, .cairn, .summit, .content, .depot, .link, .hostMem] s u) (State.ropeTask s r t rp ctx) := by
  unfold State.ropeTask
  dsimp only
  repeat' with_reducible apply TRes.All.ite
  · exact TRes.All.imp (fun _ h => Moves.thenOp h (Within.mk rfl) (Moves.refl ..)) (State.filterTask_writes ..)
  · exact TRes.All.imp (fun _ h => Moves.thenOp h (Within.mk rfl) (Moves.refl ..)) (State.buildTask_writes ..)
  · exact TRes.All.imp (fun _ h => Moves.thenOp h (Within.mk rfl) (Moves.refl ..)) (State.probeTask_writes ..)
  · exact TRes.All.imp (fun _ h => Moves.thenOp h (Within.mk rfl) (Moves.refl ..)) (State.aggTask_writes ..)
  · exact TRes.All.imp (fun _ h => Moves.thenOp h (Within.mk rfl) (Moves.refl ..)) (State.sortTask_writes ..)
  · exact TRes.All.imp (fun _ h => Moves.thenOp h (Within.mk rfl) (Moves.refl ..)) (State.mergeTask_writes ..)
  · exact TRes.All.imp (fun _ h => Moves.thenOp h (Within.mk rfl) (Moves.refl ..)) (State.exchangeTask_writes ..)
  · exact TRes.All.okIn (Moves.refl ..)

theorem State.performTask_writes (s : State) (r : Route) (t : Task) (ctx : Nat) :
    TRes.All (fun t => Moves [.freeCount, .objs, .flash, .routes, .sched, .scn, .cairn, .summit, .content, .depot, .strands, .cache, .coh, .link, .hostMem, .dram, .err, .mgmt, .out] s t) (State.performTask s r t ctx) := by
  unfold State.performTask
  repeat' first
    | with_reducible apply Moves.refl
    | assumption
    | ((with_reducible apply Within.mk); exact rfl)
    | with_reducible refine TRes.All.imp (fun _ h => Moves.thenOp h (Within.mk rfl) ?_) (State.aggRelease_writes ..)
    | with_reducible refine TRes.All.imp (fun _ h => Moves.thenOp h (Within.mk rfl) ?_) (State.readRope_writes ..)
    | with_reducible refine TRes.All.imp (fun _ h => Moves.thenOp h (Within.mk rfl) ?_) (State.ropeTask_writes ..)
    | with_reducible refine TRes.All.imp (fun _ h => Moves.thenOp h (Within.mk rfl) ?_) (State.scanTask_writes ..)
    | with_reducible refine TRes.All.imp (fun _ h => Moves.thenOp h (Within.mk rfl) ?_) (State.sealTask_writes ..)
    | with_reducible refine TRes.All.imp (fun _ h => Moves.thenOp h (Within.mk rfl) ?_) (State.sortRelease_writes ..)
    | with_reducible refine TRes.All.imp (fun _ h => Moves.thenOp h (Within.mk rfl) ?_) (State.startStrand_writes ..)
    | with_reducible apply TRes.All.okIn
    | with_reducible apply TRes.All.fullIn
    | with_reducible apply TRes.All.badIn
    | with_reducible apply TRes.All.needIn
    | with_reducible apply TRes.All.askIn
    | with_reducible apply TRes.All.againIn
    | with_reducible apply TRes.All.ite
    | with_reducible refine TRes.All.andThen ?_ (fun _ _ _ => ?_)
    | with_reducible apply Moves.ite
    | (with_reducible apply upd_parts <;> first | exact .inl rfl | exact .inr rfl)
    | simp only [Moves.mk_eq]
    | with_reducible refine MovesMk.upd rfl (.inl rfl) (.inl rfl) ?_ ?_
    | (with_reducible apply Moves.foldl; intro _ _)
    | dsimp only
    | split
    | with_reducible refine Moves.thenOp (TRes.All.okGet (State.startStrand_writes ..) (by assumption)) (Within.mk rfl) ?_
    | with_reducible refine Moves.thenOp (TRes.All.fullGet (State.startStrand_writes ..) (by assumption)) (Within.mk rfl) ?_
    | with_reducible refine Moves.thenOp (TRes.All.badGet (State.startStrand_writes ..) (by assumption)) (Within.mk rfl) ?_

theorem TRes.traffic_writes {l : List Field} {s : State} {x : TRes (List Task)} (s0 : State) (r : Route) (t : Task)
    (hl : Within [.objs, .flash, .depot, .cache, .coh, .link, .hostMem, .dram, .err, .mgmt, .out] l)
    (h : TRes.All (fun u => Moves l s u) x) : TRes.All (fun u => Moves l s u) (TRes.traffic x s0 r t) := by
  unfold TRes.traffic
  split
  · with_reducible refine TRes.All.ite ?_ ?_
    · exact h
    · split
      · exact TRes.All.okIn (Moves.thenOp (ExcAll.st (State.unitTraffic_writes ..) (by assumption)) hl
          (TRes.All.okGet h rfl))
      · exact TRes.All.againIn
      · exact TRes.All.againIn
  · exact h

theorem State.askLines_writes (s : State) (ls : List Nat) :
    Moves [.coh, .link, .out] s (State.askLines s ls) := by
  unfold State.askLines
  repeat' first
    | with_reducible apply Moves.refl
    | ((with_reducible apply Within.mk); exact rfl)
    | with_reducible apply Moves.thenOp (State.request_writes ..)
    | with_reducible apply Moves.ite
    | (with_reducible apply Moves.foldl; intro _ _)

theorem State.askFor_writes (s : State) (k : RouteKey) (ridge : Nat) (ls : List Nat) :
    Moves [.coh, .link, .out] s (State.askFor s k ridge ls) := by
  unfold State.askFor
  repeat' first
    | with_reducible apply Moves.refl
    | assumption
    | ((with_reducible apply Within.mk); exact rfl)
    | with_reducible apply Moves.thenOp (State.askFill_writes ..)
    | with_reducible apply Moves.thenOp (State.askLines_writes ..)
    | with_reducible apply Moves.ite
    | (with_reducible apply upd_parts <;> first | exact .inl rfl | exact .inr rfl)
    | simp only [Moves.mk_eq]
    | with_reducible refine MovesMk.upd rfl (.inl rfl) (.inl rfl) ?_ ?_
    | (with_reducible apply Moves.foldl; intro _ _)
    | dsimp only
    | split

theorem State.again_writes (s : State) (k : RouteKey) (w : Again) :
    Moves [.objs, .sched, .coh, .link, .out] s (State.again s k w) := by
  unfold State.again
  repeat' first
    | with_reducible apply Moves.refl
    | assumption
    | ((with_reducible apply Within.mk); exact rfl)
    | with_reducible apply Moves.thenOp (State.askLines_writes ..)
    | with_reducible apply Moves.thenOp (State.countStall_writes ..)
    | with_reducible apply Moves.thenOp (State.askFill_writes ..)
    | with_reducible apply Moves.ite
    | (with_reducible apply upd_parts <;> first | exact .inl rfl | exact .inr rfl)
    | simp only [Moves.mk_eq]
    | with_reducible refine MovesMk.upd rfl (.inl rfl) (.inl rfl) ?_ ?_
    | (with_reducible apply Moves.foldl; intro _ _)
    | dsimp only
    | split

theorem State.stopOnRidge_writes (s : State) (k : RouteKey) (ridge : Nat) :
    Moves [.objs, .sched, .scn, .strands] s (State.stopOnRidge s k ridge) := by
  unfold State.stopOnRidge
  repeat' first
    | with_reducible apply Moves.refl
    | assumption
    | ((with_reducible apply Within.mk); exact rfl)
    | with_reducible apply Moves.thenOp (State.setStrand_writes ..)
    | with_reducible apply Moves.thenOp (State.stopStrand_writes ..)
    | with_reducible apply Moves.thenOp (State.countStalls_writes ..)
    | with_reducible apply Moves.ite
    | (with_reducible apply upd_parts <;> first | exact .inl rfl | exact .inr rfl)
    | simp only [Moves.mk_eq]
    | with_reducible refine MovesMk.upd rfl (.inl rfl) (.inl rfl) ?_ ?_
    | (with_reducible apply Moves.foldl; intro _ _)
    | dsimp only
    | split

theorem State.taskFaults_writes (s : State) (t : Task) (u : UnitKind) (faults : List (Nat × Nat)) :
    Moves [.objs, .routes, .sched, .scn, .strands, .err, .mgmt, .out] s (State.taskFaults s t u faults) := by
  unfold State.taskFaults
  repeat' first
    | with_reducible apply Moves.refl
    | ((with_reducible apply Within.mk); exact rfl)
    | with_reducible apply Moves.thenOp (State.oinc_writes ..)
    | with_reducible apply Moves.thenOp (State.routeFault_writes ..)
    | with_reducible apply Moves.thenOp (State.stopOnRidge_writes ..)
    | with_reducible apply Moves.ite
    | (with_reducible apply Moves.foldl; intro _ _)

theorem State.dispatchTask_writes {l : List Field} {s : State} {r : Route} {t : Task} {u : UnitKind} {ctx : Nat} {s0 : State}
    (hl : Within [.freeCount, .objs, .flash, .routes, .sched, .scn, .cairn, .summit, .content, .depot, .strands, .cache, .coh, .link, .hostMem, .host, .dram, .err, .mgmt, .out] l) (h0 : Moves l s0 s) : Moves l s0 (State.dispatchTask s r t u ctx s0) := by
  have hp := TRes.All.imp (fun _ h => h0.trans (h.mono (Within.trans (Within.mk rfl) hl)))
    (TRes.traffic_writes s r t (Within.mk rfl) (State.performTask_writes s r t ctx))
  unfold State.dispatchTask
  have hb (f : Field) (h : ([.freeCount, .objs, .flash, .routes, .sched, .scn, .cairn, .summit, .content, .depot, .strands, .cache, .coh, .link, .hostMem, .host, .dram, .err, .mgmt, .out] : List Field).contains f = true) : l.contains f = true :=
    List.contains_iff_mem.mpr (within.mem hl.out (List.contains_iff_mem.mp h))
  split
  next h =>
    refine Moves.thenOp (State.pumpOutbound_writes ..) (Within.trans (Within.mk rfl) hl) ?_
    refine Moves.thenOp (State.fillSources_writes ..) (Within.trans (Within.mk rfl) hl) ?_
    refine Moves.thenOp (State.logTask_writes ..) (Within.trans (Within.mk rfl) hl) ?_
    refine Moves.thenOp (State.settleAsk_writes ..) (Within.trans (Within.mk rfl) hl) ?_
    simp only [Moves.mk_eq]
    refine MovesMk.upd rfl (.inl rfl) (.inl rfl) ?_ (TRes.All.okGet hp h)
    with_reducible apply upd_parts <;> first | exact .inr rfl | exact .inl (hb _ rfl)
  next h => exact Moves.thenOp (State.askFor_writes ..) (Within.trans (Within.mk rfl) hl) (Moves.refl ..)
  next h => exact Moves.thenOp (State.again_writes ..) (Within.trans (Within.mk rfl) hl) (Moves.refl ..)
  next h => exact Moves.thenOp (State.askPage_writes ..) (Within.trans (Within.mk rfl) hl) (Moves.refl ..)
  next h =>
    refine Moves.thenOp (State.suspendRoute_writes ..) (Within.trans (Within.mk rfl) hl) ?_
    exact Moves.thenOp (State.logTask_writes ..) (Within.trans (Within.mk rfl) hl) (TRes.All.fullGet hp h)
  next h =>
    refine Moves.thenOp (State.fillSources_writes ..) (Within.trans (Within.mk rfl) hl) ?_
    refine Moves.thenOp (State.taskFaults_writes ..) (Within.trans (Within.mk rfl) hl) ?_
    refine Moves.thenOp (State.logTask_writes ..) (Within.trans (Within.mk rfl) hl) ?_
    simp only [Moves.mk_eq]
    refine MovesMk.upd rfl (.inl rfl) (.inl rfl) ?_ (TRes.All.badGet hp h)
    with_reducible apply upd_parts <;> first | exact .inr rfl | exact .inl (hb _ rfl)

theorem State.dispatch_writes (s : State) (ridge : Nat) (u : UnitKind) :
    Moves [.freeCount, .objs, .flash, .routes, .sched, .scn, .cairn, .summit, .content, .depot, .strands, .cache, .coh, .link, .hostMem, .host, .dram, .err, .mgmt, .out] s (State.dispatch s ridge u) := by
  unfold State.dispatch
  repeat' first
    | with_reducible apply Moves.refl
    | ((with_reducible apply Within.mk); exact rfl)
    | with_reducible refine State.dispatchTask_writes (Within.mk rfl) ?_
    | with_reducible apply Moves.thenOp (State.oinc_writes ..)
    | with_reducible apply Moves.ite
    | split
    | with_reducible refine Moves.thenOp (OptAll.stSnd (State.pickTask_writes ..) (by assumption)) (Within.mk rfl) ?_

theorem execTaskDispatch_writes (ridge : Nat) (unit : UnitKind) (s : State) :
    ResAll (fun t => Moves [.freeCount, .objs, .flash, .routes, .sched, .scn, .cairn, .summit, .content, .depot, .strands, .cache, .coh, .link, .hostMem, .host, .dram, .err, .mgmt, .out] s t) (execTaskDispatch ridge unit s) := by
  unfold execTaskDispatch
  repeat' first
    | with_reducible apply Moves.refl
    | ((with_reducible apply Within.mk); exact rfl)
    | with_reducible apply Moves.thenOp (State.dispatch_writes ..)
    | with_reducible apply ResAll.next'

theorem execTaskDone_writes (ridge : Nat) (unit : UnitKind) (ctx : Nat) (s : State) :
    ResAll (fun t => Moves [.freeCount, .objs, .routes, .sched, .scn, .content, .depot, .link, .hostMem, .host] s t) (execTaskDone ridge unit ctx s) := by
  unfold execTaskDone
  repeat' first
    | with_reducible apply Moves.refl
    | ((with_reducible apply Within.mk); exact rfl)
    | with_reducible apply Moves.thenOp (State.fillSources_writes ..)
    | with_reducible apply Moves.thenOp (State.finishTask_writes ..)
    | with_reducible apply ResAll.next'
    | with_reducible apply ResAll.ite
    | with_reducible apply Moves.ite
    | (with_reducible apply upd_parts <;> first | exact .inl rfl | exact .inr rfl)
    | simp only [Moves.mk_eq]
    | with_reducible refine MovesMk.upd rfl (.inl rfl) (.inl rfl) ?_ ?_

theorem execJoinSeal_writes (k : RouteKey) (stage ridge : Nat) (s : State) :
    ResAll (fun u => Moves [.freeCount, .objs, .flash, .routes, .sched, .scn, .cairn, .summit, .content, .depot, .strands, .cache, .coh, .link, .hostMem, .host, .dram, .err, .mgmt, .out] s u) (execJoinSeal k stage ridge s) := by
  unfold execJoinSeal
  repeat' first
    | with_reducible apply Moves.refl
    | assumption
    | ((with_reducible apply Within.mk); exact rfl)
    | with_reducible apply Moves.thenOp (State.dispatch_writes ..)
    | with_reducible apply Moves.thenOp (State.fillSources_writes ..)
    | with_reducible apply Moves.thenOp (State.finishTask_writes ..)
    | with_reducible apply ResAll.next'
    | with_reducible apply ResAll.ite
    | with_reducible apply Moves.ite
    | (with_reducible apply upd_parts <;> first | exact .inl rfl | exact .inr rfl)
    | simp only [Moves.mk_eq]
    | with_reducible refine MovesMk.upd rfl (.inl rfl) (.inl rfl) ?_ ?_
    | (with_reducible apply Moves.foldl; intro _ _)
    | dsimp only
    | split

/-! ## Summit -/

theorem State.swapSlots_writes (s : State) (n : Nat) :
    Moves [.summit] s (State.swapSlots s n) := by
  unfold State.swapSlots
  repeat' first
    | with_reducible apply Moves.refl
    | ((with_reducible apply Within.mk); exact rfl)
    | with_reducible apply Moves.thenOp (State.setSlot_writes ..)
    | (with_reducible apply Moves.foldl; intro _ _)

theorem State.takeEntries_writes (s : State) (n : Nat) (p : SlotEntry → Bool) :
    Moves [.summit] s (State.takeEntries s n p) := by
  unfold State.takeEntries
  repeat' first
    | with_reducible apply Moves.refl
    | assumption
    | ((with_reducible apply Within.mk); exact rfl)
    | with_reducible apply Moves.ite
    | (with_reducible apply upd_parts <;> first | exact .inl rfl | exact .inr rfl)
    | simp only [Moves.mk_eq]
    | with_reducible refine MovesMk.upd rfl (.inl rfl) (.inl rfl) ?_ ?_
    | (with_reducible apply Moves.foldl; intro _ _)
    | dsimp only
    | split

theorem State.holdEntries_writes (s : State) :
    Moves [.objs, .summit] s (State.holdEntries s) := by
  unfold State.holdEntries
  repeat' first
    | with_reducible apply Moves.refl
    | assumption
    | ((with_reducible apply Within.mk); exact rfl)
    | with_reducible apply Moves.thenOp (State.oinc_writes ..)
    | with_reducible apply Moves.ite
    | (with_reducible apply upd_parts <;> first | exact .inl rfl | exact .inr rfl)
    | simp only [Moves.mk_eq]
    | with_reducible refine MovesMk.upd rfl (.inl rfl) (.inl rfl) ?_ ?_
    | (with_reducible apply Moves.foldl; intro _ _)
    | dsimp only
    | split

theorem State.sendPartials_writes (s : State) (n : Nat) :
    Moves [.objs, .routes, .summit, .content, .depot, .link] s (State.sendPartials s n) := by
  unfold State.sendPartials
  repeat' first
    | with_reducible apply Moves.refl
    | ((with_reducible apply Within.mk); exact rfl)
    | with_reducible apply Moves.thenOp (State.releaseObj_writes ..)
    | with_reducible apply Moves.thenOp (State.takeEntries_writes ..)
    | (with_reducible apply upd_parts <;> first | exact .inl rfl | exact .inr rfl)
    | simp only [Moves.mk_eq]
    | with_reducible refine MovesMk.upd rfl (.inl rfl) (.inl rfl) ?_ ?_
    | (with_reducible apply Moves.foldl; intro _ _)

theorem State.stagingRoom_writes (s : State) (k : RouteKey) (more : Nat) :
    TRes.All (fun u => Moves [.objs, .routes, .content, .depot] s u) (State.stagingRoom s k more) := by
  unfold State.stagingRoom
  split
  · exact TRes.All.okIn (Moves.refl ..)
  · dsimp only
    split
    · exact TRes.All.fullIn (Moves.refl ..)
    next r _ _ o u h =>
      have hm : Moves [.objs, .routes, .content, .depot] s u := by
        split at h
        · cases h; exact Moves.refl ..
        · cases hn : s.newObj k.tenant clsStaging 0 (some k) (.bytes []) [] with
          | none => rw [hn] at h; cases h
          | some p =>
            rw [hn] at h
            cases h
            exact Moves.thenOp (State.work_writes ..) (Within.mk rfl)
              ((OptAll.get (State.newObj_writes ..) hn).mono (Within.mk rfl))
      refine TRes.All.andThen (TRes.ofAlloc_all ?_) (fun _ _ h => TRes.All.okIn h)
      exact (State.ensureBytes_writes ..).imp (fun _ h => Moves.thenOp h (Within.mk rfl) hm)

theorem State.storeChains_writes (s : State) (o n : Nat) (es : List SlotEntry) :
    OptAll (fun a => Moves [.content, .depot, .coh, .dram] s a) (State.storeChains s o n es) := by
  unfold State.storeChains
  split
  · exact OptAll.some' (Moves.refl ..)
  · exact OptAll.map (OptAll.imp (fun _ h => Moves.thenOp (State.putObj_writes ..) (Within.mk rfl)
      (h.mono (Within.mk rfl))) (State.journalLines_writes ..))

theorem State.appendEntries_writes (s : State) (k : RouteKey) (n : Nat) (es : List SlotEntry) :
    Moves [.objs, .routes, .summit] s (State.appendEntries s k n es) := by
  unfold State.appendEntries
  repeat' first
    | with_reducible apply Moves.refl
    | assumption
    | ((with_reducible apply Within.mk); exact rfl)
    | with_reducible apply Moves.thenOp (State.mapSpan_writes ..)
    | with_reducible apply Moves.thenOp (State.oinc_writes ..)
    | with_reducible apply Moves.thenOp (State.takeEntries_writes ..)
    | with_reducible apply Moves.thenOp (State.work_writes ..)
    | with_reducible apply Moves.ite
    | (with_reducible apply upd_parts <;> first | exact .inl rfl | exact .inr rfl)
    | simp only [Moves.mk_eq]
    | with_reducible refine MovesMk.upd rfl (.inl rfl) (.inl rfl) ?_ ?_
    | (with_reducible apply Moves.foldl; intro _ _)
    | dsimp only
    | split

theorem State.mergePitch_writes (s : State) (k : RouteKey) (n : Nat) :
    Moves [.freeCount, .objs, .flash, .routes, .sched, .scn, .cairn, .summit, .content, .depot, .strands, .cache, .coh, .link, .hostMem, .host, .dram, .err, .mgmt, .out] s (State.mergePitch s k n) := by
  unfold State.mergePitch
  repeat' first
    | with_reducible apply Moves.refl
    | assumption
    | ((with_reducible apply Within.mk); exact rfl)
    | with_reducible apply Moves.thenOp (State.mapSpan_writes ..)
    | with_reducible apply Moves.thenOp (State.oinc_writes ..)
    | with_reducible apply Moves.thenOp (State.takeEntries_writes ..)
    | with_reducible apply Moves.thenOp (State.work_writes ..)
    | with_reducible apply Moves.thenOp (State.appendEntries_writes ..)
    | with_reducible apply Moves.thenOp (State.askPage_writes ..)
    | with_reducible apply Moves.thenOp (State.countStall_writes ..)
    | with_reducible apply Moves.thenOp (State.suspendRoute_writes ..)
    | with_reducible apply Moves.thenOp (State.settleAsk_writes ..)
    | with_reducible apply Moves.ite
    | (with_reducible apply upd_parts <;> first | exact .inl rfl | exact .inr rfl)
    | simp only [Moves.mk_eq]
    | with_reducible refine MovesMk.upd rfl (.inl rfl) (.inl rfl) ?_ ?_
    | (with_reducible apply Moves.foldl; intro _ _)
    | dsimp only
    | split
    | with_reducible refine Moves.thenOp (TRes.All.okGet (State.stagingRoom_writes ..) (by assumption)) (Within.mk rfl) ?_
    | with_reducible refine Moves.thenOp (TRes.All.fullGet (State.stagingRoom_writes ..) (by assumption)) (Within.mk rfl) ?_
    | with_reducible refine Moves.thenOp (TRes.All.badGet (State.stagingRoom_writes ..) (by assumption)) (Within.mk rfl) ?_
    | with_reducible refine Moves.thenOp (OptAll.st (State.storeChains_writes ..) (by assumption)) (Within.mk rfl) ?_

theorem State.holdPages_writes (s : State) :
    Moves [.freeCount, .objs, .flash, .routes, .sched, .scn, .cairn, .summit, .content, .depot, .strands, .cache, .coh, .link, .hostMem, .host, .dram, .err, .mgmt, .out] s (State.holdPages s) := by
  unfold State.holdPages
  repeat' first
    | with_reducible apply Moves.refl
    | assumption
    | ((with_reducible apply Within.mk); exact rfl)
    | with_reducible refine Moves.getD ?_ ?_
    | with_reducible apply OptAll.map
    | with_reducible refine OptAll.imp (fun _ h => Moves.thenOp (State.settleAsk_writes ..) (Within.mk rfl) (Moves.thenOp h (Within.mk rfl) ?_)) (State.storeChains_writes ..)
    | with_reducible apply Moves.thenOp (State.askPage_writes ..)
    | with_reducible apply Moves.thenOp (State.countStall_writes ..)
    | with_reducible apply Moves.thenOp (State.suspendRoute_writes ..)
    | with_reducible apply Moves.thenOp (State.settleAsk_writes ..)
    | with_reducible apply Moves.ite
    | (with_reducible apply upd_parts <;> first | exact .inl rfl | exact .inr rfl)
    | simp only [Moves.mk_eq]
    | with_reducible refine MovesMk.upd rfl (.inl rfl) (.inl rfl) ?_ ?_
    | (with_reducible apply Moves.foldl; intro _ _)
    | dsimp only
    | split
    | with_reducible refine Moves.thenOp (TRes.All.okGet (State.stagingRoom_writes ..) (by assumption)) (Within.mk rfl) ?_
    | with_reducible refine Moves.thenOp (TRes.All.fullGet (State.stagingRoom_writes ..) (by assumption)) (Within.mk rfl) ?_
    | with_reducible refine Moves.thenOp (TRes.All.badGet (State.stagingRoom_writes ..) (by assumption)) (Within.mk rfl) ?_
    | with_reducible refine Moves.thenOp (OptAll.st (State.storeChains_writes ..) (by assumption)) (Within.mk rfl) ?_

theorem State.hiddenObj_writes (s : State) (t : Nat) (cls : Nat) (k : RouteKey) :
    OptAll (fun (a : Nat × State) => Moves [.content] s (a).2) (State.hiddenObj s t cls k) := by
  unfold State.hiddenObj
  repeat' first
    | with_reducible apply Moves.refl
    | assumption
    | ((with_reducible apply Within.mk); exact rfl)
    | with_reducible apply Moves.thenOp (State.putObj_writes ..)
    | with_reducible apply OptAll.some'
    | with_reducible apply OptAll.none'
    | with_reducible apply OptAll.ite
    | with_reducible apply Moves.ite
    | (with_reducible apply upd_parts <;> first | exact .inl rfl | exact .inr rfl)
    | simp only [Moves.mk_eq]
    | with_reducible refine MovesMk.upd rfl (.inl rfl) (.inl rfl) ?_ ?_
    | (with_reducible apply Moves.foldl; intro _ _)
    | dsimp only
    | split

theorem State.setPublish_writes (s : State) (k : RouteKey) (p : Option Publish) :
    Moves [.routes] s (State.setPublish s k p) := by
  unfold State.setPublish
  repeat' first
    | with_reducible apply Moves.refl
    | assumption
    | ((with_reducible apply Within.mk); exact rfl)
    | with_reducible apply Moves.thenOp (State.updRoute_writes ..)
    | with_reducible apply Moves.ite
    | (with_reducible apply upd_parts <;> first | exact .inl rfl | exact .inr rfl)
    | simp only [Moves.mk_eq]
    | with_reducible refine MovesMk.upd rfl (.inl rfl) (.inl rfl) ?_ ?_
    | (with_reducible apply Moves.foldl; intro _ _)
    | dsimp only
    | split

theorem State.growObj_writes (s : State) (o index : Nat) (n : Nat) :
    Moves [.objs, .content, .depot] s ((State.growObj s o index n).1) := by
  induction n generalizing s index with
  | zero => exact Moves.refl ..
  | succ n ih =>
    have he := State.ensurePage_writes s o index
    unfold State.growObj
    split
    next h => exact Moves.thenOp (ih ..) (Within.mk rfl) (Alloc.All.okGet he h)
    next h => exact Moves.refl ..
    next h => exact Alloc.All.failGet he h

theorem State.publishObj_writes (s : State) (k : RouteKey) (have_ : Option Nat) (cls n : Nat) :
    Moves [.objs, .content, .depot, .link] s ((State.publishObj s k have_ cls n).1) := by
  unfold State.publishObj
  split
  · exact Moves.refl ..
  · split
    · exact Moves.refl ..
    next o u h =>
      have hm : Moves [.objs, .content, .depot, .link] s u := by
        split at h
        · cases h; exact Moves.refl ..
        · exact (OptAll.get (State.hiddenObj_writes ..) h).mono (Within.mk rfl)
      have he : Moves [.objs, .content, .depot, .link] s (u.growObj o 0 (ceilDiv n (clsPage cls))).1 :=
        Moves.thenOp (State.growObj_writes ..) (Within.mk rfl) hm
      split
      next h => rw [h] at he; exact he
      next v _ _ h =>
        rw [h] at he
        exact Moves.thenOp (State.settleAsk_writes v k.tenant k.id (fun c => c == cls)) (Within.mk rfl) he

theorem State.publishPages_writes (s : State) (k : RouteKey) (p : Publish) :
    Moves [.objs, .content, .depot, .link] s ((State.publishPages s k p).1) := by
  unfold State.publishPages
  repeat' first
    | with_reducible apply Moves.refl
    | assumption
    | ((with_reducible apply Within.mk); exact rfl)
    | with_reducible apply OptAll.some'
    | with_reducible apply Moves.ite_fst
    | with_reducible refine OptAll.stSnd ?_ (by assumption)
    | with_reducible refine OptAll.imp (fun _ h => Moves.thenOp h (Within.mk rfl) ?_) (State.hiddenObj_writes ..)
    | with_reducible apply Moves.thenOp (State.publishObj_writes ..)
    | with_reducible apply Moves.ite
    | (with_reducible apply upd_parts <;> first | exact .inl rfl | exact .inr rfl)
    | simp only [Moves.mk_eq]
    | with_reducible refine MovesMk.upd rfl (.inl rfl) (.inl rfl) ?_ ?_
    | (with_reducible apply Moves.foldl; intro _ _)
    | dsimp only
    | split
    | with_reducible refine Moves.thenOp (Alloc.All.okGet (State.ensureBytes_writes ..) (by assumption)) (Within.mk rfl) ?_
    | with_reducible refine Moves.thenOp (Alloc.All.failGet (State.ensureBytes_writes ..) (by assumption)) (Within.mk rfl) ?_
    | with_reducible refine Moves.thenOp (Moves.of_head (State.publishObj_writes ..) (by assumption)) (Within.mk rfl) ?_

theorem State.publishStep_writes (s : State) (k : RouteKey) (p : Publish) (pitch : Nat) :
    Moves [.objs, .routes, .cairn, .content, .depot, .link, .hostMem, .host, .out] s (State.publishStep s k p pitch) := by
  unfold State.publishStep
  repeat' first
    | with_reducible apply Moves.refl
    | assumption
    | ((with_reducible apply Within.mk); exact rfl)
    | with_reducible apply Moves.thenOp (State.complete_writes ..)
    | with_reducible apply Moves.thenOp (State.oinc_writes ..)
    | with_reducible apply Moves.thenOp (State.publishPages_writes ..)
    | with_reducible apply Moves.thenOp (State.setPublish_writes ..)
    | with_reducible apply Moves.thenOp (State.askPage_writes ..)
    | with_reducible apply Moves.ite
    | (with_reducible apply upd_parts <;> first | exact .inl rfl | exact .inr rfl)
    | simp only [Moves.mk_eq]
    | with_reducible refine MovesMk.upd rfl (.inl rfl) (.inl rfl) ?_ ?_
    | (with_reducible apply Moves.foldl; intro _ _)
    | dsimp only
    | split

theorem State.startPublication_writes (s : State) (k : RouteKey) (pitch : Nat) :
    Moves [.objs, .routes, .cairn, .content, .depot, .link, .hostMem, .host, .err, .mgmt, .out] s (State.startPublication s k pitch) := by
  unfold State.startPublication
  repeat' first
    | with_reducible apply Moves.refl
    | assumption
    | ((with_reducible apply Within.mk); exact rfl)
    | with_reducible apply Moves.thenOp (State.publishStep_writes ..)
    | with_reducible apply Moves.thenOp (State.routeFault_writes ..)
    | with_reducible apply Moves.ite
    | (with_reducible apply upd_parts <;> first | exact .inl rfl | exact .inr rfl)
    | simp only [Moves.mk_eq]
    | with_reducible refine MovesMk.upd rfl (.inl rfl) (.inl rfl) ?_ ?_
    | (with_reducible apply Moves.foldl; intro _ _)
    | dsimp only
    | split

theorem State.showRegion_writes (s : State) (handle : Nat) (p : Publish) :
    Moves [.objs, .content, .depot] s (State.showRegion s handle p) := by
  unfold State.showRegion
  repeat' first
    | with_reducible apply Moves.refl
    | assumption
    | ((with_reducible apply Within.mk); exact rfl)
    | with_reducible apply Moves.thenOp (State.freePage_writes ..)
    | with_reducible apply Moves.thenOp (State.oinc_writes ..)
    | with_reducible apply Moves.thenOp (State.putObj_writes ..)
    | with_reducible apply Moves.ite
    | (with_reducible apply upd_parts <;> first | exact .inl rfl | exact .inr rfl)
    | simp only [Moves.mk_eq]
    | with_reducible refine MovesMk.upd rfl (.inl rfl) (.inl rfl) ?_ ?_
    | (with_reducible apply Moves.foldl; intro _ _)
    | dsimp only
    | split

theorem State.dropPublish_writes (s : State) (p : Publish) :
    Moves [.objs, .content, .depot, .link] s (State.dropPublish s p) := by
  unfold State.dropPublish
  repeat' first
    | with_reducible apply Moves.refl
    | assumption
    | ((with_reducible apply Within.mk); exact rfl)
    | with_reducible apply Moves.thenOp (State.freeObj_writes ..)
    | with_reducible apply Moves.ite
    | (with_reducible apply upd_parts <;> first | exact .inl rfl | exact .inr rfl)
    | simp only [Moves.mk_eq]
    | with_reducible refine MovesMk.upd rfl (.inl rfl) (.inl rfl) ?_ ?_
    | (with_reducible apply Moves.foldl; intro _ _)
    | dsimp only
    | split

/-! ## Spans -/

theorem State.logRoute_writes (s : State) (k : RouteKey) (event : Nat) :
    Moves [.freeCount, .objs, .hostMem, .host] s (State.logRoute s k event) := by
  unfold State.logRoute
  repeat' first
    | with_reducible apply Moves.refl
    | ((with_reducible apply Within.mk); exact rfl)
    | with_reducible apply Moves.thenOp (State.logEvent_writes ..)
    | split

theorem State.startTasks_writes (s : State) (k : RouteKey) :
    Moves [.routes, .sched] s (State.startTasks s k) := by
  unfold State.startTasks
  repeat' first
    | with_reducible apply Moves.refl
    | ((with_reducible apply Within.mk); exact rfl)
    | with_reducible apply Moves.thenOp (State.fillSources_writes ..)
    | with_reducible apply Moves.thenOp (State.pushTask_writes ..)
    | with_reducible apply Moves.thenOp (State.readySeals_writes ..)
    | with_reducible apply Moves.ite
    | (with_reducible apply Moves.foldl; intro _ _)
    | split

theorem State.openSpan_writes (s : State) (k : RouteKey) (pitch : Nat) :
    Moves [.freeCount, .objs, .routes, .sched, .hostMem, .host] s (State.openSpan s k pitch) := by
  unfold State.openSpan
  repeat' first
    | with_reducible apply Moves.refl
    | assumption
    | ((with_reducible apply Within.mk); exact rfl)
    | with_reducible apply Moves.thenOp (State.logRoute_writes ..)
    | with_reducible apply Moves.thenOp (State.startTasks_writes ..)
    | with_reducible apply Moves.thenOp (State.updRoute_writes ..)
    | with_reducible apply Moves.ite
    | (with_reducible apply upd_parts <;> first | exact .inl rfl | exact .inr rfl)
    | simp only [Moves.mk_eq]
    | with_reducible refine MovesMk.upd rfl (.inl rfl) (.inl rfl) ?_ ?_
    | (with_reducible apply Moves.foldl; intro _ _)
    | dsimp only
    | split

theorem State.restartSpan_writes (s : State) (k : RouteKey) :
    Moves [.routes, .sched] s (State.restartSpan s k) := by
  unfold State.restartSpan
  repeat' first
    | with_reducible apply Moves.refl
    | assumption
    | ((with_reducible apply Within.mk); exact rfl)
    | with_reducible apply Moves.thenOp (State.startTasks_writes ..)
    | with_reducible apply Moves.thenOp (State.updRoute_writes ..)
    | with_reducible apply Moves.ite
    | (with_reducible apply upd_parts <;> first | exact .inl rfl | exact .inr rfl)
    | simp only [Moves.mk_eq]
    | with_reducible refine MovesMk.upd rfl (.inl rfl) (.inl rfl) ?_ ?_
    | (with_reducible apply Moves.foldl; intro _ _)
    | dsimp only
    | split

theorem State.abandonSpan_writes (s : State) (k : RouteKey) :
    Moves [.objs, .flash, .routes, .sched, .scn, .cairn, .summit, .content, .depot, .strands, .cache, .coh, .link, .dram, .err, .mgmt, .out] s (State.abandonSpan s k) := by
  unfold State.abandonSpan
  repeat' first
    | with_reducible apply Moves.refl
    | assumption
    | ((with_reducible apply Within.mk); exact rfl)
    | with_reducible apply Moves.thenOp (State.discardSpan_writes ..)
    | with_reducible apply Moves.thenOp (State.mapSpan_writes ..)
    | with_reducible apply Moves.ite
    | (with_reducible apply upd_parts <;> first | exact .inl rfl | exact .inr rfl)
    | simp only [Moves.mk_eq]
    | with_reducible refine MovesMk.upd rfl (.inl rfl) (.inl rfl) ?_ ?_
    | (with_reducible apply Moves.foldl; intro _ _)
    | dsimp only
    | split

theorem State.faultReplay_writes (s : State) (k : RouteKey) :
    Moves [.freeCount, .objs, .flash, .routes, .sched, .scn, .cairn, .summit, .content, .depot, .strands, .cache, .coh, .link, .hostMem, .host, .dram, .err, .mgmt, .out] s (State.faultReplay s k) := by
  unfold State.faultReplay
  repeat' first
    | with_reducible apply Moves.refl
    | assumption
    | ((with_reducible apply Within.mk); exact rfl)
    | with_reducible apply Moves.thenOp (State.abandonSpan_writes ..)
    | with_reducible apply Moves.thenOp (State.endAt_writes ..)
    | with_reducible apply Moves.thenOp (State.logRoute_writes ..)
    | with_reducible apply Moves.thenOp (State.oinc_writes ..)
    | with_reducible apply Moves.thenOp (State.sendBelay_writes ..)
    | with_reducible apply Moves.thenOp (State.sendVerdict_writes ..)
    | with_reducible apply Moves.thenOp (State.updRoute_writes ..)
    | with_reducible apply Moves.ite
    | (with_reducible apply upd_parts <;> first | exact .inl rfl | exact .inr rfl)
    | simp only [Moves.mk_eq]
    | with_reducible refine MovesMk.upd rfl (.inl rfl) (.inl rfl) ?_ ?_
    | (with_reducible apply Moves.foldl; intro _ _)
    | dsimp only
    | split

theorem State.replayAll_writes (s : State) :
    Moves [.freeCount, .objs, .flash, .routes, .sched, .scn, .cairn, .summit, .content, .depot, .strands, .cache, .coh, .link, .hostMem, .host, .dram, .err, .mgmt, .out] s (State.replayAll s) := by
  unfold State.replayAll
  repeat' first
    | with_reducible apply Moves.refl
    | ((with_reducible apply Within.mk); exact rfl)
    | with_reducible apply Moves.thenOp (State.faultReplay_writes ..)
    | (with_reducible apply Moves.foldl; intro _ _)

theorem State.settleReleases_writes (s : State) (k : RouteKey) :
    Moves [.objs, .routes, .content, .depot, .link] s (State.settleReleases s k) := by
  unfold State.settleReleases
  repeat' first
    | with_reducible apply Moves.refl
    | ((with_reducible apply Within.mk); exact rfl)
    | with_reducible apply Moves.thenOp (State.endRelease_writes ..)
    | with_reducible apply Moves.ite
    | (with_reducible apply Moves.foldl; intro _ _)
    | split

theorem State.commitSpan_writes (s : State) (k : RouteKey) :
    Moves [.freeCount, .objs, .routes, .cairn, .content, .depot, .coh, .link, .hostMem, .host] s (State.commitSpan s k) := by
  unfold State.commitSpan
  repeat' first
    | with_reducible apply Moves.refl
    | assumption
    | ((with_reducible apply Within.mk); exact rfl)
    | with_reducible apply Moves.thenOp (State.depotBelay_writes ..)
    | with_reducible apply Moves.thenOp (State.logRoute_writes ..)
    | with_reducible apply Moves.thenOp (State.returnQuota_writes ..)
    | with_reducible apply Moves.thenOp (State.settleReleases_writes ..)
    | with_reducible apply Moves.thenOp (State.updRoute_writes ..)
    | with_reducible apply Moves.thenOp (State.noteUse_writes ..)
    | with_reducible apply Moves.thenOp (State.refreshDir_writes ..)
    | with_reducible apply Moves.ite
    | (with_reducible apply upd_parts <;> first | exact .inl rfl | exact .inr rfl)
    | simp only [Moves.mk_eq]
    | with_reducible refine MovesMk.upd rfl (.inl rfl) (.inl rfl) ?_ ?_
    | (with_reducible apply Moves.foldl; intro _ _)
    | dsimp only
    | split

theorem State.endRoute_writes (s : State) (k : RouteKey) (status : Nat) (tick : Nat) (record : Bool) :
    Moves [.freeCount, .objs, .flash, .routes, .sched, .scn, .cairn, .summit, .content, .depot, .strands, .cache, .coh, .link, .hostMem, .host, .dram, .err, .mgmt, .out] s (State.endRoute s k status tick record) := by
  unfold State.endRoute
  repeat' first
    | with_reducible apply Moves.refl
    | ((with_reducible apply Within.mk); exact rfl)
    | with_reducible apply Moves.thenOp (State.closeOut_writes ..)
    | with_reducible apply Moves.thenOp (State.discardSpan_writes ..)
    | with_reducible apply Moves.thenOp (State.dropPublish_writes ..)
    | with_reducible apply Moves.ite
    | split

theorem State.publishRoute_writes (s : State) (k : RouteKey) (tick : Nat) :
    Moves [.freeCount, .objs, .routes, .sched, .cairn, .summit, .content, .depot, .link, .hostMem, .host, .out] s (State.publishRoute s k tick) := by
  unfold State.publishRoute
  repeat' first
    | with_reducible apply Moves.refl
    | ((with_reducible apply Within.mk); exact rfl)
    | with_reducible apply Moves.thenOp (State.closeOut_writes ..)
    | with_reducible apply Moves.thenOp (State.freeObj_writes ..)
    | with_reducible apply Moves.thenOp (State.showRegion_writes ..)
    | split

theorem State.endAtTick_writes (s : State) (tick : Nat) (d : Nat) (k : RouteKey) :
    Moves [.freeCount, .objs, .flash, .routes, .sched, .scn, .cairn, .summit, .content, .depot, .strands, .cache, .coh, .link, .hostMem, .host, .dram, .err, .mgmt, .out] s (State.endAtTick s tick d k) := by
  unfold State.endAtTick
  repeat' first
    | with_reducible apply Moves.refl
    | assumption
    | ((with_reducible apply Within.mk); exact rfl)
    | with_reducible apply Moves.thenOp (State.discardSpan_writes ..)
    | with_reducible apply Moves.thenOp (State.endRoute_writes ..)
    | with_reducible apply Moves.thenOp (State.publishRoute_writes ..)
    | with_reducible apply Moves.thenOp (State.send_writes ..)
    | with_reducible apply Moves.thenOp (State.updRoute_writes ..)
    | with_reducible apply Moves.ite
    | (with_reducible apply upd_parts <;> first | exact .inl rfl | exact .inr rfl)
    | simp only [Moves.mk_eq]
    | with_reducible refine MovesMk.upd rfl (.inl rfl) (.inl rfl) ?_ ?_
    | (with_reducible apply Moves.foldl; intro _ _)
    | dsimp only
    | split

theorem State.openAtPeers_writes (s : State) (r : Route) :
    Moves [.link, .out] s (State.openAtPeers s r) := by
  unfold State.openAtPeers
  repeat' first
    | with_reducible apply Moves.refl
    | assumption
    | ((with_reducible apply Within.mk); exact rfl)
    | with_reducible apply Moves.thenOp (State.sendSvc_writes ..)
    | with_reducible apply Moves.ite
    | (with_reducible apply upd_parts <;> first | exact .inl rfl | exact .inr rfl)
    | simp only [Moves.mk_eq]
    | with_reducible refine MovesMk.upd rfl (.inl rfl) (.inl rfl) ?_ ?_
    | (with_reducible apply Moves.foldl; intro _ _)
    | dsimp only
    | split

theorem State.resumeRoutes_writes (s : State) :
    Moves [.freeCount, .objs, .routes, .content, .depot, .link, .hostMem, .host, .out] s (State.resumeRoutes s) := by
  unfold State.resumeRoutes
  repeat' first
    | with_reducible apply Moves.refl
    | assumption
    | ((with_reducible apply Within.mk); exact rfl)
    | with_reducible apply Moves.thenOp (State.logRoute_writes ..)
    | with_reducible apply Moves.thenOp (State.updRoute_writes ..)
    | with_reducible apply Moves.thenOp (State.openAtPeers_writes ..)
    | with_reducible apply Moves.ite
    | (with_reducible apply upd_parts <;> first | exact .inl rfl | exact .inr rfl)
    | simp only [Moves.mk_eq]
    | with_reducible refine MovesMk.upd rfl (.inl rfl) (.inl rfl) ?_ ?_
    | (with_reducible apply Moves.foldl; intro _ _)
    | dsimp only
    | split

theorem State.losePeer_writes (s : State) (dev : Nat) :
    Moves [.freeCount, .objs, .flash, .routes, .sched, .scn, .cairn, .summit, .content, .depot, .strands, .cache, .coh, .link, .hostMem, .host, .dram, .err, .mgmt, .out] s (State.losePeer s dev) := by
  unfold State.losePeer
  repeat' first
    | with_reducible apply Moves.refl
    | assumption
    | ((with_reducible apply Within.mk); exact rfl)
    | with_reducible apply Moves.thenOp (State.endAt_writes ..)
    | with_reducible apply Moves.thenOp (State.faultReplay_writes ..)
    | with_reducible apply Moves.thenOp (State.updRoute_writes ..)
    | with_reducible apply Moves.ite
    | (with_reducible apply upd_parts <;> first | exact .inl rfl | exact .inr rfl)
    | simp only [Moves.mk_eq]
    | with_reducible refine MovesMk.upd rfl (.inl rfl) (.inl rfl) ?_ ?_
    | (with_reducible apply Moves.foldl; intro _ _)
    | dsimp only
    | split

/-! ## Routes -/

theorem State.addRoute_writes (s : State) (r : Route) :
    Moves [.routes, .sched, .strands] s (State.addRoute s r) := by
  unfold State.addRoute
  repeat' first
    | with_reducible apply Moves.refl
    | assumption
    | ((with_reducible apply Within.mk); exact rfl)
    | with_reducible apply Moves.ite
    | (with_reducible apply upd_parts <;> first | exact .inl rfl | exact .inr rfl)
    | simp only [Moves.mk_eq]
    | with_reducible refine MovesMk.upd rfl (.inl rfl) (.inl rfl) ?_ ?_
    | (with_reducible apply Moves.foldl; intro _ _)
    | dsimp only
    | split

theorem State.finishCopies_writes (s : State) :
    Moves [.routes, .sched, .strands, .link] s (State.finishCopies s) := by
  unfold State.finishCopies
  repeat' first
    | with_reducible apply Moves.refl
    | ((with_reducible apply Within.mk); exact rfl)
    | with_reducible apply Moves.thenOp (State.addRoute_writes ..)
    | (with_reducible apply upd_parts <;> first | exact .inl rfl | exact .inr rfl)
    | simp only [Moves.mk_eq]
    | with_reducible refine MovesMk.upd rfl (.inl rfl) (.inl rfl) ?_ ?_
    | (with_reducible apply Moves.foldl; intro _ _)
    | split

theorem State.copyLineArrives_writes (s : State) (k : RouteKey) (off status : Nat) (data : List Byte) :
    Moves [.routes, .sched, .strands, .link, .out] s (State.copyLineArrives s k off status data) := by
  unfold State.copyLineArrives
  repeat' first
    | with_reducible apply Moves.refl
    | assumption
    | ((with_reducible apply Within.mk); exact rfl)
    | with_reducible apply Moves.thenOp (State.finishCopies_writes ..)
    | with_reducible apply Moves.thenOp (State.send_writes ..)
    | with_reducible apply Moves.ite
    | (with_reducible apply upd_parts <;> first | exact .inl rfl | exact .inr rfl)
    | simp only [Moves.mk_eq]
    | with_reducible refine MovesMk.upd rfl (.inl rfl) (.inl rfl) ?_ ?_
    | (with_reducible apply Moves.foldl; intro _ _)
    | dsimp only
    | split

end Sys2Proof.Machine
end

