-- ==== Sys2Proof/Laws/FrameCoh.lean ====
section
/-! SUPPORT. What each function may write: coherence, the image walk, retreat and resets. -/

set_option Elab.async false
set_option linter.all false
namespace Sys2Proof.Machine
open Sys2Proof

/-! ## Coherence -/

theorem State.replyTo_writes (s : State) (m : CohMsg) (op : Nat) (f : CohMsg → CohMsg) :
    Moves [.link, .out] s (State.replyTo s m op f) := by
  unfold State.replyTo
  repeat' first
    | with_reducible apply Moves.refl
    | assumption
    | ((with_reducible apply Within.mk); exact rfl)
    | with_reducible apply Moves.thenOp (State.sendCoh_writes ..)
    | with_reducible apply Moves.ite
    | (with_reducible apply upd_parts <;> first | exact .inl rfl | exact .inr rfl)
    | simp only [Moves.mk_eq]
    | with_reducible refine MovesMk.upd rfl (.inl rfl) (.inl rfl) ?_ ?_
    | (with_reducible apply Moves.foldl; intro _ _)
    | dsimp only
    | split

theorem State.grantTokens_writes (s : State) (home : Nat) (x2 : Nat) :
    Moves [.coh, .link, .out] s (State.grantTokens s home x2) := by
  induction x2 generalizing s home with
  | zero =>
    unfold State.grantTokens
    repeat' (with_reducible apply Moves.refl)
  | succ n ih =>
    unfold State.grantTokens
    repeat' first
      | with_reducible apply Moves.refl
      | ((with_reducible apply Within.mk); exact rfl)
      | with_reducible apply Moves.thenOp (State.sendCoh_writes ..)
      | with_reducible refine Moves.thenOp (ih ..) (Within.mk rfl) ?_
      | with_reducible apply Moves.ite
      | (with_reducible apply upd_parts <;> first | exact .inl rfl | exact .inr rfl)
      | simp only [Moves.mk_eq]
      | with_reducible refine MovesMk.upd rfl (.inl rfl) (.inl rfl) ?_ ?_
      | split

theorem State.dropToken_writes (s : State) (home : Nat) (src : Nat) (token : Nat) :
    Moves [.coh] s (State.dropToken s home src token) := by
  unfold State.dropToken
  repeat' first
    | with_reducible apply Moves.refl
    | assumption
    | ((with_reducible apply Within.mk); exact rfl)
    | with_reducible apply Moves.ite
    | (with_reducible apply upd_parts <;> first | exact .inl rfl | exact .inr rfl)
    | simp only [Moves.mk_eq]
    | with_reducible refine MovesMk.upd rfl (.inl rfl) (.inl rfl) ?_ ?_
    | (with_reducible apply Moves.foldl; intro _ _)
    | dsimp only
    | split

theorem State.retryReq_writes (s : State) (m : CohMsg) :
    Moves [.objs, .coh, .link, .out] s (State.retryReq s m) := by
  unfold State.retryReq
  repeat' first
    | with_reducible apply Moves.refl
    | assumption
    | ((with_reducible apply Within.mk); exact rfl)
    | with_reducible apply Moves.thenOp (State.oinc_writes ..)
    | with_reducible apply Moves.thenOp (State.replyTo_writes ..)
    | with_reducible apply Moves.ite
    | (with_reducible apply upd_parts <;> first | exact .inl rfl | exact .inr rfl)
    | simp only [Moves.mk_eq]
    | with_reducible refine MovesMk.upd rfl (.inl rfl) (.inl rfl) ?_ ?_
    | (with_reducible apply Moves.foldl; intro _ _)
    | dsimp only
    | split

theorem State.backInvalidate_writes (s : State) (k : Nat) (e : DirEnt) (resume : Option CohMsg) :
    Moves [.objs, .coh, .link, .out] s (State.backInvalidate s k e resume) := by
  unfold State.backInvalidate
  repeat' first
    | with_reducible apply Moves.refl
    | assumption
    | ((with_reducible apply Within.mk); exact rfl)
    | with_reducible apply Moves.thenOp (State.newTxn_writes ..)
    | with_reducible apply Moves.thenOp (State.oinc_writes ..)
    | with_reducible apply Moves.thenOp (State.openTxn_writes ..)
    | with_reducible apply Moves.thenOp (State.sendSnoop_writes ..)
    | with_reducible apply Moves.thenOp (State.setDir_writes ..)
    | with_reducible apply Moves.ite
    | (with_reducible apply upd_parts <;> first | exact .inl rfl | exact .inr rfl)
    | simp only [Moves.mk_eq]
    | with_reducible refine MovesMk.upd rfl (.inl rfl) (.inl rfl) ?_ ?_
    | (with_reducible apply Moves.foldl; intro _ _)
    | dsimp only
    | split
    | with_reducible refine Moves.thenOp (Moves.of_snd (State.newTxn_writes ..) (by assumption)) (Within.mk rfl) ?_
    | with_reducible refine Moves.thenOp (Moves.of_snd (State.openTxn_writes ..) (by assumption)) (Within.mk rfl) ?_

theorem State.dirRoom_writes (s : State) (l : Nat) (resume : Option CohMsg) :
    Moves [.objs, .coh, .link, .out] s (State.dirRoom s l resume) := by
  unfold State.dirRoom
  repeat' first
    | with_reducible apply Moves.refl
    | assumption
    | ((with_reducible apply Within.mk); exact rfl)
    | with_reducible apply Moves.thenOp (State.backInvalidate_writes ..)
    | with_reducible apply Moves.ite
    | (with_reducible apply upd_parts <;> first | exact .inl rfl | exact .inr rfl)
    | simp only [Moves.mk_eq]
    | with_reducible refine MovesMk.upd rfl (.inl rfl) (.inl rfl) ?_ ?_
    | (with_reducible apply Moves.foldl; intro _ _)
    | dsimp only
    | split

theorem State.dirPut_writes (s : State) (l : Nat) (e : DirEnt) :
    Moves [.objs, .coh, .link, .out] s (State.dirPut s l e) := by
  unfold State.dirPut
  repeat' first
    | with_reducible apply Moves.refl
    | assumption
    | ((with_reducible apply Within.mk); exact rfl)
    | with_reducible apply Moves.thenOp (State.dirRoom_writes ..)
    | with_reducible apply Moves.thenOp (State.setDir_writes ..)
    | with_reducible apply Moves.thenOp (State.dirTouch_writes ..)
    | with_reducible apply Moves.ite
    | (with_reducible apply upd_parts <;> first | exact .inl rfl | exact .inr rfl)
    | simp only [Moves.mk_eq]
    | with_reducible refine MovesMk.upd rfl (.inl rfl) (.inl rfl) ?_ ?_
    | (with_reducible apply Moves.foldl; intro _ _)
    | dsimp only
    | split

theorem State.giveData_writes (s : State) (m : CohMsg) (st : LineState) (data : List Byte) :
    Moves [.link, .out] s (State.giveData s m st data) := by
  unfold State.giveData
  repeat' first
    | with_reducible apply Moves.refl
    | ((with_reducible apply Within.mk); exact rfl)
    | with_reducible apply Moves.thenOp (State.replyTo_writes ..)

theorem State.givePoison_writes (s : State) (m : CohMsg) :
    Moves [.link, .out] s (State.givePoison s m) := by
  unfold State.givePoison
  repeat' first
    | with_reducible apply Moves.refl
    | ((with_reducible apply Within.mk); exact rfl)
    | with_reducible apply Moves.thenOp (State.replyTo_writes ..)

theorem State.grantLine_writes (s : State) (m : CohMsg) (data : Option (List Byte)) :
    Moves [.objs, .mem, .content, .depot, .cache, .coh, .link, .dram, .out] s ((State.grantLine s m data).1) := by
  unfold State.grantLine
  repeat' first
    | with_reducible apply Moves.refl
    | assumption
    | ((with_reducible apply Within.mk); exact rfl)
    | with_reducible apply Moves.thenOp (State.dirPut_writes ..)
    | with_reducible apply Moves.thenOp (State.giveData_writes ..)
    | with_reducible apply Moves.thenOp (State.givePoison_writes ..)
    | with_reducible apply Moves.thenOp (State.lineWrite_writes ..)
    | with_reducible apply Moves.thenOp (State.replyTo_writes ..)
    | with_reducible apply Moves.thenOp (State.setDir_writes ..)
    | with_reducible apply Moves.thenOp (State.slcAccess_writes ..)
    | with_reducible apply Moves.thenOp (State.slcClean_writes ..)
    | with_reducible apply Moves.thenOp (State.unpoison_writes ..)
    | with_reducible apply Moves.thenOp (State.slcDrop_writes ..)
    | with_reducible apply Moves.thenOp (State.countLine_writes ..)
    | with_reducible apply Moves.ite_fst
    | (with_reducible apply Moves.foldl_fst; intro _ _)
    | with_reducible apply Moves.ite
    | (with_reducible apply upd_parts <;> first | exact .inl rfl | exact .inr rfl)
    | simp only [Moves.mk_eq]
    | with_reducible refine MovesMk.upd rfl (.inl rfl) (.inl rfl) ?_ ?_
    | (with_reducible apply Moves.foldl; intro _ _)
    | dsimp only
    | split
    | with_reducible refine Moves.thenOp (OptAll.st (State.journalStep_writes ..) (by assumption)) (Within.mk rfl) ?_
    | with_reducible refine Moves.thenOp (OptAll.st (OptAll.ite (OptAll.some' (Moves.refl ..)) (State.journalStep_writes ..)) (by assumption)) (Within.mk rfl) ?_

theorem State.stallReq_writes (s : State) (m : CohMsg) :
    Moves [.objs, .depot, .coh] s (State.stallReq s m) := by
  unfold State.stallReq
  repeat' first
    | with_reducible apply Moves.refl
    | assumption
    | ((with_reducible apply Within.mk); exact rfl)
    | with_reducible apply Moves.thenOp (State.countStall_writes ..)
    | with_reducible apply Moves.thenOp (State.openTxn_writes ..)
    | with_reducible apply Moves.ite
    | (with_reducible apply upd_parts <;> first | exact .inl rfl | exact .inr rfl)
    | simp only [Moves.mk_eq]
    | with_reducible refine MovesMk.upd rfl (.inl rfl) (.inl rfl) ?_ ?_
    | (with_reducible apply Moves.foldl; intro _ _)
    | dsimp only
    | split

theorem State.sendPlan_writes (s : State) (m : CohMsg) (n : Nat) (plan : List (Nat × Nat)) :
    Moves [.link, .out] s (State.sendPlan s m n plan) := by
  unfold State.sendPlan
  repeat' first
    | with_reducible apply Moves.refl
    | ((with_reducible apply Within.mk); exact rfl)
    | with_reducible apply Moves.thenOp (State.sendCoh_writes ..)
    | with_reducible apply Moves.thenOp (State.sendSnoop_writes ..)
    | with_reducible apply Moves.ite
    | (with_reducible apply Moves.foldl; intro _ _)

theorem State.unbackedReq_writes (s : State) (m : CohMsg) :
    Moves [.objs, .link, .err, .mgmt, .out] s (State.unbackedReq s m) := by
  unfold State.unbackedReq
  repeat' first
    | with_reducible apply Moves.refl
    | assumption
    | ((with_reducible apply Within.mk); exact rfl)
    | with_reducible apply Moves.thenOp (State.givePoison_writes ..)
    | with_reducible apply Moves.thenOp (State.raise_writes ..)
    | with_reducible apply Moves.thenOp (State.replyTo_writes ..)
    | with_reducible apply Moves.ite
    | (with_reducible apply upd_parts <;> first | exact .inl rfl | exact .inr rfl)
    | simp only [Moves.mk_eq]
    | with_reducible refine MovesMk.upd rfl (.inl rfl) (.inl rfl) ?_ ?_
    | (with_reducible apply Moves.foldl; intro _ _)
    | dsimp only
    | split

theorem State.awaitRoom_writes (s : State) (m : CohMsg) :
    Moves [.objs, .coh, .link, .out] s (State.awaitRoom s m) := by
  unfold State.awaitRoom
  repeat' first
    | with_reducible apply Moves.refl
    | assumption
    | ((with_reducible apply Within.mk); exact rfl)
    | with_reducible apply Moves.thenOp (State.dirRoom_writes ..)
    | with_reducible apply Moves.thenOp (State.openTxn_writes ..)
    | with_reducible apply Moves.ite
    | (with_reducible apply upd_parts <;> first | exact .inl rfl | exact .inr rfl)
    | simp only [Moves.mk_eq]
    | with_reducible refine MovesMk.upd rfl (.inl rfl) (.inl rfl) ?_ ?_
    | (with_reducible apply Moves.foldl; intro _ _)
    | dsimp only
    | split
    | with_reducible refine Moves.thenOp (Moves.of_snd (State.openTxn_writes ..) (by assumption)) (Within.mk rfl) ?_

theorem State.startReq_writes (s : State) (m : CohMsg) :
    Moves [.objs, .mem, .flash, .content, .depot, .cache, .coh, .link, .dram, .err, .mgmt, .out] s (State.startReq s m) := by
  unfold State.startReq
  repeat' first
    | with_reducible apply Moves.refl
    | assumption
    | ((with_reducible apply Within.mk); exact rfl)
    | with_reducible refine OptAll.st ?_ (by assumption)
    | with_reducible apply OptAll.some'
    | with_reducible apply Moves.thenOp (State.givePoison_writes ..)
    | with_reducible apply Moves.thenOp (State.grantLine_writes ..)
    | with_reducible refine OptAll.imp (fun _ h => Moves.thenOp h (Within.mk rfl) ?_) (State.journalStep_writes ..)
    | with_reducible apply Moves.thenOp (State.memRead_writes ..)
    | with_reducible apply Moves.thenOp (State.openTxn_writes ..)
    | with_reducible apply Moves.thenOp (State.sendPlan_writes ..)
    | with_reducible apply Moves.thenOp (State.stallReq_writes ..)
    | with_reducible apply Moves.thenOp (State.unbackedReq_writes ..)
    | with_reducible apply Moves.thenOp (State.awaitRoom_writes ..)
    | with_reducible apply Moves.ite
    | (with_reducible apply upd_parts <;> first | exact .inl rfl | exact .inr rfl)
    | simp only [Moves.mk_eq]
    | with_reducible refine MovesMk.upd rfl (.inl rfl) (.inl rfl) ?_ ?_
    | (with_reducible apply Moves.foldl; intro _ _)
    | dsimp only
    | split

theorem State.turnPort_writes (s : State) (l src : Nat) :
    Moves [.coh] s (State.turnPort s l src) := by
  unfold State.turnPort
  repeat' first
    | with_reducible apply Moves.refl
    | assumption
    | ((with_reducible apply Within.mk); exact rfl)
    | with_reducible apply Moves.ite
    | (with_reducible apply upd_parts <;> first | exact .inl rfl | exact .inr rfl)
    | simp only [Moves.mk_eq]
    | with_reducible refine MovesMk.upd rfl (.inl rfl) (.inl rfl) ?_ ?_
    | (with_reducible apply Moves.foldl; intro _ _)
    | dsimp only
    | split

theorem State.takeQueued_writes (s : State) (l : Nat) :
    OptAll (fun a => Moves [.coh] s a.2) (State.takeQueued s l) := by
  unfold State.takeQueued
  repeat' first
    | with_reducible apply Moves.refl
    | assumption
    | ((with_reducible apply Within.mk); exact rfl)
    | with_reducible apply Moves.thenOp (State.turnPort_writes ..)
    | with_reducible apply OptAll.some'
    | with_reducible apply OptAll.none'
    | with_reducible apply OptAll.ite
    | with_reducible apply Moves.ite
    | (with_reducible apply upd_parts <;> first | exact .inl rfl | exact .inr rfl)
    | simp only [Moves.mk_eq]
    | with_reducible refine MovesMk.upd rfl (.inl rfl) (.inl rfl) ?_ ?_
    | (with_reducible apply Moves.foldl; intro _ _)
    | dsimp only
    | split

theorem State.serveQueue_writes (s : State) (l : Nat) (x2 : Nat) :
    Moves [.objs, .mem, .flash, .content, .depot, .cache, .coh, .link, .dram, .err, .mgmt, .out] s (State.serveQueue s l x2) := by
  induction x2 generalizing s l with
  | zero =>
    unfold State.serveQueue
    repeat' (with_reducible apply Moves.refl)
  | succ n ih =>
    unfold State.serveQueue
    repeat' first
      | with_reducible apply Moves.refl
      | ((with_reducible apply Within.mk); exact rfl)
      | with_reducible apply Moves.thenOp (State.startReq_writes ..)
      | with_reducible refine Moves.thenOp (ih ..) (Within.mk rfl) ?_
      | with_reducible apply Moves.ite
      | (with_reducible apply upd_parts <;> first | exact .inl rfl | exact .inr rfl)
      | simp only [Moves.mk_eq]
      | with_reducible refine MovesMk.upd rfl (.inl rfl) (.inl rfl) ?_ ?_
      | split
      | with_reducible refine Moves.thenOp (OptAll.stSnd (State.takeQueued_writes ..) (by assumption)) (Within.mk rfl) ?_

theorem State.endTxn_writes (s : State) (tracker line : Nat) :
    Moves [.objs, .mem, .flash, .content, .depot, .cache, .coh, .link, .dram, .err, .mgmt, .out] s (State.endTxn s tracker line) := by
  unfold State.endTxn
  repeat' first
    | with_reducible apply Moves.refl
    | assumption
    | ((with_reducible apply Within.mk); exact rfl)
    | with_reducible apply Moves.thenOp (State.grantTokens_writes ..)
    | with_reducible apply Moves.thenOp (State.serveQueue_writes ..)
    | with_reducible apply Moves.ite
    | (with_reducible apply upd_parts <;> first | exact .inl rfl | exact .inr rfl)
    | simp only [Moves.mk_eq]
    | with_reducible refine MovesMk.upd rfl (.inl rfl) (.inl rfl) ?_ ?_
    | (with_reducible apply Moves.foldl; intro _ _)
    | dsimp only
    | split

theorem State.restartReq_writes (s : State) (m : CohMsg) (t : Txn) :
    Moves [.objs, .mem, .flash, .content, .depot, .cache, .coh, .link, .dram, .err, .mgmt, .out] s (State.restartReq s m t) := by
  unfold State.restartReq
  repeat' first
    | with_reducible apply Moves.refl
    | assumption
    | ((with_reducible apply Within.mk); exact rfl)
    | with_reducible apply Moves.thenOp (State.grantTokens_writes ..)
    | with_reducible apply Moves.thenOp (State.serveQueue_writes ..)
    | with_reducible apply Moves.thenOp (State.startReq_writes ..)
    | with_reducible apply Moves.ite
    | (with_reducible apply upd_parts <;> first | exact .inl rfl | exact .inr rfl)
    | simp only [Moves.mk_eq]
    | with_reducible refine MovesMk.upd rfl (.inl rfl) (.inl rfl) ?_ ?_
    | (with_reducible apply Moves.foldl; intro _ _)
    | dsimp only
    | split

theorem State.closeOne_writes (s : State) (t : Txn) :
    Moves [.objs, .mem, .flash, .content, .depot, .cache, .coh, .link, .dram, .err, .mgmt, .out] s (State.closeOne s t) := by
  unfold State.closeOne
  repeat' first
    | with_reducible apply Moves.refl
    | assumption
    | ((with_reducible apply Within.mk); exact rfl)
    | with_reducible apply Moves.thenOp (State.endTxn_writes ..)
    | with_reducible apply Moves.thenOp (State.restartReq_writes ..)
    | with_reducible apply Moves.ite
    | (with_reducible apply upd_parts <;> first | exact .inl rfl | exact .inr rfl)
    | simp only [Moves.mk_eq]
    | with_reducible refine MovesMk.upd rfl (.inl rfl) (.inl rfl) ?_ ?_
    | (with_reducible apply Moves.foldl; intro _ _)
    | dsimp only
    | split

theorem State.closeTxn_writes (s : State) (t : Txn) :
    Moves [.objs, .mem, .flash, .content, .depot, .cache, .coh, .link, .dram, .err, .mgmt, .out] s (State.closeTxn s t) := by
  unfold State.closeTxn
  repeat' first
    | with_reducible apply Moves.refl
    | assumption
    | ((with_reducible apply Within.mk); exact rfl)
    | with_reducible apply Moves.thenOp (State.grantTokens_writes ..)
    | with_reducible apply Moves.thenOp (State.serveQueue_writes ..)
    | with_reducible apply Moves.thenOp (State.endTxn_writes ..)
    | with_reducible apply Moves.thenOp (State.restartReq_writes ..)
    | with_reducible apply Moves.thenOp (State.closeOne_writes ..)
    | with_reducible apply Moves.ite
    | (with_reducible apply upd_parts <;> first | exact .inl rfl | exact .inr rfl)
    | simp only [Moves.mk_eq]
    | with_reducible refine MovesMk.upd rfl (.inl rfl) (.inl rfl) ?_ ?_
    | (with_reducible apply Moves.foldl; intro _ _)
    | dsimp only
    | split

theorem State.queueReq_writes (s : State) (m : CohMsg) :
    Moves [.objs, .coh] s (State.queueReq s m) := by
  unfold State.queueReq
  repeat' first
    | with_reducible apply Moves.refl
    | assumption
    | ((with_reducible apply Within.mk); exact rfl)
    | with_reducible apply Moves.thenOp (State.oinc_writes ..)
    | with_reducible apply Moves.thenOp (State.turnPort_writes ..)
    | with_reducible apply Moves.ite
    | (with_reducible apply upd_parts <;> first | exact .inl rfl | exact .inr rfl)
    | simp only [Moves.mk_eq]
    | with_reducible refine MovesMk.upd rfl (.inl rfl) (.inl rfl) ?_ ?_
    | (with_reducible apply Moves.foldl; intro _ _)
    | dsimp only
    | split

theorem State.homeRequest_writes (s : State) (m : CohMsg) :
    Moves [.objs, .mem, .flash, .content, .depot, .cache, .coh, .link, .dram, .err, .mgmt, .out] s (State.homeRequest s m) := by
  unfold State.homeRequest
  repeat' first
    | with_reducible apply Moves.refl
    | assumption
    | ((with_reducible apply Within.mk); exact rfl)
    | with_reducible apply Moves.thenOp (State.dropToken_writes ..)
    | with_reducible apply Moves.thenOp (State.oinc_writes ..)
    | with_reducible apply Moves.thenOp (State.retryReq_writes ..)
    | with_reducible apply Moves.thenOp (State.startReq_writes ..)
    | with_reducible apply Moves.thenOp (State.grantTokens_writes ..)
    | with_reducible apply Moves.thenOp (State.queueReq_writes ..)
    | with_reducible apply Moves.ite
    | (with_reducible apply upd_parts <;> first | exact .inl rfl | exact .inr rfl)
    | simp only [Moves.mk_eq]
    | with_reducible refine MovesMk.upd rfl (.inl rfl) (.inl rfl) ?_ ?_
    | (with_reducible apply Moves.foldl; intro _ _)
    | dsimp only
    | split

theorem State.tokenReturned_writes (s : State) (m : CohMsg) :
    Moves [.coh, .link, .out] s (State.tokenReturned s m) := by
  unfold State.tokenReturned
  repeat' first
    | with_reducible apply Moves.refl
    | ((with_reducible apply Within.mk); exact rfl)
    | with_reducible apply Moves.thenOp (State.dropToken_writes ..)
    | with_reducible apply Moves.thenOp (State.grantTokens_writes ..)

theorem State.finishTxn_writes (s : State) (t : Txn) :
    Moves [.objs, .mem, .flash, .content, .depot, .cache, .coh, .link, .dram, .err, .mgmt, .out] s (State.finishTxn s t) := by
  unfold State.finishTxn
  repeat' first
    | with_reducible apply Moves.refl
    | assumption
    | ((with_reducible apply Within.mk); exact rfl)
    | with_reducible apply Moves.thenOp (State.closeTxn_writes ..)
    | with_reducible apply Moves.thenOp (State.countStall_writes ..)
    | with_reducible apply Moves.thenOp (State.grantLine_writes ..)
    | with_reducible apply Moves.thenOp (State.lineWrite_writes ..)
    | with_reducible apply Moves.thenOp (State.setDir_writes ..)
    | with_reducible apply Moves.thenOp (State.dirTouch_writes ..)
    | with_reducible apply Moves.ite
    | (with_reducible apply upd_parts <;> first | exact .inl rfl | exact .inr rfl)
    | simp only [Moves.mk_eq]
    | with_reducible refine MovesMk.upd rfl (.inl rfl) (.inl rfl) ?_ ?_
    | (with_reducible apply Moves.foldl; intro _ _)
    | dsimp only
    | split

theorem State.takeAnswer_writes (s : State) (m : CohMsg) (t : Txn) (data : Option (List Byte)) (stays : Bool) (moved : Bool) :
    Moves [.objs, .mem, .flash, .content, .depot, .cache, .coh, .link, .dram, .err, .mgmt, .out] s (State.takeAnswer s m t data stays moved) := by
  unfold State.takeAnswer
  repeat' first
    | with_reducible apply Moves.refl
    | assumption
    | ((with_reducible apply Within.mk); exact rfl)
    | with_reducible apply Moves.thenOp (State.finishTxn_writes ..)
    | with_reducible apply Moves.ite
    | (with_reducible apply upd_parts <;> first | exact .inl rfl | exact .inr rfl)
    | simp only [Moves.mk_eq]
    | with_reducible refine MovesMk.upd rfl (.inl rfl) (.inl rfl) ?_ ?_
    | (with_reducible apply Moves.foldl; intro _ _)
    | dsimp only
    | split

theorem State.homeAnswer_writes (s : State) (m : CohMsg) :
    Moves [.objs, .mem, .flash, .content, .depot, .cache, .coh, .link, .dram, .err, .mgmt, .out] s (State.homeAnswer s m) := by
  unfold State.homeAnswer
  repeat' first
    | with_reducible apply Moves.refl
    | assumption
    | ((with_reducible apply Within.mk); exact rfl)
    | with_reducible apply Moves.thenOp (State.oinc_writes ..)
    | with_reducible apply Moves.thenOp (State.poison_writes ..)
    | with_reducible apply Moves.thenOp (State.setDir_writes ..)
    | with_reducible apply Moves.thenOp (State.takeAnswer_writes ..)
    | with_reducible apply Moves.ite
    | (with_reducible apply upd_parts <;> first | exact .inl rfl | exact .inr rfl)
    | simp only [Moves.mk_eq]
    | with_reducible refine MovesMk.upd rfl (.inl rfl) (.inl rfl) ?_ ?_
    | (with_reducible apply Moves.foldl; intro _ _)
    | dsimp only
    | split

theorem State.ackWb_writes (s : State) (m : CohMsg) :
    Moves [.link, .out] s (State.ackWb s m) := by
  unfold State.ackWb
  repeat' first
    | with_reducible apply Moves.refl
    | ((with_reducible apply Within.mk); exact rfl)
    | with_reducible apply Moves.thenOp (State.replyTo_writes ..)

theorem State.homeWb_writes (s : State) (m : CohMsg) :
    Moves [.objs, .mem, .content, .depot, .cache, .coh, .link, .dram, .out] s (State.homeWb s m) := by
  unfold State.homeWb
  repeat' first
    | with_reducible apply Moves.refl
    | assumption
    | ((with_reducible apply Within.mk); exact rfl)
    | with_reducible apply Moves.thenOp (State.ackWb_writes ..)
    | with_reducible apply Moves.thenOp (State.lineWrite_writes ..)
    | with_reducible apply Moves.thenOp (State.oinc_writes ..)
    | with_reducible apply Moves.thenOp (State.poison_writes ..)
    | with_reducible apply Moves.thenOp (State.setDir_writes ..)
    | with_reducible apply Moves.thenOp (State.slcAccess_writes ..)
    | with_reducible apply Moves.ite
    | (with_reducible apply upd_parts <;> first | exact .inl rfl | exact .inr rfl)
    | simp only [Moves.mk_eq]
    | with_reducible refine MovesMk.upd rfl (.inl rfl) (.inl rfl) ?_ ?_
    | (with_reducible apply Moves.foldl; intro _ _)
    | dsimp only
    | split

theorem State.homeEvict_writes (s : State) (m : CohMsg) :
    Moves [.coh, .link, .out] s (State.homeEvict s m) := by
  unfold State.homeEvict
  repeat' first
    | with_reducible apply Moves.refl
    | ((with_reducible apply Within.mk); exact rfl)
    | with_reducible apply Moves.thenOp (State.ackWb_writes ..)
    | with_reducible apply Moves.thenOp (State.setDir_writes ..)

theorem State.homePdSet_writes (s : State) (m : CohMsg) :
    Moves [.depot, .coh, .link, .out] s (State.homePdSet s m) := by
  unfold State.homePdSet
  repeat' first
    | with_reducible apply Moves.refl
    | assumption
    | ((with_reducible apply Within.mk); exact rfl)
    | with_reducible apply Moves.thenOp (State.ackWb_writes ..)
    | with_reducible apply Moves.thenOp (State.setPd_writes ..)
    | with_reducible apply Moves.ite
    | (with_reducible apply upd_parts <;> first | exact .inl rfl | exact .inr rfl)
    | simp only [Moves.mk_eq]
    | with_reducible refine MovesMk.upd rfl (.inl rfl) (.inl rfl) ?_ ?_
    | (with_reducible apply Moves.foldl; intro _ _)
    | dsimp only
    | split

theorem State.keepAs_writes (s : State) (a : Nat) (l : Nat) (st : LineState) :
    Moves [.cache, .coh] s (State.keepAs s a l st) := by
  unfold State.keepAs
  repeat' first
    | with_reducible apply Moves.refl
    | assumption
    | ((with_reducible apply Within.mk); exact rfl)
    | with_reducible apply Moves.thenOp (State.dropL2_writes ..)
    | with_reducible apply Moves.thenOp (State.mapL2_writes ..)
    | with_reducible apply Moves.thenOp (State.setRemote_writes ..)
    | with_reducible apply Moves.thenOp (State.cleanL1_writes ..)
    | with_reducible apply Moves.ite
    | (with_reducible apply upd_parts <;> first | exact .inl rfl | exact .inr rfl)
    | simp only [Moves.mk_eq]
    | with_reducible refine MovesMk.upd rfl (.inl rfl) (.inl rfl) ?_ ?_
    | (with_reducible apply Moves.foldl; intro _ _)
    | dsimp only
    | split

theorem State.answerSnoop_writes (s : State) (m : CohMsg) :
    Moves [.cache, .coh, .link, .out] s (State.answerSnoop s m) := by
  unfold State.answerSnoop
  repeat' first
    | with_reducible apply Moves.refl
    | assumption
    | ((with_reducible apply Within.mk); exact rfl)
    | with_reducible apply Moves.thenOp (State.keepAs_writes ..)
    | with_reducible apply Moves.thenOp (State.sendCoh_writes ..)
    | with_reducible apply Moves.ite
    | (with_reducible apply upd_parts <;> first | exact .inl rfl | exact .inr rfl)
    | simp only [Moves.mk_eq]
    | with_reducible refine MovesMk.upd rfl (.inl rfl) (.inl rfl) ?_ ?_
    | (with_reducible apply Moves.foldl; intro _ _)
    | dsimp only
    | split

theorem State.holderSnoop_writes (s : State) (m : CohMsg) :
    Moves [.cache, .coh, .link, .out] s (State.holderSnoop s m) := by
  unfold State.holderSnoop
  repeat' first
    | with_reducible apply Moves.refl
    | assumption
    | ((with_reducible apply Within.mk); exact rfl)
    | with_reducible apply Moves.thenOp (State.answerSnoop_writes ..)
    | with_reducible apply Moves.ite
    | (with_reducible apply upd_parts <;> first | exact .inl rfl | exact .inr rfl)
    | simp only [Moves.mk_eq]
    | with_reducible refine MovesMk.upd rfl (.inl rfl) (.inl rfl) ?_ ?_
    | (with_reducible apply Moves.foldl; intro _ _)
    | dsimp only
    | split

theorem State.dropReq_writes (s : State) (r : OpenReq) :
    Moves [.coh] s (State.dropReq s r) := by
  unfold State.dropReq
  repeat' first
    | with_reducible apply Moves.refl
    | assumption
    | ((with_reducible apply Within.mk); exact rfl)
    | with_reducible apply Moves.ite
    | (with_reducible apply upd_parts <;> first | exact .inl rfl | exact .inr rfl)
    | simp only [Moves.mk_eq]
    | with_reducible refine MovesMk.upd rfl (.inl rfl) (.inl rfl) ?_ ?_
    | (with_reducible apply Moves.foldl; intro _ _)
    | dsimp only
    | split

theorem State.passLine_writes (s : State) (ridge l : Nat) (st : LineState) (data : List Byte) :
    Moves [.coh, .link, .out] s (State.passLine s ridge l st data) := by
  unfold State.passLine
  repeat' first
    | with_reducible apply Moves.refl
    | assumption
    | ((with_reducible apply Within.mk); exact rfl)
    | with_reducible apply Moves.thenOp (State.proxyWb_writes ..)
    | with_reducible apply Moves.thenOp (State.setDir_writes ..)
    | with_reducible apply Moves.ite
    | (with_reducible apply upd_parts <;> first | exact .inl rfl | exact .inr rfl)
    | simp only [Moves.mk_eq]
    | with_reducible refine MovesMk.upd rfl (.inl rfl) (.inl rfl) ?_ ?_
    | (with_reducible apply Moves.foldl; intro _ _)
    | dsimp only
    | split

theorem State.bufferLine_writes (s : State) (l : Nat) (st : Nat) (data : List Byte) :
    Moves [.coh] s (State.bufferLine s l st data) := by
  unfold State.bufferLine
  repeat' first
    | with_reducible apply Moves.refl
    | assumption
    | ((with_reducible apply Within.mk); exact rfl)
    | with_reducible apply Moves.ite
    | (with_reducible apply upd_parts <;> first | exact .inl rfl | exact .inr rfl)
    | simp only [Moves.mk_eq]
    | with_reducible refine MovesMk.upd rfl (.inl rfl) (.inl rfl) ?_ ?_
    | (with_reducible apply Moves.foldl; intro _ _)
    | dsimp only
    | split

theorem State.wakeStrand_writes (s : State) (st : StrandRef) (l : Nat) :
    Moves [.strands] s (State.wakeStrand s st l) := by
  unfold State.wakeStrand
  repeat' first
    | with_reducible apply Moves.refl
    | assumption
    | ((with_reducible apply Within.mk); exact rfl)
    | with_reducible apply Moves.ite
    | (with_reducible apply upd_parts <;> first | exact .inl rfl | exact .inr rfl)
    | simp only [Moves.mk_eq]
    | with_reducible refine MovesMk.upd rfl (.inl rfl) (.inl rfl) ?_ ?_
    | (with_reducible apply Moves.foldl; intro _ _)
    | dsimp only
    | split

theorem State.deliver_writes (s : State) (r : OpenReq) (st : LineState) (status : Nat) (pd : Bool) (data : List Byte) :
    Moves [.objs, .routes, .sched, .depot, .strands, .cache, .coh, .link, .out] s (State.deliver s r st status pd data) := by
  unfold State.deliver
  repeat' first
    | with_reducible apply Moves.refl
    | assumption
    | ((with_reducible apply Within.mk); exact rfl)
    | with_reducible apply Moves.thenOp (State.bufferLine_writes ..)
    | with_reducible apply Moves.thenOp (State.copyLineArrives_writes ..)
    | with_reducible apply Moves.thenOp (State.dropReq_writes ..)
    | with_reducible apply Moves.thenOp (State.emit_writes ..)
    | with_reducible apply Moves.thenOp (State.fillL2_writes ..)
    | with_reducible apply Moves.thenOp (State.oset_writes ..)
    | with_reducible apply Moves.thenOp (State.outboundDone_writes ..)
    | with_reducible apply Moves.thenOp (State.passLine_writes ..)
    | with_reducible apply Moves.thenOp (State.setRemote_writes ..)
    | with_reducible apply Moves.thenOp (State.wakeStrand_writes ..)
    | with_reducible apply Moves.thenOp (State.ackDone_writes ..)
    | with_reducible apply Moves.thenOp (State.request_writes ..)
    | with_reducible apply Moves.ite
    | (with_reducible apply upd_parts <;> first | exact .inl rfl | exact .inr rfl)
    | simp only [Moves.mk_eq]
    | with_reducible refine MovesMk.upd rfl (.inl rfl) (.inl rfl) ?_ ?_
    | (with_reducible apply Moves.foldl; intro _ _)
    | dsimp only
    | split
    | with_reducible refine Moves.thenOp (Moves.of_snd (State.request_writes ..) (by assumption)) (Within.mk rfl) ?_

theorem State.afterFill_writes (s : State) (r : OpenReq) (status : Nat) (data : List Byte) :
    Moves [.cache, .coh, .link, .out] s (State.afterFill s r status data) := by
  unfold State.afterFill
  repeat' first
    | with_reducible apply Moves.refl
    | assumption
    | ((with_reducible apply Within.mk); exact rfl)
    | with_reducible apply Moves.thenOp (State.answerSnoop_writes ..)
    | with_reducible apply Moves.thenOp (State.bufferLine_writes ..)
    | with_reducible apply Moves.ite
    | (with_reducible apply upd_parts <;> first | exact .inl rfl | exact .inr rfl)
    | simp only [Moves.mk_eq]
    | with_reducible refine MovesMk.upd rfl (.inl rfl) (.inl rfl) ?_ ?_
    | (with_reducible apply Moves.foldl; intro _ _)
    | dsimp only
    | split

theorem State.answerHeld_writes (s : State) (strand : Nat) :
    Moves [.cache, .coh, .link, .out] s (State.answerHeld s strand) := by
  unfold State.answerHeld
  repeat' first
    | with_reducible apply Moves.refl
    | assumption
    | ((with_reducible apply Within.mk); exact rfl)
    | with_reducible apply Moves.thenOp (State.answerSnoop_writes ..)
    | with_reducible apply Moves.ite
    | (with_reducible apply upd_parts <;> first | exact .inl rfl | exact .inr rfl)
    | simp only [Moves.mk_eq]
    | with_reducible refine MovesMk.upd rfl (.inl rfl) (.inl rfl) ?_ ?_
    | (with_reducible apply Moves.foldl; intro _ _)
    | dsimp only
    | split

theorem State.flushHeld_writes (s : State) :
    Moves [.cache, .coh, .link, .out] s (State.flushHeld s) := by
  unfold State.flushHeld
  repeat' first
    | with_reducible apply Moves.refl
    | assumption
    | ((with_reducible apply Within.mk); exact rfl)
    | with_reducible apply Moves.thenOp (State.answerHeld_writes ..)
    | with_reducible apply Moves.ite
    | (with_reducible apply upd_parts <;> first | exact .inl rfl | exact .inr rfl)
    | simp only [Moves.mk_eq]
    | with_reducible refine MovesMk.upd rfl (.inl rfl) (.inl rfl) ?_ ?_
    | (with_reducible apply Moves.foldl; intro _ _)
    | dsimp only
    | split

theorem State.dataArrives_writes (s : State) (m : CohMsg) :
    Moves [.objs, .routes, .sched, .depot, .strands, .cache, .coh, .link, .out] s (State.dataArrives s m) := by
  unfold State.dataArrives
  repeat' first
    | with_reducible apply Moves.refl
    | assumption
    | ((with_reducible apply Within.mk); exact rfl)
    | with_reducible apply Moves.thenOp (State.answerSnoop_writes ..)
    | with_reducible apply Moves.thenOp (State.deliver_writes ..)
    | with_reducible apply Moves.thenOp (State.afterFill_writes ..)
    | with_reducible apply Moves.ite
    | (with_reducible apply upd_parts <;> first | exact .inl rfl | exact .inr rfl)
    | simp only [Moves.mk_eq]
    | with_reducible refine MovesMk.upd rfl (.inl rfl) (.inl rfl) ?_ ?_
    | (with_reducible apply Moves.foldl; intro _ _)
    | dsimp only
    | split

theorem State.cmpArrives_writes (s : State) (m : CohMsg) :
    Moves [.objs, .routes, .sched, .depot, .strands, .cache, .coh, .link, .out] s (State.cmpArrives s m) := by
  unfold State.cmpArrives
  repeat' first
    | with_reducible apply Moves.refl
    | assumption
    | ((with_reducible apply Within.mk); exact rfl)
    | with_reducible apply Moves.thenOp (State.answerSnoop_writes ..)
    | with_reducible apply Moves.thenOp (State.deliver_writes ..)
    | with_reducible apply Moves.thenOp (State.pumpOutbound_writes ..)
    | with_reducible apply Moves.thenOp (State.afterFill_writes ..)
    | with_reducible apply Moves.ite
    | (with_reducible apply upd_parts <;> first | exact .inl rfl | exact .inr rfl)
    | simp only [Moves.mk_eq]
    | with_reducible refine MovesMk.upd rfl (.inl rfl) (.inl rfl) ?_ ?_
    | (with_reducible apply Moves.foldl; intro _ _)
    | dsimp only
    | split

theorem State.retryArrives_writes (s : State) (m : CohMsg) :
    Moves [.coh] s (State.retryArrives s m) := by
  unfold State.retryArrives
  repeat' first
    | with_reducible apply Moves.refl
    | assumption
    | ((with_reducible apply Within.mk); exact rfl)
    | with_reducible apply Moves.ite
    | (with_reducible apply upd_parts <;> first | exact .inl rfl | exact .inr rfl)
    | simp only [Moves.mk_eq]
    | with_reducible refine MovesMk.upd rfl (.inl rfl) (.inl rfl) ?_ ?_
    | (with_reducible apply Moves.foldl; intro _ _)
    | dsimp only
    | split

theorem State.sendHeldReqs_writes (s : State) (src : Nat) (home : Nat) :
    Moves [.coh, .link, .out] s (State.sendHeldReqs s src home) := by
  unfold State.sendHeldReqs
  repeat' first
    | with_reducible apply Moves.refl
    | assumption
    | ((with_reducible apply Within.mk); exact rfl)
    | with_reducible apply Moves.thenOp (State.sendCoh_writes ..)
    | with_reducible apply Moves.ite
    | (with_reducible apply upd_parts <;> first | exact .inl rfl | exact .inr rfl)
    | simp only [Moves.mk_eq]
    | with_reducible refine MovesMk.upd rfl (.inl rfl) (.inl rfl) ?_ ?_
    | (with_reducible apply Moves.foldl; intro _ _)
    | dsimp only
    | split

theorem State.grantArrives_writes (s : State) (m : CohMsg) :
    Moves [.coh, .link, .out] s (State.grantArrives s m) := by
  unfold State.grantArrives
  repeat' first
    | with_reducible apply Moves.refl
    | assumption
    | ((with_reducible apply Within.mk); exact rfl)
    | with_reducible apply Moves.thenOp (State.dropReq_writes ..)
    | with_reducible apply Moves.thenOp (State.sendCoh_writes ..)
    | with_reducible apply Moves.thenOp (State.sendHeldReqs_writes ..)
    | with_reducible apply Moves.ite
    | (with_reducible apply upd_parts <;> first | exact .inl rfl | exact .inr rfl)
    | simp only [Moves.mk_eq]
    | with_reducible refine MovesMk.upd rfl (.inl rfl) (.inl rfl) ?_ ?_
    | (with_reducible apply Moves.foldl; intro _ _)
    | dsimp only
    | split

theorem State.wbAcked_writes (s : State) (m : CohMsg) :
    Moves [.routes, .coh, .link, .out] s (State.wbAcked s m) := by
  unfold State.wbAcked
  repeat' first
    | with_reducible apply Moves.refl
    | assumption
    | ((with_reducible apply Within.mk); exact rfl)
    | with_reducible apply Moves.thenOp (State.ackDone_writes ..)
    | with_reducible apply Moves.ite
    | (with_reducible apply upd_parts <;> first | exact .inl rfl | exact .inr rfl)
    | simp only [Moves.mk_eq]
    | with_reducible refine MovesMk.upd rfl (.inl rfl) (.inl rfl) ?_ ?_
    | (with_reducible apply Moves.foldl; intro _ _)
    | dsimp only
    | split

theorem State.cohEffect_writes (s : State) (m : CohMsg) :
    Moves [.objs, .mem, .flash, .routes, .sched, .content, .depot, .strands, .cache, .coh, .link, .dram, .err, .mgmt, .out] s (State.cohEffect s m) := by
  unfold State.cohEffect
  repeat' first
    | with_reducible apply Moves.refl
    | assumption
    | ((with_reducible apply Within.mk); exact rfl)
    | with_reducible apply Moves.thenOp (State.cmpArrives_writes ..)
    | with_reducible apply Moves.thenOp (State.dataArrives_writes ..)
    | with_reducible apply Moves.thenOp (State.grantArrives_writes ..)
    | with_reducible apply Moves.thenOp (State.holderSnoop_writes ..)
    | with_reducible apply Moves.thenOp (State.homeAnswer_writes ..)
    | with_reducible apply Moves.thenOp (State.homeEvict_writes ..)
    | with_reducible apply Moves.thenOp (State.homePdSet_writes ..)
    | with_reducible apply Moves.thenOp (State.homeRequest_writes ..)
    | with_reducible apply Moves.thenOp (State.homeWb_writes ..)
    | with_reducible apply Moves.thenOp (State.retryArrives_writes ..)
    | with_reducible apply Moves.thenOp (State.tokenReturned_writes ..)
    | with_reducible apply Moves.thenOp (State.wbAcked_writes ..)
    | with_reducible apply Moves.ite
    | (with_reducible apply upd_parts <;> first | exact .inl rfl | exact .inr rfl)
    | simp only [Moves.mk_eq]
    | with_reducible refine MovesMk.upd rfl (.inl rfl) (.inl rfl) ?_ ?_
    | (with_reducible apply Moves.foldl; intro _ _)
    | dsimp only
    | split

theorem State.badCoh_writes (s : State) (cause : Nat) (m : CohMsg) :
    Moves [.objs, .link, .err, .mgmt, .out] s (State.badCoh s cause m) := by
  unfold State.badCoh
  repeat' first
    | with_reducible apply Moves.refl
    | assumption
    | ((with_reducible apply Within.mk); exact rfl)
    | with_reducible apply Moves.thenOp (State.dropCoh_writes ..)
    | with_reducible apply Moves.thenOp (State.violationFrom_writes ..)
    | with_reducible apply Moves.ite
    | (with_reducible apply upd_parts <;> first | exact .inl rfl | exact .inr rfl)
    | simp only [Moves.mk_eq]
    | with_reducible refine MovesMk.upd rfl (.inl rfl) (.inl rfl) ?_ ?_
    | (with_reducible apply Moves.foldl; intro _ _)
    | dsimp only
    | split

theorem State.cohTake_writes (s : State) (m : CohMsg) :
    Moves [.objs, .mem, .flash, .routes, .sched, .content, .depot, .strands, .cache, .coh, .link, .dram, .err, .mgmt, .out] s (State.cohTake s m) := by
  unfold State.cohTake
  repeat' first
    | with_reducible apply Moves.refl
    | assumption
    | ((with_reducible apply Within.mk); exact rfl)
    | with_reducible apply Moves.thenOp (State.cohEffect_writes ..)
    | with_reducible apply Moves.thenOp (State.dropCoh_writes ..)
    | with_reducible apply Moves.thenOp (State.send_writes ..)
    | with_reducible apply Moves.thenOp (State.badCoh_writes ..)
    | with_reducible apply Moves.ite
    | (with_reducible apply upd_parts <;> first | exact .inl rfl | exact .inr rfl)
    | simp only [Moves.mk_eq]
    | with_reducible refine MovesMk.upd rfl (.inl rfl) (.inl rfl) ?_ ?_
    | (with_reducible apply Moves.foldl; intro _ _)
    | dsimp only
    | split

theorem State.cohRow_writes (s : State) (m : CohMsg) (op : Nat) :
    ResAll (fun t => Moves [.objs, .mem, .flash, .routes, .sched, .content, .depot, .strands, .cache, .coh, .link, .dram, .err, .mgmt, .out] s t) (State.cohRow s m op) := by
  unfold State.cohRow
  repeat' first
    | with_reducible apply Moves.refl
    | assumption
    | ((with_reducible apply Within.mk); exact rfl)
    | with_reducible apply Moves.thenOp (State.cohTake_writes ..)
    | with_reducible apply Moves.thenOp (State.dropCoh_writes ..)
    | with_reducible apply Moves.thenOp (State.badCoh_writes ..)
    | with_reducible apply ResAll.next'
    | with_reducible apply ResAll.ite
    | with_reducible apply Moves.ite
    | (with_reducible apply upd_parts <;> first | exact .inl rfl | exact .inr rfl)
    | simp only [Moves.mk_eq]
    | with_reducible refine MovesMk.upd rfl (.inl rfl) (.inl rfl) ?_ ?_
    | (with_reducible apply Moves.foldl; intro _ _)
    | dsimp only
    | split

theorem State.releaseStalled_writes (s : State) :
    Moves [.objs, .mem, .flash, .content, .depot, .cache, .coh, .link, .dram, .err, .mgmt, .out] s (State.releaseStalled s) := by
  unfold State.releaseStalled
  repeat' first
    | with_reducible apply Moves.refl
    | assumption
    | ((with_reducible apply Within.mk); exact rfl)
    | with_reducible apply Moves.thenOp (State.grantTokens_writes ..)
    | with_reducible apply Moves.thenOp (State.serveQueue_writes ..)
    | with_reducible apply Moves.thenOp (State.startReq_writes ..)
    | with_reducible apply Moves.thenOp (State.restartReq_writes ..)
    | with_reducible apply Moves.ite
    | (with_reducible apply upd_parts <;> first | exact .inl rfl | exact .inr rfl)
    | simp only [Moves.mk_eq]
    | with_reducible refine MovesMk.upd rfl (.inl rfl) (.inl rfl) ?_ ?_
    | (with_reducible apply Moves.foldl; intro _ _)
    | dsimp only
    | split

theorem execRdShared_writes (m : CohMsg) (s : State) :
    ResAll (fun t => Moves [.objs, .mem, .flash, .routes, .sched, .content, .depot, .strands, .cache, .coh, .link, .dram, .err, .mgmt, .out] s t) (execRdShared m s) := by
  unfold execRdShared
  repeat' first
    | with_reducible apply Moves.refl
    | with_reducible refine ResAll.imp (fun _ h => Moves.thenOp h (Within.mk rfl) ?_) (State.cohRow_writes ..)

theorem execRdOwn_writes (m : CohMsg) (s : State) :
    ResAll (fun t => Moves [.objs, .mem, .flash, .routes, .sched, .content, .depot, .strands, .cache, .coh, .link, .dram, .err, .mgmt, .out] s t) (execRdOwn m s) := by
  unfold execRdOwn
  repeat' first
    | with_reducible apply Moves.refl
    | with_reducible refine ResAll.imp (fun _ h => Moves.thenOp h (Within.mk rfl) ?_) (State.cohRow_writes ..)

theorem execUpgrade_writes (m : CohMsg) (s : State) :
    ResAll (fun t => Moves [.objs, .mem, .flash, .routes, .sched, .content, .depot, .strands, .cache, .coh, .link, .dram, .err, .mgmt, .out] s t) (execUpgrade m s) := by
  unfold execUpgrade
  repeat' first
    | with_reducible apply Moves.refl
    | with_reducible refine ResAll.imp (fun _ h => Moves.thenOp h (Within.mk rfl) ?_) (State.cohRow_writes ..)

theorem execRdNc_writes (m : CohMsg) (s : State) :
    ResAll (fun t => Moves [.objs, .mem, .flash, .routes, .sched, .content, .depot, .strands, .cache, .coh, .link, .dram, .err, .mgmt, .out] s t) (execRdNc m s) := by
  unfold execRdNc
  repeat' first
    | with_reducible apply Moves.refl
    | with_reducible refine ResAll.imp (fun _ h => Moves.thenOp h (Within.mk rfl) ?_) (State.cohRow_writes ..)

theorem execWrNc_writes (m : CohMsg) (s : State) :
    ResAll (fun t => Moves [.objs, .mem, .flash, .routes, .sched, .content, .depot, .strands, .cache, .coh, .link, .dram, .err, .mgmt, .out] s t) (execWrNc m s) := by
  unfold execWrNc
  repeat' first
    | with_reducible apply Moves.refl
    | with_reducible refine ResAll.imp (fun _ h => Moves.thenOp h (Within.mk rfl) ?_) (State.cohRow_writes ..)

theorem execCmoClean_writes (m : CohMsg) (s : State) :
    ResAll (fun t => Moves [.objs, .mem, .flash, .routes, .sched, .content, .depot, .strands, .cache, .coh, .link, .dram, .err, .mgmt, .out] s t) (execCmoClean m s) := by
  unfold execCmoClean
  repeat' first
    | with_reducible apply Moves.refl
    | with_reducible refine ResAll.imp (fun _ h => Moves.thenOp h (Within.mk rfl) ?_) (State.cohRow_writes ..)

theorem execCmoCleaninval_writes (m : CohMsg) (s : State) :
    ResAll (fun t => Moves [.objs, .mem, .flash, .routes, .sched, .content, .depot, .strands, .cache, .coh, .link, .dram, .err, .mgmt, .out] s t) (execCmoCleaninval m s) := by
  unfold execCmoCleaninval
  repeat' first
    | with_reducible apply Moves.refl
    | with_reducible refine ResAll.imp (fun _ h => Moves.thenOp h (Within.mk rfl) ?_) (State.cohRow_writes ..)

theorem execCmoInval_writes (m : CohMsg) (s : State) :
    ResAll (fun t => Moves [.objs, .mem, .flash, .routes, .sched, .content, .depot, .strands, .cache, .coh, .link, .dram, .err, .mgmt, .out] s t) (execCmoInval m s) := by
  unfold execCmoInval
  repeat' first
    | with_reducible apply Moves.refl
    | with_reducible refine ResAll.imp (fun _ h => Moves.thenOp h (Within.mk rfl) ?_) (State.cohRow_writes ..)

theorem execTokenReturn_writes (m : CohMsg) (s : State) :
    ResAll (fun t => Moves [.objs, .mem, .flash, .routes, .sched, .content, .depot, .strands, .cache, .coh, .link, .dram, .err, .mgmt, .out] s t) (execTokenReturn m s) := by
  unfold execTokenReturn
  repeat' first
    | with_reducible apply Moves.refl
    | with_reducible refine ResAll.imp (fun _ h => Moves.thenOp h (Within.mk rfl) ?_) (State.cohRow_writes ..)

theorem execSnpShared_writes (m : CohMsg) (s : State) :
    ResAll (fun t => Moves [.objs, .mem, .flash, .routes, .sched, .content, .depot, .strands, .cache, .coh, .link, .dram, .err, .mgmt, .out] s t) (execSnpShared m s) := by
  unfold execSnpShared
  repeat' first
    | with_reducible apply Moves.refl
    | with_reducible refine ResAll.imp (fun _ h => Moves.thenOp h (Within.mk rfl) ?_) (State.cohRow_writes ..)

theorem execSnpInv_writes (m : CohMsg) (s : State) :
    ResAll (fun t => Moves [.objs, .mem, .flash, .routes, .sched, .content, .depot, .strands, .cache, .coh, .link, .dram, .err, .mgmt, .out] s t) (execSnpInv m s) := by
  unfold execSnpInv
  repeat' first
    | with_reducible apply Moves.refl
    | with_reducible refine ResAll.imp (fun _ h => Moves.thenOp h (Within.mk rfl) ?_) (State.cohRow_writes ..)

theorem execSnpData_writes (m : CohMsg) (s : State) :
    ResAll (fun t => Moves [.objs, .mem, .flash, .routes, .sched, .content, .depot, .strands, .cache, .coh, .link, .dram, .err, .mgmt, .out] s t) (execSnpData m s) := by
  unfold execSnpData
  repeat' first
    | with_reducible apply Moves.refl
    | with_reducible refine ResAll.imp (fun _ h => Moves.thenOp h (Within.mk rfl) ?_) (State.cohRow_writes ..)

theorem execSnpClean_writes (m : CohMsg) (s : State) :
    ResAll (fun t => Moves [.objs, .mem, .flash, .routes, .sched, .content, .depot, .strands, .cache, .coh, .link, .dram, .err, .mgmt, .out] s t) (execSnpClean m s) := by
  unfold execSnpClean
  repeat' first
    | with_reducible apply Moves.refl
    | with_reducible refine ResAll.imp (fun _ h => Moves.thenOp h (Within.mk rfl) ?_) (State.cohRow_writes ..)

theorem execFwdShared_writes (m : CohMsg) (s : State) :
    ResAll (fun t => Moves [.objs, .mem, .flash, .routes, .sched, .content, .depot, .strands, .cache, .coh, .link, .dram, .err, .mgmt, .out] s t) (execFwdShared m s) := by
  unfold execFwdShared
  repeat' first
    | with_reducible apply Moves.refl
    | with_reducible refine ResAll.imp (fun _ h => Moves.thenOp h (Within.mk rfl) ?_) (State.cohRow_writes ..)

theorem execFwdOwn_writes (m : CohMsg) (s : State) :
    ResAll (fun t => Moves [.objs, .mem, .flash, .routes, .sched, .content, .depot, .strands, .cache, .coh, .link, .dram, .err, .mgmt, .out] s t) (execFwdOwn m s) := by
  unfold execFwdOwn
  repeat' first
    | with_reducible apply Moves.refl
    | with_reducible refine ResAll.imp (fun _ h => Moves.thenOp h (Within.mk rfl) ?_) (State.cohRow_writes ..)

theorem execSnpDiscard_writes (m : CohMsg) (s : State) :
    ResAll (fun t => Moves [.objs, .mem, .flash, .routes, .sched, .content, .depot, .strands, .cache, .coh, .link, .dram, .err, .mgmt, .out] s t) (execSnpDiscard m s) := by
  unfold execSnpDiscard
  repeat' first
    | with_reducible apply Moves.refl
    | with_reducible refine ResAll.imp (fun _ h => Moves.thenOp h (Within.mk rfl) ?_) (State.cohRow_writes ..)

theorem execGangRd_writes (m : CohMsg) (s : State) :
    ResAll (fun t => Moves [.objs, .mem, .flash, .routes, .sched, .content, .depot, .strands, .cache, .coh, .link, .dram, .err, .mgmt, .out] s t) (execGangRd m s) := by
  unfold execGangRd
  repeat' first
    | with_reducible apply Moves.refl
    | with_reducible refine ResAll.imp (fun _ h => Moves.thenOp h (Within.mk rfl) ?_) (State.cohRow_writes ..)

theorem execGangOwn_writes (m : CohMsg) (s : State) :
    ResAll (fun t => Moves [.objs, .mem, .flash, .routes, .sched, .content, .depot, .strands, .cache, .coh, .link, .dram, .err, .mgmt, .out] s t) (execGangOwn m s) := by
  unfold execGangOwn
  repeat' first
    | with_reducible apply Moves.refl
    | with_reducible refine ResAll.imp (fun _ h => Moves.thenOp h (Within.mk rfl) ?_) (State.cohRow_writes ..)

theorem execCohAck_writes (m : CohMsg) (s : State) :
    ResAll (fun t => Moves [.objs, .mem, .flash, .routes, .sched, .content, .depot, .strands, .cache, .coh, .link, .dram, .err, .mgmt, .out] s t) (execCohAck m s) := by
  unfold execCohAck
  repeat' first
    | with_reducible apply Moves.refl
    | with_reducible refine ResAll.imp (fun _ h => Moves.thenOp h (Within.mk rfl) ?_) (State.cohRow_writes ..)

theorem execAckLost_writes (m : CohMsg) (s : State) :
    ResAll (fun t => Moves [.objs, .mem, .flash, .routes, .sched, .content, .depot, .strands, .cache, .coh, .link, .dram, .err, .mgmt, .out] s t) (execAckLost m s) := by
  unfold execAckLost
  repeat' first
    | with_reducible apply Moves.refl
    | with_reducible refine ResAll.imp (fun _ h => Moves.thenOp h (Within.mk rfl) ?_) (State.cohRow_writes ..)

theorem execCohRetry_writes (m : CohMsg) (s : State) :
    ResAll (fun t => Moves [.objs, .mem, .flash, .routes, .sched, .content, .depot, .strands, .cache, .coh, .link, .dram, .err, .mgmt, .out] s t) (execCohRetry m s) := by
  unfold execCohRetry
  repeat' first
    | with_reducible apply Moves.refl
    | with_reducible refine ResAll.imp (fun _ h => Moves.thenOp h (Within.mk rfl) ?_) (State.cohRow_writes ..)

theorem execCohGrant_writes (m : CohMsg) (s : State) :
    ResAll (fun t => Moves [.objs, .mem, .flash, .routes, .sched, .content, .depot, .strands, .cache, .coh, .link, .dram, .err, .mgmt, .out] s t) (execCohGrant m s) := by
  unfold execCohGrant
  repeat' first
    | with_reducible apply Moves.refl
    | with_reducible refine ResAll.imp (fun _ h => Moves.thenOp h (Within.mk rfl) ?_) (State.cohRow_writes ..)

theorem execCohCmp_writes (m : CohMsg) (s : State) :
    ResAll (fun t => Moves [.objs, .mem, .flash, .routes, .sched, .content, .depot, .strands, .cache, .coh, .link, .dram, .err, .mgmt, .out] s t) (execCohCmp m s) := by
  unfold execCohCmp
  repeat' first
    | with_reducible apply Moves.refl
    | with_reducible refine ResAll.imp (fun _ h => Moves.thenOp h (Within.mk rfl) ?_) (State.cohRow_writes ..)

theorem execWbAck_writes (m : CohMsg) (s : State) :
    ResAll (fun t => Moves [.objs, .mem, .flash, .routes, .sched, .content, .depot, .strands, .cache, .coh, .link, .dram, .err, .mgmt, .out] s t) (execWbAck m s) := by
  unfold execWbAck
  repeat' first
    | with_reducible apply Moves.refl
    | with_reducible refine ResAll.imp (fun _ h => Moves.thenOp h (Within.mk rfl) ?_) (State.cohRow_writes ..)

theorem execOwnerMoved_writes (m : CohMsg) (s : State) :
    ResAll (fun t => Moves [.objs, .mem, .flash, .routes, .sched, .content, .depot, .strands, .cache, .coh, .link, .dram, .err, .mgmt, .out] s t) (execOwnerMoved m s) := by
  unfold execOwnerMoved
  repeat' first
    | with_reducible apply Moves.refl
    | with_reducible refine ResAll.imp (fun _ h => Moves.thenOp h (Within.mk rfl) ?_) (State.cohRow_writes ..)

theorem execCohData_writes (m : CohMsg) (s : State) :
    ResAll (fun t => Moves [.objs, .mem, .flash, .routes, .sched, .content, .depot, .strands, .cache, .coh, .link, .dram, .err, .mgmt, .out] s t) (execCohData m s) := by
  unfold execCohData
  repeat' first
    | with_reducible apply Moves.refl
    | with_reducible refine ResAll.imp (fun _ h => Moves.thenOp h (Within.mk rfl) ?_) (State.cohRow_writes ..)

theorem execSnpDataRsp_writes (m : CohMsg) (s : State) :
    ResAll (fun t => Moves [.objs, .mem, .flash, .routes, .sched, .content, .depot, .strands, .cache, .coh, .link, .dram, .err, .mgmt, .out] s t) (execSnpDataRsp m s) := by
  unfold execSnpDataRsp
  repeat' first
    | with_reducible apply Moves.refl
    | with_reducible refine ResAll.imp (fun _ h => Moves.thenOp h (Within.mk rfl) ?_) (State.cohRow_writes ..)

theorem execWbDirty_writes (m : CohMsg) (s : State) :
    ResAll (fun t => Moves [.objs, .mem, .flash, .routes, .sched, .content, .depot, .strands, .cache, .coh, .link, .dram, .err, .mgmt, .out] s t) (execWbDirty m s) := by
  unfold execWbDirty
  repeat' first
    | with_reducible apply Moves.refl
    | with_reducible refine ResAll.imp (fun _ h => Moves.thenOp h (Within.mk rfl) ?_) (State.cohRow_writes ..)

theorem execEvictClean_writes (m : CohMsg) (s : State) :
    ResAll (fun t => Moves [.objs, .mem, .flash, .routes, .sched, .content, .depot, .strands, .cache, .coh, .link, .dram, .err, .mgmt, .out] s t) (execEvictClean m s) := by
  unfold execEvictClean
  repeat' first
    | with_reducible apply Moves.refl
    | with_reducible refine ResAll.imp (fun _ h => Moves.thenOp h (Within.mk rfl) ?_) (State.cohRow_writes ..)

theorem execPdSet_writes (m : CohMsg) (s : State) :
    ResAll (fun t => Moves [.objs, .mem, .flash, .routes, .sched, .content, .depot, .strands, .cache, .coh, .link, .dram, .err, .mgmt, .out] s t) (execPdSet m s) := by
  unfold execPdSet
  repeat' first
    | with_reducible apply Moves.refl
    | with_reducible refine ResAll.imp (fun _ h => Moves.thenOp h (Within.mk rfl) ?_) (State.cohRow_writes ..)

/-! ## Walk -/

theorem State.ackForDead_writes (s : State) (dead : Nat → Bool) :
    Moves [.objs, .mem, .flash, .content, .depot, .cache, .coh, .link, .dram, .err, .mgmt, .out] s (State.ackForDead s dead) := by
  unfold State.ackForDead
  repeat' first
    | with_reducible apply Moves.refl
    | ((with_reducible apply Within.mk); exact rfl)
    | with_reducible apply Moves.thenOp (State.setDir_writes ..)
    | with_reducible apply Moves.thenOp (State.takeAnswer_writes ..)
    | (with_reducible apply Moves.foldl; intro _ _)
    | split

theorem State.poisonLine_writes (s : State) (dead : Nat → Bool) (l : Nat) :
    Moves [.objs, .cache, .coh, .link, .dram, .out] s (State.poisonLine s dead l) := by
  unfold State.poisonLine
  repeat' first
    | with_reducible apply Moves.refl
    | assumption
    | ((with_reducible apply Within.mk); exact rfl)
    | with_reducible apply Moves.thenOp (State.dropL2_writes ..)
    | with_reducible apply Moves.thenOp (State.newTxn_writes ..)
    | with_reducible apply Moves.thenOp (State.openTxn_writes ..)
    | with_reducible apply Moves.thenOp (State.poison_writes ..)
    | with_reducible apply Moves.thenOp (State.sendSnoop_writes ..)
    | with_reducible apply Moves.thenOp (State.setDir_writes ..)
    | with_reducible apply Moves.ite
    | (with_reducible apply upd_parts <;> first | exact .inl rfl | exact .inr rfl)
    | simp only [Moves.mk_eq]
    | with_reducible refine MovesMk.upd rfl (.inl rfl) (.inl rfl) ?_ ?_
    | (with_reducible apply Moves.foldl; intro _ _)
    | dsimp only
    | split

theorem State.walkEntry_writes (s : State) (dead : Nat → Bool) (l : Nat) :
    Moves [.objs, .cache, .coh, .link, .dram, .out] s (State.walkEntry s dead l) := by
  unfold State.walkEntry
  repeat' first
    | with_reducible apply Moves.refl
    | assumption
    | ((with_reducible apply Within.mk); exact rfl)
    | with_reducible apply Moves.thenOp (State.poison_writes ..)
    | with_reducible apply Moves.thenOp (State.setDir_writes ..)
    | with_reducible apply Moves.ite
    | (with_reducible apply upd_parts <;> first | exact .inl rfl | exact .inr rfl)
    | simp only [Moves.mk_eq]
    | with_reducible refine MovesMk.upd rfl (.inl rfl) (.inl rfl) ?_ ?_
    | (with_reducible apply Moves.foldl; intro _ _)
    | dsimp only
    | split

theorem State.walk_writes (s : State) (dead : Nat → Bool) (name : Nat) :
    Moves [.objs, .mem, .flash, .content, .depot, .cache, .coh, .link, .dram, .err, .mgmt, .out] s (State.walk s dead name) := by
  unfold State.walk
  repeat' first
    | with_reducible apply Moves.refl
    | assumption
    | ((with_reducible apply Within.mk); exact rfl)
    | with_reducible apply Moves.thenOp (State.ackForDead_writes ..)
    | with_reducible apply Moves.thenOp (State.grantTokens_writes ..)
    | with_reducible apply Moves.thenOp (State.oinc_writes ..)
    | with_reducible apply Moves.thenOp (State.poisonLine_writes ..)
    | with_reducible apply Moves.thenOp (State.raise_writes ..)
    | with_reducible apply Moves.thenOp (State.walkEntry_writes ..)
    | with_reducible apply Moves.ite
    | (with_reducible apply upd_parts <;> first | exact .inl rfl | exact .inr rfl)
    | simp only [Moves.mk_eq]
    | with_reducible refine MovesMk.upd rfl (.inl rfl) (.inl rfl) ?_ ?_
    | (with_reducible apply Moves.foldl; intro _ _)
    | dsimp only
    | split

theorem State.fenceL2_writes (s : State) (p : Nat) :
    Moves [.objs, .mem, .flash, .content, .depot, .cache, .coh, .link, .dram, .err, .mgmt, .out] s (State.fenceL2 s p) := by
  unfold State.fenceL2
  repeat' first
    | with_reducible apply Moves.refl
    | assumption
    | ((with_reducible apply Within.mk); exact rfl)
    | with_reducible apply Moves.thenOp (State.walk_writes ..)
    | with_reducible apply Moves.ite
    | (with_reducible apply upd_parts <;> first | exact .inl rfl | exact .inr rfl)
    | simp only [Moves.mk_eq]
    | with_reducible refine MovesMk.upd rfl (.inl rfl) (.inl rfl) ?_ ?_
    | (with_reducible apply Moves.foldl; intro _ _)
    | dsimp only
    | split

theorem State.dropHomed_writes (s : State) (gone : Nat → Bool) :
    Moves [.cache, .coh] s (State.dropHomed s gone) := by
  unfold State.dropHomed
  repeat' first
    | with_reducible apply Moves.refl
    | assumption
    | ((with_reducible apply Within.mk); exact rfl)
    | with_reducible apply Moves.ite
    | (with_reducible apply upd_parts <;> first | exact .inl rfl | exact .inr rfl)
    | simp only [Moves.mk_eq]
    | with_reducible refine MovesMk.upd rfl (.inl rfl) (.inl rfl) ?_ ?_
    | (with_reducible apply Moves.foldl; intro _ _)
    | dsimp only
    | split

theorem State.failRequests_writes (s : State) (d : Nat) :
    Moves [.objs, .routes, .sched, .depot, .strands, .cache, .coh, .link, .out] s (State.failRequests s d) := by
  unfold State.failRequests
  repeat' first
    | with_reducible apply Moves.refl
    | assumption
    | ((with_reducible apply Within.mk); exact rfl)
    | with_reducible apply Moves.thenOp (State.bufferLine_writes ..)
    | with_reducible apply Moves.thenOp (State.deliver_writes ..)
    | with_reducible apply Moves.thenOp (State.dropReq_writes ..)
    | with_reducible apply Moves.thenOp (State.emit_writes ..)
    | with_reducible apply Moves.thenOp (State.wakeStrand_writes ..)
    | with_reducible apply Moves.ite
    | (with_reducible apply upd_parts <;> first | exact .inl rfl | exact .inr rfl)
    | simp only [Moves.mk_eq]
    | with_reducible refine MovesMk.upd rfl (.inl rfl) (.inl rfl) ?_ ?_
    | (with_reducible apply Moves.foldl; intro _ _)
    | dsimp only
    | split

theorem State.applyDeath_writes (s : State) (d : Nat) :
    Moves [.freeCount, .objs, .mem, .flash, .routes, .sched, .scn, .cairn, .summit, .content, .depot, .strands, .cache, .coh, .peers, .link, .hostMem, .host, .dram, .err, .mgmt, .out] s (State.applyDeath s d) := by
  unfold State.applyDeath
  repeat' first
    | with_reducible apply Moves.refl
    | assumption
    | ((with_reducible apply Within.mk); exact rfl)
    | with_reducible apply Moves.thenOp (State.closeOut_writes ..)
    | with_reducible apply Moves.thenOp (State.discardSpan_writes ..)
    | with_reducible apply Moves.thenOp (State.dropHomed_writes ..)
    | with_reducible apply Moves.thenOp (State.failRequests_writes ..)
    | with_reducible apply Moves.thenOp (State.losePeer_writes ..)
    | with_reducible apply Moves.thenOp (State.oset_writes ..)
    | with_reducible apply Moves.thenOp (State.walk_writes ..)
    | with_reducible apply Moves.ite
    | (with_reducible apply upd_parts <;> first | exact .inl rfl | exact .inr rfl)
    | simp only [Moves.mk_eq]
    | with_reducible refine MovesMk.upd rfl (.inl rfl) (.inl rfl) ?_ ?_
    | (with_reducible apply Moves.foldl; intro _ _)
    | dsimp only
    | split

/-! ## Retreat -/

theorem State.retreatWork_writes (s : State) :
    Moves [.freeCount, .objs, .flash, .routes, .sched, .scn, .cairn, .summit, .content, .depot, .strands, .cache, .coh, .link, .hostMem, .host, .dram, .err, .mgmt, .out] s (State.retreatWork s) := by
  unfold State.retreatWork
  repeat' first
    | with_reducible apply Moves.refl
    | assumption
    | ((with_reducible apply Within.mk); exact rfl)
    | with_reducible apply Moves.thenOp (State.discardSpan_writes ..)
    | with_reducible apply Moves.thenOp (State.endRoute_writes ..)
    | with_reducible apply Moves.thenOp (State.sweepL2_writes ..)
    | with_reducible apply Moves.thenOp (State.updRoute_writes ..)
    | with_reducible apply Moves.ite
    | (with_reducible apply upd_parts <;> first | exact .inl rfl | exact .inr rfl)
    | simp only [Moves.mk_eq]
    | with_reducible refine MovesMk.upd rfl (.inl rfl) (.inl rfl) ?_ ?_
    | (with_reducible apply Moves.foldl; intro _ _)
    | dsimp only
    | split

theorem State.enterRetreat_writes (s : State) (bit : Nat) :
    Moves [.freeCount, .objs, .sys, .flash, .routes, .sched, .scn, .cairn, .summit, .content, .depot, .strands, .cache, .coh, .link, .hostMem, .host, .dram, .err, .mgmt, .out] s (State.enterRetreat s bit) := by
  unfold State.enterRetreat
  repeat' first
    | with_reducible apply Moves.refl
    | assumption
    | ((with_reducible apply Within.mk); exact rfl)
    | with_reducible apply Moves.thenOp (State.oinc_writes ..)
    | with_reducible apply Moves.thenOp (State.oset_writes ..)
    | with_reducible apply Moves.thenOp (State.retreatWork_writes ..)
    | with_reducible apply Moves.ite
    | (with_reducible apply upd_parts <;> first | exact .inl rfl | exact .inr rfl)
    | simp only [Moves.mk_eq]
    | with_reducible refine MovesMk.upd rfl (.inl rfl) (.inl rfl) ?_ ?_
    | (with_reducible apply Moves.foldl; intro _ _)
    | dsimp only
    | split

theorem State.fatalDevice_writes (s : State) (a : RecArgs) :
    Moves [.freeCount, .objs, .sys, .flash, .routes, .sched, .scn, .cairn, .summit, .content, .depot, .strands, .cache, .coh, .link, .hostMem, .host, .dram, .err, .mgmt, .out] s (State.fatalDevice s a) := by
  unfold State.fatalDevice
  repeat' first
    | with_reducible apply Moves.refl
    | ((with_reducible apply Within.mk); exact rfl)
    | with_reducible apply Moves.thenOp (State.enterRetreat_writes ..)
    | with_reducible apply Moves.thenOp (State.raise_writes ..)

theorem State.reloadRidge_writes (s : State) (q : Nat) :
    Moves [.cairn] s (State.reloadRidge s q) := by
  unfold State.reloadRidge
  repeat' first
    | with_reducible apply Moves.refl
    | ((with_reducible apply Within.mk); exact rfl)
    | with_reducible apply Moves.thenOp (State.reloadBank_writes ..)
    | (with_reducible apply Moves.foldl; intro _ _)

theorem State.passSpare_writes (s : State) (low high p : Nat) :
    Moves [.objs, .sys, .cairn, .strands] s (State.passSpare s low high p) := by
  unfold State.passSpare
  repeat' first
    | with_reducible apply Moves.refl
    | assumption
    | ((with_reducible apply Within.mk); exact rfl)
    | with_reducible apply Moves.thenOp (State.reloadRidge_writes ..)
    | with_reducible apply Moves.thenOp (State.settleWrong_writes ..)
    | with_reducible apply Moves.ite
    | (with_reducible apply upd_parts <;> first | exact .inl rfl | exact .inr rfl)
    | simp only [Moves.mk_eq]
    | with_reducible refine MovesMk.upd rfl (.inl rfl) (.inl rfl) ?_ ?_
    | (with_reducible apply Moves.foldl; intro _ _)
    | dsimp only
    | split

theorem State.loseRidge_writes (s : State) (p : Nat) (failed : Bool) :
    Moves [.freeCount, .objs, .mem, .sys, .flash, .routes, .sched, .scn, .cairn, .summit, .content, .depot, .strands, .cache, .coh, .link, .hostMem, .host, .dram, .err, .mgmt, .out] s (State.loseRidge s p failed) := by
  unfold State.loseRidge
  repeat' first
    | with_reducible apply Moves.refl
    | assumption
    | ((with_reducible apply Within.mk); exact rfl)
    | with_reducible apply Moves.thenOp (State.enterRetreat_writes ..)
    | with_reducible apply Moves.thenOp (State.fenceL2_writes ..)
    | with_reducible apply Moves.thenOp (State.reloadRidge_writes ..)
    | with_reducible apply Moves.thenOp (State.sweepL2_writes ..)
    | with_reducible apply Moves.thenOp (State.passSpare_writes ..)
    | with_reducible apply Moves.thenOp (State.settleWrong_writes ..)
    | with_reducible apply Moves.ite
    | (with_reducible apply upd_parts <;> first | exact .inl rfl | exact .inr rfl)
    | simp only [Moves.mk_eq]
    | with_reducible refine MovesMk.upd rfl (.inl rfl) (.inl rfl) ?_ ?_
    | (with_reducible apply Moves.foldl; intro _ _)
    | dsimp only
    | split

theorem State.loseStrand_writes (s : State) (p : Nat) (k : Nat) :
    Moves [.freeCount, .objs, .mem, .sys, .flash, .routes, .sched, .scn, .cairn, .summit, .content, .depot, .strands, .cache, .coh, .link, .hostMem, .host, .dram, .err, .mgmt, .out] s (State.loseStrand s p k) := by
  unfold State.loseStrand
  repeat' first
    | with_reducible apply Moves.refl
    | assumption
    | ((with_reducible apply Within.mk); exact rfl)
    | with_reducible apply Moves.thenOp (State.loseRidge_writes ..)
    | with_reducible apply Moves.ite
    | (with_reducible apply upd_parts <;> first | exact .inl rfl | exact .inr rfl)
    | simp only [Moves.mk_eq]
    | with_reducible refine MovesMk.upd rfl (.inl rfl) (.inl rfl) ?_ ?_
    | (with_reducible apply Moves.foldl; intro _ _)
    | dsimp only
    | split

theorem State.pathFails_writes (s : State) (d : Nat) :
    Moves [.freeCount, .objs, .sys, .flash, .routes, .sched, .scn, .cairn, .summit, .content, .depot, .strands, .cache, .coh, .link, .hostMem, .host, .dram, .err, .mgmt, .out] s (State.pathFails s d) := by
  unfold State.pathFails
  repeat' first
    | with_reducible apply Moves.refl
    | assumption
    | ((with_reducible apply Within.mk); exact rfl)
    | with_reducible apply Moves.thenOp (State.faultReplay_writes ..)
    | with_reducible apply Moves.thenOp (State.raise_writes ..)
    | with_reducible apply Moves.ite
    | (with_reducible apply upd_parts <;> first | exact .inl rfl | exact .inr rfl)
    | simp only [Moves.mk_eq]
    | with_reducible refine MovesMk.upd rfl (.inl rfl) (.inl rfl) ?_ ?_
    | (with_reducible apply Moves.foldl; intro _ _)
    | dsimp only
    | split

theorem State.resourceFails_writes (s : State) (r : Resource) :
    Moves [.freeCount, .objs, .mem, .sys, .flash, .routes, .sched, .scn, .cairn, .summit, .content, .depot, .strands, .cache, .coh, .link, .hostMem, .host, .dram, .err, .mgmt, .out] s (State.resourceFails s r) := by
  unfold State.resourceFails
  repeat' first
    | with_reducible apply Moves.refl
    | assumption
    | ((with_reducible apply Within.mk); exact rfl)
    | with_reducible apply Moves.thenOp (State.loseRidge_writes ..)
    | with_reducible apply Moves.thenOp (State.loseStrand_writes ..)
    | with_reducible apply Moves.thenOp (State.raise_writes ..)
    | with_reducible apply Moves.thenOp (State.replayAll_writes ..)
    | with_reducible apply Moves.thenOp (State.pathFails_writes ..)
    | with_reducible apply Moves.ite
    | (with_reducible apply upd_parts <;> first | exact .inl rfl | exact .inr rfl)
    | simp only [Moves.mk_eq]
    | with_reducible refine MovesMk.upd rfl (.inl rfl) (.inl rfl) ?_ ?_
    | (with_reducible apply Moves.foldl; intro _ _)
    | dsimp only
    | split

theorem State.retireAskedRidges_writes (s : State) :
    Moves [.freeCount, .objs, .mem, .sys, .flash, .routes, .sched, .scn, .cairn, .summit, .content, .depot, .strands, .cache, .coh, .link, .hostMem, .host, .dram, .err, .mgmt, .out] s (State.retireAskedRidges s) := by
  unfold State.retireAskedRidges
  repeat' first
    | with_reducible apply Moves.refl
    | assumption
    | ((with_reducible apply Within.mk); exact rfl)
    | with_reducible apply Moves.thenOp (State.loseRidge_writes ..)
    | with_reducible apply Moves.thenOp (State.replayAll_writes ..)
    | with_reducible apply Moves.ite
    | (with_reducible apply upd_parts <;> first | exact .inl rfl | exact .inr rfl)
    | simp only [Moves.mk_eq]
    | with_reducible refine MovesMk.upd rfl (.inl rfl) (.inl rfl) ?_ ?_
    | (with_reducible apply Moves.foldl; intro _ _)
    | dsimp only
    | split

/-! ## Resets -/

theorem State.hostViolation_writes (s : State) (port : Nat) :
    Moves [.objs] s (State.hostViolation s port) := by
  unfold State.hostViolation
  repeat' first
    | with_reducible apply Moves.refl
    | ((with_reducible apply Within.mk); exact rfl)
    | with_reducible apply Moves.thenOp (State.oinc_writes ..)

theorem State.setChan_writes (s : State) (c : Nat) (x : Chan) :
    Moves [.eng] s (State.setChan s c x) := by
  unfold State.setChan
  repeat' first
    | with_reducible apply Moves.refl
    | (with_reducible apply upd_parts <;> first | exact .inl rfl | exact .inr rfl)
    | simp only [Moves.mk_eq]
    | with_reducible refine MovesMk.upd rfl (.inl rfl) (.inl rfl) ?_ ?_

theorem State.postEngine_writes (s : State) (x : EngEntry) (status : Nat) (value : Nat) (aux : Nat) (fault : Option AccessFault) :
    Moves [.routes, .cairn, .hostMem, .host, .out] s (State.postEngine s x status value aux fault) := by
  unfold State.postEngine
  repeat' first
    | with_reducible apply Moves.refl
    | ((with_reducible apply Within.mk); exact rfl)
    | with_reducible apply Moves.thenOp (State.complete_writes ..)

theorem State.resetEngines_writes (s : State) (t : Nat) (post : Bool) :
    Moves [.objs, .routes, .cairn, .depot, .hostMem, .host, .eng, .out] s (State.resetEngines s t post) := by
  unfold State.resetEngines
  repeat' first
    | with_reducible apply Moves.refl
    | ((with_reducible apply Within.mk); exact rfl)
    | with_reducible apply Moves.thenOp (State.postEngine_writes ..)
    | with_reducible apply Moves.thenOp (State.releaseHeld_writes ..)
    | with_reducible apply Moves.ite
    | (with_reducible apply upd_parts <;> first | exact .inl rfl | exact .inr rfl)
    | simp only [Moves.mk_eq]
    | with_reducible refine MovesMk.upd rfl (.inl rfl) (.inl rfl) ?_ ?_
    | (with_reducible apply Moves.foldl; intro _ _)

theorem State.stopCairn_writes (s : State) (t : Nat) :
    Moves [.routes, .cairn, .hostMem, .host, .out] s (State.stopCairn s t) := by
  unfold State.stopCairn
  repeat' first
    | with_reducible apply Moves.refl
    | assumption
    | ((with_reducible apply Within.mk); exact rfl)
    | with_reducible apply Moves.thenOp (State.complete_writes ..)
    | with_reducible apply Moves.ite
    | (with_reducible apply upd_parts <;> first | exact .inl rfl | exact .inr rfl)
    | simp only [Moves.mk_eq]
    | with_reducible refine MovesMk.upd rfl (.inl rfl) (.inl rfl) ?_ ?_
    | (with_reducible apply Moves.foldl; intro _ _)
    | dsimp only
    | split

theorem State.tenantSweep_writes (s : State) (t : Nat) :
    Moves [.objs, .routes, .sched, .cairn, .content, .depot, .link, .hostMem, .host, .err, .mgmt, .out] s (State.tenantSweep s t) := by
  unfold State.tenantSweep
  repeat' first
    | with_reducible apply Moves.refl
    | assumption
    | ((with_reducible apply Within.mk); exact rfl)
    | with_reducible apply Moves.thenOp (State.dropTable_writes ..)
    | with_reducible apply Moves.thenOp (State.freeObj_writes ..)
    | with_reducible apply Moves.thenOp (State.mapFn_writes ..)
    | with_reducible apply Moves.thenOp (State.closeRoute_writes ..)
    | with_reducible apply Moves.thenOp (State.stopCairn_writes ..)
    | with_reducible apply Moves.ite
    | (with_reducible apply upd_parts <;> first | exact .inl rfl | exact .inr rfl)
    | simp only [Moves.mk_eq]
    | with_reducible refine MovesMk.upd rfl (.inl rfl) (.inl rfl) ?_ ?_
    | (with_reducible apply Moves.foldl; intro _ _)
    | dsimp only
    | split

theorem State.tenantResets_writes (s : State) (tick : Nat) :
    Moves [.objs, .routes, .sched, .cairn, .content, .depot, .link, .hostMem, .host, .err, .mgmt, .out] s (State.tenantResets s tick) := by
  unfold State.tenantResets
  repeat' first
    | with_reducible apply Moves.refl
    | ((with_reducible apply Within.mk); exact rfl)
    | with_reducible apply Moves.thenOp (State.tenantSweep_writes ..)
    | (with_reducible apply Moves.foldl; intro _ _)

theorem State.askAbort_writes (s : State) (k : RouteKey) (status : Nat) :
    Moves [.routes] s (State.askAbort s k status) := by
  unfold State.askAbort
  repeat' first
    | with_reducible apply Moves.refl
    | assumption
    | ((with_reducible apply Within.mk); exact rfl)
    | with_reducible apply Moves.thenOp (State.updRoute_writes ..)
    | with_reducible apply Moves.ite
    | (with_reducible apply upd_parts <;> first | exact .inl rfl | exact .inr rfl)
    | simp only [Moves.mk_eq]
    | with_reducible refine MovesMk.upd rfl (.inl rfl) (.inl rfl) ?_ ?_
    | (with_reducible apply Moves.foldl; intro _ _)
    | dsimp only
    | split

theorem State.clearMailbox_writes (s : State) (t : Nat) :
    Moves [.host, .mgmt] s (State.clearMailbox s t) := by
  unfold State.clearMailbox
  repeat' first
    | with_reducible apply Moves.refl
    | ((with_reducible apply Within.mk); exact rfl)
    | with_reducible apply Moves.thenOp (State.mapFn_writes ..)
    | (with_reducible apply upd_parts <;> first | exact .inl rfl | exact .inr rfl)
    | simp only [Moves.mk_eq]
    | with_reducible refine MovesMk.upd rfl (.inl rfl) (.inl rfl) ?_ ?_

theorem State.widenReset_writes (s : State) (t : Nat) :
    Moves [.objs, .routes, .sched, .cairn, .content, .depot, .link, .hostMem, .host, .err, .mgmt, .out] s (State.widenReset s t) := by
  unfold State.widenReset
  repeat' first
    | with_reducible apply Moves.refl
    | assumption
    | ((with_reducible apply Within.mk); exact rfl)
    | with_reducible apply Moves.thenOp (State.clearMailbox_writes ..)
    | with_reducible apply Moves.thenOp (State.mapFn_writes ..)
    | with_reducible apply Moves.thenOp (State.tenantSweep_writes ..)
    | with_reducible apply Moves.ite
    | (with_reducible apply upd_parts <;> first | exact .inl rfl | exact .inr rfl)
    | simp only [Moves.mk_eq]
    | with_reducible refine MovesMk.upd rfl (.inl rfl) (.inl rfl) ?_ ?_
    | (with_reducible apply Moves.foldl; intro _ _)
    | dsimp only
    | split

theorem State.startReset_writes (s : State) (t : Nat) (kind : ResetKind) :
    Moves [.objs, .routes, .sched, .cairn, .content, .depot, .link, .hostMem, .host, .eng, .err, .mgmt, .out] s (State.startReset s t kind) := by
  unfold State.startReset
  repeat' first
    | with_reducible apply Moves.refl
    | assumption
    | ((with_reducible apply Within.mk); exact rfl)
    | with_reducible apply Moves.thenOp (State.askAbort_writes ..)
    | with_reducible apply Moves.thenOp (State.clearMailbox_writes ..)
    | with_reducible apply Moves.thenOp (State.mapFn_writes ..)
    | with_reducible apply Moves.thenOp (State.resetEngines_writes ..)
    | with_reducible apply Moves.thenOp (State.tenantSweep_writes ..)
    | with_reducible apply Moves.thenOp (State.widenReset_writes ..)
    | with_reducible apply Moves.ite
    | (with_reducible apply upd_parts <;> first | exact .inl rfl | exact .inr rfl)
    | simp only [Moves.mk_eq]
    | with_reducible refine MovesMk.upd rfl (.inl rfl) (.inl rfl) ?_ ?_
    | (with_reducible apply Moves.foldl; intro _ _)
    | dsimp only
    | split

theorem State.endReset_writes (s : State) (t : Nat) :
    Moves [.host, .err] s (State.endReset s t) := by
  unfold State.endReset
  repeat' first
    | with_reducible apply Moves.refl
    | assumption
    | ((with_reducible apply Within.mk); exact rfl)
    | with_reducible apply Moves.thenOp (State.closeHandling_writes ..)
    | with_reducible apply Moves.thenOp (State.mapFn_writes ..)
    | with_reducible apply Moves.thenOp (State.setFn_writes ..)
    | with_reducible apply Moves.ite
    | (with_reducible apply upd_parts <;> first | exact .inl rfl | exact .inr rfl)
    | simp only [Moves.mk_eq]
    | with_reducible refine MovesMk.upd rfl (.inl rfl) (.inl rfl) ?_ ?_
    | (with_reducible apply Moves.foldl; intro _ _)
    | dsimp only
    | split

theorem State.fatalTenant_writes (s : State) (t : Nat) (a : RecArgs) :
    Moves [.objs, .routes, .sched, .cairn, .content, .depot, .link, .hostMem, .host, .eng, .err, .mgmt, .out] s (State.fatalTenant s t a) := by
  unfold State.fatalTenant
  repeat' first
    | with_reducible apply Moves.refl
    | ((with_reducible apply Within.mk); exact rfl)
    | with_reducible apply Moves.thenOp (State.raise_writes ..)
    | with_reducible apply Moves.thenOp (State.startReset_writes ..)

theorem execFunctionLevelReset_writes (t : Nat) (s : State) :
    ResAll (fun t => Moves [.objs, .routes, .sched, .cairn, .content, .depot, .link, .hostMem, .host, .eng, .err, .mgmt, .out] s t) (execFunctionLevelReset t s) := by
  unfold execFunctionLevelReset
  repeat' first
    | with_reducible apply Moves.refl
    | ((with_reducible apply Within.mk); exact rfl)
    | with_reducible apply Moves.thenOp (State.startReset_writes ..)
    | with_reducible apply ResAll.next'
    | with_reducible apply Moves.ite

theorem execManagementReset_writes (t : Nat) (s : State) :
    ResAll (fun t => Moves [.objs, .routes, .sched, .cairn, .content, .depot, .link, .hostMem, .host, .eng, .err, .mgmt, .out] s t) (execManagementReset t s) := by
  unfold execManagementReset
  repeat' first
    | with_reducible apply Moves.refl
    | ((with_reducible apply Within.mk); exact rfl)
    | with_reducible apply Moves.thenOp (State.startReset_writes ..)
    | with_reducible apply ResAll.next'
    | with_reducible apply Moves.ite

theorem execTenantResetComplete_writes (t : Nat) (s : State) :
    ResAll (fun t => Moves [.host, .err] s t) (execTenantResetComplete t s) := by
  unfold execTenantResetComplete
  repeat' first
    | with_reducible apply Moves.refl
    | ((with_reducible apply Within.mk); exact rfl)
    | with_reducible apply Moves.thenOp (State.endReset_writes ..)
    | with_reducible apply ResAll.next'

end Sys2Proof.Machine
end

