-- ==== Sys2Proof/Laws/FrameQueues.lean ====
section
/-! SUPPORT. What each function may write: queues, channels, admin commands and DRAM. -/

set_option Elab.async false
set_option linter.all false
namespace Sys2Proof.Machine
open Sys2Proof

/-! ## Queues -/

theorem State.dropDoorbell_writes (s : State) (t : Nat) :
    Moves [.objs] s (State.dropDoorbell s t) := by
  unfold State.dropDoorbell
  repeat' first
    | with_reducible apply Moves.refl
    | ((with_reducible apply Within.mk); exact rfl)
    | with_reducible apply Moves.thenOp (State.hostViolation_writes ..)
    | with_reducible apply Moves.thenOp (State.oinc_writes ..)

theorem State.tailDoorbell_writes (s : State) (t : Nat) (q : Nat) (v : Nat) :
    Moves [.objs, .host] s (State.tailDoorbell s t q v) := by
  unfold State.tailDoorbell
  repeat' first
    | with_reducible apply Moves.refl
    | ((with_reducible apply Within.mk); exact rfl)
    | with_reducible apply Moves.thenOp (State.dropDoorbell_writes ..)
    | with_reducible apply Moves.thenOp (State.putWq_writes ..)
    | with_reducible apply Moves.ite
    | split

theorem State.headDoorbell_writes (s : State) (t : Nat) (q : Nat) (v : Nat) :
    Moves [.objs, .routes, .cairn, .hostMem, .host, .out] s (State.headDoorbell s t q v) := by
  unfold State.headDoorbell
  repeat' first
    | with_reducible apply Moves.refl
    | ((with_reducible apply Within.mk); exact rfl)
    | with_reducible apply Moves.thenOp (State.dropDoorbell_writes ..)
    | with_reducible apply Moves.thenOp (State.postDue_writes ..)
    | with_reducible apply Moves.thenOp (State.putCq_writes ..)
    | with_reducible apply Moves.ite
    | split

theorem execWqTailDoorbell_writes (t : Nat) (q : Nat) (v : Nat) (s : State) :
    ResAll (fun t => Moves [.objs, .host] s t) (execWqTailDoorbell t q v s) := by
  unfold execWqTailDoorbell
  repeat' first
    | with_reducible apply Moves.refl
    | ((with_reducible apply Within.mk); exact rfl)
    | with_reducible apply Moves.thenOp (State.tailDoorbell_writes ..)
    | with_reducible apply ResAll.next'

theorem execCqHeadDoorbell_writes (t : Nat) (q : Nat) (v : Nat) (s : State) :
    ResAll (fun t => Moves [.objs, .routes, .cairn, .hostMem, .host, .out] s t) (execCqHeadDoorbell t q v s) := by
  unfold execCqHeadDoorbell
  repeat' first
    | with_reducible apply Moves.refl
    | ((with_reducible apply Within.mk); exact rfl)
    | with_reducible apply Moves.thenOp (State.headDoorbell_writes ..)
    | with_reducible apply ResAll.next'

theorem execMsixCoalesceTimeout_writes (t : Nat) (q : Nat) (s : State) :
    ResAll (fun t => Moves [.host, .out] s t) (execMsixCoalesceTimeout t q s) := by
  unfold execMsixCoalesceTimeout
  repeat' first
    | with_reducible apply Moves.refl
    | ((with_reducible apply Within.mk); exact rfl)
    | with_reducible apply Moves.thenOp (State.putCq_writes ..)
    | with_reducible apply Moves.thenOp (State.signal_writes ..)
    | with_reducible apply ResAll.next'
    | with_reducible apply Moves.ite
    | split

theorem State.aqEnable_writes (s : State) (t : Nat) :
    Moves [.host] s (State.aqEnable s t) := by
  unfold State.aqEnable
  repeat' first
    | with_reducible apply Moves.refl
    | assumption
    | ((with_reducible apply Within.mk); exact rfl)
    | with_reducible apply Moves.thenOp (State.mapFn_writes ..)
    | with_reducible apply Moves.thenOp (State.putCq_writes ..)
    | with_reducible apply Moves.thenOp (State.putWq_writes ..)
    | with_reducible apply Moves.ite
    | (with_reducible apply upd_parts <;> first | exact .inl rfl | exact .inr rfl)
    | simp only [Moves.mk_eq]
    | with_reducible refine MovesMk.upd rfl (.inl rfl) (.inl rfl) ?_ ?_
    | (with_reducible apply Moves.foldl; intro _ _)
    | dsimp only
    | split

theorem State.aqDisable_writes (s : State) (t : Nat) :
    Moves [.routes, .cairn, .host] s (State.aqDisable s t) := by
  unfold State.aqDisable
  repeat' first
    | with_reducible apply Moves.refl
    | assumption
    | ((with_reducible apply Within.mk); exact rfl)
    | with_reducible apply Moves.thenOp (State.mapFn_writes ..)
    | with_reducible apply Moves.thenOp (State.closeRoute_writes ..)
    | with_reducible apply Moves.ite
    | (with_reducible apply upd_parts <;> first | exact .inl rfl | exact .inr rfl)
    | simp only [Moves.mk_eq]
    | with_reducible refine MovesMk.upd rfl (.inl rfl) (.inl rfl) ?_ ?_
    | (with_reducible apply Moves.foldl; intro _ _)
    | dsimp only
    | split

theorem execAqEnable_writes (t : Nat) (s : State) :
    ResAll (fun t => Moves [.host] s t) (execAqEnable t s) := by
  unfold execAqEnable
  repeat' first
    | with_reducible apply Moves.refl
    | ((with_reducible apply Within.mk); exact rfl)
    | with_reducible apply Moves.thenOp (State.aqEnable_writes ..)
    | with_reducible apply ResAll.next'

theorem execAqDisable_writes (t : Nat) (s : State) :
    ResAll (fun t => Moves [.routes, .cairn, .host] s t) (execAqDisable t s) := by
  unfold execAqDisable
  repeat' first
    | with_reducible apply Moves.refl
    | ((with_reducible apply Within.mk); exact rfl)
    | with_reducible apply Moves.thenOp (State.aqDisable_writes ..)
    | with_reducible apply ResAll.next'

theorem State.finishEntry_writes (s : State) (e : Entry) (c : Completion) :
    Moves [.routes, .cairn, .hostMem, .host, .out] s (State.finishEntry s e c) := by
  unfold State.finishEntry
  repeat' first
    | with_reducible apply Moves.refl
    | ((with_reducible apply Within.mk); exact rfl)
    | with_reducible apply Moves.thenOp (State.complete_writes ..)
    | split

theorem State.haltQueue_writes (s : State) (t : Nat) (q : Nat) (w : WQ) (status : Nat) (hdr : Option Entry) :
    Moves [.objs, .routes, .cairn, .hostMem, .host, .out] s (State.haltQueue s t q w status hdr) := by
  unfold State.haltQueue
  repeat' first
    | with_reducible apply Moves.refl
    | ((with_reducible apply Within.mk); exact rfl)
    | with_reducible apply Moves.thenOp (State.complete_writes ..)
    | with_reducible apply Moves.thenOp (State.oinc_writes ..)
    | with_reducible apply Moves.thenOp (State.putWq_writes ..)

theorem State.refuseRoute_writes (s : State) (e : Entry) (status : Nat) (d : RouteDesc) :
    Moves [.routes, .cairn, .hostMem, .host, .out] s (State.refuseRoute s e status d) := by
  unfold State.refuseRoute
  repeat' first
    | with_reducible apply Moves.refl
    | ((with_reducible apply Within.mk); exact rfl)
    | with_reducible apply Moves.thenOp (State.finishEntry_writes ..)

theorem State.failEntry_writes (s : State) (e : Entry) (st : Nat) :
    Moves [.routes, .cairn, .hostMem, .host, .out] s (State.failEntry s e st) := by
  unfold State.failEntry
  repeat' first
    | with_reducible apply Moves.refl
    | assumption
    | ((with_reducible apply Within.mk); exact rfl)
    | with_reducible apply Moves.thenOp (State.finishEntry_writes ..)
    | with_reducible apply Moves.thenOp (State.refuseRoute_writes ..)
    | with_reducible apply Moves.ite
    | (with_reducible apply upd_parts <;> first | exact .inl rfl | exact .inr rfl)
    | simp only [Moves.mk_eq]
    | with_reducible refine MovesMk.upd rfl (.inl rfl) (.inl rfl) ?_ ?_
    | (with_reducible apply Moves.foldl; intro _ _)
    | dsimp only
    | split

theorem State.settleAdmin_writes (s : State) (t : Nat) (x0 : Nat) :
    Moves [.routes, .cairn, .hostMem, .host, .out] s (State.settleAdmin s t x0) := by
  induction x0 generalizing s t with
  | zero =>
    unfold State.settleAdmin
    repeat' first
      | with_reducible apply Moves.refl
      | assumption
      | ((with_reducible apply Within.mk); exact rfl)
      | with_reducible apply Moves.thenOp (State.failEntry_writes ..)
      | with_reducible apply Moves.ite
      | (with_reducible apply upd_parts <;> first | exact .inl rfl | exact .inr rfl)
      | simp only [Moves.mk_eq]
      | with_reducible refine MovesMk.upd rfl (.inl rfl) (.inl rfl) ?_ ?_
      | (with_reducible apply Moves.foldl; intro _ _)
      | dsimp only
      | split
  | succ n ih =>
    unfold State.settleAdmin
    repeat' first
      | with_reducible apply Moves.refl
      | assumption
      | ((with_reducible apply Within.mk); exact rfl)
      | with_reducible apply Moves.thenOp (State.failEntry_writes ..)
      | with_reducible refine Moves.thenOp (ih ..) (Within.mk rfl) ?_
      | with_reducible apply Moves.ite
      | (with_reducible apply upd_parts <;> first | exact .inl rfl | exact .inr rfl)
      | simp only [Moves.mk_eq]
      | with_reducible refine MovesMk.upd rfl (.inl rfl) (.inl rfl) ?_ ?_
      | (with_reducible apply Moves.foldl; intro _ _)
      | dsimp only
      | split

theorem State.takeEntry_writes (s : State) (t : Nat) (q : Nat) (w : WQ) (n : Nat) (e : Entry) :
    Moves [.routes, .cairn, .hostMem, .host, .out] s (State.takeEntry s t q w n e) := by
  unfold State.takeEntry
  repeat' first
    | with_reducible apply Moves.refl
    | assumption
    | ((with_reducible apply Within.mk); exact rfl)
    | with_reducible apply Moves.thenOp (State.finishEntry_writes ..)
    | with_reducible apply Moves.thenOp (State.hostWrite_writes ..)
    | with_reducible apply Moves.thenOp (State.putWq_writes ..)
    | with_reducible apply Moves.thenOp (State.failEntry_writes ..)
    | with_reducible apply Moves.ite
    | (with_reducible apply upd_parts <;> first | exact .inl rfl | exact .inr rfl)
    | simp only [Moves.mk_eq]
    | with_reducible refine MovesMk.upd rfl (.inl rfl) (.inl rfl) ?_ ?_
    | (with_reducible apply Moves.foldl; intro _ _)
    | dsimp only
    | split

theorem State.fetchFrom_writes (s : State) (t : Nat) (q : Nat) (w : WQ) :
    Moves [.objs, .routes, .cairn, .hostMem, .host, .out] s (State.fetchFrom s t q w) := by
  unfold State.fetchFrom
  repeat' first
    | with_reducible apply Moves.refl
    | ((with_reducible apply Within.mk); exact rfl)
    | with_reducible apply Moves.thenOp (State.haltQueue_writes ..)
    | with_reducible apply Moves.thenOp (State.putWq_writes ..)
    | with_reducible apply Moves.thenOp (State.takeEntry_writes ..)
    | with_reducible apply Moves.ite
    | split

theorem State.ioTurn_writes (s : State) (x1 : List (Nat × WQ)) :
    Moves [.objs, .routes, .cairn, .hostMem, .host, .out] s (State.ioTurn s x1) := by
  induction x1 generalizing s with
  | nil =>
    unfold State.ioTurn
    repeat' (with_reducible apply Moves.refl)
  | cons a l ih =>
    unfold State.ioTurn
    repeat' first
      | with_reducible apply Moves.refl
      | ((with_reducible apply Within.mk); exact rfl)
      | with_reducible apply Moves.thenOp (State.fetchFrom_writes ..)
      | with_reducible apply Moves.thenOp (State.oinc_writes ..)
      | with_reducible apply Moves.thenOp (State.putWq_writes ..)
      | with_reducible refine Moves.thenOp (ih ..) (Within.mk rfl) ?_
      | with_reducible apply Moves.ite
      | (with_reducible apply upd_parts <;> first | exact .inl rfl | exact .inr rfl)
      | simp only [Moves.mk_eq]
      | with_reducible refine MovesMk.upd rfl (.inl rfl) (.inl rfl) ?_ ?_

theorem State.endPauses_writes (s : State) :
    Moves [.host] s (State.endPauses s) := by
  unfold State.endPauses
  repeat' first
    | with_reducible apply Moves.refl
    | assumption
    | ((with_reducible apply Within.mk); exact rfl)
    | with_reducible apply Moves.ite
    | (with_reducible apply upd_parts <;> first | exact .inl rfl | exact .inr rfl)
    | simp only [Moves.mk_eq]
    | with_reducible refine MovesMk.upd rfl (.inl rfl) (.inl rfl) ?_ ?_
    | (with_reducible apply Moves.foldl; intro _ _)
    | dsimp only
    | split

theorem State.fetchTurn_writes (s : State) :
    Moves [.objs, .routes, .cairn, .hostMem, .host, .out] s (State.fetchTurn s) := by
  unfold State.fetchTurn
  repeat' first
    | with_reducible apply Moves.refl
    | assumption
    | ((with_reducible apply Within.mk); exact rfl)
    | with_reducible apply Moves.thenOp (State.fetchFrom_writes ..)
    | with_reducible apply Moves.thenOp (State.ioTurn_writes ..)
    | with_reducible apply Moves.thenOp (State.endPauses_writes ..)
    | with_reducible apply Moves.ite
    | (with_reducible apply upd_parts <;> first | exact .inl rfl | exact .inr rfl)
    | simp only [Moves.mk_eq]
    | with_reducible refine MovesMk.upd rfl (.inl rfl) (.inl rfl) ?_ ?_
    | (with_reducible apply Moves.foldl; intro _ _)
    | dsimp only
    | split

theorem execFetchEntry_writes (s : State) :
    ResAll (fun t => Moves [.objs, .routes, .cairn, .hostMem, .host, .out] s t) (execFetchEntry s) := by
  unfold execFetchEntry
  repeat' first
    | with_reducible apply Moves.refl
    | ((with_reducible apply Within.mk); exact rfl)
    | with_reducible apply Moves.thenOp (State.fetchTurn_writes ..)
    | with_reducible apply ResAll.next'

theorem execWqStallTimeout_writes (t : Nat) (q : Nat) (s : State) :
    ResAll (fun t => Moves [.objs, .routes, .cairn, .hostMem, .host, .out] s t) (execWqStallTimeout t q s) := by
  unfold execWqStallTimeout
  repeat' first
    | with_reducible apply Moves.refl
    | ((with_reducible apply Within.mk); exact rfl)
    | with_reducible apply Moves.thenOp (State.haltQueue_writes ..)
    | with_reducible apply ResAll.next'
    | with_reducible apply ResAll.ite
    | split

theorem State.dropFetched_writes (s : State) (e : Entry) :
    Moves [.host] s (State.dropFetched s e) := by
  unfold State.dropFetched
  repeat' first
    | with_reducible apply Moves.refl
    | assumption
    | ((with_reducible apply Within.mk); exact rfl)
    | with_reducible apply Moves.ite
    | (with_reducible apply upd_parts <;> first | exact .inl rfl | exact .inr rfl)
    | simp only [Moves.mk_eq]
    | with_reducible refine MovesMk.upd rfl (.inl rfl) (.inl rfl) ?_ ?_
    | (with_reducible apply Moves.foldl; intro _ _)
    | dsimp only
    | split

theorem State.onEntry_writes {l : List Field} {s : State} {e : Entry} {op : Nat} {f : State → State} (hl : Within [] l)
    (hf : ∀ y0, Moves l y0 (f y0)) :
    ResAll (fun t => Moves l s t) (State.onEntry s e op f) := by
  unfold State.onEntry
  repeat' first
    | with_reducible apply Moves.refl
    | with_reducible refine Moves.trans ?_ (hf _)
    | with_reducible apply ResAll.next'
    | with_reducible apply Moves.ite

theorem State.admitRoute_writes (s : State) (e : Entry) (d : RouteDesc) (copy : List Byte) :
    Moves [.freeCount, .objs, .routes, .sched, .strands, .link, .hostMem, .host, .out] s (State.admitRoute s e d copy) := by
  unfold State.admitRoute
  repeat' first
    | with_reducible apply Moves.refl
    | assumption
    | ((with_reducible apply Within.mk); exact rfl)
    | with_reducible apply Moves.thenOp (State.addRoute_writes ..)
    | with_reducible apply Moves.thenOp (State.logEvent_writes ..)
    | with_reducible apply Moves.thenOp (State.sendSvc_writes ..)
    | with_reducible apply Moves.thenOp (State.openAtPeers_writes ..)
    | with_reducible apply Moves.ite
    | (with_reducible apply upd_parts <;> first | exact .inl rfl | exact .inr rfl)
    | simp only [Moves.mk_eq]
    | with_reducible refine MovesMk.upd rfl (.inl rfl) (.inl rfl) ?_ ?_
    | (with_reducible apply Moves.foldl; intro _ _)
    | dsimp only
    | split

theorem State.submitRoute_writes (s : State) (e : Entry) :
    Moves [.freeCount, .objs, .routes, .sched, .cairn, .strands, .coh, .link, .hostMem, .host, .out] s (State.submitRoute s e) := by
  unfold State.submitRoute
  repeat' first
    | with_reducible apply Moves.refl
    | ((with_reducible apply Within.mk); exact rfl)
    | with_reducible apply Moves.thenOp (State.admitRoute_writes ..)
    | with_reducible apply Moves.thenOp (State.askLines_writes ..)
    | with_reducible apply Moves.thenOp (State.dropFetched_writes ..)
    | with_reducible apply Moves.thenOp (State.refuseRoute_writes ..)
    | with_reducible apply Moves.ite
    | split

theorem execSubmitRoute_writes (e : Entry) (s : State) :
    ResAll (fun t => Moves [.freeCount, .objs, .routes, .sched, .cairn, .strands, .coh, .link, .hostMem, .host, .out] s t) (execSubmitRoute e s) := by
  unfold execSubmitRoute
  repeat' first
    | with_reducible apply Moves.refl
    | ((with_reducible apply Within.mk); exact rfl)
    | with_reducible apply Moves.thenOp (State.submitRoute_writes ..)
    | with_reducible refine State.onEntry_writes (Within.mk rfl) (fun _ => ?_)

/-! ## Channels -/

theorem State.listTouch_writes (s : State) (t : Nat) (l : List ListEl) :
    Moves [.objs, .flash, .depot, .cache, .coh, .link, .dram, .err, .mgmt, .out] s (State.listTouch s t l) := by
  unfold State.listTouch
  repeat' first
    | with_reducible apply Moves.refl
    | assumption
    | ((with_reducible apply Within.mk); exact rfl)
    | with_reducible apply Moves.thenOp (State.homeReads_writes ..)
    | with_reducible apply Moves.ite
    | (with_reducible apply upd_parts <;> first | exact .inl rfl | exact .inr rfl)
    | simp only [Moves.mk_eq]
    | with_reducible refine MovesMk.upd rfl (.inl rfl) (.inl rfl) ?_ ?_
    | (with_reducible apply Moves.foldl; intro _ _)
    | dsimp only
    | split

theorem State.imgPut_writes (s : State) (why : Purpose) (l : Nat) (mask : Nat) (data : List Byte) :
    Moves [.objs, .mem, .flash, .content, .depot, .cache, .coh, .link, .dram, .err, .mgmt, .out] s (State.imgPut s why l mask data) := by
  unfold State.imgPut
  repeat' first
    | with_reducible apply Moves.refl
    | ((with_reducible apply Within.mk); exact rfl)
    | with_reducible apply Moves.thenOp (State.lineWrite_writes ..)
    | with_reducible apply Moves.thenOp (State.memRead_writes ..)
    | with_reducible apply Moves.thenOp (State.request_writes ..)
    | with_reducible apply Moves.thenOp (State.setDir_writes ..)
    | with_reducible apply Moves.thenOp (State.slcClean_writes ..)
    | with_reducible apply Moves.thenOp (State.unpoison_writes ..)
    | with_reducible apply Moves.ite
    | split
    | with_reducible refine Moves.thenOp (OptAll.st (State.dirOwn_writes ..) (by assumption)) (Within.mk rfl) ?_

theorem State.elPut_writes (s : State) (why : Purpose) (t : Nat) (sp : Nat) (a : Nat) (bs : List Byte) :
    Moves [.objs, .mem, .flash, .content, .depot, .cache, .coh, .link, .hostMem, .dram, .err, .mgmt, .out] s (State.elPut s why t sp a bs) := by
  unfold State.elPut
  repeat' first
    | with_reducible apply Moves.refl
    | ((with_reducible apply Within.mk); exact rfl)
    | with_reducible apply Moves.thenOp (State.hostWrite_writes ..)
    | with_reducible apply Moves.thenOp (State.imgPut_writes ..)
    | with_reducible apply Moves.ite
    | (with_reducible apply Moves.foldl; intro _ _)

theorem State.scatter_writes (s : State) (ch : Nat) (t : Nat) (x3 : List ListEl) (x4 : List Byte) :
    Moves [.objs, .mem, .flash, .content, .depot, .cache, .coh, .link, .hostMem, .dram, .err, .mgmt, .out] s (State.scatter s ch t x3 x4) := by
  induction x3 generalizing s ch t x4 with
  | nil =>
    unfold State.scatter
    repeat' (with_reducible apply Moves.refl)
  | cons a l ih =>
    unfold State.scatter
    repeat' first
      | with_reducible apply Moves.refl
      | ((with_reducible apply Within.mk); exact rfl)
      | with_reducible apply Moves.thenOp (State.elPut_writes ..)
      | with_reducible refine Moves.thenOp (ih ..) (Within.mk rfl) ?_
      | with_reducible apply Moves.ite

theorem State.freeAt_writes (s : State) (marks : List Bool) (bs : List Byte) :
    Moves [.freeCount] s ((State.freeAt s marks bs).2) := by
  unfold State.freeAt
  repeat' first
    | with_reducible apply Moves.refl
    | (with_reducible apply upd_parts <;> first | exact .inl rfl | exact .inr rfl)
    | simp only [Moves.mk_eq]
    | with_reducible refine MovesMk.upd rfl (.inl rfl) (.inl rfl) ?_ ?_

theorem State.blurDst_writes (s : State) (ch : Nat) (t : Nat) (l : List ListEl) :
    Moves [.freeCount, .objs, .mem, .flash, .content, .depot, .cache, .coh, .link, .hostMem, .dram, .err, .mgmt, .out] s (State.blurDst s ch t l) := by
  unfold State.blurDst
  repeat' first
    | with_reducible apply Moves.refl
    | ((with_reducible apply Within.mk); exact rfl)
    | with_reducible apply Moves.thenOp (State.elPut_writes ..)
    | with_reducible apply Moves.thenOp (State.freeAt_writes ..)
    | (with_reducible apply Moves.foldl; intro _ _)

theorem State.copyData_writes (s : State) (x : EngEntry) :
    Moves [.freeCount] s ((State.copyData s x).2) := by
  unfold State.copyData
  repeat' first
    | with_reducible apply Moves.refl
    | ((with_reducible apply Within.mk); exact rfl)
    | with_reducible apply Moves.thenOp (State.freeAt_writes ..)

theorem State.channelEnds_writes (s : State) (ch : Nat) :
    Moves [.objs, .routes, .cairn, .depot, .hostMem, .host, .eng, .out] s (State.channelEnds s ch) := by
  unfold State.channelEnds
  repeat' first
    | with_reducible apply Moves.refl
    | ((with_reducible apply Within.mk); exact rfl)
    | with_reducible apply Moves.thenOp (State.postEngine_writes ..)
    | with_reducible apply Moves.thenOp (State.releaseHeld_writes ..)
    | with_reducible apply Moves.thenOp (State.setChan_writes ..)
    | (with_reducible apply upd_parts <;> first | exact .inl rfl | exact .inr rfl)
    | simp only [Moves.mk_eq]
    | with_reducible refine MovesMk.upd rfl (.inl rfl) (.inl rfl) ?_ ?_
    | (with_reducible apply Moves.foldl; intro _ _)

theorem State.entryEnds_writes (s : State) (ch : Nat) (x : EngEntry) (r : EngResult) :
    Moves [.objs, .routes, .cairn, .depot, .hostMem, .host, .eng, .out] s (State.entryEnds s ch x r) := by
  unfold State.entryEnds
  repeat' first
    | with_reducible apply Moves.refl
    | ((with_reducible apply Within.mk); exact rfl)
    | with_reducible apply Moves.thenOp (State.channelEnds_writes ..)
    | with_reducible apply Moves.thenOp (State.postEngine_writes ..)

theorem State.putCtx_writes (s : State) (n : Nat) (c : DigestCtx) :
    Moves [.eng] s (State.putCtx s n c) := by
  unfold State.putCtx
  repeat' first
    | with_reducible apply Moves.refl
    | (with_reducible apply upd_parts <;> first | exact .inl rfl | exact .inr rfl)
    | simp only [Moves.mk_eq]
    | with_reducible refine MovesMk.upd rfl (.inl rfl) (.inl rfl) ?_ ?_

theorem State.dropCtx_writes (s : State) (n : Nat) :
    Moves [.eng] s (State.dropCtx s n) := by
  unfold State.dropCtx
  repeat' first
    | with_reducible apply Moves.refl
    | (with_reducible apply upd_parts <;> first | exact .inl rfl | exact .inr rfl)
    | simp only [Moves.mk_eq]
    | with_reducible refine MovesMk.upd rfl (.inl rfl) (.inl rfl) ?_ ?_

theorem State.feedCtx_writes (s : State) (n : Nat) (c : DigestCtx) (bs : List Byte) :
    Moves [.objs, .eng] s (State.feedCtx s n c bs) := by
  unfold State.feedCtx
  repeat' first
    | with_reducible apply Moves.refl
    | ((with_reducible apply Within.mk); exact rfl)
    | with_reducible apply Moves.thenOp (State.oinc_writes ..)
    | with_reducible apply Moves.thenOp (State.putCtx_writes ..)

theorem State.haltWork_writes (s : State) (ch : Nat) (x : EngEntry) (f : AccessFault) :
    Moves [.freeCount, .objs, .mem, .flash, .content, .depot, .cache, .coh, .link, .hostMem, .eng, .dram, .err, .mgmt, .out] s ((State.haltWork s ch x f).2) := by
  unfold State.haltWork
  repeat' first
    | with_reducible apply Moves.refl
    | ((with_reducible apply Within.mk); exact rfl)
    | with_reducible apply Moves.thenOp (State.blurDst_writes ..)
    | with_reducible apply Moves.thenOp (State.copyData_writes ..)
    | with_reducible apply Moves.thenOp (State.dropCtx_writes ..)
    | with_reducible apply Moves.thenOp (State.feedCtx_writes ..)
    | with_reducible apply Moves.thenOp (State.free_writes ..)
    | with_reducible apply Moves.thenOp (State.oinc_writes ..)
    | with_reducible apply Moves.thenOp (State.scatter_writes ..)
    | with_reducible apply Moves.ite_snd
    | split

theorem State.haltChannel_writes (s : State) (ch : Nat) (x : EngEntry) (f : AccessFault) :
    Moves [.freeCount, .objs, .mem, .flash, .routes, .cairn, .content, .depot, .cache, .coh, .link, .hostMem, .host, .eng, .dram, .err, .mgmt, .out] s (State.haltChannel s ch x f) := by
  unfold State.haltChannel
  repeat' first
    | with_reducible apply Moves.refl
    | ((with_reducible apply Within.mk); exact rfl)
    | with_reducible apply Moves.thenOp (State.channelEnds_writes ..)
    | with_reducible apply Moves.thenOp (State.haltWork_writes ..)
    | with_reducible apply Moves.thenOp (State.oinc_writes ..)
    | with_reducible apply Moves.thenOp (State.postEngine_writes ..)
    | with_reducible apply Moves.thenOp (State.raise_writes ..)
    | with_reducible apply Moves.thenOp (State.setChan_writes ..)

/-! ## Admin -/

theorem State.onAdmin_writes {l : List Field} {s : State} {e : Entry} {op : Nat} {f : State → State} (hl : Within [] l)
    (hf : ∀ y0, Moves l y0 (f y0)) :
    ResAll (fun t => Moves l s t) (State.onAdmin s e op f) := by
  unfold State.onAdmin
  repeat' first
    | with_reducible apply Moves.refl
    | with_reducible refine Moves.trans ?_ (hf _)
    | with_reducible apply ResAll.next'
    | with_reducible apply Moves.ite

theorem State.adminDone_writes (s : State) (e : Entry) (status : Nat) (value : Nat) :
    Moves [.routes, .cairn, .hostMem, .host, .out] s (State.adminDone s e status value) := by
  unfold State.adminDone
  repeat' first
    | with_reducible apply Moves.refl
    | assumption
    | ((with_reducible apply Within.mk); exact rfl)
    | with_reducible apply Moves.thenOp (State.dropFetched_writes ..)
    | with_reducible apply Moves.thenOp (State.finishEntry_writes ..)
    | with_reducible apply Moves.thenOp (State.settleAdmin_writes ..)
    | with_reducible apply Moves.ite
    | (with_reducible apply upd_parts <;> first | exact .inl rfl | exact .inr rfl)
    | simp only [Moves.mk_eq]
    | with_reducible refine MovesMk.upd rfl (.inl rfl) (.inl rfl) ?_ ?_
    | (with_reducible apply Moves.foldl; intro _ _)
    | dsimp only
    | split

theorem State.adminTry_writes {l : List Field} {s : State} {e : Entry} {r : Except Nat State}
    (hl : Within [.routes, .cairn, .hostMem, .host, .out] l) (hr : ExcAll (fun t => Moves l s t) r) : Moves l s (s.adminTry e r) := by
  unfold State.adminTry
  cases r with
  | ok t => exact Moves.trans hr ((State.adminDone_writes ..).mono hl)
  | error c => exact (State.adminDone_writes ..).mono hl

theorem State.createWq_writes (s : State) (e : Entry) :
    Moves [.routes, .cairn, .hostMem, .host, .out] s (State.createWq s e) := by
  unfold State.createWq
  repeat' first
    | with_reducible apply Moves.refl
    | assumption
    | ((with_reducible apply Within.mk); exact rfl)
    | with_reducible apply Moves.thenOp (State.adminDone_writes ..)
    | with_reducible apply Moves.thenOp (State.putWq_writes ..)
    | with_reducible apply Moves.ite
    | (with_reducible apply upd_parts <;> first | exact .inl rfl | exact .inr rfl)
    | simp only [Moves.mk_eq]
    | with_reducible refine MovesMk.upd rfl (.inl rfl) (.inl rfl) ?_ ?_
    | (with_reducible apply Moves.foldl; intro _ _)
    | dsimp only
    | split

theorem State.createCq_writes (s : State) (e : Entry) :
    Moves [.routes, .cairn, .hostMem, .host, .out] s (State.createCq s e) := by
  unfold State.createCq
  repeat' first
    | with_reducible apply Moves.refl
    | assumption
    | ((with_reducible apply Within.mk); exact rfl)
    | with_reducible apply Moves.thenOp (State.adminDone_writes ..)
    | with_reducible apply Moves.thenOp (State.putCq_writes ..)
    | with_reducible apply Moves.ite
    | (with_reducible apply upd_parts <;> first | exact .inl rfl | exact .inr rfl)
    | simp only [Moves.mk_eq]
    | with_reducible refine MovesMk.upd rfl (.inl rfl) (.inl rfl) ?_ ?_
    | (with_reducible apply Moves.foldl; intro _ _)
    | dsimp only
    | split

theorem State.deleteWq_writes (s : State) (e : Entry) :
    Moves [.routes, .cairn, .hostMem, .host, .out] s (State.deleteWq s e) := by
  unfold State.deleteWq
  repeat' first
    | with_reducible apply Moves.refl
    | assumption
    | ((with_reducible apply Within.mk); exact rfl)
    | with_reducible apply Moves.thenOp (State.adminDone_writes ..)
    | with_reducible apply Moves.thenOp (State.putWq_writes ..)
    | with_reducible apply Moves.ite
    | (with_reducible apply upd_parts <;> first | exact .inl rfl | exact .inr rfl)
    | simp only [Moves.mk_eq]
    | with_reducible refine MovesMk.upd rfl (.inl rfl) (.inl rfl) ?_ ?_
    | (with_reducible apply Moves.foldl; intro _ _)
    | dsimp only
    | split

theorem State.deleteCq_writes (s : State) (e : Entry) :
    Moves [.routes, .cairn, .hostMem, .host, .out] s (State.deleteCq s e) := by
  unfold State.deleteCq
  repeat' first
    | with_reducible apply Moves.refl
    | assumption
    | ((with_reducible apply Within.mk); exact rfl)
    | with_reducible apply Moves.thenOp (State.adminDone_writes ..)
    | with_reducible apply Moves.ite
    | (with_reducible apply upd_parts <;> first | exact .inl rfl | exact .inr rfl)
    | simp only [Moves.mk_eq]
    | with_reducible refine MovesMk.upd rfl (.inl rfl) (.inl rfl) ?_ ?_
    | (with_reducible apply Moves.foldl; intro _ _)
    | dsimp only
    | split

theorem execCreateWq_writes (e : Entry) (s : State) :
    ResAll (fun t => Moves [.routes, .cairn, .hostMem, .host, .out] s t) (execCreateWq e s) := by
  unfold execCreateWq
  repeat' first
    | with_reducible apply Moves.refl
    | ((with_reducible apply Within.mk); exact rfl)
    | with_reducible apply Moves.thenOp (State.createWq_writes ..)
    | with_reducible refine State.onAdmin_writes (Within.mk rfl) (fun _ => ?_)

theorem execDeleteWq_writes (e : Entry) (s : State) :
    ResAll (fun t => Moves [.routes, .cairn, .hostMem, .host, .out] s t) (execDeleteWq e s) := by
  unfold execDeleteWq
  repeat' first
    | with_reducible apply Moves.refl
    | ((with_reducible apply Within.mk); exact rfl)
    | with_reducible apply Moves.thenOp (State.deleteWq_writes ..)
    | with_reducible refine State.onAdmin_writes (Within.mk rfl) (fun _ => ?_)

theorem execCreateCq_writes (e : Entry) (s : State) :
    ResAll (fun t => Moves [.routes, .cairn, .hostMem, .host, .out] s t) (execCreateCq e s) := by
  unfold execCreateCq
  repeat' first
    | with_reducible apply Moves.refl
    | ((with_reducible apply Within.mk); exact rfl)
    | with_reducible apply Moves.thenOp (State.createCq_writes ..)
    | with_reducible refine State.onAdmin_writes (Within.mk rfl) (fun _ => ?_)

theorem execDeleteCq_writes (e : Entry) (s : State) :
    ResAll (fun t => Moves [.routes, .cairn, .hostMem, .host, .out] s t) (execDeleteCq e s) := by
  unfold execDeleteCq
  repeat' first
    | with_reducible apply Moves.refl
    | ((with_reducible apply Within.mk); exact rfl)
    | with_reducible apply Moves.thenOp (State.deleteCq_writes ..)
    | with_reducible refine State.onAdmin_writes (Within.mk rfl) (fun _ => ?_)

theorem State.onGrant_writes {l : List Field} {s : State} {e : Entry} {op : Nat} {f : State → State} (hl : Within [.routes, .cairn, .hostMem, .host, .out] l)
    (hf : ∀ y0, Moves l y0 (f y0)) :
    ResAll (fun t => Moves l s t) (State.onGrant s e op f) := by
  unfold State.onGrant
  repeat' first
    | with_reducible apply Moves.refl
    | assumption
    | with_reducible apply Moves.thenOp (State.adminDone_writes ..)
    | with_reducible refine Moves.trans ?_ (hf _)
    | with_reducible apply Moves.ite
    | with_reducible refine State.onAdmin_writes (Within.trans (Within.mk rfl) hl) (fun _ => ?_)

theorem execSetQuota_writes (e : Entry) (s : State) :
    ResAll (fun t => Moves [.objs, .routes, .cairn, .hostMem, .host, .out] s t) (execSetQuota e s) := by
  unfold execSetQuota
  repeat' first
    | with_reducible apply Moves.refl
    | with_reducible refine State.adminTry_writes (Within.mk rfl) ?_
    | with_reducible refine ExcAll.imp (fun _ h => Moves.thenOp h (Within.mk rfl) ?_) (State.setQuota_writes ..)
    | with_reducible refine State.onGrant_writes (Within.mk rfl) (fun _ => ?_)

theorem execGrantSpill_writes (e : Entry) (s : State) :
    ResAll (fun t => Moves [.routes, .cairn, .depot, .hostMem, .host, .out] s t) (execGrantSpill e s) := by
  unfold execGrantSpill
  repeat' first
    | with_reducible apply Moves.refl
    | with_reducible refine State.adminTry_writes (Within.mk rfl) ?_
    | with_reducible refine ExcAll.imp (fun _ h => Moves.thenOp h (Within.mk rfl) ?_) (State.grantSpill_writes ..)
    | with_reducible refine State.onGrant_writes (Within.mk rfl) (fun _ => ?_)

theorem execRevokeSpill_writes (e : Entry) (s : State) :
    ResAll (fun t => Moves [.routes, .cairn, .depot, .hostMem, .host, .out] s t) (execRevokeSpill e s) := by
  unfold execRevokeSpill
  repeat' first
    | with_reducible apply Moves.refl
    | with_reducible refine State.adminTry_writes (Within.mk rfl) ?_
    | with_reducible refine ExcAll.imp (fun _ h => Moves.thenOp h (Within.mk rfl) ?_) (State.revokeSpill_writes ..)
    | with_reducible refine State.onGrant_writes (Within.mk rfl) (fun _ => ?_)

theorem execOpenOutput_writes (e : Entry) (s : State) :
    ResAll (fun t => Moves [.routes, .cairn, .content, .hostMem, .host, .out] s t) (execOpenOutput e s) := by
  unfold execOpenOutput
  repeat' first
    | with_reducible apply Moves.refl
    | ((with_reducible apply Within.mk); exact rfl)
    | with_reducible apply Moves.thenOp (State.adminDone_writes ..)
    | with_reducible refine State.onGrant_writes (Within.mk rfl) (fun _ => ?_)
    | split
    | with_reducible refine Moves.thenOp (ExcAll.stSnd (State.openOutput_writes ..) (by assumption)) (Within.mk rfl) ?_

theorem execCloseOutput_writes (e : Entry) (s : State) :
    ResAll (fun t => Moves [.objs, .routes, .cairn, .content, .depot, .link, .hostMem, .host, .out] s t) (execCloseOutput e s) := by
  unfold execCloseOutput
  repeat' first
    | with_reducible apply Moves.refl
    | with_reducible refine State.adminTry_writes (Within.mk rfl) ?_
    | with_reducible refine ExcAll.imp (fun _ h => Moves.thenOp h (Within.mk rfl) ?_) (State.closeOutput_writes ..)
    | with_reducible refine State.onGrant_writes (Within.mk rfl) (fun _ => ?_)

theorem State.onQos_writes {l : List Field} {s : State} {e : Entry} {op : Nat} {f : State → State} (hl : Within [.routes, .cairn, .hostMem, .host, .out] l)
    (hf : ∀ y0, Moves l y0 (f y0)) :
    ResAll (fun t => Moves l s t) (State.onQos s e op f) := by
  unfold State.onQos
  repeat' first
    | with_reducible apply Moves.refl
    | assumption
    | with_reducible apply Moves.thenOp (State.adminDone_writes ..)
    | with_reducible refine Moves.trans ?_ (hf _)
    | with_reducible apply Moves.ite
    | with_reducible refine State.onAdmin_writes (Within.trans (Within.mk rfl) hl) (fun _ => ?_)

theorem State.setWeight_writes (s : State) (e : Entry) :
    Moves [.routes, .sched, .cairn, .hostMem, .host, .out] s (State.setWeight s e) := by
  unfold State.setWeight
  repeat' first
    | with_reducible apply Moves.refl
    | assumption
    | ((with_reducible apply Within.mk); exact rfl)
    | with_reducible apply Moves.thenOp (State.adminDone_writes ..)
    | with_reducible apply Moves.ite
    | (with_reducible apply upd_parts <;> first | exact .inl rfl | exact .inr rfl)
    | simp only [Moves.mk_eq]
    | with_reducible refine MovesMk.upd rfl (.inl rfl) (.inl rfl) ?_ ?_
    | (with_reducible apply Moves.foldl; intro _ _)
    | dsimp only
    | split

theorem State.logStart_writes (s : State) (e : Entry) :
    Moves [.routes, .cairn, .hostMem, .host, .out] s (State.logStart s e) := by
  unfold State.logStart
  repeat' first
    | with_reducible apply Moves.refl
    | assumption
    | ((with_reducible apply Within.mk); exact rfl)
    | with_reducible apply Moves.thenOp (State.adminDone_writes ..)
    | with_reducible apply Moves.ite
    | (with_reducible apply upd_parts <;> first | exact .inl rfl | exact .inr rfl)
    | simp only [Moves.mk_eq]
    | with_reducible refine MovesMk.upd rfl (.inl rfl) (.inl rfl) ?_ ?_
    | (with_reducible apply Moves.foldl; intro _ _)
    | dsimp only
    | split

theorem State.logStop_writes (s : State) (e : Entry) :
    Moves [.routes, .cairn, .hostMem, .host, .out] s (State.logStop s e) := by
  unfold State.logStop
  repeat' first
    | with_reducible apply Moves.refl
    | assumption
    | ((with_reducible apply Within.mk); exact rfl)
    | with_reducible apply Moves.thenOp (State.adminDone_writes ..)
    | with_reducible apply Moves.ite
    | (with_reducible apply upd_parts <;> first | exact .inl rfl | exact .inr rfl)
    | simp only [Moves.mk_eq]
    | with_reducible refine MovesMk.upd rfl (.inl rfl) (.inl rfl) ?_ ?_
    | (with_reducible apply Moves.foldl; intro _ _)
    | dsimp only
    | split

theorem execSetWeight_writes (e : Entry) (s : State) :
    ResAll (fun t => Moves [.routes, .sched, .cairn, .hostMem, .host, .out] s t) (execSetWeight e s) := by
  unfold execSetWeight
  repeat' first
    | with_reducible apply Moves.refl
    | ((with_reducible apply Within.mk); exact rfl)
    | with_reducible apply Moves.thenOp (State.setWeight_writes ..)
    | with_reducible refine State.onQos_writes (Within.mk rfl) (fun _ => ?_)

theorem execLogStart_writes (e : Entry) (s : State) :
    ResAll (fun t => Moves [.routes, .cairn, .hostMem, .host, .out] s t) (execLogStart e s) := by
  unfold execLogStart
  repeat' first
    | with_reducible apply Moves.refl
    | ((with_reducible apply Within.mk); exact rfl)
    | with_reducible apply Moves.thenOp (State.logStart_writes ..)
    | with_reducible refine State.onQos_writes (Within.mk rfl) (fun _ => ?_)

theorem execLogStop_writes (e : Entry) (s : State) :
    ResAll (fun t => Moves [.routes, .cairn, .hostMem, .host, .out] s t) (execLogStop e s) := by
  unfold execLogStop
  repeat' first
    | with_reducible apply Moves.refl
    | ((with_reducible apply Within.mk); exact rfl)
    | with_reducible apply Moves.thenOp (State.logStop_writes ..)
    | with_reducible refine State.onQos_writes (Within.mk rfl) (fun _ => ?_)

theorem State.onLog_writes {l : List Field} {s : State} {e : Entry} {page : Nat} {f : State → State} (hl : Within [.routes, .cairn, .hostMem, .host, .out] l)
    (hf : ∀ y0, Moves l y0 (f y0)) :
    ResAll (fun t => Moves l s t) (State.onLog s e page f) := by
  unfold State.onLog
  repeat' first
    | with_reducible apply Moves.refl
    | assumption
    | with_reducible apply Moves.thenOp (State.adminDone_writes ..)
    | with_reducible refine Moves.trans ?_ (hf _)
    | with_reducible apply Moves.ite
    | with_reducible refine State.onAdmin_writes (Within.trans (Within.mk rfl) hl) (fun _ => ?_)

theorem State.givePage_writes (s : State) (e : Entry) (b : List Byte) :
    Moves [.objs, .mem, .flash, .routes, .cairn, .content, .depot, .cache, .coh, .link, .hostMem, .host, .dram, .err, .mgmt, .out] s (State.givePage s e b) := by
  unfold State.givePage
  repeat' first
    | with_reducible apply Moves.refl
    | ((with_reducible apply Within.mk); exact rfl)
    | with_reducible apply Moves.thenOp (State.adminDone_writes ..)
    | with_reducible apply Moves.thenOp (State.elPut_writes ..)

theorem State.errorPage_writes (s : State) (e : Entry) :
    Moves [.objs, .mem, .flash, .routes, .cairn, .content, .depot, .cache, .coh, .link, .hostMem, .host, .dram, .err, .mgmt, .out] s (State.errorPage s e) := by
  unfold State.errorPage
  repeat' first
    | with_reducible apply Moves.refl
    | ((with_reducible apply Within.mk); exact rfl)
    | with_reducible apply Moves.thenOp (State.givePage_writes ..)
    | (with_reducible apply upd_parts <;> first | exact .inl rfl | exact .inr rfl)
    | simp only [Moves.mk_eq]
    | with_reducible refine MovesMk.upd rfl (.inl rfl) (.inl rfl) ?_ ?_

theorem State.freePageOf_writes (s : State) (e : Entry) :
    Moves [.freeCount, .objs, .mem, .flash, .routes, .cairn, .content, .depot, .cache, .coh, .link, .hostMem, .host, .dram, .err, .mgmt, .out] s (State.freePageOf s e) := by
  unfold State.freePageOf
  repeat' first
    | with_reducible apply Moves.refl
    | ((with_reducible apply Within.mk); exact rfl)
    | with_reducible apply Moves.thenOp (State.free_writes ..)
    | with_reducible apply Moves.thenOp (State.givePage_writes ..)
    | (with_reducible apply upd_parts <;> first | exact .inl rfl | exact .inr rfl)
    | simp only [Moves.mk_eq]
    | with_reducible refine MovesMk.upd rfl (.inl rfl) (.inl rfl) ?_ ?_

theorem execGetLogErrorRecords_writes (e : Entry) (s : State) :
    ResAll (fun t => Moves [.objs, .mem, .flash, .routes, .cairn, .content, .depot, .cache, .coh, .link, .hostMem, .host, .dram, .err, .mgmt, .out] s t) (execGetLogErrorRecords e s) := by
  unfold execGetLogErrorRecords
  repeat' first
    | with_reducible apply Moves.refl
    | ((with_reducible apply Within.mk); exact rfl)
    | with_reducible apply Moves.thenOp (State.errorPage_writes ..)
    | with_reducible refine State.onLog_writes (Within.mk rfl) (fun _ => ?_)

theorem execGetLogCounters_writes (e : Entry) (s : State) :
    ResAll (fun t => Moves [.freeCount, .objs, .mem, .flash, .routes, .cairn, .content, .depot, .cache, .coh, .link, .hostMem, .host, .dram, .err, .mgmt, .out] s t) (execGetLogCounters e s) := by
  unfold execGetLogCounters
  repeat' first
    | with_reducible apply Moves.refl
    | ((with_reducible apply Within.mk); exact rfl)
    | with_reducible apply Moves.thenOp (State.freePageOf_writes ..)
    | with_reducible refine State.onLog_writes (Within.mk rfl) (fun _ => ?_)

theorem execGetLogOpenRoutes_writes (e : Entry) (s : State) :
    ResAll (fun t => Moves [.freeCount, .objs, .mem, .flash, .routes, .cairn, .content, .depot, .cache, .coh, .link, .hostMem, .host, .dram, .err, .mgmt, .out] s t) (execGetLogOpenRoutes e s) := by
  unfold execGetLogOpenRoutes
  repeat' first
    | with_reducible apply Moves.refl
    | ((with_reducible apply Within.mk); exact rfl)
    | with_reducible apply Moves.thenOp (State.freePageOf_writes ..)
    | with_reducible refine State.onLog_writes (Within.mk rfl) (fun _ => ?_)

theorem State.abortRoute_writes (s : State) (e : Entry) :
    Moves [.routes, .cairn, .hostMem, .host, .out] s (State.abortRoute s e) := by
  unfold State.abortRoute
  repeat' first
    | with_reducible apply Moves.refl
    | assumption
    | ((with_reducible apply Within.mk); exact rfl)
    | with_reducible apply Moves.thenOp (State.askAbort_writes ..)
    | with_reducible apply Moves.thenOp (State.dropFetched_writes ..)
    | with_reducible apply Moves.thenOp (State.finishEntry_writes ..)
    | with_reducible apply Moves.thenOp (State.settleAdmin_writes ..)
    | with_reducible apply Moves.ite
    | (with_reducible apply upd_parts <;> first | exact .inl rfl | exact .inr rfl)
    | simp only [Moves.mk_eq]
    | with_reducible refine MovesMk.upd rfl (.inl rfl) (.inl rfl) ?_ ?_
    | (with_reducible apply Moves.foldl; intro _ _)
    | dsimp only
    | split

theorem execAbortRoute_writes (e : Entry) (s : State) :
    ResAll (fun t => Moves [.routes, .cairn, .hostMem, .host, .out] s t) (execAbortRoute e s) := by
  unfold execAbortRoute
  repeat' first
    | with_reducible apply Moves.refl
    | ((with_reducible apply Within.mk); exact rfl)
    | with_reducible apply Moves.thenOp (State.abortRoute_writes ..)
    | with_reducible refine State.onAdmin_writes (Within.mk rfl) (fun _ => ?_)

theorem State.loadCairn_writes (s : State) (e : Entry) :
    Moves [.freeCount, .objs, .routes, .cairn, .content, .depot, .link, .hostMem, .host, .err, .mgmt, .out] s (State.loadCairn s e) := by
  unfold State.loadCairn
  repeat' first
    | with_reducible apply Moves.refl
    | assumption
    | ((with_reducible apply Within.mk); exact rfl)
    | with_reducible apply Moves.thenOp (State.adminDone_writes ..)
    | with_reducible apply Moves.thenOp (State.askPage_writes ..)
    | with_reducible apply Moves.thenOp (State.settleAsk_writes ..)
    | with_reducible apply Moves.ite
    | (with_reducible apply upd_parts <;> first | exact .inl rfl | exact .inr rfl)
    | simp only [Moves.mk_eq]
    | with_reducible refine MovesMk.upd rfl (.inl rfl) (.inl rfl) ?_ ?_
    | (with_reducible apply Moves.foldl; intro _ _)
    | dsimp only
    | split
    | with_reducible refine Moves.thenOp (ListAns.All.doneGet (State.cairnList_writes ..) (by assumption)) (Within.mk rfl) ?_
    | with_reducible refine Moves.thenOp (ListAns.All.failGet (State.cairnList_writes ..) (by assumption)) (Within.mk rfl) ?_
    | with_reducible refine Moves.thenOp (ListAns.All.askGet (State.cairnList_writes ..) (by assumption)) (Within.mk rfl) ?_

theorem execLoadCairn_writes (e : Entry) (s : State) :
    ResAll (fun t => Moves [.freeCount, .objs, .routes, .cairn, .content, .depot, .link, .hostMem, .host, .err, .mgmt, .out] s t) (execLoadCairn e s) := by
  unfold execLoadCairn
  repeat' first
    | with_reducible apply Moves.refl
    | ((with_reducible apply Within.mk); exact rfl)
    | with_reducible apply Moves.thenOp (State.loadCairn_writes ..)
    | with_reducible refine State.onAdmin_writes (Within.mk rfl) (fun _ => ?_)

/-! ## Dram -/

theorem State.setChan16_writes (s : State) (f : Nat → ChState) :
    Moves [.dram] s (State.setChan16 s f) := by
  unfold State.setChan16
  repeat' first
    | with_reducible apply Moves.refl
    | assumption
    | ((with_reducible apply Within.mk); exact rfl)
    | with_reducible apply Moves.ite
    | (with_reducible apply upd_parts <;> first | exact .inl rfl | exact .inr rfl)
    | simp only [Moves.mk_eq]
    | with_reducible refine MovesMk.upd rfl (.inl rfl) (.inl rfl) ?_ ?_
    | (with_reducible apply Moves.foldl; intro _ _)
    | dsimp only
    | split

theorem execRefresh_writes (ch : Nat) (s : State) :
    ResAll (fun t => Moves [.dram, .out] s t) (execRefresh ch s) := by
  unfold execRefresh
  repeat' first
    | with_reducible apply Moves.refl
    | assumption
    | ((with_reducible apply Within.mk); exact rfl)
    | with_reducible apply Moves.thenOp (State.emit_writes ..)
    | with_reducible apply ResAll.next'
    | with_reducible apply ResAll.ite
    | with_reducible apply Moves.ite
    | (with_reducible apply upd_parts <;> first | exact .inl rfl | exact .inr rfl)
    | simp only [Moves.mk_eq]
    | with_reducible refine MovesMk.upd rfl (.inl rfl) (.inl rfl) ?_ ?_
    | (with_reducible apply Moves.foldl; intro _ _)
    | dsimp only
    | split

theorem execDimmTempSample_writes (ch : Nat) (centi : Int) (s : State) :
    ResAll (fun t => Moves [.objs, .dram, .err, .mgmt, .out] s t) (execDimmTempSample ch centi s) := by
  unfold execDimmTempSample
  repeat' first
    | with_reducible apply Moves.refl
    | assumption
    | ((with_reducible apply Within.mk); exact rfl)
    | with_reducible apply Moves.thenOp (State.raise_writes ..)
    | with_reducible apply ResAll.next'
    | with_reducible apply ResAll.ite
    | with_reducible apply Moves.ite
    | (with_reducible apply upd_parts <;> first | exact .inl rfl | exact .inr rfl)
    | simp only [Moves.mk_eq]
    | with_reducible refine MovesMk.upd rfl (.inl rfl) (.inl rfl) ?_ ?_
    | (with_reducible apply Moves.foldl; intro _ _)
    | dsimp only
    | split

theorem State.channelFails_writes (s : State) (ch : Nat) :
    Moves [.freeCount, .objs, .sys, .flash, .routes, .sched, .scn, .cairn, .summit, .content, .depot, .strands, .cache, .coh, .link, .hostMem, .host, .dram, .err, .mgmt, .out] s (State.channelFails s ch) := by
  unfold State.channelFails
  repeat' first
    | with_reducible apply Moves.refl
    | assumption
    | ((with_reducible apply Within.mk); exact rfl)
    | with_reducible apply Moves.thenOp (State.fatalDevice_writes ..)
    | with_reducible apply Moves.thenOp (State.raise_writes ..)
    | with_reducible apply Moves.thenOp (State.fenceChannel_writes ..)
    | with_reducible apply Moves.ite
    | (with_reducible apply upd_parts <;> first | exact .inl rfl | exact .inr rfl)
    | simp only [Moves.mk_eq]
    | with_reducible refine MovesMk.upd rfl (.inl rfl) (.inl rfl) ?_ ?_
    | (with_reducible apply Moves.foldl; intro _ _)
    | dsimp only
    | split

theorem State.channelsFail_writes (s : State) :
    Moves [.freeCount, .objs, .sys, .flash, .routes, .sched, .scn, .cairn, .summit, .content, .depot, .strands, .cache, .coh, .link, .hostMem, .host, .dram, .err, .mgmt, .out] s (State.channelsFail s) := by
  unfold State.channelsFail
  repeat' first
    | with_reducible apply Moves.refl
    | assumption
    | ((with_reducible apply Within.mk); exact rfl)
    | with_reducible apply Moves.thenOp (State.channelFails_writes ..)
    | with_reducible apply Moves.ite
    | (with_reducible apply upd_parts <;> first | exact .inl rfl | exact .inr rfl)
    | simp only [Moves.mk_eq]
    | with_reducible refine MovesMk.upd rfl (.inl rfl) (.inl rfl) ?_ ?_
    | (with_reducible apply Moves.foldl; intro _ _)
    | dsimp only
    | split

theorem execScrubStep_writes (ch : Nat) (s : State) :
    ResAll (fun t => Moves [.freeCount, .objs, .sys, .flash, .routes, .sched, .scn, .cairn, .summit, .content, .depot, .strands, .cache, .coh, .link, .hostMem, .host, .dram, .err, .mgmt, .out] s t) (execScrubStep ch s) := by
  unfold execScrubStep
  repeat' first
    | with_reducible apply Moves.refl
    | assumption
    | ((with_reducible apply Within.mk); exact rfl)
    | with_reducible apply Moves.thenOp (State.memRead_writes ..)
    | with_reducible apply Moves.thenOp (State.channelsFail_writes ..)
    | with_reducible apply Moves.thenOp (State.copyRead_writes ..)
    | with_reducible apply ResAll.next'
    | with_reducible apply ResAll.ite
    | with_reducible apply Moves.ite
    | (with_reducible apply upd_parts <;> first | exact .inl rfl | exact .inr rfl)
    | simp only [Moves.mk_eq]
    | with_reducible refine MovesMk.upd rfl (.inl rfl) (.inl rfl) ?_ ?_
    | (with_reducible apply Moves.foldl; intro _ _)
    | dsimp only
    | split

theorem State.expireTracked_writes (s : State) (ch : Nat) :
    Moves [.dram] s (State.expireTracked s ch) := by
  unfold State.expireTracked
  repeat' first
    | with_reducible apply Moves.refl
    | assumption
    | ((with_reducible apply Within.mk); exact rfl)
    | with_reducible apply Moves.ite
    | (with_reducible apply upd_parts <;> first | exact .inl rfl | exact .inr rfl)
    | simp only [Moves.mk_eq]
    | with_reducible refine MovesMk.upd rfl (.inl rfl) (.inl rfl) ?_ ?_
    | (with_reducible apply Moves.foldl; intro _ _)
    | dsimp only
    | split

theorem execFaultWindowExpiry_writes (ch : Nat) (s : State) :
    ResAll (fun t => Moves [.dram] s t) (execFaultWindowExpiry ch s) := by
  unfold execFaultWindowExpiry
  repeat' first
    | with_reducible apply Moves.refl
    | ((with_reducible apply Within.mk); exact rfl)
    | with_reducible apply Moves.thenOp (State.expireTracked_writes ..)
    | with_reducible apply ResAll.next'

theorem State.startTraining_writes (s : State) :
    Moves [.objs, .dram] s (State.startTraining s) := by
  unfold State.startTraining
  repeat' first
    | with_reducible apply Moves.refl
    | assumption
    | ((with_reducible apply Within.mk); exact rfl)
    | with_reducible apply Moves.thenOp (State.oset_writes ..)
    | with_reducible apply Moves.thenOp (State.setChan16_writes ..)
    | with_reducible apply Moves.ite
    | (with_reducible apply upd_parts <;> first | exact .inl rfl | exact .inr rfl)
    | simp only [Moves.mk_eq]
    | with_reducible refine MovesMk.upd rfl (.inl rfl) (.inl rfl) ?_ ?_
    | (with_reducible apply Moves.foldl; intro _ _)
    | dsimp only
    | split

theorem State.trainingFatal_writes (s : State) (ch : Nat) :
    Moves [.objs, .sys, .err, .mgmt, .out] s (State.trainingFatal s ch) := by
  unfold State.trainingFatal
  repeat' first
    | with_reducible apply Moves.refl
    | assumption
    | ((with_reducible apply Within.mk); exact rfl)
    | with_reducible apply Moves.thenOp (State.raise_writes ..)
    | with_reducible apply Moves.ite
    | (with_reducible apply upd_parts <;> first | exact .inl rfl | exact .inr rfl)
    | simp only [Moves.mk_eq]
    | with_reducible refine MovesMk.upd rfl (.inl rfl) (.inl rfl) ?_ ?_
    | (with_reducible apply Moves.foldl; intro _ _)
    | dsimp only
    | split

theorem State.trainingDone_writes (s : State) (failed : List Nat) :
    Moves [.objs, .sys, .dram, .err, .mgmt, .out] s (State.trainingDone s failed) := by
  unfold State.trainingDone
  repeat' first
    | with_reducible apply Moves.refl
    | ((with_reducible apply Within.mk); exact rfl)
    | with_reducible apply Moves.thenOp (State.oset_writes ..)
    | with_reducible apply Moves.thenOp (State.raise_writes ..)
    | with_reducible apply Moves.thenOp (State.setChan16_writes ..)
    | with_reducible apply Moves.thenOp (State.trainingFatal_writes ..)
    | with_reducible apply Moves.ite
    | (with_reducible apply Moves.foldl; intro _ _)
    | split
    | dsimp only

theorem execDdrTrainingDone_writes (failed : List Nat) (s : State) :
    ResAll (fun t => Moves [.objs, .sys, .dram, .err, .mgmt, .out] s t) (execDdrTrainingDone failed s) := by
  unfold execDdrTrainingDone
  repeat' first
    | with_reducible apply Moves.refl
    | ((with_reducible apply Within.mk); exact rfl)
    | with_reducible apply Moves.thenOp (State.trainingDone_writes ..)
    | with_reducible apply ResAll.next'

theorem State.initDone_writes (s : State) :
    Moves [.objs, .mem, .dram] s (State.initDone s) := by
  unfold State.initDone
  repeat' first
    | with_reducible apply Moves.refl
    | assumption
    | ((with_reducible apply Within.mk); exact rfl)
    | exact .inr (fun _ => Memory.wf_nil)
    | exact .inl rfl
    | with_reducible refine MovesMk.upd rfl ?_ ?_ ?_ ?_
    | with_reducible apply Moves.thenOp (State.oset_writes ..)
    | with_reducible apply Moves.ite
    | (with_reducible apply upd_parts <;> first | exact .inl rfl | exact .inr rfl)
    | simp only [Moves.mk_eq]
    | with_reducible refine MovesMk.upd rfl (.inl rfl) (.inl rfl) ?_ ?_
    | (with_reducible apply Moves.foldl; intro _ _)
    | dsimp only
    | split

theorem execDdrInitDone_writes (s : State) :
    ResAll (fun t => Moves [.objs, .mem, .dram] s t) (execDdrInitDone s) := by
  unfold execDdrInitDone
  repeat' first
    | with_reducible apply Moves.refl
    | ((with_reducible apply Within.mk); exact rfl)
    | with_reducible apply Moves.thenOp (State.initDone_writes ..)
    | with_reducible apply ResAll.next'

theorem execChannelFailure_writes (ch : Nat) (s : State) :
    ResAll (fun t => Moves [.freeCount, .objs, .sys, .flash, .routes, .sched, .scn, .cairn, .summit, .content, .depot, .strands, .cache, .coh, .link, .hostMem, .host, .dram, .err, .mgmt, .out] s t) (execChannelFailure ch s) := by
  unfold execChannelFailure
  repeat' first
    | with_reducible apply Moves.refl
    | ((with_reducible apply Within.mk); exact rfl)
    | with_reducible apply Moves.thenOp (State.channelFails_writes ..)
    | with_reducible apply ResAll.next'

theorem State.testStore_writes (s : State) (l : Nat) (data : List Byte) (check : List Byte) :
    Moves [.mem, .content, .depot, .dram] s (State.testStore s l data check) := by
  unfold State.testStore
  repeat' first
    | with_reducible apply Moves.refl
    | assumption
    | ((with_reducible apply Within.mk); exact rfl)
    | with_reducible apply Moves.thenOp (State.lineFresh_writes ..)
    | with_reducible apply Moves.thenOp (State.lineWrite_writes ..)
    | with_reducible apply Moves.thenOp (State.unpoison_writes ..)
    | with_reducible apply Moves.ite
    | (with_reducible apply upd_parts <;> first | exact .inl rfl | exact .inr rfl)
    | simp only [Moves.mk_eq]
    | with_reducible refine MovesMk.upd rfl (.inl rfl) (.inl rfl) ?_ ?_
    | (with_reducible apply Moves.foldl; intro _ _)
    | dsimp only
    | split

theorem State.testCommand_writes {l : List Field} {s : State} {f : Nat → State} (hl : Within [.objs] l)
    (hf : ∀ y0, Moves l s (f y0)) :
    Moves l s (State.testCommand s f) := by
  unfold State.testCommand
  repeat' first
    | with_reducible apply Moves.refl
    | assumption
    | with_reducible apply Moves.thenOp (State.oset_writes ..)
    | with_reducible refine Moves.trans ?_ (hf _)
    | with_reducible apply Moves.ite

theorem State.testWriteClean_writes (s : State) :
    Moves [.objs, .mem, .content, .depot, .dram] s (State.testWriteClean s) := by
  unfold State.testWriteClean
  repeat' first
    | with_reducible apply Moves.refl
    | ((with_reducible apply Within.mk); exact rfl)
    | with_reducible apply Moves.thenOp (State.testStore_writes ..)
    | with_reducible refine Moves.trans ?_ (State.testCommand_writes (Within.mk rfl) (fun _ => ?_))

theorem State.testWriteGiven_writes (s : State) :
    Moves [.objs, .mem, .content, .depot, .dram] s (State.testWriteGiven s) := by
  unfold State.testWriteGiven
  repeat' first
    | with_reducible apply Moves.refl
    | ((with_reducible apply Within.mk); exact rfl)
    | with_reducible apply Moves.thenOp (State.testStore_writes ..)
    | with_reducible refine Moves.trans ?_ (State.testCommand_writes (Within.mk rfl) (fun _ => ?_))

theorem State.testReadRaw_writes (s : State) :
    Moves [.objs] s (State.testReadRaw s) := by
  unfold State.testReadRaw
  repeat' first
    | with_reducible apply Moves.refl
    | ((with_reducible apply Within.mk); exact rfl)
    | with_reducible apply Moves.thenOp (State.oput_writes ..)
    | with_reducible refine Moves.trans ?_ (State.testCommand_writes (Within.mk rfl) (fun _ => ?_))

theorem execTestWrite_writes (s : State) :
    ResAll (fun t => Moves [.objs, .mem, .content, .depot, .dram] s t) (execTestWrite s) := by
  unfold execTestWrite
  repeat' first
    | with_reducible apply Moves.refl
    | ((with_reducible apply Within.mk); exact rfl)
    | with_reducible apply Moves.thenOp (State.testWriteClean_writes ..)
    | with_reducible apply ResAll.next'

theorem execTestWriteRaw_writes (s : State) :
    ResAll (fun t => Moves [.objs, .mem, .content, .depot, .dram] s t) (execTestWriteRaw s) := by
  unfold execTestWriteRaw
  repeat' first
    | with_reducible apply Moves.refl
    | ((with_reducible apply Within.mk); exact rfl)
    | with_reducible apply Moves.thenOp (State.testWriteGiven_writes ..)
    | with_reducible apply ResAll.next'

theorem execTestRead_writes (s : State) :
    ResAll (fun t => Moves [.objs] s t) (execTestRead s) := by
  unfold execTestRead
  repeat' first
    | with_reducible apply Moves.refl
    | ((with_reducible apply Within.mk); exact rfl)
    | with_reducible apply Moves.thenOp (State.testReadRaw_writes ..)
    | with_reducible apply ResAll.next'

theorem State.remapRead_writes (s : State) (ch : Nat) :
    Moves [.objs, .out] s (State.remapRead s ch) := by
  unfold State.remapRead
  repeat' first
    | with_reducible apply Moves.refl
    | ((with_reducible apply Within.mk); exact rfl)
    | with_reducible apply Moves.thenOp (State.emit_writes ..)
    | with_reducible apply Moves.thenOp (State.oput_writes ..)

theorem execRemapRead_writes (ch : Nat) (s : State) :
    ResAll (fun t => Moves [.objs, .out] s t) (execRemapRead ch s) := by
  unfold execRemapRead
  repeat' first
    | with_reducible apply Moves.refl
    | ((with_reducible apply Within.mk); exact rfl)
    | with_reducible apply Moves.thenOp (State.remapRead_writes ..)
    | with_reducible apply ResAll.next'
    | with_reducible apply Moves.ite

theorem State.popRecord_writes (s : State) :
    Moves [.err] s ((State.popRecord s).2) := by
  unfold State.popRecord
  repeat' first
    | with_reducible apply Moves.refl
    | (with_reducible apply upd_parts <;> first | exact .inl rfl | exact .inr rfl)
    | simp only [Moves.mk_eq]
    | with_reducible refine MovesMk.upd rfl (.inl rfl) (.inl rfl) ?_ ?_
    | split

theorem State.popLatch_writes (s : State) :
    Moves [.err] s ((State.popLatch s).2) := by
  unfold State.popLatch
  repeat' first
    | with_reducible apply Moves.refl
    | (with_reducible apply upd_parts <;> first | exact .inl rfl | exact .inr rfl)
    | simp only [Moves.mk_eq]
    | with_reducible refine MovesMk.upd rfl (.inl rfl) (.inl rfl) ?_ ?_
    | split

theorem execNextRecordRead_writes (s : State) :
    ResAll (fun t => Moves [.err, .out] s t) (execNextRecordRead s) := by
  unfold execNextRecordRead
  repeat' first
    | with_reducible apply Moves.refl
    | ((with_reducible apply Within.mk); exact rfl)
    | with_reducible apply Moves.thenOp (State.emit_writes ..)
    | with_reducible apply Moves.thenOp (State.popRecord_writes ..)
    | with_reducible apply ResAll.next'

theorem execFatalLatchRead_writes (s : State) :
    ResAll (fun t => Moves [.err, .out] s t) (execFatalLatchRead s) := by
  unfold execFatalLatchRead
  repeat' first
    | with_reducible apply Moves.refl
    | ((with_reducible apply Within.mk); exact rfl)
    | with_reducible apply Moves.thenOp (State.emit_writes ..)
    | with_reducible apply Moves.thenOp (State.popLatch_writes ..)
    | with_reducible apply ResAll.next'

/-! ## Upsets -/

theorem State.putArray_writes (s : State) (a : CacheArray) (l : Nat) (ws : List Way) :
    Moves [.cache] s (State.putArray s a l ws) := by
  unfold State.putArray
  repeat' first
    | with_reducible apply Moves.refl
    | ((with_reducible apply Within.mk); exact rfl)
    | (with_reducible apply upd_parts <;> first | exact .inl rfl | exact .inr rfl)
    | simp only [Moves.mk_eq]
    | with_reducible refine MovesMk.upd rfl (.inl rfl) (.inl rfl) ?_ ?_
    | split

theorem State.loseL2_writes (s : State) (r l : Nat) :
    Moves [.cache, .coh] s (State.loseL2 s r l) := by
  unfold State.loseL2
  repeat' first
    | with_reducible apply Moves.refl
    | ((with_reducible apply Within.mk); exact rfl)
    | with_reducible apply Moves.thenOp (State.dropL2_writes ..)
    | with_reducible apply Moves.thenOp (State.setDir_writes ..)
    | with_reducible apply Moves.thenOp (State.setRemote_writes ..)
    | with_reducible apply Moves.ite

theorem State.dropArray_writes (s : State) (a : CacheArray) (l i : Nat) :
    Moves [.cache, .coh, .link, .out] s (State.dropArray s a l i) := by
  unfold State.dropArray
  repeat' first
    | with_reducible apply Moves.refl
    | assumption
    | ((with_reducible apply Within.mk); exact rfl)
    | with_reducible apply Moves.thenOp (State.loseL2_writes ..)
    | with_reducible apply Moves.thenOp (State.putArray_writes ..)
    | with_reducible apply Moves.thenOp (State.proxyWb_writes ..)
    | with_reducible apply Moves.ite
    | (with_reducible apply upd_parts <;> first | exact .inl rfl | exact .inr rfl)
    | simp only [Moves.mk_eq]
    | with_reducible refine MovesMk.upd rfl (.inl rfl) (.inl rfl) ?_ ?_
    | (with_reducible apply Moves.foldl; intro _ _)
    | dsimp only
    | split

theorem State.spoilLine_writes (s : State) (a : CacheArray) (l i : Nat) :
    Moves [.objs, .cache, .coh, .link, .dram, .out] s (State.spoilLine s a l i) := by
  unfold State.spoilLine
  repeat' first
    | with_reducible apply Moves.refl
    | assumption
    | ((with_reducible apply Within.mk); exact rfl)
    | with_reducible apply Moves.thenOp (State.sendCoh_writes ..)
    | with_reducible apply Moves.thenOp (State.newTxn_writes ..)
    | with_reducible apply Moves.thenOp (State.poison_writes ..)
    | with_reducible apply Moves.thenOp (State.loseL2_writes ..)
    | with_reducible apply Moves.thenOp (State.putArray_writes ..)
    | with_reducible apply Moves.thenOp (State.proxyNote_writes ..)
    | with_reducible apply Moves.ite
    | (with_reducible apply upd_parts <;> first | exact .inl rfl | exact .inr rfl)
    | simp only [Moves.mk_eq]
    | with_reducible refine MovesMk.upd rfl (.inl rfl) (.inl rfl) ?_ ?_
    | (with_reducible apply Moves.foldl; intro _ _)
    | dsimp only
    | split

theorem State.fenceWay_writes (s : State) (a : CacheArray) (l i : Nat) :
    Moves [.freeCount, .objs, .flash, .routes, .sched, .scn, .cairn, .summit, .content, .depot, .strands, .cache, .coh, .link, .hostMem, .host, .dram, .err, .mgmt, .out] s (State.fenceWay s a l i) := by
  unfold State.fenceWay
  repeat' first
    | with_reducible apply Moves.refl
    | ((with_reducible apply Within.mk); exact rfl)
    | with_reducible apply Moves.thenOp (State.replayAll_writes ..)
    | with_reducible apply Moves.thenOp (State.raise_writes ..)
    | with_reducible apply Moves.thenOp (State.oinc_writes ..)
    | with_reducible apply Moves.thenOp (State.putArray_writes ..)
    | with_reducible apply Moves.thenOp (State.dropL1_writes ..)
    | with_reducible apply Moves.ite
    | split

theorem State.arrayError_writes (s : State) (a : CacheArray) (l : Nat) (e : ArrayError) :
    Moves [.freeCount, .objs, .flash, .routes, .sched, .scn, .cairn, .summit, .content, .depot, .strands, .cache, .coh, .link, .hostMem, .host, .dram, .err, .mgmt, .out] s (State.arrayError s a l e) := by
  unfold State.arrayError
  repeat' first
    | with_reducible apply Moves.refl
    | ((with_reducible apply Within.mk); exact rfl)
    | with_reducible apply Moves.thenOp (State.fenceWay_writes ..)
    | with_reducible apply Moves.thenOp (State.raise_writes ..)
    | with_reducible apply Moves.thenOp (State.spoilLine_writes ..)
    | with_reducible apply Moves.thenOp (State.corrected_writes ..)
    | with_reducible apply Moves.thenOp (State.oinc_writes ..)
    | with_reducible apply Moves.thenOp (State.dropArray_writes ..)
    | with_reducible apply Moves.ite
    | split

theorem State.registersCorrected_writes (s : State) (p k : Nat) :
    Moves [.objs, .err, .mgmt, .out] s (State.registersCorrected s p k) := by
  unfold State.registersCorrected
  repeat' first
    | with_reducible apply Moves.refl
    | ((with_reducible apply Within.mk); exact rfl)
    | with_reducible apply Moves.thenOp (State.corrected_writes ..)
    | with_reducible apply Moves.thenOp (State.oinc_writes ..)
    | with_reducible apply Moves.ite

theorem State.ittParity_writes (s : State) (p k i : Nat) :
    Moves [.strands] s (State.ittParity s p k i) := by
  unfold State.ittParity
  repeat' first
    | with_reducible apply Moves.refl
    | assumption
    | ((with_reducible apply Within.mk); exact rfl)
    | with_reducible apply Moves.ite
    | (with_reducible apply upd_parts <;> first | exact .inl rfl | exact .inr rfl)
    | simp only [Moves.mk_eq]
    | with_reducible refine MovesMk.upd rfl (.inl rfl) (.inl rfl) ?_ ?_
    | (with_reducible apply Moves.foldl; intro _ _)
    | dsimp only
    | split

theorem State.flipRow_writes (s : State) (k row bit : Nat) :
    Moves [.cairn] s (State.flipRow s k row bit) := by
  unfold State.flipRow
  repeat' first
    | with_reducible apply Moves.refl
    | assumption
    | ((with_reducible apply Within.mk); exact rfl)
    | with_reducible apply Moves.thenOp (State.setBank_writes ..)
    | with_reducible apply Moves.ite
    | (with_reducible apply upd_parts <;> first | exact .inl rfl | exact .inr rfl)
    | simp only [Moves.mk_eq]
    | with_reducible refine MovesMk.upd rfl (.inl rfl) (.inl rfl) ?_ ?_
    | (with_reducible apply Moves.foldl; intro _ _)
    | dsimp only
    | split

theorem State.flipLine_writes (s : State) (l : Nat) (mirror : Bool) (data check : List Byte) :
    Moves [.mem, .content, .depot, .dram] s (State.flipLine s l mirror data check) := by
  unfold State.flipLine
  repeat' first
    | with_reducible apply Moves.refl
    | assumption
    | ((with_reducible apply Within.mk); exact rfl)
    | with_reducible apply Moves.thenOp (State.lineWrite_writes ..)
    | with_reducible apply Moves.ite
    | (with_reducible apply upd_parts <;> first | exact .inl rfl | exact .inr rfl)
    | simp only [Moves.mk_eq]
    | with_reducible refine MovesMk.upd rfl (.inl rfl) (.inl rfl) ?_ ?_
    | (with_reducible apply Moves.foldl; intro _ _)
    | dsimp only
    | split

theorem State.upset_writes (s : State) (r : Resource) :
    Moves [.freeCount, .objs, .mem, .sys, .flash, .routes, .sched, .scn, .cairn, .summit, .content, .depot, .strands, .cache, .coh, .link, .hostMem, .host, .eng, .dram, .err, .mgmt, .out] s (State.upset s r) := by
  unfold State.upset
  repeat' first
    | with_reducible apply Moves.refl
    | assumption
    | ((with_reducible apply Within.mk); exact rfl)
    | with_reducible apply Moves.thenOp (State.registersCorrected_writes ..)
    | with_reducible apply Moves.thenOp (State.arrayError_writes ..)
    | with_reducible apply Moves.thenOp (State.flipRow_writes ..)
    | with_reducible apply Moves.thenOp (State.flipLine_writes ..)
    | with_reducible apply Moves.thenOp (State.fatalTenant_writes ..)
    | with_reducible apply Moves.thenOp (State.fatalDevice_writes ..)
    | with_reducible apply Moves.thenOp (State.ittParity_writes ..)
    | with_reducible apply Moves.ite
    | (with_reducible apply upd_parts <;> first | exact .inl rfl | exact .inr rfl)
    | simp only [Moves.mk_eq]
    | with_reducible refine MovesMk.upd rfl (.inl rfl) (.inl rfl) ?_ ?_
    | (with_reducible apply Moves.foldl; intro _ _)
    | dsimp only
    | split

end Sys2Proof.Machine
end

