-- ==== Sys2Proof/Laws/FrameStrand.lean ====
section
/-! SUPPORT. What each function may write: the strands. -/

set_option Elab.async false
set_option linter.all false
namespace Sys2Proof.Machine
open Sys2Proof

/-! ## Strand -/

theorem State.strandTrap_writes (s : State) (st : StrandRef) (t : StrandSt) (k : RouteKey) (cause : Nat) (tval : Word) :
    Moves [.objs, .routes, .sched, .scn, .strands, .err, .mgmt, .out] s (State.strandTrap s st t k cause tval) := by
  unfold State.strandTrap
  repeat' first
    | with_reducible apply Moves.refl
    | assumption
    | ((with_reducible apply Within.mk); exact rfl)
    | with_reducible apply Moves.thenOp (State.endRunning_writes ..)
    | with_reducible apply Moves.thenOp (State.oinc_writes ..)
    | with_reducible apply Moves.thenOp (State.routeFault_writes ..)
    | with_reducible apply Moves.thenOp (State.setStrand_writes ..)
    | with_reducible apply Moves.thenOp (State.stopOnRidge_writes ..)
    | with_reducible apply Moves.thenOp (State.stopStrand_writes ..)
    | with_reducible apply Moves.thenOp (State.updRoute_writes ..)
    | with_reducible apply Moves.ite
    | (with_reducible apply upd_parts <;> first | exact .inl rfl | exact .inr rfl)
    | simp only [Moves.mk_eq]
    | with_reducible refine MovesMk.upd rfl (.inl rfl) (.inl rfl) ?_ ?_
    | (with_reducible apply Moves.foldl; intro _ _)
    | dsimp only
    | split

theorem State.touchLines_writes (s : State) (st : StrandRef) (k : RouteKey) (ls : List Nat) :
    Moves [.objs, .flash, .depot, .cache, .coh, .link, .dram, .err, .mgmt, .out] s ((State.touchLines s st k ls).1) := by
  unfold State.touchLines
  repeat' first
    | with_reducible apply Moves.refl
    | assumption
    | ((with_reducible apply Within.mk); exact rfl)
    | with_reducible apply Moves.thenOp (State.strandRead_writes ..)
    | with_reducible apply Moves.ite_fst
    | (with_reducible apply Moves.foldl_fst; intro _ _)
    | with_reducible apply Moves.ite
    | (with_reducible apply upd_parts <;> first | exact .inl rfl | exact .inr rfl)
    | simp only [Moves.mk_eq]
    | with_reducible refine MovesMk.upd rfl (.inl rfl) (.inl rfl) ?_ ?_
    | (with_reducible apply Moves.foldl; intro _ _)
    | dsimp only
    | split

theorem State.strandAsk_writes (s : State) (st : StrandRef) (l op : Nat) :
    Moves [.strands, .coh, .link, .out] s (State.strandAsk s st l op) := by
  unfold State.strandAsk
  repeat' first
    | with_reducible apply Moves.refl
    | assumption
    | ((with_reducible apply Within.mk); exact rfl)
    | with_reducible apply Moves.thenOp (State.request_writes ..)
    | with_reducible apply Moves.thenOp (State.setStrand_writes ..)
    | with_reducible apply Moves.ite
    | (with_reducible apply upd_parts <;> first | exact .inl rfl | exact .inr rfl)
    | simp only [Moves.mk_eq]
    | with_reducible refine MovesMk.upd rfl (.inl rfl) (.inl rfl) ?_ ?_
    | (with_reducible apply Moves.foldl; intro _ _)
    | dsimp only
    | split
    | with_reducible refine Moves.thenOp (Moves.of_snd (State.request_writes ..) (by assumption)) (Within.mk rfl) ?_

theorem State.imgLoad_writes (s : State) (st : StrandRef) (k : RouteKey) (a n : Nat) (a0 : Word) (unbacked : Nat) :
    LRes.All (fun u => Moves [.objs, .flash, .depot, .strands, .cache, .coh, .link, .dram, .err, .mgmt, .out] s u) (State.imgLoad s st k a n a0 unbacked) := by
  unfold State.imgLoad
  repeat' first
    | with_reducible apply Moves.refl
    | assumption
    | ((with_reducible apply Within.mk); exact rfl)
    | with_reducible apply Moves.thenOp (State.strandAsk_writes ..)
    | with_reducible apply Moves.thenOp (State.touchLines_writes ..)
    | with_reducible apply LRes.All.okIn
    | with_reducible apply LRes.All.waitIn
    | with_reducible apply LRes.All.fullIn
    | with_reducible apply LRes.All.trapIn
    | with_reducible apply LRes.All.ite
    | with_reducible apply Moves.ite
    | (with_reducible apply upd_parts <;> first | exact .inl rfl | exact .inr rfl)
    | simp only [Moves.mk_eq]
    | with_reducible refine MovesMk.upd rfl (.inl rfl) (.inl rfl) ?_ ?_
    | (with_reducible apply Moves.foldl; intro _ _)
    | dsimp only
    | split
    | with_reducible refine Moves.thenOp (Moves.of_fst (State.touchLines_writes ..) (by assumption)) (Within.mk rfl) ?_

theorem State.windowLoad_writes (s : State) (st : StrandRef) (k : RouteKey) (ref : Nat) (limit : Nat) (off : Nat) (n : Nat) (a0 : Word) :
    LRes.All (fun t => Moves [.objs, .flash, .depot, .strands, .cache, .coh, .link, .dram, .err, .mgmt, .out] s t) (State.windowLoad s st k ref limit off n a0) := by
  unfold State.windowLoad
  repeat' first
    | with_reducible apply Moves.refl
    | assumption
    | ((with_reducible apply Within.mk); exact rfl)
    | with_reducible refine LRes.All.imp (fun _ h => Moves.thenOp h (Within.mk rfl) ?_) (State.imgLoad_writes ..)
    | with_reducible apply LRes.All.okIn
    | with_reducible apply LRes.All.waitIn
    | with_reducible apply LRes.All.fullIn
    | with_reducible apply LRes.All.trapIn
    | with_reducible apply LRes.All.ite
    | with_reducible apply Moves.ite
    | (with_reducible apply upd_parts <;> first | exact .inl rfl | exact .inr rfl)
    | simp only [Moves.mk_eq]
    | with_reducible refine MovesMk.upd rfl (.inl rfl) (.inl rfl) ?_ ?_
    | (with_reducible apply Moves.foldl; intro _ _)
    | dsimp only
    | split

theorem State.scratchPages_writes (s : State) (k : StrandTask) (o : Nat) (off : Nat) (n : Nat) :
    Alloc.All (fun t => Moves [.objs, .content, .depot, .link] s t) (State.scratchPages s k o off n) := by
  unfold State.scratchPages
  repeat' first
    | with_reducible apply Moves.refl
    | assumption
    | ((with_reducible apply Within.mk); exact rfl)
    | with_reducible refine Alloc.All.imp (fun _ h => Moves.thenOp h (Within.mk rfl) ?_) (State.ensurePages_writes ..)
    | with_reducible apply Moves.thenOp (State.settleAsk_writes ..)
    | with_reducible apply Alloc.All.okIn
    | with_reducible apply Alloc.All.failIn
    | with_reducible apply Alloc.All.waitIn
    | with_reducible apply Alloc.All.ite
    | with_reducible apply Moves.ite
    | (with_reducible apply upd_parts <;> first | exact .inl rfl | exact .inr rfl)
    | simp only [Moves.mk_eq]
    | with_reducible refine MovesMk.upd rfl (.inl rfl) (.inl rfl) ?_ ?_
    | (with_reducible apply Moves.foldl; intro _ _)
    | dsimp only
    | split
    | with_reducible refine Moves.thenOp (Alloc.All.okGet (State.ensurePages_writes ..) (by assumption)) (Within.mk rfl) ?_
    | with_reducible refine Moves.thenOp (Alloc.All.failGet (State.ensurePages_writes ..) (by assumption)) (Within.mk rfl) ?_

theorem State.depotLoad_writes (s : State) (st : StrandRef) (key : RouteKey) (a0 : Word) (o : Nat) (ob : DObj) (off n : Nat) :
    LRes.All (fun u => Moves [.objs, .flash, .depot, .strands, .cache, .coh, .link, .dram, .err, .mgmt, .out] s u) (State.depotLoad s st key a0 o ob off n) := by
  unfold State.depotLoad
  repeat' first
    | with_reducible apply Moves.refl
    | assumption
    | ((with_reducible apply Within.mk); exact rfl)
    | with_reducible apply Moves.thenOp (State.settleLost_writes ..)
    | with_reducible apply Moves.thenOp (State.strandAsk_writes ..)
    | with_reducible apply Moves.thenOp (State.touchLines_writes ..)
    | with_reducible apply LRes.All.okIn
    | with_reducible apply LRes.All.waitIn
    | with_reducible apply LRes.All.fullIn
    | with_reducible apply LRes.All.trapIn
    | with_reducible apply LRes.All.ite
    | with_reducible apply Moves.ite
    | (with_reducible apply upd_parts <;> first | exact .inl rfl | exact .inr rfl)
    | simp only [Moves.mk_eq]
    | with_reducible refine MovesMk.upd rfl (.inl rfl) (.inl rfl) ?_ ?_
    | (with_reducible apply Moves.foldl; intro _ _)
    | dsimp only
    | split
    | with_reducible refine Moves.thenOp (Moves.of_fst (State.touchLines_writes ..) (by assumption)) (Within.mk rfl) ?_

theorem State.strandLoad_writes (s : State) (st : StrandRef) (k : StrandTask) (a0 : Word) (n : Nat) :
    LRes.All (fun t => Moves [.objs, .flash, .content, .depot, .strands, .cache, .coh, .link, .dram, .err, .mgmt, .out] s t) (State.strandLoad s st k a0 n) := by
  unfold State.strandLoad
  repeat' first
    | with_reducible apply Moves.refl
    | assumption
    | ((with_reducible apply Within.mk); exact rfl)
    | with_reducible refine LRes.All.imp (fun _ h => Moves.thenOp h (Within.mk rfl) ?_) (State.imgLoad_writes ..)
    | with_reducible apply Moves.thenOp (State.send_writes ..)
    | with_reducible apply Moves.thenOp (State.touchLines_writes ..)
    | with_reducible refine LRes.All.imp (fun _ h => Moves.thenOp h (Within.mk rfl) ?_) (State.windowLoad_writes ..)
    | with_reducible apply Moves.thenOp (State.askPage_writes ..)
    | with_reducible refine LRes.All.imp (fun _ h => Moves.thenOp h (Within.mk rfl) ?_) (State.depotLoad_writes ..)
    | with_reducible apply LRes.All.okIn
    | with_reducible apply LRes.All.waitIn
    | with_reducible apply LRes.All.fullIn
    | with_reducible apply LRes.All.trapIn
    | with_reducible apply LRes.All.ite
    | with_reducible apply Moves.ite
    | (with_reducible apply upd_parts <;> first | exact .inl rfl | exact .inr rfl)
    | simp only [Moves.mk_eq]
    | with_reducible refine MovesMk.upd rfl (.inl rfl) (.inl rfl) ?_ ?_
    | (with_reducible apply Moves.foldl; intro _ _)
    | dsimp only
    | split
    | with_reducible refine Moves.thenOp (Alloc.All.okGet (State.scratchPages_writes ..) (by assumption)) (Within.mk rfl) ?_
    | with_reducible refine Moves.thenOp (Alloc.All.failGet (State.scratchPages_writes ..) (by assumption)) (Within.mk rfl) ?_
    | with_reducible refine Moves.thenOp (LRes.All.okGet (State.depotLoad_writes ..) (by assumption)) (Within.mk rfl) ?_
    | with_reducible refine Moves.thenOp (LRes.All.waitGet (State.depotLoad_writes ..) (by assumption)) (Within.mk rfl) ?_
    | with_reducible refine Moves.thenOp (LRes.All.fullGet (State.depotLoad_writes ..) (by assumption)) (Within.mk rfl) ?_

theorem State.storeCheck_writes (s : State) (k : StrandTask) (a0 : Word) (n : Nat) :
    LRes.All (fun t => Moves [.objs, .content, .depot, .link, .out] s t) (State.storeCheck s k a0 n) := by
  unfold State.storeCheck
  repeat' first
    | with_reducible apply Moves.refl
    | assumption
    | ((with_reducible apply Within.mk); exact rfl)
    | with_reducible apply Moves.thenOp (State.send_writes ..)
    | with_reducible apply Moves.thenOp (State.askPage_writes ..)
    | with_reducible apply LRes.All.okIn
    | with_reducible apply LRes.All.waitIn
    | with_reducible apply LRes.All.fullIn
    | with_reducible apply LRes.All.trapIn
    | with_reducible apply LRes.All.ite
    | with_reducible apply Moves.ite
    | (with_reducible apply upd_parts <;> first | exact .inl rfl | exact .inr rfl)
    | simp only [Moves.mk_eq]
    | with_reducible refine MovesMk.upd rfl (.inl rfl) (.inl rfl) ?_ ?_
    | (with_reducible apply Moves.foldl; intro _ _)
    | dsimp only
    | split
    | with_reducible refine Moves.thenOp (Alloc.All.okGet (State.scratchPages_writes ..) (by assumption)) (Within.mk rfl) ?_
    | with_reducible refine Moves.thenOp (Alloc.All.failGet (State.scratchPages_writes ..) (by assumption)) (Within.mk rfl) ?_

theorem State.storeToHost_writes (s : State) (o : Nat) (off : Nat) (bs : List Byte) (p : Page) :
    Moves [.hostMem] s (State.storeToHost s o off bs p) := by
  unfold State.storeToHost
  repeat' first
    | with_reducible apply Moves.refl
    | ((with_reducible apply Within.mk); exact rfl)
    | with_reducible apply Moves.thenOp (State.hostWrite_writes ..)

theorem State.patchFar_writes (s : State) (ridge l x off : Nat) (bs : List Byte) :
    Moves [.cache, .coh] s (State.patchFar s ridge l x off bs) := by
  unfold State.patchFar
  repeat' first
    | with_reducible apply Moves.refl
    | assumption
    | ((with_reducible apply Within.mk); exact rfl)
    | with_reducible apply Moves.thenOp (State.mapL2_writes ..)
    | with_reducible apply Moves.ite
    | (with_reducible apply upd_parts <;> first | exact .inl rfl | exact .inr rfl)
    | simp only [Moves.mk_eq]
    | with_reducible refine MovesMk.upd rfl (.inl rfl) (.inl rfl) ?_ ?_
    | (with_reducible apply Moves.foldl; intro _ _)
    | dsimp only
    | split

theorem State.landStore_writes (s : State) (st : StrandRef) (key : RouteKey) (o : Nat) (off : Nat) (ob : DObj) (ls : List Nat) (bs : List Byte) :
    Moves [.objs, .flash, .content, .depot, .strands, .cache, .coh, .link, .hostMem, .dram, .err, .mgmt, .out] s (State.landStore s st key o off ob ls bs) := by
  unfold State.landStore
  repeat' first
    | with_reducible apply Moves.refl
    | assumption
    | ((with_reducible apply Within.mk); exact rfl)
    | with_reducible apply Moves.thenOp (State.lineFresh_writes ..)
    | with_reducible apply Moves.thenOp (State.putObj_writes ..)
    | with_reducible apply Moves.thenOp (State.storeToHost_writes ..)
    | with_reducible apply Moves.thenOp (State.strandWrite_writes ..)
    | with_reducible apply Moves.thenOp (State.setStrand_writes ..)
    | with_reducible apply Moves.thenOp (State.patchFar_writes ..)
    | with_reducible apply Moves.thenOp (State.setTag_writes ..)
    | with_reducible apply Moves.ite
    | (with_reducible apply upd_parts <;> first | exact .inl rfl | exact .inr rfl)
    | simp only [Moves.mk_eq]
    | with_reducible refine MovesMk.upd rfl (.inl rfl) (.inl rfl) ?_ ?_
    | (with_reducible apply Moves.foldl; intro _ _)
    | dsimp only
    | split

theorem State.storeOut_writes (s : State) (st : StrandRef) (k : StrandTask) (e : StoreEnt) :
    StoreRes.All (fun a => Moves [.objs, .flash, .content, .depot, .strands, .cache, .coh, .link, .hostMem, .dram, .err, .mgmt, .out] s a) (State.storeOut s st k e) := by
  unfold State.storeOut
  repeat' first
    | with_reducible apply Moves.refl
    | assumption
    | ((with_reducible apply Within.mk); exact rfl)
    | with_reducible apply StoreRes.All.doneIn
    | with_reducible apply StoreRes.All.waitIn
    | with_reducible apply StoreRes.All.fullIn
    | with_reducible apply Moves.thenOp (State.landStore_writes ..)
    | with_reducible apply Moves.thenOp (State.sendPdSet_writes ..)
    | with_reducible apply Moves.thenOp (State.settleLost_writes ..)
    | with_reducible apply Moves.thenOp (State.strandAsk_writes ..)
    | with_reducible apply Moves.ite
    | (with_reducible apply upd_parts <;> first | exact .inl rfl | exact .inr rfl)
    | simp only [Moves.mk_eq]
    | with_reducible refine MovesMk.upd rfl (.inl rfl) (.inl rfl) ?_ ?_
    | (with_reducible apply Moves.foldl; intro _ _)
    | dsimp only
    | split
    | with_reducible refine Moves.thenOp (OptAll.st (State.journalLines_writes ..) (by assumption)) (Within.mk rfl) ?_
    | with_reducible refine Moves.thenOp (OptAll.st (State.storeSteps_writes ..) (by assumption)) (Within.mk rfl) ?_

theorem State.drainStores_writes (s : State) (st : StrandRef) (k : StrandTask) (x3 : Nat) :
    Moves [.objs, .flash, .content, .depot, .strands, .cache, .coh, .link, .hostMem, .dram, .err, .mgmt, .out] s (State.drainStores s st k x3) := by
  induction x3 generalizing s st k with
  | zero =>
    unfold State.drainStores
    repeat' (with_reducible apply Moves.refl)
  | succ n ih =>
    unfold State.drainStores
    repeat' first
      | with_reducible apply Moves.refl
      | ((with_reducible apply Within.mk); exact rfl)
      | with_reducible apply Moves.thenOp (State.countStall_writes ..)
      | with_reducible apply Moves.thenOp (State.setStrand_writes ..)
      | with_reducible refine Moves.thenOp (ih ..) (Within.mk rfl) ?_
      | simp only [Moves.mk_eq]
      | split
      | with_reducible refine Moves.thenOp (StoreRes.All.doneGet (State.storeOut_writes ..) (by assumption)) (Within.mk rfl) ?_
      | exact StoreRes.All.waitGet (State.storeOut_writes ..) (by assumption)

theorem State.storeAhead_writes (s : State) (st : StrandRef) (k : StrandTask) (es : List StoreEnt) :
    StoreRes.All (fun a => Moves [.objs, .flash, .content, .depot, .strands, .cache, .coh, .link, .hostMem, .dram, .err, .mgmt, .out] s a) (State.storeAhead s st k es) := by
  induction es generalizing s with
  | nil => exact Moves.refl ..
  | cons e l ih =>
    have he := State.storeOut_writes s st k e
    unfold State.storeAhead
    split
    next h => exact StoreRes.All.imp (fun _ hm => Moves.trans (StoreRes.All.doneGet he h) hm) (ih _)
    next => exact he

theorem State.enqueue_writes (s : State) (st : StrandRef) (k : StrandTask) (t : StrandSt) (es : List StoreEnt) :
    SEff.All (fun u => Moves [.objs, .flash, .content, .depot, .strands, .cache, .coh, .link, .hostMem, .dram, .err, .mgmt, .out] s u) (State.enqueue s st k t es) := by
  unfold State.enqueue
  repeat' first
    | with_reducible apply Moves.refl
    | assumption
    | ((with_reducible apply Within.mk); exact rfl)
    | with_reducible apply Moves.thenOp (State.countStall_writes ..)
    | with_reducible apply Moves.thenOp (State.setStrand_writes ..)
    | with_reducible apply SEff.All.okIn
    | with_reducible apply SEff.All.waitIn
    | with_reducible apply SEff.All.fullIn
    | with_reducible apply SEff.All.trapIn
    | with_reducible apply SEff.All.ite
    | with_reducible apply Moves.ite
    | (with_reducible apply upd_parts <;> first | exact .inl rfl | exact .inr rfl)
    | simp only [Moves.mk_eq]
    | with_reducible refine MovesMk.upd rfl (.inl rfl) (.inl rfl) ?_ ?_
    | (with_reducible apply Moves.foldl; intro _ _)
    | dsimp only
    | split
    | with_reducible refine Moves.thenOp (StoreRes.All.doneGet (State.storeAhead_writes ..) (by assumption)) (Within.mk rfl) ?_
    | with_reducible refine Moves.thenOp (StoreRes.All.waitGet (State.storeAhead_writes ..) (by assumption)) (Within.mk rfl) ?_
    | with_reducible refine Moves.thenOp (OptAll.st (State.storeAhead_writes ..) (by assumption)) (Within.mk rfl) ?_

theorem State.freeEvent_writes (s : State) (t : StrandSt) (e : Nat) (bits : Nat) :
    Moves [.freeCount] s ((State.freeEvent s t e bits).2) := by
  unfold State.freeEvent
  repeat' first
    | with_reducible apply Moves.refl
    | ((with_reducible apply Within.mk); exact rfl)
    | with_reducible apply Moves.thenOp (State.free_writes ..)
    | with_reducible apply Moves.ite_snd

theorem State.dtlbUse_writes (s : State) (k : StrandTask) (t : StrandSt) (a n : Nat) :
    Moves [.freeCount] s ((State.dtlbUse s k t a n).2) := by
  unfold State.dtlbUse
  repeat' first
    | with_reducible apply Moves.refl
    | assumption
    | ((with_reducible apply Within.mk); exact rfl)
    | with_reducible apply Moves.thenOp (State.free_writes ..)
    | with_reducible apply Moves.ite_snd
    | (with_reducible apply Moves.foldl_snd; intro _ _)
    | with_reducible apply Moves.ite
    | (with_reducible apply upd_parts <;> first | exact .inl rfl | exact .inr rfl)
    | simp only [Moves.mk_eq]
    | with_reducible refine MovesMk.upd rfl (.inl rfl) (.inl rfl) ?_ ?_
    | (with_reducible apply Moves.foldl; intro _ _)
    | dsimp only
    | split
    | with_reducible refine Moves.thenOp (Moves.of_snd (State.free_writes ..) (by assumption)) (Within.mk rfl) ?_

theorem State.itlbUse_writes (s : State) (t : StrandSt) (pc : Nat) :
    Moves [.freeCount] s ((State.itlbUse s t pc).2) := by
  unfold State.itlbUse
  repeat' first
    | with_reducible apply Moves.refl
    | assumption
    | ((with_reducible apply Within.mk); exact rfl)
    | with_reducible apply Moves.thenOp (State.free_writes ..)
    | with_reducible apply Moves.ite_snd
    | (with_reducible apply Moves.foldl_snd; intro _ _)
    | with_reducible apply Moves.ite
    | (with_reducible apply upd_parts <;> first | exact .inl rfl | exact .inr rfl)
    | simp only [Moves.mk_eq]
    | with_reducible refine MovesMk.upd rfl (.inl rfl) (.inl rfl) ?_ ?_
    | (with_reducible apply Moves.foldl; intro _ _)
    | dsimp only
    | split
    | with_reducible refine Moves.thenOp (Moves.of_snd (State.free_writes ..) (by assumption)) (Within.mk rfl) ?_

theorem State.fetchTouch_writes (s : State) (st : StrandRef) (k : StrandTask) (d : Stage) (t : StrandSt) :
    Moves [.freeCount, .objs, .flash, .depot, .cache, .coh, .link, .dram, .err, .mgmt, .out] s ((State.fetchTouch s st k d t).2) := by
  unfold State.fetchTouch
  repeat' first
    | with_reducible apply Moves.refl
    | assumption
    | ((with_reducible apply Within.mk); exact rfl)
    | with_reducible apply Moves.thenOp (State.freeEvent_writes ..)
    | with_reducible apply Moves.thenOp (State.strandRead_writes ..)
    | with_reducible apply Moves.thenOp (State.itlbUse_writes ..)
    | with_reducible apply Moves.ite_snd
    | (with_reducible apply Moves.foldl_snd; intro _ _)
    | with_reducible apply Moves.ite
    | (with_reducible apply upd_parts <;> first | exact .inl rfl | exact .inr rfl)
    | simp only [Moves.mk_eq]
    | with_reducible refine MovesMk.upd rfl (.inl rfl) (.inl rfl) ?_ ?_
    | (with_reducible apply Moves.foldl; intro _ _)
    | dsimp only
    | split
    | with_reducible refine Moves.thenOp (Moves.of_snd (State.itlbUse_writes ..) (by assumption)) (Within.mk rfl) ?_

theorem State.strandStep_writes {l : List Field} {s : State} {st : StrandRef} {k : StrandTask} {d : Stage} {t : StrandSt}
    {f : StrandSt → StrandTask → State → SEff} (hl : Within [.freeCount, .objs, .flash, .routes, .sched, .scn, .cairn, .summit, .content, .depot, .strands, .cache, .coh, .link, .hostMem, .host, .dram, .err, .mgmt, .out] l)
    (hf : ∀ y0 y1 y2, SEff.All (fun t => Moves l y2 t) (f y0 y1 y2)) :
    Moves l s (State.strandStep s st k d t f) := by
  have h0 : Moves l s ((s.fetchTouch st k d t).2.setStrand st.ridge.val st.strand.val (s.fetchTouch st k d t).1) :=
    Moves.thenOp (State.setStrand_writes ..) (Within.trans (Within.mk rfl) hl)
      ((State.fetchTouch_writes s st k d t).mono (Within.trans (Within.mk rfl) hl))
  unfold State.strandStep
  dsimp only
  refine Moves.thenOp (State.answerHeld_writes ..) (Within.trans (Within.mk rfl) hl) ?_
  split
  next h =>
    refine Moves.thenOp (State.setStrand_writes ..) (Within.trans (Within.mk rfl) hl) ?_
    refine Moves.thenOp (State.freeEvent_writes ..) (Within.trans (Within.mk rfl) hl) ?_
    exact Moves.trans h0 (SEff.All.okGet (hf _ _ _) h)
  next => exact Moves.thenOp (State.strandTrap_writes ..) (Within.trans (Within.mk rfl) hl) h0
  next h => exact Moves.trans h0 (SEff.All.waitGet (hf _ _ _) h)
  next h =>
    exact Moves.thenOp (State.suspendRoute_writes ..) (Within.trans (Within.mk rfl) hl)
      (Moves.trans h0 (SEff.All.fullGet (hf _ _ _) h))

theorem State.strandRun_writes {l : List Field} {s : State} {st : StrandRef} {f : StrandSt → StrandTask → State → SEff} (hl : Within [.freeCount, .objs, .flash, .routes, .sched, .scn, .cairn, .summit, .content, .depot, .strands, .cache, .coh, .link, .hostMem, .host, .dram, .err, .mgmt, .out] l)
    (hf : ∀ y0 y1 y2, SEff.All (fun t => Moves l y2 t) (f y0 y1 y2)) :
    ResAll (fun t => Moves l s t) (State.strandRun s st f) := by
  unfold State.strandRun
  repeat' first
    | with_reducible apply Moves.refl
    | assumption
    | ((with_reducible apply Within.mk); exact rfl)
    | ((with_reducible refine Within.trans ?_ hl); (with_reducible apply Within.mk); exact rfl)
    | with_reducible refine Moves.trans ?_ (SEff.All.okGet (hf _ _ _) (by assumption))
    | with_reducible refine Moves.trans ?_ (SEff.All.waitGet (hf _ _ _) (by assumption))
    | with_reducible refine Moves.trans ?_ (SEff.All.fullGet (hf _ _ _) (by assumption))
    | with_reducible apply Moves.thenOp (State.fetchTouch_writes ..)
    | with_reducible apply Moves.thenOp (State.drainStores_writes ..)
    | with_reducible apply Moves.thenOp (State.freeEvent_writes ..)
    | with_reducible apply Moves.thenOp (State.setStrand_writes ..)
    | with_reducible apply Moves.thenOp (State.strandTrap_writes ..)
    | with_reducible apply Moves.thenOp (State.suspendRoute_writes ..)
    | with_reducible apply Moves.thenOp (State.strandAsk_writes ..)
    | with_reducible refine Moves.trans ?_ (State.strandStep_writes hl hf)
    | with_reducible apply ResAll.next'
    | with_reducible apply ResAll.ite
    | with_reducible apply Moves.ite
    | (with_reducible apply upd_parts <;> first | exact .inl rfl | exact .inr rfl)
    | simp only [Moves.mk_eq]
    | with_reducible refine MovesMk.upd rfl (.inl rfl) (.inl rfl) ?_ ?_
    | (with_reducible apply Moves.foldl; intro _ _)
    | dsimp only
    | split
    | with_reducible refine Moves.thenOp (Moves.of_snd (State.fetchTouch_writes ..) (by assumption)) (Within.trans (Within.mk rfl) hl) ?_

theorem State.regOp_writes (s : State) (st : StrandRef) (f : StrandSt → StrandSt) :
    ResAll (fun t => Moves [.freeCount, .objs, .flash, .routes, .sched, .scn, .cairn, .summit, .content, .depot, .strands, .cache, .coh, .link, .hostMem, .host, .dram, .err, .mgmt, .out] s t) (State.regOp s st f) := by
  unfold State.regOp
  repeat' first
    | with_reducible apply Moves.refl
    | with_reducible apply SEff.All.okIn
    | with_reducible refine State.strandRun_writes (Within.mk rfl) (fun _ _ _ => ?_)

theorem State.alu_writes (s : State) (st : StrandRef) (rd : Fin 32) (rs1 : Fin 32) (rs2 : Fin 32) (f : Word → Word → Word) :
    ResAll (fun t => Moves [.freeCount, .objs, .flash, .routes, .sched, .scn, .cairn, .summit, .content, .depot, .strands, .cache, .coh, .link, .hostMem, .host, .dram, .err, .mgmt, .out] s t) (State.alu s st rd rs1 rs2 f) := by
  unfold State.alu
  repeat' first
    | with_reducible apply Moves.refl
    | with_reducible refine ResAll.imp (fun _ h => Moves.thenOp h (Within.mk rfl) ?_) (State.regOp_writes ..)

theorem State.alu1_writes (s : State) (st : StrandRef) (rd : Fin 32) (rs1 : Fin 32) (f : Word → Word) :
    ResAll (fun t => Moves [.freeCount, .objs, .flash, .routes, .sched, .scn, .cairn, .summit, .content, .depot, .strands, .cache, .coh, .link, .hostMem, .host, .dram, .err, .mgmt, .out] s t) (State.alu1 s st rd rs1 f) := by
  unfold State.alu1
  repeat' first
    | with_reducible apply Moves.refl
    | with_reducible refine ResAll.imp (fun _ h => Moves.thenOp h (Within.mk rfl) ?_) (State.regOp_writes ..)

theorem State.divOp_writes (s : State) (st : StrandRef) (rd : Fin 32) (rs1 : Fin 32) (rs2 : Fin 32) (f : Word → Word → Word) :
    ResAll (fun t => Moves [.freeCount, .objs, .flash, .routes, .sched, .scn, .cairn, .summit, .content, .depot, .strands, .cache, .coh, .link, .hostMem, .host, .dram, .err, .mgmt, .out] s t) (State.divOp s st rd rs1 rs2 f) := by
  unfold State.divOp
  repeat' first
    | with_reducible apply Moves.refl
    | with_reducible apply SEff.All.okIn
    | with_reducible apply SEff.All.trapIn
    | with_reducible apply SEff.All.ite
    | with_reducible refine State.strandRun_writes (Within.mk rfl) (fun _ _ _ => ?_)

theorem execAdd_writes (st : StrandRef) (rd : Fin 32) (rs1 : Fin 32) (rs2 : Fin 32) (s : State) :
    ResAll (fun t => Moves [.freeCount, .objs, .flash, .routes, .sched, .scn, .cairn, .summit, .content, .depot, .strands, .cache, .coh, .link, .hostMem, .host, .dram, .err, .mgmt, .out] s t) (execAdd st rd rs1 rs2 s) := by
  unfold execAdd
  repeat' first
    | with_reducible apply Moves.refl
    | with_reducible refine ResAll.imp (fun _ h => Moves.thenOp h (Within.mk rfl) ?_) (State.alu_writes ..)

theorem execSub_writes (st : StrandRef) (rd : Fin 32) (rs1 : Fin 32) (rs2 : Fin 32) (s : State) :
    ResAll (fun t => Moves [.freeCount, .objs, .flash, .routes, .sched, .scn, .cairn, .summit, .content, .depot, .strands, .cache, .coh, .link, .hostMem, .host, .dram, .err, .mgmt, .out] s t) (execSub st rd rs1 rs2 s) := by
  unfold execSub
  repeat' first
    | with_reducible apply Moves.refl
    | with_reducible refine ResAll.imp (fun _ h => Moves.thenOp h (Within.mk rfl) ?_) (State.alu_writes ..)

theorem execAndOp_writes (st : StrandRef) (rd : Fin 32) (rs1 : Fin 32) (rs2 : Fin 32) (s : State) :
    ResAll (fun t => Moves [.freeCount, .objs, .flash, .routes, .sched, .scn, .cairn, .summit, .content, .depot, .strands, .cache, .coh, .link, .hostMem, .host, .dram, .err, .mgmt, .out] s t) (execAndOp st rd rs1 rs2 s) := by
  unfold execAndOp
  repeat' first
    | with_reducible apply Moves.refl
    | with_reducible refine ResAll.imp (fun _ h => Moves.thenOp h (Within.mk rfl) ?_) (State.alu_writes ..)

theorem execOrOp_writes (st : StrandRef) (rd : Fin 32) (rs1 : Fin 32) (rs2 : Fin 32) (s : State) :
    ResAll (fun t => Moves [.freeCount, .objs, .flash, .routes, .sched, .scn, .cairn, .summit, .content, .depot, .strands, .cache, .coh, .link, .hostMem, .host, .dram, .err, .mgmt, .out] s t) (execOrOp st rd rs1 rs2 s) := by
  unfold execOrOp
  repeat' first
    | with_reducible apply Moves.refl
    | with_reducible refine ResAll.imp (fun _ h => Moves.thenOp h (Within.mk rfl) ?_) (State.alu_writes ..)

theorem execXorOp_writes (st : StrandRef) (rd : Fin 32) (rs1 : Fin 32) (rs2 : Fin 32) (s : State) :
    ResAll (fun t => Moves [.freeCount, .objs, .flash, .routes, .sched, .scn, .cairn, .summit, .content, .depot, .strands, .cache, .coh, .link, .hostMem, .host, .dram, .err, .mgmt, .out] s t) (execXorOp st rd rs1 rs2 s) := by
  unfold execXorOp
  repeat' first
    | with_reducible apply Moves.refl
    | with_reducible refine ResAll.imp (fun _ h => Moves.thenOp h (Within.mk rfl) ?_) (State.alu_writes ..)

theorem execSll_writes (st : StrandRef) (rd : Fin 32) (rs1 : Fin 32) (rs2 : Fin 32) (s : State) :
    ResAll (fun t => Moves [.freeCount, .objs, .flash, .routes, .sched, .scn, .cairn, .summit, .content, .depot, .strands, .cache, .coh, .link, .hostMem, .host, .dram, .err, .mgmt, .out] s t) (execSll st rd rs1 rs2 s) := by
  unfold execSll
  repeat' first
    | with_reducible apply Moves.refl
    | with_reducible refine ResAll.imp (fun _ h => Moves.thenOp h (Within.mk rfl) ?_) (State.alu_writes ..)

theorem execSrl_writes (st : StrandRef) (rd : Fin 32) (rs1 : Fin 32) (rs2 : Fin 32) (s : State) :
    ResAll (fun t => Moves [.freeCount, .objs, .flash, .routes, .sched, .scn, .cairn, .summit, .content, .depot, .strands, .cache, .coh, .link, .hostMem, .host, .dram, .err, .mgmt, .out] s t) (execSrl st rd rs1 rs2 s) := by
  unfold execSrl
  repeat' first
    | with_reducible apply Moves.refl
    | with_reducible refine ResAll.imp (fun _ h => Moves.thenOp h (Within.mk rfl) ?_) (State.alu_writes ..)

theorem execSra_writes (st : StrandRef) (rd : Fin 32) (rs1 : Fin 32) (rs2 : Fin 32) (s : State) :
    ResAll (fun t => Moves [.freeCount, .objs, .flash, .routes, .sched, .scn, .cairn, .summit, .content, .depot, .strands, .cache, .coh, .link, .hostMem, .host, .dram, .err, .mgmt, .out] s t) (execSra st rd rs1 rs2 s) := by
  unfold execSra
  repeat' first
    | with_reducible apply Moves.refl
    | with_reducible refine ResAll.imp (fun _ h => Moves.thenOp h (Within.mk rfl) ?_) (State.alu_writes ..)

theorem execSlt_writes (st : StrandRef) (rd : Fin 32) (rs1 : Fin 32) (rs2 : Fin 32) (s : State) :
    ResAll (fun t => Moves [.freeCount, .objs, .flash, .routes, .sched, .scn, .cairn, .summit, .content, .depot, .strands, .cache, .coh, .link, .hostMem, .host, .dram, .err, .mgmt, .out] s t) (execSlt st rd rs1 rs2 s) := by
  unfold execSlt
  repeat' first
    | with_reducible apply Moves.refl
    | with_reducible refine ResAll.imp (fun _ h => Moves.thenOp h (Within.mk rfl) ?_) (State.alu_writes ..)

theorem execSltu_writes (st : StrandRef) (rd : Fin 32) (rs1 : Fin 32) (rs2 : Fin 32) (s : State) :
    ResAll (fun t => Moves [.freeCount, .objs, .flash, .routes, .sched, .scn, .cairn, .summit, .content, .depot, .strands, .cache, .coh, .link, .hostMem, .host, .dram, .err, .mgmt, .out] s t) (execSltu st rd rs1 rs2 s) := by
  unfold execSltu
  repeat' first
    | with_reducible apply Moves.refl
    | with_reducible refine ResAll.imp (fun _ h => Moves.thenOp h (Within.mk rfl) ?_) (State.alu_writes ..)

theorem execMinOp_writes (st : StrandRef) (rd : Fin 32) (rs1 : Fin 32) (rs2 : Fin 32) (s : State) :
    ResAll (fun t => Moves [.freeCount, .objs, .flash, .routes, .sched, .scn, .cairn, .summit, .content, .depot, .strands, .cache, .coh, .link, .hostMem, .host, .dram, .err, .mgmt, .out] s t) (execMinOp st rd rs1 rs2 s) := by
  unfold execMinOp
  repeat' first
    | with_reducible apply Moves.refl
    | with_reducible refine ResAll.imp (fun _ h => Moves.thenOp h (Within.mk rfl) ?_) (State.alu_writes ..)

theorem execMaxOp_writes (st : StrandRef) (rd : Fin 32) (rs1 : Fin 32) (rs2 : Fin 32) (s : State) :
    ResAll (fun t => Moves [.freeCount, .objs, .flash, .routes, .sched, .scn, .cairn, .summit, .content, .depot, .strands, .cache, .coh, .link, .hostMem, .host, .dram, .err, .mgmt, .out] s t) (execMaxOp st rd rs1 rs2 s) := by
  unfold execMaxOp
  repeat' first
    | with_reducible apply Moves.refl
    | with_reducible refine ResAll.imp (fun _ h => Moves.thenOp h (Within.mk rfl) ?_) (State.alu_writes ..)

theorem execMinu_writes (st : StrandRef) (rd : Fin 32) (rs1 : Fin 32) (rs2 : Fin 32) (s : State) :
    ResAll (fun t => Moves [.freeCount, .objs, .flash, .routes, .sched, .scn, .cairn, .summit, .content, .depot, .strands, .cache, .coh, .link, .hostMem, .host, .dram, .err, .mgmt, .out] s t) (execMinu st rd rs1 rs2 s) := by
  unfold execMinu
  repeat' first
    | with_reducible apply Moves.refl
    | with_reducible refine ResAll.imp (fun _ h => Moves.thenOp h (Within.mk rfl) ?_) (State.alu_writes ..)

theorem execMaxu_writes (st : StrandRef) (rd : Fin 32) (rs1 : Fin 32) (rs2 : Fin 32) (s : State) :
    ResAll (fun t => Moves [.freeCount, .objs, .flash, .routes, .sched, .scn, .cairn, .summit, .content, .depot, .strands, .cache, .coh, .link, .hostMem, .host, .dram, .err, .mgmt, .out] s t) (execMaxu st rd rs1 rs2 s) := by
  unfold execMaxu
  repeat' first
    | with_reducible apply Moves.refl
    | with_reducible refine ResAll.imp (fun _ h => Moves.thenOp h (Within.mk rfl) ?_) (State.alu_writes ..)

theorem execMul_writes (st : StrandRef) (rd : Fin 32) (rs1 : Fin 32) (rs2 : Fin 32) (s : State) :
    ResAll (fun t => Moves [.freeCount, .objs, .flash, .routes, .sched, .scn, .cairn, .summit, .content, .depot, .strands, .cache, .coh, .link, .hostMem, .host, .dram, .err, .mgmt, .out] s t) (execMul st rd rs1 rs2 s) := by
  unfold execMul
  repeat' first
    | with_reducible apply Moves.refl
    | with_reducible refine ResAll.imp (fun _ h => Moves.thenOp h (Within.mk rfl) ?_) (State.alu_writes ..)

theorem execMulh_writes (st : StrandRef) (rd : Fin 32) (rs1 : Fin 32) (rs2 : Fin 32) (s : State) :
    ResAll (fun t => Moves [.freeCount, .objs, .flash, .routes, .sched, .scn, .cairn, .summit, .content, .depot, .strands, .cache, .coh, .link, .hostMem, .host, .dram, .err, .mgmt, .out] s t) (execMulh st rd rs1 rs2 s) := by
  unfold execMulh
  repeat' first
    | with_reducible apply Moves.refl
    | with_reducible refine ResAll.imp (fun _ h => Moves.thenOp h (Within.mk rfl) ?_) (State.alu_writes ..)

theorem execMulhu_writes (st : StrandRef) (rd : Fin 32) (rs1 : Fin 32) (rs2 : Fin 32) (s : State) :
    ResAll (fun t => Moves [.freeCount, .objs, .flash, .routes, .sched, .scn, .cairn, .summit, .content, .depot, .strands, .cache, .coh, .link, .hostMem, .host, .dram, .err, .mgmt, .out] s t) (execMulhu st rd rs1 rs2 s) := by
  unfold execMulhu
  repeat' first
    | with_reducible apply Moves.refl
    | with_reducible refine ResAll.imp (fun _ h => Moves.thenOp h (Within.mk rfl) ?_) (State.alu_writes ..)

theorem execDiv_writes (st : StrandRef) (rd : Fin 32) (rs1 : Fin 32) (rs2 : Fin 32) (s : State) :
    ResAll (fun t => Moves [.freeCount, .objs, .flash, .routes, .sched, .scn, .cairn, .summit, .content, .depot, .strands, .cache, .coh, .link, .hostMem, .host, .dram, .err, .mgmt, .out] s t) (execDiv st rd rs1 rs2 s) := by
  unfold execDiv
  repeat' first
    | with_reducible apply Moves.refl
    | with_reducible refine ResAll.imp (fun _ h => Moves.thenOp h (Within.mk rfl) ?_) (State.divOp_writes ..)

theorem execDivu_writes (st : StrandRef) (rd : Fin 32) (rs1 : Fin 32) (rs2 : Fin 32) (s : State) :
    ResAll (fun t => Moves [.freeCount, .objs, .flash, .routes, .sched, .scn, .cairn, .summit, .content, .depot, .strands, .cache, .coh, .link, .hostMem, .host, .dram, .err, .mgmt, .out] s t) (execDivu st rd rs1 rs2 s) := by
  unfold execDivu
  repeat' first
    | with_reducible apply Moves.refl
    | with_reducible refine ResAll.imp (fun _ h => Moves.thenOp h (Within.mk rfl) ?_) (State.divOp_writes ..)

theorem execRem_writes (st : StrandRef) (rd : Fin 32) (rs1 : Fin 32) (rs2 : Fin 32) (s : State) :
    ResAll (fun t => Moves [.freeCount, .objs, .flash, .routes, .sched, .scn, .cairn, .summit, .content, .depot, .strands, .cache, .coh, .link, .hostMem, .host, .dram, .err, .mgmt, .out] s t) (execRem st rd rs1 rs2 s) := by
  unfold execRem
  repeat' first
    | with_reducible apply Moves.refl
    | with_reducible refine ResAll.imp (fun _ h => Moves.thenOp h (Within.mk rfl) ?_) (State.divOp_writes ..)

theorem execRemu_writes (st : StrandRef) (rd : Fin 32) (rs1 : Fin 32) (rs2 : Fin 32) (s : State) :
    ResAll (fun t => Moves [.freeCount, .objs, .flash, .routes, .sched, .scn, .cairn, .summit, .content, .depot, .strands, .cache, .coh, .link, .hostMem, .host, .dram, .err, .mgmt, .out] s t) (execRemu st rd rs1 rs2 s) := by
  unfold execRemu
  repeat' first
    | with_reducible apply Moves.refl
    | with_reducible refine ResAll.imp (fun _ h => Moves.thenOp h (Within.mk rfl) ?_) (State.divOp_writes ..)

theorem execClz_writes (st : StrandRef) (rd : Fin 32) (rs1 : Fin 32) (s : State) :
    ResAll (fun t => Moves [.freeCount, .objs, .flash, .routes, .sched, .scn, .cairn, .summit, .content, .depot, .strands, .cache, .coh, .link, .hostMem, .host, .dram, .err, .mgmt, .out] s t) (execClz st rd rs1 s) := by
  unfold execClz
  repeat' first
    | with_reducible apply Moves.refl
    | with_reducible refine ResAll.imp (fun _ h => Moves.thenOp h (Within.mk rfl) ?_) (State.alu1_writes ..)

theorem execCtz_writes (st : StrandRef) (rd : Fin 32) (rs1 : Fin 32) (s : State) :
    ResAll (fun t => Moves [.freeCount, .objs, .flash, .routes, .sched, .scn, .cairn, .summit, .content, .depot, .strands, .cache, .coh, .link, .hostMem, .host, .dram, .err, .mgmt, .out] s t) (execCtz st rd rs1 s) := by
  unfold execCtz
  repeat' first
    | with_reducible apply Moves.refl
    | with_reducible refine ResAll.imp (fun _ h => Moves.thenOp h (Within.mk rfl) ?_) (State.alu1_writes ..)

theorem execPopc_writes (st : StrandRef) (rd : Fin 32) (rs1 : Fin 32) (s : State) :
    ResAll (fun t => Moves [.freeCount, .objs, .flash, .routes, .sched, .scn, .cairn, .summit, .content, .depot, .strands, .cache, .coh, .link, .hostMem, .host, .dram, .err, .mgmt, .out] s t) (execPopc st rd rs1 s) := by
  unfold execPopc
  repeat' first
    | with_reducible apply Moves.refl
    | with_reducible refine ResAll.imp (fun _ h => Moves.thenOp h (Within.mk rfl) ?_) (State.alu1_writes ..)

theorem execBswap_writes (st : StrandRef) (rd : Fin 32) (rs1 : Fin 32) (s : State) :
    ResAll (fun t => Moves [.freeCount, .objs, .flash, .routes, .sched, .scn, .cairn, .summit, .content, .depot, .strands, .cache, .coh, .link, .hostMem, .host, .dram, .err, .mgmt, .out] s t) (execBswap st rd rs1 s) := by
  unfold execBswap
  repeat' first
    | with_reducible apply Moves.refl
    | with_reducible refine ResAll.imp (fun _ h => Moves.thenOp h (Within.mk rfl) ?_) (State.alu1_writes ..)

theorem execHstep_writes (st : StrandRef) (rd : Fin 32) (rs1 : Fin 32) (rs2 : Fin 32) (s : State) :
    ResAll (fun t => Moves [.freeCount, .objs, .flash, .routes, .sched, .scn, .cairn, .summit, .content, .depot, .strands, .cache, .coh, .link, .hostMem, .host, .dram, .err, .mgmt, .out] s t) (execHstep st rd rs1 rs2 s) := by
  unfold execHstep
  repeat' first
    | with_reducible apply Moves.refl
    | with_reducible refine ResAll.imp (fun _ h => Moves.thenOp h (Within.mk rfl) ?_) (State.alu_writes ..)

theorem execHfin_writes (st : StrandRef) (rd : Fin 32) (rs1 : Fin 32) (s : State) :
    ResAll (fun t => Moves [.freeCount, .objs, .flash, .routes, .sched, .scn, .cairn, .summit, .content, .depot, .strands, .cache, .coh, .link, .hostMem, .host, .dram, .err, .mgmt, .out] s t) (execHfin st rd rs1 s) := by
  unfold execHfin
  repeat' first
    | with_reducible apply Moves.refl
    | with_reducible refine ResAll.imp (fun _ h => Moves.thenOp h (Within.mk rfl) ?_) (State.alu1_writes ..)

theorem execCrc32cStep_writes (st : StrandRef) (rd : Fin 32) (rs1 : Fin 32) (rs2 : Fin 32) (s : State) :
    ResAll (fun t => Moves [.freeCount, .objs, .flash, .routes, .sched, .scn, .cairn, .summit, .content, .depot, .strands, .cache, .coh, .link, .hostMem, .host, .dram, .err, .mgmt, .out] s t) (execCrc32cStep st rd rs1 rs2 s) := by
  unfold execCrc32cStep
  repeat' first
    | with_reducible apply Moves.refl
    | with_reducible refine ResAll.imp (fun _ h => Moves.thenOp h (Within.mk rfl) ?_) (State.alu_writes ..)

theorem execAddi_writes (st : StrandRef) (rd : Fin 32) (rs1 : Fin 32) (imm : BitVec 16) (s : State) :
    ResAll (fun t => Moves [.freeCount, .objs, .flash, .routes, .sched, .scn, .cairn, .summit, .content, .depot, .strands, .cache, .coh, .link, .hostMem, .host, .dram, .err, .mgmt, .out] s t) (execAddi st rd rs1 imm s) := by
  unfold execAddi
  repeat' first
    | with_reducible apply Moves.refl
    | with_reducible refine ResAll.imp (fun _ h => Moves.thenOp h (Within.mk rfl) ?_) (State.alu1_writes ..)

theorem execAndi_writes (st : StrandRef) (rd : Fin 32) (rs1 : Fin 32) (imm : BitVec 16) (s : State) :
    ResAll (fun t => Moves [.freeCount, .objs, .flash, .routes, .sched, .scn, .cairn, .summit, .content, .depot, .strands, .cache, .coh, .link, .hostMem, .host, .dram, .err, .mgmt, .out] s t) (execAndi st rd rs1 imm s) := by
  unfold execAndi
  repeat' first
    | with_reducible apply Moves.refl
    | with_reducible refine ResAll.imp (fun _ h => Moves.thenOp h (Within.mk rfl) ?_) (State.alu1_writes ..)

theorem execOri_writes (st : StrandRef) (rd : Fin 32) (rs1 : Fin 32) (imm : BitVec 16) (s : State) :
    ResAll (fun t => Moves [.freeCount, .objs, .flash, .routes, .sched, .scn, .cairn, .summit, .content, .depot, .strands, .cache, .coh, .link, .hostMem, .host, .dram, .err, .mgmt, .out] s t) (execOri st rd rs1 imm s) := by
  unfold execOri
  repeat' first
    | with_reducible apply Moves.refl
    | with_reducible refine ResAll.imp (fun _ h => Moves.thenOp h (Within.mk rfl) ?_) (State.alu1_writes ..)

theorem execXori_writes (st : StrandRef) (rd : Fin 32) (rs1 : Fin 32) (imm : BitVec 16) (s : State) :
    ResAll (fun t => Moves [.freeCount, .objs, .flash, .routes, .sched, .scn, .cairn, .summit, .content, .depot, .strands, .cache, .coh, .link, .hostMem, .host, .dram, .err, .mgmt, .out] s t) (execXori st rd rs1 imm s) := by
  unfold execXori
  repeat' first
    | with_reducible apply Moves.refl
    | with_reducible refine ResAll.imp (fun _ h => Moves.thenOp h (Within.mk rfl) ?_) (State.alu1_writes ..)

theorem execSlli_writes (st : StrandRef) (rd : Fin 32) (rs1 : Fin 32) (amount : BitVec 6) (s : State) :
    ResAll (fun t => Moves [.freeCount, .objs, .flash, .routes, .sched, .scn, .cairn, .summit, .content, .depot, .strands, .cache, .coh, .link, .hostMem, .host, .dram, .err, .mgmt, .out] s t) (execSlli st rd rs1 amount s) := by
  unfold execSlli
  repeat' first
    | with_reducible apply Moves.refl
    | with_reducible refine ResAll.imp (fun _ h => Moves.thenOp h (Within.mk rfl) ?_) (State.alu1_writes ..)

theorem execSrli_writes (st : StrandRef) (rd : Fin 32) (rs1 : Fin 32) (amount : BitVec 6) (s : State) :
    ResAll (fun t => Moves [.freeCount, .objs, .flash, .routes, .sched, .scn, .cairn, .summit, .content, .depot, .strands, .cache, .coh, .link, .hostMem, .host, .dram, .err, .mgmt, .out] s t) (execSrli st rd rs1 amount s) := by
  unfold execSrli
  repeat' first
    | with_reducible apply Moves.refl
    | with_reducible refine ResAll.imp (fun _ h => Moves.thenOp h (Within.mk rfl) ?_) (State.alu1_writes ..)

theorem execSrai_writes (st : StrandRef) (rd : Fin 32) (rs1 : Fin 32) (amount : BitVec 6) (s : State) :
    ResAll (fun t => Moves [.freeCount, .objs, .flash, .routes, .sched, .scn, .cairn, .summit, .content, .depot, .strands, .cache, .coh, .link, .hostMem, .host, .dram, .err, .mgmt, .out] s t) (execSrai st rd rs1 amount s) := by
  unfold execSrai
  repeat' first
    | with_reducible apply Moves.refl
    | with_reducible refine ResAll.imp (fun _ h => Moves.thenOp h (Within.mk rfl) ?_) (State.alu1_writes ..)

theorem execSlti_writes (st : StrandRef) (rd : Fin 32) (rs1 : Fin 32) (imm : BitVec 16) (s : State) :
    ResAll (fun t => Moves [.freeCount, .objs, .flash, .routes, .sched, .scn, .cairn, .summit, .content, .depot, .strands, .cache, .coh, .link, .hostMem, .host, .dram, .err, .mgmt, .out] s t) (execSlti st rd rs1 imm s) := by
  unfold execSlti
  repeat' first
    | with_reducible apply Moves.refl
    | with_reducible refine ResAll.imp (fun _ h => Moves.thenOp h (Within.mk rfl) ?_) (State.alu1_writes ..)

theorem execLui_writes (st : StrandRef) (rd : Fin 32) (imm : BitVec 21) (s : State) :
    ResAll (fun t => Moves [.freeCount, .objs, .flash, .routes, .sched, .scn, .cairn, .summit, .content, .depot, .strands, .cache, .coh, .link, .hostMem, .host, .dram, .err, .mgmt, .out] s t) (execLui st rd imm s) := by
  unfold execLui
  repeat' first
    | with_reducible apply Moves.refl
    | with_reducible refine ResAll.imp (fun _ h => Moves.thenOp h (Within.mk rfl) ?_) (State.regOp_writes ..)

theorem State.loadOp_writes (s : State) (st : StrandRef) (n : Nat) (addr : StrandSt → Word) (put : StrandSt → Nat → StrandSt) :
    ResAll (fun t => Moves [.freeCount, .objs, .flash, .routes, .sched, .scn, .cairn, .summit, .content, .depot, .strands, .cache, .coh, .link, .hostMem, .host, .dram, .err, .mgmt, .out] s t) (State.loadOp s st n addr put) := by
  unfold State.loadOp
  repeat' first
    | with_reducible apply Moves.refl
    | assumption
    | ((with_reducible apply Within.mk); exact rfl)
    | with_reducible apply SEff.All.okIn
    | with_reducible apply SEff.All.trapIn
    | with_reducible apply SEff.All.waitIn
    | with_reducible apply SEff.All.fullIn
    | with_reducible apply Moves.thenOp (State.freeEvent_writes ..)
    | with_reducible refine State.strandRun_writes (Within.mk rfl) (fun _ _ _ => ?_)
    | with_reducible apply Moves.thenOp (State.dtlbUse_writes ..)
    | with_reducible apply ResAll.next'
    | with_reducible apply ResAll.ite
    | with_reducible apply Moves.ite
    | (with_reducible apply upd_parts <;> first | exact .inl rfl | exact .inr rfl)
    | simp only [Moves.mk_eq]
    | with_reducible refine MovesMk.upd rfl (.inl rfl) (.inl rfl) ?_ ?_
    | (with_reducible apply Moves.foldl; intro _ _)
    | dsimp only
    | split
    | with_reducible refine Moves.thenOp (LRes.All.okGet (State.strandLoad_writes ..) (by assumption)) (Within.mk rfl) ?_
    | with_reducible refine Moves.thenOp (LRes.All.waitGet (State.strandLoad_writes ..) (by assumption)) (Within.mk rfl) ?_
    | with_reducible refine Moves.thenOp (LRes.All.fullGet (State.strandLoad_writes ..) (by assumption)) (Within.mk rfl) ?_
    | with_reducible refine Moves.thenOp (Moves.of_snd (State.dtlbUse_writes ..) (by assumption)) (Within.mk rfl) ?_

theorem State.loadS_writes (s : State) (st : StrandRef) (n : Nat) (rd : Fin 32) (rs1 : Fin 32) (imm : BitVec 16) :
    ResAll (fun t => Moves [.freeCount, .objs, .flash, .routes, .sched, .scn, .cairn, .summit, .content, .depot, .strands, .cache, .coh, .link, .hostMem, .host, .dram, .err, .mgmt, .out] s t) (State.loadS s st n rd rs1 imm) := by
  unfold State.loadS
  repeat' first
    | with_reducible apply Moves.refl
    | with_reducible refine ResAll.imp (fun _ h => Moves.thenOp h (Within.mk rfl) ?_) (State.loadOp_writes ..)

theorem State.loadU_writes (s : State) (st : StrandRef) (n : Nat) (rd : Fin 32) (rs1 : Fin 32) (imm : BitVec 16) :
    ResAll (fun t => Moves [.freeCount, .objs, .flash, .routes, .sched, .scn, .cairn, .summit, .content, .depot, .strands, .cache, .coh, .link, .hostMem, .host, .dram, .err, .mgmt, .out] s t) (State.loadU s st n rd rs1 imm) := by
  unfold State.loadU
  repeat' first
    | with_reducible apply Moves.refl
    | with_reducible refine ResAll.imp (fun _ h => Moves.thenOp h (Within.mk rfl) ?_) (State.loadOp_writes ..)

theorem execLb_writes (st : StrandRef) (rd : Fin 32) (rs1 : Fin 32) (imm : BitVec 16) (s : State) :
    ResAll (fun t => Moves [.freeCount, .objs, .flash, .routes, .sched, .scn, .cairn, .summit, .content, .depot, .strands, .cache, .coh, .link, .hostMem, .host, .dram, .err, .mgmt, .out] s t) (execLb st rd rs1 imm s) := by
  unfold execLb
  repeat' first
    | with_reducible apply Moves.refl
    | with_reducible refine ResAll.imp (fun _ h => Moves.thenOp h (Within.mk rfl) ?_) (State.loadS_writes ..)

theorem execLbu_writes (st : StrandRef) (rd : Fin 32) (rs1 : Fin 32) (imm : BitVec 16) (s : State) :
    ResAll (fun t => Moves [.freeCount, .objs, .flash, .routes, .sched, .scn, .cairn, .summit, .content, .depot, .strands, .cache, .coh, .link, .hostMem, .host, .dram, .err, .mgmt, .out] s t) (execLbu st rd rs1 imm s) := by
  unfold execLbu
  repeat' first
    | with_reducible apply Moves.refl
    | with_reducible refine ResAll.imp (fun _ h => Moves.thenOp h (Within.mk rfl) ?_) (State.loadU_writes ..)

theorem execLh_writes (st : StrandRef) (rd : Fin 32) (rs1 : Fin 32) (imm : BitVec 16) (s : State) :
    ResAll (fun t => Moves [.freeCount, .objs, .flash, .routes, .sched, .scn, .cairn, .summit, .content, .depot, .strands, .cache, .coh, .link, .hostMem, .host, .dram, .err, .mgmt, .out] s t) (execLh st rd rs1 imm s) := by
  unfold execLh
  repeat' first
    | with_reducible apply Moves.refl
    | with_reducible refine ResAll.imp (fun _ h => Moves.thenOp h (Within.mk rfl) ?_) (State.loadS_writes ..)

theorem execLhu_writes (st : StrandRef) (rd : Fin 32) (rs1 : Fin 32) (imm : BitVec 16) (s : State) :
    ResAll (fun t => Moves [.freeCount, .objs, .flash, .routes, .sched, .scn, .cairn, .summit, .content, .depot, .strands, .cache, .coh, .link, .hostMem, .host, .dram, .err, .mgmt, .out] s t) (execLhu st rd rs1 imm s) := by
  unfold execLhu
  repeat' first
    | with_reducible apply Moves.refl
    | with_reducible refine ResAll.imp (fun _ h => Moves.thenOp h (Within.mk rfl) ?_) (State.loadU_writes ..)

theorem execLw_writes (st : StrandRef) (rd : Fin 32) (rs1 : Fin 32) (imm : BitVec 16) (s : State) :
    ResAll (fun t => Moves [.freeCount, .objs, .flash, .routes, .sched, .scn, .cairn, .summit, .content, .depot, .strands, .cache, .coh, .link, .hostMem, .host, .dram, .err, .mgmt, .out] s t) (execLw st rd rs1 imm s) := by
  unfold execLw
  repeat' first
    | with_reducible apply Moves.refl
    | with_reducible refine ResAll.imp (fun _ h => Moves.thenOp h (Within.mk rfl) ?_) (State.loadS_writes ..)

theorem execLwu_writes (st : StrandRef) (rd : Fin 32) (rs1 : Fin 32) (imm : BitVec 16) (s : State) :
    ResAll (fun t => Moves [.freeCount, .objs, .flash, .routes, .sched, .scn, .cairn, .summit, .content, .depot, .strands, .cache, .coh, .link, .hostMem, .host, .dram, .err, .mgmt, .out] s t) (execLwu st rd rs1 imm s) := by
  unfold execLwu
  repeat' first
    | with_reducible apply Moves.refl
    | with_reducible refine ResAll.imp (fun _ h => Moves.thenOp h (Within.mk rfl) ?_) (State.loadU_writes ..)

theorem execLd_writes (st : StrandRef) (rd : Fin 32) (rs1 : Fin 32) (imm : BitVec 16) (s : State) :
    ResAll (fun t => Moves [.freeCount, .objs, .flash, .routes, .sched, .scn, .cairn, .summit, .content, .depot, .strands, .cache, .coh, .link, .hostMem, .host, .dram, .err, .mgmt, .out] s t) (execLd st rd rs1 imm s) := by
  unfold execLd
  repeat' first
    | with_reducible apply Moves.refl
    | with_reducible refine ResAll.imp (fun _ h => Moves.thenOp h (Within.mk rfl) ?_) (State.loadU_writes ..)

theorem execLdpc_writes (st : StrandRef) (rd : Fin 32) (imm : BitVec 16) (s : State) :
    ResAll (fun t => Moves [.freeCount, .objs, .flash, .routes, .sched, .scn, .cairn, .summit, .content, .depot, .strands, .cache, .coh, .link, .hostMem, .host, .dram, .err, .mgmt, .out] s t) (execLdpc st rd imm s) := by
  unfold execLdpc
  repeat' first
    | with_reducible apply Moves.refl
    | with_reducible refine ResAll.imp (fun _ h => Moves.thenOp h (Within.mk rfl) ?_) (State.loadOp_writes ..)

theorem execFlw_writes (st : StrandRef) (rd : Fin 32) (rs1 : Fin 32) (imm : BitVec 16) (s : State) :
    ResAll (fun t => Moves [.freeCount, .objs, .flash, .routes, .sched, .scn, .cairn, .summit, .content, .depot, .strands, .cache, .coh, .link, .hostMem, .host, .dram, .err, .mgmt, .out] s t) (execFlw st rd rs1 imm s) := by
  unfold execFlw
  repeat' first
    | with_reducible apply Moves.refl
    | with_reducible refine ResAll.imp (fun _ h => Moves.thenOp h (Within.mk rfl) ?_) (State.loadOp_writes ..)

theorem execFld_writes (st : StrandRef) (rd : Fin 32) (rs1 : Fin 32) (imm : BitVec 16) (s : State) :
    ResAll (fun t => Moves [.freeCount, .objs, .flash, .routes, .sched, .scn, .cairn, .summit, .content, .depot, .strands, .cache, .coh, .link, .hostMem, .host, .dram, .err, .mgmt, .out] s t) (execFld st rd rs1 imm s) := by
  unfold execFld
  repeat' first
    | with_reducible apply Moves.refl
    | with_reducible refine ResAll.imp (fun _ h => Moves.thenOp h (Within.mk rfl) ?_) (State.loadOp_writes ..)

theorem State.storeOp_writes (s : State) (st : StrandRef) (n : Nat) (rs1 : Fin 32) (imm : BitVec 16) (val : StrandSt → Nat) :
    ResAll (fun t => Moves [.freeCount, .objs, .flash, .routes, .sched, .scn, .cairn, .summit, .content, .depot, .strands, .cache, .coh, .link, .hostMem, .host, .dram, .err, .mgmt, .out] s t) (State.storeOp s st n rs1 imm val) := by
  unfold State.storeOp
  repeat' first
    | with_reducible apply Moves.refl
    | assumption
    | ((with_reducible apply Within.mk); exact rfl)
    | with_reducible apply SEff.All.okIn
    | with_reducible apply SEff.All.trapIn
    | with_reducible apply SEff.All.waitIn
    | with_reducible apply SEff.All.fullIn
    | with_reducible apply Moves.thenOp (State.freeEvent_writes ..)
    | with_reducible refine State.strandRun_writes (Within.mk rfl) (fun _ _ _ => ?_)
    | with_reducible apply Moves.thenOp (State.dtlbUse_writes ..)
    | with_reducible apply ResAll.next'
    | with_reducible apply ResAll.ite
    | with_reducible apply Moves.ite
    | (with_reducible apply upd_parts <;> first | exact .inl rfl | exact .inr rfl)
    | simp only [Moves.mk_eq]
    | with_reducible refine MovesMk.upd rfl (.inl rfl) (.inl rfl) ?_ ?_
    | (with_reducible apply Moves.foldl; intro _ _)
    | dsimp only
    | split
    | with_reducible refine Moves.thenOp (LRes.All.okGet (State.storeCheck_writes ..) (by assumption)) (Within.mk rfl) ?_
    | with_reducible refine Moves.thenOp (LRes.All.waitGet (State.storeCheck_writes ..) (by assumption)) (Within.mk rfl) ?_
    | with_reducible refine Moves.thenOp (LRes.All.fullGet (State.storeCheck_writes ..) (by assumption)) (Within.mk rfl) ?_
    | with_reducible refine Moves.thenOp (Moves.of_snd (State.dtlbUse_writes ..) (by assumption)) (Within.mk rfl) ?_
    | with_reducible refine SEff.All.imp (fun _ h => Moves.thenOp h (Within.mk rfl) ?_) (State.enqueue_writes ..)
    | with_reducible refine Moves.thenOp (SEff.All.okGet (State.enqueue_writes ..) (by assumption)) (Within.mk rfl) ?_
    | with_reducible refine Moves.thenOp (SEff.All.waitGet (State.enqueue_writes ..) (by assumption)) (Within.mk rfl) ?_
    | with_reducible refine Moves.thenOp (SEff.All.fullGet (State.enqueue_writes ..) (by assumption)) (Within.mk rfl) ?_

theorem execSb_writes (st : StrandRef) (rs1 : Fin 32) (rs2 : Fin 32) (imm : BitVec 16) (s : State) :
    ResAll (fun t => Moves [.freeCount, .objs, .flash, .routes, .sched, .scn, .cairn, .summit, .content, .depot, .strands, .cache, .coh, .link, .hostMem, .host, .dram, .err, .mgmt, .out] s t) (execSb st rs1 rs2 imm s) := by
  unfold execSb
  repeat' first
    | with_reducible apply Moves.refl
    | with_reducible refine ResAll.imp (fun _ h => Moves.thenOp h (Within.mk rfl) ?_) (State.storeOp_writes ..)

theorem execSh_writes (st : StrandRef) (rs1 : Fin 32) (rs2 : Fin 32) (imm : BitVec 16) (s : State) :
    ResAll (fun t => Moves [.freeCount, .objs, .flash, .routes, .sched, .scn, .cairn, .summit, .content, .depot, .strands, .cache, .coh, .link, .hostMem, .host, .dram, .err, .mgmt, .out] s t) (execSh st rs1 rs2 imm s) := by
  unfold execSh
  repeat' first
    | with_reducible apply Moves.refl
    | with_reducible refine ResAll.imp (fun _ h => Moves.thenOp h (Within.mk rfl) ?_) (State.storeOp_writes ..)

theorem execSw_writes (st : StrandRef) (rs1 : Fin 32) (rs2 : Fin 32) (imm : BitVec 16) (s : State) :
    ResAll (fun t => Moves [.freeCount, .objs, .flash, .routes, .sched, .scn, .cairn, .summit, .content, .depot, .strands, .cache, .coh, .link, .hostMem, .host, .dram, .err, .mgmt, .out] s t) (execSw st rs1 rs2 imm s) := by
  unfold execSw
  repeat' first
    | with_reducible apply Moves.refl
    | with_reducible refine ResAll.imp (fun _ h => Moves.thenOp h (Within.mk rfl) ?_) (State.storeOp_writes ..)

theorem execSd_writes (st : StrandRef) (rs1 : Fin 32) (rs2 : Fin 32) (imm : BitVec 16) (s : State) :
    ResAll (fun t => Moves [.freeCount, .objs, .flash, .routes, .sched, .scn, .cairn, .summit, .content, .depot, .strands, .cache, .coh, .link, .hostMem, .host, .dram, .err, .mgmt, .out] s t) (execSd st rs1 rs2 imm s) := by
  unfold execSd
  repeat' first
    | with_reducible apply Moves.refl
    | with_reducible refine ResAll.imp (fun _ h => Moves.thenOp h (Within.mk rfl) ?_) (State.storeOp_writes ..)

theorem execFsw_writes (st : StrandRef) (rs1 : Fin 32) (rs2 : Fin 32) (imm : BitVec 16) (s : State) :
    ResAll (fun t => Moves [.freeCount, .objs, .flash, .routes, .sched, .scn, .cairn, .summit, .content, .depot, .strands, .cache, .coh, .link, .hostMem, .host, .dram, .err, .mgmt, .out] s t) (execFsw st rs1 rs2 imm s) := by
  unfold execFsw
  repeat' first
    | with_reducible apply Moves.refl
    | with_reducible refine ResAll.imp (fun _ h => Moves.thenOp h (Within.mk rfl) ?_) (State.storeOp_writes ..)

theorem execFsd_writes (st : StrandRef) (rs1 : Fin 32) (rs2 : Fin 32) (imm : BitVec 16) (s : State) :
    ResAll (fun t => Moves [.freeCount, .objs, .flash, .routes, .sched, .scn, .cairn, .summit, .content, .depot, .strands, .cache, .coh, .link, .hostMem, .host, .dram, .err, .mgmt, .out] s t) (execFsd st rs1 rs2 imm s) := by
  unfold execFsd
  repeat' first
    | with_reducible apply Moves.refl
    | with_reducible refine ResAll.imp (fun _ h => Moves.thenOp h (Within.mk rfl) ?_) (State.storeOp_writes ..)

theorem execFence_writes (st : StrandRef) (s : State) :
    ResAll (fun t => Moves [.freeCount, .objs, .flash, .routes, .sched, .scn, .cairn, .summit, .content, .depot, .strands, .cache, .coh, .link, .hostMem, .host, .dram, .err, .mgmt, .out] s t) (execFence st s) := by
  unfold execFence
  repeat' first
    | with_reducible apply Moves.refl
    | with_reducible refine ResAll.imp (fun _ h => Moves.thenOp h (Within.mk rfl) ?_) (State.regOp_writes ..)

theorem execStoreRefused_writes (st : StrandRef) (s : State) :
    ResAll (fun t => Moves [.objs, .routes, .sched, .scn, .strands, .cache, .coh, .link, .err, .mgmt, .out] s t) (execStoreRefused st s) := by
  unfold execStoreRefused
  repeat' first
    | with_reducible apply Moves.refl
    | assumption
    | ((with_reducible apply Within.mk); exact rfl)
    | with_reducible apply Moves.thenOp (State.endRunning_writes ..)
    | with_reducible apply Moves.thenOp (State.routeFault_writes ..)
    | with_reducible apply Moves.thenOp (State.setStrand_writes ..)
    | with_reducible apply Moves.thenOp (State.stopOnRidge_writes ..)
    | with_reducible apply Moves.thenOp (State.stopStrand_writes ..)
    | with_reducible apply Moves.thenOp (State.flushHeld_writes ..)
    | with_reducible apply ResAll.next'
    | with_reducible apply ResAll.ite
    | with_reducible apply Moves.ite
    | (with_reducible apply upd_parts <;> first | exact .inl rfl | exact .inr rfl)
    | simp only [Moves.mk_eq]
    | with_reducible refine MovesMk.upd rfl (.inl rfl) (.inl rfl) ?_ ?_
    | (with_reducible apply Moves.foldl; intro _ _)
    | dsimp only
    | split

theorem State.wrongFetch_writes (s : State) (st : StrandRef) (d : Stage) (t : StrandSt) (pc : Word) :
    Moves [.freeCount, .cache, .coh, .link, .out] s ((State.wrongFetch s st d t pc).2) := by
  unfold State.wrongFetch
  repeat' first
    | with_reducible apply Moves.refl
    | assumption
    | ((with_reducible apply Within.mk); exact rfl)
    | with_reducible apply Moves.thenOp (State.fillL1_writes ..)
    | with_reducible apply Moves.thenOp (State.itlbUse_writes ..)
    | with_reducible apply Moves.thenOp (State.request_writes ..)
    | with_reducible apply Moves.ite_snd
    | (with_reducible apply Moves.foldl_snd; intro _ _)
    | with_reducible apply Moves.ite
    | (with_reducible apply upd_parts <;> first | exact .inl rfl | exact .inr rfl)
    | simp only [Moves.mk_eq]
    | with_reducible refine MovesMk.upd rfl (.inl rfl) (.inl rfl) ?_ ?_
    | (with_reducible apply Moves.foldl; intro _ _)
    | dsimp only
    | split
    | with_reducible refine Moves.thenOp (Moves.of_snd (State.itlbUse_writes ..) (by assumption)) (Within.mk rfl) ?_
    | with_reducible refine Moves.thenOp (Moves.of_snd (State.request_writes ..) (by assumption)) (Within.mk rfl) ?_

theorem State.wrongPath_writes (s : State) (st : StrandRef) (k : StrandTask) (t : StrandSt) (start : Word) (fallThrough : Bool) :
    Moves [.freeCount, .cache, .coh, .link, .out] s (State.wrongPath s st k t start fallThrough).2 := by
  unfold State.wrongPath
  split
  · exact Moves.refl ..
  · dsimp only
    with_reducible apply Moves.foldl_snd
    · intro _ _
      exact State.wrongFetch_writes ..
    · exact Moves.thenOp (State.free_writes _ 1) (Within.mk rfl) ((State.free_writes _ 8).mono (Within.mk rfl))

theorem State.branch_writes (s : State) (st : StrandRef) (rs1 : Fin 32) (rs2 : Fin 32) (imm : BitVec 16) (c : Word → Word → Bool) :
    ResAll (fun t => Moves [.freeCount, .objs, .flash, .routes, .sched, .scn, .cairn, .summit, .content, .depot, .strands, .cache, .coh, .link, .hostMem, .host, .dram, .err, .mgmt, .out] s t) (State.branch s st rs1 rs2 imm c) := by
  unfold State.branch
  repeat' first
    | with_reducible apply Moves.refl
    | assumption
    | ((with_reducible apply Within.mk); exact rfl)
    | with_reducible apply SEff.All.okIn
    | with_reducible apply SEff.All.ite
    | with_reducible refine State.strandRun_writes (Within.mk rfl) (fun _ _ _ => ?_)
    | with_reducible apply Moves.thenOp (State.wrongPath_writes ..)
    | with_reducible apply ResAll.next'
    | with_reducible apply ResAll.ite
    | with_reducible apply Moves.ite
    | (with_reducible apply upd_parts <;> first | exact .inl rfl | exact .inr rfl)
    | simp only [Moves.mk_eq]
    | with_reducible refine MovesMk.upd rfl (.inl rfl) (.inl rfl) ?_ ?_
    | (with_reducible apply Moves.foldl; intro _ _)
    | dsimp only
    | split

theorem execBeq_writes (st : StrandRef) (rs1 : Fin 32) (rs2 : Fin 32) (imm : BitVec 16) (s : State) :
    ResAll (fun t => Moves [.freeCount, .objs, .flash, .routes, .sched, .scn, .cairn, .summit, .content, .depot, .strands, .cache, .coh, .link, .hostMem, .host, .dram, .err, .mgmt, .out] s t) (execBeq st rs1 rs2 imm s) := by
  unfold execBeq
  repeat' first
    | with_reducible apply Moves.refl
    | with_reducible refine ResAll.imp (fun _ h => Moves.thenOp h (Within.mk rfl) ?_) (State.branch_writes ..)

theorem execBne_writes (st : StrandRef) (rs1 : Fin 32) (rs2 : Fin 32) (imm : BitVec 16) (s : State) :
    ResAll (fun t => Moves [.freeCount, .objs, .flash, .routes, .sched, .scn, .cairn, .summit, .content, .depot, .strands, .cache, .coh, .link, .hostMem, .host, .dram, .err, .mgmt, .out] s t) (execBne st rs1 rs2 imm s) := by
  unfold execBne
  repeat' first
    | with_reducible apply Moves.refl
    | with_reducible refine ResAll.imp (fun _ h => Moves.thenOp h (Within.mk rfl) ?_) (State.branch_writes ..)

theorem execBlt_writes (st : StrandRef) (rs1 : Fin 32) (rs2 : Fin 32) (imm : BitVec 16) (s : State) :
    ResAll (fun t => Moves [.freeCount, .objs, .flash, .routes, .sched, .scn, .cairn, .summit, .content, .depot, .strands, .cache, .coh, .link, .hostMem, .host, .dram, .err, .mgmt, .out] s t) (execBlt st rs1 rs2 imm s) := by
  unfold execBlt
  repeat' first
    | with_reducible apply Moves.refl
    | with_reducible refine ResAll.imp (fun _ h => Moves.thenOp h (Within.mk rfl) ?_) (State.branch_writes ..)

theorem execBge_writes (st : StrandRef) (rs1 : Fin 32) (rs2 : Fin 32) (imm : BitVec 16) (s : State) :
    ResAll (fun t => Moves [.freeCount, .objs, .flash, .routes, .sched, .scn, .cairn, .summit, .content, .depot, .strands, .cache, .coh, .link, .hostMem, .host, .dram, .err, .mgmt, .out] s t) (execBge st rs1 rs2 imm s) := by
  unfold execBge
  repeat' first
    | with_reducible apply Moves.refl
    | with_reducible refine ResAll.imp (fun _ h => Moves.thenOp h (Within.mk rfl) ?_) (State.branch_writes ..)

theorem execBltu_writes (st : StrandRef) (rs1 : Fin 32) (rs2 : Fin 32) (imm : BitVec 16) (s : State) :
    ResAll (fun t => Moves [.freeCount, .objs, .flash, .routes, .sched, .scn, .cairn, .summit, .content, .depot, .strands, .cache, .coh, .link, .hostMem, .host, .dram, .err, .mgmt, .out] s t) (execBltu st rs1 rs2 imm s) := by
  unfold execBltu
  repeat' first
    | with_reducible apply Moves.refl
    | with_reducible refine ResAll.imp (fun _ h => Moves.thenOp h (Within.mk rfl) ?_) (State.branch_writes ..)

theorem execBgeu_writes (st : StrandRef) (rs1 : Fin 32) (rs2 : Fin 32) (imm : BitVec 16) (s : State) :
    ResAll (fun t => Moves [.freeCount, .objs, .flash, .routes, .sched, .scn, .cairn, .summit, .content, .depot, .strands, .cache, .coh, .link, .hostMem, .host, .dram, .err, .mgmt, .out] s t) (execBgeu st rs1 rs2 imm s) := by
  unfold execBgeu
  repeat' first
    | with_reducible apply Moves.refl
    | with_reducible refine ResAll.imp (fun _ h => Moves.thenOp h (Within.mk rfl) ?_) (State.branch_writes ..)

theorem execJal_writes (st : StrandRef) (rd : Fin 32) (imm : BitVec 21) (s : State) :
    ResAll (fun t => Moves [.freeCount, .objs, .flash, .routes, .sched, .scn, .cairn, .summit, .content, .depot, .strands, .cache, .coh, .link, .hostMem, .host, .dram, .err, .mgmt, .out] s t) (execJal st rd imm s) := by
  unfold execJal
  repeat' first
    | with_reducible apply Moves.refl
    | assumption
    | ((with_reducible apply Within.mk); exact rfl)
    | with_reducible refine ResAll.imp (fun _ h => Moves.thenOp h (Within.mk rfl) ?_) (State.regOp_writes ..)
    | with_reducible apply ResAll.next'
    | with_reducible apply ResAll.ite
    | with_reducible apply Moves.ite
    | (with_reducible apply upd_parts <;> first | exact .inl rfl | exact .inr rfl)
    | simp only [Moves.mk_eq]
    | with_reducible refine MovesMk.upd rfl (.inl rfl) (.inl rfl) ?_ ?_
    | (with_reducible apply Moves.foldl; intro _ _)
    | dsimp only
    | split

theorem execJalr_writes (st : StrandRef) (rd : Fin 32) (rs1 : Fin 32) (imm : BitVec 16) (s : State) :
    ResAll (fun t => Moves [.freeCount, .objs, .flash, .routes, .sched, .scn, .cairn, .summit, .content, .depot, .strands, .cache, .coh, .link, .hostMem, .host, .dram, .err, .mgmt, .out] s t) (execJalr st rd rs1 imm s) := by
  unfold execJalr
  repeat' first
    | with_reducible apply Moves.refl
    | assumption
    | ((with_reducible apply Within.mk); exact rfl)
    | with_reducible apply SEff.All.okIn
    | with_reducible apply SEff.All.ite
    | with_reducible refine State.strandRun_writes (Within.mk rfl) (fun _ _ _ => ?_)
    | with_reducible apply Moves.thenOp (State.wrongPath_writes ..)
    | with_reducible apply ResAll.next'
    | with_reducible apply ResAll.ite
    | with_reducible apply Moves.ite
    | (with_reducible apply upd_parts <;> first | exact .inl rfl | exact .inr rfl)
    | simp only [Moves.mk_eq]
    | with_reducible refine MovesMk.upd rfl (.inl rfl) (.inl rfl) ?_ ?_
    | (with_reducible apply Moves.foldl; intro _ _)
    | dsimp only
    | split

theorem execCsrr_writes (st : StrandRef) (rd : Fin 32) (csr : BitVec 12) (s : State) :
    ResAll (fun t => Moves [.freeCount, .objs, .flash, .routes, .sched, .scn, .cairn, .summit, .content, .depot, .strands, .cache, .coh, .link, .hostMem, .host, .dram, .err, .mgmt, .out] s t) (execCsrr st rd csr s) := by
  unfold execCsrr
  repeat' first
    | with_reducible apply Moves.refl
    | with_reducible apply SEff.All.okIn
    | with_reducible apply SEff.All.trapIn
    | with_reducible apply SEff.All.ite
    | with_reducible refine State.strandRun_writes (Within.mk rfl) (fun _ _ _ => ?_)
    | split

theorem execCsrw_writes (st : StrandRef) (rs1 : Fin 32) (csr : BitVec 12) (s : State) :
    ResAll (fun t => Moves [.freeCount, .objs, .flash, .routes, .sched, .scn, .cairn, .summit, .content, .depot, .strands, .cache, .coh, .link, .hostMem, .host, .dram, .err, .mgmt, .out] s t) (execCsrw st rs1 csr s) := by
  unfold execCsrw
  repeat' first
    | with_reducible apply Moves.refl
    | assumption
    | ((with_reducible apply Within.mk); exact rfl)
    | with_reducible apply SEff.All.okIn
    | with_reducible apply SEff.All.trapIn
    | with_reducible refine State.strandRun_writes (Within.mk rfl) (fun _ _ _ => ?_)
    | with_reducible apply ResAll.next'
    | with_reducible apply ResAll.ite
    | with_reducible apply Moves.ite
    | (with_reducible apply upd_parts <;> first | exact .inl rfl | exact .inr rfl)
    | simp only [Moves.mk_eq]
    | with_reducible refine MovesMk.upd rfl (.inl rfl) (.inl rfl) ?_ ?_
    | (with_reducible apply Moves.foldl; intro _ _)
    | dsimp only
    | split

theorem fpEnd_writes (t' : StrandSt) (fl : Nat) (s : State) :
    SEff.All (fun t => Moves [] s t) (fpEnd t' fl s) := by
  unfold fpEnd
  repeat' first
    | with_reducible apply Moves.refl
    | with_reducible apply SEff.All.okIn
    | with_reducible apply SEff.All.ite
    | with_reducible apply SEff.All.trapIn

theorem State.fp2_writes (s : State) (st : StrandRef) (single : Bool) (rd : Fin 32) (rs1 : Fin 32) (rs2 : Fin 32) (f : Fmt → Nat → Nat → Nat → Nat × Nat) :
    ResAll (fun t => Moves [.freeCount, .objs, .flash, .routes, .sched, .scn, .cairn, .summit, .content, .depot, .strands, .cache, .coh, .link, .hostMem, .host, .dram, .err, .mgmt, .out] s t) (State.fp2 s st single rd rs1 rs2 f) := by
  unfold State.fp2
  repeat' first
    | with_reducible apply Moves.refl
    | with_reducible refine SEff.All.imp (fun _ h => Moves.thenOp h (Within.mk rfl) ?_) (fpEnd_writes ..)
    | with_reducible refine State.strandRun_writes (Within.mk rfl) (fun _ _ _ => ?_)

theorem State.fpCmp_writes (s : State) (st : StrandRef) (single : Bool) (rd : Fin 32) (rs1 : Fin 32) (rs2 : Fin 32) (f : Fmt → Nat → Nat → Bool × Nat) :
    ResAll (fun t => Moves [.freeCount, .objs, .flash, .routes, .sched, .scn, .cairn, .summit, .content, .depot, .strands, .cache, .coh, .link, .hostMem, .host, .dram, .err, .mgmt, .out] s t) (State.fpCmp s st single rd rs1 rs2 f) := by
  unfold State.fpCmp
  repeat' first
    | with_reducible apply Moves.refl
    | with_reducible refine SEff.All.imp (fun _ h => Moves.thenOp h (Within.mk rfl) ?_) (fpEnd_writes ..)
    | with_reducible refine State.strandRun_writes (Within.mk rfl) (fun _ _ _ => ?_)

theorem execFadd_writes (st : StrandRef) (single : Bool) (rd : Fin 32) (rs1 : Fin 32) (rs2 : Fin 32) (s : State) :
    ResAll (fun t => Moves [.freeCount, .objs, .flash, .routes, .sched, .scn, .cairn, .summit, .content, .depot, .strands, .cache, .coh, .link, .hostMem, .host, .dram, .err, .mgmt, .out] s t) (execFadd st single rd rs1 rs2 s) := by
  unfold execFadd
  repeat' first
    | with_reducible apply Moves.refl
    | with_reducible refine ResAll.imp (fun _ h => Moves.thenOp h (Within.mk rfl) ?_) (State.fp2_writes ..)

theorem execFsub_writes (st : StrandRef) (single : Bool) (rd : Fin 32) (rs1 : Fin 32) (rs2 : Fin 32) (s : State) :
    ResAll (fun t => Moves [.freeCount, .objs, .flash, .routes, .sched, .scn, .cairn, .summit, .content, .depot, .strands, .cache, .coh, .link, .hostMem, .host, .dram, .err, .mgmt, .out] s t) (execFsub st single rd rs1 rs2 s) := by
  unfold execFsub
  repeat' first
    | with_reducible apply Moves.refl
    | with_reducible refine ResAll.imp (fun _ h => Moves.thenOp h (Within.mk rfl) ?_) (State.fp2_writes ..)

theorem execFmul_writes (st : StrandRef) (single : Bool) (rd : Fin 32) (rs1 : Fin 32) (rs2 : Fin 32) (s : State) :
    ResAll (fun t => Moves [.freeCount, .objs, .flash, .routes, .sched, .scn, .cairn, .summit, .content, .depot, .strands, .cache, .coh, .link, .hostMem, .host, .dram, .err, .mgmt, .out] s t) (execFmul st single rd rs1 rs2 s) := by
  unfold execFmul
  repeat' first
    | with_reducible apply Moves.refl
    | with_reducible refine ResAll.imp (fun _ h => Moves.thenOp h (Within.mk rfl) ?_) (State.fp2_writes ..)

theorem execFdiv_writes (st : StrandRef) (single : Bool) (rd : Fin 32) (rs1 : Fin 32) (rs2 : Fin 32) (s : State) :
    ResAll (fun t => Moves [.freeCount, .objs, .flash, .routes, .sched, .scn, .cairn, .summit, .content, .depot, .strands, .cache, .coh, .link, .hostMem, .host, .dram, .err, .mgmt, .out] s t) (execFdiv st single rd rs1 rs2 s) := by
  unfold execFdiv
  repeat' first
    | with_reducible apply Moves.refl
    | with_reducible refine ResAll.imp (fun _ h => Moves.thenOp h (Within.mk rfl) ?_) (State.fp2_writes ..)

theorem execFsqrt_writes (st : StrandRef) (single : Bool) (rd : Fin 32) (rs1 : Fin 32) (s : State) :
    ResAll (fun t => Moves [.freeCount, .objs, .flash, .routes, .sched, .scn, .cairn, .summit, .content, .depot, .strands, .cache, .coh, .link, .hostMem, .host, .dram, .err, .mgmt, .out] s t) (execFsqrt st single rd rs1 s) := by
  unfold execFsqrt
  repeat' first
    | with_reducible apply Moves.refl
    | with_reducible refine ResAll.imp (fun _ h => Moves.thenOp h (Within.mk rfl) ?_) (State.fp2_writes ..)

theorem execFmin_writes (st : StrandRef) (single : Bool) (rd : Fin 32) (rs1 : Fin 32) (rs2 : Fin 32) (s : State) :
    ResAll (fun t => Moves [.freeCount, .objs, .flash, .routes, .sched, .scn, .cairn, .summit, .content, .depot, .strands, .cache, .coh, .link, .hostMem, .host, .dram, .err, .mgmt, .out] s t) (execFmin st single rd rs1 rs2 s) := by
  unfold execFmin
  repeat' first
    | with_reducible apply Moves.refl
    | with_reducible refine ResAll.imp (fun _ h => Moves.thenOp h (Within.mk rfl) ?_) (State.fp2_writes ..)

theorem execFmax_writes (st : StrandRef) (single : Bool) (rd : Fin 32) (rs1 : Fin 32) (rs2 : Fin 32) (s : State) :
    ResAll (fun t => Moves [.freeCount, .objs, .flash, .routes, .sched, .scn, .cairn, .summit, .content, .depot, .strands, .cache, .coh, .link, .hostMem, .host, .dram, .err, .mgmt, .out] s t) (execFmax st single rd rs1 rs2 s) := by
  unfold execFmax
  repeat' first
    | with_reducible apply Moves.refl
    | with_reducible refine ResAll.imp (fun _ h => Moves.thenOp h (Within.mk rfl) ?_) (State.fp2_writes ..)

theorem execFmadd_writes (st : StrandRef) (single : Bool) (rd : Fin 32) (rs1 : Fin 32) (rs2 : Fin 32) (s : State) :
    ResAll (fun t => Moves [.freeCount, .objs, .flash, .routes, .sched, .scn, .cairn, .summit, .content, .depot, .strands, .cache, .coh, .link, .hostMem, .host, .dram, .err, .mgmt, .out] s t) (execFmadd st single rd rs1 rs2 s) := by
  unfold execFmadd
  repeat' first
    | with_reducible apply Moves.refl
    | with_reducible refine SEff.All.imp (fun _ h => Moves.thenOp h (Within.mk rfl) ?_) (fpEnd_writes ..)
    | with_reducible refine State.strandRun_writes (Within.mk rfl) (fun _ _ _ => ?_)

theorem execFeq_writes (st : StrandRef) (single : Bool) (rd : Fin 32) (rs1 : Fin 32) (rs2 : Fin 32) (s : State) :
    ResAll (fun t => Moves [.freeCount, .objs, .flash, .routes, .sched, .scn, .cairn, .summit, .content, .depot, .strands, .cache, .coh, .link, .hostMem, .host, .dram, .err, .mgmt, .out] s t) (execFeq st single rd rs1 rs2 s) := by
  unfold execFeq
  repeat' first
    | with_reducible apply Moves.refl
    | with_reducible refine ResAll.imp (fun _ h => Moves.thenOp h (Within.mk rfl) ?_) (State.fpCmp_writes ..)

theorem execFlt_writes (st : StrandRef) (single : Bool) (rd : Fin 32) (rs1 : Fin 32) (rs2 : Fin 32) (s : State) :
    ResAll (fun t => Moves [.freeCount, .objs, .flash, .routes, .sched, .scn, .cairn, .summit, .content, .depot, .strands, .cache, .coh, .link, .hostMem, .host, .dram, .err, .mgmt, .out] s t) (execFlt st single rd rs1 rs2 s) := by
  unfold execFlt
  repeat' first
    | with_reducible apply Moves.refl
    | with_reducible refine ResAll.imp (fun _ h => Moves.thenOp h (Within.mk rfl) ?_) (State.fpCmp_writes ..)

theorem execFle_writes (st : StrandRef) (single : Bool) (rd : Fin 32) (rs1 : Fin 32) (rs2 : Fin 32) (s : State) :
    ResAll (fun t => Moves [.freeCount, .objs, .flash, .routes, .sched, .scn, .cairn, .summit, .content, .depot, .strands, .cache, .coh, .link, .hostMem, .host, .dram, .err, .mgmt, .out] s t) (execFle st single rd rs1 rs2 s) := by
  unfold execFle
  repeat' first
    | with_reducible apply Moves.refl
    | with_reducible refine ResAll.imp (fun _ h => Moves.thenOp h (Within.mk rfl) ?_) (State.fpCmp_writes ..)

theorem execFcvtl_writes (st : StrandRef) (single : Bool) (rd : Fin 32) (rs1 : Fin 32) (s : State) :
    ResAll (fun t => Moves [.freeCount, .objs, .flash, .routes, .sched, .scn, .cairn, .summit, .content, .depot, .strands, .cache, .coh, .link, .hostMem, .host, .dram, .err, .mgmt, .out] s t) (execFcvtl st single rd rs1 s) := by
  unfold execFcvtl
  repeat' first
    | with_reducible apply Moves.refl
    | with_reducible refine SEff.All.imp (fun _ h => Moves.thenOp h (Within.mk rfl) ?_) (fpEnd_writes ..)
    | with_reducible refine State.strandRun_writes (Within.mk rfl) (fun _ _ _ => ?_)

theorem execFcvtf_writes (st : StrandRef) (single : Bool) (rd : Fin 32) (rs1 : Fin 32) (s : State) :
    ResAll (fun t => Moves [.freeCount, .objs, .flash, .routes, .sched, .scn, .cairn, .summit, .content, .depot, .strands, .cache, .coh, .link, .hostMem, .host, .dram, .err, .mgmt, .out] s t) (execFcvtf st single rd rs1 s) := by
  unfold execFcvtf
  repeat' first
    | with_reducible apply Moves.refl
    | with_reducible refine SEff.All.imp (fun _ h => Moves.thenOp h (Within.mk rfl) ?_) (fpEnd_writes ..)
    | with_reducible refine State.strandRun_writes (Within.mk rfl) (fun _ _ _ => ?_)

theorem execFmvgf_writes (st : StrandRef) (single : Bool) (rd : Fin 32) (rs1 : Fin 32) (s : State) :
    ResAll (fun t => Moves [.freeCount, .objs, .flash, .routes, .sched, .scn, .cairn, .summit, .content, .depot, .strands, .cache, .coh, .link, .hostMem, .host, .dram, .err, .mgmt, .out] s t) (execFmvgf st single rd rs1 s) := by
  unfold execFmvgf
  repeat' first
    | with_reducible apply Moves.refl
    | with_reducible refine ResAll.imp (fun _ h => Moves.thenOp h (Within.mk rfl) ?_) (State.regOp_writes ..)

theorem execFmvfg_writes (st : StrandRef) (single : Bool) (rd : Fin 32) (rs1 : Fin 32) (s : State) :
    ResAll (fun t => Moves [.freeCount, .objs, .flash, .routes, .sched, .scn, .cairn, .summit, .content, .depot, .strands, .cache, .coh, .link, .hostMem, .host, .dram, .err, .mgmt, .out] s t) (execFmvfg st single rd rs1 s) := by
  unfold execFmvfg
  repeat' first
    | with_reducible apply Moves.refl
    | with_reducible refine ResAll.imp (fun _ h => Moves.thenOp h (Within.mk rfl) ?_) (State.regOp_writes ..)

theorem execBrk_writes (st : StrandRef) (s : State) :
    ResAll (fun t => Moves [.freeCount, .objs, .flash, .routes, .sched, .scn, .cairn, .summit, .content, .depot, .strands, .cache, .coh, .link, .hostMem, .host, .dram, .err, .mgmt, .out] s t) (execBrk st s) := by
  unfold execBrk
  repeat' first
    | with_reducible apply SEff.All.trapIn
    | with_reducible refine State.strandRun_writes (Within.mk rfl) (fun _ _ _ => ?_)

theorem execEret_writes (st : StrandRef) (s : State) :
    ResAll (fun t => Moves [.freeCount, .objs, .flash, .routes, .sched, .scn, .cairn, .summit, .content, .depot, .strands, .cache, .coh, .link, .hostMem, .host, .dram, .err, .mgmt, .out] s t) (execEret st s) := by
  unfold execEret
  repeat' first
    | with_reducible apply Moves.refl
    | assumption
    | ((with_reducible apply Within.mk); exact rfl)
    | with_reducible apply SEff.All.okIn
    | with_reducible apply SEff.All.trapIn
    | with_reducible apply SEff.All.ite
    | with_reducible refine State.strandRun_writes (Within.mk rfl) (fun _ _ _ => ?_)
    | with_reducible apply ResAll.next'
    | with_reducible apply ResAll.ite
    | with_reducible apply Moves.ite
    | (with_reducible apply upd_parts <;> first | exact .inl rfl | exact .inr rfl)
    | simp only [Moves.mk_eq]
    | with_reducible refine MovesMk.upd rfl (.inl rfl) (.inl rfl) ?_ ?_
    | (with_reducible apply Moves.foldl; intro _ _)
    | dsimp only
    | split

theorem execReservedEncoding_writes (st : StrandRef) (word : BitVec 32) (s : State) :
    ResAll (fun t => Moves [.freeCount, .objs, .flash, .routes, .sched, .scn, .cairn, .summit, .content, .depot, .strands, .cache, .coh, .link, .hostMem, .host, .dram, .err, .mgmt, .out] s t) (execReservedEncoding st word s) := by
  unfold execReservedEncoding
  repeat' first
    | with_reducible apply Moves.refl
    | with_reducible apply ResAll.next'
    | with_reducible apply ResAll.ite
    | with_reducible apply SEff.All.trapIn
    | with_reducible refine State.strandRun_writes (Within.mk rfl) (fun _ _ _ => ?_)

theorem execFetchFault_writes (st : StrandRef) (readError : Bool) (s : State) :
    ResAll (fun t => Moves [.freeCount, .objs, .flash, .routes, .sched, .scn, .cairn, .summit, .content, .depot, .strands, .cache, .coh, .link, .hostMem, .host, .dram, .err, .mgmt, .out] s t) (execFetchFault st readError s) := by
  unfold execFetchFault
  repeat' first
    | with_reducible apply Moves.refl
    | with_reducible apply SEff.All.trapIn
    | with_reducible apply SEff.All.waitIn
    | with_reducible apply SEff.All.ite
    | with_reducible refine State.strandRun_writes (Within.mk rfl) (fun _ _ _ => ?_)

theorem State.strandEmits_writes (s : State) (r : Route) (k : StrandTask) (st : StrandRef) (count : Nat) :
    Moves [.objs, .routes, .summit, .content, .depot, .link, .hostMem] s ((State.strandEmits s r k st count).2) := by
  unfold State.strandEmits
  repeat' first
    | with_reducible apply Moves.refl
    | assumption
    | ((with_reducible apply Within.mk); exact rfl)
    | with_reducible apply Moves.thenOp (State.closeOutputRope_writes ..)
    | with_reducible apply Moves.thenOp (State.portTakes_writes ..)
    | with_reducible apply Moves.ite_snd
    | (with_reducible apply Moves.foldl_snd; intro _ _)
    | with_reducible apply Moves.ite
    | (with_reducible apply upd_parts <;> first | exact .inl rfl | exact .inr rfl)
    | simp only [Moves.mk_eq]
    | with_reducible refine MovesMk.upd rfl (.inl rfl) (.inl rfl) ?_ ?_
    | (with_reducible apply Moves.foldl; intro _ _)
    | dsimp only
    | split
    | with_reducible refine Moves.thenOp (Moves.of_snd (State.closeOutputRope_writes ..) (by assumption)) (Within.mk rfl) ?_

theorem execTemit_writes (st : StrandRef) (rd : Fin 32) (rs1 : Fin 32) (s : State) :
    ResAll (fun t => Moves [.freeCount, .objs, .flash, .routes, .sched, .scn, .cairn, .summit, .content, .depot, .strands, .cache, .coh, .link, .hostMem, .host, .dram, .err, .mgmt, .out] s t) (execTemit st rd rs1 s) := by
  unfold execTemit
  repeat' first
    | with_reducible apply Moves.refl
    | assumption
    | ((with_reducible apply Within.mk); exact rfl)
    | with_reducible apply SEff.All.okIn
    | with_reducible apply SEff.All.trapIn
    | with_reducible apply SEff.All.waitIn
    | with_reducible apply SEff.All.fullIn
    | with_reducible apply SEff.All.ite
    | with_reducible apply Moves.thenOp (State.closeOutputRope_writes ..)
    | with_reducible apply Moves.thenOp (State.flushOutputs_writes ..)
    | with_reducible apply Moves.thenOp (State.mapRunning_writes ..)
    | with_reducible apply Moves.thenOp (State.send_writes ..)
    | with_reducible refine State.strandRun_writes (Within.mk rfl) (fun _ _ _ => ?_)
    | with_reducible apply Moves.thenOp (State.askPage_writes ..)
    | with_reducible apply Moves.thenOp (State.strandEmits_writes ..)
    | with_reducible apply Moves.thenOp (State.settleAsk_writes ..)
    | with_reducible apply ResAll.next'
    | with_reducible apply ResAll.ite
    | with_reducible apply Moves.ite
    | (with_reducible apply upd_parts <;> first | exact .inl rfl | exact .inr rfl)
    | simp only [Moves.mk_eq]
    | with_reducible refine MovesMk.upd rfl (.inl rfl) (.inl rfl) ?_ ?_
    | (with_reducible apply Moves.foldl; intro _ _)
    | dsimp only
    | split
    | with_reducible refine Moves.thenOp (TRes.All.okGet (State.newOutput_writes ..) (by assumption)) (Within.mk rfl) ?_
    | with_reducible refine Moves.thenOp (TRes.All.fullGet (State.newOutput_writes ..) (by assumption)) (Within.mk rfl) ?_
    | with_reducible refine Moves.thenOp (TRes.All.badGet (State.newOutput_writes ..) (by assumption)) (Within.mk rfl) ?_
    | with_reducible refine Moves.thenOp (Moves.of_snd (State.strandEmits_writes ..) (by assumption)) (Within.mk rfl) ?_

theorem State.strandEnd_writes (s : State) (st : StrandRef) (t : StrandSt) (k : StrandTask) (ts : List Task) :
    Moves [.freeCount, .objs, .routes, .sched, .content, .depot, .strands, .link, .hostMem, .host] s (State.strandEnd s st t k ts) := by
  unfold State.strandEnd
  repeat' first
    | with_reducible apply Moves.refl
    | assumption
    | ((with_reducible apply Within.mk); exact rfl)
    | with_reducible apply Moves.thenOp (State.finishTask_writes ..)
    | with_reducible apply Moves.thenOp (State.mapRunning_writes ..)
    | with_reducible apply Moves.thenOp (State.oinc_writes ..)
    | with_reducible apply Moves.thenOp (State.releaseObj_writes ..)
    | with_reducible apply Moves.thenOp (State.setStrand_writes ..)
    | with_reducible apply Moves.thenOp (State.stopStrand_writes ..)
    | with_reducible apply Moves.ite
    | (with_reducible apply upd_parts <;> first | exact .inl rfl | exact .inr rfl)
    | simp only [Moves.mk_eq]
    | with_reducible refine MovesMk.upd rfl (.inl rfl) (.inl rfl) ?_ ?_
    | (with_reducible apply Moves.foldl; intro _ _)
    | dsimp only
    | split

theorem execTend_writes (st : StrandRef) (rs1 : Fin 32) (s : State) :
    ResAll (fun t => Moves [.freeCount, .objs, .flash, .routes, .sched, .scn, .cairn, .summit, .content, .depot, .strands, .cache, .coh, .link, .hostMem, .host, .dram, .err, .mgmt, .out] s t) (execTend st rs1 s) := by
  unfold execTend
  repeat' first
    | with_reducible apply Moves.refl
    | assumption
    | ((with_reducible apply Within.mk); exact rfl)
    | with_reducible apply SEff.All.trapIn
    | with_reducible apply SEff.All.waitIn
    | with_reducible apply SEff.All.ite
    | with_reducible apply Moves.thenOp (State.closeOutputRope_writes ..)
    | with_reducible apply Moves.thenOp (State.strandEnd_writes ..)
    | with_reducible refine State.strandRun_writes (Within.mk rfl) (fun _ _ _ => ?_)
    | with_reducible apply Moves.thenOp (State.strandEmits_writes ..)
    | with_reducible apply ResAll.next'
    | with_reducible apply ResAll.ite
    | with_reducible apply Moves.ite
    | (with_reducible apply upd_parts <;> first | exact .inl rfl | exact .inr rfl)
    | simp only [Moves.mk_eq]
    | with_reducible refine MovesMk.upd rfl (.inl rfl) (.inl rfl) ?_ ?_
    | (with_reducible apply Moves.foldl; intro _ _)
    | dsimp only
    | split
    | with_reducible refine Moves.thenOp (Moves.of_snd (State.strandEmits_writes ..) (by assumption)) (Within.mk rfl) ?_

end Sys2Proof.Machine
end

