-- ==== Sys2Proof/Laws/FrameLink.lean ====
section
/-! SUPPORT. What each function may write: pitches, device death, services, links and the host port. -/

set_option Elab.async false
set_option linter.all false
namespace Sys2Proof.Machine
open Sys2Proof

/-! ## Pitch -/

theorem State.cutoffStep_writes (s : State) :
    Moves [.now, .objs, .pitch, .routes, .sched, .summit, .content, .depot, .strands, .cache, .coh, .link, .out] s (State.cutoffStep s) := by
  unfold State.cutoffStep
  repeat' first
    | with_reducible apply Moves.refl
    | assumption
    | ((with_reducible apply Within.mk); exact rfl)
    | with_reducible apply Moves.thenOp (State.advanceTo_writes ..)
    | with_reducible apply Moves.thenOp (State.cutoffClean_writes ..)
    | with_reducible apply Moves.thenOp (State.pumpOutbound_writes ..)
    | with_reducible apply Moves.thenOp (State.sendPartials_writes ..)
    | with_reducible apply Moves.thenOp (State.swapSlots_writes ..)
    | with_reducible apply Moves.ite
    | (with_reducible apply upd_parts <;> first | exact .inl rfl | exact .inr rfl)
    | simp only [Moves.mk_eq]
    | with_reducible refine MovesMk.upd rfl (.inl rfl) (.inl rfl) ?_ ?_
    | (with_reducible apply Moves.foldl; intro _ _)
    | dsimp only
    | split

theorem State.verdict_writes (s : State) (k : RouteKey) (kind : Nat) :
    Moves [.routes, .link, .out] s (State.verdict s k kind) := by
  unfold State.verdict
  repeat' first
    | with_reducible apply Moves.refl
    | assumption
    | ((with_reducible apply Within.mk); exact rfl)
    | with_reducible apply Moves.thenOp (State.mapSpan_writes ..)
    | with_reducible apply Moves.thenOp (State.sendVerdict_writes ..)
    | with_reducible apply Moves.ite
    | (with_reducible apply upd_parts <;> first | exact .inl rfl | exact .inr rfl)
    | simp only [Moves.mk_eq]
    | with_reducible refine MovesMk.upd rfl (.inl rfl) (.inl rfl) ?_ ?_
    | (with_reducible apply Moves.foldl; intro _ _)
    | dsimp only
    | split

theorem State.spoiledReplay_writes (s : State) (k : RouteKey) :
    Moves [.freeCount, .objs, .flash, .routes, .sched, .scn, .cairn, .summit, .content, .depot, .strands, .cache, .coh, .link, .hostMem, .host, .dram, .err, .mgmt, .out] s (State.spoiledReplay s k) := by
  unfold State.spoiledReplay
  repeat' first
    | with_reducible apply Moves.refl
    | assumption
    | ((with_reducible apply Within.mk); exact rfl)
    | with_reducible apply Moves.thenOp (State.faultReplay_writes ..)
    | with_reducible apply Moves.thenOp (State.raise_writes ..)
    | with_reducible apply Moves.ite
    | (with_reducible apply upd_parts <;> first | exact .inl rfl | exact .inr rfl)
    | simp only [Moves.mk_eq]
    | with_reducible refine MovesMk.upd rfl (.inl rfl) (.inl rfl) ?_ ?_
    | (with_reducible apply Moves.foldl; intro _ _)
    | dsimp only
    | split

theorem State.decideSpan_writes (s : State) (k : RouteKey) :
    Moves [.freeCount, .objs, .flash, .routes, .sched, .scn, .cairn, .summit, .content, .depot, .strands, .cache, .coh, .link, .hostMem, .host, .dram, .err, .mgmt, .out] s (State.decideSpan s k) := by
  unfold State.decideSpan
  repeat' first
    | with_reducible apply Moves.refl
    | assumption
    | ((with_reducible apply Within.mk); exact rfl)
    | with_reducible apply Moves.thenOp (State.endAt_writes ..)
    | with_reducible apply Moves.thenOp (State.faultReplay_writes ..)
    | with_reducible apply Moves.thenOp (State.logRoute_writes ..)
    | with_reducible apply Moves.thenOp (State.mapSpan_writes ..)
    | with_reducible apply Moves.thenOp (State.oinc_writes ..)
    | with_reducible apply Moves.thenOp (State.raise_writes ..)
    | with_reducible apply Moves.thenOp (State.updRoute_writes ..)
    | with_reducible apply Moves.thenOp (State.verdict_writes ..)
    | with_reducible apply Moves.thenOp (State.spoiledReplay_writes ..)
    | with_reducible apply Moves.ite
    | (with_reducible apply upd_parts <;> first | exact .inl rfl | exact .inr rfl)
    | simp only [Moves.mk_eq]
    | with_reducible refine MovesMk.upd rfl (.inl rfl) (.inl rfl) ?_ ?_
    | (with_reducible apply Moves.foldl; intro _ _)
    | dsimp only
    | split

theorem State.markDue_writes (s : State) :
    Moves [.depot] s (State.markDue s) := by
  unfold State.markDue
  repeat' first
    | with_reducible apply Moves.refl
    | assumption
    | ((with_reducible apply Within.mk); exact rfl)
    | with_reducible apply Moves.ite
    | (with_reducible apply upd_parts <;> first | exact .inl rfl | exact .inr rfl)
    | simp only [Moves.mk_eq]
    | with_reducible refine MovesMk.upd rfl (.inl rfl) (.inl rfl) ?_ ?_
    | (with_reducible apply Moves.foldl; intro _ _)
    | dsimp only
    | split

theorem State.decisionStep_writes (s : State) :
    Moves [.now, .freeCount, .objs, .flash, .pitch, .routes, .sched, .scn, .cairn, .summit, .content, .depot, .strands, .cache, .coh, .link, .hostMem, .host, .dram, .err, .mgmt, .out] s (State.decisionStep s) := by
  unfold State.decisionStep
  repeat' first
    | with_reducible apply Moves.refl
    | assumption
    | ((with_reducible apply Within.mk); exact rfl)
    | with_reducible apply Moves.thenOp (State.advanceTo_writes ..)
    | with_reducible apply Moves.thenOp (State.cutoffStep_writes ..)
    | with_reducible apply Moves.thenOp (State.decideSpan_writes ..)
    | with_reducible apply Moves.thenOp (State.holdEntries_writes ..)
    | with_reducible apply Moves.thenOp (State.sendBelay_writes ..)
    | with_reducible apply Moves.thenOp (State.ackDone_writes ..)
    | with_reducible apply Moves.thenOp (State.holdPages_writes ..)
    | with_reducible apply Moves.thenOp (State.spoiledReplay_writes ..)
    | with_reducible apply Moves.ite
    | (with_reducible apply upd_parts <;> first | exact .inl rfl | exact .inr rfl)
    | simp only [Moves.mk_eq]
    | with_reducible refine MovesMk.upd rfl (.inl rfl) (.inl rfl) ?_ ?_
    | (with_reducible apply Moves.foldl; intro _ _)
    | dsimp only
    | split

theorem State.powerStep_writes (s : State) (mw : Nat) :
    Moves [.objs, .pitch, .power] s (State.powerStep s mw) := by
  unfold State.powerStep
  repeat' first
    | with_reducible apply Moves.refl
    | ((with_reducible apply Within.mk); exact rfl)
    | with_reducible apply Moves.thenOp (State.oinc_writes ..)
    | with_reducible apply Moves.thenOp (State.oset_writes ..)
    | with_reducible apply Moves.ite
    | (with_reducible apply upd_parts <;> first | exact .inl rfl | exact .inr rfl)
    | simp only [Moves.mk_eq]
    | with_reducible refine MovesMk.upd rfl (.inl rfl) (.inl rfl) ?_ ?_

theorem State.applyVerdict_writes (s : State) (k : RouteKey) :
    Moves [.freeCount, .objs, .flash, .routes, .sched, .scn, .cairn, .summit, .content, .depot, .strands, .cache, .coh, .link, .hostMem, .host, .dram, .err, .mgmt, .out] s (State.applyVerdict s k) := by
  unfold State.applyVerdict
  repeat' first
    | with_reducible apply Moves.refl
    | assumption
    | ((with_reducible apply Within.mk); exact rfl)
    | with_reducible apply Moves.thenOp (State.abandonSpan_writes ..)
    | with_reducible apply Moves.thenOp (State.commitSpan_writes ..)
    | with_reducible apply Moves.thenOp (State.logRoute_writes ..)
    | with_reducible apply Moves.thenOp (State.mapSpan_writes ..)
    | with_reducible apply Moves.ite
    | (with_reducible apply upd_parts <;> first | exact .inl rfl | exact .inr rfl)
    | simp only [Moves.mk_eq]
    | with_reducible refine MovesMk.upd rfl (.inl rfl) (.inl rfl) ?_ ?_
    | (with_reducible apply Moves.foldl; intro _ _)
    | dsimp only
    | split

theorem State.switchPage_writes (s : State) (m : Migration) :
    Moves [.objs, .depot, .cache, .coh, .link, .dram, .out] s (State.switchPage s m) := by
  unfold State.switchPage
  repeat' first
    | with_reducible apply Moves.refl
    | assumption
    | ((with_reducible apply Within.mk); exact rfl)
    | with_reducible apply Moves.thenOp (State.oinc_writes ..)
    | with_reducible apply Moves.thenOp (State.replayInval_writes ..)
    | with_reducible apply Moves.ite
    | (with_reducible apply upd_parts <;> first | exact .inl rfl | exact .inr rfl)
    | simp only [Moves.mk_eq]
    | with_reducible refine MovesMk.upd rfl (.inl rfl) (.inl rfl) ?_ ?_
    | (with_reducible apply Moves.foldl; intro _ _)
    | dsimp only
    | split

theorem State.switchMigrations_writes (s : State) :
    Moves [.objs, .depot, .cache, .coh, .link, .dram, .out] s (State.switchMigrations s) := by
  unfold State.switchMigrations
  repeat' first
    | with_reducible apply Moves.refl
    | assumption
    | ((with_reducible apply Within.mk); exact rfl)
    | with_reducible apply Moves.thenOp (State.switchPage_writes ..)
    | with_reducible apply Moves.ite
    | (with_reducible apply upd_parts <;> first | exact .inl rfl | exact .inr rfl)
    | simp only [Moves.mk_eq]
    | with_reducible refine MovesMk.upd rfl (.inl rfl) (.inl rfl) ?_ ?_
    | (with_reducible apply Moves.foldl; intro _ _)
    | dsimp only
    | split

theorem State.applyAsked_writes (s : State) :
    Moves [.sched, .host, .dram] s (State.applyAsked s) := by
  unfold State.applyAsked
  repeat' first
    | with_reducible apply Moves.refl
    | assumption
    | ((with_reducible apply Within.mk); exact rfl)
    | with_reducible apply Moves.ite
    | (with_reducible apply upd_parts <;> first | exact .inl rfl | exact .inr rfl)
    | simp only [Moves.mk_eq]
    | with_reducible refine MovesMk.upd rfl (.inl rfl) (.inl rfl) ?_ ?_
    | (with_reducible apply Moves.foldl; intro _ _)
    | dsimp only
    | split

theorem State.sendMarker_writes (s : State) :
    Moves [.link, .out] s (State.sendMarker s) := by
  unfold State.sendMarker
  repeat' first
    | with_reducible apply Moves.refl
    | assumption
    | ((with_reducible apply Within.mk); exact rfl)
    | with_reducible apply Moves.thenOp (State.broadcast_writes ..)
    | with_reducible apply Moves.ite
    | (with_reducible apply upd_parts <;> first | exact .inl rfl | exact .inr rfl)
    | simp only [Moves.mk_eq]
    | with_reducible refine MovesMk.upd rfl (.inl rfl) (.inl rfl) ?_ ?_
    | (with_reducible apply Moves.foldl; intro _ _)
    | dsimp only
    | split

theorem State.driveTickOut_writes (s : State) :
    Moves [.sys, .out] s (State.driveTickOut s) := by
  unfold State.driveTickOut
  repeat' first
    | with_reducible apply Moves.refl
    | assumption
    | ((with_reducible apply Within.mk); exact rfl)
    | with_reducible apply Moves.thenOp (State.emit_writes ..)
    | with_reducible apply Moves.ite
    | (with_reducible apply upd_parts <;> first | exact .inl rfl | exact .inr rfl)
    | simp only [Moves.mk_eq]
    | with_reducible refine MovesMk.upd rfl (.inl rfl) (.inl rfl) ?_ ?_
    | (with_reducible apply Moves.foldl; intro _ _)
    | dsimp only
    | split

theorem State.handMaster_writes (s : State) :
    Moves [.objs, .pitch] s (State.handMaster s) := by
  unfold State.handMaster
  repeat' first
    | with_reducible apply Moves.refl
    | assumption
    | ((with_reducible apply Within.mk); exact rfl)
    | with_reducible apply Moves.thenOp (State.oset_writes ..)
    | with_reducible apply Moves.ite
    | (with_reducible apply upd_parts <;> first | exact .inl rfl | exact .inr rfl)
    | simp only [Moves.mk_eq]
    | with_reducible refine MovesMk.upd rfl (.inl rfl) (.inl rfl) ?_ ?_
    | (with_reducible apply Moves.foldl; intro _ _)
    | dsimp only
    | split

theorem State.nextPitch_writes (s : State) (instant : Nat) :
    Moves [.freeCount, .objs, .pitch, .routes, .summit, .cache, .coh, .link, .hostMem, .host, .out] s (State.nextPitch s instant) := by
  unfold State.nextPitch
  repeat' first
    | with_reducible apply Moves.refl
    | assumption
    | ((with_reducible apply Within.mk); exact rfl)
    | with_reducible apply Moves.thenOp (State.oset_writes ..)
    | with_reducible apply Moves.thenOp (State.handMaster_writes ..)
    | with_reducible apply Moves.thenOp (State.flushHeld_writes ..)
    | with_reducible apply Moves.thenOp (State.writeLogs_writes ..)
    | with_reducible apply Moves.ite
    | (with_reducible apply upd_parts <;> first | exact .inl rfl | exact .inr rfl)
    | simp only [Moves.mk_eq]
    | with_reducible refine MovesMk.upd rfl (.inl rfl) (.inl rfl) ?_ ?_
    | (with_reducible apply Moves.foldl; intro _ _)
    | dsimp only
    | split

theorem State.tickCore_writes (s : State) (instant : Nat) (mw : Nat) :
    Moves [.now, .freeCount, .objs, .mem, .sys, .flash, .pitch, .routes, .sched, .scn, .cairn, .summit, .content, .depot, .strands, .cache, .coh, .link, .hostMem, .host, .dram, .err, .mgmt, .power, .out] s (State.tickCore s instant mw) := by
  unfold State.tickCore
  repeat' first
    | with_reducible apply Moves.refl
    | assumption
    | ((with_reducible apply Within.mk); exact rfl)
    | with_reducible apply Moves.thenOp (State.advanceTo_writes ..)
    | with_reducible apply Moves.thenOp (State.applyAsked_writes ..)
    | with_reducible apply Moves.thenOp (State.applyVerdict_writes ..)
    | with_reducible apply Moves.thenOp (State.cacheBelay_writes ..)
    | with_reducible apply Moves.thenOp (State.chooseMigrations_writes ..)
    | with_reducible apply Moves.thenOp (State.decisionStep_writes ..)
    | with_reducible apply Moves.thenOp (State.driveTickOut_writes ..)
    | with_reducible apply Moves.thenOp (State.endAtTick_writes ..)
    | with_reducible apply Moves.thenOp (State.nextPitch_writes ..)
    | with_reducible apply Moves.thenOp (State.openSpan_writes ..)
    | with_reducible apply Moves.thenOp (State.oset_writes ..)
    | with_reducible apply Moves.thenOp (State.powerStep_writes ..)
    | with_reducible apply Moves.thenOp (State.pumpOutbound_writes ..)
    | with_reducible apply Moves.thenOp (State.resumeRoutes_writes ..)
    | with_reducible apply Moves.thenOp (State.retireAskedRidges_writes ..)
    | with_reducible apply Moves.thenOp (State.sendMarker_writes ..)
    | with_reducible apply Moves.thenOp (State.startPublication_writes ..)
    | with_reducible apply Moves.thenOp (State.switchMigrations_writes ..)
    | with_reducible apply Moves.thenOp (State.tenantResets_writes ..)
    | with_reducible apply Moves.thenOp (State.markDue_writes ..)
    | with_reducible apply Moves.thenOp (State.returnQuotas_writes ..)
    | with_reducible apply Moves.ite
    | (with_reducible apply upd_parts <;> first | exact .inl rfl | exact .inr rfl)
    | simp only [Moves.mk_eq]
    | with_reducible refine MovesMk.upd rfl (.inl rfl) (.inl rfl) ?_ ?_
    | (with_reducible apply Moves.foldl; intro _ _)
    | dsimp only
    | split

theorem execTick_writes (mw : Nat) (s : State) :
    ResAll (fun t => Moves [.now, .freeCount, .objs, .mem, .sys, .flash, .pitch, .routes, .sched, .scn, .cairn, .summit, .content, .depot, .strands, .cache, .coh, .link, .hostMem, .host, .dram, .err, .mgmt, .power, .out] s t) (execTick mw s) := by
  unfold execTick
  repeat' first
    | with_reducible apply Moves.refl
    | ((with_reducible apply Within.mk); exact rfl)
    | with_reducible apply Moves.thenOp (State.tickCore_writes ..)
    | with_reducible apply ResAll.next'
    | with_reducible apply ResAll.ite

theorem execCutoff_writes (s : State) :
    ResAll (fun t => Moves [.now, .objs, .pitch, .routes, .sched, .summit, .content, .depot, .strands, .cache, .coh, .link, .out] s t) (execCutoff s) := by
  unfold execCutoff
  repeat' first
    | with_reducible apply Moves.refl
    | ((with_reducible apply Within.mk); exact rfl)
    | with_reducible apply Moves.thenOp (State.cutoffStep_writes ..)
    | with_reducible apply ResAll.next'

theorem execDecision_writes (s : State) :
    ResAll (fun t => Moves [.now, .freeCount, .objs, .flash, .pitch, .routes, .sched, .scn, .cairn, .summit, .content, .depot, .strands, .cache, .coh, .link, .hostMem, .host, .dram, .err, .mgmt, .out] s t) (execDecision s) := by
  unfold execDecision
  repeat' first
    | with_reducible apply Moves.refl
    | ((with_reducible apply Within.mk); exact rfl)
    | with_reducible apply Moves.thenOp (State.decisionStep_writes ..)
    | with_reducible apply ResAll.next'

theorem State.tickInEdge_writes (s : State) :
    Moves [.now, .freeCount, .objs, .mem, .sys, .flash, .pitch, .routes, .sched, .scn, .cairn, .summit, .content, .depot, .strands, .cache, .coh, .link, .hostMem, .host, .dram, .err, .mgmt, .power, .out] s (State.tickInEdge s) := by
  unfold State.tickInEdge
  repeat' first
    | with_reducible apply Moves.refl
    | assumption
    | ((with_reducible apply Within.mk); exact rfl)
    | with_reducible apply Moves.thenOp (State.oinc_writes ..)
    | with_reducible apply Moves.thenOp (State.tickCore_writes ..)
    | with_reducible apply Moves.ite
    | (with_reducible apply upd_parts <;> first | exact .inl rfl | exact .inr rfl)
    | simp only [Moves.mk_eq]
    | with_reducible refine MovesMk.upd rfl (.inl rfl) (.inl rfl) ?_ ?_
    | (with_reducible apply Moves.foldl; intro _ _)
    | dsimp only
    | split

theorem execTickInEdge_writes (s : State) :
    ResAll (fun t => Moves [.now, .freeCount, .objs, .mem, .sys, .flash, .pitch, .routes, .sched, .scn, .cairn, .summit, .content, .depot, .strands, .cache, .coh, .link, .hostMem, .host, .dram, .err, .mgmt, .power, .out] s t) (execTickInEdge s) := by
  unfold execTickInEdge
  repeat' first
    | with_reducible apply Moves.refl
    | ((with_reducible apply Within.mk); exact rfl)
    | with_reducible apply Moves.thenOp (State.tickInEdge_writes ..)
    | with_reducible apply ResAll.next'

theorem State.tickInMiss_writes (s : State) :
    Moves [.now, .freeCount, .objs, .mem, .sys, .flash, .pitch, .routes, .sched, .scn, .cairn, .summit, .content, .depot, .strands, .cache, .coh, .link, .hostMem, .host, .dram, .err, .mgmt, .power, .out] s (State.tickInMiss s) := by
  unfold State.tickInMiss
  repeat' first
    | with_reducible apply Moves.refl
    | ((with_reducible apply Within.mk); exact rfl)
    | with_reducible apply Moves.thenOp (State.oinc_writes ..)
    | with_reducible apply Moves.thenOp (State.raise_writes ..)
    | with_reducible apply Moves.thenOp (State.tickCore_writes ..)
    | with_reducible apply Moves.ite
    | (with_reducible apply upd_parts <;> first | exact .inl rfl | exact .inr rfl)
    | simp only [Moves.mk_eq]
    | with_reducible refine MovesMk.upd rfl (.inl rfl) (.inl rfl) ?_ ?_

theorem execTickInMiss_writes (s : State) :
    ResAll (fun t => Moves [.now, .freeCount, .objs, .mem, .sys, .flash, .pitch, .routes, .sched, .scn, .cairn, .summit, .content, .depot, .strands, .cache, .coh, .link, .hostMem, .host, .dram, .err, .mgmt, .power, .out] s t) (execTickInMiss s) := by
  unfold execTickInMiss
  repeat' first
    | with_reducible apply Moves.refl
    | ((with_reducible apply Within.mk); exact rfl)
    | with_reducible apply Moves.thenOp (State.tickInMiss_writes ..)
    | with_reducible apply ResAll.next'

theorem State.noteBcast_writes (s : State) (op : Nat) (origin : Nat) (count : Nat) :
    OptAll (fun (a : State) => Moves [.link] s a) (State.noteBcast s op origin count) := by
  unfold State.noteBcast
  repeat' first
    | with_reducible apply Moves.refl
    | with_reducible apply OptAll.some'
    | with_reducible apply OptAll.none'
    | with_reducible apply OptAll.ite
    | (with_reducible apply upd_parts <;> first | exact .inl rfl | exact .inr rfl)
    | simp only [Moves.mk_eq]
    | with_reducible refine MovesMk.upd rfl (.inl rfl) (.inl rfl) ?_ ?_

theorem State.checkMarker_writes (s : State) (latency : Nat) (elapsed : Nat) (pitch : Nat) :
    Moves [.objs, .pitch, .err, .mgmt, .out] s (State.checkMarker s latency elapsed pitch) := by
  unfold State.checkMarker
  repeat' first
    | with_reducible apply Moves.refl
    | ((with_reducible apply Within.mk); exact rfl)
    | with_reducible apply Moves.thenOp (State.oput_writes ..)
    | with_reducible apply Moves.thenOp (State.raise_writes ..)
    | with_reducible apply Moves.ite
    | (with_reducible apply upd_parts <;> first | exact .inl rfl | exact .inr rfl)
    | simp only [Moves.mk_eq]
    | with_reducible refine MovesMk.upd rfl (.inl rfl) (.inl rfl) ?_ ?_

theorem State.takeMarker_writes (s : State) (port : Nat) (master : Nat) (source : Nat) (elapsed : Nat) (pitch : Nat) :
    Moves [.objs, .pitch, .link, .err, .mgmt, .out] s (State.takeMarker s port master source elapsed pitch) := by
  unfold State.takeMarker
  repeat' first
    | with_reducible apply Moves.refl
    | assumption
    | ((with_reducible apply Within.mk); exact rfl)
    | with_reducible apply Moves.thenOp (State.checkMarker_writes ..)
    | with_reducible apply Moves.thenOp (State.forwardBcast_writes ..)
    | with_reducible apply Moves.thenOp (State.violation_writes ..)
    | with_reducible apply Moves.ite
    | (with_reducible apply upd_parts <;> first | exact .inl rfl | exact .inr rfl)
    | simp only [Moves.mk_eq]
    | with_reducible refine MovesMk.upd rfl (.inl rfl) (.inl rfl) ?_ ?_
    | (with_reducible apply Moves.foldl; intro _ _)
    | dsimp only
    | split
    | with_reducible refine Moves.thenOp (OptAll.st (State.noteBcast_writes ..) (by assumption)) (Within.mk rfl) ?_

theorem execTickMarker_writes (port : Nat) (master : Nat) (source : Nat) (elapsed : Nat) (pitch : Nat) (s : State) :
    ResAll (fun t => Moves [.objs, .pitch, .link, .err, .mgmt, .out] s t) (execTickMarker port master source elapsed pitch s) := by
  unfold execTickMarker
  repeat' first
    | with_reducible apply Moves.refl
    | ((with_reducible apply Within.mk); exact rfl)
    | with_reducible apply Moves.thenOp (State.takeMarker_writes ..)
    | with_reducible apply ResAll.next'

theorem State.takeAck_writes (s : State) (r : Route) (sp : Span) (a : BelayAck) :
    Moves [.freeCount, .objs, .flash, .routes, .sched, .scn, .cairn, .summit, .content, .depot, .strands, .cache, .coh, .link, .hostMem, .host, .dram, .err, .mgmt, .out] s (State.takeAck s r sp a) := by
  unfold State.takeAck
  repeat' first
    | with_reducible apply Moves.refl
    | assumption
    | ((with_reducible apply Within.mk); exact rfl)
    | with_reducible apply Moves.thenOp (State.faultReplay_writes ..)
    | with_reducible apply Moves.thenOp (State.mapSpan_writes ..)
    | with_reducible apply Moves.ite
    | (with_reducible apply upd_parts <;> first | exact .inl rfl | exact .inr rfl)
    | simp only [Moves.mk_eq]
    | with_reducible refine MovesMk.upd rfl (.inl rfl) (.inl rfl) ?_ ?_
    | (with_reducible apply Moves.foldl; intro _ _)
    | dsimp only
    | split

theorem State.takeReplay_writes (s : State) (r : Route) (sp : Span) (a : BelayAck) :
    Moves [.freeCount, .objs, .flash, .routes, .sched, .scn, .cairn, .summit, .content, .depot, .strands, .cache, .coh, .link, .hostMem, .host, .dram, .err, .mgmt, .out] s (State.takeReplay s r sp a) := by
  unfold State.takeReplay
  repeat' first
    | with_reducible apply Moves.refl
    | assumption
    | ((with_reducible apply Within.mk); exact rfl)
    | with_reducible apply Moves.thenOp (State.abandonSpan_writes ..)
    | with_reducible apply Moves.thenOp (State.applyVerdict_writes ..)
    | with_reducible apply Moves.thenOp (State.logRoute_writes ..)
    | with_reducible apply Moves.thenOp (State.mapSpan_writes ..)
    | with_reducible apply Moves.thenOp (State.oinc_writes ..)
    | with_reducible apply Moves.thenOp (State.updRoute_writes ..)
    | with_reducible apply Moves.thenOp (State.suspendHere_writes ..)
    | with_reducible apply Moves.ite
    | (with_reducible apply upd_parts <;> first | exact .inl rfl | exact .inr rfl)
    | simp only [Moves.mk_eq]
    | with_reducible refine MovesMk.upd rfl (.inl rfl) (.inl rfl) ?_ ?_
    | (with_reducible apply Moves.foldl; intro _ _)
    | dsimp only
    | split

theorem State.takeVerdict_writes (s : State) (r : Route) (sp : Span) (a : BelayAck) :
    Moves [.freeCount, .objs, .flash, .routes, .sched, .scn, .cairn, .summit, .content, .depot, .strands, .cache, .coh, .link, .hostMem, .host, .dram, .err, .mgmt, .out] s (State.takeVerdict s r sp a) := by
  unfold State.takeVerdict
  repeat' first
    | with_reducible apply Moves.refl
    | assumption
    | ((with_reducible apply Within.mk); exact rfl)
    | with_reducible apply Moves.thenOp (State.applyVerdict_writes ..)
    | with_reducible apply Moves.thenOp (State.mapSpan_writes ..)
    | with_reducible apply Moves.thenOp (State.takeReplay_writes ..)
    | with_reducible apply Moves.ite
    | (with_reducible apply upd_parts <;> first | exact .inl rfl | exact .inr rfl)
    | simp only [Moves.mk_eq]
    | with_reducible refine MovesMk.upd rfl (.inl rfl) (.inl rfl) ?_ ?_
    | (with_reducible apply Moves.foldl; intro _ _)
    | dsimp only
    | split

theorem State.takeBelay_writes {l : List Field} {s : State} {a : BelayAck} {bad : State → Nat → State} (hl : Within [.freeCount, .objs, .flash, .routes, .sched, .scn, .cairn, .summit, .content, .depot, .strands, .cache, .coh, .link, .hostMem, .host, .dram, .err, .mgmt, .out] l)
    (hf : ∀ y0 y1, Moves l y0 (bad y0 y1)) :
    Moves l s (State.takeBelay s a bad) := by
  unfold State.takeBelay
  repeat' first
    | with_reducible apply Moves.refl
    | assumption
    | ((with_reducible refine Within.trans ?_ hl); (with_reducible apply Within.mk); exact rfl)
    | with_reducible apply Moves.thenOp (State.send_writes ..)
    | with_reducible apply Moves.thenOp (State.takeAck_writes ..)
    | with_reducible apply Moves.thenOp (State.takeVerdict_writes ..)
    | with_reducible refine Moves.trans ?_ (hf _ _)
    | with_reducible apply Moves.ite
    | split

theorem execBelayAck_writes (a : BelayAck) (s : State) :
    ResAll (fun t => Moves [.freeCount, .objs, .flash, .routes, .sched, .scn, .cairn, .summit, .content, .depot, .strands, .cache, .coh, .link, .hostMem, .host, .dram, .err, .mgmt, .out] s t) (execBelayAck a s) := by
  unfold execBelayAck
  repeat' first
    | with_reducible apply Moves.refl
    | ((with_reducible apply Within.mk); exact rfl)
    | with_reducible apply Moves.thenOp (State.violationFrom_writes ..)
    | with_reducible apply ResAll.next'
    | with_reducible refine Moves.trans ?_ (State.takeBelay_writes (Within.mk rfl) (fun _ _ => ?_))

theorem execResourceFailure_writes (r : Resource) (s : State) :
    ResAll (fun t => Moves [.freeCount, .objs, .mem, .sys, .flash, .routes, .sched, .scn, .cairn, .summit, .content, .depot, .strands, .cache, .coh, .link, .hostMem, .host, .eng, .dram, .err, .mgmt, .out] s t) (execResourceFailure r s) := by
  unfold execResourceFailure
  repeat' first
    | with_reducible apply Moves.refl
    | ((with_reducible apply Within.mk); exact rfl)
    | with_reducible apply Moves.thenOp (State.upset_writes ..)
    | with_reducible apply Moves.thenOp (State.resourceFails_writes ..)
    | with_reducible apply ResAll.next'

theorem execSpanRestart_writes (k : RouteKey) (s : State) :
    ResAll (fun t => Moves [.routes, .sched, .err] s t) (execSpanRestart k s) := by
  unfold execSpanRestart
  repeat' first
    | with_reducible apply Moves.refl
    | ((with_reducible apply Within.mk); exact rfl)
    | with_reducible apply Moves.thenOp (State.closeHandling_writes ..)
    | with_reducible apply Moves.thenOp (State.restartSpan_writes ..)
    | with_reducible apply ResAll.next'
    | with_reducible apply Moves.ite

theorem State.drainStrands_writes (s : State) :
    Moves [.objs, .flash, .content, .depot, .strands, .cache, .coh, .link, .hostMem, .dram, .err, .mgmt, .out] s (State.drainStrands s) := by
  unfold State.drainStrands
  repeat' first
    | with_reducible apply Moves.refl
    | ((with_reducible apply Within.mk); exact rfl)
    | with_reducible apply Moves.thenOp (State.drainStores_writes ..)
    | with_reducible apply Moves.ite
    | (with_reducible apply Moves.foldl; intro _ _)
    | split
    | dsimp only

theorem execJournalStallRelease_writes (s : State) :
    ResAll (fun t => Moves [.objs, .mem, .flash, .content, .depot, .strands, .cache, .coh, .link, .hostMem, .dram, .err, .mgmt, .out] s t) (execJournalStallRelease s) := by
  unfold execJournalStallRelease
  repeat' first
    | with_reducible apply Moves.refl
    | ((with_reducible apply Within.mk); exact rfl)
    | with_reducible apply Moves.thenOp (State.drainStrands_writes ..)
    | with_reducible apply Moves.thenOp (State.releaseStalled_writes ..)
    | with_reducible apply ResAll.next'

theorem State.suspendExpiry_writes (s : State) (k : RouteKey) :
    Moves [.freeCount, .objs, .flash, .routes, .sched, .scn, .cairn, .summit, .content, .depot, .strands, .cache, .coh, .link, .hostMem, .host, .dram, .err, .mgmt, .out] s (State.suspendExpiry s k) := by
  unfold State.suspendExpiry
  repeat' first
    | with_reducible apply Moves.refl
    | ((with_reducible apply Within.mk); exact rfl)
    | with_reducible apply Moves.thenOp (State.endRoute_writes ..)
    | with_reducible apply Moves.ite
    | split
    | dsimp only

theorem execSuspendLimitExpiry_writes (k : RouteKey) (s : State) :
    ResAll (fun t => Moves [.freeCount, .objs, .flash, .routes, .sched, .scn, .cairn, .summit, .content, .depot, .strands, .cache, .coh, .link, .hostMem, .host, .dram, .err, .mgmt, .out] s t) (execSuspendLimitExpiry k s) := by
  unfold execSuspendLimitExpiry
  repeat' first
    | with_reducible apply Moves.refl
    | ((with_reducible apply Within.mk); exact rfl)
    | with_reducible apply Moves.thenOp (State.suspendExpiry_writes ..)
    | with_reducible apply ResAll.next'

theorem execPublicationResume_writes (k : RouteKey) (s : State) :
    ResAll (fun t => Moves [.objs, .routes, .cairn, .content, .depot, .link, .hostMem, .host, .out] s t) (execPublicationResume k s) := by
  unfold execPublicationResume
  repeat' first
    | with_reducible apply Moves.refl
    | assumption
    | ((with_reducible apply Within.mk); exact rfl)
    | with_reducible apply Moves.thenOp (State.publishStep_writes ..)
    | with_reducible apply ResAll.next'
    | with_reducible apply ResAll.ite
    | with_reducible apply Moves.ite
    | (with_reducible apply upd_parts <;> first | exact .inl rfl | exact .inr rfl)
    | simp only [Moves.mk_eq]
    | with_reducible refine MovesMk.upd rfl (.inl rfl) (.inl rfl) ?_ ?_
    | (with_reducible apply Moves.foldl; intro _ _)
    | dsimp only
    | split

theorem execPublicationDone_writes (k : RouteKey) (s : State) :
    ResAll (fun t => Moves [.routes] s t) (execPublicationDone k s) := by
  unfold execPublicationDone
  repeat' first
    | with_reducible apply Moves.refl
    | assumption
    | ((with_reducible apply Within.mk); exact rfl)
    | with_reducible apply Moves.thenOp (State.setPublish_writes ..)
    | with_reducible apply ResAll.next'
    | with_reducible apply ResAll.ite
    | with_reducible apply Moves.ite
    | (with_reducible apply upd_parts <;> first | exact .inl rfl | exact .inr rfl)
    | simp only [Moves.mk_eq]
    | with_reducible refine MovesMk.upd rfl (.inl rfl) (.inl rfl) ?_ ?_
    | (with_reducible apply Moves.foldl; intro _ _)
    | dsimp only
    | split

theorem execSummitMerge_writes (k : RouteKey) (n : Nat) (s : State) :
    ResAll (fun t => Moves [.freeCount, .objs, .flash, .routes, .sched, .scn, .cairn, .summit, .content, .depot, .strands, .cache, .coh, .link, .hostMem, .host, .dram, .err, .mgmt, .out] s t) (execSummitMerge k n s) := by
  unfold execSummitMerge
  repeat' first
    | with_reducible apply Moves.refl
    | ((with_reducible apply Within.mk); exact rfl)
    | with_reducible apply Moves.thenOp (State.mergePitch_writes ..)
    | with_reducible apply ResAll.next'
    | with_reducible apply Moves.ite
    | split

theorem execMigrationCopyDone_writes (page : Nat) (s : State) :
    ResAll (fun t => Moves [.depot] s t) (execMigrationCopyDone page s) := by
  unfold execMigrationCopyDone
  repeat' first
    | with_reducible apply Moves.refl
    | ((with_reducible apply Within.mk); exact rfl)
    | with_reducible apply Moves.thenOp (State.migrationCopied_writes ..)
    | with_reducible apply ResAll.next'

theorem execMigrationAbandon_writes (page : Nat) (s : State) :
    ResAll (fun t => Moves [.objs, .depot] s t) (execMigrationAbandon page s) := by
  unfold execMigrationAbandon
  repeat' first
    | with_reducible apply Moves.refl
    | ((with_reducible apply Within.mk); exact rfl)
    | with_reducible apply Moves.thenOp (State.abandonMigration_writes ..)
    | with_reducible apply ResAll.next'
    | with_reducible apply Moves.ite

/-! ## Death -/

theorem execHeartbeatSend_writes (s : State) :
    ResAll (fun t => Moves [.peers, .link, .out] s t) (execHeartbeatSend s) := by
  unfold execHeartbeatSend
  repeat' first
    | with_reducible apply Moves.refl
    | assumption
    | ((with_reducible apply Within.mk); exact rfl)
    | with_reducible apply Moves.thenOp (State.broadcast_writes ..)
    | with_reducible apply ResAll.next'
    | with_reducible apply ResAll.ite
    | with_reducible apply Moves.ite
    | (with_reducible apply upd_parts <;> first | exact .inl rfl | exact .inr rfl)
    | simp only [Moves.mk_eq]
    | with_reducible refine MovesMk.upd rfl (.inl rfl) (.inl rfl) ?_ ?_
    | (with_reducible apply Moves.foldl; intro _ _)
    | dsimp only
    | split

theorem State.takeHeartbeat_writes (s : State) (port : Nat) (origin : Nat) (source : Nat) (state : Nat) (beat : Nat) :
    Moves [.freeCount, .objs, .flash, .routes, .sched, .scn, .cairn, .summit, .content, .depot, .strands, .cache, .coh, .peers, .link, .hostMem, .host, .dram, .err, .mgmt, .out] s (State.takeHeartbeat s port origin source state beat) := by
  unfold State.takeHeartbeat
  repeat' first
    | with_reducible apply Moves.refl
    | assumption
    | ((with_reducible apply Within.mk); exact rfl)
    | with_reducible apply Moves.thenOp (State.forwardBcast_writes ..)
    | with_reducible apply Moves.thenOp (State.losePeer_writes ..)
    | with_reducible apply Moves.thenOp (State.violation_writes ..)
    | with_reducible apply Moves.ite
    | (with_reducible apply upd_parts <;> first | exact .inl rfl | exact .inr rfl)
    | simp only [Moves.mk_eq]
    | with_reducible refine MovesMk.upd rfl (.inl rfl) (.inl rfl) ?_ ?_
    | (with_reducible apply Moves.foldl; intro _ _)
    | dsimp only
    | split
    | with_reducible refine Moves.thenOp (OptAll.st (State.noteBcast_writes ..) (by assumption)) (Within.mk rfl) ?_

theorem execHeartbeat_writes (port : Nat) (origin : Nat) (source : Nat) (state : Nat) (beat : Nat) (s : State) :
    ResAll (fun t => Moves [.freeCount, .objs, .flash, .routes, .sched, .scn, .cairn, .summit, .content, .depot, .strands, .cache, .coh, .peers, .link, .hostMem, .host, .dram, .err, .mgmt, .out] s t) (execHeartbeat port origin source state beat s) := by
  unfold execHeartbeat
  repeat' first
    | with_reducible apply Moves.refl
    | ((with_reducible apply Within.mk); exact rfl)
    | with_reducible apply Moves.thenOp (State.takeHeartbeat_writes ..)
    | with_reducible apply ResAll.next'

theorem State.declareDead_writes (s : State) (d : Nat) :
    Moves [.freeCount, .objs, .mem, .flash, .routes, .sched, .scn, .cairn, .summit, .content, .depot, .strands, .cache, .coh, .peers, .link, .hostMem, .host, .dram, .err, .mgmt, .out] s (State.declareDead s d) := by
  unfold State.declareDead
  repeat' first
    | with_reducible apply Moves.refl
    | assumption
    | ((with_reducible apply Within.mk); exact rfl)
    | with_reducible apply Moves.thenOp (State.applyDeath_writes ..)
    | with_reducible apply Moves.thenOp (State.broadcast_writes ..)
    | with_reducible apply Moves.ite
    | (with_reducible apply upd_parts <;> first | exact .inl rfl | exact .inr rfl)
    | simp only [Moves.mk_eq]
    | with_reducible refine MovesMk.upd rfl (.inl rfl) (.inl rfl) ?_ ?_
    | (with_reducible apply Moves.foldl; intro _ _)
    | dsimp only
    | split

theorem execHeartbeatTimeout_writes (d : Nat) (s : State) :
    ResAll (fun t => Moves [.freeCount, .objs, .mem, .flash, .routes, .sched, .scn, .cairn, .summit, .content, .depot, .strands, .cache, .coh, .peers, .link, .hostMem, .host, .dram, .err, .mgmt, .out] s t) (execHeartbeatTimeout d s) := by
  unfold execHeartbeatTimeout
  repeat' first
    | with_reducible apply Moves.refl
    | ((with_reducible apply Within.mk); exact rfl)
    | with_reducible apply Moves.thenOp (State.declareDead_writes ..)
    | with_reducible apply ResAll.next'

theorem execSnoopTimeout_writes (d : Nat) (s : State) :
    ResAll (fun t => Moves [.freeCount, .objs, .mem, .flash, .routes, .sched, .scn, .cairn, .summit, .content, .depot, .strands, .cache, .coh, .peers, .link, .hostMem, .host, .dram, .err, .mgmt, .out] s t) (execSnoopTimeout d s) := by
  unfold execSnoopTimeout
  repeat' first
    | with_reducible apply Moves.refl
    | ((with_reducible apply Within.mk); exact rfl)
    | with_reducible apply Moves.thenOp (State.declareDead_writes ..)
    | with_reducible apply ResAll.next'
    | with_reducible apply Moves.ite

theorem State.selfDeath_writes (s : State) :
    Moves [.freeCount, .objs, .sys, .flash, .routes, .sched, .scn, .cairn, .summit, .content, .depot, .strands, .cache, .coh, .peers, .link, .hostMem, .host, .dram, .err, .mgmt, .out] s (State.selfDeath s) := by
  unfold State.selfDeath
  repeat' first
    | with_reducible apply Moves.refl
    | assumption
    | ((with_reducible apply Within.mk); exact rfl)
    | with_reducible apply Moves.thenOp (State.dropHomed_writes ..)
    | with_reducible apply Moves.thenOp (State.enterRetreat_writes ..)
    | with_reducible apply Moves.ite
    | (with_reducible apply upd_parts <;> first | exact .inl rfl | exact .inr rfl)
    | simp only [Moves.mk_eq]
    | with_reducible refine MovesMk.upd rfl (.inl rfl) (.inl rfl) ?_ ?_
    | (with_reducible apply Moves.foldl; intro _ _)
    | dsimp only
    | split

theorem State.takeNotice_writes {l : List Field} {s : State} {port : Option Nat} {m : SvcMsg} {bad : State → Nat → State} (hl : Within [.freeCount, .objs, .mem, .sys, .flash, .routes, .sched, .scn, .cairn, .summit, .content, .depot, .strands, .cache, .coh, .peers, .link, .hostMem, .host, .dram, .err, .mgmt, .out] l)
    (hf : ∀ y0 y1, Moves l y0 (bad y0 y1)) :
    Moves l s (State.takeNotice s port m bad) := by
  unfold State.takeNotice
  repeat' first
    | with_reducible apply Moves.refl
    | ((with_reducible refine Within.trans ?_ hl); (with_reducible apply Within.mk); exact rfl)
    | with_reducible apply Moves.thenOp (State.applyDeath_writes ..)
    | with_reducible apply Moves.thenOp (State.forwardBcast_writes ..)
    | with_reducible apply Moves.thenOp (State.selfDeath_writes ..)
    | with_reducible refine Moves.trans ?_ (hf _ _)
    | with_reducible apply Moves.ite
    | split
    | with_reducible refine Moves.thenOp (OptAll.st (State.noteBcast_writes ..) (by assumption)) (Within.trans (Within.mk rfl) hl) ?_

theorem execDeathNotice_writes (m : SvcMsg) (s : State) :
    ResAll (fun t => Moves [.freeCount, .objs, .mem, .sys, .flash, .routes, .sched, .scn, .cairn, .summit, .content, .depot, .strands, .cache, .coh, .peers, .link, .hostMem, .host, .dram, .err, .mgmt, .out] s t) (execDeathNotice m s) := by
  unfold execDeathNotice
  repeat' first
    | with_reducible apply Moves.refl
    | ((with_reducible apply Within.mk); exact rfl)
    | with_reducible apply Moves.thenOp (State.violationFrom_writes ..)
    | with_reducible apply ResAll.next'
    | with_reducible refine Moves.trans ?_ (State.takeNotice_writes (Within.mk rfl) (fun _ _ => ?_))

/-! ## Services -/

theorem State.svcRouteOpen_writes (s : State) (m : SvcMsg) :
    Moves [.freeCount, .objs, .routes, .sched, .strands, .coh, .link, .hostMem, .host, .out] s (State.svcRouteOpen s m) := by
  unfold State.svcRouteOpen
  repeat' first
    | with_reducible apply Moves.refl
    | assumption
    | ((with_reducible apply Within.mk); exact rfl)
    | with_reducible apply Moves.thenOp (State.finishCopies_writes ..)
    | with_reducible apply Moves.thenOp (State.request_writes ..)
    | with_reducible apply Moves.thenOp (State.openSpan_writes ..)
    | with_reducible apply Moves.thenOp (State.updRoute_writes ..)
    | with_reducible apply Moves.ite
    | (with_reducible apply upd_parts <;> first | exact .inl rfl | exact .inr rfl)
    | simp only [Moves.mk_eq]
    | with_reducible refine MovesMk.upd rfl (.inl rfl) (.inl rfl) ?_ ?_
    | (with_reducible apply Moves.foldl; intro _ _)
    | dsimp only
    | split

theorem State.svcRouteEnd_writes (s : State) (m : SvcMsg) :
    Moves [.freeCount, .objs, .flash, .routes, .sched, .scn, .cairn, .summit, .content, .depot, .strands, .cache, .coh, .link, .hostMem, .host, .dram, .err, .mgmt, .out] s (State.svcRouteEnd s m) := by
  unfold State.svcRouteEnd
  repeat' first
    | with_reducible apply Moves.refl
    | assumption
    | ((with_reducible apply Within.mk); exact rfl)
    | with_reducible apply Moves.thenOp (State.closeOut_writes ..)
    | with_reducible apply Moves.thenOp (State.discardSpan_writes ..)
    | with_reducible apply Moves.thenOp (State.endAt_writes ..)
    | with_reducible apply Moves.thenOp (State.suspendRoute_writes ..)
    | with_reducible apply Moves.thenOp (State.free_writes ..)
    | with_reducible apply Moves.ite
    | (with_reducible apply upd_parts <;> first | exact .inl rfl | exact .inr rfl)
    | simp only [Moves.mk_eq]
    | with_reducible refine MovesMk.upd rfl (.inl rfl) (.inl rfl) ?_ ?_
    | (with_reducible apply Moves.foldl; intro _ _)
    | dsimp only
    | split
    | with_reducible refine Moves.thenOp (Moves.of_snd (State.free_writes ..) (by assumption)) (Within.mk rfl) ?_

theorem State.inboundObj_writes (s : State) (dev : Nat) (k : RouteKey) (cls : Nat) :
    OptAll (fun (a : Nat × State) => Moves [.routes, .content, .link] s (a).2) (State.inboundObj s dev k cls) := by
  unfold State.inboundObj
  repeat' first
    | with_reducible apply Moves.refl
    | with_reducible refine OptAll.imp (fun _ h => ?_) (State.newObj_writes ..)
    | with_reducible apply OptAll.some'
    | (with_reducible apply upd_parts <;> first | exact .inl rfl | exact .inr rfl)
    | simp only [Moves.mk_eq]
    | with_reducible refine MovesMk.upd rfl (.inl rfl) (.inl rfl) ?_ ?_
    | split
    | with_reducible apply OptAll.map
    | with_reducible exact Moves.mono (by assumption) (Within.mk rfl)

theorem State.answerGrant_writes (s : State) (m : SvcMsg) (handle : Nat) (line : Nat) :
    Moves [.link, .out] s (State.answerGrant s m handle line) := by
  unfold State.answerGrant
  repeat' first
    | with_reducible apply Moves.refl
    | ((with_reducible apply Within.mk); exact rfl)
    | with_reducible apply Moves.thenOp (State.sendSvc_writes ..)

theorem State.grantTo_writes (s : State) (m : SvcMsg) (k : RouteKey) (cls a : Nat) :
    Moves [.objs, .routes, .content, .depot, .link, .out] s (State.grantTo s m k cls a) := by
  unfold State.grantTo
  repeat' first
    | with_reducible apply Moves.refl
    | assumption
    | ((with_reducible apply Within.mk); exact rfl)
    | with_reducible apply Moves.thenOp (State.addPage_writes ..)
    | with_reducible apply Moves.thenOp (State.answerGrant_writes ..)
    | with_reducible apply Moves.ite
    | (with_reducible apply upd_parts <;> first | exact .inl rfl | exact .inr rfl)
    | simp only [Moves.mk_eq]
    | with_reducible refine MovesMk.upd rfl (.inl rfl) (.inl rfl) ?_ ?_
    | (with_reducible apply Moves.foldl; intro _ _)
    | dsimp only
    | split
    | with_reducible refine Moves.thenOp (OptAll.stSnd (State.inboundObj_writes ..) (by assumption)) (Within.mk rfl) ?_
    | with_reducible refine Moves.thenOp (OptAll.stSnd' (State.inboundObj_writes ..) (by assumption)) (Within.mk rfl) ?_

theorem State.answerAlloc_writes (s : State) (m : SvcMsg) :
    Moves [.objs, .routes, .content, .depot, .link, .out] s (State.answerAlloc s m) := by
  unfold State.answerAlloc
  repeat' first
    | with_reducible apply Moves.refl
    | assumption
    | ((with_reducible apply Within.mk); exact rfl)
    | with_reducible apply Moves.thenOp (State.answerGrant_writes ..)
    | with_reducible apply Moves.thenOp (State.grantTo_writes ..)
    | with_reducible apply Moves.ite
    | (with_reducible apply upd_parts <;> first | exact .inl rfl | exact .inr rfl)
    | simp only [Moves.mk_eq]
    | with_reducible refine MovesMk.upd rfl (.inl rfl) (.inl rfl) ?_ ?_
    | (with_reducible apply Moves.foldl; intro _ _)
    | dsimp only
    | split

theorem State.answerDraw_writes (s : State) (m : SvcMsg) :
    Moves [.depot, .link, .out] s (State.answerDraw s m) := by
  unfold State.answerDraw
  repeat' first
    | with_reducible apply Moves.refl
    | assumption
    | ((with_reducible apply Within.mk); exact rfl)
    | with_reducible apply Moves.thenOp (State.sendSvc_writes ..)
    | with_reducible apply Moves.ite
    | (with_reducible apply upd_parts <;> first | exact .inl rfl | exact .inr rfl)
    | simp only [Moves.mk_eq]
    | with_reducible refine MovesMk.upd rfl (.inl rfl) (.inl rfl) ?_ ?_
    | (with_reducible apply Moves.foldl; intro _ _)
    | dsimp only
    | split

theorem State.serveAsk_writes (s : State) (m : SvcMsg) :
    Moves [.objs, .routes, .content, .depot, .link, .out] s (State.serveAsk s m) := by
  unfold State.serveAsk
  repeat' first
    | with_reducible apply Moves.refl
    | assumption
    | ((with_reducible apply Within.mk); exact rfl)
    | with_reducible apply Moves.thenOp (State.answerAlloc_writes ..)
    | with_reducible apply Moves.thenOp (State.answerDraw_writes ..)
    | with_reducible apply Moves.ite
    | (with_reducible apply upd_parts <;> first | exact .inl rfl | exact .inr rfl)
    | simp only [Moves.mk_eq]
    | with_reducible refine MovesMk.upd rfl (.inl rfl) (.inl rfl) ?_ ?_
    | (with_reducible apply Moves.foldl; intro _ _)
    | dsimp only
    | split

theorem State.svcPageAlloc_writes (s : State) (m : SvcMsg) :
    Moves [.objs, .routes, .content, .depot, .link, .out] s (State.svcPageAlloc s m) := by
  unfold State.svcPageAlloc
  repeat' first
    | with_reducible apply Moves.refl
    | assumption
    | ((with_reducible apply Within.mk); exact rfl)
    | with_reducible apply Moves.thenOp (State.addPage_writes ..)
    | with_reducible apply Moves.thenOp (State.answerGrant_writes ..)
    | with_reducible apply Moves.thenOp (State.answerAlloc_writes ..)
    | with_reducible apply Moves.thenOp (State.oinc_writes ..)
    | with_reducible apply Moves.thenOp (State.serveAsk_writes ..)
    | with_reducible apply Moves.ite
    | (with_reducible apply upd_parts <;> first | exact .inl rfl | exact .inr rfl)
    | simp only [Moves.mk_eq]
    | with_reducible refine MovesMk.upd rfl (.inl rfl) (.inl rfl) ?_ ?_
    | (with_reducible apply Moves.foldl; intro _ _)
    | dsimp only
    | split
    | with_reducible refine Moves.thenOp (OptAll.stSnd (State.inboundObj_writes ..) (by assumption)) (Within.mk rfl) ?_

theorem State.serveAsks_writes (s : State) :
    Moves [.objs, .routes, .content, .depot, .link, .out] s (State.serveAsks s) := by
  unfold State.serveAsks
  repeat' first
    | with_reducible apply Moves.refl
    | assumption
    | ((with_reducible apply Within.mk); exact rfl)
    | with_reducible apply Moves.thenOp (State.answerAlloc_writes ..)
    | with_reducible apply Moves.thenOp (State.serveAsk_writes ..)
    | with_reducible apply Moves.ite
    | (with_reducible apply upd_parts <;> first | exact .inl rfl | exact .inr rfl)
    | simp only [Moves.mk_eq]
    | with_reducible refine MovesMk.upd rfl (.inl rfl) (.inl rfl) ?_ ?_
    | (with_reducible apply Moves.foldl; intro _ _)
    | dsimp only
    | split

theorem execZeroPageCleared_writes (s : State) :
    ResAll (fun t => Moves [.objs, .routes, .content, .depot, .link, .dram, .out] s t) (execZeroPageCleared s) := by
  unfold execZeroPageCleared
  repeat' first
    | with_reducible apply Moves.refl
    | assumption
    | ((with_reducible apply Within.mk); exact rfl)
    | with_reducible apply Moves.thenOp (State.zeroDone_writes ..)
    | with_reducible apply Moves.thenOp (State.serveAsks_writes ..)
    | with_reducible apply ResAll.next'
    | with_reducible apply ResAll.ite
    | with_reducible apply Moves.ite
    | (with_reducible apply upd_parts <;> first | exact .inl rfl | exact .inr rfl)
    | simp only [Moves.mk_eq]
    | with_reducible refine MovesMk.upd rfl (.inl rfl) (.inl rfl) ?_ ?_
    | (with_reducible apply Moves.foldl; intro _ _)
    | dsimp only
    | split

theorem State.takeAsked_writes (s : State) (dev : Nat) (op : Nat) :
    OptAll (fun (a : Asked × State) => Moves [.link] s (a).2) (State.takeAsked s dev op) := by
  unfold State.takeAsked
  repeat' first
    | with_reducible apply Moves.refl
    | (with_reducible apply upd_parts <;> first | exact .inl rfl | exact .inr rfl)
    | simp only [Moves.mk_eq]
    | with_reducible refine MovesMk.upd rfl (.inl rfl) (.inl rfl) ?_ ?_
    | with_reducible apply OptAll.map
    | (with_reducible apply OptAll.all; intro _)

theorem State.svcPageGrant_writes {l : List Field} {s : State} {m : SvcMsg} {bad : State → Nat → State} (hl : Within [.freeCount, .objs, .flash, .routes, .sched, .scn, .cairn, .summit, .content, .depot, .strands, .cache, .coh, .link, .hostMem, .host, .dram, .err, .mgmt, .out] l)
    (hf : ∀ y0 y1, Moves l y0 (bad y0 y1)) :
    Moves l s (State.svcPageGrant s m bad) := by
  unfold State.svcPageGrant
  repeat' first
    | with_reducible apply Moves.refl
    | assumption
    | ((with_reducible apply Within.mk); exact rfl)
    | ((with_reducible refine Within.trans ?_ hl); (with_reducible apply Within.mk); exact rfl)
    | with_reducible refine Moves.trans ?_ (hf _ _)
    | (with_reducible apply upd_parts <;> first | exact .inl (List.contains_iff_mem.mpr (within.mem hl.out (List.contains_iff_mem.mp rfl))) | exact .inr rfl)
    | with_reducible apply Moves.thenOp (State.mapOutbound_writes ..)
    | with_reducible apply Moves.thenOp (State.pumpOutbound_writes ..)
    | with_reducible apply Moves.thenOp (State.suspendRoute_writes ..)
    | with_reducible apply Moves.ite
    | (with_reducible apply upd_parts <;> first | exact .inl rfl | exact .inr rfl)
    | simp only [Moves.mk_eq]
    | with_reducible refine MovesMk.upd rfl (.inl rfl) (.inl rfl) ?_ ?_
    | (with_reducible apply Moves.foldl; intro _ _)
    | dsimp only
    | split
    | with_reducible refine Moves.thenOp (OptAll.stSnd (State.takeAsked_writes ..) (by assumption)) (Within.trans (Within.mk rfl) hl) ?_

theorem State.svcQuotaGrant_writes {l : List Field} {s : State} {m : SvcMsg} {bad : State → Nat → State} (hl : Within [.depot, .link] l)
    (hf : ∀ y0 y1, Moves l y0 (bad y0 y1)) :
    Moves l s (State.svcQuotaGrant s m bad) := by
  unfold State.svcQuotaGrant
  repeat' first
    | with_reducible apply Moves.refl
    | assumption
    | ((with_reducible apply Within.mk); exact rfl)
    | with_reducible refine Moves.trans ?_ (hf _ _)
    | (with_reducible apply upd_parts <;> first | exact .inl (List.contains_iff_mem.mpr (within.mem hl.out (List.contains_iff_mem.mp rfl))) | exact .inr rfl)
    | with_reducible apply Moves.ite
    | (with_reducible apply upd_parts <;> first | exact .inl rfl | exact .inr rfl)
    | simp only [Moves.mk_eq]
    | with_reducible refine MovesMk.upd rfl (.inl rfl) (.inl rfl) ?_ ?_
    | (with_reducible apply Moves.foldl; intro _ _)
    | dsimp only
    | split
    | with_reducible refine Moves.thenOp (OptAll.stSnd (State.takeAsked_writes ..) (by assumption)) (Within.trans (Within.mk rfl) hl) ?_

theorem State.svcQuotaReturn_writes (s : State) (m : SvcMsg) :
    Moves [.depot] s (State.svcQuotaReturn s m) := by
  unfold State.svcQuotaReturn
  repeat' first
    | with_reducible apply Moves.refl
    | assumption
    | ((with_reducible apply Within.mk); exact rfl)
    | with_reducible apply Moves.ite
    | (with_reducible apply upd_parts <;> first | exact .inl rfl | exact .inr rfl)
    | simp only [Moves.mk_eq]
    | with_reducible refine MovesMk.upd rfl (.inl rfl) (.inl rfl) ?_ ?_
    | (with_reducible apply Moves.foldl; intro _ _)
    | dsimp only
    | split

theorem State.splitRope_writes (s : State) (k : RouteKey) (o : Nat) (off : Nat) (ridge : Nat) (forms : List ColForm) :
    OptAll (fun (a : (Nat × Rope) × Nat × State) => Moves [.routes, .content, .depot] s (a).2.2) (State.splitRope s k o off ridge forms) := by
  unfold State.splitRope
  repeat' first
    | with_reducible apply Moves.refl
    | assumption
    | ((with_reducible apply Within.mk); exact rfl)
    | with_reducible apply OptAll.map
    | with_reducible exact Moves.mono (by assumption) (Within.mk rfl)
    | with_reducible refine OptAll.imp (fun _ h => ?_) (State.newObj_writes ..)
    | with_reducible apply OptAll.some'
    | with_reducible apply OptAll.none'
    | with_reducible apply OptAll.ite
    | with_reducible apply Moves.ite
    | (with_reducible apply upd_parts <;> first | exact .inl rfl | exact .inr rfl)
    | simp only [Moves.mk_eq]
    | with_reducible refine MovesMk.upd rfl (.inl rfl) (.inl rfl) ?_ ?_
    | (with_reducible apply Moves.foldl; intro _ _)
    | dsimp only
    | split

theorem State.splitChain_writes (s : State) (k : RouteKey) (o : Nat) (off : Nat) (ridge : Nat) (forms : List ColForm) (x6 : Nat) :
    Moves [.routes, .content, .depot] s ((State.splitChain s k o off ridge forms x6).2) := by
  induction x6 generalizing s k o off ridge forms with
  | zero =>
    unfold State.splitChain
    repeat' (with_reducible apply Moves.refl)
  | succ n ih =>
    unfold State.splitChain
    repeat' first
      | with_reducible apply Moves.refl
      | with_reducible refine Moves.thenOp (ih ..) (Within.mk rfl) ?_
      | simp only [Moves.mk_eq]
      | split
      | with_reducible refine Moves.thenOp (OptAll.stThird (State.splitRope_writes ..) (by assumption)) (Within.mk rfl) ?_

theorem State.svcRopeNotice_writes (s : State) (m : SvcMsg) :
    Moves [.freeCount, .objs, .flash, .routes, .sched, .scn, .cairn, .summit, .content, .depot, .strands, .cache, .coh, .link, .hostMem, .host, .dram, .err, .mgmt, .out] s (State.svcRopeNotice s m) := by
  unfold State.svcRopeNotice
  repeat' first
    | with_reducible apply Moves.refl
    | assumption
    | ((with_reducible apply Within.mk); exact rfl)
    | with_reducible apply Moves.thenOp (State.deposit_writes ..)
    | with_reducible apply Moves.thenOp (State.pushTask_writes ..)
    | with_reducible apply Moves.thenOp (State.suspendRoute_writes ..)
    | with_reducible apply Moves.ite
    | (with_reducible apply upd_parts <;> first | exact .inl rfl | exact .inr rfl)
    | simp only [Moves.mk_eq]
    | with_reducible refine MovesMk.upd rfl (.inl rfl) (.inl rfl) ?_ ?_
    | (with_reducible apply Moves.foldl; intro _ _)
    | dsimp only
    | split
    | with_reducible refine Moves.thenOp (OptAll.stThird (State.splitRope_writes ..) (by assumption)) (Within.mk rfl) ?_

theorem State.svcSummitEntry_writes (s : State) (m : SvcMsg) :
    Moves [.routes, .summit, .content, .depot] s (State.svcSummitEntry s m) := by
  unfold State.svcSummitEntry
  repeat' first
    | with_reducible apply Moves.refl
    | assumption
    | ((with_reducible apply Within.mk); exact rfl)
    | with_reducible apply Moves.thenOp (State.deposit_writes ..)
    | with_reducible apply Moves.thenOp (State.splitChain_writes ..)
    | with_reducible apply Moves.ite
    | (with_reducible apply upd_parts <;> first | exact .inl rfl | exact .inr rfl)
    | simp only [Moves.mk_eq]
    | with_reducible refine MovesMk.upd rfl (.inl rfl) (.inl rfl) ?_ ?_
    | (with_reducible apply Moves.foldl; intro _ _)
    | dsimp only
    | split

theorem State.svcSummitClose_writes (s : State) (m : SvcMsg) :
    Moves [.summit] s (State.svcSummitClose s m) := by
  unfold State.svcSummitClose
  repeat' first
    | with_reducible apply Moves.refl
    | assumption
    | ((with_reducible apply Within.mk); exact rfl)
    | with_reducible apply Moves.thenOp (State.setSlot_writes ..)
    | with_reducible apply Moves.ite
    | (with_reducible apply upd_parts <;> first | exact .inl rfl | exact .inr rfl)
    | simp only [Moves.mk_eq]
    | with_reducible refine MovesMk.upd rfl (.inl rfl) (.inl rfl) ?_ ?_
    | (with_reducible apply Moves.foldl; intro _ _)
    | dsimp only
    | split

theorem State.takeSvc_writes {l : List Field} {s : State} {m : SvcMsg} {port : Option Nat} {bad : State → Nat → State} (hl : Within [.freeCount, .objs, .mem, .sys, .flash, .routes, .sched, .scn, .cairn, .summit, .content, .depot, .strands, .cache, .coh, .peers, .link, .hostMem, .host, .dram, .err, .mgmt, .out] l)
    (hf : ∀ y0 y1, Moves l y0 (bad y0 y1)) :
    Moves l s (State.takeSvc s m port bad) := by
  unfold State.takeSvc
  repeat' first
    | with_reducible apply Moves.refl
    | assumption
    | ((with_reducible apply Within.mk); exact rfl)
    | ((with_reducible refine Within.trans ?_ hl); (with_reducible apply Within.mk); exact rfl)
    | with_reducible refine Moves.trans ?_ (hf _ _)
    | with_reducible apply Moves.thenOp (State.send_writes ..)
    | with_reducible apply Moves.thenOp (State.svcPageAlloc_writes ..)
    | with_reducible apply Moves.thenOp (State.svcQuotaReturn_writes ..)
    | with_reducible apply Moves.thenOp (State.svcRopeNotice_writes ..)
    | with_reducible apply Moves.thenOp (State.svcRouteEnd_writes ..)
    | with_reducible apply Moves.thenOp (State.svcRouteOpen_writes ..)
    | with_reducible apply Moves.thenOp (State.svcSummitClose_writes ..)
    | with_reducible apply Moves.thenOp (State.svcSummitEntry_writes ..)
    | with_reducible refine Moves.trans ?_ (State.svcPageGrant_writes (Within.trans (Within.mk rfl) hl) (fun _ _ => ?_))
    | with_reducible refine Moves.trans ?_ (State.svcQuotaGrant_writes (Within.trans (Within.mk rfl) hl) (fun _ _ => ?_))
    | with_reducible refine Moves.trans ?_ (State.takeNotice_writes (Within.trans (Within.mk rfl) hl) (fun _ _ => ?_))
    | with_reducible apply Moves.thenOp (State.serveAsk_writes ..)
    | with_reducible apply Moves.ite
    | (with_reducible apply upd_parts <;> first | exact .inl rfl | exact .inr rfl)
    | simp only [Moves.mk_eq]
    | with_reducible refine MovesMk.upd rfl (.inl rfl) (.inl rfl) ?_ ?_
    | (with_reducible apply Moves.foldl; intro _ _)
    | dsimp only
    | split

theorem State.svcRow_writes (s : State) (m : SvcMsg) (op : Nat) :
    ResAll (fun t => Moves [.freeCount, .objs, .mem, .sys, .flash, .routes, .sched, .scn, .cairn, .summit, .content, .depot, .strands, .cache, .coh, .peers, .link, .hostMem, .host, .dram, .err, .mgmt, .out] s t) (State.svcRow s m op) := by
  unfold State.svcRow
  repeat' first
    | with_reducible apply Moves.refl
    | ((with_reducible apply Within.mk); exact rfl)
    | with_reducible apply Moves.thenOp (State.violationFrom_writes ..)
    | with_reducible apply ResAll.next'
    | with_reducible apply Moves.ite
    | with_reducible refine Moves.trans ?_ (State.takeSvc_writes (Within.mk rfl) (fun _ _ => ?_))

theorem execRouteOpen_writes (m : SvcMsg) (s : State) :
    ResAll (fun t => Moves [.freeCount, .objs, .mem, .sys, .flash, .routes, .sched, .scn, .cairn, .summit, .content, .depot, .strands, .cache, .coh, .peers, .link, .hostMem, .host, .dram, .err, .mgmt, .out] s t) (execRouteOpen m s) := by
  unfold execRouteOpen
  repeat' first
    | with_reducible apply Moves.refl
    | with_reducible refine ResAll.imp (fun _ h => Moves.thenOp h (Within.mk rfl) ?_) (State.svcRow_writes ..)

theorem execRouteEnd_writes (m : SvcMsg) (s : State) :
    ResAll (fun t => Moves [.freeCount, .objs, .mem, .sys, .flash, .routes, .sched, .scn, .cairn, .summit, .content, .depot, .strands, .cache, .coh, .peers, .link, .hostMem, .host, .dram, .err, .mgmt, .out] s t) (execRouteEnd m s) := by
  unfold execRouteEnd
  repeat' first
    | with_reducible apply Moves.refl
    | with_reducible refine ResAll.imp (fun _ h => Moves.thenOp h (Within.mk rfl) ?_) (State.svcRow_writes ..)

theorem execPageAlloc_writes (m : SvcMsg) (s : State) :
    ResAll (fun t => Moves [.freeCount, .objs, .mem, .sys, .flash, .routes, .sched, .scn, .cairn, .summit, .content, .depot, .strands, .cache, .coh, .peers, .link, .hostMem, .host, .dram, .err, .mgmt, .out] s t) (execPageAlloc m s) := by
  unfold execPageAlloc
  repeat' first
    | with_reducible apply Moves.refl
    | with_reducible refine ResAll.imp (fun _ h => Moves.thenOp h (Within.mk rfl) ?_) (State.svcRow_writes ..)

theorem execPageGrant_writes (m : SvcMsg) (s : State) :
    ResAll (fun t => Moves [.freeCount, .objs, .mem, .sys, .flash, .routes, .sched, .scn, .cairn, .summit, .content, .depot, .strands, .cache, .coh, .peers, .link, .hostMem, .host, .dram, .err, .mgmt, .out] s t) (execPageGrant m s) := by
  unfold execPageGrant
  repeat' first
    | with_reducible apply Moves.refl
    | with_reducible refine ResAll.imp (fun _ h => Moves.thenOp h (Within.mk rfl) ?_) (State.svcRow_writes ..)

theorem execQuotaDraw_writes (m : SvcMsg) (s : State) :
    ResAll (fun t => Moves [.freeCount, .objs, .mem, .sys, .flash, .routes, .sched, .scn, .cairn, .summit, .content, .depot, .strands, .cache, .coh, .peers, .link, .hostMem, .host, .dram, .err, .mgmt, .out] s t) (execQuotaDraw m s) := by
  unfold execQuotaDraw
  repeat' first
    | with_reducible apply Moves.refl
    | with_reducible refine ResAll.imp (fun _ h => Moves.thenOp h (Within.mk rfl) ?_) (State.svcRow_writes ..)

theorem execQuotaGrant_writes (m : SvcMsg) (s : State) :
    ResAll (fun t => Moves [.freeCount, .objs, .mem, .sys, .flash, .routes, .sched, .scn, .cairn, .summit, .content, .depot, .strands, .cache, .coh, .peers, .link, .hostMem, .host, .dram, .err, .mgmt, .out] s t) (execQuotaGrant m s) := by
  unfold execQuotaGrant
  repeat' first
    | with_reducible apply Moves.refl
    | with_reducible refine ResAll.imp (fun _ h => Moves.thenOp h (Within.mk rfl) ?_) (State.svcRow_writes ..)

theorem execQuotaReturn_writes (m : SvcMsg) (s : State) :
    ResAll (fun t => Moves [.freeCount, .objs, .mem, .sys, .flash, .routes, .sched, .scn, .cairn, .summit, .content, .depot, .strands, .cache, .coh, .peers, .link, .hostMem, .host, .dram, .err, .mgmt, .out] s t) (execQuotaReturn m s) := by
  unfold execQuotaReturn
  repeat' first
    | with_reducible apply Moves.refl
    | with_reducible refine ResAll.imp (fun _ h => Moves.thenOp h (Within.mk rfl) ?_) (State.svcRow_writes ..)

theorem execRopeNotice_writes (m : SvcMsg) (s : State) :
    ResAll (fun t => Moves [.freeCount, .objs, .mem, .sys, .flash, .routes, .sched, .scn, .cairn, .summit, .content, .depot, .strands, .cache, .coh, .peers, .link, .hostMem, .host, .dram, .err, .mgmt, .out] s t) (execRopeNotice m s) := by
  unfold execRopeNotice
  repeat' first
    | with_reducible apply Moves.refl
    | with_reducible refine ResAll.imp (fun _ h => Moves.thenOp h (Within.mk rfl) ?_) (State.svcRow_writes ..)

theorem execSummitEntry_writes (m : SvcMsg) (s : State) :
    ResAll (fun t => Moves [.freeCount, .objs, .mem, .sys, .flash, .routes, .sched, .scn, .cairn, .summit, .content, .depot, .strands, .cache, .coh, .peers, .link, .hostMem, .host, .dram, .err, .mgmt, .out] s t) (execSummitEntry m s) := by
  unfold execSummitEntry
  repeat' first
    | with_reducible apply Moves.refl
    | with_reducible refine ResAll.imp (fun _ h => Moves.thenOp h (Within.mk rfl) ?_) (State.svcRow_writes ..)

theorem execSummitClose_writes (m : SvcMsg) (s : State) :
    ResAll (fun t => Moves [.freeCount, .objs, .mem, .sys, .flash, .routes, .sched, .scn, .cairn, .summit, .content, .depot, .strands, .cache, .coh, .peers, .link, .hostMem, .host, .dram, .err, .mgmt, .out] s t) (execSummitClose m s) := by
  unfold execSummitClose
  repeat' first
    | with_reducible apply Moves.refl
    | with_reducible refine ResAll.imp (fun _ h => Moves.thenOp h (Within.mk rfl) ?_) (State.svcRow_writes ..)

/-! ## Link -/

theorem State.resendAll_writes (s : State) (p : Nat) :
    Moves [.objs, .link, .out] s (State.resendAll s p) := by
  unfold State.resendAll
  repeat' first
    | with_reducible apply Moves.refl
    | assumption
    | ((with_reducible apply Within.mk); exact rfl)
    | with_reducible apply Moves.thenOp (State.emit_writes ..)
    | with_reducible apply Moves.thenOp (State.oinc_writes ..)
    | with_reducible apply Moves.thenOp (State.sendPayload_writes ..)
    | with_reducible apply Moves.ite
    | (with_reducible apply upd_parts <;> first | exact .inl rfl | exact .inr rfl)
    | simp only [Moves.mk_eq]
    | with_reducible refine MovesMk.upd rfl (.inl rfl) (.inl rfl) ?_ ?_
    | (with_reducible apply Moves.foldl; intro _ _)
    | dsimp only
    | split

theorem State.pumpAll_writes (s : State) (p : Nat) :
    Moves [.link, .out] s (State.pumpAll s p) := by
  unfold State.pumpAll
  repeat' first
    | with_reducible apply Moves.refl
    | ((with_reducible apply Within.mk); exact rfl)
    | with_reducible apply Moves.thenOp (State.pumpPort_writes ..)

theorem State.answerFlit_writes (s : State) (p : Nat) :
    Moves [.link, .out] s (State.answerFlit s p) := by
  unfold State.answerFlit
  repeat' first
    | with_reducible apply Moves.refl
    | assumption
    | ((with_reducible apply Within.mk); exact rfl)
    | with_reducible apply Moves.thenOp (State.sendControl_writes ..)
    | with_reducible apply Moves.ite
    | (with_reducible apply upd_parts <;> first | exact .inl rfl | exact .inr rfl)
    | simp only [Moves.mk_eq]
    | with_reducible refine MovesMk.upd rfl (.inl rfl) (.inl rfl) ?_ ?_
    | (with_reducible apply Moves.foldl; intro _ _)
    | dsimp only
    | split

theorem State.moveTraffic_writes (s : State) (q p seq : Nat) :
    Moves [.link, .out] s (State.moveTraffic s q p seq) := by
  unfold State.moveTraffic
  repeat' first
    | with_reducible apply Moves.refl
    | assumption
    | ((with_reducible apply Within.mk); exact rfl)
    | with_reducible apply Moves.thenOp (State.mapPort_writes ..)
    | with_reducible apply Moves.thenOp (State.pumpAll_writes ..)
    | with_reducible apply Moves.ite
    | (with_reducible apply upd_parts <;> first | exact .inl rfl | exact .inr rfl)
    | simp only [Moves.mk_eq]
    | with_reducible refine MovesMk.upd rfl (.inl rfl) (.inl rfl) ?_ ?_
    | (with_reducible apply Moves.foldl; intro _ _)
    | dsimp only
    | split

theorem State.portDown_writes (s : State) (p : Nat) :
    Moves [.freeCount, .objs, .mem, .flash, .routes, .sched, .scn, .cairn, .summit, .content, .depot, .strands, .cache, .coh, .peers, .link, .hostMem, .host, .dram, .err, .mgmt, .out] s (State.portDown s p) := by
  unfold State.portDown
  repeat' first
    | with_reducible apply Moves.refl
    | assumption
    | ((with_reducible apply Within.mk); exact rfl)
    | with_reducible apply Moves.thenOp (State.declareDead_writes ..)
    | with_reducible apply Moves.thenOp (State.sendControl_writes ..)
    | with_reducible apply Moves.thenOp (State.setPort_writes ..)
    | with_reducible apply Moves.thenOp (State.moveTraffic_writes ..)
    | with_reducible apply Moves.ite
    | (with_reducible apply upd_parts <;> first | exact .inl rfl | exact .inr rfl)
    | simp only [Moves.mk_eq]
    | with_reducible refine MovesMk.upd rfl (.inl rfl) (.inl rfl) ?_ ?_
    | (with_reducible apply Moves.foldl; intro _ _)
    | dsimp only
    | split

theorem State.startRetrain_writes (s : State) (p : Nat) :
    Moves [.freeCount, .objs, .mem, .flash, .routes, .sched, .scn, .cairn, .summit, .content, .depot, .strands, .cache, .coh, .peers, .link, .hostMem, .host, .dram, .err, .mgmt, .out] s (State.startRetrain s p) := by
  unfold State.startRetrain
  repeat' first
    | with_reducible apply Moves.refl
    | assumption
    | ((with_reducible apply Within.mk); exact rfl)
    | with_reducible apply Moves.thenOp (State.emit_writes ..)
    | with_reducible apply Moves.thenOp (State.mapPort_writes ..)
    | with_reducible apply Moves.thenOp (State.oinc_writes ..)
    | with_reducible apply Moves.thenOp (State.portDown_writes ..)
    | with_reducible apply Moves.thenOp (State.sendControl_writes ..)
    | with_reducible apply Moves.thenOp (State.setPort_writes ..)
    | with_reducible apply Moves.ite
    | (with_reducible apply upd_parts <;> first | exact .inl rfl | exact .inr rfl)
    | simp only [Moves.mk_eq]
    | with_reducible refine MovesMk.upd rfl (.inl rfl) (.inl rfl) ?_ ?_
    | (with_reducible apply Moves.foldl; intro _ _)
    | dsimp only
    | split

theorem State.retrainDone_writes (s : State) (p : Nat) :
    Moves [.objs, .link, .err, .out] s (State.retrainDone s p) := by
  unfold State.retrainDone
  repeat' first
    | with_reducible apply Moves.refl
    | assumption
    | ((with_reducible apply Within.mk); exact rfl)
    | with_reducible apply Moves.thenOp (State.answerFlit_writes ..)
    | with_reducible apply Moves.thenOp (State.closeHandling_writes ..)
    | with_reducible apply Moves.thenOp (State.pumpAll_writes ..)
    | with_reducible apply Moves.thenOp (State.resendAll_writes ..)
    | with_reducible apply Moves.thenOp (State.setPort_writes ..)
    | with_reducible apply Moves.ite
    | (with_reducible apply upd_parts <;> first | exact .inl rfl | exact .inr rfl)
    | simp only [Moves.mk_eq]
    | with_reducible refine MovesMk.upd rfl (.inl rfl) (.inl rfl) ?_ ?_
    | (with_reducible apply Moves.foldl; intro _ _)
    | dsimp only
    | split

theorem State.noteLinkViolation_writes (s : State) (p : Nat) (cause : Nat) :
    Moves [.freeCount, .objs, .mem, .flash, .routes, .sched, .scn, .cairn, .summit, .content, .depot, .strands, .cache, .coh, .peers, .link, .hostMem, .host, .dram, .err, .mgmt, .out] s (State.noteLinkViolation s p cause) := by
  unfold State.noteLinkViolation
  repeat' first
    | with_reducible apply Moves.refl
    | assumption
    | ((with_reducible apply Within.mk); exact rfl)
    | with_reducible apply Moves.thenOp (State.mapPort_writes ..)
    | with_reducible apply Moves.thenOp (State.startRetrain_writes ..)
    | with_reducible apply Moves.ite
    | (with_reducible apply upd_parts <;> first | exact .inl rfl | exact .inr rfl)
    | simp only [Moves.mk_eq]
    | with_reducible refine MovesMk.upd rfl (.inl rfl) (.inl rfl) ?_ ?_
    | (with_reducible apply Moves.foldl; intro _ _)
    | dsimp only
    | split

theorem State.violationAt_writes (s : State) (p : Nat) (cause : Nat) (opcode : Nat) (seq : Nat) (src : Nat) :
    Moves [.freeCount, .objs, .mem, .flash, .routes, .sched, .scn, .cairn, .summit, .content, .depot, .strands, .cache, .coh, .peers, .link, .hostMem, .host, .dram, .err, .mgmt, .out] s (State.violationAt s p cause opcode seq src) := by
  unfold State.violationAt
  repeat' first
    | with_reducible apply Moves.refl
    | ((with_reducible apply Within.mk); exact rfl)
    | with_reducible apply Moves.thenOp (State.noteLinkViolation_writes ..)
    | with_reducible apply Moves.thenOp (State.violation_writes ..)

theorem State.trainPort_writes (s : State) (p : Nat) :
    Moves [.link, .out] s (State.trainPort s p) := by
  unfold State.trainPort
  repeat' first
    | with_reducible apply Moves.refl
    | assumption
    | ((with_reducible apply Within.mk); exact rfl)
    | with_reducible apply Moves.thenOp (State.emit_writes ..)
    | with_reducible apply Moves.thenOp (State.setPort_writes ..)
    | with_reducible apply Moves.ite
    | (with_reducible apply upd_parts <;> first | exact .inl rfl | exact .inr rfl)
    | simp only [Moves.mk_eq]
    | with_reducible refine MovesMk.upd rfl (.inl rfl) (.inl rfl) ?_ ?_
    | (with_reducible apply Moves.foldl; intro _ _)
    | dsimp only
    | split

theorem State.portEnable_writes (s : State) (p : Nat) :
    Moves [.link, .out] s (State.portEnable s p) := by
  unfold State.portEnable
  repeat' first
    | with_reducible apply Moves.refl
    | assumption
    | ((with_reducible apply Within.mk); exact rfl)
    | with_reducible apply Moves.thenOp (State.emit_writes ..)
    | with_reducible apply Moves.thenOp (State.setPort_writes ..)
    | with_reducible apply Moves.thenOp (State.trainPort_writes ..)
    | with_reducible apply Moves.ite
    | (with_reducible apply upd_parts <;> first | exact .inl rfl | exact .inr rfl)
    | simp only [Moves.mk_eq]
    | with_reducible refine MovesMk.upd rfl (.inl rfl) (.inl rfl) ?_ ?_
    | (with_reducible apply Moves.foldl; intro _ _)
    | dsimp only
    | split

theorem State.sendProbe_writes (s : State) (p : Nat) :
    Moves [.link, .out] s (State.sendProbe s p) := by
  unfold State.sendProbe
  repeat' first
    | with_reducible apply Moves.refl
    | assumption
    | ((with_reducible apply Within.mk); exact rfl)
    | with_reducible apply Moves.thenOp (State.mapPort_writes ..)
    | with_reducible apply Moves.thenOp (State.sendControl_writes ..)
    | with_reducible apply Moves.ite
    | (with_reducible apply upd_parts <;> first | exact .inl rfl | exact .inr rfl)
    | simp only [Moves.mk_eq]
    | with_reducible refine MovesMk.upd rfl (.inl rfl) (.inl rfl) ?_ ?_
    | (with_reducible apply Moves.foldl; intro _ _)
    | dsimp only
    | split

theorem State.lockDone_writes (s : State) (p : Nat) (lanes : Nat) :
    Moves [.freeCount, .objs, .mem, .flash, .routes, .sched, .scn, .cairn, .summit, .content, .depot, .strands, .cache, .coh, .peers, .link, .hostMem, .host, .dram, .err, .mgmt, .out] s (State.lockDone s p lanes) := by
  unfold State.lockDone
  repeat' first
    | with_reducible apply Moves.refl
    | assumption
    | ((with_reducible apply Within.mk); exact rfl)
    | with_reducible apply Moves.thenOp (State.emit_writes ..)
    | with_reducible apply Moves.thenOp (State.sendProbe_writes ..)
    | with_reducible apply Moves.thenOp (State.setPort_writes ..)
    | with_reducible apply Moves.thenOp (State.portDown_writes ..)
    | with_reducible apply Moves.ite
    | (with_reducible apply upd_parts <;> first | exact .inl rfl | exact .inr rfl)
    | simp only [Moves.mk_eq]
    | with_reducible refine MovesMk.upd rfl (.inl rfl) (.inl rfl) ?_ ?_
    | (with_reducible apply Moves.foldl; intro _ _)
    | dsimp only
    | split

theorem State.fecGood_writes (s : State) (p : Nat) :
    Moves [.link, .out] s (State.fecGood s p) := by
  unfold State.fecGood
  repeat' first
    | with_reducible apply Moves.refl
    | assumption
    | ((with_reducible apply Within.mk); exact rfl)
    | with_reducible apply Moves.thenOp (State.sendProbe_writes ..)
    | with_reducible apply Moves.thenOp (State.setPort_writes ..)
    | with_reducible apply Moves.ite
    | (with_reducible apply upd_parts <;> first | exact .inl rfl | exact .inr rfl)
    | simp only [Moves.mk_eq]
    | with_reducible refine MovesMk.upd rfl (.inl rfl) (.inl rfl) ?_ ?_
    | (with_reducible apply Moves.foldl; intro _ _)
    | dsimp only
    | split

theorem State.trainingTimeout_writes (s : State) (p : Nat) :
    Moves [.freeCount, .objs, .mem, .flash, .routes, .sched, .scn, .cairn, .summit, .content, .depot, .strands, .cache, .coh, .peers, .link, .hostMem, .host, .dram, .err, .mgmt, .out] s (State.trainingTimeout s p) := by
  unfold State.trainingTimeout
  repeat' first
    | with_reducible apply Moves.refl
    | ((with_reducible apply Within.mk); exact rfl)
    | with_reducible apply Moves.thenOp (State.portDown_writes ..)
    | with_reducible apply Moves.thenOp (State.raise_writes ..)
    | with_reducible apply Moves.ite

theorem State.takeEcho_writes (s : State) (p : Nat) (arg : Nat) (seq : Nat) :
    Moves [.freeCount, .objs, .mem, .flash, .routes, .sched, .scn, .cairn, .summit, .content, .depot, .strands, .cache, .coh, .peers, .link, .hostMem, .host, .dram, .err, .mgmt, .out] s (State.takeEcho s p arg seq) := by
  unfold State.takeEcho
  repeat' first
    | with_reducible apply Moves.refl
    | assumption
    | ((with_reducible apply Within.mk); exact rfl)
    | with_reducible apply Moves.thenOp (State.pumpAll_writes ..)
    | with_reducible apply Moves.thenOp (State.sendProbe_writes ..)
    | with_reducible apply Moves.thenOp (State.setPort_writes ..)
    | with_reducible apply Moves.thenOp (State.violationAt_writes ..)
    | with_reducible apply Moves.thenOp (State.answerFlit_writes ..)
    | with_reducible apply Moves.ite
    | (with_reducible apply upd_parts <;> first | exact .inl rfl | exact .inr rfl)
    | simp only [Moves.mk_eq]
    | with_reducible refine MovesMk.upd rfl (.inl rfl) (.inl rfl) ?_ ?_
    | (with_reducible apply Moves.foldl; intro _ _)
    | dsimp only
    | split

theorem State.narrow_writes (s : State) (p : Nat) (mask : Nat) :
    Moves [.objs, .link, .err, .mgmt, .out] s (State.narrow s p mask) := by
  unfold State.narrow
  repeat' first
    | with_reducible apply Moves.refl
    | assumption
    | ((with_reducible apply Within.mk); exact rfl)
    | with_reducible apply Moves.thenOp (State.corrected_writes ..)
    | with_reducible apply Moves.thenOp (State.mapPort_writes ..)
    | with_reducible apply Moves.thenOp (State.oinc_writes ..)
    | with_reducible apply Moves.ite
    | (with_reducible apply upd_parts <;> first | exact .inl rfl | exact .inr rfl)
    | simp only [Moves.mk_eq]
    | with_reducible refine MovesMk.upd rfl (.inl rfl) (.inl rfl) ?_ ?_
    | (with_reducible apply Moves.foldl; intro _ _)
    | dsimp only
    | split

theorem State.failLanes_writes (s : State) (p : Nat) (bad : Nat) :
    Moves [.freeCount, .objs, .mem, .flash, .routes, .sched, .scn, .cairn, .summit, .content, .depot, .strands, .cache, .coh, .peers, .link, .hostMem, .host, .dram, .err, .mgmt, .out] s (State.failLanes s p bad) := by
  unfold State.failLanes
  repeat' first
    | with_reducible apply Moves.refl
    | assumption
    | ((with_reducible apply Within.mk); exact rfl)
    | with_reducible apply Moves.thenOp (State.mapPort_writes ..)
    | with_reducible apply Moves.thenOp (State.narrow_writes ..)
    | with_reducible apply Moves.thenOp (State.sendControl_writes ..)
    | with_reducible apply Moves.thenOp (State.startRetrain_writes ..)
    | with_reducible apply Moves.ite
    | (with_reducible apply upd_parts <;> first | exact .inl rfl | exact .inr rfl)
    | simp only [Moves.mk_eq]
    | with_reducible refine MovesMk.upd rfl (.inl rfl) (.inl rfl) ?_ ?_
    | (with_reducible apply Moves.foldl; intro _ _)
    | dsimp only
    | split

theorem State.endRetrain_writes (s : State) (p lanes : Nat) :
    Moves [.freeCount, .objs, .mem, .flash, .routes, .sched, .scn, .cairn, .summit, .content, .depot, .strands, .cache, .coh, .peers, .link, .hostMem, .host, .dram, .err, .mgmt, .out] s (State.endRetrain s p lanes) := by
  unfold State.endRetrain
  repeat' first
    | with_reducible apply Moves.refl
    | assumption
    | ((with_reducible apply Within.mk); exact rfl)
    | with_reducible apply Moves.thenOp (State.failLanes_writes ..)
    | with_reducible apply Moves.thenOp (State.retrainDone_writes ..)
    | with_reducible apply Moves.ite
    | (with_reducible apply upd_parts <;> first | exact .inl rfl | exact .inr rfl)
    | simp only [Moves.mk_eq]
    | with_reducible refine MovesMk.upd rfl (.inl rfl) (.inl rfl) ?_ ?_
    | (with_reducible apply Moves.foldl; intro _ _)
    | dsimp only
    | split

theorem State.laneInterval_writes (s : State) (p : Nat) :
    Moves [.freeCount, .objs, .mem, .flash, .routes, .sched, .scn, .cairn, .summit, .content, .depot, .strands, .cache, .coh, .peers, .link, .hostMem, .host, .dram, .err, .mgmt, .out] s (State.laneInterval s p) := by
  unfold State.laneInterval
  repeat' first
    | with_reducible apply Moves.refl
    | assumption
    | ((with_reducible apply Within.mk); exact rfl)
    | with_reducible apply Moves.thenOp (State.failLanes_writes ..)
    | with_reducible apply Moves.thenOp (State.mapPort_writes ..)
    | with_reducible apply Moves.ite
    | (with_reducible apply upd_parts <;> first | exact .inl rfl | exact .inr rfl)
    | simp only [Moves.mk_eq]
    | with_reducible refine MovesMk.upd rfl (.inl rfl) (.inl rfl) ?_ ?_
    | (with_reducible apply Moves.foldl; intro _ _)
    | dsimp only
    | split

theorem State.takeWidth_writes (s : State) (p : Nat) (arg : Nat) :
    Moves [.objs, .link, .err, .mgmt, .out] s (State.takeWidth s p arg) := by
  unfold State.takeWidth
  repeat' first
    | with_reducible apply Moves.refl
    | ((with_reducible apply Within.mk); exact rfl)
    | with_reducible apply Moves.thenOp (State.narrow_writes ..)
    | with_reducible apply Moves.ite

theorem State.widthDone_writes (s : State) (p : Nat) :
    Moves [.objs, .link, .out] s (State.widthDone s p) := by
  unfold State.widthDone
  repeat' first
    | with_reducible apply Moves.refl
    | assumption
    | ((with_reducible apply Within.mk); exact rfl)
    | with_reducible apply Moves.thenOp (State.mapPort_writes ..)
    | with_reducible apply Moves.thenOp (State.pumpAll_writes ..)
    | with_reducible apply Moves.thenOp (State.resendAll_writes ..)
    | with_reducible apply Moves.thenOp (State.answerFlit_writes ..)
    | with_reducible apply Moves.ite
    | (with_reducible apply upd_parts <;> first | exact .inl rfl | exact .inr rfl)
    | simp only [Moves.mk_eq]
    | with_reducible refine MovesMk.upd rfl (.inl rfl) (.inl rfl) ?_ ?_
    | (with_reducible apply Moves.foldl; intro _ _)
    | dsimp only
    | split

theorem State.resendFrom_writes (s : State) (p : Nat) :
    Moves [.freeCount, .objs, .mem, .flash, .routes, .sched, .scn, .cairn, .summit, .content, .depot, .strands, .cache, .coh, .peers, .link, .hostMem, .host, .dram, .err, .mgmt, .out] s (State.resendFrom s p) := by
  unfold State.resendFrom
  repeat' first
    | with_reducible apply Moves.refl
    | assumption
    | ((with_reducible apply Within.mk); exact rfl)
    | with_reducible apply Moves.thenOp (State.mapPort_writes ..)
    | with_reducible apply Moves.thenOp (State.resendAll_writes ..)
    | with_reducible apply Moves.thenOp (State.startRetrain_writes ..)
    | with_reducible apply Moves.ite
    | (with_reducible apply upd_parts <;> first | exact .inl rfl | exact .inr rfl)
    | simp only [Moves.mk_eq]
    | with_reducible refine MovesMk.upd rfl (.inl rfl) (.inl rfl) ?_ ?_
    | (with_reducible apply Moves.foldl; intro _ _)
    | dsimp only
    | split

theorem State.takeAck__writes (s : State) (p : Nat) (h : FlitHdr) :
    Moves [.freeCount, .objs, .mem, .flash, .routes, .sched, .scn, .cairn, .summit, .content, .depot, .strands, .cache, .coh, .peers, .link, .hostMem, .host, .dram, .err, .mgmt, .out] s (State.takeAck_ s p h) := by
  unfold State.takeAck_
  repeat' first
    | with_reducible apply Moves.refl
    | assumption
    | ((with_reducible apply Within.mk); exact rfl)
    | with_reducible apply Moves.thenOp (State.resendFrom_writes ..)
    | with_reducible apply Moves.thenOp (State.setPort_writes ..)
    | with_reducible apply Moves.thenOp (State.violationAt_writes ..)
    | with_reducible apply Moves.ite
    | (with_reducible apply upd_parts <;> first | exact .inl rfl | exact .inr rfl)
    | simp only [Moves.mk_eq]
    | with_reducible refine MovesMk.upd rfl (.inl rfl) (.inl rfl) ?_ ?_
    | (with_reducible apply Moves.foldl; intro _ _)
    | dsimp only
    | split

theorem State.takeHeader_writes (s : State) (p : Nat) (h : FlitHdr) :
    Moves [.freeCount, .objs, .mem, .flash, .routes, .sched, .scn, .cairn, .summit, .content, .depot, .strands, .cache, .coh, .peers, .link, .hostMem, .host, .dram, .err, .mgmt, .out] s (State.takeHeader s p h) := by
  unfold State.takeHeader
  repeat' first
    | with_reducible apply Moves.refl
    | ((with_reducible apply Within.mk); exact rfl)
    | with_reducible apply Moves.thenOp (State.mapPort_writes ..)
    | with_reducible apply Moves.thenOp (State.pumpAll_writes ..)
    | with_reducible apply Moves.thenOp (State.takeAck__writes ..)

theorem State.takeLost_writes (s : State) (p : Nat) (seq : Nat) :
    Moves [.link, .out] s (State.takeLost s p seq) := by
  unfold State.takeLost
  repeat' first
    | with_reducible apply Moves.refl
    | assumption
    | ((with_reducible apply Within.mk); exact rfl)
    | with_reducible apply Moves.thenOp (State.mapPort_writes ..)
    | with_reducible apply Moves.thenOp (State.pumpAll_writes ..)
    | with_reducible apply Moves.thenOp (State.setPort_writes ..)
    | with_reducible apply Moves.thenOp (State.moveTraffic_writes ..)
    | with_reducible apply Moves.ite
    | (with_reducible apply upd_parts <;> first | exact .inl rfl | exact .inr rfl)
    | simp only [Moves.mk_eq]
    | with_reducible refine MovesMk.upd rfl (.inl rfl) (.inl rfl) ?_ ?_
    | (with_reducible apply Moves.foldl; intro _ _)
    | dsimp only
    | split

theorem State.takeControl_writes (s : State) (p : Nat) (h : FlitHdr) :
    Moves [.freeCount, .objs, .mem, .flash, .routes, .sched, .scn, .cairn, .summit, .content, .depot, .strands, .cache, .coh, .peers, .link, .hostMem, .host, .dram, .err, .mgmt, .out] s (State.takeControl s p h) := by
  unfold State.takeControl
  repeat' first
    | with_reducible apply Moves.refl
    | assumption
    | ((with_reducible apply Within.mk); exact rfl)
    | with_reducible apply Moves.thenOp (State.free_writes ..)
    | with_reducible apply Moves.thenOp (State.sendControl_writes ..)
    | with_reducible apply Moves.thenOp (State.startRetrain_writes ..)
    | with_reducible apply Moves.thenOp (State.takeEcho_writes ..)
    | with_reducible apply Moves.thenOp (State.takeHeader_writes ..)
    | with_reducible apply Moves.thenOp (State.takeLost_writes ..)
    | with_reducible apply Moves.thenOp (State.takeWidth_writes ..)
    | with_reducible apply Moves.thenOp (State.violationAt_writes ..)
    | with_reducible apply Moves.thenOp (State.fecGood_writes ..)
    | with_reducible apply Moves.ite
    | (with_reducible apply upd_parts <;> first | exact .inl rfl | exact .inr rfl)
    | simp only [Moves.mk_eq]
    | with_reducible refine MovesMk.upd rfl (.inl rfl) (.inl rfl) ?_ ?_
    | (with_reducible apply Moves.foldl; intro _ _)
    | dsimp only
    | split

theorem State.takeNak_writes (s : State) (p : Nat) (w : Nat) :
    Moves [.objs] s (State.takeNak s p w) := by
  unfold State.takeNak
  repeat' first
    | with_reducible apply Moves.refl
    | ((with_reducible apply Within.mk); exact rfl)
    | with_reducible apply Moves.thenOp (State.oinc_writes ..)
    | with_reducible apply Moves.ite

theorem State.takeMsg_writes (s : State) (p : Nat) (seq : Nat) (ws : List Nat) :
    Moves [.freeCount, .objs, .mem, .sys, .flash, .pitch, .routes, .sched, .scn, .cairn, .summit, .content, .depot, .strands, .cache, .coh, .peers, .link, .hostMem, .host, .dram, .err, .mgmt, .out] s (State.takeMsg s p seq ws) := by
  unfold State.takeMsg
  repeat' first
    | with_reducible apply Moves.refl
    | assumption
    | ((with_reducible apply Within.mk); exact rfl)
    | with_reducible apply Moves.thenOp (State.cohTake_writes ..)
    | with_reducible apply Moves.thenOp (State.dropCoh_writes ..)
    | with_reducible apply Moves.thenOp (State.takeHeartbeat_writes ..)
    | with_reducible apply Moves.thenOp (State.takeMarker_writes ..)
    | with_reducible apply Moves.thenOp (State.takeNak_writes ..)
    | with_reducible apply Moves.thenOp (State.violationAt_writes ..)
    | with_reducible refine Moves.trans ?_ (State.takeBelay_writes (Within.mk rfl) (fun _ _ => ?_))
    | with_reducible refine Moves.trans ?_ (State.takeSvc_writes (Within.mk rfl) (fun _ _ => ?_))
    | with_reducible apply Moves.ite
    | (with_reducible apply upd_parts <;> first | exact .inl rfl | exact .inr rfl)
    | simp only [Moves.mk_eq]
    | with_reducible refine MovesMk.upd rfl (.inl rfl) (.inl rfl) ?_ ?_
    | (with_reducible apply Moves.foldl; intro _ _)
    | dsimp only
    | split

theorem State.useCredit_writes (s : State) (p : Nat) (cls : Option Nat) :
    Moves [.link] s (State.useCredit s p cls) := by
  unfold State.useCredit
  repeat' first
    | with_reducible apply Moves.refl
    | assumption
    | ((with_reducible apply Within.mk); exact rfl)
    | with_reducible apply Moves.thenOp (State.mapPort_writes ..)
    | with_reducible apply Moves.ite
    | (with_reducible apply upd_parts <;> first | exact .inl rfl | exact .inr rfl)
    | simp only [Moves.mk_eq]
    | with_reducible refine MovesMk.upd rfl (.inl rfl) (.inl rfl) ?_ ?_
    | (with_reducible apply Moves.foldl; intro _ _)
    | dsimp only
    | split

theorem State.freeCredit_writes (s : State) (p : Nat) (cls : Option Nat) :
    Moves [.link] s (State.freeCredit s p cls) := by
  unfold State.freeCredit
  repeat' first
    | with_reducible apply Moves.refl
    | assumption
    | ((with_reducible apply Within.mk); exact rfl)
    | with_reducible apply Moves.thenOp (State.mapPort_writes ..)
    | with_reducible apply Moves.ite
    | (with_reducible apply upd_parts <;> first | exact .inl rfl | exact .inr rfl)
    | simp only [Moves.mk_eq]
    | with_reducible refine MovesMk.upd rfl (.inl rfl) (.inl rfl) ?_ ?_
    | (with_reducible apply Moves.foldl; intro _ _)
    | dsimp only
    | split

theorem State.consume_writes (s : State) (p : Nat) (seq : Nat) (ws : List Nat) :
    Moves [.freeCount, .objs, .mem, .sys, .flash, .pitch, .routes, .sched, .scn, .cairn, .summit, .content, .depot, .strands, .cache, .coh, .peers, .link, .hostMem, .host, .dram, .err, .mgmt, .out] s (State.consume s p seq ws) := by
  unfold State.consume
  repeat' first
    | with_reducible apply Moves.refl
    | ((with_reducible apply Within.mk); exact rfl)
    | with_reducible apply Moves.thenOp (State.freeCredit_writes ..)
    | with_reducible apply Moves.thenOp (State.takeMsg_writes ..)

theorem State.unknownOp_writes (s : State) (p seq op : Nat) :
    Moves [.freeCount, .objs, .mem, .flash, .routes, .sched, .scn, .cairn, .summit, .content, .depot, .strands, .cache, .coh, .peers, .link, .hostMem, .host, .dram, .err, .mgmt, .out] s (State.unknownOp s p seq op) := by
  unfold State.unknownOp
  repeat' first
    | with_reducible apply Moves.refl
    | assumption
    | ((with_reducible apply Within.mk); exact rfl)
    | with_reducible apply Moves.thenOp (State.dropCoh_writes ..)
    | with_reducible apply Moves.thenOp (State.violationAt_writes ..)
    | with_reducible apply Moves.ite
    | (with_reducible apply upd_parts <;> first | exact .inl rfl | exact .inr rfl)
    | simp only [Moves.mk_eq]
    | with_reducible refine MovesMk.upd rfl (.inl rfl) (.inl rfl) ?_ ?_
    | (with_reducible apply Moves.foldl; intro _ _)
    | dsimp only
    | split

theorem State.takeSlots_writes (s : State) (p : Nat) (seq : Nat) (x3 : Nat) (x4 : List Nat) :
    Moves [.freeCount, .objs, .mem, .sys, .flash, .pitch, .routes, .sched, .scn, .cairn, .summit, .content, .depot, .strands, .cache, .coh, .peers, .link, .hostMem, .host, .dram, .err, .mgmt, .out] s (State.takeSlots s p seq x3 x4) := by
  induction x4 generalizing s x3 with
  | nil =>
    unfold State.takeSlots
    repeat' (with_reducible apply Moves.refl)
  | cons a l ih =>
    cases x3
    all_goals unfold State.takeSlots
    all_goals try dsimp only
    all_goals repeat' first
      | with_reducible apply Moves.refl
      | ((with_reducible apply Within.mk); exact rfl)
      | with_reducible apply Moves.thenOp (State.consume_writes ..)
      | with_reducible apply Moves.thenOp (State.mapPort_writes ..)
      | with_reducible apply Moves.thenOp (State.useCredit_writes ..)
      | with_reducible apply Moves.thenOp (State.violationAt_writes ..)
      | with_reducible apply Moves.thenOp (State.unknownOp_writes ..)
      | with_reducible refine Moves.thenOp (ih ..) (Within.mk rfl) ?_
      | with_reducible apply Moves.ite
      | split

theorem State.askResend_writes (s : State) (p : Nat) :
    Moves [.link, .out] s (State.askResend s p) := by
  unfold State.askResend
  repeat' first
    | with_reducible apply Moves.refl
    | assumption
    | ((with_reducible apply Within.mk); exact rfl)
    | with_reducible apply Moves.thenOp (State.mapPort_writes ..)
    | with_reducible apply Moves.thenOp (State.sendControl_writes ..)
    | with_reducible apply Moves.thenOp (State.answerFlit_writes ..)
    | with_reducible apply Moves.ite
    | (with_reducible apply upd_parts <;> first | exact .inl rfl | exact .inr rfl)
    | simp only [Moves.mk_eq]
    | with_reducible refine MovesMk.upd rfl (.inl rfl) (.inl rfl) ?_ ?_
    | (with_reducible apply Moves.foldl; intro _ _)
    | dsimp only
    | split

theorem State.countCorrected_writes (s : State) (p : Nat) (fec : List Nat) :
    Moves [.objs, .link] s (State.countCorrected s p fec) := by
  unfold State.countCorrected
  repeat' first
    | with_reducible apply Moves.refl
    | assumption
    | ((with_reducible apply Within.mk); exact rfl)
    | with_reducible apply Moves.thenOp (State.mapPort_writes ..)
    | with_reducible apply Moves.thenOp (State.oinc_writes ..)
    | with_reducible apply Moves.ite
    | (with_reducible apply upd_parts <;> first | exact .inl rfl | exact .inr rfl)
    | simp only [Moves.mk_eq]
    | with_reducible refine MovesMk.upd rfl (.inl rfl) (.inl rfl) ?_ ?_
    | (with_reducible apply Moves.foldl; intro _ _)
    | dsimp only
    | split

theorem State.dropPartial_writes (s : State) (p : Nat) :
    Moves [.link] s (State.dropPartial s p) := by
  unfold State.dropPartial
  repeat' first
    | with_reducible apply Moves.refl
    | assumption
    | ((with_reducible apply Within.mk); exact rfl)
    | with_reducible apply Moves.thenOp (State.freeCredit_writes ..)
    | with_reducible apply Moves.thenOp (State.mapPort_writes ..)
    | with_reducible apply Moves.ite
    | (with_reducible apply upd_parts <;> first | exact .inl rfl | exact .inr rfl)
    | simp only [Moves.mk_eq]
    | with_reducible refine MovesMk.upd rfl (.inl rfl) (.inl rfl) ?_ ?_
    | (with_reducible apply Moves.foldl; intro _ _)
    | dsimp only
    | split

theorem State.dropFlit_writes (s : State) (p : Nat) (h : FlitHdr) (slots : List Nat) :
    Moves [.freeCount, .objs, .mem, .flash, .routes, .sched, .scn, .cairn, .summit, .content, .depot, .strands, .cache, .coh, .peers, .link, .hostMem, .host, .dram, .err, .mgmt, .out] s (State.dropFlit s p h slots) := by
  unfold State.dropFlit
  repeat' first
    | with_reducible apply Moves.refl
    | assumption
    | ((with_reducible apply Within.mk); exact rfl)
    | with_reducible apply Moves.thenOp (State.dropPartial_writes ..)
    | with_reducible apply Moves.thenOp (State.freeCredit_writes ..)
    | with_reducible apply Moves.thenOp (State.useCredit_writes ..)
    | with_reducible apply Moves.thenOp (State.violationAt_writes ..)
    | with_reducible apply Moves.ite
    | (with_reducible apply upd_parts <;> first | exact .inl rfl | exact .inr rfl)
    | simp only [Moves.mk_eq]
    | with_reducible refine MovesMk.upd rfl (.inl rfl) (.inl rfl) ?_ ?_
    | (with_reducible apply Moves.foldl; intro _ _)
    | dsimp only
    | split

theorem State.takeFlit_writes (s : State) (p : Nat) (h : FlitHdr) (slots : List Nat) :
    Moves [.freeCount, .objs, .mem, .sys, .flash, .pitch, .routes, .sched, .scn, .cairn, .summit, .content, .depot, .strands, .cache, .coh, .peers, .link, .hostMem, .host, .dram, .err, .mgmt, .out] s (State.takeFlit s p h slots) := by
  unfold State.takeFlit
  repeat' first
    | with_reducible apply Moves.refl
    | assumption
    | ((with_reducible apply Within.mk); exact rfl)
    | with_reducible apply Moves.thenOp (State.dropPartial_writes ..)
    | with_reducible apply Moves.thenOp (State.takeSlots_writes ..)
    | with_reducible apply Moves.thenOp (State.violationAt_writes ..)
    | with_reducible apply Moves.thenOp (State.dropFlit_writes ..)
    | with_reducible apply Moves.ite
    | (with_reducible apply upd_parts <;> first | exact .inl rfl | exact .inr rfl)
    | simp only [Moves.mk_eq]
    | with_reducible refine MovesMk.upd rfl (.inl rfl) (.inl rfl) ?_ ?_
    | (with_reducible apply Moves.foldl; intro _ _)
    | dsimp only
    | split

theorem State.goodFlit_writes (s : State) (p : Nat) (h : FlitHdr) (slots : List Nat) :
    Moves [.freeCount, .objs, .mem, .sys, .flash, .pitch, .routes, .sched, .scn, .cairn, .summit, .content, .depot, .strands, .cache, .coh, .peers, .link, .hostMem, .host, .dram, .err, .mgmt, .out] s (State.goodFlit s p h slots) := by
  unfold State.goodFlit
  repeat' first
    | with_reducible apply Moves.refl
    | assumption
    | ((with_reducible apply Within.mk); exact rfl)
    | with_reducible apply Moves.thenOp (State.answerFlit_writes ..)
    | with_reducible apply Moves.thenOp (State.askResend_writes ..)
    | with_reducible apply Moves.thenOp (State.dropFlit_writes ..)
    | with_reducible apply Moves.thenOp (State.mapPort_writes ..)
    | with_reducible apply Moves.thenOp (State.takeControl_writes ..)
    | with_reducible apply Moves.thenOp (State.takeFlit_writes ..)
    | with_reducible apply Moves.thenOp (State.takeHeader_writes ..)
    | with_reducible apply Moves.ite
    | (with_reducible apply upd_parts <;> first | exact .inl rfl | exact .inr rfl)
    | simp only [Moves.mk_eq]
    | with_reducible refine MovesMk.upd rfl (.inl rfl) (.inl rfl) ?_ ?_
    | (with_reducible apply Moves.foldl; intro _ _)
    | dsimp only
    | split

theorem State.badFlit_writes (s : State) (p : Nat) :
    Moves [.link, .out] s (State.badFlit s p) := by
  unfold State.badFlit
  repeat' first
    | with_reducible apply Moves.refl
    | assumption
    | ((with_reducible apply Within.mk); exact rfl)
    | with_reducible apply Moves.thenOp (State.askResend_writes ..)
    | with_reducible apply Moves.thenOp (State.mapPort_writes ..)
    | with_reducible apply Moves.ite
    | (with_reducible apply upd_parts <;> first | exact .inl rfl | exact .inr rfl)
    | simp only [Moves.mk_eq]
    | with_reducible refine MovesMk.upd rfl (.inl rfl) (.inl rfl) ?_ ?_
    | (with_reducible apply Moves.foldl; intro _ _)
    | dsimp only
    | split

theorem State.takePayload_writes (s : State) (p : Nat) (coded : List Byte) :
    Moves [.freeCount, .objs, .mem, .sys, .flash, .pitch, .routes, .sched, .scn, .cairn, .summit, .content, .depot, .strands, .cache, .coh, .peers, .link, .hostMem, .host, .dram, .err, .mgmt, .out] s (State.takePayload s p coded) := by
  unfold State.takePayload
  repeat' first
    | with_reducible apply Moves.refl
    | assumption
    | ((with_reducible apply Within.mk); exact rfl)
    | with_reducible apply Moves.thenOp (State.badFlit_writes ..)
    | with_reducible apply Moves.thenOp (State.countCorrected_writes ..)
    | with_reducible apply Moves.thenOp (State.goodFlit_writes ..)
    | with_reducible apply Moves.ite
    | (with_reducible apply upd_parts <;> first | exact .inl rfl | exact .inr rfl)
    | simp only [Moves.mk_eq]
    | with_reducible refine MovesMk.upd rfl (.inl rfl) (.inl rfl) ?_ ?_
    | (with_reducible apply Moves.foldl; intro _ _)
    | dsimp only
    | split

theorem State.arriveControl_writes (s : State) (p : Nat) (coded : List Byte) :
    Moves [.freeCount, .objs, .mem, .flash, .routes, .sched, .scn, .cairn, .summit, .content, .depot, .strands, .cache, .coh, .peers, .link, .hostMem, .host, .dram, .err, .mgmt, .out] s (State.arriveControl s p coded) := by
  unfold State.arriveControl
  repeat' first
    | with_reducible apply Moves.refl
    | assumption
    | ((with_reducible apply Within.mk); exact rfl)
    | with_reducible apply Moves.thenOp (State.badFlit_writes ..)
    | with_reducible apply Moves.thenOp (State.countCorrected_writes ..)
    | with_reducible apply Moves.thenOp (State.takeControl_writes ..)
    | with_reducible apply Moves.ite
    | (with_reducible apply upd_parts <;> first | exact .inl rfl | exact .inr rfl)
    | simp only [Moves.mk_eq]
    | with_reducible refine MovesMk.upd rfl (.inl rfl) (.inl rfl) ?_ ?_
    | (with_reducible apply Moves.foldl; intro _ _)
    | dsimp only
    | split

theorem execPortEnable_writes (p : Nat) (s : State) :
    ResAll (fun t => Moves [.link, .out] s t) (execPortEnable p s) := by
  unfold execPortEnable
  repeat' first
    | with_reducible apply Moves.refl
    | ((with_reducible apply Within.mk); exact rfl)
    | with_reducible apply Moves.thenOp (State.portEnable_writes ..)
    | with_reducible apply ResAll.next'

theorem execLockAndEqualise_writes (p : Nat) (lanes : Nat) (s : State) :
    ResAll (fun t => Moves [.freeCount, .objs, .mem, .flash, .routes, .sched, .scn, .cairn, .summit, .content, .depot, .strands, .cache, .coh, .peers, .link, .hostMem, .host, .dram, .err, .mgmt, .out] s t) (execLockAndEqualise p lanes s) := by
  unfold execLockAndEqualise
  repeat' first
    | with_reducible apply Moves.refl
    | ((with_reducible apply Within.mk); exact rfl)
    | with_reducible apply Moves.thenOp (State.lockDone_writes ..)
    | with_reducible apply ResAll.next'

theorem execTrainingTimeout_writes (p : Nat) (s : State) :
    ResAll (fun t => Moves [.freeCount, .objs, .mem, .flash, .routes, .sched, .scn, .cairn, .summit, .content, .depot, .strands, .cache, .coh, .peers, .link, .hostMem, .host, .dram, .err, .mgmt, .out] s t) (execTrainingTimeout p s) := by
  unfold execTrainingTimeout
  repeat' first
    | with_reducible apply Moves.refl
    | ((with_reducible apply Within.mk); exact rfl)
    | with_reducible apply Moves.thenOp (State.trainingTimeout_writes ..)
    | with_reducible apply ResAll.next'

theorem execPayloadFlit_writes (p : Nat) (flit parity : List Byte) (s : State) :
    ResAll (fun u => Moves [.freeCount, .objs, .mem, .sys, .flash, .pitch, .routes, .sched, .scn, .cairn, .summit, .content, .depot, .strands, .cache, .coh, .peers, .link, .hostMem, .host, .dram, .err, .mgmt, .out] s u) (execPayloadFlit p flit parity s) := by
  unfold execPayloadFlit
  repeat' first
    | with_reducible apply Moves.refl
    | assumption
    | ((with_reducible apply Within.mk); exact rfl)
    | with_reducible apply Moves.thenOp (State.takePayload_writes ..)
    | with_reducible apply ResAll.next'
    | with_reducible apply ResAll.ite
    | with_reducible apply Moves.ite
    | (with_reducible apply upd_parts <;> first | exact .inl rfl | exact .inr rfl)
    | simp only [Moves.mk_eq]
    | with_reducible refine MovesMk.upd rfl (.inl rfl) (.inl rfl) ?_ ?_
    | (with_reducible apply Moves.foldl; intro _ _)
    | dsimp only
    | split

theorem execLinkIdle_writes (p : Nat) (coded : List Byte) (s : State) :
    ResAll (fun t => Moves [.freeCount, .objs, .mem, .flash, .routes, .sched, .scn, .cairn, .summit, .content, .depot, .strands, .cache, .coh, .peers, .link, .hostMem, .host, .dram, .err, .mgmt, .out] s t) (execLinkIdle p coded s) := by
  unfold execLinkIdle
  repeat' first
    | with_reducible apply Moves.refl
    | assumption
    | ((with_reducible apply Within.mk); exact rfl)
    | with_reducible apply Moves.thenOp (State.takeControl_writes ..)
    | with_reducible apply Moves.thenOp (State.arriveControl_writes ..)
    | with_reducible apply ResAll.next'
    | with_reducible apply ResAll.ite
    | with_reducible apply Moves.ite
    | (with_reducible apply upd_parts <;> first | exact .inl rfl | exact .inr rfl)
    | simp only [Moves.mk_eq]
    | with_reducible refine MovesMk.upd rfl (.inl rfl) (.inl rfl) ?_ ?_
    | (with_reducible apply Moves.foldl; intro _ _)
    | dsimp only
    | split

theorem execWidthChange_writes (p : Nat) (coded : List Byte) (s : State) :
    ResAll (fun t => Moves [.freeCount, .objs, .mem, .flash, .routes, .sched, .scn, .cairn, .summit, .content, .depot, .strands, .cache, .coh, .peers, .link, .hostMem, .host, .dram, .err, .mgmt, .out] s t) (execWidthChange p coded s) := by
  unfold execWidthChange
  repeat' first
    | with_reducible apply Moves.refl
    | assumption
    | ((with_reducible apply Within.mk); exact rfl)
    | with_reducible apply Moves.thenOp (State.takeControl_writes ..)
    | with_reducible apply Moves.thenOp (State.arriveControl_writes ..)
    | with_reducible apply ResAll.next'
    | with_reducible apply ResAll.ite
    | with_reducible apply Moves.ite
    | (with_reducible apply upd_parts <;> first | exact .inl rfl | exact .inr rfl)
    | simp only [Moves.mk_eq]
    | with_reducible refine MovesMk.upd rfl (.inl rfl) (.inl rfl) ?_ ?_
    | (with_reducible apply Moves.foldl; intro _ _)
    | dsimp only
    | split

theorem execRetrain_writes (p : Nat) (coded : List Byte) (s : State) :
    ResAll (fun t => Moves [.freeCount, .objs, .mem, .flash, .routes, .sched, .scn, .cairn, .summit, .content, .depot, .strands, .cache, .coh, .peers, .link, .hostMem, .host, .dram, .err, .mgmt, .out] s t) (execRetrain p coded s) := by
  unfold execRetrain
  repeat' first
    | with_reducible apply Moves.refl
    | assumption
    | ((with_reducible apply Within.mk); exact rfl)
    | with_reducible apply Moves.thenOp (State.takeControl_writes ..)
    | with_reducible apply Moves.thenOp (State.arriveControl_writes ..)
    | with_reducible apply ResAll.next'
    | with_reducible apply ResAll.ite
    | with_reducible apply Moves.ite
    | (with_reducible apply upd_parts <;> first | exact .inl rfl | exact .inr rfl)
    | simp only [Moves.mk_eq]
    | with_reducible refine MovesMk.upd rfl (.inl rfl) (.inl rfl) ?_ ?_
    | (with_reducible apply Moves.foldl; intro _ _)
    | dsimp only
    | split

theorem execLatencyProbe_writes (p : Nat) (coded : List Byte) (s : State) :
    ResAll (fun t => Moves [.freeCount, .objs, .mem, .flash, .routes, .sched, .scn, .cairn, .summit, .content, .depot, .strands, .cache, .coh, .peers, .link, .hostMem, .host, .dram, .err, .mgmt, .out] s t) (execLatencyProbe p coded s) := by
  unfold execLatencyProbe
  repeat' first
    | with_reducible apply Moves.refl
    | assumption
    | ((with_reducible apply Within.mk); exact rfl)
    | with_reducible apply Moves.thenOp (State.takeControl_writes ..)
    | with_reducible apply Moves.thenOp (State.arriveControl_writes ..)
    | with_reducible apply ResAll.next'
    | with_reducible apply ResAll.ite
    | with_reducible apply Moves.ite
    | (with_reducible apply upd_parts <;> first | exact .inl rfl | exact .inr rfl)
    | simp only [Moves.mk_eq]
    | with_reducible refine MovesMk.upd rfl (.inl rfl) (.inl rfl) ?_ ?_
    | (with_reducible apply Moves.foldl; intro _ _)
    | dsimp only
    | split

theorem execLatencyEcho_writes (p : Nat) (coded : List Byte) (s : State) :
    ResAll (fun t => Moves [.freeCount, .objs, .mem, .flash, .routes, .sched, .scn, .cairn, .summit, .content, .depot, .strands, .cache, .coh, .peers, .link, .hostMem, .host, .dram, .err, .mgmt, .out] s t) (execLatencyEcho p coded s) := by
  unfold execLatencyEcho
  repeat' first
    | with_reducible apply Moves.refl
    | assumption
    | ((with_reducible apply Within.mk); exact rfl)
    | with_reducible apply Moves.thenOp (State.takeControl_writes ..)
    | with_reducible apply Moves.thenOp (State.arriveControl_writes ..)
    | with_reducible apply ResAll.next'
    | with_reducible apply ResAll.ite
    | with_reducible apply Moves.ite
    | (with_reducible apply upd_parts <;> first | exact .inl rfl | exact .inr rfl)
    | simp only [Moves.mk_eq]
    | with_reducible refine MovesMk.upd rfl (.inl rfl) (.inl rfl) ?_ ?_
    | (with_reducible apply Moves.foldl; intro _ _)
    | dsimp only
    | split

theorem execPortLost_writes (p : Nat) (coded : List Byte) (s : State) :
    ResAll (fun t => Moves [.freeCount, .objs, .mem, .flash, .routes, .sched, .scn, .cairn, .summit, .content, .depot, .strands, .cache, .coh, .peers, .link, .hostMem, .host, .dram, .err, .mgmt, .out] s t) (execPortLost p coded s) := by
  unfold execPortLost
  repeat' first
    | with_reducible apply Moves.refl
    | assumption
    | ((with_reducible apply Within.mk); exact rfl)
    | with_reducible apply Moves.thenOp (State.takeControl_writes ..)
    | with_reducible apply Moves.thenOp (State.arriveControl_writes ..)
    | with_reducible apply ResAll.next'
    | with_reducible apply ResAll.ite
    | with_reducible apply Moves.ite
    | (with_reducible apply upd_parts <;> first | exact .inl rfl | exact .inr rfl)
    | simp only [Moves.mk_eq]
    | with_reducible refine MovesMk.upd rfl (.inl rfl) (.inl rfl) ?_ ?_
    | (with_reducible apply Moves.foldl; intro _ _)
    | dsimp only
    | split

theorem execFlitReplayTimeout_writes (p : Nat) (s : State) :
    ResAll (fun t => Moves [.freeCount, .objs, .mem, .flash, .routes, .sched, .scn, .cairn, .summit, .content, .depot, .strands, .cache, .coh, .peers, .link, .hostMem, .host, .dram, .err, .mgmt, .out] s t) (execFlitReplayTimeout p s) := by
  unfold execFlitReplayTimeout
  repeat' first
    | with_reducible apply Moves.refl
    | assumption
    | ((with_reducible apply Within.mk); exact rfl)
    | with_reducible apply Moves.thenOp (State.resendFrom_writes ..)
    | with_reducible apply ResAll.next'
    | with_reducible apply ResAll.ite
    | with_reducible apply Moves.ite
    | (with_reducible apply upd_parts <;> first | exact .inl rfl | exact .inr rfl)
    | simp only [Moves.mk_eq]
    | with_reducible refine MovesMk.upd rfl (.inl rfl) (.inl rfl) ?_ ?_
    | (with_reducible apply Moves.foldl; intro _ _)
    | dsimp only
    | split

theorem execLaneLockLost_writes (p : Nat) (lane : Nat) (s : State) :
    ResAll (fun t => Moves [.freeCount, .objs, .mem, .flash, .routes, .sched, .scn, .cairn, .summit, .content, .depot, .strands, .cache, .coh, .peers, .link, .hostMem, .host, .dram, .err, .mgmt, .out] s t) (execLaneLockLost p lane s) := by
  unfold execLaneLockLost
  repeat' first
    | with_reducible apply Moves.refl
    | ((with_reducible apply Within.mk); exact rfl)
    | with_reducible apply Moves.thenOp (State.failLanes_writes ..)
    | with_reducible apply ResAll.next'

theorem execLaneErrorInterval_writes (p : Nat) (s : State) :
    ResAll (fun t => Moves [.freeCount, .objs, .mem, .flash, .routes, .sched, .scn, .cairn, .summit, .content, .depot, .strands, .cache, .coh, .peers, .link, .hostMem, .host, .dram, .err, .mgmt, .out] s t) (execLaneErrorInterval p s) := by
  unfold execLaneErrorInterval
  repeat' first
    | with_reducible apply Moves.refl
    | ((with_reducible apply Within.mk); exact rfl)
    | with_reducible apply Moves.thenOp (State.laneInterval_writes ..)
    | with_reducible apply ResAll.next'

theorem execWidthSwitchDone_writes (p : Nat) (s : State) :
    ResAll (fun t => Moves [.objs, .link, .out] s t) (execWidthSwitchDone p s) := by
  unfold execWidthSwitchDone
  repeat' first
    | with_reducible apply Moves.refl
    | ((with_reducible apply Within.mk); exact rfl)
    | with_reducible apply Moves.thenOp (State.widthDone_writes ..)
    | with_reducible apply ResAll.next'

theorem execRetrainCmd_writes (p : Nat) (s : State) :
    ResAll (fun t => Moves [.freeCount, .objs, .mem, .flash, .routes, .sched, .scn, .cairn, .summit, .content, .depot, .strands, .cache, .coh, .peers, .link, .hostMem, .host, .dram, .err, .mgmt, .out] s t) (execRetrainCmd p s) := by
  unfold execRetrainCmd
  repeat' first
    | with_reducible apply Moves.refl
    | ((with_reducible apply Within.mk); exact rfl)
    | with_reducible apply Moves.thenOp (State.startRetrain_writes ..)
    | with_reducible apply ResAll.next'

theorem execRetrainDone_writes (p lanes : Nat) (s : State) :
    ResAll (fun u => Moves [.freeCount, .objs, .mem, .flash, .routes, .sched, .scn, .cairn, .summit, .content, .depot, .strands, .cache, .coh, .peers, .link, .hostMem, .host, .dram, .err, .mgmt, .out] s u) (execRetrainDone p lanes s) := by
  unfold execRetrainDone
  repeat' first
    | with_reducible apply Moves.refl
    | assumption
    | ((with_reducible apply Within.mk); exact rfl)
    | with_reducible apply Moves.thenOp (State.endRetrain_writes ..)
    | with_reducible apply ResAll.next'
    | with_reducible apply ResAll.ite
    | with_reducible apply Moves.ite
    | (with_reducible apply upd_parts <;> first | exact .inl rfl | exact .inr rfl)
    | simp only [Moves.mk_eq]
    | with_reducible refine MovesMk.upd rfl (.inl rfl) (.inl rfl) ?_ ?_
    | (with_reducible apply Moves.foldl; intro _ _)
    | dsimp only
    | split

theorem execLinkNak_writes (p : Nat) (slot : Nat) (s : State) :
    ResAll (fun t => Moves [.objs] s t) (execLinkNak p slot s) := by
  unfold execLinkNak
  repeat' first
    | with_reducible apply Moves.refl
    | ((with_reducible apply Within.mk); exact rfl)
    | with_reducible apply Moves.thenOp (State.takeNak_writes ..)
    | with_reducible apply ResAll.next'

/-! ## HostPort -/

theorem State.setPerst_writes (s : State) (h : Nat) (high : Bool) :
    Moves [.sys] s (State.setPerst s h high) := by
  unfold State.setPerst
  repeat' first
    | with_reducible apply Moves.refl
    | assumption
    | ((with_reducible apply Within.mk); exact rfl)
    | with_reducible apply Moves.ite
    | (with_reducible apply upd_parts <;> first | exact .inl rfl | exact .inr rfl)
    | simp only [Moves.mk_eq]
    | with_reducible refine MovesMk.upd rfl (.inl rfl) (.inl rfl) ?_ ?_
    | (with_reducible apply Moves.foldl; intro _ _)
    | dsimp only
    | split

theorem State.trainHost_writes (s : State) (h : Nat) :
    Moves [.host, .out] s (State.trainHost s h) := by
  unfold State.trainHost
  repeat' first
    | with_reducible apply Moves.refl
    | assumption
    | ((with_reducible apply Within.mk); exact rfl)
    | with_reducible apply Moves.thenOp (State.emit_writes ..)
    | with_reducible apply Moves.ite
    | (with_reducible apply upd_parts <;> first | exact .inl rfl | exact .inr rfl)
    | simp only [Moves.mk_eq]
    | with_reducible refine MovesMk.upd rfl (.inl rfl) (.inl rfl) ?_ ?_
    | (with_reducible apply Moves.foldl; intro _ _)
    | dsimp only
    | split

theorem State.dropCxl_writes (s : State) :
    Moves [.coh] s (State.dropCxl s) := by
  unfold State.dropCxl
  repeat' first
    | with_reducible apply Moves.refl
    | assumption
    | ((with_reducible apply Within.mk); exact rfl)
    | with_reducible apply Moves.ite
    | (with_reducible apply upd_parts <;> first | exact .inl rfl | exact .inr rfl)
    | simp only [Moves.mk_eq]
    | with_reducible refine MovesMk.upd rfl (.inl rfl) (.inl rfl) ?_ ?_
    | (with_reducible apply Moves.foldl; intro _ _)
    | dsimp only
    | split

theorem State.hostPortReset_writes (s : State) (h : Nat) :
    Moves [.objs, .sys, .routes, .sched, .cairn, .content, .depot, .coh, .link, .hostMem, .host, .eng, .err, .mgmt, .out] s (State.hostPortReset s h) := by
  unfold State.hostPortReset
  repeat' first
    | with_reducible apply Moves.refl
    | assumption
    | ((with_reducible apply Within.mk); exact rfl)
    | with_reducible apply Moves.thenOp (State.dropCxl_writes ..)
    | with_reducible apply Moves.thenOp (State.setPerst_writes ..)
    | with_reducible apply Moves.thenOp (State.startReset_writes ..)
    | with_reducible apply Moves.ite
    | (with_reducible apply upd_parts <;> first | exact .inl rfl | exact .inr rfl)
    | simp only [Moves.mk_eq]
    | with_reducible refine MovesMk.upd rfl (.inl rfl) (.inl rfl) ?_ ?_
    | (with_reducible apply Moves.foldl; intro _ _)
    | dsimp only
    | split

theorem State.perstRelease_writes (s : State) (h : Nat) :
    Moves [.sys, .host, .out] s (State.perstRelease s h) := by
  unfold State.perstRelease
  repeat' first
    | with_reducible apply Moves.refl
    | assumption
    | ((with_reducible apply Within.mk); exact rfl)
    | with_reducible apply Moves.thenOp (State.setPerst_writes ..)
    | with_reducible apply Moves.thenOp (State.trainHost_writes ..)
    | with_reducible apply Moves.ite
    | (with_reducible apply upd_parts <;> first | exact .inl rfl | exact .inr rfl)
    | simp only [Moves.mk_eq]
    | with_reducible refine MovesMk.upd rfl (.inl rfl) (.inl rfl) ?_ ?_
    | (with_reducible apply Moves.foldl; intro _ _)
    | dsimp only
    | split

theorem execHostPortReset_writes (h : Nat) (s : State) :
    ResAll (fun t => Moves [.objs, .sys, .routes, .sched, .cairn, .content, .depot, .coh, .link, .hostMem, .host, .eng, .err, .mgmt, .out] s t) (execHostPortReset h s) := by
  unfold execHostPortReset
  repeat' first
    | with_reducible apply Moves.refl
    | ((with_reducible apply Within.mk); exact rfl)
    | with_reducible apply Moves.thenOp (State.hostPortReset_writes ..)
    | with_reducible apply ResAll.next'

theorem execPerstNRelease_writes (h : Nat) (s : State) :
    ResAll (fun t => Moves [.sys, .host, .out] s t) (execPerstNRelease h s) := by
  unfold execPerstNRelease
  repeat' first
    | with_reducible apply Moves.refl
    | ((with_reducible apply Within.mk); exact rfl)
    | with_reducible apply Moves.thenOp (State.perstRelease_writes ..)
    | with_reducible apply ResAll.next'

theorem execMalformedTlp_writes (h : Nat) (k : Nat) (s : State) :
    ResAll (fun t => Moves [.objs, .err, .mgmt, .out] s t) (execMalformedTlp h k s) := by
  unfold execMalformedTlp
  repeat' first
    | with_reducible apply Moves.refl
    | ((with_reducible apply Within.mk); exact rfl)
    | with_reducible apply Moves.thenOp (State.corrected_writes ..)
    | with_reducible apply Moves.thenOp (State.emit_writes ..)
    | with_reducible apply Moves.thenOp (State.hostViolation_writes ..)
    | with_reducible apply ResAll.next'

theorem State.hostFails_writes (s : State) (t : Nat) (a : Nat) (n : Nat) (status : Nat) :
    Moves [.objs, .host] s (State.hostFails s t a n status) := by
  unfold State.hostFails
  repeat' first
    | with_reducible apply Moves.refl
    | assumption
    | ((with_reducible apply Within.mk); exact rfl)
    | with_reducible apply Moves.thenOp (State.hostViolation_writes ..)
    | with_reducible apply Moves.ite
    | (with_reducible apply upd_parts <;> first | exact .inl rfl | exact .inr rfl)
    | simp only [Moves.mk_eq]
    | with_reducible refine MovesMk.upd rfl (.inl rfl) (.inl rfl) ?_ ?_
    | (with_reducible apply Moves.foldl; intro _ _)
    | dsimp only
    | split

theorem State.hostCompletion_writes (s : State) (t : Nat) (a : Nat) (r : HostReadResult) :
    Moves [.objs, .hostMem, .host] s (State.hostCompletion s t a r) := by
  unfold State.hostCompletion
  repeat' first
    | with_reducible apply Moves.refl
    | assumption
    | ((with_reducible apply Within.mk); exact rfl)
    | exact .inl rfl
    | with_reducible refine MovesMk.upd rfl ?_ ?_ ?_ ?_
    | exact .inr (fun h => Memory.wf_writeN _ _ h)
    | with_reducible apply Moves.thenOp (State.hostFails_writes ..)
    | with_reducible apply Moves.ite
    | (with_reducible apply upd_parts <;> first | exact .inl rfl | exact .inr rfl)
    | simp only [Moves.mk_eq]
    | with_reducible refine MovesMk.upd rfl (.inl rfl) (.inl rfl) ?_ ?_
    | (with_reducible apply Moves.foldl; intro _ _)
    | dsimp only
    | split

theorem execHostReadCompletion_writes (t : Nat) (a : Nat) (r : HostReadResult) (s : State) :
    ResAll (fun t => Moves [.objs, .hostMem, .host] s t) (execHostReadCompletion t a r s) := by
  unfold execHostReadCompletion
  repeat' first
    | with_reducible apply Moves.refl
    | ((with_reducible apply Within.mk); exact rfl)
    | with_reducible apply Moves.thenOp (State.hostCompletion_writes ..)
    | with_reducible apply ResAll.next'

theorem State.cxlRecord_writes (s : State) (a : Nat) :
    Moves [.objs, .host, .err, .mgmt, .out] s (State.cxlRecord s a) := by
  unfold State.cxlRecord
  repeat' first
    | with_reducible apply Moves.refl
    | assumption
    | ((with_reducible apply Within.mk); exact rfl)
    | with_reducible apply Moves.thenOp (State.raise_writes ..)
    | with_reducible apply Moves.ite
    | (with_reducible apply upd_parts <;> first | exact .inl rfl | exact .inr rfl)
    | simp only [Moves.mk_eq]
    | with_reducible refine MovesMk.upd rfl (.inl rfl) (.inl rfl) ?_ ?_
    | (with_reducible apply Moves.foldl; intro _ _)
    | dsimp only
    | split

theorem State.cxlRequest_writes (s : State) (a : Nat) (write : Option (Nat × List Byte)) :
    Moves [.objs, .coh, .link, .host, .err, .mgmt, .out] s (State.cxlRequest s a write) := by
  unfold State.cxlRequest
  repeat' first
    | with_reducible apply Moves.refl
    | assumption
    | ((with_reducible apply Within.mk); exact rfl)
    | with_reducible apply Moves.thenOp (State.cxlRecord_writes ..)
    | with_reducible apply Moves.thenOp (State.emit_writes ..)
    | with_reducible apply Moves.thenOp (State.request_writes ..)
    | with_reducible apply Moves.ite
    | (with_reducible apply upd_parts <;> first | exact .inl rfl | exact .inr rfl)
    | simp only [Moves.mk_eq]
    | with_reducible refine MovesMk.upd rfl (.inl rfl) (.inl rfl) ?_ ?_
    | (with_reducible apply Moves.foldl; intro _ _)
    | dsimp only
    | split

theorem execCxlMemRead_writes (a : Nat) (s : State) :
    ResAll (fun t => Moves [.objs, .coh, .link, .host, .err, .mgmt, .out] s t) (execCxlMemRead a s) := by
  unfold execCxlMemRead
  repeat' first
    | with_reducible apply Moves.refl
    | ((with_reducible apply Within.mk); exact rfl)
    | with_reducible apply Moves.thenOp (State.cxlRequest_writes ..)
    | with_reducible apply ResAll.next'

theorem execCxlMemWrite_writes (a : Nat) (d : List Byte) (s : State) :
    ResAll (fun t => Moves [.objs, .coh, .link, .host, .err, .mgmt, .out] s t) (execCxlMemWrite a d s) := by
  unfold execCxlMemWrite
  repeat' first
    | with_reducible apply Moves.refl
    | ((with_reducible apply Within.mk); exact rfl)
    | with_reducible apply Moves.thenOp (State.cxlRequest_writes ..)
    | with_reducible apply ResAll.next'

theorem execCxlMemPartialWrite_writes (a : Nat) (mask : Nat) (d : List Byte) (s : State) :
    ResAll (fun t => Moves [.objs, .coh, .link, .host, .err, .mgmt, .out] s t) (execCxlMemPartialWrite a mask d s) := by
  unfold execCxlMemPartialWrite
  repeat' first
    | with_reducible apply Moves.refl
    | ((with_reducible apply Within.mk); exact rfl)
    | with_reducible apply Moves.thenOp (State.cxlRequest_writes ..)
    | with_reducible apply ResAll.next'

theorem execMemspecrd_writes (x0 : Nat) (s : State) :
    ResAll (fun t => Moves [] s t) (execMemspecrd x0 s) := by
  unfold execMemspecrd
  repeat' first
    | with_reducible apply Moves.refl
    | with_reducible apply ResAll.next'

theorem execCxlOtherM2s_writes (expectsData : Bool) (s : State) :
    ResAll (fun t => Moves [.objs, .err, .mgmt, .out] s t) (execCxlOtherM2s expectsData s) := by
  unfold execCxlOtherM2s
  repeat' first
    | with_reducible apply Moves.refl
    | ((with_reducible apply Within.mk); exact rfl)
    | with_reducible apply Moves.thenOp (State.corrected_writes ..)
    | with_reducible apply Moves.thenOp (State.emit_writes ..)
    | with_reducible apply Moves.thenOp (State.hostViolation_writes ..)
    | with_reducible apply ResAll.next'
    | with_reducible apply Moves.ite

end Sys2Proof.Machine
end

