-- ==== Sys2Proof/Laws/FrameStart.lean ====
section
/-! SUPPORT. What each function may write: formation, start-up, sweeps and object writes. -/

set_option Elab.async false
set_option linter.all false
namespace Sys2Proof.Machine
open Sys2Proof

/-! ## Forming -/

theorem State.zeroHbm_writes (s : State) :
    Moves [.dram] s (State.zeroHbm s) := by
  unfold State.zeroHbm
  repeat' first
    | with_reducible apply Moves.refl
    | assumption
    | ((with_reducible apply Within.mk); exact rfl)
    | with_reducible apply Moves.ite
    | (with_reducible apply upd_parts <;> first | exact .inl rfl | exact .inr rfl)
    | simp only [Moves.mk_eq]
    | with_reducible refine MovesMk.upd rfl (.inl rfl) (.inl rfl) ?_ ?_
    | (with_reducible apply Moves.foldl; intro _ _)
    | dsimp only
    | split

theorem State.renumber_writes (s : State) (id : Nat) :
    Moves [.objs, .sys, .depot, .cache, .coh, .link, .dram, .out] s (State.renumber s id) := by
  unfold State.renumber
  repeat' first
    | with_reducible apply Moves.refl
    | assumption
    | ((with_reducible apply Within.mk); exact rfl)
    | (with_reducible apply upd_parts <;> first | exact .inl rfl | (refine .inr ?_; unfold CohSt.withPeers; with_reducible rfl) | exact .inr rfl)
    | with_reducible apply Moves.thenOp (State.sweepL2_writes ..)
    | with_reducible apply Moves.thenOp (State.sweepSlc_writes ..)
    | with_reducible apply Moves.ite
    | (with_reducible apply upd_parts <;> first | exact .inl rfl | exact .inr rfl)
    | simp only [Moves.mk_eq]
    | with_reducible refine MovesMk.upd rfl (.inl rfl) (.inl rfl) ?_ ?_
    | (with_reducible apply Moves.foldl; intro _ _)
    | dsimp only
    | split

theorem State.enablePorts_writes (s : State) :
    Moves [.link, .out] s (State.enablePorts s) := by
  unfold State.enablePorts
  repeat' first
    | with_reducible apply Moves.refl
    | assumption
    | ((with_reducible apply Within.mk); exact rfl)
    | with_reducible apply Moves.thenOp (State.portEnable_writes ..)
    | with_reducible apply Moves.thenOp (State.trainPort_writes ..)
    | with_reducible apply Moves.ite
    | (with_reducible apply upd_parts <;> first | exact .inl rfl | exact .inr rfl)
    | simp only [Moves.mk_eq]
    | with_reducible refine MovesMk.upd rfl (.inl rfl) (.inl rfl) ?_ ?_
    | (with_reducible apply Moves.foldl; intro _ _)
    | dsimp only
    | split

theorem State.startForming_writes (s : State) (count : Nat) (id : Nat) :
    Moves [.objs, .sys, .depot, .cache, .coh, .link, .host, .dram, .out] s (State.startForming s count id) := by
  unfold State.startForming
  repeat' first
    | with_reducible apply Moves.refl
    | assumption
    | ((with_reducible apply Within.mk); exact rfl)
    | with_reducible apply Moves.thenOp (State.enablePorts_writes ..)
    | with_reducible apply Moves.thenOp (State.renumber_writes ..)
    | with_reducible apply Moves.thenOp (State.setChan16_writes ..)
    | with_reducible apply Moves.ite
    | (with_reducible apply upd_parts <;> first | exact .inl rfl | exact .inr rfl)
    | simp only [Moves.mk_eq]
    | with_reducible refine MovesMk.upd rfl (.inl rfl) (.inl rfl) ?_ ?_
    | (with_reducible apply Moves.foldl; intro _ _)
    | dsimp only
    | split

theorem State.leaveBivouac_writes (s : State) :
    Moves [.objs, .sys, .routes, .cairn, .link, .hostMem, .host, .dram, .out] s (State.leaveBivouac s) := by
  unfold State.leaveBivouac
  repeat' first
    | with_reducible apply Moves.refl
    | assumption
    | ((with_reducible apply Within.mk); exact rfl)
    | with_reducible apply Moves.thenOp (State.enablePorts_writes ..)
    | with_reducible apply Moves.thenOp (State.oset_writes ..)
    | with_reducible apply Moves.thenOp (State.zeroHbm_writes ..)
    | with_reducible apply Moves.thenOp (State.postAll_writes ..)
    | with_reducible apply Moves.thenOp (State.freedVectors_writes ..)
    | with_reducible apply Moves.ite
    | (with_reducible apply upd_parts <;> first | exact .inl rfl | exact .inr rfl)
    | simp only [Moves.mk_eq]
    | with_reducible refine MovesMk.upd rfl (.inl rfl) (.inl rfl) ?_ ?_
    | (with_reducible apply Moves.foldl; intro _ _)
    | dsimp only
    | split

theorem State.formRequest_writes (s : State) (count : Nat) (id : Nat) :
    ExcAll (fun (a : State) => Moves [.objs, .sys, .routes, .cairn, .depot, .cache, .coh, .link, .hostMem, .host, .dram, .out] s a) (State.formRequest s count id) := by
  unfold State.formRequest
  repeat' first
    | with_reducible apply Moves.refl
    | ((with_reducible apply Within.mk); exact rfl)
    | with_reducible apply Moves.thenOp (State.leaveBivouac_writes ..)
    | with_reducible apply Moves.thenOp (State.startForming_writes ..)
    | with_reducible apply ExcAll.ok'
    | with_reducible apply ExcAll.error'
    | with_reducible apply ExcAll.ite
    | split

theorem State.movePage_writes (s : State) (id : Nat) (addr : Nat) :
    Moves [.depot, .dram] s (State.movePage s id addr) := by
  unfold State.movePage
  repeat' first
    | with_reducible apply Moves.refl
    | assumption
    | ((with_reducible apply Within.mk); exact rfl)
    | with_reducible apply Moves.ite
    | (with_reducible apply upd_parts <;> first | exact .inl rfl | exact .inr rfl)
    | simp only [Moves.mk_eq]
    | with_reducible refine MovesMk.upd rfl (.inl rfl) (.inl rfl) ?_ ?_
    | (with_reducible apply Moves.foldl; intro _ _)
    | dsimp only
    | split

theorem State.placePages_writes (s : State) (lo : Nat) (hi : Nat) (busy : List (Nat × Nat)) (x4 : List (Nat × Nat)) :
    OptAll (fun (a : State) => Moves [.depot, .dram] s a) (State.placePages s lo hi busy x4) := by
  induction x4 generalizing s lo hi busy with
  | nil =>
    unfold State.placePages
    repeat' first
      | with_reducible apply Moves.refl
      | with_reducible apply OptAll.some'
  | cons a l ih =>
    unfold State.placePages
    repeat' first
      | with_reducible apply Moves.refl
      | ((with_reducible apply Within.mk); exact rfl)
      | with_reducible apply Moves.thenOp (State.movePage_writes ..)
      | with_reducible refine OptAll.imp (fun _ h => Moves.thenOp h (Within.mk rfl) ?_) (ih ..)
      | with_reducible apply OptAll.none'
      | split

theorem State.compact_writes (s : State) (lo : Nat) (hi : Nat) (holes : List (Nat × Nat)) :
    OptAll (fun (a : State) => Moves [.depot, .dram] s a) (State.compact s lo hi holes) := by
  unfold State.compact
  repeat' first
    | with_reducible apply Moves.refl
    | with_reducible refine OptAll.imp (fun _ h => Moves.thenOp h (Within.mk rfl) ?_) (State.placePages_writes ..)

theorem State.assignRidges_writes (s : State) :
    Moves [.sys] s (State.assignRidges s) := by
  unfold State.assignRidges
  repeat' first
    | with_reducible apply Moves.refl
    | assumption
    | ((with_reducible apply Within.mk); exact rfl)
    | with_reducible apply Moves.ite
    | (with_reducible apply upd_parts <;> first | exact .inl rfl | exact .inr rfl)
    | simp only [Moves.mk_eq]
    | with_reducible refine MovesMk.upd rfl (.inl rfl) (.inl rfl) ?_ ?_
    | (with_reducible apply Moves.foldl; intro _ _)
    | dsimp only
    | split

theorem State.layMemory_writes (s : State) :
    OptAll (fun (a : State) => Moves [.objs, .mem, .depot, .dram] s a) (State.layMemory s) := by
  unfold State.layMemory
  repeat' first
    | with_reducible apply Moves.refl
    | assumption
    | ((with_reducible apply Within.mk); exact rfl)
    | exact .inr (fun h => Memory.wf_filter _ h)
    | exact .inl rfl
    | with_reducible refine MovesMk.upd rfl ?_ ?_ ?_ ?_
    | with_reducible apply Moves.thenOp (State.oset_writes ..)
    | with_reducible apply OptAll.some'
    | with_reducible apply OptAll.none'
    | with_reducible apply OptAll.ite
    | with_reducible apply Moves.ite
    | (with_reducible apply upd_parts <;> first | exact .inl rfl | exact .inr rfl)
    | simp only [Moves.mk_eq]
    | with_reducible refine MovesMk.upd rfl (.inl rfl) (.inl rfl) ?_ ?_
    | (with_reducible apply Moves.foldl; intro _ _)
    | dsimp only
    | split
    | with_reducible refine Moves.thenOp (OptAll.st (State.compact_writes ..) (by assumption)) (Within.mk rfl) ?_

theorem State.formationFails_writes (s : State) (index : Nat) (member : Nat) :
    Moves [.objs, .sys, .err, .mgmt, .out] s (State.formationFails s index member) := by
  unfold State.formationFails
  repeat' first
    | with_reducible apply Moves.refl
    | assumption
    | ((with_reducible apply Within.mk); exact rfl)
    | with_reducible apply Moves.thenOp (State.raise_writes ..)
    | with_reducible apply Moves.ite
    | (with_reducible apply upd_parts <;> first | exact .inl rfl | exact .inr rfl)
    | simp only [Moves.mk_eq]
    | with_reducible refine MovesMk.upd rfl (.inl rfl) (.inl rfl) ?_ ?_
    | (with_reducible apply Moves.foldl; intro _ _)
    | dsimp only
    | split

theorem State.startPitches_writes (s : State) (all : List PeerIdentity) :
    Moves [.objs, .sys, .pitch, .peers, .link, .err, .mgmt, .out] s (State.startPitches s all) := by
  unfold State.startPitches
  repeat' first
    | with_reducible apply Moves.refl
    | assumption
    | ((with_reducible apply Within.mk); exact rfl)
    | with_reducible apply Moves.thenOp (State.corrected_writes ..)
    | with_reducible apply Moves.thenOp (State.oset_writes ..)
    | with_reducible apply Moves.ite
    | (with_reducible apply upd_parts <;> first | exact .inl rfl | exact .inr rfl)
    | simp only [Moves.mk_eq]
    | with_reducible refine MovesMk.upd rfl (.inl rfl) (.inl rfl) ?_ ?_
    | (with_reducible apply Moves.foldl; intro _ _)
    | dsimp only
    | split

theorem State.reloadCairn_writes (s : State) :
    Moves [.sys, .cairn] s (State.reloadCairn s) := by
  unfold State.reloadCairn
  repeat' first
    | with_reducible apply Moves.refl
    | assumption
    | ((with_reducible apply Within.mk); exact rfl)
    | with_reducible apply Moves.thenOp (State.reloadBank_writes ..)
    | with_reducible apply Moves.ite
    | (with_reducible apply upd_parts <;> first | exact .inl rfl | exact .inr rfl)
    | simp only [Moves.mk_eq]
    | with_reducible refine MovesMk.upd rfl (.inl rfl) (.inl rfl) ?_ ?_
    | (with_reducible apply Moves.foldl; intro _ _)
    | dsimp only
    | split

theorem State.endForming_writes (s : State) :
    Moves [.freeCount, .objs, .sys, .flash, .routes, .sched, .scn, .cairn, .summit, .content, .depot, .strands, .cache, .coh, .link, .hostMem, .host, .dram, .err, .mgmt, .out] s (State.endForming s) := by
  unfold State.endForming
  repeat' first
    | with_reducible apply Moves.refl
    | assumption
    | ((with_reducible apply Within.mk); exact rfl)
    | with_reducible apply Moves.thenOp (State.enterRetreat_writes ..)
    | with_reducible apply Moves.ite
    | (with_reducible apply upd_parts <;> first | exact .inl rfl | exact .inr rfl)
    | simp only [Moves.mk_eq]
    | with_reducible refine MovesMk.upd rfl (.inl rfl) (.inl rfl) ?_ ?_
    | (with_reducible apply Moves.foldl; intro _ _)
    | dsimp only
    | split

theorem State.formationDone_writes (s : State) (r : FormationReport) :
    Moves [.freeCount, .objs, .mem, .sys, .flash, .pitch, .routes, .sched, .scn, .cairn, .summit, .content, .depot, .strands, .cache, .coh, .peers, .link, .hostMem, .host, .dram, .err, .mgmt, .out] s (State.formationDone s r) := by
  unfold State.formationDone
  repeat' first
    | with_reducible apply Moves.refl
    | ((with_reducible apply Within.mk); exact rfl)
    | with_reducible apply Moves.thenOp (State.assignRidges_writes ..)
    | with_reducible apply Moves.thenOp (State.endForming_writes ..)
    | with_reducible apply Moves.thenOp (State.formationFails_writes ..)
    | with_reducible apply Moves.thenOp (State.reloadCairn_writes ..)
    | with_reducible apply Moves.thenOp (State.startPitches_writes ..)
    | with_reducible apply Moves.ite
    | split
    | with_reducible refine Moves.thenOp (OptAll.st (State.layMemory_writes ..) (by assumption)) (Within.mk rfl) ?_

theorem execForm_writes (count : Nat) (id : Nat) (s : State) :
    ResAll (fun t => Moves [.objs, .sys, .routes, .cairn, .depot, .cache, .coh, .link, .hostMem, .host, .dram, .out] s t) (execForm count id s) := by
  unfold execForm
  repeat' first
    | with_reducible apply Moves.refl
    | with_reducible apply ResAll.next'
    | split
    | with_reducible refine Moves.thenOp (ExcAll.st (State.formRequest_writes ..) (by assumption)) (Within.mk rfl) ?_

theorem execFormationComplete_writes (r : FormationReport) (s : State) :
    ResAll (fun t => Moves [.freeCount, .objs, .mem, .sys, .flash, .pitch, .routes, .sched, .scn, .cairn, .summit, .content, .depot, .strands, .cache, .coh, .peers, .link, .hostMem, .host, .dram, .err, .mgmt, .out] s t) (execFormationComplete r s) := by
  unfold execFormationComplete
  repeat' first
    | with_reducible apply Moves.refl
    | ((with_reducible apply Within.mk); exact rfl)
    | with_reducible apply Moves.thenOp (State.formationDone_writes ..)
    | with_reducible apply ResAll.next'

theorem State.returnRemote_writes (s : State) :
    Moves [.objs, .depot, .cache, .coh, .link, .out] s (State.returnRemote s) := by
  unfold State.returnRemote
  repeat' first
    | with_reducible apply Moves.refl
    | ((with_reducible apply Within.mk); exact rfl)
    | with_reducible apply Moves.thenOp (State.dropHomed_writes ..)
    | with_reducible apply Moves.thenOp (State.evictL2_writes ..)
    | (with_reducible apply Moves.foldl; intro _ _)

theorem State.endPeers_writes (s : State) :
    Moves [.freeCount, .objs, .flash, .routes, .sched, .scn, .cairn, .summit, .content, .depot, .strands, .cache, .coh, .link, .hostMem, .host, .dram, .err, .mgmt, .out] s (State.endPeers s) := by
  unfold State.endPeers
  repeat' first
    | with_reducible apply Moves.refl
    | ((with_reducible apply Within.mk); exact rfl)
    | with_reducible apply Moves.thenOp (State.endRoute_writes ..)
    | with_reducible apply Moves.ite
    | (with_reducible apply Moves.foldl; intro _ _)

theorem State.returnRequest_writes (s : State) :
    ExcAll (fun (a : State) => Moves [.freeCount, .objs, .sys, .flash, .pitch, .routes, .sched, .scn, .cairn, .summit, .content, .depot, .strands, .cache, .coh, .peers, .link, .hostMem, .host, .dram, .err, .mgmt, .out] s a) (State.returnRequest s) := by
  unfold State.returnRequest
  repeat' first
    | with_reducible apply Moves.refl
    | assumption
    | ((with_reducible apply Within.mk); exact rfl)
    | with_reducible apply Moves.thenOp (State.endPeers_writes ..)
    | with_reducible apply Moves.thenOp (State.returnRemote_writes ..)
    | with_reducible apply ExcAll.ok'
    | with_reducible apply ExcAll.error'
    | with_reducible apply ExcAll.ite
    | with_reducible apply Moves.ite
    | (with_reducible apply upd_parts <;> first | exact .inl rfl | exact .inr rfl)
    | simp only [Moves.mk_eq]
    | with_reducible refine MovesMk.upd rfl (.inl rfl) (.inl rfl) ?_ ?_
    | (with_reducible apply Moves.foldl; intro _ _)
    | dsimp only
    | split

theorem execReturnToConfiguration_writes (s : State) :
    ResAll (fun t => Moves [.freeCount, .objs, .sys, .flash, .pitch, .routes, .sched, .scn, .cairn, .summit, .content, .depot, .strands, .cache, .coh, .peers, .link, .hostMem, .host, .dram, .err, .mgmt, .out] s t) (execReturnToConfiguration s) := by
  unfold execReturnToConfiguration
  repeat' first
    | with_reducible apply Moves.refl
    | with_reducible apply ResAll.next'
    | split
    | with_reducible refine Moves.thenOp (ExcAll.st (State.returnRequest_writes ..) (by assumption)) (Within.mk rfl) ?_

theorem State.bivouacRequest_writes (s : State) :
    ExcAll (fun (a : State) => Moves [.sys] s a) (State.bivouacRequest s) := by
  unfold State.bivouacRequest
  repeat' first
    | with_reducible apply Moves.refl
    | assumption
    | ((with_reducible apply Within.mk); exact rfl)
    | with_reducible apply ExcAll.ok'
    | with_reducible apply ExcAll.error'
    | with_reducible apply ExcAll.ite
    | with_reducible apply Moves.ite
    | (with_reducible apply upd_parts <;> first | exact .inl rfl | exact .inr rfl)
    | simp only [Moves.mk_eq]
    | with_reducible refine MovesMk.upd rfl (.inl rfl) (.inl rfl) ?_ ?_
    | (with_reducible apply Moves.foldl; intro _ _)
    | dsimp only
    | split

theorem execBivouacRequest_writes (s : State) :
    ResAll (fun t => Moves [.sys] s t) (execBivouacRequest s) := by
  unfold execBivouacRequest
  repeat' first
    | with_reducible apply Moves.refl
    | with_reducible apply ResAll.next'
    | split
    | with_reducible refine Moves.thenOp (ExcAll.st (State.bivouacRequest_writes ..) (by assumption)) (Within.mk rfl) ?_

theorem State.goDark_writes (s : State) (ranks : List Nat) :
    Moves [.mem, .sys, .pitch, .routes, .sched, .scn, .depot, .strands, .cache, .coh, .link, .host, .dram] s (State.goDark s ranks) := by
  unfold State.goDark
  repeat' first
    | with_reducible apply Moves.refl
    | assumption
    | ((with_reducible apply Within.mk); exact rfl)
    | exact .inr (fun h => Memory.wf_filter _ h)
    | exact .inl rfl
    | with_reducible refine MovesMk.upd rfl ?_ ?_ ?_ ?_
    | with_reducible apply Moves.ite
    | (with_reducible apply upd_parts <;> first | exact .inl rfl | exact .inr rfl)
    | simp only [Moves.mk_eq]
    | with_reducible refine MovesMk.upd rfl (.inl rfl) (.inl rfl) ?_ ?_
    | (with_reducible apply Moves.foldl; intro _ _)
    | dsimp only
    | split

theorem State.sweepAll_writes (s : State) :
    Moves [.objs, .depot, .cache, .coh, .link, .out] s (State.sweepAll s) := by
  unfold State.sweepAll
  repeat' first
    | with_reducible apply Moves.refl
    | ((with_reducible apply Within.mk); exact rfl)
    | with_reducible apply Moves.thenOp (State.sweepL2_writes ..)
    | with_reducible apply Moves.thenOp (State.sweepSlc_writes ..)
    | (with_reducible apply Moves.foldl; intro _ _)

theorem State.bivouacPack_writes (s : State) (ranks : List Nat) :
    OptAll (fun (a : State) => Moves [.depot, .dram] s a) (State.bivouacPack s ranks) := by
  unfold State.bivouacPack
  repeat' first
    | with_reducible apply Moves.refl
    | with_reducible refine OptAll.imp (fun _ h => Moves.thenOp h (Within.mk rfl) ?_) (State.compact_writes ..)
    | with_reducible apply OptAll.none'
    | with_reducible apply OptAll.ite

theorem State.bivouacRefused_writes (s : State) :
    Moves [.objs, .sys, .err, .mgmt, .out] s (State.bivouacRefused s) := by
  unfold State.bivouacRefused
  repeat' first
    | with_reducible apply Moves.refl
    | assumption
    | ((with_reducible apply Within.mk); exact rfl)
    | with_reducible apply Moves.thenOp (State.raise_writes ..)
    | with_reducible apply Moves.ite
    | (with_reducible apply upd_parts <;> first | exact .inl rfl | exact .inr rfl)
    | simp only [Moves.mk_eq]
    | with_reducible refine MovesMk.upd rfl (.inl rfl) (.inl rfl) ?_ ?_
    | (with_reducible apply Moves.foldl; intro _ _)
    | dsimp only
    | split

theorem State.bivouacEnter_writes (s : State) :
    Moves [.freeCount, .objs, .mem, .sys, .flash, .pitch, .routes, .sched, .scn, .cairn, .summit, .content, .depot, .strands, .cache, .coh, .link, .hostMem, .host, .dram, .err, .mgmt, .out] s (State.bivouacEnter s) := by
  unfold State.bivouacEnter
  repeat' first
    | with_reducible apply Moves.refl
    | ((with_reducible apply Within.mk); exact rfl)
    | with_reducible apply Moves.thenOp (State.bivouacRefused_writes ..)
    | with_reducible apply Moves.thenOp (State.endPeers_writes ..)
    | with_reducible apply Moves.thenOp (State.goDark_writes ..)
    | with_reducible apply Moves.thenOp (State.sweepAll_writes ..)
    | with_reducible apply Moves.ite
    | split
    | dsimp only
    | with_reducible refine Moves.thenOp (OptAll.st (State.bivouacPack_writes ..) (by assumption)) (Within.mk rfl) ?_

theorem execBivouacEntry_writes (s : State) :
    ResAll (fun t => Moves [.freeCount, .objs, .mem, .sys, .flash, .pitch, .routes, .sched, .scn, .cairn, .summit, .content, .depot, .strands, .cache, .coh, .link, .hostMem, .host, .dram, .err, .mgmt, .out] s t) (execBivouacEntry s) := by
  unfold execBivouacEntry
  repeat' first
    | with_reducible apply Moves.refl
    | ((with_reducible apply Within.mk); exact rfl)
    | with_reducible apply Moves.thenOp (State.bivouacEnter_writes ..)
    | with_reducible apply ResAll.next'

theorem State.retreatRequest_writes (s : State) :
    ExcAll (fun (a : State) => Moves [.freeCount, .objs, .sys, .flash, .routes, .sched, .scn, .cairn, .summit, .content, .depot, .strands, .cache, .coh, .link, .hostMem, .host, .dram, .err, .mgmt, .out] s a) (State.retreatRequest s) := by
  unfold State.retreatRequest
  repeat' first
    | with_reducible apply Moves.refl
    | ((with_reducible apply Within.mk); exact rfl)
    | with_reducible apply Moves.thenOp (State.enterRetreat_writes ..)
    | with_reducible apply ExcAll.ok'
    | with_reducible apply ExcAll.error'
    | with_reducible apply ExcAll.ite

theorem execRetreatRequest_writes (s : State) :
    ResAll (fun t => Moves [.freeCount, .objs, .sys, .flash, .routes, .sched, .scn, .cairn, .summit, .content, .depot, .strands, .cache, .coh, .link, .hostMem, .host, .dram, .err, .mgmt, .out] s t) (execRetreatRequest s) := by
  unfold execRetreatRequest
  repeat' first
    | with_reducible apply Moves.refl
    | with_reducible apply ResAll.next'
    | split
    | with_reducible refine Moves.thenOp (ExcAll.st (State.retreatRequest_writes ..) (by assumption)) (Within.mk rfl) ?_

theorem State.exitRequest_writes (s : State) :
    ExcAll (fun (a : State) => Moves [.sys, .cairn] s a) (State.exitRequest s) := by
  unfold State.exitRequest
  repeat' first
    | with_reducible apply Moves.refl
    | assumption
    | ((with_reducible apply Within.mk); exact rfl)
    | with_reducible apply Moves.thenOp (State.reloadCairn_writes ..)
    | with_reducible apply ExcAll.ok'
    | with_reducible apply ExcAll.error'
    | with_reducible apply ExcAll.ite
    | with_reducible apply Moves.ite
    | (with_reducible apply upd_parts <;> first | exact .inl rfl | exact .inr rfl)
    | simp only [Moves.mk_eq]
    | with_reducible refine MovesMk.upd rfl (.inl rfl) (.inl rfl) ?_ ?_
    | (with_reducible apply Moves.foldl; intro _ _)
    | dsimp only
    | split

theorem execRetreatExit_writes (s : State) :
    ResAll (fun t => Moves [.sys, .cairn] s t) (execRetreatExit s) := by
  unfold execRetreatExit
  repeat' first
    | with_reducible apply Moves.refl
    | with_reducible apply ResAll.next'
    | split
    | with_reducible refine Moves.thenOp (ExcAll.st (State.exitRequest_writes ..) (by assumption)) (Within.mk rfl) ?_

theorem State.ridgeRetire_writes (s : State) (p : Nat) :
    Moves [.sys, .flash] s (State.ridgeRetire s p) := by
  unfold State.ridgeRetire
  repeat' first
    | with_reducible apply Moves.refl
    | assumption
    | ((with_reducible apply Within.mk); exact rfl)
    | with_reducible apply Moves.ite
    | (with_reducible apply upd_parts <;> first | exact .inl rfl | exact .inr rfl)
    | simp only [Moves.mk_eq]
    | with_reducible refine MovesMk.upd rfl (.inl rfl) (.inl rfl) ?_ ?_
    | (with_reducible apply Moves.foldl; intro _ _)
    | dsimp only
    | split

theorem State.ridgeUnretire_writes (s : State) (p : Nat) :
    Moves [.sys, .flash] s (State.ridgeUnretire s p) := by
  unfold State.ridgeUnretire
  repeat' first
    | with_reducible apply Moves.refl
    | assumption
    | ((with_reducible apply Within.mk); exact rfl)
    | with_reducible apply Moves.ite
    | (with_reducible apply upd_parts <;> first | exact .inl rfl | exact .inr rfl)
    | simp only [Moves.mk_eq]
    | with_reducible refine MovesMk.upd rfl (.inl rfl) (.inl rfl) ?_ ?_
    | (with_reducible apply Moves.foldl; intro _ _)
    | dsimp only
    | split

theorem execRidgeRetire_writes (p : Nat) (s : State) :
    ResAll (fun t => Moves [.sys, .flash] s t) (execRidgeRetire p s) := by
  unfold execRidgeRetire
  repeat' first
    | with_reducible apply Moves.refl
    | ((with_reducible apply Within.mk); exact rfl)
    | with_reducible apply Moves.thenOp (State.ridgeRetire_writes ..)
    | with_reducible apply ResAll.next'

theorem execRidgeUnretire_writes (p : Nat) (s : State) :
    ResAll (fun t => Moves [.sys, .flash] s t) (execRidgeUnretire p s) := by
  unfold execRidgeUnretire
  repeat' first
    | with_reducible apply Moves.refl
    | ((with_reducible apply Within.mk); exact rfl)
    | with_reducible apply Moves.thenOp (State.ridgeUnretire_writes ..)
    | with_reducible apply ResAll.next'

/-! ## Startup -/

theorem State.driveTherm_writes (s : State) (tj : Int) :
    Moves [.objs, .sys] s (State.driveTherm s tj) := by
  unfold State.driveTherm
  repeat' first
    | with_reducible apply Moves.refl
    | assumption
    | ((with_reducible apply Within.mk); exact rfl)
    | with_reducible apply Moves.thenOp (State.oinc_writes ..)
    | with_reducible apply Moves.ite
    | (with_reducible apply upd_parts <;> first | exact .inl rfl | exact .inr rfl)
    | simp only [Moves.mk_eq]
    | with_reducible refine MovesMk.upd rfl (.inl rfl) (.inl rfl) ?_ ?_
    | (with_reducible apply Moves.foldl; intro _ _)
    | dsimp only
    | split

theorem State.driveFan_writes (s : State) :
    Moves [.sys] s (State.driveFan s) := by
  unfold State.driveFan
  repeat' first
    | with_reducible apply Moves.refl
    | assumption
    | ((with_reducible apply Within.mk); exact rfl)
    | with_reducible apply Moves.ite
    | (with_reducible apply upd_parts <;> first | exact .inl rfl | exact .inr rfl)
    | simp only [Moves.mk_eq]
    | with_reducible refine MovesMk.upd rfl (.inl rfl) (.inl rfl) ?_ ?_
    | (with_reducible apply Moves.foldl; intro _ _)
    | dsimp only
    | split

theorem State.trainReleased_writes (s : State) :
    Moves [.sys, .host, .out] s (State.trainReleased s) := by
  unfold State.trainReleased
  repeat' first
    | with_reducible apply Moves.refl
    | assumption
    | ((with_reducible apply Within.mk); exact rfl)
    | with_reducible apply Moves.thenOp (State.setPerst_writes ..)
    | with_reducible apply Moves.thenOp (State.trainHost_writes ..)
    | with_reducible apply Moves.ite
    | (with_reducible apply upd_parts <;> first | exact .inl rfl | exact .inr rfl)
    | simp only [Moves.mk_eq]
    | with_reducible refine MovesMk.upd rfl (.inl rfl) (.inl rfl) ?_ ?_
    | (with_reducible apply Moves.foldl; intro _ _)
    | dsimp only
    | split

theorem State.rstRelease_writes (s : State) :
    Moves [.sys, .host, .mgmt, .out] s (State.rstRelease s) := by
  unfold State.rstRelease
  repeat' first
    | with_reducible apply Moves.refl
    | assumption
    | ((with_reducible apply Within.mk); exact rfl)
    | with_reducible apply Moves.thenOp (State.trainReleased_writes ..)
    | with_reducible apply Moves.ite
    | (with_reducible apply upd_parts <;> first | exact .inl rfl | exact .inr rfl)
    | simp only [Moves.mk_eq]
    | with_reducible refine MovesMk.upd rfl (.inl rfl) (.inl rfl) ?_ ?_
    | (with_reducible apply Moves.foldl; intro _ _)
    | dsimp only
    | split

theorem State.basecampReady_writes (s : State) :
    Moves [.freeCount, .objs, .sys, .flash, .routes, .sched, .scn, .cairn, .summit, .content, .depot, .strands, .cache, .coh, .link, .hostMem, .host, .dram, .err, .mgmt, .out] s (State.basecampReady s) := by
  unfold State.basecampReady
  repeat' first
    | with_reducible apply Moves.refl
    | assumption
    | ((with_reducible apply Within.mk); exact rfl)
    | with_reducible apply Moves.thenOp (State.driveFan_writes ..)
    | with_reducible apply Moves.thenOp (State.emit_writes ..)
    | with_reducible apply Moves.thenOp (State.enterRetreat_writes ..)
    | with_reducible apply Moves.thenOp (State.fatalDevice_writes ..)
    | with_reducible apply Moves.thenOp (State.raise_writes ..)
    | with_reducible apply Moves.thenOp (State.startTraining_writes ..)
    | with_reducible apply Moves.thenOp (State.zeroHbm_writes ..)
    | with_reducible apply Moves.thenOp (State.assignRidges_writes ..)
    | with_reducible apply Moves.ite
    | (with_reducible apply upd_parts <;> first | exact .inl rfl | exact .inr rfl)
    | simp only [Moves.mk_eq]
    | with_reducible refine MovesMk.upd rfl (.inl rfl) (.inl rfl) ?_ ?_
    | (with_reducible apply Moves.foldl; intro _ _)
    | dsimp only
    | split
    | with_reducible refine Moves.thenOp (ExcAll.st (State.formRequest_writes ..) (by assumption)) (Within.mk rfl) ?_

theorem execRstNRelease_writes (s : State) :
    ResAll (fun t => Moves [.sys, .host, .mgmt, .out] s t) (execRstNRelease s) := by
  unfold execRstNRelease
  repeat' first
    | with_reducible apply Moves.refl
    | ((with_reducible apply Within.mk); exact rfl)
    | with_reducible apply Moves.thenOp (State.rstRelease_writes ..)
    | with_reducible apply ResAll.next'

theorem execBasecampReady_writes (s : State) :
    ResAll (fun t => Moves [.freeCount, .objs, .sys, .flash, .routes, .sched, .scn, .cairn, .summit, .content, .depot, .strands, .cache, .coh, .link, .hostMem, .host, .dram, .err, .mgmt, .out] s t) (execBasecampReady s) := by
  unfold execBasecampReady
  repeat' first
    | with_reducible apply Moves.refl
    | ((with_reducible apply Within.mk); exact rfl)
    | with_reducible apply Moves.thenOp (State.basecampReady_writes ..)
    | with_reducible apply ResAll.next'

theorem State.cleared_writes (s : State) :
    Moves [.objs, .mem, .sys, .pitch, .routes, .sched, .scn, .cairn, .summit, .content, .depot, .strands, .cache, .coh, .peers, .link, .host, .eng, .dram, .err, .mgmt, .power] s (State.cleared s) := by
  refine .mk (.mk fun f hf => ?_) fun h => ⟨Memory.wf_nil, h.2⟩
  cases f <;> first | exact absurd (List.contains_iff_mem.mp rfl) hf | rfl

theorem State.deviceReset_writes (s : State) :
    Moves [.objs, .mem, .sys, .pitch, .routes, .sched, .scn, .cairn, .summit, .content, .depot, .strands, .cache, .coh, .peers, .link, .host, .eng, .dram, .err, .mgmt, .power, .out] s (State.deviceReset s) := by
  unfold State.deviceReset
  repeat' first
    | with_reducible apply Moves.refl
    | assumption
    | ((with_reducible apply Within.mk); exact rfl)
    | with_reducible apply Moves.thenOp (State.cleared_writes ..)
    | with_reducible apply Moves.thenOp (State.emit_writes ..)
    | with_reducible apply Moves.ite
    | (with_reducible apply upd_parts <;> first | exact .inl rfl | exact .inr rfl)
    | simp only [Moves.mk_eq]
    | with_reducible refine MovesMk.upd rfl (.inl rfl) (.inl rfl) ?_ ?_
    | (with_reducible apply Moves.foldl; intro _ _)
    | dsimp only
    | split

theorem execDeviceReset_writes (s : State) :
    ResAll (fun t => Moves [.objs, .mem, .sys, .pitch, .routes, .sched, .scn, .cairn, .summit, .content, .depot, .strands, .cache, .coh, .peers, .link, .host, .eng, .dram, .err, .mgmt, .power, .out] s t) (execDeviceReset s) := by
  unfold execDeviceReset
  repeat' first
    | with_reducible apply Moves.refl
    | ((with_reducible apply Within.mk); exact rfl)
    | with_reducible apply Moves.thenOp (State.deviceReset_writes ..)
    | with_reducible apply ResAll.next'

theorem State.pwrgoodAssert_writes (s : State) :
    Moves [.sys, .flash] s (State.pwrgoodAssert s) := by
  unfold State.pwrgoodAssert
  repeat' first
    | with_reducible apply Moves.refl
    | assumption
    | ((with_reducible apply Within.mk); exact rfl)
    | with_reducible apply Moves.ite
    | (with_reducible apply upd_parts <;> first | exact .inl rfl | exact .inr rfl)
    | simp only [Moves.mk_eq]
    | with_reducible refine MovesMk.upd rfl (.inl rfl) (.inl rfl) ?_ ?_
    | (with_reducible apply Moves.foldl; intro _ _)
    | dsimp only
    | split

theorem State.pwrgoodDeassert_writes (s : State) :
    Moves [.objs, .mem, .sys, .pitch, .routes, .sched, .scn, .cairn, .summit, .content, .depot, .strands, .cache, .coh, .peers, .link, .host, .eng, .dram, .err, .mgmt, .power, .out] s (State.pwrgoodDeassert s) := by
  unfold State.pwrgoodDeassert
  repeat' first
    | with_reducible apply Moves.refl
    | assumption
    | ((with_reducible apply Within.mk); exact rfl)
    | with_reducible apply Moves.thenOp (State.cleared_writes ..)
    | with_reducible apply Moves.thenOp (State.emit_writes ..)
    | with_reducible apply Moves.ite
    | (with_reducible apply upd_parts <;> first | exact .inl rfl | exact .inr rfl)
    | simp only [Moves.mk_eq]
    | with_reducible refine MovesMk.upd rfl (.inl rfl) (.inl rfl) ?_ ?_
    | (with_reducible apply Moves.foldl; intro _ _)
    | dsimp only
    | split

theorem execPwrgoodAssert_writes (s : State) :
    ResAll (fun t => Moves [.sys, .flash] s t) (execPwrgoodAssert s) := by
  unfold execPwrgoodAssert
  repeat' first
    | with_reducible apply Moves.refl
    | ((with_reducible apply Within.mk); exact rfl)
    | with_reducible apply Moves.thenOp (State.pwrgoodAssert_writes ..)
    | with_reducible apply ResAll.next'

theorem execPwrgoodDeassert_writes (s : State) :
    ResAll (fun t => Moves [.objs, .mem, .sys, .pitch, .routes, .sched, .scn, .cairn, .summit, .content, .depot, .strands, .cache, .coh, .peers, .link, .host, .eng, .dram, .err, .mgmt, .power, .out] s t) (execPwrgoodDeassert s) := by
  unfold execPwrgoodDeassert
  repeat' first
    | with_reducible apply Moves.refl
    | ((with_reducible apply Within.mk); exact rfl)
    | with_reducible apply Moves.thenOp (State.pwrgoodDeassert_writes ..)
    | with_reducible apply ResAll.next'

theorem State.thermalSample_writes (s : State) (centi : List Int) :
    Moves [.freeCount, .objs, .sys, .flash, .routes, .sched, .scn, .cairn, .summit, .content, .depot, .strands, .cache, .coh, .link, .hostMem, .host, .dram, .err, .mgmt, .power, .out] s (State.thermalSample s centi) := by
  unfold State.thermalSample
  repeat' first
    | with_reducible apply Moves.refl
    | ((with_reducible apply Within.mk); exact rfl)
    | with_reducible apply Moves.thenOp (State.driveFan_writes ..)
    | with_reducible apply Moves.thenOp (State.driveTherm_writes ..)
    | with_reducible apply Moves.thenOp (State.enterRetreat_writes ..)
    | with_reducible apply Moves.ite
    | (with_reducible apply upd_parts <;> first | exact .inl rfl | exact .inr rfl)
    | simp only [Moves.mk_eq]
    | with_reducible refine MovesMk.upd rfl (.inl rfl) (.inl rfl) ?_ ?_

theorem execThermalSample_writes (centi : List Int) (s : State) :
    ResAll (fun t => Moves [.freeCount, .objs, .sys, .flash, .routes, .sched, .scn, .cairn, .summit, .content, .depot, .strands, .cache, .coh, .link, .hostMem, .host, .dram, .err, .mgmt, .power, .out] s t) (execThermalSample centi s) := by
  unfold execThermalSample
  repeat' first
    | with_reducible apply Moves.refl
    | ((with_reducible apply Within.mk); exact rfl)
    | with_reducible apply Moves.thenOp (State.thermalSample_writes ..)
    | with_reducible apply ResAll.next'

theorem State.dropPower_writes (s : State) :
    Moves [.mem, .sys, .pitch, .routes, .sched, .scn, .cairn, .summit, .content, .depot, .strands, .cache, .coh, .peers, .link, .host, .eng, .dram] s (State.dropPower s) := by
  refine .mk (.mk fun f hf => ?_) fun h => ⟨Memory.wf_nil, h.2⟩
  cases f <;> first | exact absurd (List.contains_iff_mem.mp rfl) hf | rfl

theorem State.cutPower_writes (s : State) (address : Nat) :
    Moves [.objs, .mem, .sys, .pitch, .routes, .sched, .scn, .cairn, .summit, .content, .depot, .strands, .cache, .coh, .peers, .link, .host, .eng, .dram, .err, .mgmt, .out] s (State.cutPower s address) := by
  unfold State.cutPower
  repeat' first
    | with_reducible apply Moves.refl
    | ((with_reducible apply Within.mk); exact rfl)
    | with_reducible apply Moves.thenOp (State.dropPower_writes ..)
    | with_reducible apply Moves.thenOp (State.emit_writes ..)
    | with_reducible apply Moves.thenOp (State.oinc_writes ..)
    | with_reducible apply Moves.thenOp (State.oset_writes ..)
    | with_reducible apply Moves.thenOp (State.raise_writes ..)
    | with_reducible apply Moves.ite

theorem execThermalTrip_writes (s : State) :
    ResAll (fun t => Moves [.objs, .mem, .sys, .pitch, .routes, .sched, .scn, .cairn, .summit, .content, .depot, .strands, .cache, .coh, .peers, .link, .host, .eng, .dram, .err, .mgmt, .out] s t) (execThermalTrip s) := by
  unfold execThermalTrip
  repeat' first
    | with_reducible apply Moves.refl
    | ((with_reducible apply Within.mk); exact rfl)
    | with_reducible apply Moves.thenOp (State.cutPower_writes ..)
    | with_reducible apply ResAll.next'

theorem State.railLimit_writes (s : State) (rail : Nat) :
    Moves [.sched] s (State.railLimit s rail) := by
  unfold State.railLimit
  repeat' first
    | with_reducible apply Moves.refl
    | assumption
    | ((with_reducible apply Within.mk); exact rfl)
    | with_reducible apply Moves.ite
    | (with_reducible apply upd_parts <;> first | exact .inl rfl | exact .inr rfl)
    | simp only [Moves.mk_eq]
    | with_reducible refine MovesMk.upd rfl (.inl rfl) (.inl rfl) ?_ ?_
    | (with_reducible apply Moves.foldl; intro _ _)
    | dsimp only
    | split

theorem State.railFall_writes (s : State) (rail : Nat) :
    Moves [.sched] s (State.railFall s rail) := by
  unfold State.railFall
  repeat' first
    | with_reducible apply Moves.refl
    | assumption
    | ((with_reducible apply Within.mk); exact rfl)
    | with_reducible apply Moves.ite
    | (with_reducible apply upd_parts <;> first | exact .inl rfl | exact .inr rfl)
    | simp only [Moves.mk_eq]
    | with_reducible refine MovesMk.upd rfl (.inl rfl) (.inl rfl) ?_ ?_
    | (with_reducible apply Moves.foldl; intro _ _)
    | dsimp only
    | split

theorem execRailCurrentLimit_writes (rail : Nat) (s : State) :
    ResAll (fun t => Moves [.sched] s t) (execRailCurrentLimit rail s) := by
  unfold execRailCurrentLimit
  repeat' first
    | with_reducible apply Moves.refl
    | ((with_reducible apply Within.mk); exact rfl)
    | with_reducible apply Moves.thenOp (State.railLimit_writes ..)
    | with_reducible apply ResAll.next'

theorem execRailCurrentFall_writes (rail : Nat) (s : State) :
    ResAll (fun t => Moves [.sched] s t) (execRailCurrentFall rail s) := by
  unfold execRailCurrentFall
  repeat' first
    | with_reducible apply Moves.refl
    | ((with_reducible apply Within.mk); exact rfl)
    | with_reducible apply Moves.thenOp (State.railFall_writes ..)
    | with_reducible apply ResAll.next'

theorem execRailUndervoltage_writes (rail : Nat) (s : State) :
    ResAll (fun t => Moves [.objs, .mem, .sys, .pitch, .routes, .sched, .scn, .cairn, .summit, .content, .depot, .strands, .cache, .coh, .peers, .link, .host, .eng, .dram, .err, .mgmt, .out] s t) (execRailUndervoltage rail s) := by
  unfold execRailUndervoltage
  repeat' first
    | with_reducible apply Moves.refl
    | ((with_reducible apply Within.mk); exact rfl)
    | with_reducible apply Moves.thenOp (State.cutPower_writes ..)
    | with_reducible apply ResAll.next'
    | with_reducible apply Moves.ite

theorem State.tickOutFall_writes (s : State) :
    Moves [.sys, .out] s (State.tickOutFall s) := by
  unfold State.tickOutFall
  repeat' first
    | with_reducible apply Moves.refl
    | assumption
    | ((with_reducible apply Within.mk); exact rfl)
    | with_reducible apply Moves.thenOp (State.emit_writes ..)
    | with_reducible apply Moves.ite
    | (with_reducible apply upd_parts <;> first | exact .inl rfl | exact .inr rfl)
    | simp only [Moves.mk_eq]
    | with_reducible refine MovesMk.upd rfl (.inl rfl) (.inl rfl) ?_ ?_
    | (with_reducible apply Moves.foldl; intro _ _)
    | dsimp only
    | split

theorem execTickOutFall_writes (s : State) :
    ResAll (fun t => Moves [.sys, .out] s t) (execTickOutFall s) := by
  unfold execTickOutFall
  repeat' first
    | with_reducible apply Moves.refl
    | ((with_reducible apply Within.mk); exact rfl)
    | with_reducible apply Moves.thenOp (State.tickOutFall_writes ..)
    | with_reducible apply ResAll.next'

theorem State.configRequest_writes (s : State) (h : Nat) :
    Moves [.out] s (State.configRequest s h) := by
  unfold State.configRequest
  repeat' first
    | with_reducible apply Moves.refl
    | ((with_reducible apply Within.mk); exact rfl)
    | with_reducible apply Moves.thenOp (State.emit_writes ..)
    | with_reducible apply Moves.ite

theorem execConfigurationRequest_writes (port : Nat) (s : State) :
    ResAll (fun t => Moves [.out] s t) (execConfigurationRequest port s) := by
  unfold execConfigurationRequest
  repeat' first
    | with_reducible apply Moves.refl
    | ((with_reducible apply Within.mk); exact rfl)
    | with_reducible apply Moves.thenOp (State.configRequest_writes ..)
    | with_reducible apply ResAll.next'

theorem State.saveLife_writes (s : State) :
    Moves [.flash, .power] s (State.saveLife s) := by
  unfold State.saveLife
  repeat' first
    | with_reducible apply Moves.refl
    | with_reducible apply Moves.ite
    | (with_reducible apply upd_parts <;> first | exact .inl rfl | exact .inr rfl)
    | simp only [Moves.mk_eq]
    | with_reducible refine MovesMk.upd rfl (.inl rfl) (.inl rfl) ?_ ?_

theorem execLifeObjectsSave_writes (s : State) :
    ResAll (fun t => Moves [.flash, .power] s t) (execLifeObjectsSave s) := by
  unfold execLifeObjectsSave
  repeat' first
    | with_reducible apply Moves.refl
    | ((with_reducible apply Within.mk); exact rfl)
    | with_reducible apply Moves.thenOp (State.saveLife_writes ..)
    | with_reducible apply ResAll.next'

/-! ## Dictionary -/

theorem State.readMember_writes (s : State) (i : Nat) (m : Nat) :
    Moves [.err] s ((State.readMember s i m).2) := by
  unfold State.readMember
  repeat' first
    | with_reducible apply Moves.refl
    | ((with_reducible apply Within.mk); exact rfl)
    | with_reducible apply Moves.thenOp (State.popLatch_writes ..)
    | with_reducible apply Moves.thenOp (State.popRecord_writes ..)
    | with_reducible apply Moves.ite_snd
    | split

/-! ## Sweeps -/

theorem execParitySweep_writes (s : State) :
    ResAll (fun t => Moves [.now, .objs, .routes, .sched, .cairn, .content, .depot, .strands, .link, .hostMem, .host, .eng, .err, .mgmt, .out] s t) (execParitySweep s) := by
  unfold execParitySweep
  repeat' first
    | with_reducible apply Moves.refl
    | assumption
    | ((with_reducible apply Within.mk); exact rfl)
    | with_reducible apply Moves.thenOp (State.fatalTenant_writes ..)
    | with_reducible apply Moves.thenOp (State.paritySweep_writes ..)
    | with_reducible apply Moves.thenOp (State.ackDone_writes ..)
    | with_reducible apply ResAll.next'
    | with_reducible apply ResAll.ite
    | with_reducible apply Moves.ite
    | (with_reducible apply upd_parts <;> first | exact .inl rfl | exact .inr rfl)
    | simp only [Moves.mk_eq]
    | with_reducible refine MovesMk.upd rfl (.inl rfl) (.inl rfl) ?_ ?_
    | (with_reducible apply Moves.foldl; intro _ _)
    | dsimp only
    | split

theorem execShadowScrub_writes (s : State) :
    ResAll (fun t => Moves [.objs, .cairn, .err, .mgmt, .out] s t) (execShadowScrub s) := by
  unfold execShadowScrub
  repeat' first
    | with_reducible apply Moves.refl
    | ((with_reducible apply Within.mk); exact rfl)
    | with_reducible apply Moves.thenOp (State.scrubBank_writes ..)
    | with_reducible apply ResAll.next'
    | (with_reducible apply Moves.foldl; intro _ _)

theorem State.cmoWrite_writes (s : State) (c : Nat) :
    Moves [.objs, .cache] s (State.cmoWrite s c) := by
  unfold State.cmoWrite
  repeat' first
    | with_reducible apply Moves.refl
    | assumption
    | ((with_reducible apply Within.mk); exact rfl)
    | with_reducible apply Moves.thenOp (State.oset_writes ..)
    | with_reducible apply Moves.ite
    | (with_reducible apply upd_parts <;> first | exact .inl rfl | exact .inr rfl)
    | simp only [Moves.mk_eq]
    | with_reducible refine MovesMk.upd rfl (.inl rfl) (.inl rfl) ?_ ?_
    | (with_reducible apply Moves.foldl; intro _ _)
    | dsimp only
    | split

theorem State.cmoDone_writes (s : State) :
    Moves [.objs, .cache] s (State.cmoDone s) := by
  unfold State.cmoDone
  repeat' first
    | with_reducible apply Moves.refl
    | ((with_reducible apply Within.mk); exact rfl)
    | with_reducible apply Moves.thenOp (State.oset_writes ..)
    | (with_reducible apply upd_parts <;> first | exact .inl rfl | exact .inr rfl)
    | simp only [Moves.mk_eq]
    | with_reducible refine MovesMk.upd rfl (.inl rfl) (.inl rfl) ?_ ?_

theorem State.cmoL2_writes (s : State) (ridge : Nat) (w : Way) (clean : Bool) :
    Moves [.objs, .depot, .cache, .coh, .link, .out] s (State.cmoL2 s ridge w clean) := by
  unfold State.cmoL2
  repeat' first
    | with_reducible apply Moves.refl
    | assumption
    | ((with_reducible apply Within.mk); exact rfl)
    | with_reducible apply Moves.thenOp (State.evictL2_writes ..)
    | with_reducible apply Moves.thenOp (State.mapL2_writes ..)
    | with_reducible apply Moves.thenOp (State.proxyWb_writes ..)
    | with_reducible apply Moves.thenOp (State.setDir_writes ..)
    | with_reducible apply Moves.thenOp (State.setRemote_writes ..)
    | with_reducible apply Moves.thenOp (State.leaveL2_writes ..)
    | with_reducible apply Moves.ite
    | (with_reducible apply upd_parts <;> first | exact .inl rfl | exact .inr rfl)
    | simp only [Moves.mk_eq]
    | with_reducible refine MovesMk.upd rfl (.inl rfl) (.inl rfl) ?_ ?_
    | (with_reducible apply Moves.foldl; intro _ _)
    | dsimp only
    | split

theorem State.cmoBySet_writes (s : State) (c : Nat) (w : Way) :
    Moves [.objs, .depot, .cache, .coh, .link, .out] s (State.cmoBySet s c w) := by
  unfold State.cmoBySet
  repeat' first
    | with_reducible apply Moves.refl
    | ((with_reducible apply Within.mk); exact rfl)
    | with_reducible apply Moves.thenOp (State.cmoL2_writes ..)
    | with_reducible apply Moves.thenOp (State.mapL2_writes ..)
    | with_reducible apply Moves.ite
    | (with_reducible apply upd_parts <;> first | exact .inl rfl | exact .inr rfl)
    | simp only [Moves.mk_eq]
    | with_reducible refine MovesMk.upd rfl (.inl rfl) (.inl rfl) ?_ ?_

theorem State.cmoLocal_writes (s : State) (l : Nat) (clean : Bool) :
    Moves [.cache, .coh] s (State.cmoLocal s l clean) := by
  unfold State.cmoLocal
  repeat' first
    | with_reducible apply Moves.refl
    | assumption
    | ((with_reducible apply Within.mk); exact rfl)
    | with_reducible apply Moves.thenOp (State.setDir_writes ..)
    | with_reducible apply Moves.ite
    | (with_reducible apply upd_parts <;> first | exact .inl rfl | exact .inr rfl)
    | simp only [Moves.mk_eq]
    | with_reducible refine MovesMk.upd rfl (.inl rfl) (.inl rfl) ?_ ?_
    | (with_reducible apply Moves.foldl; intro _ _)
    | dsimp only
    | split

theorem State.cmoByAddress_writes (s : State) (c : Nat) :
    Moves [.objs, .mem, .flash, .content, .depot, .cache, .coh, .link, .dram, .err, .mgmt, .out] s (State.cmoByAddress s c) := by
  unfold State.cmoByAddress
  repeat' first
    | with_reducible apply Moves.refl
    | assumption
    | ((with_reducible apply Within.mk); exact rfl)
    | with_reducible apply Moves.thenOp (State.cmoDone_writes ..)
    | with_reducible apply Moves.thenOp (State.cmoLocal_writes ..)
    | with_reducible apply Moves.thenOp (State.homeRequest_writes ..)
    | with_reducible apply Moves.thenOp (State.newTxn_writes ..)
    | with_reducible apply Moves.thenOp (State.request_writes ..)
    | with_reducible apply Moves.ite
    | (with_reducible apply upd_parts <;> first | exact .inl rfl | exact .inr rfl)
    | simp only [Moves.mk_eq]
    | with_reducible refine MovesMk.upd rfl (.inl rfl) (.inl rfl) ?_ ?_
    | (with_reducible apply Moves.foldl; intro _ _)
    | dsimp only
    | split

theorem State.cmoRun_writes (s : State) (op : Nat) :
    Moves [.objs, .mem, .flash, .content, .depot, .cache, .coh, .link, .dram, .err, .mgmt, .out] s (State.cmoRun s op) := by
  unfold State.cmoRun
  repeat' first
    | with_reducible apply Moves.refl
    | ((with_reducible apply Within.mk); exact rfl)
    | with_reducible apply Moves.thenOp (State.cmoByAddress_writes ..)
    | with_reducible apply Moves.thenOp (State.cmoBySet_writes ..)
    | with_reducible apply Moves.thenOp (State.cmoDone_writes ..)
    | with_reducible apply Moves.ite
    | split

theorem execClean_writes (s : State) :
    ResAll (fun t => Moves [.objs, .mem, .flash, .content, .depot, .cache, .coh, .link, .dram, .err, .mgmt, .out] s t) (execClean s) := by
  unfold execClean
  repeat' first
    | with_reducible apply Moves.refl
    | ((with_reducible apply Within.mk); exact rfl)
    | with_reducible apply Moves.thenOp (State.cmoRun_writes ..)
    | with_reducible apply ResAll.next'

theorem execInval_writes (s : State) :
    ResAll (fun t => Moves [.objs, .mem, .flash, .content, .depot, .cache, .coh, .link, .dram, .err, .mgmt, .out] s t) (execInval s) := by
  unfold execInval
  repeat' first
    | with_reducible apply Moves.refl
    | ((with_reducible apply Within.mk); exact rfl)
    | with_reducible apply Moves.thenOp (State.cmoRun_writes ..)
    | with_reducible apply ResAll.next'

theorem execCleaninval_writes (s : State) :
    ResAll (fun t => Moves [.objs, .mem, .flash, .content, .depot, .cache, .coh, .link, .dram, .err, .mgmt, .out] s t) (execCleaninval s) := by
  unfold execCleaninval
  repeat' first
    | with_reducible apply Moves.refl
    | ((with_reducible apply Within.mk); exact rfl)
    | with_reducible apply Moves.thenOp (State.cmoRun_writes ..)
    | with_reducible apply ResAll.next'

theorem State.setEnable_writes (s : State) (c : CacheSel) (on : Bool) :
    Moves [.objs] s (State.setEnable s c on) := by
  unfold State.setEnable
  repeat' first
    | with_reducible apply Moves.refl
    | ((with_reducible apply Within.mk); exact rfl)
    | with_reducible apply Moves.thenOp (State.oset_writes ..)
    | split

theorem State.disableCache_writes (s : State) (c : CacheSel) :
    Moves [.objs, .cache] s (State.disableCache s c) := by
  unfold State.disableCache
  repeat' first
    | with_reducible apply Moves.refl
    | ((with_reducible apply Within.mk); exact rfl)
    | with_reducible apply Moves.thenOp (State.setCacheState_writes ..)
    | with_reducible apply Moves.thenOp (State.setEnable_writes ..)
    | with_reducible apply Moves.ite

theorem State.enableCache_writes (s : State) (c : CacheSel) :
    Moves [.objs, .cache] s (State.enableCache s c) := by
  unfold State.enableCache
  repeat' first
    | with_reducible apply Moves.refl
    | ((with_reducible apply Within.mk); exact rfl)
    | with_reducible apply Moves.thenOp (State.setCacheState_writes ..)
    | with_reducible apply Moves.thenOp (State.setEnable_writes ..)
    | with_reducible apply Moves.ite

theorem State.sweepDone_writes (s : State) (c : CacheSel) :
    Moves [.objs, .depot, .cache, .coh, .link, .out] s (State.sweepDone s c) := by
  unfold State.sweepDone
  repeat' first
    | with_reducible apply Moves.refl
    | ((with_reducible apply Within.mk); exact rfl)
    | with_reducible apply Moves.thenOp (State.setCacheState_writes ..)
    | with_reducible apply Moves.thenOp (State.sweepL2_writes ..)
    | with_reducible apply Moves.thenOp (State.sweepSlc_writes ..)
    | with_reducible apply Moves.ite
    | split

theorem execCacheDisable_writes (c : CacheSel) (s : State) :
    ResAll (fun t => Moves [.objs, .cache] s t) (execCacheDisable c s) := by
  unfold execCacheDisable
  repeat' first
    | with_reducible apply Moves.refl
    | ((with_reducible apply Within.mk); exact rfl)
    | with_reducible apply Moves.thenOp (State.disableCache_writes ..)
    | with_reducible apply ResAll.next'

theorem execCacheEnable_writes (c : CacheSel) (s : State) :
    ResAll (fun t => Moves [.objs, .cache] s t) (execCacheEnable c s) := by
  unfold execCacheEnable
  repeat' first
    | with_reducible apply Moves.refl
    | ((with_reducible apply Within.mk); exact rfl)
    | with_reducible apply Moves.thenOp (State.enableCache_writes ..)
    | with_reducible apply ResAll.next'

theorem execCacheSweepDone_writes (c : CacheSel) (s : State) :
    ResAll (fun t => Moves [.objs, .depot, .cache, .coh, .link, .out] s t) (execCacheSweepDone c s) := by
  unfold execCacheSweepDone
  repeat' first
    | with_reducible apply Moves.refl
    | ((with_reducible apply Within.mk); exact rfl)
    | with_reducible apply Moves.thenOp (State.sweepDone_writes ..)
    | with_reducible apply ResAll.next'

/-! ## Writes -/

theorem State.stateRequest_writes (s : State) (v : Nat) :
    ExcAll (fun (a : State) => Moves [.freeCount, .objs, .sys, .flash, .pitch, .routes, .sched, .scn, .cairn, .summit, .content, .depot, .strands, .cache, .coh, .peers, .link, .hostMem, .host, .dram, .err, .mgmt, .out] s a) (State.stateRequest s v) := by
  unfold State.stateRequest
  repeat' first
    | with_reducible apply Moves.refl
    | ((with_reducible apply Within.mk); exact rfl)
    | with_reducible refine ExcAll.imp (fun _ h => Moves.thenOp h (Within.mk rfl) ?_) (State.bivouacRequest_writes ..)
    | with_reducible refine ExcAll.imp (fun _ h => Moves.thenOp h (Within.mk rfl) ?_) (State.exitRequest_writes ..)
    | with_reducible refine ExcAll.imp (fun _ h => Moves.thenOp h (Within.mk rfl) ?_) (State.formRequest_writes ..)
    | with_reducible apply Moves.thenOp (State.oset_writes ..)
    | with_reducible refine ExcAll.imp (fun _ h => Moves.thenOp h (Within.mk rfl) ?_) (State.retreatRequest_writes ..)
    | with_reducible refine ExcAll.imp (fun _ h => Moves.thenOp h (Within.mk rfl) ?_) (State.returnRequest_writes ..)
    | with_reducible apply ExcAll.ok'
    | with_reducible apply ExcAll.error'
    | with_reducible apply ExcAll.ite
    | split
    | with_reducible refine ExcAll.st ?_ (by assumption)

theorem State.extendSeven_writes (s : State) (d : List Byte) :
    Moves [.mgmt] s (State.extendSeven s d) := by
  unfold State.extendSeven
  repeat' first
    | with_reducible apply Moves.refl
    | (with_reducible apply upd_parts <;> first | exact .inl rfl | exact .inr rfl)
    | simp only [Moves.mk_eq]
    | with_reducible refine MovesMk.upd rfl (.inl rfl) (.inl rfl) ?_ ?_

theorem State.setChannels_writes (s : State) (t : Nat) (v : Nat) :
    ExcAll (fun (a : State) => Moves [.objs] s a) (State.setChannels s t v) := by
  unfold State.setChannels
  repeat' first
    | with_reducible apply Moves.refl
    | ((with_reducible apply Within.mk); exact rfl)
    | with_reducible apply Moves.thenOp (State.oset_writes ..)
    | with_reducible apply ExcAll.ok'
    | with_reducible apply ExcAll.error'
    | with_reducible apply ExcAll.ite

theorem State.setSlc_writes (s : State) (v : Nat) :
    Moves [.objs, .cache] s (State.setSlc s v) := by
  unfold State.setSlc
  repeat' first
    | with_reducible apply Moves.refl
    | ((with_reducible apply Within.mk); exact rfl)
    | with_reducible apply Moves.thenOp (State.disableCache_writes ..)
    | with_reducible apply Moves.thenOp (State.enableCache_writes ..)
    | with_reducible apply Moves.ite
    | (with_reducible apply Moves.foldl; intro _ _)

theorem State.testWrite_writes (s : State) (v : Nat) :
    Moves [.objs, .mem, .content, .depot, .dram] s (State.testWrite s v) := by
  unfold State.testWrite
  repeat' first
    | with_reducible apply Moves.refl
    | ((with_reducible apply Within.mk); exact rfl)
    | with_reducible apply Moves.thenOp (State.oset_writes ..)
    | with_reducible apply Moves.thenOp (State.testReadRaw_writes ..)
    | with_reducible apply Moves.thenOp (State.testWriteClean_writes ..)
    | with_reducible apply Moves.thenOp (State.testWriteGiven_writes ..)
    | with_reducible apply Moves.ite

theorem State.writeOne_writes (s : State) (i : Nat) (m : Nat) (v : Nat) :
    OptAll (fun (a : Except WFail State) => ExcAll (fun (a : State) => Moves [.freeCount, .objs, .mem, .sys, .flash, .pitch, .routes, .sched, .scn, .cairn, .summit, .content, .depot, .strands, .cache, .coh, .peers, .link, .hostMem, .host, .dram, .err, .mgmt, .out] s a) (a)) (State.writeOne s i m v) := by
  unfold State.writeOne
  repeat' first
    | with_reducible apply Moves.refl
    | assumption
    | ((with_reducible apply Within.mk); exact rfl)
    | with_reducible apply ExcAll.ok'
    | with_reducible apply ExcAll.error'
    | with_reducible apply Moves.thenOp (State.cmoWrite_writes ..)
    | with_reducible apply Moves.thenOp (State.driveFan_writes ..)
    | with_reducible apply Moves.thenOp (State.oset_writes ..)
    | with_reducible apply Moves.thenOp (State.setSlc_writes ..)
    | with_reducible refine ExcAll.imp (fun _ h => Moves.thenOp h (Within.mk rfl) ?_) (State.stateRequest_writes ..)
    | with_reducible apply Moves.thenOp (State.testWrite_writes ..)
    | with_reducible apply Moves.thenOp (State.tickOutFall_writes ..)
    | with_reducible apply OptAll.some'
    | with_reducible apply OptAll.none'
    | with_reducible apply OptAll.ite
    | with_reducible apply Moves.ite
    | (with_reducible apply upd_parts <;> first | exact .inl rfl | exact .inr rfl)
    | simp only [Moves.mk_eq]
    | with_reducible refine MovesMk.upd rfl (.inl rfl) (.inl rfl) ?_ ?_
    | (with_reducible apply Moves.foldl; intro _ _)
    | dsimp only
    | split

theorem State.writeTenant_writes (s : State) (t : Nat) (part : Nat) (m : Nat) (v : Nat) :
    OptAll (fun (a : Except WFail State) => ExcAll (fun (a : State) => Moves [.objs, .routes, .sched, .cairn, .content, .depot, .link, .hostMem, .host, .eng, .err, .mgmt, .out] s a) (a)) (State.writeTenant s t part m v) := by
  unfold State.writeTenant
  repeat' first
    | with_reducible apply Moves.refl
    | assumption
    | ((with_reducible apply Within.mk); exact rfl)
    | with_reducible apply ExcAll.ok'
    | with_reducible apply ExcAll.error'
    | with_reducible refine ExcAll.imp (fun _ h => Moves.thenOp h (Within.mk rfl) ?_) (State.setChannels_writes ..)
    | with_reducible apply Moves.thenOp (State.startReset_writes ..)
    | with_reducible apply OptAll.some'
    | with_reducible apply OptAll.none'
    | with_reducible apply OptAll.ite
    | with_reducible apply Moves.ite
    | (with_reducible apply upd_parts <;> first | exact .inl rfl | exact .inr rfl)
    | simp only [Moves.mk_eq]
    | with_reducible refine MovesMk.upd rfl (.inl rfl) (.inl rfl) ?_ ?_
    | (with_reducible apply Moves.foldl; intro _ _)
    | dsimp only
    | split

theorem State.writeRidge_writes (s : State) (i : Nat) (p : Nat) (part : Nat) (m : Nat) (v : Nat) :
    OptAll (fun (a : Except WFail State) => ExcAll (fun (a : State) => Moves [.objs, .sys, .flash, .cache] s a) (a)) (State.writeRidge s i p part m v) := by
  unfold State.writeRidge
  repeat' first
    | with_reducible apply Moves.refl
    | ((with_reducible apply Within.mk); exact rfl)
    | with_reducible apply Moves.thenOp (State.disableCache_writes ..)
    | with_reducible apply Moves.thenOp (State.enableCache_writes ..)
    | with_reducible apply Moves.thenOp (State.oset_writes ..)
    | with_reducible apply Moves.thenOp (State.ridgeRetire_writes ..)
    | with_reducible apply Moves.thenOp (State.ridgeUnretire_writes ..)
    | with_reducible apply OptAll.some'
    | with_reducible apply OptAll.none'
    | with_reducible apply ExcAll.ok'
    | with_reducible apply OptAll.ite
    | with_reducible apply Moves.ite

theorem State.writeCopy_writes (s : State) (i : Nat) (m : Nat) (v : Nat) :
    OptAll (fun (a : Except WFail State) => ExcAll (fun (a : State) => Moves [.freeCount, .objs, .mem, .sys, .flash, .routes, .sched, .scn, .cairn, .summit, .content, .depot, .strands, .cache, .coh, .peers, .link, .hostMem, .host, .eng, .dram, .err, .mgmt, .out] s a) (a)) (State.writeCopy s i m v) := by
  unfold State.writeCopy
  refine OptAll.ite (OptAll.some' (ExcAll.ok' (Moves.ite ?_ (Moves.refl ..)))) (OptAll.ite ?_ (OptAll.ite ?_ OptAll.none'))
  · exact (State.startRetrain_writes ..).mono (Within.mk rfl)
  · exact (State.writeTenant_writes ..).imp fun _ h => h.imp fun _ h => h.mono (Within.mk rfl)
  · exact (State.writeRidge_writes ..).imp fun _ h => h.imp fun _ h => h.mono (Within.mk rfl)

theorem State.writeBlob_writes (s : State) (i : Nat) (m : Nat) (b : List Byte) :
    ExcAll (fun (a : State) => Moves [.objs, .mgmt, .out] s a) (State.writeBlob s i m b) := by
  unfold State.writeBlob
  repeat' first
    | with_reducible apply Moves.refl
    | ((with_reducible apply Within.mk); exact rfl)
    | with_reducible apply Moves.thenOp (State.extendSeven_writes ..)
    | with_reducible apply Moves.thenOp (State.oput_writes ..)
    | with_reducible apply Moves.thenOp (State.remapRead_writes ..)
    | with_reducible apply ExcAll.ok'
    | with_reducible apply ExcAll.error'
    | with_reducible apply ExcAll.ite

theorem State.writeMember_writes (s : State) (i : Nat) (m : Nat) (v : ObjVal) :
    ExcAll (fun (a : State) => Moves [.freeCount, .objs, .mem, .sys, .flash, .pitch, .routes, .sched, .scn, .cairn, .summit, .content, .depot, .strands, .cache, .coh, .peers, .link, .hostMem, .host, .eng, .dram, .err, .mgmt, .out] s a) (State.writeMember s i m v) := by
  unfold State.writeMember
  repeat' first
    | with_reducible apply Moves.refl
    | ((with_reducible apply Within.mk); exact rfl)
    | with_reducible apply Moves.thenOp (State.oput_writes ..)
    | with_reducible refine ExcAll.imp (fun _ h => Moves.thenOp h (Within.mk rfl) ?_) (State.writeBlob_writes ..)
    | with_reducible exact ExcAll.imp (fun _ h => Moves.mono h (Within.mk rfl)) (OptAll.exc (State.writeCopy_writes ..) (by assumption))
    | with_reducible exact ExcAll.imp (fun _ h => Moves.mono h (Within.mk rfl)) (OptAll.exc (State.writeOne_writes ..) (by assumption))
    | with_reducible apply ExcAll.ok'
    | split

theorem State.writeMembers_writes (s : State) (i : Nat) (x2 : List (Nat × ObjVal)) :
    ExcAll (fun (a : State) => Moves [.freeCount, .objs, .mem, .sys, .flash, .pitch, .routes, .sched, .scn, .cairn, .summit, .content, .depot, .strands, .cache, .coh, .peers, .link, .hostMem, .host, .eng, .dram, .err, .mgmt, .out] s a) (State.writeMembers s i x2) := by
  induction x2 generalizing s i with
  | nil =>
    unfold State.writeMembers
    repeat' first
      | with_reducible apply Moves.refl
      | with_reducible apply ExcAll.ok'
  | cons a l ih =>
    unfold State.writeMembers
    repeat' first
      | with_reducible apply Moves.refl
      | with_reducible refine ExcAll.imp (fun _ h => Moves.thenOp h (Within.mk rfl) ?_) (ih ..)
      | with_reducible apply ExcAll.error'
      | split
      | with_reducible refine Moves.thenOp (ExcAll.st (State.writeMember_writes ..) (by assumption)) (Within.mk rfl) ?_

theorem State.burnOtp_writes (s : State) (l : List (Nat × ObjVal)) :
    ExcAll (fun (a : State) => Moves [.flash] s a) (State.burnOtp s l) := by
  unfold State.burnOtp
  repeat' first
    | with_reducible apply Moves.refl
    | with_reducible apply ExcAll.ok'
    | with_reducible apply ExcAll.error'
    | (with_reducible apply upd_parts <;> first | exact .inl rfl | exact .inr rfl)
    | simp only [Moves.mk_eq]
    | with_reducible refine MovesMk.upd rfl (.inl rfl) (.inl rfl) ?_ ?_
    | split

theorem State.writeObject_writes (s : State) (i : Nat) (inSession : Bool) (l : List (Nat × ObjVal)) :
    ExcAll (fun (a : State) => Moves [.freeCount, .objs, .mem, .sys, .flash, .pitch, .routes, .sched, .scn, .cairn, .summit, .content, .depot, .strands, .cache, .coh, .peers, .link, .hostMem, .host, .eng, .dram, .err, .mgmt, .out] s a) (State.writeObject s i inSession l) := by
  unfold State.writeObject
  repeat' first
    | with_reducible apply Moves.refl
    | assumption
    | ((with_reducible apply Within.mk); exact rfl)
    | with_reducible refine ExcAll.imp (fun _ h => Moves.thenOp h (Within.mk rfl) ?_) (State.burnOtp_writes ..)
    | with_reducible apply ExcAll.ok'
    | with_reducible apply ExcAll.error'
    | with_reducible apply ExcAll.ite
    | with_reducible apply Moves.ite
    | (with_reducible apply upd_parts <;> first | exact .inl rfl | exact .inr rfl)
    | simp only [Moves.mk_eq]
    | with_reducible refine MovesMk.upd rfl (.inl rfl) (.inl rfl) ?_ ?_
    | (with_reducible apply Moves.foldl; intro _ _)
    | dsimp only
    | split
    | with_reducible refine Moves.thenOp (ExcAll.st (State.writeMembers_writes ..) (by assumption)) (Within.mk rfl) ?_

theorem State.settleReset_writes (s : State) :
    Moves [.objs, .mem, .sys, .pitch, .routes, .sched, .scn, .cairn, .summit, .content, .depot, .strands, .cache, .coh, .peers, .link, .host, .eng, .dram, .err, .mgmt, .power, .out] s (State.settleReset s) := by
  unfold State.settleReset
  repeat' first
    | with_reducible apply Moves.refl
    | ((with_reducible apply Within.mk); exact rfl)
    | with_reducible apply Moves.thenOp (State.deviceReset_writes ..)
    | with_reducible apply Moves.thenOp (State.rstRelease_writes ..)
    | with_reducible apply Moves.ite

end Sys2Proof.Machine
end

