-- ==== Sys2Proof/Laws/FrameBrix.lean ====
section
/-! SUPPORT. What each function may write: Brix, the engines, filter rows, registers and SPDM. -/

set_option Elab.async false
set_option linter.all false
namespace Sys2Proof.Machine
open Sys2Proof

/-! ## Brix -/

theorem State.mailboxAnswer_writes (s : State) (t : Nat) (b : List Byte) :
    Moves [.host, .out] s (State.mailboxAnswer s t b) := by
  unfold State.mailboxAnswer
  repeat' first
    | with_reducible apply Moves.refl
    | ((with_reducible apply Within.mk); exact rfl)
    | with_reducible apply Moves.thenOp (State.mapFn_writes ..)
    | with_reducible apply Moves.thenOp (State.signal_writes ..)

theorem State.sendAnswer_writes (s : State) (src : BrixSrc) (b : List Byte) :
    Moves [.host, .out] s (State.sendAnswer s src b) := by
  unfold State.sendAnswer
  repeat' first
    | with_reducible apply Moves.refl
    | ((with_reducible apply Within.mk); exact rfl)
    | with_reducible apply Moves.thenOp (State.emit_writes ..)
    | with_reducible apply Moves.thenOp (State.mailboxAnswer_writes ..)
    | split

theorem State.noteViolation_writes (s : State) (src : BrixSrc) :
    Moves [.objs, .mgmt] s ((State.noteViolation s src).2) := by
  unfold State.noteViolation
  repeat' first
    | with_reducible apply Moves.refl
    | ((with_reducible apply Within.mk); exact rfl)
    | with_reducible apply Moves.thenOp (State.oinc_writes ..)
    | (with_reducible apply upd_parts <;> first | exact .inl rfl | exact .inr rfl)
    | simp only [Moves.mk_eq]
    | with_reducible refine MovesMk.upd rfl (.inl rfl) (.inl rfl) ?_ ?_

theorem State.dropSession_writes (s : State) (id : Nat) :
    Moves [.mgmt] s (State.dropSession s id) := by
  unfold State.dropSession
  repeat' first
    | with_reducible apply Moves.refl
    | (with_reducible apply upd_parts <;> first | exact .inl rfl | exact .inr rfl)
    | simp only [Moves.mk_eq]
    | with_reducible refine MovesMk.upd rfl (.inl rfl) (.inl rfl) ?_ ?_

theorem State.updSession_writes (s : State) (id : Nat) (f : Session → Session) :
    Moves [.mgmt] s (State.updSession s id f) := by
  unfold State.updSession
  repeat' first
    | with_reducible apply Moves.refl
    | (with_reducible apply upd_parts <;> first | exact .inl rfl | exact .inr rfl)
    | simp only [Moves.mk_eq]
    | with_reducible refine MovesMk.upd rfl (.inl rfl) (.inl rfl) ?_ ?_

theorem State.keepAnswer_writes (s : State) (src : BrixSrc) (seq : Nat) (b : List Byte) :
    Moves [.mgmt] s (State.keepAnswer s src seq b) := by
  unfold State.keepAnswer
  repeat' first
    | with_reducible apply Moves.refl
    | (with_reducible apply upd_parts <;> first | exact .inl rfl | exact .inr rfl)
    | simp only [Moves.mk_eq]
    | with_reducible refine MovesMk.upd rfl (.inl rfl) (.inl rfl) ?_ ?_

theorem State.touchContext_writes (s : State) (c : SeqCtx) :
    Moves [.mgmt] s (State.touchContext s c) := by
  unfold State.touchContext
  repeat' first
    | with_reducible apply Moves.refl
    | (with_reducible apply upd_parts <;> first | exact .inl rfl | exact .inr rfl)
    | simp only [Moves.mk_eq]
    | with_reducible refine MovesMk.upd rfl (.inl rfl) (.inl rfl) ?_ ?_

theorem State.readMembers_writes (s : State) (i : Nat) (room : Nat) (x3 : List Nat) :
    ExcAll (fun (a : List Byte × State) => Moves [.err] s (a).2) (State.readMembers s i room x3) := by
  induction x3 generalizing s i room with
  | nil =>
    unfold State.readMembers
    repeat' first
      | with_reducible apply Moves.refl
      | with_reducible apply ExcAll.ok'
  | cons a l ih =>
    unfold State.readMembers
    repeat' first
      | with_reducible apply Moves.refl
      | ((with_reducible apply Within.mk); exact rfl)
      | with_reducible apply Moves.thenOp (State.readMember_writes ..)
      | with_reducible refine ExcAll.imp (fun _ h => Moves.thenOp h (Within.mk rfl) ?_) (ih ..)
      | with_reducible apply ExcAll.ok'
      | with_reducible apply ExcAll.error'
      | with_reducible apply ExcAll.ite
      | simp only [Moves.mk_eq]
      | split
      | with_reducible refine ExcAll.stSnd ?_ (by assumption)

theorem State.failed_writes (s : State) (result : Nat) (payload : List Byte) :
    Moves [] s ((State.failed s result payload).2.2) := by
  unfold State.failed
  repeat' (with_reducible apply Moves.refl)

theorem State.doRead_writes (s : State) (src : BrixSrc) (inSession : Bool) (p : List Byte) :
    Moves [.err] s ((State.doRead s src inSession p).2.2) := by
  unfold State.doRead
  repeat' first
    | with_reducible apply Moves.refl
    | ((with_reducible apply Within.mk); exact rfl)
    | with_reducible apply Moves.thenOp (State.failed_writes ..)
    | split
    | dsimp only
    | with_reducible refine Moves.thenOp (ExcAll.stSnd (State.readMembers_writes ..) (by assumption)) (Within.mk rfl) ?_

theorem State.doWrite_writes (s : State) (src : BrixSrc) (inSession : Bool) (p : List Byte) :
    Moves [.freeCount, .objs, .mem, .sys, .flash, .pitch, .routes, .sched, .scn, .cairn, .summit, .content, .depot, .strands, .cache, .coh, .peers, .link, .hostMem, .host, .eng, .dram, .err, .mgmt, .out] s ((State.doWrite s src inSession p).2.2) := by
  unfold State.doWrite
  repeat' first
    | with_reducible apply Moves.refl
    | ((with_reducible apply Within.mk); exact rfl)
    | with_reducible apply Moves.thenOp (State.failed_writes ..)
    | split
    | dsimp only
    | with_reducible refine Moves.thenOp (ExcAll.st (State.writeObject_writes ..) (by assumption)) (Within.mk rfl) ?_

theorem State.doOpen_writes (s : State) (src : BrixSrc) (p : List Byte) :
    Moves [.freeCount, .mgmt] s ((State.doOpen s src p).2.2) := by
  unfold State.doOpen
  repeat' first
    | with_reducible apply Moves.refl
    | ((with_reducible apply Within.mk); exact rfl)
    | with_reducible apply Moves.thenOp (State.failed_writes ..)
    | with_reducible apply Moves.thenOp (State.free_writes ..)
    | (with_reducible apply upd_parts <;> first | exact .inl rfl | exact .inr rfl)
    | simp only [Moves.mk_eq]
    | with_reducible refine MovesMk.upd rfl (.inl rfl) (.inl rfl) ?_ ?_
    | split

theorem State.setupFailed_writes (s : State) (src : BrixSrc) (id : Nat) :
    Moves [.mgmt] s (State.setupFailed s src id) := by
  unfold State.setupFailed
  repeat' first
    | with_reducible apply Moves.refl
    | ((with_reducible apply Within.mk); exact rfl)
    | with_reducible apply Moves.thenOp (State.dropSession_writes ..)
    | (with_reducible apply upd_parts <;> first | exact .inl rfl | exact .inr rfl)
    | simp only [Moves.mk_eq]
    | with_reducible refine MovesMk.upd rfl (.inl rfl) (.inl rfl) ?_ ?_

theorem State.doFinish_writes (s : State) (src : BrixSrc) (id : Nat) (p : List Byte) :
    Moves [.mgmt] s ((State.doFinish s src id p).2.2) := by
  unfold State.doFinish
  repeat' first
    | with_reducible apply Moves.refl
    | ((with_reducible apply Within.mk); exact rfl)
    | with_reducible apply Moves.thenOp (State.failed_writes ..)
    | with_reducible apply Moves.thenOp (State.setupFailed_writes ..)
    | with_reducible apply Moves.thenOp (State.updSession_writes ..)
    | split
    | dsimp only

theorem State.doMeasure_writes (s : State) (version : Nat) (seq : Nat) (session : Nat) (p : List Byte) :
    Moves [.freeCount] s ((State.doMeasure s version seq session p).2.2) := by
  unfold State.doMeasure
  repeat' first
    | with_reducible apply Moves.refl
    | ((with_reducible apply Within.mk); exact rfl)
    | with_reducible apply Moves.thenOp (State.failed_writes ..)
    | (with_reducible apply upd_parts <;> first | exact .inl rfl | exact .inr rfl)
    | simp only [Moves.mk_eq]
    | with_reducible refine MovesMk.upd rfl (.inl rfl) (.inl rfl) ?_ ?_
    | split

theorem State.doAck_writes (s : State) (p : List Byte) :
    Moves [.mgmt] s ((State.doAck s p).2.2) := by
  unfold State.doAck
  repeat' first
    | with_reducible apply Moves.refl
    | ((with_reducible apply Within.mk); exact rfl)
    | with_reducible apply Moves.thenOp (State.failed_writes ..)
    | (with_reducible apply upd_parts <;> first | exact .inl rfl | exact .inr rfl)
    | simp only [Moves.mk_eq]
    | with_reducible refine MovesMk.upd rfl (.inl rfl) (.inl rfl) ?_ ?_
    | split

theorem State.brixAct_writes (s : State) (src : BrixSrc) (version : Nat) (op : Nat) (seq : Nat) (session : Nat) (inSession : Bool) (p : List Byte) :
    Moves [.freeCount, .objs, .mem, .sys, .flash, .pitch, .routes, .sched, .scn, .cairn, .summit, .content, .depot, .strands, .cache, .coh, .peers, .link, .hostMem, .host, .eng, .dram, .err, .mgmt, .out] s ((State.brixAct s src version op seq session inSession p).2.2) := by
  unfold State.brixAct
  repeat' first
    | with_reducible apply Moves.refl
    | ((with_reducible apply Within.mk); exact rfl)
    | with_reducible apply Moves.thenOp (State.doAck_writes ..)
    | with_reducible apply Moves.thenOp (State.doFinish_writes ..)
    | with_reducible apply Moves.thenOp (State.doMeasure_writes ..)
    | with_reducible apply Moves.thenOp (State.doOpen_writes ..)
    | with_reducible apply Moves.thenOp (State.doRead_writes ..)
    | with_reducible apply Moves.thenOp (State.doWrite_writes ..)
    | with_reducible apply Moves.thenOp (State.dropSession_writes ..)
    | with_reducible apply Moves.thenOp (State.failed_writes ..)
    | split

theorem State.violate_writes (s : State) (m : BrixMsg) (key : Option (List Byte)) (result : Nat) (payload : List Byte) :
    Moves [.objs, .host, .mgmt, .out] s (State.violate s m key result payload) := by
  unfold State.violate
  repeat' first
    | with_reducible apply Moves.refl
    | ((with_reducible apply Within.mk); exact rfl)
    | with_reducible apply Moves.thenOp (State.noteViolation_writes ..)
    | with_reducible apply Moves.thenOp (State.sendAnswer_writes ..)
    | with_reducible apply Moves.ite

theorem State.inSession_writes (s : State) (m : BrixMsg) (x : Session) :
    Moves [.freeCount, .objs, .mem, .sys, .flash, .pitch, .routes, .sched, .scn, .cairn, .summit, .content, .depot, .strands, .cache, .coh, .peers, .link, .hostMem, .host, .eng, .dram, .err, .mgmt, .power, .out] s (State.inSession s m x) := by
  unfold State.inSession
  repeat' first
    | with_reducible apply Moves.refl
    | ((with_reducible apply Within.mk); exact rfl)
    | with_reducible apply Moves.thenOp (State.brixAct_writes ..)
    | with_reducible apply Moves.thenOp (State.sendAnswer_writes ..)
    | with_reducible apply Moves.thenOp (State.settleReset_writes ..)
    | with_reducible apply Moves.thenOp (State.updSession_writes ..)
    | with_reducible apply Moves.thenOp (State.violate_writes ..)
    | with_reducible apply Moves.ite
    | split

theorem State.outside_writes (s : State) (m : BrixMsg) :
    Moves [.freeCount, .objs, .mem, .sys, .flash, .pitch, .routes, .sched, .scn, .cairn, .summit, .content, .depot, .strands, .cache, .coh, .peers, .link, .hostMem, .host, .eng, .dram, .err, .mgmt, .power, .out] s (State.outside s m) := by
  unfold State.outside
  repeat' first
    | with_reducible apply Moves.refl
    | ((with_reducible apply Within.mk); exact rfl)
    | with_reducible apply Moves.thenOp (State.brixAct_writes ..)
    | with_reducible apply Moves.thenOp (State.keepAnswer_writes ..)
    | with_reducible apply Moves.thenOp (State.sendAnswer_writes ..)
    | with_reducible apply Moves.thenOp (State.settleReset_writes ..)
    | with_reducible apply Moves.thenOp (State.touchContext_writes ..)
    | with_reducible apply Moves.thenOp (State.violate_writes ..)
    | with_reducible apply Moves.ite
    | split

theorem State.romPing_writes (s : State) (m : BrixMsg) :
    Moves [.host, .out] s (State.romPing s m) := by
  unfold State.romPing
  repeat' first
    | with_reducible apply Moves.refl
    | ((with_reducible apply Within.mk); exact rfl)
    | with_reducible apply Moves.thenOp (State.sendAnswer_writes ..)
    | with_reducible apply Moves.ite

theorem State.brixIn_writes (s : State) (src : BrixSrc) (b : List Byte) :
    Moves [.freeCount, .objs, .mem, .sys, .flash, .pitch, .routes, .sched, .scn, .cairn, .summit, .content, .depot, .strands, .cache, .coh, .peers, .link, .hostMem, .host, .eng, .dram, .err, .mgmt, .power, .out] s (State.brixIn s src b) := by
  unfold State.brixIn
  repeat' first
    | with_reducible apply Moves.refl
    | ((with_reducible apply Within.mk); exact rfl)
    | with_reducible apply Moves.thenOp (State.inSession_writes ..)
    | with_reducible apply Moves.thenOp (State.noteViolation_writes ..)
    | with_reducible apply Moves.thenOp (State.oinc_writes ..)
    | with_reducible apply Moves.thenOp (State.outside_writes ..)
    | with_reducible apply Moves.thenOp (State.romPing_writes ..)
    | with_reducible apply Moves.thenOp (State.sendAnswer_writes ..)
    | with_reducible apply Moves.thenOp (State.violate_writes ..)
    | with_reducible apply Moves.ite
    | split

theorem execBrixPing_writes (r : BrixReq) (s : State) :
    ResAll (fun t => Moves [.freeCount, .objs, .mem, .sys, .flash, .pitch, .routes, .sched, .scn, .cairn, .summit, .content, .depot, .strands, .cache, .coh, .peers, .link, .hostMem, .host, .eng, .dram, .err, .mgmt, .power, .out] s t) (execBrixPing r s) := by
  unfold execBrixPing
  repeat' first
    | with_reducible apply Moves.refl
    | ((with_reducible apply Within.mk); exact rfl)
    | with_reducible apply Moves.thenOp (State.brixIn_writes ..)
    | with_reducible apply ResAll.next'

theorem execBrixRead_writes (r : BrixReq) (s : State) :
    ResAll (fun t => Moves [.freeCount, .objs, .mem, .sys, .flash, .pitch, .routes, .sched, .scn, .cairn, .summit, .content, .depot, .strands, .cache, .coh, .peers, .link, .hostMem, .host, .eng, .dram, .err, .mgmt, .power, .out] s t) (execBrixRead r s) := by
  unfold execBrixRead
  repeat' first
    | with_reducible apply Moves.refl
    | ((with_reducible apply Within.mk); exact rfl)
    | with_reducible apply Moves.thenOp (State.brixIn_writes ..)
    | with_reducible apply ResAll.next'

theorem execBrixWrite_writes (r : BrixReq) (s : State) :
    ResAll (fun t => Moves [.freeCount, .objs, .mem, .sys, .flash, .pitch, .routes, .sched, .scn, .cairn, .summit, .content, .depot, .strands, .cache, .coh, .peers, .link, .hostMem, .host, .eng, .dram, .err, .mgmt, .power, .out] s t) (execBrixWrite r s) := by
  unfold execBrixWrite
  repeat' first
    | with_reducible apply Moves.refl
    | ((with_reducible apply Within.mk); exact rfl)
    | with_reducible apply Moves.thenOp (State.brixIn_writes ..)
    | with_reducible apply ResAll.next'

theorem execBrixList_writes (r : BrixReq) (s : State) :
    ResAll (fun t => Moves [.freeCount, .objs, .mem, .sys, .flash, .pitch, .routes, .sched, .scn, .cairn, .summit, .content, .depot, .strands, .cache, .coh, .peers, .link, .hostMem, .host, .eng, .dram, .err, .mgmt, .power, .out] s t) (execBrixList r s) := by
  unfold execBrixList
  repeat' first
    | with_reducible apply Moves.refl
    | ((with_reducible apply Within.mk); exact rfl)
    | with_reducible apply Moves.thenOp (State.brixIn_writes ..)
    | with_reducible apply ResAll.next'

theorem execSessionOpen_writes (r : BrixReq) (s : State) :
    ResAll (fun t => Moves [.freeCount, .objs, .mem, .sys, .flash, .pitch, .routes, .sched, .scn, .cairn, .summit, .content, .depot, .strands, .cache, .coh, .peers, .link, .hostMem, .host, .eng, .dram, .err, .mgmt, .power, .out] s t) (execSessionOpen r s) := by
  unfold execSessionOpen
  repeat' first
    | with_reducible apply Moves.refl
    | ((with_reducible apply Within.mk); exact rfl)
    | with_reducible apply Moves.thenOp (State.brixIn_writes ..)
    | with_reducible apply ResAll.next'

theorem execSessionFinish_writes (r : BrixReq) (s : State) :
    ResAll (fun t => Moves [.freeCount, .objs, .mem, .sys, .flash, .pitch, .routes, .sched, .scn, .cairn, .summit, .content, .depot, .strands, .cache, .coh, .peers, .link, .hostMem, .host, .eng, .dram, .err, .mgmt, .power, .out] s t) (execSessionFinish r s) := by
  unfold execSessionFinish
  repeat' first
    | with_reducible apply Moves.refl
    | ((with_reducible apply Within.mk); exact rfl)
    | with_reducible apply Moves.thenOp (State.brixIn_writes ..)
    | with_reducible apply ResAll.next'

theorem execSessionClose_writes (r : BrixReq) (s : State) :
    ResAll (fun t => Moves [.freeCount, .objs, .mem, .sys, .flash, .pitch, .routes, .sched, .scn, .cairn, .summit, .content, .depot, .strands, .cache, .coh, .peers, .link, .hostMem, .host, .eng, .dram, .err, .mgmt, .power, .out] s t) (execSessionClose r s) := by
  unfold execSessionClose
  repeat' first
    | with_reducible apply Moves.refl
    | ((with_reducible apply Within.mk); exact rfl)
    | with_reducible apply Moves.thenOp (State.brixIn_writes ..)
    | with_reducible apply ResAll.next'

theorem execMeasure_writes (r : BrixReq) (s : State) :
    ResAll (fun t => Moves [.freeCount, .objs, .mem, .sys, .flash, .pitch, .routes, .sched, .scn, .cairn, .summit, .content, .depot, .strands, .cache, .coh, .peers, .link, .hostMem, .host, .eng, .dram, .err, .mgmt, .power, .out] s t) (execMeasure r s) := by
  unfold execMeasure
  repeat' first
    | with_reducible apply Moves.refl
    | ((with_reducible apply Within.mk); exact rfl)
    | with_reducible apply Moves.thenOp (State.brixIn_writes ..)
    | with_reducible apply ResAll.next'

theorem execEventAck_writes (r : BrixReq) (s : State) :
    ResAll (fun t => Moves [.freeCount, .objs, .mem, .sys, .flash, .pitch, .routes, .sched, .scn, .cairn, .summit, .content, .depot, .strands, .cache, .coh, .peers, .link, .hostMem, .host, .eng, .dram, .err, .mgmt, .power, .out] s t) (execEventAck r s) := by
  unfold execEventAck
  repeat' first
    | with_reducible apply Moves.refl
    | ((with_reducible apply Within.mk); exact rfl)
    | with_reducible apply Moves.thenOp (State.brixIn_writes ..)
    | with_reducible apply ResAll.next'

theorem execOtpWrite_writes (r : BrixReq) (s : State) :
    ResAll (fun t => Moves [.freeCount, .objs, .mem, .sys, .flash, .pitch, .routes, .sched, .scn, .cairn, .summit, .content, .depot, .strands, .cache, .coh, .peers, .link, .hostMem, .host, .eng, .dram, .err, .mgmt, .power, .out] s t) (execOtpWrite r s) := by
  unfold execOtpWrite
  repeat' first
    | with_reducible apply Moves.refl
    | ((with_reducible apply Within.mk); exact rfl)
    | with_reducible apply Moves.thenOp (State.brixIn_writes ..)
    | with_reducible apply ResAll.next'
    | with_reducible apply Moves.ite

theorem execMeasExtend_writes (r : BrixReq) (s : State) :
    ResAll (fun t => Moves [.freeCount, .objs, .mem, .sys, .flash, .pitch, .routes, .sched, .scn, .cairn, .summit, .content, .depot, .strands, .cache, .coh, .peers, .link, .hostMem, .host, .eng, .dram, .err, .mgmt, .power, .out] s t) (execMeasExtend r s) := by
  unfold execMeasExtend
  repeat' first
    | with_reducible apply Moves.refl
    | ((with_reducible apply Within.mk); exact rfl)
    | with_reducible apply Moves.thenOp (State.brixIn_writes ..)
    | with_reducible apply ResAll.next'
    | with_reducible apply Moves.ite

theorem State.brixBad_writes (s : State) (src : BrixSrc) (b : List Byte) :
    Moves [.freeCount, .objs, .mem, .sys, .flash, .pitch, .routes, .sched, .scn, .cairn, .summit, .content, .depot, .strands, .cache, .coh, .peers, .link, .hostMem, .host, .eng, .dram, .err, .mgmt, .power, .out] s (State.brixBad s src b) := by
  unfold State.brixBad
  repeat' first
    | with_reducible apply Moves.refl
    | ((with_reducible apply Within.mk); exact rfl)
    | with_reducible apply Moves.thenOp (State.brixIn_writes ..)
    | with_reducible apply Moves.thenOp (State.noteViolation_writes ..)
    | with_reducible apply Moves.ite

theorem execBrixViolation_writes (src : BrixSrc) (b : List Byte) (s : State) :
    ResAll (fun t => Moves [.freeCount, .objs, .mem, .sys, .flash, .pitch, .routes, .sched, .scn, .cairn, .summit, .content, .depot, .strands, .cache, .coh, .peers, .link, .hostMem, .host, .eng, .dram, .err, .mgmt, .power, .out] s t) (execBrixViolation src b s) := by
  unfold execBrixViolation
  repeat' first
    | with_reducible apply Moves.refl
    | ((with_reducible apply Within.mk); exact rfl)
    | with_reducible apply Moves.thenOp (State.brixBad_writes ..)
    | with_reducible apply ResAll.next'

theorem State.resendEvent_writes (s : State) (q : Nat) :
    Moves [.mgmt, .out] s (State.resendEvent s q) := by
  unfold State.resendEvent
  repeat' first
    | with_reducible apply Moves.refl
    | ((with_reducible apply Within.mk); exact rfl)
    | with_reducible apply Moves.thenOp (State.emit_writes ..)
    | with_reducible apply Moves.ite
    | (with_reducible apply upd_parts <;> first | exact .inl rfl | exact .inr rfl)
    | simp only [Moves.mk_eq]
    | with_reducible refine MovesMk.upd rfl (.inl rfl) (.inl rfl) ?_ ?_
    | split

theorem execEventResend_writes (q : Nat) (s : State) :
    ResAll (fun t => Moves [.mgmt, .out] s t) (execEventResend q s) := by
  unfold execEventResend
  repeat' first
    | with_reducible apply Moves.refl
    | ((with_reducible apply Within.mk); exact rfl)
    | with_reducible apply Moves.thenOp (State.resendEvent_writes ..)
    | with_reducible apply ResAll.next'

theorem execSessionIdleTimeout_writes (id : Nat) (s : State) :
    ResAll (fun t => Moves [.mgmt] s t) (execSessionIdleTimeout id s) := by
  unfold execSessionIdleTimeout
  repeat' first
    | with_reducible apply Moves.refl
    | ((with_reducible apply Within.mk); exact rfl)
    | with_reducible apply Moves.thenOp (State.dropSession_writes ..)
    | with_reducible apply ResAll.next'

theorem execAuthLockoutExpiry_writes (src : BrixSrc) (s : State) :
    ResAll (fun t => Moves [.mgmt] s t) (execAuthLockoutExpiry src s) := by
  unfold execAuthLockoutExpiry
  repeat' first
    | with_reducible apply Moves.refl
    | with_reducible apply ResAll.next'
    | (with_reducible apply upd_parts <;> first | exact .inl rfl | exact .inr rfl)
    | simp only [Moves.mk_eq]
    | with_reducible refine MovesMk.upd rfl (.inl rfl) (.inl rfl) ?_ ?_

/-! ## Engines -/

theorem State.nextEngine_writes (s : State) :
    Moves [.eng] s (State.nextEngine s) := by
  unfold State.nextEngine
  repeat' first
    | with_reducible apply Moves.refl
    | (with_reducible apply upd_parts <;> first | exact .inl rfl | exact .inr rfl)
    | simp only [Moves.mk_eq]
    | with_reducible refine MovesMk.upd rfl (.inl rfl) (.inl rfl) ?_ ?_

theorem State.admitEngine_writes (s : State) (e : Entry) :
    Moves [.eng] s (State.admitEngine s e) := by
  unfold State.admitEngine
  repeat' first
    | with_reducible apply Moves.refl
    | ((with_reducible apply Within.mk); exact rfl)
    | with_reducible apply Moves.thenOp (State.nextEngine_writes ..)
    | with_reducible apply Moves.thenOp (State.setChan_writes ..)

theorem State.takeCtx_writes (s : State) (e : Entry) :
    Moves [.eng] s (State.takeCtx s e) := by
  unfold State.takeCtx
  repeat' first
    | with_reducible apply Moves.refl
    | ((with_reducible apply Within.mk); exact rfl)
    | with_reducible apply Moves.thenOp (State.putCtx_writes ..)
    | split

theorem State.onEngine_writes {l : List Field} {s : State} {e : Entry} {op : Nat} {f : State → State} (hl : Within [.routes, .cairn, .hostMem, .host, .out] l)
    (hf : ∀ y0, Moves l y0 (f y0)) :
    ResAll (fun t => Moves l s t) (State.onEngine s e op f) := by
  unfold State.onEngine
  repeat' first
    | with_reducible apply Moves.refl
    | assumption
    | ((with_reducible apply Within.mk); exact rfl)
    | ((with_reducible refine Within.trans ?_ hl); (with_reducible apply Within.mk); exact rfl)
    | with_reducible refine Moves.trans ?_ (hf _)
    | with_reducible apply Moves.thenOp (State.dropFetched_writes ..)
    | with_reducible apply Moves.thenOp (State.finishEntry_writes ..)
    | with_reducible refine State.onEntry_writes (Within.trans (Within.mk rfl) hl) (fun _ => ?_)
    | with_reducible apply ResAll.next'
    | with_reducible apply ResAll.ite
    | with_reducible apply Moves.ite
    | (with_reducible apply upd_parts <;> first | exact .inl rfl | exact .inr rfl)
    | simp only [Moves.mk_eq]
    | with_reducible refine MovesMk.upd rfl (.inl rfl) (.inl rfl) ?_ ?_
    | (with_reducible apply Moves.foldl; intro _ _)
    | dsimp only
    | split

theorem execDmaCopy_writes (e : Entry) (s : State) :
    ResAll (fun t => Moves [.routes, .cairn, .hostMem, .host, .eng, .out] s t) (execDmaCopy e s) := by
  unfold execDmaCopy
  repeat' first
    | with_reducible apply Moves.refl
    | ((with_reducible apply Within.mk); exact rfl)
    | with_reducible apply Moves.thenOp (State.admitEngine_writes ..)
    | with_reducible refine State.onEngine_writes (Within.mk rfl) (fun _ => ?_)

theorem execCompress_writes (e : Entry) (s : State) :
    ResAll (fun t => Moves [.routes, .cairn, .hostMem, .host, .eng, .out] s t) (execCompress e s) := by
  unfold execCompress
  repeat' first
    | with_reducible apply Moves.refl
    | ((with_reducible apply Within.mk); exact rfl)
    | with_reducible apply Moves.thenOp (State.admitEngine_writes ..)
    | with_reducible refine State.onEngine_writes (Within.mk rfl) (fun _ => ?_)

theorem execDecompress_writes (e : Entry) (s : State) :
    ResAll (fun t => Moves [.routes, .cairn, .hostMem, .host, .eng, .out] s t) (execDecompress e s) := by
  unfold execDecompress
  repeat' first
    | with_reducible apply Moves.refl
    | ((with_reducible apply Within.mk); exact rfl)
    | with_reducible apply Moves.thenOp (State.admitEngine_writes ..)
    | with_reducible refine State.onEngine_writes (Within.mk rfl) (fun _ => ?_)

theorem execDigestOpen_writes (e : Entry) (s : State) :
    ResAll (fun t => Moves [.routes, .cairn, .hostMem, .host, .eng, .out] s t) (execDigestOpen e s) := by
  unfold execDigestOpen
  repeat' first
    | with_reducible apply Moves.refl
    | ((with_reducible apply Within.mk); exact rfl)
    | with_reducible apply Moves.thenOp (State.admitEngine_writes ..)
    | with_reducible apply Moves.thenOp (State.takeCtx_writes ..)
    | with_reducible refine State.onEngine_writes (Within.mk rfl) (fun _ => ?_)

theorem execDigestFeed_writes (e : Entry) (s : State) :
    ResAll (fun t => Moves [.routes, .cairn, .hostMem, .host, .eng, .out] s t) (execDigestFeed e s) := by
  unfold execDigestFeed
  repeat' first
    | with_reducible apply Moves.refl
    | ((with_reducible apply Within.mk); exact rfl)
    | with_reducible apply Moves.thenOp (State.admitEngine_writes ..)
    | with_reducible refine State.onEngine_writes (Within.mk rfl) (fun _ => ?_)

theorem execDigestRead_writes (e : Entry) (s : State) :
    ResAll (fun t => Moves [.routes, .cairn, .hostMem, .host, .eng, .out] s t) (execDigestRead e s) := by
  unfold execDigestRead
  repeat' first
    | with_reducible apply Moves.refl
    | ((with_reducible apply Within.mk); exact rfl)
    | with_reducible apply Moves.thenOp (State.admitEngine_writes ..)
    | with_reducible refine State.onEngine_writes (Within.mk rfl) (fun _ => ?_)

theorem State.controlEnds_writes (s : State) (e : Entry) (status : Nat) (value : Nat) :
    Moves [.routes, .cairn, .hostMem, .host, .eng, .out] s (State.controlEnds s e status value) := by
  unfold State.controlEnds
  repeat' first
    | with_reducible apply Moves.refl
    | ((with_reducible apply Within.mk); exact rfl)
    | with_reducible apply Moves.thenOp (State.nextEngine_writes ..)
    | with_reducible apply Moves.thenOp (State.postEngine_writes ..)

theorem State.stopChannel_writes (s : State) (e : Entry) :
    Moves [.routes, .cairn, .hostMem, .host, .eng, .out] s (State.stopChannel s e) := by
  unfold State.stopChannel
  repeat' first
    | with_reducible apply Moves.refl
    | ((with_reducible apply Within.mk); exact rfl)
    | with_reducible apply Moves.thenOp (State.controlEnds_writes ..)
    | with_reducible apply Moves.thenOp (State.nextEngine_writes ..)
    | with_reducible apply Moves.thenOp (State.setChan_writes ..)
    | with_reducible apply Moves.ite
    | split
    | dsimp only

theorem State.resumeChannel_writes (s : State) (e : Entry) :
    Moves [.routes, .cairn, .hostMem, .host, .eng, .out] s (State.resumeChannel s e) := by
  unfold State.resumeChannel
  repeat' first
    | with_reducible apply Moves.refl
    | ((with_reducible apply Within.mk); exact rfl)
    | with_reducible apply Moves.thenOp (State.controlEnds_writes ..)
    | with_reducible apply Moves.thenOp (State.setChan_writes ..)
    | split
    | dsimp only

theorem State.flushEntry_writes (s : State) (x : EngEntry) :
    Moves [.routes, .cairn, .hostMem, .host, .eng, .out] s (State.flushEntry s x) := by
  unfold State.flushEntry
  repeat' first
    | with_reducible apply Moves.refl
    | assumption
    | ((with_reducible apply Within.mk); exact rfl)
    | with_reducible apply Moves.thenOp (State.dropCtx_writes ..)
    | with_reducible apply Moves.thenOp (State.postEngine_writes ..)
    | with_reducible apply Moves.ite
    | (with_reducible apply upd_parts <;> first | exact .inl rfl | exact .inr rfl)
    | simp only [Moves.mk_eq]
    | with_reducible refine MovesMk.upd rfl (.inl rfl) (.inl rfl) ?_ ?_
    | (with_reducible apply Moves.foldl; intro _ _)
    | dsimp only
    | split

theorem State.flushChannel_writes (s : State) (e : Entry) :
    Moves [.routes, .cairn, .hostMem, .host, .eng, .out] s (State.flushChannel s e) := by
  unfold State.flushChannel
  repeat' first
    | with_reducible apply Moves.refl
    | ((with_reducible apply Within.mk); exact rfl)
    | with_reducible apply Moves.thenOp (State.controlEnds_writes ..)
    | with_reducible apply Moves.thenOp (State.flushEntry_writes ..)
    | with_reducible apply Moves.thenOp (State.setChan_writes ..)
    | (with_reducible apply Moves.foldl; intro _ _)
    | split
    | dsimp only

theorem State.onControl_writes {l : List Field} {s : State} {e : Entry} {mine : Bool} {f : State → State} (hl : Within [.routes, .cairn, .hostMem, .host, .out] l)
    (hf : ∀ y0, Moves l y0 (f y0)) :
    ResAll (fun t => Moves l s t) (State.onControl s e mine f) := by
  unfold State.onControl
  repeat' first
    | with_reducible apply Moves.refl
    | with_reducible refine Moves.trans ?_ (hf _)
    | with_reducible apply ResAll.next'
    | with_reducible apply ResAll.ite
    | with_reducible refine State.onEngine_writes (Within.trans (Within.mk rfl) hl) (fun _ => ?_)

theorem execDmaStop_writes (e : Entry) (s : State) :
    ResAll (fun t => Moves [.routes, .cairn, .hostMem, .host, .eng, .out] s t) (execDmaStop e s) := by
  unfold execDmaStop
  repeat' first
    | with_reducible apply Moves.refl
    | ((with_reducible apply Within.mk); exact rfl)
    | with_reducible apply Moves.thenOp (State.stopChannel_writes ..)
    | with_reducible refine State.onControl_writes (Within.mk rfl) (fun _ => ?_)

theorem execDmaResume_writes (e : Entry) (s : State) :
    ResAll (fun t => Moves [.routes, .cairn, .hostMem, .host, .eng, .out] s t) (execDmaResume e s) := by
  unfold execDmaResume
  repeat' first
    | with_reducible apply Moves.refl
    | ((with_reducible apply Within.mk); exact rfl)
    | with_reducible apply Moves.thenOp (State.resumeChannel_writes ..)
    | with_reducible refine State.onControl_writes (Within.mk rfl) (fun _ => ?_)

theorem execDmaFlush_writes (e : Entry) (s : State) :
    ResAll (fun t => Moves [.routes, .cairn, .hostMem, .host, .eng, .out] s t) (execDmaFlush e s) := by
  unfold execDmaFlush
  repeat' first
    | with_reducible apply Moves.refl
    | ((with_reducible apply Within.mk); exact rfl)
    | with_reducible apply Moves.thenOp (State.flushChannel_writes ..)
    | with_reducible refine State.onControl_writes (Within.mk rfl) (fun _ => ?_)

theorem State.startEntry_writes (s : State) (ch : Nat) (x : EngEntry) :
    Moves [.eng] s (State.startEntry s ch x) := by
  unfold State.startEntry
  repeat' first
    | with_reducible apply Moves.refl
    | ((with_reducible apply Within.mk); exact rfl)
    | with_reducible apply Moves.thenOp (State.setChan_writes ..)

theorem State.startHalt_writes (s : State) (ch : Nat) (x : EngEntry) (f : AccessFault) :
    Moves [.freeCount, .objs, .mem, .flash, .routes, .cairn, .content, .depot, .cache, .coh, .link, .hostMem, .host, .eng, .dram, .err, .mgmt, .out] s (State.startHalt s ch x f) := by
  unfold State.startHalt
  repeat' first
    | with_reducible apply Moves.refl
    | ((with_reducible apply Within.mk); exact rfl)
    | with_reducible apply Moves.thenOp (State.haltChannel_writes ..)
    | with_reducible apply Moves.thenOp (State.startEntry_writes ..)

theorem State.askEngine_writes (s : State) (ch loc : Nat) (ls : List Nat) :
    Moves [.coh, .link, .out] s (State.askEngine s ch loc ls) := by
  unfold State.askEngine
  repeat' first
    | with_reducible apply Moves.refl
    | assumption
    | ((with_reducible apply Within.mk); exact rfl)
    | with_reducible apply Moves.thenOp (State.request_writes ..)
    | with_reducible apply Moves.ite
    | (with_reducible apply upd_parts <;> first | exact .inl rfl | exact .inr rfl)
    | simp only [Moves.mk_eq]
    | with_reducible refine MovesMk.upd rfl (.inl rfl) (.inl rfl) ?_ ?_
    | (with_reducible apply Moves.foldl; intro _ _)
    | dsimp only
    | split
    | with_reducible refine Moves.thenOp (Moves.of_snd (State.request_writes ..) (by assumption)) (Within.mk rfl) ?_

theorem State.startLists_writes (s : State) (ch : Nat) (x : EngEntry) :
    Moves [.freeCount, .objs, .mem, .flash, .routes, .cairn, .content, .depot, .cache, .coh, .link, .hostMem, .host, .eng, .dram, .err, .mgmt, .out] s (State.startLists s ch x) := by
  unfold State.startLists
  repeat' first
    | with_reducible apply Moves.refl
    | assumption
    | ((with_reducible apply Within.mk); exact rfl)
    | with_reducible apply Moves.thenOp (State.askEngine_writes ..)
    | with_reducible apply Moves.thenOp (State.listTouch_writes ..)
    | with_reducible apply Moves.thenOp (State.startEntry_writes ..)
    | with_reducible apply Moves.thenOp (State.startHalt_writes ..)
    | with_reducible apply Moves.ite
    | (with_reducible apply upd_parts <;> first | exact .inl rfl | exact .inr rfl)
    | simp only [Moves.mk_eq]
    | with_reducible refine MovesMk.upd rfl (.inl rfl) (.inl rfl) ?_ ?_
    | (with_reducible apply Moves.foldl; intro _ _)
    | dsimp only
    | split

theorem State.startOpen_writes (s : State) (ch : Nat) (x : EngEntry) :
    Moves [.freeCount, .objs, .mem, .flash, .routes, .cairn, .content, .depot, .cache, .coh, .link, .hostMem, .host, .eng, .dram, .err, .mgmt, .out] s (State.startOpen s ch x) := by
  unfold State.startOpen
  repeat' first
    | with_reducible apply Moves.refl
    | assumption
    | ((with_reducible apply Within.mk); exact rfl)
    | with_reducible apply Moves.thenOp (State.askEngine_writes ..)
    | with_reducible apply Moves.thenOp (State.putCtx_writes ..)
    | with_reducible apply Moves.thenOp (State.startEntry_writes ..)
    | with_reducible apply Moves.thenOp (State.startHalt_writes ..)
    | with_reducible apply Moves.ite
    | (with_reducible apply upd_parts <;> first | exact .inl rfl | exact .inr rfl)
    | simp only [Moves.mk_eq]
    | with_reducible refine MovesMk.upd rfl (.inl rfl) (.inl rfl) ?_ ?_
    | (with_reducible apply Moves.foldl; intro _ _)
    | dsimp only
    | split

theorem State.startRead_writes (s : State) (ch : Nat) (x : EngEntry) :
    Moves [.freeCount, .objs, .mem, .flash, .routes, .cairn, .content, .depot, .cache, .coh, .link, .hostMem, .host, .eng, .dram, .err, .mgmt, .out] s (State.startRead s ch x) := by
  unfold State.startRead
  repeat' first
    | with_reducible apply Moves.refl
    | assumption
    | ((with_reducible apply Within.mk); exact rfl)
    | with_reducible apply Moves.thenOp (State.dropCtx_writes ..)
    | with_reducible apply Moves.thenOp (State.startEntry_writes ..)
    | with_reducible apply Moves.thenOp (State.startHalt_writes ..)
    | with_reducible apply Moves.ite
    | (with_reducible apply upd_parts <;> first | exact .inl rfl | exact .inr rfl)
    | simp only [Moves.mk_eq]
    | with_reducible refine MovesMk.upd rfl (.inl rfl) (.inl rfl) ?_ ?_
    | (with_reducible apply Moves.foldl; intro _ _)
    | dsimp only
    | split

theorem State.channelStart_writes (s : State) (ch : Nat) :
    Moves [.freeCount, .objs, .mem, .flash, .routes, .cairn, .content, .depot, .cache, .coh, .link, .hostMem, .host, .eng, .dram, .err, .mgmt, .out] s (State.channelStart s ch) := by
  unfold State.channelStart
  repeat' first
    | with_reducible apply Moves.refl
    | ((with_reducible apply Within.mk); exact rfl)
    | with_reducible apply Moves.thenOp (State.startLists_writes ..)
    | with_reducible apply Moves.thenOp (State.startOpen_writes ..)
    | with_reducible apply Moves.thenOp (State.startRead_writes ..)
    | with_reducible apply Moves.ite
    | split

theorem execChannelEntryStart_writes (ch : Nat) (s : State) :
    ResAll (fun t => Moves [.freeCount, .objs, .mem, .flash, .routes, .cairn, .content, .depot, .cache, .coh, .link, .hostMem, .host, .eng, .dram, .err, .mgmt, .out] s t) (execChannelEntryStart ch s) := by
  unfold execChannelEntryStart
  repeat' first
    | with_reducible apply Moves.refl
    | ((with_reducible apply Within.mk); exact rfl)
    | with_reducible apply Moves.thenOp (State.channelStart_writes ..)
    | with_reducible apply ResAll.next'

theorem State.startJob_writes (s : State) :
    Moves [.eng] s (State.startJob s) := by
  unfold State.startJob
  repeat' first
    | with_reducible apply Moves.refl
    | (with_reducible apply upd_parts <;> first | exact .inl rfl | exact .inr rfl)
    | simp only [Moves.mk_eq]
    | with_reducible refine MovesMk.upd rfl (.inl rfl) (.inl rfl) ?_ ?_
    | split

theorem execCompressionJobStart_writes (s : State) :
    ResAll (fun t => Moves [.eng] s t) (execCompressionJobStart s) := by
  unfold execCompressionJobStart
  repeat' first
    | with_reducible apply Moves.refl
    | ((with_reducible apply Within.mk); exact rfl)
    | with_reducible apply Moves.thenOp (State.startJob_writes ..)
    | with_reducible apply ResAll.next'

theorem State.digestStep_writes (s : State) :
    Moves [.objs, .eng] s (State.digestStep s) := by
  unfold State.digestStep
  repeat' first
    | with_reducible apply Moves.refl
    | ((with_reducible apply Within.mk); exact rfl)
    | with_reducible apply Moves.thenOp (State.feedCtx_writes ..)
    | with_reducible apply Moves.thenOp (State.setChan_writes ..)
    | (with_reducible apply upd_parts <;> first | exact .inl rfl | exact .inr rfl)
    | simp only [Moves.mk_eq]
    | with_reducible refine MovesMk.upd rfl (.inl rfl) (.inl rfl) ?_ ?_
    | split

theorem execDigestBlock_writes (s : State) :
    ResAll (fun t => Moves [.objs, .eng] s t) (execDigestBlock s) := by
  unfold execDigestBlock
  repeat' first
    | with_reducible apply Moves.refl
    | ((with_reducible apply Within.mk); exact rfl)
    | with_reducible apply Moves.thenOp (State.digestStep_writes ..)
    | with_reducible apply ResAll.next'

theorem State.jobWork_writes (s : State) (ch : Nat) (x : EngEntry) :
    WorkAns.All (fun t => Moves [.objs, .mem, .flash, .content, .depot, .cache, .coh, .link, .hostMem, .dram, .err, .mgmt, .out] s t) (State.jobWork s ch x) := by
  unfold State.jobWork
  repeat' first
    | with_reducible apply Moves.refl
    | ((with_reducible apply Within.mk); exact rfl)
    | with_reducible apply Moves.thenOp (State.elPut_writes ..)
    | with_reducible apply Moves.thenOp (State.oinc_writes ..)
    | with_reducible apply Moves.thenOp (State.scatter_writes ..)
    | with_reducible apply WorkAns.All.doneIn
    | with_reducible apply WorkAns.All.ite
    | with_reducible apply WorkAns.All.waitIn
    | with_reducible apply WorkAns.All.haltIn
    | with_reducible apply Moves.ite
    | split
    | dsimp only

theorem State.feedWork_writes (s : State) (x : EngEntry) :
    WorkAns.All (fun t => Moves [.objs, .eng] s t) (State.feedWork s x) := by
  unfold State.feedWork
  repeat' first
    | with_reducible apply Moves.refl
    | ((with_reducible apply Within.mk); exact rfl)
    | with_reducible apply Moves.thenOp (State.feedCtx_writes ..)
    | with_reducible apply Moves.thenOp (State.putCtx_writes ..)
    | with_reducible apply WorkAns.All.doneIn
    | with_reducible apply WorkAns.All.ite
    | with_reducible apply WorkAns.All.waitIn
    | split
    | dsimp only

theorem State.entryWork_writes (s : State) (ch : Nat) (x : EngEntry) :
    WorkAns.All (fun t => Moves [.freeCount, .objs, .mem, .flash, .content, .depot, .cache, .coh, .link, .hostMem, .eng, .dram, .err, .mgmt, .out] s t) (State.entryWork s ch x) := by
  unfold State.entryWork
  repeat' first
    | with_reducible apply Moves.refl
    | ((with_reducible apply Within.mk); exact rfl)
    | with_reducible apply Moves.thenOp (State.copyData_writes ..)
    | with_reducible refine WorkAns.All.imp (fun _ h => Moves.thenOp h (Within.mk rfl) ?_) (State.feedWork_writes ..)
    | with_reducible refine WorkAns.All.imp (fun _ h => Moves.thenOp h (Within.mk rfl) ?_) (State.jobWork_writes ..)
    | with_reducible apply Moves.thenOp (State.oinc_writes ..)
    | with_reducible apply Moves.thenOp (State.scatter_writes ..)
    | with_reducible apply WorkAns.All.doneIn
    | with_reducible apply WorkAns.All.ite
    | split

theorem State.channelComplete_writes (s : State) (ch : Nat) :
    Moves [.freeCount, .objs, .mem, .flash, .routes, .cairn, .content, .depot, .cache, .coh, .link, .hostMem, .host, .eng, .dram, .err, .mgmt, .out] s (State.channelComplete s ch) := by
  unfold State.channelComplete
  repeat' first
    | with_reducible apply Moves.refl
    | ((with_reducible apply Within.mk); exact rfl)
    | with_reducible apply Moves.thenOp (State.emit_writes ..)
    | with_reducible apply Moves.thenOp (State.entryEnds_writes ..)
    | with_reducible apply Moves.thenOp (State.haltChannel_writes ..)
    | with_reducible apply Moves.thenOp (State.setChan_writes ..)
    | with_reducible apply Moves.ite
    | split
    | with_reducible refine Moves.thenOp (WorkAns.All.doneGet (State.entryWork_writes ..) (by assumption)) (Within.mk rfl) ?_

theorem execEngineEntryComplete_writes (ch : Nat) (s : State) :
    ResAll (fun t => Moves [.freeCount, .objs, .mem, .flash, .routes, .cairn, .content, .depot, .cache, .coh, .link, .hostMem, .host, .eng, .dram, .err, .mgmt, .out] s t) (execEngineEntryComplete ch s) := by
  unfold execEngineEntryComplete
  repeat' first
    | with_reducible apply Moves.refl
    | ((with_reducible apply Within.mk); exact rfl)
    | with_reducible apply Moves.thenOp (State.channelComplete_writes ..)
    | with_reducible apply ResAll.next'

theorem State.channelFault_writes (s : State) (ch : Nat) (f : AccessFault) :
    Moves [.freeCount, .objs, .mem, .flash, .routes, .cairn, .content, .depot, .cache, .coh, .link, .hostMem, .host, .eng, .dram, .err, .mgmt, .out] s (State.channelFault s ch f) := by
  unfold State.channelFault
  repeat' first
    | with_reducible apply Moves.refl
    | ((with_reducible apply Within.mk); exact rfl)
    | with_reducible apply Moves.thenOp (State.haltChannel_writes ..)
    | with_reducible apply Moves.thenOp (State.startHalt_writes ..)
    | with_reducible apply Moves.ite
    | split
    | dsimp only

theorem execChannelHalt_writes (ch : Nat) (f : AccessFault) (s : State) :
    ResAll (fun t => Moves [.freeCount, .objs, .mem, .flash, .routes, .cairn, .content, .depot, .cache, .coh, .link, .hostMem, .host, .eng, .dram, .err, .mgmt, .out] s t) (execChannelHalt ch f s) := by
  unfold execChannelHalt
  repeat' first
    | with_reducible apply Moves.refl
    | ((with_reducible apply Within.mk); exact rfl)
    | with_reducible apply Moves.thenOp (State.channelFault_writes ..)
    | with_reducible apply ResAll.next'

/-! ## FilterRows -/

theorem State.filterRow_writes {l : List Field} {s : State} {c : ScnCtx} {f : FilterMachine → State → FRes} (hl : Within [.objs, .routes, .sched, .scn, .strands, .err, .mgmt, .out] l)
    (hf : ∀ y0 y1, FRes.All (fun t => Moves l y1 t) (f y0 y1)) :
    ResAll (fun t => Moves l s t) (State.filterRow s c f) := by
  unfold State.filterRow
  repeat' first
    | with_reducible apply Moves.refl
    | assumption
    | ((with_reducible apply Within.mk); exact rfl)
    | ((with_reducible refine Within.trans ?_ hl); (with_reducible apply Within.mk); exact rfl)
    | with_reducible refine Moves.trans ?_ (FRes.All.okGet (hf _ _) (by assumption))
    | (with_reducible apply upd_parts <;> first | exact .inl (List.contains_iff_mem.mpr (within.mem hl.out (List.contains_iff_mem.mp rfl))) | exact .inr rfl)
    | with_reducible apply Moves.thenOp (State.oinc_writes ..)
    | with_reducible apply Moves.thenOp (State.routeFault_writes ..)
    | with_reducible apply Moves.thenOp (State.stopOnRidge_writes ..)
    | with_reducible apply ResAll.next'
    | with_reducible apply ResAll.ite
    | with_reducible apply Moves.ite
    | (with_reducible apply upd_parts <;> first | exact .inl rfl | exact .inr rfl)
    | simp only [Moves.mk_eq]
    | with_reducible refine MovesMk.upd rfl (.inl rfl) (.inl rfl) ?_ ?_
    | (with_reducible apply Moves.foldl; intro _ _)
    | dsimp only
    | split

theorem execFilterLdCol_writes (c : ScnCtx) (x : FArgs) (s : State) :
    ResAll (fun t => Moves [.objs, .routes, .sched, .scn, .strands, .err, .mgmt, .out] s t) (execFilterLdCol c x s) := by
  unfold execFilterLdCol
  repeat' first
    | with_reducible apply Moves.refl
    | with_reducible refine FRes.All.imp (fun _ h => Moves.thenOp h (Within.mk rfl) ?_) (FilterMachine.ldcol_writes ..)
    | with_reducible refine State.filterRow_writes (Within.mk rfl) (fun _ _ => ?_)

theorem execFilterEq_writes (c : ScnCtx) (x : FArgs) (s : State) :
    ResAll (fun t => Moves [.objs, .routes, .sched, .scn, .strands, .err, .mgmt, .out] s t) (execFilterEq c x s) := by
  unfold execFilterEq
  repeat' first
    | with_reducible apply Moves.refl
    | with_reducible refine FRes.All.imp (fun _ h => Moves.thenOp h (Within.mk rfl) ?_) (FilterMachine.compare_writes ..)
    | with_reducible refine State.filterRow_writes (Within.mk rfl) (fun _ _ => ?_)

theorem execFilterNe_writes (c : ScnCtx) (x : FArgs) (s : State) :
    ResAll (fun t => Moves [.objs, .routes, .sched, .scn, .strands, .err, .mgmt, .out] s t) (execFilterNe c x s) := by
  unfold execFilterNe
  repeat' first
    | with_reducible apply Moves.refl
    | with_reducible refine FRes.All.imp (fun _ h => Moves.thenOp h (Within.mk rfl) ?_) (FilterMachine.compare_writes ..)
    | with_reducible refine State.filterRow_writes (Within.mk rfl) (fun _ _ => ?_)

theorem execFilterLt_writes (c : ScnCtx) (x : FArgs) (s : State) :
    ResAll (fun t => Moves [.objs, .routes, .sched, .scn, .strands, .err, .mgmt, .out] s t) (execFilterLt c x s) := by
  unfold execFilterLt
  repeat' first
    | with_reducible apply Moves.refl
    | with_reducible refine FRes.All.imp (fun _ h => Moves.thenOp h (Within.mk rfl) ?_) (FilterMachine.compare_writes ..)
    | with_reducible refine State.filterRow_writes (Within.mk rfl) (fun _ _ => ?_)

theorem execFilterLe_writes (c : ScnCtx) (x : FArgs) (s : State) :
    ResAll (fun t => Moves [.objs, .routes, .sched, .scn, .strands, .err, .mgmt, .out] s t) (execFilterLe c x s) := by
  unfold execFilterLe
  repeat' first
    | with_reducible apply Moves.refl
    | with_reducible refine FRes.All.imp (fun _ h => Moves.thenOp h (Within.mk rfl) ?_) (FilterMachine.compare_writes ..)
    | with_reducible refine State.filterRow_writes (Within.mk rfl) (fun _ _ => ?_)

theorem execFilterGt_writes (c : ScnCtx) (x : FArgs) (s : State) :
    ResAll (fun t => Moves [.objs, .routes, .sched, .scn, .strands, .err, .mgmt, .out] s t) (execFilterGt c x s) := by
  unfold execFilterGt
  repeat' first
    | with_reducible apply Moves.refl
    | with_reducible refine FRes.All.imp (fun _ h => Moves.thenOp h (Within.mk rfl) ?_) (FilterMachine.compare_writes ..)
    | with_reducible refine State.filterRow_writes (Within.mk rfl) (fun _ _ => ?_)

theorem execFilterGe_writes (c : ScnCtx) (x : FArgs) (s : State) :
    ResAll (fun t => Moves [.objs, .routes, .sched, .scn, .strands, .err, .mgmt, .out] s t) (execFilterGe c x s) := by
  unfold execFilterGe
  repeat' first
    | with_reducible apply Moves.refl
    | with_reducible refine FRes.All.imp (fun _ h => Moves.thenOp h (Within.mk rfl) ?_) (FilterMachine.compare_writes ..)
    | with_reducible refine State.filterRow_writes (Within.mk rfl) (fun _ _ => ?_)

theorem execFilterBetween_writes (c : ScnCtx) (x : FArgs) (s : State) :
    ResAll (fun t => Moves [.objs, .routes, .sched, .scn, .strands, .err, .mgmt, .out] s t) (execFilterBetween c x s) := by
  unfold execFilterBetween
  repeat' first
    | with_reducible apply Moves.refl
    | with_reducible refine FRes.All.imp (fun _ h => Moves.thenOp h (Within.mk rfl) ?_) (FilterMachine.between_writes ..)
    | with_reducible refine State.filterRow_writes (Within.mk rfl) (fun _ _ => ?_)

theorem execFilterIsNull_writes (c : ScnCtx) (x : FArgs) (s : State) :
    ResAll (fun t => Moves [.objs, .routes, .sched, .scn, .strands, .err, .mgmt, .out] s t) (execFilterIsNull c x s) := by
  unfold execFilterIsNull
  repeat' first
    | with_reducible apply Moves.refl
    | with_reducible refine FRes.All.imp (fun _ h => Moves.thenOp h (Within.mk rfl) ?_) (FilterMachine.isNull_writes ..)
    | with_reducible refine State.filterRow_writes (Within.mk rfl) (fun _ _ => ?_)

theorem execFilterInList_writes (c : ScnCtx) (x : FArgs) (s : State) :
    ResAll (fun t => Moves [.objs, .routes, .sched, .scn, .strands, .err, .mgmt, .out] s t) (execFilterInList c x s) := by
  unfold execFilterInList
  repeat' first
    | with_reducible apply Moves.refl
    | with_reducible refine FRes.All.imp (fun _ h => Moves.thenOp h (Within.mk rfl) ?_) (FilterMachine.inList_writes ..)
    | with_reducible refine State.filterRow_writes (Within.mk rfl) (fun _ _ => ?_)

theorem execFilterInCairn_writes (c : ScnCtx) (x : FArgs) (s : State) :
    ResAll (fun t => Moves [.objs, .routes, .sched, .scn, .cairn, .strands, .err, .mgmt, .out] s t) (execFilterInCairn c x s) := by
  unfold execFilterInCairn
  repeat' first
    | with_reducible apply Moves.refl
    | with_reducible refine FRes.All.imp (fun _ h => Moves.thenOp h (Within.mk rfl) ?_) (FilterMachine.cairn_writes ..)
    | with_reducible refine State.filterRow_writes (Within.mk rfl) (fun _ _ => ?_)

theorem execPrefixMatch_writes (c : ScnCtx) (x : FArgs) (s : State) :
    ResAll (fun t => Moves [.objs, .routes, .sched, .scn, .cairn, .strands, .err, .mgmt, .out] s t) (execPrefixMatch c x s) := by
  unfold execPrefixMatch
  repeat' first
    | with_reducible apply Moves.refl
    | with_reducible refine FRes.All.imp (fun _ h => Moves.thenOp h (Within.mk rfl) ?_) (FilterMachine.cairn_writes ..)
    | with_reducible refine State.filterRow_writes (Within.mk rfl) (fun _ _ => ?_)

theorem execSuffixMatch_writes (c : ScnCtx) (x : FArgs) (s : State) :
    ResAll (fun t => Moves [.objs, .routes, .sched, .scn, .cairn, .strands, .err, .mgmt, .out] s t) (execSuffixMatch c x s) := by
  unfold execSuffixMatch
  repeat' first
    | with_reducible apply Moves.refl
    | with_reducible refine FRes.All.imp (fun _ h => Moves.thenOp h (Within.mk rfl) ?_) (FilterMachine.cairn_writes ..)
    | with_reducible refine State.filterRow_writes (Within.mk rfl) (fun _ _ => ?_)

theorem execFilterAnd_writes (c : ScnCtx) (x : FArgs) (s : State) :
    ResAll (fun t => Moves [.objs, .routes, .sched, .scn, .strands, .err, .mgmt, .out] s t) (execFilterAnd c x s) := by
  unfold execFilterAnd
  repeat' first
    | with_reducible apply Moves.refl
    | with_reducible refine FRes.All.imp (fun _ h => Moves.thenOp h (Within.mk rfl) ?_) (FilterMachine.logic2_writes ..)
    | with_reducible refine State.filterRow_writes (Within.mk rfl) (fun _ _ => ?_)

theorem execFilterOr_writes (c : ScnCtx) (x : FArgs) (s : State) :
    ResAll (fun t => Moves [.objs, .routes, .sched, .scn, .strands, .err, .mgmt, .out] s t) (execFilterOr c x s) := by
  unfold execFilterOr
  repeat' first
    | with_reducible apply Moves.refl
    | with_reducible refine FRes.All.imp (fun _ h => Moves.thenOp h (Within.mk rfl) ?_) (FilterMachine.logic2_writes ..)
    | with_reducible refine State.filterRow_writes (Within.mk rfl) (fun _ _ => ?_)

theorem execFilterNot_writes (c : ScnCtx) (x : FArgs) (s : State) :
    ResAll (fun t => Moves [.objs, .routes, .sched, .scn, .strands, .err, .mgmt, .out] s t) (execFilterNot c x s) := by
  unfold execFilterNot
  repeat' first
    | with_reducible apply Moves.refl
    | with_reducible refine FRes.All.imp (fun _ h => Moves.thenOp h (Within.mk rfl) ?_) (FilterMachine.logic1_writes ..)
    | with_reducible refine State.filterRow_writes (Within.mk rfl) (fun _ _ => ?_)

theorem execFilterIsTrue_writes (c : ScnCtx) (x : FArgs) (s : State) :
    ResAll (fun t => Moves [.objs, .routes, .sched, .scn, .strands, .err, .mgmt, .out] s t) (execFilterIsTrue c x s) := by
  unfold execFilterIsTrue
  repeat' first
    | with_reducible apply Moves.refl
    | with_reducible refine FRes.All.imp (fun _ h => Moves.thenOp h (Within.mk rfl) ?_) (FilterMachine.logic1_writes ..)
    | with_reducible refine State.filterRow_writes (Within.mk rfl) (fun _ _ => ?_)

theorem execFilterIsFalse_writes (c : ScnCtx) (x : FArgs) (s : State) :
    ResAll (fun t => Moves [.objs, .routes, .sched, .scn, .strands, .err, .mgmt, .out] s t) (execFilterIsFalse c x s) := by
  unfold execFilterIsFalse
  repeat' first
    | with_reducible apply Moves.refl
    | with_reducible refine FRes.All.imp (fun _ h => Moves.thenOp h (Within.mk rfl) ?_) (FilterMachine.logic1_writes ..)
    | with_reducible refine State.filterRow_writes (Within.mk rfl) (fun _ _ => ?_)

theorem execFilterIsUnknown_writes (c : ScnCtx) (x : FArgs) (s : State) :
    ResAll (fun t => Moves [.objs, .routes, .sched, .scn, .strands, .err, .mgmt, .out] s t) (execFilterIsUnknown c x s) := by
  unfold execFilterIsUnknown
  repeat' first
    | with_reducible apply Moves.refl
    | with_reducible refine FRes.All.imp (fun _ h => Moves.thenOp h (Within.mk rfl) ?_) (FilterMachine.logic1_writes ..)
    | with_reducible refine State.filterRow_writes (Within.mk rfl) (fun _ _ => ?_)

theorem execFilterAdd_writes (c : ScnCtx) (x : FArgs) (s : State) :
    ResAll (fun t => Moves [.objs, .routes, .sched, .scn, .strands, .err, .mgmt, .out] s t) (execFilterAdd c x s) := by
  unfold execFilterAdd
  repeat' first
    | with_reducible apply Moves.refl
    | with_reducible refine FRes.All.imp (fun _ h => Moves.thenOp h (Within.mk rfl) ?_) (FilterMachine.arith_writes ..)
    | with_reducible refine State.filterRow_writes (Within.mk rfl) (fun _ _ => ?_)

theorem execFilterSub_writes (c : ScnCtx) (x : FArgs) (s : State) :
    ResAll (fun t => Moves [.objs, .routes, .sched, .scn, .strands, .err, .mgmt, .out] s t) (execFilterSub c x s) := by
  unfold execFilterSub
  repeat' first
    | with_reducible apply Moves.refl
    | with_reducible refine FRes.All.imp (fun _ h => Moves.thenOp h (Within.mk rfl) ?_) (FilterMachine.arith_writes ..)
    | with_reducible refine State.filterRow_writes (Within.mk rfl) (fun _ _ => ?_)

theorem execFilterMul_writes (c : ScnCtx) (x : FArgs) (s : State) :
    ResAll (fun t => Moves [.objs, .routes, .sched, .scn, .strands, .err, .mgmt, .out] s t) (execFilterMul c x s) := by
  unfold execFilterMul
  repeat' first
    | with_reducible apply Moves.refl
    | with_reducible refine FRes.All.imp (fun _ h => Moves.thenOp h (Within.mk rfl) ?_) (FilterMachine.arith_writes ..)
    | with_reducible refine State.filterRow_writes (Within.mk rfl) (fun _ _ => ?_)

theorem execFilterDiv_writes (c : ScnCtx) (x : FArgs) (s : State) :
    ResAll (fun t => Moves [.objs, .routes, .sched, .scn, .strands, .err, .mgmt, .out] s t) (execFilterDiv c x s) := by
  unfold execFilterDiv
  repeat' first
    | with_reducible apply Moves.refl
    | with_reducible refine FRes.All.imp (fun _ h => Moves.thenOp h (Within.mk rfl) ?_) (FilterMachine.arith_writes ..)
    | with_reducible refine State.filterRow_writes (Within.mk rfl) (fun _ _ => ?_)

theorem execFilterMod_writes (c : ScnCtx) (x : FArgs) (s : State) :
    ResAll (fun t => Moves [.objs, .routes, .sched, .scn, .strands, .err, .mgmt, .out] s t) (execFilterMod c x s) := by
  unfold execFilterMod
  repeat' first
    | with_reducible apply Moves.refl
    | with_reducible refine FRes.All.imp (fun _ h => Moves.thenOp h (Within.mk rfl) ?_) (FilterMachine.arith_writes ..)
    | with_reducible refine State.filterRow_writes (Within.mk rfl) (fun _ _ => ?_)

theorem execFilterNeg_writes (c : ScnCtx) (x : FArgs) (s : State) :
    ResAll (fun t => Moves [.objs, .routes, .sched, .scn, .strands, .err, .mgmt, .out] s t) (execFilterNeg c x s) := by
  unfold execFilterNeg
  repeat' first
    | with_reducible apply Moves.refl
    | with_reducible refine FRes.All.imp (fun _ h => Moves.thenOp h (Within.mk rfl) ?_) (FilterMachine.neg_writes ..)
    | with_reducible refine State.filterRow_writes (Within.mk rfl) (fun _ _ => ?_)

theorem execFilterCast_writes (c : ScnCtx) (x : FArgs) (s : State) :
    ResAll (fun t => Moves [.objs, .routes, .sched, .scn, .strands, .err, .mgmt, .out] s t) (execFilterCast c x s) := by
  unfold execFilterCast
  repeat' first
    | with_reducible apply Moves.refl
    | with_reducible refine FRes.All.imp (fun _ h => Moves.thenOp h (Within.mk rfl) ?_) (FilterMachine.cast_writes ..)
    | with_reducible refine State.filterRow_writes (Within.mk rfl) (fun _ _ => ?_)

theorem execFilterHash64_writes (c : ScnCtx) (x : FArgs) (s : State) :
    ResAll (fun t => Moves [.objs, .routes, .sched, .scn, .strands, .err, .mgmt, .out] s t) (execFilterHash64 c x s) := by
  unfold execFilterHash64
  repeat' first
    | with_reducible apply Moves.refl
    | with_reducible refine FRes.All.imp (fun _ h => Moves.thenOp h (Within.mk rfl) ?_) (FilterMachine.hash_writes ..)
    | with_reducible refine State.filterRow_writes (Within.mk rfl) (fun _ _ => ?_)

theorem execFilterCrc32c_writes (c : ScnCtx) (x : FArgs) (s : State) :
    ResAll (fun t => Moves [.objs, .routes, .sched, .scn, .strands, .err, .mgmt, .out] s t) (execFilterCrc32c c x s) := by
  unfold execFilterCrc32c
  repeat' first
    | with_reducible apply Moves.refl
    | with_reducible refine FRes.All.imp (fun _ h => Moves.thenOp h (Within.mk rfl) ?_) (FilterMachine.crc_writes ..)
    | with_reducible refine State.filterRow_writes (Within.mk rfl) (fun _ _ => ?_)

/-! ## Registers -/

theorem State.mailboxGo_writes (s : State) (t : Nat) :
    Moves [.freeCount, .objs, .mem, .sys, .flash, .pitch, .routes, .sched, .scn, .cairn, .summit, .content, .depot, .strands, .cache, .coh, .peers, .link, .hostMem, .host, .eng, .dram, .err, .mgmt, .power, .out] s (State.mailboxGo s t) := by
  unfold State.mailboxGo
  repeat' first
    | with_reducible apply Moves.refl
    | ((with_reducible apply Within.mk); exact rfl)
    | with_reducible apply Moves.thenOp (State.brixIn_writes ..)
    | with_reducible apply Moves.thenOp (State.mapFn_writes ..)
    | with_reducible apply Moves.ite

theorem execMbControlGo_writes (t : Nat) (s : State) :
    ResAll (fun t => Moves [.freeCount, .objs, .mem, .sys, .flash, .pitch, .routes, .sched, .scn, .cairn, .summit, .content, .depot, .strands, .cache, .coh, .peers, .link, .hostMem, .host, .eng, .dram, .err, .mgmt, .power, .out] s t) (execMbControlGo t s) := by
  unfold execMbControlGo
  repeat' first
    | with_reducible apply Moves.refl
    | ((with_reducible apply Within.mk); exact rfl)
    | with_reducible apply Moves.thenOp (State.mailboxGo_writes ..)
    | with_reducible apply ResAll.next'

theorem State.barWrite_writes (s : State) (t : Nat) (o : Nat) (w : Nat) (v : Nat) :
    Moves [.freeCount, .objs, .mem, .sys, .flash, .pitch, .routes, .sched, .scn, .cairn, .summit, .content, .depot, .strands, .cache, .coh, .peers, .link, .hostMem, .host, .eng, .dram, .err, .mgmt, .power, .out] s (State.barWrite s t o w v) := by
  unfold State.barWrite
  repeat' first
    | with_reducible apply Moves.refl
    | assumption
    | ((with_reducible apply Within.mk); exact rfl)
    | with_reducible apply Moves.thenOp (State.aqDisable_writes ..)
    | with_reducible apply Moves.thenOp (State.aqEnable_writes ..)
    | with_reducible apply Moves.thenOp (State.headDoorbell_writes ..)
    | with_reducible apply Moves.thenOp (State.hostViolation_writes ..)
    | with_reducible apply Moves.thenOp (State.mailboxGo_writes ..)
    | with_reducible apply Moves.thenOp (State.mapFn_writes ..)
    | with_reducible apply Moves.thenOp (State.tailDoorbell_writes ..)
    | with_reducible apply Moves.thenOp (State.freedVectors_writes ..)
    | with_reducible apply Moves.ite
    | (with_reducible apply upd_parts <;> first | exact .inl rfl | exact .inr rfl)
    | simp only [Moves.mk_eq]
    | with_reducible refine MovesMk.upd rfl (.inl rfl) (.inl rfl) ?_ ?_
    | (with_reducible apply Moves.foldl; intro _ _)
    | dsimp only
    | split

theorem State.barRead_writes (s : State) (t : Nat) (o : Nat) (w : Nat) :
    Moves [.objs] s ((State.barRead s t o w).2) := by
  unfold State.barRead
  repeat' first
    | with_reducible apply Moves.refl
    | ((with_reducible apply Within.mk); exact rfl)
    | with_reducible apply Moves.thenOp (State.hostViolation_writes ..)
    | with_reducible apply Moves.ite_snd

theorem State.memberWrite_writes (s : State) (i : Nat) (m : Nat) (b : List Byte) :
    Moves [.freeCount, .objs, .mem, .sys, .flash, .pitch, .routes, .sched, .scn, .cairn, .summit, .content, .depot, .strands, .cache, .coh, .peers, .link, .hostMem, .host, .eng, .dram, .err, .mgmt, .power, .out] s (State.memberWrite s i m b) := by
  unfold State.memberWrite
  repeat' first
    | with_reducible apply Moves.refl
    | assumption
    | ((with_reducible apply Within.mk); exact rfl)
    | with_reducible apply Moves.thenOp (State.settleReset_writes ..)
    | with_reducible apply Moves.ite
    | (with_reducible apply upd_parts <;> first | exact .inl rfl | exact .inr rfl)
    | simp only [Moves.mk_eq]
    | with_reducible refine MovesMk.upd rfl (.inl rfl) (.inl rfl) ?_ ?_
    | (with_reducible apply Moves.foldl; intro _ _)
    | dsimp only
    | split
    | with_reducible refine Moves.thenOp (ExcAll.st (State.writeObject_writes ..) (by assumption)) (Within.mk rfl) ?_

theorem State.registerWrite_writes (s : State) (w : RegWrite) :
    Moves [.freeCount, .objs, .mem, .sys, .flash, .pitch, .routes, .sched, .scn, .cairn, .summit, .content, .depot, .strands, .cache, .coh, .peers, .link, .hostMem, .host, .eng, .dram, .err, .mgmt, .power, .out] s (State.registerWrite s w) := by
  unfold State.registerWrite
  repeat' first
    | with_reducible apply Moves.refl
    | ((with_reducible apply Within.mk); exact rfl)
    | with_reducible apply Moves.thenOp (State.barWrite_writes ..)
    | with_reducible apply Moves.thenOp (State.memberWrite_writes ..)
    | split

theorem execRegisterWrite_writes (w : RegWrite) (s : State) :
    ResAll (fun t => Moves [.freeCount, .objs, .mem, .sys, .flash, .pitch, .routes, .sched, .scn, .cairn, .summit, .content, .depot, .strands, .cache, .coh, .peers, .link, .hostMem, .host, .eng, .dram, .err, .mgmt, .power, .out] s t) (execRegisterWrite w s) := by
  unfold execRegisterWrite
  repeat' first
    | with_reducible apply Moves.refl
    | ((with_reducible apply Within.mk); exact rfl)
    | with_reducible apply Moves.thenOp (State.registerWrite_writes ..)
    | with_reducible apply ResAll.next'

/-! ## Spdm -/

theorem State.setSpdm_writes (s : State) (f : Nat) (x : SpdmSt) :
    Moves [.mgmt] s (State.setSpdm s f x) := by
  unfold State.setSpdm
  repeat' first
    | with_reducible apply Moves.refl
    | (with_reducible apply upd_parts <;> first | exact .inl rfl | exact .inr rfl)
    | simp only [Moves.mk_eq]
    | with_reducible refine MovesMk.upd rfl (.inl rfl) (.inl rfl) ?_ ?_

theorem State.spdmVersionAnswer_writes (s : State) (x : SpdmSt) (p : List Byte) :
    Moves [] s ((State.spdmVersionAnswer s x p).2.2) := by
  unfold State.spdmVersionAnswer
  repeat' first
    | with_reducible apply Moves.refl
    | split

theorem State.spdmCapabilities_writes (s : State) (x : SpdmSt) (p : List Byte) :
    Moves [] s ((State.spdmCapabilities s x p).2.2) := by
  unfold State.spdmCapabilities
  repeat' first
    | with_reducible apply Moves.refl
    | split
    | dsimp only

theorem State.spdmAlgorithms_writes (s : State) (x : SpdmSt) (p : List Byte) :
    Moves [] s ((State.spdmAlgorithms s x p).2.2) := by
  unfold State.spdmAlgorithms
  repeat' first
    | with_reducible apply Moves.refl
    | split

theorem State.spdmDigests_writes (s : State) (x : SpdmSt) (p : List Byte) :
    Moves [] s ((State.spdmDigests s x p).2.2) := by
  unfold State.spdmDigests
  repeat' first
    | with_reducible apply Moves.refl
    | split

theorem State.spdmCertificate_writes (s : State) (x : SpdmSt) (p : List Byte) :
    Moves [] s ((State.spdmCertificate s x p).2.2) := by
  unfold State.spdmCertificate
  repeat' first
    | with_reducible apply Moves.refl
    | split
    | dsimp only

theorem State.spdmChallengeAnswer_writes (s : State) (x : SpdmSt) (p : List Byte) :
    Moves [.freeCount] s ((State.spdmChallengeAnswer s x p).2.2) := by
  unfold State.spdmChallengeAnswer
  repeat' first
    | with_reducible apply Moves.refl
    | ((with_reducible apply Within.mk); exact rfl)
    | with_reducible apply Moves.thenOp (State.free_writes ..)
    | split

theorem State.spdmMeasurements_writes (s : State) (x : SpdmSt) (p : List Byte) :
    Moves [.freeCount] s ((State.spdmMeasurements s x p).2.2) := by
  unfold State.spdmMeasurements
  repeat' first
    | with_reducible apply Moves.refl
    | split
    | dsimp only
    | with_reducible refine Moves.thenOp (Moves.of_snd (State.free_writes ..) (by assumption)) (Within.mk rfl) ?_

theorem State.spdmOther_writes (s : State) (x : SpdmSt) (p : List Byte) :
    Moves [] s ((State.spdmOther s x p).2.2) := by
  unfold State.spdmOther
  repeat' (with_reducible apply Moves.refl)

theorem State.spdm_writes {l : List Field} {s : State} {port : Nat} {link : Nat} {act : State → SpdmSt → SpdmRes} (hl : Within [.mgmt, .out] l)
    (hf : ∀ y0 y1, Moves l y0 ((act y0 y1).2.2)) :
    Moves l s (State.spdm s port link act) := by
  unfold State.spdm
  repeat' first
    | with_reducible apply Moves.refl
    | ((with_reducible refine Within.trans ?_ hl); (with_reducible apply Within.mk); exact rfl)
    | with_reducible apply Moves.thenOp (State.emit_writes ..)
    | with_reducible apply Moves.thenOp (State.setSpdm_writes ..)
    | with_reducible refine Moves.trans ?_ (hf _ _)
    | with_reducible apply Moves.ite

theorem execGetVersion_writes (port : Nat) (link : Nat) (p : List Byte) (s : State) :
    ResAll (fun t => Moves [.mgmt, .out] s t) (execGetVersion port link p s) := by
  unfold execGetVersion
  repeat' first
    | with_reducible apply Moves.refl
    | ((with_reducible apply Within.mk); exact rfl)
    | with_reducible apply Moves.thenOp (State.spdmVersionAnswer_writes ..)
    | with_reducible apply ResAll.next'
    | with_reducible refine Moves.trans ?_ (State.spdm_writes (Within.mk rfl) (fun _ _ => ?_))

theorem execGetCapabilities_writes (port : Nat) (link : Nat) (p : List Byte) (s : State) :
    ResAll (fun t => Moves [.mgmt, .out] s t) (execGetCapabilities port link p s) := by
  unfold execGetCapabilities
  repeat' first
    | with_reducible apply Moves.refl
    | ((with_reducible apply Within.mk); exact rfl)
    | with_reducible apply Moves.thenOp (State.spdmCapabilities_writes ..)
    | with_reducible apply ResAll.next'
    | with_reducible refine Moves.trans ?_ (State.spdm_writes (Within.mk rfl) (fun _ _ => ?_))

theorem execNegotiateAlgorithms_writes (port : Nat) (link : Nat) (p : List Byte) (s : State) :
    ResAll (fun t => Moves [.mgmt, .out] s t) (execNegotiateAlgorithms port link p s) := by
  unfold execNegotiateAlgorithms
  repeat' first
    | with_reducible apply Moves.refl
    | ((with_reducible apply Within.mk); exact rfl)
    | with_reducible apply Moves.thenOp (State.spdmAlgorithms_writes ..)
    | with_reducible apply ResAll.next'
    | with_reducible refine Moves.trans ?_ (State.spdm_writes (Within.mk rfl) (fun _ _ => ?_))

theorem execGetDigests_writes (port : Nat) (link : Nat) (p : List Byte) (s : State) :
    ResAll (fun t => Moves [.mgmt, .out] s t) (execGetDigests port link p s) := by
  unfold execGetDigests
  repeat' first
    | with_reducible apply Moves.refl
    | ((with_reducible apply Within.mk); exact rfl)
    | with_reducible apply Moves.thenOp (State.spdmDigests_writes ..)
    | with_reducible apply ResAll.next'
    | with_reducible refine Moves.trans ?_ (State.spdm_writes (Within.mk rfl) (fun _ _ => ?_))

theorem execGetCertificate_writes (port : Nat) (link : Nat) (p : List Byte) (s : State) :
    ResAll (fun t => Moves [.mgmt, .out] s t) (execGetCertificate port link p s) := by
  unfold execGetCertificate
  repeat' first
    | with_reducible apply Moves.refl
    | ((with_reducible apply Within.mk); exact rfl)
    | with_reducible apply Moves.thenOp (State.spdmCertificate_writes ..)
    | with_reducible apply ResAll.next'
    | with_reducible refine Moves.trans ?_ (State.spdm_writes (Within.mk rfl) (fun _ _ => ?_))

theorem execChallenge_writes (port : Nat) (link : Nat) (p : List Byte) (s : State) :
    ResAll (fun t => Moves [.freeCount, .mgmt, .out] s t) (execChallenge port link p s) := by
  unfold execChallenge
  repeat' first
    | with_reducible apply Moves.refl
    | ((with_reducible apply Within.mk); exact rfl)
    | with_reducible apply Moves.thenOp (State.spdmChallengeAnswer_writes ..)
    | with_reducible apply ResAll.next'
    | with_reducible refine Moves.trans ?_ (State.spdm_writes (Within.mk rfl) (fun _ _ => ?_))

theorem execGetMeasurements_writes (port : Nat) (link : Nat) (p : List Byte) (s : State) :
    ResAll (fun t => Moves [.freeCount, .mgmt, .out] s t) (execGetMeasurements port link p s) := by
  unfold execGetMeasurements
  repeat' first
    | with_reducible apply Moves.refl
    | ((with_reducible apply Within.mk); exact rfl)
    | with_reducible apply Moves.thenOp (State.spdmMeasurements_writes ..)
    | with_reducible apply ResAll.next'
    | with_reducible refine Moves.trans ?_ (State.spdm_writes (Within.mk rfl) (fun _ _ => ?_))

theorem execSpdmUnsupportedRequest_writes (port : Nat) (link : Nat) (p : List Byte) (s : State) :
    ResAll (fun t => Moves [.mgmt, .out] s t) (execSpdmUnsupportedRequest port link p s) := by
  unfold execSpdmUnsupportedRequest
  repeat' first
    | with_reducible apply Moves.refl
    | ((with_reducible apply Within.mk); exact rfl)
    | with_reducible apply Moves.thenOp (State.spdmOther_writes ..)
    | with_reducible apply ResAll.next'
    | with_reducible refine Moves.trans ?_ (State.spdm_writes (Within.mk rfl) (fun _ _ => ?_))

theorem State.arpAsk_writes (s : State) (ip : Nat) :
    Moves [.out] s (State.arpAsk s ip) := by
  unfold State.arpAsk
  repeat' first
    | with_reducible apply Moves.refl
    | ((with_reducible apply Within.mk); exact rfl)
    | with_reducible apply Moves.thenOp (State.emit_writes ..)
    | with_reducible apply Moves.ite

theorem State.neighbourAsk_writes (s : State) (target : List Byte) :
    Moves [.out] s (State.neighbourAsk s target) := by
  unfold State.neighbourAsk
  repeat' first
    | with_reducible apply Moves.refl
    | ((with_reducible apply Within.mk); exact rfl)
    | with_reducible apply Moves.thenOp (State.emit_writes ..)
    | with_reducible apply Moves.ite

theorem State.echoAsk_writes (s : State) (target : List Byte) (payload : List Byte) :
    Moves [.out] s (State.echoAsk s target payload) := by
  unfold State.echoAsk
  repeat' first
    | with_reducible apply Moves.refl
    | ((with_reducible apply Within.mk); exact rfl)
    | with_reducible apply Moves.thenOp (State.emit_writes ..)
    | with_reducible apply Moves.ite

theorem execArp_writes (ip : Nat) (s : State) :
    ResAll (fun t => Moves [.out] s t) (execArp ip s) := by
  unfold execArp
  repeat' first
    | with_reducible apply Moves.refl
    | ((with_reducible apply Within.mk); exact rfl)
    | with_reducible apply Moves.thenOp (State.arpAsk_writes ..)
    | with_reducible apply ResAll.next'

theorem execNeighbourDiscovery_writes (target : List Byte) (s : State) :
    ResAll (fun t => Moves [.out] s t) (execNeighbourDiscovery target s) := by
  unfold execNeighbourDiscovery
  repeat' first
    | with_reducible apply Moves.refl
    | ((with_reducible apply Within.mk); exact rfl)
    | with_reducible apply Moves.thenOp (State.neighbourAsk_writes ..)
    | with_reducible apply ResAll.next'

theorem execIcmpEcho_writes (target : List Byte) (payload : List Byte) (s : State) :
    ResAll (fun t => Moves [.out] s t) (execIcmpEcho target payload s) := by
  unfold execIcmpEcho
  repeat' first
    | with_reducible apply Moves.refl
    | ((with_reducible apply Within.mk); exact rfl)
    | with_reducible apply Moves.thenOp (State.echoAsk_writes ..)
    | with_reducible apply ResAll.next'

theorem execOtherTraffic_writes (s : State) :
    ResAll (fun t => Moves [] s t) (execOtherTraffic s) := by
  unfold execOtherTraffic
  repeat' first
    | with_reducible apply Moves.refl
    | with_reducible apply ResAll.next'

end Sys2Proof.Machine
end

