-- ==== Sys2Proof/Laws/FrameVector.lean ====
section
/-! SUPPORT. What each function may write: the vector operations and the clock. -/

set_option Elab.async false
set_option linter.all false
namespace Sys2Proof.Machine
open Sys2Proof

/-! ## Vector -/

theorem State.vrun_writes {l : List Field} {s : State} {st : StrandRef} {op : Nat} {f : Nat} {a : VArgs} {ok : StrandSt → Bool} {body : StrandSt → StrandTask → State → SEff} (hl : Within [.freeCount, .objs, .flash, .routes, .sched, .scn, .cairn, .summit, .content, .depot, .strands, .cache, .coh, .link, .hostMem, .host, .dram, .err, .mgmt, .out] l)
    (hf : ∀ y0 y1 y2, SEff.All (fun t => Moves l y2 t) (body y0 y1 y2)) :
    ResAll (fun t => Moves l s t) (State.vrun s st op f a ok body) := by
  unfold State.vrun
  repeat' first
    | with_reducible apply hf
    | with_reducible apply SEff.All.trapIn
    | with_reducible apply SEff.All.ite
    | with_reducible refine State.strandRun_writes (Within.trans (Within.mk rfl) hl) (fun _ _ _ => ?_)

theorem State.vint_writes (s : State) (st : StrandRef) (f : Nat) (a : VArgs) (g : Nat → Nat → Nat → Nat) :
    ResAll (fun t => Moves [.freeCount, .objs, .flash, .routes, .sched, .scn, .cairn, .summit, .content, .depot, .strands, .cache, .coh, .link, .hostMem, .host, .dram, .err, .mgmt, .out] s t) (State.vint s st f a g) := by
  unfold State.vint
  repeat' first
    | with_reducible apply Moves.refl
    | with_reducible apply SEff.All.okIn
    | with_reducible refine State.vrun_writes (Within.mk rfl) (fun _ _ _ => ?_)

theorem execVadd_writes (st : StrandRef) (a : VArgs) (s : State) :
    ResAll (fun t => Moves [.freeCount, .objs, .flash, .routes, .sched, .scn, .cairn, .summit, .content, .depot, .strands, .cache, .coh, .link, .hostMem, .host, .dram, .err, .mgmt, .out] s t) (execVadd st a s) := by
  unfold execVadd
  repeat' first
    | with_reducible apply Moves.refl
    | with_reducible refine ResAll.imp (fun _ h => Moves.thenOp h (Within.mk rfl) ?_) (State.vint_writes ..)

theorem execVsub_writes (st : StrandRef) (a : VArgs) (s : State) :
    ResAll (fun t => Moves [.freeCount, .objs, .flash, .routes, .sched, .scn, .cairn, .summit, .content, .depot, .strands, .cache, .coh, .link, .hostMem, .host, .dram, .err, .mgmt, .out] s t) (execVsub st a s) := by
  unfold execVsub
  repeat' first
    | with_reducible apply Moves.refl
    | with_reducible refine ResAll.imp (fun _ h => Moves.thenOp h (Within.mk rfl) ?_) (State.vint_writes ..)

theorem execVand_writes (st : StrandRef) (a : VArgs) (s : State) :
    ResAll (fun t => Moves [.freeCount, .objs, .flash, .routes, .sched, .scn, .cairn, .summit, .content, .depot, .strands, .cache, .coh, .link, .hostMem, .host, .dram, .err, .mgmt, .out] s t) (execVand st a s) := by
  unfold execVand
  repeat' first
    | with_reducible apply Moves.refl
    | with_reducible refine ResAll.imp (fun _ h => Moves.thenOp h (Within.mk rfl) ?_) (State.vint_writes ..)

theorem execVor_writes (st : StrandRef) (a : VArgs) (s : State) :
    ResAll (fun t => Moves [.freeCount, .objs, .flash, .routes, .sched, .scn, .cairn, .summit, .content, .depot, .strands, .cache, .coh, .link, .hostMem, .host, .dram, .err, .mgmt, .out] s t) (execVor st a s) := by
  unfold execVor
  repeat' first
    | with_reducible apply Moves.refl
    | with_reducible refine ResAll.imp (fun _ h => Moves.thenOp h (Within.mk rfl) ?_) (State.vint_writes ..)

theorem execVxor_writes (st : StrandRef) (a : VArgs) (s : State) :
    ResAll (fun t => Moves [.freeCount, .objs, .flash, .routes, .sched, .scn, .cairn, .summit, .content, .depot, .strands, .cache, .coh, .link, .hostMem, .host, .dram, .err, .mgmt, .out] s t) (execVxor st a s) := by
  unfold execVxor
  repeat' first
    | with_reducible apply Moves.refl
    | with_reducible refine ResAll.imp (fun _ h => Moves.thenOp h (Within.mk rfl) ?_) (State.vint_writes ..)

theorem execVsll_writes (st : StrandRef) (a : VArgs) (s : State) :
    ResAll (fun t => Moves [.freeCount, .objs, .flash, .routes, .sched, .scn, .cairn, .summit, .content, .depot, .strands, .cache, .coh, .link, .hostMem, .host, .dram, .err, .mgmt, .out] s t) (execVsll st a s) := by
  unfold execVsll
  repeat' first
    | with_reducible apply Moves.refl
    | with_reducible refine ResAll.imp (fun _ h => Moves.thenOp h (Within.mk rfl) ?_) (State.vint_writes ..)

theorem execVsrl_writes (st : StrandRef) (a : VArgs) (s : State) :
    ResAll (fun t => Moves [.freeCount, .objs, .flash, .routes, .sched, .scn, .cairn, .summit, .content, .depot, .strands, .cache, .coh, .link, .hostMem, .host, .dram, .err, .mgmt, .out] s t) (execVsrl st a s) := by
  unfold execVsrl
  repeat' first
    | with_reducible apply Moves.refl
    | with_reducible refine ResAll.imp (fun _ h => Moves.thenOp h (Within.mk rfl) ?_) (State.vint_writes ..)

theorem execVsra_writes (st : StrandRef) (a : VArgs) (s : State) :
    ResAll (fun t => Moves [.freeCount, .objs, .flash, .routes, .sched, .scn, .cairn, .summit, .content, .depot, .strands, .cache, .coh, .link, .hostMem, .host, .dram, .err, .mgmt, .out] s t) (execVsra st a s) := by
  unfold execVsra
  repeat' first
    | with_reducible apply Moves.refl
    | with_reducible refine ResAll.imp (fun _ h => Moves.thenOp h (Within.mk rfl) ?_) (State.vint_writes ..)

theorem execVmul_writes (st : StrandRef) (a : VArgs) (s : State) :
    ResAll (fun t => Moves [.freeCount, .objs, .flash, .routes, .sched, .scn, .cairn, .summit, .content, .depot, .strands, .cache, .coh, .link, .hostMem, .host, .dram, .err, .mgmt, .out] s t) (execVmul st a s) := by
  unfold execVmul
  repeat' first
    | with_reducible apply Moves.refl
    | with_reducible refine ResAll.imp (fun _ h => Moves.thenOp h (Within.mk rfl) ?_) (State.vint_writes ..)

theorem execVmin_writes (st : StrandRef) (a : VArgs) (s : State) :
    ResAll (fun t => Moves [.freeCount, .objs, .flash, .routes, .sched, .scn, .cairn, .summit, .content, .depot, .strands, .cache, .coh, .link, .hostMem, .host, .dram, .err, .mgmt, .out] s t) (execVmin st a s) := by
  unfold execVmin
  repeat' first
    | with_reducible apply Moves.refl
    | with_reducible refine ResAll.imp (fun _ h => Moves.thenOp h (Within.mk rfl) ?_) (State.vint_writes ..)

theorem execVmax_writes (st : StrandRef) (a : VArgs) (s : State) :
    ResAll (fun t => Moves [.freeCount, .objs, .flash, .routes, .sched, .scn, .cairn, .summit, .content, .depot, .strands, .cache, .coh, .link, .hostMem, .host, .dram, .err, .mgmt, .out] s t) (execVmax st a s) := by
  unfold execVmax
  repeat' first
    | with_reducible apply Moves.refl
    | with_reducible refine ResAll.imp (fun _ h => Moves.thenOp h (Within.mk rfl) ?_) (State.vint_writes ..)

theorem execVminu_writes (st : StrandRef) (a : VArgs) (s : State) :
    ResAll (fun t => Moves [.freeCount, .objs, .flash, .routes, .sched, .scn, .cairn, .summit, .content, .depot, .strands, .cache, .coh, .link, .hostMem, .host, .dram, .err, .mgmt, .out] s t) (execVminu st a s) := by
  unfold execVminu
  repeat' first
    | with_reducible apply Moves.refl
    | with_reducible refine ResAll.imp (fun _ h => Moves.thenOp h (Within.mk rfl) ?_) (State.vint_writes ..)

theorem execVmaxu_writes (st : StrandRef) (a : VArgs) (s : State) :
    ResAll (fun t => Moves [.freeCount, .objs, .flash, .routes, .sched, .scn, .cairn, .summit, .content, .depot, .strands, .cache, .coh, .link, .hostMem, .host, .dram, .err, .mgmt, .out] s t) (execVmaxu st a s) := by
  unfold execVmaxu
  repeat' first
    | with_reducible apply Moves.refl
    | with_reducible refine ResAll.imp (fun _ h => Moves.thenOp h (Within.mk rfl) ?_) (State.vint_writes ..)

theorem execVhstep_writes (st : StrandRef) (a : VArgs) (s : State) :
    ResAll (fun t => Moves [.freeCount, .objs, .flash, .routes, .sched, .scn, .cairn, .summit, .content, .depot, .strands, .cache, .coh, .link, .hostMem, .host, .dram, .err, .mgmt, .out] s t) (execVhstep st a s) := by
  unfold execVhstep
  repeat' first
    | with_reducible apply Moves.refl
    | with_reducible apply SEff.All.okIn
    | with_reducible refine State.vrun_writes (Within.mk rfl) (fun _ _ _ => ?_)

theorem execVhfin_writes (st : StrandRef) (a : VArgs) (s : State) :
    ResAll (fun t => Moves [.freeCount, .objs, .flash, .routes, .sched, .scn, .cairn, .summit, .content, .depot, .strands, .cache, .coh, .link, .hostMem, .host, .dram, .err, .mgmt, .out] s t) (execVhfin st a s) := by
  unfold execVhfin
  repeat' first
    | with_reducible apply Moves.refl
    | with_reducible apply SEff.All.okIn
    | with_reducible refine State.vrun_writes (Within.mk rfl) (fun _ _ _ => ?_)

theorem execVbcast_writes (st : StrandRef) (a : VArgs) (s : State) :
    ResAll (fun t => Moves [.freeCount, .objs, .flash, .routes, .sched, .scn, .cairn, .summit, .content, .depot, .strands, .cache, .coh, .link, .hostMem, .host, .dram, .err, .mgmt, .out] s t) (execVbcast st a s) := by
  unfold execVbcast
  repeat' first
    | with_reducible apply Moves.refl
    | with_reducible apply SEff.All.okIn
    | with_reducible refine State.vrun_writes (Within.mk rfl) (fun _ _ _ => ?_)

theorem State.vfp_writes (s : State) (st : StrandRef) (f : Nat) (a : VArgs) (ok : StrandSt → Bool) (g : StrandSt → Nat → Nat × Nat) :
    ResAll (fun t => Moves [.freeCount, .objs, .flash, .routes, .sched, .scn, .cairn, .summit, .content, .depot, .strands, .cache, .coh, .link, .hostMem, .host, .dram, .err, .mgmt, .out] s t) (State.vfp s st f a ok g) := by
  unfold State.vfp
  repeat' first
    | with_reducible apply Moves.refl
    | with_reducible refine SEff.All.imp (fun _ h => Moves.thenOp h (Within.mk rfl) ?_) (fpEnd_writes ..)
    | with_reducible refine State.vrun_writes (Within.mk rfl) (fun _ _ _ => ?_)

theorem State.vfp2_writes (s : State) (st : StrandRef) (f : Nat) (a : VArgs) (g : Fmt → Nat → Nat → Nat → Nat × Nat) :
    ResAll (fun t => Moves [.freeCount, .objs, .flash, .routes, .sched, .scn, .cairn, .summit, .content, .depot, .strands, .cache, .coh, .link, .hostMem, .host, .dram, .err, .mgmt, .out] s t) (State.vfp2 s st f a g) := by
  unfold State.vfp2
  repeat' first
    | with_reducible apply Moves.refl
    | with_reducible refine ResAll.imp (fun _ h => Moves.thenOp h (Within.mk rfl) ?_) (State.vfp_writes ..)

theorem execVfadd_writes (st : StrandRef) (a : VArgs) (s : State) :
    ResAll (fun t => Moves [.freeCount, .objs, .flash, .routes, .sched, .scn, .cairn, .summit, .content, .depot, .strands, .cache, .coh, .link, .hostMem, .host, .dram, .err, .mgmt, .out] s t) (execVfadd st a s) := by
  unfold execVfadd
  repeat' first
    | with_reducible apply Moves.refl
    | with_reducible refine ResAll.imp (fun _ h => Moves.thenOp h (Within.mk rfl) ?_) (State.vfp2_writes ..)

theorem execVfsub_writes (st : StrandRef) (a : VArgs) (s : State) :
    ResAll (fun t => Moves [.freeCount, .objs, .flash, .routes, .sched, .scn, .cairn, .summit, .content, .depot, .strands, .cache, .coh, .link, .hostMem, .host, .dram, .err, .mgmt, .out] s t) (execVfsub st a s) := by
  unfold execVfsub
  repeat' first
    | with_reducible apply Moves.refl
    | with_reducible refine ResAll.imp (fun _ h => Moves.thenOp h (Within.mk rfl) ?_) (State.vfp2_writes ..)

theorem execVfmul_writes (st : StrandRef) (a : VArgs) (s : State) :
    ResAll (fun t => Moves [.freeCount, .objs, .flash, .routes, .sched, .scn, .cairn, .summit, .content, .depot, .strands, .cache, .coh, .link, .hostMem, .host, .dram, .err, .mgmt, .out] s t) (execVfmul st a s) := by
  unfold execVfmul
  repeat' first
    | with_reducible apply Moves.refl
    | with_reducible refine ResAll.imp (fun _ h => Moves.thenOp h (Within.mk rfl) ?_) (State.vfp2_writes ..)

theorem execVfdiv_writes (st : StrandRef) (a : VArgs) (s : State) :
    ResAll (fun t => Moves [.freeCount, .objs, .flash, .routes, .sched, .scn, .cairn, .summit, .content, .depot, .strands, .cache, .coh, .link, .hostMem, .host, .dram, .err, .mgmt, .out] s t) (execVfdiv st a s) := by
  unfold execVfdiv
  repeat' first
    | with_reducible apply Moves.refl
    | with_reducible refine ResAll.imp (fun _ h => Moves.thenOp h (Within.mk rfl) ?_) (State.vfp2_writes ..)

theorem execVfmadd_writes (st : StrandRef) (a : VArgs) (s : State) :
    ResAll (fun t => Moves [.freeCount, .objs, .flash, .routes, .sched, .scn, .cairn, .summit, .content, .depot, .strands, .cache, .coh, .link, .hostMem, .host, .dram, .err, .mgmt, .out] s t) (execVfmadd st a s) := by
  unfold execVfmadd
  repeat' first
    | with_reducible apply Moves.refl
    | with_reducible refine ResAll.imp (fun _ h => Moves.thenOp h (Within.mk rfl) ?_) (State.vfp_writes ..)

theorem execVfmin_writes (st : StrandRef) (a : VArgs) (s : State) :
    ResAll (fun t => Moves [.freeCount, .objs, .flash, .routes, .sched, .scn, .cairn, .summit, .content, .depot, .strands, .cache, .coh, .link, .hostMem, .host, .dram, .err, .mgmt, .out] s t) (execVfmin st a s) := by
  unfold execVfmin
  repeat' first
    | with_reducible apply Moves.refl
    | with_reducible refine ResAll.imp (fun _ h => Moves.thenOp h (Within.mk rfl) ?_) (State.vfp2_writes ..)

theorem execVfmax_writes (st : StrandRef) (a : VArgs) (s : State) :
    ResAll (fun t => Moves [.freeCount, .objs, .flash, .routes, .sched, .scn, .cairn, .summit, .content, .depot, .strands, .cache, .coh, .link, .hostMem, .host, .dram, .err, .mgmt, .out] s t) (execVfmax st a s) := by
  unfold execVfmax
  repeat' first
    | with_reducible apply Moves.refl
    | with_reducible refine ResAll.imp (fun _ h => Moves.thenOp h (Within.mk rfl) ?_) (State.vfp2_writes ..)

theorem execVfsqrt_writes (st : StrandRef) (a : VArgs) (s : State) :
    ResAll (fun t => Moves [.freeCount, .objs, .flash, .routes, .sched, .scn, .cairn, .summit, .content, .depot, .strands, .cache, .coh, .link, .hostMem, .host, .dram, .err, .mgmt, .out] s t) (execVfsqrt st a s) := by
  unfold execVfsqrt
  repeat' first
    | with_reducible apply Moves.refl
    | with_reducible refine ResAll.imp (fun _ h => Moves.thenOp h (Within.mk rfl) ?_) (State.vfp_writes ..)

theorem execVfcvtl_writes (st : StrandRef) (a : VArgs) (s : State) :
    ResAll (fun t => Moves [.freeCount, .objs, .flash, .routes, .sched, .scn, .cairn, .summit, .content, .depot, .strands, .cache, .coh, .link, .hostMem, .host, .dram, .err, .mgmt, .out] s t) (execVfcvtl st a s) := by
  unfold execVfcvtl
  repeat' first
    | with_reducible apply Moves.refl
    | with_reducible refine ResAll.imp (fun _ h => Moves.thenOp h (Within.mk rfl) ?_) (State.vfp_writes ..)

theorem execVfcvtf_writes (st : StrandRef) (a : VArgs) (s : State) :
    ResAll (fun t => Moves [.freeCount, .objs, .flash, .routes, .sched, .scn, .cairn, .summit, .content, .depot, .strands, .cache, .coh, .link, .hostMem, .host, .dram, .err, .mgmt, .out] s t) (execVfcvtf st a s) := by
  unfold execVfcvtf
  repeat' first
    | with_reducible apply Moves.refl
    | with_reducible refine ResAll.imp (fun _ h => Moves.thenOp h (Within.mk rfl) ?_) (State.vfp_writes ..)

theorem State.vcmp_writes (s : State) (st : StrandRef) (f : Nat) (a : VArgs) (fp : Bool) (g : Nat → Nat → Nat → Bool × Nat) :
    ResAll (fun t => Moves [.freeCount, .objs, .flash, .routes, .sched, .scn, .cairn, .summit, .content, .depot, .strands, .cache, .coh, .link, .hostMem, .host, .dram, .err, .mgmt, .out] s t) (State.vcmp s st f a fp g) := by
  unfold State.vcmp
  repeat' first
    | with_reducible apply Moves.refl
    | with_reducible refine SEff.All.imp (fun _ h => Moves.thenOp h (Within.mk rfl) ?_) (fpEnd_writes ..)
    | with_reducible refine State.vrun_writes (Within.mk rfl) (fun _ _ _ => ?_)

theorem execVcmpEq_writes (st : StrandRef) (a : VArgs) (s : State) :
    ResAll (fun t => Moves [.freeCount, .objs, .flash, .routes, .sched, .scn, .cairn, .summit, .content, .depot, .strands, .cache, .coh, .link, .hostMem, .host, .dram, .err, .mgmt, .out] s t) (execVcmpEq st a s) := by
  unfold execVcmpEq
  repeat' first
    | with_reducible apply Moves.refl
    | with_reducible refine ResAll.imp (fun _ h => Moves.thenOp h (Within.mk rfl) ?_) (State.vcmp_writes ..)

theorem execVcmpNe_writes (st : StrandRef) (a : VArgs) (s : State) :
    ResAll (fun t => Moves [.freeCount, .objs, .flash, .routes, .sched, .scn, .cairn, .summit, .content, .depot, .strands, .cache, .coh, .link, .hostMem, .host, .dram, .err, .mgmt, .out] s t) (execVcmpNe st a s) := by
  unfold execVcmpNe
  repeat' first
    | with_reducible apply Moves.refl
    | with_reducible refine ResAll.imp (fun _ h => Moves.thenOp h (Within.mk rfl) ?_) (State.vcmp_writes ..)

theorem execVcmpLt_writes (st : StrandRef) (a : VArgs) (s : State) :
    ResAll (fun t => Moves [.freeCount, .objs, .flash, .routes, .sched, .scn, .cairn, .summit, .content, .depot, .strands, .cache, .coh, .link, .hostMem, .host, .dram, .err, .mgmt, .out] s t) (execVcmpLt st a s) := by
  unfold execVcmpLt
  repeat' first
    | with_reducible apply Moves.refl
    | with_reducible refine ResAll.imp (fun _ h => Moves.thenOp h (Within.mk rfl) ?_) (State.vcmp_writes ..)

theorem execVcmpLe_writes (st : StrandRef) (a : VArgs) (s : State) :
    ResAll (fun t => Moves [.freeCount, .objs, .flash, .routes, .sched, .scn, .cairn, .summit, .content, .depot, .strands, .cache, .coh, .link, .hostMem, .host, .dram, .err, .mgmt, .out] s t) (execVcmpLe st a s) := by
  unfold execVcmpLe
  repeat' first
    | with_reducible apply Moves.refl
    | with_reducible refine ResAll.imp (fun _ h => Moves.thenOp h (Within.mk rfl) ?_) (State.vcmp_writes ..)

theorem execVcmpLtu_writes (st : StrandRef) (a : VArgs) (s : State) :
    ResAll (fun t => Moves [.freeCount, .objs, .flash, .routes, .sched, .scn, .cairn, .summit, .content, .depot, .strands, .cache, .coh, .link, .hostMem, .host, .dram, .err, .mgmt, .out] s t) (execVcmpLtu st a s) := by
  unfold execVcmpLtu
  repeat' first
    | with_reducible apply Moves.refl
    | with_reducible refine ResAll.imp (fun _ h => Moves.thenOp h (Within.mk rfl) ?_) (State.vcmp_writes ..)

theorem execVcmpLeu_writes (st : StrandRef) (a : VArgs) (s : State) :
    ResAll (fun t => Moves [.freeCount, .objs, .flash, .routes, .sched, .scn, .cairn, .summit, .content, .depot, .strands, .cache, .coh, .link, .hostMem, .host, .dram, .err, .mgmt, .out] s t) (execVcmpLeu st a s) := by
  unfold execVcmpLeu
  repeat' first
    | with_reducible apply Moves.refl
    | with_reducible refine ResAll.imp (fun _ h => Moves.thenOp h (Within.mk rfl) ?_) (State.vcmp_writes ..)

theorem execVcmpFeq_writes (st : StrandRef) (a : VArgs) (s : State) :
    ResAll (fun t => Moves [.freeCount, .objs, .flash, .routes, .sched, .scn, .cairn, .summit, .content, .depot, .strands, .cache, .coh, .link, .hostMem, .host, .dram, .err, .mgmt, .out] s t) (execVcmpFeq st a s) := by
  unfold execVcmpFeq
  repeat' first
    | with_reducible apply Moves.refl
    | with_reducible refine ResAll.imp (fun _ h => Moves.thenOp h (Within.mk rfl) ?_) (State.vcmp_writes ..)

theorem execVcmpFlt_writes (st : StrandRef) (a : VArgs) (s : State) :
    ResAll (fun t => Moves [.freeCount, .objs, .flash, .routes, .sched, .scn, .cairn, .summit, .content, .depot, .strands, .cache, .coh, .link, .hostMem, .host, .dram, .err, .mgmt, .out] s t) (execVcmpFlt st a s) := by
  unfold execVcmpFlt
  repeat' first
    | with_reducible apply Moves.refl
    | with_reducible refine ResAll.imp (fun _ h => Moves.thenOp h (Within.mk rfl) ?_) (State.vcmp_writes ..)

theorem execVcmpFle_writes (st : StrandRef) (a : VArgs) (s : State) :
    ResAll (fun t => Moves [.freeCount, .objs, .flash, .routes, .sched, .scn, .cairn, .summit, .content, .depot, .strands, .cache, .coh, .link, .hostMem, .host, .dram, .err, .mgmt, .out] s t) (execVcmpFle st a s) := by
  unfold execVcmpFle
  repeat' first
    | with_reducible apply Moves.refl
    | with_reducible refine ResAll.imp (fun _ h => Moves.thenOp h (Within.mk rfl) ?_) (State.vcmp_writes ..)

theorem State.loadElems_writes (s : State) (st : StrandRef) (k : StrandTask) (n : Nat) (addr : Nat → Word) (x5 : List Nat) (x6 : List (Nat × Nat)) (x7 : Nat) :
    VRes.All (fun t => Moves [.objs, .flash, .content, .depot, .strands, .cache, .coh, .link, .dram, .err, .mgmt, .out] s t) (State.loadElems s st k n addr x5 x6 x7) := by
  induction x5 generalizing s st k n addr x6 x7 with
  | nil =>
    unfold State.loadElems
    repeat' first
      | with_reducible apply Moves.refl
      | with_reducible apply VRes.All.okIn
  | cons a l ih =>
    unfold State.loadElems
    repeat' first
      | with_reducible apply Moves.refl
      | with_reducible refine VRes.All.imp (fun _ h => Moves.thenOp h (Within.mk rfl) ?_) (ih ..)
      | with_reducible apply VRes.All.trapIn
      | with_reducible apply VRes.All.waitIn
      | with_reducible apply VRes.All.fullIn
      | split
      | with_reducible refine Moves.thenOp (LRes.All.okGet (State.strandLoad_writes ..) (by assumption)) (Within.mk rfl) ?_
      | with_reducible refine Moves.thenOp (LRes.All.waitGet (State.strandLoad_writes ..) (by assumption)) (Within.mk rfl) ?_
      | with_reducible refine Moves.thenOp (LRes.All.fullGet (State.strandLoad_writes ..) (by assumption)) (Within.mk rfl) ?_

theorem State.dtlbElems_writes (s : State) (k : StrandTask) (t : StrandSt) (n : Nat) (addr : Nat → Word) (l : List Nat) :
    Moves [.freeCount] s ((State.dtlbElems s k t n addr l).2) := by
  unfold State.dtlbElems
  repeat' first
    | with_reducible apply Moves.refl
    | assumption
    | ((with_reducible apply Within.mk); exact rfl)
    | with_reducible apply Moves.thenOp (State.dtlbUse_writes ..)
    | with_reducible apply Moves.ite_snd
    | (with_reducible apply Moves.foldl_snd; intro _ _)
    | with_reducible apply Moves.ite
    | (with_reducible apply upd_parts <;> first | exact .inl rfl | exact .inr rfl)
    | simp only [Moves.mk_eq]
    | with_reducible refine MovesMk.upd rfl (.inl rfl) (.inl rfl) ?_ ?_
    | (with_reducible apply Moves.foldl; intro _ _)
    | dsimp only
    | split
    | with_reducible refine Moves.thenOp (Moves.of_snd (State.dtlbUse_writes ..) (by assumption)) (Within.mk rfl) ?_

theorem State.vload_writes (s : State) (st : StrandRef) (op : Nat) (f : Nat) (a : VArgs) (ok : StrandSt → Bool) (ff : Bool) (addr : StrandSt → Nat → Word) :
    ResAll (fun t => Moves [.freeCount, .objs, .flash, .routes, .sched, .scn, .cairn, .summit, .content, .depot, .strands, .cache, .coh, .link, .hostMem, .host, .dram, .err, .mgmt, .out] s t) (State.vload s st op f a ok ff addr) := by
  unfold State.vload
  repeat' first
    | with_reducible apply Moves.refl
    | assumption
    | ((with_reducible apply Within.mk); exact rfl)
    | with_reducible apply SEff.All.okIn
    | with_reducible apply SEff.All.trapIn
    | with_reducible apply SEff.All.waitIn
    | with_reducible apply SEff.All.fullIn
    | with_reducible apply SEff.All.ite
    | with_reducible apply Moves.thenOp (State.freeEvent_writes ..)
    | with_reducible refine State.vrun_writes (Within.mk rfl) (fun _ _ _ => ?_)
    | with_reducible apply Moves.thenOp (State.dtlbElems_writes ..)
    | with_reducible apply ResAll.next'
    | with_reducible apply ResAll.ite
    | with_reducible apply Moves.ite
    | (with_reducible apply upd_parts <;> first | exact .inl rfl | exact .inr rfl)
    | simp only [Moves.mk_eq]
    | with_reducible refine MovesMk.upd rfl (.inl rfl) (.inl rfl) ?_ ?_
    | (with_reducible apply Moves.foldl; intro _ _)
    | dsimp only
    | split
    | with_reducible refine Moves.thenOp (VRes.All.okGet (State.loadElems_writes ..) (by assumption)) (Within.mk rfl) ?_
    | with_reducible refine Moves.thenOp (VRes.All.trapGet (State.loadElems_writes ..) (by assumption)) (Within.mk rfl) ?_
    | with_reducible refine Moves.thenOp (VRes.All.waitGet (State.loadElems_writes ..) (by assumption)) (Within.mk rfl) ?_
    | with_reducible refine Moves.thenOp (VRes.All.fullGet (State.loadElems_writes ..) (by assumption)) (Within.mk rfl) ?_
    | with_reducible refine Moves.thenOp (Moves.of_snd (State.dtlbElems_writes ..) (by assumption)) (Within.mk rfl) ?_

theorem State.checkElems_writes (s : State) (k : StrandTask) (n : Nat) (addr : Nat → Word) (x4 : List Nat) :
    LRes.All (fun t => Moves [.objs, .content, .depot, .link, .out] s t) (State.checkElems s k n addr x4) := by
  induction x4 generalizing s k n addr with
  | nil =>
    unfold State.checkElems
    repeat' first
      | with_reducible apply Moves.refl
      | with_reducible apply LRes.All.okIn
  | cons a l ih =>
    unfold State.checkElems
    repeat' first
      | with_reducible apply Moves.refl
      | with_reducible refine LRes.All.imp (fun _ h => Moves.thenOp h (Within.mk rfl) ?_) (State.storeCheck_writes ..)
      | with_reducible refine LRes.All.imp (fun _ h => Moves.thenOp h (Within.mk rfl) ?_) (ih ..)
      | split
      | with_reducible refine Moves.thenOp (LRes.All.okGet (State.storeCheck_writes ..) (by assumption)) (Within.mk rfl) ?_

theorem State.vstore_writes (s : State) (st : StrandRef) (op : Nat) (f : Nat) (a : VArgs) (ok : StrandSt → Bool) (lines : Bool) (addr : StrandSt → Nat → Word) :
    ResAll (fun t => Moves [.freeCount, .objs, .flash, .routes, .sched, .scn, .cairn, .summit, .content, .depot, .strands, .cache, .coh, .link, .hostMem, .host, .dram, .err, .mgmt, .out] s t) (State.vstore s st op f a ok lines addr) := by
  unfold State.vstore
  repeat' first
    | with_reducible apply Moves.refl
    | assumption
    | ((with_reducible apply Within.mk); exact rfl)
    | with_reducible apply SEff.All.okIn
    | with_reducible apply SEff.All.trapIn
    | with_reducible apply SEff.All.waitIn
    | with_reducible apply SEff.All.fullIn
    | with_reducible apply Moves.thenOp (State.freeEvent_writes ..)
    | with_reducible refine State.vrun_writes (Within.mk rfl) (fun _ _ _ => ?_)
    | with_reducible apply Moves.thenOp (State.dtlbElems_writes ..)
    | with_reducible apply ResAll.next'
    | with_reducible apply ResAll.ite
    | with_reducible apply Moves.ite
    | (with_reducible apply upd_parts <;> first | exact .inl rfl | exact .inr rfl)
    | simp only [Moves.mk_eq]
    | with_reducible refine MovesMk.upd rfl (.inl rfl) (.inl rfl) ?_ ?_
    | (with_reducible apply Moves.foldl; intro _ _)
    | dsimp only
    | split
    | with_reducible refine Moves.thenOp (LRes.All.okGet (State.checkElems_writes ..) (by assumption)) (Within.mk rfl) ?_
    | with_reducible refine Moves.thenOp (LRes.All.waitGet (State.checkElems_writes ..) (by assumption)) (Within.mk rfl) ?_
    | with_reducible refine Moves.thenOp (LRes.All.fullGet (State.checkElems_writes ..) (by assumption)) (Within.mk rfl) ?_
    | with_reducible refine Moves.thenOp (Moves.of_snd (State.dtlbElems_writes ..) (by assumption)) (Within.mk rfl) ?_
    | with_reducible refine SEff.All.imp (fun _ h => Moves.thenOp h (Within.mk rfl) ?_) (State.enqueue_writes ..)
    | with_reducible refine Moves.thenOp (SEff.All.okGet (State.enqueue_writes ..) (by assumption)) (Within.mk rfl) ?_
    | with_reducible refine Moves.thenOp (SEff.All.waitGet (State.enqueue_writes ..) (by assumption)) (Within.mk rfl) ?_
    | with_reducible refine Moves.thenOp (SEff.All.fullGet (State.enqueue_writes ..) (by assumption)) (Within.mk rfl) ?_

theorem execVld_writes (st : StrandRef) (a : VArgs) (s : State) :
    ResAll (fun t => Moves [.freeCount, .objs, .flash, .routes, .sched, .scn, .cairn, .summit, .content, .depot, .strands, .cache, .coh, .link, .hostMem, .host, .dram, .err, .mgmt, .out] s t) (execVld st a s) := by
  unfold execVld
  repeat' first
    | with_reducible apply Moves.refl
    | with_reducible refine ResAll.imp (fun _ h => Moves.thenOp h (Within.mk rfl) ?_) (State.vload_writes ..)

theorem execVldff_writes (st : StrandRef) (a : VArgs) (s : State) :
    ResAll (fun t => Moves [.freeCount, .objs, .flash, .routes, .sched, .scn, .cairn, .summit, .content, .depot, .strands, .cache, .coh, .link, .hostMem, .host, .dram, .err, .mgmt, .out] s t) (execVldff st a s) := by
  unfold execVldff
  repeat' first
    | with_reducible apply Moves.refl
    | with_reducible refine ResAll.imp (fun _ h => Moves.thenOp h (Within.mk rfl) ?_) (State.vload_writes ..)

theorem execVst_writes (st : StrandRef) (a : VArgs) (s : State) :
    ResAll (fun t => Moves [.freeCount, .objs, .flash, .routes, .sched, .scn, .cairn, .summit, .content, .depot, .strands, .cache, .coh, .link, .hostMem, .host, .dram, .err, .mgmt, .out] s t) (execVst st a s) := by
  unfold execVst
  repeat' first
    | with_reducible apply Moves.refl
    | with_reducible refine ResAll.imp (fun _ h => Moves.thenOp h (Within.mk rfl) ?_) (State.vstore_writes ..)

theorem execVlds_writes (st : StrandRef) (a : VArgs) (s : State) :
    ResAll (fun t => Moves [.freeCount, .objs, .flash, .routes, .sched, .scn, .cairn, .summit, .content, .depot, .strands, .cache, .coh, .link, .hostMem, .host, .dram, .err, .mgmt, .out] s t) (execVlds st a s) := by
  unfold execVlds
  repeat' first
    | with_reducible apply Moves.refl
    | with_reducible refine ResAll.imp (fun _ h => Moves.thenOp h (Within.mk rfl) ?_) (State.vload_writes ..)

theorem execVsts_writes (st : StrandRef) (a : VArgs) (s : State) :
    ResAll (fun t => Moves [.freeCount, .objs, .flash, .routes, .sched, .scn, .cairn, .summit, .content, .depot, .strands, .cache, .coh, .link, .hostMem, .host, .dram, .err, .mgmt, .out] s t) (execVsts st a s) := by
  unfold execVsts
  repeat' first
    | with_reducible apply Moves.refl
    | with_reducible refine ResAll.imp (fun _ h => Moves.thenOp h (Within.mk rfl) ?_) (State.vstore_writes ..)

theorem execVgather_writes (st : StrandRef) (a : VArgs) (s : State) :
    ResAll (fun t => Moves [.freeCount, .objs, .flash, .routes, .sched, .scn, .cairn, .summit, .content, .depot, .strands, .cache, .coh, .link, .hostMem, .host, .dram, .err, .mgmt, .out] s t) (execVgather st a s) := by
  unfold execVgather
  repeat' first
    | with_reducible apply Moves.refl
    | with_reducible refine ResAll.imp (fun _ h => Moves.thenOp h (Within.mk rfl) ?_) (State.vload_writes ..)

theorem execVgatherff_writes (st : StrandRef) (a : VArgs) (s : State) :
    ResAll (fun t => Moves [.freeCount, .objs, .flash, .routes, .sched, .scn, .cairn, .summit, .content, .depot, .strands, .cache, .coh, .link, .hostMem, .host, .dram, .err, .mgmt, .out] s t) (execVgatherff st a s) := by
  unfold execVgatherff
  repeat' first
    | with_reducible apply Moves.refl
    | with_reducible refine ResAll.imp (fun _ h => Moves.thenOp h (Within.mk rfl) ?_) (State.vload_writes ..)

theorem execVscatter_writes (st : StrandRef) (a : VArgs) (s : State) :
    ResAll (fun t => Moves [.freeCount, .objs, .flash, .routes, .sched, .scn, .cairn, .summit, .content, .depot, .strands, .cache, .coh, .link, .hostMem, .host, .dram, .err, .mgmt, .out] s t) (execVscatter st a s) := by
  unfold execVscatter
  repeat' first
    | with_reducible apply Moves.refl
    | with_reducible refine ResAll.imp (fun _ h => Moves.thenOp h (Within.mk rfl) ?_) (State.vstore_writes ..)

theorem State.vctl_writes (s : State) (st : StrandRef) (f : Nat) (a : VArgs) (ok : Bool) (body : StrandSt → StrandSt) :
    ResAll (fun t => Moves [.freeCount, .objs, .flash, .routes, .sched, .scn, .cairn, .summit, .content, .depot, .strands, .cache, .coh, .link, .hostMem, .host, .dram, .err, .mgmt, .out] s t) (State.vctl s st f a ok body) := by
  unfold State.vctl
  repeat' first
    | with_reducible apply Moves.refl
    | with_reducible apply SEff.All.okIn
    | with_reducible refine State.vrun_writes (Within.mk rfl) (fun _ _ _ => ?_)

theorem execVsetvl_writes (st : StrandRef) (a : VArgs) (s : State) :
    ResAll (fun t => Moves [.freeCount, .objs, .flash, .routes, .sched, .scn, .cairn, .summit, .content, .depot, .strands, .cache, .coh, .link, .hostMem, .host, .dram, .err, .mgmt, .out] s t) (execVsetvl st a s) := by
  unfold execVsetvl
  repeat' first
    | with_reducible apply Moves.refl
    | assumption
    | ((with_reducible apply Within.mk); exact rfl)
    | with_reducible refine ResAll.imp (fun _ h => Moves.thenOp h (Within.mk rfl) ?_) (State.vctl_writes ..)
    | with_reducible apply ResAll.next'
    | with_reducible apply ResAll.ite
    | with_reducible apply Moves.ite
    | (with_reducible apply upd_parts <;> first | exact .inl rfl | exact .inr rfl)
    | simp only [Moves.mk_eq]
    | with_reducible refine MovesMk.upd rfl (.inl rfl) (.inl rfl) ?_ ?_
    | (with_reducible apply Moves.foldl; intro _ _)
    | dsimp only
    | split

theorem execPand_writes (st : StrandRef) (a : VArgs) (s : State) :
    ResAll (fun t => Moves [.freeCount, .objs, .flash, .routes, .sched, .scn, .cairn, .summit, .content, .depot, .strands, .cache, .coh, .link, .hostMem, .host, .dram, .err, .mgmt, .out] s t) (execPand st a s) := by
  unfold execPand
  repeat' first
    | with_reducible apply Moves.refl
    | with_reducible refine ResAll.imp (fun _ h => Moves.thenOp h (Within.mk rfl) ?_) (State.vctl_writes ..)

theorem execPor_writes (st : StrandRef) (a : VArgs) (s : State) :
    ResAll (fun t => Moves [.freeCount, .objs, .flash, .routes, .sched, .scn, .cairn, .summit, .content, .depot, .strands, .cache, .coh, .link, .hostMem, .host, .dram, .err, .mgmt, .out] s t) (execPor st a s) := by
  unfold execPor
  repeat' first
    | with_reducible apply Moves.refl
    | with_reducible refine ResAll.imp (fun _ h => Moves.thenOp h (Within.mk rfl) ?_) (State.vctl_writes ..)

theorem execPandn_writes (st : StrandRef) (a : VArgs) (s : State) :
    ResAll (fun t => Moves [.freeCount, .objs, .flash, .routes, .sched, .scn, .cairn, .summit, .content, .depot, .strands, .cache, .coh, .link, .hostMem, .host, .dram, .err, .mgmt, .out] s t) (execPandn st a s) := by
  unfold execPandn
  repeat' first
    | with_reducible apply Moves.refl
    | with_reducible refine ResAll.imp (fun _ h => Moves.thenOp h (Within.mk rfl) ?_) (State.vctl_writes ..)

theorem execPnot_writes (st : StrandRef) (a : VArgs) (s : State) :
    ResAll (fun t => Moves [.freeCount, .objs, .flash, .routes, .sched, .scn, .cairn, .summit, .content, .depot, .strands, .cache, .coh, .link, .hostMem, .host, .dram, .err, .mgmt, .out] s t) (execPnot st a s) := by
  unfold execPnot
  repeat' first
    | with_reducible apply Moves.refl
    | with_reducible refine ResAll.imp (fun _ h => Moves.thenOp h (Within.mk rfl) ?_) (State.vctl_writes ..)

theorem execFfmask_writes (st : StrandRef) (a : VArgs) (s : State) :
    ResAll (fun t => Moves [.freeCount, .objs, .flash, .routes, .sched, .scn, .cairn, .summit, .content, .depot, .strands, .cache, .coh, .link, .hostMem, .host, .dram, .err, .mgmt, .out] s t) (execFfmask st a s) := by
  unfold execFfmask
  repeat' first
    | with_reducible apply Moves.refl
    | with_reducible refine ResAll.imp (fun _ h => Moves.thenOp h (Within.mk rfl) ?_) (State.vctl_writes ..)

theorem execFffill_writes (st : StrandRef) (a : VArgs) (s : State) :
    ResAll (fun t => Moves [.freeCount, .objs, .flash, .routes, .sched, .scn, .cairn, .summit, .content, .depot, .strands, .cache, .coh, .link, .hostMem, .host, .dram, .err, .mgmt, .out] s t) (execFffill st a s) := by
  unfold execFffill
  repeat' first
    | with_reducible apply Moves.refl
    | assumption
    | ((with_reducible apply Within.mk); exact rfl)
    | with_reducible refine ResAll.imp (fun _ h => Moves.thenOp h (Within.mk rfl) ?_) (State.vctl_writes ..)
    | with_reducible apply ResAll.next'
    | with_reducible apply ResAll.ite
    | with_reducible apply Moves.ite
    | (with_reducible apply upd_parts <;> first | exact .inl rfl | exact .inr rfl)
    | simp only [Moves.mk_eq]
    | with_reducible refine MovesMk.upd rfl (.inl rfl) (.inl rfl) ?_ ?_
    | (with_reducible apply Moves.foldl; intro _ _)
    | dsimp only
    | split

theorem execFfput_writes (st : StrandRef) (a : VArgs) (s : State) :
    ResAll (fun t => Moves [.freeCount, .objs, .flash, .routes, .sched, .scn, .cairn, .summit, .content, .depot, .strands, .cache, .coh, .link, .hostMem, .host, .dram, .err, .mgmt, .out] s t) (execFfput st a s) := by
  unfold execFfput
  repeat' first
    | with_reducible apply Moves.refl
    | assumption
    | ((with_reducible apply Within.mk); exact rfl)
    | with_reducible refine ResAll.imp (fun _ h => Moves.thenOp h (Within.mk rfl) ?_) (State.vctl_writes ..)
    | with_reducible apply ResAll.next'
    | with_reducible apply ResAll.ite
    | with_reducible apply Moves.ite
    | (with_reducible apply upd_parts <;> first | exact .inl rfl | exact .inr rfl)
    | simp only [Moves.mk_eq]
    | with_reducible refine MovesMk.upd rfl (.inl rfl) (.inl rfl) ?_ ?_
    | (with_reducible apply Moves.foldl; intro _ _)
    | dsimp only
    | split

theorem execPcnt_writes (st : StrandRef) (a : VArgs) (s : State) :
    ResAll (fun t => Moves [.freeCount, .objs, .flash, .routes, .sched, .scn, .cairn, .summit, .content, .depot, .strands, .cache, .coh, .link, .hostMem, .host, .dram, .err, .mgmt, .out] s t) (execPcnt st a s) := by
  unfold execPcnt
  repeat' first
    | with_reducible apply Moves.refl
    | with_reducible refine ResAll.imp (fun _ h => Moves.thenOp h (Within.mk rfl) ?_) (State.vctl_writes ..)

theorem execPtrue_writes (st : StrandRef) (a : VArgs) (s : State) :
    ResAll (fun t => Moves [.freeCount, .objs, .flash, .routes, .sched, .scn, .cairn, .summit, .content, .depot, .strands, .cache, .coh, .link, .hostMem, .host, .dram, .err, .mgmt, .out] s t) (execPtrue st a s) := by
  unfold execPtrue
  repeat' first
    | with_reducible apply Moves.refl
    | with_reducible refine ResAll.imp (fun _ h => Moves.thenOp h (Within.mk rfl) ?_) (State.vctl_writes ..)

theorem execFfcnt_writes (st : StrandRef) (a : VArgs) (s : State) :
    ResAll (fun t => Moves [.freeCount, .objs, .flash, .routes, .sched, .scn, .cairn, .summit, .content, .depot, .strands, .cache, .coh, .link, .hostMem, .host, .dram, .err, .mgmt, .out] s t) (execFfcnt st a s) := by
  unfold execFfcnt
  repeat' first
    | with_reducible apply Moves.refl
    | with_reducible refine ResAll.imp (fun _ h => Moves.thenOp h (Within.mk rfl) ?_) (State.vctl_writes ..)

theorem State.vred_writes (s : State) (st : StrandRef) (f : Nat) (a : VArgs) (g : List Int → Word) :
    ResAll (fun t => Moves [.freeCount, .objs, .flash, .routes, .sched, .scn, .cairn, .summit, .content, .depot, .strands, .cache, .coh, .link, .hostMem, .host, .dram, .err, .mgmt, .out] s t) (State.vred s st f a g) := by
  unfold State.vred
  repeat' first
    | with_reducible apply Moves.refl
    | with_reducible apply SEff.All.okIn
    | with_reducible refine State.vrun_writes (Within.mk rfl) (fun _ _ _ => ?_)

theorem execVredadd_writes (st : StrandRef) (a : VArgs) (s : State) :
    ResAll (fun t => Moves [.freeCount, .objs, .flash, .routes, .sched, .scn, .cairn, .summit, .content, .depot, .strands, .cache, .coh, .link, .hostMem, .host, .dram, .err, .mgmt, .out] s t) (execVredadd st a s) := by
  unfold execVredadd
  repeat' first
    | with_reducible apply Moves.refl
    | with_reducible refine ResAll.imp (fun _ h => Moves.thenOp h (Within.mk rfl) ?_) (State.vred_writes ..)

theorem execVredmin_writes (st : StrandRef) (a : VArgs) (s : State) :
    ResAll (fun t => Moves [.freeCount, .objs, .flash, .routes, .sched, .scn, .cairn, .summit, .content, .depot, .strands, .cache, .coh, .link, .hostMem, .host, .dram, .err, .mgmt, .out] s t) (execVredmin st a s) := by
  unfold execVredmin
  repeat' first
    | with_reducible apply Moves.refl
    | with_reducible refine ResAll.imp (fun _ h => Moves.thenOp h (Within.mk rfl) ?_) (State.vred_writes ..)

theorem execVredmax_writes (st : StrandRef) (a : VArgs) (s : State) :
    ResAll (fun t => Moves [.freeCount, .objs, .flash, .routes, .sched, .scn, .cairn, .summit, .content, .depot, .strands, .cache, .coh, .link, .hostMem, .host, .dram, .err, .mgmt, .out] s t) (execVredmax st a s) := by
  unfold execVredmax
  repeat' first
    | with_reducible apply Moves.refl
    | with_reducible refine ResAll.imp (fun _ h => Moves.thenOp h (Within.mk rfl) ?_) (State.vred_writes ..)

theorem execVext_writes (st : StrandRef) (a : VArgs) (s : State) :
    ResAll (fun t => Moves [.freeCount, .objs, .flash, .routes, .sched, .scn, .cairn, .summit, .content, .depot, .strands, .cache, .coh, .link, .hostMem, .host, .dram, .err, .mgmt, .out] s t) (execVext st a s) := by
  unfold execVext
  repeat' first
    | with_reducible apply Moves.refl
    | with_reducible apply SEff.All.okIn
    | with_reducible refine State.vrun_writes (Within.mk rfl) (fun _ _ _ => ?_)

theorem execVcompress_writes (st : StrandRef) (a : VArgs) (s : State) :
    ResAll (fun t => Moves [.freeCount, .objs, .flash, .routes, .sched, .scn, .cairn, .summit, .content, .depot, .strands, .cache, .coh, .link, .hostMem, .host, .dram, .err, .mgmt, .out] s t) (execVcompress st a s) := by
  unfold execVcompress
  repeat' first
    | with_reducible apply Moves.refl
    | with_reducible apply SEff.All.okIn
    | with_reducible refine State.vrun_writes (Within.mk rfl) (fun _ _ _ => ?_)

theorem execVmv_writes (st : StrandRef) (a : VArgs) (s : State) :
    ResAll (fun t => Moves [.freeCount, .objs, .flash, .routes, .sched, .scn, .cairn, .summit, .content, .depot, .strands, .cache, .coh, .link, .hostMem, .host, .dram, .err, .mgmt, .out] s t) (execVmv st a s) := by
  unfold execVmv
  repeat' first
    | with_reducible apply Moves.refl
    | with_reducible apply SEff.All.okIn
    | with_reducible refine State.vrun_writes (Within.mk rfl) (fun _ _ _ => ?_)

theorem execVfredadd_writes (st : StrandRef) (a : VArgs) (s : State) :
    ResAll (fun t => Moves [.freeCount, .objs, .flash, .routes, .sched, .scn, .cairn, .summit, .content, .depot, .strands, .cache, .coh, .link, .hostMem, .host, .dram, .err, .mgmt, .out] s t) (execVfredadd st a s) := by
  unfold execVfredadd
  repeat' first
    | with_reducible apply Moves.refl
    | with_reducible refine SEff.All.imp (fun _ h => Moves.thenOp h (Within.mk rfl) ?_) (fpEnd_writes ..)
    | with_reducible refine State.vrun_writes (Within.mk rfl) (fun _ _ _ => ?_)

/-! ## Clock -/

theorem State.clockPass_writes (s : State) :
    Moves [.now, .strands] s (State.clockPass s) := by
  unfold State.clockPass
  repeat' first
    | with_reducible apply Moves.refl
    | ((with_reducible apply Within.mk); exact rfl)
    | with_reducible apply Moves.thenOp (State.advanceTo_writes ..)

end Sys2Proof.Machine
end

