-- ==== Sys2Proof/Laws/State.lean ====
section
/-! SUPPORT. What each single update of the state leaves of every field, one lemma per field, and what its accessor reads
after it. -/
namespace Sys2Proof.Machine

/-! ## State.emit -/

@[simp] theorem State.emit_now (s : State) (e : OutEv) : (s.emit e).now = s.now := rfl
@[simp] theorem State.emit_freeCount (s : State) (e : OutEv) : (s.emit e).freeCount = s.freeCount := rfl
@[simp] theorem State.emit_objs (s : State) (e : OutEv) : (s.emit e).objs = s.objs := rfl
@[simp] theorem State.emit_mem (s : State) (e : OutEv) : (s.emit e).mem = s.mem := rfl
@[simp] theorem State.emit_sys (s : State) (e : OutEv) : (s.emit e).sys = s.sys := rfl
@[simp] theorem State.emit_flash (s : State) (e : OutEv) : (s.emit e).flash = s.flash := rfl
@[simp] theorem State.emit_pitch (s : State) (e : OutEv) : (s.emit e).pitch = s.pitch := rfl
@[simp] theorem State.emit_routes (s : State) (e : OutEv) : (s.emit e).routes = s.routes := rfl
@[simp] theorem State.emit_sched (s : State) (e : OutEv) : (s.emit e).sched = s.sched := rfl
@[simp] theorem State.emit_scn (s : State) (e : OutEv) : (s.emit e).scn = s.scn := rfl
@[simp] theorem State.emit_cairn (s : State) (e : OutEv) : (s.emit e).cairn = s.cairn := rfl
@[simp] theorem State.emit_summit (s : State) (e : OutEv) : (s.emit e).summit = s.summit := rfl
@[simp] theorem State.emit_depot (s : State) (e : OutEv) : (s.emit e).depot = s.depot := rfl
@[simp] theorem State.emit_strands (s : State) (e : OutEv) : (s.emit e).strands = s.strands := rfl
@[simp] theorem State.emit_cache (s : State) (e : OutEv) : (s.emit e).cache = s.cache := rfl
@[simp] theorem State.emit_coh (s : State) (e : OutEv) : (s.emit e).coh = s.coh := rfl
@[simp] theorem State.emit_link (s : State) (e : OutEv) : (s.emit e).link = s.link := rfl
@[simp] theorem State.emit_host (s : State) (e : OutEv) : (s.emit e).host = s.host := rfl
@[simp] theorem State.emit_eng (s : State) (e : OutEv) : (s.emit e).eng = s.eng := rfl
@[simp] theorem State.emit_dram (s : State) (e : OutEv) : (s.emit e).dram = s.dram := rfl
@[simp] theorem State.emit_err (s : State) (e : OutEv) : (s.emit e).err = s.err := rfl
@[simp] theorem State.emit_mgmt (s : State) (e : OutEv) : (s.emit e).mgmt = s.mgmt := rfl
@[simp] theorem State.emit_power (s : State) (e : OutEv) : (s.emit e).power = s.power := rfl
@[simp] theorem State.emit_out (s : State) (e : OutEv) : (s.emit e).out = s.out ++ [e] := rfl
@[simp] theorem State.emit_pending (s : State) (e : OutEv) : (s.emit e).pending = s.pending := rfl

/-! ## State.free -/

@[simp] theorem State.free_now (s : State) (w : Nat) : ((s.free w).2).now = s.now := rfl
@[simp] theorem State.free_freeCount (s : State) (w : Nat) : ((s.free w).2).freeCount = s.freeCount + 1 := rfl
@[simp] theorem State.free_objs (s : State) (w : Nat) : ((s.free w).2).objs = s.objs := rfl
@[simp] theorem State.free_mem (s : State) (w : Nat) : ((s.free w).2).mem = s.mem := rfl
@[simp] theorem State.free_sys (s : State) (w : Nat) : ((s.free w).2).sys = s.sys := rfl
@[simp] theorem State.free_flash (s : State) (w : Nat) : ((s.free w).2).flash = s.flash := rfl
@[simp] theorem State.free_pitch (s : State) (w : Nat) : ((s.free w).2).pitch = s.pitch := rfl
@[simp] theorem State.free_routes (s : State) (w : Nat) : ((s.free w).2).routes = s.routes := rfl
@[simp] theorem State.free_sched (s : State) (w : Nat) : ((s.free w).2).sched = s.sched := rfl
@[simp] theorem State.free_scn (s : State) (w : Nat) : ((s.free w).2).scn = s.scn := rfl
@[simp] theorem State.free_cairn (s : State) (w : Nat) : ((s.free w).2).cairn = s.cairn := rfl
@[simp] theorem State.free_summit (s : State) (w : Nat) : ((s.free w).2).summit = s.summit := rfl
@[simp] theorem State.free_depot (s : State) (w : Nat) : ((s.free w).2).depot = s.depot := rfl
@[simp] theorem State.free_strands (s : State) (w : Nat) : ((s.free w).2).strands = s.strands := rfl
@[simp] theorem State.free_cache (s : State) (w : Nat) : ((s.free w).2).cache = s.cache := rfl
@[simp] theorem State.free_coh (s : State) (w : Nat) : ((s.free w).2).coh = s.coh := rfl
@[simp] theorem State.free_link (s : State) (w : Nat) : ((s.free w).2).link = s.link := rfl
@[simp] theorem State.free_host (s : State) (w : Nat) : ((s.free w).2).host = s.host := rfl
@[simp] theorem State.free_eng (s : State) (w : Nat) : ((s.free w).2).eng = s.eng := rfl
@[simp] theorem State.free_dram (s : State) (w : Nat) : ((s.free w).2).dram = s.dram := rfl
@[simp] theorem State.free_err (s : State) (w : Nat) : ((s.free w).2).err = s.err := rfl
@[simp] theorem State.free_mgmt (s : State) (w : Nat) : ((s.free w).2).mgmt = s.mgmt := rfl
@[simp] theorem State.free_power (s : State) (w : Nat) : ((s.free w).2).power = s.power := rfl
@[simp] theorem State.free_out (s : State) (w : Nat) : ((s.free w).2).out = s.out := rfl
@[simp] theorem State.free_pending (s : State) (w : Nat) : ((s.free w).2).pending = s.pending := rfl

/-! ## State.oput -/

@[simp] theorem State.oput_now (s : State) (i m : Nat) (v : ObjVal) : (s.oput i m v).now = s.now := rfl
@[simp] theorem State.oput_freeCount (s : State) (i m : Nat) (v : ObjVal) : (s.oput i m v).freeCount = s.freeCount := rfl
@[simp] theorem State.oput_mem (s : State) (i m : Nat) (v : ObjVal) : (s.oput i m v).mem = s.mem := rfl
@[simp] theorem State.oput_sys (s : State) (i m : Nat) (v : ObjVal) : (s.oput i m v).sys = s.sys := rfl
@[simp] theorem State.oput_flash (s : State) (i m : Nat) (v : ObjVal) : (s.oput i m v).flash = s.flash := rfl
@[simp] theorem State.oput_pitch (s : State) (i m : Nat) (v : ObjVal) : (s.oput i m v).pitch = s.pitch := rfl
@[simp] theorem State.oput_routes (s : State) (i m : Nat) (v : ObjVal) : (s.oput i m v).routes = s.routes := rfl
@[simp] theorem State.oput_sched (s : State) (i m : Nat) (v : ObjVal) : (s.oput i m v).sched = s.sched := rfl
@[simp] theorem State.oput_scn (s : State) (i m : Nat) (v : ObjVal) : (s.oput i m v).scn = s.scn := rfl
@[simp] theorem State.oput_cairn (s : State) (i m : Nat) (v : ObjVal) : (s.oput i m v).cairn = s.cairn := rfl
@[simp] theorem State.oput_summit (s : State) (i m : Nat) (v : ObjVal) : (s.oput i m v).summit = s.summit := rfl
@[simp] theorem State.oput_depot (s : State) (i m : Nat) (v : ObjVal) : (s.oput i m v).depot = s.depot := rfl
@[simp] theorem State.oput_strands (s : State) (i m : Nat) (v : ObjVal) : (s.oput i m v).strands = s.strands := rfl
@[simp] theorem State.oput_cache (s : State) (i m : Nat) (v : ObjVal) : (s.oput i m v).cache = s.cache := rfl
@[simp] theorem State.oput_coh (s : State) (i m : Nat) (v : ObjVal) : (s.oput i m v).coh = s.coh := rfl
@[simp] theorem State.oput_link (s : State) (i m : Nat) (v : ObjVal) : (s.oput i m v).link = s.link := rfl
@[simp] theorem State.oput_host (s : State) (i m : Nat) (v : ObjVal) : (s.oput i m v).host = s.host := rfl
@[simp] theorem State.oput_eng (s : State) (i m : Nat) (v : ObjVal) : (s.oput i m v).eng = s.eng := rfl
@[simp] theorem State.oput_dram (s : State) (i m : Nat) (v : ObjVal) : (s.oput i m v).dram = s.dram := rfl
@[simp] theorem State.oput_err (s : State) (i m : Nat) (v : ObjVal) : (s.oput i m v).err = s.err := rfl
@[simp] theorem State.oput_mgmt (s : State) (i m : Nat) (v : ObjVal) : (s.oput i m v).mgmt = s.mgmt := rfl
@[simp] theorem State.oput_power (s : State) (i m : Nat) (v : ObjVal) : (s.oput i m v).power = s.power := rfl
@[simp] theorem State.oput_out (s : State) (i m : Nat) (v : ObjVal) : (s.oput i m v).out = s.out := rfl
@[simp] theorem State.oput_pending (s : State) (i m : Nat) (v : ObjVal) : (s.oput i m v).pending = s.pending := rfl

/-! ## State.oset -/

@[simp] theorem State.oset_now (s : State) (i m n : Nat) : (s.oset i m n).now = s.now := rfl
@[simp] theorem State.oset_freeCount (s : State) (i m n : Nat) : (s.oset i m n).freeCount = s.freeCount := rfl
@[simp] theorem State.oset_objs (s : State) (i m n : Nat) : (s.oset i m n).objs = (s.oput i m (.num n)).objs := rfl
@[simp] theorem State.oset_mem (s : State) (i m n : Nat) : (s.oset i m n).mem = s.mem := rfl
@[simp] theorem State.oset_sys (s : State) (i m n : Nat) : (s.oset i m n).sys = s.sys := rfl
@[simp] theorem State.oset_flash (s : State) (i m n : Nat) : (s.oset i m n).flash = s.flash := rfl
@[simp] theorem State.oset_pitch (s : State) (i m n : Nat) : (s.oset i m n).pitch = s.pitch := rfl
@[simp] theorem State.oset_routes (s : State) (i m n : Nat) : (s.oset i m n).routes = s.routes := rfl
@[simp] theorem State.oset_sched (s : State) (i m n : Nat) : (s.oset i m n).sched = s.sched := rfl
@[simp] theorem State.oset_scn (s : State) (i m n : Nat) : (s.oset i m n).scn = s.scn := rfl
@[simp] theorem State.oset_cairn (s : State) (i m n : Nat) : (s.oset i m n).cairn = s.cairn := rfl
@[simp] theorem State.oset_summit (s : State) (i m n : Nat) : (s.oset i m n).summit = s.summit := rfl
@[simp] theorem State.oset_depot (s : State) (i m n : Nat) : (s.oset i m n).depot = s.depot := rfl
@[simp] theorem State.oset_strands (s : State) (i m n : Nat) : (s.oset i m n).strands = s.strands := rfl
@[simp] theorem State.oset_cache (s : State) (i m n : Nat) : (s.oset i m n).cache = s.cache := rfl
@[simp] theorem State.oset_coh (s : State) (i m n : Nat) : (s.oset i m n).coh = s.coh := rfl
@[simp] theorem State.oset_link (s : State) (i m n : Nat) : (s.oset i m n).link = s.link := rfl
@[simp] theorem State.oset_host (s : State) (i m n : Nat) : (s.oset i m n).host = s.host := rfl
@[simp] theorem State.oset_eng (s : State) (i m n : Nat) : (s.oset i m n).eng = s.eng := rfl
@[simp] theorem State.oset_dram (s : State) (i m n : Nat) : (s.oset i m n).dram = s.dram := rfl
@[simp] theorem State.oset_err (s : State) (i m n : Nat) : (s.oset i m n).err = s.err := rfl
@[simp] theorem State.oset_mgmt (s : State) (i m n : Nat) : (s.oset i m n).mgmt = s.mgmt := rfl
@[simp] theorem State.oset_power (s : State) (i m n : Nat) : (s.oset i m n).power = s.power := rfl
@[simp] theorem State.oset_out (s : State) (i m n : Nat) : (s.oset i m n).out = s.out := rfl
@[simp] theorem State.oset_pending (s : State) (i m n : Nat) : (s.oset i m n).pending = s.pending := rfl

/-! ## State.oinc -/

@[simp] theorem State.oinc_now (s : State) (i m n : Nat) : (s.oinc i m n).now = s.now := rfl
@[simp] theorem State.oinc_freeCount (s : State) (i m n : Nat) : (s.oinc i m n).freeCount = s.freeCount := rfl
@[simp] theorem State.oinc_mem (s : State) (i m n : Nat) : (s.oinc i m n).mem = s.mem := rfl
@[simp] theorem State.oinc_sys (s : State) (i m n : Nat) : (s.oinc i m n).sys = s.sys := rfl
@[simp] theorem State.oinc_flash (s : State) (i m n : Nat) : (s.oinc i m n).flash = s.flash := rfl
@[simp] theorem State.oinc_pitch (s : State) (i m n : Nat) : (s.oinc i m n).pitch = s.pitch := rfl
@[simp] theorem State.oinc_routes (s : State) (i m n : Nat) : (s.oinc i m n).routes = s.routes := rfl
@[simp] theorem State.oinc_sched (s : State) (i m n : Nat) : (s.oinc i m n).sched = s.sched := rfl
@[simp] theorem State.oinc_scn (s : State) (i m n : Nat) : (s.oinc i m n).scn = s.scn := rfl
@[simp] theorem State.oinc_cairn (s : State) (i m n : Nat) : (s.oinc i m n).cairn = s.cairn := rfl
@[simp] theorem State.oinc_summit (s : State) (i m n : Nat) : (s.oinc i m n).summit = s.summit := rfl
@[simp] theorem State.oinc_depot (s : State) (i m n : Nat) : (s.oinc i m n).depot = s.depot := rfl
@[simp] theorem State.oinc_strands (s : State) (i m n : Nat) : (s.oinc i m n).strands = s.strands := rfl
@[simp] theorem State.oinc_cache (s : State) (i m n : Nat) : (s.oinc i m n).cache = s.cache := rfl
@[simp] theorem State.oinc_coh (s : State) (i m n : Nat) : (s.oinc i m n).coh = s.coh := rfl
@[simp] theorem State.oinc_link (s : State) (i m n : Nat) : (s.oinc i m n).link = s.link := rfl
@[simp] theorem State.oinc_host (s : State) (i m n : Nat) : (s.oinc i m n).host = s.host := rfl
@[simp] theorem State.oinc_eng (s : State) (i m n : Nat) : (s.oinc i m n).eng = s.eng := rfl
@[simp] theorem State.oinc_dram (s : State) (i m n : Nat) : (s.oinc i m n).dram = s.dram := rfl
@[simp] theorem State.oinc_err (s : State) (i m n : Nat) : (s.oinc i m n).err = s.err := rfl
@[simp] theorem State.oinc_mgmt (s : State) (i m n : Nat) : (s.oinc i m n).mgmt = s.mgmt := rfl
@[simp] theorem State.oinc_power (s : State) (i m n : Nat) : (s.oinc i m n).power = s.power := rfl
@[simp] theorem State.oinc_out (s : State) (i m n : Nat) : (s.oinc i m n).out = s.out := rfl
@[simp] theorem State.oinc_pending (s : State) (i m n : Nat) : (s.oinc i m n).pending = s.pending := rfl

/-! ## State.setFn -/

@[simp] theorem State.setFn_now (s : State) (t : Nat) (f : FnSt) : (s.setFn t f).now = s.now := rfl
@[simp] theorem State.setFn_freeCount (s : State) (t : Nat) (f : FnSt) : (s.setFn t f).freeCount = s.freeCount := rfl
@[simp] theorem State.setFn_objs (s : State) (t : Nat) (f : FnSt) : (s.setFn t f).objs = s.objs := rfl
@[simp] theorem State.setFn_mem (s : State) (t : Nat) (f : FnSt) : (s.setFn t f).mem = s.mem := rfl
@[simp] theorem State.setFn_sys (s : State) (t : Nat) (f : FnSt) : (s.setFn t f).sys = s.sys := rfl
@[simp] theorem State.setFn_flash (s : State) (t : Nat) (f : FnSt) : (s.setFn t f).flash = s.flash := rfl
@[simp] theorem State.setFn_pitch (s : State) (t : Nat) (f : FnSt) : (s.setFn t f).pitch = s.pitch := rfl
@[simp] theorem State.setFn_routes (s : State) (t : Nat) (f : FnSt) : (s.setFn t f).routes = s.routes := rfl
@[simp] theorem State.setFn_sched (s : State) (t : Nat) (f : FnSt) : (s.setFn t f).sched = s.sched := rfl
@[simp] theorem State.setFn_scn (s : State) (t : Nat) (f : FnSt) : (s.setFn t f).scn = s.scn := rfl
@[simp] theorem State.setFn_cairn (s : State) (t : Nat) (f : FnSt) : (s.setFn t f).cairn = s.cairn := rfl
@[simp] theorem State.setFn_summit (s : State) (t : Nat) (f : FnSt) : (s.setFn t f).summit = s.summit := rfl
@[simp] theorem State.setFn_depot (s : State) (t : Nat) (f : FnSt) : (s.setFn t f).depot = s.depot := rfl
@[simp] theorem State.setFn_strands (s : State) (t : Nat) (f : FnSt) : (s.setFn t f).strands = s.strands := rfl
@[simp] theorem State.setFn_cache (s : State) (t : Nat) (f : FnSt) : (s.setFn t f).cache = s.cache := rfl
@[simp] theorem State.setFn_coh (s : State) (t : Nat) (f : FnSt) : (s.setFn t f).coh = s.coh := rfl
@[simp] theorem State.setFn_link (s : State) (t : Nat) (f : FnSt) : (s.setFn t f).link = s.link := rfl
@[simp] theorem State.setFn_eng (s : State) (t : Nat) (f : FnSt) : (s.setFn t f).eng = s.eng := rfl
@[simp] theorem State.setFn_dram (s : State) (t : Nat) (f : FnSt) : (s.setFn t f).dram = s.dram := rfl
@[simp] theorem State.setFn_err (s : State) (t : Nat) (f : FnSt) : (s.setFn t f).err = s.err := rfl
@[simp] theorem State.setFn_mgmt (s : State) (t : Nat) (f : FnSt) : (s.setFn t f).mgmt = s.mgmt := rfl
@[simp] theorem State.setFn_power (s : State) (t : Nat) (f : FnSt) : (s.setFn t f).power = s.power := rfl
@[simp] theorem State.setFn_out (s : State) (t : Nat) (f : FnSt) : (s.setFn t f).out = s.out := rfl
@[simp] theorem State.setFn_pending (s : State) (t : Nat) (f : FnSt) : (s.setFn t f).pending = s.pending := rfl

/-! ## State.mapFn -/

@[simp] theorem State.mapFn_now (s : State) (t : Nat) (g : FnSt → FnSt) : (s.mapFn t g).now = s.now := rfl
@[simp] theorem State.mapFn_freeCount (s : State) (t : Nat) (g : FnSt → FnSt) : (s.mapFn t g).freeCount = s.freeCount := rfl
@[simp] theorem State.mapFn_objs (s : State) (t : Nat) (g : FnSt → FnSt) : (s.mapFn t g).objs = s.objs := rfl
@[simp] theorem State.mapFn_mem (s : State) (t : Nat) (g : FnSt → FnSt) : (s.mapFn t g).mem = s.mem := rfl
@[simp] theorem State.mapFn_sys (s : State) (t : Nat) (g : FnSt → FnSt) : (s.mapFn t g).sys = s.sys := rfl
@[simp] theorem State.mapFn_flash (s : State) (t : Nat) (g : FnSt → FnSt) : (s.mapFn t g).flash = s.flash := rfl
@[simp] theorem State.mapFn_pitch (s : State) (t : Nat) (g : FnSt → FnSt) : (s.mapFn t g).pitch = s.pitch := rfl
@[simp] theorem State.mapFn_routes (s : State) (t : Nat) (g : FnSt → FnSt) : (s.mapFn t g).routes = s.routes := rfl
@[simp] theorem State.mapFn_sched (s : State) (t : Nat) (g : FnSt → FnSt) : (s.mapFn t g).sched = s.sched := rfl
@[simp] theorem State.mapFn_scn (s : State) (t : Nat) (g : FnSt → FnSt) : (s.mapFn t g).scn = s.scn := rfl
@[simp] theorem State.mapFn_cairn (s : State) (t : Nat) (g : FnSt → FnSt) : (s.mapFn t g).cairn = s.cairn := rfl
@[simp] theorem State.mapFn_summit (s : State) (t : Nat) (g : FnSt → FnSt) : (s.mapFn t g).summit = s.summit := rfl
@[simp] theorem State.mapFn_depot (s : State) (t : Nat) (g : FnSt → FnSt) : (s.mapFn t g).depot = s.depot := rfl
@[simp] theorem State.mapFn_strands (s : State) (t : Nat) (g : FnSt → FnSt) : (s.mapFn t g).strands = s.strands := rfl
@[simp] theorem State.mapFn_cache (s : State) (t : Nat) (g : FnSt → FnSt) : (s.mapFn t g).cache = s.cache := rfl
@[simp] theorem State.mapFn_coh (s : State) (t : Nat) (g : FnSt → FnSt) : (s.mapFn t g).coh = s.coh := rfl
@[simp] theorem State.mapFn_link (s : State) (t : Nat) (g : FnSt → FnSt) : (s.mapFn t g).link = s.link := rfl
@[simp] theorem State.mapFn_host (s : State) (t : Nat) (g : FnSt → FnSt) : (s.mapFn t g).host = (s.setFn t (g (s.fn t))).host := rfl
@[simp] theorem State.mapFn_eng (s : State) (t : Nat) (g : FnSt → FnSt) : (s.mapFn t g).eng = s.eng := rfl
@[simp] theorem State.mapFn_dram (s : State) (t : Nat) (g : FnSt → FnSt) : (s.mapFn t g).dram = s.dram := rfl
@[simp] theorem State.mapFn_err (s : State) (t : Nat) (g : FnSt → FnSt) : (s.mapFn t g).err = s.err := rfl
@[simp] theorem State.mapFn_mgmt (s : State) (t : Nat) (g : FnSt → FnSt) : (s.mapFn t g).mgmt = s.mgmt := rfl
@[simp] theorem State.mapFn_power (s : State) (t : Nat) (g : FnSt → FnSt) : (s.mapFn t g).power = s.power := rfl
@[simp] theorem State.mapFn_out (s : State) (t : Nat) (g : FnSt → FnSt) : (s.mapFn t g).out = s.out := rfl
@[simp] theorem State.mapFn_pending (s : State) (t : Nat) (g : FnSt → FnSt) : (s.mapFn t g).pending = s.pending := rfl

/-! ## State.putCq -/

@[simp] theorem State.putCq_now (s : State) (t q : Nat) (c : CQ) : (s.putCq t q c).now = s.now := rfl
@[simp] theorem State.putCq_freeCount (s : State) (t q : Nat) (c : CQ) : (s.putCq t q c).freeCount = s.freeCount := rfl
@[simp] theorem State.putCq_objs (s : State) (t q : Nat) (c : CQ) : (s.putCq t q c).objs = s.objs := rfl
@[simp] theorem State.putCq_mem (s : State) (t q : Nat) (c : CQ) : (s.putCq t q c).mem = s.mem := rfl
@[simp] theorem State.putCq_sys (s : State) (t q : Nat) (c : CQ) : (s.putCq t q c).sys = s.sys := rfl
@[simp] theorem State.putCq_flash (s : State) (t q : Nat) (c : CQ) : (s.putCq t q c).flash = s.flash := rfl
@[simp] theorem State.putCq_pitch (s : State) (t q : Nat) (c : CQ) : (s.putCq t q c).pitch = s.pitch := rfl
@[simp] theorem State.putCq_routes (s : State) (t q : Nat) (c : CQ) : (s.putCq t q c).routes = s.routes := rfl
@[simp] theorem State.putCq_sched (s : State) (t q : Nat) (c : CQ) : (s.putCq t q c).sched = s.sched := rfl
@[simp] theorem State.putCq_scn (s : State) (t q : Nat) (c : CQ) : (s.putCq t q c).scn = s.scn := rfl
@[simp] theorem State.putCq_cairn (s : State) (t q : Nat) (c : CQ) : (s.putCq t q c).cairn = s.cairn := rfl
@[simp] theorem State.putCq_summit (s : State) (t q : Nat) (c : CQ) : (s.putCq t q c).summit = s.summit := rfl
@[simp] theorem State.putCq_depot (s : State) (t q : Nat) (c : CQ) : (s.putCq t q c).depot = s.depot := rfl
@[simp] theorem State.putCq_strands (s : State) (t q : Nat) (c : CQ) : (s.putCq t q c).strands = s.strands := rfl
@[simp] theorem State.putCq_cache (s : State) (t q : Nat) (c : CQ) : (s.putCq t q c).cache = s.cache := rfl
@[simp] theorem State.putCq_coh (s : State) (t q : Nat) (c : CQ) : (s.putCq t q c).coh = s.coh := rfl
@[simp] theorem State.putCq_link (s : State) (t q : Nat) (c : CQ) : (s.putCq t q c).link = s.link := rfl
@[simp] theorem State.putCq_eng (s : State) (t q : Nat) (c : CQ) : (s.putCq t q c).eng = s.eng := rfl
@[simp] theorem State.putCq_dram (s : State) (t q : Nat) (c : CQ) : (s.putCq t q c).dram = s.dram := rfl
@[simp] theorem State.putCq_err (s : State) (t q : Nat) (c : CQ) : (s.putCq t q c).err = s.err := rfl
@[simp] theorem State.putCq_mgmt (s : State) (t q : Nat) (c : CQ) : (s.putCq t q c).mgmt = s.mgmt := rfl
@[simp] theorem State.putCq_power (s : State) (t q : Nat) (c : CQ) : (s.putCq t q c).power = s.power := rfl
@[simp] theorem State.putCq_out (s : State) (t q : Nat) (c : CQ) : (s.putCq t q c).out = s.out := rfl
@[simp] theorem State.putCq_pending (s : State) (t q : Nat) (c : CQ) : (s.putCq t q c).pending = s.pending := rfl

/-! ## State.putWq -/

@[simp] theorem State.putWq_now (s : State) (t q : Nat) (w : WQ) : (s.putWq t q w).now = s.now := rfl
@[simp] theorem State.putWq_freeCount (s : State) (t q : Nat) (w : WQ) : (s.putWq t q w).freeCount = s.freeCount := rfl
@[simp] theorem State.putWq_objs (s : State) (t q : Nat) (w : WQ) : (s.putWq t q w).objs = s.objs := rfl
@[simp] theorem State.putWq_mem (s : State) (t q : Nat) (w : WQ) : (s.putWq t q w).mem = s.mem := rfl
@[simp] theorem State.putWq_sys (s : State) (t q : Nat) (w : WQ) : (s.putWq t q w).sys = s.sys := rfl
@[simp] theorem State.putWq_flash (s : State) (t q : Nat) (w : WQ) : (s.putWq t q w).flash = s.flash := rfl
@[simp] theorem State.putWq_pitch (s : State) (t q : Nat) (w : WQ) : (s.putWq t q w).pitch = s.pitch := rfl
@[simp] theorem State.putWq_routes (s : State) (t q : Nat) (w : WQ) : (s.putWq t q w).routes = s.routes := rfl
@[simp] theorem State.putWq_sched (s : State) (t q : Nat) (w : WQ) : (s.putWq t q w).sched = s.sched := rfl
@[simp] theorem State.putWq_scn (s : State) (t q : Nat) (w : WQ) : (s.putWq t q w).scn = s.scn := rfl
@[simp] theorem State.putWq_cairn (s : State) (t q : Nat) (w : WQ) : (s.putWq t q w).cairn = s.cairn := rfl
@[simp] theorem State.putWq_summit (s : State) (t q : Nat) (w : WQ) : (s.putWq t q w).summit = s.summit := rfl
@[simp] theorem State.putWq_depot (s : State) (t q : Nat) (w : WQ) : (s.putWq t q w).depot = s.depot := rfl
@[simp] theorem State.putWq_strands (s : State) (t q : Nat) (w : WQ) : (s.putWq t q w).strands = s.strands := rfl
@[simp] theorem State.putWq_cache (s : State) (t q : Nat) (w : WQ) : (s.putWq t q w).cache = s.cache := rfl
@[simp] theorem State.putWq_coh (s : State) (t q : Nat) (w : WQ) : (s.putWq t q w).coh = s.coh := rfl
@[simp] theorem State.putWq_link (s : State) (t q : Nat) (w : WQ) : (s.putWq t q w).link = s.link := rfl
@[simp] theorem State.putWq_eng (s : State) (t q : Nat) (w : WQ) : (s.putWq t q w).eng = s.eng := rfl
@[simp] theorem State.putWq_dram (s : State) (t q : Nat) (w : WQ) : (s.putWq t q w).dram = s.dram := rfl
@[simp] theorem State.putWq_err (s : State) (t q : Nat) (w : WQ) : (s.putWq t q w).err = s.err := rfl
@[simp] theorem State.putWq_mgmt (s : State) (t q : Nat) (w : WQ) : (s.putWq t q w).mgmt = s.mgmt := rfl
@[simp] theorem State.putWq_power (s : State) (t q : Nat) (w : WQ) : (s.putWq t q w).power = s.power := rfl
@[simp] theorem State.putWq_out (s : State) (t q : Nat) (w : WQ) : (s.putWq t q w).out = s.out := rfl
@[simp] theorem State.putWq_pending (s : State) (t q : Nat) (w : WQ) : (s.putWq t q w).pending = s.pending := rfl

/-! ## State.setStrand -/

@[simp] theorem State.setStrand_now (s : State) (r k : Nat) (t : StrandSt) : (s.setStrand r k t).now = s.now := rfl
@[simp] theorem State.setStrand_freeCount (s : State) (r k : Nat) (t : StrandSt) : (s.setStrand r k t).freeCount = s.freeCount := rfl
@[simp] theorem State.setStrand_objs (s : State) (r k : Nat) (t : StrandSt) : (s.setStrand r k t).objs = s.objs := rfl
@[simp] theorem State.setStrand_mem (s : State) (r k : Nat) (t : StrandSt) : (s.setStrand r k t).mem = s.mem := rfl
@[simp] theorem State.setStrand_sys (s : State) (r k : Nat) (t : StrandSt) : (s.setStrand r k t).sys = s.sys := rfl
@[simp] theorem State.setStrand_flash (s : State) (r k : Nat) (t : StrandSt) : (s.setStrand r k t).flash = s.flash := rfl
@[simp] theorem State.setStrand_pitch (s : State) (r k : Nat) (t : StrandSt) : (s.setStrand r k t).pitch = s.pitch := rfl
@[simp] theorem State.setStrand_routes (s : State) (r k : Nat) (t : StrandSt) : (s.setStrand r k t).routes = s.routes := rfl
@[simp] theorem State.setStrand_sched (s : State) (r k : Nat) (t : StrandSt) : (s.setStrand r k t).sched = s.sched := rfl
@[simp] theorem State.setStrand_scn (s : State) (r k : Nat) (t : StrandSt) : (s.setStrand r k t).scn = s.scn := rfl
@[simp] theorem State.setStrand_cairn (s : State) (r k : Nat) (t : StrandSt) : (s.setStrand r k t).cairn = s.cairn := rfl
@[simp] theorem State.setStrand_summit (s : State) (r k : Nat) (t : StrandSt) : (s.setStrand r k t).summit = s.summit := rfl
@[simp] theorem State.setStrand_depot (s : State) (r k : Nat) (t : StrandSt) : (s.setStrand r k t).depot = s.depot := rfl
@[simp] theorem State.setStrand_cache (s : State) (r k : Nat) (t : StrandSt) : (s.setStrand r k t).cache = s.cache := rfl
@[simp] theorem State.setStrand_coh (s : State) (r k : Nat) (t : StrandSt) : (s.setStrand r k t).coh = s.coh := rfl
@[simp] theorem State.setStrand_link (s : State) (r k : Nat) (t : StrandSt) : (s.setStrand r k t).link = s.link := rfl
@[simp] theorem State.setStrand_host (s : State) (r k : Nat) (t : StrandSt) : (s.setStrand r k t).host = s.host := rfl
@[simp] theorem State.setStrand_eng (s : State) (r k : Nat) (t : StrandSt) : (s.setStrand r k t).eng = s.eng := rfl
@[simp] theorem State.setStrand_dram (s : State) (r k : Nat) (t : StrandSt) : (s.setStrand r k t).dram = s.dram := rfl
@[simp] theorem State.setStrand_err (s : State) (r k : Nat) (t : StrandSt) : (s.setStrand r k t).err = s.err := rfl
@[simp] theorem State.setStrand_mgmt (s : State) (r k : Nat) (t : StrandSt) : (s.setStrand r k t).mgmt = s.mgmt := rfl
@[simp] theorem State.setStrand_power (s : State) (r k : Nat) (t : StrandSt) : (s.setStrand r k t).power = s.power := rfl
@[simp] theorem State.setStrand_out (s : State) (r k : Nat) (t : StrandSt) : (s.setStrand r k t).out = s.out := rfl
@[simp] theorem State.setStrand_pending (s : State) (r k : Nat) (t : StrandSt) : (s.setStrand r k t).pending = s.pending := rfl

/-! ## State.setSlot -/

@[simp] theorem State.setSlot_now (s : State) (k : Nat) (b : SlotBuf × SlotBuf) : (s.setSlot k b).now = s.now := rfl
@[simp] theorem State.setSlot_freeCount (s : State) (k : Nat) (b : SlotBuf × SlotBuf) : (s.setSlot k b).freeCount = s.freeCount := rfl
@[simp] theorem State.setSlot_objs (s : State) (k : Nat) (b : SlotBuf × SlotBuf) : (s.setSlot k b).objs = s.objs := rfl
@[simp] theorem State.setSlot_mem (s : State) (k : Nat) (b : SlotBuf × SlotBuf) : (s.setSlot k b).mem = s.mem := rfl
@[simp] theorem State.setSlot_sys (s : State) (k : Nat) (b : SlotBuf × SlotBuf) : (s.setSlot k b).sys = s.sys := rfl
@[simp] theorem State.setSlot_flash (s : State) (k : Nat) (b : SlotBuf × SlotBuf) : (s.setSlot k b).flash = s.flash := rfl
@[simp] theorem State.setSlot_pitch (s : State) (k : Nat) (b : SlotBuf × SlotBuf) : (s.setSlot k b).pitch = s.pitch := rfl
@[simp] theorem State.setSlot_routes (s : State) (k : Nat) (b : SlotBuf × SlotBuf) : (s.setSlot k b).routes = s.routes := rfl
@[simp] theorem State.setSlot_sched (s : State) (k : Nat) (b : SlotBuf × SlotBuf) : (s.setSlot k b).sched = s.sched := rfl
@[simp] theorem State.setSlot_scn (s : State) (k : Nat) (b : SlotBuf × SlotBuf) : (s.setSlot k b).scn = s.scn := rfl
@[simp] theorem State.setSlot_cairn (s : State) (k : Nat) (b : SlotBuf × SlotBuf) : (s.setSlot k b).cairn = s.cairn := rfl
@[simp] theorem State.setSlot_depot (s : State) (k : Nat) (b : SlotBuf × SlotBuf) : (s.setSlot k b).depot = s.depot := rfl
@[simp] theorem State.setSlot_strands (s : State) (k : Nat) (b : SlotBuf × SlotBuf) : (s.setSlot k b).strands = s.strands := rfl
@[simp] theorem State.setSlot_cache (s : State) (k : Nat) (b : SlotBuf × SlotBuf) : (s.setSlot k b).cache = s.cache := rfl
@[simp] theorem State.setSlot_coh (s : State) (k : Nat) (b : SlotBuf × SlotBuf) : (s.setSlot k b).coh = s.coh := rfl
@[simp] theorem State.setSlot_link (s : State) (k : Nat) (b : SlotBuf × SlotBuf) : (s.setSlot k b).link = s.link := rfl
@[simp] theorem State.setSlot_host (s : State) (k : Nat) (b : SlotBuf × SlotBuf) : (s.setSlot k b).host = s.host := rfl
@[simp] theorem State.setSlot_eng (s : State) (k : Nat) (b : SlotBuf × SlotBuf) : (s.setSlot k b).eng = s.eng := rfl
@[simp] theorem State.setSlot_dram (s : State) (k : Nat) (b : SlotBuf × SlotBuf) : (s.setSlot k b).dram = s.dram := rfl
@[simp] theorem State.setSlot_err (s : State) (k : Nat) (b : SlotBuf × SlotBuf) : (s.setSlot k b).err = s.err := rfl
@[simp] theorem State.setSlot_mgmt (s : State) (k : Nat) (b : SlotBuf × SlotBuf) : (s.setSlot k b).mgmt = s.mgmt := rfl
@[simp] theorem State.setSlot_power (s : State) (k : Nat) (b : SlotBuf × SlotBuf) : (s.setSlot k b).power = s.power := rfl
@[simp] theorem State.setSlot_out (s : State) (k : Nat) (b : SlotBuf × SlotBuf) : (s.setSlot k b).out = s.out := rfl
@[simp] theorem State.setSlot_pending (s : State) (k : Nat) (b : SlotBuf × SlotBuf) : (s.setSlot k b).pending = s.pending := rfl

/-! ## State.setBank -/

@[simp] theorem State.setBank_now (s : State) (k : Nat) (b : Bank) : (s.setBank k b).now = s.now := rfl
@[simp] theorem State.setBank_freeCount (s : State) (k : Nat) (b : Bank) : (s.setBank k b).freeCount = s.freeCount := rfl
@[simp] theorem State.setBank_objs (s : State) (k : Nat) (b : Bank) : (s.setBank k b).objs = s.objs := rfl
@[simp] theorem State.setBank_mem (s : State) (k : Nat) (b : Bank) : (s.setBank k b).mem = s.mem := rfl
@[simp] theorem State.setBank_sys (s : State) (k : Nat) (b : Bank) : (s.setBank k b).sys = s.sys := rfl
@[simp] theorem State.setBank_flash (s : State) (k : Nat) (b : Bank) : (s.setBank k b).flash = s.flash := rfl
@[simp] theorem State.setBank_pitch (s : State) (k : Nat) (b : Bank) : (s.setBank k b).pitch = s.pitch := rfl
@[simp] theorem State.setBank_routes (s : State) (k : Nat) (b : Bank) : (s.setBank k b).routes = s.routes := rfl
@[simp] theorem State.setBank_sched (s : State) (k : Nat) (b : Bank) : (s.setBank k b).sched = s.sched := rfl
@[simp] theorem State.setBank_scn (s : State) (k : Nat) (b : Bank) : (s.setBank k b).scn = s.scn := rfl
@[simp] theorem State.setBank_summit (s : State) (k : Nat) (b : Bank) : (s.setBank k b).summit = s.summit := rfl
@[simp] theorem State.setBank_depot (s : State) (k : Nat) (b : Bank) : (s.setBank k b).depot = s.depot := rfl
@[simp] theorem State.setBank_strands (s : State) (k : Nat) (b : Bank) : (s.setBank k b).strands = s.strands := rfl
@[simp] theorem State.setBank_cache (s : State) (k : Nat) (b : Bank) : (s.setBank k b).cache = s.cache := rfl
@[simp] theorem State.setBank_coh (s : State) (k : Nat) (b : Bank) : (s.setBank k b).coh = s.coh := rfl
@[simp] theorem State.setBank_link (s : State) (k : Nat) (b : Bank) : (s.setBank k b).link = s.link := rfl
@[simp] theorem State.setBank_host (s : State) (k : Nat) (b : Bank) : (s.setBank k b).host = s.host := rfl
@[simp] theorem State.setBank_eng (s : State) (k : Nat) (b : Bank) : (s.setBank k b).eng = s.eng := rfl
@[simp] theorem State.setBank_dram (s : State) (k : Nat) (b : Bank) : (s.setBank k b).dram = s.dram := rfl
@[simp] theorem State.setBank_err (s : State) (k : Nat) (b : Bank) : (s.setBank k b).err = s.err := rfl
@[simp] theorem State.setBank_mgmt (s : State) (k : Nat) (b : Bank) : (s.setBank k b).mgmt = s.mgmt := rfl
@[simp] theorem State.setBank_power (s : State) (k : Nat) (b : Bank) : (s.setBank k b).power = s.power := rfl
@[simp] theorem State.setBank_out (s : State) (k : Nat) (b : Bank) : (s.setBank k b).out = s.out := rfl
@[simp] theorem State.setBank_pending (s : State) (k : Nat) (b : Bank) : (s.setBank k b).pending = s.pending := rfl

/-! ## State.setChan -/

@[simp] theorem State.setChan_now (s : State) (c : Nat) (x : Chan) : (s.setChan c x).now = s.now := rfl
@[simp] theorem State.setChan_freeCount (s : State) (c : Nat) (x : Chan) : (s.setChan c x).freeCount = s.freeCount := rfl
@[simp] theorem State.setChan_objs (s : State) (c : Nat) (x : Chan) : (s.setChan c x).objs = s.objs := rfl
@[simp] theorem State.setChan_mem (s : State) (c : Nat) (x : Chan) : (s.setChan c x).mem = s.mem := rfl
@[simp] theorem State.setChan_sys (s : State) (c : Nat) (x : Chan) : (s.setChan c x).sys = s.sys := rfl
@[simp] theorem State.setChan_flash (s : State) (c : Nat) (x : Chan) : (s.setChan c x).flash = s.flash := rfl
@[simp] theorem State.setChan_pitch (s : State) (c : Nat) (x : Chan) : (s.setChan c x).pitch = s.pitch := rfl
@[simp] theorem State.setChan_routes (s : State) (c : Nat) (x : Chan) : (s.setChan c x).routes = s.routes := rfl
@[simp] theorem State.setChan_sched (s : State) (c : Nat) (x : Chan) : (s.setChan c x).sched = s.sched := rfl
@[simp] theorem State.setChan_scn (s : State) (c : Nat) (x : Chan) : (s.setChan c x).scn = s.scn := rfl
@[simp] theorem State.setChan_cairn (s : State) (c : Nat) (x : Chan) : (s.setChan c x).cairn = s.cairn := rfl
@[simp] theorem State.setChan_summit (s : State) (c : Nat) (x : Chan) : (s.setChan c x).summit = s.summit := rfl
@[simp] theorem State.setChan_depot (s : State) (c : Nat) (x : Chan) : (s.setChan c x).depot = s.depot := rfl
@[simp] theorem State.setChan_strands (s : State) (c : Nat) (x : Chan) : (s.setChan c x).strands = s.strands := rfl
@[simp] theorem State.setChan_cache (s : State) (c : Nat) (x : Chan) : (s.setChan c x).cache = s.cache := rfl
@[simp] theorem State.setChan_coh (s : State) (c : Nat) (x : Chan) : (s.setChan c x).coh = s.coh := rfl
@[simp] theorem State.setChan_link (s : State) (c : Nat) (x : Chan) : (s.setChan c x).link = s.link := rfl
@[simp] theorem State.setChan_host (s : State) (c : Nat) (x : Chan) : (s.setChan c x).host = s.host := rfl
@[simp] theorem State.setChan_dram (s : State) (c : Nat) (x : Chan) : (s.setChan c x).dram = s.dram := rfl
@[simp] theorem State.setChan_err (s : State) (c : Nat) (x : Chan) : (s.setChan c x).err = s.err := rfl
@[simp] theorem State.setChan_mgmt (s : State) (c : Nat) (x : Chan) : (s.setChan c x).mgmt = s.mgmt := rfl
@[simp] theorem State.setChan_power (s : State) (c : Nat) (x : Chan) : (s.setChan c x).power = s.power := rfl
@[simp] theorem State.setChan_out (s : State) (c : Nat) (x : Chan) : (s.setChan c x).out = s.out := rfl
@[simp] theorem State.setChan_pending (s : State) (c : Nat) (x : Chan) : (s.setChan c x).pending = s.pending := rfl

/-! ## State.putCtx -/

@[simp] theorem State.putCtx_now (s : State) (n : Nat) (c : DigestCtx) : (s.putCtx n c).now = s.now := rfl
@[simp] theorem State.putCtx_freeCount (s : State) (n : Nat) (c : DigestCtx) : (s.putCtx n c).freeCount = s.freeCount := rfl
@[simp] theorem State.putCtx_objs (s : State) (n : Nat) (c : DigestCtx) : (s.putCtx n c).objs = s.objs := rfl
@[simp] theorem State.putCtx_mem (s : State) (n : Nat) (c : DigestCtx) : (s.putCtx n c).mem = s.mem := rfl
@[simp] theorem State.putCtx_sys (s : State) (n : Nat) (c : DigestCtx) : (s.putCtx n c).sys = s.sys := rfl
@[simp] theorem State.putCtx_flash (s : State) (n : Nat) (c : DigestCtx) : (s.putCtx n c).flash = s.flash := rfl
@[simp] theorem State.putCtx_pitch (s : State) (n : Nat) (c : DigestCtx) : (s.putCtx n c).pitch = s.pitch := rfl
@[simp] theorem State.putCtx_routes (s : State) (n : Nat) (c : DigestCtx) : (s.putCtx n c).routes = s.routes := rfl
@[simp] theorem State.putCtx_sched (s : State) (n : Nat) (c : DigestCtx) : (s.putCtx n c).sched = s.sched := rfl
@[simp] theorem State.putCtx_scn (s : State) (n : Nat) (c : DigestCtx) : (s.putCtx n c).scn = s.scn := rfl
@[simp] theorem State.putCtx_cairn (s : State) (n : Nat) (c : DigestCtx) : (s.putCtx n c).cairn = s.cairn := rfl
@[simp] theorem State.putCtx_summit (s : State) (n : Nat) (c : DigestCtx) : (s.putCtx n c).summit = s.summit := rfl
@[simp] theorem State.putCtx_depot (s : State) (n : Nat) (c : DigestCtx) : (s.putCtx n c).depot = s.depot := rfl
@[simp] theorem State.putCtx_strands (s : State) (n : Nat) (c : DigestCtx) : (s.putCtx n c).strands = s.strands := rfl
@[simp] theorem State.putCtx_cache (s : State) (n : Nat) (c : DigestCtx) : (s.putCtx n c).cache = s.cache := rfl
@[simp] theorem State.putCtx_coh (s : State) (n : Nat) (c : DigestCtx) : (s.putCtx n c).coh = s.coh := rfl
@[simp] theorem State.putCtx_link (s : State) (n : Nat) (c : DigestCtx) : (s.putCtx n c).link = s.link := rfl
@[simp] theorem State.putCtx_host (s : State) (n : Nat) (c : DigestCtx) : (s.putCtx n c).host = s.host := rfl
@[simp] theorem State.putCtx_dram (s : State) (n : Nat) (c : DigestCtx) : (s.putCtx n c).dram = s.dram := rfl
@[simp] theorem State.putCtx_err (s : State) (n : Nat) (c : DigestCtx) : (s.putCtx n c).err = s.err := rfl
@[simp] theorem State.putCtx_mgmt (s : State) (n : Nat) (c : DigestCtx) : (s.putCtx n c).mgmt = s.mgmt := rfl
@[simp] theorem State.putCtx_power (s : State) (n : Nat) (c : DigestCtx) : (s.putCtx n c).power = s.power := rfl
@[simp] theorem State.putCtx_out (s : State) (n : Nat) (c : DigestCtx) : (s.putCtx n c).out = s.out := rfl
@[simp] theorem State.putCtx_pending (s : State) (n : Nat) (c : DigestCtx) : (s.putCtx n c).pending = s.pending := rfl

/-! ## State.putObj -/

@[simp] theorem State.putObj_now (s : State) (o : Nat) (d : DObj) : (s.putObj o d).now = s.now := rfl
@[simp] theorem State.putObj_freeCount (s : State) (o : Nat) (d : DObj) : (s.putObj o d).freeCount = s.freeCount := rfl
@[simp] theorem State.putObj_objs (s : State) (o : Nat) (d : DObj) : (s.putObj o d).objs = s.objs := rfl
@[simp] theorem State.putObj_mem (s : State) (o : Nat) (d : DObj) : (s.putObj o d).mem = s.mem := rfl
@[simp] theorem State.putObj_sys (s : State) (o : Nat) (d : DObj) : (s.putObj o d).sys = s.sys := rfl
@[simp] theorem State.putObj_flash (s : State) (o : Nat) (d : DObj) : (s.putObj o d).flash = s.flash := rfl
@[simp] theorem State.putObj_pitch (s : State) (o : Nat) (d : DObj) : (s.putObj o d).pitch = s.pitch := rfl
@[simp] theorem State.putObj_routes (s : State) (o : Nat) (d : DObj) : (s.putObj o d).routes = s.routes := rfl
@[simp] theorem State.putObj_sched (s : State) (o : Nat) (d : DObj) : (s.putObj o d).sched = s.sched := rfl
@[simp] theorem State.putObj_scn (s : State) (o : Nat) (d : DObj) : (s.putObj o d).scn = s.scn := rfl
@[simp] theorem State.putObj_cairn (s : State) (o : Nat) (d : DObj) : (s.putObj o d).cairn = s.cairn := rfl
@[simp] theorem State.putObj_summit (s : State) (o : Nat) (d : DObj) : (s.putObj o d).summit = s.summit := rfl
@[simp] theorem State.putObj_strands (s : State) (o : Nat) (d : DObj) : (s.putObj o d).strands = s.strands := rfl
@[simp] theorem State.putObj_cache (s : State) (o : Nat) (d : DObj) : (s.putObj o d).cache = s.cache := rfl
@[simp] theorem State.putObj_coh (s : State) (o : Nat) (d : DObj) : (s.putObj o d).coh = s.coh := rfl
@[simp] theorem State.putObj_link (s : State) (o : Nat) (d : DObj) : (s.putObj o d).link = s.link := rfl
@[simp] theorem State.putObj_host (s : State) (o : Nat) (d : DObj) : (s.putObj o d).host = s.host := rfl
@[simp] theorem State.putObj_eng (s : State) (o : Nat) (d : DObj) : (s.putObj o d).eng = s.eng := rfl
@[simp] theorem State.putObj_dram (s : State) (o : Nat) (d : DObj) : (s.putObj o d).dram = s.dram := rfl
@[simp] theorem State.putObj_err (s : State) (o : Nat) (d : DObj) : (s.putObj o d).err = s.err := rfl
@[simp] theorem State.putObj_mgmt (s : State) (o : Nat) (d : DObj) : (s.putObj o d).mgmt = s.mgmt := rfl
@[simp] theorem State.putObj_power (s : State) (o : Nat) (d : DObj) : (s.putObj o d).power = s.power := rfl
@[simp] theorem State.putObj_out (s : State) (o : Nat) (d : DObj) : (s.putObj o d).out = s.out := rfl
@[simp] theorem State.putObj_pending (s : State) (o : Nat) (d : DObj) : (s.putObj o d).pending = s.pending := rfl

/-! ## State.setDir -/

@[simp] theorem State.setDir_now (s : State) (l : Nat) (e : DirEnt) : (s.setDir l e).now = s.now := rfl
@[simp] theorem State.setDir_freeCount (s : State) (l : Nat) (e : DirEnt) : (s.setDir l e).freeCount = s.freeCount := rfl
@[simp] theorem State.setDir_objs (s : State) (l : Nat) (e : DirEnt) : (s.setDir l e).objs = s.objs := rfl
@[simp] theorem State.setDir_mem (s : State) (l : Nat) (e : DirEnt) : (s.setDir l e).mem = s.mem := rfl
@[simp] theorem State.setDir_sys (s : State) (l : Nat) (e : DirEnt) : (s.setDir l e).sys = s.sys := rfl
@[simp] theorem State.setDir_flash (s : State) (l : Nat) (e : DirEnt) : (s.setDir l e).flash = s.flash := rfl
@[simp] theorem State.setDir_pitch (s : State) (l : Nat) (e : DirEnt) : (s.setDir l e).pitch = s.pitch := rfl
@[simp] theorem State.setDir_routes (s : State) (l : Nat) (e : DirEnt) : (s.setDir l e).routes = s.routes := rfl
@[simp] theorem State.setDir_sched (s : State) (l : Nat) (e : DirEnt) : (s.setDir l e).sched = s.sched := rfl
@[simp] theorem State.setDir_scn (s : State) (l : Nat) (e : DirEnt) : (s.setDir l e).scn = s.scn := rfl
@[simp] theorem State.setDir_cairn (s : State) (l : Nat) (e : DirEnt) : (s.setDir l e).cairn = s.cairn := rfl
@[simp] theorem State.setDir_summit (s : State) (l : Nat) (e : DirEnt) : (s.setDir l e).summit = s.summit := rfl
@[simp] theorem State.setDir_depot (s : State) (l : Nat) (e : DirEnt) : (s.setDir l e).depot = s.depot := rfl
@[simp] theorem State.setDir_strands (s : State) (l : Nat) (e : DirEnt) : (s.setDir l e).strands = s.strands := rfl
@[simp] theorem State.setDir_cache (s : State) (l : Nat) (e : DirEnt) : (s.setDir l e).cache = s.cache := rfl
@[simp] theorem State.setDir_link (s : State) (l : Nat) (e : DirEnt) : (s.setDir l e).link = s.link := rfl
@[simp] theorem State.setDir_host (s : State) (l : Nat) (e : DirEnt) : (s.setDir l e).host = s.host := rfl
@[simp] theorem State.setDir_eng (s : State) (l : Nat) (e : DirEnt) : (s.setDir l e).eng = s.eng := rfl
@[simp] theorem State.setDir_dram (s : State) (l : Nat) (e : DirEnt) : (s.setDir l e).dram = s.dram := rfl
@[simp] theorem State.setDir_err (s : State) (l : Nat) (e : DirEnt) : (s.setDir l e).err = s.err := rfl
@[simp] theorem State.setDir_mgmt (s : State) (l : Nat) (e : DirEnt) : (s.setDir l e).mgmt = s.mgmt := rfl
@[simp] theorem State.setDir_power (s : State) (l : Nat) (e : DirEnt) : (s.setDir l e).power = s.power := rfl
@[simp] theorem State.setDir_out (s : State) (l : Nat) (e : DirEnt) : (s.setDir l e).out = s.out := rfl
@[simp] theorem State.setDir_pending (s : State) (l : Nat) (e : DirEnt) : (s.setDir l e).pending = s.pending := rfl

/-! ## State.setPort -/

@[simp] theorem State.setPort_now (s : State) (p : Nat) (x : PortSt) : (s.setPort p x).now = s.now := rfl
@[simp] theorem State.setPort_freeCount (s : State) (p : Nat) (x : PortSt) : (s.setPort p x).freeCount = s.freeCount := rfl
@[simp] theorem State.setPort_objs (s : State) (p : Nat) (x : PortSt) : (s.setPort p x).objs = s.objs := rfl
@[simp] theorem State.setPort_mem (s : State) (p : Nat) (x : PortSt) : (s.setPort p x).mem = s.mem := rfl
@[simp] theorem State.setPort_sys (s : State) (p : Nat) (x : PortSt) : (s.setPort p x).sys = s.sys := rfl
@[simp] theorem State.setPort_flash (s : State) (p : Nat) (x : PortSt) : (s.setPort p x).flash = s.flash := rfl
@[simp] theorem State.setPort_pitch (s : State) (p : Nat) (x : PortSt) : (s.setPort p x).pitch = s.pitch := rfl
@[simp] theorem State.setPort_routes (s : State) (p : Nat) (x : PortSt) : (s.setPort p x).routes = s.routes := rfl
@[simp] theorem State.setPort_sched (s : State) (p : Nat) (x : PortSt) : (s.setPort p x).sched = s.sched := rfl
@[simp] theorem State.setPort_scn (s : State) (p : Nat) (x : PortSt) : (s.setPort p x).scn = s.scn := rfl
@[simp] theorem State.setPort_cairn (s : State) (p : Nat) (x : PortSt) : (s.setPort p x).cairn = s.cairn := rfl
@[simp] theorem State.setPort_summit (s : State) (p : Nat) (x : PortSt) : (s.setPort p x).summit = s.summit := rfl
@[simp] theorem State.setPort_depot (s : State) (p : Nat) (x : PortSt) : (s.setPort p x).depot = s.depot := rfl
@[simp] theorem State.setPort_strands (s : State) (p : Nat) (x : PortSt) : (s.setPort p x).strands = s.strands := rfl
@[simp] theorem State.setPort_cache (s : State) (p : Nat) (x : PortSt) : (s.setPort p x).cache = s.cache := rfl
@[simp] theorem State.setPort_coh (s : State) (p : Nat) (x : PortSt) : (s.setPort p x).coh = s.coh := rfl
@[simp] theorem State.setPort_host (s : State) (p : Nat) (x : PortSt) : (s.setPort p x).host = s.host := rfl
@[simp] theorem State.setPort_eng (s : State) (p : Nat) (x : PortSt) : (s.setPort p x).eng = s.eng := rfl
@[simp] theorem State.setPort_dram (s : State) (p : Nat) (x : PortSt) : (s.setPort p x).dram = s.dram := rfl
@[simp] theorem State.setPort_err (s : State) (p : Nat) (x : PortSt) : (s.setPort p x).err = s.err := rfl
@[simp] theorem State.setPort_mgmt (s : State) (p : Nat) (x : PortSt) : (s.setPort p x).mgmt = s.mgmt := rfl
@[simp] theorem State.setPort_power (s : State) (p : Nat) (x : PortSt) : (s.setPort p x).power = s.power := rfl
@[simp] theorem State.setPort_out (s : State) (p : Nat) (x : PortSt) : (s.setPort p x).out = s.out := rfl
@[simp] theorem State.setPort_pending (s : State) (p : Nat) (x : PortSt) : (s.setPort p x).pending = s.pending := rfl

/-! ## State.mapPort -/

@[simp] theorem State.mapPort_now (s : State) (p : Nat) (f : PortSt → PortSt) : (s.mapPort p f).now = s.now := rfl
@[simp] theorem State.mapPort_freeCount (s : State) (p : Nat) (f : PortSt → PortSt) : (s.mapPort p f).freeCount = s.freeCount := rfl
@[simp] theorem State.mapPort_objs (s : State) (p : Nat) (f : PortSt → PortSt) : (s.mapPort p f).objs = s.objs := rfl
@[simp] theorem State.mapPort_mem (s : State) (p : Nat) (f : PortSt → PortSt) : (s.mapPort p f).mem = s.mem := rfl
@[simp] theorem State.mapPort_sys (s : State) (p : Nat) (f : PortSt → PortSt) : (s.mapPort p f).sys = s.sys := rfl
@[simp] theorem State.mapPort_flash (s : State) (p : Nat) (f : PortSt → PortSt) : (s.mapPort p f).flash = s.flash := rfl
@[simp] theorem State.mapPort_pitch (s : State) (p : Nat) (f : PortSt → PortSt) : (s.mapPort p f).pitch = s.pitch := rfl
@[simp] theorem State.mapPort_routes (s : State) (p : Nat) (f : PortSt → PortSt) : (s.mapPort p f).routes = s.routes := rfl
@[simp] theorem State.mapPort_sched (s : State) (p : Nat) (f : PortSt → PortSt) : (s.mapPort p f).sched = s.sched := rfl
@[simp] theorem State.mapPort_scn (s : State) (p : Nat) (f : PortSt → PortSt) : (s.mapPort p f).scn = s.scn := rfl
@[simp] theorem State.mapPort_cairn (s : State) (p : Nat) (f : PortSt → PortSt) : (s.mapPort p f).cairn = s.cairn := rfl
@[simp] theorem State.mapPort_summit (s : State) (p : Nat) (f : PortSt → PortSt) : (s.mapPort p f).summit = s.summit := rfl
@[simp] theorem State.mapPort_depot (s : State) (p : Nat) (f : PortSt → PortSt) : (s.mapPort p f).depot = s.depot := rfl
@[simp] theorem State.mapPort_strands (s : State) (p : Nat) (f : PortSt → PortSt) : (s.mapPort p f).strands = s.strands := rfl
@[simp] theorem State.mapPort_cache (s : State) (p : Nat) (f : PortSt → PortSt) : (s.mapPort p f).cache = s.cache := rfl
@[simp] theorem State.mapPort_coh (s : State) (p : Nat) (f : PortSt → PortSt) : (s.mapPort p f).coh = s.coh := rfl
@[simp] theorem State.mapPort_link (s : State) (p : Nat) (f : PortSt → PortSt) : (s.mapPort p f).link = (s.setPort p (f (s.port p))).link := rfl
@[simp] theorem State.mapPort_host (s : State) (p : Nat) (f : PortSt → PortSt) : (s.mapPort p f).host = s.host := rfl
@[simp] theorem State.mapPort_eng (s : State) (p : Nat) (f : PortSt → PortSt) : (s.mapPort p f).eng = s.eng := rfl
@[simp] theorem State.mapPort_dram (s : State) (p : Nat) (f : PortSt → PortSt) : (s.mapPort p f).dram = s.dram := rfl
@[simp] theorem State.mapPort_err (s : State) (p : Nat) (f : PortSt → PortSt) : (s.mapPort p f).err = s.err := rfl
@[simp] theorem State.mapPort_mgmt (s : State) (p : Nat) (f : PortSt → PortSt) : (s.mapPort p f).mgmt = s.mgmt := rfl
@[simp] theorem State.mapPort_power (s : State) (p : Nat) (f : PortSt → PortSt) : (s.mapPort p f).power = s.power := rfl
@[simp] theorem State.mapPort_out (s : State) (p : Nat) (f : PortSt → PortSt) : (s.mapPort p f).out = s.out := rfl
@[simp] theorem State.mapPort_pending (s : State) (p : Nat) (f : PortSt → PortSt) : (s.mapPort p f).pending = s.pending := rfl

/-! ## State.setChan16 -/

@[simp] theorem State.setChan16_now (s : State) (f : Nat → ChState) : (s.setChan16 f).now = s.now := rfl
@[simp] theorem State.setChan16_freeCount (s : State) (f : Nat → ChState) : (s.setChan16 f).freeCount = s.freeCount := rfl
@[simp] theorem State.setChan16_objs (s : State) (f : Nat → ChState) : (s.setChan16 f).objs = s.objs := rfl
@[simp] theorem State.setChan16_mem (s : State) (f : Nat → ChState) : (s.setChan16 f).mem = s.mem := rfl
@[simp] theorem State.setChan16_sys (s : State) (f : Nat → ChState) : (s.setChan16 f).sys = s.sys := rfl
@[simp] theorem State.setChan16_flash (s : State) (f : Nat → ChState) : (s.setChan16 f).flash = s.flash := rfl
@[simp] theorem State.setChan16_pitch (s : State) (f : Nat → ChState) : (s.setChan16 f).pitch = s.pitch := rfl
@[simp] theorem State.setChan16_routes (s : State) (f : Nat → ChState) : (s.setChan16 f).routes = s.routes := rfl
@[simp] theorem State.setChan16_sched (s : State) (f : Nat → ChState) : (s.setChan16 f).sched = s.sched := rfl
@[simp] theorem State.setChan16_scn (s : State) (f : Nat → ChState) : (s.setChan16 f).scn = s.scn := rfl
@[simp] theorem State.setChan16_cairn (s : State) (f : Nat → ChState) : (s.setChan16 f).cairn = s.cairn := rfl
@[simp] theorem State.setChan16_summit (s : State) (f : Nat → ChState) : (s.setChan16 f).summit = s.summit := rfl
@[simp] theorem State.setChan16_depot (s : State) (f : Nat → ChState) : (s.setChan16 f).depot = s.depot := rfl
@[simp] theorem State.setChan16_strands (s : State) (f : Nat → ChState) : (s.setChan16 f).strands = s.strands := rfl
@[simp] theorem State.setChan16_cache (s : State) (f : Nat → ChState) : (s.setChan16 f).cache = s.cache := rfl
@[simp] theorem State.setChan16_coh (s : State) (f : Nat → ChState) : (s.setChan16 f).coh = s.coh := rfl
@[simp] theorem State.setChan16_link (s : State) (f : Nat → ChState) : (s.setChan16 f).link = s.link := rfl
@[simp] theorem State.setChan16_host (s : State) (f : Nat → ChState) : (s.setChan16 f).host = s.host := rfl
@[simp] theorem State.setChan16_eng (s : State) (f : Nat → ChState) : (s.setChan16 f).eng = s.eng := rfl
@[simp] theorem State.setChan16_err (s : State) (f : Nat → ChState) : (s.setChan16 f).err = s.err := rfl
@[simp] theorem State.setChan16_mgmt (s : State) (f : Nat → ChState) : (s.setChan16 f).mgmt = s.mgmt := rfl
@[simp] theorem State.setChan16_power (s : State) (f : Nat → ChState) : (s.setChan16 f).power = s.power := rfl
@[simp] theorem State.setChan16_out (s : State) (f : Nat → ChState) : (s.setChan16 f).out = s.out := rfl
@[simp] theorem State.setChan16_pending (s : State) (f : Nat → ChState) : (s.setChan16 f).pending = s.pending := rfl

/-! ## State.setSpdm -/

@[simp] theorem State.setSpdm_now (s : State) (f : Nat) (x : SpdmSt) : (s.setSpdm f x).now = s.now := rfl
@[simp] theorem State.setSpdm_freeCount (s : State) (f : Nat) (x : SpdmSt) : (s.setSpdm f x).freeCount = s.freeCount := rfl
@[simp] theorem State.setSpdm_objs (s : State) (f : Nat) (x : SpdmSt) : (s.setSpdm f x).objs = s.objs := rfl
@[simp] theorem State.setSpdm_mem (s : State) (f : Nat) (x : SpdmSt) : (s.setSpdm f x).mem = s.mem := rfl
@[simp] theorem State.setSpdm_sys (s : State) (f : Nat) (x : SpdmSt) : (s.setSpdm f x).sys = s.sys := rfl
@[simp] theorem State.setSpdm_flash (s : State) (f : Nat) (x : SpdmSt) : (s.setSpdm f x).flash = s.flash := rfl
@[simp] theorem State.setSpdm_pitch (s : State) (f : Nat) (x : SpdmSt) : (s.setSpdm f x).pitch = s.pitch := rfl
@[simp] theorem State.setSpdm_routes (s : State) (f : Nat) (x : SpdmSt) : (s.setSpdm f x).routes = s.routes := rfl
@[simp] theorem State.setSpdm_sched (s : State) (f : Nat) (x : SpdmSt) : (s.setSpdm f x).sched = s.sched := rfl
@[simp] theorem State.setSpdm_scn (s : State) (f : Nat) (x : SpdmSt) : (s.setSpdm f x).scn = s.scn := rfl
@[simp] theorem State.setSpdm_cairn (s : State) (f : Nat) (x : SpdmSt) : (s.setSpdm f x).cairn = s.cairn := rfl
@[simp] theorem State.setSpdm_summit (s : State) (f : Nat) (x : SpdmSt) : (s.setSpdm f x).summit = s.summit := rfl
@[simp] theorem State.setSpdm_depot (s : State) (f : Nat) (x : SpdmSt) : (s.setSpdm f x).depot = s.depot := rfl
@[simp] theorem State.setSpdm_strands (s : State) (f : Nat) (x : SpdmSt) : (s.setSpdm f x).strands = s.strands := rfl
@[simp] theorem State.setSpdm_cache (s : State) (f : Nat) (x : SpdmSt) : (s.setSpdm f x).cache = s.cache := rfl
@[simp] theorem State.setSpdm_coh (s : State) (f : Nat) (x : SpdmSt) : (s.setSpdm f x).coh = s.coh := rfl
@[simp] theorem State.setSpdm_link (s : State) (f : Nat) (x : SpdmSt) : (s.setSpdm f x).link = s.link := rfl
@[simp] theorem State.setSpdm_host (s : State) (f : Nat) (x : SpdmSt) : (s.setSpdm f x).host = s.host := rfl
@[simp] theorem State.setSpdm_eng (s : State) (f : Nat) (x : SpdmSt) : (s.setSpdm f x).eng = s.eng := rfl
@[simp] theorem State.setSpdm_dram (s : State) (f : Nat) (x : SpdmSt) : (s.setSpdm f x).dram = s.dram := rfl
@[simp] theorem State.setSpdm_err (s : State) (f : Nat) (x : SpdmSt) : (s.setSpdm f x).err = s.err := rfl
@[simp] theorem State.setSpdm_power (s : State) (f : Nat) (x : SpdmSt) : (s.setSpdm f x).power = s.power := rfl
@[simp] theorem State.setSpdm_out (s : State) (f : Nat) (x : SpdmSt) : (s.setSpdm f x).out = s.out := rfl
@[simp] theorem State.setSpdm_pending (s : State) (f : Nat) (x : SpdmSt) : (s.setSpdm f x).pending = s.pending := rfl

/-! ## State.updSession -/

@[simp] theorem State.updSession_now (s : State) (i : Nat) (f : Session → Session) : (s.updSession i f).now = s.now := rfl
@[simp] theorem State.updSession_freeCount (s : State) (i : Nat) (f : Session → Session) : (s.updSession i f).freeCount = s.freeCount := rfl
@[simp] theorem State.updSession_objs (s : State) (i : Nat) (f : Session → Session) : (s.updSession i f).objs = s.objs := rfl
@[simp] theorem State.updSession_mem (s : State) (i : Nat) (f : Session → Session) : (s.updSession i f).mem = s.mem := rfl
@[simp] theorem State.updSession_sys (s : State) (i : Nat) (f : Session → Session) : (s.updSession i f).sys = s.sys := rfl
@[simp] theorem State.updSession_flash (s : State) (i : Nat) (f : Session → Session) : (s.updSession i f).flash = s.flash := rfl
@[simp] theorem State.updSession_pitch (s : State) (i : Nat) (f : Session → Session) : (s.updSession i f).pitch = s.pitch := rfl
@[simp] theorem State.updSession_routes (s : State) (i : Nat) (f : Session → Session) : (s.updSession i f).routes = s.routes := rfl
@[simp] theorem State.updSession_sched (s : State) (i : Nat) (f : Session → Session) : (s.updSession i f).sched = s.sched := rfl
@[simp] theorem State.updSession_scn (s : State) (i : Nat) (f : Session → Session) : (s.updSession i f).scn = s.scn := rfl
@[simp] theorem State.updSession_cairn (s : State) (i : Nat) (f : Session → Session) : (s.updSession i f).cairn = s.cairn := rfl
@[simp] theorem State.updSession_summit (s : State) (i : Nat) (f : Session → Session) : (s.updSession i f).summit = s.summit := rfl
@[simp] theorem State.updSession_depot (s : State) (i : Nat) (f : Session → Session) : (s.updSession i f).depot = s.depot := rfl
@[simp] theorem State.updSession_strands (s : State) (i : Nat) (f : Session → Session) : (s.updSession i f).strands = s.strands := rfl
@[simp] theorem State.updSession_cache (s : State) (i : Nat) (f : Session → Session) : (s.updSession i f).cache = s.cache := rfl
@[simp] theorem State.updSession_coh (s : State) (i : Nat) (f : Session → Session) : (s.updSession i f).coh = s.coh := rfl
@[simp] theorem State.updSession_link (s : State) (i : Nat) (f : Session → Session) : (s.updSession i f).link = s.link := rfl
@[simp] theorem State.updSession_host (s : State) (i : Nat) (f : Session → Session) : (s.updSession i f).host = s.host := rfl
@[simp] theorem State.updSession_eng (s : State) (i : Nat) (f : Session → Session) : (s.updSession i f).eng = s.eng := rfl
@[simp] theorem State.updSession_dram (s : State) (i : Nat) (f : Session → Session) : (s.updSession i f).dram = s.dram := rfl
@[simp] theorem State.updSession_err (s : State) (i : Nat) (f : Session → Session) : (s.updSession i f).err = s.err := rfl
@[simp] theorem State.updSession_power (s : State) (i : Nat) (f : Session → Session) : (s.updSession i f).power = s.power := rfl
@[simp] theorem State.updSession_out (s : State) (i : Nat) (f : Session → Session) : (s.updSession i f).out = s.out := rfl
@[simp] theorem State.updSession_pending (s : State) (i : Nat) (f : Session → Session) : (s.updSession i f).pending = s.pending := rfl

/-! ## State.dropSession -/

@[simp] theorem State.dropSession_now (s : State) (i : Nat) : (s.dropSession i).now = s.now := rfl
@[simp] theorem State.dropSession_freeCount (s : State) (i : Nat) : (s.dropSession i).freeCount = s.freeCount := rfl
@[simp] theorem State.dropSession_objs (s : State) (i : Nat) : (s.dropSession i).objs = s.objs := rfl
@[simp] theorem State.dropSession_mem (s : State) (i : Nat) : (s.dropSession i).mem = s.mem := rfl
@[simp] theorem State.dropSession_sys (s : State) (i : Nat) : (s.dropSession i).sys = s.sys := rfl
@[simp] theorem State.dropSession_flash (s : State) (i : Nat) : (s.dropSession i).flash = s.flash := rfl
@[simp] theorem State.dropSession_pitch (s : State) (i : Nat) : (s.dropSession i).pitch = s.pitch := rfl
@[simp] theorem State.dropSession_routes (s : State) (i : Nat) : (s.dropSession i).routes = s.routes := rfl
@[simp] theorem State.dropSession_sched (s : State) (i : Nat) : (s.dropSession i).sched = s.sched := rfl
@[simp] theorem State.dropSession_scn (s : State) (i : Nat) : (s.dropSession i).scn = s.scn := rfl
@[simp] theorem State.dropSession_cairn (s : State) (i : Nat) : (s.dropSession i).cairn = s.cairn := rfl
@[simp] theorem State.dropSession_summit (s : State) (i : Nat) : (s.dropSession i).summit = s.summit := rfl
@[simp] theorem State.dropSession_depot (s : State) (i : Nat) : (s.dropSession i).depot = s.depot := rfl
@[simp] theorem State.dropSession_strands (s : State) (i : Nat) : (s.dropSession i).strands = s.strands := rfl
@[simp] theorem State.dropSession_cache (s : State) (i : Nat) : (s.dropSession i).cache = s.cache := rfl
@[simp] theorem State.dropSession_coh (s : State) (i : Nat) : (s.dropSession i).coh = s.coh := rfl
@[simp] theorem State.dropSession_link (s : State) (i : Nat) : (s.dropSession i).link = s.link := rfl
@[simp] theorem State.dropSession_host (s : State) (i : Nat) : (s.dropSession i).host = s.host := rfl
@[simp] theorem State.dropSession_eng (s : State) (i : Nat) : (s.dropSession i).eng = s.eng := rfl
@[simp] theorem State.dropSession_dram (s : State) (i : Nat) : (s.dropSession i).dram = s.dram := rfl
@[simp] theorem State.dropSession_err (s : State) (i : Nat) : (s.dropSession i).err = s.err := rfl
@[simp] theorem State.dropSession_power (s : State) (i : Nat) : (s.dropSession i).power = s.power := rfl
@[simp] theorem State.dropSession_out (s : State) (i : Nat) : (s.dropSession i).out = s.out := rfl
@[simp] theorem State.dropSession_pending (s : State) (i : Nat) : (s.dropSession i).pending = s.pending := rfl

/-! ## Reads after updates -/

@[simp] theorem State.emit_fn (s : State) (e : OutEv) (t : Nat) : (s.emit e).fn t = s.fn t := rfl
@[simp] theorem State.oput_fn (s : State) (i m : Nat) (v : ObjVal) (t : Nat) : (s.oput i m v).fn t = s.fn t := rfl
@[simp] theorem State.setFn_fn (s : State) (t : Nat) (f : FnSt) : (s.setFn t f).fn t = f := by
  simp [State.fn, State.setFn, SMap.find_put_same]
theorem State.setFn_fn_other (s : State) {t u : Nat} (f : FnSt) (h : u ≠ t) : (s.setFn t f).fn u = s.fn u := by
  simp [State.fn, State.setFn, SMap.find_put_other _ _ h]
@[simp] theorem State.mapFn_fn (s : State) (t : Nat) (g : FnSt → FnSt) : (s.mapFn t g).fn t = g (s.fn t) := s.setFn_fn t _
theorem State.mapFn_fn_other (s : State) {t u : Nat} (g : FnSt → FnSt) (h : u ≠ t) : (s.mapFn t g).fn u = s.fn u :=
  s.setFn_fn_other _ h
@[simp] theorem State.setSpdm_at (s : State) (f : Nat) (x : SpdmSt) : (s.setSpdm f x).spdmAt f = x := by
  simp [State.spdmAt, State.setSpdm, SMap.find_put_same]
theorem State.setSpdm_at_other (s : State) {f g : Nat} (x : SpdmSt) (h : g ≠ f) : (s.setSpdm f x).spdmAt g = s.spdmAt g := by
  simp [State.spdmAt, State.setSpdm, SMap.find_put_other _ _ h]

end Sys2Proof.Machine
end

