-- ==== Sys2Proof/Laws/Strand.lean ====
section
/-! SUPPORT. What a strand's instruction does when it retires, and when it traps: the spec of the one operation that runs
them all. -/
namespace Sys2Proof.Machine
open Sys2Proof

/-! ## What code sees of a strand -/

@[simp] theorem StrandSt.plain_idem (t : StrandSt) : t.plain.plain = t.plain := rfl
theorem StrandSt.rg_plain (t : StrandSt) (i : Fin 32) : t.plain.rg i = t.rg i := rfl
theorem StrandSt.rf_plain (t : StrandSt) (b : Bool) (i : Fin 32) : t.plain.rf b i = t.rf b i := rfl
theorem StrandSt.of_plain {α : Type} {t t' : StrandSt} (f : StrandSt → α) (hf : ∀ x, f x.plain = f x)
    (h : t.plain = t'.plain) : f t = f t' := by rw [← hf t, h, hf t']
theorem StrandSt.event_plain (t : StrandSt) (e n : Nat) : (t.event e n).plain = t.plain := rfl
theorem StrandSt.event_instret (t : StrandSt) (e n : Nat) : (t.event e n).instret = t.instret := rfl

theorem StrandSt.wg_plain (t : StrandSt) (i : Fin 32) (x : Word) : (t.wg i x).plain = t.plain.wg i x := by
  unfold StrandSt.wg
  split <;> rfl

theorem StrandSt.wg_instret (t : StrandSt) (i : Fin 32) (x : Word) : (t.wg i x).instret = t.instret := by
  unfold StrandSt.wg
  split <;> rfl

theorem StrandSt.wp_plain (t : StrandSt) (i : Fin 8) (x : Pred) : (t.wp i x).plain = t.plain.wp i x := by
  unfold StrandSt.wp
  split <;> rfl

theorem StrandSt.wp_instret (t : StrandSt) (i : Fin 8) (x : Pred) : (t.wp i x).instret = t.instret := by
  unfold StrandSt.wp
  split <;> rfl

theorem StrandSt.wf_plain (t : StrandSt) (b : Bool) (i : Fin 32) (x : Nat) : (t.wf b i x).plain = t.plain.wf b i x := rfl
theorem StrandSt.advance_plain (t : StrandSt) : t.advance.plain = t.plain.advance := rfl
theorem StrandSt.advance_instret (t : StrandSt) : t.advance.instret = t.instret := rfl
theorem StrandSt.goto_plain (t : StrandSt) (x : Word) : (t.goto x).plain = t.plain.goto x := rfl
theorem StrandSt.addFlags_plain (t : StrandSt) (x : Nat) : (t.addFlags x).plain = t.plain.addFlags x := rfl

theorem State.freeEvent_plain (s : State) (t : StrandSt) (e b : Nat) :
    (s.freeEvent t e b).1.plain = t.plain ∧ (s.freeEvent t e b).1.instret = t.instret := by
  unfold State.freeEvent
  split <;> exact ⟨rfl, rfl⟩

theorem State.itlbUse_plain (s : State) (t : StrandSt) (pc : Nat) :
    (s.itlbUse t pc).1.plain = t.plain ∧ (s.itlbUse t pc).1.instret = t.instret := by
  unfold State.itlbUse
  dsimp only
  split <;> exact ⟨rfl, rfl⟩

theorem foldl_fst_keeps {α : Type} (f : StrandSt × State → α → StrandSt × State) {P : StrandSt → Prop} (l : List α)
    (x : StrandSt × State) (hf : ∀ x a, P x.1 → P (f x a).1) (h : P x.1) : P (l.foldl f x).1 := by
  induction l generalizing x with
  | nil => exact h
  | cons a l ih => exact ih _ (hf _ _ h)

theorem State.dtlbUse_plain (s : State) (k : StrandTask) (t : StrandSt) (a n : Nat) :
    (s.dtlbUse k t a n).1.plain = t.plain ∧ (s.dtlbUse k t a n).1.instret = t.instret := by
  unfold State.dtlbUse
  refine foldl_fst_keeps (P := fun u => u.plain = t.plain ∧ u.instret = t.instret) _ _ _ (fun x p h => ?_) ⟨rfl, rfl⟩
  dsimp only
  split
  · exact h
  · exact h

theorem State.wrongFetch_plain (s : State) (st : StrandRef) (d : Stage) (t : StrandSt) (pc : Word) :
    (s.wrongFetch st d t pc).1.plain = t.plain ∧ (s.wrongFetch st d t pc).1.instret = t.instret := by
  unfold State.wrongFetch
  dsimp only
  repeat' split
  all_goals exact State.itlbUse_plain ..

theorem State.wrongPath_plain (s : State) (st : StrandRef) (k : StrandTask) (t : StrandSt) (a : Word) (b : Bool) :
    (s.wrongPath st k t a b).1.plain = t.plain ∧ (s.wrongPath st k t a b).1.instret = t.instret := by
  unfold State.wrongPath
  split
  · exact ⟨rfl, rfl⟩
  · dsimp only
    refine foldl_fst_keeps (P := fun u => u.plain = t.plain ∧ u.instret = t.instret) _ _ _ (fun x p h => ?_) ⟨rfl, rfl⟩
    exact ⟨(State.wrongFetch_plain ..).1.trans h.1, (State.wrongFetch_plain ..).2.trans h.2⟩

theorem State.fetchTouch_plain (s : State) (st : StrandRef) (k : StrandTask) (d : Stage) (t : StrandSt) :
    (s.fetchTouch st k d t).1.plain = t.plain ∧ (s.fetchTouch st k d t).1.instret = t.instret := by
  have h := s.itlbUse_plain t t.pc.toNat
  unfold State.fetchTouch
  dsimp only
  split
  · exact ⟨(State.freeEvent_plain ..).1.trans h.1, (State.freeEvent_plain ..).2.trans h.2⟩
  · dsimp only
    split <;> exact h

theorem StrandSt.stopped_of_plain {t t' : StrandSt} (h : t.plain = t'.plain) : t.stopped.plain = t'.stopped.plain := by
  have e : t.plain.stopped.plain = t'.plain.stopped.plain := by rw [h]
  exact e

theorem StrandSt.trapped_of_plain {t t' : StrandSt} (h : t.plain = t'.plain) (c : Nat) (v : Word) :
    (t.trapped c v).plain = (t'.trapped c v).plain := by
  have e : (t.plain.trapped c v).plain = (t'.plain.trapped c v).plain := by rw [h]
  exact e

theorem StrandSt.handles_of_plain {t t' : StrandSt} (h : t.plain = t'.plain) : t.handles = t'.handles :=
  StrandSt.of_plain StrandSt.handles (fun _ => rfl) h

/-! ## The stored strand -/

theorem State.strand_of_find {s : State} {r k : Nat} {t : StrandSt} (h : s.strands.find (strandKey r k) = some t) :
    s.strand r k = t := by
  unfold State.strand
  rw [h]
  rfl

theorem State.setStrand_find (s : State) (r k : Nat) (t : StrandSt) :
    (s.setStrand r k t).strands.find (strandKey r k) = some t := SMap.find_put_same _ _ _

theorem State.setStrand_other (s : State) (r k : Nat) (t : StrandSt) {key : Nat} (h : key ≠ strandKey r k) :
    (s.setStrand r k t).strands.find key = s.strands.find key := SMap.find_put_other _ _ h

/-- What the fetch of a word may change. -/
def fetchParts : List Field := [.freeCount, .objs, .flash, .depot, .strands, .cache, .coh, .link, .dram, .err, .mgmt, .out]

theorem OtherStrands.of_eq {st : StrandRef} {s u : State} (h : u.strands = s.strands) : OtherStrands st s u :=
  fun key _ => by rw [h]

/-! ## Running one instruction -/

/-- What answers a strand's held snoops leaves every strand and object. -/
def answerParts : List Field := [.cache, .coh, .link, .out]

/-- The instruction runs on the strand as it stands, after the fetch of its word. -/
theorem State.strandRun_ready {s : State} {st : StrandRef} {t : StrandSt} {k : StrandTask} (h : StrandReady s st t k)
    (f : StrandSt → StrandTask → State → SEff) :
    ∃ tf, tf.plain = t.plain ∧ tf.instret = t.instret ∧ OtherStrands st s (s.fetched st t k) ∧
      (s.fetched st t k).strand st.ridge.val st.strand.val = tf ∧ Moves fetchParts s (s.fetched st t k) ∧
      s.strandRun st f = .next ((match f tf k (s.fetched st t k) with
        | .ok t' s' => (s'.freeEvent t' 4 8).2.setStrand st.ridge.val st.strand.val
            { (s'.freeEvent t' 4 8).1 with instret := ((s'.freeEvent t' 4 8).1.instret + 1) % 2 ^ 64 }
        | .trap c v => (s.fetched st t k).strandTrap st tf k.key c v
        | .wait s' => s'
        | .full c cls s' => s'.suspendRoute k.key c cls : State).answerHeld (strandKey st.ridge.val st.strand.val)) := by
  obtain ⟨hf, ht, ⟨r, hr, hc, hb⟩, hw, hq⟩ := h
  have hs := State.strand_of_find hf
  have hd : s.drainStores st k 1 = s := by
    unfold State.drainStores
    simp only [hs, hq]
  have hp := s.fetchTouch_plain st k (r.desc.stage k.stage) t
  have hm := State.fetchTouch_writes s st k (r.desc.stage k.stage) t
  have hx : s.fetched st t k = (s.fetchTouch st k (r.desc.stage k.stage) t).2.setStrand st.ridge.val st.strand.val
      (s.fetchTouch st k (r.desc.stage k.stage) t).1 := by
    unfold State.fetched
    rw [hr]
  rw [hx]
  refine ⟨_, hp.1, hp.2, fun key hk => ?_, State.strand_of_find (State.setStrand_find ..),
    (hm.mono (Within.mk rfl)).trans ((State.setStrand_writes ..).mono (Within.mk rfl)), ?_⟩
  · rw [State.setStrand_other _ _ _ _ hk, hm.get .strands (by decide)]
  · unfold State.strandRun
    simp only [hf, ht, hr, hw, hq, List.length_nil, Nat.zero_add, hd, hs, hc, hb]
    rfl

/-- An instruction that does not stand still retires. -/
theorem State.strandRun_retires {s : State} {st : StrandRef} {t t1 : StrandSt} {k : StrandTask} {l l' : List Field}
    {om : SMap DObj}
    (h : StrandReady s st t k) (f : StrandSt → StrandTask → State → SEff)
    (hf : ∀ tf, tf.plain = t.plain → tf.instret = t.instret → Moves fetchParts s (s.fetched st t k) →
      ∃ t' s', f tf k (s.fetched st t k) = .ok t' s' ∧ t'.plain = t1.plain ∧ t'.instret = t1.instret ∧
        OtherStrands st (s.fetched st t k) s' ∧ s'.depot.objects = om ∧ Moves l s s')
    (hl : Within (.strands :: .freeCount :: (answerParts ++ l)) l') :
    ∃ u, s.strandRun st f = .next u ∧ Stands s u st t1 ∧ u.depot.objects = om ∧ Moves l' s u := by
  have sub {m : List Field} (hi : ∀ x, x ∈ m → x ∈ Field.strands :: Field.freeCount :: (answerParts ++ l)) :
      Within m l' := Within.mk (by
    have hc := List.all_eq_true.mp hl.out
    exact List.all_eq_true.mpr fun x hx => hc x (hi x hx))
  obtain ⟨tf, h1, h2, h0, _, h3, h4⟩ := State.strandRun_ready h f
  obtain ⟨t', s', h5, h6, h7, h8, h9, h10⟩ := hf tf h1 h2 h3
  have he := s'.freeEvent_plain t' 4 8
  have hm : Moves [.freeCount] s' (s'.freeEvent t' 4 8).2 := State.freeEvent_writes ..
  obtain ⟨w, hw⟩ : ∃ w, { (s'.freeEvent t' 4 8).1 with instret := ((s'.freeEvent t' 4 8).1.instret + 1) % 2 ^ 64 } = w :=
    ⟨_, rfl⟩
  obtain ⟨z, hz⟩ : ∃ z, (s'.freeEvent t' 4 8).2.setStrand st.ridge.val st.strand.val w = z := ⟨_, rfl⟩
  have hzm : Moves [.strands] (s'.freeEvent t' 4 8).2 z := by rw [← hz]; exact State.setStrand_writes ..
  have ha : Moves answerParts z (z.answerHeld (strandKey st.ridge.val st.strand.val)) := State.answerHeld_writes ..
  refine ⟨z.answerHeld (strandKey st.ridge.val st.strand.val), ?_, ⟨⟨w, ?_, ?_, ?_⟩, ?_⟩, ?_, ?_⟩
  · rw [h4, h5, ← hz, ← hw]
  · rw [ha.get .strands (by decide), ← hz]
    exact State.setStrand_find ..
  · rw [← hw]
    exact he.1.trans h6
  · rw [← hw]
    show ((s'.freeEvent t' 4 8).1.instret + 1) % 2 ^ 64 = _
    rw [he.2, h7]
  · intro key hk
    rw [ha.get .strands (by decide), ← hz, State.setStrand_other _ _ _ _ hk, hm.get .strands (by decide), h8 key hk, h0 key hk]
  · exact (ha.get .content (by decide)).trans ((hzm.get .content (by decide)).trans ((hm.get .content (by decide)).trans h9))
  · exact (((h10.mono (sub (by intro x hx; simp [hx]))).trans (hm.mono (sub (by intro x hx; simp at hx; simp [hx])))).trans
      (hzm.mono (sub (by intro x hx; simp at hx; simp [hx])))).trans
      (ha.mono (sub (by intro x hx; simp [hx])))

/-- What an instruction that reads and writes registers does beside the fetch: the wrong path after a branch. -/
def pureParts : List Field := [.freeCount, .cache, .coh, .link, .out]

/-- The same where the state is left as the fetch leaves it. -/
theorem State.strandRun_pure {s : State} {st : StrandRef} {t t1 : StrandSt} {k : StrandTask}
    (h : StrandReady s st t k) (f : StrandSt → StrandTask → State → SEff)
    (hf : ∀ tf sf, tf.plain = t.plain → tf.instret = t.instret →
      ∃ t' s', f tf k sf = .ok t' s' ∧ t'.plain = t1.plain ∧ t'.instret = t1.instret ∧ Moves pureParts sf s') :
    ∃ u, s.strandRun st f = .next u ∧ Retired s u st t1 := by
  obtain ⟨u, h1, h2, -, h3⟩ := State.strandRun_retires (l := fetchParts) (l' := strandParts) (t1 := t1)
    (om := s.depot.objects) h f (fun tf h1 h2 h3 => by
      obtain ⟨t', s', h4, h5, h6, h7⟩ := hf tf _ h1 h2
      exact ⟨t', s', h4, h5, h6, .of_eq (h7.get .strands (by decide)),
        (h7.get .content (by decide)).trans (h3.get .content (by decide)), h3.trans (h7.mono (Within.mk rfl))⟩)
    (Within.mk rfl)
  exact ⟨u, h1, h2, h3.frame⟩

/-- An instruction that reads and writes registers retires. -/
theorem State.regOp_retires {s : State} {st : StrandRef} {t : StrandSt} {k : StrandTask} (h : StrandReady s st t k)
    (f : StrandSt → StrandSt) (hf : ∀ x, (f x).plain = (f x.plain).plain) (hi : ∀ x, (f x).instret = x.instret) :
    ∃ u, s.regOp st f = .next u ∧ Retired s u st (f t).advance := by
  refine State.strandRun_pure h _ fun tf sf h1 h2 => ⟨_, _, rfl, ?_, ?_, Moves.refl _ _⟩
  · rw [StrandSt.advance_plain, StrandSt.advance_plain, hf tf, h1, ← hf t]
  · rw [StrandSt.advance_instret, StrandSt.advance_instret, hi, hi, h2]

/-- rd = f rs1 rs2 (R252). -/
theorem State.alu_retires {s : State} {st : StrandRef} {t : StrandSt} {k : StrandTask} (h : StrandReady s st t k)
    (rd rs1 rs2 : Fin 32) (f : Word → Word → Word) :
    ∃ u, s.alu st rd rs1 rs2 f = .next u ∧ Retired s u st (t.wg rd (f (t.rg rs1) (t.rg rs2))).advance :=
  State.regOp_retires h _ (fun x => by simp only [StrandSt.wg_plain, StrandSt.rg_plain, StrandSt.plain_idem])
    (fun x => StrandSt.wg_instret _ _ _)

theorem State.alu1_retires {s : State} {st : StrandRef} {t : StrandSt} {k : StrandTask} (h : StrandReady s st t k)
    (rd rs1 : Fin 32) (f : Word → Word) :
    ∃ u, s.alu1 st rd rs1 f = .next u ∧ Retired s u st (t.wg rd (f (t.rg rs1))).advance :=
  State.regOp_retires h _ (fun x => by simp only [StrandSt.wg_plain, StrandSt.rg_plain, StrandSt.plain_idem])
    (fun x => StrandSt.wg_instret _ _ _)

/-! ## Traps -/

/-- A trap that a handler takes (R264). -/
theorem State.strandTrap_taken {s sf : State} {st : StrandRef} {t tf : StrandSt} {k : RouteKey} {c : Nat} {v : Word}
    (hm : Moves fetchParts s sf) (h1 : tf.plain = t.plain) (h2 : tf.instret = t.instret) (h0 : OtherStrands st s sf)
    (hh : t.handles = true) (hc : trapHandler c = true) :
    TrapTaken s ((sf.strandTrap st tf k c v).answerHeld (strandKey st.ridge.val st.strand.val)) st t c v := by
  unfold State.strandTrap
  have : (trapHandler c && tf.tvec.getLsbD 0 && !tf.trap) = true := by
    rw [← StrandSt.handles_of_plain h1] at hh
    unfold StrandSt.handles at hh
    rw [hc, Bool.true_and]
    exact hh
  rw [if_pos this]
  have ho := State.oinc_writes (sf.setStrand st.ridge.val st.strand.val (tf.trapped c v)) 0x3070 2 1
  have hs : Moves [.strands] sf (sf.setStrand st.ridge.val st.strand.val (tf.trapped c v)) := State.setStrand_writes ..
  have ha := State.answerHeld_writes ((sf.setStrand st.ridge.val st.strand.val (tf.trapped c v)).oinc 0x3070 2 1)
    (strandKey st.ridge.val st.strand.val)
  refine ⟨⟨tf.trapped c v, ?_, StrandSt.trapped_of_plain h1 c v, h2⟩, ?_, ?_⟩
  · refine (congrArg (fun m => SMap.find m _) (ha.get .strands (by decide))).trans ?_
    exact (congrArg (fun m => SMap.find m _) (ho.get .strands (by decide))).trans (State.setStrand_find _ _ _ _)
  · intro key hk
    refine (congrArg (fun m => SMap.find m key) (ha.get .strands (by decide))).trans ?_
    refine (congrArg (fun m => SMap.find m key) (ho.get .strands (by decide))).trans ?_
    exact (State.setStrand_other _ _ _ _ hk).trans (h0 key hk)
  · exact ((((hm.mono (Within.mk rfl)).trans (hs.mono (Within.mk rfl))).trans (ho.mono (Within.mk rfl))).trans
      (ha.mono (Within.mk rfl))).frame

/-- An instruction that traps, where a handler takes the trap. -/
theorem State.strandRun_traps {s : State} {st : StrandRef} {t : StrandSt} {k : StrandTask} {c : Nat} {v : Word}
    (h : StrandReady s st t k) (hh : t.handles = true) (hc : trapHandler c = true)
    (f : StrandSt → StrandTask → State → SEff)
    (hf : ∀ tf, tf.plain = t.plain → f tf k (s.fetched st t k) = .trap c v) :
    ∃ u, s.strandRun st f = .next u ∧ TrapTaken s u st t c v := by
  obtain ⟨tf, h1, h2, h0, _, h3, h4⟩ := State.strandRun_ready h f
  rw [h4, hf tf h1]
  exact ⟨_, rfl, State.strandTrap_taken h3 h1 h2 h0 hh hc⟩

/-- An instruction that raises FP flags none of which is enabled to trap retires and collects them (R255). -/
theorem State.fpEnd_retires {s : State} {st : StrandRef} {t t1 : StrandSt} {k : StrandTask} {fl : Nat}
    (h : StrandReady s st t k) (f : StrandSt → StrandTask → State → SEff)
    (hf : ∀ tf sf, tf.plain = t.plain → tf.instret = t.instret →
      ∃ x, f tf k sf = fpEnd x fl sf ∧ x.plain = t1.plain ∧ x.instret = t1.instret)
    (hz : t1.trapEn &&& fl = 0) :
    ∃ u, s.strandRun st f = .next u ∧ Retired s u st (t1.addFlags fl).advance := by
  refine State.strandRun_pure h f fun tf sf h1 h2 => ?_
  obtain ⟨x, h3, h4, h5⟩ := hf tf sf h1 h2
  have hx : x.trapEn = t1.trapEn := StrandSt.of_plain StrandSt.trapEn (fun _ => rfl) h4
  refine ⟨(x.addFlags fl).advance, sf, ?_, ?_, h5, Moves.refl _ _⟩
  · rw [h3]
    unfold fpEnd
    rw [hx, hz]
    rfl
  · rw [StrandSt.advance_plain, StrandSt.addFlags_plain, h4]
    rfl

/-- One of its flags is enabled: it traps, and changes nothing else (R255, R264). -/
theorem State.fpEnd_traps {s : State} {st : StrandRef} {t t1 : StrandSt} {k : StrandTask} {fl : Nat}
    (h : StrandReady s st t k) (hh : t.handles = true) (f : StrandSt → StrandTask → State → SEff)
    (hf : ∀ tf sf, tf.plain = t.plain → ∃ x, f tf k sf = fpEnd x fl sf ∧ x.trapEn = t1.trapEn)
    (hz : t1.trapEn &&& fl ≠ 0) :
    ∃ u, s.strandRun st f = .next u ∧ TrapTaken s u st t 9 (BitVec.ofNat 64 (fl % 32 * 4)) := by
  refine State.strandRun_traps h hh rfl f fun tf h1 => ?_
  obtain ⟨x, h2, h3⟩ := hf tf _ h1
  rw [h2]
  unfold fpEnd
  rw [h3, if_pos hz]

/-! ## The shapes of scalar instructions -/

theorem StrandSt.rg_of_plain {t t' : StrandSt} (h : t.plain = t'.plain) (i : Fin 32) : t.rg i = t'.rg i :=
  StrandSt.of_plain (fun x => x.rg i) (fun _ => rfl) h
theorem StrandSt.rf_of_plain {t t' : StrandSt} (h : t.plain = t'.plain) (b : Bool) (i : Fin 32) : t.rf b i = t'.rf b i :=
  StrandSt.of_plain (fun x => x.rf b i) (fun _ => rfl) h
theorem StrandSt.rm_of_plain {t t' : StrandSt} (h : t.plain = t'.plain) : t.rm = t'.rm :=
  StrandSt.of_plain StrandSt.rm (fun _ => rfl) h
theorem StrandSt.pc_of_plain {t t' : StrandSt} (h : t.plain = t'.plain) : t.pc = t'.pc :=
  StrandSt.of_plain StrandSt.pc (fun _ => rfl) h
theorem StrandSt.wg_of_plain {t t' : StrandSt} (h : t.plain = t'.plain) (i : Fin 32) (x : Word) :
    (t.wg i x).plain = (t'.wg i x).plain := by rw [StrandSt.wg_plain, StrandSt.wg_plain, h]
theorem StrandSt.wf_of_plain {t t' : StrandSt} (h : t.plain = t'.plain) (b : Bool) (i : Fin 32) (x : Nat) :
    (t.wf b i x).plain = (t'.wf b i x).plain := by rw [StrandSt.wf_plain, StrandSt.wf_plain, h]
theorem StrandSt.advance_of_plain {t t' : StrandSt} (h : t.plain = t'.plain) : t.advance.plain = t'.advance.plain := by
  rw [StrandSt.advance_plain, StrandSt.advance_plain, h]
theorem StrandSt.goto_of_plain {t t' : StrandSt} (h : t.plain = t'.plain) (x : Word) :
    (t.goto x).plain = (t'.goto x).plain := by rw [StrandSt.goto_plain, StrandSt.goto_plain, h]

theorem State.divOp_retires {s : State} {st : StrandRef} {t : StrandSt} {k : StrandTask} (h : StrandReady s st t k)
    (rd rs1 rs2 : Fin 32) (f : Word → Word → Word) (hz : t.rg rs2 ≠ 0#64) :
    ∃ u, s.divOp st rd rs1 rs2 f = .next u ∧ Retired s u st (t.wg rd (f (t.rg rs1) (t.rg rs2))).advance := by
  refine State.strandRun_pure h _ fun tf sf h1 h2 =>
    ⟨(tf.wg rd (f (t.rg rs1) (t.rg rs2))).advance, sf, ?_, ?_, ?_, Moves.refl _ _⟩
  · rw [StrandSt.rg_of_plain h1, StrandSt.rg_of_plain h1, if_neg hz]
  · exact StrandSt.advance_of_plain (StrandSt.wg_of_plain h1 _ _)
  · rw [StrandSt.advance_instret, StrandSt.advance_instret, StrandSt.wg_instret, StrandSt.wg_instret, h2]

theorem State.divOp_traps {s : State} {st : StrandRef} {t : StrandSt} {k : StrandTask} (h : StrandReady s st t k)
    (hh : t.handles = true) (rd rs1 rs2 : Fin 32) (f : Word → Word → Word) (hz : t.rg rs2 = 0#64) :
    ∃ u, s.divOp st rd rs1 rs2 f = .next u ∧ TrapTaken s u st t 8 0#64 :=
  State.strandRun_traps h hh rfl _ fun tf h1 => by
    show (if tf.rg rs2 = 0#64 then _ else _) = _
    rw [StrandSt.rg_of_plain h1, if_pos hz]

theorem State.branch_retires {s : State} {st : StrandRef} {t : StrandSt} {k : StrandTask} (h : StrandReady s st t k)
    (rs1 rs2 : Fin 32) (imm : BitVec 16) (c : Word → Word → Bool) :
    ∃ u, s.branch st rs1 rs2 imm c = .next u ∧
      Retired s u st (if c (t.rg rs1) (t.rg rs2) then t.goto (t.pc + (sext16 imm <<< (2 : Nat))) else t.advance) := by
  refine State.strandRun_pure h _ fun tf sf h1 h2 => ?_
  dsimp only
  rw [StrandSt.rg_of_plain h1, StrandSt.rg_of_plain h1, StrandSt.pc_of_plain h1]
  have hp : (if c (t.rg rs1) (t.rg rs2) then tf.goto (t.pc + (sext16 imm <<< (2 : Nat))) else tf.advance).plain =
      (if c (t.rg rs1) (t.rg rs2) then t.goto (t.pc + (sext16 imm <<< (2 : Nat))) else t.advance).plain := by
    split
    · exact StrandSt.goto_of_plain h1 _
    · exact StrandSt.advance_of_plain h1
  have hi : (if c (t.rg rs1) (t.rg rs2) then tf.goto (t.pc + (sext16 imm <<< (2 : Nat))) else tf.advance).instret =
      (if c (t.rg rs1) (t.rg rs2) then t.goto (t.pc + (sext16 imm <<< (2 : Nat))) else t.advance).instret := by
    split <;> exact h2
  split
  · exact ⟨_, _, rfl, hp, hi, Moves.refl _ _⟩
  · exact ⟨_, _, rfl, (State.wrongPath_plain ..).1.trans hp, (State.wrongPath_plain ..).2.trans hi,
      (State.wrongPath_writes ..)⟩

theorem State.fp2_retires {s : State} {st : StrandRef} {t : StrandSt} {k : StrandTask} (h : StrandReady s st t k)
    (single : Bool) (rd rs1 rs2 : Fin 32) (f : Fmt → Nat → Nat → Nat → Nat × Nat)
    (hz : t.trapEn &&& (f (fmtOf single) t.rm (t.rf single rs1) (t.rf single rs2)).2 = 0) :
    ∃ u, s.fp2 st single rd rs1 rs2 f = .next u ∧
      Retired s u st ((t.wf single rd (f (fmtOf single) t.rm (t.rf single rs1) (t.rf single rs2)).1).addFlags
        (f (fmtOf single) t.rm (t.rf single rs1) (t.rf single rs2)).2).advance :=
  State.fpEnd_retires h _ (fun tf sf h1 h2 => by
    dsimp only
    rw [StrandSt.rf_of_plain h1, StrandSt.rf_of_plain h1, StrandSt.rm_of_plain h1]
    exact ⟨_, rfl, StrandSt.wf_of_plain h1 _ _ _, h2⟩) hz

theorem State.fp2_traps {s : State} {st : StrandRef} {t : StrandSt} {k : StrandTask} (h : StrandReady s st t k)
    (hh : t.handles = true) (single : Bool) (rd rs1 rs2 : Fin 32) (f : Fmt → Nat → Nat → Nat → Nat × Nat)
    (hz : t.trapEn &&& (f (fmtOf single) t.rm (t.rf single rs1) (t.rf single rs2)).2 ≠ 0) :
    ∃ u, s.fp2 st single rd rs1 rs2 f = .next u ∧
      TrapTaken s u st t 9 (BitVec.ofNat 64 ((f (fmtOf single) t.rm (t.rf single rs1) (t.rf single rs2)).2 % 32 * 4)) :=
  State.fpEnd_traps h hh _ (fun tf sf h1 => by
    dsimp only
    rw [StrandSt.rf_of_plain h1, StrandSt.rf_of_plain h1, StrandSt.rm_of_plain h1]
    exact ⟨_, rfl, (StrandSt.of_plain StrandSt.trapEn (fun _ => rfl) h1 : tf.trapEn = t.trapEn)⟩) hz

theorem State.fpCmp_retires {s : State} {st : StrandRef} {t : StrandSt} {k : StrandTask} (h : StrandReady s st t k)
    (single : Bool) (rd rs1 rs2 : Fin 32) (f : Fmt → Nat → Nat → Bool × Nat)
    (hz : t.trapEn &&& (f (fmtOf single) (t.rf single rs1) (t.rf single rs2)).2 = 0) :
    ∃ u, s.fpCmp st single rd rs1 rs2 f = .next u ∧
      Retired s u st ((t.wg rd (wbool (f (fmtOf single) (t.rf single rs1) (t.rf single rs2)).1)).addFlags
        (f (fmtOf single) (t.rf single rs1) (t.rf single rs2)).2).advance :=
  State.fpEnd_retires h _ (fun tf sf h1 h2 => by
    dsimp only
    rw [StrandSt.rf_of_plain h1, StrandSt.rf_of_plain h1]
    refine ⟨_, rfl, StrandSt.wg_of_plain h1 _ _, ?_⟩
    rw [StrandSt.wg_instret, StrandSt.wg_instret, h2])
    (by
      have : (t.wg rd (wbool (f (fmtOf single) (t.rf single rs1) (t.rf single rs2)).1)).trapEn = t.trapEn := by
        unfold StrandSt.wg
        split <;> rfl
      rw [this]
      exact hz)

end Sys2Proof.Machine
end

