-- ==== Sys2Proof/Laws/StrandMem.lean ====
section
/-! SUPPORT. What the loads and stores of a strand do: which bytes they answer, what they leave unchanged, and when they
trap. -/
namespace Sys2Proof.Machine
open Sys2Proof

/-! ## A route ends (R146, R264) -/

theorem State.route?_updRoute_same (s : State) (k : RouteKey) (f : Route → Route) (hf : ∀ r, (f r).key = r.key) {r : Route}
    (h : s.route? k = some r) : (s.updRoute k f).route? k = some (f r) := by
  unfold State.route? State.updRoute at *
  dsimp only
  revert h
  induction s.routes with
  | nil => intro h; cases h
  | cons x l ih =>
    intro h
    simp only [List.map_cons, List.find?_cons] at h ⊢
    by_cases hx : (x.key == k) = true
    · rw [hx] at h ⊢
      cases h
      simp only [if_true, hf, hx]
    · have : (x.key == k) = false := by simpa using hx
      rw [this] at h ⊢
      simp only [if_false, Bool.false_eq_true, this] at h ⊢
      exact ih h

theorem State.route?_updRoute_other (s : State) (k k' : RouteKey) (f : Route → Route) (hf : ∀ r, (f r).key = r.key)
    (h : k' ≠ k) : (s.updRoute k f).route? k' = s.route? k' := by
  unfold State.route? State.updRoute at *
  dsimp only
  induction s.routes with
  | nil => rfl
  | cons x l ih =>
    simp only [List.map_cons, List.find?_cons]
    by_cases hx : (x.key == k) = true
    · have e : x.key = k := by simpa using hx
      have h2 : (x.key == k') = false := by rw [e]; simpa using Ne.symm h
      simp only [hx, if_true, hf, h2, ih]
    · simp only [hx, if_false, ih, Bool.false_eq_true]

@[simp] theorem StrandSt.stopped_idem (t : StrandSt) : t.stopped.stopped = t.stopped := rfl

theorem State.stopStrand_find (s : State) (ridge c key : Nat) :
    (s.stopStrand ridge c).strands.find key =
      if key = strandKey ridge c then some ((s.strands.find key).getD StrandSt.idle).stopped else s.strands.find key := by
  unfold State.stopStrand
  have hc : (s.countWrong ridge (s.strand ridge c)).strands = s.strands :=
    (State.countWrong_writes ..).get .strands (by decide)
  split
  · rename_i h
    subst h
    exact State.setStrand_find ..
  · rename_i h
    rw [State.setStrand_other _ _ _ _ h, hc]

/-- Strands that stop: each holds what it predicts by, and the others are as before. -/
theorem State.stopStrands_find (ridge : Nat) (l : List Running) (s : State) (key : Nat) :
    (l.foldl (fun s r => s.stopStrand ridge r.ctx) s).strands.find key =
      if (l.map (fun r => strandKey ridge r.ctx)).contains key then some ((s.strands.find key).getD StrandSt.idle).stopped
      else s.strands.find key := by
  induction l generalizing s with
  | nil => rfl
  | cons r l ih =>
    rw [List.foldl_cons, ih, State.stopStrand_find]
    by_cases h : key = strandKey ridge r.ctx
    · subst h
      simp
    · have h' : (key == strandKey ridge r.ctx) = false := by simpa using h
      simp only [List.map_cons, List.contains_cons, h', Bool.false_or, if_neg h]

/-- Dropping elements that do not bear a key leaves whether it is borne. -/
theorem contains_filter {α : Type} {p q : α → Bool} {f : α → Nat} {key : Nat}
    (h : ∀ r, p r = true → q r = false → f r ≠ key) (l : List α) :
    (((l.filter q).filter p).map f).contains key = ((l.filter p).map f).contains key := by
  induction l with
  | nil => rfl
  | cons r l ih =>
    cases hq : q r <;> cases hp : p r <;> simp only [List.filter_cons, hq, hp, if_true, Bool.false_eq_true, if_false,
      List.map_cons, List.contains_cons, ih]
    have : (key == f r) = false := by simpa using Ne.symm (h r hp hq)
    rw [this, Bool.false_or]

theorem State.endRunning_runsOn (s : State) (k : RouteKey) (ridge c key : Nat) (h : key ≠ strandKey ridge c) :
    ((s.endRunning ridge .strand c).runsOn k ridge).contains key = (s.runsOn k ridge).contains key := by
  refine contains_filter (fun r hp hq e => h ?_) _
  simp only [Bool.and_eq_true] at hp
  have : r.ctx = c := by simpa [hp.1.2, hp.2] using hq
  rw [← e, this]

/-- A task of a strand ends its route: what remains after the strand itself has stopped. -/
theorem State.routeFault_ended {s sf sg : State} {st : StrandRef} {t tf : StrandSt} {k : RouteKey} {src status ad : Nat}
    (hm : Moves fetchParts s sf) (h0 : OtherStrands st s sf) (hp : tf.plain = t.plain)
    (hg : Moves [.objs, .routes, .sched, .strands] sf sg)
    (h1 : sg.strands.find (strandKey st.ridge.val st.strand.val) = some tf.stopped) (h2 : OtherStrands st sf sg)
    (h3 : ∀ key, key ≠ strandKey st.ridge.val st.strand.val →
      (sg.runsOn k st.ridge.val).contains key = (sf.runsOn k st.ridge.val).contains key)
    (h4 : ∀ r, sf.route? k = some r → ∃ r', sg.route? k = some r' ∧ r'.conditions = r.conditions)
    (h5 : ∀ key, key ≠ k → sg.route? key = sf.route? key) :
    RouteEnded s ((sg.routeFault k src status ad).stopOnRidge k st.ridge.val) st t k status := by
  have hw := State.routeFault_writes sg k src status ad
  have hx := State.stopOnRidge_writes (sg.routeFault k src status ad) k st.ridge.val
  have hgone : ((sg.routeFault k src status ad).sched.running.filter
      (fun r => r.task.key == k && r.ridge == st.ridge.val)).filter (fun r => r.unit == .strand) =
      sg.sched.running.filter (fun r => r.task.key == k && r.ridge == st.ridge.val && r.unit == .strand) := by
    rw [hw.get .sched (by decide), List.filter_filter]
    congr 1
    funext r
    exact Bool.and_comm _ _
  have hfind (key : Nat) : ((sg.routeFault k src status ad).stopOnRidge k st.ridge.val).strands.find key =
      if (sg.runsOn k st.ridge.val).contains key then some ((sg.strands.find key).getD StrandSt.idle).stopped
      else sg.strands.find key := by
    unfold State.stopOnRidge
    dsimp only
    rw [State.stopStrands_find, (State.countStalls_writes ..).get .strands (by decide), hw.get .strands (by decide), hgone]
    rfl
  have hroute (key : RouteKey) : ((sg.routeFault k src status ad).stopOnRidge k st.ridge.val).route? key =
      (sg.routeFault k src status ad).route? key := by
    unfold State.route?
    rw [hx.get .routes (by decide)]
  refine ⟨?_, ?_, ?_, ⟨?_, ?_⟩, ?_⟩
  · refine ⟨tf.stopped, ?_, StrandSt.stopped_of_plain hp⟩
    rw [hfind, h1]
    split <;> rfl
  · intro key hk
    have e1 := (h2 key hk).trans (h0 key hk)
    have e3 : sf.sched = s.sched := hm.get .sched (by decide)
    have e4 : (sg.runsOn k st.ridge.val).contains key = (s.runsOn k st.ridge.val).contains key := by
      rw [h3 key hk]
      unfold State.runsOn
      rw [e3]
    rw [hfind, e4, e1]
  · intro x hx hc
    unfold State.stopOnRidge at hx
    have := (List.mem_filter.mp hx).2
    simp [hc.1, hc.2] at this
  · intro r hr
    have hrf : sf.route? k = some r := by
      unfold State.route?
      rw [hm.get .routes (by decide)]
      exact hr
    obtain ⟨r', hr', hc⟩ := h4 r hrf
    rw [hroute]
    unfold State.routeFault
    dsimp only
    have : ∀ a, (sg.raise a).route? k = some r' := fun a => by
      unfold State.route?
      rw [(State.raise_writes sg a).get .routes (by decide)]
      exact hr'
    refine ⟨_, State.route?_updRoute_same _ _ _ (by exact fun _ => rfl) (this _), by rw [← hc], ?_⟩
    dsimp only
    cases r'.endTick <;> rfl
  · intro key hk
    rw [hroute]
    refine (State.route?_updRoute_other _ _ _ _ (by exact fun _ => rfl) hk).trans ?_
    have : (sg.raise { severity := 2, source := src, cause := status, tenant := some k.tenant, status := status
                       routeId := k.id, address := ad, closing := none }).route? key = sg.route? key := by
      unfold State.route?
      rw [(State.raise_writes sg _).get .routes (by decide)]
    refine this.trans ((h5 key hk).trans ?_)
    unfold State.route?
    rw [hm.get .routes (by decide)]
  · exact ((hm.mono (Within.mk rfl)).trans ((hg.mono (Within.mk rfl)).trans ((hw.mono (Within.mk rfl)).trans
      (hx.mono (Within.mk rfl))))).frame

/-- The strand itself stops, and its task is no longer among the running ones. -/
theorem State.strandStops {s : State} {st : StrandRef} {t : StrandSt}
    (h : s.strand st.ridge.val st.strand.val = t) :
    ((s.stopStrand st.ridge.val st.strand.val).endRunning st.ridge.val .strand st.strand.val).strands.find
      (strandKey st.ridge.val st.strand.val) = some t.stopped ∧
    OtherStrands st s ((s.stopStrand st.ridge.val st.strand.val).endRunning st.ridge.val .strand st.strand.val) ∧
    ∀ k key, key ≠ strandKey st.ridge.val st.strand.val →
      (((s.stopStrand st.ridge.val st.strand.val).endRunning st.ridge.val .strand st.strand.val).runsOn k
        st.ridge.val).contains key = (s.runsOn k st.ridge.val).contains key := by
  have he : ((s.stopStrand st.ridge.val st.strand.val).endRunning st.ridge.val .strand st.strand.val).strands =
      (s.stopStrand st.ridge.val st.strand.val).strands := (State.endRunning_writes ..).get .strands (by decide)
  refine ⟨?_, ?_, ?_⟩
  · rw [he, State.stopStrand_find, if_pos rfl]
    unfold State.strand at h
    rw [h]
  · intro key hk
    rw [he, State.stopStrand_find, if_neg hk]
  · intro k key hk
    rw [State.endRunning_runsOn _ _ _ _ _ hk]
    unfold State.runsOn
    rw [(State.stopStrand_writes ..).get .sched (by decide)]

/-- What answers held snoops takes nothing from a route that has ended. -/
theorem RouteEnded.answerHeld {s u : State} {st : StrandRef} {t : StrandSt} {k : RouteKey} {status : Nat}
    (h : RouteEnded s u st t k status) (n : Nat) : RouteEnded s (u.answerHeld n) st t k status := by
  obtain ⟨⟨w, h1, h1'⟩, h2, h3, ⟨h4, h5⟩, h6⟩ := h
  have ha := State.answerHeld_writes u n
  have hr (key : RouteKey) : (u.answerHeld n).route? key = u.route? key := by
    unfold State.route?
    rw [ha.get .routes (by decide)]
  refine ⟨⟨w, ?_, h1'⟩, ?_, ?_, ⟨?_, ?_⟩, ?_⟩
  · rw [ha.get .strands (by decide)]
    exact h1
  · intro key hk
    rw [ha.get .strands (by decide)]
    exact h2 key hk
  · rw [ha.get .sched (by decide)]
    exact h3
  · intro r e
    rw [hr]
    exact h4 r e
  · intro key hk
    rw [hr]
    exact h5 key hk
  · have hl : Within [.cache, .coh, .link, .out] (.routes :: .sched :: .scn :: strandParts) := Within.mk rfl
    exact .mk fun f hf => Field.same_trans (h6.get f hf) (ha.get f (fun hm => hf (within.mem hl.out hm)))

theorem State.strandTrap_ended {s sf : State} {st : StrandRef} {t tf : StrandSt} {k : RouteKey} {c : Nat} {v : Word}
    (hm : Moves fetchParts s sf) (h0 : OtherStrands st s sf) (hp : tf.plain = t.plain)
    (ht : sf.strand st.ridge.val st.strand.val = tf) (hh : (trapHandler c && t.handles) = false) :
    RouteEnded s (sf.strandTrap st tf k c v) st t k (trapStatus c) := by
  rw [← StrandSt.handles_of_plain hp] at hh
  unfold State.strandTrap
  rw [if_neg (by unfold StrandSt.handles at hh; rw [Bool.and_assoc, hh]; decide)]
  dsimp only
  obtain ⟨e1, e2, e3⟩ := State.strandStops ht
  have hg : Moves [.objs, .sched, .strands] sf
      ((sf.stopStrand st.ridge.val st.strand.val).endRunning st.ridge.val .strand st.strand.val) :=
    ((State.stopStrand_writes ..).mono (Within.mk rfl)).trans ((State.endRunning_writes ..).mono (Within.mk rfl))
  generalize (sf.stopStrand st.ridge.val st.strand.val).endRunning st.ridge.val .strand st.strand.val = sg at e1 e2 e3 hg
  have hr (key : RouteKey) : sg.route? key = sf.route? key := by
    unfold State.route?
    rw [hg.get .routes (by decide)]
  split
  · have ho : Moves [.objs] sg (sg.oinc 0x3070 3 1) := State.oinc_writes ..
    have hro (key : RouteKey) : (sg.oinc 0x3070 3 1).route? key = sf.route? key := by
      refine Eq.trans ?_ (hr key)
      unfold State.route?
      rw [ho.get .routes (by decide)]
    refine State.routeFault_ended hm h0 hp ((hg.mono (Within.mk rfl)).trans ((ho.mono (Within.mk rfl)).trans
      ((State.updRoute_writes ..).mono (Within.mk rfl)))) ?_ ?_ ?_ ?_ ?_
    · exact (congrArg (fun m => SMap.find m _) (ho.get .strands (by decide))).trans e1
    · exact fun key hk => (congrArg (fun m => SMap.find m key) (ho.get .strands (by decide))).trans (e2 key hk)
    · intro key hk
      refine Eq.trans ?_ (e3 k key hk)
      unfold State.runsOn
      have : ((sg.oinc 0x3070 3 1).updRoute k (fun r => { r with strandEnded := true })).sched = sg.sched :=
        ho.get .sched (by decide)
      rw [this]
    · exact fun r h => ⟨_, State.route?_updRoute_same _ _ _ (by exact fun _ => rfl) ((hro k).trans h), rfl⟩
    · exact fun key hk => (State.route?_updRoute_other _ _ _ _ (by exact fun _ => rfl) hk).trans (hro key)
  · exact State.routeFault_ended hm h0 hp (hg.mono (Within.mk rfl)) e1 e2 (e3 k) (fun r h => ⟨r, (hr k).trans h, rfl⟩)
      (fun key _ => hr key)

theorem State.strandRun_ends {s : State} {st : StrandRef} {t : StrandSt} {k : StrandTask} {c : Nat} {v : Word}
    (h : StrandReady s st t k) (hh : (trapHandler c && t.handles) = false)
    (f : StrandSt → StrandTask → State → SEff)
    (hf : ∀ tf, tf.plain = t.plain → f tf k (s.fetched st t k) = .trap c v) :
    ∃ u, s.strandRun st f = .next u ∧ RouteEnded s u st t k.key (trapStatus c) := by
  obtain ⟨tf, h1, _, h0, ht, h3, h4⟩ := State.strandRun_ready h f
  rw [h4, hf tf h1]
  exact ⟨_, rfl, (State.strandTrap_ended h3 h0 h1 ht hh).answerHeld _⟩

/-! ## Objects keep their bytes -/

theorem SameBytes.refl (s : State) : SameBytes s s := fun _ => rfl
theorem SameBytes.trans {s t u : State} (h : SameBytes s t) (h' : SameBytes t u) : SameBytes s u :=
  fun o => (h' o).trans (h o)
theorem SameBytes.of_objects {s t : State} (h : t.depot.objects = s.depot.objects) : SameBytes s t := fun o => by
  unfold State.dobj?
  rw [h]

theorem State.addPage_sameBytes (s : State) (o index : Nat) (d : DObj) (tier addr : Nat) (h : s.dobj? o = some d) :
    SameBytes s (s.addPage o index d tier addr) := by
  intro x
  have hu : (s.usePage (o / 65536) d.cls tier addr d.key).depot.objects = s.depot.objects :=
    (State.usePage_writes ..).get .content (by decide)
  unfold State.addPage State.dobj?
  dsimp only
  rw [hu]
  by_cases hx : x = o
  · subst hx
    rw [SMap.find_put_same]
    unfold State.dobj? at h
    rw [h]
    rfl
  · rw [SMap.find_put_other _ _ hx]

theorem State.ensurePage_sameBytes {s t : State} {o index : Nat} (h : s.ensurePage o index = .ok t) : SameBytes s t := by
  unfold State.ensurePage at h
  repeat' split at h
  all_goals cases h
  · exact .refl _
  · exact .refl _
  · exact State.addPage_sameBytes _ _ _ _ _ _ (by assumption)

theorem State.ensurePages_sameBytes {s t : State} {o index n : Nat} (h : s.ensurePages o index n = .ok t) :
    SameBytes s t := by
  induction n generalizing s index with
  | zero => cases h; exact .refl _
  | succ n ih =>
    unfold State.ensurePages at h
    split at h
    · exact (State.ensurePage_sameBytes (by assumption)).trans (ih h)
    · rename_i hne
      exact absurd h (hne t)

theorem State.scratchPages_sameBytes {s t : State} {k : StrandTask} {o off n : Nat} (h : s.scratchPages k o off n = .ok t) :
    SameBytes s t := by
  unfold State.scratchPages at h
  repeat' split at h
  · cases h
    exact (State.ensurePages_sameBytes (by assumption)).trans
      (.of_objects ((State.settleAsk_writes ..).get .content (by decide)))
  · rename_i hn
    exact absurd h (hn t)
  · cases h; exact .refl _

/-! ## Loads -/

theorem State.touchLines_keeps (s : State) (st : StrandRef) (k : RouteKey) (ls : List Nat) :
    (s.touchLines st k ls).1.strands = s.strands ∧
    (s.touchLines st k ls).1.depot.objects = s.depot.objects := by
  have hm := State.touchLines_writes s st k ls
  exact ⟨hm.get .strands (by decide), hm.get .content (by decide)⟩

theorem State.settleLost_keeps (s : State) (ls : List Nat) :
    (ls.foldl State.settleLost s).strands = s.strands ∧
    (ls.foldl State.settleLost s).depot.objects = s.depot.objects := by
  induction ls generalizing s with
  | nil => exact ⟨rfl, rfl⟩
  | cons l ls ih =>
    have hm := State.settleLost_writes s l
    exact ⟨(ih _).1.trans (hm.get .strands (by decide)), (ih _).2.trans (hm.get .content (by decide))⟩

theorem State.settleLost_none {s : State} {ls : List Nat} (h : ∀ l ∈ ls, s.settleLost l = s) :
    ls.foldl State.settleLost s = s := by
  induction ls with
  | nil => rfl
  | cons l ls ih =>
    rw [List.foldl_cons, h l (List.mem_cons_self ..)]
    exact ih fun x hx => h x (List.mem_cons_of_mem _ hx)

theorem State.imgLoad_ok {s t : State} {st : StrandRef} {k : RouteKey} {a n : Nat} {a0 : Word} {e : Nat}
    {bs : List Byte} {m : Nat} (h : s.imgLoad st k a n a0 e = .ok bs t m) :
    t.strands = s.strands ∧ SameBytes s t := by
  unfold State.imgLoad at h
  dsimp only at h
  repeat' split at h
  all_goals first | cases h | skip
  have := s.touchLines_keeps st k ((linesOf a n).map imgLine)
  exact ⟨this.1, .of_objects this.2⟩

/-- The cause that lines give is BUS or POISON. -/
theorem State.lineCause_some {s : State} {ls : List Nat} {c : Nat} (h : s.lineCause ls = some c) : c = 6 ∨ c = 7 := by
  unfold State.lineCause at h
  dsimp only at h
  repeat' split at h
  all_goals cases h
  · exact .inl rfl
  · exact .inr rfl

theorem State.imgLoad_trap {s : State} {st : StrandRef} {k : RouteKey} {a n : Nat} {a0 : Word} {e : Nat}
    {c : Nat} {v : Word} (h : s.imgLoad st k a n a0 e = .trap c v) (he : e ∈ [4, 6]) :
    c ∈ [4, 6, 7] ∧ v = a0 := by
  unfold State.imgLoad at h
  dsimp only at h
  repeat' split at h
  all_goals cases h
  · simp at he
    exact ⟨by simp; omega, rfl⟩
  · have := State.lineCause_some (by assumption)
    exact ⟨by simp; omega, rfl⟩

theorem busFirst_cause {l : List Nat} {c : Nat} (h : busFirst l = some c) : c = 6 ∨ c = 7 := by
  unfold busFirst at h
  repeat' split at h
  all_goals cases h
  · exact .inl rfl
  · exact .inr rfl

theorem State.depotLoad_ok {s t : State} {st : StrandRef} {k : RouteKey} {a0 : Word} {o : Nat} {ob : DObj} {off n : Nat}
    {bs : List Byte} {m : Nat} (h : s.depotLoad st k a0 o ob off n = .ok bs t m) : t.strands = s.strands ∧ SameBytes s t := by
  unfold State.depotLoad at h
  dsimp only at h
  repeat' split at h
  all_goals cases h
  have h1 := s.settleLost_keeps (s.depotLines ob off n)
  have h2 := State.touchLines_keeps ((s.depotLines ob off n).foldl State.settleLost s) st k (s.depotLines ob off n)
  exact ⟨h2.1.trans h1.1, .of_objects (h2.2.trans h1.2)⟩

theorem State.depotLoad_trap {s : State} {st : StrandRef} {k : RouteKey} {a0 : Word} {o : Nat} {ob : DObj} {off n : Nat}
    {c : Nat} {v : Word} (h : s.depotLoad st k a0 o ob off n = .trap c v) : c ∈ [4, 6, 7] ∧ v = a0 := by
  unfold State.depotLoad at h
  dsimp only at h
  repeat' split at h
  all_goals cases h
  have := busFirst_cause (by assumption)
  exact ⟨by simp; omega, rfl⟩

theorem State.windowLoad_ok {s t : State} {st : StrandRef} {k : RouteKey} {ref limit off n : Nat} {a0 : Word}
    {bs : List Byte} {m : Nat} (h : s.windowLoad st k ref limit off n a0 = .ok bs t m) :
    t.strands = s.strands ∧ SameBytes s t := by
  unfold State.windowLoad at h
  repeat' split at h
  all_goals first | exact State.imgLoad_ok h | cases h
  exact ⟨rfl, .refl s⟩

theorem State.windowLoad_trap {s : State} {st : StrandRef} {k : RouteKey} {ref limit off n : Nat} {a0 : Word}
    {c : Nat} {v : Word} (h : s.windowLoad st k ref limit off n a0 = .trap c v) : c ∈ [4, 6, 7] ∧ v = a0 := by
  unfold State.windowLoad at h
  repeat' split at h
  all_goals first | exact State.imgLoad_trap h (by decide) | cases h
  all_goals simp
  exact .inr (busFirst_cause (by assumption))

/-- A load that answers bytes leaves every strand and every object's bytes as they were. -/
theorem State.strandLoad_ok {s t : State} {st : StrandRef} {k : StrandTask} {a0 : Word} {n : Nat}
    {bs : List Byte} {m : Nat} (h : s.strandLoad st k a0 n = .ok bs t m) : t.strands = s.strands ∧ SameBytes s t := by
  unfold State.strandLoad at h
  dsimp only at h
  repeat' split at h
  all_goals first | exact State.imgLoad_ok h | exact State.windowLoad_ok h | cases h | skip
  rename_i sp hp
  have h1 := (State.scratchPages_writes s k _ _ n).okGet hp
  have h2 := State.depotLoad_ok h
  exact ⟨h2.1.trans (h1.get .strands (by decide)), (State.scratchPages_sameBytes hp).trans h2.2⟩

/-- A load traps with LOAD_ACCESS, BUS or POISON, and reports its address. -/
theorem State.strandLoad_trap {s : State} {st : StrandRef} {k : StrandTask} {a0 : Word} {n : Nat}
    {c : Nat} {v : Word} (h : s.strandLoad st k a0 n = .trap c v) : c ∈ [4, 6, 7] ∧ v = a0 := by
  unfold State.strandLoad at h
  dsimp only at h
  repeat' split at h
  all_goals first
    | exact State.imgLoad_trap h (by decide)
    | exact State.windowLoad_trap h
    | exact State.depotLoad_trap h
    | cases h
  all_goals simp

/-- A load instruction whose bytes can be had retires. -/
theorem State.loadOp_retires {s : State} {st : StrandRef} {t : StrandSt} {k : StrandTask} (h : StrandReady s st t k)
    (n : Nat) (addr : StrandSt → Word) (put : StrandSt → Nat → StrandSt) (ha : ∀ x, addr x = addr x.plain)
    (hp : ∀ x v, (put x v).plain = (put x.plain v).plain) (hi : ∀ x v, (put x v).instret = x.instret)
    {bs : List Byte} {v : State} {m : Nat} (hl : (s.fetched st t k).strandLoad st k (addr t) n = .ok bs v m) :
    ∃ u, s.loadOp st n addr put = .next u ∧ RetiredMem s u st (put t (leNat bs)).advance := by
  have hv := State.strandLoad_ok hl
  have hw := (State.strandLoad_writes (s.fetched st t k) st k (addr t) n).okGet hl
  have key := State.strandRun_retires (l := .freeCount :: .content :: strandParts) (l' := .content :: strandParts)
    (t1 := (put t (leNat bs)).advance) (om := v.depot.objects) h
    (fun t k s =>
      match s.strandLoad st k (addr t) n with
      | .ok b s m =>
        let (t, s) := s.dtlbUse k t (addr t).toNat n
        .ok ((put t (leNat b)).event 1 m).advance s
      | .trap c v => .trap c v
      | .wait s => .wait s
      | .full c cls s => .full c cls s) (fun tf h1 h2 h3 => by
      have he := v.dtlbUse_plain k tf (addr tf).toNat n
      have hm : Moves [.freeCount] v (v.dtlbUse k tf (addr tf).toNat n).2 := State.dtlbUse_writes ..
      have ea : addr tf = addr t := by rw [ha tf, h1, ← ha t]
      refine ⟨(((put (v.dtlbUse k tf (addr tf).toNat n).1 (leNat bs)).event 1 m).advance), (v.dtlbUse k tf (addr tf).toNat n).2, ?_, ?_, ?_, ?_, ?_, ?_⟩
      · dsimp only
        rw [ea, hl]
      · rw [StrandSt.advance_plain, StrandSt.event_plain, hp, he.1, h1, ← hp]
        rfl
      · show (put _ _).instret = (put _ _).instret
        rw [hi, hi, he.2, h2]
      · exact .of_eq ((hm.get .strands (by decide)).trans hv.1)
      · exact hm.get .content (by decide)
      · exact (h3.mono (Within.mk rfl)).trans ((hw.mono (Within.mk rfl)).trans (hm.mono (Within.mk rfl))))
    (Within.mk rfl)
  obtain ⟨u, k1, k2, k3, k4⟩ := key
  have hf : Moves fetchParts s (s.fetched st t k) := by
    obtain ⟨_, _, _, _, _, hm, _⟩ := State.strandRun_ready h (fun t _ s => .ok t s)
    exact hm
  refine ⟨u, k1, k2, ?_, k4.frame⟩
  exact (SameBytes.of_objects (hf.get .content (by decide))).trans (hv.2.trans (.of_objects k3))

/-- A load instruction that breaks a rule traps. -/
theorem State.loadOp_traps {s : State} {st : StrandRef} {t : StrandSt} {k : StrandTask} (h : StrandReady s st t k)
    (n : Nat) (addr : StrandSt → Word) (put : StrandSt → Nat → StrandSt) (ha : ∀ x, addr x = addr x.plain)
    {c : Nat} {w : Word} (hl : (s.fetched st t k).strandLoad st k (addr t) n = .trap c w) :
    s.loadOp st n addr put = .next ((s.fetched st t k).trapAfter st k.key c w) := by
  obtain ⟨tf, h1, _, _, ht, _, h4⟩ := State.strandRun_ready h
    (fun t k s =>
      match s.strandLoad st k (addr t) n with
      | .ok b s m =>
        let (t, s) := s.dtlbUse k t (addr t).toNat n
        .ok ((put t (leNat b)).event 1 m).advance s
      | .trap c v => .trap c v
      | .wait s => .wait s
      | .full c cls s => .full c cls s)
  have ea : addr tf = addr t := by rw [ha tf, h1, ← ha t]
  refine h4.trans ?_
  rw [ea, hl]
  unfold State.trapAfter
  rw [ht]

/-! ## Loads and stores by address space (R242 to R244) -/

theorem State.strandLoad_image {s : State} (st : StrandRef) {k : StrandTask} {r : Route} {a0 : Word} (n : Nat)
    (hr : s.route? k.key = some r) (h : addrSpace a0.toNat = 0) :
    s.strandLoad st k a0 n = if 2 ^ 47 < a0.toNat + n then .trap 4 a0 else s.imgLoad st k.key a0.toNat n a0 4 := by
  unfold State.strandLoad
  dsimp only
  rw [hr, h]
  rfl

theorem State.strandLoad_code {s : State} (st : StrandRef) {k : StrandTask} {r : Route} {a0 : Word} (n : Nat)
    (hr : s.route? k.key = some r) (h : addrSpace a0.toNat = 2) :
    s.strandLoad st k a0 n = s.windowLoad st k.key ((r.desc.stage k.stage).w 2) (fld ((r.desc.stage k.stage).w 3) 63 32)
      (a0.toNat % 2 ^ 61) n a0 := by
  unfold State.strandLoad
  dsimp only
  rw [hr, h]
  rfl

theorem State.strandLoad_params {s : State} (st : StrandRef) {k : StrandTask} {r : Route} {a0 : Word} (n : Nat)
    (hr : s.route? k.key = some r) (h : addrSpace a0.toNat = 3) :
    s.strandLoad st k a0 n = s.windowLoad st k.key ((r.desc.stage k.stage).w 4) (fld ((r.desc.stage k.stage).w 5) 63 48)
      (a0.toNat % 2 ^ 61) n a0 := by
  unfold State.strandLoad
  dsimp only
  rw [hr, h]
  rfl

theorem State.strandLoad_reserved {s : State} (st : StrandRef) {k : StrandTask} {r : Route} {a0 : Word} (n : Nat)
    (hr : s.route? k.key = some r) (h : 4 ≤ addrSpace a0.toNat) : s.strandLoad st k a0 n = .trap 4 a0 := by
  unfold State.strandLoad
  dsimp only
  rw [hr]
  dsimp only [Option.map_some]
  split <;> first | omega | rfl

theorem State.strandLoad_noObject {s : State} (st : StrandRef) {k : StrandTask} {r : Route} {a0 : Word} (n : Nat)
    (hr : s.route? k.key = some r) (h : addrSpace a0.toNat = 1) (ho : s.strandObj k a0.toNat = none) :
    s.strandLoad st k a0 n = .trap 4 a0 := by
  unfold State.strandLoad
  dsimp only
  rw [hr, h]
  dsimp only [Option.map_some]
  rw [ho]
  rfl

theorem State.strandLoad_refused {s : State} (st : StrandRef) {k : StrandTask} {r : Route} {a0 : Word} (n : Nat)
    {o : Nat} {ob : DObj} (hr : s.route? k.key = some r) (h : addrSpace a0.toNat = 1)
    (ho : s.strandObj k a0.toNat = some (o, ob))
    (hx : mayLoad k o ob = false ∨ s.strandLimit k o ob < a0.toNat % 2 ^ 40 + n) :
    s.strandLoad st k a0 n = .trap 4 a0 := by
  unfold State.strandLoad
  dsimp only
  rw [hr, h]
  dsimp only [Option.map_some]
  rw [ho]
  dsimp only
  rw [if_pos hx]
  rfl

/-- A load of an object that a task may read, other than its scratch object, answers the bytes of its range. -/
theorem State.strandLoad_object {s : State} (st : StrandRef) {k : StrandTask} {r : Route} {a0 : Word} (n : Nat)
    {o : Nat} {ob : DObj} (hr : s.route? k.key = some r) (h : addrSpace a0.toNat = 1)
    (ho : s.strandObj k a0.toNat = some (o, ob)) (hm : mayLoad k o ob = true) (hs : o ≠ k.scratch)
    (hl : a0.toNat % 2 ^ 40 + n ≤ s.objSpan ob) (hf : s.spillFault o ob (a0.toNat % 2 ^ 40) n = none)
    (hp : s.linesRead (s.physRidge st.ridge.val) (s.depotLines ob (a0.toNat % 2 ^ 40) n)) :
    ∃ v m, s.strandLoad st k a0 n =
      .ok (s.depotBytes (s.physRidge st.ridge.val) o ob (a0.toNat % 2 ^ 40) n) v m := by
  have hd : s.dobj? o = some ob := by
    unfold State.strandObj at ho
    dsimp only at ho
    repeat' split at ho
    all_goals cases ho
    assumption
  have hlim : ¬ (mayLoad k o ob = false ∨ s.strandLimit k o ob < a0.toNat % 2 ^ 40 + n) := by
    unfold State.strandLimit
    rw [hm, if_neg hs]
    simp
    omega
  have hpg : s.scratchPages k o (a0.toNat % 2 ^ 40) n = .ok s := by
    unfold State.scratchPages
    rw [if_neg hs]
  obtain ⟨h1, h2, h3⟩ := hp
  refine ⟨(s.touchLines st k.key (s.depotLines ob (a0.toNat % 2 ^ 40) n)).1,
    (s.touchLines st k.key (s.depotLines ob (a0.toNat % 2 ^ 40) n)).2, ?_⟩
  unfold State.strandLoad
  dsimp only
  rw [hr, h]
  dsimp only [Option.map_some]
  rw [ho]
  dsimp only
  rw [if_neg hlim, hpg]
  dsimp only
  rw [hd]
  dsimp only [Option.getD_some]
  unfold State.depotLoad
  dsimp only
  rw [State.settleLost_none h1, h2, h3, hf]
  rfl

/-- The bytes of a range that lies in this device's memory are the object's. -/
theorem State.depotBytes_here {s : State} {ridge o : Nat} {ob : DObj} {off n : Nat}
    (h : ∀ l ∈ s.depotLines ob off n, lineDev l = s.sys.deviceId) : s.depotBytes ridge o ob off n = ob.readN o off n := by
  unfold State.depotBytes
  rw [if_pos (List.all_eq_true.mpr fun l hl => by simpa using h l hl)]

theorem State.storeCheck_elsewhere {s : State} {k : StrandTask} {a0 : Word} (n : Nat) (h : addrSpace a0.toNat ≠ 1) :
    s.storeCheck k a0 n = .trap 5 a0 := by
  unfold State.storeCheck
  dsimp only
  rw [if_pos h]

theorem State.storeCheck_noObject {s : State} {k : StrandTask} {a0 : Word} (n : Nat) (h : addrSpace a0.toNat = 1)
    (ho : s.strandObj k a0.toNat = none) : s.storeCheck k a0 n = .trap 5 a0 := by
  unfold State.storeCheck
  dsimp only
  rw [if_neg (by rw [h]; decide), ho]

theorem State.storeCheck_refused {s : State} {k : StrandTask} {a0 : Word} (n : Nat) {o : Nat} {ob : DObj}
    (h : addrSpace a0.toNat = 1) (ho : s.strandObj k a0.toNat = some (o, ob))
    (hx : mayStore k o = false ∨ s.strandLimit k o ob < a0.toNat % 2 ^ 40 + n) : s.storeCheck k a0 n = .trap 5 a0 := by
  unfold State.storeCheck
  dsimp only
  rw [if_neg (by rw [h]; decide), ho]
  dsimp only
  rw [if_pos hx]

theorem State.storeCheck_object {s : State} {k : StrandTask} {a0 : Word} (n : Nat) {o : Nat} {ob : DObj}
    (h : addrSpace a0.toNat = 1) (ho : s.strandObj k a0.toNat = some (o, ob)) (hm : mayStore k o = true)
    (hs : o ≠ k.scratch) (hl : a0.toNat % 2 ^ 40 + n ≤ s.objSpan ob)
    (hf : s.spillFault o ob (a0.toNat % 2 ^ 40) n ≠ some 6) : s.storeCheck k a0 n = .ok [] s 0 := by
  have hlim : ¬ (mayStore k o = false ∨ s.strandLimit k o ob < a0.toNat % 2 ^ 40 + n) := by
    unfold State.strandLimit
    rw [hm, if_neg hs]
    simp
    omega
  unfold State.storeCheck State.scratchPages
  dsimp only
  rw [if_neg (by rw [h]; decide), ho]
  dsimp only
  rw [if_neg hlim, if_neg hs]
  dsimp only
  rw [if_neg hf]

/-! ## Stores -/

theorem State.storeCheck_ok {s t : State} {k : StrandTask} {a0 : Word} {n : Nat} {bs : List Byte} {m : Nat}
    (h : s.storeCheck k a0 n = .ok bs t m) : t.strands = s.strands ∧ SameBytes s t := by
  have hw := (State.storeCheck_writes s k a0 n).okGet h
  refine ⟨hw.get .strands (by decide), ?_⟩
  unfold State.storeCheck at h
  dsimp only at h
  repeat' split at h
  all_goals cases h
  exact State.scratchPages_sameBytes (by assumption)

theorem State.storeCheck_trap {s : State} {k : StrandTask} {a0 : Word} {n : Nat} {c : Nat} {v : Word}
    (h : s.storeCheck k a0 n = .trap c v) : c ∈ [5, 6] ∧ v = a0 := by
  unfold State.storeCheck at h
  dsimp only at h
  repeat' split at h
  all_goals cases h
  all_goals simp

/-- The strand's one store is in the queue. -/
def StrandSt.stored (t : StrandSt) (addr : Word) (bs : List Byte) : StrandSt := { t with queue := [{ addr := addr, bytes := bs }] }

theorem natLe_length (n x : Nat) : (natLe n x).length = n := by
  induction n generalizing x with
  | zero => rfl
  | succ n ih => exact congrArg (· + 1) (ih _)

theorem overQueue_one (e : StoreEnt) (h : e.bytes.length ≤ 256) : overQueue [e] = 0 := by
  unfold overQueue
  rw [if_neg]
  simp only [List.map_cons, List.map_nil, sumNat, List.foldl_cons, List.foldl_nil, ceilDiv]
  rw [if_neg (by decide)]
  omega

/-- A store instruction whose address may be written retires. -/
theorem State.storeOp_retires {s : State} {st : StrandRef} {t : StrandSt} {k : StrandTask} (h : StrandReady s st t k)
    (n : Nat) (hn : n ≤ 256) (rs1 : Fin 32) (imm : BitVec 16) (val : StrandSt → Nat) (hv : ∀ x, val x = val x.plain)
    {bs : List Byte} {v : State} {m : Nat}
    (hl : (s.fetched st t k).storeCheck k (t.rg rs1 + sext16 imm) n = .ok bs v m) :
    ∃ u, s.storeOp st n rs1 imm val = .next u ∧
      RetiredMem s u st (t.stored (t.rg rs1 + sext16 imm) (natLe n (val t))).advance := by
  have hk := State.storeCheck_ok hl
  have hw := (State.storeCheck_writes (s.fetched st t k) k (t.rg rs1 + sext16 imm) n).okGet hl
  have key := State.strandRun_retires (l := .freeCount :: .content :: strandParts) (l' := .content :: strandParts)
    (t1 := (t.stored (t.rg rs1 + sext16 imm) (natLe n (val t))).advance) (om := v.depot.objects) h
    (fun t k s =>
      let a := t.rg rs1 + sext16 imm
      match s.storeCheck k a n with
      | .ok _ s _ =>
        let (t, s) := s.dtlbUse k t a.toNat n
        s.enqueue st k t [{ addr := a, bytes := natLe n (val t) }]
      | .trap c v => .trap c v
      | .wait s => .wait s
      | .full c cls s => .full c cls s) (fun tf h1 h2 h3 => by
      have ea : tf.rg rs1 = t.rg rs1 := StrandSt.rg_of_plain h1 _
      have he := v.dtlbUse_plain k tf (t.rg rs1 + sext16 imm).toNat n
      have hm : Moves [.freeCount] v (v.dtlbUse k tf (t.rg rs1 + sext16 imm).toNat n).2 := State.dtlbUse_writes ..
      generalize hx : v.dtlbUse k tf (t.rg rs1 + sext16 imm).toNat n = x at he hm
      have ev : val x.1 = val t := by rw [hv, he.1, h1, ← hv]
      have hq : overQueue [{ addr := t.rg rs1 + sext16 imm, bytes := natLe n (val x.1) }] = 0 :=
        overQueue_one _ (by rw [natLe_length]; exact hn)
      have hs : Moves [.strands] x.2 (x.2.setStrand st.ridge.val st.strand.val
          { x.2.strand st.ridge.val st.strand.val with evt := x.1.evt }) := State.setStrand_writes ..
      refine ⟨({ x.1 with
          queue := [{ addr := t.rg rs1 + sext16 imm, bytes := natLe n (val x.1) }]
          evt := ((x.2.setStrand st.ridge.val st.strand.val { x.2.strand st.ridge.val st.strand.val with
            evt := x.1.evt }).strand st.ridge.val st.strand.val).evt } : StrandSt).advance,
        x.2.setStrand st.ridge.val st.strand.val { x.2.strand st.ridge.val st.strand.val with evt := x.1.evt },
        ?_, ?_, ?_, ?_, ?_, ?_⟩
      · dsimp only
        rw [ea, hl]
        dsimp only
        rw [hx]
        unfold State.enqueue
        dsimp only
        rw [hq]
        rfl
      · refine StrandSt.advance_of_plain ?_
        show StrandSt.stored x.1.plain _ _ = StrandSt.stored t.plain _ _
        rw [he.1, h1, ev]
      · show x.1.instret = t.instret
        rw [he.2, h2]
      · intro key hk'
        refine (State.setStrand_other _ _ _ _ hk').trans ?_
        rw [hm.get .strands (by decide), hk.1]
      · exact (hs.get .content (by decide)).trans (hm.get .content (by decide))
      · exact (h3.mono (Within.mk rfl)).trans ((hw.mono (Within.mk rfl)).trans ((hm.mono (Within.mk rfl)).trans
          (hs.mono (Within.mk rfl)))))
    (Within.mk rfl)
  obtain ⟨u, k1, k2, k3, k4⟩ := key
  have hf : Moves fetchParts s (s.fetched st t k) := by
    obtain ⟨_, _, _, _, _, hm, _⟩ := State.strandRun_ready h (fun t _ s => .ok t s)
    exact hm
  refine ⟨u, k1, k2, ?_, k4.frame⟩
  exact (SameBytes.of_objects (hf.get .content (by decide))).trans (hk.2.trans (.of_objects k3))

/-- A store instruction whose address may not be written traps. -/
theorem State.storeOp_traps {s : State} {st : StrandRef} {t : StrandSt} {k : StrandTask} (h : StrandReady s st t k)
    (n : Nat) (rs1 : Fin 32) (imm : BitVec 16) (val : StrandSt → Nat) {c : Nat} {w : Word}
    (hl : (s.fetched st t k).storeCheck k (t.rg rs1 + sext16 imm) n = .trap c w) :
    s.storeOp st n rs1 imm val = .next ((s.fetched st t k).trapAfter st k.key c w) := by
  obtain ⟨tf, h1, _, _, ht, _, h4⟩ := State.strandRun_ready h
    (fun t k s =>
      let a := t.rg rs1 + sext16 imm
      match s.storeCheck k a n with
      | .ok _ s _ =>
        let (t, s) := s.dtlbUse k t a.toNat n
        s.enqueue st k t [{ addr := a, bytes := natLe n (val t) }]
      | .trap c v => .trap c v
      | .wait s => .wait s
      | .full c cls s => .full c cls s)
  refine h4.trans ?_
  dsimp only
  rw [StrandSt.rg_of_plain h1, hl]
  unfold State.trapAfter
  rw [ht]

end Sys2Proof.Machine
end

