-- ==== Sys2Proof/Laws/Vector.lean ====
section
/-! SUPPORT. The elements of vector registers, and the shapes of vector instructions: what each shape does when its fields
are legal, and its trap when they are not. -/
namespace Sys2Proof.Machine
open Sys2Proof

/-! ## Elements (R282) -/

/-- A number spelled by digits of some bits, low digit first. -/
theorem packFold_eq (bits : Nat) (l : List Nat) (acc j : Nat) :
    (l.zipIdx j).foldl (fun acc p => acc + p.1 % 2 ^ bits * 2 ^ (bits * p.2)) acc =
      acc + 2 ^ (bits * j) * (l.zipIdx 0).foldl (fun acc p => acc + p.1 % 2 ^ bits * 2 ^ (bits * p.2)) 0 := by
  induction l generalizing acc j with
  | nil => simp
  | cons x l ih =>
    simp only [List.zipIdx_cons, List.foldl_cons]
    rw [ih, ih (acc := 0 + x % 2 ^ bits * 2 ^ (bits * 0)) (j := 0 + 1)]
    have e : 2 ^ (bits * (j + 1)) = 2 ^ (bits * j) * 2 ^ (bits * (0 + 1)) := by
      rw [← Nat.pow_add]
      congr 1
      ring
    rw [e]
    ring

/-- The digits of a number spelled by digits. -/
theorem packFold_digit (bits : Nat) (l : List Nat) (i : Nat) (h : i < l.length) :
    (l.zipIdx 0).foldl (fun acc p => acc + p.1 % 2 ^ bits * 2 ^ (bits * p.2)) 0 / 2 ^ (bits * i) % 2 ^ bits =
      l[i] % 2 ^ bits := by
  induction l generalizing i with
  | nil => cases h
  | cons x l ih =>
    simp only [List.zipIdx_cons, List.foldl_cons]
    rw [packFold_eq]
    simp only [Nat.zero_add, Nat.mul_zero, Nat.pow_zero, Nat.mul_one]
    cases i with
    | zero =>
      simp
    | succ i =>
      have hb : x % 2 ^ bits < 2 ^ bits := Nat.mod_lt _ (Nat.two_pow_pos _)
      have e : 2 ^ (bits * (i + 1)) = 2 ^ bits * 2 ^ (bits * i) := by rw [← Nat.pow_add]; congr 1; ring
      rw [e, ← Nat.div_div_eq_div_mul, Nat.add_mul_div_left _ _ (Nat.two_pow_pos _), Nat.div_eq_of_lt hb, Nat.zero_add,
        ih i (by simpa using h)]
      simp

theorem packFold_lt (bits : Nat) (l : List Nat) :
    (l.zipIdx 0).foldl (fun acc p => acc + p.1 % 2 ^ bits * 2 ^ (bits * p.2)) 0 < 2 ^ (bits * l.length) := by
  induction l with
  | nil => simp
  | cons x l ih =>
    simp only [List.zipIdx_cons, List.foldl_cons]
    rw [packFold_eq]
    simp only [Nat.zero_add, Nat.mul_zero, Nat.pow_zero, Nat.mul_one, List.length_cons]
    have hb : x % 2 ^ bits < 2 ^ bits := Nat.mod_lt _ (Nat.two_pow_pos _)
    have e : 2 ^ (bits * (l.length + 1)) = 2 ^ bits * 2 ^ (bits * l.length) := by rw [← Nat.pow_add]; congr 1; ring
    rw [e]
    calc _ < 2 ^ bits + 2 ^ bits * _ := Nat.add_lt_add_right hb _
      _ = 2 ^ bits * (_ + 1) := by ring
      _ ≤ _ := Nat.mul_le_mul_left _ ih

/-- An element of a packed register. -/
theorem packReg_digit (bits : Nat) (l : List Nat) (i : Nat) (h : i < l.length) (hl : bits * l.length ≤ 512) :
    (packReg bits l).toNat / 2 ^ (bits * i) % 2 ^ bits = l[i] % 2 ^ bits := by
  unfold packReg
  rw [BitVec.toNat_ofNat, Nat.mod_eq_of_lt (Nat.lt_of_lt_of_le (packFold_lt bits l) (Nat.pow_le_pow_right (by decide) hl))]
  exact packFold_digit bits l i h

/-- The registers that a group write sets. -/
theorem putFold_get (per bits base : Nat) (l : List Nat) (t : StrandSt) (n : Nat) (hb : base + n ≤ 32) (r : Fin 32) :
    ((List.range n).foldl (fun t r =>
      { t with v := t.v.set (vIdx (base + r)) (packReg bits ((l.drop (r * per)).take per)) }) t).v[r] =
      if base ≤ r.val ∧ r.val < base + n then packReg bits ((l.drop ((r.val - base) * per)).take per) else t.v[r] := by
  induction n with
  | zero =>
    rw [if_neg (by omega)]
    rfl
  | succ n ih =>
    rw [List.range_succ, List.foldl_append]
    have hi := ih (by omega)
    have hv : (vIdx (base + n)).val = base + n := Nat.mod_eq_of_lt (by omega)
    simp only [List.foldl_cons, List.foldl_nil]
    by_cases hr : r.val = base + n
    · have e : r = vIdx (base + n) := Fin.ext (by rw [hv, hr])
      rw [if_pos (by omega)]
      subst e
      have : (vIdx (base + n)).val - base = n := by omega
      rw [this]
      exact Vector.getElem_set_self _
    · have hne : (vIdx (base + n)).val ≠ r.val := by rw [hv]; exact Ne.symm hr
      have : ∀ (w : Vector Vec 32) (x : Vec), (w.set (vIdx (base + n)) x)[r] = w[r] := fun w x =>
        Vector.getElem_set_ne _ _ hne
      rw [this, hi]
      by_cases hin : base ≤ r.val ∧ r.val < base + n
      · rw [if_pos hin, if_pos (by omega)]
      · rw [if_neg hin, if_neg (by omega)]

theorem putFold_rest (per bits base : Nat) (l : List Nat) (t : StrandSt) (v : Vector Vec 32) (n : Nat) :
    { (List.range n).foldl (fun t r =>
      { t with v := t.v.set (vIdx (base + r)) (packReg bits ((l.drop (r * per)).take per)) }) t with v := v } =
      { t with v := v } := by
  induction n with
  | zero => rfl
  | succ n ih =>
    rw [List.range_succ, List.foldl_append]
    simp only [List.foldl_cons, List.foldl_nil]
    exact ih

/-! ## The shapes of vector instructions (R284) -/

/-- Illegal fields raise ILLEGAL with the word. -/
theorem State.vrun_illegal {s : State} {st : StrandRef} {t : StrandSt} {k : StrandTask} (h : StrandReady s st t k)
    (hh : t.handles = true) (op f : Nat) (a : VArgs) (ok : StrandSt → Bool) (body : StrandSt → StrandTask → State → SEff)
    (hok : ∀ x, ok x = ok x.plain) (hn : ok t = false) :
    ∃ u, s.vrun st op f a ok body = .next u ∧ TrapTaken s u st t 2 (BitVec.ofNat 64 (Decode.wordV op f a)) :=
  State.strandRun_traps h hh rfl _ fun tf h1 => by
    show (if ok tf = true then _ else _) = _
    rw [hok tf, h1, ← hok t, hn]
    rfl

/-- Legal fields: an instruction that writes registers only retires. -/
theorem State.vrun_retires {s : State} {st : StrandRef} {t : StrandSt} {k : StrandTask} (h : StrandReady s st t k)
    (op f : Nat) (a : VArgs) (ok : StrandSt → Bool) (g : StrandSt → StrandSt)
    (hok : ∀ x, ok x = ok x.plain) (hy : ok t = true) (hg : ∀ x, (g x).plain = (g x.plain).plain)
    (hi : ∀ x, (g x).instret = x.instret) :
    ∃ u, s.vrun st op f a ok (fun t _ s => .ok (g t).advance s) = .next u ∧ Retired s u st (g t).advance :=
  State.strandRun_pure h _ fun tf sf h1 h2 => by
    refine ⟨(g tf).advance, sf, ?_, ?_, ?_, Moves.refl _ _⟩
    · show (if ok tf = true then _ else _) = _
      rw [hok tf, h1, ← hok t, hy]
      rfl
    · rw [StrandSt.advance_plain, StrandSt.advance_plain, hg tf, h1, ← hg t]
    · rw [StrandSt.advance_instret, StrandSt.advance_instret, hi, hi, h2]

theorem foldl_plain {α : Type} (f : StrandSt → α → StrandSt) (hf : ∀ t x, (f t x).plain = f t.plain x) (l : List α)
    (t : StrandSt) : (l.foldl f t).plain = l.foldl f t.plain := by
  induction l generalizing t with
  | nil => rfl
  | cons x l ih => rw [List.foldl_cons, List.foldl_cons, ih, hf]

theorem foldl_instret {α : Type} (f : StrandSt → α → StrandSt) (hf : ∀ t x, (f t x).instret = t.instret) (l : List α)
    (t : StrandSt) : (l.foldl f t).instret = t.instret := by
  induction l generalizing t with
  | nil => rfl
  | cons x l ih => rw [List.foldl_cons, ih, hf]

theorem StrandSt.putElems_plain (t : StrandSt) (a : VArgs) (base : Fin 32) (l : List Nat) :
    (t.putElems a base l).plain = t.plain.putElems a base l := foldl_plain _ (fun _ _ => rfl) _ t

theorem StrandSt.putElems_instret (t : StrandSt) (a : VArgs) (base : Fin 32) (l : List Nat) :
    (t.putElems a base l).instret = t.instret := by
  unfold StrandSt.putElems
  exact foldl_instret _ (by intros; rfl) _ t

theorem StrandSt.putActive_plain (t : StrandSt) (a : VArgs) (act : List Nat) (f : Nat → Nat) :
    (t.putActive a act f).plain = t.plain.putActive a act f := StrandSt.putElems_plain ..

theorem StrandSt.putActive_instret (t : StrandSt) (a : VArgs) (act : List Nat) (f : Nat → Nat) :
    (t.putActive a act f).instret = t.instret := StrandSt.putElems_instret ..

theorem StrandSt.elem_plain (t : StrandSt) (a : VArgs) (b : Fin 32) (i : Nat) : t.plain.elem a b i = t.elem a b i := rfl
theorem StrandSt.actives_plain (t : StrandSt) (a : VArgs) : t.plain.actives a = t.actives a := rfl
theorem StrandSt.regOk_plain (t : StrandSt) (a : VArgs) (r : Fin 32) : t.plain.regOk a r = t.regOk a r := rfl

end Sys2Proof.Machine
end

