-- ==== Sys2Proof/WellFormed.lean ====
section
/-! DEFINITION. Which operands a command admits: the field widths and ranges of the spec's tables. -/
namespace Sys2Proof

/-- A route is named within its field widths (R66). -/
def RouteKey.wf (k : RouteKey) : Bool := decide (k.tenant < 32) && decide (k.id < 2 ^ 32) && decide (k.home < 16)

/-- An entry is one to nineteen units of eight 64-bit words (R375). -/
def Entry.wf (e : Entry) : Bool :=
  decide (e.tenant < 32) && decide (e.qid < 256) && decide (e.words.length % 8 = 0)
    && decide (0 < e.words.length) && e.words.all (fun w => decide (w < 2 ^ 64))

/-- The widths of Table 11.4; a line is named by its address, a multiple of 64 (R311). -/
def CohMsg.wf (m : CohMsg) : Bool :=
  decide (m.op < 256) && decide (m.src < 2 ^ 12) && decide (m.dst < 2 ^ 12) && decide (m.txn < 2 ^ 16)
    && decide (m.aux < 2 ^ 16) && decide (m.token < 512) && decide (m.line < 2 ^ 48) && decide (m.line % 64 = 0) && decide (m.mask < 2 ^ 64) && decide (m.state < 8)
    && (m.data.isEmpty || decide (m.data.length = 64))

/-- The widths of Table 12.7. -/
def SvcMsg.wf (m : SvcMsg) : Bool :=
  decide (m.op < 256) && decide (m.source < 16) && decide (m.dest < 16) && decide (m.tenant < 32)
    && decide (m.route < 2 ^ 32) && decide (m.arg < 2 ^ 64) && decide (m.slot1 < 2 ^ 128)
    && decide (m.slot2 < 2 ^ 128)

/-- The widths of Table 02.4. -/
def BelayAck.wf (a : BelayAck) : Bool :=
  decide (a.slotSource < 16) && decide (a.dest < 16) && decide (a.routeId < 2 ^ 32)
    && decide (a.tenant < 32) && decide (a.kind < 16) && decide (a.source < 16) && decide (a.home < 16)

/-- A coded flit that arrives at a port (R346, R347). -/
def flitWf (p : Nat) (coded : List Byte) : Bool := decide (p < 4) && coded.length == 272

/-- A logical ridge and one of eight SCN contexts (R387). -/
def ScnCtx.wf (c : ScnCtx) : Bool := decide (c.ridge < 16) && decide (c.ctx < 8)

/-- The widths of Table 04.5. -/
def FArgs.wf (a : FArgs) : Bool :=
  decide (a.d < 16) && decide (a.a < 16) && decide (a.b < 16) && decide (a.g < 16) && decide (a.n < 4)
    && decide (a.imm < 65536)

/-- A mailbox source names a tenant (R465). -/
def BrixSrc.wf : BrixSrc → Bool
  | .udp _ port => decide (port < 65536)
  | .smbus => true
  | .mailbox t => decide (t < 32)

/-- The widths of Table 16.3. -/
def BrixReq.wf (r : BrixReq) : Bool :=
  r.src.wf && decide (r.version < 256) && decide (r.op < 256) && decide (r.seq < 2 ^ 16)
    && decide (r.session < 2 ^ 32) && decide (r.check < 2 ^ 128)

/-- A register or object write within its ranges (R8, Table 13.4). -/
def RegWrite.wf : RegWrite → Bool
  | .bar0 t o w v => decide (t < 32) && decide (o < 65536) && decide (w = 4 ∨ w = 8) && decide (v < 2 ^ 64)
  | .object i m _ => decide (i < 65536) && decide (m < 256)

/-- Physical ridges 0 to 16 and strands 0 to 8, logical ridges 0 to 15 of 4 banks of 4,096 rows of 94 bits, devices 0 to 15,
tenants 0 to 31, line addresses of 48 bits, and at most the symbols of a line (R16, R17, R160, R432). -/
def CacheArray.wf : CacheArray → Bool
  | .l1d r k => decide (r < 17) && decide (k < 9)
  | .l1i r k => decide (r < 17) && decide (k < 9)
  | .l2 r => decide (r < 17)
  | .slc => true

@[inherit_doc CacheArray.wf]
def Resource.wf : Resource → Bool
  | .strand r k => decide (r < 17) && decide (k < 9)
  | .ridge r => decide (r < 17)
  | .path d => decide (d < 16)
  | .registers r k => decide (r < 17) && decide (k < 9)
  | .itt r k i => decide (r < 17) && decide (k < 9) && decide (i < 512)
  | .array a l _ => a.wf && decide (l < 2 ^ 48) && decide (l % 64 = 0)
  | .cairnRow q b row bit => decide (q < 16) && decide (b < 4) && decide (row < 4096) && decide (bit < 94)
  | .memory l _ d c => decide (l < 2 ^ 48) && decide (l % 64 = 0) && decide (d.length ≤ 64) && decide (c.length ≤ 16)
  | .depotMap (some t) => decide (t < 32)
  | .depotMap none => true
  | .basecamp => true

/-- The operands of every command are within their fields; a row whose operands are typed to their ranges
has nothing to check. -/
def Instr.wf : Instr → Bool
  | .tickMarker port _ _ _ _ => decide (port < 4)
  | .belayAck a => a.wf
  | .resourceFailure r => r.wf
  | .spanRestart k => k.wf
  | .wqTailDoorbell tenant qid value => decide (tenant < 32) && decide (qid < 256) && decide (value < 2 ^ 32)
  | .cqHeadDoorbell tenant qid value => decide (tenant < 32) && decide (qid < 256) && decide (value < 2 ^ 32)
  | .wqStallTimeout tenant qid => decide (tenant < 32) && decide (qid < 256)
  | .submitRoute e => e.wf
  | .createWq e => e.wf
  | .deleteWq e => e.wf
  | .createCq e => e.wf
  | .deleteCq e => e.wf
  | .setQuota e => e.wf
  | .grantSpill e => e.wf
  | .revokeSpill e => e.wf
  | .openOutput e => e.wf
  | .closeOutput e => e.wf
  | .setWeight e => e.wf
  | .logStart e => e.wf
  | .logStop e => e.wf
  | .getLogErrorRecords e => e.wf
  | .getLogCounters e => e.wf
  | .getLogOpenRoutes e => e.wf
  | .abortRoute e => e.wf
  | .loadCairn e => e.wf
  | .aqEnable tenant => decide (tenant < 32)
  | .aqDisable tenant => decide (tenant < 32)
  | .mbControlGo tenant => decide (tenant < 32)
  | .registerWrite w => w.wf
  | .msixCoalesceTimeout tenant qid => decide (tenant < 32) && decide (qid < 256)
  | .functionLevelReset tenant => decide (tenant < 32)
  | .managementReset tenant => decide (tenant < 32)
  | .tenantResetComplete tenant => decide (tenant < 32)
  | .hostPortReset port => decide (port < 2)
  | .perstNRelease port => decide (port < 2)
  | .malformedTlp port link => decide (port < 2) && decide (link < 4)
  | .hostReadCompletion tenant _ _ => decide (tenant < 32)
  | .cxlMemRead addr => decide (addr % 64 = 0) && decide (addr < 2 ^ 47)
  | .cxlMemWrite addr data => decide (addr % 64 = 0) && decide (addr < 2 ^ 47) && decide (data.length = 64)
  | .cxlMemPartialWrite addr mask data => decide (addr % 64 = 0) && decide (addr < 2 ^ 47) && decide (mask < 2 ^ 64) && decide (data.length = 64)
  | .dmaCopy e => e.wf
  | .compress e => e.wf
  | .decompress e => e.wf
  | .digestOpen e => e.wf
  | .digestFeed e => e.wf
  | .digestRead e => e.wf
  | .dmaStop e => e.wf
  | .dmaResume e => e.wf
  | .dmaFlush e => e.wf
  | .channelEntryStart ch => decide (ch < 64)
  | .engineEntryComplete ch => decide (ch < 64)
  | .channelHalt ch _ => decide (ch < 64)
  | .suspendLimitExpiry k => k.wf
  | .publicationResume k => k.wf
  | .taskDispatch ridge _ => decide (ridge < 16)
  | .taskDone ridge _ ctx => decide (ridge < 16) && decide (ctx < 8)
  | .joinSeal k _ ridge => k.wf && decide (ridge < 16)
  | .summitMerge k _ => k.wf
  | .publicationDone k => k.wf
  | .rdShared m => m.wf
  | .rdOwn m => m.wf
  | .upgrade m => m.wf
  | .rdNc m => m.wf
  | .wrNc m => m.wf
  | .cmoClean m => m.wf
  | .cmoCleaninval m => m.wf
  | .cmoInval m => m.wf
  | .tokenReturn m => m.wf
  | .snpShared m => m.wf
  | .snpInv m => m.wf
  | .snpData m => m.wf
  | .snpClean m => m.wf
  | .fwdShared m => m.wf
  | .fwdOwn m => m.wf
  | .snpDiscard m => m.wf
  | .gangRd m => m.wf
  | .gangOwn m => m.wf
  | .cohAck m => m.wf
  | .ackLost m => m.wf
  | .cohRetry m => m.wf
  | .cohGrant m => m.wf
  | .cohCmp m => m.wf
  | .wbAck m => m.wf
  | .ownerMoved m => m.wf
  | .cohData m => m.wf
  | .snpDataRsp m => m.wf
  | .wbDirty m => m.wf
  | .evictClean m => m.wf
  | .pdSet m => m.wf
  | .heartbeat port _ _ _ _ => decide (port < 4)
  | .heartbeatTimeout device => decide (device < 16)
  | .snoopTimeout device => decide (device < 16)
  | .deathNotice m => m.wf
  | .portEnable p => decide (p < 4)
  | .trainingTimeout p => decide (p < 4)
  | .payloadFlit p b c => flitWf p (b ++ c) && b.length == 256
  | .linkIdle p b => flitWf p b
  | .widthChange p b => flitWf p b
  | .retrain p b => flitWf p b
  | .latencyProbe p b => flitWf p b
  | .latencyEcho p b => flitWf p b
  | .portLost p b => flitWf p b
  | .flitReplayTimeout p => decide (p < 4)
  | .laneLockLost p lane => decide (p < 4) && decide (lane < 16)
  | .laneErrorInterval p => decide (p < 4)
  | .widthSwitchDone p => decide (p < 4)
  | .retrainCmd p => decide (p < 4)
  | .retrainDone p lanes => decide (p < 4) && decide (lanes < 65536)
  | .routeOpen m => m.wf
  | .routeEnd m => m.wf
  | .pageAlloc m => m.wf
  | .pageGrant m => m.wf
  | .quotaDraw m => m.wf
  | .quotaGrant m => m.wf
  | .quotaReturn m => m.wf
  | .ropeNotice m => m.wf
  | .summitEntry m => m.wf
  | .summitClose m => m.wf
  | .linkNak p _ => decide (p < 4)
  | .refresh ch => decide (ch < 18)
  | .dimmTempSample ch _ => decide (ch < 16)
  | .scrubStep ch => decide (ch < 18)
  | .channelFailure ch => decide (ch < 16)
  | .faultWindowExpiry ch => decide (ch < 18)
  | .remapRead ch => decide (ch < 18)
  | .brixPing r => r.wf
  | .brixRead r => r.wf
  | .brixWrite r => r.wf
  | .brixList r => r.wf
  | .sessionOpen r => r.wf
  | .sessionFinish r => r.wf
  | .sessionClose r => r.wf
  | .measure r => r.wf
  | .eventAck r => r.wf
  | .authLockoutExpiry src => src.wf
  | .getVersion port link _ => decide (port < 2) && decide (link < 4)
  | .getCapabilities port link _ => decide (port < 2) && decide (link < 4)
  | .negotiateAlgorithms port link _ => decide (port < 2) && decide (link < 4)
  | .getDigests port link _ => decide (port < 2) && decide (link < 4)
  | .getCertificate port link _ => decide (port < 2) && decide (link < 4)
  | .challenge port link _ => decide (port < 2) && decide (link < 4)
  | .getMeasurements port link _ => decide (port < 2) && decide (link < 4)
  | .spdmUnsupportedRequest port link _ => decide (port < 2) && decide (link < 4)
  | .otpWrite r => r.wf
  | .measExtend r => r.wf
  | .ridgeRetire ridge => decide (ridge < 17)
  | .ridgeUnretire ridge => decide (ridge < 17)
  | .thermalSample centi => decide (centi.length = 22)
  | .railCurrentLimit rail => decide (rail < 7)
  | .railUndervoltage rail => decide (rail < 7)
  | .filterLdCol c a => c.wf && a.wf
  | .filterEq c a => c.wf && a.wf
  | .filterNe c a => c.wf && a.wf
  | .filterLt c a => c.wf && a.wf
  | .filterLe c a => c.wf && a.wf
  | .filterGt c a => c.wf && a.wf
  | .filterGe c a => c.wf && a.wf
  | .filterBetween c a => c.wf && a.wf
  | .filterIsNull c a => c.wf && a.wf
  | .filterInList c a => c.wf && a.wf
  | .filterInCairn c a => c.wf && a.wf
  | .prefixMatch c a => c.wf && a.wf
  | .suffixMatch c a => c.wf && a.wf
  | .filterAnd c a => c.wf && a.wf
  | .filterOr c a => c.wf && a.wf
  | .filterNot c a => c.wf && a.wf
  | .filterIsTrue c a => c.wf && a.wf
  | .filterIsFalse c a => c.wf && a.wf
  | .filterIsUnknown c a => c.wf && a.wf
  | .filterAdd c a => c.wf && a.wf
  | .filterSub c a => c.wf && a.wf
  | .filterMul c a => c.wf && a.wf
  | .filterDiv c a => c.wf && a.wf
  | .filterMod c a => c.wf && a.wf
  | .filterNeg c a => c.wf && a.wf
  | .filterCast c a => c.wf && a.wf
  | .filterHash64 c a => c.wf && a.wf
  | .filterCrc32c c a => c.wf && a.wf
  | .lockAndEqualise p lanes => decide (p < 4) && decide (lanes < 2 ^ 16)
  | .railCurrentFall rail => decide (rail < 7)
  | .brixViolation src _ => src.wf
  | .configurationRequest port => decide (port < 2)
  | _ => true

end Sys2Proof
end

