-- ==== Sys2Proof/Tests/Slice0.lean ====
section
/-! SUPPORT. Tests and witnesses: ill-formed operands are refused, one step on small states for every family of commands, and
states that meet the hypotheses of the statements. Expected values are worked out from the spec. -/
namespace Sys2Proof.Tests
open Sys2Proof Sys2Proof.Machine

set_option Elab.async false
set_option linter.all false

/-! ## Small states -/

/-- Whether a command goes on to a state of which `p` holds. -/
def after (c : Instr) (s : State) (p : State → Bool) : Bool :=
  match exec c s with
  | .next t => p t
  | _ => false

/-- A device that is OPERATIONAL and alone, in pitch 5. -/
def live : State :=
  { State.reset with
    now := 1000
    sys := { SysSt.reset with phase := .ready, state := .operational, rstN := true, formed := true }
    pitch := { PitchSt.reset with running := true, number := 5 } }

def key3 : RouteKey := { tenant := 3, id := 7, home := 0 }

/-- A stage whose code and parameters lie in host memory: 4,096 bytes of code at 0, 64 bytes of parameters at 8,192. -/
def codeStage (kind : Nat) : Stage :=
  { stageOf [] with kind := kind, words := [0, 0, 2 ^ 63, 4096 * 2 ^ 32, 2 ^ 63 + 8192, 64 * 2 ^ 48, 0, 0] }

def aDesc : RouteDesc := { emptyDesc (headerOf []) 3 with stages := [codeStage kStrand] }

def aRoute : Route := Route.fresh key3 aDesc [] 0 0 0

/-- A page in host memory. -/
def aPage (o : Nat) : Page :=
  { obj := o, index := 0, tier := 3, addr := 65536 * o, size := 65536, spanPitch := 0, key := some key3, pdMark := 0
    pdLines := [] }

def anObj (cls : Nat) (pages : List Nat) : DObj :=
  { cls := cls, key := some key3, ridge := 2, pages := pages, content := .bytes [(0, 0x80), (1, 0x7F), (3, 0xFF)], forms := []
    dying := false }

def st21 : StrandRef := { ridge := 2, strand := 1 }

/-- A task with its input rope in object 1, its output rope in object 2 and its scratch object 3. -/
def aTask : StrandTask :=
  { key := key3, stage := 0, input := objKey 3 1, out := objKey 3 2, scratch := objKey 3 3, closed := [] }

def aStrand : StrandSt :=
  { StrandSt.idle with
    task := some aTask
    g := ((((Vector.replicate 32 0#64).set 1 0xFFFFFFFFFFFFFFF8#64).set 2 3#64).set 4 0x8000000000000000#64).set 5
      (BitVec.allOnes 64) }

/-- A strand in its task on ridge 2. -/
def running (t : StrandSt) : State :=
  { live with
    routes := [aRoute]
    strands := [(strandKey 2 1, t)]
    depot := { live.depot with
      objects := [(objKey 3 1, anObj clsRope [1]), (objKey 3 2, anObj clsRope [2]), (objKey 3 3, anObj clsScratch [])]
      pages := [(1, aPage (objKey 3 1)), (2, aPage (objKey 3 2))], nextPage := 3 } }

/-- The state of the tested strand. -/
def strandOf (s : State) : StrandSt := s.strand 2 1

theorem strand_ready (t : StrandSt) (h : t.task = some aTask) (hc : inCode (codeStage kStrand) t.pc = true)
    (hw : t.waitLine = none) (hq : t.queue = []) : StrandReady (running t) st21 t aTask :=
  ⟨rfl, h, ⟨aRoute, rfl, by simp [State.fetchBad, show aRoute.desc.stage aTask.stage = codeStage kStrand from rfl, hc]; rfl, rfl⟩,
    hw, hq⟩

theorem witness_strand_ready : StrandReady (running aStrand) st21 aStrand aTask :=
  strand_ready aStrand rfl (by decide +kernel) rfl rfl

/-! ## Well-formed operands: an ill-formed term for each check -/

def okEntry : Entry := { tenant := 31, qid := 255, words := List.replicate 8 (2 ^ 64 - 1) }
def okCoh : CohMsg := { op := 255, src := 2 ^ 12 - 1, dst := 2 ^ 12 - 1, txn := 65535, line := 2 ^ 48 - 64 }
def okSvc : SvcMsg := { op := 255, source := 15, dest := 15, tenant := 31, route := 2 ^ 32 - 1, arg := 2 ^ 64 - 1 }
def okAck : BelayAck :=
  { slotSource := 15, dest := 15, routeId := 2 ^ 32 - 1, spanPitch := 5, tick := 5, tenant := 31, kind := 15, source := 15
    home := 15, halvings := 0, faultReplays := 0 }
def okFlit : List Byte := List.replicate 272 0
def okFilter : FArgs := { d := 15, a := 15, b := 15, g := 15, n := 3, imm := 65535 }
def okReq : BrixReq := { src := .mailbox 31, version := 255, op := 255, seq := 65535, session := 2 ^ 32 - 1, check := 2 ^ 128 - 1 }
def okKey : RouteKey := { tenant := 31, id := 2 ^ 32 - 1, home := 15 }

theorem test_wf_limits : (okEntry.wf && okCoh.wf && okSvc.wf && okAck.wf && flitWf 3 okFlit && okFilter.wf && okReq.wf && okKey.wf) = true := by decide +kernel

theorem test_ill_formed_keys : ([{ okKey with tenant := 32 }, { okKey with id := 2 ^ 32 }, { okKey with home := 16 }] :
    List RouteKey).all (fun x => !x.wf) = true := by decide

theorem test_ill_formed_entries : ([{ okEntry with tenant := 32 }, { okEntry with qid := 256 },
    { okEntry with words := List.replicate 9 0 }, { okEntry with words := [] },
    { okEntry with words := List.replicate 8 (2 ^ 64) }] :
    List Entry).all (fun x => !x.wf) = true := by decide

theorem test_ill_formed_coherence_messages : ([{ okCoh with op := 256 }, { okCoh with src := 2 ^ 12 },
    { okCoh with dst := 2 ^ 12 }, { okCoh with txn := 65536 }, { okCoh with aux := 65536 }, { okCoh with token := 512 },
    { okCoh with line := 2 ^ 48 }, { okCoh with line := 32 }, { okCoh with mask := 2 ^ 64 }, { okCoh with state := 8 },
    { okCoh with data := [0] }] :
    List CohMsg).all (fun x => !x.wf) = true := by decide

theorem test_ill_formed_service_messages : ([{ okSvc with op := 256 }, { okSvc with source := 16 },
    { okSvc with dest := 16 }, { okSvc with tenant := 32 }, { okSvc with route := 2 ^ 32 },
    { okSvc with arg := 2 ^ 64 }, { okSvc with slot1 := 2 ^ 128 }, { okSvc with slot2 := 2 ^ 128 }] :
    List SvcMsg).all (fun x => !x.wf) = true := by decide

theorem test_ill_formed_acknowledgements : ([{ okAck with slotSource := 16 }, { okAck with dest := 16 },
    { okAck with routeId := 2 ^ 32 }, { okAck with tenant := 32 }, { okAck with kind := 16 },
    { okAck with source := 16 }, { okAck with home := 16 }] :
    List BelayAck).all (fun x => !x.wf) = true := by decide

theorem test_ill_formed_flits : (flitWf 4 okFlit || flitWf 0 [] || flitWf 0 (0 :: okFlit) || flitWf 0 (okFlit.drop 1)) = false := by
  decide +kernel

theorem test_ill_formed_filter_fields : ([{ okFilter with d := 16 }, { okFilter with a := 16 },
    { okFilter with b := 16 }, { okFilter with g := 16 }, { okFilter with n := 4 }, { okFilter with imm := 65536 }] :
    List FArgs).all (fun x => !x.wf) = true := by decide

theorem test_ill_formed_brix_requests : ([{ okReq with src := .mailbox 32 }, { okReq with src := .udp 0 65536 },
    { okReq with version := 256 }, { okReq with op := 256 }, { okReq with seq := 65536 },
    { okReq with session := 2 ^ 32 }, { okReq with check := 2 ^ 128 }] :
    List BrixReq).all (fun x => !x.wf) = true := by decide

theorem test_ill_formed_resources : ([.strand 17 0, .strand 0 9, .ridge 17, .path 16, .registers 17 0, .registers 0 9,
    .array (.l1d 17 0) 0 .single, .array (.l1i 0 9) 0 .single, .array (.l2 17) 0 .single, .array .slc (2 ^ 48) .single,
    .array .slc 1 .single, .cairnRow 16 0 0 0, .cairnRow 0 4 0 0, .cairnRow 0 0 4096 0, .cairnRow 0 0 0 94,
    .memory (2 ^ 48) false [] [], .memory 1 false [] [], .memory 0 true (List.replicate 65 0) [],
    .memory 0 false [] (List.replicate 17 0),
    .depotMap (some 32)] : List Resource).all (fun r => !(Instr.resourceFailure r).wf) = true := by decide

theorem test_ill_formed_writes : ([.bar0 32 0 4 0, .bar0 0 65536 4 0, .bar0 0 0 2 0, .bar0 0 0 8 (2 ^ 64), .object 65536 0 [], .object 0 256 []] :
    List RegWrite).all (fun x => !x.wf) && !({ ridge := 16, ctx := 0 } : ScnCtx).wf && !({ ridge := 0, ctx := 8 } : ScnCtx).wf := by decide

def aFault0 : AccessFault := { offset := 0, addr := 0, space := 1, write := false, poisoned := false }

theorem test_ill_formed_commands : ([.tickMarker 4 0 0 0 0, .belayAck { okAck with kind := 16 },
    .spanRestart { okKey with home := 16 }, .wqTailDoorbell 32 0 0, .wqTailDoorbell 0 256 0,
    .wqTailDoorbell 0 0 (2 ^ 32), .cqHeadDoorbell 32 0 0, .cqHeadDoorbell 0 256 0, .cqHeadDoorbell 0 0 (2 ^ 32),
    .wqStallTimeout 32 0, .wqStallTimeout 0 256, .aqEnable 32, .aqDisable 32, .mbControlGo 32,
    .registerWrite (.object 65536 0 []), .msixCoalesceTimeout 32 0, .msixCoalesceTimeout 0 256, .functionLevelReset 32,
    .managementReset 32, .tenantResetComplete 32, .hostPortReset 2, .perstNRelease 2, .malformedTlp 2 0,
    .malformedTlp 0 4, .hostReadCompletion 32 0 (.data []), .cxlMemRead 32, .cxlMemRead (2 ^ 47),
    .cxlMemWrite 32 (List.replicate 64 0), .cxlMemWrite (2 ^ 47) (List.replicate 64 0), .cxlMemWrite 0 [],
    .cxlMemPartialWrite 32 0 (List.replicate 64 0), .cxlMemPartialWrite (2 ^ 47) 0 (List.replicate 64 0),
    .cxlMemPartialWrite 0 (2 ^ 64) (List.replicate 64 0), .cxlMemPartialWrite 0 0 [], .channelEntryStart 64,
    .engineEntryComplete 64, .channelHalt 64 aFault0, .suspendLimitExpiry { okKey with id := 2 ^ 32 },
    .publicationResume { okKey with id := 2 ^ 32 }, .taskDispatch 16 .jnu, .taskDone 16 .jnu 0, .taskDone 0 .jnu 8,
    .joinSeal { okKey with tenant := 32 } 0 0, .joinSeal okKey 0 16, .summitMerge { okKey with tenant := 32 } 0,
    .publicationDone { okKey with tenant := 32 }, .heartbeat 4 0 0 0 0, .heartbeatTimeout 16, .snoopTimeout 16,
    .deathNotice { okSvc with source := 16 }] : List Instr).all (fun c => !c.wf) = true := by decide

theorem test_ill_formed_link_and_memory : ([.portEnable 4, .trainingTimeout 4,
    .payloadFlit 4 (okFlit.take 256) (okFlit.take 16), .payloadFlit 0 [] okFlit, .payloadFlit 0 (okFlit.take 256) [], .flitReplayTimeout 4, .laneLockLost 4 0,
    .laneLockLost 0 16, .laneErrorInterval 4, .widthSwitchDone 4, .retrainCmd 4, .retrainDone 4 0, .retrainDone 0 65536,
    .lockAndEqualise 4 0, .lockAndEqualise 0 (2 ^ 16), .linkNak 4 0, .refresh 18,
    .dimmTempSample 16 0, .scrubStep 18, .channelFailure 16, .faultWindowExpiry 18, .remapRead 18,
    .authLockoutExpiry (.mailbox 32), .brixViolation (.mailbox 32) [], .configurationRequest 2, .ridgeRetire 17,
    .ridgeUnretire 17, .thermalSample [], .railCurrentLimit 7, .railCurrentFall 7,
    .railUndervoltage 7] : List Instr).all (fun c => !c.wf) = true := by decide +kernel

def badEntry : Entry := { okEntry with tenant := 32 }
def badCoh : CohMsg := { okCoh with line := 32 }
def badSvc : SvcMsg := { okSvc with dest := 16 }
def badReq : BrixReq := { okReq with seq := 65536 }
def badCtx : ScnCtx := { ridge := 16, ctx := 0 }
def ctx0 : ScnCtx := { ridge := 15, ctx := 7 }
def badFilter : FArgs := { okFilter with n := 4 }
def badFlit : List Byte := okFlit.drop 16

theorem test_ill_formed_entry_rows : ([.submitRoute badEntry, .createWq badEntry, .deleteWq badEntry,
    .createCq badEntry, .deleteCq badEntry, .setQuota badEntry, .grantSpill badEntry, .revokeSpill badEntry,
    .openOutput badEntry, .closeOutput badEntry, .setWeight badEntry, .logStart badEntry, .logStop badEntry,
    .getLogErrorRecords badEntry, .getLogCounters badEntry, .getLogOpenRoutes badEntry, .abortRoute badEntry,
    .loadCairn badEntry, .dmaCopy badEntry, .compress badEntry, .decompress badEntry, .digestOpen badEntry,
    .digestFeed badEntry, .digestRead badEntry, .dmaStop badEntry, .dmaResume badEntry,
    .dmaFlush badEntry] : List Instr).all (fun c => !c.wf) = true := by decide

theorem test_ill_formed_coherence_rows : ([.rdShared badCoh, .rdOwn badCoh, .upgrade badCoh, .rdNc badCoh, .wrNc badCoh,
    .cmoClean badCoh, .cmoCleaninval badCoh, .cmoInval badCoh, .tokenReturn badCoh, .snpShared badCoh, .snpInv badCoh,
    .snpData badCoh, .snpClean badCoh, .fwdShared badCoh, .fwdOwn badCoh, .snpDiscard badCoh, .gangRd badCoh,
    .gangOwn badCoh, .cohAck badCoh, .ackLost badCoh, .cohRetry badCoh, .cohGrant badCoh, .cohCmp badCoh, .wbAck badCoh,
    .ownerMoved badCoh, .cohData badCoh, .snpDataRsp badCoh, .wbDirty badCoh, .evictClean badCoh,
    .pdSet badCoh] : List Instr).all (fun c => !c.wf) = true := by decide

theorem test_ill_formed_service_rows : ([.routeOpen badSvc, .routeEnd badSvc, .pageAlloc badSvc, .pageGrant badSvc,
    .quotaDraw badSvc, .quotaGrant badSvc, .quotaReturn badSvc, .ropeNotice badSvc, .summitEntry badSvc,
    .summitClose badSvc] : List Instr).all (fun c => !c.wf) = true := by decide

theorem test_ill_formed_brix_rows : ([.brixPing badReq, .brixRead badReq, .brixWrite badReq, .brixList badReq,
    .sessionOpen badReq, .sessionFinish badReq, .sessionClose badReq, .measure badReq, .eventAck badReq,
    .otpWrite badReq, .measExtend badReq] : List Instr).all (fun c => !c.wf) = true := by decide

theorem test_ill_formed_flit_rows : ([.linkIdle 0 badFlit, .widthChange 0 badFlit, .retrain 0 badFlit,
    .latencyProbe 0 badFlit, .latencyEcho 0 badFlit, .portLost 0 badFlit, .linkIdle 4 okFlit, .widthChange 4 okFlit,
    .retrain 4 okFlit, .latencyProbe 4 okFlit, .latencyEcho 4 okFlit,
    .portLost 4 okFlit] : List Instr).all (fun c => !c.wf) = true := by decide +kernel

theorem test_ill_formed_spdm_rows : ([.getVersion 2 0 [], .getCapabilities 2 0 [], .negotiateAlgorithms 2 0 [],
    .getDigests 2 0 [], .getCertificate 2 0 [], .challenge 2 0 [], .getMeasurements 2 0 [],
    .spdmUnsupportedRequest 2 0 [], .getVersion 0 4 [], .getCapabilities 0 4 [], .negotiateAlgorithms 0 4 [],
    .getDigests 0 4 [], .getCertificate 0 4 [], .challenge 0 4 [], .getMeasurements 0 4 [],
    .spdmUnsupportedRequest 0 4 []] : List Instr).all (fun c => !c.wf) = true := by decide

theorem test_ill_formed_filter_rows : ([.filterLdCol badCtx okFilter, .filterEq badCtx okFilter,
    .filterNe badCtx okFilter, .filterLt badCtx okFilter, .filterLe badCtx okFilter, .filterGt badCtx okFilter,
    .filterGe badCtx okFilter, .filterBetween badCtx okFilter, .filterIsNull badCtx okFilter,
    .filterInList badCtx okFilter, .filterInCairn badCtx okFilter, .prefixMatch badCtx okFilter,
    .suffixMatch badCtx okFilter, .filterAnd badCtx okFilter, .filterOr badCtx okFilter, .filterNot badCtx okFilter,
    .filterIsTrue badCtx okFilter, .filterIsFalse badCtx okFilter, .filterIsUnknown badCtx okFilter,
    .filterAdd badCtx okFilter, .filterSub badCtx okFilter, .filterMul badCtx okFilter, .filterDiv badCtx okFilter,
    .filterMod badCtx okFilter, .filterNeg badCtx okFilter, .filterCast badCtx okFilter, .filterHash64 badCtx okFilter,
    .filterCrc32c badCtx okFilter, .filterLdCol ctx0 badFilter, .filterEq ctx0 badFilter, .filterNe ctx0 badFilter,
    .filterLt ctx0 badFilter, .filterLe ctx0 badFilter, .filterGt ctx0 badFilter, .filterGe ctx0 badFilter,
    .filterBetween ctx0 badFilter, .filterIsNull ctx0 badFilter, .filterInList ctx0 badFilter,
    .filterInCairn ctx0 badFilter, .prefixMatch ctx0 badFilter, .suffixMatch ctx0 badFilter, .filterAnd ctx0 badFilter,
    .filterOr ctx0 badFilter, .filterNot ctx0 badFilter, .filterIsTrue ctx0 badFilter, .filterIsFalse ctx0 badFilter,
    .filterIsUnknown ctx0 badFilter, .filterAdd ctx0 badFilter, .filterSub ctx0 badFilter, .filterMul ctx0 badFilter,
    .filterDiv ctx0 badFilter, .filterMod ctx0 badFilter, .filterNeg ctx0 badFilter, .filterCast ctx0 badFilter,
    .filterHash64 ctx0 badFilter, .filterCrc32c ctx0 badFilter] : List Instr).all (fun c => !c.wf) = true := by decide

/-! ## Strands: registers and the ALU -/

/-- Whether an instruction leaves a value in g7 and moves on by one word. -/
def gives (t : StrandSt) (c : Instr) (x : Nat) : Bool :=
  after c (running t) (fun u => (strandOf u).rg 7 == BitVec.ofNat 64 x && (strandOf u).pc == t.pc + 4#64
    && (strandOf u).instret == 1)

theorem test_alu : ([(.add st21 7 1 2, 2 ^ 64 - 5), (.sub st21 7 2 1, 11), (.andOp st21 7 1 2, 0), (.orOp st21 7 1 2, 2 ^ 64 - 5),
    (.xorOp st21 7 1 5, 7), (.sll st21 7 2 1, 3 * 2 ^ 56 % 2 ^ 64), (.srl st21 7 1 2, 2 ^ 61 - 1), (.sra st21 7 1 2, 2 ^ 64 - 1),
    (.slt st21 7 1 2, 1), (.sltu st21 7 1 2, 0), (.minOp st21 7 1 2, 2 ^ 64 - 8), (.maxOp st21 7 1 2, 3), (.minu st21 7 1 2, 3),
    (.maxu st21 7 1 2, 2 ^ 64 - 8), (.mul st21 7 1 2, 2 ^ 64 - 24), (.mulh st21 7 1 2, 2 ^ 64 - 1), (.mulhu st21 7 1 2, 2),
    (.div st21 7 1 2, 2 ^ 64 - 2), (.divu st21 7 1 2, (2 ^ 64 - 8) / 3), (.rem st21 7 1 2, 2 ^ 64 - 2), (.remu st21 7 1 2, 2),
    (.div st21 7 4 5, 2 ^ 63), (.rem st21 7 4 5, 0), (.clz st21 7 0, 64), (.ctz st21 7 1, 3), (.popc st21 7 1, 61),
    (.bswap st21 7 2, 3 * 2 ^ 56), (.hstep st21 7 0 0, 0), (.hfin st21 7 0, 0)] : List (Instr × Nat)).all
      (fun p => gives aStrand p.1 p.2) = true := by decide +kernel

theorem test_immediates : ([(.addi st21 7 2 0xFFFF, 2), (.andi st21 7 1 0xFFFF, 0xFFF8), (.ori st21 7 0 0x8000, 0x8000),
    (.xori st21 7 2 0xFFFF, 0xFFFC), (.slli st21 7 2 63, 2 ^ 63), (.srli st21 7 1 63, 1), (.srai st21 7 1 63, 2 ^ 64 - 1),
    (.slti st21 7 1 0xFFFF, 1), (.slti st21 7 5 0xFFFF, 0), (.lui st21 7 0x100000, 2 ^ 64 - 2 ^ 36),
    (.csrr st21 7 0x020, 33), (.csrr st21 7 0x010, 3)] : List (Instr × Nat)).all
      (fun p => gives aStrand p.1 p.2) = true := by decide +kernel

/-- The division by zero of a handler that is enabled, and of one that is not. -/
theorem test_divide_by_zero : (after (.div st21 7 1 0) (running { aStrand with tvec := 0x4000000000000101#64 }) (fun u =>
      (strandOf u).plain == (({ aStrand with tvec := 0x4000000000000101#64 } : StrandSt).trapped 8 0#64).plain)
    && after (.remu st21 7 1 0) (running aStrand) (fun u => (strandOf u).plain == aStrand.stopped.plain
      && (u.route? key3).any (fun r => r.conditions == [0x0406] && r.endTick.isSome))) = true := by decide +kernel

/-- Whether an instruction ends at an address (with predictable timing, where nothing is fetched on a wrong path). -/
def goesTo (t : StrandSt) (c : Instr) (x : Nat) : Bool :=
  after c (running { t with pt := true }) (fun u => (strandOf u).pc == BitVec.ofNat 64 x)

/-- Branches taken and not taken. -/
theorem test_branch_targets : ([(.beq st21 0 3 2, 8), (.beq st21 1 2 2, 4), (.bne st21 1 2 3, 12), (.blt st21 1 2 3, 12),
    (.blt st21 2 1 3, 4), (.bge st21 2 2 3, 12), (.bltu st21 2 1 4, 16), (.bgeu st21 1 1 4, 16), (.bgeu st21 2 1 4, 4),
    (.jal st21 7 5, 20)] : List (Instr × Nat)).all (fun p => goesTo aStrand p.1 (2 ^ 62 + p.2)) = true := by decide +kernel

/-- A branch back, and a JALR whose low bits are cleared and that leaves pc + 4. -/
theorem test_jumps : (goesTo { aStrand with pc := 0x4000000000000010#64 } (.bne st21 1 2 0xFFFF) 0x400000000000000C
    && after (.jalr st21 7 2 8) (running aStrand) (fun u => (strandOf u).pc == 8#64 && (strandOf u).rg 7 == 0x4000000000000004#64
      && (strandOf u).itt.length == 1)) = true := by decide +kernel

/-! ## Floating point -/

/-- A strand with v1 = 1.5, v2 = 0, v3 = a quiet NaN as FP64, v4 = -2.5; the rounding mode and the trap enables given. -/
def floats (fpctl : Word) : StrandSt :=
  { aStrand with
    fpctl := fpctl
    v := ((((Vector.replicate 32 0#512).set 1 0x3FF8000000000000#512).set 3 0x7FF8000000000000#512).set 4
      0xC004000000000000#512).set 7 (BitVec.allOnes 512) }

/-- Whether an instruction leaves an FP64 value alone in v7 and these sticky flags. -/
def floatGives (c : Instr) (x flags : Nat) : Bool :=
  after c (running (floats 0)) (fun u => (strandOf u).v[(7 : Fin 32)] == BitVec.ofNat 512 x && (strandOf u).flags == flags)

theorem test_floats : ([(.fadd st21 false 7 1 1, 0x4008000000000000, 0), (.fsub st21 false 7 1 1, 0, 0),
    (.fmul st21 false 7 1 4, 0xC00E000000000000, 0), (.fdiv st21 false 7 1 2, 0x7FF0000000000000, 8),
    (.fsqrt st21 false 7 2, 0, 0), (.fmin st21 false 7 1 4, 0xC004000000000000, 0), (.fmax st21 false 7 1 4, 0x3FF8000000000000, 0),
    (.fcvtf st21 false 7 1, 0xC020000000000000, 0), (.fmvfg st21 false 7 2, 3, 0)] : List (Instr × Nat × Nat)).all
      (fun p => floatGives p.1 p.2.1 p.2.2) = true := by decide +kernel

/-- The comparisons and conversions into a general register. -/
theorem test_float_to_general : ([(.feq st21 false 7 1 1, 1, 0), (.feq st21 false 7 1 3, 0, 16), (.flt st21 false 7 4 1, 1, 0),
    (.fle st21 false 7 1 1, 1, 0), (.fcvtl st21 false 7 3, 2 ^ 63, 16), 
    (.fmvgf st21 false 7 1, 0x3FF8000000000000, 0)] : List (Instr × Nat × Nat)).all
      (fun p => after p.1 (running (floats 0)) (fun u => (strandOf u).rg 7 == BitVec.ofNat 64 p.2.1
        && (strandOf u).flags == p.2.2)) = true := by decide +kernel

/-- FMADD accumulates into its destination; an enabled flag traps to the handler with the flags at [6:2]. -/
theorem test_float_traps : (after (.fmadd st21 false 4 1 1) (running (floats 0)) (fun u =>
      (strandOf u).rf false 4 == 0xBFD0000000000000)
    && after (.fcvtl st21 false 7 4) (running (floats 0)) (fun u => (strandOf u).rg 7 == 0xFFFFFFFFFFFFFFFE#64)
    && after (.fdiv st21 false 7 1 2) (running { floats 0x400#64 with tvec := 0x4000000000000101#64 }) (fun u =>
      (strandOf u).cause == 9#64 && (strandOf u).tval == 32#64 && (strandOf u).pc == 0x4000000000000100#64)) = true := by
  decide +kernel

/-! ## Memory, system and task instructions -/

/-- A strand whose g1 names its input rope, g2 its output rope, g3 its scratch object, g4 the parameter window and g5 the last
byte of the output rope's page; g6 = 0x8182838485868788. -/
def memStrand : StrandSt :=
  { aStrand with
    g := ((((((Vector.replicate 32 0#64).set 1 (BitVec.ofNat 64 (2 ^ 61 + 2 ^ 40))).set 2
      (BitVec.ofNat 64 (2 ^ 61 + 2 * 2 ^ 40))).set 3 (BitVec.ofNat 64 (2 ^ 61 + clsScratch * 2 ^ 56 + 3 * 2 ^ 40))).set 4
      (BitVec.ofNat 64 (3 * 2 ^ 61))).set 5 (BitVec.ofNat 64 (2 ^ 61 + 2 * 2 ^ 40 + 65535))).set 6 0x8182838485868788#64 }

theorem test_loads : ([(.lb st21 7 1 0, 2 ^ 64 - 128), (.lbu st21 7 1 0, 128), (.lh st21 7 1 0, 0x7F80), (.lhu st21 7 1 2, 0xFF00),
    (.lw st21 7 1 0, 2 ^ 64 - 2 ^ 32 + 0xFF007F80), (.lwu st21 7 1 0, 0xFF007F80), (.ld st21 7 1 0, 0xFF007F80),
    (.lb st21 7 2 3, 2 ^ 64 - 1), (.lh st21 7 1 2, 2 ^ 64 - 256), (.ld st21 7 4 56, 0), (.ldpc st21 7 511, 0), (.lbu st21 7 5 0, 0)] :
    List (Instr × Nat)).all (fun p => gives memStrand p.1 p.2) = true := by decide +kernel

/-- A page of the scratch object appears at its first access and reads zero. -/
theorem test_load_scratch : (match (running memStrand).strandLoad st21 aTask (memStrand.rg 3 + 8#64) 1 with
    | .ok b _ _ => b == [0]
    | _ => false) = true := by decide +kernel

/-- One byte past the page, past the parameter window, past the code window, and an unknown object. -/
theorem test_load_traps : ([.lh st21 7 5 0, .lb st21 7 4 64, .ldpc st21 7 512, .lb st21 7 6 0] : List Instr).all (fun c =>
    after c (running memStrand) (fun u => (strandOf u).plain == memStrand.stopped.plain
      && (u.route? key3).any (fun r => r.conditions == [0x0404]))) = true := by decide +kernel

theorem test_stores : ([(.sb st21 2 6 0, natLe 1 0x88), (.sh st21 2 6 1, natLe 2 0x8788), (.sw st21 5 6 0xFFFD, natLe 4 0x85868788),
    (.sd st21 5 6 0xFFF9, natLe 8 0x8182838485868788), (.sb st21 5 6 0, natLe 1 0x88), (.sd st21 3 6 8, natLe 8 0x8182838485868788)] :
    List (Instr × List Byte)).all (fun p => after p.1 (running memStrand) (fun u =>
      (strandOf u).queue.map (fun e => e.bytes) == [p.2] && (u.dobj? (objKey 3 2)).map (fun d => d.content) ==
        ((running memStrand).dobj? (objKey 3 2)).map (fun d => d.content))) = true := by decide +kernel

/-- A store to the input rope, past the output rope's page, and to the parameters. -/
theorem test_store_traps : ([.sb st21 1 6 0, .sh st21 5 6 0, .sb st21 4 6 0] : List Instr).all (fun c =>
    after c (running memStrand) (fun u => (strandOf u).plain == memStrand.stopped.plain
      && (u.route? key3).any (fun r => r.conditions == [0x0404]))) = true := by decide +kernel

def queued : StrandSt := { memStrand with queue := [{ addr := memStrand.rg 2, bytes := [0x11, 0x22] }] }

/-- FENCE puts the older store into the output rope and nowhere else. -/
theorem test_fence : after (.fence st21) (running queued) (fun u => (strandOf u).queue == []
      && (strandOf u).pc == 0x4000000000000004#64
      && (u.dobj? (objKey 3 2)).map (fun d => d.content) == some (.bytes [(0, 0x11), (1, 0x22), (3, 0xFF)])
      && (u.dobj? (objKey 3 1)).map (fun d => d.content) == some (anObj clsRope [1]).content) = true := by decide +kernel

/-- A store that memory refuses ends its route with BUS_ERROR and changes no object. -/
theorem test_store_refused : after (.storeRefused st21) (running queued) (fun u => (strandOf u).plain == queued.stopped.plain
      && (u.route? key3).any (fun r => r.conditions == [0x0404])
      && (u.dobj? (objKey 3 2)).map (fun d => d.content) == some (anObj clsRope [2]).content) = true := by decide +kernel

/-- A strand with a handler at 0x4000000000000100, in it or not. -/
def handled (inTrap : Bool) : StrandSt :=
  { memStrand with tvec := 0x4000000000000101#64, trap := inTrap, epc := 0x4000000000000023#64 }

theorem test_system : ([(.brk st21, 3, 0xA0000001), (.eret st21, 2, 0xA0000002), (.reservedEncoding st21 0, 2, 0),
    (.temit st21 7 0, 2, 0xA0E00010), (.tend st21 6, 2, 0xA0060011), (.csrr st21 7 0x021, 2, 0xA4E00021),
    (.csrw st21 6 0x000, 2, 0xA8060000), (.csrw st21 6 0x010, 2, 0xA8060010)] : List (Instr × Nat × Nat)).all (fun p =>
      after p.1 (running (handled false)) (fun u => (strandOf u).plain == ((handled false).trapped p.2.1 (BitVec.ofNat 64 p.2.2)).plain)) = true := by
  decide +kernel

/-- A trap inside the handler ends the route, ERET leaves it, and a cause without a handler is never delivered. -/
theorem test_handler : (after (.brk st21) (running (handled true)) (fun u =>
      (u.route? key3).any (fun r => r.conditions == [0x0407]))
    && after (.eret st21) (running (handled true)) (fun u => (strandOf u).pc == 0x4000000000000020#64 && !(strandOf u).trap)
    && after (.fetchFault st21 true) (running (handled false)) (fun u =>
      (u.route? key3).any (fun r => r.conditions == [0x0404]))) = true := by decide +kernel

theorem test_csrw : ([(0x001, 0x100), (0x002, 8), (0x008, 0xFFF), (0x010, 3), (0x011, 0xFFFFFFFF)] : List (BitVec 12 × Nat)).all
    (fun p => after (.csrw st21 1 p.1) (running { aStrand with g := aStrand.g.set 1 (BitVec.ofNat 64 p.2) }) (fun u =>
      after (.csrr st21 7 p.1) (running { strandOf u with instret := 0 }) (fun w =>
        (strandOf w).rg 7 == BitVec.ofNat 64 p.2))) = true := by decide +kernel

/-- The counters of a route that is not DETERMINISTIC, and of one that is. -/
theorem test_counters : (after (.csrr st21 7 0x101) (running { aStrand with instret := 41 }) (fun u => (strandOf u).rg 7 == 41#64)
    && after (.csrr st21 7 0x10B) { running aStrand with routes := [{ aRoute with desc := { aDesc with deterministic := true } }] }
      (fun u => (u.route? key3).any (fun r => r.conditions == [0x0405]))) = true := by decide +kernel

/-! ## Output ropes -/

/-- A strand whose input is a rope of two rows; g2 = 3. -/
def ropeState : State :=
  let r : Rope := { routeId := 7, stage := 0, keyForm := 1, rows := 2, seq := 9, srcDevice := 0, srcRidge := 2, base := 0
                    spanPitch := 0, sel := [true, true], keys := [(4, 0), (5, 0)], cols := [] }
  let s := running aStrand
  { s with depot := { s.depot with
    objects := s.depot.objects.put (objKey 3 1) { anObj clsRope [1] with content := .rope r } } }

theorem test_temit : after (.temit st21 7 2) ropeState (fun u => (strandOf u).task.map (fun k => (k.out, k.closed)) ==
      some (objKey 3 0, [objKey 3 2]) && (strandOf u).rg 7 == BitVec.ofNat 64 (2 ^ 61)
      && (strandOf u).pc == 0x4000000000000004#64) = true := by decide +kernel

/-- Whether what runs in a state ends well, in a state of which `p` holds. -/
def TRes.ends {α : Type} (x : TRes α) (p : α → State → Bool) : Bool :=
  match x with
  | .ok a s => p a s
  | _ => false

theorem TRes.ends_ok {α : Type} {x : TRes α} {p : α → State → Bool} (h : TRes.ends x p = true) : ∃ a s, x = .ok a s := by
  cases x with
  | ok a s => exact ⟨a, s, rfl⟩
  | _ => cases h

/-- What TEMIT assumes: a count, an input with keys, and room for a new output rope. -/
theorem witness_outputs : (aStrand.rg 2).toNat = 3 ∧ ropeState.inputForm aTask ≠ 0 ∧
    (ropeState.fetched st21 aStrand aTask).outputFits aTask.key aRoute.desc aTask.stage st21.ridge.val (ropeState.inputForm aTask) :=
  ⟨by decide +kernel, by decide +kernel, TRes.ends_ok (p := fun _ _ => true) (by decide +kernel)⟩

theorem test_tend : (after (.tend st21 2) ropeState (fun u => (strandOf u).plain == aStrand.stopped.plain && (strandOf u).task.isNone)
    && ((ropeState.closeOutputRope aRoute aTask 2 3).2.dobj? (objKey 3 2)).any (fun d => match d.content with
      | .code _ r => r.rows == 3 && r.seq == 9 && r.keyForm == 1 && r.sel.length == 3
      | _ => false)) = true := by decide +kernel

/-! ## Vectors -/

/-- A register of 64-bit elements. -/
def vec (l : List Nat) : Vec := packReg 64 l

/-- VL 4 of 64-bit elements in one register: v1 = 1, 2, -3, 4; v2 = 10, 1, 5, 70; v3 = 1.5, -2.5, NaN, 0 as FP64; v7 and v8 all
ones; p1 leaves out element 2, p2 = 3. g1 names the input rope, g2 the output rope, g5 the last byte of its page. -/
def vecStrand : StrandSt :=
  { memStrand with
    vlLen := 4
    v := (((((Vector.replicate 32 0#512).set 1 (vec [1, 2, 2 ^ 64 - 3, 4])).set 2 (vec [10, 1, 5, 70])).set 3
      (vec [0x3FF8000000000000, 0xC004000000000000, 0x7FF8000000000000, 0])).set 7 (BitVec.allOnes 512)).set 8 (BitVec.allOnes 512)
    p := ((Vector.replicate 8 0#256).set 1 0xB#256).set 2 3#256 }

/-- The long form with 64-bit elements under p1. -/
def va (vd vs1 vs2 : Fin 32) : VArgs := { vd := vd, vs1 := vs1, vs2 := vs2, pg := 1, long := true, es := 3 }

/-- Whether an instruction leaves these elements in v7: the inactive one as it was, the tail zero. -/
def vecGives (c : Instr) (l : List Nat) : Bool :=
  after c (running vecStrand) (fun u => (strandOf u).v[(7 : Fin 32)] == vec l && (strandOf u).pc == 0x4000000000000004#64)

theorem test_vint : ([(.vadd st21 (va 7 1 2), [11, 3, 2 ^ 64 - 1, 74]), (.vsub st21 (va 7 1 2), [2 ^ 64 - 9, 1, 2 ^ 64 - 1, 2 ^ 64 - 66]),
    (.vand st21 (va 7 1 2), [0, 0, 2 ^ 64 - 1, 4]), (.vor st21 (va 7 1 2), [11, 3, 2 ^ 64 - 1, 70]),
    (.vxor st21 (va 7 1 2), [11, 3, 2 ^ 64 - 1, 66]), (.vsll st21 (va 7 1 2), [1024, 4, 2 ^ 64 - 1, 256]),
    (.vsrl st21 (va 7 2 1), [5, 0, 2 ^ 64 - 1, 4]), (.vsra st21 { va 7 1 2 with pg := 0 }, [0, 1, 2 ^ 64 - 1, 0]),
    (.vmul st21 (va 7 1 2), [10, 2, 2 ^ 64 - 1, 280]), (.vmin st21 { va 7 1 2 with pg := 0 }, [1, 1, 2 ^ 64 - 3, 4]),
    (.vmax st21 { va 7 1 2 with pg := 0 }, [10, 2, 5, 70]), (.vminu st21 { va 7 1 2 with pg := 0 }, [1, 1, 5, 4]),
    (.vmaxu st21 { va 7 1 2 with pg := 0 }, [10, 2, 2 ^ 64 - 3, 70]), (.vhstep st21 { va 7 0 0 with z := true }, []),
    (.vhfin st21 { va 7 0 0 with z := true }, []), (.vbcast st21 { va 7 0 0 with z := true }, []),
    (.vmv st21 { va 7 1 0 with z := true }, [1, 2, 0, 4])] : List (Instr × List Nat)).all (fun p => vecGives p.1 p.2) = true := by
  decide +kernel

/-- A byte operation in the short form: every element below 64 counts; v2 is 0x0A, zeros, 0x01 at byte 8, ... -/
theorem test_vint_bytes : after (.vadd st21 { vd := 7, vs1 := 8, vs2 := 2 }) (running vecStrand) (fun u =>
      (strandOf u).v[(7 : Fin 32)].toNat % 2 ^ 72 == 0x00FFFFFFFFFFFFFF09) = true := by decide +kernel

theorem test_vfp : ([(.vfadd st21 { va 7 3 3 with pg := 2, z := true }, [0x4008000000000000, 0xC014000000000000]),
    (.vfsub st21 { va 7 3 3 with pg := 2, z := true }, [0, 0]),
    (.vfmul st21 { va 7 3 3 with pg := 2, z := true }, [0x4002000000000000, 0x4019000000000000]),
    (.vfdiv st21 { va 7 3 3 with pg := 2, z := true }, [0x3FF0000000000000, 0x3FF0000000000000]),
    (.vfmin st21 { va 7 3 0 with pg := 2, z := true }, [0, 0xC004000000000000]),
    (.vfmax st21 { va 7 3 0 with pg := 2, z := true }, [0x3FF8000000000000, 0]),
    (.vfsqrt st21 { va 7 0 0 with pg := 2, z := true }, []),
    (.vfcvtf st21 { va 7 1 0 with pg := 2, z := true }, [0x3FF0000000000000, 0x4000000000000000]),
    (.vfcvtl st21 { va 7 3 0 with pg := 2, z := true }, [2, 2 ^ 64 - 2])] : List (Instr × List Nat)).all
      (fun p => vecGives p.1 p.2) = true := by decide +kernel

/-- VFMADD into its own destination, VFREDADD in ascending order, and a trap that leaves every element. -/
theorem test_vfp_sums : (after (.vfmadd st21 { va 3 3 3 with pg := 2 }) (running vecStrand) (fun u =>
      (strandOf u).elem (va 3 3 3) 3 0 == 0x400E000000000000)
    && after (.vfredadd st21 { va 3 3 0 with pg := 2 }) (running vecStrand) (fun u =>
      (strandOf u).v[(3 : Fin 32)] == 0x3FE0000000000000#512)
    && after (.vfdiv st21 { va 7 3 0 with pg := 2 }) (running { vecStrand with fpctl := 0x400#64, tvec := 1#64 }) (fun u =>
      (strandOf u).plain == (({ vecStrand with fpctl := 0x400#64, tvec := 1#64 } : StrandSt).trapped 9 32#64).plain)) = true := by decide +kernel

/-- Comparisons into p3: inactive and tail bits are 0. -/
theorem test_vcmp : ([(.vcmpEq st21 (va 3 1 1), 0xB), (.vcmpNe st21 (va 3 1 2), 0xB), (.vcmpLt st21 { va 3 1 2 with pg := 0 }, 0xD),
    (.vcmpLe st21 (va 3 1 1), 0xB), (.vcmpLtu st21 { va 3 1 2 with pg := 0 }, 0x9), (.vcmpLeu st21 { va 3 1 2 with pg := 0 }, 0x9),
    (.vcmpFeq st21 { va 3 3 3 with pg := 0 }, 0xB), (.vcmpFlt st21 { va 3 3 0 with pg := 0 }, 0x2),
    (.vcmpFle st21 { va 3 3 0 with pg := 0 }, 0xA)] : List (Instr × Nat)).all (fun p => after p.1 (running vecStrand) (fun u =>
      (strandOf u).p[(3 : Fin 8)] == BitVec.ofNat 256 p.2 && (strandOf u).flags == (if p.2 == 0xA || p.2 == 0x2 then 16
        else (strandOf u).flags))) = true := by decide +kernel

/-- Control and reductions, by the general register or the predicate that they write. -/
theorem test_vector_control : ([(.vsetvl st21 { vd := 7, vs1 := 6, vs2 := 8, es := 3 }, 32), (.pcnt st21 { vd := 7, vs1 := 1, vs2 := 0 }, 3),
    (.ffcnt st21 { vd := 7, vs1 := 0, vs2 := 0 }, 256), (.vredadd st21 (va 7 1 0), 7), (.vredmin st21 { va 7 1 0 with pg := 0 }, 2 ^ 64 - 3),
    (.vredmax st21 (va 7 1 0), 4), (.vext st21 { va 7 1 0 with pg := 0 }, 1)] : List (Instr × Nat)).all
      (fun p => gives vecStrand p.1 p.2) = true := by decide +kernel

theorem test_predicates : ([(.pand st21 { vd := 3, vs1 := 1, vs2 := 2 }, 3), (.por st21 { vd := 3, vs1 := 1, vs2 := 2 }, 0xB),
    (.pandn st21 { vd := 3, vs1 := 1, vs2 := 2 }, 8), (.pnot st21 { vd := 3, vs1 := 0, vs2 := 0 }, 0),
    (.ffmask st21 { vd := 3, vs1 := 0, vs2 := 0 }, 0xF), (.ptrue st21 { vd := 3, vs1 := 0, vs2 := 0 }, 0xF)] :
    List (Instr × Nat)).all (fun p => after p.1 (running vecStrand) (fun u => (strandOf u).p[(3 : Fin 8)] == BitVec.ofNat 256 p.2))
      = true := by decide +kernel

theorem test_first_fault_register : (after (.ffput st21 { vd := 0, vs1 := 1, vs2 := 0 }) (running vecStrand) (fun u =>
      (strandOf u).ffr == 0xB#256)
    && after (.fffill st21 { vd := 0, vs1 := 0, vs2 := 0 }) (running { vecStrand with ffr := 0 }) (fun u =>
      (strandOf u).ffr == BitVec.allOnes 256)
    && vecGives (.vcompress st21 (va 7 1 0)) [1, 2, 4]) = true := by decide +kernel

/-- The strand with the indexes 3, 2, 1, 0 as bytes in v10, g9 = -1 and g11 three bytes into the input rope. -/
def indexStrand : StrandSt :=
  { vecStrand with
    v := vecStrand.v.set 10 0x00010203#512
    g := (vecStrand.g.set 9 (BitVec.allOnes 64)).set 11 (vecStrand.rg 1 + 3#64) }

/-- Byte elements of the long form. -/
def vb (vd vs1 vs2 : Fin 32) : VArgs := { vd := vd, vs1 := vs1, vs2 := vs2, long := true }

/-- Loads in the three address forms from a rope whose first bytes are 80, 7F, 00, FF. -/
theorem test_vector_loads : ([(.vld st21 (vb 7 1 0), 0xFF007F80), (.vldff st21 (vb 7 1 0), 0xFF007F80),
    (.vlds st21 (vb 7 11 9), 0x807F00FF), (.vgather st21 (vb 7 1 10), 0x807F00FF), (.vgatherff st21 (vb 7 1 10), 0x807F00FF)] :
    List (Instr × Nat)).all (fun p => after p.1 (running indexStrand) (fun u =>
      (strandOf u).v[(7 : Fin 32)] == BitVec.ofNat 512 p.2)) = true := by decide +kernel

/-- A load that starts at the last byte of a page: the plain form traps at the byte after it, the first-fault form keeps the
first element; at the byte after the page both trap. -/
theorem test_first_fault : (after (.vld st21 (vb 7 5 0)) (running vecStrand) (fun u =>
      (u.route? key3).any (fun r => r.conditions == [0x0404]))
    && after (.vldff st21 (vb 7 5 0)) (running vecStrand) (fun u => (strandOf u).ffr == 1#256
      && (strandOf u).v[(7 : Fin 32)].toNat % 2 ^ 32 == 0xFFFFFF00 && (strandOf u).pc == 0x4000000000000004#64)
    && after (.vldff st21 { vb 7 9 0 with pg := 2 }) (running { vecStrand with g := vecStrand.g.set 9 (vecStrand.rg 5 + 1#64) })
      (fun u => (u.route? key3).any (fun r => r.conditions == [0x0404]))) = true := by decide +kernel

/-- Stores of the first four bytes of v1 (1, 0, 0, 0) and where they go. -/
theorem test_vector_stores : ([(.vst st21 (vb 1 2 0), [0, 1, 2, 3]), (.vsts st21 (vb 1 12 9), [3, 2, 1, 0]),
    (.vscatter st21 (vb 1 2 10), [3, 2, 1, 0])] : List (Instr × List Nat)).all (fun p =>
      after p.1 (running { indexStrand with g := indexStrand.g.set 12 (vecStrand.rg 2 + 3#64) }) (fun u =>
        queueBytes (strandOf u).queue == List.zip (p.2.map (fun i => vecStrand.rg 2 + BitVec.ofNat 64 i)) [1, 0, 0, 0]))
      = true := by decide +kernel

/-- A vector store whose second element may not be stored enters nothing into the queue. -/
theorem test_vector_store_trap : after (.vst st21 (vb 1 5 0)) (running vecStrand) (fun u => (strandOf u).queue == []
      && (u.route? key3).any (fun r => r.conditions == [0x0404])) = true := by decide +kernel

/-- Forty single bytes are more than the queue holds: the first eight leave it. -/
theorem test_full_queue : overQueue (List.replicate 36 { addr := 0, bytes := [7] }) = 4
    ∧ (after (.vst st21 (vb 1 12 0)) (running { vecStrand with vlLen := 40, g := vecStrand.g.set 12 (vecStrand.rg 2 + 1#64) })
      (fun u => (strandOf u).queue.length == 32 && (strandOf u).pc == 0x4000000000000004#64)) = true := by decide +kernel

/-- Words that break R284, each by one field, and the word that the handler sees. -/
theorem test_illegal_vectors : ([(.vadd st21 { vb 1 2 4 with long := true }, 0xC0222080), (.vfadd st21 (vb 2 4 6), 0xC4443080),
    (.vhfin st21 { vb 2 4 2 with es := 3 }, 0xC04410BE), (.vcmpEq st21 { vb 8 2 4 with long := false }, 0xC9022000),
    (.vld st21 (vb 2 2 2), 0xCC421080), (.vst st21 { vb 2 2 0 with z := true }, 0xCC4200C2), (.vgather st21 (vb 2 1 2), 0xD0411080),
    (.vsetvl st21 { vb 7 2 3 with long := false }, 0xD4E21800), (.vredadd st21 { vb 7 2 0 with z := true }, 0xD8E200C0),
    (.vcompress st21 { vb 2 4 0 with z := true }, 0xD84400C4)] : List (Instr × Nat)).all (fun p =>
      after p.1 (running { handled false with vlGroup := 1 }) (fun u =>
        (strandOf u).plain == (({ handled false with vlGroup := 1 } : StrandSt).trapped 2 (BitVec.ofNat 64 p.2)).plain)) = true := by
  decide +kernel

/-- Words of strand code as Tables 08.6, 08.7 and 09.2 lay them out. -/
theorem test_strand_words : ([(.add st21 3 4 5, 0x04642800), (.addi st21 3 4 0xFFFF, 0x0864FFFF), (.srai st21 3 4 9, 0x18640089),
    (.ldpc st21 7 511, 0x24E001FF), (.fadd st21 true 1 2 3, 0x30221C00), (.sd st21 4 5 8, 0x6C850008),
    (.beq st21 4 5 0xFFFF, 0x8085FFFF), (.jal st21 1 0x1FFFFF, 0x983FFFFF), (.csrw st21 4 0x123, 0xA8040123),
    (.vgather st21 { vd := 8, vs1 := 4, vs2 := 12, long := true, z := true, es := 3 }, 0xD10460F0),
    (.vgatherff st21 { vd := 8, vs1 := 4, vs2 := 12, long := true, z := true, es := 3 }, 0xD10460F1)] :
    List (Instr × Nat)).all (fun p => Decode.strandWord p.1 == some (st21, p.2)) = true := by decide +kernel

/-! ## The filter machine -/

def ctx23 : ScnCtx := { ridge := 2, ctx := 3 }

def intReg (l : List (Option Int)) : ColReg :=
  { ty := tyI64, scale := 0, width := 0, sorted := false, slots := l.map (fun x => x.map Val.int) }

/-- An INT64 constant, and one that lists 5 and 7. -/
def intConst (z : Nat) : FConst := { kind := 1, ty := tyI64, scale := 0, hasNull := false, length := 0, raw := z, bytes := [] }
def listConst (hasNull : Bool) : FConst :=
  { kind := 2, ty := tyI64, scale := 0, hasNull := hasNull, length := 2, raw := 0, bytes := natLe 8 5 ++ natLe 8 7 }

/-- Four rows, the last one unselected: C0 = 5, null, -1, 7; C1 = 5, 1, 2, 9; C2 = 0, 0, 0, 0; masks M0 = T, F, U, T and
M1 = T, T, T, T. -/
def aMachine : FilterMachine :=
  { key := key3, ridge := 2, rows := 4, sel := [true, true, true, false]
    inputs := [intReg [some 1, some 2, some 3, some 4]]
    consts := [intConst 5, intConst (2 ^ 64 - 1), listConst false, listConst true, intConst (3 * 2048 + 1)]
    cregs := [(0, intReg [some 5, none, some (-1), some 7]), (1, intReg [some 5, some 1, some 2, some 9]),
      (2, intReg [some 0, some 0, some 0, some 0])]
    mregs := [(0, [.t, .f, .u, .t]), (1, [.t, .t, .t, .t])] }

def filtering : State := { live with routes := [aRoute], scn := [(19, aMachine)] }

/-- Whether an instruction leaves these values in mask 3. -/
def maskIs (c : Instr) (l : List Tri) : Bool :=
  after c filtering (fun u => u.filterAt ctx23 == some (aMachine.setMask 3 l))

theorem test_filter_comparisons : ([(.filterEq ctx23 { d := 3, a := 0, b := 1 }, [.t, .u, .f, .u]), (.filterNe ctx23 { d := 3, a := 0, b := 1 }, [.f, .u, .t, .u]),
    (.filterLt ctx23 { d := 3, a := 0, b := 1 }, [.f, .u, .t, .u]), (.filterLe ctx23 { d := 3, a := 0, b := 1 }, [.t, .u, .t, .u]),
    (.filterGt ctx23 { d := 3, a := 0, b := 1 }, [.f, .u, .f, .u]), (.filterGe ctx23 { d := 3, a := 0, b := 1 }, [.t, .u, .f, .u]),
    (.filterGe ctx23 { d := 3, a := 1, k := true, imm := 0 }, [.t, .f, .f, .u]),
    (.filterBetween ctx23 { d := 3, a := 0, b := 2, g := 1 }, [.t, .u, .f, .u]), (.filterIsNull ctx23 { d := 3, a := 0 }, [.f, .t, .f, .u]),
    (.filterInList ctx23 { d := 3, a := 0, imm := 2 }, [.t, .u, .f, .u]), (.filterInList ctx23 { d := 3, a := 0, imm := 3 }, [.t, .u, .u, .u])] :
    List (Instr × List Tri)).all (fun p => maskIs p.1 p.2) = true := by decide +kernel

theorem test_filter_logic : ([(.filterAnd ctx23 { d := 3, a := 0, b := 1 }, [.t, .f, .u, .t]), (.filterOr ctx23 { d := 3, a := 0, b := 1 }, [.t, .t, .t, .t]),
    (.filterOr ctx23 { d := 3, a := 0, b := 0 }, [.t, .f, .u, .t]), (.filterNot ctx23 { d := 3, a := 0 }, [.f, .t, .u, .f]),
    (.filterIsTrue ctx23 { d := 3, a := 0 }, [.t, .f, .f, .t]), (.filterIsFalse ctx23 { d := 3, a := 0 }, [.f, .t, .f, .f]),
    (.filterIsUnknown ctx23 { d := 3, a := 0 }, [.f, .f, .t, .f])] : List (Instr × List Tri)).all (fun p => maskIs p.1 p.2) = true := by
  decide +kernel

/-- Whether an instruction leaves these INT64 slots in column register 5. -/
def colIs (c : Instr) (l : List (Option Int)) : Bool :=
  after c filtering (fun u => u.filterAt ctx23 == some (aMachine.setCol 5 (intReg l)))

theorem test_filter_arithmetic : ([(.filterAdd ctx23 { d := 5, a := 0, b := 1 }, [some 10, none, some 1, none]),
    (.filterSub ctx23 { d := 5, a := 0, b := 1 }, [some 0, none, some (-3), none]), (.filterMul ctx23 { d := 5, a := 0, b := 1 }, [some 25, none, some (-2), none]),
    (.filterDiv ctx23 { d := 5, a := 0, b := 1 }, [some 1, none, some 0, none]), (.filterMod ctx23 { d := 5, a := 0, b := 1 }, [some 0, none, some (-1), none]),
    (.filterNeg ctx23 { d := 5, a := 0 }, [some (-5), none, some 1, none]), (.filterCast ctx23 { d := 5, a := 0, imm := 0 }, [some 5, none, some (-1), none]),
    (.filterAdd ctx23 { d := 5, a := 0, b := 1, guarded := true, g := 0 }, [some 10, none, none, none]),
    (.filterLdCol ctx23 { d := 5, imm := 0 }, [some 1, some 2, some 3, some 4])] : List (Instr × List (Option Int))).all
      (fun p => colIs p.1 p.2) = true := by decide +kernel

/-- A division by zero in one computed slot ends the route and writes no register; the guard can exclude the slot. -/
theorem test_filter_fault : (after (.filterDiv ctx23 { d := 5, a := 0, b := 2 }) filtering (fun u => u.scn == []
      && (u.route? key3).any (fun r => r.conditions == [0x0406]))
    && after (.filterDiv ctx23 { d := 5, a := 1, b := 0, guarded := true, g := 0 }) filtering (fun u =>
      (u.filterAt ctx23).any (fun m => m.col? 5 == some (intReg [some 1, none, none, none])))) = true := by decide +kernel

/-- HASH64 and CRC32C take every selected slot, a null too, and no unselected one. -/
theorem test_filter_hashes : ([(.filterHash64 ctx23 { d := 5, a := 0, imm := 0 }), (.filterCrc32c ctx23 { d := 5, a := 0 })] : List Instr).all
    (fun c => after c filtering (fun u => (u.filterAt ctx23).any (fun m => (m.col? 5).any (fun r =>
      r.slots.map (fun x => x.isSome) == [true, true, true, false])))) = true := by decide +kernel

/-! ## Cairn -/

/-- The 64 bytes of a Cairn command: CMD, TABLE, ENTRY, word 1, key, care. -/
def cairnBytes (cmd table entry w1 : Nat) (key : List Byte) (care : Nat) : List Byte :=
  natLe 8 (cmd * 2 ^ 56 + table * 2 ^ 48 + entry) ++ natLe 8 w1 ++ fitTo 40 key ++ natLe 8 care

/-- Tenant 3 with quota for four banks and table 1 on bank 0, width 1: entry 0 holds the key of -1, entry 4,095 that of 5. -/
def cairned : State :=
  match ({ filtering with objs := [] }.oset (tobj 0x9010 3) 1 4).cairnList 3 0
    [cairnBytes 1 1 0 (2 ^ 56) [] 0, cairnBytes 4 1 0 0 (natLe 8 (2 ^ 64 - 1)) 0x3FF, cairnBytes 5 1 0 0 [] 0,
     cairnBytes 4 1 4095 0 (natLe 8 5) 0x3FF, cairnBytes 5 1 4095 0 [] 0] with
  | .done s => s
  | _ => State.reset

def aTable : CairnTable := (cairned.tableOf 3 (3 * 2048 + 1)).getD
  { tenant := 0, number := 0, split := false, width := 1, banks := 0, ridges := 0, shadow := 0 }

/-- The table stands on bank 0 of every ridge; a search finds an entry at either end of the index range. -/
theorem test_cairn_search : ((cairned.tableOf 3 (3 * 2048 + 1)).isSome && cairned.ownedBanks == (List.range 16).map (fun r => 4 * r)
    && (cairned.searchTable aTable 7 none (fitTo 10 (natLe 8 5))).1 == some 4095
    && (cairned.searchTable aTable 7 none (fitTo 10 (natLe 8 (2 ^ 64 - 1)))).1 == some 0
    && (cairned.searchTable aTable 7 none (fitTo 10 (natLe 8 7))).1 == none) = true := by decide +kernel

theorem test_incairn : (after (.filterInCairn ctx23 { d := 3, a := 0, imm := 4 }) cairned (fun u =>
      (u.filterAt ctx23).any (fun m => m.mask? 3 == some [.t, .u, .t, .u]))
    && after (.filterInCairn ctx23 { d := 3, a := 0, imm := 0 }) cairned (fun u => u.scn == []
      && (u.route? key3).any (fun r => r.conditions == [0x0123]))) = true := by decide +kernel

/-- A machine on a VARCHAR column with the strings "ab" and one longer than the table's keys. -/
def strings : State :=
  { cairned with scn := [(19, { aMachine with
      rows := 2, sel := [true, true]
      cregs := [(0, { ty := tyVarchar, scale := 0, width := 0, sorted := false
                      slots := [some (.str [0x61, 0x62]), some (.str (List.replicate 11 0x61))] })] })] }

/-- INCAIRN of a string of 11 bytes is FALSE in a table of width 1; PREFIX and SUFFIX search ten bytes of it. -/
theorem test_prefix_suffix : [Instr.filterInCairn ctx23 { d := 3, a := 0, imm := 4 }, .prefixMatch ctx23 { d := 3, a := 0, imm := 4 },
    .suffixMatch ctx23 { d := 3, a := 0, imm := 4 }].all (fun c => after c strings (fun u =>
      (u.filterAt ctx23).any (fun m => m.mask? 3 == some [.f, .f]))) = true := by decide +kernel

/-- Row 4,095 of bank 28 with its lowest key bit turned over: it fails parity. -/
def flipped : State :=
  cairned.writeRow 28 4095 ((cairned.bank 28).row 4095 ^^^ 1#94)

theorem test_parity_sweep : (((flipped.bank 28).rowBad 4095) && after .paritySweep flipped (fun u => u.now == 1513
      && (u.bank 28).row 4095 == (cairned.bank 28).row 4095 && (u.bank 28).passes == [(1001, 1513)]
      && u.onum 0x3030 3 == 1 && u.err.nextSeq == 1)) = true := by decide +kernel

/-- A scrub also finds a row that parity cannot: two bits turned over. -/
theorem test_shadow_scrub : after .shadowScrub (cairned.writeRow 28 0 ((cairned.bank 28).row 0 ^^^ 5#94)) (fun u =>
      (u.bank 28).row 0 == (cairned.bank 28).row 0 && u.onum 0x3030 4 == 1) = true := by decide +kernel

/-! ## Pitches, spans and tasks -/

/-- Pitch 5 ends its 128 us at clock 1,000 + 256,000. -/
def ticking (p : PitchSt) : State := { live with pitch := p }
def pitch5 : PitchSt := { PitchSt.reset with running := true, number := 5, lastTick := 1000, expected := 257000 }

/-- A slot with its first buffer filling. -/
def slotted : State :=
  { ticking pitch5 with summit := { live.summit with
    slots := [(0, ({ state := .filling, tag := 0, entries := [] }, { state := .free, tag := 0, entries := [] }))] } }

/-- The cutoff lies 8 us before the tick; it closes the buffer with this pitch's tag, once, and the decision frees it. -/
theorem test_cutoff : (after .cutoff slotted (fun u => u.now == 241000 && u.pitch.cutoffDone && (u.slot 0).1.state == .closed
      && (u.slot 0).1.tag == 5 && (u.slot 0).2.state == .filling && after .cutoff u (fun w => w == u)
      && after .decision u (fun w => w.pitch.decisionDone && (w.slot 0).1.state != .closed && after .decision w (fun v => v == w)))) = true := by
  decide +kernel

theorem test_tick : after (.tick 9000) slotted (fun u => u.pitch.number == 6 && u.pitch.lastTick == 257000 && !u.pitch.cutoffDone
      && !u.pitch.decisionDone && u.power.packageMw == 9000 && (u.slot 0).1.state != .closed) = true := by decide +kernel

/-- A device paced by TICK_IN, `early` clocks before its period is over. -/
def paced (early misses good : Nat) (fallback : Bool) : State :=
  { ticking { pitch5 with mode := .tickIn, tickInStarted := true, misses := misses, goodEdges := good, fallback := fallback } with
    now := 257000 - early }

/-- An edge one microsecond early is a tick, one a clock earlier is not and is counted; the first edge is tick 0. -/
theorem test_tick_in_edge : (after .tickInEdge (paced 2000 3 0 false) (fun u => u.pitch.number == 6 && u.pitch.misses == 0
      && u.pitch.lastTick == 255000)
    && after .tickInEdge (paced 2001 3 0 false) (fun u => u.pitch == (paced 2001 3 0 false).pitch && u.onum 0x2001 6 == 1)
    && after .tickInEdge (ticking { pitch5 with mode := .tickIn }) (fun u => u.pitch.tickInStarted && u.pitch.number == 6)) = true := by
  decide +kernel

/-- The seventh miss in a row keeps the pacing, the eighth leaves it; the eighth good edge brings it back and ticks, unless the
internal timer has just ticked. -/
theorem test_tick_in_miss : (after .tickInMiss (paced 0 6 0 false) (fun u => u.pitch.number == 6 && u.pitch.lastTick == 259000
      && u.pitch.misses == 7 && !u.pitch.fallback)
    && after .tickInMiss (paced 0 7 0 false) (fun u => u.pitch.fallback)
    && after .tickInEdge (paced 0 8 7 true) (fun u => !u.pitch.fallback && u.pitch.misses == 0 && u.pitch.number == 6)
    && after .tickInEdge (paced 254000 8 7 true) (fun u => !u.pitch.fallback && u.pitch.misses == 0 && u.pitch.number == 5)) = true := by
  decide +kernel

/-- Device 0 of four, all alive, its ports 0 and 1 active. -/
def four : State :=
  { live with
    sys := { live.sys with deviceCount := 4 }
    pitch := { pitch5 with mode := .follower, master := 2 } }

/-- A marker whose tick is 160 eighths of a nanosecond off leaves the timer alone; one more is a correction. -/
theorem test_tick_marker : (after (.tickMarker 0 2 2 160 5) { four with now := 1000 } (fun u => u.pitch == four.pitch
      && after (.tickMarker 0 2 2 160 5) u (fun w => w == u))
    && after (.tickMarker 0 2 2 161 5) { four with now := 1000 } (fun u => u.pitch.correction == -161 && u.oint 0x2001 4 == -20)) = true := by
  decide +kernel

def aSpan : Span :=
  { openPitch := 5, q := 1, ext := 0, replaying := false, faultReplays := 0, sources := [], handedOut := [], releasedRopes := []
    acks := [(1, 0)], acked := false, echo := false, verdict := none, allocated := [], freed := [], searched := [], merged := [], doneByC := false, held := false }

def spanned (home : Nat) (sp : Span) : State :=
  { four with routes := [{ aRoute with key := { key3 with home := home }, span := some sp }] }

def anAck (home kind tick : Nat) : BelayAck :=
  { slotSource := 1, dest := 0, routeId := 7, spanPitch := 5, tick := tick, tenant := 3, kind := kind, source := 1, home := home
    halvings := 1, faultReplays := 0 }

/-- What the span of the one route holds after an acknowledgement. -/
def spanAfter (home : Nat) (a : BelayAck) (p : Span → Bool) : Bool :=
  after (.belayAck a) (spanned home aSpan) (fun u => (u.routes.head?.bind (fun r => r.span)).any p)

theorem test_belay_ack : (spanAfter 0 (anAck 0 1 5) (fun sp => sp.acks == [(1, 1)]) && spanAfter 0 (anAck 0 1 4) (fun sp => sp == aSpan)
    && spanAfter 1 (anAck 1 4 5) (fun sp => sp.verdict == some 4) && spanAfter 1 (anAck 1 5 5) (fun sp => sp.verdict == some 5 && sp.ext == 1)
    && spanAfter 1 (anAck 1 6 5) (fun sp => sp.verdict == some 6)
    && after (.belayAck { anAck 0 1 5 with dest := 3 }) (spanned 0 aSpan) (fun u => u == (spanned 0 aSpan).send (.belay { anAck 0 1 5 with dest := 3 })))
    = true := by decide +kernel

theorem test_heartbeats : (after .heartbeatSend four (fun u => u.coh.beats == 1)
    && after (.heartbeat 0 3 1 1 9) four (fun u => u.coh.lastBeat.find 3 == some 1000 && u.coh.seenBeat.find 3 == some 9
      && u.coh.retreated == [3] && u.coh.dead == [])
    && after (.heartbeat 0 3 1 0 9) { four with coh := { four.coh with retreated := [3] } } (fun u => u.coh.retreated == [])) = true := by
  decide +kernel

/-- The master's death gives another at the next tick; a device due for bivouac declares none; a notice that names this device silences it. -/
theorem test_deaths : (after (.heartbeatTimeout 2) four (fun u => u.coh.dead == [2] && u.pitch.master == 2
      && after (.tick 0) u (fun w => w.pitch.master == 0 && w.pitch.mode == .internal))
    && after (.heartbeatTimeout 3) { four with sys := { four.sys with bivouacArmed := some 5 } } (fun u => u.coh.dead == [])
    && after (.heartbeatTimeout 3) { four with sys := { four.sys with bivouacArmed := some 6 } } (fun u => u.coh.dead == [3])
    && after (.deathNotice (deathMsg 1 3)) four (fun u => u.coh.dead == [3])
    && after (.deathNotice (deathMsg 1 0)) four (fun u => u.coh.silent && u.sys.state == .retreat)) = true := by decide +kernel

/-- A transaction that waits for the proxy of device 3. -/
def waitingTxn : Txn :=
  { tracker := 0, line := 0, req := { op := opRdShared, src := 0, dst := 0, txn := 0, line := 0 }, waiting := [3 * 256 + locProxy]
    data := none, answered := [], fwd := none, moved := false, since := 0, backInv := false, resume := none }

theorem test_snoop_timeout : agentDev (3 * 256 + locProxy) == 3
    && after (.snoopTimeout 3) { four with coh := { four.coh with open_ := [waitingTxn] } } (fun u => u.coh.dead == [3])
    && after (.snoopTimeout 2) { four with coh := { four.coh with open_ := [waitingTxn] } } (fun u => u.coh.dead == []) := by
  decide +kernel

/-- A route whose span replays, or not. -/
def replaying (b : Bool) : State :=
  { ticking pitch5 with routes := [{ aRoute with span := some { aSpan with replaying := b } }] }

/-- Whether the one route's span replays. -/
def replays (u : State) : Bool := (u.routes.head?.bind (fun r => r.span)).any (fun sp => sp.replaying)

theorem test_resource_failure : (after (.resourceFailure (.ridge 2)) (replaying false) (fun u => u.sys.ridgeMap[2]? == some 16
      && u.sys.spareRidge == none && u.sys.retired == [2] && replays u)
    && after (.resourceFailure (.strand 2 7)) (replaying false) (fun u => u.flash.strandMarks == [(2, 7)]
      && (u.sys.strandMap.getD 2 [])[7]? == some 8 && replays u)) = true := by decide +kernel

theorem test_span_restart : after (.spanRestart key3) (replaying true) (fun u => !replays u
      && (u.routes.head?.bind (fun r => r.span)).any (fun sp => sp.openPitch == 5 && sp.verdict == none)) = true := by decide +kernel

/-- The one participant is this device; its closed buffer of pitch 5 holds an entry of two ropes. -/
def merging : State :=
  let e : SlotEntry := { key := key3, kind := 0, ridge := 0, device := 0, spanPitch := 5, chain := [(8, 0), (9, 1)] }
  { replaying false with
    pitch := { pitch5 with cutoffDone := true }
    summit := { live.summit with
      slots := [(0, ({ state := .closed, tag := 5, entries := [e] }, { state := .filling, tag := 0, entries := [] }))] } }

theorem test_summit_merge : (merging.mergeReady { aRoute with span := some aSpan } 5 && after (.summitMerge key3 5) merging (fun u =>
      (u.routes.head?.bind (fun r => r.span)).any (fun sp => sp.merged == [5]) && u.closedEntries 5 (fun e => e.key == key3) == []
      && (u.route? key3).any (fun r => r.work.staging.map (fun x => (x.seq, x.obj)) == [(8, 0), (9, 1)]))) = true := by decide +kernel

def publishing (paused : Option Nat) : State :=
  { ticking pitch5 with routes := [{ aRoute with publish := some { startedAt := 0, bytes := [1], check := 2, doneAt := none
                                                                   paused := paused, object := none, table := none, tableBytes := 0, lacks := false } }] }

theorem test_publication : (after (.publicationDone key3) (publishing none) (fun u =>
      (u.routes.head?.bind (fun r => r.publish)).any (fun p => p.doneAt == some 1000))
    && after (.publicationResume key3) (publishing (some 3)) (fun u =>
      (u.routes.head?.bind (fun r => r.publish)).any (fun p => p.bytes == [1] && (p.paused == none || p.paused == some 3)))) = true := by
  decide +kernel

/-- A route suspended in pitch 5 ends when the limit's ticks have passed, not one tick before. -/
def suspended (n : Nat) : State :=
  { ticking { pitch5 with number := n } with
    routes := [{ aRoute with suspended := some { cause := 0, footprint := [], tick := 5 } }] }

theorem test_suspend_limit : (after (.suspendLimitExpiry key3) (suspended 65541) (fun u => u.routes.all (fun r => r.finalDue))
    && after (.suspendLimitExpiry key3) (suspended 65540) (fun u => u == suspended 65540)) = true := by decide +kernel

/-! ## Tasks -/

/-- Two ready tasks of a STRAND stage on ridge 2: that of the higher priority goes first. -/
def strandTask (id : Nat) : Task := { key := { key3 with id := id }, stage := 0, ridge := 2, input := .rope (objKey 3 1), seq := 4 }

def scheduled : State :=
  { ropeState with
    strands := []
    routes := [{ aRoute with span := some aSpan }, { aRoute with key := { key3 with id := 8 }, span := some aSpan
                                                                 desc := { aDesc with priority := 5 } }]
    sched := { live.sched with ready := [strandTask 7, strandTask 8] } }

theorem test_task_dispatch : (scheduled.freeCtx 2 .strand == some 0 && after (.taskDispatch 2 .strand) scheduled (fun u =>
      u.sched.running.map (fun r => (r.task, r.ctx)) == [(strandTask 8, 0)] && u.sched.ready == [strandTask 7]
      && (u.strand 2 0).task.any (fun k => k.key.id == 8))
    && after (.taskDispatch 2 .strand) { scheduled with sched := { scheduled.sched with railsHeld := [0] } } (fun u =>
      u.sched.running == [] && u.onum 0x7000 7 == 1)) = true := by decide +kernel

def done : Running := { ridge := 2, unit := .jnu, ctx := 7, task := strandTask 7, outputs := [strandTask 8] }

theorem test_task_done : after (.taskDone 2 .jnu 7) { scheduled with sched := { scheduled.sched with
      ready := [], running := [done, { done with ctx := 6 }] } } (fun u => u.sched.running == [{ done with ctx := 6 }]
      && u.sched.ready == [strandTask 8]) = true := by decide +kernel

/-- A build that has received nothing is sealed into one bank of the CAM. -/
def buildDesc : RouteDesc :=
  { aDesc with stages := [{ codeStage kBuild with options := 1, words := [0, 0, 0, 2 ^ 60, 0, 0, 0, 0] },
    { codeStage kProbe with words := List.replicate 8 0 }] }

def sealTask : Task := { key := key3, stage := 0, ridge := 2, input := .sealBuild, seq := 0 }

def sealing : State := { scheduled with
  routes := [{ aRoute with desc := buildDesc, span := some aSpan }], sched := { live.sched with ready := [sealTask] } }

theorem test_join_seal : after (.joinSeal key3 0 2) sealing (fun u =>
      !u.sched.ready.contains sealTask && (u.route? key3).any (fun r => (r.work.builds.find 2).any (fun b => b.isSealed))) = true := by
  decide +kernel

/-- What the clause about a seal assumes: it is the next task of its ridge's JNU, and its work ends. -/
theorem witness_join_seal : (sealing.nextIs 2 .jnu sealTask == some 0 && sealing.sched.railsHeld == []
    && (match sealing.pickTask 2 .jnu, sealing.route? key3 with
      | some (_, s'), some r => (match (s'.performTask r sealTask 0).traffic s' r sealTask with
        | .ok ts s2 => s2.sched.running == [] && ts == []
        | _ => false)
      | _, _ => false)) = true := by decide +kernel

/-! ## The Depot's engines -/

def moving (tries : Nat) : State :=
  { ticking pitch5 with depot := { live.depot with
    zeroQueue := [{ tier := 0, addr := 0, size := 65536 }, { tier := 0, addr := 65536, size := 65536 }]
    migrations := [{ page := 9, toTier := 1, toAddr := 131072, changed := [], live := false, copied := false, ended := false, due := true, tries := tries }] } }

theorem test_depot_engines : (after .zeroPageCleared (moving 0) (fun u => u.depot.zeroQueue == [{ tier := 0, addr := 65536, size := 65536 }])
    && after (.migrationCopyDone 9) (moving 0) (fun u => u.depot.migrations.all (fun m => m.copied))
    && after (.migrationCopyDone 8) (moving 0) (fun u => u.depot.migrations == (moving 0).depot.migrations)
    && after (.migrationAbandon 9) (moving 4) (fun u => u.depot.migrations == [] && u.depot.zeroQueue.length == 3 && u.onum 0x4002 3 == 1)
    && after (.migrationAbandon 9) (moving 3) (fun u => u == moving 3)) = true := by decide +kernel

/-- A write that waits for the journal, on a line of no page: it goes on. -/
def stalled : State :=
  let m : CohMsg := { op := opRdShared, src := locProxy, dst := 0, txn := 0, line := 0 }
  { ticking pitch5 with
    depot := { live.depot with stalled := [m] }
    coh := { live.coh with open_ := [{ waitingTxn with req := m, waiting := [] }] } }

theorem test_journal_release : (stalled.depot.journal.length < stalled.journalRoom && after .journalStallRelease stalled (fun u =>
      u.depot.stalled == [])) = true := by decide +kernel

/-- A write that needs a record while the journal has no room. -/
def full : State :=
  let m : CohMsg := { op := opRdOwn, src := locProxy, dst := 0, txn := 0, line := 2 ^ 43 }
  { stalled.oset 0x2002 1 0 with
    routes := (replaying false).routes
    depot := { live.depot with stalled := [m], pages := [(1, { aPage (objKey 3 1) with tier := 0, addr := 0 })] }
    coh := { live.coh with open_ := [{ waitingTxn with req := m, line := 2 ^ 43, waiting := [] }] } }

theorem test_journal_full : (full.needsRecord (2 ^ 43) && full.journalRoom == 0 && after .journalStallRelease full (fun u =>
      u.depot.stalled == full.depot.stalled)) = true := by decide +kernel

/-! ## Queues and admin commands -/

def WQ.of (cq order : Nat) : WQ := Machine.WQ.fresh (2 ^ 63 + 4096) 6 (2 ^ 63 + 64) cq order
def CQ.of (order : Nat) : CQ := Machine.CQ.fresh (2 ^ 63 + 8192) 6 (2 ^ 63 + 128) 5 0 0 order

/-- Tenant 0 with its admin queues, an I/O work queue 1 and its completion queue 1, and vector 5 unmasked. -/
def hosted : State :=
  { live with
    host := { live.host with
      fns := [(0, { FnSt.reset with enable := true, msixTable := [] })]
      wqs := [(0, WQ.of 0 0), (1, WQ.of 1 2)]
      cqs := [(0, CQ.of 1), (1, CQ.of 3)]
      nextQueueNo := 4 } }

/-- The ring holds 64 entries: a doorbell of 64 fits, one of 65 does not and is counted. -/
theorem test_doorbells : (after (.wqTailDoorbell 0 1 64) hosted (fun u => (u.wq? 0 1).any (fun w => w.db == 64))
    && after (.wqTailDoorbell 0 1 65) hosted (fun u => u.wq? 0 1 == hosted.wq? 0 1 && u.onum (tobj 0x9000 0) 9 == 1)
    && after (.cqHeadDoorbell 0 1 3) (hosted.putCq 0 1 { CQ.of 3 with tail := 3 }) (fun u => (u.cq? 0 1).any (fun c => c.head == 3))
    && after (.cqHeadDoorbell 0 1 4) (hosted.putCq 0 1 { CQ.of 3 with tail := 3 }) (fun u => (u.cq? 0 1).any (fun c => c.head == 0))) = true := by
  decide +kernel

/-- A record that waited for a full ring goes to slot 64 mod 64 with the phase of the second round. -/
def waitingRecord : Completion := { status := 9, cid := 7, qid := 1, opcode := 2 }

theorem test_completion_post : after (.cqHeadDoorbell 0 1 1) (hosted.putCq 0 1 { CQ.of 3 with tail := 64, due := [waitingRecord] }) (fun u =>
      (u.cq? 0 1).any (fun c => c.due == [] && c.tail == 65)
      && (List.range 64).map (fun i => u.host.mem.read (8192 + i)) == waitingRecord.bytes 0 hosted.timeNs) = true := by decide +kernel

theorem test_interrupts : (after (.msixCoalesceTimeout 0 1) (hosted.putCq 0 1 { CQ.of 3 with unsignalled := 1 }) (fun u => u.out == [.msix 0 5]
      && (u.cq? 0 1).any (fun c => c.unsignalled == 0))
    && after (.msixCoalesceTimeout 0 1) { hosted with host := { hosted.host with
        fns := [(0, { FnSt.reset with enable := true })], cqs := [(1, { CQ.of 3 with unsignalled := 1 })] } } (fun u => u.out == []
      && (u.fn 0).msixPending == [5])) = true := by decide +kernel

/-- ENABLE with a misaligned base is an error; with legal registers it makes the queues, and clearing it removes them. -/
def adminRegs (base : Nat) : State :=
  { live with host := { live.host with
    fns := [(0, { FnSt.reset with awqBase := base, acqBase := 2 ^ 63 + 8192, aqSizes := 0x0606, awqIndex := 2 ^ 63 + 8, acqIndex := 2 ^ 63 + 16 })] } }

theorem test_enable : (after (.aqEnable 0) (adminRegs (2 ^ 63 + 4095)) (fun u => (u.fn 0).adminError && !(u.fn 0).enable)
    && after (.aqEnable 0) (adminRegs (2 ^ 63 + 4096)) (fun u => (u.fn 0).enable && (u.wq? 0 0).any (fun w => w.ring == 4096 && w.logSize == 6)
      && (u.cq? 0 0).any (fun c => c.ring == 8192)
      && after (.aqDisable 0) u (fun w => !(w.fn 0).enable && w.wq? 0 0 == none && w.cq? 0 0 == none))) = true := by decide +kernel

/-- An entry of an opcode with its other words, of one unit. -/
def entryOf (q op : Nat) (l : List Nat) : Entry :=
  { tenant := 0, qid := q, words := (op * 2 ^ 56 + 2 ^ 48 + 0x2A * 2 ^ 32) :: (l ++ List.replicate (7 - l.length) 0) }

/-- Host memory that holds an entry at the head of work queue 1, whose doorbell is one unit on. -/
def ringed : State :=
  { hosted with host := { hosted.host with
    wqs := [(1, { WQ.of 1 2 with db := 1 })]
    mem := Memory.writeN [] 4096 (bytesOfWords (entryOf 1 1 [2 ^ 63]).words) } }

theorem test_fetch : (entryCheck (entryOf 1 1 [2 ^ 63]) == none && after .fetchEntry ringed (fun u => u.host.fetched == [entryOf 1 1 [2 ^ 63]]
      && (u.wq? 0 1).any (fun w => w.head == 1 && w.db == 1))
    && after (.wqStallTimeout 0 1) (hosted.putWq 0 1 { WQ.of 1 2 with db := 1, stallSince := some 0, need := 2 }) (fun u =>
      (u.wq? 0 1).any (fun w => w.halted && w.head == 0) && u.onum (tobj 0x9000 0) 8 == 1)) = true := by decide +kernel

/-- The host side with one entry that waits for its action. -/
def acting (e : Entry) : State :=
  { hosted with host := { hosted.host with fetched := [e] }, objs := (hosted.oset (tobj 0x9000 0) 3 8).objs }

/-- Whether an admin command completes with a status, and leaves what `p` says. -/
def admin (c : Entry → Instr) (op : Nat) (l : List Nat) (status : Nat) (p : State → Bool) : Bool :=
  after (c (entryOf 0 op l)) (acting (entryOf 0 op l)) (fun u => u.host.fetched == []
    && getLe ((List.range 64).map (fun i => u.host.mem.read (8192 + i))) 6 2 == status && p u)

theorem test_create_queues : (admin .createWq 0x10 [2 ^ 63 + 4096, 2 * 2 ^ 48 + 16, 1, 2 ^ 63 + 8] stOk (fun u =>
      (u.wq? 0 2).any (fun w => w.ring == 4096 && w.logSize == 16 && w.index == 8 && w.cq == 1 && w.order == 4))
    && admin .createWq 0x10 [2 ^ 63 + 4096, 2 ^ 48 + 6, 1, 2 ^ 63 + 8] stDescMalformed (fun _ => true) == false
    && admin .createCq 0x12 [2 ^ 63 + 8192, 255 * 2 ^ 48 + 6, 9 * 2 ^ 32 + 4 * 2 ^ 16 + 63, 2 ^ 63 + 16] stOk (fun u =>
      (u.cq? 0 255).any (fun c => c.vector == 63 && c.count == 4 && c.time == 9))) = true := by decide +kernel

theorem test_delete_queues : (admin .deleteWq 0x11 [0, 2 ^ 48] stOk (fun u => u.wq? 0 1 == none && (u.wq? 0 0).isSome)
    && after (.deleteCq (entryOf 0 0x13 [0, 2 ^ 48])) { acting (entryOf 0 0x13 [0, 2 ^ 48]) with
        host := { (acting (entryOf 0 0x13 [0, 2 ^ 48])).host with wqs := [(0, WQ.of 0 0)] } } (fun u => u.cq? 0 1 == none)
    && admin .deleteCq 0x13 [0, 2 ^ 48] stQueueState (fun u => (u.cq? 0 1).isSome)) = true := by decide +kernel

theorem test_quota_commands : (admin .setQuota 0x14 [0, 0, 0, 2 ^ 56, 2 ^ 21] stOk (fun u => u.onum (tobj 0x9020 0) 2 == 2 ^ 21)
    && admin .setQuota 0x14 [0, 0, 0, 2 ^ 56, 2 ^ 21 + 4096] stDescMalformed (fun u => u.onum (tobj 0x9020 0) 2 != 2 ^ 21)
    && admin .grantSpill 0x14 [0, 0, 0, 2 * 2 ^ 56, 2 ^ 63 + 2 ^ 30, 2 ^ 21] stOk (fun u => u.depot.spills.length == 1)
    && admin .openOutput 0x14 [0, 0, 0, 4 * 2 ^ 56] stOk (fun u => (u.dobj? 0).any (fun d => d.cls == clsOutput && d.pages == [])))
    = true := by decide +kernel

/-- REVOKE_SPILL takes a free range back; CLOSE_OUTPUT frees an output object. -/
def depoted (e : Entry) : State :=
  { acting e with depot := { live.depot with
    spills := [{ tenant := 0, addr := 2 ^ 63 + 2 ^ 30, len := 2 ^ 21 }]
    objects := [(5, { anObj clsOutput [] with key := none })] } }

theorem test_revoke_and_close : (let e := entryOf 0 0x14 [0, 0, 0, 3 * 2 ^ 56, 2 ^ 63 + 2 ^ 30]
    let c := entryOf 0 0x14 [0, 0, 0, 5 * 2 ^ 56, mkHandle 0 clsOutput 5 0, 0]
    after (.revokeSpill e) (depoted e) (fun u => u.depot.spills == [])
      && after (.closeOutput c) (depoted c) (fun u => u.dobj? 5 == none)) = true := by decide +kernel

theorem test_weight_and_log : (admin .setWeight 0x15 [2 ^ 56, 64] stOk (fun u => u.sched.weightAsked == [(0, 64)])
    && admin .logStart 0x15 [2 * 2 ^ 56, 2 ^ 63 + 4096, 20] stOk (fun u => (u.host.logAsked.find 0).any (fun l => l.ring == 4096 && l.active))
    && admin .logStop 0x15 [3 * 2 ^ 56] stOk (fun u => u.host.logAsked == [])) = true := by decide +kernel

theorem test_get_log : (admin .getLogErrorRecords 0x16 [1, 2 ^ 63 + 65536, 64] stOk (fun u => u.err.views.find 0 == none)
    && after (.getLogCounters (entryOf 0 0x16 [2, 2 ^ 63 + 65536, 4096])) (acting (entryOf 0 0x16 [2, 2 ^ 63 + 65536, 4096])) (fun u =>
      u.host.fetched == [])
    && after (.getLogOpenRoutes (entryOf 0 0x16 [3, 2 ^ 63 + 65536, 64])) (acting (entryOf 0 0x16 [3, 2 ^ 63 + 65536, 64])) (fun u =>
      u.host.fetched == [])) = true := by decide +kernel

/-- ABORT of an open route asks for its end at the coming tick; one of an unknown route says so. -/
theorem test_abort : (let e := entryOf 0 0x17 [7]
    after (.abortRoute e) { acting e with routes := [{ aRoute with key := { key3 with tenant := 0 } }] } (fun u =>
      u.routes.all (fun r => r.aborts == [(stAbortedByHost, 5)]))
    && admin .abortRoute 0x17 [8] stRouteUnknown (fun _ => true)) = true := by decide +kernel

/-- LOAD_CAIRN of one CREATE_TABLE command in host memory. -/
theorem test_load_cairn : (let e := entryOf 0 0x18 [2 ^ 63 + 65536, 1]
    let s := acting e
    after (.loadCairn e) { s with objs := (s.oset (tobj 0x9010 0) 1 4).objs, host := { s.host with
      mem := Memory.writeN [] 65536 (cairnBytes 1 1 0 (2 ^ 56) [] 0) } } (fun u => u.cairn.tables.length == 1
        && (u.bank 0).owner == .host 0 1)) = true := by decide +kernel

/-- LOAD_CAIRN of a command on a table that does not exist ends with the command's status and its index. -/
theorem test_load_cairn_fails : (live.cairnList 0 0 [cairnBytes 4 1 0 0 [] 0] matches .fail _ _ _) = true := by decide +kernel

/-! ## Routes of entries and the engines -/

/-- In RETREAT a route completes with RETREAT; a descriptor of zeros is refused by its version. -/
theorem test_submit_refused : (let e := entryOf 1 1 [2 ^ 63]
    after (.submitRoute e) { acting e with sys := { live.sys with state := .retreat } } (fun u => u.host.fetched == [] && u.routes == []
      && getLe ((List.range 64).map (fun i => u.host.mem.read (8192 + i))) 6 2 == stRetreat)
    && after (.submitRoute e) (acting e) (fun u => u.routes == []
      && getLe ((List.range 64).map (fun i => u.host.mem.read (8192 + i))) 6 2 == stDescVersion)) = true := by decide +kernel

/-- A route of version 2 that scans one INT64 column of 4,096 rows and emits it, in host memory at 131,072, with its output
object 5. -/
def submitted (quota : Nat) : State :=
  let header := [2 * 2 ^ 56 + 2 * 2 ^ 48 + 7, quota * 2 ^ 48 + 2 * 2 ^ 40 + 256, mkHandle 0 clsOutput 5 0, 2 ^ 63 + 196608] ++ List.replicate 12 0
  let scan := [2 ^ 56 + 2 ^ 16, 0, 0, 4096, 0, 0, 0, 0]
  let emit := [11 * 2 ^ 56 + 2 ^ 52 + 2 ^ 24 + 2 ^ 16, 0, 0, 0, 0, 0, 0, 0]
  let columns := [5 * 2 ^ 56, 4096, 2 ^ 32, 0, 5 * 2 ^ 56, 0, 0, 0]
  let s := acting (entryOf 1 1 [2 ^ 63 + 131072])
  { s with
    host := { s.host with mem := Memory.writeN (Memory.writeN [] 131072 (bytesOfWords (header ++ scan ++ emit))) 196608 (bytesOfWords columns) }
    depot := (depoted (entryOf 1 1 [])).depot }

theorem test_submit : (after (.submitRoute (entryOf 1 1 [2 ^ 63 + 131072])) (submitted 1) (fun u => u.host.fetched == []
      && u.routes.map (fun r => (r.key.id, r.qid, r.cid, r.cqid, r.desc.stages.length, r.admitPitch)) == [(7, 1, 0x2A, 1, 2, 5)])
    && after (.submitRoute (entryOf 1 1 [2 ^ 63 + 131072])) (submitted 0) (fun u => u.routes == []
      && getLe ((List.range 64).map (fun i => u.host.mem.read (8192 + i))) 6 2 == stDescMalformed)) = true := by decide +kernel

/-- An engine entry on channel 1 with MODE and MSG. -/
def engineEntry (op mode msg : Nat) (l : List Nat) : Entry := entryOf 1 op (l ++ [2 ^ 58 + mode * 2 ^ 40 + msg * 2 ^ 16])

/-- Whether an engine entry joins channel 1, which then runs. -/
def joins (c : Entry → Instr) (e : Entry) (s : State) (p : State → Bool) : Bool :=
  after (c e) { s with host := { s.host with fetched := [e] } } (fun u => (u.chan 1).waiting.map (fun x => x.entry) == [e]
    && (u.chan 1).state == .running && u.host.fetched == [] && p u)

/-- A state with the digest context 1 of message 9: SHA-256 of 100 bytes, of which some are taken. -/
def digesting (taken : Nat) : State :=
  hosted.putCtx 1 { tenant := 0, msg := 9, alg := 1, length := 100, key := [], taken := zeros taken, lastSeen := false
                    finished := decide (100 ≤ taken), discarded := 0 }

theorem test_engine_entries : (joins .dmaCopy (engineEntry 2 0 0 [2 ^ 63, 2 ^ 63, 5, 5]) hosted (fun _ => true)
    && joins .compress (engineEntry 3 0 0 [2 ^ 63, 2 ^ 63, 5, 11]) hosted (fun _ => true)
    && joins .decompress (engineEntry 4 1 0 [2 ^ 63, 2 ^ 63, 5, 1]) hosted (fun _ => true)
    && joins .digestOpen (engineEntry 5 1 9 [0, 0, 100, 0]) hosted (fun u => (u.eng.contexts.find 1).any (fun c => c.msg == 9 && c.length == 100))
    && joins .digestFeed (engineEntry 6 0 9 [2 ^ 63, 0, 5, 0]) (digesting 0) (fun _ => true)
    && joins .digestRead (engineEntry 7 0 9 [2 ^ 63, 0, 0, 0]) (digesting 0) (fun _ => true)) = true := by decide +kernel

/-- A compress entry with one byte less than it needs, and a feed of a message that is not open, complete at once. -/
theorem test_engine_refused : (after (.compress (engineEntry 3 0 0 [2 ^ 63, 2 ^ 63, 5, 10]))
      { hosted with host := { hosted.host with fetched := [engineEntry 3 0 0 [2 ^ 63, 2 ^ 63, 5, 10]] } } (fun u => u.eng.chans == []
        && getLe ((List.range 64).map (fun i => u.host.mem.read (8192 + i))) 6 2 == stDescMalformed)
    && after (.digestFeed (engineEntry 6 0 9 [2 ^ 63, 0, 5, 0]))
      { hosted with host := { hosted.host with fetched := [engineEntry 6 0 9 [2 ^ 63, 0, 5, 0]] } } (fun u =>
        getLe ((List.range 64).map (fun i => u.host.mem.read (8192 + i))) 6 2 == stEngineState)) = true := by decide +kernel

/-- An admitted copy of five bytes, its lists in host memory. -/
def copyEntry : EngEntry :=
  { entry := engineEntry 2 0 0 [2 ^ 63 + 65536, 2 ^ 63 + 65792, 5, 5], cqid := 1, order := 0, admitTime := 0, priority := 0, src := []
    dst := [], data := [], written := false, result := none }

def chanWith (c : Chan) : State :=
  { digesting 100 with
    eng := { (digesting 100).eng with chans := [(1, c)] }
    host := { hosted.host with mem := Memory.writeN (Memory.writeN (Memory.writeN [] 65536
      (natLe 8 0 ++ natLe 8 1 ++ natLe 8 69632 ++ natLe 8 (2 ^ 62 + 5))) 65792
      (natLe 8 0 ++ natLe 8 1 ++ natLe 8 69888 ++ natLe 8 (2 ^ 62 + 5))) 69632 [1, 2, 3, 4, 5] } }

/-- A copy from its start to its completion; a digest that is ready is read. -/
theorem test_copy : (after (.channelEntryStart 1) (chanWith { Chan.idle with state := .running, waiting := [copyEntry] }) (fun u =>
      (u.chan 1).current.any (fun x => x.data == [1, 2, 3, 4, 5] && x.dst == [(1, 69888, 5)])
      && after (.engineEntryComplete 1) u (fun w => (List.range 5).map (fun i => w.host.mem.read (69888 + i)) == [1, 2, 3, 4, 5]
        && (w.chan 1).state == .idle && w.onum 0x3090 1 == 5
        && getLe ((List.range 64).map (fun i => w.host.mem.read (8192 + i))) 6 2 == stOk))
    && after (.channelEntryStart 1) (chanWith { Chan.idle with
        state := .running, waiting := [{ copyEntry with entry := engineEntry 7 0 9 [2 ^ 63 + 131072, 0, 0, 0] }] } ) (fun u =>
      (u.chan 1).current.any (fun x => x.data == fitTo 64 (sha256 (zeros 100)) && x.result == some { status := stOk, value := 100, aux := 0 })))
    = true := by decide +kernel

def control (mode : Nat) : Entry := engineEntry 8 mode 0 [0, 0, 0, 0]

/-- Whether a DMA_CONTROL entry leaves channel 1 so. -/
def controls (c : Entry → Instr) (mode : Nat) (ch : Chan) (p : Chan → Bool) : Bool :=
  after (c (control mode)) { chanWith ch with host := { hosted.host with fetched := [control mode] } } (fun u => p (u.chan 1))

def aFault : AccessFault := { offset := 0, addr := 69632, space := 1, write := false, poisoned := false }

theorem test_dma_control : (controls .dmaStop 1 { Chan.idle with state := .running, current := some copyEntry } (fun c => c.stops.length == 1
      && c.state == .running)
    && controls .dmaStop 1 { Chan.idle with state := .running, waiting := [copyEntry] } (fun c => c.state == .stopped && c.waiting == [copyEntry])
    && controls .dmaStop 1 Chan.idle (fun c => c.state == .stopped)
    && controls .dmaResume 2 { Chan.idle with state := .halted, fault := some aFault, waiting := [copyEntry] } (fun c => c.state == .running
      && c.fault == none && c.waiting == [copyEntry])
    && controls .dmaFlush 3 { Chan.idle with state := .stopped, waiting := [copyEntry] } (fun c => c == Chan.idle)) = true := by
  decide +kernel

/-- A halt keeps the fault; a waiting job takes engine 0; a block of a digest is taken. -/
theorem test_channel_work : (after (.channelHalt 1 aFault) (chanWith { Chan.idle with
        state := .running, current := some { copyEntry with entry := engineEntry 7 0 9 [2 ^ 63 + 131072, 0, 0, 0] } }) (fun u =>
      (u.chan 1).state == .halted && (u.chan 1).fault == some aFault && (u.chan 1).current == none)
    && after .compressionJobStart (chanWith { Chan.idle with
        state := .running, current := some { copyEntry with entry := engineEntry 3 0 0 [2 ^ 63, 2 ^ 63, 5, 11] } }) (fun u =>
      u.eng.engines == [(0, 1)])
    && (let s := chanWith { Chan.idle with
          state := .running, current := some { copyEntry with entry := engineEntry 6 0 9 [2 ^ 63, 0, 70, 0], data := zeros 70 } }
        after .digestBlock { s with eng := { s.eng with contexts := (digesting 10).eng.contexts } } (fun u =>
          (u.eng.contexts.find 1).any (fun c => c.taken.length == 64) && (u.chan 1).current.any (fun x => x.data.length == 16)
          && u.eng.lastContext == 1))) = true := by decide +kernel

/-! ## Resets, host ports and CXL.mem -/

def tenanted : State := { hosted with routes := [{ aRoute with key := { key3 with tenant := 0 } }], eng := (digesting 0).eng }

theorem test_tenant_resets : ([(Instr.functionLevelReset 0, ResetKind.function), (.managementReset 0, .management)].all (fun p =>
      after p.1 tenanted (fun u => (u.fn 0).resetting == some p.2 && !(u.fn 0).resetDone && u.eng.contexts == []
        && u.routes.all (fun r => r.aborts == [(stTenantReset, 5)])))
    && after (.tenantResetComplete 0) { live with host := { live.host with
        fns := [(0, { FnSt.reset with enable := true, resetting := some .function, resetDone := true })] } } (fun u => u.fn 0 == FnSt.reset)
    && after (.tenantResetComplete 0) { live with host := { live.host with
        fns := [(0, { FnSt.reset with enable := true, resetting := some .management, resetDone := true })] } } (fun u =>
          u.fn 0 == { FnSt.reset with enable := true })
    && after (.tenantResetComplete 0) { live with host := { live.host with
        fns := [(0, { FnSt.reset with resetting := some .function })] } } (fun u => (u.fn 0).resetting.isSome)) = true := by decide +kernel

theorem test_host_ports : (after (.hostPortReset 1) { live with sys := { live.sys with perst1 := true } } (fun u => !u.perst 1
      && ((List.range 32).filter (fun t => u.tenantPort t == 1)).all (fun t => u.resetting t))
    && after (.perstNRelease 0) live (fun u => u.perst 0 && u.out == [.configServed 0] && u.host.linksUp == u.portLinks 0)
    && after (.malformedTlp 1 3) live (fun u => u.out.contains (.aer 1 3) && u.onum (pobj 0x6080 1) 5 == 1 && u.err.nextSeq == 1)) = true := by
  decide +kernel

/-- A read of host memory at the top of a function's address space, and reads that fail. -/
theorem test_host_reads : (after (.hostReadCompletion 0 (2 ^ 64 - 2) (.data [7, 8])) live (fun u =>
      u.host.mem == [(2 ^ 64 - 2, 7), (2 ^ 64 - 1, 8)])
    && [(HostReadResult.unsupported 4, stBusError), (.aborted 4, stBusError), (.timeout 4, stBusError), (.poisoned 4, stPoisonRead)].all (fun p =>
      after (.hostReadCompletion 0 64 p.1) live (fun u => u.host.errors == [(0, 64, 4, p.2)] && u.host.mem == []))) = true := by decide +kernel

/-- The device offers CXL and its memory is active. -/
def cxled : State :=
  (({ live with host := { live.host with linksUp := [0], trained := [(0, (5, 4))] } } : State).oset (pobj 0x6080 0) 3 1).oset 0x5000 5 3

theorem test_cxl : (cxled.cxlOffered && cxled.memActive && cxled.imgBacked 64
    && after (.cxlMemRead 64) cxled (fun u => u.coh.requests.map (fun r => (r.msg.op, r.msg.line, r.purpose)) == [(opRdNc, 64, .cxl 64)])
    && after (.cxlMemWrite 64 [1]) cxled (fun u => u.coh.requests.map (fun r => (r.msg.op, r.msg.mask)) == [(opWrNc, fullMask)])
    && after (.cxlMemPartialWrite 64 6 [1]) cxled (fun u => u.coh.requests.map (fun r => (r.msg.op, r.msg.mask)) == [(opWrNc, 6)])
    && after (.cxlMemRead (2 ^ 47)) cxled (fun u => u.out.getLast? == some (.cxlData (2 ^ 47) (zeros 64) true))
    && after (.cxlMemWrite (2 ^ 47) []) cxled (fun u => u.out.getLast? == some (.cxlDone (2 ^ 47)))
    && after (.cxlMemPartialWrite (2 ^ 47) 1 []) cxled (fun u => u.out.getLast? == some (.cxlDone (2 ^ 47)))
    && after (.cxlOtherM2s true) cxled (fun u => u.out.contains (.cxlData 0 (zeros 64) true))
    && after (.cxlOtherM2s false) cxled (fun u => u.out.contains (.cxlDone 0)) && after (.memspecrd 64) cxled (fun u => u == cxled)) = true := by
  decide +kernel

/-! ## Caches and coherence -/

/-- A maintenance operation of O:0xF010 in progress: its control word. -/
def maintaining (c : Nat) : State :=
  let s := cxled.oset 0xF010 1 c
  { s with cache := { s.cache with cmoBusy := true } }

theorem test_cache_states : (after (.cacheDisable (.l2 16)) live (fun u => u.cacheState 16 == .disabling
      && after (.cacheSweepDone (.l2 16)) u (fun w => w.cacheState 16 == .disabled
        && after (.cacheEnable (.l2 16)) w (fun v => v.cacheState 16 == .enabled)))
    && after (.cacheDisable (.slc 3)) live (fun u => u.cacheState 35 == .disabling)) = true := by decide +kernel

/-- A coherence message between the L2 of ridge 2 and the home of line 0. -/
def coh (op : Nat) : CohMsg := { op := op, src := 2, dst := 0x20, txn := 9, line := 0 }

/-- What the home of line 0 answers the L2: opcode, state, and the entry that stands then. -/
def answers (c : CohMsg → Instr) (op : Nat) (s : State) (want : Nat × Nat) (st : DirState) : Bool :=
  after (c (coh op)) s (fun u => (u.dirEnt 0).state == st && match u.out.getLast? with
    | some (.fabric (.coh n)) => (n.op, n.state) == want && n.dst == 2 && n.src == 0x20 && n.txn == 9
    | _ => false)

def holding (st : DirState) (rs : List Nat) : State :=
  { cxled with coh := { live.coh with dir := [(0, { DirEnt.empty with state := st, owner := rs.headD 0, ridges := rs })] } }

theorem test_home_requests : (answers .rdShared opRdShared cxled (opData, 2) .E && answers .rdShared opRdShared (holding .S [3]) (opData, 1) .S
    && answers .rdOwn opRdOwn cxled (opData, 4) .M && answers .upgrade opUpgrade (holding .S [2]) (opCmp, 4) .M
    && answers .upgrade opUpgrade cxled (opData, 4) .M && answers .rdNc opRdNc (holding .S [3]) (opData, 0) .S
    && answers .wrNc opWrNc cxled (opCmp, 0) .I && answers .cmoClean opCmoClean (holding .S [3]) (opCmp, 0) .S
    && answers .cmoCleaninval opCmoCleanInval cxled (opCmp, 0) .I && answers .cmoInval opCmoInval cxled (opCmp, 0) .I) = true := by
  decide +kernel

/-- A line that ridge 3 owns is snooped first; a line that is busy queues its fourth request. -/
def busy (n : Nat) : State :=
  { cxled with coh := { live.coh with open_ := [{ waitingTxn with waiting := [3] }], queued := List.replicate n (coh opRdShared) } }

theorem test_home_waits : (after (.rdOwn (coh opRdOwn)) (holding .M [3]) (fun u => u.coh.open_.map (fun x => (x.line, x.waiting)) == [(0, [3])]
      && ((holding .M [3]).snoopPlan (coh opRdOwn)).1.map (fun y => y.1) == [3])
    && after (.rdShared (coh opRdShared)) (busy 3) (fun u => u.coh.queued.length == 4)
    && after (.rdShared { coh opRdShared with dst := 0x120 }) four (fun u => u == four.send (.coh { coh opRdShared with dst := 0x120 }))
    && after (.rdShared { coh opRdShared with reserved := 1 }) live (fun u => u.onum 0x6100 10 == 1 && u.out == [])
    && after (.rdOwn (coh opRdShared)) live (fun u => u.onum 0x6100 10 == 1 && u.out == [])) = true := by decide +kernel

/-! A full directory set -/

/-- Entries of lines that the L2 of ridge 3 shares. -/
def sharing (ls : List Nat) : State :=
  { cxled with coh := { live.coh with dir := ls.map (fun l => (l / 64, { DirEnt.empty with state := .S, ridges := [3] })) } }

/-- Line `k` of HBM. -/
def hbmLine (k : Nat) : Nat := 2 ^ 43 + 64 * k

theorem hbm_homeLoc (s : State) {k : Nat} (h : k < 2 ^ 18) : s.homeLoc (hbmLine k) = 0x30 := by
  have h1 : lineHbm (hbmLine k) = true := by simp only [lineHbm, bitAt, hbmLine, beq_iff_eq]; omega
  have h2 : lineOff (hbmLine k) < 24 * 2 ^ 30 := by simp only [lineOff, hbmLine]; omega
  simp only [State.homeLoc, h1, if_true, h2]

/-- Among more than sixteen times as many numbers as `f` has values, `f` takes one value more than sixteen times. -/
theorem crowded (f : Nat → Nat) : ∀ (n : Nat) (l : List Nat), (∀ x ∈ l, f x < n) → 16 * n < l.length →
    ∃ v, 16 < (l.filter (fun x => f x == v)).length
  | 0, l, h, hl => by cases l with
    | nil => simp at hl
    | cons x l => exact absurd (h x (by simp)) (Nat.not_lt_zero _)
  | n + 1, l, h, hl => by
    by_cases c : 16 < (l.filter (fun x => f x == n)).length
    · exact ⟨n, c⟩
    · have e := List.length_eq_countP_add_countP (fun x => f x == n) (l := l)
      rw [List.countP_eq_length_filter, List.countP_eq_length_filter] at e
      have e2 : l.filter (fun x => decide ¬(f x == n) = true) = l.filter (fun x => !(f x == n)) := by
        congr 1; funext x; cases f x == n <;> rfl
      rw [e2] at e
      obtain ⟨v, hv⟩ := crowded f n (l.filter (fun x => !(f x == n))) (fun x hx => by
        have := List.mem_filter.mp hx
        have a := h x this.1
        have b : f x ≠ n := by simpa using this.2
        omega) (by omega)
      exact ⟨v, Nat.lt_of_lt_of_le hv (List.Sublist.filter _ List.filter_sublist).length_le⟩

/-- Among the HBM's lines there are seventeen of one directory set, whichever sets lines have. -/
theorem same_set : ∃ k : Nat, ∃ ks : List Nat, 16 ≤ ks.length ∧ k < 2 ^ 18 ∧ k ∉ ks ∧ ∀ j ∈ ks, j < 2 ^ 18 ∧
    Config.dirSet (hbmLine j) % 8192 = Config.dirSet (hbmLine k) % 8192 := by
  obtain ⟨v, hv⟩ := crowded (fun k => Config.dirSet (hbmLine k) % 8192) 8192 (List.range (2 ^ 18))
    (fun k _ => Nat.mod_lt _ (by decide)) (by simp)
  have hn : ((List.range (2 ^ 18)).filter (fun x => Config.dirSet (hbmLine x) % 8192 == v)).Nodup :=
    List.Pairwise.filter _ List.nodup_range
  match ht : (List.range (2 ^ 18)).filter (fun x => Config.dirSet (hbmLine x) % 8192 == v) with
  | [] => rw [ht] at hv; simp at hv
  | k :: ks =>
    have hm : ∀ j ∈ k :: ks, j < 2 ^ 18 ∧ Config.dirSet (hbmLine j) % 8192 = v := by
      intro j hj
      rw [← ht] at hj
      simpa using hj
    rw [ht] at hv hn
    refine ⟨k, ks, by simp at hv; omega, (hm k (by simp)).1, (List.nodup_cons.mp hn).1, fun j hj => ?_⟩
    have a := hm j (by simp [hj])
    exact ⟨a.1, a.2.trans (hm k (by simp)).2.symm⟩

/-- A request that needs an entry of a full directory set. -/
theorem witness_full_set : ∃ (ls : List Nat) (l : Nat), (sharing ls).roomTaken l = true ∧ (sharing ls).lineBacked l = true ∧
    (sharing ls).linePoisoned l = false ∧ (sharing ls).needsRecord l = false ∧ (sharing ls).lineBusy l = false ∧
    (sharing ls).cohFault { coh opRdShared with line := l, dst := 0x30 } = none ∧ (sharing ls).trackersUsed 0x30 < 256 ∧
    (sharing ls).coh.dir.any (fun e => (sharing ls).dirSetOf (e.1 * 64) == (sharing ls).dirSetOf l
      && !(sharing ls).lineBusy (e.1 * 64) && !(e.2.holders (sharing ls).sys.deviceId).isEmpty) = true := by
  obtain ⟨k, ks, hl, hk, hn, hs⟩ := same_set
  have e : ∀ j, hbmLine j / 64 * 64 = hbmLine j := by intro j; simp only [hbmLine]; omega
  have set : ∀ j ∈ ks, (sharing (ks.map hbmLine)).dirSetOf (hbmLine j / 64 * 64) = (sharing (ks.map hbmLine)).dirSetOf (hbmLine k) := by
    intro j hj
    simp only [e, State.dirSetOf, hbm_homeLoc _ (hs j hj).1, hbm_homeLoc _ hk, (hs j hj).2]
  refine ⟨ks.map hbmLine, hbmLine k, ?_, ?_, ?_, ?_, ?_, ?_, ?_, ?_⟩
  · have f : (sharing (ks.map hbmLine)).coh.dir.filter (fun e => (sharing (ks.map hbmLine)).dirSetOf (e.1 * 64)
        == (sharing (ks.map hbmLine)).dirSetOf (hbmLine k)) = (sharing (ks.map hbmLine)).coh.dir := by
      rw [List.filter_eq_self]
      intro x hx
      simp only [sharing, List.map_map, List.mem_map] at hx
      obtain ⟨j, hj, rfl⟩ := hx
      simpa using set j hj
    have g : (sharing (ks.map hbmLine)).coh.dir.find (hbmLine k / 64) = none := by
      have no : ∀ js : List Nat, k ∉ js → SMap.find (js.map (fun j => (hbmLine j / 64,
          ({ DirEnt.empty with state := .S, ridges := [3] } : DirEnt)))) (hbmLine k / 64) = none := by
        intro js
        induction js with
        | nil => intro _; rfl
        | cons j js ih =>
          intro h
          have ne : hbmLine j / 64 ≠ hbmLine k / 64 := by
            have : k ≠ j := fun h' => h (by simp [h'])
            simp only [hbmLine]; omega
          simp only [List.map_cons, SMap.find, ne, if_false]
          exact ih (fun h' => h (by simp [h']))
      simpa [sharing, List.map_map, Function.comp_def] using no ks hn
    have n : 16 ≤ (sharing (ks.map hbmLine)).coh.dir.length := by simp [sharing, hl]
    rw [State.roomTaken, Bool.and_eq_true, List.all_eq_true]
    refine ⟨by simp [State.dirFull, f, g, n], fun x hx => ?_⟩
    simp only [sharing, List.map_map, List.mem_map] at hx
    obtain ⟨j, -, rfl⟩ := hx
    simp [DirEnt.holders, DirEnt.empty]
  · have h1 : lineHbm (hbmLine k) = true := by simp only [lineHbm, bitAt, hbmLine, beq_iff_eq]; omega
    have h2 : lineOff (hbmLine k) < 48 * gib := by simp only [lineOff, hbmLine, gib]; omega
    simp [State.lineBacked, h1, h2]
  · rfl
  · rfl
  · rfl
  · have h1 : ∀ a, (sharing (ks.map hbmLine)).agentOk a = cxled.agentOk a := fun _ => rfl
    have h2 : cxled.agentOk 2 = true ∧ cxled.agentOk 0x30 = true ∧ cxled.sys.deviceId = 0 := by decide +kernel
    have h3 : (sharing (ks.map hbmLine)).sys.deviceId = cxled.sys.deviceId := rfl
    simp [State.cohFault, coh, cohClass, opRdShared, h1, h2, h3, agentDev, agentLoc, locHome, opTokenReturn]
  · have : (sharing (ks.map hbmLine)).coh.open_ = [] ∧ (sharing (ks.map hbmLine)).coh.tokens = [] := ⟨rfl, rfl⟩
    simp [State.trackersUsed, this]
  · match ks, hl, set with
    | j :: ks, hl, set =>
      have a := set j (by simp)
      rw [List.any_eq_true]
      refine ⟨(hbmLine j / 64, { DirEnt.empty with state := .S, ridges := [3] }), by simp [sharing], ?_⟩
      simp [DirEnt.holders, DirEnt.empty]
      exact ⟨by simpa using a, rfl⟩

/-- A snoop from the home of line 0 to the L2 of ridge 2, which does not hold the line; a forward names another transaction. -/
theorem test_snoops_of_absent_lines : ([(.snpShared { coh opSnpShared with src := 0x20, dst := 2, aux := 4 }, 9), (.snpInv { coh opSnpInv with src := 0x20, dst := 2, aux := 4 }, 9),
    (.snpData { coh opSnpData with src := 0x20, dst := 2, aux := 4 }, 9), (.snpClean { coh opSnpClean with src := 0x20, dst := 2, aux := 4 }, 9),
    (.fwdShared { coh opFwdShared with src := 3, dst := 2, aux := 4 }, 4), (.fwdOwn { coh opFwdOwn with src := 3, dst := 2, aux := 4 }, 4),
    (.snpDiscard { coh opSnpDiscard with src := 0x20, dst := 2, aux := 4 }, 9), (.gangRd { coh opGangRd with src := 3, dst := 2, aux := 4 }, 4),
    (.gangOwn { coh opGangOwn with src := 3, dst := 2, aux := 4 }, 4)] : List (Instr × Nat)).all (fun p => after p.1 live (fun u =>
      match u.out with
      | [.fabric (.coh n)] => n.op == opAck && n.src == 2 && n.state == 0 && n.txn == p.2
      | _ => false)) = true := by decide +kernel

/-- A way that holds a line. -/
def wayOfLine (l : Nat) (st : LineState) (dirty : Bool) : Way :=
  { line := l, state := st, dirty := dirty, rrv := 0, streaming := false, pd := false, fenced := false, data := [] }

/-- The L2 of ridge 2 holds line 0 modified, whichever its set is. -/
def holder : State := { live with cache := { live.cache with l2 := [(l2Key 2 0, [wayOfLine 0 .M true])] } }

theorem witness_snoop_held : ∃ i w, wayOf (waysAt holder.cache.l2 (l2Key 2 0) 16) 0 = some i ∧ (waysAt holder.cache.l2 (l2Key 2 0) 16)[i]? = some w ∧
    w.state = .M := by
  refine ⟨0, _, ?_, by simp [holder, waysAt, SMap.find]; rfl, rfl⟩
  simp [holder, waysAt, SMap.find]
  decide

/-- Answers at a home whose transaction waits for ridges 3 and 4. -/
def gathering : State :=
  { cxled with coh := { live.coh with
    open_ := [{ waitingTxn with tracker := 9, req := coh opRdOwn, waiting := [3, 4] }]
    dir := [(0, { DirEnt.empty with state := .M, owner := 3, ridges := [3] })] } }

def answer (op : Nat) : CohMsg := { coh op with src := 3, data := [0x5A] }

theorem test_home_answers : ([(.cohAck (answer opAck), none, false), (.ackLost (answer opAckLost), none, true),
    (.snpDataRsp (answer opSnpDataRsp), some [0x5A], false), (.ownerMoved (answer opOwnerMoved), none, false)] :
    List (Instr × Option (List Byte) × Bool)).all (fun p => after p.1 gathering (fun u =>
      u.coh.open_.map (fun x => (x.waiting, x.answered, x.data)) == [([4], [3], p.2.1)] && (u.dram.poisoned.find 0).isSome == p.2.2)) = true := by
  decide +kernel

/-- The owner writes line 0 back; a sharer leaves; a dirty-in-pitch notice; a token comes back. -/
theorem test_write_backs : (after (.wbDirty { coh opWbDirty with data := [0x5A, 0x5B] }) (holding .M [2]) (fun u => u.mem == [(0, 0x5A), (1, 0x5B)]
      && match u.out with
        | [.fabric (.coh n)] => n.op == opWbAck && n.dst == 2 && n.txn == 9
        | _ => false)
    && after (.evictClean (coh opEvictClean)) (holding .S [2, 3]) (fun u => (u.dirEnt 0).ridges == [3] && u.out.length == 1)
    && after (.pdSet (coh opPdSet)) (holding .M [2]) (fun u => !u.needsRecord 0 && u.out.length == 1)
    && after (.tokenReturn { coh opTokenReturn with token := 5 }) { live with coh := { live.coh with tokens := [(0x20 * 512 + 5, 2, true)] } }
      (fun u => u.coh.tokens == [])) = true := by decide +kernel

/-- A request of the L2 of ridge 2, or of the host's port, that waits for its answer. -/
def asking (op loc : Nat) (p : Purpose) : State :=
  { cxled with coh := { live.coh with
    requests := [{ msg := { coh op with src := loc }, purpose := p, token := some 5, sent := true, held := [] }]
    wbBuf := [{ agent := loc, line := 0, txn := 9, data := [], keeps := .I }] } }

def reply (op loc : Nat) : CohMsg := { coh op with src := 0x20, dst := loc, data := [0x5A], token := 5, tokenValid := op == opGrant || op == opRetry }

theorem test_requesters : (after (.wbAck (reply opWbAck 2)) (asking opRdShared 2 .unit) (fun u => u.coh.wbBuf == [])
    && after (.cohRetry (reply opRetry 2)) (asking opRdShared 2 .unit) (fun u => u.coh.requests.all (fun r => r.token == some 5 && !r.sent))
    && after (.cohGrant (reply opGrant 2)) (asking opRdShared 2 .unit) (fun u => u.coh.requests.all (fun r => r.token == none)
      && u.out.contains (.fabric (.coh { coh opRdShared with tokenValid := true, token := 5 })))
    && after (.cohData (reply opData locProxy)) (asking opRdNc locProxy .unit) (fun u => u.coh.requests == []
      && u.coh.readBuf.find 0 == some (stOk, fitTo 64 [0x5A]))
    && after (.cohData (reply opData locHost0)) (asking opRdNc locHost0 (.cxl 0)) (fun u => u.out == [.cxlData 0 (fitTo 64 [0x5A]) false])
    && after (.cohCmp (reply opCmp locHost0)) (asking opWrNc locHost0 (.cxl 0)) (fun u => u.out.contains (.cxlDone 0) && u.coh.requests == []))
    = true := by decide +kernel

/-- A maintenance operation by address on a line that no cache holds; by set and way on one that the cache does not hold; and on a
dirty line of way 1 of an L1D set and of an SLC set. -/
theorem test_cache_maintenance : ([(Instr.clean, 1), (.inval, 2), (.cleaninval, 3)].all (fun p =>
      after p.1 (maintaining (p.2 * 2 ^ 60)) (fun u => u.onum 0xF010 3 == 2 && !u.cache.cmoBusy)
      && after p.1 (maintaining (p.2 * 2 ^ 60 + 2 ^ 59)) (fun u => u == (maintaining (p.2 * 2 ^ 60 + 2 ^ 59)).cmoDone)
      && [p.2 * 2 ^ 60 + 2 ^ 59 + 2 * 2 ^ 52 + 2 ^ 48 + 2 ^ 39 + 3 * 2 ^ 27, p.2 * 2 ^ 60 + 2 ^ 59 + 3 * 2 ^ 57 + 2 * 2 ^ 43 + 2 ^ 39 + 3 * 2 ^ 27].all (fun c =>
        let w := wayOfLine 64 .M true
        let s := maintaining c
        let s := { s with cache := { s.cache with
          l1d := [((2 * 9 + 1) * 256 + 3, [invalidWay, w])], slc := [(2 * 3072 + 3, [invalidWay, w])] } }
        s.cmoTarget c == some w && after p.1 s (fun u => u.onum 0xF010 3 == 2
          && u.cmoTarget c == if p.2 = 1 then some w.clean else none)))) = true := by decide +kernel

/-! ## Services of the Omuth Link -/

/-- A service message of device 1 to device 0 about route 7 of tenant 3. -/
def svc (op arg : Nat) : SvcMsg := { op := op, source := 1, dest := 0, tenant := 3, route := 7, arg := arg }

def farKey : RouteKey := { key3 with home := 1 }

/-- A device of four on which route 7 of device 1 is open, with its span. -/
def serving : State :=
  { four with
    routes := [{ aRoute with key := farKey, span := some aSpan }]
    dram := { live.dram with chState := (List.range 16).map (fun c => (c, .active)) } }

theorem test_route_services : (after (.routeOpen { svc svRouteOpen 128 with slot1 := 65 * 2 ^ 96 }) four (fun u =>
      u.link.copies.map (fun c => (c.key, c.line, c.bytes)) == [(farKey, 128, 65)]
      && u.coh.requests.map (fun r => (r.msg.op, r.msg.line)) == [(opRdNc, 128), (opRdNc, 192)])
    && after (.routeOpen { svc svRouteOpen 128 with slot1 := 65 * 2 ^ 96 }) serving (fun u => u == serving)
    && after (.routeEnd (svc svRouteEnd 0x0401)) serving (fun u => u.route? farKey == none)
    && after (.routeEnd (svc svRouteEnd 0x0401)) { four with routes := [aRoute] } (fun u =>
      (u.route? key3).any (fun r => r.conditions == [0x0401] && r.endTick.isSome))
    && after (.routeEnd { svc svRouteEnd 0x0401 with dest := 2 }) four (fun u =>
      u == four.send (.svc { svc svRouteEnd 0x0401 with dest := 2 }))) = true := by decide +kernel

/-- A page of the Depot region for a peer, and none for a route that is not open here. -/
theorem test_page_alloc : (after (.pageAlloc (svc svPageAlloc 0)) serving (fun u => u.depot.pages.length == 1
      && u.depot.pages.all (fun p => p.2.tier == 1 && p.2.size == clsPage 0) && u.link.inbound.length == 1)
    && after (.pageAlloc (svc svPageAlloc 0)) four (fun u => u == four.sendSvc svPageGrant 1 3 7 0 0 0)) = true := by decide +kernel

/-- The Depot region's free pages wait for the zeroing engine: a peer's request waits with them, and is answered once one is clear. -/
def clearing (m : List SvcMsg) : State :=
  { serving with depot := { serving.depot with
    zeroQueue := [{ tier := 1, addr := serving.regionBase, size := serving.regionBytes }], pageAsks := m } }

theorem test_page_waits : (let m := svc svPageAlloc 0
    (clearing []).mustClear m && after (.pageAlloc m) (clearing []) (fun u => u.depot.pageAsks == [m] && u.onum 0x4002 6 == 1 && u.out == [])
    && after .zeroPageCleared (clearing [m]) (fun u => u.depot.pageAsks == [] && u.depot.pages.length == 1)
    && after .zeroPageCleared { clearing [m] with depot := { (clearing [m]).depot with
        zeroQueue := { tier := 1, addr := 0, size := 64 } :: (clearing [m]).depot.zeroQueue } } (fun u => u.depot.pageAsks == [m])) = true := by
  decide +kernel

/-- A ROUTE_OPEN for a route that is suspended here opens its next span. -/
theorem test_route_reopens : (after (.routeOpen { svc svRouteOpen 128 with slot1 := 65 * 2 ^ 96 })
      { serving with routes := [{ aRoute with key := farKey, suspended := some { cause := 0, footprint := [], tick := 5 } }] } (fun u =>
      (u.route? farKey).any (fun r => r.suspended == none && r.span.any (fun sp => sp.openPitch == 5)))) = true := by decide +kernel

def asked (op : Nat) (out : Option Nat) : State :=
  { serving with link := { serving.link with
    asked := [{ device := 1, op := op, tenant := 3, route := 7, cls := 2, outId := out }]
    outbound := [{ id := 4, device := 1, key := farKey, cls := 0, bytes := zeros 3, dstRidge := 0, seq := 0, srcRidge := 0
                   stage := 0, spanPitch := 5, summit := none, ropes := 1, tag := 0, handle := 0, pages := [], written := 0, awaiting := [] }] } }

theorem test_grants : (after (.pageGrant { svc svPageGrant 0 with slot1 := 0 }) (asked svPageAlloc none) (fun u =>
      u.depot.granted.map (fun g => (g.device, g.cls, g.line)) == [(1, 2, 0)])
    && after (.pageGrant { svc svPageGrant 9 with slot1 := 128 }) (asked svPageAlloc none) (fun u =>
      u.depot.granted.map (fun g => (g.device, g.cls, g.line)) == [(1, 2, 128)])
    && after (.pageGrant { svc svPageGrant 9 with slot1 := 128 }) { asked svPageAlloc (some 4) with
        link := { (asked svPageAlloc (some 4)).link with outbound := (asked svPageAlloc (some 4)).link.outbound.map (fun o =>
          { o with bytes := zeros 65537 }) } } (fun u => (u.outbound? 4).any (fun o => o.pages == [128]))
    && after (.quotaGrant (svc svQuotaGrant 2)) (asked svQuotaDraw none) (fun u => u.depot.drawn.find (drawKey 3 1) == some 2)
    && after (.quotaGrant (svc svQuotaGrant 0)) (asked svQuotaDraw none) (fun u => u.depot.granted.map (fun g => g.cls) == [8])) = true := by
  decide +kernel

/-- A draw up to the quota that is left is lent; one block more is refused; a return takes it back. -/
theorem test_quota : (after (.quotaDraw (svc svQuotaDraw 16)) serving (fun u => (u.depot.lent.find 3).getD 0 == 16)
    && after (.quotaDraw (svc svQuotaDraw 17)) serving (fun u => (u.depot.lent.find 3).getD 0 == 0)
    && after (.quotaReturn (svc svQuotaReturn 3)) { serving with depot := { serving.depot with lent := [(3, 5)] } } (fun u =>
      (u.depot.lent.find 3).getD 0 == 2)) = true := by decide +kernel

theorem test_summit_close : after (.summitClose (svc svSummitClose 5)) { serving with summit := { serving.summit with
      slots := [(65, ({ state := .filling, tag := 0, entries := [] }, { state := .free, tag := 0, entries := [] }))] } } (fun u =>
      (u.slot 65).1.state == .closed && (u.slot 65).1.tag == 5 && (u.slot 65).2.state == .filling && u.summit.closes == [(1, 5)]) = true := by
  decide +kernel

/-- An inbound object that the sender filled up to its last 64 bytes: a rope header of no rows, with the sequence 9. -/
def inboundObj : DObj :=
  { cls := clsRope, key := some key3, ridge := 0, pages := [1]
    content := .bytes [(65475, 0x10), (65476, 7), (65482, 9)], forms := [], dying := false }

def noticed : State :=
  { four with
    routes := [{ aRoute with span := some aSpan }]
    link := { four.link with inbound := [{ device := 1, key := key3, cls := clsRope, obj := objKey 3 1 }] }
    depot := { live.depot with
      objects := [(objKey 3 1, inboundObj)], pages := [(1, aPage (objKey 3 1))], nextPage := 3 } }

/-- The rope's handle at its offset. -/
def ropeHandle : Nat := mkHandle 3 clsRope 1 65472

theorem test_rope_notice : (after (.ropeNotice { svc svRopeNotice ropeHandle with slot1 := 2 * 2 ^ 124 + 9 * 2 ^ 76 + 5 }) noticed (fun u =>
      u.sched.ready.map (fun x => (x.stage, x.ridge, x.seq)) == [(0, 2, 9)])
    && after (.ropeNotice { svc svRopeNotice ropeHandle with slot1 := 2 * 2 ^ 124 + 9 * 2 ^ 76 + 4 }) noticed (fun u => u == noticed)) = true := by
  decide +kernel

def entryMsg : SvcMsg :=
  { svc svSummitEntry 0 with
    slot1 := 5 * 2 ^ 64 + 7 * 2 ^ 32 + 3 * 2 ^ 27 + 2 * 2 ^ 21 + 2 ^ 17, slot2 := 2 ^ 96 + ropeHandle }

theorem test_summit_entry : (noticed.svcOk entryMsg && after (.summitEntry entryMsg) noticed (fun u => (u.slot 65).1.entries.any (fun e =>
      e.key == key3 && e.ridge == 2 && e.device == 1 && e.spanPitch == 5 && e.chain.map (fun c => c.1) == [9]))) = true := by
  decide +kernel

/-! ## Omuth ports -/

/-- Port 0 of a device of four, in a mode, with all its lanes. -/
def porting (x : PortSt) : State := { four with link := { four.link with p0 := x } }

/-- A PAYLOAD flit in the replay buffer. -/
def txFlit (n : Nat) : TxFlit := { seq := n, firstMsg := 15, slots := [], ends := [] }

/-- A port that carries traffic and holds the flits 4 and 5 unacknowledged. -/
def upPort : PortSt :=
  { PortSt.reset with
    mode := .active, rate := 2, width := 16, lanes := 0xFFFF, neighbour := 1, nextSeq := 6, ackedTo := 4
    unacked := [txFlit 4, txFlit 5], expectSeq := 9 }

/-- A port whose training has reached the latency exchanges. -/
def probing : PortSt := { upPort with mode := .training, locked := true, fecRun := 1024, probeOut := 1 }

/-- A header from the neighbour that acknowledges flit 4: a CONTROL flit, or the PAYLOAD flit of SEQ 9 without a message. -/
def hdr (type seq code arg : Nat) : FlitHdr :=
  { flitType := type, seq := seq, ackSeq := 4, nak := false, sender := 1, firstMsg := 15, credClassA := 15, credTotalA := 0
    credClassB := 15, credTotalB := 0, code := code, arg := arg }

def ctrl (code arg : Nat) : FlitHdr := hdr 1 0 code arg

/-- Whether what is sent with a header, and no message, is read again as it was sent. -/
def arrives (h : FlitHdr) : Bool := decide (decodeFlit (codedFlit h []) = ([], some (h, List.replicate 15 0)))

theorem arrives_iff (h : FlitHdr) (ok : arrives h = true) : decodeFlit (codedFlit h []) = ([], some (h, List.replicate 15 0)) :=
  of_decide_eq_true ok

set_option maxRecDepth 100000 in
/-- What the clauses about flits assume: bytes that decode to the header of each kind. -/
theorem witness_idle_flit : arrives (ctrl 0 0) = true := by decide +kernel

set_option maxRecDepth 100000 in
theorem witness_width_flit : arrives (ctrl 1 0xFF) = true := by decide +kernel

set_option maxRecDepth 100000 in
theorem witness_retrain_flit : arrives (ctrl 2 0) = true := by decide +kernel

set_option maxRecDepth 100000 in
theorem witness_probe_flit : arrives (ctrl 3 77) = true := by decide +kernel

set_option maxRecDepth 100000 in
theorem witness_echo_flit : arrives (ctrl 4 3970) = true := by decide +kernel

set_option maxRecDepth 100000 in
theorem witness_lost_flit : arrives (ctrl 5 1023) = true := by decide +kernel

set_option maxRecDepth 100000 in
theorem witness_payload_flit : arrives (hdr 0 9 0 0) = true := by decide +kernel

/-- What a CONTROL flit that decodes does at a port that is not DOWN. -/
theorem arrive_control (h : FlitHdr) (ok : arrives h = true) (ht : h.flitType = 1) (s : State) (hm : (s.port 0).mode = .active ∨ (s.port 0).mode = .training) :
    s.arriveControl 0 (codedFlit h []) = (s.countCorrected 0 []).takeControl 0 h := by
  simp only [State.arriveControl, arrives_iff h ok]
  rcases hm with hm | hm <;> simp [hm, ht]

theorem test_port_training : (after (.portEnable 0) four (fun u => (u.port 0).mode == .training && (u.port 0).neighbour == four.neighbourOf 0
      && u.out == [.linkTrain 0]
      && after (.lockAndEqualise 0 0xFFFF) u (fun w => (w.port 0).width == 16 && (w.port 0).lanes == 0xFFFF && (w.port 0).locked)
      && after (.lockAndEqualise 0 0x00FE) u (fun w => (w.port 0).mode == .training && (w.port 0).width == 4 && (w.port 0).lanes == 0xF0)
      && after (.lockAndEqualise 0 0) u (fun w => (w.port 0).rate == 1 && (w.port 0).triedOl1)
      && after (.trainingTimeout 0) u (fun w => (w.port 0).mode == .down))
    && after (.portEnable 0) live (fun u => (u.port 0).mode == .disabled)) = true := by decide +kernel

/-- The 64th echo ends the exchange with half the smallest round trip. -/
theorem test_latency : ((let u := (porting { probing with probes := 63, probeBest := some 40 }).takeControl 0 (ctrl 4 3970)
      (u.port 0).mode == .active && (u.port 0).latency == 15)
    && (let u := (porting { probing with probes := 62, probeBest := some 20 }).takeControl 0 (ctrl 4 3970)
      (u.port 0).mode == .training && (u.port 0).probeBest == some 20 && (u.port 0).probes == 63)) = true := by decide +kernel

/-- The header of the last flit sent. -/
def sent (s : State) : Option FlitHdr :=
  match s.out.getLast? with
  | some (.flit _ h _ _) => some h
  | _ => none

theorem test_probe : ((sent ((porting upPort).takeControl 0 (ctrl 3 77))).any (fun h => h.flitType == 1 && h.code == 4 && h.ackSeq == 8)) = true := by
  decide +kernel

/-- The echo goes out while the port that sent the last probe waits. -/
theorem test_latency_row : exec (.latencyEcho 0 (codedFlit (ctrl 4 3970) [])) (porting { probing with probes := 62 })
    = .next (((porting { probing with probes := 62 }).countCorrected 0 []).takeControl 0 (ctrl 4 3970)) := by
  show Host.Outcome.next (State.arriveControl _ 0 _) = _
  rw [arrive_control _ witness_echo_flit rfl _ (.inr rfl)]

theorem test_flits : ((let u := (porting upPort).takeControl 0 (ctrl 0 0)
      (u.port 0).ackedTo == 5 && (u.port 0).unacked == [txFlit 5])
    && after (.flitReplayTimeout 0) (porting upPort) (fun u => (u.port 0).resends == 1 && u.out.length == 2
      && (sent u).any (fun h => h.flitType == 0 && h.seq == 5 && h.ackSeq == 8))
    && after (.flitReplayTimeout 0) (porting { upPort with resends := 7 }) (fun u => (u.port 0).mode == .retraining)
    && (let u := (porting upPort).goodFlit 0 (hdr 0 9 0 0) (List.replicate 15 0)
      (u.port 0).expectSeq == 10 && (u.port 0).unacked == [txFlit 5])
    && (sent ((porting upPort).goodFlit 0 (hdr 0 10 0 0) [])).any (fun h => h.nak)
    && (sent ((porting upPort).badFlit 0)).any (fun h => h.nak && h.ackSeq == 8)
    && after (.linkNak 0 0) (porting upPort) (fun u => u.port 0 == upPort)) = true := by decide +kernel

/-- The symbols of a byte, most significant pair first, and the lane of each byte of a flit. -/
theorem test_lanes : (byteSymbols 0x1B == [0, 1, 3, 2] && onLanes 0xF0 [0, 0x1B, 0, 0, 0xFF] ==
    [(4, [0, 0, 0, 0, 2, 2, 2, 2]), (5, [0, 1, 3, 2]), (6, [0, 0, 0, 0]), (7, [0, 0, 0, 0])]) = true := by decide

theorem test_widths : (after (.laneLockLost 0 3) (porting upPort) (fun u => (u.port 0).mode == .failover && (u.port 0).lanes == 0xFF00
      && (u.port 0).width == 8 && after (.widthSwitchDone 0) u (fun w => (w.port 0).mode == .active && (w.port 0).width == 8))
    && after (.laneErrorInterval 0) (porting { upPort with laneErrors := [(2, 1000000)] }) (fun u => (u.port 0).lanes == 0xFF00)
    && after (.laneErrorInterval 0) (porting { upPort with laneErrors := [(2, 0)] }) (fun u => (u.port 0).lanes == 0xFFFF
      && (u.port 0).mode == .active && (u.port 0).laneErrors == [])
    && (let u := (porting upPort).takeControl 0 (ctrl 1 0xFF)
      (u.port 0).mode == .failover && (u.port 0).lanes == 0xFF)) = true := by
  decide +kernel

theorem test_retrain : (after (.retrainCmd 0) (porting upPort) (fun u => (u.port 0).mode == .retraining)
    && (((porting upPort).takeControl 0 (ctrl 2 0)).port 0).mode == .retraining
    && after (.retrainDone 0 0xFFFF) (porting { upPort with mode := .retraining, locked := true, probes := 64 }) (fun u =>
      (u.port 0).mode == .active && (u.port 0).width == 16)
    && after (.retrainDone 0 0xFEFF) (porting { upPort with mode := .retraining, locked := true, probes := 64 }) (fun u =>
      (u.port 0).mode == .failover && (u.port 0).lanes == 0xFF)
    && after (.retrainDone 0 0xFFFF) (porting { upPort with mode := .retraining, locked := true }) (fun u => (u.port 0).mode == .retraining)
    && after (.lockAndEqualise 0 0x0FFF) (porting { upPort with mode := .retraining }) (fun u => (u.port 0).mode == .retraining
      && (u.port 0).lanes == 0xFF && (u.port 0).locked)
    && after (.lockAndEqualise 0 0x7070) (porting { upPort with mode := .retraining }) (fun u => (u.port 0).mode == .down)) = true := by
  decide +kernel

/-- PORT_LOST for the other port of the dimension, whose messages go to this one. -/
theorem test_port_lost : (let u := State.takeControl { porting upPort with link := { (porting upPort).link with
      p2 := { PortSt.reset with mode := .down, unacked := [{ seq := 0, firstMsg := 0, slots := [], ends := [.svc (svc svPageAlloc 0)] }] } } } 0 (ctrl 5 1023)
    (u.port 2).unacked == [] && (u.port 2).waiting == [] && (u.port 0).waiting.length + (u.port 0).unacked.length == 2) = true := by
  decide +kernel

/-! ## Memories -/

def chans (l : List (Nat × ChState)) : State := { live with dram := { live.dram with chState := l } }

theorem test_refresh : (after (.refresh 3) (chans [(3, .active)]) (fun u => u.dram.refreshes == [(3, 1)] && u.out == [.refresh 3])
    && after (.refresh 3) live (fun u => u == live)
    && after (.dimmTempSample 3 8501) live (fun u => u.dram.hotAsked == [3] && u.dram.temps == [(3, 8501)])
    && after (.dimmTempSample 3 8500) live (fun u => u.dram.hotAsked == [])) = true := by decide +kernel

theorem test_scrub : (after (.scrubStep 16) live (fun u => u.dram.scrubPos == [(16, 64)])
    && after (.scrubStep 16) { live with dram := { live.dram with scrubPos := [(16, 24 * gib - 64)] } } (fun u =>
      u.dram.scrubPos == [(16, 0)])) = true := by decide +kernel

def tracked (c a t : Nat) : Tracked := { ch := c, addr := a, since := t, count := 1, devices := [] }

/-- The oldest entry of the channel goes, be it a line or a row. -/
theorem test_window : (after (.faultWindowExpiry 3) { live with dram := { live.dram with lines := [tracked 3 64 5, tracked 4 0 1], rows := [tracked 3 7 6] } }
      (fun u => u.dram.lines == [tracked 4 0 1] && u.dram.rows == [tracked 3 7 6])
    && after (.faultWindowExpiry 5) { live with dram := { live.dram with lines := [tracked 3 64 5], uncorrectable := [(5, 0, 0), (6, 0, 0)] } }
      (fun u => u.dram.lines == [tracked 3 64 5] && u.dram.uncorrectable == [(6, 0, 0)])) = true := by decide +kernel

def training (mirror : Bool) : State :=
  { (live.oset 0x5000 5 1).oset 0x5000 3 mirror.toNat with sys := { live.sys with state := .forming } }

theorem test_training : (after (.ddrTrainingDone []) (training false) (fun u => u.onum 0x5000 5 == 2 && (List.range 16).all (fun c => u.chanState c == .active))
    && after (.ddrTrainingDone [2]) (training true) (fun u => u.onum 0x5000 5 == 2 && u.chanState 2 == .failed && u.chanState 10 == .active)
    && after (.ddrTrainingDone [2]) (training false) (fun u => u.onum 0x5000 5 == 4 && u.sys.state != .forming)
    && after .ddrInitDone (live.oset 0x5000 5 2) (fun u => u.onum 0x5000 5 == 3)) = true := by decide +kernel

theorem test_channel_failure : (after (.channelFailure 2) { chans [(2, .active), (10, .active)] with dram := { (chans [(2, .active), (10, .active)]).dram with mirrored := true } }
      (fun u => u.chanState 2 == .failed && u.sys.state == .operational)
    && after (.channelFailure 2) (chans [(2, .active)]) (fun u => u.chanState 2 == .failed && u.sys.state == .retreat)) = true := by
  decide +kernel

/-- A mirrored device at the first line of its image, whose copies hold some raw words. -/
def mirrorRaw (raw : SMap (List Byte × List Byte)) (lost : List (Nat × Nat × Nat)) (mirrored : Bool) : State :=
  let s := (chans [(0, .active), (8, .active)]).oset 0x5000 5 3
  { s with dram := { s.dram with mirrored := mirrored, raw := raw, scrubPos := [(0, mib), (8, mib)], uncorrectable := lost } }

/-- A word with more wrong symbols than the code corrects. -/
def badWord : List Byte × List Byte := (fitTo 64 ((List.range 12).map (fun i => BitVec.ofNat 8 (i * i + 3))), zeros 16)

/-- A copy that gives no data is rewritten from its partner, and the record says so; without a good partner the line is lost. -/
theorem test_mirror : ((mirrorRaw [(0, badWord)] [] true).copyFate 0 0 == some .bad
      && (mirrorRaw [(0, badWord)] [] true).otherGood 0 0 && !(mirrorRaw [(0, badWord)] [] true).rawLost 0
    && after (.scrubStep 0) (mirrorRaw [(0, badWord)] [] true) (fun u => u.dram.raw == [] && u.dram.poisoned == []
      && u.err.nextSeq == 1)
    && after (.scrubStep 8) (mirrorRaw [(2 ^ 48, badWord)] [] true) (fun u => u.dram.raw == [] && u.dram.poisoned == [])
    && after (.scrubStep 0) (mirrorRaw [(0, badWord), (2 ^ 48, badWord)] [] true) (fun u => u.dram.raw == []
      && (u.dram.poisoned.find 0).isSome)) = true := by decide +kernel

/-- The fourth line that a channel loses fails it: its partner serves, or the device retreats. -/
theorem test_fourth_line : (let three := [(0, 64, 900), (0, 128, 900), (0, 192, 900)]
    after (.scrubStep 0) (mirrorRaw [(0, badWord)] three true) (fun u => u.chanState 0 == .failed && u.serves 0 == 1
      && u.sys.state == .operational)
    && after (.scrubStep 0) (mirrorRaw [(0, badWord)] three false) (fun u => u.chanState 0 == .failed
      && u.sys.state == .retreat && (u.dram.poisoned.find 0).isSome)) = true := by decide +kernel

/-- The spare areas follow the populated memory; the last 64 KiB of each MiB there are the test window. -/
def testLine : Nat := live.lineAt false (live.populated + mib - kib64)

def testing : State := ((live.oset 0xF012 1 testLine).oput 0xF012 2 (.blob (7 :: zeros 63))).oput 0xF012 3 (.blob (zeros 15))

theorem test_commands : (testing.testOk testLine && after .testWrite testing (fun u => u.onum 0xF012 5 == 2
      && (u.codeword testLine).1 == 7 :: zeros 63 && after .testRead u (fun w => (w.oblob 0xF012 2).take 1 == [7]))
    && after .testWriteRaw testing (fun u => u.onum 0xF012 5 == 2 && (u.codeword testLine).2.length == checkLen testLine)
    && after .testRead (live.oset 0xF012 1 (live.lineAt false 0)) (fun u => u.onum 0xF012 5 == 3)) = true := by decide +kernel

def aRec : ErrRec :=
  { seq := 1, severity := 2, nested := false, tenant := none, source := 1, cause := 0x0301, parent := 0, status := 0, routeId := 0
    time := 5, address := 64, w4 := 0, syndrome := 0, flags := 0, count := 1 }

theorem test_record_reads : (after .nextRecordRead { live with err := { live.err with queue := [aRec] } } (fun u => u.err.queue == []
      && u.out == [.objValue 0x5200 2 aRec.bytes])
    && after .nextRecordRead live (fun u => u.out == [.objValue 0x5200 2 (zeros 64)])
    && after .fatalLatchRead { live with err := { live.err with latch := some aRec } } (fun u => u.err.latch == none
      && u.out == [.objValue 0x5200 4 aRec.bytes])
    && after (.remapRead 2) live (fun u => u.out == [.objValue 0xF012 6 []])) = true := by decide +kernel

/-! ## Brix -/

/-- A request in the mailbox of tenant 0. -/
def mb (op : Nat) (p : List Byte) : BrixReq := { src := .mailbox 0, version := 1, op := op, seq := 9, payload := p }

/-- The flags and the first bytes of the payload of the answer in the mailbox of tenant 0. -/
def mbAnswer (u : State) (n : Nat) : Nat × List Byte :=
  ((u.fn 0).mbResponse.le 2 2, (u.fn 0).mbResponse.readN 32 n)

/-- A repeated request gets the kept answer and has no second effect. -/
theorem test_brix_ping : after (.brixPing (mb opPing [])) live (fun u => mbAnswer u 1 == (0x8000, [2]) && (u.fn 0).mbDone
    && u.mgmt.contexts.map (fun c => c.lastSeq) == [9]
    && after (.brixPing (mb opPing [])) u (fun w => w.mgmt.contexts == u.mgmt.contexts)) = true := by decide +kernel

theorem test_brix_read : (after (.brixRead (mb opRead [0x30, 0x30, 1, 1])) live (fun u => mbAnswer u 2 == (0x8000, [10, 0]))
    && after (.brixRead (mb opRead [0x20, 0x80, 9, 1])) live (fun u => mbAnswer u 1 == (0xC005, [9]))) = true := by decide +kernel

/-- What the clause about LIST assumes. -/
theorem witness_brix_list : (let b := reqAs { mb opList [0x11, 0xF0] with version := 2 } opList
    let m := parseBrix (.mailbox 0) b
    live.served (.mailbox 0) m.version && live.brixFate (.mailbox 0) b == .request && m.op == opList && m.payload.length == 2) = true := by
  decide +kernel

theorem test_brix_write : (after (.brixWrite (mb opWrite [0x30, 0x30, 1, 1, 20, 0])) live (fun u => mbAnswer u 0 == (0x8000, [])
      && u.onum 0x3030 1 == 20)
    && after (.brixWrite (mb opWrite [0x30, 0x30, 1, 1, 0, 0])) live (fun u => mbAnswer u 1 == (0xC007, [1]) && u.onum 0x3030 1 == 10)) = true := by
  decide +kernel

/-- A set-up that waits for its finish, and an established session, of the mailbox of tenant 0. -/
def aSession (id : Nat) (est : Bool) : Session :=
  { id := id, src := .mailbox 0, established := est, transcript := [], macKey := [], expectSeq := 3, stored := none }

def sessioned : State := { live with mgmt := { live.mgmt with sessions := [aSession 5 false, aSession 6 true] } }

def within (op id seq : Nat) (p : List Byte) : BrixReq := { mb op p with version := 2, seq := seq, session := id }

theorem test_session_open : after (.sessionOpen { mb opSessionOpen (zeros 128) with version := 2 }) live (fun u => mbAnswer u 0 == (0x8000, [])
    && u.mgmt.sessions.map (fun y => (y.id, y.established)) == [(1, false)] && u.mgmt.nextSession == 2) = true := by decide +kernel

/-- What the clause about SESSION_FINISH assumes. -/
theorem witness_session_finish : (let b := reqAs (within opSessionFinish 5 3 (zeros 192)) opSessionFinish
    let m := parseBrix (.mailbox 0) b
    sessioned.served (.mailbox 0) m.version && sessioned.brixFate (.mailbox 0) b == .request && m.payload.length == 192
      && (sessioned.session? m.session (.mailbox 0)).any (fun y => !y.established)) = true := by decide +kernel

theorem test_session_close : after (.sessionClose (within opSessionClose 6 3 [])) sessioned (fun u => mbAnswer u 0 == (0x8000, [])
    && u.mgmt.sessions == [aSession 5 false]) = true := by decide +kernel

theorem test_session_timers : (after (.sessionIdleTimeout 6) sessioned (fun u => u.mgmt.sessions == [aSession 5 false])
    && after (.authLockoutExpiry .smbus) { live with mgmt := { live.mgmt with lockedOut := [.smbus], failures := [(.smbus, 0)] } } (fun u =>
      u.mgmt.lockedOut == [] && u.mgmt.failures == [])) = true := by decide +kernel

theorem test_measure : after (.measure { mb opMeasure (zeros 32) with version := 2 }) live (fun u => u.freeCount == live.freeCount + 1) = true := by decide +kernel

def event (n : Nat) : State := { live with mgmt := { live.mgmt with events := [{ seq := 4, payload := [1, 2], sends := n }] } }

theorem test_events : (after (.eventAck { mb opEventAck [4, 0] with version := 2 }) (event 2) (fun u => u.mgmt.events == [] && mbAnswer u 0 == (0x8000, []))
    && after (.eventResend 4) (event 9) (fun u => u.out == [.event 4 [1, 2]] && u.mgmt.events.map (fun e => e.sends) == [10])
    && after (.eventResend 4) (event 10) (fun u => u.out == [])) = true := by decide +kernel

def configuring : State := { sessioned with sys := { sessioned.sys with state := .configuration } }

/-- OTP_WRITE of the policy, in CONFIGURATION and in a session. -/
theorem test_otp_write : after (.otpWrite (within opWrite 6 3 [0x10, 0x80, 3, 1, 2, 0])) configuring (fun u => (mbAnswer u 0).1 == 0x8000
   ) = true := by decide +kernel

/-- A message whose VERSION is 3 is counted. -/
theorem test_violation : after (.brixViolation (.mailbox 0) (reqBytes { mb opPing [] with version := 3 })) live (fun u => u.onum 0x60A0 8 == 1
    && mbAnswer u 1 == (0xC00B, [3])) = true := by decide +kernel

/-! ## Register writes -/

theorem test_bar_writes : (after (.registerWrite (.bar0 0 0x10 8 0x8000000000001000)) live (fun u => (u.fn 0).awqBase == 0x8000000000001000)
    && after (.registerWrite (.bar0 0 0x14 4 7)) live (fun u => (u.fn 0).awqBase == 7 * 2 ^ 32)
    && after (.registerWrite (.bar0 0 0x20 8 0xF0606)) live (fun u => (u.fn 0).aqSizes == 0x0606)
    && after (.registerWrite (.bar0 0 0x12 4 7)) live (fun u => u.fn 0 == live.fn 0 && u.onum (pobj 0x6080 (live.tenantPort 0)) 5 == 1)) = true := by
  decide +kernel

theorem test_object_writes : (after (.registerWrite (.object 0x3030 1 [20, 0])) live (fun u => u.onum 0x3030 1 == 20)
    && after (.registerWrite (.object 0x3030 1 [0, 0])) live (fun u => u == live)
    && after (.registerWrite (.object 0x3030 1 [20])) live (fun u => u == live)) = true := by decide +kernel

/-- A PING of version 1 in the mailbox's request. -/
def pinging : State :=
  live.mapFn 0 (fun f => { f with mbRequest := (f.mbRequest.writeN 0 (reqBytes (mb opPing []))) })

theorem test_mailbox_go : after (.mbControlGo 0) pinging (fun u => mbAnswer u 1 == (0x8000, [2]) && (u.fn 0).mbDone) = true := by decide +kernel

/-! ## SPDM and the management port -/

/-- Link 1 of host port 0 is up, and its responder has reached a step of the connection. -/
def spdmed (n : Nat) : State :=
  { live with
    host := { live.host with linksUp := [1] }
    mgmt := { live.mgmt with spdm := [(1, { SpdmSt.fresh with reached := n, version := 0x13 })] } }

/-- The code of the one answer. -/
def spdmCode (u : State) : Nat :=
  match u.out with
  | [.spdm 0 1 a] => getLe a 1 1
  | _ => 0

theorem test_spdm_order : (after (.getVersion 0 1 [0x10, 0x84, 0, 0]) (spdmed 0) (fun u => spdmCode u == 0x04 && (u.spdmAt 1).reached == 1)
    && after (.getCapabilities 0 1 [0x13, 0xE1, 0, 0]) (spdmed 1) (fun u => spdmCode u == 0x61 && (u.spdmAt 1).reached == 2)
    && after (.getCapabilities 0 1 [0x13, 0xE1, 0, 0]) (spdmed 0) (fun u => spdmCode u == 0x7F && (u.spdmAt 1).reached == 0)
    && after (.negotiateAlgorithms 0 1 [0x13, 0xE3, 0, 0]) (spdmed 2) (fun u => spdmCode u == 0x63 && (u.spdmAt 1).reached == 3)) = true := by
  decide +kernel

theorem test_spdm_answers : (after (.getDigests 0 1 [0x13, 0x81, 0, 0]) (spdmed 3) (fun u => spdmCode u == 0x01)
    && after (.challenge 0 1 ([0x13, 0x83, 0, 0] ++ zeros 40)) (spdmed 3) (fun u => spdmCode u == 0x03)
    && after (.getMeasurements 0 1 ([0x13, 0xE0, 1, 8] ++ zeros 41)) (spdmed 3) (fun u => spdmCode u == 0x60)
    && after (.spdmUnsupportedRequest 0 1 [0x13, 0xE5, 0, 0]) (spdmed 3) (fun u => spdmCode u == 0x7F && (u.spdmAt 1).reached == 3)) = true := by
  decide +kernel

/-- What the clause about GET_CERTIFICATE assumes. -/
theorem witness_certificate : (let p : List Byte := [0x13, 0x82, 0, 0, 0, 0, 16, 0]
    (spdmed 3).spdmServed 0 1 && decide (8 ≤ p.length) && getLe p 2 1 % 16 == 0 && getLe p 0 1 == ((spdmed 3).spdmAt 1).version) = true := by
  decide +kernel

def networked : State := (live.oset 0x60A0 1 1).oset 0x60A0 2 0x0A000001

theorem test_network : (after (.arp 0x0A000001) networked (fun u => u.out.length == 1) && after (.arp 0x0A000002) networked (fun u => u == networked)
    && after (.icmpEcho [10, 0, 0, 1] [5]) networked (fun u => u.out == [.frame frameEcho [10, 0, 0, 1, 5]])
    && after (.neighbourDiscovery networked.linkLocal) networked (fun u => u.out.length == 1)
    && after .otherTraffic networked (fun u => u == networked)
    && after (.configurationRequest 0) (spdmed 0) (fun u => u.out == [.configServed 0])
    && after (.configurationRequest 0) { spdmed 0 with sys := { live.sys with phase := .booting } } (fun u => u.out == [.retryStatus 0])) = true := by
  decide +kernel

/-! ## Resets and start-up -/

theorem test_power_good : (after .pwrgoodDeassert live (fun u => u.sys.phase == .off && u.sys.highZ && u.out == [.highZ]
      && after .pwrgoodAssert u (fun w => w.sys.phase == .inReset && w.flash.powerCycles == 1 && !w.sys.highZ))
    && after .deviceReset live (fun u => u.sys.phase == .inReset && u.routes == [] && u.flash == live.flash)) = true := by decide +kernel

set_option maxRecDepth 100000 in
/-- The measured boot of the first start, and a boot without a readable slot. -/
theorem test_boot : (State.reset.flash.validGen == some 0 && (State.reset.flash.boot (State.reset.flash.gen 0)).isSome
    && after .rstNRelease State.reset (fun u => u.sys.phase == .booting && u.mgmt.activeGen == some 0)
    && after .rstNRelease { State.reset with flash := { State.reset.flash with
        slotA := { FwSlot.reset with readable := false }, slotB := { FwSlot.reset with readable := false } } } (fun u => u.sys.phase == .stopped)) = true := by
  decide +kernel

def booting (retreat : Bool) : State := { live.oset 0x7000 9 0 with sys := { SysSt.reset with phase := .booting, rstN := true, bootRetreat := retreat } }

theorem test_ready : (after .basecampReady (booting false) (fun u => u.sys.phase == .ready && u.sys.state == .configuration && u.onum 0x5000 5 == 1
      && u.chanState 15 == .training && u.sys.heldCauses == 0)
    && after .basecampReady (booting true) (fun u => bitAt u.sys.heldCauses causeMeasurement)) = true := by decide +kernel

/-! ## Device states -/

def configured : State := { live with sys := { SysSt.reset with phase := .ready, state := .configuration, rstN := true } }

theorem test_form : (configured.formFault == none && after (.form 4 2) configured (fun u => u.sys.state == .forming && u.sys.deviceCount == 4
      && u.sys.deviceId == 2)
    && after (.form 4 2) (configured.oset 0x4000 1 15) (fun u => u == configured.oset 0x4000 1 15)
    && after (.form 3 2) configured (fun u => u == configured)
    && after (.form 1 0) { configured with sys := { configured.sys with state := .bivouac } } (fun u => u.sys.state == .forming
      && u.onum 0x5000 5 == 2)) = true := by decide +kernel

/-- A device alone at the end of its formation. -/
def forming1 : State := { (configured.oset 0x5000 5 3) with sys := { configured.sys with state := .forming } }

def report1 : FormationReport := { seesTickIn := false, peers := [] }

def marked (l : List Nat) : State := { forming1 with flash := { forming1.flash with ridgeMarks := l } }

/-- One ridge marked failed leaves sixteen; two leave fifteen. -/
theorem test_formation : (forming1.layMemory.isSome && after (.formationComplete report1) forming1 (fun u => u.sys.state == .operational && u.sys.formed
      && u.pitch.running && u.pitch.master == 0 && u.sys.ridgeMap == List.range 16)
    && after (.formationComplete report1) (marked [3]) (fun u => u.sys.state == .operational && u.sys.ridgeMap.getD 3 0 == 4)
    && after (.formationComplete report1) (marked [3, 4]) (fun u => u.sys.state == .retreat)) = true := by decide +kernel

def armed : State := { live with sys := { live.sys with bivouacArmed := some 5 } }

/-- A request arms the next pitch; at its tick a quiet device enters bivouac, and one that has work refuses. -/
theorem test_bivouac : (after .bivouacRequest live (fun u => u.sys.bivouacArmed == some 6)
    && armed.bivouacDue && (armed.sweepAll.bivouacPack armed.retainedRanks).isSome
    && after .bivouacEntry armed (fun u => u.sys.state == .bivouac && u.routes == [] && !u.pitch.running)
    && after .bivouacEntry { armed with routes := [aRoute] } (fun u => u.sys.state == .operational && u.sys.bivouacArmed == none)) = true := by
  decide +kernel

/-- A LOAD_CAIRN that waits within its list keeps a device from bivouac; there a vector is held back, but 63 is not. -/
theorem test_bivouac_quiet : (after .bivouacRequest { live with cairn := { live.cairn with listAt := [(3, 1)] } } (fun u =>
      u.sys.bivouacArmed == none)
    && (let dark := { live with
          sys := { live.sys with state := .bivouac }, host := { live.host with fns := [(3, { FnSt.reset with msixTable := [] })] } }
        ((dark.signal 3 5).fn 3).msixPending == [5] && (dark.signal 3 5).out == dark.out
        && (dark.signal 3 63).out == dark.out ++ [.msix 3 63])) = true := by decide +kernel

/-- The balls of Table 18.2 row by row of its regions, and the example of R503. -/
def ballCount (rows : List Nat) (p : Ball → Bool) : Nat :=
  sumNat (rows.map (fun r => ((List.range 78).filter (fun c => p (ballOf r (c + 1)))).length))

def isSignal : Ball → Bool
  | .signal _ => true
  | _ => false

theorem test_package : ballOf 14 37 = .signal (.ddr 3 true (.ca 0))
    ∧ ballCount ((List.range 20).map (· + 1)) isSignal = 1328 ∧ ballCount ((List.range 20).map (· + 1)) (· == .vss) = 214
    ∧ ballCount [25, 26] isSignal = 57 + 16 ∧ ballCount [25, 26] (· == .reserved) = 25
    ∧ (rails.map Rail.balls).sum = 756 ∧ rails.all (fun x => decide (x.ballMilliamps ≤ 600)) = true
    ∧ settledTj 3500 20 170 195000 = 8375 ∧ settledTj 3500 20 170 240000 = 9500 := by decide +kernel

theorem test_states : (after .returnToConfiguration live (fun u => u.sys.state == .configuration && !u.pitch.running && u.coh.silent)
    && after .retreatRequest forming1 (fun u => u.sys.state == .retreat)
    && after .retreatRequest live (fun u => u.sys.state == .retreat && after .retreatExit u (fun w => w.sys.exiting))) = true := by decide +kernel

theorem test_ridge_marks : after (.ridgeRetire 3) live (fun u => u.flash.ridgeMarks == [3] && u.sys.retireAsked == [3]
    && after (.ridgeUnretire 3) u (fun w => w.flash.ridgeMarks == [] && w.sys.retireAsked == [])) = true := by decide +kernel

/-! ## Power and temperature -/

/-- Every sensor at a temperature. -/
def atTemp (c : Int) : Instr := .thermalSample (List.replicate 22 c)

/-- THERM_N at 100 degrees, its hysteresis, its release, and retreat at 105. -/
theorem test_thermal : (after (atTemp 10000) live (fun u => u.sys.thermLow && u.power.tjSamples == 1 && u.sys.state == .operational
      && after (atTemp 9701) u (fun w => w.sys.thermLow && w.power.tjSamples == 2) && after (atTemp 9700) u (fun w => !w.sys.thermLow))
    && after (atTemp 9999) live (fun u => !u.sys.thermLow)
    && after (atTemp 10500) live (fun u => u.sys.state == .retreat)) = true := by decide +kernel

theorem test_trip : (after .thermalTrip live (fun u => u.sys.phase == .tripped && u.sys.state == .retreat && u.sys.thermLow && u.mem == []
      && bitAt (u.onum 0x7010 1) causeFatal && u.flash == live.flash)
    && after (.railUndervoltage 5) live (fun u => u.sys.phase == .tripped && u.onum 0x5000 5 == 0)) = true := by decide +kernel

theorem test_rails : after (.railCurrentLimit 6) live (fun u => u.sched.railsHeld == [6]
    && after (.railCurrentFall 6) u (fun w => w.sched.railsHeld == [])) = true := by decide +kernel

theorem test_life : after .lifeObjectsSave { live with power := { live.power with samplesAbove95 := 2 * samplesPerMinute + 5 } } (fun u =>
    u.flash.poweredHours == 1 && u.flash.minutesAbove95 == 2 && u.power.tjSamples == 0) = true := by decide +kernel

theorem test_tick_out : after .tickOutFall { live with sys := { live.sys with tickOut := true } } (fun u => !u.sys.tickOut
    && u.out == [.tickOut false]) = true := by decide +kernel

/-! ## The queue and the invariants -/

/-- The command in front leaves the queue, and its effect is exec's. -/
theorem test_step : (match step { live with pending := [.ridgeRetire 3, .tickOutFall] } with
    | .next t => t.pending == [.tickOutFall] && t.flash.ridgeMarks == [3]
    | _ => false) = true := by decide +kernel

theorem test_idle : (match step live with
    | .next t => t.now == live.now + 1 && t.pending == []
    | _ => false) = true := by decide +kernel

theorem witness_invariant : Safety.Inv live := ⟨by decide +kernel, by decide +kernel⟩

/-- Image memory with two bytes written and one written back to what an unlisted address reads as. -/
theorem test_memory_canonical : Memory.write (Memory.write (Memory.write [] 9 3) 4 1) 9 0 = [(4, 1)]
    ∧ Memory.wf (Memory.write (Memory.write [] 9 3) 4 1) = true := by decide +kernel

/-! ## Witnesses of hypotheses -/

theorem witness_shadows (k row : Nat) : live.shadowLost k row = false := by
  unfold State.shadowLost
  split
  · rfl
  · rfl

/-- Addresses at the edges of the strand's spaces: past image memory, past the code, past the parameters, a reserved space, and
objects that the task owns or not. -/
theorem test_access_rules : ((running memStrand).route? aTask.key == some aRoute
    && ([(BitVec.ofNat 64 (2 ^ 47 - 1), 2), (BitVec.ofNat 64 (2 ^ 62 + 4095), 2), (BitVec.ofNat 64 (3 * 2 ^ 61 + 63), 2), (BitVec.ofNat 64 (2 ^ 63), 1)] :
      List (Word × Nat)).all (fun p => match (running memStrand).strandLoad st21 aTask p.1 p.2 with
        | .trap 4 a => a == p.1
        | _ => false)
    && ((running memStrand).strandObj aTask (memStrand.rg 1).toNat == some (objKey 3 1, anObj clsRope [1]))
    && ((running memStrand).strandObj aTask (memStrand.rg 2).toNat == some (objKey 3 2, anObj clsRope [2]))
    && (running memStrand).strandObj aTask (2 ^ 61 + 9 * 2 ^ 40) == none) = true := by decide +kernel

theorem witness_vector_elements : vecStrand.vlGroup < 3 ∧ vecStrand.regOk (va 7 1 2) 7 = true ∧ vecStrand.vcount (va 7 1 2) = 4
    ∧ vecStrand.vmax (va 7 1 2) = 8 := by decide +kernel

theorem witness_computed_slots : let a := (intReg [some 5, none, some (-1), some 7]).slots
    a.length = aMachine.rows ∧ aMachine.sel.length = aMachine.rows ∧ ((aMachine.mask? 1).getD []).length = aMachine.rows
      ∧ aMachine.sel[0]? = some true ∧ a[0]? = some (some (.int 5)) := by decide +kernel

/-- Objects whose pages stand in this device's DDR5. -/
def nearState : State :=
  let s := running aStrand
  { s with depot := { s.depot with pages := s.depot.pages.map (fun p => (p.1, { p.2 with tier := 1, addr := 65536 * p.1 })) } }

/-- Loads and stores of Depot pages whose lines the strand's L2 can have at once. -/
theorem witness_lines : nearState.depotLines (anObj clsRope [1]) 56 16 = [0x10000, 0x10040] ∧
    nearState.linesRead (nearState.physRidge 2) [0x10000, 0x10040] ∧ nearState.linesOwned (nearState.physRidge 2) [0x10000, 0x10040] ∧
    (nearState.storeSteps (nearState.physRidge 2) [0x10000, 0x10040]).isSome = true := by
  refine ⟨by decide +kernel, ⟨fun l h => ?_, by decide +kernel, by decide +kernel⟩, fun l h => ?_, by decide +kernel⟩
  · simp only [List.mem_cons, List.not_mem_nil, or_false] at h
    rcases h with rfl | rfl <;> rfl
  · simp only [List.mem_cons, List.not_mem_nil, or_false] at h
    rcases h with rfl | rfl <;> exact ⟨rfl, by decide +kernel⟩

/-- What the clauses about a port assume beside the bytes of its flits. -/
theorem witness_ports : (upPort.up && upPort.mode != .retraining && upPort.locked == false && laneGroups.contains 0xFF && 0xFF &&& upPort.lanes == 0xFF
    && decide (upPort.retrainTimes.length < 4) && narrowTo 16 0xFFF7 == some 0xFF00 && upPort.lanes &&& 8 != 0
    && chooseLanes 16 0xFFFF == some 0xFFFF && chooseLanes 16 0 == none
    && (hdr 0 9 0 0).seq == upPort.expectSeq && upPort.partialSlots == [] && (hdr 0 9 0 0).sender == upPort.neighbour
    && decide (((hdr 0 9 0 0).ackSeq + 1 + 1024 - upPort.ackedTo) % 1024 ≤ upPort.unacked.length)
    && probing.mode == .training && probing.probeOut != 0 && decide (1024 ≤ probing.fecRun)
    && portDim four.sys.deviceCount 0 == portDim four.sys.deviceCount 2 && (portDim four.sys.deviceCount 0).isSome
    && (portDim live.sys.deviceCount 0).isNone) = true := by decide +kernel

/-- A page that was marked where the zeroing engine works, and a request that waits on or is answered. -/
theorem witness_zeroing : (let m := svc svPageAlloc 0
    let z (s : State) : State := { s.zeroDone with depot := { s.zeroDone.depot with pageAsks := [] } }
    let more := { clearing [m] with depot := { (clearing [m]).depot with
      zeroQueue := { tier := 1, addr := 0, size := 64 } :: (clearing [m]).depot.zeroQueue } }
    (clearing [m]).depot.pageAsks == [m] && !(z (clearing [m])).mustClear m && (z more).mustClear m) = true := by decide +kernel

/-- Requests of a peer: one behind an earlier one, one without a route, and one that finds a page. -/
theorem witness_peer_asks : (let m := svc svPageAlloc 0
    (clearing [m]).behindAsk (svc svQuotaDraw 1) && !(clearing [m]).mustClear (svc svQuotaDraw 1) && serving.behindAsk m == false
    && four.svcOk m && (four.askKey m).isNone && (serving.svcRoute m).isSome && (serving.fitPage 1 (clsPage 0) true).isSome
    && (serving.inboundObj 1 farKey 0).any (fun x => (x.2.dobj? x.1).isSome)) = true := by decide +kernel

/-- What the statements about coherence messages assume of the sender and the line. -/
theorem witness_coherence : ((cxled.cohFault (coh opRdShared)).isNone && agentDev (coh opRdShared).dst == cxled.sys.deviceId
    && agentDev (coh opRdShared).src == cxled.sys.deviceId && cxled.coh.dead == [] && cxled.coh.fencedL2 == []
    && !cxled.lineBusy 0 && cxled.lineBacked 0 && !cxled.linePoisoned 0 && !cxled.needsRecord 0 && !cxled.dirFull 0
    && decide (cxled.trackersUsed 0x20 < 256) && !hostSide 2 && !cxled.lineGang 0 && locL2 (agentLoc 2) && !cxled.discards 0
    && (live.cohFault { coh opSnpInv with src := 0x20, dst := 2 }).isNone && live.coh.heldSnoops == [] && live.coh.wbBuf == []
    && (gathering.txnFor (answer opAck)).any (fun x => !(x.waiting.filter (fun a => a != 3)).isEmpty && x.fwd != some 3)
    && (gathering.cohFault (answer opAck)).isNone) = true := by decide +kernel

/-- A message of a device that is dead or of an L2 that is fenced, and one that faults and came by a port. -/
theorem test_refused_senders : (let m := coh opRdShared
    let s : State := { live with coh := { live.coh with fencedL2 := [2] } }
    let far := { coh opRdShared with src := 0x100 + locProxy }
    let d : State := { four with coh := { four.coh with dead := [1] } }
    (s.cohFault m).isNone && after (.rdShared m) s (fun u => u == s) && agentDev far.src == 1 && (d.cohFault far).isNone
    && after (.rdShared far) d (fun u => u == d) && (porting upPort).arrivalPort 1 == some 0
    && after (.rdShared { far with reserved := 1 }) (porting upPort) (fun u => u.onum (portObj 0) 9 == 1 && u.err.nextSeq == 1
      && u.onum 0x6100 10 == 1)) = true := by decide +kernel

/-! ### Faults that no row names (log 62) -/

/-- Row 5 of bank 2 of ridge 1 holds a good row. -/
def oneRow : State :=
  { live with cairn := { live.cairn with banks := [(bankKey 1 2, { Bank.reset with rows := [(5, mkRow true false 0x3FF 7)] })] } }

theorem test_hardware_faults : (after (.resourceFailure (.registers 2 3)) live (fun u => u.onum 0xA044 4 == 1 && u.err.nextSeq == 1)
    && after (.resourceFailure (.depotMap (some 3))) live (fun u => u.resetting 3 && !u.resetting 4)
    && after (.resourceFailure .basecamp) live (fun u => u.sys.state == .retreat)
    && after (.resourceFailure (.cairnRow 1 2 5 93)) oneRow (fun u => (u.bank 6).rowBad 5)) = true := by decide +kernel

/-- A word of four check symbols corrects two symbols, or four that are erased. Three wrong symbols at the front lie within
two of another codeword only if that codeword, which the three determine, has two check symbols of zero. -/
theorem test_code : rsDecode 4 [] ([9, 8, 7] ++ rsCheck 4 [9, 8, 7]) = some ([9, 8, 7] ++ rsCheck 4 [9, 8, 7], [])
    ∧ rsDecode 4 [] [0, 3, 0, 0, 0x80, 0, 0] = some (List.replicate 7 0, [1, 4])
    ∧ rsDecode 4 [0, 2, 3, 5] [1, 0, 2, 3, 0, 4, 0] = some (List.replicate 7 0, [0, 2, 3, 5])
    ∧ (rsCheck 4 [1, 2, 3]).count 0 < 2 ∧ rsDecode 4 [] [1, 2, 3, 0, 0, 0, 0] = none := by decide +kernel

/-- One symbol of a line turned over is kept as a codeword of its own, and the line is not lost. -/
theorem test_memory_fault : after (.resourceFailure (.memory 0 false [1] [])) live (fun u => !u.rawLost 0 && (u.rawFate 0).isSome) = true := by
  decide +kernel

/-- A line with the poison marker in its check symbols gives no data, and neither does one whose marker has a wrong symbol. -/
def markedRaw (data check : List Byte) : State :=
  { live with dram := { live.dram with raw := [(0, (data, check))] } }

theorem test_memory_poison : (markedRaw (zeros 64) (List.replicate 16 0x5A)).rawLost 0 = true
    ∧ (markedRaw (fitTo 64 [1]) (List.replicate 16 0x5A)).rawLost 0 = true := by decide +kernel

theorem witness_memory_fault : lineDev 0 = live.sys.deviceId ∧ live.lineBacked 0 = true ∧
    codeFate (live.erasedSyms 0 0) (xorB (live.copyWord 0 0).1 (fitTo 64 [1])) (xorB (live.copyWord 0 0).2 (fitTo (checkLen 0) []))
      = .good (live.lineRead 0) [0] := by decide +kernel

theorem witness_cairn_fault : (oneRow.bank (bankKey 1 2)).rows.find 5 = some (mkRow true false 0x3FF 7) ∧
    parityOk (mkRow true false 0x3FF 7) = true := by decide +kernel

theorem witness_registers_fault : live.inService 16 = true ∧ live.inService 0 = true := by decide +kernel

/-- A line held in an L2, dirty or not, and in an L1I. -/
def holdsLine (a : CacheArray) (dirty : Bool) : State :=
  live.putArray a 0 [wayOfLine 0 (if dirty then .M else .S) dirty]

theorem witness_array_fault : ∀ b, arrayKnown (.l2 2) = true ∧ wayOf ((holdsLine (.l2 2) b).arrayWays (.l2 2) 0) 0 = some 0 ∧
    (((holdsLine (.l2 2) b).arrayWays (.l2 2) 0).getD 0 invalidWay).dirty = b := by
  intro b
  have h : (holdsLine (.l2 2) b).arrayWays (.l2 2) 0 = [wayOfLine 0 (if b then .M else .S) b] := by
    simp [holdsLine, State.arrayWays, State.putArray, waysAt, SMap.find_put_same]
  rw [h]
  cases b <;> decide

/-- The same line on a device of four with an open span. -/
theorem witness_array_spans : (serving.putArray (.l2 2) 0 [wayOfLine 0 .S false]).route? farKey = serving.route? farKey
    ∧ (serving.route? farKey).any (fun r => r.span.isSome) = true
    ∧ wayOf ((serving.putArray (.l2 2) 0 [wayOfLine 0 .S false]).arrayWays (.l2 2) 0) 0 = some 0 := by
  have h : (serving.putArray (.l2 2) 0 [wayOfLine 0 .S false]).arrayWays (.l2 2) 0 = [wayOfLine 0 .S false] := by
    simp [State.arrayWays, State.putArray, waysAt, SMap.find_put_same]
  exact ⟨rfl, by decide +kernel, by rw [h]; decide⟩

theorem witness_code_fault : arrayKnown (.l1i 2 3) = true ∧ wayOf ((holdsLine (.l1i 2 3) false).arrayWays (.l1i 2 3) 0) 0 = some 0 := by
  have h : (holdsLine (.l1i 2 3) false).arrayWays (.l1i 2 3) 0 = [wayOfLine 0 .S false] := by
    simp [holdsLine, State.arrayWays, State.putArray, waysAt, SMap.find_put_same]
  rw [h]
  decide

/-- One bank owned for a CAM build, with a row or none. -/
def oneBank (rs : List (Nat × BitVec 94)) : State :=
  { live with cairn := { live.cairn with banks := [(0, { live.bank 0 with owner := .cam key3 0, rows := rs })] } }

/-- What the clauses of BlockRowsComplete ask beside what the tests of the rows show: a bank with nothing to scrub and one with a
row, a merge without entries, a publication that lacks nothing more, and an L2 and a slice that sweep. -/
theorem witness_block_rows : ((oneBank []).ownedBanks == [0] && (oneBank []).scrubRows 0 == [] && (oneBank [(5, 1)]).scrubRows 0 == [5]
    && (oneBank []).lostRows == []
    && ({ merging with summit := { live.summit with slots := [(0, ({ state := .closed, tag := 5, entries := [] },
      { state := .filling, tag := 0, entries := [] }))] } } : State).mergeReady { aRoute with span := some aSpan } 5
    && ((publishing (some 3)).publishPages key3 { startedAt := 0, bytes := [], check := 2, doneAt := none, paused := some 3
                                                  object := none, table := none, tableBytes := 0, lacks := true }).2.2.isNone
    && (live.setCacheState (.l2 16) .disabling).cacheState (cacheKey (.l2 16)) == .disabling
    && (live.setCacheState (.slc 3) .disabling).cacheState (cacheKey (.slc 3)) == .disabling) = true := by decide +kernel

theorem test_reset_queue_empty : State.reset.pending = [] := rfl

end Sys2Proof.Tests
end

section
/-! SUPPORT. What the operations of CXL.mem and of the device states leave behind: object reads after writes, records that go
out, requests, formation and retreat. -/
namespace Sys2Proof.Machine
open Sys2Proof

/-! ## Objects, records and sorted lists -/

theorem State.onum_congr {s t : State} (h : t.objs = s.objs) (i m : Nat) : t.onum i m = s.onum i m := by
  simp [State.onum, State.oint, State.obj, h]

@[simp] theorem State.onum_oset_same (s : State) (i m n : Nat) : (s.oset i m n).onum i m = n := by
  simp [State.onum, State.oint, State.obj, State.oset, State.oput, SMap.find_put_same]

theorem State.out_prefix_sendEvent (s : State) (r : ErrRec) : s.out <+: (s.sendEvent r).out := by
  unfold State.sendEvent
  split
  · exact List.prefix_rfl
  · exact List.prefix_append ..

/-- A record takes back nothing that has left the device: at most its event follows. -/
theorem State.out_prefix_raise (s : State) (a : RecArgs) : s.out <+: (s.raise a).out := by
  unfold State.raise
  extract_lets r e s1 e1 s2 s3
  have h2 : s2.out = s.out := by
    simp only [s2]
    split
    · rfl
    · split <;> rfl
  have h3 : s3.out = s2.out := by
    simp only [s3]
    split
    · exact (s2.viewRec_writes ..).out_eq rfl
    · rfl
  exact h2 ▸ h3 ▸ s3.out_prefix_sendEvent r

theorem perm_insertBy {α : Type} (lt : α → α → Bool) (x : α) (l : List α) : (insertBy lt x l).Perm (x :: l) := by
  induction l with
  | nil => exact .refl _
  | cons y l ih =>
    unfold insertBy
    split
    · exact .refl _
    · exact (ih.cons y).trans (.swap x y l)

theorem perm_foldl_insertBy {α : Type} (lt : α → α → Bool) (l acc : List α) :
    (l.foldl (fun acc x => insertBy lt x acc) acc).Perm (l ++ acc) := by
  induction l generalizing acc with
  | nil => exact .refl _
  | cons x l ih => exact (ih _).trans (((perm_insertBy lt x acc).append_left l).trans List.perm_middle)

theorem perm_sortBy {α : Type} (lt : α → α → Bool) (l : List α) : (sortBy lt l).Perm l := by
  simpa [sortBy] using perm_foldl_insertBy lt l []

/-! ## Requests of this device's agents (R321, R324) -/

/-- The message of a request as it leaves: its agents, transaction number and order are this device's. -/
def State.issued (s : State) (m : CohMsg) (loc : Nat) : CohMsg :=
  { m with src := s.agent loc, dst := s.homeAgent m.line, txn := s.coh.nextTxn, order := s.newTxn.2.lineOrder m.line }

@[simp] theorem State.sendCoh_coh (s : State) (m : CohMsg) : (s.sendCoh m).coh = s.coh :=
  (s.sendCoh_writes m).coh_eq rfl rfl

/-- Sent at once or held for its token, a request is open for its purpose. -/
theorem State.request_open (s : State) (m : CohMsg) (loc : Nat) (p : Purpose) :
    ∃ r ∈ (s.request m loc p).2.coh.requests, r.purpose = p ∧ r.msg = s.issued m loc := by
  let c := s.issued m loc
  refine ⟨{ msg := c, purpose := p, token := none, sent := !s.newTxn.2.tokenAt c.dst c.src, held := [] }, ?_, rfl, rfl⟩
  unfold State.request
  dsimp only
  split
  · exact List.mem_append_right _ (List.mem_singleton_self _)
  · rw [State.sendCoh_coh]
    exact List.mem_append_right _ (List.mem_singleton_self _)

/-! ## CXL.mem (R29, R336, R390) -/

/-- What a CXL.mem request asks of the line's home. -/
def cxlMsg (o : Nat) : Option (Nat × List Byte) → CohMsg
  | none => { op := opRdNc, src := 0, dst := 0, txn := 0, line := imgLine o }
  | some (mask, d) => { op := opWrNc, src := 0, dst := 0, txn := 0, line := imgLine o, mask := mask, data := fitTo 64 d }

/-- What a CXL.mem request to memory that is not there is answered with. -/
def cxlAnswer (a : Nat) : Option (Nat × List Byte) → OutEv
  | none => .cxlData a (zeros 64) true
  | some _ => .cxlDone a

/-- Whether a host address lies in memory that is active and backed. -/
def State.cxlReaches (s : State) (a : Nat) : Bool :=
  s.memActive && decide (s.hdmOffset a < 2 ^ 47) && s.imgBacked (s.hdmOffset a)

theorem State.cxlReaches_iff (s : State) (a : Nat) : s.cxlReaches a = true ↔
    s.memActive = true ∧ s.hdmOffset a < 2 ^ 47 ∧ s.imgBacked (s.hdmOffset a) = true := by
  simp [State.cxlReaches, and_assoc]

theorem State.cxlReaches_false_iff (s : State) (a : Nat) : s.cxlReaches a = false ↔
    s.memActive = false ∨ 2 ^ 47 ≤ s.hdmOffset a ∨ s.imgBacked (s.hdmOffset a) = false := by
  simp only [State.cxlReaches, Bool.and_eq_false_iff, decide_eq_false_iff_not, Nat.not_lt, or_assoc]

theorem State.cxlRequest_eq (s : State) (a : Nat) (w : Option (Nat × List Byte)) (h : s.cxlOffered = true) :
    s.cxlRequest a w = if s.cxlReaches a then (s.request (cxlMsg (s.hdmOffset a) w) locHost0 (.cxl a)).2
      else (s.cxlRecord a).emit (cxlAnswer a w) := by
  have hg : (!s.memActive || decide (2 ^ 47 ≤ s.hdmOffset a) || !s.imgBacked (s.hdmOffset a)) = !s.cxlReaches a := by
    simp only [State.cxlReaches, Bool.not_and, ← decide_not, Nat.not_lt]
  unfold State.cxlRequest
  simp only [h, hg]
  cases hr : s.cxlReaches a <;> rfl

@[simp] theorem State.cxlRecord_mem (s : State) (a : Nat) : (s.cxlRecord a).mem = s.mem :=
  (s.cxlRecord_writes a).mem_eq rfl

theorem State.cxlRequest_reaches (s : State) (a : Nat) (w : Option (Nat × List Byte)) (h : s.cxlOffered = true)
    (hr : s.cxlReaches a = true) : ∃ r ∈ (s.cxlRequest a w).coh.requests,
      r.purpose = .cxl a ∧ r.msg = s.issued (cxlMsg (s.hdmOffset a) w) locHost0 := by
  rw [s.cxlRequest_eq a w h, if_pos hr]
  exact s.request_open ..

theorem State.cxlRequest_misses (s : State) (a : Nat) (w : Option (Nat × List Byte)) (h : s.cxlOffered = true)
    (hr : s.cxlReaches a = false) :
    (s.cxlRequest a w).out.getLast? = some (cxlAnswer a w) ∧ (s.cxlRequest a w).mem = s.mem := by
  simp [s.cxlRequest_eq a w h, hr]

/-- A request of another kind is answered before its violation is recorded, and writes no memory. -/
theorem execCxlOtherM2s_answers (s : State) (b : Bool) (h : s.cxlOffered = true) : ∃ u, execCxlOtherM2s b s = .next u ∧
    (if b then OutEv.cxlData 0 (zeros 64) true else .cxlDone 0) ∈ u.out ∧ u.mem = s.mem := by
  let v := (s.hostViolation 0).emit (if b then .cxlData 0 (zeros 64) true else .cxlDone 0)
  have hv : execCxlOtherM2s b s = .next (v.corrected 0x0007 (pobj 0x6080 0) 5) := by simp [execCxlOtherM2s, h, v]
  exact ⟨_, hv, (v.out_prefix_raise _).subset (List.mem_append_right _ (List.mem_singleton_self _)),
    ((v.corrected_writes ..).mem_eq rfl).trans ((s.hostViolation_writes 0).mem_eq rfl)⟩

/-- Settles O44: a request to memory that is there is open at the line's home, and one to other memory is answered at once. -/
theorem cxlMemory : Obligations.CxlMemory := by
  intro s a mask d o
  refine ⟨rfl, fun hc => ⟨fun hm ho hb => ?_, fun hn => ?_, execCxlOtherM2s_answers s true hc,
    execCxlOtherM2s_answers s false hc⟩⟩
  · have hr := (s.cxlReaches_iff a).mpr ⟨hm, ho, hb⟩
    obtain ⟨r, hr₀, hp₀, hm₀⟩ := s.cxlRequest_reaches a none hc hr
    obtain ⟨w, hr₁, hp₁, hm₁⟩ := s.cxlRequest_reaches a (some (fullMask, d)) hc hr
    obtain ⟨p, hr₂, hp₂, hm₂⟩ := s.cxlRequest_reaches a (some (mask % 2 ^ 64, d)) hc hr
    exact ⟨⟨_, r, rfl, hr₀, hp₀, congrArg CohMsg.op hm₀, congrArg CohMsg.line hm₀⟩,
      ⟨_, w, rfl, hr₁, hp₁, congrArg CohMsg.op hm₁, congrArg CohMsg.line hm₁,
        congrArg CohMsg.mask hm₁, congrArg CohMsg.data hm₁⟩,
      ⟨_, p, rfl, hr₂, hp₂, congrArg CohMsg.op hm₂, congrArg CohMsg.line hm₂,
        congrArg CohMsg.mask hm₂, congrArg CohMsg.data hm₂⟩⟩
  · have hr := (s.cxlReaches_false_iff a).mpr hn
    exact ⟨⟨_, rfl, s.cxlRequest_misses a none hc hr⟩, ⟨_, rfl, s.cxlRequest_misses a (some (fullMask, d)) hc hr⟩,
      ⟨_, rfl, s.cxlRequest_misses a (some (mask % 2 ^ 64, d)) hc hr⟩⟩

end Sys2Proof.Machine
end

section
/-! SUPPORT. What formation, bivouac, retreat and the marks of ridges leave of the device's own state (chapter 17). -/
namespace Sys2Proof.Machine
open Sys2Proof

/-! ## Forming begins (R25, R477, R494) -/

theorem State.renumber_sys (s : State) (id : Nat) : (s.renumber id).sys = { s.sys with deviceId := id } := by
  unfold State.renumber
  dsimp only
  split
  · rename_i h
    subst h
    rfl
  · have h : ((List.range 4).foldl State.sweepSlc ((List.range 17).foldl State.sweepL2 s)).sys = s.sys :=
      s.sweepAll_writes.sys_eq rfl
    simp only [h]

@[simp] theorem State.enablePorts_sys (s : State) : s.enablePorts.sys = s.sys := s.enablePorts_writes.sys_eq rfl

theorem State.startForming_sys (s : State) (count id : Nat) : (s.startForming count id).sys =
    { s.sys with deviceId := id, state := .forming, deviceCount := count } := by
  unfold State.startForming
  simp [State.renumber_sys]

theorem State.formRequest_sound (s : State) {count id : Nat} (hs : s.sys.state = .configuration)
    (hp : s.sys.phase = .ready) (hc : countOk count = true) (hi : id < count) (hf : s.formFault = none) :
    s.formRequest count id = .ok (s.startForming count id) := by
  simp [State.formRequest, hs, hp, hc, hf, Nat.not_le.mpr hi]

theorem State.formRequest_faulty (s : State) {count id : Nat} (hs : s.sys.state = .configuration)
    (hf : s.formFault ≠ none) : ∃ m, s.formRequest count id = .error m := by
  obtain ⟨m, hm⟩ := Option.ne_none_iff_exists'.mp hf
  simp only [State.formRequest, hs, hm]
  split
  · exact ⟨none, rfl⟩
  · exact ⟨some m, rfl⟩

theorem State.formRequest_bivouac (s : State) {count id : Nat} (hs : s.sys.state = .bivouac) (hp : s.sys.phase = .ready) :
    s.formRequest count id = .ok s.leaveBivouac := by
  simp [State.formRequest, hs, hp]

theorem State.freedVectors_foldl_sys (s : State) (ts : List Nat) : (ts.foldl State.freedVectors s).sys = s.sys :=
  (Moves.foldl (l := [.host, .out]) ts State.freedVectors_writes (.refl _ s)).sys_eq rfl

theorem State.leaveBivouac_sys (s : State) : s.leaveBivouac.sys = { s.sys with state := .forming } := by
  unfold State.leaveBivouac
  rw [State.enablePorts_sys, State.oset_sys, (State.zeroHbm_writes _).sys_eq rfl, State.freedVectors_foldl_sys,
    (State.postAll_writes _).sys_eq rfl]

/-- The memories initialise, as O:0x5000.5 shows. -/
theorem State.leaveBivouac_memState (s : State) : s.leaveBivouac.onum 0x5000 5 = 2 := by
  unfold State.leaveBivouac
  rw [State.onum_congr ((State.enablePorts_writes _).objs_eq rfl), State.onum_oset_same]

/-! ## Retreat (R477, R495) -/

/-- A cause puts a device that works, forms or is in retreat into retreat. -/
theorem State.enterRetreat_state (s : State) (bit : Nat)
    (h : s.sys.state = .operational ∨ s.sys.state = .forming ∨ s.sys.state = .retreat) :
    (s.enterRetreat bit).sys.state = .retreat := by
  unfold State.enterRetreat
  rcases h with h | h | h <;> simp only [h]
  · rw [(State.retreatWork_writes _).sys_eq rfl]
  · rw [(State.retreatWork_writes _).sys_eq rfl]
  · exact h

theorem State.enterRetreat_formed (s : State) (bit : Nat) : (s.enterRetreat bit).sys.formed = s.sys.formed := by
  unfold State.enterRetreat
  split
  · rw [(State.retreatWork_writes _).sys_eq rfl]; rfl
  · rw [(State.retreatWork_writes _).sys_eq rfl]; rfl
  · rfl
  · rfl

theorem State.foldl_enterRetreat_formed (s : State) (bits : List Nat) :
    (bits.foldl State.enterRetreat s).sys.formed = s.sys.formed := by
  induction bits generalizing s with
  | nil => rfl
  | cons b l ih => exact (ih _).trans (s.enterRetreat_formed b)

theorem State.foldl_enterRetreat_state (s : State) (bits : List Nat) (h : s.sys.state = .retreat) :
    (bits.foldl State.enterRetreat s).sys.state = .retreat := by
  induction bits generalizing s with
  | nil => exact h
  | cons b l ih => exact ih _ (s.enterRetreat_state b (.inr (.inr h)))

/-! ## Forming ends (R479, R483, R494) -/

theorem State.startPitches_sys (s : State) (all : List PeerIdentity) :
    (s.startPitches all).sys = { s.sys with formed := true, formedAt := s.now } := by
  unfold State.startPitches
  dsimp only
  split
  · rw [(State.corrected_writes ..).sys_eq rfl]; rfl
  · rfl

theorem State.startPitches_pitch (s : State) (all : List PeerIdentity) : (s.startPitches all).pitch.running = true ∧
    (s.startPitches all).pitch.master = (pickMaster s.sys.deviceId all).1 := by
  unfold State.startPitches
  dsimp only
  split
  · rw [(State.corrected_writes ..).pitch_eq rfl]
    exact ⟨rfl, rfl⟩
  · exact ⟨rfl, rfl⟩

/-- The causes that wait for the end of a formation: those that were held, too few ridges, and the heat (R16, R487, R494). -/
def State.pendingCauses (s : State) : List Nat :=
  (List.range 6).filter (fun b => bitAt s.sys.heldCauses b || (decide (s.sys.ridgeMap.length < 16) && b == causeSpares)
    || (b == causeThermal && decide (10500 ≤ s.tjNow)))

/-- The device works, until a cause that waits is taken up. -/
def State.operational (s : State) : State := { s with sys := { s.sys with state := .operational, heldCauses := 0 } }

theorem State.endForming_eq (s : State) : s.endForming = s.pendingCauses.foldl State.enterRetreat s.operational := by
  unfold State.endForming State.pendingCauses State.operational
  rfl

theorem State.endForming_formed (s : State) : s.endForming.sys.formed = s.sys.formed := by
  rw [s.endForming_eq, State.foldl_enterRetreat_formed]
  rfl

theorem State.endForming_retreat (s : State) (h : s.sys.ridgeMap.length < 16) : s.endForming.sys.state = .retreat := by
  have hm : causeSpares ∈ s.pendingCauses := by simp [State.pendingCauses, h, causeSpares]
  obtain ⟨b, l, hl⟩ := List.exists_cons_of_ne_nil (List.ne_nil_of_mem hm)
  rw [s.endForming_eq, hl, List.foldl_cons]
  exact State.foldl_enterRetreat_state _ l (State.enterRetreat_state _ b (.inl rfl))

theorem State.endForming_operational (s : State) (h : 16 ≤ s.sys.ridgeMap.length) (hc : s.sys.heldCauses = 0)
    (ht : s.tjNow < 10500) : s.endForming = s.operational := by
  have hn : s.pendingCauses = [] := by
    simp [State.pendingCauses, hc, bitAt, Nat.not_lt.mpr h, Int.not_le.mpr ht]
  rw [s.endForming_eq, hn]
  rfl

theorem State.reloadCairn_sys (s : State) : s.reloadCairn.sys = { s.sys with crnOff := false } := by
  have h : (s.ownedBanks.foldl State.reloadBank s).sys = s.sys :=
    (Moves.foldl (l := [.cairn]) s.ownedBanks State.reloadBank_writes (.refl _ s)).sys_eq rfl
  unfold State.reloadCairn
  simp only [h]

/-- A system of these devices starts: ridges are assigned, pitches start, and host tables come back where the CRN was off. -/
def State.startSystem (s : State) (ids : List PeerIdentity) : State :=
  let s := s.assignRidges.startPitches ids
  if s.sys.crnOff then s.reloadCairn else s

theorem State.startSystem_sys (s : State) (ids : List PeerIdentity) : (s.startSystem ids).sys =
    { s.assignRidges.sys with formed := true, formedAt := s.now, crnOff := false } := by
  unfold State.startSystem
  dsimp only
  split
  · rw [State.reloadCairn_sys, State.startPitches_sys]
    rfl
  · rename_i h
    rw [State.startPitches_sys] at h ⊢
    rw [← Bool.eq_false_of_not_eq_true h]
    rfl

theorem State.startSystem_writes (s : State) (ids : List PeerIdentity) :
    Moves [.objs, .sys, .pitch, .cairn, .peers, .link, .err, .mgmt, .out] s (s.startSystem ids) := by
  have h : Moves [.objs, .sys, .pitch, .cairn, .peers, .link, .err, .mgmt, .out] s (s.assignRidges.startPitches ids) :=
    (s.assignRidges_writes.mono (.mk rfl)).trans ((State.startPitches_writes ..).mono (.mk rfl))
  unfold State.startSystem
  dsimp only
  split
  · exact h.trans ((State.reloadCairn_writes _).mono (.mk rfl))
  · exact h

theorem State.startSystem_pitch (s : State) (ids : List PeerIdentity) : (s.startSystem ids).pitch.running = true ∧
    (s.startSystem ids).pitch.master = (pickMaster s.sys.deviceId ids).1 := by
  have h := s.assignRidges.startPitches_pitch ids
  unfold State.startSystem
  dsimp only
  split
  · rwa [(State.reloadCairn_writes _).pitch_eq rfl]
  · exact h

/-- The devices of a formation by rising ID: this one and those whose identities came in. -/
def State.formingIds (s : State) (r : FormationReport) : List PeerIdentity :=
  sortBy (fun (a b : PeerIdentity) => decide (a.device < b.device)) (s.identity r.seesTickIn :: r.peers)

theorem State.mem_formingIds (s : State) (r : FormationReport) {p : PeerIdentity} (h : p ∈ r.peers) : p ∈ s.formingIds r :=
  (perm_sortBy ..).mem_iff.mpr (List.mem_cons_of_mem _ h)

/-- Where every device agrees and is there, the memories are ready and the ports active, the system starts (R479). -/
theorem State.formationDone_agreed (s : State) (r : FormationReport) {u : State} (hs : s.sys.state = .forming)
    (hr : ∀ p ∈ r.peers, identityAgrees (s.identity r.seesTickIn) p = true)
    (hd : (s.formingIds r).map (fun p => p.device) = List.range s.sys.deviceCount) (hm : s.onum 0x5000 5 = 3)
    (hp : ∀ p < 4, (portDim s.sys.deviceCount p).isSome = true → (s.port p).mode = .active) (hu : s.layMemory = some u) :
    s.formationDone r = (u.startSystem (s.formingIds r)).endForming := by
  have hlen : (s.formingIds r).length = s.sys.deviceCount := by simpa using congrArg List.length hd
  have hpeers : ¬ (r.peers.any (fun p => !identityAgrees (s.identity r.seesTickIn) p || decide (s.sys.deviceCount ≤ p.device))
      = true ∨ s.sys.deviceCount < (s.formingIds r).length) := by
    rintro (h | h)
    · obtain ⟨p, hmem, hbad⟩ := List.any_eq_true.mp h
      have hlt : p.device < s.sys.deviceCount :=
        List.mem_range.mp (hd ▸ List.mem_map_of_mem (s.mem_formingIds r hmem))
      simp [hr p hmem, Nat.not_le.mpr hlt] at hbad
    · exact absurd h (by simp [hlen])
  have hports : (List.range 4).any (fun p => (portDim s.sys.deviceCount p).isSome && (s.port p).mode != .active) = false := by
    simpa [List.any_eq_false] using hp
  unfold State.formingIds at hpeers hd
  unfold State.formationDone
  dsimp only
  rw [if_neg (by simp [hs]), if_neg hpeers, if_neg (not_not.mpr hd), if_neg (by simp [hm]), if_neg (by simp [hports]), hu]
  rfl

theorem State.startSystem_formed (s : State) (ids : List PeerIdentity) : (s.startSystem ids).endForming.sys.formed = true := by
  rw [State.endForming_formed, State.startSystem_sys]

theorem State.startSystem_ridgeMap (s : State) (ids : List PeerIdentity) :
    (s.startSystem ids).sys.ridgeMap = s.flash.healthyRidges.take 16 := by
  rw [State.startSystem_sys]
  rfl

/-- Too few healthy ridges are a cause of retreat (R16). -/
theorem State.startSystem_few (s : State) (ids : List PeerIdentity) (h : s.flash.healthyRidges.length < 16) :
    (s.startSystem ids).endForming.sys.state = .retreat := by
  apply State.endForming_retreat
  rw [State.startSystem_ridgeMap, List.length_take]
  exact Nat.lt_of_le_of_lt (Nat.min_le_right ..) h

theorem State.startSystem_enough (s : State) (ids : List PeerIdentity) (h : 16 ≤ s.flash.healthyRidges.length)
    (hc : s.sys.heldCauses = 0) (ht : s.tjNow < 10500) :
    (s.startSystem ids).endForming = (s.startSystem ids).operational := by
  apply State.endForming_operational
  · rw [State.startSystem_ridgeMap, List.length_take]
    exact Nat.le_min.mpr ⟨Nat.le_refl _, h⟩
  · rw [State.startSystem_sys]
    exact hc
  · rwa [State.tjNow, (s.startSystem_writes ids).power_eq rfl]

/-! ## Marks of ridges (R475, R482) -/

theorem State.ridgeRetire_marks (s : State) {p : Nat} (h : p < 17) : (s.ridgeRetire p).flash.ridgeMarks.contains p = true := by
  simp only [State.ridgeRetire, if_neg (Nat.not_le.mpr h)]
  split
  · assumption
  · simp

theorem State.ridgeRetire_asked (s : State) {p : Nat} (h : p < 17) (hr : s.pitch.running = true) (hi : s.inService p = true) :
    (s.ridgeRetire p).sys.retireAsked.contains p = true := by
  simp only [State.ridgeRetire, if_neg (Nat.not_le.mpr h), hr, hi]
  cases hc : s.sys.retireAsked.contains p
  · simp
  · simpa using hc

theorem State.ridgeUnretire_marks (s : State) (p : Nat) : (s.ridgeUnretire p).flash.ridgeMarks.contains p = false := by
  simp [State.ridgeUnretire]

theorem State.ridgeUnretire_asked (s : State) (p : Nat) : (s.ridgeUnretire p).sys.retireAsked.contains p = false := by
  simp [State.ridgeUnretire]

/-! ## Requests for states (R478, R490, R495, R499) -/

theorem State.retreatRequest_ok (s : State) (hs : s.sys.state = .operational ∨ s.sys.state = .forming)
    (ht : s.inTransition = false) : s.retreatRequest = .ok (s.enterRetreat causeManagement) :=
  if_pos ⟨hs, ht⟩

theorem State.exitRequest_ok (s : State) (hs : s.sys.state = .retreat) (ht : s.inTransition = false)
    (hc : ∀ b < 8, bitAt (s.onum 0x7010 1) b = true → s.causeAllows b = true) :
    s.exitRequest = .ok { s.reloadCairn with sys := { s.reloadCairn.sys with exiting := true } } := by
  have hall : (List.range 8).all (fun b => !bitAt (s.onum 0x7010 1) b || s.causeAllows b) = true := by
    simpa [List.all_eq_true, Bool.or_eq_true, ← Bool.not_eq_true, ← imp_iff_not_or] using hc
  exact if_neg (by simp [hs, ht, hall])

theorem State.returnRequest_ok (s : State) (hs : s.sys.state = .operational) (ht : s.inTransition = false)
    (ho : s.openRoutes = 0) (he : s.enginesQuiet = true)
    (hr : s.routes.all (fun r => s.isHome r.key || !r.span.isSome) = true) : ∃ t, s.returnRequest = .ok t ∧
      t.sys.state = .configuration ∧ t.pitch.running = false ∧ t.coh.silent = true := by
  have hany : s.routes.any (fun r => !s.isHome r.key && r.span.isSome) = false := by
    simpa only [List.all_eq_not_any_not, Bool.not_or, Bool.not_not, Bool.not_eq_true'] using hr
  exact ⟨_, if_neg (by simp [hs, ht, ho, he, hany]), rfl, rfl, rfl⟩

theorem State.bivouacRequest_ok (s : State) (hs : s.sys.state = .operational) (ht : s.inTransition = false)
    (hq : s.quietNow = true) (hc : s.sys.deviceCount = 1 ∨ s.onum 0x7000 11 ≠ 0) :
    s.bivouacRequest = .ok { s with sys := { s.sys with
      bivouacArmed := some (if s.sys.deviceCount = 1 then s.pitch.number + 1 else max (s.onum 0x7000 11) (s.pitch.number + 1)) } } := by
  refine if_neg ?_
  rintro (h | h | h | ⟨hn, h0⟩)
  · exact h hs
  · simp [ht] at h
  · simp [hq] at h
  · omega

/-! ## Bivouac (R490 to R492) -/

/-- The device before its rails go down: its caches swept, and what peers' routes kept here ended where it is quiet. -/
def State.bivouacSettled (s : State) : State := if s.sweepAll.quietNow then s.sweepAll.endPeers else s.sweepAll

theorem State.bivouacEnter_packed (s : State) {u : State} (h : s.bivouacDue = true)
    (hu : s.bivouacSettled.bivouacPack s.retainedRanks = some u) : s.bivouacEnter = u.goDark s.retainedRanks := by
  unfold State.bivouacSettled at hu
  simp [State.bivouacEnter, h, hu]

theorem State.bivouacEnter_refused (s : State) (h : s.bivouacDue = true)
    (hu : s.bivouacSettled.bivouacPack s.retainedRanks = none) : s.bivouacEnter = s.bivouacSettled.bivouacRefused := by
  unfold State.bivouacSettled at hu ⊢
  simp [State.bivouacEnter, h, hu]

theorem State.bivouacRefused_sys (s : State) : s.bivouacRefused.sys = { s.sys with bivouacArmed := none } := by
  unfold State.bivouacRefused
  rw [(State.raise_writes ..).sys_eq rfl]

theorem State.bivouacRefused_armed (s : State) : s.bivouacRefused.sys.bivouacArmed = none := by rw [s.bivouacRefused_sys]
theorem State.bivouacRefused_state (s : State) : s.bivouacRefused.sys.state = s.sys.state := by rw [s.bivouacRefused_sys]

/-! ## The statement -/

/-- Settles O57, clause by clause from the operations' own rules. -/
theorem deviceStates : Obligations.DeviceStates := by
  intro s
  refine ⟨?form, ?leaveBivouac, ?formed, ?quiet, ?bivouac, ?retreat, ?exit, ?ridges⟩
  case form =>
    intro count id hs hp hc hi
    refine ⟨fun hf => ⟨s.startForming count id, ?_, ?_⟩, fun hf => ?_⟩
    · rw [exec_form, execForm, s.formRequest_sound hs hp hc hi hf]
    · simp [State.startForming_sys]
    · obtain ⟨m, hm⟩ := s.formRequest_faulty (count := count) (id := id) hs hf
      rw [exec_form, execForm, hm]
  case leaveBivouac =>
    intro count id hs hp
    refine ⟨s.leaveBivouac, ?_, ?_, s.leaveBivouac_memState⟩
    · rw [exec_form, execForm, s.formRequest_bivouac hs hp]
    · rw [State.leaveBivouac_sys]
  case formed =>
    intro r u me ids hs hr hd hm hp hu
    have hl := s.layMemory_writes.st hu
    have hsys := hl.sys_eq rfl
    have hflash := hl.flash_eq rfl
    refine ⟨(u.startSystem ids).endForming, ?_, u.startSystem_formed ids, fun hn hc ht => ?_, fun hn => ?_⟩
    · exact congrArg Host.Outcome.next (s.formationDone_agreed r hs hr hd hm hp hu)
    · have htj : u.tjNow < 10500 := by rwa [State.tjNow, hl.power_eq rfl]
      rw [u.startSystem_enough ids (hflash ▸ hn) (hsys ▸ hc) htj, ← hsys, ← hflash]
      exact ⟨rfl, (u.startSystem_pitch ids).1, (u.startSystem_pitch ids).2, u.startSystem_ridgeMap ids⟩
    · exact u.startSystem_few ids (hflash ▸ hn)
  case quiet =>
    intro hs ht ho he
    refine ⟨fun hr => ?_, fun hl hc => ?_⟩
    · obtain ⟨t, h, hrest⟩ := s.returnRequest_ok hs ht ho he hr
      exact ⟨t, by rw [exec_returnToConfiguration, execReturnToConfiguration, h], hrest⟩
    · have hq : s.quietNow = true := by simp [State.quietNow, ho, he, hl]
      rw [exec_bivouacRequest, execBivouacRequest, s.bivouacRequest_ok hs ht hq hc]
  case bivouac =>
    intro hd w
    refine ⟨fun u hu => ⟨u.goDark s.retainedRanks, ?_, rfl, rfl, rfl, rfl, rfl⟩, fun hu => ⟨w.bivouacRefused, ?_,
      w.bivouacRefused_armed, w.bivouacRefused_state⟩⟩
    · exact congrArg Host.Outcome.next (s.bivouacEnter_packed hd hu)
    · exact congrArg Host.Outcome.next (s.bivouacEnter_refused hd hu)
  case retreat =>
    intro hs ht
    refine ⟨s.enterRetreat causeManagement, ?_, s.enterRetreat_state _ (hs.imp_right .inl)⟩
    rw [exec_retreatRequest, execRetreatRequest, s.retreatRequest_ok hs ht]
  case exit =>
    intro hs ht hc
    refine ⟨_, by rw [exec_retreatExit, execRetreatExit, s.exitRequest_ok hs ht hc], rfl, ?_⟩
    rw [s.reloadCairn_sys]
  case ridges =>
    intro p hp
    exact ⟨⟨_, rfl, s.ridgeRetire_marks hp, s.ridgeRetire_asked hp, (s.ridgeRetire_writes p).frame⟩,
      ⟨_, rfl, s.ridgeUnretire_marks p, s.ridgeUnretire_asked p, (s.ridgeUnretire_writes p).frame⟩⟩

end Sys2Proof.Machine
end

section
/-! SUPPORT. The reset values, read off the reset state and the object dictionary. -/
namespace Sys2Proof.Machine
open Sys2Proof

/-- No tenant's function is enabled at reset, and its admin registers read 0. -/
theorem reset_fn (t : Nat) : (State.reset.fn t).enable = false ∧ (State.reset.fn t).adminError = false ∧
    (State.reset.fn t).awqBase = 0 ∧ (State.reset.fn t).acqBase = 0 ∧ (State.reset.fn t).aqSizes = 0 :=
  ⟨rfl, rfl, rfl, rfl, rfl⟩

/-- No strand runs a task at reset, and its registers hold their reset values (R249). -/
theorem reset_strand (i j : Nat) : (State.reset.strand i j).bpctl = 3#64 ∧ (State.reset.strand i j).tvec = 0#64 ∧
    (State.reset.strand i j).task = none := ⟨rfl, rfl, rfl⟩

/-- Settles O6: each member is read off the dictionary, each register off the reset state. -/
theorem resetValues : Obligations.ResetValues :=
  ⟨rfl, rfl, rfl, rfl, rfl, rfl, rfl, rfl, rfl, rfl, rfl, rfl, rfl, rfl, rfl, rfl, rfl, rfl, rfl, rfl, rfl, rfl, rfl, rfl,
    rfl, fun t _ => reset_fn t, fun i _ j _ => reset_strand i j⟩

end Sys2Proof.Machine
end

section
/-! SUPPORT. The Summit's slots at the instants of a pitch: the swap, the entries that leave, and no shut buffer after D. -/
namespace Sys2Proof.Machine
open Sys2Proof

/-! ## Sparse stores -/

theorem SMap.find_map {α β : Type} (f : α → β) (m : SMap α) (k : Nat) :
    SMap.find (m.map (fun q => (q.1, f q.2))) k = (m.find k).map f := by
  induction m with
  | nil => rfl
  | cons c m ih =>
    simp only [List.map_cons, SMap.find]
    split
    · rfl
    · exact ih

theorem SMap.mem_of_find {α : Type} {m : SMap α} {k : Nat} {x : α} (h : m.find k = some x) : (k, x) ∈ m := by
  induction m with
  | nil => simp [SMap.find] at h
  | cons c m ih =>
    simp only [SMap.find] at h
    split at h
    · rename_i hk
      obtain rfl := Option.some.inj h
      exact hk ▸ List.mem_cons_self ..
    · exact List.mem_cons_of_mem _ (ih h)

/-! ## Swap and cut (R204, R205) -/

theorem State.slot_congr {s t : State} (h : t.summit = s.summit) (k : Nat) : t.slot k = s.slot k := by
  simp only [State.slot, h]

theorem State.slot_setSlot_same (s : State) (k : Nat) (b : SlotBuf × SlotBuf) : (s.setSlot k b).slot k = b := by
  simp [State.slot, State.setSlot, SMap.find_put_same]

theorem State.slot_setSlot_other (s : State) {j k : Nat} (b : SlotBuf × SlotBuf) (h : k ≠ j) :
    (s.setSlot j b).slot k = s.slot k := by
  simp [State.slot, State.setSlot, SMap.find_put_other _ _ h]

theorem State.slot_foldl_setSlot (f : SlotBuf → SlotBuf) (l : List Nat) (hl : l.Nodup) (s : State) (k : Nat) :
    (l.foldl (fun s k => s.setSlot k (f (s.slot k).1, f (s.slot k).2)) s).slot k =
      if k ∈ l then (f (s.slot k).1, f (s.slot k).2) else s.slot k := by
  induction l generalizing s with
  | nil => simp
  | cons a l ih =>
    obtain ⟨ha, hl⟩ := List.nodup_cons.mp hl
    rw [List.foldl_cons, ih hl]
    by_cases hk : k = a
    · subst hk
      simp [ha, State.slot_setSlot_same]
    · simp [hk, State.slot_setSlot_other]

theorem State.swapSlots_slot (s : State) (n : Nat) {k : Nat} (h : k < 64) :
    (s.swapSlots n).slot k = ((s.slot k).1.swap n, (s.slot k).2.swap n) :=
  (State.slot_foldl_setSlot (fun b => b.swap n) _ List.nodup_range s k).trans (if_pos (List.mem_range.mpr h))

theorem State.takeEntries_slot (s : State) (n : Nat) (p : SlotEntry → Bool) (k : Nat) :
    (s.takeEntries n p).slot k = ((s.slot k).1.cut n p, (s.slot k).2.cut n p) := by
  unfold State.slot State.takeEntries
  rw [SMap.find_map (fun b : SlotBuf × SlotBuf => (b.1.cut n p, b.2.cut n p))]
  cases s.summit.slots.find k <;> rfl

theorem State.setLink_writes (s : State) (l : LinkSt) : Moves [.link] s { s with link := l } := by
  rw [Moves.mk_eq]
  refine MovesMk.upd rfl (.inl rfl) (.inl rfl) ?_ (.refl _ s)
  apply upd_parts <;> first | exact .inl rfl | exact .inr rfl

/-- The releases and messages of partials leave the slots; the entries of routes homed elsewhere leave them. -/
theorem State.sendPartials_slot (s : State) (n k : Nat) :
    let far (e : SlotEntry) : Bool := e.key.home != s.sys.deviceId
    (s.sendPartials n).slot k = ((s.slot k).1.cut n far, (s.slot k).2.cut n far) := by
  intro far
  unfold State.sendPartials
  extract_lets es sent
  have hsent : Moves [.objs, .routes, .content, .depot, .link] s sent := by
    refine Moves.foldl es (fun t e => ?_) (.refl _ s)
    refine Moves.foldl e.chain (fun u c => u.releaseObj_writes e.key c.2) ?_
    exact (t.setLink_writes _).mono (.mk rfl)
  have h := sent.takeEntries_slot n far k
  rw [State.slot_congr (hsent.summit_eq rfl)] at h
  exact h

/-! ## The cutoff (R40, R204) -/

theorem State.cutoffStep_of_passed (s : State) (h : s.pitch.cutoffDone = true) : s.cutoffStep = s := by
  simp [State.cutoffStep, h]

/-- The state at the cutoff before the slots swap: the clock at C, the clean done, what each span has done noted. -/
def State.atCutoff (s : State) : State :=
  let s := (s.advanceTo s.cutoffAt).cutoffClean
  { s with
    pitch := { s.pitch with cutoffDone := true }
    routes := s.routes.map (fun (r : Route) => { r with span := r.span.map (fun (sp : Span) =>
      { sp with doneByC := !sp.replaying && s.spanIdle r }) }) }

theorem State.cutoffStep_eq (s : State) (hr : s.pitch.running = true) (hc : s.pitch.cutoffDone = false) :
    s.cutoffStep = ((s.atCutoff.swapSlots s.atCutoff.pitch.number).sendPartials s.atCutoff.pitch.number).pumpOutbound := by
  unfold State.cutoffStep
  rw [if_neg (by simp [hr, hc])]
  rfl

theorem State.advanceTo_now (s : State) (t : Nat) : (s.advanceTo t).now = max s.now t := by
  unfold State.advanceTo
  split <;> simp <;> omega

theorem State.advanceTo_pitch (s : State) (t : Nat) : (s.advanceTo t).pitch = s.pitch := (s.advanceTo_writes t).pitch_eq rfl

theorem State.cutoffClean_advanced (s : State) :
    Moves [.now, .strands, .cache, .coh, .link, .out] s (s.advanceTo s.cutoffAt).cutoffClean :=
  ((s.advanceTo_writes _).mono (.mk rfl)).trans ((State.cutoffClean_writes _).mono (.mk rfl))

theorem State.atCutoff_pitch (s : State) : s.atCutoff.pitch = { s.pitch with cutoffDone := true } := by
  unfold State.atCutoff
  simp only [s.cutoffClean_advanced.pitch_eq rfl]

theorem State.atCutoff_now (s : State) : s.atCutoff.now = max s.now s.cutoffAt :=
  ((State.cutoffClean_writes _).now_eq rfl).trans (s.advanceTo_now _)

theorem State.atCutoff_slot (s : State) (k : Nat) : s.atCutoff.slot k = s.slot k :=
  State.slot_congr (s.cutoffClean_advanced.summit_eq rfl) k

theorem State.atCutoff_sys (s : State) : s.atCutoff.sys = s.sys := s.cutoffClean_advanced.sys_eq rfl

theorem State.cutoffStep_pitch (s : State) (hr : s.pitch.running = true) :
    s.cutoffStep.pitch = { s.pitch with cutoffDone := true } := by
  cases hc : s.pitch.cutoffDone with
  | true => rw [s.cutoffStep_of_passed hc, ← hc]
  | false =>
    rw [s.cutoffStep_eq hr hc, (State.pumpOutbound_writes _).pitch_eq rfl, (State.sendPartials_writes ..).pitch_eq rfl,
      (State.swapSlots_writes ..).pitch_eq rfl, s.atCutoff_pitch]

theorem State.cutoffStep_now (s : State) (hr : s.pitch.running = true) (hc : s.pitch.cutoffDone = false) :
    s.cutoffStep.now = max s.now s.cutoffAt := by
  rw [s.cutoffStep_eq hr hc, (State.pumpOutbound_writes _).now_eq rfl, (State.sendPartials_writes ..).now_eq rfl,
    (State.swapSlots_writes ..).now_eq rfl, s.atCutoff_now]

theorem State.cutoffStep_slot (s : State) (hr : s.pitch.running = true) (hc : s.pitch.cutoffDone = false) {k : Nat}
    (hk : k < 64) :
    let far (e : SlotEntry) : Bool := e.key.home != s.sys.deviceId
    let after (b : SlotBuf) : SlotBuf := (b.swap s.pitch.number).cut s.pitch.number far
    s.cutoffStep.slot k = (after (s.slot k).1, after (s.slot k).2) := by
  intro far after
  rw [s.cutoffStep_eq hr hc, State.slot_congr ((State.pumpOutbound_writes _).summit_eq rfl), State.sendPartials_slot,
    State.swapSlots_slot _ _ hk, (State.swapSlots_writes ..).sys_eq rfl, s.atCutoff_slot, s.atCutoff_sys, s.atCutoff_pitch]

/-! ## No buffer stays shut after the decision (R206) -/

/-- No slot has a buffer that takes no deposits. -/
structure State.NoneShut (s : State) : Prop where
  all : ∀ q ∈ s.summit.slots, q.2.1.shut = false ∧ q.2.2.shut = false

theorem State.NoneShut.slot {s : State} (h : s.NoneShut) (k : Nat) :
    (s.slot k).1.shut = false ∧ (s.slot k).2.shut = false := by
  unfold State.slot
  cases hk : s.summit.slots.find k with
  | none => exact ⟨rfl, rfl⟩
  | some b => exact h.all _ (SMap.mem_of_find hk)

theorem State.NoneShut.congr {s t : State} (h : s.NoneShut) (e : t.summit = s.summit) : t.NoneShut := ⟨e ▸ h.all⟩

theorem State.NoneShut.of_moves {l : List Field} {s t : State} (h : s.NoneShut) (hm : Moves l s t)
    (hl : l.contains .summit = false := by rfl) : t.NoneShut := h.congr (hm.summit_eq hl)

theorem State.NoneShut.ite {s t : State} {p : Prop} [Decidable p] (h : s.NoneShut) (h' : t.NoneShut) :
    (if p then s else t).NoneShut := by split <;> assumption

/-- Entries that leave the buffers open none of them and shut none. -/
theorem noneShut_filterEntries {s t : State} (keep : SlotEntry → Bool) (h : s.NoneShut)
    (e : t.summit.slots = s.summit.slots.map (fun p => (p.1, ({ p.2.1 with entries := p.2.1.entries.filter keep },
      { p.2.2 with entries := p.2.2.entries.filter keep })))) : t.NoneShut := by
  refine ⟨fun q hq => ?_⟩
  rw [e] at hq
  obtain ⟨p, hp, rfl⟩ := List.mem_map.mp hq
  exact h.all p hp

theorem freeShut_noneShut (q : SlotBuf × SlotBuf) : (freeShut q).1.shut = false ∧ (freeShut q).2.shut = false := by
  unfold freeShut
  dsimp only
  split
  · exact ⟨rfl, rfl⟩
  · constructor
    · by_cases h : q.1.shut = true
      · rw [if_pos h]; rfl
      · rw [if_neg h]; simpa using h
    · by_cases h : q.2.shut = true
      · rw [if_pos h]; rfl
      · rw [if_neg h]; simpa using h

theorem State.holdEntries_noneShut (s : State) : s.holdEntries.NoneShut := by
  refine ⟨fun q hq => ?_⟩
  obtain ⟨p, -, rfl⟩ := List.mem_map.mp hq
  exact freeShut_noneShut p.2

theorem State.dropEntries_noneShut {s : State} (h : s.NoneShut) (k : RouteKey) (n : Nat) : (s.dropEntries k n).NoneShut :=
  noneShut_filterEntries _ h rfl

/-- The span of a route undone but for its Summit entries and its outbound ropes (R65, R71). -/
def State.undoSpan (s : State) (k : RouteKey) (r : Route) : State :=
  let s' := s.camReplay k (fun stage ridge => ((r.base.builds.find (srKey stage ridge)).bind (fun b => b.cam)).isSome)
  (((((((s'.dropTasks k).dropStrands k).dropWrites k).forgetReads k).applyJournal k (s.spanPitch k)).depotReplay k))

theorem State.discardSpan_eq (s : State) {k : RouteKey} {r : Route} (h : s.route? k = some r) : s.discardSpan k =
    ({ (s.undoSpan k r).dropEntries k (s.spanPitch k) with
      link := { (s.undoSpan k r).link with outbound := (s.undoSpan k r).link.outbound.filter (fun o => o.key != k) } } :
      State).updRoute k (fun r => { r with work := r.base }) := by
  unfold State.discardSpan
  simp only [h]
  rfl

theorem State.discardSpan_of_none (s : State) {k : RouteKey} (h : s.route? k = none) : s.discardSpan k = s := by
  simp [State.discardSpan, h]

theorem State.undoSpan_writes (s : State) (k : RouteKey) (r : Route) : Moves [.objs, .flash, .routes, .sched, .scn, .cairn,
    .content, .depot, .strands, .cache, .coh, .link, .dram, .err, .mgmt, .out] s (s.undoSpan k r) :=
  ((State.camReplay_writes ..).mono (.mk rfl)).trans <| ((State.dropTasks_writes ..).mono (.mk rfl)).trans <|
    ((State.dropStrands_writes ..).mono (.mk rfl)).trans <| ((State.dropWrites_writes ..).mono (.mk rfl)).trans <|
    ((State.forgetReads_writes ..).mono (.mk rfl)).trans <| ((State.applyJournal_writes ..).mono (.mk rfl)).trans <|
    (State.depotReplay_writes ..).mono (.mk rfl)

theorem State.discardSpan_noneShut {s : State} (h : s.NoneShut) (k : RouteKey) : (s.discardSpan k).NoneShut := by
  cases hr : s.route? k with
  | none => rwa [s.discardSpan_of_none hr]
  | some r =>
    rw [s.discardSpan_eq hr]
    exact (State.dropEntries_noneShut (h.of_moves (s.undoSpan_writes k r)) k _).congr rfl

theorem State.freeRoute_noneShut {s : State} (h : s.NoneShut) (k : RouteKey) : (s.freeRoute k).NoneShut := by
  unfold State.freeRoute
  extract_lets u keep cut
  have hu : Moves [.objs, .sched, .content, .depot, .link] s u :=
    Moves.foldl _ (fun t o => (t.freeObj_writes o).mono (.mk rfl)) ((s.forgetReads_writes k).mono (.mk rfl))
  exact noneShut_filterEntries keep (h.of_moves hu) rfl

theorem State.closeOut_noneShut {s : State} (h : s.NoneShut) (k : RouteKey) (status tick check : Nat) (record : Bool) :
    (s.closeOut k status tick check record).NoneShut := by
  unfold State.closeOut
  split
  · exact h
  · rename_i r hr
    extract_lets u sent logged final freed gone
    have hu : u.NoneShut := State.freeRoute_noneShut h k
    have hsent : Moves [.link, .out] u sent := Moves.foldl _ (fun t d => t.send_writes _) (.refl _ u)
    have hlogged : Moves [.freeCount, .objs, .hostMem, .host] sent logged := State.logEvent_writes ..
    have hfinal : final.NoneShut := ((hu.of_moves hsent).of_moves hlogged).congr rfl
    split
    · split
      · exact hfinal.of_moves (State.complete_writes ..)
      · exact hfinal.of_moves (State.closeRoute_writes ..)
    · have hgone : gone.NoneShut := (hu.of_moves (u.freeCam_writes k)).congr rfl
      exact hgone.of_moves (gone.returnQuota_writes k.tenant k.home)

theorem State.suspendHere_noneShut {s : State} (h : s.NoneShut) (k : RouteKey) (cause : Nat) (fp : List Nat) :
    (s.suspendHere k cause fp).NoneShut := by
  unfold State.suspendHere
  split
  · exact h
  · extract_lets u _ _ held upd counted
    have hu : u.NoneShut := State.discardSpan_noneShut h k
    have hupd : upd.NoneShut := hu.congr rfl
    exact (hupd.of_moves (upd.oinc_writes ..)).of_moves (counted.logEvent_writes ..)

theorem State.suspendRoute_noneShut {s : State} (h : s.NoneShut) (k : RouteKey) (cause cls : Nat) :
    (s.suspendRoute k cause cls).NoneShut := by
  unfold State.suspendRoute
  split
  · exact h
  · rename_i r hr
    dsimp only
    have hfar : Moves [.freeCount] s (if s.isHome k = true then s.farFootprint r else ([], s)).2 :=
      Moves.ite_snd (s.farFootprint_writes r) (.refl _ s)
    generalize (if s.isHome k = true then s.farFootprint r else ([], s)) = p at hfar ⊢
    have htold (m : Msg) : Moves [.link, .out] p.2
        (if p.2.isHome k = true then p.2.sendVerdict k 6 (p.2.pitch.number - 1) else p.2.send m) :=
      .ite (p.2.sendVerdict_writes ..) (p.2.send_writes m)
    generalize Msg.svc _ = m, List.map _ _ = fp at htold ⊢
    have hheld := State.suspendHere_noneShut ((h.of_moves hfar).of_moves (htold m)) k cause fp
    generalize State.suspendHere _ k cause fp = held at hheld ⊢
    have hnoted := hheld.of_moves (held.complete_writes k.tenant r.cqid (r.notice cause (sumNat fp)))
    exact State.NoneShut.ite (.ite (State.closeOut_noneShut hnoted ..) hnoted) hheld

theorem State.noneShut_foldl {α : Type} {f : State → α → State} (l : List α) (hf : ∀ t a, t.NoneShut → (f t a).NoneShut)
    {s : State} (h : s.NoneShut) : (l.foldl f s).NoneShut := by
  induction l generalizing s with
  | nil => exact h
  | cons a l ih => exact ih (hf s a h)

theorem State.holdPages_noneShut {s : State} (h : s.NoneShut) : s.holdPages.NoneShut := by
  unfold State.holdPages
  refine State.noneShut_foldl _ (fun t k ht => ?_) h
  dsimp only
  generalize ((t.route? k).map (fun r => r.work.staged)).getD 0 = before,
    (t.summit.holding.filter (fun h => h.2.key == k)).map (fun h => h.2) = held
  have hroom := t.stagingRoom_writes k held.length
  refine .ite ht ?_
  split
  case h_1 o u hu =>
    have hu' : u.NoneShut := ht.of_moves (hroom.okGet hu)
    cases hv : u.storeChains o before held with
    | none => exact hu'.of_moves (u.countStall_writes)
    | some v =>
      have hv' : v.NoneShut := hu'.of_moves ((u.storeChains_writes o before held).st hv)
      exact hv'.of_moves (v.settleAsk_writes k.tenant k.id (fun c => c == clsStaging))
  case h_2 m hm => exact ht.of_moves (t.askPage_writes m)
  case h_3 c x u hu => exact State.suspendRoute_noneShut (ht.of_moves (hroom.fullGet hu)) k c x
  case h_4 => exact ht

/-! ## The decision (R66, R69, R206) -/

theorem State.decisionStep_of_passed (s : State) (h : s.pitch.decisionDone = true) : s.decisionStep = s := by
  simp [State.decisionStep, h]

/-- The state at the decision before the buffers give up their entries: every span's verdict or acknowledgement sent. -/
def State.decided (s : State) : State :=
  let s := (s.cutoffStep.advanceTo s.decisionAt).ackDone
  s.routes.foldl (fun s r =>
      if s.isHome r.key then s.decideSpan r.key
      else match r.span with
        | some sp => if s.searchSpoiled sp && !sp.replaying then s.spoiledReplay r.key
          else if ((s.route? r.key).bind (fun r => r.span.map (fun sp => sp.acked))).getD false then s
          else s.sendBelay r sp r.key.home (s.ackKind r sp) s.pitch.number
        | none => s) s

theorem State.decisionStep_eq (s : State) (hr : s.pitch.running = true) (hd : s.pitch.decisionDone = false) :
    s.decisionStep = { s.decided.holdEntries.holdPages with
      pitch := { s.decided.holdEntries.holdPages.pitch with decisionDone := true }
      depot := { s.decided.holdEntries.holdPages.depot with
        migrations := s.decided.holdEntries.holdPages.depot.migrations.map (fun m => { m with ended := m.copied }) } } := by
  unfold State.decisionStep
  rw [if_neg (by simp [hr, hd])]
  rfl

theorem State.decided_writes (s : State) : Moves [.now, .freeCount, .objs, .flash, .routes, .sched, .scn, .cairn, .summit,
    .content, .depot, .strands, .cache, .coh, .link, .hostMem, .host, .dram, .err, .mgmt, .out] s.cutoffStep s.decided := by
  unfold State.decided
  refine Moves.foldl _ (fun t r => ?_) (((State.advanceTo_writes ..).mono (.mk rfl)).trans
    ((State.ackDone_writes _).mono (.mk rfl)))
  refine .ite ((t.decideSpan_writes r.key).mono (.mk rfl)) ?_
  split
  · exact .ite ((t.spoiledReplay_writes r.key).mono (.mk rfl))
      (.ite (.refl _ t) ((t.sendBelay_writes ..).mono (.mk rfl)))
  · exact .refl _ t

theorem State.decisionStep_pitch (s : State) (hr : s.pitch.running = true) :
    s.decisionStep.pitch = if s.pitch.decisionDone then s.pitch else { s.pitch with cutoffDone := true, decisionDone := true } := by
  cases hd : s.pitch.decisionDone with
  | true => rw [s.decisionStep_of_passed hd]; rfl
  | false =>
    rw [s.decisionStep_eq hr hd]
    simp only [(State.holdPages_writes _).pitch_eq rfl, (State.holdEntries_writes _).pitch_eq rfl,
      s.decided_writes.pitch_eq rfl, s.cutoffStep_pitch hr]
    rfl

theorem State.decisionStep_noneShut (s : State) (hr : s.pitch.running = true) (hd : s.pitch.decisionDone = false) :
    s.decisionStep.NoneShut := by
  rw [s.decisionStep_eq hr hd]
  exact (State.holdPages_noneShut s.decided.holdEntries_noneShut).congr rfl

end Sys2Proof.Machine
end

section
/-! SUPPORT. What a tick leaves of the pitch and of the power (R38, R47, R484). -/
namespace Sys2Proof.Machine
open Sys2Proof

/-! ## The device's place in its system -/

/-- The device keeps its ID and the number of devices of its system. -/
structure State.SamePlace (s t : State) : Prop where
  id : t.sys.deviceId = s.sys.deviceId
  count : t.sys.deviceCount = s.sys.deviceCount

theorem State.SamePlace.refl (s : State) : s.SamePlace s := ⟨rfl, rfl⟩

theorem State.SamePlace.trans {s t u : State} (h : s.SamePlace t) (h' : t.SamePlace u) : s.SamePlace u :=
  ⟨h'.id.trans h.id, h'.count.trans h.count⟩

theorem State.SamePlace.thenMoves {l : List Field} {s t u : State} (h : s.SamePlace t) (h' : Moves l t u)
    (hl : l.contains .sys = false := by rfl) : s.SamePlace u := h.trans ⟨congrArg _ (h'.sys_eq hl), congrArg _ (h'.sys_eq hl)⟩

theorem State.SamePlace.foldl {α : Type} {f : State → α → State} (l : List α) (hf : ∀ (t : State) a, t.SamePlace (f t a))
    (s : State) : s.SamePlace (l.foldl f s) := by
  induction l generalizing s with
  | nil => exact .refl s
  | cons a l ih => exact (hf s a).trans (ih _)

theorem State.enterRetreat_place (s : State) (bit : Nat) : s.SamePlace (s.enterRetreat bit) := by
  unfold State.enterRetreat
  have hwork (t : State) (h : s.SamePlace t) : s.SamePlace t.retreatWork := h.thenMoves t.retreatWork_writes
  split
  · exact hwork _ ⟨rfl, rfl⟩
  · exact hwork _ ⟨rfl, rfl⟩
  · exact ⟨rfl, rfl⟩
  · exact ⟨rfl, rfl⟩

theorem State.SamePlace.reloaded {s t : State} (h : s.SamePlace t) (q : Nat) : s.SamePlace (t.reloadRidge q) :=
  h.thenMoves (t.reloadRidge_writes q)

theorem State.passSpare_place (s : State) (low high p : Nat) : s.SamePlace (s.passSpare low high p) := by
  unfold State.passSpare
  extract_lets u
  have hu : s.SamePlace u := ((State.SamePlace.refl s).thenMoves (s.settleWrong_writes low)).thenMoves
    (State.settleWrong_writes _ high)
  refine State.SamePlace.reloaded ?_ low
  exact ⟨hu.id, hu.count⟩

theorem State.loseRidge_place (s : State) (p : Nat) (failed : Bool) : s.SamePlace (s.loseRidge p failed) := by
  unfold State.loseRidge
  extract_lets leave _ _ marked
  have hleave {t : State} (h : s.SamePlace t) : s.SamePlace (leave t) := by
    dsimp only [leave]
    split
    · exact h.thenMoves (t.fenceL2_writes p)
    · exact h.thenMoves (t.sweepL2_writes p)
  have hm : s.SamePlace marked := ⟨rfl, rfl⟩
  split
  · exact hleave ⟨rfl, rfl⟩
  · split
    · exact hm
    · rename_i q hq
      extract_lets left
      have hl : s.SamePlace left := hleave (hm.thenMoves (marked.settleWrong_writes q))
      split
      · refine State.SamePlace.reloaded ?_ q
        exact ⟨hl.id, hl.count⟩
      · refine .trans ?_ (State.enterRetreat_place _ _)
        split
        · split
          · exact hl.trans (State.passSpare_place ..)
          · exact hl
        · exact hl

theorem State.retireAskedRidges_place (s : State) : s.SamePlace s.retireAskedRidges := by
  have hone (t : State) (p : Nat) : t.SamePlace (if (t.logicalRidge p).isSome then (t.loseRidge p false).replayAll
      else t.loseRidge p false) := by
    split
    · exact (t.loseRidge_place p false).thenMoves (State.replayAll_writes _)
    · exact t.loseRidge_place p false
  have h := State.SamePlace.foldl s.sys.retireAsked hone { s with sys := { s.sys with retireAsked := [] } }
  exact ⟨h.id, h.count⟩

/-! ## The tick -/

theorem State.powerStep_pitch (s : State) (mw : Nat) : ∃ c, (s.powerStep mw).pitch = { s.pitch with coolTicks := c } := by
  unfold State.powerStep
  extract_lets
  split
  split <;> exact ⟨_, rfl⟩

theorem State.powerStep_packageMw (s : State) (mw : Nat) : (s.powerStep mw).power.packageMw = mw := by
  unfold State.powerStep
  extract_lets
  split
  split <;> rfl

theorem State.setSys_writes (s : State) (y : SysSt) : Moves [.sys] s { s with sys := y } := by
  rw [Moves.mk_eq]
  refine MovesMk.upd rfl (.inl rfl) (.inl rfl) ?_ (.refl _ s)
  apply upd_parts <;> first | exact .inl rfl | exact .inr rfl

/-- Up to the move of the pitch number a tick, its decision made, leaves the pitch as it was but for the power's cool ticks,
and the peers' deaths and the device's place; after it only routes and messages start. -/
theorem State.tickCore_ends (s : State) (instant mw : Nat) : ∃ u c, u.pitch = { s.decisionStep.pitch with coolTicks := c } ∧
    u.coh.dead = s.coh.dead ∧ s.SamePlace u ∧ u.power.packageMw = mw ∧
    (s.tickCore instant mw).pitch = (u.nextPitch instant).pitch ∧ (s.tickCore instant mw).power = u.power := by
  unfold State.tickCore
  extract_lets _ decided d n powered verdicts ended retired switched done u next _ work resumed fresh begun
  have hp : Moves [.now, .objs, .pitch, .power, .strands, .sched, .host, .dram, .depot] decided powered :=
    ((State.advanceTo_writes ..).mono (.mk rfl)).trans <| ((State.powerStep_writes ..).mono (.mk rfl)).trans <|
      ((State.applyAsked_writes _).mono (.mk rfl)).trans ((State.markDue_writes _).mono (.mk rfl))
  have hv : Moves _ powered verdicts :=
    Moves.foldl powered.routes (fun (t : State) (r : Route) => t.applyVerdict_writes r.key) (.refl _ powered)
  have he : Moves _ verdicts ended :=
    Moves.foldl verdicts.routes (fun (t : State) (r : Route) => t.endAtTick_writes n d r.key) (.refl _ verdicts)
  have hr : Moves [.freeCount, .objs, .mem, .sys, .flash, .routes, .sched, .scn, .cairn, .summit, .content, .depot, .strands,
      .cache, .coh, .link, .hostMem, .host, .dram, .err, .mgmt, .out] ended retired :=
    ((State.tenantResets_writes ..).mono (.mk rfl)).trans <| (State.retireAskedRidges_writes _).trans
      ((State.returnQuotas_writes _).mono (.mk rfl))
  have hs : Moves [.objs, .depot, .cache, .coh, .link, .dram, .out] retired switched :=
    (State.switchMigrations_writes _).trans <| ((State.cacheBelay_writes _).mono (.mk rfl)).trans
      ((State.chooseMigrations_writes _).mono (.mk rfl))
  have hu : Moves _ switched u :=
    Moves.foldl done (fun (t : State) (k : RouteKey) => t.startPublication_writes k (n + 1)) (.refl _ switched)
  have hall : Moves [.freeCount, .objs, .mem, .sys, .flash, .routes, .sched, .scn, .cairn, .summit, .content, .depot,
      .strands, .cache, .coh, .link, .hostMem, .host, .dram, .err, .mgmt, .out] powered u :=
    (hv.mono (.mk rfl)).trans <| (he.mono (.mk rfl)).trans <| (hr.mono (.mk rfl)).trans <| (hs.mono (.mk rfl)).trans
      (hu.mono (.mk rfl))
  have hplace : s.SamePlace u := by
    have h : s.SamePlace ended :=
      ((((State.SamePlace.refl s).thenMoves s.decisionStep_writes).thenMoves hp).thenMoves hv).thenMoves he
    have h' : s.SamePlace retired :=
      ((h.thenMoves (ended.tenantResets_writes n)).trans (State.retireAskedRidges_place _)).thenMoves
        (State.returnQuotas_writes _)
    exact (h'.thenMoves hs).thenMoves hu
  have hafter : Moves [.freeCount, .objs, .sys, .routes, .sched, .content, .depot, .coh, .link, .hostMem, .host, .out] next
      begun.sendMarker.driveTickOut.pumpOutbound := by
    have hw : Moves [.objs, .sys] next work :=
      .ite (((State.setSys_writes ..).mono (.mk rfl)).trans ((State.oset_writes ..).mono (.mk rfl))) (.refl _ next)
    have hf : Moves _ resumed (fresh.foldl (fun s k => s.openSpan k s.pitch.number) resumed) :=
      Moves.foldl fresh (fun (t : State) (k : RouteKey) => t.openSpan_writes k t.pitch.number) (.refl _ resumed)
    have hb : Moves [.freeCount, .objs, .routes, .sched, .content, .depot, .link, .hostMem, .host, .out] work begun :=
      .ite ((work.resumeRoutes_writes.mono (.mk rfl)).trans (hf.mono (.mk rfl))) (.refl _ work)
    exact (hw.mono (.mk rfl)).trans <| (hb.mono (.mk rfl)).trans <| (begun.sendMarker_writes.mono (.mk rfl)).trans <|
      ((State.driveTickOut_writes _).mono (.mk rfl)).trans ((State.pumpOutbound_writes _).mono (.mk rfl))
  obtain ⟨c, hc⟩ := (decided.advanceTo instant).powerStep_pitch mw
  refine ⟨u, c, ?_, ?_, hplace, ?_, hafter.pitch_eq rfl, ?_⟩
  · have h : powered.pitch = ((decided.advanceTo instant).powerStep mw).pitch :=
      ((State.markDue_writes _).pitch_eq rfl).trans ((State.applyAsked_writes _).pitch_eq rfl)
    rw [hall.pitch_eq rfl, h, hc, State.advanceTo_pitch]
  · rw [(hall.peers_eq rfl).1, (hp.peers_eq rfl).1, (s.decisionStep_writes.peers_eq rfl).1]
  · have h : powered.power = ((decided.advanceTo instant).powerStep mw).power :=
      ((State.markDue_writes _).power_eq rfl).trans ((State.applyAsked_writes _).power_eq rfl)
    rw [hall.power_eq rfl, h, State.powerStep_packageMw]
  · exact (hafter.power_eq rfl).trans ((State.nextPitch_writes ..).power_eq rfl)

/-! ## The next pitch (R38, R47) -/

theorem State.handMaster_alive (s : State) (h : s.coh.dead.contains s.pitch.master = false) : s.handMaster = s := by
  unfold State.handMaster
  rw [h]
  rfl

/-- The living device of the lowest ID. -/
def State.heir (s : State) : Nat :=
  ((List.range s.sys.deviceCount).find? (fun x => !s.coh.dead.contains x)).getD s.sys.deviceId

theorem State.heir_eq (s : State) {m : Nat} (hm : m < s.sys.deviceCount) (ha : s.coh.dead.contains m = false)
    (hl : ∀ x < m, s.coh.dead.contains x = true) : s.heir = m := by
  have hf : (List.range s.sys.deviceCount).find? (fun x => !s.coh.dead.contains x) = some m :=
    List.find?_range_eq_some.mpr ⟨by rw [ha]; rfl, List.mem_range.mpr hm, fun x hx => by rw [hl x hx]; rfl⟩
  rw [State.heir, hf]
  rfl

theorem State.handMaster_pitch (s : State) : s.handMaster.pitch =
    if s.coh.dead.contains s.pitch.master then
      { s.pitch with master := s.heir, mode := if s.heir = s.sys.deviceId then .internal else s.pitch.mode }
    else s.pitch := by
  unfold State.handMaster
  cases s.coh.dead.contains s.pitch.master <;> rfl

theorem State.nextPitch_pitch (s : State) (instant : Nat) : ∃ e, (s.nextPitch instant).pitch = { s.handMaster.pitch with
    number := s.handMaster.pitch.number + 1, lastTick := instant, expected := e, cutoffDone := false
    decisionDone := false, correction := 0 } := by
  have h : s.handMaster.flushHeld.writeLogs.pitch = s.handMaster.pitch :=
    ((State.writeLogs_writes _).pitch_eq rfl).trans ((State.flushHeld_writes _).pitch_eq rfl)
  refine ⟨instant + usClocks s.handMaster.flushHeld.writeLogs.periodUs, ?_⟩
  rw [← h]
  rfl

/-- A tick moves the pitch on, under a living master, whatever its verdicts and messages were. -/
theorem State.tickCore_pitch (s : State) (instant mw : Nat) (hr : s.pitch.running = true) :
    ∃ c e, (s.tickCore instant mw).pitch = { s.handMaster.pitch with
      number := s.pitch.number + 1, lastTick := instant, expected := e, cutoffDone := false, decisionDone := false
      correction := 0, coolTicks := c } := by
  obtain ⟨u, c, hu, hdead, hplace, -, hp, -⟩ := s.tickCore_ends instant mw
  obtain ⟨e, he⟩ := u.nextPitch_pitch instant
  have hheir : u.heir = s.heir := by rw [State.heir, hdead, hplace.count, hplace.id]; rfl
  obtain ⟨a, b, hd⟩ : ∃ a b, s.decisionStep.pitch = { s.pitch with cutoffDone := a, decisionDone := b } := by
    rw [s.decisionStep_pitch hr]
    split <;> exact ⟨_, _, rfl⟩
  refine ⟨c, e, ?_⟩
  rw [hp, he, u.handMaster_pitch, s.handMaster_pitch, hheir, hdead, hplace.id, hu, hd]
  cases s.coh.dead.contains s.pitch.master <;> rfl

theorem State.tickCore_packageMw (s : State) (instant mw : Nat) : (s.tickCore instant mw).power.packageMw = mw := by
  obtain ⟨u, c, -, -, -, hw, -, hp⟩ := s.tickCore_ends instant mw
  rw [hp, hw]
end Sys2Proof.Machine
end

section
/-! SUPPORT. The edges and misses of TICK_IN (R44), and the instants of a pitch. -/
namespace Sys2Proof.Machine
open Sys2Proof

theorem State.handMaster_number (s : State) : s.handMaster.pitch.running = s.pitch.running ∧
    s.handMaster.pitch.tickInStarted = s.pitch.tickInStarted ∧ s.handMaster.pitch.misses = s.pitch.misses ∧
    s.handMaster.pitch.fallback = s.pitch.fallback := by
  rw [s.handMaster_pitch]
  split <;> exact ⟨rfl, rfl, rfl, rfl⟩

/-- What every tick leaves, on the device's timer or by an edge. -/
theorem State.tickCore_instants (s : State) (instant mw : Nat) (hr : s.pitch.running = true) :
    let t := s.tickCore instant mw
    t.pitch.number = s.pitch.number + 1 ∧ t.pitch.lastTick = instant ∧ t.pitch.tickInStarted = s.pitch.tickInStarted ∧
      t.pitch.misses = s.pitch.misses ∧ t.pitch.fallback = s.pitch.fallback := by
  obtain ⟨c, e, h⟩ := s.tickCore_pitch instant mw hr
  obtain ⟨-, hstarted, hmisses, hfallback⟩ := s.handMaster_number
  simp only [h]
  exact ⟨trivial, trivial, hstarted, hmisses, hfallback⟩

theorem execTick_own (mw : Nat) (s : State) (hr : s.pitch.running = true)
    (h : s.pitch.mode ≠ .tickIn ∨ s.pitch.fallback = true) : execTick mw s = .next (s.tickCore s.tickInstant mw) := by
  unfold execTick
  rw [if_neg]
  rcases h with h | h <;> simp [hr, h]

/-- A tick on the device's own timer. -/
theorem State.tickCore_own (s : State) (mw : Nat) (hr : s.pitch.running = true) :
    let t := s.tickCore s.tickInstant mw
    t.pitch.number = s.pitch.number + 1 ∧ t.pitch.lastTick = s.tickInstant ∧ t.pitch.cutoffDone = false ∧
      t.pitch.decisionDone = false ∧ t.pitch.correction = 0 ∧ t.pitch.running = true ∧ t.power.packageMw = mw ∧
      (s.coh.dead.contains s.pitch.master = false → t.pitch.mode = s.pitch.mode ∧ t.pitch.master = s.pitch.master) ∧
      (∀ m, s.coh.dead.contains s.pitch.master = true → m < s.sys.deviceCount → s.coh.dead.contains m = false →
        (∀ x < m, s.coh.dead.contains x = true) → t.pitch.master = m ∧
          t.pitch.mode = if m = s.sys.deviceId then .internal else s.pitch.mode) := by
  obtain ⟨c, e, h⟩ := s.tickCore_pitch s.tickInstant mw hr
  simp only [h]
  refine ⟨trivial, trivial, trivial, trivial, trivial, s.handMaster_number.1.trans hr, s.tickCore_packageMw .., fun ha => ?_,
    fun m hdead hm halive hlow => ?_⟩
  · rw [s.handMaster_alive ha]
    exact ⟨rfl, rfl⟩
  · rw [s.handMaster_pitch, if_pos hdead, s.heir_eq hm halive hlow]
    exact ⟨rfl, rfl⟩

/-! ## Members after counts and records -/

theorem State.onum_oset_other (s : State) {i m j k : Nat} (n : Nat) (h : okey i m ≠ okey j k) :
    (s.oset j k n).onum i m = s.onum i m := by
  simp [State.onum, State.oint, State.obj, State.oset, State.oput, SMap.find_put_other _ _ h]

theorem State.onum_oinc_other (s : State) {i m j k : Nat} (n : Nat) (h : okey i m ≠ okey j k) :
    (s.oinc j k n).onum i m = s.onum i m := s.onum_oset_other _ h

/-- A record of the device itself changes no member but the count of lost records. -/
theorem State.raise_onum_device (s : State) (a : RecArgs) {i m : Nat} (ht : a.tenant = none)
    (h : okey i m ≠ okey 0x5200 3) : (s.raise a).onum i m = s.onum i m := by
  unfold State.raise
  extract_lets r e s1 e1 s2 s3
  have h2 : s2.onum i m = s.onum i m := by
    dsimp only [s2]
    split
    · rfl
    · split
      · rfl
      · exact State.onum_oinc_other _ 1 h
  rw [State.onum_congr ((State.sendEvent_writes ..).objs_eq rfl)]
  dsimp only [s3]
  rw [ht]
  exact h2

/-! ## Pacing by TICK_IN (R44) -/

/-- The state in which the first edge is taken. -/
def State.paceBegun (s : State) : State := { s with pitch := { s.pitch with tickInStarted := true, lastEdge := s.now } }

/-- The state in which an edge has come in its time. -/
def State.edgeOnTime (s : State) : State := { s with pitch := { s.pitch with misses := 0, lastEdge := s.now } }

/-- The state in which the eighth good edge in a row has brought the pacing back. -/
def State.paced (s : State) : State :=
  { s with pitch := { s.pitch with fallback := false, goodEdges := 0, misses := 0, lastEdge := s.now } }

section
variable (s : State) (hr : s.pitch.running = true) (hm : s.pitch.mode = .tickIn)
include hr hm

theorem State.tickInEdge_first (hs : s.pitch.tickInStarted = false) : s.tickInEdge =
    s.paceBegun.tickCore s.now s.power.packageMw := by
  simp [State.tickInEdge, State.paceBegun, hr, hm, hs]

theorem State.tickInEdge_good (hs : s.pitch.tickInStarted = true) (hf : s.pitch.fallback = false)
    (h : s.pitch.lastTick + usClocks s.periodUs ≤ s.now + usClocks 1) : s.tickInEdge =
    s.edgeOnTime.tickCore s.now s.power.packageMw := by
  simp [State.tickInEdge, State.edgeOnTime, hr, hm, hs, hf, edgeSlack, h]

theorem State.tickInEdge_early (hs : s.pitch.tickInStarted = true) (hf : s.pitch.fallback = false)
    (h : s.now + usClocks 1 < s.pitch.lastTick + usClocks s.periodUs) : s.tickInEdge = s.oinc 0x2001 6 1 := by
  simp [State.tickInEdge, hr, hm, hs, hf, edgeSlack, Nat.not_le.mpr h]

theorem State.tickInEdge_eighth (hs : s.pitch.tickInStarted = true) (hf : s.pitch.fallback = true)
    (hg : s.pitch.goodEdges = 7) (h : s.pitch.lastTick + usClocks s.periodUs ≤ s.now + usClocks 1) :
    s.tickInEdge = s.paced.tickCore s.now s.power.packageMw := by
  simp [State.tickInEdge, State.paced, hr, hm, hs, hf, hg, edgeSlack, h]

theorem State.tickInEdge_eighth_late (hs : s.pitch.tickInStarted = true) (hf : s.pitch.fallback = true)
    (hg : s.pitch.goodEdges = 7) (h : s.now + usClocks 1 < s.pitch.lastTick + usClocks s.periodUs)
    (hl : s.now ≤ s.pitch.lastTick + usClocks 1) : s.tickInEdge = s.paced := by
  simp [State.tickInEdge, State.paced, hr, hm, hs, hf, hg, edgeSlack, Nat.not_le.mpr h, hl]

/-- A miss ticks a microsecond after the period, whatever record it raises. -/
theorem State.tickInMiss_ticks (hs : s.pitch.tickInStarted = true) (hf : s.pitch.fallback = false) :
    ∃ u : State, s.tickInMiss = u.tickCore (s.pitch.lastTick + usClocks s.periodUs + usClocks 1) u.power.packageMw ∧
      u.pitch.running = true ∧ u.pitch.number = s.pitch.number ∧ u.pitch.misses = s.pitch.misses + 1 ∧
      u.pitch.fallback = decide (s.pitch.misses + 1 = 8) := by
  unfold State.tickInMiss
  rw [if_neg (by simp [hr, hm, hs, hf])]
  extract_lets m counted _ noted _ raised
  have hp : raised.periodUs = s.periodUs := by
    have hn : noted.onum 0x2000 1 = s.onum 0x2000 1 := s.onum_oinc_other 1 (by decide)
    dsimp only [raised, State.periodUs]
    split
    · rw [State.raise_onum_device _ _ rfl (by decide)]
      exact hn
    · exact hn
  have hl : raised.pitch = { s.pitch with
      misses := m, fallback := decide (m = 8), goodEdges := if m = 8 then 0 else s.pitch.goodEdges } := by
    dsimp only [raised]
    by_cases h8 : m = 8
    · rw [if_pos h8, if_pos h8, (State.raise_writes ..).pitch_eq rfl, decide_eq_true h8]
      rfl
    · rw [if_neg h8, if_neg h8, decide_eq_false h8, ← hf]
      rfl
  refine ⟨raised, ?_, ?_⟩
  · rw [hp, hl]
    rfl
  · rw [hl]
    exact ⟨hr, rfl, rfl, rfl⟩
end

/-- Settles O31, instant by instant: the cutoff, the decision, the tick on the device's own timer, and the edges and misses of
TICK_IN. -/
theorem pitchInstants : Obligations.PitchInstants := by
  intro s hr
  refine ⟨fun hc => ?cutoff, fun hc => ?cutoffPassed, fun hd => ?decision, fun hd => ?decisionPassed, fun mw h => ?tick,
    fun hm hs => ?first, fun hm hs hf => ⟨fun h => ?good, fun h => ?early, ?miss⟩,
    fun hm hs hf hg => ⟨fun h => ?eighth, fun h hl => ?eighthLate⟩⟩
  case cutoff =>
    refine ⟨s.cutoffStep, rfl, s.cutoffStep_pitch hr, s.cutoffStep_now hr hc, fun k hk => ?_⟩
    rw [s.cutoffStep_slot hr hc hk]
    exact ⟨rfl, rfl, rfl, rfl⟩
  case cutoffPassed => exact congrArg Host.Outcome.next (s.cutoffStep_of_passed hc)
  case decision =>
    refine ⟨s.decisionStep, rfl, ?_, fun k _ => (s.decisionStep_noneShut hr hd).slot k⟩
    rw [s.decisionStep_pitch hr, hd]
    rfl
  case decisionPassed => exact congrArg Host.Outcome.next (s.decisionStep_of_passed hd)
  case tick => exact ⟨_, execTick_own mw s hr h, s.tickCore_own mw hr⟩
  case first =>
    obtain ⟨hn, hl, hstarted, -, -⟩ := s.paceBegun.tickCore_instants s.now s.power.packageMw hr
    refine ⟨_, congrArg Host.Outcome.next (s.tickInEdge_first hr hm hs), ?_⟩
    exact ⟨hn, hl, hstarted⟩
  case good =>
    obtain ⟨hn, hl, -, hmisses, -⟩ := s.edgeOnTime.tickCore_instants s.now s.power.packageMw hr
    refine ⟨_, congrArg Host.Outcome.next (s.tickInEdge_good hr hm hs hf h), ?_⟩
    exact ⟨hn, hl, hmisses⟩
  case early =>
    refine ⟨s.oinc 0x2001 6 1, congrArg Host.Outcome.next (s.tickInEdge_early hr hm hs hf h), ?_, (s.oinc_writes ..).frame⟩
    exact s.onum_oset_same ..
  case miss =>
    obtain ⟨u, hu, hur, hun, hum, huf⟩ := s.tickInMiss_ticks hr hm hs hf
    obtain ⟨hn, hl, -, hmisses, hfallback⟩ :=
      u.tickCore_instants (s.pitch.lastTick + usClocks s.periodUs + usClocks 1) u.power.packageMw hur
    refine ⟨_, congrArg Host.Outcome.next hu, ?_⟩
    exact ⟨hn.trans (congrArg (· + 1) hun), hl, hmisses.trans hum, hfallback.trans huf⟩
  case eighth =>
    obtain ⟨hn, hl, -, hmisses, hfallback⟩ := s.paced.tickCore_instants s.now s.power.packageMw hr
    refine ⟨_, congrArg Host.Outcome.next (s.tickInEdge_eighth hr hm hs hf hg h), ?_⟩
    exact ⟨hfallback, hmisses, hn, hl⟩
  case eighthLate => exact congrArg Host.Outcome.next (s.tickInEdge_eighth_late hr hm hs hf hg h hl)

end Sys2Proof.Machine
end

section
/-! SUPPORT. Tick markers against the follower's timer (R46, R355) and the acknowledgements and verdicts of a belay (R66 to R71). -/
namespace Sys2Proof.Machine
open Sys2Proof

/-! ## Routes after updates -/

/-- Two updates of one route are one update. -/
theorem State.updRoute_updRoute (s : State) (k : RouteKey) (f g : Route → Route) (h : ∀ r, (f r).key = r.key) :
    (s.updRoute k f).updRoute k g = s.updRoute k (g ∘ f) := by
  unfold State.updRoute
  simp only [List.map_map]
  congr 1
  refine List.map_congr_left fun r _ => ?_
  by_cases hr : r.key = k <;> simp [hr, h]

theorem State.mapSpan_mapSpan (s : State) (k : RouteKey) (f g : Span → Span) :
    (s.mapSpan k f).mapSpan k g = s.mapSpan k (g ∘ f) := by
  unfold State.mapSpan
  rw [s.updRoute_updRoute k _ _ (by exact fun _ => rfl)]
  simp only [Function.comp_def, Option.map_map]

theorem State.oint_congr {s t : State} (h : t.objs = s.objs) (i m : Nat) : t.oint i m = s.oint i m := by
  simp [State.oint, State.obj, h]

theorem State.oint_oput_num (s : State) (i m : Nat) (z : Int) : (s.oput i m (.num z)).oint i m = z := by
  simp [State.oint, State.obj, State.oput, SMap.find_put_same]

/-! ## Markers (R46) -/

/-- Half-nanosecond clocks and a marker's fields give the follower's deviation, in eighths of a nanosecond. -/
def State.markerDiff (s : State) (latency elapsed n : Nat) : Int :=
  let own : Int := if n ≤ s.pitch.number then s.pitch.lastTick else s.pitch.expected
  4 * (s.now : Int) - elapsed - latency - 4 * own

theorem State.checkMarker_far (s : State) (latency elapsed n : Nat) (h : 160 < (s.markerDiff latency elapsed n).natAbs) :
    (s.checkMarker latency elapsed n).pitch = { s.pitch with correction := s.markerDiff latency elapsed n } ∧
    ((s.markerDiff latency elapsed n).natAbs ≤ 320 →
      (s.checkMarker latency elapsed n).oint 0x2001 4 = (s.markerDiff latency elapsed n).tdiv 8) := by
  unfold State.checkMarker
  extract_lets own diff ns _ moved noted
  have hd : 160 < diff.natAbs := h
  rw [if_pos hd]
  constructor
  · split
    · rw [(State.raise_writes ..).pitch_eq rfl]
      rfl
    · rfl
  · intro h'
    have hd' : ¬ 320 < diff.natAbs := Nat.not_lt.mpr h'
    rw [if_neg hd']
    exact moved.oint_oput_num ..

theorem State.checkMarker_near (s : State) (latency elapsed n : Nat) (h : (s.markerDiff latency elapsed n).natAbs ≤ 160) :
    s.checkMarker latency elapsed n = s := if_neg (Nat.not_lt.mpr h)

/-- The state in which a broadcast is noted. -/
def State.bcastNoted (s : State) (op origin count : Nat) : State :=
  { s with link := { s.link with seen := s.link.seen ++ [(op, origin, count)] } }

theorem State.noteBcast_seen (s : State) {op origin count : Nat} (h : s.link.seen.contains (op, origin, count) = true) :
    s.noteBcast op origin count = none := if_pos h

theorem State.noteBcast_new (s : State) {op origin count : Nat} (h : s.link.seen.contains (op, origin, count) = false) :
    s.noteBcast op origin count = some (s.bcastNoted op origin count) := by
  rw [State.noteBcast, h]
  rfl

theorem State.bcastNoted_writes (s : State) (op origin count : Nat) : Moves [.link] s (s.bcastNoted op origin count) :=
  s.setLink_writes _

theorem State.bcastNoted_port (s : State) (op origin count p : Nat) : (s.bcastNoted op origin count).port p = s.port p := by
  unfold State.port
  split <;> rfl

section
variable (s : State) (p m src elapsed n : Nat) (hm : m < s.sys.deviceCount) (hsrc : src < s.sys.deviceCount)
  (he : elapsed ≤ 65535)
include hm hsrc he

theorem State.takeMarker_seen (h : s.link.seen.contains (0xA0, m, n) = true) : s.takeMarker p m src elapsed n = s := by
  unfold State.takeMarker
  rw [if_neg (by omega), s.noteBcast_seen h]

/-- A new marker of the master is checked, then forwarded unless it is too old. -/
theorem State.takeMarker_new (h : s.link.seen.contains (0xA0, m, n) = false) (hr : s.pitch.running = true)
    (hf : s.pitch.mode = .follower) (hmaster : s.pitch.master = m) :
    Moves [.link, .out] ((s.bcastNoted 0xA0 m n).checkMarker (s.port p).latency elapsed n)
      (s.takeMarker p m src elapsed n) := by
  unfold State.takeMarker
  rw [if_neg (by omega), s.noteBcast_new h]
  have hc : ((s.bcastNoted 0xA0 m n).pitch.running && (s.bcastNoted 0xA0 m n).pitch.mode == .follower
      && m == (s.bcastNoted 0xA0 m n).pitch.master) = true := by
    simp [State.bcastNoted, hr, hf, hmaster]
  simp only [hc, State.bcastNoted_port, if_true]
  exact .ite (.refl _ _) (State.forwardBcast_writes ..)
end

/-! ## Acknowledgements and verdicts (R66 to R71) -/

section
variable (s : State) (a : BelayAck) (bad : State → Nat → State) (hslot : a.slotSource = a.source) (hres : a.reserved = 0)
  (hsrc : a.source < s.sys.deviceCount) (hdest : a.dest < s.sys.deviceCount) (hhome : a.home < s.sys.deviceCount)
include hslot hres hsrc hdest hhome

theorem State.takeBelay_passes (h : a.dest ≠ s.sys.deviceId) : s.takeBelay a bad = s.send (.belay a) := by
  unfold State.takeBelay
  rw [if_neg (by omega), if_pos h]

section
variable (hd : a.dest = s.sys.deviceId) (halive : s.coh.dead.contains a.source = false) {r : Route} {sp : Span}
  (hspan : s.ackSpan a = some (r, sp))
include hd halive hspan

theorem State.takeBelay_ack (hh : s.isHome r.key = true) (hk : a.kind ≤ 2) : s.takeBelay a bad = s.takeAck r sp a := by
  unfold State.takeBelay
  rw [if_neg (by omega), if_neg (not_not.mpr hd), if_neg (Bool.eq_false_iff.mp halive), if_neg (by omega), hspan]
  exact (if_pos hk).trans (if_pos hh)

theorem State.takeBelay_verdict (hh : s.isHome r.key = false) (hk : a.kind ∈ [4, 5, 6]) :
    s.takeBelay a bad = s.takeVerdict r sp a := by
  have hk' : 4 ≤ a.kind ∧ a.kind ≤ 6 := by
    simp only [List.mem_cons, List.not_mem_nil, or_false] at hk
    omega
  unfold State.takeBelay
  rw [if_neg (by omega), if_neg (not_not.mpr hd), if_neg (Bool.eq_false_iff.mp halive), if_neg (by omega), hspan]
  exact (if_neg (by omega)).trans (if_neg (Bool.eq_false_iff.mp hh))
end
end

/-- DONE and NOT_DONE count for the tick in progress. -/
theorem State.takeAck_done (s : State) (r : Route) (sp : Span) (a : BelayAck) (hk : a.kind ≤ 1) : s.takeAck r sp a =
    if a.tick = s.pitch.number % 2 ^ 32 then
      s.updRoute r.key (fun r => { r with span := r.span.map (fun (sp : Span) => { sp with
        acks := sp.acks.filter (fun x => x.1 != a.source) ++ [(a.source, a.kind)] }) }) else s := by
  unfold State.takeAck
  exact if_neg (by omega)

theorem State.takeVerdict_commit (s : State) (r : Route) (sp : Span) (a : BelayAck) (hheld : sp.held = false)
    (hk : a.kind = 4) : s.takeVerdict r sp a = s.updRoute r.key (fun r => { r with
      span := r.span.map (fun (sp : Span) => { sp with verdict := some 4 }) }) := by
  unfold State.takeVerdict
  simp only [hk, hheld]
  rfl

theorem State.takeVerdict_extend (s : State) (r : Route) (sp : Span) (a : BelayAck) (hheld : sp.held = false)
    (hk : a.kind = 5) : s.takeVerdict r sp a = s.updRoute r.key (fun r => { r with
      span := r.span.map (fun (sp : Span) => { sp with ext := sp.ext + 1, verdict := some 5 }) }) := by
  unfold State.takeVerdict
  rw [if_neg (by omega)]
  simp only [if_pos hk, hheld, Bool.false_eq_true, if_false, State.mapSpan_mapSpan]
  rw [hk]
  rfl

theorem State.takeVerdict_replay (s : State) (r : Route) (sp : Span) (a : BelayAck) (hheld : sp.held = false)
    (hk : a.kind = 6) (h : r.h < a.halvings ∨
      (a.tick = s.pitch.number % 2 ^ 32 ∧ a.faultReplays ≤ sp.faultReplays ∧ sp.replaying = false)) :
    s.takeVerdict r sp a = s.updRoute r.key (fun r => { r with
      h := a.halvings, span := r.span.map (fun (sp : Span) => { sp with verdict := some 6 }) }) := by
  unfold State.takeVerdict
  rw [if_pos hk]
  unfold State.takeReplay
  extract_lets k told verdict
  rw [if_pos (h.imp_right .inl), if_neg (Bool.eq_false_iff.mp hheld)]
  exact s.updRoute_updRoute k _ _ fun _ => rfl

/-- Settles O32: the marker's check, and the verdicts and acknowledgements of a belay one by one. -/
theorem tickMessages : Obligations.TickMessages := by
  constructor
  · intro s p m src elapsed n hm hsrc he
    refine ⟨fun h => congrArg Host.Outcome.next (s.takeMarker_seen _ m src elapsed n hm hsrc he h),
      fun h hr hf hmaster => ?_⟩
    extract_lets own diff
    have hnew := s.takeMarker_new (p % 4) m src elapsed n hm hsrc he h hr hf hmaster
    refine ⟨s.takeMarker (p % 4) m src elapsed n, rfl, ?_⟩
    let v := s.bcastNoted 0xA0 m n
    have hdiff : diff = v.markerDiff (s.port (p % 4)).latency elapsed n := rfl
    rw [hnew.pitch_eq rfl, State.oint_congr (hnew.objs_eq rfl)]
    by_cases hfar : 160 < diff.natAbs
    · obtain ⟨hpitch, hoffset⟩ := v.checkMarker_far _ _ _ (hdiff ▸ hfar)
      rw [if_pos hfar]
      exact ⟨hpitch, fun _ => hoffset, fun h => absurd hfar (Nat.not_lt.mpr h)⟩
    · have hnear := v.checkMarker_near _ _ _ (hdiff ▸ Nat.not_lt.mp hfar)
      rw [hnear] at hnew ⊢
      rw [if_neg hfar]
      exact ⟨rfl, fun h => absurd h hfar, fun _ => (((s.bcastNoted_writes 0xA0 m n).mono (.mk rfl)).trans hnew).frame⟩
  · intro s a hslot hres hsrc hdest hhome
    let bad (s : State) (cause : Nat) : State := s.violationFrom cause 0xA1 a.source
    refine ⟨fun h => ?_, fun hd halive r sp hspan => ⟨fun hh hk => ?_, fun hh hheld => ?_⟩⟩
    · exact congrArg Host.Outcome.next (s.takeBelay_passes a bad hslot hres hsrc hdest hhome h)
    · have h := s.takeBelay_ack a bad hslot hres hsrc hdest hhome hd halive hspan hh (by omega)
      exact congrArg Host.Outcome.next (h.trans (s.takeAck_done r sp a hk))
    · have h := s.takeBelay_verdict a bad hslot hres hsrc hdest hhome hd halive hspan hh
      refine ⟨fun hk => congrArg Host.Outcome.next ((h (by simp [hk])).trans (s.takeVerdict_commit r sp a hheld hk)),
        fun hk => congrArg Host.Outcome.next ((h (by simp [hk])).trans (s.takeVerdict_extend r sp a hheld hk)),
        fun hk hw => congrArg Host.Outcome.next ((h (by simp [hk])).trans (s.takeVerdict_replay r sp a hheld hk hw))⟩

end Sys2Proof.Machine
end

section
/-! SUPPORT. Heartbeats and death notices: what they leave of the peers' lives (R333 to R335, R355). -/
namespace Sys2Proof.Machine
open Sys2Proof

/-! ## Heartbeats -/

theorem State.setCoh_peers (s : State) (c : CohSt) (h : c.withPeers CohSt.reset = s.coh.withPeers CohSt.reset) :
    Moves [.peers] s { s with coh := c } := by
  rw [Moves.mk_eq]
  refine MovesMk.upd rfl (.inl rfl) (.inl rfl) ?_ (.refl _ s)
  apply upd_parts <;> first | exact .inl rfl | exact .inr rfl | exact .inr h

/-- The state in which the device's next beat has its number. -/
def State.beatCounted (s : State) : State := { s with coh := { s.coh with beats := s.coh.beats + 1 } }

theorem execHeartbeatSend_member (s : State) (h : s.member = true) : ∃ m, execHeartbeatSend s =
    .next (s.beatCounted.broadcast m) := ⟨_, if_pos h⟩

theorem State.beatCounted_writes (s : State) : Moves [.peers] s s.beatCounted := s.setCoh_peers _ rfl

/-- The peers in retreat after a heartbeat with its STATE. -/
def retreatedAfter (l : List Nat) (origin state : Nat) : List Nat :=
  if state = 1 then (if l.contains origin then l else l ++ [origin]) else l.filter (fun d => d != origin)

theorem retreatedAfter_contains (l : List Nat) (origin state : Nat) :
    (retreatedAfter l origin state).contains origin = decide (state = 1) := by
  unfold retreatedAfter
  by_cases hs : state = 1
  · by_cases hc : l.contains origin = true
    · rw [if_pos hs, if_pos hc, hc, decide_eq_true hs]
    · rw [if_pos hs, if_neg hc, decide_eq_true hs]
      simp
  · rw [if_neg hs, decide_eq_false hs]
    simp

/-- The state in which a peer's heartbeat is noted, and, by its STATE, whether the peer is in retreat. -/
def State.beatNoted (s : State) (origin state beat : Nat) : State :=
  { s.bcastNoted 0xA2 origin beat with coh := { s.coh with
    lastBeat := s.coh.lastBeat.put origin s.now, seenBeat := s.coh.seenBeat.put origin beat
    retreated := retreatedAfter s.coh.retreated origin state } }

/-- A living peer's new heartbeat is noted; a first STATE 1 makes the peer a lost participant. -/
theorem State.takeHeartbeat_new (s : State) {p o src b st : Nat} (ho : o < s.sys.deviceCount) (hsrc : src < s.sys.deviceCount)
    (hself : o ≠ s.sys.deviceId) (halive : s.coh.dead.contains o = false) (hnew : s.link.seen.contains (0xA2, o, b) = false)
    (hst : st ≤ 1) : s.takeHeartbeat p o src st b =
      (if st = 1 ∧ s.coh.retreated.contains o = false then (s.beatNoted o st b).losePeer o else s.beatNoted o st b).forwardBcast
        p (.heartbeat o s.sys.deviceId st b) := by
  have hlive : (s.coh.dead.contains o || o == s.sys.deviceId) = false := by rw [halive, beq_false_of_ne hself]; rfl
  unfold State.takeHeartbeat
  rw [if_neg (by omega), if_neg (Bool.eq_false_iff.mp hlive), s.noteBcast_new hnew]
  obtain rfl | rfl : st = 0 ∨ st = 1 := by omega
  · rfl
  · have hb : (s.bcastNoted 0xA2 o b).coh.retreated = s.coh.retreated := rfl
    unfold State.beatNoted retreatedAfter
    cases hc : s.coh.retreated.contains o with
    | false =>
      simp only [hb, hc, and_self, if_true, Bool.false_eq_true, if_false, (State.losePeer_writes _ o).sys_eq rfl]
      rfl
    | true =>
      simp only [hb, hc, Bool.true_eq_false, and_false, if_false, if_true, Nat.one_ne_zero]
      rfl

theorem State.takeHeartbeat_peers (s : State) {p o src b st : Nat} (ho : o < s.sys.deviceCount)
    (hsrc : src < s.sys.deviceCount) (hself : o ≠ s.sys.deviceId) (halive : s.coh.dead.contains o = false)
    (hnew : s.link.seen.contains (0xA2, o, b) = false) (hst : st ≤ 1) :
    let t := s.takeHeartbeat p o src st b
    t.coh.lastBeat.find o = some s.now ∧ t.coh.seenBeat.find o = some b ∧ t.coh.retreated.contains o = decide (st = 1) ∧
      t.coh.dead = s.coh.dead := by
  intro t
  have hw : Moves [.freeCount, .objs, .flash, .routes, .sched, .scn, .cairn, .summit, .content, .depot, .strands, .cache,
      .coh, .link, .hostMem, .host, .dram, .err, .mgmt, .out] (s.beatNoted o st b) t := by
    rw [show t = _ from s.takeHeartbeat_new ho hsrc hself halive hnew hst]
    exact .trans (.ite (State.losePeer_writes ..) (.refl _ _)) ((State.forwardBcast_writes ..).mono (.mk rfl))
  obtain ⟨hdead, hlast, hseen, hretreated, -, -⟩ := hw.peers_eq rfl
  rw [hdead, hlast, hseen, hretreated]
  exact ⟨SMap.find_put_same .., SMap.find_put_same .., retreatedAfter_contains .., rfl⟩

/-! ## Deaths -/

theorem State.applyDeath_dead (s : State) {d : Nat} (h : s.coh.dead.contains d = false) (hd : d ≠ s.sys.deviceId) :
    (s.applyDeath d).coh.dead = s.coh.dead ++ [d] := by
  have hlive : (s.coh.dead.contains d || d == s.sys.deviceId) = false := by rw [h, beq_false_of_ne hd]; rfl
  unfold State.applyDeath
  rw [if_neg (Bool.eq_false_iff.mp hlive)]
  extract_lets _ _ _ noted walked dropped orphans closed
  have hw : Moves [.freeCount, .objs, .mem, .flash, .routes, .sched, .scn, .cairn, .summit, .content, .depot, .strands,
      .cache, .coh, .link, .hostMem, .host, .dram, .err, .mgmt, .out] noted dropped :=
    ((noted.walk_writes ..).mono (.mk rfl)).trans <| ((State.dropHomed_writes ..).mono (.mk rfl)).trans
      ((State.failRequests_writes ..).mono (.mk rfl))
  have hc : Moves [.freeCount, .objs, .flash, .routes, .sched, .scn, .cairn, .summit, .content, .depot, .strands,
      .cache, .coh, .link, .hostMem, .host, .dram, .err, .mgmt, .out] dropped closed := by
    refine Moves.foldl orphans (fun t k => ?_) (.refl _ dropped)
    exact .trans (.ite ((t.discardSpan_writes k).mono (.mk rfl)) (.refl _ t)) ((State.closeOut_writes ..).mono (.mk rfl))
  rw [((State.losePeer_writes closed d).peers_eq rfl).1, (hc.peers_eq rfl).1, (hw.peers_eq rfl).1]

theorem State.declareDead_eq (s : State) {d : Nat} (hd : d < s.sys.deviceCount) (hself : d ≠ s.sys.deviceId)
    (halive : s.coh.dead.contains d = false) (hm : s.member = true) (hb : s.bivouacDue = false) :
    s.declareDead d = (s.broadcast (.svc (deathMsg s.sys.deviceId d))).applyDeath d := by
  unfold State.declareDead
  rw [halive, hm, hb, beq_false_of_ne hself, decide_eq_false (Nat.not_le.mpr hd)]
  rfl

theorem State.declareDead_due (s : State) (d : Nat) (hb : s.bivouacDue = true) : s.declareDead d = s := by
  unfold State.declareDead
  rw [hb, Bool.or_true]
  rfl

theorem State.declareDead_dead (s : State) {d : Nat} (hd : d < s.sys.deviceCount) (hself : d ≠ s.sys.deviceId)
    (halive : s.coh.dead.contains d = false) (hm : s.member = true) (hb : s.bivouacDue = false) :
    (s.declareDead d).coh.dead = s.coh.dead ++ [d] := by
  have hs := s.broadcast_writes (.svc (deathMsg s.sys.deviceId d))
  have hdead := (hs.peers_eq rfl).1
  rw [s.declareDead_eq hd hself halive hm hb,
    State.applyDeath_dead _ (by rwa [hdead]) (by rwa [hs.sys_eq rfl]), hdead]

theorem State.selfDeath_silent (s : State) (h : s.sys.state ≠ .configuration) : s.selfDeath.coh.silent = true := by
  unfold State.selfDeath
  rw [if_neg (fun hc => h hc.1)]
  extract_lets _ u
  have hw := (u.dropHomed_writes (fun d => d != s.sys.deviceId)).mono (l' := [.freeCount, .objs, .sys, .flash, .routes,
    .sched, .scn, .cairn, .summit, .content, .depot, .strands, .cache, .coh, .link, .hostMem, .host, .dram, .err, .mgmt, .out])
    (.mk rfl)
  exact ((hw.trans (State.enterRetreat_writes _ causeDeath)).peers_eq rfl).2.2.2.2.2

/-- A death notice is noted, passed on and applied. -/
theorem State.takeNotice_death (s : State) (port : Option Nat) (bad : State → Nat → State) {src d : Nat}
    (hsrc : src < s.sys.deviceCount) (hd : d < s.sys.deviceCount) (halive : s.coh.dead.contains src = false)
    (hnew : s.link.seen.contains (0xCA, src, d) = false) : ∃ u, Moves [.link, .out] s u ∧
      s.takeNotice port (deathMsg src d) bad = if d = s.sys.deviceId then u.selfDeath else u.applyDeath d := by
  have hn : Moves [.link, .out] s (s.bcastNoted 0xCA src d) := (s.bcastNoted_writes ..).mono (.mk rfl)
  have hbad : ¬ ((deathMsg src d).bcast = false ∨ (deathMsg src d).dest ≠ 0 ∨ (deathMsg src d).reserved ≠ 0 ∨
      (deathMsg src d).tenant ≠ 0 ∨ (deathMsg src d).route ≠ 0 ∨ s.sys.deviceCount ≤ (deathMsg src d).source ∨
      s.sys.deviceCount ≤ (deathMsg src d).arg) := by
    simp [deathMsg, hsrc, hd]
  have hop : ¬ (deathMsg src d).op ≠ 0xCA := not_not.mpr rfl
  have hlive : ¬ s.coh.dead.contains (deathMsg src d).source = true := Bool.eq_false_iff.mp halive
  have hnote : s.noteBcast 0xCA (deathMsg src d).source (deathMsg src d).arg = _ := s.noteBcast_new hnew
  unfold State.takeNotice
  rw [if_neg hop, if_neg hbad, if_neg hlive, hnote]
  cases port with
  | none => exact ⟨_, hn, rfl⟩
  | some p =>
    have hf := hn.trans (State.forwardBcast_writes _ p (.svc (deathMsg src d)))
    exact ⟨_, hf, by rw [← hf.sys_eq rfl]; rfl⟩

/-- Settles O33: beats, a peer's heartbeat, timeouts and notices one by one. -/
theorem heartbeatsAndDeaths : Obligations.HeartbeatsAndDeaths := by
  intro s
  refine ⟨fun hm => ?beat, fun p o src b ho hsrc hself halive hnew st hst => ?heartbeat,
    fun d hd hself halive hm => ⟨fun hb => ⟨?timeout, fun hw => ?snoop⟩, fun hb => ?due⟩,
    fun src d hsrc hd halive hpeer hnew => ⟨fun hself => ?peer, fun hself hs => ?own⟩⟩
  case beat =>
    obtain ⟨m, h⟩ := execHeartbeatSend_member s hm
    have hb := s.beatCounted.broadcast_writes m
    exact ⟨_, h, (hb.peers_eq rfl).2.2.2.2.1, ((s.beatCounted_writes.mono (.mk rfl)).trans (hb.mono (.mk rfl))).frame⟩
  case heartbeat => exact ⟨_, rfl, s.takeHeartbeat_peers ho hsrc hself halive hnew hst⟩
  case timeout =>
    exact ⟨_, rfl, s.declareDead_dead hd hself halive hm hb, (s.declareDead_writes d).pitch_eq rfl⟩
  case snoop =>
    exact ⟨_, congrArg Host.Outcome.next (if_pos hw), s.declareDead_dead hd hself halive hm hb⟩
  case due => exact congrArg Host.Outcome.next (s.declareDead_due d hb)
  case peer =>
    obtain ⟨u, hu, h⟩ := s.takeNotice_death (s.arrivalPort src) (fun s cause => s.violationFrom cause 0xCA src) hsrc hd halive hnew
    rw [if_neg hself] at h
    have hdead := (hu.peers_eq rfl).1
    refine ⟨_, congrArg Host.Outcome.next h, ?_⟩
    rw [u.applyDeath_dead (by rwa [hdead]) (by rwa [hu.sys_eq rfl]), hdead]
  case own =>
    obtain ⟨u, hu, h⟩ := s.takeNotice_death (s.arrivalPort src) (fun s cause => s.violationFrom cause 0xCA src) hsrc hd halive hnew
    rw [if_pos hself] at h
    exact ⟨_, congrArg Host.Outcome.next h, u.selfDeath_silent (by rwa [hu.sys_eq rfl])⟩

end Sys2Proof.Machine
end

section
/-! SUPPORT. What operations leave of each route: a route read by its key after updates, and the parts of a route that
tasks, sources, allocations and completions do not touch. -/
namespace Sys2Proof.Machine
open Sys2Proof

/-! ## Routes by key -/

theorem State.route?_congr {s t : State} (h : t.routes = s.routes) (k : RouteKey) : t.route? k = s.route? k := by
  simp only [State.route?, h]

theorem State.key_of_route? {s : State} {k : RouteKey} {r : Route} (h : s.route? k = some r) : r.key = k := by
  simpa using List.find?_some h

theorem State.route?_updRoute (s : State) (k j : RouteKey) (f : Route → Route) (hf : ∀ r, (f r).key = r.key) :
    (s.updRoute k f).route? j = (s.route? j).map (fun r => if r.key == k then f r else r) := by
  have hkey : ((fun r : Route => r.key == j) ∘ fun r => if r.key == k then f r else r) = fun r => r.key == j := by
    funext r
    simp only [Function.comp_apply]
    split
    · rw [hf]
    · rfl
  rw [State.route?, State.updRoute, List.find?_map, hkey]
  rfl

/-! ## Parts of routes that are kept -/

/-- A part of every route, read by its key, is kept. -/
structure RoutesKeep {α : Type} (f : Route → α) (s t : State) : Prop where
  at_ : ∀ k, (t.route? k).map f = (s.route? k).map f

namespace RoutesKeep
variable {α : Type} {f : Route → α} {s t u : State}

theorem refl (s : State) : RoutesKeep f s s := ⟨fun _ => rfl⟩

theorem trans (h : RoutesKeep f s t) (h' : RoutesKeep f t u) : RoutesKeep f s u :=
  ⟨fun k => (h'.at_ k).trans (h.at_ k)⟩

theorem of_routes (h : t.routes = s.routes) : RoutesKeep f s t := ⟨fun k => by rw [State.route?_congr h]⟩

theorem of_moves {l : List Field} (h : Moves l s t) (hl : l.contains .routes = false := by rfl) : RoutesKeep f s t :=
  of_routes (h.routes_eq hl)

theorem updRoute (s : State) (k : RouteKey) (g : Route → Route) (hk : ∀ r, (g r).key = r.key) (hg : ∀ r, f (g r) = f r) :
    RoutesKeep f s (s.updRoute k g) := by
  refine ⟨fun j => ?_⟩
  rw [s.route?_updRoute k j g hk, Option.map_map]
  congr 1
  funext r
  simp only [Function.comp_apply]
  split
  · exact hg r
  · rfl

theorem ite {p : Prop} [Decidable p] (h : RoutesKeep f s t) (h' : RoutesKeep f s u) : RoutesKeep f s (if p then t else u) := by
  split <;> assumption

theorem foldl {β : Type} {g : State → β → State} (l : List β) (hg : ∀ t b, RoutesKeep f t (g t b)) (h : RoutesKeep f s t) :
    RoutesKeep f s (l.foldl g t) := by
  induction l generalizing t with
  | nil => exact h
  | cons b l ih => exact ih (h.trans (hg t b))

/-- The kept part of a route that was there. -/
theorem get (h : RoutesKeep f s t) {k : RouteKey} {r : Route} (hr : s.route? k = some r) :
    ∃ r', t.route? k = some r' ∧ f r' = f r := by
  have hk := h.at_ k
  rw [hr] at hk
  exact Option.map_eq_some_iff.mp hk

end RoutesKeep

/-- A span without the notes that its tasks and allocations make. -/
def Span.bare (sp : Span) : Span := { sp with handedOut := [], allocated := [] }

/-- What tasks that become ready and objects that are made leave of a route: its span but for their notes, and its staging. -/
def Route.settled (r : Route) : Option Span × List RopeRef × Nat := (r.span.map Span.bare, r.work.staging, r.work.staged)

theorem State.pushTask_keeps (s : State) (t : Task) : RoutesKeep Route.settled s (s.pushTask t) := by
  have hslot : RoutesKeep Route.settled s (s.takeSlot t) := .of_moves (s.takeSlot_writes t)
  unfold State.pushTask
  split
  · exact .refl s
  · extract_lets st isSealed
    split
    · exact .ite (.updRoute s _ _ (fun _ => rfl) (fun _ => rfl)) hslot
    · exact hslot

theorem State.noteAllocated_keeps (s : State) (k : Option RouteKey) (o : Nat) :
    RoutesKeep Route.settled s (s.noteAllocated k o) := by
  cases k with
  | none => exact .refl s
  | some k =>
    refine .updRoute s k _ (fun _ => rfl) (fun r => ?_)
    simp only [Route.settled, Option.map_map]
    rfl

theorem State.fillRidge_keeps (s : State) (k : RouteKey) (stage ridge : Nat) (share : Nat × Nat) (n : Nat) :
    RoutesKeep Route.settled s (s.fillRidge k stage ridge share n) := by
  induction n generalizing s with
  | zero => exact .refl s
  | succ n ih =>
    unfold State.fillRidge
    split
    · exact .refl s
    · dsimp only
      refine .ite (.trans ?_ (ih _)) (.refl s)
      refine (s.pushTask_keeps _).trans (.updRoute _ k _ (fun _ => rfl) fun r => ?_)
      simp only [Route.settled, Option.map_map]
      rfl

theorem State.fillSources_keeps (s : State) : RoutesKeep Route.settled s s.fillSources := by
  unfold State.fillSources
  extract_lets u
  have hu : RoutesKeep Route.settled s u := .of_moves s.fillSlots_writes
  refine .ite hu (.foldl _ (fun t r => ?_) hu)
  split
  · exact .refl t
  · exact .ite (.refl t) (.foldl _ (fun v x => .foldl _ (fun w q => w.fillRidge_keeps ..) (.refl v)) (.refl t))

theorem State.readySeals_keeps (s : State) (k : RouteKey) : RoutesKeep Route.settled s (s.readySeals k) := by
  unfold State.readySeals
  split
  · exact .refl s
  · refine .foldl _ (fun t p => .ite (.foldl _ (fun u q => ?_) (.refl t)) (.refl t)) (.refl s)
    exact .ite (.refl u) (u.pushTask_keeps _)

theorem State.startTasks_keeps (s : State) (k : RouteKey) : RoutesKeep Route.settled s (s.startTasks k) := by
  unfold State.startTasks
  split
  · exact .refl s
  · extract_lets rel pushed
    have hp : RoutesKeep Route.settled s pushed :=
      .foldl _ (fun t i => .foldl _ (fun u q => .ite (.refl u) (u.pushTask_keeps _)) (.refl t)) (.refl s)
    exact (hp.trans (State.readySeals_keeps _ k)).trans (State.fillSources_keeps _)

end Sys2Proof.Machine
end

section
/-! SUPPORT. Fault replays: the marks of strands stay, and every open span waits for its restart (R19, R73, R74). -/
namespace Sys2Proof.Machine
open Sys2Proof

/-! ## Marks of strands -/

/-- The marks of failed strands are the same. -/
structure SameMarks (s t : State) : Prop where
  marks : t.flash.strandMarks = s.flash.strandMarks

namespace SameMarks
variable {s t u : State}

theorem refl (s : State) : SameMarks s s := ⟨rfl⟩
theorem trans (h : SameMarks s t) (h' : SameMarks t u) : SameMarks s u := ⟨h'.marks.trans h.marks⟩
theorem thenMoves {l : List Field} (h : SameMarks s t) (h' : Moves l t u) (hl : l.contains .flash = false := by rfl) :
    SameMarks s u := h.trans ⟨congrArg FlashSt.strandMarks (h'.flash_eq hl)⟩
theorem ite {p : Prop} [Decidable p] (h : SameMarks s t) (h' : SameMarks s u) : SameMarks s (if p then t else u) := by
  split <;> assumption
theorem foldl {β : Type} {g : State → β → State} (l : List β) (hg : ∀ t b, SameMarks t (g t b)) (h : SameMarks s t) :
    SameMarks s (l.foldl g t) := by
  induction l generalizing t with
  | nil => exact h
  | cons b l ih => exact ih (h.trans (hg t b))
end SameMarks

theorem State.lineRecord_marks (s : State) (l m severity cause dev syms flags : Nat) :
    SameMarks s (s.lineRecord l m severity cause dev syms flags) := (SameMarks.refl s).thenMoves (State.lineRecord_writes ..)

theorem State.remapLine_marks (s : State) (l m dev syms scrub : Nat) : SameMarks s (s.remapLine l m dev syms scrub) := by
  unfold State.remapLine
  split
  · exact s.lineRecord_marks ..
  · extract_lets r recorded
    exact ⟨(s.lineRecord_marks ..).marks⟩

theorem State.markRow_marks (s : State) (l m syms scrub : Nat) (e : Tracked) : SameMarks s (s.markRow l m syms scrub e) := by
  unfold State.markRow
  extract_lets ch rank sub held
  split
  · exact .ite (s.lineRecord_marks ..) ⟨(s.lineRecord_marks ..).marks⟩
  · exact s.lineRecord_marks ..

theorem State.retireRow_marks (s : State) (l syms scrub : Nat) : SameMarks s (s.retireRow l syms scrub) :=
  (SameMarks.refl s).thenMoves (State.retireRow_writes ..)

theorem State.countFault_marks (s : State) (l m dev syms scrub : Nat) : SameMarks s (s.countFault l m dev syms scrub) := by
  unfold State.countFault
  extract_lets ch _
  split
  split
  extract_lets v t
  have hv : SameMarks s v := ⟨rfl⟩
  have ht : SameMarks s t := .ite (hv.trans (.ite (v.markRow_marks ..) (v.retireRow_marks ..))) hv
  exact .ite (ht.trans (t.remapLine_marks ..)) ht

theorem State.copyFresh_marks (s : State) (l m : Nat) : SameMarks s (s.copyFresh l m) :=
  (SameMarks.refl s).thenMoves (State.copyFresh_writes ..)

theorem State.lineCorrected_marks (s : State) (l m : Nat) (fixed : List Nat) (scrub : Bool) :
    SameMarks s (s.lineCorrected l m fixed scrub) := by
  unfold State.lineCorrected
  extract_lets ch sf t marked dev recorded _ noted v
  have ht : SameMarks s t := (SameMarks.refl s).thenMoves (State.oinc_writes ..)
  have hn : SameMarks s noted := (ht.trans (t.lineRecord_marks ..)).trans ⟨rfl⟩
  have hv : SameMarks s v := .ite ht (hn.trans (State.countFault_marks ..))
  exact .ite (hv.trans (v.copyFresh_marks ..)) hv

theorem State.copyServed_marks (s : State) (l m : Nat) (scrub : Bool) : SameMarks s (s.copyServed l m scrub) := by
  unfold State.copyServed
  split
  · exact .ite (.refl s) (s.lineCorrected_marks ..)
  · exact .refl s

theorem State.mirrorRepair_marks (s : State) (l m scrub : Nat) : SameMarks s (s.mirrorRepair l m scrub) :=
  ((s.lineRecord_marks ..).trans (State.copyFresh_marks ..)).trans (State.copyServed_marks ..)

theorem State.copyRead_marks (s : State) (l m : Nat) (scrub : Bool) : SameMarks s (s.copyRead l m scrub) := by
  unfold State.copyRead
  split
  · exact .refl s
  · split
    · exact (SameMarks.refl s).thenMoves (State.poison_writes ..)
    · extract_lets sf good t
      have ht : SameMarks s t := (SameMarks.refl s).thenMoves (State.noteLost_writes ..)
      exact .ite (ht.trans (t.mirrorRepair_marks ..)) (ht.thenMoves (State.lineLost_writes ..))
    · exact s.copyServed_marks ..

theorem State.memRead_marks (s : State) (l : Nat) (scrub : Bool) : SameMarks s (s.memRead l scrub) := s.copyRead_marks ..

/-! ## Spans that wait for their restart -/

/-- Whether a route's span, where it has one, waits for its restart. -/
def Route.awaiting (r : Route) : Option Bool := r.span.map Span.replaying

/-- What the undoing of a span leaves: the marks of strands, and which spans wait for their restart. -/
structure ReplayFrame (s t : State) : Prop where
  marks : SameMarks s t
  spans : RoutesKeep Route.awaiting s t

namespace ReplayFrame
variable {s t u : State}

theorem refl (s : State) : ReplayFrame s s := ⟨.refl s, .refl s⟩
theorem trans (h : ReplayFrame s t) (h' : ReplayFrame t u) : ReplayFrame s u :=
  ⟨h.marks.trans h'.marks, h.spans.trans h'.spans⟩
theorem of_moves {l : List Field} (h : Moves l s t) (hf : l.contains .flash = false := by rfl)
    (hr : l.contains .routes = false := by rfl) : ReplayFrame s t := ⟨(SameMarks.refl s).thenMoves h hf, .of_moves h hr⟩
theorem ite {p : Prop} [Decidable p] (h : ReplayFrame s t) (h' : ReplayFrame s u) : ReplayFrame s (if p then t else u) := by
  split <;> assumption
theorem foldl {β : Type} {g : State → β → State} (l : List β) (hg : ∀ t b, ReplayFrame t (g t b)) (h : ReplayFrame s t) :
    ReplayFrame s (l.foldl g t) := by
  induction l generalizing t with
  | nil => exact h
  | cons b l ih => exact ih (h.trans (hg t b))
theorem updRoute (s : State) (k : RouteKey) (g : Route → Route) (hk : ∀ r, (g r).key = r.key)
    (hg : ∀ r, (g r).awaiting = r.awaiting) : ReplayFrame s (s.updRoute k g) := ⟨⟨rfl⟩, .updRoute s k g hk hg⟩
end ReplayFrame

theorem State.memRead_frame (s : State) (l : Nat) (scrub : Bool) : ReplayFrame s (s.memRead l scrub) :=
  ⟨s.memRead_marks l scrub, .of_moves (s.memRead_writes l scrub)⟩

theorem State.endAt_frame (s : State) (k : RouteKey) (status : Nat) : ReplayFrame s (s.endAt k status) :=
  .updRoute s k _ (fun _ => rfl) (fun _ => rfl)

theorem State.restoreRecord_frame (s : State) (j : JRec) : ReplayFrame s (s.restoreRecord j) := by
  unfold State.restoreRecord
  extract_lets jl t bad
  have ht : ReplayFrame s t := (s.memRead_frame _ _).trans (State.memRead_frame _ _ _)
  split
  · exact ht
  · extract_lets u base line v _ _ w
    have hu : ReplayFrame t u := by
      refine .of_moves (l := [.content]) ?_
      dsimp only [u]
      split
      · exact .ite (.refl _ t) (State.putObj_writes ..)
      · exact .refl _ t
    have hv : ReplayFrame u v := .ite (.ite (.refl u) (.of_moves (State.restoreFar_writes ..))) (.of_moves (State.replayInval_writes ..))
    have hw : ReplayFrame v w := ⟨⟨rfl⟩, .of_routes rfl⟩
    have hvw := ((ht.trans hu).trans hv).trans hw
    exact .ite ((hvw.trans (.of_moves (State.spoilRecord_writes ..))).trans (State.endAt_frame _ _ _)) hvw

/-- The journal without the records of one span of a route. -/
def State.dropRecords (s : State) (k : RouteKey) (n : Nat) : State :=
  { s with depot := { s.depot with journal := s.depot.journal.filter (fun j => !(j.key == k && j.spanPitch == n)) } }

theorem State.dropRecords_frame (s : State) (k : RouteKey) (n : Nat) : ReplayFrame s (s.dropRecords k n) :=
  ⟨⟨rfl⟩, .of_routes rfl⟩

theorem State.applyJournal_frame (s : State) (k : RouteKey) (n : Nat) : ReplayFrame s (s.applyJournal k n) := by
  unfold State.applyJournal
  extract_lets mine t
  have ht : ReplayFrame s t := .foldl _ State.restoreRecord_frame (.refl s)
  exact (ht.trans (t.dropRecords_frame k n)).trans (.of_moves (t.dropRecords k n).refreshDir_writes)

theorem State.undoSpan_frame (s : State) (k : RouteKey) (r : Route) : ReplayFrame s (s.undoSpan k r) := by
  have h1 : ReplayFrame s (s.camReplay k (fun stage ridge =>
      ((r.base.builds.find (srKey stage ridge)).bind (fun b => b.cam)).isSome)) := .of_moves (State.camReplay_writes ..)
  have h2 := h1.trans (.of_moves (State.dropTasks_writes _ k))
  have h3 := h2.trans (.of_moves (State.dropStrands_writes _ k))
  have h4 := h3.trans (.of_moves (State.dropWrites_writes _ k))
  have h5 := h4.trans (.of_moves (State.forgetReads_writes _ k))
  exact (h5.trans (State.applyJournal_frame _ k _)).trans (.of_moves (State.depotReplay_writes _ k))

/-- The link without the outbound ropes of a route. -/
def State.forgetOutbound (s : State) (k : RouteKey) : State :=
  { s with link := { s.link with outbound := s.link.outbound.filter (fun o => o.key != k) } }

theorem State.forgetOutbound_frame (s : State) (k : RouteKey) : ReplayFrame s (s.forgetOutbound k) := ⟨⟨rfl⟩, .of_routes rfl⟩

/-- The state of an undone span before its route goes back to its base. -/
def State.forgetSpan (s : State) (k : RouteKey) (r : Route) : State :=
  ((s.undoSpan k r).dropEntries k (s.spanPitch k)).forgetOutbound k

theorem State.discardSpan_forget (s : State) {k : RouteKey} {r : Route} (h : s.route? k = some r) :
    s.discardSpan k = (s.forgetSpan k r).updRoute k (fun r => { r with work := r.base }) := s.discardSpan_eq h

theorem State.forgetSpan_frame (s : State) (k : RouteKey) (r : Route) : ReplayFrame s (s.forgetSpan k r) :=
  ((s.undoSpan_frame k r).trans (.of_moves (State.dropEntries_writes ..))).trans (State.forgetOutbound_frame _ k)

theorem State.discardSpan_frame (s : State) (k : RouteKey) : ReplayFrame s (s.discardSpan k) := by
  cases hr : s.route? k with
  | none =>
    rw [s.discardSpan_of_none hr]
    exact .refl s
  | some r =>
    rw [s.discardSpan_forget hr]
    exact (s.forgetSpan_frame k r).trans (.updRoute _ k _ (fun _ => rfl) (fun _ => rfl))

end Sys2Proof.Machine
end

section
/-! SUPPORT. A fault replays every open span, and the losses of ridges and strands (R19, R73, R74, R482). -/
namespace Sys2Proof.Machine
open Sys2Proof

theorem State.route?_mapSpan (s : State) (k j : RouteKey) (f : Span → Span) :
    (s.mapSpan k f).route? j = (s.route? j).map (fun r => if r.key == k then { r with span := r.span.map f } else r) :=
  s.route?_updRoute k j _ (by exact fun _ => rfl)

/-- The span of a route, where it has one, waits for its restart. -/
structure State.Waits (s : State) (k : RouteKey) : Prop where
  at_ : ∀ r, s.route? k = some r → r.awaiting ≠ some false

theorem State.Waits.replaying {s : State} {k : RouteKey} (h : s.Waits k) {r : Route} {sp : Span} (hr : s.route? k = some r)
    (hsp : r.span = some sp) : sp.replaying = true := by
  simpa [Route.awaiting, hsp] using h.at_ r hr

theorem State.Waits.of_frame {s t : State} {k : RouteKey} (h : s.Waits k) (hf : ReplayFrame s t) : t.Waits k := by
  refine ⟨fun r hr => ?_⟩
  have hk := hf.spans.at_ k
  rw [hr] at hk
  obtain ⟨r', hr', ha⟩ := Option.map_eq_some_iff.mp hk.symm
  exact ha ▸ h.at_ r' hr'

/-- What the replay of a route's span leaves: the marks of strands, and what waited; the route's own span waits as well. -/
structure ReplaysSpan (k : RouteKey) (s t : State) : Prop where
  marks : SameMarks s t
  waits : ∀ j, j = k ∨ s.Waits j → t.Waits j

theorem ReplaysSpan.then {k : RouteKey} {s t u : State} (h : ReplaysSpan k s t) (hf : ReplayFrame t u) : ReplaysSpan k s u :=
  ⟨h.marks.trans hf.marks, fun j hj => (h.waits j hj).of_frame hf⟩

/-- Where the span waits already, or there is none, nothing is to do. -/
theorem ReplaysSpan.refl {k : RouteKey} {s : State} (h : s.Waits k) : ReplaysSpan k s s :=
  ⟨.refl s, fun _ hj => hj.elim (fun e => e ▸ h) id⟩

theorem State.abandonSpan_replays (s : State) (k : RouteKey) : ReplaysSpan k s (s.abandonSpan k) := by
  have hd := s.discardSpan_frame k
  unfold State.abandonSpan
  extract_lets t
  change ReplayFrame s t at hd
  refine ⟨hd.marks.trans ⟨rfl⟩, fun j hj => ⟨fun r' hr' => ?_⟩⟩
  rw [t.route?_mapSpan] at hr'
  obtain ⟨r, hr, rfl⟩ := Option.map_eq_some_iff.mp hr'
  have hkey := State.key_of_route? hr
  by_cases hk : r.key = k
  · cases r.span <;> simp [Route.awaiting, hk]
  · have hw := ((hj.resolve_left (hkey ▸ hk)).of_frame hd).at_ r hr
    simpa [hk] using hw

theorem State.faultReplay_replays (s : State) (k : RouteKey) : ReplaysSpan k s (s.faultReplay k) := by
  unfold State.faultReplay
  split
  next hr => exact .refl ⟨fun r h => by simp [hr] at h⟩
  next r hr =>
  split
  next hsp => exact .refl ⟨fun r' h => by simp_all [Route.awaiting]⟩
  next sp hsp =>
  split
  next hrep => exact .refl ⟨fun r' h => by simp_all [Route.awaiting]⟩
  · extract_lets a b c d e
    have hb : ReplaysSpan k s b := by
      have ha : ReplayFrame s a := .of_moves (s.logRoute_writes k 0x7)
      have hab := a.abandonSpan_replays k
      exact ⟨ha.marks.trans hab.marks, fun j hj => hab.waits j (hj.imp_right fun h => h.of_frame ha)⟩
    have hc : ReplaysSpan k s c := hb.then (.of_moves (State.oinc_writes ..))
    have hd : ReplaysSpan k s d := hc.then
      (.updRoute c k _ (by exact fun _ => rfl) (fun r => by cases hs : r.span <;> simp [Route.awaiting, hs]))
    have he : ReplaysSpan k s e := by
      refine hd.then (.ite (.of_moves (State.sendVerdict_writes ..)) ?_)
      split
      · exact .of_moves (State.sendBelay_writes ..)
      · exact .refl d
    split
    · exact he.then (e.endAt_frame ..)
    · exact he

theorem State.foldl_faultReplay (l : List Route) (s : State) :
    SameMarks s (l.foldl (fun t r => t.faultReplay r.key) s) ∧
      ∀ j, s.Waits j ∨ j ∈ l.map Route.key → (l.foldl (fun t r => t.faultReplay r.key) s).Waits j := by
  induction l generalizing s with
  | nil => exact ⟨.refl s, fun j h => h.elim id (fun h => absurd h (List.not_mem_nil))⟩
  | cons r l ih =>
    obtain ⟨hm, hw⟩ := ih (s.faultReplay r.key)
    have hr := s.faultReplay_replays r.key
    refine ⟨hr.marks.trans hm, fun j hj => hw j ?_⟩
    rcases hj with hj | hj
    · exact .inl (hr.waits j (.inr hj))
    · rcases List.mem_cons.mp hj with rfl | hj
      · exact .inl (hr.waits _ (.inl rfl))
      · exact .inr hj

/-- Every open span waits for its restart once a fault has replayed all. -/
theorem State.replayAll_waits (s : State) (k : RouteKey) : s.replayAll.Waits k := by
  refine (s.foldl_faultReplay _).2 k ?_
  cases hr : s.route? k with
  | none => exact .inl ⟨fun r h => by simp [hr] at h⟩
  | some r =>
    cases hsp : r.span with
    | none => exact .inl ⟨fun r' h => by simp_all [Route.awaiting]⟩
    | some sp =>
      refine .inr (List.mem_map.mpr ⟨r, ?_, State.key_of_route? hr⟩)
      exact List.mem_filter.mpr ⟨List.mem_of_find?_eq_some hr, by simp [hsp]⟩

theorem State.replayAll_marks (s : State) : SameMarks s s.replayAll := (s.foldl_faultReplay _).1

/-! ## The loss of a ridge or a strand whose spare stands by -/

/-- A ridge marked as failed and retired. -/
def State.markRidge (s : State) (p : Nat) : State :=
  { s with
    flash := { s.flash with ridgeMarks := if s.flash.ridgeMarks.contains p then s.flash.ridgeMarks else s.flash.ridgeMarks ++ [p] }
    sys := { s.sys with retired := if s.sys.retired.contains p then s.sys.retired else s.sys.retired ++ [p] } }

/-- The standing spare `x` in the place of logical ridge `q`. -/
def State.giveSpare (s : State) (q x : Nat) : State :=
  { s with sys := { s.sys with
    ridgeMap := s.sys.ridgeMap.set q x, spareRidge := none, spareGiven := some (q, s.pitch.number) } }

theorem State.giveSpare_sys (s : State) (q x : Nat) : (s.giveSpare q x).sys = { s.sys with
    ridgeMap := s.sys.ridgeMap.set q x, spareRidge := none, spareGiven := some (q, s.pitch.number) } := rfl

theorem State.loseRidge_spare (s : State) {p q x : Nat} (hq : s.logicalRidge p = some q) (hx : s.sys.spareRidge = some x)
    (hne : x ≠ p) : s.loseRidge p true = ((((s.markRidge p).settleWrong q).fenceL2 p).giveSpare q x).reloadRidge q := by
  unfold State.loseRidge
  extract_lets leave _ _ t u
  rw [if_neg (show ¬ t.sys.spareRidge = some p from fun h => hne (Option.some.inj (hx.symm.trans h)))]
  rw [show t.logicalRidge p = some q from hq]
  dsimp only
  have hleave : ∀ v : State, leave v = v.fenceL2 p := fun _ => if_pos rfl
  have hsys : ((t.settleWrong q).fenceL2 p).sys = t.sys :=
    ((State.fenceL2_writes _ p).sys_eq rfl).trans ((t.settleWrong_writes q).sys_eq rfl)
  rw [hleave]
  change _ = (((t.settleWrong q).fenceL2 p).giveSpare q x).reloadRidge q
  generalize (t.settleWrong q).fenceL2 p = v at hsys
  rw [show v.sys.spareRidge = some x by rw [hsys]; exact hx]
  rfl

theorem State.loseRidge_spare_sys (s : State) {p q x : Nat} (hq : s.logicalRidge p = some q)
    (hx : s.sys.spareRidge = some x) (hne : x ≠ p) : (s.loseRidge p true).sys.ridgeMap = s.sys.ridgeMap.set q x ∧
      (s.loseRidge p true).sys.spareRidge = none ∧ (s.loseRidge p true).sys.retired.contains p = true := by
  have hsys : (((s.markRidge p).settleWrong q).fenceL2 p).sys = (s.markRidge p).sys :=
    ((State.fenceL2_writes _ p).sys_eq rfl).trans ((State.settleWrong_writes _ q).sys_eq rfl)
  have hr : (s.markRidge p).sys.retired.contains p = true := by
    dsimp only [State.markRidge]
    split
    · assumption
    · simp
  rw [s.loseRidge_spare hq hx hne, (State.reloadRidge_writes _ q).sys_eq rfl, State.giveSpare_sys, hsys]
  exact ⟨rfl, rfl, hr⟩

theorem State.loseStrand_spare (s : State) {p k j x : Nat} (hm : s.flash.strandMarks.contains (p, k) = false)
    (hj : (s.sys.strandMap.getD p []).findIdx? (fun y => y == k) = some j)
    (hx : (s.flash.healthyStrands p).find? (fun y => !(s.sys.strandMap.getD p []).contains y) = some x) :
    (s.loseStrand p k).flash.strandMarks = s.flash.strandMarks ++ [(p, k)] ∧
      (s.loseStrand p k).sys.strandMap = s.sys.strandMap.set p ((s.sys.strandMap.getD p []).set j x) := by
  unfold State.loseStrand
  simp only [hj, hx, hm, Bool.false_eq_true, if_false]
  exact ⟨trivial, trivial⟩

/-! ## The rows -/

/-- What the failure of a ridge at work does while the spare stands by, its error record made. -/
theorem resourceFailure_ridge (s : State) {p q x : Nat} (hret : s.sys.retired.contains p = false)
    (hq : s.logicalRidge p = some q) (hx : s.sys.spareRidge = some x) (hne : x ≠ p) :
    ∃ t, exec (.resourceFailure (.ridge p)) s = .next t ∧ t.sys.ridgeMap = s.sys.ridgeMap.set q x ∧
      t.sys.spareRidge = none ∧ t.sys.retired.contains p = true ∧ ∀ k, t.Waits k := by
  have hserv : s.inService p = true := by rw [State.inService, hret, hq]; rfl
  have hfail : ∃ a, s.resourceFails (.ridge p) = ((s.raise a).loseRidge p true).replayAll := by
    unfold State.resourceFails
    dsimp only
    rw [if_neg (by simp [hserv]), if_pos (by rw [hq]; rfl)]
    exact ⟨_, rfl⟩
  obtain ⟨a, ha⟩ := hfail
  have hsys := (s.raise_writes a).sys_eq rfl
  have hq' : (s.raise a).logicalRidge p = some q := (congrArg (fun y : SysSt => y.ridgeMap.findIdx? (· == p)) hsys).trans hq
  obtain ⟨hmap, hsp, hretd⟩ := State.loseRidge_spare_sys _ hq' ((congrArg SysSt.spareRidge hsys).trans hx) hne
  have hrep := (((s.raise a).loseRidge p true).replayAll_writes).sys_eq rfl
  refine ⟨_, congrArg Host.Outcome.next ha, ?_⟩
  refine ⟨?_, ?_, ?_, fun k => State.replayAll_waits _ k⟩
  · rw [hrep, hmap, hsys]
  · rw [hrep, hsp]
  · rw [hrep, hretd]

/-- What the failure of a strand at work does while its ridge holds a spare strand. -/
theorem resourceFailure_strand (s : State) {p k x j : Nat} (hp : p ≤ 16) (hk : k ≤ 8)
    (hret : s.sys.retired.contains p = false) (hq : (s.logicalRidge p).isSome = true)
    (hm : s.flash.strandMarks.contains (p, k) = false)
    (hj : (s.sys.strandMap.getD p []).findIdx? (fun y => y == k) = some j)
    (hx : (s.flash.healthyStrands p).find? (fun y => !(s.sys.strandMap.getD p []).contains y) = some x) :
    ∃ t, exec (.resourceFailure (.strand p k)) s = .next t ∧ t.flash.strandMarks = s.flash.strandMarks ++ [(p, k)] ∧
      t.sys.strandMap = s.sys.strandMap.set p ((s.sys.strandMap.getD p []).set j x) ∧ ∀ r, t.Waits r := by
  have hserv : s.inService p = true := by rw [State.inService, hret, hq]; rfl
  have hin : k ∈ s.sys.strandMap.getD p [] := by
    obtain ⟨hi, hik, -⟩ := List.findIdx?_eq_some_iff_getElem.mp hj
    exact (beq_iff_eq.mp hik) ▸ List.getElem_mem _
  have hfail : ∃ a, s.resourceFails (.strand p k) = ((s.raise a).loseStrand p k).replayAll := by
    have hact : s.strandActive p k = true := by simp only [State.strandActive, hq, Bool.true_and]; exact List.contains_iff_mem.mpr hin
    have hguard : ¬ (16 < p ∨ 8 < k ∨ s.flash.strandMarks.contains (p, k) = true ∨ s.inService p = false) := by
      simp only [hm, hserv, Bool.false_eq_true, Bool.true_eq_false, or_false]
      omega
    unfold State.resourceFails
    dsimp only
    rw [if_neg hguard, if_pos hact]
    exact ⟨_, rfl⟩
  obtain ⟨a, ha⟩ := hfail
  have hraise := s.raise_writes a
  have hsys : (s.raise a).sys = s.sys := hraise.sys_eq rfl
  have hflash : (s.raise a).flash = s.flash := hraise.flash_eq rfl
  obtain ⟨hmarks, hmap⟩ := State.loseStrand_spare (s.raise a) (p := p) (k := k) (j := j) (x := x)
    (by rw [hflash, hm]) (by rw [hsys, hj]) (by rw [hflash, hsys, hx])
  refine ⟨_, congrArg Host.Outcome.next ha, ?_, ?_, fun r => State.replayAll_waits _ r⟩
  · exact (State.replayAll_marks _).marks.trans (hmarks.trans (by rw [hflash]))
  · rw [(State.replayAll_writes _).sys_eq rfl, hmap, hsys]

end Sys2Proof.Machine
end

section
/-! SUPPORT. The restart of a replayed span and the merge of a pitch (R65, R66, R206, R209). -/
namespace Sys2Proof.Machine
open Sys2Proof

/-! ## Restart -/

/-- A replayed span at its start again. -/
def Span.again (sp : Span) (sources : List (Nat × Nat × Nat)) (merged : List Nat) : Span :=
  { sp with
    replaying := false, sources := sources, handedOut := [], releasedRopes := [], verdict := none
    allocated := [], freed := [], searched := [], merged := merged, doneByC := false, held := false }

theorem State.restartSpan_again (s : State) {k : RouteKey} {r : Route} {sp : Span} (hr : s.route? k = some r)
    (hsp : r.span = some sp) (hrep : sp.replaying = true) (hc : r.conditions = []) : ∃ m,
    s.restartSpan k = (s.updRoute k (fun r' => { r' with span := some (sp.again (s.spanSources r sp.q) m) })).startTasks k := by
  simp only [State.restartSpan, hr, hsp, hrep, hc]
  exact ⟨_, rfl⟩

theorem execSpanRestart_restarts (s : State) (k : RouteKey) : ∃ t, execSpanRestart k s = .next t ∧
    t.routes = (s.restartSpan k).routes := by
  refine ⟨_, rfl, ?_⟩
  split <;> rfl

/-- A span waiting for its restart starts again at its first source rope. -/
theorem spanRestart_again (s : State) {k : RouteKey} {r : Route} {sp : Span} (hr : s.route? k = some r)
    (hsp : r.span = some sp) (hrep : sp.replaying = true) (hc : r.conditions = []) :
    ∃ t r' sp', exec (.spanRestart k) s = .next t ∧ t.route? k = some r' ∧ r'.span = some sp' ∧ sp'.replaying = false ∧
      sp'.openPitch = sp.openPitch ∧ sp'.q = sp.q ∧ sp'.sources = s.spanSources r sp.q ∧ sp'.verdict = none ∧
      sp'.ext = sp.ext := by
  obtain ⟨t, ht, hroutes⟩ := execSpanRestart_restarts s k
  obtain ⟨m, hm⟩ := s.restartSpan_again hr hsp hrep hc
  have hu := s.route?_updRoute_same k (fun r' => { r' with span := some (sp.again (s.spanSources r sp.q) m) })
    (fun _ => rfl) hr
  obtain ⟨r', hr', hset⟩ := (State.startTasks_keeps _ k).get hu
  obtain ⟨sp', hsp', hbare⟩ := Option.map_eq_some_iff.mp (congrArg Prod.fst hset)
  refine ⟨t, r', sp', ht, ?_, hsp', ?_⟩
  · rw [State.route?_congr hroutes, hm, hr']
  · exact ⟨(congrArg Span.replaying hbare :), (congrArg Span.openPitch hbare :), (congrArg Span.q hbare :),
      (congrArg Span.sources hbare :), (congrArg Span.verdict hbare :), (congrArg Span.ext hbare :)⟩

/-! ## Merge -/

theorem SlotBuf.cut_done (b : SlotBuf) (n : Nat) (p : SlotEntry → Bool) :
    (if (b.cut n p).shut && (b.cut n p).tag == n then (b.cut n p).entries.filter p else []) = [] := by
  rcases hb : b.shut && b.tag == n with _ | _
  · simp [SlotBuf.cut, hb]
  · rcases ha : b.entries.any p with _ | _
    · have hf : b.entries.filter p = [] := by simpa using ha
      simp [SlotBuf.cut, hb, ha, hf]
    · simp only [SlotBuf.cut, hb, ha, Bool.and_true, if_true]
      split
      · simp
      · simp [List.filter_filter]

theorem State.closedEntries_takeEntries (s : State) (n : Nat) (p : SlotEntry → Bool) :
    (s.takeEntries n p).closedEntries n p = [] := by
  have hslots : ∀ q ∈ (s.takeEntries n p).summit.slots, ((if q.2.1.shut && q.2.1.tag == n then q.2.1.entries.filter p else []) ++
      if q.2.2.shut && q.2.2.tag == n then q.2.2.entries.filter p else []) = [] := by
    intro q hq
    obtain ⟨y, -, rfl⟩ := List.mem_map.mp hq
    simp only [SlotBuf.cut_done, List.append_nil]
  have hheld : (s.takeEntries n p).summit.holding.filter (fun h => h.1 == n && p h.2) = [] := by
    simp [State.takeEntries, List.filter_filter]
  simp only [State.closedEntries, List.flatMap_eq_nil_iff.mpr hslots, hheld, List.map_nil, List.append_nil]

theorem State.appendEntries_merges (s : State) {k : RouteKey} {r : Route} {sp : Span} (hr : s.route? k = some r)
    (hsp : r.span = some sp) (n : Nat) (es : List SlotEntry) : ∃ r' sp', (s.appendEntries k n es).route? k = some r' ∧
      r'.span = some sp' ∧ sp'.merged = sp.merged ++ [n] ∧ (s.appendEntries k n es).closedEntries n (fun e => e.key == k) = [] ∧
      r'.work.staging.map (fun x => (x.seq, x.obj)) = r.work.staging.map (fun x => (x.seq, x.obj)) ++
        es.flatMap (fun e => e.chain) ∧ r'.work.staged = r.work.staged + es.length := by
  unfold State.appendEntries
  extract_lets refs t u v
  have ht : t.route? k = some r := hr
  have hu := t.route?_updRoute_same k (fun r => { r with work := { r.work with
    staging := r.work.staging ++ refs, staged := r.work.staged + es.length } }) (fun _ => rfl) ht
  have hv := u.route?_updRoute_same k (fun r => { r with span := r.span.map fun sp => { sp with merged := sp.merged ++ [n] } })
    (fun _ => rfl) hu
  refine ⟨_, _, (State.route?_congr ((State.oinc_writes ..).routes_eq rfl) k).trans hv, by rw [hsp]; rfl, rfl, ?_, ?_, rfl⟩
  · have hsum : (v.oinc 0x3060 2 1).summit = t.summit := (State.oinc_writes ..).summit_eq rfl
    have hce := s.closedEntries_takeEntries n (fun e => e.key == k)
    unfold State.closedEntries at hce ⊢
    rwa [hsum]
  · have hrefs : refs.map (fun x => (x.seq, x.obj)) = es.flatMap (fun e => e.chain) := by
      simp [refs, List.map_flatMap, Function.comp_def]
    exact List.map_append.trans (congrArg _ hrefs)

theorem State.newObj_keeps {s t : State} {tn cls ridge o : Nat} {k : Option RouteKey} {c : Content} {forms : List ColForm}
    (h : s.newObj tn cls ridge k c forms = some (o, t)) : RoutesKeep Route.settled s t := by
  unfold State.newObj at h
  split at h
  · obtain ⟨rfl, rfl⟩ := Prod.ext_iff.mp (Option.some.inj h)
    exact .trans (.of_moves (s.putObj_writes ..)) (State.noteAllocated_keeps _ k _)
  · cases h

/-- Making room in the staging leaves what is staged. -/
theorem State.stagingRoom_keeps {s t : State} {k : RouteKey} {more o : Nat} (h : s.stagingRoom k more = .ok o t) :
    RoutesKeep Route.settled s t := by
  unfold State.stagingRoom at h
  split at h
  · cases h
    exact .refl s
  next r hr =>
    extract_lets made at h
    have hmade : ∀ p, made = some p → RoutesKeep Route.settled s p.2 := by
      intro p hp
      dsimp only [made] at hp
      split at hp
      · cases hp
        exact .refl s
      · obtain ⟨q, hq, rfl⟩ := Option.map_eq_some_iff.mp hp
        exact (State.newObj_keeps hq).trans (.updRoute _ k _ (by exact fun _ => rfl) (by exact fun _ => rfl))
    clear_value made
    rcases made with _ | ⟨p, u⟩
    · cases h
    · dsimp only at h
      have hu : RoutesKeep Route.settled s u := hmade _ rfl
      have he := u.ensureBytes_writes p (32 * (r.work.staged + more))
      cases hb : u.ensureBytes p (32 * (r.work.staged + more)) with
      | ok v =>
        rw [hb] at h
        cases h
        exact hu.trans (.of_moves (he.okGet hb))
      | wait m => rw [hb] at h; cases h
      | fail c m v => rw [hb] at h; cases h

theorem RoutesKeep.settled_get {s t : State} (h : RoutesKeep Route.settled s t) {k : RouteKey} {r : Route} {sp : Span}
    (hr : s.route? k = some r) (hsp : r.span = some sp) : ∃ r' sp', t.route? k = some r' ∧ r'.span = some sp' ∧
      sp'.bare = sp.bare ∧ r'.work.staging = r.work.staging ∧ r'.work.staged = r.work.staged := by
  obtain ⟨r', hr', hset⟩ := h.get hr
  obtain ⟨hspan, hstaging, hstaged⟩ := Prod.ext_iff.mp hset |>.imp id Prod.ext_iff.mp
  obtain ⟨sp', hsp', hbare⟩ := Option.map_eq_some_iff.mp (hspan.trans (congrArg (Option.map Span.bare) hsp))
  exact ⟨r', sp', hr', hsp', hbare, hstaging, hstaged⟩

/-- The merge of a pitch whose entries have their room is their append in the state that made the room. -/
theorem State.mergePitch_room (s : State) {k : RouteKey} {n : Nat} {es : List SlotEntry} {r : Route}
    (hes : sortBy entryLt (s.closedEntries n (fun e => e.key == k)) = es) (hr : s.route? k = some r)
    (hroom : es = [] ∨ ∃ o s1 s2, s.stagingRoom k es.length = .ok o s1 ∧ s1.storeChains o r.work.staged es = some s2) :
    ∃ u, s.mergePitch k n = u.appendEntries k n es ∧ RoutesKeep Route.settled s u := by
  unfold State.mergePitch
  rw [hes]
  cases es with
  | nil => exact ⟨s, rfl, .refl s⟩
  | cons e es =>
    obtain ⟨o, s1, s2, h1, h2⟩ := hroom.resolve_left (List.cons_ne_nil e es)
    have hb : ((s.route? k).map (fun r => r.work.staged)).getD 0 = r.work.staged := by simp [hr]
    simp only [List.isEmpty_cons, Bool.false_eq_true, if_false, h1, hb, h2]
    exact ⟨_, rfl, ((State.stagingRoom_keeps h1).trans (.of_moves ((State.storeChains_writes ..).get h2))).trans
      (.of_moves (State.settleAsk_writes ..))⟩

theorem summitMerge_merges (s : State) {k : RouteKey} {r : Route} {sp : Span} {n : Nat} (hr : s.route? k = some r)
    (hsp : r.span = some sp) (hhome : s.isHome k = true) (hrep : sp.replaying = false) (hn : sp.openPitch ≤ n)
    (hnew : sp.merged.contains n = false) (hbefore : sp.mergedBefore n = true) (hready : s.mergeReady r n = true) :
    let es := sortBy entryLt (s.closedEntries n (fun e => e.key == k))
    es = [] ∨ (∃ o s1 s2, s.stagingRoom k es.length = .ok o s1 ∧ s1.storeChains o r.work.staged es = some s2) →
    ∃ t r' sp', exec (.summitMerge k n) s = .next t ∧ t.route? k = some r' ∧ r'.span = some sp' ∧
      sp'.merged = sp.merged ++ [n] ∧ t.closedEntries n (fun e => e.key == k) = [] ∧
      r'.work.staging.map (fun x => (x.seq, x.obj)) = r.work.staging.map (fun x => (x.seq, x.obj)) ++
        es.flatMap (fun e => e.chain) ∧ r'.work.staged = r.work.staged + es.length := by
  intro es hes
  have hexec : exec (.summitMerge k n) s = .next (s.mergePitch k n) := by
    simp only [exec_summitMerge, execSummitMerge, hr, hsp, hhome, hrep, hn, hnew, hbefore, hready]
    rfl
  obtain ⟨u, hu, hkeep⟩ := s.mergePitch_room (es := es) rfl hr hes
  obtain ⟨ru, spu, hru, hspu, hbare, hstaging, hstaged⟩ := hkeep.settled_get hr hsp
  obtain ⟨r', sp', hr', hsp', hmerged, hclosed, hst, hcount⟩ := u.appendEntries_merges hru hspu n es
  refine ⟨u.appendEntries k n es, r', sp', hexec.trans (congrArg Host.Outcome.next hu), hr', hsp', ?_, hclosed, ?_, ?_⟩
  · exact hmerged.trans (congrArg (· ++ [n]) (congrArg Span.merged hbare :))
  · rw [hst, hstaging]
  · rw [hcount, hstaged]

end Sys2Proof.Machine
end

section
/-! SUPPORT. Completions close only routes whose final record is due; publications and suspension limits (R231, R232, R378). -/
namespace Sys2Proof.Machine
open Sys2Proof

theorem find?_filter_of_find? {α : Type} {l : List α} {p q : α → Bool} {x : α} (h : l.find? q = some x) (hp : p x = true) :
    (l.filter p).find? q = some x := by
  induction l with
  | nil => cases h
  | cons y l ih =>
    rcases hq : q y with _ | _
    · rw [List.find?_cons_of_neg (by simp [hq])] at h
      rw [List.filter_cons]
      split
      · rw [List.find?_cons_of_neg (by simp [hq])]
        exact ih h
      · exact ih h
    · rw [List.find?_cons_of_pos hq] at h
      cases h
      rw [List.filter_cons_of_pos hp, List.find?_cons_of_pos hq]

/-- No route is made or changed, and those whose final record is not due stay open. -/
structure OnlyCloses (s t : State) : Prop where
  old : ∀ r ∈ t.routes, r ∈ s.routes
  stay : ∀ k r, s.route? k = some r → r.finalDue = false → t.route? k = some r

namespace OnlyCloses
variable {s t u : State}

theorem of_routes (h : t.routes = s.routes) : OnlyCloses s t :=
  ⟨fun _ hr => h ▸ hr, fun k _ hr _ => (State.route?_congr h k).trans hr⟩
theorem refl (s : State) : OnlyCloses s s := of_routes rfl
theorem trans (h : OnlyCloses s t) (h' : OnlyCloses t u) : OnlyCloses s u :=
  ⟨fun r hr => h.old r (h'.old r hr), fun k r hr hd => h'.stay k r (h.stay k r hr hd) hd⟩
theorem of_moves {l : List Field} (h : Moves l s t) (hl : l.contains .routes = false := by rfl) : OnlyCloses s t :=
  of_routes (h.routes_eq hl)
theorem ite {p : Prop} [Decidable p] (h : OnlyCloses s t) (h' : OnlyCloses s u) : OnlyCloses s (if p then t else u) := by
  split <;> assumption
end OnlyCloses

theorem State.closeRoute_closes (s : State) (k : RouteKey) : OnlyCloses s (s.closeRoute k) := by
  unfold State.closeRoute
  split
  · refine ⟨fun r hr => (List.mem_filter.mp hr).1, fun j r hr hd => ?_⟩
    exact find?_filter_of_find? hr (by simp [hd])
  · exact .refl s

theorem State.postOne_closes (s : State) (t q : Nat) (cq : CQ) (c : Completion) (rest : List Completion) :
    OnlyCloses s (s.postOne t q cq c rest) := by
  unfold State.postOne
  extract_lets size phase a tail b n fire d e
  have ha : OnlyCloses s a := .of_moves (State.hostWrite_writes ..)
  have hb : OnlyCloses s b := ha.trans (.of_moves (State.hostWrite_writes ..))
  have hd : OnlyCloses s d := hb.trans (.of_moves (State.putCq_writes ..))
  have he : OnlyCloses s e := .ite (hd.trans (.of_moves (State.signal_writes ..))) hd
  split
  · exact he.trans (State.closeRoute_closes ..)
  · exact he

theorem State.postDue_closes (s : State) (t q n : Nat) : OnlyCloses s (s.postDue t q n) := by
  induction n generalizing s with
  | zero => exact .refl s
  | succ n ih =>
    unfold State.postDue
    refine .ite (.refl s) ?_
    split
    · exact .refl s
    · split
      · exact .refl s
      · exact .ite (.refl s) ((s.postOne_closes ..).trans (ih _))

theorem State.complete_closes (s : State) (t q : Nat) (c : Completion) : OnlyCloses s (s.complete t q c) := by
  unfold State.complete
  split
  · split
    · exact s.closeRoute_closes _
    · exact .refl s
  · exact .trans (.of_moves (State.putCq_writes ..)) (State.postDue_closes ..)

/-! ## Publications -/

theorem State.publishPages_fields (s : State) (k : RouteKey) (p : Publish) :
    (s.publishPages k p).2.1.bytes = p.bytes ∧ (s.publishPages k p).2.1.check = p.check ∧
      (s.publishPages k p).2.1.doneAt = p.doneAt ∧ (s.publishPages k p).2.1.paused = p.paused := by
  unfold State.publishPages
  dsimp only
  split <;> exact ⟨rfl, rfl, rfl, rfl⟩

theorem State.route?_setPublish (s : State) {k : RouteKey} {r : Route} (h : s.route? k = some r) (p : Option Publish) :
    (s.setPublish k p).route? k = some { r with publish := p } :=
  s.route?_updRoute_same k (fun r => { r with publish := p }) (fun _ => rfl) h

theorem publicationResume_tries (s : State) {k : RouteKey} {r : Route} {p : Publish} (hr : s.route? k = some r)
    (hp : r.publish = some p) (hneed : p.paused.isSome = true ∨ p.lacks = true) (hdue : r.finalDue = false) :
    ∃ t r' p', exec (.publicationResume k) s = .next t ∧ t.route? k = some r' ∧ r'.publish = some p' ∧
      p'.bytes = p.bytes ∧ p'.check = p.check ∧ p'.doneAt = p.doneAt ∧
      (p'.paused = none ∨ p'.paused = p.paused ∨ p.paused = none ∧ p'.paused = some s.pitch.number) := by
  have hexec : exec (.publicationResume k) s = .next (s.publishStep k p s.pitch.number) := by
    have hb : (s.route? k).bind (fun r => r.publish) = some p := by rw [hr]; exact hp
    simp only [exec_publicationResume, execPublicationResume, hb, Bool.or_eq_true, if_pos hneed]
  obtain ⟨hbytes, hcheck, hdone, hpaused⟩ := s.publishPages_fields k p
  have hru : (s.publishPages k p).1.route? k = some r :=
    (State.route?_congr ((s.publishPages_writes k p).routes_eq rfl) k).trans hr
  rw [hexec]
  unfold State.publishStep
  extract_lets a _ v
  change a.1.route? k = some r at hru
  change a.2.1.bytes = _ at hbytes
  change a.2.1.check = _ at hcheck
  change a.2.1.doneAt = _ at hdone
  change a.2.1.paused = _ at hpaused
  clear_value a
  split
  · exact ⟨_, _, _, rfl, a.1.route?_setPublish hru _, rfl, hbytes, hcheck, hdone, .inl rfl⟩
  next m _ =>
    have hset := a.1.route?_setPublish hru (some { a.2.1 with lacks := true })
    exact ⟨_, _, _, rfl, (State.route?_congr ((State.askPage_writes ..).routes_eq rfl) k).trans hset, rfl, hbytes, hcheck,
      hdone, .inr (.inl hpaused)⟩
  next cause cls _ =>
    obtain ⟨r', q, hv, hdue', hq, hqb, hqc, hqd, hqp⟩ : ∃ (r' : Route) (q : Publish), v.route? k = some r' ∧
        r'.finalDue = false ∧ r'.publish = some q ∧ q.bytes = p.bytes ∧ q.check = p.check ∧ q.doneAt = p.doneAt ∧
        q.paused = some (p.paused.getD s.pitch.number) :=
      ⟨_, _, a.1.route?_setPublish hru _, hdue, rfl, hbytes, hcheck, hdone, rfl⟩
    clear_value v
    rw [hv]
    cases hpz : p.paused with
    | some n => exact ⟨_, _, _, rfl, hv, hq, hqb, hqc, hqd, .inr (.inl (by rw [hqp, hpz]; rfl))⟩
    | none =>
      have hinc := (State.route?_congr ((v.oinc_writes 0x4002 5 1).routes_eq rfl) k).trans hv
      have hdone := (State.complete_closes _ k.tenant r'.cqid (r'.notice cause (clsPage cls))).stay k r' hinc hdue'
      exact ⟨_, _, _, rfl, hdone, hq, hqb, hqc, hqd, .inr (.inr ⟨rfl, by rw [hqp, hpz]; rfl⟩)⟩

/-! ## Suspension limits -/

theorem State.due_of_closes {s t : State} (h : OnlyCloses s t) {k : RouteKey}
    (hs : ∀ r ∈ s.routes, r.key = k → r.finalDue = true) {r : Route} (hr : t.route? k = some r) : r.finalDue = true :=
  hs r (h.old r (List.mem_of_find?_eq_some hr)) (State.key_of_route? hr)

theorem State.updRoute_due (s : State) (k : RouteKey) (f : Route → Route) (hf : ∀ r, (f r).finalDue = true) :
    ∀ r ∈ (s.updRoute k f).routes, r.key = k → r.finalDue = true := by
  intro r hr hk
  obtain ⟨q, -, rfl⟩ := List.mem_map.mp hr
  split at hk
  next h => rw [if_pos h]; exact hf q
  next h => exact absurd (beq_iff_eq.mpr hk) h

/-- A route closed at its home has its final record due as long as it is open. -/
theorem State.closeOut_due (s : State) {k : RouteKey} (hhome : s.isHome k = true) (status tick check : Nat) (record : Bool) :
    ∀ r, (s.closeOut k status tick check record).route? k = some r → r.finalDue = true := by
  intro r hr
  unfold State.closeOut at hr
  split at hr
  next hnone => cases hnone.symm.trans hr
  next r₀ _ =>
    extract_lets a b c d at hr
    have ha : a.isHome k = true := (congrArg (fun y : SysSt => k.home == y.deviceId) ((s.freeRoute_writes k).sys_eq rfl)).trans hhome
    rw [if_pos ha] at hr
    have hd := c.updRoute_due k (fun r => { r with
        finalDue := true, span := none, suspended := none, publish := none, work := RouteWork.empty
        base := RouteWork.empty, conditions := [], endTick := none, aborts := [] }) (fun _ => rfl)
    refine State.due_of_closes (s := d) ?_ hd hr
    exact .ite (State.complete_closes ..) (State.closeRoute_closes ..)

theorem State.endRoute_due (s : State) {k : RouteKey} (hhome : s.isHome k = true) (status tick : Nat) (record : Bool) :
    ∀ r, (s.endRoute k status tick record).route? k = some r → r.finalDue = true := by
  intro r hr
  unfold State.endRoute at hr
  split at hr
  next hnone => cases hnone.symm.trans hr
  next r₀ h₀ =>
    split at hr
    next hdue =>
      cases h₀.symm.trans hr
      exact hdue
    · extract_lets a b at hr
      have ha : a.sys = s.sys := by
        dsimp only [a]
        split
        · exact (s.discardSpan_writes k).sys_eq rfl
        · rfl
      have hb : b.sys = a.sys := by
        dsimp only [b]
        split
        · exact (State.dropPublish_writes ..).sys_eq rfl
        · rfl
      refine b.closeOut_due ?_ _ _ _ _ r hr
      exact (congrArg (fun y : SysSt => k.home == y.deviceId) (hb.trans ha)).trans hhome

theorem suspendLimitExpiry_ends (s : State) {k : RouteKey} {r : Route} {x : Suspend} (hr : s.route? k = some r)
    (hx : r.suspended = some x) (hhome : s.isHome k = true) :
    (x.tick + s.onum 0x4000 6 ≤ s.pitch.number → ∃ t, exec (.suspendLimitExpiry k) s = .next t ∧
      ∀ r', t.route? k = some r' → r'.finalDue = true) ∧
    (s.pitch.number < x.tick + s.onum 0x4000 6 → exec (.suspendLimitExpiry k) s = .next s) := by
  have hexec : exec (.suspendLimitExpiry k) s = .next (if x.tick + s.onum 0x4000 6 ≤ s.pitch.number then
      s.endRoute k stDepotFull (s.pitch.number - 1) (s.writesFinal k) else s) := by
    simp only [exec_suspendLimitExpiry, execSuspendLimitExpiry, State.suspendExpiry, hr, hx, hhome, Bool.true_and,
      decide_eq_true_eq]
  refine ⟨fun h => ⟨_, hexec.trans (by rw [if_pos h]), s.endRoute_due hhome _ _ _⟩, fun h => ?_⟩
  rw [hexec, if_neg (by omega)]

/-- Settles O34: losses replay every open span; restarts, merges, publications and limits row by row. -/
theorem spansAndReplays : Obligations.SpansAndReplays := by
  intro s
  refine ⟨fun p x q hret hq hx hne => ?_, fun p k x j hp hk hret hq hm hj hx => ?_,
    fun k r sp hr hsp => ⟨fun hrep hc => spanRestart_again s hr hsp hrep hc, fun n hhome hrep hn hnew hbefore hready =>
      summitMerge_merges s hr hsp hhome hrep hn hnew hbefore hready⟩,
    fun k r p hr hp => ⟨fun hpz hl hd => ?_, fun hneed hdue => publicationResume_tries s hr hp hneed hdue⟩,
    fun k r x hr hx hhome _ => suspendLimitExpiry_ends s hr hx hhome⟩
  · obtain ⟨t, ht, hmap, hspare, hretd, hw⟩ := resourceFailure_ridge s hret hq hx hne
    exact ⟨t, ht, hmap, hspare, hretd, fun k _ _ hr hsp => (hw k).replaying hr hsp⟩
  · obtain ⟨t, ht, hmarks, hmap, hw⟩ := resourceFailure_strand s hp hk hret hq hm hj hx
    exact ⟨t, ht, hmarks, hmap, fun k _ _ hr hsp => (hw k).replaying hr hsp⟩
  · have hb : (s.route? k).bind (fun r => r.publish) = some p := by rw [hr]; exact hp
    simp only [exec_publicationDone, execPublicationDone, hb, hpz, hl, hd]
    rfl

end Sys2Proof.Machine
end

section
/-! SUPPORT. The zero queue, the stalled requests and the queued ones: what the Depot and the home leave of them. -/
namespace Sys2Proof.Machine
open Sys2Proof

theorem State.setDepot_writes (s : State) {d : DepotSt} (hd : d.objects = s.depot.objects) :
    Moves [.depot] s { s with depot := d } := by
  rw [Moves.mk_eq]
  refine MovesMk.upd rfl (.inl rfl) (.inl rfl) ?_ (.refl _ s)
  apply upd_parts <;> first | exact .inl rfl | exact .inr rfl | exact .inr hd

/-- The requests for pages that wait, as given. -/
def State.withAsks (s : State) (l : List SvcMsg) : State := { s with depot := { s.depot with pageAsks := l } }

theorem State.withAsks_writes (s : State) (l : List SvcMsg) : Moves [.depot] s (s.withAsks l) := s.setDepot_writes rfl

/-! ## The zero queue (R219) -/

theorem Moves.zeroQueue_eq {l : List Field} {s t : State} (h : Moves l s t) (hl : l.contains .depot = false) :
    t.depot.zeroQueue = s.depot.zeroQueue := by
  have hd : ({ t.depot with objects := [] } : DepotSt) = { s.depot with objects := [] } := h.keeps .depot hl
  exact (congrArg DepotSt.zeroQueue hd :)

theorem State.usePage_zeroQueue (s : State) (t cls tier addr : Nat) (k : Option RouteKey) :
    (s.usePage t cls tier addr k).depot.zeroQueue = s.depot.zeroQueue := by
  unfold State.usePage
  extract_lets route used _ u
  have hu : u.depot.zeroQueue = s.depot.zeroQueue := by
    dsimp only [u]
    clear_value used
    cases used <;> rfl
  split
  · exact ((State.oinc_writes ..).zeroQueue_eq rfl).trans hu
  · exact hu

theorem State.addPage_zeroQueue (s : State) (o index : Nat) (d : DObj) (tier addr : Nat) :
    (s.addPage o index d tier addr).depot.zeroQueue = s.depot.zeroQueue := s.usePage_zeroQueue ..

theorem State.answerGrant_zeroQueue (s : State) (m : SvcMsg) (h l : Nat) :
    (s.answerGrant m h l).depot.zeroQueue = s.depot.zeroQueue := (State.sendSvc_writes ..).zeroQueue_eq rfl

theorem State.grantTo_zeroQueue (s : State) (m : SvcMsg) (k : RouteKey) (cls a : Nat) :
    (s.grantTo m k cls a).depot.zeroQueue = s.depot.zeroQueue := by
  unfold State.grantTo
  split
  · exact s.answerGrant_zeroQueue ..
  · split
    · exact s.answerGrant_zeroQueue ..
    next o u ho =>
      have hu := (OptAll.stSnd (State.inboundObj_writes ..) ho).zeroQueue_eq rfl
      split
      · exact (u.answerGrant_zeroQueue ..).trans hu
      · exact ((State.answerGrant_zeroQueue ..).trans (u.addPage_zeroQueue ..)).trans hu

theorem State.answerAlloc_zeroQueue (s : State) (m : SvcMsg) : (s.answerAlloc m).depot.zeroQueue = s.depot.zeroQueue := by
  unfold State.answerAlloc
  dsimp only
  split
  · exact s.grantTo_zeroQueue ..
  · exact s.answerGrant_zeroQueue ..

theorem State.sendSvc_lent_zeroQueue (s : State) {p : Prop} [Decidable p] (l : SMap Nat) (op dest tn route arg : Nat) :
    ((if p then { s with depot := { s.depot with lent := l } } else s : State).sendSvc op dest tn route arg 0 0).depot.zeroQueue =
      s.depot.zeroQueue := by
  refine ((State.sendSvc_writes ..).zeroQueue_eq rfl).trans ?_
  split <;> rfl

theorem State.answerDraw_zeroQueue (s : State) (m : SvcMsg) : (s.answerDraw m).depot.zeroQueue = s.depot.zeroQueue := by
  unfold State.answerDraw
  exact s.sendSvc_lent_zeroQueue ..

theorem State.serveAsk_zeroQueue (s : State) (m : SvcMsg) : (s.serveAsk m).depot.zeroQueue = s.depot.zeroQueue := by
  unfold State.serveAsk
  split
  · rfl
  split
  · exact s.answerAlloc_zeroQueue m
  · exact s.answerDraw_zeroQueue m

theorem State.serveAsks_zeroQueue (s : State) : s.serveAsks.depot.zeroQueue = s.depot.zeroQueue := by
  have hfold : ∀ (l : List SvcMsg) (t : State), (l.foldl State.serveAsk t).depot.zeroQueue = t.depot.zeroQueue := by
    intro l
    induction l with
    | nil => exact fun _ => rfl
    | cons m l ih => exact fun t => (ih _).trans (t.serveAsk_zeroQueue m)
  exact hfold s.depot.pageAsks _

theorem State.zeroDone_zeroQueue (s : State) : s.zeroDone.depot.zeroQueue = s.depot.zeroQueue.drop 1 := by
  unfold State.zeroDone
  split
  next h => simp [h]
  next h => simp [h]

theorem State.zeroDone_pageAsks (s : State) : s.zeroDone.depot.pageAsks = s.depot.pageAsks := by
  unfold State.zeroDone
  split <;> rfl

/-- No line of the page cleared is marked, and no other mark is new. -/
theorem State.zeroDone_poisoned (s : State) {z : ZeroEnt} (hz : z ∈ s.depot.zeroQueue.head?) {q : Nat × Unit}
    (hq : q ∈ s.zeroDone.dram.poisoned) : q ∈ s.dram.poisoned ∧
      let base := s.sys.deviceId * 2 ^ 44 + (if z.tier = 0 then 2 ^ 43 else 0) + z.addr
      (q.1 < base ∨ base + z.size ≤ q.1) := by
  unfold State.zeroDone at hq
  split at hq
  next h => simp [h] at hz
  next z' rest h =>
    obtain rfl : z' = z := by simpa [h] using hz
    obtain ⟨hmem, hout⟩ := List.mem_filter.mp hq
    exact ⟨hmem, by simpa using hout⟩

/-- The zeroing engine's page given back: its queue, its marks, and the requests that waited. -/
theorem zeroPageCleared_clears (s : State) : ∃ t, exec .zeroPageCleared s = .next t ∧
    t.depot.zeroQueue = s.depot.zeroQueue.drop 1 ∧
    (∀ z ∈ s.depot.zeroQueue.head?, ∀ q ∈ t.dram.poisoned, q ∈ s.dram.poisoned ∧
      let base := s.sys.deviceId * 2 ^ 44 + (if z.tier = 0 then 2 ^ 43 else 0) + z.addr
      (q.1 < base ∨ base + z.size ≤ q.1)) ∧
    (s.depot.pageAsks = [] → Writes [.depot, .dram] s t) ∧ ∀ m, s.depot.pageAsks = [m] →
      let z : State := { s.zeroDone with depot := { s.zeroDone.depot with pageAsks := [] } }
      (z.mustClear m = true → t.depot.pageAsks = [m] ∧ Writes [.depot, .dram] s t) ∧
      (z.mustClear m = false → t = if m.op = svPageAlloc then z.answerAlloc m else z.answerDraw m) := by
  refine ⟨s.zeroDone.serveAsks, rfl, s.zeroDone.serveAsks_zeroQueue.trans s.zeroDone_zeroQueue, fun z hz q hq => ?_, ?_⟩
  · rw [s.zeroDone.serveAsks_writes.dram_eq rfl] at hq
    exact s.zeroDone_poisoned hz hq
  have hzero := s.zeroDone_writes
  refine ⟨fun hasks => ?_, fun m hasks => ?_⟩
  · have hserve : s.zeroDone.serveAsks = s.zeroDone.withAsks [] := by
      unfold State.serveAsks
      rw [s.zeroDone_pageAsks, hasks]
      rfl
    rw [hserve]
    exact (hzero.trans ((State.withAsks_writes _ _).mono (.mk rfl))).frame
  · have hserve : s.zeroDone.serveAsks = (s.zeroDone.withAsks []).serveAsk m := by
      unfold State.serveAsks
      rw [s.zeroDone_pageAsks, hasks]
      rfl
    rw [hserve]
    change ((s.zeroDone.withAsks []).mustClear m = true → _) ∧ ((s.zeroDone.withAsks []).mustClear m = false → _)
    refine ⟨fun hm => ?_, fun hm => ?_⟩
    · rw [show (s.zeroDone.withAsks []).serveAsk m = (s.zeroDone.withAsks []).withAsks [m] by
        rw [State.serveAsk, hm, Bool.or_true, if_pos rfl]; rfl]
      exact ⟨rfl, ((hzero.trans ((State.withAsks_writes _ _).mono (.mk rfl))).trans
        ((State.withAsks_writes _ _).mono (.mk rfl))).frame⟩
    · rw [State.serveAsk, hm, Bool.or_false, if_neg]
      · rfl
      · simp [State.behindAsk, State.withAsks]

end Sys2Proof.Machine
end

section
/-! SUPPORT. Migrations, and stores and requests that wait for the journal (R62, R234). -/
namespace Sys2Proof.Machine
open Sys2Proof

theorem State.onum_oinc_same (s : State) (i m n : Nat) {r : ObjRow} (h : objRow? i m = some r) :
    (s.oinc i m n).onum i m = min r.ty.bounds.2.toNat (s.onum i m + n) := by
  unfold State.oinc
  rw [h]
  exact s.onum_oset_same ..

/-! ## Migrations -/

theorem migrationCopyDone_notes (s : State) (page : Nat) : ∃ t, exec (.migrationCopyDone page) s = .next t ∧
    Writes [.depot] s t ∧ ∀ m ∈ t.depot.migrations, ∃ m' ∈ s.depot.migrations,
      m.page = m'.page ∧ m.copied = (m'.copied || m'.page == page) := by
  refine ⟨s.migrationCopied page, rfl, Moves.frame (s.setDepot_writes rfl), fun m hm => ?_⟩
  obtain ⟨m', hm', rfl⟩ := List.mem_map.mp hm
  refine ⟨m', hm', ?_⟩
  split
  next h => simp [h]
  next h => simp [h]

/-- A migration out of the list, its destination to the zeroing engine. -/
def State.dropMigration (s : State) (page : Nat) (m : Migration) (size : Nat) : State :=
  { s with depot := { s.depot with
      migrations := s.depot.migrations.filter (fun m => m.page != page)
      zeroQueue := s.depot.zeroQueue ++ [({ tier := m.toTier, addr := m.toAddr, size := size } : ZeroEnt)] } }

theorem State.abandonMigration_drop (s : State) {page : Nat} {m : Migration}
    (hm : s.depot.migrations.find? (fun m => m.page == page) = some m) :
    ∃ size, s.abandonMigration page = (s.dropMigration page m size).oinc 0x4002 3 1 := by
  unfold State.abandonMigration
  rw [hm]
  exact ⟨_, rfl⟩

theorem migrationAbandon_gives_up (s : State) {page : Nat} {m : Migration}
    (hm : s.depot.migrations.find? (fun m => m.page == page) = some m) (htries : 4 ≤ m.tries) :
    ∃ t, exec (.migrationAbandon page) s = .next t ∧ (∀ x ∈ t.depot.migrations, x.page ≠ page) ∧
      t.depot.zeroQueue.map (fun z => (z.tier, z.addr)) = s.depot.zeroQueue.map (fun z => (z.tier, z.addr)) ++
        [(m.toTier, m.toAddr)] ∧
      t.onum 0x4002 3 = min (2 ^ 64 - 1) (s.onum 0x4002 3 + 1) ∧ Writes [.objs, .depot] s t := by
  have hany : s.depot.migrations.any (fun m => m.page == page && decide (4 ≤ m.tries)) = true := by
    have hpage := List.find?_some hm
    exact List.any_eq_true.mpr ⟨m, List.mem_of_find?_eq_some hm, by simpa [htries] using hpage⟩
  have hexec : exec (.migrationAbandon page) s = .next (s.abandonMigration page) := by
    simp only [exec_migrationAbandon, execMigrationAbandon, hany, if_true]
  obtain ⟨size, hdrop⟩ := s.abandonMigration_drop hm
  have hdepot : (s.abandonMigration page).depot = (s.dropMigration page m size).depot := by
    rw [hdrop]
    exact (State.oinc_writes ..).depot_eq rfl rfl
  refine ⟨_, hexec, fun x hx => ?_, ?_, ?_, (s.abandonMigration_writes page).frame⟩
  · rw [hdepot] at hx
    simpa using (List.mem_filter.mp hx).2
  · rw [hdepot, State.dropMigration, List.map_append]
    rfl
  · rw [hdrop]
    exact State.onum_oinc_same _ 0x4002 3 1 (r := _) rfl

end Sys2Proof.Machine
end

section
/-! SUPPORT. A request stalled on a full journal goes on when the journal has room (R62). -/
namespace Sys2Proof.Machine
open Sys2Proof

theorem Moves.stalled_eq {l : List Field} {s t : State} (h : Moves l s t) (hl : l.contains .depot = false) :
    t.depot.stalled = s.depot.stalled := by
  have hd : ({ t.depot with objects := [] } : DepotSt) = { s.depot with objects := [] } := h.keeps .depot hl
  exact (congrArg DepotSt.stalled hd :)

/-- The requests stalled on the journal and those queued at their lines are the same. -/
structure SameWaits (s t : State) : Prop where
  stalled : t.depot.stalled = s.depot.stalled
  queued : t.coh.queued = s.coh.queued

namespace SameWaits
variable {s t u : State}

theorem refl (s : State) : SameWaits s s := ⟨rfl, rfl⟩
theorem trans (h : SameWaits s t) (h' : SameWaits t u) : SameWaits s u :=
  ⟨h'.stalled.trans h.stalled, h'.queued.trans h.queued⟩
theorem of_moves {l : List Field} (h : Moves l s t) (hd : l.contains .depot = false := by rfl)
    (hc : l.contains .coh = false := by rfl) : SameWaits s t := by
  have b : t.coh.withPeers CohSt.reset = s.coh.withPeers CohSt.reset := h.keeps .coh hc
  exact ⟨h.stalled_eq hd, (congrArg CohSt.queued b :)⟩
theorem ite {p : Prop} [Decidable p] (h : SameWaits s t) (h' : SameWaits s u) : SameWaits s (if p then t else u) := by
  split <;> assumption
theorem foldl {β : Type} {g : State → β → State} (l : List β) (hg : ∀ t b, SameWaits t (g t b)) (h : SameWaits s t) :
    SameWaits s (l.foldl g t) := by
  induction l generalizing t with
  | nil => exact h
  | cons b l ih => exact ih (h.trans (hg t b))
end SameWaits

/-! ## Directory, transactions and accesses leave them -/

theorem State.setDir_waits (s : State) (l : Nat) (e : DirEnt) : SameWaits s (s.setDir l e) := ⟨rfl, rfl⟩

theorem State.openTxn_waits (s : State) (m : CohMsg) (w : List Nat) (b : Bool) : SameWaits s (s.openTxn m w b).2 := ⟨rfl, rfl⟩

theorem State.backInvalidate_waits (s : State) (k : Nat) (e : DirEnt) (r : Option CohMsg) :
    SameWaits s (s.backInvalidate k e r) := by
  unfold State.backInvalidate
  extract_lets v t hs
  have ht : SameWaits s t := .of_moves (s.oinc_writes ..)
  refine .ite (ht.trans (t.setDir_waits ..)) ?_
  exact .foldl _ (fun u a => .of_moves (u.sendSnoop_writes ..)) ⟨ht.stalled, ht.queued⟩

theorem State.dirRoom_waits (s : State) (l : Nat) (r : Option CohMsg) : SameWaits s (s.dirRoom l r) := by
  unfold State.dirRoom
  refine .ite (.refl s) ?_
  extract_lets es v _ t
  have ht : SameWaits s t := ⟨rfl, rfl⟩
  split
  · exact ht
  · exact ht.trans (t.backInvalidate_waits ..)

theorem State.dirPut_waits (s : State) (l : Nat) (e : DirEnt) : SameWaits s (s.dirPut l e) :=
  (s.dirRoom_waits l none).trans (State.setDir_waits ..)

theorem State.countLine_waits (s : State) (l : Nat) : SameWaits s (s.countLine l) := by
  unfold State.countLine
  split
  · unfold State.countAccess
    exact .ite (.refl s) ⟨rfl, rfl⟩
  · exact .refl s

theorem State.slcAccess_waits (s : State) (l : Nat) (b : Bool) : SameWaits s (s.slcAccess l b) := by
  unfold State.slcAccess
  extract_lets hit t
  have ht : SameWaits s t := .ite (.refl s) (s.countLine_waits l)
  exact .ite ht (ht.trans (.of_moves (t.slcPut_writes ..)))

theorem State.lineWrite_waits (s : State) (l : Nat) (bs : List Byte) : SameWaits s (s.lineWrite l bs) := by
  unfold State.lineWrite
  dsimp only
  split
  · split
    · exact .trans (.of_moves (s.putObj_writes ..)) (.of_moves (State.lineFresh_writes ..))
    · exact .refl s
  · exact .ite (.refl s) ⟨rfl, rfl⟩

theorem State.setPd_waits (s : State) (l : Nat) : SameWaits s (s.setPd l) := by
  unfold State.setPd
  split
  · exact .refl s
  · split
    · exact .refl s
    · exact .ite ⟨rfl, rfl⟩ ⟨rfl, rfl⟩

theorem State.putRecord_waits (s : State) (k : RouteKey) (page i : Nat) (old : List Byte) :
    SameWaits s (s.putRecord k page i old) := ⟨rfl, rfl⟩

/-- A journal step does nothing, or makes a record and sets the line's pitch-dirty bit. -/
theorem State.journalStep_some {s t : State} {l : Nat} (h : s.journalStep l = some t) :
    t = s ∨ ∃ k page i old, t = (s.putRecord k page i old).setPd l := by
  unfold State.journalStep State.journalOld at h
  split at h
  · exact .inl (Option.some.inj h).symm
  split at h
  · cases h
  split at h
  · exact .inl (Option.some.inj h).symm
  split at h
  · exact .inl (Option.some.inj h).symm
  · exact .inr ⟨_, _, _, _, (Option.some.inj h).symm⟩

theorem State.journalStep_waits {s t : State} {l : Nat} (h : s.journalStep l = some t) : SameWaits s t := by
  rcases State.journalStep_some h with rfl | ⟨k, page, i, old, rfl⟩
  · exact .refl t
  · exact (s.putRecord_waits k page i old).trans (State.setPd_waits _ l)

/-! ## A record made stands for its line -/

theorem SMap.find?_put {α : Type} {m : SMap α} {q : Nat × α → Bool} {a : Nat} {x y : α} (h : m.find? q = some (a, x))
    (hy : q (a, y) = true) : (m.put a y).find? q = some (a, y) := by
  induction m with
  | nil => cases h
  | cons c m ih =>
    obtain ⟨k, v⟩ := c
    unfold SMap.put
    split
    · exact List.find?_cons_of_pos hy
    · split
      · exact List.find?_cons_of_pos hy
      next hne =>
        rcases hq : q (k, v) with _ | _
        · rw [List.find?_cons_of_neg (by simp [hq])] at h ⊢
          exact ih h
        · rw [List.find?_cons_of_pos hq] at h
          cases h
          exact absurd rfl hne

/-- A page with the pitch-dirty bit of a line set in the span `q`. -/
def Page.withPd (p : Page) (q i : Nat) : Page :=
  let lines := if p.pdMark = q then p.pdLines else []
  { p with pdMark := q, pdLines := if lines.contains i then lines else lines ++ [i] }

theorem Page.withPd_contains (p : Page) (q i : Nat) : (p.withPd q i).pdLines.contains i = true := by
  dsimp only [Page.withPd]
  generalize (if p.pdMark = q then p.pdLines else []) = lines
  split
  · assumption
  · simp

theorem State.setPd_pages (s : State) {l id q : Nat} {p : Page} (hp : s.linePage l = some (id, p)) (hq : s.pageSpan p = some q) :
    (s.setPd l).depot.pages = s.depot.pages.put id (p.withPd q ((lineOff l - p.addr) / 64)) ∧
      (s.setPd l).routes = s.routes := by
  simp only [State.setPd, hp, hq]
  split <;> exact ⟨rfl, rfl⟩

/-- Once a line's pitch-dirty bit is set, a write of it needs no further record. -/
theorem State.needsRecord_setPd (s : State) (l : Nat) : (s.setPd l).needsRecord l = false := by
  cases hp : s.linePage l with
  | none => simp [State.setPd, State.needsRecord, hp]
  | some x =>
    obtain ⟨id, p⟩ := x
    cases hq : s.pageSpan p with
    | none => simp [State.setPd, State.needsRecord, hp, hq]
    | some q =>
      obtain ⟨hpages, hroutes⟩ := s.setPd_pages hp hq
      have hline : (s.setPd l).linePage l = some (id, p.withPd q ((lineOff l - p.addr) / 64)) := by
        rw [State.linePage, hpages]
        have hm := List.find?_some hp
        exact SMap.find?_put hp hm
      have hspan : (s.setPd l).pageSpan (p.withPd q ((lineOff l - p.addr) / 64)) = some q := by
        rw [← hq]
        simp only [State.pageSpan, State.route?_congr hroutes]
        rfl
      have hbit : (s.setPd l).pdBit (p.withPd q ((lineOff l - p.addr) / 64)) l = true := by
        rw [State.pdBit, hspan]
        exact Bool.and_eq_true_iff.mpr ⟨beq_self_eq_true _, p.withPd_contains q _⟩
      simp [State.needsRecord, hline, hspan, hbit]

theorem State.journalStep_of_clean {s : State} {l : Nat} (h : s.needsRecord l = false) : s.journalStep l = some s := by
  simp [State.journalStep, State.journalOld, h]

theorem State.journalStep_isSome (s : State) (l : Nat) (h : s.depot.journal.length < s.journalRoom) :
    ∃ t, s.journalStep l = some t := by
  unfold State.journalStep State.journalOld
  rw [if_neg (Nat.not_le.mpr h)]
  split
  · exact ⟨_, rfl⟩
  · split
    · exact ⟨_, rfl⟩
    · split <;> exact ⟨_, rfl⟩

/-- A journal with room takes the record of a write, and a second write of the line needs none. -/
theorem State.journalStep_room (s : State) (l : Nat) (h : s.depot.journal.length < s.journalRoom) :
    ∃ t, s.journalStep l = some t ∧ ∃ u, t.journalStep l = some u := by
  obtain ⟨t, ht⟩ := s.journalStep_isSome l h
  refine ⟨t, ht, ?_⟩
  rcases State.journalStep_some ht with rfl | ⟨k, page, i, old, rfl⟩
  · exact ⟨t, ht⟩
  · exact ⟨_, State.journalStep_of_clean (State.needsRecord_setPd _ l)⟩

/-! ## The request goes on -/

/-- Without code faults stored, a read of memory is only a read. -/
theorem State.memRead_of_no_raw (s : State) (h : s.dram.raw = []) (l : Nat) (scrub : Bool) : s.memRead l scrub = s := by
  have hf : s.copyFate l (s.serves l) = none := by simp [State.copyFate, h, SMap.find]
  simp [State.memRead, State.copyRead, hf, State.copyServed]

theorem State.awaitRoom_waits (s : State) (m : CohMsg) : SameWaits s (s.awaitRoom m) :=
  (s.openTxn_waits ..).trans (State.dirRoom_waits ..)

theorem State.giveData_waits (s : State) (m : CohMsg) (st : LineState) (d : List Byte) : SameWaits s (s.giveData m st d) :=
  .of_moves (s.giveData_writes ..)

theorem State.replyTo_waits (s : State) (m : CohMsg) (op : Nat) (f : CohMsg → CohMsg) : SameWaits s (s.replyTo m op f) :=
  .of_moves (s.replyTo_writes ..)

/-- A grant that is made and leaves the waiting requests. -/
structure GrantMade (s : State) (r : State × Bool) : Prop where
  waits : SameWaits s r.1
  made : r.2 = true

theorem GrantMade.ite {s : State} {p : Prop} [Decidable p] {a b : State × Bool} (ha : GrantMade s a)
    (hb : GrantMade s b) : GrantMade s (if p then a else b) := by
  split <;> assumption

theorem State.grantShared_waits (s : State) (m : CohMsg) (l : Nat) (e : DirEnt) (st : LineState) (d : List Byte) :
    SameWaits s (((s.slcAccess l false).dirPut l e).giveData m st d) :=
  ((s.slcAccess_waits l false).trans (State.dirPut_waits ..)).trans (State.giveData_waits ..)

/-- A grant whose record the journal takes is made, and stalls nothing. -/
theorem State.grantLine_made (s : State) (m : CohMsg) (h : (s.journalStep m.line).isSome = true) :
    GrantMade s (s.grantLine m none) := by
  obtain ⟨u, hu⟩ := Option.isSome_iff_exists.mp h
  have hwaits := State.journalStep_waits hu
  unfold State.grantLine
  dsimp only
  rw [hu]
  refine .ite ⟨.of_moves (s.givePoison_writes m), rfl⟩ (.ite ?shared (.ite ?own (.ite ?nc (.ite ?write ?maintain))))
  case shared => exact .ite ⟨s.grantShared_waits .., rfl⟩ (.ite ⟨s.grantShared_waits .., rfl⟩ ⟨s.grantShared_waits .., rfl⟩)
  case own =>
    have hown : ∀ v, SameWaits s v → ∀ (c : Prop) [Decidable c] (e : DirEnt) (f : CohMsg → CohMsg) (d : State → List Byte),
        GrantMade s (if c then ((v.dirPut m.line e).replyTo m opCmp f, true)
          else (((v.dirPut m.line e).slcAccess m.line false).giveData m .M (d (v.dirPut m.line e)), true)) := by
      intro v hv c _ e f d
      have hput := hv.trans (v.dirPut_waits m.line e)
      exact .ite ⟨hput.trans (State.replyTo_waits ..), rfl⟩
        ⟨(hput.trans (State.slcAccess_waits ..)).trans (State.giveData_waits ..), rfl⟩
    rcases s.lineGang m.line with _ | _
    · exact hown u hwaits _ _ _ (fun v => v.lineRead m.line)
    · exact hown s (.refl s) _ _ _ (fun v => v.lineRead m.line)
  case nc => exact ⟨(s.slcAccess_waits ..).trans (State.giveData_waits ..), rfl⟩
  case write =>
    refine ⟨((hwaits.trans (.ite (.trans ?written (.of_moves (State.unpoison_writes ..))) ?written)).trans
      (State.setDir_waits ..)).trans (State.replyTo_waits ..), rfl⟩
    refine .ite ?counted ((SameWaits.trans ?counted (State.lineWrite_waits ..)).trans (.of_moves (State.slcClean_writes ..)))
    exact .ite (.refl u) (u.countLine_waits m.line)
  case maintain =>
    have hclean : SameWaits s (s.slcClean m.line) := .of_moves (s.slcClean_writes ..)
    refine ⟨SameWaits.trans (.ite (.ite (hclean.trans (State.setDir_waits ..)) hclean) ?_) (State.replyTo_waits ..), rfl⟩
    exact .trans (.of_moves (s.slcDrop_writes ..)) (State.setDir_waits ..)

/-- The journal's step before a request is planned, where the journal has room. -/
theorem State.firstStep_room (s : State) (l : Nat) (h : s.depot.journal.length < s.journalRoom) (first : Bool) :
    ∃ v, (if first then s.journalStep l else some s) = some v ∧ SameWaits s v ∧ (v.journalStep l).isSome = true := by
  obtain ⟨u, hu, w, hw⟩ := s.journalStep_room l h
  cases first with
  | false => exact ⟨s, rfl, .refl s, hu ▸ rfl⟩
  | true => exact ⟨u, hu, State.journalStep_waits hu, hw ▸ rfl⟩

/-- A request that starts with room in the journal and no code faults stored stalls nothing. -/
theorem State.startReq_waits (s : State) (m : CohMsg) (hraw : s.dram.raw = []) (h : s.depot.journal.length < s.journalRoom) :
    SameWaits s (s.startReq m) := by
  have hread : (if (isRead m.op || m.op == opWrNc && m.mask != fullMask) = true then s.memRead m.line false else s) = s := by
    rw [s.memRead_of_no_raw hraw, ite_self]
  unfold State.startReq
  dsimp only
  rw [hread]
  refine .ite (s.awaitRoom_waits m) (.ite (.of_moves (s.unbackedReq_writes m)) (.ite (.of_moves (s.givePoison_writes m)) ?_))
  generalize s.snoopPlan m = plan
  obtain ⟨v, hv, hsv, hjv⟩ := s.firstStep_room m.line h
    (m.op == opWrNc || plan.2.isSome && (m.op == opRdOwn || m.op == opUpgrade) && !s.lineGang m.line)
  rw [hv]
  have hgrant := v.grantLine_made m hjv
  dsimp only
  refine .ite ?_ ?_
  · rw [if_pos hgrant.made]
    exact hsv.trans hgrant.waits
  · refine .trans ?_ (.of_moves (State.sendPlan_writes ..))
    exact ⟨hsv.stalled, hsv.queued⟩

/-! ## The row -/

theorem State.drainStrands_idle (s : State) (h : s.strands = []) : s.drainStrands = s := by
  have hidle : ∀ r k, (s.strand r k).task = none := fun r k => by
    simp only [State.strand, h]
    rfl
  unfold State.drainStrands
  refine List.foldl_fixed' (fun r => ?_) (List.finRange 16)
  refine List.foldl_fixed' (fun k => ?_) (List.finRange 8)
  simp only [hidle]

theorem State.serveQueue_empty (s : State) (l n : Nat) (h : s.coh.queued = []) : s.serveQueue l n = s := by
  cases n with
  | zero => rfl
  | succ n => simp [State.serveQueue, State.takeQueued, h]

/-- A request that restarts with room in the journal leaves nothing stalled that was not. -/
theorem State.restartReq_stalled (s : State) (m : CohMsg) (t : Txn) (hqueued : s.coh.queued = []) (hraw : s.dram.raw = [])
    (h : s.depot.journal.length < s.journalRoom) : (s.restartReq m t).depot.stalled = s.depot.stalled := by
  unfold State.restartReq
  extract_lets _ u v
  have hu : SameWaits u (u.startReq m) := u.startReq_waits m hraw h
  have hv : SameWaits u v := by
    dsimp only [v]
    rw [State.serveQueue_empty _ _ _ (hu.queued.trans hqueued)]
    exact hu
  exact ((State.grantTokens_writes ..).stalled_eq rfl).trans hv.stalled

theorem State.releaseStalled_full (s : State) {m : CohMsg} {x : Txn} (hm : s.depot.stalled = [m])
    (hx : s.coh.open_.find? (fun t => t.line == m.line && t.req == m && t.waiting.isEmpty) = some x)
    (hneed : s.needsRecord m.line = true) (hfull : s.journalRoom ≤ s.depot.journal.length) :
    s.releaseStalled.depot.stalled = [m] := by
  unfold State.releaseStalled
  extract_lets waiting _ u
  have hneed' : (u.needsRecord m.line && decide (u.journalRoom ≤ u.depot.journal.length)) = true :=
    Bool.and_eq_true_iff.mpr ⟨hneed, decide_eq_true hfull⟩
  have hx' : u.coh.open_.find? (fun t => t.line == m.line && t.req == m && t.waiting.isEmpty) = some x := hx
  rw [show waiting = [m] from hm, List.foldl_cons, List.foldl_nil]
  simp only [hx', hneed', if_true]
  rfl

theorem State.releaseStalled_room (s : State) {m : CohMsg} {x : Txn} (hm : s.depot.stalled = [m])
    (hx : s.coh.open_.find? (fun t => t.line == m.line && t.req == m && t.waiting.isEmpty) = some x)
    (hqueued : s.coh.queued = []) (hraw : s.dram.raw = []) (hroom : s.depot.journal.length < s.journalRoom) :
    s.releaseStalled.depot.stalled = [] := by
  unfold State.releaseStalled
  extract_lets waiting _ u
  have hfree : (u.needsRecord m.line && decide (u.journalRoom ≤ u.depot.journal.length)) = false := by
    rw [decide_eq_false (show ¬ u.journalRoom ≤ u.depot.journal.length from Nat.not_le.mpr hroom), Bool.and_false]
  have hx' : u.coh.open_.find? (fun t => t.line == m.line && t.req == m && t.waiting.isEmpty) = some x := hx
  rw [show waiting = [m] from hm, List.foldl_cons, List.foldl_nil]
  simp only [hx', hfree, Bool.false_eq_true, if_false]
  exact u.restartReq_stalled m x hqueued hraw hroom

theorem journalStallRelease_releases (s : State) (h : s.strands = []) :
    exec .journalStallRelease s = .next s.releaseStalled :=
  congrArg Host.Outcome.next (State.drainStrands_idle _ ((s.releaseStalled_writes.strands_eq rfl).trans h))

/-- Settles O36: the engines of the Depot row by row, and the requests that the journal holds up. -/
theorem depotEngines : Obligations.DepotEngines := by
  intro s
  refine ⟨zeroPageCleared_clears s, migrationCopyDone_notes s, fun page m hm htries => migrationAbandon_gives_up s hm htries,
    fun m x hm hidle hx => ⟨fun hneed hfull => ?_, fun hqueued hraw hroom => ?_⟩⟩
  · exact ⟨_, journalStallRelease_releases s hidle, s.releaseStalled_full hm hx hneed hfull⟩
  · exact ⟨_, journalStallRelease_releases s hidle, s.releaseStalled_room hm hx hqueued hraw hroom⟩

end Sys2Proof.Machine
end

section
/-! SUPPORT. The admin commands on an entry that is the next of queue 0 (R57, R169, R224, R382, R383, R389). -/
namespace Sys2Proof.Machine
open Sys2Proof

/-- An entry is the next admin command of its tenant. -/
structure State.AdminNext (s : State) (e : Entry) : Prop where
  qid : e.qid = 0
  next : s.entryNext e = true

/-! ## Which command acts -/

theorem State.onAdmin_next {s : State} {e : Entry} (h : s.AdminNext e) {op : Nat} (hop : entOpcode e = op) (f : State → State) :
    s.onAdmin e op f = .next (f s) := by
  simp [State.onAdmin, h.qid, h.next, hop]

theorem State.onGrant_next {s : State} {e : Entry} (h : s.AdminNext e) (hop : entOpcode e = 0x14) {o : Nat}
    (ho : fld (entW e 4) 63 56 = o) (h1 : 1 ≤ o) (h5 : o ≤ 5) (f : State → State) : s.onGrant e o f = .next (f s) := by
  rw [State.onGrant, State.onAdmin_next h hop]
  dsimp only
  rw [ho, if_neg (by omega), if_pos rfl]

theorem State.onQos_next {s : State} {e : Entry} (h : s.AdminNext e) (hop : entOpcode e = 0x15) {o : Nat}
    (ho : fld (entW e 1) 63 56 = o) (h1 : 1 ≤ o) (h3 : o ≤ 3) (f : State → State) : s.onQos e o f = .next (f s) := by
  rw [State.onQos, State.onAdmin_next h hop]
  dsimp only
  rw [ho, if_neg (by omega), if_pos rfl]

theorem State.onLog_next {s : State} {e : Entry} (h : s.AdminNext e) (hop : entOpcode e = 0x16) {p : Nat}
    (hp : fld (entW e 1) 7 0 = p) (h1 : 1 ≤ p) (h3 : p ≤ 3) (hb : logBufferOk e = true) (hr : s.logRoom e = true)
    (f : State → State) : s.onLog e p f = .next (f s) := by
  rw [State.onLog, State.onAdmin_next h hop]
  dsimp only
  rw [hp, if_neg (by omega), if_neg (by simp), if_neg (by simp [hb]), if_neg (by simp [hr])]

/-! ## Queues -/

theorem State.createWq_ok (s : State) (e : Entry) (hf : newQueueFaults e (s.wq? e.tenant (newQid e)).isSome = [])
    (hcq : (s.cq? e.tenant (fld (entW e 3) 7 0)).isSome = true)
    (hn : queuesOf s.host.wqs e.tenant < s.onum (tobj 0x9000 e.tenant) 3) (hl : s.host.wqs.length < 1024) :
    s.createWq e = ({ s with host := { s.host with
      wqs := s.host.wqs.put (qkey e.tenant (newQid e))
        (WQ.fresh (entW e 1) (fld (entW e 2) 7 0) (entW e 4) (fld (entW e 3) 7 0) s.host.nextQueueNo)
      nextQueueNo := s.host.nextQueueNo + 1 } } : State).adminDone e stOk 0 := by
  simp only [State.createWq, hf, hcq, hn, hl, mustQ, decide_true, Bool.and_self, if_true, List.append_nil, List.isEmpty_nil,
    Bool.not_true, Bool.false_eq_true, if_false]
  rfl

theorem State.createCq_ok (s : State) (e : Entry) (hf : newQueueFaults e (s.cq? e.tenant (newQid e)).isSome = [])
    (hn : queuesOf s.host.cqs e.tenant < s.onum (tobj 0x9000 e.tenant) 3) (hl : s.host.cqs.length < 1024) :
    s.createCq e = ({ s with host := { s.host with
      cqs := s.host.cqs.put (qkey e.tenant (newQid e)) (CQ.fresh (entW e 1) (fld (entW e 2) 7 0) (entW e 4)
        (fld (entW e 3) 5 0) (fld (entW e 3) 31 16) (fld (entW e 3) 47 32) s.host.nextQueueNo)
      nextQueueNo := s.host.nextQueueNo + 1 } } : State).adminDone e stOk 0 := by
  simp only [State.createCq, hf, hn, hl, mustQ, decide_true, Bool.and_self, if_true, List.append_nil, List.isEmpty_nil,
    Bool.not_true, Bool.false_eq_true, if_false]
  rfl

theorem State.deleteWq_ok (s : State) (e : Entry) (h1 : 1 ≤ newQid e) (h2 : newQid e ≤ 255) {w : WQ}
    (hw : s.wq? e.tenant (newQid e) = some w) : s.deleteWq e =
      if s.host.fetched.any (fun x => x.tenant == e.tenant && x.qid == newQid e)
        then s.putWq e.tenant (newQid e) { w with closing := true }
        else ({ s with host := { s.host with wqs := s.host.wqs.del (qkey e.tenant (newQid e)) } } : State).adminDone e stOk 0 := by
  simp only [State.deleteWq, if_neg (show ¬ (newQid e = 0 ∨ 255 < newQid e) by omega), hw]

theorem State.deleteCq_ok (s : State) (e : Entry) (h1 : 1 ≤ newQid e) (h2 : newQid e ≤ 255) {c : CQ}
    (hc : s.cq? e.tenant (newQid e) = some c) (hd : c.due = [])
    (hw : ∀ p ∈ s.host.wqs, p.1 / 256 = e.tenant → p.2.cq ≠ newQid e) : s.deleteCq e =
      ({ s with host := { s.host with cqs := s.host.cqs.del (qkey e.tenant (newQid e)) } } : State).adminDone e stOk 0 := by
  have hany : s.host.wqs.any (fun p => p.1 / 256 == e.tenant && p.2.cq == newQid e) = false := by
    simpa using hw
  simp only [State.deleteCq, if_neg (show ¬ (newQid e = 0 ∨ 255 < newQid e) by omega), hc, hd, hany, List.isEmpty_nil]
  rfl

/-! ## GRANT_DEPOT -/

theorem State.grantSpill_spills {s u : State} {t a b : Nat} (h : s.grantSpill t a b = .ok u) :
    u.depot.spills = s.depot.spills ++ [{ tenant := t, addr := a, len := b }] := by
  unfold State.grantSpill at h
  extract_lets faults at h
  clear_value faults
  split at h
  · cases h
  · cases h
    rfl

theorem State.revokeSpill_spills {s u : State} {t a b : Nat} (h : s.revokeSpill t a b = .ok u) :
    (∀ r ∈ u.depot.spills, r ∈ s.depot.spills) ∧ u.depot.spills.length < s.depot.spills.length := by
  unfold State.revokeSpill at h
  split at h
  · cases h
  next r hr =>
    extract_lets faults at h
    clear_value faults
    split at h
    · cases h
    · cases h
      have hmem := List.mem_of_find?_eq_some hr
      refine ⟨fun x hx => List.mem_of_mem_erase hx, ?_⟩
      have hlen := List.length_erase_of_mem hmem
      have hpos := List.length_pos_of_mem hmem
      dsimp only
      omega

theorem State.openOutput_makes {s u : State} {t a b h : Nat} (ho : s.openOutput t a b = .ok (h, u)) :
    ∃ o d, u.dobj? o = some d ∧ d.cls = clsOutput ∧ d.pages = [] ∧ h = mkHandle t clsOutput (o % 65536) 0 := by
  unfold State.openOutput at ho
  split at ho
  · cases ho
  next o v hv =>
    split at ho
    · cases ho
    · cases ho
      unfold State.newObj at hv
      split at hv
      · cases hv
        exact ⟨_, _, SMap.find_put_same .., rfl, rfl, rfl⟩
      · cases hv

theorem State.closeOutput_ok (s : State) {t h o : Nat} {d : DObj} (ho : s.handleObj h t = some (o, d)) (hc : d.cls = clsOutput)
    (hoff : hOff h = 0) (hopen : s.handleOpen h = false) : s.closeOutput t h 0 = .ok (s.freeObj o) := by
  simp [State.closeOutput, ho, hc, hoff, hopen]

/-! ## SET_QOS and GET_LOG -/

theorem State.setWeight_ok (s : State) (e : Entry) (h1 : 1 ≤ entW e 2) (h2 : entW e 2 ≤ 255)
    (hmax : entW e 2 ≤ s.onum (tobj 0x9030 e.tenant) 2) (hrun : s.pitch.running = true) :
    s.setWeight e = ({ s with sched := { s.sched with
      weightAsked := s.sched.weightAsked.put e.tenant (entW e 2) } } : State).adminDone e stOk 0 := by
  unfold State.setWeight
  dsimp only
  rw [if_neg (by omega), if_neg (by omega), if_pos hrun]

theorem State.logStart_ok (s : State) (e : Entry) (href : hostRefOk (entW e 2) 4096 = true) (h7 : 7 ≤ fld (entW e 3) 7 0)
    (h20 : fld (entW e 3) 7 0 ≤ 20) (hrun : s.pitch.running = true) :
    s.logStart e = ({ s with host := { s.host with
      logAsked := s.host.logAsked.put e.tenant { ring := refAddr (entW e 2), logRecords := fld (entW e 3) 7 0, count := 0
                                                 active := true } } } : State).adminDone e stOk 0 := by
  unfold State.logStart
  dsimp only
  rw [if_neg (by simp only [href, Bool.true_eq_false, false_or]; omega), if_pos hrun]

theorem State.errorPage_all (s : State) (e : Entry) (h : 64 * ((s.err.views.find e.tenant).getD []).length ≤ entW e 3) :
    let u := s.givePage e (((s.err.views.find e.tenant).getD []).flatMap ErrRec.bytes)
    s.errorPage e = { u with err := { u.err with views := u.err.views.del e.tenant } } := by
  have hdrop : (((s.err.views.find e.tenant).getD []).drop (entW e 3 / 64)).isEmpty = true := by
    rw [List.isEmpty_iff, List.drop_eq_nil_iff]
    omega
  unfold State.errorPage
  dsimp only
  rw [if_pos hdrop]

theorem State.freePageOf_gives (s : State) (e : Entry) :
    ∃ n b, s.freePageOf e = ({ s with freeCount := n } : State).givePage e b := ⟨_, _, rfl⟩

/-! ## LOAD_CAIRN -/

/-- The tenant's place in its Cairn list forgotten, as a list that runs has it. -/
def State.takeListAt (s : State) (t : Nat) : State := { s with cairn := { s.cairn with listAt := s.cairn.listAt.del t } }

theorem State.cairnCommands_takeListAt (s : State) (t' t a n : Nat) :
    (s.takeListAt t').cairnCommands t a n = s.cairnCommands t a n := by
  induction n generalizing a with
  | zero => rfl
  | succ n ih =>
    have hread : (s.takeListAt t').hostRead t a 64 = s.hostRead t a 64 := rfl
    simp only [State.cairnCommands, ih, hread]

/-- A list that can be read runs from the place that the tenant had reached. -/
theorem State.loadCairn_reads (s : State) (e : Entry) (hst : s.sys.state ≠ .retreat) (href : hostRefOk (entW e 1) 64 = true)
    (h1 : 1 ≤ fld (entW e 2) 15 0) (h2 : fld (entW e 2) 15 0 ≤ 4096) {l : List (List Byte)}
    (hl : s.cairnCommands e.tenant (refAddr (entW e 1)) (fld (entW e 2) 15 0) = (l, none)) :
    s.loadCairn e = (match (s.takeListAt e.tenant).cairnList e.tenant ((s.cairn.listAt.find e.tenant).getD 0)
        (l.drop ((s.cairn.listAt.find e.tenant).getD 0)) with
      | .fail u st i => (u.settleAsk e.tenant 0 (fun x => x == clsShadow)).adminDone e st i
      | .ask u i m => ({ u with cairn := { u.cairn with listAt := u.cairn.listAt.put e.tenant i } } : State).askPage m
      | .done u => (u.settleAsk e.tenant 0 (fun x => x == clsShadow)).adminDone e stOk (fld (entW e 2) 15 0)) := by
  have hl' : (s.takeListAt e.tenant).cairnCommands e.tenant (refAddr (entW e 1)) (fld (entW e 2) 15 0) = (l, none) :=
    (s.cairnCommands_takeListAt ..).trans hl
  unfold State.loadCairn
  extract_lets n at_ _ v c done
  have hv : ¬ v.sys.state = .retreat := hst
  have hc : c = (l, none) := hl'
  rw [if_neg hv, if_neg (by simp only [href, Bool.true_eq_false, false_or]; omega), hc]
  rfl

/-! ## The rows, by opcode -/

theorem createWq_row {s : State} {e : Entry} (h : s.AdminNext e) (hop : entOpcode e = 0x10) :
    exec (.createWq e) s = .next (s.createWq e) := State.onAdmin_next h hop (fun s => s.createWq e)

theorem createCq_row {s : State} {e : Entry} (h : s.AdminNext e) (hop : entOpcode e = 0x12) :
    exec (.createCq e) s = .next (s.createCq e) := State.onAdmin_next h hop (fun s => s.createCq e)

theorem deleteWq_row {s : State} {e : Entry} (h : s.AdminNext e) (hop : entOpcode e = 0x11) :
    exec (.deleteWq e) s = .next (s.deleteWq e) := State.onAdmin_next h hop (fun s => s.deleteWq e)

theorem deleteCq_row {s : State} {e : Entry} (h : s.AdminNext e) (hop : entOpcode e = 0x13) :
    exec (.deleteCq e) s = .next (s.deleteCq e) := State.onAdmin_next h hop (fun s => s.deleteCq e)

theorem setQuota_row {s : State} {e : Entry} (h : s.AdminNext e) (hop : entOpcode e = 0x14) (ho : fld (entW e 4) 63 56 = 1)
    (h5 : entW e 5 % 2 ^ 21 = 0) (h6 : entW e 6 = 0) (hmax : entW e 5 ≤ s.onum (tobj 0x9020 e.tenant) 1) :
    exec (.setQuota e) s = .next ((s.oset (tobj 0x9020 e.tenant) 2 (entW e 5)).adminDone e stOk 0) := by
  have hok : s.setQuota e.tenant (entW e 5) (entW e 6) = .ok (s.oset (tobj 0x9020 e.tenant) 2 (entW e 5)) := by
    have hmib : entW e 5 % mib2 = 0 := h5
    simp [State.setQuota, hmib, h6, Nat.not_lt.mpr hmax]
  rw [exec_setQuota, execSetQuota, State.onGrant_next h hop ho (by omega) (by omega), hok]
  rfl

theorem grantSpill_row {s u : State} {e : Entry} (h : s.AdminNext e) (hop : entOpcode e = 0x14) (ho : fld (entW e 4) 63 56 = 2)
    (hu : s.grantSpill e.tenant (entW e 5) (entW e 6) = .ok u) : exec (.grantSpill e) s = .next (u.adminDone e stOk 0) := by
  rw [exec_grantSpill, execGrantSpill, State.onGrant_next h hop ho (by omega) (by omega), hu]
  rfl

theorem revokeSpill_row {s u : State} {e : Entry} (h : s.AdminNext e) (hop : entOpcode e = 0x14) (ho : fld (entW e 4) 63 56 = 3)
    (hu : s.revokeSpill e.tenant (entW e 5) (entW e 6) = .ok u) : exec (.revokeSpill e) s = .next (u.adminDone e stOk 0) := by
  rw [exec_revokeSpill, execRevokeSpill, State.onGrant_next h hop ho (by omega) (by omega), hu]
  rfl

theorem openOutput_row {s u : State} {e : Entry} {v : Nat} (h : s.AdminNext e) (hop : entOpcode e = 0x14)
    (ho : fld (entW e 4) 63 56 = 4) (hu : s.openOutput e.tenant (entW e 5) (entW e 6) = .ok (v, u)) :
    exec (.openOutput e) s = .next (u.adminDone e stOk v) := by
  rw [exec_openOutput, execOpenOutput, State.onGrant_next h hop ho (by omega) (by omega), hu]

theorem closeOutput_row {s : State} {e : Entry} {o : Nat} {d : DObj} (h : s.AdminNext e) (hop : entOpcode e = 0x14)
    (ho : fld (entW e 4) 63 56 = 5) (h6 : entW e 6 = 0) (hobj : s.handleObj (entW e 5) e.tenant = some (o, d))
    (hc : d.cls = clsOutput) (hoff : hOff (entW e 5) = 0) (hopen : s.handleOpen (entW e 5) = false) :
    exec (.closeOutput e) s = .next ((s.freeObj o).adminDone e stOk 0) := by
  rw [exec_closeOutput, execCloseOutput, State.onGrant_next h hop ho (by omega) (by omega), h6,
    s.closeOutput_ok hobj hc hoff hopen]
  rfl

theorem setWeight_row {s : State} {e : Entry} (h : s.AdminNext e) (hop : entOpcode e = 0x15) (ho : fld (entW e 1) 63 56 = 1) :
    exec (.setWeight e) s = .next (s.setWeight e) :=
  State.onQos_next h hop ho (by omega) (by omega) (fun s => s.setWeight e)

theorem logStart_row {s : State} {e : Entry} (h : s.AdminNext e) (hop : entOpcode e = 0x15) (ho : fld (entW e 1) 63 56 = 2) :
    exec (.logStart e) s = .next (s.logStart e) :=
  State.onQos_next h hop ho (by omega) (by omega) (fun s => s.logStart e)

theorem logStop_row {s : State} {e : Entry} (h : s.AdminNext e) (hop : entOpcode e = 0x15) (ho : fld (entW e 1) 63 56 = 3) :
    exec (.logStop e) s = .next (s.logStop e) :=
  State.onQos_next h hop ho (by omega) (by omega) (fun s => s.logStop e)

theorem getLog_rows {s : State} {e : Entry} (h : s.AdminNext e) (hop : entOpcode e = 0x16) (hb : logBufferOk e = true)
    (hr : s.logRoom e = true) :
    (fld (entW e 1) 7 0 = 1 → exec (.getLogErrorRecords e) s = .next (s.errorPage e)) ∧
    (fld (entW e 1) 7 0 = 2 → exec (.getLogCounters e) s = .next (s.freePageOf e)) ∧
    (fld (entW e 1) 7 0 = 3 → exec (.getLogOpenRoutes e) s = .next (s.freePageOf e)) :=
  ⟨fun hp => State.onLog_next h hop hp (by omega) (by omega) hb hr (fun s => s.errorPage e),
    fun hp => State.onLog_next h hop hp (by omega) (by omega) hb hr (fun s => s.freePageOf e),
    fun hp => State.onLog_next h hop hp (by omega) (by omega) hb hr (fun s => s.freePageOf e)⟩

theorem loadCairn_row {s : State} {e : Entry} (h : s.AdminNext e) (hop : entOpcode e = 0x18) :
    exec (.loadCairn e) s = .next (s.loadCairn e) := State.onAdmin_next h hop (fun s => s.loadCairn e)

/-- ABORT_ROUTE on a route that is not open, and on one that is. -/
theorem abortRoute_rows {s : State} {e : Entry} (h : s.AdminNext e) (hop : entOpcode e = 0x17) :
    let k : RouteKey := { tenant := e.tenant, id := fld (entW e 1) 31 0, home := s.sys.deviceId }
    let done (u : State) (st : Nat) : State :=
      ((u.dropFetched e).finishEntry e { entryRecord e st 0 with routeId := fld (entW e 1) 31 0 }).settleAdmin e.tenant
        u.host.fetched.length
    (s.route? k = none → exec (.abortRoute e) s = .next (done s stRouteUnknown)) ∧
    ∀ r, s.route? k = some r → r.finalDue = false → exec (.abortRoute e) s = .next (done (s.updRoute k (fun r => { r with
      aborts := r.aborts ++ [(stAbortedByHost, if s.pitch.decisionDone then s.pitch.number + 1 else s.pitch.number)] })) stOk) := by
  have hrow : exec (.abortRoute e) s = .next (s.abortRoute e) :=
    State.onAdmin_next h hop (fun s => s.abortRoute e)
  intro k done
  rw [hrow]
  have habort : s.abortRoute e = (match s.route? k with
    | none => done s stRouteUnknown
    | some r => if r.finalDue then done s stOk else done (s.askAbort k stAbortedByHost) stOk) := rfl
  rw [habort]
  refine ⟨fun hr => by rw [hr], fun r hr hd => ?_⟩
  rw [hr]
  dsimp only
  rw [if_neg (by simp [hd])]
  rfl

/-- Settles O38: each admin command under the conditions that let it act, by its opcode and its operation. -/
theorem adminCommands : Obligations.AdminCommands := by
  intro s e hq hnext t q
  have h : s.AdminNext e := ⟨hq, hnext⟩
  refine ⟨fun hop hf hcq hn hl => ?_, fun hop hf hn hl => ?_, fun hop h1 h2 w hw => ?_, fun hop h1 h2 c hc hd hw => ?_,
    fun hop => ⟨fun ho h5 h6 hmax => setQuota_row h hop ho h5 h6 hmax,
      fun ho u hu => ⟨State.grantSpill_spills hu, grantSpill_row h hop ho hu⟩,
      fun ho u hu => ?_, fun ho v u hu => ⟨State.openOutput_makes hu, openOutput_row h hop ho hu⟩,
      fun ho h6 o d hobj hc hoff hopen => closeOutput_row h hop ho h6 hobj hc hoff hopen⟩,
    fun hop => ⟨fun ho h1 h2 hmax hrun => ?_, fun ho href h7 h20 hrun => ?_, fun ho => logStop_row h hop ho⟩,
    fun hop hb hr => ?_, fun hop => abortRoute_rows h hop, fun hop hst href h1 h2 l hl => ?_⟩
  · rw [createWq_row h hop, s.createWq_ok e hf hcq hn hl]
  · rw [createCq_row h hop, s.createCq_ok e hf hn hl]
  · rw [deleteWq_row h hop, s.deleteWq_ok e h1 h2 hw]
  · rw [deleteCq_row h hop, s.deleteCq_ok e h1 h2 hc hd hw]
  · obtain ⟨hsub, hlen⟩ := State.revokeSpill_spills hu
    exact ⟨hsub, hlen, revokeSpill_row h hop ho hu⟩
  · rw [setWeight_row h hop ho, s.setWeight_ok e h1 h2 hmax hrun]
  · rw [logStart_row h hop ho, s.logStart_ok e href h7 h20 hrun]
  · obtain ⟨herr, hcount, hroutes⟩ := getLog_rows h hop hb hr
    obtain ⟨n, b, hgive⟩ := s.freePageOf_gives e
    refine ⟨fun hp hlen => ?_, fun hp => ⟨n, b, ?_⟩, fun hp => ⟨n, b, ?_⟩⟩
    · rw [herr hp, s.errorPage_all e hlen]
    · rw [hcount hp, hgive]
    · rw [hroutes hp, hgive]
  · intro i v
    have hload := s.loadCairn_reads e hst href h1 h2 hl
    refine ⟨fun u hu => ?_, fun u st j hu => ?_⟩
    · rw [loadCairn_row h hop, hload]
      rw [show (s.takeListAt e.tenant).cairnList e.tenant i (l.drop i) = .done u from hu]
    · rw [loadCairn_row h hop, hload]
      rw [show (s.takeListAt e.tenant).cairnList e.tenant i (l.drop i) = .fail u st j from hu]

end Sys2Proof.Machine
end

section
/-! SUPPORT. A cleared page's notes: the zeroing engine drops the corrections noted in the page with its other marks (R219, R433). -/
namespace Sys2Proof.Machine
open Sys2Proof

/-- A page of the Depot region that waits for the zeroing engine, a correction noted in its first line. -/
def notedPage : State :=
  { State.reset with
    depot := { State.reset.depot with zeroQueue := [{ tier := 1, addr := 0, size := 64 }] }
    dram := { State.reset.dram with noted := [(0, ())] } }

/-- The corrections noted in memory after a command that answers. -/
def notedAfter : Res → SMap Unit
  | .next t => t.dram.noted
  | _ => []

/-- The engine clears the page's noted correction with the page. -/
theorem notedAfter_zeroPageCleared : notedAfter (exec .zeroPageCleared notedPage) = [] := by decide

/-- Refutes O60: in its row of the zeroing engine only the poison marks and the raw lines of the cleared page go, so a
correction noted in the page would stay; the engine drops it too. -/
theorem not_blockRowsComplete : ¬ Obligations.BlockRowsComplete := by
  intro h
  obtain ⟨-, -, hzero, -⟩ := h notedPage
  have hnoted := congrArg notedAfter (hzero rfl _ _ rfl)
  rw [notedAfter_zeroPageCleared] at hnoted
  cases hnoted

end Sys2Proof.Machine
end

section
/-! SUPPORT. A route entry that is the next of its queue: what its submission checks and what its admission leaves (R86, R117, R143,
R497). -/
namespace Sys2Proof.Machine
open Sys2Proof

/-! ## What the admission of a route leaves -/

/-- Widths are those of the tenant's tables at that time (R143). -/
theorem State.cairnWidths_tableOf (s : State) (tenant : Nat) (consts : List FConst) :
    ∀ x ∈ s.cairnWidths tenant consts, (s.tableOf tenant x.1).map (fun t => t.width) = some x.2 := by
  intro x hx
  obtain ⟨c, -, hc⟩ := List.mem_filterMap.mp hx
  obtain ⟨t, ht, rfl⟩ := Option.map_eq_some_iff.mp hc
  exact congrArg (Option.map fun t => t.width) ht

theorem State.addRoute_routes (s : State) (r : Route) :
    ∃ consts, (s.addRoute r).routes = s.routes ++ [{ r with widths := s.cairnWidths r.key.tenant consts }] := ⟨_, rfl⟩

theorem State.hostWrite_fetched (s : State) (t a : Nat) (bs : List Byte) :
    (s.hostWrite t a bs).host.fetched = s.host.fetched := by
  unfold State.hostWrite
  split <;> rfl

theorem State.writeLogs_fetched (s : State) : s.writeLogs.host.fetched = s.host.fetched := by
  have hwrites (l : List (Nat × Nat × List Byte)) (t : State) :
      (l.foldl (fun s e => s.hostWrite e.1 e.2.1 e.2.2) t).host.fetched = t.host.fetched := by
    induction l generalizing t with
    | nil => rfl
    | cons e l ih => exact (ih _).trans (t.hostWrite_fetched ..)
  unfold State.writeLogs
  split
  · rfl
  · exact hwrites _ _

theorem State.logEvent_fetched (s : State) (k : RouteKey) (prio stage ridge unit event seq : Nat) :
    (s.logEvent k prio stage ridge unit event seq).host.fetched = s.host.fetched := by
  unfold State.logEvent
  split
  · rfl
  · split
    · rfl
    · split
      · rfl
      · exact State.writeLogs_fetched _

/-- The route that an entry opens, before its tables' widths are known. -/
def State.entryRoute (s : State) (e : Entry) (d : RouteDesc) (copy : List Byte) : Route :=
  { Route.fresh { tenant := e.tenant, id := d.routeId, home := s.sys.deviceId } d copy s.sched.nextOrder s.pitch.number s.timeNs with
    qid := e.qid, cid := entCid e, cqid := (s.entryCq e).getD 0 }

theorem State.admitRoute_eq (s : State) (e : Entry) (d : RouteDesc) (copy : List Byte) :
    s.admitRoute e d copy = ((s.addRoute (s.entryRoute e d copy)).logEvent
      { tenant := e.tenant, id := d.routeId, home := s.sys.deviceId } d.priority 0 0 15 0x0 0).openAtPeers
        (s.entryRoute e d copy) := rfl

theorem State.admitRoute_routes (s : State) (e : Entry) (d : RouteDesc) (copy : List Byte) :
    ∃ consts, (s.admitRoute e d copy).routes =
      s.routes ++ [{ s.entryRoute e d copy with widths := s.cairnWidths e.tenant consts }] := by
  obtain ⟨consts, hroutes⟩ := s.addRoute_routes (s.entryRoute e d copy)
  refine ⟨consts, ?_⟩
  rw [State.admitRoute_eq, (State.openAtPeers_writes ..).routes_eq rfl, (State.logEvent_writes ..).routes_eq rfl, hroutes]
  rfl

theorem State.admitRoute_fetched (s : State) (e : Entry) (d : RouteDesc) (copy : List Byte) :
    (s.admitRoute e d copy).host.fetched = s.host.fetched := by
  rw [State.admitRoute_eq, (State.openAtPeers_writes ..).host_eq rfl rfl, State.logEvent_fetched,
    (State.addRoute_writes ..).host_eq rfl rfl]

/-! ## What a submission does -/

theorem State.onEntry_next {s : State} {e : Entry} {op : Nat} (hnext : s.entryNext e = true) (hop : entOpcode e = op)
    (f : State → State) : s.onEntry e op f = .next (f s) := by
  simp [State.onEntry, hnext, hop]

theorem submitRoute_row {s : State} {e : Entry} (hnext : s.entryNext e = true) (hop : entOpcode e = opSubmit) :
    exec (.submitRoute e) s = .next (s.submitRoute e) := State.onEntry_next hnext hop (fun s => s.submitRoute e)

theorem State.submitRoute_retreat {s : State} {e : Entry} (hst : s.sys.state = .retreat) {b : List Byte}
    (hb : s.descSource e 128 = .ok b) :
    s.submitRoute e = (s.dropFetched e).refuseRoute e stRetreat (emptyDesc (headerOf b) e.tenant) := by
  unfold State.submitRoute
  rw [if_pos hst, hb]

/-- An entry whose reference is good is decided by what the admission finds. -/
theorem State.submitRoute_checked {s : State} {e : Entry} (hst : s.sys.state = .operational)
    (href : entInline e = true ∨ (entW e 1 ≠ 0 ∧ refOk (entW e 1) 64 false = true)) {a : AdmitRes}
    (ha : s.admitCheck e.tenant (s.descSource e) = .ok a) :
    s.submitRoute e = if a.statuses.isEmpty then (s.dropFetched e).admitRoute e a.desc a.copy
      else (s.dropFetched e).refuseRoute e (pickStatus a.statuses) a.desc := by
  have hgood : (!entInline e && (entW e 1 == 0 || !refOk (entW e 1) 64 false)) = false := by
    rcases href with hin | ⟨hnull, hok⟩
    · simp [hin]
    · simp [hnull, hok]
  unfold State.submitRoute
  rw [if_neg (by simp [hst]), if_neg (by simp [hst]), if_neg (by simp [hgood]), ha]

/-- Settles O39: admission decides an operational device's entry, by whether any status was found; RETREAT refuses it. -/
theorem routeSubmission : Obligations.RouteSubmission := by
  intro s e hnext hop
  rw [submitRoute_row hnext hop]
  refine ⟨fun hst href a ha => ⟨fun hnone => ?_, fun hsome => ?_⟩, fun hst b hb => ?_⟩
  · obtain ⟨consts, hroutes⟩ := (s.dropFetched e).admitRoute_routes e a.desc a.copy
    rw [State.submitRoute_checked hst href ha, if_pos (by simp [hnone])]
    exact ⟨_, (s.dropFetched e).cairnWidths e.tenant consts, rfl, (s.dropFetched e).admitRoute_fetched ..,
      (s.dropFetched e).cairnWidths_tableOf e.tenant consts, hroutes⟩
  · rw [State.submitRoute_checked hst href ha, if_neg (by simp [hsome])]
  · rw [State.submitRoute_retreat hst hb]

end Sys2Proof.Machine
end

section
/-! SUPPORT. The filter machine: what a row leaves of its context, what a mask of slots holds, and which slots filter arithmetic
computes (R132, R137, R138, R141). -/
namespace Sys2Proof.Machine
open Sys2Proof

/-! ## A row that runs -/

/-- A machine put into a context stands there, and nothing else changes. -/
theorem filterRan_put (s : State) (c : ScnCtx) (m : FilterMachine) :
    FilterRan s { s with scn := s.scn.put (c.ridge * 8 + c.ctx) m } c m := by
  refine ⟨SMap.find_put_same .., fun c' hc' => SMap.find_put_other _ _ hc', .mk fun f hf => ?_⟩
  cases f
  case scn => exact absurd (List.mem_singleton_self _) hf
  all_goals rfl

theorem State.filterRow_ran {s : State} {c : ScnCtx} {m m' : FilterMachine} (f : FilterMachine → State → FRes)
    (hm : s.filterAt c = some m) (hf : f m s = .ok s m') : ∃ u, s.filterRow c f = .next u ∧ FilterRan s u c m' := by
  refine ⟨_, ?_, filterRan_put s c m'⟩
  unfold State.filterAt at hm
  simp only [State.filterRow, hm, hf]

/-! ## Masks slot by slot (R132, R137, R138) -/

/-- A test of two values in one slot: UNKNOWN where the slot is unselected or an operand is null. -/
def testBoth (f : Val → Val → Bool) : Bool × Slot × Slot → Tri
  | (true, some v, some w) => if f v w then .t else .f
  | _ => .u

theorem FilterMachine.maskOf2_cmpSlot (m : FilterMachine) (op ta tb : Nat) (a b : ColReg) :
    m.maskOf2 (cmpSlot op ta tb) a b =
      (List.zip m.sel (List.zip a.slots b.slots)).map (testBoth (cmpVal op ta tb)) := by
  refine List.map_congr_left fun p _ => ?_
  obtain ⟨_ | _, _ | v, _ | w⟩ := p <;> rfl

theorem FilterMachine.compare_eq {m : FilterMachine} {x : FArgs} {a b : ColReg} (s : State) (op : Nat)
    (ha : m.col? x.a = some a) (hb : m.second x false = some b) :
    m.compare s op x = .ok s (m.setMask x.d
      ((List.zip m.sel (List.zip a.slots b.slots)).map (testBoth (cmpVal op a.ty b.ty)))) := by
  simp only [FilterMachine.compare, ha, hb, FilterMachine.maskOf2_cmpSlot]

/-- BETWEEN is GE with the lower bound AND LE with the upper. -/
theorem FilterMachine.between_eq {m : FilterMachine} {x : FArgs} {a lo hi : ColReg} (s : State)
    (ha : m.col? x.a = some a) (hlo : m.second x false = some lo)
    (hhi : (if x.k then m.constReg (x.imm + 1) false else m.col? x.g) = some hi) :
    m.between s x = .ok s (m.setMask x.d (List.zipWith Tri.and
      ((List.zip m.sel (List.zip a.slots lo.slots)).map (testBoth (cmpVal 0x15 a.ty lo.ty)))
      ((List.zip m.sel (List.zip a.slots hi.slots)).map (testBoth (cmpVal 0x13 a.ty hi.ty))))) := by
  simp only [FilterMachine.between, ha, hlo, hhi, FilterMachine.maskOf2_cmpSlot]

/-- ISNULL in one slot. -/
def testNull (p : Bool × Slot) : Tri := if p.1 then (if p.2 = none then .t else .f) else .u

theorem FilterMachine.isNull_eq {m : FilterMachine} {x : FArgs} {a : ColReg} (s : State) (ha : m.col? x.a = some a) :
    m.isNull s x = .ok s (m.setMask x.d ((List.zip m.sel a.slots).map testNull)) := by
  have hmask : m.maskOf (fun v => Tri.ofBool v.isNone) a = (List.zip m.sel a.slots).map testNull := by
    refine List.map_congr_left fun p _ => ?_
    obtain ⟨_ | _, _ | v⟩ := p <;> rfl
  simp only [FilterMachine.isNull, ha, hmask]

/-- INLIST in one slot: a value outside a list with a null is UNKNOWN. -/
def testList (inList : Val → Bool) (hasNull : Bool) : Bool × Slot → Tri
  | (true, some v) => if inList v then .t else if hasNull then .u else .f
  | _ => .u

theorem FilterMachine.inList_eq {m : FilterMachine} {x : FArgs} {a : ColReg} {k : FConst} (s : State)
    (ha : m.col? x.a = some a) (hk : m.consts[x.imm]? = some k) :
    m.inList s x = .ok s (m.setMask x.d ((List.zip m.sel a.slots).map
      (testList (fun v => (k.listVals a.width).any (fun w => valEq a.ty k.ty v w)) k.hasNull))) := by
  simp only [FilterMachine.inList, ha, hk]
  congr 2
  refine List.map_congr_left fun p _ => ?_
  obtain ⟨_ | _, _ | v⟩ := p <;> rfl

theorem FilterMachine.ldcol_eq {m : FilterMachine} {x : FArgs} {a : ColReg} (s : State) (ha : m.inputs[x.imm]? = some a) :
    m.ldcol s x = .ok s (m.setCol x.d a) := by
  simp only [FilterMachine.ldcol, ha]

/-- Settles O27: each row runs on its context's machine, and its mask is the row's test slot by slot. -/
theorem filterComparisons : Obligations.FilterComparisons := by
  intro s c x m hm
  refine ⟨fun a b ha hb => ⟨?_, fun hi hhi =>
      State.filterRow_ran (fun m s => m.between s x) hm (FilterMachine.between_eq s ha hb hhi)⟩,
    fun a ha => ⟨State.filterRow_ran (fun m s => m.isNull s x) hm (FilterMachine.isNull_eq s ha), fun k hk =>
      State.filterRow_ran (fun m s => m.inList s x) hm (FilterMachine.inList_eq s ha hk)⟩,
    fun a ha => State.filterRow_ran (fun m s => m.ldcol s x) hm (FilterMachine.ldcol_eq s ha)⟩
  have hrow (op : Nat) : ∃ u, s.filterRow c (fun m s => m.compare s op x) = .next u ∧ FilterRan s u c (m.setMask x.d
      ((List.zip m.sel (List.zip a.slots b.slots)).map (testBoth (cmpVal op a.ty b.ty)))) :=
    State.filterRow_ran _ hm (FilterMachine.compare_eq s op ha hb)
  simp only [List.forall_mem_cons]
  exact ⟨hrow 0x10, hrow 0x11, hrow 0x12, hrow 0x13, hrow 0x14, hrow 0x15, List.forall_mem_nil _⟩

/-! ## Computed slots (R141) -/

theorem mapM_eq_some_iff {α β : Type} (f : α → Option β) (l : List α) (k : List β) :
    l.mapM f = some k ↔ l.map f = k.map some := by
  induction l generalizing k with
  | nil => cases k <;> simp
  | cons x l ih =>
    cases k with
    | nil => cases f x <;> simp [Option.bind_eq_some_iff]
    | cons y k => simp [Option.bind_eq_some_iff, ih]

theorem mapM_eq_none_iff {α β : Type} (f : α → Option β) (l : List α) : l.mapM f = none ↔ ∃ x ∈ l, f x = none := by
  induction l with
  | nil => simp
  | cons x l ih =>
    rw [List.mapM_cons, List.exists_mem_cons_iff, ← ih]
    cases f x <;> cases l.mapM f <;> simp

/-- What an instruction of two operands reads in each slot: the selection, the guard and the two values. -/
def FilterMachine.operands (m : FilterMachine) (x : FArgs) (a b : List Slot) : List ((Bool × Bool) × Slot × Slot) :=
  List.zip (List.zip m.sel (m.guardAt x)) (List.zip a b)

/-- What one slot is given: null where it is not computed, and nothing on a fault. -/
def slotResult (f : Val → Val → Option Val) : (Bool × Bool) × Slot × Slot → Option Slot
  | ((true, true), some v, some w) => (f v w).map some
  | _ => some none

theorem FilterMachine.compute2_eq_mapM (m : FilterMachine) (x : FArgs) (a b : List Slot) (f : Val → Val → Option Val) :
    m.compute2 x a b f = (m.operands x a b).mapM (slotResult f) := by
  unfold FilterMachine.compute2 FilterMachine.operands
  induction List.zip (List.zip m.sel (m.guardAt x)) (List.zip a b) with
  | nil => rfl
  | cons q l ih =>
    rw [List.foldr_cons, ih, List.mapM_cons]
    cases l.mapM (slotResult f) with
    | none => simp
    | some k => obtain ⟨⟨_ | _, _ | _⟩, _ | v, _ | w⟩ := q <;> simp [slotResult, Option.map_eq_bind, Option.bind_assoc]

/-- A slot that is computed, with the values it is computed from: selected, let through by the guard, and without a null. -/
def FilterMachine.Computes (m : FilterMachine) (x : FArgs) (a b : List Slot) (i : Nat) (v w : Val) : Prop :=
  m.sel[i]? = some true ∧ (x.guarded = true → ((m.mask? x.g).getD [])[i]? = some Tri.t) ∧
    a[i]? = some (some v) ∧ b[i]? = some (some w)

theorem FilterMachine.guardAt_eq_true_iff {m : FilterMachine} {x : FArgs} {i : Nat} (hi : i < m.rows) :
    (m.guardAt x)[i]? = some true ↔ (x.guarded = true → ((m.mask? x.g).getD [])[i]? = some Tri.t) := by
  unfold FilterMachine.guardAt
  cases x.guarded <;> simp [hi]

theorem FilterMachine.computes_iff {m : FilterMachine} {x : FArgs} {a b : List Slot} {i : Nat} {v w : Val}
    (hsel : m.sel.length = m.rows) :
    m.Computes x a b i v w ↔ (m.operands x a b)[i]? = some ((true, true), some v, some w) := by
  simp only [FilterMachine.Computes, FilterMachine.operands, List.getElem?_zip_eq_some, and_assoc]
  refine and_congr_right fun hs => and_congr_left' ?_
  exact (FilterMachine.guardAt_eq_true_iff (hsel ▸ (List.getElem?_eq_some_iff.mp hs).1)).symm

theorem FilterMachine.length_operands {m : FilterMachine} {x : FArgs} {a b : List Slot} (ha : a.length = m.rows)
    (hb : b.length = m.rows) (hsel : m.sel.length = m.rows)
    (hg : x.guarded = true → ((m.mask? x.g).getD []).length = m.rows) : (m.operands x a b).length = m.rows := by
  have hguard : (m.guardAt x).length = m.rows := by
    unfold FilterMachine.guardAt
    split
    · rw [List.length_map, hg ‹_›]
    · exact List.length_replicate
  simp [FilterMachine.operands, ha, hb, hsel, hguard]

theorem slotResult_of_not_computed {f : Val → Val → Option Val} {q : (Bool × Bool) × Slot × Slot}
    (hq : ∀ v w, q ≠ ((true, true), some v, some w)) : slotResult f q = some none := by
  unfold slotResult
  split
  · exact absurd rfl (hq _ _)
  · rfl

theorem slotResult_eq_none_iff {f : Val → Val → Option Val} {q : (Bool × Bool) × Slot × Slot} :
    slotResult f q = none ↔ ∃ v w, q = ((true, true), some v, some w) ∧ f v w = none := by
  unfold slotResult
  split
  · simp
  · next hno => exact iff_of_false (Option.some_ne_none _) fun ⟨v, w, hq, _⟩ => hno v w hq

/-- One faulting slot makes the whole instruction fault. -/
theorem FilterMachine.compute2_eq_none_iff {m : FilterMachine} {x : FArgs} {a b : List Slot} {f : Val → Val → Option Val}
    (hsel : m.sel.length = m.rows) :
    m.compute2 x a b f = none ↔ ∃ i v w, m.Computes x a b i v w ∧ f v w = none := by
  simp only [FilterMachine.compute2_eq_mapM, mapM_eq_none_iff, slotResult_eq_none_iff, FilterMachine.computes_iff hsel]
  constructor
  · rintro ⟨_, hmem, v, w, rfl, hf⟩
    obtain ⟨i, hi⟩ := List.mem_iff_getElem?.mp hmem
    exact ⟨i, v, w, hi, hf⟩
  · rintro ⟨i, v, w, hi, hf⟩
    exact ⟨_, List.mem_of_getElem? hi, v, w, rfl, hf⟩

theorem FilterMachine.compute2_slots {m : FilterMachine} {x : FArgs} {a b l : List Slot} {f : Val → Val → Option Val}
    (hl : m.compute2 x a b f = some l) : (m.operands x a b).map (slotResult f) = l.map some := by
  rwa [FilterMachine.compute2_eq_mapM, mapM_eq_some_iff] at hl

theorem FilterMachine.getElem?_compute2 {m : FilterMachine} {x : FArgs} {a b l : List Slot} {f : Val → Val → Option Val}
    (hl : m.compute2 x a b f = some l) (i : Nat) :
    (l[i]?).map some = ((m.operands x a b)[i]?).map (slotResult f) := by
  rw [← List.getElem?_map, ← List.getElem?_map, FilterMachine.compute2_slots hl]

/-- Settles O29: the result of a slot is that of its operands, and a fault in one of them leaves no result. -/
theorem filterComputedSlots : Obligations.FilterComputedSlots := by
  intro m x a b f ha hb hsel hg
  refine ⟨FilterMachine.compute2_eq_none_iff hsel, fun l hl => ⟨?_, fun i v w hc => ?_, fun i hi hno => ?_⟩⟩
  · simpa [FilterMachine.length_operands ha hb hsel hg] using
      (congrArg List.length (FilterMachine.compute2_slots hl)).symm
  · have hslot := FilterMachine.getElem?_compute2 hl i
    rw [(FilterMachine.computes_iff hsel).mp hc] at hslot
    obtain ⟨y, hy, hr⟩ := Option.map_eq_some_iff.mp hslot
    obtain ⟨r, hf, rfl⟩ := Option.map_eq_some_iff.mp hr.symm
    exact ⟨r, hf, hy⟩
  · rw [← FilterMachine.length_operands ha hb hsel hg] at hi
    have hslot := FilterMachine.getElem?_compute2 hl i
    have hq : ∀ v w, (m.operands x a b)[i] ≠ ((true, true), some v, some w) := fun v w hq =>
      hno v w ((FilterMachine.computes_iff hsel).mpr (List.getElem?_eq_some_iff.mpr ⟨hi, hq⟩))
    rw [List.getElem?_eq_getElem hi, Option.map_some, slotResult_of_not_computed hq] at hslot
    obtain ⟨y, hy, hr⟩ := Option.map_eq_some_iff.mp hslot
    rw [hy, Option.some.inj hr]

end Sys2Proof.Machine
end

section
/-! SUPPORT. Tasks at work: what leaves them as they are, and what a dispatch and the end of a task make of them (R386 to
R388). -/
namespace Sys2Proof.Machine
open Sys2Proof

/-! ## The tasks at work are kept -/

/-- The tasks at work are the same. -/
structure SameRunning (s t : State) : Prop where
  eq : t.sched.running = s.sched.running

namespace SameRunning
variable {s t u : State}

theorem refl (s : State) : SameRunning s s := ⟨rfl⟩

theorem trans (h : SameRunning s t) (h' : SameRunning t u) : SameRunning s u := ⟨h'.eq.trans h.eq⟩

/-- An operation on a state that differs from the first elsewhere. -/
theorem of_start (h : SameRunning t u) (e : t.sched.running = s.sched.running) : SameRunning s u := ⟨h.eq.trans e⟩

theorem of_moves {l : List Field} (h : Moves l s t) (hl : l.contains .sched = false := by rfl) : SameRunning s t :=
  ⟨congrArg SchedSt.running (h.sched_eq hl)⟩

theorem thenMoves {l : List Field} (h : SameRunning s t) (h' : Moves l t u) (hl : l.contains .sched = false := by rfl) :
    SameRunning s u := h.trans (.of_moves h' hl)

theorem ite {p : Prop} [Decidable p] (h : SameRunning s t) (h' : SameRunning s u) : SameRunning s (if p then t else u) := by
  split <;> assumption

theorem foldl {α : Type} {f : State → α → State} (l : List α) (hf : ∀ t a, SameRunning t (f t a)) (h : SameRunning s t) :
    SameRunning s (l.foldl f t) := by
  induction l generalizing t with
  | nil => exact h
  | cons a l ih => exact ih (h.trans (hf t a))

/-- The same task stands in every context. -/
theorem at_ (h : SameRunning s t) (ridge : Nat) (u : UnitKind) (ctx : Nat) :
    t.running? ridge u ctx = s.running? ridge u ctx := by
  unfold State.running?
  rw [h.eq]

end SameRunning

theorem State.takeSlot_running (s : State) (t : Task) : SameRunning s (s.takeSlot t) := by
  unfold State.takeSlot
  exact .ite ⟨rfl⟩ ⟨rfl⟩

theorem State.fillSlots_running (s : State) : SameRunning s s.fillSlots := by
  unfold State.fillSlots
  refine .foldl _ (fun t _ => .ite (.refl t) ?_) (.refl s)
  exact .of_start (State.takeSlot_running ..) rfl

theorem State.pushTask_running (s : State) (t : Task) : SameRunning s (s.pushTask t) := by
  unfold State.pushTask
  split
  · exact .refl s
  · extract_lets st isSealed
    split
    · exact .ite (.of_moves (s.work_writes ..)) (s.takeSlot_running t)
    · exact s.takeSlot_running t

theorem State.wakeProbes_running (s : State) (k : RouteKey) (probe ridge : Nat) :
    SameRunning s (s.wakeProbes k probe ridge) := by
  unfold State.wakeProbes
  split
  · exact .refl s
  · exact .foldl _ (fun t _ => t.pushTask_running _) (.of_moves (s.work_writes ..))

theorem State.readySeals_running (s : State) (k : RouteKey) : SameRunning s (s.readySeals k) := by
  unfold State.readySeals
  split
  · exact .refl s
  · refine .foldl _ (fun t p => .ite (.foldl _ (fun u q => ?_) (.refl t)) (.refl t)) (.refl s)
    exact .ite (.refl u) (u.pushTask_running _)

theorem State.fillRidge_running (s : State) (k : RouteKey) (stage ridge : Nat) (share : Nat × Nat) (n : Nat) :
    SameRunning s (s.fillRidge k stage ridge share n) := by
  induction n generalizing s with
  | zero => exact .refl s
  | succ n ih =>
    unfold State.fillRidge
    split
    · exact .refl s
    · exact .ite (((s.pushTask_running _).thenMoves (State.mapSpan_writes ..)).trans (ih _)) (.refl s)

theorem State.fillSources_running (s : State) : SameRunning s s.fillSources := by
  unfold State.fillSources
  refine .ite s.fillSlots_running (.foldl _ (fun t r => ?_) s.fillSlots_running)
  split
  · exact .refl t
  · exact .ite (.refl t) (.foldl _ (fun v x => .foldl _ (fun w q => w.fillRidge_running ..) (.refl v)) (.refl t))

theorem State.pumpOne_running (s : State) (id : Nat) : SameRunning s (s.pumpOne id) := by
  unfold State.pumpOne
  split
  · exact .refl s
  · extract_lets asking need a links loc n sent dropped slots told
    refine .ite (.ite (.refl s) ?ask) (.ite (.refl s) (.ite ?write ?notice))
    case ask => exact .of_start (.of_moves (State.sendSvc_writes ..)) rfl
    case write =>
      have hsent : Moves [.coh, .link, .out] s sent.2 :=
        Moves.foldl_snd _ (fun t _ => t.2.request_writes ..) (.refl ..)
      exact (SameRunning.of_moves hsent).thenMoves (State.mapOutbound_writes ..)
    case notice =>
      have htold : SameRunning s told := by
        have hdropped : SameRunning s dropped := ⟨rfl⟩
        unfold told
        split
        · exact (hdropped.thenMoves (State.sendSvc_writes ..)).trans (State.readySeals_running ..)
        · exact hdropped.thenMoves (State.sendSvc_writes ..)
      exact htold.thenMoves (State.payCloses_writes _)

theorem State.pumpOutbound_running (s : State) : SameRunning s s.pumpOutbound := by
  unfold State.pumpOutbound
  exact ((SameRunning.foldl _ (fun t (o : Outbound) => t.pumpOne_running o.id) (.refl s)).thenMoves
    (State.payCloses_writes _)).thenMoves (State.ackDone_writes _)

/-- A unit's lines move without a change of the tasks at work. -/
theorem TRes.traffic_running {s : State} {x : TRes (List Task)} (h : TRes.All (SameRunning s) x) (s0 : State) (r : Route)
    (t : Task) : TRes.All (SameRunning s) (x.traffic s0 r t) := by
  cases x with
  | ok ts u =>
    unfold TRes.traffic
    refine .ite (.okIn h) ?_
    have hlines := State.unitTraffic_writes s0 u r t
    split
    · next v hv => exact .okIn (SameRunning.thenMoves h (hlines.get hv))
    · exact .againIn
    · exact .againIn
  | again _ => trivial
  | need _ => trivial
  | ask _ => trivial
  | full _ _ _ => exact h
  | bad _ _ => exact h

theorem State.sealTask_running (s : State) (r : Route) (stage ridge : Nat) :
    TRes.All (SameRunning s) (s.sealTask r stage ridge) := by
  unfold State.sealTask
  extract_lets d st b ts radix recs mask u keys method fits facts inp kf runBytes room
  refine .ite (.badIn (.refl s)) (.ite (.badIn (.refl s)) (TRes.All.andThen ?room fun _ v hv => ?_))
  case room =>
    exact .ite ((State.takeCam_writes ..).imp fun _ h => .of_moves h) ((State.sizeTable_writes ..).imp fun _ h => .of_moves h)
  extract_lets built counted noted
  have hbuilt : SameRunning s built := hv.thenMoves (State.setBuild_writes ..)
  have hcounted : SameRunning s counted := hbuilt.thenMoves (State.oinc_writes ..)
  have hnoted : SameRunning s noted :=
    .ite (hcounted.thenMoves (State.oinc_writes ..)) (.ite (hcounted.thenMoves (State.oinc_writes ..)) hcounted)
  exact .okIn (hnoted.trans (State.wakeProbes_running ..))

/-- The seal of a build leaves the tasks at work as they are. -/
theorem State.performTask_seal_running (s : State) (r : Route) (t : Task) (ht : t.input = .sealBuild) (ctx : Nat) :
    TRes.All (SameRunning s) (s.performTask r t ctx) := by
  unfold State.performTask
  refine .ite (.badIn (.refl s)) ?_
  split
  · exact .badIn (.refl s)
  · exact .needIn
  · rw [ht]
    exact s.sealTask_running ..

/-! ## The task that a unit takes next -/

theorem le_foldl_max {α : Type} (f : α → Nat) (l : List α) (m : Nat) :
    m ≤ l.foldl (fun m t => max m (f t)) m ∧ ∀ y ∈ l, f y ≤ l.foldl (fun m t => max m (f t)) m := by
  induction l generalizing m with
  | nil => simp
  | cons x l ih =>
    obtain ⟨hm, hl⟩ := ih (max m (f x))
    simp only [List.foldl_cons, List.mem_cons, forall_eq_or_imp]
    exact ⟨by omega, by omega, hl⟩

theorem State.bestOf_mem (s : State) {l : List Task} {x : Task} (h : s.bestOf l = some x) : x ∈ l := by
  suffices hfold : x ∈ l ∨ none = some x from hfold.resolve_right nofun
  unfold State.bestOf at h
  generalize (none : Option Task) = best at h ⊢
  induction l generalizing best with
  | nil => exact .inr h
  | cons t l ih =>
    rcases ih _ h with hx | hx
    · exact .inl (.tail _ hx)
    · cases best with
      | none =>
        cases hx
        exact .inl (.head _)
      | some b =>
        dsimp only at hx
        split at hx
        · cases hx
          exact .inl (.head _)
        · exact .inr hx

theorem State.pickTenant_some (s : State) {lvl ptr i n : Nat} {cands : List Task} {x : Task} {s' : State}
    (h : s.pickTenant lvl cands ptr i n = some (x, s')) : x ∈ cands ∧ SameRunning s s' := by
  induction n generalizing s i with
  | zero => cases h
  | succ n ih =>
    unfold State.pickTenant at h
    dsimp only at h
    split at h
    · obtain ⟨hx, hs⟩ := ih _ h
      exact ⟨hx, hs.of_start rfl⟩
    · next t ht =>
      cases h
      exact ⟨List.mem_of_mem_filter (s.bestOf_mem ht), ⟨rfl⟩⟩

/-- R387: the task chosen is ready, may run, and no ready task that may run there is of a higher priority. -/
theorem State.pickTask_some (s : State) {ridge : Nat} {u : UnitKind} {x : Task} {s' : State}
    (h : s.pickTask ridge u = some (x, s')) : x ∈ s.sched.ready ∧ s.mayRun ridge u x = true ∧
      (∀ y ∈ s.sched.ready, s.mayRun ridge u y = true → s.taskPrio y ≤ s.taskPrio x) ∧ SameRunning s s' := by
  unfold State.pickTask at h
  extract_lets all top lvl at h
  obtain ⟨hx, hs⟩ := s.pickTenant_some h
  obtain ⟨hall, htop⟩ := List.mem_filter.mp hx
  obtain ⟨hready, hmay⟩ := List.mem_filter.mp hall
  refine ⟨hready, hmay, fun y hy hm => ?_, hs⟩
  rw [beq_iff_eq.mp htop]
  exact (le_foldl_max s.taskPrio all 0).2 y (List.mem_filter.mpr ⟨hy, hm⟩)

/-- A task that may run on a ridge belongs to the ridge. -/
theorem State.mayRun_ridge (s : State) {ridge : Nat} {u : UnitKind} {x : Task} (h : s.mayRun ridge u x = true) :
    x.ridge = ridge := by
  unfold State.mayRun at h
  exact beq_iff_eq.mp (Bool.and_eq_true_iff.mp h).1

/-- The free context of a JNU holds no task. -/
theorem State.freeCtx_jnu (s : State) {ridge c : Nat} (h : s.freeCtx ridge .jnu = some c) :
    s.running? ridge .jnu c = none :=
  Option.isNone_iff_eq_none.mp (List.find?_some (p := fun c => (s.running? ridge .jnu c).isNone) h)

theorem State.nextIs_some (s : State) {ridge c : Nat} {u : UnitKind} {t : Task} (h : s.nextIs ridge u t = some c) :
    s.freeCtx ridge u = some c ∧ ∃ s', s.pickTask ridge u = some (t, s') := by
  unfold State.nextIs at h
  split at h
  · next c' x s' hc hx =>
    split at h
    · next hxt =>
      cases h
      exact ⟨hc, s', hxt ▸ hx⟩
    · cases h
  · cases h

/-! ## A dispatch -/

section
variable {s s' : State} {ridge ctx : Nat} {u : UnitKind} {x : Task}

theorem State.dispatch_held (hop : s.sys.state = .operational) (hc : s.freeCtx ridge u = some ctx)
    (hx : s.pickTask ridge u = some (x, s')) (hr : s.sched.railsHeld ≠ []) : s.dispatch ridge u = s.oinc 0x7000 7 1 := by
  simp [State.dispatch, hop, hc, hx, hr]

/-- What follows a task's start leaves the tasks at work. -/
theorem State.dispatched_running (s : State) (t : Task) (u : UnitKind) :
    SameRunning s ((s.settleAsk t.key.tenant t.key.id fun _ => true).logTask t u 0x2).fillSources.pumpOutbound :=
  (((SameRunning.of_moves (State.settleAsk_writes ..)).thenMoves (State.logTask_writes ..)).trans
    (State.fillSources_running _)).trans (State.pumpOutbound_running _)

/-- A task whose work, with its lines, is done at its dispatch joins the tasks at work (log 7). -/
theorem State.dispatch_running (hop : s.sys.state = .operational) (hc : s.freeCtx ridge u = some ctx)
    (hx : s.pickTask ridge u = some (x, s')) (hr : s.sched.railsHeld = []) {r : Route} (hroute : s.route? x.key = some r)
    {ts : List Task} {s2 : State} (hwork : (s'.performTask r x ctx).traffic s' r x = .ok ts s2) :
    (s.dispatch ridge u).sched.running =
      s2.sched.running ++ [{ ridge := x.ridge, unit := u, ctx := ctx, task := x, outputs := ts }] := by
  have hd : s.dispatch ridge u = s'.dispatchTask r x u ctx s := by
    simp [State.dispatch, hop, hc, hx, hr, hroute]
  rw [hd]
  unfold State.dispatchTask
  rw [hwork]
  exact (State.dispatched_running _ x u).eq
end

/-! ## The end of a task -/

/-- Whether a task at work stands in a context, as the scheduler compares it. -/
theorem Running.stands_iff (r : Running) (ridge : Nat) (u : UnitKind) (ctx : Nat) :
    (r.ridge == ridge && r.unit == u && r.ctx == ctx) = true ↔ (ridge, u, ctx) = (r.ridge, r.unit, r.ctx) := by
  rw [Bool.and_eq_true, Bool.and_eq_true, beq_iff_eq, beq_iff_eq, beq_iff_eq, Prod.mk.injEq, Prod.mk.injEq, and_assoc,
    eq_comm (a := r.ridge), eq_comm (a := r.unit), eq_comm (a := r.ctx)]

/-- An added task stands in its own context; the others are as before. -/
theorem State.running?_append {s t : State} {r : Running} (h : t.sched.running = s.sched.running ++ [r]) (ridge : Nat)
    (u : UnitKind) (ctx : Nat) : t.running? ridge u ctx = (s.running? ridge u ctx).or
      (if (ridge, u, ctx) = (r.ridge, r.unit, r.ctx) then some r else none) := by
  unfold State.running?
  rw [h, List.find?_append]
  simp only [List.find?_singleton, r.stands_iff]

/-- A task that ends leaves its context free, and the others as they are. -/
theorem State.endRunning_at (s : State) (ridge : Nat) (u : UnitKind) (ctx ridge' : Nat) (u' : UnitKind) (ctx' : Nat) :
    (s.endRunning ridge u ctx).running? ridge' u' ctx' =
      if (ridge', u', ctx') = (ridge, u, ctx) then none else s.running? ridge' u' ctx' := by
  unfold State.running? State.endRunning
  rw [List.find?_filter]
  split
  · next h =>
    cases h
    refine List.find?_eq_none.mpr fun r _ => ?_
    cases r.ridge == ridge && r.unit == u && r.ctx == ctx <;> decide
  · next h =>
    congr 1
    funext r
    cases hr : r.ridge == ridge && r.unit == u && r.ctx == ctx with
    | false => simp only [Bool.not_false, true_and, Bool.decide_eq_true]
    | true =>
      have hother : ¬(r.ridge == ridge' && r.unit == u' && r.ctx == ctx') = true := fun hr' =>
        h (((r.stands_iff ..).mp hr').trans ((r.stands_iff ..).mp hr).symm)
      rw [Bool.eq_false_iff.mpr hother]
      rfl

/-- A change of the task in one context that leaves it there leaves the other contexts as they are. -/
theorem State.mapRunning_other (s : State) {ridge ridge' ctx ctx' : Nat} {u u' : UnitKind} (f : Running → Running)
    (hf : ∀ r, (f r).ridge = r.ridge ∧ (f r).unit = r.unit ∧ (f r).ctx = r.ctx)
    (h : (ridge', u', ctx') ≠ (ridge, u, ctx)) :
    (s.mapRunning ridge u ctx f).running? ridge' u' ctx' = s.running? ridge' u' ctx' := by
  unfold State.running? State.mapRunning
  dsimp only
  generalize s.sched.running = l
  induction l with
  | nil => rfl
  | cons r l ih =>
    obtain ⟨hridge, hunit, hctx⟩ := hf r
    rw [List.map_cons, List.find?_cons, List.find?_cons, ih]
    by_cases hr : r.ridge = ridge ∧ r.unit = u ∧ r.ctx = ctx
    · have hother : (r.ridge == ridge' && r.unit == u' && r.ctx == ctx') = false :=
        Bool.eq_false_iff.mpr fun hr' => h (((r.stands_iff ..).mp hr').trans (by rw [hr.1, hr.2.1, hr.2.2]))
      rw [if_pos hr, hridge, hunit, hctx, hother]
    · rw [if_neg hr]

section
variable {s : State} {ridge ctx : Nat} {u : UnitKind} {r : Running}

theorem State.countStalls_roomFor (s : State) (mine : Running → Bool) (ts : List Task) :
    (s.countStalls mine).roomFor ts = s.roomFor ts := by
  unfold State.roomFor State.slotsUsed
  rw [(s.countStalls_writes mine).sched_eq rfl]

/-- R388: a task whose outputs have slots leaves its context. -/
theorem State.finishTask_room (hr : s.running? ridge u ctx = some r) (hroom : s.roomFor r.outputs = true) :
    SameRunning (s.endRunning ridge u ctx) (s.finishTask ridge u ctx) := by
  unfold State.finishTask
  split
  case h_1 hnone => cases hr.symm.trans hnone
  case h_2 r' hr' =>
    cases hr.symm.trans hr'
    extract_lets counted stalled ended pushed told
    have hcounted : SameRunning s counted := .of_moves (State.countStalls_writes ..)
    have hended : SameRunning (s.endRunning ridge u ctx) ended := ⟨congrArg (List.filter _) hcounted.eq⟩
    have hpushed : SameRunning ended pushed := .foldl _ (fun t x => t.pushTask_running x) (.refl _)
    have htold : SameRunning pushed told :=
      (SameRunning.of_moves (State.releaseInput_writes ..)).thenMoves (State.logTask_writes ..)
    rw [(s.countStalls_roomFor ..).trans hroom, if_neg (by decide)]
    exact ((hended.trans hpushed).trans htold).trans (State.readySeals_running ..)

/-- R388: one whose outputs have none holds its context, and the stall is noted. -/
theorem State.finishTask_full (hr : s.running? ridge u ctx = some r) (hroom : s.roomFor r.outputs = false) :
    SameRunning (s.mapRunning ridge u ctx (fun x => { x with stalled := some s.now })) (s.finishTask ridge u ctx) := by
  unfold State.finishTask
  split
  case h_1 hnone => cases hr.symm.trans hnone
  case h_2 r' hr' =>
    cases hr.symm.trans hr'
    extract_lets counted stalled ended pushed told
    have hcounted : Moves [.objs] s counted := State.countStalls_writes ..
    have hstalled : SameRunning (s.mapRunning ridge u ctx (fun x => { x with stalled := some s.now })) stalled := by
      constructor
      unfold stalled State.mapRunning
      rw [hcounted.sched_eq rfl, hcounted.now_eq rfl]
    rw [(s.countStalls_roomFor ..).trans hroom, if_pos (by decide)]
    exact .ite (hstalled.thenMoves (State.logTask_writes ..)) hstalled
end

/-- The contexts that the end of a task does not concern are as before, whether it has slots for its outputs or not. -/
theorem State.finishTask_other (s : State) {ridge ridge' ctx ctx' : Nat} {u u' : UnitKind}
    (h : (ridge', u', ctx') ≠ (ridge, u, ctx)) :
    (s.finishTask ridge u ctx).running? ridge' u' ctx' = s.running? ridge' u' ctx' := by
  cases hr : s.running? ridge u ctx with
  | none =>
    unfold State.finishTask
    rw [hr]
  | some r =>
    cases hroom : s.roomFor r.outputs with
    | true => rw [(State.finishTask_room hr hroom).at_, s.endRunning_at, if_neg h]
    | false => exact ((State.finishTask_full hr hroom).at_ ..).trans (s.mapRunning_other _ (fun _ => ⟨rfl, rfl, rfl⟩) h)

/-- The context of a task that ends with slots for its outputs is free. -/
theorem State.finishTask_free {s : State} {ridge ctx : Nat} {u : UnitKind} {r : Running}
    (hr : s.running? ridge u ctx = some r) (hroom : s.roomFor r.outputs = true) :
    (s.finishTask ridge u ctx).running? ridge u ctx = none := by
  rw [(State.finishTask_room hr hroom).at_, s.endRunning_at, if_pos rfl]

end Sys2Proof.Machine
end

section
/-! SUPPORT. Settling O35: dispatch to free contexts, the end of a task, the seal of a build. -/
namespace Sys2Proof.Machine
open Sys2Proof

/-- TASK_DONE ends the task of its context, unless a strand still runs it. -/
theorem execTaskDone_running {s : State} {ridge ctx : Nat} {u : UnitKind}
    (h : u = .strand → (s.strand ridge ctx).task = none) :
    ∃ t, exec (.taskDone ridge u ctx) s = .next t ∧ SameRunning (s.finishTask ridge u ctx) t := by
  have hidle : ¬(u = .strand ∧ (s.strand ridge ctx).task.isSome = true) := by
    rintro ⟨hu, hsome⟩
    rw [h hu] at hsome
    cases hsome
  rw [exec_taskDone]
  unfold execTaskDone
  rw [if_neg hidle]
  extract_lets finished noted
  have hnoted : SameRunning finished noted := .ite ⟨rfl⟩ (.refl _)
  exact ⟨_, rfl, hnoted.trans noted.fillSources_running⟩

/-- The command of a seal that is the next of its ridge dispatches it and ends it. -/
theorem exec_joinSeal_some {s : State} {k : RouteKey} {stage ridge c : Nat}
    (h : s.nextIs ridge .jnu { key := k, stage := stage, ridge := ridge, input := .sealBuild, seq := 0 } = some c) :
    ∃ t, exec (.joinSeal k stage ridge) s = .next t ∧ SameRunning ((s.dispatch ridge .jnu).finishTask ridge .jnu c) t := by
  rw [exec_joinSeal]
  unfold execJoinSeal
  rw [h]
  exact ⟨_, rfl, State.fillSources_running _⟩

/-- Settles O35: what a dispatch takes, what the end of a task frees, and the seal from its dispatch to its end. -/
theorem tasks : Obligations.Tasks := by
  intro s hop
  refine ⟨fun ridge u ctx x s' hc hx => ?dispatch, fun ridge u ctx r hr hroom hstrand => ?done,
    fun k stage ridge => ⟨fun hnone => ?notNext, fun c r s' ts s2 hnext hrails hroute hx hwork => ?sealed⟩⟩
  case dispatch =>
    obtain ⟨hready, hmay, hprio, -⟩ := s.pickTask_some hx
    refine ⟨hprio, hready, hmay, fun hr => ?_, fun hr r ts s2 hroute hwork => ⟨_, rfl, ?_⟩⟩
    · exact congrArg Host.Outcome.next (State.dispatch_held hop hc hx hr)
    · rw [State.dispatch_running hop hc hx hr hroute hwork, s.mayRun_ridge hmay]
  case done =>
    obtain ⟨t, hexec, ht⟩ := execTaskDone_running hstrand
    refine ⟨t, hexec, ?_, fun ridge' u' ctx' hne => ?_⟩
    · rw [ht.at_, State.finishTask_free hr hroom]
    · rw [ht.at_, s.finishTask_other hne]
  case notNext =>
    rw [exec_joinSeal]
    unfold execJoinSeal
    rw [hnone]
  case sealed =>
    obtain ⟨hc, s1, hx1⟩ := s.nextIs_some hnext
    cases hx.symm.trans hx1
    obtain ⟨-, hmay, -, hpick⟩ := s.pickTask_some hx
    have hwork2 : SameRunning s' s2 :=
      (TRes.traffic_running (s'.performTask_seal_running r _ rfl c) s' r _).okGet hwork
    have hfree : s2.running? ridge .jnu c = none := by
      rw [(hpick.trans hwork2).at_]
      exact s.freeCtx_jnu hc
    have hrun := State.running?_append (State.dispatch_running hop hc hx hrails hroute hwork)
    obtain ⟨t, hexec, ht⟩ := exec_joinSeal_some hnext
    refine ⟨t, hexec, fun hroom => ?_, fun ridge' u' ctx' hne => ?_⟩
    · have hat := hrun ridge .jnu c
      rw [hfree, if_pos rfl] at hat
      rw [ht.at_, State.finishTask_free hat hroom]
    · rw [ht.at_, State.finishTask_other _ hne, hrun, if_neg hne, Option.or_none]

end Sys2Proof.Machine
end

section
/-! SUPPORT. Sweeps of Cairn: what decides the shadows of rows, and the rows that a pass or a scrub repairs (R175 to R178). -/
namespace Sys2Proof.Machine
open Sys2Proof

/-! ## Banks and their rows -/

theorem State.bank_setBank (s : State) (k j : Nat) (b : Bank) : (s.setBank k b).bank j = if j = k then b else s.bank j := by
  unfold State.bank State.setBank
  by_cases h : j = k
  · subst h
    simp [SMap.find_put_same]
  · simp [SMap.find_put_other _ _ h, h]

theorem State.bank_congr {s t : State} (h : t.cairn = s.cairn) (k : Nat) : t.bank k = s.bank k := by
  unfold State.bank
  rw [h]

/-- How a bank lists a row: not at all where the row holds its reset value. -/
def listed (r : BitVec 94) : Option (BitVec 94) := if r = rowReset then none else some r

theorem listed_getD (r : BitVec 94) : (listed r).getD rowReset = r := by
  unfold listed
  split
  · next h => exact h.symm
  · rfl

theorem find_putRow (m : SMap (BitVec 94)) (i j : Nat) (r : BitVec 94) :
    (putRow m i r).find j = if j = i then listed r else m.find j := by
  unfold putRow listed
  by_cases h : j = i
  · subst h
    split <;> simp [SMap.find_del_same, SMap.find_put_same]
  · rw [if_neg h]
    split
    · exact SMap.find_del_other _ h
    · exact SMap.find_put_other _ _ h

theorem SMap.mem_keys_of_find {α : Type} {m : SMap α} {k : Nat} {x : α} (h : m.find k = some x) : k ∈ m.map (fun p => p.1) :=
  List.mem_map_of_mem (f := fun p : Nat × α => p.1) (SMap.mem_of_find h)

/-! ## What decides the shadows -/

/-- Two states agree on all that decides the shadows of rows and whether they can be read: the banks' owners and pages, the
tables, the shadow rows, and the memory under them. -/
structure SameShadows (s t : State) : Prop where
  owner : ∀ k, (t.bank k).owner = (s.bank k).owner
  place : ∀ k, (t.bank k).shadow = (s.bank k).shadow
  tables : t.cairn.tables = s.cairn.tables
  shadows : t.cairn.shadows = s.cairn.shadows
  depot : t.depot = s.depot
  sys : t.sys = s.sys
  flash : t.flash = s.flash
  dram : t.dram = s.dram
  populated : t.populated = s.populated

namespace SameShadows
variable {s t u : State}

theorem refl (s : State) : SameShadows s s := ⟨fun _ => rfl, fun _ => rfl, rfl, rfl, rfl, rfl, rfl, rfl, rfl⟩

theorem trans (h : SameShadows s t) (h' : SameShadows t u) : SameShadows s u where
  owner k := (h'.owner k).trans (h.owner k)
  place k := (h'.place k).trans (h.place k)
  tables := h'.tables.trans h.tables
  shadows := h'.shadows.trans h.shadows
  depot := h'.depot.trans h.depot
  sys := h'.sys.trans h.sys
  flash := h'.flash.trans h.flash
  dram := h'.dram.trans h.dram
  populated := h'.populated.trans h.populated

/-- A bank changes but for its owner and its shadow's page. -/
theorem setBank (s : State) (k : Nat) {b : Bank} (ho : b.owner = (s.bank k).owner) (hp : b.shadow = (s.bank k).shadow) :
    SameShadows s (s.setBank k b) where
  owner j := by
    rw [s.bank_setBank]
    split
    · next h => rw [h, ho]
    · rfl
  place j := by
    rw [s.bank_setBank]
    split
    · next h => rw [h, hp]
    · rfl
  tables := rfl
  shadows := rfl
  depot := rfl
  sys := rfl
  flash := rfl
  dram := rfl
  populated := rfl

/-- Counts and records of the device itself leave the shadows. -/
theorem of_moves {l : List Field} (h : Moves l s t) (hp : t.populated = s.populated)
    (hl : within l [.objs, .err, .mgmt, .out] = true) : SameShadows s t := by
  have h' : Moves [.objs, .err, .mgmt, .out] s t := h.mono (.mk hl)
  have hc : t.cairn = s.cairn := h'.cairn_eq rfl
  exact ⟨fun k => by rw [State.bank_congr hc], fun k => by rw [State.bank_congr hc], by rw [hc], by rw [hc],
    h'.depot_eq rfl rfl, h'.sys_eq rfl, h'.flash_eq rfl, h'.dram_eq rfl, hp⟩

theorem shadowKey (h : SameShadows s t) (k row : Nat) : t.shadowKey k row = s.shadowKey k row := by
  simp only [State.shadowKey, State.shadowRidge, h.owner, h.tables]

theorem shadowRow (h : SameShadows s t) (k row : Nat) : t.shadowRow k row = s.shadowRow k row := by
  simp only [State.shadowRow, h.shadowKey, h.shadows]

theorem lineChan (h : SameShadows s t) (l : Nat) : t.lineChan l = s.lineChan l := by
  unfold State.lineChan State.spareOff
  rw [h.dram, h.populated]

theorem twoCopies (h : SameShadows s t) (l : Nat) : t.twoCopies l = s.twoCopies l := by
  simp only [State.twoCopies, State.spareOff, h.dram, h.populated]

theorem chanState (h : SameShadows s t) (ch : Nat) : t.chanState ch = s.chanState ch := by
  simp only [State.chanState, h.dram]

theorem copyFate (h : SameShadows s t) (l m : Nat) : t.copyFate l m = s.copyFate l m := by
  have hsyms : t.erasedSyms l m = s.erasedSyms l m := by
    unfold State.erasedSyms State.copyChan State.lineLocal State.spareOff
    rw [h.lineChan, h.dram, h.flash, h.populated]
  simp only [State.copyFate, hsyms, h.dram]

theorem serves (h : SameShadows s t) (l : Nat) : t.serves l = s.serves l := by
  unfold State.serves State.copyChan
  dsimp only
  rw [h.lineChan, h.twoCopies, h.chanState]

theorem linePoisoned (h : SameShadows s t) (l : Nat) : t.linePoisoned l = s.linePoisoned l := by
  simp only [State.linePoisoned, State.rawLost, State.rawFate, State.otherGood, State.copyChan, h.serves, h.copyFate,
    h.lineChan, h.twoCopies, h.chanState, h.dram]

theorem shadowLost (h : SameShadows s t) (k row : Nat) : t.shadowLost k row = s.shadowLost k row := by
  simp only [State.shadowLost, State.shadowLine, State.dobj?, State.pageAt, h.owner, h.place, h.depot, h.sys, h.linePoisoned]

end SameShadows

/-! ## Repairs of a bank's rows -/

/-- Some rows of a bank are repaired from their shadows, every other row of every bank is listed as before. -/
structure Repairs (k : Nat) (l : List Nat) (s t : State) : Prop extends SameShadows s t where
  rows : ∀ j i, (t.bank j).rows.find i = if j = k ∧ i ∈ l then listed (s.shadowRow j i) else (s.bank j).rows.find i

namespace Repairs
variable {k : Nat} {l l' : List Nat} {s t u : State}

/-- Nothing is repaired where the banks' rows are as before. -/
theorem of_rows (h : SameShadows s t) (hr : ∀ j, (t.bank j).rows = (s.bank j).rows) : Repairs k [] s t :=
  ⟨h, fun j i => by simp [hr]⟩

theorem trans (h : Repairs k l s t) (h' : Repairs k l' t u) : Repairs k (l ++ l') s u := by
  refine ⟨h.toSameShadows.trans h'.toSameShadows, fun j i => ?_⟩
  rw [h'.rows, h.rows, h.shadowRow]
  by_cases hj : j = k <;> by_cases hi : i ∈ l' <;> simp [hj, hi]

theorem thenSame (h : Repairs k l s t) (h' : Repairs k [] t u) : Repairs k l s u := l.append_nil ▸ h.trans h'

theorem row (h : Repairs k l s t) (j i : Nat) :
    (t.bank j).row i = if j = k ∧ i ∈ l then s.shadowRow j i else (s.bank j).row i := by
  unfold Bank.row
  rw [h.rows]
  split
  · exact listed_getD _
  · rfl

/-- A record without a tenant, after which nothing is repaired. -/
theorem raise (s : State) (a : RecArgs) (ht : a.tenant = none) : Repairs k [] s (s.raise a) :=
  have hw := s.raise_writes a
  .of_rows (.of_moves hw (s.raise_onum_device a ht (by decide)) rfl) fun j => by rw [State.bank_congr (hw.cairn_eq rfl)]

/-- A count of a member other than the populated memory. -/
theorem oinc (s : State) {i m : Nat} (n : Nat) (h : okey 0x5000 2 ≠ okey i m) : Repairs k [] s (s.oinc i m n) :=
  have hw := s.oinc_writes i m n
  .of_rows (.of_moves hw (s.onum_oinc_other n h) rfl) fun j => by rw [State.bank_congr (hw.cairn_eq rfl)]

/-- A bank changes but for its rows, its owner and its shadow's page. -/
theorem setBank (s : State) (j : Nat) {b : Bank} (ho : b.owner = (s.bank j).owner) (hp : b.shadow = (s.bank j).shadow)
    (hr : b.rows = (s.bank j).rows) : Repairs k [] s (s.setBank j b) := by
  refine .of_rows (.setBank s j ho hp) fun i => ?_
  rw [s.bank_setBank]
  split
  · next h => rw [h, hr]
  · rfl

/-- One row after the other. -/
theorem foldl {f : State → Nat → State} (hf : ∀ t i, (∀ row, t.shadowLost k row = false) → Repairs k [i] t (f t i))
    (l : List Nat) (h : ∀ row, s.shadowLost k row = false) : Repairs k l s (l.foldl f s) := by
  induction l generalizing s with
  | nil => exact .of_rows (.refl s) fun _ => rfl
  | cons i l ih =>
    have hi := hf s i h
    exact hi.trans (ih fun row => (hi.shadowLost k row).trans (h row))

end Repairs

theorem State.repairRow_repairs (s : State) (k row : Nat) : Repairs k [row] s (s.repairRow k row) := by
  unfold State.repairRow
  refine ⟨.setBank s k rfl rfl, fun j i => ?_⟩
  rw [s.bank_setBank]
  by_cases hj : j = k
  · subst hj
    by_cases hi : i = row
    · simp [hi, find_putRow]
    · simp [hi, find_putRow]
  · simp [hj]

theorem State.noteRepair_repairs (s : State) (k : Nat) : Repairs k [] s (s.noteRepair k) := by
  unfold State.noteRepair
  exact .setBank s k rfl rfl rfl

/-- The repair of a row by a pass or by the scrub, with its note, its count and its record (R177). -/
theorem State.noted_repairs (s : State) (k row : Nat) {m : Nat} {a : RecArgs} (hm : okey 0x5000 2 ≠ okey 0x3030 m)
    (ha : a.tenant = none) :
    Repairs k [row] s ((((s.repairRow k row).noteRepair k).oinc 0x3030 m 1).raise a) :=
  (((s.repairRow_repairs k row).thenSame (State.noteRepair_repairs ..)).thenSame (.oinc _ 1 hm)).thenSame (.raise _ a ha)

/-! ## The parity pass over banks -/

/-- A row that fails parity is listed. -/
theorem Bank.mem_bad (b : Bank) (i : Nat) : i ∈ (b.rows.map (fun p => p.1)).filter b.rowBad ↔ b.rowBad i = true := by
  rw [List.mem_filter, and_iff_right_iff_imp]
  intro h
  unfold Bank.rowBad at h
  split at h
  · next r hr => exact SMap.mem_keys_of_find hr
  · cases h

/-- The pass over a bank whose shadows can be read repairs the rows that fail parity. -/
theorem State.sweepBank_repairs (s : State) (k : Nat) (h : ∀ row, s.shadowLost k row = false) :
    Repairs k (((s.bank k).rows.map (fun p => p.1)).filter (s.bank k).rowBad) s (s.sweepBank k) := by
  unfold State.sweepBank
  refine .foldl (fun t i ht => ?_) _ h
  rw [if_neg (by rw [ht i]; decide)]
  exact t.noted_repairs k i (by decide) rfl

/-- The pass over some banks, each row either repaired from its shadow or listed as before. -/
theorem State.sweepBanks_rows (s : State) (l : List Nat) (h : ∀ k row, s.shadowLost k row = false) :
    SameShadows s (l.foldl State.sweepBank s) ∧ ∀ j i, ((l.foldl State.sweepBank s).bank j).rows.find i =
      if j ∈ l ∧ (s.bank j).rowBad i = true then listed (s.shadowRow j i) else (s.bank j).rows.find i := by
  induction l generalizing s with
  | nil => exact ⟨.refl s, fun j i => by simp⟩
  | cons k l ih =>
    have hk := s.sweepBank_repairs k (h k)
    obtain ⟨hs, hl⟩ := ih (s.sweepBank k) fun j row => (hk.shadowLost j row).trans (h j row)
    refine ⟨hk.toSameShadows.trans hs, fun j i => ?_⟩
    have hrow := hk.rows j i
    simp only [(s.bank k).mem_bad] at hrow
    rw [List.foldl_cons, hl, hk.shadowRow, hrow]
    by_cases hn : j = k ∧ (s.bank k).rowBad i = true
    · obtain ⟨rfl, hb⟩ := hn
      simp [hb]
    · rw [if_neg hn] at hrow
      have hbad : ((s.sweepBank k).bank j).rowBad i = (s.bank j).rowBad i := by
        unfold Bank.rowBad
        rw [hrow]
      rw [hbad, if_neg hn]
      have hmem : (j ∈ k :: l ∧ (s.bank j).rowBad i = true) ↔ (j ∈ l ∧ (s.bank j).rowBad i = true) := by
        rw [List.mem_cons]
        constructor
        · rintro ⟨rfl | hj, hb⟩
          · exact absurd ⟨rfl, hb⟩ hn
          · exact ⟨hj, hb⟩
        · exact fun ⟨hj, hb⟩ => ⟨.inr hj, hb⟩
      simp only [hmem]

/-! ## The note of a pass -/

/-- A pass noted at a bank is kept there; rows and owners are as before. -/
theorem State.notePass_bank (s : State) (p : Nat × Nat) (k j : Nat) :
    ((s.notePass p k).bank j).rows = (s.bank j).rows ∧ ((s.notePass p k).bank j).owner = (s.bank j).owner ∧
      (j = k ∨ p ∈ (s.bank j).passes → p ∈ ((s.notePass p k).bank j).passes) := by
  unfold State.notePass
  rw [s.bank_setBank]
  split
  · next h =>
    subst h
    exact ⟨rfl, rfl, fun _ => by simp⟩
  · next h => exact ⟨rfl, rfl, fun hp => hp.resolve_left h⟩

theorem State.notePasses_bank (s : State) (p : Nat × Nat) (l : List Nat) (j : Nat) :
    ((l.foldl (State.notePass · p) s).bank j).rows = (s.bank j).rows ∧
      ((l.foldl (State.notePass · p) s).bank j).owner = (s.bank j).owner ∧
      (j ∈ l ∨ p ∈ (s.bank j).passes → p ∈ ((l.foldl (State.notePass · p) s).bank j).passes) := by
  induction l generalizing s with
  | nil => simp
  | cons k l ih =>
    obtain ⟨hr, ho, hp⟩ := s.notePass_bank p k j
    obtain ⟨hrl, hol, hpl⟩ := ih (s.notePass p k)
    refine ⟨hrl.trans hr, hol.trans ho, fun h => hpl ?_⟩
    rcases h with h | h
    · rcases List.mem_cons.mp h with h | h
      · exact .inr (hp (.inl h))
      · exact .inl h
    · exact .inr (hp (.inr h))

/-- R447: no tenant loses a row whose shadow can be read. -/
theorem State.lostRows_nil (s : State) (h : ∀ k row, s.shadowLost k row = false) : s.lostRows = [] := by
  unfold State.lostRows
  rw [List.filterMap_eq_nil_iff.mpr, List.eraseDups_nil]
  intro k _
  split
  · simp [h]
  · rfl

/-- R176: the pass is timed from the next clock on and repairs the failing rows of owned banks. -/
theorem State.paritySweep_banks (s : State) (h : ∀ k row, s.shadowLost k row = false) :
    s.paritySweep.now = s.now + 513 ∧ ∀ k ∈ s.ownedBanks,
      (s.now + 1, s.now + 513) ∈ (s.paritySweep.bank k).passes ∧ (s.paritySweep.bank k).owner = (s.bank k).owner ∧
      ∀ row, (s.paritySweep.bank k).row row = if (s.bank k).rowBad row then s.shadowRow k row else (s.bank k).row row := by
  unfold State.paritySweep
  extract_lets start banks swept
  obtain ⟨hsame, hrows⟩ := s.sweepBanks_rows banks h
  have hnow : (banks.foldl State.sweepBank s).now = s.now :=
    (Moves.foldl banks (fun t k => t.sweepBank_writes k) (.refl _ s)).now_eq rfl
  have hbank (k : Nat) : swept.bank k = (banks.foldl State.sweepBank s).bank k :=
    State.bank_congr ((State.advanceTo_writes ..).cairn_eq rfl) k
  refine ⟨?_, fun k hk => ?_⟩
  · rw [(Moves.foldl banks (fun t k => t.notePass_writes _ k) (.refl _ swept)).now_eq rfl, State.advanceTo_now, hnow]
    omega
  · obtain ⟨hr, ho, hp⟩ := swept.notePasses_bank (start, start + 512) banks k
    refine ⟨hp (.inl hk), ?_, fun row => ?_⟩
    · rw [ho, hbank, hsame.owner]
    · unfold Bank.row
      rw [hr, hbank, hrows]
      by_cases hb : (s.bank k).rowBad row = true
      · simp [hk, hb, banks, listed_getD]
      · simp [hb]

/-! ## The scrub -/

theorem State.scrubRow_repairs (s : State) (k row : Nat) (h : s.shadowLost k row = false) :
    Repairs k [row] s (s.scrubRow k row) := by
  unfold State.scrubRow
  rw [if_neg (by rw [h]; decide)]
  extract_lets last used t
  have ht : Repairs k [row] s t := s.noted_repairs k row (by decide) rfl
  split
  · exact ht.thenSame (.raise _ _ rfl)
  · exact ht

theorem State.scrubBank_repairs (s : State) (k : Nat) (h : ∀ row, s.shadowLost k row = false) :
    Repairs k (s.scrubRows k) s (s.scrubBank k) := by
  unfold State.scrubBank
  extract_lets rows t
  have ht : Repairs k rows s t := .foldl (fun u i hu => u.scrubRow_repairs k i (hu i)) rows h
  split
  · exact ht.thenSame (.setBank t k rfl rfl rfl)
  · exact ht

/-- Every row of a bank in which the bank and its shadow differ is among those that the scrub repairs. -/
theorem State.mem_scrubRows (s : State) {k i : Nat} (hi : i < 4096)
    (hne : rowFields ((s.bank k).row i) ≠ rowFields (s.shadowRow k i)) : i ∈ s.scrubRows k := by
  unfold State.scrubRows
  extract_lets sh
  rw [List.mem_filter, List.mem_eraseDups, List.mem_append]
  refine ⟨?_, by simpa using hne⟩
  cases hb : (s.bank k).rows.find i with
  | some r => exact .inl (SMap.mem_keys_of_find hb)
  | none =>
    cases hs : s.cairn.shadows.find (s.shadowKey k i) with
    | some r =>
      refine .inr (List.mem_map.mpr ⟨(s.shadowKey k i, r), List.mem_filter.mpr ⟨SMap.mem_of_find hs, ?_⟩, ?_⟩)
      · refine decide_eq_true ?_
        unfold State.shadowKey
        omega
      · show s.shadowKey k i % 4096 = i
        unfold State.shadowKey
        omega
    | none =>
      unfold Bank.row State.shadowRow at hne
      rw [hb, hs] at hne
      exact absurd rfl hne

/-- R177: after the scrub every row of its banks has the fields of its shadow. -/
theorem State.scrubBanks_fields (s : State) (l : List Nat) (h : ∀ k row, s.shadowLost k row = false) (j i : Nat)
    (hi : i < 4096) (hj : j ∈ l ∨ rowFields ((s.bank j).row i) = rowFields (s.shadowRow j i)) :
    rowFields (((l.foldl State.scrubBank s).bank j).row i) = rowFields (s.shadowRow j i) := by
  induction l generalizing s with
  | nil => exact hj.resolve_left (by simp)
  | cons k l ih =>
    have hk := s.scrubBank_repairs k (h k)
    have hl := ih (s.scrubBank k) fun a row => (hk.shadowLost a row).trans (h a row)
    rw [hk.shadowRow] at hl
    rw [List.foldl_cons]
    apply hl
    rw [hk.row, List.mem_cons] at *
    by_cases hr : j = k ∧ i ∈ s.scrubRows k
    · exact .inr (by rw [if_pos hr])
    · rw [if_neg hr]
      rcases hj with (rfl | hj) | hj
      · exact .inr (by_contra fun hne => hr ⟨rfl, s.mem_scrubRows hi hne⟩)
      · exact .inl hj
      · exact .inr hj

end Sys2Proof.Machine
end

section
/-! SUPPORT. Maintenance of caches: the way that an operation names, the copies of a line, the state of a cache (R303 to
R307). -/
namespace Sys2Proof.Machine
open Sys2Proof

/-! ## By set and way -/

/-- The way at a place of a set, where it holds a line and is not fenced (R303, R308). -/
def openWay (m : SMap (List Way)) (key n i : Nat) : Option Way :=
  ((waysAt m key n)[i]?).bind (fun w => if w.state = .I ∨ w.fenced = true then none else some w)

theorem openWay_some {m : SMap (List Way)} {key n i : Nat} {w : Way} (h : openWay m key n i = some w) :
    i < (waysAt m key n).length ∧ w.state ≠ .I ∧ w.fenced = false := by
  obtain ⟨v, hv, hw⟩ := Option.bind_eq_some_iff.mp h
  split at hw
  · cases hw
  · next hopen =>
    cases hw
    rw [not_or, Bool.not_eq_true] at hopen
    exact ⟨(List.getElem?_eq_some_iff.mp hv).1, hopen.1, hopen.2⟩

theorem Way.clean_state (w : Way) : w.clean.state = .I ↔ w.state = .I := by
  unfold Way.clean
  cases w.state <;> simp

/-- CLEAN leaves the line in its way, clean; the others take it out. -/
theorem openWay_edit {m : SMap (List Way)} {key n i : Nat} {w : Way} (h : openWay m key n i = some w) (clean : Bool) :
    openWay (m.put key (setWay (waysAt m key n) i (if clean then w.clean else invalidWay))) key n i =
      if clean then some w.clean else none := by
  obtain ⟨hi, hs, hf⟩ := openWay_some h
  have hset (x : Way) : openWay (m.put key (setWay (waysAt m key n) i x)) key n i =
      if x.state = .I ∨ x.fenced = true then none else some x := by
    unfold openWay
    have hput : waysAt (m.put key (setWay (waysAt m key n) i x)) key n = (waysAt m key n).set i x := by
      unfold waysAt
      rw [SMap.find_put_same]
      rfl
    rw [hput, List.getElem?_set_self hi]
    rfl
  rw [hset]
  cases clean with
  | true =>
    have hclean : ¬(w.clean.state = .I ∨ w.clean.fenced = true) := by
      rw [Way.clean_state]
      simp [hs, Way.clean, hf]
    simp [hclean]
  | false => simp [invalidWay]

/-- The place of an operation's way in the L1Ds, the L1Is and the SLC. -/
def cmoL1dKey (c : Nat) : Nat := (cmoRidge c * 9 + cmoStrand c) * 256 + cmoSet c
def cmoL1iKey (c : Nat) : Nat := (cmoRidge c * 9 + cmoStrand c) * 128 + cmoSet c
def cmoSlcKey (c : Nat) : Nat := cmoSlice c * 3072 + cmoSet c

theorem State.cmoTarget_l1d (s : State) {c : Nat} (h : cmoLevel c = 0) :
    s.cmoTarget c = openWay s.cache.l1d (cmoL1dKey c) 4 (cmoWay c) := by
  simp [State.cmoTarget, openWay, cmoL1dKey, h]

theorem State.cmoTarget_l1i (s : State) {c : Nat} (h : cmoLevel c = 1) :
    s.cmoTarget c = openWay s.cache.l1i (cmoL1iKey c) 4 (cmoWay c) := by
  simp [State.cmoTarget, openWay, cmoL1iKey, h]

theorem State.cmoTarget_slc (s : State) {c : Nat} (h : cmoLevel c = 3) :
    s.cmoTarget c = openWay s.cache.slc (cmoSlcKey c) 16 (cmoWay c) := by
  simp [State.cmoTarget, openWay, cmoSlcKey, h]

theorem State.mapL2_l1d (s : State) (ridge l : Nat) (f : Way → Way) : (s.mapL2 ridge l f).cache.l1d = s.cache.l1d := by
  unfold State.mapL2
  extract_lets key ws
  split <;> rfl

section
variable {s : State} {c : Nat} {w : Way}

theorem State.cmoBySet_l1d (hc : cmoLevel c = 0) (h : s.cmoTarget c = some w) :
    (s.cmoBySet c w).cmoTarget c = if (cmoOp c == 1) = true then some w.clean else none := by
  rw [s.cmoTarget_l1d hc] at h
  rw [State.cmoTarget_l1d _ hc, ← openWay_edit h]
  unfold State.cmoBySet
  simp only [hc, if_true]
  split
  · rw [State.mapL2_l1d]
    rfl
  · rfl

theorem State.cmoBySet_l1i (hc : cmoLevel c = 1) (h : s.cmoTarget c = some w) :
    (s.cmoBySet c w).cmoTarget c = if (cmoOp c == 1) = true then some w else none := by
  unfold State.cmoBySet
  extract_lets clean edit d i k s1
  rw [if_neg (by omega), if_pos hc]
  by_cases hop : clean = true
  · rw [if_pos hop, if_pos hop]
    exact h
  · rw [s.cmoTarget_l1i hc] at h
    rw [if_neg hop, if_neg hop, State.cmoTarget_l1i _ hc]
    exact (openWay_edit h clean).trans (if_neg hop)

theorem State.cmoBySet_slc (hc : cmoLevel c = 3) (h : s.cmoTarget c = some w) :
    (s.cmoBySet c w).cmoTarget c = if (cmoOp c == 1) = true then some w.clean else none := by
  rw [s.cmoTarget_slc hc] at h
  rw [State.cmoTarget_slc _ hc, ← openWay_edit h]
  unfold State.cmoBySet
  simp [hc]
  rfl

end

/-- The end of an operation: its status is done, nothing is pending, and the caches are as they were. -/
theorem State.cmoDone_ends (s : State) (c : Nat) : s.cmoDone.onum 0xF010 3 = 2 ∧ s.cmoDone.cache.cmoBusy = false ∧
    s.cmoDone.cmoTarget c = s.cmoTarget c := ⟨State.onum_oset_same .., rfl, rfl⟩

/-! ## By address -/

/-- What an operation by address makes of a way that holds its line. -/
def Way.touched (l : Nat) (clean : Bool) (w : Way) : Way :=
  if w.holds l ∧ w.fenced = false then (if clean then w.clean else invalidWay) else w

/-- A copy that an operation by address leaves is clean, and only CLEAN leaves one. -/
theorem Way.touched_copy {l : Nat} {clean : Bool} {w : Way} (h : (w.touched l clean).holds l = true)
    (hf : (w.touched l clean).fenced = false) : clean = true ∧ (w.touched l clean).dirty = false := by
  unfold Way.touched at *
  by_cases hw : w.holds l ∧ w.fenced = false
  · rw [if_pos hw] at *
    cases clean with
    | true => exact ⟨rfl, rfl⟩
    | false => simp [Way.holds, invalidWay] at h
  · rw [if_neg hw] at *
    exact absurd ⟨h, hf⟩ hw

/-- The ways of a store after an operation by address. -/
def touchedWays (l : Nat) (clean : Bool) (m : SMap (List Way)) : SMap (List Way) :=
  m.map (fun p => (p.1, p.2.map (Way.touched l clean)))

/-- The L2s, the L1Ds and the SLC after an operation by address. -/
theorem State.cmoLocal_touched (s : State) (l : Nat) (clean : Bool) {m : SMap (List Way)}
    (h : m ∈ [(s.cmoLocal l clean).cache.l2, (s.cmoLocal l clean).cache.l1d, (s.cmoLocal l clean).cache.slc]) :
    ∃ m', m = touchedWays l clean m' := by
  have hcache : (s.cmoLocal l clean).cache.l2 = touchedWays l clean s.cache.l2 ∧
      (s.cmoLocal l clean).cache.l1d = touchedWays l clean s.cache.l1d ∧
      (s.cmoLocal l clean).cache.slc = touchedWays l clean s.cache.slc := by
    unfold State.cmoLocal
    cases clean <;> exact ⟨rfl, rfl, rfl⟩
  obtain ⟨hl2, hl1d, hslc⟩ := hcache
  simp only [List.mem_cons, List.not_mem_nil, or_false] at h
  rcases h with rfl | rfl | rfl
  · exact ⟨_, hl2⟩
  · exact ⟨_, hl1d⟩
  · exact ⟨_, hslc⟩

theorem touchedWays_copy {l : Nat} {clean : Bool} {m : SMap (List Way)} {q : Nat × List Way} {w : Way}
    (hq : q ∈ touchedWays l clean m) (hw : w ∈ q.2) (h : w.holds l = true) (hf : w.fenced = false) :
    clean = true ∧ w.dirty = false := by
  obtain ⟨p, -, rfl⟩ := List.mem_map.mp hq
  obtain ⟨v, -, rfl⟩ := List.mem_map.mp hw
  exact Way.touched_copy h hf

/-! ## The command of the pending operation -/

section
variable {s : State} {op : Nat} (hb : s.cache.cmoBusy = true) (ho : cmoOp (s.onum 0xF010 1) = op)
  (hm : s.coh.requests.any (fun r => r.purpose == .maint) = false)
include hb ho hm

theorem State.cmoRun_none (hs : cmoSetWay (s.onum 0xF010 1) = true) (ht : s.cmoTarget (s.onum 0xF010 1) = none) :
    s.cmoRun op = s.cmoDone := by
  simp [State.cmoRun, hb, ho, hm, hs, ht]

theorem State.cmoRun_way (hs : cmoSetWay (s.onum 0xF010 1) = true) {w : Way}
    (ht : s.cmoTarget (s.onum 0xF010 1) = some w) (hl : s.lineMoving w.line = false) :
    s.cmoRun op = (s.cmoBySet (s.onum 0xF010 1) w).cmoDone := by
  simp [State.cmoRun, hb, ho, hm, hs, ht, hl]

/-- An operation by address on a line that is at home here, idle, and that no peer holds, is done at once. -/
theorem State.cmoRun_address (hs : cmoSetWay (s.onum 0xF010 1) = false)
    (hl : s.lineMoving (imgLine (s.onum 0xF010 2)) = false) (hk : s.imgBacked (s.onum 0xF010 2) = true)
    (hh : lineDev (imgLine (s.onum 0xF010 2)) = s.sys.deviceId) (hi : s.lineBusy (imgLine (s.onum 0xF010 2)) = false)
    (hp : let l := imgLine (s.onum 0xF010 2)
      let u := s.cmoLocal l (op == 1)
      (u.snoopPlan { op := if op = 1 then opCmoClean else opCmoCleanInval, src := u.agent locProxy, dst := u.homeAgent l
                     txn := 0, line := l }).1 = []) :
    s.cmoRun op = (s.cmoLocal (imgLine (s.onum 0xF010 2)) (op == 1)).cmoDone := by
  have hidle : (s.cmoLocal (imgLine (s.onum 0xF010 2)) (op == 1)).lineBusy (imgLine (s.onum 0xF010 2)) = false := by
    unfold State.cmoLocal
    cases op == 1 <;> exact hi
  have hrun : s.cmoRun op = s.cmoByAddress (s.onum 0xF010 1) := by
    simp [State.cmoRun, hb, ho, hm, hs, hl]
  rw [hrun]
  unfold State.cmoByAddress
  extract_lets a l clean o u
  have hclean : clean = (op == 1) := congrArg (· == 1) ho
  have hop : o = if op = 1 then opCmoClean else opCmoCleanInval := by
    unfold o
    rw [hclean]
    simp only [beq_iff_eq]
  have hu : u = s.cmoLocal l (op == 1) := by
    unfold u
    rw [if_neg (Bool.eq_false_iff.mp hi), hclean]
  rw [if_neg (by rw [hk]; decide), if_pos hh, if_pos, hu]
  rw [hop, hu, List.isEmpty_iff.mpr hp, hidle]
  rfl

end

/-! ## The state of a cache -/

theorem State.cacheState_set (s : State) (c : CacheSel) (x : CacheState) :
    (s.setCacheState c x).cacheState (cacheKey c) = x := by
  unfold State.setCacheState State.cacheState
  by_cases h : x = .enabled
  · simp [h, SMap.find_del_same]
  · simp [h, SMap.find_put_same]

end Sys2Proof.Machine
end

section
/-! SUPPORT. Settling O45: parity passes and scrubs of Cairn, cache maintenance, enabling and disabling. -/
namespace Sys2Proof.Machine
open Sys2Proof

/-- Each command of the three runs the pending operation where it is of its kind. -/
theorem exec_cmoRun {p : Instr × Nat} (hp : p ∈ ([(.clean, 1), (.inval, 2), (.cleaninval, 3)] : List (Instr × Nat)))
    (s : State) : exec p.1 s = .next (s.cmoRun p.2) := by
  simp only [List.mem_cons, List.not_mem_nil, or_false] at hp
  rcases hp with rfl | rfl | rfl <;> rfl

/-- Settles O45: the rows that passes and scrubs repair, the line that an operation names, the state of a cache. -/
theorem cacheAndCairnMaintenance : Obligations.CacheAndCairnMaintenance := by
  refine ⟨fun s h => ⟨?parity, ?scrub⟩, fun s => ⟨fun p hp => ?cmo, fun c hc => ⟨fun he => ?disable, fun he => ?enable,
    fun he => ?sweep⟩⟩⟩
  case parity =>
    obtain ⟨hnow, hbanks⟩ := s.paritySweep_banks h
    have hack : Moves [.routes, .link, .out] s.paritySweep s.paritySweep.ackDone := State.ackDone_writes _
    refine ⟨s.paritySweep.ackDone, ?_, (hack.now_eq rfl).trans hnow, fun k hk => ?_⟩
    · simp only [exec_paritySweep, execParitySweep, s.lostRows_nil h, List.filter_nil, List.foldl_nil]
    · rw [State.bank_congr (hack.cairn_eq rfl)]
      exact hbanks k hk
  case scrub =>
    exact ⟨_, rfl, fun k hk row hrow => s.scrubBanks_fields _ h k row hrow (.inl hk)⟩
  case cmo =>
    intro c hb ho hm
    rw [exec_cmoRun hp]
    refine ⟨fun hs ht => ?none, fun hs w ht hl => ⟨fun hlevel => ?way, fun hlevel => ?code⟩,
      fun hs hl hk hh hi hplan => ?address⟩
    case none => rw [State.cmoRun_none hb ho hm hs ht]
    case way =>
      rw [State.cmoRun_way hb ho hm hs ht hl]
      obtain ⟨hstatus, hidle, htarget⟩ := (s.cmoBySet c w).cmoDone_ends c
      refine ⟨_, rfl, hstatus, hidle, ?_⟩
      rw [htarget, ← ho]
      rcases hlevel with hlevel | hlevel
      · simpa using State.cmoBySet_l1d hlevel ht
      · simpa using State.cmoBySet_slc hlevel ht
    case code =>
      rw [State.cmoRun_way hb ho hm hs ht hl]
      obtain ⟨hstatus, hidle, htarget⟩ := (s.cmoBySet c w).cmoDone_ends c
      refine ⟨_, rfl, hstatus, hidle, ?_⟩
      rw [htarget, ← ho]
      simpa using State.cmoBySet_l1i hlevel ht
    case address =>
      rw [State.cmoRun_address hb ho hm hs hl hk hh hi hplan]
      refine ⟨_, rfl, State.onum_oset_same .., rfl, fun m hmem q hq w hw hholds hopen => ?_⟩
      obtain ⟨m', rfl⟩ := s.cmoLocal_touched _ _ hmem
      simpa using touchedWays_copy hq hw hholds hopen
  case disable =>
    refine ⟨s.disableCache c, rfl, ?_, (s.disableCache_writes c).frame⟩
    simp [State.disableCache, hc, he, State.cacheState_set]
  case enable =>
    refine ⟨s.enableCache c, rfl, ?_, (s.enableCache_writes c).frame⟩
    simp [State.enableCache, hc, he, State.cacheState_set]
  case sweep =>
    refine ⟨s.sweepDone c, rfl, ?_, (s.sweepDone_writes c).mem_eq rfl⟩
    simp [State.sweepDone, hc, he, State.cacheState_set]

end Sys2Proof.Machine
end

section
/-! SUPPORT. Service messages: the meaning of each row, what a send leaves of the link, and what tasks that become ready leave
of a route's description and suspension (R205, R223, R358, R359). -/
namespace Sys2Proof.Machine
open Sys2Proof

/-! ## The rows (R358) -/

/-- What a row does with a message that is a fault: a violation of the port it came in by. -/
def svcViolates (m : SvcMsg) (s : State) (cause : Nat) : State := s.violationFrom cause m.op m.source

/-- The row of an opcode takes the message. -/
theorem State.svcRow_takes (s : State) {m : SvcMsg} {op : Nat} (hop : m.op = op) :
    s.svcRow m op = .next (s.takeSvc m (s.arrivalPort m.source) (svcViolates m)) := by
  exact congrArg Host.Outcome.next (if_pos hop)

/-- A well-formed message for another device goes on unchanged. -/
theorem State.takeSvc_passes {s : State} {m : SvcMsg} (hok : s.svcOk m = true) (hdest : m.dest ≠ s.sys.deviceId)
    (hop : 0xC0 ≤ m.op ∧ m.op ≤ 0xC9) (port : Option Nat) (bad : State → Nat → State) :
    s.takeSvc m port bad = s.send (.svc m) := by
  have hdeath : m.op ≠ svDeathNotice := by unfold svDeathNotice; omega
  have hknown : ¬(m.op < 0xC0 ∨ 0xCA < m.op) := by omega
  simp only [State.takeSvc, hdeath, hknown, hok, hdest, ne_eq, not_false_iff, Bool.not_true, Bool.false_eq_true, if_true,
    if_false]

/-- A service message that this device takes: it is well formed, its source is alive, and it is for this device. -/
structure State.TakesSvc (s : State) (m : SvcMsg) : Prop where
  ok : s.svcOk m = true
  alive : m.source ∉ s.coh.dead
  here : m.dest = s.sys.deviceId

section
variable {s : State} {m : SvcMsg} (h : s.TakesSvc m)
include h

theorem exec_routeOpen_taken (hop : m.op = svRouteOpen) : exec (.routeOpen m) s = .next (s.svcRouteOpen m) := by
  rw [exec_routeOpen, execRouteOpen, s.svcRow_takes hop]
  simp [State.takeSvc, hop, h.ok, h.alive, h.here, svRouteOpen, svDeathNotice]

theorem exec_routeEnd_taken (hop : m.op = svRouteEnd) : exec (.routeEnd m) s = .next (s.svcRouteEnd m) := by
  rw [exec_routeEnd, execRouteEnd, s.svcRow_takes hop]
  simp [State.takeSvc, hop, h.ok, h.alive, h.here, svRouteEnd, svDeathNotice, svRouteOpen]

theorem exec_pageAlloc_taken (hop : m.op = svPageAlloc) : exec (.pageAlloc m) s = .next (s.svcPageAlloc m) := by
  rw [exec_pageAlloc, execPageAlloc, s.svcRow_takes hop]
  simp [State.takeSvc, hop, h.ok, h.alive, h.here, svPageAlloc, svDeathNotice, svRouteOpen, svRouteEnd]

theorem exec_pageGrant_taken (hop : m.op = svPageGrant) :
    exec (.pageGrant m) s = .next (s.svcPageGrant m (svcViolates m)) := by
  rw [exec_pageGrant, execPageGrant, s.svcRow_takes hop]
  simp [State.takeSvc, hop, h.ok, h.alive, h.here, svPageGrant, svDeathNotice, svRouteOpen, svRouteEnd, svPageAlloc]

theorem exec_quotaDraw_taken (hop : m.op = svQuotaDraw) : exec (.quotaDraw m) s = .next (s.serveAsk m) := by
  rw [exec_quotaDraw, execQuotaDraw, s.svcRow_takes hop]
  simp [State.takeSvc, hop, h.ok, h.alive, h.here, svQuotaDraw, svDeathNotice, svRouteOpen, svRouteEnd, svPageAlloc,
    svPageGrant]

theorem exec_quotaGrant_taken (hop : m.op = svQuotaGrant) :
    exec (.quotaGrant m) s = .next (s.svcQuotaGrant m (svcViolates m)) := by
  rw [exec_quotaGrant, execQuotaGrant, s.svcRow_takes hop]
  simp [State.takeSvc, hop, h.ok, h.alive, h.here, svQuotaGrant, svDeathNotice, svRouteOpen, svRouteEnd, svPageAlloc,
    svPageGrant, svQuotaDraw]

theorem exec_quotaReturn_taken (hop : m.op = svQuotaReturn) : exec (.quotaReturn m) s = .next (s.svcQuotaReturn m) := by
  rw [exec_quotaReturn, execQuotaReturn, s.svcRow_takes hop]
  simp [State.takeSvc, hop, h.ok, h.alive, h.here, svQuotaReturn, svDeathNotice, svRouteOpen, svRouteEnd, svPageAlloc,
    svPageGrant, svQuotaDraw, svQuotaGrant]

theorem exec_ropeNotice_taken (hop : m.op = svRopeNotice) : exec (.ropeNotice m) s = .next (s.svcRopeNotice m) := by
  rw [exec_ropeNotice, execRopeNotice, s.svcRow_takes hop]
  simp [State.takeSvc, hop, h.ok, h.alive, h.here, svRopeNotice, svDeathNotice, svRouteOpen, svRouteEnd, svPageAlloc,
    svPageGrant, svQuotaDraw, svQuotaGrant, svQuotaReturn]

theorem exec_summitEntry_taken (hop : m.op = svSummitEntry) : exec (.summitEntry m) s = .next (s.svcSummitEntry m) := by
  rw [exec_summitEntry, execSummitEntry, s.svcRow_takes hop]
  simp [State.takeSvc, hop, h.ok, h.alive, h.here, svSummitEntry, svDeathNotice, svRouteOpen, svRouteEnd, svPageAlloc,
    svPageGrant, svQuotaDraw, svQuotaGrant, svQuotaReturn, svRopeNotice]

theorem exec_summitClose_taken (hop : m.op = svSummitClose) : exec (.summitClose m) s = .next (s.svcSummitClose m) := by
  rw [exec_summitClose, execSummitClose, s.svcRow_takes hop]
  simp [State.takeSvc, hop, h.ok, h.alive, h.here, svSummitClose, svDeathNotice, svRouteOpen, svRouteEnd, svPageAlloc,
    svPageGrant, svQuotaDraw, svQuotaGrant, svQuotaReturn, svRopeNotice, svSummitEntry]

end

/-! ## What a send leaves of the link -/

/-- The copies being read and the ropes on their way are the same. -/
structure SameTransit (s t : State) : Prop where
  copies : t.link.copies = s.link.copies
  outbound : t.link.outbound = s.link.outbound

namespace SameTransit
variable {s t u : State}

theorem refl (s : State) : SameTransit s s := ⟨rfl, rfl⟩

theorem trans (h : SameTransit s t) (h' : SameTransit t u) : SameTransit s u :=
  ⟨h'.copies.trans h.copies, h'.outbound.trans h.outbound⟩

theorem of_moves {l : List Field} (h : Moves l s t) (hl : l.contains .link = false := by rfl) : SameTransit s t :=
  ⟨congrArg LinkSt.copies (h.link_eq hl), congrArg LinkSt.outbound (h.link_eq hl)⟩

theorem ite {p : Prop} [Decidable p] (h : SameTransit s t) (h' : SameTransit s u) : SameTransit s (if p then t else u) := by
  split <;> assumption

theorem foldl {β : Type} {g : State → β → State} (l : List β) (hg : ∀ t b, SameTransit t (g t b)) (h : SameTransit s t) :
    SameTransit s (l.foldl g t) := by
  induction l generalizing t with
  | nil => exact h
  | cons b l ih => exact ih (h.trans (hg t b))

theorem foldl_snd {β γ : Type} {g : γ × State → β → γ × State} (l : List β) (hg : ∀ p b, SameTransit p.2 (g p b).2)
    (p : γ × State) : SameTransit p.2 (l.foldl g p).2 := by
  induction l generalizing p with
  | nil => exact .refl p.2
  | cons b l ih => exact (hg p b).trans (ih _)

/-- The rope of a number is the same. -/
theorem outbound? (h : SameTransit s t) (id : Nat) : t.outbound? id = s.outbound? id := by
  unfold State.outbound?
  rw [h.outbound]

end SameTransit

theorem State.setPort_transit (s : State) (p : Nat) (x : PortSt) : SameTransit s (s.setPort p x) := by
  unfold State.setPort
  constructor
  · dsimp only
    split <;> rfl
  · dsimp only
    split <;> rfl

theorem State.sendPayload_transit (s : State) (p : Nat) (f : TxFlit) : SameTransit s (s.sendPayload p f) :=
  (s.setPort_transit p _).trans (.of_moves (State.emit_writes ..))

theorem State.pumpPort_transit (s : State) (p n : Nat) : SameTransit s (s.pumpPort p n) := by
  induction n generalizing s with
  | zero => exact .refl s
  | succ n ih =>
    unfold State.pumpPort
    extract_lets x
    split
    · exact .refl s
    split
    next y f _ =>
    exact .ite (s.setPort_transit p y)
      (((s.setPort_transit p _).trans (State.sendPayload_transit _ p f)).trans (ih _))

theorem State.send_transit (s : State) (m : Msg) : SameTransit s (s.send m) := by
  unfold State.send
  refine .ite (.refl s) ?_
  split
  · exact .refl s
  · refine .ite (.of_moves (s.emit_writes _)) ?_
    split
    · exact (s.setPort_transit _ _).trans (State.pumpPort_transit ..)
    · exact .refl s

theorem State.sendCoh_transit (s : State) (m : CohMsg) : SameTransit s (s.sendCoh m) := s.send_transit _

theorem State.sendSvc_transit (s : State) (op dest tenant route arg slot1 slot2 : Nat) :
    SameTransit s (s.sendSvc op dest tenant route arg slot1 slot2) := s.send_transit _

theorem State.request_transit (s : State) (m : CohMsg) (loc : Nat) (p : Purpose) : SameTransit s (s.request m loc p).2 := by
  unfold State.request State.newTxn
  dsimp only
  refine .ite ⟨rfl, rfl⟩ (.trans ?_ (State.sendCoh_transit ..))
  exact ⟨rfl, rfl⟩

theorem State.payCloses_transit (s : State) : SameTransit s s.payCloses :=
  .foldl _ (fun t _ => t.sendSvc_transit ..) ⟨rfl, rfl⟩

theorem State.ackDone_transit (s : State) : SameTransit s s.ackDone := by
  unfold State.ackDone
  refine .ite (.refl s) (.foldl _ (fun t r => ?_) (.refl s))
  split
  · exact .refl t
  · exact .ite (.refl t) ((t.send_transit _).trans (.of_moves (State.mapSpan_writes ..)))

/-! ## The description and the suspension of a route -/

/-- What tasks that become ready and objects that are made leave of a route: its description and its suspension. -/
def Route.terms (r : Route) : RouteDesc × Option Suspend := (r.desc, r.suspended)

theorem State.pushTask_terms (s : State) (t : Task) : RoutesKeep Route.terms s (s.pushTask t) := by
  have hslot : RoutesKeep Route.terms s (s.takeSlot t) := .of_moves (s.takeSlot_writes t)
  unfold State.pushTask
  split
  · exact .refl s
  · extract_lets st isSealed
    split
    · exact .ite (.updRoute s _ _ (fun _ => rfl) (fun _ => rfl)) hslot
    · exact hslot

theorem State.mapSpan_terms (s : State) (k : RouteKey) (f : Span → Span) : RoutesKeep Route.terms s (s.mapSpan k f) :=
  .updRoute s k _ (fun _ => rfl) (fun _ => rfl)

theorem State.fillRidge_terms (s : State) (k : RouteKey) (stage ridge : Nat) (share : Nat × Nat) (n : Nat) :
    RoutesKeep Route.terms s (s.fillRidge k stage ridge share n) := by
  induction n generalizing s with
  | zero => exact .refl s
  | succ n ih =>
    unfold State.fillRidge
    split
    · exact .refl s
    · exact .ite (((s.pushTask_terms _).trans (State.mapSpan_terms _ k _)).trans (ih _)) (.refl s)

theorem State.fillSources_terms (s : State) : RoutesKeep Route.terms s s.fillSources := by
  unfold State.fillSources
  extract_lets u
  have hu : RoutesKeep Route.terms s u := .of_moves s.fillSlots_writes
  refine .ite hu (.foldl _ (fun t r => ?_) hu)
  split
  · exact .refl t
  · exact .ite (.refl t) (.foldl _ (fun v x => .foldl _ (fun w q => w.fillRidge_terms ..) (.refl v)) (.refl t))

theorem State.readySeals_terms (s : State) (k : RouteKey) : RoutesKeep Route.terms s (s.readySeals k) := by
  unfold State.readySeals
  split
  · exact .refl s
  · refine .foldl _ (fun t p => .ite (.foldl _ (fun u q => ?_) (.refl t)) (.refl t)) (.refl s)
    exact .ite (.refl u) (u.pushTask_terms _)

theorem State.startTasks_terms (s : State) (k : RouteKey) : RoutesKeep Route.terms s (s.startTasks k) := by
  unfold State.startTasks
  split
  · exact .refl s
  · extract_lets rel pushed
    have hp : RoutesKeep Route.terms s pushed :=
      .foldl _ (fun t i => .foldl _ (fun u q => .ite (.refl u) (u.pushTask_terms _)) (.refl t)) (.refl s)
    exact (hp.trans (State.readySeals_terms _ k)).trans (State.fillSources_terms _)

theorem State.noteAllocated_terms (s : State) (k : Option RouteKey) (o : Nat) :
    RoutesKeep Route.terms s (s.noteAllocated k o) := by
  cases k with
  | none => exact .refl s
  | some k => exact s.mapSpan_terms k _

theorem State.newObj_terms {s t : State} {tn cls ridge o : Nat} {k : Option RouteKey} {c : Content} {forms : List ColForm}
    (h : s.newObj tn cls ridge k c forms = some (o, t)) : RoutesKeep Route.terms s t := by
  unfold State.newObj at h
  split at h
  · obtain ⟨rfl, rfl⟩ := Prod.ext_iff.mp (Option.some.inj h)
    exact .trans (.of_moves (s.putObj_writes ..)) (State.noteAllocated_terms _ k _)
  · cases h

end Sys2Proof.Machine
end

section
/-! SUPPORT. Routes opened and ended by service messages (R86, R358; logs 38, 39). -/
namespace Sys2Proof.Machine
open Sys2Proof

/-! ## A span that opens -/

/-- A route's new span is put into it, noted in the log, and its tasks start. -/
theorem State.openSpan_some (s : State) {k : RouteKey} {r : Route} (hr : s.route? k = some r) (pitch : Nat) :
    ∃ sp : Span, sp.openPitch = pitch ∧
      s.openSpan k pitch = ((s.updRoute k (fun r => { r with span := some sp })).logRoute k 0x1).startTasks k := by
  unfold State.openSpan
  rw [hr]
  exact ⟨_, rfl, rfl⟩

/-- A span opened on a route begins at the pitch, and the route's suspension is as before. -/
theorem State.openSpan_opens (s : State) {k : RouteKey} {r : Route} (hr : s.route? k = some r) (pitch : Nat) :
    ∃ r' sp, (s.openSpan k pitch).route? k = some r' ∧ r'.suspended = r.suspended ∧ r'.span = some sp ∧
      sp.openPitch = pitch := by
  obtain ⟨sp, hpitch, hopen⟩ := s.openSpan_some hr pitch
  rw [hopen]
  have hput : (s.updRoute k (fun r => { r with span := some sp })).route? k = some { r with span := some sp } := by
    rw [s.route?_updRoute k k _ (by exact fun _ => rfl), hr]
    simp [State.key_of_route? hr]
  have hlog := (s.updRoute k (fun r => { r with span := some sp })).logRoute_writes k 0x1
  have hsettled := (RoutesKeep.of_moves (f := Route.settled) hlog).trans (State.startTasks_keeps _ k)
  have hterms := (RoutesKeep.of_moves (f := Route.terms) hlog).trans (State.startTasks_terms _ k)
  obtain ⟨r', sp', hr', hsp', hbare, -⟩ := hsettled.settled_get hput rfl
  obtain ⟨r'', hr'', hsame⟩ := hterms.get hput
  obtain rfl : r'' = r' := Option.some.inj (hr''.symm.trans hr')
  exact ⟨r'', sp', hr', (Prod.ext_iff.mp hsame).2, hsp', (congrArg Span.openPitch hbare).trans hpitch⟩

/-! ## Requests for a copy -/

theorem State.request_requests (s : State) (m : CohMsg) (loc : Nat) (p : Purpose) : ∃ q : OpenReq,
    (s.request m loc p).2.coh.requests = s.coh.requests ++ [q] ∧ q.msg.op = m.op ∧ q.msg.line = m.line ∧ q.purpose = p := by
  unfold State.request State.newTxn
  dsimp only
  split
  · exact ⟨_, rfl, rfl, rfl, rfl⟩
  · rw [(State.sendCoh_writes ..).coh_eq rfl rfl]
    exact ⟨_, rfl, rfl, rfl, rfl⟩

/-- The requests of a list all stand, and those from before. -/
theorem State.foldl_request {α : Type} (g : α → CohMsg) (p : α → Purpose) (loc : Nat) (l : List α) (s : State) :
    let t := l.foldl (fun s a => (s.request (g a) loc (p a)).2) s
    SameTransit s t ∧ s.coh.requests ⊆ t.coh.requests ∧ ∀ a ∈ l, ∃ q ∈ t.coh.requests,
      q.msg.op = (g a).op ∧ q.msg.line = (g a).line ∧ q.purpose = p a := by
  induction l generalizing s with
  | nil => exact ⟨.refl s, fun _ h => h, fun _ h => absurd h List.not_mem_nil⟩
  | cons a l ih =>
    obtain ⟨q, hq, hmade⟩ := s.request_requests (g a) loc (p a)
    obtain ⟨htransit, hsub, hall⟩ := ih (s.request (g a) loc (p a)).2
    rw [hq] at hsub
    refine ⟨(s.request_transit ..).trans htransit, fun x hx => hsub (List.mem_append_left _ hx), fun b hb => ?_⟩
    rcases List.mem_cons.mp hb with rfl | hb
    · exact ⟨q, hsub (by simp), hmade⟩
    · exact hall b hb

theorem RouteCopy.whole_of_nothing {c : RouteCopy} (hgot : c.got = []) (hbytes : 0 < c.bytes) : c.whole = none := by
  have hn : 0 < ceilDiv c.bytes 64 := by
    simp only [ceilDiv, OfNat.ofNat_ne_zero, if_false]
    omega
  unfold RouteCopy.whole
  dsimp only
  refine if_neg fun hall => ?_
  have hfirst := List.all_eq_true.mp hall 0 (List.mem_range.mpr hn)
  simp [hgot, SMap.find] at hfirst

/-- What becomes of one copy once its lines are there. -/
def State.finishCopy (s : State) (c : RouteCopy) : State :=
  match c.whole with
  | none => s
  | some b =>
    let s := { s with link := { s.link with copies := s.link.copies.filter (fun x => x.key != c.key) } }
    match copyDesc c.key b with
    | none => s
    | some d => s.addRoute (Route.fresh c.key d b s.sched.nextOrder s.pitch.number s.timeNs)

theorem State.finishCopies_eq (s : State) : s.finishCopies = s.link.copies.foldl State.finishCopy s := rfl

/-- A copy stays while no copy of its route is whole. -/
theorem State.mem_finishCopy {s : State} {c x : RouteCopy} (hc : c ∈ s.link.copies)
    (hx : x.key = c.key → x.whole = none) : c ∈ (s.finishCopy x).link.copies := by
  unfold State.finishCopy
  split
  · exact hc
  next b hb =>
    have hkey : c.key ≠ x.key := fun h => by simp [hx h.symm] at hb
    have hmem : c ∈ s.link.copies.filter (fun y => y.key != x.key) := List.mem_filter.mpr ⟨hc, by simpa using hkey⟩
    dsimp only
    split
    · exact hmem
    · exact hmem

theorem State.mem_finishCopies {s : State} {c : RouteCopy} (hc : c ∈ s.link.copies)
    (hk : ∀ x ∈ s.link.copies, x.key = c.key → x.whole = none) : c ∈ s.finishCopies.link.copies := by
  rw [s.finishCopies_eq]
  generalize s.link.copies = l at hk
  induction l generalizing s with
  | nil => exact hc
  | cons x l ih =>
    exact ih (State.mem_finishCopy hc (hk x List.mem_cons_self)) (fun y hy => hk y (List.mem_cons_of_mem _ hy))

/-! ## ROUTE_OPEN -/

/-- A copy begins. -/
def State.beginCopy (s : State) (c : RouteCopy) : State := { s with link := { s.link with copies := s.link.copies ++ [c] } }

/-- The request for a line of the admitted copy that a ROUTE_OPEN names. -/
def copyLine (m : SvcMsg) (i : Nat) : CohMsg := { op := opRdNc, src := 0, dst := 0, txn := 0, line := m.arg / 64 * 64 + 64 * i }

/-- The copy that a ROUTE_OPEN names, as it begins. -/
def copyNamed (m : SvcMsg) (k : RouteKey) : RouteCopy := { key := k, line := m.arg, bytes := m.slot1 / 2 ^ 96, got := [] }

/-- The copy of a route begun, and each line of it asked for. -/
def State.askCopy (s : State) (m : SvcMsg) (k : RouteKey) : State :=
  (List.range (ceilDiv (m.slot1 / 2 ^ 96) 64)).foldl
    (fun s i => (s.request (copyLine m i) locProxy (.routeCopy k (64 * i))).2) (s.beginCopy (copyNamed m k))

section
variable {s : State} {m : SvcMsg} {k : RouteKey} (hk : k = { tenant := m.tenant, id := m.route, home := m.source })
include hk

theorem State.svcRouteOpen_known (hopen : ∀ r, s.route? k = some r → r.suspended = none)
    (hknown : (s.route? k).isSome = true ∨ s.link.copies.any (fun c => c.key == k) = true) : s.svcRouteOpen m = s := by
  subst hk
  unfold State.svcRouteOpen
  dsimp only
  rw [if_neg, if_pos]
  · simpa using hknown
  · cases hr : s.route? { tenant := m.tenant, id := m.route, home := m.source } with
    | none => simp
    | some r => simp [hopen r hr]

/-- One for a suspended route opens its next span. -/
theorem State.svcRouteOpen_suspended {r : Route} (hr : s.route? k = some r) (hsusp : r.suspended.isSome = true) :
    ∃ r' sp, (s.svcRouteOpen m).route? k = some r' ∧ r'.suspended = none ∧ r'.span = some sp ∧
      sp.openPitch = s.pitch.number := by
  have hclear : (s.updRoute k (fun r => { r with suspended := none })).route? k = some { r with suspended := none } := by
    rw [s.route?_updRoute k k _ (by exact fun _ => rfl), hr]
    simp [State.key_of_route? hr]
  have hopen : s.svcRouteOpen m = (s.updRoute k (fun r => { r with suspended := none })).openSpan k s.pitch.number := by
    unfold State.svcRouteOpen
    rw [← hk]
    exact if_pos (by simp [hr, hsusp])
  rw [hopen]
  exact State.openSpan_opens _ hclear _

/-- One for a route that is not known here begins its copy, and asks for each line of it. -/
theorem State.svcRouteOpen_new (hr : s.route? k = none) (hcopy : s.link.copies.any (fun c => c.key == k) = false)
    (hbytes : 0 < m.slot1 / 2 ^ 96) :
    { key := k, line := m.arg, bytes := m.slot1 / 2 ^ 96, got := [] } ∈ (s.svcRouteOpen m).link.copies ∧
      ∀ i < ceilDiv (m.slot1 / 2 ^ 96) 64, ∃ q ∈ (s.svcRouteOpen m).coh.requests, q.msg.op = opRdNc ∧
        q.msg.line = m.arg / 64 * 64 + 64 * i ∧ q.purpose = .routeCopy k (64 * i) := by
  have hopen : s.svcRouteOpen m = (s.askCopy m k).finishCopies := by
    unfold State.svcRouteOpen
    rw [← hk]
    exact (if_neg (by simp [hr])).trans (if_neg (by simp [hr, hcopy]))
  obtain ⟨htransit, -, hasked⟩ := State.foldl_request (copyLine m) (fun i => .routeCopy k (64 * i)) locProxy
    (List.range (ceilDiv (m.slot1 / 2 ^ 96) 64)) (s.beginCopy (copyNamed m k))
  have hcopies : (s.askCopy m k).link.copies = s.link.copies ++ [copyNamed m k] := htransit.copies
  rw [hopen]
  refine ⟨State.mem_finishCopies (hcopies ▸ List.mem_append_right _ (List.mem_singleton_self _)) fun x hx hkey => ?_,
    fun i hi => ?_⟩
  · rcases List.mem_append.mp (hcopies ▸ hx) with hx | hx
    · exact absurd hkey (by simpa using List.any_eq_false.mp hcopy x hx)
    · rw [List.mem_singleton.mp hx]
      exact RouteCopy.whole_of_nothing rfl hbytes
  · rw [(State.finishCopies_writes _).coh_eq rfl rfl]
    exact hasked i (List.mem_range.mpr hi)

end

/-! ## ROUTE_END -/

/-- A route whose home is another device is gone once it is closed. -/
theorem State.closeOut_far (s : State) {k : RouteKey} (hfar : s.isHome k = false) (status tick check : Nat) (record : Bool) :
    (s.closeOut k status tick check record).route? k = none := by
  unfold State.closeOut
  split
  · assumption
  · have hfree : (s.freeRoute k).isHome k = false := by
      unfold State.isHome
      rw [(s.freeRoute_writes k).sys_eq rfl]
      exact hfar
    simp only [hfree, Bool.false_eq_true, if_false]
    rw [State.route?_congr ((State.returnQuota_writes ..).routes_eq rfl)]
    simp [State.route?]

/-- The copies being read without those of a route. -/
def State.dropCopies (s : State) (k : RouteKey) : State :=
  { s with link := { s.link with copies := s.link.copies.filter (fun c => c.key != k) } }

section
variable {s : State} {m : SvcMsg} {far near : RouteKey} {r : Route}
  (hfar : far = { tenant := m.tenant, id := m.route, home := m.source })
include hfar

/-- The home's ROUTE_END frees the route here. -/
theorem State.svcRouteEnd_far (hpeer : m.source ≠ s.sys.deviceId) (hr : s.route? far = some r) :
    (s.svcRouteEnd m).route? far = none := by
  have hend : s.svcRouteEnd m = ((s.dropCopies far).discardSpan far).closeOut far m.arg s.pitch.number 0 false := by
    have hr' : (s.dropCopies far).route? far = some r := hr
    unfold State.dropCopies at *
    simp only [State.svcRouteEnd, ← hfar, hr']
  rw [hend]
  refine State.closeOut_far _ ?_ ..
  unfold State.isHome
  rw [(State.discardSpan_writes ..).sys_eq rfl, hfar]
  simpa [State.dropCopies] using hpeer

/-- A participant's ROUTE_END adds its condition to the route at its home, which ends at a tick. -/
theorem State.svcRouteEnd_near (hnear : near = { tenant := m.tenant, id := m.route, home := s.sys.deviceId })
    (hnone : s.route? far = none) (hr : s.route? near = some r) (hdue : r.finalDue = false)
    (hnew : r.conditions.contains m.arg = false) (hopen : r.suspended = none) (hfull : m.arg ≠ stDepotFull) :
    ∃ r', (s.svcRouteEnd m).route? near = some r' ∧ r'.conditions = r.conditions ++ [m.arg] ∧ r'.endTick.isSome = true := by
  have hend : s.svcRouteEnd m = (s.dropCopies far).endAt near m.arg := by
    have hnone' : (s.dropCopies far).route? far = none := hnone
    have hr' : (s.dropCopies far).route? near = some r := hr
    unfold State.dropCopies at *
    simp only [State.svcRouteEnd, ← hfar, ← hnear, hnone', hr', hdue, hnew, hopen, Option.isSome_none, Bool.or_self,
      Bool.false_eq_true, if_false, if_neg hfull]
  have hr' : (s.dropCopies far).route? near = some r := hr
  rw [hend, State.endAt, State.route?_updRoute _ _ _ _ (by exact fun _ => rfl), hr', Option.map_some,
    if_pos (by simp [State.key_of_route? hr])]
  exact ⟨_, rfl, rfl, by cases r.endTick <;> rfl⟩

end

end Sys2Proof.Machine
end

section
/-! SUPPORT. Pages and quota asked for, granted and returned by service messages (R219, R223, R359). -/
namespace Sys2Proof.Machine
open Sys2Proof

/-! ## PAGE_ALLOC -/

/-- The count of waits for the zeroing engine is none of what the choice of a page reads. -/
theorem State.fitPage_oinc (s : State) {i mem : Nat} (n t size : Nat) (zeroed : Bool) (ht : t ≠ 0)
    (h : okey 0x5000 2 ≠ okey i mem) : (s.oinc i mem n).fitPage t size zeroed = s.fitPage t size zeroed := by
  have hpop : (s.oinc i mem n).populated = s.populated := s.onum_oinc_other n h
  simp only [State.fitPage, State.taken, State.tierRange, State.regionBase, hpop, if_neg ht]
  rfl

theorem State.mustClear_oinc (s : State) {i mem : Nat} (n : Nat) (m : SvcMsg) (h : okey 0x5000 2 ≠ okey i mem) :
    (s.oinc i mem n).mustClear m = s.mustClear m := by
  simp only [State.mustClear, s.fitPage_oinc n 1 _ _ Nat.one_ne_zero h]
  rfl

theorem State.serveAsk_waits {s : State} {m : SvcMsg} (h : s.behindAsk m = true ∨ s.mustClear m = true) :
    s.serveAsk m = s.withAsks (s.depot.pageAsks ++ [m]) := by
  unfold State.serveAsk
  exact if_pos (by simpa using h)

theorem State.svcPageAlloc_eq {s : State} {m : SvcMsg} (h : s.mustClear m = false) : s.svcPageAlloc m = s.serveAsk m := by
  simp [State.svcPageAlloc, h]

/-- A request that must wait for cleared pages is counted, and waits. -/
theorem State.svcPageAlloc_clears {s : State} {m : SvcMsg} (h : s.mustClear m = true) :
    (s.svcPageAlloc m).depot.pageAsks = s.depot.pageAsks ++ [m] ∧
      (s.svcPageAlloc m).onum 0x4002 6 = min (2 ^ 64 - 1) (s.onum 0x4002 6 + 1) ∧
      Writes [.objs, .depot] s (s.svcPageAlloc m) := by
  have hwait : s.svcPageAlloc m = (s.oinc 0x4002 6 1).withAsks (s.depot.pageAsks ++ [m]) := by
    unfold State.svcPageAlloc
    rw [if_pos h, State.serveAsk_waits (.inr ((s.mustClear_oinc 1 m (by decide)).trans h))]
    rfl
  rw [hwait]
  exact ⟨rfl, State.onum_oinc_same s 0x4002 6 1 (r := _) rfl,
    (((s.oinc_writes ..).mono (.mk rfl)).trans ((State.withAsks_writes _ _).mono (.mk rfl))).frame⟩

/-- A request of no tenant's route here gets no page. -/
theorem State.svcPageAlloc_none {s : State} {m : SvcMsg} (hop : m.op = svPageAlloc) (hfirst : s.behindAsk m = false)
    (hkey : s.askKey m = none) : s.svcPageAlloc m = s.sendSvc svPageGrant m.source m.tenant m.route 0 0 0 := by
  have hclear : s.mustClear m = false := by simp [State.mustClear, hkey]
  rw [State.svcPageAlloc_eq hclear, State.serveAsk, hfirst, hclear, hop]
  simp only [Bool.or_self, Bool.false_eq_true, if_false, if_true, State.answerAlloc, hkey]
  rfl

/-- A page of the Depot region becomes the next page, of its object. -/
theorem State.addPage_region (s : State) (o i : Nat) (d : DObj) (a : Nat) : ∃ p : Page,
    (s.addPage o i d 1 a).depot.pages.find s.depot.nextPage = some p ∧ p.obj = o ∧ p.tier = 1 ∧ p.addr = a ∧
      p.size = clsPage d.cls :=
  ⟨_, SMap.find_put_same .., rfl, rfl, rfl, rfl⟩

/-- A request for a page of a route goes out of the cleared pages of the Depot region. -/
theorem State.svcPageAlloc_grants {s s' : State} {m : SvcMsg} {r : Route} {a o : Nat} {d : DObj} (hop : m.op = svPageAlloc)
    (hfirst : s.behindAsk m = false) (hr : s.svcRoute m = some r)
    (hfit : s.fitPage 1 (clsPage (m.arg / 2 ^ 61)) true = some a) (hroom : s.depot.pages.length < 8388608)
    (hobj : s.inboundObj m.source r.key (m.arg / 2 ^ 61) = some (o, s')) (hd : s'.dobj? o = some d) :
    ∃ i h, s.svcPageAlloc m =
      (s'.addPage o i d 1 a).sendSvc svPageGrant m.source m.tenant m.route h (s.lineAt false a) 0 := by
  have hkey : s.askKey m = some r.key := by simp [State.askKey, hr]
  have hclear : s.mustClear m = false := by
    simp only [State.mustClear, hfit, Option.isNone_some, Bool.and_false, Bool.false_and]
  have hline : s'.lineAt false a = s.lineAt false a := by
    unfold State.lineAt
    rw [(OptAll.stSnd (State.inboundObj_writes ..) hobj).sys_eq rfl]
  rw [State.svcPageAlloc_eq hclear, State.serveAsk, hfirst, hclear, hop]
  simp only [Bool.or_self, Bool.false_eq_true, if_false, if_true, State.answerAlloc, hkey, hfit, State.grantTo,
    if_neg (Nat.not_le.mpr hroom), hobj, hd, hline]
  exact ⟨_, _, rfl⟩

/-! ## PAGE_GRANT -/

theorem State.outbound?_mapOutbound (s : State) (id j : Nat) (f : Outbound → Outbound) (hf : ∀ o, (f o).id = o.id) :
    (s.mapOutbound id f).outbound? j = (s.outbound? j).map (fun o => if o.id = id then f o else o) := by
  have hid : ((fun o : Outbound => o.id == j) ∘ fun o => if o.id = id then f o else o) = fun o => o.id == j := by
    funext o
    simp only [Function.comp_apply]
    split
    · rw [hf]
    · rfl
  rw [State.outbound?, State.mapOutbound, List.find?_map, hid]
  rfl

theorem State.id_of_outbound? {s : State} {id : Nat} {o : Outbound} (h : s.outbound? id = some o) : o.id = id := by
  simpa using List.find?_some h

theorem State.outbound?_mapOutbound_same (s : State) {id : Nat} {o : Outbound} (f : Outbound → Outbound)
    (hf : ∀ o, (f o).id = o.id) (ho : s.outbound? id = some o) : (s.mapOutbound id f).outbound? id = some (f o) := by
  rw [s.outbound?_mapOutbound id id f hf, ho, Option.map_some, if_pos (State.id_of_outbound? ho)]

theorem State.outbound?_mapOutbound_other (s : State) {id j : Nat} (f : Outbound → Outbound) (hf : ∀ o, (f o).id = o.id)
    (h : j ≠ id) : (s.mapOutbound id f).outbound? j = s.outbound? j := by
  rw [s.outbound?_mapOutbound id j f hf]
  cases ho : s.outbound? j with
  | none => rfl
  | some o => rw [Option.map_some, if_neg ((State.id_of_outbound? ho).trans_ne h)]

theorem State.outbound?_dropOutbound_other (s : State) {id j : Nat} (h : j ≠ id) :
    (s.dropOutbound id).outbound? j = s.outbound? j := by
  unfold State.outbound? State.dropOutbound
  rw [List.find?_filter]
  congr 1
  funext o
  by_cases ho : o.id = j
  · simp [ho, h]
  · simp [ho]

/-- The work on one rope leaves the others. -/
theorem State.pumpOne_other (s : State) {id j : Nat} (h : j ≠ id) : (s.pumpOne id).outbound? j = s.outbound? j := by
  unfold State.pumpOne
  split
  · rfl
  · extract_lets asking need a asked loc n sent dropped slots told
    split
    · split
      · rfl
      · exact (State.sendSvc_transit ..).outbound? j
    split
    · rfl
    split
    · have hsent : SameTransit s sent.2 := by
        refine SameTransit.foldl_snd (γ := List Nat) _ (fun p _ => ?_) ([], s)
        exact p.2.request_transit ..
      rw [State.outbound?_mapOutbound_other _ _ (by exact fun _ => rfl) h, hsent.outbound? j]
    · rw [told.payCloses_transit.outbound? j, ← s.outbound?_dropOutbound_other h]
      unfold told
      split
      · exact ((State.sendSvc_transit ..).trans (.of_moves (State.readySeals_writes ..))).outbound? j
      · exact (State.sendSvc_transit ..).outbound? j

/-- A rope that lacks pages only asks for the next one. -/
theorem State.pumpOne_lacking (s : State) {id : Nat} {o : Outbound} (ho : s.outbound? id = some o)
    (hp : o.pages.length < ceilDiv o.bytes.length kib64) : (s.pumpOne id).outbound? id = some o := by
  unfold State.pumpOne
  rw [ho]
  dsimp only
  rw [if_pos hp]
  split
  · exact ho
  · exact ((State.sendSvc_transit ..).outbound? id).trans ho

/-- A rope that lacks pages stays as it is while ropes go out. -/
theorem State.pumpOutbound_lacking (s : State) {id : Nat} {o : Outbound} (ho : s.outbound? id = some o)
    (hp : o.pages.length < ceilDiv o.bytes.length kib64) : s.pumpOutbound.outbound? id = some o := by
  have hfold : ∀ (l : List Outbound) (t : State), t.outbound? id = some o →
      (l.foldl (fun t x => t.pumpOne x.id) t).outbound? id = some o := by
    intro l
    induction l with
    | nil => exact fun _ h => h
    | cons x l ih =>
      refine fun t ht => ih _ ?_
      by_cases hx : id = x.id
      · subst hx
        exact t.pumpOne_lacking ht hp
      · exact (t.pumpOne_other hx).trans ht
  unfold State.pumpOutbound
  rw [(State.ackDone_transit _).outbound? id, (State.payCloses_transit _).outbound? id]
  exact hfold _ s ho

theorem State.takeAsked_depot {s s' : State} {dev op : Nat} {a : Asked} (h : s.takeAsked dev op = some (a, s')) :
    s'.depot = s.depot := by
  obtain ⟨_, -, ha⟩ := Option.map_eq_some_iff.mp h
  exact (congrArg State.depot (Prod.ext_iff.mp ha).2).symm

theorem State.svcPageGrant_tier2 {s s' : State} {m : SvcMsg} {a : Asked} (bad : State → Nat → State)
    (ha : s.takeAsked m.source svPageAlloc = some (a, s')) (hid : a.outId = none) :
    (s.svcPageGrant m bad).depot.granted = s.depot.granted ++ [{ device := m.source, tenant := a.tenant, route := a.route
                                                                 cls := a.cls, line := if m.arg = 0 then 0 else m.slot1 }] := by
  simp only [State.svcPageGrant, ha, hid, State.takeAsked_depot ha]

/-- A granted page is the next of a rope that lacks more. -/
theorem State.svcPageGrant_rope {s s' : State} {m : SvcMsg} {a : Asked} {id : Nat} {o : Outbound} (bad : State → Nat → State)
    (ha : s.takeAsked m.source svPageAlloc = some (a, s')) (hid : a.outId = some id) (ho : s'.outbound? id = some o)
    (harg : m.arg ≠ 0) (hp : o.pages.length + 1 < ceilDiv o.bytes.length kib64) :
    ∃ o', (s.svcPageGrant m bad).outbound? id = some o' ∧ o'.pages = o.pages ++ [m.slot1] := by
  simp only [State.svcPageGrant, ha, hid, ho, if_neg harg]
  exact ⟨_, State.pumpOutbound_lacking _ (s'.outbound?_mapOutbound_same _ (by exact fun _ => rfl) ho) (by simpa using hp),
    rfl⟩

/-! ## Quota (R223) -/

/-- A draw is answered with its blocks where the tenant's quota covers them, and they are lent. -/
theorem State.answerDraw_lends (s : State) (m : SvcMsg) :
    let ok := m.arg * quotaBlock ≤ s.depotQuota m.tenant - s.depotUsed m.tenant
    ∃ x : State, s.answerDraw m = x.sendSvc svQuotaGrant m.source m.tenant m.route (if ok then m.arg else 0) 0 0 ∧
      (x.depot.lent.find m.tenant).getD 0 =
        (if ok then (s.depot.lent.find m.tenant).getD 0 + m.arg else (s.depot.lent.find m.tenant).getD 0) ∧
      Writes [.depot] s x := by
  intro ok
  refine ⟨_, rfl, ?lent, Moves.frame ?writes⟩
  case lent =>
    by_cases hok : ok
    · by_cases harg : m.arg = 0
      · simp [harg]
      · rw [if_pos ⟨hok, harg⟩, if_pos hok]
        exact congrArg (fun n => n.getD 0) (SMap.find_put_same ..)
    · rw [if_neg (fun h => hok h.1), if_neg hok]
  case writes =>
    split
    · exact s.setDepot_writes rfl
    · exact .refl _ s

/-- A draw behind none of its source's requests is answered at once. -/
theorem State.serveAsk_draw {s : State} {m : SvcMsg} (hop : m.op = svQuotaDraw) (hfirst : s.behindAsk m = false) :
    s.serveAsk m = s.answerDraw m := by
  simp [State.serveAsk, State.mustClear, hop, hfirst, svQuotaDraw, svPageAlloc]

theorem State.svcQuotaGrant_taken {s s' : State} {m : SvcMsg} {a : Asked} (bad : State → Nat → State)
    (ha : s.takeAsked m.source svQuotaDraw = some (a, s')) :
    (m.arg = 0 → (s.svcQuotaGrant m bad).depot.granted = s.depot.granted ++
      [{ device := m.source, tenant := a.tenant, route := a.route, cls := 8, line := 0 }]) ∧
    (m.arg ≠ 0 → ((s.svcQuotaGrant m bad).depot.drawn.find (drawKey a.tenant m.source)).getD 0 =
      (s.depot.drawn.find (drawKey a.tenant m.source)).getD 0 + m.arg) := by
  have hdepot := State.takeAsked_depot ha
  refine ⟨fun h => ?_, fun h => ?_⟩
  · simp only [State.svcQuotaGrant, ha, if_pos h, hdepot]
  · simp only [State.svcQuotaGrant, ha, if_neg h, hdepot, SMap.find_put_same, Option.getD_some]

theorem State.svcQuotaReturn_lent (s : State) (m : SvcMsg) :
    ((s.svcQuotaReturn m).depot.lent.find m.tenant).getD 0 = (s.depot.lent.find m.tenant).getD 0 - m.arg := by
  unfold State.svcQuotaReturn
  dsimp only
  split
  next h => rw [SMap.find_del_same, h]; rfl
  next h => rw [SMap.find_put_same]; rfl

end Sys2Proof.Machine
end

section
/-! SUPPORT. Ropes and Summit entries handed over by service messages (R205, R359). -/
namespace Sys2Proof.Machine
open Sys2Proof

/-! ## Tasks that a rope makes ready -/

/-- A task stands with the tasks of its ridge, or its rope waits for the table that the task probes. -/
def State.Stands (s : State) (d : RouteDesc) (t : Task) (o : Nat) : Prop :=
  t ∈ s.sched.ready ++ s.sched.held ∨
    ((d.stage t.stage).kind = kProbe ∧ ∃ r, s.route? t.key = some r ∧ (t.stage, t.ridge, o) ∈ r.work.waiting)

/-- The tasks that stand and the ropes that wait still do; descriptions are the same. -/
structure StillStand (s t : State) : Prop where
  tasks : s.sched.ready ++ s.sched.held ⊆ t.sched.ready ++ t.sched.held
  waiting : ∀ k r, s.route? k = some r → ∃ r', t.route? k = some r' ∧ r'.desc = r.desc ∧
    r.work.waiting ⊆ r'.work.waiting

namespace StillStand
variable {s t u : State}

theorem refl (s : State) : StillStand s s := ⟨fun _ h => h, fun _ r hr => ⟨r, hr, rfl, fun _ h => h⟩⟩

theorem trans (h : StillStand s t) (h' : StillStand t u) : StillStand s u := by
  refine ⟨List.Subset.trans h.tasks h'.tasks, fun k r hr => ?_⟩
  obtain ⟨r', hr', hd, hw⟩ := h.waiting k r hr
  obtain ⟨r'', hr'', hd', hw'⟩ := h'.waiting k r' hr'
  exact ⟨r'', hr'', hd'.trans hd, List.Subset.trans hw hw'⟩

theorem stands (h : StillStand s t) {d : RouteDesc} {x : Task} {o : Nat} (hs : s.Stands d x o) : t.Stands d x o := by
  refine hs.imp (fun hx => h.tasks hx) (fun ⟨hkind, r, hr, hw⟩ => ⟨hkind, ?_⟩)
  obtain ⟨r', hr', -, hsub⟩ := h.waiting _ r hr
  exact ⟨r', hr', hsub hw⟩

end StillStand

theorem State.takeSlot_stand (s : State) (t : Task) :
    StillStand s (s.takeSlot t) ∧ t ∈ (s.takeSlot t).sched.ready ++ (s.takeSlot t).sched.held := by
  have hroutes : ∀ k, (s.takeSlot t).route? k = s.route? k := State.route?_congr ((s.takeSlot_writes t).routes_eq rfl)
  refine ⟨⟨fun x hx => ?_, fun k r hr => ⟨r, (hroutes k).trans hr, rfl, fun _ h => h⟩⟩, ?_⟩
  · unfold State.takeSlot
    rcases List.mem_append.mp hx with hx | hx <;> split <;> simp [hx]
  · unfold State.takeSlot
    split <;> simp

/-- A rope that waits is added to its route's, and nothing else of routes or tasks changes. -/
theorem State.waitRope_stand (s : State) {k : RouteKey} {r : Route} (hr : s.route? k = some r) (w : Nat × Nat × Nat) :
    let t := s.work k (fun x => { x with waiting := x.waiting ++ [w] })
    StillStand s t ∧ ∃ r', t.route? k = some r' ∧ w ∈ r'.work.waiting := by
  intro t
  have hroute (j : RouteKey) : t.route? j = (s.route? j).map (fun r =>
      if r.key == k then { r with work := { r.work with waiting := r.work.waiting ++ [w] } } else r) :=
    s.route?_updRoute k j _ (by exact fun _ => rfl)
  refine ⟨⟨fun _ h => h, fun j r' hr' => ⟨_, (hroute j).trans (congrArg _ hr'), ?_⟩⟩, ?_⟩
  · dsimp only
    split
    · exact ⟨rfl, fun _ h => List.mem_append_left _ h⟩
    · exact ⟨rfl, fun _ h => h⟩
  · refine ⟨_, (hroute k).trans (congrArg _ hr), ?_⟩
    simp [State.key_of_route? hr]

/-- A task of a rope that becomes ready stands, and so do those from before. -/
theorem State.pushTask_stand (s : State) (t : Task) : StillStand s (s.pushTask t) ∧
    ∀ r o, s.route? t.key = some r → t.input = .rope o → (s.pushTask t).Stands r.desc t o := by
  unfold State.pushTask
  obtain ⟨hslot, hmem⟩ := s.takeSlot_stand t
  cases hr : s.route? t.key with
  | none => exact ⟨.refl s, fun _ _ h => nomatch h⟩
  | some r =>
    dsimp only
    split
    next o hin =>
      split
      next hprobe =>
        obtain ⟨hkeep, r', hr', hw⟩ := s.waitRope_stand hr (t.stage, t.ridge, o)
        refine ⟨hkeep, fun q o' hq ho' => .inr ?_⟩
        obtain rfl := Option.some.inj hq
        obtain rfl : o = o' := by simpa [hin] using ho'
        exact ⟨by simpa using (Bool.and_eq_true_iff.mp hprobe).1, r', hr', hw⟩
      · exact ⟨hslot, fun _ _ _ _ => .inl hmem⟩
    · exact ⟨hslot, fun _ _ _ _ => .inl hmem⟩

/-- Every task of a list of a route's ropes stands once all are pushed. -/
theorem State.foldl_pushTask_stand {s : State} {k : RouteKey} {r : Route} (hr : s.route? k = some r) {o : Nat}
    (f : Nat → Task) (hkey : ∀ c, (f c).key = k) (hin : ∀ c, (f c).input = .rope o) (l : List Nat) :
    StillStand s (l.foldl (fun s c => s.pushTask (f c)) s) ∧
      ∀ c ∈ l, (l.foldl (fun s c => s.pushTask (f c)) s).Stands r.desc (f c) o := by
  induction l generalizing s r with
  | nil => exact ⟨.refl s, fun _ h => absurd h List.not_mem_nil⟩
  | cons c l ih =>
    obtain ⟨hkeep, hstand⟩ := s.pushTask_stand (f c)
    obtain ⟨r', hr', hdesc, -⟩ := hkeep.waiting k r hr
    obtain ⟨hkeep', hall⟩ := ih hr'
    refine ⟨hkeep.trans hkeep', fun b hb => ?_⟩
    rcases List.mem_cons.mp hb with rfl | hb
    · exact hkeep'.stands (hstand r o ((hkey b).symm ▸ hr) (hin b))
    · exact hdesc ▸ hall b hb

/-! ## ROPE_NOTICE -/

theorem State.splitRope_terms {s s' : State} {k : RouteKey} {o off ridge n : Nat} {forms : List ColForm} {q : Nat × Rope}
    (h : s.splitRope k o off ridge forms = some (q, n, s')) : RoutesKeep Route.terms s s' := by
  unfold State.splitRope at h
  split at h
  · cases h
  · obtain ⟨⟨_, t⟩, hnew, ht⟩ := Option.map_eq_some_iff.mp h
    cases ht
    exact (State.newObj_terms hnew).trans (.of_routes rfl)

/-- The route that a message names is the one found by its key. -/
theorem State.route?_of_svcRoute {s : State} {m : SvcMsg} {r : Route} (h : s.svcRoute m = some r) :
    s.route? r.key = some r := by
  unfold State.svcRoute at h
  split at h
  next r' hr' =>
    obtain rfl := Option.some.inj h
    rw [State.key_of_route? hr']
    exact hr'
  split at h
  next r' hr' =>
    obtain rfl := Option.some.inj h
    rw [State.key_of_route? hr']
    exact hr'
  · have hnamed := List.find?_some h
    obtain ⟨-, before, after, heq, hbefore⟩ := List.find?_eq_some_iff_append.mp h
    refine List.find?_eq_some_iff_append.mpr ⟨by simp, before, after, heq, fun x hx => ?_⟩
    have hother : (x.key.tenant == m.tenant && x.key.id == m.route) = false :=
      Bool.not_eq_true' _ |>.mp (hbefore x hx)
    refine Bool.not_eq_true' _ |>.mpr (beq_eq_false_iff_ne.mpr fun hkey => ?_)
    rw [hkey, hnamed] at hother
    cases hother

/-- The task of a stage for a rope that a ROPE_NOTICE hands over. -/
def noticedTask (m : SvcMsg) (k : RouteKey) (obj stage : Nat) : Task :=
  { key := k, stage := stage, ridge := fld m.slot1 127 124, input := .rope obj, seq := fld m.slot1 123 76 }

/-- The consumers of a rope that a peer hands over learn of it. -/
theorem State.svcRopeNotice_tells {s s' : State} {m : SvcMsg} {r : Route} {o n : Nat} {q : Nat × Rope}
    (hr : s.svcRoute m = some r) (hspan : r.span.map (fun sp => sp.openPitch) = some (m.slot1 % 2 ^ 64))
    (ho : s.delivered m r.key m.arg = some o)
    (hsplit : s.splitRope r.key o (hOff m.arg) (fld m.slot1 127 124) (r.desc.ropeForms (fld m.slot1 71 68)) =
      some (q, n, s')) {c : Nat} (hc : c ∈ r.desc.consumers (fld m.slot1 71 68)) (hkind : (r.desc.stage c).kind ≠ kEmit) :
    (s.svcRopeNotice m).Stands r.desc (noticedTask m r.key q.1 c) q.1 := by
  obtain ⟨r', hr', hterms⟩ := (State.splitRope_terms hsplit).get (State.route?_of_svcRoute hr)
  have hdesc : r'.desc = r.desc := (Prod.ext_iff.mp hterms).1
  unfold State.svcRopeNotice
  simp only [hr, hspan, ho, hsplit, ne_eq, not_true, if_false]
  rw [← hdesc]
  refine (State.foldl_pushTask_stand (r := r') ?_ (noticedTask m r.key q.1) (fun _ => rfl) (fun _ => rfl) _).2 c ?_
  · rw [← hr']
    split
    · exact State.route?_congr ((State.deposit_writes ..).routes_eq rfl) _
    · rfl
  · rw [hdesc]
    exact List.mem_filter.mpr ⟨hc, by simpa using hkind⟩

/-! ## Summit entries -/

theorem State.deposit_slot (s : State) (k : Nat) (e : SlotEntry) (seq obj : Nat) : (s.deposit k e seq obj).slot k =
    if (s.slot k).1.state = .filling then ((s.slot k).1.add e seq obj, (s.slot k).2)
      else ((s.slot k).1, (s.slot k).2.add e seq obj) := by
  unfold State.deposit
  dsimp only
  split
  · exact s.slot_setSlot_same k _
  · exact s.slot_setSlot_same k _

/-- An entry of one rope goes to the slot of its sender. -/
theorem State.svcSummitEntry_deposits {s s' : State} {m : SvcMsg} {k : RouteKey} {r : Route} {o : Nat} {x : Nat × Nat}
    (hk : k = { tenant := fld m.slot1 31 27, id := fld m.slot1 63 32, home := s.sys.deviceId })
    (hr : s.route? k = some r) (ho : s.delivered m k (m.slot2 % 2 ^ 64) = some o)
    (hsplit : s.splitChain k o (hOff (m.slot2 % 2 ^ 64)) (fld m.slot1 24 21)
      (r.desc.ropeForms (r.desc.stage r.desc.emit).inputA) (fld m.slot2 127 96) = ([x], s')) :
    s.svcSummitEntry m = s'.deposit (64 + m.source)
      { key := k, kind := fld m.slot1 26 25, ridge := fld m.slot1 24 21, device := fld m.slot1 20 17
        spanPitch := m.slot1 / 2 ^ 64, chain := [] } x.1 x.2 := by
  unfold State.svcSummitEntry
  rw [← hk]
  simp only [hr, ho, hsplit, List.foldl_cons, List.foldl_nil]

theorem State.svcSummitClose_swaps (s : State) (m : SvcMsg) :
    (s.svcSummitClose m).slot (64 + m.source) =
      ((s.slot (64 + m.source)).1.swap m.arg, (s.slot (64 + m.source)).2.swap m.arg) ∧
      (s.svcSummitClose m).summit.closes = s.summit.closes ++ [(m.source, m.arg)] ∧
      Writes [.summit] s (s.svcSummitClose m) :=
  ⟨s.slot_setSlot_same (64 + m.source) _, rfl, (State.svcSummitClose_writes s m).frame⟩

end Sys2Proof.Machine
end

section
/-! SUPPORT. Settling O50: service messages for another device, and the meaning of each for this one. -/
namespace Sys2Proof.Machine
open Sys2Proof

/-- A message of a row for another device goes on unchanged. -/
theorem exec_svc_passes {s : State} {m : SvcMsg} (hok : s.svcOk m = true) (hdest : m.dest ≠ s.sys.deviceId) :
    ∀ p ∈ ([(.routeOpen m, svRouteOpen), (.routeEnd m, svRouteEnd), (.pageAlloc m, svPageAlloc),
      (.pageGrant m, svPageGrant), (.quotaDraw m, svQuotaDraw), (.quotaGrant m, svQuotaGrant), (.quotaReturn m, svQuotaReturn),
      (.ropeNotice m, svRopeNotice), (.summitEntry m, svSummitEntry), (.summitClose m, svSummitClose)] : List (Instr × Nat)),
    m.op = p.2 → exec p.1 s = .next (s.send (.svc m)) := by
  intro p hp hop
  have hrow : exec p.1 s = s.svcRow m p.2 ∧ 0xC0 ≤ p.2 ∧ p.2 ≤ 0xC9 := by
    simp only [List.mem_cons, List.not_mem_nil, or_false] at hp
    rcases hp with rfl | rfl | rfl | rfl | rfl | rfl | rfl | rfl | rfl | rfl <;>
      exact ⟨rfl, Nat.le_of_ble_eq_true rfl, Nat.le_of_ble_eq_true rfl⟩
  rw [hrow.1, s.svcRow_takes hop, State.takeSvc_passes hok hdest (hop ▸ hrow.2)]

/-- Settles O50: one for another device passes on, and each row's meaning for this device. -/
theorem linkServices : Obligations.LinkServices := by
  refine fun s m hok halive => ⟨exec_svc_passes hok, fun hdest hpeer => ?_⟩
  have h : s.TakesSvc m := ⟨hok, by simpa using halive, hdest⟩
  intro far near cls lent
  refine ⟨fun hop => ?opens, fun hop => ?ends, fun hop => ?alloc, fun hop a s' ha => ?grant, fun hop => ?draw,
    fun hop a s' ha => ?lend, fun hop => ?back, fun hop r o q n s' hr hspan ho hsplit => ?rope, fun hop => ?entry,
    fun hop => ?close⟩
  case opens =>
    rw [exec_routeOpen_taken h hop]
    refine ⟨fun hopen hknown => congrArg Host.Outcome.next (State.svcRouteOpen_known rfl hopen hknown), fun r hr hsusp => ?_,
      fun hr hcopy hbytes => ?_⟩
    · obtain ⟨r', sp, hreopened⟩ := State.svcRouteOpen_suspended rfl hr hsusp
      exact ⟨_, r', sp, rfl, hreopened⟩
    · exact ⟨_, rfl, State.svcRouteOpen_new rfl hr hcopy hbytes⟩
  case ends =>
    rw [exec_routeEnd_taken h hop]
    refine ⟨fun r hr => ⟨_, rfl, State.svcRouteEnd_far rfl hpeer hr⟩, fun r hfar hr hdue hnew hopen hfull => ?_⟩
    obtain ⟨r', hended⟩ := State.svcRouteEnd_near rfl rfl hfar hr hdue hnew hopen hfull
    exact ⟨_, r', rfl, hended⟩
  case alloc =>
    rw [exec_pageAlloc_taken h hop]
    refine ⟨fun hclear => ⟨_, rfl, State.svcPageAlloc_clears hclear⟩, fun hbehind hclear => ?_,
      fun hfirst hkey => congrArg Host.Outcome.next (State.svcPageAlloc_none hop hfirst hkey),
      fun r a o s' d hfirst hr hfit hroom hobj hd => ?_⟩
    · rw [State.svcPageAlloc_eq hclear, State.serveAsk_waits (.inl hbehind)]
      rfl
    · obtain ⟨i, handle, hgrant⟩ := State.svcPageAlloc_grants hop hfirst hr hfit hroom hobj hd
      obtain ⟨p, hpage⟩ := s'.addPage_region o i d a
      exact ⟨_, handle, p, congrArg Host.Outcome.next hgrant, hpage⟩
  case grant =>
    rw [exec_pageGrant_taken h hop]
    refine ⟨fun hid => ⟨_, rfl, State.svcPageGrant_tier2 _ ha hid⟩, fun id o hid ho harg hp => ?_⟩
    obtain ⟨o', ho', hpages⟩ := State.svcPageGrant_rope (svcViolates m) ha hid ho harg hp
    exact ⟨_, o', rfl, ho', hpages⟩
  case draw =>
    rw [exec_quotaDraw_taken h hop]
    refine ⟨fun hbehind => congrArg Host.Outcome.next (State.serveAsk_waits (.inl hbehind)), fun hfirst => ?_⟩
    rw [State.serveAsk_draw hop hfirst]
    obtain ⟨x, hx, hlent, hwrites⟩ := s.answerDraw_lends m
    exact ⟨x, congrArg Host.Outcome.next hx, hlent, hwrites⟩
  case lend =>
    rw [exec_quotaGrant_taken h hop]
    exact ⟨_, rfl, State.svcQuotaGrant_taken _ ha⟩
  case back =>
    rw [exec_quotaReturn_taken h hop]
    exact ⟨_, rfl, s.svcQuotaReturn_lent m, (s.svcQuotaReturn_writes m).frame⟩
  case rope =>
    rw [exec_ropeNotice_taken h hop]
    refine ⟨_, rfl, fun c hc hkind => ?_⟩
    exact (State.svcRopeNotice_tells hr hspan ho hsplit hc hkind).imp_left fun hmem => ⟨_, hmem, rfl, rfl, rfl, rfl, rfl⟩
  case entry =>
    intro k r o x s' hr ho hsplit e b
    rw [exec_summitEntry_taken h hop, State.svcSummitEntry_deposits rfl hr ho hsplit]
    exact ⟨_, rfl, s'.deposit_slot ..⟩
  case close =>
    rw [exec_summitClose_taken h hop]
    exact ⟨_, rfl, s.svcSummitClose_swaps m⟩

end Sys2Proof.Machine
end

section
/-! SUPPORT. Settling O7 to O9: general registers and integer results. -/
namespace Sys2Proof.Machine
open Sys2Proof

/-! ## General registers (R248) -/

@[simp] theorem StrandSt.rg_zero (t : StrandSt) : t.rg 0 = 0#64 := rfl
@[simp] theorem StrandSt.wg_zero (t : StrandSt) (x : Word) : t.wg 0 x = t := rfl

theorem StrandSt.rg_wg_same (t : StrandSt) {i : Fin 32} (x : Word) (h : i ≠ 0) : (t.wg i x).rg i = x := by
  simp [StrandSt.rg, StrandSt.wg, h]

theorem StrandSt.rg_wg_other (t : StrandSt) {i j : Fin 32} (x : Word) (h : j ≠ i) : (t.wg i x).rg j = t.rg j := by
  have hv : i.val ≠ j.val := fun e => h (Fin.ext e.symm)
  unfold StrandSt.rg StrandSt.wg
  split
  · rfl
  · split
    · rfl
    · exact Vector.getElem_set_ne i.isLt j.isLt hv

/-- Settles O7: the register file's reads after its writes. -/
theorem generalRegisters : Obligations.GeneralRegisters :=
  fun t _ _ x => ⟨t.rg_zero, t.wg_zero x, t.rg_wg_same x, t.rg_wg_other x⟩

/-! ## What an instruction of a shape leaves (R252) -/

/-- An instruction of two registers retires with what its row of Table 08.8 makes of them. -/
theorem exec_alu_retires {s : State} {st : StrandRef} {t : StrandSt} {k : StrandTask} {rd rs1 rs2 : Fin 32} {c : Instr}
    {f : Word → Word → Word} {x : Word} (h : StrandReady s st t k) (hc : exec c s = s.alu st rd rs1 rs2 f)
    (hx : f (t.rg rs1) (t.rg rs2) = x) : ∃ u, exec c s = .next u ∧ Retired s u st (t.wg rd x).advance :=
  hc ▸ hx ▸ State.alu_retires h rd rs1 rs2 f

theorem exec_alu1_retires {s : State} {st : StrandRef} {t : StrandSt} {k : StrandTask} {rd rs1 : Fin 32} {c : Instr}
    {f : Word → Word} {x : Word} (h : StrandReady s st t k) (hc : exec c s = s.alu1 st rd rs1 f)
    (hx : f (t.rg rs1) = x) : ∃ u, exec c s = .next u ∧ Retired s u st (t.wg rd x).advance :=
  hc ▸ hx ▸ State.alu1_retires h rd rs1 f

theorem exec_div_retires {s : State} {st : StrandRef} {t : StrandSt} {k : StrandTask} {rd rs1 rs2 : Fin 32} {c : Instr}
    {f : Word → Word → Word} {x : Word} (h : StrandReady s st t k) (hc : exec c s = s.divOp st rd rs1 rs2 f)
    (hx : f (t.rg rs1) (t.rg rs2) = x) :
    (t.rg rs2 ≠ 0#64 → ∃ u, exec c s = .next u ∧ Retired s u st (t.wg rd x).advance) ∧
    (t.rg rs2 = 0#64 →
      (t.handles = true → ∃ u, exec c s = .next u ∧ TrapTaken s u st t 8 0#64) ∧
      (t.handles = false → ∃ u, exec c s = .next u ∧ RouteEnded s u st t k.key 0x0406)) := by
  rw [hc, ← hx]
  refine ⟨State.divOp_retires h rd rs1 rs2 f, fun hz => ⟨fun hh => State.divOp_traps h hh rd rs1 rs2 f hz, fun hh => ?_⟩⟩
  refine State.strandRun_ends (c := 8) (v := 0#64) h (by rw [hh]; rfl) _ fun tf h1 => ?_
  exact if_pos ((StrandSt.rg_of_plain h1 rs2).trans hz)

/-! ## The results of Table 08.8 -/

theorem ite_slt {α : Type} (a b : Word) (x y : α) :
    (if a.slt b then x else y) = if a.toInt < b.toInt then x else y := by simp [BitVec.slt_eq_decide]

theorem ite_ult {α : Type} (a b : Word) (x y : α) :
    (if a.ult b then x else y) = if a.toNat < b.toNat then x else y := by simp [BitVec.ult_eq_decide]

theorem sdiv_eq_ofInt (a b : Word) : a.sdiv b = BitVec.ofInt 64 (a.toInt.tdiv b.toInt) :=
  BitVec.eq_of_toInt_eq (by rw [BitVec.toInt_sdiv, BitVec.toInt_ofInt])

theorem srem_eq_ofInt (a b : Word) : a.srem b = BitVec.ofInt 64 (a.toInt.tmod b.toInt) := by
  rw [← BitVec.toInt_srem, BitVec.ofInt_toInt]

/-- Settles O8, row by row of Table 08.8. -/
theorem integerAluResults : Obligations.IntegerAluResults := by
  refine ⟨?two, ?hash, ?div⟩
  case two =>
    intro s st t k rd rs1 rs2 h a b
    simp only [List.forall_mem_cons]
    exact ⟨exec_alu_retires h (exec_add ..) rfl,
      exec_alu_retires h (exec_sub ..) rfl,
      exec_alu_retires h (exec_andOp ..) rfl,
      exec_alu_retires h (exec_orOp ..) rfl,
      exec_alu_retires h (exec_xorOp ..) rfl,
      exec_alu_retires h (exec_sll ..) rfl,
      exec_alu_retires h (exec_srl ..) rfl,
      exec_alu_retires h (exec_sra ..) rfl,
      exec_alu_retires h (exec_slt ..) (ite_slt ..),
      exec_alu_retires h (exec_sltu ..) (ite_ult ..),
      exec_alu_retires h (exec_minOp ..) (ite_slt ..),
      exec_alu_retires h (exec_maxOp ..) (ite_slt ..),
      exec_alu_retires h (exec_minu ..) (ite_ult ..),
      exec_alu_retires h (exec_maxu ..) (ite_ult ..),
      exec_alu_retires h (exec_mul ..) rfl,
      exec_alu_retires h (exec_mulh ..) rfl,
      exec_alu_retires h (exec_mulhu ..) rfl, List.forall_mem_nil _⟩
  case hash =>
    intro s st t k rd rs1 rs2 h a b h' g
    simp only [List.forall_mem_cons]
    exact ⟨⟨exec_alu_retires h (exec_hstep ..) rfl,
      exec_alu1_retires h (exec_hfin ..) rfl,
      exec_alu1_retires h (exec_clz ..) rfl,
      exec_alu1_retires h (exec_ctz ..) rfl,
      exec_alu1_retires h (exec_popc ..) rfl,
      exec_alu1_retires h (exec_bswap ..) rfl,
      exec_alu_retires h (exec_crc32cStep ..) rfl, List.forall_mem_nil _⟩, rfl, rfl⟩
  case div =>
    intro s st t k rd rs1 rs2 h a b
    simp only [List.forall_mem_cons]
    exact ⟨exec_div_retires h (exec_div ..) (sdiv_eq_ofInt ..),
      exec_div_retires h (exec_divu ..) BitVec.udiv_def,
      exec_div_retires h (exec_rem ..) (srem_eq_ofInt ..),
      exec_div_retires h (exec_remu ..) BitVec.umod_def, List.forall_mem_nil _⟩

/-- Settles O9, row by row of Table 08.7. -/
theorem integerImmediateResults : Obligations.IntegerImmediateResults := by
  intro s st t k rd rs1 imm amt u21 h a
  have himm : (sext16 imm).toInt = imm.toInt := BitVec.toInt_signExtend_of_le (by decide)
  simp only [List.forall_mem_cons]
  exact ⟨exec_alu1_retires h (exec_addi ..) rfl,
    exec_alu1_retires h (exec_andi ..) rfl,
    exec_alu1_retires h (exec_ori ..) rfl,
    exec_alu1_retires h (exec_xori ..) rfl,
    exec_alu1_retires h (exec_slli ..) rfl,
    exec_alu1_retires h (exec_srli ..) rfl,
    exec_alu1_retires h (exec_srai ..) rfl,
    exec_alu1_retires h (exec_slti ..) ((ite_slt ..).trans (by rw [himm])),
    State.regOp_retires h _ (fun x => by rw [StrandSt.wg_plain, StrandSt.wg_plain]; rfl) (fun x => StrandSt.wg_instret ..),
    List.forall_mem_nil _⟩

end Sys2Proof.Machine
end

section
/-! SUPPORT. Settling O10: branches and jumps. -/
namespace Sys2Proof.Machine
open Sys2Proof

/-! ## Branches and jumps (R256 to R258) -/

theorem shiftLeft_two_eq_mul (x : Word) : x <<< (2 : Nat) = x * 4#64 := BitVec.shiftLeft_eq_mul_twoPow x 2
theorem shiftLeft_three_eq_mul (x : Word) : x <<< (3 : Nat) = x * 8#64 := BitVec.shiftLeft_eq_mul_twoPow x 3

theorem exec_branch_retires {s : State} {st : StrandRef} {t : StrandSt} {k : StrandTask} {rs1 rs2 : Fin 32}
    {imm : BitVec 16} {c : Instr} {f : Word → Word → Bool} {b : Bool} (h : StrandReady s st t k)
    (hc : exec c s = s.branch st rs1 rs2 imm f) (hb : f (t.rg rs1) (t.rg rs2) = b) :
    ∃ u, exec c s = .next u ∧ Retired s u st
      (if b then { t with
          pc := t.pc + imm.signExtend 64 * 4#64
          path := (t.path * 4 ^^^ fld (t.pc + imm.signExtend 64 * 4#64).toNat 3 2) % 65536 }
       else { t with pc := t.pc + 4#64 }) := by
  have hr := State.branch_retires h rs1 rs2 imm f
  rw [shiftLeft_two_eq_mul, hb] at hr
  exact hc ▸ hr

/-- The strand after a jump: `rd` holds the next instruction's address, the pc the target. -/
def StrandSt.linked (t : StrandSt) (rd : Fin 32) (target : Word) : StrandSt := (t.wg rd (t.pc + 4#64)).goto target

theorem StrandSt.linked_plain (t : StrandSt) (rd : Fin 32) (target : Word) :
    (t.linked rd target).plain = t.plain.linked rd target := by
  unfold StrandSt.linked
  rw [StrandSt.goto_plain, StrandSt.wg_plain]
  rfl

theorem StrandSt.linked_instret (t : StrandSt) (rd : Fin 32) (target : Word) : (t.linked rd target).instret = t.instret :=
  StrandSt.wg_instret ..

/-- The strand at the instruction before: JAL's target less what retiring adds. -/
def StrandSt.back (t : StrandSt) : StrandSt := { t with pc := t.pc - 4#64 }

theorem StrandSt.back_advance (t : StrandSt) : t.back.advance = t := by
  simp only [StrandSt.advance, StrandSt.back, BitVec.sub_add_cancel]

theorem execJal_retires {s : State} {st : StrandRef} {t : StrandSt} {k : StrandTask} (h : StrandReady s st t k)
    (rd : Fin 32) (imm : BitVec 21) : ∃ u, execJal st rd imm s = .next u ∧
      Retired s u st (t.linked rd (t.pc + imm.signExtend 64 * 4#64)) := by
  have hr := State.regOp_retires h (fun x => (x.linked rd (x.pc + (imm.signExtend 64 <<< (2 : Nat)))).back)
    (fun x => congrArg (fun y => y.back.plain) (x.linked_plain rd _))
    (fun x => x.linked_instret rd (x.pc + (imm.signExtend 64 <<< (2 : Nat))))
  rw [StrandSt.back_advance] at hr
  rw [← shiftLeft_two_eq_mul]
  exact hr

/-- JALR's strand: unless timing is predictable, its entry of the indirect-target table is written too (R257, R258). -/
def StrandSt.jumped (t : StrandSt) (rd : Fin 32) (target : Word) : StrandSt :=
  if t.pt then t.linked rd target
  else { t.linked rd target with
    itt := (t.linked rd target).itt.put (ittIndex t).1 { tag := (ittIndex t).2, target := target.toNat / 4 % 2 ^ 30 } }

theorem StrandSt.jumped_instret (t : StrandSt) (rd : Fin 32) (target : Word) :
    (t.jumped rd target).instret = t.instret := by
  have hl := t.linked_instret rd target
  unfold StrandSt.jumped
  split <;> exact hl

theorem StrandSt.jumped_plain (t : StrandSt) (rd : Fin 32) (target : Word) :
    (t.jumped rd target).plain = (t.plain.jumped rd target).plain := by
  have ht : t.plain.pt = t.pt := rfl
  unfold StrandSt.jumped
  rw [ht, ← StrandSt.linked_plain]
  split <;> rfl

theorem execJalr_retires {s : State} {st : StrandRef} {t : StrandSt} {k : StrandTask} (h : StrandReady s st t k)
    (rd rs1 : Fin 32) (imm : BitVec 16) :
    ∃ u, execJalr st rd rs1 imm s = .next u ∧ Retired s u st (t.jumped rd ((t.rg rs1 + sext16 imm) &&& ~~~ 3#64)) := by
  refine State.strandRun_pure h _ fun tf sf h1 h2 => ?_
  have hp : (tf.jumped rd ((t.rg rs1 + sext16 imm) &&& ~~~ 3#64)).plain =
      (t.jumped rd ((t.rg rs1 + sext16 imm) &&& ~~~ 3#64)).plain := by
    rw [StrandSt.jumped_plain, h1, ← StrandSt.jumped_plain]
  have hi : (tf.jumped rd ((t.rg rs1 + sext16 imm) &&& ~~~ 3#64)).instret =
      (t.jumped rd ((t.rg rs1 + sext16 imm) &&& ~~~ 3#64)).instret := by
    rw [StrandSt.jumped_instret, StrandSt.jumped_instret, h2]
  rw [← StrandSt.rg_of_plain h1] at hp hi ⊢
  dsimp only
  split
  · split
    · exact ⟨_, _, rfl, (State.wrongPath_plain ..).1.trans hp, (State.wrongPath_plain ..).2.trans hi,
        State.wrongPath_writes ..⟩
    · exact ⟨_, _, rfl, hp, hi, Moves.refl _ _⟩
  · exact ⟨_, _, rfl, hp, hi, Moves.refl _ _⟩

/-- Settles O10: each branch by its condition, and the two jumps. -/
theorem branchesAndJumps : Obligations.BranchesAndJumps := by
  refine ⟨?branches, ?jumps⟩
  case branches =>
    intro s st t k rs1 rs2 imm h a b target
    have hne : (a != b) = decide (a ≠ b) := by rw [bne, beq_eq_decide, decide_not]
    have hge : (!a.slt b) = decide (b.toInt ≤ a.toInt) := by simp [BitVec.slt_eq_decide, ← decide_not]
    have hgeu : (!a.ult b) = decide (b.toNat ≤ a.toNat) := by simp [BitVec.ult_eq_decide, ← decide_not]
    simp only [List.forall_mem_cons]
    exact ⟨exec_branch_retires h (exec_beq ..) (beq_eq_decide ..), exec_branch_retires h (exec_bne ..) hne,
      exec_branch_retires h (exec_blt ..) BitVec.slt_eq_decide, exec_branch_retires h (exec_bge ..) hge,
      exec_branch_retires h (exec_bltu ..) BitVec.ult_eq_decide, exec_branch_retires h (exec_bgeu ..) hgeu,
      List.forall_mem_nil _⟩
  case jumps =>
    intro s st t k rd rs1 imm u21 h
    exact ⟨execJal_retires h rd u21, execJalr_retires h rd rs1 imm⟩

end Sys2Proof.Machine
end

section
/-! SUPPORT. Settling O11, O14 and O16: scalar floating point, loads and stores. -/
namespace Sys2Proof.Machine
open Sys2Proof

/-! ## Scalar floating point (R255, R264) -/

/-- A result of an f register with its flags: it retires where none is enabled, and else traps. -/
theorem exec_float {s : State} {st : StrandRef} {t : StrandSt} {k : StrandTask} {single : Bool} {rd : Fin 32} {c : Instr}
    {r : Nat × Nat} (g : StrandSt → Nat × Nat) (h : StrandReady s st t k)
    (hc : exec c s = s.strandRun st (fun t _ s => fpEnd (t.wf single rd (g t).1) (g t).2 s))
    (hp : ∀ x, g x = g x.plain) (hr : g t = r) :
    (t.trapEn &&& r.2 = 0 → ∃ u, exec c s = .next u ∧ Retired s u st ((t.wf single rd r.1).addFlags r.2).advance) ∧
    (t.trapEn &&& r.2 ≠ 0 → t.handles = true → ∃ u, exec c s = .next u ∧
      TrapTaken s u st t 9 (BitVec.ofNat 64 (r.2 % 32 * 4))) := by
  have hg : ∀ tf, tf.plain = t.plain → g tf = r := fun tf h1 => by rw [hp, h1, ← hp, hr]
  rw [hc]
  refine ⟨fun hz => State.fpEnd_retires h _ (fun tf sf h1 h2 => ⟨tf.wf single rd r.1, ?_, StrandSt.wf_of_plain h1 .., h2⟩) hz,
    fun hz hh => State.fpEnd_traps (t1 := t) h hh _ (fun tf sf h1 => ⟨tf.wf single rd r.1, ?_,
      (StrandSt.of_plain StrandSt.trapEn (fun _ => rfl) h1 : tf.trapEn = t.trapEn)⟩) hz⟩
  all_goals rw [hg tf h1]

theorem exec_fp2 {s : State} {st : StrandRef} {t : StrandSt} {k : StrandTask} {single : Bool} {rd rs1 rs2 : Fin 32}
    {c : Instr} {f : Fmt → Nat → Nat → Nat → Nat × Nat} {r : Nat × Nat} (h : StrandReady s st t k)
    (hc : exec c s = s.fp2 st single rd rs1 rs2 f)
    (hr : f (fmtOf single) t.rm (t.rf single rs1) (t.rf single rs2) = r) :
    (t.trapEn &&& r.2 = 0 → ∃ u, exec c s = .next u ∧ Retired s u st ((t.wf single rd r.1).addFlags r.2).advance) ∧
    (t.trapEn &&& r.2 ≠ 0 → t.handles = true → ∃ u, exec c s = .next u ∧
      TrapTaken s u st t 9 (BitVec.ofNat 64 (r.2 % 32 * 4))) :=
  exec_float (fun x => f (fmtOf single) x.rm (x.rf single rs1) (x.rf single rs2)) h hc (fun _ => rfl) hr

/-- Settles O11, row by row. -/
theorem floatResults : Obligations.FloatResults := by
  intro s st t k single rd rs1 rs2 h f a b
  simp only [List.forall_mem_cons]
  exact ⟨exec_fp2 h (exec_fadd ..) rfl, exec_fp2 h (exec_fsub ..) rfl, exec_fp2 h (exec_fmul ..) rfl,
    exec_fp2 h (exec_fdiv ..) rfl, exec_fp2 h (exec_fsqrt ..) rfl, exec_fp2 h (exec_fmin ..) rfl,
    exec_fp2 h (exec_fmax ..) rfl,
    exec_float (fun x => fpFma (fmtOf single) x.rm (x.rf single rs1) (x.rf single rs2) (x.rf single rd)) h
      (exec_fmadd ..) (fun _ => rfl) rfl,
    exec_float (fun x => fpFromInt (fmtOf single) x.rm (x.rg rs1).toInt) h (exec_fcvtf ..) (fun _ => rfl) rfl,
    List.forall_mem_nil _⟩

/-! ## Loads and stores (R242, R244, R247, R253) -/

theorem leNat_lt (bs : List Byte) : leNat bs < 2 ^ (8 * bs.length) := by
  induction bs with
  | nil => exact Nat.one_pos
  | cons b bs ih =>
    have hb : b.toNat < 2 ^ 8 := b.isLt
    have he : 2 ^ (8 * (bs.length + 1)) = 2 ^ 8 * 2 ^ (8 * bs.length) := by rw [← Nat.pow_add]; congr 1; omega
    rw [leNat, List.length_cons, he]
    omega

theorem sliceB_length (bs : List Byte) (a n : Nat) : (sliceB bs a n).length = n := by
  simp [sliceB]

theorem Memory.readN_length (m : Memory) (a n : Nat) : (m.readN a n).length = n := by
  induction n generalizing m a with
  | zero => rfl
  | succ n ih => exact congrArg (· + 1) (ih _ _)

theorem DObj.readN_length (d : DObj) (o off n : Nat) : (d.readN o off n).length = n := by
  unfold DObj.readN
  split
  · exact sliceB_length ..
  · exact Memory.readN_length ..
  · exact Memory.readN_length ..

theorem State.depotBytes_length (s : State) (ridge o : Nat) (ob : DObj) (off n : Nat) :
    (s.depotBytes ridge o ob off n).length = n := by
  unfold State.depotBytes
  split
  · exact DObj.readN_length ..
  · exact sliceB_length ..

theorem State.imgLoad_length {s t : State} {st : StrandRef} {k : RouteKey} {a n : Nat} {a0 : Word} {e : Nat}
    {bs : List Byte} {m : Nat} (h : s.imgLoad st k a n a0 e = .ok bs t m) : bs.length = n := by
  unfold State.imgLoad at h
  dsimp only at h
  repeat' split at h
  all_goals cases h
  exact sliceB_length ..

theorem State.windowLoad_length {s t : State} {st : StrandRef} {k : RouteKey} {ref limit off n : Nat} {a0 : Word}
    {bs : List Byte} {m : Nat} (h : s.windowLoad st k ref limit off n a0 = .ok bs t m) : bs.length = n := by
  unfold State.windowLoad at h
  split at h
  · cases h
  · split at h
    · split at h
      · cases h
        exact Memory.readN_length ..
      · cases h
    · exact State.imgLoad_length h

theorem State.depotLoad_length {s t : State} {st : StrandRef} {k : RouteKey} {a0 : Word} {o : Nat} {ob : DObj}
    {off n : Nat} {bs : List Byte} {m : Nat} (h : s.depotLoad st k a0 o ob off n = .ok bs t m) : bs.length = n := by
  unfold State.depotLoad at h
  dsimp only at h
  repeat' split at h
  all_goals cases h
  exact State.depotBytes_length ..

/-- A load answers as many bytes as it asks for. -/
theorem State.strandLoad_length {s t : State} {st : StrandRef} {k : StrandTask} {a0 : Word} {n : Nat}
    {bs : List Byte} {m : Nat} (h : s.strandLoad st k a0 n = .ok bs t m) : bs.length = n := by
  unfold State.strandLoad at h
  dsimp only at h
  split at h
  · cases h
  · split at h
    · split at h
      · cases h
      · exact State.imgLoad_length h
    · repeat' split at h
      all_goals first | exact State.depotLoad_length h | cases h
    · exact State.windowLoad_length h
    · exact State.windowLoad_length h
    · cases h

theorem sextN_eq_ofInt {n x : Nat} (hx : x < 2 ^ n) :
    sextN n x = BitVec.ofInt 64 (if x < 2 ^ (n - 1) then (x : Int) else (x : Int) - 2 ^ n) := by
  unfold sextN toSigned
  rw [Nat.mod_eq_of_lt hx]
  push_cast
  rfl

/-- What a load that answers and one that traps leave (R242, R244, R264). -/
def LoadRow (s : State) (st : StrandRef) (t : StrandSt) (k : StrandTask) (c : Instr) (a : Word) (n : Nat)
    (res : Nat → StrandSt) : Prop :=
  (∀ bs v m, (s.fetched st t k).strandLoad st k a n = .ok bs v m →
    ∃ u, exec c s = .next u ∧ RetiredMem s u st (res (leNat bs)).advance) ∧
  (∀ c' v, (s.fetched st t k).strandLoad st k a n = .trap c' v → c' ∈ [4, 6, 7] ∧ v = a ∧
    exec c s = .next ((s.fetched st t k).trapAfter st k.key c' v))

/-- A load of `n` bytes: it retires with what `res` makes of them, or traps with its address. -/
theorem exec_load {s : State} {st : StrandRef} {t : StrandSt} {k : StrandTask} {c : Instr} {n : Nat}
    {a : Word} {addr : StrandSt → Word} {put : StrandSt → Nat → StrandSt} {res : Nat → StrandSt} (h : StrandReady s st t k)
    (hc : exec c s = s.loadOp st n addr put) (ha : ∀ x, addr x = addr x.plain)
    (hp : ∀ x v, (put x v).plain = (put x.plain v).plain) (hi : ∀ x v, (put x v).instret = x.instret)
    (he : addr t = a) (hr : ∀ x < 2 ^ (8 * n), put t x = res x) : LoadRow s st t k c a n res := by
  subst he
  unfold LoadRow
  rw [hc]
  refine ⟨fun bs v m hl => ?_, fun c' v hl => ?_⟩
  · rw [← hr _ (State.strandLoad_length hl ▸ leNat_lt bs)]
    exact State.loadOp_retires h n addr put ha hp hi hl
  · obtain ⟨hcause, hv⟩ := State.strandLoad_trap hl
    exact ⟨hcause, hv, State.loadOp_traps h n addr put ha hl⟩

section
variable {s : State} {st : StrandRef} {t : StrandSt} {k : StrandTask} {c : Instr} {n : Nat} {rd rs1 : Fin 32}
  {imm : BitVec 16}

theorem exec_loadU (h : StrandReady s st t k) (hc : exec c s = s.loadU st n rd rs1 imm) :
    LoadRow s st t k c (t.rg rs1 + imm.signExtend 64) n (fun x => t.wg rd (BitVec.ofNat 64 x)) :=
  exec_load h hc (fun _ => rfl) (fun x v => by rw [StrandSt.wg_plain, StrandSt.wg_plain]; rfl)
    (fun x v => StrandSt.wg_instret ..) rfl (fun _ _ => rfl)

theorem exec_loadS (h : StrandReady s st t k) (hc : exec c s = s.loadS st n rd rs1 imm) :
    LoadRow s st t k c (t.rg rs1 + imm.signExtend 64) n (fun x => t.wg rd
      (BitVec.ofInt 64 (if x < 2 ^ (8 * n - 1) then (x : Int) else (x : Int) - 2 ^ (8 * n)))) :=
  exec_load h hc (fun _ => rfl) (fun x v => by rw [StrandSt.wg_plain, StrandSt.wg_plain]; rfl)
    (fun x v => StrandSt.wg_instret ..) rfl (fun x hx => by rw [sextN_eq_ofInt hx])

theorem exec_loadF {single : Bool} (h : StrandReady s st t k)
    (hc : exec c s = s.loadOp st n (fun t => t.rg rs1 + sext16 imm) (fun t x => t.wf single rd x)) :
    LoadRow s st t k c (t.rg rs1 + imm.signExtend 64) n (fun x => t.wf single rd x) :=
  exec_load h hc (fun _ => rfl) (fun _ _ => rfl) (fun _ _ => rfl) rfl (fun _ _ => rfl)

theorem exec_loadPc (h : StrandReady s st t k) : LoadRow s st t k (.ldpc st rd imm)
    (t.pc + imm.signExtend 64 * 8#64) 8 (fun x => t.wg rd (BitVec.ofNat 64 x)) :=
  exec_load h (exec_ldpc ..) (fun _ => rfl) (fun x v => by rw [StrandSt.wg_plain, StrandSt.wg_plain]; rfl)
    (fun x v => StrandSt.wg_instret ..) (by rw [shiftLeft_three_eq_mul, sext16]) (fun _ _ => rfl)

end

/-- Settles O14, load by load: each is `exec_load` with its width and what it makes of the bytes. -/
theorem loads : Obligations.Loads := by
  intro s st t k rd rs1 imm h at1 sx zx
  simp only [List.forall_mem_cons]
  exact ⟨exec_loadS h (exec_lb ..), exec_loadU h (exec_lbu ..), exec_loadS h (exec_lh ..), exec_loadU h (exec_lhu ..),
    exec_loadS h (exec_lw ..), exec_loadU h (exec_lwu ..), exec_loadU h (exec_ld ..), exec_loadPc h,
    exec_loadF h (exec_flw ..), exec_loadF h (exec_fld ..), List.forall_mem_nil _⟩

theorem exec_store {s : State} {st : StrandRef} {t : StrandSt} {k : StrandTask} {c : Instr} {n x : Nat}
    {rs1 : Fin 32} {imm : BitVec 16} {val : StrandSt → Nat} (h : StrandReady s st t k)
    (hc : exec c s = s.storeOp st n rs1 imm val) (hn : n ≤ 256) (hv : ∀ x, val x = val x.plain) (hx : val t = x) :
    (∀ bs v m, (s.fetched st t k).storeCheck k (t.rg rs1 + imm.signExtend 64) n = .ok bs v m →
      ∃ u, exec c s = .next u ∧ RetiredMem s u st { t with
        queue := [{ addr := t.rg rs1 + imm.signExtend 64, bytes := natLe n x }], pc := t.pc + 4#64 }) ∧
    (∀ c' v, (s.fetched st t k).storeCheck k (t.rg rs1 + imm.signExtend 64) n = .trap c' v →
      c' ∈ [5, 6] ∧ v = t.rg rs1 + imm.signExtend 64 ∧
      exec c s = .next ((s.fetched st t k).trapAfter st k.key c' v)) := by
  subst hx
  rw [hc]
  refine ⟨fun bs v m hl => State.storeOp_retires h n hn rs1 imm val hv hl, fun c' v hl => ?_⟩
  obtain ⟨hcause, ha⟩ := State.storeCheck_trap hl
  exact ⟨hcause, ha, State.storeOp_traps h n rs1 imm val hl⟩

/-- Settles O16, store by store: each is `exec_store` with its width and its value. -/
theorem stores : Obligations.Stores := by
  intro s st t k rs1 rs2 imm h addr
  simp only [List.forall_mem_cons]
  exact ⟨exec_store h (exec_sb ..) (by decide) (fun _ => rfl) rfl, exec_store h (exec_sh ..) (by decide) (fun _ => rfl) rfl,
    exec_store h (exec_sw ..) (by decide) (fun _ => rfl) rfl, exec_store h (exec_sd ..) (by decide) (fun _ => rfl) rfl,
    exec_store h (exec_fsw ..) (by decide) (fun _ => rfl) rfl, exec_store h (exec_fsd ..) (by decide) (fun _ => rfl) rfl,
    List.forall_mem_nil _⟩

end Sys2Proof.Machine
end

section
/-! SUPPORT. Settling O15: what a task may load and store. -/
namespace Sys2Proof.Machine
open Sys2Proof

/-! ## The address spaces (R242 to R244) -/

theorem addrSpace_toNat (a : Word) : addrSpace a.toNat = a.toNat / 2 ^ 61 := by
  have := a.isLt
  unfold addrSpace
  omega

theorem State.hostRead_ok {s : State} {t a n : Nat} {bs : List Byte} (h : s.hostRead t a n = .ok bs) :
    s.hostErrors t a n = [] ∧ bs = s.host.mem.readN (hostKey t a) n := by
  unfold State.hostRead at h
  split at h
  next => cases h
  next hn =>
    refine ⟨?_, (Except.ok.inj h).symm⟩
    unfold State.hostError at hn
    split at hn
    next he => exact List.isEmpty_iff.mp he
    next => cases hn

theorem State.windowLoad_beyond {s : State} (st : StrandRef) (k : RouteKey) (ref : Nat) {limit off n : Nat} (a0 : Word)
    (h : limit < off + n) : s.windowLoad st k ref limit off n a0 = .trap 4 a0 := if_pos h

/-- A read of a window in host memory answers the host's bytes (R243). -/
theorem State.windowLoad_host {s : State} (st : StrandRef) {k : RouteKey} {ref limit off n : Nat} (a0 : Word)
    {bs : List Byte} (hl : off + n ≤ limit) (hh : refHost ref = true)
    (hb : s.hostRead k.tenant (refAddr ref + off) n = .ok bs) : ∃ m, s.windowLoad st k ref limit off n a0 = .ok bs s m := by
  obtain ⟨he, rfl⟩ := State.hostRead_ok hb
  unfold State.windowLoad
  rw [if_neg (by omega), if_pos hh, he]
  exact ⟨_, rfl⟩

theorem mayLoad_iff (k : StrandTask) (o : Nat) (d : DObj) :
    mayLoad k o d = true ↔ o = k.input ∨ o = k.out ∨ o ∈ k.closed ∨ o = k.scratch ∨ d.cls = clsOutput := by
  simp [mayLoad, or_assoc]

theorem mayStore_iff (k : StrandTask) (o : Nat) : mayStore k o = true ↔ o = k.out ∨ o = k.scratch := by
  simp [mayStore]

theorem State.strandLimit_of_ne {s : State} {k : StrandTask} {o : Nat} (d : DObj) (h : o ≠ k.scratch) :
    s.strandLimit k o d = s.objSpan d := if_neg h

/-- Settles O15: the four address spaces, and in the Depot's the objects that a task may name. -/
theorem accessRules : Obligations.AccessRules := by
  intro s st k r addr n hr a space d
  have hsp : addrSpace a = space := addrSpace_toNat addr
  refine ⟨fun h => s.strandLoad_reserved st n hr (hsp ▸ h), fun h hb => ?image, fun h hb => ?code, fun h hb => ?params,
    fun h hl hh bs hb => ?host, fun h => s.storeCheck_elsewhere n (hsp ▸ h),
    fun h ho => ⟨s.strandLoad_noObject st n hr (hsp.trans h) ho, s.storeCheck_noObject n (hsp.trans h) ho⟩,
    fun o ob h ho => ⟨fun h1 h2 h3 h4 h5 => ?unread, fun h1 h2 => ?unwritten, fun hs hb => ?beyond, fun hs hl => ?inside⟩⟩
  case image => rw [State.strandLoad_image st n hr (hsp.trans h), if_pos hb]
  case code => rw [State.strandLoad_code st n hr (hsp.trans h), State.windowLoad_beyond _ _ _ _ hb]
  case params => rw [State.strandLoad_params st n hr (hsp.trans h), State.windowLoad_beyond _ _ _ _ hb]
  case host =>
    rw [State.strandLoad_params st n hr (hsp.trans h)]
    exact State.windowLoad_host st addr hl hh hb
  case unread =>
    have hm : mayLoad k o ob = false := by
      rw [← Bool.not_eq_true, mayLoad_iff]
      tauto
    exact State.strandLoad_refused st n hr (hsp.trans h) ho (.inl hm)
  case unwritten =>
    have hm : mayStore k o = false := by
      rw [← Bool.not_eq_true, mayStore_iff]
      tauto
    exact State.storeCheck_refused n (hsp.trans h) ho (.inl hm)
  case beyond =>
    rw [← s.strandLimit_of_ne ob hs] at hb
    exact ⟨State.strandLoad_refused st n hr (hsp.trans h) ho (.inr hb),
      State.storeCheck_refused n (hsp.trans h) ho (.inr hb)⟩
  case inside =>
    refine ⟨fun hout hf => ?_, fun hm hf hp => ⟨?_, State.depotBytes_here⟩⟩
    · exact State.storeCheck_object n (hsp.trans h) ho ((mayStore_iff ..).mpr (.inl hout)) hs hl hf
    · exact State.strandLoad_object st n hr (hsp.trans h) ho ((mayLoad_iff ..).mpr (by tauto)) hs hl hf hp

end Sys2Proof.Machine
end

section
/-! SUPPORT. Settling O13: control registers. -/
namespace Sys2Proof.Machine
open Sys2Proof

/-! ## The strand and the state that an instruction starts from -/

theorem State.strandRun_congr {s : State} {st : StrandRef} {t : StrandSt} {k : StrandTask}
    {f g : StrandSt → StrandTask → State → SEff} (h : StrandReady s st t k)
    (hfg : ∀ tf, tf.plain = t.plain → tf.instret = t.instret → Moves fetchParts s (s.fetched st t k) →
      (s.fetched st t k).strand st.ridge.val st.strand.val = tf →
      f tf k (s.fetched st t k) = g tf k (s.fetched st t k)) : s.strandRun st f = s.strandRun st g := by
  obtain ⟨tf, h1, h2, -, ht, h3, hf⟩ := State.strandRun_ready h f
  obtain ⟨-, -, -, -, rfl, -, hg⟩ := State.strandRun_ready h g
  subst ht
  rw [hf, hg, hfg _ h1 h2 h3 rfl]

/-- An instruction that traps: a handler takes a cause that allows one, and else the route ends (R264). -/
theorem exec_traps {s : State} {st : StrandRef} {t : StrandSt} {k : StrandTask} {c : Instr} {cause : Nat} {v w : Word}
    {f : StrandSt → StrandTask → State → SEff} (h : StrandReady s st t k) (hc : exec c s = s.strandRun st f)
    (hcause : trapHandler cause = true)
    (hf : ∀ tf, tf.plain = t.plain → f tf k (s.fetched st t k) = .trap cause v) (hv : v = w) :
    (t.handles = true → ∃ u, exec c s = .next u ∧ TrapTaken s u st t cause w) ∧
    (t.handles = false → ∃ u, exec c s = .next u ∧ RouteEnded s u st t k.key (trapStatus cause)) := by
  subst hv
  rw [hc]
  exact ⟨fun hh => State.strandRun_traps h hh hcause f hf,
    fun hh => State.strandRun_ends h (by rw [hh, Bool.and_false]) f hf⟩

theorem StrandReady.fetched_moves {s : State} {st : StrandRef} {t : StrandSt} {k : StrandTask} (h : StrandReady s st t k) :
    Moves fetchParts s (s.fetched st t k) := by
  obtain ⟨-, -, -, -, -, hm, -⟩ := State.strandRun_ready h (fun t _ s => .ok t s)
  exact hm

/-! ## Control registers (R249 to R251) -/

theorem State.fetched_isDet {s s' : State} (h : Moves fetchParts s s') (k : RouteKey) : s'.isDet k = s.isDet k := by
  unfold State.isDet State.route?
  rw [h.routes_eq rfl]

theorem State.fetched_timeNs {s s' : State} (h : Moves fetchParts s s') : s'.timeNs = s.timeNs := by
  unfold State.timeNs
  rw [h.now_eq rfl, h.sys_eq rfl]

theorem exec_csrr_retires {s : State} {st : StrandRef} {t : StrandSt} {k : StrandTask} {n : BitVec 12} {x : Word}
    (h : StrandReady s st t k) (rd : Fin 32) (hd : ¬ (0x100 ≤ n.toNat ∧ n.toNat ≤ 0x10B ∧ s.isDet k.key = true))
    (hx : ∀ tf, tf.plain = t.plain → tf.instret = t.instret →
      (s.fetched st t k).strand st.ridge.val st.strand.val = tf → tf.csr st s.timeNs n.toNat = some x) :
    ∃ u, exec (.csrr st rd n) s = .next u ∧ Retired s u st (t.wg rd x).advance := by
  have he : exec (.csrr st rd n) s = s.regOp st (fun t => t.wg rd x) :=
    State.strandRun_congr h fun tf h1 h2 h3 h4 => by
      dsimp only
      rw [State.fetched_isDet h3, State.fetched_timeNs h3, if_neg hd, hx tf h1 h2 h4]
  rw [he]
  exact State.regOp_retires h _ (fun y => by rw [StrandSt.wg_plain, StrandSt.wg_plain]; rfl)
    (fun y => StrandSt.wg_instret ..)

/-- A number that Table 08.4 does not list names no register. -/
theorem StrandSt.csr_none (t : StrandSt) (st : StrandRef) (time : Nat) {n : BitVec 12}
    (hn : n ∉ ([0x000, 0x001, 0x002, 0x003, 0x004, 0x008, 0x010, 0x011, 0x020, 0x100, 0x101, 0x102, 0x103,
        0x104, 0x108, 0x109, 0x10A, 0x10B] : List (BitVec 12))) : t.csr st time n.toNat = none := by
  simp only [List.mem_cons, List.not_mem_nil, or_false, not_or, ← BitVec.toNat_inj, BitVec.reduceToNat] at hn
  unfold StrandSt.csr
  split
  case h_19 => rfl
  all_goals omega

theorem exec_csrr_traps {s : State} {st : StrandRef} {t : StrandSt} {k : StrandTask} {n : BitVec 12}
    (h : StrandReady s st t k) (rd : Fin 32) (hd : ¬ (0x100 ≤ n.toNat ∧ n.toNat ≤ 0x10B ∧ s.isDet k.key = true))
    (hn : ∀ (tf : StrandSt) (time : Nat), tf.csr st time n.toNat = none) :
    (t.handles = true → ∃ u, exec (.csrr st rd n) s = .next u ∧
      TrapTaken s u st t 2 (BitVec.ofNat 64 (0x29 * 2 ^ 26 + rd.val * 2 ^ 21 + n.toNat))) ∧
    (t.handles = false → ∃ u, exec (.csrr st rd n) s = .next u ∧ RouteEnded s u st t k.key 0x0407) := by
  have hw : Decode.wordI 0x29 rd.val 0 n.toNat = 0x29 * 2 ^ 26 + rd.val * 2 ^ 21 + n.toNat := by
    have := n.isLt
    unfold Decode.wordI
    omega
  refine exec_traps (cause := 2) h (exec_csrr ..) rfl (fun tf h1 => ?_) (congrArg (BitVec.ofNat 64) hw)
  dsimp only
  rw [State.fetched_isDet h.fetched_moves, if_neg hd, hn]

theorem StrandSt.setCsr_plain (t : StrandSt) (n : Nat) (x : Word) :
    t.plain.setCsr n x = (t.setCsr n x).map StrandSt.plain := by
  unfold StrandSt.setCsr
  split
  case h_2 => rfl
  case h_6 => rfl
  all_goals split <;> rfl

theorem StrandSt.setCsr_instret {t t' : StrandSt} {n : Nat} {x : Word} (h : t.setCsr n x = some t') :
    t'.instret = t.instret := by
  unfold StrandSt.setCsr at h
  repeat' split at h
  all_goals cases h
  all_goals rfl

theorem exec_csrw_retires {s : State} {st : StrandRef} {t t1 : StrandSt} {k : StrandTask} {n : BitVec 12} {rs1 : Fin 32}
    (h : StrandReady s st t k) (hx : t.setCsr n.toNat (t.rg rs1) = some t1) :
    ∃ u, exec (.csrw st rs1 n) s = .next u ∧ Retired s u st t1.advance := by
  refine State.strandRun_pure h _ fun tf sf h1 h2 => ?_
  have hs : (tf.setCsr n.toNat (t.rg rs1)).map StrandSt.plain = some t1.plain := by
    rw [← StrandSt.setCsr_plain, h1, StrandSt.setCsr_plain, hx]
    rfl
  obtain ⟨t', ht', hp⟩ := Option.map_eq_some_iff.mp hs
  refine ⟨t'.advance, sf, ?_, StrandSt.advance_of_plain hp, ?_, Moves.refl _ _⟩
  · rw [StrandSt.rg_of_plain h1, ht']
  · exact (StrandSt.setCsr_instret ht').trans (h2.trans (StrandSt.setCsr_instret hx).symm)

/-- A write that sets a reserved field, or that is to no RW register, is refused. -/
theorem StrandSt.setCsr_none {t : StrandSt} {n : Nat} {x : Word} (h1 : n = 0x001 → x.getLsbD 1 = true) (h2 : n ≠ 0x002)
    (h8 : n = 0x008 → ¬ x.toNat < 2 ^ 12) (h10 : n = 0x010 → ¬ x.toNat < 2 ^ 2) (h11 : n = 0x011 → ¬ x.toNat < 2 ^ 32) :
    t.setCsr n x = none := by
  unfold StrandSt.setCsr
  split
  · exact if_pos (h1 rfl)
  · exact absurd rfl h2
  · exact if_neg (h8 rfl)
  · exact if_neg (h10 rfl)
  · exact if_neg (h11 rfl)
  · rfl

theorem exec_csrw_traps {s : State} {st : StrandRef} {t : StrandSt} {k : StrandTask} {n : BitVec 12} {rs1 : Fin 32}
    (h : StrandReady s st t k) (hn : t.setCsr n.toNat (t.rg rs1) = none) :
    (t.handles = true → ∃ u, exec (.csrw st rs1 n) s = .next u ∧
      TrapTaken s u st t 2 (BitVec.ofNat 64 (0x2A * 2 ^ 26 + rs1.val * 2 ^ 16 + n.toNat))) ∧
    (t.handles = false → ∃ u, exec (.csrw st rs1 n) s = .next u ∧ RouteEnded s u st t k.key 0x0407) := by
  have hw : Decode.wordI 0x2A 0 rs1.val n.toNat = 0x2A * 2 ^ 26 + rs1.val * 2 ^ 16 + n.toNat := by
    have := n.isLt
    unfold Decode.wordI
    omega
  refine exec_traps (cause := 2) h (exec_csrw ..) rfl (fun tf h1 => ?_) (congrArg (BitVec.ofNat 64) hw)
  have hs : (tf.setCsr n.toNat (t.rg rs1)).map StrandSt.plain = none := by
    rw [← StrandSt.setCsr_plain, h1, StrandSt.setCsr_plain, hn]
    rfl
  rw [StrandSt.rg_of_plain h1, Option.map_eq_none_iff.mp hs]

theorem exec_csrr_counter {s : State} {st : StrandRef} {t : StrandSt} {k : StrandTask} (h : StrandReady s st t k)
    (rd : Fin 32) (hd : s.isDet k.key = false) :
    ∀ n ∈ ([0x103, 0x104, 0x108, 0x109, 0x10A, 0x10B] : List (BitVec 12)),
      ∃ x u, exec (.csrr st rd n) s = .next u ∧ Retired s u st (t.wg rd x).advance := by
  intro n hn
  obtain ⟨x, hx⟩ : ∃ x, ((s.fetched st t k).strand st.ridge.val st.strand.val).csr st s.timeNs n.toNat = some x := by
    simp only [List.mem_cons, List.not_mem_nil, or_false] at hn
    rcases hn with rfl | rfl | rfl | rfl | rfl | rfl <;> exact ⟨_, rfl⟩
  exact ⟨x, exec_csrr_retires h rd (by simp [hd]) fun tf _ _ ht => ht ▸ hx⟩

/-- Settles O13: the registers that any route reads, the counters, the numbers that name none, and the writes. -/
theorem controlRegisters : Obligations.ControlRegisters := by
  refine ⟨fun s st t k rd h => ⟨?plain, fun hd => ⟨?timed, exec_csrr_counter h rd hd⟩, fun n hn hd => ?unlisted⟩, ?writes⟩
  case plain =>
    have retires {n : BitVec 12} {x : Word} (hlt : n.toNat < 0x100) (hp : t.csr st s.timeNs n.toNat = some x)
        (hf : ∀ y : StrandSt, y.plain.csr st s.timeNs n.toNat = y.csr st s.timeNs n.toNat) :
        ∃ u, exec (.csrr st rd n) s = .next u ∧ Retired s u st (t.wg rd x).advance :=
      exec_csrr_retires h rd (by omega) fun tf h1 _ _ => (StrandSt.of_plain (fun y => y.csr st s.timeNs n.toNat) hf h1).trans hp
    simp only [List.forall_mem_cons]
    exact ⟨retires (by decide) rfl (fun _ => rfl), retires (by decide) rfl (fun _ => rfl),
      retires (by decide) rfl (fun _ => rfl), retires (by decide) rfl (fun _ => rfl), retires (by decide) rfl (fun _ => rfl),
      retires (by decide) rfl (fun _ => rfl), retires (by decide) rfl (fun _ => rfl), retires (by decide) rfl (fun _ => rfl),
      retires (by decide) rfl (fun _ => rfl), List.forall_mem_nil _⟩
  case timed =>
    simp only [List.forall_mem_cons]
    exact ⟨exec_csrr_retires h rd (by simp [hd]) fun tf h1 _ _ =>
        congrArg some (congrArg (BitVec.ofNat 64) (StrandSt.of_plain StrandSt.cycle (fun _ => rfl) h1)),
      exec_csrr_retires h rd (by simp [hd]) fun tf _ h2 _ => congrArg some (congrArg (BitVec.ofNat 64) h2),
      exec_csrr_retires h rd (by simp [hd]) fun _ _ _ _ => rfl, List.forall_mem_nil _⟩
  case unlisted =>
    refine exec_csrr_traps h rd (fun hc => ?_) fun tf time => tf.csr_none st time hn
    have := hd hc.2.2
    omega
  case writes =>
    intro s st t k rs1 h x rows
    refine ⟨?_, fun n hn => exec_csrw_traps h ?_⟩
    · simp only [rows, List.forall_mem_cons]
      refine ⟨fun hp => exec_csrw_retires h ?_, fun _ => exec_csrw_retires h rfl, fun hp => exec_csrw_retires h ?_,
        fun hp => exec_csrw_retires h ?_, fun hp => exec_csrw_retires h ?_, List.forall_mem_nil _⟩
      · exact if_neg (by simpa using hp)
      all_goals exact if_pos (of_decide_eq_true hp)
    · simp only [rows, List.forall_mem_cons] at hn
      obtain ⟨h1, h2, h8, h10, h11, -⟩ := hn
      refine StrandSt.setCsr_none (fun e => ?_) (fun e => ?_) (fun e => ?_) (fun e => ?_) (fun e => ?_)
      · simpa using h1 (BitVec.eq_of_toNat_eq e.symm)
      · simpa using h2 (BitVec.eq_of_toNat_eq e.symm)
      · exact of_decide_eq_false (h8 (BitVec.eq_of_toNat_eq e.symm))
      · exact of_decide_eq_false (h10 (BitVec.eq_of_toNat_eq e.symm))
      · exact of_decide_eq_false (h11 (BitVec.eq_of_toNat_eq e.symm))

end Sys2Proof.Machine
end

section
/-! SUPPORT. Settling O18: system instructions and undelivered causes. -/
namespace Sys2Proof.Machine
open Sys2Proof

/-! ## System instructions (R253, R264 to R266, R273) -/

theorem State.fetched_inputForm {s s' : State} (h : Moves fetchParts s s') (k : StrandTask) :
    s'.inputForm k = s.inputForm k := by
  unfold State.inputForm State.ropeIn State.dobj?
  rw [h.objects_eq rfl]

theorem execEret_retires {s : State} {st : StrandRef} {t : StrandSt} {k : StrandTask} (h : StrandReady s st t k)
    (ht : t.trap = true) : ∃ u, execEret st s = .next u ∧
      Retired s u st { t with pc := t.epc &&& ~~~ 3#64, trap := false } := by
  refine State.strandRun_pure h _ fun tf sf h1 h2 =>
    ⟨{ tf with pc := tf.epc &&& ~~~ 3#64, trap := false }, sf, ?_, ?_, h2, Moves.refl _ _⟩
  · exact if_pos ((StrandSt.of_plain StrandSt.trap (fun _ => rfl) h1).trans ht)
  · exact congrArg (fun y : StrandSt => { y with pc := y.epc &&& ~~~ 3#64, trap := false }) h1

section
variable {s : State} {st : StrandRef} {t : StrandSt} {k : StrandTask}

/-- ILLEGAL at a word: a handler takes it, and else the route ends with STRAND_FAULT. -/
def IllegalAt (s : State) (st : StrandRef) (t : StrandSt) (k : StrandTask) (c : Instr) (word : Nat) : Prop :=
  (t.handles = true → ∃ u, exec c s = .next u ∧ TrapTaken s u st t 2 (BitVec.ofNat 64 word)) ∧
  (t.handles = false → ∃ u, exec c s = .next u ∧ RouteEnded s u st t k.key 0x0407)

theorem exec_eret_traps (h : StrandReady s st t k) (ht : t.trap = false) :
    IllegalAt s st t k (.eret st) (0x28 * 2 ^ 26 + 2) := by
  refine exec_traps (cause := 2) h (exec_eret ..) rfl (fun tf h1 => if_neg ?_) rfl
  rw [StrandSt.of_plain StrandSt.trap (fun _ => rfl) h1, ht]
  decide

theorem exec_reserved_traps {w : BitVec 32} (h : StrandReady s st t k) (hw : Decode.strandAssigned w.toNat = false) :
    IllegalAt s st t k (.reservedEncoding st w) w.toNat := by
  refine exec_traps (cause := 2) h (if_neg ?_) rfl (fun _ _ => rfl) (BitVec.ofNat_toNat ..).symm
  rw [hw]
  decide

theorem exec_temit_traps {rs1 : Fin 32} (h : StrandReady s st t k) (rd : Fin 32)
    (hr : 4096 < (t.rg rs1).toNat ∨ (t.rg rs1).toNat = 0 ∨ s.inputForm k = 0) :
    IllegalAt s st t k (.temit st rd rs1) (0x28 * 2 ^ 26 + rd.val * 2 ^ 21 + rs1.val * 2 ^ 16 + 0x10) := by
  have hw : Decode.wordR 0x28 rd.val rs1.val 0 0x10 = 0x28 * 2 ^ 26 + rd.val * 2 ^ 21 + rs1.val * 2 ^ 16 + 0x10 := rfl
  refine exec_traps (cause := 2) h (exec_temit ..) rfl (fun tf h1 => ?_) (congrArg (BitVec.ofNat 64) hw)
  dsimp only
  rw [StrandSt.rg_of_plain h1, State.fetched_inputForm h.fetched_moves, if_pos hr]

theorem exec_tend_traps {rs1 : Fin 32} (h : StrandReady s st t k) (hr : 4096 < (t.rg rs1).toNat) :
    IllegalAt s st t k (.tend st rs1) (0x28 * 2 ^ 26 + rs1.val * 2 ^ 16 + 0x11) := by
  have hw : Decode.wordR 0x28 0 rs1.val 0 0x11 = 0x28 * 2 ^ 26 + rs1.val * 2 ^ 16 + 0x11 := by
    unfold Decode.wordR
    omega
  refine exec_traps (cause := 2) h (exec_tend ..) rfl (fun tf h1 => ?_) (congrArg (BitVec.ofNat 64) hw)
  dsimp only
  rw [StrandSt.rg_of_plain h1, if_pos hr]

end

/-- What answers held snoops takes nothing from a route that has ended. -/
theorem RouteEnded.moves {s u v : State} {st : StrandRef} {t : StrandSt} {k : RouteKey} {status : Nat}
    (h : RouteEnded s u st t k status) (hm : Moves answerParts u v) : RouteEnded s v st t k status := by
  obtain ⟨hself, hothers, hgone, ⟨hroute, hroutes⟩, hw⟩ := h
  have hr (key : RouteKey) : v.route? key = u.route? key := by
    unfold State.route?
    rw [hm.routes_eq rfl]
  refine ⟨?_, ?_, ?_, ⟨fun r hr' => ?_, fun key hk => ?_⟩, ?_⟩
  · rwa [hm.strands_eq rfl]
  · rwa [hm.strands_eq rfl]
  · rwa [hm.sched_eq rfl]
  · rw [hr]
    exact hroute r hr'
  · rw [hr]
    exact hroutes key hk
  · exact .mk fun f hf => Field.same_trans (hw.get f hf) (hm.get f fun hin => hf (by
      revert hin
      cases f <;> decide))

theorem execStoreRefused_ends {s : State} {st : StrandRef} {t : StrandSt} {k : StrandTask} {e : StoreEnt}
    {rest : List StoreEnt} (hs : s.strands.find (strandKey st.ridge.val st.strand.val) = some t) (ht : t.task = some k)
    (hq : t.queue = e :: rest) : ∃ u, execStoreRefused st s = .next u ∧ RouteEnded s u st t k.key 0x0404 ∧ SameBytes s u := by
  obtain ⟨hself, hothers, hruns⟩ := State.strandStops (State.strand_of_find hs)
  have he : execStoreRefused st s = .next ((((s.stopStrand st.ridge.val st.strand.val).endRunning st.ridge.val .strand
      st.strand.val).routeFault k.key 0x0009 stBusError e.addr.toNat).stopOnRidge k.key st.ridge.val).flushHeld := by
    unfold execStoreRefused
    simp only [hs, ht, hq]
  have hstop : Moves [.objs, .sched, .strands] s
      ((s.stopStrand st.ridge.val st.strand.val).endRunning st.ridge.val .strand st.strand.val) :=
    ((State.stopStrand_writes ..).mono (Within.mk rfl)).trans ((State.endRunning_writes ..).mono (Within.mk rfl))
  have hroute (key : RouteKey) : ((s.stopStrand st.ridge.val st.strand.val).endRunning st.ridge.val .strand
      st.strand.val).route? key = s.route? key := by
    unfold State.route?
    rw [hstop.routes_eq rfl]
  refine ⟨_, he, ?_, ?_⟩
  · refine RouteEnded.moves ?_ (State.flushHeld_writes _)
    refine State.routeFault_ended (tf := t) (Moves.refl _ s) (fun _ _ => rfl) rfl (hstop.mono (Within.mk rfl)) hself
      hothers (hruns k.key) (fun r hr => ⟨r, (hroute _).trans hr, rfl⟩)
      (fun key _ => hroute key)
  · exact .of_objects ((execStoreRefused_writes st s).get he |>.objects_eq rfl)

/-- Settles O18: the traps with the instruction word, ERET in a handler, and the causes that no handler takes. -/
theorem systemInstructions : Obligations.SystemInstructions := by
  refine ⟨fun s st t k rd rs1 w h => ⟨?illegal, execEret_retires h⟩,
    fun s st t k => ⟨fun h => ?fetch, fun rd n h hd hl hu => ?counter,
    fun e rest hs ht hq => execStoreRefused_ends hs ht hq⟩⟩
  case fetch =>
    exact State.strandRun_ends (c := 1) (v := t.pc) h rfl _ fun tf h1 =>
      congrArg (SEff.trap 1) (StrandSt.pc_of_plain h1)
  case counter =>
    refine State.strandRun_ends (c := 10) (v := BitVec.ofNat 64 n.toNat) h rfl _ fun tf h1 => ?_
    dsimp only
    rw [if_pos ⟨hl, hu, (State.fetched_isDet h.fetched_moves k.key).trans hd⟩]
  case illegal =>
    simp only [List.forall_mem_cons]
    exact ⟨fun _ => exec_traps h (exec_brk ..) rfl (fun _ _ => rfl) rfl,
      fun ht => exec_eret_traps h (by simpa using ht),
      fun hw => exec_reserved_traps h (by simpa using hw),
      fun hr => exec_temit_traps h rd (of_decide_eq_true hr),
      fun hr => exec_tend_traps h (of_decide_eq_true hr), List.forall_mem_nil _⟩

end Sys2Proof.Machine
end

section
/-! SUPPORT. Settling O26: vector words that break R284. -/
namespace Sys2Proof.Machine
open Sys2Proof

/-- A vector word whose fields break its row's condition traps with ILLEGAL (R284). -/
theorem exec_vector_traps {s : State} {st : StrandRef} {t : StrandSt} {k : StrandTask} {a : VArgs} {c : Instr}
    {op f : Nat} {ok : StrandSt → Bool} {body : StrandSt → StrandTask → State → SEff} {b : Bool} (h : StrandReady s st t k)
    (hh : t.handles = true) (hc : exec c s = s.vrun st op f a ok body) (hok : ∀ x, ok x = ok x.plain) (hb : ok t = b) :
    b = false → ∃ u, exec c s = .next u ∧ TrapTaken s u st t 2 (BitVec.ofNat 64 (Decode.wordV op f a)) :=
  fun hn => hc ▸ State.vrun_illegal h hh op f a ok body hok (hb.trans hn)

theorem exec_vcmp_traps {s : State} {st : StrandRef} {t : StrandSt} {k : StrandTask} {a : VArgs} {c : Instr}
    {f : Nat} {g : Nat → Nat → Nat → Bool × Nat} (h : StrandReady s st t k) (hh : t.handles = true)
    (hc : exec c s = s.vcmp st f a false g) :
    (decide (a.vd.val < 8) && t.regOk a a.vs1 && t.regOk a a.vs2) = false →
      ∃ u, exec c s = .next u ∧ TrapTaken s u st t 2 (BitVec.ofNat 64 (Decode.wordV 0x32 f a)) :=
  exec_vector_traps h hh hc (fun _ => rfl) (Bool.and_true _)

theorem exec_vctl_traps {s : State} {st : StrandRef} {t : StrandSt} {k : StrandTask} {a : VArgs} {c : Instr}
    {f : Nat} {ok b : Bool} {g : StrandSt → StrandSt} (h : StrandReady s st t k) (hh : t.handles = true)
    (hc : exec c s = s.vctl st f a ok g) (hb : (ok && !a.long) = b) :
    b = false → ∃ u, exec c s = .next u ∧ TrapTaken s u st t 2 (BitVec.ofNat 64 (Decode.wordV 0x35 f a)) :=
  exec_vector_traps h hh hc (fun _ => rfl) hb

/-- Settles O26: row by row of Tables 09.4 to 09.6. -/
theorem illegalVectorWords : Obligations.IllegalVectorWords := by
  intro s st t k a h hh three two fp d cmp gs one pp p3 red word
  have trap {c : Instr} {op f : Nat} {ok : StrandSt → Bool} {body : StrandSt → StrandTask → State → SEff}
      (hc : exec c s = s.vrun st op f a ok body) (hok : ∀ x, ok x = ok x.plain := by exact fun _ => rfl) :=
    exec_vector_traps h hh hc hok rfl
  simp only [List.forall_mem_append, List.forall_mem_cons]
  refine ⟨⟨⟨?int, ?float⟩, ?mem⟩, ?ctl⟩
  case int =>
    exact ⟨trap (exec_vadd ..), trap (exec_vsub ..), trap (exec_vand ..),
      trap (exec_vor ..), trap (exec_vxor ..), trap (exec_vsll ..),
      trap (exec_vsrl ..), trap (exec_vsra ..), trap (exec_vmul ..),
      trap (exec_vmin ..), trap (exec_vmax ..), trap (exec_vminu ..),
      trap (exec_vmaxu ..), trap (exec_vhstep ..), trap (exec_vhfin ..),
      trap (exec_vbcast ..), List.forall_mem_nil _⟩
  case float =>
    exact ⟨trap (exec_vfadd ..), trap (exec_vfsub ..), trap (exec_vfmul ..),
      trap (exec_vfdiv ..), trap (exec_vfmadd ..), trap (exec_vfmin ..),
      trap (exec_vfmax ..), trap (exec_vfsqrt ..), trap (exec_vfcvtl ..),
      trap (exec_vfcvtf ..), exec_vcmp_traps h hh (exec_vcmpEq ..), exec_vcmp_traps h hh (exec_vcmpNe ..),
      exec_vcmp_traps h hh (exec_vcmpLt ..), exec_vcmp_traps h hh (exec_vcmpLe ..), exec_vcmp_traps h hh (exec_vcmpLtu ..),
      exec_vcmp_traps h hh (exec_vcmpLeu ..), trap (exec_vcmpFeq ..), trap (exec_vcmpFlt ..),
      trap (exec_vcmpFle ..), List.forall_mem_nil _⟩
  case mem =>
    exact ⟨trap (exec_vld ..), trap (exec_vldff ..), trap (exec_vst ..),
      trap (exec_vlds ..), trap (exec_vsts ..), trap (exec_vgather ..),
      trap (exec_vgatherff ..), trap (exec_vscatter ..), List.forall_mem_nil _⟩
  case ctl =>
    have hp (x : Fin 32) : isPred x = decide (x.val < 8) := rfl
    exact ⟨exec_vctl_traps h hh (exec_vsetvl ..) (by grind), exec_vctl_traps h hh (exec_pand ..) (by grind),
      exec_vctl_traps h hh (exec_por ..) (by grind), exec_vctl_traps h hh (exec_pandn ..) (by grind),
      exec_vctl_traps h hh (exec_pnot ..) (by grind), exec_vctl_traps h hh (exec_ffmask ..) (by grind),
      exec_vctl_traps h hh (exec_fffill ..) (by grind), exec_vctl_traps h hh (exec_ffput ..) (by grind),
      exec_vctl_traps h hh (exec_pcnt ..) (by grind), exec_vctl_traps h hh (exec_ptrue ..) (by grind),
      exec_vctl_traps h hh (exec_ffcnt ..) (by grind),
      trap (exec_vredadd ..), trap (exec_vredmin ..), trap (exec_vredmax ..),
      trap (exec_vext ..), trap (exec_vcompress ..), trap (exec_vmv ..),
      trap (exec_vfredadd ..), List.forall_mem_nil _⟩

end Sys2Proof.Machine
end

section
/-! SUPPORT. Settling O17: FENCE and the store queue. -/
namespace Sys2Proof.Machine
open Sys2Proof

/-! ## FENCE and the store queue (R247) -/

/-- What a store changes beside its strand's counters and its object's bytes. -/
def landParts : List Field := [.objs, .flash, .depot, .cache, .coh, .link, .hostMem, .dram, .err, .mgmt, .out]

/-- A store that leaves the queue writes its object and counts at its strand; no other object, strand or route changes. -/
theorem State.landStore_keeps (s : State) (st : StrandRef) (key : RouteKey) (o off : Nat) (ob : DObj) (ls : List Nat)
    (bs : List Byte) : ∃ n,
    (s.landStore st key o off ob ls bs).strands =
      s.strands.put (strandKey st.ridge.val st.strand.val) ((s.strand st.ridge.val st.strand.val).event 1 n) ∧
    (s.landStore st key o off ob ls bs).depot.objects = s.depot.objects.put o (ob.writeN o off bs) ∧
    (s.landStore st key o off ob ls bs).routes = s.routes := by
  let n := (ls.filter (fun l => !s.l1dHit (s.physOf st).1 (s.physOf st).2 l)).length
  have hm : Moves landParts ((s.setStrand st.ridge.val st.strand.val
      ((s.strand st.ridge.val st.strand.val).event 1 n)).putObj o (ob.writeN o off bs)) (s.landStore st key o off ob ls bs) := by
    unfold State.landStore
    dsimp only
    refine Moves.foldl _ (fun v p => (State.storeToHost_writes ..).mono (Within.mk rfl)) ?_
    refine Moves.foldl _ (fun v x => ?_) (Moves.foldl _ (fun v l => ?_) (Moves.refl _ _))
    · split
      · exact .ite (Moves.refl _ _) ((State.patchFar_writes ..).mono (Within.mk rfl))
      · exact Moves.refl _ _
    · exact ((State.lineFresh_writes ..).mono (Within.mk rfl)).trans
        (((State.strandWrite_writes ..).mono (Within.mk rfl)).trans ((State.setTag_writes ..).mono (Within.mk rfl)))
  exact ⟨n, hm.strands_eq rfl, hm.objects_eq rfl, hm.routes_eq rfl⟩

/-- A store whose lines the ridge's L2 owns, and whose journal steps find room, leaves the queue. -/
theorem State.storeOut_done {s : State} {st : StrandRef} {k : StrandTask} {e : StoreEnt} {o : Nat} {x ob : DObj}
    (ho : s.strandObj k e.addr.toNat = some (o, x)) (hd : s.dobj? o = some ob)
    (hl : s.linesOwned (s.physRidge st.ridge.val) (s.depotLines ob (e.addr.toNat % 2 ^ 40) e.bytes.length))
    (hj : (s.storeSteps (s.physRidge st.ridge.val) (s.depotLines ob (e.addr.toNat % 2 ^ 40) e.bytes.length)).isSome = true) :
    ∃ (w : State) (n : Nat), s.storeOut st k e = .done w ∧
      w.strands = s.strands.put (strandKey st.ridge.val st.strand.val) ((s.strand st.ridge.val st.strand.val).event 1 n) ∧
      w.depot.objects = s.depot.objects.put o (ob.writeN o (e.addr.toNat % 2 ^ 40) e.bytes) ∧ w.routes = s.routes := by
  obtain ⟨v, hv⟩ := Option.isSome_iff_exists.mp hj
  have hm := (State.storeSteps_writes ..).get hv
  obtain ⟨n, hstrands, hobjects, hroutes⟩ := v.landStore_keeps st k.key o (e.addr.toNat % 2 ^ 40) ob
    (s.depotLines ob (e.addr.toNat % 2 ^ 40) e.bytes.length) e.bytes
  have hown : (s.depotLines ob (e.addr.toNat % 2 ^ 40) e.bytes.length).find?
      (fun l => !s.ownNear (s.physRidge st.ridge.val) l) = none :=
    List.find?_eq_none.mpr fun l hmem => by simp [(hl l hmem).2]
  have hout : s.storeOut st k e = .done (v.landStore st k.key o (e.addr.toNat % 2 ^ 40) ob
      (s.depotLines ob (e.addr.toNat % 2 ^ 40) e.bytes.length) e.bytes) := by
    unfold State.storeOut
    simp only [ho, hd, State.settleLost_none fun l hmem => (hl l hmem).1, hown, hv]
  refine ⟨_, n, hout, ?_, hobjects.trans (by rw [hm.objects_eq rfl]), hroutes.trans (hm.routes_eq rfl)⟩
  rw [hstrands, State.strand, hm.strands_eq rfl]
  rfl

/-- The one store of a queue leaves it: its strand's queue is empty then. -/
theorem State.drainStores_one {s v : State} {st : StrandRef} {k : StrandTask} {e : StoreEnt}
    (hq : (s.strand st.ridge.val st.strand.val).queue = [e]) (hd : s.storeOut st k e = .done v) :
    s.drainStores st k 2 = v.setStrand st.ridge.val st.strand.val { v.strand st.ridge.val st.strand.val with queue := [] } := by
  have hempty : (v.setStrand st.ridge.val st.strand.val { v.strand st.ridge.val st.strand.val with queue := [] }).strand
      st.ridge.val st.strand.val = { v.strand st.ridge.val st.strand.val with queue := [] } :=
    State.strand_of_find (State.setStrand_find ..)
  unfold State.drainStores
  simp only [hq, hd]
  unfold State.drainStores
  simp only [hempty]

/-- Once the older stores have left the queue, the instruction runs as on the state that they leave. -/
theorem State.strandRun_drained {s d : State} {st : StrandRef} {t t' : StrandSt} {k : StrandTask} {r : Route}
    (hs : s.strands.find (strandKey st.ridge.val st.strand.val) = some t) (ht : t.task = some k)
    (hr : s.route? k.key = some r) (hw : t.waitLine = none) (hx : s.drainStores st k (t.queue.length + 1) = d)
    (hd : StrandReady d st t' k) (hr' : d.route? k.key = some r) (f : StrandSt → StrandTask → State → SEff) :
    s.strandRun st f = d.strandRun st f := by
  obtain ⟨hs', ht', -, hw', hq'⟩ := hd
  have hdrain : d.drainStores st k (t'.queue.length + 1) = d := by
    unfold State.drainStores
    simp only [State.strand_of_find hs', hq']
  unfold State.strandRun
  simp only [hs, ht, hr, hw, hs', ht', hr', hw', hx, hdrain, Option.isSome_none, Bool.false_eq_true, if_false]

theorem execFence_retires {s : State} {st : StrandRef} {t : StrandSt} {k : StrandTask} (h : StrandReady s st t k) :
    ∃ u, exec (.fence st) s = .next u ∧ Retired s u st t.advance :=
  State.regOp_retires h id (fun _ => rfl) (fun _ => rfl)

/-- Settles O17: with no older store FENCE retires; with one it runs on the state that the store leaves. -/
theorem fenceAndTheStoreQueue : Obligations.FenceAndTheStoreQueue := by
  intro s st t k
  refine ⟨execFence_retires, fun e o ob x r hs ht hr hw hq ho hob => ?_⟩
  intro ls hl hj d hb ha
  obtain ⟨w, n, hout, hstrands, hobjects, hroutes⟩ := State.storeOut_done ho hob hl hj
  have hst : s.strand st.ridge.val st.strand.val = t := State.strand_of_find hs
  have hd : d = w.setStrand st.ridge.val st.strand.val { t.event 1 n with queue := [] } := by
    have hwt : w.strand st.ridge.val st.strand.val = t.event 1 n := by
      refine State.strand_of_find ?_
      rw [hstrands, SMap.find_put_same, hst]
    rw [← hwt]
    exact State.drainStores_one (by rw [hst, hq]) hout
  have hdr : d.route? k.key = some r := by
    rw [hd]
    unfold State.route? at hr ⊢
    rw [State.setStrand_routes, hroutes, hr]
  have hready : StrandReady d st { t.event 1 n with queue := [] } k :=
    ⟨hd ▸ State.setStrand_find .., ht, ⟨r, hdr, hb, ha⟩, hw, rfl⟩
  obtain ⟨u, hu, ⟨⟨y, hy, hplain, -⟩, -⟩, hwrites⟩ := execFence_retires hready
  have hsame : exec (.fence st) s = exec (.fence st) d :=
    State.strandRun_drained hs ht hr hw (by rw [hq]; rfl) hready hdr _
  have hobj (o' : Nat) : u.dobj? o' = (s.depot.objects.put o (ob.writeN o (e.addr.toNat % 2 ^ 40) e.bytes)).find o' := by
    have hc : u.depot.objects = d.depot.objects := hwrites.get .content (by decide)
    unfold State.dobj?
    rw [hc, hd, State.setStrand_depot, hobjects]
  refine ⟨u, hsame.trans hu, ⟨y, hy, hplain⟩, ⟨_, (hobj o).trans (SMap.find_put_same ..), rfl⟩, fun o' hne => ?_⟩
  rw [hobj, SMap.find_put_other _ _ hne]
  rfl

end Sys2Proof.Machine
end

section
/-! SUPPORT. Settling O4: every step keeps the canonical forms. -/
namespace Sys2Proof.Machine
open Sys2Proof

/-! ## What every command writes -/

/-- Every command writes the parts of the frame table at most and keeps the canonical forms, each by its own rule. -/
theorem exec_writes (c : Instr) (s : State) : ResAll (fun t => Moves (mayWrite c) s t) (exec c s) := by
  cases c with
  | tick => exact execTick_writes ..
  | cutoff => exact execCutoff_writes ..
  | decision => exact execDecision_writes ..
  | tickInEdge => exact execTickInEdge_writes ..
  | tickInMiss => exact execTickInMiss_writes ..
  | tickMarker => exact execTickMarker_writes ..
  | belayAck => exact execBelayAck_writes ..
  | resourceFailure => exact execResourceFailure_writes ..
  | spanRestart => exact execSpanRestart_writes ..
  | journalStallRelease => exact execJournalStallRelease_writes ..
  | wqTailDoorbell => exact execWqTailDoorbell_writes ..
  | cqHeadDoorbell => exact execCqHeadDoorbell_writes ..
  | fetchEntry => exact execFetchEntry_writes ..
  | wqStallTimeout => exact execWqStallTimeout_writes ..
  | submitRoute => exact execSubmitRoute_writes ..
  | createWq => exact execCreateWq_writes ..
  | deleteWq => exact execDeleteWq_writes ..
  | createCq => exact execCreateCq_writes ..
  | deleteCq => exact execDeleteCq_writes ..
  | setQuota => exact execSetQuota_writes ..
  | grantSpill => exact execGrantSpill_writes ..
  | revokeSpill => exact execRevokeSpill_writes ..
  | openOutput => exact execOpenOutput_writes ..
  | closeOutput => exact execCloseOutput_writes ..
  | setWeight => exact execSetWeight_writes ..
  | logStart => exact execLogStart_writes ..
  | logStop => exact execLogStop_writes ..
  | getLogErrorRecords => exact execGetLogErrorRecords_writes ..
  | getLogCounters => exact execGetLogCounters_writes ..
  | getLogOpenRoutes => exact execGetLogOpenRoutes_writes ..
  | abortRoute => exact execAbortRoute_writes ..
  | loadCairn => exact execLoadCairn_writes ..
  | aqEnable => exact execAqEnable_writes ..
  | aqDisable => exact execAqDisable_writes ..
  | mbControlGo => exact execMbControlGo_writes ..
  | registerWrite => exact execRegisterWrite_writes ..
  | msixCoalesceTimeout => exact execMsixCoalesceTimeout_writes ..
  | functionLevelReset => exact execFunctionLevelReset_writes ..
  | managementReset => exact execManagementReset_writes ..
  | tenantResetComplete => exact execTenantResetComplete_writes ..
  | hostPortReset => exact execHostPortReset_writes ..
  | perstNRelease => exact execPerstNRelease_writes ..
  | malformedTlp => exact execMalformedTlp_writes ..
  | hostReadCompletion => exact execHostReadCompletion_writes ..
  | cxlMemRead => exact execCxlMemRead_writes ..
  | cxlMemWrite => exact execCxlMemWrite_writes ..
  | cxlMemPartialWrite => exact execCxlMemPartialWrite_writes ..
  | memspecrd addr => exact execMemspecrd_writes addr s
  | cxlOtherM2s => exact execCxlOtherM2s_writes ..
  | dmaCopy => exact execDmaCopy_writes ..
  | compress => exact execCompress_writes ..
  | decompress => exact execDecompress_writes ..
  | digestOpen => exact execDigestOpen_writes ..
  | digestFeed => exact execDigestFeed_writes ..
  | digestRead => exact execDigestRead_writes ..
  | dmaStop => exact execDmaStop_writes ..
  | dmaResume => exact execDmaResume_writes ..
  | dmaFlush => exact execDmaFlush_writes ..
  | channelEntryStart => exact execChannelEntryStart_writes ..
  | engineEntryComplete => exact execEngineEntryComplete_writes ..
  | channelHalt => exact execChannelHalt_writes ..
  | compressionJobStart => exact execCompressionJobStart_writes ..
  | digestBlock => exact execDigestBlock_writes ..
  | zeroPageCleared => exact execZeroPageCleared_writes ..
  | suspendLimitExpiry => exact execSuspendLimitExpiry_writes ..
  | migrationCopyDone => exact execMigrationCopyDone_writes ..
  | migrationAbandon => exact execMigrationAbandon_writes ..
  | publicationResume => exact execPublicationResume_writes ..
  | taskDispatch => exact execTaskDispatch_writes ..
  | taskDone => exact execTaskDone_writes ..
  | joinSeal => exact execJoinSeal_writes ..
  | summitMerge => exact execSummitMerge_writes ..
  | publicationDone => exact execPublicationDone_writes ..
  | paritySweep => exact execParitySweep_writes ..
  | shadowScrub => exact execShadowScrub_writes ..
  | storeRefused => exact execStoreRefused_writes ..
  | clean => exact execClean_writes ..
  | inval => exact execInval_writes ..
  | cleaninval => exact execCleaninval_writes ..
  | cacheDisable => exact execCacheDisable_writes ..
  | cacheEnable => exact execCacheEnable_writes ..
  | cacheSweepDone => exact execCacheSweepDone_writes ..
  | rdShared => exact execRdShared_writes ..
  | rdOwn => exact execRdOwn_writes ..
  | upgrade => exact execUpgrade_writes ..
  | rdNc => exact execRdNc_writes ..
  | wrNc => exact execWrNc_writes ..
  | cmoClean => exact execCmoClean_writes ..
  | cmoCleaninval => exact execCmoCleaninval_writes ..
  | cmoInval => exact execCmoInval_writes ..
  | tokenReturn => exact execTokenReturn_writes ..
  | snpShared => exact execSnpShared_writes ..
  | snpInv => exact execSnpInv_writes ..
  | snpData => exact execSnpData_writes ..
  | snpClean => exact execSnpClean_writes ..
  | fwdShared => exact execFwdShared_writes ..
  | fwdOwn => exact execFwdOwn_writes ..
  | snpDiscard => exact execSnpDiscard_writes ..
  | gangRd => exact execGangRd_writes ..
  | gangOwn => exact execGangOwn_writes ..
  | cohAck => exact execCohAck_writes ..
  | ackLost => exact execAckLost_writes ..
  | cohRetry => exact execCohRetry_writes ..
  | cohGrant => exact execCohGrant_writes ..
  | cohCmp => exact execCohCmp_writes ..
  | wbAck => exact execWbAck_writes ..
  | ownerMoved => exact execOwnerMoved_writes ..
  | cohData => exact execCohData_writes ..
  | snpDataRsp => exact execSnpDataRsp_writes ..
  | wbDirty => exact execWbDirty_writes ..
  | evictClean => exact execEvictClean_writes ..
  | pdSet => exact execPdSet_writes ..
  | heartbeatSend => exact execHeartbeatSend_writes ..
  | heartbeat => exact execHeartbeat_writes ..
  | heartbeatTimeout => exact execHeartbeatTimeout_writes ..
  | snoopTimeout => exact execSnoopTimeout_writes ..
  | deathNotice => exact execDeathNotice_writes ..
  | portEnable => exact execPortEnable_writes ..
  | trainingTimeout => exact execTrainingTimeout_writes ..
  | payloadFlit => exact execPayloadFlit_writes ..
  | linkIdle => exact execLinkIdle_writes ..
  | widthChange => exact execWidthChange_writes ..
  | retrain => exact execRetrain_writes ..
  | latencyProbe => exact execLatencyProbe_writes ..
  | latencyEcho => exact execLatencyEcho_writes ..
  | portLost => exact execPortLost_writes ..
  | flitReplayTimeout => exact execFlitReplayTimeout_writes ..
  | laneLockLost => exact execLaneLockLost_writes ..
  | laneErrorInterval => exact execLaneErrorInterval_writes ..
  | widthSwitchDone => exact execWidthSwitchDone_writes ..
  | retrainCmd => exact execRetrainCmd_writes ..
  | retrainDone => exact execRetrainDone_writes ..
  | routeOpen => exact execRouteOpen_writes ..
  | routeEnd => exact execRouteEnd_writes ..
  | pageAlloc => exact execPageAlloc_writes ..
  | pageGrant => exact execPageGrant_writes ..
  | quotaDraw => exact execQuotaDraw_writes ..
  | quotaGrant => exact execQuotaGrant_writes ..
  | quotaReturn => exact execQuotaReturn_writes ..
  | ropeNotice => exact execRopeNotice_writes ..
  | summitEntry => exact execSummitEntry_writes ..
  | summitClose => exact execSummitClose_writes ..
  | linkNak => exact execLinkNak_writes ..
  | refresh => exact execRefresh_writes ..
  | dimmTempSample => exact execDimmTempSample_writes ..
  | scrubStep => exact execScrubStep_writes ..
  | ddrTrainingDone => exact execDdrTrainingDone_writes ..
  | ddrInitDone => exact execDdrInitDone_writes ..
  | channelFailure => exact execChannelFailure_writes ..
  | faultWindowExpiry => exact execFaultWindowExpiry_writes ..
  | testWrite => exact execTestWrite_writes ..
  | testWriteRaw => exact execTestWriteRaw_writes ..
  | testRead => exact execTestRead_writes ..
  | remapRead => exact execRemapRead_writes ..
  | nextRecordRead => exact execNextRecordRead_writes ..
  | fatalLatchRead => exact execFatalLatchRead_writes ..
  | brixPing => exact execBrixPing_writes ..
  | brixRead => exact execBrixRead_writes ..
  | brixWrite => exact execBrixWrite_writes ..
  | brixList => exact execBrixList_writes ..
  | sessionOpen => exact execSessionOpen_writes ..
  | sessionFinish => exact execSessionFinish_writes ..
  | sessionClose => exact execSessionClose_writes ..
  | measure => exact execMeasure_writes ..
  | eventAck => exact execEventAck_writes ..
  | eventResend => exact execEventResend_writes ..
  | sessionIdleTimeout => exact execSessionIdleTimeout_writes ..
  | authLockoutExpiry => exact execAuthLockoutExpiry_writes ..
  | getVersion => exact execGetVersion_writes ..
  | getCapabilities => exact execGetCapabilities_writes ..
  | negotiateAlgorithms => exact execNegotiateAlgorithms_writes ..
  | getDigests => exact execGetDigests_writes ..
  | getCertificate => exact execGetCertificate_writes ..
  | challenge => exact execChallenge_writes ..
  | getMeasurements => exact execGetMeasurements_writes ..
  | spdmUnsupportedRequest => exact execSpdmUnsupportedRequest_writes ..
  | arp => exact execArp_writes ..
  | neighbourDiscovery => exact execNeighbourDiscovery_writes ..
  | icmpEcho => exact execIcmpEcho_writes ..
  | otherTraffic => exact execOtherTraffic_writes ..
  | form => exact execForm_writes ..
  | returnToConfiguration => exact execReturnToConfiguration_writes ..
  | bivouacRequest => exact execBivouacRequest_writes ..
  | retreatRequest => exact execRetreatRequest_writes ..
  | retreatExit => exact execRetreatExit_writes ..
  | otpWrite => exact execOtpWrite_writes ..
  | measExtend => exact execMeasExtend_writes ..
  | deviceReset => exact execDeviceReset_writes ..
  | ridgeRetire => exact execRidgeRetire_writes ..
  | ridgeUnretire => exact execRidgeUnretire_writes ..
  | pwrgoodAssert => exact execPwrgoodAssert_writes ..
  | pwrgoodDeassert => exact execPwrgoodDeassert_writes ..
  | rstNRelease => exact execRstNRelease_writes ..
  | basecampReady => exact execBasecampReady_writes ..
  | formationComplete => exact execFormationComplete_writes ..
  | thermalSample => exact execThermalSample_writes ..
  | thermalTrip => exact execThermalTrip_writes ..
  | railCurrentLimit => exact execRailCurrentLimit_writes ..
  | railUndervoltage => exact execRailUndervoltage_writes ..
  | bivouacEntry => exact execBivouacEntry_writes ..
  | filterLdCol => exact execFilterLdCol_writes ..
  | filterEq => exact execFilterEq_writes ..
  | filterNe => exact execFilterNe_writes ..
  | filterLt => exact execFilterLt_writes ..
  | filterLe => exact execFilterLe_writes ..
  | filterGt => exact execFilterGt_writes ..
  | filterGe => exact execFilterGe_writes ..
  | filterBetween => exact execFilterBetween_writes ..
  | filterIsNull => exact execFilterIsNull_writes ..
  | filterInList => exact execFilterInList_writes ..
  | filterInCairn => exact execFilterInCairn_writes ..
  | prefixMatch => exact execPrefixMatch_writes ..
  | suffixMatch => exact execSuffixMatch_writes ..
  | filterAnd => exact execFilterAnd_writes ..
  | filterOr => exact execFilterOr_writes ..
  | filterNot => exact execFilterNot_writes ..
  | filterIsTrue => exact execFilterIsTrue_writes ..
  | filterIsFalse => exact execFilterIsFalse_writes ..
  | filterIsUnknown => exact execFilterIsUnknown_writes ..
  | filterAdd => exact execFilterAdd_writes ..
  | filterSub => exact execFilterSub_writes ..
  | filterMul => exact execFilterMul_writes ..
  | filterDiv => exact execFilterDiv_writes ..
  | filterMod => exact execFilterMod_writes ..
  | filterNeg => exact execFilterNeg_writes ..
  | filterCast => exact execFilterCast_writes ..
  | filterHash64 => exact execFilterHash64_writes ..
  | filterCrc32c => exact execFilterCrc32c_writes ..
  | add => exact execAdd_writes ..
  | sub => exact execSub_writes ..
  | andOp => exact execAndOp_writes ..
  | orOp => exact execOrOp_writes ..
  | xorOp => exact execXorOp_writes ..
  | sll => exact execSll_writes ..
  | srl => exact execSrl_writes ..
  | sra => exact execSra_writes ..
  | slt => exact execSlt_writes ..
  | sltu => exact execSltu_writes ..
  | minOp => exact execMinOp_writes ..
  | maxOp => exact execMaxOp_writes ..
  | minu => exact execMinu_writes ..
  | maxu => exact execMaxu_writes ..
  | mul => exact execMul_writes ..
  | mulh => exact execMulh_writes ..
  | mulhu => exact execMulhu_writes ..
  | div => exact execDiv_writes ..
  | divu => exact execDivu_writes ..
  | rem => exact execRem_writes ..
  | remu => exact execRemu_writes ..
  | clz => exact execClz_writes ..
  | ctz => exact execCtz_writes ..
  | popc => exact execPopc_writes ..
  | bswap => exact execBswap_writes ..
  | hstep => exact execHstep_writes ..
  | hfin => exact execHfin_writes ..
  | crc32cStep => exact execCrc32cStep_writes ..
  | addi => exact execAddi_writes ..
  | andi => exact execAndi_writes ..
  | ori => exact execOri_writes ..
  | xori => exact execXori_writes ..
  | slli => exact execSlli_writes ..
  | srli => exact execSrli_writes ..
  | srai => exact execSrai_writes ..
  | slti => exact execSlti_writes ..
  | lui => exact execLui_writes ..
  | ldpc => exact execLdpc_writes ..
  | lb => exact execLb_writes ..
  | lbu => exact execLbu_writes ..
  | lh => exact execLh_writes ..
  | lhu => exact execLhu_writes ..
  | lw => exact execLw_writes ..
  | lwu => exact execLwu_writes ..
  | ld => exact execLd_writes ..
  | sb => exact execSb_writes ..
  | sh => exact execSh_writes ..
  | sw => exact execSw_writes ..
  | sd => exact execSd_writes ..
  | flw => exact execFlw_writes ..
  | fld => exact execFld_writes ..
  | fsw => exact execFsw_writes ..
  | fsd => exact execFsd_writes ..
  | beq => exact execBeq_writes ..
  | bne => exact execBne_writes ..
  | blt => exact execBlt_writes ..
  | bge => exact execBge_writes ..
  | bltu => exact execBltu_writes ..
  | bgeu => exact execBgeu_writes ..
  | jal => exact execJal_writes ..
  | jalr => exact execJalr_writes ..
  | csrr => exact execCsrr_writes ..
  | csrw => exact execCsrw_writes ..
  | fadd => exact execFadd_writes ..
  | fsub => exact execFsub_writes ..
  | fmul => exact execFmul_writes ..
  | fdiv => exact execFdiv_writes ..
  | fsqrt => exact execFsqrt_writes ..
  | fmin => exact execFmin_writes ..
  | fmax => exact execFmax_writes ..
  | fmadd => exact execFmadd_writes ..
  | feq => exact execFeq_writes ..
  | flt => exact execFlt_writes ..
  | fle => exact execFle_writes ..
  | fcvtl => exact execFcvtl_writes ..
  | fcvtf => exact execFcvtf_writes ..
  | fmvgf => exact execFmvgf_writes ..
  | fmvfg => exact execFmvfg_writes ..
  | fence => exact execFence_writes ..
  | brk => exact execBrk_writes ..
  | eret => exact execEret_writes ..
  | temit => exact execTemit_writes ..
  | tend => exact execTend_writes ..
  | vadd => exact execVadd_writes ..
  | vsub => exact execVsub_writes ..
  | vand => exact execVand_writes ..
  | vor => exact execVor_writes ..
  | vxor => exact execVxor_writes ..
  | vsll => exact execVsll_writes ..
  | vsrl => exact execVsrl_writes ..
  | vsra => exact execVsra_writes ..
  | vmul => exact execVmul_writes ..
  | vmin => exact execVmin_writes ..
  | vmax => exact execVmax_writes ..
  | vminu => exact execVminu_writes ..
  | vmaxu => exact execVmaxu_writes ..
  | vhstep => exact execVhstep_writes ..
  | vhfin => exact execVhfin_writes ..
  | vbcast => exact execVbcast_writes ..
  | vfadd => exact execVfadd_writes ..
  | vfsub => exact execVfsub_writes ..
  | vfmul => exact execVfmul_writes ..
  | vfdiv => exact execVfdiv_writes ..
  | vfmadd => exact execVfmadd_writes ..
  | vfmin => exact execVfmin_writes ..
  | vfmax => exact execVfmax_writes ..
  | vfsqrt => exact execVfsqrt_writes ..
  | vfcvtl => exact execVfcvtl_writes ..
  | vfcvtf => exact execVfcvtf_writes ..
  | vcmpEq => exact execVcmpEq_writes ..
  | vcmpNe => exact execVcmpNe_writes ..
  | vcmpLt => exact execVcmpLt_writes ..
  | vcmpLe => exact execVcmpLe_writes ..
  | vcmpLtu => exact execVcmpLtu_writes ..
  | vcmpLeu => exact execVcmpLeu_writes ..
  | vcmpFeq => exact execVcmpFeq_writes ..
  | vcmpFlt => exact execVcmpFlt_writes ..
  | vcmpFle => exact execVcmpFle_writes ..
  | vld => exact execVld_writes ..
  | vldff => exact execVldff_writes ..
  | vst => exact execVst_writes ..
  | vlds => exact execVlds_writes ..
  | vsts => exact execVsts_writes ..
  | vgather => exact execVgather_writes ..
  | vgatherff => exact execVgatherff_writes ..
  | vscatter => exact execVscatter_writes ..
  | vsetvl => exact execVsetvl_writes ..
  | pand => exact execPand_writes ..
  | por => exact execPor_writes ..
  | pandn => exact execPandn_writes ..
  | pnot => exact execPnot_writes ..
  | ffmask => exact execFfmask_writes ..
  | fffill => exact execFffill_writes ..
  | ffput => exact execFfput_writes ..
  | pcnt => exact execPcnt_writes ..
  | ptrue => exact execPtrue_writes ..
  | ffcnt => exact execFfcnt_writes ..
  | vredadd => exact execVredadd_writes ..
  | vredmin => exact execVredmin_writes ..
  | vredmax => exact execVredmax_writes ..
  | vext => exact execVext_writes ..
  | vcompress => exact execVcompress_writes ..
  | vmv => exact execVmv_writes ..
  | vfredadd => exact execVfredadd_writes ..
  | tickOutFall => exact execTickOutFall_writes ..
  | lockAndEqualise => exact execLockAndEqualise_writes ..
  | railCurrentFall => exact execRailCurrentFall_writes ..
  | lifeObjectsSave => exact execLifeObjectsSave_writes ..
  | reservedEncoding => exact execReservedEncoding_writes ..
  | fetchFault => exact execFetchFault_writes ..
  | brixViolation => exact execBrixViolation_writes ..
  | configurationRequest => exact execConfigurationRequest_writes ..

/-- Settles O4: a step on an empty queue is a clock pass and any other step runs a command, and either keeps the
canonical forms along with the parts it may not write. -/
theorem stepKeepsMemoryCanonical : Obligations.StepKeepsMemoryCanonical := by
  intro s t hs hstep
  rcases hp : s.pending with _ | ⟨c, rest⟩
  · rw [step, hp] at hstep
    cases hstep
    exact s.clockPass_writes.inv hs
  · rw [step, hp] at hstep
    exact ((exec_writes c { s with pending := rest }).get hstep).inv hs

end Sys2Proof.Machine
end

section
/-! SUPPORT. Settling O21: the elements of a vector destination. -/
namespace Sys2Proof.Machine
open Sys2Proof

/-! ## Elements, registers and groups (R282) -/

theorem esBytes_mul_per (es : Fin 4) : esBytes es * (64 / esBytes es) = 64 := by
  revert es
  decide

/-- A group holds 64 bytes of elements in each of its registers. -/
theorem StrandSt.vmax_eq (t : StrandSt) (a : VArgs) : t.vmax a = t.vregs a * (64 / esBytes a.es) := by
  have hdvd : esBytes a.es ∣ 64 := Dvd.intro _ (esBytes_mul_per a.es)
  rw [StrandSt.vmax, Nat.mul_comm 64, Nat.mul_div_assoc _ hdvd]

theorem StrandSt.vregs_cases {t : StrandSt} (a : VArgs) (h : t.vlGroup < 3) :
    t.vregs a = 1 ∨ t.vregs a = 2 ∨ t.vregs a = 4 := by
  unfold StrandSt.vregs
  generalize t.vlGroup = g at h ⊢
  interval_cases g <;> cases a.long <;> simp

/-- A group that starts at a multiple of its size lies in the register file (R284). -/
theorem StrandSt.group_le {t : StrandSt} {a : VArgs} {r : Fin 32} (hg : t.vlGroup < 3) (h : t.regOk a r = true) :
    r.val + t.vregs a ≤ 32 := by
  have hr := r.isLt
  have hm : r.val % t.vregs a = 0 := by simpa [StrandSt.regOk] using h
  rcases StrandSt.vregs_cases a hg with e | e | e <;> rw [e] at hm ⊢ <;> omega

/-- Where an element lies: its register within the group, and its place in it. -/
theorem StrandSt.elem_eq_digit (t : StrandSt) (a : VArgs) (base : Fin 32) (i : Nat) {per : Nat}
    (hper : esBytes a.es * per = 64) : t.elem a base i =
      (t.v[vIdx (base.val + i / per)]).toNat / 2 ^ (esBits a.es * (i % per)) % 2 ^ esBits a.es := by
  have hb : 0 < esBytes a.es := Nat.two_pow_pos _
  have hdiv : i * esBytes a.es / 64 = i / per := by
    rw [← hper, Nat.mul_comm (esBytes a.es)]
    exact Nat.mul_div_mul_right _ _ hb
  have hmod : i * esBytes a.es % 64 = i % per * esBytes a.es := by
    rw [← hper, Nat.mul_comm (esBytes a.es)]
    exact Nat.mul_mod_mul_right ..
  have hbits : 8 * (i % per * esBytes a.es) = esBits a.es * (i % per) := by
    rw [esBits, ← esBytes, Nat.mul_assoc, Nat.mul_comm (esBytes a.es)]
  unfold StrandSt.elem
  simp only [hdiv, hmod, hbits]

/-- What a group holds after it was written from its elements. -/
theorem StrandSt.elem_putElems (t : StrandSt) (a : VArgs) (base : Fin 32) (l : List Nat) (i : Nat)
    (hb : base.val + t.vregs a ≤ 32) (hl : l.length = t.vmax a) (hi : i < l.length) :
    (t.putElems a base l).elem a base i = l[i] % 2 ^ esBits a.es := by
  obtain ⟨per, hper⟩ : ∃ per, per = 64 / esBytes a.es := ⟨_, rfl⟩
  have hsize : esBytes a.es * per = 64 := hper ▸ esBytes_mul_per a.es
  have hpos : 0 < per := Nat.pos_of_ne_zero fun e => by simp [e] at hsize
  have hlen : l.length = t.vregs a * per := by rw [hl, StrandSt.vmax_eq, hper]
  have hq : i / per < t.vregs a := Nat.div_lt_of_lt_mul (by rw [Nat.mul_comm, ← hlen]; exact hi)
  have hr : i % per < per := Nat.mod_lt _ hpos
  have hreg : (vIdx (base.val + i / per)).val = base.val + i / per := Nat.mod_eq_of_lt (by omega)
  have hin : base.val ≤ (vIdx (base.val + i / per)).val ∧
      (vIdx (base.val + i / per)).val < base.val + t.vregs a := by
    rw [hreg]
    exact ⟨Nat.le_add_right .., Nat.add_lt_add_left hq _⟩
  have hend : i / per * per + per ≤ l.length := by
    rw [hlen, ← Nat.succ_mul]
    exact Nat.mul_le_mul_right _ hq
  have htake : ((l.drop (i / per * per)).take per).length = per := by
    rw [List.length_take, List.length_drop]
    omega
  have hbits : esBits a.es * per ≤ 512 := by
    rw [esBits, ← esBytes, Nat.mul_assoc, hsize]
  rw [StrandSt.elem_eq_digit _ _ _ _ hsize]
  unfold StrandSt.putElems
  simp only [← hper]
  rw [putFold_get _ _ _ _ _ _ hb, if_pos hin, hreg, Nat.add_sub_cancel_left,
    packReg_digit _ _ _ (by omega) (by rw [htake]; exact hbits)]
  simp only [List.getElem_take, List.getElem_drop, Nat.div_add_mod']

theorem StrandSt.mem_actives (t : StrandSt) (a : VArgs) (i : Nat) :
    i ∈ t.actives a ↔ i < t.vcount a ∧ (t.rp a.pg).getLsbD i = true := by
  simp [StrandSt.actives]

theorem StrandSt.elem_lt (t : StrandSt) (a : VArgs) (base : Fin 32) (i : Nat) : t.elem a base i < 2 ^ esBits a.es :=
  Nat.mod_lt _ (Nat.two_pow_pos _)

theorem StrandSt.elem_putActive {t : StrandSt} {a : VArgs} (f : Nat → Nat) {i : Nat} (hb : a.vd.val + t.vregs a ≤ 32)
    (hi : i < t.vmax a) : (t.putActive a (t.actives a) f).elem a a.vd i =
      if i < t.vcount a then
        if (t.rp a.pg).getLsbD i = true then f i % 2 ^ esBits a.es else if a.z then 0 else t.elem a a.vd i
      else 0 := by
  unfold StrandSt.putActive
  rw [StrandSt.elem_putElems _ _ _ _ _ hb (by simp) (by simpa using hi)]
  have hkept : t.elem a a.vd i % 2 ^ esBits a.es = t.elem a a.vd i := Nat.mod_eq_of_lt (t.elem_lt ..)
  by_cases hc : i < t.vcount a
  · by_cases hp : (t.rp a.pg).getLsbD i = true
    · simp [StrandSt.mem_actives, hc, hp]
    · cases a.z <;> simp [StrandSt.mem_actives, hc, Nat.not_le.mpr hc, hp, hkept]
  · simp [StrandSt.mem_actives, hc, Nat.le_of_not_lt hc]

/-- Settles O21, from what a group write leaves in each register. -/
theorem vectorElements : Obligations.VectorElements := by
  intro t a f hg hd u
  have hb := StrandSt.group_le hg hd
  exact ⟨fun i hi => StrandSt.elem_putActive f hb hi,
    fun r hr => (putFold_get _ _ _ _ _ _ hb r).trans (if_neg (by omega)), putFold_rest ..⟩

end Sys2Proof.Machine
end

section
/-! SUPPORT. Settling O20 and O23: vector integers, predicates, first-fault functions and reductions. -/
namespace Sys2Proof.Machine
open Sys2Proof

/-! ## What a vector instruction of legal fields leaves (R282, R284) -/

/-- A vector instruction of legal fields that writes registers only retires with what its row makes of them. -/
theorem exec_vector_retires {s : State} {st : StrandRef} {t y : StrandSt} {k : StrandTask} {a : VArgs} {c : Instr}
    {op f : Nat} {ok : StrandSt → Bool} {g : StrandSt → StrandSt} {b : Bool} (h : StrandReady s st t k)
    (hc : exec c s = s.vrun st op f a ok (fun t _ s => .ok (g t).advance s)) (hok : ∀ x, ok x = ok x.plain)
    (hg : ∀ x, (g x).plain = (g x.plain).plain) (hi : ∀ x, (g x).instret = x.instret) (hb : ok t = b) (hy : g t = y) :
    b = true → ∃ u, exec c s = .next u ∧ Retired s u st y.advance :=
  fun hl => hc ▸ hy ▸ State.vrun_retires h op f a ok g hok (hb.trans hl) hg hi

/-- The same where the destination is a vector: `g t i` at the active elements. -/
theorem exec_elements_retire {s : State} {st : StrandRef} {t : StrandSt} {k : StrandTask} {a : VArgs} {c : Instr}
    {op f : Nat} {ok : StrandSt → Bool} {r : Nat → Nat} (g : StrandSt → Nat → Nat) (h : StrandReady s st t k)
    (hc : exec c s = s.vrun st op f a ok (fun t _ s => .ok (t.putActive a (t.actives a) (g t)).advance s))
    (hok : ∀ x, ok x = ok x.plain) (hg : ∀ x, g x = g x.plain) (hr : ∀ i, g t i = r i) :
    ok t = true → ∃ u, exec c s = .next u ∧ Retired s u st (t.putActive a (t.actives a) r).advance :=
  exec_vector_retires h hc hok
    (fun x => by rw [StrandSt.putActive_plain, StrandSt.putActive_plain, hg x]; rfl)
    (fun x => StrandSt.putActive_instret ..) rfl (by rw [funext hr])

/-- A VINT instruction of two vector sources. -/
theorem exec_vint_retires {s : State} {st : StrandRef} {t : StrandSt} {k : StrandTask} {a : VArgs} {c : Instr}
    {f : Nat} {g : Nat → Nat → Nat → Nat} {r : Nat → Nat} (h : StrandReady s st t k) (hc : exec c s = s.vint st f a g)
    (hr : ∀ i, g (esBits a.es) (t.elem a a.vs1 i) (t.elem a a.vs2 i) = r i) :
    t.regs3 a = true → ∃ u, exec c s = .next u ∧ Retired s u st (t.putActive a (t.actives a) r).advance :=
  exec_elements_retire (fun x i => g (esBits a.es) (x.elem a a.vs1 i) (x.elem a a.vs2 i)) h hc (fun _ => rfl)
    (fun _ => rfl) hr

theorem toSigned_of_lt {b n : Nat} (h : n < 2 ^ b) :
    toSigned b n = if n < 2 ^ (b - 1) then (n : Int) else (n : Int) - (2 ^ b : Nat) := by
  rw [toSigned, Nat.mod_eq_of_lt h]

/-- An element read as two's complement. -/
theorem StrandSt.sElem_elem (t : StrandSt) (a : VArgs) (base : Fin 32) (i : Nat) :
    sElem (esBits a.es) (t.elem a base i) =
      if t.elem a base i < 2 ^ (8 * 2 ^ a.es.val - 1) then (t.elem a base i : Int)
      else (t.elem a base i : Int) - (2 ^ (8 * 2 ^ a.es.val) : Nat) :=
  toSigned_of_lt (t.elem_lt ..)

/-- Settles O20, row by row of Table 09.4. -/
theorem vectorIntegers : Obligations.VectorIntegers := by
  intro s st t k a h b x y sx three
  have hx (i : Nat) : sElem (esBits a.es) (t.elem a a.vs1 i) = sx (x i) := t.sElem_elem a a.vs1 i
  have hy (i : Nat) : sElem (esBits a.es) (t.elem a a.vs2 i) = sx (y i) := t.sElem_elem a a.vs2 i
  simp only [List.forall_mem_cons]
  exact ⟨exec_vint_retires h (exec_vadd ..) fun _ => rfl,
    exec_vint_retires h (exec_vsub ..) fun _ => rfl,
    exec_vint_retires h (exec_vand ..) fun _ => rfl,
    exec_vint_retires h (exec_vor ..) fun _ => rfl,
    exec_vint_retires h (exec_vxor ..) fun _ => rfl,
    exec_vint_retires h (exec_vsll ..) fun _ => rfl,
    exec_vint_retires h (exec_vsrl ..) fun _ => rfl,
    exec_vint_retires h (exec_vsra ..) fun i => by rw [hx, ofSigned]; push_cast; rfl,
    exec_vint_retires h (exec_vmul ..) fun _ => rfl,
    exec_vint_retires h (exec_vmin ..) fun i => by rw [hx, hy],
    exec_vint_retires h (exec_vmax ..) fun i => by rw [hx, hy],
    exec_vint_retires h (exec_vminu ..) fun _ => rfl,
    exec_vint_retires h (exec_vmaxu ..) fun _ => rfl,
    exec_elements_retire (fun t i => (hashStep (BitVec.ofNat 64 (t.elem a a.vs1 i))
      (BitVec.ofNat 64 (t.elem a a.vs2 i))).toNat) h (exec_vhstep ..) (fun _ => rfl) (fun _ => rfl) fun _ => rfl,
    exec_elements_retire (fun t i => (hashFin (BitVec.ofNat 64 (t.elem a a.vs1 i))).toNat) h (exec_vhfin ..)
      (fun _ => rfl) (fun _ => rfl) fun _ => rfl,
    exec_elements_retire (fun t _ => (t.rg a.vs1).toNat) h (exec_vbcast ..) (fun _ => rfl) (fun _ => rfl) fun _ => rfl,
    exec_elements_retire (fun t i => t.elem a a.vs1 i) h (exec_vmv ..) (fun _ => rfl) (fun _ => rfl) fun _ => rfl,
    List.forall_mem_nil _⟩

/-! ## Control and reductions (Table 09.6, R280, R281) -/

section
variable {s : State} {st : StrandRef} {t : StrandSt} {k : StrandTask} {a : VArgs} {c : Instr} {f : Nat} {ok b : Bool}

/-- A function of the control group. -/
theorem exec_vctl_retires {y : StrandSt} {g : StrandSt → StrandSt} (h : StrandReady s st t k)
    (hc : exec c s = s.vctl st f a ok g) (hg : ∀ x, (g x).plain = (g x.plain).plain) (hi : ∀ x, (g x).instret = x.instret)
    (hb : (ok && !a.long) = b) (hy : g t = y) :
    b = true → ∃ u, exec c s = .next u ∧ Retired s u st y.advance :=
  exec_vector_retires h hc (fun _ => rfl) hg hi hb hy

/-- One that writes a predicate. -/
theorem exec_vctl_pred {x : Pred} {g : StrandSt → Pred} (h : StrandReady s st t k)
    (hc : exec c s = s.vctl st f a ok (fun t => t.wp (pIdx a.vd) (g t))) (hg : ∀ x, g x = g x.plain)
    (hb : (ok && !a.long) = b) (hx : g t = x) :
    b = true → ∃ u, exec c s = .next u ∧ Retired s u st (t.wp (pIdx a.vd) x).advance :=
  exec_vctl_retires h hc (fun x => by rw [StrandSt.wp_plain, StrandSt.wp_plain, ← hg]; rfl)
    (fun _ => StrandSt.wp_instret ..) hb (congrArg _ hx)

/-- One that writes a general register. -/
theorem exec_vctl_general {x : Word} {g : StrandSt → Word} (h : StrandReady s st t k)
    (hc : exec c s = s.vctl st f a ok (fun t => t.wg a.vd (g t))) (hg : ∀ x, g x = g x.plain)
    (hb : (ok && !a.long) = b) (hx : g t = x) :
    b = true → ∃ u, exec c s = .next u ∧ Retired s u st (t.wg a.vd x).advance :=
  exec_vctl_retires h hc (fun x => by rw [StrandSt.wg_plain, StrandSt.wg_plain, ← hg]; rfl)
    (fun _ => StrandSt.wg_instret ..) hb (congrArg _ hx)

/-- A vector instruction that writes a general register. -/
theorem exec_general_retires {op : Nat} {ok : StrandSt → Bool} {w : Word} (g : StrandSt → Word) (h : StrandReady s st t k)
    (hc : exec c s = s.vrun st op f a ok (fun t _ s => .ok (t.wg a.vd (g t)).advance s))
    (hok : ∀ x, ok x = ok x.plain) (hg : ∀ x, g x = g x.plain) (hw : g t = w) :
    ok t = true → ∃ u, exec c s = .next u ∧ Retired s u st (t.wg a.vd w).advance :=
  exec_vector_retires h hc hok (fun x => by rw [StrandSt.wg_plain, StrandSt.wg_plain, ← hg]; rfl)
    (fun x => StrandSt.wg_instret ..) rfl (by rw [hw])

/-- A reduction of the active elements. -/
theorem exec_vred_retires {g : List Int → Word} {w : Word} (h : StrandReady s st t k) (hc : exec c s = s.vred st f a g)
    (hw : g ((t.actives a).map (fun i => toSigned (esBits a.es) (t.elem a a.vs1 i))) = w) :
    (t.regOk a a.vs1 && a.vs2 == 0 && !a.z) = true →
      ∃ u, exec c s = .next u ∧ Retired s u st (t.wg a.vd w).advance :=
  exec_general_retires (fun x => g ((x.actives a).map (fun i => toSigned (esBits a.es) (x.elem a a.vs1 i)))) h hc
    (fun _ => rfl) (fun _ => rfl) hw

end

/-- Settles O23, row by row of Table 09.6. -/
theorem vectorControl : Obligations.VectorControl := by
  intro s st t k a h g vl pd p1 p2 one pp xs red
  have hp (x : Fin 32) : isPred x = decide (x.val < 8) := rfl
  simp only [List.forall_mem_cons]
  exact ⟨exec_vctl_retires h (exec_vsetvl ..) (fun x => by rw [StrandSt.wg_plain, StrandSt.wg_plain]; rfl)
      (fun x => StrandSt.wg_instret ..) (by grind) rfl,
    exec_vctl_pred h (exec_pand ..) (fun _ => rfl) (by grind) rfl,
    exec_vctl_pred h (exec_por ..) (fun _ => rfl) (by grind) rfl,
    exec_vctl_pred h (exec_pandn ..) (fun _ => rfl) (by grind) rfl,
    exec_vctl_pred h (exec_pnot ..) (fun _ => rfl) (by grind) rfl,
    exec_vctl_pred h (exec_ffmask ..) (fun _ => rfl) (by grind) rfl,
    exec_vctl_pred h (exec_ptrue ..) (fun _ => rfl) (by grind) rfl,
    exec_vctl_retires h (exec_fffill ..) (fun _ => rfl) (fun _ => rfl) (by grind) rfl,
    exec_vctl_retires h (exec_ffput ..) (fun _ => rfl) (fun _ => rfl) (by grind) rfl,
    exec_vctl_general h (exec_pcnt ..) (fun _ => rfl) (by grind) rfl,
    exec_vctl_general h (exec_ffcnt ..) (fun _ => rfl) (by grind) rfl,
    exec_vred_retires h (exec_vredadd ..) (by rw [← List.sum_eq_foldl]; rfl),
    exec_vred_retires h (exec_vredmin ..) rfl,
    exec_vred_retires h (exec_vredmax ..) rfl,
    exec_general_retires (fun t => if (t.rg a.vs2).toNat < t.vcount a then
      sextN (esBits a.es) (t.elem a a.vs1 (t.rg a.vs2).toNat) else 0#64) h (exec_vext ..) (fun _ => rfl) (fun _ => rfl) rfl,
    exec_vector_retires h (exec_vcompress ..) (fun _ => rfl)
      (fun x => by rw [StrandSt.putElems_plain, StrandSt.putElems_plain]; rfl)
      (fun x => StrandSt.putElems_instret ..) rfl rfl,
    List.forall_mem_nil _⟩

end Sys2Proof.Machine
end

section
/-! SUPPORT. Settling O22: vector floating point, its flags and traps, and vector comparisons. -/
namespace Sys2Proof.Machine
open Sys2Proof

/-! ## Vector floating point (R287, R289) -/

/-- What a vector instruction that raises `y.2` and would leave `y.1` does: it retires where no flag is enabled to trap,
and otherwise raises FP. -/
def VectorFloatRow (s : State) (st : StrandRef) (t : StrandSt) (c : Instr) (y : StrandSt × Nat) : Prop :=
  (t.trapEn &&& y.2 = 0 → ∃ u, exec c s = .next u ∧ Retired s u st (y.1.addFlags y.2).advance) ∧
  (t.trapEn &&& y.2 ≠ 0 → t.handles = true → ∃ u, exec c s = .next u ∧
    TrapTaken s u st t 9 (BitVec.ofNat 64 (y.2 % 32 * 4)))

section
variable {s : State} {st : StrandRef} {t : StrandSt} {k : StrandTask} {a : VArgs} {c : Instr} {op f : Nat}
  {ok : StrandSt → Bool}

/-- A vector instruction of legal fields whose result and flags are those of `v`. -/
theorem exec_vectorFloat {y : StrandSt × Nat} (v : StrandSt → StrandSt × Nat) (h : StrandReady s st t k)
    (hc : exec c s = s.vrun st op f a ok (fun t _ s => fpEnd (v t).1 (v t).2 s)) (hok : ∀ x, ok x = ok x.plain)
    (hp : ∀ x, (v x).1.plain = (v x.plain).1.plain) (hf : ∀ x, (v x).2 = (v x.plain).2)
    (hi : ∀ x, (v x).1.instret = x.instret) (he : ∀ x, (v x).1.trapEn = x.trapEn) (hy : v t = y) :
    ok t = true → VectorFloatRow s st t c y := by
  intro hl
  subst hy
  have hrun (tf : StrandSt) (sf : State) (h1 : tf.plain = t.plain) :
      (if ok tf then fpEnd (v tf).1 (v tf).2 sf else .trap 2 (BitVec.ofNat 64 (Decode.wordV op f a))) =
        fpEnd (v tf).1 (v t).2 sf := by
    rw [hok tf, h1, ← hok t, if_pos hl, hf tf, h1, ← hf t]
  rw [VectorFloatRow, hc]
  refine ⟨fun hz => State.fpEnd_retires (t1 := (v t).1) h _ (fun tf sf h1 h2 => ⟨_, hrun tf sf h1, ?_, ?_⟩)
      (by rw [he, hz]),
    fun hz hh => State.fpEnd_traps (t1 := t) h hh _ (fun tf sf h1 => ⟨_, hrun tf sf h1, ?_⟩) hz⟩
  · rw [hp tf, h1, ← hp t]
  · rw [hi, hi, h2]
  · rw [he]
    exact StrandSt.of_plain StrandSt.trapEn (fun _ => rfl) h1

theorem StrandSt.putActive_trapEn (t : StrandSt) (a : VArgs) (act : List Nat) (g : Nat → Nat) :
    (t.putActive a act g).trapEn = t.trapEn := by
  have hrest : { t.putActive a act g with v := t.v } = t := putFold_rest ..
  exact (congrArg StrandSt.trapEn hrest :)

/-- One with a vector destination: `g t i` at the active elements, and the flags of all of them. -/
theorem exec_vfp {y : StrandSt × Nat} {g : StrandSt → Nat → Nat × Nat} (h : StrandReady s st t k)
    (hc : exec c s = s.vfp st f a ok g) (hok : ∀ x, ok x = ok x.plain) (hg : ∀ x, g x = g x.plain)
    (hy : (t.putActive a (t.actives a) (fun i => (g t i).1), actFlags (t.actives a) (g t)) = y) :
    ok t = true → VectorFloatRow s st t c y :=
  exec_vectorFloat (fun x => (x.putActive a (x.actives a) (fun i => (g x i).1), actFlags (x.actives a) (g x))) h hc hok
    (fun x => by rw [StrandSt.putActive_plain, StrandSt.putActive_plain, hg x]; rfl)
    (fun x => by rw [hg x]; rfl) (fun x => StrandSt.putActive_instret ..) (fun x => StrandSt.putActive_trapEn ..) hy

end

/-- The ordered sum of the active elements, each step rounded, with the flags of all its steps (Table 09.6). -/
def StrandSt.orderedSum (t : StrandSt) (a : VArgs) : Nat × Nat :=
  (t.actives a).foldl (fun (acc : Nat × Nat) i =>
    ((fpAdd (vfmt a) t.rm acc.1 (t.elem a a.vs1 i)).1, acc.2 ||| (fpAdd (vfmt a) t.rm acc.1 (t.elem a a.vs1 i)).2))
    (t.rf (a.es == 2) a.vd, 0)

theorem StrandSt.orderedSum_plain (t : StrandSt) (a : VArgs) : t.plain.orderedSum a = t.orderedSum a := rfl

theorem exec_vfredadd_row {s : State} {st : StrandRef} {t : StrandSt} {k : StrandTask} (a : VArgs)
    (h : StrandReady s st t k) : (t.regOk a a.vs1 && a.vs2 == 0 && !a.z && fpSize a) = true →
      VectorFloatRow s st t (.vfredadd st a) (t.wf (a.es == 2) a.vd (t.orderedSum a).1, (t.orderedSum a).2) :=
  exec_vectorFloat (fun x => (x.wf (a.es == 2) a.vd (x.orderedSum a).1, (x.orderedSum a).2)) h (exec_vfredadd ..)
    (fun _ => rfl) (fun _ => rfl) (fun _ => rfl) (fun _ => rfl) (fun _ => rfl) rfl

/-! ## Vector comparisons (R282, Table 09.4) -/

/-- The number whose bits below `n` are those of a function. -/
theorem foldl_bits (n : Nat) (f : Nat → Bool) :
    (List.range n).foldl (fun acc i => if f i then acc + 2 ^ i else acc) 0 < 2 ^ n ∧
    ∀ i, ((List.range n).foldl (fun acc i => if f i then acc + 2 ^ i else acc) 0).testBit i =
      (decide (i < n) && f i) := by
  induction n with
  | zero => simp
  | succ n ih =>
    rw [List.range_succ, List.foldl_append, List.foldl_cons, List.foldl_nil]
    obtain ⟨hlt, hbit⟩ := ih
    generalize (List.range n).foldl (fun acc i => if f i then acc + 2 ^ i else acc) 0 = x at hlt hbit
    have hx : (if f n then x + 2 ^ n else x) = 2 ^ n * (f n).toNat + x := by
      cases f n <;> simp [Nat.add_comm]
    rw [hx]
    refine ⟨?_, fun i => ?_⟩
    · have : (f n).toNat ≤ 1 := Bool.toNat_le _
      calc 2 ^ n * (f n).toNat + x < 2 ^ n * 1 + 2 ^ n := Nat.add_lt_add_of_le_of_lt (Nat.mul_le_mul_left _ this) hlt
        _ = 2 ^ (n + 1) := by ring
    · rw [Nat.testBit_two_pow_mul_add _ hlt, hbit]
      rcases Nat.lt_trichotomy i n with hi | rfl | hi
      · simp [hi, Nat.lt_succ_of_lt hi]
      · cases f i <;> simp
      · obtain ⟨d, rfl⟩ := Nat.exists_eq_add_of_lt hi
        have hsub : n + d + 1 - n = d + 1 := by omega
        cases f n <;> simp [hsub, Nat.testBit_succ, Nat.not_lt_of_gt hi]

theorem predOf_getLsbD (n : Nat) (f : Nat → Bool) (i : Nat) :
    (predOf n f).getLsbD i = (decide (i < 256) && (decide (i < n) && f i)) := by
  rw [predOf, BitVec.getLsbD_ofNat, (foldl_bits n f).2]

theorem foldl_flag (l : List Nat) (p : Nat → Bool) (c acc : Nat) :
    l.foldl (fun acc i => acc ||| (if p i then c else 0)) acc = acc ||| (if l.any p then c else 0) := by
  induction l generalizing acc with
  | nil => simp
  | cons i l ih =>
    rw [List.foldl_cons, ih, List.any_cons, Nat.or_assoc]
    cases p i <;> cases l.any p <;> simp

theorem fpCompare_eq (f : Fmt) (op : Int → Int → Bool) (a b : Nat) :
    fpCompare f op a b = (!(fpIsNan f a || fpIsNan f b) && op (fpRank f a) (fpRank f b),
      if fpIsNan f a || fpIsNan f b then 16 else 0) := by
  unfold fpCompare
  cases fpIsNan f a || fpIsNan f b
  · simp
  · rfl

theorem StrandSt.wp_trapEn (t : StrandSt) (i : Fin 8) (x : Pred) : (t.wp i x).trapEn = t.trapEn := by
  unfold StrandSt.wp
  split <;> rfl

section
variable {s : State} {st : StrandRef} {t : StrandSt} {k : StrandTask} {a : VArgs} {c : Instr} {f : Nat}

/-- A comparison of legal fields, none of whose flags is enabled to trap. -/
theorem exec_vcmp {fp : Bool} {g : Nat → Nat → Nat → Bool × Nat} {r p : Nat → Bool} {fl : Nat} (h : StrandReady s st t k)
    (hc : exec c s = s.vcmp st f a fp g)
    (hok : (decide (a.vd.val < 8) && t.regOk a a.vs1 && t.regOk a a.vs2 && (!fp || fpSize a)) = true)
    (hr : ∀ i, g (esBits a.es) (t.elem a a.vs1 i) (t.elem a a.vs2 i) = (r i, if p i then 16 else 0))
    (hfl : (if (t.actives a).any p then 16 else 0) = fl) (hz : t.trapEn &&& fl = 0) :
    ∃ u w, exec c s = .next u ∧ Retired s u st ((t.wp (pIdx a.vd) w).addFlags fl).advance ∧
      ∀ i, i < 256 → w.getLsbD i = ((t.actives a).contains i && r i) := by
  have hrow := exec_vectorFloat (fun x => (x.wp (pIdx a.vd) (predOf 256 (fun i => (x.actives a).contains i &&
      (g (esBits a.es) (x.elem a a.vs1 i) (x.elem a a.vs2 i)).1)),
      (x.actives a).foldl (fun acc i => acc ||| (g (esBits a.es) (x.elem a a.vs1 i) (x.elem a a.vs2 i)).2) 0)) h hc
    (fun _ => rfl) (fun x => by rw [StrandSt.wp_plain, StrandSt.wp_plain]; rfl) (fun _ => rfl)
    (fun _ => StrandSt.wp_instret ..) (fun _ => StrandSt.wp_trapEn ..) rfl hok
  simp only [hr, foldl_flag, Nat.zero_or, hfl] at hrow
  obtain ⟨u, hu, hret⟩ := hrow.1 hz
  refine ⟨u, _, hu, hret, fun i hi => ?_⟩
  rw [predOf_getLsbD, decide_eq_true hi, Bool.true_and, Bool.true_and]

/-- A comparison of integers raises no flag. -/
theorem exec_vcmp_int {g : Nat → Nat → Nat → Bool} (h : StrandReady s st t k)
    (hc : exec c s = s.vcmp st f a false (fun b x y => (g b x y, 0))) (hd : a.vd.val < 8) (h1 : t.regOk a a.vs1 = true)
    (h2 : t.regOk a a.vs2 = true) (hz : t.trapEn &&& 0 = 0) :
    ∃ u w, exec c s = .next u ∧ Retired s u st ((t.wp (pIdx a.vd) w).addFlags 0).advance ∧
      ∀ i, i < 256 → w.getLsbD i =
        ((t.actives a).contains i && g (esBits a.es) (t.elem a a.vs1 i) (t.elem a a.vs2 i)) :=
  exec_vcmp (p := fun _ => false) h hc (by simp [hd, h1, h2]) (fun _ => rfl) (by simp) hz

/-- A comparison of floating-point elements: a NaN compares false and is invalid. -/
theorem exec_vcmp_float {op : Int → Int → Bool} {fl : Nat} (h : StrandReady s st t k)
    (hc : exec c s = s.vcmp st f a true (fun _ x y => fpCompare (vfmt a) op x y)) (hd : a.vd.val < 8)
    (h1 : t.regOk a a.vs1 = true) (h2 : t.regOk a a.vs2 = true) (hs : fpSize a = true)
    (hfl : (if (t.actives a).any (fun i => fpIsNan (vfmt a) (t.elem a a.vs1 i) || fpIsNan (vfmt a) (t.elem a a.vs2 i))
      then 16 else 0) = fl) (hz : t.trapEn &&& fl = 0) :
    ∃ u w, exec c s = .next u ∧ Retired s u st ((t.wp (pIdx a.vd) w).addFlags fl).advance ∧
      ∀ i, i < 256 → w.getLsbD i = ((t.actives a).contains i &&
        (!(fpIsNan (vfmt a) (t.elem a a.vs1 i) || fpIsNan (vfmt a) (t.elem a a.vs2 i)) &&
          op (fpRank (vfmt a) (t.elem a a.vs1 i)) (fpRank (vfmt a) (t.elem a a.vs2 i)))) :=
  exec_vcmp h hc (by simp [hd, h1, h2, hs]) (fun _ => fpCompare_eq ..) hfl hz

end

/-- Settles O22, row by row of Table 09.4, and VFREDADD. -/
theorem vectorFloatsAndCompares : Obligations.VectorFloatsAndCompares := by
  refine ⟨?floats, ?compares⟩
  case floats =>
    intro s st t k a h f x y three put sum
    simp only [List.forall_mem_cons]
    exact ⟨exec_vfp h (exec_vfadd ..) (fun _ => rfl) (fun _ => rfl) rfl,
      exec_vfp h (exec_vfsub ..) (fun _ => rfl) (fun _ => rfl) rfl,
      exec_vfp h (exec_vfmul ..) (fun _ => rfl) (fun _ => rfl) rfl,
      exec_vfp h (exec_vfdiv ..) (fun _ => rfl) (fun _ => rfl) rfl,
      exec_vfp h (exec_vfmadd ..) (fun _ => rfl) (fun _ => rfl) rfl,
      exec_vfp h (exec_vfmin ..) (fun _ => rfl) (fun _ => rfl) rfl,
      exec_vfp h (exec_vfmax ..) (fun _ => rfl) (fun _ => rfl) rfl,
      exec_vfp h (exec_vfsqrt ..) (fun _ => rfl) (fun _ => rfl) rfl,
      exec_vfp h (exec_vfcvtl ..) (fun _ => rfl) (fun _ => rfl) rfl,
      exec_vfp h (exec_vfcvtf ..) (fun _ => rfl) (fun _ => rfl) rfl,
      exec_vfredadd_row a h, List.forall_mem_nil _⟩
  case compares =>
    intro s st t k a h hd h1 h2 b f x y fpEs nan
    simp only [List.forall_mem_cons]
    exact ⟨fun _ => exec_vcmp_int h (exec_vcmpEq ..) hd h1 h2,
      fun _ => exec_vcmp_int h (exec_vcmpNe ..) hd h1 h2,
      fun _ => exec_vcmp_int h (exec_vcmpLt ..) hd h1 h2,
      fun _ => exec_vcmp_int h (exec_vcmpLe ..) hd h1 h2,
      fun _ => exec_vcmp_int h (exec_vcmpLtu ..) hd h1 h2,
      fun _ => exec_vcmp_int h (exec_vcmpLeu ..) hd h1 h2,
      fun hs => exec_vcmp_float h (exec_vcmpFeq ..) hd h1 h2 hs rfl,
      fun hs => exec_vcmp_float h (exec_vcmpFlt ..) hd h1 h2 hs rfl,
      fun hs => exec_vcmp_float h (exec_vcmpFle ..) hd h1 h2 hs rfl, List.forall_mem_nil _⟩

end Sys2Proof.Machine
end

section
/-! SUPPORT. Settling O24: vector loads and gathers, and their first-fault forms. -/
namespace Sys2Proof.Machine
open Sys2Proof

/-! ## The loads of some elements (R285, R288) -/

/-- Loads of elements that all answer leave every strand and every object's bytes as they were. -/
theorem State.loadElems_ok {s v : State} {st : StrandRef} {k : StrandTask} {n : Nat} {addr : Nat → Word} {l : List Nat}
    {acc vals : List (Nat × Nat)} {m0 m : Nat} (h : s.loadElems st k n addr l acc m0 = .ok vals v m) :
    v.strands = s.strands ∧ SameBytes s v := by
  induction l generalizing s acc m0 with
  | nil =>
    cases h
    exact ⟨rfl, .refl _⟩
  | cons i l ih =>
    unfold State.loadElems at h
    split at h
    case h_1 hload =>
      obtain ⟨hstrands, hbytes⟩ := State.strandLoad_ok hload
      obtain ⟨hstrands', hbytes'⟩ := ih h
      exact ⟨hstrands'.trans hstrands, hbytes.trans hbytes'⟩
    all_goals cases h

/-- The element that stands against them is one of those asked for, its trap reports its address, and the loads before it
leave every strand and every object's bytes as they were. -/
theorem State.loadElems_trap {s v : State} {st : StrandRef} {k : StrandTask} {n : Nat} {addr : Nat → Word} {l : List Nat}
    {acc vals : List (Nat × Nat)} {m0 m i c : Nat} {w : Word}
    (h : s.loadElems st k n addr l acc m0 = .trap i c w vals v m) :
    w = addr i ∧ i ∈ l ∧ v.strands = s.strands ∧ SameBytes s v := by
  induction l generalizing s acc m0 with
  | nil => cases h
  | cons j l ih =>
    unfold State.loadElems at h
    split at h
    case h_1 hload =>
      obtain ⟨hstrands, hbytes⟩ := State.strandLoad_ok hload
      obtain ⟨hw, hi, hstrands', hbytes'⟩ := ih h
      exact ⟨hw, List.mem_cons_of_mem _ hi, hstrands'.trans hstrands, hbytes.trans hbytes'⟩
    case h_2 hload =>
      cases h
      exact ⟨(State.strandLoad_trap hload).2, List.mem_cons_self .., rfl, .refl _⟩
    all_goals cases h

theorem State.dtlbElems_plain (s : State) (k : StrandTask) (t : StrandSt) (n : Nat) (addr : Nat → Word) (l : List Nat) :
    (s.dtlbElems k t n addr l).1.plain = t.plain ∧ (s.dtlbElems k t n addr l).1.instret = t.instret :=
  foldl_fst_keeps (P := fun u => u.plain = t.plain ∧ u.instret = t.instret) _ _ _
    (fun _ _ hx => ⟨(State.dtlbUse_plain ..).1.trans hx.1, (State.dtlbUse_plain ..).2.trans hx.2⟩) ⟨rfl, rfl⟩

/-! ## An instruction that loads, or traps (R263, R264) -/

section
variable {s : State} {st : StrandRef} {t : StrandSt} {k : StrandTask}

/-- An instruction that traps leaves what the trap leaves after the fetch of its word. -/
theorem State.strandRun_trapAfter {c : Nat} {w : Word} (h : StrandReady s st t k) (f : StrandSt → StrandTask → State → SEff)
    (hf : ∀ tf, tf.plain = t.plain → f tf k (s.fetched st t k) = .trap c w) :
    s.strandRun st f = .next ((s.fetched st t k).trapAfter st k.key c w) := by
  obtain ⟨tf, h1, -, -, ht, -, hrun⟩ := State.strandRun_ready h f
  rw [hrun, hf tf h1, State.trapAfter, ht]

/-- What loads may change beside the fetch. -/
def loadParts : List Field := [.objs, .flash, .content, .depot, .strands, .cache, .coh, .link, .dram, .err, .mgmt, .out]

/-- An instruction whose loads left the state `v`, and that then looks up the pages of some elements, retires. -/
theorem State.strandRun_loads {v : State} {t1 : StrandSt} (n : Nat) (addr : Nat → Word) (l : List Nat)
    (g : StrandSt → StrandSt) (h : StrandReady s st t k) (f : StrandSt → StrandTask → State → SEff)
    (hf : ∀ tf, tf.plain = t.plain → f tf k (s.fetched st t k) =
      .ok (g (v.dtlbElems k tf n addr l).1).advance (v.dtlbElems k tf n addr l).2)
    (hg : ∀ x, x.plain = t.plain → (g x).plain = t1.plain) (hi : ∀ x, (g x).instret = x.instret)
    (hi1 : t1.instret = t.instret) (hstrands : v.strands = (s.fetched st t k).strands)
    (hbytes : SameBytes (s.fetched st t k) v) (hw : Moves loadParts (s.fetched st t k) v) :
    ∃ u, s.strandRun st f = .next u ∧ RetiredMem s u st t1.advance := by
  have hfetch := h.fetched_moves
  obtain ⟨u, hu, hst, hobj, hmoves⟩ := State.strandRun_retires (l := .freeCount :: .content :: strandParts)
    (l' := .content :: strandParts) (t1 := t1.advance) (om := v.depot.objects) h f (fun tf h1 h2 h3 => by
      obtain ⟨hplain, hinst⟩ := v.dtlbElems_plain k tf n addr l
      have hm : Moves [.freeCount] v (v.dtlbElems k tf n addr l).2 := State.dtlbElems_writes ..
      exact ⟨_, _, hf tf h1, StrandSt.advance_of_plain (hg _ (hplain.trans h1)),
        (hi _).trans (hinst.trans (h2.trans hi1.symm)), .of_eq ((hm.strands_eq rfl).trans hstrands), hm.objects_eq rfl,
        (h3.mono (Within.mk rfl)).trans ((hw.mono (Within.mk rfl)).trans (hm.mono (Within.mk rfl)))⟩)
    (Within.mk rfl)
  exact ⟨u, hu, hst, (SameBytes.of_objects (hfetch.objects_eq rfl)).trans (hbytes.trans (.of_objects hobj)), hmoves.frame⟩

end

/-! ## What a vector load leaves (R282, R287, R291, R292) -/

/-- A strand whose vector load has filled its destination and, in a first-fault form, the first-fault register. -/
def StrandSt.loaded (t : StrandSt) (a : VArgs) (act : List Nat) (ffr : Option Pred) (vals : List (Nat × Nat)) : StrandSt :=
  match ffr with
  | some x => { t.putActive a act (lookupVal vals) with ffr := x }
  | none => t.putActive a act (lookupVal vals)

theorem StrandSt.loaded_plain (t : StrandSt) (a : VArgs) (act : List Nat) (ffr : Option Pred) (vals : List (Nat × Nat)) :
    (t.loaded a act ffr vals).plain = t.plain.loaded a act ffr vals := by
  have hput := t.putActive_plain a act (lookupVal vals)
  cases ffr
  case none => exact hput
  case some x => exact congrArg (fun u : StrandSt => { u with ffr := x }) hput

theorem StrandSt.loaded_instret (t : StrandSt) (a : VArgs) (act : List Nat) (ffr : Option Pred) (vals : List (Nat × Nat)) :
    (t.loaded a act ffr vals).instret = t.instret := by
  cases ffr <;> exact StrandSt.putActive_instret ..

section
variable {s : State} {st : StrandRef} {t : StrandSt} {k : StrandTask} {a : VArgs} {op f : Nat} {ok : StrandSt → Bool}
  {ff : Bool} {addr : StrandSt → Nat → Word}

/-- A vector load whose loads left the state `v`: the elements `act` are filled and its L1D misses counted. -/
theorem State.vload_retires {v : State} {act : List Nat} {ffr : Option Pred} {vals : List (Nat × Nat)} {m : Nat}
    (h : StrandReady s st t k) (body : StrandSt → StrandTask → State → SEff)
    (hb : ∀ tf, tf.plain = t.plain → body tf k (s.fetched st t k) =
      .ok (((v.dtlbElems k tf (esBytes a.es) (addr t) act).1.loaded a act ffr vals).event 1 m).advance
        (v.dtlbElems k tf (esBytes a.es) (addr t) act).2)
    (hstrands : v.strands = (s.fetched st t k).strands) (hbytes : SameBytes (s.fetched st t k) v)
    (hw : Moves loadParts (s.fetched st t k) v) :
    ∃ u, s.strandRun st body = .next u ∧ RetiredMem s u st (t.loaded a act ffr vals).advance :=
  State.strandRun_loads (esBytes a.es) (addr t) act (fun x => (x.loaded a act ffr vals).event 1 m) h body hb
    (fun x h1 => by rw [StrandSt.event_plain, StrandSt.loaded_plain, h1, ← StrandSt.loaded_plain])
    (fun x => StrandSt.loaded_instret ..) (StrandSt.loaded_instret ..) hstrands hbytes hw

/-- The fetch of a vector load's word changes neither whether its fields are legal nor the elements it asks for. -/
theorem vload_inputs (hok : ∀ x, ok x = ok x.plain) (ha : ∀ x, addr x = addr x.plain) (hl : ok t = true) {tf : StrandSt}
    (h1 : tf.plain = t.plain) : ok tf = true ∧ tf.actives a = t.actives a ∧ addr tf = addr t :=
  ⟨by rw [hok, h1, ← hok, hl], StrandSt.of_plain (fun x => x.actives a) (fun _ => rfl) h1, by rw [ha, h1, ← ha]⟩

/-- What a vector load of legal fields leaves, where every active element can be loaded and where one cannot. -/
def VectorLoadRow (s : State) (st : StrandRef) (t : StrandSt) (k : StrandTask) (a : VArgs) (c : Instr) (ff : Bool)
    (addr : Nat → Word) : Prop :=
  (∀ vals v m, (s.fetched st t k).loadElems st k (esBytes a.es) addr (t.actives a) [] 0 = .ok vals v m →
    ∃ u, exec c s = .next u ∧ RetiredMem s u st
      (if ff then { t.putActive a (t.actives a) (lookupVal vals) with ffr := BitVec.allOnes 256 }
        else t.putActive a (t.actives a) (lookupVal vals)).advance) ∧
  (∀ i cause w vals v m,
    (s.fetched st t k).loadElems st k (esBytes a.es) addr (t.actives a) [] 0 = .trap i cause w vals v m →
    w = addr i ∧ i ∈ t.actives a ∧
    ((ff = false ∨ (t.actives a).head? = some i) → exec c s = .next ((s.fetched st t k).trapAfter st k.key cause w)) ∧
    (ff = true → (t.actives a).head? ≠ some i → ∃ u, exec c s = .next u ∧ RetiredMem s u st
      ({ t.putActive a ((t.actives a).filter (fun j => decide (j < i))) (lookupVal vals) with
        ffr := predOf i (fun _ => true) }).advance))

theorem exec_vload {c : Instr} {x : Nat → Word} (h : StrandReady s st t k)
    (hc : exec c s = s.vload st op f a ok ff addr) (hok : ∀ x, ok x = ok x.plain) (ha : ∀ x, addr x = addr x.plain)
    (hx : addr t = x) : ok t = true → VectorLoadRow s st t k a c ff x := by
  intro hl
  subst hx
  rw [VectorLoadRow, hc]
  refine ⟨fun vals v m hload => ?loaded, fun i cause w vals v m hload => ?faulted⟩
  case loaded =>
    obtain ⟨hstrands, hbytes⟩ := State.loadElems_ok hload
    have hffr : t.loaded a (t.actives a) (if ff then some (BitVec.allOnes 256) else none) vals =
        if ff then { t.putActive a (t.actives a) (lookupVal vals) with ffr := BitVec.allOnes 256 }
        else t.putActive a (t.actives a) (lookupVal vals) := by cases ff <;> rfl
    rw [← hffr]
    refine State.vload_retires (addr := addr) (m := m) h _ (fun tf h1 => ?_) hstrands hbytes
      ((State.loadElems_writes ..).okGet hload)
    obtain ⟨hlegal, hact, haddr⟩ := vload_inputs (a := a) hok ha hl h1
    simp only [hlegal, hact, haddr, hload, if_true]
    cases ff <;> rfl
  case faulted =>
    obtain ⟨hw, hi, hstrands, hbytes⟩ := State.loadElems_trap hload
    refine ⟨hw, hi, fun hfirst => ?first, fun hff hlater => ?later⟩
    case first =>
      have hcut : (ff && (t.actives a).head? != some i) = false := by
        rcases hfirst with e | e <;> simp [e]
      refine State.strandRun_trapAfter h _ fun tf h1 => ?_
      obtain ⟨hlegal, hact, haddr⟩ := vload_inputs (a := a) hok ha hl h1
      simp only [hlegal, hact, haddr, hload, hcut, if_true, Bool.false_eq_true, if_false]
    case later =>
      have hcut : (ff && (t.actives a).head? != some i) = true := by simpa [hff] using hlater
      refine State.vload_retires (addr := addr) (m := m) (act := (t.actives a).filter (fun j => decide (j < i)))
        (ffr := some (predOf i (fun _ => true))) h _ (fun tf h1 => ?_) hstrands hbytes
        ((State.loadElems_writes ..).trapGet hload)
      obtain ⟨hlegal, hact, haddr⟩ := vload_inputs (a := a) hok ha hl h1
      simp only [hlegal, hact, haddr, hload, hcut, if_true]
      rfl

end

/-- Settles O24, row by row of Table 09.5. -/
theorem vectorLoads : Obligations.VectorLoads := by
  intro s st t k a h n cont stride index whole apart act
  rw [List.forall_mem_cons, List.forall_mem_cons, List.forall_mem_cons, List.forall_mem_cons, List.forall_mem_cons]
  exact ⟨exec_vload h (exec_vld ..) (fun _ => rfl) (fun _ => rfl) rfl,
    exec_vload h (exec_vldff ..) (fun _ => rfl) (fun _ => rfl) rfl,
    exec_vload h (exec_vlds ..) (fun _ => rfl) (fun _ => rfl) rfl,
    exec_vload h (exec_vgather ..) (fun _ => rfl) (fun _ => rfl) rfl,
    exec_vload h (exec_vgatherff ..) (fun _ => rfl) (fun _ => rfl) rfl, List.forall_mem_nil _⟩

end Sys2Proof.Machine
end

section
/-! SUPPORT. Settling O49: a device that fences its path to itself answers its own agents no more (R25, R73; log 49). -/
namespace Sys2Proof.Machine
open Sys2Proof

/-! ## A fenced path carries nothing (R73) -/

theorem State.send_fenced (s : State) {m : Msg} {d : Nat} (hd : m.dest = some d)
    (hf : s.sys.fencedPaths.contains d = true) : s.send m = s := by
  have hmay : s.maySend m = false := by simp only [State.maySend, hd, hf, Bool.not_true, Bool.and_false]
  simp [State.send, hmay]

theorem State.ackWb_fenced (s : State) {m : CohMsg} (hf : s.sys.fencedPaths.contains (agentDev m.src) = true) :
    s.ackWb m = s := s.send_fenced rfl hf

/-- The home notes the eviction and says nothing. -/
theorem State.homeEvict_fenced (s : State) {m : CohMsg} (hf : s.sys.fencedPaths.contains (agentDev m.src) = true) :
    (s.homeEvict m).out = s.out := by
  unfold State.homeEvict
  rw [State.ackWb_fenced (s.setDir ..) hf, State.setDir_out]

theorem State.cohRow_effect (s : State) {m : CohMsg} (hfault : s.cohFault m = none)
    (hdst : agentDev m.dst = s.sys.deviceId) : s.cohRow m m.op = .next (s.cohEffect m) := by
  simp [State.cohRow, State.cohTake, hfault, hdst]

theorem State.cohEffect_evictClean (s : State) {m : CohMsg} (hop : m.op = opEvictClean) (hdead : s.coh.dead = [])
    (hlive : s.coh.fencedL2.contains (agentLoc m.src) = false) : s.cohEffect m = s.homeEvict m := by
  have hin : (s.coh.dead.contains (agentDev m.src)
      || (agentDev m.src == s.sys.deviceId && s.coh.fencedL2.contains (agentLoc m.src))) = false := by
    rw [hdead, hlive, Bool.and_false]
    rfl
  rw [State.cohEffect, hin, hop]
  rfl

/-! ## A device that takes the ID of a peer whose path it has fenced -/

/-- The state that a command leaves. -/
def State.next (s : State) (c : Instr) : State :=
  match exec c s with
  | .next t => t
  | _ => s

/-- A formation that a peer of another device count makes fail (R48). -/
def strangePeer : FormationReport :=
  { seesTickIn := false, peers := [{ State.reset.identity false with device := 1, count := 2 }] }

/-- A device that is ready to form. -/
def readyToForm : State := { State.reset with sys := { SysSt.reset with phase := .ready, rstN := true } }

/-- The device forms as device 0 of four, and its path to device 3 fails; when that formation fails too, it forms as device 3. A
new ID leaves the fences in force until formation ends, so it now fences the path to itself. -/
def renumbered : State :=
  [.form 4 0, .resourceFailure (.path 3), .formationComplete strangePeer, .form 4 3].foldl State.next readyToForm

/-- The L2 of its ridge 0 gives up the first line of its memory. -/
def ownEvict : CohMsg :=
  { op := opEvictClean, src := agentOf 3 0, dst := agentOf 3 0x20, txn := 0, line := 3 * 2 ^ 44 }

/-- The message is no fault, its sender is alive and here, and the path to here is fenced. -/
theorem renumbered_ownEvict : renumbered.cohFault ownEvict = none ∧ agentDev ownEvict.dst = renumbered.sys.deviceId ∧
    renumbered.coh.dead = [] ∧ agentDev ownEvict.src = renumbered.sys.deviceId ∧
    renumbered.coh.fencedL2.contains (agentLoc ownEvict.src) = false ∧
    renumbered.sys.fencedPaths.contains (agentDev ownEvict.src) = true := by decide +kernel

/-- Refutes O49: the eviction of an agent of the device itself is not acknowledged where the device has come, by a new device
ID, to fence the path to itself. -/
theorem not_coherenceAnswers : ¬ Obligations.CoherenceAnswers := by
  intro h
  obtain ⟨hfault, hdst, hdead, hsrc, hlive, hfence⟩ := renumbered_ownEvict
  obtain ⟨-, -, hevict, -⟩ := h renumbered ownEvict hfault hdst hdead hsrc hlive
  obtain ⟨t, n, hexec, -, hout, -⟩ := hevict rfl
  have hrun : exec (.evictClean ownEvict) renumbered = .next (renumbered.homeEvict ownEvict) := by
    rw [← State.cohEffect_evictClean _ rfl hdead hlive]
    exact renumbered.cohRow_effect hfault hdst
  obtain rfl : renumbered.homeEvict ownEvict = t := Host.Outcome.next.inj (hrun.symm.trans hexec)
  have hlen := congrArg List.length hout
  rw [State.homeEvict_fenced _ hfence, List.length_append] at hlen
  simp at hlen

end Sys2Proof.Machine
end

section
/-! SUPPORT. Settling O46: faulty coherence messages are counted, and the others that have no effect here pass on or are
refused (R338, R340, R354, R361). -/
namespace Sys2Proof.Machine
open Sys2Proof

/-! ## Records and violations (R360, R361, R446) -/

theorem State.viewRec_nextSeq (s : State) (t : Nat) (r : ErrRec) : (s.viewRec t r).err.nextSeq = s.err.nextSeq := by
  unfold State.viewRec
  split <;> rfl

/-- A record takes the next number. -/
theorem State.raise_nextSeq (s : State) (a : RecArgs) : (s.raise a).err.nextSeq = (s.err.nextSeq + 1) % 65536 := by
  unfold State.raise
  extract_lets r e s1 e1 s2 s3
  have hqueued : s2.err.nextSeq = s1.err.nextSeq := by
    dsimp only [s2]
    split
    · rfl
    · split <;> rfl
  have hviewed : s3.err.nextSeq = s2.err.nextSeq := by
    dsimp only [s3]
    split
    · exact State.viewRec_nextSeq ..
    · rfl
  rw [(State.sendEvent_writes ..).err_eq rfl, hviewed, hqueued]

/-- A message comes in by one of the four ports. -/
theorem State.arrivalPort_lt {s : State} {src q : Nat} (h : s.arrivalPort src = some q) : q < 4 := by
  obtain ⟨k, -, hk⟩ := Option.bind_eq_some_iff.mp h
  exact List.mem_range.mp (List.mem_of_mem_filter (List.mem_of_head? hk))

/-- The counter of a port's violations is a member of 64 bits. -/
theorem objRow_violations {q : Nat} (hq : q < 4) : ∃ r, objRow? (portObj q) 9 = some r ∧ r.ty = .u64 := by
  interval_cases q <;> exact ⟨_, rfl, rfl⟩

/-- A violation counts at its port and takes a record. -/
theorem State.violation_counts (s : State) {q : Nat} (hq : q < 4) (cause opcode seq src : Nat) :
    (s.violation q cause opcode seq src).onum (portObj q) 9 = min (2 ^ 64 - 1) (s.onum (portObj q) 9 + 1) ∧
    (s.violation q cause opcode seq src).err.nextSeq = (s.err.nextSeq + 1) % 65536 := by
  unfold State.violation
  extract_lets s1 s2
  have hsent := s2.sendPort_writes q (.nak s2.sys.deviceId cause opcode seq src)
  constructor
  · obtain ⟨r, hr, hty⟩ := objRow_violations hq
    have hkey : okey (portObj q) 9 ≠ okey 0x5200 3 := by
      unfold okey portObj pobj
      omega
    rw [State.onum_congr (hsent.objs_eq rfl), State.raise_onum_device _ _ rfl hkey, State.onum_oinc_same _ _ _ _ hr, hty]
    rfl
  · rw [hsent.err_eq rfl, State.raise_nextSeq]
    rfl

/-- A violation at a port leaves the members of other objects, but for the count of lost records. -/
theorem State.violation_onum_other (s : State) (q cause opcode seq src : Nat) {i m : Nat}
    (hport : okey i m ≠ okey (portObj q) 9) (hlost : okey i m ≠ okey 0x5200 3) :
    (s.violation q cause opcode seq src).onum i m = s.onum i m := by
  unfold State.violation
  extract_lets s1 s2
  rw [State.onum_congr ((s2.sendPort_writes ..).objs_eq rfl), State.raise_onum_device _ _ rfl hlost]
  exact s.onum_oinc_other 1 hport

/-! ## Faults (R338) -/

theorem State.dropCoh_counts (s : State) : s.dropCoh.onum 0x6100 10 = min (2 ^ 64 - 1) (s.onum 0x6100 10 + 1) :=
  State.onum_oinc_same s 0x6100 10 1 (r := _) rfl

/-- A fault of a message that came by no port is counted, and nothing more. -/
theorem State.badCoh_local {s : State} {m : CohMsg} (h : s.arrivalPort (agentDev m.src) = none) (c : Nat) :
    s.badCoh c m = s.dropCoh := by
  have h' : s.dropCoh.arrivalPort (agentDev m.src) = none := h
  rw [State.badCoh, State.violationFrom, h']

/-- A fault of a message that came by a port is counted and is a violation of the port. -/
theorem State.badCoh_port {s : State} {m : CohMsg} {q : Nat} (h : s.arrivalPort (agentDev m.src) = some q) (c : Nat) :
    s.badCoh c m = s.dropCoh.violation q c m.op (s.dropCoh.lastSeq q) (agentDev m.src) := by
  have h' : s.dropCoh.arrivalPort (agentDev m.src) = some q := h
  rw [State.badCoh, State.violationFrom, h']

theorem State.badCoh_counts (s : State) (c : Nat) (m : CohMsg) :
    (s.badCoh c m).onum 0x6100 10 = min (2 ^ 64 - 1) (s.onum 0x6100 10 + 1) := by
  rcases h : s.arrivalPort (agentDev m.src) with _ | q
  · rw [State.badCoh_local h, State.dropCoh_counts]
  · have hq := State.arrivalPort_lt h
    have hkey : okey 0x6100 10 ≠ okey (portObj q) 9 := by
      unfold okey portObj pobj
      omega
    rw [State.badCoh_port h, State.violation_onum_other _ _ _ _ _ _ hkey (by decide), State.dropCoh_counts]

theorem State.badCoh_violates {s : State} {m : CohMsg} {q : Nat} (h : s.arrivalPort (agentDev m.src) = some q) (c : Nat) :
    (s.badCoh c m).onum (portObj q) 9 = min (2 ^ 64 - 1) (s.onum (portObj q) 9 + 1) ∧
    (s.badCoh c m).err.nextSeq = (s.err.nextSeq + 1) % 65536 := by
  have hq := State.arrivalPort_lt h
  have hkey : okey (portObj q) 9 ≠ okey 0x6100 10 := by
    unfold okey portObj pobj
    omega
  obtain ⟨hcount, hseq⟩ := s.dropCoh.violation_counts hq c m.op (s.dropCoh.lastSeq q) (agentDev m.src)
  rw [State.badCoh_port h]
  refine ⟨?_, hseq⟩
  rw [hcount, State.dropCoh, State.onum_oinc_other _ _ hkey]

/-! ## The rows -/

/-- Another opcode than the row's is a fault, and so is what `cohFault` names. -/
theorem State.cohRow_fault {s : State} {m : CohMsg} {op : Nat} (h : m.op ≠ op ∨ (s.cohFault m).isSome = true) :
    ∃ c, s.cohRow m op = .next (s.badCoh c m) := by
  by_cases hop : m.op = op
  · obtain ⟨c, hc⟩ := Option.isSome_iff_exists.mp (h.resolve_left (not_not_intro hop))
    exact ⟨c, by rw [State.cohRow, if_pos hop, State.cohTake, hc]⟩
  · exact ⟨_, by rw [State.cohRow, if_neg hop]⟩

theorem State.cohRow_passes {s : State} {m : CohMsg} (hfault : s.cohFault m = none) (hdst : agentDev m.dst ≠ s.sys.deviceId) :
    s.cohRow m m.op = .next (s.send (.coh m)) := by
  rw [State.cohRow, if_pos rfl, State.cohTake, hfault]
  exact congrArg _ (if_neg hdst)

theorem State.cohEffect_refused {s : State} {m : CohMsg} (h : s.coh.dead.contains (agentDev m.src) = true ∨
    (agentDev m.src = s.sys.deviceId ∧ s.coh.fencedL2.contains (agentLoc m.src) = true)) : s.cohEffect m = s := by
  have hsrc : (s.coh.dead.contains (agentDev m.src)
      || (agentDev m.src == s.sys.deviceId && s.coh.fencedL2.contains (agentLoc m.src))) = true := by
    simpa only [Bool.or_eq_true, Bool.and_eq_true, beq_iff_eq] using h
  exact if_pos hsrc

/-- Settles O46: a row answers what `cohRow` does, and that counts a fault, passes a message on or refuses its sender. -/
theorem coherenceFaultsAndRouting : Obligations.CoherenceFaultsAndRouting := by
  intro s m p hp
  have hrow : exec p.1 s = s.cohRow m p.2 := by
    revert p
    iterate 30 refine List.forall_mem_cons.mpr ⟨rfl, ?_⟩
    exact List.forall_mem_nil _
  rw [hrow]
  refine ⟨fun hbad => ?fault, fun hop hfault => ?taken⟩
  case fault =>
    obtain ⟨c, hc⟩ := State.cohRow_fault hbad
    refine ⟨s.badCoh c m, hc, s.badCoh_counts c m, (s.badCoh_writes c m).frame, fun hnone => ?_, fun q hq => ?_⟩
    · rw [State.badCoh_local hnone]
      exact s.dropCoh_writes.frame
    · exact State.badCoh_violates hq c
  case taken =>
    rw [← hop]
    refine ⟨State.cohRow_passes hfault, fun hdst hsrc => ?_⟩
    rw [s.cohRow_effect hfault hdst, State.cohEffect_refused hsrc]

end Sys2Proof.Machine
end

section
/-! SUPPORT. Settling O47 and O48: a device that fences its path to itself neither gives its own agents a line nor answers its
own homes (R25, R73; log 49). -/
namespace Sys2Proof.Machine
open Sys2Proof

theorem State.next_eq {s t : State} {c : Instr} (h : exec c s = .next t) : s.next c = t := by
  rw [State.next, h]

/-- The L2 of ridge 0 of the device of `renumbered` asks for the first line of its memory, which nobody holds. -/
def ownRead : CohMsg :=
  { op := opRdShared, src := agentOf 3 0, dst := agentOf 3 0x20, txn := 0, line := 3 * 2 ^ 44 }

/-- The home of the line asks that L2, which has not got it, to give it up. -/
def ownSnoop : CohMsg :=
  { op := opSnpInv, src := agentOf 3 0x20, dst := agentOf 3 0, txn := 0, line := 3 * 2 ^ 44 }

/-- The request is no fault, of an agent here that is alive. -/
theorem renumbered_ownRead_taken : renumbered.cohFault ownRead = none ∧ agentDev ownRead.dst = renumbered.sys.deviceId ∧
    renumbered.coh.dead = [] ∧ agentDev ownRead.src = renumbered.sys.deviceId ∧
    renumbered.coh.fencedL2.contains (agentLoc ownRead.src) = false := by decide +kernel

/-- The line is free, backed, good and no Gang line, its set has room, and nobody needs to be snooped. -/
theorem renumbered_ownRead_line : renumbered.lineBusy ownRead.line = false ∧
    renumbered.trackersUsed (agentLoc ownRead.dst) < 256 ∧ renumbered.lineBacked ownRead.line = true ∧
    renumbered.dram.raw = [] ∧ renumbered.linePoisoned ownRead.line = false ∧ hostSide ownRead.src = false ∧
    renumbered.needsRecord ownRead.line = false ∧ renumbered.dirFull ownRead.line = false ∧
    (renumbered.snoopPlan ownRead).1 = [] ∧ renumbered.lineGang ownRead.line = false := by decide +kernel

/-- No DATA leaves: the last that left the device is the training of a host link. -/
theorem renumbered_ownRead_silent :
    (renumbered.next (.rdShared ownRead)).out.getLast? = some (.linkTrain 3) := by decide +kernel

/-- Refutes O47: the home gives a line to no agent of the device itself where the device has come, by a new device ID, to
fence the path to itself. -/
theorem not_homeRequests : ¬ Obligations.HomeRequests := by
  intro h
  obtain ⟨hfault, hdst, hdead, hsrc, hlive⟩ := renumbered_ownRead_taken
  obtain ⟨hfree, hroom, hbacked, hraw, hgood, hhost, hrec, hset, hplan, hgang⟩ := renumbered_ownRead_line
  obtain ⟨-, hstart⟩ := h renumbered ownRead _ (List.mem_cons_self ..) rfl hfault hdst rfl hdead hsrc hlive
  obtain ⟨-, -, hgrant⟩ := hstart hfree hroom hbacked hraw hgood hhost hrec
  obtain ⟨t, n, hexec, hlast, -⟩ := hgrant hset hplan hgang (.inr rfl)
  rw [← State.next_eq hexec, renumbered_ownRead_silent] at hlast
  cases hlast

/-- The snoop is no fault, of an agent here that is alive. -/
theorem renumbered_ownSnoop_taken : renumbered.cohFault ownSnoop = none ∧ agentDev ownSnoop.dst = renumbered.sys.deviceId ∧
    renumbered.coh.dead = [] ∧ agentDev ownSnoop.src = renumbered.sys.deviceId ∧
    lineDev ownSnoop.line = renumbered.sys.deviceId ∧
    renumbered.coh.fencedL2.contains (agentLoc ownSnoop.src) = false := by decide +kernel

/-- The L2 has not got the line and no fenced way that may have held it; it neither asks for the line, nor holds a snoop of it,
nor writes it back. -/
theorem renumbered_ownSnoop_absent :
    renumbered.coh.requests.any (fun r => r.msg.src == ownSnoop.dst && r.msg.line == ownSnoop.line) = false ∧
    renumbered.coh.heldSnoops.any (fun x => x.2.dst == ownSnoop.dst && x.2.line == ownSnoop.line) = false ∧
    renumbered.coh.wbBuf.any (fun w => w.agent == ownSnoop.dst && w.line == ownSnoop.line) = false ∧
    renumbered.l2Way (agentLoc ownSnoop.dst) ownSnoop.line = none ∧
    renumbered.fencedSet ownSnoop.dst ownSnoop.line = false := by decide +kernel

theorem renumbered_ownSnoop_silent : (renumbered.next (.snpInv ownSnoop)).out = renumbered.out := by decide +kernel

/-- Refutes O48: an L2 without the line says so to no home of the device itself where the device has come, by a new device ID,
to fence the path to itself. -/
theorem not_snoops : ¬ Obligations.Snoops := by
  intro h
  obtain ⟨hfault, hdst, hdead, hsrc, hline, hlive⟩ := renumbered_ownSnoop_taken
  obtain ⟨hreq, hheld, hwb, habsent, hways⟩ := renumbered_ownSnoop_absent
  obtain ⟨hanswer, -⟩ := h renumbered ownSnoop _ (List.mem_cons_of_mem _ (List.mem_cons_self ..)) rfl hfault hdst hdead hsrc
    hline rfl hreq hlive hheld hwb
  obtain ⟨t, n, hexec, hout, -⟩ := hanswer habsent hways
  rw [← State.next_eq hexec, renumbered_ownSnoop_silent] at hout
  cases List.self_eq_append_right.mp hout

end Sys2Proof.Machine
end

section
/-! SUPPORT. What sending leaves of the Omuth ports (R346 to R351): everything but what the sender of a port uses up, and all of
the other ports. -/
set_option Elab.async false
namespace Sys2Proof.Machine
open Sys2Proof

/-! ## Ports by number -/

theorem State.port_setPort_same (s : State) (p : Nat) (x : PortSt) : (s.setPort p x).port p = x := by
  match p with
  | 0 | 1 | 2 | _ + 3 => rfl

theorem State.port_setPort_other (s : State) {p q : Nat} (hp : p < 4) (hq : q < 4) (hne : q ≠ p) (x : PortSt) :
    (s.setPort p x).port q = s.port q := by
  match p, q with
  | 0, 1 | 0, 2 | 0, 3 | 1, 0 | 1, 2 | 1, 3 | 2, 0 | 2, 1 | 2, 3 | 3, 0 | 3, 1 | 3, 2 => rfl
  | 0, 0 | 1, 1 | 2, 2 | 3, 3 => exact absurd rfl hne

/-- A port number beyond the third stands for the third, so every number reads the port that is set or another. -/
theorem State.port_setPort_or (s : State) (p : Nat) (x : PortSt) (q : Nat) :
    s.port q = s.port p ∧ (s.setPort p x).port q = x ∨ (s.setPort p x).port q = s.port q := by
  match p, q with
  | 0, 0 | 1, 1 | 2, 2 | _ + 3, _ + 3 => exact .inl ⟨rfl, rfl⟩
  | 0, 1 | 0, 2 | 0, _ + 3 | 1, 0 | 1, 2 | 1, _ + 3 | 2, 0 | 2, 1 | 2, _ + 3 | _ + 3, 0 | _ + 3, 1 | _ + 3, 2 => exact .inr rfl

theorem State.port_of_link {s t : State} (h : t.link = s.link) (q : Nat) : t.port q = s.port q := by
  unfold State.port
  rw [h]

theorem Moves.port_eq {l : List Field} {s t : State} (h : Moves l s t) (q : Nat) (hl : l.contains .link = false := by rfl) :
    t.port q = s.port q := State.port_of_link (h.link_eq hl) q

@[simp] theorem State.emit_port (s : State) (e : OutEv) (q : Nat) : (s.emit e).port q = s.port q := rfl

/-! ## The standing of a port -/

/-- A port without what sending uses: the replay buffer, the messages that wait or have begun, their credits, and what the next
flit has to say. -/
def PortSt.standing (x : PortSt) : PortSt :=
  { x with
    nextSeq := 0, unacked := [], nakDue := false, credits := Vector.replicate 9 0, waiting := [], txMsg := none, txRest := []
    reportAt := 0, owes := false, lostSeq := none }

/-- What the standing of a port settles is the same in ports of the same standing. -/
theorem PortSt.of_standing {α : Type} (f : PortSt → α) {x y : PortSt} (h : x.standing = y.standing)
    (hf : ∀ z : PortSt, f z.standing = f z := by intro _; rfl) : f x = f y := by
  rw [← hf x, h, hf y]

/-- Every port has kept its standing. -/
structure SameStanding (s t : State) : Prop where
  at_ : ∀ p, (t.port p).standing = (s.port p).standing

namespace SameStanding
variable {s t u : State}

theorem refl (s : State) : SameStanding s s := ⟨fun _ => rfl⟩

theorem trans (h : SameStanding s t) (h' : SameStanding t u) : SameStanding s u := ⟨fun p => (h'.at_ p).trans (h.at_ p)⟩

theorem of_moves {l : List Field} (h : Moves l s t) (hl : l.contains .link = false := by rfl) : SameStanding s t :=
  ⟨fun p => congrArg PortSt.standing (h.port_eq p hl)⟩

theorem of_link (h : t.link = s.link) : SameStanding s t := ⟨fun p => congrArg PortSt.standing (State.port_of_link h p)⟩

/-- The ports are the same, whatever else of the link is not. -/
theorem of_ports (h : ∀ p, t.port p = s.port p) : SameStanding s t := ⟨fun p => congrArg PortSt.standing (h p)⟩

theorem setPort {p : Nat} {x : PortSt} (h : x.standing = (s.port p).standing) : SameStanding s (s.setPort p x) := by
  refine ⟨fun q => ?_⟩
  rcases s.port_setPort_or p x q with ⟨hq, hx⟩ | hq
  · rw [hx, h, hq]
  · rw [hq]

theorem ite {p : Prop} [Decidable p] (h : SameStanding s t) (h' : SameStanding s u) : SameStanding s (if p then t else u) := by
  split <;> assumption

theorem foldl {β : Type} {g : State → β → State} (l : List β) (hg : ∀ t b, SameStanding t (g t b)) (h : SameStanding s t) :
    SameStanding s (l.foldl g t) := by
  induction l generalizing t with
  | nil => exact h
  | cons b l ih => exact ih (h.trans (hg t b))

/-- What the standing of a port settles has been kept. -/
theorem get {α : Type} (h : SameStanding s t) (f : PortSt → α) (p : Nat)
    (hf : ∀ z : PortSt, f z.standing = f z := by intro _; rfl) : f (t.port p) = f (s.port p) :=
  PortSt.of_standing f (h.at_ p) hf

end SameStanding

/-! ## Flits -/

theorem State.putFlit_standing (s : State) (p : Nat) (h : FlitHdr) (slots : List TxSlot) :
    SameStanding s (s.putFlit p h slots) := by
  unfold State.putFlit
  refine .trans ?_ (.of_moves (State.emit_writes ..))
  exact .setPort rfl

theorem State.sendPayload_standing (s : State) (p : Nat) (f : TxFlit) : SameStanding s (s.sendPayload p f) :=
  s.putFlit_standing p _ _

theorem State.sendControl_standing (s : State) (p code arg : Nat) : SameStanding s (s.sendControl p code arg) :=
  s.putFlit_standing p _ _

theorem PortSt.fill_standing (n : Nat) (x : PortSt) (f : TxFlit) : (PortSt.fill n x f).1.standing = x.standing := by
  induction n generalizing x f with
  | zero => rfl
  | succ n ih =>
    unfold PortSt.fill
    split
    · rfl
    split
    next m _ => exact ih _ _
    split
    · rfl
    split
    · rfl
    · exact ih _ _

theorem State.pumpPort_standing (s : State) (p n : Nat) : SameStanding s (s.pumpPort p n) := by
  induction n generalizing s with
  | zero => exact .refl s
  | succ n ih =>
    unfold State.pumpPort
    extract_lets x
    split
    · exact .refl s
    split
    next y f hfill =>
    have hy : y.standing = x.standing := by
      have hst := PortSt.fill_standing 32 { x with waiting := x.waiting.filter (Msg.fresh s.now) }
        { seq := x.nextSeq, firstMsg := 15, slots := [], ends := [] }
      rw [hfill] at hst
      exact hst
    refine .ite (.setPort hy) (.trans (.trans ?_ (State.sendPayload_standing _ p f)) (ih _))
    exact .setPort hy

theorem State.sendPort_standing (s : State) (p : Nat) (m : Msg) : SameStanding s (s.sendPort p m) := by
  refine .trans ?_ (State.pumpPort_standing ..)
  exact .setPort rfl

end Sys2Proof.Machine
end

section
/-! SUPPORT. Messages, coherence and routes leave every Omuth port its standing: what they do at a port is to send. -/
set_option Elab.async false
namespace Sys2Proof.Machine
open Sys2Proof

/-! ## Messages (R354, R355) -/

theorem State.send_standing (s : State) (m : Msg) : SameStanding s (s.send m) := by
  unfold State.send
  refine .ite (.refl s) ?_
  split
  · exact .refl s
  · refine .ite (.of_moves (s.emit_writes _)) ?_
    split
    · exact s.sendPort_standing _ m
    · exact .refl s

theorem State.sendCoh_standing (s : State) (m : CohMsg) : SameStanding s (s.sendCoh m) := s.send_standing _

theorem State.broadcast_standing (s : State) (m : Msg) : SameStanding s (s.broadcast m) :=
  .ite (.refl s) (.foldl _ (fun t p => t.sendPort_standing p m) (.refl s))

theorem State.sendSnoop_standing (s : State) (op tracker line a : Nat) : SameStanding s (s.sendSnoop op tracker line a) :=
  s.sendCoh_standing _

theorem State.replyTo_standing (s : State) (m : CohMsg) (op : Nat) (f : CohMsg → CohMsg) : SameStanding s (s.replyTo m op f) :=
  s.sendCoh_standing _

theorem State.giveData_standing (s : State) (m : CohMsg) (st : LineState) (data : List Byte) :
    SameStanding s (s.giveData m st data) := s.replyTo_standing m _ _

theorem State.givePoison_standing (s : State) (m : CohMsg) : SameStanding s (s.givePoison m) := s.replyTo_standing m _ _

theorem State.request_standing (s : State) (m : CohMsg) (loc : Nat) (p : Purpose) : SameStanding s (s.request m loc p).2 := by
  unfold State.request State.newTxn
  dsimp only
  refine .ite (.of_link rfl) (.trans ?_ (State.sendCoh_standing ..))
  exact .of_link rfl

theorem State.proxyNote_standing (s : State) (op l : Nat) (data : List Byte) (keeps : LineState) (poison : Bool) :
    SameStanding s (s.proxyNote op l data keeps poison) := by
  unfold State.proxyNote State.newTxn
  refine .trans ?_ (State.sendCoh_standing ..)
  exact .of_link rfl

theorem State.proxyWb_standing (s : State) (op l : Nat) (data : List Byte) (keeps : LineState) :
    SameStanding s (s.proxyWb op l data keeps) := s.proxyNote_standing op l data keeps false

theorem State.foldl_sendSnoop_standing (s : State) (op tracker line : Nat) (l : List Nat) :
    SameStanding s (l.foldl (fun s a => s.sendSnoop op tracker line a) s) :=
  .foldl l (fun t a => t.sendSnoop_standing op tracker line a) (.refl s)

/-! ## Lines that are lost or read (R332, R433, R434) -/

theorem State.callBack_standing (s : State) (op snoop l : Nat) (far : List Nat) (back : Bool) :
    SameStanding s (s.callBack op snoop l far back) := by
  unfold State.callBack
  refine .trans ?_ (State.foldl_sendSnoop_standing ..)
  cases back <;> exact .of_link rfl

theorem State.uncache_standing (s : State) (l : Nat) : SameStanding s (s.uncache l) := by
  have hdrop (c : CacheSt) (e : DirEnt) : SameStanding s (State.setDir { s with cache := c } l e) := by
    refine .trans ?_ (.of_moves (State.setDir_writes ..))
    exact .of_link rfl
  exact .ite (hdrop _ _) ((hdrop _ _).trans (State.callBack_standing ..))

theorem State.replayInval_standing (s : State) (l : Nat) : SameStanding s (s.replayInval l) := by
  unfold State.replayInval
  extract_lets u
  have hu : SameStanding s u := .of_link rfl
  refine .ite (.trans ?_ (.of_moves (State.oinc_writes ..))) ?_
  · exact .of_link rfl
  · have hset (e : DirEnt) : SameStanding s (u.setDir l e) := hu.trans (.of_moves (State.setDir_writes ..))
    split
    · exact hset _
    · exact (hset _).trans (State.callBack_standing ..)

theorem State.poison_standing (s : State) (l : Nat) : SameStanding s (s.poison l) := by
  refine .trans (.trans ?_ (.of_moves (State.oinc_writes ..))) (State.uncache_standing ..)
  exact .of_link rfl

theorem State.lineLost_standing (s : State) (l m scrub : Nat) : SameStanding s (s.lineLost l m scrub) := by
  unfold State.lineLost
  extract_lets ch counted _ lost
  have hcounted : SameStanding s counted := .trans (.of_moves (State.lineRecord_writes ..)) (.of_moves (State.oinc_writes ..))
  have hlost : SameStanding counted lost := .of_link rfl
  exact hcounted.trans (hlost.trans (State.poison_standing ..))

theorem State.copyRead_standing (s : State) (l m : Nat) (scrub : Bool) : SameStanding s (s.copyRead l m scrub) := by
  unfold State.copyRead
  refine .ite (.refl s) ?_
  split
  · exact s.poison_standing l
  · have hnoted : SameStanding s (s.noteLost l m) := .of_moves (State.noteLost_writes ..)
    exact .ite (hnoted.trans (.of_moves (State.mirrorRepair_writes ..))) (hnoted.trans (State.lineLost_standing ..))
  · exact .of_moves (State.copyServed_writes ..)

theorem State.memRead_standing (s : State) (l : Nat) (scrub : Bool) : SameStanding s (s.memRead l scrub) :=
  s.copyRead_standing l _ scrub

/-! ## The home (R315, R322, R324, R326, R329) -/

theorem State.grantTokens_standing (s : State) (home n : Nat) : SameStanding s (s.grantTokens home n) := by
  induction n generalizing s with
  | zero => exact .refl s
  | succ n ih =>
    unfold State.grantTokens
    refine .ite (.refl s) ?_
    split
    · exact .refl s
    · refine .trans (.trans ?_ (State.sendCoh_standing ..)) (ih _)
      exact .of_link rfl

theorem State.backInvalidate_standing (s : State) (k : Nat) (e : DirEnt) (resume : Option CohMsg) :
    SameStanding s (s.backInvalidate k e resume) := by
  have hcounted : SameStanding s (s.oinc 0x6100 6 1) := .of_moves (State.oinc_writes ..)
  refine .ite (hcounted.trans (.of_moves (State.setDir_writes ..))) (.trans (hcounted.trans ?_) (State.foldl_sendSnoop_standing ..))
  exact .of_link rfl

theorem State.dirRoom_standing (s : State) (l : Nat) (resume : Option CohMsg) : SameStanding s (s.dirRoom l resume) := by
  unfold State.dirRoom
  refine .ite (.refl s) ?_
  extract_lets es v _ u
  have hu : SameStanding s u := .of_link rfl
  split
  · exact hu
  · exact hu.trans (State.backInvalidate_standing ..)

theorem State.dirPut_standing (s : State) (l : Nat) (e : DirEnt) : SameStanding s (s.dirPut l e) :=
  (s.dirRoom_standing l none).trans (.of_moves (State.dirTouch_writes ..))

theorem State.dirPut_giveData_standing (s : State) (l : Nat) (e : DirEnt) (m : CohMsg) (st : LineState) (data : List Byte) :
    SameStanding s ((s.dirPut l e).giveData m st data) :=
  (s.dirPut_standing l e).trans (State.giveData_standing ..)

theorem State.journalStep_standing {s t : State} {l : Nat} (h : s.journalStep l = some t) : SameStanding s t :=
  .of_moves ((s.journalStep_writes l).get h)

theorem State.slcWrite_standing (s : State) (l : Nat) (bs : List Byte) : SameStanding s ((s.lineWrite l bs).slcClean l) :=
  .trans (.of_moves (State.lineWrite_writes ..)) (.of_moves (State.slcClean_writes ..))

theorem State.grantLine_standing (s : State) (m : CohMsg) (data : Option (List Byte)) : SameStanding s (s.grantLine m data).1 := by
  unfold State.grantLine
  extract_lets l u gang v e _ e' holder cleaned
  have hu : SameStanding s u := by
    dsimp only [u]
    split
    · exact .ite (.refl s) (s.slcWrite_standing l _)
    · exact .refl s
  have hread (v : State) : SameStanding v (v.slcAccess l false) := .of_moves (State.slcAccess_writes ..)
  refine hu.trans ?_
  split
  · exact u.givePoison_standing m
  split
  · have hv : SameStanding u v := hread u
    split
    · exact hv.trans (State.dirPut_giveData_standing ..)
    split
    · exact hv.trans (State.dirPut_giveData_standing ..)
    · exact hv.trans (State.dirPut_giveData_standing ..)
  split
  · split
    · exact .refl u
    next v hstep =>
      have hv : SameStanding u v := by
        split at hstep
        · exact Option.some.inj hstep ▸ .refl u
        · exact State.journalStep_standing hstep
      extract_lets w
      have hw : SameStanding u w := hv.trans (State.dirPut_standing ..)
      split
      · exact hw.trans (w.replyTo_standing m opCmp (fun r => { r with state := 4, pd := true }))
      · exact hw.trans ((hread w).trans (State.giveData_standing ..))
  split
  · exact (hread u).trans (State.giveData_standing ..)
  split
  · split
    · exact .refl u
    next v hstep =>
      extract_lets a b c
      have ha : SameStanding v a := .ite (.refl v) (.of_moves (State.countLine_writes ..))
      have hb : SameStanding a b := .ite (.refl a) (State.slcWrite_standing ..)
      have hc : SameStanding b c := .ite (.of_moves (State.unpoison_writes ..)) (.refl b)
      exact (State.journalStep_standing hstep).trans (ha.trans (hb.trans (hc.trans
        (.trans (.of_moves (State.setDir_writes ..)) (State.replyTo_standing ..)))))
  · have hset (w : State) (d : DirEnt) : SameStanding w (w.setDir l d) := .of_moves (State.setDir_writes ..)
    have hclean : SameStanding u (u.slcClean l) := .of_moves (State.slcClean_writes ..)
    have hcleaned : SameStanding u cleaned :=
      .ite (.ite (hclean.trans (hset _ _)) hclean) (.trans (.of_moves (State.slcDrop_writes ..)) (hset _ _))
    exact hcleaned.trans (State.replyTo_standing ..)

theorem State.sendPlan_standing (s : State) (m : CohMsg) (n : Nat) (plan : List (Nat × Nat)) :
    SameStanding s (s.sendPlan m n plan) :=
  .foldl plan (fun t _ => .ite (t.sendCoh_standing _) (t.sendSnoop_standing ..)) (.refl s)

theorem State.unbackedReq_standing (s : State) (m : CohMsg) : SameStanding s (s.unbackedReq m) := by
  unfold State.unbackedReq
  extract_lets host u
  have hu : SameStanding s u := .ite (.of_moves (State.raise_writes ..)) (.refl s)
  exact .ite (hu.trans (State.givePoison_standing ..)) (hu.trans (State.replyTo_standing ..))

theorem State.awaitRoom_standing (s : State) (m : CohMsg) : SameStanding s (s.awaitRoom m) :=
  .trans (.of_moves (State.openTxn_writes ..)) (State.dirRoom_standing ..)

theorem State.startReq_standing (s : State) (m : CohMsg) : SameStanding s (s.startReq m) := by
  unfold State.startReq
  extract_lets l u
  refine .ite (s.awaitRoom_standing m) ?_
  have hu : SameStanding s u := .ite (s.memRead_standing l false) (.refl s)
  refine hu.trans (.ite (u.unbackedReq_standing m) (.ite (u.givePoison_standing m) ?_))
  clear_value u
  split
  next plan fwd _ =>
  extract_lets first
  split
  · exact .of_moves (State.stallReq_writes ..)
  next v hstep =>
    have hv : SameStanding u v := by
      split at hstep
      · exact State.journalStep_standing hstep
      · exact Option.some.inj hstep ▸ .refl u
    refine hv.trans (.ite ?_ (.trans ?_ (State.sendPlan_standing ..)))
    · have hgrant := v.grantLine_standing m none
      exact .ite hgrant (hgrant.trans (.of_moves (State.stallReq_writes ..)))
    · exact .of_link rfl

theorem State.serveQueue_standing (s : State) (l n : Nat) : SameStanding s (s.serveQueue l n) := by
  induction n generalizing s with
  | zero => exact .refl s
  | succ n ih =>
    unfold State.serveQueue
    refine .ite (.refl s) ?_
    split
    · exact .refl s
    next m u htake =>
      exact .trans (.of_moves ((s.takeQueued_writes l).get htake)) ((u.startReq_standing m).trans (ih _))

theorem State.endTxn_standing (s : State) (tracker line : Nat) : SameStanding s (s.endTxn tracker line) := by
  refine .trans (.trans ?_ (State.serveQueue_standing ..)) (State.grantTokens_standing ..)
  exact .of_link rfl

theorem State.restartReq_standing (s : State) (m : CohMsg) (t : Txn) : SameStanding s (s.restartReq m t) := by
  refine .trans (.trans (.trans ?_ (State.startReq_standing ..)) (State.serveQueue_standing ..)) (State.grantTokens_standing ..)
  exact .of_link rfl

theorem State.closeOne_standing (s : State) (t : Txn) : SameStanding s (s.closeOne t) := by
  have hend := s.endTxn_standing t.tracker t.line
  unfold State.closeOne
  dsimp only
  split
  · exact hend
  split
  · exact hend
  · exact hend.trans (State.restartReq_standing ..)

theorem State.closeTxn_standing (s : State) (t : Txn) : SameStanding s (s.closeTxn t) := by
  have hone := s.closeOne_standing t
  unfold State.closeTxn
  dsimp only
  split
  · exact hone
  · exact .ite (hone.trans (State.restartReq_standing ..)) hone

theorem State.finishTxn_standing (s : State) (t : Txn) : SameStanding s (s.finishTxn t) := by
  unfold State.finishTxn
  split
  · extract_lets u
    have hu : SameStanding s u := by
      dsimp only [u]
      split
      · exact .of_moves (State.lineWrite_writes ..)
      · exact .refl s
    exact hu.trans (.trans (.of_moves (State.setDir_writes ..)) (State.closeTxn_standing ..))
  split
  · exact .trans (.of_moves (State.dirTouch_writes ..)) (State.closeTxn_standing ..)
  · have hgrant := s.grantLine_standing t.req t.data
    refine .ite (hgrant.trans (State.closeTxn_standing ..)) (hgrant.trans (.trans ?_ (.of_moves (State.countStall_writes ..))))
    exact .of_link rfl

theorem State.takeAnswer_standing (s : State) (m : CohMsg) (t : Txn) (data : Option (List Byte)) (stays moved : Bool) :
    SameStanding s (s.takeAnswer m t data stays moved) := by
  refine .ite (.trans ?_ (State.finishTxn_standing ..)) ?_
  · exact .of_link rfl
  · exact .of_link rfl

/-! ## The walk for a dead agent (R332, R334) -/

theorem State.ackForDead_standing (s : State) (dead : Nat → Bool) : SameStanding s (s.ackForDead dead) := by
  refine .foldl _ (fun t x => ?_) (.refl s)
  split
  · exact .refl t
  · exact .trans (.of_moves (State.setDir_writes ..)) (State.takeAnswer_standing ..)

theorem State.poisonLine_standing (s : State) (dead : Nat → Bool) (l : Nat) : SameStanding s (s.poisonLine dead l) :=
  .trans (.of_moves (State.setDir_writes ..)) (State.poison_standing ..)

theorem State.walkEntry_standing (s : State) (dead : Nat → Bool) (l : Nat) : SameStanding s (s.walkEntry dead l) := by
  have hset (t : State) (e : DirEnt) : SameStanding t (t.setDir l e) := .of_moves (State.setDir_writes ..)
  refine .ite (.ite (.ite ?_ (hset s _)) (.refl s)) (.foldl _ (fun t _ => hset t _) (.refl s))
  exact (hset s _).trans (State.poison_standing ..)

theorem State.walk_standing (s : State) (dead : Nat → Bool) (name : Nat) : SameStanding s (s.walk dead name) := by
  unfold State.walk
  extract_lets before _ u lost acked spoilt rest walked granted counted
  have hu : SameStanding s u := .of_link rfl
  have hspoilt : SameStanding acked spoilt := .foldl _ (fun t l => t.poisonLine_standing dead l) (.refl acked)
  have hwalked : SameStanding spoilt walked := .foldl _ (fun t l => t.walkEntry_standing dead l) (.refl spoilt)
  have hgranted : SameStanding walked granted := .foldl _ (fun t _ => t.grantTokens_standing ..) (.refl walked)
  exact hu.trans <| (u.ackForDead_standing dead).trans <| hspoilt.trans <| hwalked.trans <| hgranted.trans <|
    .trans (.of_moves (State.oinc_writes ..)) (.of_moves (State.raise_writes ..))

/-! ## Lines that arrive -/

theorem State.evictL2_standing (s : State) (ridge : Nat) (w : Way) (k : Option RouteKey) :
    SameStanding s (s.evictL2 ridge w k) := by
  unfold State.evictL2
  extract_lets l u v e left x
  have hu : SameStanding s u := .of_moves (State.dropL2_writes ..)
  have hx : SameStanding u x := .of_moves (State.setRemote_writes ..)
  refine hu.trans (.ite (.trans (.of_moves (State.setDir_writes ..)) (.of_moves (State.slcOffer_writes ..))) (hx.trans ?_))
  exact .ite (State.proxyWb_standing ..) (.ite (State.proxyWb_standing ..) (.refl x))

theorem State.fillL2_standing (s : State) (ridge l : Nat) (k : Option RouteKey) (st : LineState) (dirty streaming pd : Bool)
    (data : List Byte) : SameStanding s (s.fillL2 ridge l k st dirty streaming pd data) := by
  unfold State.fillL2
  refine .ite (.refl s) ?_
  extract_lets key ws
  split
  · exact .of_moves (State.mapL2_writes ..)
  split
  · exact .refl s
  · refine .trans (.trans ?_ (.ite (.refl _) (State.evictL2_standing ..))) (.of_link rfl)
    exact .of_link rfl

theorem State.passLine_standing (s : State) (ridge l : Nat) (st : LineState) (data : List Byte) :
    SameStanding s (s.passLine ridge l st data) :=
  .ite (.refl s) (.ite (.of_moves (State.setDir_writes ..)) (.ite (.refl s)
    (.ite (s.proxyWb_standing ..) (s.proxyWb_standing ..))))

theorem State.finishCopies_standing (s : State) : SameStanding s s.finishCopies := by
  refine .foldl _ (fun t c => ?_) (.refl s)
  split
  · exact .refl t
  · extract_lets _ u
    have hu : SameStanding t u := .of_ports (fun _ => rfl)
    split
    · exact hu
    · exact hu.trans (.of_moves (State.addRoute_writes ..))

theorem State.copyLineArrives_standing (s : State) (k : RouteKey) (off status : Nat) (data : List Byte) :
    SameStanding s (s.copyLineArrives k off status data) := by
  refine .ite (.trans ?_ (State.send_standing ..)) (.trans ?_ (State.finishCopies_standing ..))
  · exact .of_ports (fun _ => rfl)
  · exact .of_ports (fun _ => rfl)

theorem State.sendBelay_standing (s : State) (r : Route) (sp : Span) (dest kind tick : Nat) :
    SameStanding s (s.sendBelay r sp dest kind tick) := s.send_standing _

theorem State.ackDone_standing (s : State) : SameStanding s s.ackDone := by
  refine .ite (.refl s) (.foldl _ (fun t r => ?_) (.refl s))
  split
  · exact .refl t
  · exact .ite (.refl t) ((t.sendBelay_standing ..).trans (.of_moves (State.mapSpan_writes ..)))

theorem State.outboundDone_standing (s : State) (txn : Nat) : SameStanding s (s.outboundDone txn) := .of_ports (fun _ => rfl)

theorem State.deliver_standing (s : State) (r : OpenReq) (st : LineState) (status : Nat) (pd : Bool) (data : List Byte) :
    SameStanding s (s.deliver r st status pd data) := by
  unfold State.deliver
  extract_lets l u far bytes v _
  have hu : SameStanding s u := .of_moves (State.dropReq_writes ..)
  have hv : SameStanding u v := by
    dsimp only [v]
    split
    · exact .refl u
    · refine .ite (.refl u) ((State.fillL2_standing ..).trans (.ite ?_ (State.passLine_standing ..)))
      exact .of_moves (State.setRemote_writes ..)
  refine hu.trans (hv.trans ?_)
  clear_value v
  have hbuf (bs : List Byte) : SameStanding v (v.bufferLine l status bs) := .of_moves (State.bufferLine_writes ..)
  have hemit (e : OutEv) : SameStanding v (v.emit e) := .of_moves (State.emit_writes ..)
  split
  · exact .ite (.refl v) (hbuf _)
  · exact .ite v.ackDone_standing (v.request_standing ..)
  · exact .trans (.ite (.refl v) (hbuf _)) (.of_moves (State.wakeStrand_writes ..))
  · exact v.copyLineArrives_standing ..
  · exact .ite (hemit _) (hemit _)
  · exact .ite (.refl v) (hbuf _)
  · exact v.outboundDone_standing _
  · exact hbuf _
  · refine .trans ?_ (.of_moves (State.oset_writes ..))
    exact .of_link rfl
  · exact .refl v

theorem State.failRequests_standing (s : State) (d : Nat) : SameStanding s (s.failRequests d) := by
  refine .foldl _ (fun t r => .trans (.of_moves (t.dropReq_writes r)) ?_) (.refl s)
  generalize t.dropReq r = u
  have hbuf (l st : Nat) (bs : List Byte) : SameStanding u (u.bufferLine l st bs) := .of_moves (State.bufferLine_writes ..)
  have hemit (e : OutEv) : SameStanding u (u.emit e) := .of_moves (State.emit_writes ..)
  dsimp only
  split
  · exact (hbuf ..).trans (.of_moves (State.wakeStrand_writes ..))
  · exact hbuf ..
  · exact hbuf ..
  · exact .refl u
  · exact hbuf ..
  · exact .ite (hemit _) (hemit _)
  · exact u.deliver_standing ..
  · exact .refl u
  · exact .refl u
  · exact .refl u

/-! ## Spans and routes that end (R65, R146, R223) -/

theorem State.restoreFar_standing (s : State) (l : Nat) (old : List Byte) : SameStanding s (s.restoreFar l old) := by
  refine .trans ?_ (State.request_standing ..)
  exact .of_link rfl

theorem State.spoilRecord_standing (s : State) (line : Nat) (far : Bool) : SameStanding s (s.spoilRecord line far) := by
  refine .ite (.trans ?_ (State.proxyNote_standing ..)) (s.poison_standing line)
  exact .of_link rfl

theorem State.restoreRecord_standing (s : State) (j : JRec) : SameStanding s (s.restoreRecord j) := by
  unfold State.restoreRecord
  extract_lets jl u bad
  have hu : SameStanding s u := (s.memRead_standing ..).trans (State.memRead_standing ..)
  refine hu.trans ?_
  clear_value u
  split
  · exact .refl u
  next p _ =>
    extract_lets v base line w _ _ x
    have hv : SameStanding u v := by
      dsimp only [v]
      split
      · exact .ite (.refl u) (.of_moves (State.putObj_writes ..))
      · exact .refl u
    have hw : SameStanding v w := .ite (.ite (.refl v) (v.restoreFar_standing ..)) (v.replayInval_standing line)
    have hx : SameStanding w x := .of_link rfl
    refine hv.trans (hw.trans (hx.trans ?_))
    exact .ite ((x.spoilRecord_standing ..).trans (.of_moves (State.endAt_writes ..))) (.refl x)

theorem State.applyJournal_standing (s : State) (k : RouteKey) (spanPitch : Nat) : SameStanding s (s.applyJournal k spanPitch) := by
  unfold State.applyJournal
  extract_lets mine restored _
  have hrestored : SameStanding s restored := .foldl _ State.restoreRecord_standing (.refl s)
  refine hrestored.trans (.trans ?_ (.of_moves (State.refreshDir_writes ..)))
  exact .of_link rfl

theorem State.freeObj_standing (s : State) (o : Nat) : SameStanding s (s.freeObj o) := by
  unfold State.freeObj
  split
  · exact .refl s
  next d _ =>
    have hfreed : SameStanding s (d.pages.foldl State.freePage s) :=
      .foldl _ (fun t id => .of_moves (t.freePage_writes id)) (.refl s)
    exact hfreed.trans (.of_ports (fun _ => rfl))

theorem State.depotReplay_standing (s : State) (k : RouteKey) : SameStanding s (s.depotReplay k) := by
  unfold State.depotReplay
  split
  · exact .refl s
  · refine .trans (.foldl _ (fun t id => .of_moves (t.freePage_writes id)) ?_) (.of_link rfl)
    exact .foldl _ State.freeObj_standing (.refl s)

theorem State.discardSpan_standing (s : State) (k : RouteKey) : SameStanding s (s.discardSpan k) := by
  unfold State.discardSpan
  split
  · exact .refl s
  · extract_lets pitch replayed dropped restored freed cut _ forgotten
    have hdropped : SameStanding s dropped :=
      .trans (.trans (.trans (.trans (.of_moves (State.camReplay_writes ..)) (.of_moves (State.dropTasks_writes ..)))
        (.of_moves (State.dropStrands_writes ..))) (.of_moves (State.dropWrites_writes ..)))
        (.of_moves (State.forgetReads_writes ..))
    have hcut : SameStanding freed cut := .of_moves (State.dropEntries_writes ..)
    have hforgotten : SameStanding cut forgotten := .of_ports (fun _ => rfl)
    exact hdropped.trans <| (State.applyJournal_standing ..).trans <| (State.depotReplay_standing ..).trans <|
      hcut.trans <| hforgotten.trans (.of_moves (State.updRoute_writes ..))

theorem State.returnQuota_standing (s : State) (t home : Nat) : SameStanding s (s.returnQuota t home) := by
  refine .ite (.trans ?_ (State.send_standing ..)) (.refl s)
  exact .of_link rfl

theorem State.freeRoute_standing (s : State) (k : RouteKey) : SameStanding s (s.freeRoute k) := by
  refine .trans (.foldl _ State.freeObj_standing ?_) (.of_ports (fun _ => rfl))
  exact .of_moves (State.forgetReads_writes ..)

theorem State.closeOut_standing (s : State) (k : RouteKey) (status tick check : Nat) (record : Bool) :
    SameStanding s (s.closeOut k status tick check record) := by
  unfold State.closeOut
  split
  · exact .refl s
  · extract_lets u told logged due freed left
    refine (s.freeRoute_standing k).trans (.ite ?_ ?_)
    · have htold : SameStanding u told := .foldl _ (fun t _ => t.send_standing _) (.refl u)
      have hdue : SameStanding told due := .trans (.of_moves (State.logEvent_writes ..)) (.of_moves (State.updRoute_writes ..))
      exact htold.trans (hdue.trans (.ite (.of_moves (State.complete_writes ..)) (.of_moves (State.closeRoute_writes ..))))
    · have hfreed : SameStanding u freed := .of_moves (State.freeCam_writes ..)
      have hleft : SameStanding freed left := .of_link rfl
      exact hfreed.trans (hleft.trans (State.returnQuota_standing ..))

theorem State.sendVerdict_standing (s : State) (k : RouteKey) (kind tick : Nat) : SameStanding s (s.sendVerdict k kind tick) := by
  unfold State.sendVerdict
  split
  · exact .refl s
  split
  · exact .refl s
  · exact .foldl _ (fun t _ => t.sendBelay_standing ..) (.refl s)

theorem State.faultReplay_standing (s : State) (k : RouteKey) : SameStanding s (s.faultReplay k) := by
  unfold State.faultReplay
  split
  · exact .refl s
  split
  · exact .refl s
  · refine .ite (.refl s) ?_
    extract_lets logged gone counted replayed told
    have hgone : SameStanding s gone := .trans (.of_moves (State.logRoute_writes ..))
      (.trans (State.discardSpan_standing ..) (.of_moves (State.mapSpan_writes ..)))
    have hreplayed : SameStanding gone replayed := .trans (.of_moves (State.oinc_writes ..)) (.of_moves (State.updRoute_writes ..))
    have htold : SameStanding replayed told := by
      refine .ite (State.sendVerdict_standing ..) ?_
      split
      · exact State.sendBelay_standing ..
      · exact .refl replayed
    exact hgone.trans (hreplayed.trans (htold.trans (.ite (.of_moves (State.endAt_writes ..)) (.refl told))))

theorem State.losePeer_standing (s : State) (dev : Nat) : SameStanding s (s.losePeer dev) := by
  refine .foldl _ (fun t r => ?_) (.refl s)
  have hlose (f : Route → Route) : SameStanding t (t.updRoute r.key f) := .of_moves (State.updRoute_writes ..)
  refine .ite (.refl t) (.ite (.ite ?_ (.ite (.refl t) (.of_moves (State.endAt_writes ..)))) (.ite (hlose _) (.refl t)))
  exact .ite ((hlose _).trans (State.faultReplay_standing ..)) (hlose _)

/-! ## Deaths (R334, R345) -/

theorem State.applyDeath_standing (s : State) (d : Nat) : SameStanding s (s.applyDeath d) := by
  unfold State.applyDeath
  refine .ite (.refl s) ?_
  extract_lets _ _ _ noted walked failed orphans closed
  have hnoted : SameStanding s noted := .of_ports (fun _ => rfl)
  have hfailed : SameStanding walked failed := .trans (.of_moves (State.dropHomed_writes ..)) (State.failRequests_standing ..)
  have hclosed : SameStanding failed closed := by
    refine .foldl _ (fun t k => .trans ?_ (State.closeOut_standing ..)) (.refl failed)
    exact .ite (t.discardSpan_standing k) (.refl t)
  exact hnoted.trans <| (State.walk_standing ..).trans <| hfailed.trans <| hclosed.trans (State.losePeer_standing ..)

theorem State.declareDead_standing (s : State) (d : Nat) : SameStanding s (s.declareDead d) :=
  .ite (.refl s) ((s.broadcast_standing _).trans (State.applyDeath_standing ..))

end Sys2Proof.Machine
end

section
/-! SUPPORT. What the operations of an Omuth port do: training, failures of lanes, retrains, resends, and what leaves the port
(R341 to R349, R362, R363). -/
set_option Elab.async false
namespace Sys2Proof.Machine
open Sys2Proof

/-! ## Flits that leave a port -/

theorem State.putFlit_port (s : State) (p : Nat) (h : FlitHdr) (slots : List TxSlot) : (s.putFlit p h slots).port p =
    { s.port p with reportAt := ((s.port p).reportAt + 2) % 9, nakDue := false, owes := false } := s.port_setPort_same p _

theorem State.sendPayload_unacked (s : State) (p : Nat) (f : TxFlit) :
    ((s.sendPayload p f).port p).unacked = (s.port p).unacked := by
  unfold State.sendPayload
  rw [State.putFlit_port]

theorem State.sendControl_unacked (s : State) (p code arg : Nat) :
    ((s.sendControl p code arg).port p).unacked = (s.port p).unacked := by
  unfold State.sendControl
  rw [State.putFlit_port]

/-- The last that has left is a CONTROL flit of a port. -/
def State.SentControl (t : State) (p code arg device ack : Nat) : Prop :=
  ∃ h w l, t.out.getLast? = some (.flit p h w l) ∧ h.flitType = 1 ∧ h.code = code ∧ h.arg = arg % 2 ^ 33 ∧ h.sender = device ∧
    h.ackSeq = ack

theorem State.sendControl_sends (s : State) (p code arg : Nat) :
    (s.sendControl p code arg).SentControl p code arg s.sys.deviceId (s.lastSeq p) :=
  ⟨_, _, _, List.getLast?_concat, rfl, rfl, rfl, rfl, rfl⟩

theorem SameStanding.lastSeq {s t : State} (h : SameStanding s t) (p : Nat) : t.lastSeq p = s.lastSeq p := by
  unfold State.lastSeq
  rw [h.get PortSt.expectSeq p]

/-! ## Resends (R349) -/

/-- An event is a flit of the replay buffer that leaves a port again. -/
def Resent (p : Nat) (f : TxFlit) (e : OutEv) : Prop :=
  ∃ h w l, e = .flit p h w l ∧ h.flitType = 0 ∧ h.seq = f.seq ∧ h.firstMsg = f.firstMsg

/-- The flits that leave again stand in the order of the replay buffer. -/
theorem Resent.of_getElem? {p i : Nat} {fs : List TxFlit} {evs : List OutEv} {f : TxFlit} (hall : List.Forall₂ (Resent p) fs evs)
    (hf : fs[i]? = some f) :
    ∃ h w l, evs[i]? = some (.flit p h w l) ∧ h.flitType = 0 ∧ h.seq = f.seq ∧ h.firstMsg = f.firstMsg := by
  obtain ⟨hi, rfl⟩ := List.getElem?_eq_some_iff.mp hf
  have hi' : i < evs.length := hall.length_eq ▸ hi
  obtain ⟨h, w, l, he, hflit⟩ := hall.get hi hi'
  exact ⟨h, w, l, (List.getElem?_eq_getElem hi').trans (congrArg some he), hflit⟩

theorem State.foldl_sendPayload_resends (s : State) (p : Nat) (fs : List TxFlit) : ∃ evs,
    (fs.foldl (fun s f => s.sendPayload p f) s).out = s.out ++ evs ∧ List.Forall₂ (Resent p) fs evs := by
  induction fs generalizing s with
  | nil => exact ⟨[], (List.append_nil _).symm, .nil⟩
  | cons f fs ih =>
    obtain ⟨evs, hout, hevs⟩ := ih (s.sendPayload p f)
    exact ⟨_ :: evs, hout.trans (List.append_assoc ..), .cons ⟨_, _, _, rfl, rfl, rfl, rfl⟩ hevs⟩

theorem State.foldl_sendPayload_unacked (s : State) (p : Nat) (fs : List TxFlit) :
    ((fs.foldl (fun s f => s.sendPayload p f) s).port p).unacked = (s.port p).unacked := by
  induction fs generalizing s with
  | nil => rfl
  | cons f fs ih => exact (ih _).trans (s.sendPayload_unacked p f)

/-- A resend sends the replay buffer in its order and keeps it. -/
theorem State.resendAll_resends (s : State) (p : Nat) : ∃ evs, (s.resendAll p).out = s.out ++ evs ∧
    List.Forall₂ (Resent p) (s.port p).unacked evs ∧ ((s.resendAll p).port p).unacked = (s.port p).unacked := by
  unfold State.resendAll
  split
  next hnone =>
    rw [List.isEmpty_iff.mp hnone]
    exact ⟨[], (List.append_nil _).symm, .nil, rfl⟩
  · have hcount := s.oinc_writes (portObj p) 8 1
    obtain ⟨evs, hout, hevs⟩ := (s.oinc (portObj p) 8 1).foldl_sendPayload_resends p (s.port p).unacked
    refine ⟨evs, ?_, hevs, ?_⟩
    · rw [hout, hcount.out_eq rfl]
    · rw [State.foldl_sendPayload_unacked, hcount.port_eq p]

theorem State.resendAll_standing (s : State) (p : Nat) : SameStanding s (s.resendAll p) :=
  .ite (.refl s) (.foldl _ (fun t f => t.sendPayload_standing p f) (.of_moves (State.oinc_writes ..)))

theorem State.pumpAll_standing (s : State) (p : Nat) : SameStanding s (s.pumpAll p) := s.pumpPort_standing p _

theorem State.answerFlit_standing (s : State) (p : Nat) : SameStanding s (s.answerFlit p) :=
  .ite (s.sendControl_standing p 0 0) (.refl s)

/-! ## Ports that go down, and retrains (R345, R362, R363) -/

theorem State.moveTraffic_standing (s : State) (q p seq : Nat) : SameStanding s (s.moveTraffic q p seq) := by
  have hcleared : SameStanding s (s.mapPort q (fun x => { x with unacked := [], waiting := [], txMsg := none, txRest := [] })) :=
    .setPort rfl
  refine .trans (hcleared.trans ?_) (State.pumpAll_standing ..)
  exact .setPort rfl

theorem State.portDown_down (s : State) (p : Nat) : ((s.portDown p).port p).mode = .down := by
  unfold State.portDown
  extract_lets x last u
  have hu : (u.port p).mode = .down := congrArg PortSt.mode (s.port_setPort_same p _)
  suffices h : ∀ t, SameStanding u t → (t.port p).mode = .down by
    apply h
    split
    next q qs _ =>
      have hsent := u.sendControl_standing q 5 last
      dsimp only
      split
      · exact hsent.trans (State.moveTraffic_standing ..)
      · exact hsent
    · exact .ite (u.declareDead_standing _) (.refl u)
  exact fun t ht => (ht.get PortSt.mode p).trans hu

theorem State.trainingTimeout_down (s : State) {p : Nat} (h : (s.port p).mode = .training) :
    ((s.trainingTimeout p).port p).mode = .down := by
  unfold State.trainingTimeout
  rw [h]
  exact State.portDown_down ..

/-- Fewer than four retrains of a port lie within 100 ms before this clock, so that the next one does not take it down. -/
def State.Calm (s : State) (p : Nat) : Prop :=
  ((s.port p).retrainTimes.filter (fun t => decide (s.now < t + retrainWindow))).length < 4

/-- A retrain of a port that has had few lately stops it, keeps its replay buffer, and starts training. -/
theorem State.startRetrain_retrains {s : State} {p : Nat} (hm : (s.port p).mode = .active ∨ (s.port p).mode = .failover)
    (hcalm : s.Calm p) : ((s.startRetrain p).port p).mode = .retraining ∧
      ((s.startRetrain p).port p).unacked = (s.port p).unacked ∧ (s.startRetrain p).out.getLast? = some (.linkTrain p) := by
  have hup : ¬((s.port p).mode != .active && (s.port p).mode != .failover) = true := by rcases hm with hm | hm <;> simp [hm]
  unfold State.startRetrain
  extract_lets x recent counted stopped
  have hrecent : ¬5 ≤ recent.length := by
    have hlen : recent.length = ((s.port p).retrainTimes.filter (fun t => decide (s.now < t + retrainWindow))).length + 1 :=
      List.length_append
    unfold State.Calm at hcalm
    omega
  have hstopped : stopped.port p = _ := counted.port_setPort_same p _
  rw [if_neg hup, if_neg hrecent]
  refine ⟨?_, ?_, List.getLast?_concat⟩
  · rw [State.emit_port, (stopped.sendControl_standing p 2 0).get PortSt.mode p, hstopped]
  · rw [State.emit_port, State.sendControl_unacked, hstopped]

theorem State.Calm.congr {s t : State} {p : Nat} (h : s.Calm p) (hnow : t.now = s.now)
    (htimes : (t.port p).retrainTimes = (s.port p).retrainTimes) : t.Calm p := by
  unfold State.Calm
  rw [hnow, htimes]
  exact h

/-- A retrain that is done makes the port active, and else leaves its standing but for the credits advertised. -/
theorem State.retrainDone_resumes {s : State} {p : Nat} (hm : (s.port p).mode = .retraining) (hl : (s.port p).locked = true)
    (hp : 64 ≤ (s.port p).probes) :
    SameStanding (s.setPort p { (s.port p).advertise with mode := .active }) (s.retrainDone p) := by
  have hdone : ¬((s.port p).mode != .retraining || !(s.port p).locked || decide ((s.port p).probes < 64)) = true := by
    simp [hm, hl, hp]
  unfold State.retrainDone
  extract_lets x u
  rw [if_neg hdone]
  exact .trans (.trans (.trans (.of_moves (State.closeHandling_writes ..)) (State.resendAll_standing ..))
    (State.pumpAll_standing ..)) (State.answerFlit_standing ..)

theorem State.widthDone_active {s : State} {p : Nat} (hm : (s.port p).mode = .failover) :
    ((s.widthDone p).port p).mode = .active := by
  unfold State.widthDone
  have hstood : ¬((s.port p).mode != .failover) = true := by simp [hm]
  rw [if_neg hstood]
  have hst : SameStanding (s.mapPort p (fun x => { x with mode := .active })) _ :=
    .trans (.trans (State.resendAll_standing _ p) (State.pumpAll_standing _ p)) (State.answerFlit_standing _ p)
  exact (hst.get PortSt.mode p).trans (congrArg PortSt.mode (s.port_setPort_same p _))

/-- A resend that a timeout asks for: every flit of the replay buffer leaves again, and all are kept. -/
theorem State.resendFrom_resends {s : State} {p : Nat} (hm : (s.port p).mode = .active) (hne : (s.port p).unacked ≠ [])
    (hn : (s.port p).resends + 1 < 8) : ((s.resendFrom p).port p).resends = (s.port p).resends + 1 ∧
      ((s.resendFrom p).port p).unacked = (s.port p).unacked ∧
      ∃ evs, (s.resendFrom p).out = s.out ++ evs ∧ List.Forall₂ (Resent p) (s.port p).unacked evs := by
  have hready : ¬((s.port p).mode != .active || (s.port p).unacked.isEmpty) = true := by simp [hm, hne]
  unfold State.resendFrom
  rw [if_neg hready]
  dsimp only
  rw [if_neg (Nat.not_le.mpr hn)]
  set u := s.mapPort p (fun x => { x with resends := (s.port p).resends + 1 }) with hu
  have hport : u.port p = { s.port p with resends := (s.port p).resends + 1 } := s.port_setPort_same p _
  obtain ⟨evs, hout, hevs, hkept⟩ := u.resendAll_resends p
  rw [hport] at hevs hkept
  exact ⟨((u.resendAll_standing p).get PortSt.resends p).trans (congrArg PortSt.resends hport), hkept, evs, hout, hevs⟩

/-- The eighth resend in a row forces a retrain. -/
theorem State.resendFrom_retrains {s : State} {p : Nat} (hm : (s.port p).mode = .active) (hne : (s.port p).unacked ≠ [])
    (hn : 8 ≤ (s.port p).resends + 1) (hcalm : s.Calm p) : ((s.resendFrom p).port p).mode = .retraining ∧
      ((s.resendFrom p).port p).unacked = (s.port p).unacked := by
  have hready : ¬((s.port p).mode != .active || (s.port p).unacked.isEmpty) = true := by simp [hm, hne]
  unfold State.resendFrom
  rw [if_neg hready]
  dsimp only
  rw [if_pos hn]
  set u := s.mapPort p (fun x => { x with resends := (s.port p).resends + 1 }) with hu
  have hport : u.port p = { s.port p with resends := (s.port p).resends + 1 } := s.port_setPort_same p _
  obtain ⟨evs, -, -, hkept⟩ := u.resendAll_resends p
  have hst := u.resendAll_standing p
  have hmode : ((u.resendAll p).port p).mode = .active := by rw [hst.get PortSt.mode p, hport, hm]
  have hcalm' : (u.resendAll p).Calm p :=
    hcalm.congr ((u.resendAll_writes p).now_eq rfl) (by rw [hst.get PortSt.retrainTimes p, hport])
  obtain ⟨hretrains, hbuffer, -⟩ := State.startRetrain_retrains (.inl hmode) hcalm'
  exact ⟨hretrains, by rw [hbuffer, hkept, hport]⟩

/-! ## Training (R342, R343) -/

theorem State.portEnable_disables {s : State} {p : Nat} (hm : (s.port p).mode = .down ∨ (s.port p).mode = .disabled)
    (hd : portDim s.sys.deviceCount p = none) : s.portEnable p = s.setPort p { PortSt.reset with mode := .disabled } := by
  unfold State.portEnable State.trainPort
  rw [if_pos hm, hd]
  rfl

theorem State.portEnable_trains {s : State} {p : Nat} (hm : (s.port p).mode = .down ∨ (s.port p).mode = .disabled)
    (hd : (portDim s.sys.deviceCount p).isSome = true) : s.portEnable p = (s.setPort p { PortSt.reset with
      mode := .training, rate := if s.onum 0x6000 1 = 0 then 1 else 2, neighbour := s.neighbourOf p
      triedOl1 := s.onum 0x6000 1 == 0 }).emit (.linkTrain p) := by
  have hserves : ¬(portDim s.sys.deviceCount p).isNone = true := by simp [← Option.not_isSome, hd]
  unfold State.portEnable State.trainPort
  rw [if_pos hm, if_neg hserves]

/-- The width of the lanes that have locked is chosen. -/
theorem State.lockDone_locks {s : State} {p lanes g : Nat} (hl : (s.port p).locked = false) (hlanes : lanes < 65536)
    (hg : (s.port p).mode = .training ∧ chooseLanes 16 lanes = some g ∨
      (s.port p).mode = .retraining ∧ chooseLanes (if lanes = 0xFFFF then 16 else (s.port p).width) lanes = some g) :
    s.lockDone p lanes = s.setPort p { s.port p with lanes := g, width := laneWidth g, locked := true, fecRun := 0 } := by
  have hgood : lanes % 65536 = lanes := Nat.mod_eq_of_lt hlanes
  unfold State.lockDone
  rcases hg with ⟨hm, hg⟩ | ⟨hm, hg⟩
  · simp [hl, hm, hgood, hg]
  · simp only [hl, hm, hgood, hg, Bool.false_eq_true, if_false, if_true, reduceCtorEq]

/-- Lanes that give no width let a training repeat at OL1. -/
theorem State.lockDone_retries {s : State} {p lanes : Nat} (hl : (s.port p).locked = false) (hlanes : lanes < 65536)
    (hm : (s.port p).mode = .training) (hg : chooseLanes 16 lanes = none) (ht : (s.port p).triedOl1 = false) :
    s.lockDone p lanes = (s.setPort p { s.port p with rate := 1, triedOl1 := true }).emit (.linkTrain p) := by
  unfold State.lockDone
  simp [hl, hm, Nat.mod_eq_of_lt hlanes, hg, ht]

/-! ## Lanes that fail (R344) -/

/-- A port goes on at the lanes of a mask. -/
structure PortSt.NarrowedTo (x : PortSt) (g : Nat) : Prop where
  mode : x.mode = .failover
  lanes : x.lanes = g
  width : x.width = laneWidth g

theorem SameStanding.narrowedTo {s t : State} (h : SameStanding s t) {p g : Nat} (hx : (s.port p).NarrowedTo g) :
    (t.port p).NarrowedTo g :=
  ⟨(h.get PortSt.mode p).trans hx.mode, (h.get PortSt.lanes p).trans hx.lanes, (h.get PortSt.width p).trans hx.width⟩

theorem State.narrow_port (s : State) (p g : Nat) : (s.narrow p g).port p =
    { s.port p with mode := .failover, lanes := g, width := laneWidth g, laneErrors := [] } := by
  unfold State.narrow
  rw [(State.corrected_writes ..).port_eq p, (State.oinc_writes ..).port_eq p]
  exact s.port_setPort_same p _

theorem State.failLanes_none {s : State} {p bad : Nat} (h : (s.port p).lanes &&& bad = 0) : s.failLanes p bad = s := by
  unfold State.failLanes
  exact if_pos (by simp [h])

/-- Lanes that fail and leave a narrower group narrow the port to it, and the other end is told. -/
theorem State.failLanes_narrows {s : State} {p bad g : Nat} (hup : (s.port p).up = true) (hm : (s.port p).mode ≠ .retraining)
    (hbad : (s.port p).lanes &&& bad ≠ 0) (hg : narrowTo (s.port p).width (((List.range 16).filter (fun l =>
      bitAt (s.port p).lanes l && !bitAt bad l)).foldl (fun a l => a + 2 ^ l) 0) = some g) :
    ((s.failLanes p bad).port p).NarrowedTo g ∧ (s.failLanes p bad).SentControl p 1 g s.sys.deviceId (s.lastSeq p) := by
  have hfails : ¬(!(s.port p).up || (s.port p).mode == .retraining || (s.port p).lanes &&& bad == 0) = true := by
    simp [hup, hm, hbad]
  have heq : s.failLanes p bad = (s.narrow p g).sendControl p 1 g := by
    unfold State.failLanes
    dsimp only
    rw [if_neg hfails, hg]
  have hport := s.narrow_port p g
  have hnarrow : ((s.narrow p g).port p).NarrowedTo g := by
    rw [hport]
    exact ⟨rfl, rfl, rfl⟩
  have hlast : (s.narrow p g).lastSeq p = s.lastSeq p := by
    unfold State.lastSeq
    rw [hport]
  rw [heq, ← hlast, ← (s.narrow_writes p g).sys_eq rfl]
  exact ⟨(State.sendControl_standing ..).narrowedTo hnarrow, State.sendControl_sends ..⟩

/-- The lanes of a port whose corrected bytes of an interval are over the limit, as a mask. -/
def State.overLimit (s : State) (p : Nat) : Nat :=
  ((s.port p).laneErrors.filter (fun e => decide (s.onum 0x6000 3 < e.2))).foldl (fun a e => a + 2 ^ e.1) 0

theorem State.laneInterval_eq (s : State) (p : Nat) : s.laneInterval p =
    (s.setPort p { s.port p with laneErrors := [] }).failLanes p (s.overLimit p) := rfl

/-- An interval in which no lane is over the limit: a new one starts. -/
theorem State.laneInterval_none {s : State} {p : Nat} (h : s.overLimit p = 0) :
    s.laneInterval p = s.setPort p { s.port p with laneErrors := [] } := by
  rw [State.laneInterval_eq, h]
  exact State.failLanes_none (Nat.and_zero _)

/-- Lanes over the limit narrow the port as lanes that fail do. -/
theorem State.laneInterval_narrows {s : State} {p g : Nat} (hup : (s.port p).up = true) (hm : (s.port p).mode ≠ .retraining)
    (hbad : (s.port p).lanes &&& s.overLimit p ≠ 0) (hg : narrowTo (s.port p).width (((List.range 16).filter (fun l =>
      bitAt (s.port p).lanes l && !bitAt (s.overLimit p) l)).foldl (fun a l => a + 2 ^ l) 0) = some g) :
    ((s.laneInterval p).port p).NarrowedTo g ∧ (s.laneInterval p).SentControl p 1 g s.sys.deviceId (s.lastSeq p) := by
  rw [State.laneInterval_eq]
  set u := s.setPort p { s.port p with laneErrors := [] } with hu
  have hport : u.port p = { s.port p with laneErrors := [] } := s.port_setPort_same p _
  have hlast : u.lastSeq p = s.lastSeq p := by
    unfold State.lastSeq
    rw [hport]
  rw [← hlast]
  exact State.failLanes_narrows (by rw [hport]; exact hup) (by rw [hport]; exact hm) (by rw [hport]; exact hbad)
    (by rw [hport]; exact hg)

/-- The end of a retrain at lanes that are all good. -/
theorem State.endRetrain_resumes {s : State} {p lanes : Nat} (hm : (s.port p).mode = .retraining)
    (hl : (s.port p).locked = true) (hp : 64 ≤ (s.port p).probes) (hgood : (65535 - lanes % 65536) &&& (s.port p).lanes = 0) :
    let y := (s.endRetrain p lanes).port p
    y.mode = .active ∧ y.lanes = (s.port p).lanes ∧ y.width = (s.port p).width := by
  have hst := State.retrainDone_resumes hm hl hp
  have hlanes : ((s.retrainDone p).port p).lanes = (s.port p).lanes := by
    rw [hst.get PortSt.lanes p, State.port_setPort_same]
    rfl
  have hkept : ((s.retrainDone p).port p).lanes &&& (65535 - lanes % 65536) = 0 := by rw [hlanes, Nat.land_comm, hgood]
  have hend : s.endRetrain p lanes = s.retrainDone p := (if_pos hm).trans (State.failLanes_none hkept)
  intro y
  rw [show y = (s.retrainDone p).port p from congrArg (State.port · p) hend, hlanes, hst.get PortSt.mode p,
    hst.get PortSt.width p, State.port_setPort_same]
  exact ⟨rfl, rfl, rfl⟩

end Sys2Proof.Machine
end

section
/-! SUPPORT. What a flit that decodes does at an Omuth port: what its header acknowledges, and what a CONTROL flit asks for
(R343 to R350). -/
set_option Elab.async false
namespace Sys2Proof.Machine
open Sys2Proof

/-! ## What sending leaves of the other ports -/

/-- Every port but one is as it was. -/
structure OnlyPort (p : Nat) (s t : State) : Prop where
  other : ∀ q < 4, q ≠ p → t.port q = s.port q

namespace OnlyPort
variable {p : Nat} {s t u : State}

theorem refl (s : State) : OnlyPort p s s := ⟨fun _ _ _ => rfl⟩

theorem trans (h : OnlyPort p s t) (h' : OnlyPort p t u) : OnlyPort p s u :=
  ⟨fun q hq hne => (h'.other q hq hne).trans (h.other q hq hne)⟩

theorem of_moves {l : List Field} (h : Moves l s t) (hl : l.contains .link = false := by rfl) : OnlyPort p s t :=
  ⟨fun q _ _ => h.port_eq q hl⟩

theorem ite {c : Prop} [Decidable c] (h : OnlyPort p s t) (h' : OnlyPort p s u) : OnlyPort p s (if c then t else u) := by
  split <;> assumption

theorem setPort (hp : p < 4) (s : State) (x : PortSt) : OnlyPort p s (s.setPort p x) :=
  ⟨fun _ hq hne => s.port_setPort_other hp hq hne x⟩

end OnlyPort

section
variable {p : Nat} (hp : p < 4)
include hp

theorem State.putFlit_only (s : State) (h : FlitHdr) (slots : List TxSlot) : OnlyPort p s (s.putFlit p h slots) :=
  ⟨fun _ hq hne => s.port_setPort_other hp hq hne _⟩

theorem State.pumpPort_only (s : State) (n : Nat) : OnlyPort p s (s.pumpPort p n) := by
  induction n generalizing s with
  | zero => exact .refl s
  | succ n ih =>
    unfold State.pumpPort
    extract_lets x
    split
    · exact .refl s
    split
    · refine .ite (.setPort hp s _) (.trans (.trans ?_ (State.putFlit_only hp ..)) (ih _))
      exact .setPort hp s _

theorem State.pumpAll_only (s : State) : OnlyPort p s (s.pumpAll p) := s.pumpPort_only hp _

theorem State.fecGood_only (s : State) : OnlyPort p s (s.fecGood p) := by
  unfold State.fecGood State.sendProbe
  extract_lets x u
  have hu : OnlyPort p s u := .setPort hp s _
  refine .ite (.ite (hu.trans (.trans ?_ (State.putFlit_only hp ..))) hu) (.refl s)
  exact .setPort hp u _

theorem State.countCorrected_only (s : State) (fec : List Nat) : OnlyPort p s (s.countCorrected p fec) :=
  .trans (.of_moves (s.oinc_writes ..)) (.setPort hp _ _)

end

theorem State.setPort_setPort (s : State) (p : Nat) (x y : PortSt) : (s.setPort p x).setPort p y = s.setPort p y := by
  match p with
  | 0 | 1 | 2 | _ + 3 => rfl

/-! ## The course of a port -/

/-- A port's standing without what an accepted header and the start of its latency exchanges count. -/
def PortSt.course (x : PortSt) : PortSt :=
  { x.standing with
    ackedTo := 0, resends := 0, credSeen := Vector.replicate 9 0, laneErrors := [], probeOut := 0, fecRun := 0 }

/-- What the course of a port settles is the same in ports of the same course. -/
theorem PortSt.of_course {α : Type} (f : PortSt → α) {x y : PortSt} (h : x.course = y.course)
    (hf : ∀ z : PortSt, f z.course = f z := by intro _; rfl) : f x = f y := by
  rw [← hf x, h, hf y]

theorem PortSt.NarrowedTo.of_course {x y : PortSt} {g : Nat} (h : y.course = x.course) (hx : x.NarrowedTo g) : y.NarrowedTo g :=
  ⟨(PortSt.of_course PortSt.mode h).trans hx.mode, (PortSt.of_course PortSt.lanes h).trans hx.lanes,
    (PortSt.of_course PortSt.width h).trans hx.width⟩

/-- Corrected bytes are counted for the lanes of a port. -/
theorem State.countCorrected_port (s : State) (p : Nat) (fec : List Nat) :
    ∃ l, (s.countCorrected p fec).port p = { s.port p with laneErrors := l } := by
  have hset : (s.countCorrected p fec).port p = _ := State.port_setPort_same ..
  rw [(s.oinc_writes ..).port_eq p] at hset
  exact ⟨_, hset⟩

theorem State.sendProbe_course (s : State) (p : Nat) : ((s.sendProbe p).port p).course = (s.port p).course ∧
    ((s.sendProbe p).port p).ackedTo = (s.port p).ackedTo := by
  have hport : (s.sendProbe p).port p = _ := (State.putFlit_port ..).trans (by rw [State.mapPort, State.port_setPort_same])
  rw [hport]
  exact ⟨rfl, rfl⟩

theorem State.fecGood_course (s : State) (p : Nat) : ((s.fecGood p).port p).course = (s.port p).course ∧
    ((s.fecGood p).port p).ackedTo = (s.port p).ackedTo := by
  unfold State.fecGood
  extract_lets x u
  have hu : u.port p = { x with fecRun := x.fecRun + 1 } := s.port_setPort_same p _
  split
  · split
    · obtain ⟨hcourse, hacked⟩ := u.sendProbe_course p
      rw [hcourse, hacked, hu]
      exact ⟨rfl, rfl⟩
    · rw [hu]
      exact ⟨rfl, rfl⟩
  · exact ⟨rfl, rfl⟩

theorem State.fecGood_done {s : State} {p : Nat} (h : 1024 ≤ (s.port p).fecRun) : s.fecGood p = s := by
  unfold State.fecGood
  exact if_neg (fun ⟨_, _, hrun⟩ => Nat.not_lt.mpr h hrun)

/-! ## Headers (R349, R350) -/

/-- How many flits of a replay buffer a header acknowledges. -/
def PortSt.acks (x : PortSt) (h : FlitHdr) : Nat := (h.ackSeq + 1 + 1024 - x.ackedTo) % 1024

theorem PortSt.takeReport_course (x : PortSt) (cls total : Nat) : (x.takeReport cls total).course = x.course ∧
    (x.takeReport cls total).ackedTo = x.ackedTo ∧ (x.takeReport cls total).unacked = x.unacked := by
  unfold PortSt.takeReport
  split <;> exact ⟨rfl, rfl, rfl⟩

/-- A header that asks for no resend and acknowledges what was sent: the port counts it, and sends what waits. -/
theorem State.takeHeader_counts {s : State} {p : Nat} {h : FlitHdr} (hnak : h.nak = false)
    (hn : (s.port p).acks h ≤ (s.port p).unacked.length) : ∃ y, s.takeHeader p h = (s.setPort p y).pumpAll p ∧
      y.course = (s.port p).course ∧ y.ackedTo = ((s.port p).ackedTo + (s.port p).acks h) % 1024 := by
  obtain ⟨hcourse, hacked, hbuffer⟩ := (s.port p).takeReport_course h.credClassA h.credTotalA
  obtain ⟨hcourse', hacked', hbuffer'⟩ :=
    ((s.port p).takeReport h.credClassA h.credTotalA).takeReport_course h.credClassB h.credTotalB
  unfold State.takeHeader State.takeAck_
  extract_lets u x n y v
  have hx : x = ((s.port p).takeReport h.credClassA h.credTotalA).takeReport h.credClassB h.credTotalB :=
    State.port_setPort_same ..
  have hacks : n = (s.port p).acks h := by
    dsimp only [n]
    rw [hx, hacked', hacked]
    rfl
  have hsent : ¬x.unacked.length < n := by
    rw [hacks, hx, hbuffer', hbuffer]
    exact Nat.not_lt.mpr hn
  refine ⟨y, ?_, ?_, ?_⟩
  · rw [if_neg hsent, hnak, if_neg Bool.false_ne_true]
    exact congrArg (fun w => State.pumpAll w p) (s.setPort_setPort p _ y)
  · rw [← hcourse, ← hcourse', ← hx]
    rfl
  · rw [← hacks, ← hacked, ← hacked', ← hx]

theorem State.takeHeader_course {s : State} {p : Nat} {h : FlitHdr} (hnak : h.nak = false)
    (hn : (s.port p).acks h ≤ (s.port p).unacked.length) : ((s.takeHeader p h).port p).course = (s.port p).course ∧
      ((s.takeHeader p h).port p).ackedTo = ((s.port p).ackedTo + (s.port p).acks h) % 1024 := by
  obtain ⟨y, heq, hcourse, hacked⟩ := State.takeHeader_counts hnak hn
  have hst := (s.setPort p y).pumpAll_standing p
  rw [heq, hst.get PortSt.course p, hst.get PortSt.ackedTo p, State.port_setPort_same]
  exact ⟨hcourse, hacked⟩

theorem State.takeHeader_only {s : State} {p : Nat} (hp : p < 4) {h : FlitHdr} (hnak : h.nak = false)
    (hn : (s.port p).acks h ≤ (s.port p).unacked.length) : OnlyPort p s (s.takeHeader p h) := by
  obtain ⟨y, heq, -, -⟩ := State.takeHeader_counts hnak hn
  rw [heq]
  exact .trans (.setPort hp s y) (State.pumpAll_only hp _)

/-! ## CONTROL flits (R343 to R346) -/

/-- A CONTROL flit that its port accepts: it comes from the neighbour, has a code of Table 12.4, and acknowledges what was sent. -/
structure State.TakesControl (s : State) (p : Nat) (h : FlitHdr) : Prop where
  live : (s.port p).mode ≠ .down ∧ (s.port p).mode ≠ .disabled
  control : h.flitType = 1
  code : h.code ≤ 5
  sender : h.sender = (s.port p).neighbour
  nak : h.nak = false
  acks : (s.port p).acks h ≤ (s.port p).unacked.length

/-- A port after what every CONTROL flit brings before its code is obeyed: a new width, the header, and a step to FEC lock. -/
def State.headed (s : State) (p : Nat) (h : FlitHdr) : State :=
  let t := if h.code = 1 then s.takeWidth p h.arg else s
  (if (s.port p).up then t.takeHeader p h else t).fecGood p

section
variable {s : State} {p : Nat} {h : FlitHdr} (ok : s.TakesControl p h)
include ok

theorem State.takeControl_obeys : s.takeControl p h =
    if h.code = 2 then (s.headed p h).startRetrain p
    else if h.code = 3 then ((s.headed p h).free 16).2.sendControl p 4 (h.arg + ((s.headed p h).free 16).1.toNat)
    else if h.code = 4 then (s.headed p h).takeEcho p h.arg h.seq
    else if h.code = 5 then (s.headed p h).takeLost p (h.arg % 1024)
    else s.headed p h := by
  have hlive : ¬((s.port p).mode = .down ∨ (s.port p).mode = .disabled) := not_or.mpr ok.live
  have hgood : ¬(h.flitType ≠ 1 ∨ 5 < h.code ∨ h.sender ≠ (s.port p).neighbour) := by
    simp [ok.control, ok.code, ok.sender]
  unfold State.takeControl
  dsimp only
  rw [if_neg hlive, if_neg hgood]
  rfl

theorem State.headed_course (hc : h.code ≠ 1) : ((s.headed p h).port p).course = (s.port p).course := by
  unfold State.headed
  rw [if_neg hc, (State.fecGood_course ..).1]
  split
  · exact (State.takeHeader_course ok.nak ok.acks).1
  · rfl

theorem State.headed_ackedTo (hc : h.code ≠ 1) (hup : (s.port p).up = true) :
    ((s.headed p h).port p).ackedTo = ((s.port p).ackedTo + (s.port p).acks h) % 1024 := by
  unfold State.headed
  dsimp only
  rw [if_neg hc, if_pos hup, (State.fecGood_course ..).2]
  exact (State.takeHeader_course ok.nak ok.acks).2

theorem State.headed_only (hp : p < 4) (hc : h.code ≠ 1) : OnlyPort p s (s.headed p h) := by
  unfold State.headed
  rw [if_neg hc]
  exact .trans (.ite (State.takeHeader_only hp ok.nak ok.acks) (.refl s)) (State.fecGood_only hp _)

/-- The other end's width becomes the port's. -/
theorem State.headed_narrowed (hc : h.code = 1) (hup : (s.port p).up = true) (hm : (s.port p).mode ≠ .retraining)
    (hgroup : laneGroups.contains (h.arg % 65536) = true) (hin : h.arg % 65536 &&& (s.port p).lanes = h.arg % 65536)
    (hnew : h.arg % 65536 ≠ (s.port p).lanes) : ((s.headed p h).port p).NarrowedTo (h.arg % 65536) := by
  have hwidth : s.takeWidth p h.arg = s.narrow p (h.arg % 65536) := by
    unfold State.takeWidth
    exact if_pos (by simp [hup, hm, List.contains_iff_mem.mp hgroup, hin, hnew])
  have hport := s.narrow_port p (h.arg % 65536)
  have hnarrow : ((s.narrow p (h.arg % 65536)).port p).NarrowedTo (h.arg % 65536) := by
    rw [hport]
    exact ⟨rfl, rfl, rfl⟩
  have hacks : ((s.narrow p (h.arg % 65536)).port p).acks h ≤ ((s.narrow p (h.arg % 65536)).port p).unacked.length := by
    rw [hport]
    exact ok.acks
  unfold State.headed
  dsimp only
  rw [if_pos hc, if_pos hup, hwidth]
  exact (hnarrow.of_course (State.takeHeader_course ok.nak hacks).1).of_course (State.fecGood_course ..).1

end

theorem State.headed_writes (s : State) (p : Nat) (h : FlitHdr) : Moves [.freeCount, .objs, .mem, .flash, .routes, .sched,
    .scn, .cairn, .summit, .content, .depot, .strands, .cache, .coh, .peers, .link, .hostMem, .host, .dram, .err, .mgmt, .out] s
      (s.headed p h) := by
  have hwidth : Moves [.objs, .link, .err, .mgmt, .out] s (if h.code = 1 then s.takeWidth p h.arg else s) :=
    .ite (s.takeWidth_writes ..) (.refl _ s)
  unfold State.headed
  extract_lets t
  refine .trans (.trans (hwidth.mono (.mk rfl)) ?_) ((State.fecGood_writes ..).mono (.mk rfl))
  exact .ite (t.takeHeader_writes p h) (.refl _ t)

/-! ## Latency exchanges (R343) -/

/-- The round trip that an echo ends: from the time its probe carried to now. -/
def State.trip (s : State) (arg : Nat) : Nat := (s.probeTime + 2 ^ 33 - arg % 2 ^ 33) % 2 ^ 33

/-- A port once an echo is counted. -/
def PortSt.echoed (x : PortSt) (trip : Nat) : PortSt :=
  { x with probeOut := x.probeOut - 1, probes := x.probes + 1, probeBest := some (min trip (x.probeBest.getD trip)) }

/-- A port that carries traffic after the exchanges that another state of it has counted, with half of a round trip. -/
structure PortSt.ActiveAfter (x y : PortSt) (trip : Nat) : Prop where
  mode : x.mode = .active
  probes : x.probes = y.probes
  probeBest : x.probeBest = y.probeBest
  latency : x.latency = trip / 2

section
variable {s : State} {p arg seq : Nat} (ho : (s.port p).probeOut ≠ 0)
include ho

/-- An echo before the 64th is counted, and the next probe goes out. -/
theorem State.takeEcho_probes (hn : (s.port p).probes + 1 < 64) :
    ((s.takeEcho p arg seq).port p).course = ((s.port p).echoed (s.trip arg)).course ∧
      (s.takeEcho p arg seq).SentControl p 3 s.probeTime s.sys.deviceId (s.lastSeq p) := by
  set u := s.setPort p ((s.port p).echoed (s.trip arg)) with hu
  have hport : u.port p = (s.port p).echoed (s.trip arg) := s.port_setPort_same p _
  have hprobes : s.takeEcho p arg seq = u.sendProbe p := by
    unfold State.takeEcho
    dsimp only
    rw [if_neg ho]
    exact if_pos hn
  have hcourse := (u.sendProbe_course p).1
  have hlast : (u.mapPort p (fun x => { x with probeOut := x.probeOut + 1 })).lastSeq p = s.lastSeq p := by
    unfold State.lastSeq State.mapPort
    rw [State.port_setPort_same, hport]
    rfl
  rw [hprobes, hcourse, hport, ← hlast]
  exact ⟨rfl, State.sendControl_sends ..⟩

/-- The 64th echo of a training: the port carries traffic, and its latency is half of the smallest round trip. -/
theorem State.takeEcho_activates (hn : 64 ≤ (s.port p).probes + 1) (hm : (s.port p).mode = .training) :
    ((s.takeEcho p arg seq).port p).ActiveAfter ((s.port p).echoed (s.trip arg))
      (min (s.trip arg) ((s.port p).probeBest.getD (s.trip arg))) := by
  set y : PortSt := { (s.port p).echoed (s.trip arg) with
    latency := min (s.trip arg) ((s.port p).probeBest.getD (s.trip arg)) / 2, probeOut := 0 } with hy
  have hactive : s.takeEcho p arg seq = ((s.setPort p { y.advertise with mode := .active }).pumpAll p).answerFlit p := by
    unfold State.takeEcho
    rw [hy]
    unfold State.trip PortSt.echoed
    dsimp only
    rw [if_neg ho, if_neg (Nat.not_lt.mpr hn), if_pos hm]
  have hst : SameStanding (s.setPort p { y.advertise with mode := .active }) (s.takeEcho p arg seq) :=
    hactive ▸ .trans (State.pumpAll_standing ..) (State.answerFlit_standing ..)
  have hport := s.port_setPort_same p { y.advertise with mode := .active }
  constructor
  · rw [hst.get PortSt.mode p, hport]
  · rw [hst.get PortSt.probes p, hport]
    rfl
  · rw [hst.get PortSt.probeBest p, hport]
    rfl
  · rw [hst.get PortSt.latency p, hport]
    rfl

end

/-! ## Ports that were lost (R345) -/

/-- Whether a port is another of the dimension that is down and has messages left from a SEQ on. -/
def State.lostPort (s : State) (p seq i : Nat) : Bool :=
  i != p && portDim s.sys.deviceCount i == portDim s.sys.deviceCount p && (s.port i).mode == .down &&
    !((s.port i).unsent seq).isEmpty

theorem OnlyPort.lostPort {s t : State} {p : Nat} (h : OnlyPort p s t) (hsys : t.sys = s.sys) (seq : Nat) {i : Nat} (hi : i < 4) :
    t.lostPort p seq i = s.lostPort p seq i := by
  unfold State.lostPort
  by_cases hne : i = p
  · simp [hne]
  · rw [hsys, h.other i hi hne]

/-- The first lost port gives up what it holds. -/
theorem State.takeLost_clears {s : State} {p q seq : Nat} (hp : p < 4) (hq : q < 4) (hlost : s.lostPort p seq q = true)
    (hfirst : ∀ i < q, s.lostPort p seq i = false) : ((s.takeLost p seq).port q).unacked = [] ∧
      ((s.takeLost p seq).port q).waiting = [] := by
  have hne : q ≠ p := by
    rintro rfl
    simp [State.lostPort] at hlost
  have hfind : (List.range 4).find? (s.lostPort p seq) = some q :=
    List.find?_range_eq_some.mpr ⟨hlost, List.mem_range.mpr hq, fun i hi => by rw [hfirst i hi]; rfl⟩
  have htake : s.takeLost p seq = s.moveTraffic q p seq := by
    unfold State.lostPort at hfind
    unfold State.takeLost
    rw [hfind]
  have hport : (s.moveTraffic q p seq).port q = { s.port q with unacked := [], waiting := [], txMsg := none, txRest := [] } := by
    unfold State.moveTraffic
    rw [(State.pumpAll_only hp _).other q hq hne]
    exact (State.port_setPort_other _ hp hq hne _).trans (s.port_setPort_same q _)
  rw [htake, hport]
  exact ⟨rfl, rfl⟩

/-! ## Flits that arrive (R346 to R350) -/

theorem PortSt.live_of_up {x : PortSt} (h : x.up = true) : ¬(x.mode = .down ∨ x.mode = .disabled) := by
  rintro (hm | hm) <;> simp [PortSt.up, hm] at h

/-- A flit that decodes to a CONTROL flit arrives. -/
theorem State.arriveControl_takes {s : State} {p : Nat} {b : List Byte} {fixed ws : List Nat} {h : FlitHdr}
    (hd : decodeFlit b = (fixed, some (h, ws))) (ht : h.flitType = 1)
    (hm : (s.port p).mode ≠ .down ∧ (s.port p).mode ≠ .disabled) :
    s.arriveControl p b = (s.countCorrected p fixed).takeControl p h := by
  unfold State.arriveControl
  rw [if_neg (not_or.mpr hm), hd]
  exact if_pos ht

/-- Coded bytes that do not decode arrive at a port that runs. -/
theorem State.takePayload_bad {s : State} {p : Nat} {b : List Byte} {fixed : List Nat} (hup : (s.port p).up = true)
    (hd : decodeFlit b = (fixed, none)) : s.takePayload p b = (s.countCorrected p fixed).badFlit p := by
  unfold State.takePayload
  rw [if_neg (PortSt.live_of_up hup), hd]

/-- Coded bytes that decode arrive at a port that runs. -/
theorem State.takePayload_good {s : State} {p : Nat} {b : List Byte} {fixed ws : List Nat} {h : FlitHdr}
    (hup : (s.port p).up = true) (hd : decodeFlit b = (fixed, some (h, ws))) :
    s.takePayload p b = (s.countCorrected p fixed).goodFlit p h ws := by
  unfold State.takePayload
  rw [if_neg (PortSt.live_of_up hup), hd]

theorem State.badFlit_asks {s : State} {p : Nat} (hup : (s.port p).up = true) (hm : (s.port p).mode ≠ .retraining) :
    s.badFlit p = s.askResend p := by
  unfold State.badFlit
  exact if_pos (by simp [hup, hm])

section
variable {s : State} {p : Nat} {h : FlitHdr} {ws : List Nat} (hup : (s.port p).up = true)
  (hm : (s.port p).mode ≠ .retraining) (ht : h.flitType = 0)
include hup hm ht

/-- A PAYLOAD flit out of turn is asked for again. -/
theorem State.goodFlit_asks (hseq : h.seq ≠ (s.port p).expectSeq) : s.goodFlit p h ws = s.askResend p := by
  unfold State.goodFlit
  simp [hup, hm, ht, hseq]

/-- A PAYLOAD flit in turn with no message in it: its header counts, and the expected SEQ moves on. -/
theorem State.goodFlit_accepts (hseq : h.seq = (s.port p).expectSeq) (hsender : h.sender = (s.port p).neighbour)
    (hcode : h.code = 0) (harg : h.arg = 0) (hnak : h.nak = false) (hn : (s.port p).acks h ≤ (s.port p).unacked.length)
    (hpart : (s.port p).partialSlots = []) (hfirst : h.firstMsg = 15) :
    ((s.goodFlit p h ws).port p).expectSeq = (h.seq + 1) % 1024 ∧
      ((s.goodFlit p h ws).port p).ackedTo = ((s.port p).ackedTo + (s.port p).acks h) % 1024 := by
  set u := s.mapPort p (fun x => { x with expectSeq := (h.seq + 1) % 1024, nakDue := false, owes := true }) with hu
  have hport : u.port p = { s.port p with expectSeq := (h.seq + 1) % 1024, nakDue := false, owes := true } :=
    s.port_setPort_same p _
  have hacks : (u.port p).acks h = (s.port p).acks h := by rw [hport]; rfl
  obtain ⟨hcourse, hacked⟩ := State.takeHeader_course (s := u) (p := p) hnak (by rw [hacks, hport]; exact hn)
  have hpart' : ((u.takeHeader p h).port p).partialSlots = [] := by
    rw [PortSt.of_course PortSt.partialSlots hcourse, hport, hpart]
  have hsender' : h.sender = ((u.takeHeader p h).port p).neighbour := by
    rw [PortSt.of_course PortSt.neighbour hcourse, hport, hsender]
  have htake : (u.takeHeader p h).takeFlit p h ws = u.takeHeader p h := by
    simp [State.takeFlit, PortSt.lacking, hpart', hcode, harg, ← hsender', hfirst, State.takeSlots]
  have hgood : s.goodFlit p h ws = (u.takeHeader p h).answerFlit p := by
    rw [← htake]
    unfold State.goodFlit
    simp [hup, hm, ht, ← hseq, hu]
  have hst := (u.takeHeader p h).answerFlit_standing p
  rw [hgood, hst.get PortSt.expectSeq p, hst.get PortSt.ackedTo p, hacked, hacks, PortSt.of_course PortSt.expectSeq hcourse, hport]
  exact ⟨rfl, rfl⟩

end

end Sys2Proof.Machine
end

section
/-! SUPPORT. A CONTROL flit that arrives at an Omuth port, code by code (R343 to R346, R349, R362). -/
set_option Elab.async false
namespace Sys2Proof.Machine
open Sys2Proof

/-- Coded bytes that decode to a CONTROL flit of the neighbour, which acknowledges what was sent and asks for no resend, at a port
that is neither down nor disabled. -/
structure State.Hears (s : State) (p : Nat) (b : List Byte) (fixed : List Nat) (h : FlitHdr) : Prop where
  decodes : ∃ ws, decodeFlit b = (fixed, some (h, ws))
  control : h.flitType = 1
  sender : h.sender = (s.port p).neighbour
  nak : h.nak = false
  live : (s.port p).mode ≠ .down ∧ (s.port p).mode ≠ .disabled
  acks : (s.port p).acks h ≤ (s.port p).unacked.length

/-- The state before the code of a CONTROL flit is obeyed: its corrections are counted, and it has brought its header. -/
def State.heard (s : State) (p : Nat) (fixed : List Nat) (h : FlitHdr) : State := (s.countCorrected p fixed).headed p h

theorem State.heard_writes (s : State) (p : Nat) (fixed : List Nat) (h : FlitHdr) : Moves [.freeCount, .objs, .mem, .flash,
    .routes, .sched, .scn, .cairn, .summit, .content, .depot, .strands, .cache, .coh, .peers, .link, .hostMem, .host, .dram, .err,
    .mgmt, .out] s (s.heard p fixed h) :=
  .trans ((s.countCorrected_writes ..).mono (.mk rfl)) (State.headed_writes ..)

/-- The round trip of an echo does not depend on the corrections. -/
theorem State.countCorrected_trip (s : State) (p : Nat) (fixed : List Nat) (arg : Nat) :
    (s.countCorrected p fixed).probeTime = s.probeTime ∧ (s.countCorrected p fixed).trip arg = s.trip arg := by
  unfold State.trip State.probeTime
  rw [(s.countCorrected_writes ..).now_eq rfl]
  exact ⟨rfl, rfl⟩

section
variable {s : State} {p : Nat} {b : List Byte} {fixed : List Nat} {h : FlitHdr} (hear : s.Hears p b fixed h)
include hear

theorem State.Hears.takes (hc : h.code ≤ 5) : (s.countCorrected p fixed).TakesControl p h := by
  obtain ⟨l, hport⟩ := s.countCorrected_port p fixed
  refine ⟨?_, hear.control, hc, ?_, hear.nak, ?_⟩
  · rw [hport]
    exact hear.live
  · rw [hport]
    exact hear.sender
  · rw [hport]
    exact hear.acks

theorem State.Hears.obeyed (hc : h.code ≤ 5) : s.arriveControl p b =
    if h.code = 2 then (s.heard p fixed h).startRetrain p
    else if h.code = 3 then ((s.heard p fixed h).free 16).2.sendControl p 4 (h.arg + ((s.heard p fixed h).free 16).1.toNat)
    else if h.code = 4 then (s.heard p fixed h).takeEcho p h.arg h.seq
    else if h.code = 5 then (s.heard p fixed h).takeLost p (h.arg % 1024)
    else s.heard p fixed h := by
  obtain ⟨ws, hd⟩ := hear.decodes
  rw [State.arriveControl_takes hd hear.control hear.live]
  exact State.takeControl_obeys (hear.takes hc)

theorem State.Hears.course (hc : h.code ≤ 5) (hw : h.code ≠ 1) : ((s.heard p fixed h).port p).course = (s.port p).course := by
  obtain ⟨l, hport⟩ := s.countCorrected_port p fixed
  exact (State.headed_course (hear.takes hc) hw).trans (by rw [hport]; rfl)

/-- IDLE: the header counts, and no flit is accepted by it. -/
theorem State.Hears.idle (hc : h.code = 0) (hup : (s.port p).up = true) :
    ((s.arriveControl p b).port p).ackedTo = ((s.port p).ackedTo + (s.port p).acks h) % 1024 ∧
      ((s.arriveControl p b).port p).expectSeq = (s.port p).expectSeq := by
  obtain ⟨l, hport⟩ := s.countCorrected_port p fixed
  have hup' : ((s.countCorrected p fixed).port p).up = true := by rw [hport]; exact hup
  have hobeyed : s.arriveControl p b = s.heard p fixed h := by simpa [hc] using hear.obeyed (by omega)
  have hacked := State.headed_ackedTo (hear.takes (by omega)) (by omega) hup'
  rw [hport] at hacked
  rw [hobeyed]
  exact ⟨hacked, PortSt.of_course PortSt.expectSeq (hear.course (by omega) (by omega))⟩

/-- WIDTH_CHANGE to a group of the port's lanes. -/
theorem State.Hears.width (hc : h.code = 1) (hup : (s.port p).up = true) (hm : (s.port p).mode ≠ .retraining)
    (hgroup : laneGroups.contains (h.arg % 65536) = true) (hin : h.arg % 65536 &&& (s.port p).lanes = h.arg % 65536)
    (hnew : h.arg % 65536 ≠ (s.port p).lanes) : ((s.arriveControl p b).port p).NarrowedTo (h.arg % 65536) := by
  obtain ⟨l, hport⟩ := s.countCorrected_port p fixed
  have hobeyed : s.arriveControl p b = s.heard p fixed h := by simpa [hc] using hear.obeyed (by omega)
  rw [hobeyed]
  refine State.headed_narrowed (hear.takes (by omega)) hc ?_ ?_ hgroup ?_ ?_ <;> rw [hport] <;> assumption

/-- RETRAIN at a port that carries traffic. -/
theorem State.Hears.retrain (hc : h.code = 2) (hm : (s.port p).mode = .active ∨ (s.port p).mode = .failover) (hcalm : s.Calm p) :
    ((s.arriveControl p b).port p).mode = .retraining := by
  have hcourse := hear.course (by omega) (by omega)
  have hcalm' : (s.heard p fixed h).Calm p :=
    hcalm.congr ((s.heard_writes ..).now_eq rfl) (PortSt.of_course PortSt.retrainTimes hcourse)
  rw [hear.obeyed (by omega), if_pos hc]
  rw [← PortSt.of_course PortSt.mode hcourse] at hm
  exact (State.startRetrain_retrains hm hcalm').1

/-- LATENCY_PROBE: its echo leaves with the turnaround added. -/
theorem State.Hears.probe (hc : h.code = 3) : ∃ d < 65536,
    (s.arriveControl p b).SentControl p 4 (h.arg + d) s.sys.deviceId (s.lastSeq p) := by
  have hcourse := hear.course (by omega) (by omega)
  have hlast : (s.heard p fixed h).lastSeq p = s.lastSeq p := by
    unfold State.lastSeq
    rw [PortSt.of_course PortSt.expectSeq hcourse]
  have hobeyed : s.arriveControl p b = _ := (hear.obeyed (by omega)).trans ((if_neg (by omega)).trans (if_pos hc))
  refine ⟨_, ((s.heard p fixed h).free 16).1.isLt, ?_⟩
  rw [hobeyed, ← hlast, ← (s.heard_writes p fixed h).sys_eq rfl]
  exact State.sendControl_sends ((s.heard p fixed h).free 16).2 p 4 _

/-- PORT_LOST: the first port of the dimension that is down and holds messages gives them up. -/
theorem State.Hears.lost (hp : p < 4) (hc : h.code = 5) {q : Nat} (hq : q < 4) (hlost : s.lostPort p (h.arg % 1024) q = true)
    (hfirst : ∀ i < q, s.lostPort p (h.arg % 1024) i = false) : ((s.arriveControl p b).port q).unacked = [] ∧
      ((s.arriveControl p b).port q).waiting = [] := by
  have honly : OnlyPort p s (s.heard p fixed h) :=
    (s.countCorrected_only hp fixed).trans (State.headed_only (hear.takes (by omega)) hp (by omega))
  have hsys : (s.heard p fixed h).sys = s.sys := (s.heard_writes ..).sys_eq rfl
  rw [hear.obeyed (by omega), if_neg (by omega), if_neg (by omega), if_neg (by omega), if_pos hc]
  refine State.takeLost_clears hp hq ?_ (fun i hi => ?_)
  · rw [honly.lostPort hsys _ hq, hlost]
  · rw [honly.lostPort hsys _ (hi.trans hq), hfirst i hi]

section
variable (hc : h.code = 4) (hm : (s.port p).mode = .training) (hrun : 1024 ≤ (s.port p).fecRun)
include hc hm hrun

/-- LATENCY_ECHO in a training whose FEC has locked: the port takes it as it is, but for its corrections. -/
theorem State.Hears.echoes : s.arriveControl p b = (s.countCorrected p fixed).takeEcho p h.arg h.seq := by
  obtain ⟨l, hport⟩ := s.countCorrected_port p fixed
  have hdown : ¬((s.countCorrected p fixed).port p).up = true := by
    rw [hport]
    simp [PortSt.up, hm]
  have hheard : s.heard p fixed h = s.countCorrected p fixed := by
    unfold State.heard State.headed
    dsimp only
    rw [if_neg hdown, if_neg (by omega)]
    exact State.fecGood_done (by rw [hport]; exact hrun)
  rw [hear.obeyed (by omega), if_neg (by omega), if_neg (by omega), if_pos hc, hheard]

variable (ho : (s.port p).probeOut ≠ 0)
include ho

/-- An echo before the 64th is counted, and the next probe leaves. -/
theorem State.Hears.echo_probes (hn : (s.port p).probes + 1 < 64) :
    ((s.arriveControl p b).port p).course = ((s.port p).echoed (s.trip h.arg)).course ∧
      (s.arriveControl p b).SentControl p 3 s.probeTime s.sys.deviceId (s.lastSeq p) := by
  obtain ⟨l, hport⟩ := s.countCorrected_port p fixed
  obtain ⟨htime, htrip⟩ := s.countCorrected_trip p fixed h.arg
  obtain ⟨hcourse, hsent⟩ := State.takeEcho_probes (s := s.countCorrected p fixed) (p := p) (arg := h.arg) (seq := h.seq)
    (by rw [hport]; exact ho) (by rw [hport]; exact hn)
  rw [htime, (s.countCorrected_writes ..).sys_eq rfl, State.lastSeq, hport] at hsent
  rw [htrip, hport] at hcourse
  rw [hear.echoes hc hm hrun]
  exact ⟨hcourse, hsent⟩

/-- The 64th echo makes the port active. -/
theorem State.Hears.echo_activates (hn : 64 ≤ (s.port p).probes + 1) :
    ((s.arriveControl p b).port p).ActiveAfter ((s.port p).echoed (s.trip h.arg))
      (min (s.trip h.arg) ((s.port p).probeBest.getD (s.trip h.arg))) := by
  obtain ⟨l, hport⟩ := s.countCorrected_port p fixed
  obtain ⟨-, htrip⟩ := s.countCorrected_trip p fixed h.arg
  have hactive := State.takeEcho_activates (s := s.countCorrected p fixed) (p := p) (arg := h.arg) (seq := h.seq)
    (by rw [hport]; exact ho) (by rw [hport]; exact hn) (by rw [hport]; exact hm)
  rw [htrip, hport] at hactive
  rw [hear.echoes hc hm hrun]
  exact ⟨hactive.mode, hactive.probes, hactive.probeBest, hactive.latency⟩

end

end

end Sys2Proof.Machine
end

section
/-! SUPPORT. Settling O51: the rows of the Omuth ports. -/
set_option Elab.async false
namespace Sys2Proof.Machine
open Sys2Proof

/-- A row for a port of the device runs its meaning at that port. -/
theorem row_at_port {p : Nat} (hp : p < 4) (f : Nat → State) : (.next (f (p % 4)) : Res) = .next (f p) := by
  rw [Nat.mod_eq_of_lt hp]

/-- Settles O51: each row at the port of its number, by what the operations of a port do; a port keeps its standing where messages
are sent, and a header that arrives counts before its flit does. -/
theorem linkPorts : Obligations.LinkPorts := by
  unfold Obligations.LinkPorts
  intro s p hp x sends calm
  refine ⟨?enable, ?lock, ?timeout, ?replay, ?retrain, ?done, ?switched, ?lanes, ?control, ?payload, ?nak⟩
  case enable =>
    refine fun hm => ⟨fun hd => ⟨_, row_at_port hp s.portEnable, ?_⟩, fun hd => ⟨_, row_at_port hp s.portEnable, ?_⟩⟩
    · rw [State.portEnable_disables hm hd, State.port_setPort_same]
    · rw [State.portEnable_trains hm hd, State.emit_port, State.port_setPort_same]
      exact ⟨rfl, rfl, rfl, rfl, rfl⟩
  case lock =>
    refine fun hl lanes hlanes => ⟨fun g hg => ⟨_, row_at_port hp (s.lockDone · lanes), ?_⟩,
      fun hm hg ht => ⟨_, row_at_port hp (s.lockDone · lanes), ?_⟩⟩
    · rw [State.lockDone_locks hl hlanes hg]
      exact ⟨State.port_setPort_same .., (State.setPort_writes ..).frame⟩
    · rw [State.lockDone_retries hl hlanes hm hg ht, State.emit_port, State.port_setPort_same]
      exact ⟨rfl, rfl, rfl⟩
  case timeout => exact fun hm => ⟨_, row_at_port hp s.trainingTimeout, State.trainingTimeout_down s hm⟩
  case replay =>
    refine fun hm hne => ⟨fun hn => ⟨_, row_at_port hp s.resendFrom, ?_⟩,
      fun hn hcalm => ⟨_, row_at_port hp s.resendFrom, State.resendFrom_retrains hm hne hn hcalm⟩⟩
    obtain ⟨hresends, hkept, evs, hout, hevs⟩ := State.resendFrom_resends hm hne hn
    refine ⟨hresends, hkept, ?_, fun i f hf => ?_⟩
    · rw [hout, List.length_append, hevs.length_eq]
    · obtain ⟨h, w, l, he, hflit⟩ := Resent.of_getElem? hevs hf
      exact ⟨h, w, l, by rw [hout, List.getElem?_append_right (Nat.le_add_right ..), Nat.add_sub_cancel_left, he], hflit⟩
  case retrain =>
    intro hm hcalm
    obtain ⟨hretrains, -, hout⟩ := State.startRetrain_retrains hm hcalm
    exact ⟨_, row_at_port hp s.startRetrain, hretrains, hout⟩
  case done => exact fun hm hl hprobes lanes hgood =>
    ⟨_, row_at_port hp (s.endRetrain · lanes), State.endRetrain_resumes hm hl hprobes hgood⟩
  case switched => exact fun hm => ⟨_, row_at_port hp s.widthDone, State.widthDone_active hm⟩
  case lanes =>
    intro over_
    refine ⟨fun hzero => ⟨_, row_at_port hp s.laneInterval, ?_⟩, fun lane hlane c hc hup hm hbad g hg => ?_⟩
    · rw [State.laneInterval_none hzero]
      exact ⟨State.port_setPort_same .., (State.setPort_writes ..).frame⟩
    · rcases List.mem_pair.mp hc with rfl | rfl
      · obtain ⟨hnarrow, hsent⟩ := State.failLanes_narrows hup hm hbad hg
        refine ⟨_, row_at_port hp (s.failLanes · (2 ^ (lane % 16))), ?_⟩
        rw [Nat.mod_eq_of_lt hlane]
        exact ⟨hnarrow.mode, hnarrow.lanes, hnarrow.width, hsent⟩
      · obtain ⟨hnarrow, hsent⟩ := State.laneInterval_narrows hup hm hbad hg
        exact ⟨_, row_at_port hp s.laneInterval, hnarrow.mode, hnarrow.lanes, hnarrow.width, hsent⟩
  case control =>
    intro b fixed ws h hd ht hsender hnak hdown hdisabled n hn
    have hear : s.Hears p b fixed h := ⟨⟨ws, hd⟩, ht, hsender, hnak, ⟨hdown, hdisabled⟩, hn⟩
    have hrow := row_at_port hp (s.arriveControl · b)
    refine ⟨fun hc hup => ⟨_, hrow, hear.idle hc hup⟩, fun hc hup hm hgroup hin hnew => ⟨_, hrow, ?_⟩,
      fun hc hm hcalm => ⟨_, hrow, hear.retrain hc hm hcalm⟩, fun hc => ?_, fun hc hm ho hrun => ?_,
      fun hc hup q hq hlost hfirst => ⟨_, hrow, hear.lost hp hc hq hlost hfirst⟩⟩
    · have hnarrow := hear.width hc hup hm hgroup hin hnew
      exact ⟨hnarrow.mode, hnarrow.lanes, hnarrow.width⟩
    · obtain ⟨d, hd, hsent⟩ := hear.probe hc
      exact ⟨_, d, hrow, hd, hsent⟩
    · intro trip best
      refine ⟨_, hrow, ?_⟩
      by_cases hprobes : x.probes + 1 < 64
      · obtain ⟨hcourse, hsent⟩ := hear.echo_probes hc hm hrun ho hprobes
        exact ⟨PortSt.of_course PortSt.probes hcourse, PortSt.of_course PortSt.probeBest hcourse,
          fun _ => ⟨(PortSt.of_course PortSt.mode hcourse).trans hm, hsent⟩, fun h => absurd hprobes (Nat.not_lt.mpr h)⟩
      · have hactive := hear.echo_activates hc hm hrun ho (Nat.not_lt.mp hprobes)
        exact ⟨hactive.probes, hactive.probeBest, fun h => absurd h hprobes, fun _ => ⟨hactive.mode, hactive.latency⟩⟩
  case payload =>
    intro b c fixed hup hm
    obtain ⟨l, hport⟩ := s.countCorrected_port p fixed
    have hup' : ((s.countCorrected p fixed).port p).up = true := by rw [hport]; exact hup
    have hm' : ((s.countCorrected p fixed).port p).mode ≠ .retraining := by rw [hport]; exact hm
    have hrow : exec (.payloadFlit p b c) s = .next (s.takePayload p (b ++ c)) := row_at_port hp (s.takePayload · (b ++ c))
    refine ⟨fun hd => ?_, fun h ws hd ht => ⟨fun hseq => ?_, ?_⟩⟩
    · rw [hrow, State.takePayload_bad hup hd, State.badFlit_asks hup' hm']
    · rw [hrow, State.takePayload_good hup hd, State.goodFlit_asks hup' hm' ht (by rw [hport]; exact hseq)]
    · intro n hseq hsender hcode harg hnak hn hpart hfirst
      have hgood := State.goodFlit_accepts (ws := ws) hup' hm' ht (by rw [hport]; exact hseq) (by rw [hport]; exact hsender) hcode
        harg hnak (by rw [hport]; exact hn) (by rw [hport]; exact hpart) hfirst
      rw [hport] at hgood
      rw [hrow, State.takePayload_good hup hd]
      exact ⟨_, rfl, hgood⟩
  case nak => exact fun w => row_at_port hp (s.takeNak · w)

end Sys2Proof.Machine
end

section
/-! SUPPORT. Settling O1, O3 and O5: a step is its front command's, every command ends in a next state, and reset is canonical. -/
namespace Sys2Proof.Machine
open Sys2Proof

/-! ## The step and the reset -/

/-- Settles O1: a step on a queue with a front is the front's meaning, by definition. -/
theorem stepRunsFrontCommand : Obligations.StepRunsFrontCommand := fun _ _ _ => rfl

/-- Settles O5: at reset image memory and host memory are empty. -/
theorem resetMemoryCanonical : Obligations.ResetMemoryCanonical := ⟨rfl, rfl⟩

/-! ## Every command goes on -/

/-- An outcome that is a next state. -/
def Goes (r : Res) : Prop := ∃ t, r = .next t

theorem Goes.next (t : State) : Goes (.next t) := ⟨t, rfl⟩

/-- Whatever an instruction makes of its strand (a result, a trap, a wait, a full Depot), the device goes on. -/
theorem State.strandRun_goes (s : State) (st : StrandRef) (f : StrandSt → StrandTask → State → SEff) :
    Goes (s.strandRun st f) := by
  fun_cases State.strandRun <;> exact Goes.next _

theorem State.filterRow_goes (s : State) (c : ScnCtx) (f : FilterMachine → State → FRes) : Goes (s.filterRow c f) := by
  fun_cases State.filterRow <;> exact Goes.next _

theorem State.onControl_goes (s : State) (e : Entry) (mine : Bool) (f : State → State) : Goes (s.onControl e mine f) := by
  cases mine <;> exact Goes.next _

/-- The rows of strand code go through `State.strandRun`, those of the filter machine through `State.filterRow`; some others
look for their occasion first, and all the rest answer at once. -/
theorem exec_goes (c : Instr) (s : State) : Goes (exec c s) := by
  cases c with
  | add | sub | andOp | orOp | xorOp | sll | srl | sra | slt | sltu | minOp | maxOp | minu | maxu | mul | mulh | mulhu
    | div | divu | rem | remu | clz | ctz | popc | bswap | hstep | hfin | crc32cStep | addi | andi | ori | xori | slli
    | srli | srai | slti | lui | ldpc | lb | lbu | lh | lhu | lw | lwu | ld | sb | sh | sw | sd | flw | fld | fsw |
    fsd | beq | bne | blt | bge | bltu | bgeu | jal | jalr | csrr | csrw | fadd | fsub | fmul | fdiv | fsqrt | fmin |
    fmax | fmadd | feq | flt | fle | fcvtl | fcvtf | fmvgf | fmvfg | fence | brk | eret | temit | tend | vadd | vsub |
    vand | vor | vxor | vsll | vsrl | vsra | vmul | vmin | vmax | vminu | vmaxu | vhstep | vhfin | vbcast | vfadd |
    vfsub | vfmul | vfdiv | vfmadd | vfmin | vfmax | vfsqrt | vfcvtl | vfcvtf | vcmpEq | vcmpNe | vcmpLt | vcmpLe |
    vcmpLtu | vcmpLeu | vcmpFeq | vcmpFlt | vcmpFle | vld | vldff | vst | vlds | vsts | vgather | vgatherff | vscatter
    | vsetvl | pand | por | pandn | pnot | ffmask | fffill | ffput | pcnt | ptrue | ffcnt | vredadd | vredmin |
    vredmax | vext | vcompress | vmv | vfredadd | fetchFault => exact State.strandRun_goes ..
  | filterLdCol | filterEq | filterNe | filterLt | filterLe | filterGt | filterGe | filterBetween | filterIsNull |
    filterInList | filterInCairn | prefixMatch | suffixMatch | filterAnd | filterOr | filterNot | filterIsTrue |
    filterIsFalse | filterIsUnknown | filterAdd | filterSub | filterMul | filterDiv | filterMod | filterNeg |
    filterCast | filterHash64 | filterCrc32c => dsimp only [exec]; exact State.filterRow_goes ..
  | dmaStop | dmaResume | dmaFlush => exact State.onControl_goes ..
  | tick => rw [exec_tick]; fun_cases execTick <;> exact Goes.next _
  | heartbeatSend => rw [exec_heartbeatSend]; fun_cases execHeartbeatSend <;> exact Goes.next _
  | taskDone => rw [exec_taskDone]; fun_cases execTaskDone <;> exact Goes.next _
  | joinSeal => rw [exec_joinSeal]; fun_cases execJoinSeal <;> exact Goes.next _
  | summitMerge => rw [exec_summitMerge]; fun_cases execSummitMerge <;> exact Goes.next _
  | publicationDone => rw [exec_publicationDone]; fun_cases execPublicationDone <;> exact Goes.next _
  | publicationResume => rw [exec_publicationResume]; fun_cases execPublicationResume <;> exact Goes.next _
  | msixCoalesceTimeout => rw [exec_msixCoalesceTimeout]; fun_cases execMsixCoalesceTimeout <;> exact Goes.next _
  | wqStallTimeout => rw [exec_wqStallTimeout]; fun_cases execWqStallTimeout <;> exact Goes.next _
  | reservedEncoding st word => exact (apply_ite Goes ..).mpr (by split <;> [exact Goes.next _; exact State.strandRun_goes ..])
  | storeRefused => rw [exec_storeRefused]; fun_cases execStoreRefused <;> exact Goes.next _
  | dimmTempSample => rw [exec_dimmTempSample]; fun_cases execDimmTempSample <;> exact Goes.next _
  | scrubStep => rw [exec_scrubStep]; fun_cases execScrubStep <;> exact Goes.next _
  | _ => exact Goes.next _

/-- Settles O3: each command goes on, within its row of the frame table; the queue is in no row. -/
theorem everyCommandCompletes : Obligations.EveryCommandCompletes := by
  intro c s
  obtain ⟨t, ht⟩ := exec_goes c s
  have hmoves := (exec_writes c s).get ht
  exact ⟨t, ht, hmoves.frame, hmoves.pending_eq (by cases c <;> rfl)⟩

end Sys2Proof.Machine
end

section
/-! SUPPORT. Settling O37: in bivouac a vector that nothing masks is held back all the same (R493; log 70). -/
namespace Sys2Proof.Machine
open Sys2Proof

/-- A tenant's completion queue with a record not yet signalled. -/
def unsignalledQueue : CQ := { CQ.fresh 0 6 0 0 0 0 0 with unsignalled := 1 }

/-- A device in bivouac whose tenant 0 masks no vector and has a record not yet signalled for vector 0. -/
def quietBivouac : State :=
  { State.reset with
    sys := { State.reset.sys with state := .bivouac }
    host := { State.reset.host with
      fns := [(0, { FnSt.reset with msixTable := [] })]
      cqs := [(qkey 0 0, unsignalledQueue)] } }

/-- The timeout signals nothing: bivouac holds the vector back. -/
theorem quietBivouac_silent : (quietBivouac.next (.msixCoalesceTimeout 0 0)).out = [] := by decide +kernel

/-- Refutes O37: in bivouac an unmasked vector other than 63 is not signalled when its time is up, but pending. -/
theorem not_queueWork : ¬ Obligations.QueueWork := by
  intro h
  obtain ⟨hdoors, -⟩ := h
  obtain ⟨-, -, hvector, -⟩ := hdoors quietBivouac 0 0 0 (by decide +kernel) rfl
  obtain ⟨u, c, hexec, -, -, hsignal⟩ := hvector unsignalledQueue rfl (by decide)
  rw [if_neg (by decide)] at hsignal
  rw [← State.next_eq hexec, quietBivouac_silent] at hsignal
  cases hsignal

end Sys2Proof.Machine
end

section
/-! SUPPORT. Settling O42 and O43: a reset of a tenant keeps the host's links and the resets of the others, and open routes are
asked to end. -/
namespace Sys2Proof.Machine
open Sys2Proof

/-! ## What posting a record keeps -/

/-- A relation that posting keeps: of states and their successors, it holds across each operation that posts a record. -/
structure PostingKeeps (R : State → State → Prop) : Prop where
  refl : ∀ s, R s s
  trans : ∀ {s t u}, R s t → R t u → R s u
  hostWrite : ∀ s t a bs, R s (s.hostWrite t a bs)
  putCq : ∀ s t q c, R s (s.putCq t q c)
  signal : ∀ s t v, R s (s.signal t v)
  closeRoute : ∀ s k, R s (s.closeRoute k)

namespace PostingKeeps
variable {R : State → State → Prop}

theorem ite {p : Prop} [Decidable p] {s t u : State} (ht : R s t) (hu : R s u) :
    R s (if p then t else u) := by
  split <;> assumption

theorem postOne (h : PostingKeeps R) (s : State) (t q : Nat) (cq : CQ) (c : Completion) (rest : List Completion) :
    R s (s.postOne t q cq c rest) := by
  unfold State.postOne
  extract_lets size phase a tail b n fire d e
  have hb : R s b := h.trans (h.hostWrite ..) (h.hostWrite ..)
  have hd : R s d := h.trans hb (h.putCq ..)
  have he : R s e := ite (h.trans hd (h.signal ..)) hd
  split
  · exact h.trans he (h.closeRoute ..)
  · exact he

theorem postDue (h : PostingKeeps R) (s : State) (t q n : Nat) : R s (s.postDue t q n) := by
  induction n generalizing s with
  | zero => exact h.refl s
  | succ n ih =>
    unfold State.postDue
    refine ite (h.refl s) ?_
    split
    · exact h.refl s
    · split
      · exact h.refl s
      · exact ite (h.refl s) (h.trans (h.postOne ..) (ih _))

theorem complete (h : PostingKeeps R) (s : State) (t q : Nat) (c : Completion) : R s (s.complete t q c) := by
  unfold State.complete
  split
  · split
    · exact h.closeRoute ..
    · exact h.refl s
  · exact h.trans (h.putCq ..) (h.postDue ..)

theorem foldl (h : PostingKeeps R) {α : Type} {f : State → α → State} (hf : ∀ s a, R s (f s a)) (l : List α) (s : State) :
    R s (l.foldl f s) := by
  induction l generalizing s with
  | nil => exact h.refl s
  | cons a l ih => exact h.trans (hf s a) (ih _)
end PostingKeeps

/-! ## Resets go on -/

/-- The reset of a function goes on; links and pins are as they were. -/
structure KeepsResets (s u : State) : Prop where
  resetting : ∀ x, s.resetting x = true → u.resetting x = true
  links : u.host.linksUp = s.host.linksUp
  sys : u.sys = s.sys

namespace KeepsResets
variable {s t u : State}

theorem of_fns (hf : u.host.fns = s.host.fns) (hl : u.host.linksUp = s.host.linksUp) (hs : u.sys = s.sys) : KeepsResets s u :=
  ⟨fun x hx => by rw [State.resetting, State.fn, hf]; exact hx, hl, hs⟩

theorem refl (s : State) : KeepsResets s s := of_fns rfl rfl rfl

theorem trans (h : KeepsResets s t) (h' : KeepsResets t u) : KeepsResets s u :=
  ⟨fun x hx => h'.resetting x (h.resetting x hx), h'.links.trans h.links, h'.sys.trans h.sys⟩

theorem of_moves {l : List Field} (h : Moves l s t) (hh : l.contains .host = false := by rfl)
    (hs : l.contains .sys = false := by rfl) : KeepsResets s t :=
  have hhost : ({ t.host with mem := [] } : HostSt) = { s.host with mem := [] } := h.keeps .host hh
  of_fns (congrArg HostSt.fns hhost :) (congrArg HostSt.linksUp hhost :) (h.sys_eq hs)

theorem mapFn (s : State) (t : Nat) {g : FnSt → FnSt}
    (hg : (s.fn t).resetting.isSome = true → (g (s.fn t)).resetting.isSome = true) : KeepsResets s (s.mapFn t g) := by
  refine ⟨fun x hx => ?_, rfl, rfl⟩
  by_cases hxt : x = t
  · subst hxt
    rw [State.resetting, State.mapFn_fn]
    exact hg hx
  · rw [State.resetting, State.mapFn_fn_other _ _ hxt]
    exact hx
end KeepsResets

theorem State.signal_keepsResets (s : State) (t v : Nat) : KeepsResets s (s.signal t v) := by
  unfold State.signal
  split
  · exact .refl s
  · split
    · exact .mapFn s t (by split <;> exact id)
    · exact .of_fns rfl rfl rfl

theorem keepsResets_posting : PostingKeeps KeepsResets where
  refl := .refl
  trans := .trans
  hostWrite s t a bs := .of_moves (State.hostWrite_writes s t a bs)
  putCq _ _ _ _ := .of_fns rfl rfl rfl
  signal := State.signal_keepsResets
  closeRoute s k := .of_moves (State.closeRoute_writes s k)

theorem State.stopCairn_keepsResets (s : State) (t : Nat) : KeepsResets s (s.stopCairn t) := by
  unfold State.stopCairn
  split
  · extract_lets _ _ a
    have ha : KeepsResets s a := .of_fns rfl rfl rfl
    split
    · exact ha.trans (keepsResets_posting.complete ..)
    · exact ha
  · exact .of_fns rfl rfl rfl

theorem State.tenantSweep_keepsResets (s : State) (t : Nat) : KeepsResets s (s.tenantSweep t) := by
  unfold State.tenantSweep
  extract_lets flr a b mine c _ _ _ d e f _ g _ i
  have ha : KeepsResets s a := PostingKeeps.ite (.refl s) (s.stopCairn_keepsResets t)
  have hb : KeepsResets a b := keepsResets_posting.foldl (fun s x => .of_moves (State.dropTable_writes s x)) ..
  have hc : KeepsResets b c := keepsResets_posting.foldl (fun s x => .of_moves (State.freeObj_writes s x)) ..
  have he : KeepsResets c e := .of_fns rfl rfl rfl
  have hf : KeepsResets e f := keepsResets_posting.foldl (fun s x => .of_moves (State.closeRoute_writes s x)) ..
  have hi : KeepsResets e i := PostingKeeps.ite (hf.trans (.of_fns rfl rfl rfl)) (.refl e)
  exact (((ha.trans hb).trans hc).trans (he.trans hi)).trans (.mapFn i t id)

theorem State.resetEngines_keepsResets (s : State) (t : Nat) (post : Bool) : KeepsResets s (s.resetEngines t post) := by
  unfold State.resetEngines
  extract_lets l mine _ a b
  have ha : KeepsResets s a := .of_fns rfl rfl rfl
  have hab : KeepsResets a b := .of_moves (State.releaseHeld_writes a)
  have hb := ha.trans hab
  exact PostingKeeps.ite (hb.trans (keepsResets_posting.foldl (fun s x => keepsResets_posting.complete ..) ..)) hb

theorem State.clearMailbox_keepsResets (s : State) (t : Nat) : KeepsResets s (s.clearMailbox t) :=
  (KeepsResets.mapFn s t (g := fun f => { f with mbRequest := [], mbResponse := [], mbDone := false, mbBusy := false }) id).trans
    (.of_fns rfl rfl rfl)

theorem State.widenReset_resets (s : State) (t : Nat) : KeepsResets s (s.widenReset t) ∧ (s.widenReset t).resetting t = true := by
  unfold State.widenReset
  extract_lets a
  have ha : KeepsResets s a := (s.clearMailbox_keepsResets t).trans (.mapFn _ t fun _ => rfl)
  have hat : a.resetting t = true := by simp [a, State.resetting]
  split
  · have hsweep := a.tenantSweep_keepsResets t
    exact ⟨ha.trans hsweep, hsweep.resetting t hat⟩
  · exact ⟨ha, hat⟩

/-- A reset of one function leaves those of the others, and sets its own. -/
theorem State.startReset_resets (s : State) (t : Nat) (kind : ResetKind) :
    KeepsResets s (s.startReset t kind) ∧ (s.startReset t kind).resetting t = true := by
  unfold State.startReset
  split
  next => exact s.widenReset_resets t
  next hsome _ => exact ⟨.refl s, by rw [State.resetting, hsome]; rfl⟩
  next =>
    extract_lets a b tick c d
    have ha : KeepsResets s a := s.resetEngines_keepsResets t _
    have hb : KeepsResets a b := PostingKeeps.ite (a.clearMailbox_keepsResets t) (.refl a)
    have hc : KeepsResets b c := .mapFn b t fun _ => rfl
    have hd : KeepsResets c d := keepsResets_posting.foldl
      (fun s r => PostingKeeps.ite (.of_moves (State.askAbort_writes ..)) (.refl s)) ..
    have hct : c.resetting t = true := by simp [c, State.resetting]
    have hsd := ((ha.trans hb).trans hc).trans hd
    split
    · exact ⟨hsd, hd.resetting t hct⟩
    · have hsweep := d.tenantSweep_keepsResets t
      exact ⟨hsd.trans hsweep, hsweep.resetting t (hd.resetting t hct)⟩

theorem State.startResets_resets (l : List Nat) (s : State) :
    KeepsResets s (l.foldl (fun s t => s.startReset t .function) s) ∧
      ∀ t ∈ l, (l.foldl (fun s t => s.startReset t .function) s).resetting t = true := by
  induction l generalizing s with
  | nil => exact ⟨.refl s, by simp⟩
  | cons x l ih =>
    obtain ⟨hkeep, hself⟩ := s.startReset_resets x .function
    obtain ⟨hrest, hothers⟩ := ih (s.startReset x .function)
    refine ⟨hkeep.trans hrest, fun t ht => ?_⟩
    rcases List.mem_cons.mp ht with rfl | ht
    · exact hrest.resetting _ hself
    · exact hothers t ht

/-! ## The host ports (O43) -/

/-- What the function numbering and the ports of tenants depend on. -/
theorem State.functions_congr {s t : State} (ho : t.objs = s.objs) (hf : t.host.fixed = s.host.fixed) :
    t.functions = s.functions := by
  simp only [State.functions, State.functionsNow, State.linkCount, State.onum_congr ho, hf]

theorem State.tenantOk_congr {s t : State} (ho : t.objs = s.objs) (hf : t.host.fixed = s.host.fixed)
    (hv : t.host.numVfs = s.host.numVfs) (x : Nat) : t.tenantOk x = s.tenantOk x := by
  have henabled : t.fnEnabled = s.fnEnabled := funext fun f => by simp only [State.fnEnabled, hv]
  simp only [State.tenantOk, State.functions_congr ho hf, henabled]

theorem State.tenantPort_congr {s t : State} (ho : t.objs = s.objs) (hf : t.host.fixed = s.host.fixed) (x : Nat) :
    t.tenantPort x = s.tenantPort x := by
  simp only [State.tenantPort, State.functions_congr ho hf]

theorem State.tenantOk_lt {s : State} {t : Nat} (h : s.tenantOk t = true) : t < 32 :=
  of_decide_eq_true (Bool.and_eq_true_iff.mp h).1

theorem State.setPerst_perst (s : State) (h : Nat) (high : Bool) : (s.setPerst h high).perst h = high := by
  unfold State.perst State.setPerst
  split <;> rfl

theorem State.setPerst_phase (s : State) (h : Nat) (high : Bool) : (s.setPerst h high).sys.phase = s.sys.phase := by
  dsimp only [State.setPerst]
  split <;> rfl

/-- PERST_N of a port: its links are down, and each of its functions is in reset. -/
theorem hostPortReset_resets (s : State) {h : Nat} (hh : h < 2) :
    ∃ u, exec (.hostPortReset h) s = .next u ∧ u.perst h = false ∧ (∀ l ∈ u.host.linksUp, l / 4 ≠ h) ∧
      ∀ t, s.tenantOk t = true → s.tenantPort t = h → u.resetting t = true := by
  refine ⟨s.hostPortReset h, by rw [exec_hostPortReset, execHostPortReset, Nat.mod_eq_of_lt hh], ?_⟩
  unfold State.hostPortReset
  extract_lets low _ down idle
  have hsys : idle.sys = low.sys := by dsimp only [idle]; split <;> rfl
  have hlinks : idle.host.linksUp = s.host.linksUp.filter (fun l => l / 4 != h) := by dsimp only [idle]; split <;> rfl
  have hok : ∀ t, idle.tenantOk t = s.tenantOk t :=
    State.tenantOk_congr (by dsimp only [idle]; split <;> rfl) (by dsimp only [idle]; split <;> rfl)
      (by dsimp only [idle]; split <;> rfl)
  have hport : ∀ t, idle.tenantPort t = s.tenantPort t :=
    State.tenantPort_congr (by dsimp only [idle]; split <;> rfl) (by dsimp only [idle]; split <;> rfl)
  obtain ⟨hkeep, hall⟩ := State.startResets_resets
    ((List.range 32).filter (fun t => idle.tenantOk t && idle.tenantPort t == h)) idle
  refine ⟨?_, fun l hl => ?_, fun t ht hp => hall t ?_⟩
  · rw [State.perst, hkeep.sys, hsys]
    exact s.setPerst_perst h false
  · rw [hkeep.links, hlinks] at hl
    simpa using (List.mem_filter.mp hl).2
  · refine List.mem_filter.mpr ⟨List.mem_range.mpr (State.tenantOk_lt ht), ?_⟩
    rw [hok, hport, ht, hp, beq_self_eq_true, Bool.and_self]

theorem perstNRelease_trains (s : State) {h : Nat} (hh : h < 2) (hlow : s.perst h = false)
    (hearly : s.host.perstEarly.contains h = false) (hrst : s.sys.rstN = true) (hready : s.sys.phase = .ready) :
    ∃ u, exec (.perstNRelease h) s = .next u ∧ u.perst h = true ∧ (∀ l ∈ s.portLinks h, l ∈ u.host.linksUp) ∧
      u.out = s.out ++ [.configServed h] := by
  have hexec : s.perstRelease h = (s.setPerst h true).trainHost h := by
    rw [State.perstRelease, hlow, hearly, hrst, hready]
    rfl
  have hphase : (s.setPerst h true).sys.phase = .ready := (s.setPerst_phase h true).trans hready
  refine ⟨(s.setPerst h true).trainHost h, by rw [exec_perstNRelease, execPerstNRelease, Nat.mod_eq_of_lt hh, hexec], ?_⟩
  unfold State.trainHost
  extract_lets _ up
  refine ⟨s.setPerst_perst h true, fun l hl => List.mem_append_right _ hl, ?_⟩
  rw [show up.sys.phase = .ready from hphase, if_pos rfl]
  rfl

/-- A malformed TLP is counted, reported to the host and recorded. -/
theorem malformedTlp_reports (s : State) {h k : Nat} (hh : h < 2) (hk : k < 4) :
    ∃ u, exec (.malformedTlp h k) s = .next u ∧ .aer h k ∈ u.out ∧
      u.onum (pobj 0x6080 h) 5 = min (2 ^ 64 - 1) (s.onum (pobj 0x6080 h) 5 + 1) ∧
      u.err.nextSeq = (s.err.nextSeq + 1) % 65536 := by
  let a := (s.hostViolation h).emit (.aer h k)
  have hcount : (s.hostViolation h).onum (pobj 0x6080 h) 5 = min (2 ^ 64 - 1) (s.onum (pobj 0x6080 h) 5 + 1) := by
    have hrow : ∃ r, objRow? (pobj 0x6080 h) 5 = some r ∧ r.ty.bounds.2.toNat = 2 ^ 64 - 1 := by
      obtain rfl | rfl : h = 0 ∨ h = 1 := by omega
      · exact ⟨_, rfl, rfl⟩
      · exact ⟨_, rfl, rfl⟩
    obtain ⟨r, hr, hmax⟩ := hrow
    rw [State.hostViolation, s.onum_oinc_same _ _ _ hr, hmax]
  have hmember : okey (pobj 0x6080 h) 5 ≠ okey 0x5200 3 := by
    simp only [okey, pobj]
    omega
  refine ⟨a.corrected 0x0007 (pobj 0x6080 h) 5, ?_, ?_, ?_, ?_⟩
  · rw [exec_malformedTlp, execMalformedTlp, Nat.mod_eq_of_lt hh, Nat.mod_eq_of_lt hk]
  · exact (a.out_prefix_raise _).subset (by simp [a])
  · exact (a.raise_onum_device _ rfl hmember).trans hcount
  · rw [State.corrected, a.raise_nextSeq]
    rfl

/-- Another state of the host is in the frame of the host and its memory. -/
theorem State.setHost_frame (s : State) (h : HostSt) : Writes [.hostMem, .host] s { s with host := h } := by
  refine .mk fun f hf => ?_
  cases f with
  | hostMem | host => exact absurd (by simp) hf
  | _ => rfl

/-- What the host answers to a device read. -/
theorem hostReadCompletion_stores (s : State) {t : Nat} (a : Nat) (b : List Byte) (hok : s.tenantOk t = true)
    (hspeaks : s.fnSilent t = false) :
    ∃ u, exec (.hostReadCompletion t a (.data b)) s = .next u ∧
      (∀ i < b.length, some (u.host.mem.read (hostKey t a + i)) = b[i]?) ∧
      (∀ x, x < hostKey t a ∨ hostKey t a + b.length ≤ x → u.host.mem.read x = s.host.mem.read x) ∧
      Writes [.hostMem, .host] s u := by
  have hexec : ∃ host, exec (.hostReadCompletion t a (.data b)) s = .next { s with host := host } ∧
      host.mem = s.host.mem.writeN (hostKey t a) b := by
    rw [exec_hostReadCompletion, execHostReadCompletion, State.hostCompletion.eq_def, hok, hspeaks]
    exact ⟨_, rfl, rfl⟩
  obtain ⟨host, hu, hmem⟩ := hexec
  refine ⟨_, hu, fun i hi => ?_, fun x hx => ?_, s.setHost_frame host⟩
  · rw [hmem, Memory.read_writeN_in _ _ _ _ hi, List.getElem?_eq_getElem hi]
  · rw [hmem, Memory.read_writeN_out _ _ _ _ hx]

theorem hostReadCompletion_fails (s : State) {t : Nat} (a n : Nat) (hok : s.tenantOk t = true) (hspeaks : s.fnSilent t = false)
    {p : HostReadResult × Nat} (hp : p ∈ ([(.unsupported n, stBusError), (.aborted n, stBusError), (.timeout n, stBusError),
      (.poisoned n, stPoisonRead)] : List (HostReadResult × Nat))) :
    ∃ u, exec (.hostReadCompletion t a p.1) s = .next u ∧ u.host.errors = s.host.errors ++ [(t, a, n, p.2)] ∧
      u.host.mem = s.host.mem := by
  have hexec : exec (.hostReadCompletion t a p.1) s = .next (s.hostFails t a n p.2) := by
    rw [exec_hostReadCompletion, execHostReadCompletion, State.hostCompletion.eq_def, hok, hspeaks]
    simp only [List.mem_cons, List.not_mem_nil, or_false] at hp
    rcases hp with rfl | rfl | rfl | rfl <;> rfl
  refine ⟨_, hexec, ?_, ?_⟩
  · rw [State.hostFails, State.hostViolation, State.oinc_host]
  · rw [State.hostFails, State.hostViolation, State.oinc_host]

/-- Settles O43: pins, malformed packets and read completions, row by row. -/
theorem hostPorts : Obligations.HostPorts := by
  intro s h hh
  exact ⟨hostPortReset_resets s hh, perstNRelease_trains s hh, fun k hk => malformedTlp_reports s hh hk,
    fun t a hok hspeaks => ⟨fun b _ => hostReadCompletion_stores s a b hok hspeaks,
      fun n _ hp => hostReadCompletion_fails s a n hok hspeaks hp⟩⟩

/-! ## A reset asks its tenant's open routes to end (O42) -/

/-- Routes whose final record is not due stay as they are. -/
def StaysOpen (s t : State) : Prop := ∀ r ∈ s.routes, r.finalDue = false → r ∈ t.routes

theorem StaysOpen.of_moves {l : List Field} {s t : State} (h : Moves l s t) (hl : l.contains .routes = false := by rfl) :
    StaysOpen s t :=
  fun _ hr _ => h.routes_eq hl ▸ hr

theorem State.closeRoute_staysOpen (s : State) (k : RouteKey) : StaysOpen s (s.closeRoute k) := by
  intro r hr hd
  unfold State.closeRoute
  split
  · exact List.mem_filter.mpr ⟨hr, by simp [hd]⟩
  · exact hr

theorem staysOpen_posting : PostingKeeps StaysOpen where
  refl _ _ hr _ := hr
  trans h h' r hr hd := h' r (h r hr hd) hd
  hostWrite s t a bs := .of_moves (State.hostWrite_writes s t a bs)
  putCq s t q c := .of_moves (State.putCq_writes s t q c)
  signal s t v := .of_moves (State.signal_writes s t v)
  closeRoute := State.closeRoute_staysOpen

theorem State.resetEngines_staysOpen (s : State) (t : Nat) (post : Bool) : StaysOpen s (s.resetEngines t post) := by
  unfold State.resetEngines
  extract_lets l mine _ a b
  have hb : StaysOpen s b := fun r hr _ => (State.releaseHeld_writes a).routes_eq rfl ▸ hr
  have hposted : StaysOpen b (l.foldl (fun s x => s.postEngine x stTenantReset 0 0 none) b) :=
    staysOpen_posting.foldl (fun s x => staysOpen_posting.complete s _ _ _) l b
  exact PostingKeeps.ite (fun r hr hd => hposted r (hb r hr hd) hd) hb

/-- The digest contexts of a tenant go with its engine work. -/
theorem State.resetEngines_contexts (s : State) (t : Nat) (post : Bool) :
    ∀ c ∈ (s.resetEngines t post).eng.contexts, c.2.tenant ≠ t := by
  unfold State.resetEngines
  extract_lets l mine _ a b
  have hb : b.eng = a.eng := (State.releaseHeld_writes a).eng_eq rfl
  have hfold : Moves [.routes, .cairn, .hostMem, .host, .out] b (l.foldl (fun s x => s.postEngine x stTenantReset 0 0 none) b) :=
    Moves.foldl l (fun s x => State.postEngine_writes ..) (.refl _ b)
  intro c hc
  have hmem : c ∈ a.eng.contexts := by
    split at hc
    · rwa [hfold.eng_eq rfl, hb] at hc
    · rwa [hb] at hc
  simpa using (List.mem_filter.mp hmem).2

/-- Routes keep their keys and what they were asked. -/
def AsksMore (s t : State) : Prop := ∀ r ∈ s.routes, ∃ r' ∈ t.routes, r'.key = r.key ∧ r.aborts ⊆ r'.aborts

theorem AsksMore.trans {s t u : State} (h : AsksMore s t) (h' : AsksMore t u) : AsksMore s u := by
  intro r hr
  obtain ⟨r1, hr1, hk1, ha1⟩ := h r hr
  obtain ⟨r2, hr2, hk2, ha2⟩ := h' r1 hr1
  exact ⟨r2, hr2, hk2.trans hk1, List.Subset.trans ha1 ha2⟩

theorem State.askAbort_asksMore (s : State) (k : RouteKey) (status : Nat) : AsksMore s (s.askAbort k status) := by
  intro r hr
  refine ⟨_, List.mem_map_of_mem hr, ?_, ?_⟩
  · split <;> rfl
  · split
    · exact List.subset_append_left ..
    · exact List.Subset.refl _

theorem State.askAbort_asks (s : State) {r : Route} (hr : r ∈ s.routes) (status : Nat) :
    ∃ r' ∈ (s.askAbort r.key status).routes, r'.key = r.key ∧ (status, s.abortTick) ∈ r'.aborts :=
  ⟨_, List.mem_map_of_mem hr, by simp, by simp⟩

/-- What `State.startReset` does for each route in turn. -/
def State.askReset (t : Nat) (s : State) (r : Route) : State :=
  if r.key.tenant = t ∧ s.isHome r.key = true ∧ r.finalDue = false then s.askAbort r.key stTenantReset else s

theorem State.askReset_writes (t : Nat) (s : State) (r : Route) : Moves [.routes] s (s.askReset t r) :=
  .ite (State.askAbort_writes ..) (.refl ..)

theorem State.askResets_writes (t : Nat) (l : List Route) (s : State) : Moves [.routes] s (l.foldl (State.askReset t) s) :=
  Moves.foldl l (State.askReset_writes t) (.refl _ s)

theorem State.askReset_asksMore (t : Nat) (s : State) (r : Route) : AsksMore s (s.askReset t r) := by
  unfold State.askReset
  split
  · exact s.askAbort_asksMore r.key stTenantReset
  · exact fun r hr => ⟨r, hr, rfl, List.Subset.refl _⟩

theorem State.askResets_asksMore (t : Nat) (l : List Route) (s : State) : AsksMore s (l.foldl (State.askReset t) s) := by
  induction l generalizing s with
  | nil => exact fun r hr => ⟨r, hr, rfl, List.Subset.refl _⟩
  | cons x l ih => exact (s.askReset_asksMore t x).trans (ih _)

theorem State.askResets_asks (t : Nat) (l : List Route) (s : State) {r : Route} (hl : r ∈ l)
    (hr : ∃ r' ∈ s.routes, r'.key = r.key)    (ht : r.key.tenant = t) (hhome : s.isHome r.key = true) (hd : r.finalDue = false) :
    ∃ r' ∈ (l.foldl (State.askReset t) s).routes, r'.key = r.key ∧ (stTenantReset, s.abortTick) ∈ r'.aborts := by
  induction l generalizing s with
  | nil => cases hl
  | cons x l ih =>
    have hmoves := s.askReset_writes t x
    rcases List.mem_cons.mp hl with rfl | hl
    · obtain ⟨r0, hr0, hk0⟩ := hr
      have hask : s.askReset t r = s.askAbort r0.key stTenantReset := by rw [State.askReset, if_pos ⟨ht, hhome, hd⟩, hk0]
      obtain ⟨r1, hr1, hk1, ha1⟩ := s.askAbort_asks hr0 stTenantReset
      rw [List.foldl_cons, hask]
      obtain ⟨r2, hr2, hk2, ha2⟩ := State.askResets_asksMore t l _ r1 hr1
      exact ⟨r2, hr2, (hk2.trans hk1).trans hk0, ha2 ha1⟩
    · obtain ⟨r0, hr0, hk0⟩ := hr
      obtain ⟨r1, hr1, hk1, -⟩ := s.askReset_asksMore t x r0 hr0
      have hhome' : (s.askReset t x).isHome r.key = true := by rw [State.isHome, hmoves.sys_eq rfl]; exact hhome
      have htick : (s.askReset t x).abortTick = s.abortTick := by rw [State.abortTick, hmoves.pitch_eq rfl]; rfl
      exact htick ▸ ih (s.askReset t x) hl ⟨r1, hr1, hk1.trans hk0⟩ hhome'

/-- A function's record when its reset has started. -/
def FnSt.inReset (f : FnSt) (kind : ResetKind) (tick : Nat) : FnSt :=
  { f with resetting := some kind, resetDone := false, resetTick := tick }

/-- The step of `State.startReset` between the engines and the routes: the function's record says that its reset runs. -/
def State.markReset (s : State) (t : Nat) (kind : ResetKind) : State :=
  (if kind = .function then s.clearMailbox t else s).mapFn t (fun f => f.inReset kind s.abortTick)

theorem State.markReset_writes (s : State) (t : Nat) (kind : ResetKind) : Moves [.host, .mgmt] s (s.markReset t kind) :=
  have hcleared : Moves [.host, .mgmt] s (if kind = .function then s.clearMailbox t else s) :=
    .ite (State.clearMailbox_writes ..) (.refl ..)
  hcleared.trans ((State.mapFn_writes ..).mono (.mk rfl))

theorem State.markReset_fn (s : State) (t : Nat) (kind : ResetKind) :
    let f := (s.markReset t kind).fn t
    f.resetting = some kind ∧ f.resetDone = false ∧
      (kind = .function → f.mbRequest = [] ∧ f.mbResponse = [] ∧ f.mbBusy = false) := by
  intro f
  have hf : f = _ := State.mapFn_fn ..
  rw [hf]
  refine ⟨rfl, rfl, fun hk => ?_⟩
  have hcleared : (s.clearMailbox t).fn t = { s.fn t with mbRequest := [], mbResponse := [], mbDone := false, mbBusy := false } :=
    s.setFn_fn t _
  rw [if_pos hk, hcleared]
  exact ⟨rfl, rfl, rfl⟩

theorem State.startReset_new (s : State) {t : Nat} (kind : ResetKind) (hnone : (s.fn t).resetting = none)
    (hrun : s.pitch.running = true) {c : State} (hc : c = (s.resetEngines t (kind == .management)).markReset t kind) :
    s.startReset t kind = c.routes.foldl (State.askReset t) c := by
  have hmark := (s.resetEngines t (kind == .management)).markReset_writes t kind
  have hpitch : (c.routes.foldl (State.askReset t) c).pitch = s.pitch := by
    rw [(State.askResets_writes t c.routes c).pitch_eq rfl, hc, hmark.pitch_eq rfl, (State.resetEngines_writes ..).pitch_eq rfl]
  rw [State.startReset.eq_def, hnone]
  have hticks : (s.resetEngines t (kind == .management)).abortTick =
      (if kind = .function then (s.resetEngines t (kind == .management)).clearMailbox t
        else s.resetEngines t (kind == .management)).abortTick := by
    split <;> rfl
  rw [State.markReset, hticks] at hc
  subst hc
  exact if_pos (hpitch ▸ hrun)

theorem startReset_starts (s : State) {t : Nat} (kind : ResetKind) (hnone : (s.fn t).resetting = none)
    (hrun : s.pitch.running = true) :
    let u := s.startReset t kind
    (u.fn t).resetting = some kind ∧ (u.fn t).resetDone = false ∧ (∀ c ∈ u.eng.contexts, c.2.tenant ≠ t) ∧
      (kind = .function → (u.fn t).mbRequest = [] ∧ (u.fn t).mbResponse = [] ∧ (u.fn t).mbBusy = false) ∧
      ∀ r ∈ s.routes, r.key.tenant = t → s.isHome r.key = true → r.finalDue = false →
        ∃ r' ∈ u.routes, r'.key = r.key ∧
          (stTenantReset, if s.pitch.decisionDone then s.pitch.number + 1 else s.pitch.number) ∈ r'.aborts := by
  intro u
  have hstart := s.resetEngines_writes t (kind == .management)
  have hopen := s.resetEngines_staysOpen t (kind == .management)
  have hcontexts := s.resetEngines_contexts t (kind == .management)
  have hmark := (s.resetEngines t (kind == .management)).markReset_writes t kind
  obtain ⟨hkind, hdone, hmailbox⟩ := (s.resetEngines t (kind == .management)).markReset_fn t kind
  have hu : u = _ := s.startReset_new kind hnone hrun rfl
  generalize (s.resetEngines t (kind == .management)).markReset t kind = c at hmark hkind hdone hmailbox hu
  have hasks := State.askResets_writes t c.routes c
  rw [← hu] at hasks
  have hfn : u.fn t = c.fn t := by rw [State.fn, hasks.host_eq rfl rfl]; rfl
  rw [hfn]
  refine ⟨hkind, hdone, ?_, hmailbox, fun r hr ht hhome hd => ?_⟩
  · rw [hasks.eng_eq rfl, hmark.eng_eq rfl]
    exact hcontexts
  · have hrc : r ∈ c.routes := hmark.routes_eq rfl ▸ hopen r hr hd
    have hcalled : c.isHome r.key = true := by rw [State.isHome, hmark.sys_eq rfl, hstart.sys_eq rfl]; exact hhome
    have hasked := State.askResets_asks t c.routes c hrc ⟨r, hrc, rfl⟩ ht hcalled hd
    rw [State.abortTick, hmark.pitch_eq rfl, hstart.pitch_eq rfl, ← hu] at hasked
    exact hasked

theorem State.endReset_waits {s : State} {t : Nat} {k : ResetKind} (hk : (s.fn t).resetting = some k)
    (hd : (s.fn t).resetDone = false) : s.endReset t = s := by
  rw [State.endReset.eq_def, hk, hd]
  rfl

/-- A function after its reset: after a management reset the registers of the admin queues alone hold their reset values. -/
def FnSt.afterReset (f : FnSt) : ResetKind → FnSt
  | .function => FnSt.reset
  | .management => { f with
    resetting := none, resetDone := false, adminError := false
    awqBase := 0, acqBase := 0, aqSizes := 0, awqIndex := 0, acqIndex := 0 }

theorem State.endReset_fn {s : State} {t : Nat} {k : ResetKind} (hk : (s.fn t).resetting = some k)
    (hd : (s.fn t).resetDone = true) :
    (s.endReset t).fn t = (s.fn t).afterReset k := by
  rw [State.endReset.eq_def, hk, hd]
  cases k with
  | function => exact s.setFn_fn t _
  | management => exact s.setFn_fn t _

/-- Settles O42: a reset starts by emptying the engines and asking the routes; it ends when its work is done. -/
theorem tenantResets : Obligations.TenantResets := by
  intro s t
  refine ⟨fun hok hidle hrun p hp => ?_, fun k hk => ⟨fun hd => ?_, fun hd => ?_⟩⟩
  · have hnone : (s.fn t).resetting = none := Option.isSome_eq_false_iff.mp hidle |> Option.isNone_iff_eq_none.mp
    have hexec : exec p.1 s = .next (s.startReset t p.2) := by
      simp only [List.mem_cons, List.not_mem_nil, or_false] at hp
      rcases hp with rfl | rfl
      · rw [exec_functionLevelReset, execFunctionLevelReset, if_pos hok]
      · rw [exec_managementReset, execManagementReset, if_pos (State.tenantOk_lt hok)]
    exact ⟨_, hexec, startReset_starts s p.2 hnone hrun⟩
  · rw [exec_tenantResetComplete, execTenantResetComplete, State.endReset_waits hk hd]
  · have hfn := State.endReset_fn hk hd
    refine ⟨s.endReset t, rfl, ?_, fun hkind => ?_, fun hkind => ?_, (s.endReset_writes t).frame⟩
    · rw [hfn]
      cases k <;> rfl
    · rw [hfn, hkind, FnSt.afterReset]
    · rw [hfn, hkind, FnSt.afterReset]

end Sys2Proof.Machine
end

section
/-! SUPPORT. Settling O40: engine entries join their channel, and DMA_CONTROL changes its state. -/
namespace Sys2Proof.Machine
open Sys2Proof

/-! ## Channels -/

/-- A channel that was written reads back, the idle one as well. -/
theorem State.setChan_chan (s : State) (c : Nat) (x : Chan) : (s.setChan c x).chan c = x := by
  unfold State.chan State.setChan
  dsimp only
  split
  next h => rw [SMap.find_del_same, h]; rfl
  next => rw [SMap.find_put_same]; rfl

/-- An operation that writes no engine state leaves the channels. -/
theorem Moves.chan_eq {l : List Field} {s t : State} (h : Moves l s t) (c : Nat) (hl : l.contains .eng = false := by rfl) :
    t.chan c = s.chan c := by
  rw [State.chan, h.eng_eq hl]
  rfl

theorem State.nextEngine_chan (s : State) (c : Nat) : s.nextEngine.chan c = s.chan c := rfl

theorem State.controlEnds_chan (s : State) (e : Entry) (status value c : Nat) :
    (s.controlEnds e status value).chan c = s.chan c :=
  (State.postEngine_writes s (s.engEntry e) status value 0 none).chan_eq c

theorem State.flushEntry_chan (s : State) (x : EngEntry) (c : Nat) : (s.flushEntry x).chan c = s.chan c := by
  unfold State.flushEntry
  extract_lets a
  have ha : a.chan c = s.chan c := by
    dsimp only [a]
    split
    · split <;> rfl
    · rfl
  exact ((State.postEngine_writes ..).chan_eq c).trans ha

theorem State.flushEntries_chan (l : List EngEntry) (s : State) (c : Nat) : (l.foldl State.flushEntry s).chan c = s.chan c := by
  induction l generalizing s with
  | nil => rfl
  | cons x l ih => exact (ih _).trans (s.flushEntry_chan x c)

/-! ## Check 5 -/

/-- An entry that is next and of the row's opcode goes on where check 5 finds nothing. -/
theorem State.onEngine_passes {s : State} {e : Entry} {op : Nat} (hnext : s.entryNext e = true) (hop : entOpcode e = op)
    (hcheck : s.engineCheck e = []) (f : State → State) : s.onEngine e op f = .next (f (s.dropFetched e)) := by
  rw [State.onEngine, State.onEntry_next hnext hop, hcheck]

theorem State.onEngine_fails {s : State} {e : Entry} {op : Nat} (hnext : s.entryNext e = true) (hop : entOpcode e = op)
    (hcheck : s.engineCheck e ≠ []) (f : State → State) : s.onEngine e op f =
      .next ((s.dropFetched e).finishEntry e (entryRecord e (pickStatus (s.engineCheck e)) (s.idleValue e))) := by
  rw [State.onEngine, State.onEntry_next hnext hop]
  split
  next h => exact absurd h hcheck
  next => rfl

/-- Check 5 lets a DIGEST_OPEN pass only where a context is free. -/
theorem State.engineCheck_open {s : State} {e : Entry} (hop : entOpcode e = opDigestOpen) (hcheck : s.engineCheck e = []) :
    ∃ n, s.lowestCtx = some n := by
  refine Option.ne_none_iff_exists'.mp fun hnone => ?_
  simp [State.engineCheck, hop, hnone] at hcheck

/-! ## Admission -/

/-- An entry behind the others of its channel, which runs now if it was idle. -/
theorem State.admitEngine_joins (s : State) (e : Entry) :
    ((s.admitEngine e).chan (entChannel e)).waiting = (s.chan (entChannel e)).waiting ++ [s.engEntry e] ∧
      ((s.admitEngine e).chan (entChannel e)).state =
        (if (s.chan (entChannel e)).state = .idle then .running else (s.chan (entChannel e)).state) := by
  unfold State.admitEngine
  rw [State.nextEngine_chan, State.setChan_chan]
  exact ⟨rfl, rfl⟩

/-- The context that DIGEST_OPEN takes. -/
def openedCtx (e : Entry) : DigestCtx :=
  { tenant := e.tenant, msg := entMsg e, alg := entMode e, length := entW e 3, key := [], taken := []
    lastSeen := false, finished := decide (entW e 3 = 0), discarded := 0 }

theorem State.takeCtx_eq {s : State} {n : Nat} (h : s.lowestCtx = some n) (e : Entry) : s.takeCtx e = s.putCtx n (openedCtx e) := by
  rw [State.takeCtx, h]
  rfl

/-- What an engine entry's row does once check 5 has passed. -/
theorem engineEntry_admits {s : State} {e : Entry} (hcheck : s.engineCheck e = []) {f : State → State} {op : Nat}
    (hop : entOpcode e = op)
    (hf : ∀ t, f t = if op = opDigestOpen then (t.takeCtx e).admitEngine e else t.admitEngine e) :
    ∃ x : EngEntry, x.entry = e ∧ x.order = s.eng.nextOrder ∧
      ((f (s.dropFetched e)).chan (entChannel e)).waiting = (s.chan (entChannel e)).waiting ++ [x] ∧
      ((f (s.dropFetched e)).chan (entChannel e)).state = (if (s.chan (entChannel e)).state = .idle then .running
        else (s.chan (entChannel e)).state) ∧ (f (s.dropFetched e)).host.fetched = s.host.fetched.erase e ∧
      (op = opDigestOpen → ∃ n c, s.lowestCtx = some n ∧ (f (s.dropFetched e)).eng.contexts.find n = some c ∧
        c.tenant = e.tenant ∧ c.msg = entMsg e ∧ c.length = entW e 3 ∧ c.taken = []) := by
  rw [hf]
  split
  next hopen =>
    obtain ⟨n, hn⟩ := State.engineCheck_open (hop.trans hopen) hcheck
    have htake : (s.dropFetched e).takeCtx e = (s.dropFetched e).putCtx n (openedCtx e) :=
      State.takeCtx_eq (s := s.dropFetched e) hn e
    rw [htake]
    obtain ⟨hwait, hstate⟩ := ((s.dropFetched e).putCtx n (openedCtx e)).admitEngine_joins e
    exact ⟨_, rfl, rfl, hwait, hstate, rfl, fun _ => ⟨n, openedCtx e, hn, SMap.find_put_same .., rfl, rfl, rfl, rfl⟩⟩
  next hother =>
    obtain ⟨hwait, hstate⟩ := (s.dropFetched e).admitEngine_joins e
    exact ⟨_, rfl, rfl, hwait, hstate, rfl, fun h => absurd h hother⟩

/-- The row of each engine opcode. -/
theorem engineRow_eq {e : Entry} {p : Instr × Nat} (hp : p ∈ ([(.dmaCopy e, opCopy), (.compress e, opCompress),
      (.decompress e, opDecompress), (.digestOpen e, opDigestOpen), (.digestFeed e, opDigestFeed),
      (.digestRead e, opDigestRead)] : List (Instr × Nat))) :
    ∃ f : State → State, (∀ s, exec p.1 s = s.onEngine e p.2 f) ∧
      ∀ t, f t = if p.2 = opDigestOpen then (t.takeCtx e).admitEngine e else t.admitEngine e := by
  simp only [List.mem_cons, List.not_mem_nil, or_false] at hp
  rcases hp with rfl | rfl | rfl | rfl | rfl | rfl <;> exact ⟨_, fun _ => rfl, fun _ => rfl⟩

/-! ## DMA_CONTROL -/

/-- Each row of DMA_CONTROL runs its operation on the entries of its mode. -/
theorem dmaStop_runs {s : State} {e : Entry} (hnext : s.entryNext e = true) (hop : entOpcode e = opDmaControl)
    (hcheck : s.engineCheck e = []) (hmode : entMode e = 1) :
    exec (.dmaStop e) s = .next ((s.dropFetched e).stopChannel e) := by
  rw [exec_dmaStop, execDmaStop, State.onControl, if_pos (by simp [hmode]), State.onEngine_passes hnext hop hcheck]

theorem dmaResume_runs {s : State} {e : Entry} (hnext : s.entryNext e = true) (hop : entOpcode e = opDmaControl)
    (hcheck : s.engineCheck e = []) (hmode : entMode e = 2) :
    exec (.dmaResume e) s = .next ((s.dropFetched e).resumeChannel e) := by
  rw [exec_dmaResume, execDmaResume, State.onControl, if_pos (by simp [hmode]), State.onEngine_passes hnext hop hcheck]

theorem dmaFlush_runs {s : State} {e : Entry} (hnext : s.entryNext e = true) (hop : entOpcode e = opDmaControl)
    (hcheck : s.engineCheck e = []) (hmode : entMode e = 3) :
    exec (.dmaFlush e) s = .next ((s.dropFetched e).flushChannel e) := by
  rw [exec_dmaFlush, execDmaFlush, State.onControl, if_pos (by simp [hmode]), State.onEngine_passes hnext hop hcheck]

/-- STOP of a channel with a current entry waits in the channel. -/
theorem State.stopChannel_waits (s : State) {e : Entry} (hrun : (s.chan (entChannel e)).state = .running)
    (hcur : (s.chan (entChannel e)).current.isSome = true) :
    (s.stopChannel e).chan (entChannel e) =
      { s.chan (entChannel e) with stops := (s.chan (entChannel e)).stops ++ [s.engEntry e] } := by
  rw [State.stopChannel, hrun]
  dsimp only
  rw [if_pos hcur, State.nextEngine_chan, State.setChan_chan, ← hrun]

theorem State.stopChannel_stops (s : State) {e : Entry} (h : ((s.chan (entChannel e)).state = .running ∧
      (s.chan (entChannel e)).current = none) ∨ (s.chan (entChannel e)).state = .idle) :
    (s.stopChannel e).chan (entChannel e) = { s.chan (entChannel e) with state := .stopped } := by
  rcases h with ⟨hrun, hcur⟩ | hidle
  · rw [State.stopChannel, hrun]
    dsimp only
    rw [hcur, if_neg (by decide), State.controlEnds_chan, State.setChan_chan]
  · rw [State.stopChannel, hidle]
    dsimp only
    rw [State.controlEnds_chan, State.setChan_chan]

theorem State.resumeChannel_halted (s : State) {e : Entry} (h : (s.chan (entChannel e)).state = .halted) :
    (s.resumeChannel e).chan (entChannel e) = { s.chan (entChannel e) with
      state := if (s.chan (entChannel e)).waiting.isEmpty then .idle else .running, fault := none } := by
  rw [State.resumeChannel, h]
  dsimp only
  rw [State.controlEnds_chan, State.setChan_chan]

theorem State.flushChannel_stopped (s : State) {e : Entry} (h : (s.chan (entChannel e)).state = .stopped) :
    (s.flushChannel e).chan (entChannel e) = Chan.idle := by
  rw [State.flushChannel, h]
  dsimp only
  rw [State.controlEnds_chan, State.flushEntries_chan, State.setChan_chan]

/-- Settles O40: check 5 decides what becomes of an engine entry, and DMA_CONTROL follows the channel's state. -/
theorem engineEntries : Obligations.EngineEntries := by
  intro s e hnext
  refine ⟨fun p hp hop => ?_, fun hop hcheck => ⟨fun hmode => ⟨fun hrun hcur => ?_, fun h => ?_⟩, fun hmode hhalt => ?_,
    fun hmode hstop => ?_⟩⟩
  · obtain ⟨f, hrow, hf⟩ := engineRow_eq hp
    refine ⟨fun hcheck => ?_, fun hcheck => (hrow s).trans (State.onEngine_fails hnext hop hcheck f)⟩
    obtain ⟨x, hx⟩ := engineEntry_admits hcheck hop hf
    exact ⟨_, x, (hrow s).trans (State.onEngine_passes hnext hop hcheck f), hx⟩
  · exact ⟨_, _, dmaStop_runs hnext hop hcheck hmode, rfl, (s.dropFetched e).stopChannel_waits hrun hcur⟩
  · exact ⟨_, dmaStop_runs hnext hop hcheck hmode, (s.dropFetched e).stopChannel_stops h⟩
  · have hafter := (s.dropFetched e).resumeChannel_halted hhalt
    exact ⟨_, dmaResume_runs hnext hop hcheck hmode, by rw [hafter], by rw [hafter]; rfl, by rw [hafter]; rfl⟩
  · exact ⟨_, dmaFlush_runs hnext hop hcheck hmode, (s.dropFetched e).flushChannel_stopped hstop⟩

end Sys2Proof.Machine
end

section
/-! SUPPORT. Settling O55: the SPDM responder's answers, the management port's other traffic, and configuration requests. -/
namespace Sys2Proof.Machine
open Sys2Proof

/-! ## Messages -/

theorem spdmMsg_code (version code p1 p2 : Nat) (body : List Byte) :
    getLe (spdmMsg version code p1 p2 body) 1 1 = code % 256 := by
  simp [getLe, sliceB, spdmMsg, natLe, leNat]

theorem spdmMsg_param (version code p1 p2 : Nat) (body : List Byte) :
    getLe (spdmMsg version code p1 p2 body) 2 1 = p1 % 256 := by
  simp [getLe, sliceB, spdmMsg, natLe, leNat]

theorem spdmMsg_append (version code p1 p2 : Nat) (body rest : List Byte) :
    spdmMsg version code p1 p2 body ++ rest = spdmMsg version code p1 p2 (body ++ rest) := rfl

theorem sliceB_front {pre l rest : List Byte} {n : Nat} (hn : pre.length = n) : sliceB (pre ++ (l ++ rest)) n l.length = l := by
  simp [sliceB, ← hn]

/-! ## The responder answers -/

/-- The command answers a request of a function with the bytes, and its responder is as given. -/
def SpdmAnswers (c : Instr) (s : State) (port link : Nat) (a : List Byte) (x : SpdmSt) : Prop :=
  ∃ t, exec c s = .next t ∧ t.out = s.out ++ [.spdm (port % 2) (link % 4) a] ∧ t.spdmAt (port % 2 * 4 + link % 4) = x

theorem State.spdm_served {s u : State} {port link : Nat} {act : State → SpdmSt → SpdmRes} {a : List Byte} {x : SpdmSt}
    (hserved : s.spdmServed port link = true) (hact : act s (s.spdmAt (port % 2 * 4 + link % 4)) = (a, x, u)) :
    s.spdm port link act = (u.setSpdm (port % 2 * 4 + link % 4) x).emit (.spdm (port % 2) (link % 4) a) := by
  rw [State.spdm, hserved]
  dsimp only
  rw [hact]
  rfl

theorem spdmAnswers_of {c : Instr} {s u : State} {port link : Nat} {act : State → SpdmSt → SpdmRes} {a : List Byte} {x : SpdmSt}
    (hrow : exec c s = .next (s.spdm port link act)) (hserved : s.spdmServed port link = true)
    (hact : act s (s.spdmAt (port % 2 * 4 + link % 4)) = (a, x, u)) (hu : u.out = s.out) : SpdmAnswers c s port link a x := by
  refine ⟨_, hrow, ?_⟩
  rw [State.spdm_served hserved hact]
  exact ⟨congrArg (· ++ _) hu, u.setSpdm_at _ x⟩

/-- A request long enough, in its order and of the connection's version is looked at. -/
theorem SpdmSt.early_none {x : SpdmSt} {needs : Nat} {p : List Byte} (hp : 4 ≤ p.length) (hr : needs ≤ x.reached)
    (hv : 2 ≤ needs → getLe p 0 1 = x.version) : x.early needs p = none := by
  rw [SpdmSt.early, if_neg (by omega), if_neg (by omega), if_neg fun h => h.2 (hv h.1)]

section
variable {s : State} {port link : Nat} {p : List Byte} {x : SpdmSt}

theorem getVersion_answers (hserved : s.spdmServed port link = true) (hp : 4 ≤ p.length) (hv : getLe p 0 1 = 0x10) :
    ∃ t a, exec (.getVersion port link p) s = .next t ∧ t.out = s.out ++ [.spdm (port % 2) (link % 4) a] ∧
      getLe a 1 1 = 0x04 ∧ (t.spdmAt (port % 2 * 4 + link % 4)).reached = 1 ∧
      (t.spdmAt (port % 2 * 4 + link % 4)).setup = p ++ a ∧ Writes [.mgmt, .out] s t := by
  obtain ⟨a, x, hact, hcode, hreached, hsetup⟩ : ∃ a x, s.spdmVersionAnswer (s.spdmAt (port % 2 * 4 + link % 4)) p =
        (a, x, s) ∧ getLe a 1 1 = 0x04 ∧ x.reached = 1 ∧ x.setup = p ++ a :=
    ⟨_, _, by rw [State.spdmVersionAnswer, if_neg (by omega), if_neg (not_not_intro hv)], spdmMsg_code .., rfl, rfl⟩
  obtain ⟨t, ht, hout, hat⟩ := spdmAnswers_of (c := .getVersion port link p)
    (act := fun s x => s.spdmVersionAnswer x p) rfl hserved hact rfl
  have hframe : Writes [.mgmt, .out] s t := by
    rw [← Host.Outcome.next.inj ht, State.spdm_served (act := fun s x => s.spdmVersionAnswer x p) hserved hact]
    exact (((State.setSpdm_writes ..).mono (.mk rfl)).trans ((State.emit_writes ..).mono (.mk rfl))).frame
  exact ⟨t, a, ht, hout, hcode, by rw [hat, hreached], by rw [hat, hsetup], hframe⟩

theorem getCapabilities_answers (hserved : s.spdmServed port link = true) (hx : s.spdmAt (port % 2 * 4 + link % 4) = x)
    (hp : 4 ≤ p.length) (hr : 1 ≤ x.reached) (hv : getLe p 0 1 = 0x12 ∨ getLe p 0 1 = 0x13) :
    ∃ t a, exec (.getCapabilities port link p) s = .next t ∧ t.out = s.out ++ [.spdm (port % 2) (link % 4) a] ∧
      getLe a 1 1 = 0x61 ∧ t.spdmAt (port % 2 * 4 + link % 4) =
        { x with reached := 2, version := getLe p 0 1, setup := x.setup ++ p ++ a } := by
  obtain ⟨t, ht, hout, hat⟩ := spdmAnswers_of (c := .getCapabilities port link p) (act := fun s x => s.spdmCapabilities x p) rfl
    hserved (by rw [hx, State.spdmCapabilities, SpdmSt.early_none hp hr (by omega)]; exact if_neg (by omega)) rfl
  exact ⟨t, _, ht, hout, spdmMsg_code .., hat⟩

theorem negotiateAlgorithms_answers (hserved : s.spdmServed port link = true) (hx : s.spdmAt (port % 2 * 4 + link % 4) = x)
    (hp : 4 ≤ p.length) (hr : 2 ≤ x.reached) (hv : getLe p 0 1 = x.version) :
    ∃ t a, exec (.negotiateAlgorithms port link p) s = .next t ∧ t.out = s.out ++ [.spdm (port % 2) (link % 4) a] ∧
      getLe a 1 1 = 0x63 ∧ t.spdmAt (port % 2 * 4 + link % 4) = { x with reached := 3, setup := x.setup ++ p ++ a } := by
  obtain ⟨t, ht, hout, hat⟩ := spdmAnswers_of (c := .negotiateAlgorithms port link p)
    (act := fun s x => s.spdmAlgorithms x p) rfl
    hserved (by rw [hx, State.spdmAlgorithms, SpdmSt.early_none hp hr fun _ => hv]) rfl
  exact ⟨t, _, ht, hout, spdmMsg_code .., hat⟩

theorem getDigests_answers (hserved : s.spdmServed port link = true) (hx : s.spdmAt (port % 2 * 4 + link % 4) = x)
    (hp : 4 ≤ p.length) (hr : 3 ≤ x.reached) (hv : getLe p 0 1 = x.version) :
    ∃ t a, exec (.getDigests port link p) s = .next t ∧ t.out = s.out ++ [.spdm (port % 2) (link % 4) a] ∧
      getLe a 1 1 = 0x01 ∧ a.drop 4 = sha384 Config.certChain ∧
      t.spdmAt (port % 2 * 4 + link % 4) = { x with certs := x.certs ++ p ++ a } := by
  obtain ⟨t, ht, hout, hat⟩ := spdmAnswers_of (c := .getDigests port link p) (act := fun s x => s.spdmDigests x p) rfl
    hserved (by rw [hx, State.spdmDigests, SpdmSt.early_none hp hr fun _ => hv]) rfl
  exact ⟨t, _, ht, hout, spdmMsg_code .., rfl, hat⟩

theorem getCertificate_answers (hserved : s.spdmServed port link = true) (hx : s.spdmAt (port % 2 * 4 + link % 4) = x)
    (hp : 8 ≤ p.length) (hr : 3 ≤ x.reached) (hv : getLe p 0 1 = x.version) (hslot : getLe p 2 1 % 16 = 0) :
    ∃ t a, exec (.getCertificate port link p) s = .next t ∧ t.out = s.out ++ [.spdm (port % 2) (link % 4) a] ∧
      (getLe p 4 2 < Config.certChain.length → getLe a 1 1 = 0x02 ∧ a.drop 8 = sliceB Config.certChain (getLe p 4 2)
        (min (getLe p 6 2) (Config.certChain.length - getLe p 4 2)) ∧
        t.spdmAt (port % 2 * 4 + link % 4) = { x with certs := x.certs ++ p ++ a }) ∧
      (Config.certChain.length ≤ getLe p 4 2 → getLe a 1 1 = 0x7F ∧ t.spdmAt (port % 2 * 4 + link % 4) = x) := by
  have hnone : x.early 3 p = none := SpdmSt.early_none (by omega) hr fun _ => hv
  by_cases hoff : getLe p 4 2 < Config.certChain.length
  · obtain ⟨t, ht, hout, hat⟩ := spdmAnswers_of (c := .getCertificate port link p)
      (act := fun s x => s.spdmCertificate x p) rfl
      hserved (by rw [hx, State.spdmCertificate, hnone]; exact if_neg (by omega)) rfl
    exact ⟨t, _, ht, hout, fun _ => ⟨spdmMsg_code .., rfl, hat⟩, fun h => absurd h (by omega)⟩
  · obtain ⟨t, ht, hout, hat⟩ := spdmAnswers_of (c := .getCertificate port link p)
      (act := fun s x => s.spdmCertificate x p) rfl
      hserved (by rw [hx, State.spdmCertificate, hnone]; exact if_pos (.inr (.inr (by omega)))) rfl
    exact ⟨t, _, ht, hout, fun h => absurd h hoff, fun _ => ⟨spdmMsg_code .., hat⟩⟩

theorem challenge_answers (hserved : s.spdmServed port link = true) (hx : s.spdmAt (port % 2 * 4 + link % 4) = x)
    (hp : 36 + spdmContext x.version ≤ p.length) (hr : 3 ≤ x.reached) (hv : getLe p 0 1 = x.version)
    (hslot : getLe p 2 1 % 16 = 0) :
    ∃ t a, exec (.challenge port link p) s = .next t ∧ t.out = s.out ++ [.spdm (port % 2) (link % 4) a] ∧
      getLe a 1 1 = 0x03 ∧ t.spdmAt (port % 2 * 4 + link % 4) = { x with certs := [] } := by
  have hnone : x.early 3 p = none := SpdmSt.early_none (by omega) hr fun _ => hv
  have hgood : ¬ (p.length < 36 + spdmContext x.version ∨ getLe p 2 1 % 16 ≠ 0) := by omega
  obtain ⟨t, ht, hout, hat⟩ := spdmAnswers_of (c := .challenge port link p) (u := (s.free 256).2)
    (act := fun s x => s.spdmChallengeAnswer x p) rfl
    hserved (by rw [hx, State.spdmChallengeAnswer, hnone]; exact if_neg hgood) rfl
  refine ⟨t, _, ht, hout, ?_, hat⟩
  rw [spdmMsg_append]
  exact spdmMsg_code ..

/-- The blocks that a request for one measurement gets. -/
theorem getMeasurements_answers (hserved : s.spdmServed port link = true) (hx : s.spdmAt (port % 2 * 4 + link % 4) = x)
    (hp : 37 + spdmContext x.version ≤ p.length) (hr : 3 ≤ x.reached) (hv : getLe p 0 1 = x.version) (h1 : 1 ≤ getLe p 3 1)
    (h8 : getLe p 3 1 ≤ 8) :
    ∃ t a, exec (.getMeasurements port link p) s = .next t ∧ t.out = s.out ++ [.spdm (port % 2) (link % 4) a] ∧
      getLe a 1 1 = 0x60 ∧ sliceB a 8 (s.spdmBlock (getLe p 3 1)).length = s.spdmBlock (getLe p 3 1) ∧
      (bitAt (getLe p 2 1) 0 = true → t.spdmAt (port % 2 * 4 + link % 4) = { x with measured := [] }) := by
  have hnone : x.early 3 p = none := SpdmSt.early_none (by omega) hr fun _ => hv
  have hans : ∃ rest y u, s.spdmMeasurements x p =
      (spdmMsg x.version 0x60 0 0 (natLe 1 1 ++ natLe 3 (s.spdmBlock (getLe p 3 1)).length ++
        (s.spdmBlock (getLe p 3 1) ++ rest)), y, u) ∧ u.out = s.out ∧
      (bitAt (getLe p 2 1) 0 = true → y = { x with measured := [] }) := by
    have hall : getLe p 3 1 ≠ 0xFF := by omega
    have hlong : ∀ b : Bool, ¬ p.length < (if b = true then 37 else 4) + spdmContext x.version := by
      rintro (_ | _) hshort
      · simp only [Bool.false_eq_true, if_false] at hshort
        omega
      · simp only [if_true] at hshort
        omega
    rw [State.spdmMeasurements, hnone]
    simp only [if_neg hall, if_pos (And.intro h1 h8), List.isEmpty_cons, Bool.false_eq_true, false_and, or_false, hlong, if_false,
      List.flatMap_cons, List.flatMap_nil, List.append_nil, List.length_singleton, if_neg (show getLe p 3 1 ≠ 0 by omega)]
    split
    next hsigned => exact ⟨_, _, (s.free 256).2, by simp only [spdmMsg_append, List.append_assoc]; rfl, rfl, fun _ => rfl⟩
    next hplain => exact ⟨_, _, (s.free 256).2, by simp only [List.append_assoc]; rfl, rfl, fun h => absurd h hplain⟩
  obtain ⟨rest, y, u, hact, hu, hy⟩ := hans
  obtain ⟨t, ht, hout, hat⟩ := spdmAnswers_of (c := .getMeasurements port link p) (act := fun s x => s.spdmMeasurements x p) rfl
    hserved (by rw [hx]; exact hact) hu
  exact ⟨t, _, ht, hout, spdmMsg_code .., sliceB_front (pre := natLe 1 x.version ++ natLe 1 0x60 ++ natLe 1 0 ++ natLe 1 0 ++
    (natLe 1 1 ++ natLe 3 (s.spdmBlock (getLe p 3 1)).length)) rfl, fun hsigned => hat.trans (hy hsigned)⟩

theorem spdmUnsupportedRequest_answers (hserved : s.spdmServed port link = true)
    (hx : s.spdmAt (port % 2 * 4 + link % 4) = x) :
    ∃ t a, exec (.spdmUnsupportedRequest port link p) s = .next t ∧ t.out = s.out ++ [.spdm (port % 2) (link % 4) a] ∧
      getLe a 1 1 = 0x7F ∧ getLe a 2 1 = 0x07 ∧ t.spdmAt (port % 2 * 4 + link % 4) = x := by
  obtain ⟨t, ht, hout, hat⟩ := spdmAnswers_of (c := .spdmUnsupportedRequest port link p) (act := fun s x => s.spdmOther x p) rfl
    hserved rfl rfl
  exact ⟨t, _, ht, hout, spdmMsg_code .., spdmMsg_param .., hat.trans hx⟩

end

/-! ## The other traffic -/

theorem arp_answers (s : State) (ip : Nat) : exec (.arp ip) s =
    .next (if s.portServed = true ∧ ip ≠ 0 ∧ ip = s.onum 0x60A0 2 then
      s.emit (.frame frameArp (fitTo 6 (s.oblob 0x60A0 10) ++ natBe 4 ip)) else s) := by
  rw [exec_arp, execArp, State.arpAsk]
  simp only [State.ownV4, Bool.and_eq_true, bne_iff_ne, beq_iff_eq]

theorem neighbourDiscovery_answers (s : State) (a : List Byte) : exec (.neighbourDiscovery a) s =
    .next (if s.portServed = true ∧ s.ownV6 a = true then
      s.emit (.frame frameNeighbour (a ++ fitTo 6 (s.oblob 0x60A0 10))) else s) := by
  rw [exec_neighbourDiscovery, execNeighbourDiscovery, State.neighbourAsk]
  simp only [Bool.and_eq_true]

theorem icmpEcho_answers (s : State) (a b : List Byte) : exec (.icmpEcho a b) s =
    .next (if s.portServed = true ∧
      (if a.length = 4 then beNat a ≠ 0 ∧ beNat a = s.onum 0x60A0 2 else s.ownV6 a = true) then
      s.emit (.frame frameEcho (a ++ b)) else s) := by
  rw [exec_icmpEcho, execIcmpEcho, State.echoAsk]
  by_cases h4 : a.length = 4
  · simp only [if_pos h4, State.ownV4, Bool.and_eq_true, bne_iff_ne, beq_iff_eq]
  · simp only [if_neg h4, Bool.and_eq_true]

theorem configurationRequest_answers (s : State) {h : Nat} (hh : h < 2)
    (hup : s.host.linksUp.any (fun l => l / 4 == h) = true) :
    (s.sys.phase = .ready → exec (.configurationRequest h) s = .next (s.emit (.configServed h))) ∧
      (s.sys.phase = .booting → exec (.configurationRequest h) s = .next (s.emit (.retryStatus h))) := by
  rw [exec_configurationRequest, execConfigurationRequest, Nat.mod_eq_of_lt hh, State.configRequest, hup]
  refine ⟨fun hp => ?_, fun hp => ?_⟩ <;> rw [hp] <;> rfl

/-- Settles O55: each request in its order is answered by its code, and the port by its addresses. -/
theorem spdmAndNetwork : Obligations.SpdmAndNetwork := by
  intro s
  refine ⟨fun port link p hserved hp => ?_, arp_answers s, neighbourDiscovery_answers s, icmpEcho_answers s, rfl,
    fun h hh => configurationRequest_answers s hh⟩
  exact ⟨getVersion_answers hserved hp, getCapabilities_answers hserved rfl hp,
    negotiateAlgorithms_answers hserved rfl hp, fun hr hv => ⟨getDigests_answers hserved rfl hp hr hv,
      fun h8 => getCertificate_answers hserved rfl h8 hr hv, fun h36 => challenge_answers hserved rfl h36 hr hv,
      fun h37 => getMeasurements_answers hserved rfl h37 hr hv⟩, spdmUnsupportedRequest_answers hserved rfl⟩

end Sys2Proof.Machine
end

section
/-! SUPPORT. Settling O56: the pins lead through reset and the measured boot to Basecamp ready, and every reset keeps the flash. -/
namespace Sys2Proof.Machine
open Sys2Proof

/-! ## Pins and resets -/

theorem pwrgoodAssert_resets {s : State} (h : s.sys.pwrgood = false) :
    ∃ t, exec .pwrgoodAssert s = .next t ∧ t.sys.pwrgood = true ∧ t.sys.phase = .inReset ∧
      t.sys.rstN = false ∧ t.sys.highZ = false ∧ t.sys.fanDuty = 300000 ∧
      t.flash = { s.flash with powerCycles := min (2 ^ 32 - 1) (s.flash.powerCycles + 1) } ∧ Writes [.sys, .flash] s t := by
  have hrow : State.pwrgoodAssert s = { s with
      sys := { s.sys with pwrgood := true, phase := .inReset, rstN := false, highZ := false, fanDuty := 300000 }
      flash := { s.flash with powerCycles := min (2 ^ 32 - 1) (s.flash.powerCycles + 1) } } := by
    rw [State.pwrgoodAssert, h]
    rfl
  refine ⟨_, by rw [exec_pwrgoodAssert, execPwrgoodAssert, hrow], rfl, rfl, rfl, rfl, rfl, rfl, .mk fun f hf => ?_⟩
  cases f with
  | sys | flash => exact absurd (by simp) hf
  | _ => rfl

theorem pwrgoodDeassert_floats {s : State} (h : s.sys.pwrgood = true) :
    ∃ t, exec .pwrgoodDeassert s = .next t ∧ t.sys.pwrgood = false ∧ t.sys.phase = .off ∧ t.sys.highZ = true ∧
      t.out = s.out ++ [.highZ] ∧ t.flash = s.flash ∧ t.mem = [] ∧ t.routes = [] ∧ t.objs = [] := by
  rw [exec_pwrgoodDeassert, execPwrgoodDeassert, State.pwrgoodDeassert, h]
  exact ⟨_, rfl, rfl, rfl, rfl, rfl, rfl, rfl, rfl, rfl⟩

theorem deviceReset_clears {s : State} (h : s.sys.pwrgood = true) :
    ∃ t, exec .deviceReset s = .next t ∧ t.sys.phase = .inReset ∧ t.sys.rstN = false ∧ t.flash = s.flash ∧ t.mem = [] ∧
      t.routes = [] ∧ t.objs = [] ∧ t.err = ErrSt.reset ∧
      t.out = if s.sys.tickOut then s.out ++ [.tickOut false] else s.out := by
  rw [exec_deviceReset, execDeviceReset, State.deviceReset, h]
  cases htick : s.sys.tickOut <;> exact ⟨_, rfl, rfl, rfl, rfl, rfl, rfl, rfl, rfl, rfl⟩

/-! ## The measured boot -/

/-- The device's own state but for the two PERST_N pins. -/
def SysSt.unpinned (x : SysSt) : SysSt := { x with perst0 := false, perst1 := false }

theorem State.setPerst_unpinned (s : State) (h : Nat) (high : Bool) : (s.setPerst h high).sys.unpinned = s.sys.unpinned := by
  dsimp only [State.setPerst]
  split <;> rfl

theorem State.setPersts_unpinned (l : List Nat) (s : State) :
    (l.foldl (fun s h => s.setPerst h true) s).sys.unpinned = s.sys.unpinned := by
  induction l generalizing s with
  | nil => rfl
  | cons h l ih => exact (ih _).trans (s.setPerst_unpinned h true)

/-- Training of the released ports changes the pins' state alone, besides the host links. -/
theorem State.trainReleased_unpinned (s : State) : s.trainReleased.sys.unpinned = s.sys.unpinned := by
  unfold State.trainReleased
  extract_lets early _ a
  have ha : a.sys.unpinned = s.sys.unpinned := State.setPersts_unpinned ..
  have hfold : Moves [.host, .out] a (((List.range 2).filter a.perst).foldl State.trainHost a) :=
    Moves.foldl _ State.trainHost_writes (.refl _ a)
  rw [hfold.sys_eq rfl]
  exact ha

theorem rstNRelease_boots {s : State} (hreset : s.sys.phase = .inReset) (hpower : s.sys.pwrgood = true) {k : Nat}
    {b : BootResult} (hk : s.flash.validGen = some k) (hb : s.flash.boot (s.flash.gen k) = some b) :
    ∃ t, exec .rstNRelease s = .next t ∧ t.sys.phase = .booting ∧ t.sys.rstN = true ∧ t.sys.bootRetreat = b.retreat ∧
      t.mgmt.activeGen = some k ∧ t.mgmt.bootSlot = b.slot ∧ t.mgmt.meas = b.meas ∧ t.mgmt.policyResult = b.policy := by
  have hrow : ∃ a : State, s.rstRelease = a.trainReleased ∧ a.sys.phase = .booting ∧ a.sys.rstN = true ∧
      a.sys.bootRetreat = b.retreat ∧ a.mgmt.activeGen = some k ∧ a.mgmt.bootSlot = b.slot ∧ a.mgmt.meas = b.meas ∧
      a.mgmt.policyResult = b.policy := by
    rw [State.rstRelease, if_neg (by simp [hreset, hpower])]
    dsimp only
    rw [hk]
    dsimp only [Option.bind]
    rw [hb]
    exact ⟨_, rfl, rfl, rfl, rfl, rfl, rfl, rfl, rfl⟩
  obtain ⟨a, ht, hphase, hrst, hretreat, hmgmt⟩ := hrow
  have hsys := a.trainReleased_unpinned
  refine ⟨_, by rw [exec_rstNRelease, execRstNRelease, ht], (congrArg SysSt.phase hsys :).trans hphase,
    (congrArg SysSt.rstN hsys :).trans hrst, (congrArg SysSt.bootRetreat hsys :).trans hretreat, ?_⟩
  rw [a.trainReleased_writes.mgmt_eq rfl]
  exact hmgmt

theorem rstNRelease_stops {s : State} (hreset : s.sys.phase = .inReset) (hpower : s.sys.pwrgood = true)
    (ha : s.flash.slotA.readable = false) (hb : s.flash.slotB.readable = false) :
    ∃ t, exec .rstNRelease s = .next t ∧ t.sys.phase = .stopped ∧ t.host = s.host := by
  have hboot : ∀ g, s.flash.boot g = none := fun g => by rw [FlashSt.boot, ha, hb]; rfl
  have hnone : (s.flash.validGen.bind fun k => (s.flash.boot (s.flash.gen k)).map fun b => (b, s.flash.gen k)) = none := by
    simp [hboot]
  rw [exec_rstNRelease, execRstNRelease, State.rstRelease, if_neg (by simp [hreset, hpower])]
  dsimp only
  rw [hnone]
  exact ⟨_, rfl, rfl, rfl⟩

/-! ## Basecamp ready -/

theorem bitAt_setBit (n i : Nat) : bitAt (setBit n i) i = true := by
  unfold setBit
  split
  next h => exact h
  next h =>
    have hpos : 0 < 2 ^ i := Nat.two_pow_pos i
    simp only [bitAt, beq_iff_eq] at h ⊢
    rw [Nat.add_div_right _ hpos]
    omega

/-- Each of the channels 0 to n - 1 gets its state. -/
theorem find_putRange {α : Type} (f : Nat → α) (m : SMap α) {n c : Nat} (hc : c < n) :
    ((List.range n).foldl (fun m c => m.put c (f c)) m).find c = some (f c) := by
  induction n with
  | zero => omega
  | succ n ih =>
    rw [List.range_succ, List.foldl_concat]
    rcases Nat.lt_succ_iff_lt_or_eq.mp hc with h | rfl
    · rw [SMap.find_put_other _ _ (by omega), ih h]
    · exact SMap.find_put_same ..

theorem State.setChan16_chanState (s : State) (f : Nat → ChState) {ch : Nat} (h : ch < 16) :
    (s.setChan16 f).chanState ch = f ch := by
  rw [State.chanState, State.setChan16, find_putRange f _ h]
  rfl

/-- A device in configuration, with Basecamp ready and AUTO_FORM off. -/
structure Configuring (s : State) : Prop where
  phase : s.sys.phase = .ready
  state : s.sys.state = .configuration
  form : s.oflag 0x7000 9 = false

theorem Configuring.of_sys {s t : State} (h : Configuring s) (hs : t.sys = s.sys) (ho : t.onum 0x7000 9 = s.onum 0x7000 9) :
    Configuring t :=
  ⟨hs ▸ h.phase, hs ▸ h.state, (congrArg (· == 1) ho).trans h.form⟩

theorem Configuring.raise {s : State} (h : Configuring s) {a : RecArgs} (ht : a.tenant = none) : Configuring (s.raise a) :=
  h.of_sys ((s.raise_writes a).sys_eq rfl) (s.raise_onum_device a ht (by decide))

/-- A retreat cause in configuration is held until a formation ends. -/
theorem State.enterRetreat_holds {s : State} (h : s.sys.state = .configuration) (bit : Nat) :
    s.enterRetreat bit = { s with sys := { s.sys with heldCauses := setBit s.sys.heldCauses bit } } := by
  rw [State.enterRetreat.eq_def, h]

theorem Configuring.enterRetreat {s : State} (h : Configuring s) (bit : Nat) :
    Configuring (s.enterRetreat bit) ∧ bitAt (s.enterRetreat bit).sys.heldCauses bit = true := by
  rw [State.enterRetreat_holds h.state]
  exact ⟨⟨h.phase, h.state, h.form⟩, bitAt_setBit ..⟩

theorem State.startTraining_onum (s : State) : s.startTraining.onum 0x7000 9 = s.onum 0x7000 9 := by
  have hchannels : ∀ u : State, u.objs = s.objs → ((u.setChan16 fun _ => .training).oset 0x5000 5 1).onum 0x7000 9 = s.onum 0x7000 9 :=
    fun u hu => (State.onum_oset_other _ 1 (by decide)).trans (State.onum_congr ((u.setChan16_objs _).trans hu) _ _)
  exact hchannels _ rfl

theorem State.startTraining_trains (s : State) :
    s.startTraining.onum 0x5000 5 = 1 ∧ ∀ ch < 16, s.startTraining.chanState ch = .training :=
  ⟨State.onum_oset_same .., fun _ hch => State.setChan16_chanState _ (fun _ => .training) hch⟩

/-- The part of start-up that makes the memories ready. -/
def State.startMemories (s : State) : State :=
  if s.zeroHbm.dram.dimmsAlike then s.zeroHbm.startTraining
  else s.zeroHbm.raise { severity := 4, source := 0x0001, cause := 0x000C, closing := some .never }

theorem startMemories_configures {s : State} (h : Configuring s) :
    Configuring s.startMemories ∧ s.startMemories.sys = s.sys ∧ (s.dram.dimmsAlike = true →
      s.startMemories.onum 0x5000 5 = 1 ∧ ∀ ch < 16, s.startMemories.chanState ch = .training) := by
  have hz : Configuring s.zeroHbm := h.of_sys rfl rfl
  unfold State.startMemories
  split
  next =>
    have hsys := s.zeroHbm.startTraining_writes.sys_eq rfl
    exact ⟨hz.of_sys hsys s.zeroHbm.startTraining_onum, hsys, fun _ => s.zeroHbm.startTraining_trains⟩
  next hno => exact ⟨hz.raise rfl, (State.raise_writes ..).sys_eq rfl, fun hyes => absurd hyes hno⟩

/-- The records of what the boot found, and the retreat that it asks for. -/
def State.noteBoot (s : State) : State :=
  let s := if bitAt s.mgmt.policyResult 9 && s.mgmt.bootSlot == 1 then
      s.raise { severity := 2, source := 0x000E, w4 := objW4 0x8020 10 } else s
  if s.sys.bootRetreat then
    (s.fatalDevice { severity := 4, source := 0x000E, w4 := objW4 0x8020 11 }).enterRetreat causeMeasurement else s

theorem noteBoot_holds {s : State} (h : Configuring s) : Configuring s.noteBoot ∧ s.noteBoot.dram = s.dram ∧
    (s.sys.bootRetreat = true → bitAt s.noteBoot.sys.heldCauses causeMeasurement = true) := by
  unfold State.noteBoot
  extract_lets a
  have ha : Configuring a ∧ a.sys = s.sys ∧ a.dram = s.dram := by
    dsimp only [a]
    split
    · exact ⟨h.raise rfl, (State.raise_writes ..).sys_eq rfl, (State.raise_writes ..).dram_eq rfl⟩
    · exact ⟨h, rfl, rfl⟩
  obtain ⟨hconf, hsys, hdram⟩ := ha
  rw [← hsys]
  split
  next =>
    have hfatal : ∀ r : RecArgs, r.tenant = none → Configuring (a.fatalDevice r) ∧ (a.fatalDevice r).dram = a.dram := by
      intro r hr
      have hraised : Configuring (a.raise { r with severity := 4, closing := some .never }) := hconf.raise hr
      refine ⟨(hraised.enterRetreat causeFatal).1, ?_⟩
      rw [State.fatalDevice, State.enterRetreat_holds hraised.state]
      exact (State.raise_writes ..).dram_eq rfl
    obtain ⟨hf, hfdram⟩ := hfatal { severity := 4, source := 0x000E, w4 := objW4 0x8020 11 } rfl
    obtain ⟨he, hbit⟩ := hf.enterRetreat causeMeasurement
    refine ⟨he, ?_, fun _ => hbit⟩
    rw [State.enterRetreat_holds hf.state]
    exact hfdram.trans hdram
  next hno => exact ⟨hconf, hdram, fun hyes => absurd hyes hno⟩

theorem basecampReady_configures {s : State} (hboot : s.sys.phase = .booting) (hform : s.oflag 0x7000 9 = false) :
    ∃ t, exec .basecampReady s = .next t ∧ t.sys.phase = .ready ∧ t.sys.state = .configuration ∧
      (s.dram.dimmsAlike = true → t.onum 0x5000 5 = 1 ∧ ∀ ch < 16, t.chanState ch = .training) ∧
      (s.sys.bootRetreat = true → bitAt t.sys.heldCauses causeMeasurement = true) := by
  refine ⟨s.basecampReady, rfl, ?_⟩
  unfold State.basecampReady
  rw [if_neg (not_not_intro hboot)]
  extract_lets _ a b c d e f
  have ha : Configuring a := ⟨rfl, rfl, hform⟩
  have hb : Moves [.out] a b := Moves.foldl _ (fun _ _ => State.emit_writes ..) (.refl _ a)
  have hb' : Configuring b := ha.of_sys (hb.sys_eq rfl) (State.onum_congr (hb.objs_eq rfl) _ _)
  obtain ⟨hd, hdram, hcause⟩ := noteBoot_holds hb'
  obtain ⟨hf, hsys, htrain⟩ := startMemories_configures hd
  have hbs : b.sys.bootRetreat = s.sys.bootRetreat := (congrArg SysSt.bootRetreat (hb.sys_eq rfl) :)
  rw [hdram, hb.dram_eq rfl] at htrain
  rw [hbs] at hcause
  change Configuring f at hf
  rw [hf.form, if_neg (by decide)]
  exact ⟨hf.phase, hf.state, htrain, fun hr => (congrArg SysSt.heldCauses hsys :) ▸ hcause hr⟩

/-- Settles O56: pin by pin, then the boot and the start of Basecamp. -/
theorem resetsAndStartUp : Obligations.ResetsAndStartUp := fun _ =>
  ⟨pwrgoodAssert_resets, fun hpower => ⟨pwrgoodDeassert_floats hpower, deviceReset_clears hpower⟩,
    fun hreset hpower => ⟨fun _ _ => rstNRelease_boots hreset hpower, rstNRelease_stops hreset hpower⟩,
    basecampReady_configures⟩

end Sys2Proof.Machine
end

section
/-! SUPPORT. Settling O53: what a Brix request that is taken as new does, and violations, events and sessions. -/
namespace Sys2Proof.Machine
open Sys2Proof

/-! ## A request that is taken as new -/

theorem State.served_running {s : State} {version : Nat} (h : s.served .smbus version = true) : s.sys.phase ≠ .stopped := by
  intro hstop
  simp [State.served, hstop] at h

/-- A transport that is served is not left to the boot ROM. -/
theorem State.brixIn_served {s : State} {src : BrixSrc} {b : List Byte} (h : s.served src (parseBrix src b).version = true) :
    ¬ (s.sys.phase = .stopped ∧ src = .smbus) := by
  rintro ⟨hstop, rfl⟩
  exact State.served_running h hstop

theorem State.msgSession_some {s : State} {m : BrixMsg} {y : Session} (h : s.msgSession m = some y) :
    m.version = 2 ∧ m.session ≠ 0 ∧ m.op ≠ opSessionFinish := by
  by_contra hno
  rw [State.msgSession, if_neg hno] at h
  cases h

/-- A new request of a session, or outside every session: what the operation answers, and what follows it. -/
theorem State.brixIn_takes {s : State} {src : BrixSrc} {b : List Byte} {x : Option Session} (h : s.brixTakes src b x)
    {m : BrixMsg} (hm : parseBrix src b = m) {result : Nat} {payload : List Byte} {u : State}
    (hact : s.brixAct src m.version m.op m.seq m.session x.isSome m.payload = (result, payload, u)) :
    s.brixIn src b = u.brixEnds m x result payload := by
  obtain ⟨hserved, hfate, hctx⟩ := h
  have hsrc : m.src = src := by rw [← hm]; rfl
  subst hsrc
  rw [State.brixIn, if_neg (State.brixIn_served hserved), hserved, hfate]
  rw [hm] at hctx ⊢
  cases x with
  | some y =>
    obtain ⟨hsession, hseq⟩ := hctx
    have hinside : s.inSession m y = u.brixEnds m (some y) result payload := by
      change s.brixAct m.src m.version m.op m.seq m.session true m.payload = _ at hact
      rw [State.inSession]
      dsimp only
      rw [if_pos hseq, hact]
      rfl
    rw [← hinside]
    dsimp only
    rw [if_pos (State.msgSession_some hsession), hsession]
    rfl
  | none =>
    obtain ⟨houtside, hseq⟩ := hctx
    have hdone : s.outside m = u.brixEnds m none result payload := by
      change s.brixAct m.src m.version m.op m.seq m.session false m.payload = _ at hact
      unfold State.outside
      dsimp only
      rw [hact]
      split
      next => rfl
      next c hc => exact if_pos (hseq c hc)
    rw [← hdone]
    dsimp only
    rw [if_neg houtside]
    rfl

/-! ## The operations -/

section
variable {s : State} {src : BrixSrc} {version seq session : Nat} {inSession : Bool} {p : List Byte}

/-! The transport carries the operation: the SMBus only the three of version 1. -/

theorem State.brixAct_ping (hsrc : ¬ (src = .smbus ∧ (version ≠ 1 ∨ 3 < opPing))) (hp : p = []) :
    s.brixAct src version opPing seq session inSession p = (rsOk, oneByte s.sys.state.code, s) := by
  rw [State.brixAct, if_neg hsrc, hp]
  rfl

theorem State.brixAct_read (hsrc : ¬ (src = .smbus ∧ (version ≠ 1 ∨ 3 < opRead))) :
    s.brixAct src version opRead seq session inSession p = s.doRead src inSession p := by
  rw [State.brixAct, if_neg hsrc]
  rfl

theorem State.brixAct_write (hsrc : ¬ (src = .smbus ∧ (version ≠ 1 ∨ 3 < opWrite))) :
    s.brixAct src version opWrite seq session inSession p = s.doWrite src inSession p := by
  rw [State.brixAct, if_neg hsrc]
  rfl

theorem State.brixAct_list (hsrc : ¬ (src = .smbus ∧ (version ≠ 1 ∨ 3 < opList))) :
    s.brixAct src version opList seq session inSession p = ((doList p).1, (doList p).2, s) := by
  rw [State.brixAct, if_neg hsrc]
  rfl

theorem State.brixAct_open (hsrc : ¬ (src = .smbus ∧ (version ≠ 1 ∨ 3 < opSessionOpen))) :
    s.brixAct src version opSessionOpen seq session inSession p = s.doOpen src p := by
  rw [State.brixAct, if_neg hsrc]
  rfl

theorem State.brixAct_finish (hsrc : ¬ (src = .smbus ∧ (version ≠ 1 ∨ 3 < opSessionFinish))) :
    s.brixAct src version opSessionFinish seq session inSession p = s.doFinish src session p := by
  rw [State.brixAct, if_neg hsrc]
  rfl

theorem State.brixAct_close (hsrc : ¬ (src = .smbus ∧ (version ≠ 1 ∨ 3 < opSessionClose))) (hin : inSession = true)
    (hp : p = []) : s.brixAct src version opSessionClose seq session inSession p = (rsOk, [], s.dropSession session) := by
  rw [State.brixAct, if_neg hsrc, hin, hp]
  rfl

theorem State.brixAct_measure (hsrc : ¬ (src = .smbus ∧ (version ≠ 1 ∨ 3 < opMeasure))) :
    s.brixAct src version opMeasure seq session inSession p = s.doMeasure version seq session p := by
  rw [State.brixAct, if_neg hsrc]
  rfl

theorem State.brixAct_ack (hsrc : ¬ (src = .smbus ∧ (version ≠ 1 ∨ 3 < opEventAck))) :
    s.brixAct src version opEventAck seq session inSession p = s.doAck p := by
  rw [State.brixAct, if_neg hsrc]
  rfl
end

/-- READ of one member. -/
theorem State.doRead_one {s u : State} {src : BrixSrc} {inSession : Bool} {p v : List Byte} {top : Nat} {a : Acc}
    (hp : p.length = 4) (hone : getLe p 3 1 = 1) (htop : objHighest (getLe p 0 2) = some top)
    (hacc : memberAcc (getLe p 0 2) (getLe p 2 1) = some a)
    (hmay : s.accessFault src inSession (getLe p 0 2) a false = none)
    (hread : s.readMember (getLe p 0 2) (getLe p 2 1) = (v, u)) (hfits : v.length ≤ brixLimit src) :
    s.doRead src inSession p = (rsOk, v, u) := by
  have hfaults : s.accessFaults src inSession (getLe p 0 2) false [getLe p 2 1] = none := by
    simp [State.accessFaults, hacc, hmay]
  have hmembers : s.readMembers (getLe p 0 2) (brixLimit src) [getLe p 2 1] = .ok (v, u) := by
    rw [State.readMembers, hread]
    dsimp only
    rw [if_neg (by omega)]
    simp [State.readMembers]
  unfold State.doRead
  dsimp only
  rw [if_neg (by omega), hone, if_neg (by omega), htop]
  dsimp only
  rw [show (List.range 1).map (fun k => getLe p 2 1 + k) = [getLe p 2 1] from rfl, hfaults]
  dsimp only
  rw [hmembers]

/-- WRITE of one member. -/
theorem State.doWrite_one {s u : State} {src : BrixSrc} {inSession : Bool} {p : List Byte} {top : Nat} {row : ObjRow} {v : ObjVal}
    (hp : 4 ≤ p.length) (hone : getLe p 3 1 = 1) (htop : objHighest (getLe p 0 2) = some top)
    (hrow : objRow? (getLe p 0 2) (getLe p 2 1) = some row) (hm : getLe p 2 1 ≠ 0)
    (hval : row.ty.take (p.drop 4) = some (v, []))
    (hmay : s.accessFault src inSession (getLe p 0 2) row.acc true = none)
    (hwrite : s.writeObject (getLe p 0 2) inSession [(getLe p 2 1, v)] = .ok u) :
    s.doWrite src inSession p = (rsOk, [], u) := by
  have hacc : memberAcc (getLe p 0 2) (getLe p 2 1) = some row.acc := by
    rw [memberAcc, if_neg hm, hrow]
    rfl
  have hfaults : s.accessFaults src inSession (getLe p 0 2) true [getLe p 2 1] = none := by
    simp [State.accessFaults, hacc, hmay]
  have hvalues : takeValues (getLe p 0 2) (p.drop 4) [getLe p 2 1] = some [(getLe p 2 1, v)] := by
    simp [takeValues, hm, hrow, hval]
  have hknown : [getLe p 2 1].find? (fun m => (memberAcc (getLe p 0 2) m).isNone) = none := by
    simp [hacc]
  unfold State.doWrite
  dsimp only
  rw [if_neg (by omega), hone, if_neg (by omega), htop]
  dsimp only
  rw [show (List.range 1).map (fun k => getLe p 2 1 + k) = [getLe p 2 1] from rfl, hknown]
  dsimp only
  rw [hvalues]
  dsimp only
  rw [hfaults]
  dsimp only
  rw [hwrite]

theorem fitTo_length (n : Nat) (bs : List Byte) : (fitTo n bs).length = n := sliceB_length bs 0 n

/-- SESSION_OPEN adds a session that is not established yet. -/
theorem State.doOpen_adds {s : State} {src : BrixSrc} {p : List Byte} (hp : p.length = 128)
    (hfree : s.mgmt.lockedOut.contains src = false) (hroom : s.mgmt.sessions.length < 4) :
    ∃ (u : State) (y : Session) (q : List Byte), s.doOpen src p = (rsOk, q, u) ∧ q.length = 228 ∧
      u.mgmt.sessions = s.mgmt.sessions ++ [y] ∧ y.id = s.mgmt.nextSession ∧ y.src = src ∧ y.established = false := by
  unfold State.doOpen
  rw [if_neg (not_not_intro hp), if_neg (by rw [hfree]; decide), if_neg (by omega)]
  refine ⟨_, _, _, rfl, ?_, rfl, rfl, rfl, rfl⟩
  simp only [List.length_append, fitTo_length, natLe_length]

theorem State.session?_updSession {s : State} {id : Nat} {src : BrixSrc} {y : Session} (h : s.session? id src = some y)
    {f : Session → Session} (hf : ∀ x, (f x).id = x.id ∧ (f x).src = x.src) :
    (s.updSession id f).session? id src = some (f y) := by
  have hpred : ((fun x : Session => x.id == id && x.src == src) ∘ fun x => if x.id == id then f x else x) =
      fun x => x.id == id && x.src == src := by
    funext x
    dsimp only [Function.comp]
    split
    · rw [(hf x).1, (hf x).2]
    · rfl
  unfold State.session? at h
  have hid : (y.id == id) = true :=
    (Bool.and_eq_true_iff.mp (List.find?_some (p := fun x : Session => x.id == id && x.src == src) h)).1
  unfold State.session? State.updSession
  rw [List.find?_map, hpred, h, Option.map_some, if_pos hid]

theorem State.session?_dropped {l : List Session} {id : Nat} {src : BrixSrc} :
    (l.filter (fun x => x.id != id)).find? (fun x => x.id == id && x.src == src) = none := by
  refine List.find?_eq_none.mpr fun x hx => ?_
  have hne : x.id ≠ id := by simpa using (List.mem_filter.mp hx).2
  simp [hne]

/-- SESSION_FINISH establishes the session, or drops it. -/
theorem State.doFinish_settles {s : State} {src : BrixSrc} {id : Nat} {p : List Byte} {y : Session} (hp : p.length = 192)
    (hy : s.session? id src = some y) (hnew : y.established = false) :
    let good := decide (sha384 (p.take 96) = genRootHash (s.flash.gen (s.mgmt.activeGen.getD 0))) &&
      Config.ecVerify (p.take 96) (sha384 (y.transcript ++ p.take 96)) (p.drop 96)
    ∃ u : State, s.doFinish src id p = (if good then rsOk else rsAuth, [], u) ∧
      (good = true → ∃ z : Session, u.session? id src = some z ∧ z.established = true) ∧
      (good = false → u.session? id src = none) := by
  intro good
  unfold State.doFinish
  rw [if_neg (not_not_intro hp), hy]
  dsimp only
  rw [if_neg (by rw [hnew]; decide)]
  by_cases hgood : good = true
  · rw [if_pos (by simpa [good] using hgood), if_pos hgood]
    exact ⟨_, rfl, fun _ => ⟨_, State.session?_updSession hy fun _ => ⟨rfl, rfl⟩, rfl⟩,
      fun h => absurd (hgood.symm.trans h) (by decide)⟩
  · rw [if_neg (by simpa [good] using hgood), if_neg hgood]
    exact ⟨_, rfl, fun h => absurd h hgood, fun _ => State.session?_dropped⟩

theorem State.doMeasure_signs {s : State} {version seq session : Nat} {p : List Byte} (hp : p.length = 32) :
    ∃ sign : List Byte, sign.length = 96 ∧ s.doMeasure version seq session p =
      (rsOk, p ++ s.mgmt.meas.flatMap (fitTo 48) ++ natLe 4 s.mgmt.fwVersion ++ oneByte (s.mgmt.activeGen.getD 0)
        ++ oneByte s.mgmt.bootSlot ++ natLe 2 s.mgmt.policyResult ++ sign, { s with freeCount := s.freeCount + 1 }) := by
  unfold State.doMeasure
  rw [if_neg (not_not_intro hp)]
  exact ⟨_, fitTo_length .., rfl⟩

theorem State.doAck_forgets {s : State} {p : List Byte} (hp : p.length = 2) :
    ∃ u : State, s.doAck p = (rsOk, [], u) ∧ u.mgmt.events = s.mgmt.events.filter (fun e => e.seq != getLe p 0 2) := by
  unfold State.doAck
  rw [if_neg (not_not_intro hp)]
  exact ⟨_, rfl, rfl⟩

theorem doList_ok {p : List Byte} (hp : p.length = 2) : (doList p).1 = rsOk := by
  rw [doList, if_neg (not_not_intro hp)]

/-! ## OTP and MEAS7 -/

/-- A WRITE of OTP burns the first generation that is blank. -/
theorem State.writeObject_otp {s u : State} {inSession : Bool} {l : List (Nat × ObjVal)}
    (h : s.writeObject 0x8010 inSession l = .ok u) :
    ∃ k g, (∀ j < k, genBurned (s.flash.gen j) = true) ∧ genBurned (s.flash.gen k) = false ∧
      u.flash.otp = s.flash.otp.set k g := by
  unfold State.writeObject at h
  split at h
  · cases h
  · rw [if_pos rfl, State.burnOtp] at h
    split at h
    next => cases h
    next k hk =>
      obtain ⟨hblank, -, hbefore⟩ := List.find?_range_eq_some.mp hk
      cases h
      exact ⟨k, _, fun j hj => by simpa using hbefore j hj, by simpa using hblank, rfl⟩

theorem State.writeObject_meas {s u : State} {inSession : Bool} {d : List Byte}
    (h : s.writeObject 0x8020 inSession [(9, .blob d)] = .ok u) : u.mgmt.meas = extendMeas s.mgmt.meas 7 d := by
  unfold State.writeObject at h
  split at h
  · cases h
  · cases h
    rfl

/-! ## Violations, events, sessions -/

theorem State.noteViolation_counts (s : State) (src : BrixSrc) :
    (s.noteViolation src).2.onum 0x60A0 8 = min (2 ^ 64 - 1) (s.onum 0x60A0 8 + 1) :=
  s.onum_oinc_same 0x60A0 8 1 (r := _) rfl

theorem State.violate_counts (s : State) (m : BrixMsg) (key : Option (List Byte)) (result : Nat) (payload : List Byte) :
    (s.violate m key result payload).onum 0x60A0 8 = min (2 ^ 64 - 1) (s.onum 0x60A0 8 + 1) := by
  unfold State.violate
  split
  next may u hu =>
    have hcount : u.onum 0x60A0 8 = _ := hu ▸ s.noteViolation_counts m.src
    split
    · rw [State.onum_congr ((State.sendAnswer_writes ..).objs_eq rfl)]
      exact hcount
    · exact hcount

/-- Whatever a check condemns is counted. -/
theorem brixViolation_counts {s : State} {src : BrixSrc} {b : List Byte} (hserved : s.served src (parseBrix src b).version = true)
    (hfate : s.brixFate src b ≠ .request) :
    ∃ t, exec (.brixViolation src b) s = .next t ∧ t.onum 0x60A0 8 = min (2 ^ 64 - 1) (s.onum 0x60A0 8 + 1) := by
  have hbad : s.brixBad src b = s.brixIn src b := by
    unfold State.brixBad
    extract_lets m inOrder
    rw [decide_eq_false hfate]
    rfl
  refine ⟨s.brixIn src b, by rw [exec_brixViolation, execBrixViolation, hbad], ?_⟩
  rw [State.brixIn, if_neg (State.brixIn_served hserved), hserved]
  dsimp only
  rw [if_neg (by decide)]
  split
  next mac _ =>
    split
    · rw [State.onum_oinc_other _ 1 (by decide)]
      exact s.noteViolation_counts src
    · exact s.noteViolation_counts src
  next => exact s.violate_counts ..
  next h => exact absurd h hfate

theorem eventResend_sends {s : State} {q : Nat} {e : PendEvent} (he : s.mgmt.events.find? (fun e => e.seq == q) = some e)
    (hleft : e.sends < 10) :
    ∃ t, exec (.eventResend q) s = .next t ∧ t.out = s.out ++ [.event q e.payload] ∧
      ∃ f, t.mgmt.events.find? (fun e => e.seq == q) = some f ∧ f.sends = e.sends + 1 := by
  have hpred : ((fun x : PendEvent => x.seq == q) ∘ fun x => if x.seq == q then { x with sends := x.sends + 1 } else x) =
      fun x => x.seq == q := by
    funext x
    dsimp only [Function.comp]
    split <;> rfl
  have hseq : (e.seq == q) = true := List.find?_some (p := fun e : PendEvent => e.seq == q) he
  rw [exec_eventResend, execEventResend, State.resendEvent, he]
  dsimp only
  rw [if_neg (by omega)]
  refine ⟨_, rfl, rfl, { e with sends := e.sends + 1 }, ?_, rfl⟩
  rw [State.emit_mgmt, List.find?_map, hpred, he, Option.map_some, if_pos hseq]

/-- Another state of the management is in its frame. -/
theorem State.setMgmt_frame (s : State) (x : MgmtSt) : Writes [.mgmt] s { s with mgmt := x } := by
  refine .mk fun f hf => ?_
  cases f with
  | mgmt => exact absurd (by simp) hf
  | _ => rfl

theorem sessionIdleTimeout_drops (s : State) (id : Nat) : ∃ t, exec (.sessionIdleTimeout id) s = .next t ∧
    Writes [.mgmt] s t ∧ t.mgmt.sessions = s.mgmt.sessions.filter (fun y => y.id != id) :=
  ⟨s.dropSession id, rfl, s.setMgmt_frame _, rfl⟩

theorem authLockoutExpiry_frees (s : State) (src : BrixSrc) : ∃ t, exec (.authLockoutExpiry src) s = .next t ∧
    Writes [.mgmt] s t ∧ t.mgmt.lockedOut.contains src = false ∧ ∀ f ∈ t.mgmt.failures, f.1 ≠ src := by
  refine ⟨_, rfl, s.setMgmt_frame _, ?_, fun f hf => ?_⟩
  · simp
  · simpa using (List.mem_filter.mp hf).2

/-! ## The rows (O53) -/

/-- The rows of the Brix operations. -/
theorem brixRow_eq {s : State} {r : BrixReq} {c : Instr × Nat} (hc : c ∈ ([(.brixPing r, opPing), (.brixRead r, opRead),
      (.brixWrite r, opWrite), (.brixList r, opList), (.sessionOpen r, opSessionOpen), (.sessionFinish r, opSessionFinish),
      (.sessionClose r, opSessionClose), (.measure r, opMeasure), (.eventAck r, opEventAck)] : List (Instr × Nat))) :
    exec c.1 s = .next (s.brixIn r.src (reqAs r c.2)) := by
  simp only [List.mem_cons, List.not_mem_nil, or_false] at hc
  rcases hc with rfl | rfl | rfl | rfl | rfl | rfl | rfl | rfl | rfl <;> rfl

/-- A WRITE of one member. -/
theorem brixWrite_takes {s u : State} {src : BrixSrc} {b : List Byte} {x : Option Session} {m : BrixMsg}
    (hm : parseBrix src b = m) (htakes : s.brixTakes src b x) (hop : m.op = opWrite)
    (hsrc : ¬ (src = .smbus ∧ m.version ≠ 1)) (hp : 4 ≤ m.payload.length) (hone : getLe m.payload 3 1 = 1)
    {top : Nat} {row : ObjRow} {v : ObjVal} (htop : objHighest (getLe m.payload 0 2) = some top)
    (hrow : objRow? (getLe m.payload 0 2) (getLe m.payload 2 1) = some row) (h0 : getLe m.payload 2 1 ≠ 0)
    (hval : row.ty.take (m.payload.drop 4) = some (v, []))
    (hmay : s.accessFault src x.isSome (getLe m.payload 0 2) row.acc true = none)
    (hwrite : s.writeObject (getLe m.payload 0 2) x.isSome [(getLe m.payload 2 1, v)] = .ok u) :
    s.brixIn src b = u.brixEnds m x rsOk [] := by
  refine State.brixIn_takes htakes hm ?_
  rw [hop, State.brixAct_write (by rintro ⟨hsm, hver | hbig⟩; exacts [hsrc ⟨hsm, hver⟩, absurd hbig (by decide)])]
  exact State.doWrite_one hp hone htop hrow h0 hval hmay hwrite

/-- Settles O53: every operation goes through `State.brixIn_takes`; its answer is what its own lemma says. -/
theorem management : Obligations.Management := by
  intro s r x
  refine ⟨fun c hc => ?_, ?_, fun src b => brixViolation_counts, fun q e => eventResend_sends, sessionIdleTimeout_drops s,
    authLockoutExpiry_frees s⟩
  · intro b m htakes hop hsrc
    have hrow : exec c.1 s = .next (s.brixIn r.src b) := brixRow_eq hc
    have hends : ∀ {result payload u},
        s.brixAct r.src m.version m.op m.seq m.session x.isSome m.payload = (result, payload, u) →
          exec c.1 s = .next (u.brixEnds m x result payload) :=
      fun hact => hrow.trans (congrArg _ (State.brixIn_takes htakes rfl hact))
    refine ⟨fun hc hp => ?_, fun hc hp hone top a v u htop hacc hmay hread hfits => ?_, fun hc hp => ?_,
      fun hc hp hfree hroom => ?_, fun hc hp y hy hnew => ?_, fun hc hin hp => ?_, fun hc hp => ?_, fun hc hp => ?_⟩ <;>
      rw [hop.trans hc] at hsrc hends
    · exact hends (State.brixAct_ping hsrc hp)
    · exact hends ((State.brixAct_read hsrc).trans (State.doRead_one hp hone htop hacc hmay hread hfits))
    · have hlist := State.brixAct_list (s := s) (seq := m.seq) (session := m.session) (inSession := x.isSome) (p := m.payload) hsrc
      rw [doList_ok hp] at hlist
      exact hends hlist
    · obtain ⟨u, y, p, hopen, hlen, hy⟩ := State.doOpen_adds hp hfree hroom
      exact ⟨u, y, p, hends ((State.brixAct_open hsrc).trans hopen), hlen, hy⟩
    · obtain ⟨u, hfinish, hu⟩ := State.doFinish_settles hp hy hnew
      exact ⟨u, hends ((State.brixAct_finish hsrc).trans hfinish), hu⟩
    · exact hends (State.brixAct_close hsrc hin hp)
    · obtain ⟨sign, hlen, hmeasure⟩ := State.doMeasure_signs hp
      exact ⟨sign, hlen, hends ((State.brixAct_measure hsrc).trans hmeasure)⟩
    · obtain ⟨u, hack, hevents⟩ := State.doAck_forgets hp
      exact ⟨u, hends ((State.brixAct_ack hsrc).trans hack), hevents⟩
  · intro b m i htakes hop hsrc hp hone top row v a u htop hrow h0 hval hacc hmay hwrite
    have hin : s.brixIn r.src b = u.brixEnds m x rsOk [] :=
      brixWrite_takes rfl htakes hop hsrc hp hone htop hrow h0 hval (hacc ▸ hmay) hwrite
    refine ⟨congrArg _ hin, fun hreq hi => ⟨?_, ?_⟩, fun hreq hi h9 d hv => ⟨?_, ?_⟩⟩
    · rw [exec_otpWrite, execOtpWrite, if_pos hreq]
      exact congrArg _ hin
    · rw [hi] at hwrite
      exact State.writeObject_otp hwrite
    · rw [exec_measExtend, execMeasExtend, if_pos hreq]
      exact congrArg _ hin
    · rw [hi, h9, hv] at hwrite
      exact State.writeObject_meas hwrite

end Sys2Proof.Machine
end

section
/-! SUPPORT. Settling O41: the work of channels, compression engines and digest contexts. -/
namespace Sys2Proof.Machine
open Sys2Proof

/-! ## What a read at the home leaves (R21) -/

theorem State.rawLost_of_no_raw {s : State} (h : s.dram.raw = []) (l : Nat) : s.rawLost l = false := by
  have hfate : s.rawFate l = none := by simp [State.rawFate, State.copyFate, h, SMap.find]
  rw [State.rawLost, hfate]

/-- A state without raw words, and one with other caches, access counts and, where every member reads as before, another
object store. -/
structure ReadsAlike (s t : State) : Prop where
  rest : ∃ cache access objs, t = { s with cache := cache, depot := { s.depot with access := access }, objs := objs }
  obj : ∀ i m, m < 256 → t.obj i m = s.obj i m
  raw : s.dram.raw = []

namespace ReadsAlike
variable {s t : State}

theorem onum (h : ReadsAlike s t) (i : Nat) {m : Nat} (hm : m < 256) : t.onum i m = s.onum i m := by
  rw [State.onum, State.oint, h.obj i m hm]
  rfl

theorem regionBase (h : ReadsAlike s t) : t.regionBase = s.regionBase := by
  rw [State.regionBase, State.populated, h.onum _ (by decide)]
  obtain ⟨_, _, _, rfl⟩ := h.rest
  rfl

theorem imgBacked (h : ReadsAlike s t) (a : Nat) : t.imgBacked a = s.imgBacked a := by
  rw [State.imgBacked, h.regionBase]
  obtain ⟨_, _, _, rfl⟩ := h.rest
  rfl

theorem inWindow (h : ReadsAlike s t) (x a n : Nat) : t.inWindow x a n = s.inWindow x a n := by
  simp only [State.inWindow, h.onum _ (show 3 < 256 by decide), h.onum _ (show 4 < 256 by decide)]

theorem outputEl (h : ReadsAlike s t) (x a n : Nat) : t.outputEl x a n = s.outputEl x a n := by
  obtain ⟨_, _, _, rfl⟩ := h.rest
  rfl

theorem elOk (h : ReadsAlike s t) (x : Nat) (e : ListEl) : t.elOk x e = s.elOk x e := by
  simp only [State.elOk, h.inWindow, h.imgBacked, h.outputEl]

theorem linePoisoned (h : ReadsAlike s t) (l : Nat) : t.linePoisoned l = s.linePoisoned l := by
  have hraw : t.dram.raw = [] := by
    obtain ⟨_, _, _, rfl⟩ := h.rest
    exact h.raw
  rw [State.linePoisoned, State.linePoisoned, State.rawLost_of_no_raw hraw, State.rawLost_of_no_raw h.raw]
  obtain ⟨_, _, _, rfl⟩ := h.rest
  rfl

theorem readFault (h : ReadsAlike s t) (l : Nat) : t.readFault l = s.readFault l := by
  rw [State.readFault, h.linePoisoned]
  obtain ⟨_, _, _, rfl⟩ := h.rest
  rfl

theorem objLineFault (h : ReadsAlike s t) (d : DObj) (off n : Nat) : t.objLineFault d off n = s.objLineFault d off n := by
  rw [State.objLineFault, funext h.readFault]
  obtain ⟨_, _, _, rfl⟩ := h.rest
  rfl

theorem imgLineFault (h : ReadsAlike s t) (a : Nat) : t.imgLineFault a = s.imgLineFault a := by
  rw [State.imgLineFault, h.imgBacked, h.linePoisoned]
  obtain ⟨_, _, _, rfl⟩ := h.rest
  rfl

theorem elFault (h : ReadsAlike s t) (x : Nat) (e : ListEl) : t.elFault x e = s.elFault x e := by
  simp only [State.elFault, h.elOk, h.outputEl, h.imgLineFault, h.objLineFault]
  obtain ⟨_, _, _, rfl⟩ := h.rest
  rfl

theorem elBytes (h : ReadsAlike s t) (x : Nat) (e : ListEl) : t.elBytes x e = s.elBytes x e := by
  obtain ⟨_, _, _, rfl⟩ := h.rest
  rfl

theorem listBytes (h : ReadsAlike s t) (x : Nat) (l : List ListEl) : t.listBytes x l = s.listBytes x l := by
  rw [State.listBytes, funext (h.elBytes x)]
  rfl

theorem listReadFault (h : ReadsAlike s t) (x k : Nat) (l : List ListEl) : t.listReadFault x k l = s.listReadFault x k l := by
  induction l generalizing k with
  | nil => rfl
  | cons e l ih => simp only [State.listReadFault, h.elFault, ih]

theorem listWriteFault (h : ReadsAlike s t) (x k : Nat) (l : List ListEl) : t.listWriteFault x k l = s.listWriteFault x k l := by
  induction l generalizing k with
  | nil => rfl
  | cons e l ih => simp only [State.listWriteFault, h.elOk, ih]

theorem chan (h : ReadsAlike s t) (c : Nat) : t.chan c = s.chan c := by
  obtain ⟨_, _, _, rfl⟩ := h.rest
  rfl
end ReadsAlike

/-- A state that differs in its caches and access counts alone. -/
def OnlyCached (s t : State) : Prop := ∃ cache access, t = { s with cache := cache, depot := { s.depot with access := access } }

theorem OnlyCached.trans {s t u : State} (h : OnlyCached s t) (h' : OnlyCached t u) : OnlyCached s u := by
  obtain ⟨_, _, rfl⟩ := h
  obtain ⟨c, a, rfl⟩ := h'
  exact ⟨c, a, rfl⟩

theorem State.slcPut_onlyCached (s : State) (l : Nat) (dirty streaming : Bool) : OnlyCached s (s.slcPut l dirty streaming) := by
  unfold State.slcPut
  extract_lets key ws w
  split
  · exact ⟨_, _, rfl⟩
  · split <;> exact ⟨_, _, rfl⟩

theorem State.countLine_onlyCached (s : State) (l : Nat) : OnlyCached s (s.countLine l) := by
  unfold State.countLine
  split
  · unfold State.countAccess
    extract_lets cls
    split <;> exact ⟨_, _, rfl⟩
  · exact ⟨_, _, rfl⟩

theorem State.slcAccess_onlyCached (s : State) (l : Nat) (streaming : Bool) : OnlyCached s (s.slcAccess l streaming) := by
  unfold State.slcAccess
  extract_lets hit a
  have ha : OnlyCached s a := by
    dsimp only [a]
    split
    · exact ⟨_, _, rfl⟩
    · exact s.countLine_onlyCached l
  split
  · exact ha
  · exact ha.trans (a.slcPut_onlyCached ..)

/-- A read of a line none of whose copies holds a raw word. -/
theorem State.lineFetch_onlyCached {s : State} (h : s.dram.raw = []) (l : Nat) (streaming : Bool) :
    OnlyCached s (s.lineFetch l streaming) := by
  have hno : s.rawAny l = false := by simp [State.rawAny, h, SMap.find]
  rw [State.lineFetch, hno]
  exact s.slcAccess_onlyCached l streaming

theorem State.lineFetches_onlyCached (ls : List Nat) {s : State} (h : s.dram.raw = []) :
    OnlyCached s (ls.foldl (fun s l => s.lineFetch l false) s) := by
  induction ls generalizing s with
  | nil => exact ⟨_, _, rfl⟩
  | cons l ls ih =>
    have hl := State.lineFetch_onlyCached h l false
    refine hl.trans (ih ?_)
    obtain ⟨_, _, ht⟩ := hl
    rw [ht]
    exact h

theorem State.homeReads_alike {s : State} (h : s.dram.raw = []) (ls : List Nat) : ReadsAlike s (s.homeReads ls) := by
  obtain ⟨cache, access, hx⟩ := State.lineFetches_onlyCached ls h
  rw [State.homeReads, hx, State.accessed, h]
  refine ⟨⟨_, _, _, rfl⟩, fun i m hm => ?_, h⟩
  by_cases hkey : okey i m = okey 0x3080 4
  · obtain ⟨rfl, rfl⟩ : i = 0x3080 ∧ m = 4 := by
      simp only [okey] at hkey
      omega
    simp [State.obj, SMap.find_put_same]
  · simp [State.obj, SMap.find_put_other _ _ hkey]

theorem State.listTouch_alike {s : State} (h : s.dram.raw = []) (t : Nat) (l : List ListEl) : ReadsAlike s (s.listTouch t l) :=
  State.homeReads_alike h _

/-! ## Entries start -/

theorem State.startEntry_chan (s : State) (ch : Nat) (x : EngEntry) : (s.startEntry ch x).chan ch =
    { s.chan ch with current := some x, waiting := (s.chan ch).waiting.drop 1 } := s.setChan_chan ch _

/-- A running channel without a current entry looks at its first waiting one. -/
theorem channelStart_copy {s : State} {ch : Nat} {x : EngEntry} {l : List EngEntry} (hrun : (s.chan ch).state = .running)
    (hnone : (s.chan ch).current = none) (hwait : (s.chan ch).waiting = x :: l) (hop : entOpcode x.entry = opCopy) :
    exec (.channelEntryStart ch) s = .next (s.startLists ch x) := by
  rw [exec_channelEntryStart, execChannelEntryStart, State.channelStart]
  dsimp only
  rw [if_neg (by simp [hrun, hnone]), hwait]
  dsimp only
  rw [hop]
  rfl

theorem channelStart_read {s : State} {ch : Nat} {x : EngEntry} {l : List EngEntry} (hrun : (s.chan ch).state = .running)
    (hnone : (s.chan ch).current = none) (hwait : (s.chan ch).waiting = x :: l) (hop : entOpcode x.entry = opDigestRead) :
    exec (.channelEntryStart ch) s = .next (s.startRead ch x) := by
  rw [exec_channelEntryStart, execChannelEntryStart, State.channelStart]
  dsimp only
  rw [if_neg (by simp [hrun, hnone]), hwait]
  dsimp only
  rw [hop]
  rfl

/-- A copy takes its source bytes. -/
theorem channelEntryStart_copies {s : State} {ch : Nat} {x : EngEntry} {l : List EngEntry} (hrun : (s.chan ch).state = .running)
    (hnone : (s.chan ch).current = none) (hwait : (s.chan ch).waiting = x :: l) (hop : entOpcode x.entry = opCopy)
    (hraw : s.dram.raw = []) {src dst : List ListEl} (hlists : s.entryLists x.entry true = .ok src dst)
    (hneed : src.flatMap (s.elNeed x.entry.tenant) = []) (hread : s.listReadFault x.entry.tenant 0 src = none)
    (hwrite : s.listWriteFault x.entry.tenant 0 dst = none) :
    ∃ u, exec (.channelEntryStart ch) s = .next u ∧ u.chan ch = { s.chan ch with
      current := some { x with src := src, dst := dst, data := s.listBytes x.entry.tenant src }, waiting := l } := by
  have halike := State.listTouch_alike hraw x.entry.tenant src
  have hstart : s.startLists ch x = (s.listTouch x.entry.tenant src).startEntry ch
      { x with src := src, dst := dst, data := s.listBytes x.entry.tenant src } := by
    unfold State.startLists
    dsimp only
    rw [hop, show (opCopy != opDigestFeed) = true from rfl, hlists]
    dsimp only
    rw [hneed, if_neg (by decide), if_pos rfl, halike.listReadFault, halike.listWriteFault, halike.listBytes, hread, hwrite]
    rfl
  refine ⟨_, (channelStart_copy hrun hnone hwait hop).trans (congrArg _ hstart), ?_⟩
  rw [State.startEntry_chan, halike.chan, hwait]
  rfl

/-- A read takes the digest that is ready. -/
theorem channelEntryStart_reads {s : State} {ch : Nat} {x : EngEntry} {l : List EngEntry} (hrun : (s.chan ch).state = .running)
    (hnone : (s.chan ch).current = none) (hwait : (s.chan ch).waiting = x :: l) (hop : entOpcode x.entry = opDigestRead)
    {n : Nat} {c : DigestCtx} (hctx : s.digestCtx? x.entry.tenant (entMsg x.entry) = some (n, c))
    (hwrite : s.listWriteFault x.entry.tenant 0 [((refHost (entW x.entry 1)).toNat, refAddr (entW x.entry 1), 64)] = none)
    (hfree : s.feedBusy x.entry = false) (hready : c.ready = true) (hall : c.discarded = 0) :
    ∃ u y, exec (.channelEntryStart ch) s = .next u ∧ (u.chan ch).current = some y ∧
      y.data = fitTo 64 (digestOf c.alg c.key c.taken) ∧ y.result = some { status := stOk, value := c.taken.length, aux := 0 } ∧
      (u.chan ch).waiting = l := by
  let y : EngEntry := { x with
    dst := [((refHost (entW x.entry 1)).toNat, refAddr (entW x.entry 1), 64)]
    data := fitTo 64 (digestOf c.alg c.key c.taken)
    result := some { status := stOk, value := c.taken.length, aux := 0 } }
  have hstart : s.startRead ch x = (s.dropCtx n).startEntry ch y := by
    unfold State.startRead
    dsimp only
    rw [hctx]
    dsimp only
    rw [hwrite]
    dsimp only
    rw [hfree, if_neg (by decide), if_pos hready, if_pos hall, hall]
  refine ⟨_, y, (channelStart_read hrun hnone hwait hop).trans (congrArg _ hstart), ?_, rfl, rfl, ?_⟩
  · rw [State.startEntry_chan]
  · rw [State.startEntry_chan]
    exact congrArg (List.drop 1) hwait

/-! ## Entries end -/

/-- An entry whose work is done completes where no fence holds it back. -/
theorem channelComplete_ends {s u : State} {ch : Nat} {x : EngEntry} {r : EngResult} (hcur : (s.chan ch).current = some x)
    (hnew : x.written = false) (hfence : entFence x.entry = false) (hwork : s.entryWork ch x = .done r u) :
    exec (.engineEntryComplete ch) s = .next (u.entryEnds ch x r) := by
  have hread : x.fenceRead r = none := by rw [EngEntry.fenceRead, hfence]; rfl
  rw [exec_engineEntryComplete, execEngineEntryComplete, State.channelComplete, hcur]
  dsimp only
  rw [hnew, hwork]
  dsimp only
  rw [hread, hfence]
  rfl

theorem State.entryWork_result {s : State} {ch : Nat} {x : EngEntry} {r : EngResult} (hr : x.result = some r) :
    s.entryWork ch x = .done r (s.scatter ch x.entry.tenant x.dst x.data) := by
  rw [State.entryWork, hr]

theorem State.entryWork_copy {s u : State} {ch : Nat} {x : EngEntry} {b : List Byte} (hr : x.result = none)
    (hop : entOpcode x.entry = opCopy) (hb : s.copyData x = (b, u)) : s.entryWork ch x =
      .done { status := stOk, value := b.length, aux := 0 } ((u.scatter ch x.entry.tenant x.dst b).oinc 0x3090 1 b.length) := by
  rw [State.entryWork, hr]
  dsimp only
  rw [if_pos hop, hb]

/-! ## Halts -/

/-- What a halt leaves of the entry's work is not in the channels. -/
theorem State.haltWork_chan (s : State) (ch : Nat) (x : EngEntry) (f : AccessFault) (c : Nat) :
    (s.haltWork ch x f).2.chan c = s.chan c := by
  have hblur : ∀ (u : State) (l : List ListEl), (u.blurDst ch x.entry.tenant l).chan c = u.chan c :=
    fun u l => (State.blurDst_writes u ch _ l).chan_eq c
  unfold State.haltWork
  dsimp only
  split
  · split
    · rfl
    · have hdata : (s.copyData x).2.chan c = s.chan c := (State.copyData_writes s x).chan_eq c
      exact (hblur _ _).trans (((State.scatter_writes ..).chan_eq c).trans hdata)
  · split
    · split
      · rfl
      · exact hblur _ _
    · split
      · rfl
      · split
        · rfl
        · split
          · split <;> rfl
          · rfl

theorem State.postEngines_chan (l : List EngEntry) (s : State) (c : Nat) :
    (l.foldl (fun s x => s.postEngine x stOk 0 0 none) s).chan c = s.chan c :=
  (Moves.foldl l (fun s x => s.postEngine_writes x stOk 0 0 none) (.refl _ s)).chan_eq c

theorem State.channelEnds_chan (s : State) (ch : Nat) : ((s.channelEnds ch).chan ch).current = none ∧
    ((s.channelEnds ch).chan ch).waiting = (s.chan ch).waiting := by
  unfold State.channelEnds
  dsimp only
  rw [State.postEngines_chan, (State.releaseHeld_writes _).chan_eq, State.setChan_chan]
  exact ⟨rfl, rfl⟩

theorem State.haltChannel_chan (s : State) (ch : Nat) (x : EngEntry) (f : AccessFault) :
    let c := (s.haltChannel ch x f).chan ch
    c.state = .halted ∧ c.fault = some f ∧ c.current = none ∧ c.waiting = (s.chan ch).waiting := by
  obtain ⟨hcur, hwait⟩ :=
    ((s.haltWork ch x f).2.postEngine x (faultStatus f) (s.haltWork ch x f).1 0 (some f)).channelEnds_chan ch
  rw [(State.postEngine_writes ..).chan_eq, s.haltWork_chan] at hwait
  unfold State.haltChannel
  dsimp only
  generalize ((s.haltWork ch x f).2.postEngine x (faultStatus f) (s.haltWork ch x f).1 0 (some f)).channelEnds ch = u at hcur hwait
  have hhalt : ∀ (v : State) (a : RecArgs), ((v.raise a).oinc 0x3090 2 1).chan ch = v.chan ch :=
    fun v a => (State.raise_writes v a).chan_eq ch
  rw [hhalt, State.setChan_chan]
  exact ⟨rfl, rfl, hcur, hwait⟩

/-! ## Engines and digest blocks -/

theorem pairwise_insertBy {α : Type} {lt : α → α → Bool} {P : α → α → Prop} (hlt : ∀ a b, lt a b = true → P a b)
    (hnlt : ∀ a b, lt a b = false → P b a) (htrans : ∀ a b c, P a b → P b c → P a c) (x : α) {l : List α}
    (h : l.Pairwise P) : (insertBy lt x l).Pairwise P := by
  induction l with
  | nil => exact List.pairwise_singleton ..
  | cons y l ih =>
    obtain ⟨hy, hl⟩ := List.pairwise_cons.mp h
    unfold insertBy
    split
    next hxy =>
      refine List.pairwise_cons.mpr ⟨fun z hz => ?_, h⟩
      rcases List.mem_cons.mp hz with rfl | hz
      · exact hlt x z hxy
      · exact htrans _ _ _ (hlt x y hxy) (hy z hz)
    next hxy =>
      refine List.pairwise_cons.mpr ⟨fun z hz => ?_, ih hl⟩
      rcases List.mem_cons.mp ((perm_insertBy lt x l).subset hz) with rfl | hz
      · exact hnlt z y (Bool.eq_false_iff.mpr hxy)
      · exact hy z hz

/-- A sorted list is in order of any preorder that the comparison decides. -/
theorem pairwise_sortBy {α : Type} {lt : α → α → Bool} {P : α → α → Prop} (hlt : ∀ a b, lt a b = true → P a b)
    (hnlt : ∀ a b, lt a b = false → P b a) (htrans : ∀ a b c, P a b → P b c → P a c) (l : List α) :
    (sortBy lt l).Pairwise P := by
  have hfold : ∀ acc : List α, acc.Pairwise P → (l.foldl (fun acc x => insertBy lt x acc) acc).Pairwise P := by
    induction l with
    | nil => exact fun _ h => h
    | cons x l ih => exact fun acc h => ih _ (pairwise_insertBy hlt hnlt htrans x h)
  exact hfold [] .nil

/-- The first waiting job is of the highest priority. -/
theorem State.waitingJobs_priority (s : State) : s.waitingJobs.Pairwise (fun a b => b.2.priority ≤ a.2.priority) := by
  refine pairwise_sortBy (P := fun a b : Nat × EngEntry => b.2.priority ≤ a.2.priority) (fun a b h => ?_)
    (fun a b h => ?_) (fun a b c hab hbc => Nat.le_trans hbc hab) _
  · rcases of_decide_eq_true h with h | ⟨h, -⟩ <;> omega
  · have hnot := of_decide_eq_false h
    omega

/-- Another state of the engines is in their frame. -/
theorem State.setEng_frame (s : State) (x : EngSt) : Writes [.eng] s { s with eng := x } := by
  refine .mk fun f hf => ?_
  cases f with
  | eng => exact absurd (by simp) hf
  | _ => rfl

theorem compressionJobStart_serves {s : State} {ch n : Nat} {x : EngEntry} {l : List (Nat × EngEntry)}
    (hn : (List.range 4).find? (fun n => (s.eng.engines.find n).isNone) = some n) (hjobs : s.waitingJobs = (ch, x) :: l) :
    (∀ y ∈ l, y.2.priority ≤ x.priority) ∧ ∃ u, exec .compressionJobStart s = .next u ∧
      u.eng.engines.find n = some ch ∧ Writes [.eng] s u := by
  refine ⟨(List.pairwise_cons.mp (hjobs ▸ s.waitingJobs_priority)).1, ?_⟩
  rw [exec_compressionJobStart, execCompressionJobStart, State.startJob, hn, hjobs]
  exact ⟨_, rfl, SMap.find_put_same .., s.setEng_frame _⟩

theorem digestBlock_takes {s : State} {ch n : Nat} {x : EngEntry} {c : DigestCtx} (hready : s.readyContexts = [(n, ch, x)])
    (hc : s.eng.contexts.find n = some c) : ∃ u c', exec .digestBlock s = .next u ∧
      u.eng.lastContext = n ∧ u.eng.contexts.find n = some c' ∧ c'.taken = c.taken ++ x.data.take c.blockRest ∧
      (u.chan ch).current = some { x with data := x.data.drop c.blockRest } := by
  rw [exec_digestBlock, execDigestBlock, State.digestStep, hready]
  dsimp only [sortBy, List.foldl, insertBy, List.head?]
  rw [hc]
  exact ⟨_, _, rfl, rfl, SMap.find_put_same .., rfl, congrArg Chan.current (State.setChan_chan ..)⟩

/-- Settles O41: how channels start, finish and halt their entries, and how jobs and blocks are served. -/
theorem channelWork : Obligations.ChannelWork := by
  intro s ch
  refine ⟨fun x l hrun hnone hwait => ⟨fun hop hraw src dst => channelEntryStart_copies hrun hnone hwait hop hraw,
      fun hop n c => channelEntryStart_reads hrun hnone hwait hop⟩,
    fun x hcur hnew hfence => ⟨fun r hr => channelComplete_ends hcur hnew hfence (State.entryWork_result hr),
      fun hr hop b u hb => channelComplete_ends hcur hnew hfence (State.entryWork_copy hr hop hb)⟩,
    fun x f hcur => ?_, fun n x l => compressionJobStart_serves, fun n x c => digestBlock_takes⟩
  have hrow : exec (.channelHalt ch f) s = .next (s.haltChannel ch x f) := by
    rw [exec_channelHalt, execChannelHalt, State.channelFault, hcur]
  exact ⟨_, hrow, s.haltChannel_chan ch x f⟩

end Sys2Proof.Machine
end

section
/-! SUPPORT. What reads of memory and a retreat keep of the channels: the place of each scrubber, and that a failed channel stays
failed (R424, R437). -/
namespace Sys2Proof.Machine
open Sys2Proof

/-- The scrubbers stand where they stood, and channels that had failed are failed still. -/
structure FailsOnly (s t : State) : Prop where
  scrubPos : t.dram.scrubPos = s.dram.scrubPos
  failed : ∀ ch, s.chanState ch = .failed → t.chanState ch = .failed

namespace FailsOnly
variable {s t u : State}

theorem of_fields (hp : t.dram.scrubPos = s.dram.scrubPos) (hc : t.dram.chState = s.dram.chState) : FailsOnly s t :=
  ⟨hp, fun ch h => by rw [State.chanState, hc]; exact h⟩

theorem refl (s : State) : FailsOnly s s := of_fields rfl rfl

theorem trans (h : FailsOnly s t) (h' : FailsOnly t u) : FailsOnly s u :=
  ⟨h'.scrubPos.trans h.scrubPos, fun ch hf => h'.failed ch (h.failed ch hf)⟩

theorem after (h' : FailsOnly t u) (h : FailsOnly s t) : FailsOnly s u := h.trans h'

theorem of_dram (h : t.dram = s.dram) : FailsOnly s t := of_fields (by rw [h]) (by rw [h])

theorem of_moves {l : List Field} (h : Moves l s t) (hl : l.contains .dram = false := by rfl) : FailsOnly s t :=
  of_dram (h.dram_eq hl)

theorem thenMoves {l : List Field} (h' : Moves l t u) (h : FailsOnly s t) (hl : l.contains .dram = false := by rfl) :
    FailsOnly s u := h.trans (of_moves h' hl)

theorem ite {p : Prop} [Decidable p] (ht : FailsOnly s t) (hu : FailsOnly s u) : FailsOnly s (if p then t else u) := by
  split <;> assumption

theorem foldl {α : Type} {f : State → α → State} (hf : ∀ s a, FailsOnly s (f s a)) (l : List α) (s : State) :
    FailsOnly s (l.foldl f s) := by
  induction l generalizing s with
  | nil => exact refl s
  | cons a l ih => exact (hf s a).trans (ih _)

theorem raise (s : State) (a : RecArgs) : FailsOnly s (s.raise a) := of_moves (s.raise_writes a)
end FailsOnly

/-! ## Reads of memory -/

theorem State.lineRecord_failsOnly (s : State) (l m severity cause dev syms flags : Nat) :
    FailsOnly s (s.lineRecord l m severity cause dev syms flags) := .of_moves (State.lineRecord_writes ..)

theorem State.remapLine_failsOnly (s : State) (l m dev syms scrub : Nat) : FailsOnly s (s.remapLine l m dev syms scrub) := by
  unfold State.remapLine
  split
  · exact s.lineRecord_failsOnly ..
  · exact .trans (s.lineRecord_failsOnly ..) (.of_fields rfl rfl)

theorem State.countFault_failsOnly (s : State) (l m dev syms scrub : Nat) : FailsOnly s (s.countFault l m dev syms scrub) := by
  unfold State.countFault
  extract_lets ch
  split
  split
  extract_lets a b
  have ha : FailsOnly s a := .of_fields rfl rfl
  have hb : FailsOnly a b := .ite (.ite (.of_moves (State.markRow_writes ..)) (.of_moves (State.retireRow_writes ..))) (.refl a)
  exact .ite ((ha.trans hb).trans (b.remapLine_failsOnly ..)) (ha.trans hb)

theorem State.copyFresh_failsOnly (s : State) (l m : Nat) : FailsOnly s (s.copyFresh l m) := .of_fields rfl rfl

theorem State.poison_failsOnly (s : State) (l : Nat) : FailsOnly s (s.poison l) := by
  unfold State.poison
  exact .thenMoves (State.uncache_writes ..) (.of_fields rfl rfl)

/-- One channel more has failed. -/
theorem State.putFailed_failsOnly (s : State) (ch : Nat) :
    FailsOnly s { s with dram := { s.dram with chState := s.dram.chState.put ch .failed } } := by
  refine ⟨rfl, fun c hc => ?_⟩
  by_cases h : c = ch
  · rw [h, State.chanState, SMap.find_put_same]
    rfl
  · rw [State.chanState, SMap.find_put_other _ _ h]
    exact hc

theorem State.fenceChannel_failsOnly (s : State) (ch : Nat) : FailsOnly s (s.fenceChannel ch) :=
  .after (.raise _ _) (s.putFailed_failsOnly ch)

theorem State.noteLost_failsOnly (s : State) (l m : Nat) : FailsOnly s (s.noteLost l m) := by
  unfold State.noteLost
  extract_lets ch lost _ a
  have ha : FailsOnly s a := .of_fields rfl rfl
  exact .ite (.ite (ha.trans (a.fenceChannel_failsOnly ch)) (.of_fields rfl rfl)) ha

theorem State.lineLost_failsOnly (s : State) (l m scrub : Nat) : FailsOnly s (s.lineLost l m scrub) := by
  unfold State.lineLost
  extract_lets ch a _ b
  have ha : FailsOnly s a := .trans (s.lineRecord_failsOnly l m 1 0x0003 31 0 scrub) (.of_fields rfl rfl)
  have hb : FailsOnly a b := .of_fields rfl rfl
  exact (ha.trans hb).trans (b.poison_failsOnly l)

theorem State.lineCorrected_failsOnly (s : State) (l m : Nat) (fixed : List Nat) (scrub : Bool) :
    FailsOnly s (s.lineCorrected l m fixed scrub) := by
  unfold State.lineCorrected
  extract_lets ch sf a marked dev b _ c d
  have ha : FailsOnly s a := .of_fields rfl rfl
  have hb : FailsOnly a b := a.lineRecord_failsOnly ..
  have hc : FailsOnly b c := .of_fields rfl rfl
  have hd : FailsOnly a d := .ite (.refl a) ((hb.trans hc).trans (c.countFault_failsOnly ..))
  exact .ite ((ha.trans hd).trans (d.copyFresh_failsOnly ..)) (ha.trans hd)

theorem State.copyServed_failsOnly (s : State) (l m : Nat) (scrub : Bool) : FailsOnly s (s.copyServed l m scrub) := by
  unfold State.copyServed
  split
  · exact .ite (.refl s) (s.lineCorrected_failsOnly ..)
  · exact .refl s

theorem State.mirrorRepair_failsOnly (s : State) (l m scrub : Nat) : FailsOnly s (s.mirrorRepair l m scrub) :=
  ((s.lineRecord_failsOnly ..).trans (State.copyFresh_failsOnly _ l m)).trans (State.copyServed_failsOnly ..)

theorem State.copyRead_failsOnly (s : State) (l m : Nat) (scrub : Bool) : FailsOnly s (s.copyRead l m scrub) := by
  unfold State.copyRead
  refine .ite (.refl s) ?_
  split
  · exact s.poison_failsOnly l
  · extract_lets sf good a
    have ha : FailsOnly s a := s.noteLost_failsOnly l m
    exact .ite (ha.trans (a.mirrorRepair_failsOnly ..)) (ha.trans (a.lineLost_failsOnly ..))
  · exact s.copyServed_failsOnly ..

theorem State.memRead_failsOnly (s : State) (l : Nat) (scrub : Bool) : FailsOnly s (s.memRead l scrub) :=
  s.copyRead_failsOnly ..

/-! ## A retreat -/

theorem State.spoilRecord_failsOnly (s : State) (line : Nat) (far : Bool) : FailsOnly s (s.spoilRecord line far) := by
  unfold State.spoilRecord
  exact .ite (.thenMoves (State.proxyNote_writes ..) (.of_fields rfl rfl)) (s.poison_failsOnly line)

theorem State.restoreRecord_failsOnly (s : State) (j : JRec) : FailsOnly s (s.restoreRecord j) := by
  unfold State.restoreRecord
  extract_lets jl a bad
  have ha : FailsOnly s a := (s.memRead_failsOnly ..).trans (State.memRead_failsOnly ..)
  split
  · exact ha
  · extract_lets b base line c _ _ d
    have hb : FailsOnly a b := by
      dsimp only [b]
      split
      · exact .ite (.refl a) (.of_moves (State.putObj_writes ..))
      · exact .refl a
    have hc : FailsOnly b c :=
      .ite (.ite (.refl b) (.of_moves (State.restoreFar_writes ..))) (.of_moves (State.replayInval_writes ..))
    have hd : FailsOnly c d := .of_fields rfl rfl
    have hsd := ((ha.trans hb).trans hc).trans hd
    exact .ite ((hsd.trans (d.spoilRecord_failsOnly ..)).trans (.of_moves (State.endAt_writes ..))) hsd

theorem State.applyJournal_failsOnly (s : State) (k : RouteKey) (spanPitch : Nat) : FailsOnly s (s.applyJournal k spanPitch) := by
  unfold State.applyJournal
  extract_lets mine a
  have ha : FailsOnly s a := .foldl State.restoreRecord_failsOnly _ s
  exact ha.trans (.thenMoves (State.refreshDir_writes ..) (.of_fields rfl rfl))

theorem State.discardSpan_failsOnly (s : State) (k : RouteKey) : FailsOnly s (s.discardSpan k) := by
  unfold State.discardSpan
  split
  · exact .refl s
  · extract_lets pitch a b c d e _ f
    have ha : FailsOnly s a := .of_moves (State.camReplay_writes ..)
    have hb1 : FailsOnly a ((a.dropTasks k).dropStrands k) :=
      .trans (.of_moves (State.dropTasks_writes ..)) (.of_moves (State.dropStrands_writes ..))
    have hb2 : FailsOnly ((a.dropTasks k).dropStrands k) (((a.dropTasks k).dropStrands k).dropWrites k) :=
      .of_moves (State.dropWrites_writes ..)
    have hb : FailsOnly a b := (hb1.trans hb2).trans (.of_moves (State.forgetReads_writes ..))
    have hc : FailsOnly b c := b.applyJournal_failsOnly ..
    have hd : FailsOnly c d := .of_moves (State.depotReplay_writes ..)
    have he : FailsOnly d e := .of_moves (State.dropEntries_writes ..)
    have hf : FailsOnly e f := .of_fields rfl rfl
    exact ((((ha.trans hb).trans hc).trans hd).trans (he.trans hf)).trans (.of_moves (State.updRoute_writes ..))

theorem State.endRoute_failsOnly (s : State) (k : RouteKey) (status tick : Nat) (record : Bool) :
    FailsOnly s (s.endRoute k status tick record) := by
  unfold State.endRoute
  split
  · exact .refl s
  · refine .ite (.refl s) ?_
    extract_lets a b
    have ha : FailsOnly s a := .ite (s.discardSpan_failsOnly k) (.refl s)
    have hb : FailsOnly a b := by
      dsimp only [b]
      split
      · exact .of_moves (State.dropPublish_writes ..)
      · exact .refl a
    exact (ha.trans hb).trans (.of_moves (State.closeOut_writes ..))

theorem State.retreatWork_failsOnly (s : State) : FailsOnly s s.retreatWork := by
  unfold State.retreatWork
  extract_lets a b
  have ha : FailsOnly s a := .foldl (fun s (r : Route) => .ite (.refl s)
    (.thenMoves (State.updRoute_writes ..) (.ite (s.discardSpan_failsOnly r.key) (.refl s)))) _ s
  have hb : FailsOnly a b := .foldl (fun s (r : Route) => .ite (s.endRoute_failsOnly ..) (.refl s)) _ a
  exact (ha.trans hb).trans (.foldl (fun s r => .of_moves (State.sweepL2_writes ..)) _ b)

theorem State.enterRetreat_failsOnly (s : State) (bit : Nat) : FailsOnly s (s.enterRetreat bit) := by
  unfold State.enterRetreat
  split
  · exact .after (State.retreatWork_failsOnly _) (.of_fields rfl rfl)
  · exact .after (State.retreatWork_failsOnly _) (.of_fields rfl rfl)
  · exact .of_fields rfl rfl
  · exact .of_fields rfl rfl

theorem State.fatalDevice_failsOnly (s : State) (a : RecArgs) : FailsOnly s (s.fatalDevice a) :=
  (FailsOnly.raise s _).trans (State.enterRetreat_failsOnly ..)

/-- A failing channel fails, and no other comes back. -/
theorem State.channelFails_failsOnly (s : State) (ch : Nat) : FailsOnly s (s.channelFails ch) := by
  unfold State.channelFails
  exact .ite (.refl s) (.ite (s.fenceChannel_failsOnly ch) (.after (State.fatalDevice_failsOnly ..) (s.putFailed_failsOnly ch)))

theorem State.channelsFail_failsOnly (s : State) : FailsOnly s s.channelsFail :=
  .after (.foldl State.channelFails_failsOnly s.dram.failDue _) (.of_fields rfl rfl)

end Sys2Proof.Machine
end

section
/-! SUPPORT. Settling O52, first part: what a scrubber's read does to the line it reads (R434, R437, R438). -/
namespace Sys2Proof.Machine
open Sys2Proof

/-! ## Corrections -/

theorem SMap.find_del_none {α : Type} {m : SMap α} {k : Nat} (h : m.find k = none) (j : Nat) : (m.del j).find k = none := by
  by_cases hk : k = j
  · rw [hk, SMap.find_del_same]
  · rw [SMap.find_del_other _ hk, h]

/-- Corrections store no raw word, poison no line and fail no channel. -/
structure OnlyCorrects (s t : State) : Prop where
  failDue : t.dram.failDue = s.dram.failDue
  poisoned : t.dram.poisoned = s.dram.poisoned
  raw : ∀ k, s.dram.raw.find k = none → t.dram.raw.find k = none

namespace OnlyCorrects
variable {s t u : State}

theorem of_dram (h : t.dram = s.dram) : OnlyCorrects s t := ⟨by rw [h], by rw [h], fun k hk => by rw [h]; exact hk⟩

theorem refl (s : State) : OnlyCorrects s s := of_dram rfl

theorem trans (h : OnlyCorrects s t) (h' : OnlyCorrects t u) : OnlyCorrects s u :=
  ⟨h'.failDue.trans h.failDue, h'.poisoned.trans h.poisoned, fun k hk => h'.raw k (h.raw k hk)⟩

theorem of_moves {l : List Field} (h : Moves l s t) (hl : l.contains .dram = false := by rfl) : OnlyCorrects s t :=
  of_dram (h.dram_eq hl)

theorem ite {p : Prop} [Decidable p] (ht : OnlyCorrects s t) (hu : OnlyCorrects s u) : OnlyCorrects s (if p then t else u) := by
  split <;> assumption
end OnlyCorrects

theorem State.lineRecord_corrects (s : State) (l m severity cause dev syms flags : Nat) :
    OnlyCorrects s (s.lineRecord l m severity cause dev syms flags) := .of_moves (State.lineRecord_writes ..)

theorem State.copyFresh_corrects (s : State) (l m : Nat) : OnlyCorrects s (s.copyFresh l m) :=
  ⟨rfl, rfl, fun _ h => SMap.find_del_none h _⟩

theorem State.remapLine_corrects (s : State) (l m dev syms scrub : Nat) : OnlyCorrects s (s.remapLine l m dev syms scrub) := by
  unfold State.remapLine
  split
  · exact s.lineRecord_corrects ..
  · exact .trans (s.lineRecord_corrects ..) ⟨rfl, rfl, fun _ h => SMap.find_del_none h _⟩

theorem State.countFault_corrects (s : State) (l m dev syms scrub : Nat) : OnlyCorrects s (s.countFault l m dev syms scrub) := by
  unfold State.countFault
  extract_lets ch
  split
  split
  extract_lets a b
  have ha : OnlyCorrects s a := ⟨rfl, rfl, fun _ h => h⟩
  have hb : OnlyCorrects a b :=
    .ite (.ite (.of_moves (State.markRow_writes ..)) (.of_moves (State.retireRow_writes ..))) (.refl a)
  exact .ite ((ha.trans hb).trans (b.remapLine_corrects ..)) (ha.trans hb)

theorem State.lineCorrected_corrects (s : State) (l m : Nat) (fixed : List Nat) (scrub : Bool) :
    OnlyCorrects s (s.lineCorrected l m fixed scrub) := by
  unfold State.lineCorrected
  extract_lets ch sf a marked dev b _ c d
  have ha : OnlyCorrects s a := .of_dram rfl
  have hb : OnlyCorrects a b := a.lineRecord_corrects ..
  have hc : OnlyCorrects b c := ⟨rfl, rfl, fun _ h => h⟩
  have hd : OnlyCorrects a d := .ite (.refl a) ((hb.trans hc).trans (c.countFault_corrects ..))
  exact .ite ((ha.trans hd).trans (d.copyFresh_corrects ..)) (ha.trans hd)

theorem State.copyServed_corrects (s : State) (l m : Nat) (scrub : Bool) : OnlyCorrects s (s.copyServed l m scrub) := by
  unfold State.copyServed
  split
  · exact .ite (.refl s) (s.lineCorrected_corrects ..)
  · exact .refl s

/-- The rewritten copy has no raw word any more. -/
theorem State.mirrorRepair_corrects (s : State) (l m scrub : Nat) : OnlyCorrects s (s.mirrorRepair l m scrub) ∧
    (s.mirrorRepair l m scrub).dram.raw.find (copyKey l m) = none := by
  unfold State.mirrorRepair
  extract_lets a
  have ha : OnlyCorrects s a := s.lineRecord_corrects ..
  have hserved := (a.copyFresh l m).copyServed_corrects l (1 - m) false
  exact ⟨(ha.trans (a.copyFresh_corrects l m)).trans hserved, hserved.raw _ (SMap.find_del_same ..)⟩

/-! ## Lost lines -/

theorem State.poison_marks (s : State) (l : Nat) : ((s.poison l).dram.poisoned.find l).isSome = true ∧
    (s.poison l).dram.failDue = s.dram.failDue := by
  unfold State.poison
  rw [(State.uncache_writes _ l).dram_eq rfl]
  refine ⟨?_, rfl⟩
  change ((s.dram.poisoned.put l ()).find l).isSome = true
  rw [SMap.find_put_same]
  rfl

theorem State.lineLost_marks (s : State) (l m scrub : Nat) : ((s.lineLost l m scrub).dram.poisoned.find l).isSome = true ∧
    (s.lineLost l m scrub).dram.failDue = s.dram.failDue := by
  unfold State.lineLost
  extract_lets ch a _ b
  obtain ⟨hmark, hdue⟩ := b.poison_marks l
  have ha : a.dram = s.dram := (State.lineRecord_writes s l m 1 0x0003 31 0 scrub).dram_eq rfl
  exact ⟨hmark, hdue.trans (congrArg DramSt.failDue ha :)⟩

/-- With fewer than three lines lost before, the channel goes on. -/
theorem State.noteLost_few {s : State} {l m : Nat}
    (h : (s.dram.uncorrectable.filter (fun u => u.1 == s.copyChan l m)).length < 3) :
    ∃ lost, s.noteLost l m = { s with dram := { s.dram with uncorrectable := lost } } := by
  unfold State.noteLost
  extract_lets ch lost _ a
  change (s.dram.uncorrectable.filter (fun u => u.1 == ch)).length < 3 at h
  have hlost : (lost.filter (fun u => u.1 == ch)).length < 4 := by
    have hsub := (List.filter_sublist (p := fun u : Nat × Nat × Nat => !(u.1 == ch && u.2.1 == l) && !s.windowOver u.2.2)
      (l := s.dram.uncorrectable)).filter (fun u => u.1 == ch)
    have hlen := hsub.length_le
    simp only [lost, List.filter_append, List.length_append]
    have hone : ([(ch, l, s.now)].filter (fun u : Nat × Nat × Nat => u.1 == ch)).length ≤ 1 := List.length_filter_le ..
    omega
  rw [if_neg (by omega)]
  exact ⟨lost, rfl⟩

/-! ## The scrubber's read -/

/-- What a read of a copy leaves of its line, where the copy's channel has lost few lines. -/
theorem State.copyRead_line {s : State} {l m : Nat} (scrub : Bool) (hdue : s.dram.failDue = [])
    (hfew : (s.dram.uncorrectable.filter (fun u => u.1 == s.copyChan l m)).length < 3) :
    let t := s.copyRead l m scrub
    (s.copyFate l m = some .poisoned ∨ s.copyFate l m = some .bad ∧ s.otherGood l m = false →
      t.dram.failDue = [] ∧ (t.dram.poisoned.find l).isSome = true) ∧
    (s.copyFate l m = some .bad → s.otherGood l m = true → s.dram.poisoned.find l = none →
      t.dram.failDue = [] ∧ t.dram.raw.find (copyKey l m) = none ∧ t.dram.poisoned.find l = none) := by
  obtain ⟨lost, hlost⟩ := State.noteLost_few hfew
  dsimp only
  by_cases hp : (s.dram.poisoned.find l).isSome = true
  · rw [State.copyRead.eq_def, if_pos hp]
    exact ⟨fun _ => ⟨hdue, hp⟩, fun _ _ hnone => by simp [hnone] at hp⟩
  · rw [State.copyRead.eq_def, if_neg hp]
    refine ⟨fun hfate => ?_, fun hbad hgood hnone => ?_⟩
    · rcases hfate with hfate | ⟨hfate, hgood⟩
      · rw [hfate]
        obtain ⟨hmark, hkept⟩ := s.poison_marks l
        exact ⟨hkept.trans hdue, hmark⟩
      · rw [hfate]
        dsimp only
        rw [hgood, if_neg (by decide)]
        obtain ⟨hmark, hkept⟩ := (s.noteLost l m).lineLost_marks l m (if scrub then fgScrub else 0)
        exact ⟨hkept.trans (by rw [hlost]; exact hdue), hmark⟩
    · rw [hbad]
      dsimp only
      rw [hgood, if_pos rfl]
      obtain ⟨hcorrects, hraw⟩ := (s.noteLost l m).mirrorRepair_corrects l m (if scrub then fgScrub else 0)
      refine ⟨?_, hraw, ?_⟩
      · rw [hcorrects.failDue, hlost]
        exact hdue
      · rw [hcorrects.poisoned, hlost]
        exact hnone

theorem State.channelsFail_none {s : State} (h : s.dram.failDue = []) :
    s.channelsFail = { s with dram := { s.dram with failDue := [] } } := by
  rw [State.channelsFail, h]
  rfl

/-- A step of a scrubber moves it on, and deals with the line it has read. -/
theorem scrubStep_scrubs {s : State} {ch : Nat} (hs : s.scrubs ch = true) :
    let a := (s.dram.scrubPos.find ch).getD 0
    let l := s.lineOfLocal ch a
    let m := s.scrubCopy ch a
    ∃ t, exec (.scrubStep ch) s = .next t ∧
      t.dram.scrubPos.find ch = some (if a + 64 < s.scrubSize ch then a + 64 else 0) ∧
      (s.dram.failDue = [] → (∀ c, (s.dram.uncorrectable.filter (fun u => u.1 == c)).length < 3) →
        (s.copyFate l m = some .poisoned ∨ s.copyFate l m = some .bad ∧ s.otherGood l m = false →
          (t.dram.poisoned.find l).isSome = true) ∧
        (s.copyFate l m = some .bad → s.otherGood l m = true → s.dram.poisoned.find l = none →
          t.dram.raw.find (copyKey l m) = none ∧ t.dram.poisoned.find l = none)) := by
  intro a l m
  let moved : State := { s with dram := { s.dram with
    scrubPos := s.dram.scrubPos.put ch (if a + 64 < s.scrubSize ch then a + 64 else 0) } }
  have hrow : exec (.scrubStep ch) s = .next (moved.copyRead l m true).channelsFail := by
    rw [exec_scrubStep, execScrubStep, hs]
    rfl
  refine ⟨_, hrow, ?_, fun hdue hfew => ?_⟩
  · rw [(State.channelsFail_failsOnly _).scrubPos, (moved.copyRead_failsOnly l m true).scrubPos]
    exact SMap.find_put_same ..
  · obtain ⟨hlost, hgood⟩ := State.copyRead_line (s := moved) (l := l) (m := m) true hdue (hfew _)
    refine ⟨fun hfate => ?_, fun hbad hother hnone => ?_⟩
    · obtain ⟨hkept, hmark⟩ := hlost hfate
      rw [State.channelsFail_none hkept]
      exact hmark
    · obtain ⟨hkept, hraw, hclean⟩ := hgood hbad hother hnone
      rw [State.channelsFail_none hkept]
      exact ⟨hraw, hclean⟩

end Sys2Proof.Machine
end

section
/-! SUPPORT. Settling O52, second part: refresh, tracking, training, failing channels, test commands, remap entries and the error
queue. -/
namespace Sys2Proof.Machine
open Sys2Proof

/-! ## Refresh, temperature and the tracking window -/

/-- Another state of the memories is in their frame. -/
theorem State.setDram_frame (s : State) (x : DramSt) : Writes [.dram] s { s with dram := x } := by
  refine .mk fun f hf => ?_
  cases f with
  | dram => exact absurd (by simp) hf
  | _ => rfl

theorem refresh_counts {s : State} {ch : Nat} (hactive : s.chanState ch = .active) (hstate : s.sys.state ≠ .bivouac) :
    ∃ t, exec (.refresh ch) s = .next t ∧
      t.dram.refreshes.find ch = some ((s.dram.refreshes.find ch).getD 0 + 1) ∧ t.out = s.out ++ [.refresh ch] := by
  rw [exec_refresh, execRefresh, if_pos ⟨hactive, hstate⟩]
  exact ⟨_, rfl, SMap.find_put_same .., rfl⟩

theorem dimmTempSample_notes (s : State) {ch : Nat} (hch : ch < 16) (c : Int) : ∃ t, exec (.dimmTempSample ch c) s = .next t ∧
    t.dram.temps.find ch = some c ∧
    (8500 < c → s.dram.hot.contains ch = false → s.dram.hotAsked.contains ch = false →
      t.dram.hotAsked = s.dram.hotAsked ++ [ch]) ∧ (c ≤ 8500 → Writes [.dram] s t) := by
  rw [exec_dimmTempSample, execDimmTempSample, if_neg (by omega)]
  dsimp only
  split
  next hcool =>
    refine ⟨_, rfl, SMap.find_put_same .., fun hc hhot hasked => ?_, fun _ => s.setDram_frame _⟩
    rw [hhot, hasked] at hcool
    rcases hcool with h | h | h
    · omega
    · cases h
    · cases h
  next hwarm =>
    refine ⟨_, rfl, ?_, fun _ _ _ => ?_, fun hc => absurd (.inl hc) hwarm⟩
    · rw [(State.raise_writes ..).dram_eq rfl]
      exact SMap.find_put_same ..
    · rw [(State.raise_writes ..).dram_eq rfl]

/-- The entry of a channel that was counted first. -/
def oldestTracked (m : List Tracked) (ch : Nat) : Option Tracked :=
  (sortBy (fun (a b : Tracked) => decide (a.since < b.since)) (m.filter (fun e => e.ch == ch))).head?

theorem oldestTracked_none {m : List Tracked} {ch : Nat} (h : m.filter (fun e => e.ch == ch) = []) : oldestTracked m ch = none := by
  rw [oldestTracked, h]
  rfl

theorem oldestTracked_one {m : List Tracked} {ch : Nat} {e : Tracked} (h : m.filter (fun e => e.ch == ch) = [e]) :
    oldestTracked m ch = some e := by
  rw [oldestTracked, h]
  rfl

theorem oldestTracked_mem {m : List Tracked} {ch : Nat} {e : Tracked} (h : oldestTracked m ch = some e) :
    e ∈ m ∧ e.ch = ch := by
  have hmem := (perm_sortBy _ _).subset (List.mem_of_mem_head? h)
  obtain ⟨hm, hch⟩ := List.mem_filter.mp hmem
  exact ⟨hm, by simpa using hch⟩

theorem faultWindowExpiry_clears (s : State) (ch : Nat) : ∃ t, exec (.faultWindowExpiry ch) s = .next t ∧ Writes [.dram] s t ∧
    (s.dram.lines.filter (fun e => e.ch == ch) = [] → s.dram.rows.filter (fun e => e.ch == ch) = [] →
      t.dram.lines = s.dram.lines ∧ t.dram.rows = s.dram.rows ∧ ∀ u ∈ t.dram.uncorrectable, u.1 ≠ ch) ∧
    (∀ e, s.dram.lines.filter (fun e => e.ch == ch) = [e] →
      (∀ r ∈ s.dram.rows, r.ch = ch → e.since ≤ r.since) →
        t.dram.lines = s.dram.lines.erase e ∧ t.dram.rows = s.dram.rows) := by
  refine ⟨s.expireTracked ch, rfl, (s.expireTracked_writes ch).frame, fun hlines hrows => ?_, fun e hone hfirst => ?_⟩
  · have hl := oldestTracked_none hlines
    have hr := oldestTracked_none hrows
    rw [oldestTracked] at hl hr
    unfold State.expireTracked
    dsimp only
    rw [hl, hr]
    exact ⟨rfl, rfl, fun u hu => by simpa using (List.mem_filter.mp hu).2⟩
  · have hl := oldestTracked_one hone
    rw [oldestTracked] at hl
    unfold State.expireTracked
    rcases hr : oldestTracked s.dram.rows ch with _ | r
    · rw [oldestTracked] at hr
      dsimp only
      rw [hl, hr]
      exact ⟨rfl, rfl⟩
    · obtain ⟨hmem, hch⟩ := oldestTracked_mem hr
      rw [oldestTracked] at hr
      dsimp only
      rw [hl, hr]
      dsimp only
      rw [if_neg (Nat.not_lt.mpr (hfirst r hmem hch))]
      exact ⟨rfl, rfl⟩

/-! ## Training, initialisation, failing channels -/

theorem mirrorOf_lt (ch : Nat) : mirrorOf ch < 16 := Nat.mod_lt _ (by decide)

/-- A record of the device leaves the status of the memories. -/
theorem State.raise_memStatus (s : State) (a : RecArgs) (h : a.tenant = none) : (s.raise a).onum 0x5000 5 = s.onum 0x5000 5 :=
  s.raise_onum_device a h (by decide)

theorem State.trainingFatal_ends (s : State) (ch : Nat) : (s.trainingFatal ch).dram = s.dram ∧
    (s.trainingFatal ch).onum 0x5000 5 = s.onum 0x5000 5 ∧ (s.trainingFatal ch).sys.state ≠ .forming := by
  unfold State.trainingFatal
  extract_lets a
  have hdram : a.dram = s.dram := (State.raise_writes ..).dram_eq rfl
  have hstatus : a.onum 0x5000 5 = s.onum 0x5000 5 := s.raise_memStatus _ rfl
  split
  next => exact ⟨hdram, hstatus, show DevState.configuration ≠ .forming by decide⟩
  next hno => exact ⟨hdram, hstatus, hno⟩

theorem ddrTrainingDone_settles {s : State} (htrain : s.onum 0x5000 5 = 1) (failed : List Nat) :
    ∃ t, exec (.ddrTrainingDone failed) s = .next t ∧
      (∀ ch < 16, t.chanState ch = if failed.contains ch then .failed else .active) ∧
      ((∀ ch < 16, failed.contains ch = true → s.oflag 0x5000 3 = true ∧ failed.contains (mirrorOf ch) = false) →
        t.onum 0x5000 5 = 2) ∧
      (∀ ch < 16, failed.contains ch = true → s.oflag 0x5000 3 = false ∨ failed.contains (mirrorOf ch) = true →
        t.onum 0x5000 5 = 4 ∧ t.sys.state ≠ .forming) := by
  refine ⟨s.trainingDone failed, rfl, ?_⟩
  unfold State.trainingDone
  rw [if_neg (not_not_intro htrain)]
  extract_lets bad a b
  have hbad : ∀ c < 16, bad.contains c = failed.contains c := fun c hc => by
    rw [Bool.eq_iff_iff]
    simp [bad, hc]
  have hchan : ∀ ch < 16, a.chanState ch = if failed.contains ch then .failed else .active := fun ch hch => by
    rw [State.setChan16_chanState _ _ hch, hbad ch hch]
  have halone : ∀ c < 16, failed.contains c = true →
      (c ∈ bad.filter (fun c => !a.oflag 0x5000 3 || bad.contains (mirrorOf c)) ↔
      s.oflag 0x5000 3 = false ∨ failed.contains (mirrorOf c) = true) := fun c hc hf => by
    have hmem : c ∈ bad := by simpa using (hbad c hc).trans hf
    rw [List.mem_filter, hbad _ (mirrorOf_lt c)]
    simp only [hmem, true_and, Bool.or_eq_true, Bool.not_eq_true']
    rfl
  split
  next c l hlist =>
    obtain ⟨hdram, hstatus, hstate⟩ := (a.oset 0x5000 5 4).trainingFatal_ends c
    have hfour : ((a.oset 0x5000 5 4).trainingFatal c).onum 0x5000 5 = 4 := hstatus.trans (State.onum_oset_same ..)
    refine ⟨fun ch hch => ?_, fun hall => ?_, fun _ _ _ _ => ⟨hfour, hstate⟩⟩
    · rw [State.chanState, hdram]
      exact hchan ch hch
    · have hc : c ∈ bad.filter (fun c => !a.oflag 0x5000 3 || bad.contains (mirrorOf c)) := hlist ▸ List.mem_cons_self
      have hcbad := (List.mem_filter.mp hc).1
      have hc16 : c < 16 := List.mem_range.mp (List.mem_filter.mp hcbad).1
      have hcf : failed.contains c = true := (List.mem_filter.mp hcbad).2
      obtain ⟨hmir, hpart⟩ := hall c hc16 hcf
      rcases (halone c hc16 hcf).mp hc with h | h
      · rw [hmir] at h
        cases h
      · rw [hpart] at h
        cases h
  next hlist =>
    have hfold : Moves [.objs, .err, .mgmt, .out] a b := Moves.foldl _ (fun s c => State.raise_writes ..) (.refl _ a)
    refine ⟨fun ch hch => ?_, fun _ => State.onum_oset_same .., fun ch hch hf h => ?_⟩
    · rw [State.chanState, State.oset_dram, hfold.dram_eq rfl]
      exact hchan ch hch
    · have hmem := (halone ch hch hf).mpr h
      rw [hlist] at hmem
      cases hmem

theorem ddrInitDone_zeroes {s : State} (h : s.onum 0x5000 5 = 2) : ∃ t, exec .ddrInitDone s = .next t ∧ t.onum 0x5000 5 = 3 ∧
    t.dram.retained = [] ∧ t.mem = if s.dram.retained = [] then [] else s.mem := by
  refine ⟨s.initDone, rfl, ?_⟩
  unfold State.initDone
  rw [if_neg (not_not_intro h)]
  refine ⟨State.onum_oset_same .., rfl, ?_⟩
  by_cases hnone : s.dram.retained = []
  · simp [hnone]
  · simp [hnone]

theorem State.fenceChannel_fails (s : State) (ch : Nat) : (s.fenceChannel ch).chanState ch = .failed ∧
    Writes [.objs, .dram, .err, .mgmt, .out] s (s.fenceChannel ch) := by
  refine ⟨?_, (State.fenceChannel_writes ..).frame⟩
  rw [State.fenceChannel, State.chanState, (State.raise_writes ..).dram_eq rfl, SMap.find_put_same]
  rfl

/-- A channel without a partner takes the device's memory with it. -/
theorem State.channelFails_alone {s : State} {ch : Nat} (hactive : s.chanState ch = .active) (halone : s.hasPartner ch = false) :
    (s.channelFails ch).chanState ch = .failed ∧ (s.sys.state = .operational → (s.channelFails ch).sys.state = .retreat) := by
  rw [State.channelFails, if_neg (not_not_intro hactive), halone, if_neg (by decide)]
  refine ⟨(State.fatalDevice_failsOnly ..).failed ch ?_, fun hop => ?_⟩
  · rw [State.chanState, SMap.find_put_same]
    rfl
  · rw [State.fatalDevice]
    refine State.enterRetreat_state _ _ (.inl ?_)
    rw [(State.raise_writes ..).sys_eq rfl]
    exact hop

theorem channelFailure_fails {s : State} {ch : Nat} (hactive : s.chanState ch = .active) :
    ∃ t, exec (.channelFailure ch) s = .next t ∧ t.chanState ch = .failed ∧
      (s.dram.mirrored = true → s.chanState (mirrorOf ch) = .active → Writes [.objs, .dram, .err, .mgmt, .out] s t) ∧
      (s.dram.mirrored = false → s.sys.state = .operational → t.sys.state = .retreat) := by
  refine ⟨s.channelFails ch, rfl, ?_⟩
  by_cases hpartner : s.hasPartner ch = true
  · have hfence : s.channelFails ch = s.fenceChannel ch := by
      rw [State.channelFails, if_neg (not_not_intro hactive), if_pos hpartner]
    obtain ⟨hfailed, hframe⟩ := s.fenceChannel_fails ch
    rw [hfence]
    refine ⟨hfailed, fun _ _ => hframe, fun hno => ?_⟩
    rw [State.hasPartner, hno] at hpartner
    cases hpartner
  · obtain ⟨hfailed, hretreat⟩ := State.channelFails_alone hactive (Bool.eq_false_iff.mpr hpartner)
    refine ⟨hfailed, fun hmir hact => absurd ?_ hpartner, fun _ => hretreat⟩
    rw [State.hasPartner, hmir, hact]
    rfl

/-! ## Test mode -/

theorem State.populated_oset_test (s : State) (m n : Nat) (hm : m < 256) : (s.oset 0xF012 m n).populated = s.populated :=
  State.onum_oset_other s n (by simp only [okey]; omega)

/-- The status of a test command is beside the lines. -/
theorem State.lineRead_testStatus (s : State) (l n : Nat) : (s.oset 0xF012 5 n).lineRead l = s.lineRead l := by
  have hbase : (s.oset 0xF012 5 n).regionBase = s.regionBase := by
    rw [State.regionBase, s.populated_oset_test 5 n (by decide)]
    rfl
  rw [State.lineRead, hbase]
  rfl

theorem State.codeword_testStatus (s : State) (l n : Nat) : (s.oset 0xF012 5 n).codeword l = s.codeword l := by
  have hspare : (s.oset 0xF012 5 n).spareOff = s.spareOff := by
    funext o
    rw [State.spareOff, s.populated_oset_test 5 n (by decide)]
    rfl
  have hserves : (s.oset 0xF012 5 n).serves l = s.serves l := by
    unfold State.serves State.twoCopies State.copyChan State.lineChan
    rw [hspare, s.populated_oset_test 5 n (by decide)]
    rfl
  rw [State.codeword, State.copyWord, hserves, s.lineRead_testStatus]
  rfl

/-- A written line has neither raw words nor the mark of a poisoned line. -/
theorem State.lineWrite_noRaw {s : State} {l : Nat} (hraw : ∀ m < 2, s.dram.raw.find (copyKey l m) = none) (bs : List Byte) :
    ∀ m < 2, (s.lineWrite l bs).dram.raw.find (copyKey l m) = none := by
  intro m hm
  unfold State.lineWrite
  dsimp only
  split
  · split
    · exact SMap.find_del_none (SMap.find_del_none (((State.putObj_writes ..).dram_eq rfl).symm ▸ hraw m hm) _) _
    · exact hraw m hm
  · split
    · exact hraw m hm
    · exact SMap.find_del_none (SMap.find_del_none (hraw m hm) _) _

theorem State.serves_lt (s : State) (l : Nat) : s.serves l < 2 ∧ (s.twoCopies l = false → s.serves l = 0) := by
  unfold State.serves
  split
  next h => exact ⟨by decide, fun _ => rfl⟩
  next h =>
    refine ⟨?_, fun hone => absurd (by rw [hone]; rfl) h⟩
    dsimp only
    have hbit : (bitAt l 14).toNat < 2 := Bool.toNat_lt _
    split <;> omega

theorem State.copyWord_raw {s : State} {l m : Nat} {w : List Byte × List Byte} (h : s.dram.raw.find (copyKey l m) = some w) :
    s.copyWord l m = w := by
  rw [State.copyWord, h]

theorem State.copyWord_plain (s : State) {l m : Nat} {data check : List Byte} (hraw : s.dram.raw.find (copyKey l m) = none)
    (hclean : s.dram.poisoned.find l = none) (hdata : s.lineRead l = data) (hcheck : check = rsCheck (checkLen l) data) :
    s.copyWord l m = (data, check) := by
  rw [State.copyWord, hraw, hcheck, ← hdata, hclean]
  rfl

/-- A word under the keys of a line's copies is found under the key of the one that serves. -/
theorem stored_find {α : Type} {raw : SMap α} {l m : Nat} {two : Bool} {w : α} (hm : m < 2) (hone : two = false → m = 0) :
    (if two = true then (raw.put l w).put (copyKey l 1) w else raw.put l w).find (copyKey l m) = some w := by
  have hfirst : (raw.put l w).find (copyKey l 0) = some w := SMap.find_put_same ..
  cases two with
  | false => rw [hone rfl, if_neg (by decide), hfirst]
  | true =>
    rw [if_pos rfl]
    obtain rfl | rfl : m = 0 ∨ m = 1 := by omega
    · rw [SMap.find_put_other _ _ (by simp [copyKey]), hfirst]
    · rw [SMap.find_put_same]

/-- A stored codeword reads back as it was stored. -/
theorem State.testStore_codeword (s : State) (l : Nat) (data check : List Byte) :
    (s.testStore l data check).codeword l = (data, check) ∧ ((s.testStore l data check).dram.testLines.find l).isSome = true := by
  unfold State.testStore
  extract_lets shown a plain both
  have hraw : ∀ m < 2, a.dram.raw.find (copyKey l m) = none := by
    refine State.lineWrite_noRaw (fun m hm => ?_) shown
    obtain rfl | rfl : m = 0 ∨ m = 1 := by omega
    · exact SMap.find_del_none (SMap.find_del_same ..) _
    · exact SMap.find_del_same ..
  have hclean : a.dram.poisoned.find l = none := SMap.find_del_same ..
  obtain ⟨hlt, hone⟩ := a.serves_lt l
  refine ⟨?_, by rw [SMap.find_put_same]; rfl⟩
  by_cases hplain : plain = true
  · obtain ⟨hcheck, hdata⟩ := Bool.and_eq_true_iff.mp hplain
    rw [if_pos hplain]
    exact a.copyWord_plain (hraw _ hlt) hclean (eq_of_beq hdata) (eq_of_beq hcheck)
  · rw [if_neg hplain]
    refine State.copyWord_raw ?_
    change (if a.twoCopies l = true then both.put (copyKey l 1) (data, check) else both).find (copyKey l (a.serves l)) = _
    exact stored_find hlt hone

theorem State.testCommand_done {s : State} (f : Nat → State) (hok : s.testOk (s.onum 0xF012 1) = true) :
    s.testCommand f = (f (s.onum 0xF012 1)).oset 0xF012 5 2 := by
  rw [State.testCommand]
  exact if_pos hok

theorem State.testCommand_refused {s : State} (f : Nat → State) (hok : s.testOk (s.onum 0xF012 1) = false) :
    s.testCommand f = s.oset 0xF012 5 3 := by
  rw [State.testCommand]
  exact if_neg (by rw [hok]; decide)

/-- A test write ends done, with its codeword stored. -/
theorem testStore_done (s : State) (l : Nat) (data check : List Byte) :
    let t := (s.testStore l data check).oset 0xF012 5 2
    t.onum 0xF012 5 = 2 ∧ t.codeword l = (data, check) ∧ (t.dram.testLines.find l).isSome = true := by
  obtain ⟨hword, htest⟩ := s.testStore_codeword l data check
  exact ⟨State.onum_oset_same .., (State.codeword_testStatus ..).trans hword, htest⟩

theorem State.oblob_oput (s : State) (i m : Nat) (b : List Byte) : (s.oput i m (.blob b)).oblob i m = b := by
  simp [State.oblob, State.obj, State.oput, SMap.find_put_same]

theorem State.oblob_oput_other (s : State) {i m j k : Nat} (v : ObjVal) (h : okey i m ≠ okey j k) :
    (s.oput j k v).oblob i m = s.oblob i m := by
  simp [State.oblob, State.obj, State.oput, SMap.find_put_other _ _ h]

theorem testRead_reads {s : State} (hok : s.testOk (s.onum 0xF012 1) = true) :
    ∃ t, exec .testRead s = .next t ∧ t.onum 0xF012 5 = 2 ∧ t.oblob 0xF012 2 = (s.codeword (s.onum 0xF012 1)).1 ∧
      t.oblob 0xF012 3 = (s.codeword (s.onum 0xF012 1)).2 ∧ Writes [.objs] s t := by
  refine ⟨_, congrArg Host.Outcome.next (State.testCommand_done _ hok), State.onum_oset_same .., ?_, ?_, ?_⟩
  · rw [State.oset, State.oblob_oput_other _ _ (by decide), State.oblob_oput_other _ _ (by decide), State.oblob_oput]
  · rw [State.oset, State.oblob_oput_other _ _ (by decide), State.oblob_oput]
  · exact (((State.oput_writes ..).trans (State.oput_writes ..)).trans (State.oset_writes ..)).frame

theorem testCommands_work (s : State) :
    let l := s.onum 0xF012 1
    let d := fitTo 64 (s.oblob 0xF012 2)
    (s.testOk l = true →
      (∀ p ∈ ([(.testWrite, rsCheck (checkLen l) d), (.testWriteRaw, fitTo (checkLen l) (s.oblob 0xF012 3))] :
          List (Instr × List Byte)), ∃ t, exec p.1 s = .next t ∧ t.onum 0xF012 5 = 2 ∧ t.codeword l = (d, p.2) ∧
        (t.dram.testLines.find l).isSome = true) ∧
      ∃ t, exec .testRead s = .next t ∧ t.onum 0xF012 5 = 2 ∧ t.oblob 0xF012 2 = (s.codeword l).1 ∧
        t.oblob 0xF012 3 = (s.codeword l).2 ∧ Writes [.objs] s t) ∧
    (s.testOk l = false → ∀ c ∈ ([.testWrite, .testWriteRaw, .testRead] : List Instr),
      exec c s = .next (s.oset 0xF012 5 3)) := by
  intro l d
  refine ⟨fun hok => ⟨fun p hp => ?_, testRead_reads hok⟩, fun hno c hc => ?_⟩
  · simp only [List.mem_cons, List.not_mem_nil, or_false] at hp
    rcases hp with rfl | rfl
    · exact ⟨_, congrArg Host.Outcome.next (State.testCommand_done _ hok), testStore_done ..⟩
    · exact ⟨_, congrArg Host.Outcome.next (State.testCommand_done _ hok), testStore_done ..⟩
  · simp only [List.mem_cons, List.not_mem_nil, or_false] at hc
    rcases hc with rfl | rfl | rfl <;> exact congrArg Host.Outcome.next (State.testCommand_refused _ hno)

/-! ## Remap entries and the error queue -/

theorem bytesOfWords_length (ws : List Nat) : (bytesOfWords ws).length = 8 * ws.length := by
  induction ws with
  | nil => rfl
  | cons w ws ih =>
    rw [bytesOfWords, List.flatMap_cons, List.length_append, natLe_length, List.length_cons]
    change 8 + (bytesOfWords ws).length = _
    omega

theorem remapRead_reads (s : State) {ch : Nat} (hch : ch < 18) : ∃ t b, exec (.remapRead ch) s = .next t ∧
    t.oblob 0xF012 6 = b ∧ t.out = s.out ++ [.objValue 0xF012 6 b] ∧
    b.length = 8 * (s.flash.remaps.filter (fun r => r.ch == ch)).length ∧ Writes [.objs, .out] s t := by
  rw [exec_remapRead, execRemapRead, if_pos hch]
  unfold State.remapRead
  extract_lets rs b
  refine ⟨_, b, rfl, ?_, rfl, ?_, ?_⟩
  · exact State.oblob_oput ..
  · rw [bytesOfWords_length, List.length_map, (perm_sortBy _ _).length_eq]
  · exact (((State.oput_writes ..).mono (.mk rfl)).trans ((State.emit_writes ..).mono (.mk rfl))).frame

theorem nextRecordRead_pops {s : State} {r : ErrRec} {q : List ErrRec} (h : s.err.queue = r :: q) :
    ∃ t, exec .nextRecordRead s = .next t ∧ t.err.queue = q ∧ t.out = s.out ++ [.objValue 0x5200 2 r.bytes] := by
  have hpop : s.popRecord = (r.bytes, { s with err := { s.err with queue := q } }) := by rw [State.popRecord, h]
  rw [exec_nextRecordRead, execNextRecordRead, hpop]
  exact ⟨_, rfl, rfl, rfl⟩

theorem nextRecordRead_empty {s : State} (h : s.err.queue = []) :
    exec .nextRecordRead s = .next (s.emit (.objValue 0x5200 2 (zeros 64))) := by
  have hpop : s.popRecord = (zeros 64, s) := by rw [State.popRecord, h]
  rw [exec_nextRecordRead, execNextRecordRead, hpop]

theorem fatalLatchRead_empties {s : State} {r : ErrRec} (h : s.err.latch = some r) :
    ∃ t, exec .fatalLatchRead s = .next t ∧ t.err.latch = none ∧ t.out = s.out ++ [.objValue 0x5200 4 r.bytes] := by
  have hpop : s.popLatch = (r.bytes, { s with err := { s.err with latch := none } }) := by rw [State.popLatch, h]
  rw [exec_fatalLatchRead, execFatalLatchRead, hpop]
  exact ⟨_, rfl, rfl, rfl⟩

theorem fatalLatchRead_empty {s : State} (h : s.err.latch = none) :
    exec .fatalLatchRead s = .next (s.emit (.objValue 0x5200 4 (zeros 64))) := by
  have hpop : s.popLatch = (zeros 64, s) := by rw [State.popLatch, h]
  rw [exec_fatalLatchRead, execFatalLatchRead, hpop]

/-- Settles O52: command by command. -/
theorem memoryCommands : Obligations.MemoryCommands := fun s =>
  ⟨fun _ _ => refresh_counts, fun _ hch => dimmTempSample_notes s hch, fun _ => scrubStep_scrubs, faultWindowExpiry_clears s,
    ddrTrainingDone_settles, ddrInitDone_zeroes, fun _ _ => channelFailure_fails, testCommands_work s,
    fun _ => remapRead_reads s, fun _ _ => nextRecordRead_pops, nextRecordRead_empty, fun _ => fatalLatchRead_empties,
    fatalLatchRead_empty⟩

end Sys2Proof.Machine
end
